-- ==== Sys2Proof/Word.lean ====
section
/-!
DEFINITION. The plain words of the device: bytes, 32-bit CSR words, 64-bit register words, lists of bytes
(lowest address first, R8), and the shape of sparse data: a list of (key, value) pairs.
-/

namespace Sys2Proof

/-- One byte. -/
abbrev Byte := BitVec 8

/-- A CSR word (R54), an FP32 code (R62) or an INT32 entry (R84). -/
abbrev W32 := BitVec 32

/-- A general register (R177), an Echo time (R381) or a global address (R50). -/
abbrev W64 := BitVec 64

/-- Bytes in address order, the lowest address first (R8). -/
abbrev Bytes := List Byte

/-- Sparse data by key: pairs of a key and a value, keys strictly rising. A key not listed holds the
default that the reading operation names. -/
abbrev Map (α : Type) := List (Nat × α)

end Sys2Proof
end

