-- ==== Sys2Proof/Syntax.lean ====
section
/-!
DEFINITION. The commands of the device: one constructor of `Instr` for each row of spec/opcode_table.json,
in the table's order, with the operands that the step takes. A row that an agent of the device performs
names the unit (core, port, stack, ring …). A row that carries something from outside (a frame, a sensor
reading, the outcome of a test, a Sasil message) carries it as an operand.
-/

namespace Sys2Proof

/-- A general register number, g0 to g31 (R177). -/
abbrev Reg := Fin 32

/-- How a command was issued to an engine by an X instruction (R188, R189): tag-dest, SYNC, NOTAG and the
descriptor's scratchpad offset. -/
structure Issue where
  tag    : Fin 32
  sync   : Bool
  notag  : Bool
  doff   : Nat
  deriving DecidableEq, Repr

/-! ### Descriptors -/

/-- PCONF descriptor, Table 4.10 (R135). -/
structure PconfDesc where
  fmt  : BitVec 4
  pack : BitVec 3
  sen  : Bool
  bsz  : Bool
  een  : Bool
  ramp : BitVec 2
  ten  : Bool
  deriving DecidableEq, Repr

/-- PLOAD descriptor, Tables 4.9 and 4.11. -/
structure PloadDesc where
  submask : BitVec 8
  fmt     : BitVec 4
  sen     : Bool
  bsz     : Bool
  data    : Nat
  scl     : Nat
  esca    : Nat
  deriving DecidableEq, Repr

/-- PSTREAM descriptor, Tables 4.9 and 4.12. `mov` holds MOV0 to MOV3, `acc` ACC0 to ACC7. -/
structure PstreamDesc where
  submask : BitVec 8
  fmt     : BitVec 4
  accum   : Bool
  sen     : Bool
  bsz     : Bool
  m       : Nat
  mov     : List Nat
  mstride : Nat
  msc     : Nat
  acc     : List Nat
  deriving DecidableEq, Repr

/-- PDRAIN descriptor, Table 4.13. -/
structure PdrainDesc where
  ofmt    : BitVec 3
  rtz     : Bool
  sat     : Bool
  etype   : Bool
  clr     : Bool
  col0    : Nat
  ncol    : Nat
  row0    : Nat
  nrow    : Nat
  out     : Nat
  ostride : Nat
  cscale  : Nat
  rscale  : Nat
  deriving DecidableEq, Repr

/-- A Press command (R109). -/
inductive PressCmd where
  | pconf   (d : PconfDesc)
  | pload   (d : PloadDesc)
  | pswap
  | pstream (d : PstreamDesc)
  | pdrain  (d : PdrainDesc)
  deriving DecidableEq, Repr

/-- The vector operations of Table 6.12 (R202). -/
inductive VecOp where
  | add | sub | mul | fma | max | min | sel | cgt | abs | neg | exp2 | log2 | rcp | rsqrt
  | rsum | rmax | rmin | ramax | cvt | qnt | qnte | dqnt | trn | copy
  deriving DecidableEq, Repr

/-- A vector descriptor, Table 6.11, less OP. Operand words SA, SB, SC and DST are kept whole (R200). -/
structure VecDesc where
  rnd    : BitVec 2
  sat    : Bool
  bsz    : Bool
  bimm   : Bool
  cimm   : Bool
  ifmt   : BitVec 4
  ofmt   : BitVec 4
  n      : Nat
  rows   : Nat
  sa     : W32
  sb     : W32
  sc     : W32
  dst    : W32
  apitch : Nat
  bpitch : Nat
  cpitch : Nat
  dpitch : Nat
  scl    : Nat
  esc    : Nat
  immb   : W32
  immc   : W32
  deriving DecidableEq, Repr

/-- The DMA operations of Table 5.5. -/
inductive DmaOp where
  | copy | fill | streamIn | streamOut
  deriving DecidableEq, Repr

/-- A DMA descriptor, Table 5.5, less OP. -/
structure DmaDesc where
  ntf    : Bool
  endm   : Bool
  burst  : Nat
  len    : Nat
  src    : W64
  dst    : W64
  rows   : Nat
  msz    : Nat
  spitch : Nat
  dpitch : Nat
  wtag   : W32
  pat    : W64
  nq     : Nat
  ndev   : BitVec 16
  ndata  : W64
  deriving DecidableEq, Repr

/-- A SEND descriptor, Table 7.6. -/
structure SendDesc where
  resv : Bool
  endm : Bool
  size : Nat
  src  : Nat
  dest : W32
  res  : Nat
  deriving DecidableEq, Repr

/-- An EVPOST descriptor, Table 7.7. -/
structure EvpostDesc where
  resv : Bool
  tgt  : W32
  mask : W32
  res  : Nat
  deriving DecidableEq, Repr

/-- An MCSET or MCGET descriptor, Table 7.8. -/
structure McDesc where
  resv : Bool
  chan : Nat
  img  : Nat
  res  : Nat
  deriving DecidableEq, Repr

/-- A queue-unit command (R234). -/
inductive QueCmd where
  | send   (d : SendDesc)
  | evpost (d : EvpostDesc)
  | mcset  (d : McDesc)
  | mcget  (d : McDesc)
  deriving DecidableEq, Repr

/-- The operations of engine 7, Table 7.12. -/
inductive LockOp where
  | acq | try_ | rel | add | min | max | minu | maxu | swap | cas
  deriving DecidableEq, Repr

/-- A lock and atomic descriptor, Table 7.12, less OP. -/
structure LockDesc where
  w64  : Bool
  eve  : Bool
  resv : Bool
  evf  : Nat
  lock : Nat
  ldev : BitVec 16
  addr : W64
  opnd : W64
  cmpv : W64
  wtag : W32
  res  : Nat
  deriving DecidableEq, Repr

/-- What an X instruction hands to an engine. -/
inductive EngBody where
  | press (p : PressCmd)
  | vec   (op : VecOp) (d : VecDesc)
  | dma   (e : Fin 4) (op : DmaOp) (d : DmaDesc)
  | que   (q : QueCmd)
  | lock  (op : LockOp) (d : LockDesc)
  deriving DecidableEq, Repr

/-- A command with the way it was issued. -/
structure XCmd where
  iss  : Issue
  body : EngBody
  deriving DecidableEq, Repr

/-! ### Requesters, requests and messages -/

/-- Who makes a request on the device's address map (R50, R53). `dev` is a requester of another device. -/
inductive Requester where
  | core   (c : Nat)
  | carafe
  | host   (h f : Nat)
  | dev    (sdev spart score : Nat)
  deriving DecidableEq, Repr

/-- The fields of a function's configuration space that Tables 11.1 and 11.2 give (R349, R350): IDs, class code, subsystem ID,
command, power state, size of BAR2, SR-IOV and the AER status. -/
inductive CfgReg where
  | ids | classCode | subsystem | command | power | bar2Size | sriov | aer
  deriving DecidableEq, Repr

/-- Where a register access goes: the global map (R54), a function page in BAR0 (R371), the mailbox of a
function in BAR4 (R516), or a function's configuration space (R349). -/
inductive CsrAddr where
  | global (a : Nat)
  | bar0   (h f off : Nat)
  | bar4   (h f off : Nat)
  | config (h f : Nat) (r : CfgReg)
  deriving DecidableEq, Repr

/-- The operation of a request that arrives at a scratchpad (R157); a write lists its poisoned 8 B words by offset (R297). -/
inductive MemOp where
  | read
  | write (data : Bytes) (poison : List Nat)
  | atomic (op : LockOp) (w64 : Bool) (opnd cmpv : W64)
  deriving DecidableEq, Repr

/-- A request in remote form that arrives for a scratchpad (R157). -/
structure WinReq where
  op    : MemOp
  off   : Nat
  size  : Nat
  tag   : W32
  sdev  : Nat
  spart : Nat
  deriving DecidableEq, Repr

/-- A request in local form that arrives for a scratchpad from a core of this device (R161). -/
structure LocReq where
  op   : MemOp
  off  : Nat
  size : Nat
  src  : Nat
  deriving DecidableEq, Repr

/-- A sending path (R225): one control unit, one queue unit, one DMA engine, one function of a host die's
launch engine (R362), or a multicast copy forwarded here by another device (R241). -/
inductive SendPath where
  | ctl (c : Nat)
  | que (c : Nat)
  | dma (c : Nat) (e : Fin 4)
  | fn  (h f : Nat)
  | fwd (sdev rtag : Nat)
  deriving DecidableEq, Repr

/-- A message that comes from another device over a link (R296). -/
structure ExtMsg where
  gid   : Nat
  bytes : Bytes
  sdev  : Nat
  spart : Nat
  score : Nat
  endm  : Bool
  rtag  : Nat
  granted : Bool
  deriving DecidableEq, Repr

/-- The message that reaches a queue: member `k` of the message in flight of a path of this device, or one
from another device. -/
inductive MsgRef where
  | path (p : SendPath) (k : Nat)
  | ext  (m : ExtMsg)
  deriving DecidableEq, Repr

/-- The EVPOST that reaches its target: the one in flight of core `c`, or one from another device. -/
inductive EvpRef where
  | core (c : Nat)
  | ext  (tgt : Nat) (mask : W32) (sdev spart rtag : Nat)
  deriving DecidableEq, Repr

/-- What becomes of a grant (R224, R254): it reaches member `k` of a path of this device, which waits for it; or the sender on another
device to which queue `q` of core `c` sent it has been reset, and answers it with DEST_RESET. -/
inductive GrantRef where
  | path    (p : SendPath) (k : Nat)
  | refused (c q sdev : Nat)
  deriving DecidableEq, Repr

/-- What a destination on another device answers to a message (R222, R224): a final status of Table 7.1, or no credit,
with or without a waiter record. DESIGN CHOICE, log entry 39. -/
inductive MsgAns where
  | final (status : Nat)
  | nocredit (recorded : Bool)
  deriving DecidableEq, Repr

/-- A forwarded multicast copy that arrives from another device (R241). -/
structure FwdMsg where
  chan  : Nat
  bytes : Bytes
  sdev  : Nat
  spart : Nat
  score : Nat
  endm  : Bool
  crossed : Nat
  rtag  : Nat
  deriving DecidableEq, Repr

/-- The operation a lock unit receives (Table 7.10). -/
inductive LockKind where
  | rel | notice | acq | try_
  deriving DecidableEq, Repr

/-- A request that arrives at a lock unit (R246): of a core of this device, or of another device. A `notice`
is the reset notice of R247 for its requester. -/
structure LockReq where
  kind : LockKind
  dev  : Nat
  core : Nat
  part : Nat
  remote : Bool
  deriving DecidableEq, Repr

/-- The atomic that reaches its target: the engine-7 command at the head of core `c`, or one from another
device for core `tgt`. -/
inductive AtRef where
  | core (c : Nat)
  | ext  (tgt : Nat) (r : WinReq) (rtag : Nat)
  deriving DecidableEq, Repr

/-! ### Mesh -/

/-- The two planes of the mesh (R257). -/
inductive Plane where
  | a | b
  deriving DecidableEq, Repr

/-- A router's ports, numbered as IN and OUT of Tables 8.11 and 8.12. -/
inductive MeshPort where
  | north | east | south | west | local_ | edge
  deriving DecidableEq, Repr

/-- Where a packet goes (R263): a logical core; an edge die (0 to 15 stack, 16 to 23 link die, 24 to 25 host die, 26 M,
Table 8.13) with what chooses its edge router there: the physical offset in a stack, the port of a link die, the address at a host
die or M; or a field's controller, lock unit and field block (R572). -/
inductive MeshDest where
  | core  (c : Nat)
  | edge  (die sel : Nat)
  | field (n : Nat)
  deriving DecidableEq, Repr

/-- The kinds of packets of Table 8.1. `store` is a global store, atomic, queue message, EVPOST, lock operation, launch message or
notification. -/
inductive PktKind where
  | readReq | bulk | store | rdata | answer | grant
  deriving DecidableEq, Repr

/-- A packet on the mesh: its payload in bytes, the number of the burst that it carries or asks for (R260), the core that sent it
(0x7FF for an edge die, Carafe or a remote source) and, for an edge die, the core on whose behalf it answers, or the target of a launch message (R271, R362).
`resends` counts its flits that failed their check at the seam crossing it leaves by (R31). -/
structure Packet where
  id    : Nat
  kind  : PktKind
  burst : Nat
  payload : Nat
  vc1   : Bool
  inp   : MeshPort
  dest  : MeshDest
  srcCore : Nat
  behalf : Option Nat
  abort : Bool
  resends : Nat
  deriving DecidableEq, Repr

/-- The wires of one wire group that a wire test found failed (R28, R30). -/
structure WireTest where
  plane : Nat
  dir   : Nat
  group : Nat
  failed : List Nat
  badA : Bool
  badB : Bool
  deriving DecidableEq, Repr

/-! ### Links -/

/-- The outcome of PMD training and lane checks of a port (R287 steps 1 and 2). `failed` and `failedTx` mark lanes 0 to 3
that failed in the receiving and the sending direction; `steerable` says that the cable is full-width and the partner offers steering (R284);
`moduleOk` that the pluggable module, where there is one, is ready (R285). -/
structure TrainResult where
  locked    : Bool
  failed    : BitVec 4
  failedTx  : BitVec 4
  steerable : Bool
  moduleOk  : Bool
  deriving DecidableEq, Repr

/-- The body of a TRAIN frame (R287, R295). -/
structure TrainBody where
  vmask   : BitVec 8
  dev     : Nat
  port    : Nat
  credits : List Nat
  steer   : Bool
  malformed : Bool
  deriving DecidableEq, Repr

/-- A packet header on a link (Table 9.4) with its payload; `poison` lists its poisoned data flits (R297). -/
structure LinkPkt where
  opc    : BitVec 8
  endm   : Bool
  vc1    : Bool
  ord    : Bool
  len    : Nat
  hops   : Nat
  ddev   : Nat
  sdev   : Nat
  spart  : Nat
  epoch  : BitVec 8
  score  : Nat
  rtag   : Nat
  status : BitVec 8
  subop  : BitVec 8
  addr   : W64
  wtag   : W32
  opnd   : W64
  cmpv   : W64
  size   : Nat
  data   : Bytes
  poison : List Nat
  deriving DecidableEq, Repr

/-- What a flit slot of a DATA frame carries: a header with its packet, a data flit, or an abort tail. -/
inductive Flit where
  | header (p : LinkPkt)
  | data   (b : Bytes) (poison : Bool)
  | abort
  deriving DecidableEq, Repr

/-- A Thango Link frame (Table 9.3) without the body of a BEACON or TRAIN frame. `crcOk` and `tagOk` say whether its CRC and its tag
hold; `count` is the frame count in the nonce of a frame that is encrypted or authenticated (R316). -/
structure Frame where
  type_ : BitVec 4
  enc   : Bool
  keyid : Bool
  vc    : BitVec 2
  nflit : Nat
  seq   : BitVec 16
  ack   : BitVec 16
  cred  : Nat
  credVc : BitVec 2
  flits : List Flit
  crcOk : Bool
  tagOk : Bool
  cause : BitVec 8
  seqc  : BitVec 16
  malformed : Bool
  count : Nat
  deriving DecidableEq, Repr

/-- The body of a BEACON frame (R318), with the Echo time of its arrival, which the receiver stamps. -/
structure Beacon where
  sent    : W64
  lastTx  : W64
  lastRx  : W64
  dev     : Nat
  dist    : BitVec 8
  arrived : W64
  deriving DecidableEq, Repr

/-- An Ethernet-mode DATA packet as received (R298, Table 9.5). `bytes` counts its DATA bytes for R300; `mac` says that the frame is a
MAC control, PAUSE or priority flow control frame instead (Table 9.1). -/
structure EthPkt where
  psn   : Nat
  apsn  : Nat
  pkt   : LinkPkt
  ce    : Bool
  bytes : Nat
  mac   : Bool
  deriving DecidableEq, Repr

/-- The remote request that a REMOTE_TIMEOUT ends (R310): burst `k` of a DMA engine, member `k` of a message in flight,
the EVPOST of a queue unit, or the command of a lock and atomic unit. -/
inductive RemoteRef where
  | burst  (c : Nat) (e : Fin 4) (k : Nat)
  | member (p : SendPath) (k : Nat)
  | evpost (c : Nat)
  | lock   (c : Nat)
  deriving DecidableEq, Repr

/-- The state of one pluggable module at a poll (R285). -/
structure CmisStatus where
  present : Bool
  app     : Bool
  fault   : Bool
  ident   : Bytes
  deriving DecidableEq, Repr

/-! ### Stacked memory and host -/

/-- A request that reaches a stack controller (R331): its requester, the HBM address, a read of `len` bytes or
a write, whether it is in remote form (R167), and whether its command to the stack meets a parity error (Table 10.1). -/
structure HbmReq where
  req    : Requester
  addr   : Nat
  write  : Option Bytes
  len    : Nat
  poison : Bool
  remote : Bool
  parity : Bool
  deriving DecidableEq, Repr

/-- The ring base or size register a RING_BASE_WRITE names (R358). -/
inductive RingReg where
  | sqbase | cqbaseLo | cqbaseHi
  deriving DecidableEq, Repr

/-! ### Power, starts and checks -/

/-- What a joint measurement or test concerns (R405): a phase of a field, or a domain. -/
inductive JointUnit where
  | phase  (field phase : Nat)
  | domain (code : Nat)
  deriving DecidableEq, Repr

/-- What the lending manager knows of one member (R422): its device, B, C, F, L and w. -/
structure LendMember where
  dev : Nat
  base : Nat
  ceil : Nat
  floor : Nat
  limit : Nat
  wait : Option Rat
  deriving DecidableEq, Repr

/-- A defect that a start's tests find (R441), as the Survey entry it becomes: TYPE and LOCATION bytes 16 to 27. -/
structure Defect where
  type_ : Byte
  loc   : Bytes
  deriving DecidableEq, Repr

/-- What the end of a start stage brings (R439, R445): the defects its tests found, the PROVISIONAL entries
(by SEQ) whose test ran and found nothing (R45), the fields whose FN domain failed to come up, and, for
stages 1 and 3, the firmware bank that Lantern could start, if any (R531). -/
structure StageOutcome where
  defects  : List Defect
  cleared  : List Nat
  fnFailed : List Nat
  bank     : Option Nat
  deriving DecidableEq, Repr

/-! ### Management -/

/-- The transports of Table 16.1. -/
inductive Transport where
  | eth (port : Nat)
  | mctp
  | mbx (h f : Nat)
  | peer (dev : Nat)
  deriving DecidableEq, Repr

/-- A value of the object dictionary (R495). -/
inductive ObjVal where
  | num  (n : Nat)
  | blob (b : Bytes)
  deriving DecidableEq, Repr

/-- The address of an object (R494). -/
structure ObjAddr where
  area : Nat
  idx  : Nat
  elem : Nat
  deriving DecidableEq, Repr

/-- An object entry of a message (R494). -/
structure ObjEntry where
  addr : ObjAddr
  type_ : Nat
  val  : ObjVal
  deriving DecidableEq, Repr

/-- The header of a Sasil request as received (Table 16.5), the session it names, and, where the
message is malformed (R509), its first 16 B. For a HELLO in a secure session `sid` is the session that carries it. -/
structure SasilHdr where
  tr    : Transport
  secure : Bool
  ver   : Nat
  seq   : Nat
  sid   : Nat
  async : Bool
  last  : Bool
  malformed : Option Bytes
  deriving DecidableEq, Repr

/-- How the requester of an SPDM session authenticates itself (R490): no certificate, or a chain that ends in
the root with the given SHA-384 digest. -/
inductive Auth where
  | none
  | chain (root : Bytes)
  deriving DecidableEq, Repr

/-- The kinds of network probes a management port answers (R485). -/
inductive ProbeKind where
  | neighbour | echo6 | arp
  deriving DecidableEq, Repr

/-- An MCTP control message (R486). -/
inductive MctpCtl where
  | setEid (eid : Nat)
  | getEid
  | other
  deriving DecidableEq, Repr

/-- A table copy whose entry has a parity error (R469): a route-table copy, an overlay set, a group map, by
copy number (link die 0 to 7, field 8 to 19) and entry. -/
structure ParityAt where
  kind  : Nat
  copy  : Nat
  entry : Nat
  deriving DecidableEq, Repr

/-- A counter: number `i` of core `c`, or counter `j` of a shared block for an event of a traffic class (R535, R547). Blocks are
104·field + router, 2,000 + port and 3,000 + stack. -/
inductive CntRef where
  | core (c i : Nat)
  | shared (b j cls : Nat)
  deriving DecidableEq, Repr

/-- The body of a SUBSCRIBE (R506). -/
structure SubReq where
  frm     : Nat
  cmask   : Nat
  part    : Nat
  catmask : Nat
  codes   : List Nat
  deriving DecidableEq, Repr

/-- The body of a Sasil request within a session (R496). -/
inductive SasilBody where
  | get (as : List ObjAddr)
  | set (es : List ObjEntry)
  | getblock (a : ObjAddr) (off maxLen : Nat)
  | setblock (a : ObjAddr) (off : Nat) (data : Bytes)
  | subscribe (r : SubReq)
  | action (e : ObjEntry)
  | hello (vmask : Nat)
  | close
  deriving DecidableEq, Repr

/-- An SPDM request (R489): `slot` the certificate slot, `transcript` what Lantern signs, `sid` the session of a HEARTBEAT or
KEY_UPDATE. -/
inductive SpdmMsg where
  | getVersion
  | getCapabilities
  | negotiate
  | getDigests
  | getCertificate (slot : Nat)
  | keyExchange (transcript : Bytes)
  | finish (auth : Auth)
  | challenge (nonce : Bytes)
  | getMeasurements (idx : Nat) (nonce : Bytes)
  | heartbeat (sid : Nat)
  | keyUpdate (sid : Nat)
  deriving DecidableEq, Repr

/-- A transport unit as received (R485, R487): an SPDM message; a secured message, whose tag holds or fails, with the request that it
carries; a plain request; or a unit whose leading four bytes are not valid. -/
inductive MgmtUnit where
  | spdm (m : SpdmMsg)
  | secured (tagOk : Bool) (h : SasilHdr) (b : SasilBody)
  | plain (h : SasilHdr) (b : SasilBody)
  | badLead (raw : Bytes)
  deriving DecidableEq, Repr

/-! ### The commands -/

/-- What reaches a lock unit in one NCLK (R246): the requests for one lock, and whether the lock's state fails its parity (R469). -/
structure LockArrival where
  bad : Bool
  rs  : List LockReq
  deriving DecidableEq, Repr

/-- One wire of a service signal of a seam (R33, Table 2.2). -/
structure ServiceWire where
  sig  : Nat
  wire : Nat
  deriving DecidableEq, Repr

/-- A TRAIN frame as it arrives (R291, R295): its header and its body. -/
structure TrainFrame where
  frame : Frame
  body  : TrainBody
  deriving DecidableEq, Repr

/-- A BEACON frame as it arrives (R291, R318): its header and its body. -/
structure BeaconFrame where
  frame : Frame
  body  : Beacon
  deriving DecidableEq, Repr

/-- Input `inp` of link die `die` (R302): ports 0 to 4, edge ports 5 to 7. -/
structure LinkInput where
  die : Nat
  inp : Nat
  deriving DecidableEq, Repr

/-- A read that the host sends to BAR2 (R350, R353): its length, and whether it is an AtomicOp. -/
structure HostRead where
  len    : Nat
  atomic : Bool
  deriving DecidableEq, Repr

/-- What stops when a power-controller die detects the loss of a stage (R20, R410): the stage of field `n`, or those of the three
fields of the die that holds it. -/
inductive StageLoss where
  | stage (n : Nat)
  | die   (n : Nat)
  deriving DecidableEq, Repr

/-- The field that a loss of stages names. -/
def StageLoss.field : StageLoss → Nat
  | .stage n | .die n => n

/-- Whether the power-controller die has failed (R20). -/
def StageLoss.whole : StageLoss → Bool
  | .stage _ => false
  | .die _ => true

/-- A hardware failure attributed to core `core` (R459), and whether it stops the clock of the core's router (R38). -/
structure CoreLoss where
  core  : Nat
  clock : Bool
  deriving DecidableEq, Repr

/-- A command: one constructor for each row of spec/opcode_table.json, in its order; each docstring gives the row and its rule. -/
inductive Instr where
  /-- ADD (R182). -/
  | add (c : Nat) (d a b : Reg)
  /-- SUB (R182). -/
  | sub (c : Nat) (d a b : Reg)
  /-- AND (R182). -/
  | and_ (c : Nat) (d a b : Reg)
  /-- OR (R182). -/
  | or_ (c : Nat) (d a b : Reg)
  /-- XOR (R182). -/
  | xor_ (c : Nat) (d a b : Reg)
  /-- SLL (R182). -/
  | sll (c : Nat) (d a b : Reg)
  /-- SRL (R182). -/
  | srl (c : Nat) (d a b : Reg)
  /-- SRA (R182). -/
  | sra (c : Nat) (d a b : Reg)
  /-- SLT (R182). -/
  | slt (c : Nat) (d a b : Reg)
  /-- SLTU (R182). -/
  | sltu (c : Nat) (d a b : Reg)
  /-- MIN (R182). -/
  | min (c : Nat) (d a b : Reg)
  /-- MAX (R182). -/
  | max (c : Nat) (d a b : Reg)
  /-- MINU (R182). -/
  | minu (c : Nat) (d a b : Reg)
  /-- MAXU (R182). -/
  | maxu (c : Nat) (d a b : Reg)
  /-- MUL (R184). -/
  | mul (c : Nat) (d a b : Reg)
  /-- MULH (R184). -/
  | mulh (c : Nat) (d a b : Reg)
  /-- MULHU (R184). -/
  | mulhu (c : Nat) (d a b : Reg)
  /-- CLZ (R182). -/
  | clz (c : Nat) (d a b : Reg)
  /-- CTZ (R182). -/
  | ctz (c : Nat) (d a b : Reg)
  /-- POPC (R182). -/
  | popc (c : Nat) (d a b : Reg)
  /-- ADDI (R182). -/
  | addi (c : Nat) (d a : Reg) (imm : BitVec 15)
  /-- ANDI (R182). -/
  | andi (c : Nat) (d a : Reg) (imm : BitVec 15)
  /-- ORI (R182). -/
  | ori (c : Nat) (d a : Reg) (imm : BitVec 15)
  /-- XORI (R182). -/
  | xori (c : Nat) (d a : Reg) (imm : BitVec 15)
  /-- SLLI (R182). -/
  | slli (c : Nat) (d a : Reg) (imm : BitVec 15)
  /-- SRLI (R182). -/
  | srli (c : Nat) (d a : Reg) (imm : BitVec 15)
  /-- SRAI (R182). -/
  | srai (c : Nat) (d a : Reg) (imm : BitVec 15)
  /-- SLTI (R182). -/
  | slti (c : Nat) (d a : Reg) (imm : BitVec 15)
  /-- ORSH (R182). -/
  | orsh (c : Nat) (d a : Reg) (imm : BitVec 15)
  /-- LB (R185). -/
  | lb (c : Nat) (d a : Reg) (imm : BitVec 15)
  /-- LH (R185). -/
  | lh (c : Nat) (d a : Reg) (imm : BitVec 15)
  /-- LW (R185). -/
  | lw (c : Nat) (d a : Reg) (imm : BitVec 15)
  /-- LD (R185). -/
  | ld (c : Nat) (d a : Reg) (imm : BitVec 15)
  /-- LBU (R185). -/
  | lbu (c : Nat) (d a : Reg) (imm : BitVec 15)
  /-- LHU (R185). -/
  | lhu (c : Nat) (d a : Reg) (imm : BitVec 15)
  /-- LWU (R185). -/
  | lwu (c : Nat) (d a : Reg) (imm : BitVec 15)
  /-- SB (R185). -/
  | sb (c : Nat) (d a : Reg) (imm : BitVec 15)
  /-- SH (R185). -/
  | sh (c : Nat) (d a : Reg) (imm : BitVec 15)
  /-- SW (R185). -/
  | sw (c : Nat) (d a : Reg) (imm : BitVec 15)
  /-- SD (R185). -/
  | sd (c : Nat) (d a : Reg) (imm : BitVec 15)
  /-- GLW (R186). -/
  | glw (c : Nat) (d a : Reg) (imm : BitVec 15)
  /-- GLD (R186). -/
  | gld (c : Nat) (d a : Reg) (imm : BitVec 15)
  /-- GSW (R186). -/
  | gsw (c : Nat) (d a : Reg) (imm : BitVec 15)
  /-- GSD (R186). -/
  | gsd (c : Nat) (d a : Reg) (imm : BitVec 15)
  /-- GLOBAL_ACCESS_COMPLETION (R186). -/
  | globalAccessCompletion (c : Nat) (status : Nat) (data : W64)
  /-- GLOBAL_ACCESS_TIMEOUT (R187). -/
  | globalAccessTimeout (c : Nat)
  /-- BEQ (R182). -/
  | beq (c : Nat) (a b : Reg) (off : BitVec 15)
  /-- BNE (R182). -/
  | bne (c : Nat) (a b : Reg) (off : BitVec 15)
  /-- BLT (R182). -/
  | blt (c : Nat) (a b : Reg) (off : BitVec 15)
  /-- BGE (R182). -/
  | bge (c : Nat) (a b : Reg) (off : BitVec 15)
  /-- BLTU (R182). -/
  | bltu (c : Nat) (a b : Reg) (off : BitVec 15)
  /-- BGEU (R182). -/
  | bgeu (c : Nat) (a b : Reg) (off : BitVec 15)
  /-- JAL (R182). -/
  | jal (c : Nat) (d : Reg) (off : BitVec 20)
  /-- JALR (R182). -/
  | jalr (c : Nat) (d a : Reg) (imm : BitVec 15)
  /-- NOP (R182). -/
  | nop (c : Nat) (d a b : Reg)
  /-- END (R176). -/
  | end_ (c : Nat) (d a b : Reg)
  /-- END_COMPLETE (R176). -/
  | endComplete (c : Nat)
  /-- BRK (R193). -/
  | brk (c : Nat) (d a b : Reg)
  /-- IFLUSH (R179). -/
  | iflush (c : Nat) (d a b : Reg)
  /-- TWAIT (R182). -/
  | twait (c : Nat) (d a : Reg) (t : Fin 32)
  /-- TSTAT (R182). -/
  | tstat (c : Nat) (d a : Reg) (t : Fin 32)
  /-- TMASK (R182). -/
  | tmask (c : Nat) (d a b : Reg)
  /-- WAITALL (R182). -/
  | waitall (c : Nat) (d a b : Reg)
  /-- RDTIME (R384). -/
  | rdtime (c : Nat) (d a b : Reg)
  /-- RDCYC (R182). -/
  | rdcyc (c : Nat) (d a b : Reg)
  /-- RDID (R182). -/
  | rdid (c : Nat) (d a b : Reg)
  /-- QSEND (R226). -/
  | qsend (c : Nat) (d a b : Reg) (size : BitVec 4)
  /-- QRECV (R227). -/
  | qrecv (c : Nat) (d a b : Reg) (size : BitVec 4)
  /-- QTRY (R227). -/
  | qtry (c : Nat) (d a b : Reg) (size : BitVec 4)
  /-- EVWAIT (R232). -/
  | evwait (c : Nat) (d a b : Reg) (size : BitVec 4)
  /-- EVCLR (R232). -/
  | evclr (c : Nat) (d a b : Reg) (size : BitVec 4)
  /-- X (R188). -/
  | x (c : Nat) (eng : BitVec 3) (tag : Fin 32) (dptr : Reg) (flags : BitVec 12)
  /-- X_ISSUE_STALL_END (R188). -/
  | xIssueStallEnd (c : Nat)
  /-- INSN_BUFFER_FILL (R178). -/
  | insnBufferFill (c : Nat)
  /-- LAUNCH_TAKE (R175). -/
  | launchTake (c : Nat)
  /-- PCONF (R135). -/
  | pconf (c : Nat) (i : Issue) (d : PconfDesc)
  /-- PCONF_TAKE_EFFECT (R111). -/
  | pconfTakeEffect (c : Nat)
  /-- PLOAD (R113). -/
  | pload (c : Nat) (i : Issue) (d : PloadDesc)
  /-- PLOAD_COMPLETE (R111). -/
  | ploadComplete (c : Nat)
  /-- PSWAP (R112). -/
  | pswap (c : Nat) (i : Issue)
  /-- PSWAP_SWAP (R112). -/
  | pswapSwap (c : Nat)
  /-- PSTREAM (R115). -/
  | pstream (c : Nat) (i : Issue) (d : PstreamDesc)
  /-- RAMP_GRANT (R123). -/
  | rampGrant (c : Nat)
  /-- RAMP_COMPLETE (R122). -/
  | rampComplete (c : Nat)
  /-- PSTREAM_COMPLETE (R111). -/
  | pstreamComplete (c : Nat)
  /-- TALLY_DECIDE (R128). -/
  | tallyDecide (c : Nat)
  /-- PDRAIN (R116). -/
  | pdrain (c : Nat) (i : Issue) (d : PdrainDesc)
  /-- PDRAIN_COMPLETE (R130). -/
  | pdrainComplete (c : Nat)
  /-- PRESS_IDLE_COUNT_EXPIRE (R124). -/
  | pressIdleCountExpire (c : Nat)
  /-- PRESS_FALL_COMPLETE (R124). -/
  | pressFallComplete (c : Nat)
  /-- VEC_ADD (R202). -/
  | vecAdd (c : Nat) (i : Issue) (d : VecDesc)
  /-- VEC_SUB (R202). -/
  | vecSub (c : Nat) (i : Issue) (d : VecDesc)
  /-- VEC_MUL (R202). -/
  | vecMul (c : Nat) (i : Issue) (d : VecDesc)
  /-- VEC_FMA (R202). -/
  | vecFma (c : Nat) (i : Issue) (d : VecDesc)
  /-- VEC_MAX (R203). -/
  | vecMax (c : Nat) (i : Issue) (d : VecDesc)
  /-- VEC_MIN (R203). -/
  | vecMin (c : Nat) (i : Issue) (d : VecDesc)
  /-- VEC_SEL (R202). -/
  | vecSel (c : Nat) (i : Issue) (d : VecDesc)
  /-- VEC_CGT (R202). -/
  | vecCgt (c : Nat) (i : Issue) (d : VecDesc)
  /-- VEC_ABS (R203). -/
  | vecAbs (c : Nat) (i : Issue) (d : VecDesc)
  /-- VEC_NEG (R203). -/
  | vecNeg (c : Nat) (i : Issue) (d : VecDesc)
  /-- VEC_EXP2 (R204). -/
  | vecExp2 (c : Nat) (i : Issue) (d : VecDesc)
  /-- VEC_LOG2 (R204). -/
  | vecLog2 (c : Nat) (i : Issue) (d : VecDesc)
  /-- VEC_RCP (R204). -/
  | vecRcp (c : Nat) (i : Issue) (d : VecDesc)
  /-- VEC_RSQRT (R204). -/
  | vecRsqrt (c : Nat) (i : Issue) (d : VecDesc)
  /-- VEC_RSUM (R205). -/
  | vecRsum (c : Nat) (i : Issue) (d : VecDesc)
  /-- VEC_RMAX (R205). -/
  | vecRmax (c : Nat) (i : Issue) (d : VecDesc)
  /-- VEC_RMIN (R205). -/
  | vecRmin (c : Nat) (i : Issue) (d : VecDesc)
  /-- VEC_RAMAX (R205). -/
  | vecRamax (c : Nat) (i : Issue) (d : VecDesc)
  /-- VEC_CVT (R202). -/
  | vecCvt (c : Nat) (i : Issue) (d : VecDesc)
  /-- VEC_QNT (R206). -/
  | vecQnt (c : Nat) (i : Issue) (d : VecDesc)
  /-- VEC_QNTE (R206). -/
  | vecQnte (c : Nat) (i : Issue) (d : VecDesc)
  /-- VEC_DQNT (R207). -/
  | vecDqnt (c : Nat) (i : Issue) (d : VecDesc)
  /-- VEC_TRN (R208). -/
  | vecTrn (c : Nat) (i : Issue) (d : VecDesc)
  /-- VEC_COPY (R202). -/
  | vecCopy (c : Nat) (i : Issue) (d : VecDesc)
  /-- VEC_COMMAND_START (R213). -/
  | vecCommandStart (c : Nat)
  /-- VEC_COMMAND_COMPLETE (R198). -/
  | vecCommandComplete (c : Nat)
  /-- VEC_SEED_WRITE (R209). -/
  | vecSeedWrite (req : Requester) (c : Nat) (v : W32)
  /-- CSR_WRITE (R56). -/
  | csrWrite (req : Requester) (addr : CsrAddr) (size : Nat) (v : W64)
  /-- RC_READ (R56). -/
  | rcRead (req : Requester) (addr : CsrAddr) (size : Nat)
  /-- SPD_MODE_WRITE (R141). -/
  | spdModeWrite (req : Requester) (c : Nat) (v : W32)
  /-- SCRATCHPAD_ECC_WRITEBACK (R151). -/
  | scratchpadEccWriteback (c off : Nat)
  /-- PATROL_SCRUB_ROW (R154). -/
  | patrolScrubRow (c : Nat)
  /-- REMOTE_REQUEST_ARRIVE (R157). -/
  | remoteRequestArrive (c : Nat) (r : WinReq) (rtag : Nat)
  /-- LOCAL_REQUEST_ARRIVE (R161). -/
  | localRequestArrive (c : Nat) (r : LocReq)
  /-- DMA_COPY (R164). -/
  | dmaCopy (c : Nat) (e : Fin 4) (i : Issue) (d : DmaDesc)
  /-- DMA_FILL (R164). -/
  | dmaFill (c : Nat) (e : Fin 4) (i : Issue) (d : DmaDesc)
  /-- STREAM_IN (R169). -/
  | streamIn (c : Nat) (e : Fin 4) (i : Issue) (d : DmaDesc)
  /-- STREAM_OUT (R170). -/
  | streamOut (c : Nat) (e : Fin 4) (i : Issue) (d : DmaDesc)
  /-- DMA_BURST_SEND (R163). -/
  | dmaBurstSend (c : Nat) (e : Fin 4)
  /-- DMA_FILL_ARRIVE (R260). -/
  | dmaFillArrive (c : Nat) (e : Fin 4) (k : Nat) (status : Nat) (data : Bytes) (poison : List Nat)
  /-- DMA_BURST_ACK (R166). -/
  | dmaBurstAck (c : Nat) (e : Fin 4) (k : Nat) (status : Nat)
  /-- STREAM_OUT_MESSAGE_ANSWER (R170). -/
  | streamOutMessageAnswer (c : Nat) (e : Fin 4) (ext : MsgAns)
  /-- DMA_NOTIFY_ANSWER (R166). -/
  | dmaNotifyAnswer (c : Nat) (e : Fin 4) (ext : MsgAns)
  /-- QUEUE_MESSAGE_ARRIVE (R222). -/
  | queueMessageArrive (m : MsgRef)
  /-- QUEUE_MESSAGE_ANSWER (R225). -/
  | queueMessageAnswer (p : SendPath) (ext : MsgAns)
  /-- QUEUE_GRANT_ARRIVE (R224); `rtag` is the tag of a grant from or to another device. -/
  | queueGrantArrive (g : GrantRef) (rtag : Nat)
  /-- WAITER_RETRY_TIMER (R224). -/
  | waiterRetryTimer (p : SendPath) (k : Nat)
  /-- QUE_CFG_WRITE (R219). -/
  | queCfgWrite (req : Requester) (c : Nat) (q : Fin 32) (v : W32)
  /-- QUE_BASE_WRITE (R219). -/
  | queBaseWrite (req : Requester) (c : Nat) (q : Fin 32) (v : W32)
  /-- QUE_DEV_WRITE (R219). -/
  | queDevWrite (req : Requester) (c : Nat) (q : Fin 32) (v : W32)
  /-- EVT_SET_WRITE (R231). -/
  | evtSetWrite (req : Requester) (c : Nat) (hi : Bool) (v : W32)
  /-- SEND (R237). -/
  | send (c : Nat) (i : Issue) (d : SendDesc)
  /-- EVPOST (R238). -/
  | evpost (c : Nat) (i : Issue) (d : EvpostDesc)
  /-- EVPOST_ARRIVE (R233). -/
  | evpostArrive (e : EvpRef)
  /-- EVPOST_ANSWER (R238). -/
  | evpostAnswer (c : Nat) (status : Nat)
  /-- MCSET (R244). -/
  | mcset (c : Nat) (i : Issue) (d : McDesc)
  /-- MCSET_COMPLETE (R244). -/
  | mcsetComplete (c : Nat)
  /-- MCGET (R244). -/
  | mcget (c : Nat) (i : Issue) (d : McDesc)
  /-- MCAST_MEMBER_ANSWER (R242). -/
  | mcastMemberAnswer (p : SendPath) (k : Nat) (ext : MsgAns)
  /-- MCFWD_ARRIVE (R241). -/
  | mcfwdArrive (m : FwdMsg)
  /-- LOCK_ACQ (R246). -/
  | lockAcq (c : Nat) (i : Issue) (d : LockDesc)
  /-- LOCK_TRY (R246). -/
  | lockTry (c : Nat) (i : Issue) (d : LockDesc)
  /-- LOCK_REL (R246). -/
  | lockRel (c : Nat) (i : Issue) (d : LockDesc)
  /-- LOCK_REQUEST_ARRIVE (R246). -/
  | lockRequestArrive (lock : Nat) (a : LockArrival)
  /-- LOCK_REPLY_ARRIVE (R251). -/
  | lockReplyArrive (c : Nat) (status : Nat) (val : W64)
  /-- AADD (R249). -/
  | aadd (c : Nat) (i : Issue) (d : LockDesc)
  /-- AMIN (R249). -/
  | amin (c : Nat) (i : Issue) (d : LockDesc)
  /-- AMAX (R249). -/
  | amax (c : Nat) (i : Issue) (d : LockDesc)
  /-- AMINU (R249). -/
  | aminu (c : Nat) (i : Issue) (d : LockDesc)
  /-- AMAXU (R249). -/
  | amaxu (c : Nat) (i : Issue) (d : LockDesc)
  /-- ASWAP (R249). -/
  | aswap (c : Nat) (i : Issue) (d : LockDesc)
  /-- ACAS (R249). -/
  | acas (c : Nat) (i : Issue) (d : LockDesc)
  /-- ATOMIC_ARRIVE (R250). -/
  | atomicArrive (a : AtRef)
  /-- ATOMIC_REPLY_ARRIVE (R251). -/
  | atomicReplyArrive (c : Nat) (status : Nat) (val : W64)
  /-- PACKET_ROUTE (R263). -/
  | packetRoute (n r : Nat) (pkts : List Packet) (bad : List ParityAt)
  /-- SEAM_RESEND_BURST (R31). -/
  | seamResendBurst (seam x plane dir group wire resends : Nat)
  /-- CROSSING_QUIESCED (R30). -/
  | crossingQuiesced (seam x : Nat) (tests : List WireTest)
  /-- SERVICE_WIRE_DISAGREE (R33). -/
  | serviceWireDisagree (n seam : Nat) (sig : ServiceWire) (failed : Nat)
  /-- MESH_PACKET_DELIVER (R277). -/
  | meshPacketDeliver (k : Packet)
  /-- ROUTER_FAIL (R266). -/
  | routerFail (n r : Nat)
  /-- WEIGHT_PROPAGATE (R272). -/
  | weightPropagate (p : Nat)
  /-- PORT_TRAINING_DONE (R287). -/
  | portTrainingDone (p : Nat) (r : TrainResult)
  /-- BER_GATE_END (R288). -/
  | berGateEnd (p : Nat) (lanes : List (Nat × Nat))
  /-- TRAIN_FRAME (R295). -/
  | trainFrame (p : Nat) (x : TrainFrame)
  /-- BER_WINDOW_END (R289). -/
  | berWindowEnd (p errors bits uncor : Nat)
  /-- PORT_SIGNAL_LOSS (R286). -/
  | portSignalLoss (p : Nat)
  /-- PORT_RETRAIN_TIMER (R286). -/
  | portRetrainTimer (p : Nat)
  /-- CMIS_POLL (R285). -/
  | cmisPoll (l : Nat) (ms : List (Option CmisStatus))
  /-- DATA_FRAME (R294). -/
  | dataFrame (p : Nat) (f : Frame)
  /-- IDLE_FRAME (R291). -/
  | idleFrame (p : Nat) (f : Frame)
  /-- NAK_FRAME (R294). -/
  | nakFrame (p : Nat) (f : Frame)
  /-- REPLAY_TIMEOUT (R294). -/
  | replayTimeout (p : Nat)
  /-- BEACON_SEND (R318). -/
  | beaconSend (p : Nat)
  /-- BEACON_FRAME (R318). -/
  | beaconFrame (p : Nat) (x : BeaconFrame)
  /-- KEY_FRAME (R317). -/
  | keyFrame (p : Nat) (f : Frame)
  /-- LINK_PACKET_ROUTE (R306). -/
  | linkPacketRoute (i : LinkInput) (planeB : Bool) (k : LinkPkt)
  /-- STALL_TIMEOUT (R314). -/
  | stallTimeout (p v : Nat)
  /-- REMOTE_TIMEOUT (R310). -/
  | remoteTimeout (r : RemoteRef)
  /-- ETH_DATA_PACKET (R299). -/
  | ethDataPacket (p b peer : Nat) (e : EthPkt)
  /-- ETH_ACK (R299). -/
  | ethAck (b peer apsn : Nat)
  /-- ETH_NAK (R299). -/
  | ethNak (b peer psn : Nat)
  /-- ETH_ACK_TIMER (R299). -/
  | ethAckTimer (b peer : Nat)
  /-- ETH_RTO (R299). -/
  | ethRto (b peer : Nat)
  /-- CNP (R300). -/
  | cnp (b peer mfrac : Nat)
  /-- CNP_INTERVAL_END (R300). -/
  | cnpIntervalEnd (b peer : Nat)
  /-- RATE_INCREASE_TIMER (R300). -/
  | rateIncreaseTimer (b peer : Nat)
  /-- NEIGHBOUR_SOLICITATION (R301). -/
  | neighbourSolicitation (b : Nat) (target : Bytes)
  /-- EPOCH_SWITCH (R308). -/
  | epochSwitch
  /-- EPOCH_HOLD_EXPIRE (R308). -/
  | epochHoldExpire
  /-- HBM_REQUEST (R332). -/
  | hbmRequest (r : HbmReq)
  /-- HBM_RATE_TOKENS (R345). -/
  | hbmRateTokens (st : Nat)
  /-- HBM_ECC_WRITEBACK (R335). -/
  | hbmEccWriteback (st w : Nat)
  /-- HBM_SCRUB_WORD (R337). -/
  | hbmScrubWord (st : Nat)
  /-- HBM_TEMP_READ (R341). -/
  | hbmTempRead (st t : Nat)
  /-- HBM_RECALIBRATE (R342). -/
  | hbmRecalibrate (st ch : Nat)
  /-- HBM_CHANNEL_FAIL (R344). -/
  | hbmChannelFail (st ch : Nat)
  /-- BAR2_WRITE (R353). -/
  | bar2Write (h f off : Nat) (bs : Bytes) (poisoned : Bool)
  /-- BAR2_READ (R353). -/
  | bar2Read (h f off : Nat) (x : HostRead)
  /-- SQTAIL_WRITE (R357). -/
  | sqtailWrite (h f r : Nat) (v : W32)
  /-- RING_CTRL_WRITE (R358). -/
  | ringCtrlWrite (h f r : Nat) (v : W32)
  /-- RING_BASE_WRITE (R358). -/
  | ringBaseWrite (h f r : Nat) (x : RingReg) (v : W32)
  /-- LAUNCH_FETCH (R361). -/
  | launchFetch (h : Nat)
  /-- LAUNCH_TARGET_REPORT (R363). -/
  | launchTargetReport (h c : Nat)
  /-- MSIX_COALESCE_TIMER (R365). -/
  | msixCoalesceTimer (h f r : Nat)
  /-- VF_FLR (R369). -/
  | vfFlr (h p : Nat)
  /-- PF_FLR (R369). -/
  | pfFlr (h : Nat)
  /-- PERST_ASSERT (R369). -/
  | perstAssert (h : Nat) (pin : Bool)
  /-- PERST_RELEASE (R370). -/
  | perstRelease (h : Nat)
  /-- CLK_CHANGE_ARM (R377). -/
  | clkChangeArm (t mask : Nat) (targets : List Nat)
  /-- PLL_LOCK (R377). -/
  | pllLock (n : Nat)
  /-- CLK_READY_CHECK (R378). -/
  | clkReadyCheck
  /-- CLK_SWITCH (R376). -/
  | clkSwitch
  /-- PLL_LOCK_LOSS (R379). -/
  | pllLockLoss (n : Nat)
  /-- VCORE_LOWER (R377). -/
  | vcoreLower (n : Nat)
  /-- ECHO_BEACON (R382). -/
  | echoBeacon
  /-- ECHO_DELAY_MEASURE (R382). -/
  | echoDelayMeasure (n dly : Nat)
  /-- ECHO_BEACON_LOSS (R383). -/
  | echoBeaconLoss (n : Nat)
  /-- ECHO_DISCIPLINE (R386). -/
  | echoDiscipline (ofs : Int)
  /-- ECHO_SOURCE_LOSS (R386). -/
  | echoSourceLoss
  /-- PTP_MESSAGE (R388). -/
  | ptpMessage (port domain : Nat) (ofs : Int)
  /-- PPS_EDGE (R388). -/
  | ppsEdge
  /-- VIN_LOW_WARNING (R392). -/
  | vinLowWarning (mv : Nat)
  /-- VIN_FAULT (R392). -/
  | vinFault (mv : Nat)
  /-- VIN_ARRIVE (R436). -/
  | vinArrive (mv : Nat)
  /-- AUTOSTART (R436). -/
  | autostart
  /-- VSTBY_LOSS (R394). -/
  | vstbyLoss
  /-- VSTBY_ARRIVE (R436). -/
  | vstbyArrive
  /-- BLADE_CURRENT_SAMPLE (R393). -/
  | bladeCurrentSample (a b : Nat)
  /-- JOINT_SAMPLE (R405). -/
  | jointSample (u : JointUnit) (deviates : Bool)
  /-- JOINT_TEST (R406). -/
  | jointTest (u : JointUnit) (found : Bool)
  /-- JOINT_SUSPECT_EXPIRE (R406). -/
  | jointSuspectExpire (u : JointUnit)
  /-- DOMAIN_TRIP (R408). -/
  | domainTrip (d : Nat)
  /-- PHASE_TRIP (R408). -/
  | phaseTrip (n i : Nat)
  /-- STAGE_TRIP (R410). -/
  | stageTrip (x : StageLoss)
  /-- CG_POWERUP_WAVE (R403). -/
  | cgPowerupWave (n : Nat)
  /-- DOMAIN_TRANSITION_DONE (R402). -/
  | domainTransitionDone (d : Nat)
  /-- POWER_SAMPLE (R414). -/
  | powerSample (compute aux : Nat) (parts : List Nat)
  /-- GOVERNOR_DECISION (R417). -/
  | governorDecision
  /-- BRAKE_RELEASE (R420). -/
  | brakeRelease
  /-- DECAF_BRAKE_RELEASE (R425). -/
  | decafBrakeRelease
  /-- LEND_REPORT (R422). -/
  | lendReport (w : Nat)
  /-- LEND_ROUND (R423). -/
  | lendRound (ms : List LendMember)
  /-- LEND_LIMIT_MESSAGE (R424). -/
  | lendLimitMessage (w : Nat)
  /-- LEND_CONFIRM_TIMEOUT (R424). -/
  | lendConfirmTimeout (done : List Nat)
  /-- LEND_FALLBACK (R424). -/
  | lendFallback
  /-- TEMP_SAMPLE (R426). -/
  | tempSample (tiles others : List Nat)
  /-- THERMAL_TRIP (R426). -/
  | thermalTrip
  /-- FAN_START_CHECK (R429). -/
  | fanStartCheck (c volt : Nat)
  /-- AUX_TRIP (R429). -/
  | auxTrip (c : Nat)
  /-- AUX_OVERLOAD_TRIP (R429). -/
  | auxOverloadTrip (c : Nat)
  /-- AUX_RETRY (R429). -/
  | auxRetry (c : Nat)
  /-- AUX_STANDBY_TRIP (R432). -/
  | auxStandbyTrip
  /-- FAN_STALL (R431). -/
  | fanStall (c rpm : Nat)
  /-- COLD_RST_RELEASE (R438). -/
  | coldRstRelease (lowNs : Nat)
  /-- WARM_RST_RELEASE (R445). -/
  | warmRstRelease (lowNs : Nat)
  /-- COLD_START_STAGE_END (R439). -/
  | coldStartStageEnd (o : StageOutcome)
  /-- START_STAGE_DEADLINE (R442). -/
  | startStageDeadline
  /-- WARM_START_STAGE_END (R445). -/
  | warmStartStageEnd (surveyOk : Bool)
  /-- AUTO_RECOVER (R438). -/
  | autoRecover
  /-- COMPUTE_RESET_DRAIN_END (R448). -/
  | computeResetDrainEnd
  /-- COMPUTE_RESET_DONE (R448). -/
  | computeResetDone
  /-- PARTITION_RESET_DONE (R449). -/
  | partitionResetDone (p : Nat)
  /-- CORE_RESET_DONE (R450). -/
  | coreResetDone (c : Nat)
  /-- REMAP_SPARE_TESTED (R459). -/
  | remapSpareTested (g : Nat) (pass : Bool)
  /-- REMAP_DONE (R459). -/
  | remapDone (g : Nat)
  /-- CORE_FAIL_DETECTED (R459). -/
  | coreFailDetected (x : CoreLoss)
  /-- WATCHDOG_EXPIRE (R520). -/
  | watchdogExpire
  /-- CARAFE_TAKE_CONTROL (R452). -/
  | carafeTakeControl (ok : Bool)
  /-- HALT_N_ASSERT (R457). -/
  | haltNAssert (ns : Nat)
  /-- HALT_N_RELEASE (R457). -/
  | haltNRelease (ns : Nat)
  /-- HALT_ARRIVE (R196). -/
  | haltArrive (c : Nat)
  /-- RUN_ARRIVE (R458). -/
  | runArrive (c : Nat)
  /-- PARTITION_HALTED (R455). -/
  | partitionHalted (p : Nat)
  /-- ERROR_COALESCE_FLUSH (R470). -/
  | errorCoalesceFlush
  /-- EVENT_LOG_FLUSH (R476). -/
  | eventLogFlush
  /-- PARITY_REWRITE (R469). -/
  | parityRewrite (x : ParityAt)
  /-- FUSE_RECHECK (R469). -/
  | fuseRecheck (ok : Bool)
  /-- FIELD_CHECK_GROUP_DONE (R481). -/
  | fieldCheckGroupDone (g : Nat) (results : List Nat)
  /-- FIELD_CHECK_UNIT_DONE (R480). -/
  | fieldCheckUnitDone (u : Nat) (pages : List Nat)
  /-- SURVEY_COMPACT (R47). -/
  | surveyCompact
  /-- GET_VERSION (R489). -/
  | getVersion (tr : Transport)
  /-- GET_CAPABILITIES (R489). -/
  | getCapabilities (tr : Transport)
  /-- NEGOTIATE_ALGORITHMS (R489). -/
  | negotiateAlgorithms (tr : Transport)
  /-- GET_DIGESTS (R489). -/
  | getDigests (tr : Transport)
  /-- GET_CERTIFICATE (R489). -/
  | getCertificate (tr : Transport) (slot : Nat)
  /-- KEY_EXCHANGE (R519). -/
  | keyExchange (tr : Transport) (transcript : Bytes)
  /-- FINISH (R490). -/
  | finish_ (tr : Transport) (auth : Auth)
  /-- CHALLENGE (R519). -/
  | challenge (tr : Transport) (nonce : Bytes)
  /-- GET_MEASUREMENTS (R489). -/
  | getMeasurements (tr : Transport) (idx : Nat) (nonce : Bytes)
  /-- HEARTBEAT (R492). -/
  | heartbeat (tr : Transport) (sid : Nat)
  /-- KEY_UPDATE (R489). -/
  | keyUpdate (tr : Transport) (sid : Nat)
  /-- SESSION_TIMEOUT (R492). -/
  | sessionTimeout (sid : Nat)
  /-- MGMT_DATAGRAM (R485). -/
  | mgmtDatagram (p : Nat) (src : Bytes) (u : MgmtUnit)
  /-- MGMT_NETWORK_PROBE (R485). -/
  | mgmtNetworkProbe (p : Nat) (kind : ProbeKind) (target : Bytes)
  /-- MCTP_CONTROL (R486). -/
  | mctpControl (c : MctpCtl)
  /-- MAILBOX_GO (R487). -/
  | mailboxGo (h f : Nat) (u : MgmtUnit)
  /-- PEER_MGMT_PACKET (R488). -/
  | peerMgmtPacket (dev : Nat) (u : MgmtUnit)
  /-- HELLO (R497). -/
  | hello_ (h : SasilHdr) (vmask : Nat)
  /-- GET (R496). -/
  | get_ (h : SasilHdr) (as : List ObjAddr)
  /-- SET (R499). -/
  | set_ (h : SasilHdr) (es : List ObjEntry)
  /-- GETBLOCK (R502). -/
  | getblock (h : SasilHdr) (a : ObjAddr) (off maxLen : Nat)
  /-- SETBLOCK (R502). -/
  | setblock (h : SasilHdr) (a : ObjAddr) (off : Nat) (data : Bytes)
  /-- SUBSCRIBE (R506). -/
  | subscribe (h : SasilHdr) (r : SubReq)
  /-- ACTION (R504). -/
  | action_ (h : SasilHdr) (e : ObjEntry)
  /-- CLOSE (R492). -/
  | close_ (h : SasilHdr)
  /-- SEQUENCE_GAP_TIMEOUT (R498). -/
  | sequenceGapTimeout (sid : Nat)
  /-- STAGING_TIMEOUT (R502). -/
  | stagingTimeout (sid : Nat)
  /-- CONFIG_COMMIT (R500). -/
  | configCommit
  /-- MGMT_SETTINGS_APPLY (R515). -/
  | mgmtSettingsApply
  /-- EVENT_DELIVER (R507). -/
  | eventDeliver (sid : Nat)
  /-- SURVEY_REVOKE (R46). -/
  | surveyRevoke (sid seq : Nat)
  /-- EPOCH_ADVANCE (R308). -/
  | epochAdvance (sid : Nat)
  /-- PORT_RESET_ACTION (R289). -/
  | portResetAction (sid p : Nat)
  /-- PORT_ADMIT (R323). -/
  | portAdmit (sid p : Nat)
  /-- BUNDLE_KEY_SWITCH (R317). -/
  | bundleKeySwitch (sid b : Nat)
  /-- MEMORY_RETIRE (R338). -/
  | memoryRetire (sid addr : Nat)
  /-- PARTITION_RESET (R449). -/
  | partitionReset (sid p : Nat)
  /-- ECHO_RESYNC (R386). -/
  | echoResync (sid : Nat)
  /-- DOMAIN_SWITCH (R404). -/
  | domainSwitch (sid d v : Nat)
  /-- AUX_RESET (R429). -/
  | auxReset (sid c : Nat)
  /-- COLD_START (R439). -/
  | coldStart (sid : Nat)
  /-- WARM_START (R445). -/
  | warmStart (sid : Nat)
  /-- COMPUTE_RESET (R448). -/
  | computeReset (sid : Nat)
  /-- MANAGEMENT_RESTART (R452). -/
  | managementRestart (sid : Nat)
  /-- LOW_ENTER (R464). -/
  | lowEnter (sid : Nat)
  /-- LOW_EXIT (R464). -/
  | lowExit (sid : Nat)
  /-- STATE_RELEASE (R444). -/
  | stateRelease (sid : Nat)
  /-- CORE_RESET (R450). -/
  | coreReset (sid c : Nat)
  /-- FAIL_CORE (R459). -/
  | failCore (sid c : Nat)
  /-- FIELD_CHECK (R478). -/
  | fieldCheck (sid : Nat) (v : Bytes)
  /-- ALERT_ACK (R474). -/
  | alertAck (sid q : Nat)
  /-- ENROLL (R490). -/
  | enroll (sid : Nat) (v : Bytes)
  /-- SLOT_REVOKE (R490). -/
  | slotRevoke (sid k : Nat)
  /-- FACTORY_RESET (R514). -/
  | factoryReset (sid : Nat)
  /-- FIRMWARE_ACTIVATE (R525). -/
  | firmwareActivate (sid flags : Nat)
  /-- FIRMWARE_VERIFY_DONE (R525). -/
  | firmwareVerifyDone (sigOk digOk : Bool)
  /-- FIRMWARE_CONFIRM (R527). -/
  | firmwareConfirm (sid : Nat)
  /-- FIRMWARE_REVERT (R533). -/
  | firmwareRevert (sid : Nat)
  /-- TRIAL_HEALTH (R528). -/
  | trialHealth (fields answered : Bool)
  /-- TRIAL_TIMEOUT (R529). -/
  | trialTimeout
  /-- COUNTERS_CLEAR (R549). -/
  | countersClear (sid : Nat)
  /-- COUNTER_WRAP (R538). -/
  | counterWrap (x : CntRef) (n : Nat)
  /-- SMP_CTRL_WRITE (R546). -/
  | smpCtrlWrite (req : Requester) (c : Nat) (v : W32)
  /-- SAMPLE_RECORD (R542). -/
  | sampleRecord (c : Nat)
  /-- SHARED_CNT_CTL_WRITE (R549). -/
  | sharedCntCtlWrite (req : Requester) (b : Nat) (v : W32)
  /-- RESERVED_OPCODE (R181). -/
  | reservedOpcode (c : Nat) (w : W32)
  /-- COMPLETION_WRITE_ERROR (R365). -/
  | completionWriteError (h f r : Nat)
  /-- HOST_LINK_UP (R370). -/
  | hostLinkUp (h speed width : Nat) (flit : Bool)
  /-- ECHO_REF_CHANGE (R388). -/
  | echoRefChange (present : Bool)
  /-- I3C_ENTDAA (R486). -/
  | i3cEntdaa (addr : Nat)
  /-- M_MEMORY_UNCORRECTABLE (R469). -/
  | mMemoryUncorrectable
  deriving DecidableEq, Repr

end Sys2Proof
end

