-- ==== Sys2Proof/Decode.lean ====
section
/-!
DEFINITION. The commands that a word spells by the opcode table, and the instruction words of a core (Tables 6.2 to 6.6). The opcode
table gives no command any bits: a host, a core, a link or a management client sends a command as a transaction of its own, so no
word spells one by the table. A core's instruction word has the encoding of chapter 6: `decodeInsn` reads it and `encodeInsn`
writes it. Descriptors are read where a core uses them (Machine/Operands.lean).
-/

namespace Sys2Proof

/-- The command that the low `nbits` bits of `w` spell by the table's bits: none, since no row has bits (log entry 1). -/
def decodeTableWord (_nbits _w : Nat) : Option Instr := none

/-! ### Instruction words (R180 to R183) -/

/-- The formats of Table 6.2 with their fields in place. -/
def encA (op : Nat) (d a b : Nat) (fn : Nat) : W32 :=
  BitVec.ofNat 32 (op * 2 ^ 25 + d * 2 ^ 20 + a * 2 ^ 15 + b * 2 ^ 10 + fn)
/-- Formats I and M. -/
def encI (op : Nat) (d a imm : Nat) : W32 := BitVec.ofNat 32 (op * 2 ^ 25 + d * 2 ^ 20 + a * 2 ^ 15 + imm)
/-- Format B. -/
def encB (op : Nat) (a b off : Nat) : W32 := BitVec.ofNat 32 (op * 2 ^ 25 + a * 2 ^ 20 + b * 2 ^ 15 + off)
/-- Format J. -/
def encJ (op : Nat) (d off : Nat) : W32 := BitVec.ofNat 32 (op * 2 ^ 25 + d * 2 ^ 20 + off)
/-- Format X. -/
def encX (eng tag dptr flags : Nat) : W32 :=
  BitVec.ofNat 32 (0x40 * 2 ^ 25 + eng * 2 ^ 22 + tag * 2 ^ 17 + dptr * 2 ^ 12 + flags)

/-- A five-bit field of an instruction word: a register or a tag (Table 6.2). -/
def regAt (w : W32) (lo : Nat) : Reg := ⟨w.toNat / 2 ^ lo % 32, Nat.mod_lt _ (by decide)⟩

/-- Opcode 0x01: the functions of Table 6.4. -/
def decodeAlu (c : Nat) (fn : Nat) (d a b : Reg) : Option Instr :=
  match fn with
  | 0x000 => some (.add c d a b)
  | 0x001 => some (.sub c d a b)
  | 0x002 => some (.and_ c d a b)
  | 0x003 => some (.or_ c d a b)
  | 0x004 => some (.xor_ c d a b)
  | 0x005 => some (.sll c d a b)
  | 0x006 => some (.srl c d a b)
  | 0x007 => some (.sra c d a b)
  | 0x008 => some (.slt c d a b)
  | 0x009 => some (.sltu c d a b)
  | 0x00A => some (.min c d a b)
  | 0x00B => some (.max c d a b)
  | 0x00C => some (.minu c d a b)
  | 0x00D => some (.maxu c d a b)
  | 0x010 => some (.mul c d a b)
  | 0x011 => some (.mulh c d a b)
  | 0x012 => some (.mulhu c d a b)
  | 0x018 => some (.clz c d a b)
  | 0x019 => some (.ctz c d a b)
  | 0x01A => some (.popc c d a b)
  | _ => none

/-- Opcode 0x02: the functions of Table 6.5. -/
def decodeSys (c : Nat) (fn : Nat) (d a b : Reg) : Option Instr :=
  match fn with
  | 0x000 => some (.nop c d a b)
  | 0x001 => some (.end_ c d a b)
  | 0x002 => some (.brk c d a b)
  | 0x003 => some (.iflush c d a b)
  | 0x004 => some (.twait c d a b)
  | 0x005 => some (.tstat c d a b)
  | 0x006 => some (.tmask c d a b)
  | 0x007 => some (.waitall c d a b)
  | 0x008 => some (.rdtime c d a b)
  | 0x009 => some (.rdcyc c d a b)
  | 0x00A => some (.rdid c d a b)
  | _ => none

/-- Opcode 0x03: the functions of Table 6.6; `size` is fn[9:6] (R183). -/
def decodeQue (c : Nat) (fn : Nat) (size : BitVec 4) (d a b : Reg) : Option Instr :=
  match fn with
  | 0x00 => some (.qsend c d a b size)
  | 0x01 => some (.qrecv c d a b size)
  | 0x02 => some (.qtry c d a b size)
  | 0x03 => some (.evwait c d a b size)
  | 0x04 => some (.evclr c d a b size)
  | _ => none

/-- The opcodes of formats I and M (Tables 6.2 and 6.3). -/
def decodeImm (c : Nat) (op : Nat) (d a : Reg) (imm : BitVec 15) : Option Instr :=
  match op with
  | 0x08 => some (.addi c d a imm)
  | 0x09 => some (.andi c d a imm)
  | 0x0A => some (.ori c d a imm)
  | 0x0B => some (.xori c d a imm)
  | 0x0C => some (.slli c d a imm)
  | 0x0D => some (.srli c d a imm)
  | 0x0E => some (.srai c d a imm)
  | 0x0F => some (.slti c d a imm)
  | 0x11 => some (.orsh c d a imm)
  | 0x18 => some (.lb c d a imm)
  | 0x19 => some (.lh c d a imm)
  | 0x1A => some (.lw c d a imm)
  | 0x1B => some (.ld c d a imm)
  | 0x1C => some (.lbu c d a imm)
  | 0x1D => some (.lhu c d a imm)
  | 0x1E => some (.lwu c d a imm)
  | 0x20 => some (.sb c d a imm)
  | 0x21 => some (.sh c d a imm)
  | 0x22 => some (.sw c d a imm)
  | 0x23 => some (.sd c d a imm)
  | 0x24 => some (.glw c d a imm)
  | 0x25 => some (.gld c d a imm)
  | 0x26 => some (.gsw c d a imm)
  | 0x27 => some (.gsd c d a imm)
  | 0x39 => some (.jalr c d a imm)
  | _ => none

/-- The opcodes of format B (Tables 6.2 and 6.3). -/
def decodeBranch (c : Nat) (op : Nat) (a b : Reg) (off : BitVec 15) : Option Instr :=
  match op with
  | 0x30 => some (.beq c a b off)
  | 0x31 => some (.bne c a b off)
  | 0x32 => some (.blt c a b off)
  | 0x33 => some (.bge c a b off)
  | 0x34 => some (.bltu c a b off)
  | 0x35 => some (.bgeu c a b off)
  | _ => none

/-- The instruction that the word `w` is on core `c` (R180 to R183, Tables 6.2 to 6.6): none for a reserved opcode or a reserved fn (R181).
A field that must be 0 is kept, and its instruction faults on it. -/
def decodeInsn (c : Nat) (w : W32) : Option Instr :=
  let op := w.toNat / 2 ^ 25
  let fn := w.toNat % 2 ^ 10
  let imm := w.setWidth 15
  match op with
  | 0x01 => decodeAlu c fn (regAt w 20) (regAt w 15) (regAt w 10)
  | 0x02 => decodeSys c fn (regAt w 20) (regAt w 15) (regAt w 10)
  | 0x03 => decodeQue c (fn % 64) (BitVec.ofNat 4 (fn / 64)) (regAt w 20) (regAt w 15) (regAt w 10)
  | 0x38 => some (.jal c (regAt w 20) (w.setWidth 20))
  | 0x40 => some (.x c (BitVec.ofNat 3 (w.toNat / 2 ^ 22)) (regAt w 17) (regAt w 12) (w.setWidth 12))
  | _ =>
    match decodeBranch c op (regAt w 20) (regAt w 15) imm with
    | some i => some i
    | none => decodeImm c op (regAt w 20) (regAt w 15) imm

/-- The word of an instruction of a core (Tables 6.2 to 6.6); a command of another kind has none. -/
def encodeInsn (i : Instr) : Option W32 :=
  match i with
  | .add _ d a b => some (encA 0x01 d.val a.val b.val 0x000)
  | .sub _ d a b => some (encA 0x01 d.val a.val b.val 0x001)
  | .and_ _ d a b => some (encA 0x01 d.val a.val b.val 0x002)
  | .or_ _ d a b => some (encA 0x01 d.val a.val b.val 0x003)
  | .xor_ _ d a b => some (encA 0x01 d.val a.val b.val 0x004)
  | .sll _ d a b => some (encA 0x01 d.val a.val b.val 0x005)
  | .srl _ d a b => some (encA 0x01 d.val a.val b.val 0x006)
  | .sra _ d a b => some (encA 0x01 d.val a.val b.val 0x007)
  | .slt _ d a b => some (encA 0x01 d.val a.val b.val 0x008)
  | .sltu _ d a b => some (encA 0x01 d.val a.val b.val 0x009)
  | .min _ d a b => some (encA 0x01 d.val a.val b.val 0x00A)
  | .max _ d a b => some (encA 0x01 d.val a.val b.val 0x00B)
  | .minu _ d a b => some (encA 0x01 d.val a.val b.val 0x00C)
  | .maxu _ d a b => some (encA 0x01 d.val a.val b.val 0x00D)
  | .mul _ d a b => some (encA 0x01 d.val a.val b.val 0x010)
  | .mulh _ d a b => some (encA 0x01 d.val a.val b.val 0x011)
  | .mulhu _ d a b => some (encA 0x01 d.val a.val b.val 0x012)
  | .clz _ d a b => some (encA 0x01 d.val a.val b.val 0x018)
  | .ctz _ d a b => some (encA 0x01 d.val a.val b.val 0x019)
  | .popc _ d a b => some (encA 0x01 d.val a.val b.val 0x01A)
  | .nop _ d a b => some (encA 0x02 d.val a.val b.val 0x000)
  | .end_ _ d a b => some (encA 0x02 d.val a.val b.val 0x001)
  | .brk _ d a b => some (encA 0x02 d.val a.val b.val 0x002)
  | .iflush _ d a b => some (encA 0x02 d.val a.val b.val 0x003)
  | .twait _ d a b => some (encA 0x02 d.val a.val b.val 0x004)
  | .tstat _ d a b => some (encA 0x02 d.val a.val b.val 0x005)
  | .tmask _ d a b => some (encA 0x02 d.val a.val b.val 0x006)
  | .waitall _ d a b => some (encA 0x02 d.val a.val b.val 0x007)
  | .rdtime _ d a b => some (encA 0x02 d.val a.val b.val 0x008)
  | .rdcyc _ d a b => some (encA 0x02 d.val a.val b.val 0x009)
  | .rdid _ d a b => some (encA 0x02 d.val a.val b.val 0x00A)
  | .qsend _ d a b size => some (encA 0x03 d.val a.val b.val (size.toNat * 64 + 0x00))
  | .qrecv _ d a b size => some (encA 0x03 d.val a.val b.val (size.toNat * 64 + 0x01))
  | .qtry _ d a b size => some (encA 0x03 d.val a.val b.val (size.toNat * 64 + 0x02))
  | .evwait _ d a b size => some (encA 0x03 d.val a.val b.val (size.toNat * 64 + 0x03))
  | .evclr _ d a b size => some (encA 0x03 d.val a.val b.val (size.toNat * 64 + 0x04))
  | .addi _ d a imm => some (encI 0x08 d.val a.val imm.toNat)
  | .andi _ d a imm => some (encI 0x09 d.val a.val imm.toNat)
  | .ori _ d a imm => some (encI 0x0A d.val a.val imm.toNat)
  | .xori _ d a imm => some (encI 0x0B d.val a.val imm.toNat)
  | .slli _ d a imm => some (encI 0x0C d.val a.val imm.toNat)
  | .srli _ d a imm => some (encI 0x0D d.val a.val imm.toNat)
  | .srai _ d a imm => some (encI 0x0E d.val a.val imm.toNat)
  | .slti _ d a imm => some (encI 0x0F d.val a.val imm.toNat)
  | .orsh _ d a imm => some (encI 0x11 d.val a.val imm.toNat)
  | .lb _ d a imm => some (encI 0x18 d.val a.val imm.toNat)
  | .lh _ d a imm => some (encI 0x19 d.val a.val imm.toNat)
  | .lw _ d a imm => some (encI 0x1A d.val a.val imm.toNat)
  | .ld _ d a imm => some (encI 0x1B d.val a.val imm.toNat)
  | .lbu _ d a imm => some (encI 0x1C d.val a.val imm.toNat)
  | .lhu _ d a imm => some (encI 0x1D d.val a.val imm.toNat)
  | .lwu _ d a imm => some (encI 0x1E d.val a.val imm.toNat)
  | .sb _ d a imm => some (encI 0x20 d.val a.val imm.toNat)
  | .sh _ d a imm => some (encI 0x21 d.val a.val imm.toNat)
  | .sw _ d a imm => some (encI 0x22 d.val a.val imm.toNat)
  | .sd _ d a imm => some (encI 0x23 d.val a.val imm.toNat)
  | .glw _ d a imm => some (encI 0x24 d.val a.val imm.toNat)
  | .gld _ d a imm => some (encI 0x25 d.val a.val imm.toNat)
  | .gsw _ d a imm => some (encI 0x26 d.val a.val imm.toNat)
  | .gsd _ d a imm => some (encI 0x27 d.val a.val imm.toNat)
  | .jalr _ d a imm => some (encI 0x39 d.val a.val imm.toNat)
  | .beq _ a b off => some (encB 0x30 a.val b.val off.toNat)
  | .bne _ a b off => some (encB 0x31 a.val b.val off.toNat)
  | .blt _ a b off => some (encB 0x32 a.val b.val off.toNat)
  | .bge _ a b off => some (encB 0x33 a.val b.val off.toNat)
  | .bltu _ a b off => some (encB 0x34 a.val b.val off.toNat)
  | .bgeu _ a b off => some (encB 0x35 a.val b.val off.toNat)
  | .jal _ d off => some (encJ 0x38 d.val off.toNat)
  | .x _ eng tag dptr flags => some (encX eng.toNat tag.val dptr.val flags.toNat)
  | _ => none

end Sys2Proof
end

