-- ==== Sys2Proof/Config.lean ====
section
/-!
DEFINITION. What the specification leaves open and what one device fixes. An `opaque` constant is a free
value: nothing in Lean can evaluate it, so a statement holds for every value it may have. The other
definitions of this file are the fuses and facts of one device that the manual leaves to the order.
-/

namespace Sys2Proof

/-- Free value: a candidate result of EXP2 for an FP32 input. The step takes it only where it meets the bound
of Table 6.13 (R204). Log entry 3. -/
opaque Config.exp2 : W32 → W32

/-- Free value: a candidate result of LOG2 (R204). Log entry 3. -/
opaque Config.log2 : W32 → W32

/-- Free value: a candidate result of RCP (R204). Log entry 3. -/
opaque Config.rcp : W32 → W32

/-- Free value: a candidate result of RSQRT (R204). Log entry 3. -/
opaque Config.rsqrt : W32 → W32

/-- Free value: number `n` of the values that the specification leaves open (log entry 4). The state counts
how many have been drawn. -/
opaque Config.free : Nat → Nat

/-- Free value: the choice among alternatives that the specification leaves open (log entry 4). -/
opaque Config.freeBool : Nat → Bool

/-- The request tag of the request that leaves the device as output number `n` (R296): how a requester assigns it is open. A free
value: log entry 84. -/
opaque Config.rtag : Nat → Nat

/-- Free value: the overlay entries of field `n`, by 16·router + entry, that Carafe builds for a list of dead routers (field, router)
and dead crossings (seam, crossing, plane) (R265). Log entry 82. -/
opaque Config.overlays : List (Nat × Nat) → List (Nat × Nat × Nat) → Nat → Map (W32 × W32)

/-- Free value: the hash of an ordering key (source core, DDEV, destination core) by which a bundle chooses a port for an
ordered packet (R303). Log entry 6. DEDUCED, log entry 6. -/
opaque Config.linkHash : Nat → Nat → Nat → Nat

/-- Free value: the CCLK from issue to completion of a sampled event: core, event code, running count of the sampler, time (Table 18.2).
Log entry 78. DESIGN CHOICE, log entry 78. -/
opaque Config.sampleLat : Nat → Nat → Nat → Nat → Nat

/-- Free value: the factory trim of VCORE of a field in units of 10 µV, of which at most 5,000 count (R397). Log entry 7.
DEDUCED, log entry 7. -/
opaque Config.vcoreTrim : Nat → Nat

/-! Free values: what is set at manufacture, outside the specification, or by standards that it cites without giving their
contents. Log entry 8. -/

/-- Ilxapor's PCI-SIG vendor ID (Table 16.10). PRESUMED, log entry 8. -/
opaque Config.vendorId : Nat

/-- The characters of the module's serial number and the bytes of its MAC base, by position (Table 16.10).
PRESUMED, log entry 8. -/
opaque Config.serial : Nat → Byte
opaque Config.macBase : Nat → Byte

/-- The SPDM slot 0 chain, in DER (Table 16.10). PRESUMED, log entry 8. -/
opaque Config.certChain : Bytes

/-- The SHA-384 digest of Ilxapor's root certificate (R488), by byte. -/
opaque Config.ilxaporRoot : Nat → Byte

/-- The header of the image that bank `b` is shipped with, by byte (Table 17.3). -/
opaque Config.shipped : Nat → Nat → Byte

/-- Anti-rollback counters 0 and 1 as fused at delivery (R523). -/
opaque Config.fusedSvn : Nat → Nat

/-- SHA-384 of a byte string, and a signature by the identity key (R519), by byte. -/
opaque Config.sha384 : Bytes → Nat → Byte
opaque Config.sign : Bytes → Nat → Byte

/-- Measurement block `i` (Table 16.3) where its content lies outside the state. -/
opaque Config.measured : Nat → Bytes

/-- How DSP0277 seals a message of a session, and how DSP0274 lays out response number `n` with its fields. -/
opaque Config.seal : Nat → Bytes → Bytes
opaque Config.spdmWire : Nat → Bytes → Bytes

/-- The current of aux channel `c` at a time, in mA, and the monitors that CMIS module `p` reports (Tables 13.17, 9.16). -/
opaque Config.auxCurrent : Nat → Nat → Nat

/-- The IPv6 link-local address of management port `m`, and the address that it forms by stateless autoconfiguration (R485). -/
opaque Config.linkLocal : Nat → Nat → Byte
opaque Config.autoAddr : Nat → Nat → Byte

/-- The two ordering codes of Table 0.1 (R1). -/
inductive Profile where
  | l | a
  deriving DecidableEq, Repr

/-- The fused profile of this device (R1, R21). Every statement holds for both, since it has no value. -/
opaque Config.profileIsL : Bool

/-- Table 0.1: the module input ceiling, in W (R1, R415). -/
def Config.inputCeiling : Nat := bif Config.profileIsL then 4800 else 2600

/-- R21: nominal CCLK in units of 12.5 MHz steps above 0.6 GHz (Table 12.1): 64 for 1.40 GHz, 32 for 1.00 GHz. -/
def Config.nominalStep : Nat := bif Config.profileIsL then 64 else 32

end Sys2Proof
end

