-- ==== Sys2Proof/Machine/Flags.lean ====
section
/-!
DEFINITION. Exact numbers, rounding and the four arithmetic flags (chapter 3). A value is a NaN, an infinity
or an exact dyadic number `m * 2^e` with a sign. Every rounding of the device is a function from an exact
value to a code and the flags it raises (R80, R93 to R96), so each flag rule of Table 3.9 stands here once.
-/

namespace Sys2Proof.Machine

/-- OVERFLOW [0], UNDERFLOW [1], INEXACT [2] and INVALID [3], as in Table 3.10 (R101). -/
abbrev Flags := BitVec 4

def fOV : Flags := 1#4
def fUF : Flags := 2#4
def fIX : Flags := 4#4
def fNV : Flags := 8#4

/-- The value of a code: NaN, an infinity of a sign, or `(-1)^neg * m * 2^e` (R62, R63). -/
inductive FVal where
  | nan
  | inf (neg : Bool)
  | fin (neg : Bool) (m : Nat) (e : Int)
  deriving DecidableEq, Repr

/-- The parameters of a floating-point format (Table 3.2). `nanAllOnes` marks E4M3, whose only special codes are
0x7F and 0xFF. -/
structure FFmt where
  ebits : Nat
  mbits : Nat
  bias  : Nat
  hasInf : Bool
  nanAllOnes : Bool
  deriving DecidableEq, Repr

def fp32 : FFmt := ⟨8, 23, 127, true, false⟩
def bf16 : FFmt := ⟨8, 7, 127, true, false⟩
def fp16 : FFmt := ⟨5, 10, 15, true, false⟩
def e5m2 : FFmt := ⟨5, 2, 15, true, false⟩
def e4m3 : FFmt := ⟨4, 3, 7, false, true⟩
def e3m2 : FFmt := ⟨3, 2, 3, false, false⟩
def e2m3 : FFmt := ⟨2, 3, 1, false, false⟩
def e2m1 : FFmt := ⟨2, 1, 1, false, false⟩

def FFmt.width (f : FFmt) : Nat := 1 + f.ebits + f.mbits

/-- The exponent of the smallest normal (Table 3.2). -/
def FFmt.emin (f : FFmt) : Int := 1 - (f.bias : Int)

/-- The magnitude code of the largest finite value (Table 3.3). -/
def FFmt.maxFinite (f : FFmt) : Nat :=
  if f.hasInf then (2 ^ f.ebits - 1) * 2 ^ f.mbits - 1
  else if f.nanAllOnes then 2 ^ (f.ebits + f.mbits) - 2
  else 2 ^ (f.ebits + f.mbits) - 1

/-- The magnitude code of infinity, where the format has one. -/
def FFmt.infCode (f : FFmt) : Nat := (2 ^ f.ebits - 1) * 2 ^ f.mbits

/-- R64, Table 3.3: the canonical NaN, where the format has one. -/
def FFmt.nanCode (f : FFmt) : Nat :=
  if f.nanAllOnes then 2 ^ (f.ebits + f.mbits) - 1 else f.infCode + 2 ^ (f.mbits - 1)

def FFmt.hasNan (f : FFmt) : Bool := f.hasInf || f.nanAllOnes

/-- R62, R63: the value of a code. -/
def FFmt.decode (f : FFmt) (code : Nat) : FVal :=
  let neg := code.testBit (f.ebits + f.mbits)
  let ef := (code / 2 ^ f.mbits) % 2 ^ f.ebits
  let m := code % 2 ^ f.mbits
  if f.hasInf && ef == 2 ^ f.ebits - 1 then
    (if m == 0 then .inf neg else .nan)
  else if f.nanAllOnes && code % 2 ^ (f.ebits + f.mbits) == 2 ^ (f.ebits + f.mbits) - 1 then .nan
  else if ef == 0 then .fin neg m (f.emin - f.mbits)
  else .fin neg (2 ^ f.mbits + m) ((ef : Int) - f.bias - f.mbits)

/-- The code with magnitude `mag` and a sign. -/
def FFmt.signed (f : FFmt) (neg : Bool) (mag : Nat) : Nat :=
  (if neg then 2 ^ (f.ebits + f.mbits) else 0) + mag

/-- The exponent of the leading bit of `m * 2^e`, for `m` not 0. -/
def topExp (m : Nat) (e : Int) : Int := (Nat.log2 m : Int) + e

/-- `m * 2^e` counted in units of `2^q`: the whole units, and the rest as a fraction `num / 2^sh`. -/
def inUnits (m : Nat) (e q : Int) : Nat × Nat × Nat :=
  if q ≤ e then (m * 2 ^ (e - q).toNat, 0, 0)
  else
    let sh := (q - e).toNat
    (m / 2 ^ sh, m % 2 ^ sh, sh)

/-- The rounding modes of R93, in the code of CTL.RND (Table 6.11): nearest even, toward zero, stochastic with
the 16-bit draw `u`. -/
inductive Round where
  | rne
  | rtz
  | stoch (u : Nat)
  deriving DecidableEq, Repr

/-- Rounds `whole + num / 2^sh` units to a whole number of units (R93). -/
def roundUnits (r : Round) (whole num sh : Nat) : Nat :=
  match r with
  | .rtz => whole
  | .rne =>
    if sh == 0 then whole
    else if num > 2 ^ (sh - 1) then whole + 1
    else if num == 2 ^ (sh - 1) then whole + whole % 2
    else whole
  | .stoch u => whole + (num * 2 ^ 16 + u * 2 ^ sh) / 2 ^ (sh + 16)

/-- The outcome of an encode: the code, its flags, whether it counts in VEC_SATCNT (R210). -/
structure Enc where
  code : Nat
  fl   : Flags
  sat  : Bool
  deriving DecidableEq, Repr

/-- R93 to R95, Table 3.8: a value encoded in a floating-point format. `ftz` is flush control, which applies to
BF16, FP16 and FP32 alone (R95). DEDUCED, log entry 16. -/
def FFmt.encode (f : FFmt) (r : Round) (satOpt ftz : Bool) (v : FVal) : Enc :=
  match v with
  | .nan => if f.hasNan then ⟨f.nanCode, 0, false⟩ else ⟨0, fNV, false⟩
  | .inf neg =>
    if f.hasInf then ⟨f.signed neg f.infCode, 0, false⟩ else ⟨f.signed neg f.maxFinite, fOV, false⟩
  | .fin neg m e =>
    if m == 0 then ⟨f.signed neg 0, 0, false⟩
    else
      let top := topExp m e
      let tiny := decide (top < f.emin)
      let ebase := max top f.emin
      let (whole, num, sh) := inUnits m e (ebase - f.mbits)
      let n := roundUnits r whole num sh
      let mag := (ebase - f.emin).toNat * 2 ^ f.mbits + n
      let inexact := num != 0
      if tiny && ftz && 16 ≤ f.width then ⟨f.signed neg 0, fUF ||| fIX, false⟩
      else if mag > f.maxFinite then
        let toInf := f.hasInf && !satOpt && r != .rtz
        ⟨f.signed neg (if toInf then f.infCode else f.maxFinite), fOV ||| fIX, !toInf⟩
      else
        ⟨f.signed neg mag, (if inexact then fIX else 0) ||| (if inexact && tiny then fUF else 0), false⟩

/-- R94, R96, Table 3.8: a value rounded to an integer and clamped to `lo`–`hi`. The code is the low `w` bits. -/
def encodeInt (w : Nat) (lo hi : Int) (r : Round) (v : FVal) : Enc :=
  let put (i : Int) : Nat := (i % (2 ^ w : Nat)).toNat
  match v with
  | .nan => ⟨0, fNV, false⟩
  | .inf neg => ⟨put (if neg then lo else hi), fOV, false⟩
  | .fin neg m e =>
    let (whole, num, sh) := inUnits m e 0
    let n : Int := roundUnits r whole num sh
    let i : Int := if neg then -n else n
    if i < lo then ⟨put lo, fOV ||| fIX, true⟩
    else if hi < i then ⟨put hi, fOV ||| fIX, true⟩
    else ⟨put i, if num != 0 then fIX else 0, false⟩

/-! ### Exact arithmetic -/

def FVal.neg : FVal → FVal
  | .nan => .nan
  | .inf s => .inf (!s)
  | .fin s m e => .fin (!s) m e

def FVal.abs : FVal → FVal
  | .nan => .nan
  | .inf _ => .inf false
  | .fin _ m e => .fin false m e

def FVal.isNan : FVal → Bool
  | .nan => true
  | _ => false

def FVal.isFinite : FVal → Bool
  | .fin _ _ _ => true
  | _ => false

def FVal.isZero : FVal → Bool
  | .fin _ m _ => m == 0
  | _ => false

def FVal.sign : FVal → Bool
  | .nan => false
  | .inf s => s
  | .fin s _ _ => s

/-- The value times `2^k`. -/
def FVal.scale (v : FVal) (k : Int) : FVal :=
  match v with
  | .fin s m e => .fin s m (e + k)
  | w => w

/-- The exact product, with INVALID for 0 times an infinity and none for a NaN (R89, R90). -/
def FVal.mul (a b : FVal) : FVal × Flags :=
  match a, b with
  | .nan, _ => (.nan, 0)
  | _, .nan => (.nan, 0)
  | .inf s, .inf t => (.inf (s != t), 0)
  | .inf s, .fin t m _ => if m == 0 then (.nan, fNV) else (.inf (s != t), 0)
  | .fin s m _, .inf t => if m == 0 then (.nan, fNV) else (.inf (s != t), 0)
  | .fin s m e, .fin t n f => (.fin (s != t) (m * n) (e + f), 0)

/-- The signed whole number of units `2^q` in a finite value whose exponent is at least `q`. -/
def unitsInt (s : Bool) (m : Nat) (e q : Int) : Int :=
  let n : Int := (m * 2 ^ (e - q).toNat : Nat)
  if s then -n else n

/-- The exact sum (R81): a zero sum of opposite signs is +0, of two negative zeros −0; INVALID for infinities of
opposite signs. -/
def FVal.add (a b : FVal) : FVal × Flags :=
  match a, b with
  | .nan, _ => (.nan, 0)
  | _, .nan => (.nan, 0)
  | .inf s, .inf t => if s == t then (.inf s, 0) else (.nan, fNV)
  | .inf s, _ => (.inf s, 0)
  | _, .inf t => (.inf t, 0)
  | .fin s m e, .fin t n f =>
    let q := min e f
    let i := unitsInt s m e q + unitsInt t n f q
    if i == 0 then (.fin (s && t) 0 0, 0) else (.fin (decide (i < 0)) i.natAbs q, 0)

/-- Whether `a < b`, for values that are no NaN; −0 and +0 are equal. -/
def FVal.lt (a b : FVal) : Bool :=
  match a, b with
  | .nan, _ => false
  | _, .nan => false
  | .inf s, .inf t => s && !t
  | .inf s, _ => s
  | _, .inf t => !t
  | .fin s m e, .fin t n f =>
    let q := min e f
    decide (unitsInt s m e q < unitsInt t n f q)

/-- The value of an integer. -/
def FVal.ofInt (i : Int) : FVal := .fin (decide (i < 0)) i.natAbs 0

/-- R76: a value truncated toward zero to an integer, and whether that changed it. NaN and infinities give 0. -/
def FVal.toIntTrunc (v : FVal) : Int × Bool :=
  match v with
  | .fin s m e =>
    let (whole, num, _) := inUnits m e 0
    (if s then -(whole : Int) else whole, num != 0)
  | _ => (0, false)

/-! ### The Press: rounding toward zero with flush and overflow to infinity (R80, R81) -/

def canonNan : W32 := 0x7FC00000#32

/-- R80: an exact value rounded to FP32 as the array rounds it. -/
def pressRound (v : FVal) : W32 × Flags :=
  match v with
  | .nan => (canonNan, 0)
  | .inf s => (BitVec.ofNat 32 (fp32.signed s fp32.infCode), 0)
  | .fin s m e =>
    if m == 0 then (BitVec.ofNat 32 (fp32.signed s 0), 0)
    else
      let top := topExp m e
      if 128 ≤ top then (BitVec.ofNat 32 (fp32.signed s fp32.infCode), fOV ||| fIX)
      else if top < -126 then (BitVec.ofNat 32 (fp32.signed s 0), fUF ||| fIX)
      else
        let (whole, num, _) := inUnits m e (top - 23)
        (BitVec.ofNat 32 (fp32.signed s ((top + 126).toNat * 2 ^ 23 + whole)), if num != 0 then fIX else 0)

def f32 (w : W32) : FVal := fp32.decode w.toNat

/-- R81: an addition in the Press. -/
def pressAdd (a b : W32) : W32 × Flags :=
  let (v, f1) := (f32 a).add (f32 b)
  let (w, f2) := pressRound v
  (w, f1 ||| f2)

/-- R72, R80: a product in the Press, with the exponent `k` of the block scales; `k = none` for a scale of NaN. -/
def pressMul (a b : FVal) (k : Option Int) : W32 × Flags :=
  match k with
  | none => (canonNan, 0)
  | some k =>
    let (v, f1) := a.mul b
    let (w, f2) := pressRound (v.scale k)
    (w, f1 ||| f2)

/-- R84: an integer clamped to INT32, with OVERFLOW where it clamps. -/
def clamp32 (i : Int) : Int × Flags :=
  if i < -2147483648 then (-2147483648, fOV)
  else if 2147483647 < i then (2147483647, fOV)
  else (i, 0)

/-! ### FP32 arithmetic of the vector unit and of tally (R90, R126) -/

/-- R90: an exact value rounded to FP32 under RNE, with flush control. DEDUCED, log entry 16. -/
def ieeeRound (ftz : Bool) (v : FVal) : W32 × Flags :=
  let r := fp32.encode .rne false ftz v
  (BitVec.ofNat 32 r.code, r.fl)

/-- R90: with flush control, a subnormal FP32 input is read as a zero of its sign and sets UNDERFLOW. -/
def ftzIn (ftz : Bool) (w : W32) : FVal × Flags :=
  match f32 w with
  | .fin s m e =>
    if ftz && m != 0 && decide (topExp m e < -126) then (.fin s 0 0, fUF) else (.fin s m e, 0)
  | v => (v, 0)

def ieeeAdd (ftz : Bool) (a b : W32) : W32 × Flags :=
  let (x, f1) := ftzIn ftz a
  let (y, f2) := ftzIn ftz b
  if x.isNan || y.isNan then (canonNan, f1 ||| f2)
  else
    let (v, f3) := x.add y
    let (w, f4) := ieeeRound ftz v
    (w, f1 ||| f2 ||| f3 ||| f4)

def negW (a : W32) : W32 := a ^^^ 0x80000000#32
def absW (a : W32) : W32 := a &&& 0x7FFFFFFF#32

def ieeeSub (ftz : Bool) (a b : W32) : W32 × Flags := ieeeAdd ftz a (negW b)

def ieeeMul (ftz : Bool) (a b : W32) : W32 × Flags :=
  let (x, f1) := ftzIn ftz a
  let (y, f2) := ftzIn ftz b
  if x.isNan || y.isNan then (canonNan, f1 ||| f2)
  else
    let (v, f3) := x.mul y
    let (w, f4) := ieeeRound ftz v
    (w, f1 ||| f2 ||| f3 ||| f4)

/-- R90: a × b + c with one rounding; a NaN input of any of the three sets no INVALID. -/
def ieeeFma (ftz : Bool) (a b c : W32) : W32 × Flags :=
  let (x, f1) := ftzIn ftz a
  let (y, f2) := ftzIn ftz b
  let (z, f3) := ftzIn ftz c
  if x.isNan || y.isNan || z.isNan then (canonNan, f1 ||| f2 ||| f3)
  else
    let (p, f4) := x.mul y
    let (v, f5) := if p.isNan then (FVal.nan, 0) else p.add z
    let (w, f6) := ieeeRound ftz v
    (w, f1 ||| f2 ||| f3 ||| f4 ||| f5 ||| f6)

/-- R203: the larger of two FP32 codes; a NaN gives the canonical NaN, and +0 is larger than −0. -/
def fmaxW (a b : W32) : W32 :=
  if (f32 a).isNan || (f32 b).isNan then canonNan
  else if (f32 a).lt (f32 b) then b
  else if (f32 b).lt (f32 a) then a
  else if (f32 a).sign then b else a

/-- R203: the smaller of two FP32 codes; −0 is smaller than +0. -/
def fminW (a b : W32) : W32 :=
  if (f32 a).isNan || (f32 b).isNan then canonNan
  else if (f32 a).lt (f32 b) then a
  else if (f32 b).lt (f32 a) then b
  else if (f32 a).sign then a else b

/-! ### The function operations (R204, Table 6.13) -/

/-- The free candidate where it meets the bound, else the other value, which meets it. -/
def pick (free fallback : W32) (ok : W32 → Bool) : W32 := if ok free then free else fallback

/-- `|a - b| ≤ c` for finite values. -/
def within (a b c : FVal) : Bool :=
  let (d, _) := a.add b.neg
  !(c.lt d.abs)

/-- One ulp of a finite FP32 code. -/
def ulp32 (w : W32) : FVal :=
  match f32 w with
  | .fin _ m e => .fin false 1 (if m == 0 then -149 else max (topExp m e - 23) (-149))
  | _ => .fin false 1 104

/-- A dyadic quotient `⌊2^p * x / y⌋` of positive numbers as a value, to `p` bits after the point. -/
def quotTrunc (mx my : Nat) (ex ey : Int) (p : Nat) : FVal := .fin false (2 ^ p * mx / my) (ex - ey - p)

/-- The integer part of a square root, by bits, from the bit `i` down. -/
def isqrtGo (n : Nat) : Nat → Nat → Nat
  | 0, acc => if (acc + 1) * (acc + 1) ≤ n then acc + 1 else acc
  | i + 1, acc =>
    let t := acc + 2 ^ (i + 1)
    isqrtGo n i (if t * t ≤ n then t else acc)

def isqrt (n : Nat) : Nat := isqrtGo n (Nat.log2 n / 2 + 1) 0

/-- `⌊2^p * 2^(k/2^j)⌋`-style constants: `roots p i` is `2^p * 2^(2^-i)` truncated, by repeated square roots. -/
def roots (p : Nat) : Nat → Nat
  | 0 => 2 * 2 ^ p
  | i + 1 => isqrt (roots p i * 2 ^ p)

/-- `2^p * 2^(f / 2^n)` truncated, for a fraction `f` of `n` bits, bit by bit from the highest. -/
def exp2Frac (p n f : Nat) : Nat :=
  (List.range n).foldl
    (fun acc i => if f.testBit (n - 1 - i) then acc * roots p (i + 1) / 2 ^ p else acc) (2 ^ p)

/-- A value near `2^x` to 60 bits, for a finite `x` of magnitude below 256. -/
def exp2Near (s : Bool) (m : Nat) (e : Int) : FVal :=
  let (whole, num, sh) := inUnits m e 0
  let drop := sh - 40
  let n := sh - drop
  let num' := num / 2 ^ drop
  if s then
    if num' == 0 then .fin false 1 (-(whole : Int))
    else .fin false (exp2Frac 60 n (2 ^ n - num')) (-(whole : Int) - 1 - 60)
  else .fin false (exp2Frac 60 n num') ((whole : Int) - 60)

/-- The `n` fraction bits of `log₂ (x / 2^p)` for `2^p ≤ x < 2^(p+1)`, by squaring. -/
def log2FracGo (p : Nat) : Nat → Nat → Nat → Nat
  | 0, _, acc => acc
  | n + 1, x, acc =>
    let y := x * x / 2 ^ p
    if 2 ^ (p + 1) ≤ y then log2FracGo p n (y / 2) (2 * acc + 1) else log2FracGo p n y (2 * acc)

/-- A value near `log₂ (m * 2^e)` to 48 bits after the point. -/
def log2Near (m : Nat) (e : Int) : FVal :=
  let top := topExp m e
  let x := if Nat.log2 m ≤ 80 then m * 2 ^ (80 - Nat.log2 m) else m / 2 ^ (Nat.log2 m - 80)
  let i := top * (2 ^ 48 : Nat) + (log2FracGo 80 48 x 0 : Nat)
  .fin (decide (i < 0)) i.natAbs (-48)

def isPow2 (m : Nat) : Bool := m != 0 && 2 ^ Nat.log2 m == m

/-- The free candidate checked to lie within `k` ulp of a near value, else the near value rounded to nearest. -/
def nearResult (free : W32) (near : FVal) (k : Nat) : W32 :=
  let fb := (ieeeRound false near).1
  let (u, _) := (ulp32 fb).mul (.fin false k 0)
  pick free fb (fun w => (f32 w).isFinite && within (f32 w) near u)

/-- Flush control on a result that is not exact (R90, R95): INEXACT, and UNDERFLOW where the value is tiny. -/
def funcOut (ftz : Bool) (w : W32) : W32 × Flags :=
  match f32 w with
  | .fin s m e =>
    if m == 0 || decide (topExp m e < -126) then
      ((if ftz then BitVec.ofNat 32 (fp32.signed s 0) else w), fIX ||| fUF)
    else (w, fIX)
  | _ => (w, fIX)

/-- R204: 2^a. DEDUCED, log entry 3. -/
def fExp2 (ftz : Bool) (a : W32) : W32 × Flags :=
  let (x, f0) := ftzIn ftz a
  match x with
  | .nan => (canonNan, f0)
  | .inf s => (if s then 0#32 else 0x7F800000#32, f0)
  | .fin s m e =>
    if m == 0 then (0x3F800000#32, f0)
    else
      let (whole, num, _) := inUnits m e 0
      if !s && 128 ≤ whole then (0x7F800000#32, f0 ||| fOV ||| fIX)
      else if s && (126 < whole || (whole == 126 && num != 0)) then (0#32, f0 ||| fUF ||| fIX)
      else if num == 0 then
        ((ieeeRound false (.fin false 1 (if s then -(whole : Int) else whole))).1, f0)
      else
        let near := if topExp m e < -40 then FVal.fin false 1 0 else exp2Near s m e
        let r := funcOut ftz (nearResult (Config.exp2 a) near 2)
        (r.1, f0 ||| r.2)

/-- R204: log₂ a. DEDUCED, log entry 3. -/
def fLog2 (ftz : Bool) (a : W32) : W32 × Flags :=
  let (x, f0) := ftzIn ftz a
  match x with
  | .nan => (canonNan, f0)
  | .inf s => if s then (canonNan, f0 ||| fNV) else (0x7F800000#32, f0)
  | .fin s m e =>
    if m == 0 then (0xFF800000#32, f0)
    else if s then (canonNan, f0 ||| fNV)
    else if isPow2 m then ((ieeeRound false (.ofInt (topExp m e))).1, f0)
    else
      let near := log2Near m e
      let fb := (ieeeRound false near).1
      let (u, _) := (ulp32 fb).mul (.fin false 2 0)
      let tight := topExp m e == 0 || topExp m e == -1
      let ok (w : W32) : Bool :=
        (f32 w).isFinite && (within (f32 w) near u || (tight && within (f32 w) near (.fin false 1 (-22))))
      let r := funcOut ftz (pick (Config.log2 a) fb ok)
      (r.1, f0 ||| r.2)

/-- R204: 1 / a. DEDUCED, log entry 3. -/
def fRcp (ftz : Bool) (a : W32) : W32 × Flags :=
  let (x, f0) := ftzIn ftz a
  match x with
  | .nan => (canonNan, f0)
  | .inf s => (if s then 0x80000000#32 else 0#32, f0)
  | .fin s m e =>
    if m == 0 then (if s then 0xFF800000#32 else 0x7F800000#32, f0)
    else if isPow2 m then
      let r := ieeeRound ftz (.fin s 1 (-(topExp m e)))
      (r.1, f0 ||| r.2)
    else
      let near := quotTrunc 1 m 0 e (Nat.log2 m + 60)
      let near := if s then near.neg else near
      let r := ieeeRound ftz near
      if (f32 r.1).isFinite then
        let r := funcOut ftz (nearResult (Config.rcp a) near 1)
        (r.1, f0 ||| r.2)
      else (r.1, f0 ||| r.2 ||| fIX)

/-- R204: 1 / √a. -/
def fRsqrt (ftz : Bool) (a : W32) : W32 × Flags :=
  let (x, f0) := ftzIn ftz a
  match x with
  | .nan => (canonNan, f0)
  | .inf s => if s then (canonNan, f0 ||| fNV) else (0#32, f0)
  | .fin s m e =>
    if m == 0 then (if s then 0xFF800000#32 else 0x7F800000#32, f0)
    else if s then (canonNan, f0 ||| fNV)
    else if isPow2 m && (topExp m e) % 2 == 0 then
      ((ieeeRound false (.fin false 1 (-(topExp m e) / 2))).1, f0)
    else
      -- 1/√(m 2^e) = √(2^120 / m') 2^(-60 - e'/2), with e' even
      let (m', e') := if e % 2 == 0 then (m, e) else (2 * m, e - 1)
      let near := FVal.fin false (isqrt (2 ^ 160 / m')) (-80 - e' / 2)
      let r := funcOut ftz (nearResult (Config.rsqrt a) near 1)
      (r.1, f0 ||| r.2)

/-! ### Stochastic draws (R209) -/

/-- R209: one step of a lane generator. -/
def genStep (x : W32) : W32 :=
  let x := x ^^^ (x <<< 13)
  let x := x ^^^ (x >>> 17)
  x ^^^ (x <<< 5)

/-- R209: lane `l` after VEC_SEED is written with `s`. -/
def seedLane (s : W32) (l : Nat) : W32 :=
  let x := s ^^^ BitVec.ofNat 32 (0x9E3779B9 * (l + 1))
  if x == 0#32 then 1#32 else x

end Sys2Proof.Machine
end

