-- ==== Sys2Proof/Machine/Operands.lean ====
section
/-!
DEFINITION. Operand forms: byte order, packed vectors of narrow elements, format codes, block scales, message
destinations, and the descriptors of the engines as the control unit reads them from 64 bytes.
-/

namespace Sys2Proof.Machine

/-! ### Bytes -/

/-- The number whose bytes these are, least significant first (R8). -/
def leNat : Bytes → Nat
  | [] => 0
  | b :: bs => b.toNat + 256 * leNat bs

/-- The low `n` bytes of a number, least significant first (R8). -/
def natBytes : Nat → Nat → Bytes
  | 0, _ => []
  | n + 1, x => BitVec.ofNat 8 x :: natBytes n (x / 256)

/-- `n` bytes from offset `off` of a byte string, as a number. Bytes past its end read as 0. -/
def leAt (bs : Bytes) (off n : Nat) : Nat := leNat ((bs.drop off).take n)

/-- Bits `[hi:lo]` of a number. -/
def bits (x hi lo : Nat) : Nat := (x / 2 ^ lo) % 2 ^ (hi + 1 - lo)

/-- Sign extension of the low `w` bits to 64. -/
def sext64 (w x : Nat) : W64 := (BitVec.ofNat w x).signExtend 64

/-- A byte string cut or filled with 0x00 to `n` bytes. -/
def padTo (n : Nat) (bs : Bytes) : Bytes := (bs ++ List.replicate (n - bs.length) 0#8).take n

/-! ### Formats -/

/-- The formats of Table 6.10 (R199); the Press uses those of R135. -/
inductive Fmt where
  | e4m3 | e5m2 | e3m2 | e2m3 | e2m1 | int8 | int4 | int2 | tern | bf16 | fp16 | fp32
  deriving DecidableEq, Repr

/-- Table 6.10: the format of a vector format code. -/
def fmtOf (code : Nat) : Option Fmt :=
  match code with
  | 0 => some .e4m3
  | 1 => some .e5m2
  | 2 => some .e3m2
  | 3 => some .e2m3
  | 4 => some .e2m1
  | 5 => some .int8
  | 6 => some .int4
  | 7 => some .int2
  | 8 => some .tern
  | 9 => some .bf16
  | 10 => some .fp16
  | 11 => some .fp32
  | _ => none

/-- R135: the format of a Press format code. -/
def pressFmtOf (code : Nat) : Option Fmt := if code ≤ 10 then fmtOf code else none

/-- Table 3.1: the width in bits. -/
def Fmt.width : Fmt → Nat
  | .e4m3 | .e5m2 | .int8 => 8
  | .e3m2 | .e2m3 => 6
  | .e2m1 | .int4 => 4
  | .int2 | .tern => 2
  | .bf16 | .fp16 => 16
  | .fp32 => 32

/-- The floating-point parameters of a format, none for the integer and ternary ones. -/
def Fmt.fp : Fmt → Option FFmt
  | .e4m3 => some Machine.e4m3
  | .e5m2 => some Machine.e5m2
  | .e3m2 => some Machine.e3m2
  | .e2m3 => some Machine.e2m3
  | .e2m1 => some Machine.e2m1
  | .bf16 => some Machine.bf16
  | .fp16 => some Machine.fp16
  | .fp32 => some Machine.fp32
  | _ => none

def Fmt.isInt : Fmt → Bool
  | .int8 | .int4 | .int2 | .tern => true
  | _ => false

def Fmt.isFp8 : Fmt → Bool
  | .e4m3 | .e5m2 => true
  | _ => false

def Fmt.isFp6 : Fmt → Bool
  | .e3m2 | .e2m3 => true
  | _ => false

/-- R73: the formats that may carry escapes. -/
def Fmt.mayEscape : Fmt → Bool
  | .e2m1 | .e3m2 | .e2m3 | .int4 => true
  | _ => false

/-- R70: whether a pass of the format applies block scales, given the enable of an FP8 pass. -/
def Fmt.scaled (f : Fmt) (sen : Bool) : Bool :=
  match f with
  | .e2m1 | .e3m2 | .e2m3 => true
  | .e4m3 | .e5m2 => sen
  | _ => false

/-- R82: the MACs per cell of a pass in the format. -/
def Fmt.mac : Fmt → Nat
  | .e3m2 | .e2m3 | .e2m1 | .int4 => 2
  | .int2 | .tern => 4
  | _ => 1

/-- R97: the exponent E_t of a quantisation target. -/
def Fmt.et : Fmt → Int
  | .e2m1 | .e2m3 => 2
  | .e3m2 => 4
  | .e4m3 => 8
  | .e5m2 => 15
  | _ => 0

/-- R65: the value of an integer or ternary code, and whether it is the reserved ternary code. -/
def intOf (f : Fmt) (code : Nat) : Int × Bool :=
  let w := f.width
  let c := code % 2 ^ w
  if f == .tern && c == 2 then (0, true)
  else (if 2 ^ (w - 1) ≤ c then (c : Int) - (2 ^ w : Nat) else c, false)

/-- The value of a code of any format; the reserved ternary code reads as 0 and raises INVALID (R65). -/
def Fmt.decode (f : Fmt) (code : Nat) : FVal × Flags :=
  match f.fp with
  | some p => (p.decode code, 0)
  | none =>
    let (i, bad) := intOf f code
    (FVal.ofInt i, if bad then fNV else 0)

/-- R68: the exponent of an E8M0 scale code, none for the NaN code 0xFF. -/
def scaleExp (e : Nat) : Option Int := if e == 255 then none else some ((e : Int) - 127)

/-- R90, R91: an exact value read as FP32. It is exact but for three cases: a magnitude of 2^128 or more gives an infinity
with OVERFLOW and INEXACT; under flush control a subnormal gives a zero of its sign with UNDERFLOW (Table 3.9).
DEDUCED, log entry 15. -/
def readF32 (ftz : Bool) (v : FVal) : W32 × Flags :=
  match v with
  | .fin s m e =>
    if ftz && m != 0 && decide (topExp m e < -126) then (BitVec.ofNat 32 (fp32.signed s 0), fUF)
    else ieeeRound false (.fin s m e)
  | w => ieeeRound false w

/-- R72, R91: a code decoded to FP32 with its block scale, under flush control; a scale of NaN gives NaN.
DEDUCED, log entry 15. -/
def decode32 (f : Fmt) (code : Nat) (scale : Option Nat) (ftz : Bool) : W32 × Flags :=
  let (v, f0) := f.decode code
  match scale with
  | none => let r := readF32 ftz v; (r.1, f0 ||| r.2)
  | some e =>
    match scaleExp e with
    | none => (canonNan, f0)
    | some k => let r := readF32 ftz (v.scale k); (r.1, f0 ||| r.2)

/-- R93 to R96: a value encoded in a format. -/
def Fmt.encode (f : Fmt) (r : Round) (sat ftz : Bool) (v : FVal) : Enc :=
  match f with
  | .int8 => encodeInt 8 (-128) 127 r v
  | .int4 => encodeInt 4 (-8) 7 r v
  | .int2 => encodeInt 2 (-2) 1 r v
  | .tern => encodeInt 2 (-1) 1 r v
  | .e4m3 => Machine.e4m3.encode r sat ftz v
  | .e5m2 => Machine.e5m2.encode r sat ftz v
  | .e3m2 => Machine.e3m2.encode r sat ftz v
  | .e2m3 => Machine.e2m3.encode r sat ftz v
  | .e2m1 => Machine.e2m1.encode r sat ftz v
  | .bf16 => Machine.bf16.encode r sat ftz v
  | .fp16 => Machine.fp16.encode r sat ftz v
  | .fp32 => Machine.fp32.encode r sat ftz v

/-- R66, R67: the bytes of a packed vector of `n` elements. FP6 takes whole groups of 4 elements. -/
def Fmt.vecBytes (f : Fmt) (n : Nat) : Nat :=
  if f.isFp6 then ((n + 3) / 4) * 3 else (n * f.width + 7) / 8

/-- R66: element `i` of a packed vector, given as the number its bytes spell. -/
def elemAt (f : Fmt) (v i : Nat) : Nat := (v / 2 ^ (i * f.width)) % 2 ^ f.width

/-- R66: the number that a list of codes spells, element 0 lowest. -/
def packNat (f : Fmt) : List Nat → Nat
  | [] => 0
  | c :: cs => c % 2 ^ f.width + 2 ^ f.width * packNat f cs

/-- R66, R67: the bytes of a packed vector of codes, padded with zeros. -/
def packVec (f : Fmt) (cs : List Nat) : Bytes := natBytes (f.vecBytes cs.length) (packNat f cs)

/-! ### Destinations of messages (R226) -/

/-- A destination word: a queue, on this device or a named one, or a multicast channel. -/
inductive Dest where
  | uni (gqid dev : Nat) (rem : Bool)
  | mc  (chan : Nat)
  deriving DecidableEq, Repr

/-- R226: the destination that a 64-bit word names, none where the word breaks the layout. DEDUCED, log entry 26. -/
def decodeDest (w : W64) : Option Dest :=
  let x := w.toNat
  if bits x 63 32 != 0 then none
  else if bits x 31 31 == 0 then some (.uni (bits x 15 0) (bits x 29 16) (bits x 30 30 == 1))
  else if bits x 30 10 != 0 then none
  else some (.mc (bits x 9 0))

/-! ### Descriptors

Each `read…` takes the 64 bytes of a descriptor line. RSVD bits are ignored (R134, R164, R200, R234). -/

def readPconf (b : Bytes) : PconfDesc :=
  let u := leAt b
  { fmt := .ofNat 4 (u 4 1), pack := .ofNat 3 (u 5 1), sen := bits (u 6 1) 0 0 == 1, bsz := bits (u 6 1) 1 1 == 1,
    een := bits (u 7 1) 0 0 == 1, ramp := .ofNat 2 (u 8 1), ten := bits (u 9 1) 0 0 == 1 }

def readPload (b : Bytes) : PloadDesc :=
  let u := leAt b
  { submask := .ofNat 8 (u 1 1), fmt := .ofNat 4 (u 4 1), sen := bits (u 6 1) 0 0 == 1, bsz := bits (u 6 1) 1 1 == 1,
    data := bits (u 8 4) 20 0, scl := bits (u 12 4) 20 0, esca := bits (u 16 4) 20 0 }

def readPstream (b : Bytes) : PstreamDesc :=
  let u := leAt b
  { submask := .ofNat 8 (u 1 1), fmt := .ofNat 4 (u 4 1), accum := bits (u 5 1) 0 0 == 1, sen := bits (u 6 1) 0 0 == 1,
    bsz := bits (u 6 1) 1 1 == 1, m := u 8 2, mov := (List.range 4).map (fun i => bits (u (12 + 4 * i) 4) 20 0),
    mstride := bits (u 28 4) 20 0, msc := bits (u 32 4) 20 0,
    acc := (List.range 8).map (fun i => bits (u (36 + 2 * i) 2) 8 0) }

def readPdrain (b : Bytes) : PdrainDesc :=
  let u := leAt b
  let o := u 4 1
  { ofmt := .ofNat 3 o, rtz := bits o 4 4 == 1, sat := bits o 5 5 == 1, etype := bits o 6 6 == 1, clr := bits o 7 7 == 1,
    col0 := bits (u 5 1) 5 0, ncol := u 6 1, row0 := bits (u 8 2) 8 0, nrow := u 10 2, out := bits (u 12 4) 20 0,
    ostride := bits (u 16 4) 20 0, cscale := bits (u 20 4) 20 0, rscale := bits (u 24 4) 20 0 }

/-- Table 4.9: the Press command of a descriptor, none for a CMD outside 0x01–0x05 (Table 4.8). -/
def readPress (b : Bytes) : Option PressCmd :=
  match leAt b 0 1 with
  | 1 => some (.pconf (readPconf b))
  | 2 => some (.pload (readPload b))
  | 3 => some .pswap
  | 4 => some (.pstream (readPstream b))
  | 5 => some (.pdrain (readPdrain b))
  | _ => none

/-- Table 6.12: the operation of a vector OP code. -/
def vecOpOf (op : Nat) : Option VecOp :=
  match op with
  | 0x01 => some .add
  | 0x02 => some .sub
  | 0x03 => some .mul
  | 0x04 => some .fma
  | 0x05 => some .max
  | 0x06 => some .min
  | 0x07 => some .sel
  | 0x08 => some .cgt
  | 0x09 => some .abs
  | 0x0A => some .neg
  | 0x0B => some .exp2
  | 0x0C => some .log2
  | 0x0D => some .rcp
  | 0x0E => some .rsqrt
  | 0x10 => some .rsum
  | 0x11 => some .rmax
  | 0x12 => some .rmin
  | 0x13 => some .ramax
  | 0x18 => some .cvt
  | 0x19 => some .qnt
  | 0x1A => some .qnte
  | 0x1B => some .dqnt
  | 0x1C => some .trn
  | 0x1D => some .copy
  | _ => none

/-- Table 6.11. -/
def readVec (b : Bytes) : VecDesc :=
  let u := leAt b
  let c := u 1 1
  { rnd := .ofNat 2 c, sat := bits c 2 2 == 1, bsz := bits c 3 3 == 1, bimm := bits c 4 4 == 1, cimm := bits c 5 5 == 1,
    ifmt := .ofNat 4 (u 2 1), ofmt := .ofNat 4 (u 3 1), n := u 4 4, rows := u 8 2, sa := .ofNat 32 (u 12 4),
    sb := .ofNat 32 (u 16 4), sc := .ofNat 32 (u 20 4), dst := .ofNat 32 (u 24 4), apitch := u 28 4, bpitch := u 32 4,
    cpitch := u 36 4, dpitch := u 40 4, scl := bits (u 44 4) 20 0, esc := bits (u 48 4) 20 0,
    immb := .ofNat 32 (u 52 4), immc := .ofNat 32 (u 56 4) }

/-- Table 5.5: the operation of a DMA OP code. -/
def dmaOpOf (op : Nat) : Option DmaOp :=
  match op with
  | 1 => some .copy
  | 2 => some .fill
  | 3 => some .streamIn
  | 4 => some .streamOut
  | _ => none

/-- Table 5.5. -/
def readDma (b : Bytes) : DmaDesc :=
  let u := leAt b
  { ntf := bits (u 1 1) 0 0 == 1, endm := bits (u 1 1) 1 1 == 1, burst := u 2 2, len := u 4 4, src := .ofNat 64 (u 8 8),
    dst := .ofNat 64 (u 16 8), rows := u 24 2, msz := bits (u 26 1) 4 0, spitch := u 28 4, dpitch := u 32 4,
    wtag := .ofNat 32 (u 36 4), pat := .ofNat 64 (u 40 8), nq := u 48 2, ndev := .ofNat 16 (u 50 2),
    ndata := .ofNat 64 (u 52 8) }

/-- Tables 7.6 to 7.8: the queue-unit command of a descriptor, none for a reserved OP. -/
def readQue (b : Bytes) : Option QueCmd :=
  let u := leAt b
  let resv := bits (u 1 1) 0 0 == 1
  let res := bits (u 12 4) 20 0
  match u 0 1 with
  | 1 => some (.send { resv := resv, endm := bits (u 1 1) 1 1 == 1, size := u 2 1, src := bits (u 4 4) 20 0,
                       dest := .ofNat 32 (u 8 4), res := res })
  | 2 => some (.evpost { resv := resv, tgt := .ofNat 32 (u 4 4), mask := .ofNat 32 (u 8 4), res := res })
  | 3 => some (.mcset { resv := resv, chan := bits (u 2 2) 9 0, img := bits (u 4 4) 20 0, res := res })
  | 4 => some (.mcget { resv := resv, chan := bits (u 2 2) 9 0, img := bits (u 4 4) 20 0, res := res })
  | _ => none

/-- Table 7.12: the operation of an engine-7 OP code. -/
def lockOpOf (op : Nat) : Option LockOp :=
  match op with
  | 0x01 => some .acq
  | 0x02 => some .try_
  | 0x03 => some .rel
  | 0x10 => some .add
  | 0x11 => some .min
  | 0x12 => some .max
  | 0x13 => some .minu
  | 0x14 => some .maxu
  | 0x15 => some .swap
  | 0x16 => some .cas
  | _ => none

/-- Table 7.12. -/
def readLock (b : Bytes) : LockDesc :=
  let u := leAt b
  { w64 := bits (u 1 1) 0 0 == 1, eve := bits (u 1 1) 1 1 == 1, resv := bits (u 1 1) 2 2 == 1, evf := bits (u 2 1) 5 0,
    lock := u 4 2, ldev := .ofNat 16 (u 6 2), addr := .ofNat 64 (u 8 8), opnd := .ofNat 64 (u 16 8),
    cmpv := .ofNat 64 (u 24 8), wtag := .ofNat 32 (u 32 4), res := bits (u 36 4) 20 0 }

/-- R188 step 3: what the descriptor at engine `eng` asks for, none where its OP or CMD is reserved. -/
def readBody (eng : Nat) (b : Bytes) : Option EngBody :=
  match eng with
  | 0 => (readPress b).map .press
  | 1 => (vecOpOf (leAt b 0 1)).map (fun op => .vec op (readVec b))
  | 2 => (dmaOpOf (leAt b 0 1)).map (fun op => .dma 0 op (readDma b))
  | 3 => (dmaOpOf (leAt b 0 1)).map (fun op => .dma 1 op (readDma b))
  | 4 => (dmaOpOf (leAt b 0 1)).map (fun op => .dma 2 op (readDma b))
  | 5 => (dmaOpOf (leAt b 0 1)).map (fun op => .dma 3 op (readDma b))
  | 6 => (readQue b).map .que
  | 7 => (lockOpOf (leAt b 0 1)).map (fun op => .lock op (readLock b))
  | _ => none

/-- The engine of a command (R188). -/
def engOf : EngBody → Nat
  | .press _ => 0
  | .vec _ _ => 1
  | .dma e _ _ => 2 + e.val
  | .que _ => 6
  | .lock _ _ => 7

end Sys2Proof.Machine
end

