-- ==== Sys2Proof/Machine/State.lean ====
section
/-!
DEFINITION. The state of the device as plain data: what every chapter of the specification gives it, the queue
of commands that wait, and the state after reset. The named operations over it stand in Machine/Ops.lean.
-/

namespace Sys2Proof.Machine

/-- Why the machine stops. No command of this device stops it: the specification gives every command an effect or a
named refusal status that the requester receives. -/
inductive Fault where
  /-- Raised by no meaning: kept so that the type has an inhabitant for Host.Core. Safe. -/
  | none
  deriving DecidableEq, Repr

/-- Why the model refuses a command. -/
inductive Refusal where
  /-- The command has no meaning in this model; raised by `exec` alone. Safe: the machine stops. -/
  | notModelled (mnemonic : String)
  deriving DecidableEq, Repr

/-- Table 14.1 (R435). -/
inductive DevState where
  | off | standby | waking | ready | degraded | low | held | faulted
  deriving DecidableEq, Repr

/-- The health of a stored word: a correctable error; corrected, its write-back due (R151, R335); written poisoned;
uncorrectable because its storage failed (R152, R336). A word not listed is sound. DESIGN CHOICE, log entry 30. -/
inductive Mark where
  | correctable | corrected | poisoned | failed
  deriving DecidableEq, Repr
/-! ### What the device shows to the outside -/

/-- A Sasil reply or EVENT: the header of Table 16.5 but LEN, which is the body's length, and the body (R493). -/
structure SasilMsg where
  ver    : Nat
  type_  : Nat
  flags  : Nat
  seq    : Nat
  status : Nat
  sid    : Nat
  body   : Bytes
  deriving DecidableEq, Repr

/-- The SPDM responses of R489. `busy`, `invalid` and `unexpected` are ERROR with that code. -/
inductive SpdmRsp where
  | version | capabilities | algorithms | digests | certificate | keyExchange | finish | challengeAuth | measurements
  | heartbeatAck | keyUpdateAck | busy | invalid | unexpected
  deriving DecidableEq, Repr

/-- The headers of an Ethernet-mode frame (R298, Table 9.5): the port that it leaves by; IPv6 source, destination, DSCP, ECN
codepoint and hop limit; MAC and next-hop MAC address; UDP ports; and the transport header. -/
structure EthHdr where
  port   : Nat
  bundle : Nat
  peer   : Nat
  src    : Bytes
  dst    : Bytes
  mac    : Bytes
  hopMac : Bytes
  dscp   : Nat
  ecn    : Nat
  hop    : Nat
  sport  : Nat
  dport  : Nat
  type_  : Nat
  psn    : Nat
  apsn   : Nat
  pmask  : Nat
  mfrac  : Nat
  deriving DecidableEq, Repr

/-- What an I2C master does with a module (R285): it selects channel i of the switch at 0x70, selects the application 800GAUI-4 C2M,
moves the module to high power, and runs data-path initialisation. -/
inductive CmisAct where
  | channel | application | highPower | dataPath
  deriving DecidableEq, Repr

/-- What an observer outside the device sees: data returned to a requester, writes and interrupts to a host, answers to other
devices, packets, frames and management messages. `rdata` answers a read of another device, with the poisoned 8 B words of its
data by offset; `transit` shows a packet that crosses the mesh from input `inp` of link die `l` to the die of port `p` (R305); `toDev` is a request for another device as it leaves its core, with the bytes `n` of its access (R296).
`State.out` lists them, oldest first.
DESIGN CHOICE, log entry 45. -/
inductive Output where
  | csrData  (req : Requester) (addr : CsrAddr) (size : Nat) (val : W64)
  | csrError (req : Requester) (addr : CsrAddr) (status : Nat)
  | answer   (dev rtag status : Nat) (data : Bytes)
  | memData  (req : Requester) (addr : Nat) (status : Nat) (data : Bytes) (poison : List Nat)
  | rdata    (dev rtag status : Nat) (data : Bytes) (poison : List Nat)
  | hostWrite (h f addr : Nat) (data : Bytes)
  | hostData (h f off : Nat) (ok poison : Bool) (data : Bytes)
  | msix     (h f vec : Nat)
  | linkPkt  (p : Nat) (pkt : LinkPkt)
  | frame    (p : Nat) (f : Frame)
  | trainFrame (p : Nat) (f : Frame) (b : TrainBody)
  | beacon   (p : Nat) (f : Frame) (b : Beacon)
  | ethData  (h : EthHdr) (pkt : LinkPkt)
  | ethCtl   (h : EthHdr)
  | cmis     (l ch : Nat) (a : CmisAct)
  | transit  (l inp p : Nat) (pkt : LinkPkt)
  | net      (port : Nat) (kind : Nat) (body : Bytes)
  | mgmt     (tr : Transport) (m : SasilMsg)
  | spdm     (tr : Transport) (r : SpdmRsp) (body : Bytes)
  | lend     (dev kind value : Nat)
  | toDev    (pkt : LinkPkt) (n : Nat)
  | inbound  (l : Nat) (pkt : LinkPkt)
  | mesh     (router : Nat) (out : MeshPort) (vc1 : Bool) (pkt : Packet)
  | meshRefuse (router status : Nat) (pkt : Packet)
  deriving DecidableEq, Repr
/-! ### Cores -/

/-- Table 6.1. -/
inductive CtlState where
  | idle | running | halted | faulted | ending
  deriving DecidableEq, Repr

/-- A fault record (Table 6.9) with its V bit implied by its presence. -/
structure FaultRec where
  code   : Nat
  engine : Nat
  imp    : Bool
  more   : Bool
  tag    : Nat
  pc     : Nat
  insn   : W32
  detail : Nat
  echo   : W64
  addr   : W64
  core   : Nat
  part   : Nat
  state  : Nat
  ga     : W64
  gb     : W64
  deriving DecidableEq, Repr

/-- A global access in flight (R186): its destination register for a load, what it does, and the words its
fault record will carry; `tag` the window tag that it presents (CORE_GTAG); `lost` that the stack it was sent to has left service (R344). -/
structure GAccess where
  d     : Reg
  load  : Bool
  size  : Nat
  addr  : W64
  data  : Bytes
  insn  : W32
  ga    : W64
  gb    : W64
  tag   : W32
  lost  : Bool
  deriving DecidableEq, Repr

/-- A scoreboard entry (R147): the command it belongs to, its first and last byte, rounded to 64 B, and whether
it is a write range. -/
structure SbEntry where
  id    : Nat
  lo    : Nat
  hi    : Nat
  write : Bool
  deriving DecidableEq, Repr

/-- What holds the control unit (CORE_STATUS.BLK, Table 6.18), with what it needs to go on: a stalled X its command and the ranges that
it declares, a QSEND the capture and offset of an uncorrectable word of its message (Table 5.4). -/
inductive Blk where
  | none
  | sb
  | x      (cmd : XCmd) (rs : List SbEntry)
  | twait  (t : Nat)
  | waitAll
  | sync   (id : Nat)
  | qrecv  (d : Reg) (q dst : Nat)
  | evwait (d : Reg) (mask : W64)
  | qsend  (d : Reg) (mem : Option (Nat × Nat))
  | gacc   (g : GAccess)
  deriving DecidableEq, Repr

/-- A result of a PSTREAM that its completion writes: accumulator row, physical column, 32-bit result (R115). -/
structure AccOut where
  row : Nat
  col : Nat
  val : W32
  deriving DecidableEq, Repr

/-- A tally comparison whose decision is due 12 CCLK after the row's results (R127, R128). -/
inductive TallyOutcome where
  | match_ | mismatch | skip
  deriving DecidableEq, Repr

structure TallyRow where
  sub : Nat
  row : Nat
  tag : Nat
  outcome : TallyOutcome
  deriving DecidableEq, Repr

/-- A command issued to an engine and not yet complete (R188). `begun` marks work that a halt lets finish
(R131, R171, R198, R253). `writes` are the scratchpad writes its completion makes; `accs`, `tally` and `amax`
what a Press command computed when it began; `memDetail` the capture and offset of an uncorrectable word that the core
faults on after completion (Tables 5.4 and 6.8); `status` its status so far, of Table 5.6 or 7.1; `pc` the offset of its X instruction
(Table 18.2). -/
structure Flight where
  id     : Nat
  iss    : Issue
  body   : EngBody
  begun  : Bool
  writes : List (Nat × Bytes)
  accs   : List AccOut
  intPass : Bool
  tally  : List TallyRow
  amax   : List (Nat × W32)
  memDetail : Option (Nat × Nat)
  partialMem : Bool
  status : Nat
  result : W64
  pc     : Nat
  deriving DecidableEq, Repr

/-! ### The Press -/

/-- Table 4.17: the configuration in effect. -/
structure PressConf where
  fmt  : BitVec 4
  pack : BitVec 3
  sen  : Bool
  bsz  : Bool
  een  : Bool
  ramp : BitVec 2
  ten  : Bool
  deriving DecidableEq, Repr

/-- The stationary images of one sub-tile (R107) and its tally sums (R126). -/
structure SubTile where
  data : Bytes
  scl  : Bytes
  esc  : Bytes
  rowsum : List W32
  rowabs : List W32
  deriving DecidableEq, Repr

/-- One set of registers of the cells, with its tag (R112). -/
structure Tile where
  tag   : PressConf
  valid : BitVec 8
  subs  : Map SubTile
  deriving DecidableEq, Repr

/-- R121. -/
inductive PState where
  | idle | ramping | active | falling
  deriving DecidableEq, Repr

/-- The Press of one core (chapter 4). `rowsOn` counts the enabled rows, `want` a ramp request that waits for its
grant, `tallyQ` the comparisons whose decision is due. -/
structure Press where
  conf   : PressConf
  active : Tile
  shadow : Tile
  acc    : Map W32
  pstate : PState
  rowsOn : Nat
  want   : Bool
  ctrlIdle : Nat
  tol    : Nat
  tallyCnt : Nat
  tallySkip : Nat
  infoV  : Bool
  infoSub : Nat
  infoRow : Nat
  infoTag : Nat
  rampWait : Nat
  flags  : BitVec 4
  amax   : Map W32
  tallyQ : List TallyRow
  deriving DecidableEq, Repr

def PressConf.reset : PressConf := ⟨0, 0, false, false, false, 1, false⟩
def Tile.reset : Tile := ⟨PressConf.reset, 0, []⟩

/-- R132 and the Reset columns of Tables 4.15 to 4.21. -/
def Press.reset : Press :=
  { conf := PressConf.reset, active := Tile.reset, shadow := Tile.reset, acc := [], pstate := .idle, rowsOn := 0,
    want := false, ctrlIdle := 0x0100, tol := 0x0C, tallyCnt := 0, tallySkip := 0, infoV := false,
    infoSub := 0, infoRow := 0, infoTag := 0, rampWait := 0, flags := 0, amax := [], tallyQ := [] }

/-! ### The vector unit -/

/-- The vector unit of one core: `regs` holds lane l of register v at 64·v + l, `gens` the lane generators, where
a lane not listed holds the state that VEC_SEED = 0 gives it (R197, R209); `seedPend` a VEC_SEED write that
waits for the next command. -/
structure Vec where
  regs : Map W32
  gens : Map W32
  seedPend : Option W32
  ftz  : Bool
  satcnt : Nat
  flags : BitVec 4
  deriving DecidableEq, Repr

def Vec.reset : Vec := ⟨[], [], none, false, 0, 0⟩

/-! ### Scratchpad registers -/

/-- One window (R156, Tables 5.17 to 5.21). `base` is in 64 B units, `len` in 64 B units minus 1. -/
structure Window where
  base  : Nat
  len   : Nat
  en    : Bool
  scope : Nat
  w     : Bool
  r     : Bool
  devhi : Nat
  devlo : Nat
  tag   : W32
  deriving DecidableEq, Repr

def Window.reset : Window := ⟨0, 0, false, 0, false, false, 0, 0, 0⟩

/-- A capture that keeps its first event until its V bit is cleared: SPD_ECC_INFO (Table 5.12). -/
structure EccInfo where
  v    : Bool
  port : Nat
  bank : Nat
  row  : Nat
  word : Nat
  deriving DecidableEq, Repr

/-- SPD_WIN_LOG0 and SPD_WIN_LOG1 (Tables 5.14, 5.15). -/
structure WinLog where
  v     : Bool
  op    : Nat
  cause : Nat
  spart : Nat
  sdev  : Nat
  off   : Nat
  deriving DecidableEq, Repr

/-- The SPD_ registers of one core. `scrubAt` is the row patrol scrub reads next (R154). -/
structure Spd where
  near   : Bool
  lin    : Bool
  modeRej : Bool
  eccCe  : Nat
  eccUe  : Nat
  sbStall : Nat
  winRefuse : Nat
  info   : EccInfo
  scrubEn : Bool
  scrubInterval : Nat
  scrubAt : Nat
  log    : WinLog
  wins   : Map Window
  deriving DecidableEq, Repr

def Spd.reset : Spd :=
  { near := false, lin := false, modeRej := false, eccCe := 0, eccUe := 0, sbStall := 0, winRefuse := 0,
    info := ⟨false, 0, 0, 0, 0⟩, scrubEn := true, scrubInterval := 0x0100, scrubAt := 0,
    log := ⟨false, 0, 0, 0, 0, 0⟩, wins := [] }

/-! ### DMA engines -/

/-- A burst in flight (R163): its number, length and addresses; the data it carries once read, with the 8 B words
of it that are poisoned; and its status once the destination has answered. -/
structure Burst where
  k    : Nat
  len  : Nat
  src  : W64
  dst  : W64
  data : Option Bytes
  poison : List Nat
  status : Option Nat
  deriving DecidableEq, Repr

/-- One DMA engine: the progress of its current descriptor, and DMA_STATUS, DMA_RESIDUE and DMA_ERRCNT
(Tables 5.22 to 5.24). `row` and `off` say where the next burst begins, `nextK` its number; `done` counts the
bytes known written, `bad` the first status other than OK, `halting` an end ordered by a halt; `bound` the queue of
the current STREAM_IN and `buf` the bytes collected for its burst, `eos` that END closed the stream, `trunc` that
LEN was reached inside a message; `noting` that the descriptor has ended and its notification is out. -/
structure DmaEng where
  row   : Nat
  off   : Nat
  nextK : Nat
  done  : Nat
  bad   : Option Nat
  halting : Bool
  bursts : List Burst
  bound : Option Nat
  buf   : Bytes
  bufPoison : List Nat
  eos   : Bool
  trunc : Bool
  endStatus : Option Nat
  noting : Bool
  last  : Nat
  residue : Nat
  errcnt : Nat
  deriving DecidableEq, Repr

def DmaEng.reset : DmaEng :=
  { row := 0, off := 0, nextK := 0, done := 0, bad := none, halting := false, bursts := [], bound := none, buf := [],
    bufPoison := [], eos := false, trunc := false, endStatus := none, noting := false, last := 0, residue := 0,
    errcnt := 0 }

/-! ### Queues -/

/-- What a stored message carries beside its bytes (R217, Table 7.2). -/
structure MsgMeta where
  spart : Nat
  score : Nat
  sdev  : Nat
  sys   : Bool
  mc    : Bool
  chan  : Nat
  endm  : Bool
  deriving DecidableEq, Repr

/-- A stored message: its ring entry and its length in 16 B units. -/
structure QEntry where
  slot : Nat
  len  : Nat
  info : MsgMeta
  deriving DecidableEq, Repr

/-- Who waits for credit: a member of the message in flight of a path of this device, or a sender on another
device, known by its device and request tag. -/
inductive Sender where
  | path (p : SendPath) (k : Nat)
  | ext  (sdev rtag : Nat)
  deriving DecidableEq, Repr

/-- One queue of a core. `tail` is the entry after the last one filled or reserved, `waiters` the waiters not yet
granted, oldest first, `reserved` the entries reserved for granted waiters (R224). -/
structure Queue where
  base  : Nat
  en    : Bool
  evt   : Bool
  scope : Nat
  esize : Nat
  depth : Nat
  devhi : Nat
  devlo : Nat
  cfgrej : Bool
  tail  : Nat
  msgs  : List QEntry
  waiters : List Sender
  reserved : List (Nat × Sender)
  deriving DecidableEq, Repr

/-- The reset values of Tables 7.17 to 7.20 for queue `q` (R220). -/
def Queue.reset (q : Nat) : Queue :=
  { base := if q = 30 then 0x7FE0 else if q = 31 then 0x7FF0 else 0, en := decide (30 ≤ q), evt := false,
    scope := if 30 ≤ q then 1 else 0, esize := if q = 30 then 3 else if q = 31 then 7 else 0,
    depth := if q = 30 then 15 else if q = 31 then 7 else 0, devhi := 0, devlo := 0, cfgrej := false, tail := 0,
    msgs := [], waiters := [], reserved := [] }

/-- QUE_RLOG (Table 7.16). -/
structure RLog where
  v     : Bool
  cause : Nat
  q     : Nat
  spart : Nat
  evp   : Bool
  sdev  : Nat
  deriving DecidableEq, Repr

/-- The QUE_ and EVT_ registers of one core. A queue not listed has its reset value. -/
structure Que where
  qs     : Map Queue
  refuse : Nat
  rlog   : RLog
  flags  : W64
  evtScope : Nat
  evtHi  : Nat
  evtLo  : Nat
  deriving DecidableEq, Repr

def Que.reset : Que :=
  { qs := [], refuse := 0, rlog := ⟨false, 0, 0, 0, false, 0⟩, flags := 0, evtScope := 0, evtHi := 0, evtLo := 0 }
/-! ### Performance counters of a core (chapter 18) -/

/-- CNT_SELi (Table 18.9). -/
structure CntSel where
  en    : Bool
  edge  : Bool
  chain : Bool
  event : Nat
  deriving DecidableEq, Repr

def CntSel.reset : CntSel := ⟨false, false, false, 0⟩

/-- The sampler of a core (Table 18.11): `run` is its running count, `due` the records that the count has asked for
and that are not yet written, oldest first. -/
structure Sampler where
  en     : Bool
  dst    : Bool
  edge   : Bool
  err    : Bool
  event  : Nat
  log2sz : Nat
  period : Nat
  base   : Nat
  head   : Nat
  tail   : Nat
  lost   : Nat
  run    : Nat
  due    : List Bytes
  deriving DecidableEq, Repr

def Sampler.reset : Sampler :=
  { en := false, dst := false, edge := false, err := false, event := 0, log2sz := 4, period := 1, base := 0, head := 0,
    tail := 0, lost := 0, run := 0, due := [] }

/-- The CNT_ registers of a core. -/
structure CoreCnt where
  frz  : Bool
  fovf : Bool
  ovf  : Nat
  sels : Map CntSel
  vals : Map Nat
  smp  : Sampler
  prev : List Nat
  deriving DecidableEq, Repr

/-- Tables 18.8 to 18.11. Event 0x00 is in every clock (Table 18.1). -/
def CoreCnt.reset : CoreCnt := ⟨false, false, 0, [], [], Sampler.reset, [0x00]⟩

/-! ### A core -/

/-- What a core reports of its part of a launch to the launch engine (R363, R451). -/
inductive LaunchRep where
  | ended
  | faulted (code : Nat)
  | reset
  deriving DecidableEq, Repr

/-- A report on its way to the launch engine of the launch that bytes 72 to 74 of the launch message name: SRC and
SEQ (Table 11.4). -/
structure LaunchReport where
  core : Nat
  src  : Nat
  seq  : Nat
  rep  : LaunchRep
  deriving DecidableEq, Repr

/-- The control unit of a core. `resume` is the state a halted core returns to; `haltBit` the HALT bit as the core
has received it; `ibuf` the instruction buffer, line number to tag and bytes (R178); `cyc0` the CCLK count of the
field when the core was last reset (RDCYC); `tagCnt` and `tagErr` the tags (R190); `launchOn` the SRC and SEQ of the
launch in progress (Table 11.4). -/
structure Ctl where
  st     : CtlState
  resume : CtlState
  haltBit : Bool
  pc     : W64
  regs   : Map W64
  blk    : Blk
  ibuf   : Map (Nat × Bytes)
  launch : W32
  gtag   : W32
  gtmo   : Nat
  fdestV : Bool
  fdest  : Nat
  fnoteDrop : Nat
  frec   : Option FaultRec
  tagCnt : Map Nat
  tagErr : W32
  cyc0   : Nat
  launchOn : Option (Nat × Nat)
  deriving DecidableEq, Repr

/-- R174, R197 and Tables 6.17 to 6.25. -/
def Ctl.reset : Ctl :=
  { st := .idle, resume := .idle, haltBit := false, pc := 0, regs := [], blk := .none, ibuf := [], launch := 0,
    gtag := 0, gtmo := 0x4E20, fdestV := false, fdest := 0, fnoteDrop := 0, frec := none, tagCnt := [], tagErr := 0,
    cyc0 := 0, launchOn := none }

/-- A logical core: `crst` that it is under reset (R277); `sb` its scoreboard (R147) and `flights` the commands
issued and not complete, in issue order; `nextId` numbers them; `late` is a global access that the core had fully sent before a
reset and that has not arrived (R278). -/
structure Core where
  crst : Bool
  ctl  : Ctl
  sb   : List SbEntry
  flights : List Flight
  nextId  : Nat
  prs  : Press
  vec  : Vec
  spd  : Spd
  dma  : Map DmaEng
  que  : Que
  cnt  : CoreCnt
  late : Option GAccess
  repairs : List (Nat × Bool × Nat)
  spares  : List (Nat × Nat)
  deriving DecidableEq, Repr

def Core.reset : Core :=
  { crst := false, ctl := Ctl.reset, sb := [], flights := [], nextId := 0, prs := Press.reset, vec := Vec.reset,
    spd := Spd.reset, dma := [], que := Que.reset, cnt := CoreCnt.reset, late := none, repairs := [], spares := [] }

/-! ### Messages in flight -/

/-- Where one member copy of a message goes: a queue of this device, a queue of another device, or a channel of a
forward device (R240). -/
inductive MsgDest where
  | local_ (core q : Nat)
  | remote (dev gqid : Nat)
  | fwd    (dev chan : Nat)
  deriving DecidableEq, Repr

/-- How far a member copy has come (R224, R242): on its way; answered by the destination with a status that the
sender has not yet seen; refused for want of credit with or without a waiter record; granted; final. -/
inductive MsgSt where
  | sent
  | answered (status : Nat)
  | waiting
  | unrecorded
  | granted
  | final (status : Nat)
  deriving DecidableEq, Repr

structure Member where
  dest : MsgDest
  st   : MsgSt
  deriving DecidableEq, Repr

/-- The one message in flight of a sending path (R225). `poison` lists the uncorrectable words of its
source, by their offset in the message (R170, R237); `halting` that a halt withdraws it at its first NOCREDIT
(R196, R253); `orig` the source of a forwarded copy, and `crossed` the devices it has crossed (R241). -/
structure Send where
  bytes : Bytes
  endm  : Bool
  mc    : Bool
  chan  : Nat
  sys   : Bool
  poison : List Nat
  halting : Bool
  orig  : Option MsgMeta
  crossed : Nat
  members : List Member
  deriving DecidableEq, Repr

/-- The message in flight of a sending path (R225). -/
structure InFlight where
  path : SendPath
  send : Send
  deriving DecidableEq, Repr

/-! ### Locks and channels -/

/-- A requester of locks (R246). -/
structure LockWho where
  dev  : Nat
  core : Nat
  part : Nat
  deriving DecidableEq, Repr

/-- R245. -/
inductive LockState where
  | free
  | held (o : LockWho)
  | abandoned
  deriving DecidableEq, Repr

/-- One lock with the requesters that wait for it, oldest first. -/
structure Lock where
  st : LockState
  waiters : List LockWho
  deriving DecidableEq, Repr

def Lock.reset : Lock := ⟨.free, []⟩

/-- A reply of a lock unit or of an atomic's target to engine 7 of a core, on its way (R251). -/
structure LockReply where
  core   : Nat
  status : Nat
  val    : W64
  deriving DecidableEq, Repr

/-! ### Groups and partitions -/

/-- How far the re-map of a group has come (Table 14.6): the failed column, and whether the spare passed. -/
structure Remap where
  col : Nat
  spareOk : Bool
  deriving DecidableEq, Repr

/-- A core group: FLD_GMAProw (Table 2.10), FLD_GRST, its owner and its start arbiter. `off` says that its domain is
switched off or tripped (STATE 3), `lastK` and `lastAt` the last grant of its arbiter (R123), `joinReset` that it
joins a reset of its partition when its re-map ends (R453). -/
structure Group where
  skip  : Nat
  tdead : Nat
  rdead : Nat
  off   : Bool
  lost  : Bool
  rst   : Bool
  remap : Option Remap
  check : Bool
  part  : Option Nat
  lastK : Nat
  lastAt : Option Nat
  deriving DecidableEq, Repr

/-- Halt causes of a partition (R455) and its state (Table 11.x). `resetting` marks a partition reset in progress;
`pendGroups` and the like are held in the configuration objects and applied at the reset. -/
structure Part where
  hOperator : Bool
  hSystem : Bool
  hDevice : Bool
  halted  : Bool
  resetting : Bool
  spread  : Bool
  units   : Nat
  chansDue : List Nat
  locksDue : List Nat
  deriving DecidableEq, Repr

def Part.reset : Part := ⟨false, false, false, false, false, false, 0, [], []⟩

/-! ### Error events -/

/-- A record of the event log (Table 15.3): `cls` 0 to 3 an error class, 4 an event without one (R508). -/
structure LogRec where
  cls    : Nat
  coalesced : Bool
  alert  : Bool
  code   : Nat
  seq    : Nat
  echo   : W64
  ukind  : Nat
  part   : Option Nat
  unit   : Nat
  count  : Nat
  detail : List Nat
  torn   : Bool := false
  deriving DecidableEq, Repr

/-- A coalescing window of a corrected event (R470): its code and unit, and the events since the first. -/
structure Coal where
  code  : Nat
  cls   : Nat
  ukind : Nat
  unit  : Nat
  part  : Option Nat
  count : Nat
  echo  : W64
  detail : List Nat
  deriving DecidableEq, Repr
/-! ### Stacked memory (chapter 10) -/

/-- HBM_STATUS.STATE (Table 10.4). -/
inductive StackSt where
  | off | training | ready | retired
  deriving DecidableEq, Repr

/-- A request that waits at a stack for tokens (R345), and the offset of the BAR2 access that it serves, where it serves one. -/
structure HbmWait where
  req : HbmReq
  bar : Option Nat
  deriving DecidableEq, Repr

/-- One stack: the registers of Tables 10.3 to 10.6, its retired pages and candidates by page number P / 4,096, the
corrected words of the last 24 h with their times (R338), where patrol scrub reads next, its rate tokens, the requests that wait for
tokens, oldest first, and whether its temperature has halved its rate (Table 13.7). -/
structure Stack where
  st    : StackSt
  sref  : Bool
  hot   : Bool
  rate  : Nat
  temp  : Nat
  ce    : Nat
  ue    : Nat
  refuse : Nat
  infoV : Bool
  infoCh : Nat
  infoPc : Nat
  infoSrc : Nat
  infoWord : Nat
  scrubEn : Bool
  hours : Nat
  retired : List Nat
  cands : List Nat
  ceWords : List (Nat × Nat)
  scrubAt : Nat
  tokens : Nat
  waiting : List HbmWait
  throttled : Bool
  train : Nat
  deriving DecidableEq, Repr

/-- The Reset columns of Tables 10.4 to 10.6. The token bucket starts full (R345). -/
def Stack.reset : Stack :=
  { st := .off, sref := false, hot := false, rate := 0x800, temp := 0, ce := 0, ue := 0, refuse := 0, infoV := false,
    infoCh := 0, infoPc := 0, infoSrc := 0, infoWord := 0, scrubEn := true, hours := 0x18, retired := [], cands := [],
    ceWords := [], scrubAt := 0, tokens := 65536, waiting := [], throttled := false, train := 0 }

/-! ### The Survey (chapter 2) -/

/-- A Survey entry (Table 2.3). -/
structure SurveyEntry where
  type_  : Nat
  source : Nat
  revoke : Bool
  prov   : Bool
  seq    : Nat
  echo   : W64
  loc    : Bytes
  deriving DecidableEq, Repr

/-- What one 32 B place of a half holds once written: an entry, or one whose CRC fails (R48). -/
inductive SurveySlot where
  | entry (e : SurveyEntry)
  | torn
  deriving DecidableEq, Repr

/-- One half of the Survey log region (R42): its HEADER entry, none where the half is erased or its header is not yet
committed (R47), and the places written after it, in the order of writing. -/
structure SurveyHalf where
  header : Option SurveyEntry
  slots  : List SurveySlot
  deriving DecidableEq, Repr

/-- The Survey: its two halves (R42), the next SEQ, the entries applied in memory alone (R49), whether a write was not
recorded (FULL), whether a compaction is under way (R47), the entries read with a CRC that fails (R48), those that an ADMIN
has revoked for the next cold start (R46), whether the flash refuses to write (R49), and when the last entry was written, which a
loss of power at that moment may tear (R48). -/
structure Survey where
  half0   : SurveyHalf
  half1   : SurveyHalf
  nextSeq : Nat
  ram     : List SurveyEntry
  full    : Bool
  compacting : Bool
  crcBad  : Nat
  revoked : List Nat
  refuses : Bool
  wroteAt : Option Nat
  deriving DecidableEq, Repr

/-- The HEADER entry of a half (R42, Table 2.4): its generation and the format version 0x0100. -/
def headerEntry (gen seq : Nat) (echo : W64) : SurveyEntry :=
  { type_ := 0, source := 0, revoke := false, prov := false, seq := seq, echo := echo,
    loc := natBytes 4 gen ++ natBytes 2 0x0100 ++ natBytes 6 0 }

/-- The Survey as it leaves the factory without a defect: half 0 holds the HEADER of generation 1 with SEQ 1 (R44), half 1 is
erased. DESIGN CHOICE, log entry 9. -/
def Survey.reset : Survey :=
  { half0 := ⟨some (headerEntry 1 1 0), []⟩, half1 := ⟨none, []⟩, nextSeq := 2, ram := [], full := false, compacting := false,
    crcBad := 0, revoked := [], refuses := false, wroteAt := none }
/-! ### The mesh and the seams (chapters 2 and 8) -/

/-- MSH_DROP_LOG (Table 8.10). -/
structure DropLog where
  v     : Bool
  devc  : Bool
  dcore : Nat
  spart : Nat
  score : Nat
  deriving DecidableEq, Repr

/-- A packet in an input buffer of a router with the flits that have still to leave by its output, and, once it has won one, that
output (R262). -/
structure MeshFlight where
  pkt  : Packet
  left : Nat
  won  : Option (MeshPort × Bool)
  deriving DecidableEq, Repr

/-- The mesh registers of one field: MSH_GEN to MSH_WEIGHTp, the overlay entries by 16·r + e (words OVLA and OVLB),
where round robin stands at each router output and the deficits of its classes (R271), and FLD_SEAM_RETRY (Table 2.11). `atRow3` says that
the field router is the one at row 3 (R572). `bufs` holds the packets in the input buffers of each router, oldest first, and
`used` the credits of each router output, plane and virtual channel that the next router has not yet returned (R262). -/
structure MeshF where
  gen     : Nat
  dropRst : Nat
  dropLog : DropLog
  weights : Map Nat
  ovl     : Map (W32 × W32)
  rrClass : Map Nat
  rrPort  : Map Nat
  deficit : Map Nat
  atRow3  : Bool
  seamRetry : Nat
  bufs    : Map (List MeshFlight)
  used    : Map Nat
  deriving DecidableEq, Repr

def MeshF.reset : MeshF := ⟨0, 0, ⟨false, false, 0, 0, 0⟩, [], [], [], [], [], false, 0, [], []⟩

/-- The steering codes SA and SB of one wire group (R29); 0x3F is a spare not in use. -/
structure Steer where
  sa : Nat
  sb : Nat
  deriving DecidableEq, Repr

def Steer.reset : Steer := ⟨0x3F, 0x3F⟩

/-- One seam crossing (R27 to R32): the steering of its wire groups by key 34·plane + 17·direction + group, the
planes on which it is dead, the wire groups whose wires wait for it to be quiesced, with the failing wire, and whether
Carafe has marked its links dead to quiesce it (R30). -/
structure Crossing where
  steer : Map Steer
  deadA : Bool
  deadB : Bool
  due   : List (Nat × Nat)
  quiet : Bool
  deriving DecidableEq, Repr

def Crossing.reset : Crossing := ⟨[], false, false, [], false⟩
/-! ### Device links (chapter 9) -/

/-- Table 9.2. -/
inductive PortState where
  | disabled | training | gate | admitted | excluded | resetting | down
  deriving DecidableEq, Repr

/-- What one virtual channel of a port receives at the moment (R292, R314, R315): nothing; a packet with the data flits
still to come; or flits to be discarded until the next header. -/
inductive RxSt where
  | none
  | pkt (p : LinkPkt) (left : Nat)
  | skip (counted : Bool)
  deriving DecidableEq, Repr

/-- A packet that waits at a port's output: its class, the input of the crossbar by which it came (ports 0 to 4 of the die, edge ports
5 to 7), and whether an abort tail ends it (R302, R305, R314). -/
structure TxPkt where
  cls : Nat
  inp : Nat
  pkt : LinkPkt
  abort : Bool
  deriving DecidableEq, Repr

/-- One virtual channel of a port: packets that wait to be sent (R302), the flits of the packet being
sent, the credits held, the flits received and not yet returned, the credits to return, and the receiver. -/
structure LinkVc where
  txPkts : List TxPkt
  txCur  : List Flit
  txPkt  : Option LinkPkt
  txCred : Nat
  rxUsed : Nat
  credRet : Nat
  rx     : RxSt
  deriving DecidableEq, Repr

def LinkVc.reset : LinkVc := ⟨[], [], none, 0, 0, 0, .none⟩

/-- A DATA frame not yet acknowledged, with the packets whose flits it carries (R294). -/
structure SentFrame where
  frame : Frame
  pkts  : List LinkPkt
  deriving DecidableEq, Repr

/-- One port: LNK_Pi_CTRL to LNK_Pi_TAGF (Tables 9.13 to 9.15), `gated` that it has passed its gate and awaits TRAIN
(R287), the sequence numbers and unacknowledged frames of R294, the windows and resets of R289 and R290 with the
times of the resets, the violations and tag failures of the last 1 ms (R313, R317), the last beacon received, and the
pluggable module (R285), the sharing of its output (R302), the key slot that a KEY frame has asked for (R317), the cause and
SEQ of the last NAK received (R312), whether its module has been set up (R285), the frames sent under each key slot (R316), and the MAC
control frames discarded (Table 9.1). -/
structure Port where
  en     : Bool
  eth    : Bool
  bundle : Nat
  bv     : Bool
  steer  : Bool
  st     : PortState
  gated  : Bool
  ver    : Nat
  enc    : Bool
  keyid  : Bool
  lsteer : BitVec 4
  pport  : Nat
  pdev   : Nat
  ber    : W32
  replay : Nat
  pvcnt  : Nat
  stall  : Nat
  uncor  : Nat
  tagf   : Nat
  txSeq  : BitVec 16
  unacked : List SentFrame
  rxSeq  : BitVec 16
  nakOut : Bool
  vcs    : Map LinkVc
  badWin : Nat
  resets : List Nat
  pvAt   : List Nat
  tagAt  : List Nat
  beacon : Option Beacon
  module : Option CmisStatus
  rrClass : Nat
  rrPort : Map Nat
  deficit : Map Nat
  keyWant : Option Bool
  lastNak : Option (Nat × Nat)
  modInit : Bool
  sealed_ : Map Nat
  macCtl : Nat
  deriving DecidableEq, Repr

/-- The Reset columns of Tables 9.13 to 9.15; what they do not list is empty or 0. DESIGN CHOICE, log entry 9. -/
def Port.reset : Port :=
  { en := true, eth := false, bundle := 0, bv := false, steer := true, st := .disabled, gated := false, ver := 0,
    enc := false, keyid := false, lsteer := 0, pport := 0, pdev := 0, ber := 0, replay := 0, pvcnt := 0, stall := 0,
    uncor := 0, tagf := 0, txSeq := 0, unacked := [], rxSeq := 0, nakOut := false, vcs := [], badWin := 0, resets := [],
    pvAt := [], tagAt := [], beacon := none, module := none, rrClass := 0, rrPort := [], deficit := [],
    keyWant := none, lastNak := none, modInit := false, sealed_ := [], macCtl := 0 }

/-- LNK_PVLOG (Table 9.11). -/
structure PvLog where
  v : Bool
  port : Nat
  cause : Nat
  pdev : Nat
  deriving DecidableEq, Repr

/-- One link die: its domain's power is in the domain's state; here LNK_PVLOG and the port that uses each spare lane in each direction
(R284), by 2·direction + (lane − 20), direction 0 the receiving one. -/
structure LinkDie where
  pvlog : PvLog
  spares : Map Nat
  deriving DecidableEq, Repr

def LinkDie.reset : LinkDie := ⟨⟨false, 0, 0, 0⟩, []⟩

/-- One Ethernet connection (R299, R300): PSNs, unacknowledged packets with their PSN, acknowledged requests without an answer, resends
without progress, the
receiver's next PSN and packets not yet acknowledged, the marked and received bytes of the interval, and the pacing
rate in Gb/s with its step. DEDUCED, log entry 56. -/
structure Conn where
  txPsn  : Nat
  unacked : List (Nat × LinkPkt)
  open_ : List LinkPkt
  resends : Nat
  dead   : Bool
  rxPsn  : Nat
  nakOut : Bool
  toAck  : Nat
  ceBytes : Nat
  rxBytes : Nat
  rate   : Rat
  step   : Nat
  raises : Nat
  cutAt  : Option Nat
  cnpSeen : Bool
  ignored : Nat
  deriving DecidableEq, Repr

def Conn.reset : Conn :=
  { txPsn := 0, unacked := [], open_ := [], resends := 0, dead := false, rxPsn := 0, nakOut := false, toAck := 0, ceBytes := 0,
    rxBytes := 0, rate := 800, step := 2, raises := 0, cutAt := none, cnpSeen := false, ignored := 0 }

/-- A key slot of a bundle (R317): its 32 B key and 4 B salt. -/
structure KeySlot where
  key  : Bytes
  salt : Bytes
  deriving DecidableEq, Repr

/-- The links of the device: the route tables and epoch (R306 to R308), which every copy holds, but for the entries `rtx` that have been
written in one copy alone, by 32,768·copy + 16,384·table + device (copy: link die 0 to 7, field 8 to 19), and the epochs `epx` written in
one link die alone, the round robin of
each bundle's unordered packets (R303), key slots by 2·bundle + slot, and Ethernet connections by
16,384·bundle + peer. `prev` is PREV of LNK_EPOCH, and `advancing` that an epoch advance has copied its table and is to
switch (R308). -/
structure Links where
  epoch : BitVec 8
  prev  : Bool
  rt0   : Map W32
  rt1   : Map W32
  rtx   : Map W32
  epx   : Map (BitVec 8)
  ports : Map Port
  dies  : Map LinkDie
  spray : Map Nat
  keys  : Map KeySlot
  keyUse : Map Bool
  conns : Map Conn
  cntHop : Nat
  advancing : Bool
  deriving DecidableEq, Repr

def Links.reset : Links :=
  { epoch := 0, prev := false, rt0 := [], rt1 := [], rtx := [], epx := [], ports := [], dies := [], spray := [], keys := [], keyUse := [],
    conns := [], cntHop := 0, advancing := false }
/-! ### Host ports and launch (chapter 11) -/

/-- One ring pair of a function (Tables 11.12, 11.13). `out` counts its fetched records uncompleted, `used` the
completion slots written and not yet consumed (R359), `unsig` the completions posted since its last vector. -/
structure Ring where
  en     : Bool
  err    : Bool
  cause  : Nat
  log2sz : Nat
  sqbase : Nat
  cqlo   : Nat
  cqhi   : Nat
  sqtail : Nat
  sqhead : Nat
  cqhead : Nat
  cqtail : Nat
  phase  : Bool
  coalTime : Nat
  coalCount : Nat
  out    : Nat
  used   : Nat
  unsig  : Nat
  deriving DecidableEq, Repr

def Ring.reset : Ring :=
  { en := false, err := false, cause := 0, log2sz := 4, sqbase := 0, cqlo := 0, cqhi := 0, sqtail := 0, sqhead := 0,
    cqhead := 0, cqtail := 0, phase := true, coalTime := 0, coalCount := 1, out := 0, used := 0,
    unsig := 0 }

/-- A record fetched and not yet finished (R359 to R364). `next` is the next target to send to, `sending` that its message is in flight; `ended` and `gone` the
targets that have executed END and those that have faulted or been reset; `posted` that its completion has been
posted; `order` numbers the records of the device in fetch order. -/
structure Launch where
  h : Nat
  f : Nat
  r : Nat
  seq : Nat
  order : Nat
  fence : Bool
  wait : Bool
  lid : Nat
  part : Nat
  cfirst : Nat
  ccount : Nat
  msg : Bytes
  next : Nat
  sending : Bool
  ended : List Nat
  gone : List Nat
  fcore : Nat
  fcode : Nat
  posted : Bool
  deriving DecidableEq, Repr

/-- The mailbox of a function (R516): its registers and buffers, the session it carries, and the event ring. -/
structure Mailbox where
  reqLen : Nat
  busy : Bool
  done : Bool
  ign  : Nat
  rspLen : Nat
  req  : Bytes
  rsp  : Bytes
  evHead : Nat
  evTail : Nat
  evMiss : Nat
  evRing : Map Bytes
  deriving DecidableEq, Repr

def Mailbox.reset : Mailbox :=
  { reqLen := 0, busy := false, done := false, ign := 0, rspLen := 0, req := [], rsp := [], evHead := 0, evTail := 0,
    evMiss := 0, evRing := [] }

/-- One function of an endpoint: HIF_APBASE, HIF_DROP, its rings, its MSI-X table words and the bits of its pending-bit array (R365),
and of its configuration space (R349, R350) bus mastering, D3hot, the size of BAR2 as a power of two, and the AER status. -/
structure HostFn where
  gib   : Nat
  drop  : Nat
  rings : Map Ring
  msix  : Map W32
  pba   : Nat
  mbx   : Mailbox
  master : Bool
  d3    : Bool
  bar2  : Nat
  aer   : Nat
  deriving DecidableEq, Repr

/-- The Reset columns of Tables 11.11 to 11.13 and the default size of Table 11.2. PRESUMED, log entry 37. -/
def HostFn.reset : HostFn :=
  { gib := 0, drop := 0, rings := [], msix := [], pba := 0, mbx := Mailbox.reset, master := false, d3 := false, bar2 := 36, aer := 0 }

/-- One host die: its link (Table 11.14), PERSTh_N, its functions, and where its launch engine's round robin stands
(R359), as 4·function + ring of the ring served last. DESIGN CHOICE, log entry 37. -/
structure HostDie where
  up    : Bool
  flit  : Bool
  speed : Nat
  width : Nat
  perst : Bool
  fns   : Map HostFn
  rr    : Nat
  deriving DecidableEq, Repr

def HostDie.reset : HostDie := ⟨false, false, 0, 0, false, [], 67⟩
/-! ### Counters of shared blocks (chapter 18) -/

/-- SELj of a shared block (Table 18.6); `pl` the planes counted, for routers. -/
structure ShSel where
  en    : Bool
  edge  : Bool
  pl    : Nat
  event : Nat
  deriving DecidableEq, Repr

def ShSel.reset : ShSel := ⟨false, false, 3, 0⟩

/-- The counters of one router, port or stack (R547 to R549): totals by counter j, shadows by 17·j + class; `prev` the lasting events
that the last clock had, with their planes (R536). -/
structure Shared where
  sels : Map ShSel
  totals : Map Nat
  shadows : Map Nat
  shsel : Nat
  ovf : Nat
  frz : Bool
  prev : List (Nat × Nat)
  deriving DecidableEq, Repr

/-- Table 18.6. A router's NCLK is counted in every clock. -/
def Shared.reset : Shared := ⟨[], [], [], 31, 0, false, [(0, 3)]⟩
/-! ### Clocks and Echo (chapter 12) -/

/-- A scheduled change (R377): T, the target STEP of each covered field, and whether its lock check has passed
(R378). -/
structure ClkChange where
  t : Nat
  targets : Map Nat
  checked : Bool
  deriving DecidableEq, Repr

/-- The CLK_ registers (Tables 12.4, 12.5), the change that is armed and those that are held (R380), the earliest T of
the next (R378), and the counts of Table 12.9. -/
structure Clk where
  regT : Nat
  regMask : Nat
  regTgt : Map Nat
  armed : Option ClkChange
  held : List ClkChange
  cancel : Bool
  notrdy : Nat
  miss : Nat
  notBefore : Nat
  changes : Nat
  cancels : Nat
  misses : Nat
  deriving DecidableEq, Repr

def Clk.reset : Clk :=
  { regT := 0, regMask := 0, regTgt := [], armed := none, held := [], cancel := false, notrdy := 0, miss := 0,
    notBefore := 0, changes := 0, cancels := 0, misses := 0 }

/-- The ECH_ registers of Table 12.8 but for the counter itself. `st` is STATE, `slew` the rest of the offset that slewing
removes (R386), `pend` the offset to the source last measured, `refPresent` that ECHO_REF is there, `ppsTime` the
value of echo.pps_time for the next edge, `ppsBad` and `ppsIgnored` the edges ignored in a row and in all (R388),
`lastPps` M's counter at the last edge taken. -/
structure EchoM where
  upPort : Option Nat
  src : Nat
  st : Nat
  back : Bool
  dist : Nat
  ofs : Int
  steps : Nat
  slew : Int
  pend : Int
  refPresent : Bool
  ppsTime : Option Nat
  ppsBad : Nat
  ppsIgnored : Nat
  lastPps : Option Nat
  deriving DecidableEq, Repr

def EchoM.reset : EchoM :=
  { upPort := none, src := 0, st := 0, back := false, dist := 0xFF, ofs := 0, steps := 0, slew := 0, pend := 0,
    refPresent := false, ppsTime := none, ppsBad := 0, ppsIgnored := 0, lastPps := none }

/-- The registers of one field. Echo: its counter, the difference that beacons have found and its increment removes
(R382), the beacons taken since its network powered up, EHOLD and DLY. CCLK: the count with its fraction in 1/80,
STEP, PLL, the locks, MISS and the STEP that the idle PLL is programmed to. Power: VCORE in units of 10 µV,
FLD_PWR.LIVE and TCAP, the governor's target and the lower target of each partition sub-limit, the groups waiting to
power up (R403). `badEntries` names the table copies' entries with a parity error (R469), by their kind and key. -/
structure Field where
  echo : W64
  adj : Int
  beacons : Nat
  ehold : Bool
  dly : Nat
  cclk : Nat
  frac : Nat
  step : Nat
  pll1 : Bool
  lk0 : Bool
  lk1 : Bool
  miss : Bool
  idleStep : Option Nat
  vcore : Nat
  live : Nat
  tcap : Nat
  target : Nat
  partTgt : Map Nat
  powerUp : List Nat
  paceRow : Nat
  paceAt : Option Nat
  paceInterval : Nat
  msh : MeshF
  deriving DecidableEq, Repr

/-- Tables 12.6, 12.7, 13.16, the STEP of R375. -/
def Field.reset : Field :=
  { echo := 0, adj := 0, beacons := 0, ehold := false, dly := 0, cclk := 0, frac := 0, step := 0, pll1 := false, lk0 := false,
    lk1 := false, miss := false, idleStep := none, vcore := 0, live := 0xFFF, tcap := 80, target := Config.nominalStep,
    partTgt := [], powerUp := [], paceRow := 7, paceAt := none, paceInterval := 16, msh := MeshF.reset }
/-! ### The power deck (chapter 13) -/

/-- PWR_DOMSTATE (Table 13.14). -/
inductive DomSt where
  | off | on | retention | tripped
  deriving DecidableEq, Repr

/-- One aux channel (Table 13.15). `cause` is that of its last trip. -/
structure Aux where
  en : Bool
  trip : Bool
  latch : Bool
  st : Nat
  retry : Nat
  vset : Nat
  tach : Nat
  cause : Nat
  ofVstby : Bool
  deriving DecidableEq, Repr

/-- Table 13.15; FAN channels are enabled, LAMP channels not (aux.enable, Table 13.17). -/
def Aux.reset (c : Nat) : Aux :=
  { en := decide (c < 4), trip := false, latch := false, st := 0, retry := 0, vset := 0x78, tach := 0, cause := 0,
    ofVstby := false }

/-- A joint suspect (R405, R406). -/
structure Suspect where
  unit : JointUnit
  confirmed : Bool
  echo : W64
  deriving DecidableEq, Repr

/-- The PWR_ registers and what the governor and Lantern keep. `volt` is VIN in mV; `blades` the blade currents in 10 mA
of the last 10 ms, newest first, and `bladeOver` that the module counts as over its limit for them (R393);
`power` the compute power of the last 10 ms, newest first, and `partPower` that of each partition (R414); `lent` the
limit that lending sets (R424); `warnAge` the temperature samples since a sensor last reached the warning threshold
(R418); `temps` the last readings; `joints` the averages in a row that deviate, by unit (R405); `offDue` the domains
whose switching-off waits for a reset (R406); `raises` and `lowered` the increases that a lending manager still has to
send and the members that it lowered and that have not confirmed, with their old limits (R424); `trans` the states that CG domains are moving to
(R402); `capHit` the fields that have a sensor at the throttle threshold (Table 13.7). -/
structure Pwr where
  vin : Bool
  volt : Nat
  vstby : Bool
  doms : Map DomSt
  blades : List (Nat × Nat)
  bladeOver : Bool
  power : List Nat
  auxPower : Nat
  partPower : Map (List Nat)
  brake : Bool
  decafBrake : Bool
  limit : Nat
  lent : Option Nat
  throttle : Nat
  throttleTotal : Nat
  applied : Bool
  unmet : Bool
  temps : List Nat
  otherTemps : List Nat
  warnAge : Nat
  joints : Map Nat
  suspects : List Suspect
  offDue : List Nat
  aux : Map Aux
  waitFrac : Nat
  raises : List (Nat × Nat)
  lowered : List (Nat × Nat)
  trans : Map DomSt
  capHit : List Nat
  deriving DecidableEq, Repr

/-- In STANDBY from VSTBY: domain MG (134) is ON, every other OFF (Table 14.1); the limit is the ceiling. -/
def Pwr.reset : Pwr :=
  { vin := false, volt := 0, vstby := true, doms := [(134, .on)], blades := [], bladeOver := false, power := [],
    auxPower := 0, partPower := [], brake := false, decafBrake := false, limit := Config.inputCeiling, lent := none,
    throttle := 0, throttleTotal := 0, applied := false, unmet := false, temps := [], otherTemps := [], warnAge := 100,
    joints := [], suspects := [], offDue := [], aux := [], waitFrac := 0, raises := [], lowered := [], trans := [], capHit := [] }

/-! ### Starts, resets and checks (chapters 14 and 15) -/

/-- A start in progress: warm or cold, when it began, and the next SEQ of the Survey when it began: entries below it are those that
its tests may confirm or clear (R45). -/
structure StartRun where
  warm : Bool
  t0 : W64
  seq0 : Nat
  deriving DecidableEq, Repr

/-- state.last_start (Table 14.11). -/
structure LastStart where
  warm : Bool
  failed : Bool
  stage : Nat
  ms : Nat
  t0 : W64
  deriving DecidableEq, Repr

/-- A field check (R478 to R482): fields.check_state, the groups and units still to be checked, and the results so far,
13 for each group and 1 for each unit. -/
structure FieldCheck where
  st : Nat
  groups : List Nat
  units : List Nat
  gres : Map (List Nat)
  ures : Map Nat
  deriving DecidableEq, Repr

def FieldCheck.reset : FieldCheck := ⟨0, [], [], [], []⟩

/-- Who waits for the completion of an ACTION (R505): its session and SEQ. -/
structure AsyncAct where
  sid : Nat
  seq : Nat
  kind : Nat
  deriving DecidableEq, Repr

/-- Starts, resets and restarts: the start in progress; a compute reset in progress (`compute`) and whether its mesh has
drained; state.failed_starts and state.last_start; that a thermal trip bars autostart (R436); that VIN has stayed in
range since the last successful start (R446); a management restart in progress, what Lantern keeps meanwhile (R452):
its events, those lost, Survey entries and failed cores that wait; HALT_N; state.low; the field check; `recoverDue`
that auto-recovery is due (R438); `lostStart` when a VIN fault ended a cold start (R443); `asyncs` the ACTIONs whose
completion a session awaits. -/
structure Wake where
  start : Option StartRun
  compute : Bool
  drained : Bool
  failedStarts : Nat
  last : Option LastStart
  thermal : Bool
  vinStayed : Bool
  mgmt : Bool
  kept : List LogRec
  lost : Nat
  waitSurvey : List SurveyEntry
  waitFail : List Nat
  haltN : Bool
  low : Bool
  check : FieldCheck
  recoverDue : Bool
  lostStart : Option Nat
  asyncs : List AsyncAct
  deriving DecidableEq, Repr

def Wake.reset : Wake :=
  { start := none, compute := false, drained := false, failedStarts := 0, last := none, thermal := false,
    vinStayed := false, mgmt := false, kept := [], lost := 0, waitSurvey := [], waitFail := [], haltN := false,
    low := false, check := FieldCheck.reset, recoverDue := false, lostStart := none, asyncs := [] }
/-! ### Sasil (chapter 16) -/

/-- A subscription (R506, R507): what it admits, the records queued and the number missed. -/
structure Sub where
  req : SubReq
  queue : List LogRec
  missed : Nat
  deriving DecidableEq, Repr

/-- A staging copy of SETBLOCK (R502). -/
structure Staging where
  obj : ObjAddr
  data : Bytes
  deriving DecidableEq, Repr

/-- A Sasil session (R489 to R498): its transport, class (0 BMC, 1 OPERATOR, 2 ADMIN, 3 GUEST), partition, the enrolment
slot that authenticated it, the version chosen, the next SEQ to execute, the last 32 replies, requests held, its
subscription, staging copy, the value that a GETBLOCK reading began with, the EVENTs sent and how often
KEY_UPDATE has renewed its keys. -/
structure Session where
  tr : Transport
  secure : Bool
  cls : Nat
  part : Nat
  slot : Option Nat
  opened : W64
  ver : Option Nat
  next : Nat
  replies : List SasilMsg
  held : List (SasilHdr × SasilBody)
  sub : Option Sub
  staging : Option Staging
  reading : Option (ObjAddr × Bytes)
  events : Nat
  keyGen : Nat
  deriving DecidableEq, Repr

/-- R473, R506: whether a session's subscription admits a record. -/
def Session.wants (e : Session) (r : LogRec) : Bool :=
  match e.sub with
  | none => false
  | some u =>
    let q := u.req
    q.cmask.testBit r.cls && (r.cls != 4 || q.catmask.testBit (r.code / 4096)) &&
      (q.codes.isEmpty || q.codes.contains r.code) &&
      (if e.cls = 3 then r.part == some e.part else q.part == 0xFF || r.part == some q.part) &&
      decide (q.frm ≤ r.seq)

/-- How far an SPDM handshake has come on a path (R489), as the number of messages done: 1 GET_VERSION to 6 KEY_EXCHANGE;
`auth` the certificate that the requester presented in it. -/
structure Handshake where
  tr : Transport
  done : Nat
  deriving DecidableEq, Repr

/-- An enrolment slot (R490). -/
structure EnrolSlot where
  cls : Nat
  part : Nat
  root : Bytes
  deriving DecidableEq, Repr

/-- What M keeps for management: SPDM handshakes, enrolment, the counts of Table 16.10, MCTP and I3C addresses, whether a
factory reset is due, the MALFORMED replies sent in the second that began at `malAt` (R511), and the management-port settings in effect (R515), by port. -/
structure Mgmt where
  hands : List Handshake
  slots : Map EnrolSlot
  claimed : Bool
  nextSid : Nat
  malformed : Nat
  tagFailures : Nat
  filtered : Nat
  eid : Nat
  i3c : Option Nat
  factoryDue : Bool
  alertAcked : Nat
  torn : Nat
  malAt : Nat
  malCount : Nat
  netDue : List Nat
  netEff : Map ObjVal
  committed : Map ObjVal
  training : Map Nat
  deriving DecidableEq, Repr

def Mgmt.reset : Mgmt :=
  { hands := [], slots := [], claimed := false, nextSid := 1, malformed := 0, tagFailures := 0, filtered := 0, eid := 0,
    i3c := none, factoryDue := false, alertAcked := 0, torn := 0, malAt := 0, malCount := 0, netDue := [], netEff := [], committed := [], training := [] }

/-! ### Firmware (chapter 17) -/

/-- What a copy of the update state record holds beside its sequence number and CRC (R523): the active bank, the pending bank, the
trial count, the phase and each bank's state. -/
structure UpdRecord where
  active : Nat
  pending : Option Nat
  trials : Nat
  phase : Nat
  banks : Map Nat
  deriving DecidableEq, Repr

/-- The update state record, banks, counters and objects of chapter 17. Bank states are those of R523; `phase` 0 IDLE, 1 TRIAL,
2 CONFIRMING; `upd` is firmware.update_state; `images` the bytes downloaded to each bank; `act` the bank that a
verification under way will activate, with its flags; `degr` state.degraded_by at activation (R527);
`trialKind` the kind of restart of the trial (0 management restart, 1 warm start, 2 cold start);
`adminOk` that firmware.confirm was performed, and `healthy` that Carafe has reported health (R527); `tries` how often the Carafe of the bank in turn has failed to take control
(R531); `recSeq` the sequence number of the copy of the record in force, `older` what the other copy holds, and `recAt` when the newer was
written (R523); `verL` the VERSION of the running Lantern runtime where a download has since replaced the bank it came from. -/
structure Fw where
  active : Nat
  pending : Option Nat
  trials : Nat
  phase : Nat
  banks : Map Nat
  images : Map Bytes
  svn : Map Nat
  revoked0 : Bool
  upd : Nat
  act : Option (Nat × Nat)
  last : Option (Nat × Nat × Nat × W64)
  recovery : Bool
  gate : Nat
  runL : Nat
  runC : Nat
  degr : Nat
  trialKind : Nat
  adminOk : Bool
  healthy : Bool
  tries : Nat
  verL : Option Nat
  recSeq : Nat
  older : UpdRecord
  recAt : Option Nat
  deriving DecidableEq, Repr

/-- Table 17.7: bank A is CONFIRMED and active, bank B VERIFIED. -/
def Fw.reset : Fw :=
  { active := 0, pending := none, trials := 0, phase := 0, banks := [(0, 4), (1, 2)], images := [], svn := [],
    revoked0 := false, upd := 0, act := none, last := none, recovery := false, gate := 0, runL := 0, runC := 0,
    degr := 0, trialKind := 0, adminOk := false, healthy := false, tries := 0, verL := none,
    recSeq := 1, older := ⟨0, none, 0, 0, [(0, 4), (1, 2)]⟩, recAt := none }

/-! ### The whole state -/

/-- Group `g` at reset: no defect recorded, so SKIP is 12 (R36); its domain is off; partition 0 owns it (R366); no ramp
granted yet, so the round robin begins with core 0 (R123), and no reset of cores or groups begins it anew.
DESIGN CHOICE, log entry 86. -/
def Group.reset : Group :=
  { skip := 12, tdead := 0, rdead := 0, off := false, lost := false, rst := false, remap := none, check := false,
    part := some 0, lastK := 11, lastAt := none }

/-- The state of the device and the queue of the commands that wait. A unit, register or object that is not listed in a
map holds its reset value. -/
structure State where
  /-- The commands that wait, first in, first out. -/
  pending : List Instr
  /-- Time since reset in nanoseconds: what idle steps count. -/
  now : Nat
  /-- The model's own: how many free values have been drawn (log entry 4). -/
  fresh : Nat
  /-- The model's own: what the device has shown to the outside, oldest first. -/
  out : List Output
  /-- Scratchpads by spKey, and stacked memory by hbmKey (R138, R325). -/
  mem : List Host.Cell
  /-- The health of memory words that are not sound. -/
  marks : Map Mark
  /-- The times of the corrected errors of each scratchpad row (R155). -/
  rowErrs : Map (List Nat)
  cores : Map Core
  fields : Map Field
  groups : Map Group
  parts : Map Part
  /-- Messages in flight (R225). -/
  sends : List InFlight
  /-- Channel images (R239), and the partition of each block of 16 channels in effect. -/
  mchans : Map Bytes
  chanOwner : Map (Option Nat)
  /-- The partition of each block of 16 locks in effect (R245), the locks, and replies on their way (R251). -/
  lockOwner : Map (Option Nat)
  locks : Map Lock
  lockReplies : List LockReply
  /-- What cores have reported of their launches (R363). -/
  reports : List LaunchReport
  /-- The device ID loaded from link.device_id (R306). -/
  devId : Nat
  /-- state.device and state.stage (R435). -/
  dev : DevState
  stage : Nat
  /-- M's master Echo counter (R381). -/
  echoM : W64
  sessions : Map Session
  /-- errors.last_seq, the records in M's buffer and those in flash (R476), and the totals of errors.totals. -/
  lastSeq : Nat
  logBuf : List LogRec
  logFlash : List LogRec
  totals : Map Nat
  totalsCold : Map Nat
  coals : List Coal
  survey : Survey
  hbms : Map Stack
  /-- The partition of each HBM unit in effect (R329). -/
  hbmOwner : Map (Option Nat)
  cntUnmapped : Nat
  partUnmapped : Map Nat
  cntDenied : Nat
  cntSize : Nat
  cntMcDepth : Nat
  links : Links
  hosts : Map HostDie
  launches : List Launch
  nextOrder : Nat
  /-- The values set in configuration objects, by objKey (R500). -/
  cfg : Map ObjVal
  seams : Map Crossing
  /-- The table copies' entries with a parity error, until Carafe rewrites them (R469). -/
  badEntries : List ParityAt
  /-- Counters of routers (0 to 1247), ports (2000 + i) and stacks (3000 + s) (R547). -/
  shared : Map Shared
  clk : Clk
  ech : EchoM
  pwr : Pwr
  wake : Wake
  mgmt : Mgmt
  fw : Fw
  deriving DecidableEq, Repr

/-- The machine right after reset: in STANDBY with VSTBY present and VIN absent (Table 14.1), as a module whose standby
supply has just arrived, with nothing written and no command waiting. -/
def State.reset : State :=
  { pending := [], now := 0, fresh := 0, out := [], mem := [], marks := [], rowErrs := [], cores := [], fields := [],
    groups := [], parts := [], sends := [], mchans := [], chanOwner := [], lockOwner := [], locks := [],
    lockReplies := [], reports := [], devId := 0, dev := .standby, stage := 0, echoM := 0, sessions := [], lastSeq := 0,
    logBuf := [], logFlash := [], totals := [], totalsCold := [], coals := [], survey := Survey.reset, hbms := [],
    hbmOwner := [], cntUnmapped := 0, partUnmapped := [], cntDenied := 0, cntSize := 0, cntMcDepth := 0,
    links := Links.reset, hosts := [], launches := [], nextOrder := 0, cfg := [], seams := [], badEntries := [], shared := [],
    clk := Clk.reset, ech := EchoM.reset, pwr := Pwr.reset, wake := Wake.reset, mgmt := Mgmt.reset, fw := Fw.reset }

end Sys2Proof.Machine
end

