-- ==== Sys2Proof/Machine/Ops.lean ====
section
/-!
DEFINITION. The named operations over the state: sparse data, geometry, memory, error events, counters, words with check
bits, the scoreboard, tags, queues, locks, the end of engine work, faults, requests, issue, the Survey and stacked
memory.
-/

namespace Sys2Proof.Machine

/-! ### Sparse data -/

/-- The value of key `k`, the default where it is not listed. -/
def mget {α : Type} (d : α) : Map α → Nat → α
  | [], _ => d
  | (k', v) :: m, k => if k = k' then v else mget d m k

/-- The data with key `k` set to `v`, keys rising. -/
def mset {α : Type} : Map α → Nat → α → Map α
  | [], k, v => [(k, v)]
  | (k', v') :: m, k, v =>
    if k < k' then (k, v) :: (k', v') :: m
    else if k = k' then (k, v) :: m
    else (k', v') :: mset m k v

/-- The data without key `k`. -/
def mdel {α : Type} (m : Map α) (k : Nat) : Map α := m.filter (fun p => p.1 != k)

/-- The value of key `k`, where it is listed. -/
def mfind {α : Type} : Map α → Nat → Option α
  | [], _ => none
  | (k', v) :: m, k => if k = k' then some v else mfind m k

/-- Counters of 32 bits hold at 0xFFFF_FFFF. -/
def satInc (x n : Nat) : Nat := min (x + n) 0xFFFFFFFF

/-! ### Parts of the state -/

/-- The number of an object in the store of configuration objects (R494): area, index, element. -/
def objKey (area idx elem : Nat) : Nat := area * 2 ^ 24 + idx * 2 ^ 8 + elem

/-- The value of an object that holds a number, `d` where nothing has been set. -/
def cfgNum (s : State) (area idx elem d : Nat) : Nat :=
  match mfind s.cfg (objKey area idx elem) with
  | some (.num n) => n
  | _ => d

/-- The value of an object that holds bytes, empty where nothing has been set. -/
def cfgBlob (s : State) (area idx elem : Nat) : Bytes :=
  match mfind s.cfg (objKey area idx elem) with
  | some (.blob b) => b
  | _ => []

def State.core (s : State) (c : Nat) : Core := mget Core.reset s.cores c

def modCore (s : State) (c : Nat) (f : Core → Core) : State := { s with cores := mset s.cores c (f (s.core c)) }

def modCtl (s : State) (c : Nat) (f : Ctl → Ctl) : State := modCore s c (fun k => { k with ctl := f k.ctl })
def modPrs (s : State) (c : Nat) (f : Press → Press) : State := modCore s c (fun k => { k with prs := f k.prs })
def modVec (s : State) (c : Nat) (f : Vec → Vec) : State := modCore s c (fun k => { k with vec := f k.vec })
def modSpd (s : State) (c : Nat) (f : Spd → Spd) : State := modCore s c (fun k => { k with spd := f k.spd })
def modQue (s : State) (c : Nat) (f : Que → Que) : State := modCore s c (fun k => { k with que := f k.que })

def Core.eng (k : Core) (e : Nat) : DmaEng := mget DmaEng.reset k.dma e

def modDma (s : State) (c e : Nat) (f : DmaEng → DmaEng) : State :=
  modCore s c (fun k => { k with dma := mset k.dma e (f (k.eng e)) })

def Que.q (u : Que) (q : Nat) : Queue := mget (Queue.reset q) u.qs q

def modQ (s : State) (c q : Nat) (f : Queue → Queue) : State :=
  modQue s c (fun u => { u with qs := mset u.qs q (f (u.q q)) })

def State.field (s : State) (n : Nat) : Field := mget Field.reset s.fields n
def modField (s : State) (n : Nat) (f : Field → Field) : State := { s with fields := mset s.fields n (f (s.field n)) }

def State.grp (s : State) (g : Nat) : Group := mget Group.reset s.groups g
def modGrp (s : State) (g : Nat) (f : Group → Group) : State := { s with groups := mset s.groups g (f (s.grp g)) }

def State.part (s : State) (p : Nat) : Part := mget Part.reset s.parts p
def modPart (s : State) (p : Nat) (f : Part → Part) : State := { s with parts := mset s.parts p (f (s.part p)) }

def modLinks (s : State) (f : Links → Links) : State := { s with links := f s.links }
def modClk (s : State) (f : Clk → Clk) : State := { s with clk := f s.clk }
def modEch (s : State) (f : EchoM → EchoM) : State := { s with ech := f s.ech }
def modPwr (s : State) (f : Pwr → Pwr) : State := { s with pwr := f s.pwr }
def modWake (s : State) (f : Wake → Wake) : State := { s with wake := f s.wake }
def modMgmt (s : State) (f : Mgmt → Mgmt) : State := { s with mgmt := f s.mgmt }

/-- R523: what the update state record holds, and the state with another record in force. -/
def Fw.record (k : Fw) : UpdRecord := ⟨k.active, k.pending, k.trials, k.phase, k.banks⟩
def Fw.restore (k : Fw) (r : UpdRecord) : Fw :=
  { k with active := r.active, pending := r.pending, trials := r.trials, phase := r.phase, banks := r.banks }

/-- R523: a change of the record is written to the older copy, with the next sequence number. -/
def Fw.written (k : Fw) (old : UpdRecord) (now : Nat) : Fw :=
  if k.record = old then k else { k with recSeq := k.recSeq + 1, older := old, recAt := some now }

def modFw (s : State) (f : Fw → Fw) : State := { s with fw := (f s.fw).written s.fw.record s.now }
def modMsh (s : State) (n : Nat) (f : MeshF → MeshF) : State := modField s n (fun k => { k with msh := f k.msh })

def State.host (s : State) (h : Nat) : HostDie := mget HostDie.reset s.hosts h
def modHost (s : State) (h : Nat) (g : HostDie → HostDie) : State := { s with hosts := mset s.hosts h (g (s.host h)) }
def HostDie.fn (d : HostDie) (f : Nat) : HostFn := mget HostFn.reset d.fns f
def modFn (s : State) (h f : Nat) (g : HostFn → HostFn) : State :=
  modHost s h (fun d => { d with fns := mset d.fns f (g (d.fn f)) })

def emit (s : State) (o : Output) : State := { s with out := s.out ++ [o] }

/-- The next of the values that the specification leaves open (log entry 4). -/
def drawBool (s : State) : Bool × State := (Config.freeBool s.fresh, { s with fresh := s.fresh + 1 })
def drawNat (s : State) : Nat × State := (Config.free s.fresh, { s with fresh := s.fresh + 1 })

/-! ### Geometry (R34 to R37) -/

/-- R35: the group of logical core `c`. -/
def groupOf (c : Nat) : Nat := c / 12

/-- R35: the field of logical core `c`. -/
def fieldOf (c : Nat) : Nat := groupOf c / 8

def countBits (n x : Nat) : Nat := ((List.range n).filter (fun i => x.testBit i)).length

/-- R33, R34, R36: the tile column and the physical coordinates tx, ty of logical core `c`. -/
def colOf (s : State) (c : Nat) : Nat := if c % 12 < (s.grp (groupOf c)).skip then c % 12 else c % 12 + 1
def tileX (s : State) (c : Nat) : Nat := 13 * (fieldOf c % 3) + colOf s c
def tileY (c : Nat) : Nat := 8 * (fieldOf c / 3) + groupOf c % 8

/-- R37: a group with two or more defective tiles is retired. -/
def Group.retired (g : Group) : Bool := decide (2 ≤ countBits 13 (g.tdead ||| g.rdead))

/-- R37, R460: whether group `g` is present. -/
def grpPresent (s : State) (g : Nat) : Bool :=
  decide (g < 96) && !(s.grp g).retired && !(s.grp g).off && !(s.grp g).lost

/-- R37: whether logical core `c` is present. -/
def present (s : State) (c : Nat) : Bool := decide (c < 1152) && grpPresent s (groupOf c)

/-- The partition that owns core `c` (CORE_ID.PART), none where no partition owns its group. -/
def partOf (s : State) (c : Nat) : Option Nat := (s.grp (groupOf c)).part

/-- The partition number shown in registers and messages: 0 where none owns the core. -/
def partNum (s : State) (c : Nat) : Nat := (partOf s c).getD 0

/-- R384: the Echo time that core `c` sees. -/
def echoOf (s : State) (c : Nat) : W64 := (s.field (fieldOf c)).echo

/-- The logical cores of partition `p` that are present. -/
def coresOf (s : State) (p : Nat) : List Nat :=
  (List.range 1152).filter (fun c => present s c && partOf s c == some p)

/-- partition.fault_core: the designated fault core of partition `p`: the core set, or the lowest present core of the
partition (Table 11.7). DEDUCED, log entry 41. -/
def faultCoreOf (s : State) (p : Nat) : Option Nat :=
  match mfind s.cfg (objKey 0x40 0x0003 p) with
  | some (.num c) => if present s c && partOf s c == some p then some c else (coresOf s p).head?
  | _ => (coresOf s p).head?

/-! ### Bytes of memory -/

/-- The byte at a physical address: an address not listed reads as 0 (log entry 5). -/
def memGet : List Host.Cell → Nat → Byte
  | [], _ => 0#8
  | (k, v) :: m, a => if a = k then v else memGet m a

/-- Writes a byte, keeping addresses rising and listing no byte that is 0. DESIGN CHOICE, log entry 5. -/
def memSet : List Host.Cell → Nat → Byte → List Host.Cell
  | [], a, b => if b = 0#8 then [] else [(a, b)]
  | (k, v) :: m, a, b =>
    if a < k then (if b = 0#8 then (k, v) :: m else (a, b) :: (k, v) :: m)
    else if a = k then (if b = 0#8 then m else (a, b) :: m)
    else (k, v) :: memSet m a b

/-- The canonical form: addresses strictly rising, no byte 0 listed. DESIGN CHOICE, log entry 5. -/
def memWf : List Host.Cell → Bool
  | [] => true
  | [(_, v)] => v != 0#8
  | (k, v) :: (k', v') :: m => v != 0#8 && decide (k < k') && memWf ((k', v') :: m)

/-- R138 to R140: where offset `a` of a scratchpad lies in its banks: bank × 32,768 + row × 64 + byte. -/
def spdPhys (near lin : Bool) (a : Nat) : Nat :=
  let byte := a % 64
  if lin then a
  else if near then
    if a < 0x80000 then
      (bits a 9 6 ^^^ bits a 13 10 ^^^ bits a 17 14) * 32768 + bits a 18 10 * 64 + byte
    else
      let a' := a - 0x80000
      let r := a' / 3072
      let p := a' % 3072 / 64
      (16 + (p + r) % 48) * 32768 + r * 64 + byte
  else
    (bits a 11 6 ^^^ bits a 17 12 ^^^ (bits a 20 18 * 8)) * 32768 + bits a 20 12 * 64 + byte

/-- The offset of the byte at place `k` of the banks: `spdPhys` undone. -/
def spdOff (near lin : Bool) (k : Nat) : Nat :=
  let bank := k / 32768
  let row := k / 64 % 512
  if lin then k
  else if near then
    if bank < 16 then row * 1024 + (bank ^^^ row % 16 ^^^ row / 16 % 16) * 64 + k % 64
    else 0x80000 + row * 3072 + (bank + 32 - row % 48) % 48 * 64 + k % 64
  else row * 4096 + (bank ^^^ row % 64 ^^^ row / 64 * 8) * 64 + k % 64

/-- R138: the ring that reaches the bank of offset `off` (Table 5.2). -/
def bankRing (s : State) (c off : Nat) : Nat := spdPhys (s.core c).spd.near (s.core c).spd.lin (off % 2 ^ 21) / 32768 / 16

/-- The key of a scratchpad byte: core `c`'s scratchpad begins at c × 2^21 (R50). -/
def spKey (s : State) (c off : Nat) : Nat :=
  c * 2 ^ 21 + spdPhys (s.core c).spd.near (s.core c).spd.lin (off % 2 ^ 21)

/-- One byte of a scratchpad. -/
def spByte (s : State) (c off : Nat) : Byte := memGet s.mem (spKey s c off)

/-- Writes one byte of a scratchpad. -/
def spPut (s : State) (c off : Nat) (b : Byte) : State := { s with mem := memSet s.mem (spKey s c off) b }

/-- `n` bytes of a scratchpad from offset `off`. -/
def spBytes (s : State) (c off n : Nat) : Bytes := (List.range n).map (fun i => spByte s c (off + i))

/-- Writes a byte string at offset `off` of a scratchpad. -/
def spPuts (s : State) (c off : Nat) : Bytes → State
  | [] => s
  | b :: bs => spPuts (spPut s c off b) c (off + 1) bs

/-- Clears the bytes of `mine` and makes their words sound. -/
def clearMem (s : State) (mine : Nat → Bool) : State :=
  { s with mem := s.mem.filter (fun x => !mine x.1), marks := s.marks.filter (fun x => !mine x.1) }

/-- The health of the 8 B word that holds offset `off`. -/
def spMark (s : State) (c off : Nat) : Option Mark := mfind s.marks (spKey s c (off / 8 * 8))

def setSpMark (s : State) (c off : Nat) (m : Option Mark) : State :=
  let k := spKey s c (off / 8 * 8)
  { s with
      marks := match m with
      | none => mdel s.marks k
      | some v => mset s.marks k v }

/-! ### Error events (R467 to R471) -/

/-- Table 15.2: the class of an error event. -/
def classOf (code : Nat) : Nat :=
  if code = 0x0014 ∨ code = 0x0015 then 3
  else if code = 0x0009 ∨ code = 0x0016 ∨ code = 0x0017 then 2
  else if code = 0x0002 ∨ code = 0x0004 ∨ code = 0x0006 ∨ code = 0x000B ∨ code = 0x000D ∨ code = 0x0010 ∨
    code = 0x0013 then 1
  else 0

/-- R473: a new record reaches every subscription that it matches; a full queue of 256 counts it missed. A session
of class GUEST receives its partition's records alone, and a subscription names the classes it wants. -/
def deliverRec (s : State) (r : LogRec) : State :=
  { s with sessions := s.sessions.map (fun p => (p.1,
      let e := p.2
      if e.wants r then
        { e with
          sub := e.sub.map (fun u =>
            if u.queue.length < 256 then { u with queue := u.queue ++ [r] } else { u with missed := u.missed + 1 }) }
      else e)) }

/-- Appends a record to M's buffer (R472), with the next SEQ, the class totals of R476 and delivery (R473). Events
without an error class have CLASS 4 and never ALERT (R508). -/
def storeRec (s : State) (r : LogRec) : State :=
  let r := { r with seq := s.lastSeq + 1, alert := decide (1 ≤ r.cls) && decide (r.cls ≤ 3) }
  let s := { s with lastSeq := s.lastSeq + 1, logBuf := s.logBuf ++ [r] }
  let s := if r.cls < 4 then
      { s with totals := mset s.totals r.cls (mget 0 s.totals r.cls + r.count),
               totalsCold := mset s.totalsCold r.cls (mget 0 s.totalsCold r.cls + r.count) }
    else s
  deliverRec s r

/-- R452, R472: a record is stored; during a management restart Lantern keeps it, at most the last 256. -/
def appendRec (s : State) (r : LogRec) : State :=
  if s.wake.mgmt then
    let k := s.wake.kept ++ [r]
    { s with
      wake := if 256 < k.length then { s.wake with kept := k.drop 1, lost := s.wake.lost + 1 }
        else { s.wake with kept := k } }
  else storeRec s r

/-- R467, class 2: the device enters FAULTED, and every partition's DEVICE halt cause is set (R455). -/
def setDeviceCause (s : State) (b : Bool) : State :=
  { s with parts := (List.range 16).foldl (fun m p => mset m p { mget Part.reset m p with hDevice := b }) s.parts }

/-- R455: whether partition `p`'s HALT bit is 1. -/
def haltBitOf (s : State) (p : Nat) : Bool := (s.part p).hOperator || (s.part p).hSystem || (s.part p).hDevice


/-- Whether events of a code are coalesced: corrected errors (R470), and the events that Table 16.8 marks. -/
def coalesces (code : Nat) : Bool :=
  if code < 0x1000 then classOf code == 0
  else [0x2001, 0x2005, 0x2101, 0x2103, 0x2202, 0x3004, 0x4004, 0x5003, 0x5004].contains code

/-- R470, R471, R508: a record of an event; a coalesced one of a code and unit whose second still runs joins its
window. `echo` is the time of detection. DEDUCED, log entry 42. -/
def raiseRec (s : State) (code cls ukind unit : Nat) (part : Option Nat) (echo : W64) (detail : List Nat) : State :=
  let r : LogRec := {
    cls := cls, coalesced := false, alert := false, code := code, seq := 0, echo := echo,
    ukind := ukind, part := part, unit := unit, count := 1, detail := detail }
  let same (w : Coal) : Bool := w.code == code && w.ukind == ukind && w.unit == unit
  if !coalesces code then appendRec s r
  else if s.coals.any same then
    { s with coals := s.coals.map (fun w =>
        if same w then
          (if w.count = 0 then { w with count := 1, echo := echo, part := part, detail := detail }
           else { w with count := w.count + 1 })
        else w) }
  else appendRec { s with coals := s.coals ++ [⟨code, cls, ukind, unit, part, 0, echo, detail⟩] } r

/-- An event without an error class (Table 16.8), at M's Echo time. -/
def raiseEvent (s : State) (code ukind unit : Nat) (part : Option Nat) (detail : List Nat) : State :=
  raiseRec s code 4 ukind unit part s.echoM detail

/-- Table 14.1. -/
def devCode : DevState → Nat
  | .off => 0
  | .standby => 1
  | .waking => 2
  | .ready => 3
  | .degraded => 4
  | .low => 5
  | .held => 6
  | .faulted => 7

/-- A word of a function's MSI-X table: four a vector, whose last holds the mask bit. PRESUMED, log entry 36. -/
def HostFn.msixWord (k : HostFn) (i : Nat) : W32 := mget (if i % 4 = 3 then 1 else 0) k.msix i

/-- Whether vector `v` is masked. PRESUMED, log entry 36. -/
def HostFn.masked (k : HostFn) (v : Nat) : Bool := (k.msixWord (4 * v + 3)).getLsbD 0

/-- R365: a vector of a function is sent; a masked one stays pending. PRESUMED, log entry 36. -/
def sendVector (s : State) (h f v : Nat) : State :=
  if ((s.host h).fn f).masked v then modFn s h f (fun k => { k with pba := k.pba ||| 2 ^ v }) else emit s (.msix h f v)

/-- R365: vector 4 of every function whose link is up, for a change of HIF_FSTAT.DEVSTATE. -/
def devVectors (s : State) : State :=
  s.hosts.foldl (fun s (p : Nat × HostDie) =>
    if p.2.up then (List.range 17).foldl (fun s f => sendVector s p.1 f 4) s else s) s

/-- R435: the device enters a state, with the event of Table 16.8. -/
def setDev (s : State) (d : DevState) (stage : Nat) : State :=
  if s.dev = d then { s with stage := stage }
  else
    let old := s.dev
    devVectors (raiseEvent { s with dev := d, stage := stage } 0x4001 0 0 none [devCode old, devCode d])

/-! ### Messages to the outside (R488, R493, R505, R507) -/

/-- Table 9.4: a packet of source core `score` in partition `spart` for another device, with no fields of its kind yet. Its RTAG is
free (log entry 84); HOPS and EPOCH are set where it is injected (R308). -/
def devPkt (s : State) (spart score opc dev addr : Nat) : LinkPkt :=
  { opc := BitVec.ofNat 8 opc, endm := false, vc1 := false, ord := false, len := 0, hops := 0, ddev := dev, sdev := s.devId,
    spart := spart, epoch := 0, score := score, rtag := Config.rtag s.out.length % 2 ^ 16, status := 0, subop := 0,
    addr := BitVec.ofNat 64 addr, wtag := 0, opnd := 0, cmpv := 0, size := 0, data := [], poison := [] }

/-- R296, R297: a packet with its payload, whose poisoned 8 B words are listed by offset: the data flits that hold them are
poisoned. -/
def carry (k : LinkPkt) (bs : Bytes) (poison : List Nat) : LinkPkt :=
  { k with
    len := (bs.length + 63) / 64
    size := (bs.length + 15) / 16
    data := bs
    poison := (poison.map (fun w => w / 64)).dedup }

/-- Each KIND byte with the three bytes of 0x00 after it (R485). -/
def lead (kind : Nat) : Bytes := natBytes 4 kind

/-- R493: a message as bytes (Table 16.5). -/
def msgBytes (m : SasilMsg) : Bytes :=
  natBytes 1 m.ver ++ natBytes 1 m.type_ ++ natBytes 1 m.flags ++ natBytes 1 0 ++ natBytes 4 m.seq ++ natBytes 2 m.body.length ++
    natBytes 1 m.status ++ natBytes 1 0 ++ natBytes 4 m.sid ++ m.body

/-- R488: a transport unit leaves M for device `dev` as the data of one MGMT packet, from no core and in the device's class. -/
def sendPeer (s : State) (dev : Nat) (unit : Bytes) : State :=
  emit s (.toDev (carry (devPkt s 0 0x7FF 9 dev 0) unit []) unit.length)

/-- R505, R507: an EVENT leaves by a transport, to a peer sealed in a MGMT packet. One for a mailbox does not take the place of a
reply. DEDUCED, log entry 67. -/
def sendEvent (s : State) (tr : Transport) (m : SasilMsg) : State :=
  match tr with
  | .peer dev => sendPeer s dev (lead 2 ++ Config.seal m.sid (msgBytes m))
  | .eth _ => emit s (.mgmt tr m)
  | .mctp => emit s (.mgmt tr m)
  | .mbx _ _ => emit s (.mgmt tr m)

/-! ### Completions of asynchronous ACTIONs (R505) -/

/-- R505: the work of every awaited ACTION of a kind has ended with a status: its session receives the EVENT. Kinds: 1 cold
start, 2 warm start, 3 compute reset, 4 field check, 5 epoch advance, 16 + p reset of partition p.
DEDUCED, log entry 67. -/
def endAsync (s : State) (kind status : Nat) : State :=
  let due := s.wake.asyncs.filter (fun a => a.kind == kind)
  let s := modWake s (fun w => { w with asyncs := w.asyncs.filter (fun a => a.kind != kind) })
  due.foldl (fun s a =>
    match mfind s.sessions a.sid with
    | none => s
    | some e =>
      let s := { s with sessions := mset s.sessions a.sid { e with events := e.events + 1 } }
      sendEvent s e.tr
        { ver := e.ver.getD 0x11
          type_ := 0x40
          flags := 1
          seq := e.events + 1
          status := status
          sid := a.sid
          body := natBytes 4 a.seq }) s

/-- An ACTION's work has ended without success: the specification names no status for the outcome, which is drawn among those of
Table 16.7 that are not OK (log entry 4). DEDUCED, log entry 67. -/
def endFailed (s : State) (kind : Nat) : State :=
  let (n, s) := drawNat s
  endAsync s kind (1 + n % 17)

/-- R505: the device leaves WAKING: starts and compute resets end. -/
def leaveWaking (s : State) (ok : Bool) : State :=
  [1, 2, 3].foldl (fun s k => if ok then endAsync s k 0 else endFailed s k) s

/-- R467, class 2, R455: the device enters FAULTED, which ends a start or compute reset under way, and may recover
(R438). OFF and HELD are left only as Table 14.1 states. DEDUCED, log entry 42. -/
def enterFaulted (s : State) : State :=
  if s.dev = .off ∨ s.dev = .held then s
  else
    setDeviceCause (leaveWaking (modWake (setDev s .faulted 0) (fun w =>
      { w with
        recoverDue := true
        start := none
        compute := false
        drained := false })) false) true

/-- R467 to R471: an error event of Table 15.2; a fatal one makes the device FAULTED. -/
def raiseErr (s : State) (code ukind unit : Nat) (part : Option Nat) (echo : W64) (detail : List Nat) : State :=
  let s := raiseRec s code (classOf code) ukind unit part echo detail
  if classOf code = 2 then enterFaulted s else s

/-! ### Counting (chapter 18) -/

/-- R536 to R538: counter `i` of a core adds `n`. A wrap carries into a chained odd counter, else sets CNT_OVF and
may freeze the block. DESIGN CHOICE, log entry 78. -/
def cntAdd (k : CoreCnt) (i n : Nat) : CoreCnt :=
  let v := mget 0 k.vals i + n
  if v < 2 ^ 48 then { k with vals := mset k.vals i v }
  else
    let k := { k with vals := mset k.vals i (v % 2 ^ 48) }
    let up := mget CntSel.reset k.sels (i + 1)
    if i % 2 = 0 ∧ up.chain then
      let u := mget 0 k.vals (i + 1) + 1
      if !up.en then k
      else
        let k := { k with vals := mset k.vals (i + 1) (u % 2 ^ 48) }
        if u < 2 ^ 48 then k else { k with ovf := k.ovf ||| 2 ^ (i + 1), frz := k.frz || k.fovf }
    else { k with ovf := k.ovf ||| 2 ^ i, frz := k.frz || k.fovf }

/-- R536: what one clock adds to a counter whose event has count `n` in it. -/
def evAmount (edge : Bool) (n : Nat) : Nat := if edge then min n 1 else n

/-- R535, R536, R538: the eight counters of a core see the events of one clock, each with its count. An event that the clock before
had too starts no episode. A freeze acts from the next clock on. -/
def cntEvents (k : CoreCnt) (evs : List (Nat × Nat)) : CoreCnt :=
  if k.frz then k
  else (List.range 8).foldl (fun k i =>
    let e := mget CntSel.reset k.sels i
    match evs.find? (fun x => x.1 == e.event) with
    | none => k
    | some (_, n) =>
      if !e.en || (e.chain && i % 2 == 1) || n == 0 || (e.edge && k.prev.contains e.event) then k
      else cntAdd k i (evAmount e.edge n)) k

/-- R535: the counters see event `code` with count `n` in a clock of its own. DEDUCED, log entry 29. -/
def cntEvent (k : CoreCnt) (code n : Nat) : CoreCnt := cntEvents k [(code, n)]

/-- R543: a sampling record. -/
def smpRecord (echo : W64) (pc c code lat : Nat) (data : Bytes) : Bytes :=
  natBytes 8 echo.toNat ++ natBytes 4 pc ++ natBytes 2 c ++ natBytes 2 code ++ natBytes 4 lat ++ padTo 12 data

/-- R542: the sampler's running count rises; past a multiple of PERIOD a record is due, and each further multiple
passed in the same clock is lost. -/
def smpEvent (m : Sampler) (code n : Nat) (rec : Bytes) : Sampler :=
  if !m.en || m.event != code || n == 0 then m
  else
    let r := m.run + evAmount m.edge n
    let hits := r / m.period - m.run / m.period
    let m := { m with run := r }
    if hits = 0 then m else { m with due := m.due ++ [rec], lost := satInc m.lost (hits - 1) }

/-- Table 18.2: which instruction caused an event: the one at the control unit's PC, the X instruction at an offset, or none of the
core's. -/
inductive Cause where
  | here
  | x (pc : Nat)
  | none_
  deriving DecidableEq, Repr

/-- What a sampling record says of an event beside its code (Tables 18.2, 18.3); `lat` that the event has a latency. -/
structure Sample where
  cause : Cause
  lat   : Bool
  data  : Bytes
  deriving DecidableEq, Repr

/-- An event without data that the instruction at PC caused. -/
def hereSample : Sample := ⟨.here, false, []⟩

/-- An event without data that no instruction of the core caused. -/
def bareSample : Sample := ⟨.none_, false, []⟩

/-- Table 18.3, codes 0x03 to 0x05 and 0x38 to 0x4F: offset or address, size, ring or port. DEDUCED, log entry 29. -/
def memSample (cause : Cause) (lat : Bool) (addr size unit : Nat) : Sample :=
  ⟨cause, lat, natBytes 8 addr ++ natBytes 1 (if size = 64 then 0 else size) ++ natBytes 1 unit⟩

/-- FMT or OFMT of a command. -/
def bodyFmt : EngBody → Nat
  | .press (.pconf d) => d.fmt.toNat
  | .press (.pload d) => d.fmt.toNat
  | .press (.pstream d) => d.fmt.toNat
  | .press (.pdrain d) => d.ofmt.toNat
  | .vec _ d => d.ofmt.toNat
  | _ => 0

/-- Table 18.3, codes 0x10 to 0x37 and 0x50 to 0x5F: a command of an engine, with its DMA status and residue. -/
def engSample (f : Flight) (lat : Bool) (status residue : Nat) : Sample :=
  ⟨.x f.pc, lat, natBytes 4 f.iss.doff ++ [engOf f.body, f.iss.tag.val, status, bodyFmt f.body].flatMap (natBytes 1) ++
    natBytes 4 residue⟩

/-- Table 18.3, codes 0x60 to 0x77: queue or lock, core, device, status, length in 16 B units. DEDUCED, log entry 29. -/
def queSample (cause : Cause) (lat : Bool) (q core dev status len : Nat) : Sample :=
  ⟨cause, lat, natBytes 2 q ++ natBytes 2 core ++ natBytes 2 dev ++ natBytes 1 status ++ natBytes 1 len⟩

/-- An event of Table 18.1 in core `c`, with the instruction, latency and data of a sampling record (R535, R542).
DEDUCED, log entry 29. -/
def countD (s : State) (c code n pc lat : Nat) (data : Bytes) : State :=
  modCore s c (fun k => { k with
    cnt :=
    let t := cntEvent k.cnt code n
    { t with smp := smpEvent t.smp code n (smpRecord (echoOf s c) pc c code lat data) } })

/-- The PC of a sampling record. -/
def causePc (s : State) (c : Nat) (x : Cause) : Nat :=
  match x with
  | .here => (s.core c).ctl.pc.toNat % 2 ^ 21
  | .x pc => pc
  | .none_ => 0xFFFFFFFF

/-- R543: the CCLK from issue to completion of an event that has a latency: a free value, for the model has no pipeline.
DESIGN CHOICE, log entry 78. -/
def latOf (s : State) (c code : Nat) (lat : Bool) : Nat :=
  if lat then Config.sampleLat c code (s.core c).cnt.smp.run s.now % 2 ^ 32 else 0

/-- An event of Table 18.1 in core `c`, by default one without data that the instruction at PC caused. -/
def count (s : State) (c code n : Nat) (w : Sample := hereSample) : State :=
  countD s c code n (causePc s c w.cause) (latOf s c code w.lat) w.data

/-- The conditions of Table 3.9 that arose in a command, counted once each from event code `base` (Table 18.1).
DEDUCED, log entry 29. -/
def countConds (s : State) (c base : Nat) (fl : BitVec 4) (w : Sample) : State :=
  (List.range 4).foldl (fun s i => if fl.getLsbD i then count s c (base + i) 1 w else s) s

/-! ### Places (R33, R269, R572) -/

/-- R33: the tile coordinates of router `r` of field `n`. -/
def routerTile (n r : Nat) : Nat × Nat := (13 * (n % 3) + r % 13, 8 * (n / 3) + r / 13)

/-- R33: the field and router number at a tile. -/
def tileRouter (tx ty : Nat) : Nat × Nat := (3 * (ty / 8) + tx / 13, 13 * (ty % 8) + tx % 13)

/-- Table 8.4: the tile of router `i` of an edge die: 0 to 15 stack, 16 to 23 link die, 24 and 25 host die, 26 M. -/
def edgeTile (die i : Nat) : Option (Nat × Nat) :=
  if die < 6 then (if i < 5 then some (0, 5 * die + 1 + i) else none)
  else if die < 12 then (if i < 5 then some (38, 5 * (die - 6) + 1 + i) else none)
  else
    let row : Option (Nat × Nat × Nat) := match die with
      | 12 => some (5, 0, 5)
      | 13 => some (29, 0, 5)
      | 14 => some (5, 31, 5)
      | 15 => some (29, 31, 5)
      | 16 => some (1, 0, 3)
      | 17 => some (11, 0, 3)
      | 18 => some (25, 0, 3)
      | 19 => some (35, 0, 3)
      | 20 => some (1, 31, 3)
      | 21 => some (11, 31, 3)
      | 22 => some (25, 31, 3)
      | 23 => some (35, 31, 3)
      | 24 => some (18, 0, 2)
      | 25 => some (20, 31, 2)
      | 26 => some (15, 31, 2)
      | _ => none
    match row with
    | some (tx, ty, cnt) => if i < cnt then some (tx + i, ty) else none
    | none => none

/-- R384: an edge die takes its Echo stamps from the field that holds its router 0. -/
def edgeEcho (s : State) (die : Nat) : W64 :=
  match edgeTile die 0 with
  | some (tx, ty) => (s.field (tileRouter tx ty).1).echo
  | none => s.echoM

/-- Whether a table copy's entry answers UNMAPPED for its parity (R469); `kind` 0 route table, 1 overlay, 2 group map. -/
def badEntry (s : State) (kind copy entry : Nat) : Bool := s.badEntries.contains ⟨kind, copy, entry⟩

/-! ### Counters of shared blocks (R547 to R549) -/

def routerBlk (n r : Nat) : Nat := 104 * n + r
def portBlk (p : Nat) : Nat := 2000 + p
def stackBlk (st : Nat) : Nat := 3000 + st

def State.blk (s : State) (b : Nat) : Shared := mget Shared.reset s.shared b

/-- The counters that a block has (R547). -/
def sharedCounters (b : Nat) : Nat := if b < 2000 then 4 else 8

/-- R547, R548: counter `j` of a block and its shadow of class `cls` count `n` more. A wrap sets the block's OVF bit. -/
def shAdd (k : Shared) (j cls n : Nat) : Shared :=
  let v := mget 0 k.totals j + n
  let sh := 17 * j + cls
  { k with
    totals := mset k.totals j (v % 2 ^ 48)
    shadows := mset k.shadows sh ((mget 0 k.shadows sh + n) % 2 ^ 48)
    ovf := if v < 2 ^ 48 then k.ovf else k.ovf ||| 2 ^ j }

/-- R547, R548: event `code` with count `n` in class `cls` (16: the device's) at a block; `plane` 1 A, 2 B for routers, 3
elsewhere. -/
def countShared (s : State) (b code cls n plane : Nat) : State :=
  let step (k : Shared) (j : Nat) : Shared :=
    let e := mget ShSel.reset k.sels j
    if k.frz || !e.en || e.event != code || n == 0 || (e.pl &&& plane) == 0 then k else shAdd k j cls (evAmount e.edge n)
  { s with shared := mset s.shared b ((List.range (sharedCounters b)).foldl step (s.blk b)) }

/-- CTL.CLR: the block's totals and shadows are 0 (R549). DEDUCED, log entry 79. -/
def clearShared (k : Shared) : Shared := { k with totals := [], shadows := [] }

/-- The traffic class of a partition's packets, 16 for the device's (R271). -/
def classOfPart (p : Option Nat) : Nat := p.getD 16

/-- R271: within a class, the next of the `n` input ports, numbered from 1, in round robin after `last`, with an item. -/
def nextPort {α : Type} (n last : Nat) (inp : α → Nat) (ks : List α) : Option α :=
  ((List.range n).map (fun i => (last + i) % n + 1)).findSome? (fun p => ks.find? (fun k => inp k == p))

/-- How an output is shared (R271): the weight of a class, the input port last served in it, and the class, input port and flits of an
item that waits. -/
structure Sharing (α : Type) where
  weight : Nat → Nat
  last   : Nat → Nat
  cls    : α → Nat
  inp    : α → Nat
  flits  : α → Nat

/-- R271: deficit round-robin at one output with `n` input ports among items with their classes. Class `cur` goes on while its
deficit covers its item; else the next class receives its 16 × weight. `def_` are the deficits by class. -/
def drr {α : Type} (fuel n : Nat) (h : Sharing α) (ks : List α) (cur : Nat) (def_ : Map Nat) : Option (α × Nat × Map Nat) :=
  match fuel with
  | 0 => none
  | fuel + 1 =>
    let mine := ks.filter (fun k => h.cls k == cur)
    let step :=
      let nx := (cur + 1) % 17
      let has_ := ks.any (fun k => h.cls k == nx)
      drr fuel n h ks nx (mset def_ nx (if has_ then mget 0 def_ nx + 16 * h.weight nx else 0))
    match nextPort n (h.last cur) h.inp mine with
    | none => step
    | some k => if h.flits k ≤ mget 0 def_ cur then some (k, cur, mset def_ cur (mget 0 def_ cur - h.flits k)) else step

/-- R271: the deficits as an output chooses again: a class without a waiting item has none. -/
def deficits {α : Type} (cls : α → Nat) (ks : List α) (get : Nat → Nat) : Map Nat :=
  (List.range 17).foldl (fun d c => mset d c (if ks.any (fun k => cls k == c) then get c else 0)) []

/-! ### Packets discarded under reset (R277, R279) -/

/-- R277, R279: a packet of partition `part` and source core `score` (0x7FF for an edge die, Carafe or a remote source) for core
`dcore` (0x7FF for an edge die) is discarded whole at router `r` of field `n`: it is counted, and the first is captured. -/
def meshDrop (s : State) (n r dcore : Nat) (part : Option Nat) (score plane : Nat) : State :=
  let s := modMsh s n (fun m =>
    { m with
      dropRst := satInc m.dropRst 1
      dropLog := if m.dropLog.v then m.dropLog else ⟨true, part.isNone, dcore, part.getD 0, score⟩ })
  countShared s (routerBlk n r) 0xB (classOfPart part) 1 plane

/-- R277: a packet on plane A for core `c`, which is under reset, is discarded whole at its router. -/
def dropAtCore (s : State) (c : Nat) (part : Option Nat) (score : Nat) : State :=
  let (n, r) := tileRouter (tileX s c) (tileY c)
  meshDrop s n r c part score 1

/-- R279: a packet on plane A for edge die `die`, which is off or held in reset, is discarded whole at edge router `i` of the die. -/
def dropAtDie (s : State) (die i : Nat) (part : Option Nat) (score : Nat) : State :=
  match edgeTile die i with
  | some (tx, ty) =>
    let (n, r) := tileRouter tx ty
    meshDrop s n r 0x7FF part score 1
  | none => s

/-! ### Words of a scratchpad with their check bits (R151 to R153) -/

/-- The corrected errors of a row kept for R155: those of the last 24 h. -/
def dayNs : Nat := 86400000000000

/-- Byte 29 of Table 18.3 for a word at place `k` of the banks that a reader of Table 5.12 reads: its port in the order of
Table 18.1, or the word's ring for the control unit and for scrub. -/
def portUnit (k port : Nat) : Nat :=
  match port with
  | 0 => k / 32768 / 16
  | 5 => 6
  | 6 => 5
  | 7 => k / 32768 / 16
  | p => p - 1

/-- The sampling data of a word at place `k` of the banks of core `c`, read by reader `port`. -/
def wordSample (s : State) (c k port : Nat) : Sample :=
  memSample (if port = 0 then .here else .none_) false (spdOff (s.core c).spd.near (s.core c).spd.lin k) 8 (portUnit k port)

/-- R151, R152: what a read by reader `port` of the 8 B word at physical place `k` of core `c`'s banks counts, captures
and raises. The Bool says whether the word is uncorrectable. -/
def touchKey (s : State) (c k port : Nat) : State × Bool :=
  let key := c * 2 ^ 21 + k
  match mfind s.marks key with
  | none => (s, false)
  | some .corrected => (s, false)
  | some .correctable =>
    let s := { s with marks := mset s.marks key .corrected }
    let s := modSpd s c (fun d => { d with eccCe := satInc d.eccCe 1 })
    let row := c * 32768 + k / 64
    let ts := (mget [] s.rowErrs row).filter (fun t => decide (s.now < t + dayNs)) ++ [s.now]
    let s := { s with rowErrs := mset s.rowErrs row ts }
    (raiseErr (count s c 0x47 1 (wordSample s c k port)) 0x0001 1 c (partOf s c) (echoOf s c) [], false)
  | some _ =>
    let s := modSpd s c (fun d => { d with
      eccUe := satInc d.eccUe 1,
      info := if d.info.v then d.info else ⟨true, port, k / 32768, k / 64 % 512, k / 8 % 8⟩ })
    let i := (s.core c).spd.info
    (raiseErr (count s c 0x48 1 (wordSample s c k port)) 0x0002 1 c (partOf s c) (echoOf s c)
      [2 ^ 31 + i.port * 2 ^ 26 + i.bank * 2 ^ 20 + i.row * 2 ^ 11 + i.word * 2 ^ 8], true)

/-- A read of the word that holds offset `off` (R151, R152). -/
def touchWord (s : State) (c off port : Nat) : State × Bool :=
  touchKey s c (spKey s c (off / 8 * 8) - c * 2 ^ 21) port

/-- R153: the first word of a write that would be merged into an uncorrectable word. -/
def badMerge (s : State) (c off n : Nat) : Option Nat :=
  (if n = 0 then [] else (List.range ((off + n - 1) / 8 + 1 - off / 8)).map (fun i => (off / 8 + i) * 8)).find? (fun w =>
    !(decide (off ≤ w) && decide (w + 8 ≤ off + n)) &&
      (match spMark s c w with
       | some .poisoned => true
       | some .failed => true
       | _ => false))

/-- The offsets of the 8 B words that `n` bytes at `off` touch. -/
def wordsOf (off n : Nat) : List Nat :=
  if n = 0 then [] else (List.range ((off + n - 1) / 8 + 1 - off / 8)).map (fun i => (off / 8 + i) * 8)

/-- Reads the words of a range for reader `port`; answers the uncorrectable words among them. -/
def touchRange (s : State) (c off n port : Nat) : State × List Nat :=
  (wordsOf off n).foldl (fun (p : State × List Nat) w =>
    let (s, bad) := touchWord p.1 c w port
    (s, if bad then p.2 ++ [w] else p.2)) (s, [])

/-- Table 5.4: the bytes of a range as an engine receives them: those of an uncorrectable word are 0x00. -/
def spRead (s : State) (c off n port : Nat) : State × Bytes × List Nat :=
  let (t, bad) := touchRange s c off n port
  (t, (List.range n).map (fun i => if bad.contains ((off + i) / 8 * 8) then 0#8 else spByte s c (off + i)), bad)

/-- R153: writes one word's part of a range. A part of a word is merged, unless the word is uncorrectable. The Bool
says that the write was performed. -/
def spWriteWord (s : State) (c off : Nat) (bs : Bytes) (port w : Nat) : State × Bool :=
  let lo := max off w
  let hi := min (off + bs.length) (w + 8)
  let part := (bs.drop (lo - off)).take (hi - lo)
  if lo = w ∧ hi = w + 8 then (spPuts (setSpMark s c w none) c lo part, true)
  else
    let (s, bad) := touchWord s c w port
    if bad then (s, false) else (spPuts (setSpMark s c w none) c lo part, true)

/-- R153: writes a byte string; answers whether every part was performed. -/
def spWrite (s : State) (c off : Nat) (bs : Bytes) (port : Nat) : State × Bool :=
  (wordsOf off bs.length).foldl (fun (p : State × Bool) w =>
    let (s, ok) := spWriteWord p.1 c off bs port w
    (s, p.2 && ok)) (s, true)

/-- R152: writes whole words and marks those named as poisoned. -/
def spWriteP (s : State) (c off : Nat) (bs : Bytes) (poison : List Nat) (port : Nat) : State × Bool :=
  let (s, ok) := spWrite s c off bs port
  (poison.foldl (fun s w => setSpMark s c (off + w) (some .poisoned)) s, ok)

/-- SPD_ECC_INFO as a register word (Table 5.12). -/
def eccInfoWord (i : EccInfo) : Nat :=
  (if i.v then 2 ^ 31 else 0) + i.port * 2 ^ 26 + i.bank * 2 ^ 20 + i.row * 2 ^ 11 + i.word * 2 ^ 8

/-- The capture of the word at `off` read by `port`, as MEMORY's DETAIL carries it (Table 6.8). -/
def captureOf (s : State) (c off port : Nat) : Nat :=
  let k := spKey s c (off / 8 * 8) % 2 ^ 21
  eccInfoWord ⟨true, port, k / 32768, k / 64 % 512, k / 8 % 8⟩

/-! ### The scoreboard (R147 to R149) -/

/-- A declared range rounded out to 64 B. -/
def sbRange (id off n : Nat) (write : Bool) : SbEntry := ⟨id, off / 64 * 64, (off + n - 1) / 64 * 64 + 63, write⟩

def overlaps (e : SbEntry) (lo hi : Nat) : Bool := decide (e.lo ≤ hi) && decide (lo ≤ e.hi)

/-- R148: whether a control-unit read of `n` bytes at `off` stalls. -/
def sbReadStall (k : Core) (off n : Nat) : Bool :=
  k.sb.any (fun e => e.write && overlaps e (off / 64 * 64) ((off + n - 1) / 64 * 64 + 63))

/-- R148: whether a control-unit write stalls. -/
def sbWriteStall (k : Core) (off n : Nat) : Bool :=
  k.sb.any (fun e => overlaps e (off / 64 * 64) ((off + n - 1) / 64 * 64 + 63))

/-- R148: whether a command that declares `rs` must wait: an overlap, or too few of the 32 entries free. -/
def sbConflict (k : Core) (rs : List SbEntry) : Bool :=
  decide (32 < k.sb.length + rs.length) ||
  rs.any (fun r => k.sb.any (fun e => overlaps e r.lo r.hi && (e.write || r.write)))

/-- R149: releases the read ranges of a command. -/
def sbReleaseReads (k : Core) (id : Nat) : Core := { k with sb := k.sb.filter (fun e => e.id != id || e.write) }

/-- R149: releases every range of a command. -/
def sbRelease (k : Core) (id : Nat) : Core := { k with sb := k.sb.filter (fun e => e.id != id) }

/-! ### Tags (R190, R191) -/

def tagCount (k : Ctl) (t : Nat) : Nat := mget 0 k.tagCnt t

/-- R191: a tag change that brings a count to 0, or completes the awaited command, ends a TWAIT, WAITALL or SYNC wait:
the control unit goes on at the next instruction. -/
def wakeTags (k : Core) : Core :=
  let go : Core := { k with ctl := { k.ctl with blk := .none, pc := k.ctl.pc + 4 } }
  match k.ctl.st, k.ctl.blk with
  | .running, .twait t => if tagCount k.ctl t = 0 then go else k
  | .running, .waitAll => if k.ctl.tagCnt.all (fun p => p.2 == 0) then go else k
  | .running, .sync id => if k.flights.any (fun f => f.id == id) then k else go
  | _, _ => k

/-- R190: a command completes: it leaves the engine, its ranges are released, its tag count falls by 1 unless NOTAG,
its ERR bit is set where it failed, and waits for the tag end. -/
def finishFlight (k : Core) (f : Flight) (err : Bool) : Core :=
  let k := { k with flights := k.flights.filter (fun x => x.id != f.id) }
  let k := sbRelease k f.id
  let t := f.iss.tag.val
  let ctl := k.ctl
  let ctl := if f.iss.notag then ctl else { ctl with tagCnt := mset ctl.tagCnt t (tagCount ctl t - 1) }
  let ctl := if err then { ctl with tagErr := ctl.tagErr ||| BitVec.ofNat 32 (2 ^ t) } else ctl
  wakeTags { k with ctl := ctl }

/-- The commands of engine `eng` issued and not complete, in issue order. -/
def engFlights (k : Core) (eng : Nat) : List Flight := k.flights.filter (fun f => engOf f.body == eng)

def modFlight (k : Core) (id : Nat) (g : Flight → Flight) : Core :=
  { k with flights := k.flights.map (fun f => if f.id == id then g f else f) }

/-! ### Requesters (R50, R53, R573) -/

/-- The partition that a request of core `c` carries; 16, which owns nothing, where no partition owns the core.
DESIGN CHOICE, log entry 28. -/
def reqPart (s : State) (c : Nat) : Option Nat := some ((partOf s c).getD 16)

/-- The partition for which a requester asks: none for one that is checked against no partition (R53, R352, R573). -/
def reqOwner (s : State) (r : Requester) : Option Nat :=
  match r with
  | .core c => reqPart s c
  | .carafe => none
  | .host _ f => if f = 0 then none else some (f - 1)
  | .dev _ p _ => some p

/-- The partition whose traffic class a requester's packets travel in (R271), and that its refusals are counted for (R551). -/
def reqClass (s : State) (r : Requester) : Option Nat :=
  match r with
  | .core c => partOf s c
  | r => reqOwner s r

/-- The source core of a requester's packets, as MSH_DROP_LOG shows it (Table 8.10). -/
def reqCore (r : Requester) : Nat :=
  match r with
  | .core c => c
  | _ => 0x7FF

/-! ### Queues: admission, storage and credit (R215 to R230) -/

/-- R158, R222: whether a scope admits a source, seen from core `c`. -/
def admits (s : State) (c scope devlo devhi sdev spart : Nat) : Bool :=
  match scope with
  | 0 => sdev == s.devId && partOf s c == some spart
  | 1 => sdev == s.devId
  | 2 => decide (devlo ≤ sdev) && decide (sdev ≤ devhi)
  | _ => false

/-- The entries of a queue not taken by a message or a reservation (R223, R224). -/
def Queue.freeCount (u : Queue) : Nat := u.depth + 1 - (u.msgs.length + u.reserved.length)

/-- The waiter records of a core in use (QUE_UNIT.WREC, R224). -/
def waiterRecords (u : Que) : Nat := (u.qs.map (fun p => p.2.waiters.length + p.2.reserved.length)).sum

/-- The first free entry of the ring at or after `tail`. -/
def Queue.freeSlot (u : Queue) : Nat :=
  let n := u.depth + 1
  let busy (i : Nat) : Bool := u.msgs.any (fun m => m.slot == i) || u.reserved.any (fun r => r.1 == i)
  match (List.range n).find? (fun i => !busy ((u.tail + i) % n)) with
  | some i => (u.tail + i) % n
  | none => 0

/-- R217: where entry `i` of a ring lies. -/
def Queue.slotOff (u : Queue) (i : Nat) : Nat := u.base * 64 + i * ((u.esize + 1) * 16)

/-- R231, R232: sets event flags of a core; a flag under the mask of a blocked EVWAIT ends its wait. -/
def setFlags (s : State) (c : Nat) (m : W64) : State :=
  let s := modQue s c (fun u => { u with flags := u.flags ||| m })
  let s := count s c 0x6E (countBits 64 m.toNat) bareSample
  let k := s.core c
  match k.ctl.st, k.ctl.blk with
  | .running, .evwait d mask =>
    if k.que.flags &&& mask = 0 then s
    else
      let s := count s c 0x6F 1
      modCtl s c (fun t => { t with
        blk := .none, pc := t.pc + 4,
        regs := if d.val = 0 then t.regs else mset t.regs d.val (k.que.flags &&& mask) })
  | _, _ => s

/-- Table 7.2: the receive word of a message. -/
def recvWord (m : QEntry) : W64 :=
  BitVec.ofNat 64 ((if m.info.mc then m.info.chan * 2 ^ 48 else 0) + m.info.spart * 2 ^ 41 + m.info.score * 2 ^ 30 +
    m.info.sdev * 2 ^ 16 + m.len * 2 ^ 8 + (if m.info.sys then 8 else 0) + (if m.info.mc then 4 else 0) +
    (if m.info.endm then 2 else 0) + 1)

def updMember (m : List Member) (k : Nat) (st : MsgSt) : List Member :=
  m.mapIdx (fun i x => if i = k then { x with st := st } else x)

/-- Sets how far member `k` of the message in flight of a path has come. -/
def setMember (s : State) (p : SendPath) (k : Nat) (st : MsgSt) : State :=
  { s with sends := s.sends.map (fun f =>
      if f.path = p then { f with send := { f.send with members := updMember f.send.members k st } } else f) }

def sendOf (s : State) (p : SendPath) : Option Send := (s.sends.find? (fun f => f.path = p)).map (·.send)

def dropSend (s : State) (p : SendPath) : State := { s with sends := s.sends.filter (fun f => f.path ≠ p) }

/-! ### Requests to other devices (R296) -/

/-- Bit 63 of a global address: a request in remote form. -/
def isRemote (a : W64) : Bool := a.toNat.testBit 63

/-- The device that a remote address names. -/
def remoteDev (a : W64) : Nat := bits a.toNat 62 49

/-- The address at the remote device. -/
def remoteAddr (a : W64) : Nat := bits a.toNat 48 0

/-- R296: a request of core `c` in remote form for another device leaves with the fields that `f` gives it; `n` is the length of the
access. -/
def sendRemote (s : State) (c : Nat) (a : W64) (opc n : Nat) (f : LinkPkt → LinkPkt) : State :=
  if isRemote a && remoteDev a != s.devId then
    emit s (.toDev (f (devPkt s (partNum s c) c opc (remoteDev a) (remoteAddr a))) n)
  else s

/-- R224: an entry of a queue that has become free is reserved for its oldest waiter, and a grant is sent (to another device as a
GRANT packet, Table 9.4). -/
def grantNext (s : State) (c q slot : Nat) : State :=
  match ((s.core c).que.q q).waiters with
  | [] => s
  | w :: ws =>
    let s := modQ s c q (fun u => { u with waiters := ws, reserved := u.reserved ++ [(slot, w)] })
    match w with
    | .path _ _ => s
    | .ext sdev rtag => emit s (.toDev { devPkt s (partNum s c) 0x7FF 5 sdev (32 * c + q) with rtag := rtag } 0)

/-- R230: an entry of a queue becomes free: where the queue was full and has no waiter, it is so no more, which is counted; else the
entry passes to the oldest waiter. `u` is the queue before. -/
def freeEntry (s : State) (c q : Nat) (u : Queue) (slot : Nat) : State :=
  grantNext (if u.freeCount = 0 ∧ u.waiters = [] then count s c 0x69 1 (queSample .none_ false q 0 0 0 0) else s) c q slot

/-- R223, R230: removes the oldest message of a queue and returns its credit. -/
def popMsg (s : State) (c q : Nat) : State :=
  let u := (s.core c).que.q q
  match u.msgs with
  | [] => s
  | m :: ms => freeEntry (modQ s c q (fun u => { u with msgs := ms })) c q u m.slot

/-- R224, R253: withdraws the record of a sender at a queue; an entry reserved for it goes to the next waiter. -/
def unwait (s : State) (c q : Nat) (w : Sender) : State :=
  let u := (s.core c).que.q q
  match u.reserved.find? (fun r => r.2 = w) with
  | some r => freeEntry (modQ s c q (fun u => { u with reserved := u.reserved.filter (fun x => x.2 ≠ w) })) c q u r.1
  | none => modQ s c q (fun u => { u with waiters := u.waiters.filter (fun x => x ≠ w) })

/-- Counts a final refusal at the owning core and captures the first (R222, Tables 7.15 and 7.16). -/
def countRefusal (s : State) (c status q spart score sdev : Nat) (evp : Bool) : State :=
  let s := modQue s c (fun u => { u with
    refuse := satInc u.refuse 1,
    rlog := if u.rlog.v then u.rlog else ⟨true, status, q, spart, evp, sdev⟩ })
  count s c 0x67 1 (queSample .none_ false q score sdev status 0)

/-- R227: the oldest message of queue `q` is delivered to the control unit: its bytes to offset `dst`, the receive
word to register `d`. An uncorrectable word of the ring is read as Table 5.4 states for the queue unit; its capture and offset
are answered for the fault that follows. `lat` that a QRECV takes it, whose latency is sampled. -/
def deliverMsg (s : State) (c q dst : Nat) (d : Reg) (lat : Bool) : State × Option (Nat × Nat) :=
  let u := (s.core c).que.q q
  match u.msgs with
  | [] => (s, none)
  | m :: _ =>
    let (s, bs, bad) := spRead s c (u.slotOff m.slot) (m.len * 16) 5
    let s := (spWrite s c dst bs 5).1
    let s := popMsg s c q
    let s := count s c 0x62 1 (queSample .here lat q m.info.score m.info.sdev 0 m.len)
    let s := modCtl s c (fun t => { t with regs := if d.val = 0 then t.regs else mset t.regs d.val (recvWord m) })
    (s, bad.head?.map (fun w => (captureOf s c w 5, w)))

/-! ### STREAM_IN (R169) -/

/-- The bytes of LEN not yet put into a burst. -/
def streamLeft (e : DmaEng) (d : DmaDesc) : Nat := d.len - e.off

/-- R169: the engine puts what it has collected into bursts: whole bursts, the rest of LEN, and, once the stream has
closed or a halt ends it, what is left. -/
def streamBursts (fuel : Nat) (e : DmaEng) (d : DmaDesc) : DmaEng :=
  match fuel with
  | 0 => e
  | fuel + 1 =>
    let want := min d.burst (streamLeft e d)
    let have_ := min e.buf.length (streamLeft e d)
    let n := if want ≤ have_ then want else if (e.eos || e.halting) then have_ else 0
    if n = 0 ∨ 8 ≤ e.bursts.length ∨ e.bad.isSome then e
    else
      let b : Burst := {
        k := e.nextK, len := n, src := 0, dst := d.dst + BitVec.ofNat 64 e.off,
        data := some (e.buf.take n), poison := e.bufPoison.filter (fun w => decide (w < n)), status := none }
      streamBursts fuel { e with
        nextK := e.nextK + 1, off := e.off + n, buf := e.buf.drop n,
        bufPoison := (e.bufPoison.filter (fun w => decide (n ≤ w))).map (fun w => w - n), bursts := e.bursts ++ [b] } d

/-- R169: a change of what DMA engine `e` has collected, put into bursts; those for another device leave. -/
def streamPut (s : State) (c e : Nat) (h : DmaEng → DmaEng) (d : DmaDesc) : State :=
  let k0 := ((s.core c).eng e).nextK
  let s := modDma s c e (fun g => streamBursts 16 (h g) d)
  (((s.core c).eng e).bursts.filter (fun b => decide (k0 ≤ b.k))).foldl (fun s b =>
    sendRemote s c b.dst 1 b.len (fun k => { carry k (b.data.getD []) b.poison with wtag := d.wtag })) s

/-- The descriptor that DMA engine `e` executes: the first of its flights. -/
def curDma (k : Core) (e : Nat) : Option (Flight × DmaOp × DmaDesc) :=
  match engFlights k (2 + e) with
  | f :: _ =>
    match f.body with
    | .dma _ op d => some (f, op, d)
    | _ => none
  | [] => none

/-- The most messages that a queue can hold, and one more step (R217). -/
def queueFuel : Nat := 257

/-- R169: the engine that binds queue `q` consumes its messages, in arrival order, until LEN bytes are collected or a
message marked END closes the stream. The rest of a message past LEN is discarded. -/
def streamPump (fuel : Nat) (s : State) (c e : Nat) : State :=
  match fuel with
  | 0 => s
  | fuel + 1 =>
    let g := (s.core c).eng e
    match g.bound, curDma (s.core c) e with
    | some q, some (f, .streamIn, d) =>
      let u := (s.core c).que.q q
      match u.msgs with
      | [] => streamPut s c e id d
      | m :: _ =>
        if g.eos ∨ g.halting ∨ g.bad.isSome ∨ d.len ≤ g.off + g.buf.length then streamPut s c e id d
        else
          let room := d.len - (g.off + g.buf.length)
          let (s, bs, bad) := spRead s c (u.slotOff m.slot) (m.len * 16) 6
          let s := popMsg s c q
          let s := count s c 0x5F 1 (engSample f false 0 0)
          let s := streamPut s c e (fun g =>
            { g with
              buf := g.buf ++ bs.take room
              bufPoison := g.bufPoison ++ (bad.map (fun w => g.buf.length + (w - u.slotOff m.slot)))
              eos := g.eos || m.info.endm
              trunc := g.trunc || decide (room < m.len * 16) }) d
          streamPump fuel s c e
    | _, _ => s

/-- The DMA engine whose STREAM_IN binds queue `q` (QUE_qSTAT.BOUND). -/
def boundBy (k : Core) (q : Nat) : Option Nat := (List.range 4).find? (fun e => (k.eng e).bound == some q)

/-! ### Memory faults of a core after an engine's read (Table 5.4) are raised by `coreFault` below -/

/-- R148, R227: the QRECV that waits for queue `q` takes its oldest message under the store rule: while the range of the message's
bytes stalls, the instruction goes on waiting, for the scoreboard, and issues again. The second part is the capture and offset of
an uncorrectable ring word. -/
def serveRecv (s : State) (c q dst : Nat) (d : Reg) : State × Option (Nat × Nat) :=
  match ((s.core c).que.q q).msgs with
  | [] => (s, none)
  | m :: _ =>
    if sbWriteStall (s.core c) dst (m.len * 16) then (modCtl s c (fun t => { t with blk := .sb }), none)
    else
      let (s, bad) := deliverMsg s c q dst d true
      (modCtl s c (fun t => { t with blk := .none, pc := t.pc + 4 }), bad)

/-- Stores a message in an entry of a queue, sets its event flag and wakes its consumer (R218, R223, R227, R231). The
second part is the capture and offset of an uncorrectable ring word that a waking QRECV met. -/
def storeMsg (s : State) (c q slot : Nat) (bs : Bytes) (poison : List Nat) (info : MsgMeta) :
    State × Option (Nat × Nat) :=
  let u := (s.core c).que.q q
  let s := (spWriteP s c (u.slotOff slot) bs poison 5).1
  let s := modQ s c q (fun u => { u with
    msgs := u.msgs ++ [⟨slot, bs.length / 16, info⟩], tail := (slot + 1) % (u.depth + 1) })
  let w := queSample .none_ false q info.score info.sdev 0 (bs.length / 16)
  let s := count s c 0x61 1 w
  let s := if q = 31 then count s c 0x77 1 w else s
  let s := if ((s.core c).que.q q).freeCount = 0 then count s c 0x68 1 w else s
  let s := if u.evt then setFlags s c (BitVec.ofNat 64 (2 ^ q)) else s
  let k := s.core c
  match boundBy k q with
  | some e => (streamPump queueFuel s c e, none)
  | none =>
    match k.ctl.st, k.ctl.blk with
    | .running, .qrecv d q' dst => if q' = q then serveRecv s c q dst d else (s, none)
    | _, _ => (s, none)

/-- The outcome of a message at its destination (R222 to R224). -/
inductive Arrival where
  | final (status : Nat)
  | nocredit (recorded : Bool)
  deriving DecidableEq, Repr

/-- R222: a message is refused finally with a status, and counted and captured at its destination; which of several refusals is given
is in `arrive`. DEDUCED, log entry 21. -/
def refuseWith (s : State) (c q : Nat) (info : MsgMeta) (st : Nat) : State × Arrival × Option (Nat × Nat) :=
  (countRefusal s c st q info.spart info.score info.sdev false, .final st, none)

/-- R215, R221 to R224: a message of sender `w` reaches queue `q` of core `c`. A message for which an entry is reserved
is stored there without a further check. One for a core under reset is discarded and counted in its class: that of the sender's
partition, or for a launch message of the target's (R362). DEDUCED, log entry 21. -/
def arrive (s : State) (c q : Nat) (bs : Bytes) (poison : List Nat) (info : MsgMeta) (w : Option Sender) :
    State × Arrival × Option (Nat × Nat) :=
  if !present s c then (s, .final 2, none)
  else if (s.core c).crst then
    (dropAtCore s c (if !info.sys then some info.spart else if q = 31 then partOf s c else none) (if info.sdev = s.devId then info.score else 0x7FF), .final 6, none)
  else
    let u := (s.core c).que.q q
    match u.reserved.find? (fun r => some r.2 = w) with
    | some r =>
      let s := modQ s c q (fun u => { u with reserved := u.reserved.filter (fun x => some x.2 ≠ w) })
      let (s, bad) := storeMsg s c q r.1 bs poison info
      (s, .final 0, bad)
    | none =>
      if 30 ≤ q ∧ !info.sys then refuseWith s c q info 3
      else if !info.sys && !admits s c u.scope u.devlo u.devhi info.sdev info.spart then refuseWith s c q info 3
      else if !u.en then refuseWith s c q info 4
      else if (u.esize + 1) * 16 < bs.length then refuseWith s c q info 5
      else if 0 < u.freeCount then
        let (s, bad) := storeMsg s c q u.freeSlot bs poison info
        (s, .final 0, bad)
      else
        match w with
        | none => (s, .nocredit false, none)
        | some w =>
          if waiterRecords (s.core c).que < 64 then
            (modQ s c q (fun u => { u with waiters := u.waiters ++ [w] }), .nocredit true, none)
          else (s, .nocredit false, none)

/-! ### Locks (R245 to R248) -/

def State.lock (s : State) (i : Nat) : Lock := mget Lock.reset s.locks i
def setLock (s : State) (i : Nat) (l : Lock) : State := { s with locks := mset s.locks i l }

/-- FLD_LOCKi (Table 7.23). -/
def lockWord (l : Lock) : W64 :=
  match l.st with
  | .free => BitVec.ofNat 64 (if l.waiters = [] then 0 else 2 ^ 15)
  | .held o => BitVec.ofNat 64 (2 ^ 30 + o.dev * 2 ^ 16 + (if l.waiters = [] then 0 else 2 ^ 15) + o.part * 2 ^ 11 + o.core)
  | .abandoned => BitVec.ofNat 64 (2 ^ 31 + (if l.waiters = [] then 0 else 2 ^ 15))

/-- The lock unit answers a requester: a core of this device, or one of another device over the links (R251). -/
def lockReply (s : State) (who : LockWho) (status : Nat) (v : W64) : State :=
  if who.dev = s.devId then { s with lockReplies := s.lockReplies ++ [⟨who.core, status, v⟩] }
  else emit s (.answer who.dev who.core status (natBytes 8 v.toNat))

/-- R246, R247: lock `i` passes to its oldest waiter with `status`, or takes the state `st` when it has none. -/
def lockPass (s : State) (i status : Nat) (st : LockState) : State :=
  let l := s.lock i
  match l.waiters with
  | [] => setLock s i ⟨st, []⟩
  | w :: ws =>
    let l' : Lock := ⟨.held w, ws⟩
    lockReply (setLock s i l') w status (lockWord l')

/-- R247: the owner of lock `i` has been reset, or its parity has failed: the lock is ABANDONED, and its oldest waiter
obtains it at once. -/
def lockAbandon (s : State) (i : Nat) : State := lockPass s i 8 .abandoned

/-- R247: a reset covers the requesters that `gone` names: their waits are removed, and their locks abandoned. -/
def locksLost (s : State) (gone : LockWho → Bool) : State :=
  let s := { s with locks := s.locks.map (fun (p : Nat × Lock) => (p.1, { p.2 with waiters := p.2.waiters.filter (fun w => !gone w) })) }
  (s.locks.map (·.1)).foldl (fun s i =>
    match (s.lock i).st with
    | .held o => if gone o then lockAbandon s i else s
    | _ => s) s

/-- R253: a LOCK_ACQ that waits is withdrawn. -/
def lockWithdraw (s : State) (c : Nat) : State :=
  { s with locks := s.locks.map (fun (p : Nat × Lock) => (p.1,
      { p.2 with waiters := p.2.waiters.filter (fun w => !(w.dev == s.devId && w.core == c)) })) }

/-! ### The end of engine work by a halt, a fault or a reset (R131, R171, R198, R253) -/

/-- The queue of this device that a member copy is for. DEDUCED, log entry 31. -/
def localDest (s : State) (d : MsgDest) : Option (Nat × Nat) :=
  match d with
  | .local_ c q => some (c, q)
  | .remote dev gqid => if dev = s.devId then some (gqid / 32, gqid % 32) else none
  | .fwd _ _ => none

/-- R253: withdraws the message in flight of a path where every member that is not final waits for credit; answers
whether it was withdrawn. A message in transmission is marked, to be withdrawn at its first NOCREDIT. -/
def withdraw (s : State) (p : SendPath) : State × Bool :=
  match sendOf s p with
  | none => (s, false)
  | some f =>
    let inTransit := f.members.any (fun m => m.st = .sent || m.st = .granted ||
      (match m.st with | .answered _ => true | _ => false))
    if inTransit then
      ({ s with sends := s.sends.map (fun x => if x.path = p then { x with send := { x.send with halting := true } } else x) }, false)
    else
      let s := (List.range f.members.length).foldl (fun s k =>
        match f.members[k]? with
        | some m =>
          match m.st, localDest s m.dest with
          | .waiting, some (c, q) => unwait s c q (.path p k)
          | _, _ => s
        | none => s) s
      (dropSend s p, true)

/-- Ends a flight without its being performed (R190): a discarded command counts as complete and sets ERR. -/
def discardFlight (s : State) (c : Nat) (f : Flight) : State := modCore s c (fun k => finishFlight k f true)

/-- The partition and core that the packets of a path name (Table 9.4). -/
def pathSource (s : State) (p : SendPath) (f : Send) : Nat × Nat :=
  match p with
  | .ctl c => (partNum s c, c)
  | .que c => (partNum s c, c)
  | .dma c _ => (partNum s c, c)
  | .fn _ _ => (0, 0x7FF)
  | .fwd _ _ =>
    match f.orig with
    | some i => (i.spart, i.score)
    | none => (0, 0x7FF)

/-- R225, R241, R296: a member copy for another device leaves: a queue message, or a copy for a forward device with the devices that it
has crossed. A member that is final already sends nothing. -/
def sendMember (s : State) (p : SendPath) (f : Send) (m : Member) : State :=
  match m.st with
  | .sent | .granted =>
    let (part, core) := pathSource s p f
    match m.dest with
    | .local_ _ _ => s
    | .remote dev gqid =>
      emit s (.toDev { carry (devPkt s part core 4 dev gqid) f.bytes f.poison with endm := f.endm } f.bytes.length)
    | .fwd dev ch =>
      emit s (.toDev { carry (devPkt s part core 8 dev ch) f.bytes f.poison with
        endm := f.endm, subop := BitVec.ofNat 8 (f.crossed + 1) } f.bytes.length)
  | _ => s

/-- The instruction that sends on a path: QSEND, or the X instruction of the command that its engine executes. -/
def pathCause (s : State) (p : SendPath) : Cause :=
  let x (c eng : Nat) : Cause := match engFlights (s.core c) eng with
    | f :: _ => .x f.pc
    | [] => .none_
  match p with
  | .ctl _ => .here
  | .que c => x c 6
  | .dma c e => x c (2 + e.val)
  | .fn _ _ => .none_
  | .fwd _ _ => .none_

/-- The sampling data of a send on a path to destination `d`; the latency of a QSEND is sampled. -/
def sendSample (s : State) (p : SendPath) (d : Option MsgDest) (status len : Nat) : Sample :=
  let lat : Bool := match p with
    | .ctl _ => true
    | _ => false
  match d with
  | some (.local_ c q) => queSample (pathCause s p) lat q c s.devId status len
  | some (.remote dev g) => queSample (pathCause s p) lat (g % 32) (g / 32) dev status len
  | some (.fwd dev _) => queSample (pathCause s p) lat 0 0 dev status len
  | none => queSample (pathCause s p) lat 0 0 0 status len

/-- An event of the core of a path (Table 18.1), where the path has one. -/
def countPath (s : State) (p : SendPath) (code : Nat) (d : Option MsgDest) (status len : Nat) : State :=
  match p with
  | .ctl c => count s c code 1 (sendSample s p d status len)
  | .que c => count s c code 1 (sendSample s p d status len)
  | .dma c _ => count s c code 1 (sendSample s p d status len)
  | .fn _ _ => s
  | .fwd _ _ => s

/-- A message goes out on a path (R225). -/
def startSend (s : State) (p : SendPath) (f : Send) : State :=
  let s := countPath s p 0x60 (f.members.head?.map (·.dest)) 0 (f.bytes.length / 16)
  let s := f.members.foldl (fun s m => sendMember s p f m) s
  { s with sends := s.sends ++ [⟨p, f⟩] }

/-- The message of a send with its members on their way. -/
def mkSend (bs : Bytes) (endm : Bool) (d : Dest) (poison : List Nat) (dests : List MsgDest) : Send :=
  { bytes := bs, endm := endm, mc := (match d with | .mc _ => true | _ => false),
    chan := (match d with | .mc ch => ch | _ => 0), sys := false, poison := poison, halting := false, orig := none, crossed := 0,
    members := dests.map (fun x => ⟨x, .sent⟩) }

/-! ### The end of a DMA descriptor (R166, R168 to R171) -/

/-- The bytes of a descriptor. -/
def dmaTotal (d : DmaDesc) : Nat := d.rows * d.len

/-- R166, R168: the residue of a descriptor, cut to 32 bits. DEDUCED, log entry 27. -/
def dmaResidue (g : DmaEng) (d : DmaDesc) : Nat := min (dmaTotal d - g.done) 0xFFFFFFFF

/-- R166: the notification of a descriptor that ended with `status`. -/
def notifyBytes (d : DmaDesc) (status residue : Nat) : Bytes :=
  natBytes 8 d.ndata.toNat ++ natBytes 1 status ++ natBytes 3 0 ++ natBytes 4 residue

/-- A DMA engine with no descriptor: LAST, RESIDUE and COUNT stay. -/
def dmaClear (g : DmaEng) : DmaEng := { DmaEng.reset with last := g.last, residue := g.residue, errcnt := g.errcnt }

/-- The tag of a descriptor completes: LAST, RESIDUE and COUNT change together (Table 5.24), and its engine is ready for
the next descriptor. -/
def dmaFinish (s : State) (c e : Nat) (f : Flight) (d : DmaDesc) (status : Nat) : State :=
  let s := modDma s c e (fun g =>
    { DmaEng.reset with
      last := status
      residue := if status = 0 then 0 else dmaResidue g d
      errcnt := if status = 0 then g.errcnt else satInc g.errcnt 1 })
  let w := engSample f false status ((s.core c).eng e).residue
  let s := count s c 0x50 1 w
  let s := if status = 1 then count s c 0x57 1 w else if status = 0 then s else count s c 0x58 1 w
  modCore s c (fun k => finishFlight k f (status != 0))

/-- R168 to R171: the status with which a descriptor whose bursts have all returned ends, if it ends now. -/
def dmaStatus (g : DmaEng) (op : DmaOp) (d : DmaDesc) : Option Nat :=
  if g.bursts ≠ [] ∨ g.endStatus.isSome then none
  else
    match g.bad with
    | some st => some st
    | none =>
      match op with
      | .streamIn =>
        if g.off = d.len then some (if g.trunc then 3 else 0)
        else if g.eos ∧ g.buf = [] then some 1
        else if g.halting ∧ g.buf = [] then some 2
        else none
      | .streamOut => none
      | _ =>
        if g.row = d.rows then some 0
        else if g.halting then some 2
        else none

/-- R166: a descriptor ends with a status: its binding ends, and with NTF its notification goes out, else its tag
completes. -/
def dmaClose (s : State) (c e : Nat) (f : Flight) (d : DmaDesc) (status : Nat) : State :=
  let s := modDma s c e (fun g => { g with endStatus := some status, bound := none })
  let s := modCore s c (fun k => sbReleaseReads k f.id)
  if d.ntf then
    let g := (s.core c).eng e
    let dev := d.ndev.toNat % 2 ^ 14
    let rem := d.ndev.toNat.testBit 15
    let dst : MsgDest := if rem ∧ dev ≠ s.devId then .remote dev d.nq else .local_ (d.nq / 32) (d.nq % 32)
    let s := modDma s c e (fun g => { g with noting := true })
    let s := count s c 0x5D 1 (engSample f false status (if status = 0 then 0 else dmaResidue g d))
    startSend s (.dma c ⟨e % 4, Nat.mod_lt _ (by decide)⟩)
      (mkSend (notifyBytes d status (if status = 0 then 0 else dmaResidue g d)) false (.uni d.nq dev rem) [] [dst])
  else dmaFinish s c e f d status

/-- R171, R149: what a halt does to DMA engine `e`: a descriptor begun sends no further burst and reads no more, and ends HALTED once
its bursts have returned; a STREAM_OUT message that waits for credit is withdrawn (R253). DEDUCED, log entry 33. -/
def dmaHalt (s : State) (c e : Nat) : State :=
  match curDma (s.core c) e with
  | none => modDma s c e dmaClear
  | some (f, op, d) =>
    if ((s.core c).eng e).endStatus.isSome then s
    else
      let s :=
        if op == .streamIn then streamPut s c e (fun g => { g with halting := true }) d
        else modDma s c e (fun g => { g with halting := true })
      let s := modCore s c (fun k => sbReleaseReads k f.id)
      if op == .streamOut then
        match withdraw s (.dma c ⟨e % 4, Nat.mod_lt _ (by decide)⟩) with
        | (s, true) => dmaClose s c e f d 2
        | (s, false) => s
      else
        match dmaStatus ((s.core c).eng e) op d with
        | some st => dmaClose s c e f d st
        | none => s

/-- Whether a lock command names a lock of another device. -/
def lockAway (s : State) (d : LockDesc) : Bool := d.ldev.toNat.testBit 15 && d.ldev.toNat % 2 ^ 14 != s.devId

/-- R131, R171, R198, R253: the engines of core `c` finish what they have begun and discard what they have not. A message
or lock request that waits is withdrawn; whether a LOCK_ACQ at another device waits there is open (log entry 33). The ramp request of
a PSTREAM discarded while it waits stands (log entry 86). -/
def enginesHalt (s : State) (c : Nat) : State :=
  let s := (s.core c).flights.foldl (fun s f => if f.begun then s else discardFlight s c f) s
  let s := (List.range 4).foldl (fun s e => dmaHalt s c e) s
  let s := match withdraw s (.que c) with
    | (s, true) =>
      match engFlights (s.core c) 6 with
      | f :: _ => discardFlight s c f
      | [] => s
    | (s, false) => s
  match engFlights (s.core c) 7 with
  | f :: _ =>
    match f.body with
    | .lock .acq d =>
      if lockAway s d then
        let (waits, s) := drawBool s
        if waits then discardFlight s c f else s
      else if s.locks.any (fun p => p.2.waiters.any (fun w => w.dev == s.devId && w.core == c)) then
        discardFlight (lockWithdraw s c) c f
      else s
    | _ => s
  | [] => s

/-! ### Faults (R192 to R195) -/

/-- A fault as its raiser knows it (Tables 6.8, 6.9). -/
structure FaultInfo where
  code   : Nat
  engine : Nat
  imp    : Bool
  tag    : Nat
  insn   : W32
  detail : Nat
  addr   : W64
  ga     : W64
  gb     : W64
  deriving DecidableEq, Repr

def ctlStateCode : CtlState → Nat
  | .idle => 0
  | .running => 1
  | .halted => 2
  | .faulted => 3
  | .ending => 4

/-- Table 6.9: the 64 bytes of a fault record. DEDUCED, log entry 25. -/
def frecBytes (r : FaultRec) : Bytes :=
  natBytes 1 r.code ++ natBytes 1 r.engine ++ natBytes 1 (1 + (if r.imp then 2 else 0) + (if r.more then 4 else 0)) ++
  natBytes 1 r.tag ++ natBytes 4 r.pc ++ natBytes 4 r.insn.toNat ++ natBytes 4 r.detail ++ natBytes 8 r.echo.toNat ++
  natBytes 8 r.addr.toNat ++ natBytes 2 r.core ++ natBytes 1 r.part ++ natBytes 1 r.state ++ natBytes 4 0 ++
  natBytes 8 r.ga.toNat ++ natBytes 8 r.gb.toNat ++ natBytes 8 0

/-- A message of the device itself, not held for credit (R192, R222, R461): whether it was stored. -/
def systemMsg (s : State) (c q : Nat) (bs : Bytes) : State × Bool :=
  let info : MsgMeta := { spart := 0, score := 0x7FF, sdev := s.devId, sys := true, mc := false, chan := 0, endm := false }
  match arrive s c q bs [] info none with
  | (s, .final 0, _) => (s, true)
  | (s, _, _) => (s, false)

/-- R363: what has become of the launch that core `c` runs goes to the launch engine. -/
def reportLaunch (s : State) (c : Nat) (rep : LaunchRep) : State :=
  match (s.core c).ctl.launchOn with
  | none => s
  | some (src, seq) =>
    modCtl { s with reports := s.reports ++ [⟨c, src, seq, rep⟩] } c (fun t => { t with launchOn := none })

/-- R192, R195: a fault of core `c`. The first fault of a core since its reset writes the record, stops the core,
ends its engines' unbegun work, notifies queue 30 of the designated core, reports to the launch engine and raises the
core-fault event of Table 16.13. A fault while FAULTED sets MORE alone. DEDUCED, log entry 25. -/
def coreFault (s : State) (c : Nat) (f : FaultInfo) : State :=
  let k := s.core c
  match k.ctl.st, k.ctl.frec with
  | .faulted, some r => modCtl s c (fun t => { t with frec := some { r with more := true } })
  | _, _ =>
    let pc : W64 := match k.ctl.blk with
      | .sync _ => if f.imp then k.ctl.pc + 4 else k.ctl.pc
      | _ => k.ctl.pc
    let s := modCtl s c (fun t => { t with pc := pc })
    let r : FaultRec := {
      code := f.code, engine := f.engine, imp := f.imp, more := false, tag := f.tag,
      pc := pc.toNat % 2 ^ 21, insn := f.insn, detail := f.detail, echo := echoOf s c, addr := f.addr, core := c,
      part := partNum s c, state := ctlStateCode k.ctl.st, ga := f.ga, gb := f.gb }
    let s := match k.ctl.blk with
      | .qsend _ _ => (withdraw s (.ctl c)).1
      | _ => s
    let s := modCtl s c (fun t => { t with
      st := .faulted, blk := .none, frec := some r })
    let s := reportLaunch s c (.faulted f.code)
    let s := enginesHalt s c
    let s := if k.ctl.fdestV then
        match systemMsg s k.ctl.fdest 30 (frecBytes r) with
        | (s, true) => s
        | (s, false) => modCtl s c (fun t => { t with fnoteDrop := satInc t.fnoteDrop 1 })
      else s
    raiseRec s 0x1001 4 1 c (partOf s c) r.echo ((List.range 6).map (fun i => leAt (frecBytes r) (4 * i) 4))

/-- The instruction word at the PC of core `c`: from the instruction buffer where it holds the PC's line (R178), else from the
scratchpad. DEDUCED, log entry 25. -/
def fetchWord (s : State) (c : Nat) : W32 :=
  let k := (s.core c).ctl
  let pc := k.pc.toNat % 2 ^ 21
  match mfind k.ibuf (pc / 64 % 256) with
  | some (tag, bs) =>
    if tag = pc / 2 ^ 14 then BitVec.ofNat 32 (leAt bs (pc % 64) 4) else BitVec.ofNat 32 (leNat (spBytes s c pc 4))
  | none => BitVec.ofNat 32 (leNat (spBytes s c pc 4))

/-- Tables 5.4, 6.8, 6.9: the MEMORY fault of a core whose engine has met an uncorrectable word, with its capture and offset. It is
imprecise: INSN is the word at PC. DEDUCED, log entry 51. -/
def memFault (s : State) (c eng tag : Nat) (m : Nat × Nat) : State :=
  coreFault s c { code := 7, engine := eng, imp := true, tag := tag, insn := fetchWord s c, detail := m.1,
                  addr := BitVec.ofNat 64 m.2, ga := 0, gb := 0 }

/-- R190: a command of an engine completes; where it met an uncorrectable word, the core then faults (Table 5.4). -/
def complete (s : State) (c : Nat) (f : Flight) (err : Bool) : State :=
  let s := modCore s c (fun k => finishFlight k f err)
  match f.memDetail with
  | none => s
  | some m => memFault s c (engOf f.body) f.iss.tag.val m

/-! ### Statuses of requests -/

/-- The statuses with which a request is answered (R51 to R54, R152, R159, R277, R573). -/
inductive RSt where
  | ok | unmapped | denied | size | window | uncorrected | destReset | aborted
  deriving DecidableEq, Repr

/-- Table 5.6. SIZE cannot occur on a burst. -/
def RSt.dma : RSt → Nat
  | .ok => 0
  | .unmapped => 4
  | .denied => 5
  | .size => 5
  | .window => 6
  | .uncorrected => 7
  | .destReset => 8
  | .aborted => 9

/-- Table 7.1. -/
def RSt.que : RSt → Nat
  | .ok => 0
  | .unmapped => 2
  | .denied => 3
  | .size => 3
  | .window => 0x0C
  | .uncorrected => 0x0B
  | .destReset => 6
  | .aborted => 7

/-- Table 6.8: the fault code of an error completion of a global access. -/
def RSt.fault : RSt → Nat
  | .ok => 0
  | .unmapped => 4
  | .denied => 5
  | .size => 5
  | .window => 6
  | .uncorrected => 7
  | .destReset => 8
  | .aborted => 9

/-- A status as a link answer names it: the codes of Table 7.1 (R296). -/
def RSt.ofQue (n : Nat) : RSt :=
  if n = 0 then .ok else if n = 2 then .unmapped else if n = 3 then .denied else if n = 6 then .destReset
  else if n = 7 then .aborted else if n = 0x0B then .uncorrected else if n = 0x0C then .window else .aborted

/-- R51, R53, R54, R551: each refusal is counted once, under the status it receives. -/
def countStatus (s : State) (part : Option Nat) (r : RSt) : State :=
  match r with
  | .unmapped =>
    { s with
      cntUnmapped := s.cntUnmapped + 1
      partUnmapped := match part with
        | some p => mset s.partUnmapped p (mget 0 s.partUnmapped p + 1)
        | none => s.partUnmapped }
  | .denied => { s with cntDenied := s.cntDenied + 1 }
  | .size => { s with cntSize := s.cntSize + 1 }
  | _ => s

/-! ### Atomics (R249) -/

/-- R249: the new word of an atomic of `n` bytes. -/
def atomicNew (op : LockOp) (w64 : Bool) (old opnd cmpv : Nat) : Nat :=
  let w := if w64 then 64 else 32
  let m := 2 ^ w
  let old := old % m
  let x := opnd % m
  let sg (v : Nat) : Int := if 2 ^ (w - 1) ≤ v then (v : Int) - m else v
  match op with
  | .add => (old + x) % m
  | .min => if sg old ≤ sg x then old else x
  | .max => if sg old ≤ sg x then x else old
  | .minu => min old x
  | .maxu => max old x
  | .swap => x
  | .cas => if old = cmpv % m then x else old
  | _ => old

/-- The operation code of SPD_WIN_LOG0.OP (Table 5.14). -/
def memOpCode : MemOp → Nat
  | .read => 0
  | .write _ _ => 1
  | .atomic _ _ _ _ => 2

/-! ### Requests at a scratchpad (R157 to R161, R249, R250) -/

/-- SPD_WIN_LOG0 and SPD_WIN_LOG1 as register words (Tables 5.14, 5.15). -/
def winLog0 (g : WinLog) : Nat :=
  (if g.v then 2 ^ 31 else 0) + g.op * 2 ^ 28 + g.cause * 2 ^ 25 + g.spart * 2 ^ 21 + g.sdev
def winLog1 (g : WinLog) : Nat := g.off

/-- What a scratchpad answers: a status, the data read or the old value, and whether it is poisoned. -/
structure SpAns where
  st   : RSt
  data : Bytes
  poison : List Nat
  deriving DecidableEq, Repr

/-- R250: an atomic on the word at `off`: one read-modify-write; a poisoned word is left as it is. -/
def spAtomic (s : State) (c off : Nat) (op : LockOp) (w64 : Bool) (opnd cmpv : W64) : State × SpAns :=
  let n := if w64 then 8 else 4
  let (s, bs, bad) := spRead s c off n 5
  if bad ≠ [] then (s, ⟨.uncorrected, [], bad⟩)
  else
    let s := count s c 0x4F 1 (memSample .none_ false off n 6)
    let s := (spWrite s c off (natBytes n (atomicNew op w64 (leNat bs) opnd.toNat cmpv.toNat)) 5).1
    (s, ⟨.ok, bs, []⟩)

/-- A request admitted to a scratchpad is performed (R152, R153, R250). DEDUCED, log entry 80. -/
def spPerform (s : State) (c off size : Nat) (op : MemOp) (port : Nat) : State × SpAns :=
  match op with
  | .read =>
    let (s, bs, bad) := spRead s c off size port
    (s, ⟨if bad = [] then .ok else .uncorrected, bs, bad.map (fun w => w - off)⟩)
  | .write data poison =>
    let (s, ok) := spWriteP s c off data poison port
    (s, ⟨if ok then .ok else .uncorrected, [], []⟩)
  | .atomic op w64 opnd cmpv => spAtomic s c off op w64 opnd cmpv

/-- R157: whether window `i` passes every check of a request in remote form. -/
def winPasses (s : State) (c i : Nat) (r : WinReq) : Bool :=
  let w := mget Window.reset (s.core c).spd.wins i
  let right := match r.op with
    | .read => w.r
    | .write _ _ => w.w
    | .atomic _ _ _ _ => w.r && w.w
  w.en && decide (w.base * 64 ≤ r.off) && decide (r.off + r.size ≤ w.base * 64 + (w.len + 1) * 64) &&
    decide (r.off + r.size ≤ 2 ^ 21) && (r.tag == w.tag) && admits s c w.scope w.devlo w.devhi r.sdev r.spart && right

/-- R157: the lowest-numbered window that accepts a request. -/
def winAccept (s : State) (c : Nat) (r : WinReq) : Option Nat := (List.range 16).find? (fun i => winPasses s c i r)

/-- R159: the cause of a refusal, from the lowest-numbered enabled window that contains the first byte. -/
def winCause (s : State) (c : Nat) (r : WinReq) : Nat :=
  let holds (i : Nat) : Bool :=
    let w := mget Window.reset (s.core c).spd.wins i
    w.en && decide (w.base * 64 ≤ r.off) && decide (r.off < w.base * 64 + (w.len + 1) * 64) && decide (r.off < 2 ^ 21)
  match (List.range 16).find? holds with
  | none => 0
  | some i =>
    let w := mget Window.reset (s.core c).spd.wins i
    if ¬ (r.off + r.size ≤ w.base * 64 + (w.len + 1) * 64 ∧ r.off + r.size ≤ 2 ^ 21) then 1
    else if r.tag ≠ w.tag then 2
    else if !admits s c w.scope w.devlo w.devhi r.sdev r.spart then 3
    else 4

/-- R157 to R160: a request in remote form of source core `score` reaches the scratchpad of core `c`. -/
def remoteAccess (s : State) (c : Nat) (r : WinReq) (score : Nat) : State × SpAns :=
  if !present s c then (countStatus s (some r.spart) .unmapped, ⟨.unmapped, [], []⟩)
  else if (s.core c).crst then (dropAtCore s c (some r.spart) score, ⟨.destReset, [], []⟩)
  else
    match winAccept s c r with
    | some _ =>
      let w := memSample .none_ false r.off r.size 6
      let s := count s c 0x4B 1 w
      let s := match r.op with
        | .read => count s c 0x4E ((r.size + 63) / 64) w
        | .write _ _ => count s c 0x4D ((r.size + 63) / 64) w
        | _ => s
      spPerform s c r.off r.size r.op 5
    | none =>
      let s := count s c 0x4C 1 (memSample .none_ false r.off r.size 6)
      let s := modSpd s c (fun d =>
        { d with
          winRefuse := satInc d.winRefuse 1
          log := if d.log.v then d.log else ⟨true, memOpCode r.op, winCause s c r, r.spart, r.sdev, r.off⟩ })
      let g := (s.core c).spd.log
      (raiseRec s 0x4004 4 1 c (partOf s c) (echoOf s c) [winLog0 g, winLog1 g], ⟨.window, [], []⟩)

/-- R161: a request in local form of requester `req` reaches the scratchpad of core `c`. A packet has one destination core
(R259), so a request past the scratchpad's end reaches none (log entry 80). DEDUCED, log entry 27. -/
def localAccess (s : State) (c : Nat) (req : Requester) (off size : Nat) (op : MemOp) (port : Nat) : State × SpAns :=
  if reqOwner s req ≠ none ∧ decide (c < 1152) ∧ partOf s c ≠ reqOwner s req then
    (countStatus s (reqClass s req) .denied, ⟨.denied, [], []⟩)
  else if !present s c || decide (2 ^ 21 < off + size) then (countStatus s (reqClass s req) .unmapped, ⟨.unmapped, [], []⟩)
  else if (s.core c).crst then (dropAtCore s c (reqClass s req) (reqCore req), ⟨.destReset, [], []⟩)
  else spPerform s c off size op port

/-! ### Issue of an instruction (R177, R178, R181, R192) -/

/-- The outcome type of every meaning. -/
abbrev Res := Host.Outcome State Fault Refusal

/-- R177: general register `r` of core `c`; g0 reads as 0. -/
def Ctl.get (k : Ctl) (r : Reg) : W64 := if r.val = 0 then 0 else mget 0 k.regs r.val

/-- R177: writes a general register; writes to g0 are discarded. -/
def Ctl.put (k : Ctl) (r : Reg) (v : W64) : Ctl := if r.val = 0 then k else { k with regs := mset k.regs r.val v }

def rg (s : State) (c : Nat) (r : Reg) : W64 := (s.core c).ctl.get r
def setReg (s : State) (c : Nat) (r : Reg) (v : W64) : State := modCtl s c (fun k => k.put r v)

/-- The control unit goes to the next instruction. -/
def advance (s : State) (c : Nat) : State := modCtl s c (fun k => { k with pc := k.pc + 4, blk := .none })

/-- The control unit is held at its instruction. -/
def block (s : State) (c : Nat) (b : Blk) : State := modCtl s c (fun k => { k with blk := b })

/-- Whether core `c` can issue an instruction: it is present, out of reset and RUNNING, and held by nothing but a
scoreboard stall, after which the same instruction issues again (R148, R174). DESIGN CHOICE, log entry 11. -/
def canIssue (s : State) (c : Nat) : Bool :=
  let k := s.core c
  present s c && !k.crst && k.ctl.st == .running && (k.ctl.blk == .none || k.ctl.blk == .sb)

/-- A fault of the control unit at the instruction `w` (R192, R194). DEDUCED, log entry 24. -/
def cuFault (s : State) (c code engine tag : Nat) (w : W32) (detail : Nat) (addr ga gb : W64) : State :=
  coreFault s c { code := code, engine := engine, imp := false, tag := tag, insn := w, detail := detail, addr := addr,
                  ga := ga, gb := gb }

/-- R181. -/
def illegal (s : State) (c : Nat) (w : W32) (ga gb : W64) : State := cuFault s c 1 0xFF 0 w 0 0 ga gb

/-- R178: whether the instruction buffer holds the line of offset `pc`. -/
def bufHit (s : State) (c pc : Nat) : Bool :=
  match mfind (s.core c).ctl.ibuf (pc / 64 % 256) with
  | some (tag, _) => tag == pc / 2 ^ 14
  | none => false

/-- An instruction issues on core `c`. One that cannot issue changes nothing, nor one whose line the instruction buffer does not hold:
it waits for INSN_BUFFER_FILL (R178). A PC past the scratchpad faults with ADDRESS; else `act` is its effect. An instruction
that the scoreboard has held is counted once (event 0x01). -/
def issue (s : State) (c : Nat) (act : State → State) : State :=
  if canIssue s c then
    if 2 ^ 21 ≤ (s.core c).ctl.pc.toNat then cuFault s c 3 0xFF 0 0 0 (s.core c).ctl.pc 0 0
    else if bufHit s c (s.core c).ctl.pc.toNat then
      act (if (s.core c).ctl.blk = .sb then s else count s c 0x01 1)
    else s
  else s

/-- An ALU instruction (Table 6.4): the result of `f` on two registers. -/
def alu (s : State) (c : Nat) (d a b : Reg) (f : W64 → W64 → W64) : State :=
  issue s c (fun s => advance (setReg s c d (f (rg s c a) (rg s c b))) c)

/-- An ALU instruction of one operand, whose b field must be 0 (Table 6.4). -/
def alu1 (s : State) (c : Nat) (fn : Nat) (d a b : Reg) (f : W64 → W64) : State :=
  issue s c (fun s =>
    if b.val = 0 then advance (setReg s c d (f (rg s c a))) c
    else illegal s c (encA 0x01 d.val a.val b.val fn) (rg s c a) (rg s c b))

/-- An immediate instruction (Table 6.3). -/
def aluImm (s : State) (c : Nat) (d a : Reg) (f : W64 → W64) : State :=
  issue s c (fun s => advance (setReg s c d (f (rg s c a))) c)

/-- An immediate shift: imm[14:6] must be 0 (Table 6.3). -/
def aluShift (s : State) (c op : Nat) (d a : Reg) (imm : BitVec 15) (f : W64 → Nat → W64) : State :=
  issue s c (fun s =>
    if imm.toNat < 64 then advance (setReg s c d (f (rg s c a) imm.toNat)) c
    else illegal s c (encI op d.val a.val imm.toNat) (rg s c a) 0)

def b2w (b : Bool) : W64 := if b then 1 else 0

/-- Leading zeros of a 64-bit word, 0–64. -/
def clz64 (w : W64) : Nat := if w.toNat = 0 then 64 else 63 - Nat.log2 w.toNat

/-- Trailing zeros of a 64-bit word, 0–64. -/
def ctz64 (w : W64) : Nat := (List.range 64).find? (fun i => w.toNat.testBit i) |>.getD 64

/-- R185, R142, R148: a load of `n` bytes from the own scratchpad, extended by `ext`. -/
def loadSp (s : State) (c op : Nat) (d a : Reg) (imm : BitVec 15) (n : Nat) (ext : Nat → W64) : State :=
  issue s c (fun s =>
    let t := rg s c a + imm.signExtend 64
    let w := encI op d.val a.val imm.toNat
    if 2 ^ 21 ≤ t.toNat then cuFault s c 3 0xFF 0 w 0 t (rg s c a) 0
    else if t.toNat % n ≠ 0 then cuFault s c 2 0xFF 0 w n t (rg s c a) 0
    else if sbReadStall (s.core c) t.toNat n then block s c .sb
    else
      let (s', bs, bad) := spRead s c t.toNat n 0
      let ring := bankRing s c t.toNat
      let s' := count s' c 0x03 1 (memSample .here true t.toNat n ring)
      let s' := count s' c (0x38 + ring) 1 (memSample .here true t.toNat n ring)
      match bad with
      | [] => advance (setReg s' c d (ext (leNat bs))) c
      | w' :: _ => cuFault s' c 7 0xFF 0 w (captureOf s c w' 0) t (rg s c a) 0)

/-- R185, R148, R153: a store of the low `n` bytes of a register to the own scratchpad. -/
def storeSp (s : State) (c op : Nat) (src a : Reg) (imm : BitVec 15) (n : Nat) : State :=
  issue s c (fun s =>
    let t := rg s c a + imm.signExtend 64
    let w := encI op src.val a.val imm.toNat
    if 2 ^ 21 ≤ t.toNat then cuFault s c 3 0xFF 0 w 0 t (rg s c a) 0
    else if t.toNat % n ≠ 0 then cuFault s c 2 0xFF 0 w n t (rg s c a) 0
    else if sbWriteStall (s.core c) t.toNat n then block s c .sb
    else
      let (s', ok) := spWrite s c t.toNat (natBytes n (rg s c src).toNat) 0
      let w' := memSample .here false t.toNat n (bankRing s c t.toNat)
      let s' := count s' c 0x04 1 w'
      let s' := if n < 8 then count s' c 0x49 1 w' else s'
      if ok then advance s' c
      else cuFault s' c 7 0xFF 0 w (captureOf s c t.toNat 0) t (rg s c a) 0)

/-- A compare and branch (Table 6.3): taken, it goes to PC + 4 × sext(off). -/
def branch (s : State) (c : Nat) (a b : Reg) (off : BitVec 15) (rel : W64 → W64 → Bool) : State :=
  issue s c (fun s =>
    if rel (rg s c a) (rg s c b) then
      modCtl (count s c 0x06 1) c (fun k => { k with pc := k.pc + 4 * off.signExtend 64, blk := .none })
    else advance s c)

/-- A system function whose fields are in `z`: they must be 0 (Table 6.5, R181). -/
def sysFn (s : State) (c : Nat) (w : W32) (zero : Bool) (ga gb : W64) (act : State → State) : State :=
  issue s c (fun s => if zero then act s else illegal s c w ga gb)

/-! ### Device notifications (R461) -/

/-- A 16 B notification to queue 30 of a partition's designated fault core; one that finds no room is lost (R222). -/
def notifyPart (s : State) (p : Nat) (bs : Bytes) : State :=
  match faultCoreOf s p with
  | some c => (systemMsg s c 30 bs).1
  | none => s

/-! ### The Survey (R42 to R49) -/

/-- The generation of a half whose header is valid (R42, Table 2.4). -/
def SurveyHalf.gen (h : SurveyHalf) : Option Nat :=
  match h.header with
  | some e => if e.type_ = 0 ∧ leAt e.loc 4 2 = 0x0100 then some (leAt e.loc 0 4) else none
  | none => none

/-- R42: whether half 1 is the current one: its header is valid, and its generation above that of half 0. -/
def Survey.second (v : Survey) : Bool :=
  match v.half0.gen, v.half1.gen with
  | some a, some b => decide (a < b)
  | none, some _ => true
  | _, none => false

/-- R42: the current half. -/
def Survey.cur (v : Survey) : SurveyHalf := if v.second then v.half1 else v.half0

/-- The generation of the current half. -/
def Survey.gen (v : Survey) : Nat := v.cur.gen.getD 0

/-- The current half changed. -/
def Survey.modCur (v : Survey) (f : SurveyHalf → SurveyHalf) : Survey :=
  if v.second then { v with half1 := f v.half1 } else { v with half0 := f v.half0 }

/-- R48: the entries that reading the places of a half finds: one whose CRC fails is skipped. -/
def readSlots : List SurveySlot → List SurveyEntry
  | [] => []
  | .entry e :: l => e :: readSlots l
  | .torn :: l => readSlots l

/-- The entries of the current half but its HEADER, in the order of writing. -/
def Survey.entries (v : Survey) : List SurveyEntry := readSlots v.cur.slots

/-- R42, R49: whether the current half has a place of its 65,536 left, the first of which its HEADER takes, and the flash
writes. -/
def Survey.room (v : Survey) : Bool := decide (v.cur.slots.length < 65535) && !v.refuses

/-- Whether a later entry cancels `e` (R43). -/
def cancels (e x : SurveyEntry) : Bool := x.revoke && x.type_ == e.type_ && x.loc == e.loc

/-- R43: the live entries, in SEQ order: those that no later entry cancels. -/
def liveOf : List SurveyEntry → List SurveyEntry
  | [] => []
  | e :: es => if e.revoke || es.any (cancels e) then liveOf es else e :: liveOf es

/-- The live Survey with the defects applied in memory alone (R49). -/
def liveSurvey (s : State) : List SurveyEntry := liveOf (s.survey.entries ++ s.survey.ram)

/-- What of a LOCATION names the defect: of a PORT_EXCLUDED entry the port alone, not the BER that was measured (Table 2.4).
DEDUCED, log entry 81. -/
def unitLoc (ty : Nat) (loc : Bytes) : Bytes := if ty = 9 then loc.take 1 else loc

/-- The live entries of a defect, by TYPE and LOCATION. -/
def liveEntries (s : State) (ty : Nat) (loc : Bytes) : List SurveyEntry :=
  (liveSurvey s).filter (fun e => e.type_ == ty && unitLoc ty e.loc == unitLoc ty loc)

/-- R45: whether a defect is live. -/
def isLive (s : State) (ty : Nat) (loc : Bytes) : Bool := !(liveEntries s ty loc).isEmpty

/-- R47: the other half with a HEADER of the next generation and then the entries `live`, committed; the half that was current is
erased. The HEADER takes the next SEQ (R44). DEDUCED, log entry 81. -/
def Survey.compacted (v : Survey) (live : List SurveyEntry) (echo : W64) : Survey :=
  let h : SurveyHalf := ⟨some (headerEntry (v.gen + 1) v.nextSeq echo), live.map .entry⟩
  let v' : Survey := { v with nextSeq := v.nextSeq + 1, compacting := false, full := v.full && !v.ram.isEmpty }
  if v.second then { v' with half0 := h, half1 := ⟨none, []⟩ } else { v' with half0 := ⟨none, []⟩, half1 := h }

/-- R49: a half whose every place is taken is compacted where entries that are not live make room. -/
def makeRoom (s : State) : State :=
  let live := liveOf s.survey.entries
  if s.survey.cur.slots.length < 65535 ∨ s.survey.refuses ∨ 65535 ≤ live.length then s
  else { s with survey := s.survey.compacted live s.echoM }

/-- R43, R44, R49, R452: Carafe appends an entry, or, where both halves are full of live entries or the flash refuses to write,
applies it in memory and raises the uncorrected-contained error. What memory alone held of the same LOCATION is then older than the
entry in the flash, and goes. During a management restart the entry waits. -/
def surveyPut (s : State) (ty source : Nat) (revoke prov : Bool) (loc : Bytes) : State :=
  let e : SurveyEntry := { type_ := ty, source := source, revoke := revoke, prov := prov, seq := s.survey.nextSeq,
                           echo := s.echoM, loc := padTo 12 loc }
  if s.wake.mgmt then { s with wake := { s.wake with waitSurvey := s.wake.waitSurvey ++ [e] } }
  else
    let s := makeRoom s
    let e := { e with seq := s.survey.nextSeq }
    if s.survey.room then
      let v := s.survey.modCur (fun h => { h with slots := h.slots ++ [.entry e] })
      { s with survey := { v with
          nextSeq := v.nextSeq + 1
          ram := v.ram.filter (fun x => !(x.type_ == e.type_ && x.loc == e.loc))
          wroteAt := some s.now } }
    else
      let s := { s with survey := { s.survey with ram := s.survey.ram ++ [e], full := true } }
      raiseErr s 0x0013 9 0 none s.echoM []

/-- R48: power is lost in the moment in which an entry is written: whether that entry is torn is open. DESIGN CHOICE, log entry
81. -/
def tearLast (s : State) : State :=
  if s.survey.wroteAt = some s.now then
    let (b, s) := drawBool s
    if b then
      { s with survey := s.survey.modCur (fun h => { h with slots := h.slots.dropLast ++ [.torn] }) }
    else s
  else s

/-- R48: Carafe reads the current half: each entry whose CRC fails is counted, with an uncorrected-contained error. -/
def readSurvey (s : State) : State :=
  let bad := (s.survey.cur.slots.filter (fun x => x == .torn)).length
  (List.range bad).foldl (fun s _ =>
    raiseErr { s with survey := { s.survey with crcBad := s.survey.crcBad + 1 } } 0x0013 9 0 none s.echoM []) s

/-- R45: a defect is appended, unless it is live. -/
def surveyAppend (s : State) (ty source : Nat) (prov : Bool) (loc : Bytes) : State :=
  if isLive s ty (padTo 12 loc) then s else surveyPut s ty source false prov loc

/-- R45, R46: a test of the cold start in progress finds a defect. One that is live from before this start and PROVISIONAL is
confirmed; one that is live otherwise stands; any other is appended as PROVISIONAL with SOURCE 1. -/
def startFinds (s : State) (ty : Nat) (loc : Bytes) : State :=
  let seq0 := match s.wake.start with
    | some r => r.seq0
    | none => 0
  let live := liveEntries s ty (padTo 12 loc)
  if live = [] then surveyPut s ty 1 false true loc
  else if live.all (fun e => e.prov && decide (e.seq < seq0)) then surveyPut s ty 1 false false loc
  else s

/-- R45: a defect is found: by a test of a cold start (`startFinds`), or in service, without PROVISIONAL and with SOURCE 2. -/
def defectFound (s : State) (ty : Nat) (loc : Bytes) : State :=
  match s.wake.start with
  | some r => if r.warm then surveyAppend s ty 2 false loc else startFinds s ty loc
  | none => surveyAppend s ty 2 false loc

/-! ### HBM addresses (R325 to R330) -/

def hbmBase : Nat := 0x010000000000
def stackSize : Nat := 0xC00000000

def State.stack (s : State) (i : Nat) : Stack := mget Stack.reset s.hbms i
def modStack (s : State) (i : Nat) (f : Stack → Stack) : State := { s with hbms := mset s.hbms i (f (s.stack i)) }

def isHbm (a : Nat) : Bool := decide (hbmBase ≤ a) && decide (a < hbmBase + 16 * stackSize)

/-- R329: the partition that owns unit `u` = 48·s + j. -/
def unitOwner (s : State) (u : Nat) : Option Nat := mget (some 0) s.hbmOwner u

/-- R329: whether row `j` is in spread mode. -/
def rowSpread (s : State) (j : Nat) : Bool :=
  (List.range 16).any (fun i => match unitOwner s (48 * i + j) with
    | some p => (s.part p).spread
    | none => false)

/-- R328: the value H of a spread-mode block. -/
def spreadH (o : Nat) : Nat :=
  let v := o % 2 ^ 30 / 256
  bits v 3 0 ^^^ bits v 7 4 ^^^ bits v 11 8 ^^^ bits v 15 12 ^^^ bits v 19 16 ^^^ bits v 21 20

/-- R325, R328: the physical stack and stack offset of an HBM address. -/
def hbmLoc (s : State) (a : Nat) : Nat × Nat :=
  let x := a - hbmBase
  let st := x / stackSize
  let o := x % stackSize
  if rowSpread s (o / 2 ^ 30) then (st ^^^ spreadH o, o) else (st, o)

/-- R326: channel and pseudo-channel of physical offset `p`. -/
def hbmChan (p : Nat) : Nat × Nat :=
  let u := p / 256
  (bits u 4 0 ^^^ bits u 12 8 ^^^ bits u 20 16, bits u 5 5 ^^^ bits u 13 13 ^^^ bits u 21 21)

/-- R327: the edge router of an address within its stack. -/
def hbmRouter (p : Nat) : Nat := p / 256 % 5

/-- The memory key of a byte of a stack. -/
def hbmKey (st p : Nat) : Nat := hbmBase + st * stackSize + p

/-- The unit of an HBM address, as the objects number it. -/
def hbmUnit (a : Nat) : Nat := 48 * ((a - hbmBase) / stackSize) + (a - hbmBase) % stackSize / 2 ^ 30

/-- R344: whether the block at address `a` is absent: it lies on a retired stack, or in a spread row that has a unit on one. -/
def hbmAbsent (s : State) (a : Nat) : Bool :=
  let j := (a - hbmBase) % stackSize / 2 ^ 30
  (s.stack (hbmLoc s a).1).st == .retired ||
    (rowSpread s j && (List.range 16).any (fun i => (s.stack i).st == .retired))

/-- R279: whether the stack that holds the block at address `a` is switched off or not yet in service. -/
def hbmOff (s : State) (a : Nat) : Bool := (s.stack (hbmLoc s a).1).st != .ready

/-- R339: whether the page at address `a` is retired. -/
def hbmRetired (s : State) (a : Nat) : Bool :=
  let l := hbmLoc s a
  (s.stack l.1).retired.contains (l.2 / 4096)

/-- The 256 B blocks that a request touches. -/
def blocksOf (a n : Nat) : List Nat :=
  if n = 0 then [] else (List.range ((a + n - 1) / 256 + 1 - a / 256)).map (fun i => (a / 256 + i) * 256)

/-- R330, R339, R344, R279, R573: the refusal of a request of partition `part` (none: a requester that owns everything) for
`n` bytes at `a`, or OK. -/
def hbmCheck (s : State) (part : Option Nat) (a n : Nat) : RSt :=
  let bs := blocksOf a n
  if part ≠ none ∧ bs.any (fun b => isHbm b && unitOwner s (hbmUnit b) != part) then .denied
  else if bs.any (fun b => !isHbm b || hbmAbsent s b || hbmRetired s b) then .unmapped
  else if bs.any (fun b => hbmOff s b) then .destReset
  else .ok

/-- R338, R340: a page of physical storage becomes a retirement candidate: the Survey entry, the notification to the
owner's fault core, and the event. A candidate or retired page stays as it is. -/
def pageCandidate (s : State) (st page source : Nat) (prov : Bool) : State :=
  let k := s.stack st
  if k.retired.contains page || k.cands.contains page then s
  else
    let addr := hbmBase + stackSize * st + page * 4096
    let s := surveyAppend s 0x0A source prov (natBytes 1 st ++ natBytes 3 0 ++ natBytes 8 addr)
    let s := modStack s st (fun k => { k with cands := k.cands ++ [page] })
    let unit := 48 * st + page * 4096 / 2 ^ 30
    let owner := unitOwner s unit
    let s := match owner with
      | some p => notifyPart s p (natBytes 2 0x30 ++ natBytes 2 st ++ natBytes 4 0 ++ natBytes 8 addr)
      | none => s
    raiseEvent s 0x4003 5 st owner [addr % 2 ^ 32, addr / 2 ^ 32]

/-- A candidate is retired (R338, R339), unless the controller holds 4,096 pages. -/
def retirePage (s : State) (st page : Nat) : State :=
  modStack s st (fun k =>
    if k.retired.length < 4096 && !k.retired.contains page then
      { k with retired := k.retired ++ [page], cands := k.cands.filter (fun p => p != page) }
    else k)

/-- R335, R336: what a read of the 64 B word at `p` of stack `st` counts, captures and raises; `src` is 0 for a read, 1
for a merge, 2 for scrub (Table 10.6). The Bool says whether the word is uncorrectable. -/
def touchHbm (s : State) (st p src : Nat) : State × Bool :=
  let w := p / 64 * 64
  let key := hbmKey st w
  let owner := unitOwner s (48 * st + p / 2 ^ 30)
  match mfind s.marks key with
  | none => (s, false)
  | some .corrected => (s, false)
  | some .correctable =>
    let s := { s with marks := mset s.marks key .corrected }
    let s := modStack s st (fun k =>
      { k with
        ce := satInc k.ce 1
        ceWords := (k.ceWords.filter (fun x => x.1 != w / 64 && decide (s.now < x.2 + dayNs))) ++ [(w / 64, s.now)] })
    let s := raiseErr s 0x0003 5 st owner (edgeEcho s st) []
    let n := ((s.stack st).ceWords.filter (fun x => x.1 / 64 == w / 4096)).length
    (if cfgNum s 0x60 0x0004 0 2 ≤ n then pageCandidate s st (w / 4096) 2 false else s, false)
  | some m =>
    let (ch, pc) := hbmChan p
    let s := modStack s st (fun k =>
      let k := { k with ue := satInc k.ue 1 }
      if k.infoV then k else { k with infoV := true, infoCh := ch, infoPc := pc, infoSrc := src, infoWord := w / 64 })
    let i := s.stack st
    let s := raiseErr s 0x0004 5 st owner (edgeEcho s st)
      [2 ^ 31 + i.infoCh * 2 ^ 26 + i.infoPc * 2 ^ 25 + i.infoSrc * 2 ^ 23, i.infoWord]
    (if m = .failed then pageCandidate s st (w / 4096) 2 false else s, true)

/-- The 64 B words that a request touches. -/
def words64 (a n : Nat) : List Nat :=
  if n = 0 then [] else (List.range ((a + n - 1) / 64 + 1 - a / 64)).map (fun i => (a / 64 + i) * 64)

/-- One byte of HBM at a global address. -/
def hbmByte (s : State) (a : Nat) : Byte := let l := hbmLoc s a; memGet s.mem (hbmKey l.1 l.2)

def hbmPut (s : State) (a : Nat) (b : Byte) : State :=
  let l := hbmLoc s a
  { s with mem := memSet s.mem (hbmKey l.1 l.2) b }

def hbmPuts (s : State) (a : Nat) : Bytes → State
  | [] => s
  | b :: bs => hbmPuts (hbmPut s a b) (a + 1) bs

/-- R332 to R336: reads `n` bytes; answers the 8 B words, by offset in the request, that are poisoned. -/
def hbmRead (s : State) (a n : Nat) : State × Bytes × List Nat :=
  let (s, bad) := (words64 a n).foldl (fun (acc : State × List Nat) w =>
    let l := hbmLoc acc.1 w
    let (s, b) := touchHbm acc.1 l.1 l.2 0
    (s, if b then acc.2 ++ [w] else acc.2)) (s, [])
  (s, (List.range n).map (fun i => hbmByte s (a + i)),
    (wordsOf a n).filterMap (fun w => if bad.contains (w / 64 * 64) then some (w - a) else none))

/-- R333, R334, R336: writes a byte string whose poisoned 8 B words are listed. A part of a 64 B word is merged; a
merge into an uncorrectable word is refused for that word alone. Answers whether every word was written. -/
def hbmWrite (s : State) (a : Nat) (bs : Bytes) (poison : List Nat) : State × Bool :=
  (words64 a bs.length).foldl (fun (acc : State × Bool) w =>
    let (s, ok) := acc
    let l := hbmLoc s w
    let lo := max a w
    let hi := min (a + bs.length) (w + 64)
    let part := (bs.drop (lo - a)).take (hi - lo)
    let pz := poison.any (fun x => decide (w ≤ a + x) && decide (a + x < w + 64))
    let whole := decide (lo = w) && decide (hi = w + 64)
    let (s, bad) := if whole then (s, false) else touchHbm s l.1 l.2 1
    if bad then (s, false)
    else
      let s := hbmPuts s lo part
      ({ s with
         marks := if pz then mset s.marks (hbmKey l.1 (l.2 / 64 * 64)) .poisoned
           else mdel s.marks (hbmKey l.1 (l.2 / 64 * 64)) }, ok)) (s, true)

/-! ### The limit of a stack's bytes (R345) -/

/-- The bytes of a request that fall to each block's stack. -/
def hbmPieces (s : State) (a n : Nat) : List (Nat × Nat) :=
  (blocksOf a n).map (fun b => ((hbmLoc s b).1, min (a + n) (b + 256) - max a b))

/-- The bytes of a request that stack `st` moves. -/
def hbmNeed (s : State) (a n st : Nat) : Nat :=
  (((hbmPieces s a n).filter (fun p => p.1 == st)).map (fun p => p.2)).sum

/-- R345: whether every stack that a request touches has the tokens for its bytes. -/
def hasTokens (s : State) (a n : Nat) : Bool :=
  (hbmPieces s a n).all (fun p => decide (hbmNeed s a n p.1 ≤ (s.stack p.1).tokens))

/-- R345: whether a request that is not refused finds too few tokens, or others waiting, at a stack that it touches. -/
def hbmHeld (s : State) (part : Option Nat) (a n : Nat) : Bool :=
  hbmCheck s part a n == .ok &&
    ((hbmPieces s a n).any (fun p => (s.stack p.1).waiting != []) || !hasTokens s a n)

/-- R342, R345: a request takes its tokens, and the stacks that it touches leave self-refresh. -/
def hbmTake (s : State) (a n : Nat) : State :=
  (hbmPieces s a n).foldl (fun s p => modStack s p.1 (fun k => { k with tokens := k.tokens - p.2, sref := false })) s

/-! ### Memory by global address (R50, R51, R53, R161, R167, R573) -/

/-- What an access by global address answers: a status, data, and the poisoned 8 B words by offset. -/
structure MemAns where
  st   : RSt
  data : Bytes
  poison : List Nat
  deriving DecidableEq, Repr

/-- R51, R279, R339: a refused request is counted under its status: one that touches a retired page at its stack as well, one that
meets a stack out of service at the edge router where it is discarded (R327). -/
def hbmRefused (s : State) (req : Requester) (a n : Nat) (r : RSt) : State :=
  let part := reqClass s req
  let s := countStatus s part r
  match r with
  | .unmapped =>
    match (blocksOf a n).find? (fun b => isHbm b && hbmRetired s b) with
    | some b =>
      let st := (hbmLoc s b).1
      countShared (modStack s st (fun k => { k with refuse := satInc k.refuse 1 })) (stackBlk st) 8 (classOfPart part) 1 3
    | none => s
  | .destReset =>
    match (blocksOf a n).find? (fun b => hbmOff s b) with
    | some b =>
      let l := hbmLoc s b
      dropAtDie s l.1 (hbmRouter l.2) part (reqCore req)
    | none => s
  | _ => s

/-- R331 to R336, R339, R342, R344, R345, R573: a request of requester `req`, checked against partition `part`, for `n` bytes of HBM
at `a`: a read, or a write of bytes with their poisoned 8 B words. -/
def hbmAccess (s : State) (req : Requester) (part : Option Nat) (a n : Nat) (w : Option (Bytes × List Nat)) : State × MemAns :=
  match hbmCheck s part a n with
  | .ok =>
    let cls := classOfPart (reqClass s req)
    let sts := ((hbmPieces s a n).map (fun p => p.1)).dedup
    let s := hbmTake s a n
    let ce0 := sts.map (fun st => (st, (s.stack st).ce))
    let corrected (s : State) : State := ce0.foldl (fun s x => countShared s (stackBlk x.1) 6 cls ((s.stack x.1).ce - x.2) 3) s
    match w with
    | none =>
      let (s, bs, bad) := hbmRead s a n
      let s := sts.foldl (fun s st => countShared s (stackBlk st) 0 cls ((hbmPieces s a n).filter (fun p => p.1 == st && p.2 == 256)).length 3) s
      (corrected s, ⟨if bad = [] then .ok else .uncorrected, bs, bad⟩)
    | some (bs, poison) =>
      let (s, ok) := hbmWrite s a bs poison
      let s := sts.foldl (fun s st => countShared s (stackBlk st) 1 cls ((hbmPieces s a n).filter (fun p => p.1 == st && p.2 == 256)).length 3) s
      let s := if a % 64 = 0 ∧ n % 64 = 0 then s else countShared s (stackBlk (hbmLoc s a).1) 7 cls 1 3
      (corrected s, ⟨if ok then .ok else .uncorrected, [], []⟩)
  | r => (hbmRefused s req a n r, ⟨r, [], []⟩)

/-- The register blocks of Table 2.7. -/
inductive CsrBlk where
  | core  (c : Nat)
  | field (n : Nat)
  | link  (l : Nat)
  | stack (i : Nat)
  | host  (h : Nat)
  | mgmt
  deriving DecidableEq, Repr

def isCsr (a : Nat) : Bool := decide (0x020000000000 ≤ a) && decide (a < 0x020100000000)

/-- Table 2.7: the block and offset of an address in CSR space. DEDUCED, log entry 44. -/
def csrPlace (a : Nat) : Option (CsrBlk × Nat) :=
  let o := a - 0x020000000000
  let big := 2 ^ 20
  if !isCsr a then none
  else if o < 1152 * 2 ^ 16 then some (.core (o / 2 ^ 16), o % 2 ^ 16)
  else if o < 0x10000000 then none
  else if o < 0x10000000 + 12 * big then some (.field ((o - 0x10000000) / big), o % big)
  else if o < 0x20000000 then none
  else if o < 0x20000000 + 8 * big then some (.link ((o - 0x20000000) / big), o % big)
  else if o < 0x30000000 then none
  else if o < 0x30000000 + 16 * big then some (.stack ((o - 0x30000000) / big), o % big)
  else if o < 0x40000000 then none
  else if o < 0x40000000 + 2 * big then some (.host ((o - 0x40000000) / big), o % big)
  else if o < 0x50000000 then none
  else if o < 0x50000000 + big then some (.mgmt, o % big)
  else none

/-- The offsets of a block that no rule gives a meaning: a gap (R51). Core blocks end at 0x7FFF (Table 2.7); field blocks hold the
ranges of R60, R255, R280, R322, R390, R433 and R465. DEDUCED, log entry 44. -/
def csrGap (b : CsrBlk) (off : Nat) : Bool :=
  match b with
  | .core _ => decide (0x8000 ≤ off)
  | .field _ =>
    !(decide (off < 0x4) || (decide (0x100 ≤ off) && decide (off < 0x120)) || (decide (0x200 ≤ off) && decide (off < 0x204)) ||
      (decide (0x300 ≤ off) && decide (off < 0x310)) || (decide (0x400 ≤ off) && decide (off < 0x600)) ||
      (decide (0x1000 ≤ off) && decide (off < 0x1400)) || (decide (0x2000 ≤ off) && decide (off < 0xA800)) ||
      (decide (0x10000 ≤ off) && decide (off < 0x30000)))
  | .link _ => false
  | .stack _ => false
  | .host _ => decide (8 ≤ off)
  | .mgmt => decide (0x30000 ≤ off)

/-- R53: a compute core reaches the core blocks of its partition, and reads the field blocks of fields where its partition owns a
group; Carafe reaches every block. DEDUCED, log entry 46. -/
def csrRights (s : State) (req : Requester) (b : CsrBlk) (write : Bool) : Bool :=
  match req with
  | .carafe => true
  | .core c =>
    match partOf s c, b with
    | some p, .core k => partOf s k == some p
    | some p, .field n => !write && (List.range 8).any (fun r => (s.grp (8 * n + r)).part == some p)
    | _, _ => false
  | _ => false

/-- R51, R53, R573: the status of a burst in CSR space, which no burst passes: DENIED for a register outside the requester's rights,
UNMAPPED for a gap or an absent core, else DENIED, since Table 5.6 has no status for an access of the wrong size (R54).
DEDUCED, log entry 44. -/
def csrBurst (s : State) (req : Requester) (a n : Nat) (write : Bool) : RSt :=
  let at_ := (List.range ((n + 3) / 4)).map (fun i => csrPlace (a + 4 * i))
  if at_.any (fun x => match x with
      | some (b, _) => !csrRights s req b write
      | none => false) then .denied
  else if at_.any (fun x => match x with
      | some (b, off) => csrGap b off || (match b with
        | .core c => !present s c
        | _ => false)
      | none => true) then .unmapped
  else .denied

/-- R157: a request that this device sends to itself in remote form. -/
def selfRemote (s : State) (req : Requester) (a : Nat) (n : Nat) (tag : W32) (op : MemOp) : State × MemAns :=
  let c := a / 2 ^ 21
  if a < 0x90000000 then
    let (s, r) := remoteAccess s c
      { op := op, off := a % 2 ^ 21, size := n, tag := tag, sdev := s.devId, spart := (reqOwner s req).getD 0 } (reqCore req)
    (s, ⟨r.st, r.data, r.poison⟩)
  else (countStatus s (reqClass s req) .denied, ⟨.denied, [], []⟩)

/-- R345: whether an access to local address `a` waits at a stack. -/
def memHeld (s : State) (req : Requester) (a n : Nat) : Bool :=
  decide (0x90000000 ≤ a) && isHbm a && hbmHeld s (reqOwner s req) a n

/-- A read of `n` bytes at local address `a` for requester `req`: a scratchpad or HBM. Bursts in CSR space and at unmapped
addresses are refused (R51, R53, R54). `port` is the reader of Table 5.12 in a scratchpad. -/
def memRead (s : State) (req : Requester) (a n port : Nat) : State × MemAns :=
  if a < 0x90000000 then
    let (s, r) := localAccess s (a / 2 ^ 21) req (a % 2 ^ 21) n .read port
    (s, ⟨r.st, r.data, r.poison⟩)
  else if isHbm a then hbmAccess s req (reqOwner s req) a n none
  else if isCsr a then (countStatus s (reqClass s req) (csrBurst s req a n false), ⟨csrBurst s req a n false, [], []⟩)
  else (countStatus s (reqClass s req) .unmapped, ⟨.unmapped, [], []⟩)

/-- A write at local address `a` for requester `req`, with its poisoned 8 B words. -/
def memWrite (s : State) (req : Requester) (a : Nat) (bs : Bytes) (poison : List Nat) (port : Nat) : State × RSt :=
  if a < 0x90000000 then
    let (s, r) := localAccess s (a / 2 ^ 21) req (a % 2 ^ 21) bs.length (.write bs poison) port
    (s, r.st)
  else if isHbm a then
    let (s, r) := hbmAccess s req (reqOwner s req) a bs.length (some (bs, poison))
    (s, r.st)
  else if isCsr a then (countStatus s (reqClass s req) (csrBurst s req a bs.length true), csrBurst s req a bs.length true)
  else (countStatus s (reqClass s req) .unmapped, .unmapped)

/-! ### Requests in flight to a stack that leaves service (R344) -/

/-- Whether a request for `n` bytes at `a` touches stack `st`. -/
def hitsStack (s : State) (a : W64) (n st : Nat) : Bool :=
  !isRemote a && (blocksOf a.toNat n).any (fun b => isHbm b && (hbmLoc s b).1 == st)

/-- R344: a burst in flight to stack `st` is answered DEST_RESET: one that waits for its data from there, or one whose data go
there. -/
def burstLost (s : State) (st : Nat) (b : Burst) : Burst :=
  if b.status.isSome then b
  else if b.data.isNone then (if hitsStack s b.src b.len st then { b with status := some 8 } else b)
  else if hitsStack s b.dst b.len st then { b with status := some 8 } else b

/-- R279, R344: what is in flight to stack `st` as it leaves service is answered DEST_RESET: requests that wait for tokens, bursts, and
global accesses. -/
def stackGone (s : State) (st : Nat) : State :=
  let ws := (s.stack st).waiting
  let s := modStack s st (fun k => { k with waiting := [] })
  let s := ws.foldl (fun s w =>
    match w.bar, w.req.req with
    | some off, .host h f => if w.req.write.isSome then s else emit s (.hostData h f off false false [])
    | _, _ => emit s (.memData w.req.req w.req.addr 6 [] [])) s
  { s with
    cores := s.cores.map (fun x => (x.1,
      { x.2 with
        dma := x.2.dma.map (fun e => (e.1, { e.2 with bursts := e.2.bursts.map (burstLost s st) }))
        ctl := match x.2.ctl.blk with
          | .gacc g => if hitsStack s g.addr g.size st then { x.2.ctl with blk := .gacc { g with lost := true } } else x.2.ctl
          | _ => x.2.ctl })) }

end Sys2Proof.Machine
end

