-- ==== Sys2Proof/Machine/PressOps.lean ====
section
/-!
DEFINITION. The arithmetic and the command interlocks of the Press (chapters 3 and 4): what a pass computes, what
a load brings in, what a drain writes out, and which queued commands begin.
-/

namespace Sys2Proof.Machine

/-! ### Packing geometry (R105, R117, Tables 4.2 and 4.6) -/

/-- Row bands R and column halves C of a packing mode. -/
def packRC (mode : Nat) : Nat × Nat :=
  match mode with
  | 0 => (1, 1)
  | 1 => (2, 1)
  | 2 => (4, 1)
  | 3 => (1, 2)
  | 4 => (2, 2)
  | _ => (4, 2)

/-- The sizes of one sub-tile under a configuration: K, columns, blocks of scales nb, escape blocks ne per column, bits
of an element, and the block size B. -/
structure Geo where
  r : Nat
  c : Nat
  m : Nat
  k : Nat
  cols : Nat
  nb : Nat
  ne : Nat
  bsz : Nat
  fmt : Fmt
  scaled : Bool
  een : Bool
  deriving DecidableEq, Repr

def geo (p : PressConf) : Geo :=
  let f := (pressFmtOf p.fmt.toNat).getD .e4m3
  let (r, c) := packRC p.pack.toNat
  let k := 128 / r * f.mac
  let b := if p.bsz then 16 else 32
  { r := r, c := c, m := f.mac, k := k, cols := 64 / c, nb := k / b, ne := k / 32, bsz := b, fmt := f,
    scaled := f.scaled p.sen, een := p.een }

def Geo.subs (g : Geo) : Nat := g.r * g.c
/-- Bytes of one stationary column, and of one moving row of a band (R107, R108). -/
def Geo.rowBytes (g : Geo) : Nat := g.k * g.fmt.width / 8
def Geo.dataBytes (g : Geo) : Nat := g.cols * g.rowBytes
def Geo.sclBytes (g : Geo) : Nat := if g.scaled then g.cols * g.nb else 0
def Geo.escBytes (g : Geo) : Nat := if g.een then g.cols * g.ne * 4 else 0

/-- The sub-tiles named by a SUBMASK, ascending. -/
def subList (mask : BitVec 8) : List Nat := (List.range 8).filter (fun i => mask.toNat.testBit i)

/-- R112, Table 4.8: whether a tile's tag agrees with a configuration in format, packing, escapes, and in SEN and BSZ
where the format uses them (R70). DEDUCED, log entry 14. -/
def tagAgrees (t p : PressConf) : Bool :=
  let f := (pressFmtOf p.fmt.toNat).getD .e4m3
  t.fmt == p.fmt && t.pack == p.pack && t.een == p.een && (!f.isFp8 || t.sen == p.sen) &&
    (!f.scaled p.sen || t.bsz == p.bsz)

/-! ### One column of one row (R80 to R84, R75 to R77) -/

/-- The value of a Press operand; a subnormal BF16 input is replaced by a zero of its sign (R87). -/
def pressElem (f : Fmt) (code : Nat) : FVal × Flags :=
  let (v, fl) := f.decode code
  if f == .bf16 then
    match v with
    | .fin s m e => if m != 0 && decide (topExp m e < -126) then (.fin s 0 0, fUF) else (v, fl)
    | w => (w, fl)
  else (v, fl)

/-- The codes of `n` packed elements (R66). -/
def codesOf (f : Fmt) (bs : Bytes) (n : Nat) : List Nat :=
  let v := leNat bs
  (List.range n).map (fun i => elemAt f v i)

def byteNat (bs : Bytes) (i : Nat) : Nat := (bs.getD i 0).toNat

/-- R72: the exponent of a product's block scales; none where either code is NaN, 0 for a pass without scales. -/
def pairExp (scaled : Bool) (ea ew : Nat) : Option Int :=
  if scaled then (if ea = 255 ∨ ew = 255 then none else some ((ea : Int) + ew - 254)) else some 0

/-- The used slots of one column's escape records: element k, and the residual code (Table 3.6, R74). -/
def escSlots (g : Geo) (esc : Bytes) (j : Nat) : List (Nat × Nat) :=
  if g.een then
    ((List.range g.ne).flatMap (fun b => (List.range 2).map (fun t => (b, (j * g.ne + b) * 4 + 2 * t)))).filterMap
      (fun p =>
        let b0 := byteNat esc p.2
        if b0.testBit 7 then some (32 * p.1 + b0 % 32, byteNat esc (p.2 + 1)) else none)
  else []

/-- R80 to R82, R75, R77: a column's result before the accumulator, in a floating-point pass. -/
def colFp (g : Geo) (xs ws xsc wsc : List Nat) (slots : List (Nat × Nat)) : W32 × Flags :=
  let exp (k : Nat) : Option Int := pairExp g.scaled (xsc.getD (k / g.bsz) 127) (wsc.getD (k / g.bsz) 127)
  let prod (k : Nat) : W32 × Flags :=
    let (a, f1) := pressElem g.fmt (xs.getD k 0)
    let (w, f2) := pressElem g.fmt (ws.getD k 0)
    let (p, f3) := pressMul a w (exp k)
    (p, f1 ||| f2 ||| f3)
  let addTo (acc p : W32 × Flags) : W32 × Flags :=
    let (v, f) := pressAdd acc.1 p.1
    (v, acc.2 ||| p.2 ||| f)
  let cell (r : Nat) : W32 × Flags := (List.range (g.m - 1)).foldl (fun a i => addTo a (prod (r * g.m + i + 1))) (prod (r * g.m))
  let chain := (List.range (g.k / g.m - 1)).foldl (fun a r => addTo a (cell (r + 1))) (cell 0)
  slots.foldl (fun a t =>
    let (x, f1) := pressElem g.fmt (xs.getD t.1 0)
    let (p, f3) := pressMul x (e4m3.decode t.2) (exp t.1)
    addTo a (p, f1 ||| f3)) chain

/-- R84, R76, R77: a column's result in an integer pass; the Bool says that some step clamped. -/
def colInt (g : Geo) (xs ws : List Nat) (slots : List (Nat × Nat)) : Int × Flags × Bool :=
  let val (c : Nat) : Int × Flags :=
    let (i, bad) := intOf g.fmt c
    (i, if bad then fNV else 0)
  let addTo (acc : Int × Flags × Bool) (p : Int) (f : Flags) : Int × Flags × Bool :=
    let (q, f1) := clamp32 p
    let (v, f2) := clamp32 (acc.1 + q)
    (v, acc.2.1 ||| f ||| f1 ||| f2, acc.2.2 || f1 != 0 || f2 != 0)
  let prod (k : Nat) : Int × Flags :=
    let (a, f1) := val (xs.getD k 0)
    let (w, f2) := val (ws.getD k 0)
    (a * w, f1 ||| f2)
  let cell (r : Nat) : Int × Flags × Bool :=
    (List.range g.m).foldl (fun a i => let p := prod (r * g.m + i); addTo a p.1 p.2) (0, 0, false)
  let chain := (List.range (g.k / g.m)).foldl (fun (a : Int × Flags × Bool) r =>
    let p := cell r
    let q := addTo a p.1 p.2.1
    (q.1, q.2.1, q.2.2 || p.2.2)) (0, 0, false)
  slots.foldl (fun a t =>
    let (x, f1) := val (xs.getD t.1 0)
    match e4m3.decode t.2 with
    | .nan => (a.1, a.2.1 ||| f1 ||| fNV, a.2.2)
    | v =>
      let (rho, cut) := v.toIntTrunc
      addTo a (x * rho) (f1 ||| (if cut then fIX else 0))) chain

/-- INT32 as a 32-bit word, and back. -/
def intWord (i : Int) : W32 := BitVec.ofInt 32 i

/-! ### Tally (R125 to R128) -/

/-- R126: the stationary value of element (k, j) in FP32: its decoded and scaled value plus its escapes.
DEDUCED, log entry 20. -/
def statVal (g : Geo) (ws wsc : List Nat) (slots : List (Nat × Nat)) (k : Nat) : W32 :=
  let e := wsc.getD (k / g.bsz) 127
  let sc (v : FVal) : W32 :=
    if g.scaled then
      match scaleExp e with
      | none => canonNan
      | some x => (ieeeRound false (v.scale x)).1
    else (ieeeRound false v).1
  let base := sc (g.fmt.decode (ws.getD k 0)).1
  slots.foldl (fun a t =>
    if t.1 = k then
      let r := e4m3.decode t.2
      let v := if g.fmt.isInt then (ieeeRound false (FVal.ofInt r.toIntTrunc.1)).1 else sc r
      (ieeeAdd false a v).1
    else a) base

/-- R126: rowsum and rowabs of a sub-tile, in ascending j, for each k. -/
def tallySums (g : Geo) (data scl esc : Bytes) : List W32 × List W32 :=
  let col (j : Nat) : List W32 :=
    let ws := codesOf g.fmt ((data.drop (j * g.rowBytes)).take g.rowBytes) g.k
    let wsc := (List.range g.nb).map (fun b => byteNat scl (j * g.nb + b))
    let slots := escSlots g esc j
    (List.range g.k).map (statVal g ws wsc slots)
  (List.range g.cols).foldl (fun (acc : List W32 × List W32) j =>
    let c := col j
    if j = 0 then (c, c.map absW)
    else (List.zipWith (fun a b => (ieeeAdd false a b).1) acc.1 c,
          List.zipWith (fun a b => (ieeeAdd false a (absW b)).1) acc.2 c)) ([], [])

/-- R127: the outcome of one comparison. DEDUCED, log entry 20. -/
def tallyCompare (g : Geo) (tol : Nat) (xs xsc : List Nat) (sub : SubTile) (outs : List W32) (clamped : Bool) :
    TallyOutcome :=
  let x (k : Nat) : W32 :=
    let (v, _) := g.fmt.decode (xs.getD k 0)
    if g.scaled then
      match scaleExp (xsc.getD (k / g.bsz) 127) with
      | none => canonNan
      | some e => (ieeeRound false (v.scale e)).1
    else (ieeeRound false v).1
  let dot (ab : Bool) (rows : List W32) : W32 :=
    (List.range g.k).foldl (fun a k =>
      let xv := if ab then absW (x k) else x k
      let p := (ieeeMul false xv (rows.getD k 0)).1
      if k = 0 then p else (ieeeAdd false a p).1) 0
  let e := dot false sub.rowsum
  let a := dot true sub.rowabs
  let o := match outs with
    | [] => (0 : W32)
    | w :: ws => ws.foldl (fun a b => (ieeeAdd false a b).1) w
  let fe := f32 e
  let fo := f32 o
  let fa := f32 a
  if !fe.isFinite || !fo.isFinite || !fa.isFinite || clamped then .skip
  else
    let (d, _) := fe.add fo.neg
    match fa with
    | .fin _ m x =>
      if m = 0 then (if d.isZero then .match_ else .mismatch)
      else if (FVal.fin false 1 (topExp m x - tol)).lt d.abs then .mismatch else .match_
    | _ => .skip

/-! ### A pass (R103, R115, R119, R129) -/

/-- The results of one row of one sub-tile, with its flags and its tally outcome. -/
def rowResult (g : Geo) (sub : SubTile) (xs xsc : List Nat) (tally : Bool) (tol : Nat) :
    List W32 × Flags × Option TallyOutcome :=
  let one (j : Nat) : W32 × Flags × Bool :=
    let ws := codesOf g.fmt ((sub.data.drop (j * g.rowBytes)).take g.rowBytes) g.k
    let wsc := (List.range g.nb).map (fun b => byteNat sub.scl (j * g.nb + b))
    let slots := escSlots g sub.esc j
    if g.fmt.isInt then
      let (i, f, cl) := colInt g xs ws slots
      (intWord i, f, cl)
    else
      let (w, f) := colFp g xs ws xsc wsc slots
      (w, f, false)
  let rs := (List.range g.cols).map one
  let outs := rs.map (·.1)
  let asF := if g.fmt.isInt then outs.map (fun w => (ieeeRound false (FVal.ofInt w.toInt)).1) else outs
  (outs, rs.foldl (fun f r => f ||| r.2.1) 0,
    if tally then some (tallyCompare g tol xs xsc sub asF (rs.any (·.2.2))) else none)

/-- What a whole PSTREAM computes when its rows enter: results, flags, comparisons in row order, escape slots applied, and the first
uncorrectable word it met with the port that read it. -/
structure PassOut where
  accs  : List AccOut
  fl    : Flags
  tally : List TallyRow
  slots : Nat
  bad   : Option (Nat × Nat)
  deriving DecidableEq, Repr

/-- R106: a moving row of band `rb`. Of the 192 B of an FP6 row, the bands' bytes in order, the last 64 B arrive through the
stationary-load port (reader 2 of Table 5.12). Answers the uncorrectable words with their ports. DESIGN CHOICE, log entry 86. -/
def movingRow (s : State) (c : Nat) (g : Geo) (rb off : Nat) : State × Bytes × List (Nat × Nat) :=
  let n := if g.fmt.isFp6 then min g.rowBytes (128 - rb * g.rowBytes) else g.rowBytes
  let (s, b1, bad1) := spRead s c off n 1
  let (s, b2, bad2) := spRead s c (off + n) (g.rowBytes - n) 2
  (s, b1 ++ b2, bad1.map (fun w => (w, 1)) ++ bad2.map (fun w => (w, 2)))

/-- The row bands that a SUBMASK names. -/
def bandsOf (g : Geo) (mask : BitVec 8) : List Nat :=
  (List.range g.r).filter (fun rb => (subList mask).any (fun x => x / g.c == rb))

/-- R108, R146: the moving scales of the named bands, each band's read once along the side path, as the moving stream's reader
(Table 5.12 lists no other). DESIGN CHOICE, log entry 86. -/
def movingScales (s : State) (c : Nat) (g : Geo) (d : PstreamDesc) : State × Map Bytes × Option (Nat × Nat) :=
  if g.scaled then
    (bandsOf g d.submask).foldl (fun (acc : State × Map Bytes × Option (Nat × Nat)) rb =>
      let (s, m, bad) := acc
      let (s, sc, b) := spRead s c (d.msc + rb * d.m * g.nb) (d.m * g.nb) 1
      (s, mset m rb sc, bad.orElse (fun _ => b.head?.map (fun w => (w, 1))))) (s, [], none)
  else (s, [], none)

/-- One named sub-tile's part of moving row `i`, whose elements `xs` and scale codes `xsc` its column half shares (R118). -/
def subRow (p : Press) (g : Geo) (tag : Nat) (d : PstreamDesc) (i : Nat) (xs xsc : List Nat) (o : PassOut) (sub : Nat) : PassOut :=
  let t := mget (⟨[], [], [], [], []⟩ : SubTile) p.active.subs sub
  let (outs, fl, ty) := rowResult g t xs xsc (p.conf.ten && p.active.tag.ten) p.tol
  { o with
    accs := o.accs ++ outs.mapIdx (fun j v => ⟨d.acc.getD sub 0 + i, sub % g.c * g.cols + j, v⟩)
    fl := o.fl ||| fl
    tally := o.tally ++ (match ty with
      | some x => [⟨sub, i, tag, x⟩]
      | none => [])
    slots := o.slots + ((List.range g.cols).map (fun j => (escSlots g t.esc j).length)).sum }

/-- R104, R108, R115, R118, R119: the rows of a PSTREAM enter, each row of a named band read once for the sub-tiles that share it.
DESIGN CHOICE, log entry 22. -/
def streamPass (s : State) (c : Nat) (tag : Nat) (d : PstreamDesc) : State × PassOut :=
  let p := (s.core c).prs
  let g := geo p.conf
  let (s, scs, bad0) := movingScales s c g d
  ((List.range d.m).flatMap (fun i => (bandsOf g d.submask).map (fun rb => (i, rb)))).foldl (fun (acc : State × PassOut) w =>
    let (s, o) := acc
    let (i, rb) := w
    let (s, bs, bad) := movingRow s c g rb (d.mov.getD rb 0 + i * d.mstride)
    let xsc := (((mget [] scs rb).drop (i * g.nb)).take g.nb).map (·.toNat)
    (s, ((subList d.submask).filter (fun x => x / g.c == rb)).foldl (subRow p g tag d i (codesOf g.fmt bs g.k) xsc)
      { o with bad := o.bad.orElse (fun _ => bad.head?) })) (s, ⟨[], 0, [], 0, bad0⟩)

/-- R82 step 4, R84, R115: a result written, or added into its accumulator entry. -/
def accWrite (int add : Bool) (p : Press) (o : AccOut) : Press :=
  let key := o.row * 64 + o.col
  if add then
    let old := mget 0 p.acc key
    if int then
      let (v, f) := clamp32 (old.toInt + o.val.toInt)
      { p with acc := mset p.acc key (intWord v), flags := p.flags ||| f }
    else
      let (v, f) := pressAdd old o.val
      { p with acc := mset p.acc key v, flags := p.flags ||| f }
  else { p with acc := mset p.acc key o.val }

/-! ### Drain (R86, R116, R130) -/

/-- Table 4.13: the output format of a drain. -/
def drainFmt (o : Nat) : Option Fmt :=
  match o with
  | 0 => some .fp32
  | 1 => some .bf16
  | 2 => some .fp16
  | 3 => some .e4m3
  | 4 => some .e5m2
  | _ => none

/-- One rounding of the drain path, under the descriptor's RND and SAT (R86, Table 3.8). DEDUCED, log entry 19. -/
def drainRound (r : Round) (sat : Bool) (v : FVal) : W32 × Flags :=
  let e := fp32.encode r sat false v
  (BitVec.ofNat 32 e.code, e.fl)

/-- R86: the value that an entry has before it is encoded. DEDUCED, log entry 19. -/
def drainValue (r : Round) (sat int : Bool) (entry cs rs : W32) : W32 × Flags :=
  if int then
    let (a, f1) := drainRound r sat (FVal.ofInt entry.toInt)
    let (v2, f2) := (f32 a).mul (f32 cs)
    let (b, f3) := drainRound r sat v2
    let (v3, f4) := (f32 b).mul (f32 rs)
    let (w, f5) := drainRound r sat v3
    (w, f1 ||| f2 ||| f3 ||| f4 ||| f5)
  else ((if (f32 entry).isNan then canonNan else entry), 0)

/-- R130: the larger of a running AMAX and one value's magnitude. -/
def amaxStep (a w : W32) : W32 :=
  if (f32 a).isNan || (f32 w).isNan then canonNan else if (f32 a).lt (f32 (absW w)) then absW w else a

/-- The writes, AMAX values and flags of a drain of rows that it reads now; an uncorrectable word of its scale vectors is captured as
read by the Press drain. DESIGN CHOICE, log entries 22 and 86. -/
def drainPass (s : State) (c : Nat) (d : PdrainDesc) :
    State × List (Nat × Bytes) × List (Nat × W32) × Flags × Option Nat :=
  let fmt := (drainFmt d.ofmt.toNat).getD .fp32
  let r := if d.rtz then Round.rtz else Round.rne
  let (s, cs, bad1) := if d.etype then spRead s c d.cscale (4 * d.ncol) 3 else (s, [], [])
  let (s, rs, bad2) := if d.etype then spRead s c d.rscale (4 * d.nrow) 3 else (s, [], [])
  let p := (s.core c).prs
  let val (i j : Nat) : W32 × Flags :=
    drainValue r d.sat d.etype (mget 0 p.acc ((d.row0 + i) * 64 + d.col0 + j)) (BitVec.ofNat 32 (leAt cs (4 * j) 4))
      (BitVec.ofNat 32 (leAt rs (4 * i) 4))
  let rows := (List.range d.nrow).map (fun i => (List.range d.ncol).map (fun j =>
    let (v, f) := val i j
    let e := fmt.encode r d.sat false (f32 v)
    (v, if fmt == .fp32 then v.toNat else e.code, f ||| (if fmt == .fp32 then 0 else e.fl))))
  let writes := rows.mapIdx (fun i row => (d.out + i * d.ostride, row.flatMap (fun x => natBytes (fmt.width / 8) x.2.1)))
  let amax := (List.range d.ncol).map (fun j =>
    (d.col0 + j, rows.foldl (fun a row => amaxStep a ((row.getD j (0, 0, 0)).1)) 0))
  let fl := rows.foldl (fun f row => row.foldl (fun f x => f ||| x.2.2) f) 0
  (s, writes, amax, fl, (bad1 ++ bad2).head?)

/-- R116: CLR sets each drained entry to 0. -/
def drainClear (p : Press) (d : PdrainDesc) : Press :=
  if d.clr then
    { p with acc := p.acc.filter (fun e =>
        !(decide (d.row0 ≤ e.1 / 64) && decide (e.1 / 64 < d.row0 + d.nrow) && decide (d.col0 ≤ e.1 % 64) &&
          decide (e.1 % 64 < d.col0 + d.ncol))) }
  else p

/-! ### Issue checks and ranges (Table 4.8, R134, R135) -/

/-- A refusal at issue: fault code and DETAIL (Table 6.8). -/
abbrev Refuse := Option (Nat × Nat)

/-- The first refusal among conditions in order. -/
def firstOf (l : List (Bool × Nat × Nat)) : Refuse := (l.find? (·.1)).map (·.2)

/-- The configuration and the tile tags that the queued commands will leave (R133): configuration, active and shadow
tag with valid bits. -/
structure PressView where
  conf : PressConf
  at_  : PressConf
  av   : BitVec 8
  st   : PressConf
  sv   : BitVec 8
  deriving DecidableEq, Repr

def confOf (d : PconfDesc) : PressConf := ⟨d.fmt, d.pack, d.sen, d.bsz, d.een, d.ramp, d.ten⟩

/-- R113: the valid bits of the shadow after a PLOAD: other sub-tiles stay valid where the shadow's tag matches the
configuration in effect, its tally-loaded bit among it (log entry 14). -/
def loadValid (tag conf : PressConf) (valid mask : BitVec 8) : BitVec 8 :=
  (if tagAgrees tag conf && tag.ten == conf.ten then valid else 0) ||| mask

def viewStep (v : PressView) (p : PressCmd) : PressView :=
  match p with
  | .pconf d => { v with conf := confOf d }
  | .pload d => { v with st := v.conf, sv := loadValid v.st v.conf v.sv d.submask }
  | .pswap => { v with at_ := v.st, av := v.sv, st := v.at_, sv := v.av }
  | _ => v

def pressView (k : Core) : PressView :=
  (engFlights k 0).foldl (fun v f => match f.body with
    | .press p => viewStep v p
    | _ => v) ⟨k.prs.conf, k.prs.active.tag, k.prs.active.valid, k.prs.shadow.tag, k.prs.shadow.valid⟩

def pastEnd (off n : Nat) : Bool := decide (2 ^ 21 < off + n)

/-- The operands of PLOAD or PSTREAM against the configuration in effect (R70, R78). -/
def fmtChecks (v : PressView) (fmt : BitVec 4) (sen bsz : Bool) : List (Bool × Nat × Nat) :=
  let f := (pressFmtOf v.conf.fmt.toNat).getD .e4m3
  [(fmt != v.conf.fmt, 0x0A, 4),
   ((f.isFp8 && sen != v.conf.sen) || (f.scaled v.conf.sen && bsz != v.conf.bsz), 0x0A, 6)]

def maskBad (g : Geo) (m : BitVec 8) : Bool := m == 0 || decide (2 ^ g.subs ≤ m.toNat)

/-- Whether the accumulator rows of two named sub-tiles of one column half overlap (R119). -/
def accOverlap (g : Geo) (d : PstreamDesc) (a b : Nat) : Bool :=
  decide (a < b) && decide (a % g.c = b % g.c) && decide (d.acc.getD a 0 < d.acc.getD b 0 + d.m) &&
    decide (d.acc.getD b 0 < d.acc.getD a 0 + d.m)

/-- Table 4.8: why the Press refuses a command, if it does; the first of several conditions gives the fault. DEDUCED, log entry 23. -/
def pressRefuse (k : Core) (p : PressCmd) : Refuse :=
  let v := pressView k
  let g := geo v.conf
  match p with
  | .pconf d =>
    let f := pressFmtOf d.fmt.toNat
    firstOf [(f.isNone, 0x0A, 4), (d.een && !(f.getD .e4m3).mayEscape, 0x0A, 7), (decide (5 < d.pack.toNat), 0x0B, 5)]
  | .pload d =>
    let n := (subList d.submask).length
    firstOf (fmtChecks v d.fmt d.sen d.bsz ++
      [(maskBad g d.submask, 0x0B, 1),
       (d.data % 64 != 0 || pastEnd d.data (n * g.dataBytes), 0x0B, 8),
       (g.scaled && (d.scl % 64 != 0 || pastEnd d.scl (n * g.sclBytes)), 0x0B, 12),
       (g.een && (d.esca % 64 != 0 || pastEnd d.esca (n * g.escBytes)), 0x0B, 16)])
  | .pswap => none
  | .pstream d =>
    let subs := subList d.submask
    firstOf (fmtChecks v d.fmt d.sen d.bsz ++
      [(!tagAgrees v.at_ v.conf, 0x0A, 0), (maskBad g d.submask, 0x0B, 1)] ++
      subs.map (fun x => (!v.av.toNat.testBit x, 0x0C, x)) ++
      [(d.m == 0 || decide (256 < d.m), 0x0B, 8)] ++
      (List.range g.r).map (fun rb => (d.mov.getD rb 0 % 16 != 0 || ((bandsOf g d.submask).contains rb &&
        pastEnd (d.mov.getD rb 0) ((d.m - 1) * d.mstride + g.rowBytes)), 0x0B, 12 + 4 * rb)) ++
      [(d.mstride % 16 != 0 || decide (d.mstride < g.rowBytes), 0x0B, 28),
       (g.scaled && pastEnd d.msc (g.r * d.m * g.nb), 0x0B, 32)] ++
      subs.map (fun x => (decide (256 < d.acc.getD x 0 % 256 + d.m) || subs.any (fun y => accOverlap g d y x), 0x0B, 36 + 2 * x)))
  | .pdrain d =>
    let w := ((drainFmt d.ofmt.toNat).getD .fp32).width / 8
    firstOf
      [((drainFmt d.ofmt.toNat).isNone, 0x0B, 4),
       (decide (64 < d.col0 + d.ncol) && decide (d.ncol ≤ 64), 0x0B, 5),
       (d.ncol == 0 || decide (64 < d.col0 + d.ncol), 0x0B, 6),
       (d.nrow == 0 || decide (256 < d.nrow) || decide (256 < d.row0 % 256 + d.nrow), 0x0B, 10),
       (d.out % 4 != 0 || pastEnd d.out ((d.nrow - 1) * d.ostride + d.ncol * w), 0x0B, 12),
       (d.ostride % 4 != 0 || decide (d.ostride < d.ncol * w), 0x0B, 16),
       (d.etype && (d.cscale % 4 != 0 || pastEnd d.cscale (4 * d.ncol)), 0x0B, 20),
       (d.etype && (d.rscale % 4 != 0 || pastEnd d.rscale (4 * d.nrow)), 0x0B, 24)]

/-- The ranges that a Press command declares (Tables 4.11 to 4.13), as (offset, bytes, write). The range over the moving scales covers
every band of the mode, named or not. DESIGN CHOICE, log entry 86. -/
def pressRanges (k : Core) (p : PressCmd) : List (Nat × Nat × Bool) :=
  let g := geo (pressView k).conf
  match p with
  | .pconf _ => []
  | .pswap => []
  | .pload d =>
    let n := (subList d.submask).length
    [(d.data, n * g.dataBytes, false)] ++ (if g.scaled then [(d.scl, n * g.sclBytes, false)] else []) ++
      (if g.een then [(d.esca, n * g.escBytes, false)] else [])
  | .pstream d =>
    (bandsOf g d.submask).map (fun rb => (d.mov.getD rb 0, (d.m - 1) * d.mstride + g.rowBytes, false)) ++
      (if g.scaled then [(d.msc, g.r * d.m * g.nb, false)] else [])
  | .pdrain d =>
    let w := ((drainFmt d.ofmt.toNat).getD .fp32).width / 8
    [(d.out, (d.nrow - 1) * d.ostride + d.ncol * w, true)] ++
      (if d.etype then [(d.cscale, 4 * d.ncol, false), (d.rscale, 4 * d.nrow, false)] else [])

/-! ### Which commands begin (R110, Table 4.3) -/

def pressOf (f : Flight) : Option PressCmd :=
  match f.body with
  | .press p => some p
  | _ => none

def isLoad (f : Flight) : Bool := match pressOf f with | some (.pload _) => true | _ => false
def isSwap (f : Flight) : Bool := match pressOf f with | some .pswap => true | _ => false
def isConf (f : Flight) : Bool := match pressOf f with | some (.pconf _) => true | _ => false
def isStream (f : Flight) : Bool := match pressOf f with | some (.pstream _) => true | _ => false
def isDrain (f : Flight) : Bool := match pressOf f with | some (.pdrain _) => true | _ => false

/-- Whether the accumulator rows of a PSTREAM overlap those of a PDRAIN. -/
def streamMeetsDrain (a b : Flight) : Bool :=
  match pressOf a, pressOf b with
  | some (.pstream d), some (.pdrain e) =>
    (subList d.submask).any (fun x => decide (d.acc.getD x 0 < e.row0 + e.nrow) && decide (e.row0 < d.acc.getD x 0 + d.m))
  | _, _ => false

/-- Table 4.3: whether a queued command may begin, after the commands `before` it that are not complete. -/
def mayBegin (p : Press) (before : List Flight) (f : Flight) : Bool :=
  match pressOf f with
  | some (.pload _) => before.all (fun x => !isSwap x && !isConf x && !isLoad x)
  | some .pswap => before.all (fun x => !isLoad x && !isSwap x && !isConf x && (!isStream x || x.begun))
  | some (.pstream _) =>
    p.pstate == .active && before.all (fun x => !isSwap x && !isConf x && (!isStream x || x.begun) &&
      (!streamMeetsDrain f x || x.begun))
  | some (.pdrain _) => before.all (fun x => !streamMeetsDrain x f && !isDrain x)
  | some (.pconf _) => before.isEmpty
  | none => false

/-- The first queued Press command that may begin, of those that begin of themselves: loads, streams and drains. -/
def nextBegin (p : Press) : List Flight → List Flight → Option Flight
  | _, [] => none
  | before, f :: fs =>
    if !f.begun && !isSwap f && !isConf f && mayBegin p before f then some f else nextBegin p (before ++ [f]) fs

/-- A command begins: a load starts to write the shadow registers; a stream's rows enter and its results are formed; a
drain reads its rows. DESIGN CHOICE, log entry 22. -/
def pressBegin (s : State) (c : Nat) (f : Flight) : State :=
  match pressOf f with
  | some (.pstream d) =>
    let (s, o) := streamPass s c f.iss.tag.val d
    let s := modPrs s c (fun p => { p with flags := p.flags ||| o.fl })
    let int := ((pressFmtOf d.fmt.toNat).getD .e4m3).isInt
    let s := modCore s c (fun k => sbReleaseReads (modFlight k f.id (fun f =>
      { f with begun := true, accs := o.accs, tally := o.tally, intPass := int,
               memDetail := o.bad.map (fun w => (captureOf s c w.1 w.2, w.1)) })) f.id)
    let w := engSample f false 0 0
    countConds (count (count s c 0x10 d.m w) c 0x22 o.slots w) c 0x23 o.fl w
  | some (.pdrain d) =>
    let (s, ws, am, fl, bad) := drainPass s c d
    let s := modPrs s c (fun p => drainClear { p with flags := p.flags ||| fl } d)
    let s := modCore s c (fun k => sbReleaseReads (modFlight k f.id (fun f =>
      { f with begun := true, writes := ws, amax := am, memDetail := bad.map (fun w => (captureOf s c w 3, w)) })) f.id)
    countConds (count s c 0x16 d.nrow (engSample f false 0 0)) c 0x23 fl (engSample f false 0 0)
  | _ => modCore s c (fun k => modFlight k f.id (fun f => { f with begun := true }))

/-- Every queued command that may begin does so (R110). -/
def pressAdvance (fuel : Nat) (s : State) (c : Nat) : State :=
  match fuel with
  | 0 => s
  | fuel + 1 =>
    match nextBegin (s.core c).prs [] (engFlights (s.core c) 0) with
    | some f => pressAdvance fuel (pressBegin s c f) c
    | none => s

/-- R122, R124: a PSTREAM that waits on the stream path of a Press that is IDLE or FALLING asks for a ramp. -/
def wantRamp (s : State) (c : Nat) : State :=
  if (engFlights (s.core c) 0).any (fun f => isStream f && !f.begun) then
    modPrs s c (fun p => if p.pstate == .idle || p.pstate == .falling then { p with want := true } else p)
  else s

end Sys2Proof.Machine
end

