-- ==== Sys2Proof/Machine/VecOps.lean ====
section
/-!
DEFINITION. The vector unit's checks, ranges and computation (R198 to R213): operands, elementwise operations,
reductions, conversion, quantisation with escapes, transposition and moves.
-/

namespace Sys2Proof.Machine

/-! ### Operand words (R200) -/

def isRegOp (w : W32) : Bool := w.toNat.testBit 31
def regNo (w : W32) : Nat := w.toNat % 16
def opOff (w : W32) : Nat := w.toNat % 2 ^ 21

/-- R200: whether an operand word breaks its form. -/
def opBad (w : W32) : Bool :=
  if isRegOp w then bits w.toNat 30 4 != 0 else bits w.toNat 30 21 != 0 || w.toNat % 16 != 0

def usesB : VecOp → Bool
  | .add | .sub | .mul | .fma | .max | .min | .sel | .cgt => true
  | _ => false

def usesC : VecOp → Bool
  | .fma | .sel => true
  | _ => false

def isReduction : VecOp → Bool
  | .rsum | .rmax | .rmin | .ramax => true
  | _ => false

def isQuant : VecOp → Bool
  | .qnt | .qnte => true
  | _ => false

def isMove : VecOp → Bool
  | .copy | .trn => true
  | _ => false

def ifmtOf (d : VecDesc) : Fmt := (fmtOf d.ifmt.toNat).getD .fp32
def ofmtOf (d : VecDesc) : Fmt := (fmtOf d.ofmt.toNat).getD .fp32
def blk (d : VecDesc) : Nat := if d.bsz then 16 else 32

/-- The bytes from the first byte of row 0 to the last byte of the last row (R212). -/
def spanBytes (rows pitch rowBytes : Nat) : Nat := (rows - 1) * pitch + rowBytes

/-- A scratchpad destination: its offset and bytes. -/
def dstSpan (op : VecOp) (d : VecDesc) : Nat × Nat :=
  (opOff d.dst,
    if isReduction op then 4 * d.rows
    else if op == .trn then spanBytes d.n d.dpitch ((ofmtOf d).vecBytes d.rows)
    else spanBytes d.rows d.dpitch ((ofmtOf d).vecBytes d.n))

/-- The scratchpad sources in use: field offset, operand word, pitch. -/
def vecSources (op : VecOp) (d : VecDesc) : List (Nat × W32 × Nat) :=
  ([(12, d.sa, d.apitch)] ++ (if usesB op && !d.bimm then [(16, d.sb, d.bpitch)] else []) ++
    (if usesC op && !d.cimm then [(20, d.sc, d.cpitch)] else [])).filter (fun x => !isRegOp x.2.1)

def srcSpan (d : VecDesc) (x : Nat × W32 × Nat) : Nat × Nat :=
  (opOff x.2.1, spanBytes d.rows x.2.2 ((ifmtOf d).vecBytes d.n))

def sclBytes (d : VecDesc) : Nat := d.rows * (d.n / blk d)
def escBytes (d : VecDesc) : Nat := d.rows * (d.n / 32) * 4

def spansMeet (a b : Nat × Nat) : Bool := decide (a.1 < b.1 + b.2) && decide (b.1 < a.1 + a.2)

/-- R211: why the vector unit refuses a descriptor, if it does. DEDUCED, log entry 18. -/
def vecRefuse (op : VecOp) (d : VecDesc) : Refuse :=
  let i := fmtOf d.ifmt.toNat
  let o := fmtOf d.ofmt.toNat
  let fi := i.getD .fp32
  let fo := o.getD .fp32
  let srcs := vecSources op d
  let dreg := isRegOp d.dst
  let anyReg := isRegOp d.sa || dreg
  let dsp := dstSpan op d
  firstOf (
    [(i.isNone, 0x0A, 2), (o.isNone, 0x0A, 3),
     (isQuant op && !isRegOp d.sa && fi != .fp32, 0x0A, 2),
     (op == .qnt && !(fo.isFp8 || fo.isFp6 || fo == .e2m1), 0x0A, 3),
     (op == .qnte && !(fo.isFp6 || fo == .e2m1), 0x0A, 3),
     (op == .dqnt && !(fi.isFp8 || fi.isFp6 || fi == .e2m1), 0x0A, 2),
     (isMove op && fi != fo, 0x0A, 3),
     (isMove op && anyReg && fi != .fp32, 0x0A, 2),
     (op == .trn && fi.width < 8, 0x0A, 2), (op == .trn && fi.isFp6, 0x0A, 2),
     (d.rnd == 3, 0x0B, 1),
     (dreg && fo != .fp32, 0x0B, 3),
     (d.n == 0 || decide (65536 < d.n), 0x0B, 4),
     ((isQuant op || op == .dqnt) && d.n % blk d != 0, 0x0B, 4),
     (op == .qnte && d.n % 32 != 0, 0x0B, 4),
     (op == .trn && decide (64 < d.n), 0x0B, 4),
     (d.rows == 0 || decide (65535 < d.rows), 0x0B, 8),
     (op == .trn && decide (64 < d.rows), 0x0B, 8),
     (opBad d.sa || (isRegOp d.sa && (decide (64 < d.n) || d.rows != 1)), 0x0B, 12),
     (if usesB op then !d.bimm && opBad d.sb else d.sb != 0, 0x0B, 16),
     (if usesC op then !d.cimm && opBad d.sc else d.sc != 0, 0x0B, 20),
     (opBad d.dst || (dreg && isQuant op) || (dreg && isReduction op && decide (64 < d.rows)) ||
       (dreg && !isReduction op && (decide (64 < d.n) || d.rows != 1)), 0x0B, 24)] ++
    srcs.map (fun x => (x.2.2 % 16 != 0, 0x0B, 28 + (x.1 - 12))) ++
    [(!dreg && !isReduction op && d.dpitch % 16 != 0, 0x0B, 40),
     ((isQuant op || op == .dqnt) && (d.scl % 16 != 0 || pastEnd d.scl (sclBytes d)), 0x0B, 44),
     (op == .qnte && (d.esc % 16 != 0 || pastEnd d.esc (escBytes d)), 0x0B, 48)] ++
    srcs.map (fun x => (pastEnd (srcSpan d x).1 (srcSpan d x).2, 0x0B, x.1)) ++
    [(!dreg && pastEnd dsp.1 dsp.2, 0x0B, 24)] ++
    srcs.map (fun x => (!dreg && spansMeet dsp (srcSpan d x) &&
      !(op != .trn && opOff x.2.1 == opOff d.dst && x.2.2 == d.dpitch && fi.width == fo.width), 0x0B, 24)) ++
    srcs.map (fun x => (isQuant op && spansMeet (d.scl, sclBytes d) (srcSpan d x), 0x0B, 44)) ++
    [(isQuant op && spansMeet (d.scl, sclBytes d) dsp, 0x0B, 44)] ++
    srcs.map (fun x => (op == .qnte && spansMeet (d.esc, escBytes d) (srcSpan d x), 0x0B, 48)) ++
    [(op == .qnte && (spansMeet (d.esc, escBytes d) dsp || spansMeet (d.esc, escBytes d) (d.scl, sclBytes d)), 0x0B, 48)])

/-- R212: the ranges that a vector command declares. -/
def vecRanges (op : VecOp) (d : VecDesc) : List (Nat × Nat × Bool) :=
  (vecSources op d).map (fun x => ((srcSpan d x).1, (srcSpan d x).2, false)) ++
    (if op == .dqnt then [(d.scl, sclBytes d, false)] else []) ++
    (if isRegOp d.dst then [] else [((dstSpan op d).1, (dstSpan op d).2, true)]) ++
    (if isQuant op then [(d.scl, sclBytes d, true)] else []) ++
    (if op == .qnte then [(d.esc, escBytes d, true)] else [])

/-! ### Computation -/

/-- A command while it computes: the vector unit, the scratchpad's reads, and what it will write. -/
structure VRun where
  st    : State
  fl    : Flags
  sat   : Nat
  bad   : List Nat
  writes : List (Nat × Bytes)
  flush : Nat
  deriving DecidableEq, Repr

def vreg (s : State) (c v l : Nat) : W32 := mget 0 (s.core c).vec.regs (v * 64 + l)

/-- The codes of row `r` of an operand: packed elements of a scratchpad operand, or the FP32 lanes of a register. -/
def rowCodes (x : VRun) (c : Nat) (f : Fmt) (w : W32) (pitch r n : Nat) : VRun × List Nat :=
  if isRegOp w then (x, (List.range n).map (fun i => (vreg x.st c (regNo w) (i % 64)).toNat))
  else
    let (s, bs, bad) := spRead x.st c (opOff w + r * pitch) (f.vecBytes n) 4
    ({ x with st := s, bad := x.bad ++ bad }, codesOf f bs n)

/-- R90, R202, R203: whether VEC_CTRL.FTZ acts on the operands of an operation: not where the operation only compares, selects or
changes a sign, sets no flag and returns an operand as it is. DEDUCED, log entry 15. -/
def flushes (op : VecOp) (ftz : Bool) : Bool :=
  ftz && (match op with
    | .max | .min | .sel | .cgt | .abs | .neg | .rmax | .rmin | .ramax => false
    | _ => true)

/-- The FP32 values of codes, decoded under R91, with the flags of the decode. DEDUCED, log entry 15. -/
def decodeRow (f : Fmt) (ftz : Bool) (cs : List Nat) : List W32 × Flags :=
  let rs := cs.map (fun c => decode32 f c none ftz)
  (rs.map (·.1), rs.foldl (fun a r => a ||| r.2) 0)

/-- R90: how many of the codes a read under FTZ flushes. -/
def flushedIn (f : Fmt) (ftz : Bool) (cs : List Nat) : Nat :=
  if ftz then (cs.filter (fun c => (decode32 f c none true).2 &&& fUF != 0)).length else 0

/-- R90: how many of the results with these flags were flushed, under FTZ. -/
def flushedOut (ftz : Bool) (fs : List Flags) : Nat := if ftz then (fs.filter (fun f => f &&& fUF != 0)).length else 0

/-- The format that a source is read in: FP32 for a register (R201). -/
def srcFmt (w : W32) (f : Fmt) : Fmt := if isRegOp w then .fp32 else f

/-- Table 6.11: a scalar that stands for every element of an operand, read as FP32. -/
def immRow (ftz : Bool) (w : W32) (n : Nat) : List W32 × Flags :=
  let r := decode32 .fp32 w.toNat none ftz
  (List.replicate n r.1, r.2)

/-- Table 6.12: an elementwise operation on operands already read as FP32. -/
def elemOp (op : VecOp) (ftz : Bool) (a b c : W32) : W32 × Flags :=
  match op with
  | .add => ieeeAdd ftz a b
  | .sub => ieeeSub ftz a b
  | .mul => ieeeMul ftz a b
  | .fma => ieeeFma ftz a b c
  | .max => (fmaxW a b, 0)
  | .min => (fminW a b, 0)
  | .sel => (if (f32 c).isZero then b else a, 0)
  | .cgt => (if (f32 b).lt (f32 a) then 0x3F800000#32 else 0, 0)
  | .abs => (if (f32 a).isNan then canonNan else absW a, 0)
  | .neg => (if (f32 a).isNan then canonNan else negW a, 0)
  | .exp2 => fExp2 ftz a
  | .log2 => fLog2 ftz a
  | .rcp => fRcp ftz a
  | .rsqrt => fRsqrt ftz a
  | _ => (a, 0)

/-- R209: the draws of one row of `n` elements whose first is element `e0` of the command. -/
def drawRow (v : Vec) (e0 n : Nat) : Vec × List Nat :=
  (List.range n).foldl (fun (acc : Vec × List Nat) i =>
    let l := (e0 + i) % 64
    let x := genStep (mget (seedLane 0 l) acc.1.gens l)
    ({ acc.1 with gens := mset acc.1.gens l x }, acc.2 ++ [x.toNat / 2 ^ 16])) (v, [])

/-- The rounding of element `i` under CTL.RND. -/
def rndOf (d : VecDesc) (us : List Nat) (i : Nat) : Round :=
  match d.rnd.toNat with
  | 1 => .rtz
  | 2 => .stoch (us.getD i 0)
  | _ => .rne

/-- R201: FP32 results encoded in OFMT, with their flags and saturations. -/
def encodeRow (d : VecDesc) (ftz : Bool) (us : List Nat) (vs : List W32) : List Nat × Flags × Nat :=
  let f := ofmtOf d
  let es := vs.mapIdx (fun i w =>
    if f == .fp32 then (⟨w.toNat, 0, false⟩ : Enc) else f.encode (rndOf d us i) d.sat ftz (f32 w))
  (es.map (·.code), es.foldl (fun a e => a ||| e.fl) 0, (es.filter (·.sat)).length)

/-- R95: how many of the values an encode in OFMT under FTZ flushes: only 16-bit formats flush. -/
def flushedEnc (d : VecDesc) (ftz : Bool) (us : List Nat) (vs : List W32) : Nat :=
  let f := ofmtOf d
  if f == .fp32 || decide (f.width < 16) then 0
  else flushedOut ftz (vs.mapIdx (fun i w => (f.encode (rndOf d us i) d.sat ftz (f32 w)).fl))

/-- Puts FP32 words into lanes 0 and up of a vector register. -/
def putLanes (s : State) (c v : Nat) (ws : List W32) : State :=
  modVec s c (fun u => { u with regs := (ws.mapIdx (fun i w => (i, w))).foldl (fun m p => mset m (v * 64 + p.1) p.2) u.regs })

/-- Writes one row of codes at its place: a register's lanes or the scratchpad. -/
def putRow (x : VRun) (c : Nat) (d : VecDesc) (r : Nat) (cs : List Nat) : VRun :=
  if isRegOp d.dst then { x with st := putLanes x.st c (regNo d.dst) (cs.map (BitVec.ofNat 32)) }
  else { x with writes := x.writes ++ [(opOff d.dst + r * d.dpitch, packVec (ofmtOf d) cs)] }

/-- R205: the lanes of a reduction combined pairwise in 6 levels; an absent lane is skipped. -/
def combine (f : W32 → W32 → W32 × Flags) : List (Option W32) → List (Option W32) × Flags
  | some a :: some b :: t =>
    let (w, f1) := f a b
    let (r, f2) := combine f t
    (some w :: r, f1 ||| f2)
  | some a :: none :: t => let (r, f2) := combine f t; (some a :: r, f2)
  | none :: x :: t => let (r, f2) := combine f t; (x :: r, f2)
  | l => (l, 0)

def combineN (f : W32 → W32 → W32 × Flags) : Nat → List (Option W32) × Flags → List (Option W32) × Flags
  | 0, x => x
  | n + 1, x => let (r, fl) := combine f x.1; combineN f n (r, fl ||| x.2)

/-- R203, R205: the two-operand step of a reduction. -/
def redStep (op : VecOp) (ftz : Bool) (a b : W32) : W32 × Flags :=
  match op with
  | .rsum => ieeeAdd ftz a b
  | .rmin => (fminW a b, 0)
  | _ => (fmaxW a b, 0)

/-- R205: the reduction of one row. -/
def reduceRow (op : VecOp) (ftz : Bool) (vs : List W32) : W32 × Flags :=
  let vs := if op == .ramax then vs.map (fun w => if (f32 w).isNan then canonNan else absW w) else vs
  let lanes := (List.range 64).map (fun l =>
    (List.range ((vs.length + 63 - l) / 64)).foldl (fun (acc : Option W32 × Flags) j =>
      let w := vs.getD (l + 64 * j) 0
      match acc.1 with
      | none => (some w, acc.2)
      | some a => let (r, f) := redStep op ftz a w; (some r, acc.2 ||| f)) (none, 0))
  let fl := lanes.foldl (fun a l => a ||| l.2) 0
  let (r, f2) := combineN (redStep op ftz) 6 (lanes.map (·.1), fl)
  ((r.headD none).getD 0, f2)

/-- R97: the scale code of a block of FP32 values. -/
def blockScale (t : Fmt) (vs : List W32) : Nat :=
  if vs.any (fun w => (f32 w).isNan) then 255
  else if vs.any (fun w => !(f32 w).isFinite) then 254
  else
    let amax := vs.foldl (fun a w => fmaxW a (absW w)) 0
    match f32 amax with
    | .fin _ m e => if m = 0 then 0x7F else (min 254 (max 0 (topExp m e - t.et + 127))).toNat
    | _ => 0x7F

/-- R97: one element quantised with scale code `e`; the clamp above the largest finite sets INEXACT and counts, and no
OVERFLOW. -/
def quantElem (t : Fmt) (r : Round) (ftz : Bool) (e : Nat) (w : W32) : Enc :=
  if e = 255 then ⟨0, 0, false⟩
  else
    let v := (f32 w).scale (127 - (e : Int))
    let x := t.encode r true ftz v
    if x.sat then { x with fl := fIX } else x

/-- R98: one residual slot candidate: encoded E4M3 code of element `w` with quantised code `q`. DEDUCED, log entry 17. -/
def residual (t : Fmt) (ftz : Bool) (e : Nat) (w : W32) (q : Nat) : Nat × Flags :=
  let (s, f1) := ieeeRound ftz ((f32 w).scale (127 - (e : Int)))
  let (qv, _) := decode32 t q none false
  let (d, f2) := ieeeSub ftz s qv
  let x := e4m3.encode .rne false ftz (f32 d)
  (x.code, f1 ||| f2 ||| x.fl)

/-- R98: the index and code of the largest residual among candidates, the lower index on a tie. -/
def bestRes (cs : List (Nat × Nat)) : Option (Nat × Nat) :=
  cs.foldl (fun acc c => match acc with
    | none => some c
    | some b => if b.2 % 128 < c.2 % 128 then some c else acc) none

/-- Table 3.6: the two bytes of a slot; a zero residual leaves it empty. -/
def slotBytes (x : Option (Nat × Nat)) : Bytes :=
  match x with
  | none => [0, 0]
  | some (i, r) => if r % 128 = 0 then [0, 0] else [BitVec.ofNat 8 (128 + i), BitVec.ofNat 8 r]

/-- R98: the escape record of a 32-element block. -/
def escRecord (cands : List (Nat × Nat)) : Bytes :=
  let a := bestRes cands
  let rest := match a with
    | some b => cands.filter (fun c => c.1 != b.1)
    | none => []
  slotBytes a ++ slotBytes (bestRes rest)

/-- R206: one row of QNT or QNTE: data codes, scales, escape records, flags, saturations. DEDUCED, log entry 17. -/
def quantRow (op : VecOp) (d : VecDesc) (ftz : Bool) (us : List Nat) (vs : List W32) :
    List Nat × List Nat × Bytes × Flags × Nat :=
  let t := ofmtOf d
  let b := blk d
  let scales := (List.range (d.n / b)).map (fun k => blockScale t ((vs.drop (k * b)).take b))
  let es := vs.mapIdx (fun i w => quantElem t (rndOf d us i) ftz (scales.getD (i / b) 127) w)
  let codes := es.map (·.code)
  let fl := es.foldl (fun a e => a ||| e.fl) 0
  let sat := (es.filter (·.sat)).length
  if op == .qnte then
    let recs := (List.range (d.n / 32)).map (fun k =>
      let cs := (List.range 32).filterMap (fun i =>
        let x := 32 * k + i
        let e := scales.getD (x / b) 127
        if e = 255 then none else some (i, residual t ftz e (vs.getD x 0) (codes.getD x 0)))
      (escRecord (cs.map (fun c => (c.1, c.2.1))), cs.foldl (fun a c => a ||| c.2.2) 0))
    (codes, scales, recs.flatMap (·.1), recs.foldl (fun a r => a ||| r.2) fl, sat)
  else (codes, scales, [], fl, sat)

/-- One row of a command other than TRN. -/
def vecRow (op : VecOp) (d : VecDesc) (c : Nat) (ftz : Bool) (x : VRun) (r : Nat) : VRun :=
  let (x, ca) := rowCodes x c (ifmtOf d) d.sa d.apitch r d.n
  let fa := srcFmt d.sa (ifmtOf d)
  let (v, us) := if d.rnd == 2 then drawRow (x.st.core c).vec (r * d.n) d.n else ((x.st.core c).vec, [])
  let x := { x with st := modVec x.st c (fun _ => v) }
  if op == .copy then putRow x c d r ca
  else if isQuant op then
    let (va, f1) := decodeRow fa ftz ca
    let (codes, scl, esc, f2, sat) := quantRow op d ftz us va
    let x := putRow { x with fl := x.fl ||| f1 ||| f2, sat := x.sat + sat, flush := x.flush + flushedIn fa ftz ca } c d r codes
    let nb := d.n / blk d
    { x with
      writes := x.writes ++ [(d.scl + r * nb, scl.map (BitVec.ofNat 8))] ++
        (if op == .qnte then [(d.esc + r * (d.n / 32) * 4, esc)] else []) }
  else if op == .dqnt then
    let nb := d.n / blk d
    let (s, sc, bad) := spRead x.st c (d.scl + r * nb) nb 4
    let ds := ca.mapIdx (fun i code => decode32 fa code (some (byteNat sc (i / blk d))) ftz)
    let (cs, f2, sat) := encodeRow d ftz us (ds.map (·.1))
    putRow { x with
      st := s, bad := x.bad ++ bad, fl := x.fl ||| f2 ||| ds.foldl (fun a p => a ||| p.2) 0, sat := x.sat + sat,
      flush := x.flush + flushedOut ftz (ds.map (·.2)) + flushedEnc d ftz us (ds.map (·.1)) } c d r cs
  else
    let fz := flushes op ftz
    let (va, f1) := decodeRow fa fz ca
    if isReduction op then
      let (w, f2) := reduceRow op ftz va
      let x := { x with fl := x.fl ||| f1 ||| f2, flush := x.flush + flushedIn fa fz ca + flushedOut ftz [f2] }
      if isRegOp d.dst then
        { x with st := modVec x.st c (fun u => { u with regs := mset u.regs (regNo d.dst * 64 + r) w }) }
      else { x with writes := x.writes ++ [(opOff d.dst + 4 * r, natBytes 4 w.toNat)] }
    else
      let (x, cb) := if usesB op && !d.bimm then rowCodes x c (ifmtOf d) d.sb d.bpitch r d.n else (x, [])
      let (x, cc) := if usesC op && !d.cimm then rowCodes x c (ifmtOf d) d.sc d.cpitch r d.n else (x, [])
      let (vb, f2) := if usesB op && d.bimm then immRow fz d.immb d.n else decodeRow (srcFmt d.sb (ifmtOf d)) fz cb
      let (vc, f3) := if usesC op && d.cimm then immRow fz d.immc d.n else decodeRow (srcFmt d.sc (ifmtOf d)) fz cc
      let rs := va.mapIdx (fun i a => elemOp op ftz a (vb.getD i 0) (vc.getD i 0))
      let (cs, f4, sat) := encodeRow d ftz us (rs.map (·.1))
      let one (imm : Bool) (w : W32) : Nat := if imm then d.n * flushedIn .fp32 fz [w.toNat] else 0
      let flushed := flushedIn fa fz ca + flushedIn (srcFmt d.sb (ifmtOf d)) fz cb + flushedIn (srcFmt d.sc (ifmtOf d)) fz cc +
        one (usesB op && d.bimm) d.immb + one (usesC op && d.cimm) d.immc + flushedOut ftz (rs.map (·.2)) +
        flushedEnc d ftz us (rs.map (·.1))
      putRow { x with
        fl := x.fl ||| f1 ||| f2 ||| f3 ||| f4 ||| rs.foldl (fun a p => a ||| p.2) 0, sat := x.sat + sat,
        flush := x.flush + flushed } c d r cs

/-- R208: a transpose. -/
def vecTrn (d : VecDesc) (c : Nat) (x : VRun) : VRun :=
  let (x, rows) := (List.range d.rows).foldl (fun (acc : VRun × List (List Nat)) r =>
    let (x, cs) := rowCodes acc.1 c (ifmtOf d) d.sa d.apitch r d.n
    (x, acc.2 ++ [cs])) (x, [])
  let v := if d.rnd == 2 then (drawRow (x.st.core c).vec 0 (d.n * d.rows)).1 else (x.st.core c).vec
  let x := { x with st := modVec x.st c (fun _ => v) }
  if isRegOp d.dst then putRow x c d 0 ((rows.getD 0 []).map id)
  else
    (List.range d.n).foldl (fun x j =>
      { x with writes := x.writes ++ [(opOff d.dst + j * d.dpitch, packVec (ofmtOf d) (rows.map (fun r => r.getD j 0)))] }) x

/-- A whole command: what it reads and computes when it starts (R201 to R210, R213). -/
def vecRun (op : VecOp) (d : VecDesc) (s : State) (c : Nat) : VRun :=
  let ftz := (s.core c).vec.ftz
  let x : VRun := ⟨s, 0, 0, [], [], 0⟩
  if op == .trn then vecTrn d c x else (List.range d.rows).foldl (vecRow op d c ftz) x

end Sys2Proof.Machine
end

