-- ==== Sys2Proof/Machine/EngOps.lean ====
section
/-!
DEFINITION. The issue checks and declared ranges of the DMA engines, the queue unit and the lock and atomic unit
(R164, R165, R235, R236, R251, R252), and the scoreboard ranges of every engine command (R147).
-/

namespace Sys2Proof.Machine

/-! ### Addresses (R50) -/

/-- Whether an address in local form lies in the scratchpad of core `c`. -/
def inOwnSp (c : Nat) (a : W64) : Bool := !isRemote a && a.toNat / 2 ^ 21 == c

/-! ### DMA (R164, R165) -/

/-- The part of a row-structured transfer that lies in the core's own scratchpad, wherever the transfer begins: its offset and span,
none where no part does. A transfer in remote form has none (R147). -/
def ownSpan (c : Nat) (a : W64) (rows pitch len : Nat) : Option (Nat × Nat) :=
  let lo := max a.toNat (c * 2 ^ 21)
  let hi := min (a.toNat + spanBytes rows pitch len) ((c + 1) * 2 ^ 21)
  if !isRemote a && decide (lo < hi) then some (lo - c * 2 ^ 21, hi - lo) else none

/-- R165: whether some row's part in the own scratchpad runs past its end. -/
def rowPastEnd (c : Nat) (a : W64) (rows pitch len : Nat) : Bool :=
  !isRemote a && (List.range rows).any (fun r =>
    let o := a.toNat + r * pitch
    decide (o < (c + 1) * 2 ^ 21) && decide ((c + 1) * 2 ^ 21 < o + len))

/-- R147, R164: the ranges that a DMA descriptor declares in the own scratchpad. -/
def dmaRanges (c : Nat) (op : DmaOp) (d : DmaDesc) : List (Nat × Nat × Bool) :=
  let rd := (ownSpan c d.src d.rows d.spitch d.len).toList.map (fun x => (x.1, x.2, false))
  let wr := (ownSpan c d.dst d.rows d.dpitch d.len).toList.map (fun x => (x.1, x.2, true))
  match op with
  | .copy => rd ++ wr
  | .fill => wr
  | .streamIn => wr
  | .streamOut => rd

/-- The queue that a STREAM_IN names. -/
def streamQ (d : DmaDesc) : Nat := d.src.toNat % 32

/-- Whether another STREAM_IN of the core, issued and not complete, names the same queue (R165). -/
def streamTaken (k : Core) (q : Nat) : Bool :=
  k.flights.any (fun f => match f.body with
    | .dma _ .streamIn d => streamQ d == q
    | _ => false)

/-- R165: why a DMA engine refuses a descriptor, if it does. -/
def dmaRefuse (k : Core) (c : Nat) (op : DmaOp) (d : DmaDesc) : Refuse :=
  let str := op == .streamIn || op == .streamOut
  let rs := dmaRanges c op d
  firstOf
    [(op != .streamOut && (d.burst % 16 != 0 || decide (d.burst < 16) || decide (4096 < d.burst)), 0x0B, 2),
     (d.len % 16 != 0 || decide (d.len < 16), 0x0B, 4),
     ((op == .copy || op == .streamOut) && d.src.toNat % 16 != 0, 0x0B, 8),
     (op == .streamIn && (decide (29 < streamQ d) || streamTaken k (streamQ d)), 0x0B, 8),
     (op == .copy && isRemote d.src && isRemote d.dst, 0x0B, 8),
     ((op == .copy || op == .streamOut) && rowPastEnd c d.src d.rows d.spitch d.len, 0x0B, 8),
     (op != .streamOut && d.dst.toNat % 16 != 0, 0x0B, 16),
     (op != .streamOut && rowPastEnd c d.dst d.rows d.dpitch d.len, 0x0B, 16),
     (op == .copy && (match rs with
        | [a, b] => spansMeet (a.1, a.2.1) (b.1, b.2.1)
        | _ => false), 0x0B, 16),
     (d.rows == 0 || decide (65535 < d.rows) || (str && d.rows != 1), 0x0B, 24),
     (op == .streamOut && (d.msz == 0 || decide (16 < d.msz)), 0x0B, 26),
     (d.spitch % 16 != 0, 0x0B, 28), (d.dpitch % 16 != 0, 0x0B, 32)]

/-! ### Queue unit (R235, R236, R240) -/

/-- R236: why the queue unit refuses a command, if it does. `img0` is byte 0 of an MCSET's image. DEDUCED, log entry 26. -/
def queRefuse (q : QueCmd) (img0 : Nat) : Refuse :=
  match q with
  | .send d =>
    firstOf [(d.size == 0 || decide (16 < d.size), 0x0B, 2), (d.src % 16 != 0 || pastEnd d.src (d.size * 16), 0x0B, 4),
      ((decodeDest (d.dest.setWidth 64)).isNone, 0x0B, 8),
      (d.res % 16 != 0 || (d.resv && pastEnd d.res 16), 0x0B, 12)]
  | .evpost d =>
    firstOf [(bits d.tgt.toNat 15 11 != 0 || bits d.tgt.toNat 31 31 != 0, 0x0B, 4),
      (d.res % 16 != 0 || (d.resv && pastEnd d.res 16), 0x0B, 12)]
  | .mcset d =>
    firstOf [(d.img % 64 != 0 || pastEnd d.img 256 || decide (29 < img0 % 32), 0x0B, 4),
      (d.res % 16 != 0 || (d.resv && pastEnd d.res 16), 0x0B, 12)]
  | .mcget d =>
    firstOf [(d.img % 64 != 0 || pastEnd d.img 256, 0x0B, 4), (d.res % 16 != 0 || (d.resv && pastEnd d.res 16), 0x0B, 12)]

/-- R235: the ranges that a queue-unit command declares. -/
def queRanges (q : QueCmd) : List (Nat × Nat × Bool) :=
  match q with
  | .send d => [(d.src, d.size * 16, false)] ++ (if d.resv then [(d.res, 16, true)] else [])
  | .evpost d => if d.resv then [(d.res, 16, true)] else []
  | .mcset d => [(d.img, 256, false)] ++ (if d.resv then [(d.res, 16, true)] else [])
  | .mcget d => [(d.img, 256, true)] ++ (if d.resv then [(d.res, 16, true)] else [])

/-! ### Lock and atomic unit (R251, R252) -/

def isAtomicOp : LockOp → Bool
  | .acq | .try_ | .rel => false
  | _ => true

/-- R252: why engine 7 refuses a command, if it does. -/
def lockRefuse (_op : LockOp) (d : LockDesc) : Refuse :=
  firstOf [(d.eve && decide (d.evf < 32), 0x0B, 2), (decide (3071 < d.lock), 0x0B, 4),
    (d.addr.toNat % (if d.w64 then 8 else 4) != 0, 0x0B, 8),
    (d.resv && (d.res % 16 != 0 || pastEnd d.res 16), 0x0B, 36)]

def lockRanges (d : LockDesc) : List (Nat × Nat × Bool) := if d.resv then [(d.res, 16, true)] else []

/-! ### Every engine -/

/-- R188 step 3: why the engine of a command refuses it, if it does. -/
def engRefuse (s : State) (c : Nat) (b : EngBody) : Refuse :=
  match b with
  | .press p => pressRefuse (s.core c) p
  | .vec op d => vecRefuse op d
  | .dma _ op d => dmaRefuse (s.core c) c op d
  | .que q =>
    queRefuse q (match q with
      | .mcset d => (spByte s c d.img).toNat
      | _ => 0)
  | .lock op d => lockRefuse op d

/-- R147: the scoreboard entries that a command declares. -/
def engRanges (k : Core) (c id : Nat) (b : EngBody) : List SbEntry :=
  let rs := match b with
    | .press p => pressRanges k p
    | .vec op d => vecRanges op d
    | .dma _ op d => dmaRanges c op d
    | .que q => queRanges q
    | .lock _ d => lockRanges d
  (rs.filter (fun r => r.2.1 != 0)).map (fun r => sbRange id r.1 r.2.1 r.2.2)

/-- The commands that an engine holds issued and not complete, at most (R109, R162, R198, R234, R251). -/
def engRoom (eng : Nat) : Nat := if eng = 1 ∨ (2 ≤ eng ∧ eng ≤ 5) then 4 else 8

/-- A command as it is queued by the X instruction at offset `pc`. -/
def newFlight (id pc : Nat) (x : XCmd) : Flight :=
  { id := id, iss := x.iss, body := x.body, begun := false, writes := [], accs := [], intPass := false, tally := [],
    amax := [], memDetail := none, partialMem := false, status := 0, result := 0, pc := pc }

/-- R188 step 4: whether a command must wait at issue: ranges, room, or tag. -/
def engStalls (s : State) (c : Nat) (x : XCmd) : Bool :=
  let k := s.core c
  sbConflict k (engRanges k c k.nextId x.body) ||
    decide (engRoom (engOf x.body) ≤ (engFlights k (engOf x.body)).length) ||
    (!x.iss.notag && decide (63 ≤ tagCount k.ctl x.iss.tag.val))

/-- R188 step 5: a command is queued: it takes its scoreboard entries, and its tag count rises by 1 unless NOTAG. -/
def enqueue (s : State) (c : Nat) (x : XCmd) : State :=
  let rs := engRanges (s.core c) c (s.core c).nextId x.body
  let s := count s c 0x45 rs.length (match rs with
    | r :: _ => memSample .here false r.lo (r.hi + 1 - r.lo) (bankRing s c r.lo)
    | [] => hereSample)
  modCore s c (fun k =>
    let t := x.iss.tag.val
    { k with
      sb := k.sb ++ engRanges k c k.nextId x.body
      flights := k.flights ++ [newFlight k.nextId (k.ctl.pc.toNat % 2 ^ 21) x]
      nextId := k.nextId + 1
      ctl := if x.iss.notag then k.ctl else { k.ctl with tagCnt := mset k.ctl.tagCnt t (tagCount k.ctl t + 1) } })

end Sys2Proof.Machine
end

