-- ==== Sys2Proof/Machine/EngRun.lean ====
section
/-!
DEFINITION. How the DMA engines, the queue unit and the lock and atomic unit begin and end their commands, and how
a message's outcome reaches its sender (R162 to R171, R225, R235 to R242, R251, R253).
-/

namespace Sys2Proof.Machine

/-! ### Messages (R225 to R229, R239 to R242) -/

/-- The empty channel image (R239). -/
def emptyImage : Bytes := List.replicate 256 0

def mcImage (s : State) (ch : Nat) : Bytes := mget emptyImage s.mchans ch

/-- R239: the partition to which channel `ch` is allocated. -/
def chanOwner (s : State) (ch : Nat) : Option Nat := mget (some 0) s.chanOwner (ch / 16)

/-- R240: the members of a channel: the present local cores of its partition named by the mask, then the valid forward
entries. -/
def mcMembers (s : State) (ch : Nat) : List MsgDest :=
  let b := mcImage s ch
  let q := byteNat b 0 % 32
  let own := chanOwner s ch
  ((List.range 1152).filter (fun c =>
    (byteNat b (4 + c / 8)).testBit (c % 8) && present s c && partOf s c == own)).map (fun c => .local_ c q) ++
  (List.range 16).filterMap (fun i =>
    let w := leAt b (192 + 4 * i) 4
    if w.testBit 31 then some (.fwd (bits w 13 0) (bits w 25 16)) else none)

/-- R226: the members of a send to a destination word. A word that names this device, remote form or not, names its
own queue. -/
def destMembers (s : State) (d : Dest) : List MsgDest :=
  match d with
  | .uni gqid dev rem =>
    if rem ∧ dev ≠ s.devId then [.remote dev gqid] else [.local_ (gqid / 32) (gqid % 32)]
  | .mc ch => mcMembers s ch

/-- What a destination learns of a message's sender (Table 7.2). -/
def senderMeta (s : State) (p : SendPath) (f : Send) : MsgMeta :=
  let core (c : Nat) : MsgMeta :=
    { spart := partNum s c, score := c, sdev := s.devId, sys := f.sys, mc := f.mc, chan := f.chan, endm := f.endm }
  match p with
  | .ctl c => core c
  | .que c => core c
  | .dma c _ => core c
  | .fn _ _ => { spart := 0, score := 0x7FF, sdev := s.devId, sys := true, mc := false, chan := 0, endm := false }
  | .fwd _ _ => f.orig.getD { spart := 0, score := 0x7FF, sdev := 0, sys := false, mc := true, chan := f.chan, endm := f.endm }

def isFinal (m : Member) : Option Nat :=
  match m.st with
  | .final st => some st
  | _ => none

/-- R225, R242: whether every member's outcome is final. -/
def sendDone (f : Send) : Bool := f.members.all (fun m => (isFinal m).isSome)

/-- The status of a send (R236, R242): a unicast's own; of a multicast OK, or PARTIAL where a member was refused. -/
def sendStatus (f : Send) : Nat :=
  if f.mc then (if f.members.all (fun m => isFinal m == some 0) then 0 else 1)
  else ((f.members.head?.bind isFinal).getD 0)

/-- R235: the refused members: their number, and the first one's core or device. -/
def refusedOf (f : Send) : Nat × Nat :=
  let l := f.members.filter (fun m => isFinal m != some 0)
  (if f.mc then l.length else 0,
    if f.mc then (match l.head? with
      | some m => (match m.dest with
        | .local_ c _ => c
        | .remote d _ => d
        | .fwd d _ => d)
      | none => 0)
    else 0)

/-- The answer that has reached the sender for member `k`: what a local destination has answered, or what another
device answers. -/
def memberOutcome (s : State) (p : SendPath) (k : Nat) (ext : MsgAns) : State :=
  match sendOf s p with
  | none => s
  | some f =>
    match f.members[k]? with
    | none => s
    | some m =>
      let cnt (s : State) (code st : Nat) : State := countPath s p code (some m.dest) st (f.bytes.length / 16)
      match m.st with
      | .answered st => if st = 0 then setMember s p k (.final 0) else cnt (setMember s p k (.final st)) 0x66 st
      | .sent | .granted | .waiting | .unrecorded =>
        if (localDest s m.dest).isSome then s
        else
          match ext with
          | .final st => if st = 0 then setMember s p k (.final 0) else cnt (setMember s p k (.final st)) 0x66 st
          | .nocredit r => cnt (setMember s p k (if r then .waiting else .unrecorded)) 0x64 0
      | .final _ => s

/-! ### The queue unit -/

/-- R235: a queue-unit result record. -/
def queRecord (refused first status : Nat) : Bytes :=
  natBytes 2 refused ++ natBytes 2 first ++ natBytes 4 0 ++ natBytes 1 status ++ natBytes 7 0

def queResv (q : QueCmd) : Option Nat :=
  match q with
  | .send d => if d.resv then some d.res else none
  | .evpost d => if d.resv then some d.res else none
  | .mcset d => if d.resv then some d.res else none
  | .mcget d => if d.resv then some d.res else none

/-- A queue-unit command ends with a status: its result record is written and it completes (R190, R235, R236). -/
def queEnd (s : State) (c : Nat) (f : Flight) (status refused first : Nat) : State :=
  match f.body with
  | .que q =>
    let s := match queResv q with
      | some r => (spWrite s c r (queRecord refused first status) 5).1
      | none => s
    complete s c f (status != 0)
  | _ => s

/-- R226: the device of a TGT word, this one where REM is 0. DEDUCED, log entry 26. -/
def tgtDev (s : State) (w : W32) : Nat := if w.toNat.testBit 30 then bits w.toNat 29 16 else s.devId

/-- Begins the queue-unit command at the head, where none is under way (R234). A SEND reads its message and sends it; an
MCSET takes its image; an MCGET writes the image in effect and ends; use of a channel of another partition ends DENIED
(R239). `fuel` bounds the commands that end at once. -/
def queKick (fuel : Nat) (s : State) (c : Nat) : State :=
  match fuel with
  | 0 => s
  | fuel + 1 =>
    match engFlights (s.core c) 6 with
    | [] => s
    | f :: _ =>
      if f.begun then s
      else
        let s := modCore s c (fun k => modFlight k f.id (fun f => { f with begun := true }))
        let mine (ch : Nat) : Bool := (partOf s c).isSome && chanOwner s ch == partOf s c
        match f.body with
        | .que (.send d) =>
          let (s, bs, bad) := spRead s c d.src (d.size * 16) 5
          let s := modCore s c (fun k => sbReleaseReads k f.id)
          let s := match bad with
            | [] => s
            | w :: _ => modCore s c (fun k => modFlight k f.id (fun f =>
                { f with memDetail := some (captureOf s c w 5, w), status := 0x0B }))
          match decodeDest (d.dest.setWidth 64) with
          | none => s
          | some dst =>
            let refused := match dst with
              | .mc ch => !mine ch
              | _ => false
            let f := { f with memDetail := bad.head?.map (fun w => (captureOf s c w 5, w)) }
            if refused then queKick fuel (queEnd s c f (if bad = [] then 3 else 0x0B) 0 0) c
            else
              let ds := destMembers s dst
              let s := match dst with
                | .mc _ => count s c 0x6B 1 (queSample (.x f.pc) false 0 0 0 0 d.size)
                | _ => s
              if ds = [] then queKick fuel (queEnd s c f (if bad = [] then 0 else 0x0B) 0 0) c
              else startSend s (.que c) (mkSend bs d.endm dst [] ds)
        | .que (.evpost d) =>
          let s := count s c 0x6D 1 (queSample (.x f.pc) false 0 (d.tgt.toNat % 2 ^ 11) (tgtDev s d.tgt) 0 0)
          if tgtDev s d.tgt = s.devId then s
          else emit s (.toDev (devPkt s (partNum s c) c 6 (tgtDev s d.tgt) (d.mask.toNat * 2 ^ 32 + d.tgt.toNat % 2 ^ 11)) 0)
        | .que (.mcset d) =>
          if mine d.chan then s else queKick fuel (queEnd s c f 3 0 0) c
        | .que (.mcget d) =>
          if mine d.chan then
            let s := (spWrite s c d.img (padTo 256 (mcImage s d.chan)) 5).1
            queKick fuel (queEnd s c f 0 0 0) c
          else queKick fuel (queEnd s c f 3 0 0) c
        | _ => s

/-! ### The lock and atomic unit -/

/-- Table 7.12. -/
def lockOpCode : LockOp → Nat
  | .acq => 1
  | .try_ => 2
  | .rel => 3
  | .add => 0x10
  | .min => 0x11
  | .max => 0x12
  | .minu => 0x13
  | .maxu => 0x14
  | .swap => 0x15
  | .cas => 0x16

/-- Table 7.10: the request that a lock command makes of a lock unit. -/
def lockKindOf : LockOp → Option LockKind
  | .acq => some .acq
  | .try_ => some .try_
  | .rel => some .rel
  | _ => none

/-- The entries of a lock-scope object: lock block, DEVLO, DEVHI (Table 7.11). -/
def lockScopes (s : State) (p : Nat) : List (Nat × Nat × Nat) :=
  match mfind s.cfg (objKey 0x40 0x0032 p) with
  | some (.blob b) => (List.range (min 16 (b.length / 8))).map (fun i =>
      let w := leAt b (8 * i) 8
      (bits w 7 0, bits w 21 8, bits w 35 22))
  | _ => []

/-- R245: the partition to which lock `i` is allocated. -/
def lockOwnerOf (s : State) (i : Nat) : Option Nat := mget (some 0) s.lockOwner (i / 16)

/-- R245: whether a requester may operate on lock `i`: a core of the partition that holds its block, or a remote device
to which that block is opened. -/
def lockAdmits (s : State) (i : Nat) (r : LockReq) : Bool :=
  if r.remote then
    match lockOwnerOf s i with
    | some p => (lockScopes s p).any (fun e => e.1 == i / 16 && decide (e.2.1 ≤ r.dev) && decide (r.dev ≤ e.2.2))
    | none => false
  else lockOwnerOf s i == some r.part

/-- R246, Table 7.10: one operation on lock `i`. The LOCK_ACQ of a core that a halt or fault has stopped is withdrawn where it would
have to wait (R253). DEDUCED, log entry 33. -/
def lockOp (s : State) (i : Nat) (r : LockReq) : State :=
  let who : LockWho := ⟨r.dev, r.core, r.part⟩
  let same (o : LockWho) : Bool := o.dev == r.dev && o.core == r.core
  let l := s.lock i
  match r.kind with
  | .notice =>
    let s := setLock s i { l with waiters := l.waiters.filter (fun o => !same o) }
    match l.st with
    | .held o => if same o then lockAbandon s i else s
    | _ => s
  | .rel =>
    if !lockAdmits s i r then lockReply s who 3 (lockWord l)
    else
      match l.st with
      | .held o =>
        if same o then
          let s := lockPass s i 0 .free
          lockReply s who 0 (lockWord (s.lock i))
        else lockReply s who 0x0A (lockWord l)
      | _ => lockReply s who 0x0A (lockWord l)
  | k =>
    if !lockAdmits s i r then lockReply s who 3 (lockWord l)
    else
      match l.st with
      | .free =>
        let l' : Lock := ⟨.held who, l.waiters⟩
        lockReply (setLock s i l') who 0 (lockWord l')
      | .abandoned =>
        let l' : Lock := ⟨.held who, l.waiters⟩
        lockReply (setLock s i l') who 8 (lockWord l')
      | .held o =>
        if same o then lockReply s who 0x0D (lockWord l)
        else
          match k with
          | .acq =>
            if r.dev = s.devId && (match (s.core r.core).ctl.st with
                | .halted => true
                | .faulted => true
                | _ => false) then
              (match engFlights (s.core r.core) 7 with
               | f :: _ => discardFlight s r.core f
               | [] => s)
            else setLock s i { l with waiters := l.waiters ++ [who] }
          | _ => lockReply s who 9 (lockWord l)

/-- R249, R250: the target of an atomic of core `c` performs it: through a window in remote form, or in local form in a
scratchpad of the core's partition; HBM and CSR space are refused. -/
def atomicPerform (s : State) (c : Nat) (op : LockOp) (d : LockDesc) : State × Nat × W64 :=
  let n := if d.w64 then 8 else 4
  let m : MemOp := .atomic op d.w64 d.opnd d.cmpv
  if isRemote d.addr then
    let (s, a) := selfRemote s (.core c) (remoteAddr d.addr) n d.wtag m
    (s, a.st.que, BitVec.ofNat 64 (leNat a.data))
  else
    let a := d.addr.toNat
    if a < 0x90000000 then
      let (s, r) := localAccess s (a / 2 ^ 21) (.core c) (a % 2 ^ 21) n m 5
      (s, r.st.que, BitVec.ofNat 64 (leNat r.data))
    else if isHbm a ∨ (0x020000000000 ≤ a ∧ a < 0x020100000000) then
      (countStatus s (partOf s c) .denied, RSt.denied.que, 0)
    else (countStatus s (partOf s c) .unmapped, RSt.unmapped.que, 0)

/-- The command at the head of engine 7 begins (R251). -/
def lockKick (s : State) (c : Nat) : State :=
  match engFlights (s.core c) 7 with
  | [] => s
  | f :: _ =>
    if f.begun then s
    else
      let s := modCore s c (fun k => modFlight k f.id (fun f => { f with begun := true }))
      match f.body with
      | .lock op d =>
        if isAtomicOp op then
          sendRemote (count s c 0x74 1 (queSample (.x f.pc) false 0 0 0 0 0)) c d.addr 3 (if d.w64 then 8 else 4) (fun k =>
            { k with subop := BitVec.ofNat 8 (lockOpCode op), wtag := d.wtag, opnd := d.opnd, cmpv := d.cmpv })
        else if lockAway s d then
          emit s (.toDev { devPkt s (partNum s c) c 7 (d.ldev.toNat % 2 ^ 14) d.lock with
            subop := BitVec.ofNat 8 (lockOpCode op) } 0)
        else s
      | _ => s

/-- R251: an engine-7 command ends: its result record, its event flag, its tag. OK and BUSY are successes (Table 7.1). -/
def lockEnd (s : State) (c : Nat) (f : Flight) (status : Nat) (val : W64) : State :=
  match f.body with
  | .lock _ d =>
    let s := if d.resv then
        (spWrite s c d.res (natBytes 8 val.toNat ++ natBytes 1 status ++ natBytes 7 0) 5).1
      else s
    let w := queSample (.x f.pc) true d.lock c (if lockAway s d then d.ldev.toNat % 2 ^ 14 else s.devId) status 0
    let s := if status = 0 then count s c 0x70 1 w else if status = 8 then count s c 0x71 1 w
      else if status = 9 then count s c 0x72 1 w else s
    let s := complete s c f (status != 0 && status != 9)
    let s := if d.eve then setFlags s c (BitVec.ofNat 64 (2 ^ d.evf)) else s
    lockKick s c
  | _ => s

/-- R226, Table 5.4: a QSEND completes with a status, or, where its message held an uncorrectable word, with UNCORRECTED, and the core
then faults. -/
def qsendDone (s : State) (c : Nat) (d : Reg) (mem : Option (Nat × Nat)) (status : Nat) : State :=
  match mem with
  | none => advance (setReg s c d (BitVec.ofNat 64 status)) c
  | some m => memFault (advance (setReg s c d 0x0B) c) c 6 0 m

/-! ### DMA -/

/-- R169: a queue whose binding has ended gives its oldest message to a QRECV that waits for it; the capture is that of
an uncorrectable word (Table 5.4). -/
def wakeRecv (s : State) (c q : Nat) : State :=
  let k := s.core c
  match k.ctl.st, k.ctl.blk with
  | .running, .qrecv d q' dst =>
    if q' = q ∧ (boundBy k q).isNone then
      match serveRecv s c q dst d with
      | (s, some m) => memFault s c 6 0 m
      | (s, none) => s
    else s
  | _, _ => s

/-- R166, R169: a descriptor ends with a status, and a queue that it bound is free for its next consumer. -/
def dmaEnd (s : State) (c e : Nat) (f : Flight) (d : DmaDesc) (status : Nat) : State :=
  match ((s.core c).eng e).bound with
  | some q => wakeRecv (dmaClose s c e f d status) c q
  | none => dmaClose s c e f d status

/-- The bytes of a STREAM_OUT message that begins at `off`. -/
def streamOutLen (d : DmaDesc) (off : Nat) : Nat := min (d.msz * 16) (d.len - off)

/-- R149: engine `e` has made its last read in the own scratchpad. -/
def readsDone (s : State) (c : Nat) (f : Flight) : State := modCore s c (fun k => sbReleaseReads k f.id)

/-- R170: the message of `n` bytes that a STREAM_OUT has read goes out; with poisoned words, or as the last of a stream that is to
stay open, it carries no END. A message of a halting engine is withdrawn at its first NOCREDIT (R253). -/
def streamOutMsg (s : State) (c e : Nat) (d : DmaDesc) (n : Nat) (data : Bytes) (poison : List Nat) : State :=
  let g := (s.core c).eng e
  let s := modDma s c e (fun g => { g with bad := if poison = [] then g.bad else some 7 })
  let last := d.len ≤ g.off + n
  let dst := Dest.uni (bits d.dst.toNat 15 0) (bits d.dst.toNat 29 16) (bits d.dst.toNat 30 30 == 1)
  let s := count s c 0x5E 1 (match curDma (s.core c) e with
    | some (f, _, _) => engSample f false 0 0
    | none => bareSample)
  startSend s (.dma c ⟨e % 4, Nat.mod_lt _ (by decide)⟩)
    { mkSend data (d.endm && decide last && poison == []) dst poison (destMembers s dst) with halting := g.halting }

/-- R170: a STREAM_OUT reads its next message: from the own scratchpad at once, and the message goes out; elsewhere it asks for the
bytes, which arrive as a fill. -/
def streamOutSend (s : State) (c e : Nat) (f : Flight) (d : DmaDesc) : State :=
  let g := (s.core c).eng e
  let n := streamOutLen d g.off
  let src := d.src + BitVec.ofNat 64 g.off
  let s := modCore s c (fun k => modFlight k f.id (fun f => { f with begun := true }))
  if inOwnSp c src then
    let (s, bs, bad) := spRead s c (src.toNat % 2 ^ 21) n 6
    let s := if d.len ≤ g.off + n ∨ bad ≠ [] then readsDone s c f else s
    streamOutMsg s c e d n bs (bad.map (fun w => w - src.toNat % 2 ^ 21))
  else
    let b : Burst := { k := g.nextK, len := n, src := src, dst := 0, data := none, poison := [], status := none }
    let s := modDma s c e (fun g => { g with nextK := g.nextK + 1, bursts := g.bursts ++ [b] })
    sendRemote s c src 2 n (fun k => { k with wtag := d.wtag, size := (n + 15) / 16 })

/-- Begins what the head descriptor of an idle engine begins of itself: a STREAM_IN binds its queue and consumes what it
holds; a STREAM_OUT sends its first message (R169, R170). -/
def dmaKick (s : State) (c e : Nat) : State :=
  match curDma (s.core c) e with
  | some (f, .streamIn, d) =>
    let g := (s.core c).eng e
    if g.bound.isNone ∧ g.endStatus.isNone then
      let s := modCore s c (fun k => modFlight k f.id (fun f => { f with begun := true }))
      streamPump queueFuel (modDma s c e (fun g => { g with bound := some (streamQ d) })) c e
    else s
  | some (f, .streamOut, d) =>
    let g := (s.core c).eng e
    if g.off = 0 ∧ ¬ f.begun ∧ g.endStatus.isNone then streamOutSend s c e f d else s
  | _ => s

/-- R166, R168: a descriptor ends with a status; the engine takes its next, after the notification where there is one. -/
def dmaEndNext (s : State) (c e : Nat) (f : Flight) (d : DmaDesc) (status : Nat) : State :=
  let s := dmaEnd s c e f d status
  if d.ntf then s else dmaKick s c e

/-- R168: after a burst has returned, the descriptor ends where it is due, and the engine takes its next. A descriptor that has failed
reads no more (R149). -/
def dmaCheckEnd (s : State) (c e : Nat) : State :=
  match curDma (s.core c) e with
  | some (f, op, d) =>
    let s := if ((s.core c).eng e).bad.isSome then readsDone s c f else s
    match dmaStatus ((s.core c).eng e) op d with
    | some st => dmaEndNext s c e f d st
    | none => s
  | none => s

/-! ### Issue to an engine (R188) -/

/-- After a command has been queued, each engine begins what it can. -/
def engKick (s : State) (c : Nat) (b : EngBody) : State :=
  match b with
  | .press _ => pressAdvance 8 (wantRamp s c) c
  | .vec _ _ => s
  | .dma e _ _ => dmaKick s c e.val
  | .que _ => queKick 8 s c
  | .lock _ _ => lockKick s c

/-- R188 step 5, R189: the command is queued; with SYNC the control unit waits for its completion, else it goes on. A
command that has completed already, or a fault that it led to, leaves no wait. -/
def xQueue (s : State) (c : Nat) (x : XCmd) : State :=
  let id := (s.core c).nextId
  let s := enqueue s c x
  let s := count s c 0x02 1
  let s := if x.iss.sync then block s c (.sync id) else advance s c
  engKick s c x.body

/-- R188 steps 3 to 5 for the instruction word `w`. -/
def xIssue (s : State) (c : Nat) (w : W32) (x : XCmd) : State :=
  match engRefuse s c x.body with
  | some (code, detail) =>
    cuFault s c code (engOf x.body) x.iss.tag.val w detail (BitVec.ofNat 64 x.iss.doff) 0 0
  | none => if engStalls s c x then block s c (.x x (engRanges (s.core c) c (s.core c).nextId x.body)) else xQueue s c x

/-- An X instruction whose descriptor the control unit has read: the rows of the engines' commands.
DESIGN CHOICE, log entry 11. -/
def engRow (s : State) (c : Nat) (i : Issue) (b : EngBody) : State :=
  issue s c (fun s => xIssue s c (fetchWord s c) ⟨i, b⟩)

/-! ### Halt and run (R196) -/

/-- A halt takes effect in the control unit of core `c` at an instruction boundary: a blocked instruction is abandoned
with PC on it, but an X with SYNC that has been queued goes to the next instruction. -/
def haltNow (s : State) (c : Nat) : State :=
  let k := (s.core c).ctl
  match k.st with
  | .running | .ending =>
    let s := match k.blk with
      | .sync _ => modCtl s c (fun t => { t with pc := t.pc + 4 })
      | _ => s
    enginesHalt (modCtl s c (fun t => { t with resume := k.st, st := .halted, blk := .none })) c
  | _ => s

/-- A message of a halting sender was refused for want of credit: it is withdrawn, and the halt takes effect (R196,
R253). DEDUCED, log entry 33. -/
def haltWithdraw (s : State) (p : SendPath) : State :=
  let (s, gone) := withdraw s p
  if gone then
    match p with
    | .ctl c => haltNow (modCtl s c (fun t => { t with blk := .none })) c
    | .que c =>
      match engFlights (s.core c) 6 with
      | f :: _ => discardFlight s c f
      | [] => s
    | .dma c e =>
      match curDma (s.core c) e.val with
      | some (f, _, d) =>
        if ((s.core c).eng e.val).noting then dmaFinish s c e.val f d (((s.core c).eng e.val).endStatus.getD 2)
        else dmaEnd s c e.val f d 2
      | none => s
    | .fn _ _ => s
    | .fwd _ _ => s
  else s

end Sys2Proof.Machine
end

