-- ==== Sys2Proof/Machine/Dma.lean ====
section
/-!
DEFINITION. The DMA commands (R164) and the events of the DMA engines: bursts sent, filled and acknowledged, and the
answers to stream messages and notifications (R163, R166 to R170).
-/

namespace Sys2Proof.Machine

/-- DMA COPY is issued (R164, R165). -/
def execDmaCopy (c : Nat) (e : Fin 4) (i : Issue) (d : DmaDesc) (s : State) : Res := .next (engRow s c i (.dma e .copy d))

/-- DMA FILL is issued (R164, R165). -/
def execDmaFill (c : Nat) (e : Fin 4) (i : Issue) (d : DmaDesc) (s : State) : Res := .next (engRow s c i (.dma e .fill d))

/-- STREAM_IN is issued (R165, R169). -/
def execStreamIn (c : Nat) (e : Fin 4) (i : Issue) (d : DmaDesc) (s : State) : Res :=
  .next (engRow s c i (.dma e .streamIn d))

/-- STREAM_OUT is issued (R165, R170). -/
def execStreamOut (c : Nat) (e : Fin 4) (i : Issue) (d : DmaDesc) (s : State) : Res :=
  .next (engRow s c i (.dma e .streamOut d))

/-- The bytes of a FILL burst that begins `off` bytes into its row (PAT is repeated from each row's start). -/
def fillBytes (pat : W64) (off n : Nat) : Bytes := (List.range n).map (fun i => (natBytes 8 pat.toNat).getD ((off + i) % 8) 0)

/-- A burst of a COPY or FILL as it begins: a source in the core's own scratchpad is read at once through the DMA port;
any other source is asked for. -/
def beginBurst (s : State) (c : Nat) (op : DmaOp) (d : DmaDesc) (g : DmaEng) (n : Nat) : State × Burst :=
  let src := d.src + BitVec.ofNat 64 (g.row * d.spitch + g.off)
  let b : Burst :=
    { k := g.nextK, len := n, src := src, dst := d.dst + BitVec.ofNat 64 (g.row * d.dpitch + g.off), data := none,
      poison := [], status := none }
  match op with
  | .fill => (s, { b with data := some (fillBytes d.pat g.off n) })
  | _ =>
    if inOwnSp c src then
      let (s, bs, bad) := spRead s c (src.toNat % 2 ^ 21) n 6
      (s, { b with data := some bs, poison := bad.map (fun w => w - src.toNat % 2 ^ 21) })
    else (s, b)

/-- R162, R163: engine `e` begins the next burst of its COPY or FILL, with room for one of its 8 and no burst failed. -/
def execDmaBurstSend (c : Nat) (e : Fin 4) (s : State) : Res :=
  .next (
    let g := (s.core c).eng e.val
    match curDma (s.core c) e.val with
    | some (f, op, d) =>
      if (op == .copy || op == .fill) && decide (g.row < d.rows) && decide (g.bursts.length < 8) && g.bad.isNone &&
          !g.halting && g.endStatus.isNone then
        let n := min d.burst (d.len - g.off)
        let (s, b) := beginBurst s c op d g n
        let s := match b.data with
          | some bs => sendRemote s c b.dst 1 b.len (fun k => { carry k bs b.poison with wtag := d.wtag })
          | none => sendRemote s c b.src 2 b.len (fun k => { k with wtag := d.wtag, size := (b.len + 15) / 16 })
        let s := modCore s c (fun k => modFlight k f.id (fun f => { f with begun := true }))
        let last := decide (d.len ≤ g.off + n)
        let s := modDma s c e.val (fun g =>
          { g with
            row := if last then g.row + 1 else g.row
            off := if last then 0 else g.off + n
            nextK := g.nextK + 1
            bursts := g.bursts ++ [b] })
        let s := if d.rows ≤ ((s.core c).eng e.val).row then readsDone s c f else s
        let w := engSample f true 0 0
        let s := count (count s c 0x51 1 w) c 0x52 ((n + 63) / 64) (engSample f false 0 0)
        let s := if isHbm b.src.toNat || isHbm b.dst.toNat then count s c 0x53 1 w else s
        if isRemote b.dst || (op == .copy && isRemote b.src) then count s c 0x54 1 w else s
      else s
    | none => s)

def setBurst (g : DmaEng) (k : Nat) (h : Burst → Burst) : DmaEng :=
  { g with bursts := g.bursts.map (fun b => if b.k == k then h b else b) }

/-- R163, R167: a burst with all its data is written whole at its destination; `status` and the poison are those of
another device where the destination is one. Answers the status of Table 5.6. -/
def writeBurst (s : State) (c : Nat) (d : DmaDesc) (b : Burst) (bs : Bytes) (status : Nat) : State × Nat :=
  let (s, st) :=
    if isRemote b.dst then
      if remoteDev b.dst = s.devId then
        let (s, a) := selfRemote s (.core c) (remoteAddr b.dst) b.len d.wtag (.write bs b.poison)
        (s, a.st.dma)
      else (s, (RSt.ofQue status).dma)
    else
      let (s, r) := memWrite s (.core c) b.dst.toNat bs b.poison (if inOwnSp c b.dst then 6 else 5)
      (s, r.dma)
  (s, if st = 0 ∧ b.poison ≠ [] then 7 else st)

/-- R345: whether the write of a burst waits at a stack. -/
def writeHeld (s : State) (c : Nat) (b : Burst) : Bool := !isRemote b.dst && memHeld s (.core c) b.dst.toNat b.len

/-- R163, R152: the data that burst `b` asked for, as its source answers; `status`, `data` and `poison` are those of another device. -/
def fetchBurst (s : State) (c : Nat) (d : DmaDesc) (b : Burst) (status : Nat) (data : Bytes) (poison : List Nat) : State × MemAns :=
  if isRemote b.src then
    if remoteDev b.src = s.devId then selfRemote s (.core c) (remoteAddr b.src) b.len d.wtag .read
    else (s, ⟨RSt.ofQue status, padTo b.len data, poison⟩)
  else memRead s (.core c) b.src.toNat b.len 5

/-- R168, R170: the read of a STREAM_OUT is refused: its descriptor ends with that status. -/
def streamOutRefused (s : State) (c : Nat) (e : Fin 4) (f : Flight) (d : DmaDesc) (k st : Nat) : State :=
  dmaEndNext (modDma s c e.val (fun g => { g with bursts := g.bursts.filter (fun x => x.k != k) })) c e.val f d st

/-- R260, R163, R170: the data that burst `k` asked for arrives. A COPY's is written whole at the destination; a STREAM_OUT's goes out as
its next message; a refused read returns its status and moves nothing. At a stack without tokens for it, the read waits (R345).
DEDUCED, log entry 27. -/
def execDmaFillArrive (c : Nat) (e : Fin 4) (k : Nat) (status : Nat) (data : Bytes) (poison : List Nat) (s : State) : Res :=
  .next (
    match curDma (s.core c) e.val, ((s.core c).eng e.val).bursts.find? (fun b => b.k == k && b.data.isNone && b.status.isNone) with
    | some (f, op, d), some b =>
      if !isRemote b.src && memHeld s (.core c) b.src.toNat b.len then s
      else
        let (s, a) := fetchBurst s c d b status data poison
        match a.st with
        | .ok | .uncorrected =>
          let s := count s c 0x5C 1 (engSample f false 0 0)
          let b := { b with data := some a.data, poison := a.poison }
          if op = .streamOut then
            streamOutMsg (modDma s c e.val (fun g => { g with bursts := g.bursts.filter (fun x => x.k != k) })) c e.val d b.len a.data a.poison
          else if isRemote b.dst && remoteDev b.dst != s.devId then
            modDma (sendRemote s c b.dst 1 b.len (fun p => { carry p a.data a.poison with wtag := d.wtag })) c e.val
              (fun g => setBurst g k (fun _ => b))
          else if writeHeld s c b then modDma s c e.val (fun g => setBurst g k (fun _ => b))
          else
            let (s, st) := writeBurst s c d b a.data 0
            modDma s c e.val (fun g => setBurst g k (fun _ => { b with status := some st }))
        | st =>
          if op = .streamOut then streamOutRefused s c e f d k st.dma
          else modDma s c e.val (fun g => setBurst g k (fun b => { b with status := some st.dma }))
    | _, _ => s)

/-- R166, R168: the outcome of burst `k` reaches its engine. A burst not yet written is written at its destination first, where it may
wait at a stack (R345). The first status other than OK stops the descriptor; when its last burst is back, it ends. A STREAM_OUT whose
read has an outcome ends with it. -/
def burstAck (s : State) (c : Nat) (e : Fin 4) (k : Nat) (status : Nat) : State :=
  match curDma (s.core c) e.val, ((s.core c).eng e.val).bursts.find? (fun b => b.k == k) with
  | some (f, op, d), some b =>
    if b.status.isNone && b.data.isSome && writeHeld s c b then s
    else
      let (s, st) := match b.status, b.data with
        | some st, _ => (s, some st)
        | none, some bs => let (s, st) := writeBurst s c d b bs status; (s, some st)
        | none, none => (s, none)
      match st with
      | none => s
      | some st =>
        if op = .streamOut then streamOutRefused s c e f d k st
        else
          let s := modDma s c e.val (fun g =>
            { g with
              bursts := g.bursts.filter (fun x => x.k != k)
              done := if st = 0 then g.done + b.len else g.done
              bad := if st = 0 then g.bad else g.bad.orElse (fun _ => some st) })
          dmaCheckEnd (streamPump queueFuel s c e.val) c e.val
  | _, _ => s

/-- R166, R168: the acknowledgement or refusal of burst `k` returns. -/
def execDmaBurstAck (c : Nat) (e : Fin 4) (k : Nat) (status : Nat) (s : State) : Res := .next (burstAck s c e k status)

/-- R170, R168: the answer to the message in flight of a STREAM_OUT: accepted, the next is sent or the descriptor ends;
refused finally, the descriptor ends with the status of that name; refused for want of credit, it waits (R224). -/
def streamOutAnswer (s : State) (c : Nat) (e : Fin 4) (ext : MsgAns) : State :=
  let g := (s.core c).eng e.val
  match curDma (s.core c) e.val with
  | some (f, .streamOut, d) =>
    if g.noting then s
    else
      let s := memberOutcome s (.dma c e) 0 ext
      match sendOf s (.dma c e) with
      | none => s
      | some m =>
        if sendDone m then
          let s := dropSend s (.dma c e)
          let st := sendStatus m
          if st = 0 then
            let s := modDma s c e.val (fun g => { g with done := g.done + m.bytes.length, off := g.off + m.bytes.length })
            let g := (s.core c).eng e.val
            match g.bad with
            | some b => dmaEndNext s c e.val f d b
            | none =>
              if d.len ≤ g.off then dmaEndNext s c e.val f d 0
              else if g.halting then dmaEnd s c e.val f d 2
              else streamOutSend s c e.val f d
          else
            dmaEndNext s c e.val f d (match st with
              | 2 => 4
              | 3 => 5
              | 4 => 0xA
              | 5 => 0xB
              | 6 => 8
              | _ => 9)
        else if m.halting then haltWithdraw s (.dma c e)
        else s
  | _ => s

/-- R170, R168: the answer to the message in flight of a STREAM_OUT: accepted, the next is sent or the descriptor ends;
refused finally, the descriptor ends with the status of that name; refused for want of credit, it waits (R224). -/
def execStreamOutMessageAnswer (c : Nat) (e : Fin 4) (ext : MsgAns) (s : State) : Res := .next (streamOutAnswer s c e ext)

/-- R166: the answer to an engine's notification. Accepted or refused finally, the descriptor's tag completes with the
descriptor's own status; for want of credit it waits. -/
def notifyAnswer (s : State) (c : Nat) (e : Fin 4) (ext : MsgAns) : State :=
  let g := (s.core c).eng e.val
  match curDma (s.core c) e.val with
  | some (f, _, d) =>
    if g.noting then
      let s := memberOutcome s (.dma c e) 0 ext
      match sendOf s (.dma c e) with
      | none => s
      | some m =>
        if sendDone m then
          dmaKick (dmaFinish (dropSend s (.dma c e)) c e.val f d (g.endStatus.getD 0)) c e.val
        else if m.halting then haltWithdraw s (.dma c e)
        else s
    else s
  | none => s

/-- R166: the answer to an engine's notification. Accepted or refused finally, the descriptor's tag completes with the
descriptor's own status; for want of credit it waits. -/
def execDmaNotifyAnswer (c : Nat) (e : Fin 4) (ext : MsgAns) (s : State) : Res := .next (notifyAnswer s c e ext)

end Sys2Proof.Machine
end

