-- ==== Sys2Proof/Machine/HostOps.lean ====
section
/-!
DEFINITION. The launch engines of the host dies and the functions they serve (R349 to R370): partition views, rings,
fetching, launch messages, completions and interrupts.
-/

namespace Sys2Proof.Machine

/-! ### Functions and partitions -/

def HostFn.ring (k : HostFn) (r : Nat) : Ring := mget Ring.reset k.rings r
def modRing (s : State) (h f r : Nat) (g : Ring → Ring) : State :=
  modFn s h f (fun k => { k with rings := mset k.rings r (g (k.ring r)) })

/-- R354, R365, R369: an access or completion dropped or refused. -/
def countDrop (s : State) (h f : Nat) : State := modFn s h f (fun k => { k with drop := satInc k.drop 1 })

/-- R366: a partition exists while it owns a core group. -/
def partExists (s : State) (p : Nat) : Bool := (List.range 96).any (fun g => (s.grp g).part == some p)

/-- R368, Table 11.7: whether VF `p` of host die `h` serves no partition. Functions are numbered 0 PF, p + 1 VFp. -/
def noPart (s : State) (h f : Nat) : Bool :=
  f != 0 && !(partExists s (f - 1) && (cfgNum s 0x40 0x0004 (f - 1) 3).testBit h)

/-- R353: the HBM units of partition `p`, ascending. -/
def ownedUnits (s : State) (p : Nat) : List Nat := (List.range 768).filter (fun u => unitOwner s u == some p)

/-- The global address of byte 0 of HBM unit `u`. -/
def unitAddr (u : Nat) : Nat := hbmBase + u / 48 * stackSize + u % 48 * 2 ^ 30

/-- R356: the global address of offset `x` of a function's HBM view: the offset of R325 for the PF, the packed view of
R353 for a VF. -/
def viewAddr (s : State) (f x : Nat) : Option Nat :=
  if f = 0 then (if x < 16 * stackSize then some (hbmBase + x) else none)
  else (ownedUnits s (f - 1))[x / 2 ^ 30]?.map (fun u => unitAddr u + x % 2 ^ 30)

def Ring.size (r : Ring) : Nat := 2 ^ r.log2sz

/-- R356: whether a submission ring lies wholly in its function's view. -/
def ringInView (s : State) (f : Nat) (r : Ring) : Bool :=
  let last := r.sqbase * 4096 + r.size * 128 - 1
  (viewAddr s f last).isSome && (viewAddr s f (r.sqbase * 4096)).isSome

/-! ### Interrupts and completions (R363 to R365) -/

/-- R365: vector 4, for a function event. -/
def functionEvent (s : State) (h f : Nat) : State := if (s.host h).up then sendVector s h f 4 else s

/-- R357, R356, R365: a ring stops with a cause. A ring that a refused completion write has stopped keeps its cause.
DEDUCED, log entry 34. -/
def stopRing (s : State) (h f r cause : Nat) : State :=
  functionEvent (modRing s h f r (fun g => { g with err := true, cause := if g.err && g.cause == 3 then 3 else cause })) h f

/-- R364: the 32 bytes of a completion record. -/
def completionBytes (status : Nat) (phase : Bool) (r seq lid ndone fcore fcode : Nat) (echo : W64) : Bytes :=
  natBytes 1 status ++ natBytes 1 ((if phase then 1 else 0) + 2 * r) ++ natBytes 2 seq ++ natBytes 4 lid ++
  natBytes 2 ndone ++ natBytes 2 fcore ++ natBytes 1 fcode ++ natBytes 3 0 ++ natBytes 8 echo.toNat ++ natBytes 8 0

/-- R365: after a completion, the ring's vector is sent when COUNT are unsignalled, or at once with TIME 0. -/
def coalesce (s : State) (h f r : Nat) : State :=
  let g := ((s.host h).fn f).ring r
  if g.coalTime = 0 ∨ g.coalCount ≤ g.unsig then
    sendVector (modRing s h f r (fun g => { g with unsig := 0 })) h f r
  else s

/-- R363 to R365, R369: the completion of a fetched record is posted: written to the host's ring, or, where the ring is
stopped by a refused write or the host die's link is down, discarded and counted. A disabled ring receives none.
DEDUCED, log entry 34. -/
def post (s : State) (h f r seq lid status ndone fcore fcode : Nat) : State :=
  let g := ((s.host h).fn f).ring r
  if !(s.host h).up || (g.err && g.cause == 3) then
    countDrop (modRing s h f r (fun g => { g with out := g.out - 1 })) h f
  else
    let addr := g.cqhi * 2 ^ 32 + g.cqlo * 2 ^ 12 + g.cqtail * 32
    let s := emit s (.hostWrite h f addr (completionBytes status g.phase r seq lid ndone fcore fcode (edgeEcho s (24 + h))))
    let s := modRing s h f r (fun g =>
      { g with
        out := g.out - 1
        used := g.used + 1
        unsig := g.unsig + 1
        cqtail := (g.cqtail + 1) % g.size
        phase := if g.cqtail + 1 = g.size then !g.phase else g.phase })
    coalesce s h f r

/-! ### Launches in flight (R359 to R363) -/

def sameRing (a b : Launch) : Bool := a.h == b.h && a.f == b.f && a.r == b.r

/-- R363: whether every earlier record of a launch's ring has completed. -/
def earlierDone (s : State) (l : Launch) : Bool :=
  s.launches.all (fun x => !(sameRing x l && decide (x.order < l.order)) || x.posted)

def setLaunch (s : State) (l : Launch) : State :=
  { s with launches := s.launches.map (fun x => if x.order == l.order then l else x) }

/-- The launch whose next message may be sent on the path of function `f`: the oldest with targets left, not held by its
WAIT, and with no earlier record of its ring still sending (R360, R362). -/
def nextToSend (s : State) (h f : Nat) : Option Launch :=
  s.launches.find? (fun l => l.h == h && l.f == f && !l.fence && decide (l.next < l.ccount) &&
    (!l.wait || earlierDone s l) &&
    s.launches.all (fun x => !(sameRing x l && decide (x.order < l.order)) || x.fence || decide (x.ccount ≤ x.next)))

/-- R362: the launch message for a launch's next target. -/
def launchBytes (l : Launch) : Bytes :=
  l.msg.take 72 ++ natBytes 2 l.seq ++ natBytes 1 (l.r + 4 * l.h + 8 * l.f) ++ natBytes 3 0 ++ natBytes 2 l.next ++
    l.msg.drop 72

/-- R361, R362: function `f`'s path sends its next launch message where it has none in flight. -/
def launchPump (s : State) (h f : Nat) : State :=
  if (sendOf s (.fn h f)).isSome then s
  else
    match nextToSend s h f with
    | none => s
    | some l =>
      startSend (setLaunch s { l with sending := true }) (.fn h f)
        { bytes := launchBytes l, endm := false, mc := false, chan := 0, sys := true, poison := [], halting := false,
          orig := none, crossed := 0, members := [⟨.local_ (l.cfirst + l.next) 31, .sent⟩] }

/-- FENCE records and finished launches of a ring are settled: a FENCE with every earlier record completed is completed
OK (R360), and a launch with no target left leaves the engine. `fuel` bounds the records settled. -/
def settle (fuel : Nat) (s : State) (h f r : Nat) : State :=
  match fuel with
  | 0 => s
  | fuel + 1 =>
    match s.launches.find? (fun l => l.h == h && l.f == f && l.r == r && l.fence && !l.posted && earlierDone s l) with
    | some l =>
      let s := post s h f r l.seq l.lid 0 0 0x7FF 0
      settle fuel { s with launches := s.launches.filter (fun x => x.order != l.order) } h f r
    | none => s

/-- After a record of a ring has completed: fences behind it, then its function's path (R360, R362). -/
def afterPost (s : State) (h f r : Nat) : State := launchPump (settle 256 s h f r) h f

/-- R363: the record of a launch after a target has ended, faulted or been reset: its completion is posted where due, and
it leaves when no target is left. -/
def launchUpdate (s : State) (l : Launch) : State :=
  let left := l.ccount - (l.ended.length + l.gone.length)
  if l.posted then
    if left = 0 then { s with launches := s.launches.filter (fun x => x.order != l.order) } else setLaunch s l
  else if left = 0 then
    let s := post s l.h l.f l.r l.seq l.lid (if l.gone = [] then 0 else 5) l.ended.length 0x7FF 0
    afterPost { s with launches := s.launches.filter (fun x => x.order != l.order) } l.h l.f l.r
  else setLaunch s l

/-- R363: the first fault of a launch posts FAULT at once. -/
def launchFault (s : State) (l : Launch) (c code : Nat) : State :=
  let l := { l with gone := l.gone ++ [c] }
  if l.posted then launchUpdate s l
  else
    let s := post s l.h l.f l.r l.seq l.lid 1 l.ended.length c code
    let l := { l with posted := true, fcore := c, fcode := code }
    afterPost (launchUpdate (setLaunch s l) l) l.h l.f l.r

/-- The outcome of a launch message (R362): accepted, the next target follows; refused finally, the target is one that a
reset has taken. DEDUCED, log entry 35. -/
def launchSent (s : State) (h f st : Nat) : State :=
  let s := dropSend s (.fn h f)
  match s.launches.find? (fun l => l.h == h && l.f == f && l.sending) with
  | none => launchPump s h f
  | some l =>
    let c := l.cfirst + l.next
    let l := { l with next := l.next + 1, sending := false }
    let s := if st = 0 then setLaunch s l else launchUpdate (setLaunch s l) { l with gone := l.gone ++ [c] }
    launchPump s h f

end Sys2Proof.Machine
end

