-- ==== Sys2Proof/Machine/ResetOps.lean ====
section
/-!
DEFINITION. What resets do to cores, groups, partitions and launches (R132, R172, R197, R247, R254, R277, R278, R369,
R447 to R453), the state that the device returns to (R41, R437), and lost groups (R459, R460).
-/

namespace Sys2Proof.Machine

/-! ### Domains and device state -/

/-- The state of domain `d` (Table 13.14). -/
def domOf (s : State) (d : Nat) : DomSt := mget .off s.pwr.doms d
def setDom (s : State) (d : Nat) (x : DomSt) : State := modPwr s (fun p => { p with doms := mset p.doms d x })

def State.port (s : State) (p : Nat) : Port := mget Port.reset s.links.ports p
def modPort (s : State) (p : Nat) (f : Port → Port) : State :=
  modLinks s (fun l => { l with ports := mset l.ports p (f (s.port p)) })

/-- Table 13.5: the STEP cap of a field with `n` live phases. -/
def phaseCap (n : Nat) : Nat :=
  if 10 ≤ n then 80 else if n = 9 then 56 else if n = 8 then 40 else if n = 7 then 16 else 0

/-- The live phases of field `n` (FLD_PWR.LIVE). -/
def livePhases (s : State) (n : Nat) : Nat := countBits 12 (s.field n).live

/-- R41, Table 14.11: what keeps the device from READY: state.degraded_by. -/
def degradedBy (s : State) : Nat :=
  (if (List.range 96).any (fun g => !grpPresent s g) then 1 else 0) +
  (if (List.range 40).any (fun p => (s.port p).en && (s.port p).st != .admitted) then 2 else 0) +
  (if (List.range 16).any (fun i => (s.stack i).st != .ready) then 4 else 0) +
  (if (List.range 12).any (fun n => decide (livePhases s n < 10)) then 8 else 0)

/-- PWR_THROTTLE and its total count a throttle event (R417, R420, R425, Table 13.7). -/
def countThrottle (s : State) : State :=
  modPwr s (fun w =>
    { w with
      throttle := satInc w.throttle 1
      throttleTotal := w.throttleTotal + 1 })

/-- R437: whether the host path is present. -/
def hostPath (s : State) : Bool := domOf s 132 == .on || domOf s 133 == .on

/-- R41: whether the device meets the conditions of READY or DEGRADED. -/
def serviceable (s : State) : Bool := hostPath s && (List.range 96).any (grpPresent s)

/-- R437: READY and DEGRADED are evaluated anew. -/
def reevaluate (s : State) : State :=
  match s.dev with
  | .ready | .degraded => setDev s (if degradedBy s = 0 then .ready else .degraded) 0
  | _ => s

/-! ### Messages of and for a core under reset (R254, R278) -/

/-- R278: a packet on its way from a core that has been reset was either fully sent, and goes on, or ends with an abort
tail; which is open (log entry 4). The path that carries it on is one of its own, that no answer leaves.
DEDUCED, log entry 40. -/
def orphanPath (s : State) : SendPath := .fwd s.devId (2 ^ 32 + s.fresh)

/-- Whether a path carries messages of a core that has been reset. -/
def isOrphan (p : SendPath) : Bool :=
  match p with
  | .fwd _ t => decide (2 ^ 32 ≤ t)
  | _ => false

/-- The records of a sender at a queue pass to another path. -/
def rekeyWaiter (s : State) (c q : Nat) (a b : Sender) : State :=
  modQ s c q (fun u =>
    { u with
      waiters := u.waiters.map (fun w => if w = a then b else w)
      reserved := u.reserved.map (fun r => if r.2 = a then (r.1, b) else r) })

/-- R254, R278: the message in flight of a path of a core under reset. A copy refused for want of credit keeps its waiter
record until its grant comes; a copy that is being resent is answered DEST_RESET, which frees its entry.
DEDUCED, log entry 40. -/
def orphanSend (s : State) (x : InFlight) : State :=
  let (full, s1) := drawBool s
  let p := orphanPath s
  let s := dropSend s1 x.path
  let info := senderMeta s x.path x.send
  let step (acc : State × List Member) (k : Nat) : State × List Member :=
    match x.send.members[k]? with
    | none => acc
    | some m =>
      let (s, ms) := acc
      match m.st, localDest s m.dest with
      | .sent, _ => (s, ms ++ [if full then m else { m with st := .final 6 }])
      | .waiting, some (c, q) => (rekeyWaiter s c q (.path x.path k) (.path p k), ms ++ [m])
      | .waiting, none => (s, ms ++ [m])
      | .granted, some (c, q) => (unwait s c q (.path x.path k), ms ++ [{ m with st := .final 6 }])
      | _, _ => (s, ms ++ [{ m with st := .final 6 }])
  let (s, ms) := (List.range x.send.members.length).foldl step (s, [])
  if ms.all (fun m => (isFinal m).isSome) then s
  else { s with sends := s.sends ++ [⟨p, { x.send with members := ms, orig := some info, halting := false }⟩] }

/-- Whether a path belongs to core `c`. -/
def pathOf (c : Nat) (p : SendPath) : Bool :=
  match p with
  | .ctl c' => c' == c
  | .que c' => c' == c
  | .dma c' _ => c' == c
  | .fn _ _ => false
  | .fwd _ _ => false

/-- R254: every sender recorded at a queue of core `c` is answered DEST_RESET. -/
def answerWaiters (s : State) (c : Nat) : State :=
  (s.core c).que.qs.foldl (fun s (p : Nat × Queue) =>
    (p.2.waiters ++ p.2.reserved.map (·.2)).foldl (fun s w =>
      match w with
      | .path x k => setMember s x k (.answered 6)
      | .ext d t => emit s (.answer d t 6 [])) s) s

/-! ### Bursts of a core under reset (R172, R278) -/

/-- R172: a burst already sent is delivered or dropped, which is open (log entry 4); its engine learns nothing of it. -/
def landBurst (s : State) (c : Nat) (d : DmaDesc) (b : Burst) : State :=
  let (full, s) := drawBool s
  if !full || b.status.isSome then s
  else
    match b.data with
    | some bs => (writeBurst s c d b bs 0).1
    | none =>
      if isRemote b.src then s
      else
        let (s, a) := memRead s (.core c) b.src.toNat b.len 5
        match a.st with
        | .ok | .uncorrected => (writeBurst s c d { b with data := some a.data, poison := a.poison } a.data 0).1
        | _ => s

def landBursts (s : State) (c : Nat) : State :=
  (List.range 4).foldl (fun s e =>
    match curDma (s.core c) e with
    | some (_, _, d) => ((s.core c).eng e).bursts.foldl (fun s b => landBurst s c d b) s
    | none => s) s

/-! ### Launches that a reset ends (R363, R449, R451) -/

/-- R233: an EVPOST of core `score` of device `sdev` reaches core `t`: it sets flags 32 to 63 under its mask, or is refused. -/
def evpostAt (s : State) (t sdev spart score : Nat) (mask : W32) : State × Nat :=
  if !present s t then (s, 2)
  else if (s.core t).crst then (dropAtCore s t (some spart) score, 6)
  else
    let u := (s.core t).que
    if admits s t u.evtScope u.evtLo u.evtHi sdev spart then (setFlags s t (mask.setWidth 64 <<< 32), 0)
    else (countRefusal s t 3 0 spart score sdev true, 3)

/-- R278: what else core `c` had sent when its reset came, and that had not arrived: an EVPOST, a lock request or an atomic of this
device was either fully sent, and arrives before the reset notice of R247, or is dropped, which is open (log entry 4).
DEDUCED, log entry 40. -/
def landFlights (s : State) (c : Nat) : State :=
  (s.core c).flights.foldl (fun s f =>
    if !f.begun then s
    else
      match f.body with
      | .que (.evpost d) =>
        let (full, s) := drawBool s
        if full ∧ tgtDev s d.tgt = s.devId ∧ f.result = 0 then
          (evpostAt s (d.tgt.toNat % 2 ^ 11) s.devId (partNum s c) c d.mask).1
        else s
      | .lock op d =>
        if s.lockReplies.any (fun r => r.core == c) || s.locks.any (fun p => p.2.waiters.any (fun w => w.dev == s.devId && w.core == c)) then s
        else
          let (full, s) := drawBool s
          if !full then s
          else if isAtomicOp op then
            (if isRemote d.addr && remoteDev d.addr != s.devId then s else (atomicPerform s c op d).1)
          else if lockAway s d then s
          else
            match lockKindOf op with
            | some k => lockOp s d.lock ⟨k, s.devId, c, partNum s c, false⟩
            | none => s
      | _ => s) s

/-- R278: the global access of core `c` in flight when its reset comes: fully sent, or dropped, which is open (log entry 4). -/
def lateAccess (s : State) (c : Nat) : State × Option GAccess :=
  match (s.core c).ctl.blk with
  | .gacc g =>
    let (full, s) := drawBool s
    (s, if full && !(isRemote g.addr && remoteDev g.addr != s.devId) then some g else (s.core c).late)
  | _ => (s, (s.core c).late)

/-- Whether core `c` has accepted its part of a launch and neither ended nor left it. -/
def pendingTarget (l : Launch) (c : Nat) : Bool :=
  !l.fence && decide (l.cfirst ≤ c) && decide (c < l.cfirst + l.next) && !l.ended.contains c && !l.gone.contains c

/-- R451: the launches that count on core `c` learn that it has been reset. DEDUCED, log entry 35. -/
def reportReset (s : State) (c : Nat) : State :=
  let told (l : Launch) : Bool :=
    s.reports.any (fun r => r.core == c && r.src == l.r + 4 * l.h + 8 * l.f && r.seq == l.seq)
  { s with
    reports := s.reports ++ (s.launches.filter (fun l => pendingTarget l c && !told l)).map (fun l =>
      ⟨c, l.r + 4 * l.h + 8 * l.f, l.seq, .reset⟩) }

/-- R448, R449, R445: a launch in flight ends with status RESET, unless its completion has been posted. -/
def endLaunch (s : State) (l : Launch) : State :=
  let s := if s.launches.any (fun x => x.order == l.order && x.sending) then dropSend s (.fn l.h l.f) else s
  let s := { s with launches := s.launches.filter (fun x => x.order != l.order) }
  let s := if l.posted || l.fence then s else post s l.h l.f l.r l.seq l.lid 5 l.ended.length 0x7FF 0
  afterPost s l.h l.f l.r

/-- The launches of the partitions that `p` names end with status RESET. DEDUCED, log entry 60. -/
def endLaunches (s : State) (p : Nat → Bool) : State :=
  let ls := s.launches.filter (fun l => p l.part && !l.fence)
  let s := { s with reports := s.reports.filter (fun r => !ls.any (fun l => r.src == l.r + 4 * l.h + 8 * l.f && r.seq == l.seq)) }
  ls.foldl endLaunch s

/-! ### Scratchpad banks (R155, Table 2.2) -/

/-- The live entries of TYPE `ty` of the tile (`tx`, `ty'`). -/
def tileEntries (s : State) (ty tx ty' : Nat) : List SurveyEntry :=
  (liveSurvey s).filter (fun e => e.type_ == ty && byteNat e.loc 0 == tx && byteNat e.loc 1 == ty')

/-- R155: the repaired rows and columns (bank, whether a column, index) and the spare banks (failed bank, spare) of the tile of core `c`
take effect, as the live BANK_REPAIR and BANK_SPARE entries give them. A row so replaced has shown no errors. -/
def applyBanks (s : State) (c : Nat) : State :=
  let (tx, ty) := (tileX s c, tileY c)
  let rs := ((tileEntries s 3 tx ty).map (fun e => (byteNat e.loc 2, byteNat e.loc 3 == 1, leAt e.loc 4 2))).dedup
  let bs := ((tileEntries s 2 tx ty).map (fun e => (byteNat e.loc 2, byteNat e.loc 3))).dedup
  let gone (r : Nat) : Bool :=
    decide (r / 32768 = c) &&
      (rs.contains (r % 32768 / 512, false, r % 512) || bs.any (fun b => b.1 == r % 32768 / 512))
  modCore { s with rowErrs := s.rowErrs.filter (fun x => !gone x.1) } c (fun k => { k with repairs := rs, spares := bs })

/-- R155: whether the failures of bank `b` of a tile exceed its 8 spare rows and 2 spare columns, with no spare bank for it yet. -/
def bankSpent (s : State) (tx ty b : Nat) : Bool :=
  let n (column : Nat) : Nat :=
    (((tileEntries s 3 tx ty).filter (fun e => byteNat e.loc 2 == b && byteNat e.loc 3 == column)).map (·.loc)).dedup.length
  (decide (8 < n 0) || decide (2 < n 1)) && !(tileEntries s 2 tx ty).any (fun e => byteNat e.loc 2 == b)

/-- R155: the banks of a tile that have a spare bank. -/
def sparedBanks (s : State) (tx ty : Nat) : List Nat := ((tileEntries s 2 tx ty).map (fun e => byteNat e.loc 2)).dedup

/-- R155, Table 2.2: the banks of a tile whose repairs are spent take its spare banks, as `put` records them. The Bool says whether more
than 2 banks have failed, so that the tile has a dead core. -/
def bankSpares (s : State) (tx ty : Nat) (put : State → Bytes → State) : State × Bool :=
  let (s, dead) := ((List.range 64).filter (bankSpent s tx ty)).foldl (fun (x : State × Bool) b =>
    let n := (sparedBanks x.1 tx ty).length
    if n < 2 then (put x.1 (natBytes 1 tx ++ natBytes 1 ty ++ natBytes 1 b ++ natBytes 1 n), x.2) else (x.1, true)) (s, false)
  (s, dead || decide (2 < (sparedBanks s tx ty).length))

/-! ### Core resets (R277, R450) -/

/-- R172: every word of a scratchpad becomes 0 with valid check bits. -/
def clearSp (s : State) (c : Nat) : State :=
  clearMem s (fun k => decide (c * 2 ^ 21 ≤ k) && decide (k < (c + 1) * 2 ^ 21))

/-- R132, R172, R197, R247, R254, R450, R540: a reset of core `c` begins: CRST is set, its state takes its reset values,
its locks are ABANDONED, its senders and waiters are settled; `clear` says that its scratchpad is cleared, and its bank repairs
applied (R155). -/
def resetCore (s : State) (c : Nat) (clear : Bool) : State :=
  let s := modCore s c (fun k => { k with crst := true })
  let s := landBursts (answerWaiters (reportReset s c) c) c
  let s := (s.sends.filter (fun x => pathOf c x.path)).foldl orphanSend s
  let s := landFlights s c
  let (s, late) := lateAccess s c
  let s := locksLost s (fun w => w.dev == s.devId && w.core == c)
  let s := { s with lockReplies := s.lockReplies.filter (fun r => r.core != c) }
  let s := modCore s c (fun k =>
    { Core.reset with
      crst := true, late := late, ctl := { Ctl.reset with cyc0 := (s.field (fieldOf c)).cclk }, repairs := k.repairs, spares := k.spares })
  if clear then applyBanks (clearSp s c) c else s

/-- R449, R450, R458: a reset of core `c` ends: CRST is cleared, Carafe has written CORE_FDEST, and the core has its
partition's HALT bit. DEDUCED, log entry 41. -/
def releaseCore (s : State) (c : Nat) : State :=
  let p := partOf s c
  let fd := p.bind (faultCoreOf s)
  modCore s c (fun k =>
    { k with
      crst := false
      ctl := { k.ctl with fdestV := fd.isSome, fdest := fd.getD 0, haltBit := p.any (haltBitOf s) } })

/-- The 12 logical cores of group `g`. -/
def groupCores (g : Nat) : List Nat := (List.range 12).map (fun k => 12 * g + k)

def resetGroup (s : State) (g : Nat) (clear : Bool) : State :=
  (groupCores g).foldl (fun s c => resetCore s c clear) (modGrp s g (fun k => { k with rst := true }))

def releaseGroup (s : State) (g : Nat) : State :=
  (groupCores g).foldl releaseCore (modGrp s g (fun k => { k with rst := false }))

/-! ### Partitions (R256, R329, R330, R366, R367, R449) -/

/-- The bits that an allocation object holds: all `n` bits for partition 0 and none for others by default. -/
def allocBits (s : State) (idx n p : Nat) : Nat := cfgNum s 0x40 idx p (if p = 0 then 2 ^ n - 1 else 0)

/-- Whether partition `p`'s groups, HBM units, channel blocks or lock blocks, as set, include number `i`. -/
def wantsGroup (s : State) (p g : Nat) : Bool := (allocBits s 0x0001 96 p).testBit g
def wantsUnit (s : State) (p u : Nat) : Bool := (allocBits s 0x0040 768 p).testBit u
def wantsChans (s : State) (p b : Nat) : Bool := (allocBits s 0x0030 64 p).testBit b
def wantsLocks (s : State) (p b : Nat) : Bool := (allocBits s 0x0031 192 p).testBit b

/-- The partition that an allocation object gives number `i` to. -/
def wantedBy (w : Nat → Nat → Bool) (i : Nat) : Option Nat := (List.range 16).find? (fun p => w p i)

/-- R239: the channels of block `b` are empty. -/
def emptyChans (s : State) (b : Nat) : State :=
  { s with mchans := s.mchans.filter (fun x => x.1 / 16 != b) }

/-- R449 step 3: an HBM unit is written with zeros and valid check symbols. DEDUCED, log entry 43. -/
def zeroUnit (s : State) (u : Nat) : State :=
  clearMem s (fun k => decide (unitAddr u ≤ k) && decide (k < unitAddr u + 2 ^ 30))

/-- R338: the candidates in units whose owner `p` names are retired, by a reset that covers it. -/
def retireCands (s : State) (p : Option Nat → Bool) : State :=
  (List.range 16).foldl (fun s st =>
    ((s.stack st).cands.filter (fun pg => p (unitOwner s (48 * st + pg / 262144)))).foldl (fun s pg => retirePage s st pg) s) s

/-- The partition that unit `u` joins as it leaves its owner: the one that it is set for, once that has been reset
since (R330). -/
def unitJoins (s : State) (u : Nat) : Option Nat :=
  (List.range 16).find? (fun q => wantsUnit s q u && (s.part q).units.testBit u)

/-- R256, R330, R367, R338, R449 steps 2 and 3: what waits for partition `p`'s reset takes effect. DEDUCED, log entry 43. -/
def applyPending (s : State) (p : Nat) : State :=
  let moved := (List.range 96).filter (fun g => (s.grp g).part == some p && !wantsGroup s p g)
  let s := moved.foldl (fun s g => resetGroup (modGrp s g (fun k => { k with part := wantedBy (wantsGroup s) g })) g true) s
  let s := retireCands s (fun o => o == some p)
  let leaving := (List.range 768).filter (fun u => unitOwner s u == some p && !wantsUnit s p u)
  let s := leaving.foldl (fun s u => { zeroUnit s u with hbmOwner := mset s.hbmOwner u (unitJoins s u) }) s
  let joining := (List.range 768).filter (fun u => unitOwner s u == none && wantsUnit s p u)
  let s := joining.foldl (fun s u => { s with hbmOwner := mset s.hbmOwner u (some p) }) s
  let s := modPart s p (fun k => { k with spread := cfgNum s 0x40 0x0041 p 0 == 1, units := allocBits s 0x0040 768 p })
  let s := (List.range 64).foldl (fun s b =>
    if mget (some 0) s.chanOwner b == some p then
      let s := emptyChans s b
      if wantsChans s p b then s else { s with chanOwner := mset s.chanOwner b (wantedBy (wantsChans s) b) }
    else if mget (some 0) s.chanOwner b == none && wantsChans s p b then { s with chanOwner := mset s.chanOwner b (some p) }
    else s) s
  let s := (List.range 192).foldl (fun s b =>
    if mget (some 0) s.lockOwner b == some p && !wantsLocks s p b then
      { s with lockOwner := mset s.lockOwner b (wantedBy (wantsLocks s) b) }
    else if mget (some 0) s.lockOwner b == none && wantsLocks s p b then { s with lockOwner := mset s.lockOwner b (some p) }
    else s) s
  let s := modPart s p (fun k => { k with chansDue := [], locksDue := [] })
  moved.foldl (fun s g => if (s.grp g).remap.isSome || (s.grp g).check then s else releaseGroup s g) s

/-- R365: vector 4 of the functions of partition `p`, and of the PFs, when its reset has finished. -/
def partVectors (s : State) (p : Nat) : State :=
  [0, 1].foldl (fun s h => functionEvent (functionEvent s h 0) h (p + 1)) s

/-- R449 step 1: a reset of partition `p` begins. One in progress absorbs it (R453), as does a start. Groups under re-map or
field check join at its end (R453, R482). -/
def beginPartReset (s : State) (p : Nat) : State :=
  let serves : Bool := match s.dev with
    | .off => false
    | .standby => false
    | .held => false
    | .waking => s.wake.compute
    | .ready => true
    | .degraded => true
    | .low => true
    | .faulted => true
  if (s.part p).resetting || !serves then s
  else
    let s := modPart s p (fun k => { k with resetting := true })
    let s := endLaunches s (fun x => x == p)
    (List.range 96).foldl (fun s g =>
      if (s.grp g).part == some p && (s.grp g).remap.isNone && !(s.grp g).check then resetGroup s g true else s) s

/-! ### Compute reset (R448) -/

/-- R551: a compute reset and a cold start set every object of Table 18.12 to its default. DEDUCED, log entry 79. -/
def countersDefault (s : State) : State :=
  { s with
    cntUnmapped := 0
    partUnmapped := []
    cntDenied := 0
    cntSize := 0
    cntMcDepth := 0
    shared := []
    cfg := [0x0100, 0x0101, 0x0102].foldl (fun m i => mdel m (objKey 0x90 i 0)) s.cfg }


/-- R482: a start or compute reset ends a running field check: what is not finished reads ABORTED. -/
def abortCheck (s : State) : State :=
  if s.wake.check.st = 1 then
    let s := (List.range 96).foldl (fun s g =>
      if (s.grp g).check then modGrp s g (fun k => { k with check := false }) else s) s
    modWake (endFailed s 4) (fun w =>
      { w with
        check := { w.check with
          st := 3
          gres := w.check.groups.foldl (fun m g => mset m g (List.replicate 13 6)) w.check.gres
          ures := w.check.units.foldl (fun m u => mset m u 6) w.check.ures
          groups := []
          units := [] } })
  else s

/-- Every core is reset. -/
def resetAllCores (s : State) (clear : Bool) : State := (List.range 96).foldl (fun s g => resetGroup s g clear) s

/-- R448 step 1: a compute reset begins, unless a start or another compute reset is in progress, which absorbs it (R453), or
the device serves no work. -/
def beginComputeReset (s : State) : State :=
  match s.dev with
  | .ready | .degraded | .low | .faulted =>
    let s := modWake (setDev s .waking 10) (fun w => { w with compute := true, drained := false })
    let s := abortCheck (endLaunches s (fun _ => true))
    { s with cores := (List.range 1152).foldl (fun m c => mset m c { mget Core.reset m c with crst := true }) s.cores }
  | _ => s

/-! ### Groups that fail (R39, R459, R460) -/

/-- FLD_GMAProw (Table 2.10). A group that is both RETIRED and switched off shows STATE 3, OFF: the table gives no precedence.
DESIGN CHOICE, log entry 83. -/
def gmapWord (k : Group) : Nat :=
  let st := if k.off then 3 else if k.retired then 2 else if k.skip < 12 then 1 else 0
  st * 2 ^ 30 + k.rdead * 2 ^ 17 + k.tdead * 2 ^ 4 + k.skip

/-- R461: a group notification to the owning partition's fault core, with its event (Table 16.8). -/
def groupNotify (s : State) (p : Option Nat) (code g arg : Nat) : State :=
  let bs := natBytes 1 code ++ natBytes 1 0 ++ natBytes 2 g ++ natBytes 1 arg ++ natBytes 3 0 ++ natBytes 8 s.echoM.toNat
  let s := match p with
    | some p => notifyPart s p bs
    | none => s
  raiseEvent s 0x4002 0 g p [leAt bs 0 4, leAt bs 4 4]

/-- R460: a designated fault core of partition `p` in group `g` gives way to the lowest present core, and every core of the
partition notifies the fault core in effect. DEDUCED, log entry 41. -/
def moveFaultCore (s : State) (p g : Nat) : State :=
  let s := match mfind s.cfg (objKey 0x40 0x0003 p) with
    | some (.num c) =>
      if groupOf c = g then
        match (coresOf s p).head? with
        | some c' => { s with cfg := mset s.cfg (objKey 0x40 0x0003 p) (.num c') }
        | none => s
      else s
    | _ => s
  (coresOf s p).foldl (fun s c => modCtl s c (fun t =>
    { t with fdestV := (faultCoreOf s p).isSome, fdest := (faultCoreOf s p).getD 0 })) s

/-- R460: with partition.replace set, a present group that no partition owns joins partition `p` for a lost one. -/
def adoptGroup (s : State) (p : Nat) : State :=
  if cfgNum s 0x40 0x0009 p 0 = 1 then
    match (List.range 96).find? (fun x => grpPresent s x && (s.grp x).part == none) with
    | none => s
    | some x =>
      let s := modGrp s x (fun k => { k with part := some p })
      let s := { s with cfg := mset s.cfg (objKey 0x40 0x0001 p) (.num (allocBits s 0x0001 96 p ||| 2 ^ x)) }
      groupNotify (releaseGroup (resetGroup s x true) x) (some p) 0x12 x 0xFF
  else s

/-- R460: group `g` is lost: its routers hold CRST, its locks are ABANDONED, launches count its cores as ended without END,
a designated fault core in it is replaced, 0x11 is sent, and with partition.replace a free group takes its place.
`cause` is byte 4 of Table 14.7; `off` that its domain is off or tripped. -/
def loseGroup (s : State) (g cause : Nat) (off : Bool) : State :=
  if (s.grp g).lost then s
  else
    let owner := (s.grp g).part
    let s := resetGroup s g true
    let s := modGrp s g (fun k => { k with off := k.off || off, lost := true, remap := none, check := false, rst := false })
    let s := match owner with
      | none => s
      | some p => moveFaultCore s p g
    let s := groupNotify s owner 0x11 g cause
    let s := match owner with
      | none => s
      | some p => adoptGroup s p
    reevaluate s

/-- R406, R460: a CG domain whose crack is confirmed is switched OFF: error 0x0010, and its group is lost. -/
def confirmedOff (s : State) (g : Nat) : State :=
  loseGroup (raiseErr (setDom s g .off) 0x0010 7 g (s.grp g).part s.echoM []) g 2 true

/-- R449 step 4: a reset of partition `p` ends. CG domains of a confirmed joint switch off (R406). -/
def endPartReset (s : State) (p : Nat) : State :=
  if (s.part p).resetting then
    let due := s.pwr.offDue.filter (fun d => decide (d < 96) && (s.grp d).part == some p)
    let s := applyPending s p
    let s := { s with partUnmapped := mset s.partUnmapped p 0 }
    let s := due.foldl confirmedOff s
    let s := modPwr s (fun w => { w with offDue := w.offDue.filter (fun d => !due.contains d) })
    let s := (List.range 96).foldl (fun s g =>
      if (s.grp g).part == some p && (s.grp g).remap.isNone && !(s.grp g).check && domOf s g == .on then releaseGroup s g
      else s) s
    endAsync (reevaluate (partVectors (modPart s p (fun k => { k with resetting := false })) p)) (16 + p) 0
  else s

/-- The tile of a group's column, as Survey entries and error records name it. -/
def tileXY (g col : Nat) : Nat × Nat := (13 * (g / 8 % 3) + col, 8 * (g / 24) + g % 8)

/-- R459, R463, Table 14.6: core `c` is declared failed. With an idle spare its group is re-mapped: the TILE entry is
appended, the group is reset, and the spare is to be tested; else the group is lost under R460. A second failure within
one re-map loses the group. `src`, `prov` and `test` are those of the entry; with `noted` it has been appended. During
a management restart the re-map waits (R452). -/
def failCore (s : State) (c src : Nat) (prov : Bool) (test : Nat) : State :=
  let g := groupOf c
  let k := s.grp g
  if s.wake.mgmt then modWake s (fun w => { w with waitFail := w.waitFail ++ [c] })
  else if k.lost || k.off || 1152 ≤ c then s
  else
    let col := colOf s c
    let (tx, ty) := tileXY g col
    let s := surveyAppend s 1 src prov (natBytes 1 tx ++ natBytes 1 ty ++ natBytes 1 1 ++ natBytes 1 test)
    let also := match k.remap with
      | some m => 2 ^ m.col
      | none => 0
    if k.remap.isSome || k.skip != 12 || (k.tdead ||| k.rdead).testBit 12 then
      loseGroup (modGrp s g (fun k => { k with tdead := k.tdead ||| 2 ^ col ||| also })) g 0 false
    else resetGroup (modGrp s g (fun k => { k with remap := some ⟨col, false⟩ })) g true

end Sys2Proof.Machine
end

