-- ==== Sys2Proof/Machine/LinkOps.lean ====
section
/-!
DEFINITION. The operations of the device links (R281 to R321): port states, frames and their acknowledgement, packets on
the virtual channels, partner violations, routing between devices, and Ethernet connections.
-/

namespace Sys2Proof.Machine

/-! ### Port states (Table 9.2) -/

def portStCode : PortState → Nat
  | .disabled => 0
  | .training => 1
  | .gate => 2
  | .admitted => 3
  | .excluded => 4
  | .resetting => 5
  | .down => 6

/-- LNK_Pi_STAT (Table 9.14). -/
def statWord (k : Port) : Nat :=
  portStCode k.st * 2 ^ 28 + k.ver * 2 ^ 26 + (if k.enc then 2 ^ 25 else 0) + (if k.keyid then 2 ^ 24 else 0) +
    k.lsteer.toNat * 2 ^ 20 + k.pport * 2 ^ 14 + k.pdev

/-- R286, Table 16.8: a port enters a state, with event 0x3001; READY and DEGRADED are evaluated anew (R437). -/
def setPortSt (s : State) (p : Nat) (x : PortState) : State :=
  if (s.port p).st = x then s
  else
    let s := modPort s p (fun k => { k with st := x })
    reevaluate (raiseEvent s 0x3001 6 p none [statWord (s.port p)])

/-- R384: the Echo time of link die `l`: that of the field of its router 0. -/
def dieEcho (s : State) (l : Nat) : W64 := edgeEcho s (16 + l)

/-- The domain of link die `l` is on. -/
def dieOn (s : State) (l : Nat) : Bool := domOf s (108 + l) == .on

/-! ### Packets (R296, R303) -/

/-- Whether an OPC asks for an answer: WRITE, READ, ATOMIC, QMSG, EVPOST, LOCK and MCFWD. -/
def isRequest (opc : BitVec 8) : Bool := [1, 2, 3, 4, 6, 7, 8].contains opc.toNat

/-- Table 9.4: the OPCs that are not reserved. -/
def knownOpc (opc : BitVec 8) : Bool := [1, 2, 3, 4, 5, 6, 7, 8, 9, 0x10, 0x11, 0x12].contains opc.toNat

/-- A request that a link die ends is answered once to SDEV and RTAG; another packet has no answer. -/
def refusePkt (s : State) (k : LinkPkt) (status : Nat) : State :=
  if isRequest k.opc then emit s (.answer k.sdev k.rtag status []) else s

/-- R303: whether a packet is ordered. READ and WRITE carry it in their header; it is fixed for the other kinds. -/
def ordered (k : LinkPkt) : Bool :=
  if k.opc.toNat = 1 ∨ k.opc.toNat = 2 then k.ord else decide (3 ≤ k.opc.toNat) && decide (k.opc.toNat ≤ 9)

/-- R303: the destination core that ADDR names: of a queue message its queue's core, of an EVPOST its core, else the core
in whose scratchpad the address lies. -/
def destCoreOf (k : LinkPkt) : Nat :=
  match k.opc.toNat with
  | 4 | 5 => k.addr.toNat % 2 ^ 16 / 32
  | 6 => k.addr.toNat % 2 ^ 11
  | _ => k.addr.toNat / 2 ^ 21

/-- R303: the port that an ordered packet takes among `n`. DEDUCED, log entry 6. -/
def hashPort (k : LinkPkt) (n : Nat) : Nat := Config.linkHash k.score k.ddev (destCoreOf k) % n

/-- The flits of a packet, the poisoned ones marked (R296, R297); one that ends with an abort tail carries the data it has (R314). -/
def flitsOf (k : LinkPkt) (abort : Bool) : List Flit :=
  let n := if abort then k.data.length / 64 else k.len
  [Flit.header k] ++ (List.range n).map (fun i => .data (padTo 64 (k.data.drop (64 * i))) (k.poison.contains i)) ++
    (if abort then [Flit.abort] else [])

/-- Whether a port is admitted in native mode. -/
def nativeUp (s : State) (p : Nat) : Bool := decide (p < 40) && (s.port p).st == .admitted && !(s.port p).eth

/-! ### Sending (R291 to R294, R302) -/

def Port.vc (k : Port) (v : Nat) : LinkVc := mget LinkVc.reset k.vcs v
def modVc (s : State) (p v : Nat) (f : LinkVc → LinkVc) : State :=
  modPort s p (fun k => { k with vcs := mset k.vcs v (f (k.vc v)) })

/-- R316: the key slot of a port's frames, as a number. -/
def keySlot (b : Bool) : Nat := if b then 1 else 0

/-- R316: a frame of port `p` is sealed under key slot `slot`: its nonce counts the frames sent under the key. An IDLE frame is not
sealed. DEDUCED, log entry 54. -/
def sealFrame (s : State) (p : Nat) (on slot : Bool) (f : Frame) : State × Frame :=
  if on ∧ f.type_ ≠ 0 then
    let n := mget 0 (s.port p).sealed_ (keySlot slot)
    (modPort s p (fun k => { k with sealed_ := mset k.sealed_ (keySlot slot) ((n + 1) % 2 ^ 57) }),
      { f with
        enc := true
        keyid := slot
        count := n })
  else (s, { f with enc := false, keyid := false })

/-- R291: a frame of a port with its acknowledgement and a credit return; the credits that it returns are taken. -/
def stampFrame (s : State) (p : Nat) (f : Frame) : State × Frame :=
  let (s, f) := sealFrame s p (s.port p).enc (s.port p).keyid f
  let k := s.port p
  let v := ((List.range 4).find? (fun v => decide (0 < (k.vc v).credRet))).getD 0
  let n := min 4095 (k.vc v).credRet
  (modVc s p v (fun c => { c with credRet := c.credRet - n }),
    { f with
      ack := k.rxSeq - 1
      cred := n
      credVc := BitVec.ofNat 2 v })

/-- A frame without flits or body. -/
def bareFrame (type_ : Nat) (seq : BitVec 16) : Frame :=
  { type_ := BitVec.ofNat 4 type_, enc := false, keyid := false, vc := 0, nflit := 0, seq := seq, ack := 0, cred := 0,
    credVc := 0, flits := [], crcOk := true, tagOk := true, cause := 0, seqc := 0, malformed := false, count := 0 }

/-- R291: a frame is sent; it counts at the port (Table 18.4). -/
def sendFrame (s : State) (p : Nat) (f : Frame) : State :=
  emit (countShared s (portBlk p) 0 16 1 3) (.frame p f)

/-- R291: an IDLE frame carries the acknowledgement and credit that wait. -/
def sendIdle (s : State) (p : Nat) : State :=
  let (s, f) := stampFrame s p (bareFrame 0 (s.port p).txSeq)
  sendFrame s p f

/-- R294, R312: a NAK frame with its cause and the SEQ concerned. -/
def sendNak (s : State) (p cause : Nat) (seqc : BitVec 16) : State :=
  let (s, f) := stampFrame s p
    { bareFrame 2 (s.port p).txSeq with
      cause := BitVec.ofNat 8 cause
      seqc := seqc }
  sendFrame (countShared s (portBlk p) 5 16 1 3) p f

/-- R302: the class of a packet at a port: its partition where a core of this device has injected it, by one of the edge ports 5 to 7,
else transit. -/
def linkClass (inp : Nat) (k : LinkPkt) : Nat := if 5 ≤ inp ∧ k.score ≠ 0x7FF then k.spart else 16

/-- R302: the weight of a class at a port's output: a local partition's, or link.transit_weight. -/
def linkWeight (s : State) (cls : Nat) : Nat :=
  if cls < 16 then cfgNum s 0x40 0x0020 cls 16 else cfgNum s 0x50 0x0016 0 16

/-- R302: how a port shares its output among the packets that wait, each with its virtual channel. -/
def portSharing (s : State) (k : Port) : Sharing (Nat × TxPkt) :=
  { weight := linkWeight s, last := fun c => mget 0 k.rrPort c, cls := fun x => x.2.cls, inp := fun x => x.2.inp + 1,
    flits := fun x => (flitsOf x.2.pkt x.2.abort).length }

/-- R292, R302: the virtual channels that send nothing take the next packets of the class whose turn it is, within it by round robin
among the inputs of the crossbar. -/
def startPackets (fuel : Nat) (s : State) (p : Nat) : State :=
  match fuel with
  | 0 => s
  | fuel + 1 =>
    let k := s.port p
    let idle := (List.range 4).filter (fun v => (k.vc v).txCur == [] && (k.vc v).txPkts != [])
    let items := idle.flatMap (fun v => (k.vc v).txPkts.map (fun x => (v, x)))
    match drr 400 8 (portSharing s k) items k.rrClass (deficits (fun x => x.2.cls) items (fun c => mget 0 k.deficit c)) with
    | none => s
    | some ((v, x), cls, d) =>
      let last := decide ((items.filter (fun y => y.2.cls == cls)).length ≤ 1)
      let s := modPort s p (fun k =>
        { k with
          rrClass := cls
          rrPort := mset k.rrPort cls (x.inp + 1)
          deficit := if last then mset d cls 0 else d })
      let s := modVc s p v (fun c =>
        { c with
          txPkts := c.txPkts.erase x
          txCur := flitsOf x.pkt x.abort
          txPkt := some x.pkt })
      startPackets fuel s p

/-- R291 to R294: one DATA frame of channel `v`, where it has flits, credit, and fewer than 256 frames unacknowledged. -/
def sendData (s : State) (p v : Nat) : State :=
  let k := s.port p
  let c := k.vc v
  let n := min 16 (min c.txCred c.txCur.length)
  if n = 0 ∨ 256 ≤ k.unacked.length then s
  else
    let (s, f) := stampFrame s p
      { bareFrame 1 k.txSeq with
        vc := BitVec.ofNat 2 v
        nflit := n
        flits := c.txCur.take n }
    let s := modVc s p v (fun c =>
      { c with
        txCred := c.txCred - n
        txCur := c.txCur.drop n
        txPkt := if c.txCur.length ≤ n then none else c.txPkt })
    let s := modPort s p (fun k =>
      { k with
        txSeq := k.txSeq + 1
        unacked := k.unacked ++ [⟨f, c.txPkt.toList⟩] })
    sendFrame (countShared s (portBlk p) 2 ((c.txPkt.map (fun x => if x.sdev = s.devId then linkClass 5 x else 16)).getD 16) n 3) p f

/-- R292: a port sends what it can: channels interleave frame by frame. -/
def txPump (fuel : Nat) (s : State) (p : Nat) : State :=
  match fuel with
  | 0 => s
  | fuel + 1 =>
    let s := startPackets 64 s p
    let t := (List.range 4).foldl (fun s v => sendData s p v) s
    if (t.port p).txSeq = (s.port p).txSeq then t else txPump fuel t p

/-- A packet joins the output of an admitted native port. -/
def enqueuePkt (s : State) (p v : Nat) (x : TxPkt) : State :=
  let s := if x.inp < 5 then countShared s (portBlk p) 8 16 (flitsOf x.pkt x.abort).length 3 else s
  txPump 300 (modVc s p v (fun c => { c with txPkts := c.txPkts ++ [x] })) p

/-! ### Ethernet connections (R298 to R301) -/

/-- R299: the number of the connection of bundle `b` with device `peer`. -/
def connKey (b peer : Nat) : Nat := 16384 * b + peer
def State.conn (s : State) (b peer : Nat) : Conn := mget Conn.reset s.links.conns (connKey b peer)
def modConn (s : State) (b peer : Nat) (f : Conn → Conn) : State :=
  modLinks s (fun l => { l with conns := mset l.conns (connKey b peer) (f (s.conn b peer)) })

/-- R301: link.eth_peers: whether a device is in the peer table. -/
def inPeers (s : State) (dev : Nat) : Bool :=
  let b := cfgBlob s 0x50 0x0300 0
  (List.range (min 1024 (b.length / 24))).any (fun i => leAt b (24 * i) 2 == dev)

/-- R301: the IPv6 address of a device in the peer table. -/
def peerAddr (s : State) (dev : Nat) : Bytes :=
  let b := cfgBlob s 0x50 0x0300 0
  match (List.range (min 1024 (b.length / 24))).find? (fun i => leAt b (24 * i) 2 == dev) with
  | some i => (b.drop (24 * i + 8)).take 16
  | none => []

/-- R304: the bundle's admitted ports. -/
def bundlePorts (s : State) (b : Nat) : List Nat :=
  (List.range 40).filter (fun p => (s.port p).bv && (s.port p).bundle == b && (s.port p).st == .admitted)

/-- R303, R304: the port of bundle `b` that a packet takes among those admitted: by hash where it is ordered, else the next in round
robin. -/
def bundlePort (s : State) (b : Nat) (k : LinkPkt) : Option Nat :=
  let ps := bundlePorts s b
  if ps = [] then none
  else some (ps.getD (if ordered k then hashPort k ps.length else mget 0 s.links.spray b % ps.length) 0)

/-- R303: the round robin of a bundle moves on after an unordered packet. -/
def sprayed (s : State) (b : Nat) (k : LinkPkt) : State :=
  if ordered k then s else modLinks s (fun l => { l with spray := mset l.spray b (mget 0 l.spray b + 1) })

/-- R298, Table 9.5: the headers of a frame of bundle `b` to device `peer` by port `p`: TYPE 0 DATA, 1 ACK, 2 NAK, 3 CNP. -/
def ethHdr (s : State) (p b peer type_ psn : Nat) : EthHdr :=
  let x := cfgBlob s 0x50 0x0204 b
  { port := p, bundle := b, peer := peer, src := x.take 16, dst := peerAddr s peer, mac := (x.drop 16).take 6,
    hopMac := (x.drop 22).take 6, dscp := byteNat x 28 % 64, ecn := 2, hop := 64, sport := cfgNum s 0x50 0x0301 0 48879,
    dport := cfgNum s 0x50 0x0301 0 48879, type_ := type_, psn := psn,
    apsn := ((s.conn b peer).rxPsn + 2 ^ 24 - 1) % 2 ^ 24, pmask := 0, mfrac := 0 }

/-- R298: the headers of the frame that carries packet `k` with its PSN: the UDP source port is a hash of the packet's ordering key.
DEDUCED, log entry 6. -/
def ethDataHdr (s : State) (p b psn : Nat) (k : LinkPkt) : EthHdr :=
  { ethHdr s p b k.ddev 0 psn with
    sport := Config.linkHash k.score k.ddev (destCoreOf k) % 2 ^ 16
    pmask := (k.poison.map (fun i => 2 ^ i)).sum }

/-- R298 to R301: an ACK, NAK or CNP frame to device `peer`, by the first admitted port of the bundle. DEDUCED, log entry 56. -/
def ethCtl (s : State) (b peer type_ psn mfrac : Nat) : State :=
  match bundlePorts s b with
  | [] => s
  | p :: _ => emit s (.ethCtl { ethHdr s p b peer type_ psn with mfrac := mfrac })

/-- R298, R299, R301, R303, R304: a packet leaves by an Ethernet bundle: to a peer of the table that is reachable. -/
def ethSend (s : State) (b p : Nat) (k : LinkPkt) : State :=
  let c := s.conn b k.ddev
  if !inPeers s k.ddev || c.dead then refusePkt s k 7
  else
    let s := modConn s b k.ddev (fun c =>
      { c with
        txPsn := (c.txPsn + 1) % 2 ^ 24
        unacked := c.unacked ++ [(c.txPsn, k)] })
    emit s (.ethData (ethDataHdr s p b c.txPsn k) k)

/-! ### Routing between devices (R302 to R309) -/

/-- link.torus (Table 9.16): BASE, the three sizes, and the six bundles. -/
structure Torus where
  base : Nat
  d : List Nat
  bundles : List Nat
  deriving DecidableEq, Repr

def torusOf (s : State) : Option Torus :=
  let b := cfgBlob s 0x50 0x0005 0
  if b.length < 11 then none
  else some ⟨leAt b 0 2, [leAt b 2 1, leAt b 3 1, leAt b 4 1], (List.range 6).map (fun i => leAt b (5 + i) 1)⟩

/-- R307: the coordinate of a device in dimension `i`, where it is in the torus. -/
def Torus.coord (t : Torus) (dev i : Nat) : Option Nat :=
  let dx := t.d.getD 0 1
  let dy := t.d.getD 1 1
  let dz := t.d.getD 2 1
  let n := dev - t.base
  if dev < t.base ∨ dx * dy * dz ≤ n then none
  else some (if i = 0 then n % dx else if i = 1 then n / dx % dy else n / (dx * dy))

/-- R307: the bundle and virtual channel of a KIND 1 packet at device `here`, none where a device is outside the torus. A
packet turns into a dimension in which it still has its source's coordinate, and starts there on channel 0. -/
def torusHop (t : Torus) (here : Nat) (k : LinkPkt) : Option (Nat × Bool) :=
  let diff (i : Nat) : Bool := t.coord here i != t.coord k.ddev i
  match [0, 1, 2].find? diff with
  | none => none
  | some i =>
    match t.coord here i, t.coord k.ddev i with
    | some a, some b =>
      let n := t.d.getD i 1
      let up := (b + n - a) % n
      let pos := decide (up ≤ n - up)
      let wraps := if pos then decide (a + 1 = n) else decide (a = 0)
      let turns := t.coord k.sdev i == some a
      some (t.bundles.getD (2 * i + (if pos then 0 else 1)) 0, wraps || (k.vc1 && !turns))
    | _, _ => none

/-- What routing makes of a packet (R306 to R309): for this device, for a bundle, or refused with a status. -/
inductive RouteTo where
  | here
  | bundle (b : Nat) (vc1 : Bool)
  | refuse (status : Nat)
  deriving DecidableEq, Repr

/-- The epoch of one copy: a link die's own where Carafe has written its LNK_EPOCH (Table 9.10). -/
def Links.epochOf (l : Links) (copy : Nat) : BitVec 8 := (mfind l.epx copy).getD l.epoch

/-- R308: the table of a copy that routes a packet of epoch `e`, none where it is discarded. Epochs are compared modulo 256.
DEDUCED, log entry 55. -/
def tableOf (l : Links) (copy : Nat) (e : BitVec 8) : Option Nat :=
  let d := (e - l.epochOf copy).toNat
  if d < 128 then some ((l.epochOf copy).toNat % 2)
  else if d = 255 ∧ l.prev then some (((l.epochOf copy).toNat + 1) % 2)
  else none

/-- Entry `dev` of table `t` in one copy. -/
def rtEntry (l : Links) (copy t dev : Nat) : W32 :=
  match mfind l.rtx (32768 * copy + 16384 * t + dev) with
  | some w => w
  | none => mget 0 (if t = 0 then l.rt0 else l.rt1) dev

/-- Table `t` has been written anew in every copy. -/
def rtxClear (l : Links) (t : Nat) : Map W32 := l.rtx.filter (fun x => x.1 / 16384 % 2 != t)

/-- R306, R307, R309, R469: the entry of table `t` for a packet, read from copy `copy`. KIND 3 is reserved and has no
route. DEDUCED, log entry 55. -/
def routeBy (s : State) (copy t : Nat) (k : LinkPkt) : RouteTo :=
  let e := (rtEntry s.links copy t k.ddev).toNat
  if !e.testBit 31 || badEntry s 0 copy (16384 * t + k.ddev) then .refuse 2
  else
    match bits e 30 29 with
    | 0 => .bundle (bits e 27 24) (k.vc1 || e.testBit 28)
    | 1 =>
      match torusOf s with
      | none => .refuse 2
      | some to' =>
        match torusHop to' s.devId k with
        | some (b, v) => .bundle b v
        | none => .refuse 2
    | 2 => .here
    | _ => .refuse 2

/-- R302: the owner of a bundle: a partition, or the device. -/
def bundleOwner (s : State) (b : Nat) : Nat := cfgNum s 0x50 0x0200 b 0xFF

/-- R302: whether the source of an injected packet may use a bundle: a core only one of its partition or of the device. -/
def mayInject (s : State) (b : Nat) (k : LinkPkt) : Bool :=
  k.score == 0x7FF || !isRequest k.opc || bundleOwner s b == 0xFF || bundleOwner s b == k.spart

/-- R303 to R305: a packet takes a port of its bundle, from input `x.inp` of link die `l`; transit to another die crosses the mesh. A
bundle without an admitted port refuses it. -/
def useBundle (s : State) (l b : Nat) (planeB : Bool) (x : TxPkt) : State :=
  match bundlePort s b x.pkt with
  | none => refusePkt s x.pkt 7
  | some p =>
    let s := sprayed s b x.pkt
    let s := if x.inp < 5 ∧ p / 5 ≠ l then emit s (.transit l x.inp p x.pkt) else s
    if (s.port p).eth then (if x.abort then s else ethSend s b p x.pkt)
    else enqueuePkt s p ((if planeB then 2 else 0) + (if x.pkt.vc1 then 1 else 0)) x

/-- R302 to R309, R314: a packet at input `inp` of link die `l` is routed. One that this device injects, by an edge port 5 to 7, takes
the current epoch of the copy of its core's field; another has crossed one more device. `abort` says that it ends with an abort
tail. -/
def routePkt (s : State) (l inp : Nat) (planeB : Bool) (k : LinkPkt) (abort : Bool) : State :=
  let own := decide (5 ≤ inp)
  let copy := if own && k.score != 0x7FF then 8 + fieldOf k.score else l
  let k := if own then { k with epoch := s.links.epochOf copy, hops := 0, vc1 := false } else { k with hops := k.hops + 1 }
  if !own && decide (cfgNum s 0x50 0x0013 0 32 ≤ k.hops) then
    refusePkt (modLinks s (fun x => { x with cntHop := x.cntHop + 1 })) k 7
  else
    match tableOf s.links copy k.epoch with
    | none => refusePkt s k 7
    | some t =>
      match routeBy s copy t k with
      | .refuse st => refusePkt s k st
      | .here => if abort then refusePkt s k 7 else emit s (.inbound l k)
      | .bundle b v =>
        if own && !mayInject s b k then refusePkt s k 3
        else
          let k := { k with vc1 := v }
          useBundle s l b planeB ⟨linkClass inp k, inp, k, abort⟩

/-! ### A port leaves ADMITTED (R289, R294, R304) -/

/-- R294: a port leaves ADMITTED for `x`: requests with flits in unacknowledged frames are answered ABORTED, packets not yet
begun take the rest of the bundle (R304), and what was agreed with the partner is void. DEDUCED, log entry 53. -/
def portLeave (s : State) (p : Nat) (x : PortState) : State :=
  let k := s.port p
  if k.st = x then s
  else
    let lost := (k.unacked.flatMap (·.pkts)).dedup
    let cur := k.vcs.filterMap (fun (v : Nat × LinkVc) => v.2.txPkt)
    let s := (lost ++ cur.filter (fun q => !lost.contains q)).foldl (fun s q => refusePkt s q 7) s
    let waiting := k.vcs.flatMap (fun (v : Nat × LinkVc) => v.2.txPkts.map (fun x => (v.1, x)))
    let s := modPort s p (fun k =>
      { k with
        gated := false
        ver := 0
        enc := false
        lsteer := if x = .training ∨ x = .disabled then 0 else k.lsteer
        pport := 0
        pdev := 0
        unacked := []
        nakOut := false
        vcs := k.vcs.map (fun v => (v.1, { v.2 with txPkts := [], txCur := [], txPkt := none }))
        badWin := 0
        beacon := none
        keyWant := none })
    let s := setPortSt s p x
    waiting.foldl (fun s q =>
      if k.bv then useBundle s (p / 5) k.bundle (decide (2 ≤ q.1)) q.2 else refusePkt s q.2.pkt 7) s

/-- R284: a port's spare lanes are free again. -/
def freeSpares (s : State) (p : Nat) : State :=
  let l := p / 5
  let i := p % 5
  modLinks s (fun x =>
    let d := mget LinkDie.reset x.dies l
    { x with dies := mset x.dies l { d with spares := d.spares.filter (fun y => y.2 != i) } })

/-- R287: a port that may run begins its training. -/
def startTraining (s : State) (p : Nat) : State :=
  if (s.port p).en && dieOn s (p / 5) then
    portLeave (freeSpares s p) p .training
  else portLeave s p .disabled

/-- Table 9.2: a port whose configuration has changed trains or is disabled; one that is EXCLUDED stays so until it is admitted or the
next cold start. DEDUCED, log entry 53. -/
def portChanged (s : State) (p : Nat) : State := if (s.port p).st = .excluded then s else startTraining s p

/-- Ten minutes, in ns (R290). DEDUCED, log entry 53. -/
def resetWindow : Nat := 600000000000

/-- Why a port is reset (R289, R313, R317): its error rate, its partner's breaches, or a request through Sasil. -/
inductive ResetWhy where
  | rate
  | partner
  | sasil
  deriving DecidableEq, Repr

/-- R289, R290: a port reset, with error 0x000C where its error rate causes it. One that Sasil has not asked for counts: the
third within 600 s excludes the port, in the event log and not in the Survey. DEDUCED, log entry 53. -/
def portReset (s : State) (p : Nat) (why : ResetWhy) : State :=
  let s := portLeave s p .resetting
  let s := if why = .rate then raiseErr s 0x000C 6 p none (dieEcho s (p / 5)) [(s.port p).ber.toNat] else s
  if why = .sasil then s
  else
    let ts := ((s.port p).resets.filter (fun t => decide (s.now < t + resetWindow))) ++ [s.now]
    let s := modPort s p (fun k => { k with resets := ts })
    if 3 ≤ ts.length then raiseErr (setPortSt s p .excluded) 0x000D 6 p none (dieEcho s (p / 5)) [(s.port p).ber.toNat]
    else s

/-! ### Partner violations (R312, R313) -/

/-- LNK_PVLOG (Table 9.11). -/
def pvWord (g : PvLog) : Nat := (if g.v then 2 ^ 31 else 0) + g.port * 2 ^ 24 + g.cause * 2 ^ 20 + g.pdev

/-- One millisecond, in ns. -/
def oneMs : Nat := 1000000

/-- R312, R313: a violation is counted, captured and logged; more than link.pv_threshold in 1 ms reset the port. -/
def violation (s : State) (p cause : Nat) : State :=
  let l := p / 5
  let s := modPort s p (fun k =>
    { k with
      pvcnt := satInc k.pvcnt 1
      pvAt := (k.pvAt.filter (fun t => decide (s.now < t + oneMs))) ++ [s.now] })
  let s := modLinks s (fun x =>
    let d := mget LinkDie.reset x.dies l
    { x with
      dies := mset x.dies l
        { d with pvlog := if d.pvlog.v then d.pvlog else ⟨true, p % 5, cause, (s.port p).pdev⟩ } })
  let s := raiseRec s 0x3004 4 6 p none s.echoM [pvWord (mget LinkDie.reset s.links.dies l).pvlog]
  if cfgNum s 0x50 0x0012 0 16 < (s.port p).pvAt.length then
    portReset (modPort s p (fun k => { k with pvAt := [] })) p .partner
  else s

/-- R312: a violation that a NAK answers. -/
def violationNak (s : State) (p cause : Nat) (seqc : BitVec 16) : State :=
  violation (sendNak s p cause seqc) p cause

/-! ### Receiving (R292 to R294, R312 to R315, R317) -/

/-- R294: the receiver asks once for a replay from the frame it expects. -/
def askReplay (s : State) (p : Nat) : State :=
  if (s.port p).nakOut then s
  else sendNak (modPort s p (fun k => { k with nakOut := true })) p 1 (s.port p).rxSeq

/-- R317: a tag failure is counted and replayed; more than 16 in 1 ms reset the port and raise a security event. -/
def tagFail (s : State) (p : Nat) : State :=
  let s := modPort s p (fun k =>
    { k with
      tagf := satInc k.tagf 1
      tagAt := (k.tagAt.filter (fun t => decide (s.now < t + oneMs))) ++ [s.now] })
  if 16 < (s.port p).tagAt.length then
    let s := raiseEvent s 0x5001 6 p none [(s.port p).tagf]
    portReset (modPort s p (fun k => { k with tagAt := [] })) p .partner
  else askReplay s p

/-- R294: an acknowledgement frees the frames up to its SEQ; one of a SEQ never sent is a violation and is ignored. -/
def takeAck (s : State) (p : Nat) (ack : BitVec 16) : State :=
  let k := s.port p
  let back := (k.txSeq - 1 - ack).toNat
  if 32768 ≤ back then violationNak s p 6 ack
  else modPort s p (fun k =>
    { k with unacked := k.unacked.drop (k.unacked.length - back) })

/-- R293: credit returned. -/
def takeCred (s : State) (p : Nat) (v : BitVec 2) (n : Nat) : State :=
  if n = 0 then s else modVc s p v.toNat (fun c => { c with txCred := c.txCred + n })

/-- The flits that a channel held leave it: their credit is returned (R293). DEDUCED, log entry 52. -/
def leaveBuf (s : State) (p v : Nat) : State :=
  modVc s p v (fun c => { c with credRet := c.credRet + c.rxUsed, rxUsed := 0 })

/-- R315: a run of flits without a header counts once and is discarded. -/
def headerless (s : State) (p v : Nat) (counted : Bool) : State :=
  let s := leaveBuf (modVc s p v (fun c => { c with rx := .skip true })) p v
  if counted then s else violation s p 7

/-- Whether a packet is held for this device: its entry is of KIND 2 (R305). -/
def forHere (s : State) (l : Nat) (k : LinkPkt) : Bool :=
  match tableOf s.links l k.epoch with
  | none => false
  | some t => routeBy s l t k == .here

/-- R314: a packet stops in mid-flight on channel `v`: one held for this device is discarded whole and answered ABORTED
where it is a request; a transit packet is ended with an abort tail. -/
def endShort (s : State) (p v : Nat) (next : RxSt) : State :=
  match ((s.port p).vc v).rx with
  | .pkt k _ =>
    let s := countShared (leaveBuf (modVc s p v (fun c => { c with rx := next })) p v) (portBlk p) 0xD 16 1 3
    if forHere s (p / 5) k then refusePkt s k 7 else routePkt s (p / 5) (p % 5) (decide (2 ≤ v)) k true
  | _ => modVc s p v (fun c => { c with rx := next })

/-- link.port_src_filter (Table 9.16): whether the filter of port `p` admits a source device. -/
def srcAdmits (s : State) (p dev : Nat) : Bool :=
  let b := cfgBlob s 0x50 0x0105 p
  if b.length < 4 then true else decide (leAt b 0 2 ≤ dev) && decide (dev ≤ leAt b 2 2)

/-- A packet has arrived whole at a link die: it is to be routed (R305). DEDUCED, log entry 52. -/
def pktWhole (s : State) (p v : Nat) (k : LinkPkt) : State :=
  emit (leaveBuf (modVc s p v (fun c => { c with rx := .none })) p v) (.linkPkt p k)

/-- R296, R312, R314, R315: one flit of a DATA frame on channel `v`. DEDUCED, log entry 52. -/
def rxFlit (s : State) (p v : Nat) (seq : BitVec 16) (f : Flit) : State :=
  let s := modVc s p v (fun c => { c with rxUsed := c.rxUsed + 1 })
  let drop (s : State) : State := leaveBuf (modVc s p v (fun c => { c with rx := .skip true })) p v
  match f with
  | .header k =>
    let s := match ((s.port p).vc v).rx with
      | .pkt _ _ => endShort s p v .none
      | _ => s
    if !knownOpc k.opc || 64 < k.len then violationNak (refusePkt (drop s) k 7) p 4 seq
    else if !srcAdmits s p k.sdev then violation (refusePkt (drop s) k 3) p 8
    else if k.len = 0 then pktWhole s p v { k with data := [], vc1 := decide (v % 2 = 1) }
    else modVc s p v (fun c =>
      { c with rx := .pkt { k with data := [], poison := [], vc1 := decide (v % 2 = 1) } k.len })
  | .data b z =>
    match ((s.port p).vc v).rx with
    | .none => headerless s p v false
    | .skip c => headerless s p v c
    | .pkt k left =>
      let k := { k with
        data := k.data ++ padTo 64 b
        poison := if z then k.poison ++ [k.data.length / 64] else k.poison }
      if left ≤ 1 then pktWhole s p v k
      else modVc s p v (fun c => { c with rx := .pkt k (left - 1) })
  | .abort =>
    match ((s.port p).vc v).rx with
    | .none => headerless s p v false
    | .skip c => headerless s p v c
    | .pkt _ _ => endShort s p v .none

/-- R293, R312: the flits of a DATA frame. Those beyond the credit of their channel, that is, where the flits held and those whose credit
is still to be returned fill its 1,088, are discarded, and their packet is
handled as stalled. -/
def rxFlits (s : State) (p v : Nat) (seq : BitVec 16) : List Flit → State
  | [] => s
  | f :: fs =>
    if !nativeUp s p then s
    else if 1088 ≤ ((s.port p).vc v).rxUsed + ((s.port p).vc v).credRet then
      violationNak (endShort s p v (.skip true)) p 3 seq
    else rxFlits (rxFlit s p v seq f) p v seq fs

/-- R291, R295, R312, R317: the checks of any frame at an admitted native port: its CRC, then a format that R312 names, its
version, then its tag. The Bool says that the frame goes on. -/
def frameChecks (s : State) (p : Nat) (f : Frame) : State × Bool :=
  let k := s.port p
  let s := countShared s (portBlk p) 1 16 1 3
  if !f.crcOk then (askReplay s p, false)
  else if 5 < f.type_.toNat ∨ 16 < f.nflit ∨ f.malformed then (violationNak s p 2 f.seq, false)
  else if f.enc != (k.enc && f.type_ != 0) ∨ (f.type_.toNat = 5 ∧ k.ver ≠ 2) then (violationNak s p 5 f.seq, false)
  else if k.enc && !f.tagOk && f.type_.toNat != 0 then (tagFail s p, false)
  else (s, true)

/-- R294: the sender resends its unacknowledged frames from `seq`, bit-identical, as one replay. -/
def replayFrom (s : State) (p : Nat) (seq : BitVec 16) : State :=
  let fs := (s.port p).unacked.dropWhile (fun f => f.frame.seq != seq)
  if fs = [] then s
  else
    let s := modPort s p (fun k => { k with replay := satInc k.replay 1 })
    let s := countShared s (portBlk p) 4 16 1 3
    fs.foldl (fun s f => sendFrame s p f.frame) s

/-- R318, R387: the beacon of a port: what it sends. -/
def beaconOf (s : State) (p : Nat) : Beacon :=
  let now := dieEcho s (p / 5)
  match (s.port p).beacon with
  | some b => ⟨now, b.sent, b.arrived, s.devId, BitVec.ofNat 8 s.ech.dist, 0⟩
  | none => ⟨now, 0, 0, s.devId, BitVec.ofNat 8 s.ech.dist, 0⟩

/-! ### Upstream ports (R387) -/

/-- R387: the admitted native port whose partner reports the smallest distance below 0xFF, the lowest port on a tie. -/
def bestUpstream (s : State) : Option (Nat × Nat) :=
  (List.range 40).foldl (fun best p =>
    match nativeUp s p, (s.port p).beacon with
    | true, some b =>
      let d := b.dist.toNat
      if d = 0xFF then best
      else
        match best with
        | some (_, d') => if d < d' then some (p, d) else best
        | none => some (p, d)
    | _, _ => best) none

/-- echo.source (Table 12.9). -/
def echoSource (s : State) : Nat := cfgNum s 0x20 0x0011 0 1

/-- R387: the distance that the device reports. -/
def echoDist (s : State) : Nat :=
  if cfgNum s 0x20 0x0013 0 0 = 1 ∨ (2 ≤ s.ech.src ∧ s.ech.st = 2) then 0
  else if s.ech.src = 1 then
    match bestUpstream s with
    | some (_, d) => d + 1
    | none => 0xFF
  else 0xFF

/-- R386, R387: under LINK the device chooses its upstream, and a device with none goes to HOLDOVER. -/
def chooseUpstream (s : State) : State :=
  let s :=
    if echoSource s = 1 ∧ cfgNum s 0x20 0x0013 0 0 = 0 then
      match bestUpstream s with
      | some (p, _) =>
        modEch s (fun e =>
          { e with
            src := 1
            upPort := some p
            st := if e.st = 2 ∧ e.upPort = some p then 2 else 1 })
      | none =>
        modEch s (fun e =>
          { e with
            src := 1
            upPort := none
            st := 3 })
    else s
  modEch s (fun e => { e with dist := echoDist s })

end Sys2Proof.Machine
end

