-- ==== Sys2Proof/Machine/ClockOps.lean ====
section
/-!
DEFINITION. The operations of clocks and Echo time that several commands share: scheduled changes of CCLK, core voltage,
and steps of Echo time (R375 to R388, R397).
-/

namespace Sys2Proof.Machine

/-! ### Core voltage (R397) -/

/-- Table 13.2: VCORE for a STEP before trim, in units of 10 µV. DEDUCED, log entry 7. -/
def vcoreTable (step : Nat) : Nat :=
  if step ≤ 32 then 60000 + 125 * step
  else if step ≤ 64 then 64000 + 250 * (step - 32)
  else 72000 + 500 * (step - 64)

/-- R397: the voltage that field `n` needs at a STEP: with its trim, never above 0.85 V. DEDUCED, log entry 7. -/
def vcoreFor (n step : Nat) : Nat := min 85000 (vcoreTable step + min 5000 (Config.vcoreTrim n))

/-! ### Scheduled changes (R377 to R380) -/

/-- The network domain of field `n` is on. -/
def fieldOn (s : State) (n : Nat) : Bool := decide (n < 12) && domOf s (96 + n) == .on

/-- The fields that a change still covers: a field switched off before T has left the mask (R380). -/
def covered (s : State) (c : ClkChange) : List (Nat × Nat) := c.targets.filter (fun x => fieldOn s x.1)

/-- R376: whether the idle PLL of a field is locked. -/
def idleLocked (k : Field) : Bool := if k.pll1 then k.lk0 else k.lk1

def setIdleLock (k : Field) (b : Bool) : Field := if k.pll1 then { k with lk0 := b } else { k with lk1 := b }

/-- R377, R398: a change is armed: its fields program their idle PLLs, and VCORE rises where their frequency will. -/
def armChange (s : State) (c : ClkChange) : State :=
  let mask := (c.targets.map (fun x => 2 ^ x.1)).sum
  let s := modClk s (fun k =>
    { k with
      regT := c.t
      regMask := mask
      regTgt := c.targets.foldl (fun m x => mset m x.1 x.2) k.regTgt
      armed := some c })
  (covered s c).foldl (fun s x =>
    modField s x.1 (fun k =>
      { setIdleLock k false with
        idleStep := some x.2
        vcore := max k.vcore (vcoreFor x.1 x.2) })) s

/-- R380: the oldest held change is armed, with T at least 50 µs after its arming. -/
def armHeld (s : State) : State :=
  match s.clk.armed, s.clk.held with
  | none, c :: cs =>
    armChange (modClk s (fun k => { k with held := cs })) { c with t := max c.t (s.echoM.toNat + 50000) }
  | _, _ => s

/-- R377, R378, R380: a request for a change at Echo time `t`. One nearer than 50 µs, within 50 µs of a cancellation, with a
reserved STEP or for no field is refused; one made while a change is armed is held. -/
def requestChange (s : State) (t : Nat) (targets : Map Nat) : State :=
  let c : ClkChange := ⟨t, targets, false⟩
  if t < s.echoM.toNat + 50000 ∨ s.echoM.toNat < s.clk.notBefore ∨ targets.any (fun x => decide (80 < x.2)) ∨ targets = [] then s
  else if s.clk.armed.isSome then modClk s (fun k => { k with held := k.held ++ [c] })
  else armChange s c

/-- R378: the armed change is cancelled in every field; `notrdy` names the fields that were not ready. -/
def cancelChange (s : State) (notrdy : Nat) : State :=
  match s.clk.armed with
  | none => s
  | some c =>
    let s := modClk s (fun k =>
      { k with
        armed := none
        cancel := true
        notrdy := notrdy
        cancels := k.cancels + 1
        notBefore := s.echoM.toNat + 50000 })
    let s := c.targets.foldl (fun s x =>
      modField s x.1 (fun k =>
        { k with
          idleStep := none
          vcore := if fieldOn s x.1 then vcoreFor x.1 k.step else k.vcore })) s
    armHeld s

/-! ### Echo time (R381 to R388) -/

/-- A signed sum on a 64-bit count. -/
def echoAdd (e : W64) (d : Int) : W64 := BitVec.ofInt 64 ((e.toNat : Int) + d)

/-- R386: M's counter, and with it every field counter, is stepped, with event 0x4005. -/
def stepEcho (s : State) (d : Int) : State :=
  let s := { s with echoM := echoAdd s.echoM d }
  let s := (List.range 12).foldl (fun s n => modField s n (fun k => { k with echo := echoAdd k.echo d })) s
  let s := modEch s (fun e =>
    { e with
      steps := min 0xFFFF (e.steps + 1)
      slew := 0
      pend := 0 })
  let w := (BitVec.ofInt 64 d).toNat
  raiseEvent s 0x4005 9 0 none [w % 2 ^ 32, w / 2 ^ 32]

/-- ECH_OFFSET holds a signed 32-bit value, saturating (Table 12.8). -/
def sat32 (d : Int) : Int := max (-2147483648) (min 2147483647 d)

/-- R386: an offset to the source has been measured. Up to 1 ms it is slewed; more than that forward is stepped, backward is
flagged, and the device stays in HOLDOVER. DEDUCED, log entry 57. -/
def discipline (s : State) (d : Int) : State :=
  let s := modEch s (fun e =>
    { e with
      ofs := sat32 d
      pend := d })
  let s :=
    if 1000000 < d then modEch (stepEcho s d) (fun e => { e with st := 2 })
    else if d < -1000000 then
      modEch s (fun e =>
        { e with
          back := true
          st := 3
          slew := 0 })
    else
      modEch s (fun e =>
        { e with
          slew := d
          st := 2
          back := false })
  modEch s (fun e => { e with dist := echoDist s })

/-- R386: the device has no source any more and keeps its last rate. -/
def holdover (s : State) : State :=
  let s := modEch s (fun e =>
    { e with
      st := 3
      slew := 0 })
  modEch s (fun e => { e with dist := echoDist s })

/-- echo.source has been set (Table 12.9): its source is acquired anew. -/
def sourceSet (s : State) (src : Nat) : State :=
  let s := modEch s (fun e =>
    { e with
      src := src
      st := if src = 0 then 0 else 1
      back := false
      slew := 0
      upPort := if src = 1 then e.upPort else none })
  modEch s (fun e => { e with dist := echoDist s })

/-- R386: an Echo resynchronisation steps to the source, backward included, and cancels an armed change (R380). -/
def resync (s : State) : State :=
  let d := s.ech.pend
  let s := cancelChange (stepEcho s d) 0
  let s := modEch s (fun e =>
    { e with
      back := false
      st := if e.src = 0 then 0 else 2 })
  modEch s (fun e => { e with dist := echoDist s })

end Sys2Proof.Machine
end

