-- ==== Sys2Proof/Machine/Hbm.lean ====
section
/-!
DEFINITION. The stack controllers: requests, rate tokens, corrected words, scrub, temperature, and stacks that fail
(R331 to R345, Table 13.7).
-/

namespace Sys2Proof.Machine

/-- What a request writes, with its poisoned 8 B words. -/
def hbmData (r : HbmReq) : Option (Bytes × List Nat) :=
  r.write.map (fun bs => (bs, if r.poison then (wordsOf r.addr bs.length).map (fun w => w - r.addr) else []))

/-- The bytes of a request: those that it writes, or those that it asks for. -/
def hbmLen (r : HbmReq) : Nat :=
  match r.write with
  | some bs => bs.length
  | none => r.len

/-- Table 11.1: a read is answered with completions of at most 512 B: the offset and length of each. -/
def tlps (n : Nat) : List (Nat × Nat) :=
  if n ≤ 512 then [(0, n)] else (List.range ((n + 511) / 512)).map (fun i => (512 * i, min 512 (n - 512 * i)))

/-- R354: a read through BAR2 returns its data; one that met an uncorrectable word is poisoned and counted in HIF_DROP.
DEDUCED, log entry 49. -/
def barData (s : State) (h f off : Nat) (ok : Bool) (bs : Bytes) (poison : List Nat) : State :=
  let s := if poison = [] then s else countDrop s h f
  (tlps bs.length).foldl (fun s x => emit s (.hostData h f (off + x.1) ok (poison != []) ((bs.drop x.1).take x.2))) s

/-- The requester receives what its request has found: data at BAR2 for a read through it, else an answer.
DEDUCED, log entry 58. -/
def hbmAnswer (s : State) (w : HbmWait) (x : RSt) (bs : Bytes) (poison : List Nat) : State :=
  match w.bar, w.req.req with
  | some off, .host h f =>
    if w.req.write.isSome then s else barData s h f off (x == .ok || x == .uncorrected) bs poison
  | _, _ => emit s (.memData w.req.req w.req.addr x.que bs poison)

/-- Table 10.1: a parity error on a command to stack `st` is retried once and counts as a corrected error. DEDUCED, log entry 30. -/
def busParity (s : State) (st : Nat) (owner : Option Nat) : State :=
  raiseErr (modStack s st (fun k => { k with ce := satInc k.ce 1 })) 0x0003 5 st owner (edgeEcho s st) []

/-- R331 to R336, R339, R344, R573: a request is performed or refused, and answered. A request in remote form is DENIED;
one for more than 4,096 B that is neither DENIED nor UNMAPPED is refused with SIZE. DEDUCED, log entry 58. -/
def hbmServe (s : State) (w : HbmWait) : State :=
  let r := w.req
  let part := reqOwner s r.req
  let n := hbmLen r
  if r.remote then hbmAnswer (countStatus s part .denied) w .denied [] []
  else if decide (4096 < n) && (hbmCheck s part r.addr n == .ok || hbmCheck s part r.addr n == .destReset) then hbmAnswer (countStatus s part .size) w .size [] []
  else
    let s := if r.parity && hbmCheck s part r.addr n == .ok then busParity s (hbmLoc s r.addr).1 part else s
    let (s, a) := hbmAccess s r.req part r.addr n (hbmData r)
    hbmAnswer s w (if a.st = .ok && r.poison then .uncorrected else a.st) a.data a.poison

/-- R345: a request that has found too few tokens, or others waiting, waits at the stack that holds its first byte.
DEDUCED, log entry 58. -/
def hbmWait (s : State) (w : HbmWait) : State :=
  modStack s (hbmLoc s w.req.addr).1 (fun k => { k with waiting := k.waiting ++ [w] })

/-- R331, R342, R345: a request reaches a stack controller; one that finds too few tokens, or others waiting, waits. -/
def execHbmRequest (r : HbmReq) (s : State) : Res :=
  .next (
    if !r.remote && decide (hbmLen r ≤ 4096) && hbmHeld s (reqOwner s r.req) r.addr (hbmLen r) then hbmWait s ⟨r, none⟩
    else hbmServe s ⟨r, none⟩)

/-- R345: the oldest waiting request of stack `st` is performed, once every stack that it touches has the tokens for it. -/
def execHbmRateTokens (st : Nat) (s : State) : Res :=
  .next (
    match (s.stack st).waiting with
    | [] => s
    | w :: ws => if hasTokens s w.req.addr (hbmLen w.req) then hbmServe (modStack s st (fun k => { k with waiting := ws })) w else s)

/-- R335: the corrected word `w` (in 64 B units) of stack `st` is written back. -/
def execHbmEccWriteback (st w : Nat) (s : State) : Res :=
  .next (
    if mfind s.marks (hbmKey st (64 * w)) = some .corrected then { s with marks := mdel s.marks (hbmKey st (64 * w)) }
    else s)

/-- R337: patrol scrub reads the next word of a stack: a correctable word is corrected under R335, an uncorrectable one left
as it is. -/
def execHbmScrubWord (st : Nat) (s : State) : Res :=
  .next (
    let k := s.stack st
    if 16 ≤ st || k.st != .ready || k.sref || !k.scrubEn then s
    else
      let s := modStack s st (fun k => { k with scrubAt := (k.scrubAt + 64) % stackSize })
      (touchHbm s st k.scrubAt 2).1)

/-- The default of memory.rate_limit (R345). -/
def rateDefault : Nat := bif Config.profileIsL then 2048 else 1500

/-- HBM_SCRUB as memory.scrub_hours sets it: 0 disables the scrub (R337, R348). DEDUCED, log entry 74. -/
def scrubSet (k : Stack) (v : Nat) : Stack := { k with scrubEn := v != 0, hours := if v = 0 then k.hours else v }

/-- R341, Table 13.7: a stack's temperature is read. From 85 °C refresh is doubled, until below 80 °C; from 95 °C its rate is
halved, until 90 °C or less. DEDUCED, log entry 58. -/
def execHbmTempRead (st t : Nat) (s : State) : Res :=
  .next (
    if 16 ≤ st then s
    else
      let s := modStack s st (fun k =>
        { k with
          temp := min t 255
          hot := decide (85 ≤ t) || (k.hot && decide (80 ≤ t)) })
      let k := s.stack st
      if 95 ≤ t && !k.throttled then
        let s := modStack s st (fun k =>
          { k with
            throttled := true
            rate := max 256 (k.rate / 2) })
        raiseEvent (countThrottle s) 0x2103 5 st none [min t 255]
      else if t ≤ 90 && k.throttled then
        modStack s st (fun k =>
          { k with
            throttled := false
            rate := if s.pwr.brake then 256 else cfgNum s 0x60 0x0002 0 rateDefault })
      else s)

/-- R342: a channel of stack `st` is recalibrated: its requests wait for at most 1 µs, and no state changes. -/
def execHbmRecalibrate (_st _ch : Nat) (s : State) : Res := .next s

/-- R344: stack `st` is retired: its domain is switched off with its Survey entry, and requests in flight to it are
answered DEST_RESET (R279). `prov` says that the failure was found at a start. -/
def retireStack (s : State) (st : Nat) (prov : Bool) : State :=
  if (s.stack st).st == .retired then s
  else
    let s := if prov then startFinds s 7 (natBytes 2 (116 + st)) else surveyAppend s 7 2 false (natBytes 2 (116 + st))
    let s := stackGone (setDom s (116 + st) .off) st
    let s := modStack s st (fun k => { k with st := .retired })
    reevaluate (raiseErr s 0x0006 5 st none (edgeEcho s st) [])

/-- R344: a channel fails in service and its whole stack is retired. -/
def execHbmChannelFail (st ch : Nat) (s : State) : Res :=
  .next (if st < 16 ∧ ch < 32 then retireStack s st s.wake.start.isSome else s)

end Sys2Proof.Machine
end

