-- ==== Sys2Proof/Machine/SessOps.lean ====
section
/-!
DEFINITION. The end of management sessions (R492, R487), which resets, starts and enrolment bring as well as Sasil itself.
-/

namespace Sys2Proof.Machine

/-- Table 16.1: the number of a transport, in its order, as security.sessions and event 0x5002 show it. -/
def transportCode : Transport → Nat
  | .eth _ => 0
  | .mctp => 1
  | .mbx _ _ => 2
  | .peer _ => 3

/-- Why a session closed, as event 0x5002 records it. -/
inductive CloseCause where
  | opened
  | close
  | timeout
  | flr
  | hello
  | start
  | enrolment
  | version
  deriving DecidableEq, Repr

def CloseCause.code : CloseCause → Nat
  | .opened => 0
  | .close => 1
  | .timeout => 2
  | .flr => 3
  | .hello => 4
  | .start => 5
  | .enrolment => 6
  | .version => 7

/-- Event 0x5002: class, transport, close cause. -/
def sessionEvent (s : State) (e : Session) (why : CloseCause) : State :=
  raiseEvent s 0x5002 0 0 none [e.cls, transportCode e.tr, why.code]

/-- R524: a download whose staging copy is abandoned ends; its target has been INVALID since it began. -/
def dropImage (s : State) (e : Session) : State :=
  match e.staging with
  | none => s
  | some g =>
    if g.obj.area = 0xA0 ∧ g.obj.idx = 4 ∧ s.fw.upd = 1 then modFw s (fun f => { f with upd := 0 }) else s

/-- R492: a session closes: its subscription, requests and staging copy go with it, and ACTIONs that it awaits complete
without it (R505). -/
def closeSession (s : State) (sid : Nat) (why : CloseCause) : State :=
  match mfind s.sessions sid with
  | none => s
  | some e =>
    let s := { s with sessions := mdel s.sessions sid }
    let s := if e.staging.isSome then dropImage s e else s
    let s := modWake s (fun w => { w with asyncs := w.asyncs.filter (fun a => a.sid != sid) })
    sessionEvent s e why

/-- The sessions that `p` names close. -/
def closeSessions (s : State) (p : Session → Bool) (why : CloseCause) : State :=
  (s.sessions.filter (fun x => p x.2)).foldl (fun s x => closeSession s x.1 why) s

/-- The session of a mailbox closes, and its handshake ends (R487). -/
def closeMailbox (s : State) (h f : Nat) : State :=
  let s := closeSessions s (fun e => e.tr = .mbx h f) .flr
  modMgmt s (fun m => { m with hands := m.hands.filter (fun x => x.tr != .mbx h f) })

end Sys2Proof.Machine
end

