-- ==== Sys2Proof/Machine/Mesh.lean ====
section
/-!
DEFINITION. The mesh and the seams: routing, weighted sharing, seam wires and their spares, delivery under reset, and
weights (R27 to R32, R263 to R279, R469).
-/

namespace Sys2Proof

/-- Table 8.1, R260: the plane that a packet travels on. A bulk packet, and the read request of a fill, name their burst. -/
def Packet.plane (k : Packet) : Plane :=
  match k.kind with
  | .readReq | .store | .grant => .a
  | .bulk => if k.burst % 2 = 0 then .a else .b
  | .rdata | .answer => .b

/-- R259: the flits of a packet: its header, and one for each 64 B of a payload of at most 4 KiB. -/
def Packet.flits (k : Packet) : Nat :=
  match k.kind with
  | .readReq | .answer | .grant => 1
  | .bulk | .store | .rdata => 1 + (min k.payload 4096 + 63) / 64

end Sys2Proof

namespace Sys2Proof.Machine

/-! ### Destinations (R263, R572) -/

/-- R271, R362: the traffic class of a packet: that of the core that sent it, or on whose behalf an edge die answers, or of the target
of a launch message; 16, the device class, for every other. -/
def clsOf (s : State) (k : Packet) : Nat :=
  if k.srcCore < 1152 then classOfPart (partOf s k.srcCore)
  else
    match k.behalf with
    | some c => classOfPart (partOf s c)
    | none => 16

/-- R263, R327: the edge router of a die that serves a packet: by the stack's hash, by port on a link die, by address bit 12 on a
host die and M. -/
def edgeIdx (die sel : Nat) : Nat :=
  if die < 16 then hbmRouter sel else if die < 24 then sel / 2 else bits sel 12 12

/-- R572: the field router of field `n`. -/
def fieldRouter (s : State) (n : Nat) : Nat := if (s.field n).msh.atRow3 then 13 * 3 + 6 else 13 * 4 + 6

/-- R263: the tile a packet is for, and the port by which it leaves there. -/
def destTile (s : State) (d : MeshDest) : Option (Nat × Nat × MeshPort) :=
  match d with
  | .core c => if present s c then some (tileX s c, tileY c, .local_) else none
  | .edge die sel => (edgeTile die (edgeIdx die sel)).map (fun t => (t.1, t.2, .edge))
  | .field n =>
    if n < 12 then let t := routerTile n (fieldRouter s n); some (t.1, t.2, .edge) else none

/-- Whether the router `r` of field `n` is recorded dead (R38). -/
def routerDead (s : State) (n r : Nat) : Bool := (s.grp (8 * n + r / 13)).rdead.testBit (r % 13)

/-! ### Routing (R263, R264) -/

def planeBit : Plane → Nat
  | .a => 1
  | .b => 2

def portNum : MeshPort → Nat
  | .north => 1
  | .east => 2
  | .south => 3
  | .west => 4
  | .local_ => 5
  | .edge => 6

def outOf (n : Nat) : Option MeshPort :=
  match n with
  | 1 => some .north
  | 2 => some .east
  | 3 => some .south
  | 4 => some .west
  | _ => none

/-- R264, Tables 8.11 and 8.12: whether an overlay entry matches a packet for tile (tx, ty). -/
def ovlMatches (e : W32 × W32) (k : Packet) (tx ty : Nat) : Bool :=
  let a := e.1.toNat
  let b := e.2.toNat
  (bits a 31 31 == 1) && (bits b 5 4 &&& planeBit k.plane) != 0 &&
    (bits a 30 28 == 0 || bits a 30 28 == portNum k.inp) &&
    decide (bits a 27 22 ≤ tx) && decide (tx ≤ bits a 21 16) && decide (bits a 15 11 ≤ ty) && decide (ty ≤ bits a 10 6)

/-- R263, R264: dimension order: X then Y on VC0, Y then X on VC1. -/
def dimOrder (vc1 : Bool) (x y tx ty : Nat) (here : MeshPort) : MeshPort :=
  let alongX : Option MeshPort := if tx < x then some .west else if x < tx then some .east else none
  let alongY : Option MeshPort := if ty < y then some .north else if y < ty then some .south else none
  if vc1 then (alongY.orElse (fun _ => alongX)).getD here else (alongX.orElse (fun _ => alongY)).getD here

/-- How a router deals with a header: its output, and whether it is on VC1; or a refusal UNMAPPED. -/
inductive Hop where
  | go (out : MeshPort) (vc1 : Bool) (byOvl : Bool)
  | unmapped
  deriving DecidableEq, Repr

/-- The lowest-numbered overlay entry of router `r` of field `n` that matches (R264). -/
def ovlOf (s : State) (n r : Nat) (k : Packet) (tx ty : Nat) : Option Nat :=
  (List.range 16).find? (fun e => ovlMatches (mget (0, 0) (s.field n).msh.ovl (16 * r + e)) k tx ty)

/-- R263, R264, R469: the hop of a packet at router `r` of field `n`. -/
def hopOf (s : State) (n r : Nat) (k : Packet) : Hop :=
  let mapBad := match k.dest with
    | .core c => badEntry s 2 (8 + n) (groupOf c)
    | _ => false
  match destTile s k.dest with
  | none => .unmapped
  | some (tx, ty, here) =>
    if mapBad then .unmapped
    else
      match ovlOf s n r k tx ty with
      | some e =>
        if badEntry s 1 (8 + n) (16 * r + e) then .unmapped
        else
          let b := (mget (0, 0) (s.field n).msh.ovl (16 * r + e)).2.toNat
          match outOf (bits b 2 0) with
          | some o => .go o (k.vc1 || bits b 3 3 == 1) true
          | none =>
            let t := routerTile n r
            .go (dimOrder k.vc1 t.1 t.2 tx ty here) k.vc1 false
      | none =>
        let t := routerTile n r
        .go (dimOrder k.vc1 t.1 t.2 tx ty here) k.vc1 false

/-! ### Seams (R26, R27) -/

/-- R27: the crossing that an output of router `r` of field `n` leaves by, as seam and crossing number. -/
def crossingAt (n r : Nat) (out : MeshPort) : Option (Nat × Nat) :=
  let (tx, ty) := routerTile n r
  match out with
  | .east => if r % 13 = 12 ∧ n % 3 < 2 then some (n % 3, ty) else none
  | .west => if r % 13 = 0 ∧ 0 < n % 3 then some (n % 3 - 1, ty) else none
  | .south => if r / 13 = 7 ∧ n / 3 < 3 then some (2 + n / 3, tx) else none
  | .north => if r / 13 = 0 ∧ 0 < n / 3 then some (1 + n / 3, tx) else none
  | _ => none

/-- R27: the field that owns a crossing. -/
def seamOwner (seam x : Nat) : Nat := if seam < 2 then 3 * (x / 8) + seam else 3 * (seam - 2) + x / 13

def seamKey (seam x : Nat) : Nat := 64 * seam + x
def State.seam (s : State) (seam x : Nat) : Crossing := mget Crossing.reset s.seams (seamKey seam x)
def modSeam (s : State) (seam x : Nat) (f : Crossing → Crossing) : State :=
  { s with seams := mset s.seams (seamKey seam x) (f (s.seam seam x)) }

/-- R31: flit resends on a crossing count in its owner's FLD_SEAM_RETRY. -/
def countResends (s : State) (seam x k : Nat) : State :=
  modMsh s (seamOwner seam x) (fun m => { m with seamRetry := satInc m.seamRetry k })

/-- R32: whether the link of a crossing is dead on a plane. -/
def crossingDead (k : Crossing) (p : Plane) : Bool :=
  match p with
  | .a => k.deadA
  | .b => k.deadB

/-- R30, R32: whether an output of router `r` of field `n` may be used on a plane: its crossing is neither dead nor being
quiesced. -/
def linkOpen (s : State) (n r : Nat) (p : Plane) (o : MeshPort) : Bool :=
  match crossingAt n r o with
  | some (seam, x) => !crossingDead (s.seam seam x) p && !(s.seam seam x).quiet
  | none => true

/-! ### Overlays (R264, R265) -/

/-- Whether the router `r` of field `n` forwards nothing: it is recorded dead, or its field's network is off (R410). -/
def routerGone (s : State) (n r : Nat) : Bool := routerDead s n r || domOf s (96 + n) != .on

/-- The dead routers of the groups listed, and those of the fields whose network has tripped, as field and router. -/
def deadRouters (s : State) : List (Nat × Nat) :=
  (s.groups.flatMap (fun p => (List.range 13).filterMap (fun col =>
    if p.2.rdead.testBit col then some (p.1 / 8, 13 * (p.1 % 8) + col) else none))) ++
  ((List.range 12).filter (fun n => domOf s (96 + n) == .tripped)).flatMap (fun n => (List.range 104).map (fun r => (n, r)))

/-- The dead crossings, as seam, crossing and plane. -/
def deadCrossings (s : State) : List (Nat × Nat × Nat) :=
  s.seams.flatMap (fun p => (if p.2.deadA then [(p.1 / 64, p.1 % 64, 0)] else []) ++
    (if p.2.deadB then [(p.1 / 64, p.1 % 64, 1)] else []))

/-- Whether a pair of words is a valid overlay entry (Tables 8.11, 8.12). -/
def ovlLegal (key : Nat) (e : W32 × W32) : Bool :=
  let a := e.1.toNat
  let b := e.2.toNat
  decide (key < 16 * 104) && bits a 31 31 == 1 && bits a 30 28 != 7 && decide (bits a 21 16 ≤ 38) && bits a 5 0 == 0 &&
    bits b 5 4 != 0 && decide (1 ≤ bits b 2 0) && decide (bits b 2 0 ≤ 4) && decide (b < 64)

/-- R265: the overlays of field `n` that Carafe builds from what is dead: none where nothing is, else those of a free function,
since the manual gives their purpose and not their entries. DEDUCED, log entry 82. -/
def overlaysFor (s : State) (n : Nat) : Map (W32 × W32) :=
  let rs := deadRouters s
  let xs := deadCrossings s
  if rs = [] ∧ xs = [] then []
  else (Config.overlays rs xs n).foldl (fun m e => if ovlLegal e.1 e.2 then mset m e.1 e.2 else m) []

/-- R265: Carafe installs overlays in every field, whose MSH_GEN records the new generation; entries with a parity error are
written anew (R469). -/
def installOverlays (s : State) : State :=
  let gen := ((List.range 12).map (fun n => (s.field n).msh.gen)).foldl max 0 + 1
  let s := (List.range 12).foldl (fun t n =>
    modMsh t n (fun m => { m with ovl := overlaysFor s n, gen := gen % 2 ^ 32 })) s
  { s with badEntries := s.badEntries.filter (fun x => x.kind != 1) }

/-! ### Sharing (R271, R272) -/

/-- R271, R272: the weight of a class at the outputs of field `n`. -/
def weightOf (s : State) (n cls : Nat) : Nat := if cls < 16 then mget 16 (s.field n).msh.weights cls else 8

/-- The number of a router output on a plane. -/
def outKey (r : Nat) (p : Plane) (o : MeshPort) : Nat := (2 * r + (planeBit p - 1)) * 7 + portNum o

/-! ### Buffers and credits (R262) -/

/-- The packets in the input buffers of router `r` of field `n`. -/
def bufOf (s : State) (n r : Nat) : List MeshFlight := mget [] (s.field n).msh.bufs r

def setBuf (s : State) (n r : Nat) (ms : List MeshFlight) : State :=
  if ms = bufOf s n r then s
  else modMsh s n (fun m => { m with bufs := if ms = [] then mdel m.bufs r else mset m.bufs r ms })

/-- The number of a router output on a plane and virtual channel. -/
def creditKey (r : Nat) (p : Plane) (o : MeshPort) (vc : Bool) : Nat := 2 * outKey r p o + (if vc then 1 else 0)

/-- The neighbour of router `r` of field `n` on one of its links, and the neighbour's port on that link. -/
def neighbour (n r : Nat) (o : MeshPort) : Option (Nat × Nat × MeshPort) :=
  let (tx, ty) := routerTile n r
  let at_ (x y : Nat) (p : MeshPort) : Option (Nat × Nat × MeshPort) := let q := tileRouter x y; some (q.1, q.2, p)
  match o with
  | .north => if 0 < ty then at_ tx (ty - 1) .south else none
  | .south => if ty < 31 then at_ tx (ty + 1) .north else none
  | .west => if 0 < tx then at_ (tx - 1) ty .east else none
  | .east => if tx < 38 then at_ (tx + 1) ty .west else none
  | .local_ | .edge => none

/-- R262: the credits that an output has on a virtual channel; a core or die takes in whatever comes (R261). -/
def creditsOf (s : State) (n r : Nat) (p : Plane) (o : MeshPort) (vc : Bool) (want : Nat) : Nat :=
  match neighbour n r o with
  | some _ => 16 - mget 0 (s.field n).msh.used (creditKey r p o vc)
  | none => want

/-- R262: `m` flits leave an output, and the room that they had in their input buffer is returned to the router before. -/
def passFlits (s : State) (n r : Nat) (k : Packet) (o : MeshPort) (vc : Bool) (m : Nat) : State :=
  let s := match neighbour n r o with
    | some _ =>
      let key := creditKey r k.plane o vc
      modMsh s n (fun x => { x with used := mset x.used key (mget 0 x.used key + m) })
    | none => s
  match neighbour n r k.inp with
  | some (n', r', o') =>
    let key := creditKey r' k.plane o' k.vc1
    if mget 0 (s.field n').msh.used key = 0 then s
    else modMsh s n' (fun x => { x with used := mset x.used key (mget 0 x.used key - m) })
  | none => s

/-- Whether two flights wait in the same input buffer. -/
def sameInput (a b : Packet) : Bool := a.inp == b.inp && a.plane == b.plane && a.vc1 == b.vc1

/-- R262: a header enters its input buffer, which holds 16 flits: it was sent only where there is room for it. -/
def bufferPkt (ms : List MeshFlight) (k : Packet) : List MeshFlight :=
  if 16 ≤ ((ms.filter (fun f => sameInput f.pkt k)).map (·.left)).sum then ms else ms ++ [⟨k, k.flits, none⟩]

/-- R262: the packet that holds output `o` on a plane and virtual channel sends on what its credits allow; with its tail past, it
leaves the buffer and the output is free. -/
def passHeld (s : State) (n r : Nat) (p : Plane) (o : MeshPort) (vc : Bool) : State :=
  match (bufOf s n r).find? (fun f => f.pkt.plane == p && f.won == some (o, vc)) with
  | none => s
  | some f =>
    let m := min f.left (creditsOf s n r p o vc f.left)
    let s := setBuf s n r ((bufOf s n r).filterMap (fun g =>
      if g = f then (if f.left ≤ m then none else some { f with left := f.left - m }) else some g))
    passFlits s n r f.pkt o vc m

/-- The packets that wait for output `o` of a plane: each the first of its input buffer, with a free virtual channel and a credit
there. -/
def waitsFor (s : State) (n r : Nat) (p : Plane) (o : MeshPort) : List Packet :=
  let ms := bufOf s n r
  (ms.filter (fun f => f.won.isNone && f.pkt.plane == p &&
    (ms.find? (fun g => sameInput g.pkt f.pkt)) == some f &&
    (match hopOf s n r f.pkt with
     | .go o' vc _ => o' == o && linkOpen s n r p o && !ms.any (fun g => g.pkt.plane == p && g.won == some (o, vc)) &&
         decide (0 < creditsOf s n r p o vc 1)
     | .unmapped => false))).map (·.pkt)

/-- One output of a router on a plane (R262, R271): packets that hold it go on; else one of those that wait wins it. Deficits of
classes without a packet become 0. -/
def serveOut (s : State) (n r : Nat) (p : Plane) (o : MeshPort) : State :=
  let s := passHeld (passHeld s n r p o false) n r p o true
  let ks := waitsFor s n r p o
  if ks = [] then s
  else
    let key := outKey r p o
    let m := (s.field n).msh
    let h : Sharing Packet := {
      weight := weightOf s n, last := fun c => mget 0 m.rrPort (17 * key + c), cls := clsOf s, inp := fun k => portNum k.inp,
      flits := fun k => k.flits }
    match drr 200 6 h ks (mget 0 m.rrClass key) (deficits (clsOf s) ks (fun c => mget 0 m.deficit (17 * key + c))) with
    | none => s
    | some (k, cls, d) =>
      let d := if (ks.filter (fun x => clsOf s x == cls)).length ≤ 1 then mset d cls 0 else d
      let s := modMsh s n (fun m =>
        { m with
          rrClass := mset m.rrClass key cls
          rrPort := mset m.rrPort (17 * key + cls) (portNum k.inp)
          deficit := d.foldl (fun acc x => mset acc (17 * key + x.1) x.2) m.deficit })
      let b := routerBlk n r
      let pl := planeBit k.plane
      let (vc, byOvl) := match hopOf s n r k with
        | .go _ v x => (v, x)
        | .unmapped => (k.vc1, false)
      let s := countShared s b (portNum o) cls k.flits pl
      let s := if byOvl then countShared s b 8 cls 1 pl else s
      let s := if vc && !k.vc1 then countShared s b 9 cls 1 pl else s
      let s := if k.abort then countShared s b 0xC cls 1 pl else s
      let s := match crossingAt n r o with
        | some (seam, x) =>
          let s := countResends s seam x k.resends
          if seamOwner seam x = n then countShared s b 0xA cls k.resends pl else s
        | none => s
      let s := setBuf s n r ((bufOf s n r).map (fun f =>
        if f.pkt = k ∧ f.won = none then { f with won := some (o, vc) } else f))
      passHeld (emit s (.mesh b o vc k)) n r p o vc

/-- R448, R278: the packets inside a router are ended with abort tails, and its buffers and credits are empty. -/
def emptyRouter (s : State) (n r : Nat) : State :=
  let s := (bufOf s n r).foldl (fun s f =>
    match f.won with
    | some (o, vc) => emit s (.mesh (routerBlk n r) o vc { f.pkt with abort := true })
    | none => s) s
  setBuf s n r []

/-- R448: every router buffer of field `n` is emptied, and every credit returned. -/
def emptyRouters (s : State) (n : Nat) : State :=
  let s := ((s.field n).msh.bufs.map (·.1)).foldl (fun s r => emptyRouter s n r) s
  if (s.field n).msh.used = [] then s else modMsh s n (fun m => { m with used := [] })

/-- R469: an entry whose parity fails answers UNMAPPED until Carafe rewrites it; event 0x000A. -/
def parityError (s : State) (x : ParityAt) : State :=
  if s.badEntries.contains x then s
  else
    let s := { s with badEntries := s.badEntries ++ [x] }
    if 8 ≤ x.copy then raiseErr s 0x000A 3 (x.copy - 8) none (s.field (x.copy - 8)).echo [x.kind, x.copy, x.entry]
    else raiseErr s 0x000A 0 x.copy none (edgeEcho s (16 + x.copy)) [x.kind, x.copy, x.entry]

/-- R541: the flits of a packet that comes in by the local port are flits that its core sends. -/
def sentFlits (s : State) (k : Packet) : State :=
  if k.inp = .local_ ∧ k.srcCore < 1152 then
    count s k.srcCore (match k.plane with
      | .a => 0x7A
      | .b => 0x7B) k.flits bareSample
  else s

/-- R262: a header enters its input buffer, where that has room. -/
def enterRouter (s : State) (n r : Nat) (k : Packet) : State :=
  let ms := bufferPkt (bufOf s n r) k
  setBuf (if ms.length = (bufOf s n r).length then s else sentFlits s k) n r ms

/-- The partition that a refusal of a packet is counted for (R551). -/
def pktPart (s : State) (k : Packet) : Option Nat := if k.srcCore < 1152 then partOf s k.srcCore else none

/-- R51, R469: the header of a packet whose destination or entry answers UNMAPPED is refused, counted and answered. -/
def refuseHeader (s : State) (n r : Nat) (k : Packet) : State :=
  emit (countStatus s (pktPart s k) .unmapped) (.meshRefuse (routerBlk n r) 2 k)

/-- R262 to R264, R271, R469: the headers `pkts` arrive at router `r` of field `n`; `bad` names the entries of its copies whose
parity fails as they are read. A packet whose entry or destination answers UNMAPPED leaves the mesh; the others enter their
input buffers, and each output of each plane goes on with the packet that holds it or takes the next. A header for a dead or
quiesced crossing waits. -/
def execPacketRoute (n r : Nat) (pkts : List Packet) (bad : List ParityAt) (s : State) : Res :=
  .next (
    if 12 ≤ n || 104 ≤ r || routerGone s n r then s
    else
      let s := bad.foldl parityError s
      let refused := pkts.filter (fun k => hopOf s n r k == .unmapped)
      let kept := pkts.filter (fun k => hopOf s n r k != .unmapped)
      let late := (bufOf s n r).filter (fun f => f.won.isNone && hopOf s n r f.pkt == .unmapped)
      let s := (late.map (·.pkt) ++ refused).foldl (fun s k => refuseHeader s n r k) s
      let s := kept.foldl (fun s k => enterRouter s n r k) (setBuf s n r ((bufOf s n r).filter (fun f => !late.contains f)))
      if bufOf s n r = [] then s
      else
        [Plane.a, Plane.b].foldl (fun t p =>
          [MeshPort.north, .east, .south, .west, .local_, .edge].foldl (fun t o => serveOut t n r p o) t) s)

/-! ### Seam wires (R29 to R32) -/

/-- The number of a wire group of a crossing. -/
def wireKey (plane dir group : Nat) : Nat := 34 * plane + 17 * dir + group

/-- R30, R31: more than 16 resends of one wire group in 1 ms: corrected error 0x0007 names the wire, and Carafe marks the
crossing's links dead so that it drains and is steered; during a management restart this waits (R452). The resends count in
FLD_SEAM_RETRY. -/
def execSeamResendBurst (seam x plane dir group wire resends : Nat) (s : State) : Res :=
  .next (
    let s := countResends s seam x resends
    if resends ≤ 16 then s
    else
      let s := raiseErr s 0x0007 4 (seamKey seam x) none (s.field (seamOwner seam x)).echo [plane, dir, group, wire]
      let w := (wireKey plane dir group, wire)
      modSeam s seam x (fun k =>
        { k with
          due := if k.due.contains w then k.due else k.due ++ [w]
          quiet := k.quiet || !s.wake.mgmt }))

/-- R29: the wires that a steering code pair covers. -/
def steered (t : Steer) : List Nat := [t.sa, t.sb].filter (fun c => decide (c < 32))

/-- R29, R32: the codes that cover the failed signal positions of a group, none where they cannot be covered. -/
def steerFor (failed : List Nat) (badA badB : Bool) : Option Steer :=
  match failed, badA, badB with
  | [], _, _ => some Steer.reset
  | [w], false, _ => some ⟨w, 0x3F⟩
  | [w], true, false => some ⟨0x3F, w⟩
  | [v, w], false, false => some ⟨v, w⟩
  | _, _, _ => none

/-- R29 to R32: the steering of one wire group changes under the wires, of the 32 signal positions, that are due and those its test
found; a group
that cannot be covered makes its crossing dead on its plane. Each change is recorded in the Survey. -/
def steerGroup (seam x : Nat) (s : State) (t : WireTest) : State :=
  let key := wireKey t.plane t.dir t.group
  let k := s.seam seam x
  let old := mget Steer.reset k.steer key
  let due := (k.due.filter (fun w => w.1 == key)).map (·.2)
  let failed := ((steered old ++ due ++ t.failed).filter (fun w => decide (w < 32))).dedup
  let s := modSeam s seam x (fun k => { k with due := k.due.filter (fun w => w.1 != key) })
  match steerFor failed t.badA t.badB with
  | some new =>
    if new = old then s
    else
      let s := modSeam s seam x (fun k => { k with steer := mset k.steer key new })
      surveyAppend s 4 2 false ([seam, x, t.plane, t.dir, t.group, new.sa, new.sb].map (BitVec.ofNat 8))
  | none =>
    let s := modSeam s seam x (fun k => if t.plane = 0 then { k with deadA := true } else { k with deadB := true })
    surveyAppend s 5 2 false ([seam, x, t.plane].map (BitVec.ofNat 8))

/-- R30: a quiesced crossing has drained: its steering changes, the wire test `tests` runs, and its links are restored. A group
that is due and that no test names is steered as well. A crossing found dead (R32) is routed round: new overlays are installed
while its links are still quiesced (R265). A crossing that is not quiesced changes nothing. -/
def execCrossingQuiesced (seam x : Nat) (tests : List WireTest) (s : State) : Res :=
  .next (
    if !(s.seam seam x).quiet then s
    else
    let more := ((s.seam seam x).due.map (·.1)).dedup.filter (fun key =>
      !tests.any (fun t => wireKey t.plane t.dir t.group == key))
    let rest := more.map (fun key => (⟨key / 34, key % 34 / 17, key % 17, [], false, false⟩ : WireTest))
    let dead := deadCrossings s
    let s := (tests ++ rest).foldl (steerGroup seam x) s
    let s := if deadCrossings s = dead then s else installOverlays s
    modSeam s seam x (fun k => { k with quiet := false }))

/-- *Seam wires and spare steering*, Table 2.2: the three wires of a service signal of a seam disagree, as field `n` receives them,
and `x` names the one that differs. One failed wire is corrected error 0x0008, counted as a resend; a signal with two failed wires is lost,
fatal error 0x0009. -/
def execServiceWireDisagree (n seam : Nat) (x : ServiceWire) (failed : Nat) (s : State) : Res :=
  .next (
    let s := modMsh s n (fun m => { m with seamRetry := satInc m.seamRetry 1 })
    if failed ≤ 1 then raiseErr s 0x0008 3 n none (s.field n).echo [seam, x.sig, x.wire]
    else raiseErr s 0x0009 3 n none (s.field n).echo [seam, x.sig, x.wire])

/-! ### Delivery (R277 to R279) -/

/-- R279: whether an edge die is switched off, or a host die held in reset by PERSTh_N. -/
def dieOff (s : State) (die : Nat) : Bool :=
  if die < 16 then domOf s (116 + die) != .on
  else if die < 24 then domOf s (108 + (die - 16)) != .on
  else if die < 26 then domOf s (132 + (die - 24)) != .on || (s.host (die - 24)).perst
  else false

/-- R277, R279: a packet is discarded whole: counted and captured in its field, and a request answered DEST_RESET. -/
def discardPacket (s : State) (n r dcore : Nat) (k : Packet) : State :=
  let s := meshDrop s n r dcore (if clsOf s k = 16 then none else some (clsOf s k)) k.srcCore (planeBit k.plane)
  match k.kind with
  | .readReq | .bulk | .store => emit s (.meshRefuse (routerBlk n r) 6 k)
  | _ => s

/-- R261, R277 to R279: a packet reaches its destination: accepted, or discarded whole under CRST or at a die that is off;
one that ends with an abort tail is discarded without an answer. -/
def execMeshPacketDeliver (k : Packet) (s : State) : Res :=
  .next (
    match destTile s k.dest with
    | none => s
    | some (tx, ty, out) =>
      let (n, r) := tileRouter tx ty
      let b := routerBlk n r
      if k.abort then countShared s b 0xC (clsOf s k) 1 (planeBit k.plane)
      else
        match k.dest with
        | .core c =>
          if (s.core c).crst then discardPacket s n r c k
          else emit (count s c (match k.plane with
            | .a => 0x78
            | .b => 0x79) k.flits bareSample) (.mesh b out k.vc1 k)
        | .edge die _ => if dieOff s die then discardPacket s n r 0x7FF k else emit s (.mesh b out k.vc1 k)
        | .field _ => emit s (.mesh b out k.vc1 k))

/-- R404, R319: an LD domain leaves ON. -/
def ldOff (s : State) (l : Nat) (x : DomSt) : State :=
  (List.range 5).foldl (fun s i => portLeave s (5 * l + i) .disabled) (setDom s (108 + l) x)

/-- R404: an MD domain leaves ON: contents lost, units absent, requests answered DEST_RESET (R279). -/
def mdOff (s : State) (st : Nat) (x : DomSt) : State :=
  let s := stackGone (setDom s (116 + st) x) st
  let s := clearMem s (fun k => decide (hbmKey st 0 ≤ k) && decide (k < hbmKey st 0 + stackSize))
  reevaluate (modStack s st (fun k => { k with st := if k.st = .retired then .retired else .off }))

/-- R404, R487: an HD domain leaves ON: its endpoint is reset and its mailboxes' sessions end. -/
def hdOff (s : State) (h : Nat) (x : DomSt) : State :=
  let s := modHost (setDom s (132 + h) x) h (fun k => { HostDie.reset with perst := k.perst })
  reevaluate ((List.range 17).foldl (fun s f => closeMailbox s h f) s)

/-- R404: domain `d` of a link die, stack or host die leaves ON. -/
def dieLeave (s : State) (d : Nat) (x : DomSt) : State :=
  if d < 116 then ldOff s (d - 108) x else if d < 132 then mdOff s (d - 116) x else hdOff s (d - 132) x

/-- The domain of an edge die (Tables 8.4 and 13.3). -/
def dieDomain (die : Nat) : Nat := if die < 16 then 116 + die else if die < 24 then 92 + die else 108 + die

/-- R410: whether an edge die has lost one of its edge routers with the network of its field. -/
def edgeLost (s : State) (die : Nat) : Bool :=
  (List.range 5).any (fun i =>
    match edgeTile die i with
    | some (tx, ty) => domOf s (96 + (tileRouter tx ty).1) != .on
    | none => false)

/-- R410: the FN domain of field `n` is no longer ON: its 8 CG domains switch OFF and its groups are lost, and edge dies with a router
in it are switched OFF. -/
def fieldOut (s : State) (n : Nat) (x : DomSt) : State :=
  let s := setDom s (96 + n) x
  let s := (List.range 8).foldl (fun s row =>
    let g := 8 * n + row
    let s := if domOf s g == .tripped then s else setDom s g .off
    loseGroup s g 2 true) s
  (List.range 26).foldl (fun s die =>
    if edgeLost s die && domOf s (dieDomain die) == .on then dieLeave s (dieDomain die) .off else s) s

/-- R410, R572: field `n` has lost its network: its FN domain is TRIPPED with its DOMAIN entry and error, what depends on it is
switched OFF, and a compute reset follows. -/
def fnTrip (s : State) (n : Nat) : State :=
  if domOf s (96 + n) == .tripped then s
  else
    let s := surveyAppend s 7 2 false (natBytes 2 (96 + n))
    let s := raiseErr s 0x0010 7 (96 + n) none s.echoM []
    beginComputeReset (reevaluate (fieldOut s n .tripped))

/-- R572: Carafe attaches each field's controller, lock unit and field block to its field router, at row 3 where the router at row 4
is recorded dead. -/
def placeFieldPorts (s : State) : State :=
  (List.range 12).foldl (fun s n =>
    if (s.field n).msh.atRow3 = routerDead s n 58 then s
    else modMsh s n (fun m => { m with atRow3 := routerDead s n 58 })) s

/-- R572: whether both candidate routers of field `n` are recorded dead, which costs it its network. -/
def noFieldRouter (s : State) (n : Nat) : Bool := routerDead s n 58 && routerDead s n 45

/-- R266, R38, R572: router `r` of field `n` fails in service, with its tile's core where `core` says so: a TILE entry, the router
recorded dead and what is in it lost, its tile skipped as a core, with a re-map where a core used it, and a compute reset, at whose
end overlays route round it. A field without a field router loses its network. -/
def routerFails (s : State) (n r : Nat) (core : Bool) : State :=
    let g := 8 * n + r / 13
    let col := r % 13
    let (tx, ty) := routerTile n r
    let k := s.grp g
    if 96 ≤ g || k.rdead.testBit col then s
    else
      let s := surveyAppend s 1 2 false (natBytes 1 tx ++ natBytes 1 ty ++ natBytes 1 (if core then 3 else 2))
      let s := modGrp s g (fun k =>
        { k with
          rdead := k.rdead ||| 2 ^ col
          tdead := if core then k.tdead ||| 2 ^ col else k.tdead })
      let s := setBuf s n r []
      let s := if noFieldRouter s n then fnTrip s n else s
      let s :=
        if k.lost || k.skip == col then s
        else if k.remap.isSome || k.skip != 12 || (k.tdead ||| k.rdead).testBit 12 then loseGroup s g 0 false
        else modGrp s g (fun k => { k with remap := some ⟨col, false⟩ })
      beginComputeReset s

/-- R266: a router fails in service. -/
def execRouterFail (n r : Nat) (s : State) : Res := .next (routerFails s n r false)

/-- R272: Carafe writes partition `p`'s weight into every field's MSH_WEIGHTp. -/
def execWeightPropagate (p : Nat) (s : State) : Res :=
  .next (
    if p < 16 then
      (List.range 12).foldl (fun s n =>
        modMsh s n (fun m => { m with weights := mset m.weights p (cfgNum s 0x40 0x0020 p 16) })) s
    else s)

end Sys2Proof.Machine
end

