-- ==== Sys2Proof/Machine/WakeOps.lean ====
section
/-!
DEFINITION. Starts and stops of the device: the Survey as a start applies it, power domains, the loss of inputs, the stages
of cold and warm starts and their failures, management restarts, trials of firmware banks, and LOW (R392, R400 to R410,
R435 to R446, R452, R464, R526 to R531).
-/

namespace Sys2Proof.Machine

/-! ### The Survey applied (R36 to R39, R41, R401) -/

/-- Whether a live DOMAIN entry keeps domain `d` off (R401). -/
def domDefect (s : State) (d : Nat) : Bool := (liveSurvey s).any (fun e => e.type_ == 7 && leAt e.loc 0 2 == d)

/-- The field, group and column of a tile. -/
def tileGroup (tx ty : Nat) : Nat × Nat := (8 * (3 * (ty / 8) + tx / 13) + ty % 8, tx % 13)

/-- R36, R38: the dead cores and routers of every group, and its SKIP, as the live TILE entries give them. What SKIP reads for a
RETIRED group no rule states: it is the column of the first of its entries in SEQ order. DESIGN CHOICE, log entry 83. -/
def applyTiles (s : State) : State :=
  let s := (List.range 96).foldl (fun s g =>
    modGrp s g (fun k =>
      { k with
        tdead := 0
        rdead := 0
        skip := 12
        lost := false
        remap := none
        check := false })) s
  (liveSurvey s).foldl (fun s e =>
    if e.type_ = 1 then
      let (g, col) := tileGroup (byteNat e.loc 0) (byteNat e.loc 1)
      let w := byteNat e.loc 2
      modGrp s g (fun k =>
        { k with
          tdead := if w.testBit 0 then k.tdead ||| 2 ^ col else k.tdead
          rdead := if w.testBit 1 then k.rdead ||| 2 ^ col else k.rdead
          skip := if k.skip = 12 then col else k.skip })
    else s) s

/-- FLD_PWR.LIVE as the live PHASE entries give it (R406, R407). -/
def applyPhases (s : State) : State :=
  let s := (List.range 12).foldl (fun s n => modField s n (fun k => { k with live := 0xFFF })) s
  (liveSurvey s).foldl (fun s e =>
    if e.type_ = 6 then
      modField s (byteNat e.loc 0) (fun k =>
        { k with live := if k.live.testBit (byteNat e.loc 1) then k.live - 2 ^ byteNat e.loc 1 else k.live })
    else s) s

/-- R29: a steering code as a crossing takes it: an invalid one, 32 to 62, steers nothing. -/
def steerCode (c : Nat) : Nat := if c < 32 then c else 0x3F

/-- Steering and dead crossings as the Survey records them (R30, R32). Wires that wait for a crossing to be quiesced go on
waiting. -/
def applySeams (s : State) : State :=
  (liveSurvey s).foldl (fun s e =>
    let b (i : Nat) : Nat := byteNat e.loc i
    if e.type_ = 4 then
      modSeam s (b 0) (b 1) (fun k => { k with steer := mset k.steer (wireKey (b 2) (b 3) (b 4)) ⟨steerCode (b 5), steerCode (b 6)⟩ })
    else if e.type_ = 5 then
      modSeam s (b 0) (b 1) (fun k => if b 2 = 0 then { k with deadA := true } else { k with deadB := true })
    else s) { s with seams := s.seams.map (fun x => (x.1, { Crossing.reset with due := x.2.due, quiet := x.2.quiet })) }

/-- Pages retired as the Survey records them (R338, R339). -/
def applyPages (s : State) : State :=
  let s := (List.range 16).foldl (fun s st =>
    modStack s st (fun k =>
      { k with
        retired := []
        cands := [] })) s
  (liveSurvey s).foldl (fun s e =>
    if e.type_ = 10 then
      let st := byteNat e.loc 0
      retirePage s st ((leAt e.loc 4 8 - hbmBase - stackSize * st) / 4096)
    else s) s

/-- R45: the test of a PROVISIONAL entry from before this start ran again and found nothing. A defect that has been confirmed
stands. -/
def startClears (s : State) (seq : Nat) : State :=
  let seq0 := match s.wake.start with
    | some r => r.seq0
    | none => 0
  match (liveSurvey s).find? (fun e => e.seq == seq && e.prov && decide (e.seq < seq0)) with
  | some e => if (liveEntries s e.type_ e.loc).all (·.prov) then surveyPut s e.type_ 1 true false e.loc else s
  | none => s

/-- R46: what an ADMIN has revoked takes effect. -/
def takeRevokes (s : State) : State :=
  let s := s.survey.revoked.foldl (fun s q =>
    match (liveSurvey s).find? (fun e => e.seq == q && e.source != 0) with
    | some e => surveyPut s e.type_ 4 true false e.loc
    | none => s) s
  { s with survey := { s.survey with revoked := [] } }

/-! ### Power domains (R401 to R404) -/

/-- A CG domain is ON again: its group comes out of reset as a released group, unless it is lost to the Survey. -/
def cgOn (s : State) (g : Nat) : State :=
  let s := modGrp (setDom s g .on) g (fun k => { k with off := false })
  releaseGroup s g

/-- R402: the cores of a group are reset before its CG domain leaves ON. -/
def cgLeave (s : State) (g : Nat) : State :=
  (groupCores g).foldl (fun s c => resetCore s c false) (modGrp s g (fun k => { k with rst := true }))

/-- R401, R402: a CG domain is OFF: its contents are lost and its group is absent. -/
def cgOff (s : State) (g : Nat) : State :=
  let s := (groupCores g).foldl clearSp (setDom s g .off)
  reevaluate (modGrp s g (fun k => { k with off := true }))

/-- Domain `d`, not a CG domain, is switched off or trips. -/
def domLeave (s : State) (d : Nat) (x : DomSt) : State :=
  if d < 96 then cgOff s d
  else if d < 108 then reevaluate (fieldOut s (d - 96) x)
  else if d < 134 then dieLeave s d x
  else if d = 135 then
    (List.range 6).foldl (fun s c =>
      modPwr s (fun w =>
        { w with
          aux := mset w.aux c { mget (Aux.reset c) w.aux c with
            st := 0
            tach := 0 } })) (setDom s d x)
  else s

/-! ### Aux channels (R428 to R432) -/

def State.auxCh (s : State) (c : Nat) : Aux := mget (Aux.reset c) s.pwr.aux c
def modAux (s : State) (c : Nat) (f : Aux → Aux) : State := modPwr s (fun w => { w with aux := mset w.aux c (f (s.auxCh c)) })

/-- Whether the aux rail serves every enabled channel: VIN is present and a start has brought AX up (R394, Table 14.3). Else only
the channels of R432 are on. DEDUCED, log entry 62. -/
def auxFull (s : State) : Bool :=
  s.pwr.vin && (match s.dev with
    | .off => false
    | .standby => false
    | .waking => decide (2 < s.stage)
    | .ready => true
    | .degraded => true
    | .low => true
    | .held => true
    | .faulted => true)

/-- R431, R432: the output voltage of channel `c`: LAMP channels 12.0 V; a FAN channel on VSTBY 6.0 V; else that of its mode. -/
def fanVolt (s : State) (c : Nat) : Nat :=
  if 4 ≤ c then 0x78
  else if !auxFull s then 60
  else if cfgNum s 0x12 0x0005 c 0 = 1 then cfgNum s 0x12 0x0006 c 120
  else
    let t := s.pwr.temps.foldl max 0
    if t ≤ 60 then 60 else if 90 ≤ t then 120 else 60 + 2 * (t - 60)

/-- R474, Table 19.3: whether ALERT_N is low: while a record with ALERT is newer than the last acknowledged. In OFF it is released. -/
def alertLow (s : State) : Bool :=
  s.dev != .off && (s.logFlash ++ s.logBuf).any (fun r => r.alert && !r.torn && decide (s.mgmt.alertAcked < r.seq))

/-- Tables 19.3 and 11.9: whether PWR_GOOD is high: from cold-start stage 2 while the edge converters, which VIN feeds, are on; low in
OFF, STANDBY and HELD. In the model a stage's work takes effect at its end. DEDUCED, log entry 61. -/
def pwrGood (s : State) : Bool :=
  s.pwr.vin && (match s.dev with
    | .off => false
    | .standby => false
    | .waking => decide (2 < s.stage)
    | .ready => true
    | .degraded => true
    | .low => true
    | .held => false
    | .faulted => true)

/-- R557, Table 19.2: PRESENT_N is shorted to GND: low in every state. -/
def presentLow : Bool := true

/-- Whether the mode of LAMP channel `c` keeps its output on at the moment (Table 13.17); a blinking lamp counts as on. -/
def lampOn (s : State) (c : Nat) : Bool :=
  match cfgNum s 0x12 0x0009 c (c - 3) with
  | 0 => false
  | 1 => true
  | 2 => alertLow s || s.dev == .faulted || s.dev == .held
  | _ => true

/-- Whether channel `c` may run: enabled, not latched, and, while VIN is absent, named in aux.standby_mask. -/
def auxWanted (s : State) (c : Nat) : Bool :=
  let a := s.auxCh c
  a.en && !a.latch && (auxFull s || (cfgNum s 0x12 0x0008 0 0x30).testBit c) &&
    (decide (c < 4) || lampOn s c) && domOf s 135 == .on

/-- R428, R429: channel `c` starts: a FAN ramps, a LAMP is on. DEDUCED, log entry 62. -/
def auxStart (s : State) (c : Nat) : State :=
  modAux s c (fun a =>
    { a with
      st := if c < 4 then 1 else 2
      vset := fanVolt s c
      ofVstby := !auxFull s })

def auxStop (s : State) (c : Nat) : State :=
  modAux s c (fun a =>
    { a with
      st := if a.st = 3 then 3 else 0
      tach := 0 })

/-- Each channel starts or stops as its enables now say; one that has tripped waits for its retry. -/
def auxUpdate (s : State) : State :=
  (List.range 6).foldl (fun s c =>
    let a := s.auxCh c
    if !auxWanted s c then auxStop s c
    else if a.st = 0 then auxStart s c
    else if a.st = 3 then s
    else
      modAux s c (fun a =>
        { a with
          vset := fanVolt s c
          ofVstby := !auxFull s })) s

/-- R394, R432: AX is on while the aux rail has a feed, unless it has tripped. DEDUCED, log entry 62. -/
def axFeed (s : State) : State :=
  let fed := s.pwr.vin || s.pwr.vstby
  let s := if domOf s 135 == .tripped then s else setDom s 135 (if fed then .on else .off)
  auxUpdate s

/-! ### The loss of inputs (R392, R436, R394) -/

/-- R415: the default of power.module_limit, set at a cold start as the limit in effect. -/
def moduleLimit (s : State) : Nat := cfgNum s 0x10 0x0001 0 Config.inputCeiling

/-- What the compute die, the links, memory and hosts hold is gone: every core, packet, message, lock, channel, allocation in
effect, table and counter of theirs takes its reset value. -/
def loseDie (s : State) : State :=
  { s with
    mem := []
    marks := []
    rowErrs := []
    cores := []
    fields := []
    groups := []
    parts := s.parts.map (fun x => (x.1, { Part.reset with
      hOperator := x.2.hOperator
      hSystem := x.2.hSystem
      hDevice := x.2.hDevice }))
    sends := []
    mchans := []
    chanOwner := []
    lockOwner := []
    locks := []
    lockReplies := []
    reports := []
    hbms := []
    hbmOwner := []
    cntUnmapped := 0
    partUnmapped := []
    cntDenied := 0
    cntSize := 0
    cntMcDepth := 0
    links := { Links.reset with keys := s.links.keys, keyUse := s.links.keyUse }
    hosts := s.hosts.map (fun x => (x.1, { HostDie.reset with perst := x.2.perst }))
    launches := []
    seams := []
    badEntries := []
    shared := [] }

/-- R437, R405: what a stop of every VIN-fed stage ends of clocks, the governor, resets and checks. -/
def loseRun (s : State) : State :=
  let s := modClk s (fun k => { Clk.reset with changes := k.changes, cancels := k.cancels, misses := k.misses })
  let s := modPwr s (fun w =>
    { w with
      blades := []
      bladeOver := false
      power := []
      partPower := []
      brake := false
      decafBrake := false
      lent := none
      applied := false
      unmet := false
      joints := []
      offDue := []
      raises := []
      lowered := []
      trans := []
      capHit := [] })
  modWake s (fun w =>
    { w with
      start := none
      compute := false
      drained := false
      low := false
      vinStayed := false
      recoverDue := false
      check := if w.check.st = 1 then { w.check with
        st := 3
        groups := []
        units := [] } else w.check })

/-- The sessions of mailboxes end with their host dies (R487). -/
def closeMailboxes (s : State) : State :=
  closeSessions s (fun e =>
    match e.tr with
    | .mbx _ _ => true
    | _ => false) .flr

/-- R392, R436: every stage fed from VIN stops: domains but MG, and aux channels as R432 allows, are off; HBM and the rest of
the die are lost. A TRIPPED domain stays so (R401). -/
def stopDeck (s : State) : State :=
  let s := closeMailboxes (abortCheck s)
  let s := loseRun (loseDie s)
  let s := modPwr s (fun w =>
    { w with
      doms := w.doms.map (fun x =>
        (x.1, if x.1 = 134 then DomSt.on else if x.2 = .tripped then DomSt.tripped else DomSt.off)) })
  leaveWaking (axFeed s) false

/-- R523: power is lost in the moment in which the state record is written: whether that copy is torn is open, and a torn one leaves
the previous record in force. DESIGN CHOICE, log entry 88. -/
def tearRecord (s : State) : State :=
  if s.fw.recAt = some s.now then
    let (b, s) := drawBool s
    if b then { s with fw := { s.fw.restore s.fw.older with recSeq := s.fw.recSeq - 1, recAt := none } } else s
  else s

/-- R476: with both inputs lost the records that M has buffered are lost; whether the oldest of them, which may be on its way to the
ring, leaves a torn record there is open. DESIGN CHOICE, log entry 88. -/
def tearLog (s : State) : State :=
  match s.logBuf with
  | [] => s
  | r :: _ =>
    let (b, s) := drawBool s
    if b then
      let all := s.logFlash ++ [{ r with torn := true }]
      { s with logFlash := all.drop (all.length - 262144) }
    else s

/-- R394, R436: with both inputs absent only flash keeps its contents: the Survey, committed configuration, the event log,
enrolment, firmware and state.failed_starts; Echo time restarts (R381). DEDUCED, log entry 61. -/
def goOff (s : State) : State :=
  let s := tearLog (tearRecord (tearLast (setDev s .off 0)))
  { State.reset with
    pending := s.pending
    now := s.now
    fresh := s.fresh
    out := s.out
    dev := .off
    lastSeq := s.lastSeq
    logFlash := s.logFlash
    totals := s.totals
    survey := { s.survey with
      ram := []
      full := false
      compacting := false
      refuses := false }
    hosts := s.hosts.map (fun x => (x.1, { HostDie.reset with perst := x.2.perst }))
    cfg := s.mgmt.committed
    pwr := { Pwr.reset with
      vstby := false
      doms := (s.pwr.doms.filter (fun x => x.2 == .tripped)) }
    wake := { Wake.reset with
      failedStarts := s.wake.failedStarts
      haltN := s.wake.haltN }
    mgmt := { Mgmt.reset with
      slots := s.mgmt.slots
      claimed := s.mgmt.claimed
      factoryDue := s.mgmt.factoryDue
      committed := s.mgmt.committed
      training := s.mgmt.training
      torn := (s.logFlash.filter (fun r => r.torn)).length }
    fw := { s.fw with
      upd := if s.fw.phase = 1 then 3 else if s.fw.phase = 2 then 4 else if s.fw.upd = 5 then 5 else 0
      act := if s.fw.upd = 5 then s.fw.act else none
      adminOk := false
      healthy := false } }

/-- R392, R436: VIN is lost. -/
def vinLost (s : State) : State :=
  let s := stopDeck (modPwr s (fun w => { w with vin := false }))
  let s := axFeed s
  if !s.pwr.vstby then goOff s
  else if s.dev = .held then s
  else setDev s .standby 0

/-! ### Firmware images (Table 17.3) -/

/-- The header of the image that bank `b` holds. -/
def bankHeader (s : State) (b : Nat) : Bytes :=
  match mfind s.fw.images b with
  | some d => padTo 512 d
  | none => (List.range 512).map (Config.shipped b)

def headerVersion (s : State) (b : Nat) : Nat := leAt (bankHeader s b) 8 4
def headerSvnL (s : State) (b : Nat) : Nat := leAt (bankHeader s b) 12 1
def headerSvnC (s : State) (b : Nat) : Nat := leAt (bankHeader s b) 13 1

/-- VERSION of the running Lantern runtime (Table 17.7). -/
def lanternVersion (s : State) : Nat := s.fw.verL.getD (headerVersion s s.fw.runL)

/-- R523: anti-rollback counter `i`: 0 and 1 in use, the others 0. -/
def svnCount (s : State) (i : Nat) : Nat := if i < 2 then mget (min 64 (Config.fusedSvn i)) s.fw.svn i else 0

/-! ### Trials of firmware banks (R526 to R531) -/

/-- Event 0x6001, and firmware.last_result (R525): stage, bank, check failed. -/
def fwEvent (s : State) (stage bank chk : Nat) : State :=
  raiseEvent (modFw s (fun f => { f with last := some (stage, bank, chk, s.echoM) })) 0x6001 0 0 none [stage, bank]

/-- R529: the record of an unconfirmed trial: a second trial is due, or the bank is REJECTED. -/
def trialRecord (s : State) : State :=
  match s.fw.pending with
  | none => s
  | some b =>
    let s := fwEvent s 5 b 0
    if s.fw.trials ≤ 1 then
      modFw s (fun f =>
        { f with
          trials := 2
          adminOk := false
          healthy := false
          tries := 0 })
    else
      let s := modFw s (fun f =>
        { f with
          banks := mset f.banks b 5
          pending := none
          trials := 0
          phase := 0
          upd := 0
          tries := 0 })
      fwEvent s 7 b 0

/-- Whether a trial runs. -/
def trialOn (s : State) : Bool := s.fw.phase == 1 && s.fw.pending.isSome

/-- R531: the banks in the order of choice. DEDUCED, log entry 69. -/
def bankOrder (s : State) : List Nat :=
  let f := s.fw
  let st (b : Nat) : Nat := mget 0 f.banks b
  (match f.pending with
    | some b => if f.phase = 1 ∧ f.trials ≤ 2 then [b] else []
    | none => []) ++ [f.active] ++
    (if st (1 - f.active) = 2 ∨ st (1 - f.active) = 4 then [1 - f.active] else [])

/-- R526: a trial of bank `b` by a restart of kind `kind` is written to the state record before anything restarts. -/
def trialBegin (s : State) (b kind : Nat) : State :=
  fwEvent (modFw s (fun f =>
    { f with
      pending := some b
      phase := 1
      trials := 1
      upd := 3
      act := none
      trialKind := kind
      adminOk := false
      healthy := false
      degr := degradedBy s
      banks := mset f.banks b 3 })) 4 b 0

/-- Table 17.5: a bank that waits for a cold start is activated by it. -/
def pendCold (s : State) : State :=
  match s.fw.act with
  | some (b, _) => if s.fw.upd = 5 then trialBegin s b 2 else s
  | none => s

/-- R531: Carafe of bank `b` has started: a bank reached as the other bank runs as a trial. `kind` is that of the start. -/
def bankRuns (s : State) (b kind : Nat) : State :=
  let s := modFw s (fun f =>
    { f with
      runC := b
      tries := 0
      recovery := false
      runL := if kind = 2 then b else f.runL
      verL := if kind = 2 then none else f.verL })
  if b = s.fw.active ∨ s.fw.pending = some b then s
  else
    trialBegin s b kind

/-! ### Confirmation (R528) -/

/-- R528, step 1: phase CONFIRMING is written to the state record. -/
def confirmBegin (s : State) : State :=
  modFw s (fun f =>
    { f with
      phase := 2
      upd := 4 })

/-- R528, steps 2 to 4: the counters rise, key 0 is revoked where R519 asks for it, and the record names the bank CONFIRMED and
active. -/
def confirmRest (s : State) : State :=
  match s.fw.pending with
  | none => s
  | some b =>
    if s.fw.phase ≠ 2 then s
    else
      let c := max (svnCount s 1) (headerSvnC s b)
      let l := max (svnCount s 0) (headerSvnL s b)
      let h := bankHeader s b
      let s := modFw s (fun f =>
        { f with
          svn := mset (mset f.svn 1 c) 0 l
          revoked0 := f.revoked0 || (byteNat h 6 == 1 && (byteNat h 7).testBit 1) })
      let o := 1 - b
      let stale := decide (headerSvnL s o < svnCount s 0) || decide (headerSvnC s o < svnCount s 1)
      fwEvent (modFw s (fun f =>
        { f with
          banks := mset (mset f.banks b 4) o (if stale then 6 else 2)
          active := b
          pending := none
          trials := 0
          phase := 0
          upd := 0
          adminOk := false
          healthy := false })) 6 b 0

/-- R528: the bank of the trial is confirmed; steps that a loss of power cuts short are completed at the next start. -/
def confirmTrial (s : State) : State := confirmRest (confirmBegin s)

/-! ### Management restarts (R452) -/

/-- R452, R421: Carafe restarts: sessions close, downloads are cut short (R524), and the safe governor lowers fields above
nominal. -/
def mgmtRestart (s : State) : State :=
  let s := closeSessions s (fun _ => true) .start
  let s := modMgmt s (fun m => { m with hands := [] })
  let s := modFw s (fun f => if f.upd = 1 then { f with upd := 0 } else f)
  let s := modWake s (fun w => { w with mgmt := true })
  let high := (List.range 12).filter (fun n => fieldOn s n && decide (Config.nominalStep < (s.field n).step))
  let s := high.foldl (fun s n => modField s n (fun k => { k with target := Config.nominalStep })) s
  requestChange s (s.echoM.toNat + 60000) (high.map (fun n => (n, Config.nominalStep)))

/-! ### Starts (R438 to R446) -/

/-- R443, R439: a cold start begins at stage 1: what a start resets of management, resets and counts since the last cold
start; the OPERATOR and DEVICE causes clear (R458). -/
def coldRun (s : State) : State :=
  let s := pendCold s
  let s := closeSessions s (fun _ => true) .start
  let s := abortCheck s
  let kept := s.pwr.doms
  let s := loseRun (countersDefault (loseDie s))
  let s := modPwr s (fun w =>
    { w with
      doms := kept.map (fun x => (x.1, if x.1 = 134 then DomSt.on else if x.2 = .tripped then DomSt.tripped else DomSt.off))
      throttleTotal := 0
      limit := moduleLimit s
      aux := w.aux.map (fun x => (x.1, { x.2 with latch := false, retry := 0, trip := false, st := if x.2.st = 3 then 0 else x.2.st })) })
  let s := (List.range 16).foldl (fun s p =>
    modPart { s with cfg := mdel s.cfg (objKey 0x40 0x0006 p) } p (fun k =>
      { k with
        hOperator := false
        hDevice := false })) s
  let s := modClk s (fun k =>
    { k with
      changes := 0
      cancels := 0
      misses := 0 })
  let s := modMgmt { s with totalsCold := [] } (fun m => { m with hands := [] })
  let s := confirmRest (modFw s (fun f => if f.upd = 1 then { f with upd := 0 } else f))
  let s := modWake s (fun w =>
    { w with
      start := some ⟨false, s.echoM, s.survey.nextSeq⟩
      mgmt := false
      thermal := false })
  setDev s .waking 1

/-- R438, R530: a cold start begins, which ends a trial unconfirmed. It needs VIN; `released` that state.release has allowed
it from HELD. -/
def coldStart (s : State) (released : Bool) : State :=
  if !s.pwr.vin ∨ s.dev = .off ∨ (s.dev = .held ∧ !released) then s
  else coldRun (if trialOn s then trialRecord s else s)

/-- R446: whether a warm start would become a cold one. -/
def warmTurnsCold (s : State) : Bool := !s.wake.vinStayed || s.dev == .standby || s.dev == .off || s.dev == .held

/-- R406, R401: domains of confirmed joints are switched OFF, at a compute reset or a start. -/
def switchDue (s : State) : State :=
  s.pwr.offDue.foldl (fun s d =>
    if d < 96 then confirmedOff s d else raiseErr (domLeave s d .off) 0x0010 7 d none s.echoM [])
    (modPwr s (fun w => { w with offDue := [] }))

/-- R445: a warm start begins at stage 4: launches end RESET, routers, field controllers and lock units are reset, every lock is FREE
and every channel empty, and the state before LOW is left. -/
def warmRun (s : State) : State :=
  let s := abortCheck (endLaunches s (fun _ => true))
  let s := resetAllCores s true
  let s := (List.range 96).foldl (fun s g => modGrp s g (fun k => { k with remap := none })) s
  let s := { s with locks := [], mchans := [], lockReplies := [], sends := s.sends.filter (fun x => !isOrphan x.path) }
  let s := (List.range 12).foldl (fun s n =>
    modField s n (fun k =>
      { k with
        miss := false
        paceRow := 7
        paceAt := none
        paceInterval := 16
        msh := { MeshF.reset with gen := k.msh.gen, ovl := k.msh.ovl, atRow3 := k.msh.atRow3 } })) s
  let s := switchDue s
  let s := (List.range 16).foldl (fun s i =>
    modStack s i (fun k => { k with sref := k.st == .ready })) s
  let s := retireCands s (fun _ => true)
  let s := setDeviceCause s false
  let s := modWake s (fun w =>
    { w with
      start := some ⟨true, s.echoM, s.survey.nextSeq⟩
      compute := false
      drained := false
      low := false
      recoverDue := false })
  setDev s .waking 4

/-- R445, R446, R438: a warm start is asked for. One during a start is refused, as is the cold start that it would become in
HELD. -/
def warmStart (s : State) : State :=
  if s.wake.start.isSome then s
  else if warmTurnsCold s then coldStart s false
  else warmRun s

/-- Whether a cold start can begin: VIN is there and the device is not HELD. -/
def canCold (s : State) : Bool := s.pwr.vin && s.dev != .held && s.dev != .off

/-- A restart of a trial of kind 0 management restart, 1 warm start, 2 cold start (R526, R529). -/
def restartKind (s : State) (kind : Nat) : State :=
  match kind with
  | 0 => mgmtRestart s
  | 1 => if !warmTurnsCold s then warmRun (mgmtRestart s) else if canCold s then coldRun s else mgmtRestart s
  | _ => if canCold s then coldRun s else mgmtRestart s

/-- R529: a trial ends unconfirmed: a second trial, or the previously active bank, starts by the same kind of restart. -/
def trialUnconfirmed (s : State) : State :=
  if trialOn s then restartKind (trialRecord s) s.fw.trialKind else s

/-- state.last_start (Table 14.11). -/
def recordStart (s : State) (failed : Bool) (stage : Nat) : State :=
  match s.wake.start with
  | none => s
  | some r =>
    modWake s (fun w =>
      { w with
        start := none
        last := some
          { warm := r.warm
            failed := failed
            stage := stage
            ms := (s.echoM.toNat - r.t0.toNat) / 1000000
            t0 := r.t0 } })

/-- R444: the device enters HELD: every domain but MG and AX is off. -/
def enterHeld (s : State) : State :=
  let vin := s.pwr.vin
  let s := stopDeck s
  let s := axFeed (modPwr s (fun w => { w with vin := vin }))
  setDev s .held 0

/-- R442, R444, R446, R529: the start in progress fails at stage `stage`. A warm start becomes a cold one; a cold one counts,
and the third enters HELD; a trial that the start began is unconfirmed. -/
def startFail (s : State) (stage : Nat) : State :=
  match s.wake.start with
  | none => s
  | some r =>
    let trial : Bool := trialOn s && s.fw.trialKind == 2
    let s := recordStart s true stage
    let s := if trialOn s ∧ (r.warm ∨ s.fw.trialKind = 2) then trialRecord s else s
    if r.warm then coldRun s
    else
      let s := modWake s (fun w => { w with failedStarts := w.failedStarts + 1 })
      if 3 ≤ s.wake.failedStarts then enterHeld (leaveWaking s false)
      else if trial then coldRun s
      else
        let s := leaveWaking (setDeviceCause (setDev s .faulted 0) true) false
        modWake s (fun w => { w with recoverDue := false })

/-- Table 14.3, stage 2: the intermediate bus and the aux rail; HD0 and HD1, unless host.enable holds one off. -/
def stageDeck (s : State) : State :=
  [0, 1].foldl (fun s h =>
    if cfgNum s 0x70 0x0002 h 1 = 1 ∧ !domDefect s (132 + h) ∧ domOf s (132 + h) ≠ .tripped then setDom s (132 + h) .on else s) s

/-- The default of every object: security.factory_reset takes effect (Table 16.10). -/
def factoryReset (s : State) : State :=
  if s.mgmt.factoryDue then
    modMgmt { s with cfg := [] } (fun m =>
      { m with
        slots := []
        claimed := false
        factoryDue := false
        committed := []
        netEff := []
        netDue := [] })
  else s

/-- Table 14.3, stage 3: the Survey, revoked entries gone, and the configuration are read. -/
def stageCarafe (s : State) : State :=
  let s := takeRevokes (readSurvey (factoryReset s))
  let s := modPwr s (fun w =>
    { w with
      limit := moduleLimit s
      doms := w.doms.map (fun x =>
        (x.1, if x.2 = .tripped && !domDefect s x.1 then DomSt.off else x.2)) })
  applyPages (applySeams (applyPhases (placeFieldPorts (applyTiles s))))

/-- The route tables that link.route_next holds, reserved bits 0 (Table 9.12); by default the device's own ID is KIND 2 (R306). -/
def routeNext (s : State) : Map W32 :=
  match mfind s.cfg (objKey 0x50 0x0004 0) with
  | some (.blob b) =>
    ((List.range 16384).map (fun i => (i, BitVec.ofNat 32 (leAt b (4 * i) 4 / 2 ^ 24 * 2 ^ 24)))).filter (fun x => x.2 != 0)
  | _ => [(cfgNum s 0x50 0x0001 0 0, BitVec.ofNat 32 (2 ^ 31 + 2 * 2 ^ 29))]

/-- LNK_Pi_CTRL as link.port_mode and link.port_bundle set it (Table 9.16). -/
def portConfig (s : State) (p : Nat) : State :=
  let m := cfgNum s 0x50 0x0100 p 0
  let b := cfgNum s 0x50 0x0101 p 0xFF
  modPort s p (fun k =>
    { k with
      en := m != 2
      eth := m == 1
      bundle := b % 16
      bv := decide (b < 16) })

/-- R410: field `n`, whose FN domain fails to come up, has its FN domain TRIPPED and its groups lost. -/
def fnFails (s : State) (n : Nat) : State :=
  let s := setDom s (96 + n) .tripped
  let s := startFinds s 7 (natBytes 2 (96 + n))
  let s := raiseErr s 0x0010 7 (96 + n) none s.echoM []
  (List.range 8).foldl (fun s row =>
    modGrp s (8 * n + row) (fun k =>
      { k with
        off := true
        lost := true })) s

/-- Table 14.3, stage 4, R440, R383: fields, route tables and the device ID, link and memory domains of the dies that
have their edge routers (R410), and training of ports. -/
def stageFields (s : State) (bad : List Nat) : State :=
  let s := (List.range 12).foldl (fun s n =>
    if bad.contains n || domDefect s (96 + n) || domOf s (96 + n) == .tripped || noFieldRouter s n then fnFails s n
    else
      modField (setDom s (96 + n) .on) n (fun k =>
        { k with
          echo := s.echoM
          beacons := 3
          ehold := false })) s
  let s := { s with devId := cfgNum s 0x50 0x0001 0 0 }
  let rt := routeNext s
  let s := modLinks s (fun l =>
    { l with
      epoch := 0
      prev := false
      rt0 := rt
      rt1 := []
      rtx := []
      epx := []
      advancing := false })
  let s := [24, 25].foldl (fun s die => if edgeLost s die then dieLeave s (dieDomain die) .off else s) s
  let s := (List.range 24).foldl (fun s die =>
    let d := dieDomain die
    if domDefect s d || domOf s d == .tripped || edgeLost s die then s else setDom s d .on) s
  (List.range 40).foldl (fun s p => startTraining (portConfig s p) p) s

/-- Whether CG domain `g` may be on: its field's network and stage serve it, and no entry keeps it off. -/
def cgMay (s : State) (g : Nat) : Bool :=
  fieldOn s (g / 8) && !domDefect s g && domOf s g != .tripped && decide (7 ≤ livePhases s (g / 8))

/-- R155: the repairs of every core's banks, where the Survey has any. -/
def applyAllBanks (s : State) : State :=
  if (liveSurvey s).any (fun e => e.type_ == 2 || e.type_ == 3) then (List.range 1152).foldl applyBanks s else s

/-- Table 14.3, stage 6: CG domains ON, each field at the nominal STEP within its cap, defects of the stage's tests applied,
scratchpads cleared and their banks repaired. -/
def stageGroups (s : State) : State :=
  let s := (List.range 12).foldl (fun s n =>
    if fieldOn s n then
      let step := min Config.nominalStep (phaseCap (livePhases s n))
      modField s n (fun k =>
        { k with
          step := step
          target := Config.nominalStep
          vcore := vcoreFor n step
          lk0 := true
          lk1 := false
          pll1 := false })
    else s) s
  (List.range 96).foldl (fun s g =>
    if cgMay s g then modGrp (setDom s g .on) g (fun k => { k with off := false })
    else modGrp s g (fun k => { k with off := true })) (applyAllBanks s)

/-- Whether CG domain `g` is in RETENTION or on its way there. -/
def retained (s : State) (g : Nat) : Bool :=
  domOf s g == .retention || (match mfind s.pwr.trans g with
    | some .retention => true
    | _ => false)

/-- R445, Table 14.3: stage 6 of a warm start brings the CG domains that LOW had put in RETENTION back ON. DEDUCED, log entry 61. -/
def warmGroups (s : State) : State :=
  (List.range 96).foldl (fun s g =>
    if retained s g && cgMay s g then
      modGrp (setDom (modPwr s (fun w => { w with trans := mdel w.trans g })) g .on) g (fun k => { k with off := false })
    else s) s

/-- R343: the interface of stack `st` is trained at a cold start, and its values, which no rule gives, are stored in flash; a warm start
restores the stored ones, or trains in full a channel that fails its check, which is open. DEDUCED, log entry 85. -/
def trainStack (s : State) (st : Nat) (warm : Bool) : State :=
  let (fails, s) := drawBool s
  let (v, s) := drawNat s
  if warm then
    modStack s st (fun k => { k with train := if fails then v else mget 0 s.mgmt.training st })
  else modMgmt (modStack s st (fun k => { k with train := v })) (fun m => { m with training := mset m.training st v })

/-- Table 14.3, stage 7, R343, R345, R348: the stacks that are powered are trained, and memory.rate_limit and memory.scrub_hours
written. A cold start zeroes them; a warm start takes them out of self-refresh. -/
def stageMemory (s : State) (warm : Bool) : State :=
  (List.range 16).foldl (fun s st =>
    if domDefect s (116 + st) then
      modStack (setDom s (116 + st) .off) st (fun k => { k with st := .retired })
    else if domOf s (116 + st) == .on then
      modStack (trainStack s st warm) st (fun k =>
        scrubSet { k with st := .ready, sref := false, throttled := false, rate := cfgNum s 0x60 0x0002 0 rateDefault }
          (cfgNum s 0x60 0x0003 0 24))
    else s) s

/-- R256, R329, R366, R367, R449: allocations as the configuration gives them take effect at once; a unit that leaves its owner
is zeroed. -/
def applyAllocs (s : State) : State :=
  let s := (List.range 768).foldl (fun s u =>
    if (unitOwner s u).isSome ∧ unitOwner s u ≠ wantedBy (wantsUnit s) u then zeroUnit s u else s) s
  let s := (List.range 96).foldl (fun s g => modGrp s g (fun k => { k with part := wantedBy (wantsGroup s) g })) s
  { s with
    hbmOwner := (List.range 768).map (fun u => (u, wantedBy (wantsUnit s) u))
    chanOwner := (List.range 64).map (fun b => (b, wantedBy (wantsChans s) b))
    lockOwner := (List.range 192).map (fun b => (b, wantedBy (wantsLocks s) b))
    parts := (List.range 16).foldl (fun m p => mset m p { mget Part.reset m p with
      resetting := false
      spread := cfgNum s 0x40 0x0041 p 0 == 1
      units := allocBits s 0x0040 768 p
      chansDue := []
      locksDue := [] }) s.parts }

/-- The SYSTEM cause of partition `p`, as HALT_N and partition.follow_halt_n say (R455). -/
def followHalt (s : State) (p : Nat) : State :=
  modPart s p (fun k => { k with hSystem := s.wake.haltN && cfgNum s 0x40 0x0008 p 1 == 1 })

/-- Every group that is present, and neither under re-map or check nor in a partition under reset, leaves its reset (R453). -/
def releaseAll (s : State) : State :=
  (List.range 96).foldl (fun s g =>
    let k := s.grp g
    let held : Bool := match k.part with
      | some p => (s.part p).resetting
      | none => false
    if k.remap.isSome || k.check || domOf s g != .on || k.lost || held then s else releaseGroup s g) s

/-- Table 14.3, stage 9, R442, R444: partitions, allocations, weights and halts from configuration, every lock FREE and channel
empty; the start succeeds where the conditions of DEGRADED are met. -/
def stageSettle (s : State) (warm : Bool) : State :=
  let s := { s with locks := [], mchans := [] }
  let s := applyAllocs s
  let s := (List.range 16).foldl (fun s p =>
    (List.range 12).foldl (fun s n =>
      modMsh s n (fun m => { m with weights := mset m.weights p (cfgNum s 0x40 0x0020 p 16) })) (followHalt s p)) s
  let s := releaseAll s
  if serviceable s then
    let s := recordStart s false 0
    let s := modWake s (fun w =>
      { w with
        failedStarts := if warm then w.failedStarts else 0
        vinStayed := true
        recoverDue := false })
    let s := setDeviceCause s false
    let s := setDev s (if degradedBy s = 0 then .ready else .degraded) 0
    leaveWaking ((List.range 16).foldl (fun s p => endAsync s (16 + p) 0) s) true
  else startFail s 9

/-- R155, Table 2.2: a start has found a bank of a tile failing: spare banks are taken, and a tile with more than 2 failed banks is
recorded with a dead core. -/
def bankFinds (s : State) (d : Defect) : State :=
  if d.type_ = 2 ∨ d.type_ = 3 then
    let (tx, ty) := (byteNat d.loc 0, byteNat d.loc 1)
    let (s, dead) := bankSpares s tx ty (fun s loc => startFinds s 2 loc)
    if dead then startFinds s 1 (natBytes 1 tx ++ natBytes 1 ty ++ natBytes 1 1 ++ natBytes 1 0) else s
  else s

/-- R439, R441: what the tests of a stage found is recorded, and applied to tiles, crossings and pages. -/
def stageFinds (s : State) (o : StageOutcome) : State :=
  if o.defects = [] ∧ o.cleared = [] then s
  else
    let s := o.cleared.foldl startClears (o.defects.foldl (fun s d => startFinds s d.type_.toNat d.loc) s)
    let s := o.defects.foldl bankFinds s
    applyPages (applySeams (placeFieldPorts (applyTiles s)))

/-- The state with the next stage of a start in progress. -/
def toStage (s : State) (n : Nat) : State := { s with stage := n }

/-- R527, R529, R531: a stage of a cold start has come up from bank `b` while another bank is on trial: that trial is unconfirmed, and
its second begins with a cold start at once; after a second one the start goes on. DEDUCED, log entry 69. -/
def otherBank (s : State) (b : Nat) (go : State → State) : State :=
  if trialOn s ∧ s.fw.pending ≠ some b then
    let s := trialRecord s
    if trialOn s then coldRun s else go s
  else go s

/-- R439, R442, R531: stage `n` of a cold start ends with what it has brought, and the next begins. In the model a stage's work
takes effect at its end. DEDUCED, log entry 61. -/
def coldStageEnd (s : State) (n : Nat) (o : StageOutcome) : State :=
  match n with
  | 1 =>
    match o.bank with
    | some b => otherBank s b (fun s => if (bankOrder s).contains b then toStage (modFw s (fun f => { f with runL := b, verL := none })) 2 else startFail s 1)
    | none => startFail (modFw s (fun f => { f with recovery := true })) 1
  | 2 => axFeed (toStage (stageDeck s) 3)
  | 3 =>
    match o.bank with
    | some b => otherBank s b (fun s => if (bankOrder s).contains b then toStage (stageCarafe (bankRuns s b 2)) 4 else startFail s 3)
    | none => startFail (modFw s (fun f => { f with recovery := true })) 3
  | 4 => toStage (stageFields s o.fnFailed) 5
  | 5 => toStage (installOverlays (stageFinds s o)) 6
  | 6 => toStage (stageGroups (stageFinds s o)) 7
  | 7 => toStage (stageMemory (stageFinds s o) false) 8
  | 8 =>
    let waits (p : Nat) : Bool :=
      let k := s.port p
      k.en && dieOn s (p / 5) && !(k.st == .admitted || k.st == .excluded || k.st == .down)
    if (List.range 40).any waits then s else toStage (stageFinds s o) 9
  | 9 => stageSettle s false
  | _ => s

/-- R445: stage `n` of a warm start ends: 4, 5, 6, 7 and 9. DEDUCED, log entry 61. -/
def warmStageEnd (s : State) (n : Nat) : State :=
  match n with
  | 4 => toStage (applyPhases (placeFieldPorts (applyTiles (readSurvey s)))) 5
  | 5 => toStage (installOverlays (applySeams s)) 6
  | 6 => toStage (warmGroups s) 7
  | 7 => toStage (stageMemory s true) 9
  | 9 => stageSettle s true
  | _ => s

end Sys2Proof.Machine
end

