-- ==== Sys2Proof/Machine/PwrOps.lean ====
section
/-!
DEFINITION. The operations of the power deck that several commands share: its register words, phases and stages that stop,
the brakes, the governor's decision, power lending and aux trips (R405 to R432).
-/

namespace Sys2Proof.Machine

/-! ### Registers (Tables 13.11 to 13.15) -/

/-- The limit in effect, in W (R415). -/
def limitNow (s : State) : Nat := s.pwr.lent.getD s.pwr.limit

/-- The average of the newest `n` samples of a list, in whole W with the fraction dropped, 0 of none. DEDUCED, log entry 63. -/
def avgOf (n : Nat) (xs : List Nat) : Nat := if xs = [] then 0 else (xs.take n).sum / (xs.take n).length

/-- R414: compute power, in W, as the average over the last 10 ms, and over the last 1 ms (R420). -/
def avg10 (s : State) : Nat := avgOf 100 s.pwr.power
def avg1 (s : State) : Nat := avgOf 10 s.pwr.power

/-- Whether the device is in Decaf mode (R425). -/
def decaf (s : State) : Bool := cfgNum s 0x10 0x0007 0 0 == 1

/-- The warning threshold (Table 13.7), and whether a sensor, one of the other dies among them, reads at or above it (R426, R418). -/
def warnAt (s : State) : Nat := cfgNum s 0x11 0x0003 0 95
def warned (s : State) : Bool := (s.pwr.temps ++ s.pwr.otherTemps).any (fun t => decide (warnAt s ≤ t))

/-- R418: whether boost is enabled and permitted, the power apart. -/
def boostOn (s : State) : Bool :=
  cfgNum s 0x10 0x0006 0 (bif Config.profileIsL then 1 else 0) == 1 && !decaf s && decide (100 ≤ s.pwr.warnAge)

/-- R415, R417: whether the 10 ms average is at least 3 % below the limit in effect. -/
def under3 (s : State) : Bool := decide (100 * avg10 s ≤ 97 * limitNow s) && !s.pwr.bladeOver

def bit (b : Bool) (i : Nat) : Nat := if b then 2 ^ i else 0

/-- PWR_STATUS (Table 13.11). -/
def pwrStatus (s : State) : Nat :=
  let w := s.pwr
  bit (w.brake || w.decafBrake) 31 + bit (decaf s) 30 + bit (boostOn s && under3 s) 29 + bit w.applied 28 + bit w.unmet 27 +
    bit w.lent.isSome 26 + bit (warned s) 25 + bit ((List.range 12).any (fun n => decide ((s.field n).tcap < 80))) 24 +
    bit w.vstby 23 + bit w.vin 22 + (bif Config.profileIsL then 0 else 1)

/-- PWR_VIN, PWR_INPUT and PWR_LIMIT (Table 13.12). -/
def pwrVin (s : State) : Nat :=
  let cur := match s.pwr.blades with
    | x :: _ => x.1 + x.2
    | [] => 0
  min (s.pwr.volt / 10) 0xFFFF * 2 ^ 16 + min cur 0xFFFF
def pwrInput (s : State) : Nat := min (avg10 s) 0xFFFF * 2 ^ 16 + min s.pwr.auxPower 0xFFFF
def pwrLimit (s : State) : Nat := Config.inputCeiling * 2 ^ 16 + limitNow s

/-- The compute-die sensor with the highest reading, and that reading. -/
def hottest (s : State) : Nat × Nat :=
  ((List.range s.pwr.temps.length).zip s.pwr.temps).foldl (fun (b : Nat × Nat) x => if b.2 < x.2 then x else b) (0, 0)

/-- PWR_TMAX (Table 13.13). -/
def pwrTmax (s : State) : Nat := (hottest s).1 * 2 ^ 16 + min (hottest s).2 255

/-- Table 13.14. -/
def domCode : DomSt → Nat
  | .off => 0
  | .on => 1
  | .retention => 2
  | .tripped => 3

/-- PWR_DOMSTATEw. -/
def domWord (s : State) (w : Nat) : Nat :=
  ((List.range 16).map (fun j => if 16 * w + j < 136 then domCode (domOf s (16 * w + j)) * 4 ^ j else 0)).sum

/-- PWR_AUXc (Table 13.15). -/
def auxWord (a : Aux) : Nat :=
  bit a.en 31 + bit a.trip 30 + bit a.latch 29 + a.st * 2 ^ 27 + a.retry * 2 ^ 24 + a.vset * 2 ^ 16 + min a.tach 0xFFFF

/-- Event 0x2005 (Table 16.8). -/
def throttleEvent (s : State) : State := raiseEvent s 0x2005 0 0 none [pwrStatus s, pwrInput s]

/-! ### Phases, stages and joints (R405 to R410) -/

/-- R410, R407: the vertical stage of field `n` stops, and its 8 groups are lost; their domains become `x`.
DEDUCED, log entry 64. -/
def stageStops (s : State) (n : Nat) (x : DomSt) : State :=
  let s := modField s n (fun k => { k with vcore := 0 })
  (List.range 8).foldl (fun s row =>
    let g := 8 * n + row
    if domOf s g == .tripped || domOf s g == .off then s
    else
      let s := setDom s g x
      let s :=
        if x = .tripped then
          raiseErr (surveyAppend s 7 2 false (natBytes 2 g)) 0x0010 7 g (s.grp g).part s.echoM []
        else s
      loseGroup s g 3 true) s

/-- R20, Table 2.1: the power-controller die, P0 to P3, that drives the stages of field `n`. -/
def powerDie (n : Nat) : Nat := [0, 0, 1, 0, 1, 1, 2, 2, 3, 2, 3, 3].getD n 4

/-- Table 14.6: the fields whose vertical stage stops: field `n`, or all three of its power-controller die. -/
def stageFieldsOf (n : Nat) (die : Bool) : List Nat := (List.range 12).filter (fun m => m == n || die && powerDie m == powerDie n)

/-- R406 to R408: phase `i` of field `n` stops, with its PHASE entry (R40); below 7 live phases VCORE is off.
DEDUCED, log entry 64. -/
def phaseStops (s : State) (n i : Nat) : State :=
  if 12 ≤ n ∨ 12 ≤ i ∨ !(s.field n).live.testBit i then s
  else
    let s := modField s n (fun k => { k with live := k.live - 2 ^ i })
    let s := surveyAppend s 6 2 false (natBytes 1 n ++ natBytes 1 i)
    reevaluate (if livePhases s n ≤ 6 then stageStops s n .off else s)

/-- The number of a joint's unit among the counts of deviating averages. -/
def jointKey (u : JointUnit) : Nat :=
  match u with
  | .phase n i => 12 * n + i
  | .domain d => 1000 + d

/-- A joint's unit as error records name it. -/
def jointUnitOf (u : JointUnit) : Nat × Nat :=
  match u with
  | .phase n _ => (3, n)
  | .domain d => (7, d)

def jointOk (u : JointUnit) : Bool :=
  match u with
  | .phase n i => decide (n < 12) && decide (i < 12)
  | .domain d => decide (d < 134)

/-- R406: a suspect is confirmed. DEDUCED, log entry 64. -/
def jointConfirm (s : State) (u : JointUnit) : State :=
  let s := modPwr s (fun w =>
    { w with suspects := w.suspects.map (fun x => if x.unit = u then { x with confirmed := true } else x) })
  match u with
  | .phase n i => raiseErr (phaseStops s n i) 0x000F 3 n none s.echoM [i]
  | .domain d =>
    let s := surveyAppend s 7 2 false (natBytes 2 d)
    if d < 96 ∧ (s.grp d).part = none then confirmedOff s d
    else modPwr s (fun w => { w with offDue := if w.offDue.contains d then w.offDue else w.offDue ++ [d] })

/-! ### STEPs of fields (R416) -/

/-- R416: the STEP at which field `n` is to run. -/
def stepWanted (s : State) (n : Nat) : Nat :=
  let k := s.field n
  let parts := k.partTgt.foldl (fun m x => min m x.2) k.target
  let base := min (min parts (phaseCap (livePhases s n))) k.tcap
  if decaf s then min base (cfgNum s 0x10 0x0008 0 Config.nominalStep) else base

/-- The STEP that field `n` runs at once every change that is armed or held has been made. -/
def stepPlanned (s : State) (n : Nat) : Nat :=
  let armed := match s.clk.armed with
    | some c => (mfind c.targets n).getD (s.field n).step
    | none => (s.field n).step
  s.clk.held.foldl (fun x c => (mfind c.targets n).getD x) armed

/-- The fields whose network is on. -/
def onFields (s : State) : List Nat := (List.range 12).filter (fieldOn s)

/-- R414: the governor schedules the changes that its targets ask for, at 60 µs from its decision. -/
def schedule (s : State) : State :=
  requestChange s (s.echoM.toNat + 60000)
    (((onFields s).filter (fun n => stepWanted s n != stepPlanned s n)).map (fun n => (n, stepWanted s n)))

/-- Targets of fields are set to what `f` makes of the STEP each runs at now by the governor's rules. -/
def retarget (s : State) (p : Nat → Bool) (f : Nat → Nat) : State :=
  (onFields s).foldl (fun s n =>
    if p (stepWanted s n) then modField s n (fun k => { k with target := f (stepWanted s n) }) else s) s

/-! ### Brakes (R420, R421, R425) -/

/-- R420: Lantern brakes: every field to STEP 0 at 50 µs from now, ahead of the armed change, and every stack to 256. Changes that are
held would end the brake, so they are dropped. DEDUCED, log entry 63. -/
def brakeOn (s : State) : State :=
  let s := cancelChange (modClk s (fun k => { k with held := [] })) 0
  let s := (onFields s).foldl (fun s n => modField s n (fun k => { k with target := 0 })) s
  let s := armChange s ⟨s.echoM.toNat + 50000, (onFields s).map (fun n => (n, 0)), false⟩
  let s := (List.range 16).foldl (fun s i => modStack s i (fun k => { k with rate := min k.rate 256 })) s
  throttleEvent (countThrottle (modPwr s (fun w => { w with brake := true })))

/-- R425: the Decaf brake: every field is lowered by 16 STEPs. -/
def decafBrakeOn (s : State) : State :=
  let s := schedule (retarget s (fun _ => true) (fun x => x - 16))
  throttleEvent (countThrottle (modPwr s (fun w => { w with decafBrake := true })))

/-- R420, R421, R425: the brakes that the 1 ms average calls for. -/
def checkBrakes (s : State) : State :=
  let top := if s.wake.mgmt then limitNow s else Config.inputCeiling
  if !s.pwr.brake ∧ 105 * top < 100 * avg1 s then brakeOn s
  else if decaf s ∧ !s.pwr.brake ∧ !s.pwr.decafBrake ∧ limitNow s < avg1 s then decafBrakeOn s
  else s

/-! ### The governor (R414 to R419) -/

/-- Table 13.7: the thermal caps of fields after a decision. A field with a sensor at the throttle threshold falls by 4 STEPs,
one whose sensors all read at least 2 °C below it rises by 4. -/
def fieldTemps (s : State) (n : Nat) : List Nat :=
  ((List.range 1344).zip s.pwr.temps).filterMap (fun x =>
    let mine := if x.1 < 1248 then 3 * (x.1 % 32 / 8) + x.1 / 32 / 13 == n else (x.1 - 1248) / 8 == n
    if mine then some x.2 else none)

def throttleAt (s : State) : Nat := cfgNum s 0x11 0x0004 0 100

def thermalCaps (s : State) : State :=
  let hit := s.pwr.capHit
  let s := (List.range 12).foldl (fun s n =>
    if hit.contains n then
      throttleEvent (countThrottle (modField s n (fun k => { k with tcap := k.tcap - 4 })))
    else if (fieldTemps s n).all (fun t => decide (t + 2 ≤ throttleAt s)) then
      modField s n (fun k => { k with tcap := min 80 (k.tcap + 4) })
    else s) s
  modPwr s (fun w => { w with capHit := [] })

/-- memory.rate_limit (R345). -/
def rateLimit (s : State) : Nat := cfgNum s 0x60 0x0002 0 rateDefault

/-- R417: every field that runs above STEP `x` is lowered by 2; one below nominal counts a throttle event. -/
def lowerSteps (s : State) (x : Nat) : State :=
  let below := (onFields s).any (fun n => decide (x < stepWanted s n) && decide (stepWanted s n < Config.nominalStep + 2))
  let s := retarget s (fun y => decide (x < y)) (fun y => y - 2)
  if below then throttleEvent (countThrottle s) else s

/-- R417: the next measure against a limit that is exceeded. -/
def lowerOne (s : State) : State :=
  let high := (onFields s).any (fun n => decide (Config.nominalStep < stepWanted s n))
  let some_ := (onFields s).any (fun n => decide (0 < stepWanted s n))
  let hbm := (List.range 16).any (fun i => (s.stack i).st == .ready && decide (256 < (s.stack i).rate))
  if high || some_ then lowerSteps s (if high then Config.nominalStep else 0)
  else if hbm then
    throttleEvent (countThrottle ((List.range 16).foldl (fun s i =>
      modStack s i (fun k => { k with rate := max 256 (k.rate - 128) })) s))
  else
    let s := if s.pwr.unmet then s else raiseEvent s 0x2006 0 0 none [pwrInput s, pwrLimit s]
    modPwr s (fun w => { w with unmet := true })

/-- R417, R418: no STEP rises above nominal but by boost: a target above nominal that a cap or a sub-limit holds down is lowered to what
the field runs at, or nominal. -/
def trimTargets (s : State) : State :=
  (onFields s).foldl (fun s n =>
    let x := max Config.nominalStep (stepWanted s n)
    modField s n (fun k => { k with target := if Config.nominalStep < k.target then min k.target x else k.target })) s

/-- R417, R418: one measure is undone, or boost raises the fields that run at or above nominal. -/
def raiseOne (s : State) : State :=
  let cut (k : Stack) : Bool := k.st == .ready && !k.throttled && decide (k.rate < rateLimit s)
  if (List.range 16).any (fun i => cut (s.stack i)) then
    (List.range 16).foldl (fun s i =>
      modStack s i (fun k => if cut k then { k with rate := min (rateLimit s) (k.rate + 128) } else k)) s
  else if (onFields s).any (fun n => decide ((s.field n).target < Config.nominalStep)) then
    (onFields s).foldl (fun s n =>
      modField s n (fun k =>
        { k with
          target := if k.target < Config.nominalStep then min Config.nominalStep (k.target + 2) else k.target })) s
  else if boostOn s then
    ((onFields s).filter (fun n => decide (Config.nominalStep ≤ stepWanted s n))).foldl (fun s n =>
      modField s n (fun k => { k with target := min 80 (k.target + 1) })) s
  else s

/-- R419: the sub-limit of partition `p`: its fields are lowered, or raised again by 2 STEPs at a decision, also where the sub-limit has
been taken away. -/
def subLimit (s : State) (p : Nat) : State :=
  let lim := cfgNum s 0x10 0x0010 p 0
  let avg := avgOf 100 (mget [] s.pwr.partPower p)
  let mine := (onFields s).filter (fun n => (List.range 8).any (fun r => (s.grp (8 * n + r)).part == some p))
  if 0 < lim ∧ lim < avg then
    throttleEvent (mine.foldl (fun s n =>
      modField s n (fun k => { k with partTgt := mset k.partTgt p (stepWanted s n - 2) })) s)
  else if lim = 0 ∨ 100 * avg ≤ 97 * lim then
    (List.range 12).foldl (fun s n =>
      modField s n (fun k =>
        match mfind k.partTgt p with
        | none => k
        | some t =>
          if Config.nominalStep ≤ t + 2 then { k with partTgt := mdel k.partTgt p }
          else { k with partTgt := mset k.partTgt p (t + 2) })) s
  else s

/-- R417, PWR_STATUS.LIMIT: whether a measure is applied. DEDUCED, log entry 63. -/
def measures (s : State) : Bool :=
  (onFields s).any (fun n => decide ((s.field n).target < Config.nominalStep) || (s.field n).partTgt != []) ||
    (List.range 16).any (fun i => (s.stack i).st == .ready && !(s.stack i).throttled && decide ((s.stack i).rate < rateLimit s))

/-- R416 to R419, R22: one decision of the governor. Boost stops where it is not permitted or the average has reached the limit. During a management restart the safe governor holds (R421); under a brake and in
Decaf mode no measure of R417 is applied. DEDUCED, log entry 63. -/
def governor (s : State) : State :=
  if s.wake.mgmt then s
  else
    let s := trimTargets (thermalCaps s)
    if s.pwr.brake || s.pwr.decafBrake || decaf s then schedule s
    else
      let exceeds := decide (limitNow s < avg10 s) || s.pwr.bladeOver
      let boosted := (onFields s).any (fun n => decide (Config.nominalStep < (s.field n).target))
      let s :=
        if exceeds then lowerOne s
        else
          let s := modPwr s (fun w => { w with unmet := false })
          if boosted && (!boostOn s || decide (limitNow s ≤ avg10 s)) then lowerSteps s Config.nominalStep
          else if under3 s then raiseOne s
          else s
      let s := (List.range 16).foldl subLimit s
      schedule (modPwr s (fun w => { w with applied := measures s }))

/-! ### Lending (R422 to R424) -/

/-- power.lend_group: the group, the manager and the partition measured, where one is set. -/
def lendGroup (s : State) : Option (Nat × Nat × Nat) :=
  let b := cfgBlob s 0x10 0x0030 0
  if b.length < 5 then none else some (leAt b 0 2, leAt b 2 2, byteNat b 4)

/-- Whether the device takes part in lending (R421, R425). DEDUCED, log entry 65. -/
def lends (s : State) : Bool := (lendGroup s).isSome && !decaf s && !s.wake.mgmt

/-- R423: targets clamped to F..C, the surplus or shortfall spread over the members not clamped in proportion to their B,
until none is clamped anew. `fixed` holds the members clamped so far. -/
def lendClamp (fuel : Nat) (pool : Rat) (ms : List (LendMember × Rat)) (fixed : List (LendMember × Rat)) :
    List (LendMember × Rat) :=
  match fuel with
  | 0 => fixed ++ ms
  | fuel + 1 =>
    let out := ms.filter (fun x => x.2 < x.1.floor || (x.1.ceil : Rat) < x.2)
    if out = [] then fixed ++ ms
    else
      let now := out.map (fun x => (x.1, if x.2 < x.1.floor then (x.1.floor : Rat) else (x.1.ceil : Rat)))
      let rest := ms.filter (fun x => !(x.2 < x.1.floor || (x.1.ceil : Rat) < x.2))
      let fixed := fixed ++ now
      let b : Rat := (rest.map (fun x => (x.1.base : Rat))).sum
      let short : Rat := pool - (fixed.map (·.2)).sum - (rest.map (·.2)).sum
      let rest := if b = 0 then rest else rest.map (fun x => (x.1, x.2 + short * x.1.base / b))
      lendClamp fuel pool rest fixed

/-- R423, R424: the new limit of each member, by device. One without a report for 30 ms counts as reporting the mean of those that
reported. DEDUCED, log entry 65. -/
def lendNew (ms : List LendMember) : List (Nat × Nat) :=
  if ms = [] then []
  else
    let pool : Rat := (ms.map (fun m => (m.base : Rat))).sum
    let told := ms.filterMap (·.wait)
    let wbar : Rat := told.sum / told.length
    let ts := lendClamp ms.length pool
      (ms.map (fun m => (m, (m.base : Rat) * (1 + 4 * (wbar - m.wait.getD wbar))))) []
    let ds := ts.map (fun x => (x.1, max (-100) (min 100 (x.2 - (x.1.limit : Rat)))))
    let up : Rat := (ds.map (fun x => max 0 x.2)).sum
    let down : Rat := (ds.map (fun x => max 0 (-x.2))).sum
    let slack : Rat := pool - (ms.map (fun m => (m.limit : Rat))).sum
    let k : Rat := if down + slack < up then (down + slack) / up else 1
    ds.map (fun x => (x.1.dev, ((x.1.limit : Rat) + (if 0 < x.2 then x.2 * k else x.2)).floor.toNat))

/-- A limit reaches this device as a member: taken where a limit in effect may have it, from the next decision (R424).
DEDUCED, log entry 65. -/
def takeLimit (s : State) (w : Nat) : State :=
  if 1200 ≤ w ∧ w ≤ Config.inputCeiling then modPwr s (fun p => { p with lent := some w }) else s

/-- The manager sends a limit: to another device a message of kind 6, to its own device at once. -/
def sendLimit (s : State) (dev w : Nat) : State := if dev = s.devId then takeLimit s w else emit s (.lend dev 6 w)

/-! ### Aux trips (R429, R432) -/

/-- R429: channel `c` trips with a cause; after the third retry it is latched. -/
def auxTrips (s : State) (c cause : Nat) : State :=
  let s := modAux s c (fun a =>
    { a with
      st := 3
      trip := true
      cause := cause
      tach := 0
      latch := a.latch || (cause != 4 && decide (3 ≤ a.retry)) })
  raiseEvent s 0x2201 0 c none [auxWord (s.auxCh c), cause]

/-! ### Domains switched (R402 to R404) -/

/-- power.domain_switch: domain `d` is asked into state `v` (0 OFF, 1 ON, 2 RETENTION). The answer is none where R404 refuses it.
A CG domain waits for its wave (R403) or moves at once; a link die trains its ports, a stack its interface. -/
def switchDomain (s : State) (d v : Nat) : Option State :=
  let st := domOf s d
  if st = .tripped ∨ 132 ≤ d ∨ (96 ≤ d ∧ d < 108) ∨ 2 < v ∨ (v = 2 ∧ 96 ≤ d) then none
  else if d < 96 then
    if v = 1 then
      if st = .on then some s
      else some (modField s (d / 8) (fun k =>
        { k with powerUp := ((k.powerUp.filter (fun x => x != d)) ++ [d]).mergeSort (fun a b => decide (a ≤ b)) }))
    else if v = domCode st then some s
    else
      let s := modField s (d / 8) (fun k => { k with powerUp := k.powerUp.filter (fun x => x != d) })
      let s := if st = .on then cgLeave s d else s
      some (modPwr s (fun w => { w with trans := mset w.trans d (if v = 0 then .off else .retention) }))
  else if v = domCode st then some s
  else if v = 0 then some (domLeave s d .off)
  else if d < 116 then
    some ((List.range 5).foldl (fun s i => startTraining s (5 * (d - 108) + i)) (setDom s d .on))
  else
    some (modStack (setDom s d .on) (d - 116) (fun k => { k with st := .training }))

/-- R402: domain `d` has completed its move. A domain that has tripped meanwhile stays so (R401), and a group comes ON only with its
field's network and VCORE (R407, R410). A stack that has been powered again is trained and zeroed. -/
def transitionDone (s : State) (d : Nat) : State :=
  if 116 ≤ d ∧ d < 132 then
    if domOf s d = .on ∧ (s.stack (d - 116)).st = .training then
      reevaluate (modStack (trainStack s (d - 116) false) (d - 116) (fun k =>
        scrubSet { k with st := .ready, throttled := false, rate := rateLimit s } (cfgNum s 0x60 0x0003 0 24)))
    else s
  else
    match mfind s.pwr.trans d with
    | none => s
    | some x =>
      let s := modPwr s (fun w => { w with trans := mdel w.trans d })
      if domOf s d = .tripped then s
      else
        match x with
        | .on => if fieldOn s (d / 8) && decide (7 ≤ livePhases s (d / 8)) then reevaluate (cgOn s d) else s
        | .off => cgOff s d
        | .retention => setDom s d .retention
        | .tripped => s

end Sys2Proof.Machine
end

