-- ==== Sys2Proof/Machine/Power.lean ====
section
/-!
DEFINITION. The power deck: inputs, joints, trips, domains, the governor, lending, temperatures and aux channels
(R392 to R432, R436).
-/

namespace Sys2Proof.Machine

/-! ### Inputs (R392 to R394, R436) -/

/-- R392: VIN reads `mv` mV, between 39.0 V and 40.0 V. -/
def execVinLowWarning (mv : Nat) (s : State) : Res :=
  .next (
    if s.pwr.vin ∧ 39000 ≤ mv ∧ mv < 40000 then
      let s := modPwr s (fun w => { w with volt := mv })
      raiseEvent s 0x2001 0 0 none [pwrVin s]
    else s)

/-- R392, R436, R443: VIN has been out of range for the time that R392 gives. -/
def execVinFault (mv : Nat) (s : State) : Res :=
  .next (
    if s.pwr.vin ∧ (mv < 39000 ∨ 61000 < mv) then
      let cold : Bool := match s.wake.start with
        | some r => !r.warm
        | none => false
      let s := modPwr s (fun w => { w with volt := mv })
      let s := vinLost (raiseEvent s 0x2002 0 0 none [pwrVin s])
      if cold && s.dev != .off then modWake s (fun w => { w with lostStart := some s.now }) else s
    else s)

/-- R436, R444: an input arrives at a device that is OFF. -/
def leaveOff (s : State) : State :=
  if s.dev = .off then setDev (setDom s 134 .on) (if 3 ≤ s.wake.failedStarts then .held else .standby) 0 else s

/-- R436, R443: VIN comes into range. Where a VIN fault ended a cold start within the last second, that start has failed.
DESIGN CHOICE, log entry 12. -/
def execVinArrive (mv : Nat) (s : State) : Res :=
  .next (
    if s.pwr.vin ∨ mv < 39000 ∨ 61000 < mv then s
    else
      let s := leaveOff (modPwr s (fun w =>
        { w with
          vin := true
          volt := mv
          aux := w.aux.map (fun x => (x.1, if x.2.st = 3 && x.2.cause = 4 then { x.2 with st := 0 } else x.2)) }))
      let failed : Bool := match s.wake.lostStart with
        | some t => decide (s.now ≤ t + 1000000000)
        | none => false
      let s := modWake s (fun w =>
        { w with
          lostStart := none
          failedStarts := if failed then w.failedStarts + 1 else w.failedStarts })
      axFeed (if failed ∧ 3 ≤ s.wake.failedStarts then setDev s .held 0 else s))

/-- R436: VIN has been in range for 1 s in STANDBY. -/
def execAutostart (s : State) : Res :=
  .next (
    if s.dev = .standby ∧ s.pwr.vin ∧ cfgNum s 0x02 0x0008 0 1 = 1 ∧ !s.wake.thermal then coldStart s false else s)

/-- R394, R436: VSTBY is lost. -/
def execVstbyLoss (s : State) : Res :=
  .next (
    if s.pwr.vstby then
      let s := modPwr (raiseEvent s 0x2004 0 0 none []) (fun w => { w with vstby := false })
      if s.pwr.vin then s else goOff s
    else s)

/-- R436: VSTBY arrives. -/
def execVstbyArrive (s : State) : Res :=
  .next (axFeed (leaveOff (modPwr s (fun w => { w with vstby := true }))))

/-- R393: the blade currents `a` and `b`, in 10 mA. A 10 ms average above 80 A brings the imbalance event, and the module counts
as over its limit until both blades read 76 A or less. -/
def execBladeCurrentSample (a b : Nat) (s : State) : Res :=
  .next (
    if !s.pwr.vin then s
    else
      let s := modPwr s (fun w => { w with blades := ((a, b) :: w.blades).take 100 })
      let high := decide (8000 < avgOf 100 (s.pwr.blades.map (·.1))) || decide (8000 < avgOf 100 (s.pwr.blades.map (·.2)))
      if !s.pwr.bladeOver && high then
        modPwr (raiseEvent s 0x2003 0 0 none [a, b]) (fun w => { w with bladeOver := true })
      else if a ≤ 7600 ∧ b ≤ 7600 then modPwr s (fun w => { w with bladeOver := false })
      else s)

/-! ### Joints and trips (R405 to R410) -/

/-- R405: an average over 1 s of a joint's unit deviates from its model or not; the 60th in a row that does declares a
suspect. -/
def execJointSample (u : JointUnit) (deviates : Bool) (s : State) : Res :=
  .next (
    if !jointOk u then s
    else
      let n := if deviates then min 60 (mget 0 s.pwr.joints (jointKey u) + 1) else 0
      let s := modPwr s (fun w => { w with joints := mset w.joints (jointKey u) n })
      if n = 60 ∧ !s.pwr.suspects.any (fun x => x.unit = u) then
        let s := modPwr s (fun w => { w with suspects := w.suspects ++ [⟨u, false, s.echoM⟩] })
        let (kind, i) := jointUnitOf u
        raiseErr s 0x000E kind i (if kind = 7 ∧ i < 96 then (s.grp i).part else none) s.echoM []
      else s)

/-- R406: the test of a suspect finds the deviation again, which confirms it, or does not. -/
def execJointTest (u : JointUnit) (found : Bool) (s : State) : Res :=
  .next (
    if found ∧ s.pwr.suspects.any (fun x => x.unit = u ∧ !x.confirmed) then jointConfirm s u else s)

/-- R406: a suspect that has not been confirmed for 7 days is cleared. -/
def execJointSuspectExpire (u : JointUnit) (s : State) : Res :=
  .next (modPwr s (fun w => { w with suspects := w.suspects.filter (fun x => !(x.unit = u && !x.confirmed)) }))

/-- R408 to R410: domain `d` exceeds its trip current, becomes TRIPPED with its Survey entry and error, and what it feeds is
lost. -/
def execDomainTrip (d : Nat) (s : State) : Res :=
  .next (
    if 136 ≤ d ∨ d = 134 ∨ (domOf s d ≠ .on ∧ domOf s d ≠ .retention) then s
    else if 96 ≤ d ∧ d < 108 then fnTrip s (d - 96)
    else
      let part := if d < 96 then (s.grp d).part else none
      let s := surveyAppend s 7 2 false (natBytes 2 d)
      let s := raiseErr s 0x0010 7 d part s.echoM []
      if d < 96 then loseGroup (setDom s d .tripped) d 1 true else reevaluate (domLeave s d .tripped))

/-- R408, R407: phase `i` of field `n` exceeds 90 A and stops. -/
def execPhaseTrip (n i : Nat) (s : State) : Res := .next (phaseStops s n i)

/-- R410, Table 14.6: the vertical stage of a field stops, and its 8 CG domains are TRIPPED; or its power-controller die has failed, and
the stages of the die's three fields stop. DEDUCED, log entry 64. -/
def execStageTrip (x : StageLoss) (s : State) : Res :=
  .next (
    if x.field < 12 then reevaluate ((stageFieldsOf x.field x.whole).foldl (fun s m => stageStops s m .tripped) s) else s)

/-! ### Domains (R402, R403) -/

/-- R403: the two lowest CG domains of field `n` that wait begin to power up. -/
def execCgPowerupWave (n : Nat) (s : State) : Res :=
  .next (
    if n < 12 then
      let two := (s.field n).powerUp.take 2
      let s := modField s n (fun k => { k with powerUp := k.powerUp.drop 2 })
      modPwr s (fun w => { w with trans := two.foldl (fun m g => mset m g .on) w.trans })
    else s)

/-- R464, R342: with the last CG domain ON again, LOW has been left, and the stacks leave self-refresh. -/
def lowLeft (s : State) : State :=
  if s.dev = .low ∧ !s.wake.low ∧ s.pwr.trans = [] ∧ (List.range 12).all (fun n => (s.field n).powerUp = []) then
    let s := (List.range 16).foldl (fun s i => modStack s i (fun k => { k with sref := false })) (setDeviceCause s false)
    setDev s (if degradedBy s = 0 then .ready else .degraded) 0
  else s

/-- R402, R464: domain `d` completes its move. -/
def execDomainTransitionDone (d : Nat) (s : State) : Res := .next (lowLeft (transitionDone s d))

/-! ### The governor (R414 to R425) -/

/-- R414, R419, R420, R425: a sample of compute power, aux power and each partition's power, in W. -/
def execPowerSample (compute aux : Nat) (parts : List Nat) (s : State) : Res :=
  .next (
    checkBrakes (modPwr s (fun w =>
      { w with
        power := (compute :: w.power).take 100
        auxPower := aux
        partPower := (List.range parts.length).foldl (fun m p =>
          mset m p ((parts.getD p 0 :: mget [] m p).take 100)) w.partPower })))

/-- R416 to R419: the governor decides. -/
def execGovernorDecision (s : State) : Res := .next (governor s)

/-- R420: the brake has been held for 100 ms. -/
def execBrakeRelease (s : State) : Res := .next (modPwr s (fun w => { w with brake := false }))

/-- R425: after 100 ms the fields return to the Decaf step where the average is below 95 % of the limit; an average above the
limit lowers them again. -/
def execDecafBrakeRelease (s : State) : Res :=
  .next (
    if !s.pwr.decafBrake then s
    else if 100 * avg1 s < 95 * limitNow s then
      let s := modPwr s (fun w => { w with decafBrake := false })
      schedule ((onFields s).foldl (fun s n => modField s n (fun k => { k with target := Config.nominalStep })) s)
    else if limitNow s < avg1 s then decafBrakeOn s
    else s)

/-! ### Lending (R422 to R425) -/

/-- R422, R425: a member reports its base, ceiling, floor, limit and wait fraction `w` (in 1/65,536) to its manager; in Decaf
mode that it leaves the group. -/
def execLendReport (w : Nat) (s : State) : Res :=
  .next (
    match lendGroup s with
    | none => s
    | some (_, mgr, _) =>
      if s.wake.mgmt then s
      else if decaf s then emit s (.lend mgr 5 0)
      else
        let s := modPwr s (fun p => { p with waitFrac := w })
        [(0, moduleLimit s), (1, Config.inputCeiling), (2, cfgNum s 0x10 0x0031 0 1200), (3, limitNow s), (4, w)].foldl
          (fun s x => emit s (.lend mgr x.1 x.2)) s)

/-- R423, R424: this device's Carafe, as manager, computes the new limits of a round and sends the decreases. A member that was lowered and
has not confirmed counts at its old limit. -/
def execLendRound (ms : List LendMember) (s : State) : Res :=
  .next (
    match lendGroup s with
    | none => s
    | some (_, mgr, _) =>
      if mgr ≠ s.devId ∨ s.wake.mgmt then s
      else
        let ms := ms.map (fun m => { m with limit := mget m.limit s.pwr.lowered m.dev })
        let old (d : Nat) : Nat := ((ms.find? (fun m => m.dev == d)).map (·.limit)).getD 0
        let new := lendNew ms
        let down := new.filter (fun x => decide (x.2 < old x.1))
        let s := modPwr s (fun w =>
          { w with
            raises := new.filter (fun x => decide (old x.1 < x.2))
            lowered := down.map (fun x => (x.1, old x.1)) })
        down.foldl (fun s x => sendLimit s x.1 x.2) s)

/-- R424: a member receives a new limit and confirms it. -/
def execLendLimitMessage (w : Nat) (s : State) : Res :=
  .next (
    match lendGroup s with
    | none => s
    | some (_, mgr, _) => if lends s then emit (takeLimit s w) (.lend mgr 7 w) else s)

/-- R424: the members of `done` have confirmed, or 2 ms have passed for the others: the manager sends the increases. -/
def execLendConfirmTimeout (done : List Nat) (s : State) : Res :=
  .next (
    let up := s.pwr.raises
    let s := modPwr s (fun w =>
      { w with
        raises := []
        lowered := w.lowered.filter (fun d => !done.contains d.1) })
    up.foldl (fun s x => sendLimit s x.1 x.2) s)

/-- R424: no limit message for the time that R424 gives: the member returns to its base. -/
def execLendFallback (s : State) : Res := .next (modPwr s (fun w => { w with lent := none }))

/-! ### Temperatures (R426, R431) -/

/-- R426, R431, Table 13.7: the 1,344 sensors of the compute die and the one of each of the 15 other dies that carry one, L0 to L7, H0, H1,
M and P0 to P3, are read. Reaching the warning threshold is an event. The aux channels follow the hottest sensor, and ALERT_N. -/
def execTempSample (tiles others : List Nat) (s : State) : Res :=
  .next (
    let was := warned s
    let s := modPwr s (fun w =>
      { w with
        temps := tiles.take 1344
        otherTemps := others.take 15 })
    let warm := warned s
    let s := modPwr s (fun w => { w with warnAge := if warm then 0 else min 100 (w.warnAge + 1) })
    let s := modPwr s (fun w =>
      { w with
        capHit := (List.range 12).filter (fun n =>
          w.capHit.contains n || (fieldTemps s n).any (fun t => decide (throttleAt s ≤ t))) })
    auxUpdate (if warm && !was then raiseEvent s 0x2101 0 0 none [pwrTmax s] else s))

/-- R426, R436: the trip temperature has been reached for 100 µs: every stage fed from VIN stops. -/
def execThermalTrip (s : State) : Res :=
  .next (
    if s.dev = .off ∨ s.dev = .standby then s
    else
      let s := raiseEvent s 0x2102 0 0 none [pwrTmax s]
      let held : Bool := s.dev == .held
      let s := modWake (stopDeck s) (fun w => { w with thermal := true })
      axFeed (if held then s else setDev s .standby 0))

/-! ### Aux channels (R428 to R432) -/

/-- R429: 250 ms after its start began, channel `c` has reached `volt` (in 0.1 V): 90 % of its set voltage, or it trips. -/
def execFanStartCheck (c volt : Nat) (s : State) : Res :=
  .next (
    if c < 4 ∧ (s.auxCh c).st = 1 then
      if 9 * (s.auxCh c).vset ≤ 10 * volt then
        modAux s c (fun a =>
          { a with
            st := 2
            retry := 0 })
      else auxTrips s c 3
    else s)

/-- R429: channel `c` exceeds its trip current. -/
def execAuxTrip (c : Nat) (s : State) : Res :=
  .next (if c < 6 ∧ ((s.auxCh c).st = 1 ∨ (s.auxCh c).st = 2) then auxTrips s c 1 else s)

/-- R429: channel `c`, ON, exceeds its overload current for 100 ms. -/
def execAuxOverloadTrip (c : Nat) (s : State) : Res := .next (if c < 6 ∧ (s.auxCh c).st = 2 then auxTrips s c 2 else s)

/-- R429: channel `c` retries with a full start. -/
def execAuxRetry (c : Nat) (s : State) : Res :=
  .next (
    let a := s.auxCh c
    if c < 6 ∧ a.st = 3 ∧ !a.latch ∧ a.cause ≠ 4 ∧ a.retry < 3 ∧ auxWanted s c then
      auxStart (modAux s c (fun a => { a with retry := a.retry + 1 })) c
    else s)

/-- R432: the channels fed from VSTBY exceed 1.0 A in total: each of them opens until VIN returns. -/
def execAuxStandbyTrip (s : State) : Res :=
  .next (
    (List.range 6).foldl (fun s c =>
      let a := s.auxCh c
      if a.ofVstby ∧ (a.st = 1 ∨ a.st = 2) then auxTrips s c 4 else s) s)

/-- R431: the fan of channel `c` has turned at `rpm` for 5 s: below aux.fan_min_rpm it raises the stall event. -/
def execFanStall (c rpm : Nat) (s : State) : Res :=
  .next (
    if c < 4 ∧ (s.auxCh c).st = 2 then
      let s := modAux s c (fun a => { a with tach := min rpm 0xFFFF })
      if rpm < cfgNum s 0x12 0x0007 c 1000 then raiseEvent s 0x2202 0 c none [auxWord (s.auxCh c)] else s
    else s)

end Sys2Proof.Machine
end

