-- ==== Sys2Proof/Machine/Host.lean ====
section
/-!
DEFINITION. The host ports: BAR2, rings and doorbells, the launch engines, and host-side resets (R352 to R370).
-/

namespace Sys2Proof.Machine

/-! ### BAR2 (R352 to R355) -/

/-- Table 11.8: whether a reset keeps function `f` from the device: a compute reset, or one of a VF's partition. -/
def fnInReset (s : State) (f : Nat) : Bool := s.wake.compute || (f != 0 && (s.part (f - 1)).resetting)

/-- Tables 11.8 and 11.9: whether BAR2 of function `f` is as during a compute reset: also at a start and in FAULTED. -/
def barInReset (s : State) (f : Nat) : Bool := fnInReset s f || s.dev == .waking || s.dev == .faulted

/-- R351 to R353: the HBM address of offset `off` of a function's BAR2. -/
def barAddr (s : State) (h f off : Nat) : Option Nat :=
  if noPart s h f || decide (2 ^ ((s.host h).fn f).bar2 ≤ off) then none
  else viewAddr s f (if f = 0 then ((s.host h).fn 0).gib * 2 ^ 30 + off else off)

/-- R353: an access through BAR2 by the units of the view that it touches: for each its offset in the BAR, its HBM address and its
length. -/
def barPieces (s : State) (h f off n : Nat) : List (Nat × Option Nat × Nat) :=
  (List.range ((off + n - 1) / 2 ^ 30 + 1 - off / 2 ^ 30)).map (fun i =>
    let lo := max off ((off / 2 ^ 30 + i) * 2 ^ 30)
    let hi := min (off + n) ((off / 2 ^ 30 + i + 1) * 2 ^ 30)
    (lo, barAddr s h f lo, hi - lo))

/-- R350: an error is reported in a function's AER status: bit 12 a poisoned TLP, 18 a malformed one, 20 an unsupported request.
PRESUMED, log entry 37. -/
def aerReport (s : State) (h f b : Nat) : State := modFn s h f (fun k => { k with aer := k.aer ||| 2 ^ b })

/-- R345, R354: the pieces of an access that no piece refuses are served by their stacks, or wait there for tokens. -/
def barServe (s : State) (h f : Nat) (ps : List (Nat × Option Nat × Nat)) (w : Option Bytes) (off : Nat) (poisoned : Bool) : State :=
  ps.foldl (fun s p =>
    match p.2.1 with
    | none => s
    | some a =>
      let r : HbmReq := {
        req := .host h f, remote := false, addr := a, len := p.2.2,
        write := w.map (fun bs => (bs.drop (p.1 - off)).take p.2.2), poison := poisoned, parity := false }
      if hbmHeld s none a p.2.2 then hbmWait s ⟨r, some p.1⟩ else hbmServe s ⟨r, some p.1⟩) s

/-- R354: a BAR2 access that HBM refuses is counted where its request was refused (R51, R339) and in HIF_DROP. -/
def barRefused (s : State) (h f a n : Nat) : State :=
  aerReport (countDrop (hbmRefused s (.host h f) a n (hbmCheck s none a n)) h f) h f 20

/-- R352 to R354: what refuses an access through BAR2: `none` where nothing does; else the state with the refusal counted. -/
def barCheck (s : State) (h f : Nat) (ps : List (Nat × Option Nat × Nat)) : Option State :=
  if ps.any (fun p => p.2.1.isNone) then some (aerReport s h f 20)
  else
    match ps.find? (fun p => p.2.1.any (fun a => hbmCheck s none a p.2.2 != .ok)) with
    | some p => some (barRefused s h f (p.2.1.getD 0) p.2.2)
    | none => none

/-- R350, R353, R354, R355, R369: a host write through BAR2. One of more than 512 B is malformed. -/
def execBar2Write (h f off : Nat) (bs : Bytes) (poisoned : Bool) (s : State) : Res :=
  .next (
    if 2 ≤ h || 17 ≤ f || !(s.host h).up then s
    else if 512 < bs.length then aerReport s h f 18
    else if barInReset s f then countDrop s h f
    else
      let ps := barPieces s h f off bs.length
      let s := if poisoned then aerReport s h f 12 else s
      match barCheck s h f ps with
      | some t => t
      | none => barServe (if poisoned then countDrop s h f else s) h f ps (some bs) off poisoned)

/-- R350, R353, R354, R369: a host read through BAR2: data, data poisoned as a whole, or Unsupported Request, which an AtomicOp and a
read of more than 4,096 B receive as well. -/
def execBar2Read (h f off : Nat) (rd : HostRead) (s : State) : Res :=
  .next (
    if 2 ≤ h || 17 ≤ f || !(s.host h).up then s
    else if rd.atomic || decide (4096 < rd.len) then emit (aerReport s h f 20) (.hostData h f off false false [])
    else if barInReset s f then barData (countDrop s h f) h f off true (List.replicate rd.len 0xFF) []
    else
      let ps := barPieces s h f off rd.len
      match barCheck s h f ps with
      | some t => emit t (.hostData h f off false false [])
      | none => barServe s h f ps none off false)

/-! ### Rings (R356 to R358) -/

/-- Whether the rings of a function can be reached. -/
def ringReachable (s : State) (h f r : Nat) : Bool := decide (h < 2) && decide (f < 17) && decide (r < 4) && (s.host h).up

/-- R355, R357, R369: a doorbell. An index of the ring's size or more stops the ring. -/
def sqtailWrite (s : State) (h f r : Nat) (v : W32) : State :=
  if !ringReachable s h f r then s
  else if fnInReset s f then countDrop s h f
  else
    let g := ((s.host h).fn f).ring r
    let t := v.toNat % 2 ^ 16
    if g.size ≤ t then stopRing s h f r 1
    else modRing s h f r (fun g => { g with sqtail := t })

/-- R355, R357, R369: a write to HIF_Rr_SQTAIL. -/
def execSqtailWrite (h f r : Nat) (v : W32) (s : State) : Res := .next (sqtailWrite s h f r v)

/-- R358, Table 11.12: a write to HIF_Rr_CTRL. LOG2SZ takes a write only while the ring is disabled and idle; setting EN
sets the indices to 0 and the phase to 1; a ring whose base lies outside the view stops when it is enabled (R356). -/
def ringCtrlWrite (s : State) (h f r : Nat) (v : W32) : State :=
  if !ringReachable s h f r then s
  else
    let g := ((s.host h).fn f).ring r
    let en := v.toNat.testBit 31
    let sz := v.toNat % 32
    let s := modRing s h f r (fun g =>
      { g with
        log2sz := if !g.en && g.out == 0 && decide (4 ≤ sz) && decide (sz ≤ 16) then sz else g.log2sz
        err := g.err && !(v.toNat.testBit 30 && !g.en)
        cause := if v.toNat.testBit 30 && !g.en then 0 else g.cause })
    if en && !g.en then
      let s := modRing s h f r (fun g =>
        { g with
          en := true
          sqtail := 0
          sqhead := 0
          cqhead := 0
          cqtail := 0
          phase := true
          used := 0
          unsig := 0 })
      if ringInView s f (((s.host h).fn f).ring r) then s else stopRing s h f r 2
    else modRing s h f r (fun g => { g with en := en })

/-- R358, Table 11.12: a write to HIF_Rr_CTRL. -/
def execRingCtrlWrite (h f r : Nat) (v : W32) (s : State) : Res := .next (ringCtrlWrite s h f r v)

/-- R358: a write to a ring base takes effect only while EN is 0 and IDLE is 1. -/
def ringBaseWrite (s : State) (h f r : Nat) (x : RingReg) (v : W32) : State :=
  if !ringReachable s h f r then s
  else
    modRing s h f r (fun g =>
      if g.en || g.out != 0 then g
      else
        match x with
        | .sqbase => { g with sqbase := v.toNat % 2 ^ 28 }
        | .cqbaseLo => { g with cqlo := v.toNat / 2 ^ 12 }
        | .cqbaseHi => { g with cqhi := v.toNat })

/-- R358: a write to HIF_Rr_SQBASE, HIF_Rr_CQBASE_LO or HIF_Rr_CQBASE_HI. -/
def execRingBaseWrite (h f r : Nat) (x : RingReg) (v : W32) (s : State) : Res := .next (ringBaseWrite s h f r x v)

/-! ### Launches (R359 to R365) -/

/-- R350, R359: whether the launch engine may fetch from ring `r` of function `f`. -/
def fetchable (s : State) (h f r : Nat) : Bool :=
  let g := ((s.host h).fn f).ring r
  g.en && !g.err && g.sqhead != g.sqtail && decide (g.out + g.used < g.size) && !noPart s h f && !fnInReset s f &&
    !((s.host h).fn f).d3

/-- R359: the ring that the engine serves next, in round robin after the one served last, as 4·function + ring. -/
def nextRing (s : State) (h : Nat) : Option Nat :=
  ((List.range 68).map (fun i => ((s.host h).rr + 1 + i) % 68)).find? (fun x => fetchable s h (x / 4) (x % 4))

/-- R361: the status with which a record ends at once, if it does. DEDUCED, log entry 59. -/
def recordStatus (s : State) (part : Nat) (b : Bytes) : Option Nat :=
  let op := byteNat b 0
  let first := leAt b 2 2
  let n := leAt b 12 2
  let cores := (List.range n).map (fun i => first + i)
  if op = 2 then none
  else if op ≠ 1 ∨ n = 0 ∨ 1152 < first + n ∨ leAt b 8 4 % 4 ≠ 0 then some 2
  else if cores.any (fun c => partOf s c != some part) && partExists s part then some 3
  else if cores.any (fun c => !present s c) then some 4
  else if (s.part part).resetting || !partExists s part then some 5
  else none

/-- R345: the next record of host die `h` lies in stacks that have no tokens for it. -/
def fetchHeld (s : State) (h : Nat) : Bool :=
  match nextRing s h with
  | none => false
  | some x =>
    let g := ((s.host h).fn (x / 4)).ring (x % 4)
    match viewAddr s (x / 4) (g.sqbase * 4096 + g.sqhead * 128) with
    | some a => hbmHeld s none a 128
    | none => false

/-- R345, R359 to R362: the engine of host die `h` fetches the next record, checks it, and launches it or completes it at once. -/
def execLaunchFetch (h : Nat) (s : State) : Res :=
  .next (
    let awake : Bool := s.dev == .ready || s.dev == .degraded || s.dev == .faulted
    if 2 ≤ h || !awake || !(s.host h).up || decide (256 ≤ (s.launches.filter (fun l => l.h == h)).length) || fetchHeld s h then s
    else
      match nextRing s h with
      | none => s
      | some x =>
        let f := x / 4
        let r := x % 4
        let g := ((s.host h).fn f).ring r
        let seq := g.sqhead
        let s := modHost s h (fun d => { d with rr := x })
        let s := modRing s h f r (fun g =>
          { g with
            sqhead := (g.sqhead + 1) % g.size
            out := g.out + 1 })
        let unread (s : State) : State := afterPost (post s h f r seq 0 6 0 0x7FF 0) h f r
        match viewAddr s f (g.sqbase * 4096 + seq * 128) with
        | none => unread s
        | some a =>
          let (s, m) := hbmAccess s (.host h f) none a 128 none
          if m.st != .ok then unread s
          else
            let b := m.data
            let lid := leAt b 4 4
            let part := if f = 0 then byteNat b 14 % 16 else f - 1
            if s.dev == .faulted then afterPost (post s h f r seq lid 7 0 0x7FF 0) h f r
            else
              match recordStatus s part b with
              | some st => afterPost (post s h f r seq lid st 0 0x7FF 0) h f r
              | none =>
                let fence := byteNat b 0 == 2
                let l : Launch := {
                  h := h, f := f, r := r, seq := seq, order := s.nextOrder, fence := fence,
                  wait := (byteNat b 1).testBit 0, lid := lid, part := part, cfirst := leAt b 2 2,
                  ccount := if fence then 0 else leAt b 12 2,
                  msg := (b.drop 8).take 4 ++ (b.drop 4).take 4 ++ (b.drop 16).take 64 ++ b.drop 80,
                  next := 0, sending := false, ended := [], gone := [], fcore := 0x7FF, fcode := 0, posted := false }
                afterPost { s with launches := s.launches ++ [l], nextOrder := s.nextOrder + 1 } h f r)

/-- R363: what core `c` reports of its part of a launch of host die `h`: an END, a fault, or a reset. -/
def execLaunchTargetReport (h c : Nat) (s : State) : Res :=
  .next (
    match s.reports.find? (fun x => x.core == c && x.src / 4 % 2 == h) with
    | none => s
    | some x =>
      let s := { s with reports := s.reports.erase x }
      match s.launches.find? (fun l => l.h == h && l.r + 4 * l.h + 8 * l.f == x.src && l.seq == x.seq && pendingTarget l c) with
      | none => s
      | some l =>
        match x.rep with
        | .ended => launchUpdate s { l with ended := l.ended ++ [c] }
        | .faulted code => launchFault s l c code
        | .reset => launchUpdate s { l with gone := l.gone ++ [c] })

/-- R365: TIME µs after the first unsignalled completion of a ring, its vector is sent. -/
def execMsixCoalesceTimer (h f r : Nat) (s : State) : Res :=
  .next (
    if ringReachable s h f r && decide (0 < (((s.host h).fn f).ring r).unsig) then
      sendVector (modRing s h f r (fun g => { g with unsig := 0 })) h f r
    else s)

/-- R365: the host answers a completion write with an error: the ring stops with CAUSE 3, and the completion is counted. -/
def execCompletionWriteError (h f r : Nat) (s : State) : Res :=
  .next (if ringReachable s h f r then countDrop (stopRing s h f r 3) h f else s)

/-! ### Host-side resets (R369, R370) -/

/-- The launches of function `f` of host die `h` end, and no completion is written (R369). -/
def dropLaunches (s : State) (h : Nat) (f : Nat → Bool) : State :=
  let ls := s.launches.filter (fun l => l.h == h && f l.f)
  ls.foldl (fun s l =>
    let s := { s with
                launches := s.launches.filter (fun x => x.order != l.order)
                reports := s.reports.filter (fun r => !(r.src == l.r + 4 * l.h + 8 * l.f && r.seq == l.seq)) }
    if l.sending then dropSend s (.fn l.h l.f) else s) s

/-- R369, R487: FLR of VFp of host die `h`: its page and mailbox are reset, its launches end without a completion, and its
partition is reset. DEDUCED, log entry 60. -/
def execVfFlr (h p : Nat) (s : State) : Res :=
  .next (
    if 2 ≤ h ∨ 16 ≤ p then s
    else
      let s := dropLaunches s h (fun f => f == p + 1)
      let s := closeMailbox (modFn s h (p + 1) (fun _ => HostFn.reset)) h (p + 1)
      if noPart s h (p + 1) then s else beginPartReset s p)

/-- R369: an FLR of a PF, a hot reset or a link disable: every ring of both endpoints is disabled, every launch ends, those of
the other endpoint with a completion where its function's bus mastering is enabled, and a compute reset begins. DEDUCED, log entry 60. -/
def execPfFlr (h : Nat) (s : State) : Res :=
  .next (
    if 2 ≤ h then s
    else
      let s := dropLaunches s h (fun _ => true)
      let s := (List.range 17).foldl (fun s f => closeMailbox (modFn s h f (fun _ => HostFn.reset)) h f) s
      let s := dropLaunches s (1 - h) (fun f => !((s.host (1 - h)).fn f).master)
      let s := endLaunches s (fun _ => true)
      let s := { s with launches := s.launches.filter (fun l => !l.fence) }
      let s := modHost s (1 - h) (fun d =>
        { d with fns := d.fns.map (fun x => (x.1,
            { x.2 with rings := x.2.rings.map (fun y => (y.1, { y.2 with en := false })) })) })
      beginComputeReset s)

/-- R369: PERSTh_N is asserted (`pin`) or the link lost: the host die and its endpoint are reset. Its launches go on, and their
completions are discarded and counted. -/
def execPerstAssert (h : Nat) (pin : Bool) (s : State) : Res :=
  .next (
    if 2 ≤ h then s
    else
      let p := (s.host h).perst || pin
      let s := modHost s h (fun _ => { HostDie.reset with perst := p })
      (List.range 17).foldl (fun s f => closeMailbox s h f) s)

/-- R370: PERSTh_N is released and the endpoint trains its link. -/
def execPerstRelease (h : Nat) (s : State) : Res :=
  .next (if h < 2 then modHost s h (fun d => { d with perst := false }) else s)

/-- R370, Table 11.14: the link of a powered host die comes up at a speed and width. -/
def execHostLinkUp (h speed width : Nat) (flit : Bool) (s : State) : Res :=
  .next (
    if h < 2 ∧ !(s.host h).perst ∧ domOf s (132 + h) = .on then
      modHost s h (fun d =>
        { d with
          up := true
          flit := flit
          speed := speed
          width := width })
    else s)

end Sys2Proof.Machine
end

