-- ==== Sys2Proof/Machine/Lock.lean ====
section
/-!
DEFINITION. The lock and atomic unit of the cores, the lock units of the fields, and atomics at their targets (R245 to
R252).
-/

namespace Sys2Proof.Machine

/-- LOCK_ACQ is issued (R251, R252). -/
def execLockAcq (c : Nat) (i : Issue) (d : LockDesc) (s : State) : Res := .next (engRow s c i (.lock .acq d))
/-- LOCK_TRY is issued (R251, R252). -/
def execLockTry (c : Nat) (i : Issue) (d : LockDesc) (s : State) : Res := .next (engRow s c i (.lock .try_ d))
/-- LOCK_REL is issued (R251, R252). -/
def execLockRel (c : Nat) (i : Issue) (d : LockDesc) (s : State) : Res := .next (engRow s c i (.lock .rel d))
/-- AADD is issued (R249, R251, R252). -/
def execAadd (c : Nat) (i : Issue) (d : LockDesc) (s : State) : Res := .next (engRow s c i (.lock .add d))
/-- AMIN is issued (R249, R251, R252). -/
def execAmin (c : Nat) (i : Issue) (d : LockDesc) (s : State) : Res := .next (engRow s c i (.lock .min d))
/-- AMAX is issued (R249, R251, R252). -/
def execAmax (c : Nat) (i : Issue) (d : LockDesc) (s : State) : Res := .next (engRow s c i (.lock .max d))
/-- AMINU is issued (R249, R251, R252). -/
def execAminu (c : Nat) (i : Issue) (d : LockDesc) (s : State) : Res := .next (engRow s c i (.lock .minu d))
/-- AMAXU is issued (R249, R251, R252). -/
def execAmaxu (c : Nat) (i : Issue) (d : LockDesc) (s : State) : Res := .next (engRow s c i (.lock .maxu d))
/-- ASWAP is issued (R249, R251, R252). -/
def execAswap (c : Nat) (i : Issue) (d : LockDesc) (s : State) : Res := .next (engRow s c i (.lock .swap d))
/-- ACAS is issued (R249, R251, R252). -/
def execAcas (c : Nat) (i : Issue) (d : LockDesc) (s : State) : Res := .next (engRow s c i (.lock .cas d))

/-! ### Lock units (R245 to R248) -/

/-- The engine-7 command under way in core `c`. -/
def curLock (s : State) (c : Nat) : Option (Flight × LockOp × LockDesc) :=
  match engFlights (s.core c) 7 with
  | f :: _ =>
    match f.body with
    | .lock op d => if f.begun then some (f, op, d) else none
    | _ => none
  | [] => none

/-- A request of a core of this device is one that its engine 7 has sent and that has no outcome yet, and names the partition of the
core (R245); those of other devices and reset notices are as they come. -/
def lockReqReal (s : State) (i : Nat) (r : LockReq) : Bool :=
  if r.remote || r.kind = .notice || r.dev != s.devId then true
  else
    match curLock s r.core with
    | some (_, op, d) =>
      d.lock == i && r.part == partNum s r.core && !(s.lockReplies.any (fun x => x.core == r.core)) &&
        !((s.lock i).waiters.any (fun w => w.dev == r.dev && w.core == r.core)) &&
        lockKindOf op == some r.kind
    | none => false

/-- R246: the requests for one lock that arrive in one NCLK are resolved in the order REL, reset notice, ACQ or TRY; ACQ
and TRY in the order listed, in which the lock unit takes them. Where the lock's state fails its parity, the lock is first
ABANDONED with no owner, which is event 0x000B (R247, R469). -/
def execLockRequestArrive (lock : Nat) (a : LockArrival) (s : State) : Res :=
  .next (
    if lock < 3072 then
      let s := if a.bad then raiseErr (lockAbandon s lock) 0x000B 8 lock (lockOwnerOf s lock) (s.field (lock / 256)).echo [] else s
      let pick (p : LockReq → Bool) : List LockReq := a.rs.filter p
      let order := pick (fun r => r.kind = .rel) ++ pick (fun r => r.kind = .notice) ++
        pick (fun r => r.kind = .acq || r.kind = .try_)
      order.foldl (fun s r => if lockReqReal s lock r then lockOp s lock r else s) s
    else s)

/-- The reply that waits for core `c`, if one does. -/
def takeReply (s : State) (c : Nat) : State × Option LockReply :=
  match s.lockReplies.find? (fun r => r.core == c) with
  | some r => ({ s with lockReplies := s.lockReplies.erase r }, some r)
  | none => (s, none)

/-- R251: a lock reply reaches core `c`: the command completes, with its record and flag. `status` and `val` are those of
another device's lock unit. -/
def execLockReplyArrive (c : Nat) (status : Nat) (val : W64) (s : State) : Res :=
  .next (
    match curLock s c with
    | some (f, op, d) =>
      if isAtomicOp op then s
      else if lockAway s d then lockEnd s c f status val
      else
        match takeReply s c with
        | (s, some r) => lockEnd s c f r.status r.val
        | (s, none) => s
    | none => s)

/-! ### Atomics at their target (R249, R250) -/

/-- R250: an atomic reaches its target and is performed as one read-modify-write. -/
def execAtomicArrive (a : AtRef) (s : State) : Res :=
  .next (
    match a with
    | .core c =>
      match curLock s c with
      | some (_, op, d) =>
        if isAtomicOp op && !(isRemote d.addr && remoteDev d.addr != s.devId) && !(s.lockReplies.any (fun r => r.core == c)) then
          let (s, st, v) := atomicPerform s c op d
          { s with lockReplies := s.lockReplies ++ [⟨c, st, v⟩] }
        else s
      | none => s
    | .ext t r rtag =>
      let (s, x) := remoteAccess s t r 0x7FF
      emit s (.answer r.sdev rtag x.st.que x.data))

/-- R251: an atomic's old value and status return to core `c` and the command completes. `status` and `val` are those of
another device. -/
def execAtomicReplyArrive (c : Nat) (status : Nat) (val : W64) (s : State) : Res :=
  .next (
    match curLock s c with
    | some (f, op, d) =>
      if !isAtomicOp op then s
      else if isRemote d.addr && remoteDev d.addr != s.devId then lockEnd s c f status val
      else
        match takeReply s c with
        | (s, some r) => lockEnd s c f r.status r.val
        | (s, none) => s
    | none => s)

end Sys2Proof.Machine
end

