-- ==== Sys2Proof/Machine/Queue.lean ====
section
/-!
DEFINITION. Messages, event flags and multicast channels (chapter 7): the queue unit's commands, and the arrival and
the outcome of messages, grants, EVPOSTs and forwarded copies.
-/

namespace Sys2Proof.Machine

/-! ### Arrival (R215, R222 to R224) -/

/-- The Table 5.4 fault of a core whose waiting QRECV took a message with an uncorrectable word. -/
def faultIf (s : State) (c : Nat) (det : Option (Nat × Nat)) : State :=
  match det with
  | none => s
  | some m => memFault s c 6 0 m

/-- How a path learns of what its member's destination decided: a final status is on its way; a refusal for want of
credit makes it a waiter (R224), unless a halt withdraws it (R196, R253). -/
def pathOutcome (s : State) (p : SendPath) (k : Nat) (a : Arrival) : State :=
  let cnt (s : State) : State :=
    let f := sendOf s p
    countPath s p 0x64 ((f.bind (fun f => f.members[k]?)).map (·.dest)) 0 ((f.map (fun f => f.bytes.length / 16)).getD 0)
  match a with
  | .final st => setMember s p k (.answered st)
  | .nocredit r =>
    let s := cnt (setMember s p k (if r then .waiting else if isOrphan p then .answered 6 else .unrecorded))
    match sendOf s p with
    | some f => if f.halting then haltWithdraw s p else s
    | none => s

/-- R222 to R224: a message reaches its queue: member `k` of the message in flight of a path of this device, which is on
its way or resent after a grant, or a message of another device, whose sender is answered with a status of Table 7.1, or
0x101 and 0x102 for a refusal for want of credit with and without a waiter record. -/
def execQueueMessageArrive (m : MsgRef) (s : State) : Res :=
  .next (
    match m with
    | .path p k =>
      match sendOf s p with
      | none => s
      | some f =>
        match f.members[k]? with
        | none => s
        | some mem =>
          match mem.st, localDest s mem.dest with
          | .sent, some (c, q) | .granted, some (c, q) =>
            let (s, a, det) := arrive s c q f.bytes f.poison (senderMeta s p f) (some (.path p k))
            faultIf (pathOutcome s p k a) c det
          | _, _ => s
    | .ext e =>
      let info : MsgMeta :=
        { spart := e.spart, score := e.score, sdev := e.sdev, sys := false, mc := false, chan := 0, endm := e.endm }
      let (s, a, det) := arrive s (e.gid / 32) (e.gid % 32) e.bytes [] info (some (.ext e.sdev e.rtag))
      let s := emit s (.answer e.sdev e.rtag (match a with
        | .final st => st
        | .nocredit r => if r then 0x101 else 0x102) [])
      faultIf s (e.gid / 32) det)

/-- R224: member `k` of a path sends its message again: it is on its way once more, to another device as a new packet. -/
def sendAgain (s : State) (p : SendPath) (k : Nat) (st : MsgSt) : State :=
  let s := setMember s p k st
  match sendOf s p with
  | none => s
  | some f =>
    match f.members[k]? with
    | none => s
    | some m => sendMember s p f m

/-- R254: a grant finds that its sender has been reset: it is answered DEST_RESET, and the reserved entry passes to the next waiter. The
copy has ended. -/
def grantRefused (s : State) (p : SendPath) (k : Nat) (d : MsgDest) (rtag : Nat) : State :=
  let s := match localDest s d, d with
    | some (c, q), _ => unwait s c q (.path p k)
    | none, .remote dev _ => emit s (.answer dev rtag 6 [])
    | none, .fwd dev _ => emit s (.answer dev rtag 6 [])
    | none, .local_ _ _ => s
  let s := setMember s p k (.final 6)
  match sendOf s p with
  | some f => if sendDone f then dropSend s p else s
  | none => s

/-- R224, R254: a grant reaches the sender that waits as member `k` of a path, which resends into its reserved entry; `rtag` is that of a
grant from another device. A sender that has been reset answers DEST_RESET. A grant that another device so refuses frees its
entry for the next waiter. -/
def execQueueGrantArrive (g : GrantRef) (rtag : Nat) (s : State) : Res :=
  .next (
    match g with
    | .refused c q sdev => unwait s c q (.ext sdev rtag)
    | .path p k =>
      match sendOf s p with
      | none => s
      | some f =>
        match f.members[k]? with
        | none => s
        | some mem =>
          let granted : Bool := match localDest s mem.dest with
            | some (c, q) => ((s.core c).que.q q).reserved.any (fun r => r.2 = .path p k)
            | none => true
          if mem.st = .waiting ∧ granted then
            (if isOrphan p then grantRefused s p k mem.dest rtag else sendAgain (countPath s p 0x65 (some mem.dest) 0 (f.bytes.length / 16)) p k .granted)
          else s)

/-- R224: 1 µs after its refusal, a sender that found every waiter record in use sends again. -/
def execWaiterRetryTimer (p : SendPath) (k : Nat) (s : State) : Res :=
  .next (
    match sendOf s p with
    | none => s
    | some f =>
      match f.members[k]? with
      | none => s
      | some mem => if mem.st = .unrecorded ∧ !isOrphan p then sendAgain s p k .sent else s)

/-! ### The outcome at the sender (R225, R226, R236, R242) -/

/-- A send whose members are all final ends: QSEND writes its status, a SEND its result record; a halt that waited for the
message takes effect (R196). -/
def sendEnd (s : State) (p : SendPath) (f : Send) : State :=
  let st := sendStatus f
  let (n, first) := refusedOf f
  match p with
  | .ctl c =>
    let s := dropSend s p
    match (s.core c).ctl.blk with
    | .qsend d mem =>
      let s := if f.mc ∧ st ≠ 0 then count s c 0x6C 1 (queSample .here false 0 0 0 st (f.bytes.length / 16)) else s
      let s := qsendDone s c d mem st
      if f.halting then haltNow s c else s
    | _ => s
  | .que c =>
    let s := dropSend s p
    match engFlights (s.core c) 6 with
    | g :: _ =>
      let s := if f.mc ∧ st ≠ 0 then count s c 0x6C 1 (queSample (.x g.pc) false 0 0 0 st (f.bytes.length / 16)) else s
      queKick 8 (queEnd s c g (if g.memDetail.isSome then 0x0B else st) n first) c
    | [] => s
  | .fn h fn => launchSent s h fn st
  | .fwd sdev rtag => if isOrphan p then dropSend s p else emit (dropSend s p) (.answer sdev rtag st (natBytes 2 n ++ natBytes 2 first))
  | .dma _ _ => s

/-- What follows an outcome that has reached the sender of member `k`. -/
def afterOutcome (s : State) (p : SendPath) : State :=
  match sendOf s p with
  | none => s
  | some f =>
    if sendDone f then sendEnd s p f
    else if f.halting && f.members.any (fun m => m.st = .waiting || m.st = .unrecorded) then haltWithdraw s p
    else s

/-- R225, R226: the outcome of a unicast message of the control unit, the queue unit or a launch engine reaches its
sender. `ext` is what another device answers. -/
def execQueueMessageAnswer (p : SendPath) (ext : MsgAns) (s : State) : Res :=
  .next (
    match p, sendOf s p with
    | .dma _ _, _ => s
    | _, some f => if f.mc then s else afterOutcome (memberOutcome s p 0 ext) p
    | _, none => s)

/-- R242: the outcome of member `k` of a multicast send reaches its sender; when every member's is final, the send
completes OK or PARTIAL. -/
def execMcastMemberAnswer (p : SendPath) (k : Nat) (ext : MsgAns) (s : State) : Res :=
  .next (
    match sendOf s p with
    | some f => if f.mc then afterOutcome (memberOutcome s p k ext) p else s
    | none => s)

/-! ### Forwarded copies (R241) -/

/-- R241: whether a channel of this device admits forwarded copies of a device. -/
def fscopeAdmits (img : Bytes) (sdev : Nat) : Bool :=
  decide (byteNat img 1 % 4 = 2) && decide (leAt img 148 2 % 2 ^ 14 ≤ sdev) && decide (sdev ≤ leAt img 150 2 % 2 ^ 14)

/-- R241, R242: a forwarded copy reaches this device. A channel that does not admit it refuses it with DENIED; else it
is sent to the channel's members, and to its forward devices where it has crossed fewer than 4 devices: a forward cut
off is counted and refused. The outcome goes back when every member's is final. DEDUCED, log entry 38. -/
def execMcfwdArrive (m : FwdMsg) (s : State) : Res :=
  .next (
    let img := mcImage s m.chan
    if fscopeAdmits img m.sdev then
      let cut (d : MsgDest) : Bool := match d with
        | .fwd _ _ => decide (4 ≤ m.crossed)
        | _ => false
      let members := (mcMembers s m.chan).map (fun d => (⟨d, if cut d then .final 3 else .sent⟩ : Member))
      let n := (members.filter (fun x => cut x.dest)).length
      let info : MsgMeta :=
        { spart := m.spart, score := m.score, sdev := m.sdev, sys := false, mc := true, chan := m.chan, endm := m.endm }
      let s := { s with cntMcDepth := s.cntMcDepth + n }
      let f : Send :=
        { bytes := m.bytes, endm := m.endm, mc := true, chan := m.chan, sys := false, poison := [], halting := false,
          orig := some info, crossed := m.crossed, members := members }
      afterOutcome (startSend s (.fwd m.sdev m.rtag) f) (.fwd m.sdev m.rtag)
    else emit s (.answer m.sdev m.rtag 3 []))

/-! ### Commands of the queue unit (R234 to R238, R244) -/

/-- SEND is issued (R234 to R237). -/
def execSend (c : Nat) (i : Issue) (d : SendDesc) (s : State) : Res := .next (engRow s c i (.que (.send d)))

/-- EVPOST is issued (R234, R236, R238). -/
def execEvpost (c : Nat) (i : Issue) (d : EvpostDesc) (s : State) : Res := .next (engRow s c i (.que (.evpost d)))

/-- MCSET is issued (R234, R236, R240). -/
def execMcset (c : Nat) (i : Issue) (d : McDesc) (s : State) : Res := .next (engRow s c i (.que (.mcset d)))

/-- MCGET is issued: it writes the image in effect (R234, R244). -/
def execMcget (c : Nat) (i : Issue) (d : McDesc) (s : State) : Res := .next (engRow s c i (.que (.mcget d)))

/-- The EVPOST under way in a core's queue unit. -/
def curEvpost (s : State) (c : Nat) : Option (Flight × EvpostDesc) :=
  match engFlights (s.core c) 6 with
  | f :: _ =>
    match f.body with
    | .que (.evpost d) => if f.begun then some (f, d) else none
    | _ => none
  | [] => none

/-- R233: an EVPOST reaches its target, from the queue unit of a core of this device or from another device. -/
def execEvpostArrive (e : EvpRef) (s : State) : Res :=
  .next (
    match e with
    | .core c =>
      match curEvpost s c with
      | some (f, d) =>
        if tgtDev s d.tgt = s.devId ∧ f.status = 0 ∧ f.result = 0 then
          let (s, st) := evpostAt s (d.tgt.toNat % 2 ^ 11) s.devId (partNum s c) c d.mask
          modCore s c (fun k => modFlight k f.id (fun f => { f with status := st, result := 1 }))
        else s
      | none => s
    | .ext t mask sdev spart rtag =>
      let (s, st) := evpostAt s t sdev spart 0x7FF mask
      emit s (.answer sdev rtag st []))

/-- R238: the outcome of an EVPOST returns and the command completes; `status` is that of another device. -/
def evpostAnswer (s : State) (c : Nat) (status : Nat) : State :=
  match curEvpost s c with
  | some (f, d) =>
    if tgtDev s d.tgt = s.devId then
      (if f.result = 1 then queKick 8 (queEnd s c f f.status 0 0) c else s)
    else queKick 8 (queEnd s c f status 0 0) c
  | none => s

/-- R238: the outcome of an EVPOST returns and the command completes; `status` is that of another device. -/
def execEvpostAnswer (c : Nat) (status : Nat) (s : State) : Res := .next (evpostAnswer s c status)

/-- R244: every replication point holds the new image, and the MCSET completes. -/
def execMcsetComplete (c : Nat) (s : State) : Res :=
  .next (
    match engFlights (s.core c) 6 with
    | f :: _ =>
      match f.body with
      | .que (.mcset d) =>
        if f.begun then
          let (s, bs, bad) := spRead s c d.img 256 5
          let det := bad.head?.map (fun w => (captureOf s c w 5, w))
          let s := { s with mchans := mset s.mchans d.chan bs }
          queKick 8 (queEnd s c { f with memDetail := det } (if det.isSome then 0x0B else 0) 0 0) c
        else s
      | _ => s
    | [] => s)

end Sys2Proof.Machine
end

