-- ==== Sys2Proof/Machine/Links.lean ====
section
/-!
DEFINITION. The device links: training, gates and admission, frames, packets between devices, Ethernet connections, and
route epochs (R281 to R321).
-/

namespace Sys2Proof.Machine

/-! ### Training and admission (R284 to R290, R295) -/

/-- R284: the spare lane that port `i` of a die may take for one more failed lane in direction `dir`. -/
def spareFor (d : LinkDie) (dir i : Nat) : Option Nat :=
  let used (k : Nat) : Bool := (mfind d.spares (2 * dir + k)).isSome
  if i < 3 && !used 0 then some 20
  else if (3 ≤ i || used 0) && !used 1 then some 21
  else none

/-- R284, R45: lane `k` of port `p` in direction `dir` is carried by a spare, with its Survey entry; none where no spare is left. -/
def steerLane (s : State) (p dir k : Nat) : Option State :=
  let l := p / 5
  let i := p % 5
  match spareFor (mget LinkDie.reset s.links.dies l) dir i with
  | none => none
  | some lane =>
    let s := modLinks s (fun x =>
      let d := mget LinkDie.reset x.dies l
      { x with dies := mset x.dies l { d with spares := mset d.spares (2 * dir + (lane - 20)) i } })
    let s := modPort s p (fun q => { q with lsteer := q.lsteer ||| BitVec.ofNat 4 (2 ^ k) })
    some (defectFound s 8 (natBytes 1 l ++ natBytes 1 (4 * i + k)))

/-- R284: the failed lanes of a port, each a direction and a lane, are steered one by one. -/
def steerLanes (s : State) (p : Nat) : List (Nat × Nat) → Option State
  | [] => some s
  | (dir, k) :: ks =>
    match steerLane s p dir k with
    | none => none
    | some s => steerLanes s p ks

/-- R284, R285, R287 steps 1 and 2: PMD training and lane checks end. A port without lock or with a bad module goes DOWN; a
failed lane that no spare may carry excludes the port; else it enters its gate. -/
def execPortTrainingDone (p : Nat) (r : TrainResult) (s : State) : Res :=
  .next (
    let k := s.port p
    if 40 ≤ p ∨ !(k.st = .training ∨ k.st = .resetting) then s
    else if !r.locked || !r.moduleOk then setPortSt s p .down
    else
      let failed := ((List.range 4).filter (fun i => r.failed.getLsbD i)).map (fun i => (0, i)) ++
        ((List.range 4).filter (fun i => r.failedTx.getLsbD i)).map (fun i => (1, i))
      if failed = [] then setPortSt s p .gate
      else if k.eth || !r.steerable || !k.steer then setPortSt s p .excluded
      else
        match steerLanes s p failed with
        | some s => setPortSt s p .gate
        | none => setPortSt s p .excluded)

/-- The quotient of two naturals as an F32, rounded to nearest even. -/
def ratioF32 (a b : Nat) : W32 :=
  if b = 0 then 0
  else
    let q := a * 2 ^ 80 / b
    let m := 2 * q + (if a * 2 ^ 80 % b = 0 then 0 else 1)
    BitVec.ofNat 32 (fp32.encode .rne false false (.fin false m (-81))).code

/-- The worst lane of a gate: the lane with the greatest ratio of errors to bits. -/
def worstLane (ls : List (Nat × Nat)) : Nat × Nat :=
  ls.foldl (fun w x => if w.1 * x.2 < x.1 * w.2 then x else w) (0, 1)

/-- R316: whether port `p` belongs to a bundle whose link.bundle_encrypt is set. -/
def bundleSealed (s : State) (p : Nat) : Bool := (s.port p).bv && cfgNum s 0x50 0x0201 (s.port p).bundle 0 == 1

/-- R287 to R289: the gate of a port ends; `lanes` are the errors and bits of each lane, of both directions on a native port.
It passes if every ratio is at most 1 × 10⁻⁵. A native port then sends TRAIN; an Ethernet-mode port is ADMITTED. A port
that fails is EXCLUDED, at a cold start with a Survey entry. -/
def execBerGateEnd (p : Nat) (lanes : List (Nat × Nat)) (s : State) : Res :=
  .next (
    if 40 ≤ p ∨ (s.port p).st ≠ .gate ∨ (s.port p).gated then s
    else
      let w := worstLane lanes
      let s := modPort s p (fun k => { k with ber := ratioF32 w.1 w.2 })
      if lanes.all (fun x => decide (x.1 * 100000 ≤ x.2)) then
        if (s.port p).eth then setPortSt s p .admitted
        else
          let s := modPort s p (fun k => { k with gated := true })
          let (s, f) := sealFrame s p (bundleSealed s p) (mget false s.links.keyUse (s.port p).bundle) (bareFrame 4 0)
          emit s (.trainFrame p f ⟨3, s.devId, p, [1088, 1088, 1088, 1088], (s.port p).steer, false⟩)
      else
        let s := raiseErr (setPortSt s p .excluded) 0x000D 6 p none (dieEcho s (p / 5)) [(s.port p).ber.toNat]
        match s.wake.start with
        | some r =>
          if r.warm then s
          else startFinds s 9 (natBytes 1 p ++ natBytes 3 0 ++ natBytes 4 (s.port p).ber.toNat)
        | none => s)

/-- R287 step 4, R291, R295, R312, R316, R317, R320: a TRAIN frame settles version, credits and partner. One whose CRC or tag fails is
discarded. A malformed body is a violation;
no common version is answered NAK VERSION; a partner with this device's ID is refused and the port stays in TRAINING; a
port that cannot encrypt is not admitted to a bundle with encryption. -/
def execTrainFrame (p : Nat) (x : TrainFrame) (s : State) : Res :=
  .next (
    let k := s.port p
    if 40 ≤ p ∨ k.eth ∨ k.st ≠ .gate ∨ !k.gated then s
    else if !x.frame.crcOk then s
    else if bundleSealed s p && !x.frame.tagOk then tagFail s p
    else if x.body.malformed then violationNak s p 2 0
    else
      let vm := x.body.vmask.toNat % 4
      if vm = 0 then sendNak s p 5 0
      else if x.body.dev = s.devId then
        setPortSt (modPort s p (fun k =>
          { k with
            gated := false
            pdev := x.body.dev
            pport := x.body.port })) p .training
      else
        let ver := if 2 ≤ vm then 2 else 1
        let encrypt := bundleSealed s p
        if encrypt && ver != 2 then s
        else
          let vcs := (List.range 4).map (fun v => (v, { LinkVc.reset with txCred := x.body.credits.getD v 0 }))
          setPortSt (modPort s p (fun k =>
            { k with
              gated := false
              ver := ver
              enc := encrypt
              keyid := mget false s.links.keyUse k.bundle
              pdev := x.body.dev
              pport := x.body.port
              txSeq := 0
              unacked := []
              rxSeq := 0
              nakOut := false
              vcs := vcs
              badWin := 0
              rrClass := 0
              rrPort := []
              deficit := []
              keyWant := none
              lastNak := none })) p .admitted)

/-- R289: a 1 s window ends with `errors` of `bits` before FEC and `uncor` uncorrectable codewords. Three windows in a row
above 1 × 10⁻⁴, or more than 100 uncorrectable codewords in one, reset the port. -/
def execBerWindowEnd (p errors bits uncor : Nat) (s : State) : Res :=
  .next (
    if 40 ≤ p ∨ (s.port p).st ≠ .admitted then s
    else
      let s := modPort s p (fun k =>
        { k with
          badWin := if bits < errors * 10000 then k.badWin + 1 else 0
          uncor := satInc k.uncor uncor })
      if 3 ≤ (s.port p).badWin ∨ 100 < uncor then portReset s p .rate else s)

/-- Whether a port is at work, so that a lost signal takes it DOWN. -/
def portAlive (k : Port) : Bool :=
  match k.st with
  | .training | .gate | .admitted | .resetting => true
  | _ => false

/-- R286: a port loses signal or lock, or its module faults. -/
def execPortSignalLoss (p : Nat) (s : State) : Res :=
  .next (if 40 ≤ p then s else if portAlive (s.port p) then portLeave s p .down else s)

/-- R285: whether the module of a port, where it has one, allows it to run. -/
def moduleGood (m : Option CmisStatus) : Bool :=
  match m with
  | none => true
  | some x => x.present && x.app && !x.fault

/-- R285, R286: a DOWN port trains again, unless its module holds it DOWN. -/
def execPortRetrainTimer (p : Nat) (s : State) : Res :=
  .next (
    if p < 40 ∧ (s.port p).st = .down ∧ moduleGood (s.port p).module then startTraining s p else s)

/-- R285: the master of port `p` sets its module up: application, high power and data path, through channel i of the switch. -/
def setUpModule (s : State) (p : Nat) : State :=
  let act (s : State) (a : CmisAct) : State := emit s (.cmis (p / 5) (p % 5) a)
  [CmisAct.channel, .application, .highPower, .dataPath].foldl act (modPort s p (fun k => { k with modInit := true }))

/-- R285: a poll of the modules of link die `l`, by port; `none` for a port without a module. A module that offers the application is
set up once; one that is absent, or that a port loses, is to be set up anew. -/
def execCmisPoll (l : Nat) (ms : List (Option CmisStatus)) (s : State) : Res :=
  .next (
    if 8 ≤ l then s
    else
      (List.range 5).foldl (fun s i =>
        let p := 5 * l + i
        let m := (ms[i]?).join
        let s := modPort s p (fun k =>
          { k with
            module := m
            modInit := k.modInit && m.any (fun x => x.present) })
        let s := if m.any (fun x => x.present && x.app) && !(s.port p).modInit then setUpModule s p else s
        if !moduleGood m && portAlive (s.port p) then portLeave s p .down else s) s)

/-! ### Frames (R291 to R297, R312 to R318) -/

/-- After a frame has been taken: the port sends what it can, and an IDLE frame where nothing carried its
acknowledgement. -/
def answerFrame (s : State) (p : Nat) : State :=
  if !nativeUp s p then s
  else
    let t := txPump 300 s p
    if (t.port p).txSeq = (s.port p).txSeq then sendIdle t p else t

/-- R292 to R294, R297, R312, R314, R315: a DATA frame is received. One that fails its CRC, its tag or its order is
discarded and asked for again; else its acknowledgement, credit and flits are taken. -/
def execDataFrame (p : Nat) (f : Frame) (s : State) : Res :=
  .next (
    if !nativeUp s p then s
    else
      let (s, ok) := frameChecks s p f
      if !ok then s
      else if f.seq != (s.port p).rxSeq then askReplay s p
      else
        let s := modPort s p (fun k =>
          { k with
            rxSeq := k.rxSeq + 1
            nakOut := false })
        let s := takeCred (takeAck s p f.ack) p f.credVc f.cred
        let s := countShared s (portBlk p) 3 16 f.flits.length 3
        answerFrame (rxFlits s p f.vc.toNat f.seq f.flits) p)

/-- R291, R294: an IDLE frame carries acknowledgement and credit. -/
def execIdleFrame (p : Nat) (f : Frame) (s : State) : Res :=
  .next (
    if !nativeUp s p then s
    else
      let (s, ok) := frameChecks s p f
      if !ok then s
      else
        let s := takeCred (takeAck s p f.ack) p f.credVc f.cred
        if nativeUp s p then txPump 300 s p else s)

/-- R294, R312: a NAK frame: of cause REPLAY, the sender resends from the frame it names; another cause is recorded. -/
def execNakFrame (p : Nat) (f : Frame) (s : State) : Res :=
  .next (
    if !nativeUp s p then s
    else
      let (s, ok) := frameChecks s p f
      if !ok then s
      else
        let s := takeCred (takeAck s p f.ack) p f.credVc f.cred
        let s := countShared s (portBlk p) 6 16 1 3
        let s := modPort s p (fun k => { k with lastNak := some (f.cause.toNat, f.seqc.toNat) })
        if f.cause.toNat = 1 then replayFrom s p f.seqc else s)

/-- R294: 2 µs without progress of ACK: the sender resends from its oldest frame. -/
def execReplayTimeout (p : Nat) (s : State) : Res :=
  .next (
    if !nativeUp s p then s
    else
      match (s.port p).unacked with
      | [] => s
      | f :: _ => replayFrom s p f.frame.seq)

/-- R318: an admitted native port sends a beacon. -/
def execBeaconSend (p : Nat) (s : State) : Res :=
  .next (
    if nativeUp s p then
      let b := beaconOf s p
      let (s, f) := stampFrame s p (bareFrame 3 (s.port p).txSeq)
      emit (countShared s (portBlk p) 0 16 1 3) (.beacon p f b)
    else s)

/-- R318, R387: the offset to a partner, from the four stamps of a beacon exchange. -/
def beaconOffset (b : Beacon) : Int :=
  (((b.lastRx.toNat : Int) - b.lastTx.toNat) + ((b.sent.toNat : Int) - b.arrived.toNat)) / 2

/-- R317, R318, R386, R387: a beacon is received: the device chooses its upstream, and measures its offset where the beacon comes
from it. Its arrival is stamped with the link die's Echo time, and its header carries acknowledgement and credit (R291). -/
def execBeaconFrame (p : Nat) (x : BeaconFrame) (s : State) : Res :=
  .next (
    if !nativeUp s p then s
    else
      let (s, ok) := frameChecks s p x.frame
      if !ok then s
      else
      let s := takeCred (takeAck s p x.frame.ack) p x.frame.credVc x.frame.cred
      let b := { x.body with arrived := dieEcho s (p / 5) }
      let s := chooseUpstream (modPort s p (fun k => { k with beacon := some b }))
      if s.ech.src = 1 ∧ s.ech.upPort = some p ∧ b.lastTx ≠ 0 then
        let o := beaconOffset b
        modEch s (fun e =>
          { e with
            pend := o
            ofs := o })
      else s)

/-- R317: a KEY frame names a slot by its KEYID. Where this port has asked for that slot it changes to it; else, where the
slot holds a key, it returns a KEY frame and changes as well. -/
def execKeyFrame (p : Nat) (f : Frame) (s : State) : Res :=
  .next (
    if !nativeUp s p then s
    else
      let (s, ok) := frameChecks s p f
      if !ok then s
      else
        let s := takeCred (takeAck s p f.ack) p f.credVc f.cred
        let k := s.port p
        let using_ (s : State) : State := modLinks s (fun l => { l with keyUse := mset l.keyUse k.bundle f.keyid })
        if k.keyWant = some f.keyid then
          modPort (using_ s) p (fun k =>
            { k with
              keyid := f.keyid
              keyWant := none })
        else if (mfind s.links.keys (2 * k.bundle + (if f.keyid then 1 else 0))).isSome then
          let (s, g) := stampFrame s p (bareFrame 5 k.txSeq)
          modPort (sendFrame (using_ s) p { g with keyid := f.keyid }) p (fun k => { k with keyid := f.keyid })
        else s)

/-! ### Packets (R302 to R310, R314) -/

/-- R302 to R309: a packet at input `i` of a link die is routed by the table of its epoch;
`planeB` names its plane. -/
def execLinkPacketRoute (i : LinkInput) (planeB : Bool) (k : LinkPkt) (s : State) : Res :=
  .next (if i.die < 8 ∧ i.inp < 8 then routePkt s i.die i.inp planeB k false else s)

/-- R314, R315: no flit of the packet in progress on channel `v` for link.stall_timeout: it ends, the stall is counted, and
flits are discarded until the next header. -/
def execStallTimeout (p v : Nat) (s : State) : Res :=
  .next (
    if 40 ≤ p ∨ 4 ≤ v then s
    else
      match ((s.port p).vc v).rx with
      | .pkt _ _ => endShort (modPort s p (fun k => { k with stall := satInc k.stall 1 })) p v (.skip false)
      | _ => s)

/-- R310: a remote request without an answer is ended ABORTED by its engine. A message that waits for credit has been answered
NOCREDIT. -/
def execRemoteTimeout (r : RemoteRef) (s : State) : Res :=
  .next (
    match r with
    | .burst c e k =>
      let away (a : W64) : Bool := isRemote a && remoteDev a != s.devId
      match ((s.core c).eng e.val).bursts.find? (fun b => b.k == k) with
      | some b =>
        if away b.dst || (b.data.isNone && away b.src) then
          burstAck (modDma s c e.val (fun g => setBurst g k (fun b => { b with status := some (RSt.ofQue 7).dma }))) c e k 7
        else s
      | none => s
    | .member p k =>
      match sendOf s p with
      | none => s
      | some f =>
        match f.members[k]? with
        | none => s
        | some m =>
          if (localDest s m.dest).isSome || (isFinal m).isSome || m.st == .waiting || m.st == .unrecorded then s
          else
            match p with
            | .dma c e => notifyAnswer (streamOutAnswer s c e (.final 7)) c e (.final 7)
            | _ => afterOutcome (memberOutcome s p k (.final 7)) p
    | .evpost c =>
      match curEvpost s c with
      | some (_, d) => if tgtDev s d.tgt = s.devId then s else evpostAnswer s c 7
      | none => s
    | .lock c =>
      match curLock s c with
      | some (f, op, d) =>
        let away : Bool := if isAtomicOp op then isRemote d.addr && remoteDev d.addr != s.devId else lockAway s d
        if away then lockEnd s c f 7 0 else s
      | none => s)

/-! ### Ethernet connections (R298 to R301) -/

/-- R299: packets up to `psn` have been received: they are released, and the requests among them await their answers. Progress sets the count of resends back. -/
def ethRelease (s : State) (b peer psn : Nat) : State :=
  let c := s.conn b peer
  let n := match c.unacked with
    | [] => 0
    | x :: _ => (psn + 1 + 2 ^ 24 - x.1) % 2 ^ 24
  if n = 0 ∨ c.unacked.length < n then s
  else modConn s b peer (fun c =>
    { c with
      unacked := c.unacked.drop n
      open_ := c.open_ ++ ((c.unacked.take n).map (·.2)).filter (fun k => isRequest k.opc)
      resends := 0 })

/-- R299: an answer has arrived from a peer: its request is outstanding no more. -/
def ethAnswered (s : State) (b peer : Nat) (k : LinkPkt) : State :=
  if 0x10 ≤ k.opc.toNat then
    modConn s b peer (fun c => { c with open_ := c.open_.filter (fun x => !(x.rtag == k.rtag && x.sdev == k.ddev)) })
  else s

/-- R299: after 7 resends without progress the peer is unreachable: every request outstanding to it is answered ABORTED, with event
0x3002; else the unacknowledged packets are resent, each by its port (R303, R304). -/
def ethResend (s : State) (b peer : Nat) : State :=
  let c := s.conn b peer
  if c.unacked = [] then s
  else if 7 ≤ c.resends then
    let s := (c.unacked.map (·.2) ++ c.open_).foldl (fun s k => refusePkt s k 7) s
    let s := modConn s b peer (fun c =>
      { c with
        unacked := []
        open_ := []
        dead := true })
    raiseEvent s 0x3002 0 0 none [peer]
  else
    c.unacked.foldl (fun s x =>
      match bundlePort s b x.2 with
      | some p => emit (sprayed s b x.2) (.ethData (ethDataHdr s p b x.1 x.2) x.2)
      | none => s)
      (modConn s b peer (fun c => { c with resends := c.resends + 1 }))

/-- R299: an acknowledgement of what has been received in order. -/
def ethAck (s : State) (b peer : Nat) : State :=
  ethCtl (modConn s b peer (fun c => { c with toAck := 0 })) b peer 1 0 0

/-- A frame arrives from a peer: it is reachable again (R299). -/
def ethAlive (s : State) (b peer : Nat) : State := modConn s b peer (fun c => { c with dead := false })

/-- R297 to R300, R312, Table 9.1: a MAC control frame is discarded and counted. An Ethernet-mode DATA packet arrives at port `p` of bundle `b` from device `peer`. It is taken in PSN
order; another is dropped with one NAK that names the expected PSN. -/
def execEthDataPacket (p b peer : Nat) (e : EthPkt) (s : State) : Res :=
  .next (
    if 40 ≤ p ∨ !(s.port p).eth ∨ (s.port p).st ≠ .admitted then s
    else if e.mac then modPort s p (fun k => { k with macCtl := satInc k.macCtl 1 })
    else
      let s := ethRelease (ethAlive s b peer) b peer e.apsn
      let s := countShared s (portBlk p) 1 16 1 3
      let s := if e.ce then countShared s (portBlk p) 9 16 1 3 else s
      let s := modConn s b peer (fun c =>
        { c with
          rxBytes := c.rxBytes + e.bytes
          ceBytes := if e.ce then c.ceBytes + e.bytes else c.ceBytes })
      let c := s.conn b peer
      if e.psn ≠ c.rxPsn then
        if c.nakOut then s
        else ethCtl (modConn s b peer (fun c => { c with nakOut := true })) b peer 2 c.rxPsn 0
      else
        let s := modConn s b peer (fun c =>
          { c with
            rxPsn := (c.rxPsn + 1) % 2 ^ 24
            nakOut := false
            toAck := c.toAck + 1 })
        let s :=
          if !knownOpc e.pkt.opc || 64 < e.pkt.len then violation (refusePkt s e.pkt 7) p 4
          else if !srcAdmits s p e.pkt.sdev then violation (refusePkt s e.pkt 3) p 8
          else emit (ethAnswered s b peer e.pkt) (.linkPkt p e.pkt)
        if 16 ≤ (s.conn b peer).toAck then ethAck s b peer else s)

/-- R299: an ACK releases the packets up to its APSN. -/
def execEthAck (b peer apsn : Nat) (s : State) : Res := .next (ethRelease (ethAlive s b peer) b peer apsn)

/-- R299: a NAK names the PSN expected: what is before it is released, the rest resent. -/
def execEthNak (b peer psn : Nat) (s : State) : Res :=
  .next (ethResend (ethRelease (ethAlive s b peer) b peer ((psn + 2 ^ 24 - 1) % 2 ^ 24)) b peer)

/-- R299: the receiver acknowledges after 2 µs at the latest. -/
def execEthAckTimer (b peer : Nat) (s : State) : Res :=
  .next (if (s.conn b peer).toAck = 0 then s else ethAck s b peer)

/-- R299: link.eth_rto expires: the sender resends from the oldest packet, or gives its peer up. -/
def execEthRto (b peer : Nat) (s : State) : Res := .next (ethResend s b peer)

/-- R299, R300: a CNP of MFRAC `mfrac` cuts the rate; a further one within 20 µs is counted and ignored. DEDUCED, log entry 56. -/
def execCnp (b peer mfrac : Nat) (s : State) : Res :=
  .next (
    let s := ethAlive s b peer
    let c := s.conn b peer
    let soon : Bool := match c.cutAt with
      | some t => decide (s.now < t + 20000)
      | none => false
    let s := (List.range 40).foldl (fun s p =>
      if (s.port p).bv && (s.port p).bundle == b && (s.port p).eth then countShared s (portBlk p) 0xB 16 1 3 else s) s
    if soon then
      modConn s b peer (fun c =>
        { c with
          ignored := c.ignored + 1
          cnpSeen := true })
    else
      modConn s b peer (fun c =>
        { c with
          rate := max 1 (c.rate * (1 - (mfrac : Rat) / 512))
          step := 2
          raises := 0
          cutAt := some s.now
          cnpSeen := true }))

/-- R300: a 20 µs interval ends at the receiver: one CNP where any of its frames arrived marked. DEDUCED, log entry 56. -/
def execCnpIntervalEnd (b peer : Nat) (s : State) : Res :=
  .next (
    let c := s.conn b peer
    let s := modConn s b peer (fun c =>
      { c with
        ceBytes := 0
        rxBytes := 0 })
    if c.ceBytes = 0 then s
    else
      let s := match bundlePorts s b with
        | [] => s
        | p :: _ => countShared s (portBlk p) 0xA 16 1 3
      ethCtl s b peer 3 0 (min 255 ((256 * c.ceBytes + c.rxBytes - 1) / c.rxBytes)))

/-- R300: 40 µs pass: without a CNP in them the rate rises by its step, which doubles after every fourth raise in a row. -/
def execRateIncreaseTimer (b peer : Nat) (s : State) : Res :=
  .next (
    modConn s b peer (fun c =>
      if c.cnpSeen then
        { c with
          cnpSeen := false
          raises := 0 }
      else
        { c with
          rate := min 800 (c.rate + c.step)
          raises := c.raises + 1
          step := if (c.raises + 1) % 4 = 0 then min 64 (2 * c.step) else c.step }))

/-- R301: a neighbour solicitation for the IPv6 address of bundle `b` is answered with its MAC address. -/
def execNeighbourSolicitation (b : Nat) (target : Bytes) (s : State) : Res :=
  .next (
    let x := cfgBlob s 0x50 0x0204 b
    if b < 16 ∧ 28 ≤ x.length ∧ x.take 16 = target then emit s (.net (16 + b) 0 (target ++ (x.drop 16).take 6)) else s)

/-! ### Epochs (R308, R321) -/

/-- R247, R321: device `d` has departed: its locks are ABANDONED, each partition is notified, and event 0x3003 raised. -/
def departed (s : State) (d : Nat) : State :=
  let s := locksLost s (fun w => w.dev == d)
  let bs := natBytes 1 0x20 ++ natBytes 1 0 ++ natBytes 2 d ++ natBytes 4 0 ++ natBytes 8 s.echoM.toNat
  let s := (List.range 16).foldl (fun s p => if partExists s p then notifyPart s p bs else s) s
  raiseEvent s 0x3003 0 0 none [d]

/-- R306, R307, R309: whether entry `dev` of table `t` in one copy gives a route. KIND 3 gives none. DEDUCED, log entry 55. -/
def entryRoutes (s : State) (copy t dev : Nat) : Bool :=
  let e := (rtEntry s.links copy t dev).toNat
  e.testBit 31 && (match bits e 30 29 with
    | 1 => (torusOf s).any (fun x => (x.coord s.devId 0).isSome && (x.coord dev 0).isSome)
    | 3 => false
    | _ => true)

/-- The devices to which some copy of table `t` has a route. -/
def reaches (s : State) (t : Nat) : List Nat :=
  let l := s.links
  let keys (m : Map W32) : List Nat := m.map (fun (x : Nat × W32) => x.1 % 16384)
  ((keys l.rt0 ++ keys l.rt1 ++ keys l.rtx).dedup).filter (fun d =>
    (List.range 20).any (fun copy => entryRoutes s copy t d))

/-- R308, R321: the epoch that an advance has prepared becomes current in every copy, the previous table is held, and devices
without a route any more have departed. -/
def execEpochSwitch (s : State) : Res :=
  .next (
    if !s.links.advancing then s
    else
      let t := s.links.epoch.toNat % 2
      let now := reaches s (1 - t)
      let gone := (reaches s t).filter (fun d => !now.contains d && d != s.devId)
      let s := modLinks s (fun l =>
        { l with
          epoch := l.epoch + 1
          epx := []
          prev := true
          advancing := false })
      endAsync (gone.foldl departed s) 5 0)

/-- R308: no packet of the previous epoch for link.epoch_hold: its table is released. -/
def execEpochHoldExpire (s : State) : Res := .next (modLinks s (fun l => { l with prev := false }))

end Sys2Proof.Machine
end

