-- ==== Sys2Proof/Machine/Objects.lean ====
section
/-!
DEFINITION. The object dictionary (R494, R512): every object of Tables 2.5, 7.11, 8.6, 9.16, 10.7, 11.7, 12.9, 13.17, 14.11, 15.5,
16.10, 17.7 and 18.12 as one row: its address, elements, type, access and range.
-/

namespace Sys2Proof.Machine

/-- Table 16.6: the types that objects have. -/
inductive ObjType where
  | bool | u8 | u16 | u32 | u64 | f32 | time | enum | bitset | str | blob
  deriving DecidableEq, Repr

/-- The type codes of Table 16.6. -/
def ObjType.code : ObjType → Nat
  | .bool => 1
  | .u8 => 2
  | .u16 => 3
  | .u32 => 4
  | .u64 => 5
  | .f32 => 0x0A
  | .time => 0x0B
  | .enum => 0x0C
  | .bitset => 0x0D
  | .str => 0x0E
  | .blob => 0x0F

/-- Who may write an object beside ADMIN (R491): every class but GUEST; OPERATOR and BMC; ADMIN alone; ADMIN or BMC. -/
inductive Writer where
  | any | operator | admin | adminBmc
  deriving DecidableEq, Repr

/-- The Access column. -/
inductive Access where
  | ro
  | rw (w : Writer)
  | rws
  | wo (w : Writer)
  deriving DecidableEq, Repr

/-- One object. `elems` counts its elements; `lo` and `hi` bound a number, `hi` is the width of a BITSET and the greatest length of
a STR or BLOB; `part` says that its element is a partition, `guest` that its rule admits GUEST writers, `action` that its
description begins ACTION (R501). -/
structure ObjDesc where
  area : Nat
  idx : Nat
  elems : Nat
  ty : ObjType
  acc : Access
  lo : Nat
  hi : Nat
  part : Bool
  guest : Bool
  action : Bool
  deriving DecidableEq, Repr

def ro (a i n : Nat) (t : ObjType) (hi : Nat) : ObjDesc := ⟨a, i, n, t, .ro, 0, hi, false, false, false⟩
def rw_ (a i n : Nat) (t : ObjType) (w : Writer) (lo hi : Nat) : ObjDesc := ⟨a, i, n, t, .rw w, lo, hi, false, false, false⟩
def act (a i n : Nat) (t : ObjType) (w : Writer) (hi : Nat) : ObjDesc := ⟨a, i, n, t, .wo w, 0, hi, false, false, true⟩
def ObjDesc.ofPart (d : ObjDesc) : ObjDesc := { d with part := true }
def ObjDesc.forGuest (d : ObjDesc) : ObjDesc := { d with guest := true }

/-- Areas 01 and 02 (Tables 16.10 and 14.11). -/
def objIdentity : List ObjDesc := [
  ro 0x01 0x0001 1 .str 255, ro 0x01 0x0002 1 .u16 0xFFFF, ro 0x01 0x0003 1 .u8 0xFF, ro 0x01 0x0004 1 .str 255,
  ro 0x01 0x0005 1 .enum 1, ro 0x01 0x0006 1 .blob 6, ro 0x01 0x0007 1 .blob 65536, ro 0x01 0x0008 1 .bitset 2]

def objState : List ObjDesc := [
  ro 0x02 0x0001 1 .enum 7, ro 0x02 0x0002 1 .u8 10, act 0x02 0x0003 1 .bool .admin 1, act 0x02 0x0004 1 .bool .admin 1,
  act 0x02 0x0005 1 .bool .admin 1, act 0x02 0x0006 1 .bool .admin 1, rw_ 0x02 0x0007 1 .bool .admin 0 1,
  rw_ 0x02 0x0008 1 .bool .admin 0 1, rw_ 0x02 0x0009 1 .bool .admin 0 1, ro 0x02 0x000A 1 .u8 0xFF,
  act 0x02 0x000B 1 .bool .admin 1, ro 0x02 0x000C 1 .blob 16, ro 0x02 0x000D 1 .bitset 4, rw_ 0x02 0x000E 1 .enum .admin 0 2]

/-- Areas 10, 11 and 12 (Table 13.17). -/
def objPower : List ObjDesc := [
  rw_ 0x10 0x0001 1 .u16 .admin 1200 Config.inputCeiling, ro 0x10 0x0002 1 .u16 0xFFFF, ro 0x10 0x0003 1 .u16 0xFFFF,
  ro 0x10 0x0004 1 .u16 0xFFFF, ro 0x10 0x0005 1 .u16 0xFFFF, rw_ 0x10 0x0006 1 .bool .operator 0 1,
  rw_ 0x10 0x0007 1 .bool .admin 0 1, rw_ 0x10 0x0008 1 .u8 .admin 0 Config.nominalStep, ro 0x10 0x0009 1 .u32 0xFFFFFFFF,
  ro 0x10 0x000A 1 .bitset 32, (rw_ 0x10 0x0010 16 .u16 .admin 0 4800).ofPart, (ro 0x10 0x0011 16 .u16 0xFFFF).ofPart,
  ro 0x10 0x0020 136 .enum 3, act 0x10 0x0021 136 .enum .admin 2, rw_ 0x10 0x0030 1 .blob .admin 0 8,
  rw_ 0x10 0x0031 1 .u16 .admin 1200 0xFFFF, ro 0x10 0x0032 1 .f32 0xFFFFFFFF, ro 0x10 0x0040 1 .blob 65536,
  ro 0x11 0x0001 1 .u8 0xFF, ro 0x11 0x0002 1 .blob 2000, rw_ 0x11 0x0003 1 .u8 .admin 60 95, rw_ 0x11 0x0004 1 .u8 .admin 60 100,
  ro 0x11 0x0005 1 .u8 0xFF, ro 0x11 0x0006 1 .u16 0xFFFF,
  rw_ 0x12 0x0001 6 .bool .operator 0 1, ro 0x12 0x0002 6 .enum 3, act 0x12 0x0003 6 .bool .operator 1, ro 0x12 0x0004 6 .u16 0xFFFF,
  rw_ 0x12 0x0005 6 .enum .operator 0 1, rw_ 0x12 0x0006 6 .u8 .operator 60 120, rw_ 0x12 0x0007 6 .u16 .operator 0 0xFFFF,
  rw_ 0x12 0x0008 1 .bitset .admin 0 6, rw_ 0x12 0x0009 6 .enum .operator 0 3]

/-- Areas 20 and 30 (Tables 12.9, 2.5, 14.11 and 15.5). -/
def objClocks : List ObjDesc := [
  ro 0x20 0x0001 12 .u8 80, ro 0x20 0x0002 1 .u32 0xFFFFFFFF, ro 0x20 0x0003 1 .u32 0xFFFFFFFF, ro 0x20 0x0004 1 .u32 0xFFFFFFFF,
  ro 0x20 0x0010 1 .time (2 ^ 64 - 1), rw_ 0x20 0x0011 1 .enum .admin 0 3, ro 0x20 0x0012 1 .enum 3, rw_ 0x20 0x0013 1 .bool .admin 0 1,
  act 0x20 0x0014 1 .bool .admin 1, ⟨0x20, 0x0015, 1, .time, .wo .admin, 0, 2 ^ 64 - 1, false, false, false⟩,
  rw_ 0x20 0x0016 1 .enum .admin 0 1, rw_ 0x20 0x0017 1 .u8 .admin 0 127,
  ro 0x30 0x0001 1 .u32 0xFFFFFFFF, ro 0x30 0x0002 1 .blob 2097152, ro 0x30 0x0003 1 .enum 2, act 0x30 0x0004 1 .blob .admin 4,
  ro 0x30 0x0010 1 .blob 384, (act 0x30 0x0020 1 .u16 .operator 1151).forGuest, act 0x30 0x0021 1 .u16 .admin 1151,
  (act 0x30 0x0030 1 .blob .operator 112).forGuest, ro 0x30 0x0031 1 .enum 3, ro 0x30 0x0032 1 .blob 4096]

/-- Area 40 (Tables 11.7, 14.11, 8.6, 7.11 and 10.7). -/
def objParts : List ObjDesc := [
  (rw_ 0x40 0x0001 16 .bitset .any 0 96).ofPart, (ro 0x40 0x0002 16 .enum 2).ofPart, (rw_ 0x40 0x0003 16 .u16 .any 0 1151).ofPart,
  (rw_ 0x40 0x0004 16 .bitset .any 0 2).ofPart, (act 0x40 0x0005 16 .bool .operator 1).ofPart,
  (rw_ 0x40 0x0006 16 .bool .operator 0 1).ofPart.forGuest, (ro 0x40 0x0007 16 .enum 2).ofPart, (rw_ 0x40 0x0008 16 .bool .admin 0 1).ofPart,
  (rw_ 0x40 0x0009 16 .bool .admin 0 1).ofPart, (rw_ 0x40 0x0020 16 .u8 .any 1 64).ofPart, (rw_ 0x40 0x0030 16 .bitset .any 0 64).ofPart,
  (rw_ 0x40 0x0031 16 .bitset .any 0 192).ofPart, (rw_ 0x40 0x0032 16 .blob .any 0 128).ofPart, (rw_ 0x40 0x0040 16 .bitset .any 0 768).ofPart,
  (rw_ 0x40 0x0041 16 .bool .any 0 1).ofPart]

/-- Area 50 (Table 9.16). -/
def objLinks : List ObjDesc := [
  ⟨0x50, 0x0001, 1, .u16, .rws, 0, 16383, false, false, false⟩, ro 0x50 0x0002 1 .u8 255, act 0x50 0x0003 1 .bool .admin 1,
  rw_ 0x50 0x0004 1 .blob .admin 0 65536, rw_ 0x50 0x0005 1 .blob .admin 0 11, rw_ 0x50 0x0010 1 .u32 .any 1 1000000,
  rw_ 0x50 0x0011 1 .u32 .any 100 60000, rw_ 0x50 0x0012 1 .u16 .any 1 65535, rw_ 0x50 0x0013 1 .u8 .any 1 63,
  rw_ 0x50 0x0014 1 .u32 .any 100 10000000, rw_ 0x50 0x0015 1 .u32 .any 100 1000000, rw_ 0x50 0x0016 1 .u8 .any 1 64,
  rw_ 0x50 0x0100 40 .enum .any 0 2, rw_ 0x50 0x0101 40 .u8 .any 0 0xFF, ro 0x50 0x0102 40 .enum 7, act 0x50 0x0103 40 .bool .operator 1,
  act 0x50 0x0104 40 .bool .admin 1, rw_ 0x50 0x0105 40 .blob .any 4 4, ro 0x50 0x0106 40 .blob 4096, rw_ 0x50 0x0200 16 .u8 .any 0 0xFF,
  rw_ 0x50 0x0201 16 .bool .admin 0 1, ⟨0x50, 0x0202, 16, .blob, .wo .admin, 37, 37, false, false, false⟩,
  act 0x50 0x0203 16 .bool .admin 1, rw_ 0x50 0x0204 16 .blob .any 0 29, rw_ 0x50 0x0300 1 .blob .any 0 24576,
  rw_ 0x50 0x0301 1 .u16 .any 1024 65535, rw_ 0x50 0x0302 1 .u32 .any 10 100000]

/-- Areas 60, 70, 80 and 90 (Tables 10.7, 16.10, 15.5 and 18.12). -/
def objMemory : List ObjDesc := [
  ro 0x60 0x0001 16 .enum 3, rw_ 0x60 0x0002 1 .u16 .any 256 rateDefault, rw_ 0x60 0x0003 1 .u8 .any 0 255, rw_ 0x60 0x0004 1 .u8 .any 1 64,
  ro 0x60 0x0005 1 .blob 1000000, act 0x60 0x0006 1 .blob .admin 8,
  ro 0x70 0x0001 2 .blob 4, rw_ 0x70 0x0002 2 .bool .admin 0 1, rw_ 0x70 0x0003 2 .bitset .admin 0 17, ro 0x70 0x0004 2 .u32 0xFFFFFFFF,
  (ro 0x80 0x0001 1 .blob 16777216).forGuest, ro 0x80 0x0002 1 .blob 64, ro 0x80 0x0003 1 .u32 0xFFFFFFFF, act 0x80 0x0004 1 .u32 .adminBmc 0xFFFFFFFF,
  ro 0x80 0x0005 1 .u32 0xFFFFFFFF, ro 0x80 0x0006 1 .u32 0xFFFFFFFF,
  ro 0x90 0x0001 1 .u64 (2 ^ 64 - 1), ro 0x90 0x0002 1 .u64 (2 ^ 64 - 1), ro 0x90 0x0003 1 .u64 (2 ^ 64 - 1), ro 0x90 0x0004 1 .u64 (2 ^ 64 - 1),
  (ro 0x90 0x0010 16 .u64 (2 ^ 64 - 1)).ofPart, rw_ 0x90 0x0100 1 .blob .admin 16 16, rw_ 0x90 0x0101 1 .blob .admin 32 32,
  rw_ 0x90 0x0102 1 .blob .admin 32 32, (ro 0x90 0x0110 1 .blob 39936).forGuest, (ro 0x90 0x0111 1 .blob 2560).forGuest,
  (ro 0x90 0x0112 1 .blob 1024).forGuest, act 0x90 0x0120 1 .bool .admin 1]

/-- Areas A0 and B0 (Tables 17.7 and 16.10). -/
def objSecurity : List ObjDesc := [
  ro 0xA0 0x0001 1 .enum 1, ro 0xA0 0x0002 2 .enum 6, ro 0xA0 0x0003 2 .blob 512,
  ⟨0xA0, 0x0004, 1, .blob, .wo .admin, 0, 33554432, false, false, false⟩, act 0xA0 0x0005 1 .blob .admin 4, act 0xA0 0x0006 1 .bool .admin 1,
  rw_ 0xA0 0x0007 1 .enum .admin 0 1, ro 0xA0 0x0008 1 .enum 5, ro 0xA0 0x0009 1 .u8 2, ro 0xA0 0x000A 1 .blob 32, act 0xA0 0x000B 1 .bool .admin 1,
  ro 0xA0 0x000C 1 .blob 12, ro 0xA0 0x000D 1 .bool 1, ro 0xA0 0x000E 1 .u32 0xFFFFFFFF, ro 0xA0 0x000F 1 .blob 8,
  ro 0xB0 0x0001 1 .bool 1, ro 0xB0 0x0002 1 .blob 1024, act 0xB0 0x0003 1 .blob .admin 65536, act 0xB0 0x0004 16 .bool .admin 1,
  rw_ 0xB0 0x0005 1 .bool .admin 0 1, rw_ 0xB0 0x0006 1 .enum .admin 0 2, rw_ 0xB0 0x0007 1 .u32 .admin 30 86400, ro 0xB0 0x0008 1 .blob 4096,
  ro 0xB0 0x0009 1 .u32 0xFFFFFFFF, ro 0xB0 0x000A 1 .u32 0xFFFFFFFF, act 0xB0 0x000B 1 .bool .admin 1, rw_ 0xB0 0x0010 2 .enum .admin 0 2,
  rw_ 0xB0 0x0011 2 .blob .admin 0 36, rw_ 0xB0 0x0012 1 .bool .admin 0 1, rw_ 0xB0 0x0013 2 .blob .admin 0 12,
  rw_ 0xB0 0x0014 1 .u16 .admin 1024 65535, rw_ 0xB0 0x0015 1 .blob .admin 0 640, ro 0xB0 0x0016 1 .u32 0xFFFFFFFF,
  rw_ 0xB0 0x0017 1 .blob .admin 0 512]

/-- Every object that has an address (R512). -/
def objTable : List ObjDesc :=
  objIdentity ++ objState ++ objPower ++ objClocks ++ objParts ++ objLinks ++ objMemory ++ objSecurity

/-- R512: the object at an address, none where the address names no object. -/
def objAt (a : ObjAddr) : Option ObjDesc :=
  objTable.find? (fun d => d.area == a.area && d.idx == a.idx && decide (a.elem < d.elems))

/-! ### Rights (R491) -/

/-- Whether a class of session may write for a writer column. -/
def writerOk (w : Writer) (cls : Nat) : Bool :=
  match w with
  | .any => cls != 3
  | .operator => cls != 3
  | .admin => cls == 2
  | .adminBmc => cls == 2 || cls == 0

/-- R491: whether a session may write or perform an object. A GUEST's own rules check what its value names. -/
def mayWrite (e : Session) (d : ObjDesc) (a : ObjAddr) : Bool :=
  if e.cls = 3 then d.guest && (!d.part || a.elem == e.part)
  else
    match d.acc with
    | .ro => false
    | .rw w => writerOk w e.cls
    | .rws => writerOk .any e.cls
    | .wo w => writerOk w e.cls

/-- R491, R483, R551: whether a session may read an object. -/
def mayRead (e : Session) (d : ObjDesc) (a : ObjAddr) : Bool :=
  if e.cls = 3 then a.area == 1 || a.area == 2 || (d.part && a.elem == e.part) || (d.guest && d.acc == .ro)
  else true

/-! ### Ranges (R495) -/

/-- Whether a value has an object's form: numbers for numbers, bytes for STR and BLOB. DEDUCED, log entry 72. -/
def formOk (d : ObjDesc) (v : ObjVal) : Bool :=
  match d.ty, v with
  | .str, .blob _ => true
  | .blob, .blob _ => true
  | .str, .num _ => false
  | .blob, .num _ => false
  | _, .num _ => true
  | _, .blob _ => false

/-- R495: whether a value lies in the range of its object. -/
def rangeOk (d : ObjDesc) (v : ObjVal) : Bool :=
  match d.ty, v with
  | .bitset, .num n => decide (n < 2 ^ d.hi)
  | _, .num n => decide (d.lo ≤ n) && decide (n ≤ d.hi)
  | _, .blob b => decide (d.lo ≤ b.length)

/-- The length of an object's value (Table 16.6). -/
def valLen (d : ObjDesc) (v : ObjVal) : Nat :=
  match d.ty, v with
  | _, .blob b => b.length
  | .bool, _ => 1
  | .u8, _ => 1
  | .u16, _ => 2
  | .u32, _ => 4
  | .u64, _ => 8
  | .f32, _ => 4
  | .time, _ => 8
  | .enum, _ => 1
  | .bitset, _ => (d.hi + 7) / 8
  | _, _ => 0

/-- The bytes of a value (Table 16.6). -/
def valBytes (d : ObjDesc) (v : ObjVal) : Bytes :=
  match v with
  | .blob b => b
  | .num n => natBytes (valLen d v) n

end Sys2Proof.Machine
end

