-- ==== Sys2Proof/Machine/Waking.lean ====
section
/-!
DEFINITION. Starts, resets in service, re-maps, management restarts, the halt net, error records and field checks as they
proceed (chapters 14 and 15).
-/

namespace Sys2Proof.Machine

/-! ### Starts (R438 to R446) -/

/-- R438, R443: COLD_RST_N is released after `lowNs` ns low; 1 µs or more begins a cold start, or begins it again. -/
def execColdRstRelease (lowNs : Nat) (s : State) : Res := .next (if 1000 ≤ lowNs then coldStart s false else s)

/-- R445, R446: WARM_RST_N is released after `lowNs` ns low; 1 µs or more asks for a warm start. -/
def execWarmRstRelease (lowNs : Nat) (s : State) : Res := .next (if 1000 ≤ lowNs then warmStart s else s)

/-- Whether a start of the kind is in progress. -/
def starting (s : State) (warm : Bool) : Bool :=
  match s.wake.start with
  | some r => r.warm == warm
  | none => false

/-- R439 to R442: the stage of the cold start in progress ends its work, with what its tests found.
DESIGN CHOICE, log entry 12. -/
def execColdStartStageEnd (o : StageOutcome) (s : State) : Res :=
  .next (if starting s false then coldStageEnd s s.stage o else s)

/-- R442: the stage in progress has overrun its time. -/
def execStartStageDeadline (s : State) : Res := .next (if s.wake.start.isSome then startFail s s.stage else s)

/-- R445: the stage of the warm start in progress ends; one that cannot read the Survey fails (R446). -/
def execWarmStartStageEnd (surveyOk : Bool) (s : State) : Res :=
  .next (if starting s true then (if surveyOk then warmStageEnd s s.stage else startFail s s.stage) else s)

/-- R438: 10 s after the device entered FAULTED in service. -/
def execAutoRecover (s : State) : Res :=
  .next (if s.dev = .faulted ∧ s.wake.recoverDue ∧ cfgNum s 0x02 0x0009 0 1 = 1 then coldStart s false else s)

/-! ### Resets in service (R448 to R450) -/

/-- R448 steps 2 to 4: the mesh has drained, and what is still inside is ended with abort tails: field ports, overlays and steering
from the Survey and pending domains are applied, every core is reset and cleared, and every channel emptied. -/
def execComputeResetDrainEnd (s : State) : Res :=
  .next (
    if s.wake.compute ∧ !s.wake.drained then
      let s := (List.range 12).foldl emptyRouters s
      let s := installOverlays (switchDue (applySeams (placeFieldPorts s)))
      let s := retireCands ((List.range 96).foldl (fun s g => if (s.grp g).lost then s else resetGroup s g true) s) (fun _ => true)
      modWake { countersDefault s with mchans := [], rowErrs := [] } (fun w => { w with drained := true })
    else s)

/-- R448 step 5: CRST clears, cores are IDLE, and the device leaves WAKING. -/
def execComputeResetDone (s : State) : Res :=
  .next (
    if s.wake.compute ∧ s.wake.drained then
      let s := modWake (releaseAll s) (fun w =>
        { w with
          compute := false
          drained := false })
      leaveWaking (setDev s (if degradedBy s = 0 then .ready else .degraded) 0) true
    else s)

/-- R449: the reset of partition `p` ends. -/
def execPartitionResetDone (p : Nat) (s : State) : Res := .next (endPartReset s p)

/-- Whether core `c` may leave a reset: nothing above a core reset holds it. -/
def mayRelease (s : State) (c : Nat) : Bool :=
  let k := s.grp (groupOf c)
  decide (c < 1152) && (s.core c).crst && !k.rst && k.remap.isNone && !k.check && !k.lost && domOf s (groupOf c) == .on &&
    !s.wake.compute && s.wake.start.isNone

/-- R450: the reset of core `c` ends. -/
def execCoreResetDone (c : Nat) (s : State) : Res := .next (if mayRelease s c then releaseCore s c else s)

/-! ### Re-maps (R459, R460) -/

/-- R459, R460: the spare tile of group `g` has been tested. If it passed, SKIP moves to the failed column; else its failure is a
second TILE entry and the group is lost. -/
def execRemapSpareTested (g : Nat) (pass : Bool) (s : State) : Res :=
  .next (
    match (s.grp g).remap with
    | none => s
    | some m =>
      let dead (k : Group) : Group := if k.rdead.testBit m.col then k else { k with tdead := k.tdead ||| 2 ^ m.col }
      if m.spareOk then s
      else if pass then
        (groupCores g).foldl applyBanks (modGrp s g (fun k =>
          { dead k with
            skip := m.col
            remap := some ⟨m.col, true⟩ }))
      else
        let (tx, ty) := tileXY g 12
        let s := surveyAppend s 1 2 false (natBytes 1 tx ++ natBytes 1 ty ++ natBytes 1 1 ++ natBytes 1 0)
        loseGroup (modGrp s g (fun k => { dead k with tdead := (dead k).tdead ||| 2 ^ 12 })) g 0 false)

/-- R453: a group that leaves its re-map or check takes the state of its partition: under reset while that is, else
released. -/
def joinPartition (s : State) (g : Nat) : State :=
  let held : Bool := match (s.grp g).part with
    | some p => (s.part p).resetting
    | none => false
  if held || s.wake.compute || s.wake.start.isSome || domOf s g != .on then s else releaseGroup s g

/-- R459, R461: the re-map of group `g` ends: its cores are IDLE and notification 0x10 is sent. -/
def execRemapDone (g : Nat) (s : State) : Res :=
  .next (
    match (s.grp g).remap with
    | some m =>
      if m.spareOk then
        let s := joinPartition (modGrp s g (fun k => { k with remap := none })) g
        reevaluate (groupNotify s (s.grp g).part 0x10 g (s.grp g).skip)
      else s
    | none => s)

/-- R459, R38: a hardware failure is attributed to a core. One that stops its router's clock makes the router dead as well, which
costs a compute reset (R266). -/
def execCoreFailDetected (x : CoreLoss) (s : State) : Res :=
  .next (
    if !present s x.core then s
    else if x.clock && !s.wake.mgmt then
      let (n, r) := tileRouter (tileX s x.core) (tileY x.core)
      routerFails s n r true
    else failCore s x.core 2 false 0)

/-! ### Management restarts (R452, R520, R531) -/

/-- R520, R530: Carafe has been silent for 2 s. -/
def execWatchdogExpire (s : State) : Res :=
  .next (
    if s.dev = .off ∨ s.wake.mgmt then s
    else if trialOn s then trialUnconfirmed s
    else mgmtRestart s)

/-- R452: Carafe is back: what Lantern kept is delivered, and what waited is done. -/
def carafeBack (s : State) : State :=
  let kept := s.wake.kept
  let lost := s.wake.lost
  let survey := s.wake.waitSurvey
  let failed := s.wake.waitFail
  let s := modWake s (fun w =>
    { w with
      mgmt := false
      kept := []
      lost := 0
      waitSurvey := []
      waitFail := [] })
  let s := kept.foldl storeRec s
  let s := if 0 < lost then raiseEvent s 0x6002 0 0 none [lost] else s
  let s := survey.foldl (fun s e => surveyPut s e.type_ e.source e.revoke e.prov e.loc) s
  let s := { s with seams := s.seams.map (fun x => (x.1, { x.2 with quiet := x.2.quiet || !x.2.due.isEmpty })) }
  failed.foldl (fun s c => failCore s c 2 false 0) s

/-- R452, R531, R527: Carafe of the bank in turn takes power control, or 8 s pass without it: that bank is tried once more,
then the next; with none left the device enters FAULTED, in recovery. DEDUCED, log entry 69. -/
def execCarafeTakeControl (ok : Bool) (s : State) : Res :=
  .next (
    if !s.wake.mgmt then s
    else
      let order := bankOrder s
      if ok then
        match order[s.fw.tries / 2]? with
        | some b => carafeBack (bankRuns s b 0)
        | none => s
      else if trialOn s ∧ s.fw.tries < 2 ∧ order.head? = s.fw.pending then trialUnconfirmed s
      else
        let s := modFw s (fun f => { f with tries := f.tries + 1 })
        if order.length ≤ s.fw.tries / 2 then enterFaulted (modFw s (fun f => { f with recovery := true })) else s)

/-! ### The halt net (R454 to R458) -/

/-- R457: whether the device drives HALT_N low. DEDUCED, log entry 66. -/
def drivesHalt (s : State) : Bool :=
  match cfgNum s 0x02 0x000E 0 0 with
  | 0 => false
  | 1 => s.dev == .faulted || s.dev == .held
  | _ => true

/-- R457, R559: HALT_N has been low for `ns` ns, driven by any module or by this device. DEDUCED, log entry 66. -/
def execHaltNAssert (ns : Nat) (s : State) : Res :=
  .next (
    if 40 ≤ ns then (List.range 16).foldl followHalt (modWake s (fun w => { w with haltN := true })) else s)

/-- R457: HALT_N has been high for `ns` ns. DEDUCED, log entry 66. -/
def execHaltNRelease (ns : Nat) (s : State) : Res :=
  .next (
    if 1000 ≤ ns ∧ !drivesHalt s then (List.range 16).foldl followHalt (modWake s (fun w => { w with haltN := false }))
    else s)

/-- R196, R454: the HALT bit of its partition reaches core `c`. A global access is completed first, a message in transmission
awaits its first outcome; else the halt takes effect at once. -/
def execHaltArrive (c : Nat) (s : State) : Res :=
  .next (
    if present s c ∧ (partOf s c).any (haltBitOf s) then
      let s := modCtl s c (fun k => { k with haltBit := true })
      match (s.core c).ctl.blk with
      | .gacc _ => s
      | .qsend _ _ =>
        match withdraw s (.ctl c) with
        | (s, true) => haltNow s c
        | (s, false) => if (sendOf s (.ctl c)).isSome then s else haltNow s c
      | _ => haltNow s c
    else s)

/-- R196, R458: RUN reaches core `c`: a halted core returns to the state it left. -/
def execRunArrive (c : Nat) (s : State) : Res :=
  .next (
    if c < 1152 ∧ !(partOf s c).any (haltBitOf s) then
      let s := modCtl s c (fun k =>
        { k with
          haltBit := false
          st := if k.st = .halted then k.resume else k.st })
      match partOf s c with
      | some p => modPart s p (fun k => { k with halted := false })
      | none => s
    else s)

/-- R455: whether every present core of partition `p` is stopped with its engines idle. -/
def allStopped (s : State) (p : Nat) : Bool :=
  (coresOf s p).all (fun c =>
    let k := s.core c
    (k.ctl.st == .idle || k.ctl.st == .halted || k.ctl.st == .faulted) && k.flights == [])

/-- R464 steps 2 to 4: with every partition HALTED, CG domains move to RETENTION and HBM into self-refresh. -/
def lowEnter (s : State) : State :=
  if s.wake.low ∧ s.dev ≠ .low ∧ (List.range 16).all (fun p => !partExists s p || (s.part p).halted) then
    let on := (List.range 96).filter (fun g => domOf s g == .on)
    let s := on.foldl cgLeave s
    let s := modPwr s (fun w => { w with trans := on.foldl (fun m g => mset m g .retention) w.trans })
    let s := (List.range 16).foldl (fun s i => modStack s i (fun k => { k with sref := k.st == .ready })) s
    setDev s .low 0
  else s

/-- R455, R464: partition `p` has halted. -/
def execPartitionHalted (p : Nat) (s : State) : Res :=
  .next (
    if p < 16 ∧ haltBitOf s p ∧ allStopped s p then lowEnter (modPart s p (fun k => { k with halted := true })) else s)

/-! ### Records and repairs (R469, R470, R476, R47) -/

/-- R470: the oldest coalescing window ends: the events after its first form one record. -/
def execErrorCoalesceFlush (s : State) : Res :=
  .next (
    match s.coals with
    | [] => s
    | w :: ws =>
      let s := { s with coals := ws }
      if w.count = 0 then s
      else
        appendRec s { cls := w.cls, coalesced := true, alert := false, code := w.code, seq := 0, echo := w.echo, ukind := w.ukind,
                      part := w.part, unit := w.unit, count := w.count, detail := w.detail })

/-- R476: M writes its buffered records to the ring in flash. -/
def execEventLogFlush (s : State) : Res :=
  .next (
    let all := s.logFlash ++ s.logBuf
    { s with logFlash := all.drop (all.length - 262144), logBuf := [] })

/-- R469: Carafe rewrites a table entry from its own copy. -/
def execParityRewrite (x : ParityAt) (s : State) : Res :=
  .next (if s.wake.mgmt then s else { s with badEntries := s.badEntries.filter (fun y => y != x) })

/-- R469: Lantern rechecks its fuses and counters; a mismatch is fatal. -/
def execFuseRecheck (ok : Bool) (s : State) : Res := .next (if ok then s else raiseErr s 0x0016 9 0 none s.echoM [])

/-- R469: an uncorrectable word in M's memory is fatal. -/
def execMMemoryUncorrectable (s : State) : Res := .next (raiseErr s 0x0017 9 0 none s.echoM [])

/-- R47, R49: one stage of a compaction, `flashOk` where the flash writes. Its first erases the other half, whose header stays
invalid; its second leaves the live entries in the other half, commits its header and erases the old half. Where the flash refuses,
the current half stands, and new defects are applied in memory alone. -/
def compactStep (flashOk : Bool) (s : State) : State :=
  let v := s.survey
  if !flashOk then
    raiseErr { s with survey := { v with compacting := false, refuses := true, full := true } } 0x0013 9 0 none s.echoM []
  else if v.compacting then { s with survey := v.compacted (liveOf v.entries) s.echoM }
  else
    { s with
      survey := { (if v.second then { v with half0 := ⟨none, []⟩ } else { v with half1 := ⟨none, []⟩ }) with
        compacting := true
        refuses := false } }

/-- R47: where the current half holds 58,982 entries or more, its HEADER among them, Carafe begins to compact the Survey, and the
next of these commands ends that (`compactStep`). Whether the flash writes (R49) is a free value. DESIGN CHOICE, log entry 81. -/
def execSurveyCompact (s : State) : Res :=
  .next (
    let v := s.survey
    if s.wake.mgmt || (!v.compacting && decide (v.cur.slots.length + 1 < 58982)) then s
    else
      let (flashOk, s) := drawBool s
      compactStep flashOk s)

/-! ### Field checks (R479 to R482) -/

/-- R480: the group of field `n` that is under check: the lowest row of those left. -/
def checkTurn (s : State) (n : Nat) : Option Nat := s.wake.check.groups.find? (fun g => g / 8 == n)

/-- R479, R480: in each field the next named group comes under check, as under a group reset. -/
def checkNext (s : State) : State :=
  (List.range 12).foldl (fun s n =>
    match checkTurn s n with
    | none => s
    | some g => if (s.grp g).check || (s.grp g).lost then s else modGrp (resetGroup s g true) g (fun k => { k with check := true })) s

/-- R480, R505: the check ends when nothing is left to be checked. -/
def checkEnd (s : State) : State :=
  let k := s.wake.check
  if k.st = 1 ∧ k.groups = [] ∧ k.units = [] then
    endAsync (modWake s (fun w => { w with check := { w.check with st := 2 } })) 4 0
  else s

/-- R481: a failing tile of a group gets its TILE entry, with the test that failed it, and error 0x0015. -/
def checkTile (g : Nat) (s : State) (x : Nat × Nat) : State :=
  let (col, r) := x
  let (tx, ty) := tileXY g col
  let s := surveyAppend s 1 3 true (natBytes 1 tx ++ natBytes 1 ty ++ natBytes 1 1 ++ natBytes 1 (r - 2))
  let skip := (s.grp g).skip
  let c := 12 * g + (if col < skip then col else col - 1)
  if col = skip then raiseErr s 0x0015 2 (39 * ty + tx) (s.grp g).part s.echoM [r + 1]
  else raiseErr s 0x0015 1 c (s.grp g).part s.echoM [r + 1]

/-- R481: the check of group `g` ends with the results of its 13 tiles, by column: 0 PASS, 1 SRAM, 2 LOGIC, 3 PRESS, 4 VECTOR.
DEDUCED, log entry 68. -/
def execFieldCheckGroupDone (g : Nat) (results : List Nat) (s : State) : Res :=
  .next (
    if s.wake.check.st = 1 ∧ checkTurn s (g / 8) = some g then
      let rs := (List.range 13).map (fun i => min 4 (results.getD i 0))
      let s := modWake s (fun w =>
        { w with
          check := { w.check with
            groups := w.check.groups.filter (fun x => x != g)
            gres := mset w.check.gres g rs } })
      let bad := ((List.range 13).zip rs).filter (fun x => decide (x.2 ≠ 0))
      let k := s.grp g
      let s := bad.foldl (checkTile g) s
      let s := modGrp s g (fun k => { k with check := false })
      let cols := (bad.map (·.1)).filter (fun c => c != k.skip)
      let idle := k.skip == 12 && !(k.tdead ||| k.rdead).testBit 12 && !(bad.map (·.1)).contains 12
      let dead := (bad.map (fun x => 2 ^ x.1)).sum
      let s :=
        if k.lost then s
        else
          match cols with
          | [] => joinPartition (modGrp s g (fun k => { k with tdead := k.tdead ||| dead })) g
          | [c] =>
            if idle then modGrp s g (fun k => { k with remap := some ⟨c, false⟩ })
            else loseGroup (modGrp s g (fun k => { k with tdead := k.tdead ||| dead })) g 0 false
          | _ => loseGroup (modGrp s g (fun k => { k with tdead := k.tdead ||| dead })) g 0 false
      checkEnd (checkNext s)
    else s)

/-- R480, R481: the check of HBM unit `u` ends: it is zeroed, and its failing pages become candidates. -/
def execFieldCheckUnitDone (u : Nat) (pages : List Nat) (s : State) : Res :=
  .next (
    if s.wake.check.st = 1 ∧ s.wake.check.groups = [] ∧ s.wake.check.units.find? (fun x => x / 48 == u / 48) = some u then
      let st := u / 48
      let s := zeroUnit s u
      let s := pages.foldl (fun s pg => pageCandidate s st pg 3 true) s
      let s := if pages = [] then s else raiseErr s 0x0015 5 st (unitOwner s u) s.echoM []
      checkEnd (modWake s (fun w =>
        { w with
          check := { w.check with
            units := w.check.units.filter (fun x => x != u)
            ures := mset w.check.ures u (if pages = [] then 0 else 5) } }))
    else s)

end Sys2Proof.Machine
end

