-- ==== Sys2Proof/Machine/Values.lean ====
section
/-!
DEFINITION. What each object reads as (Tables 2.5, 7.11, 8.6, 9.16, 10.7, 11.7, 12.9, 13.17, 14.11, 15.5, 16.10, 17.7 and 18.12), and
the records that objects and messages carry (Tables 2.3, 15.3).
-/

namespace Sys2Proof.Machine

/-! ### CRC-32 and records -/

/-- One bit of the CRC-32 of IEEE 802.3, least significant bit first. -/
def crcBit (c : W32) : W32 := if c.getLsbD 0 then (c >>> 1) ^^^ 0xEDB88320#32 else c >>> 1

def crcByte (c : W32) (b : Byte) : W32 :=
  crcBit (crcBit (crcBit (crcBit (crcBit (crcBit (crcBit (crcBit (c ^^^ b.setWidth 32))))))))

/-- CRC-32 of IEEE 802.3 (R44, R471, R523). -/
def crc32 (bs : Bytes) : W32 := ~~~ (bs.foldl crcByte 0xFFFFFFFF#32)

def withCrc (bs : Bytes) : Bytes := bs ++ natBytes 4 (crc32 bs).toNat

/-- Table 15.3: the 64 B record of an event. -/
def recordBytes (r : LogRec) : Bytes :=
  withCrc (natBytes 1 r.cls ++ natBytes 1 (bit r.coalesced 0 + bit r.alert 1) ++ natBytes 2 r.code ++ natBytes 4 r.seq ++
    natBytes 8 r.echo.toNat ++ natBytes 1 r.ukind ++ natBytes 1 (r.part.getD 0xFF) ++ natBytes 2 r.unit ++ natBytes 4 r.count ++
    padTo 24 (r.detail.flatMap (natBytes 4)) ++ natBytes 12 0)

/-- Table 2.3: the 32 B Survey entry, a HEADER among them (Table 2.4). -/
def surveyBytes (e : SurveyEntry) : Bytes :=
  withCrc (natBytes 1 e.type_ ++ natBytes 1 e.source ++ natBytes 2 (bit e.revoke 0 + bit e.prov 1) ++ natBytes 4 e.seq ++
    natBytes 8 e.echo.toNat ++ padTo 12 e.loc)

def strBytes (x : String) : Bytes := x.toList.map (fun ch => BitVec.ofNat 8 ch.toNat)

/-- HIF_LINK (Table 11.14). -/
def hifLink (d : HostDie) : Nat := bit d.flit 9 + bit d.up 8 + d.speed % 16 * 16 + d.width % 16

/-- The records of the event log in SEQ order, torn ones skipped (R476); a GUEST of partition `p` sees its error records alone (R483). -/
def logFor (s : State) (guest : Option Nat) : List LogRec :=
  let all := (s.logFlash ++ s.logBuf).filter (fun r => !r.torn)
  match guest with
  | none => all
  | some p => all.filter (fun r => decide (r.cls < 4) && r.part == some p)

/-- R548, R551: counter `j` of block `b`: its total, or a GUEST's shadow. -/
def sharedCount (s : State) (b j : Nat) (guest : Option Nat) : Nat :=
  match guest with
  | none => mget 0 (s.blk b).totals j
  | some p => mget 0 (s.blk b).shadows (17 * j + p)

def countsOf (s : State) (blks : List Nat) (guest : Option Nat) : Bytes :=
  blks.flatMap (fun b => (List.range (sharedCounters b)).flatMap (fun j => natBytes 8 (sharedCount s b j guest)))

/-! ### Values by area -/

def identityVal (idx : Nat) : Option ObjVal :=
  match idx with
  | 1 => some (.blob (strBytes (bif Config.profileIsL then "IXT-DMN12-L" else "IXT-DMN12-A")))
  | 2 => some (.num (Config.vendorId % 65536))
  | 3 => some (.num 0xB0)
  | 4 => some (.blob ((List.range 12).map Config.serial))
  | 5 => some (.num (bif Config.profileIsL then 0 else 1))
  | 6 => some (.blob ((List.range 6).map Config.macBase))
  | 7 => some (.blob Config.certChain)
  | 8 => some (.num 3)
  | _ => none

def stateVal (s : State) (idx : Nat) : Option ObjVal :=
  match idx with
  | 1 => some (.num (devCode s.dev))
  | 2 => some (.num s.stage)
  | 7 => some (.num (bit s.wake.low 0))
  | 10 => some (.num (min 255 s.wake.failedStarts))
  | 12 =>
    some (.blob (match s.wake.last with
      | none => []
      | some l =>
        natBytes 1 (bit l.warm 0) ++ natBytes 1 (bit l.failed 0) ++ natBytes 1 l.stage ++ natBytes 1 0 ++ natBytes 4 l.ms ++
          natBytes 8 l.t0.toNat))
  | 13 => some (.num (degradedBy s))
  | _ => none

/-- power.joint_suspects (Table 13.17): one suspect. -/
def suspectBytes (x : Suspect) : Bytes :=
  (match x.unit with
    | .phase n i => natBytes 1 0 ++ natBytes 1 n ++ natBytes 1 i
    | .domain d => natBytes 1 1 ++ natBytes 1 d ++ natBytes 1 0) ++ natBytes 1 (bit x.confirmed 0) ++ natBytes 8 x.echo.toNat

/-- The FP32 code of `n` / 65,536. -/
def frac16 (n : Nat) : Nat := (fp32.encode .rne false false (.fin false n (-16))).code

/-- Table 13.17: the power objects. power.state reads PWR_STATUS, in which VSTBY is set at reset, where the table gives 0.
DESIGN CHOICE, log entry 87. -/
def powerVal (s : State) (idx elem : Nat) : Option ObjVal :=
  match idx with
  | 0x0002 => some (.num Config.inputCeiling)
  | 0x0003 => some (.num (min 0xFFFF (avg10 s)))
  | 0x0004 => some (.num (min 0xFFFF s.pwr.auxPower))
  | 0x0005 => some (.num (limitNow s))
  | 0x0009 => some (.num (min 0xFFFFFFFF s.pwr.throttleTotal))
  | 0x000A => some (.num (pwrStatus s))
  | 0x0011 => some (.num (min 0xFFFF (avgOf 100 (mget [] s.pwr.partPower elem))))
  | 0x0020 => some (.num (domCode (domOf s elem)))
  | 0x0032 => some (.num (frac16 s.pwr.waitFrac))
  | 0x0040 => some (.blob (s.pwr.suspects.flatMap suspectBytes))
  | _ => none

/-- R427: the coolant flow asked for, in 0.1 L/min: 20 already at reset, where Table 13.17 gives 0. DESIGN CHOICE, log entry 87. -/
def coolant (s : State) : Nat :=
  bif Config.profileIsL then
    (if warned s then 50 else if avg10 s ≤ 1500 then 20 else if 4000 ≤ avg10 s then 40 else 20 + 20 * (avg10 s - 1500) / 2500)
  else 0

/-- Table 13.17: the thermal objects. thermal.sensors is 1,344 readings and 15 of the other dies, all 0 before a first sample;
thermal.coolant_request follows R427 from reset. DESIGN CHOICE, log entry 87. -/
def thermalVal (s : State) (idx : Nat) : Option ObjVal :=
  match idx with
  | 1 => some (.num (min 255 (hottest s).2))
  | 2 =>
    some (.blob (padTo 1344 (s.pwr.temps.map (fun t => BitVec.ofNat 8 (min 255 t))) ++
      padTo 15 (s.pwr.otherTemps.map (fun t => BitVec.ofNat 8 (min 255 t)))))
  | 5 => some (.num 110)
  | 6 => some (.num (coolant s))
  | _ => none

def auxVal (s : State) (idx elem : Nat) : Option ObjVal :=
  match idx with
  | 1 => some (.num (bit (s.auxCh elem).en 0))
  | 2 => some (.num (s.auxCh elem).st)
  | 4 => some (.num (if (s.auxCh elem).st = 1 ∨ (s.auxCh elem).st = 2 then Config.auxCurrent s.now elem % 65536 else 0))
  | _ => none

def clockVal (s : State) (idx elem : Nat) : Option ObjVal :=
  match idx with
  | 1 => some (.num (s.field elem).step)
  | 2 => some (.num (min 0xFFFFFFFF s.clk.changes))
  | 3 => some (.num (min 0xFFFFFFFF s.clk.cancels))
  | 4 => some (.num (min 0xFFFFFFFF s.clk.misses))
  | 0x10 => some (.num s.echoM.toNat)
  | 0x12 => some (.num s.ech.st)
  | _ => none

def checkResult (s : State) : Bytes :=
  (s.wake.check.gres.flatMap (fun x => natBytes 1 x.1 ++ (padTo 13 (x.2.map (BitVec.ofNat 8))))) ++
    s.wake.check.ures.flatMap (fun x => natBytes 1 (x.1 / 48) ++ natBytes 1 (x.1 % 48) ++ natBytes 1 x.2)

def fieldVal (s : State) (idx : Nat) : Option ObjVal :=
  match idx with
  | 1 => some (.num (liveSurvey s).length)
  | 2 => some (.blob ((liveSurvey s).flatMap surveyBytes))
  | 3 => some (.num (if s.survey.full then 2 else if s.survey.compacting then 1 else 0))
  | 0x10 => some (.blob ((List.range 96).flatMap (fun g => natBytes 4 (gmapWord (s.grp g)))))
  | 0x31 => some (.num s.wake.check.st)
  | 0x32 => some (.blob (checkResult s))
  | _ => none

def partVal (s : State) (idx p : Nat) : Option ObjVal :=
  match idx with
  | 1 => some (.num (allocBits s 0x0001 96 p))
  | 2 => some (.num (if (s.part p).resetting then 2 else if partExists s p then 1 else 0))
  | 3 => some (.num ((faultCoreOf s p).getD 0))
  | 6 => some (.num (bit (s.part p).hOperator 0))
  | 7 => some (.num (if haltBitOf s p then (if (s.part p).halted then 2 else 1) else 0))
  | 0x30 => some (.num (allocBits s 0x0030 64 p))
  | 0x31 => some (.num (allocBits s 0x0031 192 p))
  | 0x40 => some (.num (allocBits s 0x0040 768 p))
  | _ => none

/-- link.route_next: by default the device's own ID is KIND 2. -/
def routeBytes (s : State) : Bytes :=
  match mfind s.cfg (objKey 0x50 0x0004 0) with
  | some (.blob b) => b
  | _ => (List.range 16384).flatMap (fun i => natBytes 4 (if i = cfgNum s 0x50 0x0001 0 0 then 2 ^ 31 + 2 * 2 ^ 29 else 0))

def linkVal (s : State) (idx elem : Nat) : Option ObjVal :=
  match idx with
  | 0x0002 => some (.num s.links.epoch.toNat)
  | 0x0004 => some (.blob (routeBytes s))
  | 0x0102 => some (.num (portStCode (s.port elem).st))
  | 0x0106 =>
    some (.blob (match (s.port elem).module with
      | none => []
      | some m => m.ident))
  | _ => none

/-- memory.retired_pages. -/
def pageList (s : State) : Bytes :=
  (List.range 16).flatMap (fun st =>
    let a (pg : Nat) : Bytes := natBytes 8 (hbmBase + stackSize * st + 4096 * pg)
    ((s.stack st).retired.flatMap (fun pg => a pg ++ natBytes 1 0)) ++ (s.stack st).cands.flatMap (fun pg => a pg ++ natBytes 1 1))

def stackCode : StackSt → Nat
  | .off => 0
  | .training => 1
  | .ready => 2
  | .retired => 3

def memoryVal (s : State) (idx elem : Nat) : Option ObjVal :=
  match idx with
  | 1 => some (.num (stackCode (s.stack elem).st))
  | 5 => some (.blob (pageList s))
  | _ => none

def hostVal (s : State) (idx elem : Nat) : Option ObjVal :=
  match idx with
  | 1 => some (.blob (natBytes 4 (hifLink (s.host elem))))
  | 4 => some (.num (min 0xFFFFFFFF (((List.range 17).map (fun f => ((s.host elem).fn f).drop)).sum)))
  | _ => none

def errorVal (s : State) (idx : Nat) (guest : Option Nat) : Option ObjVal :=
  match idx with
  | 1 => some (.blob ((logFor s guest).flatMap recordBytes))
  | 2 =>
    some (.blob ([0, 1, 2, 3].flatMap (fun c => natBytes 8 (mget 0 s.totals c)) ++
      [0, 1, 2, 3].flatMap (fun c => natBytes 8 (mget 0 s.totalsCold c))))
  | 3 => some (.num s.mgmt.alertAcked)
  | 5 => some (.num s.lastSeq)
  | 6 => some (.num s.mgmt.torn)
  | _ => none

def counterVal (s : State) (idx elem : Nat) (guest : Option Nat) : Option ObjVal :=
  match idx with
  | 0x0001 => some (.num s.cntUnmapped)
  | 0x0002 => some (.num s.cntDenied)
  | 0x0003 => some (.num s.cntSize)
  | 0x0004 => some (.num s.cntMcDepth)
  | 0x0010 => some (.num (mget 0 s.partUnmapped elem))
  | 0x0110 => some (.blob (countsOf s ((List.range 12).flatMap (fun n => (List.range 104).map (routerBlk n))) guest))
  | 0x0111 => some (.blob (countsOf s ((List.range 40).map portBlk) guest))
  | 0x0112 => some (.blob (countsOf s ((List.range 16).map stackBlk) guest))
  | _ => none

def firmwareVal (s : State) (idx elem : Nat) : Option ObjVal :=
  match idx with
  | 1 => some (.num s.fw.active)
  | 2 => some (.num (mget 0 s.fw.banks elem))
  | 3 => some (.blob (bankHeader s elem))
  | 8 => some (.num s.fw.upd)
  | 9 => some (.num s.fw.trials)
  | 10 => some (.blob ((List.range 8).flatMap (fun i => natBytes 4 (svnCount s i))))
  | 12 =>
    some (.blob (match s.fw.last with
      | none => []
      | some (st, b, k, t) => natBytes 1 st ++ natBytes 1 b ++ natBytes 1 k ++ natBytes 1 0 ++ natBytes 8 t.toNat))
  | 13 => some (.num (bit s.fw.recovery 0))
  | 14 => some (.num s.fw.gate)
  | 15 => some (.blob (natBytes 4 (lanternVersion s) ++ natBytes 4 (headerVersion s s.fw.runC)))
  | _ => none

/-- security.slots: 52 B for each slot. -/
def enrolBytes (s : State) (k : Nat) : Bytes :=
  match mfind s.mgmt.slots k with
  | none => natBytes 52 0
  | some e => natBytes 1 1 ++ natBytes 1 e.cls ++ natBytes 1 e.part ++ natBytes 1 0 ++ padTo 48 e.root

def sessionBytes (x : Nat × Session) : Bytes :=
  natBytes 4 x.1 ++ natBytes 1 (transportCode x.2.tr) ++ natBytes 1 x.2.cls ++ natBytes 1 x.2.part ++
    natBytes 1 (x.2.ver.getD 0) ++ natBytes 8 x.2.opened.toNat

def securityVal (s : State) (idx : Nat) : Option ObjVal :=
  match idx with
  | 0x01 => some (.num (bit s.mgmt.claimed 0))
  | 0x02 => some (.blob ((List.range 16).flatMap (enrolBytes s)))
  | 0x08 => some (.blob (s.sessions.flatMap sessionBytes))
  | 0x09 => some (.num (min 0xFFFFFFFF s.mgmt.malformed))
  | 0x0A => some (.num (min 0xFFFFFFFF s.mgmt.tagFailures))
  | 0x16 => some (.num (min 0xFFFFFFFF s.mgmt.filtered))
  | _ => none

/-! ### Defaults of RW objects -/

def defaultNum (area idx elem : Nat) : Nat :=
  match area with
  | 0x02 => if idx = 8 ∨ idx = 9 then 1 else 0
  | 0x10 =>
    if idx = 1 then Config.inputCeiling else if idx = 6 then (bif Config.profileIsL then 1 else 0)
    else if idx = 8 then Config.nominalStep else if idx = 0x31 then 1200 else 0
  | 0x11 => if idx = 3 then 95 else if idx = 4 then 100 else 0
  | 0x12 =>
    if idx = 6 then 120 else if idx = 7 then 1000 else if idx = 8 then 0x30 else if idx = 9 then elem - 3 else 0
  | 0x20 => if idx = 0x11 then 1 else 0
  | 0x40 => if idx = 4 then 3 else if idx = 8 then 1 else if idx = 0x20 then 16 else 0
  | 0x50 =>
    match idx with
    | 0x0010 => 10
    | 0x0011 => 2000
    | 0x0012 => 16
    | 0x0013 => 32
    | 0x0014 => 10000
    | 0x0015 => 1000
    | 0x0016 => 16
    | 0x0101 => 0xFF
    | 0x0200 => 0xFF
    | 0x0301 => 48879
    | 0x0302 => 100
    | _ => 0
  | 0x60 => if idx = 2 then rateDefault else if idx = 3 then 24 else if idx = 4 then 2 else 0
  | 0x70 => if idx = 2 then 1 else if idx = 3 then 0x1FFFF else 0
  | 0xB0 => if idx = 5 ∨ idx = 6 ∨ idx = 0x10 then 1 else if idx = 7 then 300 else if idx = 0x14 then 46080 else 0
  | _ => 0

def defaultBlob (area idx : Nat) : Bytes :=
  if area = 0x90 then natBytes (if idx = 0x100 then 16 else 32) 0
  else if area = 0x50 ∧ idx = 0x0105 then natBytes 4 0x3FFF0000
  else []

def isBytes (t : ObjType) : Bool :=
  match t with
  | .str => true
  | .blob => true
  | _ => false

/-- The value of an object that the configuration holds. -/
def cfgVal (s : State) (d : ObjDesc) (a : ObjAddr) : ObjVal :=
  match mfind s.cfg (objKey a.area a.idx a.elem) with
  | some v => v
  | none => if isBytes d.ty then .blob (defaultBlob a.area a.idx) else .num (defaultNum a.area a.idx a.elem)

/-- The value of an object as a session of GUEST partition `guest`, or of another class, reads it. -/
def objVal (s : State) (guest : Option Nat) (d : ObjDesc) (a : ObjAddr) : ObjVal :=
  let live : Option ObjVal :=
    match a.area with
    | 0x01 => identityVal a.idx
    | 0x02 => stateVal s a.idx
    | 0x10 => powerVal s a.idx a.elem
    | 0x11 => thermalVal s a.idx
    | 0x12 => auxVal s a.idx a.elem
    | 0x20 => clockVal s a.idx a.elem
    | 0x30 => fieldVal s a.idx
    | 0x40 => partVal s a.idx a.elem
    | 0x50 => linkVal s a.idx a.elem
    | 0x60 => memoryVal s a.idx a.elem
    | 0x70 => hostVal s a.idx a.elem
    | 0x80 => errorVal s a.idx guest
    | 0x90 => counterVal s a.idx a.elem guest
    | 0xA0 => firmwareVal s a.idx a.elem
    | 0xB0 => securityVal s a.idx
    | _ => none
  live.getD (cfgVal s d a)

end Sys2Proof.Machine
end

