-- ==== Sys2Proof/Machine/Settings.lean ====
section
/-!
DEFINITION. What a SET of each object checks beside its type and range, and what it does when it is applied (R434, R466, R500, R503,
R514, R534, and the rules that the objects name).
-/

namespace Sys2Proof.Machine

/-! ### Status codes (Table 16.7) -/

abbrev stOk : Nat := 0
abbrev stPending : Nat := 1
abbrev stUnknown : Nat := 2
abbrev stType : Nat := 3
abbrev stRange : Nat := 4
abbrev stDenied : Nat := 5
abbrev stState : Nat := 6
abbrev stBusy : Nat := 7
abbrev stRefused : Nat := 8
abbrev stWrongOp : Nat := 9
abbrev stNotApplied : Nat := 0x0A
abbrev stMalformed : Nat := 0x0B
abbrev stVersion : Nat := 0x0C
abbrev stSession : Nat := 0x0D
abbrev stSequence : Nat := 0x0E
abbrev stTooBig : Nat := 0x0F
abbrev stChanged : Nat := 0x10
abbrev stUnavailable : Nat := 0x11

/-- A refusal where a condition fails. -/
def need (ok : Bool) (st : Nat) : Nat := if ok then stOk else st

/-! ### Allocations (R256, R329, R366, R367) -/

/-- Whether a number in `v` is one that another partition's object also holds. -/
def doubled (wants : Nat → Nat → Bool) (n p v : Nat) : Bool :=
  (List.range n).any (fun i => v.testBit i && (List.range 16).any (fun q => q != p && wants q i))

/-- R366, R367: partition `p` is given the groups `v`, and each partition those that `w` says. Unowned groups join at once; one that
leaves, or that another partition still owns, waits. -/
def groupsRule (s : State) (w : Nat → Nat → Bool) (p v : Nat) : Nat :=
  if doubled w 96 p v then stRefused
  else if (List.range 96).any (fun g =>
    ((s.grp g).part == some p && !v.testBit g) || (v.testBit g && (s.grp g).part != some p && (s.grp g).part.isSome)) then stPending
  else stOk

/-- R256: whether block `b` of channels or locks is in use. -/
def chansBusy (s : State) (b : Nat) : Bool := (List.range 16).any (fun i => mcMembers s (16 * b + i) != [])
def locksBusy (s : State) (b : Nat) : Bool :=
  (List.range 16).any (fun i =>
    let k := s.lock (16 * b + i)
    k.waiters != [] || (match k.st with
      | .held _ => true
      | .free => false
      | .abandoned => false))

/-- The blocks of partition `p` that a SET to `v` removes. -/
def removed (owner : Map (Option Nat)) (n p v : Nat) : List Nat :=
  (List.range n).filter (fun b => mget (some 0) owner b == some p && !v.testBit b)

/-- R256: whether a SET to `v` waits for the reset of partition `p`: it removes a block in use, beside those in `due`, whose removal
waits already. -/
def blocksWait (owner : Map (Option Nat)) (due : List Nat) (busy : Nat → Bool) (n p v : Nat) : Bool :=
  (removed owner n p v).any (fun b => busy b && !due.contains b)

/-- R256: partition `p` is given the blocks `v`; `owner` says who has a block in effect, `busy` which are in use and `due` which wait. -/
def blocksRule (wants : Nat → Nat → Bool) (owner : Map (Option Nat)) (due : List Nat) (busy : Nat → Bool) (n p v : Nat) : Nat :=
  if doubled wants n p v then stRefused
  else if blocksWait owner due busy n p v || (removed owner n p v).any due.contains ||
    (List.range n).any (fun b => v.testBit b && mget (some 0) owner b != some p && (mget (some 0) owner b).isSome) then stPending
  else stOk

/-- R256: the owners of blocks, and those whose removal waits, after a SET of partition `p` to `v`: a SET that removes a block in use
takes effect at the partition's reset, any other at once. DEDUCED, log entry 74. -/
def blocksNow (wants : Nat → Nat → Bool) (owner : Map (Option Nat)) (due : List Nat) (busy : Nat → Bool) (n p v : Nat) :
    Map (Option Nat) × List Nat :=
  if blocksWait owner due busy n p v then (owner, (due ++ removed owner n p v).dedup)
  else
    let due := due.filter (fun b => !v.testBit b)
    ((List.range n).foldl (fun m b =>
      let o := mget (some 0) m b
      if o == some p && !v.testBit b && !due.contains b then mset m b (wantedBy wants b)
      else if o == none && v.testBit b then mset m b (some p)
      else m) owner, due)

/-- R329: partition `q` owns whole rows alone, by the units `w` that each partition's object holds. -/
def wholeRows (w : Nat → Nat → Bool) (q : Nat) : Bool :=
  (List.range 48).all (fun j =>
    let n := ((List.range 16).filter (fun i => w q (48 * i + j))).length
    n == 0 || n == 16)

/-- R329: the units and the spread of each partition are to be those that `t` holds; those of partition `p` change. -/
def unitsRule (t : State) (p : Nat) : Nat :=
  if doubled (wantsUnit t) 768 p (allocBits t 0x0040 768 p) then stRefused
  else if (List.range 16).any (fun q => cfgNum t 0x40 0x0041 q 0 == 1 && !wholeRows (wantsUnit t) q) then stRefused
  else stPending

/-- The groups of a SET of partition `p` that no partition owns join it (R367), cleared, unless its reset holds them.
DEDUCED, log entry 74. -/
def groupsNow (s : State) (p v : Nat) : State :=
  (List.range 96).foldl (fun s g =>
    if v.testBit g && (s.grp g).part == none then
      joinPartition (resetGroup (modGrp s g (fun k => { k with part := some p })) g true) g
    else s) s

/-! ### Links (R302, R307, R317) -/

def portMode (s : State) (p : Nat) : Nat := cfgNum s 0x50 0x0100 p 0
def portBundle (s : State) (p : Nat) : Nat := cfgNum s 0x50 0x0101 p 0xFF

/-- R302: a bundle holds ports of one mode. A disabled port has none. -/
def oneMode (s : State) (p mode bundle : Nat) : Bool :=
  mode == 2 || decide (16 ≤ bundle) ||
    (List.range 40).all (fun q => q == p || portBundle s q != bundle || portMode s q == 2 || portMode s q == mode)

/-- link.torus (R307): empty, or sizes of 1 to 32 with a product of at most 16,384 and six bundles. -/
def torusOk (b : Bytes) : Bool :=
  let d (i : Nat) : Nat := byteNat b i
  b == [] ||
    (b.length == 11 && [2, 3, 4].all (fun i => decide (1 ≤ d i) && decide (d i ≤ 32)) && decide (d 2 * d 3 * d 4 ≤ 16384) &&
      [5, 6, 7, 8, 9, 10].all (fun i => decide (d i < 16)))

/-- R317: whether key slot `k` of bundle `b` is the one in use. DEDUCED, log entry 54. -/
def keyInUse (s : State) (b k : Nat) : Bool :=
  cfgNum s 0x50 0x0201 b 0 == 1 && mget false s.links.keyUse b == (k == 1) && (mfind s.links.keys (2 * b + k)).isSome

/-! ### Chapter rules of a SET -/

/-- What its chapter asks of a number set to an object; `t` holds the allocations of the whole SET (R256, R329, R366). -/
def numRule (s t : State) (a : ObjAddr) (v : Nat) : Nat :=
  let p := a.elem
  match a.area with
  | 0x02 =>
    if a.idx = 7 then
      (if v = 0 then stOk
       else if s.dev ≠ .ready ∧ s.dev ≠ .degraded then stState
       else if s.launches ≠ [] then stBusy
       else stOk)
    else stOk
  | 0x10 =>
    if a.idx = 0x10 then need (v == 0 || decide (100 ≤ v)) stRange
    else if a.idx = 0x31 then need (decide (v ≤ moduleLimit s)) stRange
    else stOk
  | 0x11 => if a.idx = 4 then need (decide (warnAt s ≤ v)) stRange else stOk
  | 0x12 =>
    if a.idx = 5 ∨ a.idx = 6 ∨ a.idx = 7 then need (decide (p < 4)) stRefused
    else if a.idx = 9 then need (decide (4 ≤ p)) stRefused
    else stOk
  | 0x40 =>
    match a.idx with
    | 0x01 => groupsRule s (wantsGroup t) p v
    | 0x03 => need (present s v && partOf s v == some p) stRefused
    | 0x30 => blocksRule (wantsChans t) s.chanOwner (s.part p).chansDue (chansBusy s) 64 p v
    | 0x31 => blocksRule (wantsLocks t) s.lockOwner (s.part p).locksDue (locksBusy s) 192 p v
    | 0x40 => unitsRule t p
    | 0x41 => unitsRule t p
    | _ => stOk
  | 0x50 =>
    match a.idx with
    | 0x0100 => need (oneMode s p v (portBundle s p)) stRefused
    | 0x0101 =>
      if 16 ≤ v ∧ v ≠ 0xFF then stRange else need (oneMode s p (portMode s p) v) stRefused
    | 0x0200 => need (decide (v < 16) || v == 0xFF) stRange
    | _ => stOk
  | _ => stOk

/-- Whether a byte string is a whole number of entries of `n` bytes. -/
def entriesOk (n : Nat) (b : Bytes) : Bool := b.length % n == 0

/-- What its chapter asks of bytes set to an object. -/
def blobRule (s : State) (a : ObjAddr) (b : Bytes) : Nat :=
  match a.area with
  | 0x10 => need (b == [] || b.length == 8) stRange
  | 0x40 => need (entriesOk 8 b) stRange
  | 0x50 =>
    match a.idx with
    | 0x0004 => need (b.length == 65536 && (List.range 16384).all (fun i => bits (leAt b (4 * i) 4) 30 29 != 3)) stRange
    | 0x0005 => need (torusOk b) stRange
    | 0x0202 =>
      if 2 ≤ byteNat b 0 then stRange else need (!keyInUse s a.elem (byteNat b 0)) stRefused
    | 0x0204 => need (b == [] || b.length == 29) stRange
    | 0x0300 => need (entriesOk 24 b) stRange
    | _ => stOk
  | 0xB0 =>
    match a.idx with
    | 0x11 => need (b == [] || b.length == 36) stRange
    | 0x13 => need (b == [] || b.length == 12) stRange
    | 0x15 => need (entriesOk 20 b) stRange
    | 0x17 => need (entriesOk 8 b && (List.range (b.length / 8)).all (fun i => decide (byteNat b (8 * i + 4) ≤ 2))) stRange
    | _ => stOk
  | _ => stOk

/-- Whether an object is one that can be written and read back. -/
def keeps (d : ObjDesc) : Bool :=
  match d.acc with
  | .ro => false
  | .rw _ => true
  | .rws => true
  | .wo _ => false

/-- R366, R256, R329: the state with the allocations that the entries of a SET give: its rules hold of the SET as a whole. -/
def allocsSet (s : State) (es : List ObjEntry) : State :=
  { s with
    cfg := es.foldl (fun m t =>
      if t.addr.area = 0x40 ∧ [0x01, 0x30, 0x31, 0x40, 0x41].contains t.addr.idx then mset m (objKey 0x40 t.addr.idx t.addr.elem) t.val
      else m) s.cfg }

/-- The checks of a SET, in order (R491, R495, R500, R501, R513): 0 OK, 1 PENDING, or the status that refuses it. `block` says that
the value came by SETBLOCK; `t0` holds the allocations of the whole SET. DEDUCED, log entry 72. DEDUCED, log entry 74. -/
def setCheckIn (s t0 : State) (e : Session) (t : ObjEntry) (block : Bool) : Nat :=
  if t.addr.area = 0xF0 then stDenied
  else
    match objAt t.addr with
    | none => stUnknown
    | some d =>
      if d.action then stWrongOp
      else if !mayWrite e d t.addr then stDenied
      else if t.type_ ≠ d.ty.code ∨ !formOk d t.val then stType
      else if isBytes d.ty && (decide (d.hi < valLen d t.val) || (!block && decide (1000 < valLen d t.val))) then stTooBig
      else if !rangeOk d t.val then stRange
      else if d.acc = .rws ∧ s.dev ≠ .standby then stState
      else if keeps d ∧ objVal s none d t.addr = t.val then stOk
      else
        match t.val with
        | .num v => numRule s t0 t.addr v
        | .blob b => blobRule s t.addr b

/-- The check of a SET of one entry. -/
def setCheck (s : State) (e : Session) (t : ObjEntry) (block : Bool) : Nat := setCheckIn s (allocsSet s [t]) e t block

/-! ### What a SET does -/

/-- R464: state.low is set: the DEVICE cause, then HALTED, then RETENTION. -/
def lowSet (s : State) : State := lowEnter (setDeviceCause (modWake s (fun w => { w with low := true })) true)

/-- R464: state.low is cleared: every CG domain returns to ON in waves (R403), and the DEVICE cause clears then. -/
def lowClear (s : State) : State :=
  let s := modWake s (fun w => { w with low := false })
  if s.dev = .low then
    let going (g : Nat) : Bool :=
      domOf s g == .retention || (match mfind s.pwr.trans g with
        | some .retention => true
        | _ => false)
    let gs := (List.range 96).filter going
    let s := modPwr s (fun w => { w with trans := w.trans.filter (fun x => !gs.contains x.1) })
    let s := (List.range 12).foldl (fun s n =>
      modField s n (fun k => { k with powerUp := k.powerUp ++ gs.filter (fun g => g / 8 == n && !k.powerUp.contains g) })) s
    lowLeft s
  else setDeviceCause s false

/-- R425: Decaf mode begins or ends: every field at nominal, lending left, and the brake released. -/
def decafSet (s : State) : State :=
  let s := modPwr s (fun w =>
    { w with
      decafBrake := false
      lent := none })
  schedule ((onFields s).foldl (fun s n =>
    modField s n (fun k =>
      { k with
        target := Config.nominalStep
        partTgt := [] })) s)

/-- link.port_mode or link.port_bundle of port `p` changes LNK_Pi_CTRL; a new mode trains the port or disables it. -/
def portSet (s : State) (p : Nat) (mode : Bool) : State :=
  let s := portConfig s p
  if mode then portChanged s p else s

/-- R316: link.bundle_encrypt of bundle `b` reaches its admitted native ports: one that runs version 1.1 seals its frames or no longer
does; another trains again where they are to be sealed. DEDUCED, log entry 54. -/
def encryptSet (s : State) (b : Nat) (on : Bool) : State :=
  ((List.range 40).filter (fun p => (s.port p).bv && (s.port p).bundle == b && nativeUp s p)).foldl (fun s p =>
    if (s.port p).ver = 2 then modPort s p (fun k => { k with enc := on, keyid := mget false s.links.keyUse b })
    else if on then startTraining s p
    else s) s

/-- memory.rate_limit reaches the stacks: half of it where a temperature has halved the rate (Table 13.7). -/
def rateSet (s : State) (v : Nat) : State :=
  (List.range 16).foldl (fun s i => modStack s i (fun k => { k with rate := if k.throttled then v / 2 else v })) s

/-- The SEL words of a select object go to every block of its kind (R551); a reserved PL leaves the field as it was (R57). -/
def selSet (s : State) (idx : Nat) (b : Bytes) : State :=
  let sel (old : ShSel) (j : Nat) : ShSel :=
    let w := leAt b (4 * j) 4
    { en := w.testBit 31
      edge := w.testBit 30
      pl := if idx = 0x100 then (if bits w 29 28 = 0 then old.pl else bits w 29 28) else 3
      event := w % 256 }
  let blks : List Nat :=
    if idx = 0x100 then (List.range 12).flatMap (fun n => (List.range 104).map (routerBlk n))
    else if idx = 0x101 then (List.range 40).map portBlk
    else (List.range 16).map stackBlk
  blks.foldl (fun s k =>
    { s with
      shared := mset s.shared k { s.blk k with
        sels := (List.range (sharedCounters k)).map (fun j => (j, sel (mget ShSel.reset (s.blk k).sels j) j)) } }) s

/-- R367, Table 11.7: the designated fault core of partition `p` is written to the CORE_FDEST of its cores. -/
def faultCoreSet (s : State) (p : Nat) : State :=
  (coresOf s p).foldl (fun s c =>
    modCtl s c (fun t =>
      { t with
        fdestV := (faultCoreOf s p).isSome
        fdest := (faultCoreOf s p).getD 0 })) s

/-- What follows from a number now held by an object. -/
def numApply (s : State) (a : ObjAddr) (v : Nat) : State :=
  let p := a.elem
  match a.area with
  | 0x02 => if a.idx = 7 then (if v = 1 then lowSet s else lowClear s) else s
  | 0x10 =>
    if a.idx = 1 then modPwr s (fun w => { w with limit := v })
    else if a.idx = 7 then decafSet s
    else if a.idx = 8 then schedule s
    else s
  | 0x12 => auxUpdate (if a.idx = 1 then modAux s p (fun x => { x with en := v == 1 }) else s)
  | 0x20 =>
    if a.idx = 0x11 then sourceSet s v
    else if a.idx = 0x13 then modEch s (fun e => { e with dist := echoDist s })
    else if a.idx = 0x15 then modEch s (fun e => { e with ppsTime := some v })
    else s
  | 0x40 =>
    match a.idx with
    | 0x01 => groupsNow s p v
    | 0x03 => faultCoreSet s p
    | 0x06 => modPart s p (fun k => { k with hOperator := v == 1 })
    | 0x08 => followHalt s p
    | 0x20 =>
      (List.range 12).foldl (fun s n => modMsh s n (fun m => { m with weights := mset m.weights p v })) s
    | 0x30 =>
      let (m, due) := blocksNow (wantsChans s) s.chanOwner (s.part p).chansDue (chansBusy s) 64 p v
      modPart { s with chanOwner := m } p (fun k => { k with chansDue := due })
    | 0x31 =>
      let (m, due) := blocksNow (wantsLocks s) s.lockOwner (s.part p).locksDue (locksBusy s) 192 p v
      modPart { s with lockOwner := m } p (fun k => { k with locksDue := due })
    | _ => s
  | 0x50 =>
    match a.idx with
    | 0x0100 => portSet s p true
    | 0x0101 => portSet s p false
    | 0x0201 => encryptSet s p (v == 1)
    | _ => s
  | 0x60 =>
    if a.idx = 2 then rateSet s v
    else if a.idx = 3 then
      (List.range 16).foldl (fun s i => modStack s i (fun k => scrubSet k v)) s
    else s
  | _ => s

/-- What follows from bytes now held by an object. -/
def blobApply (s : State) (a : ObjAddr) (b : Bytes) : State :=
  if a.area = 0x50 ∧ a.idx = 0x0202 then
    let s := modLinks s (fun l => { l with keys := mset l.keys (2 * a.elem + byteNat b 0) ⟨(b.drop 1).take 32, (b.drop 33).take 4⟩ })
    (List.range 40).foldl (fun s p =>
      if (s.port p).bundle = a.elem then modPort s p (fun k => { k with sealed_ := mset k.sealed_ (byteNat b 0) 0 }) else s) s
  else if a.area = 0x10 then modPwr s (fun w => { w with lent := none })
  else if a.area = 0x90 then selSet s a.idx b
  else s

/-- R515: the management-port settings, whose old values stay in effect for 1 s. -/
def isNet (a : ObjAddr) : Bool := a.area == 0xB0 && decide (0x10 ≤ a.idx) && decide (a.idx ≤ 0x14)

/-- The value of a management-port setting in effect. -/
def netVal (s : State) (idx elem : Nat) : ObjVal :=
  let k := objKey 0xB0 idx elem
  match mfind s.mgmt.netEff k with
  | some v => v
  | none => cfgVal s ⟨0xB0, idx, 2, if idx = 0x11 ∨ idx = 0x13 then .blob else .u16, .ro, 0, 0, false, false, false⟩ ⟨0xB0, idx, elem⟩

def netNum (s : State) (idx elem : Nat) : Nat :=
  match netVal s idx elem with
  | .num n => n
  | .blob _ => 0

def netBlob (s : State) (idx elem : Nat) : Bytes :=
  match netVal s idx elem with
  | .num _ => []
  | .blob b => b

/-- R515: a changed setting waits; the value in effect is kept until MGMT_SETTINGS_APPLY. -/
def netHold (s : State) (a : ObjAddr) : State :=
  let k := objKey a.area a.idx a.elem
  if isNet a ∧ !s.mgmt.netDue.contains k then
    modMgmt s (fun m =>
      { m with
        netDue := m.netDue ++ [k]
        netEff := mset m.netEff k (netVal s a.idx a.elem) })
  else s

/-- A SET that has passed its checks is applied (R500). A value equal to the current one changes nothing. -/
def setApply (s : State) (t : ObjEntry) : State :=
  match objAt t.addr with
  | none => s
  | some d =>
    if keeps d ∧ objVal s none d t.addr = t.val then s
    else
      let s := netHold s t.addr
      let s := if keeps d then { s with cfg := mset s.cfg (objKey t.addr.area t.addr.idx t.addr.elem) t.val } else s
      match t.val with
      | .num v => numApply s t.addr v
      | .blob b => blobApply s t.addr b

end Sys2Proof.Machine
end

