-- ==== Sys2Proof/Machine/ActOps.lean ====
section
/-!
DEFINITION. The actions of the object dictionary (R501, R504): for each, what refuses it, and what it does.
-/

namespace Sys2Proof.Machine

/-! ### Starts and resets (R438, R444, R445, R448 to R450, R452) -/

/-- R438, R444: a cold start can begin; from HELD only by state.release. DEDUCED, log entry 75. -/
def coldRule (s : State) : Nat := need (canCold s) stRefused

/-- R443, R446: a warm start during a start is BUSY; where it would become a cold one, that must be possible. -/
def warmRule (s : State) : Nat :=
  if s.wake.start.isSome then stBusy else need (!warmTurnsCold s || canCold s) stRefused

/-- Whether the device is in a state in which a reset of its compute part means something, or a higher one absorbs it (R453). -/
def serves (s : State) : Bool :=
  match s.dev with
  | .off => false
  | .standby => false
  | .held => false
  | .waking => true
  | .ready => true
  | .degraded => true
  | .low => true
  | .faulted => true

def releaseRule (s : State) : Nat := need (s.dev == .held && s.pwr.vin) stRefused

/-- R444: state.release sets the count to 2 and begins one cold start. -/
def actRelease (s : State) : State := coldStart (modWake s (fun w => { w with failedStarts := 2 })) true

/-- R450, R466: a core reset names a core that is present; a GUEST one of its own partition. -/
def coreResetRule (s : State) (e : Session) (c : Nat) : Nat :=
  if e.cls = 3 ∧ partOf s c ≠ some e.part then stDenied else need (serves s && present s c) stRefused

/-- R450: core `c` is reset and keeps its scratchpad. A reset of a higher rank in progress absorbs it (R453). -/
def actCoreReset (s : State) (c : Nat) : State :=
  let g := groupOf c
  if (s.grp g).rst || (s.grp g).remap.isSome || (s.grp g).check || s.wake.compute || s.wake.start.isSome then s
  else resetCore s c false

def failCoreRule (s : State) (c : Nat) : Nat := need (present s c) stRefused

/-- R459: an ADMIN declares core `c` failed. -/
def actFailCore (s : State) (c : Nat) : State := failCore s c 4 false 0

/-! ### Field checks (R478 to R480) -/

def checkGroups (b : Bytes) : List Nat := (List.range 96).filter (fun g => (leAt b 0 12).testBit g)
def checkForce (b : Bytes) : Bool := (leAt b 12 1).testBit 0
def checkUnits (b : Bytes) : List Nat :=
  if (leAt b 12 1).testBit 1 then (List.range 768).filter (fun u => (leAt b 16 96).testBit u) else []

/-- R344: whether HBM unit `u` is absent. -/
def unitAbsent (s : State) (u : Nat) : Bool := (s.stack (u / 48)).st != .ready

/-- R478. DEDUCED, log entry 68. -/
def checkRule (s : State) (e : Session) (b : Bytes) : Nat :=
  let gs := checkGroups b
  let us := checkUnits b
  let busyCore (c : Nat) : Bool := (s.core c).ctl.st == .running || (s.core c).ctl.st == .ending
  if b.length ≠ 112 then stRange
  else if s.wake.check.st = 1 ∨ (s.dev ≠ .ready ∧ s.dev ≠ .degraded) then stBusy
  else if gs.any (fun g => !grpPresent s g || (s.grp g).remap.isSome) || us.any (unitAbsent s) then stRefused
  else if e.cls = 3 ∧ (gs.any (fun g => (s.grp g).part != some e.part) || us.any (fun u => unitOwner s u != some e.part)) then
    stDenied
  else if !checkForce b &&
    (gs.any (fun g => (groupCores g).any busyCore) ||
      us.any (fun u => (unitOwner s u).any (fun p => s.launches.any (fun l => l.part == p)))) then stBusy
  else stOk

/-- R478, R479: a field check begins; with nothing named it ends at once. DEDUCED, log entry 68. -/
def actCheck (s : State) (b : Bytes) : State :=
  let s := modWake s (fun w =>
    { w with
      check :=
        { st := 1
          groups := checkGroups b
          units := checkUnits b
          gres := []
          ures := [] } })
  checkEnd (checkNext s)

/-! ### The Survey, memory and Echo -/

/-- R46: an entry that is live and not from the factory may be revoked. -/
def revokeRule (s : State) (b : Bytes) : Nat :=
  if b.length ≠ 4 then stRange
  else need ((liveSurvey s).any (fun e => e.seq == leAt b 0 4 && e.source != 0)) stRefused

def actRevoke (s : State) (b : Bytes) : State :=
  { s with
    survey := { s.survey with
      revoked := if s.survey.revoked.contains (leAt b 0 4) then s.survey.revoked else s.survey.revoked ++ [leAt b 0 4] } }

/-- R338: memory.retire names an address of HBM. DEDUCED, log entry 75. -/
def retireRule (b : Bytes) : Nat := if b.length ≠ 8 then stRange else need (isHbm (leAt b 0 8)) stRefused

def actRetire (s : State) (b : Bytes) : State :=
  let x := leAt b 0 8 - hbmBase
  pageCandidate s (x / stackSize) (x % stackSize / 4096) 4 false

/-! ### Links (R289, R290, R308, R317) -/

/-- R308: an advance while a previous table is held, or while one goes on, is BUSY. -/
def epochRule (s : State) : Nat := need (!s.links.prev && !s.links.advancing) stBusy

/-- R308: link.route_next is copied into the table that is not current, of every copy. -/
def actEpoch (s : State) : State :=
  let rt := routeNext s
  let even := s.links.epoch.toNat % 2 == 0
  let t := if even then 1 else 0
  let s := { s with badEntries := s.badEntries.filter (fun x => !(x.kind == 0 && x.entry / 16384 == t)) }
  modLinks s (fun l =>
    { l with
      rt0 := if even then l.rt0 else rt
      rt1 := if even then rt else l.rt1
      rtx := rtxClear l t
      advancing := true })

/-- R289: a port that is DISABLED or EXCLUDED is not reset. DEDUCED, log entry 75. -/
def portResetRule (s : State) (p : Nat) : Nat :=
  need ((s.port p).st != .disabled && (s.port p).st != .excluded) stRefused

def actPortReset (s : State) (p : Nat) : State := portReset s p .sasil

def admitRule (s : State) (p : Nat) : Nat := need ((s.port p).st == .excluded) stRefused

/-- Table 9.2, R287: the operator admits an EXCLUDED port, which trains again. -/
def actAdmit (s : State) (p : Nat) : State := startTraining s p

/-- R317: a switch needs a key in the slot that is not in use. DEDUCED, log entry 54. -/
def keySwitchRule (s : State) (b : Nat) : Nat :=
  let next := if mget false s.links.keyUse b then 0 else 1
  need (mfind s.links.keys (2 * b + next)).isSome stRefused

/-- R317: each admitted native port of the bundle sends a KEY frame for the other slot. DEDUCED, log entry 54. -/
def actKeySwitch (s : State) (b : Nat) : State :=
  let next := !mget false s.links.keyUse b
  ((List.range 40).filter (fun p => (s.port p).bv && (s.port p).bundle == b && nativeUp s p)).foldl (fun s p =>
    let s := modPort s p (fun k => { k with keyWant := some next })
    let (s, g) := stampFrame s p (bareFrame 5 (s.port p).txSeq)
    sendFrame s p { g with keyid := next }) s

/-! ### Power (R404, R429) -/

def domainRule (s : State) (d v : Nat) : Nat := need (switchDomain s d v).isSome stRefused
def actDomain (s : State) (d v : Nat) : State := lowLeft (reevaluate ((switchDomain s d v).getD s))

/-- R429: aux.reset clears LATCH and RETRY and starts the channel if it is enabled. -/
def actAuxReset (s : State) (c : Nat) : State :=
  auxUpdate (modAux s c (fun a =>
    { a with
      latch := false
      retry := 0
      st := if a.st = 3 then 0 else a.st }))

/-! ### Errors and counters (R474, R551) -/

/-- R474. -/
def actAlertAck (s : State) (q : Nat) : State := auxUpdate (modMgmt s (fun m => { m with alertAcked := max m.alertAcked q }))

/-- R551: CTL.CLR in every shared block. -/
def actClear (s : State) : State := { s with shared := s.shared.map (fun x => (x.1, clearShared x.2)) }

/-! ### Enrolment (R490, Table 16.10) -/

def enrollRule (s : State) (b : Bytes) : Nat :=
  if b.length < 5 ∨ 16 ≤ byteNat b 0 ∨ 4 ≤ byteNat b 1 ∨ (byteNat b 1 = 3 ∧ 16 ≤ byteNat b 2) then stRange
  else need (mfind s.mgmt.slots (byteNat b 0)).isNone stRefused

/-- The SHA-384 digest of a certificate. -/
def digest (b : Bytes) : Bytes := (List.range 48).map (Config.sha384 b)

/-- R490: a root is enrolled; the first ADMIN slot claims the device. -/
def actEnroll (s : State) (b : Bytes) : State :=
  let s := modMgmt s (fun m =>
    { m with
      slots := mset m.slots (byteNat b 0)
        { cls := byteNat b 1
          part := byteNat b 2
          root := digest (b.drop 4) }
      claimed := m.claimed || byteNat b 1 == 2 })
  raiseEvent s 0x5005 0 0 none [byteNat b 0, byteNat b 1, byteNat b 2]

/-- The last ADMIN slot is not revoked. -/
def slotRule (s : State) (k : Nat) : Nat :=
  match mfind s.mgmt.slots k with
  | none => stOk
  | some e => need (e.cls != 2 || s.mgmt.slots.any (fun x => x.1 != k && x.2.cls == 2)) stRefused

/-- Slot `k` is emptied, and the sessions that it authenticated close (R492). -/
def actSlotRevoke (s : State) (k : Nat) : State :=
  match mfind s.mgmt.slots k with
  | none => s
  | some e =>
    let s := modMgmt s (fun m => { m with slots := mdel m.slots k })
    let s := raiseEvent s 0x5005 0 0 none [k, e.cls, e.part]
    closeSessions s (fun x => x.slot == some k) .enrolment

def actFactory (s : State) : State := modMgmt s (fun m => { m with factoryDue := true })

/-! ### Firmware (R524 to R533) -/

/-- The download target: the bank that is not active; in recovery, where that one is CONFIRMED, the other (R524, R532).
DEDUCED, log entry 69. -/
def targetBank (s : State) : Nat :=
  let b := 1 - s.fw.active
  if s.fw.recovery && mget 0 s.fw.banks b == 4 then s.fw.active else b

/-- Whether a start or compute reset is in progress. -/
def startBusy (s : State) : Bool := s.wake.start.isSome || s.wake.compute

/-- Table 17.5: the kind of an activation of bank `b`: 0 management restart, 1 warm start, 2 cold start. In recovery it is always
the last (R532). -/
def actKind (s : State) (b : Nat) : Nat :=
  if s.fw.recovery || decide (lanternVersion s < leAt (bankHeader s b) 16 4) then 2
  else if (byteNat (bankHeader s b) 7).testBit 0 then 1 else 0

/-- Table 17.5: what refuses an activation of bank `b` with its flags. -/
def kindRule (s : State) (b flags : Nat) : Nat :=
  if startBusy s || s.wake.mgmt && !s.fw.recovery then stBusy
  else if actKind s b = 1 ∧ s.launches ≠ [] ∧ !flags.testBit 0 then stBusy
  else stOk

/-- R525, R526: firmware.activate on a bank that is DOWNLOADED or VERIFIED. DEDUCED, log entry 77. -/
def activateRule (s : State) (b : Bytes) : Nat :=
  let t := targetBank s
  if b.length ≠ 4 then stRange
  else if s.fw.upd ≠ 0 ∧ s.fw.upd ≠ 5 then stBusy
  else if mget 0 s.fw.banks t ≠ 1 ∧ mget 0 s.fw.banks t ≠ 2 then stRefused
  else kindRule s t (byteNat b 0)

/-- R525: verification begins. DEDUCED, log entry 77. -/
def actActivate (s : State) (b : Bytes) : State :=
  modFw s (fun f =>
    { f with
      upd := 2
      act := some (targetBank s, byteNat b 0) })

/-- R526: bank `b` is activated: a trial by its kind of restart, or, for the cold kind without NOW, at the next cold start.
DEDUCED, log entry 77. -/
def activate (s : State) (b flags : Nat) : State :=
  let k := actKind s b
  if k = 2 ∧ !flags.testBit 1 then
    modFw s (fun f =>
      { f with
        upd := 5
        act := some (b, flags) })
  else restartKind (trialBegin s b k) k

/-- R525: the first check that an image fails, 0 for none. The signature and the digests are as Lantern finds them. -/
def imageCheck (s : State) (b : Nat) (sigOk digOk : Bool) : Nat :=
  let h := bankHeader s b
  let key := byteNat h 6
  if leAt h 0 4 ≠ leAt (strBytes "IXFW") 0 4 ∨ leAt h 4 2 ≠ 0x0100 then 1
  else if 2 ≤ key ∨ (key = 0 ∧ s.fw.revoked0) ∨ !sigOk then 2
  else if !digOk ∨ leAt h 24 4 = 0 ∨ 262144 < leAt h 24 4 ∨ 25165824 < leAt h 28 4 ∨ 7340032 < leAt h 32 4 then 3
  else if byteNat h 20 ≠ 0xB0 ∨ !(byteNat h 21).testBit (bif Config.profileIsL then 0 else 1) then 4
  else if headerSvnL s b < svnCount s 0 ∨ headerSvnC s b < svnCount s 1 then 5
  else 0

/-- R525: verification ends. -/
def verifyEnd (s : State) (sigOk digOk : Bool) : State :=
  match s.fw.act with
  | none => s
  | some (b, flags) =>
    if s.fw.upd ≠ 2 then s
    else
      let k := imageCheck s b sigOk digOk
      if k ≠ 0 then
        fwEvent (modFw s (fun f =>
          { f with
            upd := 0
            act := none
            banks := mset f.banks b 1 })) 3 b k
      else
        let s := fwEvent (modFw s (fun f =>
          { f with
            upd := 0
            act := none
            banks := mset f.banks b 2 })) 2 b 0
        activate s b flags

/-- R527: the trial is confirmed when Carafe has reported health and, with firmware.confirm_mode at 1, an ADMIN has confirmed it. -/
def trialSettle (s : State) : State :=
  if trialOn s ∧ s.fw.healthy ∧ (cfgNum s 0xA0 0x0007 0 0 = 0 ∨ s.fw.adminOk) then confirmTrial s else s

def confirmRule (s : State) : Nat := need (trialOn s) stRefused
def actConfirm (s : State) : State := trialSettle (modFw s (fun f => { f with adminOk := true }))

/-- R527: whether the conditions of a report of health hold, beside those that it brings: the field controllers report and Sasil
has answered a request. -/
def healthOk (s : State) : Bool :=
  trialOn s && !s.wake.mgmt && (s.dev == .ready || s.dev == .degraded) && (degradedBy s &&& (15 - s.fw.degr % 16)) == 0

/-- R533. -/
def revertRule (s : State) : Nat :=
  let b := 1 - s.fw.active
  if s.fw.upd ≠ 0 ∨ (mget 0 s.fw.banks b ≠ 2 ∧ mget 0 s.fw.banks b ≠ 4) then stRefused else kindRule s b 0

def actRevert (s : State) : State := activate s (1 - s.fw.active) 0

/-! ### Every action by its address -/

/-- What refuses an action of value `v` by session `e`, 0 where nothing does. -/
def actRule (s : State) (e : Session) (a : ObjAddr) (v : ObjVal) : Nat :=
  let n : Nat := match v with
    | .num n => n
    | .blob _ => 0
  let b : Bytes := match v with
    | .num _ => []
    | .blob b => b
  match a.area, a.idx with
  | 0x02, 0x0003 => coldRule s
  | 0x02, 0x0004 => warmRule s
  | 0x02, 0x0005 => need (serves s) stRefused
  | 0x02, 0x000B => releaseRule s
  | 0x10, 0x0021 => domainRule s a.elem n
  | 0x30, 0x0004 => revokeRule s b
  | 0x30, 0x0020 => coreResetRule s e n
  | 0x30, 0x0021 => failCoreRule s n
  | 0x30, 0x0030 => checkRule s e b
  | 0x40, 0x0005 => need (serves s) stRefused
  | 0x50, 0x0003 => epochRule s
  | 0x50, 0x0103 => portResetRule s a.elem
  | 0x50, 0x0104 => admitRule s a.elem
  | 0x50, 0x0203 => keySwitchRule s a.elem
  | 0x60, 0x0006 => retireRule b
  | 0xA0, 0x0005 => activateRule s b
  | 0xA0, 0x0006 => confirmRule s
  | 0xA0, 0x000B => revertRule s
  | 0xB0, 0x0003 => enrollRule s b
  | 0xB0, 0x0004 => slotRule s a.elem
  | _, _ => stOk

/-- What an action does. -/
def actRun (s : State) (a : ObjAddr) (v : ObjVal) : State :=
  let n : Nat := match v with
    | .num n => n
    | .blob _ => 0
  let b : Bytes := match v with
    | .num _ => []
    | .blob b => b
  match a.area, a.idx with
  | 0x02, 0x0003 => coldStart s false
  | 0x02, 0x0004 => warmStart s
  | 0x02, 0x0005 => beginComputeReset s
  | 0x02, 0x0006 => mgmtRestart s
  | 0x02, 0x000B => actRelease s
  | 0x10, 0x0021 => actDomain s a.elem n
  | 0x12, 0x0003 => actAuxReset s a.elem
  | 0x20, 0x0014 => resync s
  | 0x30, 0x0004 => actRevoke s b
  | 0x30, 0x0020 => actCoreReset s n
  | 0x30, 0x0021 => actFailCore s n
  | 0x30, 0x0030 => actCheck s b
  | 0x40, 0x0005 => beginPartReset s a.elem
  | 0x50, 0x0003 => actEpoch s
  | 0x50, 0x0103 => actPortReset s a.elem
  | 0x50, 0x0104 => actAdmit s a.elem
  | 0x50, 0x0203 => actKeySwitch s a.elem
  | 0x60, 0x0006 => actRetire s b
  | 0x80, 0x0004 => actAlertAck s n
  | 0x90, 0x0120 => actClear s
  | 0xA0, 0x0005 => actActivate s b
  | 0xA0, 0x0006 => actConfirm s
  | 0xA0, 0x000B => actRevert s
  | 0xB0, 0x0003 => actEnroll s b
  | 0xB0, 0x0004 => actSlotRevoke s a.elem
  | 0xB0, 0x000B => actFactory s
  | _, _ => s

/-- The checks of an ACTION, in order (R491, R495, R501, R504, R513). DEDUCED, log entry 72. -/
def actCheckAll (s : State) (e : Session) (t : ObjEntry) : Nat :=
  if t.addr.area = 0xF0 then stDenied
  else
    match objAt t.addr with
    | none => stUnknown
    | some d =>
      if !d.action then stWrongOp
      else if !mayWrite e d t.addr then stDenied
      else if t.type_ ≠ d.ty.code ∨ !formOk d t.val then stType
      else if isBytes d.ty && decide (d.hi < valLen d t.val) then stTooBig
      else if !rangeOk d t.val then stRange
      else actRule s e t.addr t.val

/-- R505: the kind of the completion that an action waits for, as Ops.endAsync numbers them; one that a start or compute reset
absorbs waits for that (R453). -/
def asyncKind (s : State) (a : ObjAddr) : Option Nat :=
  match a.area, a.idx with
  | 0x02, 0x0003 => some 1
  | 0x02, 0x0004 => some 2
  | 0x02, 0x0005 => some 3
  | 0x30, 0x0030 => some 4
  | 0x50, 0x0003 => some 5
  | 0x40, 0x0005 => some (if s.wake.start.isSome ∨ s.wake.compute then 3 else 16 + a.elem)
  | _, _ => none

end Sys2Proof.Machine
end

