-- ==== Sys2Proof/Machine/SasilOps.lean ====
section
/-!
DEFINITION. Sasil: sessions and classes, messages and their replies, requests in order, and subscriptions (R484 to R511).
-/

namespace Sys2Proof.Machine

/-! ### Where Sasil is served (R484, R532) -/

/-- Whether a session or request on a transport is served: not in cold-start stages 1 to 3 nor in a management restart; in recovery
over MCTP and the PF mailboxes alone. -/
def servedOn (s : State) (tr : Transport) : Bool :=
  let early : Bool := match s.wake.start with
    | some r => !r.warm && decide (s.stage ≤ 3)
    | none => false
  s.dev != .off && !early &&
    (if s.fw.recovery then
      (match tr with
        | .eth _ => false
        | .mctp => true
        | .mbx _ f => f == 0
        | .peer _ => false)
     else !s.wake.mgmt)

/-- Whether a mailbox answers at all: its endpoint's link is up, and host.mailbox_enable names its function. -/
def mbxAlive (s : State) (h f : Nat) : Bool := (s.host h).up && decide (f < 17)
def mbxEnabled (s : State) (h f : Nat) : Bool := (cfgNum s 0x70 0x0003 h 0x1FFFF).testBit f

/-! ### Messages (R493 to R496) -/

/-- A byte string padded with 0x00 to a multiple of 4 (R494). -/
def pad4 (b : Bytes) : Bytes := padTo ((b.length + 3) / 4 * 4) b

def addrBytes (a : ObjAddr) : Bytes := natBytes 1 a.area ++ natBytes 2 a.idx ++ natBytes 1 a.elem

/-- An object entry (R494). -/
def entryBytes (a : ObjAddr) (code status : Nat) (v : Bytes) : Bytes :=
  addrBytes a ++ natBytes 1 code ++ natBytes 1 status ++ natBytes 2 v.length ++ pad4 v

/-- The length of a value of a type code, none where it varies (Table 16.6). -/
def typeLen (code : Nat) : Option Nat :=
  match code with
  | 0x01 => some 1
  | 0x02 => some 1
  | 0x03 => some 2
  | 0x04 => some 4
  | 0x05 => some 8
  | 0x06 => some 1
  | 0x07 => some 2
  | 0x08 => some 4
  | 0x09 => some 8
  | 0x0A => some 4
  | 0x0B => some 8
  | 0x0C => some 1
  | _ => none

def entryLen (t : ObjEntry) : Nat :=
  8 + (match t.val with
    | .blob b => (b.length + 3) / 4 * 4
    | .num _ =>
      match objAt t.addr with
      | some d => (valLen d t.val + 3) / 4 * 4
      | none => ((typeLen t.type_).getD 0 + 3) / 4 * 4)

/-- LEN of a request. -/
def bodyLen (b : SasilBody) : Nat :=
  match b with
  | .get as => 4 + 4 * as.length
  | .set es => 4 + (es.map entryLen).sum
  | .getblock _ _ _ => 12
  | .setblock _ _ d => 8 + (d.length + 3) / 4 * 4
  | .subscribe r => 12 + (2 * r.codes.length + 3) / 4 * 4
  | .action t => entryLen t
  | .hello _ => 4
  | .close => 0

/-- TYPE of a request (Table 16.5). -/
def bodyType (b : SasilBody) : Nat :=
  match b with
  | .get _ => 1
  | .set _ => 2
  | .getblock _ _ _ => 3
  | .setblock _ _ _ => 4
  | .subscribe _ => 5
  | .action _ => 6
  | .hello _ => 7
  | .close => 8

/-- Table 16.1: the largest Sasil message of a transport. DEDUCED, log entry 73. -/
def maxMsg (tr : Transport) : Nat :=
  match tr with
  | .eth _ => 1152
  | .mctp => 1152
  | .mbx _ _ => 16384
  | .peer _ => 1152

/-- A reply unit is placed in the reply buffer of a mailbox, and DONE is set (R487). -/
def putMbx (s : State) (h f : Nat) (unit : Bytes) : State :=
  modFn s h f (fun k =>
    { k with
      mbx := { k.mbx with
        rsp := unit
        rspLen := unit.length % 32768
        busy := false
        done := true } })

/-- A reply leaves by a transport. A secured one in a mailbox, or to a peer in a MGMT packet (R488), is what DSP0277 makes of it. -/
def sendMsg (s : State) (tr : Transport) (secure : Bool) (m : SasilMsg) : State :=
  match tr with
  | .mbx h f =>
    putMbx s h f (if secure then lead 2 ++ Config.seal m.sid (msgBytes m) else lead 3 ++ msgBytes m)
  | .eth _ => emit s (.mgmt tr m)
  | .mctp => emit s (.mgmt tr m)
  | .peer dev => sendPeer s dev (lead 2 ++ Config.seal m.sid (msgBytes m))

/-- The reply to a request: one longer than its transport carries is TOOBIG (R488, R503). -/
def replyMsg (h : SasilHdr) (type_ sid status : Nat) (body : Bytes) : SasilMsg :=
  let big := decide (maxMsg h.tr < 16 + body.length)
  { ver := h.ver
    type_ := 0x80 + type_
    flags := 0
    seq := h.seq
    status := if big then stTooBig else status
    sid := sid
    body := if big then [] else body }

/-- The header of a request as it was sent. -/
def hdrBytes (h : SasilHdr) (b : SasilBody) : Bytes :=
  natBytes 1 h.ver ++ natBytes 1 (bodyType b) ++ natBytes 1 (bit h.async 0 + bit h.last 1) ++ natBytes 1 0 ++ natBytes 4 h.seq ++
    natBytes 2 (bodyLen b) ++ natBytes 2 0 ++ natBytes 4 h.sid

/-! ### Malformed requests (R509 to R511) -/

/-- R511: a malformed message is counted and recorded; at most 1,000 replies a second. `raw` is its first 16 B.
DEDUCED, log entry 76. -/
def malformed (s : State) (tr : Transport) (raw : Bytes) (reply : State → State) : State :=
  let s := modMgmt s (fun m =>
    { m with
      malformed := m.malformed + 1
      malAt := if s.now < m.malAt + 1000000000 then m.malAt else s.now
      malCount := if s.now < m.malAt + 1000000000 then m.malCount else 0 })
  let s := raiseEvent s 0x5004 0 0 none
    [transportCode tr, leAt raw 0 4, leAt raw 4 4, leAt raw 8 4, leAt raw 12 4]
  if s.mgmt.malCount < 1000 then reply (modMgmt s (fun m => { m with malCount := m.malCount + 1 })) else s

/-- A unit whose lead is not valid is answered in a plain unit with SESSION 0 (R511). DEDUCED, log entry 76. -/
def badUnit (s : State) (tr : Transport) (raw : Bytes) : State :=
  malformed s tr raw (fun s =>
    sendMsg s tr false
      { ver := 0x10
        type_ := 0x80
        flags := 0
        seq := 0
        status := stMalformed
        sid := 0
        body := [] })

/-- R510: a secured message whose tag fails. -/
def tagBad (s : State) (tr : Transport) : State :=
  raiseEvent (modMgmt s (fun m => { m with tagFailures := m.tagFailures + 1 })) 0x5003 0 0 none [transportCode tr, 6]

/-! ### Sessions (R489 to R492) -/

def newSession (s : State) (tr : Transport) (secure : Bool) (cls part : Nat) (slot : Option Nat) : Session :=
  { tr := tr
    secure := secure
    cls := cls
    part := part
    slot := slot
    opened := s.echoM
    ver := none
    next := 1
    replies := []
    held := []
    sub := none
    staging := none
    reading := none
    events := 0
    keyGen := 0 }

/-- A session opens, with event 0x5002; its ID is the next one. -/
def openSession (s : State) (e : Session) : State :=
  let sid := s.mgmt.nextSid
  let s := modMgmt { s with sessions := mset s.sessions sid e } (fun m => { m with nextSid := m.nextSid + 1 })
  sessionEvent s e .opened

/-- Whether a transport has room for one more session (R492). -/
def roomFor (s : State) (tr : Transport) : Bool :=
  let n (p : Transport → Bool) : Nat := (s.sessions.filter (fun x => p x.2.tr)).length
  match tr with
  | .eth _ =>
    decide (n (fun t => match t with
      | .eth _ => true
      | .mctp => false
      | .mbx _ _ => false
      | .peer _ => false) < 16)
  | .mctp => decide (n (fun t => t == .mctp) < 4)
  | .mbx h f => decide (n (fun t => t == .mbx h f) < 1)
  | .peer _ =>
    decide (n (fun t => match t with
      | .eth _ => false
      | .mctp => false
      | .mbx _ _ => false
      | .peer _ => true) < 16)

/-- The class of security.pf_mailbox_class, none where it is 0. -/
def pfClass (s : State) : Option Nat :=
  match cfgNum s 0xB0 0x0006 0 1 with
  | 0 => none
  | n => some n

/-- security.peer_class: the class of a requester device (R488). -/
def peerClass (s : State) (dev : Nat) : Option Nat :=
  let b := cfgBlob s 0xB0 0x0017 0
  ((List.range (b.length / 8)).find? (fun i => decide (leAt b (8 * i) 2 ≤ dev) && decide (dev ≤ leAt b (8 * i + 2) 2))).map
    (fun i => byteNat b (8 * i + 4))

/-- Table 16.4: the class, partition and slot of a session, none where it is refused. -/
def classFor (s : State) (tr : Transport) (auth : Auth) : Option (Nat × Nat × Option Nat) :=
  let slot : Option (Nat × EnrolSlot) := match auth with
    | .none => none
    | .chain r => s.mgmt.slots.find? (fun x => padTo 48 x.2.root == padTo 48 r)
  let ofSlot : Option (Nat × Nat × Option Nat) :=
    slot.map (fun x => (x.2.cls, if x.2.cls = 3 then x.2.part else 0xFF, some x.1))
  let bare : Bool := auth = .none
  match tr with
  | .eth _ => ofSlot
  | .mctp =>
    if !s.mgmt.claimed then some (2, 0xFF, slot.map (·.1))
    else if bare then (if cfgNum s 0xB0 0x0005 0 1 = 1 then some (0, 0xFF, none) else none)
    else ofSlot
  | .mbx _ f =>
    if f = 0 then
      (if !s.mgmt.claimed then some (2, 0xFF, slot.map (·.1))
       else if bare then (pfClass s).map (fun c => (c, 0xFF, none))
       else ofSlot)
    else if bare then some (3, f - 1, none)
    else
      match slot with
      | some x => if x.2.cls = 3 ∧ x.2.part = f - 1 then some (3, f - 1, some x.1) else none
      | none => none
  | .peer dev =>
    match auth with
    | .none => none
    | .chain r =>
      if padTo 48 r = (List.range 48).map Config.ilxaporRoot then (peerClass s dev).map (fun c => (c, 0xFF, none)) else none

/-- R490: a refused session attempt, as event 0x5003 with SPDM error InvalidRequest. -/
def refuseSession (s : State) (tr : Transport) : State := raiseEvent s 0x5003 0 0 none [transportCode tr, 1]

/-! ### SPDM (R489, Tables 16.2, 16.3) -/

def spdmCode (r : SpdmRsp) : Nat :=
  match r with
  | .version => 0
  | .capabilities => 1
  | .algorithms => 2
  | .digests => 3
  | .certificate => 4
  | .keyExchange => 5
  | .finish => 6
  | .challengeAuth => 7
  | .measurements => 8
  | .heartbeatAck => 9
  | .keyUpdateAck => 10
  | .busy => 11
  | .invalid => 12
  | .unexpected => 13

/-- An SPDM response leaves by a transport; in a mailbox, and to a peer in a MGMT packet (R488), as DSP0274 lays it out. -/
def sendSpdm (s : State) (tr : Transport) (r : SpdmRsp) (body : Bytes) : State :=
  match tr with
  | .mbx h f => putMbx s h f (lead 1 ++ Config.spdmWire (spdmCode r) body)
  | .eth _ => emit s (.spdm tr r body)
  | .mctp => emit s (.spdm tr r body)
  | .peer dev => sendPeer s dev (lead 1 ++ Config.spdmWire (spdmCode r) body)

def handDone (s : State) (tr : Transport) : Nat := ((s.mgmt.hands.find? (fun x => x.tr = tr)).map (·.done)).getD 0

def setHand (s : State) (tr : Transport) (n : Nat) : State :=
  modMgmt s (fun m =>
    { m with hands := m.hands.filter (fun x => decide (x.tr ≠ tr)) ++ (if n = 0 then [] else [⟨tr, n⟩]) })

/-- R519: what Lantern signs for, each with an SPDM signing context of its own. -/
inductive SignFor where
  | measurements | challenge | keyExchange
  deriving DecidableEq, Repr

/-- The signing contexts of DSP0274. PRESUMED, log entry 70. -/
def SignFor.context : SignFor → Bytes
  | .measurements => strBytes "responder-measurements signing"
  | .challenge => strBytes "responder-challenge_auth signing"
  | .keyExchange => strBytes "responder-key_exchange_rsp signing"

/-- The signature of the identity key over a context and what is signed (R519). -/
def signature (why : SignFor) (b : Bytes) : Bytes := (List.range 96).map (Config.sign (why.context ++ b))

/-- Table 16.3: one measurement block. -/
def measureBlock (s : State) (i : Nat) : Bytes :=
  match i with
  | 2 => if s.fw.verL.isSome then Config.measured 2 else ((bankHeader s s.fw.runL).drop 48).take 48
  | 3 => ((bankHeader s s.fw.runC).drop 96).take 48
  | 4 => ((bankHeader s s.fw.runC).drop 144).take 48
  | 6 => (List.range 8).flatMap (fun i => natBytes 4 (svnCount s i))
  | 7 =>
    digest (s.mgmt.committed.flatMap (fun x => natBytes 4 x.1 ++ (match x.2 with
      | .num n => natBytes 96 n
      | .blob b => b)))
  | i => Config.measured i

/-- The blocks that an index asks for: 0 their number, 0xFF all. -/
def measureBody (s : State) (idx : Nat) : Option Bytes :=
  if idx = 0 then some (natBytes 1 7)
  else if idx = 0xFF then some ([1, 2, 3, 4, 5, 6, 7].flatMap (measureBlock s))
  else if idx < 8 then some (measureBlock s idx)
  else none

/-- A step of session establishment: number `n` follows number `n` - 1 (R489). PRESUMED, log entry 70. -/
def handStep (s : State) (tr : Transport) (n : Nat) (r : SpdmRsp) (body : Bytes) : State :=
  if n ≤ handDone s tr + 1 then sendSpdm (setHand s tr (max n (handDone s tr))) tr r body
  else sendSpdm s tr .unexpected []

/-- Whether the path has negotiated its algorithms, or carries a session. -/
def negotiated (s : State) (tr : Transport) : Bool := decide (3 ≤ handDone s tr) || s.sessions.any (fun x => x.2.tr = tr)

/-- FINISH: the session takes its class, or is refused (R490). PRESUMED, log entry 70. -/
def spdmFinish (s : State) (tr : Transport) (auth : Auth) : State :=
  if handDone s tr ≠ 6 then sendSpdm s tr .unexpected []
  else
    let s := setHand s tr 0
    if !roomFor s tr then sendSpdm s tr .busy []
    else
      match classFor s tr auth with
      | none => sendSpdm (refuseSession s tr) tr .invalid []
      | some (cls, part, slot) =>
        let sid := s.mgmt.nextSid
        sendSpdm (openSession s (newSession s tr true cls part slot)) tr .finish (natBytes 4 sid)

/-- Whether session `sid` is a secure session on a transport. -/
def secureOn (s : State) (tr : Transport) (sid : Nat) : Bool :=
  match mfind s.sessions sid with
  | some e => e.secure && e.tr = tr
  | none => false

/-- An SPDM request on a transport. PRESUMED, log entry 70. -/
def spdm (s : State) (tr : Transport) (m : SpdmMsg) : State :=
  if s.dev = .off ∨ (s.fw.recovery ∧ !servedOn s tr) then s
  else if !servedOn s tr then sendSpdm s tr .busy []
  else
    match m with
    | .getVersion => sendSpdm (setHand s tr 1) tr .version (natBytes 1 0x13)
    | .getCapabilities => handStep s tr 2 .capabilities []
    | .negotiate => handStep s tr 3 .algorithms []
    | .getDigests => handStep s tr 4 .digests (digest Config.certChain)
    | .getCertificate slot => if slot = 0 then handStep s tr 5 .certificate Config.certChain else sendSpdm s tr .invalid []
    | .keyExchange t =>
      if handDone s tr < 5 then sendSpdm s tr .unexpected []
      else if !roomFor s tr then sendSpdm s tr .busy []
      else sendSpdm (setHand s tr 6) tr .keyExchange (signature .keyExchange t)
    | .finish auth => spdmFinish s tr auth
    | .challenge nonce => if negotiated s tr then sendSpdm s tr .challengeAuth (signature .challenge nonce) else sendSpdm s tr .unexpected []
    | .getMeasurements idx nonce =>
      if !negotiated s tr then sendSpdm s tr .unexpected []
      else
        match measureBody s idx with
        | none => sendSpdm s tr .invalid []
        | some b => sendSpdm s tr .measurements (b ++ signature .measurements (b ++ nonce))
    | .heartbeat sid => if secureOn s tr sid then sendSpdm s tr .heartbeatAck [] else sendSpdm s tr .invalid []
    | .keyUpdate sid =>
      match mfind s.sessions sid with
      | some e =>
        if e.secure && e.tr = tr then
          sendSpdm { s with sessions := mset s.sessions sid { e with keyGen := e.keyGen + 1 } } tr .keyUpdateAck []
        else sendSpdm s tr .invalid []
      | none => sendSpdm s tr .invalid []

/-! ### Requests within a session (R496 to R503) -/

/-- R503: STATUS of the header from those of the entries. -/
def headStatus (l : List Nat) : Nat := (l.find? (fun x => decide (1 < x))).getD 0

/-- The GUEST partition of a session, if it is of that class. -/
def guestOf (e : Session) : Option Nat := if e.cls = 3 then some e.part else none

/-- A GET of one object: its status, type code and value. DEDUCED, log entry 73. -/
def getOne (s : State) (e : Session) (a : ObjAddr) : Nat × Nat × Bytes :=
  if a.area = 0xF0 then (stDenied, 0, [])
  else
    match objAt a with
    | none => (stUnknown, 0, [])
    | some d =>
      if !(d.acc = .ro) && !keeps d then (stWrongOp, d.ty.code, [])
      else if !mayRead e d a then (stDenied, d.ty.code, [])
      else
        let v := objVal s (guestOf e) d a
        if isBytes d.ty && decide (1000 < valLen d v) then (stTooBig, d.ty.code, []) else (stOk, d.ty.code, valBytes d v)

/-- What a SET entry's reply carries: the value that the object holds, where it can be read in one entry. -/
def heldBytes (s : State) (e : Session) (a : ObjAddr) : Bytes := (getOne s e a).2.2

/-- R513: a request that names area F0 is counted. -/
def countClosed (s : State) (as : List ObjAddr) : State :=
  if as.any (fun a => a.area == 0xF0) then modMgmt s (fun m => { m with malformed := m.malformed + 1 }) else s

def modSession (s : State) (sid : Nat) (f : Session → Session) : State :=
  match mfind s.sessions sid with
  | some e => { s with sessions := mset s.sessions sid (f e) }
  | none => s

/-- What a request brings: its state, its status and body, and what is done once the reply has been sent. -/
structure Done where
  st : State
  status : Nat
  body : Bytes
  act : Option ObjEntry
  close : Bool
  deriving Repr

def done (s : State) (status : Nat) (body : Bytes) : Done := ⟨s, status, body, none, false⟩

def doGet (s : State) (e : Session) (as : List ObjAddr) : Done :=
  let rs := as.map (fun a => (a, getOne s e a))
  done (countClosed s as) (headStatus (rs.map (fun r => r.2.1)))
    (natBytes 4 rs.length ++ rs.flatMap (fun r => entryBytes r.1 r.2.2.1 r.2.1 r.2.2.2))

/-- R499: every entry is checked first, allocations as the SET as a whole gives them; with one that fails none is applied. -/
def doSet (s : State) (e : Session) (es : List ObjEntry) : Done :=
  let cs := es.map (fun t => setCheckIn s (allocsSet s es) e t false)
  let ok := cs.all (fun c => decide (c ≤ 1))
  let s := countClosed s (es.map (·.addr))
  let s := if ok then es.foldl setApply s else s
  let out := (es.zip cs).map (fun x => (x.1, if ok then x.2 else if x.2 ≤ 1 then stNotApplied else x.2))
  done s (headStatus (out.map (·.2)))
    (natBytes 4 es.length ++ out.flatMap (fun x => entryBytes x.1.addr x.1.type_ x.2 (heldBytes s e x.1.addr)))

/-- R502: at most this many bytes of a value in one reply. -/
def blockMax (tr : Transport) : Nat :=
  match tr with
  | .eth _ => 1024
  | .mctp => 1024
  | .mbx _ _ => 16000
  | .peer _ => 1024

def doGetblock (s : State) (sid : Nat) (e : Session) (a : ObjAddr) (off maxLen : Nat) : Done :=
  let s := countClosed s [a]
  if a.area = 0xF0 then done s stDenied []
  else
    match objAt a with
    | none => done s stUnknown []
    | some d =>
      if !isBytes d.ty || !(d.acc = .ro || keeps d) then done s stWrongOp []
      else if !mayRead e d a then done s stDenied []
      else
        let v := valBytes d (objVal s (guestOf e) d a)
        let changed : Bool := match e.reading with
          | some (b, w) => off != 0 && b = a && w != v
          | none => false
        let data := (v.drop off).take (min maxLen (blockMax e.tr))
        if changed then done (modSession s sid (fun e => { e with reading := none })) stChanged []
        else
          done (modSession s sid (fun e => { e with reading := some (a, v) })) stOk
            (addrBytes a ++ natBytes 4 v.length ++ natBytes 4 off ++ pad4 data)

/-- R502: a staging copy is discarded. -/
def dropStaging (s : State) (sid : Nat) : State :=
  match mfind s.sessions sid with
  | some e => modSession (dropImage s e) sid (fun e => { e with staging := none })
  | none => s

def isImage (a : ObjAddr) : Bool := a.area == 0xA0 && a.idx == 4

/-- R524: the first SETBLOCK of a download: the target is INVALID from now on. -/
def beginImage (s : State) : State :=
  let b := targetBank s
  modFw s (fun f =>
    { f with
      upd := 1
      verL := if f.runL = b ∧ f.verL = none then some (headerVersion s b) else f.verL
      banks := mset f.banks b 0 })

/-- R524: the SETBLOCK with LAST ends the download. -/
def endImage (s : State) (data : Bytes) : State :=
  let b := targetBank s
  fwEvent (modFw s (fun f =>
    { f with
      upd := 0
      banks := mset f.banks b 1
      images := mset f.images b data })) 1 b 0

def doSetblock (s : State) (sid : Nat) (e : Session) (a : ObjAddr) (off : Nat) (data : Bytes) (last : Bool) : Done :=
  let s := countClosed s [a]
  if a.area = 0xF0 then done s stDenied []
  else
    match objAt a with
    | none => done s stUnknown []
    | some d =>
      if d.action || !isBytes d.ty then done s stWrongOp []
      else if !mayWrite e d a then done s stDenied []
      else
        let held : Bytes := match e.staging with
          | some g => if g.obj = a then g.data else []
          | none => []
        let inOrder : Bool := match e.staging with
          | some g => g.obj = a && off == g.data.length
          | none => off == 0
        if !inOrder then done (dropStaging s sid) stSequence []
        else if d.hi < off + data.length then done (dropStaging s sid) stTooBig []
        else if isImage a ∧ e.staging = none ∧ (s.fw.upd ≠ 0 ∨ startBusy s) then done s stBusy []
        else
          let s := if isImage a ∧ e.staging = none then beginImage s else s
          let all := held ++ data
          if !last then done (modSession s sid (fun e => { e with staging := some ⟨a, all⟩ })) stOk []
          else
            let s := modSession s sid (fun e => { e with staging := none })
            if isImage a then done (endImage s all) stOk []
            else
              let t : ObjEntry := ⟨a, d.ty.code, .blob all⟩
              let c := setCheck s e t true
              done (if c ≤ 1 then setApply s t else s) c []

/-- R506: a subscription from record FROM, or from the next record; those of the log that match are queued as if they came now.
DEDUCED, log entry 76. -/
def doSubscribe (s : State) (sid : Nat) (r : SubReq) : Done :=
  if r.cmask = 0 then done (modSession s sid (fun e => { e with sub := none })) stOk []
  else
    let r := { r with frm := if r.frm = 0 then s.lastSeq + 1 else r.frm }
    let s := modSession s sid (fun e => { e with sub := some ⟨r, [], 0⟩ })
    let all := logFor s none
    done (modSession s sid (fun e =>
      all.foldl (fun e x =>
        if e.wants x then
          { e with
            sub := e.sub.map (fun u =>
              if u.queue.length < 256 then { u with queue := u.queue ++ [x] } else { u with missed := u.missed + 1 }) }
        else e) e)) stOk []

def doAction (s : State) (e : Session) (t : ObjEntry) : Done :=
  let s := countClosed s [t.addr]
  let c := actCheckAll s e t
  { st := s, status := c, body := [], act := if c = 0 then some t else none, close := false }

/-- R532: what recovery serves. -/
def recoveryServes (b : SasilBody) : Bool :=
  match b with
  | .get as => as.all (fun a => a.area == 1 || a.area == 2 || a.area == 0xA0)
  | .set _ => false
  | .getblock a _ _ => a.area == 0x80 && a.idx == 1
  | .setblock a _ _ => isImage a
  | .subscribe _ => false
  | .action t => t.addr.area == 0xA0 && t.addr.idx == 5
  | .hello _ => true
  | .close => true

/-- Whether a body breaks R496, for the version of the session. -/
def bodyBad (ver : Nat) (b : SasilBody) : Bool :=
  match b with
  | .get as => as == [] || decide (32 < as.length)
  | .set _ => false
  | .getblock _ _ _ => false
  | .setblock _ _ _ => false
  | .subscribe r => decide (16 < r.codes.length) || (ver == 0x10 && r.codes != [])
  | .action _ => false
  | .hello _ => false
  | .close => false

/-- A request of session `sid` is executed whole (R499). -/
def perform (s : State) (sid : Nat) (e : Session) (h : SasilHdr) (b : SasilBody) : Done :=
  if maxMsg h.tr < 16 + bodyLen b then done s stTooBig []
  else if s.fw.recovery ∧ !recoveryServes b then done s stUnavailable []
  else
    match b with
    | .get as => doGet s e as
    | .set es => doSet s e es
    | .getblock a off n => doGetblock s sid e a off n
    | .setblock a off d => doSetblock s sid e a off d h.last
    | .subscribe r => doSubscribe s sid r
    | .action t => doAction s e t
    | .hello _ => done s stOk []
    | .close => { st := s, status := stOk, body := [], act := none, close := true }

/-- R505: an accepted action runs; with ASYNC in version 1.1 its end is announced. -/
def runAction (s : State) (sid : Nat) (e : Session) (h : SasilHdr) (t : ObjEntry) : State :=
  let announce := h.async && e.ver == some 0x11
  match asyncKind s t.addr with
  | some k =>
    actRun (if announce then modWake s (fun w => { w with asyncs := w.asyncs ++ [⟨sid, h.seq, k⟩] }) else s) t.addr t.val
  | none =>
    let s := actRun s t.addr t.val
    if announce then
      match mfind s.sessions sid with
      | none => s
      | some e =>
        let s := modSession s sid (fun e => { e with events := e.events + 1 })
        sendEvent s e.tr
          { ver := 0x11
            type_ := 0x40
            flags := 1
            seq := e.events + 1
            status := stOk
            sid := sid
            body := natBytes 4 h.seq }
    else s

/-- One request is executed in its turn, its reply kept and sent, and what follows the reply done (R498, R504). -/
def runOne (s : State) (sid : Nat) (h : SasilHdr) (b : SasilBody) : State :=
  match mfind s.sessions sid with
  | none => s
  | some e =>
    let r := perform s sid e h b
    let m := replyMsg h (bodyType b) sid r.status r.body
    let s := modSession r.st sid (fun e =>
      { e with
        next := h.seq + 1
        replies := (e.replies ++ [m]).drop (e.replies.length + 1 - 32) })
    let s := sendMsg s h.tr h.secure m
    let s := match r.act with
      | some t => runAction s sid e h t
      | none => s
    if r.close then closeSession s sid .close else s

/-- R498: held requests that now continue the order. -/
def runHeld (fuel : Nat) (s : State) (sid : Nat) : State :=
  match fuel with
  | 0 => s
  | fuel + 1 =>
    match mfind s.sessions sid with
    | none => s
    | some e =>
      match e.held.find? (fun x => x.1.seq == e.next) with
      | none => s
      | some (h, b) =>
        runHeld fuel (runOne (modSession s sid (fun e => { e with held := e.held.filter (fun x => x.1.seq != h.seq) })) sid h b) sid

/-- A reply that no execution stands behind. -/
def refuse (s : State) (h : SasilHdr) (b : SasilBody) (sid status : Nat) : State :=
  let type_ : Nat := match h.malformed with
    | some raw => byteNat raw 1 % 128
    | none => bodyType b
  sendMsg s h.tr h.secure (replyMsg h type_ sid status [])

/-- R498: a request arrives with its SEQ. -/
def bySeq (s : State) (sid : Nat) (e : Session) (h : SasilHdr) (b : SasilBody) : State :=
  match e.replies.find? (fun m => m.seq == h.seq) with
  | some m => sendMsg s h.tr h.secure m
  | none =>
    if h.seq = e.next then runHeld 8 (runOne s sid h b) sid
    else if h.seq < e.next then refuse s h b sid stSequence
    else if e.next + 7 < h.seq then refuse s h b sid stBusy
    else if e.held.any (fun x => x.1.seq == h.seq) then s
    else modSession s sid (fun e => { e with held := e.held ++ [(h, b)] })

/-! ### HELLO (R489, R496, R497) -/

/-- R497: the highest version in VMASK that identity.sasil_versions holds. DEDUCED, log entry 71. -/
def chooseVersion (vmask : Nat) : Option Nat := if vmask.testBit 1 then some 0x11 else if vmask.testBit 0 then some 0x10 else none

def helloReply (s : State) (h : SasilHdr) (sid ver : Nat) (e : Session) : State :=
  sendMsg s h.tr h.secure (replyMsg h 7 sid stOk
    (natBytes 1 ver ++ natBytes 1 e.cls ++ natBytes 1 (if e.cls = 3 then e.part else 0xFF) ++ natBytes 1 0 ++ natBytes 4 sid))

/-- A HELLO in secure session `sid`. DEDUCED, log entry 71. -/
def helloIn (s : State) (h : SasilHdr) (sid : Nat) (e : Session) (vmask : Nat) : State :=
  if (match e.ver with
    | some v => v != h.ver
    | none => h.ver != 0x10) then refuse s h (.hello vmask) sid stVersion
  else
    match chooseVersion vmask with
    | none => closeSession (refuse s h (.hello vmask) sid stVersion) sid .version
    | some v => helloReply (modSession s sid (fun e => { e with ver := some v })) h sid v e

/-- A plain HELLO on a mailbox closes its plain session and opens another, by the class of Table 16.4.
DEDUCED, log entry 71. -/
def helloPlain (s : State) (h : SasilHdr) (vmask : Nat) : State :=
  let s := closeSessions s (fun e => e.tr = h.tr && !e.secure) .hello
  if h.ver ≠ 0x10 then refuse s h (.hello vmask) 0 stVersion
  else if !roomFor s h.tr then refuse s h (.hello vmask) 0 stBusy
  else
    match classFor s h.tr .none with
    | none => refuse (refuseSession s h.tr) h (.hello vmask) 0 stRefused
    | some (cls, part, slot) =>
      match chooseVersion vmask with
      | none => refuse s h (.hello vmask) 0 stVersion
      | some v =>
        let sid := s.mgmt.nextSid
        let e := { newSession s h.tr false cls part slot with ver := some v }
        helloReply (openSession s e) h sid v e

/-! ### Every request -/

def isMbx (tr : Transport) : Bool :=
  match tr with
  | .eth _ => false
  | .mctp => false
  | .mbx _ _ => true
  | .peer _ => false

/-- Whether a session is the one that a header names. -/
def names (h : SasilHdr) (e : Session) : Bool := e.tr = h.tr && e.secure == h.secure

/-- A Sasil request arrives. -/
def request (s : State) (h : SasilHdr) (b : SasilBody) : State :=
  let alive : Bool := match h.tr with
    | .mbx d f => mbxAlive s d f
    | .eth p => decide (p < 2) && netNum s 0x10 p != 2
    | .mctp => true
    | .peer _ => true
  let open_ : Bool := match h.tr with
    | .mbx d f => mbxEnabled s d f
    | .eth _ => true
    | .mctp => true
    | .peer _ => true
  if !alive || s.dev = .off then s
  else if !servedOn s h.tr || !open_ then (if isMbx h.tr then refuse s h b 0 stUnavailable else s)
  else
    let named := (mfind s.sessions h.sid).filter (names h)
    let sid := if named.isSome then h.sid else 0
    let bad (raw : Bytes) : State := malformed s h.tr raw (fun s => refuse s h b sid stMalformed)
    match h.malformed with
    | some raw => bad raw
    | none =>
      if !h.secure && !isMbx h.tr then bad (hdrBytes h b)
      else
        match b, h.secure with
        | .hello vmask, false => helloPlain s h vmask
        | _, _ =>
          match named with
          | none => refuse s h b 0 stSession
          | some e =>
            match b with
            | .hello vmask => helloIn s h sid e vmask
            | _ =>
              match e.ver with
              | none => refuse s h b sid stVersion
              | some v =>
                if v ≠ h.ver then refuse s h b sid stVersion
                else if bodyBad v b then bad (hdrBytes h b)
                else bySeq s sid e h b

/-- A transport unit is executed (R485, R487, R488). -/
def unit (s : State) (tr : Transport) (u : MgmtUnit) : State :=
  match u with
  | .spdm m => spdm s tr m
  | .secured ok h b => if ok then request s { h with tr := tr, secure := true } b else tagBad s tr
  | .plain h b => if isMbx tr then request s { h with tr := tr, secure := false } b else badUnit s tr (hdrBytes h b)
  | .badLead raw => badUnit s tr raw

/-! ### Units in a mailbox (R487, R493 to R496) -/

/-- One object entry at the front of a byte string, and what follows it; none where it breaks R494. -/
def parseEntry (b : Bytes) : Option (ObjEntry × Bytes) :=
  let n := leAt b 6 2
  let total := 8 + (n + 3) / 4 * 4
  let code := byteNat b 4
  let v := (b.drop 8).take n
  let a : ObjAddr := ⟨byteNat b 0, leAt b 1 2, byteNat b 3⟩
  let lenOk : Bool := match typeLen code with
    | some k => n == k
    | none => true
  if b.length < total || byteNat b 5 != 0 || !lenOk || ((b.drop (8 + n)).take (total - 8 - n)).any (fun x => x != 0) then none
  else some (⟨a, code, if code = 0x0E ∨ code = 0x0F then .blob v else .num (leNat v)⟩, b.drop total)

def parseEntries (n : Nat) (b : Bytes) : Option (List ObjEntry) :=
  match n with
  | 0 => if b = [] then some [] else none
  | n + 1 =>
    match parseEntry b with
    | none => none
    | some (t, rest) => (parseEntries n rest).map (fun l => t :: l)

def parseAddr (b : Bytes) (i : Nat) : ObjAddr := ⟨byteNat b i, leAt b (i + 1) 2, byteNat b (i + 3)⟩

/-- The body of a request of a TYPE; none where it breaks R496. -/
def parseBody (type_ : Nat) (b : Bytes) : Option SasilBody :=
  let n := byteNat b 0
  let rsvd := leAt b 1 3 == 0 && decide (4 ≤ b.length)
  match type_ with
  | 1 =>
    if rsvd && b.length == 4 + 4 * n then some (.get ((List.range n).map (fun i => parseAddr b (4 + 4 * i)))) else none
  | 2 => if rsvd then (parseEntries n (b.drop 4)).map .set else none
  | 3 => if b.length = 12 then some (.getblock (parseAddr b 0) (leAt b 4 4) (leAt b 8 4)) else none
  | 4 => if 8 ≤ b.length then some (.setblock (parseAddr b 0) (leAt b 4 4) (b.drop 8)) else none
  | 5 =>
    let k := leAt b 8 2
    if b.length = 12 + (2 * k + 3) / 4 * 4 ∧ leAt b 10 2 = 0 then
      some (.subscribe ⟨leAt b 0 4, byteNat b 4, byteNat b 5, leAt b 6 2, (List.range k).map (fun i => leAt b (12 + 2 * i) 2)⟩)
    else none
  | 6 =>
    match parseEntry b with
    | some (t, []) => some (.action t)
    | _ => none
  | 7 => if rsvd && b.length == 4 then some (.hello n) else none
  | 8 => if b = [] then some .close else none
  | _ => none

/-- A plain message: its header and body; a malformed one keeps its first 16 B (R509). -/
def parseMsg (tr : Transport) (m : Bytes) : SasilHdr × SasilBody :=
  let fl := byteNat m 2
  let hdr : SasilHdr :=
    { tr := tr
      secure := false
      ver := byteNat m 0
      seq := leAt m 4 4
      sid := leAt m 12 4
      async := fl.testBit 0
      last := fl.testBit 1
      malformed := none }
  let good := decide (16 ≤ m.length) && (byteNat m 0 == 0x10 || byteNat m 0 == 0x11) && decide (fl < 4) && byteNat m 3 == 0 &&
    leAt m 10 2 == 0 && leAt m 8 2 == m.length - 16 && m.length % 4 == 0
  match good, parseBody (byteNat m 1) (m.drop 16) with
  | true, some b => (hdr, b)
  | _, _ => ({ hdr with malformed := some (padTo 16 m) }, .close)

/-! ### Events (R506, R507) -/

/-- Records reach a subscription: on a mailbox in its event ring, else as one EVENT of up to 16. -/
def deliver (s : State) (sid : Nat) : State :=
  match mfind s.sessions sid with
  | none => s
  | some e =>
    match e.sub with
    | none => s
    | some u =>
      match e.tr with
      | .mbx h f =>
        let place (k : Mailbox) (r : LogRec) : Mailbox :=
          if (k.evTail + 512 - k.evHead) % 512 < 256 then
            { k with
              evRing := mset k.evRing (k.evTail % 256) (recordBytes r)
              evTail := (k.evTail + 1) % 512 }
          else { k with evMiss := satInc k.evMiss 1 }
        let s := modFn s h f (fun k =>
          { k with
            mbx := { u.queue.foldl place k.mbx with
              evMiss := satInc (u.queue.foldl place k.mbx).evMiss u.missed } })
        modSession s sid (fun e => { e with sub := some ⟨u.req, [], 0⟩ })
      | _ =>
        if u.queue = [] then s
        else
          let now := u.queue.take 16
          let s := modSession s sid (fun e =>
            { e with
              sub := some ⟨u.req, u.queue.drop 16, 0⟩
              events := e.events + 1 })
          sendEvent s e.tr
            { ver := e.ver.getD 0x10
              type_ := 0x40
              flags := 0
              seq := e.events + 1
              status := stOk
              sid := sid
              body := natBytes 4 u.missed ++ natBytes 4 now.length ++ now.flatMap recordBytes }

end Sys2Proof.Machine
end

