-- ==== Sys2Proof/Machine/Actions.lean ====
section
/-!
DEFINITION. The actions of the object dictionary one by one, as session `sid` performs them (R501, R504), and the steps of a
firmware update that Lantern and Carafe take (R525 to R530).
-/

namespace Sys2Proof.Machine

/-- Action `a` of value `v` by session `sid`: it runs where its checks pass. -/
def byAction (s : State) (sid : Nat) (a : ObjAddr) (v : ObjVal) : State :=
  match mfind s.sessions sid, objAt a with
  | some e, some d =>
    if servedOn s e.tr ∧ actCheckAll s e ⟨a, d.ty.code, v⟩ = 0 ∧ (s.fw.recovery → recoveryServes (.action ⟨a, 0, v⟩)) then
      actRun s a v
    else s
  | _, _ => s

/-- A SET of one object by session `sid`. -/
def bySet (s : State) (sid : Nat) (a : ObjAddr) (v : ObjVal) : State :=
  match mfind s.sessions sid, objAt a with
  | some e, some d =>
    if servedOn s e.tr ∧ !s.fw.recovery ∧ setCheck s e ⟨a, d.ty.code, v⟩ false ≤ 1 then setApply s ⟨a, d.ty.code, v⟩ else s
  | _, _ => s

/-- survey.revoke of entry `seq` (R46). -/
def execSurveyRevoke (sid seq : Nat) (s : State) : Res := .next (byAction s sid ⟨0x30, 0x0004, 0⟩ (.blob (natBytes 4 seq)))

/-- link.epoch_advance (R308). -/
def execEpochAdvance (sid : Nat) (s : State) : Res := .next (byAction s sid ⟨0x50, 0x0003, 0⟩ (.num 1))

/-- link.port_reset of port `p` (R289). -/
def execPortResetAction (sid p : Nat) (s : State) : Res := .next (byAction s sid ⟨0x50, 0x0103, p⟩ (.num 1))

/-- link.port_admit of port `p` (Table 9.2). -/
def execPortAdmit (sid p : Nat) (s : State) : Res := .next (byAction s sid ⟨0x50, 0x0104, p⟩ (.num 1))

/-- link.bundle_key_switch of bundle `b` (R317). -/
def execBundleKeySwitch (sid b : Nat) (s : State) : Res := .next (byAction s sid ⟨0x50, 0x0203, b⟩ (.num 1))

/-- memory.retire of the page at a home-mode address (R338). -/
def execMemoryRetire (sid addr : Nat) (s : State) : Res := .next (byAction s sid ⟨0x60, 0x0006, 0⟩ (.blob (natBytes 8 addr)))

/-- partition.reset of partition `p` (R449). -/
def execPartitionReset (sid p : Nat) (s : State) : Res := .next (byAction s sid ⟨0x40, 0x0005, p⟩ (.num 1))

/-- echo.resync (R386). -/
def execEchoResync (sid : Nat) (s : State) : Res := .next (byAction s sid ⟨0x20, 0x0014, 0⟩ (.num 1))

/-- power.domain_switch of domain `d` to 0 OFF, 1 ON or 2 RETENTION (R402 to R404). -/
def execDomainSwitch (sid d v : Nat) (s : State) : Res := .next (byAction s sid ⟨0x10, 0x0021, d⟩ (.num v))

/-- aux.reset of channel `c` (R429). -/
def execAuxReset (sid c : Nat) (s : State) : Res := .next (byAction s sid ⟨0x12, 0x0003, c⟩ (.num 1))

/-- state.cold_start (R438). -/
def execColdStart (sid : Nat) (s : State) : Res := .next (byAction s sid ⟨0x02, 0x0003, 0⟩ (.num 1))

/-- state.warm_start (R445). -/
def execWarmStart (sid : Nat) (s : State) : Res := .next (byAction s sid ⟨0x02, 0x0004, 0⟩ (.num 1))

/-- state.compute_reset (R448). -/
def execComputeReset (sid : Nat) (s : State) : Res := .next (byAction s sid ⟨0x02, 0x0005, 0⟩ (.num 1))

/-- state.management_restart (R452). -/
def execManagementRestart (sid : Nat) (s : State) : Res := .next (byAction s sid ⟨0x02, 0x0006, 0⟩ (.num 1))

/-- state.low is set to 1 (R464). -/
def execLowEnter (sid : Nat) (s : State) : Res := .next (bySet s sid ⟨0x02, 0x0007, 0⟩ (.num 1))

/-- state.low is set to 0 (R464). -/
def execLowExit (sid : Nat) (s : State) : Res := .next (bySet s sid ⟨0x02, 0x0007, 0⟩ (.num 0))

/-- state.release (R444). -/
def execStateRelease (sid : Nat) (s : State) : Res := .next (byAction s sid ⟨0x02, 0x000B, 0⟩ (.num 1))

/-- fields.core_reset of core `c` (R450). -/
def execCoreReset (sid c : Nat) (s : State) : Res := .next (byAction s sid ⟨0x30, 0x0020, 0⟩ (.num c))

/-- fields.fail_core of core `c` (R459). -/
def execFailCore (sid c : Nat) (s : State) : Res := .next (byAction s sid ⟨0x30, 0x0021, 0⟩ (.num c))

/-- fields.check with its 112 B value (R478). -/
def execFieldCheck (sid : Nat) (v : Bytes) (s : State) : Res := .next (byAction s sid ⟨0x30, 0x0030, 0⟩ (.blob v))

/-- errors.alert_ack up to record `q` (R474). -/
def execAlertAck (sid q : Nat) (s : State) : Res := .next (byAction s sid ⟨0x80, 0x0004, 0⟩ (.num q))

/-- security.enroll: slot, class, partition, RSVD and the root certificate (R490). -/
def execEnroll (sid : Nat) (v : Bytes) (s : State) : Res := .next (byAction s sid ⟨0xB0, 0x0003, 0⟩ (.blob v))

/-- security.revoke of slot `k`. -/
def execSlotRevoke (sid k : Nat) (s : State) : Res := .next (byAction s sid ⟨0xB0, 0x0004, k⟩ (.num 1))

/-- security.factory_reset, which takes effect at the next cold start. -/
def execFactoryReset (sid : Nat) (s : State) : Res := .next (byAction s sid ⟨0xB0, 0x000B, 0⟩ (.num 1))

/-- firmware.activate with its flags: bit 0 FORCE, bit 1 NOW (R525, R526). -/
def execFirmwareActivate (sid flags : Nat) (s : State) : Res := .next (byAction s sid ⟨0xA0, 0x0005, 0⟩ (.blob (natBytes 4 (flags % 256))))

/-- R525: verification ends; `sigOk` that SIG verifies, `digOk` that every DIG matches its component. -/
def execFirmwareVerifyDone (sigOk digOk : Bool) (s : State) : Res := .next (verifyEnd s sigOk digOk)

/-- firmware.confirm (R527). -/
def execFirmwareConfirm (sid : Nat) (s : State) : Res := .next (byAction s sid ⟨0xA0, 0x0006, 0⟩ (.num 1))

/-- firmware.revert (R533). -/
def execFirmwareRevert (sid : Nat) (s : State) : Res := .next (byAction s sid ⟨0xA0, 0x000B, 0⟩ (.num 1))

/-- R527: Carafe reports health, with all field controllers reporting (`fields`) and a Sasil request answered (`answered`). -/
def execTrialHealth (fields answered : Bool) (s : State) : Res :=
  .next (if fields && answered && healthOk s then trialSettle (modFw s (fun f => { f with healthy := true })) else s)

/-- R527, R529: 600 s have passed since the trial's start. -/
def execTrialTimeout (s : State) : Res := .next (trialUnconfirmed s)

/-- counters.clear (R551). -/
def execCountersClear (sid : Nat) (s : State) : Res := .next (byAction s sid ⟨0x90, 0x0120, 0⟩ (.num 1))

end Sys2Proof.Machine
end

