-- ==== Sys2Proof/Machine/Alu.lean ====
section
/-!
DEFINITION. The register instructions: ALU functions (Table 6.4) and immediate instructions (Table 6.3). Each is one
issue of the shared operations `alu`, `alu1`, `aluImm` and `aluShift`.
-/

namespace Sys2Proof.Machine

/-- ADD (Table 6.4, R182). -/
def execAdd (c : Nat) (d a b : Reg) (s : State) : Res :=
  .next (alu s c d a b (fun x y => x + y))

/-- SUB (Table 6.4, R182). -/
def execSub (c : Nat) (d a b : Reg) (s : State) : Res :=
  .next (alu s c d a b (fun x y => x - y))

/-- AND (Table 6.4, R182). -/
def execAnd (c : Nat) (d a b : Reg) (s : State) : Res :=
  .next (alu s c d a b (fun x y => x &&& y))

/-- OR (Table 6.4, R182). -/
def execOr (c : Nat) (d a b : Reg) (s : State) : Res :=
  .next (alu s c d a b (fun x y => x ||| y))

/-- XOR (Table 6.4, R182). -/
def execXor (c : Nat) (d a b : Reg) (s : State) : Res :=
  .next (alu s c d a b (fun x y => x ^^^ y))

/-- SLL (Table 6.4, R182). -/
def execSll (c : Nat) (d a b : Reg) (s : State) : Res :=
  .next (alu s c d a b (fun x y => x <<< (y.toNat % 64)))

/-- SRL (Table 6.4, R182). -/
def execSrl (c : Nat) (d a b : Reg) (s : State) : Res :=
  .next (alu s c d a b (fun x y => x >>> (y.toNat % 64)))

/-- SRA (Table 6.4, R182). -/
def execSra (c : Nat) (d a b : Reg) (s : State) : Res :=
  .next (alu s c d a b (fun x y => x.sshiftRight (y.toNat % 64)))

/-- SLT (Table 6.4, R182). -/
def execSlt (c : Nat) (d a b : Reg) (s : State) : Res :=
  .next (alu s c d a b (fun x y => b2w (x.slt y)))

/-- SLTU (Table 6.4, R182). -/
def execSltu (c : Nat) (d a b : Reg) (s : State) : Res :=
  .next (alu s c d a b (fun x y => b2w (x.ult y)))

/-- MIN (Table 6.4, R182). -/
def execMin (c : Nat) (d a b : Reg) (s : State) : Res :=
  .next (alu s c d a b (fun x y => if x.slt y then x else y))

/-- MAX (Table 6.4, R182). -/
def execMax (c : Nat) (d a b : Reg) (s : State) : Res :=
  .next (alu s c d a b (fun x y => if x.slt y then y else x))

/-- MINU (Table 6.4, R182). -/
def execMinu (c : Nat) (d a b : Reg) (s : State) : Res :=
  .next (alu s c d a b (fun x y => if x.ult y then x else y))

/-- MAXU (Table 6.4, R182). -/
def execMaxu (c : Nat) (d a b : Reg) (s : State) : Res :=
  .next (alu s c d a b (fun x y => if x.ult y then y else x))

/-- MUL (Table 6.4, R182). -/
def execMul (c : Nat) (d a b : Reg) (s : State) : Res :=
  .next (alu s c d a b (fun x y => x * y))

/-- MULH (Table 6.4, R182). -/
def execMulh (c : Nat) (d a b : Reg) (s : State) : Res :=
  .next (alu s c d a b (fun x y => BitVec.ofInt 64 ((x.toInt * y.toInt) >>> 64)))

/-- MULHU (Table 6.4, R182). -/
def execMulhu (c : Nat) (d a b : Reg) (s : State) : Res :=
  .next (alu s c d a b (fun x y => BitVec.ofNat 64 (x.toNat * y.toNat / 2 ^ 64)))

/-- CLZ: b must be 0 (Table 6.4, R181). -/
def execClz (c : Nat) (d a b : Reg) (s : State) : Res :=
  .next (alu1 s c 0x018 d a b (fun x => BitVec.ofNat 64 (clz64 x)))

/-- CTZ: b must be 0 (Table 6.4, R181). -/
def execCtz (c : Nat) (d a b : Reg) (s : State) : Res :=
  .next (alu1 s c 0x019 d a b (fun x => BitVec.ofNat 64 (ctz64 x)))

/-- POPC: b must be 0 (Table 6.4, R181). -/
def execPopc (c : Nat) (d a b : Reg) (s : State) : Res :=
  .next (alu1 s c 0x01A d a b (fun x => BitVec.ofNat 64 (countBits 64 x.toNat)))

/-- ADDI (Table 6.3). -/
def execAddi (c : Nat) (d a : Reg) (imm : BitVec 15) (s : State) : Res :=
  .next (aluImm s c d a (fun x => x + imm.signExtend 64))

/-- ANDI (Table 6.3). -/
def execAndi (c : Nat) (d a : Reg) (imm : BitVec 15) (s : State) : Res :=
  .next (aluImm s c d a (fun x => x &&& imm.setWidth 64))

/-- ORI (Table 6.3). -/
def execOri (c : Nat) (d a : Reg) (imm : BitVec 15) (s : State) : Res :=
  .next (aluImm s c d a (fun x => x ||| imm.setWidth 64))

/-- XORI (Table 6.3). -/
def execXori (c : Nat) (d a : Reg) (imm : BitVec 15) (s : State) : Res :=
  .next (aluImm s c d a (fun x => x ^^^ imm.setWidth 64))

/-- SLTI (Table 6.3). -/
def execSlti (c : Nat) (d a : Reg) (imm : BitVec 15) (s : State) : Res :=
  .next (aluImm s c d a (fun x => b2w (x.slt (imm.signExtend 64))))

/-- ORSH (Table 6.3). -/
def execOrsh (c : Nat) (d a : Reg) (imm : BitVec 15) (s : State) : Res :=
  .next (aluImm s c d a (fun x => (x <<< 15) ||| imm.setWidth 64))

/-- SLLI: imm[14:6] must be 0 (Table 6.3). -/
def execSlli (c : Nat) (d a : Reg) (imm : BitVec 15) (s : State) : Res :=
  .next (aluShift s c 0x0C d a imm (fun x n => x <<< n))

/-- SRLI: imm[14:6] must be 0 (Table 6.3). -/
def execSrli (c : Nat) (d a : Reg) (imm : BitVec 15) (s : State) : Res :=
  .next (aluShift s c 0x0D d a imm (fun x n => x >>> n))

/-- SRAI: imm[14:6] must be 0 (Table 6.3). -/
def execSrai (c : Nat) (d a : Reg) (imm : BitVec 15) (s : State) : Res :=
  .next (aluShift s c 0x0E d a imm (fun x n => x.sshiftRight n))

end Sys2Proof.Machine
end

