-- ==== Sys2Proof/Machine/Clocks.lean ====
section
/-!
DEFINITION. Scheduled changes of CCLK, beacons within the device, and the discipline of Echo time (R376 to R388).
-/

namespace Sys2Proof.Machine

/-! ### Scheduled changes (R376 to R380) -/

/-- R377, R380: Carafe arms a change for Echo time `t`; bit n of `mask` covers field n, and `targets` lists a STEP for each
field. -/
def execClkChangeArm (t mask : Nat) (targets : List Nat) (s : State) : Res :=
  .next (
    requestChange s t
      (((List.range 12).filter (fun n => mask.testBit n && fieldOn s n)).map (fun n => (n, targets.getD n 0))))

/-- R377: the idle PLL of field `n` locks at the STEP it is programmed to. -/
def execPllLock (n : Nat) (s : State) : Res :=
  .next (if fieldOn s n && (s.field n).idleStep.isSome then modField s n (fun k => setIdleLock k true) else s)

/-- R378: at T − 10 µs every covered field reports; one without lock cancels the change in every field. -/
def execClkReadyCheck (s : State) : Res :=
  .next (
    match s.clk.armed with
    | none => s
    | some c =>
      let bad := (covered s c).filter (fun x => !idleLocked (s.field x.1))
      if bad = [] then modClk s (fun k => { k with armed := some { c with checked := true } })
      else cancelChange s (bad.map (fun x => 2 ^ x.1)).sum)

/-- R376, R379: field `n` switches to its idle PLL at `step`, or misses the switch where that PLL has lost lock. -/
def switchField (s : State) (n step : Nat) : State :=
  if idleLocked (s.field n) then
    modField s n (fun k =>
      { k with
        step := step
        pll1 := !k.pll1
        idleStep := none })
  else
    let s := modField s n (fun k =>
      { k with
        miss := true
        idleStep := none })
    let s := modClk s (fun k =>
      { k with
        miss := k.miss ||| 2 ^ n
        misses := k.misses + 1
        held := k.held ++ [⟨s.echoM.toNat + 60000, [(n, step)], false⟩] })
    raiseErr s 0x0011 3 n none (s.field n).echo []

/-- R376, R377, R379, R380: at T each field of a change that has passed its check switches; the next held change is armed. -/
def execClkSwitch (s : State) : Res :=
  .next (
    match s.clk.armed with
    | none => s
    | some c =>
      if c.checked && decide (c.t ≤ s.echoM.toNat) then
        let s := (covered s c).foldl (fun s x => switchField s x.1 x.2) s
        armHeld (modClk s (fun k =>
          { k with
            armed := none
            changes := k.changes + 1 }))
      else s)

/-- R379: the idle PLL of field `n` loses its lock. -/
def execPllLockLoss (n : Nat) (s : State) : Res :=
  .next (if fieldOn s n then modField s n (fun k => setIdleLock k false) else s)

/-- R377, R379, R398: from T + 1 µs VCORE of field `n`, whose frequency fell, is lowered to what it needs: at its STEP, at the STEP that
its idle PLL is programmed to, and at those of the changes that are held for it, the one for a switch that it missed among them. -/
def execVcoreLower (n : Nat) (s : State) : Res :=
  .next (
    if fieldOn s n then
      let steps (k : Field) : List Nat := [k.step, k.idleStep.getD k.step] ++ s.clk.held.filterMap (fun c => mfind c.targets n)
      modField s n (fun k => { k with vcore := min k.vcore (((steps k).map (vcoreFor n)).foldl max 0) })
    else s)

/-! ### Beacons of the device (R382, R383) -/

/-- R382, R383: M's beacon reaches every field whose network is on: the first sets its counter, each later one the difference
that its increment removes. -/
def execEchoBeacon (s : State) : Res :=
  .next (
    (List.range 12).foldl (fun s n =>
      if fieldOn s n then
        modField s n (fun k =>
          { k with
            echo := if k.beacons = 0 then s.echoM else k.echo
            adj := if k.beacons = 0 then 0 else (s.echoM.toNat : Int) - k.echo.toNat
            beacons := k.beacons + 1
            ehold := false })
      else s) s)

/-- R373: the field that forwards the reference, the beacons and the clock-change commands to field `n`; field 10 takes them from M. -/
def clkParent (n : Nat) : Option Nat :=
  match n with
  | 7 | 9 | 11 => some 10
  | 4 | 6 | 8 => some 7
  | 1 | 3 | 5 => some 4
  | 0 | 2 => some 1
  | _ => none

/-- R382, R373: field `n` has measured its delay from its parent, or field 10 from M, in units of 1/16 ns, and adds its parent's. -/
def execEchoDelayMeasure (n dly : Nat) (s : State) : Res :=
  .next (
    let up := match clkParent n with
      | some p => (s.field p).dly
      | none => 0
    if fieldOn s n then modField s n (fun k => { k with dly := (up + dly) % 2 ^ 16 }) else s)

/-- R383: no beacon for 16 µs: field `n` sets EHOLD, with corrected error 0x0012, and runs on its last increment. -/
def execEchoBeaconLoss (n : Nat) (s : State) : Res :=
  .next (
    if fieldOn s n then
      raiseErr (modField s n (fun k => { k with ehold := true })) 0x0012 3 n none (s.field n).echo []
    else s)

/-! ### Time sources (R386 to R388) -/

/-- R386, R387: M measures the offset to its source; under LINK it is that of the last beacon exchange with its upstream. A
device that reports distance 0 as grandmaster disciplines to no port. -/
def execEchoDiscipline (ofs : Int) (s : State) : Res :=
  .next (
    match echoSource s with
    | 0 => s
    | 1 =>
      if cfgNum s 0x20 0x0013 0 0 = 1 then s
      else if s.ech.upPort.isSome then discipline s s.ech.pend
      else s
    | src => discipline (modEch s (fun e => { e with src := src })) ofs)

/-- R386, R387: the source has been lost for more than 2 s. -/
def execEchoSourceLoss (s : State) : Res := .next (if echoSource s = 0 then s else holdover s)

/-- R388: a PTP message arrives on management port `port` in a domain, from which M computes the offset `ofs` to its
master. -/
def execPtpMessage (port domain : Nat) (ofs : Int) (s : State) : Res :=
  .next (
    if port = cfgNum s 0x20 0x0016 0 0 ∧ domain = cfgNum s 0x20 0x0017 0 0 then
      if echoSource s = 2 then
        modEch s (fun e =>
          { e with
            src := 2
            st := if e.st = 2 then 2 else if e.back then 3 else 1
            ofs := sat32 ofs
            pend := ofs })
      else if echoSource s = 3 ∧ s.ech.ppsTime = none then
        let t := ((s.echoM.toNat : Int) + ofs).toNat
        modEch s (fun e => { e with ppsTime := some ((t + 500000000) / 1000000000 * 1000000000) })
      else s
    else s)

/-- R388: a rising edge of ECHO_PPS. One more than 100 µs from its expected time is ignored and counted, and three in a row
bring HOLDOVER; else a whole second of Echo time is aligned to it. -/
def execPpsEdge (s : State) : Res :=
  .next (
    if echoSource s != 3 then s
    else
      let now := s.echoM.toNat
      let off : Bool := match s.ech.lastPps with
        | some l => decide (now + 100000 < l + 1000000000) || decide (200000 < (now + 100000 - l) % 1000000000)
        | none => false
      if off then
        let s := modEch s (fun e =>
          { e with
            ppsBad := e.ppsBad + 1
            ppsIgnored := e.ppsIgnored + 1 })
        if 3 ≤ s.ech.ppsBad then holdover s else s
      else
        let second := s.ech.ppsTime.getD ((now + 500000000) / 1000000000 * 1000000000)
        let s := modEch s (fun e =>
          { e with
            src := 3
            ppsBad := 0
            ppsTime := none
            lastPps := some second })
        discipline s ((second : Int) - now))

/-- R388: ECHO_REF appears or disappears: M locks its reference to it, or disciplines the rate from ECHO_PPS alone. -/
def execEchoRefChange (present : Bool) (s : State) : Res := .next (modEch s (fun e => { e with refPresent := present }))

end Sys2Proof.Machine
end

