-- ==== Sys2Proof/Machine/Counters.lean ====
section
/-!
DEFINITION. Counters that wrap, and sampling records as they are written (R537, R538, R542 to R547).
-/

namespace Sys2Proof.Machine

/-- R537, R538, R547: a counter that counts `n` more, 1 to 255, passes its end: it wraps, and carries into a chained counter, or sets its
overflow bit and may freeze its block. DESIGN CHOICE, log entry 78. -/
def execCounterWrap (x : CntRef) (n : Nat) (s : State) : Res :=
  .next (
    match x with
    | .core c i =>
      let k := (s.core c).cnt
      let e := mget CntSel.reset k.sels i
      if c < 1152 ∧ i < 8 ∧ 1 ≤ n ∧ n ≤ 255 ∧ e.en ∧ !(e.chain && i % 2 == 1) ∧ !k.frz ∧ 2 ^ 48 ≤ mget 0 k.vals i + n then
        modCore s c (fun t => { t with cnt := cntAdd t.cnt i n })
      else s
    | .shared b j cls =>
      let k := s.blk b
      if (mget ShSel.reset k.sels j).en ∧ !k.frz ∧ j < sharedCounters b ∧ cls < 17 ∧ 1 ≤ n ∧ n ≤ 255 ∧
        2 ^ 48 ≤ mget 0 k.totals j + n then
        let sh := 17 * j + cls
        { s with
          shared := mset s.shared b
            { k with
              totals := mset k.totals j ((mget 0 k.totals j + n) % 2 ^ 48)
              shadows := mset k.shadows sh ((mget 0 k.shadows sh + n) % 2 ^ 48)
              ovf := k.ovf ||| 2 ^ j } }
      else s)

/-- R544: where record `n` of a sampler's ring goes. -/
def smpSlot (m : Sampler) : Nat := m.base + 32 * (m.head % 2 ^ m.log2sz)

def modSmp (s : State) (c : Nat) (g : Sampler → Sampler) : State :=
  modCore s c (fun k => { k with cnt := { k.cnt with smp := g k.cnt.smp } })

/-- R545: a record finds no room, or memory refuses it. -/
def smpLose (s : State) (c : Nat) : State := count (modSmp s c (fun m => { m with lost := satInc m.lost 1 })) c 0x7F 1 bareSample

/-- R545: a record is written: HEAD moves. -/
def smpWrote (s : State) (c : Nat) : State := count (modSmp s c (fun m => { m with head := (m.head + 1) % 2 ^ 32 })) c 0x7E 1 bareSample

/-- R345, R545: the oldest record due is written and HEAD moves, or it is lost for want of room; one whose stack has no tokens for it
waits. DESIGN CHOICE, log entry 78. -/
def execSampleRecord (c : Nat) (s : State) : Res :=
  .next (
    let m := (s.core c).cnt.smp
    match m.due with
    | [] => s
    | rec :: rest =>
      let full := decide ((m.head + 2 ^ 32 - m.tail) % 2 ^ 32 = 2 ^ m.log2sz)
      if !full && m.dst && hbmHeld s (reqPart s c) (smpSlot m) 32 then s
      else
      let s := modSmp s c (fun m => { m with due := rest })
      if full then smpLose s c
      else if m.dst then
        match hbmAccess s (.core c) (reqPart s c) (smpSlot m) 32 (some (rec, [])) with
        | (s, ⟨.ok, _, _⟩) => smpWrote s c
        | (s, _) => smpLose s c
      else smpWrote (spWrite s c (smpSlot m % 2 ^ 21) rec 6).1 c)

end Sys2Proof.Machine
end

