-- ==== Sys2Proof/Machine/Press.lean ====
section
/-!
DEFINITION. The commands and events of the Press (chapter 4): the five commands of R109, their completions, the ramp
and the tally decision.
-/

namespace Sys2Proof.Machine

/-- The first Press command of core `c` that `p` names, with the commands before it that are not complete. -/
def pressFirst (s : State) (c : Nat) (p : Flight → Bool) : Option (Flight × List Flight) :=
  let fs := engFlights (s.core c) 0
  (fs.find? p).map (fun f => (f, fs.takeWhile (fun x => x.id != f.id)))

/-- After a command has completed, the commands behind it go on (R110), and a stream that waits asks for a ramp (R122). -/
def pressNext (s : State) (c : Nat) : State := pressAdvance 8 (wantRamp s c) c

/-- PCONF is issued (R109, R133). -/
def execPconf (c : Nat) (i : Issue) (d : PconfDesc) (s : State) : Res := .next (engRow s c i (.press (.pconf d)))

/-- PLOAD is issued (R109, R113, R133). -/
def execPload (c : Nat) (i : Issue) (d : PloadDesc) (s : State) : Res := .next (engRow s c i (.press (.pload d)))

/-- PSWAP is issued (R109, R112). -/
def execPswap (c : Nat) (i : Issue) (s : State) : Res := .next (engRow s c i (.press .pswap))

/-- PSTREAM is issued (R109, R133); on an IDLE or FALLING Press it asks for a ramp (R122, R124). -/
def execPstream (c : Nat) (i : Issue) (d : PstreamDesc) (s : State) : Res := .next (engRow s c i (.press (.pstream d)))

/-- PDRAIN is issued (R109, R116, R133). -/
def execPdrain (c : Nat) (i : Issue) (d : PdrainDesc) (s : State) : Res := .next (engRow s c i (.press (.pdrain d)))

/-- R111: a PCONF with no earlier command outstanding takes effect and completes. -/
def execPconfTakeEffect (c : Nat) (s : State) : Res :=
  .next (
    match engFlights (s.core c) 0 with
    | f :: _ =>
      match pressOf f with
      | some (.pconf d) => pressNext (complete (modPrs s c (fun p => { p with conf := confOf d })) c f false) c
      | _ => s
    | [] => s)

/-- The images of the sub-tiles that a PLOAD names (R107), read through the stationary-load port, with their tally sums
where tally is enabled (R126). -/
def loadSubs (s : State) (c : Nat) (g : Geo) (ten : Bool) (d : PloadDesc) : State × Map SubTile × Option Nat :=
  ((subList d.submask).zipIdx).foldl (fun (acc : State × Map SubTile × Option Nat) x =>
    let (s, m, bad) := acc
    let (sub, i) := x
    let (s, data, b1) := spRead s c (d.data + i * g.dataBytes) g.dataBytes 2
    let (s, scl, b2) := if g.scaled then spRead s c (d.scl + i * g.sclBytes) g.sclBytes 2 else (s, [], [])
    let (s, esc, b3) := if g.een then spRead s c (d.esca + i * g.escBytes) g.escBytes 2 else (s, [], [])
    let (rs, ra) := if ten then tallySums g data scl esc else ([], [])
    (s, mset m sub ⟨data, scl, esc, rs, ra⟩, bad.orElse (fun _ => (b1 ++ b2 ++ b3).head?))) (s, [], none)

/-- R111, R113, R126: the load under way writes its last byte into the shadow registers. -/
def execPloadComplete (c : Nat) (s : State) : Res :=
  .next (
    match pressFirst s c (fun f => isLoad f && f.begun) with
    | some (f, _) =>
      match pressOf f with
      | some (.pload d) =>
        let conf := (s.core c).prs.conf
        let g := geo conf
        let (s, subs, bad) := loadSubs s c g conf.ten d
        let s := modPrs s c (fun p =>
          let v := loadValid p.shadow.tag conf p.shadow.valid d.submask
          { p with
            shadow := { tag := conf, valid := v, subs := subs.foldl (fun m x => mset m x.1 x.2) p.shadow.subs } })
        let n := (subList d.submask).length
        let w := engSample f false 0 0
        let s := count (count s c 0x11 1 w) c 0x12 (n * ((g.dataBytes + g.sclBytes + g.escBytes + 63) / 64)) w
        let f := { f with memDetail := f.memDetail.orElse (fun _ => bad.map (fun w => (captureOf s c w 2, w))) }
        pressNext (complete s c f false) c
      | _ => s
    | none => s)

/-- R112: the swap. Active and shadow registers change places with their tags, and the PSWAP completes. -/
def execPswapSwap (c : Nat) (s : State) : Res :=
  .next (
    match pressFirst s c isSwap with
    | some (f, before) =>
      if mayBegin (s.core c).prs before f then
        let s := modPrs s c (fun p => { p with active := p.shadow, shadow := p.active })
        pressNext (complete (count s c 0x13 1 (engSample f false 0 0)) c f false) c
      else s
    | none => s)

/-- R122, R123: whether core `c`'s Press waits for a ramp and may be granted one. -/
def wantsRamp (s : State) (c : Nat) : Bool :=
  let p := (s.core c).prs
  p.want && (p.pstate == .idle || p.pstate == .falling)

/-- R123: the core of group `g` whose turn it is: round robin in k, from the one after the last core granted. -/
def arbiterPick (s : State) (g : Nat) : Option Nat :=
  ((List.range 12).map (fun i => 12 * g + ((s.grp g).lastK + 1 + i) % 12)).find? (wantsRamp s)

/-- R123: 32 CCLK have passed since the last grant of group `g`. -/
def arbiterFree (s : State) (g : Nat) : Bool :=
  match (s.grp g).lastAt with
  | some t => decide (t + 32 ≤ (s.field (g / 8)).cclk)
  | none => true

/-- R411: the group of field `n` whose turn it is among those that wait and whose arbiter would grant. -/
def pacerPick (s : State) (n : Nat) : Option Nat :=
  ((List.range 8).map (fun i => 8 * n + ((s.field n).paceRow + 1 + i) % 8)).find? (fun g =>
    (arbiterPick s g).isSome && arbiterFree s g)

/-- R411: INTERVAL NCLK of 1.8 GHz have passed since the last grant of field `n`. -/
def pacerFree (s : State) (n : Nat) : Bool :=
  match (s.field n).paceAt with
  | some t => decide (5 * (s.field n).paceInterval ≤ 9 * (s.now - t))
  | none => true

/-- R122 to R124, R411: the start arbiter of the group and the pacer of the field grant core `c` its ramp: the Press is
RAMPING. A core whose turn it is not is granted nothing. -/
def execRampGrant (c : Nat) (s : State) : Res :=
  .next (
    let g := groupOf c
    let n := fieldOf c
    if arbiterPick s g = some c ∧ pacerPick s n = some g ∧ pacerFree s n then
      let s := modGrp s g (fun r => { r with lastK := c % 12, lastAt := some (s.field n).cclk })
      let s := modField s n (fun d => { d with paceRow := g % 8, paceAt := some s.now })
      modPrs s c (fun p => { p with pstate := .ramping, want := false })
    else s)

/-- R122: the last rows are enabled: the Press is ACTIVE, and a stream that waits enters. -/
def execRampComplete (c : Nat) (s : State) : Res :=
  .next (
    if (s.core c).prs.pstate = .ramping then
      pressNext (modPrs s c (fun p => { p with pstate := .active, rowsOn := 128 })) c
    else s)

/-- R111, R115, R127: the last result of the stream under way is written or added into the accumulator buffer; its
tally decisions are due, and its tag is signalled. -/
def execPstreamComplete (c : Nat) (s : State) : Res :=
  .next (
    match pressFirst s c (fun f => isStream f && f.begun) with
    | some (f, _) =>
      match pressOf f with
      | some (.pstream d) =>
        let p := (s.core c).prs
        let q := f.accs.foldl (accWrite f.intPass d.accum) { p with flags := 0 }
        let s := modPrs s c (fun _ => { q with flags := p.flags ||| q.flags, tallyQ := p.tallyQ ++ f.tally })
        pressNext (complete (count (countConds s c 0x23 q.flags (engSample f false 0 0)) c 0x14 1 (engSample f false 0 0)) c f false) c
      | _ => s
    | none => s)

/-- PRS_TALLY_INFO as a register word (Table 4.20). -/
def tallyInfoWord (p : Press) : Nat :=
  (if p.infoV then 2 ^ 31 else 0) + p.infoSub * 2 ^ 24 + p.infoRow * 2 ^ 15 + p.infoTag

/-- R127, R128: the oldest comparison due is decided. A mismatch is counted, captured where V is 0, and raised as a
silent-suspect event with PRS_TALLY_INFO and PRS_TALLY_CNT (R477). -/
def execTallyDecide (c : Nat) (s : State) : Res :=
  .next (
    match (s.core c).prs.tallyQ with
    | [] => s
    | t :: ts =>
      let s := count (modPrs s c (fun p => { p with tallyQ := ts })) c 0x1F 1 bareSample
      match t.outcome with
      | .match_ => s
      | .skip => count (modPrs s c (fun p => { p with tallySkip := satInc p.tallySkip 1 })) c 0x21 1 bareSample
      | .mismatch =>
        let s := modPrs s c (fun p =>
          let p := { p with tallyCnt := satInc p.tallyCnt 1 }
          if p.infoV then p else { p with infoV := true, infoSub := t.sub, infoRow := t.row, infoTag := t.tag })
        let p := (s.core c).prs
        raiseErr (count s c 0x20 1 bareSample) 0x0014 1 c (partOf s c) (echoOf s c) [tallyInfoWord p, p.tallyCnt])

/-- R111, R116, R130: the drain under way writes its last byte, and PRS_AMAX of every drained column. A write that
would be merged into an uncorrectable word is not made, and the core faults (Table 5.4). -/
def execPdrainComplete (c : Nat) (s : State) : Res :=
  .next (
    match pressFirst s c (fun f => isDrain f && f.begun) with
    | some (f, _) =>
      let bad := f.writes.findSome? (fun w => badMerge s c w.1 w.2.length)
      let det := bad.map (fun w => (captureOf s c w 3, w))
      let s := f.writes.foldl (fun s w => (spWrite s c w.1 w.2 3).1) s
      let s := modPrs s c (fun p => { p with amax := f.amax.foldl (fun m x => mset m x.1 x.2) p.amax })
      pressNext (complete (count s c 0x15 1 (engSample f false 0 0)) c { f with memDetail := f.memDetail.orElse (fun _ => det) } false) c
    | none => s)

/-- R124: an ACTIVE Press with nothing entering and nothing waiting has counted PRS_CTRL.IDLE CCLK: it is FALLING, also before the
results of a stream whose rows have entered. With IDLE = 0 it never is. -/
def execPressIdleCountExpire (c : Nat) (s : State) : Res :=
  .next (
    let p := (s.core c).prs
    if p.pstate = .active ∧ p.ctrlIdle ≠ 0 ∧ !(engFlights (s.core c) 0).any (fun f => isStream f && !f.begun) then
      modPrs s c (fun p => { p with pstate := .falling })
    else s)

/-- R124: the last rows of a FALLING Press are disabled: it is IDLE. -/
def execPressFallComplete (c : Nat) (s : State) : Res :=
  .next (
    if (s.core c).prs.pstate = .falling then modPrs s c (fun p => { p with pstate := .idle, rowsOn := 0 }) else s)

end Sys2Proof.Machine
end

