-- ==== Sys2Proof/Machine/Sasil.lean ====
section
/-!
DEFINITION. Management messages as they arrive: SPDM, datagrams, mailboxes, peers, Sasil requests, and their timers (R484 to R515).
-/

namespace Sys2Proof.Machine

/-! ### SPDM (R489, R519) -/

/-- GET_VERSION: version 1.3 alone is listed. -/
def execGetVersion (tr : Transport) (s : State) : Res := .next (spdm s tr .getVersion)

/-- GET_CAPABILITIES. -/
def execGetCapabilities (tr : Transport) (s : State) : Res := .next (spdm s tr .getCapabilities)

/-- NEGOTIATE_ALGORITHMS. -/
def execNegotiateAlgorithms (tr : Transport) (s : State) : Res := .next (spdm s tr .negotiate)

/-- GET_DIGESTS of slot 0. -/
def execGetDigests (tr : Transport) (s : State) : Res := .next (spdm s tr .getDigests)

/-- GET_CERTIFICATE; slot 0 is the only one. -/
def execGetCertificate (tr : Transport) (slot : Nat) (s : State) : Res := .next (spdm s tr (.getCertificate slot))

/-- KEY_EXCHANGE: Lantern signs the transcript hash; a transport without room answers Busy (R492). -/
def execKeyExchange (tr : Transport) (transcript : Bytes) (s : State) : Res := .next (spdm s tr (.keyExchange transcript))

/-- FINISH: Table 16.4 decides the class, or refuses the session (R490). -/
def execFinish (tr : Transport) (auth : Auth) (s : State) : Res := .next (spdm s tr (.finish auth))

/-- CHALLENGE: a signed CHALLENGE_AUTH. -/
def execChallenge (tr : Transport) (nonce : Bytes) (s : State) : Res := .next (spdm s tr (.challenge nonce))

/-- GET_MEASUREMENTS: the blocks of Table 16.3, signed. -/
def execGetMeasurements (tr : Transport) (idx : Nat) (nonce : Bytes) (s : State) : Res :=
  .next (spdm s tr (.getMeasurements idx nonce))

/-- HEARTBEAT in a secure session. -/
def execHeartbeat (tr : Transport) (sid : Nat) (s : State) : Res := .next (spdm s tr (.heartbeat sid))

/-- KEY_UPDATE in a secure session. -/
def execKeyUpdate (tr : Transport) (sid : Nat) (s : State) : Res := .next (spdm s tr (.keyUpdate sid))

/-- R492: a secure session has been idle for security.session_timeout. -/
def execSessionTimeout (sid : Nat) (s : State) : Res :=
  .next (
    match mfind s.sessions sid with
    | some e => if e.secure then closeSession s sid .timeout else s
    | none => s)

/-! ### Paths (R485 to R488) -/

/-- Whether an address lies in a prefix of `n` bits. -/
def inPrefix (a p : Bytes) (n : Nat) : Bool :=
  let k := 128 - min n 128
  leNat a.reverse / 2 ^ k == leNat p.reverse / 2 ^ k

/-- R485: whether mgmt.allow admits a source address of 16 B. -/
def allowed (s : State) (src : Bytes) : Bool :=
  let b := cfgBlob s 0xB0 0x0015 0
  b == [] || (List.range (b.length / 20)).any (fun i =>
    inPrefix (padTo 16 src) ((b.drop (20 * i)).take 16) (byteNat b (20 * i + 16)))

/-- Whether management port `p` works: M runs and the port is not disabled. -/
def portUp (s : State) (p : Nat) : Bool := decide (p < 2) && s.dev != .off && netNum s 0x10 p != 2

/-- R485: whether management port `p` holds an address of the family of a source: IPv4 needs mgmt.ipv4_enable and mgmt.ipv4. -/
def familyOn (s : State) (p : Nat) (src : Bytes) : Bool :=
  if (padTo 16 src).take 12 = List.replicate 10 0#8 ++ [0xFF#8, 0xFF#8] then netNum s 0x12 0 == 1 && netBlob s 0x13 p != [] else true

/-- R485: a datagram from `src`, an IPv4 address as IPv4-mapped, arrives on management port `p`. -/
def execMgmtDatagram (p : Nat) (src : Bytes) (u : MgmtUnit) (s : State) : Res :=
  .next (
    if !portUp s p || !familyOn s p src then s
    else if !allowed s src then modMgmt s (fun m => { m with filtered := m.filtered + 1 })
    else if s.fw.recovery then s
    else unit s (.eth p) u)

/-- The MAC address of management port `p` (R485): the base plus the port. -/
def portMac (p : Nat) : Bytes :=
  let n := leNat ((List.range 6).map Config.macBase).reverse
  (natBytes 6 (n + p)).reverse

/-- R485: the IPv6 addresses of management port `p`. -/
def portAddrs (s : State) (p : Nat) : List Bytes :=
  let g := netBlob s 0x11 p
  [(List.range 16).map (Config.linkLocal p), if g = [] then (List.range 16).map (Config.autoAddr p) else g.take 16]

/-- R485: a probe for an address that the port holds is answered. -/
def execMgmtNetworkProbe (p : Nat) (kind : ProbeKind) (target : Bytes) (s : State) : Res :=
  .next (
    if !portUp s p then s
    else
      match kind with
      | .neighbour => if (portAddrs s p).contains target then emit s (.net p 0 (target ++ portMac p)) else s
      | .echo6 => if (portAddrs s p).contains target then emit s (.net p 1 target) else s
      | .arp =>
        if netNum s 0x12 0 = 1 ∧ (netBlob s 0x13 p).take 4 = target ∧ target ≠ [] then emit s (.net p 2 (target ++ portMac p))
        else s)

/-- R486: an MCTP control message: the bus owner sets the endpoint ID, or asks for it; others are answered as unsupported. -/
def execMctpControl (c : MctpCtl) (s : State) : Res :=
  .next (
    if s.dev = .off then s
    else
      match c with
      | .setEid eid => emit (modMgmt s (fun m => { m with eid := eid % 256 })) (.net 32 0 (natBytes 1 eid))
      | .getEid => emit s (.net 32 1 (natBytes 1 s.mgmt.eid))
      | .other => emit s (.net 32 2 []))

/-- R486: ENTDAA gives the device its dynamic address. -/
def execI3cEntdaa (addr : Nat) (s : State) : Res :=
  .next (if s.dev = .off then s else modMgmt s (fun m => { m with i3c := some (addr % 128) }))

/-- R487, R511: GO executes the unit in the request buffer of a mailbox. A plain unit is read from the buffer; what an SPDM or
secured one carries is `u`. -/
def mailboxGo (s : State) (h f : Nat) (u : Option MgmtUnit) : State :=
  if !mbxAlive s h f ∨ s.dev = .off then s
  else
    let k := ((s.host h).fn f).mbx
    let n := k.reqLen
    let b := (padTo 16384 k.req).take n
    let tr : Transport := .mbx h f
    let raw := padTo 16 b
    let hdr : SasilHdr := (parseMsg tr (b.drop 4)).1
    if !servedOn s tr ∨ !mbxEnabled s h f then refuse s hdr .close 0 stUnavailable
    else if n < 20 ∨ 16384 < n then badUnit s tr raw
    else
      match leAt b 0 4, u with
      | 1, some (.spdm m) => spdm s tr m
      | 2, some (.secured ok hd bd) => unit s tr (.secured ok hd bd)
      | 3, _ => request s hdr (parseMsg tr (b.drop 4)).2
      | 1, _ => s
      | 2, _ => s
      | _, _ => badUnit s tr raw

/-- R487: a write of 1 to HIF_MBX_CTRL.GO. -/
def execMailboxGo (h f : Nat) (u : MgmtUnit) (s : State) : Res := .next (mailboxGo s h f (some u))

/-- R488: a MGMT packet of device `dev` brings a unit. -/
def execPeerMgmtPacket (dev : Nat) (u : MgmtUnit) (s : State) : Res := .next (unit s (.peer dev) u)

/-! ### Sasil requests (R493 to R506) -/

/-- HELLO (R496, R497). -/
def execHello (h : SasilHdr) (vmask : Nat) (s : State) : Res := .next (request s h (.hello vmask))

/-- GET (R496). -/
def execGet (h : SasilHdr) (as : List ObjAddr) (s : State) : Res := .next (request s h (.get as))

/-- SET (R495, R499, R500). -/
def execSet (h : SasilHdr) (es : List ObjEntry) (s : State) : Res := .next (request s h (.set es))

/-- GETBLOCK (R502). -/
def execGetblock (h : SasilHdr) (a : ObjAddr) (off maxLen : Nat) (s : State) : Res := .next (request s h (.getblock a off maxLen))

/-- SETBLOCK (R502). -/
def execSetblock (h : SasilHdr) (a : ObjAddr) (off : Nat) (data : Bytes) (s : State) : Res :=
  .next (request s h (.setblock a off data))

/-- SUBSCRIBE (R506). -/
def execSubscribe (h : SasilHdr) (r : SubReq) (s : State) : Res := .next (request s h (.subscribe r))

/-- ACTION (R501, R504, R505). -/
def execAction (h : SasilHdr) (e : ObjEntry) (s : State) : Res := .next (request s h (.action e))

/-- CLOSE (R492). -/
def execClose (h : SasilHdr) (s : State) : Res := .next (request s h .close)

/-! ### Timers and deliveries -/

/-- R498: a gap has been open for 2 s: every held request is answered SEQUENCE. -/
def execSequenceGapTimeout (sid : Nat) (s : State) : Res :=
  .next (
    match mfind s.sessions sid with
    | none => s
    | some e => e.held.foldl (fun s x => refuse s x.1 x.2 sid stSequence) (modSession s sid (fun e => { e with held := [] })))

/-- R502: a staging copy has been left for 10 s. -/
def execStagingTimeout (sid : Nat) (s : State) : Res := .next (dropStaging s sid)

/-- R500: values set are committed to the configuration region. -/
def execConfigCommit (s : State) : Res := .next (modMgmt s (fun m => { m with committed := s.cfg }))

/-- R515: management-port settings take effect. -/
def execMgmtSettingsApply (s : State) : Res :=
  .next (modMgmt s (fun m =>
    { m with
      netDue := []
      netEff := [] }))

/-- R507: records reach a subscription. -/
def execEventDeliver (sid : Nat) (s : State) : Res := .next (deliver s sid)

end Sys2Proof.Machine
end

