-- ==== Sys2Proof/Machine/Vector.lean ====
section
/-!
DEFINITION. The commands and events of the vector unit (R198 to R213). Each command row issues one operation of Table
6.12; VEC_COMMAND_START computes it and VEC_COMMAND_COMPLETE writes its results.
-/

namespace Sys2Proof.Machine

/-- VEC ADD is issued (Table 6.12, R202, R211). -/
def execVecAdd (c : Nat) (i : Issue) (d : VecDesc) (s : State) : Res := .next (engRow s c i (.vec .add d))

/-- VEC SUB is issued (Table 6.12, R202, R211). -/
def execVecSub (c : Nat) (i : Issue) (d : VecDesc) (s : State) : Res := .next (engRow s c i (.vec .sub d))

/-- VEC MUL is issued (Table 6.12, R202, R211). -/
def execVecMul (c : Nat) (i : Issue) (d : VecDesc) (s : State) : Res := .next (engRow s c i (.vec .mul d))

/-- VEC FMA is issued (Table 6.12, R202, R211). -/
def execVecFma (c : Nat) (i : Issue) (d : VecDesc) (s : State) : Res := .next (engRow s c i (.vec .fma d))

/-- VEC MAX is issued (Table 6.12, R203, R211). -/
def execVecMax (c : Nat) (i : Issue) (d : VecDesc) (s : State) : Res := .next (engRow s c i (.vec .max d))

/-- VEC MIN is issued (Table 6.12, R203, R211). -/
def execVecMin (c : Nat) (i : Issue) (d : VecDesc) (s : State) : Res := .next (engRow s c i (.vec .min d))

/-- VEC SEL is issued (Table 6.12, R202, R211). -/
def execVecSel (c : Nat) (i : Issue) (d : VecDesc) (s : State) : Res := .next (engRow s c i (.vec .sel d))

/-- VEC CGT is issued (Table 6.12, R202, R211). -/
def execVecCgt (c : Nat) (i : Issue) (d : VecDesc) (s : State) : Res := .next (engRow s c i (.vec .cgt d))

/-- VEC ABS is issued (Table 6.12, R203, R211). -/
def execVecAbs (c : Nat) (i : Issue) (d : VecDesc) (s : State) : Res := .next (engRow s c i (.vec .abs d))

/-- VEC NEG is issued (Table 6.12, R203, R211). -/
def execVecNeg (c : Nat) (i : Issue) (d : VecDesc) (s : State) : Res := .next (engRow s c i (.vec .neg d))

/-- VEC EXP2 is issued (Table 6.12, R204, R211). -/
def execVecExp2 (c : Nat) (i : Issue) (d : VecDesc) (s : State) : Res := .next (engRow s c i (.vec .exp2 d))

/-- VEC LOG2 is issued (Table 6.12, R204, R211). -/
def execVecLog2 (c : Nat) (i : Issue) (d : VecDesc) (s : State) : Res := .next (engRow s c i (.vec .log2 d))

/-- VEC RCP is issued (Table 6.12, R204, R211). -/
def execVecRcp (c : Nat) (i : Issue) (d : VecDesc) (s : State) : Res := .next (engRow s c i (.vec .rcp d))

/-- VEC RSQRT is issued (Table 6.12, R204, R211). -/
def execVecRsqrt (c : Nat) (i : Issue) (d : VecDesc) (s : State) : Res := .next (engRow s c i (.vec .rsqrt d))

/-- VEC RSUM is issued (Table 6.12, R205, R211). -/
def execVecRsum (c : Nat) (i : Issue) (d : VecDesc) (s : State) : Res := .next (engRow s c i (.vec .rsum d))

/-- VEC RMAX is issued (Table 6.12, R205, R211). -/
def execVecRmax (c : Nat) (i : Issue) (d : VecDesc) (s : State) : Res := .next (engRow s c i (.vec .rmax d))

/-- VEC RMIN is issued (Table 6.12, R205, R211). -/
def execVecRmin (c : Nat) (i : Issue) (d : VecDesc) (s : State) : Res := .next (engRow s c i (.vec .rmin d))

/-- VEC RAMAX is issued (Table 6.12, R205, R211). -/
def execVecRamax (c : Nat) (i : Issue) (d : VecDesc) (s : State) : Res := .next (engRow s c i (.vec .ramax d))

/-- VEC CVT is issued (Table 6.12, R202, R211). -/
def execVecCvt (c : Nat) (i : Issue) (d : VecDesc) (s : State) : Res := .next (engRow s c i (.vec .cvt d))

/-- VEC QNT is issued (Table 6.12, R206, R211). -/
def execVecQnt (c : Nat) (i : Issue) (d : VecDesc) (s : State) : Res := .next (engRow s c i (.vec .qnt d))

/-- VEC QNTE is issued (Table 6.12, R206, R211). -/
def execVecQnte (c : Nat) (i : Issue) (d : VecDesc) (s : State) : Res := .next (engRow s c i (.vec .qnte d))

/-- VEC DQNT is issued (Table 6.12, R207, R211). -/
def execVecDqnt (c : Nat) (i : Issue) (d : VecDesc) (s : State) : Res := .next (engRow s c i (.vec .dqnt d))

/-- VEC TRN is issued (Table 6.12, R208, R211). -/
def execVecTrn (c : Nat) (i : Issue) (d : VecDesc) (s : State) : Res := .next (engRow s c i (.vec .trn d))

/-- VEC COPY is issued (Table 6.12, R202, R211). -/
def execVecCopy (c : Nat) (i : Issue) (d : VecDesc) (s : State) : Res := .next (engRow s c i (.vec .copy d))

/-- R209: a write of S to VEC_SEED seeds every lane generator. -/
def seedAll (v : Vec) (w : W32) : Vec :=
  { v with gens := (List.range 64).map (fun l => (l, seedLane w l)), seedPend := none }

/-- The escape slots with V = 1 that a QNTE has written. -/
def escWritten (d : VecDesc) (ws : List (Nat × Bytes)) : Nat :=
  let n := d.n / 32 * 4
  ((ws.filter (fun w => (List.range d.rows).any (fun r => w.1 == d.esc + r * n && w.2.length == n))).map (fun w =>
    ((List.range (n / 2)).filter (fun i => (w.2.getD (2 * i) 0).getLsbD 7)).length)).sum

/-- What a started command adds to the counters of Table 18.1. -/
def countVec (s : State) (c : Nat) (f : Flight) (op : VecOp) (d : VecDesc) (x : VRun) : State :=
  let n := d.n * d.rows
  let w := engSample f false 0 0
  let s := count s c 0x29 n w
  let s := count s c 0x2B x.sat w
  let s := if d.rnd = 2 then count s c 0x2C n w else s
  let s := countConds s c 0x2D x.fl w
  let s := count s c 0x37 x.flush w
  match op with
  | .fma => count s c 0x31 n w
  | .exp2 | .log2 | .rcp | .rsqrt => count s c 0x32 n w
  | .rsum | .rmax | .rmin | .ramax => count s c 0x33 d.rows w
  | .qnt => count s c 0x34 (d.rows * (d.n / blk d)) w
  | .qnte => count (count s c 0x34 (d.rows * (d.n / blk d)) w) c 0x35 (escWritten d x.writes) w
  | _ => s

/-- R213, R209, R210: the first command not yet started begins: a seed that waits takes effect, FTZ is sampled, every
element is read and computed, and its flags and clamps are recorded. Its scratchpad results are written when it
completes. -/
def execVecCommandStart (c : Nat) (s : State) : Res :=
  .next (
    match (engFlights (s.core c) 1).find? (fun f => !f.begun) with
    | some f =>
      match f.body with
      | .vec op d =>
        let s := modVec s c (fun v => match v.seedPend with
          | some w => seedAll v w
          | none => v)
        let x := vecRun op d s c
        let s := modVec x.st c (fun v => { v with flags := v.flags ||| x.fl, satcnt := satInc v.satcnt x.sat })
        let det := x.bad.head?.map (fun w => (captureOf s c w 4, w))
        countVec (modCore s c (fun k => sbReleaseReads (modFlight k f.id (fun f =>
          { f with begun := true, writes := x.writes, memDetail := det })) f.id)) c f op d x
      | _ => s
    | none => s)

/-- R198: the command under way writes its last result and completes; a write that would be merged into an uncorrectable
word is not made, and the core faults (Table 5.4). -/
def execVecCommandComplete (c : Nat) (s : State) : Res :=
  .next (
    match engFlights (s.core c) 1 with
    | f :: _ =>
      if f.begun then
        let bad := f.writes.findSome? (fun w => badMerge s c w.1 w.2.length)
        let det := bad.map (fun w => (captureOf s c w 4, w))
        let s := f.writes.foldl (fun s w => (spWrite s c w.1 w.2 4).1) s
        complete (count s c 0x28 1 (engSample f false 0 0)) c { f with memDetail := f.memDetail.orElse (fun _ => det) } false
      else s
    | [] => s)

/-- R209: what a write of VEC_SEED does: at once while no command runs, else at the start of the next command. -/
def vecSeedWrite (s : State) (c : Nat) (w : W32) : State :=
  if (engFlights (s.core c) 1).any (fun f => f.begun) then modVec s c (fun v => { v with seedPend := some w })
  else modVec s c (fun v => seedAll v w)

end Sys2Proof.Machine
end

