-- ==== Sys2Proof/Machine/RegRead.lean ====
section
/-!
DEFINITION. CSR space: its blocks, the rights to them, and what each register reads as (R50 to R60, R136, R173, R214, R255, R280,
R322, R347, R371, R390, R433, R465, R516, R549, R550).
-/

namespace Sys2Proof.Machine

/-! ### Blocks and rights (R50, R53, R573) -/

/-- R51, R53, R54, R277, R279, R573: the status of a register access at global address `a`; a request of another device is always
refused (R52). The requests of a core are discarded at a core under reset, which Carafe reaches (R141).
DEDUCED, log entry 44. DEDUCED, log entry 46. -/
def csrCheck (s : State) (req : Requester) (a size : Nat) (write : Bool) : RSt :=
  let sizeOk : Bool := (size == 4 || size == 8) && a % size == 0
  match csrPlace a with
  | none =>
    match req with
    | .dev _ _ _ => .denied
    | .host _ _ => .denied
    | _ => .unmapped
  | some (b, off) =>
    if !csrRights s req b write then .denied
    else
      let absent : Bool := match b with
        | .core c => !present s c
        | _ => false
      let off' : Bool := match b with
        | .core c => (s.core c).crst && req != .carafe
        | .stack i => dieOff s i
        | .link l => dieOff s (16 + l)
        | .host h => dieOff s (24 + h)
        | _ => false
      if absent || csrGap b off || (size == 8 && csrGap b (off + 4)) then .unmapped
      else if !sizeOk then .size
      else if off' then .destReset
      else .ok

/-- The partition that a refusal of a register access is counted for (R551). -/
def csrOwner (s : State) (req : Requester) : Option Nat :=
  match req with
  | .core c => partOf s c
  | _ => none

/-! ### Core blocks -/

/-- CORE_STATUS.BLK (Table 6.18). A stalled X waits for the scoreboard while a range of its own conflicts or finds no entry
(R147, R188), else for its engine or tag. -/
def blkCode (k : Core) : Nat :=
  if k.ctl.st = .ending then 7
  else
    match k.ctl.blk with
    | .none => 0
    | .sb => 1
    | .x _ rs => if sbConflict k rs then 1 else 2
    | .twait _ | .waitAll | .sync _ => 3
    | .qrecv _ _ _ | .evwait _ _ => 4
    | .qsend _ _ => 5
    | .gacc _ => 6

def hasBegun (k : Core) (p : EngBody → Bool) : Bool := k.flights.any (fun f => f.begun && p f.body)

/-- CORE_ID to CORE_FREC15 (Tables 6.15, 6.17 to 6.25). -/
def coreReg (s : State) (c off : Nat) : Nat :=
  let k := (s.core c).ctl
  match off with
  | 0x00 => partNum s c * 2 ^ 28 + s.devId * 2 ^ 14 + c
  | 0x04 => blkCode (s.core c) * 2 ^ 8 + ctlStateCode k.st
  | 0x08 => k.pc.toNat % 2 ^ 21
  | 0x0C => k.launch.toNat
  | 0x10 => k.gtag.toNat
  | 0x14 => k.gtmo
  | 0x18 => bit k.fdestV 31 + k.fdest
  | 0x1C => k.fnoteDrop
  | 0x20 => k.tagErr.toNat
  | _ =>
    if 0x100 ≤ off ∧ off < 0x140 then
      match k.frec with
      | some r => leAt (frecBytes r) (off - 0x100) 4
      | none => 0
    else 0

/-- PRS_CONF (Table 4.17). -/
def confWord (k : PressConf) : Nat :=
  bit k.ten 12 + k.ramp.toNat * 2 ^ 10 + bit k.een 9 + bit k.bsz 8 + bit k.sen 7 + k.pack.toNat * 2 ^ 4 + k.fmt.toNat

def pstateCode : PState → Nat
  | .idle => 0
  | .ramping => 1
  | .active => 2
  | .falling => 3

/-- PRS_CTRL to PRS_AMAX63 (Tables 4.14 to 4.21); `off` counts from 0x1000. LBUSY, SBUSY and DBUSY read 1 while a PLOAD, PSTREAM or
PDRAIN that has begun is in progress. DESIGN CHOICE, log entry 86. -/
def pressReg (s : State) (c off : Nat) : Nat :=
  let k := s.core c
  let p := k.prs
  let busy (q : PressCmd → Bool) : Bool := hasBegun k (fun b => match b with
    | .press x => q x
    | _ => false)
  match off with
  | 0x00 => p.ctrlIdle
  | 0x04 =>
    bit p.active.tag.ten 26 + p.shadow.valid.toNat * 2 ^ 18 + p.active.valid.toNat * 2 ^ 10 +
      bit (busy (fun x => match x with
        | .pdrain _ => true
        | _ => false)) 8 +
      bit (busy (fun x => match x with
        | .pstream _ => true
        | _ => false)) 7 +
      bit (busy (fun x => match x with
        | .pload _ => true
        | _ => false)) 6 +
      (engFlights k 0).length * 2 ^ 2 + pstateCode p.pstate
  | 0x08 => confWord p.conf
  | 0x20 => p.tol
  | 0x24 => p.tallyCnt
  | 0x28 => p.tallySkip
  | 0x2C => bit p.infoV 31 + p.infoSub * 2 ^ 24 + p.infoRow * 2 ^ 15 + p.infoTag
  | 0x30 => p.rampWait
  | 0x80 => p.flags.toNat
  | _ => if 0x100 ≤ off ∧ off < 0x200 ∧ off % 4 = 0 then (mget 0 p.amax ((off - 0x100) / 4)).toNat else 0

/-- VEC_CTRL to VEC_FLAGS (Tables 6.16, 6.26 to 6.28); `off` counts from 0x2000. -/
def vecReg (s : State) (c off : Nat) : Nat :=
  let k := s.core c
  let q := (engFlights k 1).length
  match off with
  | 0x00 => bit k.vec.ftz 0
  | 0x04 => q * 4 + bit ((engFlights k 1).any (fun f => f.begun)) 0
  | 0x0C => k.vec.satcnt
  | 0x80 => k.vec.flags.toNat
  | _ => 0

/-- SPD_STATUS.SPARES: the spare banks in use on the tile of core `c` (Table 5.10). -/
def sparesOf (s : State) (c : Nat) : Nat := min 2 (s.core c).spares.length

/-- One window register (Tables 5.17 to 5.21). DESIGN CHOICE, log entry 32. -/
def winReg (w : Window) (off : Nat) : Nat :=
  match off with
  | 0x00 => w.base * 64
  | 0x04 => w.len
  | 0x08 => bit w.en 31 + w.scope * 2 ^ 4 + bit w.w 1 + bit w.r 0
  | 0x0C => w.devhi * 2 ^ 16 + w.devlo
  | 0x10 => w.tag.toNat
  | _ => 0

/-- SPD_MODE to SPD_WIN15_TAG (Tables 5.7, 5.9 to 5.21); `off` counts from 0x3000. No command leaves a window with packets still
being written, so SPD_WIN_BUSY reads 0. -/
def spdReg (s : State) (c off : Nat) : Nat :=
  let d := (s.core c).spd
  match off with
  | 0x00 => bit d.lin 1 + bit d.near 0
  | 0x04 => sparesOf s c * 2 ^ 7 + bit d.modeRej 6 + (s.core c).sb.length
  | 0x10 => d.eccCe
  | 0x14 => d.eccUe
  | 0x18 => d.sbStall
  | 0x1C => d.winRefuse
  | 0x20 => eccInfoWord d.info
  | 0x24 => bit d.scrubEn 16 + d.scrubInterval
  | 0x28 => winLog0 d.log
  | 0x2C => winLog1 d.log
  | _ =>
    if 0x100 ≤ off ∧ off < 0x300 then winReg (mget Window.reset d.wins ((off - 0x100) / 0x20)) (off % 0x20) else 0

/-- DMA_STATUSe.STATE (Table 5.22). -/
def dmaState (k : Core) (e : Nat) : Nat :=
  match curDma k e with
  | none => 0
  | some (_, op, _) =>
    if (k.eng e).noting then 3
    else if op = .streamIn ∧ (k.eng e).bursts = [] ∧ (k.eng e).endStatus.isNone then 2
    else 1

/-- DMA_STATUSe, DMA_RESIDUEe and DMA_ERRCNTe (Tables 5.8, 5.22 to 5.24); `off` counts from 0x4000. -/
def dmaReg (s : State) (c off : Nat) : Nat :=
  let k := s.core c
  let e := off / 0x20
  let g := k.eng e
  if 4 ≤ e then 0
  else
    match off % 0x20 with
    | 0x00 =>
      (g.bound.getD 0) * 2 ^ 14 + bit g.bound.isSome 13 + g.bursts.length * 2 ^ 9 + (engFlights k (2 + e)).length * 2 ^ 6 +
        dmaState k e * 2 ^ 4 + g.last
    | 0x04 => g.residue
    | 0x08 => g.errcnt
    | _ => 0

/-- QUE_RLOG (Table 7.16). -/
def rlogWord (g : RLog) : Nat :=
  bit g.v 31 + g.cause * 2 ^ 27 + g.q * 2 ^ 22 + g.spart * 2 ^ 18 + bit g.evp 17 + g.sdev

/-- QUE_qCFG (Table 7.18). -/
def cfgWord (u : Queue) : Nat := bit u.en 31 + bit u.evt 14 + u.scope * 2 ^ 12 + u.esize * 2 ^ 8 + u.depth

/-- QUE_UNIT to QUE_31STAT (Tables 7.13 to 7.20); `off` counts from 0x5000. -/
def queReg (s : State) (c off : Nat) : Nat :=
  let k := s.core c
  match off with
  | 0x00 => waiterRecords k.que * 2 ^ 8 + (engFlights k 7).length * 2 ^ 4 + (engFlights k 6).length
  | 0x04 => k.que.refuse
  | 0x08 => rlogWord k.que.rlog
  | _ =>
    if 0x100 ≤ off ∧ off < 0x300 then
      let q := (off - 0x100) / 0x10
      let u := k.que.q q
      match off % 0x10 with
      | 0x0 => u.base * 64
      | 0x4 => cfgWord u
      | 0x8 => u.devhi * 2 ^ 16 + u.devlo
      | 0xC =>
        bit u.cfgrej 31 + bit (boundBy k q).isSome 30 + u.waiters.length * 2 ^ 23 + u.reserved.length * 2 ^ 9 + u.msgs.length
      | _ => 0
    else 0

/-- EVT_FLAGS0 to EVT_DEV (Tables 7.21, 7.22); `off` counts from 0x7000. -/
def evtReg (s : State) (c off : Nat) : Nat :=
  let u := (s.core c).que
  match off with
  | 0x00 | 0x08 => u.flags.toNat % 2 ^ 32
  | 0x04 | 0x0C => u.flags.toNat / 2 ^ 32
  | 0x10 => u.evtScope
  | 0x14 => u.evtHi * 2 ^ 16 + u.evtLo
  | _ => 0

/-- CNT_SELi (Table 18.9). -/
def selWord (e : CntSel) : Nat := bit e.en 31 + bit e.edge 30 + bit e.chain 29 + e.event

/-- CNT_SMP_CTRL (Table 18.11). -/
def smpCtrl (m : Sampler) : Nat :=
  m.event * 2 ^ 12 + m.log2sz * 2 ^ 4 + bit m.err 3 + bit m.edge 2 + bit m.dst 1 + bit m.en 0

/-- CNT_CTRL to CNT_SMP_LOST (Tables 18.7 to 18.11); `off` counts from 0x6000. -/
def cntReg (s : State) (c off : Nat) : Nat :=
  let k := (s.core c).cnt
  match off with
  | 0x000 => bit k.fovf 1 + bit k.frz 0
  | 0x004 => k.ovf
  | 0x100 => smpCtrl k.smp
  | 0x104 => k.smp.period
  | 0x108 => k.smp.base % 2 ^ 32
  | 0x10C => k.smp.base / 2 ^ 32
  | 0x110 => k.smp.head
  | 0x114 => k.smp.tail
  | 0x118 => k.smp.lost
  | _ =>
    if 0x20 ≤ off ∧ off < 0x40 then selWord (mget CntSel.reset k.sels ((off - 0x20) / 4))
    else if 0x40 ≤ off ∧ off < 0x80 then
      let v := mget 0 k.vals ((off - 0x40) / 8)
      if off % 8 = 0 then v % 2 ^ 32 else v / 2 ^ 32
    else 0

/-- A register of a core block: a sub-block of 4 KiB for each prefix of Table 2.7. DEDUCED, log entry 48. -/
def coreBlockReg (s : State) (c off : Nat) : Nat :=
  let o := off % 0x1000
  match off / 0x1000 with
  | 0 => coreReg s c o
  | 1 => pressReg s c o
  | 2 => vecReg s c o
  | 3 => spdReg s c o
  | 4 => dmaReg s c o
  | 5 => queReg s c o
  | 6 => cntReg s c o
  | 7 => evtReg s c o
  | _ => 0

/-! ### Shared counters (R547 to R549) -/

/-- R549: what a counter of a shared block reads as: for a compute core its partition's shadow, else what SHSEL names. -/
def sharedView (s : State) (req : Requester) (k : Shared) (j : Nat) : Nat :=
  let sel := match req with
    | .core c => classOfPart (partOf s c)
    | _ => k.shsel
  if sel < 17 then mget 0 k.shadows (17 * j + sel) else mget 0 k.totals j

/-- Table 18.5: the counters, SELj and CTL of block `b`; `off` counts from its first register. -/
def sharedReg (s : State) (req : Requester) (b off : Nat) : Nat :=
  let k := s.blk b
  let n := sharedCounters b
  if off < 8 * n then
    let v := sharedView s req k (off / 8)
    if off % 8 = 0 then v % 2 ^ 32 else v / 2 ^ 32
  else if off < 12 * n then
    let e := mget ShSel.reset k.sels (off % (4 * n) / 4)
    bit e.en 31 + bit e.edge 30 + (if b < 2000 then e.pl * 2 ^ 28 else 0) + e.event
  else if off = 12 * n then k.shsel * 2 ^ 16 + k.ovf * 2 ^ 8 + bit k.frz 0
  else 0

/-! ### Field blocks -/

/-- R36: the logical core at router `r` of field `n`, none at the group's spare or skipped tile. -/
def coreAt (s : State) (n r : Nat) : Option Nat :=
  let g := 8 * n + r / 13
  let col := r % 13
  let skip := (s.grp g).skip
  if col = skip then none else some (12 * g + (if col < skip then col else col - 1))

/-- Tables 8.4, 8.13: EDGEID and EIDX of a router. -/
def edgeOf (s : State) (n r : Nat) : Nat × Nat :=
  if r = fieldRouter s n then (27, 0)
  else
    match (List.range 135).find? (fun x => edgeTile (x / 5) (x % 5) == some (routerTile n r)) with
    | some x => (x / 5, x % 5)
    | none => (0x3F, 0)

/-- Tables 8.11, 8.12: overlay entry `e` of router `r`, at its reset value where it has not been written. -/
def ovlEntry (m : MeshF) (r e : Nat) : W32 × W32 := mget (0#32, 0x30#32) m.ovl (16 * r + e)

/-- MSH_Rr_STAT (Table 8.13). -/
def routerStat (s : State) (n r : Nat) : Nat :=
  let m := (s.field n).msh
  let v := ((List.range 16).filter (fun e => (ovlEntry m r e).1.toNat.testBit 31)).length
  let (id, i) := edgeOf s n r
  bit (routerDead s n r) 31 +
    bit (match coreAt s n r with
      | some c => (s.core c).crst
      | none => (s.grp (8 * n + r / 13)).rst) 30 +
    id * 2 ^ 24 + i * 2 ^ 20 + min v 15 * 2 ^ 16 + bit (v == 16) 15

/-- MSH_DROP_LOG (Table 8.10). -/
def dropWord (g : DropLog) : Nat := bit g.v 31 + bit g.devc 26 + g.dcore * 2 ^ 15 + g.spart * 2 ^ 11 + g.score

/-- The MSH_ registers of field `n` (Table 8.8) and the router counters. -/
def meshReg (s : State) (req : Requester) (n off : Nat) : Nat :=
  let m := (s.field n).msh
  if off < 0x4000 then
    match off with
    | 0x2000 => m.gen
    | 0x2004 => m.dropRst
    | 0x2008 => dropWord m.dropLog
    | _ => if 0x2040 ≤ off ∧ off < 0x2080 then mget 16 m.weights ((off - 0x2040) / 4) else 0
  else
    let r := (off - 0x4000) / 0x100
    let o := off % 0x100
    if 104 ≤ r then 0
    else if o = 0 then routerStat s n r
    else if 0x40 ≤ o ∧ o < 0xC0 then
      let e := ovlEntry m r ((o - 0x40) / 8)
      if o % 8 = 0 then e.1.toNat else e.2.toNat
    else if 0xC0 ≤ o then sharedReg s req (routerBlk n r) (o - 0xC0)
    else 0

/-- FLD_GRST.RST: whether the cores of group `g` are under reset. -/
def groupRst (s : State) (g : Nat) : Bool := (s.grp g).rst || (groupCores g).all (fun c => (s.core c).crst)

/-- FLD_CLKSTAT (Table 12.6). -/
def clkStat (k : Field) : Nat :=
  bit k.ehold 16 + bit k.pll1 15 + bit k.lk1 14 + bit k.lk0 13 + bit k.miss 12 + k.step

/-- FLD_PWR (Table 13.16). -/
def fldPwr (s : State) (n : Nat) : Nat := (s.field n).live * 2 ^ 16 + (s.field n).tcap * 2 ^ 7 + phaseCap (livePhases s n)

/-- LNK_RTt and FLD_RTt (Table 9.12), of one copy; `off` counts from 0x1_0000. -/
def rtReg (s : State) (copy off : Nat) : Nat := (rtEntry s.links copy (off / 0x10000) (off % 0x10000 / 4)).toNat

/-- The registers of a field block. -/
def fieldReg (s : State) (req : Requester) (n off : Nat) : Nat :=
  let k := s.field n
  if 0x10000 ≤ off then rtReg s (8 + n) (off - 0x10000)
  else if 0x2000 ≤ off then meshReg s req n off
  else if 0x1000 ≤ off then (lockWord (s.lock (256 * n + (off - 0x1000) / 4))).toNat
  else
    match off with
    | 0x000 => 0xB0 * 2 ^ 24 + n * 2 ^ 4 + n / 3 * 2 ^ 2 + n % 3
    | 0x200 => k.msh.seamRetry
    | 0x300 => clkStat k
    | 0x304 => k.echo.toNat % 2 ^ 32
    | 0x308 => k.echo.toNat / 2 ^ 32
    | 0x30C => k.dly
    | 0x400 => k.paceInterval
    | 0x404 => fldPwr s n
    | 0x500 => ((List.range 16).map (fun p => bit (haltBitOf s p) p)).sum
    | 0x504 =>
      ((List.range 8).map (fun r =>
        bit (s.grp (8 * n + r)).remap.isSome (8 + r) + bit (groupRst s (8 * n + r)) r)).sum
    | _ => if 0x100 ≤ off ∧ off < 0x120 then gmapWord (s.grp (8 * n + (off - 0x100) / 4)) else 0

/-! ### Link dies, stacks, host dies and the management die -/

/-- LNK_Pi_CTRL (Table 9.13). -/
def portCtrl (k : Port) : Nat := bit k.en 31 + bit k.eth 30 + k.bundle * 2 ^ 26 + bit k.bv 25 + bit k.steer 24

/-- The registers of port `p` (Tables 9.13 to 9.15). -/
def portReg (s : State) (p off : Nat) : Nat :=
  let k := s.port p
  match off with
  | 0x00 => portCtrl k
  | 0x04 => statWord k
  | 0x08 => k.ber.toNat
  | 0x0C => k.replay
  | 0x10 => k.pvcnt
  | 0x14 => k.stall
  | 0x18 => k.uncor
  | 0x1C => k.tagf
  | _ => 0

/-- The registers of a link-die block (Tables 9.8 to 9.15, 18.5). -/
def linkReg (s : State) (req : Requester) (l off : Nat) : Nat :=
  if 0x30000 ≤ off then 0
  else if 0x10000 ≤ off then rtReg s l (off - 0x10000)
  else if 0x800 ≤ off ∧ off < 0xA80 then sharedReg s req (portBlk (5 * l + (off - 0x800) / 0x80)) (off % 0x80)
  else if 0x100 ≤ off ∧ off < 0x240 then portReg s (5 * l + (off - 0x100) / 0x40) (off % 0x40)
  else
    match off with
    | 0x0 => 0xB0 * 2 ^ 24 + l * 2 ^ 14 + s.devId
    | 0x4 => bit s.links.prev 8 + (s.links.epochOf l).toNat
    | 0x8 => pvWord (mget LinkDie.reset s.links.dies l).pvlog
    | _ => 0

/-- The registers of a stack block (Tables 10.3 to 10.6, 18.5). -/
def stackReg (s : State) (req : Requester) (i off : Nat) : Nat :=
  let k := s.stack i
  if 0x100 ≤ off ∧ off < 0x164 then sharedReg s req (stackBlk i) (off - 0x100)
  else
    match off with
    | 0x00 => 0xB0 * 2 ^ 24 + i
    | 0x04 =>
      stackCode k.st * 2 ^ 30 + bit k.sref 29 + bit (decide (4096 ≤ k.retired.length)) 28 + bit k.hot 27 + k.retired.length
    | 0x08 => k.rate
    | 0x0C => k.temp
    | 0x10 => k.ce
    | 0x14 => k.ue
    | 0x18 => k.refuse
    | 0x20 => bit k.infoV 31 + k.infoCh * 2 ^ 26 + bit (decide (k.infoPc ≠ 0)) 25 + k.infoSrc * 2 ^ 23
    | 0x24 => k.infoWord
    | 0x28 => bit k.scrubEn 31 + k.hours
    | _ => 0

/-- HIF_ID and HIF_LINK (Table 11.14). -/
def hostDieReg (s : State) (h off : Nat) : Nat :=
  match off with
  | 0x0 => 0xB0 * 2 ^ 24 + h
  | 0x4 => hifLink (s.host h)
  | _ => 0

/-- ECH_STATUS (Table 12.8). -/
def echStatus (e : EchoM) : Nat :=
  (e.upPort.getD 0) * 2 ^ 26 + bit e.upPort.isSome 25 + e.src * 2 ^ 23 + e.st * 2 ^ 21 + bit e.back 20 + e.dist * 2 ^ 12

/-- The registers of the management-die block (Tables 12.3 to 12.8, 13.10 to 13.15). -/
def mgmtReg (s : State) (off : Nat) : Nat :=
  let k := s.clk
  match off with
  | 0x0000 => pwrStatus s
  | 0x0004 => pwrVin s
  | 0x0008 => pwrInput s
  | 0x000C => pwrLimit s
  | 0x0010 => s.pwr.throttle
  | 0x0014 => pwrTmax s
  | 0x10000 => bit k.armed.isSome 31 + bit k.cancel 30 + k.notrdy * 2 ^ 12 + k.miss
  | 0x10004 => k.regT % 2 ^ 32
  | 0x10008 => k.regT / 2 ^ 32
  | 0x1000C => bit k.armed.isSome 31 + k.regMask
  | 0x20000 => s.echoM.toNat % 2 ^ 32
  | 0x20004 => s.echoM.toNat / 2 ^ 32
  | 0x20008 => echStatus s.ech
  | 0x2000C => (BitVec.ofInt 32 s.ech.ofs).toNat
  | 0x20010 => s.ech.steps
  | _ =>
    if 0x40 ≤ off ∧ off < 0x64 then domWord s ((off - 0x40) / 4)
    else if 0x80 ≤ off ∧ off < 0x98 then auxWord (s.auxCh ((off - 0x80) / 4))
    else if 0x10040 ≤ off ∧ off < 0x10070 then mget 0 k.regTgt ((off - 0x10040) / 4)
    else 0

/-- The register at an offset of a block. -/
def blockReg (s : State) (req : Requester) (b : CsrBlk) (off : Nat) : Nat :=
  match b with
  | .core c => coreBlockReg s c off
  | .field n => fieldReg s req n off
  | .link l => linkReg s req l off
  | .stack i => stackReg s req i off
  | .host h => hostDieReg s h off
  | .mgmt => mgmtReg s off

/-! ### BAR0 and BAR4 (R351, R371, R516) -/

/-- HIF_Rr_CTRL to HIF_Rr_COAL (Tables 11.12, 11.13). -/
def ringReg (g : Ring) (off : Nat) : Nat :=
  match off with
  | 0x00 => bit g.en 31 + bit g.err 30 + g.cause * 2 ^ 27 + bit (g.out == 0) 26 + g.log2sz
  | 0x04 => g.sqbase
  | 0x08 => g.cqlo * 2 ^ 12
  | 0x0C => g.cqhi
  | 0x10 => g.sqtail
  | 0x14 => g.sqhead
  | 0x18 => g.cqhead
  | 0x1C => bit g.phase 16 + g.cqtail
  | 0x20 => g.coalTime * 2 ^ 8 + g.coalCount
  | _ => 0

/-- HIF_FSTAT (Table 11.11). -/
def fstat (s : State) (h f : Nat) : Nat :=
  devCode s.dev * 2 ^ 29 + (if s.dev = .waking then s.stage % 16 else 0) * 2 ^ 25 +
    bit (f != 0 && (s.part (f - 1)).resetting) 24 + bit (noPart s h f) 23 +
    (s.launches.filter (fun l => l.h == h && l.f == f)).length

/-- A function page (Table 11.10), with its MSI-X table at 0x8000 and its pending-bit array at 0x9000 (R365). PRESUMED, log entry 36. -/
def pageReg (s : State) (h f off : Nat) : Nat :=
  let k := (s.host h).fn f
  match off with
  | 0x0 => fstat s h f
  | 0x4 => if f = 0 then k.gib else 0
  | 0x8 => k.drop
  | _ =>
    if 0x100 ≤ off ∧ off < 0x200 then ringReg (k.ring ((off - 0x100) / 0x40)) (off % 0x40)
    else if 0x8000 ≤ off ∧ off < 0x8080 then (k.msixWord ((off - 0x8000) / 4)).toNat
    else if off = 0x9000 then k.pba
    else 0

/-- BAR0 of a function (Table 11.2): its page; for the PF also the pages of the VFs and the host die's block.
DEDUCED, log entry 49. -/
def bar0Reg (s : State) (h f off : Nat) : Nat :=
  if off < 0x10000 then pageReg s h f off
  else if f ≠ 0 then 0
  else if 0x100000 ≤ off ∧ off < 0x200000 then pageReg s h (1 + (off - 0x100000) / 0x10000) (off % 0x10000)
  else if 0x800000 ≤ off ∧ off < 0x900000 then hostDieReg s h (off - 0x800000)
  else 0

/-- HIF_MBX_STATUS (Table 16.14). DESIGN CHOICE, log entry 32. -/
def mbxStatus (k : Mailbox) : Nat :=
  bit k.busy 31 + bit k.done 30 + bit (k.evHead != k.evTail) 29 + min k.ign 255 * 2 ^ 16 + k.rspLen

/-- One byte of BAR4's buffers (Table 16.12). -/
def mbxByte (k : Mailbox) (off : Nat) : Byte :=
  if off < 0x1000 then 0
  else if off < 0x5000 then k.req.getD (off - 0x1000) 0
  else if off < 0x9000 then k.rsp.getD (off - 0x5000) 0
  else if off < 0xD000 then (mget [] k.evRing ((off - 0x9000) / 64)).getD (off % 64) 0
  else 0

/-- One register or four bytes of BAR4. DESIGN CHOICE, log entry 36. -/
def bar4Reg (s : State) (h f off : Nat) : Nat :=
  let k := ((s.host h).fn f).mbx
  match off with
  | 0x04 => k.reqLen
  | 0x08 => mbxStatus k
  | 0x0C => k.evHead
  | 0x10 => k.evTail
  | 0x14 => k.evMiss
  | _ => leNat ((List.range 4).map (fun i => mbxByte k (off + i)))

end Sys2Proof.Machine
end

