-- ==== Sys2Proof/Machine/RegWrite.lean ====
section
/-!
DEFINITION. What a read clears and what a write does, register by register (R56, R57, R59, R141, R219, R220, R231, R377, R539, R546,
R549), and register accesses as a whole (R54).
-/

namespace Sys2Proof.Machine

/-! ### Reads that clear (R56) -/

def clearPort (s : State) (p off : Nat) : State :=
  modPort s p (fun k =>
    match off with
    | 0x0C => { k with replay := 0 }
    | 0x10 => { k with pvcnt := 0 }
    | 0x14 => { k with stall := 0 }
    | 0x18 => { k with uncor := 0 }
    | 0x1C => { k with tagf := 0 }
    | _ => k)

def modCnt (s : State) (c : Nat) (g : CoreCnt → CoreCnt) : State := modCore s c (fun k => { k with cnt := g k.cnt })

/-- What a read of the register at `off` of a core block clears. -/
def clearCore (s : State) (c off : Nat) : State :=
  match off with
  | 0x001C => modCtl s c (fun k => { k with fnoteDrop := 0 })
  | 0x1024 => modPrs s c (fun k => { k with tallyCnt := 0 })
  | 0x1028 => modPrs s c (fun k => { k with tallySkip := 0 })
  | 0x1030 => modPrs s c (fun k => { k with rampWait := 0 })
  | 0x200C => modVec s c (fun k => { k with satcnt := 0 })
  | 0x3010 => modSpd s c (fun k => { k with eccCe := 0 })
  | 0x3014 => modSpd s c (fun k => { k with eccUe := 0 })
  | 0x3018 => modSpd s c (fun k => { k with sbStall := 0 })
  | 0x301C => modSpd s c (fun k => { k with winRefuse := 0 })
  | 0x4008 => modDma s c 0 (fun k => { k with errcnt := 0 })
  | 0x4028 => modDma s c 1 (fun k => { k with errcnt := 0 })
  | 0x4048 => modDma s c 2 (fun k => { k with errcnt := 0 })
  | 0x4068 => modDma s c 3 (fun k => { k with errcnt := 0 })
  | 0x5004 => modQue s c (fun k => { k with refuse := 0 })
  | 0x6118 => modSmp s c (fun m => { m with lost := 0 })
  | _ => s

/-- R56: what a read of the register at `off` of a block clears: its RC fields. -/
def clearRc (s : State) (b : CsrBlk) (off : Nat) : State :=
  match b with
  | .core c => clearCore s c off
  | .field n =>
    if off = 0x200 then modMsh s n (fun m => { m with seamRetry := 0 })
    else if off = 0x2004 then modMsh s n (fun m => { m with dropRst := 0 })
    else s
  | .link l => if 0x100 ≤ off ∧ off < 0x240 then clearPort s (5 * l + (off - 0x100) / 0x40) (off % 0x40) else s
  | .stack i =>
    modStack s i (fun k =>
      match off with
      | 0x10 => { k with ce := 0 }
      | 0x14 => { k with ue := 0 }
      | 0x18 => { k with refuse := 0 }
      | _ => k)
  | .host _ => s
  | .mgmt => if off = 0x10 then modPwr s (fun w => { w with throttle := 0 }) else s

/-! ### Queues (R219, R220) -/

/-- The bytes of a queue's ring: its first and the one after its last. -/
def ringSpan (u : Queue) : Nat × Nat := (u.base * 64, u.base * 64 + (u.depth + 1) * ((u.esize + 1) * 16))

/-- R544: the bytes of a sampler's ring in the scratchpad. -/
def smpSpan (m : Sampler) : Nat × Nat := (m.base % 2 ^ 21, m.base % 2 ^ 21 + 32 * 2 ^ m.log2sz)

def rangesMeet (a b : Nat × Nat) : Bool := decide (a.1 < b.2) && decide (b.1 < a.2)

/-- R219: whether the ring of queue `q`, configured as `u`, runs past the scratchpad or overlaps another enabled ring. -/
def ringBad (k : Core) (q : Nat) (u : Queue) : Bool :=
  decide (2 ^ 21 < (ringSpan u).2) ||
    (List.range 32).any (fun i => i != q && (k.que.q i).en && rangesMeet (ringSpan u) (ringSpan (k.que.q i))) ||
    (k.cnt.smp.en && !k.cnt.smp.dst && rangesMeet (ringSpan u) (smpSpan k.cnt.smp))

/-- R219: whether two configurations of a queue differ in a locked field. -/
def lockedDiffer (a b : Queue) : Bool :=
  a.base != b.base || a.esize != b.esize || a.depth != b.depth || a.scope != b.scope || a.devhi != b.devhi || a.devlo != b.devlo

/-- R219, R220: a write that would make queue `q` of a core the configuration `v`. -/
def queConfig (k : Core) (q : Nat) (u v : Queue) : Queue :=
  let rej : Queue := { u with cfgrej := true }
  if q = 31 then
    if !v.en || decide (v.esize < 7) then rej
    else if lockedDiffer u v && !(u.msgs.isEmpty && u.reserved.isEmpty && u.waiters.isEmpty) then rej
    else if ringBad k q v then rej
    else v
  else if (u.en || !u.msgs.isEmpty) && lockedDiffer u v then rej
  else if v.en && !u.en && ringBad k q v then
    { v with
      en := false
      cfgrej := true }
  else v

/-- A reserved SCOPE leaves the field unchanged (R57). -/
def scopeField (new old : Nat) : Nat := if new = 3 then old else new

def queSet (s : State) (c q : Nat) (g : Queue → Queue) : State :=
  modQ s c q (fun u => queConfig (s.core c) q u (g u))

/-- R219: a write to QUE_qBASE. -/
def queBaseWrite (s : State) (c q v : Nat) : State := queSet s c q (fun u => { u with base := bits v 20 6 })

/-- R219, R220: a write to QUE_qCFG. -/
def queCfgWrite (s : State) (c q v : Nat) : State :=
  queSet s c q (fun u =>
    { u with
      en := v.testBit 31
      evt := v.testBit 14
      scope := scopeField (bits v 13 12) u.scope
      esize := bits v 11 8
      depth := bits v 7 0 })

/-- R219: a write to QUE_qDEV. -/
def queDevWrite (s : State) (c q v : Nat) : State :=
  queSet s c q (fun u =>
    { u with
      devhi := bits v 29 16
      devlo := bits v 13 0 })

/-- R231: a write of EVT_SET0 or EVT_SET1 sets flags. -/
def evtSetWrite (s : State) (c : Nat) (hi : Bool) (v : Nat) : State :=
  setFlags s c (BitVec.ofNat 64 (v % 2 ^ 32 * (if hi then 2 ^ 32 else 1)))

/-! ### SPD_MODE (R141) -/

/-- R141: a write to SPD_MODE takes effect while the core is HALTED, FAULTED or in reset with its engines idle, and does not set
both modes; else it sets MODEREJ. -/
def spdModeWrite (s : State) (c v : Nat) : State :=
  let k := s.core c
  let stopped : Bool := k.ctl.st == .halted || k.ctl.st == .faulted || k.crst
  if stopped && k.flights.isEmpty && v % 4 != 3 then
    modSpd s c (fun d =>
      { d with
        near := v.testBit 0
        lin := v.testBit 1 })
  else modSpd s c (fun d => { d with modeRej := true })

/-! ### The sampler (R546) -/

/-- R546: whether an enable of the sampler of core `c` with the setting `m` is refused. -/
def smpRefused (s : State) (c : Nat) (m : Sampler) : Bool :=
  if m.dst then
    let p := partOf s c
    (blocksOf m.base (32 * 2 ^ m.log2sz)).any (fun b => !isHbm b || p.isNone || unitOwner s (hbmUnit b) != p)
  else
    let sp := smpSpan m
    decide (2 ^ 21 < sp.2) ||
      (List.range 32).any (fun q => ((s.core c).que.q q).en && rangesMeet sp (ringSpan ((s.core c).que.q q)))

/-- R542, R546, Table 18.11: a write to CNT_SMP_CTRL. While EN is 1 only EN takes it; a clear lets the record being written
finish. -/
def smpCtrlWrite (s : State) (c v : Nat) : State :=
  let m := (s.core c).cnt.smp
  if m.en then
    if v.testBit 0 then s
    else
      modSmp s c (fun m =>
        { m with
          en := false
          due := m.due.take 1 })
  else
    let z := bits v 8 4
    let m' : Sampler :=
      { m with
        dst := v.testBit 1
        edge := v.testBit 2
        err := m.err && !v.testBit 3
        event := bits v 19 12
        log2sz := if 4 ≤ z ∧ z ≤ 16 then z else m.log2sz }
    if !v.testBit 0 then modSmp s c (fun _ => m')
    else if smpRefused s c m' then modSmp s c (fun _ => { m' with err := true })
    else
      modSmp s c (fun _ =>
        { m' with
          en := true
          run := 0 })

/-- A write to a CNT_SMP_ register other than CTRL, ignored while EN is 1 (R546). DEDUCED, log entry 48. -/
def smpFieldWrite (m : Sampler) (off v : Nat) : Sampler :=
  if m.en then m
  else
    match off with
    | 0x104 => if v = 0 then m else { m with period := v }
    | 0x108 => { m with base := m.base / 2 ^ 32 * 2 ^ 32 + v }
    | 0x10C => { m with base := v * 2 ^ 32 + m.base % 2 ^ 32 }
    | 0x114 => if v ≤ m.head then { m with tail := v } else m
    | _ => m

/-! ### Writes to core blocks -/

/-- `x` with the bits that are 1 in `v` cleared. -/
def w1c (x v : Nat) : Nat := x - (x &&& v)

/-- Tables 6.20 to 6.24: a write to a CORE_ register. CORE_FDEST is Carafe's alone. -/
def coreWrite (s : State) (req : Requester) (c off v : Nat) : State :=
  match off with
  | 0x10 => modCtl s c (fun k => { k with gtag := BitVec.ofNat 32 v })
  | 0x14 => if v % 2 ^ 20 = 0 then s else modCtl s c (fun k => { k with gtmo := v % 2 ^ 20 })
  | 0x18 =>
    if req = .carafe then
      modCtl s c (fun k =>
        { k with
          fdestV := v.testBit 31
          fdest := v % 2 ^ 11 })
    else s
  | 0x20 => modCtl s c (fun k => { k with tagErr := k.tagErr &&& ~~~ (BitVec.ofNat 32 v) })
  | _ => s

/-- Tables 4.15 to 4.20, 3.10: a write to a PRS_ register; `off` counts from 0x1000. -/
def pressWrite (s : State) (c off v : Nat) : State :=
  match off with
  | 0x00 => modPrs s c (fun p => { p with ctrlIdle := v % 2 ^ 16 })
  | 0x20 => if 4 ≤ v % 32 ∧ v % 32 ≤ 20 then modPrs s c (fun p => { p with tol := v % 32 }) else s
  | 0x2C => if v.testBit 31 then modPrs s c (fun p => { p with infoV := false }) else s
  | 0x80 => modPrs s c (fun p => { p with flags := p.flags &&& ~~~ (BitVec.ofNat 4 v) })
  | _ => s

/-- Tables 6.26, 6.28, 3.10: a write to a VEC_ register; `off` counts from 0x2000. -/
def vecWrite (s : State) (c off v : Nat) : State :=
  match off with
  | 0x00 => modVec s c (fun k => { k with ftz := v.testBit 0 })
  | 0x08 => vecSeedWrite s c (BitVec.ofNat 32 v)
  | 0x80 => modVec s c (fun k => { k with flags := k.flags &&& ~~~ (BitVec.ofNat 4 v) })
  | _ => s

/-- Tables 5.17 to 5.21: a write to a register of a window. -/
def winWrite (w : Window) (off v : Nat) : Window :=
  match off with
  | 0x00 => { w with base := bits v 20 6 }
  | 0x04 => { w with len := bits v 14 0 }
  | 0x08 =>
    { w with
      en := v.testBit 31
      scope := scopeField (bits v 5 4) w.scope
      w := v.testBit 1
      r := v.testBit 0 }
  | 0x0C =>
    { w with
      devhi := bits v 29 16
      devlo := bits v 13 0 }
  | 0x10 => { w with tag := BitVec.ofNat 32 v }
  | _ => w

/-- Tables 5.9 to 5.21: a write to an SPD_ register; `off` counts from 0x3000. -/
def spdWrite (s : State) (c off v : Nat) : State :=
  match off with
  | 0x00 => spdModeWrite s c v
  | 0x04 => if v.testBit 6 then modSpd s c (fun d => { d with modeRej := false }) else s
  | 0x20 => if v.testBit 31 then modSpd s c (fun d => { d with info := { d.info with v := false } }) else s
  | 0x24 =>
    modSpd s c (fun d =>
      { d with
        scrubEn := v.testBit 16
        scrubInterval := if 16 ≤ v % 2 ^ 16 then v % 2 ^ 16 else d.scrubInterval })
  | 0x28 => if v.testBit 31 then modSpd s c (fun d => { d with log := { d.log with v := false } }) else s
  | _ =>
    if 0x100 ≤ off ∧ off < 0x300 then
      let i := (off - 0x100) / 0x20
      modSpd s c (fun d => { d with wins := mset d.wins i (winWrite (mget Window.reset d.wins i) (off % 0x20) v) })
    else s

/-- Tables 7.16 to 7.20: a write to a QUE_ register; `off` counts from 0x5000. -/
def queWrite (s : State) (c off v : Nat) : State :=
  if off = 8 then (if v.testBit 31 then modQue s c (fun u => { u with rlog := { u.rlog with v := false } }) else s)
  else if 0x100 ≤ off ∧ off < 0x300 then
    let q := (off - 0x100) / 0x10
    match off % 0x10 with
    | 0x0 => queBaseWrite s c q v
    | 0x4 => queCfgWrite s c q v
    | 0x8 => queDevWrite s c q v
    | 0xC => if v.testBit 31 then modQ s c q (fun u => { u with cfgrej := false }) else s
    | _ => s
  else s

/-- Tables 18.8 to 18.11, R539: a write to a CNT_ register; `off` counts from 0x6000. -/
def cntWrite (s : State) (c off v : Nat) : State :=
  match off with
  | 0x000 =>
    modCnt s c (fun k =>
      { k with
        fovf := v.testBit 1
        frz := v.testBit 0 })
  | 0x004 => modCnt s c (fun k => { k with ovf := w1c k.ovf (v % 256) })
  | 0x100 => smpCtrlWrite s c v
  | _ =>
    if 0x104 ≤ off then modSmp s c (fun m => smpFieldWrite m off v)
    else if 0x20 ≤ off ∧ off < 0x40 then
      let i := (off - 0x20) / 4
      modCnt s c (fun k =>
        { k with
          sels := mset k.sels i
            { en := v.testBit 31
              edge := v.testBit 30
              chain := i % 2 == 1 && v.testBit 29
              event := v % 256 } })
    else if 0x40 ≤ off ∧ off < 0x80 then
      let i := (off - 0x40) / 8
      modCnt s c (fun k =>
        let x := mget 0 k.vals i
        { k with
          vals := mset k.vals i
            (if off % 8 = 0 then x / 2 ^ 32 * 2 ^ 32 + v else v % 2 ^ 16 * 2 ^ 32 + x % 2 ^ 32) })
    else s

/-- Tables 7.21, 7.22: a write to an EVT_ register; `off` counts from 0x7000. -/
def evtWrite (s : State) (c off v : Nat) : State :=
  let clear (m : Nat) : State := modQue s c (fun u => { u with flags := u.flags &&& ~~~ (BitVec.ofNat 64 m) })
  match off with
  | 0x00 => clear v
  | 0x04 => clear (v * 2 ^ 32)
  | 0x08 => evtSetWrite s c false v
  | 0x0C => evtSetWrite s c true v
  | 0x10 => modQue s c (fun u => { u with evtScope := scopeField (v % 4) u.evtScope })
  | 0x14 =>
    modQue s c (fun u =>
      { u with
        evtHi := bits v 29 16
        evtLo := bits v 13 0 })
  | _ => s

def coreBlockWrite (s : State) (req : Requester) (c off v : Nat) : State :=
  let o := off % 0x1000
  match off / 0x1000 with
  | 0 => coreWrite s req c o v
  | 1 => pressWrite s c o v
  | 2 => vecWrite s c o v
  | 3 => spdWrite s c o v
  | 5 => queWrite s c o v
  | 6 => cntWrite s c o v
  | 7 => evtWrite s c o v
  | _ => s

/-! ### Writes to shared counters (R539, R549) -/

def modShared (s : State) (b : Nat) (g : Shared → Shared) : State := { s with shared := mset s.shared b (g (s.blk b)) }

/-- R549, Table 18.6: a write to CTL of block `b`. -/
def sharedCtlWrite (s : State) (b v : Nat) : State :=
  let sel := bits v 20 16
  modShared s b (fun k =>
    let k :=
      { k with
        shsel := if sel ≤ 16 ∨ sel = 31 then sel else k.shsel
        ovf := w1c k.ovf (bits v 15 8)
        frz := v.testBit 0 }
    if v.testBit 1 then clearShared k else k)

/-- What a write leaves in a 48-bit counter of which it writes the low or the high register. -/
def halfWrite (x : Nat) (lo : Bool) (v : Nat) : Nat :=
  if lo then x / 2 ^ 32 * 2 ^ 32 + v else v % 2 ^ 16 * 2 ^ 32 + x % 2 ^ 32

/-- Table 18.5: a write to the counters, SELj or CTL of block `b`. A write to a counter sets the value that SHSEL shows, the
total being kept as the sum of the shadows (R548). DEDUCED, log entry 48. -/
def sharedWrite (s : State) (b off v : Nat) : State :=
  let n := sharedCounters b
  if off < 8 * n then
    let j := off / 8
    modShared s b (fun k =>
      let sh := 17 * j + (if k.shsel < 17 then k.shsel else 16)
      let old := if k.shsel < 17 then mget 0 k.shadows sh else mget 0 k.totals j
      let new := halfWrite old (off % 8 == 0) v
      { k with
        totals := mset k.totals j ((mget 0 k.totals j + 2 ^ 48 - old + new) % 2 ^ 48)
        shadows := mset k.shadows sh ((mget 0 k.shadows sh + 2 ^ 48 - old + new) % 2 ^ 48) })
  else if off < 12 * n then
    let j := off % (4 * n) / 4
    modShared s b (fun k =>
      { k with
        sels := mset k.sels j
          { en := v.testBit 31
            edge := v.testBit 30
            pl := if b < 2000 ∧ bits v 29 28 ≠ 0 then bits v 29 28 else (mget ShSel.reset k.sels j).pl
            event := v % 256 } })
  else if off = 12 * n then sharedCtlWrite s b v
  else s

/-! ### Writes to field blocks -/

/-- Tables 8.11, 8.12: a write to one word of an overlay entry; reserved encodings leave their field unchanged (R57). -/
def ovlWrite (e : W32 × W32) (first : Bool) (v : Nat) : W32 × W32 :=
  if first then
    let v := v / 64 * 64
    let v := if bits v 30 28 = 7 then v - 7 * 2 ^ 28 + bits e.1.toNat 30 28 * 2 ^ 28 else v
    (BitVec.ofNat 32 v, e.2)
  else
    let o := e.2.toNat
    let pl := if bits v 5 4 = 0 then bits o 5 4 else bits v 5 4
    let out := if 1 ≤ bits v 2 0 ∧ bits v 2 0 ≤ 4 then bits v 2 0 else bits o 2 0
    (e.1, BitVec.ofNat 32 (pl * 16 + bits v 3 3 * 8 + out))

/-- Tables 8.9 to 8.14: a write to an MSH_ register. -/
def meshWrite (s : State) (n off v : Nat) : State :=
  if off < 0x4000 then
    match off with
    | 0x2000 => modMsh s n (fun m => { m with gen := v })
    | 0x2008 => if v.testBit 31 then modMsh s n (fun m => { m with dropLog := { m.dropLog with v := false } }) else s
    | _ =>
      if 0x2040 ≤ off ∧ off < 0x2080 ∧ 1 ≤ v % 128 ∧ v % 128 ≤ 64 then
        modMsh s n (fun m => { m with weights := mset m.weights ((off - 0x2040) / 4) (v % 128) })
      else s
  else
    let r := (off - 0x4000) / 0x100
    let o := off % 0x100
    if 104 ≤ r then s
    else if 0x40 ≤ o ∧ o < 0xC0 then
      let e := (o - 0x40) / 8
      modMsh s n (fun m => { m with ovl := mset m.ovl (16 * r + e) (ovlWrite (ovlEntry m r e) (o % 8 == 0) v) })
    else if 0xC0 ≤ o then sharedWrite s (routerBlk n r) (o - 0xC0) v
    else s

/-- Table 9.12: a write to a route table entry of one copy. A rewritten entry has its parity again (R469). -/
def rtWrite (s : State) (copy off v : Nat) : State :=
  let t := off / 0x10000
  let id := off % 0x10000 / 4
  let old := (rtEntry s.links copy t id).toNat
  let kind := if bits v 30 29 = 3 then bits old 30 29 else bits v 30 29
  let w := bits v 31 31 * 2 ^ 31 + kind * 2 ^ 29 + bits v 28 24 * 2 ^ 24
  let s := modLinks s (fun l => { l with rtx := mset l.rtx (32768 * copy + 16384 * t + id) (BitVec.ofNat 32 w) })
  { s with badEntries := s.badEntries.filter (fun x => x != ⟨0, copy, 16384 * t + id⟩) }

/-- A write to a register of a field block. -/
def fieldWrite (s : State) (n off v : Nat) : State :=
  if 0x10000 ≤ off then rtWrite s (8 + n) (off - 0x10000) v
  else if 0x2000 ≤ off then meshWrite s n off v
  else if off = 0x300 then (if v.testBit 12 then modField s n (fun k => { k with miss := false }) else s)
  else if off = 0x400 ∧ 16 ≤ v % 256 then modField s n (fun k => { k with paceInterval := v % 256 })
  else s

/-! ### Writes to link dies, stacks and the management die -/

/-- Table 9.13: a write to LNK_Pi_CTRL; a change of EN or MODE disables or trains the port. -/
def portCtrlWrite (s : State) (p v : Nat) : State :=
  let old := s.port p
  let s := modPort s p (fun k =>
    { k with
      en := v.testBit 31
      eth := v.testBit 30
      bundle := bits v 29 26
      bv := v.testBit 25
      steer := v.testBit 24 })
  if old.en == v.testBit 31 && old.eth == v.testBit 30 then s else portChanged s p

/-- A write to a register of a link-die block. -/
def linkWrite (s : State) (l off v : Nat) : State :=
  if 0x30000 ≤ off then s
  else if 0x10000 ≤ off then rtWrite s l (off - 0x10000) v
  else if 0x800 ≤ off ∧ off < 0xA80 then sharedWrite s (portBlk (5 * l + (off - 0x800) / 0x80)) (off % 0x80) v
  else if 0x100 ≤ off ∧ off < 0x240 then
    (if off % 0x40 = 0 then portCtrlWrite s (5 * l + (off - 0x100) / 0x40) v else s)
  else if off = 4 then modLinks s (fun k => { k with epx := mset k.epx l (BitVec.ofNat 8 v) })
  else if off = 8 ∧ v.testBit 31 then
    modLinks s (fun k =>
      let d := mget LinkDie.reset k.dies l
      { k with dies := mset k.dies l { d with pvlog := { d.pvlog with v := false } } })
  else s

/-- Tables 10.5, 10.6: a write to a register of a stack block. -/
def stackWrite (s : State) (i off v : Nat) : State :=
  if 0x100 ≤ off ∧ off < 0x164 then sharedWrite s (stackBlk i) (off - 0x100) v
  else
    modStack s i (fun k =>
      match off with
      | 0x08 => if 256 ≤ v % 4096 ∧ v % 4096 ≤ 2048 then { k with rate := v % 4096 } else k
      | 0x20 => if v.testBit 31 then { k with infoV := false } else k
      | 0x28 =>
        { k with
          scrubEn := v.testBit 31
          hours := if v % 256 = 0 then k.hours else v % 256 }
      | _ => k)

/-- R377: a write to CLK_CHG_CTRL, ignored while a change is armed. -/
def clkCtrlWrite (s : State) (v : Nat) : State :=
  if s.clk.armed.isSome then s
  else
    let mask := v % 4096
    let s := modClk s (fun k => { k with regMask := mask })
    if v.testBit 31 then
      requestChange s s.clk.regT
        (((List.range 12).filter (fun n => mask.testBit n && fieldOn s n)).map (fun n => (n, mget 0 s.clk.regTgt n)))
    else s

/-- Table 13.15: a write to PWR_AUXc. -/
def auxWrite (s : State) (c v : Nat) : State :=
  let x := bits v 23 16
  auxUpdate (modAux s c (fun a =>
    { a with
      en := v.testBit 31
      trip := a.trip && !v.testBit 30
      vset := if c < 4 ∧ 60 ≤ x ∧ x ≤ 120 then x else a.vset }))

/-- Tables 12.4, 12.5, 13.12, 13.15: a write to a register of the management-die block. -/
def mgmtWrite (s : State) (off v : Nat) : State :=
  match off with
  | 0x000C =>
    let w := v % 2 ^ 16
    if 1200 ≤ w ∧ w ≤ Config.inputCeiling then
      modPwr s (fun p =>
        { p with
          limit := w
          lent := none })
    else s
  | 0x10000 =>
    modClk s (fun k =>
      { k with
        cancel := k.cancel && !v.testBit 30
        miss := w1c k.miss (v % 4096) })
  | 0x10004 => modClk s (fun k => { k with regT := k.regT / 2 ^ 32 * 2 ^ 32 + v })
  | 0x10008 => modClk s (fun k => { k with regT := v * 2 ^ 32 + k.regT % 2 ^ 32 })
  | 0x1000C => clkCtrlWrite s v
  | _ =>
    if 0x80 ≤ off ∧ off < 0x98 then auxWrite s ((off - 0x80) / 4) v
    else if 0x10040 ≤ off ∧ off < 0x10070 ∧ v % 128 ≤ 80 then
      modClk s (fun k => { k with regTgt := mset k.regTgt ((off - 0x10040) / 4) (v % 128) })
    else s

/-- A write of the 32 bits `v` to the register at an offset of a block. -/
def blockWrite (s : State) (req : Requester) (b : CsrBlk) (off v : Nat) : State :=
  match b with
  | .core c => coreBlockWrite s req c off v
  | .field n => fieldWrite s n off v
  | .link l => linkWrite s l off v
  | .stack i => stackWrite s i off v
  | .host _ => s
  | .mgmt => mgmtWrite s off v

/-! ### BAR0 and BAR4 -/

/-- R357, R359: the host consumes completion records up to `v`. DEDUCED, log entry 34. -/
def cqheadWrite (s : State) (h f r v : Nat) : State :=
  modRing s h f r (fun g =>
    let v := v % 2 ^ 16
    { g with
      cqhead := v
      used := g.used - (v + g.size - g.cqhead % g.size) % g.size })

/-- Table 11.13: a write to HIF_Rr_COAL; a COUNT of 0 is reserved. -/
def coalWrite (s : State) (h f r v : Nat) : State :=
  modRing s h f r (fun g =>
    { g with
      coalTime := bits v 23 8
      coalCount := if v % 256 = 0 then g.coalCount else v % 256 })

/-- A write to word `i` of a function's MSI-X table: a vector that it unmasks is sent where it is pending (R365).
PRESUMED, log entry 36. -/
def msixWrite (s : State) (h f i : Nat) (w : W32) : State :=
  let s := modFn s h f (fun k => { k with msix := mset k.msix i w })
  let k := (s.host h).fn f
  if i % 4 = 3 ∧ k.pba.testBit (i / 4) ∧ !k.masked (i / 4) then
    sendVector (modFn s h f (fun k => { k with pba := k.pba ^^^ 2 ^ (i / 4) })) h f (i / 4)
  else s

/-- A write to a function page through its own BAR0 (Tables 11.10 to 11.13, R365). -/
def pageWrite (s : State) (h f off v : Nat) : State :=
  let w : W32 := BitVec.ofNat 32 v
  if off = 4 then
    (if f = 0 ∧ v % 1024 ≤ 767 then modFn s h f (fun k => { k with gib := v % 1024 }) else s)
  else if 0x100 ≤ off ∧ off < 0x200 then
    let r := (off - 0x100) / 0x40
    match off % 0x40 with
    | 0x00 => ringCtrlWrite s h f r w
    | 0x04 => ringBaseWrite s h f r .sqbase w
    | 0x08 => ringBaseWrite s h f r .cqbaseLo w
    | 0x0C => ringBaseWrite s h f r .cqbaseHi w
    | 0x10 => sqtailWrite s h f r w
    | 0x18 => cqheadWrite s h f r v
    | 0x20 => coalWrite s h f r v
    | _ => s
  else if 0x8000 ≤ off ∧ off < 0x8080 then msixWrite s h f ((off - 0x8000) / 4) w
  else s

def modMbx (s : State) (h f : Nat) (g : Mailbox → Mailbox) : State := modFn s h f (fun k => { k with mbx := g k.mbx })

/-- Table 16.15: a value beyond EVTTAIL is ignored. -/
def evtHeadWrite (k : Mailbox) (v : Nat) : Mailbox :=
  let v := v % 512
  if (v + 512 - k.evHead) % 512 ≤ (k.evTail + 512 - k.evHead) % 512 then { k with evHead := v } else k

/-- R487: bytes written to the request buffer, ignored while BUSY. -/
def reqBufWrite (k : Mailbox) (at_ : Nat) (bs : Bytes) : Mailbox :=
  if k.busy then k
  else
    let old := padTo 16384 k.req
    { k with req := (old.take at_ ++ bs ++ old.drop (at_ + bs.length)).take 16384 }

/-- A write to one register, or `n` bytes, of BAR4 (Tables 16.11 to 16.15). A GO of a plain unit is performed from the buffer; what
an SPDM or secured unit carries is an operand of MAILBOX_GO alone. -/
def bar4Write (s : State) (h f off n v : Nat) : State :=
  match off with
  | 0x00 => if v.testBit 0 then mailboxGo s h f none else s
  | 0x04 => modMbx s h f (fun k => { k with reqLen := v % 2 ^ 15 })
  | 0x08 => if v.testBit 30 then modMbx s h f (fun k => { k with done := false }) else s
  | 0x0C => modMbx s h f (fun k => evtHeadWrite k v)
  | _ => if 0x1000 ≤ off ∧ off + n ≤ 0x5000 then modMbx s h f (fun k => reqBufWrite k (off - 0x1000) (natBytes n v)) else s

/-- R56: what a read of a register of BAR0 or BAR4 clears. -/
def clearBar0 (s : State) (h f off : Nat) : State := if off = 8 then modFn s h f (fun k => { k with drop := 0 }) else s

def clearBar4 (s : State) (h f off : Nat) : State :=
  match off with
  | 0x08 => modMbx s h f (fun k => { k with ign := 0 })
  | 0x14 => modMbx s h f (fun k => { k with evMiss := 0 })
  | _ => s

/-! ### Accesses (R54, R56) -/

/-- R54: the two registers of an 8-byte write are written together; a register that enables what the other sets is written last.
DEDUCED, log entry 47. -/
def upperFirst (b : CsrBlk) (off : Nat) : Bool :=
  match b with
  | .core _ => off == 0x6100
  | _ => false

/-- A register write that has passed its checks: one register, or two (R54). -/
def csrPut (s : State) (req : Requester) (b : CsrBlk) (off size : Nat) (v : W64) : State :=
  let lo := v.toNat % 2 ^ 32
  let hi := v.toNat / 2 ^ 32
  if size = 8 then
    if upperFirst b off then blockWrite (blockWrite s req b (off + 4) hi) req b off lo
    else blockWrite (blockWrite s req b off lo) req b (off + 4) hi
  else blockWrite s req b off lo

/-- A register read that has passed its checks: its value, and the state with its RC fields cleared. -/
def csrGet (s : State) (req : Requester) (b : CsrBlk) (off size : Nat) : State × W64 :=
  let lo := blockReg s req b off
  if size = 8 then
    (clearRc (clearRc s b off) b (off + 4), BitVec.ofNat 64 (blockReg s req b (off + 4) * 2 ^ 32 + lo % 2 ^ 32))
  else (clearRc s b off, BitVec.ofNat 64 (lo % 2 ^ 32))

/-- R51, R53, R54, R277, R279: a refused register access is counted under its status; one discarded at a core under reset, or at an
edge die without power, at the router of its tile there. DEDUCED, log entry 44. -/
def csrRefused (s : State) (req : Requester) (a : Nat) (r : RSt) : State :=
  let s := countStatus s (csrOwner s req) r
  match r, csrPlace a with
  | .destReset, some (.core c, _) => dropAtCore s c (reqClass s req) (reqCore req)
  | .destReset, some (.stack i, _) => dropAtDie s i 0 (reqClass s req) (reqCore req)
  | .destReset, some (.link l, _) => dropAtDie s (16 + l) 0 (reqClass s req) (reqCore req)
  | .destReset, some (.host h, _) => dropAtDie s (24 + h) 0 (reqClass s req) (reqCore req)
  | _, _ => s

/-- A write at a global address of CSR space (R51 to R57, R573). DEDUCED, log entry 47. -/
def csrWriteAt (s : State) (req : Requester) (a size : Nat) (v : W64) : State × RSt :=
  match csrCheck s req a size true, csrPlace a with
  | .ok, some (b, off) => (csrPut s req b off size v, .ok)
  | r, _ => (csrRefused s req a r, r)

/-- A read at a global address of CSR space (R51 to R57, R573). -/
def csrReadAt (s : State) (req : Requester) (a size : Nat) : State × RSt × W64 :=
  match csrCheck s req a size false, csrPlace a with
  | .ok, some (b, off) =>
    let (s, v) := csrGet s req b off size
    (s, .ok, v)
  | r, _ => (csrRefused s req a r, r, 0)

end Sys2Proof.Machine
end

