-- ==== Sys2Proof/Machine/Csr.lean ====
section
/-!
DEFINITION. Register accesses as commands (R52 to R57, R141, R209, R219, R220, R231, R371, R516, R546, R549).
-/

namespace Sys2Proof.Machine

/-- The status that a refused register access answers, as the output lists it, in the order of R573: 1 DENIED, 2 UNMAPPED, 3 SIZE;
4 DEST_RESET (R277, R279). A configuration request that is to be retried answers 5 (R369). -/
def csrCode : RSt → Nat
  | .denied => 1
  | .unmapped => 2
  | .size => 3
  | _ => 4

/-- Whether an access through a BAR is one of the function that the BAR belongs to, over a link that is up.
DEDUCED, log entry 49. -/
def barReq (s : State) (req : Requester) (h f : Nat) : Bool := req == .host h f && decide (h < 2) && decide (f < 17) && (s.host h).up

/-- R54: an access to a BAR register that is refused with SIZE. DEDUCED, log entry 49. -/
def barSize (s : State) (req : Requester) (addr : CsrAddr) : State :=
  emit (countStatus s none .size) (.csrError req addr (csrCode .size))

/-- R349, R350, Tables 11.1, 11.2: what a field of a function's configuration space reads as. PRESUMED, log entry 37. -/
def configReg (k : HostFn) (f : Nat) (r : CfgReg) : Nat :=
  match r with
  | .ids => (if f = 0 then 0xD4A1 else 0xD4A2) * 2 ^ 16 + Config.vendorId % 65536
  | .classCode => 0x120000 * 2 ^ 8
  | .subsystem => (bif Config.profileIsL then 1 else 2) * 2 ^ 16 + Config.vendorId % 65536
  | .command => bit k.master 2
  | .power => if k.d3 then 3 else 0
  | .bar2Size => (k.bar2 - 20) * 2 ^ 8
  | .sriov => if f = 0 then 16 else 0
  | .aer => k.aer

/-- R350, R351: a write to a field of a function's configuration space: bus mastering, D0 or D3hot, a size of BAR2 from 64 GiB to
1 TiB, and AER status bits to be cleared. PRESUMED, log entry 37. -/
def configWrite (k : HostFn) (r : CfgReg) (v : Nat) : HostFn :=
  match r with
  | .command => { k with master := v.testBit 2 }
  | .power => if v % 4 = 0 then { k with d3 := false } else if v % 4 = 3 then { k with d3 := true } else k
  | .bar2Size => if 16 ≤ bits v 13 8 ∧ bits v 13 8 ≤ 20 then { k with bar2 := bits v 13 8 + 20 } else k
  | .aer => { k with aer := k.aer &&& (0xFFFFFFFF ^^^ v % 2 ^ 32) }
  | _ => k

/-- R369: during a compute reset an endpoint may answer a configuration request with Request Retry Status. PRESUMED, log entry 37. -/
def configRetry (s : State) : Bool × State := if s.wake.compute then drawBool s else (false, s)

/-- A write of a register (R51 to R57). -/
def csrWrite (s : State) (req : Requester) (addr : CsrAddr) (size : Nat) (v : W64) : State :=
  let lo := v.toNat % 2 ^ 32
  let hi := v.toNat / 2 ^ 32
  match addr with
  | .global a =>
    if !isCsr a then s
    else
      match csrWriteAt s req a size v with
      | (s, .ok) => s
      | (s, r) => emit s (.csrError req addr (csrCode r))
  | .bar0 h f off =>
    if !barReq s req h f then s
    else if (size == 4 || size == 8) && off % size == 0 then
      if 0x10000 ≤ off then s
      else if size = 8 then
        if off % 0x40 = 0 ∧ 0x100 ≤ off ∧ off < 0x200 then pageWrite (pageWrite s h f (off + 4) hi) h f off lo
        else pageWrite (pageWrite s h f off lo) h f (off + 4) hi
      else pageWrite s h f off lo
    else barSize s req addr
  | .bar4 h f off =>
    if !barReq s req h f then s
    else if 0x1000 ≤ off then (if size ≤ 8 then bar4Write s h f off size v.toNat else s)
    else if (size == 4 || size == 8) && off % size == 0 then
      if size = 8 then
        if off = 0 then bar4Write (bar4Write s h f (off + 4) 4 hi) h f off 4 lo
        else bar4Write (bar4Write s h f off 4 lo) h f (off + 4) 4 hi
      else bar4Write s h f off 4 lo
    else barSize s req addr
  | .config h f r =>
    if !barReq s req h f then s
    else
      let (retry, s) := configRetry s
      if retry then emit s (.csrError req addr 5) else modFn s h f (fun k => configWrite k r lo)

/-- A read of a register (R51 to R57). -/
def csrRead (s : State) (req : Requester) (addr : CsrAddr) (size : Nat) : State :=
  let two (lo hi : Nat) : W64 := BitVec.ofNat 64 (if size = 8 then hi * 2 ^ 32 + lo % 2 ^ 32 else lo % 2 ^ 32)
  match addr with
  | .global a =>
    if !isCsr a then s
    else
      match csrReadAt s req a size with
      | (s, .ok, v) => emit s (.csrData req addr size v)
      | (s, r, _) => emit s (.csrError req addr (csrCode r))
  | .bar0 h f off =>
    if !barReq s req h f then s
    else if (size == 4 || size == 8) && off % size == 0 then
      let v := two (bar0Reg s h f off) (bar0Reg s h f (off + 4))
      let s := clearBar0 s h f off
      emit (if size = 8 then clearBar0 s h f (off + 4) else s) (.csrData req addr size v)
    else barSize s req addr
  | .bar4 h f off =>
    if !barReq s req h f then s
    else if 0x1000 ≤ off then
      let k := ((s.host h).fn f).mbx
      if size ≤ 8 then
        emit s (.csrData req addr size (BitVec.ofNat 64 (leNat ((List.range size).map (fun i => mbxByte k (off + i))))))
      else s
    else if (size == 4 || size == 8) && off % size == 0 then
      let v := two (bar4Reg s h f off) (bar4Reg s h f (off + 4))
      let s := clearBar4 s h f off
      emit (if size = 8 then clearBar4 s h f (off + 4) else s) (.csrData req addr size v)
    else barSize s req addr
  | .config h f r =>
    if !barReq s req h f then s
    else
      let (retry, s) := configRetry s
      if retry then emit s (.csrError req addr 5)
      else emit s (.csrData req addr size (BitVec.ofNat 64 (configReg ((s.host h).fn f) f r)))

/-- A 4-byte write to the register at an offset of the block of core `c`. -/
def coreRegWrite (s : State) (req : Requester) (c off : Nat) (v : W32) : State :=
  if c < 1152 then csrWrite s req (.global (0x020000000000 + c * 2 ^ 16 + off)) 4 (v.setWidth 64) else s

/-- R56: a write to a register, under its access code. -/
def execCsrWrite (req : Requester) (addr : CsrAddr) (size : Nat) (v : W64) (s : State) : Res :=
  .next (csrWrite s req addr size v)

/-- R56: a read of a register; its RC fields are cleared. -/
def execRcRead (req : Requester) (addr : CsrAddr) (size : Nat) (s : State) : Res := .next (csrRead s req addr size)

/-- R209: a write to VEC_SEED. -/
def execVecSeedWrite (req : Requester) (c : Nat) (v : W32) (s : State) : Res := .next (coreRegWrite s req c 0x2008 v)

/-- R141: a write to SPD_MODE. -/
def execSpdModeWrite (req : Requester) (c : Nat) (v : W32) (s : State) : Res := .next (coreRegWrite s req c 0x3000 v)

/-- R219, R220: a write to QUE_qCFG. -/
def execQueCfgWrite (req : Requester) (c : Nat) (q : Fin 32) (v : W32) (s : State) : Res :=
  .next (coreRegWrite s req c (0x5104 + 0x10 * q.val) v)

/-- R219, R220: a write to QUE_qBASE. -/
def execQueBaseWrite (req : Requester) (c : Nat) (q : Fin 32) (v : W32) (s : State) : Res :=
  .next (coreRegWrite s req c (0x5100 + 0x10 * q.val) v)

/-- R219, R220: a write to QUE_qDEV. -/
def execQueDevWrite (req : Requester) (c : Nat) (q : Fin 32) (v : W32) (s : State) : Res :=
  .next (coreRegWrite s req c (0x5108 + 0x10 * q.val) v)

/-- R231: a write to EVT_SET0, or with `hi` to EVT_SET1. -/
def execEvtSetWrite (req : Requester) (c : Nat) (hi : Bool) (v : W32) (s : State) : Res :=
  .next (coreRegWrite s req c (if hi then 0x700C else 0x7008) v)

/-- R542, R546: a write to CNT_SMP_CTRL. -/
def execSmpCtrlWrite (req : Requester) (c : Nat) (v : W32) (s : State) : Res := .next (coreRegWrite s req c 0x6100 v)

/-- Table 18.5: the global address of CTL of a shared block: router 104·field + router, port 2,000 + p, stack 3,000 + s. -/
def ctlAddr (b : Nat) : Option Nat :=
  if b < 1248 then some (0x020010000000 + b / 104 * 2 ^ 20 + 0x40F0 + 0x100 * (b % 104))
  else if 2000 ≤ b ∧ b < 2040 then some (0x020020000000 + (b - 2000) / 5 * 2 ^ 20 + 0x860 + 0x80 * ((b - 2000) % 5))
  else if 3000 ≤ b ∧ b < 3016 then some (0x020030000000 + (b - 3000) * 2 ^ 20 + 0x160)
  else none

/-- R549: a write to CTL of a shared block. -/
def execSharedCntCtlWrite (req : Requester) (b : Nat) (v : W32) (s : State) : Res :=
  .next (
    match ctlAddr b with
    | some a => csrWrite s req (.global a) 4 (v.setWidth 64)
    | none => s)

end Sys2Proof.Machine
end

