-- ==== Sys2Proof/Machine/Global.lean ====
section
/-!
DEFINITION. Global loads and stores of the control unit, their completions and timeouts (R186, R187).
-/

namespace Sys2Proof.Machine

/-- R186, R148: a global access issues: misaligned it faults, in the own scratchpad it obeys the scoreboard, and it holds the
control unit until its completion. A request for another device leaves over the links. -/
def globalIssue (s : State) (c op : Nat) (d a : Reg) (imm : BitVec 15) (size : Nat) (load : Bool) : State :=
  issue s c (fun s =>
    let t := rg s c a + imm.signExtend 64
    let w := encI op d.val a.val imm.toNat
    let data := if load then [] else natBytes size (rg s c d).toNat
    if t.toNat % size ≠ 0 then cuFault s c 2 0xFF 0 w size t (rg s c a) 0
    else if inOwnSp c t && (if load then sbReadStall (s.core c) (t.toNat % 2 ^ 21) size
        else sbWriteStall (s.core c) (t.toNat % 2 ^ 21) size) then block s c .sb
    else
      let tag := (s.core c).ctl.gtag
      block (sendRemote (count s c 0x05 1 (memSample .here true t.toNat size 0)) c t (if load then 2 else 1) size (fun k =>
          { carry k data [] with ord := true, wtag := tag, size := (size + 15) / 16 })) c
        (.gacc { d := d, load := load, size := size, addr := t, data := data, insn := w, ga := rg s c a, gb := 0, tag := tag,
                 lost := false }))

/-- GLW (Table 6.3, R186). -/
def execGlw (c : Nat) (d a : Reg) (imm : BitVec 15) (s : State) : Res := .next (globalIssue s c 0x24 d a imm 4 true)

/-- GLD (Table 6.3, R186). -/
def execGld (c : Nat) (d a : Reg) (imm : BitVec 15) (s : State) : Res := .next (globalIssue s c 0x25 d a imm 8 true)

/-- GSW of register `d` (Table 6.3, R186). -/
def execGsw (c : Nat) (d a : Reg) (imm : BitVec 15) (s : State) : Res := .next (globalIssue s c 0x26 d a imm 4 false)

/-- GSD of register `d` (Table 6.3, R186). -/
def execGsd (c : Nat) (d a : Reg) (imm : BitVec 15) (s : State) : Res := .next (globalIssue s c 0x27 d a imm 8 false)

/-- R186, R51 to R53, R157, R161: the access reaches its target; one in flight to a stack that has left service is answered DEST_RESET
(R344). `status` and `data` are those of another device. -/
def gaccPerform (s : State) (c : Nat) (g : GAccess) (status : Nat) (data : W64) : State × RSt × W64 :=
  let port := if inOwnSp c g.addr then 0 else 5
  if g.lost then (s, .destReset, 0)
  else if isRemote g.addr then
    if remoteDev g.addr = s.devId then
      let op : MemOp := if g.load then .read else .write g.data []
      let (s, r) := selfRemote s (.core c) (remoteAddr g.addr) g.size g.tag op
      (s, r.st, BitVec.ofNat 64 (leNat r.data))
    else (s, RSt.ofQue status, data)
  else if isCsr g.addr.toNat then
    if g.load then csrReadAt s (.core c) g.addr.toNat g.size
    else
      let (s, r) := csrWriteAt s (.core c) g.addr.toNat g.size (BitVec.ofNat 64 (leNat g.data))
      (s, r, 0)
  else if g.load then
    let (s, r) := memRead s (.core c) g.addr.toNat g.size port
    (s, r.st, BitVec.ofNat 64 (leNat r.data))
  else
    let (s, r) := memWrite s (.core c) g.addr.toNat g.data [] port
    (s, r, 0)

/-- The global access that holds core `c`. -/
def curGacc (s : State) (c : Nat) : Option GAccess :=
  match (s.core c).ctl.st, (s.core c).ctl.blk with
  | .running, .gacc g => some g
  | _, _ => none

/-- DETAIL of a MEMORY fault (Table 6.8): the capture for a word of the own scratchpad, 0x7 for another. -/
def gaccDetail (s : State) (c : Nat) (g : GAccess) (r : RSt) : Nat :=
  if r = .uncorrected then (if inOwnSp c g.addr then captureOf s c (g.addr.toNat % 2 ^ 21) 0 else 7) else 0

/-- R345: whether a global access waits at a stack for tokens. -/
def gaccHeld (s : State) (c : Nat) (g : GAccess) : Bool :=
  !g.lost && !isRemote g.addr && memHeld s (.core c) g.addr.toNat g.size

/-- R278: a global access that core `c` had fully sent before it was reset arrives; nothing comes back to the core. -/
def lateArrive (s : State) (c : Nat) : State :=
  match (s.core c).late with
  | none => s
  | some g =>
    if gaccHeld s c g then s
    else (gaccPerform (modCore s c (fun k => { k with late := none })) c g 7 0).1

/-- R186, R196: the completion of a global access: a load's register is written and the next instruction follows, or the core
faults; a halt that waited for it takes effect. An access that waits at a stack has none yet (R345); where the core has been reset
since, what it had sent arrives (R278). DEDUCED, log entry 50. -/
def execGlobalAccessCompletion (c : Nat) (status : Nat) (data : W64) (s : State) : Res :=
  .next (
    match curGacc s c with
    | none => lateArrive s c
    | some g =>
      if gaccHeld s c g then s
      else
      let (s, r, v) := gaccPerform s c g status data
      if r = .ok then
        let s := if g.load then setReg s c g.d (if g.size = 4 then BitVec.ofNat 64 (v.toNat % 2 ^ 32) else v) else s
        let s := advance s c
        if (s.core c).ctl.haltBit then haltNow s c else s
      else cuFault (count s c 0x7D 1) c r.fault 0xFF 0 g.insn (gaccDetail s c g r) g.addr g.ga g.gb)

/-- R187: no completion within CORE_GTMO: the core faults with TIMEOUT. Whether the access was performed is open.
DEDUCED, log entry 50. -/
def execGlobalAccessTimeout (c : Nat) (s : State) : Res :=
  .next (
    match curGacc s c with
    | none => s
    | some g =>
      let (b, s) := drawBool s
      let s := if b && !gaccHeld s c g then (gaccPerform s c g 7 0).1 else s
      cuFault s c 0x0F 0xFF 0 g.insn (s.core c).ctl.gtmo g.addr g.ga g.gb)

end Sys2Proof.Machine
end

