-- ==== Sys2Proof/Machine/LoadStore.lean ====
section
/-!
DEFINITION. Loads and stores of the own scratchpad (R185), branches and jumps (Table 6.3).
-/

namespace Sys2Proof.Machine

/-- LB (Table 6.3, R185). -/
def execLb (c : Nat) (d a : Reg) (imm : BitVec 15) (s : State) : Res :=
  .next (loadSp s c 0x18 d a imm 1 (fun x => sext64 8 x))

/-- LH (Table 6.3, R185). -/
def execLh (c : Nat) (d a : Reg) (imm : BitVec 15) (s : State) : Res :=
  .next (loadSp s c 0x19 d a imm 2 (fun x => sext64 16 x))

/-- LW (Table 6.3, R185). -/
def execLw (c : Nat) (d a : Reg) (imm : BitVec 15) (s : State) : Res :=
  .next (loadSp s c 0x1A d a imm 4 (fun x => sext64 32 x))

/-- LD (Table 6.3, R185). -/
def execLd (c : Nat) (d a : Reg) (imm : BitVec 15) (s : State) : Res :=
  .next (loadSp s c 0x1B d a imm 8 (fun x => BitVec.ofNat 64 x))

/-- LBU (Table 6.3, R185). -/
def execLbu (c : Nat) (d a : Reg) (imm : BitVec 15) (s : State) : Res :=
  .next (loadSp s c 0x1C d a imm 1 (fun x => BitVec.ofNat 64 x))

/-- LHU (Table 6.3, R185). -/
def execLhu (c : Nat) (d a : Reg) (imm : BitVec 15) (s : State) : Res :=
  .next (loadSp s c 0x1D d a imm 2 (fun x => BitVec.ofNat 64 x))

/-- LWU (Table 6.3, R185). -/
def execLwu (c : Nat) (d a : Reg) (imm : BitVec 15) (s : State) : Res :=
  .next (loadSp s c 0x1E d a imm 4 (fun x => BitVec.ofNat 64 x))

/-- SB of register `d` (Table 6.3, R185, R153). -/
def execSb (c : Nat) (d a : Reg) (imm : BitVec 15) (s : State) : Res :=
  .next (storeSp s c 0x20 d a imm 1)

/-- SH of register `d` (Table 6.3, R185, R153). -/
def execSh (c : Nat) (d a : Reg) (imm : BitVec 15) (s : State) : Res :=
  .next (storeSp s c 0x21 d a imm 2)

/-- SW of register `d` (Table 6.3, R185, R153). -/
def execSw (c : Nat) (d a : Reg) (imm : BitVec 15) (s : State) : Res :=
  .next (storeSp s c 0x22 d a imm 4)

/-- SD of register `d` (Table 6.3, R185, R153). -/
def execSd (c : Nat) (d a : Reg) (imm : BitVec 15) (s : State) : Res :=
  .next (storeSp s c 0x23 d a imm 8)

/-- BEQ (Table 6.3). -/
def execBeq (c : Nat) (a b : Reg) (off : BitVec 15) (s : State) : Res :=
  .next (branch s c a b off (fun x y => x == y))

/-- BNE (Table 6.3). -/
def execBne (c : Nat) (a b : Reg) (off : BitVec 15) (s : State) : Res :=
  .next (branch s c a b off (fun x y => x != y))

/-- BLT (Table 6.3). -/
def execBlt (c : Nat) (a b : Reg) (off : BitVec 15) (s : State) : Res :=
  .next (branch s c a b off (fun x y => x.slt y))

/-- BGE (Table 6.3). -/
def execBge (c : Nat) (a b : Reg) (off : BitVec 15) (s : State) : Res :=
  .next (branch s c a b off (fun x y => !(x.slt y)))

/-- BLTU (Table 6.3). -/
def execBltu (c : Nat) (a b : Reg) (off : BitVec 15) (s : State) : Res :=
  .next (branch s c a b off (fun x y => x.ult y))

/-- BGEU (Table 6.3). -/
def execBgeu (c : Nat) (a b : Reg) (off : BitVec 15) (s : State) : Res :=
  .next (branch s c a b off (fun x y => !(x.ult y)))

/-- JAL (Table 6.3): the link register takes PC + 4, and the PC moves by 4 × sext(off). -/
def execJal (c : Nat) (d : Reg) (off : BitVec 20) (s : State) : Res :=
  .next (issue s c (fun s =>
    let pc := (s.core c).ctl.pc
    modCtl (count (setReg s c d (pc + 4)) c 0x06 1) c (fun k => { k with pc := pc + 4 * off.signExtend 64, blk := .none })))

/-- JALR (Table 6.3): the target must be a multiple of 4, else MISALIGNED with DETAIL 4 (Table 6.8). -/
def execJalr (c : Nat) (d a : Reg) (imm : BitVec 15) (s : State) : Res :=
  .next (issue s c (fun s =>
    let t := rg s c a + imm.signExtend 64
    let pc := (s.core c).ctl.pc
    if t.toNat % 4 ≠ 0 then cuFault s c 2 0xFF 0 (encI 0x39 d.val a.val imm.toNat) 4 t (rg s c a) 0
    else modCtl (count (setReg s c d (pc + 4)) c 0x06 1) c (fun k => { k with pc := t, blk := .none })))

end Sys2Proof.Machine
end

