-- ==== Sys2Proof/Machine/Scratchpad.lean ====
section
/-!
DEFINITION. Events at a scratchpad: write-back of corrected words, patrol scrub, and requests that arrive in remote
form (R157 to R160) or in local form (R161).
-/

namespace Sys2Proof.Machine

/-- R155: a row with 8 corrected errors within 24 h gets a BANK_REPAIR entry (Table 2.4). A bank whose rows are then spent takes a spare
bank, and a core with more than 2 failed banks is dead, and handled as a core tile (R39, Table 2.2). -/
def bankRepair (s : State) (c k : Nat) : State :=
  if 8 ≤ (mget [] s.rowErrs (c * 32768 + k / 64)).length then
    let (tx, ty) := (tileX s c, tileY c)
    let s := surveyAppend s 0x03 2 false
      (natBytes 1 tx ++ natBytes 1 ty ++ natBytes 1 (k / 32768) ++ natBytes 1 0 ++ natBytes 2 (k / 64 % 512))
    let (s, dead) := bankSpares s tx ty (fun s loc => surveyAppend s 0x02 2 false loc)
    if dead then failCore s c 2 false 0 else s
  else s

/-- R151: the corrected word at offset `off` is written back. A word written in the meantime needs none. -/
def execScratchpadEccWriteback (c off : Nat) (s : State) : Res :=
  .next (
    match spMark s c off with
    | some .corrected => bankRepair (setSpMark s c off none) c (spKey s c (off / 8 * 8) - c * 2 ^ 21)
    | _ => s)

/-- R154: patrol scrub reads one 64 B row, in ascending bank and then row, and corrects it. -/
def execPatrolScrubRow (c : Nat) (s : State) : Res :=
  .next (
    if present s c && !(s.core c).crst && (s.core c).spd.scrubEn then
      let r := (s.core c).spd.scrubAt
      let s := (List.range 8).foldl (fun s w => (touchKey s c (64 * r + 8 * w) 7).1) s
      count (modSpd s c (fun d => { d with scrubAt := (r + 1) % 32768 })) c 0x4A 1
        (memSample .none_ false (spdOff (s.core c).spd.near (s.core c).spd.lin (64 * r)) 64 (r / 512 / 16))
    else s)

/-- R157 to R160, R52: a request in remote form reaches the queue-and-remote port of core `c` and is performed or
refused whole; its completion goes back, a read's with the poison of its data (R152). A write whose data is poisoned is answered
UNCORRECTED (R297). -/
def execRemoteRequestArrive (c : Nat) (r : WinReq) (rtag : Nat) (s : State) : Res :=
  .next (
    let (s, a) := remoteAccess s c r 0x7FF
    emit s (match r.op with
      | .read => .rdata r.sdev rtag a.st.que a.data a.poison
      | .write _ poison => .answer r.sdev rtag (if a.st = .ok && poison != [] then RSt.que .uncorrected else a.st.que) a.data
      | _ => .answer r.sdev rtag a.st.que a.data))

/-- R161, R153: a request in local form of another core of this device reaches the scratchpad of core `c`. -/
def execLocalRequestArrive (c : Nat) (r : LocReq) (s : State) : Res :=
  .next (
    let (s, a) := localAccess s c (.core r.src) r.off r.size r.op 5
    emit s (.memData (.core r.src) (c * 2 ^ 21 + r.off) a.st.que a.data a.poison))

end Sys2Proof.Machine
end

