-- ==== Sys2Proof/Machine/System.lean ====
section
/-!
DEFINITION. System functions (Table 6.5), queue and event functions (Table 6.6), X (R188), the instruction buffer
and launches.
-/

namespace Sys2Proof.Machine

/-- NOP: every field must be 0 (Table 6.5, R181). -/
def execNop (c : Nat) (d a b : Reg) (s : State) : Res :=
  .next (sysFn s c (encA 2 d.val a.val b.val 0) (d.val == 0 && a.val == 0 && b.val == 0) (rg s c a) (rg s c b)
    (fun s => advance s c))

/-- END (R176): the core is ENDING until every command it has issued has completed. -/
def execEnd (c : Nat) (d a b : Reg) (s : State) : Res :=
  .next (sysFn s c (encA 2 d.val a.val b.val 1) (d.val == 0 && a.val == 0 && b.val == 0) (rg s c a) (rg s c b)
    (fun s => modCtl s c (fun k => { k with st := .ending, blk := .none })))

/-- R176: an ENDING core with no command outstanding completes its launch and becomes IDLE; registers are kept. -/
def execEndComplete (c : Nat) (s : State) : Res :=
  .next (
    let k := s.core c
    if k.ctl.st == .ending && k.flights.isEmpty then
      reportLaunch (modCtl s c (fun t => { t with st := .idle, pc := t.pc + 4 })) c .ended
    else s)

/-- BRK: code BREAK (Table 6.8). -/
def execBrk (c : Nat) (d a b : Reg) (s : State) : Res :=
  .next (sysFn s c (encA 2 d.val a.val b.val 2) (d.val == 0 && a.val == 0 && b.val == 0) (rg s c a) (rg s c b)
    (fun s => cuFault s c 0x0E 0xFF 0 (encA 2 0 0 0 2) 0 0 (rg s c a) (rg s c b)))

/-- IFLUSH: every line of the instruction buffer is invalid (R179). -/
def execIflush (c : Nat) (d a b : Reg) (s : State) : Res :=
  .next (sysFn s c (encA 2 d.val a.val b.val 3) (d.val == 0 && a.val == 0 && b.val == 0) (rg s c a) (rg s c b)
    (fun s => advance (modCtl s c (fun k => { k with ibuf := [] })) c))

/-- TWAIT: waits until the count of tag `t` is 0; d and a must be 0 (Table 6.5). -/
def execTwait (c : Nat) (d a : Reg) (t : Fin 32) (s : State) : Res :=
  .next (sysFn s c (encA 2 d.val a.val t.val 4) (d.val == 0 && a.val == 0) (rg s c a) 0
    (fun s => if tagCount (s.core c).ctl t.val = 0 then advance s c else block s c (.twait t.val)))

/-- TSTAT: count and ERR bit of tag `t`; ERR is cleared; a must be 0 (Table 6.5). -/
def execTstat (c : Nat) (d a : Reg) (t : Fin 32) (s : State) : Res :=
  .next (sysFn s c (encA 2 d.val a.val t.val 5) (a.val == 0) (rg s c a) 0
    (fun s =>
      let k := (s.core c).ctl
      let v := tagCount k t.val + (if k.tagErr.getLsbD t.val then 256 else 0)
      advance (modCtl (setReg s c d (BitVec.ofNat 64 v)) c (fun k =>
        { k with tagErr := k.tagErr &&& ~~~(BitVec.ofNat 32 (2 ^ t.val)) })) c))

/-- The mask of the tags whose count is not 0 (TMASK). -/
def tagMask (k : Ctl) : W64 :=
  BitVec.ofNat 64 ((List.range 32).foldl (fun m t => if tagCount k t = 0 then m else m + 2 ^ t) 0)

/-- TMASK; a and b must be 0. -/
def execTmask (c : Nat) (d a b : Reg) (s : State) : Res :=
  .next (sysFn s c (encA 2 d.val a.val b.val 6) (a.val == 0 && b.val == 0) (rg s c a) (rg s c b)
    (fun s => advance (setReg s c d (tagMask (s.core c).ctl)) c))

/-- WAITALL: waits until every tag count is 0. -/
def execWaitall (c : Nat) (d a b : Reg) (s : State) : Res :=
  .next (sysFn s c (encA 2 d.val a.val b.val 7) (d.val == 0 && a.val == 0 && b.val == 0) (rg s c a) (rg s c b)
    (fun s => if tagMask (s.core c).ctl = 0 then advance s c else block s c .waitAll))

/-- RDTIME: the Echo time of the core's field (R384). -/
def execRdtime (c : Nat) (d a b : Reg) (s : State) : Res :=
  .next (sysFn s c (encA 2 d.val a.val b.val 8) (a.val == 0 && b.val == 0) (rg s c a) (rg s c b)
    (fun s => advance (setReg s c d (echoOf s c)) c))

/-- RDCYC: the CCLK counted since the last reset that covered the core. -/
def execRdcyc (c : Nat) (d a b : Reg) (s : State) : Res :=
  .next (sysFn s c (encA 2 d.val a.val b.val 9) (a.val == 0 && b.val == 0) (rg s c a) (rg s c b)
    (fun s => advance (setReg s c d (BitVec.ofNat 64 ((s.field (fieldOf c)).cclk - (s.core c).ctl.cyc0))) c))

/-- CORE_ID (Table 6.17). -/
def coreId (s : State) (c : Nat) : W32 := BitVec.ofNat 32 (partNum s c * 2 ^ 28 + s.devId * 2 ^ 14 + c)

/-- RDID: CORE_ID, zero-extended. -/
def execRdid (c : Nat) (d a b : Reg) (s : State) : Res :=
  .next (sysFn s c (encA 2 d.val a.val b.val 10) (a.val == 0 && b.val == 0) (rg s c a) (rg s c b)
    (fun s => advance (setReg s c d ((coreId s c).setWidth 64)) c))

/-! ### Queue and event functions (R183, R226 to R228, R231, R232) -/

/-- A QUEUE fault (Table 7.3). -/
def queFault (s : State) (c : Nat) (w : W32) (detail : Nat) (addr ga gb : W64) : State :=
  cuFault s c 0x0D 0xFF 0 w detail addr ga gb

/-- R228: whether a message buffer at `g[b]` is misaligned or runs past the scratchpad. -/
def bufBad (v : W64) : Bool := v.toNat % 16 != 0 || decide (2 ^ 21 ≤ v.toNat + 255)

/-- QSEND (R225, R226): the message is read and sent, and the control unit is held until its outcome. A send on a
channel of another partition ends DENIED at once (R239). -/
def execQsend (c : Nat) (d a b : Reg) (size : BitVec 4) (s : State) : Res :=
  .next (issue s c (fun s =>
    let w := encA 3 d.val a.val b.val (size.toNat * 64)
    let ga := rg s c a
    let gb := rg s c b
    let n := (size.toNat + 1) * 16
    if bufBad gb then queFault s c w 2 gb ga gb
    else
      match decodeDest ga with
      | none => queFault s c w 1 ga ga gb
      | some dst =>
        if sbReadStall (s.core c) gb.toNat n then block s c .sb
        else
          let denied := match dst with
            | .mc ch => !((partOf s c).isSome && chanOwner s ch == partOf s c)
            | _ => false
          if denied then advance (setReg s c d 3) c
          else
            let (s, bs, bad) := spRead s c gb.toNat n 5
            let mem := bad.head?.map (fun x => (captureOf s c x 5, x))
            let ds := destMembers s dst
            if ds = [] then qsendDone s c d mem 0
            else block (startSend s (.ctl c) (mkSend bs false dst [] ds)) c (.qsend d mem)))

/-- QRECV and QTRY on a message that is there: it is delivered and the next instruction follows; an uncorrectable word
of the ring faults the core afterwards (Table 5.4). `lat` that it is a QRECV. -/
def takeMsg (s : State) (c q dst : Nat) (d : Reg) (lat : Bool) : State :=
  let (s, bad) := deliverMsg s c q dst d lat
  let s := advance s c
  match bad with
  | none => s
  | some m => memFault s c 6 0 m

/-- QRECV (R227, R228): takes the oldest message of a queue, or blocks while it is empty or bound by a STREAM_IN
(R169). The store rule of R148 covers the bytes of the message (R183). -/
def execQrecv (c : Nat) (d a b : Reg) (size : BitVec 4) (s : State) : Res :=
  .next (issue s c (fun s =>
    let w := encA 3 d.val a.val b.val (size.toNat * 64 + 1)
    let ga := rg s c a
    let gb := rg s c b
    let q := ga.toNat % 32
    if size ≠ 0 then illegal s c w ga gb
    else if bufBad gb then queFault s c w 2 gb ga gb
    else if q = 31 then queFault s c w 3 31 ga gb
    else if !((s.core c).que.q q).en then queFault s c w 4 (BitVec.ofNat 64 q) ga gb
    else
      match ((s.core c).que.q q).msgs with
      | [] => block s c (.qrecv d q gb.toNat)
      | m :: _ =>
        if (boundBy (s.core c) q).isSome then block s c (.qrecv d q gb.toNat)
        else if sbWriteStall (s.core c) gb.toNat (m.len * 16) then block s c .sb
        else takeMsg s c q gb.toNat d true))

/-- QTRY (R227): as QRECV, but never blocks: an empty or bound queue writes 0. -/
def execQtry (c : Nat) (d a b : Reg) (size : BitVec 4) (s : State) : Res :=
  .next (issue s c (fun s =>
    let w := encA 3 d.val a.val b.val (size.toNat * 64 + 2)
    let ga := rg s c a
    let gb := rg s c b
    let q := ga.toNat % 32
    if size ≠ 0 then illegal s c w ga gb
    else if bufBad gb then queFault s c w 2 gb ga gb
    else if q = 31 then queFault s c w 3 31 ga gb
    else if !((s.core c).que.q q).en then queFault s c w 4 (BitVec.ofNat 64 q) ga gb
    else
      match ((s.core c).que.q q).msgs with
      | [] => advance (count (setReg s c d 0) c 0x63 1 (queSample .here false q 0 0 0 0)) c
      | m :: _ =>
        if (boundBy (s.core c) q).isSome then advance (count (setReg s c d 0) c 0x63 1 (queSample .here false q 0 0 0 0)) c
        else if sbWriteStall (s.core c) gb.toNat (m.len * 16) then block s c .sb
        else takeMsg s c q gb.toNat d false))

/-- EVWAIT (R232): waits for an event flag under the mask g[a]; a mask of 0 completes at once. Its b field is not among the fields that
must be 0 (R181, R183). -/
def execEvwait (c : Nat) (d a b : Reg) (size : BitVec 4) (s : State) : Res :=
  .next (issue s c (fun s =>
    let m := rg s c a
    let v := (s.core c).que.flags &&& m
    if size ≠ 0 then illegal s c (encA 3 d.val a.val b.val (size.toNat * 64 + 3)) m (rg s c b)
    else if v = 0 ∧ m ≠ 0 then block s c (.evwait d m)
    else advance (count (setReg s c d v) c 0x6F 1) c))

/-- EVCLR (R232): clears the event flags set in g[a]. Its b and d fields are not among the fields that must be 0 (R181, R183). -/
def execEvclr (c : Nat) (d a b : Reg) (size : BitVec 4) (s : State) : Res :=
  .next (issue s c (fun s =>
    let m := rg s c a
    if size ≠ 0 then illegal s c (encA 3 d.val a.val b.val (size.toNat * 64 + 4)) m (rg s c b)
    else advance (modQue s c (fun u => { u with flags := u.flags &&& ~~~m })) c))

/-! ### X (R188, R189) -/

/-- X: the descriptor line is read as a load, checked by its engine, and the command queued. -/
def execX (c : Nat) (eng : BitVec 3) (tag : Fin 32) (dptr : Reg) (flags : BitVec 12) (s : State) : Res :=
  .next (issue s c (fun s =>
    let w := encX eng.toNat tag.val dptr.val flags.toNat
    let desc := rg s c dptr + 64 * (BitVec.ofNat 64 (flags.toNat % 64))
    if bits flags.toNat 9 6 ≠ 0 then illegal s c w 0 0
    else if desc.toNat % 64 ≠ 0 ∨ 2 ^ 21 ≤ desc.toNat then cuFault s c 0x0B 0xFF tag.val w 0 desc 0 0
    else if sbReadStall (s.core c) desc.toNat 64 then block s c .sb
    else
      let (s, bs, bad) := spRead s c desc.toNat 64 0
      match bad with
      | w' :: _ => cuFault s c 7 0xFF 0 w (captureOf s c w' 0) desc 0 0
      | [] =>
        match readBody eng.toNat bs with
        | none => cuFault s c 0x0B eng.toNat tag.val w 0 desc 0 0
        | some b =>
          xIssue s c w ⟨⟨tag, flags.getLsbD 11, flags.getLsbD 10, desc.toNat⟩, b⟩))

/-- R188 step 4, R149: a stalled X finds its ranges clear, its engine with room and its tag with room, and is queued. -/
def execXIssueStallEnd (c : Nat) (s : State) : Res :=
  .next (
    let k := s.core c
    match k.ctl.st, k.ctl.blk with
    | .running, .x cmd _ => if engStalls s c cmd then s else xQueue s c cmd
    | _, _ => s)

/-- R178: the bytes of a line enter the instruction buffer. -/
def keepLine (s : State) (c line : Nat) (bs : Bytes) : State :=
  modCtl s c (fun k => { k with ibuf := mset k.ibuf (line / 64 % 256) (line / 2 ^ 14, bs) })

/-- R178: the buffer prefetches the line after the PC's where it does not hold it. One that overlaps an in-flight write is not made,
and a prefetch never stalls issue. A line with an uncorrectable word is not kept. DEDUCED, log entry 24. -/
def prefetch (s : State) (c line : Nat) : State :=
  if 2 ^ 21 ≤ line ∨ bufHit s c line ∨ sbReadStall (s.core c) line 64 then s
  else
    match spRead s c line 64 0 with
    | (s, bs, []) => keepLine s c line bs
    | (s, _, _) => s

/-- R178: the instruction buffer reads a line from the scratchpad: on a miss that of the PC, which stalls while it overlaps an
in-flight write (R148), and whose uncorrectable word faults the core (Table 5.4); while the PC's line is there, the next.
DEDUCED, log entry 24. -/
def execInsnBufferFill (c : Nat) (s : State) : Res :=
  .next (
    let pc := (s.core c).ctl.pc.toNat
    let line := pc / 64 * 64
    if !present s c || (s.core c).crst || (s.core c).ctl.st != .running || decide (2 ^ 21 ≤ pc) then s
    else if bufHit s c pc then prefetch s c (line + 64)
    else if !canIssue s c then s
    else if sbReadStall (s.core c) line 64 then block s c .sb
    else
      match spRead (block s c .none) c line 64 0 with
      | (s, _, w :: _) => cuFault s c 7 0xFF 0 0 (captureOf s c w 0) (BitVec.ofNat 64 pc) 0 0
      | (s, bs, []) => keepLine (count s c 0x07 1) c line bs)

/-- R175: an IDLE core whose partition is in RUN takes the oldest message of queue 31 as a launch. A message that holds
an uncorrectable word is removed and faults the core. -/
def execLaunchTake (c : Nat) (s : State) : Res :=
  .next (
    let k := s.core c
    let u := k.que.q 31
    match u.msgs with
    | [] => s
    | m :: _ =>
      if present s c && !k.crst && k.ctl.st == .idle && !k.ctl.haltBit then
        let (s, bs, bad) := spRead s c (u.slotOff m.slot) (m.len * 16) 5
        let s := popMsg s c 31
        match bad with
        | w' :: _ =>
          let s := modCtl s c (fun t => { t with pc := 0, launchOn := some ((bs.getD 74 0).toNat, leAt bs 72 2) })
          coreFault s c { code := 7, engine := 6, imp := false, tag := 0, insn := 0, detail := captureOf s c w' 5,
                          addr := 0, ga := 0, gb := 0 }
        | [] =>
          modCtl (count s c 0x0F 1) c (fun t =>
            { t with
              st := .running
              blk := .none
              pc := BitVec.ofNat 64 (leAt bs 0 4 % 2 ^ 21 / 4 * 4)
              launch := BitVec.ofNat 32 (leAt bs 4 4)
              regs := (List.range 8).foldl (fun r i => mset r (i + 1) (BitVec.ofNat 64 (leAt bs (8 + 8 * i) 8))) []
              ibuf := []
              launchOn := some ((bs.getD 74 0).toNat, leAt bs 72 2) })
      else s)

end Sys2Proof.Machine
end

