-- ==== Sys2Proof/Machine/Words.lean ====
section
/-!
DEFINITION. The execution of an instruction word: its opcode and function pick the instruction (Tables 6.3 to 6.6), and a reserved
one faults (R181).
-/

namespace Sys2Proof.Machine

/-- R181: a word that spells no instruction: a reserved opcode, or a reserved fn of opcodes 0x01 to 0x03. -/
def isReservedWord (w : W32) : Bool := (decodeInsn 0 w).isNone

/-- R182, R183: the operation of an instruction of a core; nothing for a command of another kind. -/
def runInsn (i : Instr) (s : State) : Res :=
  match i with
  | .add c d a b => execAdd c d a b s
  | .sub c d a b => execSub c d a b s
  | .and_ c d a b => execAnd c d a b s
  | .or_ c d a b => execOr c d a b s
  | .xor_ c d a b => execXor c d a b s
  | .sll c d a b => execSll c d a b s
  | .srl c d a b => execSrl c d a b s
  | .sra c d a b => execSra c d a b s
  | .slt c d a b => execSlt c d a b s
  | .sltu c d a b => execSltu c d a b s
  | .min c d a b => execMin c d a b s
  | .max c d a b => execMax c d a b s
  | .minu c d a b => execMinu c d a b s
  | .maxu c d a b => execMaxu c d a b s
  | .mul c d a b => execMul c d a b s
  | .mulh c d a b => execMulh c d a b s
  | .mulhu c d a b => execMulhu c d a b s
  | .clz c d a b => execClz c d a b s
  | .ctz c d a b => execCtz c d a b s
  | .popc c d a b => execPopc c d a b s
  | .nop c d a b => execNop c d a b s
  | .end_ c d a b => execEnd c d a b s
  | .brk c d a b => execBrk c d a b s
  | .iflush c d a b => execIflush c d a b s
  | .twait c d a b => execTwait c d a b s
  | .tstat c d a b => execTstat c d a b s
  | .tmask c d a b => execTmask c d a b s
  | .waitall c d a b => execWaitall c d a b s
  | .rdtime c d a b => execRdtime c d a b s
  | .rdcyc c d a b => execRdcyc c d a b s
  | .rdid c d a b => execRdid c d a b s
  | .qsend c d a b size => execQsend c d a b size s
  | .qrecv c d a b size => execQrecv c d a b size s
  | .qtry c d a b size => execQtry c d a b size s
  | .evwait c d a b size => execEvwait c d a b size s
  | .evclr c d a b size => execEvclr c d a b size s
  | .addi c d a imm => execAddi c d a imm s
  | .andi c d a imm => execAndi c d a imm s
  | .ori c d a imm => execOri c d a imm s
  | .xori c d a imm => execXori c d a imm s
  | .slli c d a imm => execSlli c d a imm s
  | .srli c d a imm => execSrli c d a imm s
  | .srai c d a imm => execSrai c d a imm s
  | .slti c d a imm => execSlti c d a imm s
  | .orsh c d a imm => execOrsh c d a imm s
  | .lb c d a imm => execLb c d a imm s
  | .lh c d a imm => execLh c d a imm s
  | .lw c d a imm => execLw c d a imm s
  | .ld c d a imm => execLd c d a imm s
  | .lbu c d a imm => execLbu c d a imm s
  | .lhu c d a imm => execLhu c d a imm s
  | .lwu c d a imm => execLwu c d a imm s
  | .sb c d a imm => execSb c d a imm s
  | .sh c d a imm => execSh c d a imm s
  | .sw c d a imm => execSw c d a imm s
  | .sd c d a imm => execSd c d a imm s
  | .glw c d a imm => execGlw c d a imm s
  | .gld c d a imm => execGld c d a imm s
  | .gsw c d a imm => execGsw c d a imm s
  | .gsd c d a imm => execGsd c d a imm s
  | .jalr c d a imm => execJalr c d a imm s
  | .beq c a b off => execBeq c a b off s
  | .bne c a b off => execBne c a b off s
  | .blt c a b off => execBlt c a b off s
  | .bge c a b off => execBge c a b off s
  | .bltu c a b off => execBltu c a b off s
  | .bgeu c a b off => execBgeu c a b off s
  | .jal c d off => execJal c d off s
  | .x c eng tag dptr flags => execX c eng tag dptr flags s
  | _ => .next s

/-- R180, R181: core `c` executes the word `w`. A reserved word faults with code ILLEGAL; any other is the instruction that its opcode
and function pick. -/
def execReservedOpcode (c : Nat) (w : W32) (s : State) : Res :=
  match decodeInsn c w with
  | none => .next (issue s c (fun s => illegal s c w (rg s c (regAt w 15)) (rg s c (regAt w 10))))
  | some i => runInsn i s

end Sys2Proof.Machine
end

