-- ==== Sys2Proof/Machine/Dispatch.lean ====
section
/-!
DEFINITION. One arm for each command: a direct call of its meaning.
-/

namespace Sys2Proof.Machine

/-- The effect of a command on everything but the queue. -/
def exec (i : Instr) (s : State) : Host.Outcome State Fault Refusal :=
  match i with
  | .add c d a b => Sys2Proof.Machine.execAdd c d a b s
  | .sub c d a b => Sys2Proof.Machine.execSub c d a b s
  | .and_ c d a b => Sys2Proof.Machine.execAnd c d a b s
  | .or_ c d a b => Sys2Proof.Machine.execOr c d a b s
  | .xor_ c d a b => Sys2Proof.Machine.execXor c d a b s
  | .sll c d a b => Sys2Proof.Machine.execSll c d a b s
  | .srl c d a b => Sys2Proof.Machine.execSrl c d a b s
  | .sra c d a b => Sys2Proof.Machine.execSra c d a b s
  | .slt c d a b => Sys2Proof.Machine.execSlt c d a b s
  | .sltu c d a b => Sys2Proof.Machine.execSltu c d a b s
  | .min c d a b => Sys2Proof.Machine.execMin c d a b s
  | .max c d a b => Sys2Proof.Machine.execMax c d a b s
  | .minu c d a b => Sys2Proof.Machine.execMinu c d a b s
  | .maxu c d a b => Sys2Proof.Machine.execMaxu c d a b s
  | .mul c d a b => Sys2Proof.Machine.execMul c d a b s
  | .mulh c d a b => Sys2Proof.Machine.execMulh c d a b s
  | .mulhu c d a b => Sys2Proof.Machine.execMulhu c d a b s
  | .clz c d a b => Sys2Proof.Machine.execClz c d a b s
  | .ctz c d a b => Sys2Proof.Machine.execCtz c d a b s
  | .popc c d a b => Sys2Proof.Machine.execPopc c d a b s
  | .addi c d a imm => Sys2Proof.Machine.execAddi c d a imm s
  | .andi c d a imm => Sys2Proof.Machine.execAndi c d a imm s
  | .ori c d a imm => Sys2Proof.Machine.execOri c d a imm s
  | .xori c d a imm => Sys2Proof.Machine.execXori c d a imm s
  | .slli c d a imm => Sys2Proof.Machine.execSlli c d a imm s
  | .srli c d a imm => Sys2Proof.Machine.execSrli c d a imm s
  | .srai c d a imm => Sys2Proof.Machine.execSrai c d a imm s
  | .slti c d a imm => Sys2Proof.Machine.execSlti c d a imm s
  | .orsh c d a imm => Sys2Proof.Machine.execOrsh c d a imm s
  | .lb c d a imm => Sys2Proof.Machine.execLb c d a imm s
  | .lh c d a imm => Sys2Proof.Machine.execLh c d a imm s
  | .lw c d a imm => Sys2Proof.Machine.execLw c d a imm s
  | .ld c d a imm => Sys2Proof.Machine.execLd c d a imm s
  | .lbu c d a imm => Sys2Proof.Machine.execLbu c d a imm s
  | .lhu c d a imm => Sys2Proof.Machine.execLhu c d a imm s
  | .lwu c d a imm => Sys2Proof.Machine.execLwu c d a imm s
  | .sb c d a imm => Sys2Proof.Machine.execSb c d a imm s
  | .sh c d a imm => Sys2Proof.Machine.execSh c d a imm s
  | .sw c d a imm => Sys2Proof.Machine.execSw c d a imm s
  | .sd c d a imm => Sys2Proof.Machine.execSd c d a imm s
  | .glw c d a imm => Sys2Proof.Machine.execGlw c d a imm s
  | .gld c d a imm => Sys2Proof.Machine.execGld c d a imm s
  | .gsw c d a imm => Sys2Proof.Machine.execGsw c d a imm s
  | .gsd c d a imm => Sys2Proof.Machine.execGsd c d a imm s
  | .globalAccessCompletion c status data => Sys2Proof.Machine.execGlobalAccessCompletion c status data s
  | .globalAccessTimeout c => Sys2Proof.Machine.execGlobalAccessTimeout c s
  | .beq c a b off => Sys2Proof.Machine.execBeq c a b off s
  | .bne c a b off => Sys2Proof.Machine.execBne c a b off s
  | .blt c a b off => Sys2Proof.Machine.execBlt c a b off s
  | .bge c a b off => Sys2Proof.Machine.execBge c a b off s
  | .bltu c a b off => Sys2Proof.Machine.execBltu c a b off s
  | .bgeu c a b off => Sys2Proof.Machine.execBgeu c a b off s
  | .jal c d off => Sys2Proof.Machine.execJal c d off s
  | .jalr c d a imm => Sys2Proof.Machine.execJalr c d a imm s
  | .nop c d a b => Sys2Proof.Machine.execNop c d a b s
  | .end_ c d a b => Sys2Proof.Machine.execEnd c d a b s
  | .endComplete c => Sys2Proof.Machine.execEndComplete c s
  | .brk c d a b => Sys2Proof.Machine.execBrk c d a b s
  | .iflush c d a b => Sys2Proof.Machine.execIflush c d a b s
  | .twait c d a t => Sys2Proof.Machine.execTwait c d a t s
  | .tstat c d a t => Sys2Proof.Machine.execTstat c d a t s
  | .tmask c d a b => Sys2Proof.Machine.execTmask c d a b s
  | .waitall c d a b => Sys2Proof.Machine.execWaitall c d a b s
  | .rdtime c d a b => Sys2Proof.Machine.execRdtime c d a b s
  | .rdcyc c d a b => Sys2Proof.Machine.execRdcyc c d a b s
  | .rdid c d a b => Sys2Proof.Machine.execRdid c d a b s
  | .qsend c d a b size => Sys2Proof.Machine.execQsend c d a b size s
  | .qrecv c d a b size => Sys2Proof.Machine.execQrecv c d a b size s
  | .qtry c d a b size => Sys2Proof.Machine.execQtry c d a b size s
  | .evwait c d a b size => Sys2Proof.Machine.execEvwait c d a b size s
  | .evclr c d a b size => Sys2Proof.Machine.execEvclr c d a b size s
  | .x c eng tag dptr flags => Sys2Proof.Machine.execX c eng tag dptr flags s
  | .xIssueStallEnd c => Sys2Proof.Machine.execXIssueStallEnd c s
  | .insnBufferFill c => Sys2Proof.Machine.execInsnBufferFill c s
  | .launchTake c => Sys2Proof.Machine.execLaunchTake c s
  | .pconf c iss d => Sys2Proof.Machine.execPconf c iss d s
  | .pconfTakeEffect c => Sys2Proof.Machine.execPconfTakeEffect c s
  | .pload c iss d => Sys2Proof.Machine.execPload c iss d s
  | .ploadComplete c => Sys2Proof.Machine.execPloadComplete c s
  | .pswap c iss => Sys2Proof.Machine.execPswap c iss s
  | .pswapSwap c => Sys2Proof.Machine.execPswapSwap c s
  | .pstream c iss d => Sys2Proof.Machine.execPstream c iss d s
  | .rampGrant c => Sys2Proof.Machine.execRampGrant c s
  | .rampComplete c => Sys2Proof.Machine.execRampComplete c s
  | .pstreamComplete c => Sys2Proof.Machine.execPstreamComplete c s
  | .tallyDecide c => Sys2Proof.Machine.execTallyDecide c s
  | .pdrain c iss d => Sys2Proof.Machine.execPdrain c iss d s
  | .pdrainComplete c => Sys2Proof.Machine.execPdrainComplete c s
  | .pressIdleCountExpire c => Sys2Proof.Machine.execPressIdleCountExpire c s
  | .pressFallComplete c => Sys2Proof.Machine.execPressFallComplete c s
  | .vecAdd c iss d => Sys2Proof.Machine.execVecAdd c iss d s
  | .vecSub c iss d => Sys2Proof.Machine.execVecSub c iss d s
  | .vecMul c iss d => Sys2Proof.Machine.execVecMul c iss d s
  | .vecFma c iss d => Sys2Proof.Machine.execVecFma c iss d s
  | .vecMax c iss d => Sys2Proof.Machine.execVecMax c iss d s
  | .vecMin c iss d => Sys2Proof.Machine.execVecMin c iss d s
  | .vecSel c iss d => Sys2Proof.Machine.execVecSel c iss d s
  | .vecCgt c iss d => Sys2Proof.Machine.execVecCgt c iss d s
  | .vecAbs c iss d => Sys2Proof.Machine.execVecAbs c iss d s
  | .vecNeg c iss d => Sys2Proof.Machine.execVecNeg c iss d s
  | .vecExp2 c iss d => Sys2Proof.Machine.execVecExp2 c iss d s
  | .vecLog2 c iss d => Sys2Proof.Machine.execVecLog2 c iss d s
  | .vecRcp c iss d => Sys2Proof.Machine.execVecRcp c iss d s
  | .vecRsqrt c iss d => Sys2Proof.Machine.execVecRsqrt c iss d s
  | .vecRsum c iss d => Sys2Proof.Machine.execVecRsum c iss d s
  | .vecRmax c iss d => Sys2Proof.Machine.execVecRmax c iss d s
  | .vecRmin c iss d => Sys2Proof.Machine.execVecRmin c iss d s
  | .vecRamax c iss d => Sys2Proof.Machine.execVecRamax c iss d s
  | .vecCvt c iss d => Sys2Proof.Machine.execVecCvt c iss d s
  | .vecQnt c iss d => Sys2Proof.Machine.execVecQnt c iss d s
  | .vecQnte c iss d => Sys2Proof.Machine.execVecQnte c iss d s
  | .vecDqnt c iss d => Sys2Proof.Machine.execVecDqnt c iss d s
  | .vecTrn c iss d => Sys2Proof.Machine.execVecTrn c iss d s
  | .vecCopy c iss d => Sys2Proof.Machine.execVecCopy c iss d s
  | .vecCommandStart c => Sys2Proof.Machine.execVecCommandStart c s
  | .vecCommandComplete c => Sys2Proof.Machine.execVecCommandComplete c s
  | .vecSeedWrite req c v => Sys2Proof.Machine.execVecSeedWrite req c v s
  | .csrWrite req addr size v => Sys2Proof.Machine.execCsrWrite req addr size v s
  | .rcRead req addr size => Sys2Proof.Machine.execRcRead req addr size s
  | .spdModeWrite req c v => Sys2Proof.Machine.execSpdModeWrite req c v s
  | .scratchpadEccWriteback c off => Sys2Proof.Machine.execScratchpadEccWriteback c off s
  | .patrolScrubRow c => Sys2Proof.Machine.execPatrolScrubRow c s
  | .remoteRequestArrive c r rtag => Sys2Proof.Machine.execRemoteRequestArrive c r rtag s
  | .localRequestArrive c r => Sys2Proof.Machine.execLocalRequestArrive c r s
  | .dmaCopy c e iss d => Sys2Proof.Machine.execDmaCopy c e iss d s
  | .dmaFill c e iss d => Sys2Proof.Machine.execDmaFill c e iss d s
  | .streamIn c e iss d => Sys2Proof.Machine.execStreamIn c e iss d s
  | .streamOut c e iss d => Sys2Proof.Machine.execStreamOut c e iss d s
  | .dmaBurstSend c e => Sys2Proof.Machine.execDmaBurstSend c e s
  | .dmaFillArrive c e k status data poison => Sys2Proof.Machine.execDmaFillArrive c e k status data poison s
  | .dmaBurstAck c e k status => Sys2Proof.Machine.execDmaBurstAck c e k status s
  | .streamOutMessageAnswer c e ext => Sys2Proof.Machine.execStreamOutMessageAnswer c e ext s
  | .dmaNotifyAnswer c e ext => Sys2Proof.Machine.execDmaNotifyAnswer c e ext s
  | .queueMessageArrive m => Sys2Proof.Machine.execQueueMessageArrive m s
  | .queueMessageAnswer p ext => Sys2Proof.Machine.execQueueMessageAnswer p ext s
  | .queueGrantArrive g rtag => Sys2Proof.Machine.execQueueGrantArrive g rtag s
  | .waiterRetryTimer p k => Sys2Proof.Machine.execWaiterRetryTimer p k s
  | .queCfgWrite req c q v => Sys2Proof.Machine.execQueCfgWrite req c q v s
  | .queBaseWrite req c q v => Sys2Proof.Machine.execQueBaseWrite req c q v s
  | .queDevWrite req c q v => Sys2Proof.Machine.execQueDevWrite req c q v s
  | .evtSetWrite req c hi v => Sys2Proof.Machine.execEvtSetWrite req c hi v s
  | .send c iss d => Sys2Proof.Machine.execSend c iss d s
  | .evpost c iss d => Sys2Proof.Machine.execEvpost c iss d s
  | .evpostArrive e => Sys2Proof.Machine.execEvpostArrive e s
  | .evpostAnswer c status => Sys2Proof.Machine.execEvpostAnswer c status s
  | .mcset c iss d => Sys2Proof.Machine.execMcset c iss d s
  | .mcsetComplete c => Sys2Proof.Machine.execMcsetComplete c s
  | .mcget c iss d => Sys2Proof.Machine.execMcget c iss d s
  | .mcastMemberAnswer p k ext => Sys2Proof.Machine.execMcastMemberAnswer p k ext s
  | .mcfwdArrive m => Sys2Proof.Machine.execMcfwdArrive m s
  | .lockAcq c iss d => Sys2Proof.Machine.execLockAcq c iss d s
  | .lockTry c iss d => Sys2Proof.Machine.execLockTry c iss d s
  | .lockRel c iss d => Sys2Proof.Machine.execLockRel c iss d s
  | .lockRequestArrive lock a => Sys2Proof.Machine.execLockRequestArrive lock a s
  | .lockReplyArrive c status val => Sys2Proof.Machine.execLockReplyArrive c status val s
  | .aadd c iss d => Sys2Proof.Machine.execAadd c iss d s
  | .amin c iss d => Sys2Proof.Machine.execAmin c iss d s
  | .amax c iss d => Sys2Proof.Machine.execAmax c iss d s
  | .aminu c iss d => Sys2Proof.Machine.execAminu c iss d s
  | .amaxu c iss d => Sys2Proof.Machine.execAmaxu c iss d s
  | .aswap c iss d => Sys2Proof.Machine.execAswap c iss d s
  | .acas c iss d => Sys2Proof.Machine.execAcas c iss d s
  | .atomicArrive a => Sys2Proof.Machine.execAtomicArrive a s
  | .atomicReplyArrive c status val => Sys2Proof.Machine.execAtomicReplyArrive c status val s
  | .packetRoute n r pkts bad => Sys2Proof.Machine.execPacketRoute n r pkts bad s
  | .seamResendBurst seam x plane dir group wire resends => Sys2Proof.Machine.execSeamResendBurst seam x plane dir group wire resends s
  | .crossingQuiesced seam x tests => Sys2Proof.Machine.execCrossingQuiesced seam x tests s
  | .serviceWireDisagree n seam x failed => Sys2Proof.Machine.execServiceWireDisagree n seam x failed s
  | .meshPacketDeliver k => Sys2Proof.Machine.execMeshPacketDeliver k s
  | .routerFail n r => Sys2Proof.Machine.execRouterFail n r s
  | .weightPropagate p => Sys2Proof.Machine.execWeightPropagate p s
  | .portTrainingDone p r => Sys2Proof.Machine.execPortTrainingDone p r s
  | .berGateEnd p lanes => Sys2Proof.Machine.execBerGateEnd p lanes s
  | .trainFrame p x => Sys2Proof.Machine.execTrainFrame p x s
  | .berWindowEnd p errors bits uncor => Sys2Proof.Machine.execBerWindowEnd p errors bits uncor s
  | .portSignalLoss p => Sys2Proof.Machine.execPortSignalLoss p s
  | .portRetrainTimer p => Sys2Proof.Machine.execPortRetrainTimer p s
  | .cmisPoll l ms => Sys2Proof.Machine.execCmisPoll l ms s
  | .dataFrame p f => Sys2Proof.Machine.execDataFrame p f s
  | .idleFrame p f => Sys2Proof.Machine.execIdleFrame p f s
  | .nakFrame p f => Sys2Proof.Machine.execNakFrame p f s
  | .replayTimeout p => Sys2Proof.Machine.execReplayTimeout p s
  | .beaconSend p => Sys2Proof.Machine.execBeaconSend p s
  | .beaconFrame p x => Sys2Proof.Machine.execBeaconFrame p x s
  | .keyFrame p f => Sys2Proof.Machine.execKeyFrame p f s
  | .linkPacketRoute at_ planeB k => Sys2Proof.Machine.execLinkPacketRoute at_ planeB k s
  | .stallTimeout p v => Sys2Proof.Machine.execStallTimeout p v s
  | .remoteTimeout r => Sys2Proof.Machine.execRemoteTimeout r s
  | .ethDataPacket p b peer e => Sys2Proof.Machine.execEthDataPacket p b peer e s
  | .ethAck b peer apsn => Sys2Proof.Machine.execEthAck b peer apsn s
  | .ethNak b peer psn => Sys2Proof.Machine.execEthNak b peer psn s
  | .ethAckTimer b peer => Sys2Proof.Machine.execEthAckTimer b peer s
  | .ethRto b peer => Sys2Proof.Machine.execEthRto b peer s
  | .cnp b peer mfrac => Sys2Proof.Machine.execCnp b peer mfrac s
  | .cnpIntervalEnd b peer => Sys2Proof.Machine.execCnpIntervalEnd b peer s
  | .rateIncreaseTimer b peer => Sys2Proof.Machine.execRateIncreaseTimer b peer s
  | .neighbourSolicitation b target => Sys2Proof.Machine.execNeighbourSolicitation b target s
  | .epochSwitch => Sys2Proof.Machine.execEpochSwitch s
  | .epochHoldExpire => Sys2Proof.Machine.execEpochHoldExpire s
  | .hbmRequest r => Sys2Proof.Machine.execHbmRequest r s
  | .hbmRateTokens st => Sys2Proof.Machine.execHbmRateTokens st s
  | .hbmEccWriteback st w => Sys2Proof.Machine.execHbmEccWriteback st w s
  | .hbmScrubWord st => Sys2Proof.Machine.execHbmScrubWord st s
  | .hbmTempRead st t => Sys2Proof.Machine.execHbmTempRead st t s
  | .hbmRecalibrate st ch => Sys2Proof.Machine.execHbmRecalibrate st ch s
  | .hbmChannelFail st ch => Sys2Proof.Machine.execHbmChannelFail st ch s
  | .bar2Write h f off bs poisoned => Sys2Proof.Machine.execBar2Write h f off bs poisoned s
  | .bar2Read h f off x => Sys2Proof.Machine.execBar2Read h f off x s
  | .sqtailWrite h f r v => Sys2Proof.Machine.execSqtailWrite h f r v s
  | .ringCtrlWrite h f r v => Sys2Proof.Machine.execRingCtrlWrite h f r v s
  | .ringBaseWrite h f r x v => Sys2Proof.Machine.execRingBaseWrite h f r x v s
  | .launchFetch h => Sys2Proof.Machine.execLaunchFetch h s
  | .launchTargetReport h c => Sys2Proof.Machine.execLaunchTargetReport h c s
  | .msixCoalesceTimer h f r => Sys2Proof.Machine.execMsixCoalesceTimer h f r s
  | .vfFlr h p => Sys2Proof.Machine.execVfFlr h p s
  | .pfFlr h => Sys2Proof.Machine.execPfFlr h s
  | .perstAssert h pin => Sys2Proof.Machine.execPerstAssert h pin s
  | .perstRelease h => Sys2Proof.Machine.execPerstRelease h s
  | .clkChangeArm t mask targets => Sys2Proof.Machine.execClkChangeArm t mask targets s
  | .pllLock n => Sys2Proof.Machine.execPllLock n s
  | .clkReadyCheck => Sys2Proof.Machine.execClkReadyCheck s
  | .clkSwitch => Sys2Proof.Machine.execClkSwitch s
  | .pllLockLoss n => Sys2Proof.Machine.execPllLockLoss n s
  | .vcoreLower n => Sys2Proof.Machine.execVcoreLower n s
  | .echoBeacon => Sys2Proof.Machine.execEchoBeacon s
  | .echoDelayMeasure n dly => Sys2Proof.Machine.execEchoDelayMeasure n dly s
  | .echoBeaconLoss n => Sys2Proof.Machine.execEchoBeaconLoss n s
  | .echoDiscipline ofs => Sys2Proof.Machine.execEchoDiscipline ofs s
  | .echoSourceLoss => Sys2Proof.Machine.execEchoSourceLoss s
  | .ptpMessage port domain ofs => Sys2Proof.Machine.execPtpMessage port domain ofs s
  | .ppsEdge => Sys2Proof.Machine.execPpsEdge s
  | .vinLowWarning mv => Sys2Proof.Machine.execVinLowWarning mv s
  | .vinFault mv => Sys2Proof.Machine.execVinFault mv s
  | .vinArrive mv => Sys2Proof.Machine.execVinArrive mv s
  | .autostart => Sys2Proof.Machine.execAutostart s
  | .vstbyLoss => Sys2Proof.Machine.execVstbyLoss s
  | .vstbyArrive => Sys2Proof.Machine.execVstbyArrive s
  | .bladeCurrentSample a b => Sys2Proof.Machine.execBladeCurrentSample a b s
  | .jointSample u deviates => Sys2Proof.Machine.execJointSample u deviates s
  | .jointTest u found => Sys2Proof.Machine.execJointTest u found s
  | .jointSuspectExpire u => Sys2Proof.Machine.execJointSuspectExpire u s
  | .domainTrip d => Sys2Proof.Machine.execDomainTrip d s
  | .phaseTrip n iss => Sys2Proof.Machine.execPhaseTrip n iss s
  | .stageTrip x => Sys2Proof.Machine.execStageTrip x s
  | .cgPowerupWave n => Sys2Proof.Machine.execCgPowerupWave n s
  | .domainTransitionDone d => Sys2Proof.Machine.execDomainTransitionDone d s
  | .powerSample compute aux parts => Sys2Proof.Machine.execPowerSample compute aux parts s
  | .governorDecision => Sys2Proof.Machine.execGovernorDecision s
  | .brakeRelease => Sys2Proof.Machine.execBrakeRelease s
  | .decafBrakeRelease => Sys2Proof.Machine.execDecafBrakeRelease s
  | .lendReport w => Sys2Proof.Machine.execLendReport w s
  | .lendRound ms => Sys2Proof.Machine.execLendRound ms s
  | .lendLimitMessage w => Sys2Proof.Machine.execLendLimitMessage w s
  | .lendConfirmTimeout done => Sys2Proof.Machine.execLendConfirmTimeout done s
  | .lendFallback => Sys2Proof.Machine.execLendFallback s
  | .tempSample tiles others => Sys2Proof.Machine.execTempSample tiles others s
  | .thermalTrip => Sys2Proof.Machine.execThermalTrip s
  | .fanStartCheck c volt => Sys2Proof.Machine.execFanStartCheck c volt s
  | .auxTrip c => Sys2Proof.Machine.execAuxTrip c s
  | .auxOverloadTrip c => Sys2Proof.Machine.execAuxOverloadTrip c s
  | .auxRetry c => Sys2Proof.Machine.execAuxRetry c s
  | .auxStandbyTrip => Sys2Proof.Machine.execAuxStandbyTrip s
  | .fanStall c rpm => Sys2Proof.Machine.execFanStall c rpm s
  | .coldRstRelease lowNs => Sys2Proof.Machine.execColdRstRelease lowNs s
  | .warmRstRelease lowNs => Sys2Proof.Machine.execWarmRstRelease lowNs s
  | .coldStartStageEnd o => Sys2Proof.Machine.execColdStartStageEnd o s
  | .startStageDeadline => Sys2Proof.Machine.execStartStageDeadline s
  | .warmStartStageEnd surveyOk => Sys2Proof.Machine.execWarmStartStageEnd surveyOk s
  | .autoRecover => Sys2Proof.Machine.execAutoRecover s
  | .computeResetDrainEnd => Sys2Proof.Machine.execComputeResetDrainEnd s
  | .computeResetDone => Sys2Proof.Machine.execComputeResetDone s
  | .partitionResetDone p => Sys2Proof.Machine.execPartitionResetDone p s
  | .coreResetDone c => Sys2Proof.Machine.execCoreResetDone c s
  | .remapSpareTested g pass => Sys2Proof.Machine.execRemapSpareTested g pass s
  | .remapDone g => Sys2Proof.Machine.execRemapDone g s
  | .coreFailDetected x => Sys2Proof.Machine.execCoreFailDetected x s
  | .watchdogExpire => Sys2Proof.Machine.execWatchdogExpire s
  | .carafeTakeControl ok => Sys2Proof.Machine.execCarafeTakeControl ok s
  | .haltNAssert ns => Sys2Proof.Machine.execHaltNAssert ns s
  | .haltNRelease ns => Sys2Proof.Machine.execHaltNRelease ns s
  | .haltArrive c => Sys2Proof.Machine.execHaltArrive c s
  | .runArrive c => Sys2Proof.Machine.execRunArrive c s
  | .partitionHalted p => Sys2Proof.Machine.execPartitionHalted p s
  | .errorCoalesceFlush => Sys2Proof.Machine.execErrorCoalesceFlush s
  | .eventLogFlush => Sys2Proof.Machine.execEventLogFlush s
  | .parityRewrite x => Sys2Proof.Machine.execParityRewrite x s
  | .fuseRecheck ok => Sys2Proof.Machine.execFuseRecheck ok s
  | .fieldCheckGroupDone g results => Sys2Proof.Machine.execFieldCheckGroupDone g results s
  | .fieldCheckUnitDone u pages => Sys2Proof.Machine.execFieldCheckUnitDone u pages s
  | .surveyCompact => Sys2Proof.Machine.execSurveyCompact s
  | .getVersion tr => Sys2Proof.Machine.execGetVersion tr s
  | .getCapabilities tr => Sys2Proof.Machine.execGetCapabilities tr s
  | .negotiateAlgorithms tr => Sys2Proof.Machine.execNegotiateAlgorithms tr s
  | .getDigests tr => Sys2Proof.Machine.execGetDigests tr s
  | .getCertificate tr slot => Sys2Proof.Machine.execGetCertificate tr slot s
  | .keyExchange tr transcript => Sys2Proof.Machine.execKeyExchange tr transcript s
  | .finish_ tr auth => Sys2Proof.Machine.execFinish tr auth s
  | .challenge tr nonce => Sys2Proof.Machine.execChallenge tr nonce s
  | .getMeasurements tr idx nonce => Sys2Proof.Machine.execGetMeasurements tr idx nonce s
  | .heartbeat tr sid => Sys2Proof.Machine.execHeartbeat tr sid s
  | .keyUpdate tr sid => Sys2Proof.Machine.execKeyUpdate tr sid s
  | .sessionTimeout sid => Sys2Proof.Machine.execSessionTimeout sid s
  | .mgmtDatagram p src u => Sys2Proof.Machine.execMgmtDatagram p src u s
  | .mgmtNetworkProbe p kind target => Sys2Proof.Machine.execMgmtNetworkProbe p kind target s
  | .mctpControl c => Sys2Proof.Machine.execMctpControl c s
  | .mailboxGo h f u => Sys2Proof.Machine.execMailboxGo h f u s
  | .peerMgmtPacket dev u => Sys2Proof.Machine.execPeerMgmtPacket dev u s
  | .hello_ h vmask => Sys2Proof.Machine.execHello h vmask s
  | .get_ h as => Sys2Proof.Machine.execGet h as s
  | .set_ h es => Sys2Proof.Machine.execSet h es s
  | .getblock h a off maxLen => Sys2Proof.Machine.execGetblock h a off maxLen s
  | .setblock h a off data => Sys2Proof.Machine.execSetblock h a off data s
  | .subscribe h r => Sys2Proof.Machine.execSubscribe h r s
  | .action_ h e => Sys2Proof.Machine.execAction h e s
  | .close_ h => Sys2Proof.Machine.execClose h s
  | .sequenceGapTimeout sid => Sys2Proof.Machine.execSequenceGapTimeout sid s
  | .stagingTimeout sid => Sys2Proof.Machine.execStagingTimeout sid s
  | .configCommit => Sys2Proof.Machine.execConfigCommit s
  | .mgmtSettingsApply => Sys2Proof.Machine.execMgmtSettingsApply s
  | .eventDeliver sid => Sys2Proof.Machine.execEventDeliver sid s
  | .surveyRevoke sid seq => Sys2Proof.Machine.execSurveyRevoke sid seq s
  | .epochAdvance sid => Sys2Proof.Machine.execEpochAdvance sid s
  | .portResetAction sid p => Sys2Proof.Machine.execPortResetAction sid p s
  | .portAdmit sid p => Sys2Proof.Machine.execPortAdmit sid p s
  | .bundleKeySwitch sid b => Sys2Proof.Machine.execBundleKeySwitch sid b s
  | .memoryRetire sid addr => Sys2Proof.Machine.execMemoryRetire sid addr s
  | .partitionReset sid p => Sys2Proof.Machine.execPartitionReset sid p s
  | .echoResync sid => Sys2Proof.Machine.execEchoResync sid s
  | .domainSwitch sid d v => Sys2Proof.Machine.execDomainSwitch sid d v s
  | .auxReset sid c => Sys2Proof.Machine.execAuxReset sid c s
  | .coldStart sid => Sys2Proof.Machine.execColdStart sid s
  | .warmStart sid => Sys2Proof.Machine.execWarmStart sid s
  | .computeReset sid => Sys2Proof.Machine.execComputeReset sid s
  | .managementRestart sid => Sys2Proof.Machine.execManagementRestart sid s
  | .lowEnter sid => Sys2Proof.Machine.execLowEnter sid s
  | .lowExit sid => Sys2Proof.Machine.execLowExit sid s
  | .stateRelease sid => Sys2Proof.Machine.execStateRelease sid s
  | .coreReset sid c => Sys2Proof.Machine.execCoreReset sid c s
  | .failCore sid c => Sys2Proof.Machine.execFailCore sid c s
  | .fieldCheck sid v => Sys2Proof.Machine.execFieldCheck sid v s
  | .alertAck sid q => Sys2Proof.Machine.execAlertAck sid q s
  | .enroll sid v => Sys2Proof.Machine.execEnroll sid v s
  | .slotRevoke sid k => Sys2Proof.Machine.execSlotRevoke sid k s
  | .factoryReset sid => Sys2Proof.Machine.execFactoryReset sid s
  | .firmwareActivate sid flags => Sys2Proof.Machine.execFirmwareActivate sid flags s
  | .firmwareVerifyDone sigOk digOk => Sys2Proof.Machine.execFirmwareVerifyDone sigOk digOk s
  | .firmwareConfirm sid => Sys2Proof.Machine.execFirmwareConfirm sid s
  | .firmwareRevert sid => Sys2Proof.Machine.execFirmwareRevert sid s
  | .trialHealth fields answered => Sys2Proof.Machine.execTrialHealth fields answered s
  | .trialTimeout => Sys2Proof.Machine.execTrialTimeout s
  | .countersClear sid => Sys2Proof.Machine.execCountersClear sid s
  | .counterWrap x n => Sys2Proof.Machine.execCounterWrap x n s
  | .smpCtrlWrite req c v => Sys2Proof.Machine.execSmpCtrlWrite req c v s
  | .sampleRecord c => Sys2Proof.Machine.execSampleRecord c s
  | .sharedCntCtlWrite req b v => Sys2Proof.Machine.execSharedCntCtlWrite req b v s
  | .reservedOpcode c w => Sys2Proof.Machine.execReservedOpcode c w s
  | .completionWriteError h f r => Sys2Proof.Machine.execCompletionWriteError h f r s
  | .hostLinkUp h speed width flit => Sys2Proof.Machine.execHostLinkUp h speed width flit s
  | .echoRefChange present => Sys2Proof.Machine.execEchoRefChange present s
  | .i3cEntdaa addr => Sys2Proof.Machine.execI3cEntdaa addr s
  | .mMemoryUncorrectable => Sys2Proof.Machine.execMMemoryUncorrectable s

end Sys2Proof.Machine
end

