-- ==== Sys2Proof/Machine/Tick.lean ====
section
/-!
DEFINITION. One nanosecond of time: what an idle step counts (R345, R375, R381, R382, R386, Table 18.1).
-/

namespace Sys2Proof.Machine

/-- R382: how much of a difference a field's increment removes in this nanosecond: 1 ns in every 2 µs, which is 500 ppm.
DEDUCED, log entry 57. -/
def fieldSlew (now : Nat) (adj : Int) : Int := if now % 2000 = 0 then (if 0 < adj then 1 else if adj < 0 then -1 else 0) else 0

/-- R386: how much of an offset M's counter removes in this nanosecond: 1 ns in every 5 µs, which is 200 ppm.
DEDUCED, log entry 57. -/
def echoSlew (now : Nat) (ofs : Int) : Int := if now % 5000 = 0 then (if 0 < ofs then 1 else if ofs < 0 then -1 else 0) else 0

/-- R375: the CCLK cycles of a field in this nanosecond, whose length is 80 / (48 + STEP) ns, and the fraction left. -/
def cclkOf (k : Field) : Nat × Nat := ((k.frac + 48 + k.step) / 80, (k.frac + 48 + k.step) % 80)

/-- A field whose network is on: its Echo counter and its CCLK count advance. DESIGN CHOICE, log entry 2. -/
def tickField (now : Nat) (k : Field) : Field :=
  let d := fieldSlew now k.adj
  { k with
    echo := echoAdd k.echo (1 + d)
    adj := k.adj - d
    cclk := k.cclk + (cclkOf k).1
    frac := (cclkOf k).2 }

/-- R535, R536, R542: one clock of a core's counters and sampler with the events `evs` that last in it. An event that the clock before
had too starts no episode. -/
def cntClock (rec : Nat → Sample → Bytes) (evs : List (Nat × Nat × Sample)) (k : CoreCnt) : CoreCnt :=
  let evs := evs.filter (fun x => x.2.1 != 0)
  let t := cntEvents k (evs.map (fun x => (x.1, x.2.1)))
  let smp := evs.foldl (fun m x => if m.edge && k.prev.contains x.1 then m else smpEvent m x.1 x.2.1 (rec x.1 x.2.2)) t.smp
  { t with smp := smp, prev := evs.map (·.1) }

/-- The sampling data of the command that engine `eng` executes. -/
def headSample (k : Core) (eng : Nat) : Sample :=
  match engFlights k eng with
  | f :: _ => engSample f false 0 0
  | [] => bareSample

/-- The events of Table 18.1 by which a stalled X counts: its engine has no room, or too few scoreboard entries are free. -/
def stallEvents (k : Core) (x : XCmd) (rs : List SbEntry) : List (Nat × Nat × Sample) :=
  let eng := engOf x.body
  let w := engSample (newFlight 0 (k.ctl.pc.toNat % 2 ^ 21) x) false 0 0
  let full : Bool := decide (engRoom eng ≤ (engFlights k eng).length)
  (if full then
    (if eng = 0 then [(0x27, 1, w)] else if eng = 6 then [(0x75, 1, hereSample)] else if eng = 7 then [(0x76, 1, hereSample)]
     else if eng = 1 then [] else [(0x5B, 1, w)])
   else []) ++
    (if 32 < k.sb.length + rs.length then [(0x46, 1, hereSample)] else [])

/-- Table 18.1: the events that last, with their count in each CCLK and their sampling data, as core `k` stands; `acq` that a LOCK_ACQ
of its waits. DEDUCED, log entry 29. -/
def lasting (k : Core) (acq : Bool) : List (Nat × Nat × Sample) :=
  let p := k.prs
  let fs := engFlights k 0
  let one (b : Bool) : Nat := if b then 1 else 0
  let engs (g : Nat → Bool) : Nat := ((List.range 4).filter g).length
  let dma (g : Nat → Bool) : Sample := match (List.range 4).find? g with
    | some e => headSample k (2 + e)
    | none => bareSample
  let bout (e : Nat) : Nat := (k.eng e).bursts.length
  [(0x00, 1, bareSample), (0x07 + blkCode k, one (blkCode k != 0), hereSample),
   (0x17, one (p.pstate == .active), headSample k 0), (0x18, one (p.pstate == .ramping), headSample k 0),
   (0x19, one p.want, headSample k 0), (0x1A, one (p.pstate == .falling), headSample k 0),
   (0x1B, one (p.pstate == .active && !fs.any (fun f => isStream f && f.begun)), headSample k 0),
   (0x1C, one (fs.any isSwap && fs.any (fun f => isLoad f && f.begun)), headSample k 0),
   (0x1E, one (fs.any (fun f => isDrain f && !f.begun)), headSample k 0),
   (0x2A, one ((engFlights k 1).any (fun f => f.begun)), headSample k 1),
   (0x55, engs (fun e => dmaState k e == 2), dma (fun e => dmaState k e == 2)),
   (0x56, engs (fun e => dmaState k e == 3), dma (fun e => dmaState k e == 3)),
   (0x59, ((List.range 4).map bout).sum, dma (fun e => bout e != 0)),
   (0x5A, engs (fun e => bout e == 8), dma (fun e => bout e == 8)),
   (0x6A, waiterRecords k.que, queSample .none_ false 0 0 0 0 0), (0x73, one acq, queSample .none_ false 0 0 0 0 0)] ++
    (match k.ctl.blk with
     | .x x rs => stallEvents k x rs
     | _ => [])

/-- `n` CCLK pass for a core: its stall counters and the counters of what lasts. DESIGN CHOICE, log entry 2. -/
def tickCore (rec : Nat → Sample → Bytes) (acq : Bool) (n : Nat) (k : Core) : Core :=
  let held : Bool := match k.ctl.blk with
    | .sb => true
    | .x _ rs => sbConflict k rs
    | _ => false
  { k with
    cnt := (List.range n).foldl (fun t _ => cntClock rec (lasting k acq) t) k.cnt
    spd := if held then { k.spd with sbStall := satInc k.spd.sbStall n } else k.spd
    prs := if k.prs.want then { k.prs with rampWait := satInc k.prs.rampWait n } else k.prs }

/-- An event that lasts at a shared block: code, plane mask, class, count. -/
structure Lasting where
  code  : Nat
  plane : Nat
  cls   : Nat
  n     : Nat
  deriving DecidableEq, Repr

/-- R536, R547, R548: one nanosecond of a block's counters with the events that last in it. -/
def sharedClock (ctrs : Nat) (evs : List Lasting) (k : Shared) : Shared :=
  let t := if k.frz then k
    else (List.range ctrs).foldl (fun t j =>
      let e := mget ShSel.reset k.sels j
      let on := evs.filter (fun x => x.code == e.event && (x.plane &&& e.pl) != 0)
      if !e.en then t
      else if e.edge then
        match on with
        | x :: _ => if k.prev.any (fun p => p.1 == e.event && (p.2 &&& e.pl) != 0) then t else shAdd t j x.cls 1
        | [] => t
      else on.foldl (fun t x => shAdd t j x.cls x.n) t) k
  { t with prev := evs.map (fun x => (x.code, x.plane)) }

/-- Table 18.4: the events that last at router `r` of field `n`, `m` NCLK long: NCLK, a header that waits for its output, a flit that
waits for credit. DEDUCED, log entry 29. -/
def routerLasting (s : State) (n r m : Nat) : List Lasting :=
  let ms := bufOf s n r
  let at_ (code : Nat) (p : Plane) (g : MeshFlight → Bool) : List Lasting :=
    match ms.find? (fun f => f.pkt.plane == p && g f) with
    | some f => [⟨code, planeBit p, clsOf s f.pkt, m⟩]
    | none => []
  let dry (f : MeshFlight) : Bool := match f.won with
    | some (o, vc) => creditsOf s n r f.pkt.plane o vc f.left == 0
    | none => false
  [⟨0, 3, 16, m⟩] ++ at_ 7 .a (fun f => f.won.isNone) ++ at_ 7 .b (fun f => f.won.isNone) ++ at_ 0xD .a dry ++ at_ 0xD .b dry

/-- Table 18.4: a port has flits to send and no credit for them. -/
def portLasting (s : State) (p : Nat) : List Lasting :=
  let k := s.port p
  match (List.range 4).find? (fun v => k.st == .admitted && !(k.vc v).txCur.isEmpty && (k.vc v).txCred == 0) with
  | some v => [⟨7, 3, ((k.vc v).txPkt.map (fun x => if x.sdev = s.devId then linkClass 5 x else 16)).getD 16, 1⟩]
  | none => []

/-- Table 18.4: a request waits for rate tokens at a stack. -/
def stackLasting (s : State) (st : Nat) : List Lasting :=
  match (s.stack st).waiting with
  | w :: _ => [⟨5, 3, classOfPart (reqClass s w.req.req), 1⟩]
  | [] => []

/-- R547: one nanosecond of the counters of a shared block; NCLK is 1.8 GHz. -/
def tickShared (s : State) (b : Nat) (k : Shared) : Shared :=
  if b < 2000 then
    if fieldOn s (b / 104) then
      sharedClock 4 (routerLasting s (b / 104) (b % 104) (9 * (s.now + 1) / 5 - 9 * s.now / 5)) k
    else k
  else if b < 3000 then sharedClock 8 (portLasting s (b - 2000)) k
  else sharedClock 8 (stackLasting s (b - 3000)) k

/-- R345: a stack's bucket fills with the tokens of one nanosecond, at GBPS bytes each. -/
def tickStack (k : Stack) : Stack := { k with tokens := min 65536 (k.tokens + k.rate) }

/-- One nanosecond passes with no command. In OFF nothing has power. DESIGN CHOICE, log entry 2. -/
def tick (s : State) : State :=
  if s.dev = .off then { s with now := s.now + 1 }
  else
    let now := s.now + 1
    let d := echoSlew now s.ech.slew
    let due (c : Nat) : Nat := if fieldOn s (fieldOf c) then (cclkOf (s.field (fieldOf c))).1 else 0
    { s with
      now := now
      echoM := echoAdd s.echoM (1 + d)
      ech := { s.ech with slew := s.ech.slew - d }
      fields := ((List.range 12).foldl (fun t n => if fieldOn s n then modField t n (tickField now) else t) s).fields
      cores := s.cores.map (fun x =>
        let sampled (code : Nat) (w : Sample) : Bytes := smpRecord (echoOf s x.1) (causePc s x.1 w.cause) x.1 code 0 w.data
        let acq := s.locks.any (fun l => l.2.waiters.any (fun w => w.dev == s.devId && w.core == x.1))
        (x.1, if due x.1 = 0 then x.2 else tickCore sampled acq (due x.1) x.2))
      shared := s.shared.map (fun x => (x.1, tickShared s x.1 x.2))
      hbms := s.hbms.map (fun x => (x.1, tickStack x.2)) }

end Sys2Proof.Machine
end

