-- ==== Sys2Proof/Safety.lean ====
section
/-!
DEFINITION. The terms in which claims are made: the invariant of memory, what a core needs to run an instruction, and what an
instruction leaves alone.
-/

namespace Sys2Proof.Machine

/-- The memory is in its canonical form. -/
def MemInv (s : State) : Prop := memWf s.mem = true

/-- Core `c` is RUNNING, held by nothing, its PC lies in its scratchpad and its instruction buffer holds the line (R174, R178). -/
def Ready (s : State) (c : Nat) : Prop :=
  canIssue s c = true ∧ (s.core c).ctl.pc.toNat < 2 ^ 21 ∧ bufHit s c (s.core c).ctl.pc.toNat = true

/-- Nothing outside core `c` differs. -/
def OnlyCore (s t : State) (c : Nat) : Prop := { t with cores := s.cores } = s ∧ ∀ k, k ≠ c → t.core k = s.core k

/-- Of core `c`, at most the general registers, the PC, what holds the control unit, and the counters differ. -/
def CtlFrame (s t : State) (c : Nat) : Prop :=
  { t.core c with ctl := (s.core c).ctl, cnt := (s.core c).cnt } = s.core c ∧
    { (t.core c).ctl with regs := (s.core c).ctl.regs, pc := (s.core c).ctl.pc, blk := (s.core c).ctl.blk } = (s.core c).ctl

/-- Register `d` of core `c` holds `v` (g0 reads as 0, R177), and every other register what it held. -/
def RegIs (s t : State) (c : Nat) (d : Reg) (v : W64) : Prop :=
  rg t c d = (if d = 0 then 0 else v) ∧ ∀ r, r ≠ d → rg t c r = rg s c r

/-- The instruction of core `c` is done: the next one stands at `pc`, and nothing holds the control unit. -/
def GoesTo (t : State) (c : Nat) (pc : W64) : Prop := (t.core c).ctl.pc = pc ∧ (t.core c).ctl.blk = .none

/-- An instruction of core `c` that writes register `d` alone is done. -/
def Retires (s t : State) (c : Nat) (d : Reg) (v pc : W64) : Prop :=
  RegIs s t c d v ∧ GoesTo t c pc ∧ OnlyCore s t c ∧ CtlFrame s t c

/-- No engine of core `c` has work, and no core is told of its faults: a fault then changes nothing but the core's record
and state, counters and the event log. -/
def Quiet (s : State) (c : Nat) : Prop :=
  (s.core c).flights = [] ∧ sendOf s (.que c) = none ∧ (s.core c).ctl.fdestV = false ∧ (s.core c).ctl.frec = none

/-- Core `c` has faulted: it is FAULTED, and its record holds the code, the PC, the instruction word, DETAIL and the address
(Table 6.9). -/
def Faults (s t : State) (c code : Nat) (insn : W32) (detail : Nat) (addr : W64) : Prop :=
  (t.core c).ctl.st = .faulted ∧ ∃ r, (t.core c).ctl.frec = some r ∧ r.code = code ∧ r.insn = insn ∧ r.detail = detail ∧
    r.addr = addr ∧ r.pc = (s.core c).ctl.pc.toNat % 2 ^ 21 ∧ r.core = c ∧ r.more = false

/-! ### Tables of instructions of one shape -/

/-- Table 6.4: the functions of two registers. -/
def aluTable : List ((Nat → Reg → Reg → Reg → Instr) × (W64 → W64 → W64)) :=
  [(.add, fun x y => x + y), (.sub, fun x y => x - y), (.and_, fun x y => x &&& y), (.or_, fun x y => x ||| y),
   (.xor_, fun x y => x ^^^ y), (.sll, fun x y => x <<< (y.toNat % 64)), (.srl, fun x y => x >>> (y.toNat % 64)),
   (.sra, fun x y => x.sshiftRight (y.toNat % 64)), (.slt, fun x y => if x.toInt < y.toInt then 1 else 0),
   (.sltu, fun x y => if x.toNat < y.toNat then 1 else 0), (.min, fun x y => if x.toInt < y.toInt then x else y),
   (.max, fun x y => if x.toInt < y.toInt then y else x), (.minu, fun x y => if x.toNat < y.toNat then x else y),
   (.maxu, fun x y => if x.toNat < y.toNat then y else x), (.mul, fun x y => BitVec.ofNat 64 (x.toNat * y.toNat)),
   (.mulh, fun x y => BitVec.ofInt 64 (x.toInt * y.toInt / 2 ^ 64)),
   (.mulhu, fun x y => BitVec.ofNat 64 (x.toNat * y.toNat / 2 ^ 64))]

/-- Table 6.4: the functions of one register, whose b field must be 0, with their fn codes. -/
def unaryTable : List ((Nat → Reg → Reg → Reg → Instr) × Nat × (W64 → Nat)) :=
  [(.clz, 0x018, fun x => 64 - Nat.size x.toNat),
   (.ctz, 0x019, fun x => ((List.range 64).takeWhile (fun i => !x.getLsbD i)).length),
   (.popc, 0x01A, fun x => ((List.range 64).filter (fun i => x.getLsbD i)).length)]

/-- Table 6.3: the immediate instructions. -/
def immTable : List ((Nat → Reg → Reg → BitVec 15 → Instr) × (W64 → BitVec 15 → W64)) :=
  [(.addi, fun x i => x + i.signExtend 64), (.andi, fun x i => x &&& i.setWidth 64), (.ori, fun x i => x ||| i.setWidth 64),
   (.xori, fun x i => x ^^^ i.setWidth 64), (.slti, fun x i => if x.toInt < i.toInt then 1 else 0),
   (.orsh, fun x i => (x <<< 15) ||| i.setWidth 64)]

/-- Table 6.3: the immediate shifts, with their opcodes. -/
def shiftTable : List ((Nat → Reg → Reg → BitVec 15 → Instr) × Nat × (W64 → Nat → W64)) :=
  [(.slli, 0x0C, fun x n => x <<< n), (.srli, 0x0D, fun x n => x >>> n), (.srai, 0x0E, fun x n => x.sshiftRight n)]

/-- Table 6.3: the loads, with their opcodes, sizes and extensions. -/
def loadTable : List ((Nat → Reg → Reg → BitVec 15 → Instr) × Nat × Nat × (Nat → W64)) :=
  [(.lb, 0x18, 1, fun x => (BitVec.ofNat 8 x).signExtend 64), (.lh, 0x19, 2, fun x => (BitVec.ofNat 16 x).signExtend 64),
   (.lw, 0x1A, 4, fun x => (BitVec.ofNat 32 x).signExtend 64), (.ld, 0x1B, 8, fun x => BitVec.ofNat 64 x),
   (.lbu, 0x1C, 1, fun x => BitVec.ofNat 64 x), (.lhu, 0x1D, 2, fun x => BitVec.ofNat 64 x),
   (.lwu, 0x1E, 4, fun x => BitVec.ofNat 64 x)]

/-- Table 6.3: the stores, with their opcodes and sizes. -/
def storeTable : List ((Nat → Reg → Reg → BitVec 15 → Instr) × Nat × Nat) :=
  [(.sb, 0x20, 1), (.sh, 0x21, 2), (.sw, 0x22, 4), (.sd, 0x23, 8)]

/-- Table 6.12: the vector commands with their operations. -/
def vecTable : List ((Nat → Issue → VecDesc → Instr) × VecOp) :=
  [(.vecAdd, .add), (.vecSub, .sub), (.vecMul, .mul), (.vecFma, .fma), (.vecMax, .max), (.vecMin, .min), (.vecSel, .sel),
   (.vecCgt, .cgt), (.vecAbs, .abs), (.vecNeg, .neg), (.vecExp2, .exp2), (.vecLog2, .log2), (.vecRcp, .rcp),
   (.vecRsqrt, .rsqrt), (.vecRsum, .rsum), (.vecRmax, .rmax), (.vecRmin, .rmin), (.vecRamax, .ramax), (.vecCvt, .cvt),
   (.vecQnt, .qnt), (.vecQnte, .qnte), (.vecDqnt, .dqnt), (.vecTrn, .trn), (.vecCopy, .copy)]

/-- Table 7.12: the commands of engine 7 with their operations. -/
def lockTable : List ((Nat → Issue → LockDesc → Instr) × LockOp) :=
  [(.lockAcq, .acq), (.lockTry, .try_), (.lockRel, .rel), (.aadd, .add), (.amin, .min), (.amax, .max), (.aminu, .minu),
   (.amaxu, .maxu), (.aswap, .swap), (.acas, .cas)]

/-- Table 7.12, R249: what an atomic leaves in a word of `w` bits, from the old word, its operand and its comparand. -/
def atomicTable : List (LockOp × ((w : Nat) → BitVec w → BitVec w → BitVec w → BitVec w)) :=
  [(.add, fun _ o x _ => o + x), (.min, fun _ o x _ => if o.toInt ≤ x.toInt then o else x),
   (.max, fun _ o x _ => if o.toInt ≤ x.toInt then x else o), (.minu, fun _ o x _ => if o.toNat ≤ x.toNat then o else x),
   (.maxu, fun _ o x _ => if o.toNat ≤ x.toNat then x else o), (.swap, fun _ _ x _ => x),
   (.cas, fun _ o x k => if o = k then x else o)]

/-- Table 6.3: the branches, with the relations that take them. -/
def branchTable : List ((Nat → Reg → Reg → BitVec 15 → Instr) × (W64 → W64 → Bool)) :=
  [(.beq, fun x y => decide (x = y)), (.bne, fun x y => decide (x ≠ y)), (.blt, fun x y => decide (x.toInt < y.toInt)),
   (.bge, fun x y => decide (y.toInt ≤ x.toInt)), (.bltu, fun x y => decide (x.toNat < y.toNat)),
   (.bgeu, fun x y => decide (y.toNat ≤ x.toNat))]

/-! ### Ranges and commands -/

/-- No word of a range of core `c`'s scratchpad has an error (R151, R152). -/
def Sound (s : State) (c off n : Nat) : Prop := ∀ w ∈ wordsOf off n, spMark s c w = none

/-- A message as it leaves for one member (R225, R226). -/
def oneSend (bs : Bytes) (endm : Bool) (m : MsgDest) : Send :=
  { bytes := bs, endm := endm, mc := false, chan := 0, sys := false, poison := [], halting := false, orig := none, crossed := 0,
    members := [⟨m, .sent⟩] }

/-- Where a unicast destination word leads: another device, or a queue of this one (R226). -/
def uniDest (s : State) (gqid dev : Nat) (rem : Bool) : MsgDest :=
  if rem ∧ dev ≠ s.devId then .remote dev gqid else .local_ (gqid / 32) (gqid % 32)

/-- The control unit has handed a command to an engine (R188 step 5, R189): the command has the next number, its tag counts it
unless NOTAG, no register changes, and the control unit goes on, or waits for it with SYNC. -/
def Issued (s t : State) (c : Nat) (x : XCmd) : Prop :=
  (t.core c).nextId = (s.core c).nextId + 1 ∧
    tagCount (t.core c).ctl x.iss.tag.val = tagCount (s.core c).ctl x.iss.tag.val + (if x.iss.notag then 0 else 1) ∧
    (∀ r, rg t c r = rg s c r) ∧
    (if x.iss.sync then (t.core c).ctl.pc = (s.core c).ctl.pc ∧ (t.core c).ctl.blk = .sync (s.core c).nextId
      else GoesTo t c ((s.core c).ctl.pc + 4))

/-- A command has been issued and stands queued: it is the youngest of its core and has its scoreboard entries (R147). -/
def Queued (s t : State) (c : Nat) (x : XCmd) : Prop :=
  Issued s t c x ∧ (t.core c).flights = (s.core c).flights ++ [newFlight (s.core c).nextId ((s.core c).ctl.pc.toNat % 2 ^ 21) x] ∧
    (t.core c).sb = (s.core c).sb ++ engRanges (s.core c) c (s.core c).nextId x.body

/-- A command has been issued to an idle engine, which has begun it: it is the one command of its engine. -/
def Begun (s t : State) (c : Nat) (x : XCmd) : Prop :=
  Issued s t c x ∧ engFlights (t.core c) (engOf x.body) = [{ newFlight (s.core c).nextId ((s.core c).ctl.pc.toNat % 2 ^ 21) x with begun := true }]

/-- A command has left its engine (R190): no command of its number is issued and not complete, no scoreboard entry is its
own, and its tag counts one command less, unless it was issued with NOTAG. -/
def Leaves (s t : State) (c : Nat) (f : Flight) : Prop :=
  (∀ g ∈ (t.core c).flights, g.id ≠ f.id) ∧ (∀ e ∈ (t.core c).sb, e.id ≠ f.id) ∧
    tagCount (t.core c).ctl f.iss.tag.val = tagCount (s.core c).ctl f.iss.tag.val - (if f.iss.notag then 0 else 1)

/-- The row of a Press command that the control unit issues. -/
def pressInstr (c : Nat) (i : Issue) : PressCmd → Instr
  | .pconf d => .pconf c i d
  | .pload d => .pload c i d
  | .pswap => .pswap c i
  | .pstream d => .pstream c i d
  | .pdrain d => .pdrain c i d

/-- A command that an engine refuses faults its core with MODE, DESCRIPTOR or another code of R188 step 3, the field that is
wrong in DETAIL and the descriptor's offset in ADDR; one that must wait holds the control unit at its X. -/
def RefusedOrHeld (s : State) (c : Nat) (i : Instr) (x : XCmd) : Prop :=
  (∀ code detail, engRefuse s c x.body = some (code, detail) → Quiet s c → ∃ t, exec i s = .next t ∧
    Faults s t c code (fetchWord s c) detail (BitVec.ofNat 64 x.iss.doff) ∧ t.mem = s.mem) ∧
  (engRefuse s c x.body = none → engStalls s c x = true →
    ∃ t, exec i s = .next t ∧ (t.core c).ctl.blk = .x x (engRanges (s.core c) c (s.core c).nextId x.body) ∧
      (t.core c).ctl.pc = (s.core c).ctl.pc ∧ (t.core c).flights = (s.core c).flights ∧ (∀ r, rg t c r = rg s c r) ∧ t.mem = s.mem)

/-- No queued Press command can begin as things stand (Table 4.3). -/
def PressSettled (s : State) (c : Nat) : Prop := nextBegin (s.core c).prs [] (engFlights (s.core c) 0) = none

/-- The row of a DMA descriptor that the control unit issues. -/
def dmaInstr (c : Nat) (e : Fin 4) (i : Issue) (d : DmaDesc) : DmaOp → Instr
  | .copy => .dmaCopy c e i d
  | .fill => .dmaFill c e i d
  | .streamIn => .streamIn c e i d
  | .streamOut => .streamOut c e i d

/-- The row of a queue-unit command that the control unit issues. -/
def queInstr (c : Nat) (i : Issue) : QueCmd → Instr
  | .send d => .send c i d
  | .evpost d => .evpost c i d
  | .mcset d => .mcset c i d
  | .mcget d => .mcget c i d

/-- DMA engine `e` of core `c` has nothing under way: no descriptor, and the registers of an engine between two of them. -/
def DmaIdle (s : State) (c e : Nat) : Prop :=
  engFlights (s.core c) (2 + e) = [] ∧ dmaClear ((s.core c).eng e) = (s.core c).eng e

/-- DMA engine `e` of core `c` is busy with a descriptor that has begun what it begins of itself (R169, R170). -/
def DmaBusy (s : State) (c e : Nat) : Prop :=
  ∃ f op d, curDma (s.core c) e = some (f, op, d) ∧
    (op = .streamIn → ((s.core c).eng e).bound.isSome = true ∨ ((s.core c).eng e).endStatus.isSome = true) ∧
    (op = .streamOut → f.begun = true ∨ ((s.core c).eng e).endStatus.isSome = true)

/-- No stream descriptor waits at DMA engine `e` behind the one under way. -/
def NoStreamBehind (s : State) (c e : Nat) : Prop :=
  ∀ h ∈ (engFlights (s.core c) (2 + e)).tail, ∀ k d, h.body ≠ .dma k .streamIn d ∧ h.body ≠ .dma k .streamOut d

/-- A command that its engine ends when it is issued (R239, R244): it is not left at the engine, its tag counts as before,
and the control unit goes on, with SYNC too. -/
def EndsAtOnce (s t : State) (c : Nat) (x : XCmd) : Prop :=
  (∀ g ∈ (t.core c).flights, g.id ≠ (s.core c).nextId) ∧
    tagCount (t.core c).ctl x.iss.tag.val = tagCount (s.core c).ctl x.iss.tag.val ∧ (∀ r, rg t c r = rg s c r) ∧
    GoesTo t c ((s.core c).ctl.pc + 4)

/-- Every byte of memory outside `n` bytes at offset `off` of core `c`'s scratchpad reads as before. -/
def SpFrame (s t : State) (c off n : Nat) : Prop :=
  ∀ x, (∀ i < n, x ≠ spKey s c (off + i)) → memGet t.mem x = memGet s.mem x

/-- What the X instruction's step 3 asks of a command: its engine does not refuse it, and step 4 that it need not wait. -/
def Issuable (s : State) (c : Nat) (x : XCmd) : Prop := engRefuse s c x.body = none ∧ engStalls s c x = false

/-! ### Records -/

/-- The Survey gets an entry (R43, R45): one more, of this TYPE and LOCATION, unless it has it; nothing is asked where a management
restart is under way or the half is full. -/
def SurveyGets (s t : State) (ty : Nat) (loc : Bytes) : Prop :=
  (isLive s ty (padTo 12 loc) = true → t.survey = s.survey) ∧
  (isLive s ty (padTo 12 loc) = false → s.wake.mgmt = false → s.survey.room = true →
    ∃ e, t.survey.entries = s.survey.entries ++ [e] ∧ e.type_ = ty ∧ e.loc = padTo 12 loc ∧ e.revoke = false)

/-- The same where the command may find more defects on the way, as a reset group's bursts do (R278, R338), or compact a full half
(R49): every live entry stays live, and the defect of this TYPE and LOCATION is live. -/
def SurveyAdds (s t : State) (ty : Nat) (loc : Bytes) : Prop :=
  (∀ e ∈ liveSurvey s, e ∈ liveSurvey t) ∧ (s.wake.mgmt = false → isLive t ty (padTo 12 loc) = true)

/-- R155, Table 2.2: one more repaired row of bank `b` spends no bank of core `c`'s tile, of which at most 2 have failed. -/
def BanksHold (s : State) (c b : Nat) : Prop :=
  (∀ x < 64, bankSpent s (tileX s c) (tileY c) x = false) ∧ (sparedBanks s (tileX s c) (tileY c)).length ≤ 2 ∧
    (((tileEntries s 3 (tileX s c) (tileY c)).filter (fun e => byteNat e.loc 2 == b && byteNat e.loc 3 == 0)).map
      (·.loc)).dedup.length < 8

/-- The event log gets one record more, of this code and class (R467, R472), outside a management restart. -/
def LogGets (s t : State) (code cls : Nat) : Prop :=
  s.wake.mgmt = false → ∃ e, t.logBuf = s.logBuf ++ [e] ∧ e.code = code ∧ e.cls = cls

/-! ### Links and what leaves the device -/

/-- Memory, the cores and every port but `p` are as they were. -/
def PortOnly (s t : State) (p : Nat) : Prop := t.mem = s.mem ∧ t.cores = s.cores ∧ ∀ q, q ≠ p → t.port q = s.port q

/-- A frame passes the checks of any frame at port `p` (R291, R295, R312, R317), and acknowledges what was sent (R294). -/
def FrameOk (s : State) (p : Nat) (f : Frame) : Prop :=
  nativeUp s p = true ∧ f.crcOk = true ∧ f.type_.toNat ≤ 5 ∧ f.nflit ≤ 16 ∧ f.malformed = false ∧
    f.enc = ((s.port p).enc && f.type_ != 0) ∧
    (f.type_ = 5 → (s.port p).ver = 2) ∧ f.tagOk = true ∧ ((s.port p).txSeq - 1 - f.ack).toNat < 32768

/-- What a frame leaves unacknowledged at port `p` (R294). -/
def stillSent (s : State) (p : Nat) (f : Frame) : List SentFrame :=
  (s.port p).unacked.drop ((s.port p).unacked.length - ((s.port p).txSeq - 1 - f.ack).toNat)

/-- The answer that a packet gets which a device ends: a request its status, another kind none (R296). -/
def refusal (k : LinkPkt) (status : Nat) : List Output :=
  if k.opc.toNat ∈ [1, 2, 3, 4, 6, 7, 8] then [.answer k.sdev k.rtag status []] else []

/-! ### Stacked memory and host rings -/

/-- No 64 B word that a request touches has an error (R335). -/
def HbmSound (s : State) (a n : Nat) : Prop := ∀ w ∈ words64 a n, mfind s.marks (hbmKey (hbmLoc s w).1 (hbmLoc s w).2) = none

/-- The bytes at HBM address `a` are `bs`, and every other byte of memory is as it was. -/
def HbmWritten (s t : State) (a : Nat) (bs : Bytes) : Prop :=
  (∀ i < bs.length, hbmByte t (a + i) = bs.getD i 0) ∧
    ∀ x, (∀ i < bs.length, x ≠ hbmKey (hbmLoc s (a + i)).1 (hbmLoc s (a + i)).2) → memGet t.mem x = memGet s.mem x

/-- Ring `r` of function `f` of host die `h`. -/
def ringOf (s : State) (h f r : Nat) : Ring := ((s.host h).fn f).ring r

/-- One completion is posted to a ring (R364, R365): its record is written to the host at the ring's tail, which moves on, and the
ring's vector is sent where it is due and not masked. -/
def Posts (s t : State) (h f r seq lid status ndone fcore fcode : Nat) : Prop :=
  ∀ g, g = ringOf s h f r →
    t.out = s.out ++ [.hostWrite h f (g.cqhi * 2 ^ 32 + g.cqlo * 2 ^ 12 + g.cqtail * 32)
      (natBytes 1 status ++ natBytes 1 ((if g.phase then 1 else 0) + 2 * r) ++ natBytes 2 seq ++ natBytes 4 lid ++
        natBytes 2 ndone ++ natBytes 2 fcore ++ natBytes 1 fcode ++ natBytes 3 0 ++ natBytes 8 (edgeEcho s (24 + h)).toNat ++
        natBytes 8 0)] ++
      (if (g.coalTime = 0 ∨ g.coalCount ≤ g.unsig + 1) ∧ ((s.host h).fn f).masked r = false then [.msix h f r] else []) ∧
    (ringOf t h f r).cqtail = (g.cqtail + 1) % 2 ^ g.log2sz ∧ (ringOf t h f r).used = g.used + 1

/-! ### Registers -/

/-- Requester `req` may reach the block of core `c` (R53, R573): the core is present, and the requester is Carafe, or a core of
the same partition while the core is not under reset. -/
def MayReach (s : State) (req : Requester) (c : Nat) : Prop :=
  present s c = true ∧ (req = .carafe ∨ ((s.core c).crst = false ∧ ∃ k p, req = .core k ∧ partOf s k = some p ∧
    partOf s c = some p))

/-- Table 2.7: the global address of offset `off` of the block of core `c`. -/
def coreCsr (c off : Nat) : CsrAddr := .global (0x020000000000 + c * 2 ^ 16 + off)

/-! ### Management -/

/-- A command is the row of an SPDM message on a transport. -/
def SpdmRow (tr : Transport) (i : Instr) : SpdmMsg → Prop
  | .getVersion => i = .getVersion tr
  | .getCapabilities => i = .getCapabilities tr
  | .negotiate => i = .negotiateAlgorithms tr
  | .getDigests => i = .getDigests tr
  | .getCertificate k => i = .getCertificate tr k
  | .keyExchange x => i = .keyExchange tr x
  | .finish a => i = .finish_ tr a
  | .challenge n => i = .challenge tr n
  | .getMeasurements k n => i = .getMeasurements tr k n
  | .heartbeat k => i = .heartbeat tr k
  | .keyUpdate k => i = .keyUpdate tr k

/-- A command is the row of a Sasil request. -/
def SasilRow (h : SasilHdr) (i : Instr) : SasilBody → Prop
  | .hello v => i = .hello_ h v
  | .get as => i = .get_ h as
  | .set es => i = .set_ h es
  | .getblock a o n => i = .getblock h a o n
  | .setblock a o d => i = .setblock h a o d
  | .subscribe r => i = .subscribe h r
  | .action e => i = .action_ h e
  | .close => i = .close_ h

/-- What a mailbox shows once a unit has been placed in it (R487). -/
def InMailbox (t : State) (h f : Nat) (unit : Bytes) : Prop :=
  ((t.host h).fn f).mbx.rsp = unit ∧ ((t.host h).fn f).mbx.done = true ∧ ((t.host h).fn f).mbx.busy = false

/-- An SPDM response is the one thing that leaves, to a peer as one MGMT packet, or stands in the mailbox that asked (R487 to R489). -/
def Answers (s t : State) (tr : Transport) (r : SpdmRsp) (body : Bytes) : Prop :=
  (isMbx tr = false → (∀ d, tr ≠ .peer d) → t.out = s.out ++ [.spdm tr r body]) ∧
  (∀ d, tr = .peer d → t.out = (sendPeer s d (natBytes 4 1 ++ Config.spdmWire (spdmCode r) body)).out) ∧
  ∀ h f, tr = .mbx h f → t.out = s.out ∧ InMailbox t h f (natBytes 4 1 ++ Config.spdmWire (spdmCode r) body)

/-- A transport unit has left for a device as the data of a MGMT packet of M (R488). -/
def InMgmtPacket (t : State) (dev : Nat) (unit : Bytes) : Prop :=
  ∃ k, .toDev k unit.length ∈ t.out ∧ k.opc = 9 ∧ k.ddev = dev ∧ k.score = 0x7FF ∧ k.data = unit

/-- The reply to a request has left, to a peer in a MGMT packet, or stands in the mailbox that asked (R487, R488, R494, R503). -/
def Replied (t : State) (h : SasilHdr) (type_ sid status : Nat) (body : Bytes) : Prop :=
  ∀ m, m = replyMsg h type_ sid status body →
    (isMbx h.tr = false → (∀ d, h.tr ≠ .peer d) → .mgmt h.tr m ∈ t.out) ∧
    (∀ d, h.tr = .peer d → InMgmtPacket t d (natBytes 4 2 ++ Config.seal m.sid (msgBytes m))) ∧
    ∀ d f, h.tr = .mbx d f →
      InMailbox t d f (if h.secure then natBytes 4 2 ++ Config.seal m.sid (msgBytes m) else natBytes 4 3 ++ msgBytes m)

/-- A path brings requests, and Sasil serves them on it (R484, R485, R487). -/
def PathOpen (s : State) (tr : Transport) : Prop :=
  servedOn s tr = true ∧ s.fw.recovery = false ∧ (∀ p, tr = .eth p → portUp s p = true) ∧
    ∀ d f, tr = .mbx d f → mbxAlive s d f = true ∧ mbxEnabled s d f = true

/-- A well-formed request of the session that its header names, on that session's path. -/
def Named (s : State) (h : SasilHdr) (e : Session) : Prop :=
  PathOpen s h.tr ∧ mfind s.sessions h.sid = some e ∧ e.tr = h.tr ∧ e.secure = h.secure ∧ h.malformed = none ∧
    (h.secure = false → isMbx h.tr = true)

/-- The request is the next of its session, which holds no other (R497, R498). -/
def InTurn (s : State) (h : SasilHdr) (e : Session) : Prop :=
  Named s h e ∧ e.ver = some h.ver ∧ h.seq = e.next ∧ e.held = [] ∧ ∀ m ∈ e.replies, m.seq ≠ h.seq

/-- Session `sid` has gone on past a request: its next SEQ is due (R498). -/
def Advanced (t : State) (h : SasilHdr) (e : Session) : Prop :=
  ∃ u, mfind t.sessions h.sid = some u ∧ u.next = h.seq + 1 ∧ u.tr = e.tr ∧ u.cls = e.cls ∧ u.ver = e.ver ∧ u.held = []

/-- Session `sid` may perform action `a` with value `v` now (R491, R495, R501, R504). -/
def MayAct (s : State) (sid : Nat) (a : ObjAddr) (v : ObjVal) : Prop :=
  ∃ e d, mfind s.sessions sid = some e ∧ objAt a = some d ∧ servedOn s e.tr = true ∧
    (s.fw.recovery = true → recoveryServes (.action ⟨a, 0, v⟩) = true) ∧ actCheckAll s e ⟨a, d.ty.code, v⟩ = 0

/-- Session `sid` may set object `a` to `v` now (R491, R495, R500). -/
def MaySet (s : State) (sid : Nat) (a : ObjAddr) (v : ObjVal) : Prop :=
  ∃ e d, mfind s.sessions sid = some e ∧ objAt a = some d ∧ servedOn s e.tr = true ∧ s.fw.recovery = false ∧
    setCheck s e ⟨a, d.ty.code, v⟩ false ≤ 1

end Sys2Proof.Machine
end

