-- ==== Sys2Proof/Certificates/Slice0/Obligations.lean ====
section
/-!
DEFINITION. The statements for the provers, family by family in the order of the opcode table.
-/

open Sys2Proof Sys2Proof.Machine

/-- R181, R182, R184, Tables 6.3 and 6.4: wherever the core can issue it, every ALU function of two registers writes
its result to g[d] and goes on; so do CLZ, CTZ and POPC, which count leading zeros, trailing zeros and ones and fault
with ILLEGAL where their b field is not 0, and the immediate instructions, whose shifts by 64 or more are ILLEGAL. Log
entries 24 and 25 name the model's choices in it. -/
def Obligations.ScalarFunctionsWriteTheirResult : Prop :=
  (∀ p ∈ aluTable, ∀ (s : State) (c : Nat) (d a b : Reg), Ready s c →
    ∃ t, exec (p.1 c d a b) s = .next t ∧ Retires s t c d (p.2 (rg s c a) (rg s c b)) ((s.core c).ctl.pc + 4)) ∧
  (∀ p ∈ unaryTable, ∀ (s : State) (c : Nat) (d a b : Reg), Ready s c →
    (b = 0 → ∃ t, exec (p.1 c d a b) s = .next t ∧
      Retires s t c d (BitVec.ofNat 64 (p.2.2 (rg s c a))) ((s.core c).ctl.pc + 4)) ∧
    (b ≠ 0 → Quiet s c → ∃ t, exec (p.1 c d a b) s = .next t ∧
      Faults s t c 1 (encA 1 d.val a.val b.val p.2.1) 0 0)) ∧
  (∀ p ∈ immTable, ∀ (s : State) (c : Nat) (d a : Reg) (imm : BitVec 15), Ready s c →
    ∃ t, exec (p.1 c d a imm) s = .next t ∧ Retires s t c d (p.2 (rg s c a) imm) ((s.core c).ctl.pc + 4)) ∧
  (∀ p ∈ shiftTable, ∀ (s : State) (c : Nat) (d a : Reg) (imm : BitVec 15), Ready s c →
    (imm.toNat < 64 → ∃ t, exec (p.1 c d a imm) s = .next t ∧
      Retires s t c d (p.2.2 (rg s c a) imm.toNat) ((s.core c).ctl.pc + 4)) ∧
    (64 ≤ imm.toNat → Quiet s c → ∃ t, exec (p.1 c d a imm) s = .next t ∧
      Faults s t c 1 (encI p.2.1 d.val a.val imm.toNat) 0 0))

/-- R185: a load of the own scratchpad whose offset is in range, aligned and not being written reads the bytes there,
little end first; memory stands. One out of range faults with ADDRESS, a misaligned one with MISALIGNED. Log entries 5
and 25 name the model's choices in it. -/
def Obligations.LoadsReadTheScratchpad : Prop :=
  ∀ p ∈ loadTable, ∀ (s : State) (c : Nat) (d a : Reg) (imm : BitVec 15) (off : W64), Ready s c →
    off = rg s c a + imm.signExtend 64 →
    (off.toNat < 2 ^ 21 → off.toNat % p.2.2.1 = 0 → sbReadStall (s.core c) off.toNat p.2.2.1 = false →
      spMark s c off.toNat = none →
      ∃ t, exec (p.1 c d a imm) s = .next t ∧
        Retires s t c d (p.2.2.2 (leNat (spBytes s c off.toNat p.2.2.1))) ((s.core c).ctl.pc + 4)) ∧
    (2 ^ 21 ≤ off.toNat → Quiet s c → ∃ t, exec (p.1 c d a imm) s = .next t ∧
      Faults s t c 3 (encI p.2.1 d.val a.val imm.toNat) 0 off) ∧
    (off.toNat < 2 ^ 21 → off.toNat % p.2.2.1 ≠ 0 → Quiet s c → ∃ t, exec (p.1 c d a imm) s = .next t ∧
      Faults s t c 2 (encI p.2.1 d.val a.val imm.toNat) p.2.2.1 off)

/-- R185: a store writes the low bytes of its register at its offset; every other byte of memory stands, and no
register changes. Log entry 5 names the model's choices in it. -/
def Obligations.StoresWriteTheScratchpad : Prop :=
  ∀ p ∈ storeTable, ∀ (s : State) (c : Nat) (b a : Reg) (imm : BitVec 15) (off : W64), Ready s c → MemInv s →
    off = rg s c a + imm.signExtend 64 →
    (off.toNat < 2 ^ 21 → off.toNat % p.2.2 = 0 → sbWriteStall (s.core c) off.toNat p.2.2 = false →
      spMark s c off.toNat = none →
      ∃ t, exec (p.1 c b a imm) s = .next t ∧
        spBytes t c off.toNat p.2.2 = natBytes p.2.2 (rg s c b).toNat ∧
        (∀ x, (∀ i < p.2.2, x ≠ spKey s c (off.toNat + i)) → memGet t.mem x = memGet s.mem x) ∧
        (∀ r, rg t c r = rg s c r) ∧ GoesTo t c ((s.core c).ctl.pc + 4) ∧ CtlFrame s t c) ∧
    (2 ^ 21 ≤ off.toNat → Quiet s c → ∃ t, exec (p.1 c b a imm) s = .next t ∧
      Faults s t c 3 (encI p.2.1 b.val a.val imm.toNat) 0 off ∧ t.mem = s.mem) ∧
    (off.toNat < 2 ^ 21 → off.toNat % p.2.2 ≠ 0 → Quiet s c → ∃ t, exec (p.1 c b a imm) s = .next t ∧
      Faults s t c 2 (encI p.2.1 b.val a.val imm.toNat) p.2.2 off ∧ t.mem = s.mem)

/-- R182, Table 6.3: a branch goes to PC + 4 × sext(off) where its relation holds and to the next instruction where it
does not; JAL and JALR write PC + 4 to g[d] and jump; a JALR to an offset that is no multiple of 4 faults with
MISALIGNED. Log entries 24 and 25 name the model's choices in it. -/
def Obligations.BranchesAndJumpsSetThePc : Prop :=
  (∀ p ∈ branchTable, ∀ (s : State) (c : Nat) (a b : Reg) (off : BitVec 15), Ready s c →
    ∃ t, exec (p.1 c a b off) s = .next t ∧
      Retires s t c 0 0 (if p.2 (rg s c a) (rg s c b) then (s.core c).ctl.pc + 4 * off.signExtend 64
        else (s.core c).ctl.pc + 4)) ∧
  (∀ (s : State) (c : Nat) (d : Reg) (off : BitVec 20), Ready s c →
    ∃ t, exec (.jal c d off) s = .next t ∧
      Retires s t c d ((s.core c).ctl.pc + 4) ((s.core c).ctl.pc + 4 * off.signExtend 64)) ∧
  (∀ (s : State) (c : Nat) (d a : Reg) (imm : BitVec 15) (x : W64), Ready s c → x = rg s c a + imm.signExtend 64 →
    (x.toNat % 4 = 0 → ∃ t, exec (.jalr c d a imm) s = .next t ∧ Retires s t c d ((s.core c).ctl.pc + 4) x) ∧
    (x.toNat % 4 ≠ 0 → Quiet s c → ∃ t, exec (.jalr c d a imm) s = .next t ∧
      Faults s t c 2 (encI 0x39 d.val a.val imm.toNat) 4 x))

/-- Table 6.5, R176, R190, R191, R193: NOP does nothing; RDTIME reads the Echo time of the core's field (R384), RDCYC
its cycles since reset, RDID CORE_ID, TMASK the tags whose count is not 0; IFLUSH empties the instruction buffer
(R179). TSTAT reads and clears a tag's ERR bit; TWAIT and WAITALL hold the control unit until the counts they wait for
are 0; END makes the core ENDING and END_COMPLETE, with no command outstanding, IDLE; BRK faults with BREAK. Log
entries 10 and 25 name the model's choices in it. -/
def Obligations.SystemFunctionsComplete : Prop :=
  (∀ (s : State) (c : Nat) (d : Reg), Ready s c →
    (∃ t, exec (.nop c 0 0 0) s = .next t ∧ Retires s t c 0 0 ((s.core c).ctl.pc + 4)) ∧
    (∃ t, exec (.rdtime c d 0 0) s = .next t ∧ Retires s t c d (s.field (c / 96)).echo ((s.core c).ctl.pc + 4)) ∧
    (∃ t, exec (.rdcyc c d 0 0) s = .next t ∧
      Retires s t c d (BitVec.ofNat 64 ((s.field (c / 96)).cclk - (s.core c).ctl.cyc0)) ((s.core c).ctl.pc + 4)) ∧
    (∃ t, exec (.rdid c d 0 0) s = .next t ∧ Retires s t c d ((coreId s c).setWidth 64) ((s.core c).ctl.pc + 4)) ∧
    (∃ t v, exec (.tmask c d 0 0) s = .next t ∧ Retires s t c d v ((s.core c).ctl.pc + 4) ∧
      ∀ i < 64, v.getLsbD i = (decide (i < 32) && decide (tagCount (s.core c).ctl i ≠ 0))) ∧
    (∃ t, exec (.iflush c 0 0 0) s = .next t ∧ (t.core c).ctl.ibuf = [] ∧ (∀ r, rg t c r = rg s c r) ∧
      GoesTo t c ((s.core c).ctl.pc + 4) ∧ OnlyCore s t c)) ∧
  (∀ (s : State) (c : Nat) (d : Reg) (i : Fin 32), Ready s c →
    (∃ t, exec (.tstat c d 0 i) s = .next t ∧
      RegIs s t c d (BitVec.ofNat 64 (tagCount (s.core c).ctl i.val + (if (s.core c).ctl.tagErr.getLsbD i.val then 256 else 0))) ∧
      (t.core c).ctl.tagErr.getLsbD i.val = false ∧
      (∀ j < 32, j ≠ i.val → (t.core c).ctl.tagErr.getLsbD j = (s.core c).ctl.tagErr.getLsbD j) ∧
      (t.core c).ctl.tagCnt = (s.core c).ctl.tagCnt ∧ GoesTo t c ((s.core c).ctl.pc + 4) ∧ OnlyCore s t c) ∧
    (∃ t, exec (.twait c 0 0 i) s = .next t ∧ OnlyCore s t c ∧ CtlFrame s t c ∧ (∀ r, rg t c r = rg s c r) ∧
      (tagCount (s.core c).ctl i.val = 0 → GoesTo t c ((s.core c).ctl.pc + 4)) ∧
      (tagCount (s.core c).ctl i.val ≠ 0 → (t.core c).ctl.pc = (s.core c).ctl.pc ∧ (t.core c).ctl.blk = .twait i.val)) ∧
    (∃ t, exec (.waitall c 0 0 0) s = .next t ∧ OnlyCore s t c ∧ CtlFrame s t c ∧ (∀ r, rg t c r = rg s c r) ∧
      ((∀ j < 32, tagCount (s.core c).ctl j = 0) → GoesTo t c ((s.core c).ctl.pc + 4)) ∧
      ((∃ j < 32, tagCount (s.core c).ctl j ≠ 0) →
        (t.core c).ctl.pc = (s.core c).ctl.pc ∧ (t.core c).ctl.blk = .waitAll)) ∧
    (∃ t, exec (.end_ c 0 0 0) s = .next t ∧ (t.core c).ctl.st = .ending ∧ (∀ r, rg t c r = rg s c r) ∧ OnlyCore s t c) ∧
    (Quiet s c → ∃ t, exec (.brk c 0 0 0) s = .next t ∧ Faults s t c 0x0E (encA 2 0 0 0 2) 0 0 ∧ t.mem = s.mem) ∧
    (∀ u : State, (u.core c).ctl.st = .ending → (u.core c).flights = [] →
      ∃ t, exec (.endComplete c) u = .next t ∧ (t.core c).ctl.st = .idle ∧ (∀ r, rg t c r = rg u c r) ∧
        (t.core c).ctl.launchOn = none ∧ t.mem = u.mem ∧ ∀ k, k ≠ c → t.core k = u.core k))
/-- R225, R226, R228: QSEND reads its message and sends it, and holds the control unit until its outcome; a bad buffer
or destination word faults with QUEUE (Table 7.3). Log entries 22 and 31 name the model's choices in it. -/
def Obligations.QsendSends : Prop :=
  ∀ (s : State) (c : Nat) (d a b : Reg) (size : BitVec 4) (n : Nat), Ready s c → n = (size.toNat + 1) * 16 →
    (∀ gqid dev rem, bufBad (rg s c b) = false → decodeDest (rg s c a) = some (.uni gqid dev rem) →
      sbReadStall (s.core c) (rg s c b).toNat n = false → Sound s c (rg s c b).toNat n → sendOf s (.ctl c) = none →
      ∃ t, exec (.qsend c d a b size) s = .next t ∧
        sendOf t (.ctl c) = some (oneSend (spBytes s c (rg s c b).toNat n) false (uniDest s gqid dev rem)) ∧
        (t.core c).ctl.blk = .qsend d none ∧ (t.core c).ctl.pc = (s.core c).ctl.pc ∧ (∀ r, rg t c r = rg s c r) ∧
        t.mem = s.mem ∧ ∀ k, k ≠ c → t.core k = s.core k) ∧
    (bufBad (rg s c b) = true → Quiet s c → ∃ t, exec (.qsend c d a b size) s = .next t ∧
      Faults s t c 0x0D (encA 3 d.val a.val b.val (size.toNat * 64)) 2 (rg s c b) ∧ t.mem = s.mem) ∧
    (bufBad (rg s c b) = false → decodeDest (rg s c a) = none → Quiet s c →
      ∃ t, exec (.qsend c d a b size) s = .next t ∧
        Faults s t c 0x0D (encA 3 d.val a.val b.val (size.toNat * 64)) 1 (rg s c a) ∧ t.mem = s.mem)

/-- R227: QRECV and QTRY take the oldest message of a queue: its bytes come to g[b], its receive word to g[d], and the
queue keeps the rest, the bytes of the message under the store rule (R183); with none there, QRECV holds the control
unit and QTRY writes 0. Log entry 22 names the model's choices in it. -/
def Obligations.QrecvTakesTheOldest : Prop :=
  ∀ (s : State) (c : Nat) (d a b : Reg) (q dst : Nat), Ready s c → MemInv s → q = (rg s c a).toNat % 32 → q ≠ 31 →
    dst = (rg s c b).toNat → bufBad (rg s c b) = false → ((s.core c).que.q q).en = true →
    boundBy (s.core c) q = none →
    (∀ m ms, ((s.core c).que.q q).msgs = m :: ms → m.len ≤ 16 → sbWriteStall (s.core c) dst (m.len * 16) = false →
      Sound s c (((s.core c).que.q q).slotOff m.slot) (m.len * 16) →
      (∃ t, exec (.qrecv c d a b 0) s = .next t ∧ RegIs s t c d (recvWord m) ∧ GoesTo t c ((s.core c).ctl.pc + 4) ∧
        ((t.core c).que.q q).msgs = ms ∧
        (∀ x, (∀ i < m.len * 16, x ≠ spKey s c (dst + i)) → memGet t.mem x = memGet s.mem x) ∧
        ∀ i < m.len * 16, spByte t c (dst + i) = spByte s c (((s.core c).que.q q).slotOff m.slot + i)) ∧
      (∃ t, exec (.qtry c d a b 0) s = .next t ∧ RegIs s t c d (recvWord m) ∧ GoesTo t c ((s.core c).ctl.pc + 4) ∧
        ((t.core c).que.q q).msgs = ms ∧
        (∀ x, (∀ i < m.len * 16, x ≠ spKey s c (dst + i)) → memGet t.mem x = memGet s.mem x) ∧
        ∀ i < m.len * 16, spByte t c (dst + i) = spByte s c (((s.core c).que.q q).slotOff m.slot + i))) ∧
    (((s.core c).que.q q).msgs = [] →
      (∃ t, exec (.qrecv c d a b 0) s = .next t ∧ (t.core c).ctl.blk = .qrecv d q dst ∧
        (t.core c).ctl.pc = (s.core c).ctl.pc ∧ (∀ r, rg t c r = rg s c r) ∧ OnlyCore s t c) ∧
      (∃ t, exec (.qtry c d a b 0) s = .next t ∧ Retires s t c d 0 ((s.core c).ctl.pc + 4)))

/-- R232: EVWAIT goes on at once with the flags under its mask where there are any, or its mask is 0, and holds the
control unit otherwise, clearing nothing; EVCLR clears the flags of its mask. A held EVWAIT goes on, with the flags
under its mask, when one of them is set, and stands where none is. Log entry 10 names the model's choices in it. -/
def Obligations.EventFlagsWaitAndClear : Prop :=
  (∀ (s : State) (c : Nat) (d a b : Reg), Ready s c →
    (∃ t, exec (.evwait c d a b 0) s = .next t ∧ OnlyCore s t c ∧ (t.core c).que.flags = (s.core c).que.flags ∧
      ((s.core c).que.flags &&& rg s c a ≠ 0 ∨ rg s c a = 0 →
        RegIs s t c d ((s.core c).que.flags &&& rg s c a) ∧ GoesTo t c ((s.core c).ctl.pc + 4)) ∧
      ((s.core c).que.flags &&& rg s c a = 0 → rg s c a ≠ 0 →
        (∀ r, rg t c r = rg s c r) ∧ (t.core c).ctl.blk = .evwait d (rg s c a) ∧ (t.core c).ctl.pc = (s.core c).ctl.pc)) ∧
    (∃ t, exec (.evclr c d a b 0) s = .next t ∧ OnlyCore s t c ∧ (∀ r, rg t c r = rg s c r) ∧
      GoesTo t c ((s.core c).ctl.pc + 4) ∧ (t.core c).que.flags = (s.core c).que.flags &&& ~~~(rg s c a))) ∧
  (∀ (s : State) (req : Requester) (c : Nat) (hi : Bool) (v : W32) (d : Reg) (mask m : W64), MayReach s req c →
    (s.core c).ctl.st = .running → (s.core c).ctl.blk = .evwait d mask → m = v.setWidth 64 <<< (if hi then 32 else 0) →
    ∃ t, exec (.evtSetWrite req c hi v) s = .next t ∧ (t.core c).que.flags = (s.core c).que.flags ||| m ∧
      (((s.core c).que.flags ||| m) &&& mask ≠ 0 →
        RegIs s t c d (((s.core c).que.flags ||| m) &&& mask) ∧ GoesTo t c ((s.core c).ctl.pc + 4)) ∧
      (((s.core c).que.flags ||| m) &&& mask = 0 → (t.core c).ctl = (s.core c).ctl))

/-- R188, R189: X reads its descriptor line, and a command that its engine does not refuse and that need not wait is
queued; a stalled X is queued by X_ISSUE_STALL_END; a flags field with bits 9:6 set is ILLEGAL (R181), and a
descriptor off the 64 B grid or past the scratchpad faults with DESCRIPTOR. Log entry 25 names the model's choices in
it. -/
def Obligations.XQueuesItsCommand : Prop :=
  (∀ (s : State) (c : Nat) (eng : BitVec 3) (tag : Fin 32) (p : Reg) (flags : BitVec 12) (desc : W64), Ready s c →
    desc = rg s c p + 64 * BitVec.ofNat 64 (flags.toNat % 64) →
    (∀ op v x, bits flags.toNat 9 6 = 0 → desc.toNat % 64 = 0 → desc.toNat < 2 ^ 21 →
      sbReadStall (s.core c) desc.toNat 64 = false → Sound s c desc.toNat 64 →
      readBody eng.toNat (spBytes s c desc.toNat 64) = some (.vec op v) →
      x = ⟨⟨tag, flags.getLsbD 11, flags.getLsbD 10, desc.toNat⟩, .vec op v⟩ → Issuable s c x →
      ∃ t, exec (.x c eng tag p flags) s = .next t ∧ Queued s t c x ∧ t.mem = s.mem) ∧
    (bits flags.toNat 9 6 ≠ 0 → Quiet s c → ∃ t, exec (.x c eng tag p flags) s = .next t ∧
      Faults s t c 1 (encX eng.toNat tag.val p.val flags.toNat) 0 0) ∧
    (bits flags.toNat 9 6 = 0 → desc.toNat % 64 ≠ 0 ∨ 2 ^ 21 ≤ desc.toNat → Quiet s c →
      ∃ t, exec (.x c eng tag p flags) s = .next t ∧
        Faults s t c 0x0B (encX eng.toNat tag.val p.val flags.toNat) 0 desc)) ∧
  (∀ (s : State) (c : Nat) (x : XCmd) (rs : List SbEntry) (op : VecOp) (v : VecDesc), (s.core c).ctl.st = .running →
    (s.core c).ctl.blk = .x x rs → x.body = .vec op v →
    (engStalls s c x = false → ∃ t, exec (.xIssueStallEnd c) s = .next t ∧ Queued s t c x ∧ t.mem = s.mem) ∧
    (engStalls s c x = true → exec (.xIssueStallEnd c) s = .next s))

/-- R178: on a miss INSN_BUFFER_FILL fills the line of the PC, and an instruction whose line the buffer does not hold
waits; while the buffer holds the PC's line, it prefetches the next, unless that overlaps an in-flight write. R175:
LAUNCH_TAKE starts an IDLE core on the oldest message of its queue 31, with ENTRY, PARAM and g1 to g8 from the message
and every other register 0. Log entries 12 and 24 name the model's choices in it. -/
def Obligations.FetchAndLaunch : Prop :=
  (∀ (s : State) (c pc line : Nat), canIssue s c = true → pc = (s.core c).ctl.pc.toNat → pc < 2 ^ 21 → bufHit s c pc = false →
    line = pc / 64 * 64 →
    (∀ (d a b : Reg), exec (.add c d a b) s = .next s) ∧
    (sbReadStall (s.core c) line 64 = false → Sound s c line 64 →
      ∃ t, exec (.insnBufferFill c) s = .next t ∧ OnlyCore s t c ∧ (t.core c).ctl.pc = (s.core c).ctl.pc ∧
        (∀ r, rg t c r = rg s c r) ∧ mfind (t.core c).ctl.ibuf (pc / 64 % 256) = some (pc / 2 ^ 14, spBytes s c line 64)) ∧
    (sbReadStall (s.core c) line 64 = true → ∃ t, exec (.insnBufferFill c) s = .next t ∧ (t.core c).ctl.blk = .sb ∧
      (t.core c).ctl.ibuf = (s.core c).ctl.ibuf ∧ OnlyCore s t c)) ∧
  (∀ (s : State) (c pc line : Nat), Ready s c → pc = (s.core c).ctl.pc.toNat → line = pc / 64 * 64 + 64 → line < 2 ^ 21 →
    bufHit s c line = false →
    (sbReadStall (s.core c) line 64 = false → Sound s c line 64 →
      ∃ t, exec (.insnBufferFill c) s = .next t ∧ OnlyCore s t c ∧ (t.core c).ctl.pc = (s.core c).ctl.pc ∧
        (∀ r, rg t c r = rg s c r) ∧ (t.core c).ctl.blk = (s.core c).ctl.blk ∧
        mfind (t.core c).ctl.ibuf (line / 64 % 256) = some (line / 2 ^ 14, spBytes s c line 64)) ∧
    (sbReadStall (s.core c) line 64 = true → exec (.insnBufferFill c) s = .next s)) ∧
  (∀ (s : State) (c : Nat) (m : QEntry) (ms : List QEntry) (bs : Bytes), present s c = true → (s.core c).crst = false →
    (s.core c).ctl.st = .idle → (s.core c).ctl.haltBit = false → ((s.core c).que.q 31).msgs = m :: ms →
    Sound s c (((s.core c).que.q 31).slotOff m.slot) (m.len * 16) →
    bs = spBytes s c (((s.core c).que.q 31).slotOff m.slot) (m.len * 16) →
    ∃ t, exec (.launchTake c) s = .next t ∧ (t.core c).ctl.st = .running ∧
      (t.core c).ctl.pc = BitVec.ofNat 64 (leAt bs 0 4 % 2 ^ 21 / 4 * 4) ∧
      (t.core c).ctl.launch = BitVec.ofNat 32 (leAt bs 4 4) ∧ (t.core c).ctl.ibuf = [] ∧
      (∀ r : Reg, rg t c r = if 1 ≤ r.val ∧ r.val ≤ 8 then BitVec.ofNat 64 (leAt bs (8 * r.val) 8) else 0) ∧
      ((t.core c).que.q 31).msgs = ms ∧ t.mem = s.mem)

/-- R181: a word whose opcode or function code is reserved, a word of zeros among them, and an instruction with a bit
in a field that must be 0 fault the core with ILLEGAL, the word in the record; no register and no byte of memory
changes. A word that is not reserved is the instruction that its opcode and function pick (R180, R182): it executes as
that instruction, whose word it is; the word of an instruction reads as that instruction. Log entry 25 names the
model's choices in it; what R181 says rests on none. -/
def Obligations.ReservedWordsAreIllegal : Prop :=
  isReservedWord 0 = true ∧
  (∀ (s : State) (c : Nat) (w : W32), Ready s c → Quiet s c → isReservedWord w = true →
    ∃ t, exec (.reservedOpcode c w) s = .next t ∧ Faults s t c 1 w 0 0 ∧ t.mem = s.mem ∧ (∀ r, rg t c r = rg s c r)) ∧
  (∀ (s : State) (c : Nat) (d a b : Reg) (k : Fin 32) (z : BitVec 4) (e : BitVec 3) (fl : BitVec 12) (i : Instr) (w : W32),
    Ready s c → Quiet s c →
    ((d ≠ 0 ∨ a ≠ 0 ∨ b ≠ 0) ∧ ((i = .nop c d a b ∧ w = encA 2 d.val a.val b.val 0) ∨
      (i = .end_ c d a b ∧ w = encA 2 d.val a.val b.val 1) ∨ (i = .brk c d a b ∧ w = encA 2 d.val a.val b.val 2) ∨
      (i = .iflush c d a b ∧ w = encA 2 d.val a.val b.val 3) ∨ (i = .waitall c d a b ∧ w = encA 2 d.val a.val b.val 7))) ∨
    ((a ≠ 0 ∨ b ≠ 0) ∧ ((i = .tmask c d a b ∧ w = encA 2 d.val a.val b.val 6) ∨
      (i = .rdtime c d a b ∧ w = encA 2 d.val a.val b.val 8) ∨ (i = .rdcyc c d a b ∧ w = encA 2 d.val a.val b.val 9) ∨
      (i = .rdid c d a b ∧ w = encA 2 d.val a.val b.val 10))) ∨
    ((d ≠ 0 ∨ a ≠ 0) ∧ i = .twait c d a k ∧ w = encA 2 d.val a.val k.val 4) ∨
    (a ≠ 0 ∧ i = .tstat c d a k ∧ w = encA 2 d.val a.val k.val 5) ∨
    (z ≠ 0 ∧ ((i = .qrecv c d a b z ∧ w = encA 3 d.val a.val b.val (z.toNat * 64 + 1)) ∨
      (i = .qtry c d a b z ∧ w = encA 3 d.val a.val b.val (z.toNat * 64 + 2)))) ∨
    (z ≠ 0 ∧ i = .evwait c d a b z ∧ w = encA 3 d.val a.val b.val (z.toNat * 64 + 3)) ∨
    (z ≠ 0 ∧ i = .evclr c d a b z ∧ w = encA 3 d.val a.val b.val (z.toNat * 64 + 4)) ∨
    (b ≠ 0 ∧ ((i = .clz c d a b ∧ w = encA 1 d.val a.val b.val 0x018) ∨ (i = .ctz c d a b ∧ w = encA 1 d.val a.val b.val 0x019) ∨
      (i = .popc c d a b ∧ w = encA 1 d.val a.val b.val 0x01A))) ∨
    (bits fl.toNat 9 6 ≠ 0 ∧ i = .x c e k a fl ∧ w = encX e.toNat k.val a.val fl.toNat) →
    ∃ t, exec i s = .next t ∧ Faults s t c 1 w 0 0 ∧ t.mem = s.mem ∧ ∀ r, rg t c r = rg s c r) ∧
  (∀ (s : State) (c : Nat) (w : W32), isReservedWord w = false → ∃ i, decodeInsn c w = some i ∧
    exec (.reservedOpcode c w) s = exec i s ∧ encodeInsn i = some w) ∧
  (∀ (i : Instr) (w : W32), encodeInsn i = some w → ∃ c, decodeInsn c w = some i)

/-- R186, R187: a global access that is aligned and not held by the scoreboard waits for its completion, which writes
a load's register, or faults the core with the code of its status (Table 6.8); one that does not come faults with
TIMEOUT; a misaligned one faults with MISALIGNED. Log entries 10, 25 and 50 name the model's choices in it. -/
def Obligations.GlobalAccessesWaitAndComplete : Prop :=
  (∀ p ∈ ([(.glw, 0x24, 4, true), (.gld, 0x25, 8, true), (.gsw, 0x26, 4, false), (.gsd, 0x27, 8, false)] :
      List ((Nat → Reg → Reg → BitVec 15 → Instr) × Nat × Nat × Bool)),
    ∀ (s : State) (c : Nat) (d a : Reg) (imm : BitVec 15) (x : W64), Ready s c → x = rg s c a + imm.signExtend 64 →
      (x.toNat % p.2.2.1 = 0 → inOwnSp c x = false → ∃ t g, exec (p.1 c d a imm) s = .next t ∧
        (t.core c).ctl.blk = .gacc g ∧ g.addr = x ∧ g.size = p.2.2.1 ∧ g.load = p.2.2.2 ∧ g.d = d ∧ g.tag = (s.core c).ctl.gtag ∧
        g.lost = false ∧
        g.data = (if p.2.2.2 then [] else natBytes p.2.2.1 (rg s c d).toNat) ∧
        (t.core c).ctl.pc = (s.core c).ctl.pc ∧ (∀ r, rg t c r = rg s c r) ∧ t.mem = s.mem) ∧
      (x.toNat % p.2.2.1 ≠ 0 → Quiet s c → ∃ t, exec (p.1 c d a imm) s = .next t ∧
        Faults s t c 2 (encI p.2.1 d.val a.val imm.toNat) p.2.2.1 x ∧ t.mem = s.mem)) ∧
  (∀ (s : State) (c : Nat) (g : GAccess) (data : W64), (s.core c).ctl.st = .running → (s.core c).ctl.blk = .gacc g →
    isRemote g.addr = true → remoteDev g.addr ≠ s.devId → (s.core c).ctl.haltBit = false → g.lost = false →
    (∃ t, exec (.globalAccessCompletion c 0 data) s = .next t ∧ OnlyCore s t c ∧ GoesTo t c ((s.core c).ctl.pc + 4) ∧
      (g.load = true → RegIs s t c g.d (if g.size = 4 then BitVec.ofNat 64 (data.toNat % 2 ^ 32) else data)) ∧
      (g.load = false → ∀ r, rg t c r = rg s c r)) ∧
    (∀ st, st = 2 ∨ st = 3 ∨ st = 6 ∨ st = 7 ∨ st = 0x0C → Quiet s c →
      ∃ t, exec (.globalAccessCompletion c st data) s = .next t ∧
        Faults s t c (if st = 2 then 4 else if st = 3 then 5 else if st = 6 then 8 else if st = 7 then 9 else 6)
          g.insn 0 g.addr ∧ t.mem = s.mem) ∧
    (Quiet s c → ∃ t, exec (.globalAccessTimeout c) s = .next t ∧
      Faults s t c 0x0F g.insn (s.core c).ctl.gtmo g.addr ∧ t.mem = s.mem))


/-- R190, R198, R210 to R212, Table 6.12: every vector command whose descriptor the unit does not refuse and that need
not wait is queued; a refused one faults the core with the code and field of R211. VEC_COMMAND_COMPLETE writes what
the command under way has computed and ends it: its last write stands in memory, every byte outside its writes as
before, and its tag counts one command less. Log entries 22 and 25 name the model's choices in it. -/
def Obligations.VectorCommandsQueueAndComplete : Prop :=
  (∀ p ∈ vecTable, ∀ (s : State) (c : Nat) (i : Issue) (d : VecDesc) (x : XCmd), Ready s c → x = ⟨i, .vec p.2 d⟩ →
    (Issuable s c x → ∃ t, exec (p.1 c i d) s = .next t ∧ Queued s t c x ∧ t.mem = s.mem ∧ OnlyCore s t c) ∧
    RefusedOrHeld s c (p.1 c i d) x) ∧
  (∀ (s : State) (c : Nat) (f : Flight) (fs : List Flight), MemInv s → engFlights (s.core c) 1 = f :: fs → f.begun = true →
    f.memDetail = none → (∀ w ∈ f.writes, w.1 + w.2.length ≤ 2 ^ 21 ∧ Sound s c w.1 w.2.length) →
    ∃ t, exec (.vecCommandComplete c) s = .next t ∧ Leaves s t c f ∧ (t.core c).vec = (s.core c).vec ∧
      (∀ r, rg t c r = rg s c r) ∧ (∀ k, k ≠ c → t.core k = s.core k) ∧
      (∀ x, (∀ w ∈ f.writes, ∀ i < w.2.length, x ≠ spKey s c (w.1 + i)) → memGet t.mem x = memGet s.mem x) ∧
      (∀ ws o bs, f.writes = ws ++ [(o, bs)] → spBytes t c o bs.length = bs))

/-- R202, R203, R213, R209: VEC_COMMAND_START begins the oldest command not yet started: it is marked begun, its read
ranges are released, a seed that waits has taken effect, and no byte of memory changes. An elementwise command on
registers puts the operation of Table 6.12 on same-numbered lanes, each read as FP32 (R90, R91), into the
destination's lanes, and a COPY the lanes themselves; every other lane of every register stands. FTZ acts on no
operand of MAX, MIN, SEL, CGT, ABS and NEG, which set no flag (R202, R203). Log entries 15, 16 and 22 name the model's
choices in it. -/
def Obligations.VectorCommandsCompute : Prop :=
  ∀ (s : State) (c : Nat) (f : Flight) (op : VecOp) (d : VecDesc),
    (engFlights (s.core c) 1).find? (fun f => !f.begun) = some f → f.body = .vec op d →
    ∃ t, exec (.vecCommandStart c) s = .next t ∧
      (∃ g ∈ (t.core c).flights, g.id = f.id ∧ g.body = f.body ∧ g.iss = f.iss ∧ g.begun = true) ∧
      (∀ e ∈ (t.core c).sb, e.id = f.id → e.write = true) ∧ (t.core c).vec.seedPend = none ∧ t.mem = s.mem ∧
      (t.core c).ctl = (s.core c).ctl ∧
      (isRegOp d.sa = true → isRegOp d.dst = true → d.rows = 1 → d.n ≤ 64 → ofmtOf d = .fp32 →
        (∀ v l, l < 64 → v ≠ regNo d.dst ∨ d.n ≤ l → op ≠ .trn → isReduction op = false → isQuant op = false →
          op ≠ .dqnt → vreg t c v l = vreg s c v l) ∧
        (∀ l < d.n, op = .copy → vreg t c (regNo d.dst) l = vreg s c (regNo d.sa) l) ∧
        (∀ l < d.n, ∀ dec : W32 → W32, (∀ w, dec w = (decode32 .fp32 w.toNat none ((s.core c).vec.ftz &&
            decide (op ∉ ([.max, .min, .sel, .cgt, .abs, .neg] : List VecOp)))).1) →
          op ∈ ([.add, .sub, .mul, .fma, .max, .min, .sel, .cgt, .abs, .neg, .exp2, .log2, .rcp, .rsqrt, .cvt] : List VecOp) →
          (usesB op = true → d.bimm = true ∨ isRegOp d.sb = true) → (usesC op = true → d.cimm = true ∨ isRegOp d.sc = true) →
          vreg t c (regNo d.dst) l = (elemOp op (s.core c).vec.ftz (dec (vreg s c (regNo d.sa) l))
            (if usesB op = false then 0 else if d.bimm then dec d.immb else dec (vreg s c (regNo d.sb) l))
            (if usesC op = false then 0 else if d.cimm then dec d.immc else dec (vreg s c (regNo d.sc) l))).1))

/-- R109, R110, R122, R133, Table 4.8: PCONF, PLOAD, PSWAP, PSTREAM and PDRAIN are issued to the Press; a load, a
stream on an ACTIVE Press and a drain begin at once where Table 4.3 lets them, every other command waits; a stream
that waits for an IDLE or FALLING Press asks for a ramp; a refused command faults the core. Log entries 22, 23 and 25
name the model's choices in it. -/
def Obligations.PressCommandsQueue : Prop :=
  ∀ (s : State) (c : Nat) (i : Issue) (p : PressCmd) (x : XCmd), Ready s c → x = ⟨i, .press p⟩ →
    (Issuable s c x → PressSettled s c → ∃ t f, exec (pressInstr c i p) s = .next t ∧ Issued s t c x ∧ t.mem = s.mem ∧
      f = newFlight (s.core c).nextId ((s.core c).ctl.pc.toNat % 2 ^ 21) x ∧ (∀ k, k ≠ c → t.core k = s.core k) ∧
      (∃ g ∈ (t.core c).flights, g.id = f.id ∧ g.iss = i ∧ g.body = x.body ∧
        g.begun = (!isSwap f && !isConf f && mayBegin (s.core c).prs (engFlights (s.core c) 0) f)) ∧
      (t.core c).prs.conf = (s.core c).prs.conf ∧ (t.core c).prs.active = (s.core c).prs.active ∧
      (t.core c).prs.shadow = (s.core c).prs.shadow ∧ (t.core c).prs.pstate = (s.core c).prs.pstate ∧
      (isStream f = true → (s.core c).prs.pstate = .idle ∨ (s.core c).prs.pstate = .falling → (t.core c).prs.want = true)) ∧
    RefusedOrHeld s c (pressInstr c i p) x

/-- R111, R112, R113: a PCONF that is the oldest command outstanding takes effect and completes; a swap that may
happen exchanges the active and the shadow registers with their tags, and one that may not changes nothing; a load
puts the images of its sub-tiles into the shadow registers under the configuration in effect, and leaves every other
sub-tile's. Log entries 14 and 22 name the model's choices in it. -/
def Obligations.PressConfiguresSwapsAndLoads : Prop :=
  (∀ (s : State) (c : Nat) (f : Flight) (fs : List Flight) (d : PconfDesc), engFlights (s.core c) 0 = f :: fs →
    f.body = .press (.pconf d) → f.memDetail = none →
    ∃ t, exec (.pconfTakeEffect c) s = .next t ∧ (t.core c).prs.conf = confOf d ∧ Leaves s t c f ∧
      (t.core c).prs.active = (s.core c).prs.active ∧ (t.core c).prs.shadow = (s.core c).prs.shadow ∧ t.mem = s.mem ∧
      (∀ r, rg t c r = rg s c r)) ∧
  (∀ (s : State) (c : Nat) (f : Flight) (before : List Flight), pressFirst s c isSwap = some (f, before) →
    f.memDetail = none →
    (mayBegin (s.core c).prs before f = true → ∃ t, exec (.pswapSwap c) s = .next t ∧
      (t.core c).prs.active = (s.core c).prs.shadow ∧ (t.core c).prs.shadow = (s.core c).prs.active ∧ Leaves s t c f ∧
      (t.core c).prs.conf = (s.core c).prs.conf ∧ t.mem = s.mem ∧ (∀ r, rg t c r = rg s c r)) ∧
    (mayBegin (s.core c).prs before f = false → exec (.pswapSwap c) s = .next s)) ∧
  (∀ (s : State) (c : Nat) (f : Flight) (before : List Flight) (d : PloadDesc) (g : Geo),
    pressFirst s c (fun f => isLoad f && f.begun) = some (f, before) → f.body = .press (.pload d) → f.memDetail = none →
    g = geo (s.core c).prs.conf →
    (∀ i < (subList d.submask).length, Sound s c (d.data + i * g.dataBytes) g.dataBytes ∧
      Sound s c (d.scl + i * g.sclBytes) g.sclBytes ∧ Sound s c (d.esca + i * g.escBytes) g.escBytes) →
    ∃ t, exec (.ploadComplete c) s = .next t ∧ Leaves s t c f ∧ (t.core c).prs.active = (s.core c).prs.active ∧
      (t.core c).prs.conf = (s.core c).prs.conf ∧ t.mem = s.mem ∧ (t.core c).prs.shadow.tag = (s.core c).prs.conf ∧
      (t.core c).prs.shadow.valid =
        loadValid (s.core c).prs.shadow.tag (s.core c).prs.conf (s.core c).prs.shadow.valid d.submask ∧
      (∀ i sub, (subList d.submask)[i]? = some sub → ∃ u, mfind (t.core c).prs.shadow.subs sub = some u ∧
        u.data = spBytes s c (d.data + i * g.dataBytes) g.dataBytes ∧
        (g.scaled = true → u.scl = spBytes s c (d.scl + i * g.sclBytes) g.sclBytes) ∧
        (g.een = true → u.esc = spBytes s c (d.esca + i * g.escBytes) g.escBytes)) ∧
      (∀ sub, sub ∉ subList d.submask →
        mfind (t.core c).prs.shadow.subs sub = mfind (s.core c).prs.shadow.subs sub))

/-- R63, R84, R103, R105, R108, R115: an INT8 stream is a matrix product. The result that a PSTREAM forms for row i of
sub-tile sub and column j is the sum over k of the moving row's element k times the stationary column's, as 32-bit
two's complement; no step of it clamps. It goes to accumulator row ACC + i and the sub-tile's column. Log entry 22
names the model's choices in it. -/
def Obligations.AnInt8StreamIsAMatrixProduct : Prop :=
  ∀ (s : State) (c : Nat) (i : Issue) (d : PstreamDesc) (x : XCmd) (f : Flight) (g : Geo), Ready s c →
    x = ⟨i, .press (.pstream d)⟩ → Issuable s c x → PressSettled s c → f = newFlight (s.core c).nextId ((s.core c).ctl.pc.toNat % 2 ^ 21) x →
    mayBegin (s.core c).prs (engFlights (s.core c) 0) f = true → (s.core c).prs.conf.fmt = 5 → (s.core c).prs.conf.een = false →
    g = geo (s.core c).prs.conf →
    (∀ sub ∈ subList d.submask, ∀ r < d.m, Sound s c (d.mov.getD (sub / g.c) 0 + r * d.mstride) g.rowBytes) →
    ∃ t u, exec (.pstream c i d) s = .next t ∧ u ∈ (t.core c).flights ∧ u.id = f.id ∧ u.begun = true ∧
      ∀ sub ∈ subList d.submask, ∀ r < d.m, ∀ j < g.cols,
        (⟨d.acc.getD sub 0 + r, sub % g.c * g.cols + j, BitVec.ofInt 32 ((List.range g.k).map (fun k =>
          (spByte s c (d.mov.getD (sub / g.c) 0 + r * d.mstride + k)).toInt *
            ((mget ⟨[], [], [], [], []⟩ (s.core c).prs.active.subs sub).data.getD (j * g.rowBytes + k) 0).toInt)).sum⟩ : AccOut)
          ∈ u.accs

/-- R115, R127, R477: the completion of a stream writes its results, or adds them where the descriptor accumulates,
clamped in an integer pass; every other entry stands; its comparisons are due. TALLY_DECIDE takes the oldest: a match
changes no count, a skip counts in TALLY_SKIP, and a mismatch counts, is captured where nothing is, and raises event
0x0014. Log entries 20 and 22 name the model's choices in it. -/
def Obligations.StreamsCompleteAndTallyDecides : Prop :=
  (∀ (s : State) (c : Nat) (f : Flight) (before : List Flight) (d : PstreamDesc),
    pressFirst s c (fun f => isStream f && f.begun) = some (f, before) → f.body = .press (.pstream d) → f.memDetail = none →
    (∀ g e, g ∈ engFlights (s.core c) 0 → pressOf g = some (.pdrain e) → e.clr = false ∨ g.begun = true) →
    (f.accs.map (fun o => o.row * 64 + o.col)).Nodup →
    ∃ t, exec (.pstreamComplete c) s = .next t ∧ Leaves s t c f ∧ t.mem = s.mem ∧
      (t.core c).prs.tallyQ = (s.core c).prs.tallyQ ++ f.tally ∧
      (∀ o ∈ f.accs, ∀ old, old = mget 0 (s.core c).prs.acc (o.row * 64 + o.col) →
        mget 0 (t.core c).prs.acc (o.row * 64 + o.col) =
          if d.accum then (if f.intPass then intWord (clamp32 (old.toInt + o.val.toInt)).1 else (pressAdd old o.val).1)
          else o.val) ∧
      (∀ k, (∀ o ∈ f.accs, k ≠ o.row * 64 + o.col) → mget 0 (t.core c).prs.acc k = mget 0 (s.core c).prs.acc k)) ∧
  (∀ (s : State) (c : Nat) (r : TallyRow) (rs : List TallyRow), (s.core c).prs.tallyQ = r :: rs →
    ∃ t, exec (.tallyDecide c) s = .next t ∧ (t.core c).prs.tallyQ = rs ∧ t.mem = s.mem ∧ (t.core c).ctl = (s.core c).ctl ∧
      (t.core c).prs.acc = (s.core c).prs.acc ∧
      (t.core c).prs.tallySkip =
        (if r.outcome = .skip then satInc (s.core c).prs.tallySkip 1 else (s.core c).prs.tallySkip) ∧
      (t.core c).prs.tallyCnt =
        (if r.outcome = .mismatch then satInc (s.core c).prs.tallyCnt 1 else (s.core c).prs.tallyCnt) ∧
      (r.outcome ≠ .mismatch → (t.core c).prs.infoV = (s.core c).prs.infoV ∧ t.logBuf = s.logBuf) ∧
      (r.outcome = .mismatch → (t.core c).prs.infoV = true ∧
        ((s.core c).prs.infoV = false → (t.core c).prs.infoSub = r.sub ∧ (t.core c).prs.infoRow = r.row ∧
          (t.core c).prs.infoTag = r.tag) ∧
        LogGets s t 0x14 3))

/-- R86, R116, R130: a drain to FP32 that begins reads each entry of its rows and columns, a NaN as 0x7FC00000, and
with CLR leaves 0 in each. Its completion writes what it read, and PRS_AMAX of its columns; every byte outside its
writes stands. Log entries 19 and 22 name the model's choices in it. -/
def Obligations.DrainsWriteTheirRows : Prop :=
  (∀ (s : State) (c : Nat) (i : Issue) (d : PdrainDesc) (x : XCmd) (f : Flight), Ready s c →
    x = ⟨i, .press (.pdrain d)⟩ → Issuable s c x → PressSettled s c → f = newFlight (s.core c).nextId ((s.core c).ctl.pc.toNat % 2 ^ 21) x →
    mayBegin (s.core c).prs (engFlights (s.core c) 0) f = true → d.ofmt = 0 → d.etype = false →
    ∃ t u, exec (.pdrain c i d) s = .next t ∧ u ∈ (t.core c).flights ∧ u.id = f.id ∧ u.begun = true ∧ t.mem = s.mem ∧
      u.writes = (List.range d.nrow).map (fun r => (d.out + r * d.ostride, (List.range d.ncol).flatMap (fun j =>
        let w := mget 0 (s.core c).prs.acc ((d.row0 + r) * 64 + d.col0 + j)
        natBytes 4 (if (f32 w).isNan then canonNan else w).toNat))) ∧
      (d.col0 + d.ncol ≤ 64 → ∀ r < d.nrow, ∀ j < d.ncol, mget 0 (t.core c).prs.acc ((d.row0 + r) * 64 + (d.col0 + j)) =
        if d.clr then 0 else mget 0 (s.core c).prs.acc ((d.row0 + r) * 64 + (d.col0 + j)))) ∧
  (∀ (s : State) (c : Nat) (f : Flight) (before : List Flight), MemInv s →
    pressFirst s c (fun f => isDrain f && f.begun) = some (f, before) → f.memDetail = none →
    (∀ w ∈ f.writes, w.1 + w.2.length ≤ 2 ^ 21 ∧ Sound s c w.1 w.2.length) → (f.amax.map (·.1)).Nodup →
    ∃ t, exec (.pdrainComplete c) s = .next t ∧ Leaves s t c f ∧ (∀ r, rg t c r = rg s c r) ∧
      (∀ x, (∀ w ∈ f.writes, ∀ i < w.2.length, x ≠ spKey s c (w.1 + i)) → memGet t.mem x = memGet s.mem x) ∧
      (∀ ws o bs, f.writes = ws ++ [(o, bs)] → spBytes t c o bs.length = bs) ∧
      (∀ k v, (k, v) ∈ f.amax → mget 0 (t.core c).prs.amax k = v) ∧
      (∀ k, k ∉ f.amax.map (·.1) → mget 0 (t.core c).prs.amax k = mget 0 (s.core c).prs.amax k))

/-- R122 to R124, R411: a ramp is granted to the core whose turn it is in its group's round robin, where its group's
turn has come among those of the field that can be granted, and both intervals have passed; a core that does not wait
gets none. The grant makes the Press RAMPING; RAMP_COMPLETE makes it ACTIVE with every row enabled; the idle count
makes an ACTIVE Press with no stream that enters or waits FALLING, one that awaits only its results too, unless
PRS_CTRL.IDLE is 0; and a FALLING one becomes IDLE with no row enabled. Log entry 10 names the model's choices in it.
-/
def Obligations.ThePressRampsAndFalls : Prop :=
  (∀ (s : State) (c i h : Nat), wantsRamp s c = true → i < 12 → c % 12 = ((s.grp (groupOf c)).lastK + 1 + i) % 12 →
    (∀ j < i, wantsRamp s (12 * groupOf c + ((s.grp (groupOf c)).lastK + 1 + j) % 12) = false) →
    h < 8 → groupOf c % 8 = ((s.field (fieldOf c)).paceRow + 1 + h) % 8 →
    (∀ j < h, ∀ g, g = 8 * fieldOf c + ((s.field (fieldOf c)).paceRow + 1 + j) % 8 →
      arbiterFree s g = false ∨ ∀ k < 12, wantsRamp s (12 * g + k) = false) →
    arbiterFree s (groupOf c) = true → pacerFree s (fieldOf c) = true →
    ∃ t, exec (.rampGrant c) s = .next t ∧ (t.core c).prs = { (s.core c).prs with pstate := .ramping, want := false } ∧
      (t.grp (groupOf c)).lastK = c % 12 ∧ (t.grp (groupOf c)).lastAt = some (s.field (fieldOf c)).cclk ∧
      (t.field (fieldOf c)).paceRow = groupOf c % 8 ∧ (t.field (fieldOf c)).paceAt = some s.now ∧ t.mem = s.mem ∧
      (t.core c).ctl = (s.core c).ctl ∧ ∀ k, k ≠ c → t.core k = s.core k) ∧
  (∀ (s : State) (c : Nat), wantsRamp s c = false ∨ pacerFree s (fieldOf c) = false ∨ arbiterFree s (groupOf c) = false →
    exec (.rampGrant c) s = .next s) ∧
  (∀ (s : State) (c : Nat), (s.core c).prs.pstate = .ramping → ∃ t, exec (.rampComplete c) s = .next t ∧
    (t.core c).prs.pstate = .active ∧ (t.core c).prs.rowsOn = 128 ∧ t.mem = s.mem ∧ (t.core c).ctl = (s.core c).ctl) ∧
  (∀ (s : State) (c : Nat), (s.core c).prs.pstate = .active →
    (∀ f ∈ engFlights (s.core c) 0, isStream f = false ∨ f.begun = true) →
    ((s.core c).prs.ctrlIdle ≠ 0 →
      exec (.pressIdleCountExpire c) s = .next (modPrs s c (fun p => { p with pstate := .falling }))) ∧
    ((s.core c).prs.ctrlIdle = 0 → exec (.pressIdleCountExpire c) s = .next s)) ∧
  (∀ (s : State) (c : Nat), (s.core c).prs.pstate = .falling →
    exec (.pressFallComplete c) s = .next (modPrs s c (fun p => { p with pstate := .idle, rowsOn := 0 })))

/-- R54, R56, R57: a register of a core block is read and written by its access codes: a read-write register takes
what is written and reads so; a write to a read-only one changes nothing; a read clears an RC count after it has
answered it; a one written to a W1C flag clears it; two registers are read together by 8 bytes. Log entries 45, 46 and
47 name the model's choices in it. -/
def Obligations.RegistersKeepTheirAccessCodes : Prop :=
  ∀ (s : State) (req : Requester) (c : Nat) (v : W64), MayReach s req c →
    exec (.csrWrite req (coreCsr c 0x10) 4 v) s = .next (modCtl s c (fun k => { k with gtag := v.setWidth 32 })) ∧
    exec (.rcRead req (coreCsr c 0x10) 4) s =
      .next (emit s (.csrData req (coreCsr c 0x10) 4 ((s.core c).ctl.gtag.setWidth 64))) ∧
    (∀ off, off = 0 ∨ off = 4 ∨ off = 8 ∨ off = 0x0C → exec (.csrWrite req (coreCsr c off) 4 v) s = .next s) ∧
    ((s.core c).spd.eccCe < 2 ^ 32 → exec (.rcRead req (coreCsr c 0x3010) 4) s =
      .next (emit (modSpd s c (fun d => { d with eccCe := 0 }))
        (.csrData req (coreCsr c 0x3010) 4 (BitVec.ofNat 64 (s.core c).spd.eccCe)))) ∧
    exec (.csrWrite req (coreCsr c 0x1080) 4 v) s =
      .next (modPrs s c (fun p => { p with flags := p.flags &&& ~~~(v.setWidth 4) })) ∧
    (s.devId < 2 ^ 14 → partNum s c < 16 → exec (.rcRead req (coreCsr c 0) 8) s =
      .next (emit s (.csrData req (coreCsr c 0) 8 (BitVec.ofNat 64
        ((blkCode (s.core c) * 2 ^ 8 + ctlStateCode (s.core c).ctl.st) * 2 ^ 32 +
          partNum s c * 2 ^ 28 + s.devId * 2 ^ 14 + c)))))

/-- R51, R53, R54, R573: a register access that is refused changes no register: a core that another partition owns, or
that does not exist, or a size or address that is none of a register's, answers DENIED, UNMAPPED or SIZE, the first
that holds in this order, and is counted under it. Log entries 44 and 45 name the model's choices in it. -/
def Obligations.RegisterAccessesAreRefusedInOrder : Prop :=
  ∀ (s : State) (k c off size : Nat) (v : W64), c < 1152 → off < 2 ^ 16 →
    (partOf s k = none ∨ partOf s k ≠ partOf s c →
      exec (.csrWrite (.core k) (coreCsr c off) size v) s =
          .next (emit { s with cntDenied := s.cntDenied + 1 } (.csrError (.core k) (coreCsr c off) 1)) ∧
        exec (.rcRead (.core k) (coreCsr c off) size) s =
          .next (emit { s with cntDenied := s.cntDenied + 1 } (.csrError (.core k) (coreCsr c off) 1))) ∧
    (present s c = false ∨ 0x8000 ≤ off →
      exec (.csrWrite .carafe (coreCsr c off) size v) s =
          .next (emit { s with cntUnmapped := s.cntUnmapped + 1 } (.csrError .carafe (coreCsr c off) 2)) ∧
        exec (.rcRead .carafe (coreCsr c off) size) s =
          .next (emit { s with cntUnmapped := s.cntUnmapped + 1 } (.csrError .carafe (coreCsr c off) 2))) ∧
    (present s c = true → off < 0x7FFC → (size ≠ 4 ∧ size ≠ 8) ∨ off % size ≠ 0 →
      exec (.csrWrite .carafe (coreCsr c off) size v) s =
          .next (emit { s with cntSize := s.cntSize + 1 } (.csrError .carafe (coreCsr c off) 3)) ∧
        exec (.rcRead .carafe (coreCsr c off) size) s =
          .next (emit { s with cntSize := s.cntSize + 1 } (.csrError .carafe (coreCsr c off) 3)))

/-- R141, R209, R231, R542, R546, R549: registers whose write does more than keep a value. VEC_SEED seeds every lane
generator while no command runs and waits for the next command else; SPD_MODE changes the interleave of a stopped core
whose engines are idle and sets MODEREJ else, and moves no byte; EVT_SET sets flags, and an EVWAIT for one of them
goes on; CNT_SMP_CTRL starts a sampler that is off, unless its ring is refused, and a clear stops one; CTL of a shared
block chooses a shadow, freezes and clears. Log entries 45, 47 and 48 name the model's choices in it. -/
def Obligations.RegistersThatAct : Prop :=
  (∀ (s : State) (req : Requester) (c : Nat) (v : W32), MayReach s req c →
    ((∀ f ∈ engFlights (s.core c) 1, f.begun = false) → ∃ t, exec (.vecSeedWrite req c v) s = .next t ∧
      (t.core c).vec = { (s.core c).vec with gens := (t.core c).vec.gens, seedPend := none } ∧ OnlyCore s t c ∧
      ∀ l < 64, mget 0 (t.core c).vec.gens l =
        (if v ^^^ BitVec.ofNat 32 (0x9E3779B9 * (l + 1)) = 0 then 1 else v ^^^ BitVec.ofNat 32 (0x9E3779B9 * (l + 1)))) ∧
    ((∃ f ∈ engFlights (s.core c) 1, f.begun = true) →
      exec (.vecSeedWrite req c v) s = .next (modVec s c (fun x => { x with seedPend := some v }))) ∧
    (((s.core c).ctl.st = .halted ∨ (s.core c).ctl.st = .faulted ∨ (s.core c).crst = true) → (s.core c).flights = [] →
      v.toNat % 4 ≠ 3 → exec (.spdModeWrite req c v) s =
        .next (modSpd s c (fun d => { d with near := v.getLsbD 0, lin := v.getLsbD 1 }))) ∧
    ((((s.core c).ctl.st ≠ .halted ∧ (s.core c).ctl.st ≠ .faulted ∧ (s.core c).crst = false) ∨ (s.core c).flights ≠ [] ∨
      v.toNat % 4 = 3) → exec (.spdModeWrite req c v) s = .next (modSpd s c (fun d => { d with modeRej := true }))) ∧
    (∀ hi m, m = v.setWidth 64 <<< (if hi then 32 else 0) → ∃ t, exec (.evtSetWrite req c hi v) s = .next t ∧
      (t.core c).que.flags = (s.core c).que.flags ||| m ∧ OnlyCore s t c ∧
      (∀ d mask, (s.core c).ctl.st = .running → (s.core c).ctl.blk = .evwait d mask →
        ((s.core c).que.flags ||| m) &&& mask ≠ 0 →
        RegIs s t c d (((s.core c).que.flags ||| m) &&& mask) ∧ GoesTo t c ((s.core c).ctl.pc + 4))) ∧
    (∀ m, m = (s.core c).cnt.smp →
      (m.en = true → v.getLsbD 0 = false → exec (.smpCtrlWrite req c v) s =
        .next (modSmp s c (fun m => { m with en := false, due := m.due.take 1 }))) ∧
      (m.en = true → v.getLsbD 0 = true → exec (.smpCtrlWrite req c v) s = .next s) ∧
      (m.en = false → v.getLsbD 0 = true → bits v.toNat 8 4 = m.log2sz → 4 ≤ m.log2sz → m.log2sz ≤ 16 → m.dst = v.getLsbD 1 →
        ∃ t, exec (.smpCtrlWrite req c v) s = .next t ∧ OnlyCore s t c ∧
          (smpRefused s c m = true → (t.core c).cnt.smp.en = false ∧ (t.core c).cnt.smp.err = true) ∧
          (smpRefused s c m = false → (t.core c).cnt.smp.en = true ∧ (t.core c).cnt.smp.run = 0 ∧
            (t.core c).cnt.smp.event = bits v.toNat 19 12)))) ∧
  (∀ (s : State) (b a : Nat) (v : W32), ctlAddr b = some a → csrCheck s .carafe a 4 true = .ok →
    ∃ t, exec (.sharedCntCtlWrite .carafe b v) s = .next t ∧ { t with shared := s.shared } = s ∧
      (∀ k, k ≠ b → t.blk k = s.blk k) ∧ (t.blk b).sels = (s.blk b).sels ∧ (t.blk b).frz = v.getLsbD 0 ∧
      (bits v.toNat 20 16 ≤ 16 ∨ bits v.toNat 20 16 = 31 → (t.blk b).shsel = bits v.toNat 20 16) ∧
      (v.getLsbD 1 = true → (t.blk b).totals = [] ∧ (t.blk b).shadows = []) ∧
      (v.getLsbD 1 = false → (t.blk b).totals = (s.blk b).totals ∧ (t.blk b).shadows = (s.blk b).shadows))

/-- R219, R220: QUE_qBASE, QUE_qCFG and QUE_qDEV of a queue that is disabled and empty take what is written, and
enabling it sets EN, unless its ring runs past the scratchpad or meets another enabled ring or the sampler's: then EN
stays 0 and CFGREJ is set. A write that would change a locked field of an enabled queue, or would disable queue 31 or
make its entries smaller than 128 B, sets CFGREJ alone. No message and no byte of memory changes. Log entries 45 and
48 name the model's choices in it. -/
def Obligations.QueueRegistersConfigureQueues : Prop :=
  ∀ (s : State) (req : Requester) (c : Nat) (q : Fin 32) (v : W32) (u w : Queue), MayReach s req c →
    u = (s.core c).que.q q.val →
    (q.val ≠ 31 → u.en = false → u.msgs = [] →
      (exec (.queBaseWrite req c q v) s = .next (modQ s c q.val (fun u => { u with base := bits v.toNat 20 6 }))) ∧
      (exec (.queDevWrite req c q v) s =
        .next (modQ s c q.val (fun u => { u with devhi := bits v.toNat 29 16, devlo := bits v.toNat 13 0 }))) ∧
      (w = { u with en := v.getLsbD 31, evt := v.getLsbD 14, esize := bits v.toNat 11 8, depth := bits v.toNat 7 0,
                    scope := (if bits v.toNat 13 12 = 3 then u.scope else bits v.toNat 13 12) } →
        (v.getLsbD 31 = false ∨ ringBad (s.core c) q.val w = false →
          exec (.queCfgWrite req c q v) s = .next (modQ s c q.val (fun _ => w))) ∧
        (v.getLsbD 31 = true → ringBad (s.core c) q.val w = true →
          exec (.queCfgWrite req c q v) s = .next (modQ s c q.val (fun _ => { w with en := false, cfgrej := true }))))) ∧
    (q.val ≠ 31 → u.en = true → bits v.toNat 20 6 ≠ u.base →
      exec (.queBaseWrite req c q v) s = .next (modQ s c q.val (fun u => { u with cfgrej := true }))) ∧
    (q.val ≠ 31 → u.en = true → bits v.toNat 29 16 ≠ u.devhi ∨ bits v.toNat 13 0 ≠ u.devlo →
      exec (.queDevWrite req c q v) s = .next (modQ s c q.val (fun u => { u with cfgrej := true }))) ∧
    (q.val ≠ 31 → u.en = true → bits v.toNat 11 8 ≠ u.esize ∨ bits v.toNat 7 0 ≠ u.depth →
      exec (.queCfgWrite req c q v) s = .next (modQ s c q.val (fun u => { u with cfgrej := true }))) ∧
    (q.val = 31 → v.getLsbD 31 = false ∨ bits v.toNat 11 8 < 7 →
      exec (.queCfgWrite req c q v) s = .next (modQ s c q.val (fun u => { u with cfgrej := true })))

/-- R151, R154, R155: the write-back of a corrected word makes it sound and writes no other byte; from the eighth
corrected error of its row in 24 h on, the Survey gets the row as a bank to repair, unless it has it; nothing else
changes while the repaired rows spend no bank. A word that is not due is left. Patrol scrub reads the row that is
next, corrects each correctable word of it, and moves on; a sound row changes nothing else. Log entries 10 and 30 name
the model's choices in it. -/
def Obligations.ScratchpadErrorsAreCorrected : Prop :=
  (∀ (s : State) (c off k : Nat) (loc : Bytes), k = spKey s c (off / 8 * 8) - c * 2 ^ 21 →
    loc = natBytes 1 (tileX s c) ++ natBytes 1 (tileY c) ++ natBytes 1 (k / 32768) ++ natBytes 1 0 ++ natBytes 2 (k / 64 % 512) →
    (spMark s c off ≠ some .corrected → exec (.scratchpadEccWriteback c off) s = .next s) ∧
    (spMark s c off = some .corrected → ∃ t, exec (.scratchpadEccWriteback c off) s = .next t ∧
      ((mget [] s.rowErrs (c * 32768 + k / 64)).length < 8 ∨ BanksHold s c (k / 32768) → t.mem = s.mem ∧
        t.cores = s.cores ∧ t.marks = mdel s.marks (spKey s c (off / 8 * 8))) ∧
      ((mget [] s.rowErrs (c * 32768 + k / 64)).length < 8 → t.survey = s.survey) ∧
      (8 ≤ (mget [] s.rowErrs (c * 32768 + k / 64)).length → SurveyAdds s t 3 loc ∧
        (BanksHold s c (k / 32768) → SurveyGets s t 3 loc)))) ∧
  (∀ (s : State) (c r : Nat), present s c = true → (s.core c).crst = false → (s.core c).spd.scrubEn = true →
    r = (s.core c).spd.scrubAt →
    ∃ t, exec (.patrolScrubRow c) s = .next t ∧ t.mem = s.mem ∧ (t.core c).ctl = (s.core c).ctl ∧
      (t.core c).spd.scrubAt = (r + 1) % 32768 ∧
      (∀ w < 8, mfind s.marks (c * 2 ^ 21 + (64 * r + 8 * w)) = some .correctable →
        mfind t.marks (c * 2 ^ 21 + (64 * r + 8 * w)) = some .corrected) ∧
      (∀ k, mfind s.marks k ≠ some .correctable → mfind t.marks k = mfind s.marks k) ∧
      ((∀ w < 8, mfind s.marks (c * 2 ^ 21 + (64 * r + 8 * w)) = none) → OnlyCore s t c ∧
        (t.core c).spd = { (s.core c).spd with scrubAt := (r + 1) % 32768 })) ∧
  (∀ (s : State) (c : Nat), (s.core c).spd.scrubEn = false → exec (.patrolScrubRow c) s = .next s)

/-- R52, R157 to R161: the scopes admit this device's own partition, this device, and a range of devices. A request in
remote form that a window of the core accepts is performed and answered OK with what it read; one that none accepts is
answered 0x0C, counted and captured, and changes no byte; a core that is absent or under reset answers 2 or 6, the
latter counted at its router (R277). A request in local form is performed for a core of the same partition, and
answered DENIED for any other. Log entries 28, 45 and 80 name the model's choices in it; the clause of R158 rests on
none. -/
def Obligations.RequestsReachTheScratchpad : Prop :=
  (∀ (s : State) (c lo hi sdev spart : Nat),
    (admits s c 0 lo hi sdev spart = true ↔ sdev = s.devId ∧ partOf s c = some spart) ∧
    (admits s c 1 lo hi sdev spart = true ↔ sdev = s.devId) ∧
    (admits s c 2 lo hi sdev spart = true ↔ lo ≤ sdev ∧ sdev ≤ hi)) ∧
  (∀ (s : State) (c rtag : Nat) (r : WinReq), present s c = true → (s.core c).crst = false → MemInv s →
    (∀ i, i < 16 → winPasses s c i r = true → Sound s c r.off r.size →
      (r.op = .read → ∃ t, exec (.remoteRequestArrive c r rtag) s = .next t ∧ t.mem = s.mem ∧
        t.out = s.out ++ [.rdata r.sdev rtag 0 (spBytes s c r.off r.size) []] ∧ (t.core c).ctl = (s.core c).ctl) ∧
      (∀ bs, r.op = .write bs [] → bs.length = r.size → ∃ t, exec (.remoteRequestArrive c r rtag) s = .next t ∧
        t.out = s.out ++ [.answer r.sdev rtag 0 []] ∧ spBytes t c r.off r.size = bs ∧ (t.core c).ctl = (s.core c).ctl ∧
        ∀ x, (∀ j < r.size, x ≠ spKey s c (r.off + j)) → memGet t.mem x = memGet s.mem x)) ∧
    ((∀ i < 16, winPasses s c i r = false) → ∃ t, exec (.remoteRequestArrive c r rtag) s = .next t ∧ t.mem = s.mem ∧
      t.out = s.out ++ [if r.op = .read then .rdata r.sdev rtag 0x0C [] [] else .answer r.sdev rtag 0x0C []] ∧
      (t.core c).spd.winRefuse = satInc (s.core c).spd.winRefuse 1 ∧ (t.core c).spd.log.v = true ∧
      ((s.core c).spd.log.v = true → (t.core c).spd.log = (s.core c).spd.log))) ∧
  (∀ (s : State) (c rtag : Nat) (r : WinReq), (present s c = false → ∃ t, exec (.remoteRequestArrive c r rtag) s = .next t ∧
      t.mem = s.mem ∧ t.cores = s.cores ∧
      t.out = s.out ++ [if r.op = .read then .rdata r.sdev rtag 2 [] [] else .answer r.sdev rtag 2 []]) ∧
    (present s c = true → (s.core c).crst = true → ∃ t, exec (.remoteRequestArrive c r rtag) s = .next t ∧
      t.mem = s.mem ∧ t.cores = s.cores ∧
      t.out = s.out ++ [if r.op = .read then .rdata r.sdev rtag 6 [] [] else .answer r.sdev rtag 6 []] ∧
      ∀ n, n = (tileRouter (tileX s c) (tileY c)).1 → (t.field n).msh.dropRst = satInc (s.field n).msh.dropRst 1)) ∧
  (∀ (s : State) (c : Nat) (r : LocReq), present s c = true → (s.core c).crst = false → MemInv s →
    (∀ p, partOf s r.src = some p → partOf s c = some p → r.off + r.size ≤ 2 ^ 21 → Sound s c r.off r.size →
      (r.op = .read → exec (.localRequestArrive c r) s =
        .next (emit s (.memData (.core r.src) (c * 2 ^ 21 + r.off) 0 (spBytes s c r.off r.size) []))) ∧
      (∀ bs, r.op = .write bs [] → bs.length = r.size → ∃ t, exec (.localRequestArrive c r) s = .next t ∧
        t.out = s.out ++ [.memData (.core r.src) (c * 2 ^ 21 + r.off) 0 [] []] ∧ spBytes t c r.off r.size = bs ∧
        t.cores = s.cores ∧ ∀ x, (∀ j < r.size, x ≠ spKey s c (r.off + j)) → memGet t.mem x = memGet s.mem x)) ∧
    (partOf s c ≠ some ((partOf s r.src).getD 16) → exec (.localRequestArrive c r) s =
      .next (emit { s with cntDenied := s.cntDenied + 1 } (.memData (.core r.src) (c * 2 ^ 21 + r.off) 3 [] []))))

/-- R162, R164, R165, R169, R170, R188: a COPY or FILL, and any descriptor at a busy engine, is queued. An idle engine
binds the queue of a STREAM_IN and consumes what it holds, in order, and sends the first message of a STREAM_OUT. A
refused descriptor faults. Log entries 25 and 27 name the model's choices in it. -/
def Obligations.DmaDescriptorsQueue : Prop :=
  ∀ (s : State) (c : Nat) (e : Fin 4) (i : Issue) (op : DmaOp) (d : DmaDesc) (x : XCmd), Ready s c → x = ⟨i, .dma e op d⟩ →
    (Issuable s c x → (DmaIdle s c e.val ∧ (op = .copy ∨ op = .fill)) ∨ DmaBusy s c e.val →
      ∃ t, exec (dmaInstr c e i d op) s = .next t ∧ Queued s t c x ∧ t.mem = s.mem ∧ OnlyCore s t c) ∧
    (Issuable s c x → DmaIdle s c e.val → op = .streamIn → ∀ u, u = (s.core c).que.q (streamQ d) →
      (u.msgs = [] → ∃ t, exec (dmaInstr c e i d op) s = .next t ∧ Begun s t c x ∧ t.mem = s.mem ∧
        (t.core c).sb = (s.core c).sb ++ engRanges (s.core c) c (s.core c).nextId x.body ∧
        ((t.core c).eng e.val).bound = some (streamQ d)) ∧
      (∀ m, u.msgs = [m] → m.len * 16 < d.len → m.info.endm = false →
        Sound s c (u.slotOff m.slot) (m.len * 16) → u.waiters = [] →
        ∃ t g, exec (dmaInstr c e i d op) s = .next t ∧ Begun s t c x ∧ t.mem = s.mem ∧ g = (t.core c).eng e.val ∧
          g.bound = some (streamQ d) ∧ ((t.core c).que.q (streamQ d)).msgs = [] ∧
          g.bursts.flatMap (fun b => b.data.getD []) ++ g.buf = spBytes s c (u.slotOff m.slot) (m.len * 16))) ∧
    (Issuable s c x → DmaIdle s c e.val → op = .streamOut → ∀ p n, partOf s c = some p → inOwnSp c d.src = true →
      n = min (d.msz * 16) d.len → Sound s c (d.src.toNat % 2 ^ 21) n → d.src.toNat % 2 ^ 21 + n ≤ 2 ^ 21 →
      sendOf s (.dma c e) = none →
      ∃ t, exec (dmaInstr c e i d op) s = .next t ∧ Issued s t c x ∧ t.mem = s.mem ∧
        (∃ g ∈ (t.core c).flights, g.id = (s.core c).nextId ∧ g.body = x.body ∧ g.begun = true) ∧
        sendOf t (.dma c e) = some (oneSend (spBytes s c (d.src.toNat % 2 ^ 21) n) (d.endm && decide (d.len ≤ n))
          (uniDest s (bits d.dst.toNat 15 0) (bits d.dst.toNat 29 16) (bits d.dst.toNat 30 30 == 1)))) ∧
    RefusedOrHeld s c (dmaInstr c e i d op) x

/-- R163, R167: a burst begins where its engine has room and nothing has failed or halted it: it takes the next
number, its bytes come from PAT, or at once from the own scratchpad, or are asked for. DMA_FILL_ARRIVE writes a
burst's data whole at its destination and leaves every other byte; a read that another device refuses returns its
status and writes nothing. Log entries 22, 27 and 45 name the model's choices in it. -/
def Obligations.DmaBurstsMoveTheirBytes : Prop :=
  (∀ (s : State) (c : Nat) (e : Fin 4) (f : Flight) (op : DmaOp) (d : DmaDesc) (g : DmaEng) (n : Nat) (src : W64),
    curDma (s.core c) e.val = some (f, op, d) → g = (s.core c).eng e.val → op = .copy ∨ op = .fill →
    n = min d.burst (d.len - g.off) → src = d.src + BitVec.ofNat 64 (g.row * d.spitch + g.off) →
    (g.row < d.rows → g.bursts.length < 8 → g.bad = none → g.halting = false → g.endStatus = none →
      (op = .copy → inOwnSp c src = true → Sound s c (src.toNat % 2 ^ 21) n) →
      ∃ t b, exec (.dmaBurstSend c e) s = .next t ∧ t.mem = s.mem ∧
        (t.core c).eng e.val = { g with
          row := if d.len ≤ g.off + n then g.row + 1 else g.row
          off := if d.len ≤ g.off + n then 0 else g.off + n
          nextK := g.nextK + 1
          bursts := g.bursts ++ [b] } ∧
        b.k = g.nextK ∧ b.len = n ∧ b.src = src ∧ b.dst = d.dst + BitVec.ofNat 64 (g.row * d.dpitch + g.off) ∧
        b.status = none ∧
        b.data = (if op = .fill then some ((List.range n).map (fun j => BitVec.ofNat 8 (d.pat.toNat / 256 ^ ((g.off + j) % 8))))
          else if inOwnSp c src then some (spBytes s c (src.toNat % 2 ^ 21) n) else none)) ∧
    (d.rows ≤ g.row ∨ 8 ≤ g.bursts.length ∨ g.bad.isSome = true ∨ g.halting = true ∨ g.endStatus.isSome = true →
      exec (.dmaBurstSend c e) s = .next s)) ∧
  (∀ (s : State) (c : Nat) (e : Fin 4) (k : Nat) (f : Flight) (op : DmaOp) (d : DmaDesc) (b : Burst) (p c2 : Nat), MemInv s →
    curDma (s.core c) e.val = some (f, op, d) →
    ((s.core c).eng e.val).bursts.find? (fun b => b.k == k && b.data.isNone && b.status.isNone) = some b →
    partOf s c = some p → present s c2 = true → (s.core c2).crst = false → partOf s c2 = some p →
    b.dst.toNat / 2 ^ 21 = c2 → b.dst.toNat % 2 ^ 21 + b.len ≤ 2 ^ 21 → Sound s c2 (b.dst.toNat % 2 ^ 21) b.len → 0 < b.len →
    op = .copy →
    (∀ c1 status data poison, present s c1 = true → (s.core c1).crst = false → partOf s c1 = some p →
      b.src.toNat / 2 ^ 21 = c1 → b.src.toNat % 2 ^ 21 + b.len ≤ 2 ^ 21 → Sound s c1 (b.src.toNat % 2 ^ 21) b.len →
      ∃ t, exec (.dmaFillArrive c e k status data poison) s = .next t ∧
        spBytes t c2 (b.dst.toNat % 2 ^ 21) b.len = spBytes s c1 (b.src.toNat % 2 ^ 21) b.len ∧
        SpFrame s t c2 (b.dst.toNat % 2 ^ 21) b.len ∧ (t.core c).ctl = (s.core c).ctl ∧
        ∃ b' ∈ ((t.core c).eng e.val).bursts, b'.k = k ∧ b'.status = some 0) ∧
    (∀ data, isRemote b.src = true → remoteDev b.src ≠ s.devId → data.length = b.len →
      (∃ t, exec (.dmaFillArrive c e k 0 data []) s = .next t ∧ spBytes t c2 (b.dst.toNat % 2 ^ 21) b.len = data ∧
        SpFrame s t c2 (b.dst.toNat % 2 ^ 21) b.len ∧
        ∃ b' ∈ ((t.core c).eng e.val).bursts, b'.k = k ∧ b'.status = some 0) ∧
      (∀ status, status = 2 ∨ status = 3 ∨ status = 6 ∨ status = 7 ∨ status = 0x0C →
        ∃ t, exec (.dmaFillArrive c e k status data []) s = .next t ∧ t.mem = s.mem ∧
          ∃ b' ∈ ((t.core c).eng e.val).bursts, b'.k = k ∧
            b'.status = some (if status = 2 then 4 else if status = 3 then 5 else if status = 6 then 8
              else if status = 7 then 9 else 6))))

/-- R166, R168: an acknowledged burst leaves its engine, which counts its bytes, or keeps the first status that is not
OK, and then reads no more (R149). The last burst back ends the descriptor: without notification its tag completes,
and LAST and RESIDUE say how it ended; with one, the notification goes out, and its answer completes the tag with the
descriptor's own status. Log entry 10 names the model's choices in it. -/
def Obligations.DmaDescriptorsEnd : Prop :=
  (∀ (s : State) (c : Nat) (e : Fin 4) (k st : Nat) (f : Flight) (op : DmaOp) (d : DmaDesc) (b : Burst) (g h : DmaEng)
      (status : Nat), curDma (s.core c) e.val = some (f, op, d) → op = .copy ∨ op = .fill → g = (s.core c).eng e.val →
    g.bound = none → g.endStatus = none → g.bursts.find? (fun b => b.k == k) = some b → b.status = some st →
    h = { g with
      bursts := g.bursts.filter (fun x => x.k != k)
      done := if st = 0 then g.done + b.len else g.done
      bad := if st = 0 then g.bad else some (g.bad.getD st) } →
    (h.bursts ≠ [] ∨ (h.bad = none ∧ h.row ≠ d.rows ∧ h.halting = false) →
      exec (.dmaBurstAck c e k status) s =
        .next (if h.bad.isSome then readsDone (modDma s c e.val (fun _ => h)) c f else modDma s c e.val (fun _ => h))) ∧
    (∀ fin, h.bursts = [] → h.bad = some fin ∨ (h.bad = none ∧ h.row = d.rows ∧ fin = 0) ∨
        (h.bad = none ∧ h.row ≠ d.rows ∧ h.halting = true ∧ fin = 2) → NoStreamBehind s c e.val →
      (d.ntf = false → ∃ t, exec (.dmaBurstAck c e k status) s = .next t ∧ Leaves s t c f ∧ t.mem = s.mem ∧
        ((t.core c).eng e.val).last = fin ∧
        ((t.core c).eng e.val).residue = (if fin = 0 then 0 else min (d.rows * d.len - h.done) 0xFFFFFFFF) ∧
        (fin ≠ 0 → (t.core c).ctl.tagErr.getLsbD f.iss.tag.val = true)) ∧
      (d.ntf = true → sendOf s (.dma c e) = none → ∃ t, exec (.dmaBurstAck c e k status) s = .next t ∧
        (t.core c).flights = (s.core c).flights ∧ ((t.core c).eng e.val).noting = true ∧ t.mem = s.mem ∧
        sendOf t (.dma c e) = some (oneSend (notifyBytes d fin (if fin = 0 then 0 else min (d.rows * d.len - h.done) 0xFFFFFFFF))
          false (uniDest s d.nq (d.ndev.toNat % 2 ^ 14) (d.ndev.getLsbD 15)))))) ∧
  (∀ (s : State) (c : Nat) (e : Fin 4) (f : Flight) (op : DmaOp) (d : DmaDesc) (g : DmaEng) (m : Send) (dst : MsgDest)
      (st fin : Nat) (ext : MsgAns), curDma (s.core c) e.val = some (f, op, d) → g = (s.core c).eng e.val → g.noting = true →
    g.endStatus = some fin → sendOf s (.dma c e) = some m → m.mc = false → m.members = [⟨dst, .answered st⟩] →
    NoStreamBehind s c e.val →
    ∃ t, exec (.dmaNotifyAnswer c e ext) s = .next t ∧ Leaves s t c f ∧ ((t.core c).eng e.val).last = fin ∧
      ((t.core c).eng e.val).noting = false ∧ sendOf t (.dma c e) = none ∧ t.mem = s.mem) ∧
  (∀ (s : State) (c : Nat) (e : Fin 4) (f : Flight) (d : DmaDesc) (g : DmaEng) (m : Send) (dst : MsgDest) (ext : MsgAns)
      (st : Nat), curDma (s.core c) e.val = some (f, .streamOut, d) → g = (s.core c).eng e.val → g.noting = false →
    g.bound = none → sendOf s (.dma c e) = some m → m.mc = false → m.members = [⟨dst, .answered st⟩] → d.ntf = false →
    NoStreamBehind s c e.val →
    (st = 0 → g.bad = none → d.len ≤ g.off + m.bytes.length →
      ∃ t, exec (.streamOutMessageAnswer c e ext) s = .next t ∧ Leaves s t c f ∧ ((t.core c).eng e.val).last = 0 ∧
        sendOf t (.dma c e) = none ∧ t.mem = s.mem) ∧
    (st ≠ 0 → ∃ t, exec (.streamOutMessageAnswer c e ext) s = .next t ∧ Leaves s t c f ∧
      ((t.core c).eng e.val).last = (if st = 2 then 4 else if st = 3 then 5 else if st = 4 then 0xA else if st = 5 then 0xB
        else if st = 6 then 8 else 9) ∧ (t.core c).ctl.tagErr.getLsbD f.iss.tag.val = true ∧ t.mem = s.mem) ∧
    (∀ p n, st = 0 → g.bad = none → g.halting = false → g.off + m.bytes.length < d.len → partOf s c = some p →
      present s c = true → (s.core c).crst = false → inOwnSp c d.src = true →
      n = min (d.msz * 16) (d.len - (g.off + m.bytes.length)) → d.src.toNat % 2 ^ 21 + d.len ≤ 2 ^ 21 →
      Sound s c (d.src.toNat % 2 ^ 21 + (g.off + m.bytes.length)) n →
      ∃ t, exec (.streamOutMessageAnswer c e ext) s = .next t ∧ t.mem = s.mem ∧
        ((t.core c).eng e.val).off = g.off + m.bytes.length ∧
        sendOf t (.dma c e) = some (oneSend (spBytes s c (d.src.toNat % 2 ^ 21 + (g.off + m.bytes.length)) n)
          (d.endm && decide (d.len ≤ g.off + m.bytes.length + n))
          (uniDest s (bits d.dst.toNat 15 0) (bits d.dst.toNat 29 16) (bits d.dst.toNat 30 30 == 1)))))

/-- R234 to R240, R244: a queue-unit command at a busy unit is queued. An idle unit begins it: a SEND reads its
message and sends it to its queue, or to every member of a channel of its partition; an EVPOST for another device
leaves; an MCSET awaits its replication; an MCGET writes the image in effect and ends. A channel of another partition
ends its command DENIED. A refused command faults. Log entries 22, 26, 31 and 45 name the model's choices in it. -/
def Obligations.QueueUnitCommandsBegin : Prop :=
  (∀ (s : State) (c : Nat) (i : Issue) (q : QueCmd) (x : XCmd), Ready s c → x = ⟨i, .que q⟩ →
    (Issuable s c x → (∃ g gs, engFlights (s.core c) 6 = g :: gs ∧ g.begun = true) →
      ∃ t, exec (queInstr c i q) s = .next t ∧ Queued s t c x ∧ t.mem = s.mem ∧ OnlyCore s t c) ∧
    RefusedOrHeld s c (queInstr c i q) x) ∧
  (∀ (s : State) (c : Nat) (i : Issue) (d : SendDesc) (x : XCmd), Ready s c → x = ⟨i, .que (.send d)⟩ → Issuable s c x →
    engFlights (s.core c) 6 = [] → Sound s c d.src (d.size * 16) → sendOf s (.que c) = none →
    (∀ gqid dev rem, decodeDest (d.dest.setWidth 64) = some (.uni gqid dev rem) →
      ∃ t, exec (.send c i d) s = .next t ∧ Begun s t c x ∧ t.mem = s.mem ∧
        (∀ r ∈ (t.core c).sb, r.id = (s.core c).nextId → r.write = true) ∧
        sendOf t (.que c) = some (oneSend (spBytes s c d.src (d.size * 16)) d.endm (uniDest s gqid dev rem))) ∧
    (∀ ch p, decodeDest (d.dest.setWidth 64) = some (.mc ch) → partOf s c = some p → chanOwner s ch = some p →
      mcMembers s ch ≠ [] → ∃ t, exec (.send c i d) s = .next t ∧ Begun s t c x ∧ t.mem = s.mem ∧
        sendOf t (.que c) = some { oneSend (spBytes s c d.src (d.size * 16)) d.endm (.local_ 0 0) with
          mc := true, chan := ch, members := (mcMembers s ch).map (fun m => ⟨m, .sent⟩) })) ∧
  (∀ (s : State) (c : Nat) (i : Issue) (d : EvpostDesc) (x : XCmd), Ready s c → x = ⟨i, .que (.evpost d)⟩ →
    Issuable s c x → engFlights (s.core c) 6 = [] →
    ∃ t, exec (.evpost c i d) s = .next t ∧ Begun s t c x ∧ t.mem = s.mem ∧
      t.out = (if tgtDev s d.tgt = s.devId then s.out
        else s.out ++ [.toDev (devPkt s (partNum s c) c 6 (tgtDev s d.tgt) (d.mask.toNat * 2 ^ 32 + d.tgt.toNat % 2 ^ 11)) 0])) ∧
  (∀ (s : State) (c : Nat) (i : Issue) (d : McDesc) (x y : XCmd) (p : Nat), Ready s c → MemInv s →
    x = ⟨i, .que (.mcset d)⟩ → y = ⟨i, .que (.mcget d)⟩ → engFlights (s.core c) 6 = [] → partOf s c = some p →
    (Issuable s c x → chanOwner s d.chan = some p →
      ∃ t, exec (.mcset c i d) s = .next t ∧ Begun s t c x ∧ t.mem = s.mem ∧ t.mchans = s.mchans) ∧
    (Issuable s c y → chanOwner s d.chan = some p → d.resv = false → Sound s c d.img 256 →
      ∃ t, exec (.mcget c i d) s = .next t ∧ EndsAtOnce s t c y ∧ spBytes t c d.img 256 = padTo 256 (mcImage s d.chan) ∧
        SpFrame s t c d.img 256 ∧ t.mchans = s.mchans) ∧
    (chanOwner s d.chan ≠ some p → d.resv = true → Sound s c d.res 16 →
      (Issuable s c x → ∃ t, exec (.mcset c i d) s = .next t ∧ EndsAtOnce s t c x ∧ t.mchans = s.mchans ∧
        spBytes t c d.res 16 = queRecord 0 0 3 ∧ SpFrame s t c d.res 16 ∧
        (t.core c).ctl.tagErr.getLsbD i.tag.val = true) ∧
      (Issuable s c y → ∃ t, exec (.mcget c i d) s = .next t ∧ EndsAtOnce s t c y ∧ t.mchans = s.mchans ∧
        spBytes t c d.res 16 = queRecord 0 0 3 ∧ SpFrame s t c d.res 16 ∧
        (t.core c).ctl.tagErr.getLsbD i.tag.val = true)))

/-- R215, R217, R221 to R224, R227: a message that its queue admits is stored whole in a free entry, behind those
stored, and answered OK; one that it does not admit is refused, counted at the owner, and stores nothing; one that
finds no free entry waits. A blocked QRECV takes it from the queue at once, under the store rule. A message of another
device is answered by its status. Log entries 21, 39 and 45 name the model's choices in it. -/
def Obligations.MessagesArriveAtQueues : Prop :=
  (∀ (s : State) (p : SendPath) (k c q : Nat) (f : Send) (m : MsgMeta) (u : Queue), sendOf s p = some f →
    f.members[k]? = some ⟨.local_ c q, .sent⟩ → f.halting = false → f.poison = [] → present s c = true →
    (s.core c).crst = false → u = (s.core c).que.q q → m = senderMeta s p f → q < 30 →
    (∀ r ∈ u.reserved, r.2 ≠ .path p k) →
    (admits s c u.scope u.devlo u.devhi m.sdev m.spart = true ∨ m.sys = true → u.en = true →
      f.bytes.length ≤ (u.esize + 1) * 16 → 0 < u.freeCount → MemInv s → u.evt = false →
      u.slotOff u.freeSlot + f.bytes.length ≤ 2 ^ 21 → Sound s c (u.slotOff u.freeSlot) f.bytes.length →
      boundBy (s.core c) q = none →
      ((∀ d dst, (s.core c).ctl.blk ≠ .qrecv d q dst) → ∃ t, exec (.queueMessageArrive (.path p k)) s = .next t ∧
        ((t.core c).que.q q).msgs = u.msgs ++ [⟨u.freeSlot, f.bytes.length / 16, m⟩] ∧
        spBytes t c (u.slotOff u.freeSlot) f.bytes.length = f.bytes ∧
        SpFrame s t c (u.slotOff u.freeSlot) f.bytes.length ∧
        sendOf t p = some { f with members := updMember f.members k (.answered 0) }) ∧
      (∀ d dst, (s.core c).ctl.st = .running → (s.core c).ctl.blk = .qrecv d q dst → u.msgs = [] → u.waiters = [] →
        f.bytes.length ≤ 256 → f.bytes.length % 16 = 0 → dst + f.bytes.length ≤ 2 ^ 21 →
        sbWriteStall (s.core c) dst f.bytes.length = false →
        (∀ w ∈ wordsOf dst f.bytes.length, spMark s c w = none) →
        ∃ t, exec (.queueMessageArrive (.path p k)) s = .next t ∧ ((t.core c).que.q q).msgs = [] ∧
          spBytes t c dst f.bytes.length = f.bytes ∧
          RegIs s t c d (recvWord ⟨u.freeSlot, f.bytes.length / 16, m⟩) ∧ GoesTo t c ((s.core c).ctl.pc + 4))) ∧
    (admits s c u.scope u.devlo u.devhi m.sdev m.spart = false → m.sys = false →
      ∃ t, exec (.queueMessageArrive (.path p k)) s = .next t ∧ t.mem = s.mem ∧ ((t.core c).que.q q) = u ∧
        (t.core c).que.refuse = satInc (s.core c).que.refuse 1 ∧ (t.core c).que.rlog.v = true ∧
        sendOf t p = some { f with members := updMember f.members k (.answered 3) }) ∧
    (admits s c u.scope u.devlo u.devhi m.sdev m.spart = true → u.en = false →
      ∃ t, exec (.queueMessageArrive (.path p k)) s = .next t ∧ t.mem = s.mem ∧ ((t.core c).que.q q) = u ∧
        sendOf t p = some { f with members := updMember f.members k (.answered 4) }) ∧
    (admits s c u.scope u.devlo u.devhi m.sdev m.spart = true → u.en = true → (u.esize + 1) * 16 < f.bytes.length →
      ∃ t, exec (.queueMessageArrive (.path p k)) s = .next t ∧ t.mem = s.mem ∧ ((t.core c).que.q q) = u ∧
        sendOf t p = some { f with members := updMember f.members k (.answered 5) }) ∧
    (admits s c u.scope u.devlo u.devhi m.sdev m.spart = true → u.en = true → f.bytes.length ≤ (u.esize + 1) * 16 →
      u.freeCount = 0 → waiterRecords (s.core c).que < 64 →
      ∃ t, exec (.queueMessageArrive (.path p k)) s = .next t ∧ t.mem = s.mem ∧
        ((t.core c).que.q q) = { u with waiters := u.waiters ++ [.path p k] } ∧
        sendOf t p = some { f with members := updMember f.members k .waiting })) ∧
  (∀ (s : State) (e : ExtMsg) (c q : Nat) (u : Queue), c = e.gid / 32 → q = e.gid % 32 → u = (s.core c).que.q q →
    (present s c = false → exec (.queueMessageArrive (.ext e)) s = .next (emit s (.answer e.sdev e.rtag 2 []))) ∧
    (present s c = true → (s.core c).crst = true → ∃ t, exec (.queueMessageArrive (.ext e)) s = .next t ∧
      t.out = s.out ++ [.answer e.sdev e.rtag 6 []] ∧ t.mem = s.mem ∧ t.cores = s.cores) ∧
    (present s c = true → (s.core c).crst = false → (∀ r ∈ u.reserved, r.2 ≠ .ext e.sdev e.rtag) →
      30 ≤ q ∨ admits s c u.scope u.devlo u.devhi e.sdev e.spart = false →
      ∃ t, exec (.queueMessageArrive (.ext e)) s = .next t ∧ t.mem = s.mem ∧ ((t.core c).que.q q) = u ∧
        t.out = s.out ++ [.answer e.sdev e.rtag 3 []]) ∧
    (present s c = true → (s.core c).crst = false → (∀ r ∈ u.reserved, r.2 ≠ .ext e.sdev e.rtag) → q < 30 →
      admits s c u.scope u.devlo u.devhi e.sdev e.spart = true → u.en = true → e.bytes.length ≤ (u.esize + 1) * 16 →
      0 < u.freeCount → u.evt = false → Sound s c (u.slotOff u.freeSlot) e.bytes.length → boundBy (s.core c) q = none →
      (∀ d dst, (s.core c).ctl.blk ≠ .qrecv d q dst) → ∃ t, exec (.queueMessageArrive (.ext e)) s = .next t ∧
        t.out = s.out ++ [.answer e.sdev e.rtag 0 []] ∧
        ((t.core c).que.q q).msgs = u.msgs ++ [⟨u.freeSlot, e.bytes.length / 16,
          ⟨e.spart, e.score, e.sdev, false, false, 0, e.endm⟩⟩]))

/-- R224, R225, R226, R254: a final answer to QSEND writes its status and lets the control unit go on; to a SEND, it
writes its result record and completes it; an answer still on its way changes nothing. A grant lets a waiter send
again, and a sender that found no waiter record sends again after its time: to another device the message leaves once
more. Log entries 10 and 39 name the model's choices in it. -/
def Obligations.SendersLearnTheOutcome : Prop :=
  (∀ (s : State) (c st : Nat) (f : Send) (dst : MsgDest) (d : Reg) (ext : MsgAns), sendOf s (.ctl c) = some f → f.mc = false →
    (s.core c).ctl.blk = .qsend d none → f.halting = false →
    (f.members = [⟨dst, .answered st⟩] → ∃ t, exec (.queueMessageAnswer (.ctl c) ext) s = .next t ∧
      RegIs s t c d (BitVec.ofNat 64 st) ∧ GoesTo t c ((s.core c).ctl.pc + 4) ∧ sendOf t (.ctl c) = none ∧
      t.mem = s.mem ∧ ∀ k, k ≠ c → t.core k = s.core k) ∧
    (∀ k q, f.members = [⟨.local_ k q, .sent⟩] → exec (.queueMessageAnswer (.ctl c) ext) s = .next s)) ∧
  (∀ (s : State) (c st : Nat) (f : Send) (dst : MsgDest) (g : Flight) (gs : List Flight) (d : SendDesc) (ext : MsgAns),
    MemInv s → sendOf s (.que c) = some f → f.mc = false → f.members = [⟨dst, .answered st⟩] →
    engFlights (s.core c) 6 = g :: gs → g.body = .que (.send d) → g.memDetail = none → d.resv = true →
    d.res + 16 ≤ 2 ^ 21 → Sound s c d.res 16 → gs = [] →
    ∃ t, exec (.queueMessageAnswer (.que c) ext) s = .next t ∧ Leaves s t c g ∧ spBytes t c d.res 16 = queRecord 0 0 st ∧
      SpFrame s t c d.res 16 ∧ sendOf t (.que c) = none ∧
      (st ≠ 0 → (t.core c).ctl.tagErr.getLsbD g.iss.tag.val = true) ∧ ∀ k, k ≠ c → t.core k = s.core k) ∧
  (∀ (s : State) (p : SendPath) (k c q rtag : Nat) (f : Send), sendOf s p = some f →
    f.members[k]? = some ⟨.local_ c q, .waiting⟩ → isOrphan p = false →
    ((∃ r ∈ ((s.core c).que.q q).reserved, r.2 = .path p k) → ∃ t, exec (.queueGrantArrive (.path p k) rtag) s = .next t ∧
      sendOf t p = some { f with members := updMember f.members k .granted } ∧ t.mem = s.mem ∧
      ((t.core c).que.q q) = (s.core c).que.q q) ∧
    ((∀ r ∈ ((s.core c).que.q q).reserved, r.2 ≠ .path p k) → exec (.queueGrantArrive (.path p k) rtag) s = .next s)) ∧
  (∀ (s : State) (p : SendPath) (k dev gqid rtag : Nat) (f : Send), sendOf s p = some f →
    f.members[k]? = some ⟨.remote dev gqid, .waiting⟩ → dev ≠ s.devId → isOrphan p = false →
    ∃ t m, exec (.queueGrantArrive (.path p k) rtag) s = .next t ∧ t.mem = s.mem ∧
      sendOf t p = some { f with members := updMember f.members k .granted } ∧
      t.out = s.out ++ [.toDev m f.bytes.length] ∧ m.opc = 4 ∧ m.ddev = dev ∧ m.data = f.bytes) ∧
  (∀ (s : State) (p : SendPath) (k : Nat) (f : Send) (dst : MsgDest), sendOf s p = some f →
    f.members[k]? = some ⟨dst, .unrecorded⟩ → isOrphan p = false →
    ∃ t, exec (.waiterRetryTimer p k) s = .next t ∧ { t with sends := s.sends, out := s.out } = s ∧
      sendOf t p = some { f with members := updMember f.members k .sent } ∧
      (∀ c q, dst = .local_ c q → t.out = s.out) ∧
      (∀ dev gqid, dst = .remote dev gqid → ∃ m, t.out = s.out ++ [.toDev m f.bytes.length] ∧ m.opc = 4 ∧ m.ddev = dev ∧
        m.data = f.bytes))

/-- R233, R238, R241, R242, R244: an EVPOST that its target admits sets flags 32 to 63 under its mask, and its outcome
completes the command; MCSET_COMPLETE puts the image in effect; a multicast completes when its last member's outcome
is final, OK where every one is, else PARTIAL; a forwarded copy that the channel does not admit is refused with
DENIED, and one that it admits goes to the channel's members. Log entries 38, 39 and 45 name the model's choices in
it. -/
def Obligations.EventPostsAndMulticastsComplete : Prop :=
  (∀ (s : State) (c tc : Nat) (f : Flight) (d : EvpostDesc) (u : Que), curEvpost s c = some (f, d) →
    tgtDev s d.tgt = s.devId → tc = d.tgt.toNat % 2 ^ 11 → present s tc = true → (s.core tc).crst = false →
    u = (s.core tc).que → f.status = 0 → f.result = 0 →
    (admits s tc u.evtScope u.evtLo u.evtHi s.devId (partNum s c) = true →
      ∃ t, exec (.evpostArrive (.core c)) s = .next t ∧ t.mem = s.mem ∧
        (t.core tc).que.flags = u.flags ||| d.mask.setWidth 64 <<< 32 ∧
        ∃ g ∈ (t.core c).flights, g.id = f.id ∧ g.status = 0 ∧ g.result = 1) ∧
    (admits s tc u.evtScope u.evtLo u.evtHi s.devId (partNum s c) = false →
      ∃ t, exec (.evpostArrive (.core c)) s = .next t ∧ t.mem = s.mem ∧ (t.core tc).que.flags = u.flags ∧
        (t.core tc).que.refuse = satInc u.refuse 1 ∧ ∃ g ∈ (t.core c).flights, g.id = f.id ∧ g.status = 3 ∧ g.result = 1)) ∧
  (∀ (s : State) (tc sdev spart rtag : Nat) (mask : W32), present s tc = true → (s.core tc).crst = false →
    admits s tc (s.core tc).que.evtScope (s.core tc).que.evtLo (s.core tc).que.evtHi sdev spart = true →
    ∃ t, exec (.evpostArrive (.ext tc mask sdev spart rtag)) s = .next t ∧ t.mem = s.mem ∧
      (t.core tc).que.flags = (s.core tc).que.flags ||| mask.setWidth 64 <<< 32 ∧
      t.out = s.out ++ [.answer sdev rtag 0 []]) ∧
  (∀ (s : State) (c status : Nat) (f : Flight) (d : EvpostDesc), curEvpost s c = some (f, d) → d.resv = false →
    engFlights (s.core c) 6 = [f] → f.memDetail = none → tgtDev s d.tgt ≠ s.devId ∨ f.result = 1 →
    ∃ t, exec (.evpostAnswer c status) s = .next t ∧ Leaves s t c f ∧ t.mem = s.mem ∧
      ((if tgtDev s d.tgt = s.devId then f.status else status) ≠ 0 →
        (t.core c).ctl.tagErr.getLsbD f.iss.tag.val = true)) ∧
  (∀ (s : State) (c : Nat) (f : Flight) (d : McDesc), engFlights (s.core c) 6 = [f] → f.body = .que (.mcset d) →
    f.begun = true → d.resv = false → Sound s c d.img 256 →
    ∃ t, exec (.mcsetComplete c) s = .next t ∧ Leaves s t c f ∧ t.mem = s.mem ∧
      mcImage t d.chan = spBytes s c d.img 256 ∧ ∀ ch, ch ≠ d.chan → mcImage t ch = mcImage s ch) ∧
  (∀ (s : State) (c k st : Nat) (f : Send) (g : Flight) (d : SendDesc) (dst : MsgDest) (ext : MsgAns),
    sendOf s (.que c) = some f → f.mc = true → f.halting = false → f.members[k]? = some ⟨dst, .answered st⟩ →
    ((∃ j m, j ≠ k ∧ f.members[j]? = some m ∧ isFinal m = none) → ∃ t, exec (.mcastMemberAnswer (.que c) k ext) s = .next t ∧
      sendOf t (.que c) = some { f with members := updMember f.members k (.final st) } ∧ t.mem = s.mem ∧
      (t.core c).flights = (s.core c).flights) ∧
    ((∀ j m, j ≠ k → f.members[j]? = some m → (isFinal m).isSome = true) → MemInv s → engFlights (s.core c) 6 = [g] →
      g.body = .que (.send d) → g.memDetail = none → d.resv = true → d.res + 16 ≤ 2 ^ 21 → Sound s c d.res 16 →
      ∃ t n first, exec (.mcastMemberAnswer (.que c) k ext) s = .next t ∧ Leaves s t c g ∧ sendOf t (.que c) = none ∧
        spBytes t c d.res 16 = queRecord n first
          (if st = 0 ∧ (f.members.eraseIdx k).all (fun m => isFinal m == some 0) then 0 else 1))) ∧
  (∀ (s : State) (m : FwdMsg), (fscopeAdmits (mcImage s m.chan) m.sdev = false →
      exec (.mcfwdArrive m) s = .next (emit s (.answer m.sdev m.rtag 3 []))) ∧
    (fscopeAdmits (mcImage s m.chan) m.sdev = true → m.crossed < 4 → mcMembers s m.chan ≠ [] →
      sendOf s (.fwd m.sdev m.rtag) = none → ∃ t f, exec (.mcfwdArrive m) s = .next t ∧ t.mem = s.mem ∧ t.cores = s.cores ∧
        sendOf t (.fwd m.sdev m.rtag) = some f ∧ f.bytes = m.bytes ∧ f.mc = true ∧ f.chan = m.chan ∧
        f.members = (mcMembers s m.chan).map (fun x => ⟨x, .sent⟩)))

/-- R251, R252, Table 7.12: a command of engine 7 is queued behind one under way, and begins at an idle engine: a lock
or an atomic of another device leaves for it. A refused command faults. Log entries 25, 26 and 45 name the model's
choices in it. -/
def Obligations.LockAndAtomicCommandsBegin : Prop :=
  ∀ p ∈ lockTable, ∀ (s : State) (c : Nat) (i : Issue) (d : LockDesc) (x : XCmd), Ready s c → x = ⟨i, .lock p.2 d⟩ →
    (Issuable s c x → (∃ g gs, engFlights (s.core c) 7 = g :: gs ∧ g.begun = true) →
      ∃ t, exec (p.1 c i d) s = .next t ∧ Queued s t c x ∧ t.mem = s.mem ∧ OnlyCore s t c) ∧
    (Issuable s c x → engFlights (s.core c) 7 = [] →
      ∃ t, exec (p.1 c i d) s = .next t ∧ Begun s t c x ∧ t.mem = s.mem ∧ (∀ k, k ≠ c → t.core k = s.core k) ∧
        t.out = s.out ++
          (if isAtomicOp p.2 then
            (if isRemote d.addr && remoteDev d.addr != s.devId then
              [.toDev { devPkt s (partNum s c) c 3 (remoteDev d.addr) (remoteAddr d.addr) with
                  subop := BitVec.ofNat 8 (lockOpCode p.2), wtag := d.wtag, opnd := d.opnd, cmpv := d.cmpv }
                (if d.w64 then 8 else 4)]
            else [])
          else if lockAway s d then
            [.toDev { devPkt s (partNum s c) c 7 (d.ldev.toNat % 2 ^ 14) d.lock with
                subop := BitVec.ofNat 8 (lockOpCode p.2) } 0]
          else [])) ∧
    RefusedOrHeld s c (p.1 c i d) x

/-- R245 to R248, Table 7.10: one request at a lock unit. A free lock goes to who asks, and an abandoned one with its
own status; for a held one an ACQ waits and a TRY is answered BUSY, but the owner is told that it holds it. A release
by the owner frees the lock or passes it to its oldest waiter, and by any other is refused. A reset notice removes the
wait of a requester and abandons its lock, as does a parity error in the lock's state (R469). A requester that the
lock's partition does not admit is answered DENIED. The ACQ of a halted or faulted core does not wait (R253). Log
entries 10, 33 and 45 name the model's choices in it. -/
def Obligations.LockUnitsServeRequests : Prop :=
  ∀ (s : State) (i : Nat) (r : LockReq) (who : LockWho) (l : Lock), i < 3072 → lockReqReal s i r = true →
    who = ⟨r.dev, r.core, r.part⟩ → l = s.lock i →
    (r.kind ≠ .notice → lockAdmits s i r = false →
      exec (.lockRequestArrive i ⟨false, [r]⟩) s = .next (lockReply s who 3 (lockWord l))) ∧
    (r.kind = .acq ∨ r.kind = .try_ → lockAdmits s i r = true →
      (l.st = .free → exec (.lockRequestArrive i ⟨false, [r]⟩) s =
        .next (lockReply (setLock s i ⟨.held who, l.waiters⟩) who 0 (lockWord ⟨.held who, l.waiters⟩))) ∧
      (l.st = .abandoned → exec (.lockRequestArrive i ⟨false, [r]⟩) s =
        .next (lockReply (setLock s i ⟨.held who, l.waiters⟩) who 8 (lockWord ⟨.held who, l.waiters⟩))) ∧
      (∀ o, l.st = .held o → (o.dev ≠ r.dev ∨ o.core ≠ r.core) →
        (r.kind = .acq → (r.dev ≠ s.devId ∨ ((s.core r.core).ctl.st ≠ .halted ∧ (s.core r.core).ctl.st ≠ .faulted)) →
          exec (.lockRequestArrive i ⟨false, [r]⟩) s = .next (setLock s i ⟨l.st, l.waiters ++ [who]⟩)) ∧
        (r.kind = .acq → r.dev = s.devId → (s.core r.core).ctl.st = .halted ∨ (s.core r.core).ctl.st = .faulted →
          ∃ t, exec (.lockRequestArrive i ⟨false, [r]⟩) s = .next t ∧ t.locks = s.locks) ∧
        (r.kind = .try_ → exec (.lockRequestArrive i ⟨false, [r]⟩) s = .next (lockReply s who 9 (lockWord l)))) ∧
      (∀ o, l.st = .held o → o.dev = r.dev → o.core = r.core →
        exec (.lockRequestArrive i ⟨false, [r]⟩) s = .next (lockReply s who 0x0D (lockWord l)))) ∧
    (r.kind = .rel → lockAdmits s i r = true →
      (∀ o, l.st = .held o → o.dev = r.dev → o.core = r.core →
        (l.waiters = [] → exec (.lockRequestArrive i ⟨false, [r]⟩) s = .next (lockReply (setLock s i ⟨.free, []⟩) who 0 (lockWord ⟨.free, []⟩))) ∧
        (∀ w ws, l.waiters = w :: ws → exec (.lockRequestArrive i ⟨false, [r]⟩) s = .next (lockReply
          (lockReply (setLock s i ⟨.held w, ws⟩) w 0 (lockWord ⟨.held w, ws⟩)) who 0 (lockWord ⟨.held w, ws⟩)))) ∧
      ((∀ o, l.st = .held o → o.dev ≠ r.dev ∨ o.core ≠ r.core) →
        exec (.lockRequestArrive i ⟨false, [r]⟩) s = .next (lockReply s who 0x0A (lockWord l)))) ∧
    (r.kind = .notice → ∃ t, exec (.lockRequestArrive i ⟨false, [r]⟩) s = .next t ∧ (∀ j, j ≠ i → t.lock j = s.lock j) ∧
      (∀ w ∈ (t.lock i).waiters, w ∈ l.waiters ∧ ¬(w.dev = r.dev ∧ w.core = r.core)) ∧
      (∀ o, (t.lock i).st = .held o → ¬(o.dev = r.dev ∧ o.core = r.core)) ∧
      (∀ o, l.st = .held o → o.dev = r.dev → o.core = r.core → (∀ w ∈ l.waiters, w.dev = r.dev ∧ w.core = r.core) →
        t.lock i = ⟨.abandoned, []⟩)) ∧
    (∃ t, exec (.lockRequestArrive i ⟨true, []⟩) s = .next t ∧ (∀ j, j ≠ i → t.lock j = s.lock j) ∧
      (l.waiters = [] → t.lock i = ⟨.abandoned, []⟩) ∧ (∀ w ws, l.waiters = w :: ws → t.lock i = ⟨.held w, ws⟩) ∧
      LogGets s t 0x0B 1)

/-- R249, R250, R573: an atomic in local form on a word of its partition leaves what Table 7.12 says, keeps every
other byte, and sends the old word back; an atomic that a window admits does so for another device; in HBM or CSR
space it is DENIED and changes nothing. Log entries 10 and 45 name the model's choices in it. -/
def Obligations.AtomicsReadModifyWrite : Prop :=
  (∀ p ∈ atomicTable, ∀ (s : State) (c c2 off n q : Nat) (f : Flight) (d : LockDesc), MemInv s →
    curLock s c = some (f, p.1, d) → isRemote d.addr = false → d.addr.toNat / 2 ^ 21 = c2 → d.addr.toNat % 2 ^ 21 = off →
    n = (if d.w64 then 8 else 4) → off + n ≤ 2 ^ 21 → present s c2 = true → (s.core c2).crst = false →
    partOf s c = some q → partOf s c2 = some q → Sound s c2 off n → (∀ r ∈ s.lockReplies, r.core ≠ c) →
    ∃ t, exec (.atomicArrive (.core c)) s = .next t ∧ SpFrame s t c2 off n ∧
      t.lockReplies = s.lockReplies ++ [⟨c, 0, BitVec.ofNat 64 (leNat (spBytes s c2 off n))⟩] ∧
      (d.w64 = true → leNat (spBytes t c2 off n) =
        (p.2 64 (BitVec.ofNat 64 (leNat (spBytes s c2 off n))) d.opnd d.cmpv).toNat) ∧
      (d.w64 = false → leNat (spBytes t c2 off n) =
        (p.2 32 (BitVec.ofNat 32 (leNat (spBytes s c2 off n))) (d.opnd.setWidth 32) (d.cmpv.setWidth 32)).toNat)) ∧
  (∀ p ∈ atomicTable, ∀ (s : State) (c rtag : Nat) (r : WinReq) (x k : W64), MemInv s → present s c = true →
    (s.core c).crst = false → r.op = .atomic p.1 true x k → r.size = 8 → (∃ i < 16, winPasses s c i r = true) →
    Sound s c r.off 8 →
    ∃ t, exec (.atomicArrive (.ext c r rtag)) s = .next t ∧ SpFrame s t c r.off 8 ∧
      t.out = s.out ++ [.answer r.sdev rtag 0 (spBytes s c r.off 8)] ∧
      leNat (spBytes t c r.off 8) = (p.2 64 (BitVec.ofNat 64 (leNat (spBytes s c r.off 8))) x k).toNat) ∧
  (∀ p ∈ atomicTable, ∀ (s : State) (c rtag : Nat) (r : WinReq) (x k : W64), MemInv s → present s c = true →
    (s.core c).crst = false → r.op = .atomic p.1 false x k → r.size = 4 → (∃ i < 16, winPasses s c i r = true) →
    Sound s c r.off 4 →
    ∃ t, exec (.atomicArrive (.ext c r rtag)) s = .next t ∧ SpFrame s t c r.off 4 ∧
      t.out = s.out ++ [.answer r.sdev rtag 0 (spBytes s c r.off 4)] ∧
      leNat (spBytes t c r.off 4) =
        (p.2 32 (BitVec.ofNat 32 (leNat (spBytes s c r.off 4))) (x.setWidth 32) (k.setWidth 32)).toNat) ∧
  (∀ (s : State) (c : Nat) (f : Flight) (op : LockOp) (d : LockDesc), curLock s c = some (f, op, d) → isAtomicOp op = true →
    isRemote d.addr = false → isHbm d.addr.toNat = true ∨ isCsr d.addr.toNat = true → (∀ r ∈ s.lockReplies, r.core ≠ c) →
    exec (.atomicArrive (.core c)) s =
      .next { s with cntDenied := s.cntDenied + 1, lockReplies := s.lockReplies ++ [⟨c, 3, 0⟩] })

/-- R251: the reply of a lock unit, or an atomic's, completes the command of engine 7: its record holds the value and
the status, its event flag is set, and its tag's ERR bit is set by every status but OK and BUSY. Log entry 22 names
the model's choices in it. -/
def Obligations.LockAndAtomicRepliesComplete : Prop :=
  ∀ (s : State) (c : Nat) (f : Flight) (op : LockOp) (d : LockDesc) (i : Instr) (status : Nat) (val : W64) (st : Nat) (v : W64),
    MemInv s → curLock s c = some (f, op, d) → engFlights (s.core c) 7 = [f] → f.memDetail = none →
    i = (if isAtomicOp op then .atomicReplyArrive c status val else .lockReplyArrive c status val) →
    d.res + 16 ≤ 2 ^ 21 → Sound s c d.res 16 →
    (if (if isAtomicOp op then isRemote d.addr && remoteDev d.addr != s.devId else lockAway s d) then st = status ∧ v = val
      else s.lockReplies.find? (fun r => r.core == c) = some ⟨c, st, v⟩) →
    ∃ t, exec i s = .next t ∧ Leaves s t c f ∧ (∀ k, k ≠ c → t.core k = s.core k) ∧
      (d.resv = true → spBytes t c d.res 16 = natBytes 8 v.toNat ++ natBytes 1 st ++ natBytes 7 0 ∧ SpFrame s t c d.res 16) ∧
      (d.resv = false → t.mem = s.mem) ∧
      (t.core c).que.flags = (if d.eve then (s.core c).que.flags ||| BitVec.ofNat 64 (2 ^ d.evf) else (s.core c).que.flags) ∧
      (t.core c).ctl.tagErr.getLsbD f.iss.tag.val =
        ((s.core c).ctl.tagErr.getLsbD f.iss.tag.val || decide (st ≠ 0 ∧ st ≠ 9))

/-- R261 to R264, R271, R469: a router sends a packet X before Y on VC0 and Y before X on VC1, or by the overlay entry
that matches it; at its tile it leaves to the core or the edge die. The output takes it where its class has weight for
it, and sends its flits on while it has credits: what has no credit waits in its input buffer, and holds the output.
The flits of a packet from the local port count as sent by its core. Nothing goes on to a crossing that is dead or
being quiesced (R30, R32), for which a header waits; a destination that does not exist answers UNMAPPED. A weight
reaches every field. R261, R277 to R279: a packet is delivered at its core or die; at a core under reset, or a die
that is off, it is discarded whole, counted and captured, and a request among them is answered DEST_RESET; one that
ends with an abort tail is delivered to no one. Log entries 4, 40 and 45 name the model's choices in it. -/
def Obligations.PacketsAreForwardedAndDelivered : Prop :=
  (∀ (s : State) (n r tx ty x y : Nat) (here : MeshPort) (k : Packet), destTile s k.dest = some (tx, ty, here) →
    routerTile n r = (x, y) → (∀ c, k.dest = .core c → badEntry s 2 (8 + n) (groupOf c) = false) →
    (ovlOf s n r k tx ty = none → k.vc1 = false → hopOf s n r k =
      .go (if tx < x then .west else if x < tx then .east else if ty < y then .north else if y < ty then .south else here) false false) ∧
    (ovlOf s n r k tx ty = none → k.vc1 = true → hopOf s n r k =
      .go (if ty < y then .north else if y < ty then .south else if tx < x then .west else if x < tx then .east else here) true false) ∧
    (∀ e o b, ovlOf s n r k tx ty = some e → badEntry s 1 (8 + n) (16 * r + e) = false →
      b = (mget (0, 0) (s.field n).msh.ovl (16 * r + e)).2 → outOf (b.toNat % 8) = some o →
      hopOf s n r k = .go o (k.vc1 || b.getLsbD 3) true)) ∧
  (∀ (s : State) (n r : Nat) (k : Packet) (o : MeshPort) (vc byOvl : Bool), n < 12 → r < 104 → routerDead s n r = false →
    domOf s (96 + n) = .on → hopOf s n r k = .go o vc byOvl → bufOf s n r = [] →
    (linkOpen s n r k.plane o = true → 0 < creditsOf s n r k.plane o vc 1 → clsOf s k < 17 →
      k.flits ≤ 16 * weightOf s n (clsOf s k) → ∃ t m, exec (.packetRoute n r [k] []) s = .next t ∧
        t.out = s.out ++ [.mesh (routerBlk n r) o vc k] ∧ t.mem = s.mem ∧ t.cores = (sentFlits s k).cores ∧
        m = creditsOf s n r k.plane o vc k.flits ∧
        bufOf t n r = if m < k.flits then [⟨k, k.flits - m, some (o, vc)⟩] else []) ∧
    (linkOpen s n r k.plane o = false → ∃ t, exec (.packetRoute n r [k] []) s = .next t ∧ t.out = s.out ∧ t.mem = s.mem ∧
      t.cores = (sentFlits s k).cores ∧ bufOf t n r = [⟨k, k.flits, none⟩])) ∧
  (∀ (s : State) (n r : Nat) (k : Packet), n < 12 → r < 104 → routerDead s n r = false → domOf s (96 + n) = .on →
    bufOf s n r = [] → destTile s k.dest = none →
    exec (.packetRoute n r [k] []) s = .next (emit (countStatus s (pktPart s k) .unmapped) (.meshRefuse (routerBlk n r) 2 k))) ∧
  (∀ (s : State) (p : Nat), p < 16 → ∃ t, exec (.weightPropagate p) s = .next t ∧ t.mem = s.mem ∧ t.cores = s.cores ∧
    ∀ n < 12, ∀ q, mget 16 (t.field n).msh.weights q =
      if q = p then cfgNum s 0x40 0x20 p 16 else mget 16 (s.field n).msh.weights q) ∧
  (∀ (s : State) (k : Packet) (tx ty n r : Nat) (out : MeshPort), destTile s k.dest = some (tx, ty, out) →
    tileRouter tx ty = (n, r) →
    (∀ off, off = (match k.dest with
        | .core c => (s.core c).crst
        | .edge die _ => dieOff s die
        | .field _ => false) →
      (k.abort = false → off = false → ∃ t, exec (.meshPacketDeliver k) s = .next t ∧
        t.out = s.out ++ [.mesh (routerBlk n r) out k.vc1 k] ∧ t.mem = s.mem ∧ t.fields = s.fields) ∧
      (k.abort = false → off = true → ∃ t, exec (.meshPacketDeliver k) s = .next t ∧ t.mem = s.mem ∧ t.cores = s.cores ∧
        (t.field n).msh.dropRst = satInc (s.field n).msh.dropRst 1 ∧ (t.field n).msh.dropLog.v = true ∧
        ((s.field n).msh.dropLog.v = true → (t.field n).msh.dropLog = (s.field n).msh.dropLog) ∧
        t.out = s.out ++ (if k.kind = .readReq ∨ k.kind = .bulk ∨ k.kind = .store then [.meshRefuse (routerBlk n r) 6 k] else []))) ∧
    (k.abort = true → ∃ t, exec (.meshPacketDeliver k) s = .next t ∧ t.out = s.out ∧ t.mem = s.mem ∧ t.cores = s.cores))

/-- R29 to R32, R38, R266, R477, R572, Table 2.2: resends of a wire group count at the seam, and more than 16 in 1 ms
put its wire down for steering and have its crossing quiesced. A quiesced crossing steers up to two failed wires of a
group to its spares and records that; with more, its link is dead on that plane, and new overlays stand in every field
(R265). A crossing that is not quiesced keeps its steering. A service signal that loses two wires is fatal. A router
that fails is recorded, an idle spare takes over its tile, and a compute reset follows; as its fabric has drained, a
field whose port is on a dead router has it at the other. Log entries 10 and 13 name the model's choices in it. -/
def Obligations.SeamsAndRoutersFail : Prop :=
  (∀ (s : State) (seam x plane dir group wire k : Nat),
    (k ≤ 16 → exec (.seamResendBurst seam x plane dir group wire k) s =
      .next (modMsh s (seamOwner seam x) (fun m => { m with seamRetry := satInc m.seamRetry k }))) ∧
    (16 < k → ∃ t, exec (.seamResendBurst seam x plane dir group wire k) s = .next t ∧
      (t.field (seamOwner seam x)).msh.seamRetry = satInc (s.field (seamOwner seam x)).msh.seamRetry k ∧
      (wireKey plane dir group, wire) ∈ (t.seam seam x).due ∧ (t.seam seam x).steer = (s.seam seam x).steer ∧
      (s.wake.mgmt = false → (t.seam seam x).quiet = true) ∧
      t.mem = s.mem ∧ t.cores = s.cores)) ∧
  (∀ (s : State) (seam x : Nat) (ts : List WireTest), (s.seam seam x).quiet = false → exec (.crossingQuiesced seam x ts) s = .next s) ∧
  (∀ (s : State) (seam x plane dir group v w : Nat), (s.seam seam x).due = [] → (s.seam seam x).quiet = true →
    mget Steer.reset (s.seam seam x).steer (wireKey plane dir group) = Steer.reset → v < 32 → w < 32 → v ≠ w →
    (∃ t, exec (.crossingQuiesced seam x [⟨plane, dir, group, [w], false, false⟩]) s = .next t ∧
      mget Steer.reset (t.seam seam x).steer (wireKey plane dir group) = ⟨w, 0x3F⟩ ∧
      SurveyGets s t 4 ([seam, x, plane, dir, group, w, 0x3F].map (BitVec.ofNat 8)) ∧
      crossingDead (t.seam seam x) .a = crossingDead (s.seam seam x) .a ∧ (t.seam seam x).quiet = false ∧ t.cores = s.cores) ∧
    (∃ t, exec (.crossingQuiesced seam x [⟨plane, dir, group, [v, w], false, false⟩]) s = .next t ∧
      mget Steer.reset (t.seam seam x).steer (wireKey plane dir group) = ⟨v, w⟩ ∧
      SurveyGets s t 4 ([seam, x, plane, dir, group, v, w].map (BitVec.ofNat 8))) ∧
    (∃ t, exec (.crossingQuiesced seam x [⟨plane, dir, group, [v, w], true, false⟩]) s = .next t ∧
      crossingDead (t.seam seam x) (if plane = 0 then .a else .b) = true ∧ (t.seam seam x).quiet = false ∧
      (seam < 16 → x < 64 → crossingDead (s.seam seam x) (if plane = 0 then .a else .b) = false →
        ∃ g, ∀ n < 12, (t.field n).msh.gen = g) ∧
      SurveyGets s t 5 ([seam, x, plane].map (BitVec.ofNat 8)))) ∧
  (∀ (s : State) (n seam sig wire failed : Nat), ∃ t, exec (.serviceWireDisagree n seam ⟨sig, wire⟩ failed) s = .next t ∧
    (t.field n).msh.seamRetry = satInc (s.field n).msh.seamRetry 1 ∧ (failed ≤ 1 → t.dev = s.dev) ∧
    (2 ≤ failed → s.dev ≠ .off → s.dev ≠ .held → t.dev = .faulted ∧ ∀ p < 16, (t.part p).hDevice = true)) ∧
  (∀ (s : State) (n r g col : Nat), g = 8 * n + r / 13 → col = r % 13 → g < 96 → (s.grp g).rdead.testBit col = false →
    col ≠ 12 → (s.grp g).lost = false → (s.grp g).skip = 12 → (s.grp g).remap = none →
    ((s.grp g).tdead ||| (s.grp g).rdead).testBit 12 = false → routerDead s n 45 = false → r ≠ 45 →
    ∃ t, exec (.routerFail n r) s = .next t ∧ (t.grp g).rdead = (s.grp g).rdead ||| 2 ^ col ∧
      (t.grp g).remap = some ⟨col, false⟩ ∧ bufOf t n r = [] ∧
      SurveyAdds s t 1 (natBytes 1 (routerTile n r).1 ++ natBytes 1 (routerTile n r).2 ++ natBytes 1 2) ∧
      (s.dev = .ready ∨ s.dev = .degraded → t.dev = .waking ∧ t.wake.compute = true ∧ ∀ c < 1152, (t.core c).crst = true)) ∧
  (∀ (s : State) (n : Nat), s.wake.compute = true → s.wake.drained = false → n < 12 →
    ∃ t, exec .computeResetDrainEnd s = .next t ∧ (t.field n).msh.atRow3 = routerDead s n 58)

/-- R284 to R290, R295, Table 9.2: a port without lock or with a bad module goes DOWN; one without failed lanes enters
its gate, and so does one whose failed lane of one direction a spare of that direction carries; another is EXCLUDED. A
gate passes at an error ratio of 1 × 10⁻⁵ or less on every lane; a port that a cold start's gate excludes again is
confirmed (R45). A TRAIN frame that passes its CRC and its tag settles version, partner and credits. Three windows
above 1 × 10⁻⁴, or more than 100 uncorrectable codewords in one, reset the port, and the third reset within 600 s
excludes it. A port that loses signal goes DOWN and later trains again. A module that offers the application is set up
once. Log entries 10, 13, 53 and 54 name the model's choices in it. -/
def Obligations.PortsTrainAndFall : Prop :=
  (∀ (s : State) (p : Nat) (r : TrainResult), p < 40 → (s.port p).st = .training ∨ (s.port p).st = .resetting →
    ∃ t, exec (.portTrainingDone p r) s = .next t ∧ PortOnly s t p ∧
      (r.locked = false ∨ r.moduleOk = false → (t.port p).st = .down) ∧
      (r.locked = true → r.moduleOk = true →
        (r.failed = 0 → r.failedTx = 0 → (t.port p).st = .gate) ∧
        (r.failed ≠ 0 ∨ r.failedTx ≠ 0 → (s.port p).eth = true ∨ r.steerable = false ∨ (s.port p).steer = false →
          (t.port p).st = .excluded) ∧
        (∀ dir < 2, ∀ k < 4, r.failed = (if dir = 0 then BitVec.ofNat 4 (2 ^ k) else 0) →
          r.failedTx = (if dir = 0 then 0 else BitVec.ofNat 4 (2 ^ k)) →
          (s.port p).eth = false → r.steerable = true → (s.port p).steer = true →
          ∀ d x, d = (mget LinkDie.reset s.links.dies (p / 5)).spares →
          x = (if p % 5 < 3 ∧ mfind d (2 * dir) = none then 0 else 1) →
          (mfind d (2 * dir + x) ≠ none → (t.port p).st = .excluded) ∧
          (mfind d (2 * dir + x) = none → (t.port p).st = .gate ∧
            (t.port p).lsteer = (s.port p).lsteer ||| BitVec.ofNat 4 (2 ^ k) ∧
            mfind (mget LinkDie.reset t.links.dies (p / 5)).spares (2 * dir + x) = some (p % 5) ∧
            (s.wake.start = none → SurveyGets s t 8 (natBytes 1 (p / 5) ++ natBytes 1 (4 * (p % 5) + k))))))) ∧
  (∀ (s : State) (p : Nat) (lanes : List (Nat × Nat)), p < 40 → (s.port p).st = .gate → (s.port p).gated = false →
    ∃ t, exec (.berGateEnd p lanes) s = .next t ∧ PortOnly s t p ∧
      ((∀ x ∈ lanes, x.1 * 100000 ≤ x.2) → (s.port p).eth = true → (t.port p).st = .admitted) ∧
      ((∀ x ∈ lanes, x.1 * 100000 ≤ x.2) → (s.port p).eth = false → (t.port p).st = .gate ∧ (t.port p).gated = true ∧
        ∃ f, t.out = s.out ++ [.trainFrame p f ⟨3, s.devId, p, [1088, 1088, 1088, 1088], (s.port p).steer, false⟩] ∧
          f.type_ = 4 ∧ f.enc = bundleSealed s p ∧ f.crcOk = true) ∧
      ((∃ x ∈ lanes, x.2 < x.1 * 100000) → (t.port p).st = .excluded ∧ ∀ r loc, s.wake.start = some r → r.warm = false →
        loc = natBytes 1 p ++ natBytes 3 0 ++ natBytes 4 (t.port p).ber.toNat →
        (isLive s 9 (padTo 12 loc) = false → SurveyGets s t 9 loc) ∧
        (isLive s 9 (padTo 12 loc) = true → (∀ e ∈ liveEntries s 9 (padTo 12 loc), e.prov = true ∧ e.seq < r.seq0) →
          s.wake.mgmt = false → s.survey.room = true → ∃ e, t.survey.entries = s.survey.entries ++ [e] ∧ e.type_ = 9 ∧
            e.loc = padTo 12 loc ∧ e.prov = false ∧ e.revoke = false))) ∧
  (∀ (s : State) (p : Nat) (f : Frame) (b : TrainBody), p < 40 → (s.port p).eth = false → (s.port p).st = .gate →
    (s.port p).gated = true →
    (f.crcOk = false → exec (.trainFrame p ⟨f, b⟩) s = .next s) ∧
    (f.crcOk = true → bundleSealed s p = true → f.tagOk = false → (s.port p).tagAt.length < 16 →
      ∃ t, exec (.trainFrame p ⟨f, b⟩) s = .next t ∧ PortOnly s t p ∧ (t.port p).st = .gate ∧
        (t.port p).tagf = satInc (s.port p).tagf 1)) ∧
  (∀ (s : State) (p : Nat) (f : Frame) (b : TrainBody), p < 40 → (s.port p).eth = false → (s.port p).st = .gate →
    (s.port p).gated = true → f.crcOk = true → (bundleSealed s p = true → f.tagOk = true) → b.malformed = false →
    (b.vmask.toNat % 4 = 0 → ∃ t g, exec (.trainFrame p ⟨f, b⟩) s = .next t ∧ t.out = s.out ++ [.frame p g] ∧ g.type_ = 2 ∧
      g.cause = 5 ∧ (t.port p).st = .gate) ∧
    (b.vmask.toNat % 4 ≠ 0 → b.dev = s.devId → ∃ t, exec (.trainFrame p ⟨f, b⟩) s = .next t ∧ PortOnly s t p ∧
      (t.port p).st = .training ∧ (t.port p).pdev = b.dev ∧ (t.port p).pport = b.port) ∧
    (b.vmask.toNat % 4 ≠ 0 → b.dev ≠ s.devId →
      (s.port p).bv = false ∨ cfgNum s 0x50 0x0201 (s.port p).bundle 0 ≠ 1 ∨ b.vmask.getLsbD 1 = true →
      ∃ t, exec (.trainFrame p ⟨f, b⟩) s = .next t ∧ PortOnly s t p ∧ (t.port p).st = .admitted ∧
        (t.port p).ver = (if b.vmask.getLsbD 1 then 2 else 1) ∧
        (t.port p).enc = ((s.port p).bv && cfgNum s 0x50 0x0201 (s.port p).bundle 0 == 1) ∧ (t.port p).pdev = b.dev ∧
        (t.port p).pport = b.port ∧ (t.port p).unacked = [] ∧ (t.port p).rxSeq = 0 ∧
        ∀ v < 4, (t.port p).vc v = { LinkVc.reset with txCred := b.credits.getD v 0 }) ∧
    (b.vmask.toNat % 4 = 1 → b.dev ≠ s.devId → (s.port p).bv = true → cfgNum s 0x50 0x0201 (s.port p).bundle 0 = 1 →
      exec (.trainFrame p ⟨f, b⟩) s = .next s)) ∧
  (∀ (s : State) (p errors bits uncor bad : Nat), p < 40 → (s.port p).st = .admitted →
    bad = (if bits < errors * 10000 then (s.port p).badWin + 1 else 0) →
    ∃ t, exec (.berWindowEnd p errors bits uncor) s = .next t ∧ t.mem = s.mem ∧ t.cores = s.cores ∧
      (t.port p).uncor = satInc (s.port p).uncor uncor ∧
      (bad < 3 → uncor ≤ 100 → (t.port p).st = .admitted ∧ (t.port p).badWin = bad ∧ t.out = s.out) ∧
      (3 ≤ bad ∨ 100 < uncor → (t.port p).st =
        if 2 ≤ ((s.port p).resets.filter (fun x => decide (s.now < x + 600000000000))).length then .excluded else .resetting)) ∧
  (∀ (s : State) (p : Nat), p < 40 → ∃ t, exec (.portSignalLoss p) s = .next t ∧ t.mem = s.mem ∧ t.cores = s.cores ∧
    (t.port p).st = (match (s.port p).st with
      | .training | .gate | .admitted | .resetting => .down
      | x => x)) ∧
  (∀ (s : State) (p : Nat), p < 40 → (s.port p).st = .down →
    (∀ m, (s.port p).module = some m → m.present = true ∧ m.app = true ∧ m.fault = false) →
    ∃ t, exec (.portRetrainTimer p) s = .next t ∧ t.mem = s.mem ∧ t.cores = s.cores ∧ (t.port p).lsteer = 0 ∧
      (t.port p).st = (if (s.port p).en = true ∧ domOf s (108 + p / 5) = .on then .training else .disabled)) ∧
  (∀ (s : State) (l : Nat) (ms : List (Option CmisStatus)), l < 8 → ∃ t, exec (.cmisPoll l ms) s = .next t ∧ t.mem = s.mem ∧
    t.cores = s.cores ∧ ∀ i < 5, (t.port (5 * l + i)).module = (ms[i]?).join ∧
      (t.port (5 * l + i)).st =
        (if moduleGood (ms[i]?).join = false ∧ portAlive (s.port (5 * l + i)) = true then .down
          else (s.port (5 * l + i)).st) ∧
      ∀ m, ms[i]? = some (some m) → m.present = true → m.app = true → (t.port (5 * l + i)).modInit = true ∧
        ((s.port (5 * l + i)).modInit = false → ∀ a, .cmis l i a ∈ t.out))

/-- R291 to R294, R315, R317, R318, R387: a frame in order is taken, and a packet that it holds whole goes on; one
that fails its CRC or its order is asked for once by a NAK. IDLE and NAK carry acknowledgement and credit; a NAK of
cause REPLAY, or 2 µs without progress, resends what is unacknowledged. Beacons carry the Echo time and the distance
in a frame with its SEQ and acknowledgement, and are stamped as they arrive; a KEY frame for the slot that was asked
for changes the slot, for its whole bundle. Log entries 45, 52 and 54 name the model's choices in it. -/
def Obligations.LinkFramesAreAcknowledged : Prop :=
  (∀ (s : State) (p : Nat) (f : Frame), nativeUp s p = true → f.crcOk = false ∨ (FrameOk s p f ∧ f.seq ≠ (s.port p).rxSeq) →
    ∃ t, exec (.dataFrame p f) s = .next t ∧ PortOnly s t p ∧ (t.port p).rxSeq = (s.port p).rxSeq ∧ (t.port p).nakOut = true ∧
      ((s.port p).nakOut = true → t.out = s.out) ∧
      ((s.port p).nakOut = false → ∃ g, t.out = s.out ++ [.frame p g] ∧ g.type_ = 2 ∧ g.cause = 1 ∧ g.seqc = (s.port p).rxSeq)) ∧
  (∀ (s : State) (p : Nat) (f : Frame) (k : LinkPkt), FrameOk s p f → f.seq = (s.port p).rxSeq → f.flits = [.header k] →
    ((s.port p).vc f.vc.toNat).rx = .none → ((s.port p).vc f.vc.toNat).rxUsed + ((s.port p).vc f.vc.toNat).credRet < 1088 → knownOpc k.opc = true → k.len = 0 →
    srcAdmits s p k.sdev = true →
    ∃ t, exec (.dataFrame p f) s = .next t ∧ t.mem = s.mem ∧ t.cores = s.cores ∧ (t.port p).rxSeq = (s.port p).rxSeq + 1 ∧
      (t.port p).nakOut = false ∧ .linkPkt p { k with data := [], vc1 := decide (f.vc.toNat % 2 = 1) } ∈ t.out) ∧
  (∀ (s : State) (p : Nat) (f : Frame), FrameOk s p f → (∀ v, ((s.port p).vc v).txPkts = [] ∧ ((s.port p).vc v).txCur = []) →
    ∃ t, exec (.idleFrame p f) s = .next t ∧ PortOnly s t p ∧ t.out = s.out ∧ (t.port p).unacked = stillSent s p f ∧
      ((t.port p).vc f.credVc.toNat).txCred = ((s.port p).vc f.credVc.toNat).txCred + f.cred) ∧
  (∀ (s : State) (p : Nat) (f : Frame), FrameOk s p f → ∃ t, exec (.nakFrame p f) s = .next t ∧ PortOnly s t p ∧
    (t.port p).unacked = stillSent s p f ∧ (t.port p).lastNak = some (f.cause.toNat, f.seqc.toNat) ∧
    t.out = s.out ++ (if f.cause = 1 then
      ((stillSent s p f).dropWhile (fun g => g.frame.seq != f.seqc)).map (fun g => .frame p g.frame) else [])) ∧
  (∀ (s : State) (p : Nat), nativeUp s p = true → ∃ t, exec (.replayTimeout p) s = .next t ∧ PortOnly s t p ∧
    t.out = s.out ++ (s.port p).unacked.map (fun g => .frame p g.frame) ∧ (t.port p).unacked = (s.port p).unacked ∧
    (t.port p).replay = if (s.port p).unacked = [] then (s.port p).replay else satInc (s.port p).replay 1) ∧
  (∀ (s : State) (p : Nat), nativeUp s p = true → ∃ t f b, exec (.beaconSend p) s = .next t ∧
    t.out = s.out ++ [.beacon p f b] ∧ PortOnly s t p ∧ f.type_ = 3 ∧ f.seq = (s.port p).txSeq ∧ f.ack = (s.port p).rxSeq - 1 ∧
    f.enc = (s.port p).enc ∧ b.sent = dieEcho s (p / 5) ∧ b.dev = s.devId ∧
    b.dist = BitVec.ofNat 8 s.ech.dist ∧ ∀ r, (s.port p).beacon = some r → b.lastTx = r.sent ∧ b.lastRx = r.arrived) ∧
  (∀ (s : State) (p : Nat) (f : Frame) (b : Beacon), FrameOk s p f → (∀ q, q ≠ p → (s.port q).beacon = none) →
    cfgNum s 0x20 0x0011 0 1 = 1 → cfgNum s 0x20 0x0013 0 0 = 0 → b.dist.toNat < 255 →
    ∃ t, exec (.beaconFrame p ⟨f, b⟩) s = .next t ∧ PortOnly s t p ∧
      (t.port p).beacon = some { b with arrived := dieEcho s (p / 5) } ∧ (t.port p).unacked = stillSent s p f ∧ t.ech.src = 1 ∧
      t.ech.upPort = some p ∧ t.ech.dist = b.dist.toNat + 1 ∧
      (b.lastTx ≠ 0 → t.ech.pend =
        (((b.lastRx.toNat : Int) - b.lastTx.toNat) + ((b.sent.toNat : Int) - (dieEcho s (p / 5)).toNat)) / 2)) ∧
  (∀ (s : State) (p : Nat) (f : Frame), FrameOk s p f →
    ((s.port p).keyWant = some f.keyid → ∃ t, exec (.keyFrame p f) s = .next t ∧ PortOnly s t p ∧ t.out = s.out ∧
      (t.port p).keyid = f.keyid ∧ (t.port p).keyWant = none ∧ mget false t.links.keyUse (s.port p).bundle = f.keyid) ∧
    ((s.port p).keyWant ≠ some f.keyid →
      (mfind s.links.keys (2 * (s.port p).bundle + (if f.keyid then 1 else 0))).isSome = true →
      ∃ t g, exec (.keyFrame p f) s = .next t ∧ PortOnly s t p ∧ t.out = s.out ++ [.frame p g] ∧ g.type_ = 5 ∧
        g.keyid = f.keyid ∧ (t.port p).keyid = f.keyid ∧ mget false t.links.keyUse (s.port p).bundle = f.keyid))

/-- R247, R302 to R310, R314, R315, R321: a packet in transit that reaches the hop limit, or is of an epoch that is
not held, is answered ABORTED, one without a route UNMAPPED, and one whose entry has KIND 2 is for this device. A
core's packet for a bundle of another partition is DENIED. A stalled packet for this device is discarded, counted and
answered ABORTED. A remote command without an answer ends ABORTED. An epoch takes effect in every copy, its
predecessor held until it expires. Log entries 45, 52 and 55 name the model's choices in it. -/
def Obligations.LinkPacketsAreRouted : Prop :=
  (∀ (s : State) (l inp : Nat) (planeB : Bool) (k : LinkPkt) (b : Nat) (e : W32) (x : BitVec 8), l < 8 → inp < 5 →
    x = s.links.epochOf l → b = (if (k.epoch - x).toNat < 128 then x.toNat % 2 else (x.toNat + 1) % 2) →
    e = rtEntry s.links l b k.ddev →
    (cfgNum s 0x50 0x0013 0 32 ≤ k.hops + 1 → ∃ t, exec (.linkPacketRoute ⟨l, inp⟩ planeB k) s = .next t ∧
      t.links.cntHop = s.links.cntHop + 1 ∧ t.out = s.out ++ refusal k 7 ∧ t.mem = s.mem ∧ t.cores = s.cores) ∧
    (k.hops + 1 < cfgNum s 0x50 0x0013 0 32 →
      (128 ≤ (k.epoch - x).toNat → (k.epoch - x).toNat ≠ 255 ∨ s.links.prev = false →
        ∃ t, exec (.linkPacketRoute ⟨l, inp⟩ planeB k) s = .next t ∧ { t with out := s.out } = s ∧ t.out = s.out ++ refusal k 7) ∧
      ((k.epoch - x).toNat < 128 ∨ ((k.epoch - x).toNat = 255 ∧ s.links.prev = true) →
        badEntry s 0 l (16384 * b + k.ddev) = false →
        (e.getLsbD 31 = false ∨ e.extractLsb' 29 2 = 3 → ∃ t, exec (.linkPacketRoute ⟨l, inp⟩ planeB k) s = .next t ∧
          { t with out := s.out } = s ∧ t.out = s.out ++ refusal k 2) ∧
        (e.getLsbD 31 = true → e.extractLsb' 29 2 = 2 → ∃ t, exec (.linkPacketRoute ⟨l, inp⟩ planeB k) s = .next t ∧
          { t with out := s.out } = s ∧ t.out = s.out ++ [.inbound l { k with hops := k.hops + 1 }]) ∧
        (e.getLsbD 31 = true → e.extractLsb' 29 2 = 0 → bundlePorts s (e.extractLsb' 24 4).toNat = [] →
          ∃ t, exec (.linkPacketRoute ⟨l, inp⟩ planeB k) s = .next t ∧ { t with out := s.out } = s ∧
            t.out = s.out ++ refusal k 7)))) ∧
  (∀ (s : State) (l inp : Nat) (planeB : Bool) (k : LinkPkt) (copy b : Nat) (e : W32), l < 8 → 5 ≤ inp → inp < 8 →
    k.score ≠ 0x7FF → copy = 8 + fieldOf k.score → b = (s.links.epochOf copy).toNat % 2 → e = rtEntry s.links copy b k.ddev →
    badEntry s 0 copy (16384 * b + k.ddev) = false → e.getLsbD 31 = true → e.extractLsb' 29 2 = 0 →
    isRequest k.opc = true → bundleOwner s (e.extractLsb' 24 4).toNat ≠ 0xFF → bundleOwner s (e.extractLsb' 24 4).toNat ≠ k.spart →
    ∃ t, exec (.linkPacketRoute ⟨l, inp⟩ planeB k) s = .next t ∧ { t with out := s.out } = s ∧ t.out = s.out ++ refusal k 3) ∧
  (∀ (s : State) (p v left : Nat) (k : LinkPkt), p < 40 → v < 4 → ((s.port p).vc v).rx = .pkt k left →
    forHere s (p / 5) k = true → ∃ t, exec (.stallTimeout p v) s = .next t ∧ PortOnly s t p ∧ t.out = s.out ++ refusal k 7 ∧
      (t.port p).stall = satInc (s.port p).stall 1 ∧ ((t.port p).vc v).rx = .skip false ∧
      ((t.port p).vc v).credRet = ((s.port p).vc v).credRet + ((s.port p).vc v).rxUsed) ∧
  (∀ (s : State) (c : Nat) (f : Flight) (d : EvpostDesc), curEvpost s c = some (f, d) → d.resv = false →
    engFlights (s.core c) 6 = [f] → f.memDetail = none → tgtDev s d.tgt ≠ s.devId →
    ∃ t, exec (.remoteTimeout (.evpost c)) s = .next t ∧ Leaves s t c f ∧ t.mem = s.mem ∧
      (t.core c).ctl.tagErr.getLsbD f.iss.tag.val = true) ∧
  (∀ (s : State) (c : Nat) (f : Flight) (op : LockOp) (d : LockDesc), MemInv s → curLock s c = some (f, op, d) →
    engFlights (s.core c) 7 = [f] → f.memDetail = none → d.res + 16 ≤ 2 ^ 21 → Sound s c d.res 16 →
    (if isAtomicOp op then isRemote d.addr && remoteDev d.addr != s.devId else lockAway s d) = true →
    ∃ t, exec (.remoteTimeout (.lock c)) s = .next t ∧ Leaves s t c f ∧
      (d.resv = true → spBytes t c d.res 16 = natBytes 8 0 ++ natBytes 1 7 ++ natBytes 7 0) ∧
      (t.core c).ctl.tagErr.getLsbD f.iss.tag.val = true) ∧
  (∀ (s : State), s.links.advancing = true → ∃ t, exec .epochSwitch s = .next t ∧ t.links.epoch = s.links.epoch + 1 ∧
    t.links.epx = [] ∧ t.links.prev = true ∧ t.links.advancing = false ∧ t.links.rt0 = s.links.rt0 ∧ t.links.rt1 = s.links.rt1) ∧
  (∀ (s : State), ∃ t, exec .epochHoldExpire s = .next t ∧ { t with links := s.links } = s ∧
    { t.links with prev := s.links.prev } = s.links ∧ t.links.prev = false)

/-- R298 to R304, Table 9.1: a packet for a peer of the table leaves by an admitted port of its bundle, under the
headers of Table 9.5, and waits for its acknowledgement. A connection takes its packets in PSN order, acknowledges
every 16 of them, and answers one out of order with one NAK; a MAC control frame is discarded and counted. An ACK
releases what it names; a NAK and a timeout resend, and after 7 resends without progress the peer is unreachable and
every request outstanding to it is answered ABORTED; a packet from it ends that. A CNP cuts the rate, and a further
one within 20 µs does not; without one the rate rises, and its step doubles after every fourth raise. A solicitation
for a bundle's own address is answered. Log entries 45 and 56 name the model's choices in it. -/
def Obligations.EthernetConnectionsActInOrder : Prop :=
  (∀ (s : State) (l inp b p : Nat) (planeB : Bool) (k m : LinkPkt) (e : W32), l < 8 → inp < 5 → p / 5 = l →
    k.epoch = s.links.epochOf l → k.hops + 1 < cfgNum s 0x50 0x0013 0 32 →
    e = rtEntry s.links l ((s.links.epochOf l).toNat % 2) k.ddev →
    badEntry s 0 l (16384 * ((s.links.epochOf l).toNat % 2) + k.ddev) = false → e.getLsbD 31 = true → e.extractLsb' 29 2 = 0 →
    b = (e.extractLsb' 24 4).toNat → bundlePort s b k = some p → (s.port p).eth = true → inPeers s k.ddev = true →
    (s.conn b k.ddev).dead = false → m = { k with hops := k.hops + 1, vc1 := k.vc1 || e.getLsbD 28 } →
    ∃ t, exec (.linkPacketRoute ⟨l, inp⟩ planeB k) s = .next t ∧ t.mem = s.mem ∧ t.cores = s.cores ∧
      t.out = s.out ++ [.ethData (ethDataHdr s p b (s.conn b k.ddev).txPsn m) m] ∧
      (t.conn b k.ddev).txPsn = ((s.conn b k.ddev).txPsn + 1) % 2 ^ 24 ∧
      (t.conn b k.ddev).unacked = (s.conn b k.ddev).unacked ++ [((s.conn b k.ddev).txPsn, m)]) ∧
  (∀ (s : State) (p b peer : Nat) (e : EthPkt), p < 40 → (s.port p).eth = true → (s.port p).st = .admitted → e.mac = true →
    ∃ t, exec (.ethDataPacket p b peer e) s = .next t ∧ PortOnly s t p ∧ t.out = s.out ∧ t.links.conns = s.links.conns ∧
      (t.port p).macCtl = satInc (s.port p).macCtl 1) ∧
  (∀ (s : State) (p b peer : Nat) (e : EthPkt), p < 40 → (s.port p).eth = true → (s.port p).st = .admitted → e.mac = false →
    e.psn < 2 ^ 24 →
    (e.psn = (s.conn b peer).rxPsn → knownOpc e.pkt.opc = true → e.pkt.len ≤ 64 → srcAdmits s p e.pkt.sdev = true →
      ∃ t, exec (.ethDataPacket p b peer e) s = .next t ∧ t.mem = s.mem ∧ t.cores = s.cores ∧
        (t.conn b peer).rxPsn = (e.psn + 1) % 2 ^ 24 ∧ (t.conn b peer).nakOut = false ∧ (t.conn b peer).dead = false ∧
        (t.conn b peer).rxBytes = (s.conn b peer).rxBytes + e.bytes ∧
        ((s.conn b peer).toAck < 15 → t.out = s.out ++ [.linkPkt p e.pkt] ∧ (t.conn b peer).toAck = (s.conn b peer).toAck + 1) ∧
        ((s.conn b peer).toAck = 15 → (t.conn b peer).toAck = 0 ∧
          ∀ q qs, bundlePorts s b = q :: qs → ∃ h, t.out = s.out ++ [.linkPkt p e.pkt, .ethCtl h] ∧ h.port = q ∧ h.peer = peer ∧
            h.type_ = 1 ∧ h.apsn = e.psn)) ∧
    (e.psn ≠ (s.conn b peer).rxPsn → ∃ t, exec (.ethDataPacket p b peer e) s = .next t ∧ t.mem = s.mem ∧ t.cores = s.cores ∧
      (t.conn b peer).rxPsn = (s.conn b peer).rxPsn ∧ (t.conn b peer).nakOut = true ∧
      ((s.conn b peer).nakOut = true → t.out = s.out) ∧
      ((s.conn b peer).nakOut = false → ∀ q qs, bundlePorts s b = q :: qs → ∃ h, t.out = s.out ++ [.ethCtl h] ∧ h.port = q ∧
        h.peer = peer ∧ h.type_ = 2 ∧ h.psn = (s.conn b peer).rxPsn))) ∧
  (∀ (s : State) (b peer apsn n : Nat) (x : Nat × LinkPkt) (rest : List (Nat × LinkPkt)), (s.conn b peer).unacked = x :: rest →
    n = (apsn + 1 + 2 ^ 24 - x.1) % 2 ^ 24 → ∃ t, exec (.ethAck b peer apsn) s = .next t ∧ t.out = s.out ∧ t.mem = s.mem ∧
      t.cores = s.cores ∧ (t.conn b peer).dead = false ∧
      (t.conn b peer).unacked = (if n ≤ rest.length + 1 then (x :: rest).drop n else x :: rest) ∧
      (n ≤ rest.length + 1 → ∀ y ∈ (x :: rest).take n, isRequest y.2.opc = true → y.2 ∈ (t.conn b peer).open_)) ∧
  (∀ (s : State) (b peer : Nat) (x : Nat × LinkPkt) (rest : List (Nat × LinkPkt)), (s.conn b peer).unacked = x :: rest →
    (s.conn b peer).resends < 7 →
    (x.1 < 2 ^ 24 → ∃ t, exec (.ethNak b peer x.1) s = .next t ∧ t.mem = s.mem ∧ t.cores = s.cores ∧
      (t.conn b peer).unacked = x :: rest ∧ (t.conn b peer).resends = (s.conn b peer).resends + 1 ∧
      ∀ q, bundlePorts s b = [q] →
        t.out = s.out ++ (x :: rest).map (fun y => .ethData (ethDataHdr s q b y.1 y.2) y.2)) ∧
    (∃ t, exec (.ethRto b peer) s = .next t ∧ t.mem = s.mem ∧ t.cores = s.cores ∧ (t.conn b peer).unacked = x :: rest ∧
      (t.conn b peer).resends = (s.conn b peer).resends + 1 ∧
      (bundlePorts s b = [] → t.out = s.out) ∧
      ∀ q, bundlePorts s b = [q] → t.out = s.out ++ (x :: rest).map (fun y => .ethData (ethDataHdr s q b y.1 y.2) y.2))) ∧
  (∀ (s : State) (b peer : Nat), (s.conn b peer).unacked ≠ [] → 7 ≤ (s.conn b peer).resends →
    ∃ t, exec (.ethRto b peer) s = .next t ∧ t.mem = s.mem ∧ t.cores = s.cores ∧ (t.conn b peer).unacked = [] ∧
      (t.conn b peer).open_ = [] ∧ (t.conn b peer).dead = true ∧
      t.out = s.out ++ (s.conn b peer).unacked.flatMap (fun y => refusal y.2 7) ++
        (s.conn b peer).open_.flatMap (fun y => refusal y 7) ∧
      LogGets s t 0x3002 4) ∧
  (∀ (s : State) (b peer : Nat), ∃ t, exec (.ethAckTimer b peer) s = .next t ∧ t.mem = s.mem ∧ t.cores = s.cores ∧
    (t.conn b peer).toAck = 0 ∧ ((s.conn b peer).toAck = 0 → t = s) ∧
    ((s.conn b peer).toAck ≠ 0 → ∀ q qs, bundlePorts s b = q :: qs → ∃ h, t.out = s.out ++ [.ethCtl h] ∧ h.port = q ∧
      h.peer = peer ∧ h.type_ = 1 ∧ h.apsn = ((s.conn b peer).rxPsn + 2 ^ 24 - 1) % 2 ^ 24)) ∧
  (∀ (s : State) (b peer mfrac : Nat), ∃ t, exec (.cnp b peer mfrac) s = .next t ∧ t.out = s.out ∧ t.mem = s.mem ∧
    t.cores = s.cores ∧ (t.conn b peer).cnpSeen = true ∧ (t.conn b peer).dead = false ∧
    ((∀ a, (s.conn b peer).cutAt = some a → a + 20000 ≤ s.now) → (t.conn b peer).step = 2 ∧ (t.conn b peer).raises = 0 ∧
      (t.conn b peer).rate = max 1 ((s.conn b peer).rate * (1 - (mfrac : Rat) / 512)) ∧ (t.conn b peer).cutAt = some s.now) ∧
    (∀ a, (s.conn b peer).cutAt = some a → s.now < a + 20000 → (t.conn b peer).rate = (s.conn b peer).rate ∧
      (t.conn b peer).step = (s.conn b peer).step ∧ (t.conn b peer).ignored = (s.conn b peer).ignored + 1)) ∧
  (∀ (s : State) (b peer : Nat), ∃ t, exec (.cnpIntervalEnd b peer) s = .next t ∧ t.mem = s.mem ∧ t.cores = s.cores ∧
    (t.conn b peer).ceBytes = 0 ∧ (t.conn b peer).rxBytes = 0 ∧ ((s.conn b peer).ceBytes = 0 → t.out = s.out) ∧
    ((s.conn b peer).ceBytes ≠ 0 → ∀ q qs, bundlePorts s b = q :: qs → ∃ h, t.out = s.out ++ [.ethCtl h] ∧ h.port = q ∧
      h.peer = peer ∧ h.type_ = 3 ∧
      h.mfrac = min 255 ((256 * (s.conn b peer).ceBytes + (s.conn b peer).rxBytes - 1) / (s.conn b peer).rxBytes))) ∧
  (∀ (s : State) (b peer : Nat), ∃ t, exec (.rateIncreaseTimer b peer) s = .next t ∧ t.out = s.out ∧ t.mem = s.mem ∧
    t.cores = s.cores ∧ (t.conn b peer).cnpSeen = false ∧
    ((s.conn b peer).cnpSeen = true → (t.conn b peer).rate = (s.conn b peer).rate ∧ (t.conn b peer).raises = 0) ∧
    ((s.conn b peer).cnpSeen = false → (t.conn b peer).rate = min 800 ((s.conn b peer).rate + (s.conn b peer).step) ∧
      (t.conn b peer).raises = (s.conn b peer).raises + 1 ∧ (t.conn b peer).step =
        if ((s.conn b peer).raises + 1) % 4 = 0 then min 64 (2 * (s.conn b peer).step) else (s.conn b peer).step)) ∧
  (∀ (s : State) (b : Nat) (target : Bytes), ∃ t, exec (.neighbourSolicitation b target) s = .next t ∧
    { t with out := s.out } = s ∧ t.out = s.out ++
      if b < 16 ∧ 28 ≤ (cfgBlob s 0x50 0x0204 b).length ∧ (cfgBlob s 0x50 0x0204 b).take 16 = target then
        [.net (16 + b) 0 (target ++ ((cfgBlob s 0x50 0x0204 b).drop 16).take 6)] else [])

/-- R331 to R345, Table 10.1: a request that the stack admits takes its tokens, is performed and answered, and wakes
the stack from self-refresh; one that finds too few tokens, or others waiting, waits; one that is refused changes no
byte and is counted. A corrected word is written back; the scrub corrects a correctable word and counts it; a hot
stack's refresh is doubled and its rate halved until it has cooled; a stack with a failed channel is retired, and what
is in flight to it is answered DEST_RESET. Log entries 13, 30, 45 and 58 name the model's choices in it. -/
def Obligations.StacksServeAndFail : Prop :=
  (∀ (s : State) (r : HbmReq) (n : Nat) (x : RSt), n = (match r.write with
      | some bs => bs.length
      | none => r.len) → x = hbmCheck s (reqOwner s r.req) r.addr n → r.remote = false →
    (x = .ok → n ≤ 4096 →
      (∀ q ∈ hbmPieces s r.addr n, (s.stack q.1).waiting = [] ∧ hbmNeed s r.addr n q.1 ≤ (s.stack q.1).tokens) →
      HbmSound s r.addr n → MemInv s → 0 < n → ∃ t, exec (.hbmRequest r) s = .next t ∧ t.cores = s.cores ∧
      (∀ i, (t.stack i).tokens = (s.stack i).tokens - hbmNeed s r.addr n i) ∧
      (∀ q ∈ hbmPieces s r.addr n, (t.stack q.1).sref = false) ∧
      (∀ i, (t.stack i).ce = if r.parity = true ∧ i = (hbmLoc s r.addr).1 then satInc (s.stack i).ce 1 else (s.stack i).ce) ∧
      (r.write = none → t.mem = s.mem ∧ t.marks = s.marks ∧ t.out = s.out ++ [.memData r.req r.addr
        (if r.poison then 0x0B else 0) ((List.range n).map (fun i => hbmByte s (r.addr + i))) []]) ∧
      (∀ bs, r.write = some bs → HbmWritten s t r.addr bs ∧
        t.out = s.out ++ [.memData r.req r.addr (if r.poison then 0x0B else 0) [] []] ∧
        ∀ w ∈ words64 r.addr n, mfind t.marks (hbmKey (hbmLoc s w).1 (hbmLoc s w).2) =
          if r.poison then some .poisoned else none)) ∧
    (x = .ok → n ≤ 4096 →
      (∃ q ∈ hbmPieces s r.addr n, (s.stack q.1).waiting ≠ [] ∨ (s.stack q.1).tokens < hbmNeed s r.addr n q.1) →
      ∃ t, exec (.hbmRequest r) s = .next t ∧ { t with hbms := s.hbms } = s ∧
        (t.stack (hbmLoc s r.addr).1).waiting = (s.stack (hbmLoc s r.addr).1).waiting ++ [⟨r, none⟩]) ∧
    (x = .ok → 4096 < n → ∃ t, exec (.hbmRequest r) s = .next t ∧ t.out = s.out ++ [.memData r.req r.addr 3 [] []] ∧
      t.mem = s.mem ∧ t.cntSize = s.cntSize + 1) ∧
    (x = .denied → ∃ t, exec (.hbmRequest r) s = .next t ∧ t.out = s.out ++ [.memData r.req r.addr 3 [] []] ∧ t.mem = s.mem ∧
      t.cntDenied = s.cntDenied + 1 ∧ t.hbms = s.hbms) ∧
    (x = .unmapped → ∃ t, exec (.hbmRequest r) s = .next t ∧ t.out = s.out ++ [.memData r.req r.addr 2 [] []] ∧ t.mem = s.mem ∧
      t.cntUnmapped = s.cntUnmapped + 1 ∧
      ((∀ b ∈ blocksOf r.addr n, (isHbm b && hbmRetired s b) = false) → t.hbms = s.hbms) ∧
      ∀ b, (blocksOf r.addr n).find? (fun b => isHbm b && hbmRetired s b) = some b →
        (t.stack (hbmLoc s b).1).refuse = satInc (s.stack (hbmLoc s b).1).refuse 1)) ∧
  (∀ (s : State) (r : HbmReq), r.remote = true → ∃ t, exec (.hbmRequest r) s = .next t ∧
    t.out = s.out ++ [.memData r.req r.addr 3 [] []] ∧ t.mem = s.mem ∧ t.cntDenied = s.cntDenied + 1 ∧ t.hbms = s.hbms) ∧
  (∀ (s : State) (st : Nat) (r : HbmReq) (rs : List HbmWait), (s.stack st).waiting = ⟨r, none⟩ :: rs → r.remote = false →
    r.write = none →
    ((∃ q ∈ hbmPieces s r.addr r.len, (s.stack q.1).tokens < hbmNeed s r.addr r.len q.1) → exec (.hbmRateTokens st) s = .next s) ∧
    ((∀ q ∈ hbmPieces s r.addr r.len, hbmNeed s r.addr r.len q.1 ≤ (s.stack q.1).tokens) →
      r.len ≤ 4096 → r.poison = false → hbmCheck s (reqOwner s r.req) r.addr r.len = .ok → HbmSound s r.addr r.len →
      ∃ t, exec (.hbmRateTokens st) s = .next t ∧ t.mem = s.mem ∧ t.cores = s.cores ∧ (t.stack st).waiting = rs ∧
        t.out = s.out ++ [.memData r.req r.addr 0 ((List.range r.len).map (fun i => hbmByte s (r.addr + i))) []])) ∧
  (∀ (s : State) (st w : Nat), ∃ t, exec (.hbmEccWriteback st w) s = .next t ∧ { t with marks := s.marks } = s ∧
    mfind t.marks (hbmKey st (64 * w)) =
      if mfind s.marks (hbmKey st (64 * w)) = some .corrected then none else mfind s.marks (hbmKey st (64 * w))) ∧
  (∀ (s : State) (st key : Nat), st < 16 → (s.stack st).st = .ready → (s.stack st).sref = false → (s.stack st).scrubEn = true →
    key = hbmKey st ((s.stack st).scrubAt / 64 * 64) → (s.stack st).ceWords = [] → 2 ≤ cfgNum s 0x60 0x0004 0 2 →
    (mfind s.marks key = none → ∃ t, exec (.hbmScrubWord st) s = .next t ∧ { t with hbms := s.hbms } = s ∧
      (t.stack st).scrubAt = ((s.stack st).scrubAt + 64) % 0xC00000000 ∧ (t.stack st).ce = (s.stack st).ce) ∧
    (mfind s.marks key = some .correctable → ∃ t, exec (.hbmScrubWord st) s = .next t ∧ t.mem = s.mem ∧ t.cores = s.cores ∧
      mfind t.marks key = some .corrected ∧ (t.stack st).ce = satInc (s.stack st).ce 1 ∧
      (t.stack st).scrubAt = ((s.stack st).scrubAt + 64) % 0xC00000000) ∧
    (mfind s.marks key = some .poisoned → ∃ t, exec (.hbmScrubWord st) s = .next t ∧ t.mem = s.mem ∧ t.marks = s.marks ∧
      (t.stack st).ue = satInc (s.stack st).ue 1 ∧ (t.stack st).infoV = true ∧
      (t.stack st).scrubAt = ((s.stack st).scrubAt + 64) % 0xC00000000)) ∧
  (∀ (s : State) (st x : Nat), st < 16 → ∃ t, exec (.hbmTempRead st x) s = .next t ∧ t.mem = s.mem ∧ t.cores = s.cores ∧
    (t.stack st).temp = min x 255 ∧ (t.stack st).hot = (decide (85 ≤ x) || (s.stack st).hot && decide (80 ≤ x)) ∧
    (95 ≤ x → (s.stack st).throttled = false → (t.stack st).throttled = true ∧
      (t.stack st).rate = max 256 ((s.stack st).rate / 2)) ∧
    (x ≤ 90 → (s.stack st).throttled = true → (t.stack st).throttled = false ∧
      (t.stack st).rate = cfgNum s 0x60 0x0002 0 (if Config.profileIsL then 2048 else 1500)) ∧
    ((95 ≤ x → (s.stack st).throttled = true) → (x ≤ 90 → (s.stack st).throttled = false) →
      (t.stack st).rate = (s.stack st).rate ∧ (t.stack st).throttled = (s.stack st).throttled)) ∧
  (∀ (s : State) (st ch : Nat), exec (.hbmRecalibrate st ch) s = .next s) ∧
  (∀ (s : State) (st ch : Nat), st < 16 → ch < 32 → (s.stack st).st ≠ .retired → ∃ t, exec (.hbmChannelFail st ch) s = .next t ∧
    (t.stack st).st = .retired ∧ (t.stack st).waiting = [] ∧ domOf t (116 + st) = .off ∧ t.mem = s.mem ∧
    (s.wake.start = none → SurveyGets s t 7 (natBytes 2 (116 + st))) ∧
    ((∀ w ∈ (s.stack st).waiting, w.bar = none) →
      s.out ++ (s.stack st).waiting.map (fun w => .memData w.req.req w.req.addr 6 [] []) <+: t.out) ∧
    (∀ c e b, b ∈ ((s.core c).eng e).bursts → b.status = none → b.data = none → hitsStack s b.src b.len st = true →
      { b with status := some 8 } ∈ ((t.core c).eng e).bursts) ∧
    (∀ c g, (s.core c).ctl.blk = .gacc g → hitsStack s g.addr g.size st = true →
      (t.core c).ctl.blk = .gacc { g with lost := true }) ∧
    ∀ c, (∀ g, (s.core c).ctl.blk ≠ .gacc g) → { t.core c with dma := (s.core c).dma } = s.core c)

/-- R345, R350, R351, R353 to R358: BAR2 reads and writes the HBM of its function within its size, unit by unit; an
access that finds no tokens waits. During a reset a write is dropped and a read gives ones; what is not there is
refused, as are an AtomicOp, a read of more than 4,096 B and a write of more than 512 B. A doorbell moves a ring's
tail or stops the ring; enabling a ring sets its indices to 0; its base and size change only while it is disabled and
idle. Log entries 34, 36, 37, 45 and 49 name the model's choices in it. -/
def Obligations.HostAccessesReachMemoryAndRings : Prop :=
  (∀ (s : State) (h f off x : Nat), h < 2 → f = 0 → x = ((s.host h).fn 0).gib * 2 ^ 30 + off →
    (off < 2 ^ ((s.host h).fn f).bar2 → x < 0xC000000000 → barAddr s h f off = some (0x010000000000 + x)) ∧
    (2 ^ ((s.host h).fn f).bar2 ≤ off → barAddr s h f off = none)) ∧
  (∀ (s : State) (h f off a n : Nat) (data : Bytes), h < 2 → f < 17 → (s.host h).up = true → barInReset s f = false → 0 < n →
    (off + n - 1) / 2 ^ 30 = off / 2 ^ 30 → barAddr s h f off = some a → data = (List.range n).map (fun i => hbmByte s (a + i)) →
    (hbmCheck s none a n = .ok → HbmSound s a n →
      (∀ q ∈ hbmPieces s a n, (s.stack q.1).waiting = [] ∧ hbmNeed s a n q.1 ≤ (s.stack q.1).tokens) →
      (n ≤ 4096 → ∃ t, exec (.bar2Read h f off ⟨n, false⟩) s = .next t ∧ t.mem = s.mem ∧ t.marks = s.marks ∧ t.cores = s.cores ∧
        t.hosts = s.hosts ∧
        t.out = s.out ++ (tlps n).map (fun x => .hostData h f (off + x.1) true false ((data.drop x.1).take x.2))) ∧
      (∀ bs, bs.length = n → n ≤ 512 → MemInv s →
        (∃ t, exec (.bar2Write h f off bs false) s = .next t ∧ HbmWritten s t a bs ∧ t.out = s.out ∧ t.cores = s.cores ∧
          t.hosts = s.hosts) ∧
        (∃ t, exec (.bar2Write h f off bs true) s = .next t ∧ HbmWritten s t a bs ∧ t.out = s.out ∧ t.cores = s.cores ∧
          (∀ w ∈ words64 a n, mfind t.marks (hbmKey (hbmLoc s w).1 (hbmLoc s w).2) = some .poisoned) ∧
          ((t.host h).fn f).drop = satInc ((s.host h).fn f).drop 1 ∧
          ((t.host h).fn f).aer = ((s.host h).fn f).aer ||| 2 ^ 12))) ∧
    (hbmCheck s none a n = .ok → n ≤ 4096 →
      (∃ q ∈ hbmPieces s a n, (s.stack q.1).waiting ≠ [] ∨ (s.stack q.1).tokens < hbmNeed s a n q.1) →
      ∃ t, exec (.bar2Read h f off ⟨n, false⟩) s = .next t ∧ { t with hbms := s.hbms } = s ∧
        ∃ w, (t.stack (hbmLoc s a).1).waiting = (s.stack (hbmLoc s a).1).waiting ++ [w] ∧ w.bar = some off ∧
          w.req.req = .host h f ∧ w.req.addr = a ∧ w.req.len = n ∧ w.req.write = none) ∧
    (hbmCheck s none a n ≠ .ok → n ≤ 4096 → ∃ t, exec (.bar2Read h f off ⟨n, false⟩) s = .next t ∧ t.mem = s.mem ∧
      t.cores = s.cores ∧ t.out = s.out ++ [.hostData h f off false false []] ∧
      ((t.host h).fn f).drop = satInc ((s.host h).fn f).drop 1)) ∧
  (∀ (s : State) (h f off n : Nat), h < 2 → f < 17 → (s.host h).up = true →
    4096 < n ∨ (barInReset s f = false ∧ 0 < n ∧ barAddr s h f off = none) →
    ∃ t, exec (.bar2Read h f off ⟨n, false⟩) s = .next t ∧ { t with out := s.out, hosts := s.hosts } = s ∧
      t.out = s.out ++ [.hostData h f off false false []] ∧ ((t.host h).fn f).aer = ((s.host h).fn f).aer ||| 2 ^ 20) ∧
  (∀ (s : State) (h f off n : Nat) (bs : Bytes) (z : Bool), h < 2 → f < 17 → (s.host h).up = true →
    (∃ t, exec (.bar2Read h f off ⟨n, true⟩) s = .next t ∧ { t with out := s.out, hosts := s.hosts } = s ∧
      t.out = s.out ++ [.hostData h f off false false []]) ∧
    (512 < bs.length → ∃ t, exec (.bar2Write h f off bs z) s = .next t ∧ { t with hosts := s.hosts } = s ∧
      ((t.host h).fn f).aer = ((s.host h).fn f).aer ||| 2 ^ 18)) ∧
  (∀ (s : State) (h f off n : Nat) (bs : Bytes) (z : Bool), h < 2 → f < 17 → (s.host h).up = true → barInReset s f = true →
    (bs.length ≤ 512 → ∃ t, exec (.bar2Write h f off bs z) s = .next t ∧ { t with hosts := s.hosts } = s ∧
      ((t.host h).fn f).drop = satInc ((s.host h).fn f).drop 1) ∧
    (n ≤ 4096 → ∃ t, exec (.bar2Read h f off ⟨n, false⟩) s = .next t ∧ t.mem = s.mem ∧
      ((t.host h).fn f).drop = satInc ((s.host h).fn f).drop 1 ∧
      t.out = s.out ++ (tlps n).map (fun x => .hostData h f (off + x.1) true false (List.replicate x.2 0xFF)))) ∧
  (∀ (s : State) (h f r : Nat) (v : W32) (g : Ring), h < 2 → f < 17 → r < 4 → (s.host h).up = true → g = ringOf s h f r →
    (fnInReset s f = false → v.toNat % 2 ^ 16 < 2 ^ g.log2sz → ∃ t, exec (.sqtailWrite h f r v) s = .next t ∧
      { t with hosts := s.hosts } = s ∧ ringOf t h f r = { g with sqtail := v.toNat % 2 ^ 16 }) ∧
    (fnInReset s f = false → 2 ^ g.log2sz ≤ v.toNat % 2 ^ 16 → ∃ t, exec (.sqtailWrite h f r v) s = .next t ∧
      t.mem = s.mem ∧ t.out = s.out ++ (if ((s.host h).fn f).masked 4 then [] else [.msix h f 4]) ∧
      (((s.host h).fn f).masked 4 = true → ((t.host h).fn f).pba = ((s.host h).fn f).pba ||| 2 ^ 4) ∧
      ringOf t h f r = { g with err := true, cause := if g.err ∧ g.cause = 3 then 3 else 1 }) ∧
    (fnInReset s f = true → ∃ t, exec (.sqtailWrite h f r v) s = .next t ∧ ringOf t h f r = g ∧
      ((t.host h).fn f).drop = satInc ((s.host h).fn f).drop 1) ∧
    (∃ t, exec (.ringCtrlWrite h f r v) s = .next t ∧ t.mem = s.mem ∧ t.cores = s.cores ∧
      (ringOf t h f r).en = v.getLsbD 31 ∧
      (ringOf t h f r).log2sz = (if g.en = false ∧ g.out = 0 ∧ 4 ≤ v.toNat % 32 ∧ v.toNat % 32 ≤ 16 then v.toNat % 32
        else g.log2sz) ∧
      (v.getLsbD 31 = true → g.en = false → (ringOf t h f r).sqtail = 0 ∧ (ringOf t h f r).sqhead = 0 ∧
        (ringOf t h f r).cqtail = 0 ∧ (ringOf t h f r).cqhead = 0 ∧ (ringOf t h f r).phase = true ∧
        (ringInView t f (ringOf t h f r) = false → (ringOf t h f r).err = true ∧
          (ringOf t h f r).cause = if g.err ∧ g.cause = 3 ∧ v.getLsbD 30 = false then 3 else 2)) ∧
      (v.getLsbD 31 = false → (ringOf t h f r).sqtail = g.sqtail ∧ (ringOf t h f r).sqhead = g.sqhead)) ∧
    (∀ x : RingReg, ∃ t, exec (.ringBaseWrite h f r x v) s = .next t ∧ { t with hosts := s.hosts } = s ∧
      ringOf t h f r = if g.en = false ∧ g.out = 0 then (match x with
        | .sqbase => { g with sqbase := v.toNat % 2 ^ 28 }
        | .cqbaseLo => { g with cqlo := v.toNat / 2 ^ 12 }
        | .cqbaseHi => { g with cqhi := v.toNat }) else g))

/-- R345, R359 to R365, R369, R370: a fetched record is completed at once with its status, or launched to its first
target by the function's path. The last END of a launch posts its completion, a fault posts FAULT at once. The
vector's timer, and an error of a completion write, act on the ring. A function-level reset resets the function and
its partition; one of a PF ends every launch, disables every ring and begins a compute reset; PERST resets the host
die, and its link comes up anew. Log entries 10, 34, 35, 36, 45, 59 and 60 name the model's choices in it. -/
def Obligations.LaunchesFetchReportAndReset : Prop :=
  (∀ (s : State) (h f r a : Nat) (b : Bytes) (g : Ring), h < 2 → r < 4 → f < 17 → (s.host h).up = true → s.launches = [] →
    nextRing s h = some (4 * f + r) → g = ringOf s h f r → viewAddr s f (g.sqbase * 4096 + g.sqhead * 128) = some a →
    hbmCheck s none a 128 = .ok → HbmSound s a 128 →
    (∀ q ∈ hbmPieces s a 128, (s.stack q.1).waiting = [] ∧ hbmNeed s a 128 q.1 ≤ (s.stack q.1).tokens) →
    b = (List.range 128).map (fun i => hbmByte s (a + i)) →
    (∀ st, (s.dev = .faulted ∧ st = 7) ∨ ((s.dev = .ready ∨ s.dev = .degraded) ∧
        recordStatus s (if f = 0 then byteNat b 14 % 16 else f - 1) b = some st) →
      ∃ t, exec (.launchFetch h) s = .next t ∧ Posts s t h f r g.sqhead (leAt b 4 4) st 0 0x7FF 0 ∧ t.launches = [] ∧
        t.mem = s.mem ∧ t.cores = s.cores ∧ (ringOf t h f r).sqhead = (g.sqhead + 1) % 2 ^ g.log2sz ∧
        (ringOf t h f r).out = g.out) ∧
    (s.dev = .ready ∨ s.dev = .degraded → byteNat b 0 = 1 → sendOf s (.fn h f) = none →
      recordStatus s (if f = 0 then byteNat b 14 % 16 else f - 1) b = none →
      ∃ t l k, exec (.launchFetch h) s = .next t ∧ t.launches = [l] ∧ l.h = h ∧ l.f = f ∧ l.r = r ∧ l.seq = g.sqhead ∧
        l.lid = leAt b 4 4 ∧ l.cfirst = leAt b 2 2 ∧ l.ccount = leAt b 12 2 ∧ t.out = s.out ∧ t.mem = s.mem ∧
        sendOf t (.fn h f) = some k ∧ k.members = [⟨.local_ (leAt b 2 2) 31, .sent⟩] ∧
        (ringOf t h f r).sqhead = (g.sqhead + 1) % 2 ^ g.log2sz ∧ (ringOf t h f r).out = g.out + 1)) ∧
  (∀ (s : State) (h c : Nat) (l : Launch) (x : LaunchReport), h < 2 → l.r < 4 → l.h = h → s.launches = [l] → s.reports = [x] →
    x.core = c → x.src = l.r + 4 * l.h + 8 * l.f → x.seq = l.seq → pendingTarget l c = true → l.posted = false →
    (s.host h).up = true → (ringOf s h l.f l.r).err = false →
    (x.rep = .ended → l.ended.length + l.gone.length + 1 < l.ccount → ∃ t, exec (.launchTargetReport h c) s = .next t ∧
      t.out = s.out ∧ t.launches = [{ l with ended := l.ended ++ [c] }] ∧ t.reports = []) ∧
    (x.rep = .ended → l.ended.length + l.gone.length + 1 = l.ccount → ∃ t, exec (.launchTargetReport h c) s = .next t ∧
      Posts s t h l.f l.r l.seq l.lid (if l.gone = [] then 0 else 5) (l.ended.length + 1) 0x7FF 0 ∧ t.launches = [] ∧
      t.reports = [] ∧ t.mem = s.mem) ∧
    (∀ code, x.rep = .faulted code → ∃ t, exec (.launchTargetReport h c) s = .next t ∧
      Posts s t h l.f l.r l.seq l.lid 1 l.ended.length c code ∧ t.reports = [] ∧ t.mem = s.mem)) ∧
  (∀ (s : State) (h f r : Nat), h < 2 → f < 17 → r < 4 → (s.host h).up = true →
    (∃ t, exec (.msixCoalesceTimer h f r) s = .next t ∧ t.mem = s.mem ∧ t.cores = s.cores ∧ (ringOf t h f r).unsig = 0 ∧
      t.out = s.out ++ if (ringOf s h f r).unsig = 0 ∨ ((s.host h).fn f).masked r = true then [] else [.msix h f r]) ∧
    (∃ t, exec (.completionWriteError h f r) s = .next t ∧ t.mem = s.mem ∧ t.cores = s.cores ∧
      t.out = s.out ++ (if ((s.host h).fn f).masked 4 then [] else [.msix h f 4]) ∧
      ringOf t h f r = { ringOf s h f r with err := true, cause := 3 } ∧
      ((t.host h).fn f).drop = satInc ((s.host h).fn f).drop 1)) ∧
  (∀ (s : State) (h p : Nat), h < 2 → p < 16 → ∃ t, exec (.vfFlr h p) s = .next t ∧ (t.host h).fn (p + 1) = HostFn.reset ∧
    (∀ l ∈ t.launches, ¬ (l.h = h ∧ l.f = p + 1)) ∧
    (noPart s h (p + 1) = false → s.dev = .ready ∨ s.dev = .degraded → (t.part p).resetting = true)) ∧
  (∀ (s : State) (h : Nat), h < 2 → ∃ t, exec (.pfFlr h) s = .next t ∧ t.launches = [] ∧
    (∀ k < 2, ∀ f < 17, ∀ r, (ringOf t k f r).en = false) ∧
    (s.dev = .ready ∨ s.dev = .degraded → t.dev = .waking ∧ t.wake.compute = true ∧ ∀ c < 1152, (t.core c).crst = true)) ∧
  (∀ (s : State) (h : Nat) (pin : Bool), h < 2 → ∃ t, exec (.perstAssert h pin) s = .next t ∧ t.mem = s.mem ∧
    t.launches = s.launches ∧ t.host h = { HostDie.reset with perst := (s.host h).perst || pin }) ∧
  (∀ (s : State) (h : Nat), h < 2 → ∃ t, exec (.perstRelease h) s = .next t ∧ { t with hosts := s.hosts } = s ∧
    t.host h = { s.host h with perst := false }) ∧
  (∀ (s : State) (h speed width : Nat) (flit : Bool), h < 2 → (s.host h).perst = false → domOf s (132 + h) = .on →
    ∃ t, exec (.hostLinkUp h speed width flit) s = .next t ∧ { t with hosts := s.hosts } = s ∧
      t.host h = { s.host h with up := true, flit := flit, speed := speed, width := width })

/-- R376 to R380, R397, R398: an armed change programs its fields' idle PLLs and raises VCORE; the check lets it stand
where every one is locked and cancels it elsewhere; at T a field switches to its idle PLL, or keeps its STEP and is
tried again where that PLL has lost its lock. VCORE falls only after the switch. Log entries 7, 10 and 13 name the
model's choices in it. -/
def Obligations.ClocksChangeTogether : Prop :=
  (∀ (s : State) (t n x : Nat) (targets : List Nat), fieldOn s n = true → targets.getD n 0 = x → s.echoM.toNat + 50000 ≤ t →
    s.clk.notBefore ≤ s.echoM.toNat → x ≤ 80 →
    (s.clk.armed = none → ∃ u, exec (.clkChangeArm t (2 ^ n) targets) s = .next u ∧ u.mem = s.mem ∧ u.cores = s.cores ∧
      u.clk.armed = some ⟨t, [(n, x)], false⟩ ∧ (u.field n).idleStep = some x ∧ idleLocked (u.field n) = false ∧
      (u.field n).vcore = max (s.field n).vcore (vcoreFor n x) ∧ (u.field n).step = (s.field n).step ∧
      ∀ m, m ≠ n → u.field m = s.field m) ∧
    (s.clk.armed.isSome = true → ∃ u, exec (.clkChangeArm t (2 ^ n) targets) s = .next u ∧ { u with clk := s.clk } = s ∧
      u.clk = { s.clk with held := s.clk.held ++ [⟨t, [(n, x)], false⟩] })) ∧
  (∀ (s : State) (t mask : Nat) (targets : List Nat), t < s.echoM.toNat + 50000 ∨ s.echoM.toNat < s.clk.notBefore →
    exec (.clkChangeArm t mask targets) s = .next s) ∧
  (∀ (s : State) (n : Nat), fieldOn s n = true →
    ((s.field n).idleStep.isSome = true → ∃ u, exec (.pllLock n) s = .next u ∧ idleLocked (u.field n) = true ∧
      { u with fields := s.fields } = s ∧ (u.field n).step = (s.field n).step) ∧
    (∃ u, exec (.pllLockLoss n) s = .next u ∧ idleLocked (u.field n) = false ∧ { u with fields := s.fields } = s ∧
      (u.field n).step = (s.field n).step) ∧
    (∃ u, exec (.vcoreLower n) s = .next u ∧ { u with fields := s.fields } = s ∧
      ((s.field n).idleStep = none → (∀ c ∈ s.clk.held, mfind c.targets n = none) →
        (u.field n).vcore = min (s.field n).vcore (vcoreFor n (s.field n).step)) ∧
      (∀ c ∈ s.clk.held, ∀ x, mfind c.targets n = some x →
        min (s.field n).vcore (vcoreFor n x) ≤ (u.field n).vcore ∧ (u.field n).vcore ≤ (s.field n).vcore))) ∧
  (∀ (s : State) (c : ClkChange), s.clk.armed = some c →
    ((∀ x ∈ c.targets, fieldOn s x.1 = true → idleLocked (s.field x.1) = true) →
      exec .clkReadyCheck s = .next { s with clk := { s.clk with armed := some { c with checked := true } } }) ∧
    ((∃ x ∈ c.targets, fieldOn s x.1 = true ∧ idleLocked (s.field x.1) = false) → s.clk.held = [] →
      ∃ u, exec .clkReadyCheck s = .next u ∧ u.mem = s.mem ∧ u.cores = s.cores ∧ u.clk.armed = none ∧ u.clk.cancel = true ∧
        u.clk.cancels = s.clk.cancels + 1 ∧ u.clk.notBefore = s.echoM.toNat + 50000 ∧
        ∀ n, (u.field n).step = (s.field n).step) ∧
    (c.checked = false ∨ s.echoM.toNat < c.t → exec .clkSwitch s = .next s)) ∧
  (∀ (s : State) (t n x : Nat), s.clk.armed = some ⟨t, [(n, x)], true⟩ → t ≤ s.echoM.toNat → fieldOn s n = true → s.clk.held = [] →
    ∃ u, exec .clkSwitch s = .next u ∧ u.mem = s.mem ∧ u.cores = s.cores ∧ u.clk.changes = s.clk.changes + 1 ∧
      (idleLocked (s.field n) = true → (u.field n).step = x ∧ (u.field n).pll1 = !(s.field n).pll1 ∧
        (u.field n).idleStep = none ∧ u.clk.armed = none) ∧
      (idleLocked (s.field n) = false → (u.field n).step = (s.field n).step ∧ (u.field n).pll1 = (s.field n).pll1 ∧
        (u.field n).miss = true ∧ u.clk.misses = s.clk.misses + 1 ∧
        u.clk.armed = some ⟨s.echoM.toNat + 60000, [(n, x)], false⟩))

/-- R382 to R388: M's first beacon sets a field's counter, and each later one the difference it removes. An offset of
1 ms or less is slewed; a greater one forward is stepped in every counter, and one backward is flagged and leaves the
device in HOLDOVER, as the loss of the source does. A second that comes more than 100 µs from its time is ignored and
counted, and three in a row bring HOLDOVER. Log entries 10, 13 and 57 name the model's choices in it. -/
def Obligations.EchoFollowsItsSource : Prop :=
  (∀ (s : State), ∃ t, exec .echoBeacon s = .next t ∧ { t with fields := s.fields } = s ∧ ∀ n,
    (fieldOn s n = false → t.field n = s.field n) ∧
    (fieldOn s n = true → (t.field n).beacons = (s.field n).beacons + 1 ∧ (t.field n).ehold = false ∧
      ((s.field n).beacons = 0 → (t.field n).echo = s.echoM) ∧
      ((s.field n).beacons ≠ 0 → (t.field n).echo = (s.field n).echo ∧
        (t.field n).adj = (s.echoM.toNat : Int) - (s.field n).echo.toNat))) ∧
  (∀ (s : State) (n dly up : Nat), fieldOn s n = true →
    up = (if n ∈ [7, 9, 11] then (s.field 10).dly else if n ∈ [4, 6, 8] then (s.field 7).dly
      else if n ∈ [1, 3, 5] then (s.field 4).dly else if n ∈ [0, 2] then (s.field 1).dly else 0) →
    (∃ t, exec (.echoDelayMeasure n dly) s = .next t ∧ { t with fields := s.fields } = s ∧
      t.field n = { s.field n with dly := (up + dly) % 2 ^ 16 }) ∧
    (∃ t, exec (.echoBeaconLoss n) s = .next t ∧ t.mem = s.mem ∧ t.cores = s.cores ∧
      t.field n = { s.field n with ehold := true })) ∧
  (∀ (s : State) (ofs d : Int), (2 ≤ cfgNum s 0x20 0x0011 0 1 ∧ d = ofs) ∨ (cfgNum s 0x20 0x0011 0 1 = 1 ∧
      cfgNum s 0x20 0x0013 0 0 ≠ 1 ∧ s.ech.upPort.isSome = true ∧ d = s.ech.pend) →
    ∃ t, exec (.echoDiscipline ofs) s = .next t ∧ t.mem = s.mem ∧ t.cores = s.cores ∧
      t.ech.ofs = max (-2147483648) (min 2147483647 d) ∧
      (-1000000 ≤ d → d ≤ 1000000 → t.echoM = s.echoM ∧ t.ech.slew = d ∧ t.ech.st = 2) ∧
      (1000000 < d → t.echoM = s.echoM + BitVec.ofInt 64 d ∧ t.ech.st = 2 ∧ t.ech.steps = min 0xFFFF (s.ech.steps + 1) ∧
        ∀ n < 12, (t.field n).echo = (s.field n).echo + BitVec.ofInt 64 d) ∧
      (d < -1000000 → t.echoM = s.echoM ∧ t.ech.back = true ∧ t.ech.st = 3)) ∧
  (∀ (s : State), cfgNum s 0x20 0x0011 0 1 ≠ 0 → ∃ t, exec .echoSourceLoss s = .next t ∧ { t with ech := s.ech } = s ∧
    t.ech.st = 3 ∧ t.ech.slew = 0) ∧
  (∀ (s : State) (port domain : Nat) (ofs : Int),
    (port = cfgNum s 0x20 0x0016 0 0 → domain = cfgNum s 0x20 0x0017 0 0 → cfgNum s 0x20 0x0011 0 1 = 2 →
      ∃ t, exec (.ptpMessage port domain ofs) s = .next t ∧ { t with ech := s.ech } = s ∧ t.ech.src = 2 ∧ t.ech.pend = ofs ∧
        t.ech.ofs = max (-2147483648) (min 2147483647 ofs)) ∧
    (port ≠ cfgNum s 0x20 0x0016 0 0 ∨ domain ≠ cfgNum s 0x20 0x0017 0 0 → exec (.ptpMessage port domain ofs) s = .next s)) ∧
  (∀ (s : State) (l k : Nat), cfgNum s 0x20 0x0011 0 1 = 3 → s.ech.lastPps = some l → 1 ≤ k →
    (s.echoM.toNat + 100000 < l + 1000000000 ∨
        (l + k * 1000000000 + 100000 < s.echoM.toNat ∧ s.echoM.toNat + 100000 < l + (k + 1) * 1000000000) → ∃ t, exec .ppsEdge s = .next t ∧
      { t with ech := s.ech } = s ∧ t.ech.ppsIgnored = s.ech.ppsIgnored + 1 ∧ t.ech.ppsBad = s.ech.ppsBad + 1 ∧
      t.ech.st = if 2 ≤ s.ech.ppsBad then 3 else s.ech.st) ∧
    (l + k * 1000000000 ≤ s.echoM.toNat + 100000 → s.echoM.toNat ≤ l + k * 1000000000 + 100000 →
      s.ech.ppsTime = some (l + k * 1000000000) →
      ∃ t, exec .ppsEdge s = .next t ∧ { t with ech := s.ech } = s ∧ t.ech.lastPps = some (l + k * 1000000000) ∧ t.ech.ppsBad = 0 ∧
        t.ech.src = 3 ∧ t.ech.slew = ((l + k * 1000000000 : Nat) : Int) - s.echoM.toNat ∧ t.ech.st = 2)) ∧
  (∀ (s : State) (b : Bool), ∃ t, exec (.echoRefChange b) s = .next t ∧ { t with ech := s.ech } = s ∧
    { t.ech with refPresent := s.ech.refPresent } = s.ech ∧ t.ech.refPresent = b)

/-- R392 to R394, R426 to R432, R436, Table 13.7: a low VIN is recorded; out of range it stops every stage it feeds,
and the die's state and memory are gone: the device is in STANDBY while VSTBY is there, else OFF. An input brings a
device that is OFF to STANDBY, and HELD after the third start that VIN ended; in STANDBY autostart begins a cold
start. A blade above 80 A over 10 ms counts as over the limit until both read 76 A or less. At the trip temperature
every stage fed from VIN stops. A FAN channel that has reached 90 % of its voltage runs, and one that has not, or
exceeds its current, trips and retries; the channels on VSTBY trip together. Log entries 10, 13, 61 and 62 name the
model's choices in it. -/
def Obligations.InputsTemperaturesAndFansAct : Prop :=
  (∀ (s : State) (mv : Nat), s.pwr.vin = true →
    (39000 ≤ mv → mv < 40000 → ∃ t, exec (.vinLowWarning mv) s = .next t ∧ t.pwr = { s.pwr with volt := mv } ∧ t.mem = s.mem ∧
      t.cores = s.cores ∧ t.dev = s.dev) ∧
    (mv < 39000 ∨ 61000 < mv → ∃ t, exec (.vinFault mv) s = .next t ∧ t.pwr.vin = false ∧ t.mem = [] ∧
      (∀ c, t.core c = Core.reset) ∧
      t.dev = if s.pwr.vstby = false then .off else if s.dev = .held then .held else .standby)) ∧
  (∀ (s : State) (mv : Nat), s.pwr.vin = false → 39000 ≤ mv → mv ≤ 61000 → ∃ t, exec (.vinArrive mv) s = .next t ∧
    t.pwr.vin = true ∧ t.pwr.volt = mv ∧ t.mem = s.mem ∧ t.cores = s.cores ∧
    (s.wake.lostStart = none → t.dev = if s.dev = .off then (if 3 ≤ s.wake.failedStarts then .held else .standby) else s.dev) ∧
    (∀ a, s.wake.lostStart = some a → s.now ≤ a + 1000000000 → t.wake.failedStarts = s.wake.failedStarts + 1 ∧
      (2 ≤ s.wake.failedStarts → t.dev = .held))) ∧
  (∀ (s : State), s.dev = .standby → s.pwr.vin = true → cfgNum s 0x02 0x0008 0 1 = 1 → s.wake.thermal = false →
    ∃ t, exec .autostart s = .next t ∧ t.dev = .waking ∧ t.stage = 1 ∧ t.wake.start = some ⟨false, s.echoM, t.survey.nextSeq⟩ ∧
      ∀ c, t.core c = Core.reset) ∧
  (∀ (s : State), s.pwr.vstby = true → ∃ t, exec .vstbyLoss s = .next t ∧ t.pwr.vstby = false ∧
    (s.pwr.vin = true → t.dev = s.dev ∧ t.mem = s.mem ∧ t.cores = s.cores) ∧ (s.pwr.vin = false → t.dev = .off)) ∧
  (∀ (s : State), ∃ t, exec .vstbyArrive s = .next t ∧ t.pwr.vstby = true ∧ t.mem = s.mem ∧ t.cores = s.cores ∧
    t.dev = if s.dev = .off then (if 3 ≤ s.wake.failedStarts then .held else .standby) else s.dev) ∧
  (∀ (s : State) (a b : Nat) (bl : List (Nat × Nat)), s.pwr.vin = true → bl = ((a, b) :: s.pwr.blades).take 100 →
    ∃ t, exec (.bladeCurrentSample a b) s = .next t ∧ t.pwr.blades = bl ∧ t.mem = s.mem ∧ t.cores = s.cores ∧
      (s.pwr.bladeOver = false → 8000 < (bl.map (·.1)).sum / bl.length ∨ 8000 < (bl.map (·.2)).sum / bl.length →
        t.pwr.bladeOver = true ∧ LogGets s t 0x2003 4) ∧
      (s.pwr.bladeOver = true → t.pwr.bladeOver = !(decide (a ≤ 7600) && decide (b ≤ 7600)))) ∧
  (∀ (s : State) (tiles others : List Nat), ∃ t, exec (.tempSample tiles others) s = .next t ∧ t.mem = s.mem ∧ t.cores = s.cores ∧
    t.dev = s.dev ∧ t.pwr.temps = tiles.take 1344 ∧ t.pwr.otherTemps = others.take 15 ∧
    t.pwr.warnAge = if (tiles.take 1344 ++ others.take 15).any (fun x => decide (cfgNum s 0x11 0x0003 0 95 ≤ x)) then 0
      else min 100 (s.pwr.warnAge + 1)) ∧
  (∀ (s : State), s.dev ≠ .off → s.dev ≠ .standby → ∃ t, exec .thermalTrip s = .next t ∧ t.wake.thermal = true ∧ t.mem = [] ∧
    (∀ c, t.core c = Core.reset) ∧ t.dev = if s.dev = .held then .held else .standby) ∧
  (∀ (s : State) (c volt : Nat), c < 4 → (s.auxCh c).st = 1 → ∃ t, exec (.fanStartCheck c volt) s = .next t ∧ t.mem = s.mem ∧
    t.cores = s.cores ∧ (∀ k, k ≠ c → t.auxCh k = s.auxCh k) ∧
    (9 * (s.auxCh c).vset ≤ 10 * volt → t.auxCh c = { s.auxCh c with st := 2, retry := 0 }) ∧
    (10 * volt < 9 * (s.auxCh c).vset → (t.auxCh c).st = 3 ∧ (t.auxCh c).trip = true ∧ (t.auxCh c).cause = 3)) ∧
  (∀ (s : State) (c : Nat), c < 6 →
    ((s.auxCh c).st = 1 ∨ (s.auxCh c).st = 2 → ∃ t, exec (.auxTrip c) s = .next t ∧ t.mem = s.mem ∧ t.cores = s.cores ∧
      (∀ k, k ≠ c → t.auxCh k = s.auxCh k) ∧ t.auxCh c = { s.auxCh c with
        st := 3, trip := true, cause := 1, tach := 0, latch := (s.auxCh c).latch || decide (3 ≤ (s.auxCh c).retry) } ∧
      LogGets s t 0x2201 4) ∧
    ((s.auxCh c).st = 2 → ∃ t, exec (.auxOverloadTrip c) s = .next t ∧ t.mem = s.mem ∧ (t.auxCh c).st = 3 ∧
      (t.auxCh c).trip = true ∧ (t.auxCh c).cause = 2) ∧
    ((s.auxCh c).st = 3 → (s.auxCh c).latch = false → (s.auxCh c).cause ≠ 4 → (s.auxCh c).retry < 3 → auxWanted s c = true →
      ∃ t, exec (.auxRetry c) s = .next t ∧ { t with pwr := s.pwr } = s ∧ (t.auxCh c).retry = (s.auxCh c).retry + 1 ∧
        (t.auxCh c).st = if c < 4 then 1 else 2)) ∧
  (∀ (s : State), ∃ t, exec .auxStandbyTrip s = .next t ∧ t.mem = s.mem ∧ t.cores = s.cores ∧ ∀ c < 6,
    (((s.auxCh c).ofVstby = true ∧ ((s.auxCh c).st = 1 ∨ (s.auxCh c).st = 2)) → (t.auxCh c).st = 3 ∧ (t.auxCh c).cause = 4) ∧
    (¬ ((s.auxCh c).ofVstby = true ∧ ((s.auxCh c).st = 1 ∨ (s.auxCh c).st = 2)) → t.auxCh c = s.auxCh c)) ∧
  (∀ (s : State) (c rpm : Nat), c < 4 → (s.auxCh c).st = 2 → ∃ t, exec (.fanStall c rpm) s = .next t ∧ t.mem = s.mem ∧
    t.cores = s.cores ∧ t.auxCh c = { s.auxCh c with tach := min rpm 0xFFFF })

/-- R402, R403, R405 to R410: the 60th deviating average in a row declares a joint suspect, a test that finds it again
confirms it, and a confirmed phase stops. A domain that trips is TRIPPED, recorded, and what it feeds is lost; a stage
that stops takes its 8 groups, and a power-controller die that fails the stages of its three fields (R20). Two waiting
CG domains of a field power up at a time, and a domain that has moved is as its move says. Log entries 10, 13 and 64
name the model's choices in it. -/
def Obligations.JointsAndDomainsFailOrMove : Prop :=
  (∀ (s : State) (u : JointUnit) (d : Bool) (n : Nat), jointOk u = true →
    n = (if d then min 60 (mget 0 s.pwr.joints (jointKey u) + 1) else 0) → ∃ t, exec (.jointSample u d) s = .next t ∧
    t.mem = s.mem ∧ t.cores = s.cores ∧ mget 0 t.pwr.joints (jointKey u) = n ∧
    (n < 60 → t.pwr.suspects = s.pwr.suspects) ∧
    (n = 60 → (∀ x ∈ s.pwr.suspects, x.unit ≠ u) → t.pwr.suspects = s.pwr.suspects ++ [⟨u, false, s.echoM⟩])) ∧
  (∀ (s : State) (u : JointUnit),
    (exec (.jointTest u false) s = .next s) ∧
    (∃ t, exec (.jointSuspectExpire u) s = .next t ∧ { t with pwr := s.pwr } = s ∧
      ∀ x, x ∈ t.pwr.suspects ↔ x ∈ s.pwr.suspects ∧ ¬ (x.unit = u ∧ x.confirmed = false))) ∧
  (∀ (s : State) (n i : Nat) (x : Suspect), n < 12 → i < 12 → (s.field n).live.testBit i = true → 8 ≤ livePhases s n →
    (x ∈ s.pwr.suspects → x.unit = .phase n i → x.confirmed = false → ∃ t, exec (.jointTest (.phase n i) true) s = .next t ∧
      (t.field n).live = (s.field n).live - 2 ^ i ∧ SurveyGets s t 6 (natBytes 1 n ++ natBytes 1 i) ∧ t.mem = s.mem) ∧
    (∃ t, exec (.phaseTrip n i) s = .next t ∧ (t.field n).live = (s.field n).live - 2 ^ i ∧
      (∀ m, m ≠ n → t.field m = s.field m) ∧ SurveyGets s t 6 (natBytes 1 n ++ natBytes 1 i) ∧ t.mem = s.mem ∧
      t.cores = s.cores)) ∧
  (∀ (s : State) (d : Nat),
    (d < 96 → domOf s d = .on → (s.grp d).lost = false → ∃ t, exec (.domainTrip d) s = .next t ∧ domOf t d = .tripped ∧
      (t.grp d).off = true ∧ (t.grp d).lost = true ∧ SurveyAdds s t 7 (natBytes 2 d)) ∧
    (116 ≤ d → d < 132 → domOf s d = .on → (s.stack (d - 116)).st ≠ .retired → ∃ t, exec (.domainTrip d) s = .next t ∧
      domOf t d = .tripped ∧ (t.stack (d - 116)).st = .off ∧ SurveyGets s t 7 (natBytes 2 d) ∧
      (∀ c e b, b ∈ ((s.core c).eng e).bursts → b.status = none → b.data = none → hitsStack s b.src b.len (d - 116) = true →
        { b with status := some 8 } ∈ ((t.core c).eng e).bursts) ∧
      (∀ c, (∀ g, (s.core c).ctl.blk ≠ .gacc g) → { t.core c with dma := (s.core c).dma } = s.core c) ∧
      ∀ x, hbmKey (d - 116) 0 ≤ x → x < hbmKey (d - 116) 0 + 0xC00000000 → memGet t.mem x = 0)) ∧
  (∀ (s : State) (x : StageLoss) (n : Nat), n < 12 → x = .stage n ∨ x = .die n → ∃ t, exec (.stageTrip x) s = .next t ∧ ∀ m < 12,
    m = n ∨ (x = .die n ∧ ∃ p ∈ [[0, 1, 3], [2, 4, 5], [6, 7, 9], [8, 10, 11]], n ∈ p ∧ m ∈ p) → (t.field m).vcore = 0 ∧
      ∀ row < 8, domOf s (8 * m + row) = .on → domOf t (8 * m + row) = .tripped) ∧
  (∀ (s : State) (n : Nat), n < 12 → ∃ t, exec (.cgPowerupWave n) s = .next t ∧ t.mem = s.mem ∧ t.cores = s.cores ∧
    (t.field n).powerUp = (s.field n).powerUp.drop 2 ∧ ∀ g ∈ (s.field n).powerUp.take 2, mfind t.pwr.trans g = some .on) ∧
  (∀ (s : State) (d : Nat), d < 96 → domOf s d ≠ .tripped →
    (mfind s.pwr.trans d = some .on → fieldOn s (d / 8) = true → 7 ≤ livePhases s (d / 8) → ∃ t, exec (.domainTransitionDone d) s = .next t ∧ domOf t d = .on ∧
      (t.grp d).off = false ∧ ∀ k < 12, (t.core (12 * d + k)).crst = false) ∧
    (mfind s.pwr.trans d = some .off → ∃ t, exec (.domainTransitionDone d) s = .next t ∧ domOf t d = .off ∧
      (t.grp d).off = true) ∧
    (mfind s.pwr.trans d = some .retention → ∃ t, exec (.domainTransitionDone d) s = .next t ∧ domOf t d = .retention)) ∧
  (∀ (s : State) (st : Nat), st < 16 → domOf s (116 + st) = .on → (s.stack st).st = .training →
    ∃ t, exec (.domainTransitionDone (116 + st)) s = .next t ∧ (t.stack st).st = .ready ∧ t.mem = s.mem)

/-- R414 to R425: a 1 ms average more than 5 % above the top brakes every field to STEP 0; the governor lowers what
runs by 2 STEPs while the 10 ms average exceeds the limit, raises by 2 toward nominal below 97 % of it, and leaves the
targets between; a boosted field comes down as the average reaches the limit (R22). Under lending a member reports,
the manager sends decreases first and increases after their confirmation, and a member takes a limit within its
bounds. Log entries 13, 63 and 65 name the model's choices in it. -/
def Obligations.TheGovernorKeepsTheLimit : Prop :=
  (∀ (s : State) (w aux a top : Nat) (parts p : List Nat), p = (w :: s.pwr.power).take 100 →
    a = (p.take 10).sum / (p.take 10).length → top = (if s.wake.mgmt then limitNow s else Config.inputCeiling) →
    (s.pwr.brake = false → 105 * top < 100 * a → ∃ t, exec (.powerSample w aux parts) s = .next t ∧ t.mem = s.mem ∧
      t.cores = s.cores ∧ t.pwr.brake = true ∧ (∀ i < 16, (t.stack i).rate = min (s.stack i).rate 256) ∧
      (∀ n, fieldOn s n = true → (t.field n).target = 0) ∧
      t.clk.armed = some ⟨s.echoM.toNat + 50000, (onFields s).map (fun n => (n, 0)), false⟩) ∧
    (s.pwr.brake = true ∨ 100 * a ≤ 105 * top → cfgNum s 0x10 0x0007 0 0 ≠ 1 → ∃ t, exec (.powerSample w aux parts) s = .next t ∧
      { t with pwr := s.pwr } = s ∧ t.pwr.power = p ∧ t.pwr.auxPower = aux ∧ t.pwr.brake = s.pwr.brake)) ∧
  (∀ (s : State) (n : Nat), fieldOn s n = true → s.pwr.brake = false → s.pwr.decafBrake = false → cfgNum s 0x10 0x0007 0 0 ≠ 1 →
    s.wake.mgmt = false → s.pwr.capHit = [] → (∀ m, (s.field m).partTgt = [] ∧ (s.field m).tcap = 80) →
    (∀ p < 16, cfgNum s 0x10 0x0010 p 0 = 0) → (∀ m, fieldOn s m = true → (s.field m).target ≤ Config.nominalStep) →
    (limitNow s < avg10 s → 0 < stepWanted s n → ∃ t, exec .governorDecision s = .next t ∧ t.mem = s.mem ∧ t.cores = s.cores ∧
      (t.field n).target = stepWanted s n - 2) ∧
    (avg10 s ≤ limitNow s → 97 * limitNow s < 100 * avg10 s → s.pwr.bladeOver = false →
      ∃ t, exec .governorDecision s = .next t ∧ t.mem = s.mem ∧ t.cores = s.cores ∧ (t.field n).target = (s.field n).target) ∧
    (100 * avg10 s ≤ 97 * limitNow s → s.pwr.bladeOver = false → (s.field n).target < Config.nominalStep →
      (∀ i < 16, (s.stack i).st ≠ .ready ∨ (s.stack i).throttled = true ∨ rateLimit s ≤ (s.stack i).rate) →
      ∃ t, exec .governorDecision s = .next t ∧ t.mem = s.mem ∧ t.cores = s.cores ∧
        (t.field n).target = min Config.nominalStep ((s.field n).target + 2))) ∧
  (∀ (s : State) (n : Nat), fieldOn s n = true → s.pwr.brake = false → s.pwr.decafBrake = false → cfgNum s 0x10 0x0007 0 0 ≠ 1 →
    s.wake.mgmt = false → s.pwr.capHit = [] → (∀ m, (s.field m).partTgt = [] ∧ (s.field m).tcap = 80) →
    (∀ p < 16, cfgNum s 0x10 0x0010 p 0 = 0) → s.pwr.bladeOver = false → avg10 s = limitNow s →
    Config.nominalStep < stepWanted s n → ∃ t, exec .governorDecision s = .next t ∧ t.mem = s.mem ∧ t.cores = s.cores ∧
      (t.field n).target = stepWanted s n - 2) ∧
  (∀ (s : State), ∃ t, exec .brakeRelease s = .next t ∧ { t with pwr := s.pwr } = s ∧ t.pwr = { s.pwr with brake := false }) ∧
  (∀ (s : State), s.pwr.decafBrake = true →
    (100 * avg1 s < 95 * limitNow s → ∃ t, exec .decafBrakeRelease s = .next t ∧ t.mem = s.mem ∧ t.cores = s.cores ∧
      t.pwr.decafBrake = false ∧ ∀ n, fieldOn s n = true → (t.field n).target = Config.nominalStep) ∧
    (limitNow s < avg1 s → ∃ t, exec .decafBrakeRelease s = .next t ∧ t.mem = s.mem ∧ t.cores = s.cores ∧
      t.pwr.decafBrake = true ∧ ∀ n, fieldOn s n = true → (t.field n).target = stepWanted s n - 16)) ∧
  (∀ (s : State) (w grp mgr part : Nat), lendGroup s = some (grp, mgr, part) → s.wake.mgmt = false →
    (cfgNum s 0x10 0x0007 0 0 = 1 → exec (.lendReport w) s = .next { s with out := s.out ++ [.lend mgr 5 0] }) ∧
    (cfgNum s 0x10 0x0007 0 0 ≠ 1 → ∃ t, exec (.lendReport w) s = .next t ∧ t.mem = s.mem ∧ t.cores = s.cores ∧
      t.out = s.out ++ [.lend mgr 0 (moduleLimit s), .lend mgr 1 Config.inputCeiling, .lend mgr 2 (cfgNum s 0x10 0x0031 0 1200),
        .lend mgr 3 (limitNow s), .lend mgr 4 w]) ∧
    (∀ (ns ms : List LendMember) (old : Nat → Nat), mgr = s.devId →
      ms = ns.map (fun m => { m with limit := mget m.limit s.pwr.lowered m.dev }) →
      (∀ d, old d = ((ms.find? (fun m => m.dev == d)).map (·.limit)).getD 0) →
      ∃ t, exec (.lendRound ns) s = .next t ∧ t.mem = s.mem ∧ t.cores = s.cores ∧
        t.pwr.raises = (lendNew ms).filter (fun x => decide (old x.1 < x.2)) ∧
        t.pwr.lowered = ((lendNew ms).filter (fun x => decide (x.2 < old x.1))).map (fun x => (x.1, old x.1)) ∧
        t.out = s.out ++ ((lendNew ms).filter (fun x => decide (x.2 < old x.1) && decide (x.1 ≠ s.devId))).map
          (fun x => .lend x.1 6 x.2)) ∧
    (cfgNum s 0x10 0x0007 0 0 ≠ 1 → 1200 ≤ w → w ≤ Config.inputCeiling → ∃ t, exec (.lendLimitMessage w) s = .next t ∧
      t.mem = s.mem ∧ t.cores = s.cores ∧ limitNow t = w ∧ t.out = s.out ++ [.lend mgr 7 w])) ∧
  (∀ (s : State) (done : List Nat), ∃ t, exec (.lendConfirmTimeout done) s = .next t ∧ t.mem = s.mem ∧ t.cores = s.cores ∧
    t.pwr.raises = [] ∧ t.pwr.lowered = s.pwr.lowered.filter (fun d => !done.contains d.1) ∧
    t.out = s.out ++ (s.pwr.raises.filter (fun x => decide (x.1 ≠ s.devId))).map (fun x => .lend x.1 6 x.2)) ∧
  (∀ (s : State), ∃ t, exec .lendFallback s = .next t ∧ { t with pwr := s.pwr } = s ∧ limitNow t = s.pwr.limit)

/-- R438 to R450, R459 to R461, Table 14.3: a released pin, or recovery from FAULTED, begins a start at its first
stage; each stage that ends brings what it brings and the next begins, and the last brings READY or DEGRADED; a stage
that comes up from another bank than the one on trial ends that trial, whose second begins with a cold start; one that
overruns fails the start, and the third failure brings HELD. A compute reset ends with its groups released, a
partition's with RESETTING gone, a core's with CRST gone. A tested spare takes the failed column, and a failed core
with an idle spare puts its group under re-map; one that stops its router's clock costs the router and a compute reset
(R38). Log entries 10, 13 and 61 name the model's choices in it. -/
def Obligations.StartsResetsAndRemapsProceed : Prop :=
  (∀ (s : State) (ns : Nat), ns < 1000 →
    exec (.coldRstRelease ns) s = .next s ∧ exec (.warmRstRelease ns) s = .next s) ∧
  (∀ (s : State) (ns : Nat), 1000 ≤ ns → s.pwr.vin = true → s.dev ≠ .off → s.dev ≠ .held →
    (∃ t, exec (.coldRstRelease ns) s = .next t ∧ t.dev = .waking ∧ t.stage = 1 ∧
      t.wake.start = some ⟨false, s.echoM, t.survey.nextSeq⟩ ∧
      t.mem = [] ∧ ∀ c, t.core c = Core.reset) ∧
    (s.wake.start = none → s.wake.vinStayed = true → s.dev ≠ .standby → ∃ t, exec (.warmRstRelease ns) s = .next t ∧
      t.dev = .waking ∧ t.stage = 4 ∧ t.wake.start = some ⟨true, s.echoM, t.survey.nextSeq⟩) ∧
    (s.dev = .faulted → s.wake.recoverDue = true → cfgNum s 0x02 0x0009 0 1 = 1 → ∃ t, exec .autoRecover s = .next t ∧
      t.dev = .waking ∧ t.stage = 1 ∧ t.wake.start = some ⟨false, s.echoM, t.survey.nextSeq⟩)) ∧
  (∀ (s : State) (o : StageOutcome) (t0 : W64) (q : Nat), s.wake.start = some ⟨false, t0, q⟩ → o.defects = [] → o.cleared = [] →
    (∀ b, s.stage = 1 → o.bank = some b → b ∈ bankOrder s → (trialOn s = true → s.fw.pending = some b) →
      ∃ t, exec (.coldStartStageEnd o) s = .next t ∧ t.stage = 2 ∧ t.fw.runL = b ∧ t.mem = s.mem) ∧
    (∀ b, s.stage = 1 ∨ s.stage = 3 → o.bank = some b → trialOn s = true → s.fw.pending ≠ some b → s.fw.trials ≤ 1 →
      s.fw.upd ≠ 5 → ∃ t, exec (.coldStartStageEnd o) s = .next t ∧ t.dev = .waking ∧ t.stage = 1 ∧ t.fw.trials = 2 ∧
        t.fw.pending = s.fw.pending) ∧
    (s.stage = 2 → ∃ t, exec (.coldStartStageEnd o) s = .next t ∧ t.stage = 3 ∧ ∀ h < 2, cfgNum s 0x70 0x0002 h 1 = 1 →
      domDefect s (132 + h) = false → domOf s (132 + h) ≠ .tripped → domOf t (132 + h) = .on) ∧
    (s.stage = 4 → ∃ t, exec (.coldStartStageEnd o) s = .next t ∧ t.stage = 5 ∧ ∀ n < 12,
      (noFieldRouter s n = true → domOf t (96 + n) = .tripped) ∧
      (n ∉ o.fnFailed → noFieldRouter s n = false → domDefect s (96 + n) = false → domOf s (96 + n) ≠ .tripped →
        domOf t (96 + n) = .on ∧ (t.field n).echo = s.echoM)) ∧
    (s.stage = 6 → ∃ t, exec (.coldStartStageEnd o) s = .next t ∧ t.stage = 7 ∧ ∀ g < 96,
      (cgMay s g = true → domOf t g = .on ∧ (t.grp g).off = false) ∧ (cgMay s g = false → (t.grp g).off = true)) ∧
    (s.stage = 7 → ∃ t, exec (.coldStartStageEnd o) s = .next t ∧ t.stage = 8 ∧ ∀ st < 16, domDefect s (116 + st) = false →
      domOf s (116 + st) = .on → (t.stack st).st = .ready ∧ (t.stack st).sref = false ∧
        (t.stack st).rate = cfgNum s 0x60 0x0002 0 rateDefault ∧
        (t.stack st).scrubEn = decide (cfgNum s 0x60 0x0003 0 24 ≠ 0)) ∧
    (s.stage = 9 → serviceable s = true → ∃ t, exec (.coldStartStageEnd o) s = .next t ∧ t.wake.start = none ∧
      t.wake.failedStarts = 0 ∧ t.dev = (if degradedBy t = 0 then .ready else .degraded) ∧
      (∀ p < 16, (t.part p).hDevice = false ∧ (t.part p).resetting = false) ∧ t.locks = [] ∧ t.mchans = []) ∧
    (trialOn s = false → ∃ t, exec .startStageDeadline s = .next t ∧ t.wake.start = none ∧
      t.dev = if 2 ≤ s.wake.failedStarts then .held else .faulted)) ∧
  (∀ (s : State) (t0 : W64) (q : Nat), s.wake.start = some ⟨true, t0, q⟩ →
    (∀ n, (s.stage = 4 ∧ n = 5) ∨ (s.stage = 5 ∧ n = 6) ∨ (s.stage = 6 ∧ n = 7) ∨ (s.stage = 7 ∧ n = 9) →
      ∃ t, exec (.warmStartStageEnd true) s = .next t ∧ t.stage = n ∧ t.dev = s.dev ∧ t.mem = s.mem) ∧
    (s.stage = 9 → serviceable s = true → ∃ t, exec (.warmStartStageEnd true) s = .next t ∧ t.wake.start = none ∧
      t.wake.failedStarts = s.wake.failedStarts ∧ t.dev = (if degradedBy t = 0 then .ready else .degraded)) ∧
    (trialOn s = false → ∃ t, exec (.warmStartStageEnd false) s = .next t ∧ t.dev = .waking ∧ t.stage = 1 ∧
      ∃ r, t.wake.start = some r ∧ r.warm = false)) ∧
  (∀ (s : State), s.wake.compute = true →
    (s.wake.drained = false → s.pwr.offDue = [] → ∃ t, exec .computeResetDrainEnd s = .next t ∧ t.wake.drained = true ∧
      t.mchans = [] ∧ t.cntDenied = 0) ∧
    (s.wake.drained = true → ∃ t, exec .computeResetDone s = .next t ∧ t.wake.compute = false ∧ t.wake.drained = false ∧
      t.mem = s.mem ∧ t.dev = (if degradedBy s = 0 then .ready else .degraded) ∧
      ∀ g < 96, (s.grp g).remap = none → (s.grp g).check = false → (s.grp g).lost = false → domOf s g = .on →
        (∀ p, (s.grp g).part = some p → (s.part p).resetting = false) → ∀ k < 12, (t.core (12 * g + k)).crst = false)) ∧
  (∀ (s : State) (p : Nat),
    ((s.part p).resetting = false → exec (.partitionResetDone p) s = .next s) ∧
    ((s.part p).resetting = true → ∃ t, exec (.partitionResetDone p) s = .next t ∧ (t.part p).resetting = false)) ∧
  (∀ (s : State) (c : Nat),
    (mayRelease s c = true → ∃ t, exec (.coreResetDone c) s = .next t ∧ (t.core c).crst = false ∧ t.mem = s.mem ∧
      (∀ r, rg t c r = rg s c r) ∧ ∀ k, k ≠ c → t.core k = s.core k) ∧
    (mayRelease s c = false → exec (.coreResetDone c) s = .next s)) ∧
  (∀ (s : State) (g col : Nat), (s.grp g).remap = some ⟨col, false⟩ →
    (∃ t, exec (.remapSpareTested g true) s = .next t ∧ (t.grp g).skip = col ∧ (t.grp g).remap = some ⟨col, true⟩ ∧
      t.mem = s.mem ∧ ∀ c, { t.core c with repairs := (s.core c).repairs, spares := (s.core c).spares } = s.core c) ∧
    (∃ t, exec (.remapSpareTested g false) s = .next t ∧ (t.grp g).lost = true ∧
      SurveyAdds s t 1 (natBytes 1 (13 * (g / 8 % 3) + 12) ++ natBytes 1 (8 * (g / 24) + g % 8) ++ natBytes 1 1 ++ natBytes 1 0))) ∧
  (∀ (s : State) (g col : Nat), (s.grp g).remap = some ⟨col, true⟩ → (s.grp g).part = none → s.wake.compute = false →
    s.wake.start = none → domOf s g = .on → ∃ t, exec (.remapDone g) s = .next t ∧ (t.grp g).remap = none ∧ t.mem = s.mem ∧
      ∀ k < 12, (t.core (12 * g + k)).crst = false) ∧
  (∀ (s : State) (c g col : Nat), present s c = true → g = c / 12 → col = (if c % 12 < (s.grp g).skip then c % 12 else c % 12 + 1) →
    (∀ clock, s.wake.mgmt = true → ∃ t, exec (.coreFailDetected ⟨c, clock⟩) s = .next t ∧ { t with wake := s.wake } = s ∧
      t.wake.waitFail = s.wake.waitFail ++ [c]) ∧
    (s.wake.mgmt = false → (s.grp g).remap = none → (s.grp g).skip = 12 → ((s.grp g).tdead ||| (s.grp g).rdead).testBit 12 = false →
      (∃ t, exec (.coreFailDetected ⟨c, false⟩) s = .next t ∧ (t.grp g).remap = some ⟨col, false⟩ ∧ (t.grp g).rst = true ∧
        SurveyAdds s t 1 (natBytes 1 (13 * (g / 8 % 3) + col) ++ natBytes 1 (8 * (g / 24) + g % 8) ++ natBytes 1 1 ++
          natBytes 1 0)) ∧
      ((s.grp g).rdead.testBit col = false → (s.grp g).lost = false → noFieldRouter s (g / 8) = false → g % 8 ≠ 3 → g % 8 ≠ 4 →
        ∃ t, exec (.coreFailDetected ⟨c, true⟩) s = .next t ∧ (t.grp g).remap = some ⟨col, false⟩ ∧
          (t.grp g).rdead = (s.grp g).rdead ||| 2 ^ col ∧ (t.grp g).tdead = (s.grp g).tdead ||| 2 ^ col ∧
          SurveyAdds s t 1 (natBytes 1 (13 * (g / 8 % 3) + col) ++ natBytes 1 (8 * (g / 24) + g % 8) ++ natBytes 1 3) ∧
          (s.dev = .ready ∨ s.dev = .degraded → t.dev = .waking ∧ t.wake.compute = true))))

/-- R47, R196, R452 to R458, R469, R470, R476, R479 to R482: a silent Carafe restarts, and what waited for it is done
when it is back. HALT_N sets and clears the SYSTEM cause of every partition that follows it; a halt stops a core and
RUN lets it go on; a partition whose cores have all stopped has halted. A coalescing window ends in one record, the
log goes to flash, a table entry is rewritten, a mismatch of fuses or an uncorrectable word of M's memory is fatal,
the Survey is compacted to its live entries in its other half, whose header then makes it current, and a field check
records what it found. Log entries 10, 13, 66 and 69 name the model's choices in it. -/
def Obligations.HaltsRestartsAndRecordsProceed : Prop :=
  (∀ (s : State), s.dev ≠ .off → s.wake.mgmt = false → trialOn s = false → ∃ t, exec .watchdogExpire s = .next t ∧
    t.wake.mgmt = true ∧ t.dev = s.dev ∧ t.mem = s.mem ∧ t.cores = s.cores) ∧
  (∀ (s : State), s.wake.mgmt = true →
    (∀ b, (bankOrder s)[s.fw.tries / 2]? = some b → s.wake.waitFail = [] → ∃ t, exec (.carafeTakeControl true) s = .next t ∧
      t.wake.mgmt = false ∧ t.wake.waitSurvey = [] ∧ t.fw.runC = b ∧ t.fw.tries = 0 ∧ t.mem = s.mem ∧ t.cores = s.cores) ∧
    (trialOn s = false → s.dev ≠ .off → s.dev ≠ .held → ∃ t, exec (.carafeTakeControl false) s = .next t ∧
      t.fw.tries = s.fw.tries + 1 ∧
      ((bankOrder s).length ≤ (s.fw.tries + 1) / 2 → t.dev = .faulted ∧ t.fw.recovery = true) ∧
      ((s.fw.tries + 1) / 2 < (bankOrder s).length → t.dev = s.dev ∧ t.wake.mgmt = true))) ∧
  (∀ (s : State) (ns : Nat),
    (40 ≤ ns → ∃ t, exec (.haltNAssert ns) s = .next t ∧ t.wake.haltN = true ∧ t.mem = s.mem ∧ t.cores = s.cores ∧
      ∀ p < 16, (t.part p).hSystem = decide (cfgNum s 0x40 0x0008 p 1 = 1)) ∧
    (ns < 40 → exec (.haltNAssert ns) s = .next s) ∧
    (1000 ≤ ns → drivesHalt s = false → ∃ t, exec (.haltNRelease ns) s = .next t ∧ t.wake.haltN = false ∧ t.mem = s.mem ∧
      t.cores = s.cores ∧ ∀ p < 16, (t.part p).hSystem = false) ∧
    (ns < 1000 ∨ drivesHalt s = true → exec (.haltNRelease ns) s = .next s)) ∧
  (∀ (s : State) (c p : Nat), present s c = true → partOf s c = some p →
    (haltBitOf s p = true → (s.core c).ctl.blk = .none → (s.core c).flights = [] →
      ∃ t, exec (.haltArrive c) s = .next t ∧ (t.core c).ctl.haltBit = true ∧ (t.core c).ctl.pc = (s.core c).ctl.pc ∧
        (∀ r, rg t c r = rg s c r) ∧
        ((s.core c).ctl.st = .running → (t.core c).ctl.st = .halted ∧ (t.core c).ctl.resume = .running) ∧
        ((s.core c).ctl.st = .idle → (t.core c).ctl.st = .idle)) ∧
    (∀ g, haltBitOf s p = true → (s.core c).ctl.blk = .gacc g → ∃ t, exec (.haltArrive c) s = .next t ∧ OnlyCore s t c ∧
      t.core c = { s.core c with ctl := { (s.core c).ctl with haltBit := true } }) ∧
    (haltBitOf s p = false → ∃ t, exec (.runArrive c) s = .next t ∧ t.mem = s.mem ∧ (∀ k, k ≠ c → t.core k = s.core k) ∧
      t.core c = { s.core c with ctl := { (s.core c).ctl with
        haltBit := false, st := if (s.core c).ctl.st = .halted then (s.core c).ctl.resume else (s.core c).ctl.st } })) ∧
  (∀ (s : State) (p : Nat), p < 16 → haltBitOf s p = true → s.wake.low = false →
    (∀ c ∈ coresOf s p, (s.core c).flights = [] ∧ ((s.core c).ctl.st = .idle ∨ (s.core c).ctl.st = .halted ∨
      (s.core c).ctl.st = .faulted)) → ∃ t, exec (.partitionHalted p) s = .next t ∧ { t with parts := s.parts } = s ∧
      t.part p = { s.part p with halted := true }) ∧
  (∀ (s : State) (w : Coal) (ws : List Coal), s.coals = w :: ws → ∃ t, exec .errorCoalesceFlush s = .next t ∧ t.coals = ws ∧
    t.mem = s.mem ∧ t.cores = s.cores ∧ (w.count = 0 → t.logBuf = s.logBuf) ∧
    (w.count ≠ 0 → s.wake.mgmt = false → ∃ e, t.logBuf = s.logBuf ++ [e] ∧ e.code = w.code ∧ e.count = w.count ∧
      e.coalesced = true ∧ e.detail = w.detail)) ∧
  (∀ (s : State), ∃ t, exec .eventLogFlush s = .next t ∧ { t with logFlash := s.logFlash, logBuf := s.logBuf } = s ∧ t.logBuf = [] ∧
    t.logFlash = (s.logFlash ++ s.logBuf).drop ((s.logFlash ++ s.logBuf).length - 262144)) ∧
  (∀ (s : State) (x : ParityAt), s.wake.mgmt = false → ∃ t, exec (.parityRewrite x) s = .next t ∧
    { t with badEntries := s.badEntries } = s ∧ ∀ y, y ∈ t.badEntries ↔ y ∈ s.badEntries ∧ y ≠ x) ∧
  (∀ (s : State), exec (.fuseRecheck true) s = .next s) ∧
  (∀ (s : State) (i : Instr), i = .fuseRecheck false ∨ i = .mMemoryUncorrectable → s.dev ≠ .off → s.dev ≠ .held →
    ∃ t, exec i s = .next t ∧ t.dev = .faulted ∧ (∀ p < 16, (t.part p).hDevice = true) ∧ t.mem = s.mem ∧ t.cores = s.cores) ∧
  (∀ (s : State), s.wake.mgmt = false →
    (s.survey.compacting = false → 58982 ≤ s.survey.cur.slots.length + 1 → ∃ t, exec .surveyCompact s = .next t ∧
      t.survey.entries = s.survey.entries ∧ (Config.freeBool s.fresh = true → { t with survey := s.survey, fresh := s.fresh } = s ∧
        t.survey.compacting = true ∧ t.survey.gen = s.survey.gen ∧
        (if s.survey.second then t.survey.half0 else t.survey.half1) = ⟨none, []⟩)) ∧
    (s.survey.compacting = true → s.survey.gen + 1 < 2 ^ 32 → ∃ t, exec .surveyCompact s = .next t ∧ t.survey.compacting = false ∧
      (Config.freeBool s.fresh = true → { t with survey := s.survey, fresh := s.fresh } = s ∧
        t.survey.entries = liveOf s.survey.entries ∧ t.survey.gen = s.survey.gen + 1 ∧
        t.survey.nextSeq = s.survey.nextSeq + 1 ∧
        (if s.survey.second then t.survey.half1 else t.survey.half0) = ⟨none, []⟩)) ∧
    (s.survey.compacting = true ∨ 58982 ≤ s.survey.cur.slots.length + 1 → s.dev ≠ .off →
      ∃ t, exec .surveyCompact s = .next t ∧ t.mem = s.mem ∧ t.cores = s.cores ∧ (Config.freeBool s.fresh = false →
        t.survey.entries = s.survey.entries ∧ t.survey.refuses = true ∧ t.survey.full = true)) ∧
    (s.survey.compacting = false → s.survey.cur.slots.length + 1 < 58982 → exec .surveyCompact s = .next s)) ∧
  (∀ (s : State) (g : Nat) (col r : Nat) (rs : List Nat), s.wake.check.st = 1 → checkTurn s (g / 8) = some g → col < 13 → r ≤ 4 →
    rs = (List.range 13).map (fun i => if i = col then r else 0) → ∃ t, exec (.fieldCheckGroupDone g rs) s = .next t ∧
      t.wake.check.groups = s.wake.check.groups.filter (fun x => x != g) ∧ mget [] t.wake.check.gres g = rs ∧
      (t.grp g).check = false ∧ (r = 0 → s.wake.check.groups = [g] → t.survey = s.survey) ∧
      (0 < r → SurveyAdds s t 1 (natBytes 1 (13 * (g / 8 % 3) + col) ++ natBytes 1 (8 * (g / 24) + g % 8) ++ natBytes 1 1 ++
        natBytes 1 (r - 2)))) ∧
  (∀ (s : State) (u : Nat), s.wake.check.st = 1 → s.wake.check.groups = [] →
    s.wake.check.units.find? (fun x => x / 48 == u / 48) = some u → ∃ t, exec (.fieldCheckUnitDone u []) s = .next t ∧
      t.wake.check.units = s.wake.check.units.filter (fun x => x != u) ∧ t.cores = s.cores ∧
      ∀ x, memGet t.mem x = if unitAddr u ≤ x ∧ x < unitAddr u + 2 ^ 30 then 0 else memGet s.mem x)

/-- R345, R525 to R529, R533, R537, R538, R545, R547: each of these commands completes in every state. An image that
fails a check leaves its bank DOWNLOADED, with event 0x6001; one that passes is VERIFIED, and waits for a cold start,
or runs as a trial in a management restart, a warm start or a cold start, as its kind says. Health confirms a trial
and time out ends it: a second trial, then REJECTED, each by a restart of the trial's kind. A counter that passes its
end wraps into its chained counter or its overflow bit. The sampler writes the oldest record, to its ring in the
scratchpad or in HBM, and only then moves HEAD, or loses it; a record for a stack that has no tokens for it waits. Log
entries 13, 69, 77 and 78 name the model's choices in it. -/
def Obligations.TrialsEndAndCountersWrap : Prop :=
  (∀ (s : State) (x y : Bool) (r : CntRef) (n c : Nat), ∀ i ∈ [Instr.firmwareVerifyDone x y, .trialHealth x y, .trialTimeout,
    .counterWrap r n, .sampleRecord c], ∃ t, exec i s = .next t) ∧
  (∀ (s : State) (sigOk digOk : Bool) (b flags : Nat), s.fw.act = some (b, flags) → s.fw.upd = 2 →
    (imageCheck s b sigOk digOk ≠ 0 → ∃ t, exec (.firmwareVerifyDone sigOk digOk) s = .next t ∧ t.fw.upd = 0 ∧ t.fw.act = none ∧
      mget 0 t.fw.banks b = 1 ∧ LogGets s t 0x6001 4 ∧ t.mem = s.mem ∧ t.cores = s.cores) ∧
    (imageCheck s b sigOk digOk = 0 → actKind s b = 2 → flags.testBit 1 = false →
      ∃ t, exec (.firmwareVerifyDone sigOk digOk) s = .next t ∧ t.fw.upd = 5 ∧ t.fw.act = some (b, flags) ∧
        mget 0 t.fw.banks b = 2 ∧ t.fw.pending = s.fw.pending ∧ LogGets s t 0x6001 4 ∧ t.mem = s.mem ∧ t.cores = s.cores) ∧
    (imageCheck s b sigOk digOk = 0 → actKind s b = 0 → ∃ t, exec (.firmwareVerifyDone sigOk digOk) s = .next t ∧
      t.fw.pending = some b ∧ t.fw.trials = 1 ∧ t.fw.phase = 1 ∧ mget 0 t.fw.banks b = 3 ∧ t.wake.mgmt = true ∧ t.dev = s.dev ∧
      t.mem = s.mem ∧ t.cores = s.cores) ∧
    (imageCheck s b sigOk digOk = 0 → actKind s b = 1 → s.wake.vinStayed = true → s.dev ≠ .standby → s.dev ≠ .off →
      s.dev ≠ .held → ∃ t, exec (.firmwareVerifyDone sigOk digOk) s = .next t ∧ t.fw.pending = some b ∧ t.fw.trials = 1 ∧
        t.fw.phase = 1 ∧ t.wake.mgmt = true ∧ t.dev = .waking ∧ t.stage = 4) ∧
    (imageCheck s b sigOk digOk = 0 → actKind s b = 2 → flags.testBit 1 = true → s.pwr.vin = true → s.dev ≠ .off →
      s.dev ≠ .held → ∃ t, exec (.firmwareVerifyDone sigOk digOk) s = .next t ∧ t.fw.pending = some b ∧ t.fw.trials = 1 ∧
        t.fw.phase = 1 ∧ t.wake.mgmt = false ∧ t.dev = .waking ∧ t.stage = 1)) ∧
  (∀ (s : State) (b : Nat), s.fw.pending = some b → healthOk s = true →
    (cfgNum s 0xA0 0x0007 0 0 = 0 ∨ s.fw.adminOk = true → ∃ t, exec (.trialHealth true true) s = .next t ∧ t.fw.pending = none ∧
      t.fw.active = b ∧ mget 0 t.fw.banks b = 4 ∧ t.fw.trials = 0 ∧ svnCount t 0 = max (svnCount s 0) (headerSvnL s b) ∧
      svnCount t 1 = max (svnCount s 1) (headerSvnC s b) ∧ LogGets s t 0x6001 4 ∧ t.mem = s.mem ∧ t.cores = s.cores) ∧
    (cfgNum s 0xA0 0x0007 0 0 ≠ 0 → s.fw.adminOk = false → ∃ t, exec (.trialHealth true true) s = .next t ∧
      { t with fw := s.fw } = s ∧ t.fw = { s.fw with healthy := true })) ∧
  (∀ (s : State) (fields answered : Bool), fields = false ∨ answered = false ∨ healthOk s = false →
    exec (.trialHealth fields answered) s = .next s) ∧
  (∀ (s : State) (b : Nat), s.fw.pending = some b → s.fw.phase = 1 → s.fw.trialKind = 0 → ∃ t, exec .trialTimeout s = .next t ∧
    t.wake.mgmt = true ∧ t.mem = s.mem ∧ t.cores = s.cores ∧ t.dev = s.dev ∧
    (s.fw.trials ≤ 1 → t.fw.pending = some b ∧ t.fw.trials = 2) ∧
    (2 ≤ s.fw.trials → t.fw.pending = none ∧ t.fw.phase = 0 ∧ mget 0 t.fw.banks b = 5 ∧ t.fw.active = s.fw.active)) ∧
  (∀ (s : State) (b : Nat), s.fw.pending = some b → s.fw.phase = 1 → s.dev ≠ .off → s.dev ≠ .held →
    (s.fw.trialKind = 1 → s.wake.vinStayed = true → s.dev ≠ .standby → ∃ t, exec .trialTimeout s = .next t ∧ t.dev = .waking ∧
      t.stage = 4 ∧ t.wake.mgmt = true ∧ t.fw.pending = if s.fw.trials ≤ 1 then some b else none) ∧
    (2 ≤ s.fw.trialKind → s.pwr.vin = true → s.fw.act = none → ∃ t, exec .trialTimeout s = .next t ∧ t.dev = .waking ∧
      t.stage = 1 ∧ t.wake.mgmt = false ∧ t.fw.pending = if s.fw.trials ≤ 1 then some b else none)) ∧
  (∀ (s : State), trialOn s = false → exec .trialTimeout s = .next s) ∧
  (∀ (s : State) (c i n : Nat) (k : CoreCnt), k = (s.core c).cnt → k.frz = true → exec (.counterWrap (.core c i) n) s = .next s) ∧
  (∀ (k : CoreCnt) (code n : Nat), k.frz = true → cntEvent k code n = k) ∧
  (∀ (s : State) (c i n : Nat) (k : CoreCnt), k = (s.core c).cnt → c < 1152 → i < 8 → 1 ≤ n → n ≤ 255 → k.frz = false →
    (mget CntSel.reset k.sels i).en = true → ((mget CntSel.reset k.sels i).chain = false ∨ i % 2 = 0) →
    (mget 0 k.vals i + n < 2 ^ 48 → exec (.counterWrap (.core c i) n) s = .next s) ∧
    (2 ^ 48 ≤ mget 0 k.vals i + n → ∃ t, exec (.counterWrap (.core c i) n) s = .next t ∧ OnlyCore s t c ∧
      { t.core c with cnt := k } = s.core c ∧ mget 0 (t.core c).cnt.vals i = (mget 0 k.vals i + n) % 2 ^ 48 ∧
      (t.core c).cnt.smp = k.smp ∧ (∀ j, j ≠ i → j ≠ i + 1 → mget 0 (t.core c).cnt.vals j = mget 0 k.vals j) ∧
      (i % 2 = 0 → (mget CntSel.reset k.sels (i + 1)).chain = true → (mget CntSel.reset k.sels (i + 1)).en = true →
        mget 0 k.vals (i + 1) + 1 < 2 ^ 48 → mget 0 (t.core c).cnt.vals (i + 1) = mget 0 k.vals (i + 1) + 1 ∧
          (t.core c).cnt.ovf = k.ovf ∧ (t.core c).cnt.frz = false) ∧
      (i % 2 = 1 ∨ (mget CntSel.reset k.sels (i + 1)).chain = false →
        mget 0 (t.core c).cnt.vals (i + 1) = mget 0 k.vals (i + 1) ∧ (t.core c).cnt.ovf = k.ovf ||| 2 ^ i ∧
          (t.core c).cnt.frz = k.fovf))) ∧
  (∀ (s : State) (b j cls n : Nat), (mget ShSel.reset (s.blk b).sels j).en = true → (s.blk b).frz = false →
    j < sharedCounters b → cls < 17 → 1 ≤ n → n ≤ 255 → 2 ^ 48 ≤ mget 0 (s.blk b).totals j + n →
    ∃ t, exec (.counterWrap (.shared b j cls) n) s = .next t ∧ { t with shared := s.shared } = s ∧
      (∀ k, k ≠ b → t.blk k = s.blk k) ∧ (t.blk b).ovf = (s.blk b).ovf ||| 2 ^ j ∧
      mget 0 (t.blk b).totals j = (mget 0 (s.blk b).totals j + n) % 2 ^ 48 ∧
      mget 0 (t.blk b).shadows (17 * j + cls) = (mget 0 (s.blk b).shadows (17 * j + cls) + n) % 2 ^ 48) ∧
  (∀ (s : State) (c : Nat) (m : Sampler) (rec : Bytes) (rest : List Bytes), m = (s.core c).cnt.smp → m.due = rec :: rest →
    m.event ≠ 0x7E → m.event ≠ 0x7F → MemInv s →
    ((m.head + 2 ^ 32 - m.tail) % 2 ^ 32 = 2 ^ m.log2sz → ∃ t, exec (.sampleRecord c) s = .next t ∧ t.mem = s.mem ∧
      (t.core c).cnt.smp = { m with due := rest, lost := satInc m.lost 1 } ∧ ∀ k, k ≠ c → t.core k = s.core k) ∧
    ((m.head + 2 ^ 32 - m.tail) % 2 ^ 32 ≠ 2 ^ m.log2sz → m.dst = false → m.base % 32 = 0 → rec.length = 32 → smpSlot m + 32 ≤ 2 ^ 21 →
      ∃ t, exec (.sampleRecord c) s = .next t ∧
        (t.core c).cnt.smp = { m with due := rest, head := (m.head + 1) % 2 ^ 32 } ∧
        (∀ i < 32, spByte t c (smpSlot m + i) = rec.getD i 0) ∧ SpFrame s t c (smpSlot m) 32 ∧ ∀ k, k ≠ c → t.core k = s.core k) ∧
    ((m.head + 2 ^ 32 - m.tail) % 2 ^ 32 ≠ 2 ^ m.log2sz → m.dst = true → rec.length = 32 →
      hbmCheck s (reqPart s c) (smpSlot m) 32 = .ok →
      ((∃ q ∈ hbmPieces s (smpSlot m) 32, (s.stack q.1).waiting ≠ [] ∨ (s.stack q.1).tokens < hbmNeed s (smpSlot m) 32 q.1) →
        exec (.sampleRecord c) s = .next s) ∧
      ((∀ q ∈ hbmPieces s (smpSlot m) 32, (s.stack q.1).waiting = [] ∧ hbmNeed s (smpSlot m) 32 q.1 ≤ (s.stack q.1).tokens) →
        HbmSound s (smpSlot m) 32 → ∃ t, exec (.sampleRecord c) s = .next t ∧ HbmWritten s t (smpSlot m) rec ∧
          (t.core c).cnt.smp = { m with due := rest, head := (m.head + 1) % 2 ^ 32 } ∧ ∀ k, k ≠ c → t.core k = s.core k)))

/-- R485 to R492, R498, R500, R502, R507, R510, R511, R515, R519: SPDM is answered step by step on every transport
that is served, and FINISH opens a session of the class of Table 16.4 or none. A datagram from an address that
mgmt.allow admits, a mailbox's GO and a peer's MGMT packet bring the unit they carry to SPDM or Sasil, and what goes
to a peer leaves in a MGMT packet (R488); a tag that fails and a lead that is not valid are counted. Probes and MCTP
are answered. A gap, a staging copy, a commit, a management-port setting and a subscription end as their rules say.
Log entries 8, 45, 54, 70, 71 and 76 name the model's choices in it. -/
def Obligations.ManagementPathsServe : Prop :=
  (∀ (s : State) (tr : Transport), servedOn s tr = true →
    (∃ t, exec (.getVersion tr) s = .next t ∧ handDone t tr = 1 ∧ Answers s t tr .version [0x13]) ∧
    (∀ i n r b, ((i, n, r, b) = (Instr.getCapabilities tr, 2, SpdmRsp.capabilities, ([] : Bytes)) ∨
        (i, n, r, b) = (.negotiateAlgorithms tr, 3, .algorithms, []) ∨
        (i, n, r, b) = (.getDigests tr, 4, .digests, digest Config.certChain) ∨
        (i, n, r, b) = (.getCertificate tr 0, 5, .certificate, Config.certChain)) →
      (n ≤ handDone s tr + 1 → ∃ t, exec i s = .next t ∧ handDone t tr = max n (handDone s tr) ∧ Answers s t tr r b) ∧
      (handDone s tr + 1 < n → ∃ t, exec i s = .next t ∧ t.mgmt = s.mgmt ∧ Answers s t tr .unexpected [])) ∧
    (∀ k, k ≠ 0 → ∃ t, exec (.getCertificate tr k) s = .next t ∧ t.mgmt = s.mgmt ∧ Answers s t tr .invalid []) ∧
    (∀ x, 5 ≤ handDone s tr → roomFor s tr = true → ∃ t, exec (.keyExchange tr x) s = .next t ∧ handDone t tr = 6 ∧
      Answers s t tr .keyExchange (signature .keyExchange x)) ∧
    (∀ x, 5 ≤ handDone s tr → roomFor s tr = false → ∃ t, exec (.keyExchange tr x) s = .next t ∧ t.mgmt = s.mgmt ∧
      Answers s t tr .busy []) ∧
    (∀ a cls part slot, handDone s tr = 6 → roomFor s tr = true → classFor s tr a = some (cls, part, slot) →
      ∃ t, exec (.finish_ tr a) s = .next t ∧ handDone t tr = 0 ∧ Answers s t tr .finish (natBytes 4 s.mgmt.nextSid) ∧
        LogGets s t 0x5002 4 ∧ ∃ e, mfind t.sessions s.mgmt.nextSid = some e ∧ e.tr = tr ∧ e.secure = true ∧ e.cls = cls ∧
          e.part = part ∧ e.next = 1 ∧ e.ver = none) ∧
    (∀ a, handDone s tr = 6 → roomFor s tr = true → classFor s tr a = none → ∃ t, exec (.finish_ tr a) s = .next t ∧
      handDone t tr = 0 ∧ Answers s t tr .invalid [] ∧ t.sessions.length = s.sessions.length) ∧
    (∀ x, negotiated s tr = true → ∃ t, exec (.challenge tr x) s = .next t ∧ t.mgmt = s.mgmt ∧
      Answers s t tr .challengeAuth (signature .challenge x)) ∧
    (∀ k x b, negotiated s tr = true → measureBody s k = some b → ∃ t, exec (.getMeasurements tr k x) s = .next t ∧
      t.mgmt = s.mgmt ∧ Answers s t tr .measurements (b ++ signature .measurements (b ++ x))) ∧
    (∀ sid e, mfind s.sessions sid = some e → e.secure = true → e.tr = tr →
      (∃ t, exec (.heartbeat tr sid) s = .next t ∧ t.mgmt = s.mgmt ∧ t.sessions = s.sessions ∧ Answers s t tr .heartbeatAck []) ∧
      (∃ t, exec (.keyUpdate tr sid) s = .next t ∧ Answers s t tr .keyUpdateAck [] ∧
        mfind t.sessions sid = some { e with keyGen := e.keyGen + 1 } ∧
        ∀ k, k ≠ sid → mfind t.sessions k = mfind s.sessions k)) ∧
    (∀ m i, SpdmRow tr i m → ∃ t, exec i s = .next t ∧ t.mem = s.mem ∧ t.cores = s.cores ∧ t.cfg = s.cfg ∧ t.dev = s.dev)) ∧
  (∀ (s : State) (sid : Nat) (e : Session), mfind s.sessions sid = some e →
    (e.secure = false → exec (.sessionTimeout sid) s = .next s) ∧
    (e.secure = true → ∃ t, exec (.sessionTimeout sid) s = .next t ∧ mfind t.sessions sid = none ∧ LogGets s t 0x5002 4 ∧
      t.mem = s.mem ∧ t.cores = s.cores ∧ t.cfg = s.cfg) ∧
    (∃ t, exec (.sequenceGapTimeout sid) s = .next t ∧ t.mem = s.mem ∧ t.cores = s.cores ∧ t.cfg = s.cfg ∧
      mfind t.sessions sid = some { e with held := [] } ∧
      ((∀ x ∈ e.held, isMbx x.1.tr = false ∧ (∀ d, x.1.tr ≠ .peer d) ∧ x.1.malformed = none) →
        t.out = s.out ++ e.held.map (fun x => .mgmt x.1.tr (replyMsg x.1 (bodyType x.2) sid 0x0E []))) ∧
      (∀ d, (∀ x ∈ e.held, x.1.tr = .peer d ∧ x.1.malformed = none) → ∀ x ∈ e.held,
        InMgmtPacket t d (natBytes 4 2 ++ Config.seal sid (msgBytes (replyMsg x.1 (bodyType x.2) sid 0x0E []))))) ∧
    (∀ g, e.staging = some g → ∃ t, exec (.stagingTimeout sid) s = .next t ∧ t.mem = s.mem ∧ t.cores = s.cores ∧ t.cfg = s.cfg ∧
      mfind t.sessions sid = some { e with staging := none } ∧
      t.fw.upd = if isImage g.obj = true ∧ s.fw.upd = 1 then 0 else s.fw.upd) ∧
    (∀ u, e.sub = some u → isMbx e.tr = false → u.queue ≠ [] → ∃ t, exec (.eventDeliver sid) s = .next t ∧ t.mem = s.mem ∧
      t.cores = s.cores ∧ mfind t.sessions sid = some { e with sub := some ⟨u.req, u.queue.drop 16, 0⟩, events := e.events + 1 } ∧
      ∃ m, (∀ d, e.tr = .peer d → t.out = (sendPeer s d (natBytes 4 2 ++ Config.seal sid (msgBytes m))).out) ∧
        ((∀ d, e.tr ≠ .peer d) → t.out = s.out ++ [.mgmt e.tr m]) ∧ m.type_ = 0x40 ∧ m.seq = e.events + 1 ∧ m.sid = sid ∧
        m.body = natBytes 4 u.missed ++ natBytes 4 (u.queue.take 16).length ++ (u.queue.take 16).flatMap recordBytes) ∧
    (∀ u r h f k, e.sub = some u → e.tr = .mbx h f → u.queue = [r] → u.missed = 0 → k = ((s.host h).fn f).mbx →
      (k.evTail + 512 - k.evHead) % 512 < 256 → ∃ t, exec (.eventDeliver sid) s = .next t ∧ t.mem = s.mem ∧ t.cores = s.cores ∧
        t.out = s.out ∧ mfind t.sessions sid = some { e with sub := some ⟨u.req, [], 0⟩ } ∧
        ((t.host h).fn f).mbx.evTail = (k.evTail + 1) % 512 ∧
        mfind ((t.host h).fn f).mbx.evRing (k.evTail % 256) = some (recordBytes r))) ∧
  (∀ (s : State), (∃ t, exec .configCommit s = .next t ∧ { t with mgmt := s.mgmt } = s ∧ t.mgmt = { s.mgmt with committed := s.cfg }) ∧
    (∃ t, exec .mgmtSettingsApply s = .next t ∧ { t with mgmt := s.mgmt } = s ∧
      t.mgmt = { s.mgmt with netDue := [], netEff := [] })) ∧
  (∀ (s : State) (p : Nat) (src : Bytes) (u : MgmtUnit), portUp s p = true →
    (allowed s src = false → ∃ t, exec (.mgmtDatagram p src u) s = .next t ∧ { t with mgmt := s.mgmt } = s ∧
      t.mgmt = { s.mgmt with filtered := s.mgmt.filtered + 1 }) ∧
    (allowed s src = true → s.fw.recovery = false →
      (∀ m i, u = .spdm m → SpdmRow (.eth p) i m → ∃ t, exec (.mgmtDatagram p src u) s = .next t ∧ exec i s = .next t) ∧
      (∀ h b i, u = .secured true h b → SasilRow { h with tr := .eth p, secure := true } i b →
        ∃ t, exec (.mgmtDatagram p src u) s = .next t ∧ exec i s = .next t) ∧
      (∀ h b, u = .secured false h b → ∃ t, exec (.mgmtDatagram p src u) s = .next t ∧ t.mem = s.mem ∧ t.cores = s.cores ∧
        t.cfg = s.cfg ∧ t.mgmt = { s.mgmt with tagFailures := s.mgmt.tagFailures + 1 }) ∧
      (∀ raw, u = .badLead raw → ∃ t, exec (.mgmtDatagram p src u) s = .next t ∧ t.mem = s.mem ∧ t.cores = s.cores ∧
        t.cfg = s.cfg ∧ t.mgmt.malformed = s.mgmt.malformed + 1))) ∧
  (∀ (s : State) (dev : Nat),
    (∀ m i, SpdmRow (.peer dev) i m → ∃ t, exec (.peerMgmtPacket dev (.spdm m)) s = .next t ∧ exec i s = .next t) ∧
    (∀ h b i, SasilRow { h with tr := .peer dev, secure := true } i b →
      ∃ t, exec (.peerMgmtPacket dev (.secured true h b)) s = .next t ∧ exec i s = .next t)) ∧
  (∀ (s : State) (h f : Nat) (u : MgmtUnit) (b : Bytes), PathOpen s (.mbx h f) → 20 ≤ ((s.host h).fn f).mbx.reqLen →
    ((s.host h).fn f).mbx.reqLen ≤ 16384 → b = (padTo 16384 ((s.host h).fn f).mbx.req).take ((s.host h).fn f).mbx.reqLen →
    (∀ m i, leAt b 0 4 = 1 → u = .spdm m → SpdmRow (.mbx h f) i m →
      ∃ t, exec (.mailboxGo h f u) s = .next t ∧ exec i s = .next t) ∧
    (∀ k x i, leAt b 0 4 = 2 → u = .secured true k x → SasilRow { k with tr := .mbx h f, secure := true } i x →
      ∃ t, exec (.mailboxGo h f u) s = .next t ∧ exec i s = .next t) ∧
    (∀ i, leAt b 0 4 = 3 → SasilRow (parseMsg (.mbx h f) (b.drop 4)).1 i (parseMsg (.mbx h f) (b.drop 4)).2 →
      ∃ t, exec (.mailboxGo h f u) s = .next t ∧ exec i s = .next t)) ∧
  (∀ (s : State) (p : Nat) (a : Bytes), portUp s p = true → a ∈ portAddrs s p →
    (∃ t, exec (.mgmtNetworkProbe p .neighbour a) s = .next t ∧ t = { s with out := s.out ++ [.net p 0 (a ++ portMac p)] }) ∧
    (∃ t, exec (.mgmtNetworkProbe p .echo6 a) s = .next t ∧ t = { s with out := s.out ++ [.net p 1 a] })) ∧
  (∀ (s : State) (p : Nat) (a : Bytes), portUp s p = true → netNum s 0x12 0 = 1 → (netBlob s 0x13 p).take 4 = a → a ≠ [] →
    ∃ t, exec (.mgmtNetworkProbe p .arp a) s = .next t ∧ t = { s with out := s.out ++ [.net p 2 (a ++ portMac p)] }) ∧
  (∀ (s : State) (k : Nat), s.dev ≠ .off →
    (∃ t, exec (.mctpControl (.setEid k)) s = .next t ∧ t.mgmt = { s.mgmt with eid := k % 256 } ∧
      t.out = s.out ++ [.net 32 0 (natBytes 1 k)] ∧ { t with mgmt := s.mgmt, out := s.out } = s) ∧
    (∃ t, exec (.mctpControl .getEid) s = .next t ∧ t = { s with out := s.out ++ [.net 32 1 (natBytes 1 s.mgmt.eid)] }) ∧
    (∃ t, exec (.i3cEntdaa k) s = .next t ∧ { t with mgmt := s.mgmt } = s ∧
      t.mgmt = { s.mgmt with i3c := some (k % 128) }))

/-- R256, R366, R484, R491 to R509: a request of its session's next SEQ is executed whole, answered and kept; one
executed before is answered from its kept reply; one ahead of its turn is held, or refused BUSY; an unknown session, a
wrong version and a malformed message are answered so. HELLO chooses the version, GET answers what objects hold, a SET
changes every object or none (none where it gives one group, block or unit to two partitions), GETBLOCK and SETBLOCK
move long values, SUBSCRIBE names what is delivered, an ACTION runs where its checks pass, and CLOSE ends the session.
Log entries 45, 71, 72, 73 and 74 name the model's choices in it. -/
def Obligations.SasilRequestsAreServed : Prop :=
  (∀ (s : State) (h : SasilHdr) (e : Session), InTurn s h e →
    (∀ as, as ≠ [] → as.length ≤ 32 → ∃ t, exec (.get_ h as) s = .next t ∧ Advanced t h e ∧
      Replied t h 1 h.sid (headStatus (as.map (fun a => (getOne s e a).1)))
        (natBytes 4 as.length ++ as.flatMap (fun a => entryBytes a (getOne s e a).2.1 (getOne s e a).1 (getOne s e a).2.2)) ∧
      t.mem = s.mem ∧ t.cores = s.cores ∧ t.cfg = s.cfg ∧ t.dev = s.dev) ∧
    (∀ x d, objAt x.addr = some d → keeps d = true → x.addr.area ∈ [0x11, 0x70, 0xB0] → setCheck s e x false ≤ 1 →
      objVal s none d x.addr ≠ x.val → 16 + bodyLen (.set [x]) ≤ maxMsg h.tr → ∃ t, exec (.set_ h [x]) s = .next t ∧
        Advanced t h e ∧ t.cfg = mset s.cfg (objKey x.addr.area x.addr.idx x.addr.elem) x.val ∧ t.mem = s.mem ∧
        t.cores = s.cores ∧ t.dev = s.dev ∧
        ∃ bs, Replied t h 2 h.sid 0 (natBytes 4 1 ++ entryBytes x.addr x.type_ (setCheck s e x false) bs)) ∧
    (∀ es x, x ∈ es → 1 < setCheckIn s (allocsSet s es) e x false → 16 + bodyLen (.set es) ≤ maxMsg h.tr →
      ∃ t, exec (.set_ h es) s = .next t ∧
      Advanced t h e ∧ t.cfg = s.cfg ∧ t.mem = s.mem ∧ t.cores = s.cores ∧ t.dev = s.dev ∧ t.pwr = s.pwr ∧
      ∃ bs, Replied t h 2 h.sid (headStatus (es.map (fun y =>
        if setCheckIn s (allocsSet s es) e y false ≤ 1 then 0x0A else setCheckIn s (allocsSet s es) e y false))) bs) ∧
    (∀ idx n p q i v w ty ty' es, (idx, n) ∈ [(0x01, 96), (0x30, 64), (0x31, 192), (0x40, 768)] → p < 16 → q < 16 → p ≠ q → i < n →
      v.testBit i = true → w.testBit i = true → allocBits s idx n q ≠ w →
      es = [⟨⟨0x40, idx, p⟩, ty, .num v⟩, ⟨⟨0x40, idx, q⟩, ty', .num w⟩] → 16 + bodyLen (.set es) ≤ maxMsg h.tr →
      ∃ t, exec (.set_ h es) s = .next t ∧ Advanced t h e ∧ t.cfg = s.cfg ∧ t.groups = s.groups ∧ t.chanOwner = s.chanOwner ∧
        t.lockOwner = s.lockOwner ∧ t.parts = s.parts) ∧
    (∀ a d off n v, objAt a = some d → a.area ≠ 0xF0 → isBytes d.ty = true → (d.acc = .ro ∨ keeps d = true) → mayRead e d a = true →
      off = 0 ∨ e.reading = none → v = valBytes d (objVal s (guestOf e) d a) → ∃ t, exec (.getblock h a off n) s = .next t ∧
        Advanced t h e ∧ t.mem = s.mem ∧ t.cores = s.cores ∧ t.cfg = s.cfg ∧
        Replied t h 3 h.sid 0 (addrBytes a ++ natBytes 4 v.length ++ natBytes 4 off ++
          pad4 ((v.drop off).take (min n (blockMax e.tr))))) ∧
    (∀ a d x, objAt a = some d → a.area ≠ 0xF0 → d.action = false → isBytes d.ty = true → mayWrite e d a = true → e.staging = none →
      isImage a = false → 24 + (x.length + 3) / 4 * 4 ≤ maxMsg h.tr →
      (h.last = false → x.length ≤ d.hi → ∃ t, exec (.setblock h a 0 x) s = .next t ∧ Advanced t h e ∧ t.cfg = s.cfg ∧
        t.mem = s.mem ∧ t.cores = s.cores ∧ Replied t h 4 h.sid 0 [] ∧
        ∃ u, mfind t.sessions h.sid = some u ∧ u.staging = some ⟨a, x⟩) ∧
      (h.last = true → a.area = 0x40 ∨ a.area = 0xB0 → keeps d = true → setCheck s e ⟨a, d.ty.code, .blob x⟩ true ≤ 1 →
        objVal s none d a ≠ .blob x → ∃ t, exec (.setblock h a 0 x) s = .next t ∧ Advanced t h e ∧
          t.cfg = mset s.cfg (objKey a.area a.idx a.elem) (.blob x) ∧ t.mem = s.mem ∧ t.cores = s.cores ∧
          Replied t h 4 h.sid (setCheck s e ⟨a, d.ty.code, .blob x⟩ true) [])) ∧
    (∀ r, bodyBad h.ver (.subscribe r) = false → ∃ t u, exec (.subscribe h r) s = .next t ∧ Advanced t h e ∧
      Replied t h 5 h.sid 0 [] ∧ t.mem = s.mem ∧ t.cores = s.cores ∧ t.cfg = s.cfg ∧ mfind t.sessions h.sid = some u ∧
      (r.cmask = 0 → u.sub = none) ∧
      (r.cmask ≠ 0 → ∃ k, u.sub = some k ∧ k.req = { r with frm := if r.frm = 0 then s.lastSeq + 1 else r.frm })) ∧
    (∀ x, 16 + entryLen x ≤ maxMsg h.tr →
      (actCheckAll s e x ≠ 0 → ∃ t, exec (.action_ h x) s = .next t ∧ Advanced t h e ∧ Replied t h 6 h.sid (actCheckAll s e x) [] ∧
        t.mem = s.mem ∧ t.cores = s.cores ∧ t.cfg = s.cfg ∧ t.dev = s.dev ∧ t.pwr = s.pwr) ∧
      (actCheckAll s e x = 0 → h.async = false →
        (x.addr = ⟨0x90, 0x0120, 0⟩ → ∃ t, exec (.action_ h x) s = .next t ∧ Advanced t h e ∧ Replied t h 6 h.sid 0 [] ∧
          t.mem = s.mem ∧ t.cores = s.cores ∧ ∀ b, (t.blk b).totals = [] ∧ (t.blk b).shadows = []) ∧
        (x.addr = ⟨0xB0, 0x000B, 0⟩ → ∃ t, exec (.action_ h x) s = .next t ∧ Advanced t h e ∧ Replied t h 6 h.sid 0 [] ∧
          t.mem = s.mem ∧ t.cores = s.cores ∧ t.mgmt.factoryDue = true))) ∧
    (∃ t, exec (.close_ h) s = .next t ∧ mfind t.sessions h.sid = none ∧ Replied t h 8 h.sid 0 [] ∧ LogGets s t 0x5002 4 ∧
      t.mem = s.mem ∧ t.cores = s.cores ∧ t.cfg = s.cfg)) ∧
  (∀ (s : State) (h : SasilHdr) (e : Session) (vmask : Nat), Named s h e → h.secure = true → e.ver = some h.ver ∨
      e.ver = none ∧ h.ver = 0x10 →
    (∀ v, chooseVersion vmask = some v → ∃ t, exec (.hello_ h vmask) s = .next t ∧ t.mem = s.mem ∧ t.cores = s.cores ∧
      t.cfg = s.cfg ∧ mfind t.sessions h.sid = some { e with ver := some v } ∧
      Replied t h 7 h.sid 0 (natBytes 1 v ++ natBytes 1 e.cls ++ natBytes 1 (if e.cls = 3 then e.part else 0xFF) ++
        natBytes 1 0 ++ natBytes 4 h.sid)) ∧
    (chooseVersion vmask = none → ∃ t, exec (.hello_ h vmask) s = .next t ∧ t.mem = s.mem ∧ t.cores = s.cores ∧
      mfind t.sessions h.sid = none ∧ Replied t h 7 h.sid 0x0C [])) ∧
  (∀ (s : State) (h : SasilHdr) (vmask : Nat), PathOpen s h.tr → h.secure = false → isMbx h.tr = true → h.malformed = none →
    h.ver = 0x10 → (∀ x ∈ s.sessions, x.2.tr ≠ h.tr) →
    (∀ v cls part slot, chooseVersion vmask = some v → classFor s h.tr .none = some (cls, part, slot) →
      ∃ t, exec (.hello_ h vmask) s = .next t ∧ t.mem = s.mem ∧ t.cores = s.cores ∧ t.cfg = s.cfg ∧ LogGets s t 0x5002 4 ∧
        (∃ u, mfind t.sessions s.mgmt.nextSid = some u ∧ u.tr = h.tr ∧ u.secure = false ∧ u.cls = cls ∧ u.ver = some v ∧
          u.next = 1) ∧
        Replied t h 7 s.mgmt.nextSid 0 (natBytes 1 v ++ natBytes 1 cls ++ natBytes 1 (if cls = 3 then part else 0xFF) ++
          natBytes 1 0 ++ natBytes 4 s.mgmt.nextSid)) ∧
    (classFor s h.tr .none = none → ∃ t, exec (.hello_ h vmask) s = .next t ∧ t.mem = s.mem ∧ t.cores = s.cores ∧
      t.sessions.length = s.sessions.length ∧ Replied t h 7 0 0x08 [])) ∧
  (∀ (s : State) (h : SasilHdr) (e : Session) (b : SasilBody) (i : Instr), Named s h e → SasilRow h i b → (∀ v, b ≠ .hello v) →
    (e.ver ≠ some h.ver → ∃ t, exec i s = .next t ∧ Replied t h (bodyType b) h.sid 0x0C [] ∧ t.sessions = s.sessions) ∧
    (e.ver = some h.ver → bodyBad h.ver b = false →
      (∀ m, e.replies.find? (fun m => m.seq == h.seq) = some m → isMbx h.tr = false →
        ∃ t, exec i s = .next t ∧ t = { s with out := s.out ++ [.mgmt h.tr m] }) ∧
      ((∀ m ∈ e.replies, m.seq ≠ h.seq) →
        (h.seq < e.next → ∃ t, exec i s = .next t ∧ Replied t h (bodyType b) h.sid 0x0E [] ∧ t.sessions = s.sessions) ∧
        (e.next + 7 < h.seq → ∃ t, exec i s = .next t ∧ Replied t h (bodyType b) h.sid 0x07 [] ∧ t.sessions = s.sessions) ∧
        (e.next < h.seq → h.seq ≤ e.next + 7 → (∀ x ∈ e.held, x.1.seq ≠ h.seq) → ∃ t, exec i s = .next t ∧
          { t with sessions := s.sessions } = s ∧ mfind t.sessions h.sid = some { e with held := e.held ++ [(h, b)] })))) ∧
  (∀ (s : State) (h : SasilHdr) (b : SasilBody) (i : Instr), PathOpen s h.tr → SasilRow h i b →
    (mfind s.sessions h.sid = none → h.malformed = none → (h.secure = false → isMbx h.tr = true) → (∀ v, b ≠ .hello v) →
      ∃ t, exec i s = .next t ∧ Replied t h (bodyType b) 0 0x0D [] ∧ t.sessions = s.sessions ∧ t.mem = s.mem ∧ t.cores = s.cores) ∧
    (∀ raw, h.malformed = some raw → ∃ t, exec i s = .next t ∧ t.mgmt.malformed = s.mgmt.malformed + 1 ∧ t.mem = s.mem ∧
      t.cores = s.cores ∧ t.cfg = s.cfg))

/-- R46, R289, R308, R317, R338, R386, R402 to R404, R429, R438, R443 to R453, R459, R464, R474, R478, R490, R492,
R501, R504, R525 to R533, R551: what each action, and a SET of state.low, does where its session may perform it. An
action of no session does nothing. Log entries 72, 74, 75, 77 and 79 name the model's choices in it. -/
def Obligations.ActionsTakeEffect : Prop :=
  (∀ (s : State) (sid n m : Nat) (b : Bytes), mfind s.sessions sid = none →
    ∀ i ∈ [Instr.surveyRevoke sid n, .epochAdvance sid, .portResetAction sid n, .portAdmit sid n, .bundleKeySwitch sid n,
      .memoryRetire sid n, .partitionReset sid n, .echoResync sid, .domainSwitch sid n m, .auxReset sid n, .coldStart sid,
      .warmStart sid, .computeReset sid, .managementRestart sid, .lowEnter sid, .lowExit sid, .stateRelease sid, .coreReset sid n,
      .failCore sid n, .fieldCheck sid b, .alertAck sid n, .enroll sid b, .slotRevoke sid n, .factoryReset sid,
      .firmwareActivate sid n, .firmwareConfirm sid, .firmwareRevert sid, .countersClear sid], exec i s = .next s) ∧
  (∀ (s : State) (sid n : Nat), n < 2 ^ 32 → MayAct s sid ⟨0x30, 0x0004, 0⟩ (.blob (natBytes 4 n)) →
    ∃ t, exec (.surveyRevoke sid n) s = .next t ∧ { t with survey := s.survey } = s ∧ n ∈ t.survey.revoked ∧
      t.survey.entries = s.survey.entries ∧ ∀ x, x ∈ t.survey.revoked ↔ x = n ∨ x ∈ s.survey.revoked) ∧
  (∀ (s : State) (sid : Nat), MayAct s sid ⟨0x50, 0x0003, 0⟩ (.num 1) → ∃ t, exec (.epochAdvance sid) s = .next t ∧
    { t with links := s.links, badEntries := s.badEntries } = s ∧ t.links.advancing = true ∧ t.links.epoch = s.links.epoch ∧
    (if s.links.epoch.toNat % 2 = 0 then t.links.rt0 = s.links.rt0 ∧ t.links.rt1 = routeNext s
      else t.links.rt1 = s.links.rt1 ∧ t.links.rt0 = routeNext s)) ∧
  (∀ (s : State) (sid p : Nat),
    (MayAct s sid ⟨0x50, 0x0103, p⟩ (.num 1) → ∃ t, exec (.portResetAction sid p) s = .next t ∧ t.mem = s.mem ∧
      t.cores = s.cores ∧ (t.port p).st = .resetting ∧ (t.port p).resets = (s.port p).resets) ∧
    (MayAct s sid ⟨0x50, 0x0104, p⟩ (.num 1) → ∃ t, exec (.portAdmit sid p) s = .next t ∧ t.mem = s.mem ∧ t.cores = s.cores ∧
      (t.port p).st = (if (s.port p).en = true ∧ domOf s (108 + p / 5) = .on then .training else .disabled))) ∧
  (∀ (s : State) (sid b : Nat) (k : Bool), MayAct s sid ⟨0x50, 0x0203, b⟩ (.num 1) → k = !mget false s.links.keyUse b →
    ∃ t, exec (.bundleKeySwitch sid b) s = .next t ∧ t.mem = s.mem ∧ t.cores = s.cores ∧ t.links.keyUse = s.links.keyUse ∧
      ∀ p < 40, (((s.port p).bv && (s.port p).bundle == b && nativeUp s p) = true → (t.port p).keyWant = some k ∧
          ∃ f, Output.frame p f ∈ t.out ∧ f.type_ = 5 ∧ f.keyid = k) ∧
        (((s.port p).bv && (s.port p).bundle == b && nativeUp s p) = false → t.port p = s.port p)) ∧
  (∀ (s : State) (sid x st page : Nat), MayAct s sid ⟨0x60, 0x0006, 0⟩ (.blob (natBytes 8 x)) → x < 2 ^ 64 →
    st = (x - hbmBase) / stackSize → page = (x - hbmBase) % stackSize / 4096 → page ∉ (s.stack st).retired →
    page ∉ (s.stack st).cands → ∃ t, exec (.memoryRetire sid x) s = .next t ∧
      ((∀ p, unitOwner s (48 * st + page * 4096 / 2 ^ 30) = some p → faultCoreOf s p = none) → t.mem = s.mem) ∧
      (t.stack st).cands = (s.stack st).cands ++ [page] ∧
      SurveyGets s t 0x0A (natBytes 1 st ++ natBytes 3 0 ++ natBytes 8 (hbmBase + stackSize * st + page * 4096))) ∧
  (∀ (s : State) (sid p : Nat), MayAct s sid ⟨0x40, 0x0005, p⟩ (.num 1) → s.dev ≠ .waking →
    ∃ t, exec (.partitionReset sid p) s = .next t ∧ (t.part p).resetting = true ∧
      ((s.part p).resetting = false → (∀ l ∈ t.launches, l.fence = true ∨ l.part ≠ p) ∧
        ∀ g < 96, (s.grp g).part = some p → (s.grp g).remap = none → (s.grp g).check = false → (t.grp g).rst = true ∧
          ∀ k < 12, (t.core (12 * g + k)).crst = true)) ∧
  (∀ (s : State) (sid : Nat), MayAct s sid ⟨0x20, 0x0014, 0⟩ (.num 1) → ∃ t, exec (.echoResync sid) s = .next t ∧
    t.mem = s.mem ∧ t.cores = s.cores ∧ t.echoM = echoAdd s.echoM s.ech.pend ∧ t.ech.back = false ∧
    t.ech.st = (if s.ech.src = 0 then 0 else 2) ∧ LogGets s t 0x4005 4) ∧
  (∀ (s : State) (sid d v : Nat), MayAct s sid ⟨0x10, 0x0021, d⟩ (.num v) →
    (d < 96 → v = 1 → domOf s d = .off → ∃ t, exec (.domainSwitch sid d v) s = .next t ∧ t.mem = s.mem ∧ t.cores = s.cores ∧
      d ∈ (t.field (d / 8)).powerUp) ∧
    (d < 96 → v = 0 → domOf s d = .on → ∃ t, exec (.domainSwitch sid d v) s = .next t ∧ mfind t.pwr.trans d = some .off ∧
      ∀ k < 12, (t.core (12 * d + k)).crst = true) ∧
    (116 ≤ d → v = 0 → domOf s d = .on → (s.stack (d - 116)).st ≠ .retired → ∃ t, exec (.domainSwitch sid d v) s = .next t ∧
      domOf t d = .off ∧ (t.stack (d - 116)).st = .off ∧
      (∀ c e b, b ∈ ((s.core c).eng e).bursts → b.status = none → b.data = none → hitsStack s b.src b.len (d - 116) = true →
        { b with status := some 8 } ∈ ((t.core c).eng e).bursts) ∧
      ∀ c, (∀ g, (s.core c).ctl.blk ≠ .gacc g) → { t.core c with dma := (s.core c).dma } = s.core c) ∧
    (116 ≤ d → v = 1 → domOf s d = .off → ∃ t, exec (.domainSwitch sid d v) s = .next t ∧ domOf t d = .on ∧
      (t.stack (d - 116)).st = .training ∧ t.mem = s.mem ∧ t.cores = s.cores)) ∧
  (∀ (s : State) (sid c : Nat), MayAct s sid ⟨0x12, 0x0003, c⟩ (.num 1) → ∃ t, exec (.auxReset sid c) s = .next t ∧
    { t with pwr := s.pwr } = s ∧ (t.auxCh c).latch = false ∧ (t.auxCh c).retry = 0 ∧ (t.auxCh c).st ≠ 3) ∧
  (∀ (s : State) (sid : Nat),
    (MayAct s sid ⟨0x02, 0x0003, 0⟩ (.num 1) → ∃ t, exec (.coldStart sid) s = .next t ∧ t.dev = .waking ∧ t.stage = 1 ∧
      t.wake.start = some ⟨false, s.echoM, t.survey.nextSeq⟩ ∧ t.mem = [] ∧ t.sessions = [] ∧ ∀ c, t.core c = Core.reset) ∧
    (MayAct s sid ⟨0x02, 0x000B, 0⟩ (.num 1) → ∃ t, exec (.stateRelease sid) s = .next t ∧ t.dev = .waking ∧ t.stage = 1 ∧
      t.wake.start = some ⟨false, s.echoM, t.survey.nextSeq⟩ ∧ t.wake.failedStarts = 2) ∧
    (MayAct s sid ⟨0x02, 0x0004, 0⟩ (.num 1) → s.wake.vinStayed = true → s.dev ≠ .standby → s.dev ≠ .held →
      ∃ t, exec (.warmStart sid) s = .next t ∧ t.dev = .waking ∧ t.stage = 4 ∧ t.wake.start = some ⟨true, s.echoM, t.survey.nextSeq⟩ ∧ t.locks = [] ∧
        t.mchans = [] ∧ ∀ l ∈ t.launches, l.fence = true) ∧
    (MayAct s sid ⟨0x02, 0x0005, 0⟩ (.num 1) → s.dev ≠ .waking → ∃ t, exec (.computeReset sid) s = .next t ∧ t.dev = .waking ∧
      t.stage = 10 ∧ t.wake.compute = true ∧ t.mem = s.mem ∧ (∀ l ∈ t.launches, l.fence = true) ∧
      ∀ c < 1152, (t.core c).crst = true) ∧
    (MayAct s sid ⟨0x02, 0x0006, 0⟩ (.num 1) → ∃ t, exec (.managementRestart sid) s = .next t ∧ t.wake.mgmt = true ∧
      t.sessions = [] ∧ t.dev = s.dev ∧ t.mem = s.mem ∧ t.cores = s.cores)) ∧
  (∀ (s : State) (sid : Nat), MaySet s sid ⟨0x02, 0x0007, 0⟩ (.num 1) → s.wake.low = false →
    ∃ t, exec (.lowEnter sid) s = .next t ∧ t.wake.low = true ∧ (∀ p < 16, (t.part p).hDevice = true) ∧
      ((∀ p < 16, partExists s p = true → (s.part p).halted = true) → t.dev = .low) ∧
      ((∃ p < 16, partExists s p = true ∧ (s.part p).halted = false) → t.dev = s.dev ∧ t.mem = s.mem ∧ t.cores = s.cores)) ∧
  (∀ (s : State) (sid : Nat), MaySet s sid ⟨0x02, 0x0007, 0⟩ (.num 0) → s.wake.low = true →
    ∃ t, exec (.lowExit sid) s = .next t ∧ t.wake.low = false ∧ t.mem = s.mem ∧ t.cores = s.cores ∧
      (s.dev ≠ .low → t.dev = s.dev ∧ ∀ p < 16, (t.part p).hDevice = false) ∧
      (s.dev = .low → ∀ g < 96, domOf s g = .retention → g ∈ (t.field (g / 8)).powerUp)) ∧
  (∀ (s : State) (sid c : Nat), MayAct s sid ⟨0x30, 0x0020, 0⟩ (.num c) → s.wake.compute = false → s.wake.start = none →
    (s.grp (groupOf c)).rst = false → (s.grp (groupOf c)).remap = none → (s.grp (groupOf c)).check = false →
    ∃ t, exec (.coreReset sid c) s = .next t ∧ (t.core c).crst = true ∧ (t.core c).flights = [] ∧
      (t.core c).ctl.st = Ctl.reset.st ∧ ∀ r, rg t c r = 0) ∧
  (∀ (s : State) (sid c g col : Nat), MayAct s sid ⟨0x30, 0x0021, 0⟩ (.num c) → g = c / 12 →
    col = (if c % 12 < (s.grp g).skip then c % 12 else c % 12 + 1) → s.wake.mgmt = false → (s.grp g).remap = none →
    (s.grp g).skip = 12 → ((s.grp g).tdead ||| (s.grp g).rdead).testBit 12 = false →
    ∃ t, exec (.failCore sid c) s = .next t ∧ (t.grp g).remap = some ⟨col, false⟩ ∧ (t.grp g).rst = true ∧
      SurveyAdds s t 1 (natBytes 1 (13 * (g / 8 % 3) + col) ++ natBytes 1 (8 * (g / 24) + g % 8) ++ natBytes 1 1 ++ natBytes 1 0)) ∧
  (∀ (s : State) (sid : Nat) (v : Bytes), MayAct s sid ⟨0x30, 0x0030, 0⟩ (.blob v) →
    (checkGroups v = [] → checkUnits v = [] → ∃ t, exec (.fieldCheck sid v) s = .next t ∧ t.wake.check.st = 2 ∧
      t.mem = s.mem ∧ t.cores = s.cores) ∧
    (checkGroups v ≠ [] ∨ checkUnits v ≠ [] → ∃ t, exec (.fieldCheck sid v) s = .next t ∧ t.wake.check.st = 1 ∧
      t.wake.check.groups = checkGroups v ∧ t.wake.check.units = checkUnits v ∧
      ∀ g, (checkGroups v).find? (fun x => x / 8 == g / 8) = some g → (s.grp g).lost = false → (t.grp g).check = true)) ∧
  (∀ (s : State) (sid q : Nat), MayAct s sid ⟨0x80, 0x0004, 0⟩ (.num q) → ∃ t, exec (.alertAck sid q) s = .next t ∧
    { t with mgmt := s.mgmt, pwr := s.pwr } = s ∧ t.mgmt = { s.mgmt with alertAcked := max s.mgmt.alertAcked q }) ∧
  (∀ (s : State) (sid : Nat) (v : Bytes), MayAct s sid ⟨0xB0, 0x0003, 0⟩ (.blob v) → ∃ t, exec (.enroll sid v) s = .next t ∧
    t.mem = s.mem ∧ t.cores = s.cores ∧ t.cfg = s.cfg ∧ LogGets s t 0x5005 4 ∧
    mfind t.mgmt.slots (byteNat v 0) = some ⟨byteNat v 1, byteNat v 2, digest (v.drop 4)⟩ ∧
    (∀ k, k ≠ byteNat v 0 → mfind t.mgmt.slots k = mfind s.mgmt.slots k) ∧
    t.mgmt.claimed = (s.mgmt.claimed || byteNat v 1 == 2)) ∧
  (∀ (s : State) (sid k : Nat) (e : EnrolSlot), MayAct s sid ⟨0xB0, 0x0004, k⟩ (.num 1) → mfind s.mgmt.slots k = some e →
    ∃ t, exec (.slotRevoke sid k) s = .next t ∧ t.mem = s.mem ∧ t.cores = s.cores ∧ mfind t.mgmt.slots k = none ∧
      ∀ x ∈ t.sessions, x.2.slot ≠ some k) ∧
  (∀ (s : State) (sid : Nat),
    (MayAct s sid ⟨0xB0, 0x000B, 0⟩ (.num 1) → ∃ t, exec (.factoryReset sid) s = .next t ∧ { t with mgmt := s.mgmt } = s ∧
      t.mgmt = { s.mgmt with factoryDue := true }) ∧
    (MayAct s sid ⟨0x90, 0x0120, 0⟩ (.num 1) → ∃ t, exec (.countersClear sid) s = .next t ∧ { t with shared := s.shared } = s ∧
      ∀ b, t.blk b = { s.blk b with totals := [], shadows := [] })) ∧
  (∀ (s : State) (sid flags : Nat), MayAct s sid ⟨0xA0, 0x0005, 0⟩ (.blob (natBytes 4 (flags % 256))) →
    ∃ t, exec (.firmwareActivate sid flags) s = .next t ∧ { t with fw := s.fw } = s ∧
      t.fw = { s.fw with upd := 2, act := some (targetBank s, flags % 256) }) ∧
  (∀ (s : State) (sid b : Nat), MayAct s sid ⟨0xA0, 0x0006, 0⟩ (.num 1) → s.fw.pending = some b →
    (s.fw.healthy = false → ∃ t, exec (.firmwareConfirm sid) s = .next t ∧ { t with fw := s.fw } = s ∧
      t.fw = { s.fw with adminOk := true }) ∧
    (s.fw.healthy = true → ∃ t, exec (.firmwareConfirm sid) s = .next t ∧ t.mem = s.mem ∧ t.cores = s.cores ∧
      t.fw.pending = none ∧ t.fw.active = b ∧ mget 0 t.fw.banks b = 4)) ∧
  (∀ (s : State) (sid b : Nat), MayAct s sid ⟨0xA0, 0x000B, 0⟩ (.num 1) → b = 1 - s.fw.active →
    (actKind s b = 0 → ∃ t, exec (.firmwareRevert sid) s = .next t ∧ t.fw.pending = some b ∧ t.fw.trials = 1 ∧ t.fw.phase = 1 ∧
      t.wake.mgmt = true ∧ t.dev = s.dev ∧ t.mem = s.mem ∧ t.cores = s.cores) ∧
    (actKind s b = 2 → ∃ t, exec (.firmwareRevert sid) s = .next t ∧ { t with fw := s.fw } = s ∧
      t.fw = { s.fw with upd := 5, act := some (b, 0) }))

/-- A step takes the command at the front of the queue: for every command and state it answers what the command does
with the queue's rest, and that is a next state. With none waiting a nanosecond passes: time and Echo go on, and
memory, the partitions, the log and what has been shown stand (log entry 2). -/
def Obligations.StepRunsTheFront : Prop :=
  (∀ (c : Instr) (rest : List Instr) (s : State), s.pending = c :: rest → step s = exec c { s with pending := rest } ∧
    ∃ t, step s = .next t) ∧
  (∀ (s : State), s.pending = [] → ∃ t, step s = .next t ∧ t.now = s.now + 1 ∧ t.pending = [] ∧ t.mem = s.mem ∧ t.out = s.out ∧
    t.parts = s.parts ∧ t.groups = s.groups ∧ t.logBuf = s.logBuf ∧ t.dev = s.dev ∧ t.cfg = s.cfg ∧
    (∀ c r, rg t c r = rg s c r) ∧ (∀ c, (t.core c).ctl = (s.core c).ctl) ∧
    (s.dev ≠ .off → s.ech.slew = 0 → t.echoM = s.echoM + 1))

/-- Tables 2.5, 3.4, 5.10, 6.6, 7.10, 12.6, 12.7, 13.14 to 13.17, 14.1, 14.11 and 17.7: what reset leaves. The device
is in STANDBY on VSTBY alone, every core is IDLE with its registers 0, no queue, lock or channel holds anything,
partition 0 owns every group, every port is DISABLED, and the invariant of memory holds. The values that log entry 9
names are the model's. -/
def Obligations.ResetStateStands : Prop :=
  ∀ s, s = State.reset →
    MemInv s ∧ s.pending = [] ∧ s.dev = .standby ∧ s.stage = 0 ∧ s.pwr.vin = false ∧ s.pwr.vstby = true ∧ domOf s 134 = .on ∧
    (∀ d, d ≠ 134 → domOf s d = .off) ∧ s.pwr.limit = Config.inputCeiling ∧
    (∀ c, (s.core c).ctl.st = .idle ∧ (s.core c).ctl.haltBit = false ∧ (s.core c).ctl.gtmo = 20000 ∧ (s.core c).ctl.frec = none ∧
      (s.core c).flights = [] ∧ (s.core c).prs.pstate = .idle ∧ ∀ r, rg s c r = 0) ∧
    (∀ g, (s.grp g).skip = 12 ∧ (s.grp g).part = some 0 ∧ (s.grp g).remap = none) ∧
    (∀ p, haltBitOf s p = false ∧ (s.part p).resetting = false) ∧
    (∀ n, (s.field n).live = 0xFFF ∧ (s.field n).tcap = 80 ∧ (s.field n).step = 0) ∧
    (∀ p, (s.port p).st = .disabled ∧ (s.port p).en = true) ∧ (∀ k, (s.stack k).st = .off) ∧
    (∀ c, c < 4 → (s.auxCh c).en = true) ∧ (∀ c, 4 ≤ c → (s.auxCh c).en = false) ∧
    s.mem = [] ∧ s.locks = [] ∧ s.mchans = [] ∧ s.sessions = [] ∧ s.launches = [] ∧ s.logBuf = [] ∧ s.lastSeq = 0 ∧
    s.fw.active = 0 ∧ mget 0 s.fw.banks 0 = 4 ∧ mget 0 s.fw.banks 1 = 2 ∧ s.fw.pending = none

/-- What every step keeps, of every command and of the passing of time: memory stays in its canonical form (addresses
strictly rising, no entry equal to what an unlisted address reads as), what the device has shown stays shown, no free
value is drawn twice, and the queue loses its front alone, while time goes on by one nanosecond only where none waits.
Log entries 2, 4 and 45 name the model's choices in it. -/
def Obligations.EveryStepKeepsTheInvariant : Prop :=
  ∀ (s t : State), step s = .next t →
    (MemInv s → MemInv t) ∧ s.out <+: t.out ∧ s.fresh ≤ t.fresh ∧ t.pending = s.pending.tail ∧
    t.now = s.now + (if s.pending = [] then 1 else 0)
end

