-- ==== Sys2Proof/Laws/Maps.lean ====
section
/-!
SUPPORT. Sparse data: what reading after writing gives, and that writing keeps the keys rising.
-/

namespace Sys2Proof.Machine

@[simp] theorem mget_nil {α : Type} (d : α) (k : Nat) : mget d [] k = d := rfl

@[simp] theorem mget_mset {α : Type} (d : α) (m : Map α) (k : Nat) (v : α) : mget d (mset m k v) k = v := by
  induction m with
  | nil => simp [mset, mget]
  | cons p m ih =>
    simp only [mset]
    split
    · simp [mget]
    · split
      · simp [mget]
      · simp [mget, *]

theorem mget_mset_ne {α : Type} (d : α) (m : Map α) {k j : Nat} (v : α) (h : j ≠ k) : mget d (mset m k v) j = mget d m j := by
  induction m with
  | nil => simp [mset, mget, h]
  | cons p m ih =>
    simp only [mset]
    split
    · simp [mget, h]
    · split
      · next e => simp [mget, h, e ▸ h]
      · simp [mget, ih]

@[simp] theorem mfind_mset {α : Type} (m : Map α) (k : Nat) (v : α) : mfind (mset m k v) k = some v := by
  induction m with
  | nil => simp [mset, mfind]
  | cons p m ih =>
    simp only [mset]
    split
    · simp [mfind]
    · split
      · simp [mfind]
      · simp [mfind, *]

theorem mfind_mset_ne {α : Type} (m : Map α) {k j : Nat} (v : α) (h : j ≠ k) : mfind (mset m k v) j = mfind m j := by
  induction m with
  | nil => simp [mset, mfind, h]
  | cons p m ih =>
    simp only [mset]
    split
    · simp [mfind, h]
    · split
      · next e => simp [mfind, h, e ▸ h]
      · simp [mfind, ih]

theorem mfind_mdel {α : Type} (m : Map α) (k : Nat) : mfind (mdel m k) k = none := by
  induction m with
  | nil => rfl
  | cons p m ih =>
    simp only [mdel, List.filter_cons] at *
    split
    · next e =>
      have : k ≠ p.1 := fun h => by simp [h] at e
      simp [mfind, this, ih]
    · exact ih

theorem mfind_mdel_ne {α : Type} (m : Map α) {k j : Nat} (h : j ≠ k) : mfind (mdel m k) j = mfind m j := by
  induction m with
  | nil => rfl
  | cons p m ih =>
    simp only [mdel, List.filter_cons] at *
    split
    · simp [mfind, ih]
    · next e =>
      have : p.1 = k := by simpa using e
      simp [mfind, ih, this, h]

end Sys2Proof.Machine
end

