-- ==== Sys2Proof/Laws/State.lean ====
section
/-!
SUPPORT. One lemma for each field that an update of the state leaves alone, and what reading a part gives after the update
of a part.
-/

namespace Sys2Proof.Machine

@[simp] theorem modCore_pending (s : State) (c : Nat) (f : Core → Core) : (modCore s c f).pending = s.pending := rfl
@[simp] theorem modCore_now (s : State) (c : Nat) (f : Core → Core) : (modCore s c f).now = s.now := rfl
@[simp] theorem modCore_fresh (s : State) (c : Nat) (f : Core → Core) : (modCore s c f).fresh = s.fresh := rfl
@[simp] theorem modCore_out (s : State) (c : Nat) (f : Core → Core) : (modCore s c f).out = s.out := rfl
@[simp] theorem modCore_mem (s : State) (c : Nat) (f : Core → Core) : (modCore s c f).mem = s.mem := rfl
@[simp] theorem modCore_marks (s : State) (c : Nat) (f : Core → Core) : (modCore s c f).marks = s.marks := rfl
@[simp] theorem modCore_rowErrs (s : State) (c : Nat) (f : Core → Core) : (modCore s c f).rowErrs = s.rowErrs := rfl
@[simp] theorem modCore_fields (s : State) (c : Nat) (f : Core → Core) : (modCore s c f).fields = s.fields := rfl
@[simp] theorem modCore_groups (s : State) (c : Nat) (f : Core → Core) : (modCore s c f).groups = s.groups := rfl
@[simp] theorem modCore_parts (s : State) (c : Nat) (f : Core → Core) : (modCore s c f).parts = s.parts := rfl
@[simp] theorem modCore_sends (s : State) (c : Nat) (f : Core → Core) : (modCore s c f).sends = s.sends := rfl
@[simp] theorem modCore_mchans (s : State) (c : Nat) (f : Core → Core) : (modCore s c f).mchans = s.mchans := rfl
@[simp] theorem modCore_chanOwner (s : State) (c : Nat) (f : Core → Core) : (modCore s c f).chanOwner = s.chanOwner := rfl
@[simp] theorem modCore_lockOwner (s : State) (c : Nat) (f : Core → Core) : (modCore s c f).lockOwner = s.lockOwner := rfl
@[simp] theorem modCore_locks (s : State) (c : Nat) (f : Core → Core) : (modCore s c f).locks = s.locks := rfl
@[simp] theorem modCore_lockReplies (s : State) (c : Nat) (f : Core → Core) : (modCore s c f).lockReplies = s.lockReplies := rfl
@[simp] theorem modCore_reports (s : State) (c : Nat) (f : Core → Core) : (modCore s c f).reports = s.reports := rfl
@[simp] theorem modCore_devId (s : State) (c : Nat) (f : Core → Core) : (modCore s c f).devId = s.devId := rfl
@[simp] theorem modCore_dev (s : State) (c : Nat) (f : Core → Core) : (modCore s c f).dev = s.dev := rfl
@[simp] theorem modCore_stage (s : State) (c : Nat) (f : Core → Core) : (modCore s c f).stage = s.stage := rfl
@[simp] theorem modCore_echoM (s : State) (c : Nat) (f : Core → Core) : (modCore s c f).echoM = s.echoM := rfl
@[simp] theorem modCore_sessions (s : State) (c : Nat) (f : Core → Core) : (modCore s c f).sessions = s.sessions := rfl
@[simp] theorem modCore_lastSeq (s : State) (c : Nat) (f : Core → Core) : (modCore s c f).lastSeq = s.lastSeq := rfl
@[simp] theorem modCore_logBuf (s : State) (c : Nat) (f : Core → Core) : (modCore s c f).logBuf = s.logBuf := rfl
@[simp] theorem modCore_logFlash (s : State) (c : Nat) (f : Core → Core) : (modCore s c f).logFlash = s.logFlash := rfl
@[simp] theorem modCore_totals (s : State) (c : Nat) (f : Core → Core) : (modCore s c f).totals = s.totals := rfl
@[simp] theorem modCore_totalsCold (s : State) (c : Nat) (f : Core → Core) : (modCore s c f).totalsCold = s.totalsCold := rfl
@[simp] theorem modCore_coals (s : State) (c : Nat) (f : Core → Core) : (modCore s c f).coals = s.coals := rfl
@[simp] theorem modCore_survey (s : State) (c : Nat) (f : Core → Core) : (modCore s c f).survey = s.survey := rfl
@[simp] theorem modCore_hbms (s : State) (c : Nat) (f : Core → Core) : (modCore s c f).hbms = s.hbms := rfl
@[simp] theorem modCore_hbmOwner (s : State) (c : Nat) (f : Core → Core) : (modCore s c f).hbmOwner = s.hbmOwner := rfl
@[simp] theorem modCore_cntUnmapped (s : State) (c : Nat) (f : Core → Core) : (modCore s c f).cntUnmapped = s.cntUnmapped := rfl
@[simp] theorem modCore_partUnmapped (s : State) (c : Nat) (f : Core → Core) : (modCore s c f).partUnmapped = s.partUnmapped := rfl
@[simp] theorem modCore_cntDenied (s : State) (c : Nat) (f : Core → Core) : (modCore s c f).cntDenied = s.cntDenied := rfl
@[simp] theorem modCore_cntSize (s : State) (c : Nat) (f : Core → Core) : (modCore s c f).cntSize = s.cntSize := rfl
@[simp] theorem modCore_cntMcDepth (s : State) (c : Nat) (f : Core → Core) : (modCore s c f).cntMcDepth = s.cntMcDepth := rfl
@[simp] theorem modCore_links (s : State) (c : Nat) (f : Core → Core) : (modCore s c f).links = s.links := rfl
@[simp] theorem modCore_hosts (s : State) (c : Nat) (f : Core → Core) : (modCore s c f).hosts = s.hosts := rfl
@[simp] theorem modCore_launches (s : State) (c : Nat) (f : Core → Core) : (modCore s c f).launches = s.launches := rfl
@[simp] theorem modCore_nextOrder (s : State) (c : Nat) (f : Core → Core) : (modCore s c f).nextOrder = s.nextOrder := rfl
@[simp] theorem modCore_cfg (s : State) (c : Nat) (f : Core → Core) : (modCore s c f).cfg = s.cfg := rfl
@[simp] theorem modCore_seams (s : State) (c : Nat) (f : Core → Core) : (modCore s c f).seams = s.seams := rfl
@[simp] theorem modCore_badEntries (s : State) (c : Nat) (f : Core → Core) : (modCore s c f).badEntries = s.badEntries := rfl
@[simp] theorem modCore_shared (s : State) (c : Nat) (f : Core → Core) : (modCore s c f).shared = s.shared := rfl
@[simp] theorem modCore_clk (s : State) (c : Nat) (f : Core → Core) : (modCore s c f).clk = s.clk := rfl
@[simp] theorem modCore_ech (s : State) (c : Nat) (f : Core → Core) : (modCore s c f).ech = s.ech := rfl
@[simp] theorem modCore_pwr (s : State) (c : Nat) (f : Core → Core) : (modCore s c f).pwr = s.pwr := rfl
@[simp] theorem modCore_wake (s : State) (c : Nat) (f : Core → Core) : (modCore s c f).wake = s.wake := rfl
@[simp] theorem modCore_mgmt (s : State) (c : Nat) (f : Core → Core) : (modCore s c f).mgmt = s.mgmt := rfl
@[simp] theorem modCore_fw (s : State) (c : Nat) (f : Core → Core) : (modCore s c f).fw = s.fw := rfl
@[simp] theorem modCtl_pending (s : State) (c : Nat) (f : Ctl → Ctl) : (modCtl s c f).pending = s.pending := rfl
@[simp] theorem modCtl_now (s : State) (c : Nat) (f : Ctl → Ctl) : (modCtl s c f).now = s.now := rfl
@[simp] theorem modCtl_fresh (s : State) (c : Nat) (f : Ctl → Ctl) : (modCtl s c f).fresh = s.fresh := rfl
@[simp] theorem modCtl_out (s : State) (c : Nat) (f : Ctl → Ctl) : (modCtl s c f).out = s.out := rfl
@[simp] theorem modCtl_mem (s : State) (c : Nat) (f : Ctl → Ctl) : (modCtl s c f).mem = s.mem := rfl
@[simp] theorem modCtl_marks (s : State) (c : Nat) (f : Ctl → Ctl) : (modCtl s c f).marks = s.marks := rfl
@[simp] theorem modCtl_rowErrs (s : State) (c : Nat) (f : Ctl → Ctl) : (modCtl s c f).rowErrs = s.rowErrs := rfl
@[simp] theorem modCtl_fields (s : State) (c : Nat) (f : Ctl → Ctl) : (modCtl s c f).fields = s.fields := rfl
@[simp] theorem modCtl_groups (s : State) (c : Nat) (f : Ctl → Ctl) : (modCtl s c f).groups = s.groups := rfl
@[simp] theorem modCtl_parts (s : State) (c : Nat) (f : Ctl → Ctl) : (modCtl s c f).parts = s.parts := rfl
@[simp] theorem modCtl_sends (s : State) (c : Nat) (f : Ctl → Ctl) : (modCtl s c f).sends = s.sends := rfl
@[simp] theorem modCtl_mchans (s : State) (c : Nat) (f : Ctl → Ctl) : (modCtl s c f).mchans = s.mchans := rfl
@[simp] theorem modCtl_chanOwner (s : State) (c : Nat) (f : Ctl → Ctl) : (modCtl s c f).chanOwner = s.chanOwner := rfl
@[simp] theorem modCtl_lockOwner (s : State) (c : Nat) (f : Ctl → Ctl) : (modCtl s c f).lockOwner = s.lockOwner := rfl
@[simp] theorem modCtl_locks (s : State) (c : Nat) (f : Ctl → Ctl) : (modCtl s c f).locks = s.locks := rfl
@[simp] theorem modCtl_lockReplies (s : State) (c : Nat) (f : Ctl → Ctl) : (modCtl s c f).lockReplies = s.lockReplies := rfl
@[simp] theorem modCtl_reports (s : State) (c : Nat) (f : Ctl → Ctl) : (modCtl s c f).reports = s.reports := rfl
@[simp] theorem modCtl_devId (s : State) (c : Nat) (f : Ctl → Ctl) : (modCtl s c f).devId = s.devId := rfl
@[simp] theorem modCtl_dev (s : State) (c : Nat) (f : Ctl → Ctl) : (modCtl s c f).dev = s.dev := rfl
@[simp] theorem modCtl_stage (s : State) (c : Nat) (f : Ctl → Ctl) : (modCtl s c f).stage = s.stage := rfl
@[simp] theorem modCtl_echoM (s : State) (c : Nat) (f : Ctl → Ctl) : (modCtl s c f).echoM = s.echoM := rfl
@[simp] theorem modCtl_sessions (s : State) (c : Nat) (f : Ctl → Ctl) : (modCtl s c f).sessions = s.sessions := rfl
@[simp] theorem modCtl_lastSeq (s : State) (c : Nat) (f : Ctl → Ctl) : (modCtl s c f).lastSeq = s.lastSeq := rfl
@[simp] theorem modCtl_logBuf (s : State) (c : Nat) (f : Ctl → Ctl) : (modCtl s c f).logBuf = s.logBuf := rfl
@[simp] theorem modCtl_logFlash (s : State) (c : Nat) (f : Ctl → Ctl) : (modCtl s c f).logFlash = s.logFlash := rfl
@[simp] theorem modCtl_totals (s : State) (c : Nat) (f : Ctl → Ctl) : (modCtl s c f).totals = s.totals := rfl
@[simp] theorem modCtl_totalsCold (s : State) (c : Nat) (f : Ctl → Ctl) : (modCtl s c f).totalsCold = s.totalsCold := rfl
@[simp] theorem modCtl_coals (s : State) (c : Nat) (f : Ctl → Ctl) : (modCtl s c f).coals = s.coals := rfl
@[simp] theorem modCtl_survey (s : State) (c : Nat) (f : Ctl → Ctl) : (modCtl s c f).survey = s.survey := rfl
@[simp] theorem modCtl_hbms (s : State) (c : Nat) (f : Ctl → Ctl) : (modCtl s c f).hbms = s.hbms := rfl
@[simp] theorem modCtl_hbmOwner (s : State) (c : Nat) (f : Ctl → Ctl) : (modCtl s c f).hbmOwner = s.hbmOwner := rfl
@[simp] theorem modCtl_cntUnmapped (s : State) (c : Nat) (f : Ctl → Ctl) : (modCtl s c f).cntUnmapped = s.cntUnmapped := rfl
@[simp] theorem modCtl_partUnmapped (s : State) (c : Nat) (f : Ctl → Ctl) : (modCtl s c f).partUnmapped = s.partUnmapped := rfl
@[simp] theorem modCtl_cntDenied (s : State) (c : Nat) (f : Ctl → Ctl) : (modCtl s c f).cntDenied = s.cntDenied := rfl
@[simp] theorem modCtl_cntSize (s : State) (c : Nat) (f : Ctl → Ctl) : (modCtl s c f).cntSize = s.cntSize := rfl
@[simp] theorem modCtl_cntMcDepth (s : State) (c : Nat) (f : Ctl → Ctl) : (modCtl s c f).cntMcDepth = s.cntMcDepth := rfl
@[simp] theorem modCtl_links (s : State) (c : Nat) (f : Ctl → Ctl) : (modCtl s c f).links = s.links := rfl
@[simp] theorem modCtl_hosts (s : State) (c : Nat) (f : Ctl → Ctl) : (modCtl s c f).hosts = s.hosts := rfl
@[simp] theorem modCtl_launches (s : State) (c : Nat) (f : Ctl → Ctl) : (modCtl s c f).launches = s.launches := rfl
@[simp] theorem modCtl_nextOrder (s : State) (c : Nat) (f : Ctl → Ctl) : (modCtl s c f).nextOrder = s.nextOrder := rfl
@[simp] theorem modCtl_cfg (s : State) (c : Nat) (f : Ctl → Ctl) : (modCtl s c f).cfg = s.cfg := rfl
@[simp] theorem modCtl_seams (s : State) (c : Nat) (f : Ctl → Ctl) : (modCtl s c f).seams = s.seams := rfl
@[simp] theorem modCtl_badEntries (s : State) (c : Nat) (f : Ctl → Ctl) : (modCtl s c f).badEntries = s.badEntries := rfl
@[simp] theorem modCtl_shared (s : State) (c : Nat) (f : Ctl → Ctl) : (modCtl s c f).shared = s.shared := rfl
@[simp] theorem modCtl_clk (s : State) (c : Nat) (f : Ctl → Ctl) : (modCtl s c f).clk = s.clk := rfl
@[simp] theorem modCtl_ech (s : State) (c : Nat) (f : Ctl → Ctl) : (modCtl s c f).ech = s.ech := rfl
@[simp] theorem modCtl_pwr (s : State) (c : Nat) (f : Ctl → Ctl) : (modCtl s c f).pwr = s.pwr := rfl
@[simp] theorem modCtl_wake (s : State) (c : Nat) (f : Ctl → Ctl) : (modCtl s c f).wake = s.wake := rfl
@[simp] theorem modCtl_mgmt (s : State) (c : Nat) (f : Ctl → Ctl) : (modCtl s c f).mgmt = s.mgmt := rfl
@[simp] theorem modCtl_fw (s : State) (c : Nat) (f : Ctl → Ctl) : (modCtl s c f).fw = s.fw := rfl
@[simp] theorem modPrs_pending (s : State) (c : Nat) (f : Press → Press) : (modPrs s c f).pending = s.pending := rfl
@[simp] theorem modPrs_now (s : State) (c : Nat) (f : Press → Press) : (modPrs s c f).now = s.now := rfl
@[simp] theorem modPrs_fresh (s : State) (c : Nat) (f : Press → Press) : (modPrs s c f).fresh = s.fresh := rfl
@[simp] theorem modPrs_out (s : State) (c : Nat) (f : Press → Press) : (modPrs s c f).out = s.out := rfl
@[simp] theorem modPrs_mem (s : State) (c : Nat) (f : Press → Press) : (modPrs s c f).mem = s.mem := rfl
@[simp] theorem modPrs_marks (s : State) (c : Nat) (f : Press → Press) : (modPrs s c f).marks = s.marks := rfl
@[simp] theorem modPrs_rowErrs (s : State) (c : Nat) (f : Press → Press) : (modPrs s c f).rowErrs = s.rowErrs := rfl
@[simp] theorem modPrs_fields (s : State) (c : Nat) (f : Press → Press) : (modPrs s c f).fields = s.fields := rfl
@[simp] theorem modPrs_groups (s : State) (c : Nat) (f : Press → Press) : (modPrs s c f).groups = s.groups := rfl
@[simp] theorem modPrs_parts (s : State) (c : Nat) (f : Press → Press) : (modPrs s c f).parts = s.parts := rfl
@[simp] theorem modPrs_sends (s : State) (c : Nat) (f : Press → Press) : (modPrs s c f).sends = s.sends := rfl
@[simp] theorem modPrs_mchans (s : State) (c : Nat) (f : Press → Press) : (modPrs s c f).mchans = s.mchans := rfl
@[simp] theorem modPrs_chanOwner (s : State) (c : Nat) (f : Press → Press) : (modPrs s c f).chanOwner = s.chanOwner := rfl
@[simp] theorem modPrs_lockOwner (s : State) (c : Nat) (f : Press → Press) : (modPrs s c f).lockOwner = s.lockOwner := rfl
@[simp] theorem modPrs_locks (s : State) (c : Nat) (f : Press → Press) : (modPrs s c f).locks = s.locks := rfl
@[simp] theorem modPrs_lockReplies (s : State) (c : Nat) (f : Press → Press) : (modPrs s c f).lockReplies = s.lockReplies := rfl
@[simp] theorem modPrs_reports (s : State) (c : Nat) (f : Press → Press) : (modPrs s c f).reports = s.reports := rfl
@[simp] theorem modPrs_devId (s : State) (c : Nat) (f : Press → Press) : (modPrs s c f).devId = s.devId := rfl
@[simp] theorem modPrs_dev (s : State) (c : Nat) (f : Press → Press) : (modPrs s c f).dev = s.dev := rfl
@[simp] theorem modPrs_stage (s : State) (c : Nat) (f : Press → Press) : (modPrs s c f).stage = s.stage := rfl
@[simp] theorem modPrs_echoM (s : State) (c : Nat) (f : Press → Press) : (modPrs s c f).echoM = s.echoM := rfl
@[simp] theorem modPrs_sessions (s : State) (c : Nat) (f : Press → Press) : (modPrs s c f).sessions = s.sessions := rfl
@[simp] theorem modPrs_lastSeq (s : State) (c : Nat) (f : Press → Press) : (modPrs s c f).lastSeq = s.lastSeq := rfl
@[simp] theorem modPrs_logBuf (s : State) (c : Nat) (f : Press → Press) : (modPrs s c f).logBuf = s.logBuf := rfl
@[simp] theorem modPrs_logFlash (s : State) (c : Nat) (f : Press → Press) : (modPrs s c f).logFlash = s.logFlash := rfl
@[simp] theorem modPrs_totals (s : State) (c : Nat) (f : Press → Press) : (modPrs s c f).totals = s.totals := rfl
@[simp] theorem modPrs_totalsCold (s : State) (c : Nat) (f : Press → Press) : (modPrs s c f).totalsCold = s.totalsCold := rfl
@[simp] theorem modPrs_coals (s : State) (c : Nat) (f : Press → Press) : (modPrs s c f).coals = s.coals := rfl
@[simp] theorem modPrs_survey (s : State) (c : Nat) (f : Press → Press) : (modPrs s c f).survey = s.survey := rfl
@[simp] theorem modPrs_hbms (s : State) (c : Nat) (f : Press → Press) : (modPrs s c f).hbms = s.hbms := rfl
@[simp] theorem modPrs_hbmOwner (s : State) (c : Nat) (f : Press → Press) : (modPrs s c f).hbmOwner = s.hbmOwner := rfl
@[simp] theorem modPrs_cntUnmapped (s : State) (c : Nat) (f : Press → Press) : (modPrs s c f).cntUnmapped = s.cntUnmapped := rfl
@[simp] theorem modPrs_partUnmapped (s : State) (c : Nat) (f : Press → Press) : (modPrs s c f).partUnmapped = s.partUnmapped := rfl
@[simp] theorem modPrs_cntDenied (s : State) (c : Nat) (f : Press → Press) : (modPrs s c f).cntDenied = s.cntDenied := rfl
@[simp] theorem modPrs_cntSize (s : State) (c : Nat) (f : Press → Press) : (modPrs s c f).cntSize = s.cntSize := rfl
@[simp] theorem modPrs_cntMcDepth (s : State) (c : Nat) (f : Press → Press) : (modPrs s c f).cntMcDepth = s.cntMcDepth := rfl
@[simp] theorem modPrs_links (s : State) (c : Nat) (f : Press → Press) : (modPrs s c f).links = s.links := rfl
@[simp] theorem modPrs_hosts (s : State) (c : Nat) (f : Press → Press) : (modPrs s c f).hosts = s.hosts := rfl
@[simp] theorem modPrs_launches (s : State) (c : Nat) (f : Press → Press) : (modPrs s c f).launches = s.launches := rfl
@[simp] theorem modPrs_nextOrder (s : State) (c : Nat) (f : Press → Press) : (modPrs s c f).nextOrder = s.nextOrder := rfl
@[simp] theorem modPrs_cfg (s : State) (c : Nat) (f : Press → Press) : (modPrs s c f).cfg = s.cfg := rfl
@[simp] theorem modPrs_seams (s : State) (c : Nat) (f : Press → Press) : (modPrs s c f).seams = s.seams := rfl
@[simp] theorem modPrs_badEntries (s : State) (c : Nat) (f : Press → Press) : (modPrs s c f).badEntries = s.badEntries := rfl
@[simp] theorem modPrs_shared (s : State) (c : Nat) (f : Press → Press) : (modPrs s c f).shared = s.shared := rfl
@[simp] theorem modPrs_clk (s : State) (c : Nat) (f : Press → Press) : (modPrs s c f).clk = s.clk := rfl
@[simp] theorem modPrs_ech (s : State) (c : Nat) (f : Press → Press) : (modPrs s c f).ech = s.ech := rfl
@[simp] theorem modPrs_pwr (s : State) (c : Nat) (f : Press → Press) : (modPrs s c f).pwr = s.pwr := rfl
@[simp] theorem modPrs_wake (s : State) (c : Nat) (f : Press → Press) : (modPrs s c f).wake = s.wake := rfl
@[simp] theorem modPrs_mgmt (s : State) (c : Nat) (f : Press → Press) : (modPrs s c f).mgmt = s.mgmt := rfl
@[simp] theorem modPrs_fw (s : State) (c : Nat) (f : Press → Press) : (modPrs s c f).fw = s.fw := rfl
@[simp] theorem modVec_pending (s : State) (c : Nat) (f : Vec → Vec) : (modVec s c f).pending = s.pending := rfl
@[simp] theorem modVec_now (s : State) (c : Nat) (f : Vec → Vec) : (modVec s c f).now = s.now := rfl
@[simp] theorem modVec_fresh (s : State) (c : Nat) (f : Vec → Vec) : (modVec s c f).fresh = s.fresh := rfl
@[simp] theorem modVec_out (s : State) (c : Nat) (f : Vec → Vec) : (modVec s c f).out = s.out := rfl
@[simp] theorem modVec_mem (s : State) (c : Nat) (f : Vec → Vec) : (modVec s c f).mem = s.mem := rfl
@[simp] theorem modVec_marks (s : State) (c : Nat) (f : Vec → Vec) : (modVec s c f).marks = s.marks := rfl
@[simp] theorem modVec_rowErrs (s : State) (c : Nat) (f : Vec → Vec) : (modVec s c f).rowErrs = s.rowErrs := rfl
@[simp] theorem modVec_fields (s : State) (c : Nat) (f : Vec → Vec) : (modVec s c f).fields = s.fields := rfl
@[simp] theorem modVec_groups (s : State) (c : Nat) (f : Vec → Vec) : (modVec s c f).groups = s.groups := rfl
@[simp] theorem modVec_parts (s : State) (c : Nat) (f : Vec → Vec) : (modVec s c f).parts = s.parts := rfl
@[simp] theorem modVec_sends (s : State) (c : Nat) (f : Vec → Vec) : (modVec s c f).sends = s.sends := rfl
@[simp] theorem modVec_mchans (s : State) (c : Nat) (f : Vec → Vec) : (modVec s c f).mchans = s.mchans := rfl
@[simp] theorem modVec_chanOwner (s : State) (c : Nat) (f : Vec → Vec) : (modVec s c f).chanOwner = s.chanOwner := rfl
@[simp] theorem modVec_lockOwner (s : State) (c : Nat) (f : Vec → Vec) : (modVec s c f).lockOwner = s.lockOwner := rfl
@[simp] theorem modVec_locks (s : State) (c : Nat) (f : Vec → Vec) : (modVec s c f).locks = s.locks := rfl
@[simp] theorem modVec_lockReplies (s : State) (c : Nat) (f : Vec → Vec) : (modVec s c f).lockReplies = s.lockReplies := rfl
@[simp] theorem modVec_reports (s : State) (c : Nat) (f : Vec → Vec) : (modVec s c f).reports = s.reports := rfl
@[simp] theorem modVec_devId (s : State) (c : Nat) (f : Vec → Vec) : (modVec s c f).devId = s.devId := rfl
@[simp] theorem modVec_dev (s : State) (c : Nat) (f : Vec → Vec) : (modVec s c f).dev = s.dev := rfl
@[simp] theorem modVec_stage (s : State) (c : Nat) (f : Vec → Vec) : (modVec s c f).stage = s.stage := rfl
@[simp] theorem modVec_echoM (s : State) (c : Nat) (f : Vec → Vec) : (modVec s c f).echoM = s.echoM := rfl
@[simp] theorem modVec_sessions (s : State) (c : Nat) (f : Vec → Vec) : (modVec s c f).sessions = s.sessions := rfl
@[simp] theorem modVec_lastSeq (s : State) (c : Nat) (f : Vec → Vec) : (modVec s c f).lastSeq = s.lastSeq := rfl
@[simp] theorem modVec_logBuf (s : State) (c : Nat) (f : Vec → Vec) : (modVec s c f).logBuf = s.logBuf := rfl
@[simp] theorem modVec_logFlash (s : State) (c : Nat) (f : Vec → Vec) : (modVec s c f).logFlash = s.logFlash := rfl
@[simp] theorem modVec_totals (s : State) (c : Nat) (f : Vec → Vec) : (modVec s c f).totals = s.totals := rfl
@[simp] theorem modVec_totalsCold (s : State) (c : Nat) (f : Vec → Vec) : (modVec s c f).totalsCold = s.totalsCold := rfl
@[simp] theorem modVec_coals (s : State) (c : Nat) (f : Vec → Vec) : (modVec s c f).coals = s.coals := rfl
@[simp] theorem modVec_survey (s : State) (c : Nat) (f : Vec → Vec) : (modVec s c f).survey = s.survey := rfl
@[simp] theorem modVec_hbms (s : State) (c : Nat) (f : Vec → Vec) : (modVec s c f).hbms = s.hbms := rfl
@[simp] theorem modVec_hbmOwner (s : State) (c : Nat) (f : Vec → Vec) : (modVec s c f).hbmOwner = s.hbmOwner := rfl
@[simp] theorem modVec_cntUnmapped (s : State) (c : Nat) (f : Vec → Vec) : (modVec s c f).cntUnmapped = s.cntUnmapped := rfl
@[simp] theorem modVec_partUnmapped (s : State) (c : Nat) (f : Vec → Vec) : (modVec s c f).partUnmapped = s.partUnmapped := rfl
@[simp] theorem modVec_cntDenied (s : State) (c : Nat) (f : Vec → Vec) : (modVec s c f).cntDenied = s.cntDenied := rfl
@[simp] theorem modVec_cntSize (s : State) (c : Nat) (f : Vec → Vec) : (modVec s c f).cntSize = s.cntSize := rfl
@[simp] theorem modVec_cntMcDepth (s : State) (c : Nat) (f : Vec → Vec) : (modVec s c f).cntMcDepth = s.cntMcDepth := rfl
@[simp] theorem modVec_links (s : State) (c : Nat) (f : Vec → Vec) : (modVec s c f).links = s.links := rfl
@[simp] theorem modVec_hosts (s : State) (c : Nat) (f : Vec → Vec) : (modVec s c f).hosts = s.hosts := rfl
@[simp] theorem modVec_launches (s : State) (c : Nat) (f : Vec → Vec) : (modVec s c f).launches = s.launches := rfl
@[simp] theorem modVec_nextOrder (s : State) (c : Nat) (f : Vec → Vec) : (modVec s c f).nextOrder = s.nextOrder := rfl
@[simp] theorem modVec_cfg (s : State) (c : Nat) (f : Vec → Vec) : (modVec s c f).cfg = s.cfg := rfl
@[simp] theorem modVec_seams (s : State) (c : Nat) (f : Vec → Vec) : (modVec s c f).seams = s.seams := rfl
@[simp] theorem modVec_badEntries (s : State) (c : Nat) (f : Vec → Vec) : (modVec s c f).badEntries = s.badEntries := rfl
@[simp] theorem modVec_shared (s : State) (c : Nat) (f : Vec → Vec) : (modVec s c f).shared = s.shared := rfl
@[simp] theorem modVec_clk (s : State) (c : Nat) (f : Vec → Vec) : (modVec s c f).clk = s.clk := rfl
@[simp] theorem modVec_ech (s : State) (c : Nat) (f : Vec → Vec) : (modVec s c f).ech = s.ech := rfl
@[simp] theorem modVec_pwr (s : State) (c : Nat) (f : Vec → Vec) : (modVec s c f).pwr = s.pwr := rfl
@[simp] theorem modVec_wake (s : State) (c : Nat) (f : Vec → Vec) : (modVec s c f).wake = s.wake := rfl
@[simp] theorem modVec_mgmt (s : State) (c : Nat) (f : Vec → Vec) : (modVec s c f).mgmt = s.mgmt := rfl
@[simp] theorem modVec_fw (s : State) (c : Nat) (f : Vec → Vec) : (modVec s c f).fw = s.fw := rfl
@[simp] theorem modSpd_pending (s : State) (c : Nat) (f : Spd → Spd) : (modSpd s c f).pending = s.pending := rfl
@[simp] theorem modSpd_now (s : State) (c : Nat) (f : Spd → Spd) : (modSpd s c f).now = s.now := rfl
@[simp] theorem modSpd_fresh (s : State) (c : Nat) (f : Spd → Spd) : (modSpd s c f).fresh = s.fresh := rfl
@[simp] theorem modSpd_out (s : State) (c : Nat) (f : Spd → Spd) : (modSpd s c f).out = s.out := rfl
@[simp] theorem modSpd_mem (s : State) (c : Nat) (f : Spd → Spd) : (modSpd s c f).mem = s.mem := rfl
@[simp] theorem modSpd_marks (s : State) (c : Nat) (f : Spd → Spd) : (modSpd s c f).marks = s.marks := rfl
@[simp] theorem modSpd_rowErrs (s : State) (c : Nat) (f : Spd → Spd) : (modSpd s c f).rowErrs = s.rowErrs := rfl
@[simp] theorem modSpd_fields (s : State) (c : Nat) (f : Spd → Spd) : (modSpd s c f).fields = s.fields := rfl
@[simp] theorem modSpd_groups (s : State) (c : Nat) (f : Spd → Spd) : (modSpd s c f).groups = s.groups := rfl
@[simp] theorem modSpd_parts (s : State) (c : Nat) (f : Spd → Spd) : (modSpd s c f).parts = s.parts := rfl
@[simp] theorem modSpd_sends (s : State) (c : Nat) (f : Spd → Spd) : (modSpd s c f).sends = s.sends := rfl
@[simp] theorem modSpd_mchans (s : State) (c : Nat) (f : Spd → Spd) : (modSpd s c f).mchans = s.mchans := rfl
@[simp] theorem modSpd_chanOwner (s : State) (c : Nat) (f : Spd → Spd) : (modSpd s c f).chanOwner = s.chanOwner := rfl
@[simp] theorem modSpd_lockOwner (s : State) (c : Nat) (f : Spd → Spd) : (modSpd s c f).lockOwner = s.lockOwner := rfl
@[simp] theorem modSpd_locks (s : State) (c : Nat) (f : Spd → Spd) : (modSpd s c f).locks = s.locks := rfl
@[simp] theorem modSpd_lockReplies (s : State) (c : Nat) (f : Spd → Spd) : (modSpd s c f).lockReplies = s.lockReplies := rfl
@[simp] theorem modSpd_reports (s : State) (c : Nat) (f : Spd → Spd) : (modSpd s c f).reports = s.reports := rfl
@[simp] theorem modSpd_devId (s : State) (c : Nat) (f : Spd → Spd) : (modSpd s c f).devId = s.devId := rfl
@[simp] theorem modSpd_dev (s : State) (c : Nat) (f : Spd → Spd) : (modSpd s c f).dev = s.dev := rfl
@[simp] theorem modSpd_stage (s : State) (c : Nat) (f : Spd → Spd) : (modSpd s c f).stage = s.stage := rfl
@[simp] theorem modSpd_echoM (s : State) (c : Nat) (f : Spd → Spd) : (modSpd s c f).echoM = s.echoM := rfl
@[simp] theorem modSpd_sessions (s : State) (c : Nat) (f : Spd → Spd) : (modSpd s c f).sessions = s.sessions := rfl
@[simp] theorem modSpd_lastSeq (s : State) (c : Nat) (f : Spd → Spd) : (modSpd s c f).lastSeq = s.lastSeq := rfl
@[simp] theorem modSpd_logBuf (s : State) (c : Nat) (f : Spd → Spd) : (modSpd s c f).logBuf = s.logBuf := rfl
@[simp] theorem modSpd_logFlash (s : State) (c : Nat) (f : Spd → Spd) : (modSpd s c f).logFlash = s.logFlash := rfl
@[simp] theorem modSpd_totals (s : State) (c : Nat) (f : Spd → Spd) : (modSpd s c f).totals = s.totals := rfl
@[simp] theorem modSpd_totalsCold (s : State) (c : Nat) (f : Spd → Spd) : (modSpd s c f).totalsCold = s.totalsCold := rfl
@[simp] theorem modSpd_coals (s : State) (c : Nat) (f : Spd → Spd) : (modSpd s c f).coals = s.coals := rfl
@[simp] theorem modSpd_survey (s : State) (c : Nat) (f : Spd → Spd) : (modSpd s c f).survey = s.survey := rfl
@[simp] theorem modSpd_hbms (s : State) (c : Nat) (f : Spd → Spd) : (modSpd s c f).hbms = s.hbms := rfl
@[simp] theorem modSpd_hbmOwner (s : State) (c : Nat) (f : Spd → Spd) : (modSpd s c f).hbmOwner = s.hbmOwner := rfl
@[simp] theorem modSpd_cntUnmapped (s : State) (c : Nat) (f : Spd → Spd) : (modSpd s c f).cntUnmapped = s.cntUnmapped := rfl
@[simp] theorem modSpd_partUnmapped (s : State) (c : Nat) (f : Spd → Spd) : (modSpd s c f).partUnmapped = s.partUnmapped := rfl
@[simp] theorem modSpd_cntDenied (s : State) (c : Nat) (f : Spd → Spd) : (modSpd s c f).cntDenied = s.cntDenied := rfl
@[simp] theorem modSpd_cntSize (s : State) (c : Nat) (f : Spd → Spd) : (modSpd s c f).cntSize = s.cntSize := rfl
@[simp] theorem modSpd_cntMcDepth (s : State) (c : Nat) (f : Spd → Spd) : (modSpd s c f).cntMcDepth = s.cntMcDepth := rfl
@[simp] theorem modSpd_links (s : State) (c : Nat) (f : Spd → Spd) : (modSpd s c f).links = s.links := rfl
@[simp] theorem modSpd_hosts (s : State) (c : Nat) (f : Spd → Spd) : (modSpd s c f).hosts = s.hosts := rfl
@[simp] theorem modSpd_launches (s : State) (c : Nat) (f : Spd → Spd) : (modSpd s c f).launches = s.launches := rfl
@[simp] theorem modSpd_nextOrder (s : State) (c : Nat) (f : Spd → Spd) : (modSpd s c f).nextOrder = s.nextOrder := rfl
@[simp] theorem modSpd_cfg (s : State) (c : Nat) (f : Spd → Spd) : (modSpd s c f).cfg = s.cfg := rfl
@[simp] theorem modSpd_seams (s : State) (c : Nat) (f : Spd → Spd) : (modSpd s c f).seams = s.seams := rfl
@[simp] theorem modSpd_badEntries (s : State) (c : Nat) (f : Spd → Spd) : (modSpd s c f).badEntries = s.badEntries := rfl
@[simp] theorem modSpd_shared (s : State) (c : Nat) (f : Spd → Spd) : (modSpd s c f).shared = s.shared := rfl
@[simp] theorem modSpd_clk (s : State) (c : Nat) (f : Spd → Spd) : (modSpd s c f).clk = s.clk := rfl
@[simp] theorem modSpd_ech (s : State) (c : Nat) (f : Spd → Spd) : (modSpd s c f).ech = s.ech := rfl
@[simp] theorem modSpd_pwr (s : State) (c : Nat) (f : Spd → Spd) : (modSpd s c f).pwr = s.pwr := rfl
@[simp] theorem modSpd_wake (s : State) (c : Nat) (f : Spd → Spd) : (modSpd s c f).wake = s.wake := rfl
@[simp] theorem modSpd_mgmt (s : State) (c : Nat) (f : Spd → Spd) : (modSpd s c f).mgmt = s.mgmt := rfl
@[simp] theorem modSpd_fw (s : State) (c : Nat) (f : Spd → Spd) : (modSpd s c f).fw = s.fw := rfl
@[simp] theorem modQue_pending (s : State) (c : Nat) (f : Que → Que) : (modQue s c f).pending = s.pending := rfl
@[simp] theorem modQue_now (s : State) (c : Nat) (f : Que → Que) : (modQue s c f).now = s.now := rfl
@[simp] theorem modQue_fresh (s : State) (c : Nat) (f : Que → Que) : (modQue s c f).fresh = s.fresh := rfl
@[simp] theorem modQue_out (s : State) (c : Nat) (f : Que → Que) : (modQue s c f).out = s.out := rfl
@[simp] theorem modQue_mem (s : State) (c : Nat) (f : Que → Que) : (modQue s c f).mem = s.mem := rfl
@[simp] theorem modQue_marks (s : State) (c : Nat) (f : Que → Que) : (modQue s c f).marks = s.marks := rfl
@[simp] theorem modQue_rowErrs (s : State) (c : Nat) (f : Que → Que) : (modQue s c f).rowErrs = s.rowErrs := rfl
@[simp] theorem modQue_fields (s : State) (c : Nat) (f : Que → Que) : (modQue s c f).fields = s.fields := rfl
@[simp] theorem modQue_groups (s : State) (c : Nat) (f : Que → Que) : (modQue s c f).groups = s.groups := rfl
@[simp] theorem modQue_parts (s : State) (c : Nat) (f : Que → Que) : (modQue s c f).parts = s.parts := rfl
@[simp] theorem modQue_sends (s : State) (c : Nat) (f : Que → Que) : (modQue s c f).sends = s.sends := rfl
@[simp] theorem modQue_mchans (s : State) (c : Nat) (f : Que → Que) : (modQue s c f).mchans = s.mchans := rfl
@[simp] theorem modQue_chanOwner (s : State) (c : Nat) (f : Que → Que) : (modQue s c f).chanOwner = s.chanOwner := rfl
@[simp] theorem modQue_lockOwner (s : State) (c : Nat) (f : Que → Que) : (modQue s c f).lockOwner = s.lockOwner := rfl
@[simp] theorem modQue_locks (s : State) (c : Nat) (f : Que → Que) : (modQue s c f).locks = s.locks := rfl
@[simp] theorem modQue_lockReplies (s : State) (c : Nat) (f : Que → Que) : (modQue s c f).lockReplies = s.lockReplies := rfl
@[simp] theorem modQue_reports (s : State) (c : Nat) (f : Que → Que) : (modQue s c f).reports = s.reports := rfl
@[simp] theorem modQue_devId (s : State) (c : Nat) (f : Que → Que) : (modQue s c f).devId = s.devId := rfl
@[simp] theorem modQue_dev (s : State) (c : Nat) (f : Que → Que) : (modQue s c f).dev = s.dev := rfl
@[simp] theorem modQue_stage (s : State) (c : Nat) (f : Que → Que) : (modQue s c f).stage = s.stage := rfl
@[simp] theorem modQue_echoM (s : State) (c : Nat) (f : Que → Que) : (modQue s c f).echoM = s.echoM := rfl
@[simp] theorem modQue_sessions (s : State) (c : Nat) (f : Que → Que) : (modQue s c f).sessions = s.sessions := rfl
@[simp] theorem modQue_lastSeq (s : State) (c : Nat) (f : Que → Que) : (modQue s c f).lastSeq = s.lastSeq := rfl
@[simp] theorem modQue_logBuf (s : State) (c : Nat) (f : Que → Que) : (modQue s c f).logBuf = s.logBuf := rfl
@[simp] theorem modQue_logFlash (s : State) (c : Nat) (f : Que → Que) : (modQue s c f).logFlash = s.logFlash := rfl
@[simp] theorem modQue_totals (s : State) (c : Nat) (f : Que → Que) : (modQue s c f).totals = s.totals := rfl
@[simp] theorem modQue_totalsCold (s : State) (c : Nat) (f : Que → Que) : (modQue s c f).totalsCold = s.totalsCold := rfl
@[simp] theorem modQue_coals (s : State) (c : Nat) (f : Que → Que) : (modQue s c f).coals = s.coals := rfl
@[simp] theorem modQue_survey (s : State) (c : Nat) (f : Que → Que) : (modQue s c f).survey = s.survey := rfl
@[simp] theorem modQue_hbms (s : State) (c : Nat) (f : Que → Que) : (modQue s c f).hbms = s.hbms := rfl
@[simp] theorem modQue_hbmOwner (s : State) (c : Nat) (f : Que → Que) : (modQue s c f).hbmOwner = s.hbmOwner := rfl
@[simp] theorem modQue_cntUnmapped (s : State) (c : Nat) (f : Que → Que) : (modQue s c f).cntUnmapped = s.cntUnmapped := rfl
@[simp] theorem modQue_partUnmapped (s : State) (c : Nat) (f : Que → Que) : (modQue s c f).partUnmapped = s.partUnmapped := rfl
@[simp] theorem modQue_cntDenied (s : State) (c : Nat) (f : Que → Que) : (modQue s c f).cntDenied = s.cntDenied := rfl
@[simp] theorem modQue_cntSize (s : State) (c : Nat) (f : Que → Que) : (modQue s c f).cntSize = s.cntSize := rfl
@[simp] theorem modQue_cntMcDepth (s : State) (c : Nat) (f : Que → Que) : (modQue s c f).cntMcDepth = s.cntMcDepth := rfl
@[simp] theorem modQue_links (s : State) (c : Nat) (f : Que → Que) : (modQue s c f).links = s.links := rfl
@[simp] theorem modQue_hosts (s : State) (c : Nat) (f : Que → Que) : (modQue s c f).hosts = s.hosts := rfl
@[simp] theorem modQue_launches (s : State) (c : Nat) (f : Que → Que) : (modQue s c f).launches = s.launches := rfl
@[simp] theorem modQue_nextOrder (s : State) (c : Nat) (f : Que → Que) : (modQue s c f).nextOrder = s.nextOrder := rfl
@[simp] theorem modQue_cfg (s : State) (c : Nat) (f : Que → Que) : (modQue s c f).cfg = s.cfg := rfl
@[simp] theorem modQue_seams (s : State) (c : Nat) (f : Que → Que) : (modQue s c f).seams = s.seams := rfl
@[simp] theorem modQue_badEntries (s : State) (c : Nat) (f : Que → Que) : (modQue s c f).badEntries = s.badEntries := rfl
@[simp] theorem modQue_shared (s : State) (c : Nat) (f : Que → Que) : (modQue s c f).shared = s.shared := rfl
@[simp] theorem modQue_clk (s : State) (c : Nat) (f : Que → Que) : (modQue s c f).clk = s.clk := rfl
@[simp] theorem modQue_ech (s : State) (c : Nat) (f : Que → Que) : (modQue s c f).ech = s.ech := rfl
@[simp] theorem modQue_pwr (s : State) (c : Nat) (f : Que → Que) : (modQue s c f).pwr = s.pwr := rfl
@[simp] theorem modQue_wake (s : State) (c : Nat) (f : Que → Que) : (modQue s c f).wake = s.wake := rfl
@[simp] theorem modQue_mgmt (s : State) (c : Nat) (f : Que → Que) : (modQue s c f).mgmt = s.mgmt := rfl
@[simp] theorem modQue_fw (s : State) (c : Nat) (f : Que → Que) : (modQue s c f).fw = s.fw := rfl
@[simp] theorem modDma_pending (s : State) (c e : Nat) (f : DmaEng → DmaEng) : (modDma s c e f).pending = s.pending := rfl
@[simp] theorem modDma_now (s : State) (c e : Nat) (f : DmaEng → DmaEng) : (modDma s c e f).now = s.now := rfl
@[simp] theorem modDma_fresh (s : State) (c e : Nat) (f : DmaEng → DmaEng) : (modDma s c e f).fresh = s.fresh := rfl
@[simp] theorem modDma_out (s : State) (c e : Nat) (f : DmaEng → DmaEng) : (modDma s c e f).out = s.out := rfl
@[simp] theorem modDma_mem (s : State) (c e : Nat) (f : DmaEng → DmaEng) : (modDma s c e f).mem = s.mem := rfl
@[simp] theorem modDma_marks (s : State) (c e : Nat) (f : DmaEng → DmaEng) : (modDma s c e f).marks = s.marks := rfl
@[simp] theorem modDma_rowErrs (s : State) (c e : Nat) (f : DmaEng → DmaEng) : (modDma s c e f).rowErrs = s.rowErrs := rfl
@[simp] theorem modDma_fields (s : State) (c e : Nat) (f : DmaEng → DmaEng) : (modDma s c e f).fields = s.fields := rfl
@[simp] theorem modDma_groups (s : State) (c e : Nat) (f : DmaEng → DmaEng) : (modDma s c e f).groups = s.groups := rfl
@[simp] theorem modDma_parts (s : State) (c e : Nat) (f : DmaEng → DmaEng) : (modDma s c e f).parts = s.parts := rfl
@[simp] theorem modDma_sends (s : State) (c e : Nat) (f : DmaEng → DmaEng) : (modDma s c e f).sends = s.sends := rfl
@[simp] theorem modDma_mchans (s : State) (c e : Nat) (f : DmaEng → DmaEng) : (modDma s c e f).mchans = s.mchans := rfl
@[simp] theorem modDma_chanOwner (s : State) (c e : Nat) (f : DmaEng → DmaEng) : (modDma s c e f).chanOwner = s.chanOwner := rfl
@[simp] theorem modDma_lockOwner (s : State) (c e : Nat) (f : DmaEng → DmaEng) : (modDma s c e f).lockOwner = s.lockOwner := rfl
@[simp] theorem modDma_locks (s : State) (c e : Nat) (f : DmaEng → DmaEng) : (modDma s c e f).locks = s.locks := rfl
@[simp] theorem modDma_lockReplies (s : State) (c e : Nat) (f : DmaEng → DmaEng) : (modDma s c e f).lockReplies = s.lockReplies := rfl
@[simp] theorem modDma_reports (s : State) (c e : Nat) (f : DmaEng → DmaEng) : (modDma s c e f).reports = s.reports := rfl
@[simp] theorem modDma_devId (s : State) (c e : Nat) (f : DmaEng → DmaEng) : (modDma s c e f).devId = s.devId := rfl
@[simp] theorem modDma_dev (s : State) (c e : Nat) (f : DmaEng → DmaEng) : (modDma s c e f).dev = s.dev := rfl
@[simp] theorem modDma_stage (s : State) (c e : Nat) (f : DmaEng → DmaEng) : (modDma s c e f).stage = s.stage := rfl
@[simp] theorem modDma_echoM (s : State) (c e : Nat) (f : DmaEng → DmaEng) : (modDma s c e f).echoM = s.echoM := rfl
@[simp] theorem modDma_sessions (s : State) (c e : Nat) (f : DmaEng → DmaEng) : (modDma s c e f).sessions = s.sessions := rfl
@[simp] theorem modDma_lastSeq (s : State) (c e : Nat) (f : DmaEng → DmaEng) : (modDma s c e f).lastSeq = s.lastSeq := rfl
@[simp] theorem modDma_logBuf (s : State) (c e : Nat) (f : DmaEng → DmaEng) : (modDma s c e f).logBuf = s.logBuf := rfl
@[simp] theorem modDma_logFlash (s : State) (c e : Nat) (f : DmaEng → DmaEng) : (modDma s c e f).logFlash = s.logFlash := rfl
@[simp] theorem modDma_totals (s : State) (c e : Nat) (f : DmaEng → DmaEng) : (modDma s c e f).totals = s.totals := rfl
@[simp] theorem modDma_totalsCold (s : State) (c e : Nat) (f : DmaEng → DmaEng) : (modDma s c e f).totalsCold = s.totalsCold := rfl
@[simp] theorem modDma_coals (s : State) (c e : Nat) (f : DmaEng → DmaEng) : (modDma s c e f).coals = s.coals := rfl
@[simp] theorem modDma_survey (s : State) (c e : Nat) (f : DmaEng → DmaEng) : (modDma s c e f).survey = s.survey := rfl
@[simp] theorem modDma_hbms (s : State) (c e : Nat) (f : DmaEng → DmaEng) : (modDma s c e f).hbms = s.hbms := rfl
@[simp] theorem modDma_hbmOwner (s : State) (c e : Nat) (f : DmaEng → DmaEng) : (modDma s c e f).hbmOwner = s.hbmOwner := rfl
@[simp] theorem modDma_cntUnmapped (s : State) (c e : Nat) (f : DmaEng → DmaEng) : (modDma s c e f).cntUnmapped = s.cntUnmapped := rfl
@[simp] theorem modDma_partUnmapped (s : State) (c e : Nat) (f : DmaEng → DmaEng) : (modDma s c e f).partUnmapped = s.partUnmapped := rfl
@[simp] theorem modDma_cntDenied (s : State) (c e : Nat) (f : DmaEng → DmaEng) : (modDma s c e f).cntDenied = s.cntDenied := rfl
@[simp] theorem modDma_cntSize (s : State) (c e : Nat) (f : DmaEng → DmaEng) : (modDma s c e f).cntSize = s.cntSize := rfl
@[simp] theorem modDma_cntMcDepth (s : State) (c e : Nat) (f : DmaEng → DmaEng) : (modDma s c e f).cntMcDepth = s.cntMcDepth := rfl
@[simp] theorem modDma_links (s : State) (c e : Nat) (f : DmaEng → DmaEng) : (modDma s c e f).links = s.links := rfl
@[simp] theorem modDma_hosts (s : State) (c e : Nat) (f : DmaEng → DmaEng) : (modDma s c e f).hosts = s.hosts := rfl
@[simp] theorem modDma_launches (s : State) (c e : Nat) (f : DmaEng → DmaEng) : (modDma s c e f).launches = s.launches := rfl
@[simp] theorem modDma_nextOrder (s : State) (c e : Nat) (f : DmaEng → DmaEng) : (modDma s c e f).nextOrder = s.nextOrder := rfl
@[simp] theorem modDma_cfg (s : State) (c e : Nat) (f : DmaEng → DmaEng) : (modDma s c e f).cfg = s.cfg := rfl
@[simp] theorem modDma_seams (s : State) (c e : Nat) (f : DmaEng → DmaEng) : (modDma s c e f).seams = s.seams := rfl
@[simp] theorem modDma_badEntries (s : State) (c e : Nat) (f : DmaEng → DmaEng) : (modDma s c e f).badEntries = s.badEntries := rfl
@[simp] theorem modDma_shared (s : State) (c e : Nat) (f : DmaEng → DmaEng) : (modDma s c e f).shared = s.shared := rfl
@[simp] theorem modDma_clk (s : State) (c e : Nat) (f : DmaEng → DmaEng) : (modDma s c e f).clk = s.clk := rfl
@[simp] theorem modDma_ech (s : State) (c e : Nat) (f : DmaEng → DmaEng) : (modDma s c e f).ech = s.ech := rfl
@[simp] theorem modDma_pwr (s : State) (c e : Nat) (f : DmaEng → DmaEng) : (modDma s c e f).pwr = s.pwr := rfl
@[simp] theorem modDma_wake (s : State) (c e : Nat) (f : DmaEng → DmaEng) : (modDma s c e f).wake = s.wake := rfl
@[simp] theorem modDma_mgmt (s : State) (c e : Nat) (f : DmaEng → DmaEng) : (modDma s c e f).mgmt = s.mgmt := rfl
@[simp] theorem modDma_fw (s : State) (c e : Nat) (f : DmaEng → DmaEng) : (modDma s c e f).fw = s.fw := rfl
@[simp] theorem modQ_pending (s : State) (c q : Nat) (f : Queue → Queue) : (modQ s c q f).pending = s.pending := rfl
@[simp] theorem modQ_now (s : State) (c q : Nat) (f : Queue → Queue) : (modQ s c q f).now = s.now := rfl
@[simp] theorem modQ_fresh (s : State) (c q : Nat) (f : Queue → Queue) : (modQ s c q f).fresh = s.fresh := rfl
@[simp] theorem modQ_out (s : State) (c q : Nat) (f : Queue → Queue) : (modQ s c q f).out = s.out := rfl
@[simp] theorem modQ_mem (s : State) (c q : Nat) (f : Queue → Queue) : (modQ s c q f).mem = s.mem := rfl
@[simp] theorem modQ_marks (s : State) (c q : Nat) (f : Queue → Queue) : (modQ s c q f).marks = s.marks := rfl
@[simp] theorem modQ_rowErrs (s : State) (c q : Nat) (f : Queue → Queue) : (modQ s c q f).rowErrs = s.rowErrs := rfl
@[simp] theorem modQ_fields (s : State) (c q : Nat) (f : Queue → Queue) : (modQ s c q f).fields = s.fields := rfl
@[simp] theorem modQ_groups (s : State) (c q : Nat) (f : Queue → Queue) : (modQ s c q f).groups = s.groups := rfl
@[simp] theorem modQ_parts (s : State) (c q : Nat) (f : Queue → Queue) : (modQ s c q f).parts = s.parts := rfl
@[simp] theorem modQ_sends (s : State) (c q : Nat) (f : Queue → Queue) : (modQ s c q f).sends = s.sends := rfl
@[simp] theorem modQ_mchans (s : State) (c q : Nat) (f : Queue → Queue) : (modQ s c q f).mchans = s.mchans := rfl
@[simp] theorem modQ_chanOwner (s : State) (c q : Nat) (f : Queue → Queue) : (modQ s c q f).chanOwner = s.chanOwner := rfl
@[simp] theorem modQ_lockOwner (s : State) (c q : Nat) (f : Queue → Queue) : (modQ s c q f).lockOwner = s.lockOwner := rfl
@[simp] theorem modQ_locks (s : State) (c q : Nat) (f : Queue → Queue) : (modQ s c q f).locks = s.locks := rfl
@[simp] theorem modQ_lockReplies (s : State) (c q : Nat) (f : Queue → Queue) : (modQ s c q f).lockReplies = s.lockReplies := rfl
@[simp] theorem modQ_reports (s : State) (c q : Nat) (f : Queue → Queue) : (modQ s c q f).reports = s.reports := rfl
@[simp] theorem modQ_devId (s : State) (c q : Nat) (f : Queue → Queue) : (modQ s c q f).devId = s.devId := rfl
@[simp] theorem modQ_dev (s : State) (c q : Nat) (f : Queue → Queue) : (modQ s c q f).dev = s.dev := rfl
@[simp] theorem modQ_stage (s : State) (c q : Nat) (f : Queue → Queue) : (modQ s c q f).stage = s.stage := rfl
@[simp] theorem modQ_echoM (s : State) (c q : Nat) (f : Queue → Queue) : (modQ s c q f).echoM = s.echoM := rfl
@[simp] theorem modQ_sessions (s : State) (c q : Nat) (f : Queue → Queue) : (modQ s c q f).sessions = s.sessions := rfl
@[simp] theorem modQ_lastSeq (s : State) (c q : Nat) (f : Queue → Queue) : (modQ s c q f).lastSeq = s.lastSeq := rfl
@[simp] theorem modQ_logBuf (s : State) (c q : Nat) (f : Queue → Queue) : (modQ s c q f).logBuf = s.logBuf := rfl
@[simp] theorem modQ_logFlash (s : State) (c q : Nat) (f : Queue → Queue) : (modQ s c q f).logFlash = s.logFlash := rfl
@[simp] theorem modQ_totals (s : State) (c q : Nat) (f : Queue → Queue) : (modQ s c q f).totals = s.totals := rfl
@[simp] theorem modQ_totalsCold (s : State) (c q : Nat) (f : Queue → Queue) : (modQ s c q f).totalsCold = s.totalsCold := rfl
@[simp] theorem modQ_coals (s : State) (c q : Nat) (f : Queue → Queue) : (modQ s c q f).coals = s.coals := rfl
@[simp] theorem modQ_survey (s : State) (c q : Nat) (f : Queue → Queue) : (modQ s c q f).survey = s.survey := rfl
@[simp] theorem modQ_hbms (s : State) (c q : Nat) (f : Queue → Queue) : (modQ s c q f).hbms = s.hbms := rfl
@[simp] theorem modQ_hbmOwner (s : State) (c q : Nat) (f : Queue → Queue) : (modQ s c q f).hbmOwner = s.hbmOwner := rfl
@[simp] theorem modQ_cntUnmapped (s : State) (c q : Nat) (f : Queue → Queue) : (modQ s c q f).cntUnmapped = s.cntUnmapped := rfl
@[simp] theorem modQ_partUnmapped (s : State) (c q : Nat) (f : Queue → Queue) : (modQ s c q f).partUnmapped = s.partUnmapped := rfl
@[simp] theorem modQ_cntDenied (s : State) (c q : Nat) (f : Queue → Queue) : (modQ s c q f).cntDenied = s.cntDenied := rfl
@[simp] theorem modQ_cntSize (s : State) (c q : Nat) (f : Queue → Queue) : (modQ s c q f).cntSize = s.cntSize := rfl
@[simp] theorem modQ_cntMcDepth (s : State) (c q : Nat) (f : Queue → Queue) : (modQ s c q f).cntMcDepth = s.cntMcDepth := rfl
@[simp] theorem modQ_links (s : State) (c q : Nat) (f : Queue → Queue) : (modQ s c q f).links = s.links := rfl
@[simp] theorem modQ_hosts (s : State) (c q : Nat) (f : Queue → Queue) : (modQ s c q f).hosts = s.hosts := rfl
@[simp] theorem modQ_launches (s : State) (c q : Nat) (f : Queue → Queue) : (modQ s c q f).launches = s.launches := rfl
@[simp] theorem modQ_nextOrder (s : State) (c q : Nat) (f : Queue → Queue) : (modQ s c q f).nextOrder = s.nextOrder := rfl
@[simp] theorem modQ_cfg (s : State) (c q : Nat) (f : Queue → Queue) : (modQ s c q f).cfg = s.cfg := rfl
@[simp] theorem modQ_seams (s : State) (c q : Nat) (f : Queue → Queue) : (modQ s c q f).seams = s.seams := rfl
@[simp] theorem modQ_badEntries (s : State) (c q : Nat) (f : Queue → Queue) : (modQ s c q f).badEntries = s.badEntries := rfl
@[simp] theorem modQ_shared (s : State) (c q : Nat) (f : Queue → Queue) : (modQ s c q f).shared = s.shared := rfl
@[simp] theorem modQ_clk (s : State) (c q : Nat) (f : Queue → Queue) : (modQ s c q f).clk = s.clk := rfl
@[simp] theorem modQ_ech (s : State) (c q : Nat) (f : Queue → Queue) : (modQ s c q f).ech = s.ech := rfl
@[simp] theorem modQ_pwr (s : State) (c q : Nat) (f : Queue → Queue) : (modQ s c q f).pwr = s.pwr := rfl
@[simp] theorem modQ_wake (s : State) (c q : Nat) (f : Queue → Queue) : (modQ s c q f).wake = s.wake := rfl
@[simp] theorem modQ_mgmt (s : State) (c q : Nat) (f : Queue → Queue) : (modQ s c q f).mgmt = s.mgmt := rfl
@[simp] theorem modQ_fw (s : State) (c q : Nat) (f : Queue → Queue) : (modQ s c q f).fw = s.fw := rfl
@[simp] theorem modField_pending (s : State) (n : Nat) (f : Field → Field) : (modField s n f).pending = s.pending := rfl
@[simp] theorem modField_now (s : State) (n : Nat) (f : Field → Field) : (modField s n f).now = s.now := rfl
@[simp] theorem modField_fresh (s : State) (n : Nat) (f : Field → Field) : (modField s n f).fresh = s.fresh := rfl
@[simp] theorem modField_out (s : State) (n : Nat) (f : Field → Field) : (modField s n f).out = s.out := rfl
@[simp] theorem modField_mem (s : State) (n : Nat) (f : Field → Field) : (modField s n f).mem = s.mem := rfl
@[simp] theorem modField_marks (s : State) (n : Nat) (f : Field → Field) : (modField s n f).marks = s.marks := rfl
@[simp] theorem modField_rowErrs (s : State) (n : Nat) (f : Field → Field) : (modField s n f).rowErrs = s.rowErrs := rfl
@[simp] theorem modField_cores (s : State) (n : Nat) (f : Field → Field) : (modField s n f).cores = s.cores := rfl
@[simp] theorem modField_groups (s : State) (n : Nat) (f : Field → Field) : (modField s n f).groups = s.groups := rfl
@[simp] theorem modField_parts (s : State) (n : Nat) (f : Field → Field) : (modField s n f).parts = s.parts := rfl
@[simp] theorem modField_sends (s : State) (n : Nat) (f : Field → Field) : (modField s n f).sends = s.sends := rfl
@[simp] theorem modField_mchans (s : State) (n : Nat) (f : Field → Field) : (modField s n f).mchans = s.mchans := rfl
@[simp] theorem modField_chanOwner (s : State) (n : Nat) (f : Field → Field) : (modField s n f).chanOwner = s.chanOwner := rfl
@[simp] theorem modField_lockOwner (s : State) (n : Nat) (f : Field → Field) : (modField s n f).lockOwner = s.lockOwner := rfl
@[simp] theorem modField_locks (s : State) (n : Nat) (f : Field → Field) : (modField s n f).locks = s.locks := rfl
@[simp] theorem modField_lockReplies (s : State) (n : Nat) (f : Field → Field) : (modField s n f).lockReplies = s.lockReplies := rfl
@[simp] theorem modField_reports (s : State) (n : Nat) (f : Field → Field) : (modField s n f).reports = s.reports := rfl
@[simp] theorem modField_devId (s : State) (n : Nat) (f : Field → Field) : (modField s n f).devId = s.devId := rfl
@[simp] theorem modField_dev (s : State) (n : Nat) (f : Field → Field) : (modField s n f).dev = s.dev := rfl
@[simp] theorem modField_stage (s : State) (n : Nat) (f : Field → Field) : (modField s n f).stage = s.stage := rfl
@[simp] theorem modField_echoM (s : State) (n : Nat) (f : Field → Field) : (modField s n f).echoM = s.echoM := rfl
@[simp] theorem modField_sessions (s : State) (n : Nat) (f : Field → Field) : (modField s n f).sessions = s.sessions := rfl
@[simp] theorem modField_lastSeq (s : State) (n : Nat) (f : Field → Field) : (modField s n f).lastSeq = s.lastSeq := rfl
@[simp] theorem modField_logBuf (s : State) (n : Nat) (f : Field → Field) : (modField s n f).logBuf = s.logBuf := rfl
@[simp] theorem modField_logFlash (s : State) (n : Nat) (f : Field → Field) : (modField s n f).logFlash = s.logFlash := rfl
@[simp] theorem modField_totals (s : State) (n : Nat) (f : Field → Field) : (modField s n f).totals = s.totals := rfl
@[simp] theorem modField_totalsCold (s : State) (n : Nat) (f : Field → Field) : (modField s n f).totalsCold = s.totalsCold := rfl
@[simp] theorem modField_coals (s : State) (n : Nat) (f : Field → Field) : (modField s n f).coals = s.coals := rfl
@[simp] theorem modField_survey (s : State) (n : Nat) (f : Field → Field) : (modField s n f).survey = s.survey := rfl
@[simp] theorem modField_hbms (s : State) (n : Nat) (f : Field → Field) : (modField s n f).hbms = s.hbms := rfl
@[simp] theorem modField_hbmOwner (s : State) (n : Nat) (f : Field → Field) : (modField s n f).hbmOwner = s.hbmOwner := rfl
@[simp] theorem modField_cntUnmapped (s : State) (n : Nat) (f : Field → Field) : (modField s n f).cntUnmapped = s.cntUnmapped := rfl
@[simp] theorem modField_partUnmapped (s : State) (n : Nat) (f : Field → Field) : (modField s n f).partUnmapped = s.partUnmapped := rfl
@[simp] theorem modField_cntDenied (s : State) (n : Nat) (f : Field → Field) : (modField s n f).cntDenied = s.cntDenied := rfl
@[simp] theorem modField_cntSize (s : State) (n : Nat) (f : Field → Field) : (modField s n f).cntSize = s.cntSize := rfl
@[simp] theorem modField_cntMcDepth (s : State) (n : Nat) (f : Field → Field) : (modField s n f).cntMcDepth = s.cntMcDepth := rfl
@[simp] theorem modField_links (s : State) (n : Nat) (f : Field → Field) : (modField s n f).links = s.links := rfl
@[simp] theorem modField_hosts (s : State) (n : Nat) (f : Field → Field) : (modField s n f).hosts = s.hosts := rfl
@[simp] theorem modField_launches (s : State) (n : Nat) (f : Field → Field) : (modField s n f).launches = s.launches := rfl
@[simp] theorem modField_nextOrder (s : State) (n : Nat) (f : Field → Field) : (modField s n f).nextOrder = s.nextOrder := rfl
@[simp] theorem modField_cfg (s : State) (n : Nat) (f : Field → Field) : (modField s n f).cfg = s.cfg := rfl
@[simp] theorem modField_seams (s : State) (n : Nat) (f : Field → Field) : (modField s n f).seams = s.seams := rfl
@[simp] theorem modField_badEntries (s : State) (n : Nat) (f : Field → Field) : (modField s n f).badEntries = s.badEntries := rfl
@[simp] theorem modField_shared (s : State) (n : Nat) (f : Field → Field) : (modField s n f).shared = s.shared := rfl
@[simp] theorem modField_clk (s : State) (n : Nat) (f : Field → Field) : (modField s n f).clk = s.clk := rfl
@[simp] theorem modField_ech (s : State) (n : Nat) (f : Field → Field) : (modField s n f).ech = s.ech := rfl
@[simp] theorem modField_pwr (s : State) (n : Nat) (f : Field → Field) : (modField s n f).pwr = s.pwr := rfl
@[simp] theorem modField_wake (s : State) (n : Nat) (f : Field → Field) : (modField s n f).wake = s.wake := rfl
@[simp] theorem modField_mgmt (s : State) (n : Nat) (f : Field → Field) : (modField s n f).mgmt = s.mgmt := rfl
@[simp] theorem modField_fw (s : State) (n : Nat) (f : Field → Field) : (modField s n f).fw = s.fw := rfl
@[simp] theorem modGrp_pending (s : State) (g : Nat) (f : Group → Group) : (modGrp s g f).pending = s.pending := rfl
@[simp] theorem modGrp_now (s : State) (g : Nat) (f : Group → Group) : (modGrp s g f).now = s.now := rfl
@[simp] theorem modGrp_fresh (s : State) (g : Nat) (f : Group → Group) : (modGrp s g f).fresh = s.fresh := rfl
@[simp] theorem modGrp_out (s : State) (g : Nat) (f : Group → Group) : (modGrp s g f).out = s.out := rfl
@[simp] theorem modGrp_mem (s : State) (g : Nat) (f : Group → Group) : (modGrp s g f).mem = s.mem := rfl
@[simp] theorem modGrp_marks (s : State) (g : Nat) (f : Group → Group) : (modGrp s g f).marks = s.marks := rfl
@[simp] theorem modGrp_rowErrs (s : State) (g : Nat) (f : Group → Group) : (modGrp s g f).rowErrs = s.rowErrs := rfl
@[simp] theorem modGrp_cores (s : State) (g : Nat) (f : Group → Group) : (modGrp s g f).cores = s.cores := rfl
@[simp] theorem modGrp_fields (s : State) (g : Nat) (f : Group → Group) : (modGrp s g f).fields = s.fields := rfl
@[simp] theorem modGrp_parts (s : State) (g : Nat) (f : Group → Group) : (modGrp s g f).parts = s.parts := rfl
@[simp] theorem modGrp_sends (s : State) (g : Nat) (f : Group → Group) : (modGrp s g f).sends = s.sends := rfl
@[simp] theorem modGrp_mchans (s : State) (g : Nat) (f : Group → Group) : (modGrp s g f).mchans = s.mchans := rfl
@[simp] theorem modGrp_chanOwner (s : State) (g : Nat) (f : Group → Group) : (modGrp s g f).chanOwner = s.chanOwner := rfl
@[simp] theorem modGrp_lockOwner (s : State) (g : Nat) (f : Group → Group) : (modGrp s g f).lockOwner = s.lockOwner := rfl
@[simp] theorem modGrp_locks (s : State) (g : Nat) (f : Group → Group) : (modGrp s g f).locks = s.locks := rfl
@[simp] theorem modGrp_lockReplies (s : State) (g : Nat) (f : Group → Group) : (modGrp s g f).lockReplies = s.lockReplies := rfl
@[simp] theorem modGrp_reports (s : State) (g : Nat) (f : Group → Group) : (modGrp s g f).reports = s.reports := rfl
@[simp] theorem modGrp_devId (s : State) (g : Nat) (f : Group → Group) : (modGrp s g f).devId = s.devId := rfl
@[simp] theorem modGrp_dev (s : State) (g : Nat) (f : Group → Group) : (modGrp s g f).dev = s.dev := rfl
@[simp] theorem modGrp_stage (s : State) (g : Nat) (f : Group → Group) : (modGrp s g f).stage = s.stage := rfl
@[simp] theorem modGrp_echoM (s : State) (g : Nat) (f : Group → Group) : (modGrp s g f).echoM = s.echoM := rfl
@[simp] theorem modGrp_sessions (s : State) (g : Nat) (f : Group → Group) : (modGrp s g f).sessions = s.sessions := rfl
@[simp] theorem modGrp_lastSeq (s : State) (g : Nat) (f : Group → Group) : (modGrp s g f).lastSeq = s.lastSeq := rfl
@[simp] theorem modGrp_logBuf (s : State) (g : Nat) (f : Group → Group) : (modGrp s g f).logBuf = s.logBuf := rfl
@[simp] theorem modGrp_logFlash (s : State) (g : Nat) (f : Group → Group) : (modGrp s g f).logFlash = s.logFlash := rfl
@[simp] theorem modGrp_totals (s : State) (g : Nat) (f : Group → Group) : (modGrp s g f).totals = s.totals := rfl
@[simp] theorem modGrp_totalsCold (s : State) (g : Nat) (f : Group → Group) : (modGrp s g f).totalsCold = s.totalsCold := rfl
@[simp] theorem modGrp_coals (s : State) (g : Nat) (f : Group → Group) : (modGrp s g f).coals = s.coals := rfl
@[simp] theorem modGrp_survey (s : State) (g : Nat) (f : Group → Group) : (modGrp s g f).survey = s.survey := rfl
@[simp] theorem modGrp_hbms (s : State) (g : Nat) (f : Group → Group) : (modGrp s g f).hbms = s.hbms := rfl
@[simp] theorem modGrp_hbmOwner (s : State) (g : Nat) (f : Group → Group) : (modGrp s g f).hbmOwner = s.hbmOwner := rfl
@[simp] theorem modGrp_cntUnmapped (s : State) (g : Nat) (f : Group → Group) : (modGrp s g f).cntUnmapped = s.cntUnmapped := rfl
@[simp] theorem modGrp_partUnmapped (s : State) (g : Nat) (f : Group → Group) : (modGrp s g f).partUnmapped = s.partUnmapped := rfl
@[simp] theorem modGrp_cntDenied (s : State) (g : Nat) (f : Group → Group) : (modGrp s g f).cntDenied = s.cntDenied := rfl
@[simp] theorem modGrp_cntSize (s : State) (g : Nat) (f : Group → Group) : (modGrp s g f).cntSize = s.cntSize := rfl
@[simp] theorem modGrp_cntMcDepth (s : State) (g : Nat) (f : Group → Group) : (modGrp s g f).cntMcDepth = s.cntMcDepth := rfl
@[simp] theorem modGrp_links (s : State) (g : Nat) (f : Group → Group) : (modGrp s g f).links = s.links := rfl
@[simp] theorem modGrp_hosts (s : State) (g : Nat) (f : Group → Group) : (modGrp s g f).hosts = s.hosts := rfl
@[simp] theorem modGrp_launches (s : State) (g : Nat) (f : Group → Group) : (modGrp s g f).launches = s.launches := rfl
@[simp] theorem modGrp_nextOrder (s : State) (g : Nat) (f : Group → Group) : (modGrp s g f).nextOrder = s.nextOrder := rfl
@[simp] theorem modGrp_cfg (s : State) (g : Nat) (f : Group → Group) : (modGrp s g f).cfg = s.cfg := rfl
@[simp] theorem modGrp_seams (s : State) (g : Nat) (f : Group → Group) : (modGrp s g f).seams = s.seams := rfl
@[simp] theorem modGrp_badEntries (s : State) (g : Nat) (f : Group → Group) : (modGrp s g f).badEntries = s.badEntries := rfl
@[simp] theorem modGrp_shared (s : State) (g : Nat) (f : Group → Group) : (modGrp s g f).shared = s.shared := rfl
@[simp] theorem modGrp_clk (s : State) (g : Nat) (f : Group → Group) : (modGrp s g f).clk = s.clk := rfl
@[simp] theorem modGrp_ech (s : State) (g : Nat) (f : Group → Group) : (modGrp s g f).ech = s.ech := rfl
@[simp] theorem modGrp_pwr (s : State) (g : Nat) (f : Group → Group) : (modGrp s g f).pwr = s.pwr := rfl
@[simp] theorem modGrp_wake (s : State) (g : Nat) (f : Group → Group) : (modGrp s g f).wake = s.wake := rfl
@[simp] theorem modGrp_mgmt (s : State) (g : Nat) (f : Group → Group) : (modGrp s g f).mgmt = s.mgmt := rfl
@[simp] theorem modGrp_fw (s : State) (g : Nat) (f : Group → Group) : (modGrp s g f).fw = s.fw := rfl
@[simp] theorem modPart_pending (s : State) (p : Nat) (f : Part → Part) : (modPart s p f).pending = s.pending := rfl
@[simp] theorem modPart_now (s : State) (p : Nat) (f : Part → Part) : (modPart s p f).now = s.now := rfl
@[simp] theorem modPart_fresh (s : State) (p : Nat) (f : Part → Part) : (modPart s p f).fresh = s.fresh := rfl
@[simp] theorem modPart_out (s : State) (p : Nat) (f : Part → Part) : (modPart s p f).out = s.out := rfl
@[simp] theorem modPart_mem (s : State) (p : Nat) (f : Part → Part) : (modPart s p f).mem = s.mem := rfl
@[simp] theorem modPart_marks (s : State) (p : Nat) (f : Part → Part) : (modPart s p f).marks = s.marks := rfl
@[simp] theorem modPart_rowErrs (s : State) (p : Nat) (f : Part → Part) : (modPart s p f).rowErrs = s.rowErrs := rfl
@[simp] theorem modPart_cores (s : State) (p : Nat) (f : Part → Part) : (modPart s p f).cores = s.cores := rfl
@[simp] theorem modPart_fields (s : State) (p : Nat) (f : Part → Part) : (modPart s p f).fields = s.fields := rfl
@[simp] theorem modPart_groups (s : State) (p : Nat) (f : Part → Part) : (modPart s p f).groups = s.groups := rfl
@[simp] theorem modPart_sends (s : State) (p : Nat) (f : Part → Part) : (modPart s p f).sends = s.sends := rfl
@[simp] theorem modPart_mchans (s : State) (p : Nat) (f : Part → Part) : (modPart s p f).mchans = s.mchans := rfl
@[simp] theorem modPart_chanOwner (s : State) (p : Nat) (f : Part → Part) : (modPart s p f).chanOwner = s.chanOwner := rfl
@[simp] theorem modPart_lockOwner (s : State) (p : Nat) (f : Part → Part) : (modPart s p f).lockOwner = s.lockOwner := rfl
@[simp] theorem modPart_locks (s : State) (p : Nat) (f : Part → Part) : (modPart s p f).locks = s.locks := rfl
@[simp] theorem modPart_lockReplies (s : State) (p : Nat) (f : Part → Part) : (modPart s p f).lockReplies = s.lockReplies := rfl
@[simp] theorem modPart_reports (s : State) (p : Nat) (f : Part → Part) : (modPart s p f).reports = s.reports := rfl
@[simp] theorem modPart_devId (s : State) (p : Nat) (f : Part → Part) : (modPart s p f).devId = s.devId := rfl
@[simp] theorem modPart_dev (s : State) (p : Nat) (f : Part → Part) : (modPart s p f).dev = s.dev := rfl
@[simp] theorem modPart_stage (s : State) (p : Nat) (f : Part → Part) : (modPart s p f).stage = s.stage := rfl
@[simp] theorem modPart_echoM (s : State) (p : Nat) (f : Part → Part) : (modPart s p f).echoM = s.echoM := rfl
@[simp] theorem modPart_sessions (s : State) (p : Nat) (f : Part → Part) : (modPart s p f).sessions = s.sessions := rfl
@[simp] theorem modPart_lastSeq (s : State) (p : Nat) (f : Part → Part) : (modPart s p f).lastSeq = s.lastSeq := rfl
@[simp] theorem modPart_logBuf (s : State) (p : Nat) (f : Part → Part) : (modPart s p f).logBuf = s.logBuf := rfl
@[simp] theorem modPart_logFlash (s : State) (p : Nat) (f : Part → Part) : (modPart s p f).logFlash = s.logFlash := rfl
@[simp] theorem modPart_totals (s : State) (p : Nat) (f : Part → Part) : (modPart s p f).totals = s.totals := rfl
@[simp] theorem modPart_totalsCold (s : State) (p : Nat) (f : Part → Part) : (modPart s p f).totalsCold = s.totalsCold := rfl
@[simp] theorem modPart_coals (s : State) (p : Nat) (f : Part → Part) : (modPart s p f).coals = s.coals := rfl
@[simp] theorem modPart_survey (s : State) (p : Nat) (f : Part → Part) : (modPart s p f).survey = s.survey := rfl
@[simp] theorem modPart_hbms (s : State) (p : Nat) (f : Part → Part) : (modPart s p f).hbms = s.hbms := rfl
@[simp] theorem modPart_hbmOwner (s : State) (p : Nat) (f : Part → Part) : (modPart s p f).hbmOwner = s.hbmOwner := rfl
@[simp] theorem modPart_cntUnmapped (s : State) (p : Nat) (f : Part → Part) : (modPart s p f).cntUnmapped = s.cntUnmapped := rfl
@[simp] theorem modPart_partUnmapped (s : State) (p : Nat) (f : Part → Part) : (modPart s p f).partUnmapped = s.partUnmapped := rfl
@[simp] theorem modPart_cntDenied (s : State) (p : Nat) (f : Part → Part) : (modPart s p f).cntDenied = s.cntDenied := rfl
@[simp] theorem modPart_cntSize (s : State) (p : Nat) (f : Part → Part) : (modPart s p f).cntSize = s.cntSize := rfl
@[simp] theorem modPart_cntMcDepth (s : State) (p : Nat) (f : Part → Part) : (modPart s p f).cntMcDepth = s.cntMcDepth := rfl
@[simp] theorem modPart_links (s : State) (p : Nat) (f : Part → Part) : (modPart s p f).links = s.links := rfl
@[simp] theorem modPart_hosts (s : State) (p : Nat) (f : Part → Part) : (modPart s p f).hosts = s.hosts := rfl
@[simp] theorem modPart_launches (s : State) (p : Nat) (f : Part → Part) : (modPart s p f).launches = s.launches := rfl
@[simp] theorem modPart_nextOrder (s : State) (p : Nat) (f : Part → Part) : (modPart s p f).nextOrder = s.nextOrder := rfl
@[simp] theorem modPart_cfg (s : State) (p : Nat) (f : Part → Part) : (modPart s p f).cfg = s.cfg := rfl
@[simp] theorem modPart_seams (s : State) (p : Nat) (f : Part → Part) : (modPart s p f).seams = s.seams := rfl
@[simp] theorem modPart_badEntries (s : State) (p : Nat) (f : Part → Part) : (modPart s p f).badEntries = s.badEntries := rfl
@[simp] theorem modPart_shared (s : State) (p : Nat) (f : Part → Part) : (modPart s p f).shared = s.shared := rfl
@[simp] theorem modPart_clk (s : State) (p : Nat) (f : Part → Part) : (modPart s p f).clk = s.clk := rfl
@[simp] theorem modPart_ech (s : State) (p : Nat) (f : Part → Part) : (modPart s p f).ech = s.ech := rfl
@[simp] theorem modPart_pwr (s : State) (p : Nat) (f : Part → Part) : (modPart s p f).pwr = s.pwr := rfl
@[simp] theorem modPart_wake (s : State) (p : Nat) (f : Part → Part) : (modPart s p f).wake = s.wake := rfl
@[simp] theorem modPart_mgmt (s : State) (p : Nat) (f : Part → Part) : (modPart s p f).mgmt = s.mgmt := rfl
@[simp] theorem modPart_fw (s : State) (p : Nat) (f : Part → Part) : (modPart s p f).fw = s.fw := rfl
@[simp] theorem modLinks_pending (s : State) (f : Links → Links) : (modLinks s f).pending = s.pending := rfl
@[simp] theorem modLinks_now (s : State) (f : Links → Links) : (modLinks s f).now = s.now := rfl
@[simp] theorem modLinks_fresh (s : State) (f : Links → Links) : (modLinks s f).fresh = s.fresh := rfl
@[simp] theorem modLinks_out (s : State) (f : Links → Links) : (modLinks s f).out = s.out := rfl
@[simp] theorem modLinks_mem (s : State) (f : Links → Links) : (modLinks s f).mem = s.mem := rfl
@[simp] theorem modLinks_marks (s : State) (f : Links → Links) : (modLinks s f).marks = s.marks := rfl
@[simp] theorem modLinks_rowErrs (s : State) (f : Links → Links) : (modLinks s f).rowErrs = s.rowErrs := rfl
@[simp] theorem modLinks_cores (s : State) (f : Links → Links) : (modLinks s f).cores = s.cores := rfl
@[simp] theorem modLinks_fields (s : State) (f : Links → Links) : (modLinks s f).fields = s.fields := rfl
@[simp] theorem modLinks_groups (s : State) (f : Links → Links) : (modLinks s f).groups = s.groups := rfl
@[simp] theorem modLinks_parts (s : State) (f : Links → Links) : (modLinks s f).parts = s.parts := rfl
@[simp] theorem modLinks_sends (s : State) (f : Links → Links) : (modLinks s f).sends = s.sends := rfl
@[simp] theorem modLinks_mchans (s : State) (f : Links → Links) : (modLinks s f).mchans = s.mchans := rfl
@[simp] theorem modLinks_chanOwner (s : State) (f : Links → Links) : (modLinks s f).chanOwner = s.chanOwner := rfl
@[simp] theorem modLinks_lockOwner (s : State) (f : Links → Links) : (modLinks s f).lockOwner = s.lockOwner := rfl
@[simp] theorem modLinks_locks (s : State) (f : Links → Links) : (modLinks s f).locks = s.locks := rfl
@[simp] theorem modLinks_lockReplies (s : State) (f : Links → Links) : (modLinks s f).lockReplies = s.lockReplies := rfl
@[simp] theorem modLinks_reports (s : State) (f : Links → Links) : (modLinks s f).reports = s.reports := rfl
@[simp] theorem modLinks_devId (s : State) (f : Links → Links) : (modLinks s f).devId = s.devId := rfl
@[simp] theorem modLinks_dev (s : State) (f : Links → Links) : (modLinks s f).dev = s.dev := rfl
@[simp] theorem modLinks_stage (s : State) (f : Links → Links) : (modLinks s f).stage = s.stage := rfl
@[simp] theorem modLinks_echoM (s : State) (f : Links → Links) : (modLinks s f).echoM = s.echoM := rfl
@[simp] theorem modLinks_sessions (s : State) (f : Links → Links) : (modLinks s f).sessions = s.sessions := rfl
@[simp] theorem modLinks_lastSeq (s : State) (f : Links → Links) : (modLinks s f).lastSeq = s.lastSeq := rfl
@[simp] theorem modLinks_logBuf (s : State) (f : Links → Links) : (modLinks s f).logBuf = s.logBuf := rfl
@[simp] theorem modLinks_logFlash (s : State) (f : Links → Links) : (modLinks s f).logFlash = s.logFlash := rfl
@[simp] theorem modLinks_totals (s : State) (f : Links → Links) : (modLinks s f).totals = s.totals := rfl
@[simp] theorem modLinks_totalsCold (s : State) (f : Links → Links) : (modLinks s f).totalsCold = s.totalsCold := rfl
@[simp] theorem modLinks_coals (s : State) (f : Links → Links) : (modLinks s f).coals = s.coals := rfl
@[simp] theorem modLinks_survey (s : State) (f : Links → Links) : (modLinks s f).survey = s.survey := rfl
@[simp] theorem modLinks_hbms (s : State) (f : Links → Links) : (modLinks s f).hbms = s.hbms := rfl
@[simp] theorem modLinks_hbmOwner (s : State) (f : Links → Links) : (modLinks s f).hbmOwner = s.hbmOwner := rfl
@[simp] theorem modLinks_cntUnmapped (s : State) (f : Links → Links) : (modLinks s f).cntUnmapped = s.cntUnmapped := rfl
@[simp] theorem modLinks_partUnmapped (s : State) (f : Links → Links) : (modLinks s f).partUnmapped = s.partUnmapped := rfl
@[simp] theorem modLinks_cntDenied (s : State) (f : Links → Links) : (modLinks s f).cntDenied = s.cntDenied := rfl
@[simp] theorem modLinks_cntSize (s : State) (f : Links → Links) : (modLinks s f).cntSize = s.cntSize := rfl
@[simp] theorem modLinks_cntMcDepth (s : State) (f : Links → Links) : (modLinks s f).cntMcDepth = s.cntMcDepth := rfl
@[simp] theorem modLinks_hosts (s : State) (f : Links → Links) : (modLinks s f).hosts = s.hosts := rfl
@[simp] theorem modLinks_launches (s : State) (f : Links → Links) : (modLinks s f).launches = s.launches := rfl
@[simp] theorem modLinks_nextOrder (s : State) (f : Links → Links) : (modLinks s f).nextOrder = s.nextOrder := rfl
@[simp] theorem modLinks_cfg (s : State) (f : Links → Links) : (modLinks s f).cfg = s.cfg := rfl
@[simp] theorem modLinks_seams (s : State) (f : Links → Links) : (modLinks s f).seams = s.seams := rfl
@[simp] theorem modLinks_badEntries (s : State) (f : Links → Links) : (modLinks s f).badEntries = s.badEntries := rfl
@[simp] theorem modLinks_shared (s : State) (f : Links → Links) : (modLinks s f).shared = s.shared := rfl
@[simp] theorem modLinks_clk (s : State) (f : Links → Links) : (modLinks s f).clk = s.clk := rfl
@[simp] theorem modLinks_ech (s : State) (f : Links → Links) : (modLinks s f).ech = s.ech := rfl
@[simp] theorem modLinks_pwr (s : State) (f : Links → Links) : (modLinks s f).pwr = s.pwr := rfl
@[simp] theorem modLinks_wake (s : State) (f : Links → Links) : (modLinks s f).wake = s.wake := rfl
@[simp] theorem modLinks_mgmt (s : State) (f : Links → Links) : (modLinks s f).mgmt = s.mgmt := rfl
@[simp] theorem modLinks_fw (s : State) (f : Links → Links) : (modLinks s f).fw = s.fw := rfl
@[simp] theorem modClk_pending (s : State) (f : Clk → Clk) : (modClk s f).pending = s.pending := rfl
@[simp] theorem modClk_now (s : State) (f : Clk → Clk) : (modClk s f).now = s.now := rfl
@[simp] theorem modClk_fresh (s : State) (f : Clk → Clk) : (modClk s f).fresh = s.fresh := rfl
@[simp] theorem modClk_out (s : State) (f : Clk → Clk) : (modClk s f).out = s.out := rfl
@[simp] theorem modClk_mem (s : State) (f : Clk → Clk) : (modClk s f).mem = s.mem := rfl
@[simp] theorem modClk_marks (s : State) (f : Clk → Clk) : (modClk s f).marks = s.marks := rfl
@[simp] theorem modClk_rowErrs (s : State) (f : Clk → Clk) : (modClk s f).rowErrs = s.rowErrs := rfl
@[simp] theorem modClk_cores (s : State) (f : Clk → Clk) : (modClk s f).cores = s.cores := rfl
@[simp] theorem modClk_fields (s : State) (f : Clk → Clk) : (modClk s f).fields = s.fields := rfl
@[simp] theorem modClk_groups (s : State) (f : Clk → Clk) : (modClk s f).groups = s.groups := rfl
@[simp] theorem modClk_parts (s : State) (f : Clk → Clk) : (modClk s f).parts = s.parts := rfl
@[simp] theorem modClk_sends (s : State) (f : Clk → Clk) : (modClk s f).sends = s.sends := rfl
@[simp] theorem modClk_mchans (s : State) (f : Clk → Clk) : (modClk s f).mchans = s.mchans := rfl
@[simp] theorem modClk_chanOwner (s : State) (f : Clk → Clk) : (modClk s f).chanOwner = s.chanOwner := rfl
@[simp] theorem modClk_lockOwner (s : State) (f : Clk → Clk) : (modClk s f).lockOwner = s.lockOwner := rfl
@[simp] theorem modClk_locks (s : State) (f : Clk → Clk) : (modClk s f).locks = s.locks := rfl
@[simp] theorem modClk_lockReplies (s : State) (f : Clk → Clk) : (modClk s f).lockReplies = s.lockReplies := rfl
@[simp] theorem modClk_reports (s : State) (f : Clk → Clk) : (modClk s f).reports = s.reports := rfl
@[simp] theorem modClk_devId (s : State) (f : Clk → Clk) : (modClk s f).devId = s.devId := rfl
@[simp] theorem modClk_dev (s : State) (f : Clk → Clk) : (modClk s f).dev = s.dev := rfl
@[simp] theorem modClk_stage (s : State) (f : Clk → Clk) : (modClk s f).stage = s.stage := rfl
@[simp] theorem modClk_echoM (s : State) (f : Clk → Clk) : (modClk s f).echoM = s.echoM := rfl
@[simp] theorem modClk_sessions (s : State) (f : Clk → Clk) : (modClk s f).sessions = s.sessions := rfl
@[simp] theorem modClk_lastSeq (s : State) (f : Clk → Clk) : (modClk s f).lastSeq = s.lastSeq := rfl
@[simp] theorem modClk_logBuf (s : State) (f : Clk → Clk) : (modClk s f).logBuf = s.logBuf := rfl
@[simp] theorem modClk_logFlash (s : State) (f : Clk → Clk) : (modClk s f).logFlash = s.logFlash := rfl
@[simp] theorem modClk_totals (s : State) (f : Clk → Clk) : (modClk s f).totals = s.totals := rfl
@[simp] theorem modClk_totalsCold (s : State) (f : Clk → Clk) : (modClk s f).totalsCold = s.totalsCold := rfl
@[simp] theorem modClk_coals (s : State) (f : Clk → Clk) : (modClk s f).coals = s.coals := rfl
@[simp] theorem modClk_survey (s : State) (f : Clk → Clk) : (modClk s f).survey = s.survey := rfl
@[simp] theorem modClk_hbms (s : State) (f : Clk → Clk) : (modClk s f).hbms = s.hbms := rfl
@[simp] theorem modClk_hbmOwner (s : State) (f : Clk → Clk) : (modClk s f).hbmOwner = s.hbmOwner := rfl
@[simp] theorem modClk_cntUnmapped (s : State) (f : Clk → Clk) : (modClk s f).cntUnmapped = s.cntUnmapped := rfl
@[simp] theorem modClk_partUnmapped (s : State) (f : Clk → Clk) : (modClk s f).partUnmapped = s.partUnmapped := rfl
@[simp] theorem modClk_cntDenied (s : State) (f : Clk → Clk) : (modClk s f).cntDenied = s.cntDenied := rfl
@[simp] theorem modClk_cntSize (s : State) (f : Clk → Clk) : (modClk s f).cntSize = s.cntSize := rfl
@[simp] theorem modClk_cntMcDepth (s : State) (f : Clk → Clk) : (modClk s f).cntMcDepth = s.cntMcDepth := rfl
@[simp] theorem modClk_links (s : State) (f : Clk → Clk) : (modClk s f).links = s.links := rfl
@[simp] theorem modClk_hosts (s : State) (f : Clk → Clk) : (modClk s f).hosts = s.hosts := rfl
@[simp] theorem modClk_launches (s : State) (f : Clk → Clk) : (modClk s f).launches = s.launches := rfl
@[simp] theorem modClk_nextOrder (s : State) (f : Clk → Clk) : (modClk s f).nextOrder = s.nextOrder := rfl
@[simp] theorem modClk_cfg (s : State) (f : Clk → Clk) : (modClk s f).cfg = s.cfg := rfl
@[simp] theorem modClk_seams (s : State) (f : Clk → Clk) : (modClk s f).seams = s.seams := rfl
@[simp] theorem modClk_badEntries (s : State) (f : Clk → Clk) : (modClk s f).badEntries = s.badEntries := rfl
@[simp] theorem modClk_shared (s : State) (f : Clk → Clk) : (modClk s f).shared = s.shared := rfl
@[simp] theorem modClk_ech (s : State) (f : Clk → Clk) : (modClk s f).ech = s.ech := rfl
@[simp] theorem modClk_pwr (s : State) (f : Clk → Clk) : (modClk s f).pwr = s.pwr := rfl
@[simp] theorem modClk_wake (s : State) (f : Clk → Clk) : (modClk s f).wake = s.wake := rfl
@[simp] theorem modClk_mgmt (s : State) (f : Clk → Clk) : (modClk s f).mgmt = s.mgmt := rfl
@[simp] theorem modClk_fw (s : State) (f : Clk → Clk) : (modClk s f).fw = s.fw := rfl
@[simp] theorem modEch_pending (s : State) (f : EchoM → EchoM) : (modEch s f).pending = s.pending := rfl
@[simp] theorem modEch_now (s : State) (f : EchoM → EchoM) : (modEch s f).now = s.now := rfl
@[simp] theorem modEch_fresh (s : State) (f : EchoM → EchoM) : (modEch s f).fresh = s.fresh := rfl
@[simp] theorem modEch_out (s : State) (f : EchoM → EchoM) : (modEch s f).out = s.out := rfl
@[simp] theorem modEch_mem (s : State) (f : EchoM → EchoM) : (modEch s f).mem = s.mem := rfl
@[simp] theorem modEch_marks (s : State) (f : EchoM → EchoM) : (modEch s f).marks = s.marks := rfl
@[simp] theorem modEch_rowErrs (s : State) (f : EchoM → EchoM) : (modEch s f).rowErrs = s.rowErrs := rfl
@[simp] theorem modEch_cores (s : State) (f : EchoM → EchoM) : (modEch s f).cores = s.cores := rfl
@[simp] theorem modEch_fields (s : State) (f : EchoM → EchoM) : (modEch s f).fields = s.fields := rfl
@[simp] theorem modEch_groups (s : State) (f : EchoM → EchoM) : (modEch s f).groups = s.groups := rfl
@[simp] theorem modEch_parts (s : State) (f : EchoM → EchoM) : (modEch s f).parts = s.parts := rfl
@[simp] theorem modEch_sends (s : State) (f : EchoM → EchoM) : (modEch s f).sends = s.sends := rfl
@[simp] theorem modEch_mchans (s : State) (f : EchoM → EchoM) : (modEch s f).mchans = s.mchans := rfl
@[simp] theorem modEch_chanOwner (s : State) (f : EchoM → EchoM) : (modEch s f).chanOwner = s.chanOwner := rfl
@[simp] theorem modEch_lockOwner (s : State) (f : EchoM → EchoM) : (modEch s f).lockOwner = s.lockOwner := rfl
@[simp] theorem modEch_locks (s : State) (f : EchoM → EchoM) : (modEch s f).locks = s.locks := rfl
@[simp] theorem modEch_lockReplies (s : State) (f : EchoM → EchoM) : (modEch s f).lockReplies = s.lockReplies := rfl
@[simp] theorem modEch_reports (s : State) (f : EchoM → EchoM) : (modEch s f).reports = s.reports := rfl
@[simp] theorem modEch_devId (s : State) (f : EchoM → EchoM) : (modEch s f).devId = s.devId := rfl
@[simp] theorem modEch_dev (s : State) (f : EchoM → EchoM) : (modEch s f).dev = s.dev := rfl
@[simp] theorem modEch_stage (s : State) (f : EchoM → EchoM) : (modEch s f).stage = s.stage := rfl
@[simp] theorem modEch_echoM (s : State) (f : EchoM → EchoM) : (modEch s f).echoM = s.echoM := rfl
@[simp] theorem modEch_sessions (s : State) (f : EchoM → EchoM) : (modEch s f).sessions = s.sessions := rfl
@[simp] theorem modEch_lastSeq (s : State) (f : EchoM → EchoM) : (modEch s f).lastSeq = s.lastSeq := rfl
@[simp] theorem modEch_logBuf (s : State) (f : EchoM → EchoM) : (modEch s f).logBuf = s.logBuf := rfl
@[simp] theorem modEch_logFlash (s : State) (f : EchoM → EchoM) : (modEch s f).logFlash = s.logFlash := rfl
@[simp] theorem modEch_totals (s : State) (f : EchoM → EchoM) : (modEch s f).totals = s.totals := rfl
@[simp] theorem modEch_totalsCold (s : State) (f : EchoM → EchoM) : (modEch s f).totalsCold = s.totalsCold := rfl
@[simp] theorem modEch_coals (s : State) (f : EchoM → EchoM) : (modEch s f).coals = s.coals := rfl
@[simp] theorem modEch_survey (s : State) (f : EchoM → EchoM) : (modEch s f).survey = s.survey := rfl
@[simp] theorem modEch_hbms (s : State) (f : EchoM → EchoM) : (modEch s f).hbms = s.hbms := rfl
@[simp] theorem modEch_hbmOwner (s : State) (f : EchoM → EchoM) : (modEch s f).hbmOwner = s.hbmOwner := rfl
@[simp] theorem modEch_cntUnmapped (s : State) (f : EchoM → EchoM) : (modEch s f).cntUnmapped = s.cntUnmapped := rfl
@[simp] theorem modEch_partUnmapped (s : State) (f : EchoM → EchoM) : (modEch s f).partUnmapped = s.partUnmapped := rfl
@[simp] theorem modEch_cntDenied (s : State) (f : EchoM → EchoM) : (modEch s f).cntDenied = s.cntDenied := rfl
@[simp] theorem modEch_cntSize (s : State) (f : EchoM → EchoM) : (modEch s f).cntSize = s.cntSize := rfl
@[simp] theorem modEch_cntMcDepth (s : State) (f : EchoM → EchoM) : (modEch s f).cntMcDepth = s.cntMcDepth := rfl
@[simp] theorem modEch_links (s : State) (f : EchoM → EchoM) : (modEch s f).links = s.links := rfl
@[simp] theorem modEch_hosts (s : State) (f : EchoM → EchoM) : (modEch s f).hosts = s.hosts := rfl
@[simp] theorem modEch_launches (s : State) (f : EchoM → EchoM) : (modEch s f).launches = s.launches := rfl
@[simp] theorem modEch_nextOrder (s : State) (f : EchoM → EchoM) : (modEch s f).nextOrder = s.nextOrder := rfl
@[simp] theorem modEch_cfg (s : State) (f : EchoM → EchoM) : (modEch s f).cfg = s.cfg := rfl
@[simp] theorem modEch_seams (s : State) (f : EchoM → EchoM) : (modEch s f).seams = s.seams := rfl
@[simp] theorem modEch_badEntries (s : State) (f : EchoM → EchoM) : (modEch s f).badEntries = s.badEntries := rfl
@[simp] theorem modEch_shared (s : State) (f : EchoM → EchoM) : (modEch s f).shared = s.shared := rfl
@[simp] theorem modEch_clk (s : State) (f : EchoM → EchoM) : (modEch s f).clk = s.clk := rfl
@[simp] theorem modEch_pwr (s : State) (f : EchoM → EchoM) : (modEch s f).pwr = s.pwr := rfl
@[simp] theorem modEch_wake (s : State) (f : EchoM → EchoM) : (modEch s f).wake = s.wake := rfl
@[simp] theorem modEch_mgmt (s : State) (f : EchoM → EchoM) : (modEch s f).mgmt = s.mgmt := rfl
@[simp] theorem modEch_fw (s : State) (f : EchoM → EchoM) : (modEch s f).fw = s.fw := rfl
@[simp] theorem modPwr_pending (s : State) (f : Pwr → Pwr) : (modPwr s f).pending = s.pending := rfl
@[simp] theorem modPwr_now (s : State) (f : Pwr → Pwr) : (modPwr s f).now = s.now := rfl
@[simp] theorem modPwr_fresh (s : State) (f : Pwr → Pwr) : (modPwr s f).fresh = s.fresh := rfl
@[simp] theorem modPwr_out (s : State) (f : Pwr → Pwr) : (modPwr s f).out = s.out := rfl
@[simp] theorem modPwr_mem (s : State) (f : Pwr → Pwr) : (modPwr s f).mem = s.mem := rfl
@[simp] theorem modPwr_marks (s : State) (f : Pwr → Pwr) : (modPwr s f).marks = s.marks := rfl
@[simp] theorem modPwr_rowErrs (s : State) (f : Pwr → Pwr) : (modPwr s f).rowErrs = s.rowErrs := rfl
@[simp] theorem modPwr_cores (s : State) (f : Pwr → Pwr) : (modPwr s f).cores = s.cores := rfl
@[simp] theorem modPwr_fields (s : State) (f : Pwr → Pwr) : (modPwr s f).fields = s.fields := rfl
@[simp] theorem modPwr_groups (s : State) (f : Pwr → Pwr) : (modPwr s f).groups = s.groups := rfl
@[simp] theorem modPwr_parts (s : State) (f : Pwr → Pwr) : (modPwr s f).parts = s.parts := rfl
@[simp] theorem modPwr_sends (s : State) (f : Pwr → Pwr) : (modPwr s f).sends = s.sends := rfl
@[simp] theorem modPwr_mchans (s : State) (f : Pwr → Pwr) : (modPwr s f).mchans = s.mchans := rfl
@[simp] theorem modPwr_chanOwner (s : State) (f : Pwr → Pwr) : (modPwr s f).chanOwner = s.chanOwner := rfl
@[simp] theorem modPwr_lockOwner (s : State) (f : Pwr → Pwr) : (modPwr s f).lockOwner = s.lockOwner := rfl
@[simp] theorem modPwr_locks (s : State) (f : Pwr → Pwr) : (modPwr s f).locks = s.locks := rfl
@[simp] theorem modPwr_lockReplies (s : State) (f : Pwr → Pwr) : (modPwr s f).lockReplies = s.lockReplies := rfl
@[simp] theorem modPwr_reports (s : State) (f : Pwr → Pwr) : (modPwr s f).reports = s.reports := rfl
@[simp] theorem modPwr_devId (s : State) (f : Pwr → Pwr) : (modPwr s f).devId = s.devId := rfl
@[simp] theorem modPwr_dev (s : State) (f : Pwr → Pwr) : (modPwr s f).dev = s.dev := rfl
@[simp] theorem modPwr_stage (s : State) (f : Pwr → Pwr) : (modPwr s f).stage = s.stage := rfl
@[simp] theorem modPwr_echoM (s : State) (f : Pwr → Pwr) : (modPwr s f).echoM = s.echoM := rfl
@[simp] theorem modPwr_sessions (s : State) (f : Pwr → Pwr) : (modPwr s f).sessions = s.sessions := rfl
@[simp] theorem modPwr_lastSeq (s : State) (f : Pwr → Pwr) : (modPwr s f).lastSeq = s.lastSeq := rfl
@[simp] theorem modPwr_logBuf (s : State) (f : Pwr → Pwr) : (modPwr s f).logBuf = s.logBuf := rfl
@[simp] theorem modPwr_logFlash (s : State) (f : Pwr → Pwr) : (modPwr s f).logFlash = s.logFlash := rfl
@[simp] theorem modPwr_totals (s : State) (f : Pwr → Pwr) : (modPwr s f).totals = s.totals := rfl
@[simp] theorem modPwr_totalsCold (s : State) (f : Pwr → Pwr) : (modPwr s f).totalsCold = s.totalsCold := rfl
@[simp] theorem modPwr_coals (s : State) (f : Pwr → Pwr) : (modPwr s f).coals = s.coals := rfl
@[simp] theorem modPwr_survey (s : State) (f : Pwr → Pwr) : (modPwr s f).survey = s.survey := rfl
@[simp] theorem modPwr_hbms (s : State) (f : Pwr → Pwr) : (modPwr s f).hbms = s.hbms := rfl
@[simp] theorem modPwr_hbmOwner (s : State) (f : Pwr → Pwr) : (modPwr s f).hbmOwner = s.hbmOwner := rfl
@[simp] theorem modPwr_cntUnmapped (s : State) (f : Pwr → Pwr) : (modPwr s f).cntUnmapped = s.cntUnmapped := rfl
@[simp] theorem modPwr_partUnmapped (s : State) (f : Pwr → Pwr) : (modPwr s f).partUnmapped = s.partUnmapped := rfl
@[simp] theorem modPwr_cntDenied (s : State) (f : Pwr → Pwr) : (modPwr s f).cntDenied = s.cntDenied := rfl
@[simp] theorem modPwr_cntSize (s : State) (f : Pwr → Pwr) : (modPwr s f).cntSize = s.cntSize := rfl
@[simp] theorem modPwr_cntMcDepth (s : State) (f : Pwr → Pwr) : (modPwr s f).cntMcDepth = s.cntMcDepth := rfl
@[simp] theorem modPwr_links (s : State) (f : Pwr → Pwr) : (modPwr s f).links = s.links := rfl
@[simp] theorem modPwr_hosts (s : State) (f : Pwr → Pwr) : (modPwr s f).hosts = s.hosts := rfl
@[simp] theorem modPwr_launches (s : State) (f : Pwr → Pwr) : (modPwr s f).launches = s.launches := rfl
@[simp] theorem modPwr_nextOrder (s : State) (f : Pwr → Pwr) : (modPwr s f).nextOrder = s.nextOrder := rfl
@[simp] theorem modPwr_cfg (s : State) (f : Pwr → Pwr) : (modPwr s f).cfg = s.cfg := rfl
@[simp] theorem modPwr_seams (s : State) (f : Pwr → Pwr) : (modPwr s f).seams = s.seams := rfl
@[simp] theorem modPwr_badEntries (s : State) (f : Pwr → Pwr) : (modPwr s f).badEntries = s.badEntries := rfl
@[simp] theorem modPwr_shared (s : State) (f : Pwr → Pwr) : (modPwr s f).shared = s.shared := rfl
@[simp] theorem modPwr_clk (s : State) (f : Pwr → Pwr) : (modPwr s f).clk = s.clk := rfl
@[simp] theorem modPwr_ech (s : State) (f : Pwr → Pwr) : (modPwr s f).ech = s.ech := rfl
@[simp] theorem modPwr_wake (s : State) (f : Pwr → Pwr) : (modPwr s f).wake = s.wake := rfl
@[simp] theorem modPwr_mgmt (s : State) (f : Pwr → Pwr) : (modPwr s f).mgmt = s.mgmt := rfl
@[simp] theorem modPwr_fw (s : State) (f : Pwr → Pwr) : (modPwr s f).fw = s.fw := rfl
@[simp] theorem modWake_pending (s : State) (f : Wake → Wake) : (modWake s f).pending = s.pending := rfl
@[simp] theorem modWake_now (s : State) (f : Wake → Wake) : (modWake s f).now = s.now := rfl
@[simp] theorem modWake_fresh (s : State) (f : Wake → Wake) : (modWake s f).fresh = s.fresh := rfl
@[simp] theorem modWake_out (s : State) (f : Wake → Wake) : (modWake s f).out = s.out := rfl
@[simp] theorem modWake_mem (s : State) (f : Wake → Wake) : (modWake s f).mem = s.mem := rfl
@[simp] theorem modWake_marks (s : State) (f : Wake → Wake) : (modWake s f).marks = s.marks := rfl
@[simp] theorem modWake_rowErrs (s : State) (f : Wake → Wake) : (modWake s f).rowErrs = s.rowErrs := rfl
@[simp] theorem modWake_cores (s : State) (f : Wake → Wake) : (modWake s f).cores = s.cores := rfl
@[simp] theorem modWake_fields (s : State) (f : Wake → Wake) : (modWake s f).fields = s.fields := rfl
@[simp] theorem modWake_groups (s : State) (f : Wake → Wake) : (modWake s f).groups = s.groups := rfl
@[simp] theorem modWake_parts (s : State) (f : Wake → Wake) : (modWake s f).parts = s.parts := rfl
@[simp] theorem modWake_sends (s : State) (f : Wake → Wake) : (modWake s f).sends = s.sends := rfl
@[simp] theorem modWake_mchans (s : State) (f : Wake → Wake) : (modWake s f).mchans = s.mchans := rfl
@[simp] theorem modWake_chanOwner (s : State) (f : Wake → Wake) : (modWake s f).chanOwner = s.chanOwner := rfl
@[simp] theorem modWake_lockOwner (s : State) (f : Wake → Wake) : (modWake s f).lockOwner = s.lockOwner := rfl
@[simp] theorem modWake_locks (s : State) (f : Wake → Wake) : (modWake s f).locks = s.locks := rfl
@[simp] theorem modWake_lockReplies (s : State) (f : Wake → Wake) : (modWake s f).lockReplies = s.lockReplies := rfl
@[simp] theorem modWake_reports (s : State) (f : Wake → Wake) : (modWake s f).reports = s.reports := rfl
@[simp] theorem modWake_devId (s : State) (f : Wake → Wake) : (modWake s f).devId = s.devId := rfl
@[simp] theorem modWake_dev (s : State) (f : Wake → Wake) : (modWake s f).dev = s.dev := rfl
@[simp] theorem modWake_stage (s : State) (f : Wake → Wake) : (modWake s f).stage = s.stage := rfl
@[simp] theorem modWake_echoM (s : State) (f : Wake → Wake) : (modWake s f).echoM = s.echoM := rfl
@[simp] theorem modWake_sessions (s : State) (f : Wake → Wake) : (modWake s f).sessions = s.sessions := rfl
@[simp] theorem modWake_lastSeq (s : State) (f : Wake → Wake) : (modWake s f).lastSeq = s.lastSeq := rfl
@[simp] theorem modWake_logBuf (s : State) (f : Wake → Wake) : (modWake s f).logBuf = s.logBuf := rfl
@[simp] theorem modWake_logFlash (s : State) (f : Wake → Wake) : (modWake s f).logFlash = s.logFlash := rfl
@[simp] theorem modWake_totals (s : State) (f : Wake → Wake) : (modWake s f).totals = s.totals := rfl
@[simp] theorem modWake_totalsCold (s : State) (f : Wake → Wake) : (modWake s f).totalsCold = s.totalsCold := rfl
@[simp] theorem modWake_coals (s : State) (f : Wake → Wake) : (modWake s f).coals = s.coals := rfl
@[simp] theorem modWake_survey (s : State) (f : Wake → Wake) : (modWake s f).survey = s.survey := rfl
@[simp] theorem modWake_hbms (s : State) (f : Wake → Wake) : (modWake s f).hbms = s.hbms := rfl
@[simp] theorem modWake_hbmOwner (s : State) (f : Wake → Wake) : (modWake s f).hbmOwner = s.hbmOwner := rfl
@[simp] theorem modWake_cntUnmapped (s : State) (f : Wake → Wake) : (modWake s f).cntUnmapped = s.cntUnmapped := rfl
@[simp] theorem modWake_partUnmapped (s : State) (f : Wake → Wake) : (modWake s f).partUnmapped = s.partUnmapped := rfl
@[simp] theorem modWake_cntDenied (s : State) (f : Wake → Wake) : (modWake s f).cntDenied = s.cntDenied := rfl
@[simp] theorem modWake_cntSize (s : State) (f : Wake → Wake) : (modWake s f).cntSize = s.cntSize := rfl
@[simp] theorem modWake_cntMcDepth (s : State) (f : Wake → Wake) : (modWake s f).cntMcDepth = s.cntMcDepth := rfl
@[simp] theorem modWake_links (s : State) (f : Wake → Wake) : (modWake s f).links = s.links := rfl
@[simp] theorem modWake_hosts (s : State) (f : Wake → Wake) : (modWake s f).hosts = s.hosts := rfl
@[simp] theorem modWake_launches (s : State) (f : Wake → Wake) : (modWake s f).launches = s.launches := rfl
@[simp] theorem modWake_nextOrder (s : State) (f : Wake → Wake) : (modWake s f).nextOrder = s.nextOrder := rfl
@[simp] theorem modWake_cfg (s : State) (f : Wake → Wake) : (modWake s f).cfg = s.cfg := rfl
@[simp] theorem modWake_seams (s : State) (f : Wake → Wake) : (modWake s f).seams = s.seams := rfl
@[simp] theorem modWake_badEntries (s : State) (f : Wake → Wake) : (modWake s f).badEntries = s.badEntries := rfl
@[simp] theorem modWake_shared (s : State) (f : Wake → Wake) : (modWake s f).shared = s.shared := rfl
@[simp] theorem modWake_clk (s : State) (f : Wake → Wake) : (modWake s f).clk = s.clk := rfl
@[simp] theorem modWake_ech (s : State) (f : Wake → Wake) : (modWake s f).ech = s.ech := rfl
@[simp] theorem modWake_pwr (s : State) (f : Wake → Wake) : (modWake s f).pwr = s.pwr := rfl
@[simp] theorem modWake_mgmt (s : State) (f : Wake → Wake) : (modWake s f).mgmt = s.mgmt := rfl
@[simp] theorem modWake_fw (s : State) (f : Wake → Wake) : (modWake s f).fw = s.fw := rfl
@[simp] theorem modMgmt_pending (s : State) (f : Mgmt → Mgmt) : (modMgmt s f).pending = s.pending := rfl
@[simp] theorem modMgmt_now (s : State) (f : Mgmt → Mgmt) : (modMgmt s f).now = s.now := rfl
@[simp] theorem modMgmt_fresh (s : State) (f : Mgmt → Mgmt) : (modMgmt s f).fresh = s.fresh := rfl
@[simp] theorem modMgmt_out (s : State) (f : Mgmt → Mgmt) : (modMgmt s f).out = s.out := rfl
@[simp] theorem modMgmt_mem (s : State) (f : Mgmt → Mgmt) : (modMgmt s f).mem = s.mem := rfl
@[simp] theorem modMgmt_marks (s : State) (f : Mgmt → Mgmt) : (modMgmt s f).marks = s.marks := rfl
@[simp] theorem modMgmt_rowErrs (s : State) (f : Mgmt → Mgmt) : (modMgmt s f).rowErrs = s.rowErrs := rfl
@[simp] theorem modMgmt_cores (s : State) (f : Mgmt → Mgmt) : (modMgmt s f).cores = s.cores := rfl
@[simp] theorem modMgmt_fields (s : State) (f : Mgmt → Mgmt) : (modMgmt s f).fields = s.fields := rfl
@[simp] theorem modMgmt_groups (s : State) (f : Mgmt → Mgmt) : (modMgmt s f).groups = s.groups := rfl
@[simp] theorem modMgmt_parts (s : State) (f : Mgmt → Mgmt) : (modMgmt s f).parts = s.parts := rfl
@[simp] theorem modMgmt_sends (s : State) (f : Mgmt → Mgmt) : (modMgmt s f).sends = s.sends := rfl
@[simp] theorem modMgmt_mchans (s : State) (f : Mgmt → Mgmt) : (modMgmt s f).mchans = s.mchans := rfl
@[simp] theorem modMgmt_chanOwner (s : State) (f : Mgmt → Mgmt) : (modMgmt s f).chanOwner = s.chanOwner := rfl
@[simp] theorem modMgmt_lockOwner (s : State) (f : Mgmt → Mgmt) : (modMgmt s f).lockOwner = s.lockOwner := rfl
@[simp] theorem modMgmt_locks (s : State) (f : Mgmt → Mgmt) : (modMgmt s f).locks = s.locks := rfl
@[simp] theorem modMgmt_lockReplies (s : State) (f : Mgmt → Mgmt) : (modMgmt s f).lockReplies = s.lockReplies := rfl
@[simp] theorem modMgmt_reports (s : State) (f : Mgmt → Mgmt) : (modMgmt s f).reports = s.reports := rfl
@[simp] theorem modMgmt_devId (s : State) (f : Mgmt → Mgmt) : (modMgmt s f).devId = s.devId := rfl
@[simp] theorem modMgmt_dev (s : State) (f : Mgmt → Mgmt) : (modMgmt s f).dev = s.dev := rfl
@[simp] theorem modMgmt_stage (s : State) (f : Mgmt → Mgmt) : (modMgmt s f).stage = s.stage := rfl
@[simp] theorem modMgmt_echoM (s : State) (f : Mgmt → Mgmt) : (modMgmt s f).echoM = s.echoM := rfl
@[simp] theorem modMgmt_sessions (s : State) (f : Mgmt → Mgmt) : (modMgmt s f).sessions = s.sessions := rfl
@[simp] theorem modMgmt_lastSeq (s : State) (f : Mgmt → Mgmt) : (modMgmt s f).lastSeq = s.lastSeq := rfl
@[simp] theorem modMgmt_logBuf (s : State) (f : Mgmt → Mgmt) : (modMgmt s f).logBuf = s.logBuf := rfl
@[simp] theorem modMgmt_logFlash (s : State) (f : Mgmt → Mgmt) : (modMgmt s f).logFlash = s.logFlash := rfl
@[simp] theorem modMgmt_totals (s : State) (f : Mgmt → Mgmt) : (modMgmt s f).totals = s.totals := rfl
@[simp] theorem modMgmt_totalsCold (s : State) (f : Mgmt → Mgmt) : (modMgmt s f).totalsCold = s.totalsCold := rfl
@[simp] theorem modMgmt_coals (s : State) (f : Mgmt → Mgmt) : (modMgmt s f).coals = s.coals := rfl
@[simp] theorem modMgmt_survey (s : State) (f : Mgmt → Mgmt) : (modMgmt s f).survey = s.survey := rfl
@[simp] theorem modMgmt_hbms (s : State) (f : Mgmt → Mgmt) : (modMgmt s f).hbms = s.hbms := rfl
@[simp] theorem modMgmt_hbmOwner (s : State) (f : Mgmt → Mgmt) : (modMgmt s f).hbmOwner = s.hbmOwner := rfl
@[simp] theorem modMgmt_cntUnmapped (s : State) (f : Mgmt → Mgmt) : (modMgmt s f).cntUnmapped = s.cntUnmapped := rfl
@[simp] theorem modMgmt_partUnmapped (s : State) (f : Mgmt → Mgmt) : (modMgmt s f).partUnmapped = s.partUnmapped := rfl
@[simp] theorem modMgmt_cntDenied (s : State) (f : Mgmt → Mgmt) : (modMgmt s f).cntDenied = s.cntDenied := rfl
@[simp] theorem modMgmt_cntSize (s : State) (f : Mgmt → Mgmt) : (modMgmt s f).cntSize = s.cntSize := rfl
@[simp] theorem modMgmt_cntMcDepth (s : State) (f : Mgmt → Mgmt) : (modMgmt s f).cntMcDepth = s.cntMcDepth := rfl
@[simp] theorem modMgmt_links (s : State) (f : Mgmt → Mgmt) : (modMgmt s f).links = s.links := rfl
@[simp] theorem modMgmt_hosts (s : State) (f : Mgmt → Mgmt) : (modMgmt s f).hosts = s.hosts := rfl
@[simp] theorem modMgmt_launches (s : State) (f : Mgmt → Mgmt) : (modMgmt s f).launches = s.launches := rfl
@[simp] theorem modMgmt_nextOrder (s : State) (f : Mgmt → Mgmt) : (modMgmt s f).nextOrder = s.nextOrder := rfl
@[simp] theorem modMgmt_cfg (s : State) (f : Mgmt → Mgmt) : (modMgmt s f).cfg = s.cfg := rfl
@[simp] theorem modMgmt_seams (s : State) (f : Mgmt → Mgmt) : (modMgmt s f).seams = s.seams := rfl
@[simp] theorem modMgmt_badEntries (s : State) (f : Mgmt → Mgmt) : (modMgmt s f).badEntries = s.badEntries := rfl
@[simp] theorem modMgmt_shared (s : State) (f : Mgmt → Mgmt) : (modMgmt s f).shared = s.shared := rfl
@[simp] theorem modMgmt_clk (s : State) (f : Mgmt → Mgmt) : (modMgmt s f).clk = s.clk := rfl
@[simp] theorem modMgmt_ech (s : State) (f : Mgmt → Mgmt) : (modMgmt s f).ech = s.ech := rfl
@[simp] theorem modMgmt_pwr (s : State) (f : Mgmt → Mgmt) : (modMgmt s f).pwr = s.pwr := rfl
@[simp] theorem modMgmt_wake (s : State) (f : Mgmt → Mgmt) : (modMgmt s f).wake = s.wake := rfl
@[simp] theorem modMgmt_fw (s : State) (f : Mgmt → Mgmt) : (modMgmt s f).fw = s.fw := rfl
@[simp] theorem modFw_pending (s : State) (f : Fw → Fw) : (modFw s f).pending = s.pending := rfl
@[simp] theorem modFw_now (s : State) (f : Fw → Fw) : (modFw s f).now = s.now := rfl
@[simp] theorem modFw_fresh (s : State) (f : Fw → Fw) : (modFw s f).fresh = s.fresh := rfl
@[simp] theorem modFw_out (s : State) (f : Fw → Fw) : (modFw s f).out = s.out := rfl
@[simp] theorem modFw_mem (s : State) (f : Fw → Fw) : (modFw s f).mem = s.mem := rfl
@[simp] theorem modFw_marks (s : State) (f : Fw → Fw) : (modFw s f).marks = s.marks := rfl
@[simp] theorem modFw_rowErrs (s : State) (f : Fw → Fw) : (modFw s f).rowErrs = s.rowErrs := rfl
@[simp] theorem modFw_cores (s : State) (f : Fw → Fw) : (modFw s f).cores = s.cores := rfl
@[simp] theorem modFw_fields (s : State) (f : Fw → Fw) : (modFw s f).fields = s.fields := rfl
@[simp] theorem modFw_groups (s : State) (f : Fw → Fw) : (modFw s f).groups = s.groups := rfl
@[simp] theorem modFw_parts (s : State) (f : Fw → Fw) : (modFw s f).parts = s.parts := rfl
@[simp] theorem modFw_sends (s : State) (f : Fw → Fw) : (modFw s f).sends = s.sends := rfl
@[simp] theorem modFw_mchans (s : State) (f : Fw → Fw) : (modFw s f).mchans = s.mchans := rfl
@[simp] theorem modFw_chanOwner (s : State) (f : Fw → Fw) : (modFw s f).chanOwner = s.chanOwner := rfl
@[simp] theorem modFw_lockOwner (s : State) (f : Fw → Fw) : (modFw s f).lockOwner = s.lockOwner := rfl
@[simp] theorem modFw_locks (s : State) (f : Fw → Fw) : (modFw s f).locks = s.locks := rfl
@[simp] theorem modFw_lockReplies (s : State) (f : Fw → Fw) : (modFw s f).lockReplies = s.lockReplies := rfl
@[simp] theorem modFw_reports (s : State) (f : Fw → Fw) : (modFw s f).reports = s.reports := rfl
@[simp] theorem modFw_devId (s : State) (f : Fw → Fw) : (modFw s f).devId = s.devId := rfl
@[simp] theorem modFw_dev (s : State) (f : Fw → Fw) : (modFw s f).dev = s.dev := rfl
@[simp] theorem modFw_stage (s : State) (f : Fw → Fw) : (modFw s f).stage = s.stage := rfl
@[simp] theorem modFw_echoM (s : State) (f : Fw → Fw) : (modFw s f).echoM = s.echoM := rfl
@[simp] theorem modFw_sessions (s : State) (f : Fw → Fw) : (modFw s f).sessions = s.sessions := rfl
@[simp] theorem modFw_lastSeq (s : State) (f : Fw → Fw) : (modFw s f).lastSeq = s.lastSeq := rfl
@[simp] theorem modFw_logBuf (s : State) (f : Fw → Fw) : (modFw s f).logBuf = s.logBuf := rfl
@[simp] theorem modFw_logFlash (s : State) (f : Fw → Fw) : (modFw s f).logFlash = s.logFlash := rfl
@[simp] theorem modFw_totals (s : State) (f : Fw → Fw) : (modFw s f).totals = s.totals := rfl
@[simp] theorem modFw_totalsCold (s : State) (f : Fw → Fw) : (modFw s f).totalsCold = s.totalsCold := rfl
@[simp] theorem modFw_coals (s : State) (f : Fw → Fw) : (modFw s f).coals = s.coals := rfl
@[simp] theorem modFw_survey (s : State) (f : Fw → Fw) : (modFw s f).survey = s.survey := rfl
@[simp] theorem modFw_hbms (s : State) (f : Fw → Fw) : (modFw s f).hbms = s.hbms := rfl
@[simp] theorem modFw_hbmOwner (s : State) (f : Fw → Fw) : (modFw s f).hbmOwner = s.hbmOwner := rfl
@[simp] theorem modFw_cntUnmapped (s : State) (f : Fw → Fw) : (modFw s f).cntUnmapped = s.cntUnmapped := rfl
@[simp] theorem modFw_partUnmapped (s : State) (f : Fw → Fw) : (modFw s f).partUnmapped = s.partUnmapped := rfl
@[simp] theorem modFw_cntDenied (s : State) (f : Fw → Fw) : (modFw s f).cntDenied = s.cntDenied := rfl
@[simp] theorem modFw_cntSize (s : State) (f : Fw → Fw) : (modFw s f).cntSize = s.cntSize := rfl
@[simp] theorem modFw_cntMcDepth (s : State) (f : Fw → Fw) : (modFw s f).cntMcDepth = s.cntMcDepth := rfl
@[simp] theorem modFw_links (s : State) (f : Fw → Fw) : (modFw s f).links = s.links := rfl
@[simp] theorem modFw_hosts (s : State) (f : Fw → Fw) : (modFw s f).hosts = s.hosts := rfl
@[simp] theorem modFw_launches (s : State) (f : Fw → Fw) : (modFw s f).launches = s.launches := rfl
@[simp] theorem modFw_nextOrder (s : State) (f : Fw → Fw) : (modFw s f).nextOrder = s.nextOrder := rfl
@[simp] theorem modFw_cfg (s : State) (f : Fw → Fw) : (modFw s f).cfg = s.cfg := rfl
@[simp] theorem modFw_seams (s : State) (f : Fw → Fw) : (modFw s f).seams = s.seams := rfl
@[simp] theorem modFw_badEntries (s : State) (f : Fw → Fw) : (modFw s f).badEntries = s.badEntries := rfl
@[simp] theorem modFw_shared (s : State) (f : Fw → Fw) : (modFw s f).shared = s.shared := rfl
@[simp] theorem modFw_clk (s : State) (f : Fw → Fw) : (modFw s f).clk = s.clk := rfl
@[simp] theorem modFw_ech (s : State) (f : Fw → Fw) : (modFw s f).ech = s.ech := rfl
@[simp] theorem modFw_pwr (s : State) (f : Fw → Fw) : (modFw s f).pwr = s.pwr := rfl
@[simp] theorem modFw_wake (s : State) (f : Fw → Fw) : (modFw s f).wake = s.wake := rfl
@[simp] theorem modFw_mgmt (s : State) (f : Fw → Fw) : (modFw s f).mgmt = s.mgmt := rfl
@[simp] theorem modStack_pending (s : State) (i : Nat) (f : Stack → Stack) : (modStack s i f).pending = s.pending := rfl
@[simp] theorem modStack_now (s : State) (i : Nat) (f : Stack → Stack) : (modStack s i f).now = s.now := rfl
@[simp] theorem modStack_fresh (s : State) (i : Nat) (f : Stack → Stack) : (modStack s i f).fresh = s.fresh := rfl
@[simp] theorem modStack_out (s : State) (i : Nat) (f : Stack → Stack) : (modStack s i f).out = s.out := rfl
@[simp] theorem modStack_mem (s : State) (i : Nat) (f : Stack → Stack) : (modStack s i f).mem = s.mem := rfl
@[simp] theorem modStack_marks (s : State) (i : Nat) (f : Stack → Stack) : (modStack s i f).marks = s.marks := rfl
@[simp] theorem modStack_rowErrs (s : State) (i : Nat) (f : Stack → Stack) : (modStack s i f).rowErrs = s.rowErrs := rfl
@[simp] theorem modStack_cores (s : State) (i : Nat) (f : Stack → Stack) : (modStack s i f).cores = s.cores := rfl
@[simp] theorem modStack_fields (s : State) (i : Nat) (f : Stack → Stack) : (modStack s i f).fields = s.fields := rfl
@[simp] theorem modStack_groups (s : State) (i : Nat) (f : Stack → Stack) : (modStack s i f).groups = s.groups := rfl
@[simp] theorem modStack_parts (s : State) (i : Nat) (f : Stack → Stack) : (modStack s i f).parts = s.parts := rfl
@[simp] theorem modStack_sends (s : State) (i : Nat) (f : Stack → Stack) : (modStack s i f).sends = s.sends := rfl
@[simp] theorem modStack_mchans (s : State) (i : Nat) (f : Stack → Stack) : (modStack s i f).mchans = s.mchans := rfl
@[simp] theorem modStack_chanOwner (s : State) (i : Nat) (f : Stack → Stack) : (modStack s i f).chanOwner = s.chanOwner := rfl
@[simp] theorem modStack_lockOwner (s : State) (i : Nat) (f : Stack → Stack) : (modStack s i f).lockOwner = s.lockOwner := rfl
@[simp] theorem modStack_locks (s : State) (i : Nat) (f : Stack → Stack) : (modStack s i f).locks = s.locks := rfl
@[simp] theorem modStack_lockReplies (s : State) (i : Nat) (f : Stack → Stack) : (modStack s i f).lockReplies = s.lockReplies := rfl
@[simp] theorem modStack_reports (s : State) (i : Nat) (f : Stack → Stack) : (modStack s i f).reports = s.reports := rfl
@[simp] theorem modStack_devId (s : State) (i : Nat) (f : Stack → Stack) : (modStack s i f).devId = s.devId := rfl
@[simp] theorem modStack_dev (s : State) (i : Nat) (f : Stack → Stack) : (modStack s i f).dev = s.dev := rfl
@[simp] theorem modStack_stage (s : State) (i : Nat) (f : Stack → Stack) : (modStack s i f).stage = s.stage := rfl
@[simp] theorem modStack_echoM (s : State) (i : Nat) (f : Stack → Stack) : (modStack s i f).echoM = s.echoM := rfl
@[simp] theorem modStack_sessions (s : State) (i : Nat) (f : Stack → Stack) : (modStack s i f).sessions = s.sessions := rfl
@[simp] theorem modStack_lastSeq (s : State) (i : Nat) (f : Stack → Stack) : (modStack s i f).lastSeq = s.lastSeq := rfl
@[simp] theorem modStack_logBuf (s : State) (i : Nat) (f : Stack → Stack) : (modStack s i f).logBuf = s.logBuf := rfl
@[simp] theorem modStack_logFlash (s : State) (i : Nat) (f : Stack → Stack) : (modStack s i f).logFlash = s.logFlash := rfl
@[simp] theorem modStack_totals (s : State) (i : Nat) (f : Stack → Stack) : (modStack s i f).totals = s.totals := rfl
@[simp] theorem modStack_totalsCold (s : State) (i : Nat) (f : Stack → Stack) : (modStack s i f).totalsCold = s.totalsCold := rfl
@[simp] theorem modStack_coals (s : State) (i : Nat) (f : Stack → Stack) : (modStack s i f).coals = s.coals := rfl
@[simp] theorem modStack_survey (s : State) (i : Nat) (f : Stack → Stack) : (modStack s i f).survey = s.survey := rfl
@[simp] theorem modStack_hbmOwner (s : State) (i : Nat) (f : Stack → Stack) : (modStack s i f).hbmOwner = s.hbmOwner := rfl
@[simp] theorem modStack_cntUnmapped (s : State) (i : Nat) (f : Stack → Stack) : (modStack s i f).cntUnmapped = s.cntUnmapped := rfl
@[simp] theorem modStack_partUnmapped (s : State) (i : Nat) (f : Stack → Stack) : (modStack s i f).partUnmapped = s.partUnmapped := rfl
@[simp] theorem modStack_cntDenied (s : State) (i : Nat) (f : Stack → Stack) : (modStack s i f).cntDenied = s.cntDenied := rfl
@[simp] theorem modStack_cntSize (s : State) (i : Nat) (f : Stack → Stack) : (modStack s i f).cntSize = s.cntSize := rfl
@[simp] theorem modStack_cntMcDepth (s : State) (i : Nat) (f : Stack → Stack) : (modStack s i f).cntMcDepth = s.cntMcDepth := rfl
@[simp] theorem modStack_links (s : State) (i : Nat) (f : Stack → Stack) : (modStack s i f).links = s.links := rfl
@[simp] theorem modStack_hosts (s : State) (i : Nat) (f : Stack → Stack) : (modStack s i f).hosts = s.hosts := rfl
@[simp] theorem modStack_launches (s : State) (i : Nat) (f : Stack → Stack) : (modStack s i f).launches = s.launches := rfl
@[simp] theorem modStack_nextOrder (s : State) (i : Nat) (f : Stack → Stack) : (modStack s i f).nextOrder = s.nextOrder := rfl
@[simp] theorem modStack_cfg (s : State) (i : Nat) (f : Stack → Stack) : (modStack s i f).cfg = s.cfg := rfl
@[simp] theorem modStack_seams (s : State) (i : Nat) (f : Stack → Stack) : (modStack s i f).seams = s.seams := rfl
@[simp] theorem modStack_badEntries (s : State) (i : Nat) (f : Stack → Stack) : (modStack s i f).badEntries = s.badEntries := rfl
@[simp] theorem modStack_shared (s : State) (i : Nat) (f : Stack → Stack) : (modStack s i f).shared = s.shared := rfl
@[simp] theorem modStack_clk (s : State) (i : Nat) (f : Stack → Stack) : (modStack s i f).clk = s.clk := rfl
@[simp] theorem modStack_ech (s : State) (i : Nat) (f : Stack → Stack) : (modStack s i f).ech = s.ech := rfl
@[simp] theorem modStack_pwr (s : State) (i : Nat) (f : Stack → Stack) : (modStack s i f).pwr = s.pwr := rfl
@[simp] theorem modStack_wake (s : State) (i : Nat) (f : Stack → Stack) : (modStack s i f).wake = s.wake := rfl
@[simp] theorem modStack_mgmt (s : State) (i : Nat) (f : Stack → Stack) : (modStack s i f).mgmt = s.mgmt := rfl
@[simp] theorem modStack_fw (s : State) (i : Nat) (f : Stack → Stack) : (modStack s i f).fw = s.fw := rfl
@[simp] theorem emit_pending (s : State) (o : Output) : (emit s o).pending = s.pending := rfl
@[simp] theorem emit_now (s : State) (o : Output) : (emit s o).now = s.now := rfl
@[simp] theorem emit_fresh (s : State) (o : Output) : (emit s o).fresh = s.fresh := rfl
@[simp] theorem emit_mem (s : State) (o : Output) : (emit s o).mem = s.mem := rfl
@[simp] theorem emit_marks (s : State) (o : Output) : (emit s o).marks = s.marks := rfl
@[simp] theorem emit_rowErrs (s : State) (o : Output) : (emit s o).rowErrs = s.rowErrs := rfl
@[simp] theorem emit_cores (s : State) (o : Output) : (emit s o).cores = s.cores := rfl
@[simp] theorem emit_fields (s : State) (o : Output) : (emit s o).fields = s.fields := rfl
@[simp] theorem emit_groups (s : State) (o : Output) : (emit s o).groups = s.groups := rfl
@[simp] theorem emit_parts (s : State) (o : Output) : (emit s o).parts = s.parts := rfl
@[simp] theorem emit_sends (s : State) (o : Output) : (emit s o).sends = s.sends := rfl
@[simp] theorem emit_mchans (s : State) (o : Output) : (emit s o).mchans = s.mchans := rfl
@[simp] theorem emit_chanOwner (s : State) (o : Output) : (emit s o).chanOwner = s.chanOwner := rfl
@[simp] theorem emit_lockOwner (s : State) (o : Output) : (emit s o).lockOwner = s.lockOwner := rfl
@[simp] theorem emit_locks (s : State) (o : Output) : (emit s o).locks = s.locks := rfl
@[simp] theorem emit_lockReplies (s : State) (o : Output) : (emit s o).lockReplies = s.lockReplies := rfl
@[simp] theorem emit_reports (s : State) (o : Output) : (emit s o).reports = s.reports := rfl
@[simp] theorem emit_devId (s : State) (o : Output) : (emit s o).devId = s.devId := rfl
@[simp] theorem emit_dev (s : State) (o : Output) : (emit s o).dev = s.dev := rfl
@[simp] theorem emit_stage (s : State) (o : Output) : (emit s o).stage = s.stage := rfl
@[simp] theorem emit_echoM (s : State) (o : Output) : (emit s o).echoM = s.echoM := rfl
@[simp] theorem emit_sessions (s : State) (o : Output) : (emit s o).sessions = s.sessions := rfl
@[simp] theorem emit_lastSeq (s : State) (o : Output) : (emit s o).lastSeq = s.lastSeq := rfl
@[simp] theorem emit_logBuf (s : State) (o : Output) : (emit s o).logBuf = s.logBuf := rfl
@[simp] theorem emit_logFlash (s : State) (o : Output) : (emit s o).logFlash = s.logFlash := rfl
@[simp] theorem emit_totals (s : State) (o : Output) : (emit s o).totals = s.totals := rfl
@[simp] theorem emit_totalsCold (s : State) (o : Output) : (emit s o).totalsCold = s.totalsCold := rfl
@[simp] theorem emit_coals (s : State) (o : Output) : (emit s o).coals = s.coals := rfl
@[simp] theorem emit_survey (s : State) (o : Output) : (emit s o).survey = s.survey := rfl
@[simp] theorem emit_hbms (s : State) (o : Output) : (emit s o).hbms = s.hbms := rfl
@[simp] theorem emit_hbmOwner (s : State) (o : Output) : (emit s o).hbmOwner = s.hbmOwner := rfl
@[simp] theorem emit_cntUnmapped (s : State) (o : Output) : (emit s o).cntUnmapped = s.cntUnmapped := rfl
@[simp] theorem emit_partUnmapped (s : State) (o : Output) : (emit s o).partUnmapped = s.partUnmapped := rfl
@[simp] theorem emit_cntDenied (s : State) (o : Output) : (emit s o).cntDenied = s.cntDenied := rfl
@[simp] theorem emit_cntSize (s : State) (o : Output) : (emit s o).cntSize = s.cntSize := rfl
@[simp] theorem emit_cntMcDepth (s : State) (o : Output) : (emit s o).cntMcDepth = s.cntMcDepth := rfl
@[simp] theorem emit_links (s : State) (o : Output) : (emit s o).links = s.links := rfl
@[simp] theorem emit_hosts (s : State) (o : Output) : (emit s o).hosts = s.hosts := rfl
@[simp] theorem emit_launches (s : State) (o : Output) : (emit s o).launches = s.launches := rfl
@[simp] theorem emit_nextOrder (s : State) (o : Output) : (emit s o).nextOrder = s.nextOrder := rfl
@[simp] theorem emit_cfg (s : State) (o : Output) : (emit s o).cfg = s.cfg := rfl
@[simp] theorem emit_seams (s : State) (o : Output) : (emit s o).seams = s.seams := rfl
@[simp] theorem emit_badEntries (s : State) (o : Output) : (emit s o).badEntries = s.badEntries := rfl
@[simp] theorem emit_shared (s : State) (o : Output) : (emit s o).shared = s.shared := rfl
@[simp] theorem emit_clk (s : State) (o : Output) : (emit s o).clk = s.clk := rfl
@[simp] theorem emit_ech (s : State) (o : Output) : (emit s o).ech = s.ech := rfl
@[simp] theorem emit_pwr (s : State) (o : Output) : (emit s o).pwr = s.pwr := rfl
@[simp] theorem emit_wake (s : State) (o : Output) : (emit s o).wake = s.wake := rfl
@[simp] theorem emit_mgmt (s : State) (o : Output) : (emit s o).mgmt = s.mgmt := rfl
@[simp] theorem emit_fw (s : State) (o : Output) : (emit s o).fw = s.fw := rfl
@[simp] theorem setReg_pending (s : State) (c : Nat) (r : Reg) (v : W64) : (setReg s c r v).pending = s.pending := rfl
@[simp] theorem setReg_now (s : State) (c : Nat) (r : Reg) (v : W64) : (setReg s c r v).now = s.now := rfl
@[simp] theorem setReg_fresh (s : State) (c : Nat) (r : Reg) (v : W64) : (setReg s c r v).fresh = s.fresh := rfl
@[simp] theorem setReg_out (s : State) (c : Nat) (r : Reg) (v : W64) : (setReg s c r v).out = s.out := rfl
@[simp] theorem setReg_mem (s : State) (c : Nat) (r : Reg) (v : W64) : (setReg s c r v).mem = s.mem := rfl
@[simp] theorem setReg_marks (s : State) (c : Nat) (r : Reg) (v : W64) : (setReg s c r v).marks = s.marks := rfl
@[simp] theorem setReg_rowErrs (s : State) (c : Nat) (r : Reg) (v : W64) : (setReg s c r v).rowErrs = s.rowErrs := rfl
@[simp] theorem setReg_fields (s : State) (c : Nat) (r : Reg) (v : W64) : (setReg s c r v).fields = s.fields := rfl
@[simp] theorem setReg_groups (s : State) (c : Nat) (r : Reg) (v : W64) : (setReg s c r v).groups = s.groups := rfl
@[simp] theorem setReg_parts (s : State) (c : Nat) (r : Reg) (v : W64) : (setReg s c r v).parts = s.parts := rfl
@[simp] theorem setReg_sends (s : State) (c : Nat) (r : Reg) (v : W64) : (setReg s c r v).sends = s.sends := rfl
@[simp] theorem setReg_mchans (s : State) (c : Nat) (r : Reg) (v : W64) : (setReg s c r v).mchans = s.mchans := rfl
@[simp] theorem setReg_chanOwner (s : State) (c : Nat) (r : Reg) (v : W64) : (setReg s c r v).chanOwner = s.chanOwner := rfl
@[simp] theorem setReg_lockOwner (s : State) (c : Nat) (r : Reg) (v : W64) : (setReg s c r v).lockOwner = s.lockOwner := rfl
@[simp] theorem setReg_locks (s : State) (c : Nat) (r : Reg) (v : W64) : (setReg s c r v).locks = s.locks := rfl
@[simp] theorem setReg_lockReplies (s : State) (c : Nat) (r : Reg) (v : W64) : (setReg s c r v).lockReplies = s.lockReplies := rfl
@[simp] theorem setReg_reports (s : State) (c : Nat) (r : Reg) (v : W64) : (setReg s c r v).reports = s.reports := rfl
@[simp] theorem setReg_devId (s : State) (c : Nat) (r : Reg) (v : W64) : (setReg s c r v).devId = s.devId := rfl
@[simp] theorem setReg_dev (s : State) (c : Nat) (r : Reg) (v : W64) : (setReg s c r v).dev = s.dev := rfl
@[simp] theorem setReg_stage (s : State) (c : Nat) (r : Reg) (v : W64) : (setReg s c r v).stage = s.stage := rfl
@[simp] theorem setReg_echoM (s : State) (c : Nat) (r : Reg) (v : W64) : (setReg s c r v).echoM = s.echoM := rfl
@[simp] theorem setReg_sessions (s : State) (c : Nat) (r : Reg) (v : W64) : (setReg s c r v).sessions = s.sessions := rfl
@[simp] theorem setReg_lastSeq (s : State) (c : Nat) (r : Reg) (v : W64) : (setReg s c r v).lastSeq = s.lastSeq := rfl
@[simp] theorem setReg_logBuf (s : State) (c : Nat) (r : Reg) (v : W64) : (setReg s c r v).logBuf = s.logBuf := rfl
@[simp] theorem setReg_logFlash (s : State) (c : Nat) (r : Reg) (v : W64) : (setReg s c r v).logFlash = s.logFlash := rfl
@[simp] theorem setReg_totals (s : State) (c : Nat) (r : Reg) (v : W64) : (setReg s c r v).totals = s.totals := rfl
@[simp] theorem setReg_totalsCold (s : State) (c : Nat) (r : Reg) (v : W64) : (setReg s c r v).totalsCold = s.totalsCold := rfl
@[simp] theorem setReg_coals (s : State) (c : Nat) (r : Reg) (v : W64) : (setReg s c r v).coals = s.coals := rfl
@[simp] theorem setReg_survey (s : State) (c : Nat) (r : Reg) (v : W64) : (setReg s c r v).survey = s.survey := rfl
@[simp] theorem setReg_hbms (s : State) (c : Nat) (r : Reg) (v : W64) : (setReg s c r v).hbms = s.hbms := rfl
@[simp] theorem setReg_hbmOwner (s : State) (c : Nat) (r : Reg) (v : W64) : (setReg s c r v).hbmOwner = s.hbmOwner := rfl
@[simp] theorem setReg_cntUnmapped (s : State) (c : Nat) (r : Reg) (v : W64) : (setReg s c r v).cntUnmapped = s.cntUnmapped := rfl
@[simp] theorem setReg_partUnmapped (s : State) (c : Nat) (r : Reg) (v : W64) : (setReg s c r v).partUnmapped = s.partUnmapped := rfl
@[simp] theorem setReg_cntDenied (s : State) (c : Nat) (r : Reg) (v : W64) : (setReg s c r v).cntDenied = s.cntDenied := rfl
@[simp] theorem setReg_cntSize (s : State) (c : Nat) (r : Reg) (v : W64) : (setReg s c r v).cntSize = s.cntSize := rfl
@[simp] theorem setReg_cntMcDepth (s : State) (c : Nat) (r : Reg) (v : W64) : (setReg s c r v).cntMcDepth = s.cntMcDepth := rfl
@[simp] theorem setReg_links (s : State) (c : Nat) (r : Reg) (v : W64) : (setReg s c r v).links = s.links := rfl
@[simp] theorem setReg_hosts (s : State) (c : Nat) (r : Reg) (v : W64) : (setReg s c r v).hosts = s.hosts := rfl
@[simp] theorem setReg_launches (s : State) (c : Nat) (r : Reg) (v : W64) : (setReg s c r v).launches = s.launches := rfl
@[simp] theorem setReg_nextOrder (s : State) (c : Nat) (r : Reg) (v : W64) : (setReg s c r v).nextOrder = s.nextOrder := rfl
@[simp] theorem setReg_cfg (s : State) (c : Nat) (r : Reg) (v : W64) : (setReg s c r v).cfg = s.cfg := rfl
@[simp] theorem setReg_seams (s : State) (c : Nat) (r : Reg) (v : W64) : (setReg s c r v).seams = s.seams := rfl
@[simp] theorem setReg_badEntries (s : State) (c : Nat) (r : Reg) (v : W64) : (setReg s c r v).badEntries = s.badEntries := rfl
@[simp] theorem setReg_shared (s : State) (c : Nat) (r : Reg) (v : W64) : (setReg s c r v).shared = s.shared := rfl
@[simp] theorem setReg_clk (s : State) (c : Nat) (r : Reg) (v : W64) : (setReg s c r v).clk = s.clk := rfl
@[simp] theorem setReg_ech (s : State) (c : Nat) (r : Reg) (v : W64) : (setReg s c r v).ech = s.ech := rfl
@[simp] theorem setReg_pwr (s : State) (c : Nat) (r : Reg) (v : W64) : (setReg s c r v).pwr = s.pwr := rfl
@[simp] theorem setReg_wake (s : State) (c : Nat) (r : Reg) (v : W64) : (setReg s c r v).wake = s.wake := rfl
@[simp] theorem setReg_mgmt (s : State) (c : Nat) (r : Reg) (v : W64) : (setReg s c r v).mgmt = s.mgmt := rfl
@[simp] theorem setReg_fw (s : State) (c : Nat) (r : Reg) (v : W64) : (setReg s c r v).fw = s.fw := rfl
@[simp] theorem advance_pending (s : State) (c : Nat) : (advance s c).pending = s.pending := rfl
@[simp] theorem advance_now (s : State) (c : Nat) : (advance s c).now = s.now := rfl
@[simp] theorem advance_fresh (s : State) (c : Nat) : (advance s c).fresh = s.fresh := rfl
@[simp] theorem advance_out (s : State) (c : Nat) : (advance s c).out = s.out := rfl
@[simp] theorem advance_mem (s : State) (c : Nat) : (advance s c).mem = s.mem := rfl
@[simp] theorem advance_marks (s : State) (c : Nat) : (advance s c).marks = s.marks := rfl
@[simp] theorem advance_rowErrs (s : State) (c : Nat) : (advance s c).rowErrs = s.rowErrs := rfl
@[simp] theorem advance_fields (s : State) (c : Nat) : (advance s c).fields = s.fields := rfl
@[simp] theorem advance_groups (s : State) (c : Nat) : (advance s c).groups = s.groups := rfl
@[simp] theorem advance_parts (s : State) (c : Nat) : (advance s c).parts = s.parts := rfl
@[simp] theorem advance_sends (s : State) (c : Nat) : (advance s c).sends = s.sends := rfl
@[simp] theorem advance_mchans (s : State) (c : Nat) : (advance s c).mchans = s.mchans := rfl
@[simp] theorem advance_chanOwner (s : State) (c : Nat) : (advance s c).chanOwner = s.chanOwner := rfl
@[simp] theorem advance_lockOwner (s : State) (c : Nat) : (advance s c).lockOwner = s.lockOwner := rfl
@[simp] theorem advance_locks (s : State) (c : Nat) : (advance s c).locks = s.locks := rfl
@[simp] theorem advance_lockReplies (s : State) (c : Nat) : (advance s c).lockReplies = s.lockReplies := rfl
@[simp] theorem advance_reports (s : State) (c : Nat) : (advance s c).reports = s.reports := rfl
@[simp] theorem advance_devId (s : State) (c : Nat) : (advance s c).devId = s.devId := rfl
@[simp] theorem advance_dev (s : State) (c : Nat) : (advance s c).dev = s.dev := rfl
@[simp] theorem advance_stage (s : State) (c : Nat) : (advance s c).stage = s.stage := rfl
@[simp] theorem advance_echoM (s : State) (c : Nat) : (advance s c).echoM = s.echoM := rfl
@[simp] theorem advance_sessions (s : State) (c : Nat) : (advance s c).sessions = s.sessions := rfl
@[simp] theorem advance_lastSeq (s : State) (c : Nat) : (advance s c).lastSeq = s.lastSeq := rfl
@[simp] theorem advance_logBuf (s : State) (c : Nat) : (advance s c).logBuf = s.logBuf := rfl
@[simp] theorem advance_logFlash (s : State) (c : Nat) : (advance s c).logFlash = s.logFlash := rfl
@[simp] theorem advance_totals (s : State) (c : Nat) : (advance s c).totals = s.totals := rfl
@[simp] theorem advance_totalsCold (s : State) (c : Nat) : (advance s c).totalsCold = s.totalsCold := rfl
@[simp] theorem advance_coals (s : State) (c : Nat) : (advance s c).coals = s.coals := rfl
@[simp] theorem advance_survey (s : State) (c : Nat) : (advance s c).survey = s.survey := rfl
@[simp] theorem advance_hbms (s : State) (c : Nat) : (advance s c).hbms = s.hbms := rfl
@[simp] theorem advance_hbmOwner (s : State) (c : Nat) : (advance s c).hbmOwner = s.hbmOwner := rfl
@[simp] theorem advance_cntUnmapped (s : State) (c : Nat) : (advance s c).cntUnmapped = s.cntUnmapped := rfl
@[simp] theorem advance_partUnmapped (s : State) (c : Nat) : (advance s c).partUnmapped = s.partUnmapped := rfl
@[simp] theorem advance_cntDenied (s : State) (c : Nat) : (advance s c).cntDenied = s.cntDenied := rfl
@[simp] theorem advance_cntSize (s : State) (c : Nat) : (advance s c).cntSize = s.cntSize := rfl
@[simp] theorem advance_cntMcDepth (s : State) (c : Nat) : (advance s c).cntMcDepth = s.cntMcDepth := rfl
@[simp] theorem advance_links (s : State) (c : Nat) : (advance s c).links = s.links := rfl
@[simp] theorem advance_hosts (s : State) (c : Nat) : (advance s c).hosts = s.hosts := rfl
@[simp] theorem advance_launches (s : State) (c : Nat) : (advance s c).launches = s.launches := rfl
@[simp] theorem advance_nextOrder (s : State) (c : Nat) : (advance s c).nextOrder = s.nextOrder := rfl
@[simp] theorem advance_cfg (s : State) (c : Nat) : (advance s c).cfg = s.cfg := rfl
@[simp] theorem advance_seams (s : State) (c : Nat) : (advance s c).seams = s.seams := rfl
@[simp] theorem advance_badEntries (s : State) (c : Nat) : (advance s c).badEntries = s.badEntries := rfl
@[simp] theorem advance_shared (s : State) (c : Nat) : (advance s c).shared = s.shared := rfl
@[simp] theorem advance_clk (s : State) (c : Nat) : (advance s c).clk = s.clk := rfl
@[simp] theorem advance_ech (s : State) (c : Nat) : (advance s c).ech = s.ech := rfl
@[simp] theorem advance_pwr (s : State) (c : Nat) : (advance s c).pwr = s.pwr := rfl
@[simp] theorem advance_wake (s : State) (c : Nat) : (advance s c).wake = s.wake := rfl
@[simp] theorem advance_mgmt (s : State) (c : Nat) : (advance s c).mgmt = s.mgmt := rfl
@[simp] theorem advance_fw (s : State) (c : Nat) : (advance s c).fw = s.fw := rfl
@[simp] theorem block_pending (s : State) (c : Nat) (b : Blk) : (block s c b).pending = s.pending := rfl
@[simp] theorem block_now (s : State) (c : Nat) (b : Blk) : (block s c b).now = s.now := rfl
@[simp] theorem block_fresh (s : State) (c : Nat) (b : Blk) : (block s c b).fresh = s.fresh := rfl
@[simp] theorem block_out (s : State) (c : Nat) (b : Blk) : (block s c b).out = s.out := rfl
@[simp] theorem block_mem (s : State) (c : Nat) (b : Blk) : (block s c b).mem = s.mem := rfl
@[simp] theorem block_marks (s : State) (c : Nat) (b : Blk) : (block s c b).marks = s.marks := rfl
@[simp] theorem block_rowErrs (s : State) (c : Nat) (b : Blk) : (block s c b).rowErrs = s.rowErrs := rfl
@[simp] theorem block_fields (s : State) (c : Nat) (b : Blk) : (block s c b).fields = s.fields := rfl
@[simp] theorem block_groups (s : State) (c : Nat) (b : Blk) : (block s c b).groups = s.groups := rfl
@[simp] theorem block_parts (s : State) (c : Nat) (b : Blk) : (block s c b).parts = s.parts := rfl
@[simp] theorem block_sends (s : State) (c : Nat) (b : Blk) : (block s c b).sends = s.sends := rfl
@[simp] theorem block_mchans (s : State) (c : Nat) (b : Blk) : (block s c b).mchans = s.mchans := rfl
@[simp] theorem block_chanOwner (s : State) (c : Nat) (b : Blk) : (block s c b).chanOwner = s.chanOwner := rfl
@[simp] theorem block_lockOwner (s : State) (c : Nat) (b : Blk) : (block s c b).lockOwner = s.lockOwner := rfl
@[simp] theorem block_locks (s : State) (c : Nat) (b : Blk) : (block s c b).locks = s.locks := rfl
@[simp] theorem block_lockReplies (s : State) (c : Nat) (b : Blk) : (block s c b).lockReplies = s.lockReplies := rfl
@[simp] theorem block_reports (s : State) (c : Nat) (b : Blk) : (block s c b).reports = s.reports := rfl
@[simp] theorem block_devId (s : State) (c : Nat) (b : Blk) : (block s c b).devId = s.devId := rfl
@[simp] theorem block_dev (s : State) (c : Nat) (b : Blk) : (block s c b).dev = s.dev := rfl
@[simp] theorem block_stage (s : State) (c : Nat) (b : Blk) : (block s c b).stage = s.stage := rfl
@[simp] theorem block_echoM (s : State) (c : Nat) (b : Blk) : (block s c b).echoM = s.echoM := rfl
@[simp] theorem block_sessions (s : State) (c : Nat) (b : Blk) : (block s c b).sessions = s.sessions := rfl
@[simp] theorem block_lastSeq (s : State) (c : Nat) (b : Blk) : (block s c b).lastSeq = s.lastSeq := rfl
@[simp] theorem block_logBuf (s : State) (c : Nat) (b : Blk) : (block s c b).logBuf = s.logBuf := rfl
@[simp] theorem block_logFlash (s : State) (c : Nat) (b : Blk) : (block s c b).logFlash = s.logFlash := rfl
@[simp] theorem block_totals (s : State) (c : Nat) (b : Blk) : (block s c b).totals = s.totals := rfl
@[simp] theorem block_totalsCold (s : State) (c : Nat) (b : Blk) : (block s c b).totalsCold = s.totalsCold := rfl
@[simp] theorem block_coals (s : State) (c : Nat) (b : Blk) : (block s c b).coals = s.coals := rfl
@[simp] theorem block_survey (s : State) (c : Nat) (b : Blk) : (block s c b).survey = s.survey := rfl
@[simp] theorem block_hbms (s : State) (c : Nat) (b : Blk) : (block s c b).hbms = s.hbms := rfl
@[simp] theorem block_hbmOwner (s : State) (c : Nat) (b : Blk) : (block s c b).hbmOwner = s.hbmOwner := rfl
@[simp] theorem block_cntUnmapped (s : State) (c : Nat) (b : Blk) : (block s c b).cntUnmapped = s.cntUnmapped := rfl
@[simp] theorem block_partUnmapped (s : State) (c : Nat) (b : Blk) : (block s c b).partUnmapped = s.partUnmapped := rfl
@[simp] theorem block_cntDenied (s : State) (c : Nat) (b : Blk) : (block s c b).cntDenied = s.cntDenied := rfl
@[simp] theorem block_cntSize (s : State) (c : Nat) (b : Blk) : (block s c b).cntSize = s.cntSize := rfl
@[simp] theorem block_cntMcDepth (s : State) (c : Nat) (b : Blk) : (block s c b).cntMcDepth = s.cntMcDepth := rfl
@[simp] theorem block_links (s : State) (c : Nat) (b : Blk) : (block s c b).links = s.links := rfl
@[simp] theorem block_hosts (s : State) (c : Nat) (b : Blk) : (block s c b).hosts = s.hosts := rfl
@[simp] theorem block_launches (s : State) (c : Nat) (b : Blk) : (block s c b).launches = s.launches := rfl
@[simp] theorem block_nextOrder (s : State) (c : Nat) (b : Blk) : (block s c b).nextOrder = s.nextOrder := rfl
@[simp] theorem block_cfg (s : State) (c : Nat) (b : Blk) : (block s c b).cfg = s.cfg := rfl
@[simp] theorem block_seams (s : State) (c : Nat) (b : Blk) : (block s c b).seams = s.seams := rfl
@[simp] theorem block_badEntries (s : State) (c : Nat) (b : Blk) : (block s c b).badEntries = s.badEntries := rfl
@[simp] theorem block_shared (s : State) (c : Nat) (b : Blk) : (block s c b).shared = s.shared := rfl
@[simp] theorem block_clk (s : State) (c : Nat) (b : Blk) : (block s c b).clk = s.clk := rfl
@[simp] theorem block_ech (s : State) (c : Nat) (b : Blk) : (block s c b).ech = s.ech := rfl
@[simp] theorem block_pwr (s : State) (c : Nat) (b : Blk) : (block s c b).pwr = s.pwr := rfl
@[simp] theorem block_wake (s : State) (c : Nat) (b : Blk) : (block s c b).wake = s.wake := rfl
@[simp] theorem block_mgmt (s : State) (c : Nat) (b : Blk) : (block s c b).mgmt = s.mgmt := rfl
@[simp] theorem block_fw (s : State) (c : Nat) (b : Blk) : (block s c b).fw = s.fw := rfl
@[simp] theorem spPut_pending (s : State) (c off : Nat) (b : Byte) : (spPut s c off b).pending = s.pending := rfl
@[simp] theorem spPut_now (s : State) (c off : Nat) (b : Byte) : (spPut s c off b).now = s.now := rfl
@[simp] theorem spPut_fresh (s : State) (c off : Nat) (b : Byte) : (spPut s c off b).fresh = s.fresh := rfl
@[simp] theorem spPut_out (s : State) (c off : Nat) (b : Byte) : (spPut s c off b).out = s.out := rfl
@[simp] theorem spPut_marks (s : State) (c off : Nat) (b : Byte) : (spPut s c off b).marks = s.marks := rfl
@[simp] theorem spPut_rowErrs (s : State) (c off : Nat) (b : Byte) : (spPut s c off b).rowErrs = s.rowErrs := rfl
@[simp] theorem spPut_cores (s : State) (c off : Nat) (b : Byte) : (spPut s c off b).cores = s.cores := rfl
@[simp] theorem spPut_fields (s : State) (c off : Nat) (b : Byte) : (spPut s c off b).fields = s.fields := rfl
@[simp] theorem spPut_groups (s : State) (c off : Nat) (b : Byte) : (spPut s c off b).groups = s.groups := rfl
@[simp] theorem spPut_parts (s : State) (c off : Nat) (b : Byte) : (spPut s c off b).parts = s.parts := rfl
@[simp] theorem spPut_sends (s : State) (c off : Nat) (b : Byte) : (spPut s c off b).sends = s.sends := rfl
@[simp] theorem spPut_mchans (s : State) (c off : Nat) (b : Byte) : (spPut s c off b).mchans = s.mchans := rfl
@[simp] theorem spPut_chanOwner (s : State) (c off : Nat) (b : Byte) : (spPut s c off b).chanOwner = s.chanOwner := rfl
@[simp] theorem spPut_lockOwner (s : State) (c off : Nat) (b : Byte) : (spPut s c off b).lockOwner = s.lockOwner := rfl
@[simp] theorem spPut_locks (s : State) (c off : Nat) (b : Byte) : (spPut s c off b).locks = s.locks := rfl
@[simp] theorem spPut_lockReplies (s : State) (c off : Nat) (b : Byte) : (spPut s c off b).lockReplies = s.lockReplies := rfl
@[simp] theorem spPut_reports (s : State) (c off : Nat) (b : Byte) : (spPut s c off b).reports = s.reports := rfl
@[simp] theorem spPut_devId (s : State) (c off : Nat) (b : Byte) : (spPut s c off b).devId = s.devId := rfl
@[simp] theorem spPut_dev (s : State) (c off : Nat) (b : Byte) : (spPut s c off b).dev = s.dev := rfl
@[simp] theorem spPut_stage (s : State) (c off : Nat) (b : Byte) : (spPut s c off b).stage = s.stage := rfl
@[simp] theorem spPut_echoM (s : State) (c off : Nat) (b : Byte) : (spPut s c off b).echoM = s.echoM := rfl
@[simp] theorem spPut_sessions (s : State) (c off : Nat) (b : Byte) : (spPut s c off b).sessions = s.sessions := rfl
@[simp] theorem spPut_lastSeq (s : State) (c off : Nat) (b : Byte) : (spPut s c off b).lastSeq = s.lastSeq := rfl
@[simp] theorem spPut_logBuf (s : State) (c off : Nat) (b : Byte) : (spPut s c off b).logBuf = s.logBuf := rfl
@[simp] theorem spPut_logFlash (s : State) (c off : Nat) (b : Byte) : (spPut s c off b).logFlash = s.logFlash := rfl
@[simp] theorem spPut_totals (s : State) (c off : Nat) (b : Byte) : (spPut s c off b).totals = s.totals := rfl
@[simp] theorem spPut_totalsCold (s : State) (c off : Nat) (b : Byte) : (spPut s c off b).totalsCold = s.totalsCold := rfl
@[simp] theorem spPut_coals (s : State) (c off : Nat) (b : Byte) : (spPut s c off b).coals = s.coals := rfl
@[simp] theorem spPut_survey (s : State) (c off : Nat) (b : Byte) : (spPut s c off b).survey = s.survey := rfl
@[simp] theorem spPut_hbms (s : State) (c off : Nat) (b : Byte) : (spPut s c off b).hbms = s.hbms := rfl
@[simp] theorem spPut_hbmOwner (s : State) (c off : Nat) (b : Byte) : (spPut s c off b).hbmOwner = s.hbmOwner := rfl
@[simp] theorem spPut_cntUnmapped (s : State) (c off : Nat) (b : Byte) : (spPut s c off b).cntUnmapped = s.cntUnmapped := rfl
@[simp] theorem spPut_partUnmapped (s : State) (c off : Nat) (b : Byte) : (spPut s c off b).partUnmapped = s.partUnmapped := rfl
@[simp] theorem spPut_cntDenied (s : State) (c off : Nat) (b : Byte) : (spPut s c off b).cntDenied = s.cntDenied := rfl
@[simp] theorem spPut_cntSize (s : State) (c off : Nat) (b : Byte) : (spPut s c off b).cntSize = s.cntSize := rfl
@[simp] theorem spPut_cntMcDepth (s : State) (c off : Nat) (b : Byte) : (spPut s c off b).cntMcDepth = s.cntMcDepth := rfl
@[simp] theorem spPut_links (s : State) (c off : Nat) (b : Byte) : (spPut s c off b).links = s.links := rfl
@[simp] theorem spPut_hosts (s : State) (c off : Nat) (b : Byte) : (spPut s c off b).hosts = s.hosts := rfl
@[simp] theorem spPut_launches (s : State) (c off : Nat) (b : Byte) : (spPut s c off b).launches = s.launches := rfl
@[simp] theorem spPut_nextOrder (s : State) (c off : Nat) (b : Byte) : (spPut s c off b).nextOrder = s.nextOrder := rfl
@[simp] theorem spPut_cfg (s : State) (c off : Nat) (b : Byte) : (spPut s c off b).cfg = s.cfg := rfl
@[simp] theorem spPut_seams (s : State) (c off : Nat) (b : Byte) : (spPut s c off b).seams = s.seams := rfl
@[simp] theorem spPut_badEntries (s : State) (c off : Nat) (b : Byte) : (spPut s c off b).badEntries = s.badEntries := rfl
@[simp] theorem spPut_shared (s : State) (c off : Nat) (b : Byte) : (spPut s c off b).shared = s.shared := rfl
@[simp] theorem spPut_clk (s : State) (c off : Nat) (b : Byte) : (spPut s c off b).clk = s.clk := rfl
@[simp] theorem spPut_ech (s : State) (c off : Nat) (b : Byte) : (spPut s c off b).ech = s.ech := rfl
@[simp] theorem spPut_pwr (s : State) (c off : Nat) (b : Byte) : (spPut s c off b).pwr = s.pwr := rfl
@[simp] theorem spPut_wake (s : State) (c off : Nat) (b : Byte) : (spPut s c off b).wake = s.wake := rfl
@[simp] theorem spPut_mgmt (s : State) (c off : Nat) (b : Byte) : (spPut s c off b).mgmt = s.mgmt := rfl
@[simp] theorem spPut_fw (s : State) (c off : Nat) (b : Byte) : (spPut s c off b).fw = s.fw := rfl

/-! ### Parts after updates of parts -/

@[simp] theorem core_modCore (s : State) (i : Nat) (f : Core → Core) : (modCore s i f).core i = f (s.core i) := by
  simp [modCore, State.core]

theorem core_modCore_ne (s : State) {i j : Nat} (f : Core → Core) (h : j ≠ i) : (modCore s i f).core j = s.core j := by
  simp [modCore, State.core, mget_mset_ne _ _ _ h]

@[simp] theorem field_modField (s : State) (i : Nat) (f : Field → Field) : (modField s i f).field i = f (s.field i) := by
  simp [modField, State.field]

theorem field_modField_ne (s : State) {i j : Nat} (f : Field → Field) (h : j ≠ i) : (modField s i f).field j = s.field j := by
  simp [modField, State.field, mget_mset_ne _ _ _ h]

@[simp] theorem grp_modGrp (s : State) (i : Nat) (f : Group → Group) : (modGrp s i f).grp i = f (s.grp i) := by
  simp [modGrp, State.grp]

theorem grp_modGrp_ne (s : State) {i j : Nat} (f : Group → Group) (h : j ≠ i) : (modGrp s i f).grp j = s.grp j := by
  simp [modGrp, State.grp, mget_mset_ne _ _ _ h]

@[simp] theorem part_modPart (s : State) (i : Nat) (f : Part → Part) : (modPart s i f).part i = f (s.part i) := by
  simp [modPart, State.part]

theorem part_modPart_ne (s : State) {i j : Nat} (f : Part → Part) (h : j ≠ i) : (modPart s i f).part j = s.part j := by
  simp [modPart, State.part, mget_mset_ne _ _ _ h]

@[simp] theorem stack_modStack (s : State) (i : Nat) (f : Stack → Stack) : (modStack s i f).stack i = f (s.stack i) := by
  simp [modStack, State.stack]

theorem stack_modStack_ne (s : State) {i j : Nat} (f : Stack → Stack) (h : j ≠ i) : (modStack s i f).stack j = s.stack j := by
  simp [modStack, State.stack, mget_mset_ne _ _ _ h]

@[simp] theorem core_modCtl (s : State) (c : Nat) (f : Ctl → Ctl) :
    (modCtl s c f).core c = { s.core c with ctl := f (s.core c).ctl } := by
  simp [modCtl]

theorem core_modCtl_ne (s : State) {c k : Nat} (f : Ctl → Ctl) (h : k ≠ c) : (modCtl s c f).core k = s.core k := by
  simp [modCtl, core_modCore_ne _ _ h]

@[simp] theorem core_modPrs (s : State) (c : Nat) (f : Press → Press) :
    (modPrs s c f).core c = { s.core c with prs := f (s.core c).prs } := by
  simp [modPrs]

theorem core_modPrs_ne (s : State) {c k : Nat} (f : Press → Press) (h : k ≠ c) : (modPrs s c f).core k = s.core k := by
  simp [modPrs, core_modCore_ne _ _ h]

@[simp] theorem core_modVec (s : State) (c : Nat) (f : Vec → Vec) :
    (modVec s c f).core c = { s.core c with vec := f (s.core c).vec } := by
  simp [modVec]

theorem core_modVec_ne (s : State) {c k : Nat} (f : Vec → Vec) (h : k ≠ c) : (modVec s c f).core k = s.core k := by
  simp [modVec, core_modCore_ne _ _ h]

@[simp] theorem core_modSpd (s : State) (c : Nat) (f : Spd → Spd) :
    (modSpd s c f).core c = { s.core c with spd := f (s.core c).spd } := by
  simp [modSpd]

theorem core_modSpd_ne (s : State) {c k : Nat} (f : Spd → Spd) (h : k ≠ c) : (modSpd s c f).core k = s.core k := by
  simp [modSpd, core_modCore_ne _ _ h]

@[simp] theorem core_modQue (s : State) (c : Nat) (f : Que → Que) :
    (modQue s c f).core c = { s.core c with que := f (s.core c).que } := by
  simp [modQue]

theorem core_modQue_ne (s : State) {c k : Nat} (f : Que → Que) (h : k ≠ c) : (modQue s c f).core k = s.core k := by
  simp [modQue, core_modCore_ne _ _ h]

@[simp] theorem core_modDma (s : State) (c e : Nat) (f : DmaEng → DmaEng) :
    (modDma s c e f).core c = { s.core c with dma := mset (s.core c).dma e (f ((s.core c).eng e)) } := by
  simp [modDma]

theorem core_modDma_ne (s : State) {c k : Nat} (e : Nat) (f : DmaEng → DmaEng) (h : k ≠ c) : (modDma s c e f).core k = s.core k := by
  simp [modDma, core_modCore_ne _ _ h]

@[simp] theorem core_modQ (s : State) (c q : Nat) (f : Queue → Queue) :
    (modQ s c q f).core c = { s.core c with que := { (s.core c).que with qs := mset (s.core c).que.qs q (f ((s.core c).que.q q)) } } := by
  simp [modQ]

theorem core_modQ_ne (s : State) {c k : Nat} (q : Nat) (f : Queue → Queue) (h : k ≠ c) : (modQ s c q f).core k = s.core k := by
  simp [modQ, core_modQue_ne _ _ h]

/-! ### General registers (R177) -/

/-- g0 reads as 0. -/
@[simp] theorem rg_zero (s : State) (c : Nat) : rg s c 0 = 0 := rfl

/-- A register written reads as the value written, but for g0. -/
theorem rg_setReg (s : State) (c : Nat) (d : Reg) (v : W64) : rg (setReg s c d v) c d = if d = 0 then 0 else v := by
  by_cases h : d = 0
  · subst h; rfl
  · have : d.val ≠ 0 := fun e => h (Fin.ext e)
    simp [rg, setReg, Ctl.get, Ctl.put, this, h]

/-- The other registers stand. -/
theorem rg_setReg_ne (s : State) (c : Nat) {d r : Reg} (v : W64) (h : r ≠ d) : rg (setReg s c d v) c r = rg s c r := by
  have hv : r.val ≠ d.val := fun e => h (Fin.ext e)
  by_cases h0 : d.val = 0
  · simp [rg, setReg, Ctl.get, Ctl.put, h0]
  · simp [rg, setReg, Ctl.get, Ctl.put, h0, mget_mset_ne _ _ _ hv]

end Sys2Proof.Machine
end

