-- ==== Sys2Proof/Laws/Issue.lean ====
section
/-!
SUPPORT. What the issue of an instruction, counting, register writes and the step to the next instruction leave alone.
-/

namespace Sys2Proof.Machine

/-- Where the core is ready, an instruction has its effect; it is counted, unless the scoreboard held it before (R174, R178). -/
theorem issue_ready {s : State} {c : Nat} (h : Ready s c) (act : State → State) :
    issue s c act = act (if (s.core c).ctl.blk = .sb then s else count s c 0x01 1) := by
  rw [issue, if_pos h.1, if_neg (Nat.not_le.2 h.2.1), if_pos h.2.2]

/-- A core whose instruction buffer does not hold the line of its PC stands (R178). -/
theorem issue_miss {s : State} {c : Nat} (hp : (s.core c).ctl.pc.toNat < 2 ^ 21)
    (hb : bufHit s c (s.core c).ctl.pc.toNat = false) (act : State → State) : issue s c act = s := by
  rw [issue]
  split
  · rw [if_neg (Nat.not_le.2 hp), hb]
    rfl
  · rfl

/-- A core that cannot issue stands. -/
theorem issue_blocked {s : State} {c : Nat} (h : canIssue s c = false) (act : State → State) : issue s c act = s := by
  simp [issue, h]

/-! ### Counting touches the counters alone -/

theorem count_core (s : State) (c code n : Nat) {w : Sample} :
    (count s c code n w).core c = { s.core c with cnt := ((count s c code n w).core c).cnt } := by
  simp [count, countD]

theorem count_core_ne (s : State) {c k : Nat} (code n : Nat) {w : Sample} (h : k ≠ c) : (count s c code n w).core k = s.core k := by
  simp [count, countD, core_modCore_ne _ _ h]

@[simp] theorem count_cores (s : State) (c code n : Nat) {w : Sample} : { count s c code n w with cores := s.cores } = s := rfl

@[simp] theorem count_mem (s : State) (c code n : Nat) {w : Sample} : (count s c code n w).mem = s.mem := rfl
@[simp] theorem count_marks (s : State) (c code n : Nat) {w : Sample} : (count s c code n w).marks = s.marks := rfl
@[simp] theorem count_fields (s : State) (c code n : Nat) {w : Sample} : (count s c code n w).fields = s.fields := rfl
@[simp] theorem count_groups (s : State) (c code n : Nat) {w : Sample} : (count s c code n w).groups = s.groups := rfl
@[simp] theorem count_sends (s : State) (c code n : Nat) {w : Sample} : (count s c code n w).sends = s.sends := rfl
@[simp] theorem count_devId (s : State) (c code n : Nat) {w : Sample} : (count s c code n w).devId = s.devId := rfl
@[simp] theorem count_field (s : State) (c code n i : Nat) {w : Sample} : (count s c code n w).field i = s.field i := rfl
@[simp] theorem count_grp (s : State) (c code n i : Nat) {w : Sample} : (count s c code n w).grp i = s.grp i := rfl

@[simp] theorem count_ctl (s : State) (c code n : Nat) {w : Sample} : ((count s c code n w).core c).ctl = (s.core c).ctl := by
  rw [count_core]

@[simp] theorem count_spd (s : State) (c code n : Nat) {w : Sample} : ((count s c code n w).core c).spd = (s.core c).spd := by
  rw [count_core]

@[simp] theorem count_sb (s : State) (c code n : Nat) {w : Sample} : ((count s c code n w).core c).sb = (s.core c).sb := by
  rw [count_core]

@[simp] theorem count_que (s : State) (c code n : Nat) {w : Sample} : ((count s c code n w).core c).que = (s.core c).que := by
  rw [count_core]

@[simp] theorem count_flights (s : State) (c code n : Nat) {w : Sample} : ((count s c code n w).core c).flights = (s.core c).flights := by
  rw [count_core]

@[simp] theorem rg_count (s : State) (c code n : Nat) (r : Reg) {w : Sample} : rg (count s c code n w) c r = rg s c r := by
  simp [rg]

@[simp] theorem spKey_count (s : State) (c code n off : Nat) {w : Sample} : spKey (count s c code n w) c off = spKey s c off := by
  simp [spKey]

@[simp] theorem spByte_count (s : State) (c code n off : Nat) {w : Sample} : spByte (count s c code n w) c off = spByte s c off := by
  simp [spByte]

@[simp] theorem spMark_count (s : State) (c code n off : Nat) {w : Sample} : spMark (count s c code n w) c off = spMark s c off := by
  simp [spMark]

@[simp] theorem echoOf_count (s : State) (c code n : Nat) {w : Sample} : echoOf (count s c code n w) c = echoOf s c := rfl

/-! ### One core alone -/

theorem OnlyCore.refl (s : State) (c : Nat) : OnlyCore s s c := ⟨rfl, fun _ _ => rfl⟩

theorem OnlyCore.trans {s t u : State} {c : Nat} (h : OnlyCore s t c) (k : OnlyCore t u c) : OnlyCore s u c := by
  refine ⟨?_, fun j hj => (k.2 j hj).trans (h.2 j hj)⟩
  have e := h.1
  rw [← k.1] at e
  exact e

theorem onlyCore_modCore (s : State) (c : Nat) (f : Core → Core) : OnlyCore s (modCore s c f) c :=
  ⟨rfl, fun _ h => core_modCore_ne s f h⟩

theorem onlyCore_modCtl (s : State) (c : Nat) (f : Ctl → Ctl) : OnlyCore s (modCtl s c f) c := onlyCore_modCore s c _

theorem onlyCore_count (s : State) (c code n : Nat) {w : Sample} : OnlyCore s (count s c code n w) c := onlyCore_modCore s c _

theorem onlyCore_setReg (s : State) (c : Nat) (r : Reg) (v : W64) : OnlyCore s (setReg s c r v) c := onlyCore_modCore s c _

theorem onlyCore_advance (s : State) (c : Nat) : OnlyCore s (advance s c) c := onlyCore_modCore s c _

theorem onlyCore_block (s : State) (c : Nat) (b : Blk) : OnlyCore s (block s c b) c := onlyCore_modCore s c _

/-! ### An instruction that writes one register -/

@[simp] theorem Ctl.put_pc (k : Ctl) (r : Reg) (v : W64) : (k.put r v).pc = k.pc := by unfold Ctl.put; split <;> rfl
@[simp] theorem Ctl.put_blk (k : Ctl) (r : Reg) (v : W64) : (k.put r v).blk = k.blk := by unfold Ctl.put; split <;> rfl

/-- A counted register write and a jump, which is what most instructions are. -/
theorem retires_jump {s u : State} {c : Nat} (d : Reg) (v pc : W64) (ho : OnlyCore s u c) (hc : CtlFrame s u c)
    (hr : ∀ r, rg u c r = rg s c r) :
    Retires s (modCtl (setReg u c d v) c (fun k => { k with pc := pc, blk := .none })) c d v pc := by
  refine ⟨⟨?_, fun r h => ?_⟩, ⟨by simp [setReg], by simp [setReg]⟩,
    ho.trans ((onlyCore_setReg _ _ _ _).trans (onlyCore_modCtl _ _ _)), ?_⟩
  · have := rg_setReg u c d v
    simpa [rg, Ctl.get] using this
  · have := rg_setReg_ne u c v h
    rw [hr r] at this
    simpa [rg, Ctl.get] using this
  · obtain ⟨h1, h2⟩ := hc
    refine ⟨?_, ?_⟩
    · simpa [setReg] using h1
    · rw [← h2]
      simp only [core_modCtl, setReg, Ctl.put]
      split <;> rfl

theorem ctlFrame_count (s : State) (c code n : Nat) {w : Sample} : CtlFrame s (count s c code n w) c := by
  constructor
  · exact (count_core s c code n).symm ▸ rfl
  · simp

theorem ctlFrame_refl (s : State) (c : Nat) : CtlFrame s s c := ⟨rfl, rfl⟩

end Sys2Proof.Machine
end

