-- ==== Sys2Proof/Laws/Memory.lean ====
section
/-!
SUPPORT. Memory: a read after a write gives the byte written, a write leaves every other byte alone, and writes and
clears keep the canonical form.
-/

namespace Sys2Proof.Machine

/-- Every key of a memory is at least `n`. -/
def memFrom (n : Nat) : List Host.Cell → Bool
  | [] => true
  | (k, _) :: _ => decide (n ≤ k)

theorem memWf_cons (k : Nat) (v : Byte) (m : List Host.Cell) :
    memWf ((k, v) :: m) = true ↔ v ≠ 0#8 ∧ memFrom (k + 1) m = true ∧ memWf m = true := by
  cases m with
  | nil => simp [memWf, memFrom]
  | cons p m => obtain ⟨k', v'⟩ := p; simp [memWf, memFrom, and_assoc]

theorem memFrom_mono {a b : Nat} {m : List Host.Cell} (h : memFrom b m = true) (hab : a ≤ b) : memFrom a m = true := by
  cases m with
  | nil => rfl
  | cons p m => simp [memFrom] at *; omega

/-- An address below every key reads as 0. -/
theorem memGet_below {m : List Host.Cell} {a : Nat} (h : memFrom (a + 1) m = true) (w : memWf m = true) : memGet m a = 0#8 := by
  induction m with
  | nil => rfl
  | cons p m ih =>
    obtain ⟨k, v⟩ := p
    have hk : a + 1 ≤ k := by simpa [memFrom] using h
    have w' := (memWf_cons k v m).1 w
    rw [memGet, if_neg (by omega)]
    exact ih (memFrom_mono w'.2.1 (by omega)) w'.2.2

theorem memSet_from {n : Nat} {m : List Host.Cell} {a : Nat} (b : Byte) (h : memFrom n m = true) (w : memWf m = true) (ha : n ≤ a) :
    memFrom n (memSet m a b) = true := by
  cases m with
  | nil => simp only [memSet]; split <;> simp [memFrom, ha]
  | cons p m =>
    obtain ⟨k, v⟩ := p
    have hk : n ≤ k := by simpa [memFrom] using h
    have w' := (memWf_cons k v m).1 w
    simp only [memSet]
    split
    · split <;> simp [memFrom, ha, hk]
    · split
      · split
        · exact memFrom_mono w'.2.1 (by omega)
        · simp [memFrom, ha]
      · simp [memFrom, hk]

/-- R138, R325: a write of one byte keeps the canonical form. -/
theorem memSet_wf (m : List Host.Cell) (a : Nat) (b : Byte) (w : memWf m = true) : memWf (memSet m a b) = true := by
  induction m with
  | nil => simp only [memSet]; split <;> simp_all [memWf]
  | cons p m ih =>
    obtain ⟨k, v⟩ := p
    have w' := (memWf_cons k v m).1 w
    simp only [memSet]
    split
    · next hlt =>
      split
      · exact w
      · next hb => exact (memWf_cons _ _ _).2 ⟨hb, by simpa [memFrom] using hlt, w⟩
    · next hge =>
      split
      · next e =>
        split
        · exact w'.2.2
        · next hb => exact (memWf_cons _ _ _).2 ⟨hb, e ▸ w'.2.1, w'.2.2⟩
      · exact (memWf_cons _ _ _).2 ⟨w'.1, memSet_from b w'.2.1 w'.2.2 (by omega), ih w'.2.2⟩

/-- Clearing bytes keeps the canonical form. -/
theorem filter_wf (p : Host.Cell → Bool) (m : List Host.Cell) (w : memWf m = true) :
    memWf (m.filter p) = true ∧ ∀ n, memFrom n m = true → memFrom n (m.filter p) = true := by
  induction m with
  | nil => exact ⟨rfl, fun _ h => h⟩
  | cons c m ih =>
    obtain ⟨k, v⟩ := c
    have w' := (memWf_cons k v m).1 w
    have hi := ih w'.2.2
    rw [List.filter_cons]
    split
    · exact ⟨(memWf_cons _ _ _).2 ⟨w'.1, hi.2 _ w'.2.1, hi.1⟩, fun n h => by simpa [memFrom] using h⟩
    · refine ⟨hi.1, fun n h => ?_⟩
      have hk : n ≤ k := by simpa [memFrom] using h
      exact hi.2 n (memFrom_mono w'.2.1 (by omega))

/-- A read after a write to the same address gives the byte written. -/
theorem memGet_memSet (m : List Host.Cell) (a : Nat) (b : Byte) (w : memWf m = true) : memGet (memSet m a b) a = b := by
  induction m with
  | nil => simp only [memSet]; split <;> simp_all [memGet]
  | cons p m ih =>
    obtain ⟨k, v⟩ := p
    have w' := (memWf_cons k v m).1 w
    simp only [memSet]
    split
    · next hlt =>
      split
      · next hb => rw [hb]; exact memGet_below (by simpa [memFrom] using hlt) w
      · simp [memGet]
    · split
      · next e =>
        split
        · next hb => rw [hb]; exact memGet_below (e ▸ w'.2.1) w'.2.2
        · simp [memGet]
      · next h1 h2 => simp [memGet, h2, ih w'.2.2]

/-- A write leaves every other address alone. -/
theorem memGet_memSet_ne (m : List Host.Cell) {a x : Nat} (b : Byte) (w : memWf m = true) (h : x ≠ a) :
    memGet (memSet m a b) x = memGet m x := by
  induction m with
  | nil => simp only [memSet]; split <;> simp [memGet, h]
  | cons p m ih =>
    obtain ⟨k, v⟩ := p
    have w' := (memWf_cons k v m).1 w
    simp only [memSet]
    split
    · split <;> simp [memGet, h]
    · split
      · next e =>
        split
        · simp [memGet, ← e, h]
        · simp [memGet, ← e, h]
      · simp [memGet, ih w'.2.2]

end Sys2Proof.Machine
end

