-- ==== Sys2Proof/Laws/Later.lean ====
section
/-!
SUPPORT. What every command leaves as it is, said once: `Later s t` relates the state before a command to any state that the
command passes through. Each operation keeps it (the files Later*.lean), and so each meaning does.
-/

namespace Sys2Proof.Machine

/-- `t` follows `s` within one command: the queue and the clock stand, draws only grow, what was shown stays shown,
and memory keeps its canonical form. -/
structure Later (s t : State) : Prop where
  pending : t.pending = s.pending
  now : t.now = s.now
  fresh : s.fresh ≤ t.fresh
  out : s.out <+: t.out
  mem : memWf s.mem = true → memWf t.mem = true

theorem Later.refl (s : State) : Later s s := ⟨rfl, rfl, le_refl _, List.prefix_refl _, id⟩

theorem Later.trans {s t u : State} (h : Later s t) (k : Later t u) : Later s u :=
  ⟨k.1.trans h.1, k.2.trans h.2, h.3.trans k.3, h.4.trans k.4, fun w => k.5 (h.5 w)⟩

/-- Other fields may change at will. -/
theorem Later.upd {s0 s : State}
    (x0 : Map Mark) (x1 : Map (List Nat)) (x2 : Map Core) (x3 : Map Field) (x4 : Map Group) (x5 : Map Part)
    (x6 : List InFlight) (x7 : Map Bytes) (x8 : Map (Option Nat)) (x9 : Map (Option Nat)) (x10 : Map Lock)
    (x11 : List LockReply) (x12 : List LaunchReport) (x13 : Nat) (x14 : DevState) (x15 : Nat) (x16 : W64)
    (x17 : Map Session) (x18 : Nat) (x19 : List LogRec) (x20 : List LogRec) (x21 : Map Nat) (x22 : Map Nat)
    (x23 : List Coal) (x24 : Survey) (x25 : Map Stack) (x26 : Map (Option Nat)) (x27 : Nat) (x28 : Map Nat)
    (x29 : Nat) (x30 : Nat) (x31 : Nat) (x32 : Links) (x33 : Map HostDie) (x34 : List Launch) (x35 : Nat)
    (x36 : Map ObjVal) (x37 : Map Crossing) (x38 : List ParityAt) (x39 : Map Shared) (x40 : Clk) (x41 : EchoM)
    (x42 : Pwr) (x43 : Wake) (x44 : Mgmt) (x45 : Fw)
    (h : Later s0 s) :
    Later s0 (State.mk s.pending s.now s.fresh s.out s.mem
      x0 x1 x2 x3 x4 x5 x6 x7 x8 x9 x10 x11 x12 x13 x14 x15 x16 x17 x18 x19 x20 x21 x22 x23 x24 x25 x26 x27
      x28 x29 x30 x31 x32 x33 x34 x35 x36 x37 x38 x39 x40 x41 x42 x43 x44 x45) :=
  ⟨h.1, h.2, h.3, h.4, h.5⟩

theorem Later.foldl {s0 s : State} {α : Type} {f : State → α → State} {l : List α}
    (hf : ∀ (s : State) (a : α), Later s0 s → Later s0 (f s a)) (h : Later s0 s) : Later s0 (l.foldl f s) := by
  induction l generalizing s with
  | nil => exact h
  | cons a l ih => exact ih (hf s a h)

theorem Later.foldl1 {s0 : State} {α β : Type} {f : State × β → α → State × β} {l : List α} {p : State × β}
    (hf : ∀ (p : State × β) (a : α), Later s0 p.1 → Later s0 (f p a).1) (h : Later s0 p.1) : Later s0 (l.foldl f p).1 := by
  induction l generalizing p with
  | nil => exact h
  | cons a l ih => exact ih (hf p a h)

theorem Later.foldl2 {s0 : State} {α β : Type} {f : β × State → α → β × State} {l : List α} {p : β × State}
    (hf : ∀ (p : β × State) (a : α), Later s0 p.2 → Later s0 (f p a).2) (h : Later s0 p.2) : Later s0 (l.foldl f p).2 := by
  induction l generalizing p with
  | nil => exact h
  | cons a l ih => exact ih (hf p a h)

/-- A state named by a definition: shown to be later once, used by name. -/
theorem Later.cut {s0 x v : State} {P : Prop} (e : x = v) (hv : Later s0 v) (k : Later s0 x → P) : P := k (e ▸ hv)

theorem Later.cut1 {s0 s : State} {α : Type} {p : State × α} {a : α} {P : Prop} (e : p = (s, a)) (hv : Later s0 p.1)
    (k : Later s0 s → P) : P := k (by rw [e] at hv; exact hv)

theorem Later.cut2 {s0 s : State} {α : Type} {p : α × State} {a : α} {P : Prop} (e : p = (a, s)) (hv : Later s0 p.2)
    (k : Later s0 s → P) : P := k (by rw [e] at hv; exact hv)

theorem Later.cut3 {s0 s : State} {α β : Type} {p : α × State × β} {a : α} {b : β} {P : Prop} (e : p = (a, s, b)) (hv : Later s0 p.2.1)
    (k : Later s0 s → P) : P := k (by rw [e] at hv; exact hv)

theorem Later.getD_none {s0 s : State} (h : Later s0 s) : Later s0 ((none : Option State).getD s) := h

theorem Later.getD_some {s0 s t : State} (h : Later s0 t) : Later s0 ((some t).getD s) := h

/-- The same for an operation named by a definition. -/
theorem Later.cutF {s0 : State} {g v : State → State} {P : Prop} (e : g = v) (hv : ∀ s, Later s0 s → Later s0 (v s))
    (k : (∀ s, Later s0 s → Later s0 (g s)) → P) : P := k (e ▸ hv)

theorem Later.cutF1 {s0 : State} {α : Type} {g v : State → α → State} {P : Prop} (e : g = v)
    (hv : ∀ s a, Later s0 s → Later s0 (v s a)) (k : (∀ s a, Later s0 s → Later s0 (g s a)) → P) : P := k (e ▸ hv)

theorem Later.cutF2 {s0 : State} {α β : Type} {g v : State → α → β → State} {P : Prop} (e : g = v)
    (hv : ∀ s a b, Later s0 s → Later s0 (v s a b)) (k : (∀ s a b, Later s0 s → Later s0 (g s a b)) → P) : P := k (e ▸ hv)

theorem Later.cutC {s0 : State} {α : Type} {g v : α → State} {P : Prop} (e : g = v) (hv : ∀ a, Later s0 (v a))
    (k : (∀ a, Later s0 (g a)) → P) : P := k (e ▸ hv)

theorem Later.cutFp {s0 : State} {α β : Type} {g v : State × β → α → State × β} {P : Prop} (e : g = v)
    (hv : ∀ p a, Later s0 p.1 → Later s0 (v p a).1) (k : (∀ p a, Later s0 p.1 → Later s0 (g p a).1) → P) : P := k (e ▸ hv)

end Sys2Proof.Machine
end

