-- ==== Sys2Proof/Laws/LaterOps.lean ====
section
/-!
SUPPORT. The operations of Machine/Ops.lean keep `Later`.
-/

set_option linter.unusedTactic false
set_option linter.unreachableTactic false

namespace Sys2Proof.Machine

theorem modCore_later {s0 : State} {s : State} (c : Nat) (f : Core → Core) (hl : Later s0 s) :
    Later s0 (modCore s c f) := by
  unfold modCore
  repeat' (first
    | with_reducible assumption
    | intro _
    | fail_if_no_progress with_reducible apply Later.upd)

theorem modCtl_later {s0 : State} {s : State} (c : Nat) (f : Ctl → Ctl) (hl : Later s0 s) :
    Later s0 (modCtl s c f) := by
  unfold modCtl
  repeat' (first
    | with_reducible assumption
    | intro _
    | with_reducible apply modCore_later
    | fail_if_no_progress with_reducible apply Later.upd)

theorem modPrs_later {s0 : State} {s : State} (c : Nat) (f : Press → Press) (hl : Later s0 s) :
    Later s0 (modPrs s c f) := by
  unfold modPrs
  repeat' (first
    | with_reducible assumption
    | intro _
    | with_reducible apply modCore_later
    | fail_if_no_progress with_reducible apply Later.upd)

theorem modVec_later {s0 : State} {s : State} (c : Nat) (f : Vec → Vec) (hl : Later s0 s) :
    Later s0 (modVec s c f) := by
  unfold modVec
  repeat' (first
    | with_reducible assumption
    | intro _
    | with_reducible apply modCore_later
    | fail_if_no_progress with_reducible apply Later.upd)

theorem modSpd_later {s0 : State} {s : State} (c : Nat) (f : Spd → Spd) (hl : Later s0 s) :
    Later s0 (modSpd s c f) := by
  unfold modSpd
  repeat' (first
    | with_reducible assumption
    | intro _
    | with_reducible apply modCore_later
    | fail_if_no_progress with_reducible apply Later.upd)

theorem modQue_later {s0 : State} {s : State} (c : Nat) (f : Que → Que) (hl : Later s0 s) :
    Later s0 (modQue s c f) := by
  unfold modQue
  repeat' (first
    | with_reducible assumption
    | intro _
    | with_reducible apply modCore_later
    | fail_if_no_progress with_reducible apply Later.upd)

theorem modDma_later {s0 : State} {s : State} (c : Nat) (e : Nat) (f : DmaEng → DmaEng) (hl : Later s0 s) :
    Later s0 (modDma s c e f) := by
  unfold modDma
  repeat' (first
    | with_reducible assumption
    | intro _
    | with_reducible apply modCore_later
    | fail_if_no_progress with_reducible apply Later.upd)

theorem modQ_later {s0 : State} {s : State} (c : Nat) (q : Nat) (f : Queue → Queue) (hl : Later s0 s) :
    Later s0 (modQ s c q f) := by
  unfold modQ
  repeat' (first
    | with_reducible assumption
    | intro _
    | with_reducible apply modQue_later
    | fail_if_no_progress with_reducible apply Later.upd)

theorem modField_later {s0 : State} {s : State} (n : Nat) (f : Field → Field) (hl : Later s0 s) :
    Later s0 (modField s n f) := by
  unfold modField
  repeat' (first
    | with_reducible assumption
    | intro _
    | fail_if_no_progress with_reducible apply Later.upd)

theorem modGrp_later {s0 : State} {s : State} (g : Nat) (f : Group → Group) (hl : Later s0 s) :
    Later s0 (modGrp s g f) := by
  unfold modGrp
  repeat' (first
    | with_reducible assumption
    | intro _
    | fail_if_no_progress with_reducible apply Later.upd)

theorem modPart_later {s0 : State} {s : State} (p : Nat) (f : Part → Part) (hl : Later s0 s) :
    Later s0 (modPart s p f) := by
  unfold modPart
  repeat' (first
    | with_reducible assumption
    | intro _
    | fail_if_no_progress with_reducible apply Later.upd)

theorem modLinks_later {s0 : State} {s : State} (f : Links → Links) (hl : Later s0 s) :
    Later s0 (modLinks s f) := by
  unfold modLinks
  repeat' (first
    | with_reducible assumption
    | intro _
    | fail_if_no_progress with_reducible apply Later.upd)

theorem modClk_later {s0 : State} {s : State} (f : Clk → Clk) (hl : Later s0 s) :
    Later s0 (modClk s f) := by
  unfold modClk
  repeat' (first
    | with_reducible assumption
    | intro _
    | fail_if_no_progress with_reducible apply Later.upd)

theorem modEch_later {s0 : State} {s : State} (f : EchoM → EchoM) (hl : Later s0 s) :
    Later s0 (modEch s f) := by
  unfold modEch
  repeat' (first
    | with_reducible assumption
    | intro _
    | fail_if_no_progress with_reducible apply Later.upd)

theorem modPwr_later {s0 : State} {s : State} (f : Pwr → Pwr) (hl : Later s0 s) :
    Later s0 (modPwr s f) := by
  unfold modPwr
  repeat' (first
    | with_reducible assumption
    | intro _
    | fail_if_no_progress with_reducible apply Later.upd)

theorem modWake_later {s0 : State} {s : State} (f : Wake → Wake) (hl : Later s0 s) :
    Later s0 (modWake s f) := by
  unfold modWake
  repeat' (first
    | with_reducible assumption
    | intro _
    | fail_if_no_progress with_reducible apply Later.upd)

theorem modMgmt_later {s0 : State} {s : State} (f : Mgmt → Mgmt) (hl : Later s0 s) :
    Later s0 (modMgmt s f) := by
  unfold modMgmt
  repeat' (first
    | with_reducible assumption
    | intro _
    | (extract_lets +onlyGivenNames x; clear_value (e : x = _); first | (with_reducible refine Later.cut (s0 := s0) e ?_ (fun _ => ?_) <;> clear e) | clear e)
    | (split <;> rename_i e <;> first | (with_reducible refine Later.cut1 (s0 := s0) e ?_ (fun _ => ?_) <;> clear e) | (with_reducible refine Later.cut2 (s0 := s0) e ?_ (fun _ => ?_) <;> clear e) | (with_reducible refine Later.cut3 (s0 := s0) e ?_ (fun _ => ?_) <;> clear e) | skip)
    | fail_if_no_progress with_reducible apply Later.upd)

theorem modFw_later {s0 : State} {s : State} (f : Fw → Fw) (hl : Later s0 s) :
    Later s0 (modFw s f) := by
  unfold modFw
  repeat' (first
    | with_reducible assumption
    | intro _
    | (extract_lets +onlyGivenNames x; clear_value (e : x = _); first | (with_reducible refine Later.cut (s0 := s0) e ?_ (fun _ => ?_) <;> clear e) | clear e)
    | (split <;> rename_i e <;> first | (with_reducible refine Later.cut1 (s0 := s0) e ?_ (fun _ => ?_) <;> clear e) | (with_reducible refine Later.cut2 (s0 := s0) e ?_ (fun _ => ?_) <;> clear e) | (with_reducible refine Later.cut3 (s0 := s0) e ?_ (fun _ => ?_) <;> clear e) | skip)
    | fail_if_no_progress with_reducible apply Later.upd)

theorem modMsh_later {s0 : State} {s : State} (n : Nat) (f : MeshF → MeshF) (hl : Later s0 s) :
    Later s0 (modMsh s n f) := by
  unfold modMsh
  repeat' (first
    | with_reducible assumption
    | intro _
    | with_reducible apply modField_later
    | fail_if_no_progress with_reducible apply Later.upd)

theorem modHost_later {s0 : State} {s : State} (h : Nat) (g : HostDie → HostDie) (hl : Later s0 s) :
    Later s0 (modHost s h g) := by
  unfold modHost
  repeat' (first
    | with_reducible assumption
    | intro _
    | fail_if_no_progress with_reducible apply Later.upd)

theorem modFn_later {s0 : State} {s : State} (h f : Nat) (g : HostFn → HostFn) (hl : Later s0 s) :
    Later s0 (modFn s h f g) :=
  modHost_later h _ hl

theorem emit_later {s0 : State} {s : State} (o : Output) (hl : Later s0 s) :
    Later s0 (emit s o) := by
  exact ⟨hl.1, hl.2, hl.3, hl.4.trans (List.prefix_append _ _), hl.5⟩

theorem drawBool_later {s0 : State} {s : State} (hl : Later s0 s) :
    Later s0 (drawBool s).2 := by
  exact ⟨hl.1, hl.2, Nat.le_succ_of_le hl.3, hl.4, hl.5⟩

theorem drawNat_later {s0 : State} {s : State} (hl : Later s0 s) :
    Later s0 (drawNat s).2 := by
  exact ⟨hl.1, hl.2, Nat.le_succ_of_le hl.3, hl.4, hl.5⟩

theorem spPut_later {s0 : State} {s : State} (c : Nat) (off : Nat) (b : Byte) (hl : Later s0 s) :
    Later s0 (spPut s c off b) := by
  exact ⟨hl.1, hl.2, hl.3, hl.4, fun w => memSet_wf _ _ _ (hl.5 w)⟩

theorem spPuts_later {s0 : State} {s : State} (c : Nat) (off : Nat) (x0 : Bytes) (hl : Later s0 s) :
    Later s0 (spPuts s c off x0) := by
  induction x0 generalizing s off with
  | nil => exact hl
  | cons b bs ih => exact ih _ (spPut_later c off b hl)

theorem clearMem_later {s0 : State} {s : State} (mine : Nat → Bool) (hl : Later s0 s) :
    Later s0 (clearMem s mine) := by
  exact ⟨hl.1, hl.2, hl.3, hl.4, fun w => (filter_wf _ _ (hl.5 w)).1⟩

theorem setSpMark_later {s0 : State} {s : State} (c : Nat) (off : Nat) (m : Option Mark) (hl : Later s0 s) :
    Later s0 (setSpMark s c off m) := by
  unfold setSpMark
  repeat' (first
    | with_reducible assumption
    | intro _
    | (extract_lets +onlyGivenNames x; clear_value (e : x = _); first | (with_reducible refine Later.cut (s0 := s0) e ?_ (fun _ => ?_) <;> clear e) | clear e)
    | split
    | fail_if_no_progress with_reducible apply Later.upd)

theorem deliverRec_later {s0 : State} {s : State} (r : LogRec) (hl : Later s0 s) :
    Later s0 (deliverRec s r) := by
  unfold deliverRec
  repeat' (first
    | with_reducible assumption
    | intro _
    | (extract_lets +onlyGivenNames x; clear_value (e : x = _); first | (with_reducible refine Later.cut (s0 := s0) e ?_ (fun _ => ?_) <;> clear e) | clear e)
    | split
    | fail_if_no_progress with_reducible apply Later.upd)

theorem storeRec_later {s0 : State} {s : State} (r : LogRec) (hl : Later s0 s) :
    Later s0 (storeRec s r) := by
  unfold storeRec
  repeat' (first
    | with_reducible assumption
    | intro _
    | (extract_lets +onlyGivenNames x; clear_value (e : x = _); first | (with_reducible refine Later.cut (s0 := s0) e ?_ (fun _ => ?_) <;> clear e) | clear e)
    | with_reducible apply deliverRec_later
    | split
    | fail_if_no_progress with_reducible apply Later.upd)

theorem appendRec_later {s0 : State} {s : State} (r : LogRec) (hl : Later s0 s) :
    Later s0 (appendRec s r) := by
  unfold appendRec
  repeat' (first
    | with_reducible assumption
    | intro _
    | (extract_lets +onlyGivenNames x; clear_value (e : x = _); first | (with_reducible refine Later.cut (s0 := s0) e ?_ (fun _ => ?_) <;> clear e) | clear e)
    | with_reducible apply storeRec_later
    | split
    | fail_if_no_progress with_reducible apply Later.upd)

theorem setDeviceCause_later {s0 : State} {s : State} (b : Bool) (hl : Later s0 s) :
    Later s0 (setDeviceCause s b) := by
  unfold setDeviceCause
  repeat' (first
    | with_reducible assumption
    | intro _
    | with_reducible apply Later.foldl
    | fail_if_no_progress with_reducible apply Later.upd)

theorem raiseRec_later {s0 : State} {s : State} (code : Nat) (cls : Nat) (ukind : Nat) (unit : Nat) (part : Option Nat) (echo : W64) (detail : List Nat) (hl : Later s0 s) :
    Later s0 (raiseRec s code cls ukind unit part echo detail) := by
  unfold raiseRec
  repeat' (first
    | with_reducible assumption
    | intro _
    | (extract_lets +onlyGivenNames x; clear_value (e : x = _); first | (with_reducible refine Later.cut (s0 := s0) e ?_ (fun _ => ?_) <;> clear e) | clear e)
    | with_reducible apply unit_later | with_reducible apply count_later | with_reducible apply appendRec_later
    | split
    | fail_if_no_progress with_reducible apply Later.upd)

theorem raiseEvent_later {s0 : State} {s : State} (code : Nat) (ukind : Nat) (unit : Nat) (part : Option Nat) (detail : List Nat) (hl : Later s0 s) :
    Later s0 (raiseEvent s code ukind unit part detail) := by
  unfold raiseEvent
  repeat' (first | with_reducible assumption | with_reducible apply raiseRec_later | with_reducible apply unit_later | intro _)

theorem sendVector_later {s0 : State} {s : State} (h f v : Nat) (hl : Later s0 s) :
    Later s0 (sendVector s h f v) := by
  unfold sendVector
  repeat' (first
    | with_reducible assumption
    | intro _
    | (extract_lets +onlyGivenNames x; clear_value (e : x = _); first | (with_reducible refine Later.cut (s0 := s0) e ?_ (fun _ => ?_) <;> clear e) | clear e)
    | with_reducible apply modFn_later | with_reducible apply emit_later
    | (split <;> rename_i e <;> first | (with_reducible refine Later.cut1 (s0 := s0) e ?_ (fun _ => ?_) <;> clear e) | (with_reducible refine Later.cut2 (s0 := s0) e ?_ (fun _ => ?_) <;> clear e) | (with_reducible refine Later.cut3 (s0 := s0) e ?_ (fun _ => ?_) <;> clear e) | skip)
    | fail_if_no_progress with_reducible apply Later.upd)

theorem devVectors_later {s0 : State} {s : State} (hl : Later s0 s) :
    Later s0 (devVectors s) := by
  unfold devVectors
  repeat' (first
    | with_reducible assumption
    | intro _
    | (extract_lets +onlyGivenNames x; clear_value (e : x = _); first | (with_reducible refine Later.cut (s0 := s0) e ?_ (fun _ => ?_) <;> clear e) | clear e)
    | with_reducible apply sendVector_later
    | with_reducible apply Later.foldl | with_reducible apply Later.foldl1 | with_reducible apply Later.foldl2
    | (split <;> rename_i e <;> first | (with_reducible refine Later.cut1 (s0 := s0) e ?_ (fun _ => ?_) <;> clear e) | (with_reducible refine Later.cut2 (s0 := s0) e ?_ (fun _ => ?_) <;> clear e) | (with_reducible refine Later.cut3 (s0 := s0) e ?_ (fun _ => ?_) <;> clear e) | skip)
    | fail_if_no_progress with_reducible apply Later.upd)

theorem setDev_later {s0 : State} {s : State} (d : DevState) (stage : Nat) (hl : Later s0 s) :
    Later s0 (setDev s d stage) := by
  unfold setDev
  repeat' (first
    | with_reducible assumption
    | intro _
    | (extract_lets +onlyGivenNames x; clear_value (e : x = _); first | (with_reducible refine Later.cut (s0 := s0) e ?_ (fun _ => ?_) <;> clear e) | clear e)
    | with_reducible apply devVectors_later | with_reducible apply raiseEvent_later
    | split
    | fail_if_no_progress with_reducible apply Later.upd)

theorem sendPeer_later {s0 : State} {s : State} (dev : Nat) (unit : Bytes) (hl : Later s0 s) :
    Later s0 (sendPeer s dev unit) := by
  unfold sendPeer
  repeat' (first
    | with_reducible assumption
    | intro _
    | (extract_lets +onlyGivenNames x; clear_value (e : x = _); first | (with_reducible refine Later.cut (s0 := s0) e ?_ (fun _ => ?_) <;> clear e) | clear e)
    | with_reducible apply emit_later | with_reducible apply unit_later
    | (split <;> rename_i e <;> first | (with_reducible refine Later.cut1 (s0 := s0) e ?_ (fun _ => ?_) <;> clear e) | (with_reducible refine Later.cut2 (s0 := s0) e ?_ (fun _ => ?_) <;> clear e) | (with_reducible refine Later.cut3 (s0 := s0) e ?_ (fun _ => ?_) <;> clear e) | skip)
    | fail_if_no_progress with_reducible apply Later.upd)

theorem sendEvent_later {s0 : State} {s : State} (tr : Transport) (m : SasilMsg) (hl : Later s0 s) :
    Later s0 (sendEvent s tr m) := by
  unfold sendEvent
  repeat' (first
    | with_reducible assumption
    | intro _
    | (extract_lets +onlyGivenNames x; clear_value (e : x = _); first | (with_reducible refine Later.cut (s0 := s0) e ?_ (fun _ => ?_) <;> clear e) | clear e)
    | with_reducible apply sendPeer_later | with_reducible apply emit_later
    | (split <;> rename_i e <;> first | (with_reducible refine Later.cut1 (s0 := s0) e ?_ (fun _ => ?_) <;> clear e) | (with_reducible refine Later.cut2 (s0 := s0) e ?_ (fun _ => ?_) <;> clear e) | (with_reducible refine Later.cut3 (s0 := s0) e ?_ (fun _ => ?_) <;> clear e) | skip)
    | fail_if_no_progress with_reducible apply Later.upd)

theorem endAsync_later {s0 : State} {s : State} (kind status : Nat) (hl : Later s0 s) :
    Later s0 (endAsync s kind status) := by
  unfold endAsync
  repeat' (first
    | with_reducible assumption
    | intro _
    | (extract_lets +onlyGivenNames x; clear_value (e : x = _); first | (with_reducible refine Later.cut (s0 := s0) e ?_ (fun _ => ?_) <;> clear e) | clear e)
    | with_reducible apply modWake_later | with_reducible apply sendEvent_later
    | with_reducible apply Later.foldl | with_reducible apply Later.foldl1 | with_reducible apply Later.foldl2
    | with_reducible apply Later.getD_none | with_reducible apply Later.getD_some
    | (split <;> rename_i e <;> first | (with_reducible refine Later.cut1 (s0 := s0) e ?_ (fun _ => ?_) <;> clear e) | (with_reducible refine Later.cut2 (s0 := s0) e ?_ (fun _ => ?_) <;> clear e) | (with_reducible refine Later.cut3 (s0 := s0) e ?_ (fun _ => ?_) <;> clear e) | skip)
    | fail_if_no_progress with_reducible apply Later.upd)

theorem endFailed_later {s0 : State} {s : State} (kind : Nat) (hl : Later s0 s) :
    Later s0 (endFailed s kind) := by
  unfold endFailed
  repeat' (first
    | with_reducible assumption
    | intro _
    | (extract_lets +onlyGivenNames x; clear_value (e : x = _); first | (with_reducible refine Later.cut (s0 := s0) e ?_ (fun _ => ?_) <;> clear e) | clear e)
    | with_reducible apply drawNat_later | with_reducible apply endAsync_later
    | (split <;> rename_i e <;> first | (with_reducible refine Later.cut1 (s0 := s0) e ?_ (fun _ => ?_) <;> clear e) | (with_reducible refine Later.cut2 (s0 := s0) e ?_ (fun _ => ?_) <;> clear e) | skip))

theorem leaveWaking_later {s0 : State} {s : State} (ok : Bool) (hl : Later s0 s) :
    Later s0 (leaveWaking s ok) := by
  unfold leaveWaking
  repeat' (first
    | with_reducible assumption
    | intro _
    | with_reducible apply endAsync_later | with_reducible apply endFailed_later
    | with_reducible apply Later.foldl
    | split)

theorem enterFaulted_later {s0 : State} {s : State} (hl : Later s0 s) :
    Later s0 (enterFaulted s) := by
  unfold enterFaulted
  repeat' (first
    | with_reducible assumption
    | intro _
    | with_reducible apply setDeviceCause_later | with_reducible apply leaveWaking_later | with_reducible apply modWake_later | with_reducible apply setDev_later
    | split
    | fail_if_no_progress with_reducible apply Later.upd)

theorem raiseErr_later {s0 : State} {s : State} (code : Nat) (ukind : Nat) (unit : Nat) (part : Option Nat) (echo : W64) (detail : List Nat) (hl : Later s0 s) :
    Later s0 (raiseErr s code ukind unit part echo detail) := by
  unfold raiseErr
  repeat' (first
    | with_reducible assumption
    | intro _
    | (extract_lets +onlyGivenNames x; clear_value (e : x = _); first | (with_reducible refine Later.cut (s0 := s0) e ?_ (fun _ => ?_) <;> clear e) | clear e)
    | with_reducible apply raiseRec_later | with_reducible apply unit_later | with_reducible apply enterFaulted_later
    | split)

theorem countD_later {s0 : State} {s : State} (c : Nat) (code : Nat) (n : Nat) (pc : Nat) (lat : Nat) (data : Bytes) (hl : Later s0 s) :
    Later s0 (countD s c code n pc lat data) := by
  unfold countD
  repeat' (first
    | with_reducible assumption
    | intro _
    | (extract_lets +onlyGivenNames x; clear_value (e : x = _); first | (with_reducible refine Later.cut (s0 := s0) e ?_ (fun _ => ?_) <;> clear e) | clear e)
    | with_reducible apply modCore_later
    | fail_if_no_progress with_reducible apply Later.upd)

theorem count_later {s0 : State} {s : State} (c code n : Nat) (w : Sample := hereSample) (hl : Later s0 s) :
    Later s0 (count s c code n w) := by
  unfold count
  repeat' (first
    | with_reducible assumption
    | intro _
    | (extract_lets +onlyGivenNames x; clear_value (e : x = _); first | (with_reducible refine Later.cut (s0 := s0) e ?_ (fun _ => ?_) <;> clear e) | clear e)
    | with_reducible apply countD_later
    | (split <;> rename_i e <;> first | (with_reducible refine Later.cut1 (s0 := s0) e ?_ (fun _ => ?_) <;> clear e) | (with_reducible refine Later.cut2 (s0 := s0) e ?_ (fun _ => ?_) <;> clear e) | (with_reducible refine Later.cut3 (s0 := s0) e ?_ (fun _ => ?_) <;> clear e) | skip)
    | fail_if_no_progress with_reducible apply Later.upd)

theorem countConds_later {s0 : State} {s : State} (c base : Nat) (fl : BitVec 4) (w : Sample) (hl : Later s0 s) :
    Later s0 (countConds s c base fl w) := by
  unfold countConds
  repeat' (first
    | with_reducible assumption
    | intro _
    | (extract_lets +onlyGivenNames x; clear_value (e : x = _); first | (with_reducible refine Later.cut (s0 := s0) e ?_ (fun _ => ?_) <;> clear e) | clear e)
    | with_reducible apply count_later
    | with_reducible apply Later.foldl | with_reducible apply Later.foldl1 | with_reducible apply Later.foldl2
    | (split <;> rename_i e <;> first | (with_reducible refine Later.cut1 (s0 := s0) e ?_ (fun _ => ?_) <;> clear e) | (with_reducible refine Later.cut2 (s0 := s0) e ?_ (fun _ => ?_) <;> clear e) | (with_reducible refine Later.cut3 (s0 := s0) e ?_ (fun _ => ?_) <;> clear e) | skip)
    | fail_if_no_progress with_reducible apply Later.upd)

theorem countShared_later {s0 : State} {s : State} (b code cls n plane : Nat) (hl : Later s0 s) :
    Later s0 (countShared s b code cls n plane) := by
  unfold countShared
  repeat' (first
    | with_reducible assumption
    | intro _
    | (extract_lets +onlyGivenNames x; clear_value (e : x = _); first | (with_reducible refine Later.cut (s0 := s0) e ?_ (fun _ => ?_) <;> clear e) | (with_reducible refine Later.cutF (s0 := s0) e ?_ (fun hg => ?_) <;> clear e) | (with_reducible refine Later.cutF1 (s0 := s0) e ?_ (fun hg => ?_) <;> clear e) | (with_reducible refine Later.cutF2 (s0 := s0) e ?_ (fun hg => ?_) <;> clear e) | (with_reducible refine Later.cutC (s0 := s0) e ?_ (fun hg => ?_) <;> clear e) | (with_reducible refine Later.cutFp (s0 := s0) e ?_ (fun hg => ?_) <;> clear e) | clear e)
    | with_reducible apply hg
    | with_reducible apply Later.foldl | with_reducible apply Later.foldl1 | with_reducible apply Later.foldl2
    | (split <;> rename_i e <;> first | (with_reducible refine Later.cut1 (s0 := s0) e ?_ (fun _ => ?_) <;> clear e) | (with_reducible refine Later.cut2 (s0 := s0) e ?_ (fun _ => ?_) <;> clear e) | (with_reducible refine Later.cut3 (s0 := s0) e ?_ (fun _ => ?_) <;> clear e) | skip)
    | fail_if_no_progress with_reducible apply Later.upd)

theorem meshDrop_later {s0 : State} {s : State} (n r dcore : Nat) (part : Option Nat) (score plane : Nat) (hl : Later s0 s) :
    Later s0 (meshDrop s n r dcore part score plane) := by
  unfold meshDrop
  repeat' (first
    | with_reducible assumption
    | intro _
    | (extract_lets +onlyGivenNames x; clear_value (e : x = _); first | (with_reducible refine Later.cut (s0 := s0) e ?_ (fun _ => ?_) <;> clear e) | clear e)
    | with_reducible apply modMsh_later | with_reducible apply countShared_later
    | with_reducible apply Later.getD_none | with_reducible apply Later.getD_some
    | (split <;> rename_i e <;> first | (with_reducible refine Later.cut1 (s0 := s0) e ?_ (fun _ => ?_) <;> clear e) | (with_reducible refine Later.cut2 (s0 := s0) e ?_ (fun _ => ?_) <;> clear e) | (with_reducible refine Later.cut3 (s0 := s0) e ?_ (fun _ => ?_) <;> clear e) | skip)
    | fail_if_no_progress with_reducible apply Later.upd)

theorem dropAtCore_later {s0 : State} {s : State} (c : Nat) (part : Option Nat) (score : Nat) (hl : Later s0 s) :
    Later s0 (dropAtCore s c part score) := by
  unfold dropAtCore
  repeat' (first
    | with_reducible assumption
    | intro _
    | (extract_lets +onlyGivenNames x; clear_value (e : x = _); first | (with_reducible refine Later.cut (s0 := s0) e ?_ (fun _ => ?_) <;> clear e) | clear e)
    | with_reducible apply meshDrop_later
    | (split <;> rename_i e <;> first | (with_reducible refine Later.cut1 (s0 := s0) e ?_ (fun _ => ?_) <;> clear e) | (with_reducible refine Later.cut2 (s0 := s0) e ?_ (fun _ => ?_) <;> clear e) | (with_reducible refine Later.cut3 (s0 := s0) e ?_ (fun _ => ?_) <;> clear e) | skip)
    | fail_if_no_progress with_reducible apply Later.upd)

theorem dropAtDie_later {s0 : State} {s : State} (die i : Nat) (part : Option Nat) (score : Nat) (hl : Later s0 s) :
    Later s0 (dropAtDie s die i part score) := by
  unfold dropAtDie
  repeat' (first
    | with_reducible assumption
    | intro _
    | (extract_lets +onlyGivenNames x; clear_value (e : x = _); first | (with_reducible refine Later.cut (s0 := s0) e ?_ (fun _ => ?_) <;> clear e) | clear e)
    | with_reducible apply meshDrop_later
    | (split <;> rename_i e <;> first | (with_reducible refine Later.cut1 (s0 := s0) e ?_ (fun _ => ?_) <;> clear e) | (with_reducible refine Later.cut2 (s0 := s0) e ?_ (fun _ => ?_) <;> clear e) | (with_reducible refine Later.cut3 (s0 := s0) e ?_ (fun _ => ?_) <;> clear e) | skip)
    | fail_if_no_progress with_reducible apply Later.upd)

theorem touchKey_later {s0 : State} {s : State} (c k port : Nat) (hl : Later s0 s) :
    Later s0 (touchKey s c k port).1 := by
  unfold touchKey
  repeat' (first
    | with_reducible assumption
    | intro _
    | (extract_lets +onlyGivenNames x; clear_value (e : x = _); first | (with_reducible refine Later.cut (s0 := s0) e ?_ (fun _ => ?_) <;> clear e) | clear e)
    | with_reducible apply modSpd_later | with_reducible apply raiseErr_later | with_reducible apply count_later
    | (split <;> rename_i e <;> first | (with_reducible refine Later.cut1 (s0 := s0) e ?_ (fun _ => ?_) <;> clear e) | (with_reducible refine Later.cut2 (s0 := s0) e ?_ (fun _ => ?_) <;> clear e) | (with_reducible refine Later.cut3 (s0 := s0) e ?_ (fun _ => ?_) <;> clear e) | skip)
    | fail_if_no_progress with_reducible apply Later.upd)

theorem touchWord_later {s0 : State} {s : State} (c : Nat) (off : Nat) (port : Nat) (hl : Later s0 s) :
    Later s0 (touchWord s c off port).1 := by
  unfold touchWord
  repeat' (first | with_reducible assumption | with_reducible apply touchKey_later | intro _)

theorem touchRange_later {s0 : State} {s : State} (c : Nat) (off : Nat) (n : Nat) (port : Nat) (hl : Later s0 s) :
    Later s0 (touchRange s c off n port).1 := by
  unfold touchRange
  repeat' (first
    | with_reducible assumption
    | intro _
    | (extract_lets +onlyGivenNames x; clear_value (e : x = _); first | (with_reducible refine Later.cut (s0 := s0) e ?_ (fun _ => ?_) <;> clear e) | (with_reducible refine Later.cutFp (s0 := s0) e ?_ (fun hg => ?_) <;> clear e) | clear e)
    | with_reducible apply hg
    | with_reducible apply touchWord_later
    | with_reducible apply Later.foldl | with_reducible apply Later.foldl1 | with_reducible apply Later.foldl2
    | (split <;> rename_i e <;> first | (with_reducible refine Later.cut1 (s0 := s0) e ?_ (fun _ => ?_) <;> clear e) | (with_reducible refine Later.cut2 (s0 := s0) e ?_ (fun _ => ?_) <;> clear e) | skip))

theorem spRead_later {s0 : State} {s : State} (c : Nat) (off : Nat) (n : Nat) (port : Nat) (hl : Later s0 s) :
    Later s0 (spRead s c off n port).1 := by
  unfold spRead
  repeat' (first
    | with_reducible assumption
    | intro _
    | (extract_lets +onlyGivenNames x; clear_value (e : x = _); first | (with_reducible refine Later.cut (s0 := s0) e ?_ (fun _ => ?_) <;> clear e) | clear e)
    | with_reducible apply touchRange_later
    | (split <;> rename_i e <;> first | (with_reducible refine Later.cut1 (s0 := s0) e ?_ (fun _ => ?_) <;> clear e) | (with_reducible refine Later.cut2 (s0 := s0) e ?_ (fun _ => ?_) <;> clear e) | skip))

theorem spWriteWord_later {s0 : State} {s : State} (c : Nat) (off : Nat) (bs : Bytes) (port : Nat) (w : Nat) (hl : Later s0 s) :
    Later s0 (spWriteWord s c off bs port w).1 := by
  unfold spWriteWord
  repeat' (first
    | with_reducible assumption
    | intro _
    | (extract_lets +onlyGivenNames x; clear_value (e : x = _); first | (with_reducible refine Later.cut (s0 := s0) e ?_ (fun _ => ?_) <;> clear e) | clear e)
    | with_reducible apply spPuts_later | with_reducible apply setSpMark_later | with_reducible apply touchWord_later
    | (split <;> rename_i e <;> first | (with_reducible refine Later.cut1 (s0 := s0) e ?_ (fun _ => ?_) <;> clear e) | (with_reducible refine Later.cut2 (s0 := s0) e ?_ (fun _ => ?_) <;> clear e) | skip))

theorem spWrite_later {s0 : State} {s : State} (c : Nat) (off : Nat) (bs : Bytes) (port : Nat) (hl : Later s0 s) :
    Later s0 (spWrite s c off bs port).1 := by
  unfold spWrite
  repeat' (first
    | with_reducible assumption
    | intro _
    | (extract_lets +onlyGivenNames x; clear_value (e : x = _); first | (with_reducible refine Later.cut (s0 := s0) e ?_ (fun _ => ?_) <;> clear e) | (with_reducible refine Later.cutFp (s0 := s0) e ?_ (fun hg => ?_) <;> clear e) | clear e)
    | with_reducible apply hg
    | with_reducible apply spWriteWord_later
    | with_reducible apply Later.foldl | with_reducible apply Later.foldl1 | with_reducible apply Later.foldl2
    | (split <;> rename_i e <;> first | (with_reducible refine Later.cut1 (s0 := s0) e ?_ (fun _ => ?_) <;> clear e) | (with_reducible refine Later.cut2 (s0 := s0) e ?_ (fun _ => ?_) <;> clear e) | skip))

theorem spWriteP_later {s0 : State} {s : State} (c : Nat) (off : Nat) (bs : Bytes) (poison : List Nat) (port : Nat) (hl : Later s0 s) :
    Later s0 (spWriteP s c off bs poison port).1 := by
  unfold spWriteP
  repeat' (first
    | with_reducible assumption
    | intro _
    | (extract_lets +onlyGivenNames x; clear_value (e : x = _); first | (with_reducible refine Later.cut (s0 := s0) e ?_ (fun _ => ?_) <;> clear e) | clear e)
    | with_reducible apply spWrite_later | with_reducible apply setSpMark_later
    | with_reducible apply Later.foldl
    | (split <;> rename_i e <;> first | (with_reducible refine Later.cut1 (s0 := s0) e ?_ (fun _ => ?_) <;> clear e) | (with_reducible refine Later.cut2 (s0 := s0) e ?_ (fun _ => ?_) <;> clear e) | skip))

theorem setFlags_later {s0 : State} {s : State} (c : Nat) (m : W64) (hl : Later s0 s) :
    Later s0 (setFlags s c m) := by
  unfold setFlags
  repeat' (first
    | with_reducible assumption
    | intro _
    | (extract_lets +onlyGivenNames x; clear_value (e : x = _); first | (with_reducible refine Later.cut (s0 := s0) e ?_ (fun _ => ?_) <;> clear e) | clear e)
    | with_reducible apply modQue_later | with_reducible apply count_later | with_reducible apply modCtl_later
    | (split <;> rename_i e <;> first | (with_reducible refine Later.cut1 (s0 := s0) e ?_ (fun _ => ?_) <;> clear e) | (with_reducible refine Later.cut2 (s0 := s0) e ?_ (fun _ => ?_) <;> clear e) | (with_reducible refine Later.cut3 (s0 := s0) e ?_ (fun _ => ?_) <;> clear e) | skip)
    | fail_if_no_progress with_reducible apply Later.upd)

theorem setMember_later {s0 : State} {s : State} (p : SendPath) (k : Nat) (st : MsgSt) (hl : Later s0 s) :
    Later s0 (setMember s p k st) := by
  unfold setMember
  repeat' (first
    | with_reducible assumption
    | intro _
    | split
    | fail_if_no_progress with_reducible apply Later.upd)

theorem dropSend_later {s0 : State} {s : State} (p : SendPath) (hl : Later s0 s) :
    Later s0 (dropSend s p) := by
  unfold dropSend
  repeat' (first
    | with_reducible assumption
    | intro _
    | fail_if_no_progress with_reducible apply Later.upd)

theorem sendRemote_later {s0 : State} {s : State} (c : Nat) (a : W64) (opc n : Nat) (f : LinkPkt → LinkPkt) (hl : Later s0 s) :
    Later s0 (sendRemote s c a opc n f) := by
  unfold sendRemote
  repeat' (first
    | with_reducible assumption
    | intro _
    | (extract_lets +onlyGivenNames x; clear_value (e : x = _); first | (with_reducible refine Later.cut (s0 := s0) e ?_ (fun _ => ?_) <;> clear e) | clear e)
    | with_reducible apply emit_later
    | (split <;> rename_i e <;> first | (with_reducible refine Later.cut1 (s0 := s0) e ?_ (fun _ => ?_) <;> clear e) | (with_reducible refine Later.cut2 (s0 := s0) e ?_ (fun _ => ?_) <;> clear e) | (with_reducible refine Later.cut3 (s0 := s0) e ?_ (fun _ => ?_) <;> clear e) | skip)
    | fail_if_no_progress with_reducible apply Later.upd)

theorem grantNext_later {s0 : State} {s : State} (c q slot : Nat) (hl : Later s0 s) :
    Later s0 (grantNext s c q slot) := by
  unfold grantNext
  repeat' (first
    | with_reducible assumption
    | intro _
    | (extract_lets +onlyGivenNames x; clear_value (e : x = _); first | (with_reducible refine Later.cut (s0 := s0) e ?_ (fun _ => ?_) <;> clear e) | clear e)
    | with_reducible apply modQ_later | with_reducible apply emit_later
    | (split <;> rename_i e <;> first | (with_reducible refine Later.cut1 (s0 := s0) e ?_ (fun _ => ?_) <;> clear e) | (with_reducible refine Later.cut2 (s0 := s0) e ?_ (fun _ => ?_) <;> clear e) | (with_reducible refine Later.cut3 (s0 := s0) e ?_ (fun _ => ?_) <;> clear e) | skip)
    | fail_if_no_progress with_reducible apply Later.upd)

theorem freeEntry_later {s0 : State} {s : State} (c q : Nat) (u : Queue) (slot : Nat) (hl : Later s0 s) :
    Later s0 (freeEntry s c q u slot) := by
  unfold freeEntry
  repeat' (first
    | with_reducible assumption
    | intro _
    | (extract_lets +onlyGivenNames x; clear_value (e : x = _); first | (with_reducible refine Later.cut (s0 := s0) e ?_ (fun _ => ?_) <;> clear e) | clear e)
    | with_reducible apply grantNext_later | with_reducible apply count_later
    | (split <;> rename_i e <;> first | (with_reducible refine Later.cut1 (s0 := s0) e ?_ (fun _ => ?_) <;> clear e) | (with_reducible refine Later.cut2 (s0 := s0) e ?_ (fun _ => ?_) <;> clear e) | (with_reducible refine Later.cut3 (s0 := s0) e ?_ (fun _ => ?_) <;> clear e) | skip)
    | fail_if_no_progress with_reducible apply Later.upd)

theorem popMsg_later {s0 : State} {s : State} (c q : Nat) (hl : Later s0 s) :
    Later s0 (popMsg s c q) := by
  unfold popMsg
  repeat' (first
    | with_reducible assumption
    | intro _
    | (extract_lets +onlyGivenNames x; clear_value (e : x = _); first | (with_reducible refine Later.cut (s0 := s0) e ?_ (fun _ => ?_) <;> clear e) | clear e)
    | with_reducible apply freeEntry_later | with_reducible apply modQ_later
    | (split <;> rename_i e <;> first | (with_reducible refine Later.cut1 (s0 := s0) e ?_ (fun _ => ?_) <;> clear e) | (with_reducible refine Later.cut2 (s0 := s0) e ?_ (fun _ => ?_) <;> clear e) | (with_reducible refine Later.cut3 (s0 := s0) e ?_ (fun _ => ?_) <;> clear e) | skip)
    | fail_if_no_progress with_reducible apply Later.upd)

theorem unwait_later {s0 : State} {s : State} (c q : Nat) (w : Sender) (hl : Later s0 s) :
    Later s0 (unwait s c q w) := by
  unfold unwait
  repeat' (first
    | with_reducible assumption
    | intro _
    | (extract_lets +onlyGivenNames x; clear_value (e : x = _); first | (with_reducible refine Later.cut (s0 := s0) e ?_ (fun _ => ?_) <;> clear e) | clear e)
    | with_reducible apply freeEntry_later | with_reducible apply modQ_later
    | (split <;> rename_i e <;> first | (with_reducible refine Later.cut1 (s0 := s0) e ?_ (fun _ => ?_) <;> clear e) | (with_reducible refine Later.cut2 (s0 := s0) e ?_ (fun _ => ?_) <;> clear e) | (with_reducible refine Later.cut3 (s0 := s0) e ?_ (fun _ => ?_) <;> clear e) | skip)
    | fail_if_no_progress with_reducible apply Later.upd)

theorem countRefusal_later {s0 : State} {s : State} (c status q spart score sdev : Nat) (evp : Bool) (hl : Later s0 s) :
    Later s0 (countRefusal s c status q spart score sdev evp) := by
  unfold countRefusal
  repeat' (first
    | with_reducible assumption
    | intro _
    | (extract_lets +onlyGivenNames x; clear_value (e : x = _); first | (with_reducible refine Later.cut (s0 := s0) e ?_ (fun _ => ?_) <;> clear e) | clear e)
    | with_reducible apply modQue_later | with_reducible apply refuse_later | with_reducible apply count_later
    | (split <;> rename_i e <;> first | (with_reducible refine Later.cut1 (s0 := s0) e ?_ (fun _ => ?_) <;> clear e) | (with_reducible refine Later.cut2 (s0 := s0) e ?_ (fun _ => ?_) <;> clear e) | (with_reducible refine Later.cut3 (s0 := s0) e ?_ (fun _ => ?_) <;> clear e) | skip)
    | fail_if_no_progress with_reducible apply Later.upd)

theorem deliverMsg_later {s0 : State} {s : State} (c q dst : Nat) (d : Reg) (lat : Bool) (hl : Later s0 s) :
    Later s0 (deliverMsg s c q dst d lat).1 := by
  unfold deliverMsg
  repeat' (first
    | with_reducible assumption
    | intro _
    | (extract_lets +onlyGivenNames x; clear_value (e : x = _); first | (with_reducible refine Later.cut (s0 := s0) e ?_ (fun _ => ?_) <;> clear e) | clear e)
    | with_reducible apply spRead_later | with_reducible apply spWrite_later | with_reducible apply popMsg_later | with_reducible apply count_later | with_reducible apply modCtl_later
    | (split <;> rename_i e <;> first | (with_reducible refine Later.cut1 (s0 := s0) e ?_ (fun _ => ?_) <;> clear e) | (with_reducible refine Later.cut2 (s0 := s0) e ?_ (fun _ => ?_) <;> clear e) | (with_reducible refine Later.cut3 (s0 := s0) e ?_ (fun _ => ?_) <;> clear e) | skip)
    | fail_if_no_progress with_reducible apply Later.upd)

theorem streamPut_later {s0 : State} {s : State} (c e : Nat) (h : DmaEng → DmaEng) (d : DmaDesc) (hl : Later s0 s) :
    Later s0 (streamPut s c e h d) := by
  unfold streamPut
  repeat' (first
    | with_reducible assumption
    | intro _
    | (extract_lets +onlyGivenNames x; clear_value (e : x = _); first | (with_reducible refine Later.cut (s0 := s0) e ?_ (fun _ => ?_) <;> clear e) | clear e)
    | with_reducible apply modDma_later | with_reducible apply sendRemote_later
    | with_reducible apply Later.foldl | with_reducible apply Later.foldl1 | with_reducible apply Later.foldl2
    | with_reducible apply Later.getD_none | with_reducible apply Later.getD_some
    | (split <;> rename_i e <;> first | (with_reducible refine Later.cut1 (s0 := s0) e ?_ (fun _ => ?_) <;> clear e) | (with_reducible refine Later.cut2 (s0 := s0) e ?_ (fun _ => ?_) <;> clear e) | (with_reducible refine Later.cut3 (s0 := s0) e ?_ (fun _ => ?_) <;> clear e) | skip)
    | fail_if_no_progress with_reducible apply Later.upd)

theorem streamPump_later {s0 : State} {s : State} (fuel : Nat) (c e : Nat) (hl : Later s0 s) :
    Later s0 (streamPump fuel s c e) := by
  induction fuel generalizing s c e with
  | zero => unfold streamPump; exact hl
  | succ n ih =>
    unfold streamPump
    repeat' (first
      | with_reducible assumption
      | intro _
      | (extract_lets +onlyGivenNames x; clear_value (e : x = _); first | (with_reducible refine Later.cut (s0 := s0) e ?_ (fun _ => ?_) <;> clear e) | clear e)
      | with_reducible apply ih | with_reducible apply streamPut_later | with_reducible apply spRead_later | with_reducible apply popMsg_later | with_reducible apply count_later
      | (split <;> rename_i e <;> first | (with_reducible refine Later.cut1 (s0 := s0) e ?_ (fun _ => ?_) <;> clear e) | (with_reducible refine Later.cut2 (s0 := s0) e ?_ (fun _ => ?_) <;> clear e) | (with_reducible refine Later.cut3 (s0 := s0) e ?_ (fun _ => ?_) <;> clear e) | skip)
      | fail_if_no_progress with_reducible apply Later.upd)

theorem serveRecv_later {s0 : State} {s : State} (c q dst : Nat) (d : Reg) (hl : Later s0 s) :
    Later s0 (serveRecv s c q dst d).1 := by
  unfold serveRecv
  repeat' (first
    | with_reducible assumption
    | intro _
    | (extract_lets +onlyGivenNames x; clear_value (e : x = _); first | (with_reducible refine Later.cut (s0 := s0) e ?_ (fun _ => ?_) <;> clear e) | clear e)
    | with_reducible apply modCtl_later | with_reducible apply deliverMsg_later
    | (split <;> rename_i e <;> first | (with_reducible refine Later.cut1 (s0 := s0) e ?_ (fun _ => ?_) <;> clear e) | (with_reducible refine Later.cut2 (s0 := s0) e ?_ (fun _ => ?_) <;> clear e) | (with_reducible refine Later.cut3 (s0 := s0) e ?_ (fun _ => ?_) <;> clear e) | skip)
    | fail_if_no_progress with_reducible apply Later.upd)

theorem storeMsg_later {s0 : State} {s : State} (c q slot : Nat) (bs : Bytes) (poison : List Nat) (info : MsgMeta) (hl : Later s0 s) :
    Later s0 (storeMsg s c q slot bs poison info).1 := by
  unfold storeMsg
  repeat' (first
    | with_reducible assumption
    | intro _
    | (extract_lets +onlyGivenNames x; clear_value (e : x = _); first | (with_reducible refine Later.cut (s0 := s0) e ?_ (fun _ => ?_) <;> clear e) | clear e)
    | with_reducible apply spWriteP_later | with_reducible apply modQ_later | with_reducible apply count_later | with_reducible apply setFlags_later | with_reducible apply streamPump_later | with_reducible apply serveRecv_later
    | (split <;> rename_i e <;> first | (with_reducible refine Later.cut1 (s0 := s0) e ?_ (fun _ => ?_) <;> clear e) | (with_reducible refine Later.cut2 (s0 := s0) e ?_ (fun _ => ?_) <;> clear e) | (with_reducible refine Later.cut3 (s0 := s0) e ?_ (fun _ => ?_) <;> clear e) | skip)
    | fail_if_no_progress with_reducible apply Later.upd)

theorem refuseWith_later {s0 : State} {s : State} (c q : Nat) (info : MsgMeta) (st : Nat) (hl : Later s0 s) :
    Later s0 (refuseWith s c q info st).1 := by
  unfold refuseWith
  repeat' (first
    | with_reducible assumption
    | intro _
    | (extract_lets +onlyGivenNames x; clear_value (e : x = _); first | (with_reducible refine Later.cut (s0 := s0) e ?_ (fun _ => ?_) <;> clear e) | clear e)
    | with_reducible apply countRefusal_later
    | (split <;> rename_i e <;> first | (with_reducible refine Later.cut1 (s0 := s0) e ?_ (fun _ => ?_) <;> clear e) | (with_reducible refine Later.cut2 (s0 := s0) e ?_ (fun _ => ?_) <;> clear e) | (with_reducible refine Later.cut3 (s0 := s0) e ?_ (fun _ => ?_) <;> clear e) | skip)
    | fail_if_no_progress with_reducible apply Later.upd)

theorem arrive_later {s0 : State} {s : State} (c q : Nat) (bs : Bytes) (poison : List Nat) (info : MsgMeta) (w : Option Sender) (hl : Later s0 s) :
    Later s0 (arrive s c q bs poison info w).1 := by
  unfold arrive
  repeat' (first
    | with_reducible assumption
    | intro _
    | (extract_lets +onlyGivenNames x; clear_value (e : x = _); first | (with_reducible refine Later.cut (s0 := s0) e ?_ (fun _ => ?_) <;> clear e) | clear e)
    | with_reducible apply dropAtCore_later | with_reducible apply modQ_later | with_reducible apply storeMsg_later | with_reducible apply refuseWith_later
    | (split <;> rename_i e <;> first | (with_reducible refine Later.cut1 (s0 := s0) e ?_ (fun _ => ?_) <;> clear e) | (with_reducible refine Later.cut2 (s0 := s0) e ?_ (fun _ => ?_) <;> clear e) | (with_reducible refine Later.cut3 (s0 := s0) e ?_ (fun _ => ?_) <;> clear e) | skip)
    | fail_if_no_progress with_reducible apply Later.upd)

theorem setLock_later {s0 : State} {s : State} (i : Nat) (l : Lock) (hl : Later s0 s) :
    Later s0 (setLock s i l) := by
  unfold setLock
  repeat' (first
    | with_reducible assumption
    | intro _
    | fail_if_no_progress with_reducible apply Later.upd)

theorem lockReply_later {s0 : State} {s : State} (who : LockWho) (status : Nat) (v : W64) (hl : Later s0 s) :
    Later s0 (lockReply s who status v) := by
  unfold lockReply
  repeat' (first
    | with_reducible assumption
    | intro _
    | with_reducible apply emit_later
    | split
    | fail_if_no_progress with_reducible apply Later.upd)

theorem lockPass_later {s0 : State} {s : State} (i : Nat) (status : Nat) (st : LockState) (hl : Later s0 s) :
    Later s0 (lockPass s i status st) := by
  unfold lockPass
  repeat' (first
    | with_reducible assumption
    | intro _
    | (extract_lets +onlyGivenNames x; clear_value (e : x = _); first | (with_reducible refine Later.cut (s0 := s0) e ?_ (fun _ => ?_) <;> clear e) | clear e)
    | with_reducible apply setLock_later | with_reducible apply lockReply_later
    | split
    | fail_if_no_progress with_reducible apply Later.upd)

theorem lockAbandon_later {s0 : State} {s : State} (i : Nat) (hl : Later s0 s) :
    Later s0 (lockAbandon s i) := by
  unfold lockAbandon
  repeat' (first | with_reducible assumption | with_reducible apply lockPass_later | intro _)

theorem locksLost_later {s0 : State} {s : State} (gone : LockWho → Bool) (hl : Later s0 s) :
    Later s0 (locksLost s gone) := by
  unfold locksLost
  repeat' (first
    | with_reducible assumption
    | intro _
    | (extract_lets +onlyGivenNames x; clear_value (e : x = _); first | (with_reducible refine Later.cut (s0 := s0) e ?_ (fun _ => ?_) <;> clear e) | clear e)
    | with_reducible apply lockAbandon_later
    | with_reducible apply Later.foldl | with_reducible apply Later.foldl1 | with_reducible apply Later.foldl2
    | (split <;> rename_i e <;> first | (with_reducible refine Later.cut1 (s0 := s0) e ?_ (fun _ => ?_) <;> clear e) | (with_reducible refine Later.cut2 (s0 := s0) e ?_ (fun _ => ?_) <;> clear e) | skip)
    | fail_if_no_progress with_reducible apply Later.upd)

theorem lockWithdraw_later {s0 : State} {s : State} (c : Nat) (hl : Later s0 s) :
    Later s0 (lockWithdraw s c) := by
  unfold lockWithdraw
  repeat' (first
    | with_reducible assumption
    | intro _
    | fail_if_no_progress with_reducible apply Later.upd)

theorem withdraw_later {s0 : State} {s : State} (p : SendPath) (hl : Later s0 s) :
    Later s0 (withdraw s p).1 := by
  unfold withdraw
  repeat' (first
    | with_reducible assumption
    | intro _
    | (extract_lets +onlyGivenNames x; clear_value (e : x = _); first | (with_reducible refine Later.cut (s0 := s0) e ?_ (fun _ => ?_) <;> clear e) | clear e)
    | with_reducible apply unwait_later | with_reducible apply dropSend_later
    | with_reducible apply Later.foldl
    | split
    | fail_if_no_progress with_reducible apply Later.upd)

theorem discardFlight_later {s0 : State} {s : State} (c : Nat) (f : Flight) (hl : Later s0 s) :
    Later s0 (discardFlight s c f) := by
  unfold discardFlight
  repeat' (first | with_reducible assumption | with_reducible apply modCore_later | intro _)

theorem sendMember_later {s0 : State} {s : State} (p : SendPath) (f : Send) (m : Member) (hl : Later s0 s) :
    Later s0 (sendMember s p f m) := by
  unfold sendMember
  repeat' (first
    | with_reducible assumption
    | intro _
    | (extract_lets +onlyGivenNames x; clear_value (e : x = _); first | (with_reducible refine Later.cut (s0 := s0) e ?_ (fun _ => ?_) <;> clear e) | clear e)
    | with_reducible apply emit_later
    | (split <;> rename_i e <;> first | (with_reducible refine Later.cut1 (s0 := s0) e ?_ (fun _ => ?_) <;> clear e) | (with_reducible refine Later.cut2 (s0 := s0) e ?_ (fun _ => ?_) <;> clear e) | (with_reducible refine Later.cut3 (s0 := s0) e ?_ (fun _ => ?_) <;> clear e) | skip)
    | fail_if_no_progress with_reducible apply Later.upd)

theorem countPath_later {s0 : State} {s : State} (p : SendPath) (code : Nat) (d : Option MsgDest) (status len : Nat) (hl : Later s0 s) :
    Later s0 (countPath s p code d status len) := by
  unfold countPath
  repeat' (first
    | with_reducible assumption
    | intro _
    | (extract_lets +onlyGivenNames x; clear_value (e : x = _); first | (with_reducible refine Later.cut (s0 := s0) e ?_ (fun _ => ?_) <;> clear e) | clear e)
    | with_reducible apply count_later
    | (split <;> rename_i e <;> first | (with_reducible refine Later.cut1 (s0 := s0) e ?_ (fun _ => ?_) <;> clear e) | (with_reducible refine Later.cut2 (s0 := s0) e ?_ (fun _ => ?_) <;> clear e) | (with_reducible refine Later.cut3 (s0 := s0) e ?_ (fun _ => ?_) <;> clear e) | skip)
    | fail_if_no_progress with_reducible apply Later.upd)

theorem startSend_later {s0 : State} {s : State} (p : SendPath) (f : Send) (hl : Later s0 s) :
    Later s0 (startSend s p f) := by
  unfold startSend
  repeat' (first
    | with_reducible assumption
    | intro _
    | (extract_lets +onlyGivenNames x; clear_value (e : x = _); first | (with_reducible refine Later.cut (s0 := s0) e ?_ (fun _ => ?_) <;> clear e) | clear e)
    | with_reducible apply countPath_later | with_reducible apply sendMember_later
    | with_reducible apply Later.foldl | with_reducible apply Later.foldl1 | with_reducible apply Later.foldl2
    | (split <;> rename_i e <;> first | (with_reducible refine Later.cut1 (s0 := s0) e ?_ (fun _ => ?_) <;> clear e) | (with_reducible refine Later.cut2 (s0 := s0) e ?_ (fun _ => ?_) <;> clear e) | (with_reducible refine Later.cut3 (s0 := s0) e ?_ (fun _ => ?_) <;> clear e) | skip)
    | fail_if_no_progress with_reducible apply Later.upd)

theorem dmaFinish_later {s0 : State} {s : State} (c e : Nat) (f : Flight) (d : DmaDesc) (status : Nat) (hl : Later s0 s) :
    Later s0 (dmaFinish s c e f d status) := by
  unfold dmaFinish
  repeat' (first
    | with_reducible assumption
    | intro _
    | (extract_lets +onlyGivenNames x; clear_value (e : x = _); first | (with_reducible refine Later.cut (s0 := s0) e ?_ (fun _ => ?_) <;> clear e) | clear e)
    | with_reducible apply modDma_later | with_reducible apply count_later | with_reducible apply modCore_later
    | (split <;> rename_i e <;> first | (with_reducible refine Later.cut1 (s0 := s0) e ?_ (fun _ => ?_) <;> clear e) | (with_reducible refine Later.cut2 (s0 := s0) e ?_ (fun _ => ?_) <;> clear e) | (with_reducible refine Later.cut3 (s0 := s0) e ?_ (fun _ => ?_) <;> clear e) | skip)
    | fail_if_no_progress with_reducible apply Later.upd)

theorem dmaClose_later {s0 : State} {s : State} (c e : Nat) (f : Flight) (d : DmaDesc) (status : Nat) (hl : Later s0 s) :
    Later s0 (dmaClose s c e f d status) := by
  unfold dmaClose
  repeat' (first
    | with_reducible assumption
    | intro _
    | (extract_lets +onlyGivenNames x; clear_value (e : x = _); first | (with_reducible refine Later.cut (s0 := s0) e ?_ (fun _ => ?_) <;> clear e) | (with_reducible refine Later.cutF (s0 := s0) e ?_ (fun hg => ?_) <;> clear e) | (with_reducible refine Later.cutF1 (s0 := s0) e ?_ (fun hg => ?_) <;> clear e) | (with_reducible refine Later.cutF2 (s0 := s0) e ?_ (fun hg => ?_) <;> clear e) | (with_reducible refine Later.cutC (s0 := s0) e ?_ (fun hg => ?_) <;> clear e) | (with_reducible refine Later.cutFp (s0 := s0) e ?_ (fun hg => ?_) <;> clear e) | clear e)
    | with_reducible apply modDma_later | with_reducible apply modCore_later | with_reducible apply count_later | with_reducible apply startSend_later | with_reducible apply dmaFinish_later
    | with_reducible apply hg
    | (split <;> rename_i e <;> first | (with_reducible refine Later.cut1 (s0 := s0) e ?_ (fun _ => ?_) <;> clear e) | (with_reducible refine Later.cut2 (s0 := s0) e ?_ (fun _ => ?_) <;> clear e) | (with_reducible refine Later.cut3 (s0 := s0) e ?_ (fun _ => ?_) <;> clear e) | skip)
    | fail_if_no_progress with_reducible apply Later.upd)

theorem dmaHalt_later {s0 : State} {s : State} (c e : Nat) (hl : Later s0 s) :
    Later s0 (dmaHalt s c e) := by
  unfold dmaHalt
  repeat' (first
    | with_reducible assumption
    | intro _
    | (extract_lets +onlyGivenNames x; clear_value (e : x = _); first | (with_reducible refine Later.cut (s0 := s0) e ?_ (fun _ => ?_) <;> clear e) | clear e)
    | with_reducible apply modDma_later | with_reducible apply streamPut_later | with_reducible apply modCore_later | with_reducible apply withdraw_later | with_reducible apply dmaClose_later
    | (split <;> rename_i e <;> first | (with_reducible refine Later.cut1 (s0 := s0) e ?_ (fun _ => ?_) <;> clear e) | (with_reducible refine Later.cut2 (s0 := s0) e ?_ (fun _ => ?_) <;> clear e) | (with_reducible refine Later.cut3 (s0 := s0) e ?_ (fun _ => ?_) <;> clear e) | skip)
    | fail_if_no_progress with_reducible apply Later.upd)

theorem enginesHalt_later {s0 : State} {s : State} (c : Nat) (hl : Later s0 s) :
    Later s0 (enginesHalt s c) := by
  unfold enginesHalt
  repeat' (first
    | with_reducible assumption
    | intro _
    | (extract_lets +onlyGivenNames x; clear_value (e : x = _); first | (with_reducible refine Later.cut (s0 := s0) e ?_ (fun _ => ?_) <;> clear e) | clear e)
    | with_reducible apply discardFlight_later | with_reducible apply dmaHalt_later | with_reducible apply withdraw_later | with_reducible apply drawBool_later | with_reducible apply lockWithdraw_later
    | with_reducible apply Later.foldl | with_reducible apply Later.foldl1 | with_reducible apply Later.foldl2
    | (split <;> rename_i e <;> first | (with_reducible refine Later.cut1 (s0 := s0) e ?_ (fun _ => ?_) <;> clear e) | (with_reducible refine Later.cut2 (s0 := s0) e ?_ (fun _ => ?_) <;> clear e) | (with_reducible refine Later.cut3 (s0 := s0) e ?_ (fun _ => ?_) <;> clear e) | skip)
    | fail_if_no_progress with_reducible apply Later.upd)

theorem systemMsg_later {s0 : State} {s : State} (c : Nat) (q : Nat) (bs : Bytes) (hl : Later s0 s) :
    Later s0 (systemMsg s c q bs).1 := by
  unfold systemMsg
  repeat' (first
    | with_reducible assumption
    | intro _
    | (extract_lets +onlyGivenNames x; clear_value (e : x = _); first | (with_reducible refine Later.cut (s0 := s0) e ?_ (fun _ => ?_) <;> clear e) | clear e)
    | with_reducible apply arrive_later
    | (split <;> rename_i e <;> first | (with_reducible refine Later.cut1 (s0 := s0) e ?_ (fun _ => ?_) <;> clear e) | (with_reducible refine Later.cut2 (s0 := s0) e ?_ (fun _ => ?_) <;> clear e) | skip)
    | fail_if_no_progress with_reducible apply Later.upd)

theorem reportLaunch_later {s0 : State} {s : State} (c : Nat) (rep : LaunchRep) (hl : Later s0 s) :
    Later s0 (reportLaunch s c rep) := by
  unfold reportLaunch
  repeat' (first
    | with_reducible assumption
    | intro _
    | with_reducible apply modCtl_later
    | split
    | fail_if_no_progress with_reducible apply Later.upd)

theorem coreFault_later {s0 : State} {s : State} (c : Nat) (f : FaultInfo) (hl : Later s0 s) :
    Later s0 (coreFault s c f) := by
  unfold coreFault
  repeat' (first
    | with_reducible assumption
    | intro _
    | (extract_lets +onlyGivenNames x; clear_value (e : x = _); first | (with_reducible refine Later.cut (s0 := s0) e ?_ (fun _ => ?_) <;> clear e) | (with_reducible refine Later.cutF (s0 := s0) e ?_ (fun hg => ?_) <;> clear e) | (with_reducible refine Later.cutF1 (s0 := s0) e ?_ (fun hg => ?_) <;> clear e) | (with_reducible refine Later.cutF2 (s0 := s0) e ?_ (fun hg => ?_) <;> clear e) | (with_reducible refine Later.cutC (s0 := s0) e ?_ (fun hg => ?_) <;> clear e) | (with_reducible refine Later.cutFp (s0 := s0) e ?_ (fun hg => ?_) <;> clear e) | clear e)
    | with_reducible apply modCtl_later | with_reducible apply withdraw_later | with_reducible apply reportLaunch_later | with_reducible apply enginesHalt_later | with_reducible apply systemMsg_later | with_reducible apply raiseRec_later
    | with_reducible apply hg
    | (split <;> rename_i e <;> first | (with_reducible refine Later.cut1 (s0 := s0) e ?_ (fun _ => ?_) <;> clear e) | (with_reducible refine Later.cut2 (s0 := s0) e ?_ (fun _ => ?_) <;> clear e) | (with_reducible refine Later.cut3 (s0 := s0) e ?_ (fun _ => ?_) <;> clear e) | skip)
    | fail_if_no_progress with_reducible apply Later.upd)

theorem memFault_later {s0 : State} {s : State} (c eng tag : Nat) (m : Nat × Nat) (hl : Later s0 s) :
    Later s0 (memFault s c eng tag m) := by
  unfold memFault
  repeat' (first
    | with_reducible assumption
    | intro _
    | (extract_lets +onlyGivenNames x; clear_value (e : x = _); first | (with_reducible refine Later.cut (s0 := s0) e ?_ (fun _ => ?_) <;> clear e) | clear e)
    | with_reducible apply coreFault_later
    | (split <;> rename_i e <;> first | (with_reducible refine Later.cut1 (s0 := s0) e ?_ (fun _ => ?_) <;> clear e) | (with_reducible refine Later.cut2 (s0 := s0) e ?_ (fun _ => ?_) <;> clear e) | (with_reducible refine Later.cut3 (s0 := s0) e ?_ (fun _ => ?_) <;> clear e) | skip)
    | fail_if_no_progress with_reducible apply Later.upd)

theorem complete_later {s0 : State} {s : State} (c : Nat) (f : Flight) (err : Bool) (hl : Later s0 s) :
    Later s0 (complete s c f err) := by
  unfold complete
  repeat' (first
    | with_reducible assumption
    | intro _
    | (extract_lets +onlyGivenNames x; clear_value (e : x = _); first | (with_reducible refine Later.cut (s0 := s0) e ?_ (fun _ => ?_) <;> clear e) | clear e)
    | with_reducible apply modCore_later | with_reducible apply memFault_later
    | (split <;> rename_i e <;> first | (with_reducible refine Later.cut1 (s0 := s0) e ?_ (fun _ => ?_) <;> clear e) | (with_reducible refine Later.cut2 (s0 := s0) e ?_ (fun _ => ?_) <;> clear e) | (with_reducible refine Later.cut3 (s0 := s0) e ?_ (fun _ => ?_) <;> clear e) | skip)
    | fail_if_no_progress with_reducible apply Later.upd)

theorem countStatus_later {s0 : State} {s : State} (part : Option Nat) (r : RSt) (hl : Later s0 s) :
    Later s0 (countStatus s part r) := by
  unfold countStatus
  repeat' (first
    | with_reducible assumption
    | intro _
    | split
    | fail_if_no_progress with_reducible apply Later.upd)

theorem spAtomic_later {s0 : State} {s : State} (c off : Nat) (op : LockOp) (w64 : Bool) (opnd cmpv : W64) (hl : Later s0 s) :
    Later s0 (spAtomic s c off op w64 opnd cmpv).1 := by
  unfold spAtomic
  repeat' (first
    | with_reducible assumption
    | intro _
    | (extract_lets +onlyGivenNames x; clear_value (e : x = _); first | (with_reducible refine Later.cut (s0 := s0) e ?_ (fun _ => ?_) <;> clear e) | clear e)
    | with_reducible apply spRead_later | with_reducible apply count_later | with_reducible apply spWrite_later
    | (split <;> rename_i e <;> first | (with_reducible refine Later.cut1 (s0 := s0) e ?_ (fun _ => ?_) <;> clear e) | (with_reducible refine Later.cut2 (s0 := s0) e ?_ (fun _ => ?_) <;> clear e) | (with_reducible refine Later.cut3 (s0 := s0) e ?_ (fun _ => ?_) <;> clear e) | skip)
    | fail_if_no_progress with_reducible apply Later.upd)

theorem spPerform_later {s0 : State} {s : State} (c off size : Nat) (op : MemOp) (port : Nat) (hl : Later s0 s) :
    Later s0 (spPerform s c off size op port).1 := by
  unfold spPerform
  repeat' (first
    | with_reducible assumption
    | intro _
    | (extract_lets +onlyGivenNames x; clear_value (e : x = _); first | (with_reducible refine Later.cut (s0 := s0) e ?_ (fun _ => ?_) <;> clear e) | clear e)
    | with_reducible apply spRead_later | with_reducible apply spWriteP_later | with_reducible apply spAtomic_later
    | (split <;> rename_i e <;> first | (with_reducible refine Later.cut1 (s0 := s0) e ?_ (fun _ => ?_) <;> clear e) | (with_reducible refine Later.cut2 (s0 := s0) e ?_ (fun _ => ?_) <;> clear e) | (with_reducible refine Later.cut3 (s0 := s0) e ?_ (fun _ => ?_) <;> clear e) | skip)
    | fail_if_no_progress with_reducible apply Later.upd)

theorem remoteAccess_later {s0 : State} {s : State} (c : Nat) (r : WinReq) (score : Nat) (hl : Later s0 s) :
    Later s0 (remoteAccess s c r score).1 := by
  unfold remoteAccess
  repeat' (first
    | with_reducible assumption
    | intro _
    | (extract_lets +onlyGivenNames x; clear_value (e : x = _); first | (with_reducible refine Later.cut (s0 := s0) e ?_ (fun _ => ?_) <;> clear e) | clear e)
    | with_reducible apply count_later | with_reducible apply countStatus_later | with_reducible apply dropAtCore_later | with_reducible apply spPerform_later | with_reducible apply modSpd_later | with_reducible apply raiseRec_later
    | (split <;> rename_i e <;> first | (with_reducible refine Later.cut1 (s0 := s0) e ?_ (fun _ => ?_) <;> clear e) | (with_reducible refine Later.cut2 (s0 := s0) e ?_ (fun _ => ?_) <;> clear e) | (with_reducible refine Later.cut3 (s0 := s0) e ?_ (fun _ => ?_) <;> clear e) | skip)
    | fail_if_no_progress with_reducible apply Later.upd)

theorem localAccess_later {s0 : State} {s : State} (c : Nat) (req : Requester) (off size : Nat) (op : MemOp) (port : Nat) (hl : Later s0 s) :
    Later s0 (localAccess s c req off size op port).1 := by
  unfold localAccess
  repeat' (first
    | with_reducible assumption
    | intro _
    | (extract_lets +onlyGivenNames x; clear_value (e : x = _); first | (with_reducible refine Later.cut (s0 := s0) e ?_ (fun _ => ?_) <;> clear e) | clear e)
    | with_reducible apply countStatus_later | with_reducible apply dropAtCore_later | with_reducible apply spPerform_later
    | (split <;> rename_i e <;> first | (with_reducible refine Later.cut1 (s0 := s0) e ?_ (fun _ => ?_) <;> clear e) | (with_reducible refine Later.cut2 (s0 := s0) e ?_ (fun _ => ?_) <;> clear e) | (with_reducible refine Later.cut3 (s0 := s0) e ?_ (fun _ => ?_) <;> clear e) | skip)
    | fail_if_no_progress with_reducible apply Later.upd)

theorem setReg_later {s0 : State} {s : State} (c : Nat) (r : Reg) (v : W64) (hl : Later s0 s) :
    Later s0 (setReg s c r v) := by
  unfold setReg
  repeat' (first | with_reducible assumption | with_reducible apply modCtl_later | intro _)

theorem advance_later {s0 : State} {s : State} (c : Nat) (hl : Later s0 s) :
    Later s0 (advance s c) := by
  unfold advance
  repeat' (first
    | with_reducible assumption
    | intro _
    | with_reducible apply modCtl_later
    | fail_if_no_progress with_reducible apply Later.upd)

theorem block_later {s0 : State} {s : State} (c : Nat) (b : Blk) (hl : Later s0 s) :
    Later s0 (block s c b) := by
  unfold block
  repeat' (first
    | with_reducible assumption
    | intro _
    | with_reducible apply modCtl_later
    | fail_if_no_progress with_reducible apply Later.upd)

theorem cuFault_later {s0 : State} {s : State} (c : Nat) (code : Nat) (engine : Nat) (tag : Nat) (w : W32) (detail : Nat) (addr : W64) (ga : W64) (gb : W64) (hl : Later s0 s) :
    Later s0 (cuFault s c code engine tag w detail addr ga gb) := by
  unfold cuFault
  repeat' (first | with_reducible assumption | with_reducible apply coreFault_later | intro _)

theorem illegal_later {s0 : State} {s : State} (c : Nat) (w : W32) (ga : W64) (gb : W64) (hl : Later s0 s) :
    Later s0 (illegal s c w ga gb) := by
  unfold illegal
  repeat' (first | with_reducible assumption | with_reducible apply cuFault_later | intro _)

theorem issue_later {s0 : State} {s : State} (c : Nat) (act : State → State) (hl : Later s0 s) (hf : ∀ s, Later s0 s → Later s0 (act s)) :
    Later s0 (issue s c act) := by
  unfold issue
  repeat' (first
    | with_reducible assumption
    | intro _ | with_reducible apply hf
    | with_reducible apply count_later | with_reducible apply cuFault_later
    | split)

theorem alu_later {s0 : State} {s : State} (c : Nat) (d : Reg) (a : Reg) (b : Reg) (f : W64 → W64 → W64) (hl : Later s0 s) :
    Later s0 (alu s c d a b f) := by
  unfold alu
  repeat' (first | with_reducible assumption | with_reducible apply issue_later | with_reducible apply advance_later | with_reducible apply setReg_later | intro _)

theorem alu1_later {s0 : State} {s : State} (c : Nat) (fn : Nat) (d : Reg) (a : Reg) (b : Reg) (f : W64 → W64) (hl : Later s0 s) :
    Later s0 (alu1 s c fn d a b f) := by
  unfold alu1
  repeat' (first
    | with_reducible assumption
    | intro _
    | with_reducible apply issue_later | with_reducible apply advance_later | with_reducible apply setReg_later | with_reducible apply illegal_later
    | split)

theorem aluImm_later {s0 : State} {s : State} (c : Nat) (d : Reg) (a : Reg) (f : W64 → W64) (hl : Later s0 s) :
    Later s0 (aluImm s c d a f) := by
  unfold aluImm
  repeat' (first | with_reducible assumption | with_reducible apply issue_later | with_reducible apply advance_later | with_reducible apply setReg_later | intro _)

theorem aluShift_later {s0 : State} {s : State} (c : Nat) (op : Nat) (d : Reg) (a : Reg) (imm : BitVec 15) (f : W64 → Nat → W64) (hl : Later s0 s) :
    Later s0 (aluShift s c op d a imm f) := by
  unfold aluShift
  repeat' (first
    | with_reducible assumption
    | intro _
    | with_reducible apply issue_later | with_reducible apply advance_later | with_reducible apply setReg_later | with_reducible apply illegal_later
    | split)

theorem loadSp_later {s0 : State} {s : State} (c op : Nat) (d a : Reg) (imm : BitVec 15) (n : Nat) (ext : Nat → W64) (hl : Later s0 s) :
    Later s0 (loadSp s c op d a imm n ext) := by
  unfold loadSp
  repeat' (first
    | with_reducible assumption
    | intro _
    | (extract_lets +onlyGivenNames x; clear_value (e : x = _); first | (with_reducible refine Later.cut (s0 := s0) e ?_ (fun _ => ?_) <;> clear e) | clear e)
    | with_reducible apply issue_later | with_reducible apply cuFault_later | with_reducible apply block_later | with_reducible apply spRead_later | with_reducible apply count_later | with_reducible apply advance_later | with_reducible apply setReg_later
    | (split <;> rename_i e <;> first | (with_reducible refine Later.cut1 (s0 := s0) e ?_ (fun _ => ?_) <;> clear e) | (with_reducible refine Later.cut2 (s0 := s0) e ?_ (fun _ => ?_) <;> clear e) | (with_reducible refine Later.cut3 (s0 := s0) e ?_ (fun _ => ?_) <;> clear e) | skip)
    | fail_if_no_progress with_reducible apply Later.upd)

theorem storeSp_later {s0 : State} {s : State} (c op : Nat) (src a : Reg) (imm : BitVec 15) (n : Nat) (hl : Later s0 s) :
    Later s0 (storeSp s c op src a imm n) := by
  unfold storeSp
  repeat' (first
    | with_reducible assumption
    | intro _
    | (extract_lets +onlyGivenNames x; clear_value (e : x = _); first | (with_reducible refine Later.cut (s0 := s0) e ?_ (fun _ => ?_) <;> clear e) | clear e)
    | with_reducible apply issue_later | with_reducible apply cuFault_later | with_reducible apply block_later | with_reducible apply spWrite_later | with_reducible apply count_later | with_reducible apply advance_later
    | (split <;> rename_i e <;> first | (with_reducible refine Later.cut1 (s0 := s0) e ?_ (fun _ => ?_) <;> clear e) | (with_reducible refine Later.cut2 (s0 := s0) e ?_ (fun _ => ?_) <;> clear e) | (with_reducible refine Later.cut3 (s0 := s0) e ?_ (fun _ => ?_) <;> clear e) | skip)
    | fail_if_no_progress with_reducible apply Later.upd)

theorem branch_later {s0 : State} {s : State} (c : Nat) (a : Reg) (b : Reg) (off : BitVec 15) (rel : W64 → W64 → Bool) (hl : Later s0 s) :
    Later s0 (branch s c a b off rel) := by
  unfold branch
  repeat' (first
    | with_reducible assumption
    | intro _
    | with_reducible apply issue_later | with_reducible apply modCtl_later | with_reducible apply count_later | with_reducible apply advance_later
    | split
    | fail_if_no_progress with_reducible apply Later.upd)

theorem sysFn_later {s0 : State} {s : State} (c : Nat) (w : W32) (zero : Bool) (ga : W64) (gb : W64) (act : State → State) (hl : Later s0 s) (hf : ∀ s, Later s0 s → Later s0 (act s)) :
    Later s0 (sysFn s c w zero ga gb act) := by
  unfold sysFn
  repeat' (first
    | with_reducible assumption
    | intro _ | with_reducible apply hf
    | with_reducible apply issue_later | with_reducible apply illegal_later
    | split)

theorem notifyPart_later {s0 : State} {s : State} (p : Nat) (bs : Bytes) (hl : Later s0 s) :
    Later s0 (notifyPart s p bs) := by
  unfold notifyPart
  repeat' (first
    | with_reducible assumption
    | intro _
    | with_reducible apply systemMsg_later
    | split
    | fail_if_no_progress with_reducible apply Later.upd)

theorem makeRoom_later {s0 : State} {s : State} (hl : Later s0 s) :
    Later s0 (makeRoom s) := by
  unfold makeRoom
  repeat' (first
    | with_reducible assumption
    | intro _
    | (extract_lets +onlyGivenNames x; clear_value (e : x = _); first | (with_reducible refine Later.cut (s0 := s0) e ?_ (fun _ => ?_) <;> clear e) | clear e)
    | (split <;> rename_i e <;> first | (with_reducible refine Later.cut1 (s0 := s0) e ?_ (fun _ => ?_) <;> clear e) | (with_reducible refine Later.cut2 (s0 := s0) e ?_ (fun _ => ?_) <;> clear e) | (with_reducible refine Later.cut3 (s0 := s0) e ?_ (fun _ => ?_) <;> clear e) | skip)
    | fail_if_no_progress with_reducible apply Later.upd)

theorem surveyPut_later {s0 : State} {s : State} (ty source : Nat) (revoke prov : Bool) (loc : Bytes) (hl : Later s0 s) :
    Later s0 (surveyPut s ty source revoke prov loc) := by
  unfold surveyPut
  repeat' (first
    | with_reducible assumption
    | intro _
    | (extract_lets +onlyGivenNames x; clear_value (e : x = _); first | (with_reducible refine Later.cut (s0 := s0) e ?_ (fun _ => ?_) <;> clear e) | (with_reducible refine Later.cutF (s0 := s0) e ?_ (fun hg => ?_) <;> clear e) | (with_reducible refine Later.cutF1 (s0 := s0) e ?_ (fun hg => ?_) <;> clear e) | (with_reducible refine Later.cutF2 (s0 := s0) e ?_ (fun hg => ?_) <;> clear e) | (with_reducible refine Later.cutC (s0 := s0) e ?_ (fun hg => ?_) <;> clear e) | (with_reducible refine Later.cutFp (s0 := s0) e ?_ (fun hg => ?_) <;> clear e) | clear e)
    | with_reducible apply makeRoom_later | with_reducible apply raiseErr_later
    | with_reducible apply hg
    | (split <;> rename_i e <;> first | (with_reducible refine Later.cut1 (s0 := s0) e ?_ (fun _ => ?_) <;> clear e) | (with_reducible refine Later.cut2 (s0 := s0) e ?_ (fun _ => ?_) <;> clear e) | (with_reducible refine Later.cut3 (s0 := s0) e ?_ (fun _ => ?_) <;> clear e) | skip)
    | fail_if_no_progress with_reducible apply Later.upd)

theorem tearLast_later {s0 : State} {s : State} (hl : Later s0 s) :
    Later s0 (tearLast s) := by
  unfold tearLast
  repeat' (first
    | with_reducible assumption
    | intro _
    | (extract_lets +onlyGivenNames x; clear_value (e : x = _); first | (with_reducible refine Later.cut (s0 := s0) e ?_ (fun _ => ?_) <;> clear e) | clear e)
    | with_reducible apply drawBool_later
    | (split <;> rename_i e <;> first | (with_reducible refine Later.cut1 (s0 := s0) e ?_ (fun _ => ?_) <;> clear e) | (with_reducible refine Later.cut2 (s0 := s0) e ?_ (fun _ => ?_) <;> clear e) | (with_reducible refine Later.cut3 (s0 := s0) e ?_ (fun _ => ?_) <;> clear e) | skip)
    | fail_if_no_progress with_reducible apply Later.upd)

theorem readSurvey_later {s0 : State} {s : State} (hl : Later s0 s) :
    Later s0 (readSurvey s) := by
  unfold readSurvey
  repeat' (first
    | with_reducible assumption
    | intro _
    | (extract_lets +onlyGivenNames x; clear_value (e : x = _); first | (with_reducible refine Later.cut (s0 := s0) e ?_ (fun _ => ?_) <;> clear e) | clear e)
    | with_reducible apply raiseErr_later
    | with_reducible apply Later.foldl | with_reducible apply Later.foldl1 | with_reducible apply Later.foldl2
    | (split <;> rename_i e <;> first | (with_reducible refine Later.cut1 (s0 := s0) e ?_ (fun _ => ?_) <;> clear e) | (with_reducible refine Later.cut2 (s0 := s0) e ?_ (fun _ => ?_) <;> clear e) | (with_reducible refine Later.cut3 (s0 := s0) e ?_ (fun _ => ?_) <;> clear e) | skip)
    | fail_if_no_progress with_reducible apply Later.upd)

theorem surveyAppend_later {s0 : State} {s : State} (ty : Nat) (source : Nat) (prov : Bool) (loc : Bytes) (hl : Later s0 s) :
    Later s0 (surveyAppend s ty source prov loc) := by
  unfold surveyAppend
  repeat' (first
    | with_reducible assumption
    | intro _
    | with_reducible apply surveyPut_later
    | split)

theorem startFinds_later {s0 : State} {s : State} (ty : Nat) (loc : Bytes) (hl : Later s0 s) :
    Later s0 (startFinds s ty loc) := by
  unfold startFinds
  repeat' (first
    | with_reducible assumption
    | intro _
    | (extract_lets +onlyGivenNames x; clear_value (e : x = _); first | (with_reducible refine Later.cut (s0 := s0) e ?_ (fun _ => ?_) <;> clear e) | clear e)
    | with_reducible apply surveyPut_later
    | (split <;> rename_i e <;> first | (with_reducible refine Later.cut1 (s0 := s0) e ?_ (fun _ => ?_) <;> clear e) | (with_reducible refine Later.cut2 (s0 := s0) e ?_ (fun _ => ?_) <;> clear e) | (with_reducible refine Later.cut3 (s0 := s0) e ?_ (fun _ => ?_) <;> clear e) | skip)
    | fail_if_no_progress with_reducible apply Later.upd)

theorem defectFound_later {s0 : State} {s : State} (ty : Nat) (loc : Bytes) (hl : Later s0 s) :
    Later s0 (defectFound s ty loc) := by
  unfold defectFound
  repeat' (first
    | with_reducible assumption
    | intro _
    | (extract_lets +onlyGivenNames x; clear_value (e : x = _); first | (with_reducible refine Later.cut (s0 := s0) e ?_ (fun _ => ?_) <;> clear e) | clear e)
    | with_reducible apply surveyAppend_later | with_reducible apply startFinds_later
    | (split <;> rename_i e <;> first | (with_reducible refine Later.cut1 (s0 := s0) e ?_ (fun _ => ?_) <;> clear e) | (with_reducible refine Later.cut2 (s0 := s0) e ?_ (fun _ => ?_) <;> clear e) | (with_reducible refine Later.cut3 (s0 := s0) e ?_ (fun _ => ?_) <;> clear e) | skip)
    | fail_if_no_progress with_reducible apply Later.upd)

theorem modStack_later {s0 : State} {s : State} (i : Nat) (f : Stack → Stack) (hl : Later s0 s) :
    Later s0 (modStack s i f) := by
  unfold modStack
  repeat' (first
    | with_reducible assumption
    | intro _
    | fail_if_no_progress with_reducible apply Later.upd)

theorem pageCandidate_later {s0 : State} {s : State} (st : Nat) (page : Nat) (source : Nat) (prov : Bool) (hl : Later s0 s) :
    Later s0 (pageCandidate s st page source prov) := by
  unfold pageCandidate
  repeat' (first
    | with_reducible assumption
    | intro _
    | (extract_lets +onlyGivenNames x; clear_value (e : x = _); first | (with_reducible refine Later.cut (s0 := s0) e ?_ (fun _ => ?_) <;> clear e) | clear e)
    | with_reducible apply surveyAppend_later | with_reducible apply modStack_later | with_reducible apply unit_later | with_reducible apply notifyPart_later | with_reducible apply raiseEvent_later
    | split
    | fail_if_no_progress with_reducible apply Later.upd)

theorem retirePage_later {s0 : State} {s : State} (st page : Nat) (hl : Later s0 s) :
    Later s0 (retirePage s st page) := by
  unfold retirePage
  repeat' (first
    | with_reducible assumption
    | intro _
    | (extract_lets +onlyGivenNames x; clear_value (e : x = _); first | (with_reducible refine Later.cut (s0 := s0) e ?_ (fun _ => ?_) <;> clear e) | clear e)
    | with_reducible apply modStack_later
    | (split <;> rename_i e <;> first | (with_reducible refine Later.cut1 (s0 := s0) e ?_ (fun _ => ?_) <;> clear e) | (with_reducible refine Later.cut2 (s0 := s0) e ?_ (fun _ => ?_) <;> clear e) | (with_reducible refine Later.cut3 (s0 := s0) e ?_ (fun _ => ?_) <;> clear e) | skip)
    | fail_if_no_progress with_reducible apply Later.upd)

theorem touchHbm_later {s0 : State} {s : State} (st p src : Nat) (hl : Later s0 s) :
    Later s0 (touchHbm s st p src).1 := by
  unfold touchHbm
  repeat' (first
    | with_reducible assumption
    | intro _
    | (extract_lets +onlyGivenNames x; clear_value (e : x = _); first | (with_reducible refine Later.cut (s0 := s0) e ?_ (fun _ => ?_) <;> clear e) | clear e)
    | with_reducible apply modStack_later | with_reducible apply raiseErr_later | with_reducible apply pageCandidate_later
    | (split <;> rename_i e <;> first | (with_reducible refine Later.cut1 (s0 := s0) e ?_ (fun _ => ?_) <;> clear e) | (with_reducible refine Later.cut2 (s0 := s0) e ?_ (fun _ => ?_) <;> clear e) | (with_reducible refine Later.cut3 (s0 := s0) e ?_ (fun _ => ?_) <;> clear e) | skip)
    | fail_if_no_progress with_reducible apply Later.upd)

theorem hbmPut_later {s0 : State} {s : State} (a : Nat) (b : Byte) (hl : Later s0 s) :
    Later s0 (hbmPut s a b) := by
  exact ⟨hl.1, hl.2, hl.3, hl.4, fun w => memSet_wf _ _ _ (hl.5 w)⟩

theorem hbmPuts_later {s0 : State} {s : State} (a : Nat) (x0 : Bytes) (hl : Later s0 s) :
    Later s0 (hbmPuts s a x0) := by
  induction x0 generalizing s a with
  | nil => exact hl
  | cons b bs ih => exact ih _ (hbmPut_later a b hl)

theorem hbmRead_later {s0 : State} {s : State} (a : Nat) (n : Nat) (hl : Later s0 s) :
    Later s0 (hbmRead s a n).1 := by
  unfold hbmRead
  repeat' (first
    | with_reducible assumption
    | intro _
    | (extract_lets +onlyGivenNames x; clear_value (e : x = _); first | (with_reducible refine Later.cut (s0 := s0) e ?_ (fun _ => ?_) <;> clear e) | (with_reducible refine Later.cutFp (s0 := s0) e ?_ (fun hg => ?_) <;> clear e) | clear e)
    | with_reducible apply hg
    | with_reducible apply touchHbm_later
    | with_reducible apply Later.foldl | with_reducible apply Later.foldl1 | with_reducible apply Later.foldl2
    | (split <;> rename_i e <;> first | (with_reducible refine Later.cut1 (s0 := s0) e ?_ (fun _ => ?_) <;> clear e) | (with_reducible refine Later.cut2 (s0 := s0) e ?_ (fun _ => ?_) <;> clear e) | skip))

theorem hbmWrite_later {s0 : State} {s : State} (a : Nat) (bs : Bytes) (poison : List Nat) (hl : Later s0 s) :
    Later s0 (hbmWrite s a bs poison).1 := by
  unfold hbmWrite
  repeat' (first
    | with_reducible assumption
    | intro _
    | (extract_lets +onlyGivenNames x; clear_value (e : x = _); first | (with_reducible refine Later.cut (s0 := s0) e ?_ (fun _ => ?_) <;> clear e) | (with_reducible refine Later.cutFp (s0 := s0) e ?_ (fun hg => ?_) <;> clear e) | clear e)
    | with_reducible apply hg
    | with_reducible apply touchHbm_later | with_reducible apply hbmPuts_later
    | with_reducible apply Later.foldl | with_reducible apply Later.foldl1 | with_reducible apply Later.foldl2
    | (split <;> rename_i e <;> first | (with_reducible refine Later.cut1 (s0 := s0) e ?_ (fun _ => ?_) <;> clear e) | (with_reducible refine Later.cut2 (s0 := s0) e ?_ (fun _ => ?_) <;> clear e) | skip)
    | fail_if_no_progress with_reducible apply Later.upd)

theorem hbmTake_later {s0 : State} {s : State} (a n : Nat) (hl : Later s0 s) :
    Later s0 (hbmTake s a n) := by
  unfold hbmTake
  repeat' (first
    | with_reducible assumption
    | intro _
    | (extract_lets +onlyGivenNames x; clear_value (e : x = _); first | (with_reducible refine Later.cut (s0 := s0) e ?_ (fun _ => ?_) <;> clear e) | clear e)
    | with_reducible apply modStack_later
    | with_reducible apply Later.foldl | with_reducible apply Later.foldl1 | with_reducible apply Later.foldl2
    | (split <;> rename_i e <;> first | (with_reducible refine Later.cut1 (s0 := s0) e ?_ (fun _ => ?_) <;> clear e) | (with_reducible refine Later.cut2 (s0 := s0) e ?_ (fun _ => ?_) <;> clear e) | (with_reducible refine Later.cut3 (s0 := s0) e ?_ (fun _ => ?_) <;> clear e) | skip)
    | fail_if_no_progress with_reducible apply Later.upd)

theorem hbmRefused_later {s0 : State} {s : State} (req : Requester) (a n : Nat) (r : RSt) (hl : Later s0 s) :
    Later s0 (hbmRefused s req a n r) := by
  unfold hbmRefused
  repeat' (first
    | with_reducible assumption
    | intro _
    | (extract_lets +onlyGivenNames x; clear_value (e : x = _); first | (with_reducible refine Later.cut (s0 := s0) e ?_ (fun _ => ?_) <;> clear e) | clear e)
    | with_reducible apply countStatus_later | with_reducible apply countShared_later | with_reducible apply modStack_later | with_reducible apply refuse_later | with_reducible apply dropAtDie_later
    | (split <;> rename_i e <;> first | (with_reducible refine Later.cut1 (s0 := s0) e ?_ (fun _ => ?_) <;> clear e) | (with_reducible refine Later.cut2 (s0 := s0) e ?_ (fun _ => ?_) <;> clear e) | (with_reducible refine Later.cut3 (s0 := s0) e ?_ (fun _ => ?_) <;> clear e) | skip)
    | fail_if_no_progress with_reducible apply Later.upd)

theorem hbmAccess_later {s0 : State} {s : State} (req : Requester) (part : Option Nat) (a n : Nat) (w : Option (Bytes × List Nat)) (hl : Later s0 s) :
    Later s0 (hbmAccess s req part a n w).1 := by
  unfold hbmAccess
  repeat' (first
    | with_reducible assumption
    | intro _
    | (extract_lets +onlyGivenNames x; clear_value (e : x = _); first | (with_reducible refine Later.cut (s0 := s0) e ?_ (fun _ => ?_) <;> clear e) | (with_reducible refine Later.cutF (s0 := s0) e ?_ (fun hg => ?_) <;> clear e) | (with_reducible refine Later.cutF1 (s0 := s0) e ?_ (fun hg => ?_) <;> clear e) | (with_reducible refine Later.cutF2 (s0 := s0) e ?_ (fun hg => ?_) <;> clear e) | (with_reducible refine Later.cutC (s0 := s0) e ?_ (fun hg => ?_) <;> clear e) | (with_reducible refine Later.cutFp (s0 := s0) e ?_ (fun hg => ?_) <;> clear e) | clear e)
    | with_reducible apply hbmTake_later | with_reducible apply countShared_later | with_reducible apply hbmRead_later | with_reducible apply hbmWrite_later | with_reducible apply hbmRefused_later
    | with_reducible apply hg
    | with_reducible apply Later.foldl | with_reducible apply Later.foldl1 | with_reducible apply Later.foldl2
    | (split <;> rename_i e <;> first | (with_reducible refine Later.cut1 (s0 := s0) e ?_ (fun _ => ?_) <;> clear e) | (with_reducible refine Later.cut2 (s0 := s0) e ?_ (fun _ => ?_) <;> clear e) | (with_reducible refine Later.cut3 (s0 := s0) e ?_ (fun _ => ?_) <;> clear e) | skip)
    | fail_if_no_progress with_reducible apply Later.upd)

theorem selfRemote_later {s0 : State} {s : State} (req : Requester) (a : Nat) (n : Nat) (tag : W32) (op : MemOp) (hl : Later s0 s) :
    Later s0 (selfRemote s req a n tag op).1 := by
  unfold selfRemote
  repeat' (first
    | with_reducible assumption
    | intro _
    | (extract_lets +onlyGivenNames x; clear_value (e : x = _); first | (with_reducible refine Later.cut (s0 := s0) e ?_ (fun _ => ?_) <;> clear e) | clear e)
    | with_reducible apply remoteAccess_later | with_reducible apply countStatus_later
    | with_reducible apply Later.getD_none | with_reducible apply Later.getD_some
    | (split <;> rename_i e <;> first | (with_reducible refine Later.cut1 (s0 := s0) e ?_ (fun _ => ?_) <;> clear e) | (with_reducible refine Later.cut2 (s0 := s0) e ?_ (fun _ => ?_) <;> clear e) | (with_reducible refine Later.cut3 (s0 := s0) e ?_ (fun _ => ?_) <;> clear e) | skip)
    | fail_if_no_progress with_reducible apply Later.upd)

theorem memRead_later {s0 : State} {s : State} (req : Requester) (a n port : Nat) (hl : Later s0 s) :
    Later s0 (memRead s req a n port).1 := by
  unfold memRead
  repeat' (first
    | with_reducible assumption
    | intro _
    | (extract_lets +onlyGivenNames x; clear_value (e : x = _); first | (with_reducible refine Later.cut (s0 := s0) e ?_ (fun _ => ?_) <;> clear e) | clear e)
    | with_reducible apply localAccess_later | with_reducible apply hbmAccess_later | with_reducible apply countStatus_later
    | (split <;> rename_i e <;> first | (with_reducible refine Later.cut1 (s0 := s0) e ?_ (fun _ => ?_) <;> clear e) | (with_reducible refine Later.cut2 (s0 := s0) e ?_ (fun _ => ?_) <;> clear e) | (with_reducible refine Later.cut3 (s0 := s0) e ?_ (fun _ => ?_) <;> clear e) | skip)
    | fail_if_no_progress with_reducible apply Later.upd)

theorem memWrite_later {s0 : State} {s : State} (req : Requester) (a : Nat) (bs : Bytes) (poison : List Nat) (port : Nat) (hl : Later s0 s) :
    Later s0 (memWrite s req a bs poison port).1 := by
  unfold memWrite
  repeat' (first
    | with_reducible assumption
    | intro _
    | (extract_lets +onlyGivenNames x; clear_value (e : x = _); first | (with_reducible refine Later.cut (s0 := s0) e ?_ (fun _ => ?_) <;> clear e) | clear e)
    | with_reducible apply localAccess_later | with_reducible apply hbmAccess_later | with_reducible apply countStatus_later
    | (split <;> rename_i e <;> first | (with_reducible refine Later.cut1 (s0 := s0) e ?_ (fun _ => ?_) <;> clear e) | (with_reducible refine Later.cut2 (s0 := s0) e ?_ (fun _ => ?_) <;> clear e) | (with_reducible refine Later.cut3 (s0 := s0) e ?_ (fun _ => ?_) <;> clear e) | skip)
    | fail_if_no_progress with_reducible apply Later.upd)

theorem stackGone_later {s0 : State} {s : State} (st : Nat) (hl : Later s0 s) :
    Later s0 (stackGone s st) := by
  unfold stackGone
  repeat' (first
    | with_reducible assumption
    | intro _
    | (extract_lets +onlyGivenNames x; clear_value (e : x = _); first | (with_reducible refine Later.cut (s0 := s0) e ?_ (fun _ => ?_) <;> clear e) | clear e)
    | with_reducible apply modStack_later | with_reducible apply emit_later
    | with_reducible apply Later.foldl | with_reducible apply Later.foldl1 | with_reducible apply Later.foldl2
    | (split <;> rename_i e <;> first | (with_reducible refine Later.cut1 (s0 := s0) e ?_ (fun _ => ?_) <;> clear e) | (with_reducible refine Later.cut2 (s0 := s0) e ?_ (fun _ => ?_) <;> clear e) | (with_reducible refine Later.cut3 (s0 := s0) e ?_ (fun _ => ?_) <;> clear e) | skip)
    | fail_if_no_progress with_reducible apply Later.upd)

end Sys2Proof.Machine
end

