-- ==== Sys2Proof/Laws/LaterPressOps.lean ====
section
/-!
SUPPORT. The operations of Machine/PressOps.lean keep `Later`.
-/

set_option linter.unusedTactic false
set_option linter.unreachableTactic false

namespace Sys2Proof.Machine

theorem movingRow_later {s0 : State} {s : State} (c : Nat) (g : Geo) (rb off : Nat) (hl : Later s0 s) :
    Later s0 (movingRow s c g rb off).1 := by
  unfold movingRow
  repeat' (first
    | with_reducible assumption
    | intro _
    | (extract_lets +onlyGivenNames x; clear_value (e : x = _); first | (with_reducible refine Later.cut (s0 := s0) e ?_ (fun _ => ?_) <;> clear e) | clear e)
    | with_reducible apply spRead_later
    | (split <;> rename_i e <;> first | (with_reducible refine Later.cut1 (s0 := s0) e ?_ (fun _ => ?_) <;> clear e) | (with_reducible refine Later.cut2 (s0 := s0) e ?_ (fun _ => ?_) <;> clear e) | (with_reducible refine Later.cut3 (s0 := s0) e ?_ (fun _ => ?_) <;> clear e) | skip)
    | fail_if_no_progress with_reducible apply Later.upd)

theorem movingScales_later {s0 : State} {s : State} (c : Nat) (g : Geo) (d : PstreamDesc) (hl : Later s0 s) :
    Later s0 (movingScales s c g d).1 := by
  unfold movingScales
  repeat' (first
    | with_reducible assumption
    | intro _
    | (extract_lets +onlyGivenNames x; clear_value (e : x = _); first | (with_reducible refine Later.cut (s0 := s0) e ?_ (fun _ => ?_) <;> clear e) | clear e)
    | with_reducible apply spRead_later
    | with_reducible apply Later.foldl | with_reducible apply Later.foldl1 | with_reducible apply Later.foldl2
    | (split <;> rename_i e <;> first | (with_reducible refine Later.cut1 (s0 := s0) e ?_ (fun _ => ?_) <;> clear e) | (with_reducible refine Later.cut2 (s0 := s0) e ?_ (fun _ => ?_) <;> clear e) | (with_reducible refine Later.cut3 (s0 := s0) e ?_ (fun _ => ?_) <;> clear e) | skip)
    | fail_if_no_progress with_reducible apply Later.upd)

theorem streamPass_later {s0 : State} {s : State} (c : Nat) (tag : Nat) (d : PstreamDesc) (hl : Later s0 s) :
    Later s0 (streamPass s c tag d).1 := by
  unfold streamPass
  repeat' (first
    | with_reducible assumption
    | intro _
    | (extract_lets +onlyGivenNames x; clear_value (e : x = _); first | (with_reducible refine Later.cut (s0 := s0) e ?_ (fun _ => ?_) <;> clear e) | clear e)
    | with_reducible apply movingScales_later | with_reducible apply movingRow_later
    | with_reducible apply Later.foldl | with_reducible apply Later.foldl1 | with_reducible apply Later.foldl2
    | with_reducible apply Later.getD_none | with_reducible apply Later.getD_some
    | (split <;> rename_i e <;> first | (with_reducible refine Later.cut1 (s0 := s0) e ?_ (fun _ => ?_) <;> clear e) | (with_reducible refine Later.cut2 (s0 := s0) e ?_ (fun _ => ?_) <;> clear e) | (with_reducible refine Later.cut3 (s0 := s0) e ?_ (fun _ => ?_) <;> clear e) | skip)
    | fail_if_no_progress with_reducible apply Later.upd)

theorem drainPass_later {s0 : State} {s : State} (c : Nat) (d : PdrainDesc) (hl : Later s0 s) :
    Later s0 (drainPass s c d).1 := by
  unfold drainPass
  repeat' (first
    | with_reducible assumption
    | intro _
    | (extract_lets +onlyGivenNames x; clear_value (e : x = _); first | (with_reducible refine Later.cut (s0 := s0) e ?_ (fun _ => ?_) <;> clear e) | clear e)
    | with_reducible apply spRead_later
    | with_reducible apply Later.foldl | with_reducible apply Later.foldl1 | with_reducible apply Later.foldl2
    | (split <;> rename_i e <;> first | (with_reducible refine Later.cut1 (s0 := s0) e ?_ (fun _ => ?_) <;> clear e) | (with_reducible refine Later.cut2 (s0 := s0) e ?_ (fun _ => ?_) <;> clear e) | skip))

theorem pressBegin_later {s0 : State} {s : State} (c : Nat) (f : Flight) (hl : Later s0 s) :
    Later s0 (pressBegin s c f) := by
  unfold pressBegin
  repeat' (first
    | with_reducible assumption
    | intro _
    | (extract_lets +onlyGivenNames x; clear_value (e : x = _); first | (with_reducible refine Later.cut (s0 := s0) e ?_ (fun _ => ?_) <;> clear e) | clear e)
    | with_reducible apply streamPass_later | with_reducible apply modPrs_later | with_reducible apply modCore_later | with_reducible apply countConds_later | with_reducible apply count_later | with_reducible apply drainPass_later
    | with_reducible apply Later.getD_none | with_reducible apply Later.getD_some
    | (split <;> rename_i e <;> first | (with_reducible refine Later.cut1 (s0 := s0) e ?_ (fun _ => ?_) <;> clear e) | (with_reducible refine Later.cut2 (s0 := s0) e ?_ (fun _ => ?_) <;> clear e) | (with_reducible refine Later.cut3 (s0 := s0) e ?_ (fun _ => ?_) <;> clear e) | skip)
    | fail_if_no_progress with_reducible apply Later.upd)

theorem pressAdvance_later {s0 : State} (fuel : Nat) {s : State} (c : Nat) (hl : Later s0 s) :
    Later s0 (pressAdvance fuel s c) := by
  induction fuel generalizing s with
  | zero => exact hl
  | succ n ih =>
    unfold pressAdvance
    repeat' (first
      | with_reducible assumption
      | intro _ | with_reducible apply ih
      | with_reducible apply pressBegin_later
      | split
      | fail_if_no_progress with_reducible apply Later.upd)

theorem wantRamp_later {s0 : State} {s : State} (c : Nat) (hl : Later s0 s) :
    Later s0 (wantRamp s c) := by
  unfold wantRamp
  repeat' (first
    | with_reducible assumption
    | intro _
    | with_reducible apply modPrs_later
    | split
    | fail_if_no_progress with_reducible apply Later.upd)

end Sys2Proof.Machine
end

