-- ==== Sys2Proof/Laws/LaterVecOps.lean ====
section
/-!
SUPPORT. The operations of Machine/VecOps.lean keep `Later`.
-/

set_option linter.unusedTactic false
set_option linter.unreachableTactic false

namespace Sys2Proof.Machine

theorem rowCodes_later {s0 : State} {x : VRun} (c : Nat) (f : Fmt) (w : W32) (p r n : Nat) (hl : Later s0 x.st) :
    Later s0 (rowCodes x c f w p r n).1.st := by
  unfold rowCodes
  repeat' (first
    | with_reducible assumption
    | intro _
    | (extract_lets +onlyGivenNames x; clear_value (e : x = _); first | (with_reducible refine Later.cut (s0 := s0) e ?_ (fun _ => ?_) <;> clear e) | (with_reducible refine Later.cutV (s0 := s0) e ?_ (fun _ => ?_) <;> clear e) | clear e)
    | with_reducible apply spRead_later
    | with_reducible apply Later.foldlV | with_reducible apply Later.foldlV1
    | (split <;> rename_i e <;> first | (with_reducible refine Later.cut1 (s0 := s0) e ?_ (fun _ => ?_) <;> clear e) | (with_reducible refine Later.cutV1 (s0 := s0) e ?_ (fun _ => ?_) <;> clear e) | skip))

theorem Later.cutV {s0 : State} {x v : VRun} {P : Prop} (e : x = v) (hv : Later s0 v.st) (k : Later s0 x.st → P) : P := k (e ▸ hv)

theorem Later.cutV1 {s0 : State} {x : VRun} {α : Type} {p : VRun × α} {a : α} {P : Prop} (e : p = (x, a)) (hv : Later s0 p.1.st)
    (k : Later s0 x.st → P) : P := k (by rw [e] at hv; exact hv)

theorem Later.foldlV {s0 : State} {α : Type} {f : VRun → α → VRun} {l : List α} {x : VRun}
    (hf : ∀ (x : VRun) (a : α), Later s0 x.st → Later s0 (f x a).st) (h : Later s0 x.st) : Later s0 (l.foldl f x).st := by
  induction l generalizing x with
  | nil => exact h
  | cons a l ih => exact ih (hf x a h)

theorem Later.foldlV1 {s0 : State} {α β : Type} {f : VRun × β → α → VRun × β} {l : List α} {p : VRun × β}
    (hf : ∀ (p : VRun × β) (a : α), Later s0 p.1.st → Later s0 (f p a).1.st) (h : Later s0 p.1.st) : Later s0 (l.foldl f p).1.st := by
  induction l generalizing p with
  | nil => exact h
  | cons a l ih => exact ih (hf p a h)

theorem putLanes_later {s0 : State} {s : State} (c : Nat) (v : Nat) (ws : List W32) (hl : Later s0 s) :
    Later s0 (putLanes s c v ws) := by
  unfold putLanes
  repeat' (first
    | with_reducible assumption
    | intro _
    | with_reducible apply modVec_later
    | with_reducible apply Later.foldl
    | fail_if_no_progress with_reducible apply Later.upd)

theorem putRow_later {s0 : State} {x : VRun} (c : Nat) (d : VecDesc) (r : Nat) (cs : List Nat) (hl : Later s0 x.st) :
    Later s0 (putRow x c d r cs).st := by
  unfold putRow
  repeat' (first
    | with_reducible assumption
    | intro _
    | (extract_lets +onlyGivenNames x; clear_value (e : x = _); first | (with_reducible refine Later.cut (s0 := s0) e ?_ (fun _ => ?_) <;> clear e) | (with_reducible refine Later.cutV (s0 := s0) e ?_ (fun _ => ?_) <;> clear e) | clear e)
    | with_reducible apply putLanes_later
    | with_reducible apply Later.foldlV | with_reducible apply Later.foldlV1
    | (split <;> rename_i e <;> first | (with_reducible refine Later.cut1 (s0 := s0) e ?_ (fun _ => ?_) <;> clear e) | (with_reducible refine Later.cutV1 (s0 := s0) e ?_ (fun _ => ?_) <;> clear e) | skip))

theorem vecRow_later {s0 : State} {x : VRun} (op : VecOp) (d : VecDesc) (c : Nat) (ftz : Bool) (r : Nat) (hl : Later s0 x.st) :
    Later s0 (vecRow op d c ftz x r).st := by
  unfold vecRow
  repeat' (first
    | with_reducible assumption
    | intro _
    | (extract_lets +onlyGivenNames x; clear_value (e : x = _); first | (with_reducible refine Later.cut (s0 := s0) e ?_ (fun _ => ?_) <;> clear e) | (with_reducible refine Later.cutV (s0 := s0) e ?_ (fun _ => ?_) <;> clear e) | clear e)
    | with_reducible apply putRow_later | with_reducible apply rowCodes_later | with_reducible apply spRead_later | with_reducible apply modVec_later
    | with_reducible apply Later.foldlV | with_reducible apply Later.foldlV1
    | (split <;> rename_i e <;> first | (with_reducible refine Later.cut1 (s0 := s0) e ?_ (fun _ => ?_) <;> clear e) | (with_reducible refine Later.cutV1 (s0 := s0) e ?_ (fun _ => ?_) <;> clear e) | skip))

theorem vecTrn_later {s0 : State} {x : VRun} (d : VecDesc) (c : Nat) (hl : Later s0 x.st) :
    Later s0 (vecTrn d c x).st := by
  unfold vecTrn
  repeat' (first
    | with_reducible assumption
    | intro _
    | (extract_lets +onlyGivenNames x; clear_value (e : x = _); first | (with_reducible refine Later.cut (s0 := s0) e ?_ (fun _ => ?_) <;> clear e) | (with_reducible refine Later.cutV (s0 := s0) e ?_ (fun _ => ?_) <;> clear e) | clear e)
    | with_reducible apply putRow_later | with_reducible apply rowCodes_later | with_reducible apply modVec_later
    | with_reducible apply Later.foldlV | with_reducible apply Later.foldlV1
    | (split <;> rename_i e <;> first | (with_reducible refine Later.cut1 (s0 := s0) e ?_ (fun _ => ?_) <;> clear e) | (with_reducible refine Later.cutV1 (s0 := s0) e ?_ (fun _ => ?_) <;> clear e) | skip))

theorem vecRun_later {s0 s : State} (op : VecOp) (d : VecDesc) (c : Nat) (hl : Later s0 s) :
    Later s0 (vecRun op d s c).st := by
  unfold vecRun
  dsimp only
  repeat' (first
    | with_reducible assumption
    | intro _
    | (extract_lets +onlyGivenNames x; clear_value (e : x = _); first | (with_reducible refine Later.cut (s0 := s0) e ?_ (fun _ => ?_) <;> clear e) | (with_reducible refine Later.cutV (s0 := s0) e ?_ (fun _ => ?_) <;> clear e) | clear e)
    | with_reducible apply vecTrn_later | with_reducible apply vecRow_later
    | with_reducible apply Later.foldlV | with_reducible apply Later.foldlV1
    | (split <;> rename_i e <;> first | (with_reducible refine Later.cut1 (s0 := s0) e ?_ (fun _ => ?_) <;> clear e) | (with_reducible refine Later.cutV1 (s0 := s0) e ?_ (fun _ => ?_) <;> clear e) | skip))

end Sys2Proof.Machine
end

