-- ==== Sys2Proof/Laws/LaterEngOps.lean ====
section
/-!
SUPPORT. The operations of Machine/EngOps.lean keep `Later`.
-/

set_option linter.unusedTactic false
set_option linter.unreachableTactic false

namespace Sys2Proof.Machine

theorem enqueue_later {s0 : State} {s : State} (c : Nat) (x : XCmd) (hl : Later s0 s) :
    Later s0 (enqueue s c x) := by
  unfold enqueue
  repeat' (first
    | with_reducible assumption
    | intro _
    | (extract_lets +onlyGivenNames x; clear_value (e : x = _); first | (with_reducible refine Later.cut (s0 := s0) e ?_ (fun _ => ?_) <;> clear e) | clear e)
    | with_reducible apply count_later | with_reducible apply modCore_later
    | (split <;> rename_i e <;> first | (with_reducible refine Later.cut1 (s0 := s0) e ?_ (fun _ => ?_) <;> clear e) | (with_reducible refine Later.cut2 (s0 := s0) e ?_ (fun _ => ?_) <;> clear e) | (with_reducible refine Later.cut3 (s0 := s0) e ?_ (fun _ => ?_) <;> clear e) | skip)
    | fail_if_no_progress with_reducible apply Later.upd)

end Sys2Proof.Machine
end

