-- ==== Sys2Proof/Laws/LaterEngRun.lean ====
section
/-!
SUPPORT. The operations of Machine/EngRun.lean keep `Later`.
-/

set_option linter.unusedTactic false
set_option linter.unreachableTactic false

namespace Sys2Proof.Machine

theorem memberOutcome_later {s0 : State} {s : State} (p : SendPath) (k : Nat) (ext : MsgAns) (hl : Later s0 s) :
    Later s0 (memberOutcome s p k ext) := by
  unfold memberOutcome
  repeat' (first
    | with_reducible assumption
    | intro _
    | (extract_lets +onlyGivenNames x; clear_value (e : x = _); first | (with_reducible refine Later.cut (s0 := s0) e ?_ (fun _ => ?_) <;> clear e) | (with_reducible refine Later.cutF (s0 := s0) e ?_ (fun hg => ?_) <;> clear e) | (with_reducible refine Later.cutF1 (s0 := s0) e ?_ (fun hg => ?_) <;> clear e) | (with_reducible refine Later.cutF2 (s0 := s0) e ?_ (fun hg => ?_) <;> clear e) | (with_reducible refine Later.cutC (s0 := s0) e ?_ (fun hg => ?_) <;> clear e) | (with_reducible refine Later.cutFp (s0 := s0) e ?_ (fun hg => ?_) <;> clear e) | clear e)
    | with_reducible apply countPath_later | with_reducible apply setMember_later
    | with_reducible apply hg
    | (split <;> rename_i e <;> first | (with_reducible refine Later.cut1 (s0 := s0) e ?_ (fun _ => ?_) <;> clear e) | (with_reducible refine Later.cut2 (s0 := s0) e ?_ (fun _ => ?_) <;> clear e) | (with_reducible refine Later.cut3 (s0 := s0) e ?_ (fun _ => ?_) <;> clear e) | skip)
    | fail_if_no_progress with_reducible apply Later.upd)

theorem queEnd_later {s0 : State} {s : State} (c : Nat) (f : Flight) (status : Nat) (refused : Nat) (first : Nat) (hl : Later s0 s) :
    Later s0 (queEnd s c f status refused first) := by
  unfold queEnd
  repeat' (first
    | with_reducible assumption
    | intro _
    | (extract_lets +onlyGivenNames x; clear_value (e : x = _); first | (with_reducible refine Later.cut (s0 := s0) e ?_ (fun _ => ?_) <;> clear e) | clear e)
    | with_reducible apply spWrite_later | with_reducible apply complete_later
    | split
    | fail_if_no_progress with_reducible apply Later.upd)

theorem queKick_later {s0 : State} {s : State} (fuel : Nat) (c : Nat) (hl : Later s0 s) :
    Later s0 (queKick fuel s c) := by
  induction fuel generalizing s c with
  | zero => unfold queKick; exact hl
  | succ n ih =>
    unfold queKick
    repeat' (first
      | with_reducible assumption
      | intro _
      | (extract_lets +onlyGivenNames x; clear_value (e : x = _); first | (with_reducible refine Later.cut (s0 := s0) e ?_ (fun _ => ?_) <;> clear e) | (with_reducible refine Later.cutF (s0 := s0) e ?_ (fun hg => ?_) <;> clear e) | (with_reducible refine Later.cutF1 (s0 := s0) e ?_ (fun hg => ?_) <;> clear e) | (with_reducible refine Later.cutF2 (s0 := s0) e ?_ (fun hg => ?_) <;> clear e) | (with_reducible refine Later.cutC (s0 := s0) e ?_ (fun hg => ?_) <;> clear e) | (with_reducible refine Later.cutFp (s0 := s0) e ?_ (fun hg => ?_) <;> clear e) | clear e)
      | with_reducible apply ih | with_reducible apply modCore_later | with_reducible apply spRead_later | with_reducible apply queEnd_later | with_reducible apply count_later | with_reducible apply startSend_later | with_reducible apply emit_later | with_reducible apply spWrite_later
      | with_reducible apply hg
      | (split <;> rename_i e <;> first | (with_reducible refine Later.cut1 (s0 := s0) e ?_ (fun _ => ?_) <;> clear e) | (with_reducible refine Later.cut2 (s0 := s0) e ?_ (fun _ => ?_) <;> clear e) | (with_reducible refine Later.cut3 (s0 := s0) e ?_ (fun _ => ?_) <;> clear e) | skip)
      | fail_if_no_progress with_reducible apply Later.upd)

theorem lockOp_later {s0 : State} {s : State} (i : Nat) (r : LockReq) (hl : Later s0 s) :
    Later s0 (lockOp s i r) := by
  unfold lockOp
  repeat' (first
    | with_reducible assumption
    | intro _
    | (extract_lets +onlyGivenNames x; clear_value (e : x = _); first | (with_reducible refine Later.cut (s0 := s0) e ?_ (fun _ => ?_) <;> clear e) | (with_reducible refine Later.cutF (s0 := s0) e ?_ (fun hg => ?_) <;> clear e) | (with_reducible refine Later.cutF1 (s0 := s0) e ?_ (fun hg => ?_) <;> clear e) | (with_reducible refine Later.cutF2 (s0 := s0) e ?_ (fun hg => ?_) <;> clear e) | (with_reducible refine Later.cutC (s0 := s0) e ?_ (fun hg => ?_) <;> clear e) | (with_reducible refine Later.cutFp (s0 := s0) e ?_ (fun hg => ?_) <;> clear e) | clear e)
    | with_reducible apply setLock_later | with_reducible apply lockAbandon_later | with_reducible apply lockReply_later | with_reducible apply lockPass_later | with_reducible apply discardFlight_later
    | with_reducible apply hg
    | (split <;> rename_i e <;> first | (with_reducible refine Later.cut1 (s0 := s0) e ?_ (fun _ => ?_) <;> clear e) | (with_reducible refine Later.cut2 (s0 := s0) e ?_ (fun _ => ?_) <;> clear e) | (with_reducible refine Later.cut3 (s0 := s0) e ?_ (fun _ => ?_) <;> clear e) | skip)
    | fail_if_no_progress with_reducible apply Later.upd)

theorem atomicPerform_later {s0 : State} {s : State} (c : Nat) (op : LockOp) (d : LockDesc) (hl : Later s0 s) :
    Later s0 (atomicPerform s c op d).1 := by
  unfold atomicPerform
  repeat' (first
    | with_reducible assumption
    | intro _
    | (extract_lets +onlyGivenNames x; clear_value (e : x = _); first | (with_reducible refine Later.cut (s0 := s0) e ?_ (fun _ => ?_) <;> clear e) | (with_reducible refine Later.cutF (s0 := s0) e ?_ (fun hg => ?_) <;> clear e) | (with_reducible refine Later.cutF1 (s0 := s0) e ?_ (fun hg => ?_) <;> clear e) | (with_reducible refine Later.cutF2 (s0 := s0) e ?_ (fun hg => ?_) <;> clear e) | (with_reducible refine Later.cutC (s0 := s0) e ?_ (fun hg => ?_) <;> clear e) | (with_reducible refine Later.cutFp (s0 := s0) e ?_ (fun hg => ?_) <;> clear e) | clear e)
    | with_reducible apply selfRemote_later | with_reducible apply localAccess_later | with_reducible apply countStatus_later
    | with_reducible apply hg
    | (split <;> rename_i e <;> first | (with_reducible refine Later.cut1 (s0 := s0) e ?_ (fun _ => ?_) <;> clear e) | (with_reducible refine Later.cut2 (s0 := s0) e ?_ (fun _ => ?_) <;> clear e) | (with_reducible refine Later.cut3 (s0 := s0) e ?_ (fun _ => ?_) <;> clear e) | skip)
    | fail_if_no_progress with_reducible apply Later.upd)

theorem lockKick_later {s0 : State} {s : State} (c : Nat) (hl : Later s0 s) :
    Later s0 (lockKick s c) := by
  unfold lockKick
  repeat' (first
    | with_reducible assumption
    | intro _
    | (extract_lets +onlyGivenNames x; clear_value (e : x = _); first | (with_reducible refine Later.cut (s0 := s0) e ?_ (fun _ => ?_) <;> clear e) | clear e)
    | with_reducible apply modCore_later | with_reducible apply sendRemote_later | with_reducible apply count_later | with_reducible apply emit_later
    | (split <;> rename_i e <;> first | (with_reducible refine Later.cut1 (s0 := s0) e ?_ (fun _ => ?_) <;> clear e) | (with_reducible refine Later.cut2 (s0 := s0) e ?_ (fun _ => ?_) <;> clear e) | (with_reducible refine Later.cut3 (s0 := s0) e ?_ (fun _ => ?_) <;> clear e) | skip)
    | fail_if_no_progress with_reducible apply Later.upd)

theorem lockEnd_later {s0 : State} {s : State} (c : Nat) (f : Flight) (status : Nat) (val : W64) (hl : Later s0 s) :
    Later s0 (lockEnd s c f status val) := by
  unfold lockEnd
  repeat' (first
    | with_reducible assumption
    | intro _
    | (extract_lets +onlyGivenNames x; clear_value (e : x = _); first | (with_reducible refine Later.cut (s0 := s0) e ?_ (fun _ => ?_) <;> clear e) | clear e)
    | with_reducible apply spWrite_later | with_reducible apply count_later | with_reducible apply complete_later | with_reducible apply setFlags_later | with_reducible apply lockKick_later
    | (split <;> rename_i e <;> first | (with_reducible refine Later.cut1 (s0 := s0) e ?_ (fun _ => ?_) <;> clear e) | (with_reducible refine Later.cut2 (s0 := s0) e ?_ (fun _ => ?_) <;> clear e) | (with_reducible refine Later.cut3 (s0 := s0) e ?_ (fun _ => ?_) <;> clear e) | skip)
    | fail_if_no_progress with_reducible apply Later.upd)

theorem qsendDone_later {s0 : State} {s : State} (c : Nat) (d : Reg) (mem : Option (Nat × Nat)) (status : Nat) (hl : Later s0 s) :
    Later s0 (qsendDone s c d mem status) := by
  unfold qsendDone
  repeat' (first
    | with_reducible assumption
    | intro _
    | (extract_lets +onlyGivenNames x; clear_value (e : x = _); first | (with_reducible refine Later.cut (s0 := s0) e ?_ (fun _ => ?_) <;> clear e) | clear e)
    | with_reducible apply advance_later | with_reducible apply setReg_later | with_reducible apply memFault_later
    | (split <;> rename_i e <;> first | (with_reducible refine Later.cut1 (s0 := s0) e ?_ (fun _ => ?_) <;> clear e) | (with_reducible refine Later.cut2 (s0 := s0) e ?_ (fun _ => ?_) <;> clear e) | (with_reducible refine Later.cut3 (s0 := s0) e ?_ (fun _ => ?_) <;> clear e) | skip)
    | fail_if_no_progress with_reducible apply Later.upd)

theorem wakeRecv_later {s0 : State} {s : State} (c q : Nat) (hl : Later s0 s) :
    Later s0 (wakeRecv s c q) := by
  unfold wakeRecv
  repeat' (first
    | with_reducible assumption
    | intro _
    | (extract_lets +onlyGivenNames x; clear_value (e : x = _); first | (with_reducible refine Later.cut (s0 := s0) e ?_ (fun _ => ?_) <;> clear e) | clear e)
    | with_reducible apply serveRecv_later | with_reducible apply memFault_later
    | (split <;> rename_i e <;> first | (with_reducible refine Later.cut1 (s0 := s0) e ?_ (fun _ => ?_) <;> clear e) | (with_reducible refine Later.cut2 (s0 := s0) e ?_ (fun _ => ?_) <;> clear e) | (with_reducible refine Later.cut3 (s0 := s0) e ?_ (fun _ => ?_) <;> clear e) | skip)
    | fail_if_no_progress with_reducible apply Later.upd)

theorem dmaEnd_later {s0 : State} {s : State} (c : Nat) (e : Nat) (f : Flight) (d : DmaDesc) (status : Nat) (hl : Later s0 s) :
    Later s0 (dmaEnd s c e f d status) := by
  unfold dmaEnd
  repeat' (first
    | with_reducible assumption
    | intro _
    | with_reducible apply wakeRecv_later | with_reducible apply dmaClose_later
    | split
    | fail_if_no_progress with_reducible apply Later.upd)

theorem readsDone_later {s0 : State} {s : State} (c : Nat) (f : Flight) (hl : Later s0 s) :
    Later s0 (readsDone s c f) := by
  unfold readsDone
  repeat' (first
    | with_reducible assumption
    | intro _
    | (extract_lets +onlyGivenNames x; clear_value (e : x = _); first | (with_reducible refine Later.cut (s0 := s0) e ?_ (fun _ => ?_) <;> clear e) | clear e)
    | with_reducible apply modCore_later
    | (split <;> rename_i e <;> first | (with_reducible refine Later.cut1 (s0 := s0) e ?_ (fun _ => ?_) <;> clear e) | (with_reducible refine Later.cut2 (s0 := s0) e ?_ (fun _ => ?_) <;> clear e) | (with_reducible refine Later.cut3 (s0 := s0) e ?_ (fun _ => ?_) <;> clear e) | skip)
    | fail_if_no_progress with_reducible apply Later.upd)

theorem streamOutMsg_later {s0 : State} {s : State} (c e : Nat) (d : DmaDesc) (n : Nat) (data : Bytes) (poison : List Nat) (hl : Later s0 s) :
    Later s0 (streamOutMsg s c e d n data poison) := by
  unfold streamOutMsg
  repeat' (first
    | with_reducible assumption
    | intro _
    | (extract_lets +onlyGivenNames x; clear_value (e : x = _); first | (with_reducible refine Later.cut (s0 := s0) e ?_ (fun _ => ?_) <;> clear e) | clear e)
    | with_reducible apply modDma_later | with_reducible apply count_later | with_reducible apply startSend_later
    | (split <;> rename_i e <;> first | (with_reducible refine Later.cut1 (s0 := s0) e ?_ (fun _ => ?_) <;> clear e) | (with_reducible refine Later.cut2 (s0 := s0) e ?_ (fun _ => ?_) <;> clear e) | (with_reducible refine Later.cut3 (s0 := s0) e ?_ (fun _ => ?_) <;> clear e) | skip)
    | fail_if_no_progress with_reducible apply Later.upd)

theorem streamOutSend_later {s0 : State} {s : State} (c e : Nat) (f : Flight) (d : DmaDesc) (hl : Later s0 s) :
    Later s0 (streamOutSend s c e f d) := by
  unfold streamOutSend
  repeat' (first
    | with_reducible assumption
    | intro _
    | (extract_lets +onlyGivenNames x; clear_value (e : x = _); first | (with_reducible refine Later.cut (s0 := s0) e ?_ (fun _ => ?_) <;> clear e) | (with_reducible refine Later.cutF (s0 := s0) e ?_ (fun hg => ?_) <;> clear e) | (with_reducible refine Later.cutF1 (s0 := s0) e ?_ (fun hg => ?_) <;> clear e) | (with_reducible refine Later.cutF2 (s0 := s0) e ?_ (fun hg => ?_) <;> clear e) | (with_reducible refine Later.cutC (s0 := s0) e ?_ (fun hg => ?_) <;> clear e) | (with_reducible refine Later.cutFp (s0 := s0) e ?_ (fun hg => ?_) <;> clear e) | clear e)
    | with_reducible apply modCore_later | with_reducible apply spRead_later | with_reducible apply readsDone_later | with_reducible apply streamOutMsg_later | with_reducible apply modDma_later | with_reducible apply sendRemote_later
    | with_reducible apply hg
    | (split <;> rename_i e <;> first | (with_reducible refine Later.cut1 (s0 := s0) e ?_ (fun _ => ?_) <;> clear e) | (with_reducible refine Later.cut2 (s0 := s0) e ?_ (fun _ => ?_) <;> clear e) | (with_reducible refine Later.cut3 (s0 := s0) e ?_ (fun _ => ?_) <;> clear e) | skip)
    | fail_if_no_progress with_reducible apply Later.upd)

theorem dmaKick_later {s0 : State} {s : State} (c e : Nat) (hl : Later s0 s) :
    Later s0 (dmaKick s c e) := by
  unfold dmaKick
  repeat' (first
    | with_reducible assumption
    | intro _
    | (extract_lets +onlyGivenNames x; clear_value (e : x = _); first | (with_reducible refine Later.cut (s0 := s0) e ?_ (fun _ => ?_) <;> clear e) | clear e)
    | with_reducible apply modCore_later | with_reducible apply streamPump_later | with_reducible apply modDma_later | with_reducible apply streamOutSend_later
    | (split <;> rename_i e <;> first | (with_reducible refine Later.cut1 (s0 := s0) e ?_ (fun _ => ?_) <;> clear e) | (with_reducible refine Later.cut2 (s0 := s0) e ?_ (fun _ => ?_) <;> clear e) | (with_reducible refine Later.cut3 (s0 := s0) e ?_ (fun _ => ?_) <;> clear e) | skip)
    | fail_if_no_progress with_reducible apply Later.upd)

theorem dmaEndNext_later {s0 : State} {s : State} (c e : Nat) (f : Flight) (d : DmaDesc) (status : Nat) (hl : Later s0 s) :
    Later s0 (dmaEndNext s c e f d status) := by
  unfold dmaEndNext
  repeat' (first
    | with_reducible assumption
    | intro _
    | (extract_lets +onlyGivenNames x; clear_value (e : x = _); first | (with_reducible refine Later.cut (s0 := s0) e ?_ (fun _ => ?_) <;> clear e) | clear e)
    | with_reducible apply dmaEnd_later | with_reducible apply dmaKick_later
    | (split <;> rename_i e <;> first | (with_reducible refine Later.cut1 (s0 := s0) e ?_ (fun _ => ?_) <;> clear e) | (with_reducible refine Later.cut2 (s0 := s0) e ?_ (fun _ => ?_) <;> clear e) | (with_reducible refine Later.cut3 (s0 := s0) e ?_ (fun _ => ?_) <;> clear e) | skip)
    | fail_if_no_progress with_reducible apply Later.upd)

theorem dmaCheckEnd_later {s0 : State} {s : State} (c e : Nat) (hl : Later s0 s) :
    Later s0 (dmaCheckEnd s c e) := by
  unfold dmaCheckEnd
  repeat' (first
    | with_reducible assumption
    | intro _
    | (extract_lets +onlyGivenNames x; clear_value (e : x = _); first | (with_reducible refine Later.cut (s0 := s0) e ?_ (fun _ => ?_) <;> clear e) | clear e)
    | with_reducible apply readsDone_later | with_reducible apply dmaEndNext_later
    | (split <;> rename_i e <;> first | (with_reducible refine Later.cut1 (s0 := s0) e ?_ (fun _ => ?_) <;> clear e) | (with_reducible refine Later.cut2 (s0 := s0) e ?_ (fun _ => ?_) <;> clear e) | (with_reducible refine Later.cut3 (s0 := s0) e ?_ (fun _ => ?_) <;> clear e) | skip)
    | fail_if_no_progress with_reducible apply Later.upd)

theorem engKick_later {s0 : State} {s : State} (c : Nat) (b : EngBody) (hl : Later s0 s) :
    Later s0 (engKick s c b) := by
  unfold engKick
  repeat' (first
    | with_reducible assumption
    | intro _
    | with_reducible apply pressAdvance_later | with_reducible apply wantRamp_later | with_reducible apply dmaKick_later | with_reducible apply queKick_later | with_reducible apply lockKick_later
    | split
    | fail_if_no_progress with_reducible apply Later.upd)

theorem xQueue_later {s0 : State} {s : State} (c : Nat) (x : XCmd) (hl : Later s0 s) :
    Later s0 (xQueue s c x) := by
  unfold xQueue
  repeat' (first
    | with_reducible assumption
    | intro _
    | (extract_lets +onlyGivenNames x; clear_value (e : x = _); first | (with_reducible refine Later.cut (s0 := s0) e ?_ (fun _ => ?_) <;> clear e) | clear e)
    | with_reducible apply enqueue_later | with_reducible apply count_later | with_reducible apply block_later | with_reducible apply advance_later | with_reducible apply engKick_later
    | split)

theorem xIssue_later {s0 : State} {s : State} (c : Nat) (w : W32) (x : XCmd) (hl : Later s0 s) :
    Later s0 (xIssue s c w x) := by
  unfold xIssue
  repeat' (first
    | with_reducible assumption
    | intro _
    | (extract_lets +onlyGivenNames x; clear_value (e : x = _); first | (with_reducible refine Later.cut (s0 := s0) e ?_ (fun _ => ?_) <;> clear e) | clear e)
    | with_reducible apply cuFault_later | with_reducible apply block_later | with_reducible apply xQueue_later
    | (split <;> rename_i e <;> first | (with_reducible refine Later.cut1 (s0 := s0) e ?_ (fun _ => ?_) <;> clear e) | (with_reducible refine Later.cut2 (s0 := s0) e ?_ (fun _ => ?_) <;> clear e) | (with_reducible refine Later.cut3 (s0 := s0) e ?_ (fun _ => ?_) <;> clear e) | skip)
    | fail_if_no_progress with_reducible apply Later.upd)

theorem engRow_later {s0 : State} {s : State} (c : Nat) (i : Issue) (b : EngBody) (hl : Later s0 s) :
    Later s0 (engRow s c i b) := by
  unfold engRow
  repeat' (first | with_reducible assumption | with_reducible apply issue_later | with_reducible apply xIssue_later | intro _)

theorem haltNow_later {s0 : State} {s : State} (c : Nat) (hl : Later s0 s) :
    Later s0 (haltNow s c) := by
  unfold haltNow
  repeat' (first
    | with_reducible assumption
    | intro _
    | (extract_lets +onlyGivenNames x; clear_value (e : x = _); first | (with_reducible refine Later.cut (s0 := s0) e ?_ (fun _ => ?_) <;> clear e) | clear e)
    | with_reducible apply modCtl_later | with_reducible apply enginesHalt_later
    | split
    | fail_if_no_progress with_reducible apply Later.upd)

theorem haltWithdraw_later {s0 : State} {s : State} (p : SendPath) (hl : Later s0 s) :
    Later s0 (haltWithdraw s p) := by
  unfold haltWithdraw
  repeat' (first
    | with_reducible assumption
    | intro _
    | (extract_lets +onlyGivenNames x; clear_value (e : x = _); first | (with_reducible refine Later.cut (s0 := s0) e ?_ (fun _ => ?_) <;> clear e) | clear e)
    | with_reducible apply withdraw_later | with_reducible apply haltNow_later | with_reducible apply modCtl_later | with_reducible apply discardFlight_later | with_reducible apply dmaFinish_later | with_reducible apply dmaEnd_later
    | (split <;> rename_i e <;> first | (with_reducible refine Later.cut1 (s0 := s0) e ?_ (fun _ => ?_) <;> clear e) | (with_reducible refine Later.cut2 (s0 := s0) e ?_ (fun _ => ?_) <;> clear e) | skip)
    | fail_if_no_progress with_reducible apply Later.upd)

end Sys2Proof.Machine
end

