-- ==== Sys2Proof/Laws/LaterDma.lean ====
section
/-!
SUPPORT. The operations of Machine/Dma.lean keep `Later`.
-/

set_option linter.unusedTactic false
set_option linter.unreachableTactic false

namespace Sys2Proof.Machine

theorem execDmaCopy_later (c : Nat) (e : Fin 4) (i : Issue) (d : DmaDesc) {s : State} :
    ∃ s', (execDmaCopy c e i d s) = .next s' ∧ Later s s' := by
  have hl := Later.refl s
  refine ⟨_, rfl, ?_⟩
  repeat' (first | with_reducible assumption | with_reducible apply engRow_later | intro _)

theorem execDmaFill_later (c : Nat) (e : Fin 4) (i : Issue) (d : DmaDesc) {s : State} :
    ∃ s', (execDmaFill c e i d s) = .next s' ∧ Later s s' := by
  have hl := Later.refl s
  refine ⟨_, rfl, ?_⟩
  repeat' (first | with_reducible assumption | with_reducible apply engRow_later | intro _)

theorem execStreamIn_later (c : Nat) (e : Fin 4) (i : Issue) (d : DmaDesc) {s : State} :
    ∃ s', (execStreamIn c e i d s) = .next s' ∧ Later s s' := by
  have hl := Later.refl s
  refine ⟨_, rfl, ?_⟩
  repeat' (first | with_reducible assumption | with_reducible apply engRow_later | intro _)

theorem execStreamOut_later (c : Nat) (e : Fin 4) (i : Issue) (d : DmaDesc) {s : State} :
    ∃ s', (execStreamOut c e i d s) = .next s' ∧ Later s s' := by
  have hl := Later.refl s
  refine ⟨_, rfl, ?_⟩
  repeat' (first | with_reducible assumption | with_reducible apply engRow_later | intro _)

theorem beginBurst_later {s0 : State} {s : State} (c : Nat) (op : DmaOp) (d : DmaDesc) (g : DmaEng) (n : Nat) (hl : Later s0 s) :
    Later s0 (beginBurst s c op d g n).1 := by
  unfold beginBurst
  repeat' (first
    | with_reducible assumption
    | intro _
    | (extract_lets +onlyGivenNames x; clear_value (e : x = _); first | (with_reducible refine Later.cut (s0 := s0) e ?_ (fun _ => ?_) <;> clear e) | clear e)
    | with_reducible apply spRead_later
    | (split <;> rename_i e <;> first | (with_reducible refine Later.cut1 (s0 := s0) e ?_ (fun _ => ?_) <;> clear e) | (with_reducible refine Later.cut2 (s0 := s0) e ?_ (fun _ => ?_) <;> clear e) | skip)
    | fail_if_no_progress with_reducible apply Later.upd)

theorem execDmaBurstSend_later (c : Nat) (e : Fin 4) {s : State} :
    ∃ s', (execDmaBurstSend c e s) = .next s' ∧ Later s s' := by
  have hl := Later.refl s
  refine ⟨_, rfl, ?_⟩
  repeat' (first
    | with_reducible assumption
    | intro _
    | (extract_lets +onlyGivenNames x; clear_value (e : x = _); first | (with_reducible refine Later.cut (s0 := s) e ?_ (fun _ => ?_) <;> clear e) | clear e)
    | with_reducible apply beginBurst_later | with_reducible apply sendRemote_later | with_reducible apply modCore_later | with_reducible apply modDma_later | with_reducible apply readsDone_later | with_reducible apply count_later
    | (split <;> rename_i e <;> first | (with_reducible refine Later.cut1 (s0 := s) e ?_ (fun _ => ?_) <;> clear e) | (with_reducible refine Later.cut2 (s0 := s) e ?_ (fun _ => ?_) <;> clear e) | (with_reducible refine Later.cut3 (s0 := s) e ?_ (fun _ => ?_) <;> clear e) | skip)
    | fail_if_no_progress with_reducible apply Later.upd)

theorem writeBurst_later {s0 : State} {s : State} (c : Nat) (d : DmaDesc) (b : Burst) (bs : Bytes) (status : Nat) (hl : Later s0 s) :
    Later s0 (writeBurst s c d b bs status).1 := by
  unfold writeBurst
  repeat' (first
    | with_reducible assumption
    | intro _
    | (extract_lets +onlyGivenNames x; clear_value (e : x = _); first | (with_reducible refine Later.cut (s0 := s0) e ?_ (fun _ => ?_) <;> clear e) | clear e)
    | with_reducible apply selfRemote_later | with_reducible apply memWrite_later
    | (split <;> rename_i e <;> first | (with_reducible refine Later.cut1 (s0 := s0) e ?_ (fun _ => ?_) <;> clear e) | (with_reducible refine Later.cut2 (s0 := s0) e ?_ (fun _ => ?_) <;> clear e) | (with_reducible refine Later.cut3 (s0 := s0) e ?_ (fun _ => ?_) <;> clear e) | skip)
    | fail_if_no_progress with_reducible apply Later.upd)

theorem fetchBurst_later {s0 : State} {s : State} (c : Nat) (d : DmaDesc) (b : Burst) (status : Nat) (data : Bytes) (poison : List Nat) (hl : Later s0 s) :
    Later s0 (fetchBurst s c d b status data poison).1 := by
  unfold fetchBurst
  repeat' (first
    | with_reducible assumption
    | intro _
    | (extract_lets +onlyGivenNames x; clear_value (e : x = _); first | (with_reducible refine Later.cut (s0 := s0) e ?_ (fun _ => ?_) <;> clear e) | clear e)
    | with_reducible apply selfRemote_later | with_reducible apply memRead_later
    | (split <;> rename_i e <;> first | (with_reducible refine Later.cut1 (s0 := s0) e ?_ (fun _ => ?_) <;> clear e) | (with_reducible refine Later.cut2 (s0 := s0) e ?_ (fun _ => ?_) <;> clear e) | (with_reducible refine Later.cut3 (s0 := s0) e ?_ (fun _ => ?_) <;> clear e) | skip)
    | fail_if_no_progress with_reducible apply Later.upd)

theorem streamOutRefused_later {s0 : State} {s : State} (c : Nat) (e : Fin 4) (f : Flight) (d : DmaDesc) (k st : Nat) (hl : Later s0 s) :
    Later s0 (streamOutRefused s c e f d k st) := by
  unfold streamOutRefused
  repeat' (first
    | with_reducible assumption
    | intro _
    | (extract_lets +onlyGivenNames x; clear_value (e : x = _); first | (with_reducible refine Later.cut (s0 := s0) e ?_ (fun _ => ?_) <;> clear e) | clear e)
    | with_reducible apply dmaEndNext_later | with_reducible apply modDma_later
    | (split <;> rename_i e <;> first | (with_reducible refine Later.cut1 (s0 := s0) e ?_ (fun _ => ?_) <;> clear e) | (with_reducible refine Later.cut2 (s0 := s0) e ?_ (fun _ => ?_) <;> clear e) | (with_reducible refine Later.cut3 (s0 := s0) e ?_ (fun _ => ?_) <;> clear e) | skip)
    | fail_if_no_progress with_reducible apply Later.upd)

theorem execDmaFillArrive_later (c : Nat) (e : Fin 4) (k : Nat) (status : Nat) (data : Bytes) (poison : List Nat) {s : State} :
    ∃ s', (execDmaFillArrive c e k status data poison s) = .next s' ∧ Later s s' := by
  have hl := Later.refl s
  refine ⟨_, rfl, ?_⟩
  repeat' (first
    | with_reducible assumption
    | intro _
    | (extract_lets +onlyGivenNames x; clear_value (e : x = _); first | (with_reducible refine Later.cut (s0 := s) e ?_ (fun _ => ?_) <;> clear e) | clear e)
    | with_reducible apply fetchBurst_later | with_reducible apply count_later | with_reducible apply streamOutMsg_later | with_reducible apply modDma_later | with_reducible apply sendRemote_later | with_reducible apply writeBurst_later | with_reducible apply streamOutRefused_later
    | (split <;> rename_i e <;> first | (with_reducible refine Later.cut1 (s0 := s) e ?_ (fun _ => ?_) <;> clear e) | (with_reducible refine Later.cut2 (s0 := s) e ?_ (fun _ => ?_) <;> clear e) | (with_reducible refine Later.cut3 (s0 := s) e ?_ (fun _ => ?_) <;> clear e) | skip)
    | fail_if_no_progress with_reducible apply Later.upd)

theorem burstAck_later {s0 : State} {s : State} (c : Nat) (e : Fin 4) (k : Nat) (status : Nat) (hl : Later s0 s) :
    Later s0 (burstAck s c e k status) := by
  unfold burstAck
  repeat' (first
    | with_reducible assumption
    | intro _
    | (extract_lets +onlyGivenNames x; clear_value (e : x = _); first | (with_reducible refine Later.cut (s0 := s0) e ?_ (fun _ => ?_) <;> clear e) | clear e)
    | with_reducible apply writeBurst_later | with_reducible apply streamOutRefused_later | with_reducible apply modDma_later | with_reducible apply done_later | with_reducible apply dmaCheckEnd_later | with_reducible apply streamPump_later
    | (split <;> rename_i e <;> first | (with_reducible refine Later.cut1 (s0 := s0) e ?_ (fun _ => ?_) <;> clear e) | (with_reducible refine Later.cut2 (s0 := s0) e ?_ (fun _ => ?_) <;> clear e) | (with_reducible refine Later.cut3 (s0 := s0) e ?_ (fun _ => ?_) <;> clear e) | skip)
    | fail_if_no_progress with_reducible apply Later.upd)

theorem execDmaBurstAck_later (c : Nat) (e : Fin 4) (k : Nat) (status : Nat) {s : State} :
    ∃ s', (execDmaBurstAck c e k status s) = .next s' ∧ Later s s' := by
  have hl := Later.refl s
  refine ⟨_, rfl, ?_⟩
  repeat' (first | with_reducible assumption | with_reducible apply burstAck_later | intro _)

theorem streamOutAnswer_later {s0 : State} {s : State} (c : Nat) (e : Fin 4) (ext : MsgAns) (hl : Later s0 s) :
    Later s0 (streamOutAnswer s c e ext) := by
  unfold streamOutAnswer
  repeat' (first
    | with_reducible assumption
    | intro _
    | (extract_lets +onlyGivenNames x; clear_value (e : x = _); first | (with_reducible refine Later.cut (s0 := s0) e ?_ (fun _ => ?_) <;> clear e) | clear e)
    | with_reducible apply memberOutcome_later | with_reducible apply dropSend_later | with_reducible apply modDma_later | with_reducible apply done_later | with_reducible apply dmaEnd_later | with_reducible apply dmaEndNext_later | with_reducible apply streamOutSend_later | with_reducible apply haltWithdraw_later
    | (split <;> rename_i e <;> first | (with_reducible refine Later.cut1 (s0 := s0) e ?_ (fun _ => ?_) <;> clear e) | (with_reducible refine Later.cut2 (s0 := s0) e ?_ (fun _ => ?_) <;> clear e) | (with_reducible refine Later.cut3 (s0 := s0) e ?_ (fun _ => ?_) <;> clear e) | skip)
    | fail_if_no_progress with_reducible apply Later.upd)

theorem execStreamOutMessageAnswer_later (c : Nat) (e : Fin 4) (ext : MsgAns) {s : State} :
    ∃ s', (execStreamOutMessageAnswer c e ext s) = .next s' ∧ Later s s' := by
  have hl := Later.refl s
  refine ⟨_, rfl, ?_⟩
  repeat' (first | with_reducible assumption | with_reducible apply streamOutAnswer_later | intro _)

theorem notifyAnswer_later {s0 : State} {s : State} (c : Nat) (e : Fin 4) (ext : MsgAns) (hl : Later s0 s) :
    Later s0 (notifyAnswer s c e ext) := by
  unfold notifyAnswer
  repeat' (first
    | with_reducible assumption
    | intro _
    | (extract_lets +onlyGivenNames x; clear_value (e : x = _); first | (with_reducible refine Later.cut (s0 := s0) e ?_ (fun _ => ?_) <;> clear e) | clear e)
    | with_reducible apply memberOutcome_later | with_reducible apply dmaKick_later | with_reducible apply dmaFinish_later | with_reducible apply dropSend_later | with_reducible apply haltWithdraw_later
    | split
    | fail_if_no_progress with_reducible apply Later.upd)

theorem execDmaNotifyAnswer_later (c : Nat) (e : Fin 4) (ext : MsgAns) {s : State} :
    ∃ s', (execDmaNotifyAnswer c e ext s) = .next s' ∧ Later s s' := by
  have hl := Later.refl s
  refine ⟨_, rfl, ?_⟩
  repeat' (first | with_reducible assumption | with_reducible apply notifyAnswer_later | intro _)

end Sys2Proof.Machine
end

