-- ==== Sys2Proof/Laws/LaterHostOps.lean ====
section
/-!
SUPPORT. The operations of Machine/HostOps.lean keep `Later`.
-/

set_option linter.unusedTactic false
set_option linter.unreachableTactic false

namespace Sys2Proof.Machine

theorem modRing_later {s0 : State} {s : State} (h : Nat) (f : Nat) (r : Nat) (g : Ring → Ring) (hl : Later s0 s) :
    Later s0 (modRing s h f r g) := by
  unfold modRing
  repeat' (first
    | with_reducible assumption
    | intro _
    | with_reducible apply modFn_later
    | fail_if_no_progress with_reducible apply Later.upd)

theorem countDrop_later {s0 : State} {s : State} (h : Nat) (f : Nat) (hl : Later s0 s) :
    Later s0 (countDrop s h f) := by
  unfold countDrop
  repeat' (first
    | with_reducible assumption
    | intro _
    | with_reducible apply modFn_later
    | fail_if_no_progress with_reducible apply Later.upd)

theorem functionEvent_later {s0 : State} {s : State} (h : Nat) (f : Nat) (hl : Later s0 s) :
    Later s0 (functionEvent s h f) := by
  unfold functionEvent
  repeat' (first
    | with_reducible assumption
    | intro _
    | with_reducible apply sendVector_later
    | split)

theorem stopRing_later {s0 : State} {s : State} (h f r cause : Nat) (hl : Later s0 s) :
    Later s0 (stopRing s h f r cause) := by
  unfold stopRing
  repeat' (first
    | with_reducible assumption
    | intro _
    | (extract_lets +onlyGivenNames x; clear_value (e : x = _); first | (with_reducible refine Later.cut (s0 := s0) e ?_ (fun _ => ?_) <;> clear e) | clear e)
    | with_reducible apply functionEvent_later | with_reducible apply modRing_later
    | (split <;> rename_i e <;> first | (with_reducible refine Later.cut1 (s0 := s0) e ?_ (fun _ => ?_) <;> clear e) | (with_reducible refine Later.cut2 (s0 := s0) e ?_ (fun _ => ?_) <;> clear e) | (with_reducible refine Later.cut3 (s0 := s0) e ?_ (fun _ => ?_) <;> clear e) | skip)
    | fail_if_no_progress with_reducible apply Later.upd)

theorem coalesce_later {s0 : State} {s : State} (h : Nat) (f : Nat) (r : Nat) (hl : Later s0 s) :
    Later s0 (coalesce s h f r) := by
  unfold coalesce
  repeat' (first
    | with_reducible assumption
    | intro _
    | (extract_lets +onlyGivenNames x; clear_value (e : x = _); first | (with_reducible refine Later.cut (s0 := s0) e ?_ (fun _ => ?_) <;> clear e) | clear e)
    | with_reducible apply sendVector_later | with_reducible apply modRing_later
    | split
    | fail_if_no_progress with_reducible apply Later.upd)

theorem post_later {s0 : State} {s : State} (h f r seq lid status ndone fcore fcode : Nat) (hl : Later s0 s) :
    Later s0 (post s h f r seq lid status ndone fcore fcode) := by
  unfold post
  repeat' (first
    | with_reducible assumption
    | intro _
    | (extract_lets +onlyGivenNames x; clear_value (e : x = _); first | (with_reducible refine Later.cut (s0 := s0) e ?_ (fun _ => ?_) <;> clear e) | clear e)
    | with_reducible apply countDrop_later | with_reducible apply modRing_later | with_reducible apply emit_later | with_reducible apply coalesce_later
    | (split <;> rename_i e <;> first | (with_reducible refine Later.cut1 (s0 := s0) e ?_ (fun _ => ?_) <;> clear e) | (with_reducible refine Later.cut2 (s0 := s0) e ?_ (fun _ => ?_) <;> clear e) | (with_reducible refine Later.cut3 (s0 := s0) e ?_ (fun _ => ?_) <;> clear e) | skip)
    | fail_if_no_progress with_reducible apply Later.upd)

theorem setLaunch_later {s0 : State} {s : State} (l : Launch) (hl : Later s0 s) :
    Later s0 (setLaunch s l) := by
  unfold setLaunch
  repeat' (first
    | with_reducible assumption
    | intro _
    | split
    | fail_if_no_progress with_reducible apply Later.upd)

theorem launchPump_later {s0 : State} {s : State} (h : Nat) (f : Nat) (hl : Later s0 s) :
    Later s0 (launchPump s h f) := by
  unfold launchPump
  repeat' (first
    | with_reducible assumption
    | intro _
    | with_reducible apply startSend_later | with_reducible apply setLaunch_later
    | split
    | fail_if_no_progress with_reducible apply Later.upd)

theorem settle_later {s0 : State} (fuel : Nat) {s : State} (h : Nat) (f : Nat) (r : Nat) (hl : Later s0 s) :
    Later s0 (settle fuel s h f r) := by
  induction fuel generalizing s with
  | zero => exact hl
  | succ n ih =>
    unfold settle
    repeat' (first
      | with_reducible assumption
      | intro _ | with_reducible apply ih
      | (extract_lets +onlyGivenNames x; clear_value (e : x = _); first | (with_reducible refine Later.cut (s0 := s0) e ?_ (fun _ => ?_) <;> clear e) | clear e)
      | with_reducible apply post_later
      | split
      | fail_if_no_progress with_reducible apply Later.upd)

theorem afterPost_later {s0 : State} {s : State} (h : Nat) (f : Nat) (r : Nat) (hl : Later s0 s) :
    Later s0 (afterPost s h f r) := by
  unfold afterPost
  repeat' (first | with_reducible assumption | with_reducible apply launchPump_later | with_reducible apply settle_later | intro _)

theorem launchUpdate_later {s0 : State} {s : State} (l : Launch) (hl : Later s0 s) :
    Later s0 (launchUpdate s l) := by
  unfold launchUpdate
  repeat' (first
    | with_reducible assumption
    | intro _
    | (extract_lets +onlyGivenNames x; clear_value (e : x = _); first | (with_reducible refine Later.cut (s0 := s0) e ?_ (fun _ => ?_) <;> clear e) | clear e)
    | with_reducible apply setLaunch_later | with_reducible apply post_later | with_reducible apply afterPost_later
    | split
    | fail_if_no_progress with_reducible apply Later.upd)

theorem launchFault_later {s0 : State} {s : State} (l : Launch) (c : Nat) (code : Nat) (hl : Later s0 s) :
    Later s0 (launchFault s l c code) := by
  unfold launchFault
  repeat' (first
    | with_reducible assumption
    | intro _
    | (extract_lets +onlyGivenNames x; clear_value (e : x = _); first | (with_reducible refine Later.cut (s0 := s0) e ?_ (fun _ => ?_) <;> clear e) | clear e)
    | with_reducible apply launchUpdate_later | with_reducible apply post_later | with_reducible apply afterPost_later | with_reducible apply setLaunch_later
    | split
    | fail_if_no_progress with_reducible apply Later.upd)

theorem launchSent_later {s0 : State} {s : State} (h : Nat) (f : Nat) (st : Nat) (hl : Later s0 s) :
    Later s0 (launchSent s h f st) := by
  unfold launchSent
  repeat' (first
    | with_reducible assumption
    | intro _
    | (extract_lets +onlyGivenNames x; clear_value (e : x = _); first | (with_reducible refine Later.cut (s0 := s0) e ?_ (fun _ => ?_) <;> clear e) | clear e)
    | with_reducible apply dropSend_later | with_reducible apply launchPump_later | with_reducible apply setLaunch_later | with_reducible apply launchUpdate_later
    | split
    | fail_if_no_progress with_reducible apply Later.upd)

end Sys2Proof.Machine
end

