-- ==== Sys2Proof/Laws/LaterResetOps.lean ====
section
/-!
SUPPORT. The operations of Machine/ResetOps.lean keep `Later`.
-/

set_option linter.unusedTactic false
set_option linter.unreachableTactic false

namespace Sys2Proof.Machine

theorem setDom_later {s0 : State} {s : State} (d : Nat) (x : DomSt) (hl : Later s0 s) :
    Later s0 (setDom s d x) := by
  unfold setDom
  repeat' (first
    | with_reducible assumption
    | intro _
    | with_reducible apply modPwr_later
    | fail_if_no_progress with_reducible apply Later.upd)

theorem modPort_later {s0 : State} {s : State} (p : Nat) (f : Port → Port) (hl : Later s0 s) :
    Later s0 (modPort s p f) := by
  unfold modPort
  repeat' (first
    | with_reducible assumption
    | intro _
    | with_reducible apply modLinks_later
    | fail_if_no_progress with_reducible apply Later.upd)

theorem countThrottle_later {s0 : State} {s : State} (hl : Later s0 s) :
    Later s0 (countThrottle s) := by
  unfold countThrottle
  repeat' (first
    | with_reducible assumption
    | intro _
    | with_reducible apply modPwr_later
    | fail_if_no_progress with_reducible apply Later.upd)

theorem reevaluate_later {s0 : State} {s : State} (hl : Later s0 s) :
    Later s0 (reevaluate s) := by
  unfold reevaluate
  repeat' (first
    | with_reducible assumption
    | intro _
    | with_reducible apply setDev_later
    | split
    | fail_if_no_progress with_reducible apply Later.upd)

theorem rekeyWaiter_later {s0 : State} {s : State} (c : Nat) (q : Nat) (a : Sender) (b : Sender) (hl : Later s0 s) :
    Later s0 (rekeyWaiter s c q a b) := by
  unfold rekeyWaiter
  repeat' (first
    | with_reducible assumption
    | intro _
    | with_reducible apply modQ_later
    | split
    | fail_if_no_progress with_reducible apply Later.upd)

theorem orphanSend_later {s0 : State} {s : State} (x : InFlight) (hl : Later s0 s) :
    Later s0 (orphanSend s x) := by
  unfold orphanSend
  repeat' (first
    | with_reducible assumption
    | intro _
    | (extract_lets +onlyGivenNames x; clear_value (e : x = _); first | (with_reducible refine Later.cut (s0 := s0) e ?_ (fun _ => ?_) <;> clear e) | (with_reducible refine Later.cutF (s0 := s0) e ?_ (fun hg => ?_) <;> clear e) | (with_reducible refine Later.cutF1 (s0 := s0) e ?_ (fun hg => ?_) <;> clear e) | (with_reducible refine Later.cutF2 (s0 := s0) e ?_ (fun hg => ?_) <;> clear e) | (with_reducible refine Later.cutC (s0 := s0) e ?_ (fun hg => ?_) <;> clear e) | (with_reducible refine Later.cutFp (s0 := s0) e ?_ (fun hg => ?_) <;> clear e) | clear e)
    | with_reducible apply drawBool_later | with_reducible apply dropSend_later | with_reducible apply rekeyWaiter_later | with_reducible apply unwait_later
    | with_reducible apply hg
    | with_reducible apply Later.foldl | with_reducible apply Later.foldl1 | with_reducible apply Later.foldl2
    | (split <;> rename_i e <;> first | (with_reducible refine Later.cut1 (s0 := s0) e ?_ (fun _ => ?_) <;> clear e) | (with_reducible refine Later.cut2 (s0 := s0) e ?_ (fun _ => ?_) <;> clear e) | (with_reducible refine Later.cut3 (s0 := s0) e ?_ (fun _ => ?_) <;> clear e) | skip)
    | fail_if_no_progress with_reducible apply Later.upd)

theorem answerWaiters_later {s0 : State} {s : State} (c : Nat) (hl : Later s0 s) :
    Later s0 (answerWaiters s c) := by
  unfold answerWaiters
  repeat' (first
    | with_reducible assumption
    | intro _
    | with_reducible apply setMember_later | with_reducible apply emit_later
    | with_reducible apply Later.foldl | with_reducible apply Later.foldl1 | with_reducible apply Later.foldl2
    | split
    | fail_if_no_progress with_reducible apply Later.upd)

theorem landBurst_later {s0 : State} {s : State} (c : Nat) (d : DmaDesc) (b : Burst) (hl : Later s0 s) :
    Later s0 (landBurst s c d b) := by
  unfold landBurst
  repeat' (first
    | with_reducible assumption
    | intro _
    | (extract_lets +onlyGivenNames x; clear_value (e : x = _); first | (with_reducible refine Later.cut (s0 := s0) e ?_ (fun _ => ?_) <;> clear e) | clear e)
    | with_reducible apply drawBool_later | with_reducible apply writeBurst_later | with_reducible apply memRead_later
    | (split <;> rename_i e <;> first | (with_reducible refine Later.cut1 (s0 := s0) e ?_ (fun _ => ?_) <;> clear e) | (with_reducible refine Later.cut2 (s0 := s0) e ?_ (fun _ => ?_) <;> clear e) | (with_reducible refine Later.cut3 (s0 := s0) e ?_ (fun _ => ?_) <;> clear e) | skip)
    | fail_if_no_progress with_reducible apply Later.upd)

theorem landBursts_later {s0 : State} {s : State} (c : Nat) (hl : Later s0 s) :
    Later s0 (landBursts s c) := by
  unfold landBursts
  repeat' (first
    | with_reducible assumption
    | intro _
    | with_reducible apply landBurst_later
    | with_reducible apply Later.foldl
    | split
    | fail_if_no_progress with_reducible apply Later.upd)

theorem evpostAt_later {s0 : State} {s : State} (t sdev spart score : Nat) (mask : W32) (hl : Later s0 s) :
    Later s0 (evpostAt s t sdev spart score mask).1 := by
  unfold evpostAt
  repeat' (first
    | with_reducible assumption
    | intro _
    | (extract_lets +onlyGivenNames x; clear_value (e : x = _); first | (with_reducible refine Later.cut (s0 := s0) e ?_ (fun _ => ?_) <;> clear e) | clear e)
    | with_reducible apply dropAtCore_later | with_reducible apply setFlags_later | with_reducible apply countRefusal_later
    | (split <;> rename_i e <;> first | (with_reducible refine Later.cut1 (s0 := s0) e ?_ (fun _ => ?_) <;> clear e) | (with_reducible refine Later.cut2 (s0 := s0) e ?_ (fun _ => ?_) <;> clear e) | (with_reducible refine Later.cut3 (s0 := s0) e ?_ (fun _ => ?_) <;> clear e) | skip)
    | fail_if_no_progress with_reducible apply Later.upd)

theorem landFlights_later {s0 : State} {s : State} (c : Nat) (hl : Later s0 s) :
    Later s0 (landFlights s c) := by
  unfold landFlights
  repeat' (first
    | with_reducible assumption
    | intro _
    | (extract_lets +onlyGivenNames x; clear_value (e : x = _); first | (with_reducible refine Later.cut (s0 := s0) e ?_ (fun _ => ?_) <;> clear e) | clear e)
    | with_reducible apply drawBool_later | with_reducible apply evpostAt_later | with_reducible apply atomicPerform_later | with_reducible apply lockOp_later
    | with_reducible apply Later.foldl | with_reducible apply Later.foldl1 | with_reducible apply Later.foldl2
    | (split <;> rename_i e <;> first | (with_reducible refine Later.cut1 (s0 := s0) e ?_ (fun _ => ?_) <;> clear e) | (with_reducible refine Later.cut2 (s0 := s0) e ?_ (fun _ => ?_) <;> clear e) | (with_reducible refine Later.cut3 (s0 := s0) e ?_ (fun _ => ?_) <;> clear e) | skip)
    | fail_if_no_progress with_reducible apply Later.upd)

theorem lateAccess_later {s0 : State} {s : State} (c : Nat) (hl : Later s0 s) :
    Later s0 (lateAccess s c).1 := by
  unfold lateAccess
  repeat' (first
    | with_reducible assumption
    | intro _
    | (extract_lets +onlyGivenNames x; clear_value (e : x = _); first | (with_reducible refine Later.cut (s0 := s0) e ?_ (fun _ => ?_) <;> clear e) | clear e)
    | with_reducible apply drawBool_later
    | (split <;> rename_i e <;> first | (with_reducible refine Later.cut1 (s0 := s0) e ?_ (fun _ => ?_) <;> clear e) | (with_reducible refine Later.cut2 (s0 := s0) e ?_ (fun _ => ?_) <;> clear e) | (with_reducible refine Later.cut3 (s0 := s0) e ?_ (fun _ => ?_) <;> clear e) | skip)
    | fail_if_no_progress with_reducible apply Later.upd)

theorem reportReset_later {s0 : State} {s : State} (c : Nat) (hl : Later s0 s) :
    Later s0 (reportReset s c) := by
  unfold reportReset
  repeat' (first
    | with_reducible assumption
    | intro _
    | (extract_lets +onlyGivenNames x; clear_value (e : x = _); first | (with_reducible refine Later.cut (s0 := s0) e ?_ (fun _ => ?_) <;> clear e) | clear e)
    | fail_if_no_progress with_reducible apply Later.upd)

theorem endLaunch_later {s0 : State} {s : State} (l : Launch) (hl : Later s0 s) :
    Later s0 (endLaunch s l) := by
  unfold endLaunch
  repeat' (first
    | with_reducible assumption
    | intro _
    | (extract_lets +onlyGivenNames x; clear_value (e : x = _); first | (with_reducible refine Later.cut (s0 := s0) e ?_ (fun _ => ?_) <;> clear e) | clear e)
    | with_reducible apply dropSend_later | with_reducible apply post_later | with_reducible apply afterPost_later
    | split
    | fail_if_no_progress with_reducible apply Later.upd)

theorem endLaunches_later {s0 : State} {s : State} (p : Nat → Bool) (hl : Later s0 s) :
    Later s0 (endLaunches s p) := by
  unfold endLaunches
  repeat' (first
    | with_reducible assumption
    | intro _
    | (extract_lets +onlyGivenNames x; clear_value (e : x = _); first | (with_reducible refine Later.cut (s0 := s0) e ?_ (fun _ => ?_) <;> clear e) | clear e)
    | with_reducible apply endLaunch_later
    | with_reducible apply Later.foldl
    | fail_if_no_progress with_reducible apply Later.upd)

theorem applyBanks_later {s0 : State} {s : State} (c : Nat) (hl : Later s0 s) :
    Later s0 (applyBanks s c) := by
  unfold applyBanks
  repeat' (first
    | with_reducible assumption
    | intro _
    | (extract_lets +onlyGivenNames x; clear_value (e : x = _); first | (with_reducible refine Later.cut (s0 := s0) e ?_ (fun _ => ?_) <;> clear e) | (with_reducible refine Later.cutF (s0 := s0) e ?_ (fun hg => ?_) <;> clear e) | (with_reducible refine Later.cutF1 (s0 := s0) e ?_ (fun hg => ?_) <;> clear e) | (with_reducible refine Later.cutF2 (s0 := s0) e ?_ (fun hg => ?_) <;> clear e) | (with_reducible refine Later.cutC (s0 := s0) e ?_ (fun hg => ?_) <;> clear e) | (with_reducible refine Later.cutFp (s0 := s0) e ?_ (fun hg => ?_) <;> clear e) | clear e)
    | with_reducible apply modCore_later
    | with_reducible apply hg
    | (split <;> rename_i e <;> first | (with_reducible refine Later.cut1 (s0 := s0) e ?_ (fun _ => ?_) <;> clear e) | (with_reducible refine Later.cut2 (s0 := s0) e ?_ (fun _ => ?_) <;> clear e) | (with_reducible refine Later.cut3 (s0 := s0) e ?_ (fun _ => ?_) <;> clear e) | skip)
    | fail_if_no_progress with_reducible apply Later.upd)

theorem bankSpares_later {s0 : State} {s : State} (tx ty : Nat) (put : State → Bytes → State) (hl : Later s0 s) (hp : ∀ s a, Later s0 s → Later s0 (put s a)) :
    Later s0 (bankSpares s tx ty put).1 := by
  unfold bankSpares
  repeat' (first
    | with_reducible assumption
    | intro _
    | with_reducible apply hp
    | (extract_lets +onlyGivenNames x; clear_value (e : x = _); first | (with_reducible refine Later.cut (s0 := s0) e ?_ (fun _ => ?_) <;> clear e) | clear e)
    | with_reducible apply Later.foldl | with_reducible apply Later.foldl1 | with_reducible apply Later.foldl2
    | (split <;> rename_i e <;> first | (with_reducible refine Later.cut1 (s0 := s0) e ?_ (fun _ => ?_) <;> clear e) | (with_reducible refine Later.cut2 (s0 := s0) e ?_ (fun _ => ?_) <;> clear e) | (with_reducible refine Later.cut3 (s0 := s0) e ?_ (fun _ => ?_) <;> clear e) | skip)
    | fail_if_no_progress with_reducible apply Later.upd)

theorem clearSp_later {s0 : State} {s : State} (c : Nat) (hl : Later s0 s) :
    Later s0 (clearSp s c) := by
  unfold clearSp
  repeat' (first | with_reducible assumption | with_reducible apply clearMem_later | intro _)

theorem resetCore_later {s0 : State} {s : State} (c : Nat) (clear : Bool) (hl : Later s0 s) :
    Later s0 (resetCore s c clear) := by
  unfold resetCore
  repeat' (first
    | with_reducible assumption
    | intro _
    | (extract_lets +onlyGivenNames x; clear_value (e : x = _); first | (with_reducible refine Later.cut (s0 := s0) e ?_ (fun _ => ?_) <;> clear e) | clear e)
    | with_reducible apply modCore_later | with_reducible apply landBursts_later | with_reducible apply answerWaiters_later | with_reducible apply reportReset_later | with_reducible apply orphanSend_later | with_reducible apply landFlights_later | with_reducible apply lateAccess_later | with_reducible apply locksLost_later | with_reducible apply applyBanks_later | with_reducible apply clearSp_later
    | with_reducible apply Later.foldl | with_reducible apply Later.foldl1 | with_reducible apply Later.foldl2
    | (split <;> rename_i e <;> first | (with_reducible refine Later.cut1 (s0 := s0) e ?_ (fun _ => ?_) <;> clear e) | (with_reducible refine Later.cut2 (s0 := s0) e ?_ (fun _ => ?_) <;> clear e) | (with_reducible refine Later.cut3 (s0 := s0) e ?_ (fun _ => ?_) <;> clear e) | skip)
    | fail_if_no_progress with_reducible apply Later.upd)

theorem releaseCore_later {s0 : State} {s : State} (c : Nat) (hl : Later s0 s) :
    Later s0 (releaseCore s c) := by
  unfold releaseCore
  repeat' (first
    | with_reducible assumption
    | intro _
    | (extract_lets +onlyGivenNames x; clear_value (e : x = _); first | (with_reducible refine Later.cut (s0 := s0) e ?_ (fun _ => ?_) <;> clear e) | clear e)
    | with_reducible apply modCore_later
    | fail_if_no_progress with_reducible apply Later.upd)

theorem resetGroup_later {s0 : State} {s : State} (g : Nat) (clear : Bool) (hl : Later s0 s) :
    Later s0 (resetGroup s g clear) := by
  unfold resetGroup
  repeat' (first
    | with_reducible assumption
    | intro _
    | with_reducible apply resetCore_later | with_reducible apply modGrp_later
    | with_reducible apply Later.foldl
    | fail_if_no_progress with_reducible apply Later.upd)

theorem releaseGroup_later {s0 : State} {s : State} (g : Nat) (hl : Later s0 s) :
    Later s0 (releaseGroup s g) := by
  unfold releaseGroup
  repeat' (first
    | with_reducible assumption
    | intro _
    | with_reducible apply releaseCore_later | with_reducible apply modGrp_later
    | with_reducible apply Later.foldl
    | fail_if_no_progress with_reducible apply Later.upd)

theorem emptyChans_later {s0 : State} {s : State} (b : Nat) (hl : Later s0 s) :
    Later s0 (emptyChans s b) := by
  unfold emptyChans
  repeat' (first
    | with_reducible assumption
    | intro _
    | fail_if_no_progress with_reducible apply Later.upd)

theorem zeroUnit_later {s0 : State} {s : State} (u : Nat) (hl : Later s0 s) :
    Later s0 (zeroUnit s u) := by
  unfold zeroUnit
  repeat' (first | with_reducible assumption | with_reducible apply clearMem_later | intro _)

theorem retireCands_later {s0 : State} {s : State} (p : Option Nat → Bool) (hl : Later s0 s) :
    Later s0 (retireCands s p) := by
  unfold retireCands
  repeat' (first
    | with_reducible assumption
    | intro _
    | (extract_lets +onlyGivenNames x; clear_value (e : x = _); first | (with_reducible refine Later.cut (s0 := s0) e ?_ (fun _ => ?_) <;> clear e) | clear e)
    | with_reducible apply retirePage_later
    | with_reducible apply Later.foldl | with_reducible apply Later.foldl1 | with_reducible apply Later.foldl2
    | (split <;> rename_i e <;> first | (with_reducible refine Later.cut1 (s0 := s0) e ?_ (fun _ => ?_) <;> clear e) | (with_reducible refine Later.cut2 (s0 := s0) e ?_ (fun _ => ?_) <;> clear e) | (with_reducible refine Later.cut3 (s0 := s0) e ?_ (fun _ => ?_) <;> clear e) | skip)
    | fail_if_no_progress with_reducible apply Later.upd)

theorem applyPending_later {s0 : State} {s : State} (p : Nat) (hl : Later s0 s) :
    Later s0 (applyPending s p) := by
  unfold applyPending
  repeat' (first
    | with_reducible assumption
    | intro _
    | (extract_lets +onlyGivenNames x; clear_value (e : x = _); first | (with_reducible refine Later.cut (s0 := s0) e ?_ (fun _ => ?_) <;> clear e) | clear e)
    | with_reducible apply resetGroup_later | with_reducible apply modGrp_later | with_reducible apply retireCands_later | with_reducible apply zeroUnit_later | with_reducible apply modPart_later | with_reducible apply emptyChans_later | with_reducible apply releaseGroup_later
    | with_reducible apply Later.foldl | with_reducible apply Later.foldl1 | with_reducible apply Later.foldl2
    | (split <;> rename_i e <;> first | (with_reducible refine Later.cut1 (s0 := s0) e ?_ (fun _ => ?_) <;> clear e) | (with_reducible refine Later.cut2 (s0 := s0) e ?_ (fun _ => ?_) <;> clear e) | (with_reducible refine Later.cut3 (s0 := s0) e ?_ (fun _ => ?_) <;> clear e) | skip)
    | fail_if_no_progress with_reducible apply Later.upd)

theorem partVectors_later {s0 : State} {s : State} (p : Nat) (hl : Later s0 s) :
    Later s0 (partVectors s p) := by
  unfold partVectors
  repeat' (first
    | with_reducible assumption
    | intro _
    | with_reducible apply functionEvent_later
    | with_reducible apply Later.foldl)

theorem beginPartReset_later {s0 : State} {s : State} (p : Nat) (hl : Later s0 s) :
    Later s0 (beginPartReset s p) := by
  unfold beginPartReset
  repeat' (first
    | with_reducible assumption
    | intro _
    | (extract_lets +onlyGivenNames x; clear_value (e : x = _); first | (with_reducible refine Later.cut (s0 := s0) e ?_ (fun _ => ?_) <;> clear e) | clear e)
    | with_reducible apply modPart_later | with_reducible apply endLaunches_later | with_reducible apply resetGroup_later
    | with_reducible apply Later.foldl
    | split
    | fail_if_no_progress with_reducible apply Later.upd)

theorem countersDefault_later {s0 : State} {s : State} (hl : Later s0 s) :
    Later s0 (countersDefault s) := by
  unfold countersDefault
  repeat' (first
    | with_reducible assumption
    | intro _
    | with_reducible apply Later.foldl
    | fail_if_no_progress with_reducible apply Later.upd)

theorem abortCheck_later {s0 : State} {s : State} (hl : Later s0 s) :
    Later s0 (abortCheck s) := by
  unfold abortCheck
  repeat' (first
    | with_reducible assumption
    | intro _
    | (extract_lets +onlyGivenNames x; clear_value (e : x = _); first | (with_reducible refine Later.cut (s0 := s0) e ?_ (fun _ => ?_) <;> clear e) | clear e)
    | with_reducible apply modGrp_later | with_reducible apply modWake_later | with_reducible apply endFailed_later
    | with_reducible apply Later.foldl
    | split
    | fail_if_no_progress with_reducible apply Later.upd)

theorem resetAllCores_later {s0 : State} {s : State} (clear : Bool) (hl : Later s0 s) :
    Later s0 (resetAllCores s clear) := by
  unfold resetAllCores
  repeat' (first
    | with_reducible assumption
    | intro _
    | with_reducible apply resetGroup_later
    | with_reducible apply Later.foldl)

theorem beginComputeReset_later {s0 : State} {s : State} (hl : Later s0 s) :
    Later s0 (beginComputeReset s) := by
  unfold beginComputeReset
  repeat' (first
    | with_reducible assumption
    | intro _
    | (extract_lets +onlyGivenNames x; clear_value (e : x = _); first | (with_reducible refine Later.cut (s0 := s0) e ?_ (fun _ => ?_) <;> clear e) | clear e)
    | with_reducible apply modWake_later | with_reducible apply setDev_later | with_reducible apply abortCheck_later | with_reducible apply endLaunches_later
    | with_reducible apply Later.foldl
    | split
    | fail_if_no_progress with_reducible apply Later.upd)

theorem groupNotify_later {s0 : State} {s : State} (p : Option Nat) (code : Nat) (g : Nat) (arg : Nat) (hl : Later s0 s) :
    Later s0 (groupNotify s p code g arg) := by
  unfold groupNotify
  repeat' (first
    | with_reducible assumption
    | intro _
    | (extract_lets +onlyGivenNames x; clear_value (e : x = _); first | (with_reducible refine Later.cut (s0 := s0) e ?_ (fun _ => ?_) <;> clear e) | clear e)
    | with_reducible apply notifyPart_later | with_reducible apply raiseEvent_later
    | split
    | fail_if_no_progress with_reducible apply Later.upd)

theorem moveFaultCore_later {s0 : State} {s : State} (p : Nat) (g : Nat) (hl : Later s0 s) :
    Later s0 (moveFaultCore s p g) := by
  unfold moveFaultCore
  repeat' (first
    | with_reducible assumption
    | intro _
    | (extract_lets +onlyGivenNames x; clear_value (e : x = _); first | (with_reducible refine Later.cut (s0 := s0) e ?_ (fun _ => ?_) <;> clear e) | clear e)
    | with_reducible apply modCtl_later
    | with_reducible apply Later.foldl
    | split
    | fail_if_no_progress with_reducible apply Later.upd)

theorem adoptGroup_later {s0 : State} {s : State} (p : Nat) (hl : Later s0 s) :
    Later s0 (adoptGroup s p) := by
  unfold adoptGroup
  repeat' (first
    | with_reducible assumption
    | intro _
    | (extract_lets +onlyGivenNames x; clear_value (e : x = _); first | (with_reducible refine Later.cut (s0 := s0) e ?_ (fun _ => ?_) <;> clear e) | clear e)
    | with_reducible apply modGrp_later | with_reducible apply groupNotify_later | with_reducible apply releaseGroup_later | with_reducible apply resetGroup_later
    | split
    | fail_if_no_progress with_reducible apply Later.upd)

theorem loseGroup_later {s0 : State} {s : State} (g : Nat) (cause : Nat) (off : Bool) (hl : Later s0 s) :
    Later s0 (loseGroup s g cause off) := by
  unfold loseGroup
  repeat' (first
    | with_reducible assumption
    | intro _
    | (extract_lets +onlyGivenNames x; clear_value (e : x = _); first | (with_reducible refine Later.cut (s0 := s0) e ?_ (fun _ => ?_) <;> clear e) | clear e)
    | with_reducible apply resetGroup_later | with_reducible apply modGrp_later | with_reducible apply moveFaultCore_later | with_reducible apply groupNotify_later | with_reducible apply adoptGroup_later | with_reducible apply reevaluate_later
    | split
    | fail_if_no_progress with_reducible apply Later.upd)

theorem confirmedOff_later {s0 : State} {s : State} (g : Nat) (hl : Later s0 s) :
    Later s0 (confirmedOff s g) := by
  unfold confirmedOff
  repeat' (first | with_reducible assumption | with_reducible apply loseGroup_later | with_reducible apply raiseErr_later | with_reducible apply setDom_later | intro _)

theorem endPartReset_later {s0 : State} {s : State} (p : Nat) (hl : Later s0 s) :
    Later s0 (endPartReset s p) := by
  unfold endPartReset
  repeat' (first
    | with_reducible assumption
    | intro _
    | (extract_lets +onlyGivenNames x; clear_value (e : x = _); first | (with_reducible refine Later.cut (s0 := s0) e ?_ (fun _ => ?_) <;> clear e) | clear e)
    | with_reducible apply applyPending_later | with_reducible apply confirmedOff_later | with_reducible apply modPwr_later | with_reducible apply releaseGroup_later | with_reducible apply endAsync_later | with_reducible apply reevaluate_later | with_reducible apply partVectors_later | with_reducible apply modPart_later
    | with_reducible apply Later.foldl | with_reducible apply Later.foldl1 | with_reducible apply Later.foldl2
    | (split <;> rename_i e <;> first | (with_reducible refine Later.cut1 (s0 := s0) e ?_ (fun _ => ?_) <;> clear e) | (with_reducible refine Later.cut2 (s0 := s0) e ?_ (fun _ => ?_) <;> clear e) | (with_reducible refine Later.cut3 (s0 := s0) e ?_ (fun _ => ?_) <;> clear e) | skip)
    | fail_if_no_progress with_reducible apply Later.upd)

theorem failCore_later {s0 : State} {s : State} (c : Nat) (src : Nat) (prov : Bool) (test : Nat) (hl : Later s0 s) :
    Later s0 (failCore s c src prov test) := by
  unfold failCore
  repeat' (first
    | with_reducible assumption
    | intro _
    | (extract_lets +onlyGivenNames x; clear_value (e : x = _); first | (with_reducible refine Later.cut (s0 := s0) e ?_ (fun _ => ?_) <;> clear e) | clear e)
    | with_reducible apply modWake_later | with_reducible apply surveyAppend_later | with_reducible apply loseGroup_later | with_reducible apply modGrp_later | with_reducible apply resetGroup_later
    | (split <;> rename_i e <;> first | (with_reducible refine Later.cut1 (s0 := s0) e ?_ (fun _ => ?_) <;> clear e) | (with_reducible refine Later.cut2 (s0 := s0) e ?_ (fun _ => ?_) <;> clear e) | skip)
    | fail_if_no_progress with_reducible apply Later.upd)

end Sys2Proof.Machine
end

