-- ==== Sys2Proof/Laws/LaterLinkOps.lean ====
section
/-!
SUPPORT. The operations of Machine/LinkOps.lean keep `Later`.
-/

set_option linter.unusedTactic false
set_option linter.unreachableTactic false

namespace Sys2Proof.Machine

theorem setPortSt_later {s0 : State} {s : State} (p : Nat) (x : PortState) (hl : Later s0 s) :
    Later s0 (setPortSt s p x) := by
  unfold setPortSt
  repeat' (first
    | with_reducible assumption
    | intro _
    | (extract_lets +onlyGivenNames x; clear_value (e : x = _); first | (with_reducible refine Later.cut (s0 := s0) e ?_ (fun _ => ?_) <;> clear e) | clear e)
    | with_reducible apply modPort_later | with_reducible apply reevaluate_later | with_reducible apply raiseEvent_later
    | split
    | fail_if_no_progress with_reducible apply Later.upd)

theorem refusePkt_later {s0 : State} {s : State} (k : LinkPkt) (status : Nat) (hl : Later s0 s) :
    Later s0 (refusePkt s k status) := by
  unfold refusePkt
  repeat' (first
    | with_reducible assumption
    | intro _
    | with_reducible apply emit_later
    | split)

theorem modVc_later {s0 : State} {s : State} (p : Nat) (v : Nat) (f : LinkVc → LinkVc) (hl : Later s0 s) :
    Later s0 (modVc s p v f) := by
  unfold modVc
  repeat' (first
    | with_reducible assumption
    | intro _
    | with_reducible apply modPort_later
    | fail_if_no_progress with_reducible apply Later.upd)

theorem sealFrame_later {s0 : State} {s : State} (p : Nat) (on slot : Bool) (f : Frame) (hl : Later s0 s) :
    Later s0 (sealFrame s p on slot f).1 := by
  unfold sealFrame
  repeat' (first
    | with_reducible assumption
    | intro _
    | (extract_lets +onlyGivenNames x; clear_value (e : x = _); first | (with_reducible refine Later.cut (s0 := s0) e ?_ (fun _ => ?_) <;> clear e) | clear e)
    | with_reducible apply modPort_later | with_reducible apply count_later
    | (split <;> rename_i e <;> first | (with_reducible refine Later.cut1 (s0 := s0) e ?_ (fun _ => ?_) <;> clear e) | (with_reducible refine Later.cut2 (s0 := s0) e ?_ (fun _ => ?_) <;> clear e) | (with_reducible refine Later.cut3 (s0 := s0) e ?_ (fun _ => ?_) <;> clear e) | skip)
    | fail_if_no_progress with_reducible apply Later.upd)

theorem stampFrame_later {s0 : State} {s : State} (p : Nat) (f : Frame) (hl : Later s0 s) :
    Later s0 (stampFrame s p f).1 := by
  unfold stampFrame
  repeat' (first
    | with_reducible assumption
    | intro _
    | (extract_lets +onlyGivenNames x; clear_value (e : x = _); first | (with_reducible refine Later.cut (s0 := s0) e ?_ (fun _ => ?_) <;> clear e) | clear e)
    | with_reducible apply sealFrame_later | with_reducible apply modVc_later
    | with_reducible apply Later.getD_none | with_reducible apply Later.getD_some
    | (split <;> rename_i e <;> first | (with_reducible refine Later.cut1 (s0 := s0) e ?_ (fun _ => ?_) <;> clear e) | (with_reducible refine Later.cut2 (s0 := s0) e ?_ (fun _ => ?_) <;> clear e) | (with_reducible refine Later.cut3 (s0 := s0) e ?_ (fun _ => ?_) <;> clear e) | skip)
    | fail_if_no_progress with_reducible apply Later.upd)

theorem sendFrame_later {s0 : State} {s : State} (p : Nat) (f : Frame) (hl : Later s0 s) :
    Later s0 (sendFrame s p f) := by
  unfold sendFrame
  repeat' (first | with_reducible assumption | with_reducible apply emit_later | with_reducible apply countShared_later | intro _)

theorem sendIdle_later {s0 : State} {s : State} (p : Nat) (hl : Later s0 s) :
    Later s0 (sendIdle s p) := by
  unfold sendIdle
  repeat' (first
    | with_reducible assumption
    | intro _
    | (extract_lets +onlyGivenNames x; clear_value (e : x = _); first | (with_reducible refine Later.cut (s0 := s0) e ?_ (fun _ => ?_) <;> clear e) | clear e)
    | with_reducible apply stampFrame_later | with_reducible apply sendFrame_later
    | (split <;> rename_i e <;> first | (with_reducible refine Later.cut1 (s0 := s0) e ?_ (fun _ => ?_) <;> clear e) | (with_reducible refine Later.cut2 (s0 := s0) e ?_ (fun _ => ?_) <;> clear e) | skip))

theorem sendNak_later {s0 : State} {s : State} (p : Nat) (cause : Nat) (seqc : BitVec 16) (hl : Later s0 s) :
    Later s0 (sendNak s p cause seqc) := by
  unfold sendNak
  repeat' (first
    | with_reducible assumption
    | intro _
    | (extract_lets +onlyGivenNames x; clear_value (e : x = _); first | (with_reducible refine Later.cut (s0 := s0) e ?_ (fun _ => ?_) <;> clear e) | clear e)
    | with_reducible apply stampFrame_later | with_reducible apply sendFrame_later | with_reducible apply countShared_later
    | (split <;> rename_i e <;> first | (with_reducible refine Later.cut1 (s0 := s0) e ?_ (fun _ => ?_) <;> clear e) | (with_reducible refine Later.cut2 (s0 := s0) e ?_ (fun _ => ?_) <;> clear e) | skip)
    | fail_if_no_progress with_reducible apply Later.upd)

theorem startPackets_later {s0 : State} {s : State} (fuel : Nat) (p : Nat) (hl : Later s0 s) :
    Later s0 (startPackets fuel s p) := by
  induction fuel generalizing s p with
  | zero => unfold startPackets; exact hl
  | succ n ih =>
    unfold startPackets
    repeat' (first
      | with_reducible assumption
      | intro _
      | (extract_lets +onlyGivenNames x; clear_value (e : x = _); first | (with_reducible refine Later.cut (s0 := s0) e ?_ (fun _ => ?_) <;> clear e) | clear e)
      | with_reducible apply ih | with_reducible apply modPort_later | with_reducible apply modVc_later
      | (split <;> rename_i e <;> first | (with_reducible refine Later.cut1 (s0 := s0) e ?_ (fun _ => ?_) <;> clear e) | (with_reducible refine Later.cut2 (s0 := s0) e ?_ (fun _ => ?_) <;> clear e) | (with_reducible refine Later.cut3 (s0 := s0) e ?_ (fun _ => ?_) <;> clear e) | skip)
      | fail_if_no_progress with_reducible apply Later.upd)

theorem sendData_later {s0 : State} {s : State} (p v : Nat) (hl : Later s0 s) :
    Later s0 (sendData s p v) := by
  unfold sendData
  repeat' (first
    | with_reducible assumption
    | intro _
    | (extract_lets +onlyGivenNames x; clear_value (e : x = _); first | (with_reducible refine Later.cut (s0 := s0) e ?_ (fun _ => ?_) <;> clear e) | clear e)
    | with_reducible apply stampFrame_later | with_reducible apply modVc_later | with_reducible apply modPort_later | with_reducible apply sendFrame_later | with_reducible apply countShared_later
    | with_reducible apply Later.getD_none | with_reducible apply Later.getD_some
    | (split <;> rename_i e <;> first | (with_reducible refine Later.cut1 (s0 := s0) e ?_ (fun _ => ?_) <;> clear e) | (with_reducible refine Later.cut2 (s0 := s0) e ?_ (fun _ => ?_) <;> clear e) | (with_reducible refine Later.cut3 (s0 := s0) e ?_ (fun _ => ?_) <;> clear e) | skip)
    | fail_if_no_progress with_reducible apply Later.upd)

theorem txPump_later {s0 : State} (fuel : Nat) {s : State} (p : Nat) (hl : Later s0 s) :
    Later s0 (txPump fuel s p) := by
  induction fuel generalizing s with
  | zero => exact hl
  | succ n ih =>
    unfold txPump
    repeat' (first
      | with_reducible assumption
      | intro _ | with_reducible apply ih
      | (extract_lets +onlyGivenNames x; clear_value (e : x = _); first | (with_reducible refine Later.cut (s0 := s0) e ?_ (fun _ => ?_) <;> clear e) | clear e)
      | with_reducible apply startPackets_later | with_reducible apply sendData_later
      | with_reducible apply Later.foldl
      | split
      | fail_if_no_progress with_reducible apply Later.upd)

theorem enqueuePkt_later {s0 : State} {s : State} (p v : Nat) (x : TxPkt) (hl : Later s0 s) :
    Later s0 (enqueuePkt s p v x) := by
  unfold enqueuePkt
  repeat' (first
    | with_reducible assumption
    | intro _
    | (extract_lets +onlyGivenNames x; clear_value (e : x = _); first | (with_reducible refine Later.cut (s0 := s0) e ?_ (fun _ => ?_) <;> clear e) | clear e)
    | with_reducible apply countShared_later | with_reducible apply txPump_later | with_reducible apply modVc_later
    | (split <;> rename_i e <;> first | (with_reducible refine Later.cut1 (s0 := s0) e ?_ (fun _ => ?_) <;> clear e) | (with_reducible refine Later.cut2 (s0 := s0) e ?_ (fun _ => ?_) <;> clear e) | (with_reducible refine Later.cut3 (s0 := s0) e ?_ (fun _ => ?_) <;> clear e) | skip)
    | fail_if_no_progress with_reducible apply Later.upd)

theorem modConn_later {s0 : State} {s : State} (b : Nat) (peer : Nat) (f : Conn → Conn) (hl : Later s0 s) :
    Later s0 (modConn s b peer f) := by
  unfold modConn
  repeat' (first
    | with_reducible assumption
    | intro _
    | with_reducible apply modLinks_later
    | fail_if_no_progress with_reducible apply Later.upd)

theorem sprayed_later {s0 : State} {s : State} (b : Nat) (k : LinkPkt) (hl : Later s0 s) :
    Later s0 (sprayed s b k) := by
  unfold sprayed
  repeat' (first
    | with_reducible assumption
    | intro _
    | (extract_lets +onlyGivenNames x; clear_value (e : x = _); first | (with_reducible refine Later.cut (s0 := s0) e ?_ (fun _ => ?_) <;> clear e) | clear e)
    | with_reducible apply modLinks_later
    | (split <;> rename_i e <;> first | (with_reducible refine Later.cut1 (s0 := s0) e ?_ (fun _ => ?_) <;> clear e) | (with_reducible refine Later.cut2 (s0 := s0) e ?_ (fun _ => ?_) <;> clear e) | (with_reducible refine Later.cut3 (s0 := s0) e ?_ (fun _ => ?_) <;> clear e) | skip)
    | fail_if_no_progress with_reducible apply Later.upd)

theorem ethCtl_later {s0 : State} {s : State} (b peer type_ psn mfrac : Nat) (hl : Later s0 s) :
    Later s0 (ethCtl s b peer type_ psn mfrac) := by
  unfold ethCtl
  repeat' (first
    | with_reducible assumption
    | intro _
    | (extract_lets +onlyGivenNames x; clear_value (e : x = _); first | (with_reducible refine Later.cut (s0 := s0) e ?_ (fun _ => ?_) <;> clear e) | clear e)
    | with_reducible apply emit_later
    | (split <;> rename_i e <;> first | (with_reducible refine Later.cut1 (s0 := s0) e ?_ (fun _ => ?_) <;> clear e) | (with_reducible refine Later.cut2 (s0 := s0) e ?_ (fun _ => ?_) <;> clear e) | (with_reducible refine Later.cut3 (s0 := s0) e ?_ (fun _ => ?_) <;> clear e) | skip)
    | fail_if_no_progress with_reducible apply Later.upd)

theorem ethSend_later {s0 : State} {s : State} (b p : Nat) (k : LinkPkt) (hl : Later s0 s) :
    Later s0 (ethSend s b p k) := by
  unfold ethSend
  repeat' (first
    | with_reducible assumption
    | intro _
    | (extract_lets +onlyGivenNames x; clear_value (e : x = _); first | (with_reducible refine Later.cut (s0 := s0) e ?_ (fun _ => ?_) <;> clear e) | clear e)
    | with_reducible apply refusePkt_later | with_reducible apply modConn_later | with_reducible apply emit_later
    | (split <;> rename_i e <;> first | (with_reducible refine Later.cut1 (s0 := s0) e ?_ (fun _ => ?_) <;> clear e) | (with_reducible refine Later.cut2 (s0 := s0) e ?_ (fun _ => ?_) <;> clear e) | (with_reducible refine Later.cut3 (s0 := s0) e ?_ (fun _ => ?_) <;> clear e) | skip)
    | fail_if_no_progress with_reducible apply Later.upd)

theorem useBundle_later {s0 : State} {s : State} (l b : Nat) (planeB : Bool) (x : TxPkt) (hl : Later s0 s) :
    Later s0 (useBundle s l b planeB x) := by
  unfold useBundle
  repeat' (first
    | with_reducible assumption
    | intro _
    | (extract_lets +onlyGivenNames x; clear_value (e : x = _); first | (with_reducible refine Later.cut (s0 := s0) e ?_ (fun _ => ?_) <;> clear e) | clear e)
    | with_reducible apply refusePkt_later | with_reducible apply sprayed_later | with_reducible apply emit_later | with_reducible apply ethSend_later | with_reducible apply enqueuePkt_later
    | (split <;> rename_i e <;> first | (with_reducible refine Later.cut1 (s0 := s0) e ?_ (fun _ => ?_) <;> clear e) | (with_reducible refine Later.cut2 (s0 := s0) e ?_ (fun _ => ?_) <;> clear e) | (with_reducible refine Later.cut3 (s0 := s0) e ?_ (fun _ => ?_) <;> clear e) | skip)
    | fail_if_no_progress with_reducible apply Later.upd)

theorem routePkt_later {s0 : State} {s : State} (l inp : Nat) (planeB : Bool) (k : LinkPkt) (abort : Bool) (hl : Later s0 s) :
    Later s0 (routePkt s l inp planeB k abort) := by
  unfold routePkt
  repeat' (first
    | with_reducible assumption
    | intro _
    | (extract_lets +onlyGivenNames x; clear_value (e : x = _); first | (with_reducible refine Later.cut (s0 := s0) e ?_ (fun _ => ?_) <;> clear e) | clear e)
    | with_reducible apply refusePkt_later | with_reducible apply refuse_later | with_reducible apply modLinks_later | with_reducible apply emit_later | with_reducible apply useBundle_later
    | (split <;> rename_i e <;> first | (with_reducible refine Later.cut1 (s0 := s0) e ?_ (fun _ => ?_) <;> clear e) | (with_reducible refine Later.cut2 (s0 := s0) e ?_ (fun _ => ?_) <;> clear e) | (with_reducible refine Later.cut3 (s0 := s0) e ?_ (fun _ => ?_) <;> clear e) | skip)
    | fail_if_no_progress with_reducible apply Later.upd)

theorem portLeave_later {s0 : State} {s : State} (p : Nat) (x : PortState) (hl : Later s0 s) :
    Later s0 (portLeave s p x) := by
  unfold portLeave
  repeat' (first
    | with_reducible assumption
    | intro _
    | (extract_lets +onlyGivenNames x; clear_value (e : x = _); first | (with_reducible refine Later.cut (s0 := s0) e ?_ (fun _ => ?_) <;> clear e) | clear e)
    | with_reducible apply refusePkt_later | with_reducible apply modPort_later | with_reducible apply setPortSt_later | with_reducible apply useBundle_later
    | with_reducible apply Later.foldl | with_reducible apply Later.foldl1 | with_reducible apply Later.foldl2
    | (split <;> rename_i e <;> first | (with_reducible refine Later.cut1 (s0 := s0) e ?_ (fun _ => ?_) <;> clear e) | (with_reducible refine Later.cut2 (s0 := s0) e ?_ (fun _ => ?_) <;> clear e) | (with_reducible refine Later.cut3 (s0 := s0) e ?_ (fun _ => ?_) <;> clear e) | skip)
    | fail_if_no_progress with_reducible apply Later.upd)

theorem freeSpares_later {s0 : State} {s : State} (p : Nat) (hl : Later s0 s) :
    Later s0 (freeSpares s p) := by
  unfold freeSpares
  repeat' (first
    | with_reducible assumption
    | intro _
    | (extract_lets +onlyGivenNames x; clear_value (e : x = _); first | (with_reducible refine Later.cut (s0 := s0) e ?_ (fun _ => ?_) <;> clear e) | clear e)
    | with_reducible apply modLinks_later
    | (split <;> rename_i e <;> first | (with_reducible refine Later.cut1 (s0 := s0) e ?_ (fun _ => ?_) <;> clear e) | (with_reducible refine Later.cut2 (s0 := s0) e ?_ (fun _ => ?_) <;> clear e) | (with_reducible refine Later.cut3 (s0 := s0) e ?_ (fun _ => ?_) <;> clear e) | skip)
    | fail_if_no_progress with_reducible apply Later.upd)

theorem startTraining_later {s0 : State} {s : State} (p : Nat) (hl : Later s0 s) :
    Later s0 (startTraining s p) := by
  unfold startTraining
  repeat' (first
    | with_reducible assumption
    | intro _
    | with_reducible apply portLeave_later | with_reducible apply freeSpares_later
    | split)

theorem portChanged_later {s0 : State} {s : State} (p : Nat) (hl : Later s0 s) :
    Later s0 (portChanged s p) := by
  unfold portChanged
  repeat' (first
    | with_reducible assumption
    | intro _
    | (extract_lets +onlyGivenNames x; clear_value (e : x = _); first | (with_reducible refine Later.cut (s0 := s0) e ?_ (fun _ => ?_) <;> clear e) | clear e)
    | with_reducible apply startTraining_later
    | (split <;> rename_i e <;> first | (with_reducible refine Later.cut1 (s0 := s0) e ?_ (fun _ => ?_) <;> clear e) | (with_reducible refine Later.cut2 (s0 := s0) e ?_ (fun _ => ?_) <;> clear e) | (with_reducible refine Later.cut3 (s0 := s0) e ?_ (fun _ => ?_) <;> clear e) | skip)
    | fail_if_no_progress with_reducible apply Later.upd)

theorem portReset_later {s0 : State} {s : State} (p : Nat) (why : ResetWhy) (hl : Later s0 s) :
    Later s0 (portReset s p why) := by
  unfold portReset
  repeat' (first
    | with_reducible assumption
    | intro _
    | (extract_lets +onlyGivenNames x; clear_value (e : x = _); first | (with_reducible refine Later.cut (s0 := s0) e ?_ (fun _ => ?_) <;> clear e) | clear e)
    | with_reducible apply portLeave_later | with_reducible apply raiseErr_later | with_reducible apply modPort_later | with_reducible apply setPortSt_later
    | split
    | fail_if_no_progress with_reducible apply Later.upd)

theorem violation_later {s0 : State} {s : State} (p : Nat) (cause : Nat) (hl : Later s0 s) :
    Later s0 (violation s p cause) := by
  unfold violation
  repeat' (first
    | with_reducible assumption
    | intro _
    | (extract_lets +onlyGivenNames x; clear_value (e : x = _); first | (with_reducible refine Later.cut (s0 := s0) e ?_ (fun _ => ?_) <;> clear e) | clear e)
    | with_reducible apply modPort_later | with_reducible apply modLinks_later | with_reducible apply raiseRec_later | with_reducible apply portReset_later
    | split
    | fail_if_no_progress with_reducible apply Later.upd)

theorem violationNak_later {s0 : State} {s : State} (p : Nat) (cause : Nat) (seqc : BitVec 16) (hl : Later s0 s) :
    Later s0 (violationNak s p cause seqc) := by
  unfold violationNak
  repeat' (first | with_reducible assumption | with_reducible apply violation_later | with_reducible apply sendNak_later | intro _)

theorem askReplay_later {s0 : State} {s : State} (p : Nat) (hl : Later s0 s) :
    Later s0 (askReplay s p) := by
  unfold askReplay
  repeat' (first
    | with_reducible assumption
    | intro _
    | with_reducible apply sendNak_later | with_reducible apply modPort_later
    | split
    | fail_if_no_progress with_reducible apply Later.upd)

theorem tagFail_later {s0 : State} {s : State} (p : Nat) (hl : Later s0 s) :
    Later s0 (tagFail s p) := by
  unfold tagFail
  repeat' (first
    | with_reducible assumption
    | intro _
    | (extract_lets +onlyGivenNames x; clear_value (e : x = _); first | (with_reducible refine Later.cut (s0 := s0) e ?_ (fun _ => ?_) <;> clear e) | clear e)
    | with_reducible apply modPort_later | with_reducible apply raiseEvent_later | with_reducible apply portReset_later | with_reducible apply askReplay_later
    | split
    | fail_if_no_progress with_reducible apply Later.upd)

theorem takeAck_later {s0 : State} {s : State} (p : Nat) (ack : BitVec 16) (hl : Later s0 s) :
    Later s0 (takeAck s p ack) := by
  unfold takeAck
  repeat' (first
    | with_reducible assumption
    | intro _
    | (extract_lets +onlyGivenNames x; clear_value (e : x = _); first | (with_reducible refine Later.cut (s0 := s0) e ?_ (fun _ => ?_) <;> clear e) | clear e)
    | with_reducible apply violationNak_later | with_reducible apply modPort_later
    | split
    | fail_if_no_progress with_reducible apply Later.upd)

theorem takeCred_later {s0 : State} {s : State} (p : Nat) (v : BitVec 2) (n : Nat) (hl : Later s0 s) :
    Later s0 (takeCred s p v n) := by
  unfold takeCred
  repeat' (first
    | with_reducible assumption
    | intro _
    | with_reducible apply modVc_later
    | split
    | fail_if_no_progress with_reducible apply Later.upd)

theorem leaveBuf_later {s0 : State} {s : State} (p : Nat) (v : Nat) (hl : Later s0 s) :
    Later s0 (leaveBuf s p v) := by
  unfold leaveBuf
  repeat' (first
    | with_reducible assumption
    | intro _
    | with_reducible apply modVc_later
    | fail_if_no_progress with_reducible apply Later.upd)

theorem headerless_later {s0 : State} {s : State} (p : Nat) (v : Nat) (counted : Bool) (hl : Later s0 s) :
    Later s0 (headerless s p v counted) := by
  unfold headerless
  repeat' (first
    | with_reducible assumption
    | intro _
    | (extract_lets +onlyGivenNames x; clear_value (e : x = _); first | (with_reducible refine Later.cut (s0 := s0) e ?_ (fun _ => ?_) <;> clear e) | clear e)
    | with_reducible apply leaveBuf_later | with_reducible apply modVc_later | with_reducible apply violation_later
    | split
    | fail_if_no_progress with_reducible apply Later.upd)

theorem endShort_later {s0 : State} {s : State} (p v : Nat) (next : RxSt) (hl : Later s0 s) :
    Later s0 (endShort s p v next) := by
  unfold endShort
  repeat' (first
    | with_reducible assumption
    | intro _
    | (extract_lets +onlyGivenNames x; clear_value (e : x = _); first | (with_reducible refine Later.cut (s0 := s0) e ?_ (fun _ => ?_) <;> clear e) | clear e)
    | with_reducible apply countShared_later | with_reducible apply leaveBuf_later | with_reducible apply modVc_later | with_reducible apply refusePkt_later | with_reducible apply routePkt_later
    | (split <;> rename_i e <;> first | (with_reducible refine Later.cut1 (s0 := s0) e ?_ (fun _ => ?_) <;> clear e) | (with_reducible refine Later.cut2 (s0 := s0) e ?_ (fun _ => ?_) <;> clear e) | (with_reducible refine Later.cut3 (s0 := s0) e ?_ (fun _ => ?_) <;> clear e) | skip)
    | fail_if_no_progress with_reducible apply Later.upd)

theorem pktWhole_later {s0 : State} {s : State} (p : Nat) (v : Nat) (k : LinkPkt) (hl : Later s0 s) :
    Later s0 (pktWhole s p v k) := by
  unfold pktWhole
  repeat' (first
    | with_reducible assumption
    | intro _
    | with_reducible apply emit_later | with_reducible apply leaveBuf_later | with_reducible apply modVc_later
    | fail_if_no_progress with_reducible apply Later.upd)

theorem rxFlit_later {s0 : State} {s : State} (p v : Nat) (seq : BitVec 16) (f : Flit) (hl : Later s0 s) :
    Later s0 (rxFlit s p v seq f) := by
  unfold rxFlit
  repeat' (first
    | with_reducible assumption
    | intro _
    | (extract_lets +onlyGivenNames x; clear_value (e : x = _); first | (with_reducible refine Later.cut (s0 := s0) e ?_ (fun _ => ?_) <;> clear e) | (with_reducible refine Later.cutF (s0 := s0) e ?_ (fun hg => ?_) <;> clear e) | (with_reducible refine Later.cutF1 (s0 := s0) e ?_ (fun hg => ?_) <;> clear e) | (with_reducible refine Later.cutF2 (s0 := s0) e ?_ (fun hg => ?_) <;> clear e) | (with_reducible refine Later.cutC (s0 := s0) e ?_ (fun hg => ?_) <;> clear e) | (with_reducible refine Later.cutFp (s0 := s0) e ?_ (fun hg => ?_) <;> clear e) | clear e)
    | with_reducible apply modVc_later | with_reducible apply leaveBuf_later | with_reducible apply endShort_later | with_reducible apply violationNak_later | with_reducible apply violation_later | with_reducible apply refusePkt_later | with_reducible apply pktWhole_later | with_reducible apply headerless_later
    | with_reducible apply hg
    | (split <;> rename_i e <;> first | (with_reducible refine Later.cut1 (s0 := s0) e ?_ (fun _ => ?_) <;> clear e) | (with_reducible refine Later.cut2 (s0 := s0) e ?_ (fun _ => ?_) <;> clear e) | (with_reducible refine Later.cut3 (s0 := s0) e ?_ (fun _ => ?_) <;> clear e) | skip)
    | fail_if_no_progress with_reducible apply Later.upd)

theorem rxFlits_later {s0 : State} {s : State} (p : Nat) (v : Nat) (seq : BitVec 16) (x0 : List Flit) (hl : Later s0 s) :
    Later s0 (rxFlits s p v seq x0) := by
  induction x0 generalizing s with
  | nil => exact hl
  | cons f fs ih =>
    unfold rxFlits
    repeat' (first
      | with_reducible assumption
      | with_reducible apply violationNak_later
      | with_reducible apply endShort_later
      | with_reducible apply ih
      | with_reducible apply rxFlit_later
      | split)

theorem frameChecks_later {s0 : State} {s : State} (p : Nat) (f : Frame) (hl : Later s0 s) :
    Later s0 (frameChecks s p f).1 := by
  unfold frameChecks
  repeat' (first
    | with_reducible assumption
    | intro _
    | (extract_lets +onlyGivenNames x; clear_value (e : x = _); first | (with_reducible refine Later.cut (s0 := s0) e ?_ (fun _ => ?_) <;> clear e) | clear e)
    | with_reducible apply countShared_later | with_reducible apply askReplay_later | with_reducible apply malformed_later | with_reducible apply violationNak_later | with_reducible apply tagFail_later
    | (split <;> rename_i e <;> first | (with_reducible refine Later.cut1 (s0 := s0) e ?_ (fun _ => ?_) <;> clear e) | (with_reducible refine Later.cut2 (s0 := s0) e ?_ (fun _ => ?_) <;> clear e) | (with_reducible refine Later.cut3 (s0 := s0) e ?_ (fun _ => ?_) <;> clear e) | skip)
    | fail_if_no_progress with_reducible apply Later.upd)

theorem replayFrom_later {s0 : State} {s : State} (p : Nat) (seq : BitVec 16) (hl : Later s0 s) :
    Later s0 (replayFrom s p seq) := by
  unfold replayFrom
  repeat' (first
    | with_reducible assumption
    | intro _
    | (extract_lets +onlyGivenNames x; clear_value (e : x = _); first | (with_reducible refine Later.cut (s0 := s0) e ?_ (fun _ => ?_) <;> clear e) | clear e)
    | with_reducible apply modPort_later | with_reducible apply countShared_later | with_reducible apply sendFrame_later
    | with_reducible apply Later.foldl
    | split
    | fail_if_no_progress with_reducible apply Later.upd)

theorem chooseUpstream_later {s0 : State} {s : State} (hl : Later s0 s) :
    Later s0 (chooseUpstream s) := by
  unfold chooseUpstream
  repeat' (first
    | with_reducible assumption
    | intro _
    | (extract_lets +onlyGivenNames x; clear_value (e : x = _); first | (with_reducible refine Later.cut (s0 := s0) e ?_ (fun _ => ?_) <;> clear e) | clear e)
    | with_reducible apply modEch_later
    | split
    | fail_if_no_progress with_reducible apply Later.upd)

end Sys2Proof.Machine
end

