-- ==== Sys2Proof/Laws/LaterClockOps.lean ====
section
/-!
SUPPORT. The operations of Machine/ClockOps.lean keep `Later`.
-/

set_option linter.unusedTactic false
set_option linter.unreachableTactic false

namespace Sys2Proof.Machine

theorem armChange_later {s0 : State} {s : State} (c : ClkChange) (hl : Later s0 s) :
    Later s0 (armChange s c) := by
  unfold armChange
  repeat' (first
    | with_reducible assumption
    | intro _
    | (extract_lets +onlyGivenNames x; clear_value (e : x = _); first | (with_reducible refine Later.cut (s0 := s0) e ?_ (fun _ => ?_) <;> clear e) | clear e)
    | with_reducible apply modClk_later | with_reducible apply modField_later
    | with_reducible apply Later.foldl
    | fail_if_no_progress with_reducible apply Later.upd)

theorem armHeld_later {s0 : State} {s : State} (hl : Later s0 s) :
    Later s0 (armHeld s) := by
  unfold armHeld
  repeat' (first
    | with_reducible assumption
    | intro _
    | with_reducible apply armChange_later | with_reducible apply modClk_later
    | split
    | fail_if_no_progress with_reducible apply Later.upd)

theorem requestChange_later {s0 : State} {s : State} (t : Nat) (targets : Map Nat) (hl : Later s0 s) :
    Later s0 (requestChange s t targets) := by
  unfold requestChange
  repeat' (first
    | with_reducible assumption
    | intro _
    | (extract_lets +onlyGivenNames x; clear_value (e : x = _); first | (with_reducible refine Later.cut (s0 := s0) e ?_ (fun _ => ?_) <;> clear e) | clear e)
    | with_reducible apply modClk_later | with_reducible apply armChange_later
    | split
    | fail_if_no_progress with_reducible apply Later.upd)

theorem cancelChange_later {s0 : State} {s : State} (notrdy : Nat) (hl : Later s0 s) :
    Later s0 (cancelChange s notrdy) := by
  unfold cancelChange
  repeat' (first
    | with_reducible assumption
    | intro _
    | (extract_lets +onlyGivenNames x; clear_value (e : x = _); first | (with_reducible refine Later.cut (s0 := s0) e ?_ (fun _ => ?_) <;> clear e) | clear e)
    | with_reducible apply modClk_later | with_reducible apply modField_later | with_reducible apply armHeld_later
    | with_reducible apply Later.foldl
    | split
    | fail_if_no_progress with_reducible apply Later.upd)

theorem stepEcho_later {s0 : State} {s : State} (d : Int) (hl : Later s0 s) :
    Later s0 (stepEcho s d) := by
  unfold stepEcho
  repeat' (first
    | with_reducible assumption
    | intro _
    | (extract_lets +onlyGivenNames x; clear_value (e : x = _); first | (with_reducible refine Later.cut (s0 := s0) e ?_ (fun _ => ?_) <;> clear e) | clear e)
    | with_reducible apply modField_later | with_reducible apply modEch_later | with_reducible apply raiseEvent_later
    | with_reducible apply Later.foldl
    | fail_if_no_progress with_reducible apply Later.upd)

theorem discipline_later {s0 : State} {s : State} (d : Int) (hl : Later s0 s) :
    Later s0 (discipline s d) := by
  unfold discipline
  repeat' (first
    | with_reducible assumption
    | intro _
    | (extract_lets +onlyGivenNames x; clear_value (e : x = _); first | (with_reducible refine Later.cut (s0 := s0) e ?_ (fun _ => ?_) <;> clear e) | clear e)
    | with_reducible apply modEch_later | with_reducible apply stepEcho_later
    | split
    | fail_if_no_progress with_reducible apply Later.upd)

theorem holdover_later {s0 : State} {s : State} (hl : Later s0 s) :
    Later s0 (holdover s) := by
  unfold holdover
  repeat' (first
    | with_reducible assumption
    | intro _
    | (extract_lets +onlyGivenNames x; clear_value (e : x = _); first | (with_reducible refine Later.cut (s0 := s0) e ?_ (fun _ => ?_) <;> clear e) | clear e)
    | with_reducible apply modEch_later
    | fail_if_no_progress with_reducible apply Later.upd)

theorem sourceSet_later {s0 : State} {s : State} (src : Nat) (hl : Later s0 s) :
    Later s0 (sourceSet s src) := by
  unfold sourceSet
  repeat' (first
    | with_reducible assumption
    | intro _
    | (extract_lets +onlyGivenNames x; clear_value (e : x = _); first | (with_reducible refine Later.cut (s0 := s0) e ?_ (fun _ => ?_) <;> clear e) | clear e)
    | with_reducible apply modEch_later
    | split
    | fail_if_no_progress with_reducible apply Later.upd)

theorem resync_later {s0 : State} {s : State} (hl : Later s0 s) :
    Later s0 (resync s) := by
  unfold resync
  repeat' (first
    | with_reducible assumption
    | intro _
    | (extract_lets +onlyGivenNames x; clear_value (e : x = _); first | (with_reducible refine Later.cut (s0 := s0) e ?_ (fun _ => ?_) <;> clear e) | clear e)
    | with_reducible apply cancelChange_later | with_reducible apply stepEcho_later | with_reducible apply modEch_later
    | (split <;> rename_i e <;> first | (with_reducible refine Later.cut1 (s0 := s0) e ?_ (fun _ => ?_) <;> clear e) | (with_reducible refine Later.cut2 (s0 := s0) e ?_ (fun _ => ?_) <;> clear e) | (with_reducible refine Later.cut3 (s0 := s0) e ?_ (fun _ => ?_) <;> clear e) | skip)
    | fail_if_no_progress with_reducible apply Later.upd)

end Sys2Proof.Machine
end

