-- ==== Sys2Proof/Laws/LaterHbm.lean ====
section
/-!
SUPPORT. The operations of Machine/Hbm.lean keep `Later`.
-/

set_option linter.unusedTactic false
set_option linter.unreachableTactic false

namespace Sys2Proof.Machine

theorem barData_later {s0 : State} {s : State} (h f off : Nat) (ok : Bool) (bs : Bytes) (poison : List Nat) (hl : Later s0 s) :
    Later s0 (barData s h f off ok bs poison) := by
  unfold barData
  repeat' (first
    | with_reducible assumption
    | intro _
    | (extract_lets +onlyGivenNames x; clear_value (e : x = _); first | (with_reducible refine Later.cut (s0 := s0) e ?_ (fun _ => ?_) <;> clear e) | clear e)
    | with_reducible apply countDrop_later | with_reducible apply emit_later
    | with_reducible apply Later.foldl | with_reducible apply Later.foldl1 | with_reducible apply Later.foldl2
    | (split <;> rename_i e <;> first | (with_reducible refine Later.cut1 (s0 := s0) e ?_ (fun _ => ?_) <;> clear e) | (with_reducible refine Later.cut2 (s0 := s0) e ?_ (fun _ => ?_) <;> clear e) | (with_reducible refine Later.cut3 (s0 := s0) e ?_ (fun _ => ?_) <;> clear e) | skip)
    | fail_if_no_progress with_reducible apply Later.upd)

theorem hbmAnswer_later {s0 : State} {s : State} (w : HbmWait) (x : RSt) (bs : Bytes) (poison : List Nat) (hl : Later s0 s) :
    Later s0 (hbmAnswer s w x bs poison) := by
  unfold hbmAnswer
  repeat' (first
    | with_reducible assumption
    | intro _
    | (extract_lets +onlyGivenNames x; clear_value (e : x = _); first | (with_reducible refine Later.cut (s0 := s0) e ?_ (fun _ => ?_) <;> clear e) | clear e)
    | with_reducible apply barData_later | with_reducible apply emit_later
    | (split <;> rename_i e <;> first | (with_reducible refine Later.cut1 (s0 := s0) e ?_ (fun _ => ?_) <;> clear e) | (with_reducible refine Later.cut2 (s0 := s0) e ?_ (fun _ => ?_) <;> clear e) | (with_reducible refine Later.cut3 (s0 := s0) e ?_ (fun _ => ?_) <;> clear e) | skip)
    | fail_if_no_progress with_reducible apply Later.upd)

theorem busParity_later {s0 : State} {s : State} (st : Nat) (owner : Option Nat) (hl : Later s0 s) :
    Later s0 (busParity s st owner) := by
  unfold busParity
  repeat' (first
    | with_reducible assumption
    | intro _
    | (extract_lets +onlyGivenNames x; clear_value (e : x = _); first | (with_reducible refine Later.cut (s0 := s0) e ?_ (fun _ => ?_) <;> clear e) | clear e)
    | with_reducible apply raiseErr_later | with_reducible apply modStack_later
    | (split <;> rename_i e <;> first | (with_reducible refine Later.cut1 (s0 := s0) e ?_ (fun _ => ?_) <;> clear e) | (with_reducible refine Later.cut2 (s0 := s0) e ?_ (fun _ => ?_) <;> clear e) | (with_reducible refine Later.cut3 (s0 := s0) e ?_ (fun _ => ?_) <;> clear e) | skip)
    | fail_if_no_progress with_reducible apply Later.upd)

theorem hbmServe_later {s0 : State} {s : State} (w : HbmWait) (hl : Later s0 s) :
    Later s0 (hbmServe s w) := by
  unfold hbmServe
  repeat' (first
    | with_reducible assumption
    | intro _
    | (extract_lets +onlyGivenNames x; clear_value (e : x = _); first | (with_reducible refine Later.cut (s0 := s0) e ?_ (fun _ => ?_) <;> clear e) | clear e)
    | with_reducible apply hbmAnswer_later | with_reducible apply countStatus_later | with_reducible apply busParity_later | with_reducible apply hbmAccess_later
    | (split <;> rename_i e <;> first | (with_reducible refine Later.cut1 (s0 := s0) e ?_ (fun _ => ?_) <;> clear e) | (with_reducible refine Later.cut2 (s0 := s0) e ?_ (fun _ => ?_) <;> clear e) | (with_reducible refine Later.cut3 (s0 := s0) e ?_ (fun _ => ?_) <;> clear e) | skip)
    | fail_if_no_progress with_reducible apply Later.upd)

theorem hbmWait_later {s0 : State} {s : State} (w : HbmWait) (hl : Later s0 s) :
    Later s0 (hbmWait s w) := by
  unfold hbmWait
  repeat' (first
    | with_reducible assumption
    | intro _
    | (extract_lets +onlyGivenNames x; clear_value (e : x = _); first | (with_reducible refine Later.cut (s0 := s0) e ?_ (fun _ => ?_) <;> clear e) | clear e)
    | with_reducible apply modStack_later
    | (split <;> rename_i e <;> first | (with_reducible refine Later.cut1 (s0 := s0) e ?_ (fun _ => ?_) <;> clear e) | (with_reducible refine Later.cut2 (s0 := s0) e ?_ (fun _ => ?_) <;> clear e) | (with_reducible refine Later.cut3 (s0 := s0) e ?_ (fun _ => ?_) <;> clear e) | skip)
    | fail_if_no_progress with_reducible apply Later.upd)

theorem execHbmRequest_later (r : HbmReq) {s : State} :
    ∃ s', (execHbmRequest r s) = .next s' ∧ Later s s' := by
  have hl := Later.refl s
  refine ⟨_, rfl, ?_⟩
  repeat' (first
    | with_reducible assumption
    | intro _
    | (extract_lets +onlyGivenNames x; clear_value (e : x = _); first | (with_reducible refine Later.cut (s0 := s) e ?_ (fun _ => ?_) <;> clear e) | clear e)
    | with_reducible apply hbmWait_later | with_reducible apply hbmServe_later
    | (split <;> rename_i e <;> first | (with_reducible refine Later.cut1 (s0 := s) e ?_ (fun _ => ?_) <;> clear e) | (with_reducible refine Later.cut2 (s0 := s) e ?_ (fun _ => ?_) <;> clear e) | (with_reducible refine Later.cut3 (s0 := s) e ?_ (fun _ => ?_) <;> clear e) | skip)
    | fail_if_no_progress with_reducible apply Later.upd)

theorem execHbmRateTokens_later (st : Nat) {s : State} :
    ∃ s', (execHbmRateTokens st s) = .next s' ∧ Later s s' := by
  have hl := Later.refl s
  refine ⟨_, rfl, ?_⟩
  repeat' (first
    | with_reducible assumption
    | intro _
    | (extract_lets +onlyGivenNames x; clear_value (e : x = _); first | (with_reducible refine Later.cut (s0 := s) e ?_ (fun _ => ?_) <;> clear e) | clear e)
    | with_reducible apply hbmServe_later | with_reducible apply modStack_later
    | (split <;> rename_i e <;> first | (with_reducible refine Later.cut1 (s0 := s) e ?_ (fun _ => ?_) <;> clear e) | (with_reducible refine Later.cut2 (s0 := s) e ?_ (fun _ => ?_) <;> clear e) | (with_reducible refine Later.cut3 (s0 := s) e ?_ (fun _ => ?_) <;> clear e) | skip)
    | fail_if_no_progress with_reducible apply Later.upd)

theorem execHbmEccWriteback_later (st : Nat) (w : Nat) {s : State} :
    ∃ s', (execHbmEccWriteback st w s) = .next s' ∧ Later s s' := by
  have hl := Later.refl s
  refine ⟨_, rfl, ?_⟩
  repeat' (first
    | with_reducible assumption
    | intro _
    | split
    | fail_if_no_progress with_reducible apply Later.upd)

theorem execHbmScrubWord_later (st : Nat) {s : State} :
    ∃ s', (execHbmScrubWord st s) = .next s' ∧ Later s s' := by
  have hl := Later.refl s
  refine ⟨_, rfl, ?_⟩
  repeat' (first
    | with_reducible assumption
    | intro _
    | (extract_lets +onlyGivenNames x; clear_value (e : x = _); first | (with_reducible refine Later.cut (s0 := s) e ?_ (fun _ => ?_) <;> clear e) | clear e)
    | with_reducible apply modStack_later | with_reducible apply touchHbm_later
    | split
    | fail_if_no_progress with_reducible apply Later.upd)

theorem execHbmTempRead_later (st t : Nat) {s : State} :
    ∃ s', (execHbmTempRead st t s) = .next s' ∧ Later s s' := by
  have hl := Later.refl s
  refine ⟨_, rfl, ?_⟩
  repeat' (first
    | with_reducible assumption
    | intro _
    | (extract_lets +onlyGivenNames x; clear_value (e : x = _); first | (with_reducible refine Later.cut (s0 := s) e ?_ (fun _ => ?_) <;> clear e) | clear e)
    | with_reducible apply modStack_later | with_reducible apply raiseEvent_later | with_reducible apply countThrottle_later
    | (split <;> rename_i e <;> first | (with_reducible refine Later.cut1 (s0 := s) e ?_ (fun _ => ?_) <;> clear e) | (with_reducible refine Later.cut2 (s0 := s) e ?_ (fun _ => ?_) <;> clear e) | (with_reducible refine Later.cut3 (s0 := s) e ?_ (fun _ => ?_) <;> clear e) | skip)
    | fail_if_no_progress with_reducible apply Later.upd)

theorem execHbmRecalibrate_later (_st : Nat) (_ch : Nat) {s : State} :
    ∃ s', (execHbmRecalibrate _st _ch s) = .next s' ∧ Later s s' := by
  have hl := Later.refl s
  refine ⟨_, rfl, ?_⟩
  repeat' (first | with_reducible assumption | intro _)

theorem retireStack_later {s0 : State} {s : State} (st : Nat) (prov : Bool) (hl : Later s0 s) :
    Later s0 (retireStack s st prov) := by
  unfold retireStack
  repeat' (first
    | with_reducible assumption
    | intro _
    | (extract_lets +onlyGivenNames x; clear_value (e : x = _); first | (with_reducible refine Later.cut (s0 := s0) e ?_ (fun _ => ?_) <;> clear e) | clear e)
    | with_reducible apply startFinds_later | with_reducible apply surveyAppend_later | with_reducible apply stackGone_later | with_reducible apply setDom_later | with_reducible apply modStack_later | with_reducible apply reevaluate_later | with_reducible apply raiseErr_later
    | (split <;> rename_i e <;> first | (with_reducible refine Later.cut1 (s0 := s0) e ?_ (fun _ => ?_) <;> clear e) | (with_reducible refine Later.cut2 (s0 := s0) e ?_ (fun _ => ?_) <;> clear e) | (with_reducible refine Later.cut3 (s0 := s0) e ?_ (fun _ => ?_) <;> clear e) | skip)
    | fail_if_no_progress with_reducible apply Later.upd)

theorem execHbmChannelFail_later (st : Nat) (ch : Nat) {s : State} :
    ∃ s', (execHbmChannelFail st ch s) = .next s' ∧ Later s s' := by
  have hl := Later.refl s
  refine ⟨_, rfl, ?_⟩
  repeat' (first
    | with_reducible assumption
    | intro _
    | with_reducible apply retireStack_later
    | split)

end Sys2Proof.Machine
end

