-- ==== Sys2Proof/Laws/LaterSessOps.lean ====
section
/-!
SUPPORT. The operations of Machine/SessOps.lean keep `Later`.
-/

set_option linter.unusedTactic false
set_option linter.unreachableTactic false

namespace Sys2Proof.Machine

theorem sessionEvent_later {s0 : State} {s : State} (e : Session) (why : CloseCause) (hl : Later s0 s) :
    Later s0 (sessionEvent s e why) := by
  unfold sessionEvent
  repeat' (first | with_reducible assumption | with_reducible apply raiseEvent_later | intro _)

theorem dropImage_later {s0 : State} {s : State} (e : Session) (hl : Later s0 s) :
    Later s0 (dropImage s e) := by
  unfold dropImage
  repeat' (first
    | with_reducible assumption
    | intro _
    | with_reducible apply modFw_later
    | split
    | fail_if_no_progress with_reducible apply Later.upd)

theorem closeSession_later {s0 : State} {s : State} (sid : Nat) (why : CloseCause) (hl : Later s0 s) :
    Later s0 (closeSession s sid why) := by
  unfold closeSession
  repeat' (first
    | with_reducible assumption
    | intro _
    | (extract_lets +onlyGivenNames x; clear_value (e : x = _); first | (with_reducible refine Later.cut (s0 := s0) e ?_ (fun _ => ?_) <;> clear e) | clear e)
    | with_reducible apply dropImage_later | with_reducible apply modWake_later | with_reducible apply sessionEvent_later
    | split
    | fail_if_no_progress with_reducible apply Later.upd)

theorem closeSessions_later {s0 : State} {s : State} (p : Session → Bool) (why : CloseCause) (hl : Later s0 s) :
    Later s0 (closeSessions s p why) := by
  unfold closeSessions
  repeat' (first
    | with_reducible assumption
    | intro _
    | with_reducible apply closeSession_later
    | with_reducible apply Later.foldl)

theorem closeMailbox_later {s0 : State} {s : State} (h : Nat) (f : Nat) (hl : Later s0 s) :
    Later s0 (closeMailbox s h f) := by
  unfold closeMailbox
  repeat' (first
    | with_reducible assumption
    | intro _
    | (extract_lets +onlyGivenNames x; clear_value (e : x = _); first | (with_reducible refine Later.cut (s0 := s0) e ?_ (fun _ => ?_) <;> clear e) | clear e)
    | with_reducible apply closeSessions_later | with_reducible apply modMgmt_later
    | fail_if_no_progress with_reducible apply Later.upd)

end Sys2Proof.Machine
end

