-- ==== Sys2Proof/Laws/LaterMesh.lean ====
section
/-!
SUPPORT. The operations of Machine/Mesh.lean keep `Later`.
-/

set_option linter.unusedTactic false
set_option linter.unreachableTactic false

namespace Sys2Proof.Machine

theorem modSeam_later {s0 : State} {s : State} (seam : Nat) (x : Nat) (f : Crossing → Crossing) (hl : Later s0 s) :
    Later s0 (modSeam s seam x f) := by
  unfold modSeam
  repeat' (first
    | with_reducible assumption
    | intro _
    | fail_if_no_progress with_reducible apply Later.upd)

theorem countResends_later {s0 : State} {s : State} (seam : Nat) (x : Nat) (k : Nat) (hl : Later s0 s) :
    Later s0 (countResends s seam x k) := by
  unfold countResends
  repeat' (first
    | with_reducible assumption
    | intro _
    | with_reducible apply modMsh_later
    | fail_if_no_progress with_reducible apply Later.upd)

theorem installOverlays_later {s0 : State} {s : State} (hl : Later s0 s) :
    Later s0 (installOverlays s) := by
  unfold installOverlays
  repeat' (first
    | with_reducible assumption
    | intro _
    | (extract_lets +onlyGivenNames x; clear_value (e : x = _); first | (with_reducible refine Later.cut (s0 := s0) e ?_ (fun _ => ?_) <;> clear e) | clear e)
    | with_reducible apply modMsh_later
    | with_reducible apply Later.foldl | with_reducible apply Later.foldl1 | with_reducible apply Later.foldl2
    | (split <;> rename_i e <;> first | (with_reducible refine Later.cut1 (s0 := s0) e ?_ (fun _ => ?_) <;> clear e) | (with_reducible refine Later.cut2 (s0 := s0) e ?_ (fun _ => ?_) <;> clear e) | (with_reducible refine Later.cut3 (s0 := s0) e ?_ (fun _ => ?_) <;> clear e) | skip)
    | fail_if_no_progress with_reducible apply Later.upd)

theorem setBuf_later {s0 : State} {s : State} (n r : Nat) (ms : List MeshFlight) (hl : Later s0 s) :
    Later s0 (setBuf s n r ms) := by
  unfold setBuf
  repeat' (first
    | with_reducible assumption
    | intro _
    | (extract_lets +onlyGivenNames x; clear_value (e : x = _); first | (with_reducible refine Later.cut (s0 := s0) e ?_ (fun _ => ?_) <;> clear e) | clear e)
    | with_reducible apply modMsh_later
    | (split <;> rename_i e <;> first | (with_reducible refine Later.cut1 (s0 := s0) e ?_ (fun _ => ?_) <;> clear e) | (with_reducible refine Later.cut2 (s0 := s0) e ?_ (fun _ => ?_) <;> clear e) | (with_reducible refine Later.cut3 (s0 := s0) e ?_ (fun _ => ?_) <;> clear e) | skip)
    | fail_if_no_progress with_reducible apply Later.upd)

theorem passFlits_later {s0 : State} {s : State} (n r : Nat) (k : Packet) (o : MeshPort) (vc : Bool) (m : Nat) (hl : Later s0 s) :
    Later s0 (passFlits s n r k o vc m) := by
  unfold passFlits
  repeat' (first
    | with_reducible assumption
    | intro _
    | (extract_lets +onlyGivenNames x; clear_value (e : x = _); first | (with_reducible refine Later.cut (s0 := s0) e ?_ (fun _ => ?_) <;> clear e) | clear e)
    | with_reducible apply modMsh_later
    | (split <;> rename_i e <;> first | (with_reducible refine Later.cut1 (s0 := s0) e ?_ (fun _ => ?_) <;> clear e) | (with_reducible refine Later.cut2 (s0 := s0) e ?_ (fun _ => ?_) <;> clear e) | (with_reducible refine Later.cut3 (s0 := s0) e ?_ (fun _ => ?_) <;> clear e) | skip)
    | fail_if_no_progress with_reducible apply Later.upd
    | dsimp only)

theorem passHeld_later {s0 : State} {s : State} (n r : Nat) (p : Plane) (o : MeshPort) (vc : Bool) (hl : Later s0 s) :
    Later s0 (passHeld s n r p o vc) := by
  unfold passHeld
  repeat' (first
    | with_reducible assumption
    | intro _
    | (extract_lets +onlyGivenNames x; clear_value (e : x = _); first | (with_reducible refine Later.cut (s0 := s0) e ?_ (fun _ => ?_) <;> clear e) | clear e)
    | with_reducible apply setBuf_later | with_reducible apply passFlits_later
    | (split <;> rename_i e <;> first | (with_reducible refine Later.cut1 (s0 := s0) e ?_ (fun _ => ?_) <;> clear e) | (with_reducible refine Later.cut2 (s0 := s0) e ?_ (fun _ => ?_) <;> clear e) | (with_reducible refine Later.cut3 (s0 := s0) e ?_ (fun _ => ?_) <;> clear e) | skip)
    | fail_if_no_progress with_reducible apply Later.upd)

theorem serveOut_later {s0 : State} {s : State} (n r : Nat) (p : Plane) (o : MeshPort) (hl : Later s0 s) :
    Later s0 (serveOut s n r p o) := by
  unfold serveOut
  repeat' (first
    | with_reducible assumption
    | intro _
    | (extract_lets +onlyGivenNames x; clear_value (e : x = _); first | (with_reducible refine Later.cut (s0 := s0) e ?_ (fun _ => ?_) <;> clear e) | (with_reducible refine Later.cutF (s0 := s0) e ?_ (fun hg => ?_) <;> clear e) | (with_reducible refine Later.cutF1 (s0 := s0) e ?_ (fun hg => ?_) <;> clear e) | (with_reducible refine Later.cutF2 (s0 := s0) e ?_ (fun hg => ?_) <;> clear e) | (with_reducible refine Later.cutC (s0 := s0) e ?_ (fun hg => ?_) <;> clear e) | (with_reducible refine Later.cutFp (s0 := s0) e ?_ (fun hg => ?_) <;> clear e) | clear e)
    | with_reducible apply passHeld_later | with_reducible apply modMsh_later | with_reducible apply countShared_later | with_reducible apply countResends_later | with_reducible apply setBuf_later | with_reducible apply emit_later
    | with_reducible apply hg
    | with_reducible apply Later.foldl | with_reducible apply Later.foldl1 | with_reducible apply Later.foldl2
    | (split <;> rename_i e <;> first | (with_reducible refine Later.cut1 (s0 := s0) e ?_ (fun _ => ?_) <;> clear e) | (with_reducible refine Later.cut2 (s0 := s0) e ?_ (fun _ => ?_) <;> clear e) | (with_reducible refine Later.cut3 (s0 := s0) e ?_ (fun _ => ?_) <;> clear e) | skip)
    | fail_if_no_progress with_reducible apply Later.upd)

theorem emptyRouter_later {s0 : State} {s : State} (n r : Nat) (hl : Later s0 s) :
    Later s0 (emptyRouter s n r) := by
  unfold emptyRouter
  repeat' (first
    | with_reducible assumption
    | intro _
    | (extract_lets +onlyGivenNames x; clear_value (e : x = _); first | (with_reducible refine Later.cut (s0 := s0) e ?_ (fun _ => ?_) <;> clear e) | clear e)
    | with_reducible apply emit_later | with_reducible apply setBuf_later
    | with_reducible apply Later.foldl | with_reducible apply Later.foldl1 | with_reducible apply Later.foldl2
    | (split <;> rename_i e <;> first | (with_reducible refine Later.cut1 (s0 := s0) e ?_ (fun _ => ?_) <;> clear e) | (with_reducible refine Later.cut2 (s0 := s0) e ?_ (fun _ => ?_) <;> clear e) | (with_reducible refine Later.cut3 (s0 := s0) e ?_ (fun _ => ?_) <;> clear e) | skip)
    | fail_if_no_progress with_reducible apply Later.upd)

theorem emptyRouters_later {s0 : State} {s : State} (n : Nat) (hl : Later s0 s) :
    Later s0 (emptyRouters s n) := by
  unfold emptyRouters
  repeat' (first
    | with_reducible assumption
    | intro _
    | (extract_lets +onlyGivenNames x; clear_value (e : x = _); first | (with_reducible refine Later.cut (s0 := s0) e ?_ (fun _ => ?_) <;> clear e) | clear e)
    | with_reducible apply emptyRouter_later | with_reducible apply modMsh_later
    | with_reducible apply Later.foldl | with_reducible apply Later.foldl1 | with_reducible apply Later.foldl2
    | (split <;> rename_i e <;> first | (with_reducible refine Later.cut1 (s0 := s0) e ?_ (fun _ => ?_) <;> clear e) | (with_reducible refine Later.cut2 (s0 := s0) e ?_ (fun _ => ?_) <;> clear e) | (with_reducible refine Later.cut3 (s0 := s0) e ?_ (fun _ => ?_) <;> clear e) | skip)
    | fail_if_no_progress with_reducible apply Later.upd)

theorem parityError_later {s0 : State} {s : State} (x : ParityAt) (hl : Later s0 s) :
    Later s0 (parityError s x) := by
  unfold parityError
  repeat' (first
    | with_reducible assumption
    | intro _
    | (extract_lets +onlyGivenNames x; clear_value (e : x = _); first | (with_reducible refine Later.cut (s0 := s0) e ?_ (fun _ => ?_) <;> clear e) | clear e)
    | with_reducible apply raiseErr_later
    | (split <;> rename_i e <;> first | (with_reducible refine Later.cut1 (s0 := s0) e ?_ (fun _ => ?_) <;> clear e) | (with_reducible refine Later.cut2 (s0 := s0) e ?_ (fun _ => ?_) <;> clear e) | (with_reducible refine Later.cut3 (s0 := s0) e ?_ (fun _ => ?_) <;> clear e) | skip)
    | fail_if_no_progress with_reducible apply Later.upd)

theorem sentFlits_later {s0 : State} {s : State} (k : Packet) (hl : Later s0 s) :
    Later s0 (sentFlits s k) := by
  unfold sentFlits
  repeat' (first
    | with_reducible assumption
    | intro _
    | (extract_lets +onlyGivenNames x; clear_value (e : x = _); first | (with_reducible refine Later.cut (s0 := s0) e ?_ (fun _ => ?_) <;> clear e) | clear e)
    | with_reducible apply count_later
    | (split <;> rename_i e <;> first | (with_reducible refine Later.cut1 (s0 := s0) e ?_ (fun _ => ?_) <;> clear e) | (with_reducible refine Later.cut2 (s0 := s0) e ?_ (fun _ => ?_) <;> clear e) | (with_reducible refine Later.cut3 (s0 := s0) e ?_ (fun _ => ?_) <;> clear e) | skip)
    | fail_if_no_progress with_reducible apply Later.upd)

theorem enterRouter_later {s0 : State} {s : State} (n r : Nat) (k : Packet) (hl : Later s0 s) :
    Later s0 (enterRouter s n r k) := by
  unfold enterRouter
  repeat' (first
    | with_reducible assumption
    | intro _
    | (extract_lets +onlyGivenNames x; clear_value (e : x = _); first | (with_reducible refine Later.cut (s0 := s0) e ?_ (fun _ => ?_) <;> clear e) | clear e)
    | with_reducible apply setBuf_later | with_reducible apply sentFlits_later
    | (split <;> rename_i e <;> first | (with_reducible refine Later.cut1 (s0 := s0) e ?_ (fun _ => ?_) <;> clear e) | (with_reducible refine Later.cut2 (s0 := s0) e ?_ (fun _ => ?_) <;> clear e) | (with_reducible refine Later.cut3 (s0 := s0) e ?_ (fun _ => ?_) <;> clear e) | skip)
    | fail_if_no_progress with_reducible apply Later.upd)

theorem refuseHeader_later {s0 : State} {s : State} (n r : Nat) (k : Packet) (hl : Later s0 s) :
    Later s0 (refuseHeader s n r k) := by
  unfold refuseHeader
  repeat' (first
    | with_reducible assumption
    | intro _
    | (extract_lets +onlyGivenNames x; clear_value (e : x = _); first | (with_reducible refine Later.cut (s0 := s0) e ?_ (fun _ => ?_) <;> clear e) | clear e)
    | with_reducible apply emit_later | with_reducible apply countStatus_later
    | (split <;> rename_i e <;> first | (with_reducible refine Later.cut1 (s0 := s0) e ?_ (fun _ => ?_) <;> clear e) | (with_reducible refine Later.cut2 (s0 := s0) e ?_ (fun _ => ?_) <;> clear e) | (with_reducible refine Later.cut3 (s0 := s0) e ?_ (fun _ => ?_) <;> clear e) | skip)
    | fail_if_no_progress with_reducible apply Later.upd)

theorem execPacketRoute_later (n r : Nat) (pkts : List Packet) (bad : List ParityAt) {s : State} :
    ∃ s', (execPacketRoute n r pkts bad s) = .next s' ∧ Later s s' := by
  have hl := Later.refl s
  refine ⟨_, rfl, ?_⟩
  repeat' (first
    | with_reducible assumption
    | intro _
    | (extract_lets +onlyGivenNames x; clear_value (e : x = _); first | (with_reducible refine Later.cut (s0 := s) e ?_ (fun _ => ?_) <;> clear e) | clear e)
    | with_reducible apply parityError_later | with_reducible apply refuseHeader_later | with_reducible apply enterRouter_later | with_reducible apply setBuf_later | with_reducible apply serveOut_later
    | with_reducible apply Later.foldl | with_reducible apply Later.foldl1 | with_reducible apply Later.foldl2
    | (split <;> rename_i e <;> first | (with_reducible refine Later.cut1 (s0 := s) e ?_ (fun _ => ?_) <;> clear e) | (with_reducible refine Later.cut2 (s0 := s) e ?_ (fun _ => ?_) <;> clear e) | (with_reducible refine Later.cut3 (s0 := s) e ?_ (fun _ => ?_) <;> clear e) | skip)
    | fail_if_no_progress with_reducible apply Later.upd)

theorem execSeamResendBurst_later (seam x plane dir group wire resends : Nat) {s : State} :
    ∃ s', (execSeamResendBurst seam x plane dir group wire resends s) = .next s' ∧ Later s s' := by
  have hl := Later.refl s
  refine ⟨_, rfl, ?_⟩
  repeat' (first
    | with_reducible assumption
    | intro _
    | (extract_lets +onlyGivenNames x; clear_value (e : x = _); first | (with_reducible refine Later.cut (s0 := s) e ?_ (fun _ => ?_) <;> clear e) | clear e)
    | with_reducible apply countResends_later | with_reducible apply raiseErr_later | with_reducible apply modSeam_later
    | (split <;> rename_i e <;> first | (with_reducible refine Later.cut1 (s0 := s) e ?_ (fun _ => ?_) <;> clear e) | (with_reducible refine Later.cut2 (s0 := s) e ?_ (fun _ => ?_) <;> clear e) | (with_reducible refine Later.cut3 (s0 := s) e ?_ (fun _ => ?_) <;> clear e) | skip)
    | fail_if_no_progress with_reducible apply Later.upd)

theorem steerGroup_later {s0 : State} {s : State} (seam x : Nat) (t : WireTest) (hl : Later s0 s) :
    Later s0 (steerGroup seam x s t) := by
  unfold steerGroup
  repeat' (first
    | with_reducible assumption
    | intro _
    | (extract_lets +onlyGivenNames x; clear_value (e : x = _); first | (with_reducible refine Later.cut (s0 := s0) e ?_ (fun _ => ?_) <;> clear e) | clear e)
    | with_reducible apply modSeam_later | with_reducible apply surveyAppend_later
    | (split <;> rename_i e <;> first | (with_reducible refine Later.cut1 (s0 := s0) e ?_ (fun _ => ?_) <;> clear e) | (with_reducible refine Later.cut2 (s0 := s0) e ?_ (fun _ => ?_) <;> clear e) | (with_reducible refine Later.cut3 (s0 := s0) e ?_ (fun _ => ?_) <;> clear e) | skip)
    | fail_if_no_progress with_reducible apply Later.upd)

theorem execCrossingQuiesced_later (seam x : Nat) (tests : List WireTest) {s : State} :
    ∃ s', (execCrossingQuiesced seam x tests s) = .next s' ∧ Later s s' := by
  have hl := Later.refl s
  refine ⟨_, rfl, ?_⟩
  repeat' (first
    | with_reducible assumption
    | intro _
    | (extract_lets +onlyGivenNames x; clear_value (e : x = _); first | (with_reducible refine Later.cut (s0 := s) e ?_ (fun _ => ?_) <;> clear e) | clear e)
    | with_reducible apply steerGroup_later | with_reducible apply installOverlays_later | with_reducible apply modSeam_later
    | with_reducible apply Later.foldl | with_reducible apply Later.foldl1 | with_reducible apply Later.foldl2
    | (split <;> rename_i e <;> first | (with_reducible refine Later.cut1 (s0 := s) e ?_ (fun _ => ?_) <;> clear e) | (with_reducible refine Later.cut2 (s0 := s) e ?_ (fun _ => ?_) <;> clear e) | (with_reducible refine Later.cut3 (s0 := s) e ?_ (fun _ => ?_) <;> clear e) | skip)
    | fail_if_no_progress with_reducible apply Later.upd)

theorem execServiceWireDisagree_later (n seam : Nat) (x : ServiceWire) (failed : Nat) {s : State} :
    ∃ s', (execServiceWireDisagree n seam x failed s) = .next s' ∧ Later s s' := by
  have hl := Later.refl s
  refine ⟨_, rfl, ?_⟩
  repeat' (first
    | with_reducible assumption
    | intro _
    | (extract_lets +onlyGivenNames x; clear_value (e : x = _); first | (with_reducible refine Later.cut (s0 := s) e ?_ (fun _ => ?_) <;> clear e) | clear e)
    | with_reducible apply modMsh_later | with_reducible apply raiseErr_later
    | (split <;> rename_i e <;> first | (with_reducible refine Later.cut1 (s0 := s) e ?_ (fun _ => ?_) <;> clear e) | (with_reducible refine Later.cut2 (s0 := s) e ?_ (fun _ => ?_) <;> clear e) | (with_reducible refine Later.cut3 (s0 := s) e ?_ (fun _ => ?_) <;> clear e) | skip)
    | fail_if_no_progress with_reducible apply Later.upd)

theorem discardPacket_later {s0 : State} {s : State} (n r dcore : Nat) (k : Packet) (hl : Later s0 s) :
    Later s0 (discardPacket s n r dcore k) := by
  unfold discardPacket
  repeat' (first
    | with_reducible assumption
    | intro _
    | (extract_lets +onlyGivenNames x; clear_value (e : x = _); first | (with_reducible refine Later.cut (s0 := s0) e ?_ (fun _ => ?_) <;> clear e) | clear e)
    | with_reducible apply meshDrop_later | with_reducible apply emit_later
    | (split <;> rename_i e <;> first | (with_reducible refine Later.cut1 (s0 := s0) e ?_ (fun _ => ?_) <;> clear e) | (with_reducible refine Later.cut2 (s0 := s0) e ?_ (fun _ => ?_) <;> clear e) | (with_reducible refine Later.cut3 (s0 := s0) e ?_ (fun _ => ?_) <;> clear e) | skip)
    | fail_if_no_progress with_reducible apply Later.upd)

theorem execMeshPacketDeliver_later (k : Packet) {s : State} :
    ∃ s', (execMeshPacketDeliver k s) = .next s' ∧ Later s s' := by
  have hl := Later.refl s
  refine ⟨_, rfl, ?_⟩
  repeat' (first
    | with_reducible assumption
    | intro _
    | (extract_lets +onlyGivenNames x; clear_value (e : x = _); first | (with_reducible refine Later.cut (s0 := s) e ?_ (fun _ => ?_) <;> clear e) | clear e)
    | with_reducible apply count_later | with_reducible apply countShared_later | with_reducible apply discardPacket_later | with_reducible apply emit_later
    | (split <;> rename_i e <;> first | (with_reducible refine Later.cut1 (s0 := s) e ?_ (fun _ => ?_) <;> clear e) | (with_reducible refine Later.cut2 (s0 := s) e ?_ (fun _ => ?_) <;> clear e) | (with_reducible refine Later.cut3 (s0 := s) e ?_ (fun _ => ?_) <;> clear e) | skip)
    | fail_if_no_progress with_reducible apply Later.upd)

theorem ldOff_later {s0 : State} {s : State} (l : Nat) (x : DomSt) (hl : Later s0 s) :
    Later s0 (ldOff s l x) := by
  unfold ldOff
  repeat' (first
    | with_reducible assumption
    | intro _
    | with_reducible apply portLeave_later | with_reducible apply setDom_later
    | with_reducible apply Later.foldl)

theorem mdOff_later {s0 : State} {s : State} (st : Nat) (x : DomSt) (hl : Later s0 s) :
    Later s0 (mdOff s st x) := by
  unfold mdOff
  repeat' (first
    | with_reducible assumption
    | intro _
    | (extract_lets +onlyGivenNames x; clear_value (e : x = _); first | (with_reducible refine Later.cut (s0 := s0) e ?_ (fun _ => ?_) <;> clear e) | clear e)
    | with_reducible apply stackGone_later | with_reducible apply setDom_later | with_reducible apply clearMem_later | with_reducible apply reevaluate_later | with_reducible apply modStack_later
    | (split <;> rename_i e <;> first | (with_reducible refine Later.cut1 (s0 := s0) e ?_ (fun _ => ?_) <;> clear e) | (with_reducible refine Later.cut2 (s0 := s0) e ?_ (fun _ => ?_) <;> clear e) | (with_reducible refine Later.cut3 (s0 := s0) e ?_ (fun _ => ?_) <;> clear e) | skip)
    | fail_if_no_progress with_reducible apply Later.upd)

theorem hdOff_later {s0 : State} {s : State} (h : Nat) (x : DomSt) (hl : Later s0 s) :
    Later s0 (hdOff s h x) := by
  unfold hdOff
  repeat' (first
    | with_reducible assumption
    | intro _
    | (extract_lets +onlyGivenNames x; clear_value (e : x = _); first | (with_reducible refine Later.cut (s0 := s0) e ?_ (fun _ => ?_) <;> clear e) | clear e)
    | with_reducible apply modHost_later | with_reducible apply setDom_later | with_reducible apply reevaluate_later | with_reducible apply closeMailbox_later
    | with_reducible apply Later.foldl | with_reducible apply Later.foldl1 | with_reducible apply Later.foldl2
    | (split <;> rename_i e <;> first | (with_reducible refine Later.cut1 (s0 := s0) e ?_ (fun _ => ?_) <;> clear e) | (with_reducible refine Later.cut2 (s0 := s0) e ?_ (fun _ => ?_) <;> clear e) | (with_reducible refine Later.cut3 (s0 := s0) e ?_ (fun _ => ?_) <;> clear e) | skip)
    | fail_if_no_progress with_reducible apply Later.upd)

theorem dieLeave_later {s0 : State} {s : State} (d : Nat) (x : DomSt) (hl : Later s0 s) :
    Later s0 (dieLeave s d x) := by
  unfold dieLeave
  repeat' (first
    | with_reducible assumption
    | intro _
    | (extract_lets +onlyGivenNames x; clear_value (e : x = _); first | (with_reducible refine Later.cut (s0 := s0) e ?_ (fun _ => ?_) <;> clear e) | clear e)
    | with_reducible apply ldOff_later | with_reducible apply mdOff_later | with_reducible apply hdOff_later
    | (split <;> rename_i e <;> first | (with_reducible refine Later.cut1 (s0 := s0) e ?_ (fun _ => ?_) <;> clear e) | (with_reducible refine Later.cut2 (s0 := s0) e ?_ (fun _ => ?_) <;> clear e) | (with_reducible refine Later.cut3 (s0 := s0) e ?_ (fun _ => ?_) <;> clear e) | skip)
    | fail_if_no_progress with_reducible apply Later.upd)

theorem fieldOut_later {s0 : State} {s : State} (n : Nat) (x : DomSt) (hl : Later s0 s) :
    Later s0 (fieldOut s n x) := by
  unfold fieldOut
  repeat' (first
    | with_reducible assumption
    | intro _
    | (extract_lets +onlyGivenNames x; clear_value (e : x = _); first | (with_reducible refine Later.cut (s0 := s0) e ?_ (fun _ => ?_) <;> clear e) | clear e)
    | with_reducible apply setDom_later | with_reducible apply loseGroup_later | with_reducible apply dieLeave_later
    | with_reducible apply Later.foldl | with_reducible apply Later.foldl1 | with_reducible apply Later.foldl2
    | (split <;> rename_i e <;> first | (with_reducible refine Later.cut1 (s0 := s0) e ?_ (fun _ => ?_) <;> clear e) | (with_reducible refine Later.cut2 (s0 := s0) e ?_ (fun _ => ?_) <;> clear e) | (with_reducible refine Later.cut3 (s0 := s0) e ?_ (fun _ => ?_) <;> clear e) | skip)
    | fail_if_no_progress with_reducible apply Later.upd)

theorem fnTrip_later {s0 : State} {s : State} (n : Nat) (hl : Later s0 s) :
    Later s0 (fnTrip s n) := by
  unfold fnTrip
  repeat' (first
    | with_reducible assumption
    | intro _
    | (extract_lets +onlyGivenNames x; clear_value (e : x = _); first | (with_reducible refine Later.cut (s0 := s0) e ?_ (fun _ => ?_) <;> clear e) | clear e)
    | with_reducible apply surveyAppend_later | with_reducible apply raiseErr_later | with_reducible apply beginComputeReset_later | with_reducible apply reevaluate_later | with_reducible apply fieldOut_later
    | (split <;> rename_i e <;> first | (with_reducible refine Later.cut1 (s0 := s0) e ?_ (fun _ => ?_) <;> clear e) | (with_reducible refine Later.cut2 (s0 := s0) e ?_ (fun _ => ?_) <;> clear e) | (with_reducible refine Later.cut3 (s0 := s0) e ?_ (fun _ => ?_) <;> clear e) | skip)
    | fail_if_no_progress with_reducible apply Later.upd)

theorem placeFieldPorts_later {s0 : State} {s : State} (hl : Later s0 s) :
    Later s0 (placeFieldPorts s) := by
  unfold placeFieldPorts
  repeat' (first
    | with_reducible assumption
    | intro _
    | (extract_lets +onlyGivenNames x; clear_value (e : x = _); first | (with_reducible refine Later.cut (s0 := s0) e ?_ (fun _ => ?_) <;> clear e) | clear e)
    | with_reducible apply modMsh_later
    | with_reducible apply Later.foldl | with_reducible apply Later.foldl1 | with_reducible apply Later.foldl2
    | (split <;> rename_i e <;> first | (with_reducible refine Later.cut1 (s0 := s0) e ?_ (fun _ => ?_) <;> clear e) | (with_reducible refine Later.cut2 (s0 := s0) e ?_ (fun _ => ?_) <;> clear e) | (with_reducible refine Later.cut3 (s0 := s0) e ?_ (fun _ => ?_) <;> clear e) | skip)
    | fail_if_no_progress with_reducible apply Later.upd)

theorem routerFails_later {s0 : State} {s : State} (n r : Nat) (core : Bool) (hl : Later s0 s) :
    Later s0 (routerFails s n r core) := by
  unfold routerFails
  repeat' (first
    | with_reducible assumption
    | intro _
    | (extract_lets +onlyGivenNames x; clear_value (e : x = _); first | (with_reducible refine Later.cut (s0 := s0) e ?_ (fun _ => ?_) <;> clear e) | clear e)
    | with_reducible apply surveyAppend_later | with_reducible apply modGrp_later | with_reducible apply setBuf_later | with_reducible apply fnTrip_later | with_reducible apply loseGroup_later | with_reducible apply beginComputeReset_later
    | (split <;> rename_i e <;> first | (with_reducible refine Later.cut1 (s0 := s0) e ?_ (fun _ => ?_) <;> clear e) | (with_reducible refine Later.cut2 (s0 := s0) e ?_ (fun _ => ?_) <;> clear e) | (with_reducible refine Later.cut3 (s0 := s0) e ?_ (fun _ => ?_) <;> clear e) | skip)
    | fail_if_no_progress with_reducible apply Later.upd)

theorem execRouterFail_later (n r : Nat) {s : State} :
    ∃ s', (execRouterFail n r s) = .next s' ∧ Later s s' := by
  have hl := Later.refl s
  refine ⟨_, rfl, ?_⟩
  repeat' (first
    | with_reducible assumption
    | intro _
    | (extract_lets +onlyGivenNames x; clear_value (e : x = _); first | (with_reducible refine Later.cut (s0 := s) e ?_ (fun _ => ?_) <;> clear e) | clear e)
    | with_reducible apply routerFails_later
    | (split <;> rename_i e <;> first | (with_reducible refine Later.cut1 (s0 := s) e ?_ (fun _ => ?_) <;> clear e) | (with_reducible refine Later.cut2 (s0 := s) e ?_ (fun _ => ?_) <;> clear e) | (with_reducible refine Later.cut3 (s0 := s) e ?_ (fun _ => ?_) <;> clear e) | skip)
    | fail_if_no_progress with_reducible apply Later.upd)

theorem execWeightPropagate_later (p : Nat) {s : State} :
    ∃ s', (execWeightPropagate p s) = .next s' ∧ Later s s' := by
  have hl := Later.refl s
  refine ⟨_, rfl, ?_⟩
  repeat' (first
    | with_reducible assumption
    | intro _
    | with_reducible apply modMsh_later
    | with_reducible apply Later.foldl
    | split
    | fail_if_no_progress with_reducible apply Later.upd)

end Sys2Proof.Machine
end

