-- ==== Sys2Proof/Laws/LaterWakeOps.lean ====
section
/-!
SUPPORT. The operations of Machine/WakeOps.lean keep `Later`.
-/

set_option linter.unusedTactic false
set_option linter.unreachableTactic false

namespace Sys2Proof.Machine

theorem applyTiles_later {s0 : State} {s : State} (hl : Later s0 s) :
    Later s0 (applyTiles s) := by
  unfold applyTiles
  repeat' (first
    | with_reducible assumption
    | intro _
    | (extract_lets +onlyGivenNames x; clear_value (e : x = _); first | (with_reducible refine Later.cut (s0 := s0) e ?_ (fun _ => ?_) <;> clear e) | clear e)
    | with_reducible apply modGrp_later
    | with_reducible apply Later.foldl
    | (split <;> rename_i e <;> first | (with_reducible refine Later.cut1 (s0 := s0) e ?_ (fun _ => ?_) <;> clear e) | (with_reducible refine Later.cut2 (s0 := s0) e ?_ (fun _ => ?_) <;> clear e) | skip)
    | fail_if_no_progress with_reducible apply Later.upd)

theorem applyPhases_later {s0 : State} {s : State} (hl : Later s0 s) :
    Later s0 (applyPhases s) := by
  unfold applyPhases
  repeat' (first
    | with_reducible assumption
    | intro _
    | (extract_lets +onlyGivenNames x; clear_value (e : x = _); first | (with_reducible refine Later.cut (s0 := s0) e ?_ (fun _ => ?_) <;> clear e) | clear e)
    | with_reducible apply modField_later
    | with_reducible apply Later.foldl
    | split
    | fail_if_no_progress with_reducible apply Later.upd)

theorem applySeams_later {s0 : State} {s : State} (hl : Later s0 s) :
    Later s0 (applySeams s) := by
  unfold applySeams
  repeat' (first
    | with_reducible assumption
    | intro _
    | (extract_lets +onlyGivenNames x; clear_value (e : x = _); first | (with_reducible refine Later.cut (s0 := s0) e ?_ (fun _ => ?_) <;> clear e) | (with_reducible refine Later.cutF (s0 := s0) e ?_ (fun hg => ?_) <;> clear e) | (with_reducible refine Later.cutF1 (s0 := s0) e ?_ (fun hg => ?_) <;> clear e) | (with_reducible refine Later.cutF2 (s0 := s0) e ?_ (fun hg => ?_) <;> clear e) | (with_reducible refine Later.cutC (s0 := s0) e ?_ (fun hg => ?_) <;> clear e) | (with_reducible refine Later.cutFp (s0 := s0) e ?_ (fun hg => ?_) <;> clear e) | clear e)
    | with_reducible apply modSeam_later
    | with_reducible apply hg
    | with_reducible apply Later.foldl | with_reducible apply Later.foldl1 | with_reducible apply Later.foldl2
    | (split <;> rename_i e <;> first | (with_reducible refine Later.cut1 (s0 := s0) e ?_ (fun _ => ?_) <;> clear e) | (with_reducible refine Later.cut2 (s0 := s0) e ?_ (fun _ => ?_) <;> clear e) | (with_reducible refine Later.cut3 (s0 := s0) e ?_ (fun _ => ?_) <;> clear e) | skip)
    | fail_if_no_progress with_reducible apply Later.upd)

theorem applyPages_later {s0 : State} {s : State} (hl : Later s0 s) :
    Later s0 (applyPages s) := by
  unfold applyPages
  repeat' (first
    | with_reducible assumption
    | intro _
    | (extract_lets +onlyGivenNames x; clear_value (e : x = _); first | (with_reducible refine Later.cut (s0 := s0) e ?_ (fun _ => ?_) <;> clear e) | clear e)
    | with_reducible apply modStack_later | with_reducible apply retirePage_later
    | with_reducible apply Later.foldl
    | split
    | fail_if_no_progress with_reducible apply Later.upd)

theorem startClears_later {s0 : State} {s : State} (seq : Nat) (hl : Later s0 s) :
    Later s0 (startClears s seq) := by
  unfold startClears
  repeat' (first
    | with_reducible assumption
    | intro _
    | (extract_lets +onlyGivenNames x; clear_value (e : x = _); first | (with_reducible refine Later.cut (s0 := s0) e ?_ (fun _ => ?_) <;> clear e) | clear e)
    | with_reducible apply surveyPut_later
    | (split <;> rename_i e <;> first | (with_reducible refine Later.cut1 (s0 := s0) e ?_ (fun _ => ?_) <;> clear e) | (with_reducible refine Later.cut2 (s0 := s0) e ?_ (fun _ => ?_) <;> clear e) | (with_reducible refine Later.cut3 (s0 := s0) e ?_ (fun _ => ?_) <;> clear e) | skip)
    | fail_if_no_progress with_reducible apply Later.upd)

theorem takeRevokes_later {s0 : State} {s : State} (hl : Later s0 s) :
    Later s0 (takeRevokes s) := by
  unfold takeRevokes
  repeat' (first
    | with_reducible assumption
    | intro _
    | (extract_lets +onlyGivenNames x; clear_value (e : x = _); first | (with_reducible refine Later.cut (s0 := s0) e ?_ (fun _ => ?_) <;> clear e) | clear e)
    | with_reducible apply surveyPut_later
    | with_reducible apply Later.foldl
    | split
    | fail_if_no_progress with_reducible apply Later.upd)

theorem cgOn_later {s0 : State} {s : State} (g : Nat) (hl : Later s0 s) :
    Later s0 (cgOn s g) := by
  unfold cgOn
  repeat' (first
    | with_reducible assumption
    | intro _
    | (extract_lets +onlyGivenNames x; clear_value (e : x = _); first | (with_reducible refine Later.cut (s0 := s0) e ?_ (fun _ => ?_) <;> clear e) | clear e)
    | with_reducible apply modGrp_later | with_reducible apply setDom_later | with_reducible apply releaseGroup_later
    | fail_if_no_progress with_reducible apply Later.upd)

theorem cgLeave_later {s0 : State} {s : State} (g : Nat) (hl : Later s0 s) :
    Later s0 (cgLeave s g) := by
  unfold cgLeave
  repeat' (first
    | with_reducible assumption
    | intro _
    | with_reducible apply resetCore_later | with_reducible apply modGrp_later
    | with_reducible apply Later.foldl
    | fail_if_no_progress with_reducible apply Later.upd)

theorem cgOff_later {s0 : State} {s : State} (g : Nat) (hl : Later s0 s) :
    Later s0 (cgOff s g) := by
  unfold cgOff
  repeat' (first
    | with_reducible assumption
    | intro _
    | (extract_lets +onlyGivenNames x; clear_value (e : x = _); first | (with_reducible refine Later.cut (s0 := s0) e ?_ (fun _ => ?_) <;> clear e) | clear e)
    | with_reducible apply clearSp_later | with_reducible apply setDom_later | with_reducible apply reevaluate_later | with_reducible apply modGrp_later
    | with_reducible apply Later.foldl
    | fail_if_no_progress with_reducible apply Later.upd)

theorem domLeave_later {s0 : State} {s : State} (d : Nat) (x : DomSt) (hl : Later s0 s) :
    Later s0 (domLeave s d x) := by
  unfold domLeave
  repeat' (first
    | with_reducible assumption
    | intro _
    | (extract_lets +onlyGivenNames x; clear_value (e : x = _); first | (with_reducible refine Later.cut (s0 := s0) e ?_ (fun _ => ?_) <;> clear e) | clear e)
    | with_reducible apply cgOff_later | with_reducible apply reevaluate_later | with_reducible apply fieldOut_later | with_reducible apply dieLeave_later | with_reducible apply modPwr_later | with_reducible apply setDom_later
    | with_reducible apply Later.foldl | with_reducible apply Later.foldl1 | with_reducible apply Later.foldl2
    | (split <;> rename_i e <;> first | (with_reducible refine Later.cut1 (s0 := s0) e ?_ (fun _ => ?_) <;> clear e) | (with_reducible refine Later.cut2 (s0 := s0) e ?_ (fun _ => ?_) <;> clear e) | (with_reducible refine Later.cut3 (s0 := s0) e ?_ (fun _ => ?_) <;> clear e) | skip)
    | fail_if_no_progress with_reducible apply Later.upd)

theorem modAux_later {s0 : State} {s : State} (c : Nat) (f : Aux → Aux) (hl : Later s0 s) :
    Later s0 (modAux s c f) := by
  unfold modAux
  repeat' (first
    | with_reducible assumption
    | intro _
    | with_reducible apply modPwr_later
    | fail_if_no_progress with_reducible apply Later.upd)

theorem auxStart_later {s0 : State} {s : State} (c : Nat) (hl : Later s0 s) :
    Later s0 (auxStart s c) := by
  unfold auxStart
  repeat' (first
    | with_reducible assumption
    | intro _
    | with_reducible apply modAux_later
    | split
    | fail_if_no_progress with_reducible apply Later.upd)

theorem auxStop_later {s0 : State} {s : State} (c : Nat) (hl : Later s0 s) :
    Later s0 (auxStop s c) := by
  unfold auxStop
  repeat' (first
    | with_reducible assumption
    | intro _
    | with_reducible apply modAux_later
    | split
    | fail_if_no_progress with_reducible apply Later.upd)

theorem auxUpdate_later {s0 : State} {s : State} (hl : Later s0 s) :
    Later s0 (auxUpdate s) := by
  unfold auxUpdate
  repeat' (first
    | with_reducible assumption
    | intro _
    | (extract_lets +onlyGivenNames x; clear_value (e : x = _); first | (with_reducible refine Later.cut (s0 := s0) e ?_ (fun _ => ?_) <;> clear e) | clear e)
    | with_reducible apply auxStop_later | with_reducible apply auxStart_later | with_reducible apply modAux_later
    | with_reducible apply Later.foldl
    | split
    | fail_if_no_progress with_reducible apply Later.upd)

theorem axFeed_later {s0 : State} {s : State} (hl : Later s0 s) :
    Later s0 (axFeed s) := by
  unfold axFeed
  repeat' (first
    | with_reducible assumption
    | intro _
    | (extract_lets +onlyGivenNames x; clear_value (e : x = _); first | (with_reducible refine Later.cut (s0 := s0) e ?_ (fun _ => ?_) <;> clear e) | clear e)
    | with_reducible apply setDom_later | with_reducible apply auxUpdate_later
    | split)

theorem loseDie_later {s0 : State} {s : State} (hl : Later s0 s) :
    Later s0 (loseDie s) := by
  exact ⟨hl.1, hl.2, hl.3, hl.4, fun _ => rfl⟩

theorem loseRun_later {s0 : State} {s : State} (hl : Later s0 s) :
    Later s0 (loseRun s) := by
  unfold loseRun
  repeat' (first
    | with_reducible assumption
    | intro _
    | (extract_lets +onlyGivenNames x; clear_value (e : x = _); first | (with_reducible refine Later.cut (s0 := s0) e ?_ (fun _ => ?_) <;> clear e) | clear e)
    | with_reducible apply modClk_later | with_reducible apply modPwr_later | with_reducible apply modWake_later
    | (split <;> rename_i e <;> first | (with_reducible refine Later.cut1 (s0 := s0) e ?_ (fun _ => ?_) <;> clear e) | (with_reducible refine Later.cut2 (s0 := s0) e ?_ (fun _ => ?_) <;> clear e) | (with_reducible refine Later.cut3 (s0 := s0) e ?_ (fun _ => ?_) <;> clear e) | skip)
    | fail_if_no_progress with_reducible apply Later.upd)

theorem closeMailboxes_later {s0 : State} {s : State} (hl : Later s0 s) :
    Later s0 (closeMailboxes s) := by
  unfold closeMailboxes
  repeat' (first
    | with_reducible assumption
    | intro _
    | with_reducible apply closeSessions_later
    | split
    | fail_if_no_progress with_reducible apply Later.upd)

theorem stopDeck_later {s0 : State} {s : State} (hl : Later s0 s) :
    Later s0 (stopDeck s) := by
  unfold stopDeck
  repeat' (first
    | with_reducible assumption
    | intro _
    | (extract_lets +onlyGivenNames x; clear_value (e : x = _); first | (with_reducible refine Later.cut (s0 := s0) e ?_ (fun _ => ?_) <;> clear e) | clear e)
    | with_reducible apply closeMailboxes_later | with_reducible apply abortCheck_later | with_reducible apply loseRun_later | with_reducible apply loseDie_later | with_reducible apply modPwr_later | with_reducible apply leaveWaking_later | with_reducible apply axFeed_later
    | split
    | fail_if_no_progress with_reducible apply Later.upd)

theorem tearRecord_later {s0 : State} {s : State} (hl : Later s0 s) :
    Later s0 (tearRecord s) := by
  unfold tearRecord
  repeat' (first
    | with_reducible assumption
    | intro _
    | (extract_lets +onlyGivenNames x; clear_value (e : x = _); first | (with_reducible refine Later.cut (s0 := s0) e ?_ (fun _ => ?_) <;> clear e) | clear e)
    | with_reducible apply drawBool_later
    | (split <;> rename_i e <;> first | (with_reducible refine Later.cut1 (s0 := s0) e ?_ (fun _ => ?_) <;> clear e) | (with_reducible refine Later.cut2 (s0 := s0) e ?_ (fun _ => ?_) <;> clear e) | (with_reducible refine Later.cut3 (s0 := s0) e ?_ (fun _ => ?_) <;> clear e) | skip)
    | fail_if_no_progress with_reducible apply Later.upd)

theorem tearLog_later {s0 : State} {s : State} (hl : Later s0 s) :
    Later s0 (tearLog s) := by
  unfold tearLog
  repeat' (first
    | with_reducible assumption
    | intro _
    | (extract_lets +onlyGivenNames x; clear_value (e : x = _); first | (with_reducible refine Later.cut (s0 := s0) e ?_ (fun _ => ?_) <;> clear e) | clear e)
    | with_reducible apply drawBool_later
    | (split <;> rename_i e <;> first | (with_reducible refine Later.cut1 (s0 := s0) e ?_ (fun _ => ?_) <;> clear e) | (with_reducible refine Later.cut2 (s0 := s0) e ?_ (fun _ => ?_) <;> clear e) | (with_reducible refine Later.cut3 (s0 := s0) e ?_ (fun _ => ?_) <;> clear e) | skip)
    | fail_if_no_progress with_reducible apply Later.upd)

theorem goOff_later {s0 : State} {s : State} (hl : Later s0 s) :
    Later s0 (goOff s) := by
  have h := tearLog_later (tearRecord_later (tearLast_later (setDev_later .off 0 hl)))
  exact ⟨h.1, h.2, h.3, h.4, fun _ => rfl⟩

theorem vinLost_later {s0 : State} {s : State} (hl : Later s0 s) :
    Later s0 (vinLost s) := by
  unfold vinLost
  repeat' (first
    | with_reducible assumption
    | intro _
    | (extract_lets +onlyGivenNames x; clear_value (e : x = _); first | (with_reducible refine Later.cut (s0 := s0) e ?_ (fun _ => ?_) <;> clear e) | clear e)
    | with_reducible apply stopDeck_later | with_reducible apply modPwr_later | with_reducible apply axFeed_later | with_reducible apply goOff_later | with_reducible apply setDev_later
    | split
    | fail_if_no_progress with_reducible apply Later.upd)

theorem fwEvent_later {s0 : State} {s : State} (stage : Nat) (bank : Nat) (chk : Nat) (hl : Later s0 s) :
    Later s0 (fwEvent s stage bank chk) := by
  unfold fwEvent
  repeat' (first
    | with_reducible assumption
    | intro _
    | with_reducible apply raiseEvent_later | with_reducible apply modFw_later
    | fail_if_no_progress with_reducible apply Later.upd)

theorem trialRecord_later {s0 : State} {s : State} (hl : Later s0 s) :
    Later s0 (trialRecord s) := by
  unfold trialRecord
  repeat' (first
    | with_reducible assumption
    | intro _
    | (extract_lets +onlyGivenNames x; clear_value (e : x = _); first | (with_reducible refine Later.cut (s0 := s0) e ?_ (fun _ => ?_) <;> clear e) | clear e)
    | with_reducible apply fwEvent_later | with_reducible apply modFw_later
    | split
    | fail_if_no_progress with_reducible apply Later.upd)

theorem trialBegin_later {s0 : State} {s : State} (b : Nat) (kind : Nat) (hl : Later s0 s) :
    Later s0 (trialBegin s b kind) := by
  unfold trialBegin
  repeat' (first
    | with_reducible assumption
    | intro _
    | with_reducible apply fwEvent_later | with_reducible apply modFw_later
    | fail_if_no_progress with_reducible apply Later.upd)

theorem pendCold_later {s0 : State} {s : State} (hl : Later s0 s) :
    Later s0 (pendCold s) := by
  unfold pendCold
  repeat' (first
    | with_reducible assumption
    | intro _
    | with_reducible apply trialBegin_later
    | split
    | fail_if_no_progress with_reducible apply Later.upd)

theorem bankRuns_later {s0 : State} {s : State} (b : Nat) (kind : Nat) (hl : Later s0 s) :
    Later s0 (bankRuns s b kind) := by
  unfold bankRuns
  repeat' (first
    | with_reducible assumption
    | intro _
    | (extract_lets +onlyGivenNames x; clear_value (e : x = _); first | (with_reducible refine Later.cut (s0 := s0) e ?_ (fun _ => ?_) <;> clear e) | clear e)
    | with_reducible apply modFw_later | with_reducible apply trialBegin_later
    | split
    | fail_if_no_progress with_reducible apply Later.upd)

theorem confirmBegin_later {s0 : State} {s : State} (hl : Later s0 s) :
    Later s0 (confirmBegin s) := by
  unfold confirmBegin
  repeat' (first
    | with_reducible assumption
    | intro _
    | (extract_lets +onlyGivenNames x; clear_value (e : x = _); first | (with_reducible refine Later.cut (s0 := s0) e ?_ (fun _ => ?_) <;> clear e) | clear e)
    | with_reducible apply modFw_later
    | (split <;> rename_i e <;> first | (with_reducible refine Later.cut1 (s0 := s0) e ?_ (fun _ => ?_) <;> clear e) | (with_reducible refine Later.cut2 (s0 := s0) e ?_ (fun _ => ?_) <;> clear e) | (with_reducible refine Later.cut3 (s0 := s0) e ?_ (fun _ => ?_) <;> clear e) | skip)
    | fail_if_no_progress with_reducible apply Later.upd)

theorem confirmRest_later {s0 : State} {s : State} (hl : Later s0 s) :
    Later s0 (confirmRest s) := by
  unfold confirmRest
  repeat' (first
    | with_reducible assumption
    | intro _
    | (extract_lets +onlyGivenNames x; clear_value (e : x = _); first | (with_reducible refine Later.cut (s0 := s0) e ?_ (fun _ => ?_) <;> clear e) | clear e)
    | with_reducible apply modFw_later | with_reducible apply fwEvent_later
    | (split <;> rename_i e <;> first | (with_reducible refine Later.cut1 (s0 := s0) e ?_ (fun _ => ?_) <;> clear e) | (with_reducible refine Later.cut2 (s0 := s0) e ?_ (fun _ => ?_) <;> clear e) | (with_reducible refine Later.cut3 (s0 := s0) e ?_ (fun _ => ?_) <;> clear e) | skip)
    | fail_if_no_progress with_reducible apply Later.upd)

theorem confirmTrial_later {s0 : State} {s : State} (hl : Later s0 s) :
    Later s0 (confirmTrial s) := by
  unfold confirmTrial
  repeat' (first
    | with_reducible assumption
    | intro _
    | (extract_lets +onlyGivenNames x; clear_value (e : x = _); first | (with_reducible refine Later.cut (s0 := s0) e ?_ (fun _ => ?_) <;> clear e) | clear e)
    | with_reducible apply confirmRest_later | with_reducible apply confirmBegin_later
    | (split <;> rename_i e <;> first | (with_reducible refine Later.cut1 (s0 := s0) e ?_ (fun _ => ?_) <;> clear e) | (with_reducible refine Later.cut2 (s0 := s0) e ?_ (fun _ => ?_) <;> clear e) | (with_reducible refine Later.cut3 (s0 := s0) e ?_ (fun _ => ?_) <;> clear e) | skip)
    | fail_if_no_progress with_reducible apply Later.upd)

theorem mgmtRestart_later {s0 : State} {s : State} (hl : Later s0 s) :
    Later s0 (mgmtRestart s) := by
  unfold mgmtRestart
  repeat' (first
    | with_reducible assumption
    | intro _
    | (extract_lets +onlyGivenNames x; clear_value (e : x = _); first | (with_reducible refine Later.cut (s0 := s0) e ?_ (fun _ => ?_) <;> clear e) | clear e)
    | with_reducible apply closeSessions_later | with_reducible apply modMgmt_later | with_reducible apply modFw_later | with_reducible apply modWake_later | with_reducible apply modField_later | with_reducible apply requestChange_later
    | with_reducible apply Later.foldl | with_reducible apply Later.foldl1 | with_reducible apply Later.foldl2
    | (split <;> rename_i e <;> first | (with_reducible refine Later.cut1 (s0 := s0) e ?_ (fun _ => ?_) <;> clear e) | (with_reducible refine Later.cut2 (s0 := s0) e ?_ (fun _ => ?_) <;> clear e) | (with_reducible refine Later.cut3 (s0 := s0) e ?_ (fun _ => ?_) <;> clear e) | skip)
    | fail_if_no_progress with_reducible apply Later.upd)

theorem coldRun_later {s0 : State} {s : State} (hl : Later s0 s) :
    Later s0 (coldRun s) := by
  unfold coldRun
  repeat' (first
    | with_reducible assumption
    | intro _
    | (extract_lets +onlyGivenNames x; clear_value (e : x = _); first | (with_reducible refine Later.cut (s0 := s0) e ?_ (fun _ => ?_) <;> clear e) | clear e)
    | with_reducible apply pendCold_later | with_reducible apply closeSessions_later | with_reducible apply abortCheck_later | with_reducible apply loseRun_later | with_reducible apply countersDefault_later | with_reducible apply loseDie_later | with_reducible apply modPwr_later | with_reducible apply modPart_later | with_reducible apply modClk_later | with_reducible apply modMgmt_later | with_reducible apply confirmRest_later | with_reducible apply modFw_later | with_reducible apply modWake_later | with_reducible apply setDev_later
    | with_reducible apply Later.foldl | with_reducible apply Later.foldl1 | with_reducible apply Later.foldl2
    | (split <;> rename_i e <;> first | (with_reducible refine Later.cut1 (s0 := s0) e ?_ (fun _ => ?_) <;> clear e) | (with_reducible refine Later.cut2 (s0 := s0) e ?_ (fun _ => ?_) <;> clear e) | (with_reducible refine Later.cut3 (s0 := s0) e ?_ (fun _ => ?_) <;> clear e) | skip)
    | fail_if_no_progress with_reducible apply Later.upd)

theorem coldStart_later {s0 : State} {s : State} (released : Bool) (hl : Later s0 s) :
    Later s0 (coldStart s released) := by
  unfold coldStart
  repeat' (first
    | with_reducible assumption
    | intro _
    | with_reducible apply coldRun_later | with_reducible apply trialRecord_later
    | split)

theorem switchDue_later {s0 : State} {s : State} (hl : Later s0 s) :
    Later s0 (switchDue s) := by
  unfold switchDue
  repeat' (first
    | with_reducible assumption
    | intro _
    | with_reducible apply confirmedOff_later | with_reducible apply raiseErr_later | with_reducible apply domLeave_later | with_reducible apply modPwr_later
    | with_reducible apply Later.foldl
    | split
    | fail_if_no_progress with_reducible apply Later.upd)

theorem warmRun_later {s0 : State} {s : State} (hl : Later s0 s) :
    Later s0 (warmRun s) := by
  unfold warmRun
  repeat' (first
    | with_reducible assumption
    | intro _
    | (extract_lets +onlyGivenNames x; clear_value (e : x = _); first | (with_reducible refine Later.cut (s0 := s0) e ?_ (fun _ => ?_) <;> clear e) | clear e)
    | with_reducible apply abortCheck_later | with_reducible apply endLaunches_later | with_reducible apply resetAllCores_later | with_reducible apply modGrp_later | with_reducible apply modField_later | with_reducible apply switchDue_later | with_reducible apply modStack_later | with_reducible apply retireCands_later | with_reducible apply setDev_later | with_reducible apply setDeviceCause_later | with_reducible apply modWake_later
    | with_reducible apply Later.foldl | with_reducible apply Later.foldl1 | with_reducible apply Later.foldl2
    | (split <;> rename_i e <;> first | (with_reducible refine Later.cut1 (s0 := s0) e ?_ (fun _ => ?_) <;> clear e) | (with_reducible refine Later.cut2 (s0 := s0) e ?_ (fun _ => ?_) <;> clear e) | (with_reducible refine Later.cut3 (s0 := s0) e ?_ (fun _ => ?_) <;> clear e) | skip)
    | fail_if_no_progress with_reducible apply Later.upd)

theorem warmStart_later {s0 : State} {s : State} (hl : Later s0 s) :
    Later s0 (warmStart s) := by
  unfold warmStart
  repeat' (first
    | with_reducible assumption
    | intro _
    | with_reducible apply coldStart_later | with_reducible apply warmRun_later
    | split)

theorem restartKind_later {s0 : State} {s : State} (kind : Nat) (hl : Later s0 s) :
    Later s0 (restartKind s kind) := by
  unfold restartKind
  repeat' (first
    | with_reducible assumption
    | intro _
    | with_reducible apply mgmtRestart_later | with_reducible apply warmRun_later | with_reducible apply coldRun_later
    | split
    | fail_if_no_progress with_reducible apply Later.upd)

theorem trialUnconfirmed_later {s0 : State} {s : State} (hl : Later s0 s) :
    Later s0 (trialUnconfirmed s) := by
  unfold trialUnconfirmed
  repeat' (first
    | with_reducible assumption
    | intro _
    | with_reducible apply restartKind_later | with_reducible apply trialRecord_later
    | split)

theorem recordStart_later {s0 : State} {s : State} (failed : Bool) (stage : Nat) (hl : Later s0 s) :
    Later s0 (recordStart s failed stage) := by
  unfold recordStart
  repeat' (first
    | with_reducible assumption
    | intro _
    | with_reducible apply modWake_later
    | split
    | fail_if_no_progress with_reducible apply Later.upd)

theorem enterHeld_later {s0 : State} {s : State} (hl : Later s0 s) :
    Later s0 (enterHeld s) := by
  unfold enterHeld
  repeat' (first
    | with_reducible assumption
    | intro _
    | (extract_lets +onlyGivenNames x; clear_value (e : x = _); first | (with_reducible refine Later.cut (s0 := s0) e ?_ (fun _ => ?_) <;> clear e) | clear e)
    | with_reducible apply stopDeck_later | with_reducible apply axFeed_later | with_reducible apply modPwr_later | with_reducible apply setDev_later
    | fail_if_no_progress with_reducible apply Later.upd)

theorem startFail_later {s0 : State} {s : State} (stage : Nat) (hl : Later s0 s) :
    Later s0 (startFail s stage) := by
  unfold startFail
  repeat' (first
    | with_reducible assumption
    | intro _
    | (extract_lets +onlyGivenNames x; clear_value (e : x = _); first | (with_reducible refine Later.cut (s0 := s0) e ?_ (fun _ => ?_) <;> clear e) | clear e)
    | with_reducible apply recordStart_later | with_reducible apply trialRecord_later | with_reducible apply coldRun_later | with_reducible apply modWake_later | with_reducible apply enterHeld_later | with_reducible apply leaveWaking_later | with_reducible apply setDeviceCause_later | with_reducible apply setDev_later
    | split
    | fail_if_no_progress with_reducible apply Later.upd)

theorem stageDeck_later {s0 : State} {s : State} (hl : Later s0 s) :
    Later s0 (stageDeck s) := by
  unfold stageDeck
  repeat' (first
    | with_reducible assumption
    | intro _
    | with_reducible apply setDom_later
    | with_reducible apply Later.foldl
    | split)

theorem factoryReset_later {s0 : State} {s : State} (hl : Later s0 s) :
    Later s0 (factoryReset s) := by
  unfold factoryReset
  repeat' (first
    | with_reducible assumption
    | intro _
    | with_reducible apply modMgmt_later
    | split
    | fail_if_no_progress with_reducible apply Later.upd)

theorem stageCarafe_later {s0 : State} {s : State} (hl : Later s0 s) :
    Later s0 (stageCarafe s) := by
  unfold stageCarafe
  repeat' (first
    | with_reducible assumption
    | intro _
    | (extract_lets +onlyGivenNames x; clear_value (e : x = _); first | (with_reducible refine Later.cut (s0 := s0) e ?_ (fun _ => ?_) <;> clear e) | clear e)
    | with_reducible apply takeRevokes_later | with_reducible apply readSurvey_later | with_reducible apply factoryReset_later | with_reducible apply modPwr_later | with_reducible apply applyPages_later | with_reducible apply applySeams_later | with_reducible apply applyPhases_later | with_reducible apply placeFieldPorts_later | with_reducible apply applyTiles_later
    | (split <;> rename_i e <;> first | (with_reducible refine Later.cut1 (s0 := s0) e ?_ (fun _ => ?_) <;> clear e) | (with_reducible refine Later.cut2 (s0 := s0) e ?_ (fun _ => ?_) <;> clear e) | (with_reducible refine Later.cut3 (s0 := s0) e ?_ (fun _ => ?_) <;> clear e) | skip)
    | fail_if_no_progress with_reducible apply Later.upd)

theorem portConfig_later {s0 : State} {s : State} (p : Nat) (hl : Later s0 s) :
    Later s0 (portConfig s p) := by
  unfold portConfig
  repeat' (first
    | with_reducible assumption
    | intro _
    | (extract_lets +onlyGivenNames x; clear_value (e : x = _); first | (with_reducible refine Later.cut (s0 := s0) e ?_ (fun _ => ?_) <;> clear e) | clear e)
    | with_reducible apply modPort_later
    | fail_if_no_progress with_reducible apply Later.upd)

theorem fnFails_later {s0 : State} {s : State} (n : Nat) (hl : Later s0 s) :
    Later s0 (fnFails s n) := by
  unfold fnFails
  repeat' (first
    | with_reducible assumption
    | intro _
    | (extract_lets +onlyGivenNames x; clear_value (e : x = _); first | (with_reducible refine Later.cut (s0 := s0) e ?_ (fun _ => ?_) <;> clear e) | clear e)
    | with_reducible apply setDom_later | with_reducible apply startFinds_later | with_reducible apply raiseErr_later | with_reducible apply modGrp_later
    | with_reducible apply Later.foldl | with_reducible apply Later.foldl1 | with_reducible apply Later.foldl2
    | (split <;> rename_i e <;> first | (with_reducible refine Later.cut1 (s0 := s0) e ?_ (fun _ => ?_) <;> clear e) | (with_reducible refine Later.cut2 (s0 := s0) e ?_ (fun _ => ?_) <;> clear e) | (with_reducible refine Later.cut3 (s0 := s0) e ?_ (fun _ => ?_) <;> clear e) | skip)
    | fail_if_no_progress with_reducible apply Later.upd)

theorem stageFields_later {s0 : State} {s : State} (bad : List Nat) (hl : Later s0 s) :
    Later s0 (stageFields s bad) := by
  unfold stageFields
  repeat' (first
    | with_reducible assumption
    | intro _
    | (extract_lets +onlyGivenNames x; clear_value (e : x = _); first | (with_reducible refine Later.cut (s0 := s0) e ?_ (fun _ => ?_) <;> clear e) | clear e)
    | with_reducible apply fnFails_later | with_reducible apply modField_later | with_reducible apply setDom_later | with_reducible apply modLinks_later | with_reducible apply dieLeave_later | with_reducible apply startTraining_later | with_reducible apply portConfig_later
    | with_reducible apply Later.foldl | with_reducible apply Later.foldl1 | with_reducible apply Later.foldl2
    | (split <;> rename_i e <;> first | (with_reducible refine Later.cut1 (s0 := s0) e ?_ (fun _ => ?_) <;> clear e) | (with_reducible refine Later.cut2 (s0 := s0) e ?_ (fun _ => ?_) <;> clear e) | (with_reducible refine Later.cut3 (s0 := s0) e ?_ (fun _ => ?_) <;> clear e) | skip)
    | fail_if_no_progress with_reducible apply Later.upd)

theorem applyAllBanks_later {s0 : State} {s : State} (hl : Later s0 s) :
    Later s0 (applyAllBanks s) := by
  unfold applyAllBanks
  repeat' (first
    | with_reducible assumption
    | intro _
    | (extract_lets +onlyGivenNames x; clear_value (e : x = _); first | (with_reducible refine Later.cut (s0 := s0) e ?_ (fun _ => ?_) <;> clear e) | clear e)
    | with_reducible apply applyBanks_later
    | with_reducible apply Later.foldl | with_reducible apply Later.foldl1 | with_reducible apply Later.foldl2
    | (split <;> rename_i e <;> first | (with_reducible refine Later.cut1 (s0 := s0) e ?_ (fun _ => ?_) <;> clear e) | (with_reducible refine Later.cut2 (s0 := s0) e ?_ (fun _ => ?_) <;> clear e) | (with_reducible refine Later.cut3 (s0 := s0) e ?_ (fun _ => ?_) <;> clear e) | skip)
    | fail_if_no_progress with_reducible apply Later.upd)

theorem stageGroups_later {s0 : State} {s : State} (hl : Later s0 s) :
    Later s0 (stageGroups s) := by
  unfold stageGroups
  repeat' (first
    | with_reducible assumption
    | intro _
    | (extract_lets +onlyGivenNames x; clear_value (e : x = _); first | (with_reducible refine Later.cut (s0 := s0) e ?_ (fun _ => ?_) <;> clear e) | clear e)
    | with_reducible apply modField_later | with_reducible apply modGrp_later | with_reducible apply setDom_later | with_reducible apply applyAllBanks_later
    | with_reducible apply Later.foldl | with_reducible apply Later.foldl1 | with_reducible apply Later.foldl2
    | (split <;> rename_i e <;> first | (with_reducible refine Later.cut1 (s0 := s0) e ?_ (fun _ => ?_) <;> clear e) | (with_reducible refine Later.cut2 (s0 := s0) e ?_ (fun _ => ?_) <;> clear e) | (with_reducible refine Later.cut3 (s0 := s0) e ?_ (fun _ => ?_) <;> clear e) | skip)
    | fail_if_no_progress with_reducible apply Later.upd)

theorem warmGroups_later {s0 : State} {s : State} (hl : Later s0 s) :
    Later s0 (warmGroups s) := by
  unfold warmGroups
  repeat' (first
    | with_reducible assumption
    | intro _
    | (extract_lets +onlyGivenNames x; clear_value (e : x = _); first | (with_reducible refine Later.cut (s0 := s0) e ?_ (fun _ => ?_) <;> clear e) | clear e)
    | with_reducible apply modGrp_later | with_reducible apply setDom_later | with_reducible apply modPwr_later
    | with_reducible apply Later.foldl | with_reducible apply Later.foldl1 | with_reducible apply Later.foldl2
    | (split <;> rename_i e <;> first | (with_reducible refine Later.cut1 (s0 := s0) e ?_ (fun _ => ?_) <;> clear e) | (with_reducible refine Later.cut2 (s0 := s0) e ?_ (fun _ => ?_) <;> clear e) | (with_reducible refine Later.cut3 (s0 := s0) e ?_ (fun _ => ?_) <;> clear e) | skip)
    | fail_if_no_progress with_reducible apply Later.upd)

theorem trainStack_later {s0 : State} {s : State} (st : Nat) (warm : Bool) (hl : Later s0 s) :
    Later s0 (trainStack s st warm) := by
  unfold trainStack
  repeat' (first
    | with_reducible assumption
    | intro _
    | (extract_lets +onlyGivenNames x; clear_value (e : x = _); first | (with_reducible refine Later.cut (s0 := s0) e ?_ (fun _ => ?_) <;> clear e) | clear e)
    | with_reducible apply drawBool_later | with_reducible apply drawNat_later | with_reducible apply modStack_later | with_reducible apply modMgmt_later
    | (split <;> rename_i e <;> first | (with_reducible refine Later.cut1 (s0 := s0) e ?_ (fun _ => ?_) <;> clear e) | (with_reducible refine Later.cut2 (s0 := s0) e ?_ (fun _ => ?_) <;> clear e) | (with_reducible refine Later.cut3 (s0 := s0) e ?_ (fun _ => ?_) <;> clear e) | skip)
    | fail_if_no_progress with_reducible apply Later.upd)

theorem stageMemory_later {s0 : State} {s : State} (warm : Bool) (hl : Later s0 s) :
    Later s0 (stageMemory s warm) := by
  unfold stageMemory
  repeat' (first
    | with_reducible assumption
    | intro _
    | (extract_lets +onlyGivenNames x; clear_value (e : x = _); first | (with_reducible refine Later.cut (s0 := s0) e ?_ (fun _ => ?_) <;> clear e) | clear e)
    | with_reducible apply modStack_later | with_reducible apply setDom_later | with_reducible apply trainStack_later
    | with_reducible apply Later.foldl | with_reducible apply Later.foldl1 | with_reducible apply Later.foldl2
    | (split <;> rename_i e <;> first | (with_reducible refine Later.cut1 (s0 := s0) e ?_ (fun _ => ?_) <;> clear e) | (with_reducible refine Later.cut2 (s0 := s0) e ?_ (fun _ => ?_) <;> clear e) | (with_reducible refine Later.cut3 (s0 := s0) e ?_ (fun _ => ?_) <;> clear e) | skip)
    | fail_if_no_progress with_reducible apply Later.upd)

theorem applyAllocs_later {s0 : State} {s : State} (hl : Later s0 s) :
    Later s0 (applyAllocs s) := by
  unfold applyAllocs
  repeat' (first
    | with_reducible assumption
    | intro _
    | (extract_lets +onlyGivenNames x; clear_value (e : x = _); first | (with_reducible refine Later.cut (s0 := s0) e ?_ (fun _ => ?_) <;> clear e) | clear e)
    | with_reducible apply zeroUnit_later | with_reducible apply modGrp_later
    | with_reducible apply Later.foldl | with_reducible apply Later.foldl1 | with_reducible apply Later.foldl2
    | (split <;> rename_i e <;> first | (with_reducible refine Later.cut1 (s0 := s0) e ?_ (fun _ => ?_) <;> clear e) | (with_reducible refine Later.cut2 (s0 := s0) e ?_ (fun _ => ?_) <;> clear e) | (with_reducible refine Later.cut3 (s0 := s0) e ?_ (fun _ => ?_) <;> clear e) | skip)
    | fail_if_no_progress with_reducible apply Later.upd)

theorem followHalt_later {s0 : State} {s : State} (p : Nat) (hl : Later s0 s) :
    Later s0 (followHalt s p) := by
  unfold followHalt
  repeat' (first
    | with_reducible assumption
    | intro _
    | with_reducible apply modPart_later
    | fail_if_no_progress with_reducible apply Later.upd)

theorem releaseAll_later {s0 : State} {s : State} (hl : Later s0 s) :
    Later s0 (releaseAll s) := by
  unfold releaseAll
  repeat' (first
    | with_reducible assumption
    | intro _
    | (extract_lets +onlyGivenNames x; clear_value (e : x = _); first | (with_reducible refine Later.cut (s0 := s0) e ?_ (fun _ => ?_) <;> clear e) | clear e)
    | with_reducible apply releaseGroup_later
    | with_reducible apply Later.foldl
    | split
    | fail_if_no_progress with_reducible apply Later.upd)

theorem stageSettle_later {s0 : State} {s : State} (warm : Bool) (hl : Later s0 s) :
    Later s0 (stageSettle s warm) := by
  unfold stageSettle
  repeat' (first
    | with_reducible assumption
    | intro _
    | (extract_lets +onlyGivenNames x; clear_value (e : x = _); first | (with_reducible refine Later.cut (s0 := s0) e ?_ (fun _ => ?_) <;> clear e) | clear e)
    | with_reducible apply applyAllocs_later | with_reducible apply modMsh_later | with_reducible apply followHalt_later | with_reducible apply releaseAll_later | with_reducible apply recordStart_later | with_reducible apply modWake_later | with_reducible apply setDeviceCause_later | with_reducible apply setDev_later | with_reducible apply leaveWaking_later | with_reducible apply endAsync_later | with_reducible apply startFail_later
    | with_reducible apply Later.foldl
    | split
    | fail_if_no_progress with_reducible apply Later.upd)

theorem bankFinds_later {s0 : State} {s : State} (d : Defect) (hl : Later s0 s) :
    Later s0 (bankFinds s d) := by
  unfold bankFinds
  repeat' (first
    | with_reducible assumption
    | intro _
    | (extract_lets +onlyGivenNames x; clear_value (e : x = _); first | (with_reducible refine Later.cut (s0 := s0) e ?_ (fun _ => ?_) <;> clear e) | clear e)
    | with_reducible apply bankSpares_later | with_reducible apply startFinds_later
    | (split <;> rename_i e <;> first | (with_reducible refine Later.cut1 (s0 := s0) e ?_ (fun _ => ?_) <;> clear e) | (with_reducible refine Later.cut2 (s0 := s0) e ?_ (fun _ => ?_) <;> clear e) | (with_reducible refine Later.cut3 (s0 := s0) e ?_ (fun _ => ?_) <;> clear e) | skip)
    | fail_if_no_progress with_reducible apply Later.upd)

theorem stageFinds_later {s0 : State} {s : State} (o : StageOutcome) (hl : Later s0 s) :
    Later s0 (stageFinds s o) := by
  unfold stageFinds
  repeat' (first
    | with_reducible assumption
    | intro _
    | (extract_lets +onlyGivenNames x; clear_value (e : x = _); first | (with_reducible refine Later.cut (s0 := s0) e ?_ (fun _ => ?_) <;> clear e) | clear e)
    | with_reducible apply startClears_later | with_reducible apply startFinds_later | with_reducible apply bankFinds_later | with_reducible apply applyPages_later | with_reducible apply applySeams_later | with_reducible apply placeFieldPorts_later | with_reducible apply applyTiles_later
    | with_reducible apply Later.foldl | with_reducible apply Later.foldl1 | with_reducible apply Later.foldl2
    | (split <;> rename_i e <;> first | (with_reducible refine Later.cut1 (s0 := s0) e ?_ (fun _ => ?_) <;> clear e) | (with_reducible refine Later.cut2 (s0 := s0) e ?_ (fun _ => ?_) <;> clear e) | (with_reducible refine Later.cut3 (s0 := s0) e ?_ (fun _ => ?_) <;> clear e) | skip)
    | fail_if_no_progress with_reducible apply Later.upd)

theorem toStage_later {s0 : State} {s : State} (n : Nat) (hl : Later s0 s) :
    Later s0 (toStage s n) := by
  unfold toStage
  repeat' (first
    | with_reducible assumption
    | intro _
    | fail_if_no_progress with_reducible apply Later.upd)

theorem otherBank_later {s0 : State} {s : State} (b : Nat) {go : State → State} (hgo : ∀ t, Later s0 t → Later s0 (go t))
    (hl : Later s0 s) :
    Later s0 (otherBank s b go) := by
  unfold otherBank
  repeat' (first
    | with_reducible assumption
    | with_reducible apply hgo
    | intro _
    | (extract_lets +onlyGivenNames x; clear_value (e : x = _); first | (with_reducible refine Later.cut (s0 := s0) e ?_ (fun _ => ?_) <;> clear e) | clear e)
    | with_reducible apply trialRecord_later | with_reducible apply coldRun_later
    | (split <;> rename_i e <;> first | (with_reducible refine Later.cut1 (s0 := s0) e ?_ (fun _ => ?_) <;> clear e) | (with_reducible refine Later.cut2 (s0 := s0) e ?_ (fun _ => ?_) <;> clear e) | (with_reducible refine Later.cut3 (s0 := s0) e ?_ (fun _ => ?_) <;> clear e) | skip)
    | fail_if_no_progress with_reducible apply Later.upd)

theorem coldStageEnd_later {s0 : State} {s : State} (n : Nat) (o : StageOutcome) (hl : Later s0 s) :
    Later s0 (coldStageEnd s n o) := by
  unfold coldStageEnd
  repeat' (first
    | with_reducible assumption
    | intro _
    | (extract_lets +onlyGivenNames x; clear_value (e : x = _); first | (with_reducible refine Later.cut (s0 := s0) e ?_ (fun _ => ?_) <;> clear e) | (with_reducible refine Later.cutF (s0 := s0) e ?_ (fun hg => ?_) <;> clear e) | (with_reducible refine Later.cutF1 (s0 := s0) e ?_ (fun hg => ?_) <;> clear e) | (with_reducible refine Later.cutF2 (s0 := s0) e ?_ (fun hg => ?_) <;> clear e) | (with_reducible refine Later.cutC (s0 := s0) e ?_ (fun hg => ?_) <;> clear e) | (with_reducible refine Later.cutFp (s0 := s0) e ?_ (fun hg => ?_) <;> clear e) | clear e)
    | with_reducible apply otherBank_later | with_reducible apply toStage_later | with_reducible apply modFw_later | with_reducible apply startFail_later | with_reducible apply axFeed_later | with_reducible apply stageDeck_later | with_reducible apply stageCarafe_later | with_reducible apply bankRuns_later | with_reducible apply stageFields_later | with_reducible apply installOverlays_later | with_reducible apply stageFinds_later | with_reducible apply stageGroups_later | with_reducible apply stageMemory_later | with_reducible apply stageSettle_later
    | with_reducible apply hg
    | (split <;> rename_i e <;> first | (with_reducible refine Later.cut1 (s0 := s0) e ?_ (fun _ => ?_) <;> clear e) | (with_reducible refine Later.cut2 (s0 := s0) e ?_ (fun _ => ?_) <;> clear e) | (with_reducible refine Later.cut3 (s0 := s0) e ?_ (fun _ => ?_) <;> clear e) | skip)
    | fail_if_no_progress with_reducible apply Later.upd)

theorem warmStageEnd_later {s0 : State} {s : State} (n : Nat) (hl : Later s0 s) :
    Later s0 (warmStageEnd s n) := by
  unfold warmStageEnd
  repeat' (first
    | with_reducible assumption
    | intro _
    | (extract_lets +onlyGivenNames x; clear_value (e : x = _); first | (with_reducible refine Later.cut (s0 := s0) e ?_ (fun _ => ?_) <;> clear e) | clear e)
    | with_reducible apply toStage_later | with_reducible apply applyPhases_later | with_reducible apply placeFieldPorts_later | with_reducible apply applyTiles_later | with_reducible apply readSurvey_later | with_reducible apply installOverlays_later | with_reducible apply applySeams_later | with_reducible apply warmGroups_later | with_reducible apply stageMemory_later | with_reducible apply stageSettle_later
    | (split <;> rename_i e <;> first | (with_reducible refine Later.cut1 (s0 := s0) e ?_ (fun _ => ?_) <;> clear e) | (with_reducible refine Later.cut2 (s0 := s0) e ?_ (fun _ => ?_) <;> clear e) | (with_reducible refine Later.cut3 (s0 := s0) e ?_ (fun _ => ?_) <;> clear e) | skip)
    | fail_if_no_progress with_reducible apply Later.upd)

end Sys2Proof.Machine
end

