-- ==== Sys2Proof/Laws/LaterPwrOps.lean ====
section
/-!
SUPPORT. The operations of Machine/PwrOps.lean keep `Later`.
-/

set_option linter.unusedTactic false
set_option linter.unreachableTactic false

namespace Sys2Proof.Machine

theorem throttleEvent_later {s0 : State} {s : State} (hl : Later s0 s) :
    Later s0 (throttleEvent s) := by
  unfold throttleEvent
  repeat' (first | with_reducible assumption | with_reducible apply raiseEvent_later | intro _)

theorem stageStops_later {s0 : State} {s : State} (n : Nat) (x : DomSt) (hl : Later s0 s) :
    Later s0 (stageStops s n x) := by
  unfold stageStops
  repeat' (first
    | with_reducible assumption
    | intro _
    | (extract_lets +onlyGivenNames x; clear_value (e : x = _); first | (with_reducible refine Later.cut (s0 := s0) e ?_ (fun _ => ?_) <;> clear e) | clear e)
    | with_reducible apply modField_later | with_reducible apply setDom_later | with_reducible apply raiseErr_later | with_reducible apply surveyAppend_later | with_reducible apply loseGroup_later
    | with_reducible apply Later.foldl
    | split
    | fail_if_no_progress with_reducible apply Later.upd)

theorem phaseStops_later {s0 : State} {s : State} (n : Nat) (i : Nat) (hl : Later s0 s) :
    Later s0 (phaseStops s n i) := by
  unfold phaseStops
  repeat' (first
    | with_reducible assumption
    | intro _
    | (extract_lets +onlyGivenNames x; clear_value (e : x = _); first | (with_reducible refine Later.cut (s0 := s0) e ?_ (fun _ => ?_) <;> clear e) | clear e)
    | with_reducible apply modField_later | with_reducible apply surveyAppend_later | with_reducible apply reevaluate_later | with_reducible apply stageStops_later
    | split
    | fail_if_no_progress with_reducible apply Later.upd)

theorem jointConfirm_later {s0 : State} {s : State} (u : JointUnit) (hl : Later s0 s) :
    Later s0 (jointConfirm s u) := by
  unfold jointConfirm
  repeat' (first
    | with_reducible assumption
    | intro _
    | (extract_lets +onlyGivenNames x; clear_value (e : x = _); first | (with_reducible refine Later.cut (s0 := s0) e ?_ (fun _ => ?_) <;> clear e) | clear e)
    | with_reducible apply modPwr_later | with_reducible apply raiseErr_later | with_reducible apply phaseStops_later | with_reducible apply surveyAppend_later | with_reducible apply confirmedOff_later
    | split
    | fail_if_no_progress with_reducible apply Later.upd)

theorem schedule_later {s0 : State} {s : State} (hl : Later s0 s) :
    Later s0 (schedule s) := by
  unfold schedule
  repeat' (first | with_reducible assumption | with_reducible apply requestChange_later | intro _)

theorem retarget_later {s0 : State} {s : State} (p : Nat → Bool) (f : Nat → Nat) (hl : Later s0 s) :
    Later s0 (retarget s p f) := by
  unfold retarget
  repeat' (first
    | with_reducible assumption
    | intro _
    | with_reducible apply modField_later
    | with_reducible apply Later.foldl
    | split
    | fail_if_no_progress with_reducible apply Later.upd)

theorem brakeOn_later {s0 : State} {s : State} (hl : Later s0 s) :
    Later s0 (brakeOn s) := by
  unfold brakeOn
  repeat' (first
    | with_reducible assumption
    | intro _
    | (extract_lets +onlyGivenNames x; clear_value (e : x = _); first | (with_reducible refine Later.cut (s0 := s0) e ?_ (fun _ => ?_) <;> clear e) | clear e)
    | with_reducible apply cancelChange_later | with_reducible apply modClk_later | with_reducible apply modField_later | with_reducible apply armChange_later | with_reducible apply modStack_later | with_reducible apply throttleEvent_later | with_reducible apply countThrottle_later | with_reducible apply modPwr_later
    | with_reducible apply Later.foldl | with_reducible apply Later.foldl1 | with_reducible apply Later.foldl2
    | (split <;> rename_i e <;> first | (with_reducible refine Later.cut1 (s0 := s0) e ?_ (fun _ => ?_) <;> clear e) | (with_reducible refine Later.cut2 (s0 := s0) e ?_ (fun _ => ?_) <;> clear e) | (with_reducible refine Later.cut3 (s0 := s0) e ?_ (fun _ => ?_) <;> clear e) | skip)
    | fail_if_no_progress with_reducible apply Later.upd)

theorem decafBrakeOn_later {s0 : State} {s : State} (hl : Later s0 s) :
    Later s0 (decafBrakeOn s) := by
  unfold decafBrakeOn
  repeat' (first
    | with_reducible assumption
    | intro _
    | (extract_lets +onlyGivenNames x; clear_value (e : x = _); first | (with_reducible refine Later.cut (s0 := s0) e ?_ (fun _ => ?_) <;> clear e) | clear e)
    | with_reducible apply schedule_later | with_reducible apply retarget_later | with_reducible apply throttleEvent_later | with_reducible apply countThrottle_later | with_reducible apply modPwr_later
    | fail_if_no_progress with_reducible apply Later.upd)

theorem checkBrakes_later {s0 : State} {s : State} (hl : Later s0 s) :
    Later s0 (checkBrakes s) := by
  unfold checkBrakes
  repeat' (first
    | with_reducible assumption
    | intro _
    | (extract_lets +onlyGivenNames x; clear_value (e : x = _); first | (with_reducible refine Later.cut (s0 := s0) e ?_ (fun _ => ?_) <;> clear e) | clear e)
    | with_reducible apply brakeOn_later | with_reducible apply decafBrakeOn_later
    | split)

theorem thermalCaps_later {s0 : State} {s : State} (hl : Later s0 s) :
    Later s0 (thermalCaps s) := by
  unfold thermalCaps
  repeat' (first
    | with_reducible assumption
    | intro _
    | (extract_lets +onlyGivenNames x; clear_value (e : x = _); first | (with_reducible refine Later.cut (s0 := s0) e ?_ (fun _ => ?_) <;> clear e) | clear e)
    | with_reducible apply throttleEvent_later | with_reducible apply countThrottle_later | with_reducible apply modField_later | with_reducible apply modPwr_later
    | with_reducible apply Later.foldl
    | split
    | fail_if_no_progress with_reducible apply Later.upd)

theorem lowerSteps_later {s0 : State} {s : State} (x : Nat) (hl : Later s0 s) :
    Later s0 (lowerSteps s x) := by
  unfold lowerSteps
  repeat' (first
    | with_reducible assumption
    | intro _
    | (extract_lets +onlyGivenNames x; clear_value (e : x = _); first | (with_reducible refine Later.cut (s0 := s0) e ?_ (fun _ => ?_) <;> clear e) | clear e)
    | with_reducible apply retarget_later | with_reducible apply throttleEvent_later | with_reducible apply countThrottle_later
    | (split <;> rename_i e <;> first | (with_reducible refine Later.cut1 (s0 := s0) e ?_ (fun _ => ?_) <;> clear e) | (with_reducible refine Later.cut2 (s0 := s0) e ?_ (fun _ => ?_) <;> clear e) | (with_reducible refine Later.cut3 (s0 := s0) e ?_ (fun _ => ?_) <;> clear e) | skip)
    | fail_if_no_progress with_reducible apply Later.upd)

theorem lowerOne_later {s0 : State} {s : State} (hl : Later s0 s) :
    Later s0 (lowerOne s) := by
  unfold lowerOne
  repeat' (first
    | with_reducible assumption
    | intro _
    | (extract_lets +onlyGivenNames x; clear_value (e : x = _); first | (with_reducible refine Later.cut (s0 := s0) e ?_ (fun _ => ?_) <;> clear e) | clear e)
    | with_reducible apply lowerSteps_later | with_reducible apply throttleEvent_later | with_reducible apply countThrottle_later | with_reducible apply modStack_later | with_reducible apply raiseEvent_later | with_reducible apply modPwr_later
    | with_reducible apply Later.foldl | with_reducible apply Later.foldl1 | with_reducible apply Later.foldl2
    | (split <;> rename_i e <;> first | (with_reducible refine Later.cut1 (s0 := s0) e ?_ (fun _ => ?_) <;> clear e) | (with_reducible refine Later.cut2 (s0 := s0) e ?_ (fun _ => ?_) <;> clear e) | (with_reducible refine Later.cut3 (s0 := s0) e ?_ (fun _ => ?_) <;> clear e) | skip)
    | fail_if_no_progress with_reducible apply Later.upd)

theorem trimTargets_later {s0 : State} {s : State} (hl : Later s0 s) :
    Later s0 (trimTargets s) := by
  unfold trimTargets
  repeat' (first
    | with_reducible assumption
    | intro _
    | (extract_lets +onlyGivenNames x; clear_value (e : x = _); first | (with_reducible refine Later.cut (s0 := s0) e ?_ (fun _ => ?_) <;> clear e) | clear e)
    | with_reducible apply modField_later
    | with_reducible apply Later.foldl | with_reducible apply Later.foldl1 | with_reducible apply Later.foldl2
    | (split <;> rename_i e <;> first | (with_reducible refine Later.cut1 (s0 := s0) e ?_ (fun _ => ?_) <;> clear e) | (with_reducible refine Later.cut2 (s0 := s0) e ?_ (fun _ => ?_) <;> clear e) | (with_reducible refine Later.cut3 (s0 := s0) e ?_ (fun _ => ?_) <;> clear e) | skip)
    | fail_if_no_progress with_reducible apply Later.upd)

theorem raiseOne_later {s0 : State} {s : State} (hl : Later s0 s) :
    Later s0 (raiseOne s) := by
  unfold raiseOne
  repeat' (first
    | with_reducible assumption
    | intro _
    | (extract_lets +onlyGivenNames x; clear_value (e : x = _); first | (with_reducible refine Later.cut (s0 := s0) e ?_ (fun _ => ?_) <;> clear e) | (with_reducible refine Later.cutF (s0 := s0) e ?_ (fun hg => ?_) <;> clear e) | (with_reducible refine Later.cutF1 (s0 := s0) e ?_ (fun hg => ?_) <;> clear e) | (with_reducible refine Later.cutF2 (s0 := s0) e ?_ (fun hg => ?_) <;> clear e) | (with_reducible refine Later.cutC (s0 := s0) e ?_ (fun hg => ?_) <;> clear e) | (with_reducible refine Later.cutFp (s0 := s0) e ?_ (fun hg => ?_) <;> clear e) | clear e)
    | with_reducible apply modStack_later | with_reducible apply modField_later
    | with_reducible apply hg
    | with_reducible apply Later.foldl | with_reducible apply Later.foldl1 | with_reducible apply Later.foldl2
    | (split <;> rename_i e <;> first | (with_reducible refine Later.cut1 (s0 := s0) e ?_ (fun _ => ?_) <;> clear e) | (with_reducible refine Later.cut2 (s0 := s0) e ?_ (fun _ => ?_) <;> clear e) | (with_reducible refine Later.cut3 (s0 := s0) e ?_ (fun _ => ?_) <;> clear e) | skip)
    | fail_if_no_progress with_reducible apply Later.upd)

theorem subLimit_later {s0 : State} {s : State} (p : Nat) (hl : Later s0 s) :
    Later s0 (subLimit s p) := by
  unfold subLimit
  repeat' (first
    | with_reducible assumption
    | intro _
    | (extract_lets +onlyGivenNames x; clear_value (e : x = _); first | (with_reducible refine Later.cut (s0 := s0) e ?_ (fun _ => ?_) <;> clear e) | clear e)
    | with_reducible apply throttleEvent_later | with_reducible apply modField_later
    | with_reducible apply Later.foldl | with_reducible apply Later.foldl1 | with_reducible apply Later.foldl2
    | (split <;> rename_i e <;> first | (with_reducible refine Later.cut1 (s0 := s0) e ?_ (fun _ => ?_) <;> clear e) | (with_reducible refine Later.cut2 (s0 := s0) e ?_ (fun _ => ?_) <;> clear e) | (with_reducible refine Later.cut3 (s0 := s0) e ?_ (fun _ => ?_) <;> clear e) | skip)
    | fail_if_no_progress with_reducible apply Later.upd)

theorem governor_later {s0 : State} {s : State} (hl : Later s0 s) :
    Later s0 (governor s) := by
  unfold governor
  repeat' (first
    | with_reducible assumption
    | intro _
    | (extract_lets +onlyGivenNames x; clear_value (e : x = _); first | (with_reducible refine Later.cut (s0 := s0) e ?_ (fun _ => ?_) <;> clear e) | clear e)
    | with_reducible apply trimTargets_later | with_reducible apply thermalCaps_later | with_reducible apply schedule_later | with_reducible apply lowerOne_later | with_reducible apply modPwr_later | with_reducible apply lowerSteps_later | with_reducible apply raiseOne_later | with_reducible apply subLimit_later
    | with_reducible apply Later.foldl | with_reducible apply Later.foldl1 | with_reducible apply Later.foldl2
    | (split <;> rename_i e <;> first | (with_reducible refine Later.cut1 (s0 := s0) e ?_ (fun _ => ?_) <;> clear e) | (with_reducible refine Later.cut2 (s0 := s0) e ?_ (fun _ => ?_) <;> clear e) | (with_reducible refine Later.cut3 (s0 := s0) e ?_ (fun _ => ?_) <;> clear e) | skip)
    | fail_if_no_progress with_reducible apply Later.upd)

theorem takeLimit_later {s0 : State} {s : State} (w : Nat) (hl : Later s0 s) :
    Later s0 (takeLimit s w) := by
  unfold takeLimit
  repeat' (first
    | with_reducible assumption
    | intro _
    | with_reducible apply modPwr_later
    | split
    | fail_if_no_progress with_reducible apply Later.upd)

theorem sendLimit_later {s0 : State} {s : State} (dev : Nat) (w : Nat) (hl : Later s0 s) :
    Later s0 (sendLimit s dev w) := by
  unfold sendLimit
  repeat' (first
    | with_reducible assumption
    | intro _
    | with_reducible apply takeLimit_later | with_reducible apply emit_later
    | split)

theorem auxTrips_later {s0 : State} {s : State} (c : Nat) (cause : Nat) (hl : Later s0 s) :
    Later s0 (auxTrips s c cause) := by
  unfold auxTrips
  repeat' (first
    | with_reducible assumption
    | intro _
    | (extract_lets +onlyGivenNames x; clear_value (e : x = _); first | (with_reducible refine Later.cut (s0 := s0) e ?_ (fun _ => ?_) <;> clear e) | clear e)
    | with_reducible apply modAux_later | with_reducible apply raiseEvent_later
    | fail_if_no_progress with_reducible apply Later.upd)

theorem switchDomain_later {s0 s : State} (d v : Nat) (hl : Later s0 s) : Later s0 ((switchDomain s d v).getD s) := by
  unfold switchDomain
  repeat' (first
    | with_reducible assumption
    | intro _
    | with_reducible apply Later.getD_none
    | with_reducible apply Later.getD_some
    | (extract_lets +onlyGivenNames x; clear_value (e : x = _); first | (with_reducible refine Later.cut (s0 := s0) e ?_ (fun _ => ?_) <;> clear e) | clear e)
    | with_reducible apply modField_later | with_reducible apply cgLeave_later | with_reducible apply modPwr_later | with_reducible apply domLeave_later | with_reducible apply startTraining_later | with_reducible apply setDom_later | with_reducible apply modStack_later
    | with_reducible apply Later.foldl
    | split)

theorem transitionDone_later {s0 : State} {s : State} (d : Nat) (hl : Later s0 s) :
    Later s0 (transitionDone s d) := by
  unfold transitionDone
  repeat' (first
    | with_reducible assumption
    | intro _
    | (extract_lets +onlyGivenNames x; clear_value (e : x = _); first | (with_reducible refine Later.cut (s0 := s0) e ?_ (fun _ => ?_) <;> clear e) | clear e)
    | with_reducible apply reevaluate_later | with_reducible apply modStack_later | with_reducible apply trainStack_later | with_reducible apply modPwr_later | with_reducible apply cgOn_later | with_reducible apply cgOff_later | with_reducible apply setDom_later
    | (split <;> rename_i e <;> first | (with_reducible refine Later.cut1 (s0 := s0) e ?_ (fun _ => ?_) <;> clear e) | (with_reducible refine Later.cut2 (s0 := s0) e ?_ (fun _ => ?_) <;> clear e) | (with_reducible refine Later.cut3 (s0 := s0) e ?_ (fun _ => ?_) <;> clear e) | skip)
    | fail_if_no_progress with_reducible apply Later.upd)

end Sys2Proof.Machine
end

