-- ==== Sys2Proof/Laws/LaterPower.lean ====
section
/-!
SUPPORT. The operations of Machine/Power.lean keep `Later`.
-/

set_option linter.unusedTactic false
set_option linter.unreachableTactic false

namespace Sys2Proof.Machine

theorem execVinLowWarning_later (mv : Nat) {s : State} :
    ∃ s', (execVinLowWarning mv s) = .next s' ∧ Later s s' := by
  have hl := Later.refl s
  refine ⟨_, rfl, ?_⟩
  repeat' (first
    | with_reducible assumption
    | intro _
    | (extract_lets +onlyGivenNames x; clear_value (e : x = _); first | (with_reducible refine Later.cut (s0 := s) e ?_ (fun _ => ?_) <;> clear e) | clear e)
    | with_reducible apply modPwr_later | with_reducible apply raiseEvent_later
    | split
    | fail_if_no_progress with_reducible apply Later.upd)

theorem execVinFault_later (mv : Nat) {s : State} :
    ∃ s', (execVinFault mv s) = .next s' ∧ Later s s' := by
  have hl := Later.refl s
  refine ⟨_, rfl, ?_⟩
  repeat' (first
    | with_reducible assumption
    | intro _
    | (extract_lets +onlyGivenNames x; clear_value (e : x = _); first | (with_reducible refine Later.cut (s0 := s) e ?_ (fun _ => ?_) <;> clear e) | clear e)
    | with_reducible apply modPwr_later | with_reducible apply vinLost_later | with_reducible apply raiseEvent_later | with_reducible apply modWake_later
    | split
    | fail_if_no_progress with_reducible apply Later.upd)

theorem leaveOff_later {s0 : State} {s : State} (hl : Later s0 s) :
    Later s0 (leaveOff s) := by
  unfold leaveOff
  repeat' (first
    | with_reducible assumption
    | intro _
    | with_reducible apply setDev_later | with_reducible apply setDom_later
    | split)

theorem execVinArrive_later (mv : Nat) {s : State} :
    ∃ s', (execVinArrive mv s) = .next s' ∧ Later s s' := by
  have hl := Later.refl s
  refine ⟨_, rfl, ?_⟩
  repeat' (first
    | with_reducible assumption
    | intro _
    | (extract_lets +onlyGivenNames x; clear_value (e : x = _); first | (with_reducible refine Later.cut (s0 := s) e ?_ (fun _ => ?_) <;> clear e) | clear e)
    | with_reducible apply leaveOff_later | with_reducible apply modPwr_later | with_reducible apply modWake_later | with_reducible apply axFeed_later | with_reducible apply setDev_later
    | split
    | fail_if_no_progress with_reducible apply Later.upd)

theorem execAutostart_later {s : State} :
    ∃ s', (execAutostart s) = .next s' ∧ Later s s' := by
  have hl := Later.refl s
  refine ⟨_, rfl, ?_⟩
  repeat' (first
    | with_reducible assumption
    | intro _
    | with_reducible apply coldStart_later
    | split)

theorem execVstbyLoss_later {s : State} :
    ∃ s', (execVstbyLoss s) = .next s' ∧ Later s s' := by
  have hl := Later.refl s
  refine ⟨_, rfl, ?_⟩
  repeat' (first
    | with_reducible assumption
    | intro _
    | (extract_lets +onlyGivenNames x; clear_value (e : x = _); first | (with_reducible refine Later.cut (s0 := s) e ?_ (fun _ => ?_) <;> clear e) | clear e)
    | with_reducible apply modPwr_later | with_reducible apply raiseEvent_later | with_reducible apply goOff_later
    | split
    | fail_if_no_progress with_reducible apply Later.upd)

theorem execVstbyArrive_later {s : State} :
    ∃ s', (execVstbyArrive s) = .next s' ∧ Later s s' := by
  have hl := Later.refl s
  refine ⟨_, rfl, ?_⟩
  repeat' (first
    | with_reducible assumption
    | intro _
    | with_reducible apply axFeed_later | with_reducible apply leaveOff_later | with_reducible apply modPwr_later
    | fail_if_no_progress with_reducible apply Later.upd)

theorem execBladeCurrentSample_later (a : Nat) (b : Nat) {s : State} :
    ∃ s', (execBladeCurrentSample a b s) = .next s' ∧ Later s s' := by
  have hl := Later.refl s
  refine ⟨_, rfl, ?_⟩
  repeat' (first
    | with_reducible assumption
    | intro _
    | (extract_lets +onlyGivenNames x; clear_value (e : x = _); first | (with_reducible refine Later.cut (s0 := s) e ?_ (fun _ => ?_) <;> clear e) | clear e)
    | with_reducible apply modPwr_later | with_reducible apply raiseEvent_later
    | split
    | fail_if_no_progress with_reducible apply Later.upd)

theorem execJointSample_later (u : JointUnit) (deviates : Bool) {s : State} :
    ∃ s', (execJointSample u deviates s) = .next s' ∧ Later s s' := by
  have hl := Later.refl s
  refine ⟨_, rfl, ?_⟩
  repeat' (first
    | with_reducible assumption
    | intro _
    | (extract_lets +onlyGivenNames x; clear_value (e : x = _); first | (with_reducible refine Later.cut (s0 := s) e ?_ (fun _ => ?_) <;> clear e) | clear e)
    | with_reducible apply modPwr_later | with_reducible apply unit_later | with_reducible apply raiseErr_later
    | (split <;> rename_i e <;> first | (with_reducible refine Later.cut1 (s0 := s) e ?_ (fun _ => ?_) <;> clear e) | (with_reducible refine Later.cut2 (s0 := s) e ?_ (fun _ => ?_) <;> clear e) | (with_reducible refine Later.cut3 (s0 := s) e ?_ (fun _ => ?_) <;> clear e) | skip)
    | fail_if_no_progress with_reducible apply Later.upd)

theorem execJointTest_later (u : JointUnit) (found : Bool) {s : State} :
    ∃ s', (execJointTest u found s) = .next s' ∧ Later s s' := by
  have hl := Later.refl s
  refine ⟨_, rfl, ?_⟩
  repeat' (first
    | with_reducible assumption
    | intro _
    | with_reducible apply jointConfirm_later
    | split)

theorem execJointSuspectExpire_later (u : JointUnit) {s : State} :
    ∃ s', (execJointSuspectExpire u s) = .next s' ∧ Later s s' := by
  have hl := Later.refl s
  refine ⟨_, rfl, ?_⟩
  repeat' (first
    | with_reducible assumption
    | intro _
    | with_reducible apply modPwr_later
    | fail_if_no_progress with_reducible apply Later.upd)

theorem execDomainTrip_later (d : Nat) {s : State} :
    ∃ s', (execDomainTrip d s) = .next s' ∧ Later s s' := by
  have hl := Later.refl s
  refine ⟨_, rfl, ?_⟩
  repeat' (first
    | with_reducible assumption
    | intro _
    | (extract_lets +onlyGivenNames x; clear_value (e : x = _); first | (with_reducible refine Later.cut (s0 := s) e ?_ (fun _ => ?_) <;> clear e) | clear e)
    | with_reducible apply fnTrip_later | with_reducible apply surveyAppend_later | with_reducible apply raiseErr_later | with_reducible apply loseGroup_later | with_reducible apply setDom_later | with_reducible apply reevaluate_later | with_reducible apply domLeave_later
    | split)

theorem execPhaseTrip_later (n : Nat) (i : Nat) {s : State} :
    ∃ s', (execPhaseTrip n i s) = .next s' ∧ Later s s' := by
  have hl := Later.refl s
  refine ⟨_, rfl, ?_⟩
  repeat' (first | with_reducible assumption | with_reducible apply phaseStops_later | intro _)

theorem execStageTrip_later (x : StageLoss) {s : State} :
    ∃ s', (execStageTrip x s) = .next s' ∧ Later s s' := by
  have hl := Later.refl s
  refine ⟨_, rfl, ?_⟩
  repeat' (first
    | with_reducible assumption
    | intro _
    | (extract_lets +onlyGivenNames x; clear_value (e : x = _); first | (with_reducible refine Later.cut (s0 := s) e ?_ (fun _ => ?_) <;> clear e) | clear e)
    | with_reducible apply reevaluate_later | with_reducible apply stageStops_later
    | with_reducible apply Later.foldl | with_reducible apply Later.foldl1 | with_reducible apply Later.foldl2
    | (split <;> rename_i e <;> first | (with_reducible refine Later.cut1 (s0 := s) e ?_ (fun _ => ?_) <;> clear e) | (with_reducible refine Later.cut2 (s0 := s) e ?_ (fun _ => ?_) <;> clear e) | (with_reducible refine Later.cut3 (s0 := s) e ?_ (fun _ => ?_) <;> clear e) | skip)
    | fail_if_no_progress with_reducible apply Later.upd)

theorem execCgPowerupWave_later (n : Nat) {s : State} :
    ∃ s', (execCgPowerupWave n s) = .next s' ∧ Later s s' := by
  have hl := Later.refl s
  refine ⟨_, rfl, ?_⟩
  repeat' (first
    | with_reducible assumption
    | intro _
    | (extract_lets +onlyGivenNames x; clear_value (e : x = _); first | (with_reducible refine Later.cut (s0 := s) e ?_ (fun _ => ?_) <;> clear e) | clear e)
    | with_reducible apply modField_later | with_reducible apply modPwr_later
    | with_reducible apply Later.foldl
    | split
    | fail_if_no_progress with_reducible apply Later.upd)

theorem lowLeft_later {s0 : State} {s : State} (hl : Later s0 s) :
    Later s0 (lowLeft s) := by
  unfold lowLeft
  repeat' (first
    | with_reducible assumption
    | intro _
    | (extract_lets +onlyGivenNames x; clear_value (e : x = _); first | (with_reducible refine Later.cut (s0 := s0) e ?_ (fun _ => ?_) <;> clear e) | clear e)
    | with_reducible apply modStack_later | with_reducible apply setDev_later | with_reducible apply setDeviceCause_later
    | with_reducible apply Later.foldl | with_reducible apply Later.foldl1 | with_reducible apply Later.foldl2
    | (split <;> rename_i e <;> first | (with_reducible refine Later.cut1 (s0 := s0) e ?_ (fun _ => ?_) <;> clear e) | (with_reducible refine Later.cut2 (s0 := s0) e ?_ (fun _ => ?_) <;> clear e) | (with_reducible refine Later.cut3 (s0 := s0) e ?_ (fun _ => ?_) <;> clear e) | skip)
    | fail_if_no_progress with_reducible apply Later.upd)

theorem execDomainTransitionDone_later (d : Nat) {s : State} :
    ∃ s', (execDomainTransitionDone d s) = .next s' ∧ Later s s' := by
  have hl := Later.refl s
  refine ⟨_, rfl, ?_⟩
  repeat' (first | with_reducible assumption | with_reducible apply lowLeft_later | with_reducible apply transitionDone_later | intro _)

theorem execPowerSample_later (compute : Nat) (aux : Nat) (parts : List Nat) {s : State} :
    ∃ s', (execPowerSample compute aux parts s) = .next s' ∧ Later s s' := by
  have hl := Later.refl s
  refine ⟨_, rfl, ?_⟩
  repeat' (first
    | with_reducible assumption
    | intro _
    | with_reducible apply checkBrakes_later | with_reducible apply modPwr_later
    | with_reducible apply Later.foldl
    | fail_if_no_progress with_reducible apply Later.upd)

theorem execGovernorDecision_later {s : State} :
    ∃ s', (execGovernorDecision s) = .next s' ∧ Later s s' := by
  have hl := Later.refl s
  refine ⟨_, rfl, ?_⟩
  repeat' (first | with_reducible assumption | with_reducible apply governor_later | intro _)

theorem execBrakeRelease_later {s : State} :
    ∃ s', (execBrakeRelease s) = .next s' ∧ Later s s' := by
  have hl := Later.refl s
  refine ⟨_, rfl, ?_⟩
  repeat' (first
    | with_reducible assumption
    | intro _
    | with_reducible apply modPwr_later
    | fail_if_no_progress with_reducible apply Later.upd)

theorem execDecafBrakeRelease_later {s : State} :
    ∃ s', (execDecafBrakeRelease s) = .next s' ∧ Later s s' := by
  have hl := Later.refl s
  refine ⟨_, rfl, ?_⟩
  repeat' (first
    | with_reducible assumption
    | intro _
    | (extract_lets +onlyGivenNames x; clear_value (e : x = _); first | (with_reducible refine Later.cut (s0 := s) e ?_ (fun _ => ?_) <;> clear e) | clear e)
    | with_reducible apply modPwr_later | with_reducible apply schedule_later | with_reducible apply modField_later | with_reducible apply decafBrakeOn_later
    | with_reducible apply Later.foldl
    | split
    | fail_if_no_progress with_reducible apply Later.upd)

theorem execLendReport_later (w : Nat) {s : State} :
    ∃ s', (execLendReport w s) = .next s' ∧ Later s s' := by
  have hl := Later.refl s
  refine ⟨_, rfl, ?_⟩
  repeat' (first
    | with_reducible assumption
    | intro _
    | (extract_lets +onlyGivenNames x; clear_value (e : x = _); first | (with_reducible refine Later.cut (s0 := s) e ?_ (fun _ => ?_) <;> clear e) | clear e)
    | with_reducible apply emit_later | with_reducible apply modPwr_later
    | with_reducible apply Later.foldl
    | split
    | fail_if_no_progress with_reducible apply Later.upd)

theorem execLendRound_later (ms : List LendMember) {s : State} :
    ∃ s', (execLendRound ms s) = .next s' ∧ Later s s' := by
  have hl := Later.refl s
  refine ⟨_, rfl, ?_⟩
  repeat' (first
    | with_reducible assumption
    | intro _
    | (extract_lets +onlyGivenNames x; clear_value (e : x = _); first | (with_reducible refine Later.cut (s0 := s) e ?_ (fun _ => ?_) <;> clear e) | (with_reducible refine Later.cutF (s0 := s) e ?_ (fun hg => ?_) <;> clear e) | (with_reducible refine Later.cutF1 (s0 := s) e ?_ (fun hg => ?_) <;> clear e) | (with_reducible refine Later.cutF2 (s0 := s) e ?_ (fun hg => ?_) <;> clear e) | (with_reducible refine Later.cutC (s0 := s) e ?_ (fun hg => ?_) <;> clear e) | (with_reducible refine Later.cutFp (s0 := s) e ?_ (fun hg => ?_) <;> clear e) | clear e)
    | with_reducible apply modPwr_later | with_reducible apply sendLimit_later
    | with_reducible apply hg
    | with_reducible apply Later.foldl | with_reducible apply Later.foldl1 | with_reducible apply Later.foldl2
    | with_reducible apply Later.getD_none | with_reducible apply Later.getD_some
    | (split <;> rename_i e <;> first | (with_reducible refine Later.cut1 (s0 := s) e ?_ (fun _ => ?_) <;> clear e) | (with_reducible refine Later.cut2 (s0 := s) e ?_ (fun _ => ?_) <;> clear e) | (with_reducible refine Later.cut3 (s0 := s) e ?_ (fun _ => ?_) <;> clear e) | skip)
    | fail_if_no_progress with_reducible apply Later.upd)

theorem execLendLimitMessage_later (w : Nat) {s : State} :
    ∃ s', (execLendLimitMessage w s) = .next s' ∧ Later s s' := by
  have hl := Later.refl s
  refine ⟨_, rfl, ?_⟩
  repeat' (first
    | with_reducible assumption
    | intro _
    | with_reducible apply emit_later | with_reducible apply takeLimit_later
    | split
    | fail_if_no_progress with_reducible apply Later.upd)

theorem execLendConfirmTimeout_later (done : List Nat) {s : State} :
    ∃ s', (execLendConfirmTimeout done s) = .next s' ∧ Later s s' := by
  have hl := Later.refl s
  refine ⟨_, rfl, ?_⟩
  repeat' (first
    | with_reducible assumption
    | intro _
    | (extract_lets +onlyGivenNames x; clear_value (e : x = _); first | (with_reducible refine Later.cut (s0 := s) e ?_ (fun _ => ?_) <;> clear e) | clear e)
    | with_reducible apply modPwr_later | with_reducible apply sendLimit_later
    | with_reducible apply Later.foldl | with_reducible apply Later.foldl1 | with_reducible apply Later.foldl2
    | (split <;> rename_i e <;> first | (with_reducible refine Later.cut1 (s0 := s) e ?_ (fun _ => ?_) <;> clear e) | (with_reducible refine Later.cut2 (s0 := s) e ?_ (fun _ => ?_) <;> clear e) | (with_reducible refine Later.cut3 (s0 := s) e ?_ (fun _ => ?_) <;> clear e) | skip)
    | fail_if_no_progress with_reducible apply Later.upd)

theorem execLendFallback_later {s : State} :
    ∃ s', (execLendFallback s) = .next s' ∧ Later s s' := by
  have hl := Later.refl s
  refine ⟨_, rfl, ?_⟩
  repeat' (first
    | with_reducible assumption
    | intro _
    | with_reducible apply modPwr_later
    | fail_if_no_progress with_reducible apply Later.upd)

theorem execTempSample_later (tiles others : List Nat) {s : State} :
    ∃ s', (execTempSample tiles others s) = .next s' ∧ Later s s' := by
  have hl := Later.refl s
  refine ⟨_, rfl, ?_⟩
  repeat' (first
    | with_reducible assumption
    | intro _
    | (extract_lets +onlyGivenNames x; clear_value (e : x = _); first | (with_reducible refine Later.cut (s0 := s) e ?_ (fun _ => ?_) <;> clear e) | clear e)
    | with_reducible apply modPwr_later | with_reducible apply auxUpdate_later | with_reducible apply raiseEvent_later
    | (split <;> rename_i e <;> first | (with_reducible refine Later.cut1 (s0 := s) e ?_ (fun _ => ?_) <;> clear e) | (with_reducible refine Later.cut2 (s0 := s) e ?_ (fun _ => ?_) <;> clear e) | (with_reducible refine Later.cut3 (s0 := s) e ?_ (fun _ => ?_) <;> clear e) | skip)
    | fail_if_no_progress with_reducible apply Later.upd)

theorem execThermalTrip_later {s : State} :
    ∃ s', (execThermalTrip s) = .next s' ∧ Later s s' := by
  have hl := Later.refl s
  refine ⟨_, rfl, ?_⟩
  repeat' (first
    | with_reducible assumption
    | intro _
    | (extract_lets +onlyGivenNames x; clear_value (e : x = _); first | (with_reducible refine Later.cut (s0 := s) e ?_ (fun _ => ?_) <;> clear e) | clear e)
    | with_reducible apply raiseEvent_later | with_reducible apply modWake_later | with_reducible apply stopDeck_later | with_reducible apply axFeed_later | with_reducible apply setDev_later
    | split
    | fail_if_no_progress with_reducible apply Later.upd)

theorem execFanStartCheck_later (c : Nat) (volt : Nat) {s : State} :
    ∃ s', (execFanStartCheck c volt s) = .next s' ∧ Later s s' := by
  have hl := Later.refl s
  refine ⟨_, rfl, ?_⟩
  repeat' (first
    | with_reducible assumption
    | intro _
    | with_reducible apply modAux_later | with_reducible apply auxTrips_later
    | split
    | fail_if_no_progress with_reducible apply Later.upd)

theorem execAuxTrip_later (c : Nat) {s : State} :
    ∃ s', (execAuxTrip c s) = .next s' ∧ Later s s' := by
  have hl := Later.refl s
  refine ⟨_, rfl, ?_⟩
  repeat' (first
    | with_reducible assumption
    | intro _
    | with_reducible apply auxTrips_later
    | split)

theorem execAuxOverloadTrip_later (c : Nat) {s : State} :
    ∃ s', (execAuxOverloadTrip c s) = .next s' ∧ Later s s' := by
  have hl := Later.refl s
  refine ⟨_, rfl, ?_⟩
  repeat' (first
    | with_reducible assumption
    | intro _
    | with_reducible apply auxTrips_later
    | split)

theorem execAuxRetry_later (c : Nat) {s : State} :
    ∃ s', (execAuxRetry c s) = .next s' ∧ Later s s' := by
  have hl := Later.refl s
  refine ⟨_, rfl, ?_⟩
  repeat' (first
    | with_reducible assumption
    | intro _
    | (extract_lets +onlyGivenNames x; clear_value (e : x = _); first | (with_reducible refine Later.cut (s0 := s) e ?_ (fun _ => ?_) <;> clear e) | clear e)
    | with_reducible apply auxStart_later | with_reducible apply modAux_later
    | split
    | fail_if_no_progress with_reducible apply Later.upd)

theorem execAuxStandbyTrip_later {s : State} :
    ∃ s', (execAuxStandbyTrip s) = .next s' ∧ Later s s' := by
  have hl := Later.refl s
  refine ⟨_, rfl, ?_⟩
  repeat' (first
    | with_reducible assumption
    | intro _
    | (extract_lets +onlyGivenNames x; clear_value (e : x = _); first | (with_reducible refine Later.cut (s0 := s) e ?_ (fun _ => ?_) <;> clear e) | clear e)
    | with_reducible apply auxTrips_later
    | with_reducible apply Later.foldl
    | split)

theorem execFanStall_later (c : Nat) (rpm : Nat) {s : State} :
    ∃ s', (execFanStall c rpm s) = .next s' ∧ Later s s' := by
  have hl := Later.refl s
  refine ⟨_, rfl, ?_⟩
  repeat' (first
    | with_reducible assumption
    | intro _
    | (extract_lets +onlyGivenNames x; clear_value (e : x = _); first | (with_reducible refine Later.cut (s0 := s) e ?_ (fun _ => ?_) <;> clear e) | clear e)
    | with_reducible apply modAux_later | with_reducible apply raiseEvent_later
    | split
    | fail_if_no_progress with_reducible apply Later.upd)

end Sys2Proof.Machine
end

