-- ==== Sys2Proof/Laws/LaterHost.lean ====
section
/-!
SUPPORT. The operations of Machine/Host.lean keep `Later`.
-/

set_option linter.unusedTactic false
set_option linter.unreachableTactic false

namespace Sys2Proof.Machine

theorem aerReport_later {s0 : State} {s : State} (h f b : Nat) (hl : Later s0 s) :
    Later s0 (aerReport s h f b) := by
  unfold aerReport
  repeat' (first
    | with_reducible assumption
    | intro _
    | (extract_lets +onlyGivenNames x; clear_value (e : x = _); first | (with_reducible refine Later.cut (s0 := s0) e ?_ (fun _ => ?_) <;> clear e) | clear e)
    | with_reducible apply modFn_later
    | (split <;> rename_i e <;> first | (with_reducible refine Later.cut1 (s0 := s0) e ?_ (fun _ => ?_) <;> clear e) | (with_reducible refine Later.cut2 (s0 := s0) e ?_ (fun _ => ?_) <;> clear e) | (with_reducible refine Later.cut3 (s0 := s0) e ?_ (fun _ => ?_) <;> clear e) | skip)
    | fail_if_no_progress with_reducible apply Later.upd)

theorem barServe_later {s0 : State} {s : State} (h f : Nat) (ps : List (Nat × Option Nat × Nat)) (w : Option Bytes) (off : Nat) (poisoned : Bool) (hl : Later s0 s) :
    Later s0 (barServe s h f ps w off poisoned) := by
  unfold barServe
  repeat' (first
    | with_reducible assumption
    | intro _
    | (extract_lets +onlyGivenNames x; clear_value (e : x = _); first | (with_reducible refine Later.cut (s0 := s0) e ?_ (fun _ => ?_) <;> clear e) | (with_reducible refine Later.cutF (s0 := s0) e ?_ (fun hg => ?_) <;> clear e) | (with_reducible refine Later.cutF1 (s0 := s0) e ?_ (fun hg => ?_) <;> clear e) | (with_reducible refine Later.cutF2 (s0 := s0) e ?_ (fun hg => ?_) <;> clear e) | (with_reducible refine Later.cutC (s0 := s0) e ?_ (fun hg => ?_) <;> clear e) | (with_reducible refine Later.cutFp (s0 := s0) e ?_ (fun hg => ?_) <;> clear e) | clear e)
    | with_reducible apply hbmWait_later | with_reducible apply hbmServe_later
    | with_reducible apply hg
    | with_reducible apply Later.foldl | with_reducible apply Later.foldl1 | with_reducible apply Later.foldl2
    | (split <;> rename_i e <;> first | (with_reducible refine Later.cut1 (s0 := s0) e ?_ (fun _ => ?_) <;> clear e) | (with_reducible refine Later.cut2 (s0 := s0) e ?_ (fun _ => ?_) <;> clear e) | (with_reducible refine Later.cut3 (s0 := s0) e ?_ (fun _ => ?_) <;> clear e) | skip)
    | fail_if_no_progress with_reducible apply Later.upd)

theorem barRefused_later {s0 : State} {s : State} (h f a n : Nat) (hl : Later s0 s) :
    Later s0 (barRefused s h f a n) := by
  unfold barRefused
  repeat' (first
    | with_reducible assumption
    | intro _
    | (extract_lets +onlyGivenNames x; clear_value (e : x = _); first | (with_reducible refine Later.cut (s0 := s0) e ?_ (fun _ => ?_) <;> clear e) | clear e)
    | with_reducible apply aerReport_later | with_reducible apply countDrop_later | with_reducible apply hbmRefused_later
    | (split <;> rename_i e <;> first | (with_reducible refine Later.cut1 (s0 := s0) e ?_ (fun _ => ?_) <;> clear e) | (with_reducible refine Later.cut2 (s0 := s0) e ?_ (fun _ => ?_) <;> clear e) | (with_reducible refine Later.cut3 (s0 := s0) e ?_ (fun _ => ?_) <;> clear e) | skip)
    | fail_if_no_progress with_reducible apply Later.upd)

theorem barCheck_later {s0 : State} {s t : State} {h f : Nat} {ps : List (Nat × Option Nat × Nat)} (e : barCheck s h f ps = some t)
    (hl : Later s0 s) : Later s0 t := by
  unfold barCheck at e
  split at e
  · exact Option.some.inj e ▸ aerReport_later h f 20 hl
  · split at e
    · exact Option.some.inj e ▸ barRefused_later h f _ _ hl
    · cases e

theorem execBar2Write_later (h f off : Nat) (bs : Bytes) (poisoned : Bool) {s : State} :
    ∃ s', (execBar2Write h f off bs poisoned s) = .next s' ∧ Later s s' := by
  have hl := Later.refl s
  refine ⟨_, rfl, ?_⟩
  repeat' (first
    | with_reducible assumption
    | exact barCheck_later (by assumption) (by assumption)
    | intro _
    | (extract_lets +onlyGivenNames x; clear_value (e : x = _); first | (with_reducible refine Later.cut (s0 := s) e ?_ (fun _ => ?_) <;> clear e) | clear e)
    | with_reducible apply aerReport_later | with_reducible apply countDrop_later | with_reducible apply barServe_later
    | (split <;> rename_i e <;> first | (with_reducible refine Later.cut1 (s0 := s) e ?_ (fun _ => ?_) <;> clear e) | (with_reducible refine Later.cut2 (s0 := s) e ?_ (fun _ => ?_) <;> clear e) | (with_reducible refine Later.cut3 (s0 := s) e ?_ (fun _ => ?_) <;> clear e) | skip)
    | fail_if_no_progress with_reducible apply Later.upd)

theorem execBar2Read_later (h f off : Nat) (rd : HostRead) {s : State} :
    ∃ s', (execBar2Read h f off rd s) = .next s' ∧ Later s s' := by
  have hl := Later.refl s
  refine ⟨_, rfl, ?_⟩
  repeat' (first
    | with_reducible assumption
    | exact barCheck_later (by assumption) (by assumption)
    | intro _
    | (extract_lets +onlyGivenNames x; clear_value (e : x = _); first | (with_reducible refine Later.cut (s0 := s) e ?_ (fun _ => ?_) <;> clear e) | clear e)
    | with_reducible apply emit_later | with_reducible apply aerReport_later | with_reducible apply barData_later | with_reducible apply countDrop_later | with_reducible apply barServe_later
    | (split <;> rename_i e <;> first | (with_reducible refine Later.cut1 (s0 := s) e ?_ (fun _ => ?_) <;> clear e) | (with_reducible refine Later.cut2 (s0 := s) e ?_ (fun _ => ?_) <;> clear e) | (with_reducible refine Later.cut3 (s0 := s) e ?_ (fun _ => ?_) <;> clear e) | skip)
    | fail_if_no_progress with_reducible apply Later.upd)

theorem sqtailWrite_later {s0 : State} {s : State} (h f r : Nat) (v : W32) (hl : Later s0 s) :
    Later s0 (sqtailWrite s h f r v) := by
  unfold sqtailWrite
  repeat' (first
    | with_reducible assumption
    | intro _
    | (extract_lets +onlyGivenNames x; clear_value (e : x = _); first | (with_reducible refine Later.cut (s0 := s0) e ?_ (fun _ => ?_) <;> clear e) | clear e)
    | with_reducible apply countDrop_later | with_reducible apply stopRing_later | with_reducible apply modRing_later
    | (split <;> rename_i e <;> first | (with_reducible refine Later.cut1 (s0 := s0) e ?_ (fun _ => ?_) <;> clear e) | (with_reducible refine Later.cut2 (s0 := s0) e ?_ (fun _ => ?_) <;> clear e) | (with_reducible refine Later.cut3 (s0 := s0) e ?_ (fun _ => ?_) <;> clear e) | skip)
    | fail_if_no_progress with_reducible apply Later.upd)

theorem execSqtailWrite_later (h : Nat) (f : Nat) (r : Nat) (v : W32) {s : State} :
    ∃ s', (execSqtailWrite h f r v s) = .next s' ∧ Later s s' := by
  have hl := Later.refl s
  refine ⟨_, rfl, ?_⟩
  repeat' (first | with_reducible assumption | with_reducible apply sqtailWrite_later | intro _)

theorem ringCtrlWrite_later {s0 : State} {s : State} (h : Nat) (f : Nat) (r : Nat) (v : W32) (hl : Later s0 s) :
    Later s0 (ringCtrlWrite s h f r v) := by
  unfold ringCtrlWrite
  repeat' (first
    | with_reducible assumption
    | intro _
    | (extract_lets +onlyGivenNames x; clear_value (e : x = _); first | (with_reducible refine Later.cut (s0 := s0) e ?_ (fun _ => ?_) <;> clear e) | clear e)
    | with_reducible apply modRing_later | with_reducible apply stopRing_later
    | split
    | fail_if_no_progress with_reducible apply Later.upd)

theorem execRingCtrlWrite_later (h : Nat) (f : Nat) (r : Nat) (v : W32) {s : State} :
    ∃ s', (execRingCtrlWrite h f r v s) = .next s' ∧ Later s s' := by
  have hl := Later.refl s
  refine ⟨_, rfl, ?_⟩
  repeat' (first | with_reducible assumption | with_reducible apply ringCtrlWrite_later | intro _)

theorem ringBaseWrite_later {s0 : State} {s : State} (h : Nat) (f : Nat) (r : Nat) (x : RingReg) (v : W32) (hl : Later s0 s) :
    Later s0 (ringBaseWrite s h f r x v) := by
  unfold ringBaseWrite
  repeat' (first
    | with_reducible assumption
    | intro _
    | with_reducible apply modRing_later
    | split
    | fail_if_no_progress with_reducible apply Later.upd)

theorem execRingBaseWrite_later (h : Nat) (f : Nat) (r : Nat) (x : RingReg) (v : W32) {s : State} :
    ∃ s', (execRingBaseWrite h f r x v s) = .next s' ∧ Later s s' := by
  have hl := Later.refl s
  refine ⟨_, rfl, ?_⟩
  repeat' (first | with_reducible assumption | with_reducible apply ringBaseWrite_later | intro _)

theorem execLaunchFetch_later (h : Nat) {s : State} :
    ∃ s', (execLaunchFetch h s) = .next s' ∧ Later s s' := by
  have hl := Later.refl s
  refine ⟨_, rfl, ?_⟩
  repeat' (first
    | with_reducible assumption
    | intro _
    | (extract_lets +onlyGivenNames x; clear_value (e : x = _); first | (with_reducible refine Later.cut (s0 := s) e ?_ (fun _ => ?_) <;> clear e) | (with_reducible refine Later.cutF (s0 := s) e ?_ (fun hg => ?_) <;> clear e) | (with_reducible refine Later.cutF1 (s0 := s) e ?_ (fun hg => ?_) <;> clear e) | (with_reducible refine Later.cutF2 (s0 := s) e ?_ (fun hg => ?_) <;> clear e) | (with_reducible refine Later.cutC (s0 := s) e ?_ (fun hg => ?_) <;> clear e) | (with_reducible refine Later.cutFp (s0 := s) e ?_ (fun hg => ?_) <;> clear e) | clear e)
    | with_reducible apply modHost_later | with_reducible apply modRing_later | with_reducible apply afterPost_later | with_reducible apply post_later | with_reducible apply hbmAccess_later
    | with_reducible apply hg
    | (split <;> rename_i e <;> first | (with_reducible refine Later.cut1 (s0 := s) e ?_ (fun _ => ?_) <;> clear e) | (with_reducible refine Later.cut2 (s0 := s) e ?_ (fun _ => ?_) <;> clear e) | (with_reducible refine Later.cut3 (s0 := s) e ?_ (fun _ => ?_) <;> clear e) | skip)
    | fail_if_no_progress with_reducible apply Later.upd)

theorem execLaunchTargetReport_later (h : Nat) (c : Nat) {s : State} :
    ∃ s', (execLaunchTargetReport h c s) = .next s' ∧ Later s s' := by
  have hl := Later.refl s
  refine ⟨_, rfl, ?_⟩
  repeat' (first
    | with_reducible assumption
    | intro _
    | (extract_lets +onlyGivenNames x; clear_value (e : x = _); first | (with_reducible refine Later.cut (s0 := s) e ?_ (fun _ => ?_) <;> clear e) | clear e)
    | with_reducible apply launchUpdate_later | with_reducible apply launchFault_later
    | split
    | fail_if_no_progress with_reducible apply Later.upd)

theorem execMsixCoalesceTimer_later (h : Nat) (f : Nat) (r : Nat) {s : State} :
    ∃ s', (execMsixCoalesceTimer h f r s) = .next s' ∧ Later s s' := by
  have hl := Later.refl s
  refine ⟨_, rfl, ?_⟩
  repeat' (first
    | with_reducible assumption
    | intro _
    | with_reducible apply sendVector_later | with_reducible apply modRing_later
    | split
    | fail_if_no_progress with_reducible apply Later.upd)

theorem execCompletionWriteError_later (h : Nat) (f : Nat) (r : Nat) {s : State} :
    ∃ s', (execCompletionWriteError h f r s) = .next s' ∧ Later s s' := by
  have hl := Later.refl s
  refine ⟨_, rfl, ?_⟩
  repeat' (first
    | with_reducible assumption
    | intro _
    | with_reducible apply countDrop_later | with_reducible apply stopRing_later
    | split)

theorem dropLaunches_later {s0 : State} {s : State} (h : Nat) (f : Nat → Bool) (hl : Later s0 s) :
    Later s0 (dropLaunches s h f) := by
  unfold dropLaunches
  repeat' (first
    | with_reducible assumption
    | intro _
    | (extract_lets +onlyGivenNames x; clear_value (e : x = _); first | (with_reducible refine Later.cut (s0 := s0) e ?_ (fun _ => ?_) <;> clear e) | clear e)
    | with_reducible apply dropSend_later
    | with_reducible apply Later.foldl
    | split
    | fail_if_no_progress with_reducible apply Later.upd)

theorem execVfFlr_later (h : Nat) (p : Nat) {s : State} :
    ∃ s', (execVfFlr h p s) = .next s' ∧ Later s s' := by
  have hl := Later.refl s
  refine ⟨_, rfl, ?_⟩
  repeat' (first
    | with_reducible assumption
    | intro _
    | (extract_lets +onlyGivenNames x; clear_value (e : x = _); first | (with_reducible refine Later.cut (s0 := s) e ?_ (fun _ => ?_) <;> clear e) | clear e)
    | with_reducible apply dropLaunches_later | with_reducible apply closeMailbox_later | with_reducible apply modFn_later | with_reducible apply beginPartReset_later
    | split)

theorem execPfFlr_later (h : Nat) {s : State} :
    ∃ s', (execPfFlr h s) = .next s' ∧ Later s s' := by
  have hl := Later.refl s
  refine ⟨_, rfl, ?_⟩
  repeat' (first
    | with_reducible assumption
    | intro _
    | (extract_lets +onlyGivenNames x; clear_value (e : x = _); first | (with_reducible refine Later.cut (s0 := s) e ?_ (fun _ => ?_) <;> clear e) | clear e)
    | with_reducible apply dropLaunches_later | with_reducible apply closeMailbox_later | with_reducible apply modFn_later | with_reducible apply endLaunches_later | with_reducible apply modHost_later | with_reducible apply beginComputeReset_later
    | with_reducible apply Later.foldl | with_reducible apply Later.foldl1 | with_reducible apply Later.foldl2
    | (split <;> rename_i e <;> first | (with_reducible refine Later.cut1 (s0 := s) e ?_ (fun _ => ?_) <;> clear e) | (with_reducible refine Later.cut2 (s0 := s) e ?_ (fun _ => ?_) <;> clear e) | (with_reducible refine Later.cut3 (s0 := s) e ?_ (fun _ => ?_) <;> clear e) | skip)
    | fail_if_no_progress with_reducible apply Later.upd)

theorem execPerstAssert_later (h : Nat) (pin : Bool) {s : State} :
    ∃ s', (execPerstAssert h pin s) = .next s' ∧ Later s s' := by
  have hl := Later.refl s
  refine ⟨_, rfl, ?_⟩
  repeat' (first
    | with_reducible assumption
    | intro _
    | (extract_lets +onlyGivenNames x; clear_value (e : x = _); first | (with_reducible refine Later.cut (s0 := s) e ?_ (fun _ => ?_) <;> clear e) | clear e)
    | with_reducible apply modHost_later | with_reducible apply closeMailbox_later
    | with_reducible apply Later.foldl
    | split
    | fail_if_no_progress with_reducible apply Later.upd)

theorem execPerstRelease_later (h : Nat) {s : State} :
    ∃ s', (execPerstRelease h s) = .next s' ∧ Later s s' := by
  have hl := Later.refl s
  refine ⟨_, rfl, ?_⟩
  repeat' (first
    | with_reducible assumption
    | intro _
    | with_reducible apply modHost_later
    | split
    | fail_if_no_progress with_reducible apply Later.upd)

theorem execHostLinkUp_later (h : Nat) (speed : Nat) (width : Nat) (flit : Bool) {s : State} :
    ∃ s', (execHostLinkUp h speed width flit s) = .next s' ∧ Later s s' := by
  have hl := Later.refl s
  refine ⟨_, rfl, ?_⟩
  repeat' (first
    | with_reducible assumption
    | intro _
    | with_reducible apply modHost_later
    | split
    | fail_if_no_progress with_reducible apply Later.upd)

end Sys2Proof.Machine
end

