-- ==== Sys2Proof/Laws/LaterLock.lean ====
section
/-!
SUPPORT. The operations of Machine/Lock.lean keep `Later`.
-/

set_option linter.unusedTactic false
set_option linter.unreachableTactic false

namespace Sys2Proof.Machine

theorem execLockAcq_later (c : Nat) (i : Issue) (d : LockDesc) {s : State} :
    ∃ s', (execLockAcq c i d s) = .next s' ∧ Later s s' := by
  have hl := Later.refl s
  refine ⟨_, rfl, ?_⟩
  repeat' (first | with_reducible assumption | with_reducible apply engRow_later | intro _)

theorem execLockTry_later (c : Nat) (i : Issue) (d : LockDesc) {s : State} :
    ∃ s', (execLockTry c i d s) = .next s' ∧ Later s s' := by
  have hl := Later.refl s
  refine ⟨_, rfl, ?_⟩
  repeat' (first | with_reducible assumption | with_reducible apply engRow_later | intro _)

theorem execLockRel_later (c : Nat) (i : Issue) (d : LockDesc) {s : State} :
    ∃ s', (execLockRel c i d s) = .next s' ∧ Later s s' := by
  have hl := Later.refl s
  refine ⟨_, rfl, ?_⟩
  repeat' (first | with_reducible assumption | with_reducible apply engRow_later | intro _)

theorem execAadd_later (c : Nat) (i : Issue) (d : LockDesc) {s : State} :
    ∃ s', (execAadd c i d s) = .next s' ∧ Later s s' := by
  have hl := Later.refl s
  refine ⟨_, rfl, ?_⟩
  repeat' (first | with_reducible assumption | with_reducible apply engRow_later | intro _)

theorem execAmin_later (c : Nat) (i : Issue) (d : LockDesc) {s : State} :
    ∃ s', (execAmin c i d s) = .next s' ∧ Later s s' := by
  have hl := Later.refl s
  refine ⟨_, rfl, ?_⟩
  repeat' (first | with_reducible assumption | with_reducible apply engRow_later | intro _)

theorem execAmax_later (c : Nat) (i : Issue) (d : LockDesc) {s : State} :
    ∃ s', (execAmax c i d s) = .next s' ∧ Later s s' := by
  have hl := Later.refl s
  refine ⟨_, rfl, ?_⟩
  repeat' (first | with_reducible assumption | with_reducible apply engRow_later | intro _)

theorem execAminu_later (c : Nat) (i : Issue) (d : LockDesc) {s : State} :
    ∃ s', (execAminu c i d s) = .next s' ∧ Later s s' := by
  have hl := Later.refl s
  refine ⟨_, rfl, ?_⟩
  repeat' (first | with_reducible assumption | with_reducible apply engRow_later | intro _)

theorem execAmaxu_later (c : Nat) (i : Issue) (d : LockDesc) {s : State} :
    ∃ s', (execAmaxu c i d s) = .next s' ∧ Later s s' := by
  have hl := Later.refl s
  refine ⟨_, rfl, ?_⟩
  repeat' (first | with_reducible assumption | with_reducible apply engRow_later | intro _)

theorem execAswap_later (c : Nat) (i : Issue) (d : LockDesc) {s : State} :
    ∃ s', (execAswap c i d s) = .next s' ∧ Later s s' := by
  have hl := Later.refl s
  refine ⟨_, rfl, ?_⟩
  repeat' (first | with_reducible assumption | with_reducible apply engRow_later | intro _)

theorem execAcas_later (c : Nat) (i : Issue) (d : LockDesc) {s : State} :
    ∃ s', (execAcas c i d s) = .next s' ∧ Later s s' := by
  have hl := Later.refl s
  refine ⟨_, rfl, ?_⟩
  repeat' (first | with_reducible assumption | with_reducible apply engRow_later | intro _)

theorem execLockRequestArrive_later (lock : Nat) (a : LockArrival) {s : State} :
    ∃ s', (execLockRequestArrive lock a s) = .next s' ∧ Later s s' := by
  have hl := Later.refl s
  refine ⟨_, rfl, ?_⟩
  repeat' (first
    | with_reducible assumption
    | intro _
    | (extract_lets +onlyGivenNames x; clear_value (e : x = _); first | (with_reducible refine Later.cut (s0 := s) e ?_ (fun _ => ?_) <;> clear e) | (with_reducible refine Later.cutF (s0 := s) e ?_ (fun hg => ?_) <;> clear e) | (with_reducible refine Later.cutF1 (s0 := s) e ?_ (fun hg => ?_) <;> clear e) | (with_reducible refine Later.cutF2 (s0 := s) e ?_ (fun hg => ?_) <;> clear e) | (with_reducible refine Later.cutC (s0 := s) e ?_ (fun hg => ?_) <;> clear e) | (with_reducible refine Later.cutFp (s0 := s) e ?_ (fun hg => ?_) <;> clear e) | clear e)
    | with_reducible apply raiseErr_later | with_reducible apply lockAbandon_later | with_reducible apply lockOp_later
    | with_reducible apply hg
    | with_reducible apply Later.foldl | with_reducible apply Later.foldl1 | with_reducible apply Later.foldl2
    | (split <;> rename_i e <;> first | (with_reducible refine Later.cut1 (s0 := s) e ?_ (fun _ => ?_) <;> clear e) | (with_reducible refine Later.cut2 (s0 := s) e ?_ (fun _ => ?_) <;> clear e) | (with_reducible refine Later.cut3 (s0 := s) e ?_ (fun _ => ?_) <;> clear e) | skip)
    | fail_if_no_progress with_reducible apply Later.upd)

theorem takeReply_later {s0 : State} {s : State} (c : Nat) (hl : Later s0 s) :
    Later s0 (takeReply s c).1 := by
  unfold takeReply
  repeat' (first
    | with_reducible assumption
    | intro _
    | split
    | fail_if_no_progress with_reducible apply Later.upd)

theorem execLockReplyArrive_later (c : Nat) (status : Nat) (val : W64) {s : State} :
    ∃ s', (execLockReplyArrive c status val s) = .next s' ∧ Later s s' := by
  have hl := Later.refl s
  refine ⟨_, rfl, ?_⟩
  repeat' (first
    | with_reducible assumption
    | intro _
    | with_reducible apply lockEnd_later | with_reducible apply takeReply_later
    | (split <;> rename_i e <;> first | (with_reducible refine Later.cut1 (s0 := s) e ?_ (fun _ => ?_) <;> clear e) | (with_reducible refine Later.cut2 (s0 := s) e ?_ (fun _ => ?_) <;> clear e) | skip)
    | fail_if_no_progress with_reducible apply Later.upd)

theorem execAtomicArrive_later (a : AtRef) {s : State} :
    ∃ s', (execAtomicArrive a s) = .next s' ∧ Later s s' := by
  have hl := Later.refl s
  refine ⟨_, rfl, ?_⟩
  repeat' (first
    | with_reducible assumption
    | intro _
    | (extract_lets +onlyGivenNames x; clear_value (e : x = _); first | (with_reducible refine Later.cut (s0 := s) e ?_ (fun _ => ?_) <;> clear e) | clear e)
    | with_reducible apply atomicPerform_later | with_reducible apply remoteAccess_later | with_reducible apply emit_later
    | (split <;> rename_i e <;> first | (with_reducible refine Later.cut1 (s0 := s) e ?_ (fun _ => ?_) <;> clear e) | (with_reducible refine Later.cut2 (s0 := s) e ?_ (fun _ => ?_) <;> clear e) | (with_reducible refine Later.cut3 (s0 := s) e ?_ (fun _ => ?_) <;> clear e) | skip)
    | fail_if_no_progress with_reducible apply Later.upd)

theorem execAtomicReplyArrive_later (c : Nat) (status : Nat) (val : W64) {s : State} :
    ∃ s', (execAtomicReplyArrive c status val s) = .next s' ∧ Later s s' := by
  have hl := Later.refl s
  refine ⟨_, rfl, ?_⟩
  repeat' (first
    | with_reducible assumption
    | intro _
    | with_reducible apply lockEnd_later | with_reducible apply takeReply_later
    | (split <;> rename_i e <;> first | (with_reducible refine Later.cut1 (s0 := s) e ?_ (fun _ => ?_) <;> clear e) | (with_reducible refine Later.cut2 (s0 := s) e ?_ (fun _ => ?_) <;> clear e) | skip)
    | fail_if_no_progress with_reducible apply Later.upd)

end Sys2Proof.Machine
end

