-- ==== Sys2Proof/Laws/LaterQueue.lean ====
section
/-!
SUPPORT. The operations of Machine/Queue.lean keep `Later`.
-/

set_option linter.unusedTactic false
set_option linter.unreachableTactic false

namespace Sys2Proof.Machine

theorem faultIf_later {s0 : State} {s : State} (c : Nat) (det : Option (Nat × Nat)) (hl : Later s0 s) :
    Later s0 (faultIf s c det) := by
  unfold faultIf
  repeat' (first
    | with_reducible assumption
    | intro _
    | (extract_lets +onlyGivenNames x; clear_value (e : x = _); first | (with_reducible refine Later.cut (s0 := s0) e ?_ (fun _ => ?_) <;> clear e) | clear e)
    | with_reducible apply memFault_later
    | (split <;> rename_i e <;> first | (with_reducible refine Later.cut1 (s0 := s0) e ?_ (fun _ => ?_) <;> clear e) | (with_reducible refine Later.cut2 (s0 := s0) e ?_ (fun _ => ?_) <;> clear e) | (with_reducible refine Later.cut3 (s0 := s0) e ?_ (fun _ => ?_) <;> clear e) | skip)
    | fail_if_no_progress with_reducible apply Later.upd)

theorem pathOutcome_later {s0 : State} {s : State} (p : SendPath) (k : Nat) (a : Arrival) (hl : Later s0 s) :
    Later s0 (pathOutcome s p k a) := by
  unfold pathOutcome
  repeat' (first
    | with_reducible assumption
    | intro _
    | (extract_lets +onlyGivenNames x; clear_value (e : x = _); first | (with_reducible refine Later.cut (s0 := s0) e ?_ (fun _ => ?_) <;> clear e) | (with_reducible refine Later.cutF (s0 := s0) e ?_ (fun hg => ?_) <;> clear e) | (with_reducible refine Later.cutF1 (s0 := s0) e ?_ (fun hg => ?_) <;> clear e) | (with_reducible refine Later.cutF2 (s0 := s0) e ?_ (fun hg => ?_) <;> clear e) | (with_reducible refine Later.cutC (s0 := s0) e ?_ (fun hg => ?_) <;> clear e) | (with_reducible refine Later.cutFp (s0 := s0) e ?_ (fun hg => ?_) <;> clear e) | clear e)
    | with_reducible apply countPath_later | with_reducible apply setMember_later | with_reducible apply haltWithdraw_later
    | with_reducible apply hg
    | with_reducible apply Later.getD_none | with_reducible apply Later.getD_some
    | (split <;> rename_i e <;> first | (with_reducible refine Later.cut1 (s0 := s0) e ?_ (fun _ => ?_) <;> clear e) | (with_reducible refine Later.cut2 (s0 := s0) e ?_ (fun _ => ?_) <;> clear e) | (with_reducible refine Later.cut3 (s0 := s0) e ?_ (fun _ => ?_) <;> clear e) | skip)
    | fail_if_no_progress with_reducible apply Later.upd)

theorem execQueueMessageArrive_later (m : MsgRef) {s : State} :
    ∃ s', (execQueueMessageArrive m s) = .next s' ∧ Later s s' := by
  have hl := Later.refl s
  refine ⟨_, rfl, ?_⟩
  repeat' (first
    | with_reducible assumption
    | intro _
    | (extract_lets +onlyGivenNames x; clear_value (e : x = _); first | (with_reducible refine Later.cut (s0 := s) e ?_ (fun _ => ?_) <;> clear e) | clear e)
    | with_reducible apply arrive_later | with_reducible apply faultIf_later | with_reducible apply pathOutcome_later | with_reducible apply emit_later
    | (split <;> rename_i e <;> first | (with_reducible refine Later.cut1 (s0 := s) e ?_ (fun _ => ?_) <;> clear e) | (with_reducible refine Later.cut2 (s0 := s) e ?_ (fun _ => ?_) <;> clear e) | skip)
    | fail_if_no_progress with_reducible apply Later.upd)

theorem sendAgain_later {s0 : State} {s : State} (p : SendPath) (k : Nat) (st : MsgSt) (hl : Later s0 s) :
    Later s0 (sendAgain s p k st) := by
  unfold sendAgain
  repeat' (first
    | with_reducible assumption
    | intro _
    | (extract_lets +onlyGivenNames x; clear_value (e : x = _); first | (with_reducible refine Later.cut (s0 := s0) e ?_ (fun _ => ?_) <;> clear e) | clear e)
    | with_reducible apply setMember_later | with_reducible apply sendMember_later
    | (split <;> rename_i e <;> first | (with_reducible refine Later.cut1 (s0 := s0) e ?_ (fun _ => ?_) <;> clear e) | (with_reducible refine Later.cut2 (s0 := s0) e ?_ (fun _ => ?_) <;> clear e) | (with_reducible refine Later.cut3 (s0 := s0) e ?_ (fun _ => ?_) <;> clear e) | skip)
    | fail_if_no_progress with_reducible apply Later.upd)

theorem grantRefused_later {s0 : State} {s : State} (p : SendPath) (k : Nat) (d : MsgDest) (rtag : Nat) (hl : Later s0 s) :
    Later s0 (grantRefused s p k d rtag) := by
  unfold grantRefused
  repeat' (first
    | with_reducible assumption
    | intro _
    | (extract_lets +onlyGivenNames x; clear_value (e : x = _); first | (with_reducible refine Later.cut (s0 := s0) e ?_ (fun _ => ?_) <;> clear e) | clear e)
    | with_reducible apply unwait_later | with_reducible apply emit_later | with_reducible apply setMember_later | with_reducible apply dropSend_later
    | (split <;> rename_i e <;> first | (with_reducible refine Later.cut1 (s0 := s0) e ?_ (fun _ => ?_) <;> clear e) | (with_reducible refine Later.cut2 (s0 := s0) e ?_ (fun _ => ?_) <;> clear e) | (with_reducible refine Later.cut3 (s0 := s0) e ?_ (fun _ => ?_) <;> clear e) | skip)
    | fail_if_no_progress with_reducible apply Later.upd)

theorem execQueueGrantArrive_later (g : GrantRef) (rtag : Nat) {s : State} :
    ∃ s', (execQueueGrantArrive g rtag s) = .next s' ∧ Later s s' := by
  have hl := Later.refl s
  refine ⟨_, rfl, ?_⟩
  repeat' (first
    | with_reducible assumption
    | intro _
    | (extract_lets +onlyGivenNames x; clear_value (e : x = _); first | (with_reducible refine Later.cut (s0 := s) e ?_ (fun _ => ?_) <;> clear e) | (with_reducible refine Later.cutF (s0 := s) e ?_ (fun hg => ?_) <;> clear e) | (with_reducible refine Later.cutF1 (s0 := s) e ?_ (fun hg => ?_) <;> clear e) | (with_reducible refine Later.cutF2 (s0 := s) e ?_ (fun hg => ?_) <;> clear e) | (with_reducible refine Later.cutC (s0 := s) e ?_ (fun hg => ?_) <;> clear e) | (with_reducible refine Later.cutFp (s0 := s) e ?_ (fun hg => ?_) <;> clear e) | clear e)
    | with_reducible apply unwait_later | with_reducible apply grantRefused_later | with_reducible apply sendAgain_later | with_reducible apply countPath_later
    | with_reducible apply hg
    | (split <;> rename_i e <;> first | (with_reducible refine Later.cut1 (s0 := s) e ?_ (fun _ => ?_) <;> clear e) | (with_reducible refine Later.cut2 (s0 := s) e ?_ (fun _ => ?_) <;> clear e) | (with_reducible refine Later.cut3 (s0 := s) e ?_ (fun _ => ?_) <;> clear e) | skip)
    | fail_if_no_progress with_reducible apply Later.upd)

theorem execWaiterRetryTimer_later (p : SendPath) (k : Nat) {s : State} :
    ∃ s', (execWaiterRetryTimer p k s) = .next s' ∧ Later s s' := by
  have hl := Later.refl s
  refine ⟨_, rfl, ?_⟩
  repeat' (first
    | with_reducible assumption
    | intro _
    | (extract_lets +onlyGivenNames x; clear_value (e : x = _); first | (with_reducible refine Later.cut (s0 := s) e ?_ (fun _ => ?_) <;> clear e) | clear e)
    | with_reducible apply sendAgain_later
    | (split <;> rename_i e <;> first | (with_reducible refine Later.cut1 (s0 := s) e ?_ (fun _ => ?_) <;> clear e) | (with_reducible refine Later.cut2 (s0 := s) e ?_ (fun _ => ?_) <;> clear e) | (with_reducible refine Later.cut3 (s0 := s) e ?_ (fun _ => ?_) <;> clear e) | skip)
    | fail_if_no_progress with_reducible apply Later.upd)

theorem sendEnd_later {s0 : State} {s : State} (p : SendPath) (f : Send) (hl : Later s0 s) :
    Later s0 (sendEnd s p f) := by
  unfold sendEnd
  repeat' (first
    | with_reducible assumption
    | intro _
    | (extract_lets +onlyGivenNames x; clear_value (e : x = _); first | (with_reducible refine Later.cut (s0 := s0) e ?_ (fun _ => ?_) <;> clear e) | clear e)
    | with_reducible apply dropSend_later | with_reducible apply count_later | with_reducible apply qsendDone_later | with_reducible apply haltNow_later | with_reducible apply queKick_later | with_reducible apply queEnd_later | with_reducible apply launchSent_later | with_reducible apply emit_later
    | (split <;> rename_i e <;> first | (with_reducible refine Later.cut1 (s0 := s0) e ?_ (fun _ => ?_) <;> clear e) | (with_reducible refine Later.cut2 (s0 := s0) e ?_ (fun _ => ?_) <;> clear e) | (with_reducible refine Later.cut3 (s0 := s0) e ?_ (fun _ => ?_) <;> clear e) | skip)
    | fail_if_no_progress with_reducible apply Later.upd)

theorem afterOutcome_later {s0 : State} {s : State} (p : SendPath) (hl : Later s0 s) :
    Later s0 (afterOutcome s p) := by
  unfold afterOutcome
  repeat' (first
    | with_reducible assumption
    | intro _
    | with_reducible apply sendEnd_later | with_reducible apply haltWithdraw_later
    | split
    | fail_if_no_progress with_reducible apply Later.upd)

theorem execQueueMessageAnswer_later (p : SendPath) (ext : MsgAns) {s : State} :
    ∃ s', (execQueueMessageAnswer p ext s) = .next s' ∧ Later s s' := by
  have hl := Later.refl s
  refine ⟨_, rfl, ?_⟩
  repeat' (first
    | with_reducible assumption
    | intro _
    | with_reducible apply afterOutcome_later | with_reducible apply memberOutcome_later
    | split
    | fail_if_no_progress with_reducible apply Later.upd)

theorem execMcastMemberAnswer_later (p : SendPath) (k : Nat) (ext : MsgAns) {s : State} :
    ∃ s', (execMcastMemberAnswer p k ext s) = .next s' ∧ Later s s' := by
  have hl := Later.refl s
  refine ⟨_, rfl, ?_⟩
  repeat' (first
    | with_reducible assumption
    | intro _
    | with_reducible apply afterOutcome_later | with_reducible apply memberOutcome_later
    | split
    | fail_if_no_progress with_reducible apply Later.upd)

theorem execMcfwdArrive_later (m : FwdMsg) {s : State} :
    ∃ s', (execMcfwdArrive m s) = .next s' ∧ Later s s' := by
  have hl := Later.refl s
  refine ⟨_, rfl, ?_⟩
  repeat' (first
    | with_reducible assumption
    | intro _
    | (extract_lets +onlyGivenNames x; clear_value (e : x = _); first | (with_reducible refine Later.cut (s0 := s) e ?_ (fun _ => ?_) <;> clear e) | clear e)
    | with_reducible apply afterOutcome_later | with_reducible apply startSend_later | with_reducible apply emit_later
    | split
    | fail_if_no_progress with_reducible apply Later.upd)

theorem execSend_later (c : Nat) (i : Issue) (d : SendDesc) {s : State} :
    ∃ s', (execSend c i d s) = .next s' ∧ Later s s' := by
  have hl := Later.refl s
  refine ⟨_, rfl, ?_⟩
  repeat' (first | with_reducible assumption | with_reducible apply engRow_later | intro _)

theorem execEvpost_later (c : Nat) (i : Issue) (d : EvpostDesc) {s : State} :
    ∃ s', (execEvpost c i d s) = .next s' ∧ Later s s' := by
  have hl := Later.refl s
  refine ⟨_, rfl, ?_⟩
  repeat' (first | with_reducible assumption | with_reducible apply engRow_later | intro _)

theorem execMcset_later (c : Nat) (i : Issue) (d : McDesc) {s : State} :
    ∃ s', (execMcset c i d s) = .next s' ∧ Later s s' := by
  have hl := Later.refl s
  refine ⟨_, rfl, ?_⟩
  repeat' (first | with_reducible assumption | with_reducible apply engRow_later | intro _)

theorem execMcget_later (c : Nat) (i : Issue) (d : McDesc) {s : State} :
    ∃ s', (execMcget c i d s) = .next s' ∧ Later s s' := by
  have hl := Later.refl s
  refine ⟨_, rfl, ?_⟩
  repeat' (first | with_reducible assumption | with_reducible apply engRow_later | intro _)

theorem execEvpostArrive_later (e : EvpRef) {s : State} :
    ∃ s', (execEvpostArrive e s) = .next s' ∧ Later s s' := by
  have hl := Later.refl s
  refine ⟨_, rfl, ?_⟩
  repeat' (first
    | with_reducible assumption
    | intro _
    | (extract_lets +onlyGivenNames x; clear_value (e : x = _); first | (with_reducible refine Later.cut (s0 := s) e ?_ (fun _ => ?_) <;> clear e) | clear e)
    | with_reducible apply evpostAt_later | with_reducible apply modCore_later | with_reducible apply emit_later
    | (split <;> rename_i e <;> first | (with_reducible refine Later.cut1 (s0 := s) e ?_ (fun _ => ?_) <;> clear e) | (with_reducible refine Later.cut2 (s0 := s) e ?_ (fun _ => ?_) <;> clear e) | (with_reducible refine Later.cut3 (s0 := s) e ?_ (fun _ => ?_) <;> clear e) | skip)
    | fail_if_no_progress with_reducible apply Later.upd)

theorem evpostAnswer_later {s0 : State} {s : State} (c : Nat) (status : Nat) (hl : Later s0 s) :
    Later s0 (evpostAnswer s c status) := by
  unfold evpostAnswer
  repeat' (first
    | with_reducible assumption
    | intro _
    | with_reducible apply queKick_later | with_reducible apply queEnd_later
    | split
    | fail_if_no_progress with_reducible apply Later.upd)

theorem execEvpostAnswer_later (c : Nat) (status : Nat) {s : State} :
    ∃ s', (execEvpostAnswer c status s) = .next s' ∧ Later s s' := by
  have hl := Later.refl s
  refine ⟨_, rfl, ?_⟩
  repeat' (first | with_reducible assumption | with_reducible apply evpostAnswer_later | intro _)

theorem execMcsetComplete_later (c : Nat) {s : State} :
    ∃ s', (execMcsetComplete c s) = .next s' ∧ Later s s' := by
  have hl := Later.refl s
  refine ⟨_, rfl, ?_⟩
  repeat' (first
    | with_reducible assumption
    | intro _
    | (extract_lets +onlyGivenNames x; clear_value (e : x = _); first | (with_reducible refine Later.cut (s0 := s) e ?_ (fun _ => ?_) <;> clear e) | clear e)
    | with_reducible apply spRead_later | with_reducible apply queKick_later | with_reducible apply queEnd_later
    | (split <;> rename_i e <;> first | (with_reducible refine Later.cut1 (s0 := s) e ?_ (fun _ => ?_) <;> clear e) | (with_reducible refine Later.cut2 (s0 := s) e ?_ (fun _ => ?_) <;> clear e) | (with_reducible refine Later.cut3 (s0 := s) e ?_ (fun _ => ?_) <;> clear e) | skip)
    | fail_if_no_progress with_reducible apply Later.upd)

end Sys2Proof.Machine
end

