-- ==== Sys2Proof/Laws/LaterLinks.lean ====
section
/-!
SUPPORT. The operations of Machine/Links.lean keep `Later`.
-/

set_option linter.unusedTactic false
set_option linter.unreachableTactic false

namespace Sys2Proof.Machine

theorem steerLane_later {s0 s u : State} (p dir k : Nat) (hl : Later s0 s) (e : steerLane s p dir k = some u) : Later s0 u := by
  unfold steerLane at e
  repeat' (first
    | with_reducible assumption
    | contradiction
    | (injection e with e; subst e)
    | (extract_lets +onlyGivenNames x at e; first | (clear_value (w : x = _); with_reducible refine Later.cut (s0 := s0) w ?_ (fun _ => ?_) <;> clear w) | clear_value x)
    | with_reducible apply defectFound_later | with_reducible apply modPort_later | with_reducible apply modLinks_later
    | split at e)

theorem steerLanes_later {s0 s u : State} (p : Nat) (ks : List (Nat × Nat)) (hl : Later s0 s) (e : steerLanes s p ks = some u) : Later s0 u := by
  induction ks generalizing s with
  | nil => injection e with e; exact e ▸ hl
  | cons k ks ih =>
    unfold steerLanes at e
    split at e
    · contradiction
    · next h => exact ih (steerLane_later p _ _ hl h) e

theorem execPortTrainingDone_later (p : Nat) (r : TrainResult) {s : State} :
    ∃ s', (execPortTrainingDone p r s) = .next s' ∧ Later s s' := by
  have hl := Later.refl s
  refine ⟨_, rfl, ?_⟩
  repeat' (first
    | with_reducible assumption
    | exact steerLanes_later _ _ hl (by assumption)
    | intro _
    | (extract_lets +onlyGivenNames x; clear_value (e : x = _); first | (with_reducible refine Later.cut (s0 := s) e ?_ (fun _ => ?_) <;> clear e) | clear e)
    | with_reducible apply setPortSt_later
    | (split <;> rename_i e <;> first | (with_reducible refine Later.cut1 (s0 := s) e ?_ (fun _ => ?_) <;> clear e) | (with_reducible refine Later.cut2 (s0 := s) e ?_ (fun _ => ?_) <;> clear e) | (with_reducible refine Later.cut3 (s0 := s) e ?_ (fun _ => ?_) <;> clear e) | skip)
    | fail_if_no_progress with_reducible apply Later.upd)

theorem execBerGateEnd_later (p : Nat) (lanes : List (Nat × Nat)) {s : State} :
    ∃ s', (execBerGateEnd p lanes s) = .next s' ∧ Later s s' := by
  have hl := Later.refl s
  refine ⟨_, rfl, ?_⟩
  repeat' (first
    | with_reducible assumption
    | intro _
    | (extract_lets +onlyGivenNames x; clear_value (e : x = _); first | (with_reducible refine Later.cut (s0 := s) e ?_ (fun _ => ?_) <;> clear e) | clear e)
    | with_reducible apply modPort_later | with_reducible apply setPortSt_later | with_reducible apply sealFrame_later | with_reducible apply emit_later | with_reducible apply raiseErr_later | with_reducible apply startFinds_later
    | (split <;> rename_i e <;> first | (with_reducible refine Later.cut1 (s0 := s) e ?_ (fun _ => ?_) <;> clear e) | (with_reducible refine Later.cut2 (s0 := s) e ?_ (fun _ => ?_) <;> clear e) | (with_reducible refine Later.cut3 (s0 := s) e ?_ (fun _ => ?_) <;> clear e) | skip)
    | fail_if_no_progress with_reducible apply Later.upd)

theorem execTrainFrame_later (p : Nat) (x : TrainFrame) {s : State} :
    ∃ s', (execTrainFrame p x s) = .next s' ∧ Later s s' := by
  have hl := Later.refl s
  refine ⟨_, rfl, ?_⟩
  repeat' (first
    | with_reducible assumption
    | intro _
    | (extract_lets +onlyGivenNames x; clear_value (e : x = _); first | (with_reducible refine Later.cut (s0 := s) e ?_ (fun _ => ?_) <;> clear e) | clear e)
    | with_reducible apply tagFail_later | with_reducible apply malformed_later | with_reducible apply violationNak_later | with_reducible apply sendNak_later | with_reducible apply setPortSt_later | with_reducible apply modPort_later
    | with_reducible apply Later.getD_none | with_reducible apply Later.getD_some
    | (split <;> rename_i e <;> first | (with_reducible refine Later.cut1 (s0 := s) e ?_ (fun _ => ?_) <;> clear e) | (with_reducible refine Later.cut2 (s0 := s) e ?_ (fun _ => ?_) <;> clear e) | (with_reducible refine Later.cut3 (s0 := s) e ?_ (fun _ => ?_) <;> clear e) | skip)
    | fail_if_no_progress with_reducible apply Later.upd)

theorem execBerWindowEnd_later (p : Nat) (errors : Nat) (bits : Nat) (uncor : Nat) {s : State} :
    ∃ s', (execBerWindowEnd p errors bits uncor s) = .next s' ∧ Later s s' := by
  have hl := Later.refl s
  refine ⟨_, rfl, ?_⟩
  repeat' (first
    | with_reducible assumption
    | intro _
    | (extract_lets +onlyGivenNames x; clear_value (e : x = _); first | (with_reducible refine Later.cut (s0 := s) e ?_ (fun _ => ?_) <;> clear e) | clear e)
    | with_reducible apply modPort_later | with_reducible apply portReset_later
    | split
    | fail_if_no_progress with_reducible apply Later.upd)

theorem execPortSignalLoss_later (p : Nat) {s : State} :
    ∃ s', (execPortSignalLoss p s) = .next s' ∧ Later s s' := by
  have hl := Later.refl s
  refine ⟨_, rfl, ?_⟩
  repeat' (first
    | with_reducible assumption
    | intro _
    | with_reducible apply portLeave_later
    | split)

theorem execPortRetrainTimer_later (p : Nat) {s : State} :
    ∃ s', (execPortRetrainTimer p s) = .next s' ∧ Later s s' := by
  have hl := Later.refl s
  refine ⟨_, rfl, ?_⟩
  repeat' (first
    | with_reducible assumption
    | intro _
    | with_reducible apply startTraining_later
    | split)

theorem setUpModule_later {s0 : State} {s : State} (p : Nat) (hl : Later s0 s) :
    Later s0 (setUpModule s p) := by
  unfold setUpModule
  repeat' (first
    | with_reducible assumption
    | intro _
    | (extract_lets +onlyGivenNames x; clear_value (e : x = _); first | (with_reducible refine Later.cut (s0 := s0) e ?_ (fun _ => ?_) <;> clear e) | (with_reducible refine Later.cutF (s0 := s0) e ?_ (fun hg => ?_) <;> clear e) | (with_reducible refine Later.cutF1 (s0 := s0) e ?_ (fun hg => ?_) <;> clear e) | (with_reducible refine Later.cutF2 (s0 := s0) e ?_ (fun hg => ?_) <;> clear e) | (with_reducible refine Later.cutC (s0 := s0) e ?_ (fun hg => ?_) <;> clear e) | (with_reducible refine Later.cutFp (s0 := s0) e ?_ (fun hg => ?_) <;> clear e) | clear e)
    | with_reducible apply emit_later | with_reducible apply modPort_later
    | with_reducible apply hg
    | with_reducible apply Later.foldl | with_reducible apply Later.foldl1 | with_reducible apply Later.foldl2
    | (split <;> rename_i e <;> first | (with_reducible refine Later.cut1 (s0 := s0) e ?_ (fun _ => ?_) <;> clear e) | (with_reducible refine Later.cut2 (s0 := s0) e ?_ (fun _ => ?_) <;> clear e) | (with_reducible refine Later.cut3 (s0 := s0) e ?_ (fun _ => ?_) <;> clear e) | skip)
    | fail_if_no_progress with_reducible apply Later.upd)

theorem execCmisPoll_later (l : Nat) (ms : List (Option CmisStatus)) {s : State} :
    ∃ s', (execCmisPoll l ms s) = .next s' ∧ Later s s' := by
  have hl := Later.refl s
  refine ⟨_, rfl, ?_⟩
  repeat' (first
    | with_reducible assumption
    | intro _
    | (extract_lets +onlyGivenNames x; clear_value (e : x = _); first | (with_reducible refine Later.cut (s0 := s) e ?_ (fun _ => ?_) <;> clear e) | clear e)
    | with_reducible apply modPort_later | with_reducible apply setUpModule_later | with_reducible apply portLeave_later
    | with_reducible apply Later.foldl | with_reducible apply Later.foldl1 | with_reducible apply Later.foldl2
    | (split <;> rename_i e <;> first | (with_reducible refine Later.cut1 (s0 := s) e ?_ (fun _ => ?_) <;> clear e) | (with_reducible refine Later.cut2 (s0 := s) e ?_ (fun _ => ?_) <;> clear e) | (with_reducible refine Later.cut3 (s0 := s) e ?_ (fun _ => ?_) <;> clear e) | skip)
    | fail_if_no_progress with_reducible apply Later.upd)

theorem answerFrame_later {s0 : State} {s : State} (p : Nat) (hl : Later s0 s) :
    Later s0 (answerFrame s p) := by
  unfold answerFrame
  repeat' (first
    | with_reducible assumption
    | intro _
    | (extract_lets +onlyGivenNames x; clear_value (e : x = _); first | (with_reducible refine Later.cut (s0 := s0) e ?_ (fun _ => ?_) <;> clear e) | clear e)
    | with_reducible apply txPump_later | with_reducible apply sendIdle_later
    | split)

theorem execDataFrame_later (p : Nat) (f : Frame) {s : State} :
    ∃ s', (execDataFrame p f s) = .next s' ∧ Later s s' := by
  have hl := Later.refl s
  refine ⟨_, rfl, ?_⟩
  repeat' (first
    | with_reducible assumption
    | intro _
    | (extract_lets +onlyGivenNames x; clear_value (e : x = _); first | (with_reducible refine Later.cut (s0 := s) e ?_ (fun _ => ?_) <;> clear e) | clear e)
    | with_reducible apply frameChecks_later | with_reducible apply askReplay_later | with_reducible apply modPort_later | with_reducible apply takeCred_later | with_reducible apply takeAck_later | with_reducible apply countShared_later | with_reducible apply answerFrame_later | with_reducible apply rxFlits_later
    | (split <;> rename_i e <;> first | (with_reducible refine Later.cut1 (s0 := s) e ?_ (fun _ => ?_) <;> clear e) | (with_reducible refine Later.cut2 (s0 := s) e ?_ (fun _ => ?_) <;> clear e) | skip)
    | fail_if_no_progress with_reducible apply Later.upd)

theorem execIdleFrame_later (p : Nat) (f : Frame) {s : State} :
    ∃ s', (execIdleFrame p f s) = .next s' ∧ Later s s' := by
  have hl := Later.refl s
  refine ⟨_, rfl, ?_⟩
  repeat' (first
    | with_reducible assumption
    | intro _
    | (extract_lets +onlyGivenNames x; clear_value (e : x = _); first | (with_reducible refine Later.cut (s0 := s) e ?_ (fun _ => ?_) <;> clear e) | clear e)
    | with_reducible apply frameChecks_later | with_reducible apply takeCred_later | with_reducible apply takeAck_later | with_reducible apply txPump_later
    | (split <;> rename_i e <;> first | (with_reducible refine Later.cut1 (s0 := s) e ?_ (fun _ => ?_) <;> clear e) | (with_reducible refine Later.cut2 (s0 := s) e ?_ (fun _ => ?_) <;> clear e) | skip))

theorem execNakFrame_later (p : Nat) (f : Frame) {s : State} :
    ∃ s', (execNakFrame p f s) = .next s' ∧ Later s s' := by
  have hl := Later.refl s
  refine ⟨_, rfl, ?_⟩
  repeat' (first
    | with_reducible assumption
    | intro _
    | (extract_lets +onlyGivenNames x; clear_value (e : x = _); first | (with_reducible refine Later.cut (s0 := s) e ?_ (fun _ => ?_) <;> clear e) | clear e)
    | with_reducible apply frameChecks_later | with_reducible apply takeCred_later | with_reducible apply takeAck_later | with_reducible apply countShared_later | with_reducible apply modPort_later | with_reducible apply replayFrom_later
    | (split <;> rename_i e <;> first | (with_reducible refine Later.cut1 (s0 := s) e ?_ (fun _ => ?_) <;> clear e) | (with_reducible refine Later.cut2 (s0 := s) e ?_ (fun _ => ?_) <;> clear e) | skip)
    | fail_if_no_progress with_reducible apply Later.upd)

theorem execReplayTimeout_later (p : Nat) {s : State} :
    ∃ s', (execReplayTimeout p s) = .next s' ∧ Later s s' := by
  have hl := Later.refl s
  refine ⟨_, rfl, ?_⟩
  repeat' (first
    | with_reducible assumption
    | intro _
    | with_reducible apply replayFrom_later
    | split
    | fail_if_no_progress with_reducible apply Later.upd)

theorem execBeaconSend_later (p : Nat) {s : State} :
    ∃ s', (execBeaconSend p s) = .next s' ∧ Later s s' := by
  have hl := Later.refl s
  refine ⟨_, rfl, ?_⟩
  repeat' (first
    | with_reducible assumption
    | intro _
    | (extract_lets +onlyGivenNames x; clear_value (e : x = _); first | (with_reducible refine Later.cut (s0 := s) e ?_ (fun _ => ?_) <;> clear e) | clear e)
    | with_reducible apply stampFrame_later | with_reducible apply emit_later | with_reducible apply countShared_later
    | (split <;> rename_i e <;> first | (with_reducible refine Later.cut1 (s0 := s) e ?_ (fun _ => ?_) <;> clear e) | (with_reducible refine Later.cut2 (s0 := s) e ?_ (fun _ => ?_) <;> clear e) | (with_reducible refine Later.cut3 (s0 := s) e ?_ (fun _ => ?_) <;> clear e) | skip)
    | fail_if_no_progress with_reducible apply Later.upd)

theorem execBeaconFrame_later (p : Nat) (x : BeaconFrame) {s : State} :
    ∃ s', (execBeaconFrame p x s) = .next s' ∧ Later s s' := by
  have hl := Later.refl s
  refine ⟨_, rfl, ?_⟩
  repeat' (first
    | with_reducible assumption
    | intro _
    | (extract_lets +onlyGivenNames x; clear_value (e : x = _); first | (with_reducible refine Later.cut (s0 := s) e ?_ (fun _ => ?_) <;> clear e) | clear e)
    | with_reducible apply frameChecks_later | with_reducible apply takeCred_later | with_reducible apply takeAck_later | with_reducible apply chooseUpstream_later | with_reducible apply modPort_later | with_reducible apply modEch_later
    | (split <;> rename_i e <;> first | (with_reducible refine Later.cut1 (s0 := s) e ?_ (fun _ => ?_) <;> clear e) | (with_reducible refine Later.cut2 (s0 := s) e ?_ (fun _ => ?_) <;> clear e) | (with_reducible refine Later.cut3 (s0 := s) e ?_ (fun _ => ?_) <;> clear e) | skip)
    | fail_if_no_progress with_reducible apply Later.upd)

theorem execKeyFrame_later (p : Nat) (f : Frame) {s : State} :
    ∃ s', (execKeyFrame p f s) = .next s' ∧ Later s s' := by
  have hl := Later.refl s
  refine ⟨_, rfl, ?_⟩
  repeat' (first
    | with_reducible assumption
    | intro _
    | (extract_lets +onlyGivenNames x; clear_value (e : x = _); first | (with_reducible refine Later.cut (s0 := s) e ?_ (fun _ => ?_) <;> clear e) | (with_reducible refine Later.cutF (s0 := s) e ?_ (fun hg => ?_) <;> clear e) | (with_reducible refine Later.cutF1 (s0 := s) e ?_ (fun hg => ?_) <;> clear e) | (with_reducible refine Later.cutF2 (s0 := s) e ?_ (fun hg => ?_) <;> clear e) | (with_reducible refine Later.cutC (s0 := s) e ?_ (fun hg => ?_) <;> clear e) | clear e)
    | with_reducible apply hg
    | with_reducible apply frameChecks_later | with_reducible apply takeCred_later | with_reducible apply takeAck_later | with_reducible apply modLinks_later | with_reducible apply modPort_later | with_reducible apply stampFrame_later | with_reducible apply sendFrame_later
    | (split <;> rename_i e <;> first | (with_reducible refine Later.cut1 (s0 := s) e ?_ (fun _ => ?_) <;> clear e) | (with_reducible refine Later.cut2 (s0 := s) e ?_ (fun _ => ?_) <;> clear e) | skip)
    | fail_if_no_progress with_reducible apply Later.upd)

theorem execLinkPacketRoute_later (i : LinkInput) (planeB : Bool) (k : LinkPkt) {s : State} :
    ∃ s', (execLinkPacketRoute i planeB k s) = .next s' ∧ Later s s' := by
  have hl := Later.refl s
  refine ⟨_, rfl, ?_⟩
  repeat' (first
    | with_reducible assumption
    | intro _
    | (extract_lets +onlyGivenNames x; clear_value (e : x = _); first | (with_reducible refine Later.cut (s0 := s) e ?_ (fun _ => ?_) <;> clear e) | clear e)
    | with_reducible apply routePkt_later
    | (split <;> rename_i e <;> first | (with_reducible refine Later.cut1 (s0 := s) e ?_ (fun _ => ?_) <;> clear e) | (with_reducible refine Later.cut2 (s0 := s) e ?_ (fun _ => ?_) <;> clear e) | (with_reducible refine Later.cut3 (s0 := s) e ?_ (fun _ => ?_) <;> clear e) | skip)
    | fail_if_no_progress with_reducible apply Later.upd)

theorem execStallTimeout_later (p v : Nat) {s : State} :
    ∃ s', (execStallTimeout p v s) = .next s' ∧ Later s s' := by
  have hl := Later.refl s
  refine ⟨_, rfl, ?_⟩
  repeat' (first
    | with_reducible assumption
    | intro _
    | (extract_lets +onlyGivenNames x; clear_value (e : x = _); first | (with_reducible refine Later.cut (s0 := s) e ?_ (fun _ => ?_) <;> clear e) | clear e)
    | with_reducible apply endShort_later | with_reducible apply modPort_later
    | (split <;> rename_i e <;> first | (with_reducible refine Later.cut1 (s0 := s) e ?_ (fun _ => ?_) <;> clear e) | (with_reducible refine Later.cut2 (s0 := s) e ?_ (fun _ => ?_) <;> clear e) | (with_reducible refine Later.cut3 (s0 := s) e ?_ (fun _ => ?_) <;> clear e) | skip)
    | fail_if_no_progress with_reducible apply Later.upd)

theorem execRemoteTimeout_later (r : RemoteRef) {s : State} :
    ∃ s', (execRemoteTimeout r s) = .next s' ∧ Later s s' := by
  have hl := Later.refl s
  refine ⟨_, rfl, ?_⟩
  repeat' (first
    | with_reducible assumption
    | intro _
    | (extract_lets +onlyGivenNames x; clear_value (e : x = _); first | (with_reducible refine Later.cut (s0 := s) e ?_ (fun _ => ?_) <;> clear e) | (with_reducible refine Later.cutF (s0 := s) e ?_ (fun hg => ?_) <;> clear e) | (with_reducible refine Later.cutF1 (s0 := s) e ?_ (fun hg => ?_) <;> clear e) | (with_reducible refine Later.cutF2 (s0 := s) e ?_ (fun hg => ?_) <;> clear e) | (with_reducible refine Later.cutC (s0 := s) e ?_ (fun hg => ?_) <;> clear e) | (with_reducible refine Later.cutFp (s0 := s) e ?_ (fun hg => ?_) <;> clear e) | clear e)
    | with_reducible apply burstAck_later | with_reducible apply modDma_later | with_reducible apply notifyAnswer_later | with_reducible apply streamOutAnswer_later | with_reducible apply afterOutcome_later | with_reducible apply memberOutcome_later | with_reducible apply evpostAnswer_later | with_reducible apply lockEnd_later
    | with_reducible apply hg
    | (split <;> rename_i e <;> first | (with_reducible refine Later.cut1 (s0 := s) e ?_ (fun _ => ?_) <;> clear e) | (with_reducible refine Later.cut2 (s0 := s) e ?_ (fun _ => ?_) <;> clear e) | (with_reducible refine Later.cut3 (s0 := s) e ?_ (fun _ => ?_) <;> clear e) | skip)
    | fail_if_no_progress with_reducible apply Later.upd)

theorem ethRelease_later {s0 : State} {s : State} (b peer psn : Nat) (hl : Later s0 s) :
    Later s0 (ethRelease s b peer psn) := by
  unfold ethRelease
  repeat' (first
    | with_reducible assumption
    | intro _
    | (extract_lets +onlyGivenNames x; clear_value (e : x = _); first | (with_reducible refine Later.cut (s0 := s0) e ?_ (fun _ => ?_) <;> clear e) | clear e)
    | with_reducible apply modConn_later
    | (split <;> rename_i e <;> first | (with_reducible refine Later.cut1 (s0 := s0) e ?_ (fun _ => ?_) <;> clear e) | (with_reducible refine Later.cut2 (s0 := s0) e ?_ (fun _ => ?_) <;> clear e) | (with_reducible refine Later.cut3 (s0 := s0) e ?_ (fun _ => ?_) <;> clear e) | skip)
    | fail_if_no_progress with_reducible apply Later.upd)

theorem ethAnswered_later {s0 : State} {s : State} (b peer : Nat) (k : LinkPkt) (hl : Later s0 s) :
    Later s0 (ethAnswered s b peer k) := by
  unfold ethAnswered
  repeat' (first
    | with_reducible assumption
    | intro _
    | (extract_lets +onlyGivenNames x; clear_value (e : x = _); first | (with_reducible refine Later.cut (s0 := s0) e ?_ (fun _ => ?_) <;> clear e) | clear e)
    | with_reducible apply modConn_later
    | (split <;> rename_i e <;> first | (with_reducible refine Later.cut1 (s0 := s0) e ?_ (fun _ => ?_) <;> clear e) | (with_reducible refine Later.cut2 (s0 := s0) e ?_ (fun _ => ?_) <;> clear e) | (with_reducible refine Later.cut3 (s0 := s0) e ?_ (fun _ => ?_) <;> clear e) | skip)
    | fail_if_no_progress with_reducible apply Later.upd)

theorem ethResend_later {s0 : State} {s : State} (b peer : Nat) (hl : Later s0 s) :
    Later s0 (ethResend s b peer) := by
  unfold ethResend
  repeat' (first
    | with_reducible assumption
    | intro _
    | (extract_lets +onlyGivenNames x; clear_value (e : x = _); first | (with_reducible refine Later.cut (s0 := s0) e ?_ (fun _ => ?_) <;> clear e) | clear e)
    | with_reducible apply refusePkt_later | with_reducible apply modConn_later | with_reducible apply raiseEvent_later | with_reducible apply emit_later | with_reducible apply sprayed_later
    | with_reducible apply Later.foldl | with_reducible apply Later.foldl1 | with_reducible apply Later.foldl2
    | (split <;> rename_i e <;> first | (with_reducible refine Later.cut1 (s0 := s0) e ?_ (fun _ => ?_) <;> clear e) | (with_reducible refine Later.cut2 (s0 := s0) e ?_ (fun _ => ?_) <;> clear e) | (with_reducible refine Later.cut3 (s0 := s0) e ?_ (fun _ => ?_) <;> clear e) | skip)
    | fail_if_no_progress with_reducible apply Later.upd)

theorem ethAck_later {s0 : State} {s : State} (b peer : Nat) (hl : Later s0 s) :
    Later s0 (ethAck s b peer) := by
  unfold ethAck
  repeat' (first
    | with_reducible assumption
    | intro _
    | (extract_lets +onlyGivenNames x; clear_value (e : x = _); first | (with_reducible refine Later.cut (s0 := s0) e ?_ (fun _ => ?_) <;> clear e) | clear e)
    | with_reducible apply ethCtl_later | with_reducible apply modConn_later
    | (split <;> rename_i e <;> first | (with_reducible refine Later.cut1 (s0 := s0) e ?_ (fun _ => ?_) <;> clear e) | (with_reducible refine Later.cut2 (s0 := s0) e ?_ (fun _ => ?_) <;> clear e) | (with_reducible refine Later.cut3 (s0 := s0) e ?_ (fun _ => ?_) <;> clear e) | skip)
    | fail_if_no_progress with_reducible apply Later.upd)

theorem ethAlive_later {s0 : State} {s : State} (b : Nat) (peer : Nat) (hl : Later s0 s) :
    Later s0 (ethAlive s b peer) := by
  unfold ethAlive
  repeat' (first
    | with_reducible assumption
    | intro _
    | with_reducible apply modConn_later
    | fail_if_no_progress with_reducible apply Later.upd)

theorem execEthDataPacket_later (p b peer : Nat) (e : EthPkt) {s : State} :
    ∃ s', (execEthDataPacket p b peer e s) = .next s' ∧ Later s s' := by
  have hl := Later.refl s
  refine ⟨_, rfl, ?_⟩
  repeat' (first
    | with_reducible assumption
    | intro _
    | (extract_lets +onlyGivenNames x; clear_value (e : x = _); first | (with_reducible refine Later.cut (s0 := s) e ?_ (fun _ => ?_) <;> clear e) | clear e)
    | with_reducible apply modPort_later | with_reducible apply ethRelease_later | with_reducible apply ethAlive_later | with_reducible apply countShared_later | with_reducible apply modConn_later | with_reducible apply ethCtl_later | with_reducible apply violation_later | with_reducible apply refusePkt_later | with_reducible apply emit_later | with_reducible apply ethAnswered_later | with_reducible apply ethAck_later
    | (split <;> rename_i e <;> first | (with_reducible refine Later.cut1 (s0 := s) e ?_ (fun _ => ?_) <;> clear e) | (with_reducible refine Later.cut2 (s0 := s) e ?_ (fun _ => ?_) <;> clear e) | (with_reducible refine Later.cut3 (s0 := s) e ?_ (fun _ => ?_) <;> clear e) | skip)
    | fail_if_no_progress with_reducible apply Later.upd)

theorem execEthAck_later (b : Nat) (peer : Nat) (apsn : Nat) {s : State} :
    ∃ s', (execEthAck b peer apsn s) = .next s' ∧ Later s s' := by
  have hl := Later.refl s
  refine ⟨_, rfl, ?_⟩
  repeat' (first | with_reducible assumption | with_reducible apply ethRelease_later | with_reducible apply ethAlive_later | intro _)

theorem execEthNak_later (b : Nat) (peer : Nat) (psn : Nat) {s : State} :
    ∃ s', (execEthNak b peer psn s) = .next s' ∧ Later s s' := by
  have hl := Later.refl s
  refine ⟨_, rfl, ?_⟩
  repeat' (first | with_reducible assumption | with_reducible apply ethResend_later | with_reducible apply ethRelease_later | with_reducible apply ethAlive_later | intro _)

theorem execEthAckTimer_later (b : Nat) (peer : Nat) {s : State} :
    ∃ s', (execEthAckTimer b peer s) = .next s' ∧ Later s s' := by
  have hl := Later.refl s
  refine ⟨_, rfl, ?_⟩
  repeat' (first
    | with_reducible assumption
    | intro _
    | with_reducible apply ethAck_later
    | split)

theorem execEthRto_later (b : Nat) (peer : Nat) {s : State} :
    ∃ s', (execEthRto b peer s) = .next s' ∧ Later s s' := by
  have hl := Later.refl s
  refine ⟨_, rfl, ?_⟩
  repeat' (first | with_reducible assumption | with_reducible apply ethResend_later | intro _)

theorem execCnp_later (b peer mfrac : Nat) {s : State} :
    ∃ s', (execCnp b peer mfrac s) = .next s' ∧ Later s s' := by
  have hl := Later.refl s
  refine ⟨_, rfl, ?_⟩
  repeat' (first
    | with_reducible assumption
    | intro _
    | (extract_lets +onlyGivenNames x; clear_value (e : x = _); first | (with_reducible refine Later.cut (s0 := s) e ?_ (fun _ => ?_) <;> clear e) | (with_reducible refine Later.cutF (s0 := s) e ?_ (fun hg => ?_) <;> clear e) | (with_reducible refine Later.cutF1 (s0 := s) e ?_ (fun hg => ?_) <;> clear e) | (with_reducible refine Later.cutF2 (s0 := s) e ?_ (fun hg => ?_) <;> clear e) | (with_reducible refine Later.cutC (s0 := s) e ?_ (fun hg => ?_) <;> clear e) | (with_reducible refine Later.cutFp (s0 := s) e ?_ (fun hg => ?_) <;> clear e) | clear e)
    | with_reducible apply ethAlive_later | with_reducible apply countShared_later | with_reducible apply modConn_later
    | with_reducible apply hg
    | with_reducible apply Later.foldl | with_reducible apply Later.foldl1 | with_reducible apply Later.foldl2
    | (split <;> rename_i e <;> first | (with_reducible refine Later.cut1 (s0 := s) e ?_ (fun _ => ?_) <;> clear e) | (with_reducible refine Later.cut2 (s0 := s) e ?_ (fun _ => ?_) <;> clear e) | (with_reducible refine Later.cut3 (s0 := s) e ?_ (fun _ => ?_) <;> clear e) | skip)
    | fail_if_no_progress with_reducible apply Later.upd)

theorem execCnpIntervalEnd_later (b peer : Nat) {s : State} :
    ∃ s', (execCnpIntervalEnd b peer s) = .next s' ∧ Later s s' := by
  have hl := Later.refl s
  refine ⟨_, rfl, ?_⟩
  repeat' (first
    | with_reducible assumption
    | intro _
    | (extract_lets +onlyGivenNames x; clear_value (e : x = _); first | (with_reducible refine Later.cut (s0 := s) e ?_ (fun _ => ?_) <;> clear e) | clear e)
    | with_reducible apply modConn_later | with_reducible apply countShared_later | with_reducible apply ethCtl_later
    | (split <;> rename_i e <;> first | (with_reducible refine Later.cut1 (s0 := s) e ?_ (fun _ => ?_) <;> clear e) | (with_reducible refine Later.cut2 (s0 := s) e ?_ (fun _ => ?_) <;> clear e) | (with_reducible refine Later.cut3 (s0 := s) e ?_ (fun _ => ?_) <;> clear e) | skip)
    | fail_if_no_progress with_reducible apply Later.upd)

theorem execRateIncreaseTimer_later (b : Nat) (peer : Nat) {s : State} :
    ∃ s', (execRateIncreaseTimer b peer s) = .next s' ∧ Later s s' := by
  have hl := Later.refl s
  refine ⟨_, rfl, ?_⟩
  repeat' (first
    | with_reducible assumption
    | intro _
    | with_reducible apply modConn_later
    | split
    | fail_if_no_progress with_reducible apply Later.upd)

theorem execNeighbourSolicitation_later (b : Nat) (target : Bytes) {s : State} :
    ∃ s', (execNeighbourSolicitation b target s) = .next s' ∧ Later s s' := by
  have hl := Later.refl s
  refine ⟨_, rfl, ?_⟩
  repeat' (first
    | with_reducible assumption
    | intro _
    | (extract_lets +onlyGivenNames x; clear_value (e : x = _); first | (with_reducible refine Later.cut (s0 := s) e ?_ (fun _ => ?_) <;> clear e) | clear e)
    | with_reducible apply emit_later
    | split)

theorem departed_later {s0 : State} {s : State} (d : Nat) (hl : Later s0 s) :
    Later s0 (departed s d) := by
  unfold departed
  repeat' (first
    | with_reducible assumption
    | intro _
    | (extract_lets +onlyGivenNames x; clear_value (e : x = _); first | (with_reducible refine Later.cut (s0 := s0) e ?_ (fun _ => ?_) <;> clear e) | clear e)
    | with_reducible apply locksLost_later | with_reducible apply notifyPart_later | with_reducible apply raiseEvent_later
    | with_reducible apply Later.foldl
    | split)

theorem execEpochSwitch_later {s : State} :
    ∃ s', (execEpochSwitch s) = .next s' ∧ Later s s' := by
  have hl := Later.refl s
  refine ⟨_, rfl, ?_⟩
  repeat' (first
    | with_reducible assumption
    | intro _
    | (extract_lets +onlyGivenNames x; clear_value (e : x = _); first | (with_reducible refine Later.cut (s0 := s) e ?_ (fun _ => ?_) <;> clear e) | clear e)
    | with_reducible apply modLinks_later | with_reducible apply endAsync_later | with_reducible apply departed_later
    | with_reducible apply Later.foldl | with_reducible apply Later.foldl1 | with_reducible apply Later.foldl2
    | (split <;> rename_i e <;> first | (with_reducible refine Later.cut1 (s0 := s) e ?_ (fun _ => ?_) <;> clear e) | (with_reducible refine Later.cut2 (s0 := s) e ?_ (fun _ => ?_) <;> clear e) | (with_reducible refine Later.cut3 (s0 := s) e ?_ (fun _ => ?_) <;> clear e) | skip)
    | fail_if_no_progress with_reducible apply Later.upd)

theorem execEpochHoldExpire_later {s : State} :
    ∃ s', (execEpochHoldExpire s) = .next s' ∧ Later s s' := by
  have hl := Later.refl s
  refine ⟨_, rfl, ?_⟩
  repeat' (first
    | with_reducible assumption
    | intro _
    | with_reducible apply modLinks_later
    | fail_if_no_progress with_reducible apply Later.upd)

end Sys2Proof.Machine
end

