-- ==== Sys2Proof/Laws/LaterWaking.lean ====
section
/-!
SUPPORT. The operations of Machine/Waking.lean keep `Later`.
-/

set_option linter.unusedTactic false
set_option linter.unreachableTactic false

namespace Sys2Proof.Machine

theorem execColdRstRelease_later (lowNs : Nat) {s : State} :
    ∃ s', (execColdRstRelease lowNs s) = .next s' ∧ Later s s' := by
  have hl := Later.refl s
  refine ⟨_, rfl, ?_⟩
  repeat' (first
    | with_reducible assumption
    | intro _
    | with_reducible apply coldStart_later
    | split)

theorem execWarmRstRelease_later (lowNs : Nat) {s : State} :
    ∃ s', (execWarmRstRelease lowNs s) = .next s' ∧ Later s s' := by
  have hl := Later.refl s
  refine ⟨_, rfl, ?_⟩
  repeat' (first
    | with_reducible assumption
    | intro _
    | with_reducible apply warmStart_later
    | split)

theorem execColdStartStageEnd_later (o : StageOutcome) {s : State} :
    ∃ s', (execColdStartStageEnd o s) = .next s' ∧ Later s s' := by
  have hl := Later.refl s
  refine ⟨_, rfl, ?_⟩
  repeat' (first
    | with_reducible assumption
    | intro _
    | with_reducible apply coldStageEnd_later
    | split)

theorem execStartStageDeadline_later {s : State} :
    ∃ s', (execStartStageDeadline s) = .next s' ∧ Later s s' := by
  have hl := Later.refl s
  refine ⟨_, rfl, ?_⟩
  repeat' (first
    | with_reducible assumption
    | intro _
    | with_reducible apply startFail_later
    | split)

theorem execWarmStartStageEnd_later (surveyOk : Bool) {s : State} :
    ∃ s', (execWarmStartStageEnd surveyOk s) = .next s' ∧ Later s s' := by
  have hl := Later.refl s
  refine ⟨_, rfl, ?_⟩
  repeat' (first
    | with_reducible assumption
    | intro _
    | with_reducible apply warmStageEnd_later | with_reducible apply startFail_later
    | split)

theorem execAutoRecover_later {s : State} :
    ∃ s', (execAutoRecover s) = .next s' ∧ Later s s' := by
  have hl := Later.refl s
  refine ⟨_, rfl, ?_⟩
  repeat' (first
    | with_reducible assumption
    | intro _
    | with_reducible apply coldStart_later
    | split)

theorem execComputeResetDrainEnd_later {s : State} :
    ∃ s', (execComputeResetDrainEnd s) = .next s' ∧ Later s s' := by
  have hl := Later.refl s
  refine ⟨_, rfl, ?_⟩
  repeat' (first
    | with_reducible assumption
    | intro _
    | (extract_lets +onlyGivenNames x; clear_value (e : x = _); first | (with_reducible refine Later.cut (s0 := s) e ?_ (fun _ => ?_) <;> clear e) | clear e)
    | with_reducible apply emptyRouters_later | with_reducible apply installOverlays_later | with_reducible apply switchDue_later | with_reducible apply applySeams_later | with_reducible apply placeFieldPorts_later | with_reducible apply retireCands_later | with_reducible apply resetGroup_later | with_reducible apply modWake_later | with_reducible apply countersDefault_later
    | with_reducible apply Later.foldl | with_reducible apply Later.foldl1 | with_reducible apply Later.foldl2
    | (split <;> rename_i e <;> first | (with_reducible refine Later.cut1 (s0 := s) e ?_ (fun _ => ?_) <;> clear e) | (with_reducible refine Later.cut2 (s0 := s) e ?_ (fun _ => ?_) <;> clear e) | (with_reducible refine Later.cut3 (s0 := s) e ?_ (fun _ => ?_) <;> clear e) | skip)
    | fail_if_no_progress with_reducible apply Later.upd)

theorem execComputeResetDone_later {s : State} :
    ∃ s', (execComputeResetDone s) = .next s' ∧ Later s s' := by
  have hl := Later.refl s
  refine ⟨_, rfl, ?_⟩
  repeat' (first
    | with_reducible assumption
    | intro _
    | (extract_lets +onlyGivenNames x; clear_value (e : x = _); first | (with_reducible refine Later.cut (s0 := s) e ?_ (fun _ => ?_) <;> clear e) | clear e)
    | with_reducible apply modWake_later | with_reducible apply releaseAll_later | with_reducible apply leaveWaking_later | with_reducible apply setDev_later
    | split
    | fail_if_no_progress with_reducible apply Later.upd)

theorem execPartitionResetDone_later (p : Nat) {s : State} :
    ∃ s', (execPartitionResetDone p s) = .next s' ∧ Later s s' := by
  have hl := Later.refl s
  refine ⟨_, rfl, ?_⟩
  repeat' (first | with_reducible assumption | with_reducible apply endPartReset_later | intro _)

theorem execCoreResetDone_later (c : Nat) {s : State} :
    ∃ s', (execCoreResetDone c s) = .next s' ∧ Later s s' := by
  have hl := Later.refl s
  refine ⟨_, rfl, ?_⟩
  repeat' (first
    | with_reducible assumption
    | intro _
    | with_reducible apply releaseCore_later
    | split)

theorem execRemapSpareTested_later (g : Nat) (pass : Bool) {s : State} :
    ∃ s', (execRemapSpareTested g pass s) = .next s' ∧ Later s s' := by
  have hl := Later.refl s
  refine ⟨_, rfl, ?_⟩
  repeat' (first
    | with_reducible assumption
    | intro _
    | (extract_lets +onlyGivenNames x; clear_value (e : x = _); first | (with_reducible refine Later.cut (s0 := s) e ?_ (fun _ => ?_) <;> clear e) | (with_reducible refine Later.cutF (s0 := s) e ?_ (fun hg => ?_) <;> clear e) | (with_reducible refine Later.cutF1 (s0 := s) e ?_ (fun hg => ?_) <;> clear e) | (with_reducible refine Later.cutF2 (s0 := s) e ?_ (fun hg => ?_) <;> clear e) | (with_reducible refine Later.cutC (s0 := s) e ?_ (fun hg => ?_) <;> clear e) | (with_reducible refine Later.cutFp (s0 := s) e ?_ (fun hg => ?_) <;> clear e) | clear e)
    | with_reducible apply applyBanks_later | with_reducible apply modGrp_later | with_reducible apply surveyAppend_later | with_reducible apply loseGroup_later
    | with_reducible apply hg
    | with_reducible apply Later.foldl | with_reducible apply Later.foldl1 | with_reducible apply Later.foldl2
    | (split <;> rename_i e <;> first | (with_reducible refine Later.cut1 (s0 := s) e ?_ (fun _ => ?_) <;> clear e) | (with_reducible refine Later.cut2 (s0 := s) e ?_ (fun _ => ?_) <;> clear e) | (with_reducible refine Later.cut3 (s0 := s) e ?_ (fun _ => ?_) <;> clear e) | skip)
    | fail_if_no_progress with_reducible apply Later.upd)

theorem joinPartition_later {s0 : State} {s : State} (g : Nat) (hl : Later s0 s) :
    Later s0 (joinPartition s g) := by
  unfold joinPartition
  repeat' (first
    | with_reducible assumption
    | intro _
    | (extract_lets +onlyGivenNames x; clear_value (e : x = _); first | (with_reducible refine Later.cut (s0 := s0) e ?_ (fun _ => ?_) <;> clear e) | clear e)
    | with_reducible apply releaseGroup_later
    | split
    | fail_if_no_progress with_reducible apply Later.upd)

theorem execRemapDone_later (g : Nat) {s : State} :
    ∃ s', (execRemapDone g s) = .next s' ∧ Later s s' := by
  have hl := Later.refl s
  refine ⟨_, rfl, ?_⟩
  repeat' (first
    | with_reducible assumption
    | intro _
    | (extract_lets +onlyGivenNames x; clear_value (e : x = _); first | (with_reducible refine Later.cut (s0 := s) e ?_ (fun _ => ?_) <;> clear e) | clear e)
    | with_reducible apply joinPartition_later | with_reducible apply modGrp_later | with_reducible apply reevaluate_later | with_reducible apply groupNotify_later
    | split
    | fail_if_no_progress with_reducible apply Later.upd)

theorem execCoreFailDetected_later (x : CoreLoss) {s : State} :
    ∃ s', (execCoreFailDetected x s) = .next s' ∧ Later s s' := by
  have hl := Later.refl s
  refine ⟨_, rfl, ?_⟩
  repeat' (first
    | with_reducible assumption
    | intro _
    | (extract_lets +onlyGivenNames x; clear_value (e : x = _); first | (with_reducible refine Later.cut (s0 := s) e ?_ (fun _ => ?_) <;> clear e) | clear e)
    | with_reducible apply routerFails_later | with_reducible apply failCore_later
    | (split <;> rename_i e <;> first | (with_reducible refine Later.cut1 (s0 := s) e ?_ (fun _ => ?_) <;> clear e) | (with_reducible refine Later.cut2 (s0 := s) e ?_ (fun _ => ?_) <;> clear e) | (with_reducible refine Later.cut3 (s0 := s) e ?_ (fun _ => ?_) <;> clear e) | skip)
    | fail_if_no_progress with_reducible apply Later.upd)

theorem execWatchdogExpire_later {s : State} :
    ∃ s', (execWatchdogExpire s) = .next s' ∧ Later s s' := by
  have hl := Later.refl s
  refine ⟨_, rfl, ?_⟩
  repeat' (first
    | with_reducible assumption
    | intro _
    | with_reducible apply trialUnconfirmed_later | with_reducible apply mgmtRestart_later
    | split)

theorem carafeBack_later {s0 : State} {s : State} (hl : Later s0 s) :
    Later s0 (carafeBack s) := by
  unfold carafeBack
  repeat' (first
    | with_reducible assumption
    | intro _
    | (extract_lets +onlyGivenNames x; clear_value (e : x = _); first | (with_reducible refine Later.cut (s0 := s0) e ?_ (fun _ => ?_) <;> clear e) | clear e)
    | with_reducible apply modWake_later | with_reducible apply storeRec_later | with_reducible apply raiseEvent_later | with_reducible apply surveyPut_later | with_reducible apply failCore_later
    | with_reducible apply Later.foldl | with_reducible apply Later.foldl1 | with_reducible apply Later.foldl2
    | (split <;> rename_i e <;> first | (with_reducible refine Later.cut1 (s0 := s0) e ?_ (fun _ => ?_) <;> clear e) | (with_reducible refine Later.cut2 (s0 := s0) e ?_ (fun _ => ?_) <;> clear e) | (with_reducible refine Later.cut3 (s0 := s0) e ?_ (fun _ => ?_) <;> clear e) | skip)
    | fail_if_no_progress with_reducible apply Later.upd)

theorem execCarafeTakeControl_later (ok : Bool) {s : State} :
    ∃ s', (execCarafeTakeControl ok s) = .next s' ∧ Later s s' := by
  have hl := Later.refl s
  refine ⟨_, rfl, ?_⟩
  repeat' (first
    | with_reducible assumption
    | intro _
    | (extract_lets +onlyGivenNames x; clear_value (e : x = _); first | (with_reducible refine Later.cut (s0 := s) e ?_ (fun _ => ?_) <;> clear e) | clear e)
    | with_reducible apply carafeBack_later | with_reducible apply bankRuns_later | with_reducible apply trialUnconfirmed_later | with_reducible apply modFw_later | with_reducible apply enterFaulted_later
    | split
    | fail_if_no_progress with_reducible apply Later.upd)

theorem execHaltNAssert_later (ns : Nat) {s : State} :
    ∃ s', (execHaltNAssert ns s) = .next s' ∧ Later s s' := by
  have hl := Later.refl s
  refine ⟨_, rfl, ?_⟩
  repeat' (first
    | with_reducible assumption
    | intro _
    | with_reducible apply followHalt_later | with_reducible apply modWake_later
    | with_reducible apply Later.foldl
    | split
    | fail_if_no_progress with_reducible apply Later.upd)

theorem execHaltNRelease_later (ns : Nat) {s : State} :
    ∃ s', (execHaltNRelease ns s) = .next s' ∧ Later s s' := by
  have hl := Later.refl s
  refine ⟨_, rfl, ?_⟩
  repeat' (first
    | with_reducible assumption
    | intro _
    | with_reducible apply followHalt_later | with_reducible apply modWake_later
    | with_reducible apply Later.foldl
    | split
    | fail_if_no_progress with_reducible apply Later.upd)

theorem execHaltArrive_later (c : Nat) {s : State} :
    ∃ s', (execHaltArrive c s) = .next s' ∧ Later s s' := by
  have hl := Later.refl s
  refine ⟨_, rfl, ?_⟩
  repeat' (first
    | with_reducible assumption
    | intro _
    | (extract_lets +onlyGivenNames x; clear_value (e : x = _); first | (with_reducible refine Later.cut (s0 := s) e ?_ (fun _ => ?_) <;> clear e) | clear e)
    | with_reducible apply modCtl_later | with_reducible apply withdraw_later | with_reducible apply haltNow_later
    | (split <;> rename_i e <;> first | (with_reducible refine Later.cut1 (s0 := s) e ?_ (fun _ => ?_) <;> clear e) | (with_reducible refine Later.cut2 (s0 := s) e ?_ (fun _ => ?_) <;> clear e) | (with_reducible refine Later.cut3 (s0 := s) e ?_ (fun _ => ?_) <;> clear e) | skip)
    | fail_if_no_progress with_reducible apply Later.upd)

theorem execRunArrive_later (c : Nat) {s : State} :
    ∃ s', (execRunArrive c s) = .next s' ∧ Later s s' := by
  have hl := Later.refl s
  refine ⟨_, rfl, ?_⟩
  repeat' (first
    | with_reducible assumption
    | intro _
    | (extract_lets +onlyGivenNames x; clear_value (e : x = _); first | (with_reducible refine Later.cut (s0 := s) e ?_ (fun _ => ?_) <;> clear e) | clear e)
    | with_reducible apply modCtl_later | with_reducible apply modPart_later
    | split
    | fail_if_no_progress with_reducible apply Later.upd)

theorem lowEnter_later {s0 : State} {s : State} (hl : Later s0 s) :
    Later s0 (lowEnter s) := by
  unfold lowEnter
  repeat' (first
    | with_reducible assumption
    | intro _
    | (extract_lets +onlyGivenNames x; clear_value (e : x = _); first | (with_reducible refine Later.cut (s0 := s0) e ?_ (fun _ => ?_) <;> clear e) | clear e)
    | with_reducible apply cgLeave_later | with_reducible apply modPwr_later | with_reducible apply modStack_later | with_reducible apply setDev_later
    | with_reducible apply Later.foldl
    | (split <;> rename_i e <;> first | (with_reducible refine Later.cut1 (s0 := s0) e ?_ (fun _ => ?_) <;> clear e) | (with_reducible refine Later.cut2 (s0 := s0) e ?_ (fun _ => ?_) <;> clear e) | skip)
    | fail_if_no_progress with_reducible apply Later.upd)

theorem execPartitionHalted_later (p : Nat) {s : State} :
    ∃ s', (execPartitionHalted p s) = .next s' ∧ Later s s' := by
  have hl := Later.refl s
  refine ⟨_, rfl, ?_⟩
  repeat' (first
    | with_reducible assumption
    | intro _
    | with_reducible apply lowEnter_later | with_reducible apply modPart_later
    | split
    | fail_if_no_progress with_reducible apply Later.upd)

theorem execErrorCoalesceFlush_later {s : State} :
    ∃ s', (execErrorCoalesceFlush s) = .next s' ∧ Later s s' := by
  have hl := Later.refl s
  refine ⟨_, rfl, ?_⟩
  repeat' (first
    | with_reducible assumption
    | intro _
    | (extract_lets +onlyGivenNames x; clear_value (e : x = _); first | (with_reducible refine Later.cut (s0 := s) e ?_ (fun _ => ?_) <;> clear e) | clear e)
    | with_reducible apply appendRec_later | with_reducible apply unit_later | with_reducible apply count_later
    | split
    | fail_if_no_progress with_reducible apply Later.upd)

theorem execEventLogFlush_later {s : State} :
    ∃ s', (execEventLogFlush s) = .next s' ∧ Later s s' := by
  have hl := Later.refl s
  refine ⟨_, rfl, ?_⟩
  repeat' (first
    | with_reducible assumption
    | intro _
    | (extract_lets +onlyGivenNames x; clear_value (e : x = _); first | (with_reducible refine Later.cut (s0 := s) e ?_ (fun _ => ?_) <;> clear e) | clear e)
    | fail_if_no_progress with_reducible apply Later.upd)

theorem execParityRewrite_later (x : ParityAt) {s : State} :
    ∃ s', (execParityRewrite x s) = .next s' ∧ Later s s' := by
  have hl := Later.refl s
  refine ⟨_, rfl, ?_⟩
  repeat' (first
    | with_reducible assumption
    | intro _
    | split
    | fail_if_no_progress with_reducible apply Later.upd)

theorem execFuseRecheck_later (ok : Bool) {s : State} :
    ∃ s', (execFuseRecheck ok s) = .next s' ∧ Later s s' := by
  have hl := Later.refl s
  refine ⟨_, rfl, ?_⟩
  repeat' (first
    | with_reducible assumption
    | intro _
    | with_reducible apply raiseErr_later
    | split)

theorem execMMemoryUncorrectable_later {s : State} :
    ∃ s', (execMMemoryUncorrectable s) = .next s' ∧ Later s s' := by
  have hl := Later.refl s
  refine ⟨_, rfl, ?_⟩
  repeat' (first | with_reducible assumption | with_reducible apply raiseErr_later | intro _)

theorem compactStep_later {s0 : State} {s : State} (flashOk : Bool) (hl : Later s0 s) :
    Later s0 (compactStep flashOk s) := by
  unfold compactStep
  repeat' (first
    | with_reducible assumption
    | intro _
    | (extract_lets +onlyGivenNames x; clear_value (e : x = _); first | (with_reducible refine Later.cut (s0 := s0) e ?_ (fun _ => ?_) <;> clear e) | clear e)
    | with_reducible apply raiseErr_later
    | (split <;> rename_i e <;> first | (with_reducible refine Later.cut1 (s0 := s0) e ?_ (fun _ => ?_) <;> clear e) | (with_reducible refine Later.cut2 (s0 := s0) e ?_ (fun _ => ?_) <;> clear e) | (with_reducible refine Later.cut3 (s0 := s0) e ?_ (fun _ => ?_) <;> clear e) | skip)
    | fail_if_no_progress with_reducible apply Later.upd)

theorem execSurveyCompact_later {s : State} :
    ∃ s', (execSurveyCompact s) = .next s' ∧ Later s s' := by
  have hl := Later.refl s
  refine ⟨_, rfl, ?_⟩
  repeat' (first
    | with_reducible assumption
    | intro _
    | (extract_lets +onlyGivenNames x; clear_value (e : x = _); first | (with_reducible refine Later.cut (s0 := s) e ?_ (fun _ => ?_) <;> clear e) | clear e)
    | with_reducible apply drawBool_later | with_reducible apply compactStep_later
    | (split <;> rename_i e <;> first | (with_reducible refine Later.cut1 (s0 := s) e ?_ (fun _ => ?_) <;> clear e) | (with_reducible refine Later.cut2 (s0 := s) e ?_ (fun _ => ?_) <;> clear e) | (with_reducible refine Later.cut3 (s0 := s) e ?_ (fun _ => ?_) <;> clear e) | skip)
    | fail_if_no_progress with_reducible apply Later.upd)

theorem checkNext_later {s0 : State} {s : State} (hl : Later s0 s) :
    Later s0 (checkNext s) := by
  unfold checkNext
  repeat' (first
    | with_reducible assumption
    | intro _
    | with_reducible apply modGrp_later | with_reducible apply resetGroup_later
    | with_reducible apply Later.foldl
    | (split <;> rename_i e <;> first | (with_reducible refine Later.cut1 (s0 := s0) e ?_ (fun _ => ?_) <;> clear e) | (with_reducible refine Later.cut2 (s0 := s0) e ?_ (fun _ => ?_) <;> clear e) | skip)
    | fail_if_no_progress with_reducible apply Later.upd)

theorem checkEnd_later {s0 : State} {s : State} (hl : Later s0 s) :
    Later s0 (checkEnd s) := by
  unfold checkEnd
  repeat' (first
    | with_reducible assumption
    | intro _
    | (extract_lets +onlyGivenNames x; clear_value (e : x = _); first | (with_reducible refine Later.cut (s0 := s0) e ?_ (fun _ => ?_) <;> clear e) | clear e)
    | with_reducible apply endAsync_later | with_reducible apply modWake_later
    | split
    | fail_if_no_progress with_reducible apply Later.upd)

theorem checkTile_later {s0 : State} (g : Nat) {s : State} (x : Nat × Nat) (hl : Later s0 s) :
    Later s0 (checkTile g s x) := by
  unfold checkTile
  repeat' (first
    | with_reducible assumption
    | intro _
    | (extract_lets +onlyGivenNames x; clear_value (e : x = _); first | (with_reducible refine Later.cut (s0 := s0) e ?_ (fun _ => ?_) <;> clear e) | clear e)
    | with_reducible apply surveyAppend_later | with_reducible apply raiseErr_later
    | (split <;> rename_i e <;> first | (with_reducible refine Later.cut1 (s0 := s0) e ?_ (fun _ => ?_) <;> clear e) | (with_reducible refine Later.cut2 (s0 := s0) e ?_ (fun _ => ?_) <;> clear e) | skip))

theorem execFieldCheckGroupDone_later (g : Nat) (results : List Nat) {s : State} :
    ∃ s', (execFieldCheckGroupDone g results s) = .next s' ∧ Later s s' := by
  have hl := Later.refl s
  refine ⟨_, rfl, ?_⟩
  repeat' (first
    | with_reducible assumption
    | intro _
    | (extract_lets +onlyGivenNames x; clear_value (e : x = _); first | (with_reducible refine Later.cut (s0 := s) e ?_ (fun _ => ?_) <;> clear e) | clear e)
    | with_reducible apply modWake_later | with_reducible apply checkTile_later | with_reducible apply modGrp_later | with_reducible apply joinPartition_later | with_reducible apply loseGroup_later | with_reducible apply checkEnd_later | with_reducible apply checkNext_later
    | with_reducible apply Later.foldl
    | split
    | fail_if_no_progress with_reducible apply Later.upd)

theorem execFieldCheckUnitDone_later (u : Nat) (pages : List Nat) {s : State} :
    ∃ s', (execFieldCheckUnitDone u pages s) = .next s' ∧ Later s s' := by
  have hl := Later.refl s
  refine ⟨_, rfl, ?_⟩
  repeat' (first
    | with_reducible assumption
    | intro _
    | (extract_lets +onlyGivenNames x; clear_value (e : x = _); first | (with_reducible refine Later.cut (s0 := s) e ?_ (fun _ => ?_) <;> clear e) | clear e)
    | with_reducible apply zeroUnit_later | with_reducible apply pageCandidate_later | with_reducible apply raiseErr_later | with_reducible apply checkEnd_later | with_reducible apply modWake_later
    | with_reducible apply Later.foldl
    | split
    | fail_if_no_progress with_reducible apply Later.upd)

end Sys2Proof.Machine
end

