-- ==== Sys2Proof/Laws/LaterSettings.lean ====
section
/-!
SUPPORT. The operations of Machine/Settings.lean keep `Later`.
-/

set_option linter.unusedTactic false
set_option linter.unreachableTactic false

namespace Sys2Proof.Machine

theorem groupsNow_later {s0 : State} {s : State} (p : Nat) (v : Nat) (hl : Later s0 s) :
    Later s0 (groupsNow s p v) := by
  unfold groupsNow
  repeat' (first
    | with_reducible assumption
    | intro _
    | with_reducible apply joinPartition_later | with_reducible apply resetGroup_later | with_reducible apply modGrp_later
    | with_reducible apply Later.foldl
    | split
    | fail_if_no_progress with_reducible apply Later.upd)

theorem allocsSet_later {s0 : State} {s : State} (es : List ObjEntry) (hl : Later s0 s) :
    Later s0 (allocsSet s es) := by
  unfold allocsSet
  repeat' (first
    | with_reducible assumption
    | intro _
    | (extract_lets +onlyGivenNames x; clear_value (e : x = _); first | (with_reducible refine Later.cut (s0 := s0) e ?_ (fun _ => ?_) <;> clear e) | clear e)
    | with_reducible apply Later.foldl | with_reducible apply Later.foldl1 | with_reducible apply Later.foldl2
    | (split <;> rename_i e <;> first | (with_reducible refine Later.cut1 (s0 := s0) e ?_ (fun _ => ?_) <;> clear e) | (with_reducible refine Later.cut2 (s0 := s0) e ?_ (fun _ => ?_) <;> clear e) | (with_reducible refine Later.cut3 (s0 := s0) e ?_ (fun _ => ?_) <;> clear e) | skip)
    | fail_if_no_progress with_reducible apply Later.upd)

theorem lowSet_later {s0 : State} {s : State} (hl : Later s0 s) :
    Later s0 (lowSet s) := by
  unfold lowSet
  repeat' (first
    | with_reducible assumption
    | intro _
    | with_reducible apply lowEnter_later | with_reducible apply setDeviceCause_later | with_reducible apply modWake_later
    | fail_if_no_progress with_reducible apply Later.upd)

theorem lowClear_later {s0 : State} {s : State} (hl : Later s0 s) :
    Later s0 (lowClear s) := by
  unfold lowClear
  repeat' (first
    | with_reducible assumption
    | intro _
    | (extract_lets +onlyGivenNames x; clear_value (e : x = _); first | (with_reducible refine Later.cut (s0 := s0) e ?_ (fun _ => ?_) <;> clear e) | clear e)
    | with_reducible apply modWake_later | with_reducible apply modPwr_later | with_reducible apply modField_later | with_reducible apply lowLeft_later | with_reducible apply setDeviceCause_later
    | with_reducible apply Later.foldl
    | (split <;> rename_i e <;> first | (with_reducible refine Later.cut1 (s0 := s0) e ?_ (fun _ => ?_) <;> clear e) | (with_reducible refine Later.cut2 (s0 := s0) e ?_ (fun _ => ?_) <;> clear e) | skip)
    | fail_if_no_progress with_reducible apply Later.upd)

theorem decafSet_later {s0 : State} {s : State} (hl : Later s0 s) :
    Later s0 (decafSet s) := by
  unfold decafSet
  repeat' (first
    | with_reducible assumption
    | intro _
    | (extract_lets +onlyGivenNames x; clear_value (e : x = _); first | (with_reducible refine Later.cut (s0 := s0) e ?_ (fun _ => ?_) <;> clear e) | clear e)
    | with_reducible apply modPwr_later | with_reducible apply schedule_later | with_reducible apply modField_later
    | with_reducible apply Later.foldl
    | fail_if_no_progress with_reducible apply Later.upd)

theorem portSet_later {s0 : State} {s : State} (p : Nat) (mode : Bool) (hl : Later s0 s) :
    Later s0 (portSet s p mode) := by
  unfold portSet
  repeat' (first
    | with_reducible assumption
    | intro _
    | (extract_lets +onlyGivenNames x; clear_value (e : x = _); first | (with_reducible refine Later.cut (s0 := s0) e ?_ (fun _ => ?_) <;> clear e) | clear e)
    | with_reducible apply portConfig_later | with_reducible apply portChanged_later
    | (split <;> rename_i e <;> first | (with_reducible refine Later.cut1 (s0 := s0) e ?_ (fun _ => ?_) <;> clear e) | (with_reducible refine Later.cut2 (s0 := s0) e ?_ (fun _ => ?_) <;> clear e) | (with_reducible refine Later.cut3 (s0 := s0) e ?_ (fun _ => ?_) <;> clear e) | skip)
    | fail_if_no_progress with_reducible apply Later.upd)

theorem encryptSet_later {s0 : State} {s : State} (b : Nat) (on : Bool) (hl : Later s0 s) :
    Later s0 (encryptSet s b on) := by
  unfold encryptSet
  repeat' (first
    | with_reducible assumption
    | intro _
    | (extract_lets +onlyGivenNames x; clear_value (e : x = _); first | (with_reducible refine Later.cut (s0 := s0) e ?_ (fun _ => ?_) <;> clear e) | clear e)
    | with_reducible apply modPort_later | with_reducible apply startTraining_later
    | with_reducible apply Later.foldl | with_reducible apply Later.foldl1 | with_reducible apply Later.foldl2
    | (split <;> rename_i e <;> first | (with_reducible refine Later.cut1 (s0 := s0) e ?_ (fun _ => ?_) <;> clear e) | (with_reducible refine Later.cut2 (s0 := s0) e ?_ (fun _ => ?_) <;> clear e) | (with_reducible refine Later.cut3 (s0 := s0) e ?_ (fun _ => ?_) <;> clear e) | skip)
    | fail_if_no_progress with_reducible apply Later.upd)

theorem rateSet_later {s0 : State} {s : State} (v : Nat) (hl : Later s0 s) :
    Later s0 (rateSet s v) := by
  unfold rateSet
  repeat' (first
    | with_reducible assumption
    | intro _
    | with_reducible apply modStack_later
    | with_reducible apply Later.foldl
    | split
    | fail_if_no_progress with_reducible apply Later.upd)

theorem selSet_later {s0 : State} {s : State} (idx : Nat) (b : Bytes) (hl : Later s0 s) :
    Later s0 (selSet s idx b) := by
  unfold selSet
  repeat' (first
    | with_reducible assumption
    | intro _
    | (extract_lets +onlyGivenNames x; clear_value (e : x = _); first | (with_reducible refine Later.cut (s0 := s0) e ?_ (fun _ => ?_) <;> clear e) | (with_reducible refine Later.cutF (s0 := s0) e ?_ (fun hg => ?_) <;> clear e) | (with_reducible refine Later.cutF1 (s0 := s0) e ?_ (fun hg => ?_) <;> clear e) | (with_reducible refine Later.cutF2 (s0 := s0) e ?_ (fun hg => ?_) <;> clear e) | (with_reducible refine Later.cutC (s0 := s0) e ?_ (fun hg => ?_) <;> clear e) | (with_reducible refine Later.cutFp (s0 := s0) e ?_ (fun hg => ?_) <;> clear e) | clear e)
    | with_reducible apply hg
    | with_reducible apply Later.foldl | with_reducible apply Later.foldl1 | with_reducible apply Later.foldl2
    | (split <;> rename_i e <;> first | (with_reducible refine Later.cut1 (s0 := s0) e ?_ (fun _ => ?_) <;> clear e) | (with_reducible refine Later.cut2 (s0 := s0) e ?_ (fun _ => ?_) <;> clear e) | (with_reducible refine Later.cut3 (s0 := s0) e ?_ (fun _ => ?_) <;> clear e) | skip)
    | fail_if_no_progress with_reducible apply Later.upd)

theorem faultCoreSet_later {s0 : State} {s : State} (p : Nat) (hl : Later s0 s) :
    Later s0 (faultCoreSet s p) := by
  unfold faultCoreSet
  repeat' (first
    | with_reducible assumption
    | intro _
    | with_reducible apply modCtl_later
    | with_reducible apply Later.foldl
    | fail_if_no_progress with_reducible apply Later.upd)

theorem numApply_later {s0 : State} {s : State} (a : ObjAddr) (v : Nat) (hl : Later s0 s) :
    Later s0 (numApply s a v) := by
  unfold numApply
  repeat' (first
    | with_reducible assumption
    | intro _
    | (extract_lets +onlyGivenNames x; clear_value (e : x = _); first | (with_reducible refine Later.cut (s0 := s0) e ?_ (fun _ => ?_) <;> clear e) | clear e)
    | with_reducible apply lowSet_later | with_reducible apply lowClear_later | with_reducible apply modPwr_later | with_reducible apply decafSet_later | with_reducible apply schedule_later | with_reducible apply auxUpdate_later | with_reducible apply modAux_later | with_reducible apply sourceSet_later | with_reducible apply modEch_later | with_reducible apply groupsNow_later | with_reducible apply faultCoreSet_later | with_reducible apply modPart_later | with_reducible apply followHalt_later | with_reducible apply modMsh_later | with_reducible apply portSet_later | with_reducible apply encryptSet_later | with_reducible apply rateSet_later | with_reducible apply modStack_later
    | with_reducible apply Later.foldl | with_reducible apply Later.foldl1 | with_reducible apply Later.foldl2
    | (split <;> rename_i e <;> first | (with_reducible refine Later.cut1 (s0 := s0) e ?_ (fun _ => ?_) <;> clear e) | (with_reducible refine Later.cut2 (s0 := s0) e ?_ (fun _ => ?_) <;> clear e) | (with_reducible refine Later.cut3 (s0 := s0) e ?_ (fun _ => ?_) <;> clear e) | skip)
    | fail_if_no_progress with_reducible apply Later.upd)

theorem blobApply_later {s0 : State} {s : State} (a : ObjAddr) (b : Bytes) (hl : Later s0 s) :
    Later s0 (blobApply s a b) := by
  unfold blobApply
  repeat' (first
    | with_reducible assumption
    | intro _
    | (extract_lets +onlyGivenNames x; clear_value (e : x = _); first | (with_reducible refine Later.cut (s0 := s0) e ?_ (fun _ => ?_) <;> clear e) | clear e)
    | with_reducible apply modLinks_later | with_reducible apply modPort_later | with_reducible apply modPwr_later | with_reducible apply selSet_later
    | with_reducible apply Later.foldl | with_reducible apply Later.foldl1 | with_reducible apply Later.foldl2
    | (split <;> rename_i e <;> first | (with_reducible refine Later.cut1 (s0 := s0) e ?_ (fun _ => ?_) <;> clear e) | (with_reducible refine Later.cut2 (s0 := s0) e ?_ (fun _ => ?_) <;> clear e) | (with_reducible refine Later.cut3 (s0 := s0) e ?_ (fun _ => ?_) <;> clear e) | skip)
    | fail_if_no_progress with_reducible apply Later.upd)

theorem netHold_later {s0 : State} {s : State} (a : ObjAddr) (hl : Later s0 s) :
    Later s0 (netHold s a) := by
  unfold netHold
  repeat' (first
    | with_reducible assumption
    | intro _
    | (extract_lets +onlyGivenNames x; clear_value (e : x = _); first | (with_reducible refine Later.cut (s0 := s0) e ?_ (fun _ => ?_) <;> clear e) | clear e)
    | with_reducible apply modMgmt_later
    | split
    | fail_if_no_progress with_reducible apply Later.upd)

theorem setApply_later {s0 : State} {s : State} (t : ObjEntry) (hl : Later s0 s) :
    Later s0 (setApply s t) := by
  unfold setApply
  repeat' (first
    | with_reducible assumption
    | intro _
    | (extract_lets +onlyGivenNames x; clear_value (e : x = _); first | (with_reducible refine Later.cut (s0 := s0) e ?_ (fun _ => ?_) <;> clear e) | clear e)
    | with_reducible apply netHold_later | with_reducible apply numApply_later | with_reducible apply blobApply_later
    | split
    | fail_if_no_progress with_reducible apply Later.upd)

end Sys2Proof.Machine
end

