-- ==== Sys2Proof/Laws/LaterActOps.lean ====
section
/-!
SUPPORT. The operations of Machine/ActOps.lean keep `Later`.
-/

set_option linter.unusedTactic false
set_option linter.unreachableTactic false

namespace Sys2Proof.Machine

theorem actRelease_later {s0 : State} {s : State} (hl : Later s0 s) :
    Later s0 (actRelease s) := by
  unfold actRelease
  repeat' (first
    | with_reducible assumption
    | intro _
    | with_reducible apply coldStart_later | with_reducible apply modWake_later
    | fail_if_no_progress with_reducible apply Later.upd)

theorem actCoreReset_later {s0 : State} {s : State} (c : Nat) (hl : Later s0 s) :
    Later s0 (actCoreReset s c) := by
  unfold actCoreReset
  repeat' (first
    | with_reducible assumption
    | intro _
    | (extract_lets +onlyGivenNames x; clear_value (e : x = _); first | (with_reducible refine Later.cut (s0 := s0) e ?_ (fun _ => ?_) <;> clear e) | clear e)
    | with_reducible apply resetCore_later
    | (split <;> rename_i e <;> first | (with_reducible refine Later.cut1 (s0 := s0) e ?_ (fun _ => ?_) <;> clear e) | (with_reducible refine Later.cut2 (s0 := s0) e ?_ (fun _ => ?_) <;> clear e) | skip))

theorem actFailCore_later {s0 : State} {s : State} (c : Nat) (hl : Later s0 s) :
    Later s0 (actFailCore s c) := by
  unfold actFailCore
  repeat' (first | with_reducible assumption | with_reducible apply failCore_later | intro _)

theorem actCheck_later {s0 : State} {s : State} (b : Bytes) (hl : Later s0 s) :
    Later s0 (actCheck s b) := by
  unfold actCheck
  repeat' (first
    | with_reducible assumption
    | intro _
    | (extract_lets +onlyGivenNames x; clear_value (e : x = _); first | (with_reducible refine Later.cut (s0 := s0) e ?_ (fun _ => ?_) <;> clear e) | clear e)
    | with_reducible apply modWake_later | with_reducible apply checkEnd_later | with_reducible apply checkNext_later
    | fail_if_no_progress with_reducible apply Later.upd)

theorem actRevoke_later {s0 : State} {s : State} (b : Bytes) (hl : Later s0 s) :
    Later s0 (actRevoke s b) := by
  unfold actRevoke
  repeat' (first
    | with_reducible assumption
    | intro _
    | split
    | fail_if_no_progress with_reducible apply Later.upd)

theorem actRetire_later {s0 : State} {s : State} (b : Bytes) (hl : Later s0 s) :
    Later s0 (actRetire s b) := by
  unfold actRetire
  repeat' (first
    | with_reducible assumption
    | intro _
    | (extract_lets +onlyGivenNames x; clear_value (e : x = _); first | (with_reducible refine Later.cut (s0 := s0) e ?_ (fun _ => ?_) <;> clear e) | clear e)
    | with_reducible apply pageCandidate_later)

theorem actEpoch_later {s0 : State} {s : State} (hl : Later s0 s) :
    Later s0 (actEpoch s) := by
  unfold actEpoch
  repeat' (first
    | with_reducible assumption
    | intro _
    | (extract_lets +onlyGivenNames x; clear_value (e : x = _); first | (with_reducible refine Later.cut (s0 := s0) e ?_ (fun _ => ?_) <;> clear e) | clear e)
    | with_reducible apply modLinks_later
    | split
    | fail_if_no_progress with_reducible apply Later.upd)

theorem actPortReset_later {s0 : State} {s : State} (p : Nat) (hl : Later s0 s) :
    Later s0 (actPortReset s p) := by
  unfold actPortReset
  repeat' (first | with_reducible assumption | with_reducible apply portReset_later | intro _)

theorem actAdmit_later {s0 : State} {s : State} (p : Nat) (hl : Later s0 s) :
    Later s0 (actAdmit s p) := by
  unfold actAdmit
  repeat' (first | with_reducible assumption | with_reducible apply startTraining_later | intro _)

theorem actKeySwitch_later {s0 : State} {s : State} (b : Nat) (hl : Later s0 s) :
    Later s0 (actKeySwitch s b) := by
  unfold actKeySwitch
  repeat' (first
    | with_reducible assumption
    | intro _
    | (extract_lets +onlyGivenNames x; clear_value (e : x = _); first | (with_reducible refine Later.cut (s0 := s0) e ?_ (fun _ => ?_) <;> clear e) | clear e)
    | with_reducible apply modPort_later | with_reducible apply stampFrame_later | with_reducible apply sendFrame_later
    | with_reducible apply Later.foldl
    | (split <;> rename_i e <;> first | (with_reducible refine Later.cut1 (s0 := s0) e ?_ (fun _ => ?_) <;> clear e) | (with_reducible refine Later.cut2 (s0 := s0) e ?_ (fun _ => ?_) <;> clear e) | skip)
    | fail_if_no_progress with_reducible apply Later.upd)

theorem actDomain_later {s0 : State} {s : State} (d : Nat) (v : Nat) (hl : Later s0 s) :
    Later s0 (actDomain s d v) := by
  unfold actDomain
  repeat' (first | with_reducible assumption | with_reducible apply lowLeft_later | with_reducible apply reevaluate_later)
  exact switchDomain_later d v hl

theorem actAuxReset_later {s0 : State} {s : State} (c : Nat) (hl : Later s0 s) :
    Later s0 (actAuxReset s c) := by
  unfold actAuxReset
  repeat' (first
    | with_reducible assumption
    | intro _
    | with_reducible apply auxUpdate_later | with_reducible apply modAux_later
    | split
    | fail_if_no_progress with_reducible apply Later.upd)

theorem actAlertAck_later {s0 : State} {s : State} (q : Nat) (hl : Later s0 s) :
    Later s0 (actAlertAck s q) := by
  unfold actAlertAck
  repeat' (first
    | with_reducible assumption
    | intro _
    | with_reducible apply auxUpdate_later | with_reducible apply modMgmt_later
    | fail_if_no_progress with_reducible apply Later.upd)

theorem actClear_later {s0 : State} {s : State} (hl : Later s0 s) :
    Later s0 (actClear s) := by
  unfold actClear
  repeat' (first
    | with_reducible assumption
    | intro _
    | fail_if_no_progress with_reducible apply Later.upd)

theorem actEnroll_later {s0 : State} {s : State} (b : Bytes) (hl : Later s0 s) :
    Later s0 (actEnroll s b) := by
  unfold actEnroll
  repeat' (first
    | with_reducible assumption
    | intro _
    | (extract_lets +onlyGivenNames x; clear_value (e : x = _); first | (with_reducible refine Later.cut (s0 := s0) e ?_ (fun _ => ?_) <;> clear e) | clear e)
    | with_reducible apply modMgmt_later | with_reducible apply raiseEvent_later
    | fail_if_no_progress with_reducible apply Later.upd)

theorem actSlotRevoke_later {s0 : State} {s : State} (k : Nat) (hl : Later s0 s) :
    Later s0 (actSlotRevoke s k) := by
  unfold actSlotRevoke
  repeat' (first
    | with_reducible assumption
    | intro _
    | (extract_lets +onlyGivenNames x; clear_value (e : x = _); first | (with_reducible refine Later.cut (s0 := s0) e ?_ (fun _ => ?_) <;> clear e) | clear e)
    | with_reducible apply modMgmt_later | with_reducible apply raiseEvent_later | with_reducible apply closeSessions_later
    | split
    | fail_if_no_progress with_reducible apply Later.upd)

theorem actFactory_later {s0 : State} {s : State} (hl : Later s0 s) :
    Later s0 (actFactory s) := by
  unfold actFactory
  repeat' (first
    | with_reducible assumption
    | intro _
    | with_reducible apply modMgmt_later
    | fail_if_no_progress with_reducible apply Later.upd)

theorem actActivate_later {s0 : State} {s : State} (b : Bytes) (hl : Later s0 s) :
    Later s0 (actActivate s b) := by
  unfold actActivate
  repeat' (first
    | with_reducible assumption
    | intro _
    | with_reducible apply modFw_later
    | fail_if_no_progress with_reducible apply Later.upd)

theorem activate_later {s0 : State} {s : State} (b : Nat) (flags : Nat) (hl : Later s0 s) :
    Later s0 (activate s b flags) := by
  unfold activate
  repeat' (first
    | with_reducible assumption
    | intro _
    | (extract_lets +onlyGivenNames x; clear_value (e : x = _); first | (with_reducible refine Later.cut (s0 := s0) e ?_ (fun _ => ?_) <;> clear e) | clear e)
    | with_reducible apply modFw_later | with_reducible apply restartKind_later | with_reducible apply trialBegin_later
    | split
    | fail_if_no_progress with_reducible apply Later.upd)

theorem verifyEnd_later {s0 : State} {s : State} (sigOk : Bool) (digOk : Bool) (hl : Later s0 s) :
    Later s0 (verifyEnd s sigOk digOk) := by
  unfold verifyEnd
  repeat' (first
    | with_reducible assumption
    | intro _
    | (extract_lets +onlyGivenNames x; clear_value (e : x = _); first | (with_reducible refine Later.cut (s0 := s0) e ?_ (fun _ => ?_) <;> clear e) | clear e)
    | with_reducible apply fwEvent_later | with_reducible apply modFw_later | with_reducible apply activate_later
    | split
    | fail_if_no_progress with_reducible apply Later.upd)

theorem trialSettle_later {s0 : State} {s : State} (hl : Later s0 s) :
    Later s0 (trialSettle s) := by
  unfold trialSettle
  repeat' (first
    | with_reducible assumption
    | intro _
    | with_reducible apply confirmTrial_later
    | split)

theorem actConfirm_later {s0 : State} {s : State} (hl : Later s0 s) :
    Later s0 (actConfirm s) := by
  unfold actConfirm
  repeat' (first
    | with_reducible assumption
    | intro _
    | with_reducible apply trialSettle_later | with_reducible apply modFw_later
    | fail_if_no_progress with_reducible apply Later.upd)

theorem actRevert_later {s0 : State} {s : State} (hl : Later s0 s) :
    Later s0 (actRevert s) := by
  unfold actRevert
  repeat' (first | with_reducible assumption | with_reducible apply activate_later | intro _)

theorem actRun_later {s0 : State} {s : State} (a : ObjAddr) (v : ObjVal) (hl : Later s0 s) :
    Later s0 (actRun s a v) := by
  unfold actRun
  repeat' (first
    | with_reducible assumption
    | intro _
    | (extract_lets +onlyGivenNames x; clear_value (e : x = _); first | (with_reducible refine Later.cut (s0 := s0) e ?_ (fun _ => ?_) <;> clear e) | clear e)
    | with_reducible apply coldStart_later | with_reducible apply warmStart_later | with_reducible apply beginComputeReset_later | with_reducible apply mgmtRestart_later | with_reducible apply actRelease_later | with_reducible apply actDomain_later | with_reducible apply actAuxReset_later | with_reducible apply resync_later | with_reducible apply actRevoke_later | with_reducible apply actCoreReset_later | with_reducible apply actFailCore_later | with_reducible apply actCheck_later | with_reducible apply beginPartReset_later | with_reducible apply actEpoch_later | with_reducible apply actPortReset_later | with_reducible apply actAdmit_later | with_reducible apply actKeySwitch_later | with_reducible apply actRetire_later | with_reducible apply actAlertAck_later | with_reducible apply actClear_later | with_reducible apply actActivate_later | with_reducible apply actConfirm_later | with_reducible apply actRevert_later | with_reducible apply actEnroll_later | with_reducible apply actSlotRevoke_later | with_reducible apply actFactory_later
    | split
    | fail_if_no_progress with_reducible apply Later.upd)

end Sys2Proof.Machine
end

