-- ==== Sys2Proof/Laws/LaterSasilOps.lean ====
section
/-!
SUPPORT. The operations of Machine/SasilOps.lean keep `Later`.
-/

set_option linter.unusedTactic false
set_option linter.unreachableTactic false

namespace Sys2Proof.Machine

theorem Later.cutD {s0 : State} {x v : Done} {P : Prop} (e : x = v) (hv : Later s0 v.st) (k : Later s0 x.st → P) : P := k (e ▸ hv)

theorem putMbx_later {s0 : State} {s : State} (h : Nat) (f : Nat) (unit : Bytes) (hl : Later s0 s) :
    Later s0 (putMbx s h f unit) := by
  unfold putMbx
  repeat' (first
    | with_reducible assumption
    | intro _
    | with_reducible apply modFn_later | with_reducible apply unit_later | with_reducible apply done_later
    | fail_if_no_progress with_reducible apply Later.upd)

theorem sendMsg_later {s0 : State} {s : State} (tr : Transport) (secure : Bool) (m : SasilMsg) (hl : Later s0 s) :
    Later s0 (sendMsg s tr secure m) := by
  unfold sendMsg
  repeat' (first
    | with_reducible assumption
    | intro _
    | (extract_lets +onlyGivenNames x; clear_value (e : x = _); first | (with_reducible refine Later.cut (s0 := s0) e ?_ (fun _ => ?_) <;> clear e) | clear e)
    | with_reducible apply putMbx_later | with_reducible apply emit_later | with_reducible apply sendPeer_later
    | (split <;> rename_i e <;> first | (with_reducible refine Later.cut1 (s0 := s0) e ?_ (fun _ => ?_) <;> clear e) | (with_reducible refine Later.cut2 (s0 := s0) e ?_ (fun _ => ?_) <;> clear e) | (with_reducible refine Later.cut3 (s0 := s0) e ?_ (fun _ => ?_) <;> clear e) | skip)
    | fail_if_no_progress with_reducible apply Later.upd)

theorem malformed_later {s0 : State} {s : State} (tr : Transport) (raw : Bytes) (reply : State → State) (hl : Later s0 s) (hf : ∀ s, Later s0 s → Later s0 (reply s)) :
    Later s0 (malformed s tr raw reply) := by
  unfold malformed
  repeat' (first
    | with_reducible assumption
    | intro _ | with_reducible apply hf
    | (extract_lets +onlyGivenNames x; clear_value (e : x = _); first | (with_reducible refine Later.cut (s0 := s0) e ?_ (fun _ => ?_) <;> clear e) | clear e)
    | with_reducible apply modMgmt_later | with_reducible apply raiseEvent_later
    | split
    | fail_if_no_progress with_reducible apply Later.upd)

theorem badUnit_later {s0 : State} {s : State} (tr : Transport) (raw : Bytes) (hl : Later s0 s) :
    Later s0 (badUnit s tr raw) := by
  unfold badUnit
  repeat' (first | with_reducible assumption | with_reducible apply malformed_later | with_reducible apply sendMsg_later | intro _)

theorem tagBad_later {s0 : State} {s : State} (tr : Transport) (hl : Later s0 s) :
    Later s0 (tagBad s tr) := by
  unfold tagBad
  repeat' (first
    | with_reducible assumption
    | intro _
    | with_reducible apply raiseEvent_later | with_reducible apply modMgmt_later
    | fail_if_no_progress with_reducible apply Later.upd)

theorem openSession_later {s0 : State} {s : State} (e : Session) (hl : Later s0 s) :
    Later s0 (openSession s e) := by
  unfold openSession
  repeat' (first
    | with_reducible assumption
    | intro _
    | (extract_lets +onlyGivenNames x; clear_value (e : x = _); first | (with_reducible refine Later.cut (s0 := s0) e ?_ (fun _ => ?_) <;> clear e) | clear e)
    | with_reducible apply modMgmt_later | with_reducible apply sessionEvent_later
    | fail_if_no_progress with_reducible apply Later.upd)

theorem refuseSession_later {s0 : State} {s : State} (tr : Transport) (hl : Later s0 s) :
    Later s0 (refuseSession s tr) := by
  unfold refuseSession
  repeat' (first | with_reducible assumption | with_reducible apply raiseEvent_later | intro _)

theorem sendSpdm_later {s0 : State} {s : State} (tr : Transport) (r : SpdmRsp) (body : Bytes) (hl : Later s0 s) :
    Later s0 (sendSpdm s tr r body) := by
  unfold sendSpdm
  repeat' (first
    | with_reducible assumption
    | intro _
    | (extract_lets +onlyGivenNames x; clear_value (e : x = _); first | (with_reducible refine Later.cut (s0 := s0) e ?_ (fun _ => ?_) <;> clear e) | clear e)
    | with_reducible apply putMbx_later | with_reducible apply spdm_later | with_reducible apply emit_later | with_reducible apply sendPeer_later
    | (split <;> rename_i e <;> first | (with_reducible refine Later.cut1 (s0 := s0) e ?_ (fun _ => ?_) <;> clear e) | (with_reducible refine Later.cut2 (s0 := s0) e ?_ (fun _ => ?_) <;> clear e) | (with_reducible refine Later.cut3 (s0 := s0) e ?_ (fun _ => ?_) <;> clear e) | skip)
    | fail_if_no_progress with_reducible apply Later.upd)

theorem setHand_later {s0 : State} {s : State} (tr : Transport) (n : Nat) (hl : Later s0 s) :
    Later s0 (setHand s tr n) := by
  unfold setHand
  repeat' (first
    | with_reducible assumption
    | intro _
    | with_reducible apply modMgmt_later
    | split
    | fail_if_no_progress with_reducible apply Later.upd)

theorem handStep_later {s0 : State} {s : State} (tr : Transport) (n : Nat) (r : SpdmRsp) (body : Bytes) (hl : Later s0 s) :
    Later s0 (handStep s tr n r body) := by
  unfold handStep
  repeat' (first
    | with_reducible assumption
    | intro _
    | with_reducible apply sendSpdm_later | with_reducible apply setHand_later
    | split)

theorem spdmFinish_later {s0 : State} {s : State} (tr : Transport) (auth : Auth) (hl : Later s0 s) :
    Later s0 (spdmFinish s tr auth) := by
  unfold spdmFinish
  repeat' (first
    | with_reducible assumption
    | intro _
    | (extract_lets +onlyGivenNames x; clear_value (e : x = _); first | (with_reducible refine Later.cut (s0 := s0) e ?_ (fun _ => ?_) <;> clear e) | clear e)
    | with_reducible apply sendSpdm_later | with_reducible apply setHand_later | with_reducible apply refuseSession_later | with_reducible apply openSession_later
    | split
    | fail_if_no_progress with_reducible apply Later.upd)

theorem spdm_later {s0 : State} {s : State} (tr : Transport) (m : SpdmMsg) (hl : Later s0 s) :
    Later s0 (spdm s tr m) := by
  unfold spdm
  repeat' (first
    | with_reducible assumption
    | intro _
    | (extract_lets +onlyGivenNames x; clear_value (e : x = _); first | (with_reducible refine Later.cut (s0 := s0) e ?_ (fun _ => ?_) <;> clear e) | clear e)
    | with_reducible apply sendSpdm_later | with_reducible apply setHand_later | with_reducible apply handStep_later | with_reducible apply spdmFinish_later
    | with_reducible apply Later.getD_none | with_reducible apply Later.getD_some
    | (split <;> rename_i e <;> first | (with_reducible refine Later.cut1 (s0 := s0) e ?_ (fun _ => ?_) <;> clear e) | (with_reducible refine Later.cut2 (s0 := s0) e ?_ (fun _ => ?_) <;> clear e) | (with_reducible refine Later.cut3 (s0 := s0) e ?_ (fun _ => ?_) <;> clear e) | skip)
    | fail_if_no_progress with_reducible apply Later.upd)

theorem countClosed_later {s0 : State} {s : State} (as : List ObjAddr) (hl : Later s0 s) :
    Later s0 (countClosed s as) := by
  unfold countClosed
  repeat' (first
    | with_reducible assumption
    | intro _
    | with_reducible apply modMgmt_later | with_reducible apply malformed_later
    | split
    | fail_if_no_progress with_reducible apply Later.upd)

theorem modSession_later {s0 : State} {s : State} (sid : Nat) (f : Session → Session) (hl : Later s0 s) :
    Later s0 (modSession s sid f) := by
  unfold modSession
  repeat' (first
    | with_reducible assumption
    | intro _
    | split
    | fail_if_no_progress with_reducible apply Later.upd)

theorem done_later {s0 : State} {s : State} (status : Nat) (body : Bytes) (hl : Later s0 s) :
    Later s0 (done s status body).st := by
  exact hl

theorem doGet_later {s0 : State} {s : State} (e : Session) (as : List ObjAddr) (hl : Later s0 s) :
    Later s0 (doGet s e as).st := by
  unfold doGet
  repeat' (first
    | with_reducible assumption
    | intro _
    | (extract_lets +onlyGivenNames x; clear_value (e : x = _); first | (with_reducible refine Later.cut (s0 := s0) e ?_ (fun _ => ?_) <;> clear e) | clear e)
    | with_reducible apply done_later | with_reducible apply countClosed_later)

theorem doSet_later {s0 : State} {s : State} (e : Session) (es : List ObjEntry) (hl : Later s0 s) :
    Later s0 (doSet s e es).st := by
  unfold doSet
  repeat' (first
    | with_reducible assumption
    | intro _
    | (extract_lets +onlyGivenNames x; clear_value (e : x = _); first | (with_reducible refine Later.cut (s0 := s0) e ?_ (fun _ => ?_) <;> clear e) | clear e)
    | with_reducible apply allocsSet_later | with_reducible apply countClosed_later | with_reducible apply setApply_later | with_reducible apply done_later
    | with_reducible apply Later.foldl | with_reducible apply Later.foldl1 | with_reducible apply Later.foldl2
    | (split <;> rename_i e <;> first | (with_reducible refine Later.cut1 (s0 := s0) e ?_ (fun _ => ?_) <;> clear e) | (with_reducible refine Later.cut2 (s0 := s0) e ?_ (fun _ => ?_) <;> clear e) | (with_reducible refine Later.cut3 (s0 := s0) e ?_ (fun _ => ?_) <;> clear e) | skip)
    | fail_if_no_progress with_reducible apply Later.upd)

theorem doGetblock_later {s0 : State} {s : State} (sid : Nat) (e : Session) (a : ObjAddr) (off : Nat) (maxLen : Nat) (hl : Later s0 s) :
    Later s0 (doGetblock s sid e a off maxLen).st := by
  unfold doGetblock
  repeat' (first
    | with_reducible assumption
    | intro _
    | (extract_lets +onlyGivenNames x; clear_value (e : x = _); first | (with_reducible refine Later.cut (s0 := s0) e ?_ (fun _ => ?_) <;> clear e) | clear e)
    | with_reducible apply countClosed_later | with_reducible apply done_later | with_reducible apply modSession_later
    | split
    | fail_if_no_progress with_reducible apply Later.upd)

theorem dropStaging_later {s0 : State} {s : State} (sid : Nat) (hl : Later s0 s) :
    Later s0 (dropStaging s sid) := by
  unfold dropStaging
  repeat' (first
    | with_reducible assumption
    | intro _
    | with_reducible apply modSession_later | with_reducible apply dropImage_later
    | split
    | fail_if_no_progress with_reducible apply Later.upd)

theorem beginImage_later {s0 : State} {s : State} (hl : Later s0 s) :
    Later s0 (beginImage s) := by
  unfold beginImage
  repeat' (first
    | with_reducible assumption
    | intro _
    | (extract_lets +onlyGivenNames x; clear_value (e : x = _); first | (with_reducible refine Later.cut (s0 := s0) e ?_ (fun _ => ?_) <;> clear e) | clear e)
    | with_reducible apply modFw_later
    | split
    | fail_if_no_progress with_reducible apply Later.upd)

theorem endImage_later {s0 : State} {s : State} (data : Bytes) (hl : Later s0 s) :
    Later s0 (endImage s data) := by
  unfold endImage
  repeat' (first
    | with_reducible assumption
    | intro _
    | (extract_lets +onlyGivenNames x; clear_value (e : x = _); first | (with_reducible refine Later.cut (s0 := s0) e ?_ (fun _ => ?_) <;> clear e) | clear e)
    | with_reducible apply fwEvent_later | with_reducible apply modFw_later
    | fail_if_no_progress with_reducible apply Later.upd)

theorem doSetblock_later {s0 : State} {s : State} (sid : Nat) (e : Session) (a : ObjAddr) (off : Nat) (data : Bytes) (last : Bool) (hl : Later s0 s) :
    Later s0 (doSetblock s sid e a off data last).st := by
  unfold doSetblock
  repeat' (first
    | with_reducible assumption
    | intro _
    | (extract_lets +onlyGivenNames x; clear_value (e : x = _); first | (with_reducible refine Later.cut (s0 := s0) e ?_ (fun _ => ?_) <;> clear e) | clear e)
    | with_reducible apply countClosed_later | with_reducible apply done_later | with_reducible apply dropStaging_later | with_reducible apply beginImage_later | with_reducible apply modSession_later | with_reducible apply endImage_later | with_reducible apply setApply_later
    | split
    | fail_if_no_progress with_reducible apply Later.upd)

theorem doSubscribe_later {s0 : State} {s : State} (sid : Nat) (r : SubReq) (hl : Later s0 s) :
    Later s0 (doSubscribe s sid r).st := by
  unfold doSubscribe
  repeat' (first
    | with_reducible assumption
    | intro _
    | (extract_lets +onlyGivenNames x; clear_value (e : x = _); first | (with_reducible refine Later.cut (s0 := s0) e ?_ (fun _ => ?_) <;> clear e) | clear e)
    | with_reducible apply done_later | with_reducible apply modSession_later
    | with_reducible apply Later.foldl | with_reducible apply Later.foldl1 | with_reducible apply Later.foldl2
    | (split <;> rename_i e <;> first | (with_reducible refine Later.cut1 (s0 := s0) e ?_ (fun _ => ?_) <;> clear e) | (with_reducible refine Later.cut2 (s0 := s0) e ?_ (fun _ => ?_) <;> clear e) | (with_reducible refine Later.cut3 (s0 := s0) e ?_ (fun _ => ?_) <;> clear e) | skip)
    | fail_if_no_progress with_reducible apply Later.upd)

theorem doAction_later {s0 : State} {s : State} (e : Session) (t : ObjEntry) (hl : Later s0 s) :
    Later s0 (doAction s e t).st := by
  unfold doAction
  repeat' (first
    | with_reducible assumption
    | intro _
    | (extract_lets +onlyGivenNames x; clear_value (e : x = _); first | (with_reducible refine Later.cut (s0 := s0) e ?_ (fun _ => ?_) <;> clear e) | clear e)
    | with_reducible apply countClosed_later
    | split)

theorem perform_later {s0 : State} {s : State} (sid : Nat) (e : Session) (h : SasilHdr) (b : SasilBody) (hl : Later s0 s) :
    Later s0 (perform s sid e h b).st := by
  unfold perform
  repeat' (first
    | with_reducible assumption
    | intro _
    | with_reducible apply done_later | with_reducible apply doGet_later | with_reducible apply doSet_later | with_reducible apply doGetblock_later | with_reducible apply doSetblock_later | with_reducible apply doSubscribe_later | with_reducible apply doAction_later
    | split
    | fail_if_no_progress with_reducible apply Later.upd)

theorem runAction_later {s0 : State} {s : State} (sid : Nat) (e : Session) (h : SasilHdr) (t : ObjEntry) (hl : Later s0 s) :
    Later s0 (runAction s sid e h t) := by
  unfold runAction
  repeat' (first
    | with_reducible assumption
    | intro _
    | (extract_lets +onlyGivenNames x; clear_value (e : x = _); first | (with_reducible refine Later.cut (s0 := s0) e ?_ (fun _ => ?_) <;> clear e) | clear e)
    | with_reducible apply actRun_later | with_reducible apply modWake_later | with_reducible apply modSession_later | with_reducible apply sendEvent_later
    | (split <;> rename_i e <;> first | (with_reducible refine Later.cut1 (s0 := s0) e ?_ (fun _ => ?_) <;> clear e) | (with_reducible refine Later.cut2 (s0 := s0) e ?_ (fun _ => ?_) <;> clear e) | (with_reducible refine Later.cut3 (s0 := s0) e ?_ (fun _ => ?_) <;> clear e) | skip)
    | fail_if_no_progress with_reducible apply Later.upd)

theorem runOne_later {s0 : State} {s : State} (sid : Nat) (h : SasilHdr) (b : SasilBody) (hl : Later s0 s) :
    Later s0 (runOne s sid h b) := by
  unfold runOne
  repeat' (first
    | with_reducible assumption
    | intro _
    | (extract_lets +onlyGivenNames x; clear_value (e : x = _); first | (with_reducible refine Later.cut (s0 := s0) e ?_ (fun _ => ?_) <;> clear e) | (with_reducible refine Later.cutD (s0 := s0) e ?_ (fun hg => ?_) <;> clear e) | clear e)
    | with_reducible apply hg
    | with_reducible apply perform_later | with_reducible apply modSession_later | with_reducible apply sendMsg_later | with_reducible apply runAction_later | with_reducible apply closeSession_later
    | split
    | fail_if_no_progress with_reducible apply Later.upd)

theorem runHeld_later {s0 : State} (fuel : Nat) {s : State} (sid : Nat) (hl : Later s0 s) :
    Later s0 (runHeld fuel s sid) := by
  induction fuel generalizing s with
  | zero => exact hl
  | succ n ih =>
    unfold runHeld
    repeat' (first
      | with_reducible assumption
      | intro _ | with_reducible apply ih
      | with_reducible apply runOne_later | with_reducible apply modSession_later
      | split
      | fail_if_no_progress with_reducible apply Later.upd)

theorem refuse_later {s0 : State} {s : State} (h : SasilHdr) (b : SasilBody) (sid : Nat) (status : Nat) (hl : Later s0 s) :
    Later s0 (refuse s h b sid status) := by
  unfold refuse
  repeat' (first
    | with_reducible assumption
    | intro _
    | (extract_lets +onlyGivenNames x; clear_value (e : x = _); first | (with_reducible refine Later.cut (s0 := s0) e ?_ (fun _ => ?_) <;> clear e) | clear e)
    | with_reducible apply sendMsg_later
    | split
    | fail_if_no_progress with_reducible apply Later.upd)

theorem bySeq_later {s0 : State} {s : State} (sid : Nat) (e : Session) (h : SasilHdr) (b : SasilBody) (hl : Later s0 s) :
    Later s0 (bySeq s sid e h b) := by
  unfold bySeq
  repeat' (first
    | with_reducible assumption
    | intro _
    | with_reducible apply sendMsg_later | with_reducible apply runHeld_later | with_reducible apply runOne_later | with_reducible apply refuse_later | with_reducible apply modSession_later
    | split
    | fail_if_no_progress with_reducible apply Later.upd)

theorem helloReply_later {s0 : State} {s : State} (h : SasilHdr) (sid : Nat) (ver : Nat) (e : Session) (hl : Later s0 s) :
    Later s0 (helloReply s h sid ver e) := by
  unfold helloReply
  repeat' (first
    | with_reducible assumption
    | intro _
    | with_reducible apply sendMsg_later
    | split)

theorem helloIn_later {s0 : State} {s : State} (h : SasilHdr) (sid : Nat) (e : Session) (vmask : Nat) (hl : Later s0 s) :
    Later s0 (helloIn s h sid e vmask) := by
  unfold helloIn
  repeat' (first
    | with_reducible assumption
    | intro _
    | with_reducible apply refuse_later | with_reducible apply closeSession_later | with_reducible apply helloReply_later | with_reducible apply modSession_later
    | split
    | fail_if_no_progress with_reducible apply Later.upd)

theorem helloPlain_later {s0 : State} {s : State} (h : SasilHdr) (vmask : Nat) (hl : Later s0 s) :
    Later s0 (helloPlain s h vmask) := by
  unfold helloPlain
  repeat' (first
    | with_reducible assumption
    | intro _
    | (extract_lets +onlyGivenNames x; clear_value (e : x = _); first | (with_reducible refine Later.cut (s0 := s0) e ?_ (fun _ => ?_) <;> clear e) | clear e)
    | with_reducible apply closeSessions_later | with_reducible apply refuse_later | with_reducible apply refuseSession_later | with_reducible apply helloReply_later | with_reducible apply openSession_later
    | split
    | fail_if_no_progress with_reducible apply Later.upd)

theorem request_later {s0 : State} {s : State} (h : SasilHdr) (b : SasilBody) (hl : Later s0 s) :
    Later s0 (request s h b) := by
  unfold request
  repeat' (first
    | with_reducible assumption
    | intro _
    | (extract_lets +onlyGivenNames x; clear_value (e : x = _); first | (with_reducible refine Later.cut (s0 := s0) e ?_ (fun _ => ?_) <;> clear e) | (with_reducible refine Later.cutC (s0 := s0) e ?_ (fun hg => ?_) <;> clear e) | clear e)
    | with_reducible apply hg
    | with_reducible apply refuse_later | with_reducible apply malformed_later | with_reducible apply helloPlain_later | with_reducible apply helloIn_later | with_reducible apply bySeq_later
    | split
    | fail_if_no_progress with_reducible apply Later.upd)

theorem unit_later {s0 : State} {s : State} (tr : Transport) (u : MgmtUnit) (hl : Later s0 s) :
    Later s0 (unit s tr u) := by
  unfold unit
  repeat' (first
    | with_reducible assumption
    | intro _
    | with_reducible apply spdm_later | with_reducible apply request_later | with_reducible apply tagBad_later | with_reducible apply badUnit_later
    | split
    | fail_if_no_progress with_reducible apply Later.upd)

theorem deliver_later {s0 : State} {s : State} (sid : Nat) (hl : Later s0 s) :
    Later s0 (deliver s sid) := by
  unfold deliver
  repeat' (first
    | with_reducible assumption
    | intro _
    | (extract_lets +onlyGivenNames x; clear_value (e : x = _); first | (with_reducible refine Later.cut (s0 := s0) e ?_ (fun _ => ?_) <;> clear e) | (with_reducible refine Later.cutF (s0 := s0) e ?_ (fun hg => ?_) <;> clear e) | (with_reducible refine Later.cutF1 (s0 := s0) e ?_ (fun hg => ?_) <;> clear e) | (with_reducible refine Later.cutF2 (s0 := s0) e ?_ (fun hg => ?_) <;> clear e) | (with_reducible refine Later.cutC (s0 := s0) e ?_ (fun hg => ?_) <;> clear e) | (with_reducible refine Later.cutFp (s0 := s0) e ?_ (fun hg => ?_) <;> clear e) | clear e)
    | with_reducible apply modFn_later | with_reducible apply modSession_later | with_reducible apply sendEvent_later
    | with_reducible apply hg
    | with_reducible apply Later.foldl | with_reducible apply Later.foldl1 | with_reducible apply Later.foldl2
    | with_reducible apply Later.getD_none | with_reducible apply Later.getD_some
    | (split <;> rename_i e <;> first | (with_reducible refine Later.cut1 (s0 := s0) e ?_ (fun _ => ?_) <;> clear e) | (with_reducible refine Later.cut2 (s0 := s0) e ?_ (fun _ => ?_) <;> clear e) | (with_reducible refine Later.cut3 (s0 := s0) e ?_ (fun _ => ?_) <;> clear e) | skip)
    | fail_if_no_progress with_reducible apply Later.upd)

end Sys2Proof.Machine
end

