-- ==== Sys2Proof/Laws/LaterActions.lean ====
section
/-!
SUPPORT. The operations of Machine/Actions.lean keep `Later`.
-/

set_option linter.unusedTactic false
set_option linter.unreachableTactic false

namespace Sys2Proof.Machine

theorem byAction_later {s0 : State} {s : State} (sid : Nat) (a : ObjAddr) (v : ObjVal) (hl : Later s0 s) :
    Later s0 (byAction s sid a v) := by
  unfold byAction
  repeat' (first
    | with_reducible assumption
    | intro _
    | with_reducible apply actRun_later
    | split
    | fail_if_no_progress with_reducible apply Later.upd)

theorem bySet_later {s0 : State} {s : State} (sid : Nat) (a : ObjAddr) (v : ObjVal) (hl : Later s0 s) :
    Later s0 (bySet s sid a v) := by
  unfold bySet
  repeat' (first
    | with_reducible assumption
    | intro _
    | with_reducible apply setApply_later
    | split
    | fail_if_no_progress with_reducible apply Later.upd)

theorem execSurveyRevoke_later (sid : Nat) (seq : Nat) {s : State} :
    ∃ s', (execSurveyRevoke sid seq s) = .next s' ∧ Later s s' := by
  have hl := Later.refl s
  refine ⟨_, rfl, ?_⟩
  repeat' (first | with_reducible assumption | with_reducible apply byAction_later | intro _)

theorem execEpochAdvance_later (sid : Nat) {s : State} :
    ∃ s', (execEpochAdvance sid s) = .next s' ∧ Later s s' := by
  have hl := Later.refl s
  refine ⟨_, rfl, ?_⟩
  repeat' (first | with_reducible assumption | with_reducible apply byAction_later | intro _)

theorem execPortResetAction_later (sid : Nat) (p : Nat) {s : State} :
    ∃ s', (execPortResetAction sid p s) = .next s' ∧ Later s s' := by
  have hl := Later.refl s
  refine ⟨_, rfl, ?_⟩
  repeat' (first | with_reducible assumption | with_reducible apply byAction_later | intro _)

theorem execPortAdmit_later (sid : Nat) (p : Nat) {s : State} :
    ∃ s', (execPortAdmit sid p s) = .next s' ∧ Later s s' := by
  have hl := Later.refl s
  refine ⟨_, rfl, ?_⟩
  repeat' (first | with_reducible assumption | with_reducible apply byAction_later | intro _)

theorem execBundleKeySwitch_later (sid : Nat) (b : Nat) {s : State} :
    ∃ s', (execBundleKeySwitch sid b s) = .next s' ∧ Later s s' := by
  have hl := Later.refl s
  refine ⟨_, rfl, ?_⟩
  repeat' (first | with_reducible assumption | with_reducible apply byAction_later | intro _)

theorem execMemoryRetire_later (sid : Nat) (addr : Nat) {s : State} :
    ∃ s', (execMemoryRetire sid addr s) = .next s' ∧ Later s s' := by
  have hl := Later.refl s
  refine ⟨_, rfl, ?_⟩
  repeat' (first | with_reducible assumption | with_reducible apply byAction_later | intro _)

theorem execPartitionReset_later (sid : Nat) (p : Nat) {s : State} :
    ∃ s', (execPartitionReset sid p s) = .next s' ∧ Later s s' := by
  have hl := Later.refl s
  refine ⟨_, rfl, ?_⟩
  repeat' (first | with_reducible assumption | with_reducible apply byAction_later | intro _)

theorem execEchoResync_later (sid : Nat) {s : State} :
    ∃ s', (execEchoResync sid s) = .next s' ∧ Later s s' := by
  have hl := Later.refl s
  refine ⟨_, rfl, ?_⟩
  repeat' (first | with_reducible assumption | with_reducible apply byAction_later | intro _)

theorem execDomainSwitch_later (sid : Nat) (d : Nat) (v : Nat) {s : State} :
    ∃ s', (execDomainSwitch sid d v s) = .next s' ∧ Later s s' := by
  have hl := Later.refl s
  refine ⟨_, rfl, ?_⟩
  repeat' (first | with_reducible assumption | with_reducible apply byAction_later | intro _)

theorem execAuxReset_later (sid : Nat) (c : Nat) {s : State} :
    ∃ s', (execAuxReset sid c s) = .next s' ∧ Later s s' := by
  have hl := Later.refl s
  refine ⟨_, rfl, ?_⟩
  repeat' (first | with_reducible assumption | with_reducible apply byAction_later | intro _)

theorem execColdStart_later (sid : Nat) {s : State} :
    ∃ s', (execColdStart sid s) = .next s' ∧ Later s s' := by
  have hl := Later.refl s
  refine ⟨_, rfl, ?_⟩
  repeat' (first | with_reducible assumption | with_reducible apply byAction_later | intro _)

theorem execWarmStart_later (sid : Nat) {s : State} :
    ∃ s', (execWarmStart sid s) = .next s' ∧ Later s s' := by
  have hl := Later.refl s
  refine ⟨_, rfl, ?_⟩
  repeat' (first | with_reducible assumption | with_reducible apply byAction_later | intro _)

theorem execComputeReset_later (sid : Nat) {s : State} :
    ∃ s', (execComputeReset sid s) = .next s' ∧ Later s s' := by
  have hl := Later.refl s
  refine ⟨_, rfl, ?_⟩
  repeat' (first | with_reducible assumption | with_reducible apply byAction_later | intro _)

theorem execManagementRestart_later (sid : Nat) {s : State} :
    ∃ s', (execManagementRestart sid s) = .next s' ∧ Later s s' := by
  have hl := Later.refl s
  refine ⟨_, rfl, ?_⟩
  repeat' (first | with_reducible assumption | with_reducible apply byAction_later | intro _)

theorem execLowEnter_later (sid : Nat) {s : State} :
    ∃ s', (execLowEnter sid s) = .next s' ∧ Later s s' := by
  have hl := Later.refl s
  refine ⟨_, rfl, ?_⟩
  repeat' (first | with_reducible assumption | with_reducible apply bySet_later | intro _)

theorem execLowExit_later (sid : Nat) {s : State} :
    ∃ s', (execLowExit sid s) = .next s' ∧ Later s s' := by
  have hl := Later.refl s
  refine ⟨_, rfl, ?_⟩
  repeat' (first | with_reducible assumption | with_reducible apply bySet_later | intro _)

theorem execStateRelease_later (sid : Nat) {s : State} :
    ∃ s', (execStateRelease sid s) = .next s' ∧ Later s s' := by
  have hl := Later.refl s
  refine ⟨_, rfl, ?_⟩
  repeat' (first | with_reducible assumption | with_reducible apply byAction_later | intro _)

theorem execCoreReset_later (sid : Nat) (c : Nat) {s : State} :
    ∃ s', (execCoreReset sid c s) = .next s' ∧ Later s s' := by
  have hl := Later.refl s
  refine ⟨_, rfl, ?_⟩
  repeat' (first | with_reducible assumption | with_reducible apply byAction_later | intro _)

theorem execFailCore_later (sid : Nat) (c : Nat) {s : State} :
    ∃ s', (execFailCore sid c s) = .next s' ∧ Later s s' := by
  have hl := Later.refl s
  refine ⟨_, rfl, ?_⟩
  repeat' (first | with_reducible assumption | with_reducible apply byAction_later | intro _)

theorem execFieldCheck_later (sid : Nat) (v : Bytes) {s : State} :
    ∃ s', (execFieldCheck sid v s) = .next s' ∧ Later s s' := by
  have hl := Later.refl s
  refine ⟨_, rfl, ?_⟩
  repeat' (first | with_reducible assumption | with_reducible apply byAction_later | intro _)

theorem execAlertAck_later (sid : Nat) (q : Nat) {s : State} :
    ∃ s', (execAlertAck sid q s) = .next s' ∧ Later s s' := by
  have hl := Later.refl s
  refine ⟨_, rfl, ?_⟩
  repeat' (first | with_reducible assumption | with_reducible apply byAction_later | intro _)

theorem execEnroll_later (sid : Nat) (v : Bytes) {s : State} :
    ∃ s', (execEnroll sid v s) = .next s' ∧ Later s s' := by
  have hl := Later.refl s
  refine ⟨_, rfl, ?_⟩
  repeat' (first | with_reducible assumption | with_reducible apply byAction_later | intro _)

theorem execSlotRevoke_later (sid : Nat) (k : Nat) {s : State} :
    ∃ s', (execSlotRevoke sid k s) = .next s' ∧ Later s s' := by
  have hl := Later.refl s
  refine ⟨_, rfl, ?_⟩
  repeat' (first | with_reducible assumption | with_reducible apply byAction_later | intro _)

theorem execFactoryReset_later (sid : Nat) {s : State} :
    ∃ s', (execFactoryReset sid s) = .next s' ∧ Later s s' := by
  have hl := Later.refl s
  refine ⟨_, rfl, ?_⟩
  repeat' (first | with_reducible assumption | with_reducible apply byAction_later | intro _)

theorem execFirmwareActivate_later (sid : Nat) (flags : Nat) {s : State} :
    ∃ s', (execFirmwareActivate sid flags s) = .next s' ∧ Later s s' := by
  have hl := Later.refl s
  refine ⟨_, rfl, ?_⟩
  repeat' (first | with_reducible assumption | with_reducible apply byAction_later | intro _)

theorem execFirmwareVerifyDone_later (sigOk : Bool) (digOk : Bool) {s : State} :
    ∃ s', (execFirmwareVerifyDone sigOk digOk s) = .next s' ∧ Later s s' := by
  have hl := Later.refl s
  refine ⟨_, rfl, ?_⟩
  repeat' (first | with_reducible assumption | with_reducible apply verifyEnd_later | intro _)

theorem execFirmwareConfirm_later (sid : Nat) {s : State} :
    ∃ s', (execFirmwareConfirm sid s) = .next s' ∧ Later s s' := by
  have hl := Later.refl s
  refine ⟨_, rfl, ?_⟩
  repeat' (first | with_reducible assumption | with_reducible apply byAction_later | intro _)

theorem execFirmwareRevert_later (sid : Nat) {s : State} :
    ∃ s', (execFirmwareRevert sid s) = .next s' ∧ Later s s' := by
  have hl := Later.refl s
  refine ⟨_, rfl, ?_⟩
  repeat' (first | with_reducible assumption | with_reducible apply byAction_later | intro _)

theorem execTrialHealth_later (fields : Bool) (answered : Bool) {s : State} :
    ∃ s', (execTrialHealth fields answered s) = .next s' ∧ Later s s' := by
  have hl := Later.refl s
  refine ⟨_, rfl, ?_⟩
  repeat' (first
    | with_reducible assumption
    | intro _
    | with_reducible apply trialSettle_later | with_reducible apply modFw_later
    | split
    | fail_if_no_progress with_reducible apply Later.upd)

theorem execTrialTimeout_later {s : State} :
    ∃ s', (execTrialTimeout s) = .next s' ∧ Later s s' := by
  have hl := Later.refl s
  refine ⟨_, rfl, ?_⟩
  repeat' (first | with_reducible assumption | with_reducible apply trialUnconfirmed_later | intro _)

theorem execCountersClear_later (sid : Nat) {s : State} :
    ∃ s', (execCountersClear sid s) = .next s' ∧ Later s s' := by
  have hl := Later.refl s
  refine ⟨_, rfl, ?_⟩
  repeat' (first | with_reducible assumption | with_reducible apply byAction_later | intro _)

end Sys2Proof.Machine
end

