-- ==== Sys2Proof/Laws/LaterAlu.lean ====
section
/-!
SUPPORT. The operations of Machine/Alu.lean keep `Later`.
-/

set_option linter.unusedTactic false
set_option linter.unreachableTactic false

namespace Sys2Proof.Machine

theorem execAdd_later (c : Nat) (d : Reg) (a : Reg) (b : Reg) {s : State} :
    ∃ s', (execAdd c d a b s) = .next s' ∧ Later s s' := by
  have hl := Later.refl s
  refine ⟨_, rfl, ?_⟩
  repeat' (first | with_reducible assumption | with_reducible apply alu_later | intro _)

theorem execSub_later (c : Nat) (d : Reg) (a : Reg) (b : Reg) {s : State} :
    ∃ s', (execSub c d a b s) = .next s' ∧ Later s s' := by
  have hl := Later.refl s
  refine ⟨_, rfl, ?_⟩
  repeat' (first | with_reducible assumption | with_reducible apply alu_later | intro _)

theorem execAnd_later (c : Nat) (d : Reg) (a : Reg) (b : Reg) {s : State} :
    ∃ s', (execAnd c d a b s) = .next s' ∧ Later s s' := by
  have hl := Later.refl s
  refine ⟨_, rfl, ?_⟩
  repeat' (first | with_reducible assumption | with_reducible apply alu_later | intro _)

theorem execOr_later (c : Nat) (d : Reg) (a : Reg) (b : Reg) {s : State} :
    ∃ s', (execOr c d a b s) = .next s' ∧ Later s s' := by
  have hl := Later.refl s
  refine ⟨_, rfl, ?_⟩
  repeat' (first | with_reducible assumption | with_reducible apply alu_later | intro _)

theorem execXor_later (c : Nat) (d : Reg) (a : Reg) (b : Reg) {s : State} :
    ∃ s', (execXor c d a b s) = .next s' ∧ Later s s' := by
  have hl := Later.refl s
  refine ⟨_, rfl, ?_⟩
  repeat' (first | with_reducible assumption | with_reducible apply alu_later | intro _)

theorem execSll_later (c : Nat) (d : Reg) (a : Reg) (b : Reg) {s : State} :
    ∃ s', (execSll c d a b s) = .next s' ∧ Later s s' := by
  have hl := Later.refl s
  refine ⟨_, rfl, ?_⟩
  repeat' (first | with_reducible assumption | with_reducible apply alu_later | intro _)

theorem execSrl_later (c : Nat) (d : Reg) (a : Reg) (b : Reg) {s : State} :
    ∃ s', (execSrl c d a b s) = .next s' ∧ Later s s' := by
  have hl := Later.refl s
  refine ⟨_, rfl, ?_⟩
  repeat' (first | with_reducible assumption | with_reducible apply alu_later | intro _)

theorem execSra_later (c : Nat) (d : Reg) (a : Reg) (b : Reg) {s : State} :
    ∃ s', (execSra c d a b s) = .next s' ∧ Later s s' := by
  have hl := Later.refl s
  refine ⟨_, rfl, ?_⟩
  repeat' (first | with_reducible assumption | with_reducible apply alu_later | intro _)

theorem execSlt_later (c : Nat) (d : Reg) (a : Reg) (b : Reg) {s : State} :
    ∃ s', (execSlt c d a b s) = .next s' ∧ Later s s' := by
  have hl := Later.refl s
  refine ⟨_, rfl, ?_⟩
  repeat' (first | with_reducible assumption | with_reducible apply alu_later | intro _)

theorem execSltu_later (c : Nat) (d : Reg) (a : Reg) (b : Reg) {s : State} :
    ∃ s', (execSltu c d a b s) = .next s' ∧ Later s s' := by
  have hl := Later.refl s
  refine ⟨_, rfl, ?_⟩
  repeat' (first | with_reducible assumption | with_reducible apply alu_later | intro _)

theorem execMin_later (c : Nat) (d : Reg) (a : Reg) (b : Reg) {s : State} :
    ∃ s', (execMin c d a b s) = .next s' ∧ Later s s' := by
  have hl := Later.refl s
  refine ⟨_, rfl, ?_⟩
  repeat' (first
    | with_reducible assumption
    | intro _
    | with_reducible apply alu_later
    | split)

theorem execMax_later (c : Nat) (d : Reg) (a : Reg) (b : Reg) {s : State} :
    ∃ s', (execMax c d a b s) = .next s' ∧ Later s s' := by
  have hl := Later.refl s
  refine ⟨_, rfl, ?_⟩
  repeat' (first
    | with_reducible assumption
    | intro _
    | with_reducible apply alu_later
    | split)

theorem execMinu_later (c : Nat) (d : Reg) (a : Reg) (b : Reg) {s : State} :
    ∃ s', (execMinu c d a b s) = .next s' ∧ Later s s' := by
  have hl := Later.refl s
  refine ⟨_, rfl, ?_⟩
  repeat' (first
    | with_reducible assumption
    | intro _
    | with_reducible apply alu_later
    | split)

theorem execMaxu_later (c : Nat) (d : Reg) (a : Reg) (b : Reg) {s : State} :
    ∃ s', (execMaxu c d a b s) = .next s' ∧ Later s s' := by
  have hl := Later.refl s
  refine ⟨_, rfl, ?_⟩
  repeat' (first
    | with_reducible assumption
    | intro _
    | with_reducible apply alu_later
    | split)

theorem execMul_later (c : Nat) (d : Reg) (a : Reg) (b : Reg) {s : State} :
    ∃ s', (execMul c d a b s) = .next s' ∧ Later s s' := by
  have hl := Later.refl s
  refine ⟨_, rfl, ?_⟩
  repeat' (first | with_reducible assumption | with_reducible apply alu_later | intro _)

theorem execMulh_later (c : Nat) (d : Reg) (a : Reg) (b : Reg) {s : State} :
    ∃ s', (execMulh c d a b s) = .next s' ∧ Later s s' := by
  have hl := Later.refl s
  refine ⟨_, rfl, ?_⟩
  repeat' (first | with_reducible assumption | with_reducible apply alu_later | intro _)

theorem execMulhu_later (c : Nat) (d : Reg) (a : Reg) (b : Reg) {s : State} :
    ∃ s', (execMulhu c d a b s) = .next s' ∧ Later s s' := by
  have hl := Later.refl s
  refine ⟨_, rfl, ?_⟩
  repeat' (first | with_reducible assumption | with_reducible apply alu_later | intro _)

theorem execClz_later (c : Nat) (d : Reg) (a : Reg) (b : Reg) {s : State} :
    ∃ s', (execClz c d a b s) = .next s' ∧ Later s s' := by
  have hl := Later.refl s
  refine ⟨_, rfl, ?_⟩
  repeat' (first | with_reducible assumption | with_reducible apply alu1_later | intro _)

theorem execCtz_later (c : Nat) (d : Reg) (a : Reg) (b : Reg) {s : State} :
    ∃ s', (execCtz c d a b s) = .next s' ∧ Later s s' := by
  have hl := Later.refl s
  refine ⟨_, rfl, ?_⟩
  repeat' (first | with_reducible assumption | with_reducible apply alu1_later | intro _)

theorem execPopc_later (c : Nat) (d : Reg) (a : Reg) (b : Reg) {s : State} :
    ∃ s', (execPopc c d a b s) = .next s' ∧ Later s s' := by
  have hl := Later.refl s
  refine ⟨_, rfl, ?_⟩
  repeat' (first | with_reducible assumption | with_reducible apply alu1_later | intro _)

theorem execAddi_later (c : Nat) (d : Reg) (a : Reg) (imm : BitVec 15) {s : State} :
    ∃ s', (execAddi c d a imm s) = .next s' ∧ Later s s' := by
  have hl := Later.refl s
  refine ⟨_, rfl, ?_⟩
  repeat' (first | with_reducible assumption | with_reducible apply aluImm_later | intro _)

theorem execAndi_later (c : Nat) (d : Reg) (a : Reg) (imm : BitVec 15) {s : State} :
    ∃ s', (execAndi c d a imm s) = .next s' ∧ Later s s' := by
  have hl := Later.refl s
  refine ⟨_, rfl, ?_⟩
  repeat' (first | with_reducible assumption | with_reducible apply aluImm_later | intro _)

theorem execOri_later (c : Nat) (d : Reg) (a : Reg) (imm : BitVec 15) {s : State} :
    ∃ s', (execOri c d a imm s) = .next s' ∧ Later s s' := by
  have hl := Later.refl s
  refine ⟨_, rfl, ?_⟩
  repeat' (first | with_reducible assumption | with_reducible apply aluImm_later | intro _)

theorem execXori_later (c : Nat) (d : Reg) (a : Reg) (imm : BitVec 15) {s : State} :
    ∃ s', (execXori c d a imm s) = .next s' ∧ Later s s' := by
  have hl := Later.refl s
  refine ⟨_, rfl, ?_⟩
  repeat' (first | with_reducible assumption | with_reducible apply aluImm_later | intro _)

theorem execSlti_later (c : Nat) (d : Reg) (a : Reg) (imm : BitVec 15) {s : State} :
    ∃ s', (execSlti c d a imm s) = .next s' ∧ Later s s' := by
  have hl := Later.refl s
  refine ⟨_, rfl, ?_⟩
  repeat' (first | with_reducible assumption | with_reducible apply aluImm_later | intro _)

theorem execOrsh_later (c : Nat) (d : Reg) (a : Reg) (imm : BitVec 15) {s : State} :
    ∃ s', (execOrsh c d a imm s) = .next s' ∧ Later s s' := by
  have hl := Later.refl s
  refine ⟨_, rfl, ?_⟩
  repeat' (first | with_reducible assumption | with_reducible apply aluImm_later | intro _)

theorem execSlli_later (c : Nat) (d : Reg) (a : Reg) (imm : BitVec 15) {s : State} :
    ∃ s', (execSlli c d a imm s) = .next s' ∧ Later s s' := by
  have hl := Later.refl s
  refine ⟨_, rfl, ?_⟩
  repeat' (first | with_reducible assumption | with_reducible apply aluShift_later | intro _)

theorem execSrli_later (c : Nat) (d : Reg) (a : Reg) (imm : BitVec 15) {s : State} :
    ∃ s', (execSrli c d a imm s) = .next s' ∧ Later s s' := by
  have hl := Later.refl s
  refine ⟨_, rfl, ?_⟩
  repeat' (first | with_reducible assumption | with_reducible apply aluShift_later | intro _)

theorem execSrai_later (c : Nat) (d : Reg) (a : Reg) (imm : BitVec 15) {s : State} :
    ∃ s', (execSrai c d a imm s) = .next s' ∧ Later s s' := by
  have hl := Later.refl s
  refine ⟨_, rfl, ?_⟩
  repeat' (first | with_reducible assumption | with_reducible apply aluShift_later | intro _)

end Sys2Proof.Machine
end

