-- ==== Sys2Proof/Laws/LaterCounters.lean ====
section
/-!
SUPPORT. The operations of Machine/Counters.lean keep `Later`.
-/

set_option linter.unusedTactic false
set_option linter.unreachableTactic false

namespace Sys2Proof.Machine

theorem execCounterWrap_later (x : CntRef) (n : Nat) {s : State} :
    ∃ s', (execCounterWrap x n s) = .next s' ∧ Later s s' := by
  have hl := Later.refl s
  refine ⟨_, rfl, ?_⟩
  repeat' (first
    | with_reducible assumption
    | intro _
    | (extract_lets +onlyGivenNames x; clear_value (e : x = _); first | (with_reducible refine Later.cut (s0 := s) e ?_ (fun _ => ?_) <;> clear e) | clear e)
    | with_reducible apply modCore_later
    | split
    | fail_if_no_progress with_reducible apply Later.upd)

theorem modSmp_later {s0 : State} {s : State} (c : Nat) (g : Sampler → Sampler) (hl : Later s0 s) :
    Later s0 (modSmp s c g) := by
  unfold modSmp
  repeat' (first
    | with_reducible assumption
    | intro _
    | with_reducible apply modCore_later
    | fail_if_no_progress with_reducible apply Later.upd)

theorem smpLose_later {s0 : State} {s : State} (c : Nat) (hl : Later s0 s) :
    Later s0 (smpLose s c) := by
  unfold smpLose
  repeat' (first
    | with_reducible assumption
    | intro _
    | (extract_lets +onlyGivenNames x; clear_value (e : x = _); first | (with_reducible refine Later.cut (s0 := s0) e ?_ (fun _ => ?_) <;> clear e) | clear e)
    | with_reducible apply count_later | with_reducible apply modSmp_later
    | (split <;> rename_i e <;> first | (with_reducible refine Later.cut1 (s0 := s0) e ?_ (fun _ => ?_) <;> clear e) | (with_reducible refine Later.cut2 (s0 := s0) e ?_ (fun _ => ?_) <;> clear e) | (with_reducible refine Later.cut3 (s0 := s0) e ?_ (fun _ => ?_) <;> clear e) | skip)
    | fail_if_no_progress with_reducible apply Later.upd)

theorem smpWrote_later {s0 : State} {s : State} (c : Nat) (hl : Later s0 s) :
    Later s0 (smpWrote s c) := by
  unfold smpWrote
  repeat' (first
    | with_reducible assumption
    | intro _
    | (extract_lets +onlyGivenNames x; clear_value (e : x = _); first | (with_reducible refine Later.cut (s0 := s0) e ?_ (fun _ => ?_) <;> clear e) | clear e)
    | with_reducible apply count_later | with_reducible apply modSmp_later
    | (split <;> rename_i e <;> first | (with_reducible refine Later.cut1 (s0 := s0) e ?_ (fun _ => ?_) <;> clear e) | (with_reducible refine Later.cut2 (s0 := s0) e ?_ (fun _ => ?_) <;> clear e) | (with_reducible refine Later.cut3 (s0 := s0) e ?_ (fun _ => ?_) <;> clear e) | skip)
    | fail_if_no_progress with_reducible apply Later.upd)

theorem execSampleRecord_later (c : Nat) {s : State} :
    ∃ s', (execSampleRecord c s) = .next s' ∧ Later s s' := by
  have hl := Later.refl s
  refine ⟨_, rfl, ?_⟩
  repeat' (first
    | with_reducible assumption
    | intro _
    | (extract_lets +onlyGivenNames x; clear_value (e : x = _); first | (with_reducible refine Later.cut (s0 := s) e ?_ (fun _ => ?_) <;> clear e) | clear e)
    | with_reducible apply modSmp_later | with_reducible apply smpLose_later | with_reducible apply hbmAccess_later | with_reducible apply smpWrote_later | with_reducible apply spWrite_later
    | (split <;> rename_i e <;> first | (with_reducible refine Later.cut1 (s0 := s) e ?_ (fun _ => ?_) <;> clear e) | (with_reducible refine Later.cut2 (s0 := s) e ?_ (fun _ => ?_) <;> clear e) | (with_reducible refine Later.cut3 (s0 := s) e ?_ (fun _ => ?_) <;> clear e) | skip)
    | fail_if_no_progress with_reducible apply Later.upd)

end Sys2Proof.Machine
end

