-- ==== Sys2Proof/Laws/LaterSasil.lean ====
section
/-!
SUPPORT. The operations of Machine/Sasil.lean keep `Later`.
-/

set_option linter.unusedTactic false
set_option linter.unreachableTactic false

namespace Sys2Proof.Machine

theorem execGetVersion_later (tr : Transport) {s : State} :
    ∃ s', (execGetVersion tr s) = .next s' ∧ Later s s' := by
  have hl := Later.refl s
  refine ⟨_, rfl, ?_⟩
  repeat' (first | with_reducible assumption | with_reducible apply spdm_later | intro _)

theorem execGetCapabilities_later (tr : Transport) {s : State} :
    ∃ s', (execGetCapabilities tr s) = .next s' ∧ Later s s' := by
  have hl := Later.refl s
  refine ⟨_, rfl, ?_⟩
  repeat' (first | with_reducible assumption | with_reducible apply spdm_later | intro _)

theorem execNegotiateAlgorithms_later (tr : Transport) {s : State} :
    ∃ s', (execNegotiateAlgorithms tr s) = .next s' ∧ Later s s' := by
  have hl := Later.refl s
  refine ⟨_, rfl, ?_⟩
  repeat' (first | with_reducible assumption | with_reducible apply spdm_later | intro _)

theorem execGetDigests_later (tr : Transport) {s : State} :
    ∃ s', (execGetDigests tr s) = .next s' ∧ Later s s' := by
  have hl := Later.refl s
  refine ⟨_, rfl, ?_⟩
  repeat' (first | with_reducible assumption | with_reducible apply spdm_later | intro _)

theorem execGetCertificate_later (tr : Transport) (slot : Nat) {s : State} :
    ∃ s', (execGetCertificate tr slot s) = .next s' ∧ Later s s' := by
  have hl := Later.refl s
  refine ⟨_, rfl, ?_⟩
  repeat' (first | with_reducible assumption | with_reducible apply spdm_later | intro _)

theorem execKeyExchange_later (tr : Transport) (transcript : Bytes) {s : State} :
    ∃ s', (execKeyExchange tr transcript s) = .next s' ∧ Later s s' := by
  have hl := Later.refl s
  refine ⟨_, rfl, ?_⟩
  repeat' (first | with_reducible assumption | with_reducible apply spdm_later | intro _)

theorem execFinish_later (tr : Transport) (auth : Auth) {s : State} :
    ∃ s', (execFinish tr auth s) = .next s' ∧ Later s s' := by
  have hl := Later.refl s
  refine ⟨_, rfl, ?_⟩
  repeat' (first | with_reducible assumption | with_reducible apply spdm_later | intro _)

theorem execChallenge_later (tr : Transport) (nonce : Bytes) {s : State} :
    ∃ s', (execChallenge tr nonce s) = .next s' ∧ Later s s' := by
  have hl := Later.refl s
  refine ⟨_, rfl, ?_⟩
  repeat' (first | with_reducible assumption | with_reducible apply spdm_later | intro _)

theorem execGetMeasurements_later (tr : Transport) (idx : Nat) (nonce : Bytes) {s : State} :
    ∃ s', (execGetMeasurements tr idx nonce s) = .next s' ∧ Later s s' := by
  have hl := Later.refl s
  refine ⟨_, rfl, ?_⟩
  repeat' (first | with_reducible assumption | with_reducible apply spdm_later | intro _)

theorem execHeartbeat_later (tr : Transport) (sid : Nat) {s : State} :
    ∃ s', (execHeartbeat tr sid s) = .next s' ∧ Later s s' := by
  have hl := Later.refl s
  refine ⟨_, rfl, ?_⟩
  repeat' (first | with_reducible assumption | with_reducible apply spdm_later | intro _)

theorem execKeyUpdate_later (tr : Transport) (sid : Nat) {s : State} :
    ∃ s', (execKeyUpdate tr sid s) = .next s' ∧ Later s s' := by
  have hl := Later.refl s
  refine ⟨_, rfl, ?_⟩
  repeat' (first | with_reducible assumption | with_reducible apply spdm_later | intro _)

theorem execSessionTimeout_later (sid : Nat) {s : State} :
    ∃ s', (execSessionTimeout sid s) = .next s' ∧ Later s s' := by
  have hl := Later.refl s
  refine ⟨_, rfl, ?_⟩
  repeat' (first
    | with_reducible assumption
    | intro _
    | with_reducible apply closeSession_later
    | split
    | fail_if_no_progress with_reducible apply Later.upd)

theorem execMgmtDatagram_later (p : Nat) (src : Bytes) (u : MgmtUnit) {s : State} :
    ∃ s', (execMgmtDatagram p src u s) = .next s' ∧ Later s s' := by
  have hl := Later.refl s
  refine ⟨_, rfl, ?_⟩
  repeat' (first
    | with_reducible assumption
    | intro _
    | (extract_lets +onlyGivenNames x; clear_value (e : x = _); first | (with_reducible refine Later.cut (s0 := s) e ?_ (fun _ => ?_) <;> clear e) | clear e)
    | with_reducible apply modMgmt_later | with_reducible apply unit_later
    | (split <;> rename_i e <;> first | (with_reducible refine Later.cut1 (s0 := s) e ?_ (fun _ => ?_) <;> clear e) | (with_reducible refine Later.cut2 (s0 := s) e ?_ (fun _ => ?_) <;> clear e) | (with_reducible refine Later.cut3 (s0 := s) e ?_ (fun _ => ?_) <;> clear e) | skip)
    | fail_if_no_progress with_reducible apply Later.upd)

theorem execMgmtNetworkProbe_later (p : Nat) (kind : ProbeKind) (target : Bytes) {s : State} :
    ∃ s', (execMgmtNetworkProbe p kind target s) = .next s' ∧ Later s s' := by
  have hl := Later.refl s
  refine ⟨_, rfl, ?_⟩
  repeat' (first
    | with_reducible assumption
    | intro _
    | with_reducible apply emit_later
    | split
    | fail_if_no_progress with_reducible apply Later.upd)

theorem execMctpControl_later (c : MctpCtl) {s : State} :
    ∃ s', (execMctpControl c s) = .next s' ∧ Later s s' := by
  have hl := Later.refl s
  refine ⟨_, rfl, ?_⟩
  repeat' (first
    | with_reducible assumption
    | intro _
    | with_reducible apply emit_later | with_reducible apply modMgmt_later
    | split
    | fail_if_no_progress with_reducible apply Later.upd)

theorem execI3cEntdaa_later (addr : Nat) {s : State} :
    ∃ s', (execI3cEntdaa addr s) = .next s' ∧ Later s s' := by
  have hl := Later.refl s
  refine ⟨_, rfl, ?_⟩
  repeat' (first
    | with_reducible assumption
    | intro _
    | with_reducible apply modMgmt_later
    | split
    | fail_if_no_progress with_reducible apply Later.upd)

theorem mailboxGo_later {s0 : State} {s : State} (h : Nat) (f : Nat) (u : Option MgmtUnit) (hl : Later s0 s) :
    Later s0 (mailboxGo s h f u) := by
  unfold mailboxGo
  repeat' (first
    | with_reducible assumption
    | intro _
    | (extract_lets +onlyGivenNames x; clear_value (e : x = _); first | (with_reducible refine Later.cut (s0 := s0) e ?_ (fun _ => ?_) <;> clear e) | clear e)
    | with_reducible apply refuse_later | with_reducible apply badUnit_later | with_reducible apply spdm_later | with_reducible apply unit_later | with_reducible apply request_later
    | split
    | fail_if_no_progress with_reducible apply Later.upd)

theorem execMailboxGo_later (h : Nat) (f : Nat) (u : MgmtUnit) {s : State} :
    ∃ s', (execMailboxGo h f u s) = .next s' ∧ Later s s' := by
  have hl := Later.refl s
  refine ⟨_, rfl, ?_⟩
  repeat' (first | with_reducible assumption | with_reducible apply mailboxGo_later | intro _)

theorem execPeerMgmtPacket_later (dev : Nat) (u : MgmtUnit) {s : State} :
    ∃ s', (execPeerMgmtPacket dev u s) = .next s' ∧ Later s s' := by
  have hl := Later.refl s
  refine ⟨_, rfl, ?_⟩
  repeat' (first | with_reducible assumption | with_reducible apply unit_later | intro _)

theorem execHello_later (h : SasilHdr) (vmask : Nat) {s : State} :
    ∃ s', (execHello h vmask s) = .next s' ∧ Later s s' := by
  have hl := Later.refl s
  refine ⟨_, rfl, ?_⟩
  repeat' (first | with_reducible assumption | with_reducible apply request_later | intro _)

theorem execGet_later (h : SasilHdr) (as : List ObjAddr) {s : State} :
    ∃ s', (execGet h as s) = .next s' ∧ Later s s' := by
  have hl := Later.refl s
  refine ⟨_, rfl, ?_⟩
  repeat' (first | with_reducible assumption | with_reducible apply request_later | intro _)

theorem execSet_later (h : SasilHdr) (es : List ObjEntry) {s : State} :
    ∃ s', (execSet h es s) = .next s' ∧ Later s s' := by
  have hl := Later.refl s
  refine ⟨_, rfl, ?_⟩
  repeat' (first | with_reducible assumption | with_reducible apply request_later | intro _)

theorem execGetblock_later (h : SasilHdr) (a : ObjAddr) (off : Nat) (maxLen : Nat) {s : State} :
    ∃ s', (execGetblock h a off maxLen s) = .next s' ∧ Later s s' := by
  have hl := Later.refl s
  refine ⟨_, rfl, ?_⟩
  repeat' (first | with_reducible assumption | with_reducible apply request_later | intro _)

theorem execSetblock_later (h : SasilHdr) (a : ObjAddr) (off : Nat) (data : Bytes) {s : State} :
    ∃ s', (execSetblock h a off data s) = .next s' ∧ Later s s' := by
  have hl := Later.refl s
  refine ⟨_, rfl, ?_⟩
  repeat' (first | with_reducible assumption | with_reducible apply request_later | intro _)

theorem execSubscribe_later (h : SasilHdr) (r : SubReq) {s : State} :
    ∃ s', (execSubscribe h r s) = .next s' ∧ Later s s' := by
  have hl := Later.refl s
  refine ⟨_, rfl, ?_⟩
  repeat' (first | with_reducible assumption | with_reducible apply request_later | intro _)

theorem execAction_later (h : SasilHdr) (e : ObjEntry) {s : State} :
    ∃ s', (execAction h e s) = .next s' ∧ Later s s' := by
  have hl := Later.refl s
  refine ⟨_, rfl, ?_⟩
  repeat' (first | with_reducible assumption | with_reducible apply request_later | intro _)

theorem execClose_later (h : SasilHdr) {s : State} :
    ∃ s', (execClose h s) = .next s' ∧ Later s s' := by
  have hl := Later.refl s
  refine ⟨_, rfl, ?_⟩
  repeat' (first | with_reducible assumption | with_reducible apply request_later | intro _)

theorem execSequenceGapTimeout_later (sid : Nat) {s : State} :
    ∃ s', (execSequenceGapTimeout sid s) = .next s' ∧ Later s s' := by
  have hl := Later.refl s
  refine ⟨_, rfl, ?_⟩
  repeat' (first
    | with_reducible assumption
    | intro _
    | with_reducible apply refuse_later | with_reducible apply modSession_later
    | with_reducible apply Later.foldl
    | split
    | fail_if_no_progress with_reducible apply Later.upd)

theorem execStagingTimeout_later (sid : Nat) {s : State} :
    ∃ s', (execStagingTimeout sid s) = .next s' ∧ Later s s' := by
  have hl := Later.refl s
  refine ⟨_, rfl, ?_⟩
  repeat' (first | with_reducible assumption | with_reducible apply dropStaging_later | intro _)

theorem execConfigCommit_later {s : State} :
    ∃ s', (execConfigCommit s) = .next s' ∧ Later s s' := by
  have hl := Later.refl s
  refine ⟨_, rfl, ?_⟩
  repeat' (first
    | with_reducible assumption
    | intro _
    | with_reducible apply modMgmt_later
    | fail_if_no_progress with_reducible apply Later.upd)

theorem execMgmtSettingsApply_later {s : State} :
    ∃ s', (execMgmtSettingsApply s) = .next s' ∧ Later s s' := by
  have hl := Later.refl s
  refine ⟨_, rfl, ?_⟩
  repeat' (first
    | with_reducible assumption
    | intro _
    | with_reducible apply modMgmt_later
    | fail_if_no_progress with_reducible apply Later.upd)

theorem execEventDeliver_later (sid : Nat) {s : State} :
    ∃ s', (execEventDeliver sid s) = .next s' ∧ Later s s' := by
  have hl := Later.refl s
  refine ⟨_, rfl, ?_⟩
  repeat' (first | with_reducible assumption | with_reducible apply deliver_later | intro _)

end Sys2Proof.Machine
end

