-- ==== Sys2Proof/Laws/LaterVector.lean ====
section
/-!
SUPPORT. The operations of Machine/Vector.lean keep `Later`.
-/

set_option linter.unusedTactic false
set_option linter.unreachableTactic false

namespace Sys2Proof.Machine

theorem execVecAdd_later (c : Nat) (i : Issue) (d : VecDesc) {s : State} :
    ∃ s', (execVecAdd c i d s) = .next s' ∧ Later s s' := by
  have hl := Later.refl s
  refine ⟨_, rfl, ?_⟩
  repeat' (first | with_reducible assumption | with_reducible apply engRow_later | intro _)

theorem execVecSub_later (c : Nat) (i : Issue) (d : VecDesc) {s : State} :
    ∃ s', (execVecSub c i d s) = .next s' ∧ Later s s' := by
  have hl := Later.refl s
  refine ⟨_, rfl, ?_⟩
  repeat' (first | with_reducible assumption | with_reducible apply engRow_later | intro _)

theorem execVecMul_later (c : Nat) (i : Issue) (d : VecDesc) {s : State} :
    ∃ s', (execVecMul c i d s) = .next s' ∧ Later s s' := by
  have hl := Later.refl s
  refine ⟨_, rfl, ?_⟩
  repeat' (first | with_reducible assumption | with_reducible apply engRow_later | intro _)

theorem execVecFma_later (c : Nat) (i : Issue) (d : VecDesc) {s : State} :
    ∃ s', (execVecFma c i d s) = .next s' ∧ Later s s' := by
  have hl := Later.refl s
  refine ⟨_, rfl, ?_⟩
  repeat' (first | with_reducible assumption | with_reducible apply engRow_later | intro _)

theorem execVecMax_later (c : Nat) (i : Issue) (d : VecDesc) {s : State} :
    ∃ s', (execVecMax c i d s) = .next s' ∧ Later s s' := by
  have hl := Later.refl s
  refine ⟨_, rfl, ?_⟩
  repeat' (first | with_reducible assumption | with_reducible apply engRow_later | intro _)

theorem execVecMin_later (c : Nat) (i : Issue) (d : VecDesc) {s : State} :
    ∃ s', (execVecMin c i d s) = .next s' ∧ Later s s' := by
  have hl := Later.refl s
  refine ⟨_, rfl, ?_⟩
  repeat' (first | with_reducible assumption | with_reducible apply engRow_later | intro _)

theorem execVecSel_later (c : Nat) (i : Issue) (d : VecDesc) {s : State} :
    ∃ s', (execVecSel c i d s) = .next s' ∧ Later s s' := by
  have hl := Later.refl s
  refine ⟨_, rfl, ?_⟩
  repeat' (first | with_reducible assumption | with_reducible apply engRow_later | intro _)

theorem execVecCgt_later (c : Nat) (i : Issue) (d : VecDesc) {s : State} :
    ∃ s', (execVecCgt c i d s) = .next s' ∧ Later s s' := by
  have hl := Later.refl s
  refine ⟨_, rfl, ?_⟩
  repeat' (first | with_reducible assumption | with_reducible apply engRow_later | intro _)

theorem execVecAbs_later (c : Nat) (i : Issue) (d : VecDesc) {s : State} :
    ∃ s', (execVecAbs c i d s) = .next s' ∧ Later s s' := by
  have hl := Later.refl s
  refine ⟨_, rfl, ?_⟩
  repeat' (first | with_reducible assumption | with_reducible apply engRow_later | intro _)

theorem execVecNeg_later (c : Nat) (i : Issue) (d : VecDesc) {s : State} :
    ∃ s', (execVecNeg c i d s) = .next s' ∧ Later s s' := by
  have hl := Later.refl s
  refine ⟨_, rfl, ?_⟩
  repeat' (first | with_reducible assumption | with_reducible apply engRow_later | intro _)

theorem execVecExp2_later (c : Nat) (i : Issue) (d : VecDesc) {s : State} :
    ∃ s', (execVecExp2 c i d s) = .next s' ∧ Later s s' := by
  have hl := Later.refl s
  refine ⟨_, rfl, ?_⟩
  repeat' (first | with_reducible assumption | with_reducible apply engRow_later | intro _)

theorem execVecLog2_later (c : Nat) (i : Issue) (d : VecDesc) {s : State} :
    ∃ s', (execVecLog2 c i d s) = .next s' ∧ Later s s' := by
  have hl := Later.refl s
  refine ⟨_, rfl, ?_⟩
  repeat' (first | with_reducible assumption | with_reducible apply engRow_later | intro _)

theorem execVecRcp_later (c : Nat) (i : Issue) (d : VecDesc) {s : State} :
    ∃ s', (execVecRcp c i d s) = .next s' ∧ Later s s' := by
  have hl := Later.refl s
  refine ⟨_, rfl, ?_⟩
  repeat' (first | with_reducible assumption | with_reducible apply engRow_later | intro _)

theorem execVecRsqrt_later (c : Nat) (i : Issue) (d : VecDesc) {s : State} :
    ∃ s', (execVecRsqrt c i d s) = .next s' ∧ Later s s' := by
  have hl := Later.refl s
  refine ⟨_, rfl, ?_⟩
  repeat' (first | with_reducible assumption | with_reducible apply engRow_later | intro _)

theorem execVecRsum_later (c : Nat) (i : Issue) (d : VecDesc) {s : State} :
    ∃ s', (execVecRsum c i d s) = .next s' ∧ Later s s' := by
  have hl := Later.refl s
  refine ⟨_, rfl, ?_⟩
  repeat' (first | with_reducible assumption | with_reducible apply engRow_later | intro _)

theorem execVecRmax_later (c : Nat) (i : Issue) (d : VecDesc) {s : State} :
    ∃ s', (execVecRmax c i d s) = .next s' ∧ Later s s' := by
  have hl := Later.refl s
  refine ⟨_, rfl, ?_⟩
  repeat' (first | with_reducible assumption | with_reducible apply engRow_later | intro _)

theorem execVecRmin_later (c : Nat) (i : Issue) (d : VecDesc) {s : State} :
    ∃ s', (execVecRmin c i d s) = .next s' ∧ Later s s' := by
  have hl := Later.refl s
  refine ⟨_, rfl, ?_⟩
  repeat' (first | with_reducible assumption | with_reducible apply engRow_later | intro _)

theorem execVecRamax_later (c : Nat) (i : Issue) (d : VecDesc) {s : State} :
    ∃ s', (execVecRamax c i d s) = .next s' ∧ Later s s' := by
  have hl := Later.refl s
  refine ⟨_, rfl, ?_⟩
  repeat' (first | with_reducible assumption | with_reducible apply engRow_later | intro _)

theorem execVecCvt_later (c : Nat) (i : Issue) (d : VecDesc) {s : State} :
    ∃ s', (execVecCvt c i d s) = .next s' ∧ Later s s' := by
  have hl := Later.refl s
  refine ⟨_, rfl, ?_⟩
  repeat' (first | with_reducible assumption | with_reducible apply engRow_later | intro _)

theorem execVecQnt_later (c : Nat) (i : Issue) (d : VecDesc) {s : State} :
    ∃ s', (execVecQnt c i d s) = .next s' ∧ Later s s' := by
  have hl := Later.refl s
  refine ⟨_, rfl, ?_⟩
  repeat' (first | with_reducible assumption | with_reducible apply engRow_later | intro _)

theorem execVecQnte_later (c : Nat) (i : Issue) (d : VecDesc) {s : State} :
    ∃ s', (execVecQnte c i d s) = .next s' ∧ Later s s' := by
  have hl := Later.refl s
  refine ⟨_, rfl, ?_⟩
  repeat' (first | with_reducible assumption | with_reducible apply engRow_later | intro _)

theorem execVecDqnt_later (c : Nat) (i : Issue) (d : VecDesc) {s : State} :
    ∃ s', (execVecDqnt c i d s) = .next s' ∧ Later s s' := by
  have hl := Later.refl s
  refine ⟨_, rfl, ?_⟩
  repeat' (first | with_reducible assumption | with_reducible apply engRow_later | intro _)

theorem execVecTrn_later (c : Nat) (i : Issue) (d : VecDesc) {s : State} :
    ∃ s', (execVecTrn c i d s) = .next s' ∧ Later s s' := by
  have hl := Later.refl s
  refine ⟨_, rfl, ?_⟩
  repeat' (first | with_reducible assumption | with_reducible apply engRow_later | intro _)

theorem execVecCopy_later (c : Nat) (i : Issue) (d : VecDesc) {s : State} :
    ∃ s', (execVecCopy c i d s) = .next s' ∧ Later s s' := by
  have hl := Later.refl s
  refine ⟨_, rfl, ?_⟩
  repeat' (first | with_reducible assumption | with_reducible apply engRow_later | intro _)

theorem countVec_later {s0 : State} {s : State} (c : Nat) (f : Flight) (op : VecOp) (d : VecDesc) (x : VRun) (hl : Later s0 s) :
    Later s0 (countVec s c f op d x) := by
  unfold countVec
  repeat' (first
    | with_reducible assumption
    | intro _
    | (extract_lets +onlyGivenNames x; clear_value (e : x = _); first | (with_reducible refine Later.cut (s0 := s0) e ?_ (fun _ => ?_) <;> clear e) | clear e)
    | with_reducible apply count_later | with_reducible apply countConds_later
    | (split <;> rename_i e <;> first | (with_reducible refine Later.cut1 (s0 := s0) e ?_ (fun _ => ?_) <;> clear e) | (with_reducible refine Later.cut2 (s0 := s0) e ?_ (fun _ => ?_) <;> clear e) | (with_reducible refine Later.cut3 (s0 := s0) e ?_ (fun _ => ?_) <;> clear e) | skip)
    | fail_if_no_progress with_reducible apply Later.upd)

theorem execVecCommandStart_later (c : Nat) {s : State} :
    ∃ s', (execVecCommandStart c s) = .next s' ∧ Later s s' := by
  have hl := Later.refl s
  refine ⟨_, rfl, ?_⟩
  split
  · split
    · extract_lets s1 x s2 det
      have h1 : Later s s1 := modVec_later _ _ hl
      have h2 : Later s x.st := vecRun_later _ _ _ h1
      exact countVec_later _ _ _ _ _ (modCore_later _ _ (modVec_later _ _ h2))
    · exact hl
  · exact hl

theorem execVecCommandComplete_later (c : Nat) {s : State} :
    ∃ s', (execVecCommandComplete c s) = .next s' ∧ Later s s' := by
  have hl := Later.refl s
  refine ⟨_, rfl, ?_⟩
  repeat' (first
    | with_reducible assumption
    | intro _
    | (extract_lets +onlyGivenNames x; clear_value (e : x = _); first | (with_reducible refine Later.cut (s0 := s) e ?_ (fun _ => ?_) <;> clear e) | clear e)
    | with_reducible apply spWrite_later | with_reducible apply complete_later | with_reducible apply count_later
    | with_reducible apply Later.foldl | with_reducible apply Later.foldl1 | with_reducible apply Later.foldl2
    | (split <;> rename_i e <;> first | (with_reducible refine Later.cut1 (s0 := s) e ?_ (fun _ => ?_) <;> clear e) | (with_reducible refine Later.cut2 (s0 := s) e ?_ (fun _ => ?_) <;> clear e) | (with_reducible refine Later.cut3 (s0 := s) e ?_ (fun _ => ?_) <;> clear e) | skip)
    | fail_if_no_progress with_reducible apply Later.upd)

theorem vecSeedWrite_later {s0 : State} {s : State} (c : Nat) (w : W32) (hl : Later s0 s) :
    Later s0 (vecSeedWrite s c w) := by
  unfold vecSeedWrite
  repeat' (first
    | with_reducible assumption
    | intro _
    | with_reducible apply modVec_later
    | split
    | fail_if_no_progress with_reducible apply Later.upd)

end Sys2Proof.Machine
end

