-- ==== Sys2Proof/Laws/LaterRegWrite.lean ====
section
/-!
SUPPORT. The operations of Machine/RegWrite.lean keep `Later`.
-/

set_option linter.unusedTactic false
set_option linter.unreachableTactic false

namespace Sys2Proof.Machine

theorem clearPort_later {s0 : State} {s : State} (p : Nat) (off : Nat) (hl : Later s0 s) :
    Later s0 (clearPort s p off) := by
  unfold clearPort
  repeat' (first
    | with_reducible assumption
    | intro _
    | with_reducible apply modPort_later
    | split
    | fail_if_no_progress with_reducible apply Later.upd)

theorem modCnt_later {s0 : State} {s : State} (c : Nat) (g : CoreCnt → CoreCnt) (hl : Later s0 s) :
    Later s0 (modCnt s c g) := by
  unfold modCnt
  repeat' (first
    | with_reducible assumption
    | intro _
    | with_reducible apply modCore_later
    | fail_if_no_progress with_reducible apply Later.upd)

theorem clearCore_later {s0 : State} {s : State} (c : Nat) (off : Nat) (hl : Later s0 s) :
    Later s0 (clearCore s c off) := by
  unfold clearCore
  repeat' (first
    | with_reducible assumption
    | intro _
    | with_reducible apply modCtl_later | with_reducible apply modPrs_later | with_reducible apply modVec_later | with_reducible apply modSpd_later | with_reducible apply modDma_later | with_reducible apply modQue_later | with_reducible apply refuse_later | with_reducible apply modSmp_later
    | split
    | fail_if_no_progress with_reducible apply Later.upd)

theorem clearRc_later {s0 : State} {s : State} (b : CsrBlk) (off : Nat) (hl : Later s0 s) :
    Later s0 (clearRc s b off) := by
  unfold clearRc
  repeat' (first
    | with_reducible assumption
    | intro _
    | with_reducible apply clearCore_later | with_reducible apply modMsh_later | with_reducible apply clearPort_later | with_reducible apply modStack_later | with_reducible apply refuse_later | with_reducible apply modPwr_later
    | split
    | fail_if_no_progress with_reducible apply Later.upd)

theorem queSet_later {s0 : State} {s : State} (c : Nat) (q : Nat) (g : Queue → Queue) (hl : Later s0 s) :
    Later s0 (queSet s c q g) := by
  unfold queSet
  repeat' (first | with_reducible assumption | with_reducible apply modQ_later | intro _)

theorem queBaseWrite_later {s0 : State} {s : State} (c : Nat) (q : Nat) (v : Nat) (hl : Later s0 s) :
    Later s0 (queBaseWrite s c q v) := by
  unfold queBaseWrite
  repeat' (first
    | with_reducible assumption
    | intro _
    | with_reducible apply queSet_later
    | fail_if_no_progress with_reducible apply Later.upd)

theorem queCfgWrite_later {s0 : State} {s : State} (c : Nat) (q : Nat) (v : Nat) (hl : Later s0 s) :
    Later s0 (queCfgWrite s c q v) := by
  unfold queCfgWrite
  repeat' (first
    | with_reducible assumption
    | intro _
    | with_reducible apply queSet_later
    | fail_if_no_progress with_reducible apply Later.upd)

theorem queDevWrite_later {s0 : State} {s : State} (c : Nat) (q : Nat) (v : Nat) (hl : Later s0 s) :
    Later s0 (queDevWrite s c q v) := by
  unfold queDevWrite
  repeat' (first
    | with_reducible assumption
    | intro _
    | with_reducible apply queSet_later
    | fail_if_no_progress with_reducible apply Later.upd)

theorem evtSetWrite_later {s0 : State} {s : State} (c : Nat) (hi : Bool) (v : Nat) (hl : Later s0 s) :
    Later s0 (evtSetWrite s c hi v) := by
  unfold evtSetWrite
  repeat' (first
    | with_reducible assumption
    | intro _
    | with_reducible apply setFlags_later
    | split)

theorem spdModeWrite_later {s0 : State} {s : State} (c : Nat) (v : Nat) (hl : Later s0 s) :
    Later s0 (spdModeWrite s c v) := by
  unfold spdModeWrite
  repeat' (first
    | with_reducible assumption
    | intro _
    | (extract_lets +onlyGivenNames x; clear_value (e : x = _); first | (with_reducible refine Later.cut (s0 := s0) e ?_ (fun _ => ?_) <;> clear e) | clear e)
    | with_reducible apply modSpd_later
    | split
    | fail_if_no_progress with_reducible apply Later.upd)

theorem smpCtrlWrite_later {s0 : State} {s : State} (c : Nat) (v : Nat) (hl : Later s0 s) :
    Later s0 (smpCtrlWrite s c v) := by
  unfold smpCtrlWrite
  repeat' (first
    | with_reducible assumption
    | intro _
    | (extract_lets +onlyGivenNames x; clear_value (e : x = _); first | (with_reducible refine Later.cut (s0 := s0) e ?_ (fun _ => ?_) <;> clear e) | clear e)
    | with_reducible apply modSmp_later
    | split
    | fail_if_no_progress with_reducible apply Later.upd)

theorem coreWrite_later {s0 : State} {s : State} (req : Requester) (c : Nat) (off : Nat) (v : Nat) (hl : Later s0 s) :
    Later s0 (coreWrite s req c off v) := by
  unfold coreWrite
  repeat' (first
    | with_reducible assumption
    | intro _
    | with_reducible apply modCtl_later
    | split
    | fail_if_no_progress with_reducible apply Later.upd)

theorem pressWrite_later {s0 : State} {s : State} (c : Nat) (off : Nat) (v : Nat) (hl : Later s0 s) :
    Later s0 (pressWrite s c off v) := by
  unfold pressWrite
  repeat' (first
    | with_reducible assumption
    | intro _
    | with_reducible apply modPrs_later
    | split
    | fail_if_no_progress with_reducible apply Later.upd)

theorem vecWrite_later {s0 : State} {s : State} (c : Nat) (off : Nat) (v : Nat) (hl : Later s0 s) :
    Later s0 (vecWrite s c off v) := by
  unfold vecWrite
  repeat' (first
    | with_reducible assumption
    | intro _
    | with_reducible apply modVec_later | with_reducible apply vecSeedWrite_later
    | split
    | fail_if_no_progress with_reducible apply Later.upd)

theorem spdWrite_later {s0 : State} {s : State} (c : Nat) (off : Nat) (v : Nat) (hl : Later s0 s) :
    Later s0 (spdWrite s c off v) := by
  unfold spdWrite
  repeat' (first
    | with_reducible assumption
    | intro _
    | (extract_lets +onlyGivenNames x; clear_value (e : x = _); first | (with_reducible refine Later.cut (s0 := s0) e ?_ (fun _ => ?_) <;> clear e) | clear e)
    | with_reducible apply spdModeWrite_later | with_reducible apply modSpd_later
    | split
    | fail_if_no_progress with_reducible apply Later.upd)

theorem queWrite_later {s0 : State} {s : State} (c : Nat) (off : Nat) (v : Nat) (hl : Later s0 s) :
    Later s0 (queWrite s c off v) := by
  unfold queWrite
  repeat' (first
    | with_reducible assumption
    | intro _
    | (extract_lets +onlyGivenNames x; clear_value (e : x = _); first | (with_reducible refine Later.cut (s0 := s0) e ?_ (fun _ => ?_) <;> clear e) | clear e)
    | with_reducible apply modQue_later | with_reducible apply queBaseWrite_later | with_reducible apply queCfgWrite_later | with_reducible apply queDevWrite_later | with_reducible apply modQ_later
    | split
    | fail_if_no_progress with_reducible apply Later.upd)

theorem cntWrite_later {s0 : State} {s : State} (c : Nat) (off : Nat) (v : Nat) (hl : Later s0 s) :
    Later s0 (cntWrite s c off v) := by
  unfold cntWrite
  repeat' (first
    | with_reducible assumption
    | intro _
    | (extract_lets +onlyGivenNames x; clear_value (e : x = _); first | (with_reducible refine Later.cut (s0 := s0) e ?_ (fun _ => ?_) <;> clear e) | clear e)
    | with_reducible apply modCnt_later | with_reducible apply smpCtrlWrite_later | with_reducible apply modSmp_later
    | split
    | fail_if_no_progress with_reducible apply Later.upd)

theorem evtWrite_later {s0 : State} {s : State} (c : Nat) (off : Nat) (v : Nat) (hl : Later s0 s) :
    Later s0 (evtWrite s c off v) := by
  unfold evtWrite
  repeat' (first
    | with_reducible assumption
    | intro _
    | (extract_lets +onlyGivenNames x; clear_value (e : x = _); first | (with_reducible refine Later.cut (s0 := s0) e ?_ (fun _ => ?_) <;> clear e) | (with_reducible refine Later.cutC (s0 := s0) e ?_ (fun hg => ?_) <;> clear e) | clear e)
    | with_reducible apply hg
    | with_reducible apply modQue_later | with_reducible apply evtSetWrite_later
    | split
    | fail_if_no_progress with_reducible apply Later.upd)

theorem coreBlockWrite_later {s0 : State} {s : State} (req : Requester) (c : Nat) (off : Nat) (v : Nat) (hl : Later s0 s) :
    Later s0 (coreBlockWrite s req c off v) := by
  unfold coreBlockWrite
  repeat' (first
    | with_reducible assumption
    | intro _
    | (extract_lets +onlyGivenNames x; clear_value (e : x = _); first | (with_reducible refine Later.cut (s0 := s0) e ?_ (fun _ => ?_) <;> clear e) | clear e)
    | with_reducible apply coreWrite_later | with_reducible apply pressWrite_later | with_reducible apply vecWrite_later | with_reducible apply spdWrite_later | with_reducible apply queWrite_later | with_reducible apply cntWrite_later | with_reducible apply evtWrite_later
    | split
    | fail_if_no_progress with_reducible apply Later.upd)

theorem modShared_later {s0 : State} {s : State} (b : Nat) (g : Shared → Shared) (hl : Later s0 s) :
    Later s0 (modShared s b g) := by
  unfold modShared
  repeat' (first
    | with_reducible assumption
    | intro _
    | fail_if_no_progress with_reducible apply Later.upd)

theorem sharedCtlWrite_later {s0 : State} {s : State} (b : Nat) (v : Nat) (hl : Later s0 s) :
    Later s0 (sharedCtlWrite s b v) := by
  unfold sharedCtlWrite
  repeat' (first
    | with_reducible assumption
    | intro _
    | (extract_lets +onlyGivenNames x; clear_value (e : x = _); first | (with_reducible refine Later.cut (s0 := s0) e ?_ (fun _ => ?_) <;> clear e) | clear e)
    | with_reducible apply modShared_later
    | split
    | fail_if_no_progress with_reducible apply Later.upd)

theorem sharedWrite_later {s0 : State} {s : State} (b : Nat) (off : Nat) (v : Nat) (hl : Later s0 s) :
    Later s0 (sharedWrite s b off v) := by
  unfold sharedWrite
  repeat' (first
    | with_reducible assumption
    | intro _
    | (extract_lets +onlyGivenNames x; clear_value (e : x = _); first | (with_reducible refine Later.cut (s0 := s0) e ?_ (fun _ => ?_) <;> clear e) | clear e)
    | with_reducible apply modShared_later | with_reducible apply sharedCtlWrite_later
    | split
    | fail_if_no_progress with_reducible apply Later.upd)

theorem meshWrite_later {s0 : State} {s : State} (n : Nat) (off : Nat) (v : Nat) (hl : Later s0 s) :
    Later s0 (meshWrite s n off v) := by
  unfold meshWrite
  repeat' (first
    | with_reducible assumption
    | intro _
    | (extract_lets +onlyGivenNames x; clear_value (e : x = _); first | (with_reducible refine Later.cut (s0 := s0) e ?_ (fun _ => ?_) <;> clear e) | clear e)
    | with_reducible apply modMsh_later | with_reducible apply sharedWrite_later
    | split
    | fail_if_no_progress with_reducible apply Later.upd)

theorem rtWrite_later {s0 : State} {s : State} (copy : Nat) (off : Nat) (v : Nat) (hl : Later s0 s) :
    Later s0 (rtWrite s copy off v) := by
  unfold rtWrite
  repeat' (first
    | with_reducible assumption
    | intro _
    | (extract_lets +onlyGivenNames x; clear_value (e : x = _); first | (with_reducible refine Later.cut (s0 := s0) e ?_ (fun _ => ?_) <;> clear e) | clear e)
    | with_reducible apply modLinks_later
    | split
    | fail_if_no_progress with_reducible apply Later.upd)

theorem fieldWrite_later {s0 : State} {s : State} (n : Nat) (off : Nat) (v : Nat) (hl : Later s0 s) :
    Later s0 (fieldWrite s n off v) := by
  unfold fieldWrite
  repeat' (first
    | with_reducible assumption
    | intro _
    | with_reducible apply rtWrite_later | with_reducible apply meshWrite_later | with_reducible apply modField_later
    | split
    | fail_if_no_progress with_reducible apply Later.upd)

theorem portCtrlWrite_later {s0 : State} {s : State} (p v : Nat) (hl : Later s0 s) :
    Later s0 (portCtrlWrite s p v) := by
  unfold portCtrlWrite
  repeat' (first
    | with_reducible assumption
    | intro _
    | (extract_lets +onlyGivenNames x; clear_value (e : x = _); first | (with_reducible refine Later.cut (s0 := s0) e ?_ (fun _ => ?_) <;> clear e) | clear e)
    | with_reducible apply modPort_later | with_reducible apply portChanged_later
    | (split <;> rename_i e <;> first | (with_reducible refine Later.cut1 (s0 := s0) e ?_ (fun _ => ?_) <;> clear e) | (with_reducible refine Later.cut2 (s0 := s0) e ?_ (fun _ => ?_) <;> clear e) | (with_reducible refine Later.cut3 (s0 := s0) e ?_ (fun _ => ?_) <;> clear e) | skip)
    | fail_if_no_progress with_reducible apply Later.upd)

theorem linkWrite_later {s0 : State} {s : State} (l off v : Nat) (hl : Later s0 s) :
    Later s0 (linkWrite s l off v) := by
  unfold linkWrite
  repeat' (first
    | with_reducible assumption
    | intro _
    | (extract_lets +onlyGivenNames x; clear_value (e : x = _); first | (with_reducible refine Later.cut (s0 := s0) e ?_ (fun _ => ?_) <;> clear e) | clear e)
    | with_reducible apply rtWrite_later | with_reducible apply sharedWrite_later | with_reducible apply portCtrlWrite_later | with_reducible apply modLinks_later
    | (split <;> rename_i e <;> first | (with_reducible refine Later.cut1 (s0 := s0) e ?_ (fun _ => ?_) <;> clear e) | (with_reducible refine Later.cut2 (s0 := s0) e ?_ (fun _ => ?_) <;> clear e) | (with_reducible refine Later.cut3 (s0 := s0) e ?_ (fun _ => ?_) <;> clear e) | skip)
    | fail_if_no_progress with_reducible apply Later.upd)

theorem stackWrite_later {s0 : State} {s : State} (i : Nat) (off : Nat) (v : Nat) (hl : Later s0 s) :
    Later s0 (stackWrite s i off v) := by
  unfold stackWrite
  repeat' (first
    | with_reducible assumption
    | intro _
    | with_reducible apply sharedWrite_later | with_reducible apply modStack_later
    | split
    | fail_if_no_progress with_reducible apply Later.upd)

theorem clkCtrlWrite_later {s0 : State} {s : State} (v : Nat) (hl : Later s0 s) :
    Later s0 (clkCtrlWrite s v) := by
  unfold clkCtrlWrite
  repeat' (first
    | with_reducible assumption
    | intro _
    | (extract_lets +onlyGivenNames x; clear_value (e : x = _); first | (with_reducible refine Later.cut (s0 := s0) e ?_ (fun _ => ?_) <;> clear e) | clear e)
    | with_reducible apply modClk_later | with_reducible apply requestChange_later
    | split
    | fail_if_no_progress with_reducible apply Later.upd)

theorem auxWrite_later {s0 : State} {s : State} (c : Nat) (v : Nat) (hl : Later s0 s) :
    Later s0 (auxWrite s c v) := by
  unfold auxWrite
  repeat' (first
    | with_reducible assumption
    | intro _
    | (extract_lets +onlyGivenNames x; clear_value (e : x = _); first | (with_reducible refine Later.cut (s0 := s0) e ?_ (fun _ => ?_) <;> clear e) | clear e)
    | with_reducible apply auxUpdate_later | with_reducible apply modAux_later
    | split
    | fail_if_no_progress with_reducible apply Later.upd)

theorem mgmtWrite_later {s0 : State} {s : State} (off : Nat) (v : Nat) (hl : Later s0 s) :
    Later s0 (mgmtWrite s off v) := by
  unfold mgmtWrite
  repeat' (first
    | with_reducible assumption
    | intro _
    | (extract_lets +onlyGivenNames x; clear_value (e : x = _); first | (with_reducible refine Later.cut (s0 := s0) e ?_ (fun _ => ?_) <;> clear e) | clear e)
    | with_reducible apply modPwr_later | with_reducible apply modClk_later | with_reducible apply clkCtrlWrite_later | with_reducible apply auxWrite_later
    | split
    | fail_if_no_progress with_reducible apply Later.upd)

theorem blockWrite_later {s0 : State} {s : State} (req : Requester) (b : CsrBlk) (off : Nat) (v : Nat) (hl : Later s0 s) :
    Later s0 (blockWrite s req b off v) := by
  unfold blockWrite
  repeat' (first
    | with_reducible assumption
    | intro _
    | with_reducible apply coreBlockWrite_later | with_reducible apply fieldWrite_later | with_reducible apply linkWrite_later | with_reducible apply stackWrite_later | with_reducible apply mgmtWrite_later
    | split
    | fail_if_no_progress with_reducible apply Later.upd)

theorem cqheadWrite_later {s0 : State} {s : State} (h : Nat) (f : Nat) (r : Nat) (v : Nat) (hl : Later s0 s) :
    Later s0 (cqheadWrite s h f r v) := by
  unfold cqheadWrite
  repeat' (first
    | with_reducible assumption
    | intro _
    | (extract_lets +onlyGivenNames x; clear_value (e : x = _); first | (with_reducible refine Later.cut (s0 := s0) e ?_ (fun _ => ?_) <;> clear e) | clear e)
    | with_reducible apply modRing_later
    | fail_if_no_progress with_reducible apply Later.upd)

theorem coalWrite_later {s0 : State} {s : State} (h : Nat) (f : Nat) (r : Nat) (v : Nat) (hl : Later s0 s) :
    Later s0 (coalWrite s h f r v) := by
  unfold coalWrite
  repeat' (first
    | with_reducible assumption
    | intro _
    | with_reducible apply modRing_later
    | split
    | fail_if_no_progress with_reducible apply Later.upd)

theorem msixWrite_later {s0 : State} {s : State} (h f i : Nat) (w : W32) (hl : Later s0 s) :
    Later s0 (msixWrite s h f i w) := by
  unfold msixWrite
  repeat' (first
    | with_reducible assumption
    | intro _
    | (extract_lets +onlyGivenNames x; clear_value (e : x = _); first | (with_reducible refine Later.cut (s0 := s0) e ?_ (fun _ => ?_) <;> clear e) | clear e)
    | with_reducible apply modFn_later | with_reducible apply sendVector_later
    | (split <;> rename_i e <;> first | (with_reducible refine Later.cut1 (s0 := s0) e ?_ (fun _ => ?_) <;> clear e) | (with_reducible refine Later.cut2 (s0 := s0) e ?_ (fun _ => ?_) <;> clear e) | (with_reducible refine Later.cut3 (s0 := s0) e ?_ (fun _ => ?_) <;> clear e) | skip)
    | fail_if_no_progress with_reducible apply Later.upd)

theorem pageWrite_later {s0 : State} {s : State} (h f off v : Nat) (hl : Later s0 s) :
    Later s0 (pageWrite s h f off v) := by
  unfold pageWrite
  repeat' (first
    | with_reducible assumption
    | intro _
    | (extract_lets +onlyGivenNames x; clear_value (e : x = _); first | (with_reducible refine Later.cut (s0 := s0) e ?_ (fun _ => ?_) <;> clear e) | (with_reducible refine Later.cutF (s0 := s0) e ?_ (fun hg => ?_) <;> clear e) | (with_reducible refine Later.cutF1 (s0 := s0) e ?_ (fun hg => ?_) <;> clear e) | (with_reducible refine Later.cutF2 (s0 := s0) e ?_ (fun hg => ?_) <;> clear e) | (with_reducible refine Later.cutC (s0 := s0) e ?_ (fun hg => ?_) <;> clear e) | (with_reducible refine Later.cutFp (s0 := s0) e ?_ (fun hg => ?_) <;> clear e) | clear e)
    | with_reducible apply modFn_later | with_reducible apply ringCtrlWrite_later | with_reducible apply ringBaseWrite_later | with_reducible apply sqtailWrite_later | with_reducible apply cqheadWrite_later | with_reducible apply coalWrite_later | with_reducible apply msixWrite_later
    | with_reducible apply hg
    | (split <;> rename_i e <;> first | (with_reducible refine Later.cut1 (s0 := s0) e ?_ (fun _ => ?_) <;> clear e) | (with_reducible refine Later.cut2 (s0 := s0) e ?_ (fun _ => ?_) <;> clear e) | (with_reducible refine Later.cut3 (s0 := s0) e ?_ (fun _ => ?_) <;> clear e) | skip)
    | fail_if_no_progress with_reducible apply Later.upd)

theorem modMbx_later {s0 : State} {s : State} (h : Nat) (f : Nat) (g : Mailbox → Mailbox) (hl : Later s0 s) :
    Later s0 (modMbx s h f g) := by
  unfold modMbx
  repeat' (first
    | with_reducible assumption
    | intro _
    | with_reducible apply modFn_later
    | fail_if_no_progress with_reducible apply Later.upd)

theorem bar4Write_later {s0 : State} {s : State} (h : Nat) (f : Nat) (off : Nat) (n : Nat) (v : Nat) (hl : Later s0 s) :
    Later s0 (bar4Write s h f off n v) := by
  unfold bar4Write
  repeat' (first
    | with_reducible assumption
    | intro _
    | with_reducible apply mailboxGo_later | with_reducible apply modMbx_later | with_reducible apply done_later
    | split
    | fail_if_no_progress with_reducible apply Later.upd)

theorem clearBar0_later {s0 : State} {s : State} (h : Nat) (f : Nat) (off : Nat) (hl : Later s0 s) :
    Later s0 (clearBar0 s h f off) := by
  unfold clearBar0
  repeat' (first
    | with_reducible assumption
    | intro _
    | with_reducible apply modFn_later
    | split
    | fail_if_no_progress with_reducible apply Later.upd)

theorem clearBar4_later {s0 : State} {s : State} (h : Nat) (f : Nat) (off : Nat) (hl : Later s0 s) :
    Later s0 (clearBar4 s h f off) := by
  unfold clearBar4
  repeat' (first
    | with_reducible assumption
    | intro _
    | with_reducible apply modMbx_later
    | split
    | fail_if_no_progress with_reducible apply Later.upd)

theorem csrPut_later {s0 : State} {s : State} (req : Requester) (b : CsrBlk) (off : Nat) (size : Nat) (v : W64) (hl : Later s0 s) :
    Later s0 (csrPut s req b off size v) := by
  unfold csrPut
  repeat' (first
    | with_reducible assumption
    | intro _
    | (extract_lets +onlyGivenNames x; clear_value (e : x = _); first | (with_reducible refine Later.cut (s0 := s0) e ?_ (fun _ => ?_) <;> clear e) | clear e)
    | with_reducible apply blockWrite_later
    | split)

theorem csrGet_later {s0 : State} {s : State} (req : Requester) (b : CsrBlk) (off : Nat) (size : Nat) (hl : Later s0 s) :
    Later s0 (csrGet s req b off size).1 := by
  unfold csrGet
  repeat' (first
    | with_reducible assumption
    | intro _
    | (extract_lets +onlyGivenNames x; clear_value (e : x = _); first | (with_reducible refine Later.cut (s0 := s0) e ?_ (fun _ => ?_) <;> clear e) | clear e)
    | with_reducible apply clearRc_later
    | split)

theorem csrRefused_later {s0 : State} {s : State} (req : Requester) (a : Nat) (r : RSt) (hl : Later s0 s) :
    Later s0 (csrRefused s req a r) := by
  unfold csrRefused
  repeat' (first
    | with_reducible assumption
    | intro _
    | (extract_lets +onlyGivenNames x; clear_value (e : x = _); first | (with_reducible refine Later.cut (s0 := s0) e ?_ (fun _ => ?_) <;> clear e) | clear e)
    | with_reducible apply countStatus_later | with_reducible apply dropAtCore_later | with_reducible apply dropAtDie_later
    | (split <;> rename_i e <;> first | (with_reducible refine Later.cut1 (s0 := s0) e ?_ (fun _ => ?_) <;> clear e) | (with_reducible refine Later.cut2 (s0 := s0) e ?_ (fun _ => ?_) <;> clear e) | (with_reducible refine Later.cut3 (s0 := s0) e ?_ (fun _ => ?_) <;> clear e) | skip)
    | fail_if_no_progress with_reducible apply Later.upd)

theorem csrWriteAt_later {s0 : State} {s : State} (req : Requester) (a size : Nat) (v : W64) (hl : Later s0 s) :
    Later s0 (csrWriteAt s req a size v).1 := by
  unfold csrWriteAt
  repeat' (first
    | with_reducible assumption
    | intro _
    | (extract_lets +onlyGivenNames x; clear_value (e : x = _); first | (with_reducible refine Later.cut (s0 := s0) e ?_ (fun _ => ?_) <;> clear e) | clear e)
    | with_reducible apply csrPut_later | with_reducible apply csrRefused_later
    | (split <;> rename_i e <;> first | (with_reducible refine Later.cut1 (s0 := s0) e ?_ (fun _ => ?_) <;> clear e) | (with_reducible refine Later.cut2 (s0 := s0) e ?_ (fun _ => ?_) <;> clear e) | (with_reducible refine Later.cut3 (s0 := s0) e ?_ (fun _ => ?_) <;> clear e) | skip)
    | fail_if_no_progress with_reducible apply Later.upd)

theorem csrReadAt_later {s0 : State} {s : State} (req : Requester) (a size : Nat) (hl : Later s0 s) :
    Later s0 (csrReadAt s req a size).1 := by
  unfold csrReadAt
  repeat' (first
    | with_reducible assumption
    | intro _
    | (extract_lets +onlyGivenNames x; clear_value (e : x = _); first | (with_reducible refine Later.cut (s0 := s0) e ?_ (fun _ => ?_) <;> clear e) | clear e)
    | with_reducible apply csrGet_later | with_reducible apply csrRefused_later
    | (split <;> rename_i e <;> first | (with_reducible refine Later.cut1 (s0 := s0) e ?_ (fun _ => ?_) <;> clear e) | (with_reducible refine Later.cut2 (s0 := s0) e ?_ (fun _ => ?_) <;> clear e) | (with_reducible refine Later.cut3 (s0 := s0) e ?_ (fun _ => ?_) <;> clear e) | skip)
    | fail_if_no_progress with_reducible apply Later.upd)

end Sys2Proof.Machine
end

