-- ==== Sys2Proof/Laws/LaterCsr.lean ====
section
/-!
SUPPORT. The operations of Machine/Csr.lean keep `Later`.
-/

set_option linter.unusedTactic false
set_option linter.unreachableTactic false

namespace Sys2Proof.Machine

theorem barSize_later {s0 : State} {s : State} (req : Requester) (addr : CsrAddr) (hl : Later s0 s) :
    Later s0 (barSize s req addr) := by
  unfold barSize
  repeat' (first | with_reducible assumption | with_reducible apply emit_later | with_reducible apply countStatus_later | intro _)

theorem configRetry_later {s0 : State} {s : State} (hl : Later s0 s) :
    Later s0 (configRetry s).2 := by
  unfold configRetry
  repeat' (first
    | with_reducible assumption
    | intro _
    | (extract_lets +onlyGivenNames x; clear_value (e : x = _); first | (with_reducible refine Later.cut (s0 := s0) e ?_ (fun _ => ?_) <;> clear e) | clear e)
    | with_reducible apply drawBool_later
    | (split <;> rename_i e <;> first | (with_reducible refine Later.cut1 (s0 := s0) e ?_ (fun _ => ?_) <;> clear e) | (with_reducible refine Later.cut2 (s0 := s0) e ?_ (fun _ => ?_) <;> clear e) | (with_reducible refine Later.cut3 (s0 := s0) e ?_ (fun _ => ?_) <;> clear e) | skip)
    | fail_if_no_progress with_reducible apply Later.upd)

theorem csrWrite_later {s0 : State} {s : State} (req : Requester) (addr : CsrAddr) (size : Nat) (v : W64) (hl : Later s0 s) :
    Later s0 (csrWrite s req addr size v) := by
  unfold csrWrite
  repeat' (first
    | with_reducible assumption
    | intro _
    | (extract_lets +onlyGivenNames x; clear_value (e : x = _); first | (with_reducible refine Later.cut (s0 := s0) e ?_ (fun _ => ?_) <;> clear e) | clear e)
    | with_reducible apply csrWriteAt_later | with_reducible apply emit_later | with_reducible apply pageWrite_later | with_reducible apply barSize_later | with_reducible apply bar4Write_later | with_reducible apply configRetry_later | with_reducible apply modFn_later
    | (split <;> rename_i e <;> first | (with_reducible refine Later.cut1 (s0 := s0) e ?_ (fun _ => ?_) <;> clear e) | (with_reducible refine Later.cut2 (s0 := s0) e ?_ (fun _ => ?_) <;> clear e) | (with_reducible refine Later.cut3 (s0 := s0) e ?_ (fun _ => ?_) <;> clear e) | skip)
    | fail_if_no_progress with_reducible apply Later.upd)

theorem csrRead_later {s0 : State} {s : State} (req : Requester) (addr : CsrAddr) (size : Nat) (hl : Later s0 s) :
    Later s0 (csrRead s req addr size) := by
  unfold csrRead
  repeat' (first
    | with_reducible assumption
    | intro _
    | (extract_lets +onlyGivenNames x; clear_value (e : x = _); first | (with_reducible refine Later.cut (s0 := s0) e ?_ (fun _ => ?_) <;> clear e) | (with_reducible refine Later.cutF (s0 := s0) e ?_ (fun hg => ?_) <;> clear e) | (with_reducible refine Later.cutF1 (s0 := s0) e ?_ (fun hg => ?_) <;> clear e) | (with_reducible refine Later.cutF2 (s0 := s0) e ?_ (fun hg => ?_) <;> clear e) | (with_reducible refine Later.cutC (s0 := s0) e ?_ (fun hg => ?_) <;> clear e) | (with_reducible refine Later.cutFp (s0 := s0) e ?_ (fun hg => ?_) <;> clear e) | clear e)
    | with_reducible apply csrReadAt_later | with_reducible apply emit_later | with_reducible apply clearBar0_later | with_reducible apply barSize_later | with_reducible apply clearBar4_later | with_reducible apply configRetry_later
    | with_reducible apply hg
    | (split <;> rename_i e <;> first | (with_reducible refine Later.cut1 (s0 := s0) e ?_ (fun _ => ?_) <;> clear e) | (with_reducible refine Later.cut2 (s0 := s0) e ?_ (fun _ => ?_) <;> clear e) | (with_reducible refine Later.cut3 (s0 := s0) e ?_ (fun _ => ?_) <;> clear e) | skip)
    | fail_if_no_progress with_reducible apply Later.upd)

theorem coreRegWrite_later {s0 : State} {s : State} (req : Requester) (c : Nat) (off : Nat) (v : W32) (hl : Later s0 s) :
    Later s0 (coreRegWrite s req c off v) := by
  unfold coreRegWrite
  repeat' (first
    | with_reducible assumption
    | intro _
    | with_reducible apply csrWrite_later
    | split)

theorem execCsrWrite_later (req : Requester) (addr : CsrAddr) (size : Nat) (v : W64) {s : State} :
    ∃ s', (execCsrWrite req addr size v s) = .next s' ∧ Later s s' := by
  have hl := Later.refl s
  refine ⟨_, rfl, ?_⟩
  repeat' (first | with_reducible assumption | with_reducible apply csrWrite_later | intro _)

theorem execRcRead_later (req : Requester) (addr : CsrAddr) (size : Nat) {s : State} :
    ∃ s', (execRcRead req addr size s) = .next s' ∧ Later s s' := by
  have hl := Later.refl s
  refine ⟨_, rfl, ?_⟩
  repeat' (first | with_reducible assumption | with_reducible apply csrRead_later | intro _)

theorem execVecSeedWrite_later (req : Requester) (c : Nat) (v : W32) {s : State} :
    ∃ s', (execVecSeedWrite req c v s) = .next s' ∧ Later s s' := by
  have hl := Later.refl s
  refine ⟨_, rfl, ?_⟩
  repeat' (first | with_reducible assumption | with_reducible apply coreRegWrite_later | intro _)

theorem execSpdModeWrite_later (req : Requester) (c : Nat) (v : W32) {s : State} :
    ∃ s', (execSpdModeWrite req c v s) = .next s' ∧ Later s s' := by
  have hl := Later.refl s
  refine ⟨_, rfl, ?_⟩
  repeat' (first | with_reducible assumption | with_reducible apply coreRegWrite_later | intro _)

theorem execQueCfgWrite_later (req : Requester) (c : Nat) (q : Fin 32) (v : W32) {s : State} :
    ∃ s', (execQueCfgWrite req c q v s) = .next s' ∧ Later s s' := by
  have hl := Later.refl s
  refine ⟨_, rfl, ?_⟩
  repeat' (first | with_reducible assumption | with_reducible apply coreRegWrite_later | intro _)

theorem execQueBaseWrite_later (req : Requester) (c : Nat) (q : Fin 32) (v : W32) {s : State} :
    ∃ s', (execQueBaseWrite req c q v s) = .next s' ∧ Later s s' := by
  have hl := Later.refl s
  refine ⟨_, rfl, ?_⟩
  repeat' (first | with_reducible assumption | with_reducible apply coreRegWrite_later | intro _)

theorem execQueDevWrite_later (req : Requester) (c : Nat) (q : Fin 32) (v : W32) {s : State} :
    ∃ s', (execQueDevWrite req c q v s) = .next s' ∧ Later s s' := by
  have hl := Later.refl s
  refine ⟨_, rfl, ?_⟩
  repeat' (first | with_reducible assumption | with_reducible apply coreRegWrite_later | intro _)

theorem execEvtSetWrite_later (req : Requester) (c : Nat) (hi : Bool) (v : W32) {s : State} :
    ∃ s', (execEvtSetWrite req c hi v s) = .next s' ∧ Later s s' := by
  have hl := Later.refl s
  refine ⟨_, rfl, ?_⟩
  repeat' (first
    | with_reducible assumption
    | intro _
    | with_reducible apply coreRegWrite_later
    | split)

theorem execSmpCtrlWrite_later (req : Requester) (c : Nat) (v : W32) {s : State} :
    ∃ s', (execSmpCtrlWrite req c v s) = .next s' ∧ Later s s' := by
  have hl := Later.refl s
  refine ⟨_, rfl, ?_⟩
  repeat' (first | with_reducible assumption | with_reducible apply coreRegWrite_later | intro _)

theorem execSharedCntCtlWrite_later (req : Requester) (b : Nat) (v : W32) {s : State} :
    ∃ s', (execSharedCntCtlWrite req b v s) = .next s' ∧ Later s s' := by
  have hl := Later.refl s
  refine ⟨_, rfl, ?_⟩
  repeat' (first
    | with_reducible assumption
    | intro _
    | with_reducible apply csrWrite_later
    | split
    | fail_if_no_progress with_reducible apply Later.upd)

end Sys2Proof.Machine
end

