-- ==== Sys2Proof/Laws/LaterGlobal.lean ====
section
/-!
SUPPORT. The operations of Machine/Global.lean keep `Later`.
-/

set_option linter.unusedTactic false
set_option linter.unreachableTactic false

namespace Sys2Proof.Machine

theorem globalIssue_later {s0 : State} {s : State} (c op : Nat) (d a : Reg) (imm : BitVec 15) (size : Nat) (load : Bool) (hl : Later s0 s) :
    Later s0 (globalIssue s c op d a imm size load) := by
  unfold globalIssue
  repeat' (first
    | with_reducible assumption
    | intro _
    | (extract_lets +onlyGivenNames x; clear_value (e : x = _); first | (with_reducible refine Later.cut (s0 := s0) e ?_ (fun _ => ?_) <;> clear e) | clear e)
    | with_reducible apply issue_later | with_reducible apply cuFault_later | with_reducible apply block_later | with_reducible apply sendRemote_later | with_reducible apply count_later
    | (split <;> rename_i e <;> first | (with_reducible refine Later.cut1 (s0 := s0) e ?_ (fun _ => ?_) <;> clear e) | (with_reducible refine Later.cut2 (s0 := s0) e ?_ (fun _ => ?_) <;> clear e) | (with_reducible refine Later.cut3 (s0 := s0) e ?_ (fun _ => ?_) <;> clear e) | skip)
    | fail_if_no_progress with_reducible apply Later.upd)

theorem execGlw_later (c : Nat) (d : Reg) (a : Reg) (imm : BitVec 15) {s : State} :
    ∃ s', (execGlw c d a imm s) = .next s' ∧ Later s s' := by
  have hl := Later.refl s
  refine ⟨_, rfl, ?_⟩
  repeat' (first | with_reducible assumption | with_reducible apply globalIssue_later | intro _)

theorem execGld_later (c : Nat) (d : Reg) (a : Reg) (imm : BitVec 15) {s : State} :
    ∃ s', (execGld c d a imm s) = .next s' ∧ Later s s' := by
  have hl := Later.refl s
  refine ⟨_, rfl, ?_⟩
  repeat' (first | with_reducible assumption | with_reducible apply globalIssue_later | intro _)

theorem execGsw_later (c : Nat) (d : Reg) (a : Reg) (imm : BitVec 15) {s : State} :
    ∃ s', (execGsw c d a imm s) = .next s' ∧ Later s s' := by
  have hl := Later.refl s
  refine ⟨_, rfl, ?_⟩
  repeat' (first | with_reducible assumption | with_reducible apply globalIssue_later | intro _)

theorem execGsd_later (c : Nat) (d : Reg) (a : Reg) (imm : BitVec 15) {s : State} :
    ∃ s', (execGsd c d a imm s) = .next s' ∧ Later s s' := by
  have hl := Later.refl s
  refine ⟨_, rfl, ?_⟩
  repeat' (first | with_reducible assumption | with_reducible apply globalIssue_later | intro _)

theorem gaccPerform_later {s0 : State} {s : State} (c : Nat) (g : GAccess) (status : Nat) (data : W64) (hl : Later s0 s) :
    Later s0 (gaccPerform s c g status data).1 := by
  unfold gaccPerform
  repeat' (first
    | with_reducible assumption
    | intro _
    | (extract_lets +onlyGivenNames x; clear_value (e : x = _); first | (with_reducible refine Later.cut (s0 := s0) e ?_ (fun _ => ?_) <;> clear e) | (with_reducible refine Later.cutF (s0 := s0) e ?_ (fun hg => ?_) <;> clear e) | (with_reducible refine Later.cutF1 (s0 := s0) e ?_ (fun hg => ?_) <;> clear e) | (with_reducible refine Later.cutF2 (s0 := s0) e ?_ (fun hg => ?_) <;> clear e) | (with_reducible refine Later.cutC (s0 := s0) e ?_ (fun hg => ?_) <;> clear e) | (with_reducible refine Later.cutFp (s0 := s0) e ?_ (fun hg => ?_) <;> clear e) | clear e)
    | with_reducible apply selfRemote_later | with_reducible apply csrReadAt_later | with_reducible apply csrWriteAt_later | with_reducible apply memRead_later | with_reducible apply memWrite_later
    | with_reducible apply hg
    | (split <;> rename_i e <;> first | (with_reducible refine Later.cut1 (s0 := s0) e ?_ (fun _ => ?_) <;> clear e) | (with_reducible refine Later.cut2 (s0 := s0) e ?_ (fun _ => ?_) <;> clear e) | (with_reducible refine Later.cut3 (s0 := s0) e ?_ (fun _ => ?_) <;> clear e) | skip)
    | fail_if_no_progress with_reducible apply Later.upd)

theorem lateArrive_later {s0 : State} {s : State} (c : Nat) (hl : Later s0 s) :
    Later s0 (lateArrive s c) := by
  unfold lateArrive
  repeat' (first
    | with_reducible assumption
    | intro _
    | (extract_lets +onlyGivenNames x; clear_value (e : x = _); first | (with_reducible refine Later.cut (s0 := s0) e ?_ (fun _ => ?_) <;> clear e) | clear e)
    | with_reducible apply gaccPerform_later | with_reducible apply modCore_later
    | (split <;> rename_i e <;> first | (with_reducible refine Later.cut1 (s0 := s0) e ?_ (fun _ => ?_) <;> clear e) | (with_reducible refine Later.cut2 (s0 := s0) e ?_ (fun _ => ?_) <;> clear e) | (with_reducible refine Later.cut3 (s0 := s0) e ?_ (fun _ => ?_) <;> clear e) | skip)
    | fail_if_no_progress with_reducible apply Later.upd)

theorem execGlobalAccessCompletion_later (c : Nat) (status : Nat) (data : W64) {s : State} :
    ∃ s', (execGlobalAccessCompletion c status data s) = .next s' ∧ Later s s' := by
  have hl := Later.refl s
  refine ⟨_, rfl, ?_⟩
  repeat' (first
    | with_reducible assumption
    | intro _
    | (extract_lets +onlyGivenNames x; clear_value (e : x = _); first | (with_reducible refine Later.cut (s0 := s) e ?_ (fun _ => ?_) <;> clear e) | clear e)
    | with_reducible apply lateArrive_later | with_reducible apply gaccPerform_later | with_reducible apply setReg_later | with_reducible apply advance_later | with_reducible apply haltNow_later | with_reducible apply cuFault_later | with_reducible apply count_later
    | (split <;> rename_i e <;> first | (with_reducible refine Later.cut1 (s0 := s) e ?_ (fun _ => ?_) <;> clear e) | (with_reducible refine Later.cut2 (s0 := s) e ?_ (fun _ => ?_) <;> clear e) | (with_reducible refine Later.cut3 (s0 := s) e ?_ (fun _ => ?_) <;> clear e) | skip)
    | fail_if_no_progress with_reducible apply Later.upd)

theorem execGlobalAccessTimeout_later (c : Nat) {s : State} :
    ∃ s', (execGlobalAccessTimeout c s) = .next s' ∧ Later s s' := by
  have hl := Later.refl s
  refine ⟨_, rfl, ?_⟩
  repeat' (first
    | with_reducible assumption
    | intro _
    | (extract_lets +onlyGivenNames x; clear_value (e : x = _); first | (with_reducible refine Later.cut (s0 := s) e ?_ (fun _ => ?_) <;> clear e) | clear e)
    | with_reducible apply drawBool_later | with_reducible apply gaccPerform_later | with_reducible apply cuFault_later
    | (split <;> rename_i e <;> first | (with_reducible refine Later.cut1 (s0 := s) e ?_ (fun _ => ?_) <;> clear e) | (with_reducible refine Later.cut2 (s0 := s) e ?_ (fun _ => ?_) <;> clear e) | (with_reducible refine Later.cut3 (s0 := s) e ?_ (fun _ => ?_) <;> clear e) | skip)
    | fail_if_no_progress with_reducible apply Later.upd)

end Sys2Proof.Machine
end

