-- ==== Sys2Proof/Laws/LaterLoadStore.lean ====
section
/-!
SUPPORT. The operations of Machine/LoadStore.lean keep `Later`.
-/

set_option linter.unusedTactic false
set_option linter.unreachableTactic false

namespace Sys2Proof.Machine

theorem execLb_later (c : Nat) (d : Reg) (a : Reg) (imm : BitVec 15) {s : State} :
    ∃ s', (execLb c d a imm s) = .next s' ∧ Later s s' := by
  have hl := Later.refl s
  refine ⟨_, rfl, ?_⟩
  repeat' (first | with_reducible assumption | with_reducible apply loadSp_later | intro _)

theorem execLh_later (c : Nat) (d : Reg) (a : Reg) (imm : BitVec 15) {s : State} :
    ∃ s', (execLh c d a imm s) = .next s' ∧ Later s s' := by
  have hl := Later.refl s
  refine ⟨_, rfl, ?_⟩
  repeat' (first | with_reducible assumption | with_reducible apply loadSp_later | intro _)

theorem execLw_later (c : Nat) (d : Reg) (a : Reg) (imm : BitVec 15) {s : State} :
    ∃ s', (execLw c d a imm s) = .next s' ∧ Later s s' := by
  have hl := Later.refl s
  refine ⟨_, rfl, ?_⟩
  repeat' (first | with_reducible assumption | with_reducible apply loadSp_later | intro _)

theorem execLd_later (c : Nat) (d : Reg) (a : Reg) (imm : BitVec 15) {s : State} :
    ∃ s', (execLd c d a imm s) = .next s' ∧ Later s s' := by
  have hl := Later.refl s
  refine ⟨_, rfl, ?_⟩
  repeat' (first | with_reducible assumption | with_reducible apply loadSp_later | intro _)

theorem execLbu_later (c : Nat) (d : Reg) (a : Reg) (imm : BitVec 15) {s : State} :
    ∃ s', (execLbu c d a imm s) = .next s' ∧ Later s s' := by
  have hl := Later.refl s
  refine ⟨_, rfl, ?_⟩
  repeat' (first | with_reducible assumption | with_reducible apply loadSp_later | intro _)

theorem execLhu_later (c : Nat) (d : Reg) (a : Reg) (imm : BitVec 15) {s : State} :
    ∃ s', (execLhu c d a imm s) = .next s' ∧ Later s s' := by
  have hl := Later.refl s
  refine ⟨_, rfl, ?_⟩
  repeat' (first | with_reducible assumption | with_reducible apply loadSp_later | intro _)

theorem execLwu_later (c : Nat) (d : Reg) (a : Reg) (imm : BitVec 15) {s : State} :
    ∃ s', (execLwu c d a imm s) = .next s' ∧ Later s s' := by
  have hl := Later.refl s
  refine ⟨_, rfl, ?_⟩
  repeat' (first | with_reducible assumption | with_reducible apply loadSp_later | intro _)

theorem execSb_later (c : Nat) (d : Reg) (a : Reg) (imm : BitVec 15) {s : State} :
    ∃ s', (execSb c d a imm s) = .next s' ∧ Later s s' := by
  have hl := Later.refl s
  refine ⟨_, rfl, ?_⟩
  repeat' (first | with_reducible assumption | with_reducible apply storeSp_later | intro _)

theorem execSh_later (c : Nat) (d : Reg) (a : Reg) (imm : BitVec 15) {s : State} :
    ∃ s', (execSh c d a imm s) = .next s' ∧ Later s s' := by
  have hl := Later.refl s
  refine ⟨_, rfl, ?_⟩
  repeat' (first | with_reducible assumption | with_reducible apply storeSp_later | intro _)

theorem execSw_later (c : Nat) (d : Reg) (a : Reg) (imm : BitVec 15) {s : State} :
    ∃ s', (execSw c d a imm s) = .next s' ∧ Later s s' := by
  have hl := Later.refl s
  refine ⟨_, rfl, ?_⟩
  repeat' (first | with_reducible assumption | with_reducible apply storeSp_later | intro _)

theorem execSd_later (c : Nat) (d : Reg) (a : Reg) (imm : BitVec 15) {s : State} :
    ∃ s', (execSd c d a imm s) = .next s' ∧ Later s s' := by
  have hl := Later.refl s
  refine ⟨_, rfl, ?_⟩
  repeat' (first | with_reducible assumption | with_reducible apply storeSp_later | intro _)

theorem execBeq_later (c : Nat) (a : Reg) (b : Reg) (off : BitVec 15) {s : State} :
    ∃ s', (execBeq c a b off s) = .next s' ∧ Later s s' := by
  have hl := Later.refl s
  refine ⟨_, rfl, ?_⟩
  repeat' (first | with_reducible assumption | with_reducible apply branch_later | intro _)

theorem execBne_later (c : Nat) (a : Reg) (b : Reg) (off : BitVec 15) {s : State} :
    ∃ s', (execBne c a b off s) = .next s' ∧ Later s s' := by
  have hl := Later.refl s
  refine ⟨_, rfl, ?_⟩
  repeat' (first | with_reducible assumption | with_reducible apply branch_later | intro _)

theorem execBlt_later (c : Nat) (a : Reg) (b : Reg) (off : BitVec 15) {s : State} :
    ∃ s', (execBlt c a b off s) = .next s' ∧ Later s s' := by
  have hl := Later.refl s
  refine ⟨_, rfl, ?_⟩
  repeat' (first | with_reducible assumption | with_reducible apply branch_later | intro _)

theorem execBge_later (c : Nat) (a : Reg) (b : Reg) (off : BitVec 15) {s : State} :
    ∃ s', (execBge c a b off s) = .next s' ∧ Later s s' := by
  have hl := Later.refl s
  refine ⟨_, rfl, ?_⟩
  repeat' (first | with_reducible assumption | with_reducible apply branch_later | intro _)

theorem execBltu_later (c : Nat) (a : Reg) (b : Reg) (off : BitVec 15) {s : State} :
    ∃ s', (execBltu c a b off s) = .next s' ∧ Later s s' := by
  have hl := Later.refl s
  refine ⟨_, rfl, ?_⟩
  repeat' (first | with_reducible assumption | with_reducible apply branch_later | intro _)

theorem execBgeu_later (c : Nat) (a : Reg) (b : Reg) (off : BitVec 15) {s : State} :
    ∃ s', (execBgeu c a b off s) = .next s' ∧ Later s s' := by
  have hl := Later.refl s
  refine ⟨_, rfl, ?_⟩
  repeat' (first | with_reducible assumption | with_reducible apply branch_later | intro _)

theorem execJal_later (c : Nat) (d : Reg) (off : BitVec 20) {s : State} :
    ∃ s', (execJal c d off s) = .next s' ∧ Later s s' := by
  have hl := Later.refl s
  refine ⟨_, rfl, ?_⟩
  repeat' (first
    | with_reducible assumption
    | intro _
    | (extract_lets +onlyGivenNames x; clear_value (e : x = _); first | (with_reducible refine Later.cut (s0 := s) e ?_ (fun _ => ?_) <;> clear e) | clear e)
    | with_reducible apply issue_later | with_reducible apply modCtl_later | with_reducible apply count_later | with_reducible apply setReg_later
    | fail_if_no_progress with_reducible apply Later.upd)

theorem execJalr_later (c : Nat) (d : Reg) (a : Reg) (imm : BitVec 15) {s : State} :
    ∃ s', (execJalr c d a imm s) = .next s' ∧ Later s s' := by
  have hl := Later.refl s
  refine ⟨_, rfl, ?_⟩
  repeat' (first
    | with_reducible assumption
    | intro _
    | (extract_lets +onlyGivenNames x; clear_value (e : x = _); first | (with_reducible refine Later.cut (s0 := s) e ?_ (fun _ => ?_) <;> clear e) | clear e)
    | with_reducible apply issue_later | with_reducible apply cuFault_later | with_reducible apply modCtl_later | with_reducible apply count_later | with_reducible apply setReg_later
    | split
    | fail_if_no_progress with_reducible apply Later.upd)

end Sys2Proof.Machine
end

