-- ==== Sys2Proof/Laws/LaterSystem.lean ====
section
/-!
SUPPORT. The operations of Machine/System.lean keep `Later`.
-/

set_option linter.unusedTactic false
set_option linter.unreachableTactic false

namespace Sys2Proof.Machine

theorem execNop_later (c : Nat) (d : Reg) (a : Reg) (b : Reg) {s : State} :
    ∃ s', (execNop c d a b s) = .next s' ∧ Later s s' := by
  have hl := Later.refl s
  refine ⟨_, rfl, ?_⟩
  repeat' (first | with_reducible assumption | with_reducible apply sysFn_later | with_reducible apply advance_later | intro _)

theorem execEnd_later (c : Nat) (d : Reg) (a : Reg) (b : Reg) {s : State} :
    ∃ s', (execEnd c d a b s) = .next s' ∧ Later s s' := by
  have hl := Later.refl s
  refine ⟨_, rfl, ?_⟩
  repeat' (first
    | with_reducible assumption
    | intro _
    | with_reducible apply sysFn_later | with_reducible apply modCtl_later
    | fail_if_no_progress with_reducible apply Later.upd)

theorem execEndComplete_later (c : Nat) {s : State} :
    ∃ s', (execEndComplete c s) = .next s' ∧ Later s s' := by
  have hl := Later.refl s
  refine ⟨_, rfl, ?_⟩
  repeat' (first
    | with_reducible assumption
    | intro _
    | (extract_lets +onlyGivenNames x; clear_value (e : x = _); first | (with_reducible refine Later.cut (s0 := s) e ?_ (fun _ => ?_) <;> clear e) | clear e)
    | with_reducible apply reportLaunch_later | with_reducible apply modCtl_later
    | split
    | fail_if_no_progress with_reducible apply Later.upd)

theorem execBrk_later (c : Nat) (d : Reg) (a : Reg) (b : Reg) {s : State} :
    ∃ s', (execBrk c d a b s) = .next s' ∧ Later s s' := by
  have hl := Later.refl s
  refine ⟨_, rfl, ?_⟩
  repeat' (first | with_reducible assumption | with_reducible apply sysFn_later | with_reducible apply cuFault_later | intro _)

theorem execIflush_later (c : Nat) (d : Reg) (a : Reg) (b : Reg) {s : State} :
    ∃ s', (execIflush c d a b s) = .next s' ∧ Later s s' := by
  have hl := Later.refl s
  refine ⟨_, rfl, ?_⟩
  repeat' (first
    | with_reducible assumption
    | intro _
    | with_reducible apply sysFn_later | with_reducible apply advance_later | with_reducible apply modCtl_later
    | fail_if_no_progress with_reducible apply Later.upd)

theorem execTwait_later (c : Nat) (d : Reg) (a : Reg) (t : Fin 32) {s : State} :
    ∃ s', (execTwait c d a t s) = .next s' ∧ Later s s' := by
  have hl := Later.refl s
  refine ⟨_, rfl, ?_⟩
  repeat' (first
    | with_reducible assumption
    | intro _
    | with_reducible apply sysFn_later | with_reducible apply advance_later | with_reducible apply block_later
    | split)

theorem execTstat_later (c : Nat) (d : Reg) (a : Reg) (t : Fin 32) {s : State} :
    ∃ s', (execTstat c d a t s) = .next s' ∧ Later s s' := by
  have hl := Later.refl s
  refine ⟨_, rfl, ?_⟩
  repeat' (first
    | with_reducible assumption
    | intro _
    | (extract_lets +onlyGivenNames x; clear_value (e : x = _); first | (with_reducible refine Later.cut (s0 := s) e ?_ (fun _ => ?_) <;> clear e) | clear e)
    | with_reducible apply sysFn_later | with_reducible apply advance_later | with_reducible apply modCtl_later | with_reducible apply setReg_later
    | split
    | fail_if_no_progress with_reducible apply Later.upd)

theorem execTmask_later (c : Nat) (d : Reg) (a : Reg) (b : Reg) {s : State} :
    ∃ s', (execTmask c d a b s) = .next s' ∧ Later s s' := by
  have hl := Later.refl s
  refine ⟨_, rfl, ?_⟩
  repeat' (first | with_reducible assumption | with_reducible apply sysFn_later | with_reducible apply advance_later | with_reducible apply setReg_later | intro _)

theorem execWaitall_later (c : Nat) (d : Reg) (a : Reg) (b : Reg) {s : State} :
    ∃ s', (execWaitall c d a b s) = .next s' ∧ Later s s' := by
  have hl := Later.refl s
  refine ⟨_, rfl, ?_⟩
  repeat' (first
    | with_reducible assumption
    | intro _
    | with_reducible apply sysFn_later | with_reducible apply advance_later | with_reducible apply block_later
    | split)

theorem execRdtime_later (c : Nat) (d : Reg) (a : Reg) (b : Reg) {s : State} :
    ∃ s', (execRdtime c d a b s) = .next s' ∧ Later s s' := by
  have hl := Later.refl s
  refine ⟨_, rfl, ?_⟩
  repeat' (first | with_reducible assumption | with_reducible apply sysFn_later | with_reducible apply advance_later | with_reducible apply setReg_later | intro _)

theorem execRdcyc_later (c : Nat) (d : Reg) (a : Reg) (b : Reg) {s : State} :
    ∃ s', (execRdcyc c d a b s) = .next s' ∧ Later s s' := by
  have hl := Later.refl s
  refine ⟨_, rfl, ?_⟩
  repeat' (first | with_reducible assumption | with_reducible apply sysFn_later | with_reducible apply advance_later | with_reducible apply setReg_later | intro _)

theorem execRdid_later (c : Nat) (d : Reg) (a : Reg) (b : Reg) {s : State} :
    ∃ s', (execRdid c d a b s) = .next s' ∧ Later s s' := by
  have hl := Later.refl s
  refine ⟨_, rfl, ?_⟩
  repeat' (first | with_reducible assumption | with_reducible apply sysFn_later | with_reducible apply advance_later | with_reducible apply setReg_later | intro _)

theorem queFault_later {s0 : State} {s : State} (c : Nat) (w : W32) (detail : Nat) (addr : W64) (ga : W64) (gb : W64) (hl : Later s0 s) :
    Later s0 (queFault s c w detail addr ga gb) := by
  unfold queFault
  repeat' (first | with_reducible assumption | with_reducible apply cuFault_later | intro _)

theorem execQsend_later (c : Nat) (d a b : Reg) (size : BitVec 4) {s : State} :
    ∃ s', (execQsend c d a b size s) = .next s' ∧ Later s s' := by
  have hl := Later.refl s
  refine ⟨_, rfl, ?_⟩
  repeat' (first
    | with_reducible assumption
    | intro _
    | (extract_lets +onlyGivenNames x; clear_value (e : x = _); first | (with_reducible refine Later.cut (s0 := s) e ?_ (fun _ => ?_) <;> clear e) | clear e)
    | with_reducible apply issue_later | with_reducible apply queFault_later | with_reducible apply block_later | with_reducible apply advance_later | with_reducible apply setReg_later | with_reducible apply spRead_later | with_reducible apply qsendDone_later | with_reducible apply startSend_later
    | (split <;> rename_i e <;> first | (with_reducible refine Later.cut1 (s0 := s) e ?_ (fun _ => ?_) <;> clear e) | (with_reducible refine Later.cut2 (s0 := s) e ?_ (fun _ => ?_) <;> clear e) | (with_reducible refine Later.cut3 (s0 := s) e ?_ (fun _ => ?_) <;> clear e) | skip)
    | fail_if_no_progress with_reducible apply Later.upd)

theorem takeMsg_later {s0 : State} {s : State} (c q dst : Nat) (d : Reg) (lat : Bool) (hl : Later s0 s) :
    Later s0 (takeMsg s c q dst d lat) := by
  unfold takeMsg
  repeat' (first
    | with_reducible assumption
    | intro _
    | (extract_lets +onlyGivenNames x; clear_value (e : x = _); first | (with_reducible refine Later.cut (s0 := s0) e ?_ (fun _ => ?_) <;> clear e) | clear e)
    | with_reducible apply deliverMsg_later | with_reducible apply advance_later | with_reducible apply memFault_later
    | (split <;> rename_i e <;> first | (with_reducible refine Later.cut1 (s0 := s0) e ?_ (fun _ => ?_) <;> clear e) | (with_reducible refine Later.cut2 (s0 := s0) e ?_ (fun _ => ?_) <;> clear e) | (with_reducible refine Later.cut3 (s0 := s0) e ?_ (fun _ => ?_) <;> clear e) | skip)
    | fail_if_no_progress with_reducible apply Later.upd)

theorem execQrecv_later (c : Nat) (d a b : Reg) (size : BitVec 4) {s : State} :
    ∃ s', (execQrecv c d a b size s) = .next s' ∧ Later s s' := by
  have hl := Later.refl s
  refine ⟨_, rfl, ?_⟩
  repeat' (first
    | with_reducible assumption
    | intro _
    | (extract_lets +onlyGivenNames x; clear_value (e : x = _); first | (with_reducible refine Later.cut (s0 := s) e ?_ (fun _ => ?_) <;> clear e) | clear e)
    | with_reducible apply issue_later | with_reducible apply illegal_later | with_reducible apply queFault_later | with_reducible apply block_later | with_reducible apply takeMsg_later
    | (split <;> rename_i e <;> first | (with_reducible refine Later.cut1 (s0 := s) e ?_ (fun _ => ?_) <;> clear e) | (with_reducible refine Later.cut2 (s0 := s) e ?_ (fun _ => ?_) <;> clear e) | (with_reducible refine Later.cut3 (s0 := s) e ?_ (fun _ => ?_) <;> clear e) | skip)
    | fail_if_no_progress with_reducible apply Later.upd)

theorem execQtry_later (c : Nat) (d a b : Reg) (size : BitVec 4) {s : State} :
    ∃ s', (execQtry c d a b size s) = .next s' ∧ Later s s' := by
  have hl := Later.refl s
  refine ⟨_, rfl, ?_⟩
  repeat' (first
    | with_reducible assumption
    | intro _
    | (extract_lets +onlyGivenNames x; clear_value (e : x = _); first | (with_reducible refine Later.cut (s0 := s) e ?_ (fun _ => ?_) <;> clear e) | clear e)
    | with_reducible apply issue_later | with_reducible apply illegal_later | with_reducible apply queFault_later | with_reducible apply advance_later | with_reducible apply count_later | with_reducible apply setReg_later | with_reducible apply block_later | with_reducible apply takeMsg_later
    | (split <;> rename_i e <;> first | (with_reducible refine Later.cut1 (s0 := s) e ?_ (fun _ => ?_) <;> clear e) | (with_reducible refine Later.cut2 (s0 := s) e ?_ (fun _ => ?_) <;> clear e) | (with_reducible refine Later.cut3 (s0 := s) e ?_ (fun _ => ?_) <;> clear e) | skip)
    | fail_if_no_progress with_reducible apply Later.upd)

theorem execEvwait_later (c : Nat) (d a b : Reg) (size : BitVec 4) {s : State} :
    ∃ s', (execEvwait c d a b size s) = .next s' ∧ Later s s' := by
  have hl := Later.refl s
  refine ⟨_, rfl, ?_⟩
  repeat' (first
    | with_reducible assumption
    | intro _
    | (extract_lets +onlyGivenNames x; clear_value (e : x = _); first | (with_reducible refine Later.cut (s0 := s) e ?_ (fun _ => ?_) <;> clear e) | clear e)
    | with_reducible apply issue_later | with_reducible apply illegal_later | with_reducible apply block_later | with_reducible apply advance_later | with_reducible apply count_later | with_reducible apply setReg_later
    | (split <;> rename_i e <;> first | (with_reducible refine Later.cut1 (s0 := s) e ?_ (fun _ => ?_) <;> clear e) | (with_reducible refine Later.cut2 (s0 := s) e ?_ (fun _ => ?_) <;> clear e) | (with_reducible refine Later.cut3 (s0 := s) e ?_ (fun _ => ?_) <;> clear e) | skip)
    | fail_if_no_progress with_reducible apply Later.upd)

theorem execEvclr_later (c : Nat) (d a b : Reg) (size : BitVec 4) {s : State} :
    ∃ s', (execEvclr c d a b size s) = .next s' ∧ Later s s' := by
  have hl := Later.refl s
  refine ⟨_, rfl, ?_⟩
  repeat' (first
    | with_reducible assumption
    | intro _
    | (extract_lets +onlyGivenNames x; clear_value (e : x = _); first | (with_reducible refine Later.cut (s0 := s) e ?_ (fun _ => ?_) <;> clear e) | clear e)
    | with_reducible apply issue_later | with_reducible apply illegal_later | with_reducible apply advance_later | with_reducible apply modQue_later
    | (split <;> rename_i e <;> first | (with_reducible refine Later.cut1 (s0 := s) e ?_ (fun _ => ?_) <;> clear e) | (with_reducible refine Later.cut2 (s0 := s) e ?_ (fun _ => ?_) <;> clear e) | (with_reducible refine Later.cut3 (s0 := s) e ?_ (fun _ => ?_) <;> clear e) | skip)
    | fail_if_no_progress with_reducible apply Later.upd)

theorem execX_later (c : Nat) (eng : BitVec 3) (tag : Fin 32) (dptr : Reg) (flags : BitVec 12) {s : State} :
    ∃ s', (execX c eng tag dptr flags s) = .next s' ∧ Later s s' := by
  have hl := Later.refl s
  refine ⟨_, rfl, ?_⟩
  repeat' (first
    | with_reducible assumption
    | intro _
    | (extract_lets +onlyGivenNames x; clear_value (e : x = _); first | (with_reducible refine Later.cut (s0 := s) e ?_ (fun _ => ?_) <;> clear e) | clear e)
    | with_reducible apply issue_later | with_reducible apply illegal_later | with_reducible apply cuFault_later | with_reducible apply block_later | with_reducible apply spRead_later | with_reducible apply xIssue_later
    | (split <;> rename_i e <;> first | (with_reducible refine Later.cut1 (s0 := s) e ?_ (fun _ => ?_) <;> clear e) | (with_reducible refine Later.cut2 (s0 := s) e ?_ (fun _ => ?_) <;> clear e) | skip)
    | fail_if_no_progress with_reducible apply Later.upd)

theorem execXIssueStallEnd_later (c : Nat) {s : State} :
    ∃ s', (execXIssueStallEnd c s) = .next s' ∧ Later s s' := by
  have hl := Later.refl s
  refine ⟨_, rfl, ?_⟩
  repeat' (first
    | with_reducible assumption
    | intro _
    | (extract_lets +onlyGivenNames x; clear_value (e : x = _); first | (with_reducible refine Later.cut (s0 := s) e ?_ (fun _ => ?_) <;> clear e) | clear e)
    | with_reducible apply xQueue_later
    | (split <;> rename_i e <;> first | (with_reducible refine Later.cut1 (s0 := s) e ?_ (fun _ => ?_) <;> clear e) | (with_reducible refine Later.cut2 (s0 := s) e ?_ (fun _ => ?_) <;> clear e) | (with_reducible refine Later.cut3 (s0 := s) e ?_ (fun _ => ?_) <;> clear e) | skip)
    | fail_if_no_progress with_reducible apply Later.upd)

theorem keepLine_later {s0 : State} {s : State} (c line : Nat) (bs : Bytes) (hl : Later s0 s) :
    Later s0 (keepLine s c line bs) := by
  unfold keepLine
  repeat' (first
    | with_reducible assumption
    | intro _
    | (extract_lets +onlyGivenNames x; clear_value (e : x = _); first | (with_reducible refine Later.cut (s0 := s0) e ?_ (fun _ => ?_) <;> clear e) | clear e)
    | with_reducible apply modCtl_later
    | (split <;> rename_i e <;> first | (with_reducible refine Later.cut1 (s0 := s0) e ?_ (fun _ => ?_) <;> clear e) | (with_reducible refine Later.cut2 (s0 := s0) e ?_ (fun _ => ?_) <;> clear e) | (with_reducible refine Later.cut3 (s0 := s0) e ?_ (fun _ => ?_) <;> clear e) | skip)
    | fail_if_no_progress with_reducible apply Later.upd)

theorem prefetch_later {s0 : State} {s : State} (c line : Nat) (hl : Later s0 s) :
    Later s0 (prefetch s c line) := by
  unfold prefetch
  repeat' (first
    | with_reducible assumption
    | intro _
    | (extract_lets +onlyGivenNames x; clear_value (e : x = _); first | (with_reducible refine Later.cut (s0 := s0) e ?_ (fun _ => ?_) <;> clear e) | clear e)
    | with_reducible apply spRead_later | with_reducible apply keepLine_later
    | (split <;> rename_i e <;> first | (with_reducible refine Later.cut1 (s0 := s0) e ?_ (fun _ => ?_) <;> clear e) | (with_reducible refine Later.cut2 (s0 := s0) e ?_ (fun _ => ?_) <;> clear e) | (with_reducible refine Later.cut3 (s0 := s0) e ?_ (fun _ => ?_) <;> clear e) | skip)
    | fail_if_no_progress with_reducible apply Later.upd)

theorem execInsnBufferFill_later (c : Nat) {s : State} :
    ∃ s', (execInsnBufferFill c s) = .next s' ∧ Later s s' := by
  have hl := Later.refl s
  refine ⟨_, rfl, ?_⟩
  repeat' (first
    | with_reducible assumption
    | intro _
    | (extract_lets +onlyGivenNames x; clear_value (e : x = _); first | (with_reducible refine Later.cut (s0 := s) e ?_ (fun _ => ?_) <;> clear e) | clear e)
    | with_reducible apply prefetch_later | with_reducible apply block_later | with_reducible apply spRead_later | with_reducible apply cuFault_later | with_reducible apply keepLine_later | with_reducible apply count_later
    | (split <;> rename_i e <;> first | (with_reducible refine Later.cut1 (s0 := s) e ?_ (fun _ => ?_) <;> clear e) | (with_reducible refine Later.cut2 (s0 := s) e ?_ (fun _ => ?_) <;> clear e) | (with_reducible refine Later.cut3 (s0 := s) e ?_ (fun _ => ?_) <;> clear e) | skip)
    | fail_if_no_progress with_reducible apply Later.upd)

theorem execLaunchTake_later (c : Nat) {s : State} :
    ∃ s', (execLaunchTake c s) = .next s' ∧ Later s s' := by
  have hl := Later.refl s
  refine ⟨_, rfl, ?_⟩
  repeat' (first
    | with_reducible assumption
    | intro _
    | (extract_lets +onlyGivenNames x; clear_value (e : x = _); first | (with_reducible refine Later.cut (s0 := s) e ?_ (fun _ => ?_) <;> clear e) | clear e)
    | with_reducible apply spRead_later | with_reducible apply popMsg_later | with_reducible apply modCtl_later | with_reducible apply coreFault_later | with_reducible apply count_later
    | with_reducible apply Later.foldl
    | (split <;> rename_i e <;> first | (with_reducible refine Later.cut1 (s0 := s) e ?_ (fun _ => ?_) <;> clear e) | (with_reducible refine Later.cut2 (s0 := s) e ?_ (fun _ => ?_) <;> clear e) | skip)
    | fail_if_no_progress with_reducible apply Later.upd)

end Sys2Proof.Machine
end

