-- ==== Sys2Proof/Laws/LaterWords.lean ====
section
/-!
SUPPORT. What the execution of an instruction word keeps (Laws/Later.lean).
-/

namespace Sys2Proof.Machine

theorem runInsn_later (i : Instr) {s : State} :
    ∃ s', runInsn i s = .next s' ∧ Later s s' := by
  unfold runInsn
  split
  · exact execAdd_later _ _ _ _
  · exact execSub_later _ _ _ _
  · exact execAnd_later _ _ _ _
  · exact execOr_later _ _ _ _
  · exact execXor_later _ _ _ _
  · exact execSll_later _ _ _ _
  · exact execSrl_later _ _ _ _
  · exact execSra_later _ _ _ _
  · exact execSlt_later _ _ _ _
  · exact execSltu_later _ _ _ _
  · exact execMin_later _ _ _ _
  · exact execMax_later _ _ _ _
  · exact execMinu_later _ _ _ _
  · exact execMaxu_later _ _ _ _
  · exact execMul_later _ _ _ _
  · exact execMulh_later _ _ _ _
  · exact execMulhu_later _ _ _ _
  · exact execClz_later _ _ _ _
  · exact execCtz_later _ _ _ _
  · exact execPopc_later _ _ _ _
  · exact execNop_later _ _ _ _
  · exact execEnd_later _ _ _ _
  · exact execBrk_later _ _ _ _
  · exact execIflush_later _ _ _ _
  · exact execTwait_later _ _ _ _
  · exact execTstat_later _ _ _ _
  · exact execTmask_later _ _ _ _
  · exact execWaitall_later _ _ _ _
  · exact execRdtime_later _ _ _ _
  · exact execRdcyc_later _ _ _ _
  · exact execRdid_later _ _ _ _
  · exact execQsend_later _ _ _ _ _
  · exact execQrecv_later _ _ _ _ _
  · exact execQtry_later _ _ _ _ _
  · exact execEvwait_later _ _ _ _ _
  · exact execEvclr_later _ _ _ _ _
  · exact execAddi_later _ _ _ _
  · exact execAndi_later _ _ _ _
  · exact execOri_later _ _ _ _
  · exact execXori_later _ _ _ _
  · exact execSlli_later _ _ _ _
  · exact execSrli_later _ _ _ _
  · exact execSrai_later _ _ _ _
  · exact execSlti_later _ _ _ _
  · exact execOrsh_later _ _ _ _
  · exact execLb_later _ _ _ _
  · exact execLh_later _ _ _ _
  · exact execLw_later _ _ _ _
  · exact execLd_later _ _ _ _
  · exact execLbu_later _ _ _ _
  · exact execLhu_later _ _ _ _
  · exact execLwu_later _ _ _ _
  · exact execSb_later _ _ _ _
  · exact execSh_later _ _ _ _
  · exact execSw_later _ _ _ _
  · exact execSd_later _ _ _ _
  · exact execGlw_later _ _ _ _
  · exact execGld_later _ _ _ _
  · exact execGsw_later _ _ _ _
  · exact execGsd_later _ _ _ _
  · exact execJalr_later _ _ _ _
  · exact execBeq_later _ _ _ _
  · exact execBne_later _ _ _ _
  · exact execBlt_later _ _ _ _
  · exact execBge_later _ _ _ _
  · exact execBltu_later _ _ _ _
  · exact execBgeu_later _ _ _ _
  · exact execJal_later _ _ _
  · exact execX_later _ _ _ _ _
  · exact ⟨s, rfl, Later.refl s⟩

theorem execReservedOpcode_later (c : Nat) (w : W32) {s : State} :
    ∃ s', execReservedOpcode c w s = .next s' ∧ Later s s' := by
  unfold execReservedOpcode
  split
  · exact ⟨_, rfl, issue_later c _ (Later.refl s) (fun s hs => illegal_later c w _ _ hs)⟩
  · exact runInsn_later _

end Sys2Proof.Machine
end

