-- ==== Sys2Proof/WellFormed.lean ====
section
/-!
DEFINITION. Which commands name units that the device has: what a decoder of commands would check. The meanings check again what
they need and leave the state as it is for a unit that does not exist.
-/

namespace Sys2Proof

/-- R35: the 1,152 logical cores. -/
def okCore (c : Nat) : Bool := decide (c < 1152)
/-- R33: the 12 fields. -/
def okField (n : Nat) : Bool := decide (n < 12)
/-- R280: the 104 routers of a field. -/
def okRouter (r : Nat) : Bool := decide (r < 104)
/-- R35: the 96 core groups. -/
def okGroup (g : Nat) : Bool := decide (g < 96)
/-- R366: the 16 partitions. -/
def okPart (p : Nat) : Bool := decide (p < 16)
/-- R281: the 40 ports. -/
def okPort (p : Nat) : Bool := decide (p < 40)
/-- R281: the 8 link dies. -/
def okDie (l : Nat) : Bool := decide (l < 8)
/-- R302: the 16 bundles. -/
def okBundle (b : Nat) : Bool := decide (b < 16)
/-- R306: device IDs of 14 bits. -/
def okDev (d : Nat) : Bool := decide (d < 16384)
/-- R325: the 16 stacks. -/
def okStack (st : Nat) : Bool := decide (st < 16)
/-- R329: the 768 HBM units. -/
def okUnit (u : Nat) : Bool := decide (u < 768)
/-- R349: the 2 host dies. -/
def okHost (h : Nat) : Bool := decide (h < 2)
/-- R349: the physical function and the 16 virtual functions of an endpoint. -/
def okFn (f : Nat) : Bool := decide (f < 17)
/-- R356: the 4 ring pairs of a function. -/
def okRing (r : Nat) : Bool := decide (r < 4)
/-- Table 13.14: the 136 domains. -/
def okDomain (d : Nat) : Bool := decide (d < 136)
/-- Table 13.15: the 6 aux channels. -/
def okAux (c : Nat) : Bool := decide (c < 6)
/-- R485: the 2 management ports. -/
def okMgmtPort (p : Nat) : Bool := decide (p < 2)
/-- R245: the 3,072 locks. -/
def okLock (i : Nat) : Bool := decide (i < 3072)
/-- Table 2.4: the 5 seams. -/
def okSeam (x : Nat) : Bool := decide (x < 5)
/-- R547: the shared counter blocks: routers, ports and stacks. -/
def okBlk (b : Nat) : Bool := decide (b < 1248) || (decide (2000 ≤ b) && decide (b < 2040)) || (decide (3000 ≤ b) && decide (b < 3016))

/-- Whether every unit that a command names exists. -/
def Instr.wf (i : Instr) : Bool :=
  match i with
  | .add c _ _ _ | .sub c _ _ _ | .and_ c _ _ _ | .or_ c _ _ _ | .xor_ c _ _ _ | .sll c _ _ _ | .srl c _ _ _
  | .sra c _ _ _ | .slt c _ _ _ | .sltu c _ _ _ | .min c _ _ _ | .max c _ _ _ | .minu c _ _ _ | .maxu c _ _ _
  | .mul c _ _ _ | .mulh c _ _ _ | .mulhu c _ _ _ | .clz c _ _ _ | .ctz c _ _ _ | .popc c _ _ _ | .addi c _ _ _
  | .andi c _ _ _ | .ori c _ _ _ | .xori c _ _ _ | .slli c _ _ _ | .srli c _ _ _ | .srai c _ _ _ | .slti c _ _ _
  | .orsh c _ _ _ | .lb c _ _ _ | .lh c _ _ _ | .lw c _ _ _ | .ld c _ _ _ | .lbu c _ _ _ | .lhu c _ _ _
  | .lwu c _ _ _ | .sb c _ _ _ | .sh c _ _ _ | .sw c _ _ _ | .sd c _ _ _ | .glw c _ _ _ | .gld c _ _ _ | .gsw c _ _ _
  | .gsd c _ _ _ | .globalAccessCompletion c _ _ | .globalAccessTimeout c | .beq c _ _ _ | .bne c _ _ _
  | .blt c _ _ _ | .bge c _ _ _ | .bltu c _ _ _ | .bgeu c _ _ _ | .jal c _ _ | .jalr c _ _ _ | .nop c _ _ _
  | .end_ c _ _ _ | .endComplete c | .brk c _ _ _ | .iflush c _ _ _ | .twait c _ _ _ | .tstat c _ _ _
  | .tmask c _ _ _ | .waitall c _ _ _ | .rdtime c _ _ _ | .rdcyc c _ _ _ | .rdid c _ _ _ | .qsend c _ _ _ _
  | .qrecv c _ _ _ _ | .qtry c _ _ _ _ | .evwait c _ _ _ _ | .evclr c _ _ _ _ | .x c _ _ _ _ | .xIssueStallEnd c
  | .insnBufferFill c | .launchTake c | .pconf c _ _ | .pconfTakeEffect c | .pload c _ _ | .ploadComplete c
  | .pswap c _ | .pswapSwap c | .pstream c _ _ | .rampGrant c | .rampComplete c | .pstreamComplete c | .tallyDecide c
  | .pdrain c _ _ | .pdrainComplete c | .pressIdleCountExpire c | .pressFallComplete c | .vecAdd c _ _
  | .vecSub c _ _ | .vecMul c _ _ | .vecFma c _ _ | .vecMax c _ _ | .vecMin c _ _ | .vecSel c _ _ | .vecCgt c _ _
  | .vecAbs c _ _ | .vecNeg c _ _ | .vecExp2 c _ _ | .vecLog2 c _ _ | .vecRcp c _ _ | .vecRsqrt c _ _
  | .vecRsum c _ _ | .vecRmax c _ _ | .vecRmin c _ _ | .vecRamax c _ _ | .vecCvt c _ _ | .vecQnt c _ _
  | .vecQnte c _ _ | .vecDqnt c _ _ | .vecTrn c _ _ | .vecCopy c _ _ | .vecCommandStart c | .vecCommandComplete c
  | .vecSeedWrite _ c _ | .spdModeWrite _ c _ | .scratchpadEccWriteback c _ | .patrolScrubRow c
  | .remoteRequestArrive c _ _ | .localRequestArrive c _ | .dmaCopy c _ _ _ | .dmaFill c _ _ _ | .streamIn c _ _ _
  | .streamOut c _ _ _ | .dmaBurstSend c _ | .dmaFillArrive c _ _ _ _ _ | .dmaBurstAck c _ _ _
  | .streamOutMessageAnswer c _ _ | .dmaNotifyAnswer c _ _ | .queCfgWrite _ c _ _ | .queBaseWrite _ c _ _
  | .queDevWrite _ c _ _ | .evtSetWrite _ c _ _ | .send c _ _ | .evpost c _ _ | .evpostAnswer c _ | .mcset c _ _
  | .mcsetComplete c | .mcget c _ _ | .lockAcq c _ _ | .lockTry c _ _ | .lockRel c _ _ | .lockReplyArrive c _ _
  | .aadd c _ _ | .amin c _ _ | .amax c _ _ | .aminu c _ _ | .amaxu c _ _ | .aswap c _ _ | .acas c _ _
  | .atomicReplyArrive c _ _ | .coreResetDone c | .coreFailDetected ⟨c, _⟩ | .haltArrive c | .runArrive c | .coreReset _ c
  | .failCore _ c | .smpCtrlWrite _ c _ | .sampleRecord c | .reservedOpcode c _ => okCore c
  | .csrWrite _ _ _ _ | .rcRead _ _ _ | .queueMessageArrive _ | .queueMessageAnswer _ _ | .queueGrantArrive _ _
  | .waiterRetryTimer _ _ | .evpostArrive _ | .mcastMemberAnswer _ _ _ | .mcfwdArrive _ | .atomicArrive _
  | .meshPacketDeliver _ | .remoteTimeout _ | .epochSwitch | .epochHoldExpire | .hbmRequest _ | .clkChangeArm _ _ _
  | .clkReadyCheck | .clkSwitch | .echoBeacon | .echoDiscipline _ | .echoSourceLoss | .ptpMessage _ _ _ | .ppsEdge
  | .vinLowWarning _ | .vinFault _ | .vinArrive _ | .autostart | .vstbyLoss | .vstbyArrive | .bladeCurrentSample _ _
  | .jointSample _ _ | .jointTest _ _ | .jointSuspectExpire _ | .powerSample _ _ _ | .governorDecision
  | .brakeRelease | .decafBrakeRelease | .lendReport _ | .lendRound _ | .lendLimitMessage _ | .lendConfirmTimeout _
  | .lendFallback | .tempSample _ _ | .thermalTrip | .auxStandbyTrip | .coldRstRelease _ | .warmRstRelease _
  | .coldStartStageEnd _ | .startStageDeadline | .warmStartStageEnd _ | .autoRecover | .computeResetDrainEnd
  | .computeResetDone | .watchdogExpire | .carafeTakeControl _ | .haltNAssert _ | .haltNRelease _
  | .errorCoalesceFlush | .eventLogFlush | .parityRewrite _ | .fuseRecheck _ | .surveyCompact | .getVersion _
  | .getCapabilities _ | .negotiateAlgorithms _ | .getDigests _ | .getCertificate _ _ | .keyExchange _ _
  | .finish_ _ _ | .challenge _ _ | .getMeasurements _ _ _ | .heartbeat _ _ | .keyUpdate _ _ | .sessionTimeout _
  | .mctpControl _ | .hello_ _ _ | .get_ _ _ | .set_ _ _ | .getblock _ _ _ _ | .setblock _ _ _ _ | .subscribe _ _
  | .action_ _ _ | .close_ _ | .sequenceGapTimeout _ | .stagingTimeout _ | .configCommit | .mgmtSettingsApply
  | .eventDeliver _ | .surveyRevoke _ _ | .epochAdvance _ | .memoryRetire _ _ | .echoResync _ | .coldStart _
  | .warmStart _ | .computeReset _ | .managementRestart _ | .lowEnter _ | .lowExit _ | .stateRelease _
  | .fieldCheck _ _ | .alertAck _ _ | .enroll _ _ | .slotRevoke _ _ | .factoryReset _ | .firmwareActivate _ _
  | .firmwareVerifyDone _ _ | .firmwareConfirm _ | .firmwareRevert _ | .trialHealth _ _ | .trialTimeout
  | .countersClear _ | .counterWrap _ _ | .echoRefChange _ | .i3cEntdaa _ | .mMemoryUncorrectable => true
  | .lockRequestArrive lock _ => okLock lock
  | .packetRoute n r _ _ | .routerFail n r => okField n && okRouter r
  | .seamResendBurst seam _ _ _ _ _ _ | .crossingQuiesced seam _ _ => okSeam seam
  | .serviceWireDisagree n seam _ _ => okField n && okSeam seam
  | .weightPropagate p | .partitionResetDone p | .partitionHalted p | .partitionReset _ p => okPart p
  | .portTrainingDone p _ | .berGateEnd p _ | .trainFrame p _ | .berWindowEnd p _ _ _ | .portSignalLoss p
  | .portRetrainTimer p | .dataFrame p _ | .idleFrame p _ | .nakFrame p _ | .replayTimeout p | .beaconSend p
  | .beaconFrame p _ | .keyFrame p _ | .stallTimeout p _ | .portResetAction _ p | .portAdmit _ p => okPort p
  | .cmisPoll l _ => okDie l
  | .linkPacketRoute i _ _ => okDie i.die && decide (i.inp < 8)
  | .ethDataPacket p b peer _ => okPort p && okBundle b && okDev peer
  | .ethAck b peer _ | .ethNak b peer _ | .ethAckTimer b peer | .ethRto b peer | .cnp b peer _
  | .cnpIntervalEnd b peer | .rateIncreaseTimer b peer => okBundle b && okDev peer
  | .neighbourSolicitation b _ | .bundleKeySwitch _ b => okBundle b
  | .hbmRateTokens st | .hbmEccWriteback st _ | .hbmScrubWord st | .hbmTempRead st _ | .hbmRecalibrate st _
  | .hbmChannelFail st _ => okStack st
  | .bar2Write h f _ bs _ => okHost h && okFn f && decide (bs.length ≤ 512)
  | .bar2Read h f _ rd => okHost h && okFn f && decide (rd.len ≤ 4096)
  | .mailboxGo h f _ => okHost h && okFn f
  | .sqtailWrite h f r _ | .ringCtrlWrite h f r _ | .ringBaseWrite h f r _ _ | .msixCoalesceTimer h f r
  | .completionWriteError h f r => okHost h && okFn f && okRing r
  | .launchFetch h | .pfFlr h | .perstAssert h _ | .perstRelease h | .hostLinkUp h _ _ _ => okHost h
  | .launchTargetReport h c => okHost h && okCore c
  | .vfFlr h p => okHost h && okPart p
  | .pllLock n | .pllLockLoss n | .vcoreLower n | .echoDelayMeasure n _ | .echoBeaconLoss n | .phaseTrip n _
  | .cgPowerupWave n => okField n
  | .stageTrip loss => okField loss.field
  | .domainTrip d | .domainTransitionDone d | .domainSwitch _ d _ => okDomain d
  | .fanStartCheck c _ | .auxTrip c | .auxOverloadTrip c | .auxRetry c | .fanStall c _ | .auxReset _ c => okAux c
  | .remapSpareTested g _ | .remapDone g | .fieldCheckGroupDone g _ => okGroup g
  | .fieldCheckUnitDone u _ => okUnit u
  | .mgmtDatagram p _ _ | .mgmtNetworkProbe p _ _ => okMgmtPort p
  | .peerMgmtPacket dev _ => okDev dev
  | .sharedCntCtlWrite _ b _ => okBlk b

/-- A command whose units exist. -/
abbrev WellFormed (i : Instr) : Prop := i.wf = true

end Sys2Proof
end

