-- ==== Sys2Proof/Tests/Slice0.lean ====
section
/-!
SUPPORT. Small tests of single commands, each on a small state: the numbers are the specification's own or worked out by hand from
its rules. Those named test_w_ show states and operands that meet the hypotheses of a statement of Obligations.lean, each
with what the command then does there.
-/

open Sys2Proof Sys2Proof.Machine

namespace Sys2Proof.Tests

set_option Elab.async false

/-- What holds of the state that a command answers. -/
def after (i : Instr) (s : State) (p : State → Bool) : Bool :=
  match exec i s with
  | .next t => p t
  | _ => false

/-- The requests for other devices that have left: opcode, device, address, sub-operation. -/
def leaves (t : State) : List (Nat × Nat × Nat × Nat) :=
  t.out.filterMap fun o => match o with
    | .toDev k _ => some (k.opc.toNat, k.ddev, k.addr.toNat, k.subop.toNat)
    | _ => none

/-- A device in service. -/
def base : State := { State.reset with dev := .ready }

/-- Core 0 is RUNNING at PC 0x100, whose line its instruction buffer holds, with g1 = 5, g2 = −3, g3 = 0x1000. -/
def ready : State :=
  modCtl base 0 (fun k => { k with
    st := .running, pc := 0x100, ibuf := [(4, (0, List.replicate 64 0))], regs := [(1, 5), (2, 0xFFFFFFFFFFFFFFFD), (3, 0x1000)] })

/-- The same with g`r` = `v`. -/
def readyReg (r : Nat) (v : W64) : State := modCtl ready 0 (fun k => { k with regs := mset k.regs r v })

/-- Core 0 of a state has faulted with a code. -/
def faulted (code : Nat) (t : State) : Bool :=
  decide ((t.core 0).ctl.st = .faulted) && (match (t.core 0).ctl.frec with | some r => r.code == code | none => false)

/-! ### Scalar instructions (chapter 6) -/

theorem test_w_ready : Ready ready 0 ∧ Quiet ready 0 ∧ MemInv ready := by unfold Ready Quiet MemInv; decide

theorem test_alu : (aluTable.map (fun p => (p.2 5 0xFFFFFFFFFFFFFFFD).toInt)) =
    [2, 8, 5, -3, -8, -6917529027641081856, 0, 0, 0, 1, -3, 5, 5, -3, -15, -1, 4] := by decide

theorem test_alu_exec : (aluTable.all fun p => after (p.1 0 4 1 2) ready fun t =>
    rg t 0 4 == p.2 5 0xFFFFFFFFFFFFFFFD && (t.core 0).ctl.pc == 0x104) = true := by decide

theorem test_unary : (unaryTable.map fun p => (p.2.2 0, p.2.2 5, p.2.2 0x8000000000000000)) =
    [(64, 61, 0), (64, 0, 63), (0, 2, 1)] := by decide

theorem test_unary_exec : (unaryTable.all fun p => after (p.1 0 4 3 0) ready fun t =>
    rg t 0 4 == BitVec.ofNat 64 (p.2.2 0x1000) && rg t 0 1 == 5) = true := by decide

theorem test_unary_illegal : (unaryTable.all fun p => after (p.1 0 4 3 1) ready fun t => faulted 1 t && rg t 0 4 == 0) = true := by
  decide

theorem test_imm : (immTable.all fun p => after (p.1 0 4 1 0x7FFF) ready fun t =>
    rg t 0 4 == p.2 5 0x7FFF && rg t 0 1 == 5) = true := by decide

theorem test_imm_values : (immTable.map (fun p => (p.2 5 0x7FFF).toInt)) = [4, 5, 32767, 32762, 0, 196607] := by decide

theorem test_shift : (shiftTable.all fun p => after (p.1 0 4 2 63) ready (fun t => rg t 0 4 == p.2.2 0xFFFFFFFFFFFFFFFD 63) &&
    after (p.1 0 4 2 64) ready (faulted 1)) = true := by decide

theorem test_g0_discards : after (.add 0 0 1 2) ready (fun t => rg t 0 0 == 0 && (t.core 0).ctl.pc == 0x104) = true := by decide

/-- g3 = 0x1000 holds the address of eight bytes 0x81 to 0x88. -/
def loaded : State := spPuts ready 0 0x1000 [0x81, 0x82, 0x83, 0x84, 0x85, 0x86, 0x87, 0x88]

theorem test_w_loads : MemInv loaded ∧ sbReadStall (loaded.core 0) 0x1000 8 = false ∧ spMark loaded 0 0x1000 = none := by
  unfold MemInv; decide

theorem test_loads : (loadTable.map fun p => match exec (p.1 0 4 3 0) loaded with | .next t => (rg t 0 4).toNat | _ => 0) =
    [0xFFFFFFFFFFFFFF81, 0xFFFFFFFFFFFF8281, 0xFFFFFFFF84838281, 0x8887868584838281, 0x81, 0x8281, 0x84838281] := by decide

theorem test_loads_fault : (loadTable.all fun p => after (p.1 0 4 2 0) loaded (faulted 3) &&
    (p.2.2.1 == 1 || after (p.1 0 4 3 1) loaded (faulted 2))) = true := by decide

theorem test_stores : (storeTable.all fun p => after (p.1 0 2 3 16) loaded fun t =>
    spBytes t 0 0x1010 p.2.2 == natBytes p.2.2 0xFFFFFFFFFFFFFFFD && spByte t 0 (0x1010 + p.2.2) == 0 &&
      spBytes t 0 0x1000 8 == spBytes loaded 0 0x1000 8 && memWf t.mem) = true := by decide

theorem test_stores_fault : (storeTable.all fun p => after (p.1 0 1 2 0) ready (fun t => faulted 3 t && t.mem.isEmpty) &&
    (p.2.2 == 1 || after (p.1 0 1 3 1) ready (fun t => faulted 2 t && t.mem.isEmpty))) = true := by decide

theorem test_branches : (branchTable.map fun p => match exec (p.1 0 1 2 0x7FFE) ready with
    | .next t => (t.core 0).ctl.pc.toNat | _ => 0) = [0x104, 0xF8, 0x104, 0xF8, 0xF8, 0x104] := by decide

theorem test_jal : after (.jal 0 4 0xFFFFF) ready (fun t => rg t 0 4 == 0x104 && (t.core 0).ctl.pc == 0xFC) = true := by decide

theorem test_jalr : after (.jalr 0 4 3 8) ready (fun t => rg t 0 4 == 0x104 && (t.core 0).ctl.pc == 0x1008) = true := by decide

theorem test_jalr_misaligned : after (.jalr 0 4 1 0) ready (fun t => faulted 2 t && rg t 0 4 == 0) = true := by decide

/-- Tags 3 (count 2, ERR) and 31 (count 1) are in use. -/
def tagged : State := modCtl ready 0 (fun k => { k with tagCnt := [(3, 2), (31, 1)], tagErr := 0x8 })

theorem test_system : (after (.nop 0 0 0 0) tagged (fun t => (t.core 0).ctl.pc == 0x104) &&
    after (.tmask 0 4 0 0) tagged (fun t => rg t 0 4 == 0x80000008) &&
    after (.tstat 0 4 0 3) tagged (fun t => rg t 0 4 == 0x102 && (t.core 0).ctl.tagErr == 0) &&
    after (.twait 0 0 0 3) tagged (fun t => (t.core 0).ctl.blk == .twait 3 && (t.core 0).ctl.pc == 0x100) &&
    after (.twait 0 0 0 4) tagged (fun t => (t.core 0).ctl.blk == .none && (t.core 0).ctl.pc == 0x104) &&
    after (.waitall 0 0 0 0) tagged (fun t => (t.core 0).ctl.blk == .waitAll) &&
    after (.waitall 0 0 0 0) ready (fun t => (t.core 0).ctl.pc == 0x104) &&
    after (.brk 0 0 0 0) tagged (faulted 0x0E)) = true := by decide

theorem test_read_functions : (after (.rdtime 0 4 0 0) { ready with fields := [(0, { Field.reset with echo := 77, cclk := 1234 })] }
      (fun t => rg t 0 4 == 77) &&
    after (.rdcyc 0 4 0 0) { ready with fields := [(0, { Field.reset with echo := 77, cclk := 1234 })] } (fun t => rg t 0 4 == 1234) &&
    after (.rdid 0 4 0 0) ready (fun t => rg t 0 4 == (coreId ready 0).setWidth 64)) = true := by decide

theorem test_end : (after (.end_ 0 0 0 0) ready (fun t => (t.core 0).ctl.st == .ending) &&
    after (.endComplete 0) (modCtl ready 0 fun k => { k with st := .ending }) (fun t => (t.core 0).ctl.st == .idle) &&
    after (.iflush 0 0 0 0) (modCtl ready 0 fun k => { k with ibuf := [(4, (0, []))] }) (fun t => (t.core 0).ctl.ibuf.isEmpty)) = true := by
  decide

theorem test_w_end : ((modCtl ready 0 fun k => { k with st := .ending }).core 0).flights = [] := by decide


/-! ### Queue functions, X, launches and global accesses -/

/-- g4 holds the destination word of queue 5 of core 0, g5 of a channel; 16 bytes 1 to 16 stand at 0x1000. -/
def qready : State := { spPuts (readyReg 4 5) 0 0x1000 ((List.range 16).map (fun i => BitVec.ofNat 8 (i + 1))) with devId := 9 }

theorem test_w_qsend : bufBad (rg qready 0 3) = false ∧ decodeDest (rg qready 0 4) = some (.uni 5 0 false) ∧
    sbReadStall (qready.core 0) 0x1000 16 = false ∧ Sound qready 0 0x1000 16 ∧ sendOf qready (.ctl 0) = none ∧
    bufBad (rg qready 0 1) = true ∧ decodeDest (rg qready 0 2) = none := by unfold Sound; decide +kernel

theorem test_qsend : (after (.qsend 0 6 4 3 0) qready (fun t =>
      sendOf t (.ctl 0) == some (oneSend (spBytes qready 0 0x1000 16) false (.local_ 0 5)) && (t.core 0).ctl.blk == .qsend 6 none) &&
    after (.qsend 0 6 4 1 0) qready (faulted 0x0D) && after (.qsend 0 6 2 3 0) qready (faulted 0x0D)) = true := by decide +kernel

/-- Queue 5 of core 0 is enabled at offset 0x8000 with 16 entries of 64 B; entry 0 holds a message of 32 B from core 7 of
partition 2 of device 9. -/
def ringed : Queue :=
  { Queue.reset 5 with base := 0x200, en := true, esize := 3, depth := 15, tail := 1,
                       msgs := [⟨0, 2, ⟨2, 7, 9, false, false, 0, true⟩⟩] }

def held : State :=
  spPuts (modQue (readyReg 4 5) 0 (fun q => { q with qs := mset q.qs 5 ringed })) 0 0x8000
    ((List.range 32).map (fun i => BitVec.ofNat 8 (i + 1)))

theorem test_w_qrecv : MemInv held ∧ (rg held 0 4).toNat % 32 = 5 ∧ bufBad (rg held 0 3) = false ∧
    ((held.core 0).que.q 5).en = true ∧ boundBy (held.core 0) 5 = none ∧ sbWriteStall (held.core 0) 0x1000 256 = false ∧
    Sound held 0 (((held.core 0).que.q 5).slotOff 0) 32 := by unfold MemInv Sound; decide +kernel

theorem test_qrecv : (after (.qrecv 0 6 4 3 0) held (fun t =>
      rg t 0 6 == 2 * 2 ^ 41 + 7 * 2 ^ 30 + 9 * 2 ^ 16 + 2 * 2 ^ 8 + 3 && ((t.core 0).que.q 5).msgs.isEmpty &&
      spBytes t 0 0x1000 33 == spBytes held 0 0x8000 33) &&
    after (.qrecv 0 6 4 3 0) (readyReg 4 30) (fun t => (t.core 0).ctl.blk == .qrecv 6 30 0x1000)) = true := by decide +kernel

theorem test_qtry : (after (.qtry 0 6 4 3 0) held (fun t => rg t 0 6 == 2 * 2 ^ 41 + 7 * 2 ^ 30 + 9 * 2 ^ 16 + 2 * 2 ^ 8 + 3) &&
    after (.qtry 0 1 4 3 0) (readyReg 4 30) (fun t => rg t 0 1 == 0 && (t.core 0).ctl.pc == 0x104)) = true := by decide +kernel

/-- Flags 5 and 40 are set. -/
def flagged : State := modQue ready 0 (fun q => { q with flags := 0x10000000020 })

theorem test_evwait : (after (.evwait 0 6 2 0 0) flagged (fun t => rg t 0 6 == 0x10000000020) &&
    after (.evwait 0 6 0 0 0) flagged (fun t => rg t 0 6 == 0 && (t.core 0).ctl.pc == 0x104) &&
    after (.evwait 0 6 1 0 0) flagged (fun t => (t.core 0).ctl.blk == .evwait 6 5)) = true := by decide +kernel

theorem test_evclr : after (.evclr 0 0 2 0 0) flagged (fun t => (t.core 0).que.flags == 0 && (t.core 0).ctl.pc == 0x104) = true := by
  decide +kernel

/-- Core 0 waits for flag 2. -/
def evheld : State := modCtl flagged 0 (fun k => { k with blk := .evwait 6 4 })

theorem test_w_evt_set : MayReach evheld .carafe 0 ∧ MayReach evheld (.core 11) 0 := by
  unfold MayReach; exact ⟨⟨by decide, .inl rfl⟩, by decide, .inr ⟨by decide, 11, 0, rfl, by decide, by decide⟩⟩

theorem test_evt_set : (after (.evtSetWrite (.core 11) 0 false 6) evheld (fun t =>
      (t.core 0).que.flags == 0x10000000026 && rg t 0 6 == 4 && (t.core 0).ctl.blk == .none && (t.core 0).ctl.pc == 0x104) &&
    after (.evtSetWrite .carafe 0 true 4) evheld (fun t => (t.core 0).que.flags == 0x10400000020 && (t.core 0).ctl == (evheld.core 0).ctl)) =
    true := by decide +kernel

/-- A VEC_ADD descriptor of 8 elements at registers v1 and v2, to v3, at offset 0x1000 (Table 6.11). -/
def vecLine : Bytes :=
  [1, 0, 0xB, 0xB] ++ natBytes 4 8 ++ natBytes 4 1 ++ natBytes 4 0x80000001 ++ natBytes 4 0x80000002 ++ natBytes 4 0 ++
    natBytes 4 0x80000003 ++ List.replicate 36 0

def xready : State := spPuts ready 0 0x1000 vecLine

theorem test_w_x : sbReadStall (xready.core 0) 0x1000 64 = false ∧ Sound xready 0 0x1000 64 ∧
    (readBody 1 (spBytes xready 0 0x1000 64)).isSome = true := by unfold Sound; decide +kernel

theorem test_x : (after (.x 0 1 7 3 0) xready (fun t => (t.core 0).flights.length == 1 && tagCount (t.core 0).ctl 7 == 1 &&
      (t.core 0).ctl.pc == 0x104) &&
    after (.x 0 1 7 3 0x40) xready (faulted 1) && after (.x 0 1 7 1 0) xready (faulted 0x0B) &&
    after (.x 0 1 7 3 0x800) xready (fun t => (t.core 0).ctl.blk == .sync 0)) = true := by decide +kernel

/-- A VEC_ADD on registers: v3 = v1 + v2 in 8 lanes. -/
def vadd : VecDesc := readVec vecLine
def iss (tag : Fin 32) : Issue := ⟨tag, false, false, 0x1000⟩

/-- Core 0 is held at an X whose tag already counts 63 commands (R190), or fewer. -/
def xheld (n : Nat) : State := modCtl ready 0 (fun k => { k with blk := .x ⟨iss 7, .vec .add vadd⟩ [], tagCnt := [(7, n)] })

theorem test_x_stall : (engStalls (xheld 63) 0 ⟨iss 7, .vec .add vadd⟩ && !engStalls (xheld 62) 0 ⟨iss 7, .vec .add vadd⟩ &&
    after (.xIssueStallEnd 0) (xheld 63) (fun t => t.cores == (xheld 63).cores) &&
    after (.xIssueStallEnd 0) (xheld 62) (fun t => (t.core 0).flights.length == 1 && (t.core 0).ctl.blk == .none)) = true := by decide +kernel

theorem test_fill : after (.insnBufferFill 0) (modCtl ready 0 fun k => { k with pc := 0x4104 }) (fun t =>
    mfind (t.core 0).ctl.ibuf 4 == some (1, spBytes t 0 0x4100 64) && (t.core 0).ctl.pc == 0x4104) = true := by decide +kernel

/-- A launch message of 128 B waits in queue 31 (Table 11.4): ENTRY 0x2002, PARAM 7, g1 to g8 1 to 8. -/
def launchQ : Queue := { Queue.reset 31 with tail := 1, msgs := [⟨0, 8, ⟨0, 0, 0, true, false, 0, false⟩⟩] }
def launching : State :=
  spPuts (modQue base 0 (fun q => { q with qs := mset q.qs 31 launchQ })) 0 (0x7FF0 * 64)
    (natBytes 4 0x2002 ++ natBytes 4 7 ++ (List.range 8).flatMap (fun i => natBytes 8 (i + 1)))

theorem test_w_launch : present launching 0 = true ∧ (launching.core 0).ctl.st = .idle ∧ (launching.core 0).ctl.haltBit = false ∧
    Sound launching 0 (((launching.core 0).que.q 31).slotOff 0) 128 := by unfold Sound; decide +kernel

theorem test_launch : after (.launchTake 0) launching (fun t => (t.core 0).ctl.st == .running && (t.core 0).ctl.pc == 0x2000 &&
    (t.core 0).ctl.launch == 7 && rg t 0 1 == 1 && rg t 0 8 == 8 && rg t 0 9 == 0 && ((t.core 0).que.q 31).msgs.isEmpty) = true := by
  decide +kernel

theorem test_reserved : ((List.map isReservedWord [0, 0x02000000 + 0x00E, 0x0200001B, 0x0400000B, 0x06000005, 0x10000000, 0x22000000,
    0x80000000]) == [true, true, true, true, true, false, false, false] &&
    after (.reservedOpcode 0 0) ready (faulted 1) && after (.nop 0 0 1 0) ready (faulted 1) &&
    after (.evclr 0 1 0 0 1) ready (faulted 1) && after (.evclr 0 1 0 0 0) ready (fun t => !faulted 1 t) && after (.qrecv 0 1 4 3 8) held (faulted 1)) = true := by decide +kernel

/-- g4 holds the remote form of address 0x40 of device 3. -/
def gready : State := { readyReg 4 (0x8000000000000040 + 3 * 2 ^ 49) with devId := 9 }
def gblk (load : Bool) : GAccess :=
  ⟨6, load, 4, 0x8000000000000040 + 3 * 2 ^ 49, if load then [] else natBytes 4 5, encI 0x24 6 4 0, 0, 0, 0x99, false⟩
def gheld (load : Bool) : State := modCtl gready 0 (fun k => { k with blk := .gacc (gblk load) })

theorem test_w_global : inOwnSp 0 (rg gready 0 4) = false ∧ isRemote (gblk true).addr = true ∧ remoteDev (gblk true).addr = 3 ∧
    Quiet (gheld true) 0 := by unfold Quiet; decide +kernel

theorem test_global : (after (.glw 0 6 4 0) gready (fun t => match (t.core 0).ctl.blk with
      | .gacc g => g.load && g.size == 4 && g.addr == rg gready 0 4 && g.d == 6
      | _ => false) &&
    after (.gsd 0 1 4 8) gready (fun t => match (t.core 0).ctl.blk with
      | .gacc g => !g.load && g.size == 8 && g.data == natBytes 8 5
      | _ => false) &&
    after (.gld 0 6 4 4) gready (faulted 2)) = true := by decide +kernel

theorem test_global_completion : (after (.globalAccessCompletion 0 0 0x1FFFFFFFF) (gheld true) (fun t =>
      rg t 0 6 == 0xFFFFFFFF && (t.core 0).ctl.pc == 0x104) &&
    after (.globalAccessCompletion 0 0 0) (gheld false) (fun t => rg t 0 6 == 0 && (t.core 0).ctl.pc == 0x104) &&
    [(2, 4), (3, 5), (6, 8), (0x0C, 6)].all (fun p => after (.globalAccessCompletion 0 p.1 0) (gheld true) (faulted p.2))) = true := by decide +kernel

/-! ### The vector unit -/

theorem test_w_vec : Issuable ready 0 ⟨iss 7, .vec .add vadd⟩ ∧ engRefuse ready 0 (.vec .add { vadd with n := 0 }) = some (0x0B, 4) ∧
    engStalls (xheld 63) 0 ⟨iss 7, .vec .add vadd⟩ = true := by unfold Issuable; decide +kernel

/-- A form of each vector command that the unit takes, on registers where Table 6.12 lets it, on the scratchpad where it does
not. -/
def vecOk (op : VecOp) : VecDesc :=
  let d := { vadd with sb := if usesB op then vadd.sb else 0, sc := if usesC op then 0x80000004 else 0 }
  match op with
  | .qnt => { d with n := 32, dst := 0x4000, ofmt := 0, scl := 0x5000 }
  | .qnte => { d with n := 32, dst := 0x4000, ofmt := 2, scl := 0x5000, esc := 0x6000 }
  | .dqnt => { d with n := 32, sa := 0x4000, ifmt := 0, scl := 0x5000 }
  | .trn => { d with sa := 0x4000, dst := 0x5000 }
  | _ => d

theorem test_vec_issue : (vecTable.all fun p => after (p.1 0 (iss 7) (vecOk p.2)) ready (fun t =>
      ((t.core 0).flights.map (·.body)) == [.vec p.2 (vecOk p.2)] && tagCount (t.core 0).ctl 7 == 1) &&
    after (p.1 0 (iss 7) { vecOk p.2 with n := 0 }) ready (faulted 0x0B)) = true := by decide +kernel

/-- v1 holds 1.0, 2.0 …, v2 holds 0.5 in lanes 0 to 7; VEC_ADD has been issued. -/
def vrun (op : VecOp) (d : VecDesc) : State :=
  let s := modVec ready 0 fun v => { v with regs := [(64, 0x3F800000), (65, 0x40000000), (128, 0x3F000000), (129, 0x3F000000), (192, 9), (200, 5)] }
  match exec (.vecAdd 0 (iss 7) d) s with
  | .next t => modCore t 0 fun k => { k with flights := k.flights.map (fun f => { f with body := .vec op d }) }
  | _ => s

theorem test_w_vec_start : ((engFlights ((vrun .add vadd).core 0) 1).find? (fun f => !f.begun)).isSome = true ∧
    isRegOp vadd.sa = true ∧ isRegOp vadd.sb = true ∧ isRegOp vadd.dst = true ∧ vadd.rows = 1 ∧ vadd.n ≤ 64 ∧ ofmtOf vadd = .fp32 := by
  decide +kernel

theorem test_vec_start : after (.vecCommandStart 0) (vrun .add vadd) (fun t =>
    (List.range 9).map (vreg t 0 3) == [0x3FC00000, 0x40200000, 0, 0, 0, 0, 0, 0, 5]) = true := by decide +kernel

/-- A command under way that has computed one write of 4 bytes. -/
def vdone : State := modCore ready 0 fun k => { k with
  ctl := { k.ctl with tagCnt := [(7, 1)] }, sb := [⟨3, 0x4000, 0x403F, true⟩]
  flights := [{ newFlight 3 0 ⟨iss 7, .vec .add vadd⟩ with begun := true, writes := [(0x4000, [1, 2, 3, 4])] }] }

theorem test_w_vec_complete : MemInv vdone ∧ Sound vdone 0 0x4000 4 := by unfold MemInv Sound; decide +kernel

theorem test_vec_complete : after (.vecCommandComplete 0) vdone (fun t => spBytes t 0 0x4000 5 == [1, 2, 3, 4, 0] &&
    (t.core 0).flights.isEmpty && (t.core 0).sb.isEmpty && tagCount (t.core 0).ctl 7 == 0) = true := by decide +kernel

/-! ### The Press -/

/-- INT8 in packing mode 5: eight sub-tiles of K = 32 and 32 columns. -/
def pc5 : PressConf := { PressConf.reset with fmt := 5, pack := 5 }
def int8Stream : PstreamDesc :=
  { submask := 1, fmt := 5, accum := false, sen := false, bsz := false, m := 1, mov := [0x1000, 0, 0, 0], mstride := 32, msc := 0,
    acc := [3, 0, 0, 0, 0, 0, 0, 0] }
def fp32Drain : PdrainDesc :=
  { ofmt := 0, rtz := false, sat := false, etype := false, clr := true, col0 := 1, ncol := 2, row0 := 3, nrow := 1, out := 0x8000,
    ostride := 8, cscale := 0, rscale := 0 }
def oneLoad : PloadDesc := { submask := 1, fmt := 5, sen := false, bsz := false, data := 0x10000, scl := 0, esca := 0 }
def conf8 : PconfDesc := { fmt := 5, pack := 5, sen := false, bsz := false, een := false, ramp := 1, ten := false }

/-- An ACTIVE Press; column 0 of sub-tile 0 is 2 in rows 0 and 1; the moving row begins 3, −4; accumulator row 3 holds a NaN. -/
def pready : State :=
  spPuts (modPrs ready 0 fun p => { p with
    pstate := .active, rowsOn := 128, conf := pc5, active := ⟨pc5, 1, [(0, ⟨[2, 2], [], [], [], []⟩)]⟩
    acc := [(193, 0x7FC12345), (194, 0x40000000)] }) 0 0x1000 [3, 0xFC]

/-- A Press with the given commands outstanding. -/
def pwith (fs : List Flight) : State := modCore pready 0 fun k => { k with
  flights := fs, nextId := 9, ctl := { k.ctl with tagCnt := [(7, fs.length)] } }
def pcmd (id : Nat) (p : PressCmd) : Flight := newFlight id 0 ⟨iss 7, .press p⟩

theorem test_w_press : Issuable pready 0 ⟨iss 7, .press (.pstream int8Stream)⟩ ∧ Issuable pready 0 ⟨iss 7, .press (.pdrain fp32Drain)⟩ ∧
    PressSettled pready 0 ∧ mayBegin (pready.core 0).prs [] (pcmd 0 (.pstream int8Stream)) = true ∧
    mayBegin (pready.core 0).prs [] (pcmd 0 (.pdrain fp32Drain)) = true ∧ (geo pc5).k = 32 ∧ (geo pc5).cols = 32 ∧
    Sound pready 0 0x1000 32 := by unfold Issuable PressSettled Sound; decide +kernel

theorem test_press_issue : (([.pconf conf8, .pload oneLoad, .pswap] : List PressCmd).all fun p =>
    after (pressInstr 0 (iss 7) p) pready (fun t => ((t.core 0).flights.map (·.body)) == [.press p] && (t.core 0).ctl.pc == 0x104)) = true := by
  decide +kernel

theorem test_press_refused : after (.pload 0 (iss 7) { oneLoad with fmt := 0 }) pready (faulted 0x0A) = true := by decide +kernel

theorem test_pdrain : after (.pdrain 0 (iss 7) fp32Drain) pready (fun t =>
    (t.core 0).flights.map (·.writes) == [[(0x8000, [0, 0, 0xC0, 0x7F, 0, 0, 0, 0x40])]] && mget 0 (t.core 0).prs.acc 193 == 0) = true := by
  decide +kernel

theorem test_pconf_effect : after (.pconfTakeEffect 0) (pwith [pcmd 1 (.pconf { conf8 with pack := 0 })]) (fun t =>
    (t.core 0).prs.conf.pack == 0 && (t.core 0).flights.isEmpty) = true := by decide +kernel

theorem test_pswap_swap : (after (.pswapSwap 0) (pwith [pcmd 1 .pswap]) (fun t => (t.core 0).prs.shadow == (pready.core 0).prs.active &&
      (t.core 0).flights.isEmpty) &&
    after (.pswapSwap 0) (pwith [{ pcmd 0 (.pload oneLoad) with begun := true }, pcmd 1 .pswap]) (fun t =>
      (t.core 0).prs == (pready.core 0).prs && (t.core 0).flights.length == 2)) = true := by decide +kernel

theorem test_w_pload : (pressFirst (pwith [{ pcmd 0 (.pload oneLoad) with begun := true }]) 0 (fun f => isLoad f && f.begun)).isSome = true ∧
    Sound pready 0 0x10000 (geo pc5).dataBytes := by unfold Sound; decide +kernel

theorem test_w_stream_done : (pressFirst (pwith [{ pcmd 0 (.pstream int8Stream) with begun := true, accs := [⟨3, 0, 6⟩] }]) 0
    (fun f => isStream f && f.begun)).isSome = true := by decide +kernel

theorem test_stream_done : (after (.pstreamComplete 0) (pwith [{ pcmd 0 (.pstream int8Stream) with begun := true, accs := [⟨3, 1, 6⟩] }])
      (fun t => mget 0 (t.core 0).prs.acc 193 == 6 && mget 0 (t.core 0).prs.acc 194 == 0x40000000 && (t.core 0).flights.isEmpty) &&
    after (.pstreamComplete 0) (pwith [{ pcmd 0 (.pstream { int8Stream with accum := true }) with
        begun := true, intPass := true, accs := [⟨3, 2, 0x7FFFFFFF⟩] }])
      (fun t => mget 0 (t.core 0).prs.acc 194 == 0x7FFFFFFF)) = true := by decide +kernel

def tallied (o : TallyOutcome) : State := modPrs pready 0 fun p => { p with tallyQ := [⟨2, 5, 7, o⟩, ⟨3, 6, 7, .match_⟩] }

theorem test_tally : (after (.tallyDecide 0) (tallied .mismatch) (fun t => (t.core 0).prs.tallyCnt == 1 && (t.core 0).prs.infoRow == 5 &&
      (t.core 0).prs.tallyQ.length == 1 && t.logBuf.map (·.code) == [0x14]) &&
    after (.tallyDecide 0) (tallied .skip) (fun t => (t.core 0).prs.tallySkip == 1 && t.logBuf.isEmpty)) = true := by decide +kernel

theorem test_drain_done : after (.pdrainComplete 0) (pwith [{ pcmd 0 (.pdrain fp32Drain) with
      begun := true, writes := [(0x8000, [1, 2, 3, 4])], amax := [(1, 9)] }])
    (fun t => spBytes t 0 0x8000 5 == [1, 2, 3, 4, 0] && mget 0 (t.core 0).prs.amax 1 == 9 && (t.core 0).flights.isEmpty) = true := by
  decide +kernel

/-- Core 1 waits for a ramp; group 0's turn has come. -/
def ramping : State := { modPrs base 1 fun p => { p with want := true } with now := 1000 }

theorem test_w_ramp : wantsRamp ramping 1 = true ∧ wantsRamp ramping 0 = false ∧ arbiterFree ramping 0 = true ∧
    pacerFree ramping 0 = true ∧ (ramping.grp 0).lastK = 11 ∧ (ramping.field 0).paceRow = 7 ∧ wantsRamp base 1 = false := by decide +kernel

theorem test_ramp : (after (.rampGrant 1) ramping (fun t => (t.core 1).prs.pstate == .ramping && (t.grp 0).lastK == 1 &&
      (t.field 0).paceAt == some 1000) &&
    after (.rampGrant 0) ramping (fun t => t.cores == ramping.cores) &&
    after (.rampComplete 0) (modPrs base 0 fun p => { p with pstate := .ramping }) (fun t =>
      (t.core 0).prs.pstate == .active && (t.core 0).prs.rowsOn == 128)) = true := by decide +kernel

theorem test_fall : (after (.pressIdleCountExpire 0) pready (fun t => (t.core 0).prs.pstate == .falling) &&
    after (.pressIdleCountExpire 0) (modPrs pready 0 fun p => { p with ctrlIdle := 0 }) (fun t => (t.core 0).prs.pstate == .active) &&
    after (.pressFallComplete 0) (modPrs base 0 fun p => { p with pstate := .falling, rowsOn := 3 }) (fun t =>
      (t.core 0).prs.pstate == .idle && (t.core 0).prs.rowsOn == 0)) = true := by decide +kernel

/-! ### Registers, scratchpad errors and requests -/

theorem test_w_may_reach : MayReach ready .carafe 0 := by unfold MayReach; exact ⟨by decide, .inl rfl⟩

theorem test_csr : (after (.csrWrite .carafe (coreCsr 0 0x10) 4 0xABCD) ready (fun t => (t.core 0).ctl.gtag == 0xABCD) &&
    after (.csrWrite .carafe (coreCsr 0 0) 4 0xABCD) ready (fun t => t.cores == ready.cores) &&
    after (.csrWrite .carafe (coreCsr 0 0x1080) 4 3) (modPrs ready 0 fun p => { p with flags := 7 }) (fun t => (t.core 0).prs.flags == 4)) =
    true := by decide +kernel

theorem test_rc_read : (after (.rcRead .carafe (coreCsr 0 0x3010) 4) (modSpd ready 0 fun d => { d with eccCe := 9 }) (fun t =>
      (t.core 0).spd.eccCe == 0 && t.out == [.csrData .carafe (coreCsr 0 0x3010) 4 9]) &&
    after (.rcRead .carafe (coreCsr 0 0) 8) { ready with devId := 9 } (fun t => t.out == [.csrData .carafe (coreCsr 0 0) 8 0x100024000])) =
    true := by decide +kernel

/-- Partition 3 owns group 1 (cores 12 to 23); group 2 is switched off. -/
def twoParts : State := modGrp (modGrp ready 1 fun g => { g with part := some 3 }) 2 fun g => { g with off := true }

theorem test_csr_refused : (after (.csrWrite (.core 0) (coreCsr 12 0x10) 3 1) twoParts (fun t =>
      t.cores == twoParts.cores && t.cntDenied == 1 && t.out == [.csrError (.core 0) (coreCsr 12 0x10) 1]) &&
    after (.rcRead .carafe (coreCsr 24 0x10) 3) twoParts (fun t => t.cntUnmapped == 1 && t.out == [.csrError .carafe (coreCsr 24 0x10) 2]) &&
    after (.rcRead .carafe (coreCsr 0 0x12) 4) twoParts (fun t => t.cntSize == 1 && t.out == [.csrError .carafe (coreCsr 0 0x12) 3])) =
    true := by decide +kernel

theorem test_w_csr_refused : partOf twoParts 0 ≠ partOf twoParts 12 ∧ present twoParts 24 = false ∧ present twoParts 0 = true := by decide

theorem test_seed : (after (.vecSeedWrite .carafe 0 0x9E3779B9) ready (fun t => mget 0 (t.core 0).vec.gens 0 == 1 &&
      mget 0 (t.core 0).vec.gens 1 == 0x9E3779B9 ^^^ 0x3C6EF372) &&
    after (.vecSeedWrite .carafe 0 5) (modCore vdone 0 id) (fun t => (t.core 0).vec.seedPend == some 5)) = true := by decide +kernel

theorem test_spd_mode : (after (.spdModeWrite .carafe 0 1) (modCtl ready 0 fun k => { k with st := .halted }) (fun t =>
      (t.core 0).spd.near && !(t.core 0).spd.modeRej) &&
    after (.spdModeWrite .carafe 0 1) ready (fun t => !(t.core 0).spd.near && (t.core 0).spd.modeRej) &&
    after (.spdModeWrite .carafe 0 3) (modCtl ready 0 fun k => { k with st := .halted }) (fun t => (t.core 0).spd.modeRej)) = true := by
  decide +kernel

/-- A sampler of core 0 of 16 records at 0x20000. -/
def sampled (en : Bool) : State :=
  modSmp ready 0 fun m => { m with en := en, base := 0x20000, due := [List.replicate 32 7, List.replicate 32 8] }

theorem test_w_sampler : smpRefused (sampled false) 0 ((sampled false).core 0).cnt.smp = false ∧
    smpRefused (modSmp ready 0 fun m => { m with base := 0x1FFFE0 }) 0 { Sampler.reset with base := 0x1FFFE0 } = true := by decide +kernel

theorem test_sampler : (after (.smpCtrlWrite .carafe 0 0x01041) (sampled false) (fun t => (t.core 0).cnt.smp.en && (t.core 0).cnt.smp.event == 1) &&
    after (.smpCtrlWrite .carafe 0 0x01041) (modSmp ready 0 fun m => { m with base := 0x1FFFE0 }) (fun t =>
      !(t.core 0).cnt.smp.en && (t.core 0).cnt.smp.err) &&
    after (.smpCtrlWrite .carafe 0 0x40) (sampled true) (fun t => !(t.core 0).cnt.smp.en && (t.core 0).cnt.smp.due.length == 1)) = true := by
  decide +kernel

/-- Router block 0 of the shared counters has counted. -/
def counted : State := { ready with shared := [(0, { Shared.reset with totals := [(0, 5)], shadows := [(0, 5)] })] }

theorem test_w_shared : ∃ a, ctlAddr 0 = some a ∧ csrCheck counted .carafe a 4 true = .ok := by
  exact ⟨(ctlAddr 0).getD 0, by decide +kernel, by decide +kernel⟩

theorem test_shared_ctl : (after (.sharedCntCtlWrite .carafe 0 0x30003) counted (fun t => (t.blk 0).frz && (t.blk 0).shsel == 3 &&
      (t.blk 0).totals.isEmpty) &&
    after (.sharedCntCtlWrite .carafe 0 0x1F0000) counted (fun t => (t.blk 0).shsel == 31 && !(t.blk 0).frz && (t.blk 0).totals == [(0, 5)])) =
    true := by decide +kernel

theorem test_queue_regs : (after (.queBaseWrite .carafe 0 5 0x8000) ready (fun t => ((t.core 0).que.q 5).base == 0x200) &&
    after (.queDevWrite .carafe 0 5 0x00070003) ready (fun t => ((t.core 0).que.q 5).devhi == 7 && ((t.core 0).que.q 5).devlo == 3) &&
    after (.queCfgWrite .carafe 0 5 0x8000530F) ready (fun t => ((t.core 0).que.q 5).en && ((t.core 0).que.q 5).depth == 15 &&
      ((t.core 0).que.q 5).scope == 1 && ((t.core 0).que.q 5).evt) &&
    after (.queCfgWrite .carafe 0 5 0x80000F0F) (modQ ready 0 5 fun u => { u with base := 0x7FF0 }) (fun t =>
      !((t.core 0).que.q 5).en && ((t.core 0).que.q 5).cfgrej)) = true := by decide +kernel

theorem test_queue_locked : (after (.queBaseWrite .carafe 0 5 0x9000) held (fun t => ((t.core 0).que.q 5).cfgrej && ((t.core 0).que.q 5).base == 0x200) &&
    after (.queDevWrite .carafe 0 5 1) held (fun t => ((t.core 0).que.q 5).cfgrej && ((t.core 0).que.q 5).devlo == 0) &&
    after (.queCfgWrite .carafe 0 5 0x8000030E) held (fun t => ((t.core 0).que.q 5).cfgrej && ((t.core 0).que.q 5).depth == 15) &&
    after (.queCfgWrite .carafe 0 31 0x00000707) ready (fun t => ((t.core 0).que.q 31).cfgrej && ((t.core 0).que.q 31).en)) = true := by
  decide +kernel

/-- The word at 0x1000 of core 0 has been corrected, in a row that has had `n` errors; the word at 0x40 awaits correction. -/
def eccState (n : Nat) : State :=
  setSpMark { setSpMark ready 0 0x1000 (some .corrected) with rowErrs := [((spKey ready 0 0x1000) / 64, List.replicate n 0)] } 0 0x40 (some .correctable)

theorem test_ecc : (after (.scratchpadEccWriteback 0 0x1004) (eccState 7) (fun t => (spMark t 0 0x1000).isNone && t.survey.entries.isEmpty) &&
    after (.scratchpadEccWriteback 0 0x1004) (eccState 8) (fun t => (spMark t 0 0x1000).isNone && t.survey.entries.map (·.type_) == [3]) &&
    after (.scratchpadEccWriteback 0 0x2000) (eccState 8) (fun t => t.marks == (eccState 8).marks)) = true := by decide +kernel

theorem test_scrub : (after (.patrolScrubRow 0) (modSpd (eccState 0) 0 fun d => { d with scrubAt := spKey ready 0 0x40 / 64 }) (fun t =>
      spMark t 0 0x40 == some .corrected && spMark t 0 0x1000 == some .corrected) &&
    after (.patrolScrubRow 0) (modSpd ready 0 fun d => { d with scrubAt := 32767 }) (fun t => (t.core 0).spd.scrubAt == 0 && t.marks.isEmpty) &&
    after (.patrolScrubRow 0) (modSpd (eccState 0) 0 fun d => { d with scrubEn := false }) (fun t => t.marks == (eccState 0).marks)) = true := by
  decide +kernel

/-- Window 2 of core 0 covers 0x1000 to 0x10FF for devices 4 to 6, reads and writes, tag 0x99. -/
def windowed : State := { modSpd loaded 0 fun d => { d with wins := [(2, ⟨0x40, 3, true, 2, true, true, 6, 4, 0x99⟩)] } with devId := 9 }
def wreq (op : MemOp) (off sdev : Nat) : WinReq := ⟨op, off, 8, 0x99, sdev, 1⟩

theorem test_w_window : winPasses windowed 0 2 (wreq .read 0x1000 4) = true ∧ winPasses windowed 0 2 (wreq (.write [1, 2, 3, 4, 5, 6, 7, 8] []) 0x10F8 6) = true ∧
    (∀ i < 16, winPasses windowed 0 i (wreq .read 0x1000 7) = false) ∧ (∀ i < 16, winPasses windowed 0 i (wreq .read 0x10F9 4) = false) ∧
    Sound windowed 0 0x1000 8 ∧ Sound windowed 0 0x10F8 8 ∧ MemInv windowed := by unfold Sound MemInv; decide +kernel

theorem test_window : (after (.remoteRequestArrive 0 (wreq .read 0x1000 4) 3) windowed (fun t =>
      t.out == [.rdata 4 3 0 [0x81, 0x82, 0x83, 0x84, 0x85, 0x86, 0x87, 0x88] []]) &&
    after (.remoteRequestArrive 0 (wreq (.write [1, 2, 3, 4, 5, 6, 7, 8] []) 0x10F8 6) 3) windowed (fun t =>
      spBytes t 0 0x10F8 8 == [1, 2, 3, 4, 5, 6, 7, 8] && t.out == [.answer 6 3 0 []]) &&
    after (.remoteRequestArrive 0 (wreq .read 0x1000 7) 3) windowed (fun t => t.out == [.rdata 7 3 0x0C [] []] && (t.core 0).spd.winRefuse == 1 &&
      (t.core 0).spd.log.v) &&
    after (.remoteRequestArrive 24 (wreq .read 0x1000 4) 3) twoParts (fun t => t.out == [.rdata 4 3 2 [] []]) &&
    after (.remoteRequestArrive 0 (wreq .read 0x1000 4) 3) (modCore windowed 0 fun k => { k with crst := true }) (fun t =>
      t.out == [.rdata 4 3 6 [] []])) = true := by decide +kernel

theorem test_local : (after (.localRequestArrive 0 ⟨.read, 0x1000, 8, 11⟩) loaded (fun t =>
      t.out == [.memData (.core 11) 0x1000 0 [0x81, 0x82, 0x83, 0x84, 0x85, 0x86, 0x87, 0x88] []]) &&
    after (.localRequestArrive 0 ⟨.write [9, 8] [], 0x1FFFFE, 2, 11⟩) loaded (fun t => spBytes t 0 0x1FFFFE 2 == [9, 8]) &&
    after (.localRequestArrive 0 ⟨.read, 0x1000, 8, 12⟩) twoParts (fun t => t.out == [.memData (.core 12) 0x1000 3 [] []] && t.cntDenied == 1)) = true := by
  decide +kernel

/-! ### DMA engines -/

def dcopy : DmaDesc :=
  { ntf := false, endm := true, burst := 64, len := 96, src := 0x1000, dst := 12 * 2 ^ 21, rows := 2, msz := 2, spitch := 128, dpitch := 96,
    wtag := 0, pat := 0x0807060504030201, nq := 5, ndev := 0, ndata := 0x77 }
/-- A STREAM_IN of queue 5, and a STREAM_OUT of messages of 32 B to queue 6 of core 0. -/
def din : DmaDesc := { dcopy with src := 5, rows := 1, dst := 0x20000, spitch := 0, dpitch := 0 }
def dout : DmaDesc := { dcopy with src := 0x8000, rows := 1, dst := 6, spitch := 0, dpitch := 0 }

/-- The message of `held` without END. -/
def heldMore : State := modQ held 0 5 fun u => { u with msgs := u.msgs.map fun m => { m with info := { m.info with endm := false } } }

theorem test_w_dma : Issuable held 0 ⟨iss 7, .dma 1 .copy dcopy⟩ ∧ Issuable held 0 ⟨iss 7, .dma 1 .fill dcopy⟩ ∧
    Issuable held 0 ⟨iss 7, .dma 1 .streamIn din⟩ ∧ Issuable held 0 ⟨iss 7, .dma 1 .streamOut dout⟩ ∧ DmaIdle held 0 1 ∧
    inOwnSp 0 dout.src = true ∧ Sound held 0 0x8000 32 ∧ sendOf held (.dma 0 1) = none ∧ partOf held 0 = some 0 ∧
    ((heldMore.core 0).que.q 5).waiters = [] := by unfold Issuable DmaIdle Sound; decide +kernel

theorem test_dma_queue : (([.copy, .fill] : List DmaOp).all fun op => after (dmaInstr 0 1 (iss 7) dcopy op) held fun t =>
    (t.core 0).flights.map (·.body) == [.dma 1 op dcopy] && (t.core 0).sb.length == (if op = .copy then 1 else 0)) = true := by decide +kernel

theorem test_stream_in : (after (.streamIn 0 1 (iss 7) din) heldMore (fun t => ((t.core 0).eng 1).bound == some 5 &&
      ((t.core 0).que.q 5).msgs.isEmpty && ((t.core 0).eng 1).buf == spBytes held 0 0x8000 32) &&
    after (.streamIn 0 1 (iss 7) { din with src := 6 }) heldMore (fun t => ((t.core 0).eng 1).bound == some 6)) = true := by decide +kernel

theorem test_stream_out : after (.streamOut 0 1 (iss 7) dout) held (fun t =>
    sendOf t (.dma 0 1) == some (oneSend (spBytes held 0 0x8000 32) false (.local_ 0 6)) && (t.core 0).flights.map (·.begun) == [true]) = true := by
  decide +kernel

theorem test_dma_refused : after (.dmaCopy 0 1 (iss 7) { dcopy with burst := 8 }) held (faulted 0x0B) = true := by decide +kernel

/-- Engine 1 of core 0 has a descriptor under way. -/
def drun (op : DmaOp) (d : DmaDesc) (g : DmaEng) : State := modCore loaded 0 fun k => { k with
  flights := [{ newFlight 4 0 ⟨iss 7, .dma 1 op d⟩ with begun := true }], dma := [(1, g)], ctl := { k.ctl with tagCnt := [(7, 1)] } }
def burst0 : Burst := ⟨3, 8, 0x1000, 12 * 2 ^ 21, none, [], none⟩
def burstR : Burst := { burst0 with src := 0x8000000000000000 + 3 * 2 ^ 49 }

theorem test_w_burst : (curDma ((drun .copy dcopy DmaEng.reset).core 0) 1).isSome = true ∧
    ((drun .copy dcopy { DmaEng.reset with bursts := [burst0] }).core 0).eng 1 = { DmaEng.reset with bursts := [burst0] } ∧
    present loaded 12 = true ∧ partOf loaded 12 = some 0 ∧ Sound loaded 12 0 8 ∧ Sound loaded 0 0x1000 64 ∧
    isRemote burstR.src = true ∧ remoteDev burstR.src = 3 := by unfold Sound; decide +kernel

theorem test_burst_send : (after (.dmaBurstSend 0 1) (drun .copy dcopy DmaEng.reset) (fun t => match ((t.core 0).eng 1).bursts with
      | [b] => b.k == 0 && b.len == 64 && b.src == 0x1000 && b.data == some (spBytes loaded 0 0x1000 64) && ((t.core 0).eng 1).off == 64
      | _ => false) &&
    after (.dmaBurstSend 0 1) (drun .fill dcopy { DmaEng.reset with row := 1, off := 64 }) (fun t => match ((t.core 0).eng 1).bursts with
      | [b] => b.len == 32 && b.dst == 12 * 2 ^ 21 + 160 && (b.data.map fun x => x.take 9) == some [1, 2, 3, 4, 5, 6, 7, 8, 1] && ((t.core 0).eng 1).row == 2
      | _ => false) &&
    after (.dmaBurstSend 0 1) (drun .copy dcopy { DmaEng.reset with row := 2 }) (fun t => ((t.core 0).eng 1).bursts.isEmpty)) = true := by
  decide +kernel

theorem test_fill_arrive : (after (.dmaFillArrive 0 1 3 0 [] []) (drun .copy dcopy { DmaEng.reset with bursts := [burst0] }) (fun t =>
      spBytes t 12 0 9 == [0x81, 0x82, 0x83, 0x84, 0x85, 0x86, 0x87, 0x88, 0] && ((t.core 0).eng 1).bursts.map (·.status) == [some 0]) &&
    after (.dmaFillArrive 0 1 3 0 [1, 2, 3, 4, 5, 6, 7, 8] []) (drun .copy dcopy { DmaEng.reset with bursts := [burstR] }) (fun t =>
      spBytes t 12 0 9 == [1, 2, 3, 4, 5, 6, 7, 8, 0]) &&
    [(2, 4), (3, 5), (6, 8), (7, 9), (0x0C, 6)].all (fun p => after (.dmaFillArrive 0 1 3 p.1 [] [])
      (drun .copy dcopy { DmaEng.reset with bursts := [burstR] }) (fun t => ((t.core 0).eng 1).bursts.map (·.status) == [some p.2] &&
        spBytes t 12 0 8 == List.replicate 8 0))) = true := by decide +kernel

/-- All but the last burst of 192 B have been counted, and its outcome is known. -/
def dlast (ntf : Bool) (st : Nat) : State := drun .copy { dcopy with ntf := ntf }
  { DmaEng.reset with row := 2, done := 184, bursts := [{ burst0 with status := some st }] }

theorem test_w_burst_ack : NoStreamBehind (dlast true 0) 0 1 ∧ sendOf (dlast true 0) (.dma 0 1) = none ∧
    ((dlast true 0).core 0).eng 1 ≠ DmaEng.reset := by
  refine ⟨?_, by decide +kernel, by decide +kernel⟩
  have e : (engFlights ((dlast true 0).core 0) 3).tail = [] := by decide +kernel
  intro h hh
  rw [e] at hh
  cases hh

theorem test_burst_ack : (after (.dmaBurstAck 0 1 3 0) (dlast false 0) (fun t => (t.core 0).flights.isEmpty && ((t.core 0).eng 1).last == 0 &&
      ((t.core 0).eng 1).residue == 0 && tagCount (t.core 0).ctl 7 == 0) &&
    after (.dmaBurstAck 0 1 3 0) (dlast false 6) (fun t => (t.core 0).flights.isEmpty && ((t.core 0).eng 1).last == 6 &&
      ((t.core 0).eng 1).residue == 8 && (t.core 0).ctl.tagErr == 0x80) &&
    after (.dmaBurstAck 0 1 3 0) (dlast true 0) (fun t => ((t.core 0).eng 1).noting &&
      sendOf t (.dma 0 1) == some (oneSend (natBytes 8 0x77 ++ List.replicate 8 0) false (.local_ 0 5)))) = true := by decide +kernel

/-- The notification of a descriptor that has ended OK, or a STREAM_OUT's message, has been answered. -/
def dnoted (st : Nat) : State := { drun .copy { dcopy with ntf := true } { DmaEng.reset with row := 2, noting := true, endStatus := some 0 } with
  sends := [⟨.dma 0 1, { oneSend (List.replicate 16 0) false (.local_ 0 5) with members := [⟨.local_ 0 5, .answered st⟩] }⟩] }
def dstreamed (st off : Nat) : State := { drun .streamOut dout { DmaEng.reset with off := off } with
  sends := [⟨.dma 0 1, { oneSend (List.replicate 32 0) false (.local_ 0 6) with members := [⟨.local_ 0 6, .answered st⟩] }⟩] }

theorem test_notify_answer : after (.dmaNotifyAnswer 0 1 (.final 0)) (dnoted 3) (fun t => (t.core 0).flights.isEmpty &&
    ((t.core 0).eng 1).last == 0 && (sendOf t (.dma 0 1)).isNone) = true := by decide +kernel

theorem test_stream_out_answer : (after (.streamOutMessageAnswer 0 1 (.final 0)) (dstreamed 0 64) (fun t => (t.core 0).flights.isEmpty &&
      ((t.core 0).eng 1).last == 0 && (sendOf t (.dma 0 1)).isNone) &&
    [(2, 4), (3, 5), (4, 0xA), (5, 0xB), (6, 8), (7, 9)].all (fun p => after (.streamOutMessageAnswer 0 1 (.final 0)) (dstreamed p.1 0) (fun t =>
      (t.core 0).flights.isEmpty && ((t.core 0).eng 1).last == p.2 && (t.core 0).ctl.tagErr == 0x80)) &&
    after (.streamOutMessageAnswer 0 1 (.final 0)) (dstreamed 0 0) (fun t => ((t.core 0).eng 1).off == 32 &&
      sendOf t (.dma 0 1) == some (oneSend (spBytes loaded 0 0x8020 32) false (.local_ 0 6))) &&
    after (.streamOutMessageAnswer 0 1 (.final 0)) (dstreamed 0 32) (fun t =>
      sendOf t (.dma 0 1) == some (oneSend (spBytes loaded 0 0x8040 32) true (.local_ 0 6)))) = true := by decide +kernel

/-! ### Queues, event posts and channels -/

def sendD : SendDesc := { resv := true, endm := true, size := 1, src := 0x1000, dest := 5, res := 0x4000 }
def evpD : EvpostDesc := { resv := false, tgt := 12, mask := 6, res := 0 }
def mcD : McDesc := { resv := true, chan := 20, img := 0x3000, res := 0x4000 }
/-- Channel 20 names core 12 and core 0's queue 5; blocks of channels 32 and on belong to partition 3. -/
def chans : State := { qready with
  mchans := [(20, [5, 0, 0, 0] ++ [1, 0x10] ++ List.replicate 250 0)], chanOwner := [(2, some 3)] }
def qBusy : State := modCore chans 0 fun k => { k with flights := [{ newFlight 4 0 ⟨iss 7, .que (.send sendD)⟩ with begun := true }] }

theorem test_w_que : Issuable chans 0 ⟨iss 7, .que (.send sendD)⟩ ∧ Issuable chans 0 ⟨iss 7, .que (.evpost evpD)⟩ ∧
    Issuable chans 0 ⟨iss 7, .que (.mcset mcD)⟩ ∧ Issuable chans 0 ⟨iss 7, .que (.mcget { mcD with resv := false })⟩ ∧
    Issuable chans 0 ⟨iss 7, .que (.mcget { mcD with chan := 32 })⟩ ∧
    decodeDest (sendD.dest.setWidth 64) = some (.uni 5 0 false) ∧ decodeDest ((0x80000014 : W32).setWidth 64) = some (.mc 20) ∧
    mcMembers chans 20 = [.local_ 0 5, .local_ 12 5] ∧ chanOwner chans 20 = some 0 ∧ chanOwner chans 32 = some 3 ∧ MemInv chans ∧
    Sound chans 0 0x1000 16 ∧ Sound chans 0 0x3000 256 ∧ Sound chans 0 0x4000 16 ∧ sendOf chans (.que 0) = none := by
  unfold Issuable MemInv Sound; decide +kernel

theorem test_que_begin : (after (.send 0 (iss 7) sendD) chans (fun t => sendOf t (.que 0) == some (oneSend (spBytes qready 0 0x1000 16) true (.local_ 0 5)) &&
      (t.core 0).flights.map (·.begun) == [true]) &&
    after (.send 0 (iss 7) sendD) qBusy (fun t => (t.core 0).flights.map (·.begun) == [true, false]) &&
    after (.send 0 (iss 7) { sendD with dest := 0x80000014 }) chans (fun t => (sendOf t (.que 0)).map (fun f => (f.mc, f.chan, f.members)) ==
      some (true, 20, [⟨.local_ 0 5, .sent⟩, ⟨.local_ 12 5, .sent⟩])) &&
    after (.evpost 0 (iss 7) { evpD with tgt := 0x4003000C }) chans (fun t => leaves t == [(6, 3, 6 * 2 ^ 32 + 12, 0)]) &&
    after (.evpost 0 (iss 7) evpD) chans (fun t => t.out.isEmpty && (t.core 0).flights.map (·.begun) == [true])) = true := by decide +kernel

theorem test_channels : (after (.mcset 0 (iss 7) mcD) chans (fun t => (t.core 0).flights.map (·.begun) == [true] && t.mchans == chans.mchans) &&
    after (.mcget 0 (iss 7) { mcD with resv := false }) chans (fun t => spBytes t 0 0x3000 6 == [5, 0, 0, 0, 1, 0x10] && (t.core 0).flights.isEmpty) &&
    after (.mcget 0 (iss 7) { mcD with chan := 32 }) chans (fun t => spBytes t 0 0x4000 16 == queRecord 0 0 3 && (t.core 0).flights.isEmpty &&
      (t.core 0).ctl.tagErr == 0x80) &&
    after (.mcset 0 (iss 7) { mcD with chan := 32 }) chans (fun t => spBytes t 0 0x4000 16 == queRecord 0 0 3 && t.mchans == chans.mchans) &&
    after (.mcsetComplete 0) (modCore (spPuts chans 0 0x3000 [7, 1]) 0 fun k => { k with
        flights := [{ newFlight 4 0 ⟨iss 7, .que (.mcset { mcD with resv := false })⟩ with begun := true }] })
      (fun t => (mcImage t 20).take 5 == [7, 1, 0, 0, 0] && (t.core 0).flights.isEmpty)) = true := by decide +kernel

/-- A message of 32 B is on its way from core 3 to queue 5 of core 0, which is enabled with two entries of 64 B. -/
def arriveAt (u : Queue) : State := { modQ (readyReg 4 5) 0 5 (fun _ => u) with
  sends := [⟨.ctl 3, oneSend ((List.range 32).map (fun i => BitVec.ofNat 8 (i + 1))) true (.local_ 0 5)⟩] }
def twoSlots : Queue := { Queue.reset 5 with base := 0x200, en := true, esize := 3, depth := 1 }
def slot (i : Nat) : QEntry := ⟨i, 2, ⟨0, 9, 0, false, false, 0, false⟩⟩
def memberOf (s : State) (p : SendPath) : Option MsgSt := (sendOf s p).bind (fun f => f.members.head?.map (·.st))
/-- Core 0 is held at a QRECV of queue 5. -/
def recvHeld : State := modCtl (arriveAt twoSlots) 0 fun k => { k with blk := .qrecv 6 5 0x1000 }

theorem test_w_arrive : (sendOf (arriveAt twoSlots) (.ctl 3)).isSome = true ∧
    admits (arriveAt twoSlots) 0 twoSlots.scope 0 0 0 0 = true ∧ 0 < twoSlots.freeCount ∧ MemInv (arriveAt twoSlots) ∧
    Sound (arriveAt twoSlots) 0 (twoSlots.slotOff 0) 32 ∧ boundBy ((arriveAt twoSlots).core 0) 5 = none ∧
    { twoSlots with msgs := [slot 0, slot 1] }.freeCount = 0 ∧ waiterRecords ((arriveAt twoSlots).core 0).que < 64 ∧
    (∀ w ∈ wordsOf 0x1000 32, spMark recvHeld 0 w = none) := by unfold MemInv Sound; decide +kernel

theorem test_arrive : (after (.queueMessageArrive (.path (.ctl 3) 0)) (arriveAt { twoSlots with msgs := [slot 0], tail := 1 }) (fun t =>
      ((t.core 0).que.q 5).msgs.map (·.slot) == [0, 1] && spBytes t 0 0x8040 3 == [1, 2, 3] && memberOf t (.ctl 3) == some (.answered 0)) &&
    after (.queueMessageArrive (.path (.ctl 3) 0)) recvHeld (fun t => ((t.core 0).que.q 5).msgs.isEmpty && spBytes t 0 0x1000 3 == [1, 2, 3] &&
      rg t 0 6 == 3 * 2 ^ 30 + 2 * 2 ^ 8 + 3 && (t.core 0).ctl.pc == 0x104)) = true := by decide +kernel

theorem test_arrive_refused : (after (.queueMessageArrive (.path (.ctl 3) 0)) (arriveAt { twoSlots with scope := 2, devlo := 1, devhi := 4 }) (fun t =>
      memberOf t (.ctl 3) == some (.answered 3) && (t.core 0).que.refuse == 1) &&
    after (.queueMessageArrive (.path (.ctl 3) 0)) (arriveAt { twoSlots with en := false }) (fun t => memberOf t (.ctl 3) == some (.answered 4)) &&
    after (.queueMessageArrive (.path (.ctl 3) 0)) (arriveAt { twoSlots with esize := 0 }) (fun t => memberOf t (.ctl 3) == some (.answered 5)) &&
    after (.queueMessageArrive (.path (.ctl 3) 0)) (arriveAt { twoSlots with msgs := [slot 0, slot 1] }) (fun t =>
      memberOf t (.ctl 3) == some .waiting && ((t.core 0).que.q 5).waiters == [.path (.ctl 3) 0])) = true := by decide +kernel

/-- A message of device 4 for a queue that admits devices 4 to 6. -/
def fromDev (gid : Nat) : Instr := .queueMessageArrive (.ext ⟨gid, List.replicate 16 9, 4, 1, 8, false, 77, false⟩)
def openSlots : Queue := { twoSlots with scope := 2, devlo := 4, devhi := 6 }

theorem test_arrive_ext : (after (fromDev 5) (arriveAt openSlots) (fun t => ((t.core 0).que.q 5).msgs.length == 1 && t.out == [.answer 4 77 0 []]) &&
    after (fromDev 31) (arriveAt openSlots) (fun t => t.out == [.answer 4 77 3 []]) &&
    after (fromDev 5) (arriveAt twoSlots) (fun t => t.out == [.answer 4 77 3 []]) &&
    after (fromDev (24 * 32)) twoParts (fun t => t.out == [.answer 4 77 2 []]) &&
    after (fromDev 5) (modCore (arriveAt openSlots) 0 fun k => { k with crst := true }) (fun t => t.out == [.answer 4 77 6 []])) = true := by
  decide +kernel

/-- A message of core 0's QSEND or SEND has come this far. -/
def sentBy (p : SendPath) (mc : Bool) (ms : List Member) : State :=
  { modCore chans 0 (fun k => { k with
      ctl := { k.ctl with blk := if p = .ctl 0 then .qsend 6 none else .none, tagCnt := [(7, 1)] }
      flights := if p = .ctl 0 then [] else [{ newFlight 4 0 ⟨iss 7, .que (.send sendD)⟩ with begun := true }] }) with
    sends := [⟨p, { oneSend [1] false (.local_ 0 5) with mc := mc, chan := 20, members := ms }⟩] }

theorem test_answers : (after (.queueMessageAnswer (.ctl 0) (.final 9)) (sentBy (.ctl 0) false [⟨.local_ 0 5, .answered 3⟩]) (fun t =>
      rg t 0 6 == 3 && (t.core 0).ctl.pc == 0x104 && t.sends.isEmpty) &&
    after (.queueMessageAnswer (.ctl 0) (.final 9)) (sentBy (.ctl 0) false [⟨.local_ 0 5, .sent⟩]) (fun t => t.sends.length == 1) &&
    after (.queueMessageAnswer (.que 0) (.final 9)) (sentBy (.que 0) false [⟨.local_ 0 5, .answered 5⟩]) (fun t =>
      spBytes t 0 0x4000 16 == queRecord 0 0 5 && (t.core 0).flights.isEmpty && (t.core 0).ctl.tagErr == 0x80 && t.sends.isEmpty)) = true := by
  decide +kernel

theorem test_credit : (after (.queueGrantArrive (.path (.ctl 0) 0) 0) (modQ (sentBy (.ctl 0) false [⟨.local_ 0 5, .waiting⟩]) 0 5 fun u =>
        { u with reserved := [(0, .path (.ctl 0) 0)] }) (fun t => memberOf t (.ctl 0) == some .granted) &&
    after (.queueGrantArrive (.path (.ctl 0) 0) 0) (sentBy (.ctl 0) false [⟨.local_ 0 5, .waiting⟩]) (fun t => memberOf t (.ctl 0) == some .waiting) &&
    after (.waiterRetryTimer (.ctl 0) 0) (sentBy (.ctl 0) false [⟨.local_ 0 5, .unrecorded⟩]) (fun t => memberOf t (.ctl 0) == some .sent)) = true := by
  decide +kernel

theorem test_multicast : (after (.mcastMemberAnswer (.que 0) 1 (.final 9)) (sentBy (.que 0) true [⟨.local_ 0 5, .final 0⟩, ⟨.local_ 12 5, .answered 3⟩]) (fun t =>
      spBytes t 0 0x4000 16 == queRecord 1 12 1 && (t.core 0).flights.isEmpty && t.sends.isEmpty) &&
    after (.mcastMemberAnswer (.que 0) 1 (.final 9)) (sentBy (.que 0) true [⟨.local_ 0 5, .final 0⟩, ⟨.local_ 12 5, .answered 0⟩]) (fun t =>
      spBytes t 0 0x4000 16 == queRecord 0 0 0) &&
    after (.mcastMemberAnswer (.que 0) 1 (.final 9)) (sentBy (.que 0) true [⟨.local_ 0 5, .sent⟩, ⟨.local_ 12 5, .answered 3⟩]) (fun t =>
      (t.sends.map (fun f => f.send.members.map (·.st))) == [[.sent, .final 3]])) = true := by decide +kernel

/-- An EVPOST of core 0 to core 12 is under way. -/
def posting (f : Flight → Flight) : State := modCore chans 0 fun k => { k with
  ctl := { k.ctl with tagCnt := [(7, 1)] }, flights := [f { newFlight 4 0 ⟨iss 7, .que (.evpost evpD)⟩ with begun := true }] }

theorem test_evpost : (after (.evpostArrive (.core 0)) (posting id) (fun t => (t.core 12).que.flags == 0x600000000 &&
      (t.core 0).flights.map (fun f => (f.status, f.result)) == [(0, 1)]) &&
    after (.evpostArrive (.core 0)) (modQue (posting id) 12 fun q => { q with evtScope := 2 }) (fun t => (t.core 12).que.flags == 0 &&
      (t.core 12).que.refuse == 1 && (t.core 0).flights.map (fun f => f.status) == [3]) &&
    after (.evpostAnswer 0 0) (posting fun f => { f with status := 3, result := 1 }) (fun t => (t.core 0).flights.isEmpty && (t.core 0).ctl.tagErr == 0x80) &&
    after (.evpostArrive (.ext 12 6 9 0 77)) chans (fun t => (t.core 12).que.flags == 0x600000000 && t.out == [.answer 9 77 0 []])) = true := by
  decide +kernel

/-- Channel 20 takes copies from devices 4 to 6. -/
def forwards : State := { chans with mchans := [(20, [5, 2, 0, 0, 1, 0x10] ++ List.replicate 142 0 ++ [4, 0, 6, 0] ++ List.replicate 104 0)] }

theorem test_forward : (after (.mcfwdArrive ⟨20, [1], 4, 1, 8, false, 1, 77⟩) forwards (fun t =>
      (sendOf t (.fwd 4 77)).map (fun f => f.members) == some [⟨.local_ 0 5, .sent⟩, ⟨.local_ 12 5, .sent⟩]) &&
    after (.mcfwdArrive ⟨20, [1], 7, 1, 8, false, 1, 77⟩) forwards (fun t => t.out == [.answer 7 77 3 []])) = true := by decide +kernel

/-! ### Locks and atomics -/

def lockD : LockDesc :=
  { w64 := true, eve := true, resv := true, evf := 33, lock := 100, ldev := 0, addr := 0x1000, opnd := 3, cmpv := 0x8887868584838281, wtag := 0, res := 0x4000 }

def lkBusy : State := modCore loaded 0 fun k => { k with flights := [{ newFlight 4 0 ⟨iss 7, .lock .acq lockD⟩ with begun := true }] }

theorem test_w_lock : (lockTable.all fun p => decide (engRefuse loaded 0 (.lock p.2 lockD) = none) && !engStalls loaded 0 ⟨iss 7, .lock p.2 lockD⟩ &&
    decide (engRefuse lkBusy 0 (.lock p.2 { lockD with resv := false }) = none) && !engStalls lkBusy 0 ⟨iss 7, .lock p.2 { lockD with resv := false }⟩) = true := by
  decide +kernel

theorem test_lock_begin : (lockTable.all fun p => after (p.1 0 (iss 7) lockD) loaded (fun t => (t.core 0).flights.map (·.begun) == [true] && t.out.isEmpty) &&
    after (p.1 0 (iss 7) lockD) lkBusy (fun t => (t.core 0).flights.map (·.begun) == [true, false]) &&
    after (p.1 0 (iss 7) { lockD with lock := 3072 }) loaded (faulted 0x0B)) = true := by decide +kernel

theorem test_lock_remote : (after (.lockAcq 0 (iss 7) { lockD with ldev := 0x8003 }) loaded (fun t => leaves t == [(7, 3, 100, 1)]) &&
    after (.aadd 0 (iss 7) { lockD with addr := 0x8000000000000040 + 3 * 2 ^ 49 }) loaded (fun t =>
      leaves t == [(3, 3, 0x40, 0x10)])) = true := by decide +kernel

def who (c : Nat) : LockWho := ⟨4, c, 0⟩
def lreq (k : LockKind) (c : Nat) : LockReq := ⟨k, 4, c, 0, false⟩
def lockS (l : Lock) : State := { base with locks := [(100, l)] }
def lk (k : LockKind) (c : Nat) (l : Lock) (st : Nat) (l' : Lock) : Bool :=
  after (.lockRequestArrive 100 ⟨false, [lreq k c]⟩) (lockS l) fun t => t.lock 100 == l' && (st == 99 && t.out.isEmpty || t.out.map (fun o => match o with
    | .answer d c s _ => (d, c, s) | _ => (0, 0, 0)) == [(4, c, st)])

theorem test_w_lock_request : lockReqReal base 100 (lreq .acq 1) = true ∧ lockAdmits base 100 (lreq .acq 1) = true ∧
    lockAdmits base 100 { lreq .acq 1 with part := 3 } = false := by decide +kernel

theorem test_lock_acquire : (lk .acq 1 ⟨.free, []⟩ 0 ⟨.held (who 1), []⟩ && lk .try_ 1 ⟨.abandoned, []⟩ 8 ⟨.held (who 1), []⟩ &&
    lk .acq 1 ⟨.held (who 2), []⟩ 99 ⟨.held (who 2), [who 1]⟩ && lk .try_ 1 ⟨.held (who 2), []⟩ 9 ⟨.held (who 2), []⟩ &&
    lk .acq 1 ⟨.held (who 1), []⟩ 0x0D ⟨.held (who 1), []⟩) = true := by decide +kernel

theorem test_lock_release : (lk .rel 1 ⟨.held (who 1), []⟩ 0 ⟨.free, []⟩ && lk .rel 1 ⟨.held (who 2), []⟩ 0x0A ⟨.held (who 2), []⟩ &&
    lk .notice 1 ⟨.held (who 1), [who 1]⟩ 99 ⟨.abandoned, []⟩ &&
    after (.lockRequestArrive 100 ⟨false, [lreq .rel 1]⟩) (lockS ⟨.held (who 1), [who 2, who 3]⟩) (fun t => t.lock 100 == ⟨.held (who 2), [who 3]⟩ && t.out.length == 2) &&
    after (.lockRequestArrive 100 ⟨false, [{ lreq .acq 1 with part := 3 }]⟩) (lockS ⟨.free, []⟩) (fun t => t.lock 100 == ⟨.free, []⟩ && t.out.length == 1)) = true := by
  decide +kernel

/-- An atomic of core 0 on the word at 0x1000 is under way; its old value is 0x8887868584838281. -/
def atom (op : LockOp) (d : LockDesc) : State := modCore loaded 0 fun k => { k with
  ctl := { k.ctl with tagCnt := [(7, 1)] }, flights := [{ newFlight 4 0 ⟨iss 7, .lock op d⟩ with begun := true }] }

theorem test_w_atomic : MemInv loaded ∧ (curLock (atom .add lockD) 0).isSome = true ∧ isRemote lockD.addr = false ∧ Sound loaded 0 0x1000 8 ∧
    present loaded 0 = true ∧ partOf loaded 0 = some 0 ∧ isHbm 0x010000000000 = true ∧ isCsr 0x020000000000 = true := by
  unfold MemInv Sound; decide +kernel

theorem test_atomics : (atomicTable.map fun p => match exec (.atomicArrive (.core 0)) (atom p.1 lockD) with
      | .next t => (leNat (spBytes t 0 0x1000 8), t.lockReplies.map (·.val)) | _ => (0, [])) =
    [(0x8887868584838284, [0x8887868584838281]), (0x8887868584838281, [0x8887868584838281]), (3, [0x8887868584838281]),
     (3, [0x8887868584838281]), (0x8887868584838281, [0x8887868584838281]), (3, [0x8887868584838281]), (3, [0x8887868584838281])] := by decide +kernel

theorem test_atomics_ext : (atomicTable.all fun p =>
    after (.atomicArrive (.ext 0 (wreq (.atomic p.1 true 3 9) 0x1000 4) 77)) windowed (fun t =>
      leNat (spBytes t 0 0x1000 8) == (p.2 64 0x8887868584838281 3 9).toNat && t.out == [.answer 4 77 0 (spBytes loaded 0 0x1000 8)]) &&
    after (.atomicArrive (.ext 0 { wreq (.atomic p.1 false 3 9) 0x1004 4 with size := 4 } 77)) windowed (fun t =>
      leNat (spBytes t 0 0x1004 4) == (p.2 32 0x88878685 3 9).toNat && spBytes t 0 0x1000 4 == spBytes loaded 0 0x1000 4)) = true := by decide +kernel

theorem test_atomic_denied : after (.atomicArrive (.core 0)) (atom .add { lockD with addr := 0x020000000000 }) (fun t =>
    t.cntDenied == 1 && t.lockReplies == [⟨0, 3, 0⟩] && t.mem == loaded.mem) = true := by decide +kernel

theorem test_lock_reply : (after (.lockReplyArrive 0 0 0) { atom .acq lockD with lockReplies := [⟨0, 8, 0x40000000⟩] } (fun t =>
      spBytes t 0 0x4000 16 == natBytes 8 0x40000000 ++ [8] ++ List.replicate 7 0 && (t.core 0).flights.isEmpty &&
      (t.core 0).que.flags == 0x200000000 && (t.core 0).ctl.tagErr == 0x80) &&
    after (.atomicReplyArrive 0 0 0) { atom .add { lockD with resv := false, eve := false } with lockReplies := [⟨0, 0, 5⟩] } (fun t =>
      t.mem == loaded.mem && (t.core 0).que.flags == 0 && (t.core 0).ctl.tagErr == 0)) = true := by decide +kernel

/-! ### The mesh and the seams -/

/-- Fields 0 and 1 have their FN domains ON. -/
def mready : State := { base with pwr := { base.pwr with doms := [(96, .on), (97, .on), (116, .on)] } }
def pkt (dest : MeshDest) (vc1 : Bool) : Packet := ⟨1, .readReq, 0, 0, vc1, .local_, dest, 0, none, false, 0⟩

/-- Core 103 is in column 7 of row 0 of field 1: tile (20, 0). -/
theorem test_w_route : destTile mready (.core 103) = some (20, 0, .local_) ∧ routerTile 0 14 = (1, 1) ∧
    badEntry mready 2 8 8 = false ∧ ovlOf mready 0 14 (pkt (.core 103) false) 20 0 = none ∧ routerDead mready 0 14 = false ∧
    domOf mready 96 = .on ∧ destTile mready (.core 1200) = none ∧ crossingAt 0 12 .east = some (0, 0) := by decide +kernel

theorem test_route : (hopOf mready 0 14 (pkt (.core 103) false) == .go .east false false && hopOf mready 0 14 (pkt (.core 103) true) == .go .north true false &&
    hopOf mready 1 7 (pkt (.core 103) true) == .go .local_ true false && hopOf mready 0 0 (pkt (.edge 0 0) false) == .go .south false false &&
    hopOf mready 0 13 (pkt (.edge 0 0) false) == .go .edge false false) = true := by decide +kernel

/-- Overlay entry 2 of router 14 sends packets of plane A for tiles (0..38, 0..31) south, on VC1. -/
def ovl : State := modMsh mready 0 fun m => { m with ovl := [(16 * 14 + 2, (0x80000000 + 38 * 2 ^ 16 + 31 * 2 ^ 6, 0x1B))] }

theorem test_overlay : (hopOf ovl 0 14 (pkt (.core 103) false) == .go .south true true &&
    hopOf { ovl with badEntries := [⟨1, 8, 16 * 14 + 2⟩] } 0 14 (pkt (.core 103) false) == .unmapped) = true := by decide +kernel

theorem test_packet_route : (after (.packetRoute 0 14 [pkt (.core 103) false] []) mready (fun t =>
      t.out == [.mesh 14 .east false (pkt (.core 103) false)]) &&
    after (.packetRoute 0 14 [pkt (.core 1200) false] []) mready (fun t => t.out == [.meshRefuse 14 2 (pkt (.core 1200) false)]) &&
    after (.packetRoute 0 12 [pkt (.core 103) false] []) (modSeam mready 0 0 fun k => { k with deadA := true }) (fun t => t.out.isEmpty)) = true := by
  decide +kernel

theorem test_weight : after (.weightPropagate 3) { mready with cfg := mset [] (objKey 0x40 0x20 3) (.num 99) } (fun t =>
    (List.range 12).all fun n => mget 16 (t.field n).msh.weights 3 == 99 && mget 16 (t.field n).msh.weights 2 == 16) = true := by decide +kernel

theorem test_deliver : (after (.meshPacketDeliver (pkt (.core 103) false)) mready (fun t => t.out == [.mesh 111 .local_ false (pkt (.core 103) false)]) &&
    after (.meshPacketDeliver (pkt (.core 103) false)) (modCore mready 103 fun k => { k with crst := true }) (fun t =>
      t.out == [.meshRefuse 111 6 (pkt (.core 103) false)] && (t.field 1).msh.dropRst == 1 && (t.field 1).msh.dropLog.v) &&
    after (.meshPacketDeliver (pkt (.edge 1 0) false)) mready (fun t => t.out.length == 1 && (t.field 0).msh.dropRst == 1) &&
    after (.meshPacketDeliver { pkt (.core 103) false with abort := true }) mready (fun t => t.out.isEmpty)) = true := by decide +kernel

theorem test_seam : (after (.seamResendBurst 0 3 0 1 5 7 16) mready (fun t => (t.field 0).msh.seamRetry == 16 && (t.seam 0 3).due.isEmpty) &&
    after (.seamResendBurst 0 3 0 1 5 7 17) mready (fun t => (t.field 0).msh.seamRetry == 17 && (t.seam 0 3).due == [(22, 7)])) = true := by
  decide +kernel

/-- Crossing 3 of seam 0 is marked dead in the route tables and has drained. -/
def quiet : State := modSeam mready 0 3 fun k => { k with quiet := true }

theorem test_w_quiesced : (quiet.seam 0 3).quiet = true ∧ (quiet.seam 0 3).due = [] ∧
    mget Steer.reset (quiet.seam 0 3).steer (wireKey 0 1 5) = Steer.reset := by decide

theorem test_quiesced : (after (.crossingQuiesced 0 3 [⟨0, 1, 5, [7], false, false⟩]) quiet (fun t =>
      mget Steer.reset (t.seam 0 3).steer 22 == ⟨7, 0x3F⟩ && !(t.seam 0 3).quiet && t.survey.entries.map (·.type_) == [4]) &&
    after (.crossingQuiesced 0 3 [⟨0, 1, 5, [7, 9, 40], false, false⟩]) quiet (fun t => mget Steer.reset (t.seam 0 3).steer 22 == ⟨7, 9⟩) &&
    after (.crossingQuiesced 0 3 [⟨0, 1, 5, [7, 9], true, false⟩]) quiet (fun t => (t.seam 0 3).deadA && !(t.seam 0 3).deadB &&
      t.survey.entries.map (·.type_) == [5]) &&
    after (.crossingQuiesced 0 3 [⟨0, 1, 5, [7], false, false⟩]) mready (fun t => t.seams == mready.seams)) = true := by decide +kernel

theorem test_service_wire : (after (.serviceWireDisagree 1 0 ⟨2, 6⟩ 1) mready (fun t => t.dev == .ready && (t.field 1).msh.seamRetry == 1 && t.logBuf.map (·.detail) == [[0, 2, 6]]) &&
    after (.serviceWireDisagree 1 0 ⟨2, 6⟩ 2) mready (fun t => t.dev == .faulted && (t.part 15).hDevice)) = true := by decide +kernel

theorem test_w_router_fail : (mready.grp 4).rdead = 0 ∧ (mready.grp 4).lost = false ∧ (mready.grp 4).skip = 12 ∧ (mready.grp 4).remap = none ∧
    routerDead mready 0 45 = false := by decide +kernel

/-! ### Device links -/

/-- Port 7 (link die 1, port 2) with settings. -/
def portS (f : Port → Port) : State := modPort { base with devId := 9 } 7 f
def trained : TrainResult := ⟨true, 0, 0, true, true⟩
def st7 (t : State) : PortState := (t.port 7).st

theorem test_training : (after (.portTrainingDone 7 trained) (portS fun k => { k with st := .training }) (fun t => st7 t == .gate) &&
    after (.portTrainingDone 7 { trained with locked := false }) (portS fun k => { k with st := .training }) (fun t => st7 t == .down) &&
    after (.portTrainingDone 7 { trained with failed := 4 }) (portS fun k => { k with st := .training }) (fun t => st7 t == .gate && (t.port 7).lsteer == 4 &&
      (mget LinkDie.reset t.links.dies 1).spares == [(0, 2)] && t.survey.entries.map (·.loc) == [padTo 12 [1, 10]]) &&
    after (.portTrainingDone 7 { trained with failed := 4, steerable := false }) (portS fun k => { k with st := .training }) (fun t => st7 t == .excluded) &&
    after (.portTrainingDone 7 { trained with failed := 4 }) (modLinks (portS fun k => { k with st := .training }) fun l =>
      { l with dies := [(1, { LinkDie.reset with spares := [(0, 0), (1, 3)] })] }) (fun t => st7 t == .excluded)) = true := by decide +kernel

theorem test_gate : (after (.berGateEnd 7 [(1, 100000), (0, 5)]) (portS fun k => { k with st := .gate, eth := true }) (fun t => st7 t == .admitted) &&
    after (.berGateEnd 7 [(1, 100000)]) (portS fun k => { k with st := .gate }) (fun t => st7 t == .gate && (t.port 7).gated &&
      t.out == [.trainFrame 7 (bareFrame 4 0) ⟨3, 9, 7, [1088, 1088, 1088, 1088], true, false⟩]) &&
    after (.berGateEnd 7 [(0, 5), (1, 99999)]) { portS (fun k => { k with st := .gate }) with wake := { base.wake with start := some ⟨false, 0, 2⟩ } } (fun t =>
      st7 t == .excluded && t.survey.entries.map (·.type_) == [9])) = true := by decide +kernel

def tbody : TrainBody := ⟨3, 4, 12, [10, 20, 30, 40], true, false⟩
def gated : Port → Port := fun k => { k with st := .gate, gated := true }

theorem test_train : (after (.trainFrame 7 ⟨(bareFrame 4 0), tbody⟩) (portS gated) (fun t => st7 t == .admitted && (t.port 7).ver == 2 && (t.port 7).pport == 12 &&
      ((t.port 7).vc 2).txCred == 30) &&
    after (.trainFrame 7 ⟨(bareFrame 4 0), { tbody with vmask := 4 }⟩) (portS gated) (fun t => st7 t == .gate && t.out.length == 1) &&
    after (.trainFrame 7 ⟨(bareFrame 4 0), { tbody with dev := 9 }⟩) (portS gated) (fun t => st7 t == .training) &&
    after (.trainFrame 7 ⟨(bareFrame 4 0), { tbody with vmask := 1 }⟩) { portS (fun k => { gated k with bv := true, bundle := 3 }) with
      cfg := mset [] (objKey 0x50 0x0201 3) (.num 1) } (fun t => st7 t == .gate)) = true := by decide +kernel

def up : Port → Port := fun k => { k with st := .admitted, ver := 2 }

theorem test_windows : (after (.berWindowEnd 7 1 9999 100) (portS fun k => { up k with badWin := 1 }) (fun t => st7 t == .admitted && (t.port 7).badWin == 2) &&
    after (.berWindowEnd 7 1 9999 0) (portS fun k => { up k with badWin := 2 }) (fun t => st7 t == .resetting) &&
    after (.berWindowEnd 7 1 10000 0) (portS fun k => { up k with badWin := 2 }) (fun t => st7 t == .admitted && (t.port 7).badWin == 0) &&
    after (.berWindowEnd 7 0 1 101) (portS fun k => { up k with resets := [0, 5] }) (fun t => st7 t == .excluded)) = true := by decide +kernel

theorem test_port_falls : (after (.portSignalLoss 7) (portS up) (fun t => st7 t == .down) &&
    after (.portSignalLoss 7) (portS fun k => { k with st := .excluded }) (fun t => st7 t == .excluded) &&
    after (.portRetrainTimer 7) { portS (fun k => { k with st := .down, lsteer := 4 }) with pwr := { base.pwr with doms := [(109, .on)] } } (fun t =>
      st7 t == .training && (t.port 7).lsteer == 0) &&
    after (.portRetrainTimer 7) (portS fun k => { k with st := .down }) (fun t => st7 t == .disabled) &&
    after (.cmisPoll 1 [none, none, some ⟨true, true, true, []⟩]) (portS up) (fun t => st7 t == .down && (t.port 7).module == some ⟨true, true, true, []⟩)) = true := by
  decide +kernel

/-- A packet of device 4 for device 9, and a frame of it with SEQ 0 that acknowledges nothing. -/
def lpkt : LinkPkt := ⟨6, false, false, false, 0, 2, 9, 4, 0, 0, 8, 77, 0, 0, 0, 0, 0, 0, 8, [], []⟩
def lframe : Frame := ⟨1, false, false, 1, 1, 0, 0xFFFF, 5, 2, [.header lpkt], true, true, 0, 0, false, 0⟩

theorem test_w_frame : FrameOk (portS up) 7 lframe ∧ FrameOk (portS up) 7 { lframe with type_ := 5, flits := [], nflit := 0 } ∧
    ((portS up).port 7 |>.vc 1).rx = .none ∧ knownOpc lpkt.opc = true ∧ srcAdmits (portS up) 7 4 = true := by unfold FrameOk; decide +kernel

theorem test_frames : (after (.dataFrame 7 lframe) (portS up) (fun t => (t.port 7).rxSeq == 1 && t.out.contains (.linkPkt 7 { lpkt with vc1 := true })) &&
    after (.dataFrame 7 { lframe with seq := 3 }) (portS up) (fun t => (t.port 7).rxSeq == 0 && (t.port 7).nakOut && t.out.length == 1) &&
    after (.dataFrame 7 { lframe with crcOk := false }) (portS fun k => { up k with nakOut := true }) (fun t => t.out.isEmpty) &&
    after (.idleFrame 7 { lframe with type_ := 0, flits := [], nflit := 0 }) (portS up) (fun t => ((t.port 7).vc 2).txCred == 5 && t.out.isEmpty)) = true := by
  decide +kernel

/-- Frames 0 and 1 are not acknowledged. -/
def unacked : State := portS fun k => { up k with txSeq := 2, unacked := [⟨lframe, []⟩, ⟨{ lframe with seq := 1 }, []⟩] }

theorem test_replay : (after (.nakFrame 7 { lframe with type_ := 2, flits := [], nflit := 0, ack := 0, cause := 1, seqc := 1 }) unacked (fun t =>
      (t.port 7).unacked.length == 1 && t.out == [.frame 7 { lframe with seq := 1 }] && (t.port 7).lastNak == some (1, 1)) &&
    after (.replayTimeout 7) unacked (fun t => t.out.length == 2 && (t.port 7).replay == 1 && (t.port 7).unacked.length == 2)) = true := by decide +kernel

theorem test_beacons : (after (.beaconSend 7) (portS up) (fun t => match t.out with
      | [.beacon 7 f b] => b.dev == 9 && f.type_ == 3 && f.cred == 0
      | _ => false) &&
    after (.beaconFrame 7 ⟨{ lframe with type_ := 3, flits := [], nflit := 0 }, ⟨100, 40, 60, 4, 3, 0⟩⟩) { portS up with fields := (List.range 12).map fun n => (n, { Field.reset with echo := 90 }) } (fun t =>
      t.ech.upPort == some 7 && t.ech.dist == 4 && t.ech.pend == 15 && ((t.port 7).vc 2).txCred == 5)) = true := by
  decide +kernel

theorem test_keys : (after (.keyFrame 7 { lframe with type_ := 5, flits := [], nflit := 0, keyid := true }) (portS fun k => { up k with keyWant := some true }) (fun t =>
      (t.port 7).keyid && (t.port 7).keyWant.isNone && t.out.isEmpty) &&
    after (.keyFrame 7 { lframe with type_ := 5, flits := [], nflit := 0, keyid := true }) (modLinks (portS up) fun l => { l with keys := [(1, ⟨[1], [2]⟩)] }) (fun t =>
      (t.port 7).keyid && t.out.length == 1)) = true := by decide +kernel

/-- Device 5's route entry has KIND 2, device 6's names bundle 1, which has no port. -/
def routed : State := modLinks { base with devId := 9 } fun l => { l with rt0 := [(5, 0xC0000000), (6, 0x81000000)] }
def transit (d : Nat) : LinkPkt := { lpkt with ddev := d }

theorem test_w_routed : rtEntry routed.links 1 0 5 = 0xC0000000 ∧ badEntry routed 0 1 5 = false ∧ bundlePorts routed 1 = [] := by decide +kernel

theorem test_link_route : (after (.linkPacketRoute ⟨1, 2⟩ false (transit 5)) routed (fun t => t.out == [.inbound 1 { transit 5 with hops := 3 }]) &&
    after (.linkPacketRoute ⟨1, 2⟩ false (transit 6)) routed (fun t => t.out == [.answer 4 77 7 []]) &&
    after (.linkPacketRoute ⟨1, 2⟩ false (transit 7)) routed (fun t => t.out == [.answer 4 77 2 []]) &&
    after (.linkPacketRoute ⟨1, 2⟩ false { transit 5 with hops := 31 }) routed (fun t => t.out == [.answer 4 77 7 []] && t.links.cntHop == 1) &&
    after (.linkPacketRoute ⟨1, 2⟩ false { transit 5 with epoch := 255 }) routed (fun t => t.out == [.answer 4 77 7 []])) = true := by decide +kernel

/-- Port 7 of a device 9 that knows itself. -/
def upHere : State := modLinks (portS up) fun l => { l with rt0 := [(9, 0xC0000000)] }

theorem test_stall : after (.stallTimeout 7 1) (modVc upHere 7 1 fun c => { c with rx := .pkt { lpkt with len := 3 } 2, rxUsed := 2 }) (fun t =>
    t.out == [.answer 4 77 7 []] && (t.port 7).stall == 1 && ((t.port 7).vc 1).rx == .skip false && ((t.port 7).vc 1).credRet == 2) = true := by decide +kernel

theorem test_remote_timeout : (after (.remoteTimeout (.evpost 0)) (modCore chans 0 fun k => { k with ctl := { k.ctl with tagCnt := [(7, 1)] }, flights := [{ newFlight 4 0 ⟨iss 7, .que (.evpost { evpD with tgt := 0x4003000C })⟩ with begun := true }] })
      (fun t => (t.core 0).flights.isEmpty && (t.core 0).ctl.tagErr == 0x80) &&
    after (.remoteTimeout (.lock 0)) (atom .acq { lockD with ldev := 0x8003 }) (fun t => (t.core 0).flights.isEmpty &&
      spBytes t 0 0x4000 16 == natBytes 8 0 ++ [7] ++ List.replicate 7 0)) = true := by decide +kernel

theorem test_epoch : (after .epochSwitch (modLinks base fun l => { l with advancing := true, epoch := 255 }) (fun t => t.links.epoch == 0 && t.links.prev) &&
    after .epochHoldExpire (modLinks base fun l => { l with prev := true }) (fun t => !t.links.prev)) = true := by decide +kernel

/-! ### Ethernet connections -/

/-- The acknowledgements, NAKs and CNPs that have left: bundle, peer, type, PSN, APSN, MFRAC. -/
def ctls (t : State) : List (Nat × Nat × Nat × Nat × Nat × Nat) :=
  t.out.filterMap fun o => match o with
    | .ethCtl h => some (h.bundle, h.peer, h.type_, h.psn, h.apsn, h.mfrac)
    | _ => none

def ethS (f : Conn → Conn) : State := modConn (portS fun k => { k with st := .admitted, eth := true, bv := true, bundle := 2 }) 2 4 f
def epkt (psn : Nat) : EthPkt := ⟨psn, 0xFFFFFF, lpkt, true, 128, false⟩

theorem test_eth_data : (after (.ethDataPacket 7 2 4 (epkt 0xFFFFFF)) (ethS fun c => { c with rxPsn := 0xFFFFFF, toAck := 15 }) (fun t =>
      (t.conn 2 4).rxPsn == 0 && t.out.head? == some (.linkPkt 7 lpkt) && ctls t == [(2, 4, 1, 0, 0xFFFFFF, 0)] && (t.conn 2 4).ceBytes == 128) &&
    after (.ethDataPacket 7 2 4 (epkt 5)) (ethS id) (fun t => (t.conn 2 4).nakOut && ctls t == [(2, 4, 2, 0, 0xFFFFFF, 0)])) = true := by decide +kernel

def waits (r : Nat) : State := ethS fun c => { c with resends := r, unacked := [(0xFFFFFF, lpkt), (0, { lpkt with rtag := 78 })] }

theorem test_eth_acks : (after (.ethAck 2 4 0xFFFFFF) (waits 3) (fun t => (t.conn 2 4).unacked.map (·.1) == [0] && (t.conn 2 4).resends == 0) &&
    after (.ethAck 2 4 1) (waits 3) (fun t => (t.conn 2 4).unacked.length == 2) &&
    after (.ethNak 2 4 0xFFFFFF) (waits 3) (fun t => t.out.length == 2 && (t.conn 2 4).resends == 4) &&
    after (.ethRto 2 4) (waits 7) (fun t => (t.conn 2 4).dead && t.out == [.answer 4 77 7 [], .answer 4 78 7 []]) &&
    after (.ethAckTimer 2 4) (ethS fun c => { c with toAck := 1, rxPsn := 0 }) (fun t => ctls t == [(2, 4, 1, 0, 0xFFFFFF, 0)])) = true := by decide +kernel

theorem test_eth_rates : (after (.cnp 2 4 256) (ethS id) (fun t => (t.conn 2 4).rate == 400 && (t.conn 2 4).cutAt == some 0) &&
    after (.cnp 2 4 256) { ethS (fun c => { c with cutAt := some 0 }) with now := 19999 } (fun t => (t.conn 2 4).rate == 800 && (t.conn 2 4).ignored == 1) &&
    after (.cnpIntervalEnd 2 4) (ethS fun c => { c with ceBytes := 1, rxBytes := 3 }) (fun t => ctls t == [(2, 4, 3, 0, 0xFFFFFF, 86)]) &&
    after (.rateIncreaseTimer 2 4) (ethS fun c => { c with rate := 100, step := 8, raises := 3 }) (fun t => (t.conn 2 4).rate == 108 && (t.conn 2 4).step == 16)) = true := by
  decide +kernel

theorem test_neighbour : after (.neighbourSolicitation 2 (List.replicate 16 7)) { base with
    cfg := mset [] (objKey 0x50 0x0204 2) (.blob (List.replicate 16 7 ++ [1, 2, 3, 4, 5, 6] ++ List.replicate 6 0)) }
  (fun t => t.out == [.net 18 0 (List.replicate 16 7 ++ [1, 2, 3, 4, 5, 6])]) = true := by decide +kernel

/-! ### Stacked memory -/

/-- Stack 0 is READY. -/
def stackS (f : Stack → Stack) : State := modStack { base with pwr := { base.pwr with doms := [(116, .on)] } } 0 fun k => f { k with st := .ready }
def hA : Nat := 0x010000000000
def hread : HbmReq := ⟨.core 0, hA + 0x100, none, 4, false, false, false⟩
def hwrite : HbmReq := { hread with write := some [1, 2, 3, 4] }
def hmemS (f : Stack → Stack) : State := hbmPuts (stackS f) (hA + 0x100) [9, 8, 7, 6]

theorem test_w_hbm : (hbmCheck (stackS id) (reqOwner (stackS id) (.core 0)) (hA + 0x100) 4 = .ok ∧ HbmSound (stackS id) (hA + 0x100) 4 ∧
    MemInv (stackS id) ∧ (hbmLoc (stackS id) (hA + 0x100)).1 = 0) ∧
    hbmCheck (stackS id) (some 1) (hA + 0x100) 4 = .denied ∧ hbmCheck base (some 0) (hA + 0x100) 4 = .destReset ∧ hbmCheck (stackS fun k => { k with retired := [0] }) (some 0) (hA + 0x100) 4 = .unmapped ∧
    hbmCheck (stackS id) (some 0) 0xC000000000 4 = .unmapped := by unfold HbmSound MemInv; decide +kernel

theorem test_hbm : (after (.hbmRequest hread) (hmemS id) (fun t => t.out == [.memData (.core 0) (hA + 0x100) 0 [9, 8, 7, 6] []]) &&
    after (.hbmRequest hwrite) (hmemS id) (fun t => (List.range 6).map (fun i => hbmByte t (hA + 0x100 + i)) == [1, 2, 3, 4, 0, 0] && memWf t.mem) &&
    after (.hbmRequest { hwrite with req := .dev 4 1 8 }) (hmemS id) (fun t => hbmByte t (hA + 0x100) == 9 && t.cntDenied == 1 &&
      t.out == [.memData (.dev 4 1 8) (hA + 0x100) 3 [] []]) &&
    after (.hbmRequest hread) (stackS fun k => { k with retired := [0] }) (fun t => t.cntUnmapped == 1 && (t.stack 0).refuse == 1) &&
    after (.hbmRequest { hwrite with poison := true }) (hmemS id) (fun t => mfind t.marks (hbmKey 0 0x100) == some .poisoned)) = true := by decide +kernel

theorem test_hbm_tokens : (after (.hbmRequest hread) (hmemS fun k => { k with tokens := 3 }) (fun t => (t.stack 0).waiting == [⟨hread, none⟩] && t.out.isEmpty) &&
    after (.hbmRateTokens 0) (hmemS fun k => { k with tokens := 3, waiting := [⟨hread, none⟩] }) (fun t => (t.stack 0).waiting.length == 1 && t.out.isEmpty) &&
    after (.hbmRateTokens 0) (hmemS fun k => { k with tokens := 4, waiting := [⟨hread, none⟩] }) (fun t => (t.stack 0).waiting.isEmpty && (t.stack 0).tokens == 0 &&
      t.out == [.memData (.core 0) (hA + 0x100) 0 [9, 8, 7, 6] []])) = true := by decide +kernel

def marked (m : Mark) : State := { stackS (fun k => { k with scrubAt := 0x105 }) with marks := [(hbmKey 0 0x100, m)] }

theorem test_hbm_scrub : (after (.hbmScrubWord 0) (stackS id) (fun t => (t.stack 0).scrubAt == 64) &&
    after (.hbmScrubWord 0) (stackS fun k => { k with scrubAt := 0xC00000000 - 64 }) (fun t => (t.stack 0).scrubAt == 0) &&
    after (.hbmScrubWord 0) (marked .correctable) (fun t => (t.stack 0).ce == 1 && t.marks == [(hbmKey 0 0x100, .corrected)]) &&
    after (.hbmScrubWord 0) (marked .poisoned) (fun t => (t.stack 0).ue == 1 && (t.stack 0).infoV) &&
    after (.hbmEccWriteback 0 4) (marked .corrected) (fun t => t.marks.isEmpty) &&
    after (.hbmEccWriteback 0 4) (marked .correctable) (fun t => t.marks.length == 1)) = true := by decide +kernel

theorem test_temp : (after (.hbmTempRead 0 84) (stackS id) (fun t => !(t.stack 0).hot && (t.stack 0).temp == 84) &&
    after (.hbmTempRead 0 85) (stackS id) (fun t => (t.stack 0).hot && (t.stack 0).rate == 0x800) &&
    after (.hbmTempRead 0 80) (stackS fun k => { k with hot := true }) (fun t => (t.stack 0).hot) &&
    after (.hbmTempRead 0 79) (stackS fun k => { k with hot := true }) (fun t => !(t.stack 0).hot) &&
    after (.hbmTempRead 0 95) (stackS fun k => { k with rate := 400 }) (fun t => (t.stack 0).throttled && (t.stack 0).rate == 256) &&
    after (.hbmRecalibrate 0 3) (stackS id) (fun t => (t.stack 0).st == .ready) &&
    after (.hbmChannelFail 0 3) (stackS fun k => { k with waiting := [⟨hread, none⟩] }) (fun t => (t.stack 0).st == .retired && domOf t 116 == .off &&
      t.out.head? == some (.memData (.core 0) (hA + 0x100) 6 [] []) && t.survey.entries.map (·.type_) == [7])) = true := by decide +kernel

/-! ### Host ports and launch -/

/-- Host die 0's link is up; ring 1 of function 1 (VF0) is enabled, with 16 entries, its tail at 3 and its head at 2;
vectors 1 and 4 of the function are not masked. -/
def ring1 : Ring := { Ring.reset with en := true, sqtail := 3, sqhead := 2, cqhi := 5, cqlo := 6, cqtail := 15 }
def hostS (g : Ring → Ring) : State :=
  modRing (modFn (modHost (hmemS id) 0 fun d => { d with up := true }) 0 1 fun k => { k with msix := [(7, 0), (19, 0)], master := true }) 0 1 1 fun _ => g ring1
def bar0 (f : Nat) : State := modFn (modHost (hmemS id) 0 fun d => { d with up := true }) 0 f id

theorem test_w_bar : barInReset (hostS id) 1 = false ∧ barAddr (hostS id) 0 1 0x100 = some (hA + 0x100) ∧ hbmCheck (hostS id) none (hA + 0x100) 4 = .ok ∧
    barAddr (hostS id) 0 1 0xC000000000 = none ∧ barInReset (modPart (hostS id) 0 fun p => { p with resetting := true }) 1 = true ∧
    barAddr (modFn (hostS id) 0 0 fun k => { k with gib := 2 }) 0 0 0x100 = some (hA + 0x80000100) := by decide +kernel

theorem test_bar : (after (.bar2Read 0 1 0x100 ⟨4, false⟩) (hostS id) (fun t => t.out == [.hostData 0 1 0x100 true false [9, 8, 7, 6]]) &&
    after (.bar2Write 0 1 0x100 [5] false) (hostS id) (fun t => hbmByte t (hA + 0x100) == 5 && hbmByte t (hA + 0x101) == 8) &&
    after (.bar2Read 0 1 0xC000000000 ⟨4, false⟩) (hostS id) (fun t => t.out == [.hostData 0 1 0xC000000000 false false []]) &&
    after (.bar2Read 0 1 0x100 ⟨2, false⟩) (modPart (hostS id) 0 fun p => { p with resetting := true }) (fun t =>
      t.out == [.hostData 0 1 0x100 true false [255, 255]] && ((t.host 0).fn 1).drop == 1)) = true := by decide +kernel

theorem test_rings : (after (.sqtailWrite 0 1 1 0x1000F) (hostS id) (fun t => ringOf t 0 1 1 == { ring1 with sqtail := 15 }) &&
    after (.sqtailWrite 0 1 1 16) (hostS id) (fun t => ringOf t 0 1 1 == { ring1 with err := true, cause := 1 } && t.out == [.msix 0 1 4]) &&
    after (.ringCtrlWrite 0 1 1 0x80000005) (hostS fun g => { g with en := false }) (fun t => let g := ringOf t 0 1 1
      g.en && g.log2sz == 5 && g.sqtail == 0 && g.sqhead == 0 && g.phase && !g.err) &&
    after (.ringCtrlWrite 0 1 1 0x80000005) (hostS id) (fun t => ringOf t 0 1 1 == ring1) &&
    after (.ringBaseWrite 0 1 1 .cqbaseLo 0xABCDEFFF) (hostS fun g => { g with en := false }) (fun t => (ringOf t 0 1 1).cqlo == 0xABCDE) &&
    after (.ringBaseWrite 0 1 1 .sqbase 7) (hostS id) (fun t => ringOf t 0 1 1 == ring1)) = true := by decide +kernel

/-- The record of slot 2: OP 1, CFIRST 3, LID 0x55, one core. -/
def rec2 (op : Byte) : State := hbmPuts (hostS id) (hA + 256) ([op, 0, 3, 0, 0x55, 0, 0, 0, 0, 0, 0, 0, 1, 0] ++ List.replicate 114 0)

theorem test_w_fetch : nextRing (rec2 1) 0 = some 5 ∧ viewAddr (rec2 1) 1 256 = some (hA + 256) ∧
    recordStatus (rec2 1) 0 ((List.range 128).map (fun i => hbmByte (rec2 1) (hA + 256 + i))) = none ∧
    recordStatus (rec2 9) 0 ((List.range 128).map (fun i => hbmByte (rec2 9) (hA + 256 + i))) = some 2 := by decide +kernel

theorem test_fetch : (after (.launchFetch 0) (rec2 1) (fun t => t.launches.map (fun l => (l.h, l.f, l.r, l.seq, l.lid, l.cfirst, l.ccount)) == [(0, 1, 1, 2, 0x55, 3, 1)] &&
      (ringOf t 0 1 1).sqhead == 3 && (ringOf t 0 1 1).out == 1 && (sendOf t (.fn 0 1)).map (·.members) == some [⟨.local_ 3 31, .sent⟩]) &&
    after (.launchFetch 0) (rec2 9) (fun t => t.launches.isEmpty && (ringOf t 0 1 1).cqtail == 0 && (ringOf t 0 1 1).sqhead == 3 &&
      (match t.out with
        | [.hostWrite 0 1 a d, .msix 0 1 1] => a == 5 * 2 ^ 32 + 6 * 4096 + 480 && d.take 16 == [2, 3, 2, 0, 0x55, 0, 0, 0, 0, 0, 255, 7, 0, 0, 0, 0]
        | _ => false))) = true := by decide +kernel

def lnch (n : Nat) : Launch :=
  { h := 0, f := 1, r := 1, seq := 2, order := 0, fence := false, wait := false, lid := 0x55, part := 0, cfirst := 3, ccount := n, msg := [],
    next := 2, sending := false, ended := [], gone := [], fcore := 0x7FF, fcode := 0, posted := false }
def reported (n : Nat) (x : LaunchRep) : State := { hostS id with launches := [lnch n], reports := [⟨3, 9, 2, x⟩] }

theorem test_report : (after (.launchTargetReport 0 3) (reported 2 .ended) (fun t => t.out.isEmpty && t.launches == [{ lnch 2 with ended := [3] }]) &&
    after (.launchTargetReport 0 3) (reported 1 .ended) (fun t => t.launches.isEmpty && t.out.length == 2) &&
    after (.launchTargetReport 0 3) (reported 2 (.faulted 7)) (fun t => match t.out with
      | .hostWrite 0 1 _ d :: _ => d.take 13 == [1, 3, 2, 0, 0x55, 0, 0, 0, 0, 0, 3, 0, 7]
      | _ => false)) = true := by decide +kernel

theorem test_vectors : (after (.msixCoalesceTimer 0 1 1) (hostS fun g => { g with unsig := 2 }) (fun t => t.out == [.msix 0 1 1]) &&
    after (.msixCoalesceTimer 0 1 1) (hostS id) (fun t => t.out.isEmpty) &&
    after (.completionWriteError 0 1 1) (hostS id) (fun t => t.out == [.msix 0 1 4] && (ringOf t 0 1 1).cause == 3 && ((t.host 0).fn 1).drop == 1)) = true := by
  decide +kernel

theorem test_host_resets : (after (.vfFlr 0 3) (hostS id) (fun t => !(t.part 3).resetting) &&
    after (.perstAssert 0 true) (hostS id) (fun t => t.host 0 == { HostDie.reset with perst := true }) &&
    after (.perstRelease 0) (modHost base 0 fun d => { d with perst := true }) (fun t => !(t.host 0).perst) &&
    after (.hostLinkUp 0 6 16 true) (modPwr base fun p => { p with doms := [(132, .on)] }) (fun t => (t.host 0).up && (t.host 0).width == 16) &&
    after (.hostLinkUp 0 6 16 true) base (fun t => !(t.host 0).up)) = true := by decide +kernel

/-- Partition 0 owns group 0 alone. -/
def oneGroup (s : State) : State := { s with groups := (List.range 95).map (fun g => (g + 1, { Group.reset with part := none })) }

theorem test_vf : after (.vfFlr 0 0) (oneGroup (hostS id)) (fun t => (t.host 0).fn 1 == HostFn.reset && (t.part 0).resetting) = true := by decide +kernel

theorem test_pf : after (.pfFlr 0) (hostS id) (fun t => !(ringOf t 0 1 1).en && t.dev == .waking && t.wake.compute) = true := by decide +kernel

/-! ### Clocks -/

/-- Fields 0 and 1 are on, and it is 1,000,000 ns. -/
def clkS : State := { modPwr base fun p => { p with doms := [(96, .on), (97, .on)] } with echoM := 1000000 }
def chg (t : Nat) (b : Bool) : ClkChange := ⟨t, [(1, 80)], b⟩
def clkC (c : ClkChange) (f : Field → Field) : State := { modField clkS 1 f with clk := { Clk.reset with armed := some c } }

theorem test_w_arm : (fieldOn clkS 1 = true ∧ [0, 80].getD 1 0 = 80 ∧ clkS.echoM.toNat + 50000 ≤ 1050000 ∧ clkS.clk.notBefore ≤ clkS.echoM.toNat ∧
    clkS.clk.armed = none) ∧ ((clkC (chg 0 true) id).clk.armed).isSome = true := by decide +kernel

theorem test_arm : (after (.clkChangeArm 1050000 2 [0, 80]) clkS (fun t => t.clk.armed == some (chg 1050000 false) && (t.field 1).idleStep == some 80 &&
      (t.field 1).step == 0 && (t.field 0).idleStep == none) &&
    after (.clkChangeArm 1049999 2 [0, 80]) clkS (fun t => t.clk.armed == none) &&
    after (.clkChangeArm 1050000 2 [0, 80]) (clkC (chg 0 true) id) (fun t => t.clk.held == [chg 1050000 false])) = true := by decide +kernel

def idle80 : Field → Field := fun k => { k with idleStep := some 80, step := 10 }

theorem test_pll : (after (.pllLock 1) (clkC (chg 9 false) idle80) (fun t => (t.field 1).lk1 && !(t.field 1).lk0) &&
    after (.pllLockLoss 1) (clkC (chg 9 false) fun k => { idle80 k with lk1 := true }) (fun t => !(t.field 1).lk1) &&
    after (.vcoreLower 1) (clkC (chg 9 false) idle80) (fun t => (t.field 1).step == 10) &&
    after .clkReadyCheck (clkC (chg 9 false) fun k => { idle80 k with lk1 := true }) (fun t => t.clk.armed == some (chg 9 true)) &&
    after .clkReadyCheck (clkC (chg 9 false) idle80) (fun t => t.clk.armed == none && t.clk.cancel && t.clk.cancels == 1 && t.clk.notBefore == 1050000)) = true := by
  decide +kernel

theorem test_switch : (after .clkSwitch (clkC (chg 1000000 true) fun k => { idle80 k with lk1 := true }) (fun t => (t.field 1).step == 80 && (t.field 1).pll1 &&
      t.clk.changes == 1 && t.clk.armed == none) &&
    after .clkSwitch (clkC (chg 1000000 true) idle80) (fun t => (t.field 1).step == 10 && (t.field 1).miss && t.clk.misses == 1 &&
      t.clk.armed == some (chg 1060000 false)) &&
    after .clkSwitch (clkC (chg 1000001 true) idle80) (fun t => t.clk.changes == 0)) = true := by decide +kernel

/-! ### Echo -/

def src (n : Nat) : State := { clkS with cfg := mset [] (objKey 0x20 0x0011 0) (.num n) }
def src3 (l : Nat) (w : Option Nat) : State := modEch (src 3) fun e => { e with lastPps := some l, ppsTime := w, ppsBad := 2, src := 3, st := 2 }
def aSec : State := { src3 0 (some 1000000000) with echoM := 1000000040 }

theorem test_beacon : (after .echoBeacon clkS (fun t => (t.field 1).echo == 1000000 && (t.field 2).beacons == 0) &&
    after .echoBeacon (modField clkS 1 fun k => { k with beacons := 1, echo := 1000007, ehold := true }) (fun t => (t.field 1).adj == -7 &&
      (t.field 1).echo == 1000007 && !(t.field 1).ehold) &&
    after (.echoDelayMeasure 1 0x10005) clkS (fun t => (t.field 1).dly == 5) &&
    after (.echoBeaconLoss 1) clkS (fun t => (t.field 1).ehold)) = true := by decide +kernel

theorem test_discipline : (after (.echoDiscipline 1000000) (src 2) (fun t => t.echoM == 1000000 && t.ech.slew == 1000000 && t.ech.st == 2) &&
    after (.echoDiscipline 1000001) (src 2) (fun t => t.echoM == 2000001 && t.ech.steps == 1 && (t.field 11).echo == 1000001) &&
    after (.echoDiscipline (-1000001)) (src 2) (fun t => t.echoM == 1000000 && t.ech.back && t.ech.st == 3) &&
    after .echoSourceLoss (src 2) (fun t => t.ech.st == 3)) = true := by decide +kernel

theorem test_w_sources : cfgNum (src 2) 0x20 0x0011 0 1 = 2 ∧ cfgNum (src 2) 0x20 0x0016 0 0 = 0 ∧ cfgNum (src3 0 none) 0x20 0x0011 0 1 = 3 ∧
    (src3 5 none).ech.lastPps = some 5 ∧ aSec.ech.ppsTime = some 1000000000 ∧ cfgNum clkS 0x20 0x0011 0 1 = 1 := by decide +kernel

theorem test_sources : (after (.ptpMessage 0 0 33) (src 2) (fun t => t.ech.pend == 33 && t.ech.src == 2) &&
    after (.ptpMessage 1 0 33) (src 2) (fun t => t.ech.pend == 0) &&
    after .ppsEdge (src3 0 none) (fun t => t.ech.ppsIgnored == 1 && t.ech.ppsBad == 3 && t.ech.st == 3) &&
    after .ppsEdge aSec (fun t => t.ech.lastPps == some 1000000000 && t.ech.slew == -40 && t.ech.ppsBad == 0 && t.ech.st == 2) &&
    after (.echoRefChange true) clkS (fun t => t.ech.refPresent)) = true := by decide +kernel

/-! ### Inputs, temperatures and fans -/

def powered : State := modPwr base fun p => { p with vin := true, volt := 48000, doms := [(134, .on), (135, .on)] }

theorem test_vin : (after (.vinLowWarning 39000) powered (fun t => t.pwr.volt == 39000 && t.dev == .ready) &&
    after (.vinFault 38999) powered (fun t => !t.pwr.vin && t.dev == .standby && t.mem.isEmpty && (t.core 0).ctl.st == .idle) &&
    after (.vinFault 61001) (modPwr powered fun p => { p with vstby := false }) (fun t => t.dev == .off) &&
    after (.vinFault 0) { powered with dev := .held } (fun t => t.dev == .held) &&
    after (.vinArrive 48000) State.reset (fun t => t.pwr.vin && t.dev == .standby) &&
    after (.vinArrive 38999) State.reset (fun t => !t.pwr.vin) &&
    after (.vinArrive 48000) { State.reset with now := 5, wake := { Wake.reset with lostStart := some 1, failedStarts := 2 } } (fun t => t.dev == .held &&
      t.wake.failedStarts == 3)) = true := by decide +kernel

theorem test_standby : (after .autostart { powered with dev := .standby } (fun t => t.dev == .waking && t.stage == 1) &&
    after .autostart { powered with dev := .standby, wake := { Wake.reset with thermal := true } } (fun t => t.dev == .standby) &&
    after .vstbyLoss powered (fun t => !t.pwr.vstby && t.dev == .ready) &&
    after .vstbyLoss State.reset (fun t => t.dev == .off) &&
    after .vstbyArrive { State.reset with dev := .off } (fun t => t.dev == .standby && t.pwr.vstby)) = true := by decide +kernel

theorem test_samples : (after (.bladeCurrentSample 8001 100) powered (fun t => t.pwr.bladeOver && t.logBuf.map (·.code) == [0x2003]) &&
    after (.bladeCurrentSample 8000 8000) powered (fun t => !t.pwr.bladeOver) &&
    after (.bladeCurrentSample 7600 7600) (modPwr powered fun p => { p with bladeOver := true }) (fun t => !t.pwr.bladeOver) &&
    after (.bladeCurrentSample 7601 7600) (modPwr powered fun p => { p with bladeOver := true }) (fun t => t.pwr.bladeOver) &&
    after (.tempSample [95] [40]) powered (fun t => t.pwr.warnAge == 0 && t.pwr.temps == [95] && t.pwr.otherTemps == [40]) &&
    after (.tempSample [94] []) (modPwr powered fun p => { p with warnAge := 7 }) (fun t => t.pwr.warnAge == 8) &&
    after .thermalTrip powered (fun t => t.wake.thermal && t.dev == .standby && t.mem.isEmpty)) = true := by decide +kernel

/-- FAN channel 1 in a state. -/
def fan (st retry : Nat) : State := modAux powered 1 fun a => { a with st := st, retry := retry, vset := 0x64, ofVstby := decide (st = 2) }

theorem test_w_fan : (fan 1 0).auxCh 1 = { Aux.reset 1 with st := 1, vset := 0x64 } ∧ auxWanted (fan 3 2) 1 = true ∧ ((fan 2 0).auxCh 1).ofVstby = true := by
  decide +kernel

theorem test_fans : (after (.fanStartCheck 1 90) (fan 1 2) (fun t => (t.auxCh 1).st == 2 && (t.auxCh 1).retry == 0) &&
    after (.fanStartCheck 1 89) (fan 1 2) (fun t => (t.auxCh 1).st == 3 && (t.auxCh 1).cause == 3) &&
    after (.auxTrip 1) (fan 2 3) (fun t => (t.auxCh 1).latch && (t.auxCh 1).cause == 1 && t.logBuf.map (·.code) == [0x2201]) &&
    after (.auxTrip 1) (fan 2 2) (fun t => !(t.auxCh 1).latch) &&
    after (.auxOverloadTrip 1) (fan 2 0) (fun t => (t.auxCh 1).cause == 2) &&
    after (.auxRetry 1) (fan 3 2) (fun t => (t.auxCh 1).st == 1 && (t.auxCh 1).retry == 3) &&
    after .auxStandbyTrip (fan 2 0) (fun t => (t.auxCh 1).st == 3 && (t.auxCh 1).cause == 4 && (t.auxCh 2).st == 0) &&
    after (.fanStall 1 0x20000) (fan 2 0) (fun t => (t.auxCh 1).tach == 0xFFFF)) = true := by decide +kernel

/-! ### Joints and domains -/

theorem test_joints : (after (.jointSample (.phase 1 2) true) (modPwr powered fun p => { p with joints := [(14, 59)] }) (fun t =>
      t.pwr.suspects == [⟨.phase 1 2, false, 0⟩] && mget 0 t.pwr.joints 14 == 60) &&
    after (.jointSample (.phase 1 2) true) (modPwr powered fun p => { p with joints := [(14, 58)] }) (fun t => t.pwr.suspects.isEmpty) &&
    after (.jointSample (.phase 1 2) false) (modPwr powered fun p => { p with joints := [(14, 59)] }) (fun t => mget 0 t.pwr.joints 14 == 0)) = true := by
  decide +kernel

def suspected : State := modPwr powered fun p => { p with suspects := [⟨.phase 1 2, false, 0⟩] }

theorem test_w_joint : jointOk (.phase 1 2) = true ∧ (suspected.field 1).live.testBit 2 = true ∧ livePhases suspected 1 = 12 ∧
    (⟨.phase 1 2, false, 0⟩ : Suspect) ∈ suspected.pwr.suspects := by decide +kernel

theorem test_phases : (after (.jointTest (.phase 1 2) true) suspected (fun t => (t.field 1).live == 0xFFB && t.survey.entries.map (fun e => (e.type_, e.loc.take 2)) == [(6, [1, 2])]) &&
    after (.jointTest (.phase 1 2) false) suspected (fun t => t.pwr.suspects.length == 1) &&
    after (.jointSuspectExpire (.phase 1 2)) suspected (fun t => t.pwr.suspects.isEmpty) &&
    after (.phaseTrip 1 2) powered (fun t => (t.field 1).live == 0xFFB && (t.field 0).live == 0xFFF)) = true := by decide +kernel

/-- Group 9 (field 1) and stack 0 are on, with a byte in stack 0 and one in stack 1. -/
def domS : State := { hmemS id with
  pwr := { base.pwr with doms := [(9, .on), (97, .on), (116, .on)] },
  mem := [(hA + 0x100, 9), (hA + 0xC00000000, 7)] }

theorem test_w_domains : domOf domS 9 = .on ∧ (domS.grp 9).lost = false ∧ (domS.stack 0).st = .ready ∧ memWf domS.mem = true := by decide +kernel

theorem test_domains : (after (.domainTrip 9) domS (fun t => domOf t 9 == .tripped && (t.grp 9).lost && (t.grp 9).off && t.survey.entries.map (·.type_) == [7]) &&
    after (.domainTrip 116) domS (fun t => domOf t 116 == .tripped && (t.stack 0).st == .off && t.mem == [(hA + 0xC00000000, 7)]) &&
    after (.stageTrip (.stage 1)) domS (fun t => domOf t 9 == .tripped && domOf t 97 == .on)) = true := by decide +kernel

def moving (x : DomSt) : State := modPwr (modField domS 1 fun k => { k with powerUp := [9, 10, 11] }) fun p => { p with trans := [(9, x)] }

theorem test_moves : (after (.cgPowerupWave 1) (moving .on) (fun t => (t.field 1).powerUp == [11] && mfind t.pwr.trans 10 == some .on) &&
    after (.domainTransitionDone 9) (moving .on) (fun t => domOf t 9 == .on && !(t.grp 9).off && !(t.core 108).crst) &&
    after (.domainTransitionDone 9) (moving .off) (fun t => domOf t 9 == .off && (t.grp 9).off) &&
    after (.domainTransitionDone 9) (moving .retention) (fun t => domOf t 9 == .retention) &&
    after (.domainTransitionDone 116) (modStack domS 0 fun k => { k with st := .training }) (fun t => (t.stack 0).st == .ready)) = true := by decide +kernel

/-! ### The governor -/

/-- Field 1 runs at STEP 20 under a limit of 1,000 W. -/
def gov (watts : List Nat) : State := modPwr (modField clkS 1 fun k => { k with target := 20, step := 20 }) fun p =>
  { p with limit := 1000, power := watts }

theorem test_brake : (after (.powerSample 1051 5 []) (modWake (gov []) fun w => { w with mgmt := true }) (fun t => t.pwr.brake && (t.field 1).target == 0 && (t.stack 3).rate == 256 &&
      t.clk.armed == some ⟨1050000, [(0, 0), (1, 0)], false⟩) &&
    after (.powerSample 1050 5 []) (modWake (gov []) fun w => { w with mgmt := true }) (fun t => !t.pwr.brake && t.pwr.power == [1050] && t.pwr.auxPower == 5) &&
    after .brakeRelease (modPwr (gov []) fun p => { p with brake := true }) (fun t => !t.pwr.brake)) = true := by decide +kernel

/-- The nominal STEP is 64 or 32 (R375), whichever the profile. -/
theorem test_nominal : 20 < Config.nominalStep := by unfold Config.nominalStep; cases Config.profileIsL <;> decide

theorem test_w_governor : fieldOn (gov [1100]) 1 = true ∧ (gov [1100]).pwr.brake = false ∧ cfgNum (gov [1100]) 0x10 0x0007 0 0 ≠ 1 ∧
    limitNow (gov [1100]) < avg10 (gov [1100]) ∧ stepWanted (gov [1100]) 1 = 20 ∧ 97 * limitNow (gov [980]) < 100 * avg10 (gov [980]) ∧
    avg10 (gov [980]) ≤ limitNow (gov [980]) ∧ 100 * avg10 (gov [970]) ≤ 97 * limitNow (gov [970]) ∧ (∀ i < 16, ((gov [970]).stack i).st ≠ .ready) := by
  decide +kernel

/-- Device 9 manages lending group 3; device 4 is a member. -/
def lending (mgr : Nat) : State := { gov [] with
  devId := 9, cfg := mset [] (objKey 0x10 0x0030 0) (.blob (natBytes 2 3 ++ natBytes 2 mgr ++ [0])) }
def two : List LendMember := [⟨9, 2000, 3000, 1200, 2000, some 0⟩, ⟨4, 2000, 3000, 1200, 2000, some (1 / 10)⟩]

theorem test_w_lending : lendGroup (lending 9) = some (3, 9, 0) ∧ 1200 ≤ 1500 ∧ ¬ 1500 > Config.inputCeiling := by
  refine ⟨by decide +kernel, by decide, ?_⟩
  unfold Config.inputCeiling; cases Config.profileIsL <;> decide

/-- Example 13.1: four devices of B = 4,200 W with w = 0.01, 0.03, 0.05 and 0.09, whose last clause is the next round. -/
def four (l : List Nat) : List LendMember :=
  (List.range 4).map fun i => ⟨i, 4200, 4800, 1200, l.getD i 0, some ([1 / 100, 3 / 100, 5 / 100, 9 / 100].getD i 0)⟩

theorem test_example_13_1 : lendNew (four [4200, 4200, 4200, 4200]) = [(0, 4292), (1, 4292), (2, 4116), (3, 4100)] := by decide +kernel

theorem test_lend : lendNew two = [(9, 2100), (4, 1900)] ∧
    (after (.lendRound two) (lending 9) (fun t => t.pwr.raises == [(9, 2100)] && t.out == [.lend 4 6 1900]) &&
     after (.lendConfirmTimeout [4]) (modPwr (lending 9) fun p => { p with raises := [(5, 2100)], lowered := [(4, 1900), (6, 1800)] }) (fun t =>
       t.pwr.raises.isEmpty && t.pwr.lowered == [(6, 1800)] && t.out == [.lend 5 6 2100]) &&
     after .lendFallback (modPwr (lending 4) fun p => { p with lent := some 7 }) (fun t => limitNow t == 1000)) = true := by decide +kernel

/-! ### Starts and resets -/

def noOutcome : StageOutcome := ⟨[], [], [], none⟩
/-- A cold or warm start at a stage. -/
def waking (warm : Bool) (stage : Nat) : State := { powered with
  dev := .waking, stage := stage, wake := { Wake.reset with start := some ⟨warm, 5, 2⟩, vinStayed := true }, echoM := 77 }

theorem test_pins : (after (.coldRstRelease 999) powered (fun t => t.dev == .ready) &&
    after (.coldRstRelease 1000) powered (fun t => t.dev == .waking && t.stage == 1) &&
    after .autoRecover { powered with dev := .faulted, wake := { Wake.reset with recoverDue := true } } (fun t => t.dev == .waking && t.stage == 1)) = true := by
  decide +kernel

theorem test_w_starts : 0 ∈ bankOrder (waking false 1) ∧ (waking false 4).wake.start = some ⟨false, 5, 2⟩ ∧ trialOn (waking false 4) = false ∧
    domDefect (waking false 4) 96 = false ∧ domOf (waking false 4) 96 ≠ .tripped ∧ cfgNum powered 0x02 0x0009 0 1 = 1 ∧
    serviceable { mready with hosts := [(0, { HostDie.reset with up := true })], pwr := { base.pwr with doms := [(0, .on), (96, .on), (132, .on)] } } = true := by
  decide +kernel

theorem test_w_warm : (modWake powered fun w => { w with vinStayed := true }).wake.start = none ∧
    (modWake powered fun w => { w with vinStayed := true }).wake.vinStayed = true ∧ powered.dev ≠ .standby ∧ powered.pwr.vin = true := by decide +kernel

theorem test_stages : (after (.coldStartStageEnd { noOutcome with bank := some 0 }) (waking false 1) (fun t => t.stage == 2 && t.fw.runL == 0) &&
    after (.coldStartStageEnd { noOutcome with bank := some 0 }) { waking false 1 with fw := { (waking false 1).fw with pending := some 1, trials := 1, phase := 1 } }
      (fun t => t.stage == 1 && t.fw.trials == 2 && t.fw.pending == some 1) &&
    after (.coldStartStageEnd noOutcome) (waking false 2) (fun t => t.stage == 3 && domOf t 132 == .on) &&
    after (.coldStartStageEnd noOutcome) (waking false 4) (fun t => t.stage == 5 && domOf t 107 == .on && (t.field 11).echo == 77) &&
    after (.coldStartStageEnd { noOutcome with fnFailed := [11] }) (waking false 4) (fun t => domOf t 107 != .on) &&
    after .startStageDeadline (waking false 4) (fun t => t.dev == .faulted && t.wake.failedStarts == 1) &&
    after .startStageDeadline (modWake (waking false 4) fun w => { w with failedStarts := 2 }) (fun t => t.dev == .held)) = true := by decide +kernel

theorem test_warm : (after (.warmStartStageEnd true) (waking true 7) (fun t => t.stage == 9 && t.dev == .waking) &&
    after (.warmStartStageEnd false) (waking true 4) (fun t => t.stage == 1 && (match t.wake.start with
      | some r => !r.warm
      | none => false))) = true := by decide +kernel

/-- Group 9 is on; core 108 is under reset. -/
def under : State := modCore domS 108 fun k => { k with crst := true }

theorem test_w_release : mayRelease under 108 = true ∧ (under.part 0).resetting = false ∧ mayRelease domS 108 = false := by decide +kernel

theorem test_releases : (after (.coreResetDone 108) under (fun t => !(t.core 108).crst) &&
    after (.coreResetDone 108) (modGrp under 9 fun k => { k with check := true }) (fun t => (t.core 108).crst) &&
    after (.partitionResetDone 0) (oneGroup (modPart base 0 fun p => { p with resetting := true })) (fun t => !(t.part 0).resetting) &&
    after .computeResetDrainEnd (modWake { base with cntDenied := 5, mchans := [(3, [])] } fun w => { w with compute := true }) (fun t => t.wake.drained &&
      t.cntDenied == 0 && t.mchans.isEmpty) &&
    after .computeResetDone (modWake under fun w => { w with compute := true, drained := true }) (fun t => !t.wake.compute && t.dev == .degraded)) = true := by
  decide +kernel

def remapping (ok : Bool) : State := modGrp domS 9 fun k => { k with remap := some ⟨4, ok⟩, rst := true, part := none }

theorem test_w_remap : (remapping true).grp 9 = { Group.reset with remap := some ⟨4, true⟩, rst := true, part := none } ∧ present domS 108 = true ∧
    ((domS.grp 9).tdead ||| (domS.grp 9).rdead).testBit 12 = false ∧ domOf (remapping true) 9 = .on := by decide +kernel

theorem test_remap : (after (.remapSpareTested 9 true) (remapping false) (fun t => (t.grp 9).skip == 4 && (t.grp 9).remap == some ⟨4, true⟩) &&
    after (.remapDone 9) (remapping true) (fun t => (t.grp 9).remap == none && !(t.core 119).crst) &&
    after (.coreFailDetected ⟨109, false⟩) (modWake domS fun w => { w with mgmt := true }) (fun t => t.wake.waitFail == [109])) = true := by decide +kernel

theorem test_fail : after (.coreFailDetected ⟨109, false⟩) domS (fun t => (t.grp 9).remap == some ⟨1, false⟩ && (t.grp 9).rst &&
    t.survey.entries.map (fun e => (e.type_, e.loc.take 4)) == [(1, [14, 1, 1, 0])]) = true := by decide +kernel

theorem test_spare_fails : after (.remapSpareTested 9 false) (remapping false) (fun t => (t.grp 9).lost &&
    t.survey.entries.map (fun e => (e.type_, e.loc.take 4)) == [(1, [25, 1, 1, 0])]) = true := by decide +kernel

/-! ### Halts, restarts and records -/

def restarting : State := modWake powered fun w => { w with mgmt := true }

theorem test_watchdog : (after .watchdogExpire powered (fun t => t.wake.mgmt && t.dev == .ready) &&
    after (.carafeTakeControl true) restarting (fun t => !t.wake.mgmt && t.fw.runC == 0 && t.fw.tries == 0) &&
    after (.carafeTakeControl false) restarting (fun t => t.wake.mgmt && t.fw.tries == 1 && t.dev == .ready) &&
    after (.carafeTakeControl false) (modFw restarting fun f => { f with tries := 3 }) (fun t => t.dev == .faulted && t.fw.recovery)) = true := by
  decide +kernel

theorem test_w_carafe : bankOrder restarting = [0, 1] ∧ trialOn restarting = false ∧ drivesHalt powered = false ∧ haltBitOf powered 0 = false := by
  decide +kernel

theorem test_halt_n : (after (.haltNAssert 40) powered (fun t => t.wake.haltN && (t.part 15).hSystem) &&
    after (.haltNAssert 39) powered (fun t => !t.wake.haltN) &&
    after (.haltNRelease 1000) (modPart (modWake powered fun w => { w with haltN := true }) 3 fun p => { p with hSystem := true }) (fun t =>
      !t.wake.haltN && !(t.part 3).hSystem)) = true := by decide +kernel

def halting : State := modPart (modPwr ready fun p => { p with doms := [(0, .on)] }) 0 fun p => { p with hOperator := true }
def haltedS : State := modCtl (modPwr ready fun p => { p with doms := [(0, .on)] }) 0 fun k => { k with st := .halted, resume := .running, haltBit := true }

theorem test_w_halt : present halting 0 = true ∧ haltBitOf halting 0 = true ∧ (halting.core 0).ctl.blk = .none ∧ (halting.core 0).flights = [] ∧
    haltBitOf haltedS 0 = false := by decide +kernel

theorem test_halts : (after (.haltArrive 0) halting (fun t => (t.core 0).ctl.st == .halted && (t.core 0).ctl.resume == .running && (t.core 0).ctl.pc == 0x100) &&
    after (.runArrive 0) haltedS (fun t => (t.core 0).ctl.st == .running && !(t.core 0).ctl.haltBit)) = true := by decide +kernel

theorem test_partition_halted : after (.partitionHalted 0) (oneGroup (modCtl halting 0 fun k => { k with st := .halted })) (fun t => (t.part 0).halted) = true := by
  decide +kernel

def lrec (code : Nat) : LogRec := ⟨0, false, false, code, 1, 0, 0, none, 0, 1, [], false⟩

theorem test_logs : (after .errorCoalesceFlush { base with coals := [⟨0x2001, 4, 0, 3, none, 2, 0, []⟩] } (fun t => t.coals.isEmpty &&
      t.logBuf.map (fun e => (e.code, e.count, e.coalesced)) == [(0x2001, 2, true)]) &&
    after .errorCoalesceFlush { base with coals := [⟨0x2001, 4, 0, 3, none, 0, 0, []⟩] } (fun t => t.coals.isEmpty && t.logBuf.isEmpty) &&
    after .eventLogFlush { base with logBuf := [lrec 7], logFlash := [lrec 6] } (fun t => t.logBuf.isEmpty && t.logFlash.map (·.code) == [6, 7]) &&
    after (.parityRewrite ⟨0, 1, 2⟩) { base with badEntries := [⟨0, 1, 2⟩, ⟨0, 1, 3⟩] } (fun t => t.badEntries == [⟨0, 1, 3⟩])) = true := by decide +kernel

theorem test_fatal : (after (.fuseRecheck true) base (fun t => t.dev == .ready) &&
    after (.fuseRecheck false) base (fun t => t.dev == .faulted && (t.part 9).hDevice) &&
    after .mMemoryUncorrectable base (fun t => t.dev == .faulted)) = true := by decide +kernel

def checking (gs us : List Nat) : State := modWake base fun w => { w with check := { FieldCheck.reset with st := 1, groups := gs, units := us } }

theorem test_w_checks : checkTurn (checking [9, 10] []) (9 / 8) = some 9 ∧
    (checking [] [5]).wake.check.units.find? (fun x => x / 48 == 5 / 48) = some 5 := by decide +kernel

theorem test_checks : (after (.fieldCheckGroupDone 9 (List.replicate 13 0)) (checking [9, 10] []) (fun t => t.wake.check.groups == [10] &&
      mget [] t.wake.check.gres 9 == List.replicate 13 0) &&
    after (.fieldCheckUnitDone 0 []) { checking [] [0] with mem := [(hA, 5), (hA + 2 ^ 30 - 1, 5), (hA + 2 ^ 30, 6)] } (fun t => t.wake.check.units.isEmpty &&
      t.mem == [(hA + 2 ^ 30, 6)])) = true := by decide +kernel

/-- The Survey's half 0 holds 58,982 entries, its HEADER among them. -/
def fullSurvey : State := { base with
  survey := { Survey.reset with half0 := ⟨some (headerEntry 1 1 0), List.replicate 58981 (.entry ⟨6, 0, false, false, 2, 0, []⟩)⟩ } }

theorem test_w_compact : 58982 ≤ fullSurvey.survey.cur.slots.length + 1 ∧ fullSurvey.survey.compacting = false ∧ fullSurvey.wake.mgmt = false ∧
    fullSurvey.dev ≠ .off := by
  have e : fullSurvey.survey.cur.slots.length = 58981 := List.length_replicate
  exact ⟨by omega, rfl, rfl, by decide⟩

/-- A compaction is under way: half 0 holds a defect, its cancellation and another defect; half 1 is erased. -/
def halfWay : State := { base with
  survey := { Survey.reset with
    half0 := ⟨some (headerEntry 1 1 0), [.entry ⟨6, 1, false, false, 2, 0, [1]⟩, .torn, .entry ⟨6, 1, true, false, 3, 0, [1]⟩, .entry ⟨6, 1, false, false, 4, 0, [2]⟩]⟩
    nextSeq := 5, compacting := true } }

theorem test_compact : (after .surveyCompact base (fun t => t.survey == base.survey) &&
    (let t := compactStep true halfWay
     t.survey.gen == 2 && t.survey.second && t.survey.half0 == ⟨none, []⟩ && t.survey.entries.map (·.seq) == [4] && t.survey.nextSeq == 6 &&
       !t.survey.compacting) &&
    (let t := compactStep false halfWay
     t.survey.gen == 1 && t.survey.refuses && t.survey.full && t.logBuf.map (·.code) == [0x13])) = true := by decide +kernel

theorem test_compact_exec : exec .surveyCompact halfWay = .next (compactStep (Config.freeBool halfWay.fresh) { halfWay with fresh := halfWay.fresh + 1 }) := rfl

/-! ### Firmware -/

/-- A header: "IXFW", format 1.0, key slot 0, `warm` flag, SVNs 2 and 3, a Lantern of VERSION 5 or later, device 0xB0, both profiles, sizes 16, 16, 16. -/
def header (warm : Byte) : Bytes := [0x49, 0x58, 0x46, 0x57, 0, 1, 0, warm, 0, 0, 0, 0, 2, 3, 0, 0, 5, 0, 0, 0, 0xB0, 3, 0, 0, 16, 0, 0, 0, 16, 0, 0, 0, 16, 0, 0, 0] ++
  List.replicate 476 0
/-- Bank 1 is being verified; the runtime that runs has VERSION `v`. -/
def verifying (v : Nat) : State := modFw powered fun f =>
  { f with upd := 2, act := some (1, 0), images := [(1, header 0)], svn := [(0, 1), (1, 1)], verL := some v, banks := [(0, 4), (1, 1)] }

theorem test_w_verify : imageCheck (verifying 5) 1 true true = 0 ∧ imageCheck (verifying 5) 1 false true = 2 ∧ actKind (verifying 4) 1 = 2 ∧
    actKind (verifying 5) 1 = 0 ∧ (verifying 5).fw.act = some (1, 0) := by
  unfold imageCheck; cases Config.profileIsL <;> decide +kernel

theorem test_verify_fails : after (.firmwareVerifyDone true false) (verifying 5) (fun t => t.fw.upd == 0 && mget 0 t.fw.banks 1 == 1 &&
    t.fw.act == none && t.logBuf.map (·.code) == [0x6001]) = true := by decide +kernel

/-- Bank 1 is on trial. -/
def trial (n : Nat) : State := modFw powered fun f =>
  { f with pending := some 1, trials := n, phase := 1, banks := [(0, 4), (1, 3)], images := [(0, header 0), (1, header 0)], svn := [(0, 1), (1, 1)], degr := 15 }

theorem test_w_trial : healthOk (trial 1) = true ∧ cfgNum (trial 1) 0xA0 0x0007 0 0 = 0 ∧ trialOn powered = false := by decide +kernel

theorem test_trials : (after (.trialHealth true true) (trial 1) (fun t => t.fw.pending == none && t.fw.active == 1 && mget 0 t.fw.banks 1 == 4 &&
      svnCount t 0 == 2 && svnCount t 1 == 3) &&
    after (.trialHealth true false) (trial 1) (fun t => t.fw.pending == some 1 && t.fw.active == 0) &&
    after .trialTimeout (trial 1) (fun t => t.wake.mgmt && t.fw.trials == 2 && t.fw.pending == some 1) &&
    after .trialTimeout (trial 2) (fun t => t.fw.pending == none && mget 0 t.fw.banks 1 == 5 && t.fw.active == 0) &&
    after .trialTimeout powered (fun t => !t.wake.mgmt)) = true := by decide +kernel

/-! ### Counters -/

/-- Counter 2 counts events 5, and counter 3 its wraps. -/
def chained (v2 v3 : Nat) (chain frz : Bool) : State := modCore base 0 fun k => { k with
  cnt := { CoreCnt.reset with frz := frz, sels := [(2, ⟨true, false, false, 5⟩), (3, ⟨true, false, chain, 0⟩)], vals := [(2, v2), (3, v3)] } }

theorem test_w_counter : (mget CntSel.reset ((chained 0 0 true false).core 0).cnt.sels 2).en = true ∧
    (mget CntSel.reset ((chained 0 0 true false).core 0).cnt.sels 3).chain = true ∧ ((chained 0 0 true true).core 0).cnt.frz = true := by decide +kernel

/-- R538: counters have 48 bits. -/
theorem test_wraps : (after (.counterWrap (.core 0 2) 2) (chained 0xFFFFFFFFFFFE 9 true false) (fun t => (t.core 0).cnt.vals == [(2, 0), (3, 10)] && (t.core 0).cnt.ovf == 0) &&
    after (.counterWrap (.core 0 2) 3) (chained 0xFFFFFFFFFFFE 9 false false) (fun t => (t.core 0).cnt.vals == [(2, 1), (3, 9)] && (t.core 0).cnt.ovf == 4) &&
    after (.counterWrap (.core 0 2) 1) (chained 0xFFFFFFFFFFFE 9 true false) (fun t => (t.core 0).cnt.vals == [(2, 0xFFFFFFFFFFFE), (3, 9)]) &&
    after (.counterWrap (.core 0 2) 2) (chained 0xFFFFFFFFFFFE 9 true true) (fun t => (t.core 0).cnt.vals == [(2, 0xFFFFFFFFFFFE), (3, 9)])) = true := by
  decide +kernel

/-- Example 18.1: an LD from 0x1FFFC0 is a ring-3 load; bytes 8 to 15 and 20 to 31 of its record. -/
theorem test_sampled : after (.ld 0 4 3 0) (modCore (readyReg 3 0x1FFFC0) 0 fun k => { k with cnt := { k.cnt with smp := { Sampler.reset with en := true, event := 0x3B } } })
    (fun t => match (t.core 0).cnt.smp.due with
      | [r] => (r.drop 8).take 8 == [0x00, 1, 0, 0, 0, 0, 0x3B, 0] && r.drop 20 == [0xC0, 0xFF, 0x1F, 0, 0, 0, 0, 0, 8, 3, 0, 0]
      | _ => false) = true := by decide +kernel

/-- R536: in edge mode an event that lasts counts once for each episode; in level mode it counts in every clock. -/
theorem test_episodes : ((fun k : CoreCnt => cntClock (fun _ _ => []) [(0x55, 2, bareSample)] (cntClock (fun _ _ => []) [(0x55, 2, bareSample)] k))
    { CoreCnt.reset with sels := [(0, ⟨true, true, false, 0x55⟩), (1, ⟨true, false, false, 0x55⟩)] }).vals = [(0, 1), (1, 4)] := by decide +kernel

def portCnt : State := { base with shared := [(2007, { Shared.reset with sels := [(5, ⟨true, false, 3, 1⟩)], totals := [(5, 0xFFFFFFFFFFFF)], shadows := [(87, 4)] })] }

theorem test_shared_wraps : after (.counterWrap (.shared 2007 5 2) 1) portCnt (fun t => (t.blk 2007).ovf == 32 && mget 0 (t.blk 2007).totals 5 == 0 &&
    mget 0 (t.blk 2007).shadows 87 == 5) = true := by decide +kernel

def smp1 : Sampler := { Sampler.reset with en := true, event := 1, base := 0x4000, head := 17, tail := 2, due := [(List.range 32).map (BitVec.ofNat 8)] }
def sampling (f : Sampler → Sampler) : State := modCore ready 0 fun k => { k with cnt := { k.cnt with smp := f smp1 } }

theorem test_records : (after (.sampleRecord 0) (sampling id) (fun t => spBytes t 0 0x4020 32 == (List.range 32).map (BitVec.ofNat 8) && (t.core 0).cnt.smp.head == 18 &&
      (t.core 0).cnt.smp.due.isEmpty) &&
    after (.sampleRecord 0) (sampling fun m => { m with tail := 1 }) (fun t => (t.core 0).cnt.smp.lost == 1 && t.mem.isEmpty)) = true := by decide +kernel

/-! ### Management -/

def pathE : Transport := .eth 0
/-- A secure ADMIN session 5 on management port 0, at version 0x11, whose next SEQ is 3. -/
def sess : Session :=
  { tr := pathE, secure := true, cls := 2, part := 0xFF, slot := some 1, opened := 0, ver := some 0x11, next := 3, replies := [], held := [], sub := none,
    staging := none, reading := none, events := 0, keyGen := 0 }
def withS (f : Session → Session) : State := { base with sessions := [(5, f sess)] }
def hands (n : Nat) : State := modMgmt base fun m => { m with hands := [⟨pathE, n⟩], slots := [(1, ⟨2, 0, List.replicate 48 7⟩)], nextSid := 9 }

theorem test_w_spdm : servedOn base pathE = true ∧ handDone (hands 6) pathE = 6 ∧ roomFor (hands 6) pathE = true ∧
    classFor (hands 6) pathE (.chain (List.replicate 48 7)) = some (2, 0xFF, some 1) ∧ classFor (hands 6) pathE .none = none ∧
    negotiated (hands 3) pathE = true ∧ measureBody (hands 3) 0 = some [7] ∧ servedOn { base with dev := .off } pathE = false := by decide +kernel

theorem test_spdm : (after (.getVersion pathE) (hands 4) (fun t => handDone t pathE == 1 && t.out == [.spdm pathE .version [0x13]]) &&
    after (.getCapabilities pathE) (hands 1) (fun t => handDone t pathE == 2 && t.out == [.spdm pathE .capabilities []]) &&
    after (.negotiateAlgorithms pathE) (hands 1) (fun t => handDone t pathE == 1 && t.out == [.spdm pathE .unexpected []]) &&
    after (.getDigests pathE) (hands 3) (fun t => handDone t pathE == 4) &&
    after (.getCertificate pathE 1) (hands 4) (fun t => t.out == [.spdm pathE .invalid []]) &&
    after (.getCertificate pathE 0) (hands 4) (fun t => handDone t pathE == 5) &&
    after (.keyExchange pathE [1]) (hands 5) (fun t => handDone t pathE == 6)) = true := by decide +kernel

theorem test_finish : (after (.finish_ pathE (.chain (List.replicate 48 7))) (hands 6) (fun t => handDone t pathE == 0 && t.out == [.spdm pathE .finish [9, 0, 0, 0]] &&
      t.sessions.map (fun x => (x.1, x.2.cls, x.2.next, x.2.ver)) == [(9, 2, 1, none)] && t.logBuf.map (·.code) == [0x5002]) &&
    after (.finish_ pathE .none) (hands 6) (fun t => t.sessions.isEmpty && t.out == [.spdm pathE .invalid []])) = true := by decide +kernel

theorem test_spdm_more : (after (.challenge pathE [3]) (hands 3) (fun t => t.out.length == 1) &&
    after (.getMeasurements pathE 0 [3]) (hands 3) (fun t => t.out.length == 1) &&
    after (.heartbeat pathE 5) (withS id) (fun t => t.out == [.spdm pathE .heartbeatAck []]) &&
    after (.keyUpdate pathE 5) (withS id) (fun t => t.out == [.spdm pathE .keyUpdateAck []] && t.sessions.map (fun x => x.2.keyGen) == [1])) = true := by
  decide +kernel

def hdr (seq : Nat) : SasilHdr := ⟨pathE, true, 0x11, seq, 5, false, false, none⟩
def ahead : Session → Session := fun e => { e with held := [(hdr 5, .close)] }
def watching (q : List LogRec) : Session → Session := fun e => { e with sub := some ⟨⟨1, 1, 0xFF, 0, []⟩, q, 3⟩ }

theorem test_sessions : (after (.sessionTimeout 5) (withS id) (fun t => t.sessions.isEmpty && t.logBuf.map (·.code) == [0x5002]) &&
    after (.sessionTimeout 5) (withS fun e => { e with secure := false }) (fun t => t.sessions.length == 1) &&
    after (.sequenceGapTimeout 5) (withS ahead) (fun t => t.sessions.map (fun x => x.2.held.length) == [0] &&
      t.out == [.mgmt pathE (replyMsg (hdr 5) 8 5 0x0E [])]) &&
    after (.stagingTimeout 5) (withS fun e => { e with staging := some ⟨⟨0x40, 1, 0⟩, [1]⟩ }) (fun t => t.sessions.map (fun x => x.2.staging) == [none]) &&
    after (.eventDeliver 5) (withS (watching [lrec 7])) (fun t => t.sessions.map (fun x => x.2.events) == [1] && (match t.out with
      | [.mgmt _ m] => m.type_ == 0x40 && m.seq == 1 && m.body.take 8 == [3, 0, 0, 0, 1, 0, 0, 0]
      | _ => false))) = true := by decide +kernel

/-- R488: to a peer, an answer and an EVENT leave in MGMT packets. -/
def toPeer (t : State) : Bool := match t.out with
  | [.toDev k _] => k.opc == 9 && k.ddev == 4 && k.score == 0x7FF && k.data.take 4 == [2, 0, 0, 0]
  | _ => false
theorem test_peers : (after (.sequenceGapTimeout 5) (withS fun e => { e with tr := .peer 4, held := [({ hdr 5 with tr := .peer 4 }, .close)] }) toPeer &&
    after (.eventDeliver 5) (withS fun e => { watching [lrec 7] e with tr := .peer 4 }) toPeer) = true := by decide +kernel

theorem test_config : (after .configCommit { base with cfg := [(1, .num 4)] } (fun t => t.mgmt.committed == [(1, .num 4)]) &&
    after .mgmtSettingsApply (modMgmt base fun m => { m with netDue := [4] }) (fun t => t.mgmt.netDue.isEmpty)) = true := by decide +kernel

/-- mgmt.allow admits 10.0.0.0/8 mapped to its first 8 bits alone. -/
def fenced : State := { withS id with cfg := mset [] (objKey 0xB0 0x0015 0) (.blob (10 :: List.replicate 15 0 ++ [8, 0, 0, 0])) }

theorem test_w_paths : portUp fenced 0 = true ∧ allowed fenced [10, 9] = true ∧ allowed fenced [11] = false ∧ portUp base 1 = true ∧
    SpdmRow pathE (.heartbeat pathE 5) (.heartbeat 5) ∧ netNum (withS id) 0x12 0 = 0 := by unfold SpdmRow; decide +kernel

theorem test_datagrams : (after (.mgmtDatagram 0 [10, 9] (.spdm (.heartbeat 5))) fenced (fun t => t.out == [.spdm pathE .heartbeatAck []]) &&
    after (.mgmtDatagram 0 [11] (.spdm (.heartbeat 5))) fenced (fun t => t.out.isEmpty && t.mgmt.filtered == 1) &&
    after (.mgmtDatagram 0 [10] (.secured false (hdr 3) .close)) fenced (fun t => t.mgmt.tagFailures == 1 && t.sessions.length == 1) &&
    after (.mgmtDatagram 0 [10] (.secured true (hdr 3) .close)) fenced (fun t => t.sessions.isEmpty) &&
    after (.mgmtDatagram 0 [10] (.badLead [9, 9])) fenced (fun t => t.mgmt.malformed == 1) &&
    after (.peerMgmtPacket 4 (.spdm .getVersion)) base (fun t => handDone t (.peer 4) == 1 && (match t.out with
      | [.toDev k _] => k.opc == 9 && k.ddev == 4
      | _ => false))) = true := by decide +kernel

theorem test_net : (after (.mctpControl (.setEid 9)) base (fun t => t.mgmt.eid == 9 && t.out == [.net 32 0 [9]]) &&
    after (.mctpControl .getEid) (modMgmt base fun m => { m with eid := 8 }) (fun t => t.out == [.net 32 1 [8]]) &&
    after (.i3cEntdaa 130) base (fun t => t.mgmt.i3c == some 2) &&
    after (.mgmtNetworkProbe 0 .arp [1, 2, 3, 4]) base (fun t => t.out.isEmpty)) = true := by decide +kernel

/-- The request of Example 16.1 with its prefix: SET, SEQ 7, of 10:0001.00 to 4,200. -/
def exampleReq : Bytes := [3, 0, 0, 0, 0x11, 2, 0, 0, 7, 0, 0, 0, 0x10, 0, 0, 0, 3, 0, 0, 0, 1, 0, 0, 0, 0x10, 1, 0, 0, 3, 0, 2, 0, 0x68, 0x10, 0, 0]
/-- Example 16.1: plain OPERATOR session 3 on the PF mailbox of H0, with the request in its buffer. -/
def plainS : State :=
  { modFn (modHost base 0 fun d => { d with up := true }) 0 0 fun k => { k with mbx := { k.mbx with reqLen := 36, req := exampleReq } } with
    sessions := [(3, { sess with tr := .mbx 0 0, secure := false, cls := 1, slot := none, next := 7 })],
    cfg := mset [] (objKey 0x10 1 0) (.num 4800) }

theorem test_example_16_1 : after (.mailboxGo 0 0 (.badLead [])) plainS (fun t => ((t.host 0).fn 0).mbx.rsp ==
      [3, 0, 0, 0, 0x11, 0x82, 0, 0, 7, 0, 0, 0, 0x10, 0, 5, 0, 3, 0, 0, 0, 1, 0, 0, 0, 0x10, 1, 0, 0, 3, 5, 2, 0, 0xC0, 0x12, 0, 0] &&
    ((t.host 0).fn 0).mbx.rspLen == 36 && ((t.host 0).fn 0).mbx.done && cfgNum t 0x10 1 0 0 == 4800) = true := by decide +kernel

theorem test_w_mailbox : PathOpen plainS (.mbx 0 0) ∧ 20 ≤ ((plainS.host 0).fn 0).mbx.reqLen ∧ leAt exampleReq 0 4 = 3 := by
  refine ⟨⟨by decide +kernel, by decide +kernel, ?_, ?_⟩, by decide +kernel, by decide +kernel⟩
  · intro p h; exact Transport.noConfusion h
  · intro d f h; obtain ⟨rfl, rfl⟩ := Transport.mbx.inj h; decide +kernel

/-! ### Sasil -/

def nextIs (t : State) (n : Nat) : Bool := ((mfind t.sessions 5).map (·.next)) == some n
def sS : State := withS id
def h3 : SasilHdr := hdr 3
/-- thermal.warning, a U8 from 60 to 95 that an ADMIN may write (Table 13.17). -/
def warn (n : Nat) : ObjEntry := ⟨⟨0x11, 3, 0⟩, 2, .num n⟩
/-- The reply of session 5 alone has been sent. -/
def replied (h : SasilHdr) (ty status : Nat) (body : Bytes) (t : State) : Bool := t.out == [.mgmt h.tr (replyMsg h ty 5 status body)]

theorem test_w_turn : InTurn sS h3 sess := by
  refine ⟨⟨⟨by decide +kernel, by decide +kernel, ?_, ?_⟩, by decide +kernel⟩, by decide +kernel⟩
  · intro p h; obtain rfl := Transport.eth.inj h; decide +kernel
  · intro d f h; exact Transport.noConfusion h

theorem test_get : after (.get_ h3 [⟨2, 1, 0⟩, ⟨0xF0, 1, 0⟩]) sS (fun t => nextIs t 4 && (match t.out with
    | [.mgmt _ m] => m.type_ == 0x81 && m.status == 5 && m.body.take 12 == [2, 0, 0, 0, 2, 1, 0, 0, 0x0C, 0, 1, 0]
    | _ => false)) = true := by decide +kernel

theorem test_w_set : (objAt ⟨0x11, 3, 0⟩).map (fun d => (d.ty.code, keeps d)) = some (2, true) ∧ setCheck sS sess (warn 90) false = 0 ∧
    setCheck sS sess (warn 59) false = 4 ∧ setCheck sS { sess with cls := 1 } (warn 90) false = 5 ∧ bodyLen (.set [warn 90]) = 16 := by decide +kernel

theorem test_set : (after (.set_ h3 [warn 90]) sS (fun t => nextIs t 4 && cfgNum t 0x11 3 0 95 == 90 && (match t.out with
      | [.mgmt _ m] => m.status == 0 && m.body == [1, 0, 0, 0, 0x11, 3, 0, 0, 2, 0, 1, 0, 90, 0, 0, 0]
      | _ => false)) &&
    after (.set_ h3 [warn 90, warn 59]) sS (fun t => nextIs t 4 && t.cfg.isEmpty)) = true := by decide +kernel

/-- bundle.eth: bytes of bundle 2. -/
def ethObj : ObjAddr := ⟨0x50, 0x0204, 2⟩
def ethSet : State := { sS with cfg := mset [] (objKey 0x50 0x0204 2) (.blob [1, 2, 3, 4, 5]) }
/-- partition.weights: bytes of partition 4. -/
def partObj : ObjAddr := ⟨0x40, 0x0032, 4⟩

theorem test_blocks : (after (.getblock h3 ethObj 1 3) ethSet (fun t => nextIs t 4 &&
      replied h3 3 0 ([0x50, 4, 2, 2] ++ [5, 0, 0, 0, 1, 0, 0, 0, 2, 3, 4, 0]) t) &&
    after (.setblock h3 partObj 0 [1, 2]) sS (fun t => nextIs t 4 && (mfind t.sessions 5).map (·.staging) == some (some ⟨partObj, [1, 2]⟩) && replied h3 4 0 [] t)) = true := by
  decide +kernel

theorem test_subscribe : (after (.subscribe h3 ⟨0, 3, 0xFF, 0, []⟩) sS (fun t => (mfind t.sessions 5).map (·.sub) == some (some ⟨⟨1, 3, 0xFF, 0, []⟩, [], 0⟩)) &&
    after (.subscribe h3 ⟨0, 0, 0xFF, 0, []⟩) (withS (watching [])) (fun t => (mfind t.sessions 5).map (·.sub) == some none && replied h3 5 0 [] t)) = true := by
  decide +kernel

def clearAll : ObjEntry := ⟨⟨0x90, 0x0120, 0⟩, 1, .num 1⟩

theorem test_action : (after (.action_ h3 clearAll) { sS with shared := [(0, { Shared.reset with totals := [(0, 5)] })] } (fun t => nextIs t 4 && (t.blk 0).totals.isEmpty &&
      replied h3 6 0 [] t) &&
    after (.action_ h3 clearAll) (withS fun e => { e with cls := 1 }) (fun t => replied h3 6 5 [] t)) = true := by decide +kernel

theorem test_close : after (.close_ h3) sS (fun t => t.sessions.isEmpty && replied h3 8 0 [] t && t.logBuf.map (·.code) == [0x5002]) = true := by decide +kernel

theorem test_hello : (after (.hello_ { h3 with ver := 0x10 } 3) (withS fun e => { e with ver := none }) (fun t => (mfind t.sessions 5).map (·.ver) == some (some 0x11) &&
      replied { h3 with ver := 0x10 } 7 0 [0x11, 2, 0xFF, 0, 5, 0, 0, 0] t) &&
    after (.hello_ { h3 with ver := 0x10 } 4) (withS fun e => { e with ver := none }) (fun t => t.sessions.isEmpty)) = true := by decide +kernel

/-- The same mailbox without a session, and a plain HELLO of both versions. -/
def noSession : State := { plainS with sessions := [] }
def hHello : SasilHdr := ⟨.mbx 0 0, false, 0x10, 1, 0, false, false, none⟩

theorem test_w_plain_hello : (classFor noSession (.mbx 0 0) .none).isSome = true ∧ chooseVersion 3 = some 0x11 ∧ noSession.sessions = [] ∧
    classFor { noSession with mgmt := { Mgmt.reset with claimed := true }, cfg := mset [] (objKey 0xB0 6 0) (.num 0) } (.mbx 0 0) .none = none := by
  decide +kernel

theorem test_plain_hello : after (.hello_ hHello 3) noSession (fun t => t.sessions.map (fun x => (x.1, x.2.tr, x.2.ver, x.2.secure)) == [(1, .mbx 0 0, some 0x11, false)] &&
    (((t.host 0).fn 0).mbx.rsp.take 4 == [3, 0, 0, 0])) = true := by decide +kernel

theorem test_sequence : (after (.close_ (hdr 4)) sS (fun t => t.out.isEmpty && (mfind t.sessions 5).map (·.held) == some [(hdr 4, .close)]) &&
    after (.close_ (hdr 2)) sS (replied (hdr 2) 8 0x0E []) && after (.close_ (hdr 11)) sS (replied (hdr 11) 8 7 []) &&
    after (.close_ { h3 with ver := 0x10 }) sS (replied { h3 with ver := 0x10 } 8 0x0C []) &&
    after (.close_ { h3 with sid := 6 }) sS (fun t => t.out == [.mgmt pathE (replyMsg { h3 with sid := 6 } 8 0 0x0D [])]) &&
    after (.close_ { h3 with malformed := some [1, 2] }) sS (fun t => t.mgmt.malformed == 1 && nextIs t 3)) = true := by decide +kernel

theorem test_kept_reply : after (.close_ (hdr 2)) (withS fun e => { e with replies := [replyMsg (hdr 2) 2 5 0 [7]] }) (replied (hdr 2) 2 0 [7]) = true := by
  decide +kernel

/-! ### Actions -/

/-- Whether session `sid` may perform an action now. -/
def mayActB (s : State) (sid : Nat) (a : ObjAddr) (v : ObjVal) : Bool :=
  match mfind s.sessions sid, objAt a with
  | some e, some d => servedOn s e.tr && (!s.fw.recovery || recoveryServes (.action ⟨a, 0, v⟩)) && decide (actCheckAll s e ⟨a, d.ty.code, v⟩ = 0)
  | _, _ => false

theorem mayAct_of_mayActB {s : State} {sid : Nat} {a : ObjAddr} {v : ObjVal} (h : mayActB s sid a v = true) : MayAct s sid a v := by
  unfold mayActB at h
  split at h
  · next e d he hd =>
    simp only [Bool.and_eq_true, Bool.or_eq_true, Bool.not_eq_true', decide_eq_true_eq] at h
    refine ⟨e, d, he, hd, h.1.1, fun hr => ?_, h.2⟩
    rcases h.1.2 with h1 | h1
    · rw [h1] at hr; cases hr
    · exact h1
  · cases h

/-- What an action does where session 5 may perform it. -/
def acts (s : State) (a : ObjAddr) (v : ObjVal) (i : Instr) (p : State → Bool) : Bool := mayActB s 5 a v && after i s p

/-- The device in service with an ADMIN session. -/
def adminS : State := { domS with sessions := [(5, sess)], pwr := { domS.pwr with vin := true }, wake := { Wake.reset with vinStayed := true } }

theorem test_no_session : ([Instr.surveyRevoke 5 1, .epochAdvance 5, .domainSwitch 5 1 1, .coldStart 5, .lowEnter 5, .alertAck 5 3, .countersClear 5].all fun i =>
    after i base (fun t => t.dev == .ready && t.survey == base.survey && t.links == base.links && t.pwr.doms == base.pwr.doms && !t.wake.low)) = true := by
  decide +kernel

theorem test_survey_revoke : acts { adminS with survey := { Survey.reset with half0 := ⟨some (headerEntry 1 1 0), [.entry ⟨6, 1, false, false, 2, 0, []⟩]⟩ } } ⟨0x30, 4, 0⟩ (.blob (natBytes 4 2)) (.surveyRevoke 5 2)
    (fun t => t.survey.revoked == [2] && t.survey.entries.length == 1) = true := by decide +kernel

theorem test_epoch_advance : acts adminS ⟨0x50, 3, 0⟩ (.num 1) (.epochAdvance 5) (fun t => t.links.advancing && t.links.epoch == 0) = true := by decide +kernel

def portA (st : PortState) : State := modPort { adminS with pwr := { adminS.pwr with doms := [(109, .on)] } } 7 fun k => { k with st := st, bv := true, bundle := 3, ver := 2 }

theorem test_port_actions : (acts (portA .admitted) ⟨0x50, 0x103, 7⟩ (.num 1) (.portResetAction 5 7) (fun t => (t.port 7).st == .resetting && (t.port 7).resets.isEmpty) &&
    acts (portA .excluded) ⟨0x50, 0x104, 7⟩ (.num 1) (.portAdmit 5 7) (fun t => (t.port 7).st == .training)) = true := by decide +kernel

theorem test_key_switch : acts (modLinks (portA .admitted) fun l => { l with keys := [(6, ⟨[1], [2]⟩), (7, ⟨[3], [4]⟩)] }) ⟨0x50, 0x203, 3⟩ (.num 1) (.bundleKeySwitch 5 3)
    (fun t => (t.port 7).keyWant == some true && (t.port 8).keyWant == none && t.out.length == 1) = true := by decide +kernel

theorem test_memory_retire : acts adminS ⟨0x60, 6, 0⟩ (.blob (natBytes 8 (hA + 0x1234))) (.memoryRetire 5 (hA + 0x1234)) (fun t =>
    (t.stack 0).cands == [1] && t.survey.entries.map (fun e => (e.type_, e.loc)) == [(0x0A, natBytes 1 0 ++ natBytes 3 0 ++ natBytes 8 (hA + 0x1000))]) = true := by decide +kernel

theorem test_partition_reset : acts (oneGroup adminS) ⟨0x40, 5, 0⟩ (.num 1) (.partitionReset 5 0) (fun t => (t.part 0).resetting && (t.grp 0).rst) = true := by
  decide +kernel

theorem test_resync : acts (modEch adminS fun e => { e with pend := -5, back := true, st := 3, src := 2 }) ⟨0x20, 0x14, 0⟩ (.num 1) (.echoResync 5)
    (fun t => t.echoM == -5 && !t.ech.back && t.ech.st == 2 && t.logBuf.map (·.code) == [0x4005]) = true := by decide +kernel

theorem test_domain_switch : (acts (modPwr adminS fun p => { p with doms := mset p.doms 9 .off }) ⟨0x10, 0x21, 9⟩ (.num 1) (.domainSwitch 5 9 1) (fun t => (t.field 1).powerUp.contains 9) &&
    acts adminS ⟨0x10, 0x21, 116⟩ (.num 0) (.domainSwitch 5 116 0) (fun t => domOf t 116 == .off && (t.stack 0).st == .off) &&
    acts (modPwr adminS fun p => { p with doms := mset p.doms 116 .off }) ⟨0x10, 0x21, 116⟩ (.num 1) (.domainSwitch 5 116 1) (fun t => (t.stack 0).st == .training)) = true := by
  decide +kernel

theorem test_domain_off : acts adminS ⟨0x10, 0x21, 9⟩ (.num 0) (.domainSwitch 5 9 0) (fun t => mfind t.pwr.trans 9 == some .off && (t.core 108).crst) = true := by
  decide +kernel

theorem test_aux_reset : acts (modAux adminS 1 fun a => { a with latch := true, st := 3, retry := 3 }) ⟨0x12, 3, 1⟩ (.num 1) (.auxReset 5 1)
    (fun t => !(t.auxCh 1).latch && (t.auxCh 1).retry == 0 && (t.auxCh 1).st != 3) = true := by decide +kernel

theorem test_starts : (acts adminS ⟨2, 3, 0⟩ (.num 1) (.coldStart 5) (fun t => t.dev == .waking && t.stage == 1 && t.mem.isEmpty && t.sessions.isEmpty) &&
    acts { adminS with dev := .held } ⟨2, 0xB, 0⟩ (.num 1) (.stateRelease 5) (fun t => t.stage == 1 && t.wake.failedStarts == 2) &&
    acts adminS ⟨2, 6, 0⟩ (.num 1) (.managementRestart 5) (fun t => t.wake.mgmt && t.sessions.isEmpty && t.dev == .ready)) = true := by decide +kernel

theorem test_w_starts_warm : mayActB adminS 5 ⟨2, 4, 0⟩ (.num 1) = true ∧ mayActB adminS 5 ⟨2, 5, 0⟩ (.num 1) = true ∧ adminS.wake.vinStayed = true := by decide +kernel

theorem test_compute_reset : after (.computeReset 5) adminS (fun t => t.dev == .waking && t.stage == 10 && t.wake.compute) = true := by decide +kernel

theorem test_w_low : MaySet adminS 5 ⟨2, 7, 0⟩ (.num 1) ∧ MaySet (modWake adminS fun w => { w with low := true }) 5 ⟨2, 7, 0⟩ (.num 0) :=
  ⟨⟨sess, rw_ 2 7 1 .bool .admin 0 1, by decide +kernel⟩, ⟨sess, rw_ 2 7 1 .bool .admin 0 1, by decide +kernel⟩⟩

theorem test_low : (after (.lowEnter 5) adminS (fun t => t.wake.low && (t.part 15).hDevice && t.dev == .ready) &&
    after (.lowExit 5) (modWake adminS fun w => { w with low := true }) (fun t => !t.wake.low)) = true := by decide +kernel

theorem test_core_reset : acts adminS ⟨0x30, 0x20, 0⟩ (.num 109) (.coreReset 5 109) (fun t => (t.core 109).crst && (t.core 109).ctl.st == .idle) = true := by decide +kernel

theorem test_fail_core : acts adminS ⟨0x30, 0x21, 0⟩ (.num 109) (.failCore 5 109) (fun t => (t.grp 9).remap == some ⟨1, false⟩ && (t.grp 9).rst) = true := by decide +kernel

theorem test_field_check : acts adminS ⟨0x30, 0x30, 0⟩ (.blob (List.replicate 112 0)) (.fieldCheck 5 (List.replicate 112 0)) (fun t => t.wake.check.st == 2) = true := by
  decide +kernel

theorem test_alert_ack : acts { adminS with lastSeq := 9 } ⟨0x80, 4, 0⟩ (.num 7) (.alertAck 5 7) (fun t => t.mgmt.alertAcked == 7) = true := by decide +kernel

def cert : Bytes := [3, 2, 0, 0] ++ List.replicate 64 9

theorem test_enroll : acts adminS ⟨0xB0, 3, 0⟩ (.blob cert) (.enroll 5 cert) (fun t => t.mgmt.slots.map (fun x => (x.1, x.2.cls)) == [(3, 2)] && t.mgmt.claimed &&
    t.logBuf.map (·.code) == [0x5005]) = true := by decide +kernel

def enrolled : State := modMgmt adminS fun m => { m with slots := [(1, ⟨2, 0, [1]⟩), (4, ⟨2, 0, [2]⟩)], claimed := true }

theorem test_slot_revoke : acts enrolled ⟨0xB0, 4, 1⟩ (.num 1) (.slotRevoke 5 1) (fun t => t.mgmt.slots.map (·.1) == [4] && t.sessions.isEmpty) = true := by decide +kernel

theorem test_security : (acts adminS ⟨0xB0, 0xB, 0⟩ (.num 1) (.factoryReset 5) (fun t => t.mgmt.factoryDue) &&
    acts { adminS with shared := [(0, { Shared.reset with totals := [(0, 5)] })] } ⟨0x90, 0x120, 0⟩ (.num 1) (.countersClear 5) (fun t => (t.blk 0).totals.isEmpty)) = true := by
  decide +kernel

/-- Bank 1 holds an image that has been downloaded. -/
def loadedFw (v : Nat) : State := modFw adminS fun f => { f with images := [(1, header 0)], svn := [(0, 1), (1, 1)], verL := some v, banks := [(0, 4), (1, 2)] }

theorem test_firmware : (acts (loadedFw 5) ⟨0xA0, 5, 0⟩ (.blob [0, 0, 0, 0]) (.firmwareActivate 5 0) (fun t => t.fw.upd == 2 && t.fw.act == some (1, 0)) &&
    acts (loadedFw 5) ⟨0xA0, 0xB, 0⟩ (.num 1) (.firmwareRevert 5) (fun t => t.fw.pending == some 1 && t.fw.trials == 1 && t.wake.mgmt) &&
    acts (loadedFw 4) ⟨0xA0, 0xB, 0⟩ (.num 1) (.firmwareRevert 5) (fun t => t.fw.pending == none && t.fw.upd == 5 && t.fw.act == some (1, 0))) = true := by decide +kernel

def trialA (h : Bool) : State := { trial 1 with sessions := [(5, sess)], fw := { (trial 1).fw with healthy := h }, cfg := mset [] (objKey 0xA0 7 0) (.num 1) }

theorem test_confirm : (acts (trialA false) ⟨0xA0, 6, 0⟩ (.num 1) (.firmwareConfirm 5) (fun t => t.fw.adminOk && t.fw.pending == some 1) &&
    acts (trialA true) ⟨0xA0, 6, 0⟩ (.num 1) (.firmwareConfirm 5) (fun t => t.fw.pending == none && t.fw.active == 1 && mget 0 t.fw.banks 1 == 4)) = true := by decide +kernel

/-! ### Further forms: the core, the scratchpad, queues and locks -/

/-- The instruction buffer of core 0 holds no line; or a command under way writes the 64 B at `lo`. -/
def noLine : State := modCtl ready 0 fun k => { k with ibuf := [] }
def writing (s : State) (lo : Nat) : State := modCore s 0 fun k => { k with sb := [⟨0, lo, lo + 63, true⟩] }

theorem test_w_miss : (canIssue noLine 0 = true ∧ bufHit noLine 0 0x100 = false ∧ sbReadStall (noLine.core 0) 0x100 64 = false ∧
      Sound noLine 0 0x100 64) ∧
    (canIssue (writing noLine 0x100) 0 = true ∧ bufHit (writing noLine 0x100) 0 0x100 = false ∧
      sbReadStall ((writing noLine 0x100).core 0) 0x100 64 = true) ∧
    (Ready ready 0 ∧ bufHit ready 0 0x140 = false ∧ sbReadStall (ready.core 0) 0x140 64 = false ∧ Sound ready 0 0x140 64) ∧
    Ready (writing ready 0x140) 0 ∧ sbReadStall ((writing ready 0x140).core 0) 0x140 64 = true := by unfold Ready Sound; decide +kernel

theorem test_miss : (after (.add 0 4 1 2) noLine (fun t => rg t 0 4 == 0 && (t.core 0).ctl.pc == 0x100) &&
    after (.insnBufferFill 0) noLine (fun t => mfind (t.core 0).ctl.ibuf 4 == some (0, List.replicate 64 0)) &&
    after (.insnBufferFill 0) (writing noLine 0x100) (fun t => (t.core 0).ctl.blk == .sb && (t.core 0).ctl.ibuf == []) &&
    after (.insnBufferFill 0) ready (fun t => (mfind (t.core 0).ctl.ibuf 5).isSome && (t.core 0).ctl.blk == .none) &&
    after (.insnBufferFill 0) (writing ready 0x140) (fun t => t.cores == (writing ready 0x140).cores)) = true := by decide +kernel

/-- Words of every format, written out by the fields of Table 6.2. -/
theorem test_words : decodeInsn 0 0b0000001_00100_00001_00010_0000000001 = some (.sub 0 4 1 2) ∧
    decodeInsn 0 0b0000010_00100_00000_11111_0000000101 = some (.tstat 0 4 0 31) ∧
    decodeInsn 0 0b0000011_00110_00100_00011_0000000001 = some (.qrecv 0 6 4 3 0) ∧
    decodeInsn 0 0b0001000_00100_00001_111111111111111 = some (.addi 0 4 1 0x7FFF) ∧
    decodeInsn 0 0b0011011_00100_00011_000000000001000 = some (.ld 0 4 3 8) ∧
    decodeInsn 0 0b0100000_00100_00011_000000000000001 = some (.sb 0 4 3 1) ∧
    decodeInsn 0 0b0110000_00001_00010_111111111111110 = some (.beq 0 1 2 0x7FFE) ∧
    decodeInsn 0 0b0111000_00100_11111111111111111111 = some (.jal 0 4 0xFFFFF) ∧
    decodeInsn 0 0b0111001_00100_00011_000000000001000 = some (.jalr 0 4 3 8) ∧
    decodeInsn 0 0b1000000_001_00111_00011_100000000000 = some (.x 0 1 7 3 0x800) := by decide +kernel

theorem test_w_words : isReservedWord 0b0000001_00100_00001_00010_0000000001 = false ∧
    encodeInsn (.sub 0 4 1 2) = some 0b0000001_00100_00001_00010_0000000001 := by decide +kernel

theorem test_word_runs : after (.reservedOpcode 0 0b0000001_00100_00001_00010_0000000001) ready (fun t => rg t 0 4 == 8) = true := by decide +kernel

theorem test_w_global_sent : ((gheld true).core 0).ctl.haltBit = false ∧ (gblk true).lost = false ∧ (gheld true).devId = 9 ∧
    ((gheld true).core 0).ctl.blk = .gacc (gblk true) := by decide +kernel

/-- A PSTREAM that awaits only its results leaves the idle count to run out. -/
def awaiting : State := pwith [{ pcmd 0 (.pstream int8Stream) with begun := true, accs := [⟨3, 0, 6⟩] }]

theorem test_w_fall : (awaiting.core 0).prs.pstate = .active ∧ (∀ f ∈ engFlights (awaiting.core 0) 0, isStream f = false ∨ f.begun = true) ∧
    (awaiting.core 0).prs.ctrlIdle ≠ 0 := by decide +kernel

theorem test_fall_awaiting : after (.pressIdleCountExpire 0) awaiting (fun t => (t.core 0).prs.pstate == .falling) = true := by decide +kernel

theorem test_w_banks : BanksHold (eccState 8) 0 0 ∧ spMark (eccState 8) 0 0x1004 = some .corrected ∧ (eccState 8).wake.mgmt = false := by
  unfold BanksHold; decide +kernel

/-- Eight rows of the bank of 0x1000 are repaired: one more takes the tile's first spare bank. -/
def spentRows : State := { eccState 8 with
  survey := { Survey.reset with half0 := ⟨some (headerEntry 1 1 0), (List.range 8).map fun i => .entry ⟨3, 2, false, false, i + 2, 0, padTo 12 [0, 0, BitVec.ofNat 8 (spKey ready 0 0x1000 / 32768), 0, BitVec.ofNat 8 (i + 100)]⟩⟩
                                nextSeq := 10 } }

theorem test_bank_spare : after (.scratchpadEccWriteback 0 0x1004) spentRows (fun t =>
    (t.survey.entries.drop 8).map (·.type_) == [3, 2]) = true := by decide +kernel

/-- The engine's one burst has failed and no other is out; or others are out. -/
def dbad (n : Nat) : State := drun .copy dcopy { DmaEng.reset with row := 1, bursts := (List.range n).map fun i => { burst0 with k := i, status := some (if i = 0 then 6 else 0) } }

theorem test_w_dma_bad : (curDma ((dbad 2).core 0) 1).isSome = true ∧ ((dbad 2).core 0).eng 1 = { DmaEng.reset with row := 1, bursts := [{ burst0 with k := 0, status := some 6 }, { burst0 with k := 1, status := some 0 }] } := by
  decide +kernel

theorem test_dma_bad : after (.dmaBurstAck 0 1 0 0) (modCore (dbad 2) 0 fun k => { k with sb := [⟨4, 0x1000, 0x103F, false⟩, ⟨4, 0x8000, 0x803F, true⟩] }) (fun t =>
    ((t.core 0).eng 1).bad == some 6 && (t.core 0).sb == [⟨4, 0x8000, 0x803F, true⟩]) = true := by decide +kernel

/-- A QSEND's message waits for credit at queue 0x2A5 of device 4, or for a waiter record there. -/
def sentFar (st : MsgSt) : State := sentBy (.ctl 0) false [⟨.remote 4 0x2A5, st⟩]

theorem test_w_grant_far : (sendOf (sentFar .waiting) (.ctl 0)).map (·.members) = some [⟨.remote 4 0x2A5, .waiting⟩] ∧ 4 ≠ (sentFar .waiting).devId ∧
    isOrphan (.ctl 0) = false := by decide +kernel

theorem test_grant_far : (after (.queueGrantArrive (.path (.ctl 0) 0) 77) (sentFar .waiting) (fun t => memberOf t (.ctl 0) == some .granted && leaves t == [(4, 4, 0x2A5, 0)]) &&
    after (.waiterRetryTimer (.ctl 0) 0) (sentFar .unrecorded) (fun t => memberOf t (.ctl 0) == some .sent && leaves t == [(4, 4, 0x2A5, 0)])) = true := by decide +kernel

theorem test_w_recv_rule : sbWriteStall (recvHeld.core 0) 0x1000 32 = false ∧ (∀ m ms, ((held.core 0).que.q 5).msgs = m :: ms → m.len ≤ 16) := by
  refine ⟨by decide +kernel, ?_⟩
  intro m ms h
  have e : ((held.core 0).que.q 5).msgs = [⟨0, 2, ⟨2, 7, 9, false, false, 0, true⟩⟩] := by decide +kernel
  rw [e] at h
  cases h
  decide

/-- Core 1 of this device, halted, asks for a lock that core 2 of device 4 holds. -/
def haltedAsk : State := { modCore base 1 (fun k => { k with
    ctl := { k.ctl with st := .halted }
    flights := [{ newFlight 4 0 ⟨iss 7, .lock .acq lockD⟩ with begun := true }] }) with devId := 9, locks := [(100, ⟨.held (who 2), []⟩)] }

theorem test_w_lock_halted : (haltedAsk.core 1).ctl.st = .halted ∧ haltedAsk.devId = 9 ∧ haltedAsk.lock 100 = ⟨.held (who 2), []⟩ ∧
    lockReqReal haltedAsk 100 ⟨.acq, 9, 1, 0, false⟩ = true ∧ lockAdmits haltedAsk 100 ⟨.acq, 9, 1, 0, false⟩ = true := by decide +kernel

theorem test_lock_parity : (after (.lockRequestArrive 100 ⟨true, []⟩) (lockS ⟨.held (who 1), []⟩) (fun t => t.lock 100 == ⟨.abandoned, []⟩ && t.logBuf.map (·.code) == [0x0B]) &&
    after (.lockRequestArrive 100 ⟨true, []⟩) (lockS ⟨.held (who 1), [who 2, who 3]⟩) (fun t => t.lock 100 == ⟨.held (who 2), [who 3]⟩)) = true := by decide +kernel

/-! ### Further forms: the mesh and the links -/

/-- Router 14 of field 0 has sent 16 flits east on VC0 that have not been taken; crossing 0 of seam 0 is being quiesced. -/
def noCredit : State := modMsh mready 0 fun m => { m with used := [(creditKey 14 .a .east false, 12)] }
def bulk : Packet := ⟨1, .bulk, 0, 4096, false, .local_, .core 103, 0, none, false, 0⟩

theorem test_w_credit : bulk.plane = .a ∧ bulk.flits = 65 ∧ { bulk with burst := 3 }.plane = .b ∧ hopOf mready 0 14 bulk = .go .east false false ∧
    bufOf mready 0 14 = [] ∧ linkOpen mready 0 14 .a .east = true ∧ creditsOf noCredit 0 14 .a .east false 65 = 4 ∧ clsOf mready bulk = 0 ∧
    bulk.flits ≤ 16 * weightOf mready 0 0 ∧ linkOpen (modSeam mready 0 0 fun k => { k with quiet := true }) 0 12 .a .east = false ∧
    hopOf (modSeam mready 0 0 fun k => { k with quiet := true }) 0 12 (pkt (.core 103) false) = .go .east false false := by decide +kernel

theorem test_credit_flow : (after (.packetRoute 0 14 [bulk] []) noCredit (fun t => t.out == [.mesh 14 .east false bulk] && bufOf t 0 14 == [⟨bulk, 61, some (.east, false)⟩]) &&
    after (.packetRoute 0 14 [{ pkt (.core 103) false with inp := .west }] []) (modMsh mready 0 fun m => { m with bufs := [(14, [⟨bulk, 61, some (.east, false)⟩])], used := [(creditKey 14 .a .east false, 16)] }) (fun t =>
      t.out.isEmpty && (bufOf t 0 14).length == 2) &&
    after (.packetRoute 0 12 [pkt (.core 103) false] []) (modSeam mready 0 0 fun k => { k with quiet := true }) (fun t =>
      t.out.isEmpty && bufOf t 0 12 == [⟨pkt (.core 103) false, 1, none⟩])) = true := by decide +kernel

theorem test_w_drain : ({ mready with wake := { mready.wake with compute := true } } : State).wake.drained = false ∧ routerDead mready 0 58 = false := by decide +kernel

theorem test_w_gate_again : ∃ s r, s.wake.start = some r ∧ r.warm = false ∧ isLive s 9 (padTo 12 [7]) = true ∧
    (∀ e ∈ liveEntries s 9 (padTo 12 [7]), e.prov = true ∧ e.seq < r.seq0) ∧ s.survey.room = true ∧ s.wake.mgmt = false :=
  ⟨{ base with
      wake := { base.wake with start := some ⟨false, 0, 9⟩ }
      survey := { Survey.reset with half0 := ⟨some (headerEntry 1 1 0), [.entry ⟨9, 1, false, true, 2, 0, padTo 12 [7]⟩]⟩, nextSeq := 9 } },
    ⟨false, 0, 9⟩, by decide +kernel⟩

/-- Port 7 has failed its gate in an earlier cold start, as a provisional entry says. -/
theorem test_gate_again : after (.berGateEnd 7 [(1, 99999)]) { portS (fun k => { k with st := .gate }) with
      wake := { base.wake with start := some ⟨false, 0, 9⟩ }
      survey := { Survey.reset with half0 := ⟨some (headerEntry 1 1 0), [.entry ⟨9, 1, false, true, 2, 0, padTo 12 [7]⟩]⟩, nextSeq := 9 } } (fun t =>
    st7 t == .excluded && t.survey.entries.map (fun e => (e.seq, e.prov)) == [(2, true), (9, false)]) = true := by decide +kernel

/-- Port 7, past its gate, is in a bundle with encryption. -/
def sealedS : State := { portS (fun k => { gated k with bv := true, bundle := 3 }) with cfg := mset [] (objKey 0x50 0x0201 3) (.num 1) }

theorem test_w_train : bundleSealed sealedS 7 = true ∧ (sealedS.port 7).tagAt.length < 16 ∧ (sealedS.port 7).eth = false ∧ bundleSealed (portS gated) 7 = false := by
  decide +kernel

theorem test_train_checks : (after (.trainFrame 7 ⟨{ bareFrame 4 0 with crcOk := false }, tbody⟩) (portS gated) (fun t => t.links == (portS gated).links) &&
    after (.trainFrame 7 ⟨{ bareFrame 4 0 with tagOk := false }, tbody⟩) sealedS (fun t => st7 t == .gate && (t.port 7).tagf == 1) &&
    after (.trainFrame 7 ⟨{ bareFrame 4 0 with enc := true }, { tbody with vmask := 2 }⟩) sealedS (fun t => st7 t == .admitted && (t.port 7).enc)) = true := by decide +kernel

theorem test_cmis_setup : after (.cmisPoll 1 [none, none, some ⟨true, true, false, []⟩]) (portS up) (fun t => st7 t == .admitted && (t.port 7).modInit &&
    t.out == [.cmis 1 2 .channel, .cmis 1 2 .application, .cmis 1 2 .highPower, .cmis 1 2 .dataPath]) = true := by decide +kernel

/-- Bundle 1 belongs to partition 5; device 6 is reached by it; core 3 is in field 0. -/
def injected : State := { routed with cfg := mset [] (objKey 0x50 0x0200 1) (.num 5) }

theorem test_w_inject : rtEntry injected.links 8 0 6 = 0x81000000 ∧ badEntry injected 0 8 6 = false ∧ bundleOwner injected 1 = 5 ∧
    fieldOf 3 = 0 ∧ isRequest 6 = true ∧ injected.links.epochOf 8 = 0 := by decide +kernel

theorem test_inject : after (.linkPacketRoute ⟨1, 5⟩ false { transit 6 with score := 3, spart := 0 }) injected (fun t => t.out == [.answer 4 77 3 []]) = true := by decide +kernel

/-- Device 5 is reached by bundle 2, of Ethernet ports, one of which is admitted; it is in the table of peers. -/
def ethRouted : State := { ethS id with
  links := { (ethS id).links with rt0 := [(5, 0x82000000)] }
  cfg := mset [] (objKey 0x50 0x0300 0) (.blob (natBytes 2 5 ++ List.replicate 22 7)) }

/-- An unordered read of device 5. -/
def reading : LinkPkt := { transit 5 with opc := 1 }

theorem test_w_eth_out : inPeers ethRouted 5 = true ∧ bundlePort ethRouted 2 reading = some 7 ∧ (ethRouted.port 7).eth = true ∧
    (ethRouted.conn 2 5).dead = false ∧ bundlePorts ethRouted 2 = [7] ∧ rtEntry ethRouted.links 1 0 5 = 0x82000000 := by decide +kernel

theorem test_eth_out : after (.linkPacketRoute ⟨1, 2⟩ false reading) ethRouted (fun t => (match t.out with
      | [.ethData h k] => h.port == 7 && h.peer == 5 && h.psn == 0 && h.hop == 64 && k == { reading with hops := 3 }
      | _ => false) && (t.conn 2 5).unacked == [(0, { reading with hops := 3 })] && (t.conn 2 5).txPsn == 1) = true := by decide +kernel

theorem test_eth_mac : after (.ethDataPacket 7 2 4 { epkt 0 with mac := true }) (ethS id) (fun t => (t.port 7).macCtl == 1 && t.out.isEmpty && (t.conn 2 4).rxPsn == 0) = true := by
  decide +kernel

/-- A CNP makes an unreachable peer reachable again; a request acknowledged but not answered ends with its peer. -/
theorem test_eth_peer : (after (.cnp 2 4 256) (ethS fun c => { c with dead := true }) (fun t => !(t.conn 2 4).dead) &&
    after (.ethRto 2 4) (ethS fun c => { c with resends := 7, unacked := [(0, lpkt)], open_ := [{ lpkt with rtag := 79 }] }) (fun t =>
      t.out == [.answer 4 77 7 [], .answer 4 79 7 []])) = true := by decide +kernel

/-! ### Further forms: memory, the host, power, starts and management -/

theorem test_w_hbm_forms : hbmPieces (hmemS id) (hA + 0x100) 4 = [(0, 4)] ∧ hbmNeed (hmemS id) (hA + 0x100) 4 0 = 4 ∧
    ((hmemS id).stack 0).waiting = [] ∧ 4 ≤ ((hmemS id).stack 0).tokens ∧ hbmCheck (hmemS id) (some 0) (hA + 0x100) 4097 = .ok ∧
    ((hmemS fun k => { k with tokens := 3 }).stack 0).tokens < 4 := by decide +kernel

/-- R331, R342, R345 and Table 10.1: sizes, self-refresh, tokens, and a command whose parity failed once. -/
theorem test_hbm_forms : (after (.hbmRequest { hread with remote := true }) (hmemS id) (fun t => t.cntDenied == 1 && t.out == [.memData (.core 0) (hA + 0x100) 3 [] []]) &&
    after (.hbmRequest { hread with len := 4097 }) (hmemS id) (fun t => t.cntSize == 1 && t.out == [.memData (.core 0) (hA + 0x100) 3 [] []]) &&
    after (.hbmRequest { hread with parity := true }) (hmemS fun k => { k with sref := true }) (fun t => (t.stack 0).ce == 1 && !(t.stack 0).sref &&
      (t.stack 0).tokens == ((hmemS id).stack 0).tokens - 4)) = true := by decide +kernel

/-- A burst of core 0 reads stack 0; a load of core 0 reads it. -/
def bursting : State := modPwr (modStack (drun .copy dcopy { DmaEng.reset with bursts := [{ burst0 with src := 0x010000000100 }] }) 0 fun k => { k with st := .ready })
  fun p => { p with doms := [(116, .on)] }
def loading : State := modCtl domS 0 fun k => { k with st := .running, blk := .gacc { gblk true with addr := 0x010000000100 } }

theorem test_w_stack_lost : hitsStack bursting 0x010000000100 8 0 = true ∧ hitsStack loading 0x010000000100 4 0 = true ∧ hitsStack loading 0x010000000100 4 1 = false ∧
    (∀ g, (bursting.core 0).ctl.blk ≠ .gacc g) := ⟨by decide +kernel, by decide +kernel, by decide +kernel, fun g h => Blk.noConfusion h⟩

theorem test_stack_lost : ([Instr.hbmChannelFail 0 3, .domainTrip 116].all (fun i =>
      after i bursting (fun t => ((t.core 0).eng 1).bursts.map (·.status) == [some 8]) &&
      after i loading (fun t => match (t.core 0).ctl.blk with
        | .gacc g => g.lost
        | _ => false)) &&
    acts { bursting with sessions := [(5, sess)] } ⟨0x10, 0x21, 116⟩ (.num 0) (.domainSwitch 5 116 0) (fun t =>
      ((t.core 0).eng 1).bursts.map (·.status) == [some 8] && (t.stack 0).st == .off)) = true := by decide +kernel

/-! BAR2 (R350, R351, R353, R354). -/

def smallBar : State := modFn (hostS id) 0 0 fun k => { k with bar2 := 20 }
def fnOf (t : State) : HostFn := (t.host 0).fn 1

theorem test_w_bar_forms : barAddr smallBar 0 0 0xFFFFF = some (hA + 0xFFFFF) ∧ barAddr smallBar 0 0 0x100000 = none ∧
    hbmCheck (hostS fun g => g) none hA 4 = .ok ∧ hbmCheck (modStack (hostS id) 0 fun k => { k with retired := [0] }) none (hA + 0x100) 4 ≠ .ok ∧
    (fnOf (hostS id)).masked 4 = false ∧ (fnOf (modFn (hostS id) 0 1 fun k => { k with msix := [] })).masked 4 = true := by decide +kernel

theorem test_bar_forms : (after (.bar2Read 0 1 0x100 ⟨4, false⟩) (modStack (hostS id) 0 fun k => { k with tokens := 3 }) (fun t =>
      t.out.isEmpty && (t.stack 0).waiting.map (fun w => (w.bar, w.req.addr, w.req.len)) == [(some 0x100, hA + 0x100, 4)]) &&
    after (.bar2Read 0 1 0x100 ⟨4, false⟩) (modStack (hostS id) 0 fun k => { k with retired := [0] }) (fun t =>
      t.out == [.hostData 0 1 0x100 false false []] && (fnOf t).drop == 1) &&
    after (.bar2Read 0 1 0x100 ⟨4097, false⟩) (hostS id) (fun t => t.out == [.hostData 0 1 0x100 false false []] && (fnOf t).aer.testBit 20) &&
    after (.bar2Read 0 1 0x100 ⟨4, true⟩) (hostS id) (fun t => t.out == [.hostData 0 1 0x100 false false []]) &&
    after (.bar2Write 0 1 0x100 (List.replicate 513 1) false) (hostS id) (fun t => hbmByte t (hA + 0x100) == 9 && (fnOf t).aer.testBit 18) &&
    after (.bar2Write 0 1 0x100 [5] true) (hostS id) (fun t => hbmByte t (hA + 0x100) == 5 && mfind t.marks (hbmKey 0 0x100) == some .poisoned &&
      (fnOf t).drop == 1 && (fnOf t).aer.testBit 12)) = true := by decide +kernel

/-- R365: CAUSE 3 stays; a masked vector is pending. -/
theorem test_ring_forms : (after (.sqtailWrite 0 1 1 16) (hostS fun g => { g with err := true, cause := 3 }) (fun t => (ringOf t 0 1 1).cause == 3) &&
    after (.sqtailWrite 0 1 1 16) (modFn (hostS id) 0 1 fun k => { k with msix := [] }) (fun t => t.out.isEmpty && (fnOf t).pba == 16) &&
    after (.sqtailWrite 0 1 1 16) (hostS fun g => { g with en := false }) (fun t => (ringOf t 0 1 1).err && (ringOf t 0 1 1).cause == 1)) = true := by decide +kernel

/-- R345: a fetch for which stack 0 has no tokens takes nothing. -/
theorem test_fetch_tokens : after (.launchFetch 0) (modStack (rec2 1) 0 fun k => { k with tokens := 127 }) (fun t => t.launches.isEmpty && (ringOf t 0 1 1).sqhead == 2) = true := by
  decide +kernel

/-! The echo, a power-controller die, the governor and lending. -/

/-- R384: field 4's delay adds what field 7's is. -/
theorem test_delays : after (.echoDelayMeasure 4 5) (modField { clkS with pwr := { clkS.pwr with doms := [(100, .on)] } } 7 fun k => { k with dly := 100 }) (fun t =>
    (t.field 4).dly == 105) = true := by decide +kernel

/-- R20: the power-controller die of fields 0, 1 and 3 stops all three. -/
theorem test_die_trip : after (.stageTrip (.die 0)) (modPwr domS fun p => { p with doms := mset p.doms 17 .on }) (fun t => domOf t 9 == .tripped && domOf t 17 == .on &&
    (t.field 3).vcore == 0 && (t.field 1).vcore == 0) = true := by decide +kernel

/-- R22: a boosted field comes down as the average reaches the limit. -/
def boosting : State := modField (gov [1000]) 1 fun k => { k with target := 80, step := 80 }

theorem test_w_boost : avg10 boosting = limitNow boosting ∧ stepWanted boosting 1 = 80 ∧ boosting.pwr.bladeOver = false ∧ Config.nominalStep < 80 := by
  refine ⟨by decide +kernel, by decide +kernel, by decide +kernel, ?_⟩
  unfold Config.nominalStep; cases Config.profileIsL <;> decide

/-- R424: a member that has not confirmed a decrease counts with its old limit in the next round. -/
theorem test_lend_again : after (.lendRound two) (modPwr (lending 9) fun p => { p with lowered := [(4, 2100)] }) (fun t =>
    t.pwr.lowered == [(4, 2100)] && t.pwr.raises.isEmpty && t.out == [.lend 4 6 2000]) = true := by decide +kernel

/-! Starts, failures and halts. -/

/-- R572: both candidates for field 5's field router are dead. -/
def noRouter : State := modGrp (modGrp (waking false 4) 44 fun k => { k with rdead := 2 ^ 6 }) 43 fun k => { k with rdead := 2 ^ 6 }

theorem test_no_router : noFieldRouter noRouter 5 = true ∧
    after (.coldStartStageEnd noOutcome) noRouter (fun t => domOf t 101 == .tripped && domOf t 102 == .on) = true := by decide +kernel

/-- R38: the tile's core takes the clock of its router with it. -/
theorem test_core_clock : after (.coreFailDetected ⟨109, true⟩) domS (fun t => (t.grp 9).remap == some ⟨1, false⟩ && (t.grp 9).rdead == 2 && (t.grp 9).tdead == 2 &&
    t.wake.compute && t.survey.entries.map (fun e => (e.type_, e.loc.take 3)) == [(1, [14, 1, 3])]) = true := by decide +kernel

/-- R196: a halt leaves a load that is out to its completion. -/
theorem test_halt_gacc : after (.haltArrive 0) (modCtl halting 0 fun k => { k with blk := .gacc (gblk true) }) (fun t => (t.core 0).ctl.haltBit &&
    (t.core 0).ctl.st == .running) = true := by decide +kernel

/-- R47: a compaction begins in the half that is not current. -/
theorem test_compaction_begins : (let t := compactStep true fullSurvey
    t.survey.compacting && t.survey.gen == fullSurvey.survey.gen && t.survey.half1 == ⟨none, []⟩) = true := by decide +kernel

/-! Images on trial, and sampled records. -/

/-- Bank 1 passes and asks for a trial by its kind. -/
def passing (v warm : Nat) (now : Nat) : State := modFw { verifying v with wake := { Wake.reset with vinStayed := true } } fun f =>
  { f with act := some (1, now), images := [(1, header (BitVec.ofNat 8 warm))] }

theorem test_w_kinds : actKind (passing 5 1 0) 1 = 1 ∧ actKind (passing 4 0 0) 1 = 2 ∧ (2).testBit 1 = true ∧ imageCheck (passing 5 1 0) 1 true true = 0 ∧
    imageCheck (passing 4 0 2) 1 true true = 0 ∧ imageCheck (passing 4 0 0) 1 true true = 0 := by
  unfold imageCheck; cases Config.profileIsL <;> decide +kernel

/-- Bank 1 is on trial through a warm start. -/
def trialWarm : State := modFw { trial 1 with wake := { Wake.reset with vinStayed := true } } fun f => { f with trialKind := 1 }

theorem test_w_trial_warm : trialWarm.fw.pending = some 1 ∧ trialWarm.fw.phase = 1 ∧ trialWarm.fw.trialKind = 1 ∧ trialWarm.wake.vinStayed = true ∧
    trialWarm.dev = .ready := by decide +kernel

theorem test_trial_cold : after .trialTimeout (modFw (trial 2) fun f => { f with trialKind := 2 }) (fun t => t.dev == .waking && t.stage == 1 && !t.wake.mgmt &&
    t.fw.pending == none) = true := by decide +kernel

/-- R525 to R547: each of them completes. -/
theorem test_complete : ([Instr.firmwareVerifyDone true true, .trialHealth true true, .trialTimeout, .counterWrap (.core 0 2) 1, .sampleRecord 0].all fun i =>
    after i base (fun _ => true)) = true := by decide +kernel

/-- The sampler's ring is in stack 0. -/
def sampleHbm (n : Nat) : State := modStack (sampling fun m => { m with dst := true, base := hA }) 0 fun k => { k with st := .ready, tokens := n }

theorem test_w_record : hbmCheck (sampleHbm 32) (reqPart (sampleHbm 32) 0) (smpSlot ((sampleHbm 32).core 0).cnt.smp) 32 = .ok ∧
    hbmPieces (sampleHbm 32) (smpSlot ((sampleHbm 32).core 0).cnt.smp) 32 = [(0, 32)] := by decide +kernel

theorem test_record_hbm : (after (.sampleRecord 0) (sampleHbm 32) (fun t => (t.core 0).cnt.smp.head == 18 && (t.core 0).cnt.smp.due.isEmpty &&
      (List.range 32).all (fun i => hbmByte t (smpSlot ((sampleHbm 32).core 0).cnt.smp + i) == BitVec.ofNat 8 i)) &&
    after (.sampleRecord 0) (sampleHbm 31) (fun t => (t.core 0).cnt.smp.head == 17 && (t.core 0).cnt.smp.due.length == 1)) = true := by decide +kernel

/-- R256: one SET that gives block 5 to two partitions changes nothing. -/
theorem test_double_set : after (.set_ h3 [⟨⟨0x40, 0x30, 1⟩, 9, .num 32⟩, ⟨⟨0x40, 0x30, 2⟩, 9, .num 32⟩]) sS (fun t => nextIs t 4 && t.cfg.isEmpty && t.chanOwner == sS.chanOwner &&
    t.lockOwner == sS.lockOwner) = true := by decide +kernel

/-! ### The queue, reset, well-formedness -/

theorem test_w_step : ∃ c rest, ({ base with pending := [.nop 0 0 0 0, .coldRstRelease 0] } : State).pending = c :: rest := ⟨_, _, rfl⟩

theorem test_step : (match step { base with pending := [.haltNAssert 39, .coldRstRelease 0] } with
    | .next t => t.pending == [.coldRstRelease 0] && t.now == 0
    | _ => false) = true ∧
    (match step base with
    | .next t => t.now == 1 && t.echoM == 1 && t.pending.isEmpty
    | _ => false) = true := by decide +kernel

theorem test_reset : State.reset.pending = [] ∧ MemInv State.reset ∧ State.reset.dev = .standby ∧ domOf State.reset 134 = .on ∧
    (State.reset.core 1151).ctl.gtmo = 20000 ∧ State.reset.fw.banks = [(0, 4), (1, 2)] := by unfold MemInv; decide +kernel

theorem test_no_words : decodeTableWord 32 5 = none ∧ (base.withFetchWord 32 5).pending = [] := by decide

/-- One command of a unit that does not exist for each check of WellFormed. -/
theorem test_ill_formed : (([.add 1152 0 0 0, .pllLock 12, .packetRoute 0 104 [] [], .remapDone 96, .partitionReset 0 16, .portAdmit 0 40,
    .cmisPoll 8 [], .bundleKeySwitch 0 16, .peerMgmtPacket 16384 (.spdm .getVersion), .hbmRateTokens 16, .fieldCheckUnitDone 768 [], .launchFetch 2,
    .bar2Read 0 17 0 ⟨4, false⟩, .msixCoalesceTimer 0 0 4, .domainTrip 136, .auxTrip 6, .mgmtNetworkProbe 2 .arp [], .lockRequestArrive 3072 ⟨false, []⟩,
    .crossingQuiesced 5 0 [], .sharedCntCtlWrite .carafe 1248 0, .ethAck 16 0 0, .launchTargetReport 0 1152, .vfFlr 2 0] : List Instr).all
    (fun i => !i.wf)) = true := by decide

theorem test_well_formed : (([.add 1151 0 0 0, .pllLock 11, .packetRoute 0 103 [] [], .sharedCntCtlWrite .carafe 3015 0, .bar2Read 1 16 0 ⟨4, false⟩] : List Instr).all
    (fun i => i.wf)) = true := by decide

/-! ### Worked examples of the specification -/

/-- Example 2.1: field 7's FLD_GMAP2 reads SKIP 3 for one dead tile, so core 701 sits at tile (19, 18). -/
def ex21 : State := modGrp base 58 fun k => { k with skip := 3, tdead := 8 }

theorem test_example_2_1 : tileX ex21 701 = 19 ∧ tileY 701 = 18 ∧ gmapWord (ex21.grp 58) = 0x40000083 ∧ spKey base 701 0 = 0x57A00000 := by decide +kernel

/-- Table 5.2: bank and row of three offsets in the default and in near mode. -/
theorem test_table_5_2 : ([0x1040, 0x12340, 0x1FFFC0].map fun a => (spdPhys false false a / 32768, spdPhys false false a % 32768 / 64,
      spdPhys true false a / 32768, spdPhys true false a % 32768 / 64)) =
    [(0, 0x001, 5, 0x004), (31, 0x012, 1, 0x048), (56, 0x1FF, 46, 0x1FF)] := by decide +kernel

/-- Example 10.1: stack, channel, pseudo-channel, edge router, in home mode and with row 0 in spread mode. -/
theorem test_example_10_1 : hbmLoc base 0x012400503A40 = (3, 0x503A40) ∧ hbmChan 0x503A40 = (10, 1) ∧ hbmRouter 0x503A40 = 3 ∧
    hbmLoc (modPart base 0 fun p => { p with spread := true }) 0x012400503A40 = (15, 0x503A40) ∧
    hbmLoc (modPart base 0 fun p => { p with spread := true }) 0x012400503B40 = (14, 0x503B40) := by decide +kernel

/-- Example 11.1: VF3's BAR2 offset 0x4_0000_1000 is stack 3, unit 0. -/
theorem test_example_11_1 : barAddr { base with hbmOwner := (List.range 768).map (fun u => (u, if (96 ≤ u ∧ u < 112) ∨ (144 ≤ u ∧ u < 160) then some 3 else some 0)), groups := [(24, { Group.reset with part := some 3 })] } 0 4 0x400001000 = some 0x012400001000 := by decide +kernel

/-- Table 3.11: the products of the listed rows and the running sum after each, with the flags that they raise. -/
theorem test_example_3_2 : pressMul (e4m3.decode 0x7E) (e4m3.decode 0x7E) (some 0) = (0x48440000, 0) ∧ pressAdd 0 0x48440000 = (0x48440000, 0) ∧
    pressMul (e4m3.decode 0x01) (e4m3.decode 0x38) (some 0) = (0x3B000000, 0) ∧ pressAdd 0x48440000 0x3B000000 = (0x48440000, fIX) ∧
    pressMul (e4m3.decode 0x81) (e4m3.decode 0x38) (some 0) = (0xBB000000, 0) ∧ pressAdd 0x48440000 0xBB000000 = (0x4843FFFF, fIX) ∧
    pressMul (e4m3.decode 0x40) (e4m3.decode 0x44) (some 130) = (0x7F800000, fOV ||| fIX) ∧ pressAdd 0x4843FFFF 0x7F800000 = (0x7F800000, 0) ∧
    pressMul (e4m3.decode 0x7F) (e4m3.decode 0x38) (some 0) = (0x7FC00000, 0) ∧ pressAdd 0x7F800000 0x7FC00000 = (0x7FC00000, 0) ∧
    pressMul (e4m3.decode 0x48) (e4m3.decode 0xC0) (some 0) = (0xC1000000, 0) ∧ pressAdd 0x7FC00000 0xC1000000 = (0x7FC00000, 0) := by decide +kernel

end Sys2Proof.Tests
end

section
/-!
SUPPORT. Requests at a scratchpad (O26, R157 to R161): where offsets lie in the banks, what a read and a write of sound words
do, what counts and records leave alone, and the outcomes of a request in remote form and of one in local form.
-/

namespace Sys2Proof.Machine

/-! ### Where offsets lie in the banks (R138 to R140) -/

/-- The bank, row and byte of a place in the banks. -/
theorem place_parts {row byte : Nat} (bank : Nat) (hr : row < 512) (hb : byte < 64) :
    (bank * 32768 + row * 64 + byte) / 32768 = bank ∧ (bank * 32768 + row * 64 + byte) / 64 % 512 = row ∧
      (bank * 32768 + row * 64 + byte) % 64 = byte := by omega

/-- The two foldings of row bits into a bank number cancel when they are applied again. -/
theorem xor_pair_cancel (m x y : Nat) : m ^^^ x ^^^ y ^^^ x ^^^ y = m := by
  rw [Nat.xor_right_comm (m ^^^ x) y x, Nat.xor_xor_cancel_right, Nat.xor_xor_cancel_right]

theorem spdOff_spdPhys_default {a : Nat} (h : a < 2 ^ 21) : spdOff false false (spdPhys false false a) = a := by
  obtain ⟨hbank, hrow, hbyte⟩ := place_parts (row := bits a 20 12) (byte := a % 64)
    (bits a 11 6 ^^^ bits a 17 12 ^^^ bits a 20 18 * 8) (by simp only [bits]; omega) (Nat.mod_lt _ (by decide))
  have hlow : bits a 20 12 % 64 = bits a 17 12 := by simp only [bits]; omega
  have hhigh : bits a 20 12 / 64 = bits a 20 18 := by simp only [bits]; omega
  simp only [spdOff, spdPhys, Bool.false_eq_true, if_false, hbank, hrow, hbyte, hlow, hhigh, xor_pair_cancel]
  simp only [bits]
  omega

/-- The near region of near mode, banks 0 to 15. -/
theorem spdOff_spdPhys_near {a : Nat} (h : a < 0x80000) : spdOff true false (spdPhys true false a) = a := by
  obtain ⟨hbank, hrow, hbyte⟩ := place_parts (row := bits a 18 10) (byte := a % 64)
    (bits a 9 6 ^^^ bits a 13 10 ^^^ bits a 17 14) (by simp only [bits]; omega) (Nat.mod_lt _ (by decide))
  have hlow : bits a 18 10 % 16 = bits a 13 10 := by simp only [bits]; omega
  have hhigh : bits a 18 10 / 16 % 16 = bits a 17 14 := by simp only [bits]; omega
  have hlt : bits a 9 6 ^^^ bits a 13 10 ^^^ bits a 17 14 < 16 :=
    Nat.xor_lt_two_pow (n := 4) (Nat.xor_lt_two_pow (n := 4) (Nat.mod_lt _ (by decide)) (Nat.mod_lt _ (by decide)))
      (Nat.mod_lt _ (by decide))
  simp only [spdOff, spdPhys, Bool.false_eq_true, if_false, if_true, h, hbank, hrow, hbyte, hlow, hhigh, hlt, xor_pair_cancel]
  simp only [bits]
  omega

/-- The rest of near mode, banks 16 to 63. -/
theorem spdOff_spdPhys_far {a : Nat} (hlo : 0x80000 ≤ a) (h : a < 2 ^ 21) : spdOff true false (spdPhys true false a) = a := by
  obtain ⟨hbank, hrow, hbyte⟩ := place_parts (row := (a - 0x80000) / 3072) (byte := a % 64)
    (16 + ((a - 0x80000) % 3072 / 64 + (a - 0x80000) / 3072) % 48) (by omega) (Nat.mod_lt _ (by decide))
  have hge : ¬ 16 + ((a - 0x80000) % 3072 / 64 + (a - 0x80000) / 3072) % 48 < 16 := by omega
  simp only [spdOff, spdPhys, Bool.false_eq_true, if_false, if_true, Nat.not_lt.2 hlo, hbank, hrow, hbyte, hge]
  omega

/-- R138 to R140: `spdOff` undoes `spdPhys`, in every mode. -/
theorem spdOff_spdPhys (near lin : Bool) {a : Nat} (h : a < 2 ^ 21) : spdOff near lin (spdPhys near lin a) = a := by
  match near, lin with
  | near, true => simp [spdOff, spdPhys]
  | false, false => exact spdOff_spdPhys_default h
  | true, false =>
    by_cases hlo : a < 0x80000
    · exact spdOff_spdPhys_near hlo
    · exact spdOff_spdPhys_far (Nat.not_lt.1 hlo) h

/-- Two offsets of one scratchpad have two keys. -/
theorem spKey_ne (s : State) (c : Nat) {a b : Nat} (ha : a < 2 ^ 21) (hb : b < 2 ^ 21) (h : a ≠ b) :
    spKey s c a ≠ spKey s c b := by
  intro e
  rw [spKey, spKey, Nat.mod_eq_of_lt ha, Nat.mod_eq_of_lt hb] at e
  have hphys := Nat.add_left_cancel e
  exact h (by rw [← spdOff_spdPhys _ _ ha, hphys, spdOff_spdPhys _ _ hb])

/-- A key lies in the range of its core. -/
theorem spKey_base_add (s : State) (c off : Nat) : c * 2 ^ 21 + (spKey s c off - c * 2 ^ 21) = spKey s c off := by
  rw [spKey, Nat.add_sub_cancel_left]

/-! ### A byte string written to a scratchpad -/

/-- A byte string written changes memory alone. -/
theorem spPuts_eq (s : State) (c off : Nat) (bs : Bytes) : spPuts s c off bs = { s with mem := (spPuts s c off bs).mem } := by
  induction bs generalizing s off with
  | nil => rfl
  | cons b bs ih => rw [spPuts, ih]; rfl

@[simp] theorem spPuts_cores (s : State) (c off : Nat) (bs : Bytes) : (spPuts s c off bs).cores = s.cores := by
  rw [spPuts_eq]

@[simp] theorem core_spPuts (s : State) (c off k : Nat) (bs : Bytes) : (spPuts s c off bs).core k = s.core k := by
  rw [State.core, spPuts_cores, ← State.core]

@[simp] theorem spPuts_out (s : State) (c off : Nat) (bs : Bytes) : (spPuts s c off bs).out = s.out := by
  rw [spPuts_eq]

@[simp] theorem spKey_spPuts (s : State) (c off x : Nat) (bs : Bytes) : spKey (spPuts s c off bs) c x = spKey s c x := by
  rw [spPuts_eq]; rfl

@[simp] theorem spMark_spPuts (s : State) (c off x : Nat) (bs : Bytes) : spMark (spPuts s c off bs) c x = spMark s c x := by
  rw [spPuts_eq]; rfl

theorem spPuts_append (s : State) (c off : Nat) (as bs : Bytes) :
    spPuts s c off (as ++ bs) = spPuts (spPuts s c off as) c (off + as.length) bs := by
  induction as generalizing s off with
  | nil => rfl
  | cons a as ih => simp [spPuts, ih, Nat.add_assoc, Nat.add_comm 1]

/-- A byte string written leaves the bytes at every other key alone. -/
theorem spPuts_frame (s : State) (c off : Nat) (bs : Bytes) (h : MemInv s) : SpFrame s (spPuts s c off bs) c off bs.length := by
  induction bs generalizing s off with
  | nil => exact fun _ _ => rfl
  | cons b bs ih =>
    intro x hx
    have hhead : x ≠ spKey s c off := hx 0 (Nat.succ_pos _)
    have htail : ∀ i < bs.length, x ≠ spKey s c (off + 1 + i) := fun i hi => by
      simpa [Nat.add_assoc, Nat.add_comm 1] using hx (i + 1) (Nat.succ_lt_succ hi)
    calc memGet (spPuts (spPut s c off b) c (off + 1) bs).mem x
      _ = memGet (spPut s c off b).mem x := ih (spPut s c off b) (off + 1) (memSet_wf _ _ _ h) x htail
      _ = memGet s.mem x := memGet_memSet_ne _ _ h hhead

theorem spBytes_succ (s : State) (c off n : Nat) : spBytes s c off (n + 1) = spByte s c off :: spBytes s c (off + 1) n := by
  simp [spBytes, List.range_succ_eq_map, Function.comp_def, Nat.add_assoc, Nat.add_comm 1]

/-- A byte string written within the scratchpad is read back. -/
theorem spBytes_spPuts (s : State) (c off : Nat) (bs : Bytes) (h : MemInv s) (hin : off + bs.length ≤ 2 ^ 21) :
    spBytes (spPuts s c off bs) c off bs.length = bs := by
  induction bs generalizing s off with
  | nil => rfl
  | cons b bs ih =>
    rw [List.length_cons] at hin
    have hw : MemInv (spPut s c off b) := memSet_wf _ _ _ h
    have hfirst : spByte (spPuts (spPut s c off b) c (off + 1) bs) c off = b := by
      rw [spByte, spKey_spPuts, spPuts_frame _ _ _ _ hw _ fun i hi => spKey_ne _ _ (by omega) (by omega) (by omega)]
      exact memGet_memSet _ _ _ h
    rw [List.length_cons, spBytes_succ, spPuts, hfirst, ih _ _ hw (by omega)]

/-! ### Reads and writes of sound words (R151 to R153) -/

/-- A read of a sound word changes nothing. -/
theorem touchWord_sound {s : State} {c off : Nat} (port : Nat) (h : spMark s c off = none) : touchWord s c off port = (s, false) := by
  rw [spMark] at h
  simp only [touchWord, touchKey, spKey_base_add, h]

theorem touchRange_sound {s : State} {c off n : Nat} (port : Nat) (h : Sound s c off n) : touchRange s c off n port = (s, []) := by
  rw [Sound] at h
  rw [touchRange]
  generalize wordsOf off n = words at h ⊢
  induction words with
  | nil => rfl
  | cons w ws ih =>
    obtain ⟨hw, hws⟩ := List.forall_mem_cons.1 h
    simpa [touchWord_sound port hw] using ih hws

/-- A read of sound words gives their bytes and changes nothing. -/
theorem spRead_sound {s : State} {c off n : Nat} (port : Nat) (h : Sound s c off n) :
    spRead s c off n port = (s, spBytes s c off n, []) := by
  simp [spRead, touchRange_sound port h, spBytes]

theorem mdel_of_mfind_none {α : Type} {m : Map α} {k : Nat} (h : mfind m k = none) : mdel m k = m := by
  induction m with
  | nil => rfl
  | cons p m ih =>
    obtain ⟨j, v⟩ := p
    rw [mfind] at h
    split at h
    · cases h
    · next hne => simpa [mdel, Ne.symm hne] using ih h

theorem setSpMark_none_sound {s : State} {c off : Nat} (h : spMark s c off = none) : setSpMark s c off none = s := by
  rw [setSpMark, mdel_of_mfind_none h]

/-- R153: the part of a byte string that falls in a sound word is written, whole or merged. -/
theorem spWriteWord_sound {s : State} {c w : Nat} (off : Nat) (bs : Bytes) (port : Nat) (h : spMark s c w = none) :
    spWriteWord s c off bs port w =
      (spPuts s c (max off w) ((bs.drop (max off w - off)).take (min (off + bs.length) (w + 8) - max off w)), true) := by
  simp [spWriteWord, touchWord_sound port h, setSpMark_none_sound h]

/-- One word of a write: the state after it, and whether every part so far was performed. -/
def writeStep (c off : Nat) (bs : Bytes) (port : Nat) (p : State × Bool) (w : Nat) : State × Bool :=
  ((spWriteWord p.1 c off bs port w).1, p.2 && (spWriteWord p.1 c off bs port w).2)

/-- R153: a write is done word by word. -/
theorem spWrite_eq_foldl (s : State) (c off : Nat) (bs : Bytes) (port : Nat) :
    spWrite s c off bs port = (wordsOf off bs.length).foldl (writeStep c off bs port) (s, true) := rfl

/-- The first `n` words of a write, where they are sound, write the byte string up to the end of the last of them. -/
theorem foldl_writeStep_sound {s : State} {c : Nat} (off : Nat) (bs : Bytes) (port n : Nat)
    (hsound : ∀ i < n, spMark s c ((off / 8 + i) * 8) = none) (hin : ∀ i < n, (off / 8 + i) * 8 < off + bs.length) :
    ((List.range n).map fun i => (off / 8 + i) * 8).foldl (writeStep c off bs port) (s, true) =
      (spPuts s c off (bs.take ((off / 8 + n) * 8 - off)), true) := by
  induction n with
  | zero =>
    have : off / 8 * 8 - off = 0 := by omega
    simp [this, spPuts]
  | succ n ih =>
    have hbefore := hin n (Nat.lt_succ_self n)
    have hmark : spMark (spPuts s c off (bs.take ((off / 8 + n) * 8 - off))) c ((off / 8 + n) * 8) = none := by
      rw [spMark_spPuts]
      exact hsound n (Nat.lt_succ_self n)
    have hstart : max off ((off / 8 + n) * 8) = off + ((off / 8 + n) * 8 - off) := by omega
    have hlen : (bs.take ((off / 8 + n) * 8 - off)).length = (off / 8 + n) * 8 - off := by
      rw [List.length_take]; omega
    have hsplit : bs.take ((off / 8 + (n + 1)) * 8 - off) = bs.take ((off / 8 + n) * 8 - off) ++
        (bs.drop ((off / 8 + n) * 8 - off)).take (min (off + bs.length) ((off / 8 + n) * 8 + 8) - max off ((off / 8 + n) * 8)) := by
      rw [← List.take_add, List.take_eq_take_iff]
      omega
    rw [List.range_succ, List.map_append, List.foldl_append,
      ih (fun i hi => hsound i (Nat.lt_succ_of_lt hi)) (fun i hi => hin i (Nat.lt_succ_of_lt hi)),
      hsplit, spPuts_append, hlen, List.map_singleton, List.foldl_cons, List.foldl_nil, writeStep,
      spWriteWord_sound off bs port hmark, hstart, Nat.add_sub_cancel_left]
    rfl

/-- A write of sound words writes its byte string and changes nothing else. -/
theorem spWrite_sound {s : State} {c off : Nat} {bs : Bytes} (port : Nat) (h : Sound s c off bs.length) :
    spWrite s c off bs port = (spPuts s c off bs, true) := by
  by_cases h0 : bs.length = 0
  · rw [List.length_eq_zero_iff.1 h0]
    rfl
  · simp only [Sound, wordsOf, if_neg h0, List.mem_map, List.mem_range, forall_exists_index, and_imp,
      forall_apply_eq_imp_iff₂] at h
    rw [spWrite_eq_foldl, wordsOf, if_neg h0, foldl_writeStep_sound off bs port _ h fun i hi => by omega,
      List.take_of_length_le (by omega)]

/-! ### Requests performed at a scratchpad (R152, R153) -/

theorem spPerform_read_sound {s : State} {c off n : Nat} (port : Nat) (h : Sound s c off n) :
    spPerform s c off n .read port = (s, ⟨.ok, spBytes s c off n, []⟩) := by
  simp [spPerform, spRead_sound port h]

theorem spPerform_write_sound {s : State} {c off : Nat} {bs : Bytes} (n port : Nat) (h : Sound s c off bs.length) :
    spPerform s c off n (.write bs []) port = (spPuts s c off bs, ⟨.ok, [], []⟩) := by
  simp [spPerform, spWriteP, spWrite_sound port h]


/-! ### Records and counts leave cores, memory and outputs alone -/

@[simp] theorem core_emit (s : State) (o : Output) (c : Nat) : (emit s o).core c = s.core c := rfl

/-- What records and refusals leave alone: the cores, memory and what was shown. -/
structure KeepsCoresMemOut (s t : State) : Prop where
  cores : t.cores = s.cores
  mem : t.mem = s.mem
  out : t.out = s.out

theorem storeRec_frame (s : State) (r : LogRec) : KeepsCoresMemOut s (storeRec s r) := by
  unfold storeRec deliverRec
  dsimp only
  split <;> exact ⟨rfl, rfl, rfl⟩

theorem appendRec_frame (s : State) (r : LogRec) : KeepsCoresMemOut s (appendRec s r) := by
  unfold appendRec
  split
  · exact ⟨rfl, rfl, rfl⟩
  · exact storeRec_frame s r

theorem raiseRec_frame (s : State) (code cls ukind unit : Nat) (part : Option Nat) (echo : W64) (detail : List Nat) :
    KeepsCoresMemOut s (raiseRec s code cls ukind unit part echo detail) := by
  unfold raiseRec
  dsimp only
  split
  · exact appendRec_frame s _
  · split
    · exact ⟨rfl, rfl, rfl⟩
    · obtain ⟨hcores, hmem, hout⟩ := appendRec_frame
        { s with coals := s.coals ++ [⟨code, cls, ukind, unit, part, 0, echo, detail⟩] } _
      exact ⟨hcores, hmem, hout⟩

/-- `t` is `s` with other counters of core `c`: the rest of the state, and the core's control and scratchpad registers, stand. -/
structure OnlyCounts (s t : State) (c : Nat) : Prop where
  rest : { t with cores := s.cores } = s
  ctl : (t.core c).ctl = (s.core c).ctl
  spd : (t.core c).spd = (s.core c).spd

theorem onlyCounts_count (s : State) (c code n : Nat) {w : Sample} : OnlyCounts s (count s c code n w) c :=
  ⟨rfl, count_ctl s c code n, count_spd s c code n⟩

theorem OnlyCounts.trans {s t u : State} {c : Nat} (h : OnlyCounts s t c) (k : OnlyCounts t u c) : OnlyCounts s u c := by
  refine ⟨?_, k.ctl.trans h.ctl, k.spd.trans h.spd⟩
  have e := h.rest
  rw [← k.rest] at e
  exact e

section
variable {s t : State} {c : Nat} (h : OnlyCounts s t c)
include h

theorem OnlyCounts.mem : t.mem = s.mem := by rw [← h.rest]
theorem OnlyCounts.out : t.out = s.out := by rw [← h.rest]
theorem OnlyCounts.marks : t.marks = s.marks := by rw [← h.rest]

theorem OnlyCounts.spKey (off : Nat) : spKey t c off = spKey s c off := by
  rw [Machine.spKey, Machine.spKey, h.spd]

theorem OnlyCounts.spBytes (off n : Nat) : spBytes t c off n = spBytes s c off n := by
  simp only [Machine.spBytes, spByte, h.spKey, h.mem]

theorem OnlyCounts.sound {off n : Nat} (hs : Sound s c off n) : Sound t c off n := fun w hw => by
  rw [spMark, h.spKey, h.marks]
  exact hs w hw

end

/-! ### Requests in remote form (R157 to R160) -/

/-- The windows that accept a request are those that pass every check (R157). -/
theorem winAccept_isSome_iff (s : State) (c : Nat) (r : WinReq) :
    (winAccept s c r).isSome = true ↔ ∃ i, i < 16 ∧ winPasses s c i r = true := by
  simp [winAccept, List.find?_isSome]

/-- A window accepts no request that leaves the scratchpad (R157). -/
theorem winPasses_in_range {s : State} {c i : Nat} {r : WinReq} (h : winPasses s c i r = true) : r.off + r.size ≤ 2 ^ 21 := by
  simp only [winPasses, Bool.and_eq_true, decide_eq_true_eq] at h
  obtain ⟨⟨⟨⟨-, hin⟩, -⟩, -⟩, -⟩ := h
  exact hin

@[simp] theorem admits_count (s : State) (c code n : Nat) {w : Sample} : admits (count s c code n w) c = admits s c := rfl

@[simp] theorem winCause_count (s : State) (c code n : Nat) (r : WinReq) {w : Sample} :
    winCause (count s c code n w) c r = winCause s c r := by
  simp [winCause]

section
variable {s : State} {c : Nat} {r : WinReq} (score : Nat)

theorem remoteAccess_absent (hp : present s c = false) :
    remoteAccess s c r score = (countStatus s (some r.spart) .unmapped, ⟨.unmapped, [], []⟩) := by
  simp [remoteAccess, hp]

theorem remoteAccess_reset (hp : present s c = true) (hr : (s.core c).crst = true) :
    remoteAccess s c r score = (dropAtCore s c (some r.spart) score, ⟨.destReset, [], []⟩) := by
  simp [remoteAccess, hp, hr]

/-- An accepted request is performed, after it has been counted. -/
theorem remoteAccess_accepted (hp : present s c = true) (hr : (s.core c).crst = false)
    (ha : (winAccept s c r).isSome = true) :
    ∃ u, OnlyCounts s u c ∧ remoteAccess s c r score = spPerform u c r.off r.size r.op 5 := by
  obtain ⟨i, hi⟩ := Option.isSome_iff_exists.1 ha
  simp only [remoteAccess, hp, hr, hi, Bool.not_true, Bool.false_eq_true, if_false]
  refine ⟨_, ?_, rfl⟩
  split
  · exact (onlyCounts_count _ _ _ _).trans (onlyCounts_count _ _ _ _)
  · exact (onlyCounts_count _ _ _ _).trans (onlyCounts_count _ _ _ _)
  · exact onlyCounts_count _ _ _ _

/-- R159, R160: a refusal is counted, and captured where the log holds none. -/
theorem remoteAccess_refused (hp : present s c = true) (hr : (s.core c).crst = false) (ha : winAccept s c r = none) :
    ∃ t, remoteAccess s c r score = (t, ⟨.window, [], []⟩) ∧ t.mem = s.mem ∧ t.out = s.out ∧
      (t.core c).spd.winRefuse = satInc (s.core c).spd.winRefuse 1 ∧
      (t.core c).spd.log = if (s.core c).spd.log.v then (s.core c).spd.log
        else ⟨true, memOpCode r.op, winCause s c r, r.spart, r.sdev, r.off⟩ := by
  simp only [remoteAccess, hp, hr, ha, Bool.not_true, Bool.false_eq_true, if_false]
  refine ⟨_, rfl, (raiseRec_frame ..).mem, (raiseRec_frame ..).out, ?_⟩
  rw [State.core, (raiseRec_frame ..).cores, ← State.core]
  simp

/-- The answer to a request that is not performed. -/
theorem exec_remoteRequestArrive_refused {t : State} {st : RSt} (rtag : Nat) (h : remoteAccess s c r 0x7FF = (t, ⟨st, [], []⟩))
    (hst : st ≠ .ok) : exec (.remoteRequestArrive c r rtag) s =
      .next (emit t (if r.op = .read then .rdata r.sdev rtag st.que [] [] else .answer r.sdev rtag st.que [])) := by
  change execRemoteRequestArrive c r rtag s = _
  cases hop : r.op <;> simp [execRemoteRequestArrive, h, hop, hst]

theorem exec_remoteRequestArrive_read {t : State} {bs : Bytes} (rtag : Nat) (hop : r.op = .read)
    (h : remoteAccess s c r 0x7FF = (t, ⟨.ok, bs, []⟩)) :
    exec (.remoteRequestArrive c r rtag) s = .next (emit t (.rdata r.sdev rtag 0 bs [])) := by
  change execRemoteRequestArrive c r rtag s = _
  simp [execRemoteRequestArrive, h, hop, RSt.que]

theorem exec_remoteRequestArrive_write {t : State} {bs : Bytes} (rtag : Nat) (hop : r.op = .write bs [])
    (h : remoteAccess s c r 0x7FF = (t, ⟨.ok, [], []⟩)) :
    exec (.remoteRequestArrive c r rtag) s = .next (emit t (.answer r.sdev rtag 0 [])) := by
  change execRemoteRequestArrive c r rtag s = _
  simp [execRemoteRequestArrive, h, hop, RSt.que]

end

theorem field_countShared (s : State) (b code cls n plane i : Nat) : (countShared s b code cls n plane).field i = s.field i := rfl

/-- R277: a packet discarded at core `c` is counted at its router; memory, cores and outputs stand. -/
theorem dropAtCore_frame (s : State) (c : Nat) (part : Option Nat) (score : Nat) : KeepsCoresMemOut s (dropAtCore s c part score) :=
  ⟨rfl, rfl, rfl⟩

theorem countStatus_unmapped_frame (s : State) (part : Option Nat) : KeepsCoresMemOut s (countStatus s part .unmapped) :=
  ⟨rfl, rfl, rfl⟩

theorem dropAtCore_dropRst (s : State) (c : Nat) (part : Option Nat) (score : Nat) {n : Nat}
    (hn : n = (tileRouter (tileX s c) (tileY c)).1) :
    ((dropAtCore s c part score).field n).msh.dropRst = satInc (s.field n).msh.dropRst 1 := by
  subst hn
  simp [dropAtCore, meshDrop, field_countShared, modMsh]

/-! ### Requests in local form (R161) -/

theorem reqOwner_core (s : State) (k : Nat) : reqOwner s (.core k) = some ((partOf s k).getD 16) := rfl

theorem localAccess_admitted {s : State} {c k off size : Nat} (op : MemOp) (port : Nat) (hp : present s c = true)
    (hr : (s.core c).crst = false) (ho : partOf s c = some ((partOf s k).getD 16)) (hin : off + size ≤ 2 ^ 21) :
    localAccess s c (.core k) off size op port = spPerform s c off size op port := by
  simp only [localAccess, reqOwner_core, ho, hp, hr]
  simp
  omega

theorem localAccess_denied {s : State} {c k : Nat} (off size : Nat) (op : MemOp) (port : Nat) (hp : present s c = true)
    (ho : partOf s c ≠ some ((partOf s k).getD 16)) :
    localAccess s c (.core k) off size op port = ({ s with cntDenied := s.cntDenied + 1 }, ⟨.denied, [], []⟩) := by
  simp only [present, Bool.and_eq_true, decide_eq_true_eq] at hp
  simp [localAccess, reqOwner_core, ho, hp.1, countStatus]

theorem exec_localRequestArrive_of_access {s t : State} {c : Nat} {r : LocReq} {a : SpAns}
    (h : localAccess s c (.core r.src) r.off r.size r.op 5 = (t, a)) :
    exec (.localRequestArrive c r) s = .next (emit t (.memData (.core r.src) (c * 2 ^ 21 + r.off) a.st.que a.data a.poison)) := by
  change execLocalRequestArrive c r s = _
  simp [execLocalRequestArrive, h]


/-! ### The outcomes of a request in remote form -/

/-- R158: which sources each scope admits. -/
theorem admits_scopes (s : State) (c lo hi sdev spart : Nat) :
    (admits s c 0 lo hi sdev spart = true ↔ sdev = s.devId ∧ partOf s c = some spart) ∧
    (admits s c 1 lo hi sdev spart = true ↔ sdev = s.devId) ∧
    (admits s c 2 lo hi sdev spart = true ↔ lo ≤ sdev ∧ sdev ≤ hi) := by
  simp [admits]

section
variable {s : State} {c : Nat} {r : WinReq} (rtag : Nat) (hp : present s c = true) (hr : (s.core c).crst = false)
include hp hr

/-- R157: an accepted read of sound words is answered OK with their bytes. -/
theorem exec_remote_read_accepted (ha : (winAccept s c r).isSome = true) (hs : Sound s c r.off r.size) (hop : r.op = .read) :
    ∃ t, exec (.remoteRequestArrive c r rtag) s = .next t ∧ t.mem = s.mem ∧
      t.out = s.out ++ [.rdata r.sdev rtag 0 (spBytes s c r.off r.size) []] ∧ (t.core c).ctl = (s.core c).ctl := by
  obtain ⟨u, hu, hacc⟩ := remoteAccess_accepted 0x7FF hp hr ha
  rw [hop, spPerform_read_sound 5 (hu.sound hs)] at hacc
  refine ⟨_, exec_remoteRequestArrive_read rtag hop hacc, hu.mem, ?_, hu.ctl⟩
  rw [emit, hu.out, hu.spBytes]

/-- R157: an accepted write of sound words is answered OK, and writes its bytes and no others. -/
theorem exec_remote_write_accepted {bs : Bytes} (ha : (winAccept s c r).isSome = true) (hs : Sound s c r.off r.size)
    (hm : MemInv s) (hin : r.off + r.size ≤ 2 ^ 21) (hop : r.op = .write bs []) (hlen : bs.length = r.size) :
    ∃ t, exec (.remoteRequestArrive c r rtag) s = .next t ∧
      t.out = s.out ++ [.answer r.sdev rtag 0 []] ∧ spBytes t c r.off r.size = bs ∧ (t.core c).ctl = (s.core c).ctl ∧
      ∀ x, (∀ j < r.size, x ≠ spKey s c (r.off + j)) → memGet t.mem x = memGet s.mem x := by
  obtain ⟨u, hu, hacc⟩ := remoteAccess_accepted 0x7FF hp hr ha
  have hmu : MemInv u := by rwa [MemInv, hu.mem]
  rw [← hlen] at hs hin ⊢
  rw [hop, spPerform_write_sound r.size 5 (hu.sound hs)] at hacc
  refine ⟨_, exec_remoteRequestArrive_write rtag hop hacc, ?_, spBytes_spPuts u c r.off bs hmu hin, ?_, fun x hx => ?_⟩
  · rw [emit, spPuts_out, hu.out]
  · rw [core_emit, core_spPuts, hu.ctl]
  · rw [emit_mem, spPuts_frame u c r.off bs hmu x (by simpa only [hu.spKey] using hx), hu.mem]

/-- R159, R160: a request that no window accepts is answered 0x0C, counted and captured, and changes no byte. -/
theorem exec_remote_no_window (ha : winAccept s c r = none) :
    ∃ t, exec (.remoteRequestArrive c r rtag) s = .next t ∧ t.mem = s.mem ∧
      t.out = s.out ++ [if r.op = .read then .rdata r.sdev rtag 0x0C [] [] else .answer r.sdev rtag 0x0C []] ∧
      (t.core c).spd.winRefuse = satInc (s.core c).spd.winRefuse 1 ∧ (t.core c).spd.log.v = true ∧
      ((s.core c).spd.log.v = true → (t.core c).spd.log = (s.core c).spd.log) := by
  obtain ⟨t, hacc, hmem, hout, hcount, hlog⟩ := remoteAccess_refused 0x7FF hp hr ha
  refine ⟨_, exec_remoteRequestArrive_refused rtag hacc (by decide), hmem, by rw [emit, hout]; rfl, hcount, ?_, fun hv => ?_⟩
  · rw [core_emit, hlog]
    split
    · assumption
    · rfl
  · rw [core_emit, hlog, if_pos hv]

end

/-- A request that changes neither cores nor memory and is not performed is answered with its status. -/
theorem exec_remote_unperformed {s t : State} {c : Nat} {r : WinReq} {st : RSt} (rtag : Nat)
    (h : remoteAccess s c r 0x7FF = (t, ⟨st, [], []⟩)) (hst : st ≠ .ok) (hk : KeepsCoresMemOut s t) :
    ∃ u, exec (.remoteRequestArrive c r rtag) s = .next u ∧ u.mem = s.mem ∧ u.cores = s.cores ∧ u.fields = t.fields ∧
      u.out = s.out ++ [if r.op = .read then .rdata r.sdev rtag st.que [] [] else .answer r.sdev rtag st.que []] :=
  ⟨_, exec_remoteRequestArrive_refused rtag h hst, hk.mem, hk.cores, rfl, by rw [emit, hk.out]⟩

/-- R37: a request for a core that is absent is answered UNMAPPED. -/
theorem exec_remote_absent {s : State} {c : Nat} (rtag : Nat) (r : WinReq) (hp : present s c = false) :
    ∃ t, exec (.remoteRequestArrive c r rtag) s = .next t ∧ t.mem = s.mem ∧ t.cores = s.cores ∧
      t.out = s.out ++ [if r.op = .read then .rdata r.sdev rtag 2 [] [] else .answer r.sdev rtag 2 []] := by
  obtain ⟨t, hexec, hmem, hcores, -, hout⟩ :=
    exec_remote_unperformed rtag (remoteAccess_absent 0x7FF hp) (by decide) (countStatus_unmapped_frame s _)
  exact ⟨t, hexec, hmem, hcores, hout⟩

/-- R277: a request for a core under reset is answered DEST_RESET and counted at the core's router. -/
theorem exec_remote_reset {s : State} {c : Nat} (rtag : Nat) (r : WinReq) (hp : present s c = true) (hr : (s.core c).crst = true) :
    ∃ t, exec (.remoteRequestArrive c r rtag) s = .next t ∧ t.mem = s.mem ∧ t.cores = s.cores ∧
      t.out = s.out ++ [if r.op = .read then .rdata r.sdev rtag 6 [] [] else .answer r.sdev rtag 6 []] ∧
      ∀ n, n = (tileRouter (tileX s c) (tileY c)).1 → (t.field n).msh.dropRst = satInc (s.field n).msh.dropRst 1 := by
  obtain ⟨t, hexec, hmem, hcores, hfields, hout⟩ :=
    exec_remote_unperformed rtag (remoteAccess_reset 0x7FF hp hr) (by decide) (dropAtCore_frame s c _ _)
  refine ⟨t, hexec, hmem, hcores, hout, fun n hn => ?_⟩
  rw [State.field, hfields, ← State.field, dropAtCore_dropRst s c _ _ hn]

/-! ### The outcomes of a request in local form -/

section
variable {s : State} {c : Nat} {r : LocReq} (hp : present s c = true)
include hp

/-- R161: a request of a core of another partition is answered DENIED and counted. -/
theorem exec_local_denied (ho : partOf s c ≠ some ((partOf s r.src).getD 16)) :
    exec (.localRequestArrive c r) s =
      .next (emit { s with cntDenied := s.cntDenied + 1 } (.memData (.core r.src) (c * 2 ^ 21 + r.off) 3 [] [])) :=
  exec_localRequestArrive_of_access (localAccess_denied _ _ _ _ hp ho)

variable (hr : (s.core c).crst = false) (ho : partOf s c = some ((partOf s r.src).getD 16)) (hin : r.off + r.size ≤ 2 ^ 21)
  (hs : Sound s c r.off r.size)
include hr ho hin hs

/-- R161: a read of sound words by a core of the same partition. -/
theorem exec_local_read (hop : r.op = .read) : exec (.localRequestArrive c r) s =
    .next (emit s (.memData (.core r.src) (c * 2 ^ 21 + r.off) 0 (spBytes s c r.off r.size) [])) :=
  exec_localRequestArrive_of_access (by rw [localAccess_admitted _ 5 hp hr ho hin, hop, spPerform_read_sound 5 hs])

/-- R161: a write of sound words by a core of the same partition writes its bytes and no others. -/
theorem exec_local_write {bs : Bytes} (hm : MemInv s) (hop : r.op = .write bs []) (hlen : bs.length = r.size) :
    ∃ t, exec (.localRequestArrive c r) s = .next t ∧
      t.out = s.out ++ [.memData (.core r.src) (c * 2 ^ 21 + r.off) 0 [] []] ∧ spBytes t c r.off r.size = bs ∧
      t.cores = s.cores ∧ ∀ x, (∀ j < r.size, x ≠ spKey s c (r.off + j)) → memGet t.mem x = memGet s.mem x := by
  have hacc := localAccess_admitted r.op 5 hp hr ho hin
  rw [← hlen] at hs hin ⊢
  rw [hop, spPerform_write_sound r.size 5 hs, ← hop] at hacc
  refine ⟨_, exec_localRequestArrive_of_access hacc, ?_, spBytes_spPuts s c r.off bs hm hin,
    spPuts_cores s c r.off bs, spPuts_frame s c r.off bs hm⟩
  rw [emit, spPuts_out]
  rfl

end

/-- Settles O26: each clause is the outcome of a request in one case of the checks it meets on its way (R157 to R161). -/
theorem requestsReachTheScratchpad : Obligations.RequestsReachTheScratchpad := by
  unfold Obligations.RequestsReachTheScratchpad
  refine ⟨admits_scopes, fun s c rtag r hp hr hm => ⟨fun i hi hw hs => ?accepted, fun hw => ?noWindow⟩,
    fun s c rtag r => ⟨exec_remote_absent rtag r, exec_remote_reset rtag r⟩,
    fun s c r hp hr hm => ⟨fun p hsrc hdst hin hs => ?samePartition, exec_local_denied hp⟩⟩
  case accepted =>
    have ha := (winAccept_isSome_iff s c r).2 ⟨i, hi, hw⟩
    exact ⟨exec_remote_read_accepted rtag hp hr ha hs,
      fun bs => exec_remote_write_accepted rtag hp hr ha hs hm (winPasses_in_range hw)⟩
  case noWindow =>
    refine exec_remote_no_window rtag hp hr (Option.not_isSome_iff_eq_none.1 fun ha => ?_)
    obtain ⟨i, hi, hpass⟩ := (winAccept_isSome_iff s c r).1 ha
    exact Bool.false_ne_true ((hw i hi).symm.trans hpass)
  case samePartition =>
    have hown : partOf s c = some ((partOf s r.src).getD 16) := by rw [hsrc, hdst, Option.getD_some]
    exact ⟨exec_local_read hp hr hown hin hs, fun bs => exec_local_write hp hr hown hin hs hm⟩

end Sys2Proof.Machine
end

section
/-!
SUPPORT. Instruction words (O11, R180 to R183): the fields of a word, the instruction that a word spells and the word of an
instruction.
-/

namespace Sys2Proof.Machine

/-! ### The fields of an instruction word (Table 6.2) -/

/-- The fields of format A make up the word. -/
theorem encA_fields {w : W32} {op : Nat} (hop : w.toNat / 2 ^ 25 = op) :
    encA op (regAt w 20).val (regAt w 15).val (regAt w 10).val (w.toNat % 2 ^ 10) = w := by
  refine BitVec.eq_of_toNat_eq ?_
  have := w.isLt
  simp only [encA, regAt, BitVec.toNat_ofNat]
  omega

/-- The fields of formats I, M and B make up the word. -/
theorem encI_fields {w : W32} {op : Nat} (hop : w.toNat / 2 ^ 25 = op) :
    encI op (regAt w 20).val (regAt w 15).val (w.setWidth 15).toNat = w := by
  refine BitVec.eq_of_toNat_eq ?_
  have := w.isLt
  simp only [encI, regAt, BitVec.toNat_ofNat, BitVec.toNat_setWidth]
  omega

/-- The fields of format J make up the word. -/
theorem encJ_fields {w : W32} {op : Nat} (hop : w.toNat / 2 ^ 25 = op) : encJ op (regAt w 20).val (w.setWidth 20).toNat = w := by
  refine BitVec.eq_of_toNat_eq ?_
  have := w.isLt
  simp only [encJ, regAt, BitVec.toNat_ofNat, BitVec.toNat_setWidth]
  omega

/-- The fields of format X make up the word. -/
theorem encX_fields {w : W32} (hop : w.toNat / 2 ^ 25 = 0x40) :
    encX (BitVec.ofNat 3 (w.toNat / 2 ^ 22)).toNat (regAt w 17).val (regAt w 12).val (w.setWidth 12).toNat = w := by
  refine BitVec.eq_of_toNat_eq ?_
  have := w.isLt
  simp only [encX, regAt, BitVec.toNat_ofNat, BitVec.toNat_setWidth]
  omega

/-- The fields of a word of format A are those that it was made of. -/
theorem fields_encA {op fn : Nat} (d a b : Reg) (hop : op < 2 ^ 7) (hfn : fn < 2 ^ 10) :
    (encA op d.val a.val b.val fn).toNat / 2 ^ 25 = op ∧ regAt (encA op d.val a.val b.val fn) 20 = d ∧
      regAt (encA op d.val a.val b.val fn) 15 = a ∧ regAt (encA op d.val a.val b.val fn) 10 = b ∧
      (encA op d.val a.val b.val fn).toNat % 2 ^ 10 = fn := by
  simp only [encA, regAt, BitVec.toNat_ofNat, Fin.ext_iff]
  omega

theorem fields_encI {op : Nat} (d a : Reg) (imm : BitVec 15) (hop : op < 2 ^ 7) :
    (encI op d.val a.val imm.toNat).toNat / 2 ^ 25 = op ∧ regAt (encI op d.val a.val imm.toNat) 20 = d ∧
      regAt (encI op d.val a.val imm.toNat) 15 = a ∧ (encI op d.val a.val imm.toNat).setWidth 15 = imm := by
  have := imm.isLt
  simp only [encI, regAt, BitVec.toNat_ofNat, BitVec.toNat_setWidth, Fin.ext_iff, BitVec.toNat_eq]
  omega

theorem fields_encJ (d : Reg) (off : BitVec 20) :
    (encJ 0x38 d.val off.toNat).toNat / 2 ^ 25 = 0x38 ∧ regAt (encJ 0x38 d.val off.toNat) 20 = d ∧
      (encJ 0x38 d.val off.toNat).setWidth 20 = off := by
  have := off.isLt
  simp only [encJ, regAt, BitVec.toNat_ofNat, BitVec.toNat_setWidth, Fin.ext_iff, BitVec.toNat_eq]
  omega

theorem fields_encX (eng : BitVec 3) (tag : Fin 32) (dptr : Reg) (flags : BitVec 12) :
    (encX eng.toNat tag.val dptr.val flags.toNat).toNat / 2 ^ 25 = 0x40 ∧
      BitVec.ofNat 3 ((encX eng.toNat tag.val dptr.val flags.toNat).toNat / 2 ^ 22) = eng ∧
      regAt (encX eng.toNat tag.val dptr.val flags.toNat) 17 = tag ∧
      regAt (encX eng.toNat tag.val dptr.val flags.toNat) 12 = dptr ∧
      (encX eng.toNat tag.val dptr.val flags.toNat).setWidth 12 = flags := by
  have := eng.isLt
  have := flags.isLt
  simp only [encX, regAt, BitVec.toNat_ofNat, BitVec.toNat_setWidth, Fin.ext_iff, BitVec.toNat_eq]
  omega

/-! ### The instruction of a word, by its opcode (Table 6.3) -/

/-- The opcodes of formats A, J and X; the others are of formats I, M and B, or reserved. -/
theorem opcode_cases (op : Nat) :
    op = 0x01 ∨ op = 0x02 ∨ op = 0x03 ∨ op = 0x38 ∨ op = 0x40 ∨ op ∉ [0x01, 0x02, 0x03, 0x38, 0x40] := by
  simp only [List.mem_cons, List.not_mem_nil, or_false]
  omega

section
variable (c : Nat) {w : W32}

theorem decodeInsn_alu (hop : w.toNat / 2 ^ 25 = 0x01) :
    decodeInsn c w = decodeAlu c (w.toNat % 2 ^ 10) (regAt w 20) (regAt w 15) (regAt w 10) := by
  rw [decodeInsn, hop]
  rfl

theorem decodeInsn_sys (hop : w.toNat / 2 ^ 25 = 0x02) :
    decodeInsn c w = decodeSys c (w.toNat % 2 ^ 10) (regAt w 20) (regAt w 15) (regAt w 10) := by
  rw [decodeInsn, hop]
  rfl

theorem decodeInsn_que (hop : w.toNat / 2 ^ 25 = 0x03) :
    decodeInsn c w = decodeQue c (w.toNat % 2 ^ 10 % 64) (BitVec.ofNat 4 (w.toNat % 2 ^ 10 / 64)) (regAt w 20) (regAt w 15)
      (regAt w 10) := by
  rw [decodeInsn, hop]
  rfl

theorem decodeInsn_jal (hop : w.toNat / 2 ^ 25 = 0x38) : decodeInsn c w = some (.jal c (regAt w 20) (w.setWidth 20)) := by
  rw [decodeInsn, hop]
  rfl

theorem decodeInsn_x (hop : w.toNat / 2 ^ 25 = 0x40) :
    decodeInsn c w = some (.x c (BitVec.ofNat 3 (w.toNat / 2 ^ 22)) (regAt w 17) (regAt w 12) (w.setWidth 12)) := by
  rw [decodeInsn, hop]
  rfl

theorem decodeInsn_other (hop : w.toNat / 2 ^ 25 ∉ [0x01, 0x02, 0x03, 0x38, 0x40]) :
    decodeInsn c w = (decodeBranch c (w.toNat / 2 ^ 25) (regAt w 20) (regAt w 15) (w.setWidth 15)).or
      (decodeImm c (w.toNat / 2 ^ 25) (regAt w 20) (regAt w 15) (w.setWidth 15)) := by
  unfold decodeInsn
  dsimp only
  split
  case h_6 => cases decodeBranch c (w.toNat / 2 ^ 25) (regAt w 20) (regAt w 15) (w.setWidth 15) <;> rfl
  all_goals simp_all only [List.mem_cons, true_or, or_true, not_true_eq_false]

end

/-! ### Whether a word is reserved does not depend on the core (R181) -/

section
variable (c : Nat)

theorem isNone_decodeAlu (fn : Nat) (d a b : Reg) : (decodeAlu c fn d a b).isNone = (decodeAlu 0 fn d a b).isNone := by
  unfold decodeAlu
  split <;> rfl

theorem isNone_decodeSys (fn : Nat) (d a b : Reg) : (decodeSys c fn d a b).isNone = (decodeSys 0 fn d a b).isNone := by
  unfold decodeSys
  split <;> rfl

theorem isNone_decodeQue (fn : Nat) (size : BitVec 4) (d a b : Reg) :
    (decodeQue c fn size d a b).isNone = (decodeQue 0 fn size d a b).isNone := by
  unfold decodeQue
  split <;> rfl

theorem isNone_decodeImm (op : Nat) (d a : Reg) (imm : BitVec 15) :
    (decodeImm c op d a imm).isNone = (decodeImm 0 op d a imm).isNone := by
  unfold decodeImm
  split <;> rfl

theorem isNone_decodeBranch (op : Nat) (a b : Reg) (off : BitVec 15) :
    (decodeBranch c op a b off).isNone = (decodeBranch 0 op a b off).isNone := by
  unfold decodeBranch
  split <;> rfl

theorem isNone_decodeInsn (w : W32) : (decodeInsn c w).isNone = isReservedWord w := by
  rw [isReservedWord]
  obtain hop | hop | hop | hop | hop | hop := opcode_cases (w.toNat / 2 ^ 25)
  · rw [decodeInsn_alu c hop, decodeInsn_alu 0 hop, isNone_decodeAlu]
  · rw [decodeInsn_sys c hop, decodeInsn_sys 0 hop, isNone_decodeSys]
  · rw [decodeInsn_que c hop, decodeInsn_que 0 hop, isNone_decodeQue]
  · rw [decodeInsn_jal c hop, decodeInsn_jal 0 hop]; rfl
  · rw [decodeInsn_x c hop, decodeInsn_x 0 hop]; rfl
  · rw [decodeInsn_other c hop, decodeInsn_other 0 hop, Option.isNone_or, Option.isNone_or, isNone_decodeBranch,
      isNone_decodeImm]

end

/-! ### The word of an instruction that a word spells -/

theorem encodeInsn_decodeAlu {c fn : Nat} {d a b : Reg} {i : Instr} (h : decodeAlu c fn d a b = some i) :
    encodeInsn i = some (encA 0x01 d.val a.val b.val fn) := by
  unfold decodeAlu at h
  split at h <;> cases h <;> rfl

theorem encodeInsn_decodeSys {c fn : Nat} {d a b : Reg} {i : Instr} (h : decodeSys c fn d a b = some i) :
    encodeInsn i = some (encA 0x02 d.val a.val b.val fn) := by
  unfold decodeSys at h
  split at h <;> cases h <;> rfl

theorem encodeInsn_decodeQue {c fn : Nat} {size : BitVec 4} {d a b : Reg} {i : Instr} (h : decodeQue c fn size d a b = some i) :
    encodeInsn i = some (encA 0x03 d.val a.val b.val (size.toNat * 64 + fn)) := by
  unfold decodeQue at h
  split at h <;> cases h <;> rfl

theorem encodeInsn_decodeImm {c op : Nat} {d a : Reg} {imm : BitVec 15} {i : Instr} (h : decodeImm c op d a imm = some i) :
    encodeInsn i = some (encI op d.val a.val imm.toNat) := by
  unfold decodeImm at h
  split at h <;> cases h <;> rfl

theorem encodeInsn_decodeBranch {c op : Nat} {a b : Reg} {off : BitVec 15} {i : Instr} (h : decodeBranch c op a b off = some i) :
    encodeInsn i = some (encB op a.val b.val off.toNat) := by
  unfold decodeBranch at h
  split at h <;> cases h <;> rfl

/-- fn[9:6] and fn[5:0] make up fn (R183). -/
theorem size_fn_eq (w : W32) : (BitVec.ofNat 4 (w.toNat % 2 ^ 10 / 64)).toNat * 64 + w.toNat % 2 ^ 10 % 64 = w.toNat % 2 ^ 10 := by
  rw [BitVec.toNat_ofNat]
  omega

/-- A word is the word of the instruction that it spells. -/
theorem encodeInsn_decodeInsn {c : Nat} {w : W32} {i : Instr} (h : decodeInsn c w = some i) : encodeInsn i = some w := by
  obtain hop | hop | hop | hop | hop | hop := opcode_cases (w.toNat / 2 ^ 25)
  · rw [decodeInsn_alu c hop] at h
    rw [encodeInsn_decodeAlu h, encA_fields hop]
  · rw [decodeInsn_sys c hop] at h
    rw [encodeInsn_decodeSys h, encA_fields hop]
  · rw [decodeInsn_que c hop] at h
    rw [encodeInsn_decodeQue h, size_fn_eq, encA_fields hop]
  · rw [decodeInsn_jal c hop] at h
    rw [← Option.some.inj h, encodeInsn, encJ_fields hop]
  · rw [decodeInsn_x c hop] at h
    rw [← Option.some.inj h, encodeInsn, encX_fields hop]
  · rw [decodeInsn_other c hop, Option.or_eq_some_iff] at h
    obtain h | ⟨-, h⟩ := h
    · rw [encodeInsn_decodeBranch h]
      exact congrArg some (encI_fields rfl)
    · rw [encodeInsn_decodeImm h, encI_fields rfl]

/-! ### The instruction that the word of an instruction spells -/

section
variable (c : Nat) (d a b : Reg)

theorem decodeInsn_encA_alu {fn : Nat} (hfn : fn < 2 ^ 10) :
    decodeInsn c (encA 0x01 d.val a.val b.val fn) = decodeAlu c fn d a b := by
  obtain ⟨hop, hd, ha, hb, hf⟩ := fields_encA d a b (by decide : 0x01 < 2 ^ 7) hfn
  rw [decodeInsn_alu c hop, hd, ha, hb, hf]

theorem decodeInsn_encA_sys {fn : Nat} (hfn : fn < 2 ^ 10) :
    decodeInsn c (encA 0x02 d.val a.val b.val fn) = decodeSys c fn d a b := by
  obtain ⟨hop, hd, ha, hb, hf⟩ := fields_encA d a b (by decide : 0x02 < 2 ^ 7) hfn
  rw [decodeInsn_sys c hop, hd, ha, hb, hf]

theorem decodeInsn_encA_que (size : BitVec 4) {fn : Nat} (hfn : fn < 64) :
    decodeInsn c (encA 0x03 d.val a.val b.val (size.toNat * 64 + fn)) = decodeQue c fn size d a b := by
  have hsize := size.isLt
  obtain ⟨hop, hd, ha, hb, hf⟩ := fields_encA d a b (by decide : 0x03 < 2 ^ 7)
    (by omega : size.toNat * 64 + fn < 2 ^ 10)
  have hlow : (size.toNat * 64 + fn) % 64 = fn := by omega
  have hhigh : (size.toNat * 64 + fn) / 64 = size.toNat := by omega
  rw [decodeInsn_que c hop, hd, ha, hb, hf, hlow, hhigh, BitVec.ofNat_toNat, BitVec.setWidth_eq]

theorem decodeInsn_encI (imm : BitVec 15) {op : Nat} (hlt : op < 2 ^ 7) (hop : op ∉ [0x01, 0x02, 0x03, 0x38, 0x40]) :
    decodeInsn c (encI op d.val a.val imm.toNat) = (decodeBranch c op d a imm).or (decodeImm c op d a imm) := by
  obtain ⟨hopc, hd, ha, himm⟩ := fields_encI d a imm hlt
  rw [decodeInsn_other c (by rwa [hopc]), hopc, hd, ha, himm]

theorem decodeInsn_encJ (off : BitVec 20) : decodeInsn c (encJ 0x38 d.val off.toNat) = some (.jal c d off) := by
  obtain ⟨hop, hd, hoff⟩ := fields_encJ d off
  rw [decodeInsn_jal c hop, hd, hoff]

theorem decodeInsn_encX (eng : BitVec 3) (tag : Fin 32) (flags : BitVec 12) :
    decodeInsn c (encX eng.toNat tag.val d.val flags.toNat) = some (.x c eng tag d flags) := by
  obtain ⟨hop, heng, htag, hd, hflags⟩ := fields_encX eng tag d flags
  rw [decodeInsn_x c hop, heng, htag, hd, hflags]

end

/-- Formats I and B place their fields alike. -/
theorem encB_eq_encI (op a b off : Nat) : encB op a b off = encI op a b off := rfl

/-- The word of an instruction spells that instruction. -/
theorem decodeInsn_encodeInsn {i : Instr} {w : W32} (h : encodeInsn i = some w) : ∃ c, decodeInsn c w = some i := by
  unfold encodeInsn at h
  split at h
  case h_70 => cases h -- a command that no word spells
  all_goals
    rw [← Option.some.inj h]
    simp (disch := decide) only [decodeInsn_encA_alu, decodeInsn_encA_sys, decodeInsn_encA_que, encB_eq_encI, decodeInsn_encI,
      decodeInsn_encJ, decodeInsn_encX]
    simp [decodeAlu, decodeSys, decodeQue, decodeBranch, decodeImm]

end Sys2Proof.Machine
end

section
/-!
SUPPORT. The fault ILLEGAL (O11, R181, R192): what a fault does to a core whose engines have no work, the words and instructions that
end in it, and the execution of a word.
-/

namespace Sys2Proof.Machine

/-! ### The fault of a core whose engines have no work (R192, R194) -/

@[simp] theorem sendOf_modDma (s : State) (c e : Nat) (f : DmaEng → DmaEng) (p : SendPath) :
    sendOf (modDma s c e f) p = sendOf s p := rfl

/-- A message that is not on its way is not withdrawn. -/
theorem withdraw_none {s : State} {p : SendPath} (h : sendOf s p = none) : withdraw s p = (s, false) := by
  simp only [withdraw, h]

theorem engFlights_nil {k : Core} (h : k.flights = []) (e : Nat) : engFlights k e = [] := by
  rw [engFlights, h, List.filter_nil]

/-- R171: a halt clears a DMA engine without a descriptor. -/
theorem dmaHalt_idle {s : State} {c : Nat} (h : (s.core c).flights = []) (e : Nat) : dmaHalt s c e = modDma s c e dmaClear := by
  simp only [dmaHalt, curDma, engFlights_nil h]

/-- A halt of engines without work clears the DMA engines. -/
theorem enginesHalt_idle {s : State} {c : Nat} (hf : (s.core c).flights = []) (hs : sendOf s (.que c) = none) :
    enginesHalt s c = (List.range 4).foldl (fun s e => modDma s c e dmaClear) s := by
  simp [enginesHalt, List.range_succ, dmaHalt_idle, withdraw_none, engFlights_nil, hf, hs]

/-- A halt of engines without work leaves the control unit and memory alone. -/
theorem enginesHalt_idle_frame {s : State} {c : Nat} (hf : (s.core c).flights = []) (hs : sendOf s (.que c) = none) :
    ((enginesHalt s c).core c).ctl = (s.core c).ctl ∧ (enginesHalt s c).mem = s.mem := by
  rw [enginesHalt_idle hf hs]
  simp [List.range_succ, modDma]

/-- R363: a report to the launch engine ends the core's launch and leaves the rest of the core alone. -/
theorem reportLaunch_frame (s : State) (c : Nat) (rep : LaunchRep) :
    ((reportLaunch s c rep).core c).ctl = { (s.core c).ctl with launchOn := none } ∧
      ((reportLaunch s c rep).core c).flights = (s.core c).flights ∧
      (reportLaunch s c rep).sends = s.sends ∧ (reportLaunch s c rep).mem = s.mem := by
  unfold reportLaunch
  split
  · next h => simp [← h]
  · rw [core_modCtl]
    exact ⟨rfl, rfl, rfl, rfl⟩

/-- The record of a fault of a RUNNING core at its instruction (Table 6.9). -/
def faultRecord (s : State) (c : Nat) (f : FaultInfo) : FaultRec :=
  { code := f.code, engine := f.engine, imp := f.imp, more := false, tag := f.tag, pc := (s.core c).ctl.pc.toNat % 2 ^ 21,
    insn := f.insn, detail := f.detail, echo := echoOf s c, addr := f.addr, core := c, part := partNum s c,
    state := ctlStateCode .running, ga := f.ga, gb := f.gb }

/-- Core `c` with its PC at the instruction that faults, stopped with record `r`. -/
def stopFaulted (s : State) (c : Nat) (r : FaultRec) : State :=
  modCtl (modCtl s c fun k => { k with pc := (s.core c).ctl.pc }) c fun k => { k with st := .faulted, blk := .none, frec := some r }

/-- A fault up to its event (R192): the core is stopped, its launch is reported and its engines are halted. -/
def faultHalts (s : State) (c : Nat) (f : FaultInfo) : State :=
  enginesHalt (reportLaunch (stopFaulted s c (faultRecord s c f)) c (.faulted f.code)) c

/-- R192: a fault of a RUNNING core, where no core is told of its faults. -/
theorem coreFault_running {s : State} {c : Nat} (f : FaultInfo) (hst : (s.core c).ctl.st = .running)
    (hblk : (s.core c).ctl.blk = .none ∨ (s.core c).ctl.blk = .sb) (hdest : (s.core c).ctl.fdestV = false) :
    coreFault s c f = raiseRec (faultHalts s c f) 0x1001 4 1 c (partOf (faultHalts s c f) c) (echoOf s c)
      ((List.range 6).map fun i => leAt (frecBytes (faultRecord s c f)) (4 * i) 4) := by
  obtain hblk | hblk := hblk <;>
  · simp only [coreFault, hst, hblk, hdest, Bool.false_eq_true, if_false]
    rfl

/-- R192: a fault of a RUNNING core whose engines have no work stops it with its record; memory stands. -/
theorem coreFault_quiet {s : State} {c : Nat} (f : FaultInfo) (hst : (s.core c).ctl.st = .running)
    (hblk : (s.core c).ctl.blk = .none ∨ (s.core c).ctl.blk = .sb) (hq : Quiet s c) :
    ((coreFault s c f).core c).ctl = { (s.core c).ctl with
        st := .faulted, blk := .none, frec := some (faultRecord s c f), launchOn := none } ∧
      (coreFault s c f).mem = s.mem := by
  obtain ⟨hfl, hsend, hdest, -⟩ := hq
  obtain ⟨hctl, hfl', hsends, hmem⟩ := reportLaunch_frame (stopFaulted s c (faultRecord s c f)) c (.faulted f.code)
  obtain ⟨hctl', hmem'⟩ := enginesHalt_idle_frame (hfl'.trans (by simp [stopFaulted, hfl])) (by rw [sendOf, hsends]; exact hsend)
  rw [coreFault_running f hst hblk hdest, State.core, (raiseRec_frame ..).cores, (raiseRec_frame ..).mem, ← State.core,
    faultHalts, hctl', hctl, hmem', hmem]
  simp [stopFaulted]

/-! ### ILLEGAL (R181) -/

/-- A core that can issue is RUNNING, and held by nothing but a scoreboard stall. -/
theorem Ready.running {s : State} {c : Nat} (h : Ready s c) :
    (s.core c).ctl.st = .running ∧ ((s.core c).ctl.blk = .none ∨ (s.core c).ctl.blk = .sb) := by
  obtain ⟨hissue, -, -⟩ := h
  simp only [canIssue, Bool.and_eq_true, Bool.or_eq_true, beq_iff_eq] at hissue
  obtain ⟨⟨-, hst⟩, hblk⟩ := hissue
  exact ⟨hst, hblk⟩

/-- The outcome of the illegal word `w` on core `c`: the fault with the word in its record; registers and memory stand. -/
def EndsIllegal (s : State) (c : Nat) (w : W32) (o : Res) : Prop :=
  ∃ t, o = .next t ∧ Faults s t c 1 w 0 0 ∧ t.mem = s.mem ∧ ∀ r, rg t c r = rg s c r

theorem quiet_count {s : State} {c : Nat} (code n : Nat) {w : Sample} (h : Quiet s c) : Quiet (count s c code n w) c := by
  rw [Quiet, count_flights, count_ctl]
  exact h

/-- R181: the fault ILLEGAL of a RUNNING core whose engines have no work. -/
theorem illegal_quiet {s : State} {c : Nat} (w : W32) (ga gb : W64) (hst : (s.core c).ctl.st = .running)
    (hblk : (s.core c).ctl.blk = .none ∨ (s.core c).ctl.blk = .sb) (hq : Quiet s c) :
    Faults s (illegal s c w ga gb) c 1 w 0 0 ∧ (illegal s c w ga gb).mem = s.mem ∧
      ∀ r, rg (illegal s c w ga gb) c r = rg s c r := by
  obtain ⟨hctl, hmem⟩ := coreFault_quiet ⟨1, 0xFF, false, 0, w, 0, 0, ga, gb⟩ hst hblk hq
  rw [illegal, cuFault, Faults, hctl]
  refine ⟨⟨rfl, _, rfl, rfl, rfl, rfl, rfl, rfl, rfl, rfl⟩, hmem, fun r => ?_⟩
  rw [rg, hctl]
  rfl

/-- An instruction whose effect is the fault ILLEGAL, where the core is ready. -/
theorem issue_illegal {s : State} {c : Nat} {w : W32} {ga gb : State → W64} {act : State → State} (hr : Ready s c)
    (hq : Quiet s c) (hact : ∀ u, act u = illegal u c w (ga u) (gb u)) : EndsIllegal s c w (.next (issue s c act)) := by
  obtain ⟨hst, hblk⟩ := hr.running
  refine ⟨_, rfl, ?_⟩
  rw [issue_ready hr, hact]
  split
  · exact illegal_quiet w _ _ hst hblk hq
  · obtain ⟨hfault, hmem, hreg⟩ := illegal_quiet (s := count s c 0x01 1) w (ga _) (gb _) (by rwa [count_ctl])
      (by rwa [count_ctl]) (quiet_count _ _ hq)
    simp only [Faults, count_ctl, count_mem, rg_count] at hfault hmem hreg
    exact ⟨hfault, hmem, hreg⟩

/-- A system function with a bit in a field that must be 0 (Table 6.5). -/
theorem sysFn_illegal {s : State} {c : Nat} {w : W32} {zero : Bool} (ga gb : W64) (act : State → State) (hr : Ready s c)
    (hq : Quiet s c) (hz : zero = false) : EndsIllegal s c w (.next (sysFn s c w zero ga gb act)) :=
  issue_illegal (ga := fun _ => ga) (gb := fun _ => gb) hr hq fun _ => by rw [hz]; rfl

/-- A function of one register with a bit in its b field (Table 6.4). -/
theorem alu1_illegal {s : State} {c : Nat} (fn : Nat) (d a : Reg) {b : Reg} (f : W64 → W64) (hr : Ready s c) (hq : Quiet s c)
    (hb : b ≠ 0) : EndsIllegal s c (encA 1 d.val a.val b.val fn) (.next (alu1 s c fn d a b f)) :=
  issue_illegal (ga := fun u => rg u c a) (gb := fun u => rg u c b) hr hq fun _ => if_neg fun h => hb (Fin.ext h)

/-! ### The execution of an instruction word (R180 to R183) -/

/-- R182, R183: the operation of an instruction that has a word is its meaning. -/
theorem runInsn_eq_exec {i : Instr} {w : W32} (h : encodeInsn i = some w) (s : State) : runInsn i s = exec i s := by
  unfold encodeInsn at h
  split at h
  case h_70 => cases h -- a command that no word spells
  all_goals rfl

/-- R181: a reserved word is ILLEGAL. -/
theorem exec_reserved_word {s : State} {c : Nat} {w : W32} (hr : Ready s c) (hq : Quiet s c) (hw : isReservedWord w = true) :
    EndsIllegal s c w (exec (.reservedOpcode c w) s) := by
  rw [← isNone_decodeInsn c, Option.isNone_iff_eq_none] at hw
  change EndsIllegal s c w (execReservedOpcode c w s)
  rw [execReservedOpcode, hw]
  exact issue_illegal (ga := fun u => rg u c (regAt w 15)) (gb := fun u => rg u c (regAt w 10)) hr hq fun _ => rfl

/-- R180, R182: a word that is not reserved executes as the instruction that it spells. -/
theorem exec_spelled_word {c : Nat} {w : W32} (s : State) (hw : isReservedWord w = false) :
    ∃ i, decodeInsn c w = some i ∧ exec (.reservedOpcode c w) s = exec i s ∧ encodeInsn i = some w := by
  rw [← isNone_decodeInsn c, Option.isNone_eq_false_iff] at hw
  obtain ⟨i, hi⟩ := Option.isSome_iff_exists.1 hw
  have henc := encodeInsn_decodeInsn hi
  refine ⟨i, hi, ?_, henc⟩
  change execReservedOpcode c w s = exec i s
  rw [execReservedOpcode, hi]
  exact runInsn_eq_exec henc s

/-- Settles O11: a reserved word and an instruction with a bit in a field that must be 0 have one effect at issue, the fault ILLEGAL
of a core whose engines have no work; `decodeInsn` and `encodeInsn` undo each other on the words that are not reserved. -/
theorem reservedWordsAreIllegal : Obligations.ReservedWordsAreIllegal := by
  unfold Obligations.ReservedWordsAreIllegal
  refine ⟨by decide, fun s c w hr hq hw => exec_reserved_word hr hq hw, ?mustBeZero,
    fun s c w hw => exec_spelled_word s hw, fun i w => decodeInsn_encodeInsn⟩
  case mustBeZero =>
    intro s c d a b k z e fl i w hr hq hform
    change EndsIllegal s c w (exec i s)
    obtain ⟨hbit, hi⟩ | ⟨hbit, hi⟩ | ⟨hbit, rfl, rfl⟩ | ⟨hbit, rfl, rfl⟩ | ⟨hbit, hi⟩ | ⟨hbit, rfl, rfl⟩ | ⟨hbit, rfl, rfl⟩ |
      ⟨hbit, hi⟩ | ⟨hbit, rfl, rfl⟩ := hform
    · have hz : (d.val == 0 && a.val == 0 && b.val == 0) = false := by simpa [imp_iff_not_or, or_assoc] using hbit
      obtain ⟨rfl, rfl⟩ | ⟨rfl, rfl⟩ | ⟨rfl, rfl⟩ | ⟨rfl, rfl⟩ | ⟨rfl, rfl⟩ := hi <;> exact sysFn_illegal _ _ _ hr hq hz
    · have hz : (a.val == 0 && b.val == 0) = false := by simpa [imp_iff_not_or] using hbit
      obtain ⟨rfl, rfl⟩ | ⟨rfl, rfl⟩ | ⟨rfl, rfl⟩ | ⟨rfl, rfl⟩ := hi <;> exact sysFn_illegal _ _ _ hr hq hz
    · exact sysFn_illegal _ _ _ hr hq (by simpa [imp_iff_not_or] using hbit)
    · exact sysFn_illegal _ _ _ hr hq (by simpa [imp_iff_not_or] using hbit)
    · obtain ⟨rfl, rfl⟩ | ⟨rfl, rfl⟩ := hi <;> exact issue_illegal hr hq fun _ => if_pos hbit
    · exact issue_illegal hr hq fun _ => if_pos hbit
    · exact issue_illegal hr hq fun _ => if_pos hbit
    · obtain ⟨rfl, rfl⟩ | ⟨rfl, rfl⟩ | ⟨rfl, rfl⟩ := hi <;> exact alu1_illegal _ _ _ _ hr hq hbit
    · exact issue_illegal (ga := fun _ => 0) (gb := fun _ => 0) hr hq fun _ => if_pos hbit

end Sys2Proof.Machine
end

section
/-!
SUPPORT. Steps (O58, O59, O60): every command leaves a state that is `Later`, what a nanosecond leaves alone, and the state after reset.
-/

namespace Sys2Proof.Machine

/-- Every command answers a next state, which follows the state it starts in. -/
theorem exec_later (i : Instr) (s : State) : ∃ t, exec i s = .next t ∧ Later s t := by
  cases i with
  | add c d a b => exact execAdd_later c d a b
  | sub c d a b => exact execSub_later c d a b
  | and_ c d a b => exact execAnd_later c d a b
  | or_ c d a b => exact execOr_later c d a b
  | xor_ c d a b => exact execXor_later c d a b
  | sll c d a b => exact execSll_later c d a b
  | srl c d a b => exact execSrl_later c d a b
  | sra c d a b => exact execSra_later c d a b
  | slt c d a b => exact execSlt_later c d a b
  | sltu c d a b => exact execSltu_later c d a b
  | min c d a b => exact execMin_later c d a b
  | max c d a b => exact execMax_later c d a b
  | minu c d a b => exact execMinu_later c d a b
  | maxu c d a b => exact execMaxu_later c d a b
  | mul c d a b => exact execMul_later c d a b
  | mulh c d a b => exact execMulh_later c d a b
  | mulhu c d a b => exact execMulhu_later c d a b
  | clz c d a b => exact execClz_later c d a b
  | ctz c d a b => exact execCtz_later c d a b
  | popc c d a b => exact execPopc_later c d a b
  | addi c d a imm => exact execAddi_later c d a imm
  | andi c d a imm => exact execAndi_later c d a imm
  | ori c d a imm => exact execOri_later c d a imm
  | xori c d a imm => exact execXori_later c d a imm
  | slli c d a imm => exact execSlli_later c d a imm
  | srli c d a imm => exact execSrli_later c d a imm
  | srai c d a imm => exact execSrai_later c d a imm
  | slti c d a imm => exact execSlti_later c d a imm
  | orsh c d a imm => exact execOrsh_later c d a imm
  | lb c d a imm => exact execLb_later c d a imm
  | lh c d a imm => exact execLh_later c d a imm
  | lw c d a imm => exact execLw_later c d a imm
  | ld c d a imm => exact execLd_later c d a imm
  | lbu c d a imm => exact execLbu_later c d a imm
  | lhu c d a imm => exact execLhu_later c d a imm
  | lwu c d a imm => exact execLwu_later c d a imm
  | sb c d a imm => exact execSb_later c d a imm
  | sh c d a imm => exact execSh_later c d a imm
  | sw c d a imm => exact execSw_later c d a imm
  | sd c d a imm => exact execSd_later c d a imm
  | glw c d a imm => exact execGlw_later c d a imm
  | gld c d a imm => exact execGld_later c d a imm
  | gsw c d a imm => exact execGsw_later c d a imm
  | gsd c d a imm => exact execGsd_later c d a imm
  | globalAccessCompletion c status data => exact execGlobalAccessCompletion_later c status data
  | globalAccessTimeout c => exact execGlobalAccessTimeout_later c
  | beq c a b off => exact execBeq_later c a b off
  | bne c a b off => exact execBne_later c a b off
  | blt c a b off => exact execBlt_later c a b off
  | bge c a b off => exact execBge_later c a b off
  | bltu c a b off => exact execBltu_later c a b off
  | bgeu c a b off => exact execBgeu_later c a b off
  | jal c d off => exact execJal_later c d off
  | jalr c d a imm => exact execJalr_later c d a imm
  | nop c d a b => exact execNop_later c d a b
  | end_ c d a b => exact execEnd_later c d a b
  | endComplete c => exact execEndComplete_later c
  | brk c d a b => exact execBrk_later c d a b
  | iflush c d a b => exact execIflush_later c d a b
  | twait c d a t => exact execTwait_later c d a t
  | tstat c d a t => exact execTstat_later c d a t
  | tmask c d a b => exact execTmask_later c d a b
  | waitall c d a b => exact execWaitall_later c d a b
  | rdtime c d a b => exact execRdtime_later c d a b
  | rdcyc c d a b => exact execRdcyc_later c d a b
  | rdid c d a b => exact execRdid_later c d a b
  | qsend c d a b size => exact execQsend_later c d a b size
  | qrecv c d a b size => exact execQrecv_later c d a b size
  | qtry c d a b size => exact execQtry_later c d a b size
  | evwait c d a b size => exact execEvwait_later c d a b size
  | evclr c d a b size => exact execEvclr_later c d a b size
  | x c eng tag dptr flags => exact execX_later c eng tag dptr flags
  | xIssueStallEnd c => exact execXIssueStallEnd_later c
  | insnBufferFill c => exact execInsnBufferFill_later c
  | launchTake c => exact execLaunchTake_later c
  | pconf c iss d => exact execPconf_later c iss d
  | pconfTakeEffect c => exact execPconfTakeEffect_later c
  | pload c iss d => exact execPload_later c iss d
  | ploadComplete c => exact execPloadComplete_later c
  | pswap c iss => exact execPswap_later c iss
  | pswapSwap c => exact execPswapSwap_later c
  | pstream c iss d => exact execPstream_later c iss d
  | rampGrant c => exact execRampGrant_later c
  | rampComplete c => exact execRampComplete_later c
  | pstreamComplete c => exact execPstreamComplete_later c
  | tallyDecide c => exact execTallyDecide_later c
  | pdrain c iss d => exact execPdrain_later c iss d
  | pdrainComplete c => exact execPdrainComplete_later c
  | pressIdleCountExpire c => exact execPressIdleCountExpire_later c
  | pressFallComplete c => exact execPressFallComplete_later c
  | vecAdd c iss d => exact execVecAdd_later c iss d
  | vecSub c iss d => exact execVecSub_later c iss d
  | vecMul c iss d => exact execVecMul_later c iss d
  | vecFma c iss d => exact execVecFma_later c iss d
  | vecMax c iss d => exact execVecMax_later c iss d
  | vecMin c iss d => exact execVecMin_later c iss d
  | vecSel c iss d => exact execVecSel_later c iss d
  | vecCgt c iss d => exact execVecCgt_later c iss d
  | vecAbs c iss d => exact execVecAbs_later c iss d
  | vecNeg c iss d => exact execVecNeg_later c iss d
  | vecExp2 c iss d => exact execVecExp2_later c iss d
  | vecLog2 c iss d => exact execVecLog2_later c iss d
  | vecRcp c iss d => exact execVecRcp_later c iss d
  | vecRsqrt c iss d => exact execVecRsqrt_later c iss d
  | vecRsum c iss d => exact execVecRsum_later c iss d
  | vecRmax c iss d => exact execVecRmax_later c iss d
  | vecRmin c iss d => exact execVecRmin_later c iss d
  | vecRamax c iss d => exact execVecRamax_later c iss d
  | vecCvt c iss d => exact execVecCvt_later c iss d
  | vecQnt c iss d => exact execVecQnt_later c iss d
  | vecQnte c iss d => exact execVecQnte_later c iss d
  | vecDqnt c iss d => exact execVecDqnt_later c iss d
  | vecTrn c iss d => exact execVecTrn_later c iss d
  | vecCopy c iss d => exact execVecCopy_later c iss d
  | vecCommandStart c => exact execVecCommandStart_later c
  | vecCommandComplete c => exact execVecCommandComplete_later c
  | vecSeedWrite req c v => exact execVecSeedWrite_later req c v
  | csrWrite req addr size v => exact execCsrWrite_later req addr size v
  | rcRead req addr size => exact execRcRead_later req addr size
  | spdModeWrite req c v => exact execSpdModeWrite_later req c v
  | scratchpadEccWriteback c off => exact execScratchpadEccWriteback_later c off
  | patrolScrubRow c => exact execPatrolScrubRow_later c
  | remoteRequestArrive c r rtag => exact execRemoteRequestArrive_later c r rtag
  | localRequestArrive c r => exact execLocalRequestArrive_later c r
  | dmaCopy c e iss d => exact execDmaCopy_later c e iss d
  | dmaFill c e iss d => exact execDmaFill_later c e iss d
  | streamIn c e iss d => exact execStreamIn_later c e iss d
  | streamOut c e iss d => exact execStreamOut_later c e iss d
  | dmaBurstSend c e => exact execDmaBurstSend_later c e
  | dmaFillArrive c e k status data poison => exact execDmaFillArrive_later c e k status data poison
  | dmaBurstAck c e k status => exact execDmaBurstAck_later c e k status
  | streamOutMessageAnswer c e ext => exact execStreamOutMessageAnswer_later c e ext
  | dmaNotifyAnswer c e ext => exact execDmaNotifyAnswer_later c e ext
  | queueMessageArrive m => exact execQueueMessageArrive_later m
  | queueMessageAnswer p ext => exact execQueueMessageAnswer_later p ext
  | queueGrantArrive g rtag => exact execQueueGrantArrive_later g rtag
  | waiterRetryTimer p k => exact execWaiterRetryTimer_later p k
  | queCfgWrite req c q v => exact execQueCfgWrite_later req c q v
  | queBaseWrite req c q v => exact execQueBaseWrite_later req c q v
  | queDevWrite req c q v => exact execQueDevWrite_later req c q v
  | evtSetWrite req c hi v => exact execEvtSetWrite_later req c hi v
  | send c iss d => exact execSend_later c iss d
  | evpost c iss d => exact execEvpost_later c iss d
  | evpostArrive e => exact execEvpostArrive_later e
  | evpostAnswer c status => exact execEvpostAnswer_later c status
  | mcset c iss d => exact execMcset_later c iss d
  | mcsetComplete c => exact execMcsetComplete_later c
  | mcget c iss d => exact execMcget_later c iss d
  | mcastMemberAnswer p k ext => exact execMcastMemberAnswer_later p k ext
  | mcfwdArrive m => exact execMcfwdArrive_later m
  | lockAcq c iss d => exact execLockAcq_later c iss d
  | lockTry c iss d => exact execLockTry_later c iss d
  | lockRel c iss d => exact execLockRel_later c iss d
  | lockRequestArrive lock a => exact execLockRequestArrive_later lock a
  | lockReplyArrive c status val => exact execLockReplyArrive_later c status val
  | aadd c iss d => exact execAadd_later c iss d
  | amin c iss d => exact execAmin_later c iss d
  | amax c iss d => exact execAmax_later c iss d
  | aminu c iss d => exact execAminu_later c iss d
  | amaxu c iss d => exact execAmaxu_later c iss d
  | aswap c iss d => exact execAswap_later c iss d
  | acas c iss d => exact execAcas_later c iss d
  | atomicArrive a => exact execAtomicArrive_later a
  | atomicReplyArrive c status val => exact execAtomicReplyArrive_later c status val
  | packetRoute n r pkts bad => exact execPacketRoute_later n r pkts bad
  | seamResendBurst seam x plane dir group wire resends => exact execSeamResendBurst_later seam x plane dir group wire resends
  | crossingQuiesced seam x tests => exact execCrossingQuiesced_later seam x tests
  | serviceWireDisagree n seam x failed => exact execServiceWireDisagree_later n seam x failed
  | meshPacketDeliver k => exact execMeshPacketDeliver_later k
  | routerFail n r => exact execRouterFail_later n r
  | weightPropagate p => exact execWeightPropagate_later p
  | portTrainingDone p r => exact execPortTrainingDone_later p r
  | berGateEnd p lanes => exact execBerGateEnd_later p lanes
  | trainFrame p x => exact execTrainFrame_later p x
  | berWindowEnd p errors bits uncor => exact execBerWindowEnd_later p errors bits uncor
  | portSignalLoss p => exact execPortSignalLoss_later p
  | portRetrainTimer p => exact execPortRetrainTimer_later p
  | cmisPoll l ms => exact execCmisPoll_later l ms
  | dataFrame p f => exact execDataFrame_later p f
  | idleFrame p f => exact execIdleFrame_later p f
  | nakFrame p f => exact execNakFrame_later p f
  | replayTimeout p => exact execReplayTimeout_later p
  | beaconSend p => exact execBeaconSend_later p
  | beaconFrame p x => exact execBeaconFrame_later p x
  | keyFrame p f => exact execKeyFrame_later p f
  | linkPacketRoute at_ planeB k => exact execLinkPacketRoute_later at_ planeB k
  | stallTimeout p v => exact execStallTimeout_later p v
  | remoteTimeout r => exact execRemoteTimeout_later r
  | ethDataPacket p b peer e => exact execEthDataPacket_later p b peer e
  | ethAck b peer apsn => exact execEthAck_later b peer apsn
  | ethNak b peer psn => exact execEthNak_later b peer psn
  | ethAckTimer b peer => exact execEthAckTimer_later b peer
  | ethRto b peer => exact execEthRto_later b peer
  | cnp b peer mfrac => exact execCnp_later b peer mfrac
  | cnpIntervalEnd b peer => exact execCnpIntervalEnd_later b peer
  | rateIncreaseTimer b peer => exact execRateIncreaseTimer_later b peer
  | neighbourSolicitation b target => exact execNeighbourSolicitation_later b target
  | epochSwitch => exact execEpochSwitch_later
  | epochHoldExpire => exact execEpochHoldExpire_later
  | hbmRequest r => exact execHbmRequest_later r
  | hbmRateTokens st => exact execHbmRateTokens_later st
  | hbmEccWriteback st w => exact execHbmEccWriteback_later st w
  | hbmScrubWord st => exact execHbmScrubWord_later st
  | hbmTempRead st t => exact execHbmTempRead_later st t
  | hbmRecalibrate st ch => exact execHbmRecalibrate_later st ch
  | hbmChannelFail st ch => exact execHbmChannelFail_later st ch
  | bar2Write h f off bs poisoned => exact execBar2Write_later h f off bs poisoned
  | bar2Read h f off x => exact execBar2Read_later h f off x
  | sqtailWrite h f r v => exact execSqtailWrite_later h f r v
  | ringCtrlWrite h f r v => exact execRingCtrlWrite_later h f r v
  | ringBaseWrite h f r x v => exact execRingBaseWrite_later h f r x v
  | launchFetch h => exact execLaunchFetch_later h
  | launchTargetReport h c => exact execLaunchTargetReport_later h c
  | msixCoalesceTimer h f r => exact execMsixCoalesceTimer_later h f r
  | vfFlr h p => exact execVfFlr_later h p
  | pfFlr h => exact execPfFlr_later h
  | perstAssert h pin => exact execPerstAssert_later h pin
  | perstRelease h => exact execPerstRelease_later h
  | clkChangeArm t mask targets => exact execClkChangeArm_later t mask targets
  | pllLock n => exact execPllLock_later n
  | clkReadyCheck => exact execClkReadyCheck_later
  | clkSwitch => exact execClkSwitch_later
  | pllLockLoss n => exact execPllLockLoss_later n
  | vcoreLower n => exact execVcoreLower_later n
  | echoBeacon => exact execEchoBeacon_later
  | echoDelayMeasure n dly => exact execEchoDelayMeasure_later n dly
  | echoBeaconLoss n => exact execEchoBeaconLoss_later n
  | echoDiscipline ofs => exact execEchoDiscipline_later ofs
  | echoSourceLoss => exact execEchoSourceLoss_later
  | ptpMessage port domain ofs => exact execPtpMessage_later port domain ofs
  | ppsEdge => exact execPpsEdge_later
  | vinLowWarning mv => exact execVinLowWarning_later mv
  | vinFault mv => exact execVinFault_later mv
  | vinArrive mv => exact execVinArrive_later mv
  | autostart => exact execAutostart_later
  | vstbyLoss => exact execVstbyLoss_later
  | vstbyArrive => exact execVstbyArrive_later
  | bladeCurrentSample a b => exact execBladeCurrentSample_later a b
  | jointSample u deviates => exact execJointSample_later u deviates
  | jointTest u found => exact execJointTest_later u found
  | jointSuspectExpire u => exact execJointSuspectExpire_later u
  | domainTrip d => exact execDomainTrip_later d
  | phaseTrip n iss => exact execPhaseTrip_later n iss
  | stageTrip x => exact execStageTrip_later x
  | cgPowerupWave n => exact execCgPowerupWave_later n
  | domainTransitionDone d => exact execDomainTransitionDone_later d
  | powerSample compute aux parts => exact execPowerSample_later compute aux parts
  | governorDecision => exact execGovernorDecision_later
  | brakeRelease => exact execBrakeRelease_later
  | decafBrakeRelease => exact execDecafBrakeRelease_later
  | lendReport w => exact execLendReport_later w
  | lendRound ms => exact execLendRound_later ms
  | lendLimitMessage w => exact execLendLimitMessage_later w
  | lendConfirmTimeout done => exact execLendConfirmTimeout_later done
  | lendFallback => exact execLendFallback_later
  | tempSample tiles others => exact execTempSample_later tiles others
  | thermalTrip => exact execThermalTrip_later
  | fanStartCheck c volt => exact execFanStartCheck_later c volt
  | auxTrip c => exact execAuxTrip_later c
  | auxOverloadTrip c => exact execAuxOverloadTrip_later c
  | auxRetry c => exact execAuxRetry_later c
  | auxStandbyTrip => exact execAuxStandbyTrip_later
  | fanStall c rpm => exact execFanStall_later c rpm
  | coldRstRelease lowNs => exact execColdRstRelease_later lowNs
  | warmRstRelease lowNs => exact execWarmRstRelease_later lowNs
  | coldStartStageEnd o => exact execColdStartStageEnd_later o
  | startStageDeadline => exact execStartStageDeadline_later
  | warmStartStageEnd surveyOk => exact execWarmStartStageEnd_later surveyOk
  | autoRecover => exact execAutoRecover_later
  | computeResetDrainEnd => exact execComputeResetDrainEnd_later
  | computeResetDone => exact execComputeResetDone_later
  | partitionResetDone p => exact execPartitionResetDone_later p
  | coreResetDone c => exact execCoreResetDone_later c
  | remapSpareTested g pass => exact execRemapSpareTested_later g pass
  | remapDone g => exact execRemapDone_later g
  | coreFailDetected x => exact execCoreFailDetected_later x
  | watchdogExpire => exact execWatchdogExpire_later
  | carafeTakeControl ok => exact execCarafeTakeControl_later ok
  | haltNAssert ns => exact execHaltNAssert_later ns
  | haltNRelease ns => exact execHaltNRelease_later ns
  | haltArrive c => exact execHaltArrive_later c
  | runArrive c => exact execRunArrive_later c
  | partitionHalted p => exact execPartitionHalted_later p
  | errorCoalesceFlush => exact execErrorCoalesceFlush_later
  | eventLogFlush => exact execEventLogFlush_later
  | parityRewrite x => exact execParityRewrite_later x
  | fuseRecheck ok => exact execFuseRecheck_later ok
  | fieldCheckGroupDone g results => exact execFieldCheckGroupDone_later g results
  | fieldCheckUnitDone u pages => exact execFieldCheckUnitDone_later u pages
  | surveyCompact => exact execSurveyCompact_later
  | getVersion tr => exact execGetVersion_later tr
  | getCapabilities tr => exact execGetCapabilities_later tr
  | negotiateAlgorithms tr => exact execNegotiateAlgorithms_later tr
  | getDigests tr => exact execGetDigests_later tr
  | getCertificate tr slot => exact execGetCertificate_later tr slot
  | keyExchange tr transcript => exact execKeyExchange_later tr transcript
  | finish_ tr auth => exact execFinish_later tr auth
  | challenge tr nonce => exact execChallenge_later tr nonce
  | getMeasurements tr idx nonce => exact execGetMeasurements_later tr idx nonce
  | heartbeat tr sid => exact execHeartbeat_later tr sid
  | keyUpdate tr sid => exact execKeyUpdate_later tr sid
  | sessionTimeout sid => exact execSessionTimeout_later sid
  | mgmtDatagram p src u => exact execMgmtDatagram_later p src u
  | mgmtNetworkProbe p kind target => exact execMgmtNetworkProbe_later p kind target
  | mctpControl c => exact execMctpControl_later c
  | mailboxGo h f u => exact execMailboxGo_later h f u
  | peerMgmtPacket dev u => exact execPeerMgmtPacket_later dev u
  | hello_ h vmask => exact execHello_later h vmask
  | get_ h as => exact execGet_later h as
  | set_ h es => exact execSet_later h es
  | getblock h a off maxLen => exact execGetblock_later h a off maxLen
  | setblock h a off data => exact execSetblock_later h a off data
  | subscribe h r => exact execSubscribe_later h r
  | action_ h e => exact execAction_later h e
  | close_ h => exact execClose_later h
  | sequenceGapTimeout sid => exact execSequenceGapTimeout_later sid
  | stagingTimeout sid => exact execStagingTimeout_later sid
  | configCommit => exact execConfigCommit_later
  | mgmtSettingsApply => exact execMgmtSettingsApply_later
  | eventDeliver sid => exact execEventDeliver_later sid
  | surveyRevoke sid seq => exact execSurveyRevoke_later sid seq
  | epochAdvance sid => exact execEpochAdvance_later sid
  | portResetAction sid p => exact execPortResetAction_later sid p
  | portAdmit sid p => exact execPortAdmit_later sid p
  | bundleKeySwitch sid b => exact execBundleKeySwitch_later sid b
  | memoryRetire sid addr => exact execMemoryRetire_later sid addr
  | partitionReset sid p => exact execPartitionReset_later sid p
  | echoResync sid => exact execEchoResync_later sid
  | domainSwitch sid d v => exact execDomainSwitch_later sid d v
  | auxReset sid c => exact execAuxReset_later sid c
  | coldStart sid => exact execColdStart_later sid
  | warmStart sid => exact execWarmStart_later sid
  | computeReset sid => exact execComputeReset_later sid
  | managementRestart sid => exact execManagementRestart_later sid
  | lowEnter sid => exact execLowEnter_later sid
  | lowExit sid => exact execLowExit_later sid
  | stateRelease sid => exact execStateRelease_later sid
  | coreReset sid c => exact execCoreReset_later sid c
  | failCore sid c => exact execFailCore_later sid c
  | fieldCheck sid v => exact execFieldCheck_later sid v
  | alertAck sid q => exact execAlertAck_later sid q
  | enroll sid v => exact execEnroll_later sid v
  | slotRevoke sid k => exact execSlotRevoke_later sid k
  | factoryReset sid => exact execFactoryReset_later sid
  | firmwareActivate sid flags => exact execFirmwareActivate_later sid flags
  | firmwareVerifyDone sigOk digOk => exact execFirmwareVerifyDone_later sigOk digOk
  | firmwareConfirm sid => exact execFirmwareConfirm_later sid
  | firmwareRevert sid => exact execFirmwareRevert_later sid
  | trialHealth fields answered => exact execTrialHealth_later fields answered
  | trialTimeout => exact execTrialTimeout_later
  | countersClear sid => exact execCountersClear_later sid
  | counterWrap x n => exact execCounterWrap_later x n
  | smpCtrlWrite req c v => exact execSmpCtrlWrite_later req c v
  | sampleRecord c => exact execSampleRecord_later c
  | sharedCntCtlWrite req b v => exact execSharedCntCtlWrite_later req b v
  | reservedOpcode c w => exact execReservedOpcode_later c w
  | completionWriteError h f r => exact execCompletionWriteError_later h f r
  | hostLinkUp h speed width flit => exact execHostLinkUp_later h speed width flit
  | echoRefChange present => exact execEchoRefChange_later present
  | i3cEntdaa addr => exact execI3cEntdaa_later addr
  | mMemoryUncorrectable => exact execMMemoryUncorrectable_later

/-- One nanosecond touches neither memory nor the queue nor what was shown nor the draws. -/
theorem tick_keeps (s : State) : (tick s).now = s.now + 1 ∧ (tick s).pending = s.pending ∧ (tick s).mem = s.mem ∧
    (tick s).out = s.out ∧ (tick s).fresh = s.fresh := by
  rw [tick]
  split <;> exact ⟨rfl, rfl, rfl, rfl, rfl⟩

/-- A step on an empty queue. -/
theorem step_idle {s : State} (h : s.pending = []) : step s = .next (tick s) := by
  rw [step, h]

/-- A step with a command at the front. -/
theorem step_front {s : State} {i : Instr} {rest : List Instr} (h : s.pending = i :: rest) :
    step s = exec i { s with pending := rest } := by
  rw [step, h]

/-- Settles O60: a nanosecond touches none of it, and every command leaves a state that is `Later`. -/
theorem everyStepKeepsTheInvariant : Obligations.EveryStepKeepsTheInvariant := by
  unfold Obligations.EveryStepKeepsTheInvariant
  intro s t h
  match hp : s.pending with
  | [] =>
    rw [step_idle hp] at h
    obtain rfl := Host.Outcome.next.inj h
    obtain ⟨hnow, hpend, hmem, hout, hfresh⟩ := tick_keeps s
    exact ⟨fun w => by rwa [MemInv, hmem], hout ▸ List.prefix_refl _, hfresh ▸ le_refl _, hpend.trans hp, hnow⟩
  | i :: rest =>
    rw [step_front hp] at h
    obtain ⟨u, hu, hl⟩ := exec_later i { s with pending := rest }
    obtain rfl := Host.Outcome.next.inj (h.symm.trans hu)
    exact ⟨hl.mem, hl.out, hl.fresh, hl.pending, hl.now⟩


/-- What a reading of each part of a map keeps, a map of its values keeps. -/
theorem mget_map_keeps {α β : Type} (d : α) (r : α → β) (g : Nat × α → α) (m : Map α) (k : Nat) (hg : ∀ x, r (g x) = r x.2) :
    r (mget d (m.map (fun x => (x.1, g x))) k) = r (mget d m k) := by
  induction m with
  | nil => rfl
  | cons p m ih =>
    simp only [List.map_cons, mget]
    split
    · exact hg p
    · exact ih

theorem tickCore_ctl (rec : Nat → Sample → Bytes) (acq : Bool) (n : Nat) (k : Core) : (tickCore rec acq n k).ctl = k.ctl := rfl

theorem tick_ctl (s : State) (c : Nat) : ((tick s).core c).ctl = (s.core c).ctl := by
  rw [tick]
  split
  · rfl
  · exact mget_map_keeps _ _ _ _ _ (fun x => by split <;> rfl)

theorem tick_frame (s : State) : (tick s).parts = s.parts ∧ (tick s).groups = s.groups ∧ (tick s).logBuf = s.logBuf ∧
    (tick s).dev = s.dev ∧ (tick s).cfg = s.cfg := by
  rw [tick]
  split <;> exact ⟨rfl, rfl, rfl, rfl, rfl⟩

theorem tick_echoM {s : State} (hd : s.dev ≠ .off) (hs : s.ech.slew = 0) : (tick s).echoM = s.echoM + 1 := by
  rw [tick, if_neg hd]
  have h0 : echoSlew (s.now + 1) 0 = 0 := by simp [echoSlew]
  simp only [hs, h0]
  simp only [echoAdd, add_zero, BitVec.ofInt_add, BitVec.ofInt_natCast, BitVec.ofNat_toNat, BitVec.setWidth_eq]
  rfl

/-- Settles O58: the two cases of `step`, and what a nanosecond leaves alone. -/
theorem stepRunsTheFront : Obligations.StepRunsTheFront := by
  unfold Obligations.StepRunsTheFront
  refine ⟨fun i rest s h => ⟨step_front h, ?_⟩, fun s h => ⟨_, step_idle h, ?_⟩⟩
  · obtain ⟨t, ht, -⟩ := exec_later i { s with pending := rest }
    exact ⟨t, (step_front h).trans ht⟩
  · obtain ⟨hnow, hpend, hmem, hout, -⟩ := tick_keeps s
    obtain ⟨hparts, hgroups, hlog, hdev, hcfg⟩ := tick_frame s
    exact ⟨hnow, hpend.trans h, hmem, hout, hparts, hgroups, hlog, hdev, hcfg, fun c r => by rw [rg, tick_ctl, ← rg], tick_ctl s,
      tick_echoM⟩

/-- Settles O59: every unit that is not listed holds its reset value. -/
theorem resetStateStands : Obligations.ResetStateStands := by
  unfold Obligations.ResetStateStands
  rintro s rfl
  refine ⟨rfl, rfl, rfl, rfl, rfl, rfl, rfl, ?_, rfl, ?_, ?_, ?_, ?_, ?_, ?_, ?_, ?_, rfl, rfl, rfl, rfl, rfl, rfl, rfl, rfl, rfl, rfl, rfl⟩
  · intro d hd
    exact if_neg hd
  · intro c; exact ⟨rfl, rfl, rfl, rfl, rfl, rfl, fun r => ite_self _⟩
  · intro c; exact ⟨rfl, rfl, rfl⟩
  · intro c; exact ⟨rfl, rfl⟩
  · intro c; exact ⟨rfl, rfl, rfl⟩
  · intro c; exact ⟨rfl, rfl⟩
  · intro c; exact rfl
  · intro c hc
    exact decide_eq_true hc
  · intro c hc
    exact decide_eq_false (Nat.not_lt.2 hc)

end Sys2Proof.Machine
end

section
/-!
SUPPORT. The issue of an instruction on a core that is ready (R174, R178, R181, R192): what counting it leaves alone, the outcome of
an instruction that writes a register, and the fault of a core whose engines have no work.
-/

namespace Sys2Proof.Machine

/-! ### Counting -/

/-- `t` is `s` with other counters of core `c`, and nothing else. -/
structure Counted (s t : State) (c : Nat) : Prop where
  rest : { t with cores := s.cores } = s
  core : t.core c = { s.core c with cnt := (t.core c).cnt }
  others : ∀ k, k ≠ c → t.core k = s.core k

theorem Counted.refl (s : State) (c : Nat) : Counted s s c := ⟨rfl, rfl, fun _ _ => rfl⟩

theorem counted_count (s : State) (c code n : Nat) {w : Sample} : Counted s (count s c code n w) c :=
  ⟨rfl, count_core s c code n, fun _ h => count_core_ne s code n h⟩

theorem Counted.trans {s t u : State} {c : Nat} (h : Counted s t c) (k : Counted t u c) : Counted s u c := by
  refine ⟨?_, ?_, fun j hj => (k.others j hj).trans (h.others j hj)⟩
  · have e := h.rest
    rw [← k.rest] at e
    exact e
  · have e := k.core
    rw [h.core] at e
    exact e

section
variable {s t : State} {c : Nat} (h : Counted s t c)
include h

theorem Counted.ctl : (t.core c).ctl = (s.core c).ctl := by rw [h.core]
theorem Counted.que : (t.core c).que = (s.core c).que := by rw [h.core]
theorem Counted.spd : (t.core c).spd = (s.core c).spd := by rw [h.core]
theorem Counted.sb : (t.core c).sb = (s.core c).sb := by rw [h.core]
theorem Counted.flights : (t.core c).flights = (s.core c).flights := by rw [h.core]
theorem Counted.mem : t.mem = s.mem := by rw [← h.rest]
theorem Counted.marks : t.marks = s.marks := by rw [← h.rest]
theorem Counted.sends : t.sends = s.sends := by rw [← h.rest]
theorem Counted.fields : t.fields = s.fields := by rw [← h.rest]
theorem Counted.groups : t.groups = s.groups := by rw [← h.rest]
theorem Counted.devId : t.devId = s.devId := by rw [← h.rest]

theorem Counted.rg (r : Reg) : rg t c r = rg s c r := by rw [Machine.rg, h.ctl, Machine.rg]

theorem Counted.spKey (off : Nat) : spKey t c off = spKey s c off := by rw [Machine.spKey, Machine.spKey, h.spd]

theorem Counted.spByte (off : Nat) : spByte t c off = spByte s c off := by rw [Machine.spByte, Machine.spByte, h.spKey, h.mem]

theorem Counted.spBytes (off n : Nat) : spBytes t c off n = spBytes s c off n := by simp only [Machine.spBytes, h.spByte]

theorem Counted.spMark (off : Nat) : spMark t c off = spMark s c off := by rw [Machine.spMark, h.spKey, h.marks, ← Machine.spMark]

theorem Counted.sound {off n : Nat} (hs : Sound s c off n) : Sound t c off n := fun w hw => (h.spMark w).trans (hs w hw)

theorem Counted.sendOf (p : SendPath) : sendOf t p = sendOf s p := by rw [Machine.sendOf, h.sends, ← Machine.sendOf]

theorem Counted.quiet (hq : Quiet s c) : Quiet t c := by
  rw [Quiet, h.flights, h.sendOf, h.ctl]
  exact hq

theorem Counted.onlyCore : OnlyCore s t c := ⟨h.rest, h.others⟩

theorem Counted.ctlFrame : CtlFrame s t c := by
  constructor
  · rw [h.core]
  · rw [h.ctl]

end

theorem CtlFrame.trans {s t u : State} {c : Nat} (h : CtlFrame s t c) (k : CtlFrame t u c) : CtlFrame s u c := by
  obtain ⟨h1, h2⟩ := h
  obtain ⟨k1, k2⟩ := k
  constructor
  · rw [← h1, ← k1]
  · rw [← h2, ← k2]

/-- What an instruction does after it has been counted, it does. -/
theorem Counted.regIs {s u t : State} {c : Nat} {d : Reg} {v : W64} (h : Counted s u c) (k : RegIs u t c d v) :
    RegIs s t c d v := ⟨k.1, fun r hr => (k.2 r hr).trans (h.rg r)⟩

theorem Counted.retires {s u t : State} {c : Nat} {d : Reg} {v pc : W64} (h : Counted s u c) (k : Retires u t c d v pc) :
    Retires s t c d v pc := by
  obtain ⟨hreg, hgo, honly, hframe⟩ := k
  exact ⟨h.regIs hreg, hgo, h.onlyCore.trans honly, h.ctlFrame.trans hframe⟩

theorem Counted.faults {s u t : State} {c code detail : Nat} {insn : W32} {addr : W64} (h : Counted s u c)
    (k : Faults u t c code insn detail addr) : Faults s t c code insn detail addr := by
  rwa [Faults, h.ctl, ← Faults] at k

/-! ### Issue -/

/-- A ready core runs the instruction's effect, from a state that differs in its counters at most. -/
theorem issue_counted {s : State} {c : Nat} (hr : Ready s c) (act : State → State) :
    ∃ u, issue s c act = act u ∧ Counted s u c := by
  refine ⟨_, issue_ready hr act, ?_⟩
  split
  · exact Counted.refl s c
  · exact counted_count s c 0x01 1

/-- The same of a command whose meaning is an issue. -/
theorem exists_issue {s : State} {c : Nat} {P : State → Prop} (hr : Ready s c) (act : State → State)
    (h : ∀ u, Counted s u c → P (act u)) : ∃ t, (Host.Outcome.next (issue s c act) : Res) = .next t ∧ P t := by
  obtain ⟨u, hu, hc⟩ := issue_counted hr act
  exact ⟨_, rfl, hu ▸ h u hc⟩

theorem modCore_congr (s : State) (c : Nat) {f g : Core → Core} (h : f (s.core c) = g (s.core c)) : modCore s c f = modCore s c g := by
  rw [modCore, modCore, h]

theorem modCtl_congr (s : State) (c : Nat) {f g : Ctl → Ctl} (h : f (s.core c).ctl = g (s.core c).ctl) :
    modCtl s c f = modCtl s c g := modCore_congr s c (by rw [h])

/-- A register write and the step to the next instruction. -/
theorem retires_next (s : State) (c : Nat) (d : Reg) (v : W64) :
    Retires s (advance (setReg s c d v) c) c d v ((s.core c).ctl.pc + 4) := by
  have h := retires_jump d v ((s.core c).ctl.pc + 4) (OnlyCore.refl s c) (ctlFrame_refl s c) (fun _ => rfl)
  rwa [modCtl_congr (g := fun k => { k with pc := k.pc + 4, blk := .none }) (setReg s c d v) c (by simp [setReg])] at h

/-- A write to g0 is no write. -/
theorem setReg_zero (s : State) (c : Nat) (v : W64) : setReg s c 0 v = modCtl s c id := rfl

/-- The step to the next instruction alone. -/
theorem retires_advance (s : State) (c : Nat) : Retires s (advance s c) c 0 0 ((s.core c).ctl.pc + 4) := by
  refine ⟨⟨rfl, fun r _ => ?_⟩, ⟨by simp [advance], by simp [advance]⟩, onlyCore_advance s c, ?_⟩
  · simp [rg, advance, Ctl.get]
  · constructor <;> simp [advance]

theorem Counted.count {s t : State} {c : Nat} (h : Counted s t c) (code n : Nat) (w : Sample) :
    Counted s (count t c code n w) c := h.trans (counted_count t c code n)

theorem Counted.retires_next {s u : State} {c : Nat} (h : Counted s u c) (d : Reg) (v : W64) :
    Retires s (advance (setReg u c d v) c) c d v ((s.core c).ctl.pc + 4) := by
  rw [← h.ctl]
  exact h.retires (Machine.retires_next u c d v)

theorem Counted.retires_advance {s u : State} {c : Nat} (h : Counted s u c) :
    Retires s (advance u c) c 0 0 ((s.core c).ctl.pc + 4) := by
  rw [← h.ctl]
  exact h.retires (Machine.retires_advance u c)

theorem ctlFrame_setReg (s : State) (c : Nat) (r : Reg) (v : W64) : CtlFrame s (setReg s c r v) c := by
  constructor
  · simp [setReg]
  · simp only [setReg, core_modCtl, Ctl.put]
    split <;> rfl

theorem ctlFrame_goto (s : State) (c : Nat) (pc : W64) (b : Blk) :
    CtlFrame s (modCtl s c fun k => { k with pc := pc, blk := b }) c := by
  constructor <;> simp

theorem rg_goto (s : State) (c : Nat) (pc : W64) (b : Blk) (r : Reg) :
    rg (modCtl s c fun k => { k with pc := pc, blk := b }) c r = rg s c r := by
  simp [rg, Ctl.get]

/-- A jump that writes no register. -/
theorem Counted.retires_goto {s u : State} {c : Nat} (h : Counted s u c) (pc : W64) :
    Retires s (modCtl u c fun k => { k with pc := pc, blk := .none }) c 0 0 pc := by
  refine ⟨⟨rfl, fun r _ => ?_⟩, ⟨by simp, by simp⟩, h.onlyCore.trans (onlyCore_modCtl _ _ _), h.ctlFrame.trans (ctlFrame_goto _ _ _ _)⟩
  rw [rg_goto, h.rg]

/-- A register write, a count, and a jump. -/
theorem Counted.retires_jump {s u : State} {c : Nat} (h : Counted s u c) (d : Reg) (v pc : W64) (code n : Nat) (w : Sample) :
    Retires s (modCtl (Machine.count (setReg u c d v) c code n w) c fun k => { k with pc := pc, blk := .none }) c d v pc := by
  refine ⟨⟨?_, fun r hr => ?_⟩, ⟨by simp, by simp⟩, ?_, ?_⟩
  · rw [rg_goto, rg_count, rg_setReg]
  · rw [rg_goto, rg_count, rg_setReg_ne u c v hr, h.rg]
  · exact h.onlyCore.trans ((onlyCore_setReg _ _ _ _).trans ((onlyCore_count _ _ _ _).trans (onlyCore_modCtl _ _ _)))
  · exact h.ctlFrame.trans ((ctlFrame_setReg _ _ _ _).trans ((ctlFrame_count _ _ _ _).trans (ctlFrame_goto _ _ _ _)))

/-- An instruction that writes a register with what it computes from its registers. -/
theorem retires_issue {s : State} {c : Nat} {d : Reg} {v : State → W64} {w : W64} (hr : Ready s c)
    (hv : ∀ u, Counted s u c → v u = w) :
    ∃ t, (Host.Outcome.next (issue s c fun u => advance (setReg u c d (v u)) c) : Res) = .next t ∧
      Retires s t c d w ((s.core c).ctl.pc + 4) :=
  exists_issue hr _ fun u hc => by
    rw [hv u hc]
    exact hc.retires_next d w

/-! ### Faults at an instruction -/

/-- R192: the fault of an instruction, where no engine has work and no core is told: its record, and memory and registers stand. -/
theorem cuFault_quiet {s : State} {c : Nat} (code engine tag detail : Nat) (w : W32) (addr ga gb : W64)
    (hst : (s.core c).ctl.st = .running) (hblk : (s.core c).ctl.blk = .none ∨ (s.core c).ctl.blk = .sb) (hq : Quiet s c) :
    Faults s (cuFault s c code engine tag w detail addr ga gb) c code w detail addr ∧
      (cuFault s c code engine tag w detail addr ga gb).mem = s.mem := by
  obtain ⟨hctl, hmem⟩ := coreFault_quiet ⟨code, engine, false, tag, w, detail, addr, ga, gb⟩ hst hblk hq
  rw [cuFault, Faults, hctl]
  exact ⟨⟨rfl, _, rfl, rfl, rfl, rfl, rfl, rfl, rfl, rfl⟩, hmem⟩

/-- An instruction that faults, once counted. -/
theorem cuFault_counted {s u : State} {c : Nat} (code engine tag detail : Nat) (w : W32) (addr ga gb : W64) (hr : Ready s c)
    (hq : Quiet s c) (hc : Counted s u c) :
    Faults s (cuFault u c code engine tag w detail addr ga gb) c code w detail addr ∧
      (cuFault u c code engine tag w detail addr ga gb).mem = s.mem := by
  obtain ⟨hst, hblk⟩ := hr.running
  rw [← hc.ctl] at hst hblk
  obtain ⟨hfault, hmem⟩ := cuFault_quiet code engine tag detail w addr ga gb hst hblk (hc.quiet hq)
  exact ⟨hc.faults hfault, hmem.trans hc.mem⟩

end Sys2Proof.Machine
end

section
/-!
SUPPORT. The register instructions (O1): what each computes, and the outcome of their shared operations.
-/

namespace Sys2Proof.Machine

/-! ### Values (Tables 6.3, 6.4) -/

theorem b2w_slt (x y : W64) : b2w (x.slt y) = if x.toInt < y.toInt then 1 else 0 := by
  simp only [b2w, BitVec.slt, decide_eq_true_eq]

theorem b2w_ult (x y : W64) : b2w (x.ult y) = if x.toNat < y.toNat then 1 else 0 := by
  simp only [b2w, BitVec.ult, decide_eq_true_eq]

theorem ite_slt {α : Type} (x y : W64) (v w : α) : (if x.slt y then v else w) = if x.toInt < y.toInt then v else w := by
  simp only [BitVec.slt, decide_eq_true_eq]

theorem ite_ult {α : Type} (x y : W64) (v w : α) : (if x.ult y then v else w) = if x.toNat < y.toNat then v else w := by
  simp only [BitVec.ult, decide_eq_true_eq]

theorem mul_eq_ofNat (x y : W64) : x * y = BitVec.ofNat 64 (x.toNat * y.toNat) := rfl

theorem mulh_eq (x y : W64) : BitVec.ofInt 64 ((x.toInt * y.toInt) >>> 64) = BitVec.ofInt 64 (x.toInt * y.toInt / 2 ^ 64) := by
  have h := Int.shiftRight_natCast_right (x.toInt * y.toInt) 64
  rw [Int.shiftRight_eq_div_pow] at h
  exact congrArg _ h

theorem clz64_eq (x : W64) : clz64 x = 64 - Nat.size x.toNat := by
  unfold clz64
  split
  · next h => rw [h]; rfl
  · next h =>
    have hsize : Nat.size x.toNat = Nat.log2 x.toNat + 1 :=
      le_antisymm (Nat.size_le.2 Nat.lt_log2_self) (Nat.lt_size.2 (Nat.log2_self_le h))
    omega

/-- The first set bit ends the zeros before it; where none is set, all 64 are zeros. -/
theorem ctz64_eq (x : W64) : ctz64 x = ((List.range 64).takeWhile (fun i => !x.getLsbD i)).length := by
  have hctz : ctz64 x = ((List.range 64).find? (fun i => x.getLsbD i)).getD 64 := rfl
  rw [hctz, List.takeWhile_eq_take_findIdx_not, List.length_take, List.length_range]
  simp only [Bool.not_not]
  cases h : (List.range 64).find? (fun i => x.getLsbD i) with
  | none =>
    rw [List.find?_eq_none] at h
    rw [List.findIdx_eq_length.2 (by simpa using h)]
    rfl
  | some i =>
    obtain ⟨hx, hi, hlt⟩ := List.find?_range_eq_some.1 h
    rw [List.mem_range] at hi
    rw [(List.findIdx_eq (i := i) (by simpa using hi)).2 ⟨by simpa using hx, by simpa using hlt⟩]
    exact (Nat.min_eq_left hi.le).symm

theorem popc_eq (x : W64) : countBits 64 x.toNat = ((List.range 64).filter (fun i => x.getLsbD i)).length := rfl

/-! ### The shared operations -/

section
variable {s : State} {c : Nat} (d a b : Reg) (hr : Ready s c)
include hr

theorem alu_retires {f g : W64 → W64 → W64} (h : ∀ x y, f x y = g x y) :
    ∃ t, (.next (alu s c d a b f) : Res) = .next t ∧ Retires s t c d (g (rg s c a) (rg s c b)) ((s.core c).ctl.pc + 4) :=
  retires_issue hr fun u hc => by rw [hc.rg, hc.rg, h]

theorem aluImm_retires {f : W64 → W64} {v : W64} (h : f (rg s c a) = v) :
    ∃ t, (.next (aluImm s c d a f) : Res) = .next t ∧ Retires s t c d v ((s.core c).ctl.pc + 4) :=
  retires_issue hr fun u hc => by rw [hc.rg, h]

/-- A function of one register. -/
theorem alu1_outcome (fn : Nat) {f : W64 → W64} {g : W64 → Nat} (h : ∀ x, f x = BitVec.ofNat 64 (g x)) :
    (b = 0 → ∃ t, (.next (alu1 s c fn d a b f) : Res) = .next t ∧
      Retires s t c d (BitVec.ofNat 64 (g (rg s c a))) ((s.core c).ctl.pc + 4)) ∧
    (b ≠ 0 → Quiet s c → ∃ t, (.next (alu1 s c fn d a b f) : Res) = .next t ∧ Faults s t c 1 (encA 1 d.val a.val b.val fn) 0 0) := by
  constructor
  · rintro rfl
    exact retires_issue hr fun u hc => by rw [hc.rg, h]
  · intro hb hq
    obtain ⟨t, ht, hf, -, -⟩ := alu1_illegal fn d a f hr hq hb
    exact ⟨t, ht, hf⟩

/-- An immediate shift. -/
theorem aluShift_outcome (op : Nat) (imm : BitVec 15) (f : W64 → Nat → W64) :
    (imm.toNat < 64 → ∃ t, (.next (aluShift s c op d a imm f) : Res) = .next t ∧
      Retires s t c d (f (rg s c a) imm.toNat) ((s.core c).ctl.pc + 4)) ∧
    (64 ≤ imm.toNat → Quiet s c → ∃ t, (.next (aluShift s c op d a imm f) : Res) = .next t ∧
      Faults s t c 1 (encI op d.val a.val imm.toNat) 0 0) := by
  constructor
  · intro hi
    simp only [aluShift, if_pos hi]
    exact retires_issue hr fun u hc => by rw [hc.rg]
  · intro hi hq
    obtain ⟨t, ht, hf, -, -⟩ := issue_illegal (w := encI op d.val a.val imm.toNat) (ga := fun u => rg u c a) (gb := fun _ => 0) hr hq
      (act := fun u => if imm.toNat < 64 then advance (setReg u c d (f (rg u c a) imm.toNat)) c
        else illegal u c (encI op d.val a.val imm.toNat) (rg u c a) 0) fun _ => if_neg (Nat.not_lt.2 hi)
    exact ⟨t, ht, hf⟩

end

/-- Settles O1: every row of the four tables is one issue of a shared operation, with the function of its row. -/
theorem scalarFunctionsWriteTheirResult : Obligations.ScalarFunctionsWriteTheirResult := by
  unfold Obligations.ScalarFunctionsWriteTheirResult
  refine ⟨?alu, ?unary, ?imm, ?shift⟩
  case alu =>
    intro p hp s c d a b hr
    simp only [aluTable, List.mem_cons, List.not_mem_nil, or_false] at hp
    obtain rfl | rfl | rfl | rfl | rfl | rfl | rfl | rfl | rfl | rfl | rfl | rfl | rfl | rfl | rfl | rfl | rfl := hp
    · exact alu_retires d a b hr fun _ _ => rfl
    · exact alu_retires d a b hr fun _ _ => rfl
    · exact alu_retires d a b hr fun _ _ => rfl
    · exact alu_retires d a b hr fun _ _ => rfl
    · exact alu_retires d a b hr fun _ _ => rfl
    · exact alu_retires d a b hr fun _ _ => rfl
    · exact alu_retires d a b hr fun _ _ => rfl
    · exact alu_retires d a b hr fun _ _ => rfl
    · exact alu_retires d a b hr b2w_slt
    · exact alu_retires d a b hr b2w_ult
    · exact alu_retires d a b hr fun x y => ite_slt x y x y
    · exact alu_retires d a b hr fun x y => ite_slt x y y x
    · exact alu_retires d a b hr fun x y => ite_ult x y x y
    · exact alu_retires d a b hr fun x y => ite_ult x y y x
    · exact alu_retires d a b hr mul_eq_ofNat
    · exact alu_retires d a b hr mulh_eq
    · exact alu_retires d a b hr fun _ _ => rfl
  case unary =>
    intro p hp s c d a b hr
    simp only [unaryTable, List.mem_cons, List.not_mem_nil, or_false] at hp
    obtain rfl | rfl | rfl := hp
    · exact alu1_outcome d a b hr _ fun x => by rw [clz64_eq]
    · exact alu1_outcome d a b hr _ fun x => by rw [ctz64_eq]
    · exact alu1_outcome d a b hr _ fun x => by rw [popc_eq]
  case imm =>
    intro p hp s c d a imm hr
    simp only [immTable, List.mem_cons, List.not_mem_nil, or_false] at hp
    obtain rfl | rfl | rfl | rfl | rfl | rfl := hp
    · exact aluImm_retires d a hr rfl
    · exact aluImm_retires d a hr rfl
    · exact aluImm_retires d a hr rfl
    · exact aluImm_retires d a hr rfl
    · refine aluImm_retires d a hr ?_
      rw [b2w_slt, BitVec.toInt_signExtend_of_le (by decide)]
    · exact aluImm_retires d a hr rfl
  case shift =>
    intro p hp s c d a imm hr
    simp only [shiftTable, List.mem_cons, List.not_mem_nil, or_false] at hp
    obtain rfl | rfl | rfl := hp
    · exact aluShift_outcome d a hr _ imm _
    · exact aluShift_outcome d a hr _ imm _
    · exact aluShift_outcome d a hr _ imm _

end Sys2Proof.Machine
end

section
/-!
SUPPORT. Loads and stores of the own scratchpad (O2, O3, R185), branches and jumps (O4, Table 6.3).
-/

namespace Sys2Proof.Machine

/-! ### Scratchpad bytes under a change elsewhere -/

theorem spKey_congr {s t : State} {c : Nat} (h : (t.core c).spd = (s.core c).spd) (off : Nat) : spKey t c off = spKey s c off := by
  rw [spKey, spKey, h]

theorem spBytes_congr {s t : State} {c : Nat} (hspd : (t.core c).spd = (s.core c).spd) (hmem : t.mem = s.mem) (off n : Nat) :
    spBytes t c off n = spBytes s c off n := by
  simp only [spBytes, spByte, spKey_congr hspd, hmem]

/-- An access of 1, 2, 4 or 8 bytes at a multiple of its size touches one word. -/
theorem wordsOf_aligned {off n : Nat} (hn : n ∣ 8) (ha : off % n = 0) : wordsOf off n = [off / 8 * 8] := by
  have hn : n = 1 ∨ n = 2 ∨ n = 4 ∨ n = 8 := by
    have hle := Nat.le_of_dvd (by decide) hn
    interval_cases n <;> revert hn <;> decide
  have h0 : n ≠ 0 := by omega
  have hone : (off + n - 1) / 8 + 1 - off / 8 = 1 := by
    obtain rfl | rfl | rfl | rfl := hn <;> omega
  simp [wordsOf, h0, hone]

theorem sound_aligned {s : State} {c off n : Nat} (hn : n ∣ 8) (ha : off % n = 0) (h : spMark s c off = none) : Sound s c off n := by
  rw [Sound, wordsOf_aligned hn ha]
  intro w hw
  obtain rfl := List.mem_singleton.1 hw
  rwa [spMark, Nat.mul_div_cancel _ (by decide), ← spMark]

/-! ### Loads (R185) -/

section
variable {s : State} {c n op : Nat} {d a : Reg} {imm : BitVec 15} {ext : Nat → W64} {off : W64} (hr : Ready s c)
  (hoff : off = rg s c a + imm.signExtend 64)
include hr hoff

theorem loadSp_reads (hn : n ∣ 8) (hlt : off.toNat < 2 ^ 21) (ha : off.toNat % n = 0)
    (hsb : sbReadStall (s.core c) off.toNat n = false) (hmark : spMark s c off.toNat = none) :
    ∃ t, (.next (loadSp s c op d a imm n ext) : Res) = .next t ∧
      Retires s t c d (ext (leNat (spBytes s c off.toNat n))) ((s.core c).ctl.pc + 4) := by
  have hs := sound_aligned hn ha hmark
  refine exists_issue hr _ fun u hc => ?_
  have hsb' : sbReadStall (u.core c) off.toNat n = false := by rwa [sbReadStall, hc.sb, ← sbReadStall]
  simp only [hc.rg, ← hoff, if_neg (Nat.not_le.2 hlt), if_neg (not_not.2 ha), hsb', Bool.false_eq_true, if_false,
    spRead_sound 0 (hc.sound hs), hc.spBytes]
  exact ((hc.count _ _ _).count _ _ _).retires_next d _

theorem loadSp_out_of_range (hge : 2 ^ 21 ≤ off.toNat) (hq : Quiet s c) :
    ∃ t, (.next (loadSp s c op d a imm n ext) : Res) = .next t ∧ Faults s t c 3 (encI op d.val a.val imm.toNat) 0 off :=
  exists_issue hr _ fun u hc => by
    simp only [hc.rg, ← hoff, if_pos hge]
    exact (cuFault_counted _ _ _ _ _ _ _ _ hr hq hc).1

theorem loadSp_misaligned (hlt : off.toNat < 2 ^ 21) (ha : off.toNat % n ≠ 0) (hq : Quiet s c) :
    ∃ t, (.next (loadSp s c op d a imm n ext) : Res) = .next t ∧ Faults s t c 2 (encI op d.val a.val imm.toNat) n off :=
  exists_issue hr _ fun u hc => by
    simp only [hc.rg, ← hoff, if_neg (Nat.not_le.2 hlt), if_pos ha]
    exact (cuFault_counted _ _ _ _ _ _ _ _ hr hq hc).1

end

/-- Settles O2: every load is one issue of `loadSp`; an access that does not cross a word reads one sound word. -/
theorem loadsReadTheScratchpad : Obligations.LoadsReadTheScratchpad := by
  unfold Obligations.LoadsReadTheScratchpad
  intro p hp s c d a imm off hr hoff
  simp only [loadTable, List.mem_cons, List.not_mem_nil, or_false] at hp
  obtain rfl | rfl | rfl | rfl | rfl | rfl | rfl := hp
  · exact ⟨loadSp_reads hr hoff (by decide), loadSp_out_of_range hr hoff, loadSp_misaligned hr hoff⟩
  · exact ⟨loadSp_reads hr hoff (by decide), loadSp_out_of_range hr hoff, loadSp_misaligned hr hoff⟩
  · exact ⟨loadSp_reads hr hoff (by decide), loadSp_out_of_range hr hoff, loadSp_misaligned hr hoff⟩
  · exact ⟨loadSp_reads hr hoff (by decide), loadSp_out_of_range hr hoff, loadSp_misaligned hr hoff⟩
  · exact ⟨loadSp_reads hr hoff (by decide), loadSp_out_of_range hr hoff, loadSp_misaligned hr hoff⟩
  · exact ⟨loadSp_reads hr hoff (by decide), loadSp_out_of_range hr hoff, loadSp_misaligned hr hoff⟩
  · exact ⟨loadSp_reads hr hoff (by decide), loadSp_out_of_range hr hoff, loadSp_misaligned hr hoff⟩

/-! ### Stores (R185) -/

@[simp] theorem natBytes_length (n x : Nat) : (natBytes n x).length = n := by
  induction n generalizing x with
  | zero => rfl
  | succ n ih => rw [natBytes, List.length_cons, ih]

/-- What a store of `bs` at `off` leaves: the bytes stand there, every other byte, the registers and the rest of the core are as
before, and the next instruction is due. -/
def Stores (s t : State) (c off : Nat) (bs : Bytes) : Prop :=
  spBytes t c off bs.length = bs ∧ SpFrame s t c off bs.length ∧ (∀ r, rg t c r = rg s c r) ∧
    GoesTo t c ((s.core c).ctl.pc + 4) ∧ CtlFrame s t c

/-- A write of the scratchpad, counts, and the step to the next instruction. -/
theorem stores_advance {s u v : State} {c off : Nat} {bs : Bytes} (hm : MemInv s) (hin : off + bs.length ≤ 2 ^ 21)
    (hu : Counted s u c) (hv : Counted (spPuts u c off bs) v c) : Stores s (advance v c) c off bs := by
  have hmu : MemInv u := by rwa [MemInv, hu.mem]
  have hmem : (advance v c).mem = (spPuts u c off bs).mem := hv.mem
  have hspd : ((advance v c).core c).spd = ((spPuts u c off bs).core c).spd := by
    rw [← hv.spd]
    simp [advance]
  have hctl : (v.core c).ctl = (s.core c).ctl := by rw [hv.ctl, core_spPuts, hu.ctl]
  refine ⟨?_, ?_, fun r => ?_, ⟨?_, ?_⟩, ?_⟩
  · rw [spBytes_congr hspd hmem]
    exact spBytes_spPuts u c off bs hmu hin
  · intro x hx
    rw [hmem, spPuts_frame u c off bs hmu x fun i hi => hu.spKey _ ▸ hx i hi, hu.mem]
  · simp [rg, advance, Ctl.get, hctl]
  · simp [advance, hctl]
  · simp [advance]
  · have hput : CtlFrame u (spPuts u c off bs) c := by simp [CtlFrame]
    have hadv := retires_advance v c
    exact ((hu.ctlFrame.trans hput).trans hv.ctlFrame).trans hadv.2.2.2

section
variable {s : State} {c n op : Nat} {b a : Reg} {imm : BitVec 15} {off : W64} (hr : Ready s c)
  (hoff : off = rg s c a + imm.signExtend 64)
include hr hoff

theorem storeSp_writes (hm : MemInv s) (hn : n ∣ 8) (hlt : off.toNat < 2 ^ 21) (ha : off.toNat % n = 0)
    (hsb : sbWriteStall (s.core c) off.toNat n = false) (hmark : spMark s c off.toNat = none) :
    ∃ t, (.next (storeSp s c op b a imm n) : Res) = .next t ∧ Stores s t c off.toNat (natBytes n (rg s c b).toNat) := by
  have hs := sound_aligned hn ha hmark
  have hin : off.toNat + (natBytes n (rg s c b).toNat).length ≤ 2 ^ 21 := by
    rw [natBytes_length]
    obtain ⟨k, hk⟩ := hn
    obtain ⟨j, hj⟩ := Nat.dvd_of_mod_eq_zero ha
    have : n ∣ 2 ^ 21 := ⟨k * 2 ^ 18, by rw [← Nat.mul_assoc, ← hk]; rfl⟩
    obtain ⟨m, hm⟩ := this
    rw [hm, hj] at hlt ⊢
    rw [← Nat.mul_succ]
    exact Nat.mul_le_mul_left n (Nat.lt_of_mul_lt_mul_left hlt)
  refine exists_issue hr _ fun u hc => ?_
  have hsb' : sbWriteStall (u.core c) off.toNat n = false := by rwa [sbWriteStall, hc.sb, ← sbWriteStall]
  have hsound : Sound u c off.toNat (natBytes n (rg s c b).toNat).length := by rw [natBytes_length]; exact hc.sound hs
  simp only [hc.rg, ← hoff, if_neg (Nat.not_le.2 hlt), if_neg (not_not.2 ha), hsb', Bool.false_eq_true, if_false,
    spWrite_sound 0 hsound, if_true]
  refine stores_advance hm hin hc ?_
  split
  · exact (counted_count _ c 0x04 1).trans (counted_count _ c 0x49 1)
  · exact counted_count _ c 0x04 1

theorem storeSp_out_of_range (hge : 2 ^ 21 ≤ off.toNat) (hq : Quiet s c) :
    ∃ t, (.next (storeSp s c op b a imm n) : Res) = .next t ∧ Faults s t c 3 (encI op b.val a.val imm.toNat) 0 off ∧
      t.mem = s.mem :=
  exists_issue hr _ fun u hc => by
    simp only [hc.rg, ← hoff, if_pos hge]
    exact cuFault_counted _ _ _ _ _ _ _ _ hr hq hc

theorem storeSp_misaligned (hlt : off.toNat < 2 ^ 21) (ha : off.toNat % n ≠ 0) (hq : Quiet s c) :
    ∃ t, (.next (storeSp s c op b a imm n) : Res) = .next t ∧ Faults s t c 2 (encI op b.val a.val imm.toNat) n off ∧
      t.mem = s.mem :=
  exists_issue hr _ fun u hc => by
    simp only [hc.rg, ← hoff, if_neg (Nat.not_le.2 hlt), if_pos ha]
    exact cuFault_counted _ _ _ _ _ _ _ _ hr hq hc

/-- The three outcomes of a store. -/
theorem storeSp_outcome (hm : MemInv s) (hn : n ∣ 8) :
    (off.toNat < 2 ^ 21 → off.toNat % n = 0 → sbWriteStall (s.core c) off.toNat n = false → spMark s c off.toNat = none →
      ∃ t, (.next (storeSp s c op b a imm n) : Res) = .next t ∧ spBytes t c off.toNat n = natBytes n (rg s c b).toNat ∧
        SpFrame s t c off.toNat n ∧ (∀ r, rg t c r = rg s c r) ∧ GoesTo t c ((s.core c).ctl.pc + 4) ∧ CtlFrame s t c) ∧
    (2 ^ 21 ≤ off.toNat → Quiet s c → ∃ t, (.next (storeSp s c op b a imm n) : Res) = .next t ∧
      Faults s t c 3 (encI op b.val a.val imm.toNat) 0 off ∧ t.mem = s.mem) ∧
    (off.toNat < 2 ^ 21 → off.toNat % n ≠ 0 → Quiet s c → ∃ t, (.next (storeSp s c op b a imm n) : Res) = .next t ∧
      Faults s t c 2 (encI op b.val a.val imm.toNat) n off ∧ t.mem = s.mem) := by
  refine ⟨fun hlt ha hsb hmark => ?_, storeSp_out_of_range hr hoff, storeSp_misaligned hr hoff⟩
  obtain ⟨t, ht, hst⟩ := storeSp_writes (op := op) (b := b) hr hoff hm hn hlt ha hsb hmark
  rw [Stores, natBytes_length] at hst
  exact ⟨t, ht, hst⟩

end

/-- Settles O3: every store is one issue of `storeSp`, of a size that divides 8. -/
theorem storesWriteTheScratchpad : Obligations.StoresWriteTheScratchpad := by
  unfold Obligations.StoresWriteTheScratchpad
  intro p hp s c b a imm off hr hm hoff
  simp only [storeTable, List.mem_cons, List.not_mem_nil, or_false] at hp
  obtain rfl | rfl | rfl | rfl := hp <;> exact storeSp_outcome hr hoff hm (by decide)

/-! ### Branches and jumps (Table 6.3) -/

theorem branch_retires {s : State} {c : Nat} (a b : Reg) (off : BitVec 15) {rel : W64 → W64 → Bool} {q : Bool} (hr : Ready s c)
    (hq : rel (rg s c a) (rg s c b) = q) :
    ∃ t, (.next (branch s c a b off rel) : Res) = .next t ∧
      Retires s t c 0 0 (if q then (s.core c).ctl.pc + 4 * off.signExtend 64 else (s.core c).ctl.pc + 4) :=
  exists_issue hr _ fun u hc => by
    rw [hc.rg, hc.rg, hq]
    cases q with
    | false => exact hc.retires_advance
    | true =>
      have hctl : ((count u c 0x06 1).core c).ctl = (s.core c).ctl := (hc.count 0x06 1 hereSample).ctl
      have h := (hc.count 0x06 1 hereSample).retires_goto ((s.core c).ctl.pc + 4 * off.signExtend 64)
      rwa [modCtl_congr (g := fun k => { k with pc := k.pc + 4 * off.signExtend 64, blk := .none }) _ c (by rw [hctl])] at h

/-- Settles O4: a branch and a jump are one issue each, which writes the link register or none. -/
theorem branchesAndJumpsSetThePc : Obligations.BranchesAndJumpsSetThePc := by
  unfold Obligations.BranchesAndJumpsSetThePc
  refine ⟨?branches, ?jal, ?jalr⟩
  case branches =>
    intro p hp s c a b off hr
    simp only [branchTable, List.mem_cons, List.not_mem_nil, or_false] at hp
    obtain rfl | rfl | rfl | rfl | rfl | rfl := hp
    · exact branch_retires a b off hr rfl
    · exact branch_retires a b off hr (decide_not (p := rg s c a = rg s c b)).symm
    · exact branch_retires a b off hr rfl
    · exact branch_retires a b off hr (by simp [BitVec.slt, ← decide_not])
    · exact branch_retires a b off hr rfl
    · exact branch_retires a b off hr (by simp [BitVec.ult, ← decide_not])
  case jal =>
    intro s c d off hr
    refine exists_issue hr _ fun u hc => ?_
    rw [hc.ctl]
    exact hc.retires_jump d _ _ 0x06 1 hereSample
  case jalr =>
    intro s c d a imm x hr hx
    refine ⟨fun hal => exists_issue hr _ fun u hc => ?_, fun hal hq => exists_issue hr _ fun u hc => ?_⟩
    · simp only [hc.rg, ← hx, hal, ne_eq, not_true_eq_false, if_false]
      rw [hc.ctl]
      exact hc.retires_jump d _ _ 0x06 1 hereSample
    · simp only [hc.rg, ← hx, if_pos hal]
      exact (cuFault_counted _ _ _ _ _ _ _ _ hr hq hc).1

end Sys2Proof.Machine
end

section
/-!
SUPPORT. System functions (O5, Table 6.5): their issue, the mask of the tags that count, the end of a launch.
-/

namespace Sys2Proof.Machine

/-! ### Registers under a change of the control unit -/

theorem rg_modCtl (s : State) (c : Nat) {f : Ctl → Ctl} (h : (f (s.core c).ctl).regs = (s.core c).ctl.regs) (r : Reg) :
    rg (modCtl s c f) c r = rg s c r := by
  simp [rg, Ctl.get, h]

@[simp] theorem rg_advance (s : State) (c : Nat) (r : Reg) : rg (advance s c) c r = rg s c r := rg_modCtl s c rfl r

@[simp] theorem rg_block (s : State) (c : Nat) (b : Blk) (r : Reg) : rg (block s c b) c r = rg s c r := rg_modCtl s c rfl r

theorem goesTo_advance (s : State) (c : Nat) : GoesTo (advance s c) c ((s.core c).ctl.pc + 4) := by
  constructor <;> simp [advance]

theorem ctlFrame_block (s : State) (c : Nat) (b : Blk) : CtlFrame s (block s c b) c := by
  constructor <;> simp [block]

theorem ctlFrame_advance (s : State) (c : Nat) : CtlFrame s (advance s c) c := (retires_advance s c).2.2.2

/-! ### The mask of the tags that count (TMASK) -/

/-- The sum of the powers of two of the numbers below `n` that `p` does not hold for. -/
theorem foldl_two_pow (p : Nat → Prop) [DecidablePred p] (n : Nat) :
    (List.range n).foldl (fun m t => if p t then m else m + 2 ^ t) 0 < 2 ^ n ∧
      ∀ i, ((List.range n).foldl (fun m t => if p t then m else m + 2 ^ t) 0).testBit i = (decide (i < n) && decide (¬ p i)) := by
  induction n with
  | zero => simp
  | succ n ih =>
    obtain ⟨hlt, hbit⟩ := ih
    rw [List.range_succ, List.foldl_append, List.foldl_cons, List.foldl_nil]
    generalize (List.range n).foldl (fun m t => if p t then m else m + 2 ^ t) 0 = x at hlt hbit ⊢
    have hpow : 2 ^ (n + 1) = 2 ^ n + 2 ^ n := by rw [Nat.pow_succ]; omega
    split
    · next hp =>
      refine ⟨by omega, fun i => ?_⟩
      rw [hbit]
      by_cases hi : i = n
      · subst hi; simp [hp]
      · have : i < n + 1 ↔ i < n := by omega
        simp [this]
    · next hp =>
      refine ⟨by omega, fun i => ?_⟩
      rw [Nat.add_comm x]
      obtain hi | rfl | hi := Nat.lt_trichotomy i n
      · rw [Nat.testBit_two_pow_add_gt hi, hbit]
        simp [hi, Nat.lt_succ_of_lt hi]
      · rw [Nat.testBit_two_pow_add_eq, hbit]
        simp [hp]
      · have hbig : 2 ^ n + x < 2 ^ i := lt_of_lt_of_le (by omega) (Nat.pow_le_pow_right (by decide) hi)
        rw [Nat.testBit_lt_two_pow hbig]
        simp; omega

theorem getLsbD_tagMask (k : Ctl) (i : Nat) : (tagMask k).getLsbD i = (decide (i < 32) && decide (tagCount k i ≠ 0)) := by
  rw [tagMask, BitVec.getLsbD_ofNat, (foldl_two_pow (fun t => tagCount k t = 0) 32).2]
  by_cases hi : i < 32
  · simp [hi, show i < 64 by omega]
  · simp [hi]

theorem tagMask_eq_zero_iff (k : Ctl) : tagMask k = 0 ↔ ∀ j < 32, tagCount k j = 0 := by
  constructor
  · intro h j hj
    have := getLsbD_tagMask k j
    rw [h] at this
    simpa [hj] using this
  · intro h
    apply BitVec.eq_of_getLsbD_eq
    intro i _
    rw [getLsbD_tagMask]
    by_cases hi : i < 32
    · simp [hi, h i hi]
    · simp [hi]

/-- Clearing one bit. -/
theorem getLsbD_clear {w : Nat} (x : BitVec w) (i j : Nat) (hj : j < w) :
    (x &&& ~~~BitVec.ofNat w (2 ^ i)).getLsbD j = (x.getLsbD j && decide (i ≠ j)) := by
  simp only [BitVec.getLsbD_and, BitVec.getLsbD_not, BitVec.getLsbD_ofNat, Nat.testBit_two_pow, hj, decide_true, Bool.true_and,
    decide_not]

/-! ### The issue of a system function -/

/-- A system function whose must-be-0 fields are 0 has its effect. -/
theorem exists_sysFn {s : State} {c : Nat} {P : State → Prop} (hr : Ready s c) (w : W32) {zero : Bool} (hz : zero = true) (ga gb : W64)
    (act : State → State) (h : ∀ u, Counted s u c → P (act u)) :
    ∃ t, (.next (sysFn s c w zero ga gb act) : Res) = .next t ∧ P t := by
  subst hz
  exact exists_issue hr _ h

/-- A system function that writes a register. -/
theorem sysFn_retires {s : State} {c : Nat} {d : Reg} {v : State → W64} {x : W64} (hr : Ready s c) (w : W32) (ga gb : W64)
    (hv : ∀ u, Counted s u c → v u = x) :
    ∃ t, (.next (sysFn s c w true ga gb fun u => advance (setReg u c d (v u)) c) : Res) = .next t ∧
      Retires s t c d x ((s.core c).ctl.pc + 4) :=
  retires_issue hr hv

theorem fieldOf_eq (c : Nat) : fieldOf c = c / 96 := Nat.div_div_eq_div_mul c 12 8

theorem Counted.field {s u : State} {c : Nat} (h : Counted s u c) (n : Nat) : u.field n = s.field n := by
  rw [State.field, h.fields, ← State.field]

theorem Counted.partOf {s u : State} {c : Nat} (h : Counted s u c) (k : Nat) : partOf u k = partOf s k := by
  rw [Machine.partOf, State.grp, h.groups, ← State.grp, ← Machine.partOf]

theorem Counted.coreId {s u : State} {c : Nat} (h : Counted s u c) (k : Nat) : coreId u k = coreId s k := by
  rw [Machine.coreId, partNum, h.partOf, h.devId, ← partNum, ← Machine.coreId]

/-- A control unit that waits for what it may find: it goes on, or it is held. -/
theorem waits_or_goes {s u : State} {c : Nat} {p q : Prop} [Decidable p] {b : Blk} (hc : Counted s u c) (hpq : q → ¬ p) :
    OnlyCore s (if p then advance u c else block u c b) c ∧ CtlFrame s (if p then advance u c else block u c b) c ∧
      (∀ r, rg (if p then advance u c else block u c b) c r = rg s c r) ∧
      (p → GoesTo (if p then advance u c else block u c b) c ((s.core c).ctl.pc + 4)) ∧
      (q → ((if p then advance u c else block u c b).core c).ctl.pc = (s.core c).ctl.pc ∧
        ((if p then advance u c else block u c b).core c).ctl.blk = b) := by
  split
  · next hp =>
    refine ⟨hc.onlyCore.trans (onlyCore_advance u c), hc.ctlFrame.trans (ctlFrame_advance u c), fun r => by rw [rg_advance, hc.rg],
      fun _ => ?_, fun hq => absurd hp (hpq hq)⟩
    rw [← hc.ctl]
    exact goesTo_advance u c
  · next hp =>
    refine ⟨hc.onlyCore.trans (onlyCore_block u c b), hc.ctlFrame.trans (ctlFrame_block u c b), fun r => by rw [rg_block, hc.rg],
      fun h => absurd h hp, fun _ => ?_⟩
    simp [block, hc.ctl]

/-- TSTAT (Table 6.5). -/
theorem tstat_outcome {s u : State} {c : Nat} (d : Reg) (i : Nat) (v : W64) (hc : Counted s u c) {t : State}
    (ht : t = advance (modCtl (setReg u c d v) c fun k => { k with tagErr := k.tagErr &&& ~~~(BitVec.ofNat 32 (2 ^ i)) }) c) :
    RegIs s t c d v ∧ (t.core c).ctl.tagErr = (s.core c).ctl.tagErr &&& ~~~(BitVec.ofNat 32 (2 ^ i)) ∧
      (t.core c).ctl.tagCnt = (s.core c).ctl.tagCnt ∧ GoesTo t c ((s.core c).ctl.pc + 4) ∧ OnlyCore s t c := by
  have hreg : ∀ r, rg t c r = rg (setReg u c d v) c r := fun r => by
    rw [ht, rg_advance, rg_modCtl]
    rfl
  have hfields : ((setReg u c d v).core c).ctl.tagErr = (s.core c).ctl.tagErr ∧
      ((setReg u c d v).core c).ctl.tagCnt = (s.core c).ctl.tagCnt ∧ ((setReg u c d v).core c).ctl.pc = (s.core c).ctl.pc := by
    rw [setReg, core_modCtl, hc.ctl]
    simp only [Ctl.put]
    split <;> exact ⟨rfl, rfl, rfl⟩
  obtain ⟨herr, hcnt, hpc⟩ := hfields
  refine ⟨⟨?_, fun r hr => ?_⟩, ?_, ?_, ⟨?_, ?_⟩, ?_⟩
  · rw [hreg, rg_setReg]
  · rw [hreg, rg_setReg_ne u c v hr, hc.rg]
  · simp [ht, advance, herr]
  · simp [ht, advance, hcnt]
  · simp [ht, advance, hpc]
  · simp [ht, advance]
  · rw [ht]
    exact hc.onlyCore.trans ((onlyCore_setReg _ _ _ _).trans ((onlyCore_modCtl _ _ _).trans (onlyCore_advance _ _)))

/-! ### The end of a launch (R176) -/

/-- R363: a report leaves the other cores and memory alone. -/
theorem reportLaunch_others (s : State) (c : Nat) (rep : LaunchRep) : ∀ k, k ≠ c → (reportLaunch s c rep).core k = s.core k := by
  intro k hk
  unfold reportLaunch
  split
  · rfl
  · rw [core_modCtl_ne _ _ hk]
    rfl

theorem endComplete_idle {u : State} {c : Nat} (hst : (u.core c).ctl.st = .ending) (hf : (u.core c).flights = []) :
    ∃ t, exec (.endComplete c) u = .next t ∧ (t.core c).ctl.st = .idle ∧ (∀ r, rg t c r = rg u c r) ∧
      (t.core c).ctl.launchOn = none ∧ t.mem = u.mem ∧ ∀ k, k ≠ c → t.core k = u.core k := by
  have hexec : exec (.endComplete c) u =
      .next (reportLaunch (modCtl u c fun t => { t with st := .idle, pc := t.pc + 4 }) c .ended) := by
    change execEndComplete c u = _
    simp [execEndComplete, hst, hf]
  obtain ⟨hctl, -, -, hmem⟩ := reportLaunch_frame (modCtl u c fun t => { t with st := .idle, pc := t.pc + 4 }) c .ended
  refine ⟨_, hexec, ?_, fun r => ?_, ?_, hmem, fun k hk => ?_⟩
  · rw [hctl, core_modCtl]
  · rw [rg, hctl, core_modCtl, rg]
    rfl
  · rw [hctl]
  · rw [reportLaunch_others _ _ _ k hk, core_modCtl_ne _ _ hk]

/-- Settles O5: each system function is one issue; TMASK shows the tags bit by bit, and an END that finds no command outstanding
reports its launch. -/
theorem systemFunctionsComplete : Obligations.SystemFunctionsComplete := by
  unfold Obligations.SystemFunctionsComplete
  refine ⟨fun s c d hr => ⟨?nop, ?rdtime, ?rdcyc, ?rdid, ?tmask, ?iflush⟩,
    fun s c d i hr => ⟨?tstat, ?twait, ?waitall, ?end_, ?brk, fun u => endComplete_idle⟩⟩
  case nop => exact exists_sysFn hr _ rfl _ _ _ fun u hc => hc.retires_advance
  case rdtime => exact sysFn_retires hr _ _ _ fun u hc => by rw [echoOf, hc.field, fieldOf_eq]
  case rdcyc => exact sysFn_retires hr _ _ _ fun u hc => by rw [hc.field, hc.ctl, fieldOf_eq]
  case rdid => exact sysFn_retires hr _ _ _ fun u hc => by rw [hc.coreId]
  case tmask =>
    obtain ⟨t, ht, hret⟩ := sysFn_retires (d := d) hr (encA 2 d.val 0 0 6) (rg s c 0) (rg s c 0)
      (v := fun u => tagMask (u.core c).ctl) (x := tagMask (s.core c).ctl) fun u hc => by rw [hc.ctl]
    exact ⟨t, _, ht, hret, fun i _ => getLsbD_tagMask _ i⟩
  case iflush =>
    refine exists_sysFn hr _ rfl _ _ _ fun u hc => ⟨by simp [advance], fun r => ?_, ⟨?_, ?_⟩, ?_⟩
    · rw [rg_advance, rg_modCtl _ _ rfl, hc.rg]
    · simp [advance, hc.ctl]
    · simp [advance]
    · exact hc.onlyCore.trans ((onlyCore_modCtl _ _ _).trans (onlyCore_advance _ _))
  case tstat =>
    refine exists_sysFn hr _ rfl _ _ _ fun u hc => ?_
    rw [hc.ctl]
    obtain ⟨hreg, herr, hcnt, hgo, honly⟩ := tstat_outcome d i.val (BitVec.ofNat 64 (tagCount (s.core c).ctl i.val +
      if (s.core c).ctl.tagErr.getLsbD i.val then 256 else 0)) hc rfl
    refine ⟨hreg, ?_, fun j hj hji => ?_, hcnt, hgo, honly⟩
    · rw [herr, getLsbD_clear _ _ _ i.isLt]
      simp
    · rw [herr, getLsbD_clear _ _ _ hj]
      simp [Ne.symm hji]
  case twait =>
    refine exists_sysFn hr _ rfl _ _ _ fun u hc => ?_
    rw [hc.ctl]
    exact waits_or_goes hc id
  case waitall =>
    refine exists_sysFn hr _ rfl _ _ _ fun u hc => ?_
    rw [hc.ctl]
    simp only [← tagMask_eq_zero_iff]
    exact waits_or_goes hc fun ⟨j, hj, hne⟩ h => hne ((tagMask_eq_zero_iff _).1 h j hj)
  case end_ =>
    refine exists_sysFn hr _ rfl _ _ _ fun u hc => ⟨by simp, fun r => ?_, hc.onlyCore.trans (onlyCore_modCtl _ _ _)⟩
    rw [rg_modCtl _ _ rfl, hc.rg]
  case brk => exact fun hq => exists_sysFn hr _ rfl _ _ _ fun u hc => cuFault_counted _ _ _ _ _ _ _ _ hr hq hc

end Sys2Proof.Machine
end

section
/-!
SUPPORT. Register accesses at the block of a core (R51 to R57): the checks they pass, what the refused ones change, and the
registers that act (O21, O22).
-/

namespace Sys2Proof.Machine

/-! ### The place of a core register -/

/-- What a 4-byte write carries, cut to a field of at most 32 bits. -/
theorem ofNat_mod_eq_setWidth (v : W64) {w : Nat} (hw : w ≤ 32) : BitVec.ofNat w (v.toNat % 2 ^ 32) = v.setWidth w := by
  refine BitVec.eq_of_toNat_eq ?_
  rw [BitVec.toNat_ofNat, BitVec.toNat_setWidth, Nat.mod_mod_of_dvd _ (Nat.pow_dvd_pow 2 hw)]

theorem ofNat_toNat_mod_eq_setWidth (v : W32) : BitVec.ofNat 64 (v.toNat % 2 ^ 32) = v.setWidth 64 := by
  refine BitVec.eq_of_toNat_eq ?_
  rw [BitVec.toNat_ofNat, BitVec.toNat_setWidth, Nat.mod_eq_of_lt v.isLt]

/-- Table 2.7: the block and offset of the register at `off` of core `c`. -/
theorem csrPlace_core {c off : Nat} (hc : c < 1152) (hoff : off < 2 ^ 16) :
    csrPlace (0x020000000000 + c * 2 ^ 16 + off) = some (.core c, off) := by
  have hcsr : isCsr (0x020000000000 + c * 2 ^ 16 + off) = true := by
    simp only [isCsr, Bool.and_eq_true, decide_eq_true_eq]
    omega
  have hlt : 0x020000000000 + c * 2 ^ 16 + off - 0x020000000000 < 1152 * 2 ^ 16 := by omega
  simp only [csrPlace, hcsr, Bool.not_true, Bool.false_eq_true, if_false, if_pos hlt]
  have h1 : (0x020000000000 + c * 2 ^ 16 + off - 0x020000000000) / 2 ^ 16 = c := by omega
  have h2 : (0x020000000000 + c * 2 ^ 16 + off - 0x020000000000) % 2 ^ 16 = off := by omega
  rw [h1, h2]

theorem isCsr_core {c off : Nat} (hc : c < 1152) (hoff : off < 2 ^ 16) : isCsr (0x020000000000 + c * 2 ^ 16 + off) = true := by
  simp only [isCsr, Bool.and_eq_true, decide_eq_true_eq]
  omega

theorem present_lt {s : State} {c : Nat} (h : present s c = true) : c < 1152 := by
  simp only [present, Bool.and_eq_true, decide_eq_true_eq] at h
  exact h.1

/-- R53: who may reach a core has rights to its block, and is not turned away by its reset. -/
theorem MayReach.rights {s : State} {req : Requester} {c : Nat} (h : MayReach s req c) (write : Bool) :
    csrRights s req (.core c) write = true ∧ ((s.core c).crst && req != .carafe) = false := by
  obtain ⟨-, rfl | ⟨hrst, k, p, rfl, hk, hc⟩⟩ := h
  · exact ⟨rfl, by simp⟩
  · simp [csrRights, hk, hc, hrst]

/-- Accesses of 4 or 8 bytes to the registers of a core that the requester may reach pass the checks (R54). -/
theorem csrCheck_ok {s : State} {req : Requester} {c off size : Nat} (h : MayReach s req c) (write : Bool)
    (hsize : size = 4 ∨ size = 8) (hal : off % size = 0) (hin : off + size ≤ 0x8000) :
    csrCheck s req (0x020000000000 + c * 2 ^ 16 + off) size write = .ok := by
  obtain ⟨hright, hrst⟩ := h.rights write
  have hc := present_lt h.1
  have hgap : ¬ 0x8000 ≤ off ∧ ¬ (size = 8 ∧ 0x8000 ≤ off + 4) := by omega
  have hok : ((size == 4 || size == 8) && (0x020000000000 + c * 2 ^ 16 + off) % size == 0) = true := by
    obtain rfl | rfl := hsize <;> simp <;> omega
  simp only [csrCheck, csrPlace_core hc (show off < 2 ^ 16 by omega), hright, hrst, hok, h.1]
  obtain rfl | rfl := hsize <;> simp [csrGap, hgap.1]
  omega

section
variable {s : State} {req : Requester} {c off : Nat} (h : MayReach s req c)
include h

/-- R54, R56: a 4-byte write to a register of a core. -/
theorem csrWrite_core (v : W64) (hal : off % 4 = 0) (hin : off < 0x8000) :
    csrWrite s req (coreCsr c off) 4 v = coreBlockWrite s req c off (v.toNat % 2 ^ 32) := by
  have hc := present_lt h.1
  simp only [csrWrite, coreCsr, isCsr_core hc (show off < 2 ^ 16 by omega), csrWriteAt,
    csrCheck_ok h true (Or.inl rfl) hal (by omega), csrPlace_core hc (show off < 2 ^ 16 by omega), csrPut, blockWrite,
    Bool.not_true, Bool.false_eq_true, if_false, Nat.reduceEqDiff]

/-- R54, R56: a 4-byte read of a register of a core. -/
theorem csrRead_core (hal : off % 4 = 0) (hin : off < 0x8000) :
    csrRead s req (coreCsr c off) 4 =
      emit (clearCore s c off) (.csrData req (coreCsr c off) 4 (BitVec.ofNat 64 (coreBlockReg s c off % 2 ^ 32))) := by
  have hc := present_lt h.1
  simp only [csrRead, coreCsr, isCsr_core hc (show off < 2 ^ 16 by omega), csrReadAt,
    csrCheck_ok h false (Or.inl rfl) hal (by omega), csrPlace_core hc (show off < 2 ^ 16 by omega), csrGet, blockReg, clearRc,
    Bool.not_true, Bool.false_eq_true, if_false, Nat.reduceEqDiff]

/-- R54: an 8-byte read of two registers of a core. -/
theorem csrRead_core_pair (hal : off % 8 = 0) (hin : off < 0x8000) :
    csrRead s req (coreCsr c off) 8 =
      emit (clearCore (clearCore s c off) c (off + 4)) (.csrData req (coreCsr c off) 8
        (BitVec.ofNat 64 (coreBlockReg s c (off + 4) * 2 ^ 32 + coreBlockReg s c off % 2 ^ 32))) := by
  have hc := present_lt h.1
  simp only [csrRead, coreCsr, isCsr_core hc (show off < 2 ^ 16 by omega), csrReadAt,
    csrCheck_ok h false (Or.inr rfl) hal (by omega), csrPlace_core hc (show off < 2 ^ 16 by omega), csrGet, blockReg, clearRc,
    Bool.not_true, Bool.false_eq_true, if_false, if_true]

/-- The command of a 4-byte write to the block of a core. -/
theorem coreRegWrite_eq (v : W32) (hal : off % 4 = 0) (hin : off < 0x8000) :
    coreRegWrite s req c off v = coreBlockWrite s req c off v.toNat := by
  have hv : (v.setWidth 64).toNat % 2 ^ 32 = v.toNat := by
    rw [BitVec.toNat_setWidth]
    omega
  rw [coreRegWrite, if_pos (present_lt h.1), ← coreCsr, csrWrite_core h _ hal hin, hv]

end

/-- Settles O21: an access passes the checks and reaches its register, whose access code decides the rest. -/
theorem registersKeepTheirAccessCodes : Obligations.RegistersKeepTheirAccessCodes := by
  unfold Obligations.RegistersKeepTheirAccessCodes
  intro s req c v h
  have hc := present_lt h.1
  refine ⟨?_, ?_, fun off hoff => ?_, fun hce => ?_, ?_, fun hdev hpart => ?_⟩
  · change Host.Outcome.next (csrWrite _ _ _ _ _) = _
    rw [csrWrite_core h v (by decide) (by decide)]
    change Host.Outcome.next (modCtl s c fun k => { k with gtag := BitVec.ofNat 32 (v.toNat % 2 ^ 32) }) = _
    rw [ofNat_mod_eq_setWidth v (by decide)]
  · change Host.Outcome.next (csrRead _ _ _ _) = _
    rw [csrRead_core h (by decide) (by decide)]
    change Host.Outcome.next (emit s (.csrData req (coreCsr c 0x10) 4 (BitVec.ofNat 64 ((s.core c).ctl.gtag.toNat % 2 ^ 32)))) = _
    rw [ofNat_toNat_mod_eq_setWidth]
  · change Host.Outcome.next (csrWrite _ _ _ _ _) = _
    obtain rfl | rfl | rfl | rfl := hoff <;> rw [csrWrite_core h v (by decide) (by decide)] <;> rfl
  · change Host.Outcome.next (csrRead _ _ _ _) = _
    rw [csrRead_core h (by decide) (by decide)]
    change Host.Outcome.next (emit (modSpd s c fun d => { d with eccCe := 0 }) (.csrData req (coreCsr c 0x3010) 4
      (BitVec.ofNat 64 ((s.core c).spd.eccCe % 2 ^ 32)))) = _
    rw [Nat.mod_eq_of_lt hce]
  · change Host.Outcome.next (csrWrite _ _ _ _ _) = _
    rw [csrWrite_core h v (by decide) (by decide)]
    change Host.Outcome.next (modPrs s c fun p => { p with flags := p.flags &&& ~~~(BitVec.ofNat 4 (v.toNat % 2 ^ 32)) }) = _
    rw [ofNat_mod_eq_setWidth v (by decide)]
  · change Host.Outcome.next (csrRead _ _ _ _) = _
    rw [csrRead_core_pair h (by decide) (by decide)]
    change Host.Outcome.next (emit s (.csrData req (coreCsr c 0) 8 (BitVec.ofNat 64
      ((blkCode (s.core c) * 2 ^ 8 + ctlStateCode (s.core c).ctl.st) * 2 ^ 32 + (partNum s c * 2 ^ 28 + s.devId * 2 ^ 14 + c) % 2 ^ 32)))) = _
    rw [Nat.mod_eq_of_lt (by omega)]
    simp only [Nat.add_assoc]

end Sys2Proof.Machine
end

section
/-!
SUPPORT. Registers that are refused, those that act, and the registers of queues (R53, R54, R141, R209, R219, R220, R231, R546, R549),
and the waits for event flags (R231, R232).
-/

namespace Sys2Proof.Machine

/-! ### Refused accesses -/

/-- R51, R53, R54, R277: the checks of an access to the block of a core, in their order (R573). -/
theorem csrCheck_core (s : State) (req : Requester) {c off : Nat} (size : Nat) (write : Bool) (hc : c < 1152) (hoff : off < 2 ^ 16) :
    csrCheck s req (0x020000000000 + c * 2 ^ 16 + off) size write =
      if !csrRights s req (.core c) write then .denied
      else if !present s c || csrGap (.core c) off || (size == 8 && csrGap (.core c) (off + 4)) then .unmapped
      else if !((size == 4 || size == 8) && (0x020000000000 + c * 2 ^ 16 + off) % size == 0) then .size
      else if (s.core c).crst && req != .carafe then .destReset
      else .ok := by
  simp only [csrCheck, csrPlace_core hc hoff]

theorem csrWriteAt_refused {s : State} {req : Requester} {a size : Nat} (v : W64) {r : RSt}
    (h : csrCheck s req a size true = r) (hr : r ≠ .ok) : csrWriteAt s req a size v = (csrRefused s req a r, r) := by
  rw [csrWriteAt, h]
  cases r with
  | ok => exact absurd rfl hr
  | _ => rfl

theorem csrReadAt_refused {s : State} {req : Requester} {a size : Nat} {r : RSt}
    (h : csrCheck s req a size false = r) (hr : r ≠ .ok) : csrReadAt s req a size = (csrRefused s req a r, r, 0) := by
  rw [csrReadAt, h]
  cases r with
  | ok => exact absurd rfl hr
  | _ => rfl

/-- R573: a refused write answers its status, and changes what the refusal counts alone. -/
theorem csrWrite_refused {s : State} {req : Requester} {c off size : Nat} (v : W64) {r : RSt} (hc : c < 1152) (hoff : off < 2 ^ 16)
    (h : csrCheck s req (0x020000000000 + c * 2 ^ 16 + off) size true = r) (hr : r ≠ .ok) :
    csrWrite s req (coreCsr c off) size v =
      emit (csrRefused s req (0x020000000000 + c * 2 ^ 16 + off) r) (.csrError req (coreCsr c off) (csrCode r)) := by
  simp only [csrWrite, coreCsr, isCsr_core hc hoff, csrWriteAt_refused v h hr, Bool.not_true, Bool.false_eq_true, if_false]

/-- R573: a refused read likewise. -/
theorem csrRead_refused {s : State} {req : Requester} {c off size : Nat} {r : RSt} (hc : c < 1152) (hoff : off < 2 ^ 16)
    (h : csrCheck s req (0x020000000000 + c * 2 ^ 16 + off) size false = r) (hr : r ≠ .ok) :
    csrRead s req (coreCsr c off) size =
      emit (csrRefused s req (0x020000000000 + c * 2 ^ 16 + off) r) (.csrError req (coreCsr c off) (csrCode r)) := by
  simp only [csrRead, coreCsr, isCsr_core hc hoff, csrReadAt_refused h hr, Bool.not_true, Bool.false_eq_true, if_false]

/-- R53: a core has no rights to a core of another partition. -/
theorem csrCheck_denied {s : State} {k c off : Nat} (size : Nat) (write : Bool) (hc : c < 1152) (hoff : off < 2 ^ 16)
    (h : partOf s k = none ∨ partOf s k ≠ partOf s c) :
    csrCheck s (.core k) (0x020000000000 + c * 2 ^ 16 + off) size write = .denied := by
  have hright : csrRights s (.core k) (.core c) write = false := by
    simp only [csrRights]
    split
    · next p b k' hp hb =>
      cases hb
      obtain h | h := h
      · simp [h] at hp
      · rw [hp] at h
        simpa using Ne.symm h
    · next hb => cases hb
    · rfl
  rw [csrCheck_core s _ size write hc hoff, hright]
  rfl

/-- R51: Carafe finds nothing at a gap or at an absent core. -/
theorem csrCheck_unmapped {s : State} {c off : Nat} (size : Nat) (write : Bool) (hc : c < 1152) (hoff : off < 2 ^ 16)
    (h : present s c = false ∨ 0x8000 ≤ off) :
    csrCheck s .carafe (0x020000000000 + c * 2 ^ 16 + off) size write = .unmapped := by
  rw [csrCheck_core s _ size write hc hoff]
  obtain h | h := h
  · simp only [csrRights, h, Bool.not_true, Bool.false_eq_true, if_false, Bool.not_false, Bool.true_or, if_true]
  · simp only [csrRights, csrGap, h, decide_true, Bool.not_true, Bool.false_eq_true, if_false, Bool.or_true, Bool.true_or, if_true]

/-- R54: an access of another size, or that is not aligned to it. -/
theorem csrCheck_size {s : State} {c off size : Nat} (write : Bool) (hc : c < 1152) (hoff : off < 0x7FFC)
    (hp : present s c = true) (h : (size ≠ 4 ∧ size ≠ 8) ∨ off % size ≠ 0) :
    csrCheck s .carafe (0x020000000000 + c * 2 ^ 16 + off) size write = .size := by
  have hgap : ¬ 0x8000 ≤ off ∧ ¬ 0x8000 ≤ off + 4 := by omega
  have hno : ((size == 4 || size == 8) && (0x020000000000 + c * 2 ^ 16 + off) % size == 0) = false := by
    rw [Bool.and_eq_false_iff, Bool.or_eq_false_iff]
    simp only [beq_eq_false_iff_ne]
    by_cases h4 : size = 4
    · subst h4
      omega
    · by_cases h8 : size = 8
      · subst h8
        omega
      · exact Or.inl ⟨h4, h8⟩
  rw [csrCheck_core s _ size write hc (show off < 2 ^ 16 by omega), hno]
  simp [csrRights, hp, csrGap, hgap.1, hgap.2]

/-- Settles O22: the first check that fails names the status, and the refusal counts it. -/
theorem registerAccessesAreRefusedInOrder : Obligations.RegisterAccessesAreRefusedInOrder := by
  unfold Obligations.RegisterAccessesAreRefusedInOrder
  intro s k c off size v hc hoff
  refine ⟨fun h => ⟨?_, ?_⟩, fun h => ⟨?_, ?_⟩, fun hp hoff' h => ⟨?_, ?_⟩⟩
  · exact congrArg _ (csrWrite_refused v hc hoff (csrCheck_denied size true hc hoff h) (by decide))
  · exact congrArg _ (csrRead_refused hc hoff (csrCheck_denied size false hc hoff h) (by decide))
  · exact congrArg _ (csrWrite_refused v hc hoff (csrCheck_unmapped size true hc hoff h) (by decide))
  · exact congrArg _ (csrRead_refused hc hoff (csrCheck_unmapped size false hc hoff h) (by decide))
  · exact congrArg _ (csrWrite_refused v hc hoff (csrCheck_size true hc hoff' hp h) (by decide))
  · exact congrArg _ (csrRead_refused hc hoff (csrCheck_size false hc hoff' hp h) (by decide))

/-! ### The registers of a queue -/

/-- A write to a register of a queue leaves the configuration that its rules give. -/
theorem queSet_eq {s : State} {c q : Nat} {g f : Queue → Queue}
    (h : queConfig (s.core c) q ((s.core c).que.q q) (g ((s.core c).que.q q)) = f ((s.core c).que.q q)) :
    queSet s c q g = modQ s c q f := by
  unfold queSet modQ modQue
  exact modCore_congr s c (by simp only [h])

/-- The register at offset `r` of the registers of queue `q`. -/
theorem coreBlockWrite_que (s : State) (req : Requester) (c : Nat) (q : Fin 32) (r : Fin 16) (v : Nat) :
    coreBlockWrite s req c (0x5100 + r.val + 0x10 * q.val) v =
      (match r.val with
        | 0x0 => queBaseWrite s c q.val v
        | 0x4 => queCfgWrite s c q.val v
        | 0x8 => queDevWrite s c q.val v
        | 0xC => if v.testBit 31 then modQ s c q.val (fun u => { u with cfgrej := false }) else s
        | _ => s) := by
  have h1 : (0x5100 + r.val + 0x10 * q.val) / 0x1000 = 5 := by omega
  have h2 : (0x5100 + r.val + 0x10 * q.val) % 0x1000 = 0x100 + r.val + 0x10 * q.val := by omega
  have h3 : (0x100 + r.val + 0x10 * q.val - 0x100) / 0x10 = q.val := by omega
  have h4 : (0x100 + r.val + 0x10 * q.val) % 0x10 = r.val := by omega
  simp only [coreBlockWrite, h1, h2, queWrite, if_neg (show ¬ 0x100 + r.val + 0x10 * q.val = 8 by omega),
    if_pos (show 0x100 ≤ 0x100 + r.val + 0x10 * q.val ∧ 0x100 + r.val + 0x10 * q.val < 0x300 by omega), h3, h4] <;> rfl

section
variable {s : State} {req : Requester} {c : Nat} (h : MayReach s req c) (q : Fin 32) (v : W32)
include h

theorem exec_queBaseWrite : exec (.queBaseWrite req c q v) s = .next (queBaseWrite s c q.val v.toNat) :=
  congrArg _ ((coreRegWrite_eq h v (by omega) (by omega)).trans (coreBlockWrite_que s req c q 0 v.toNat))

theorem exec_queCfgWrite : exec (.queCfgWrite req c q v) s = .next (queCfgWrite s c q.val v.toNat) :=
  congrArg _ ((coreRegWrite_eq h v (by omega) (by omega)).trans (coreBlockWrite_que s req c q 4 v.toNat))

theorem exec_queDevWrite : exec (.queDevWrite req c q v) s = .next (queDevWrite s c q.val v.toNat) :=
  congrArg _ ((coreRegWrite_eq h v (by omega) (by omega)).trans (coreBlockWrite_que s req c q 8 v.toNat))

end

/-- R219: a queue that is disabled and empty takes a configuration that does not enable it. -/
theorem queConfig_stays_disabled {k : Core} {q : Nat} {u v : Queue} (hq : q ≠ 31) (hen : u.en = false) (hm : u.msgs = [])
    (hv : v.en = false) : queConfig k q u v = v := by
  simp [queConfig, hq, hen, hm, hv]

/-- R219: one that enables it on a ring that may be. -/
theorem queConfig_enables {k : Core} {q : Nat} {u v : Queue} (hq : q ≠ 31) (hen : u.en = false) (hm : u.msgs = [])
    (hv : v.en = false ∨ ringBad k q v = false) : queConfig k q u v = v := by
  obtain hv | hv := hv <;> simp [queConfig, hq, hen, hm, hv]

/-- R219: one that enables it on a ring that may not be. -/
theorem queConfig_bad_ring {k : Core} {q : Nat} {u v : Queue} (hq : q ≠ 31) (hen : u.en = false) (hm : u.msgs = [])
    (hv : v.en = true) (hbad : ringBad k q v = true) : queConfig k q u v = { v with en := false, cfgrej := true } := by
  simp [queConfig, hq, hen, hm, hv, hbad]

/-- R219: an enabled queue keeps its locked fields. -/
theorem queConfig_locked {k : Core} {q : Nat} {u v : Queue} (hq : q ≠ 31) (hen : u.en = true) (hd : lockedDiffer u v = true) :
    queConfig k q u v = { u with cfgrej := true } := by
  simp [queConfig, hq, hen, hd]

/-- R220: queue 31 stays enabled, with entries of 128 B at least. -/
theorem queConfig_queue31 {k : Core} {u v : Queue} (h : v.en = false ∨ v.esize < 7) :
    queConfig k 31 u v = { u with cfgrej := true } := by
  obtain h | h := h <;> simp [queConfig, h]

/-- Settles O24: each write is one `queConfig` of the queue it names. -/
theorem queueRegistersConfigureQueues : Obligations.QueueRegistersConfigureQueues := by
  unfold Obligations.QueueRegistersConfigureQueues
  intro s req c q v u w h hu
  subst hu
  rw [exec_queBaseWrite h, exec_queCfgWrite h, exec_queDevWrite h]
  refine ⟨fun hq hen hm => ⟨?_, ?_, fun hw => ?_⟩, fun hq hen hd => ?_, fun hq hen hd => ?_, fun hq hen hd => ?_, fun hq hv => ?_⟩
  · exact congrArg _ (queSet_eq (queConfig_stays_disabled hq hen hm hen))
  · exact congrArg _ (queSet_eq (queConfig_stays_disabled hq hen hm hen))
  · subst hw
    exact ⟨fun hv => congrArg _ (queSet_eq (queConfig_enables hq hen hm hv)),
      fun hv hbad => congrArg _ (queSet_eq (queConfig_bad_ring hq hen hm hv hbad))⟩
  · refine congrArg _ (queSet_eq (queConfig_locked hq hen ?_))
    simp [lockedDiffer, Ne.symm hd]
  · refine congrArg _ (queSet_eq (queConfig_locked hq hen ?_))
    obtain hd | hd := hd <;> simp [lockedDiffer, Ne.symm hd]
  · refine congrArg _ (queSet_eq (queConfig_locked hq hen ?_))
    obtain hd | hd := hd <;> simp [lockedDiffer, Ne.symm hd]
  · rw [hq]
    exact congrArg _ (queSet_eq (queConfig_queue31 hv))

/-! ### Event flags -/

/-- The state with flags of a core set, before its counters and its waiter see them. -/
def withFlags (s : State) (c : Nat) (m : W64) : State := modQue s c (fun u => { u with flags := u.flags ||| m })

theorem withFlags_ctl (s : State) (c : Nat) (m : W64) : ((withFlags s c m).core c).ctl = (s.core c).ctl := by
  simp [withFlags]

theorem withFlags_flags (s : State) (c : Nat) (m : W64) : ((withFlags s c m).core c).que.flags = (s.core c).que.flags ||| m := by
  simp [withFlags]

theorem onlyCore_withFlags (s : State) (c : Nat) (m : W64) : OnlyCore s (withFlags s c m) c := onlyCore_modCore s c _

theorem rg_withFlags (s : State) (c : Nat) (m : W64) (r : Reg) : rg (withFlags s c m) c r = rg s c r := by
  rw [rg, withFlags_ctl, ← rg]

/-- R232: a flag under the mask of a blocked EVWAIT ends its wait. -/
theorem setFlags_wakes {s : State} {c : Nat} {m mask : W64} {d : Reg} (hst : (s.core c).ctl.st = .running)
    (hblk : (s.core c).ctl.blk = .evwait d mask) (hm : ((s.core c).que.flags ||| m) &&& mask ≠ 0) :
    ∃ u, Counted (withFlags s c m) u c ∧
      setFlags s c m = modCtl u c (fun k => { k.put d (((s.core c).que.flags ||| m) &&& mask) with pc := k.pc + 4, blk := .none }) := by
  have h := counted_count (withFlags s c m) c 0x6E (countBits 64 m.toNat) (w := bareSample)
  refine ⟨_, h.count 0x6F 1 hereSample, ?_⟩
  rw [setFlags, ← withFlags]
  simp only [h.ctl, h.que, withFlags_ctl, withFlags_flags, hst, hblk, if_neg hm]
  refine modCtl_congr _ c ?_
  rw [Ctl.put]
  split <;> rfl

/-- R232: where no such flag is set, the control unit stays as it is. -/
theorem setFlags_stands {s : State} {c : Nat} {m : W64} (h : (s.core c).ctl.st = .running → ∀ d mask,
    (s.core c).ctl.blk = .evwait d mask → ((s.core c).que.flags ||| m) &&& mask = 0) :
    Counted (withFlags s c m) (setFlags s c m) c := by
  have hc := counted_count (withFlags s c m) c 0x6E (countBits 64 m.toNat) (w := bareSample)
  rw [setFlags, ← withFlags]
  simp only [hc.ctl, hc.que, withFlags_ctl, withFlags_flags]
  split
  · next d mask hst hblk =>
    rw [if_pos (h hst d mask hblk)]
    exact hc
  · exact hc

/-- R231, R232: what setting flags leaves, in either case. -/
theorem setFlags_effect (s : State) (c : Nat) (m : W64) :
    ((setFlags s c m).core c).que.flags = (s.core c).que.flags ||| m ∧ OnlyCore s (setFlags s c m) c ∧
      (∀ d mask, (s.core c).ctl.st = .running → (s.core c).ctl.blk = .evwait d mask → ((s.core c).que.flags ||| m) &&& mask ≠ 0 →
        RegIs s (setFlags s c m) c d (((s.core c).que.flags ||| m) &&& mask) ∧ GoesTo (setFlags s c m) c ((s.core c).ctl.pc + 4)) := by
  by_cases hw : ∃ d mask, (s.core c).ctl.st = .running ∧ (s.core c).ctl.blk = .evwait d mask ∧ ((s.core c).que.flags ||| m) &&& mask ≠ 0
  · obtain ⟨d, mask, hst, hblk, hm⟩ := hw
    obtain ⟨u, hu, he⟩ := setFlags_wakes hst hblk hm
    rw [he]
    have hrg : ∀ r, rg u c r = rg s c r := fun r => by rw [hu.rg, rg_withFlags]
    refine ⟨by simp [hu.que, withFlags_flags], (onlyCore_withFlags s c m).trans (hu.onlyCore.trans (onlyCore_modCtl _ _ _)), ?_⟩
    intro d' mask' _ hblk' _
    rw [hblk] at hblk'
    cases hblk'
    have hreg : ∀ r, rg (modCtl u c (fun k => { k.put d (((s.core c).que.flags ||| m) &&& mask) with pc := k.pc + 4, blk := .none })) c r =
        rg (setReg u c d (((s.core c).que.flags ||| m) &&& mask)) c r := fun r => by simp [rg, setReg, Ctl.get]
    refine ⟨⟨?_, fun r hr => ?_⟩, by simp [hu.ctl, withFlags_ctl], by simp⟩
    · rw [hreg, rg_setReg]
    · rw [hreg, rg_setReg_ne u c _ hr, hrg]
  · have hc := setFlags_stands (s := s) (c := c) (m := m) fun hst d mask hblk => by
      by_contra hne
      exact hw ⟨d, mask, hst, hblk, hne⟩
    exact ⟨by rw [hc.que, withFlags_flags], (onlyCore_withFlags s c m).trans hc.onlyCore,
      fun d mask hst hblk hne => absurd ⟨d, mask, hst, hblk, hne⟩ hw⟩

/-- The bits that EVT_SET0 or EVT_SET1 sets. -/
theorem evtSet_bits (hi : Bool) (v : W32) :
    BitVec.ofNat 64 (v.toNat % 2 ^ 32 * (if hi then 2 ^ 32 else 1)) = v.setWidth 64 <<< (if hi then 32 else 0) := by
  have hv := v.isLt
  refine BitVec.eq_of_toNat_eq ?_
  rw [BitVec.toNat_ofNat, BitVec.toNat_shiftLeft, BitVec.toNat_setWidth, Nat.shiftLeft_eq]
  cases hi <;> simp <;> omega

/-- A write to EVT_SET0 or EVT_SET1 sets flags. -/
theorem exec_evtSetWrite {s : State} {req : Requester} {c : Nat} (h : MayReach s req c) (hi : Bool) (v : W32) :
    exec (.evtSetWrite req c hi v) s = .next (setFlags s c (v.setWidth 64 <<< (if hi then 32 else 0))) := by
  rw [← evtSet_bits]
  cases hi
  · exact congrArg _ (coreRegWrite_eq h v (off := 0x7008) (by decide) (by decide))
  · exact congrArg _ (coreRegWrite_eq h v (off := 0x700C) (by decide) (by decide))

/-- A register write, a count, and the step to the next instruction. -/
theorem Counted.retires_count {s u : State} {c : Nat} (h : Counted s u c) (d : Reg) (v : W64) (code n : Nat) (w : Sample) :
    Retires s (advance (Machine.count (setReg u c d v) c code n w) c) c d v ((s.core c).ctl.pc + 4) := by
  have hj := h.retires_jump d v ((s.core c).ctl.pc + 4) code n w
  rwa [modCtl_congr (g := fun k => { k with pc := k.pc + 4, blk := .none }) _ c (by
    rw [(counted_count (setReg u c d v) c code n).ctl, ← h.ctl]
    simp [setReg])] at hj

/-- Settles O8: a wait ends at once or with the write that sets a flag under its mask. -/
theorem eventFlagsWaitAndClear : Obligations.EventFlagsWaitAndClear := by
  unfold Obligations.EventFlagsWaitAndClear
  refine ⟨fun s c d a b hr => ⟨?_, ?_⟩, fun s req c hi v d mask m h hst hblk hm => ?_⟩
  · refine exists_issue hr _ fun u hc => ?_
    simp only [ne_eq, not_true_eq_false, if_false, hc.que, hc.rg]
    split
    · next hw =>
      exact ⟨hc.onlyCore.trans (onlyCore_block _ _ _), by simp [block, hc.que],
        fun hgo => absurd hw (by rintro ⟨h1, h2⟩; exact hgo.elim (fun k => k h1) h2),
        fun _ _ => ⟨fun r => by rw [rg_block, hc.rg], by simp [block], by simp [block, hc.ctl]⟩⟩
    · next hw =>
      obtain ⟨hreg, hgo, honly, -⟩ := hc.retires_count d ((s.core c).que.flags &&& rg s c a) 0x6F 1 hereSample
      exact ⟨honly, by simp [advance, setReg, hc.que], fun _ => ⟨hreg, hgo⟩, fun h0 hne => absurd ⟨h0, hne⟩ hw⟩
  · refine exists_issue hr _ fun u hc => ?_
    simp only [ne_eq, not_true_eq_false, if_false, hc.rg]
    refine ⟨hc.onlyCore.trans ((onlyCore_modCore _ _ _).trans (onlyCore_advance _ _)), fun r => ?_, ?_, by simp [advance, hc.que]⟩
    · rw [rg_advance, ← hc.rg r]
      simp [rg]
    · rw [← hc.ctl]
      simp [GoesTo, advance]
  · subst hm
    refine ⟨_, exec_evtSetWrite h hi v, (setFlags_effect s c _).1, (setFlags_effect s c _).2.2 d mask hst hblk, fun h0 => ?_⟩
    rw [(setFlags_stands fun _ d' mask' hblk' => ?_).ctl, withFlags_ctl]
    rw [hblk] at hblk'
    cases hblk'
    exact h0

end Sys2Proof.Machine
end

section
/-!
SUPPORT. The registers that act: VEC_SEED, SPD_MODE, CNT_SMP_CTRL and CTL of a shared block (R141, R209, R542, R546, R549).
-/

namespace Sys2Proof.Machine

theorem mget_map_range' {α : Type} (d : α) (f : Nat → α) (n : Nat) :
    ∀ b l, b ≤ l → l < b + n → mget d ((List.range' b n).map (fun i => (i, f i))) l = f l := by
  induction n with
  | zero => intro b l h1 h2; omega
  | succ n ih =>
    intro b l h1 h2
    rw [List.range'_succ, List.map_cons, mget]
    split
    · next h => rw [h]
    · exact ih (b + 1) l (by omega) (by omega)

theorem mget_map_range {α : Type} (d : α) (f : Nat → α) {n l : Nat} (h : l < n) :
    mget d ((List.range n).map (fun i => (i, f i))) l = f l := by
  rw [List.range_eq_range']
  exact mget_map_range' d f n 0 l (by omega) (by omega)

section
variable {s : State} {req : Requester} {c : Nat} (h : MayReach s req c) (v : W32)
include h

theorem exec_vecSeedWrite : exec (.vecSeedWrite req c v) s = .next (vecSeedWrite s c v) := by
  have e : coreBlockWrite s req c 0x2008 v.toNat = vecSeedWrite s c (BitVec.ofNat 32 v.toNat) := rfl
  rw [BitVec.ofNat_toNat, BitVec.setWidth_eq] at e
  exact congrArg _ ((coreRegWrite_eq h v (off := 0x2008) (by decide) (by decide)).trans e)

theorem exec_spdModeWrite : exec (.spdModeWrite req c v) s = .next (spdModeWrite s c v.toNat) :=
  congrArg _ (coreRegWrite_eq h v (off := 0x3000) (by decide) (by decide))

theorem exec_smpCtrlWrite : exec (.smpCtrlWrite req c v) s = .next (smpCtrlWrite s c v.toNat) :=
  congrArg _ (coreRegWrite_eq h v (off := 0x6100) (by decide) (by decide))

end

/-! ### VEC_SEED -/

theorem vecSeedWrite_idle {s : State} {c : Nat} (v : W32) (h : ∀ f ∈ engFlights (s.core c) 1, f.begun = false) :
    vecSeedWrite s c v = modVec s c (fun x => seedAll x v) := by
  rw [vecSeedWrite, if_neg]
  simpa using h

theorem vecSeedWrite_busy {s : State} {c : Nat} (v : W32) (h : ∃ f ∈ engFlights (s.core c) 1, f.begun = true) :
    vecSeedWrite s c v = modVec s c (fun x => { x with seedPend := some v }) := by
  rw [vecSeedWrite, if_pos]
  simpa using h

theorem seedAll_gens (x : Vec) (v : W32) {l : Nat} (h : l < 64) : mget 0 (seedAll x v).gens l = seedLane v l :=
  mget_map_range 0 (seedLane v) h

theorem seedLane_eq (v : W32) (l : Nat) :
    seedLane v l = if v ^^^ BitVec.ofNat 32 (0x9E3779B9 * (l + 1)) = 0 then 1 else v ^^^ BitVec.ofNat 32 (0x9E3779B9 * (l + 1)) := by
  simp only [seedLane, beq_iff_eq]
  rfl

/-! ### SPD_MODE -/

theorem spdModeWrite_taken {s : State} {c v : Nat} (hst : (s.core c).ctl.st = .halted ∨ (s.core c).ctl.st = .faulted ∨ (s.core c).crst = true)
    (hf : (s.core c).flights = []) (hv : v % 4 ≠ 3) :
    spdModeWrite s c v = modSpd s c (fun d => { d with near := v.testBit 0, lin := v.testBit 1 }) := by
  rw [spdModeWrite, if_pos]
  simpa [hf, hv, or_assoc] using hst

theorem spdModeWrite_rejected {s : State} {c v : Nat}
    (h : ((s.core c).ctl.st ≠ .halted ∧ (s.core c).ctl.st ≠ .faulted ∧ (s.core c).crst = false) ∨ (s.core c).flights ≠ [] ∨ v % 4 = 3) :
    spdModeWrite s c v = modSpd s c (fun d => { d with modeRej := true }) := by
  rw [spdModeWrite, if_neg]
  obtain ⟨h1, h2, h3⟩ | h | h := h
  · simp [h1, h2, h3]
  · simp [h]
  · simp [h]

/-! ### CNT_SMP_CTRL -/

theorem smpCtrlWrite_stops {s : State} {c v : Nat} (hen : (s.core c).cnt.smp.en = true) (hv : v.testBit 0 = false) :
    smpCtrlWrite s c v = modSmp s c (fun m => { m with en := false, due := m.due.take 1 }) := by
  simp only [smpCtrlWrite, hen, hv, if_true, Bool.false_eq_true, if_false]

theorem smpCtrlWrite_keeps {s : State} {c v : Nat} (hen : (s.core c).cnt.smp.en = true) (hv : v.testBit 0 = true) :
    smpCtrlWrite s c v = s := by
  simp only [smpCtrlWrite, hen, hv, if_true]

/-- The setting that an enable of a sampler that is off asks for. -/
def smpSetting (m : Sampler) (v : Nat) : Sampler :=
  { m with
    dst := v.testBit 1
    edge := v.testBit 2
    err := m.err && !v.testBit 3
    event := bits v 19 12
    log2sz := if 4 ≤ bits v 8 4 ∧ bits v 8 4 ≤ 16 then bits v 8 4 else m.log2sz }

theorem smpCtrlWrite_enable {s : State} {c v : Nat} (hen : (s.core c).cnt.smp.en = false) (hv : v.testBit 0 = true) :
    smpCtrlWrite s c v =
      if smpRefused s c (smpSetting (s.core c).cnt.smp v) then
        modSmp s c (fun _ => { smpSetting (s.core c).cnt.smp v with err := true })
      else modSmp s c (fun _ => { smpSetting (s.core c).cnt.smp v with en := true, run := 0 }) := by
  simp only [smpCtrlWrite, hen, hv, Bool.false_eq_true, if_false, Bool.not_true, smpSetting]

/-- R546: whether a ring is refused depends on where it lies alone. -/
theorem smpRefused_congr (s : State) (c : Nat) {m n : Sampler} (hd : m.dst = n.dst) (hb : m.base = n.base) (hz : m.log2sz = n.log2sz) :
    smpRefused s c m = smpRefused s c n := by
  simp only [smpRefused, smpSpan, hd, hb, hz]
  rfl

/-! ### CTL of a shared block -/

/-! Table 2.7: the blocks of fields, link dies and stacks. -/

theorem csrPlace_field {n off : Nat} (hn : n < 12) (hoff : off < 2 ^ 20) :
    isCsr (0x020010000000 + n * 2 ^ 20 + off) = true ∧ csrPlace (0x020010000000 + n * 2 ^ 20 + off) = some (.field n, off) := by
  have hcsr : isCsr (0x020010000000 + n * 2 ^ 20 + off) = true := by
    simp only [isCsr, Bool.and_eq_true, decide_eq_true_eq]
    omega
  obtain ⟨o, ho, h1, h2⟩ : ∃ o, 0x020010000000 + n * 2 ^ 20 + off - 0x020000000000 = 0x10000000 + o ∧ o / 2 ^ 20 = n ∧ (0x10000000 + o) % 2 ^ 20 = off :=
    ⟨n * 2 ^ 20 + off, by omega, by omega, by omega⟩
  refine ⟨hcsr, ?_⟩
  simp only [csrPlace, hcsr, Bool.not_true, Bool.false_eq_true, if_false, ho, Nat.add_sub_cancel_left, h1, h2]
  rw [if_neg (by omega), if_neg (by omega), if_pos (by omega)]

theorem csrPlace_link {n off : Nat} (hn : n < 8) (hoff : off < 2 ^ 20) :
    isCsr (0x020020000000 + n * 2 ^ 20 + off) = true ∧ csrPlace (0x020020000000 + n * 2 ^ 20 + off) = some (.link n, off) := by
  have hcsr : isCsr (0x020020000000 + n * 2 ^ 20 + off) = true := by
    simp only [isCsr, Bool.and_eq_true, decide_eq_true_eq]
    omega
  obtain ⟨o, ho, h1, h2⟩ : ∃ o, 0x020020000000 + n * 2 ^ 20 + off - 0x020000000000 = 0x20000000 + o ∧ o / 2 ^ 20 = n ∧ (0x20000000 + o) % 2 ^ 20 = off :=
    ⟨n * 2 ^ 20 + off, by omega, by omega, by omega⟩
  refine ⟨hcsr, ?_⟩
  simp only [csrPlace, hcsr, Bool.not_true, Bool.false_eq_true, if_false, ho, Nat.add_sub_cancel_left, h1, h2]
  rw [if_neg (by omega), if_neg (by omega), if_neg (by omega), if_neg (by omega), if_pos (by omega)]

theorem csrPlace_stack {n off : Nat} (hn : n < 16) (hoff : off < 2 ^ 20) :
    isCsr (0x020030000000 + n * 2 ^ 20 + off) = true ∧ csrPlace (0x020030000000 + n * 2 ^ 20 + off) = some (.stack n, off) := by
  have hcsr : isCsr (0x020030000000 + n * 2 ^ 20 + off) = true := by
    simp only [isCsr, Bool.and_eq_true, decide_eq_true_eq]
    omega
  obtain ⟨o, ho, h1, h2⟩ : ∃ o, 0x020030000000 + n * 2 ^ 20 + off - 0x020000000000 = 0x30000000 + o ∧ o / 2 ^ 20 = n ∧ (0x30000000 + o) % 2 ^ 20 = off :=
    ⟨n * 2 ^ 20 + off, by omega, by omega, by omega⟩
  refine ⟨hcsr, ?_⟩
  simp only [csrPlace, hcsr, Bool.not_true, Bool.false_eq_true, if_false, ho, Nat.add_sub_cancel_left, h1, h2]
  rw [if_neg (by omega), if_neg (by omega), if_neg (by omega), if_neg (by omega), if_neg (by omega), if_neg (by omega), if_pos (by omega)]

/-- Table 18.5: CTL stands behind the counters of a block and their selectors. -/
theorem sharedWrite_ctl (s : State) (b v : Nat) : sharedWrite s b (12 * sharedCounters b) v = sharedCtlWrite s b v := by
  have h : 0 < sharedCounters b := by
    rw [sharedCounters]
    split <;> decide
  rw [sharedWrite, if_neg (by omega), if_neg (by omega), if_pos rfl]

/-- Tables 2.7, 18.5: CTL of a shared block is the register at its address. -/
theorem ctlAddr_place {b a : Nat} (h : ctlAddr b = some a) :
    ∃ k off, csrPlace a = some (k, off) ∧ isCsr a = true ∧ ∀ s req v, blockWrite s req k off v = sharedCtlWrite s b v := by
  rw [ctlAddr] at h
  split_ifs at h with hr hp hs
  · obtain rfl := Option.some.inj h
    obtain ⟨hcsr, hplace⟩ := csrPlace_field (n := b / 104) (off := 0x40F0 + 0x100 * (b % 104)) (by omega) (by omega)
    rw [← Nat.add_assoc] at hcsr hplace
    refine ⟨_, _, hplace, hcsr, fun s req v => ?_⟩
    have h1 : (0x40F0 + 0x100 * (b % 104) - 0x4000) / 0x100 = b % 104 := by omega
    have h2 : (0x40F0 + 0x100 * (b % 104)) % 0x100 = 0xF0 := by omega
    have hb : routerBlk (b / 104) (b % 104) = b := by
      rw [routerBlk]
      omega
    have hn : sharedCounters b = 4 := if_pos (by omega)
    rw [blockWrite, fieldWrite, if_neg (by omega), if_pos (by omega)]
    unfold meshWrite
    rw [if_neg (by omega)]
    simp only [h1, h2, hb]
    rw [if_neg (by omega), if_neg (by decide), if_pos (by decide), ← sharedWrite_ctl, hn]
  · obtain rfl := Option.some.inj h
    obtain ⟨hcsr, hplace⟩ := csrPlace_link (n := (b - 2000) / 5) (off := 0x860 + 0x80 * ((b - 2000) % 5)) (by omega) (by omega)
    rw [← Nat.add_assoc] at hcsr hplace
    refine ⟨_, _, hplace, hcsr, fun s req v => ?_⟩
    have h1 : (0x860 + 0x80 * ((b - 2000) % 5) - 0x800) / 0x80 = (b - 2000) % 5 := by omega
    have h2 : (0x860 + 0x80 * ((b - 2000) % 5)) % 0x80 = 0x60 := by omega
    have hb : portBlk (5 * ((b - 2000) / 5) + (b - 2000) % 5) = b := by
      rw [portBlk]
      omega
    have hn : sharedCounters b = 8 := if_neg (by omega)
    rw [blockWrite, linkWrite, if_neg (by omega), if_neg (by omega), if_pos (by omega), h1, h2, hb, ← sharedWrite_ctl, hn]
  · obtain rfl := Option.some.inj h
    obtain ⟨hcsr, hplace⟩ := csrPlace_stack (n := b - 3000) (off := 0x160) (by omega) (by omega)
    refine ⟨_, _, hplace, hcsr, fun s req v => ?_⟩
    have hb : stackBlk (b - 3000) = b := by
      rw [stackBlk]
      omega
    have hn : sharedCounters b = 8 := if_neg (by omega)
    rw [blockWrite, stackWrite, if_pos (by decide), hb, ← sharedWrite_ctl, hn]

/-- R549: a write to CTL of a shared block by Carafe. -/
theorem exec_sharedCntCtlWrite {s : State} {b a : Nat} (v : W32) (ha : ctlAddr b = some a) (hok : csrCheck s .carafe a 4 true = .ok) :
    exec (.sharedCntCtlWrite .carafe b v) s = .next (sharedCtlWrite s b v.toNat) := by
  obtain ⟨k, off, hp, hcsr, hw⟩ := ctlAddr_place ha
  have hv : (v.setWidth 64).toNat % 2 ^ 32 = v.toNat := by
    rw [BitVec.toNat_setWidth]
    omega
  change Host.Outcome.next (match ctlAddr b with | some a => csrWrite s .carafe (.global a) 4 (v.setWidth 64) | none => s) = _
  rw [ha]
  simp only [csrWrite, hcsr, csrWriteAt, hok, hp, csrPut, Bool.not_true, Bool.false_eq_true, if_false, Nat.reduceEqDiff, hw, hv]

theorem sharedCtlWrite_blk (s : State) (b v : Nat) : ∃ k, k = (sharedCtlWrite s b v).blk b ∧ k.sels = (s.blk b).sels ∧
    k.frz = v.testBit 0 ∧ (bits v 20 16 ≤ 16 ∨ bits v 20 16 = 31 → k.shsel = bits v 20 16) ∧
    (v.testBit 1 = true → k.totals = [] ∧ k.shadows = []) ∧
    (v.testBit 1 = false → k.totals = (s.blk b).totals ∧ k.shadows = (s.blk b).shadows) := by
  refine ⟨_, rfl, ?_⟩
  have e : (sharedCtlWrite s b v).blk b = (let k := { s.blk b with
      shsel := if bits v 20 16 ≤ 16 ∨ bits v 20 16 = 31 then bits v 20 16 else (s.blk b).shsel
      ovf := w1c (s.blk b).ovf (bits v 15 8)
      frz := v.testBit 0 }; if v.testBit 1 then clearShared k else k) := mget_mset _ _ _ _
  rw [e]
  cases h : v.testBit 1
  · simp +contextual
  · simp +contextual [clearShared]

/-- Settles O23: each write reaches its register, and the register acts. -/
theorem registersThatAct : Obligations.RegistersThatAct := by
  unfold Obligations.RegistersThatAct
  refine ⟨fun s req c v h => ?_, fun s b a v ha hok => ?_⟩
  · rw [exec_vecSeedWrite h, exec_spdModeWrite h, exec_smpCtrlWrite h]
    refine ⟨fun hidle => ?_, fun hbusy => ?_, fun hst hf hv => ?_, fun hrej => ?_, fun hi m hm => ?_, fun m hm => ?_⟩
    · rw [vecSeedWrite_idle v hidle]
      refine ⟨_, rfl, by simp [seedAll], onlyCore_modCore _ _ _, fun l hl => ?_⟩
      rw [← seedLane_eq, core_modVec, seedAll_gens _ _ hl]
    · rw [vecSeedWrite_busy v hbusy]
    · exact congrArg _ (spdModeWrite_taken hst hf hv)
    · exact congrArg _ (spdModeWrite_rejected hrej)
    · subst hm
      exact ⟨_, exec_evtSetWrite h hi v, setFlags_effect s c _⟩
    · subst hm
      refine ⟨fun hen hv => congrArg _ (smpCtrlWrite_stops hen hv), fun hen hv => congrArg _ (smpCtrlWrite_keeps hen hv),
        fun hen hv hz h4 h16 hd => ⟨_, rfl, ?_⟩⟩
      have hset : smpRefused s c (smpSetting (s.core c).cnt.smp v.toNat) = smpRefused s c (s.core c).cnt.smp :=
        smpRefused_congr s c hd.symm rfl (by simp [smpSetting, hz, h4, h16])
      rw [smpCtrlWrite_enable hen hv, hset]
      split
      · next hr =>
        refine ⟨onlyCore_modCore _ _ _, fun _ => ?_, fun hno => absurd hr (by simp [hno])⟩
        simp [modSmp, smpSetting, hen]
      · next hr =>
        refine ⟨onlyCore_modCore _ _ _, fun hyes => absurd hyes hr, fun _ => ?_⟩
        simp [modSmp, smpSetting]
  · obtain ⟨k, rfl, hk⟩ := sharedCtlWrite_blk s b v.toNat
    obtain ⟨hsels, hfrz, hshsel, hclr, hkeep⟩ := hk
    exact ⟨_, exec_sharedCntCtlWrite v ha hok, rfl, fun j hj => mget_mset_ne _ _ _ hj, hsels, hfrz, hshsel, hclr, hkeep⟩

end Sys2Proof.Machine
end

section
/-!
SUPPORT. Queues seen from the control unit (R225 to R230): messages that leave, messages that are taken, and what either leaves alone;
QSEND, QRECV and QTRY (R183, R226 to R228).
-/

namespace Sys2Proof.Machine

/-! ### Updates of one core, one after the other -/

theorem mset_mset {α : Type} (m : Map α) (k : Nat) (v w : α) : mset (mset m k v) k w = mset m k w := by
  induction m with
  | nil => simp [mset]
  | cons p m ih =>
    obtain ⟨j, x⟩ := p
    rcases Nat.lt_trichotomy k j with h | rfl | h
    · simp [mset, h]
    · simp [mset]
    · simp [mset, Nat.not_lt.2 h.le, h.ne', ih]

theorem modCore_modCore (s : State) (c : Nat) (f g : Core → Core) : modCore (modCore s c f) c g = modCore s c (fun k => g (f k)) := by
  simp only [modCore, State.core, mget_mset, mset_mset]

section
variable {s t : State} {c : Nat} (h : Counted s t c)
include h

theorem Counted.sbReadStall (off n : Nat) : sbReadStall (t.core c) off n = sbReadStall (s.core c) off n := by
  rw [Machine.sbReadStall, h.sb, ← Machine.sbReadStall]

theorem Counted.sbWriteStall (off n : Nat) : sbWriteStall (t.core c) off n = sbWriteStall (s.core c) off n := by
  rw [Machine.sbWriteStall, h.sb, ← Machine.sbWriteStall]

theorem Counted.boundBy (q : Nat) : boundBy (t.core c) q = boundBy (s.core c) q := by
  rw [h.core]
  rfl

end

/-! ### Messages that leave (R225) -/

/-- `t` is `s` with other packets shown. -/
def Shows (s t : State) : Prop := t = { s with out := t.out }

theorem Shows.refl (s : State) : Shows s s := rfl

theorem Shows.trans {s t u : State} (h : Shows s t) (k : Shows t u) : Shows s u := by
  rw [Shows] at h k ⊢
  rw [k, h]

theorem shows_emit (s : State) (o : Output) : Shows s (emit s o) := rfl

theorem shows_sendMember (s : State) (p : SendPath) (f : Send) (m : Member) : Shows s (sendMember s p f m) := by
  have hdest : ∀ part core : Nat, Shows s (match m.dest with
    | .local_ _ _ => s
    | .remote dev gqid =>
      emit s (.toDev { carry (devPkt s part core 4 dev gqid) f.bytes f.poison with endm := f.endm } f.bytes.length)
    | .fwd dev ch =>
      emit s (.toDev { carry (devPkt s part core 8 dev ch) f.bytes f.poison with
        endm := f.endm, subop := BitVec.ofNat 8 (f.crossed + 1) } f.bytes.length)) := fun part core => by
    cases m.dest <;> rfl
  rw [sendMember]
  split
  · exact hdest _ _
  · exact hdest _ _
  · exact Shows.refl s

theorem shows_sendMembers (s : State) (p : SendPath) (f : Send) (ms : List Member) :
    Shows s (ms.foldl (fun s m => sendMember s p f m) s) := by
  induction ms generalizing s with
  | nil => exact Shows.refl s
  | cons m ms ih => exact (shows_sendMember s p f m).trans (ih _)

/-- The paths of core `c`: its control unit, its queue unit and its DMA engines. -/
def PathOf (c : Nat) (p : SendPath) : Prop := p = .ctl c ∨ p = .que c ∨ ∃ e, p = .dma c e

theorem counted_countPath {c : Nat} {p : SendPath} (h : PathOf c p) (s : State) (code : Nat) (d : Option MsgDest) (status len : Nat) :
    Counted s (countPath s p code d status len) c := by
  obtain rfl | rfl | ⟨e, rfl⟩ := h <;> exact counted_count s c code 1

/-- A message goes out on a path of a core: it stands among those in flight, and beyond packets and a count nothing changes. -/
theorem startSend_eq {c : Nat} {p : SendPath} (h : PathOf c p) (s : State) (f : Send) :
    ∃ u out, Counted s u c ∧ startSend s p f = { u with out := out, sends := s.sends ++ [⟨p, f⟩] } := by
  have hc := counted_countPath h s 0x60 (f.members.head?.map (·.dest)) 0 (f.bytes.length / 16)
  refine ⟨_, (f.members.foldl (fun s m => sendMember s p f m)
    (countPath s p 0x60 (f.members.head?.map (·.dest)) 0 (f.bytes.length / 16))).out, hc, ?_⟩
  have hs := shows_sendMembers (countPath s p 0x60 (f.members.head?.map (·.dest)) 0 (f.bytes.length / 16)) p f f.members
  rw [Shows] at hs
  rw [startSend, ← hc.sends]
  rw [hs]

theorem find_append_new {l : List InFlight} {p : SendPath} {f : Send} (h : (l.find? (fun f => f.path = p)).map (·.send) = none) :
    ((l ++ [(⟨p, f⟩ : InFlight)]).find? (fun f => f.path = p)).map (·.send) = some f := by
  rw [Option.map_eq_none_iff] at h
  simp [List.find?_append, h]

/-! ### QSEND -/

/-- Settles O6: a good buffer is read and sent, a bad buffer or destination faults. -/
theorem qsendSends : Obligations.QsendSends := by
  unfold Obligations.QsendSends
  intro s c d a b size n hr hn
  subst hn
  refine ⟨fun gqid dev rem hbuf hdest hsb hsound hnone => ?_, fun hbuf hq => ?_, fun hbuf hdest hq => ?_⟩
  · refine exists_issue hr _ fun u hc => ?_
    simp only [hc.rg, hbuf, hdest, hc.sbReadStall, hsb, Bool.false_eq_true, if_false, spRead_sound 5 (hc.sound hsound), hc.spBytes]
    have hmem : destMembers u (.uni gqid dev rem) = [uniDest s gqid dev rem] := by
      simp only [destMembers, uniDest, hc.devId]
      split <;> rfl
    rw [if_neg (by rw [hmem]; exact List.cons_ne_nil _ _), hmem]
    obtain ⟨v, out, hv, he⟩ := startSend_eq (Or.inl rfl) u
      (mkSend (spBytes s c (rg s c b).toNat ((size.toNat + 1) * 16)) false (.uni gqid dev rem) [] [uniDest s gqid dev rem])
    rw [he]
    have hk := hc.trans hv
    refine ⟨?_, by simp [block], ?_, fun r => ?_, hk.mem, fun k hne => ?_⟩
    · rw [← hc.sendOf] at hnone
      exact find_append_new hnone
    · rw [← hk.ctl]
      simp [block]
      rfl
    · rw [rg_block, ← hk.rg r]
      rfl
    · rw [← hk.others k hne]
      exact core_modCtl_ne _ _ hne
  · refine exists_issue hr _ fun u hc => ?_
    simp only [hc.rg, hbuf, if_true]
    exact cuFault_counted _ _ _ _ _ _ _ _ hr hq hc
  · refine exists_issue hr _ fun u hc => ?_
    simp only [hc.rg, hbuf, hdest, Bool.false_eq_true, if_false]
    exact cuFault_counted _ _ _ _ _ _ _ _ hr hq hc

/-! ### Whole words (R153) -/

theorem spPuts_marks (s : State) (m : Map Mark) (c off : Nat) (bs : Bytes) :
    spPuts { s with marks := m } c off bs = { spPuts s c off bs with marks := m } := by
  induction bs generalizing s off with
  | nil => rfl
  | cons b bs ih => exact ih (spPut s c off b) (off + 1)

/-- R153: a whole word is written, whatever it was marked, and is marked no more. -/
theorem spWriteWord_whole {s : State} {c off w : Nat} {bs : Bytes} (port : Nat) (hlo : off ≤ w) (hhi : w + 8 ≤ off + bs.length) :
    ∃ m, spWriteWord s c off bs port w = ({ spPuts s c w ((bs.drop (w - off)).take 8) with marks := m }, true) := by
  have hmax : max off w = w := by omega
  have hmin : min (off + bs.length) (w + 8) = w + 8 := by omega
  refine ⟨mdel s.marks (spKey s c (w / 8 * 8)), ?_⟩
  rw [spWriteWord, hmax, hmin, if_pos ⟨rfl, rfl⟩, Nat.add_sub_cancel_left, ← spPuts_marks]
  rfl

/-- The first `n` words of a write of whole words write their bytes. -/
theorem foldl_writeStep_words {c off : Nat} {bs : Bytes} (port n : Nat) (s : State) (ha : off % 8 = 0) (hn : 8 * n ≤ bs.length) :
    ∃ m, ((List.range n).map fun i => (off / 8 + i) * 8).foldl (writeStep c off bs port) (s, true) =
      ({ spPuts s c off (bs.take (8 * n)) with marks := m }, true) := by
  induction n with
  | zero => exact ⟨s.marks, by simp [spPuts]⟩
  | succ n ih =>
    obtain ⟨m, hm⟩ := ih (by omega)
    have hw : (off / 8 + n) * 8 = off + 8 * n := by omega
    have hlen : (bs.take (8 * n)).length = 8 * n := by
      rw [List.length_take]
      omega
    have hsplit : bs.take (8 * (n + 1)) = bs.take (8 * n) ++ (bs.drop (8 * n)).take 8 := by
      rw [← List.take_add, Nat.mul_succ]
    obtain ⟨m', hm'⟩ := spWriteWord_whole (s := { spPuts s c off (bs.take (8 * n)) with marks := m }) (c := c) (off := off)
      (w := off + 8 * n) (bs := bs) port (by omega) (by omega)
    refine ⟨m', ?_⟩
    rw [List.range_succ, List.map_append, List.foldl_append, hm, List.map_singleton, List.foldl_cons, List.foldl_nil, writeStep,
      hw, hm', hsplit, spPuts_append, hlen, Nat.add_sub_cancel_left, spPuts_marks]
    rfl

/-- A write of whole words writes its byte string; of the rest of the state the words' marks alone may change. -/
theorem spWrite_words {s : State} {c off : Nat} {bs : Bytes} (port : Nat) (ha : off % 8 = 0) (hl : bs.length % 8 = 0) :
    ∃ m, spWrite s c off bs port = ({ spPuts s c off bs with marks := m }, true) := by
  rw [spWrite_eq_foldl, wordsOf]
  split
  · next h0 =>
    rw [List.length_eq_zero_iff.1 h0]
    exact ⟨s.marks, rfl⟩
  · next h0 =>
    have hn : (off + bs.length - 1) / 8 + 1 - off / 8 = bs.length / 8 := by omega
    obtain ⟨m, hm⟩ := foldl_writeStep_words port (bs.length / 8) s ha (by omega) (c := c) (bs := bs)
    refine ⟨m, ?_⟩
    rw [hn, hm, List.take_of_length_le (by omega)]

/-! ### A message leaves its queue (R223, R224, R230) -/

/-- Of `s`, `t` changes the queues and counters of core `c` and what has been shown, at most. -/
structure QueEdit (s t : State) (c : Nat) : Prop where
  rest : { t with cores := s.cores, out := s.out } = s
  core : t.core c = { s.core c with que := (t.core c).que, cnt := (t.core c).cnt }
  others : ∀ k, k ≠ c → t.core k = s.core k

theorem QueEdit.refl (s : State) (c : Nat) : QueEdit s s c := ⟨rfl, rfl, fun _ _ => rfl⟩

theorem QueEdit.trans {s t u : State} {c : Nat} (h : QueEdit s t c) (k : QueEdit t u c) : QueEdit s u c := by
  refine ⟨?_, ?_, fun j hj => (k.others j hj).trans (h.others j hj)⟩
  · have e := h.rest
    rw [← k.rest] at e
    exact e
  · have e := k.core
    rw [h.core] at e
    exact e

theorem Counted.queEdit {s t : State} {c : Nat} (h : Counted s t c) : QueEdit s t c := by
  refine ⟨?_, ?_, h.others⟩
  · have e := h.rest
    rw [← e]
  · rw [h.core]

theorem queEdit_modQue (s : State) (c : Nat) (f : Que → Que) : QueEdit s (modQue s c f) c :=
  ⟨rfl, by simp, fun _ h => core_modQue_ne _ _ h⟩

theorem queEdit_emit (s : State) (c : Nat) (o : Output) : QueEdit s (emit s o) c := ⟨rfl, rfl, fun _ _ => rfl⟩

section
variable {s t : State} {c : Nat} (h : QueEdit s t c)
include h

theorem QueEdit.ctl : (t.core c).ctl = (s.core c).ctl := by rw [h.core]
theorem QueEdit.spd : (t.core c).spd = (s.core c).spd := by rw [h.core]
theorem QueEdit.mem : t.mem = s.mem := by rw [← h.rest]

end

/-- The queues of core `c` in `t` hold the messages that they hold in `s`. -/
def SameMsgs (s t : State) (c : Nat) : Prop := ∀ i, ((t.core c).que.q i).msgs = ((s.core c).que.q i).msgs

theorem SameMsgs.trans {s t u : State} {c : Nat} (h : SameMsgs s t c) (k : SameMsgs t u c) : SameMsgs s u c :=
  fun i => (k i).trans (h i)

theorem Counted.sameMsgs {s t : State} {c : Nat} (h : Counted s t c) : SameMsgs s t c := fun i => by rw [h.que]

theorem q_modQ (s : State) (c q : Nat) (f : Queue → Queue) : ((modQ s c q f).core c).que.q q = f ((s.core c).que.q q) := by
  rw [core_modQ]
  exact mget_mset _ _ _ _

theorem q_modQ_ne (s : State) (c : Nat) {q i : Nat} (f : Queue → Queue) (h : i ≠ q) :
    ((modQ s c q f).core c).que.q i = (s.core c).que.q i := by
  rw [core_modQ, Que.q, mget_mset_ne _ _ _ h, ← Que.q]

theorem sameMsgs_modQ (s : State) (c q : Nat) (f : Queue → Queue) (hf : ∀ u, (f u).msgs = u.msgs) : SameMsgs s (modQ s c q f) c := by
  intro i
  by_cases h : i = q
  · rw [h, q_modQ, hf]
  · rw [q_modQ_ne s c f h]

/-- R224: a grant leaves every message in its queue. -/
theorem queEdit_grantNext (s : State) (c q slot : Nat) :
    QueEdit s (grantNext s c q slot) c ∧ SameMsgs s (grantNext s c q slot) c := by
  rw [grantNext]
  split
  · exact ⟨QueEdit.refl s c, fun _ => rfl⟩
  · next w ws _ =>
    have hmod := queEdit_modQue s c fun u => { u with qs := mset u.qs q ((fun u : Queue =>
      { u with waiters := ws, reserved := u.reserved ++ [(slot, w)] }) (u.q q)) }
    have hmsgs := sameMsgs_modQ s c q (fun u => { u with waiters := ws, reserved := u.reserved ++ [(slot, w)] }) fun _ => rfl
    cases w with
    | path p k => exact ⟨hmod, hmsgs⟩
    | ext sdev rtag => exact ⟨hmod.trans (queEdit_emit _ c _), hmsgs⟩

/-- R230: so does the entry that becomes free. -/
theorem queEdit_freeEntry (s : State) (c q slot : Nat) (u : Queue) :
    QueEdit s (freeEntry s c q u slot) c ∧ SameMsgs s (freeEntry s c q u slot) c := by
  rw [freeEntry]
  split
  · have hc := counted_count s c 0x69 1 (w := queSample .none_ false q 0 0 0 0)
    obtain ⟨h, k⟩ := queEdit_grantNext (count s c 0x69 1 (queSample .none_ false q 0 0 0 0)) c q slot
    exact ⟨hc.queEdit.trans h, hc.sameMsgs.trans k⟩
  · exact queEdit_grantNext s c q slot

/-- R223: the oldest message of a queue leaves it. -/
theorem queEdit_popMsg {s : State} {c q : Nat} {m : QEntry} {ms : List QEntry} (h : ((s.core c).que.q q).msgs = m :: ms) :
    QueEdit s (popMsg s c q) c ∧ (((popMsg s c q).core c).que.q q).msgs = ms := by
  rw [popMsg]
  simp only [h]
  obtain ⟨hedit, hsame⟩ := queEdit_freeEntry (modQ s c q fun u => { u with msgs := ms }) c q m.slot ((s.core c).que.q q)
  refine ⟨(queEdit_modQue s c _).trans hedit, ?_⟩
  rw [hsame q, q_modQ]

/-! ### QRECV and QTRY -/

theorem regsWrite_eq (s : State) (c : Nat) (d : Reg) (v : W64) :
    modCtl s c (fun t => { t with regs := if d.val = 0 then t.regs else mset t.regs d.val v }) = setReg s c d v := by
  refine modCtl_congr s c ?_
  rw [Ctl.put]
  split <;> rfl

/-- What taking a message of `n` bytes from ring offset `src` into the scratchpad at `dst` leaves (R227). -/
def TakesMsg (s t : State) (c q : Nat) (ms : List QEntry) (src dst n : Nat) : Prop :=
  ((t.core c).que.q q).msgs = ms ∧
    (∀ x, (∀ i < n, x ≠ spKey s c (dst + i)) → memGet t.mem x = memGet s.mem x) ∧
    ∀ i < n, spByte t c (dst + i) = spByte s c (src + i)

/-- R227: the oldest message comes to its buffer, and its receive word to register `d`. -/
theorem deliverMsg_takes {s : State} {c q dst : Nat} {m : QEntry} {ms : List QEntry} (d : Reg) (lat : Bool) (hm : MemInv s)
    (hmsgs : ((s.core c).que.q q).msgs = m :: ms) (hdst : dst % 8 = 0) (hin : dst + m.len * 16 ≤ 2 ^ 21)
    (hs : Sound s c (((s.core c).que.q q).slotOff m.slot) (m.len * 16)) :
    ∃ u, deliverMsg s c q dst d lat = (setReg u c d (recvWord m), none) ∧ (u.core c).ctl = (s.core c).ctl ∧
      TakesMsg s u c q ms (((s.core c).que.q q).slotOff m.slot) dst (m.len * 16) := by
  generalize hsrc : ((s.core c).que.q q).slotOff m.slot = src at hs
  have hlen : (spBytes s c src (m.len * 16)).length = m.len * 16 := by simp [spBytes]
  obtain ⟨marks, hw⟩ := spWrite_words (s := s) (c := c) (off := dst) (bs := spBytes s c src (m.len * 16)) 5 hdst (by omega)
  obtain ⟨w, hwdef⟩ : ∃ w, w = { spPuts s c dst (spBytes s c src (m.len * 16)) with marks := marks } := ⟨_, rfl⟩
  have hcore : w.core c = s.core c := by
    rw [hwdef]
    exact core_spPuts s c dst c _
  have hmem : w.mem = (spPuts s c dst (spBytes s c src (m.len * 16))).mem := by rw [hwdef]
  obtain ⟨hpop, hleft⟩ := queEdit_popMsg (s := w) (c := c) (q := q) (by rw [hcore, hmsgs])
  have hcnt := counted_count (popMsg w c q) c 0x62 1 (w := queSample .here lat q m.info.score m.info.sdev 0 m.len)
  have hedit := hpop.trans hcnt.queEdit
  refine ⟨count (popMsg w c q) c 0x62 1 (queSample .here lat q m.info.score m.info.sdev 0 m.len), ?_, ?_, ?_, fun x hx => ?_, fun i hi => ?_⟩
  · rw [deliverMsg]
    simp only [hmsgs, hsrc, spRead_sound 5 hs, hw, ← hwdef, regsWrite_eq]
    rfl
  · rw [hedit.ctl, hcore]
  · rw [hcnt.que, hleft]
  · rw [hedit.mem, hmem]
    exact spPuts_frame s c dst _ hm x (by rwa [hlen])
  · have hspd : ((count (popMsg w c q) c 0x62 1 (queSample .here lat q m.info.score m.info.sdev 0 m.len)).core c).spd =
        ((spPuts s c dst (spBytes s c src (m.len * 16))).core c).spd := by
      rw [hedit.spd, hcore, core_spPuts]
    have hbytes := spBytes_spPuts s c dst (spBytes s c src (m.len * 16)) hm (by omega)
    rw [hlen, ← spBytes_congr hspd (hedit.mem.trans hmem)] at hbytes
    have hi' := congrArg (fun bs : Bytes => bs.getD i 0) hbytes
    simpa [spBytes, hi] using hi'

/-- The message that is there is taken, and the next instruction is due. -/
theorem takeMsg_takes {s : State} {c q dst : Nat} {m : QEntry} {ms : List QEntry} (d : Reg) (lat : Bool) (hm : MemInv s)
    (hmsgs : ((s.core c).que.q q).msgs = m :: ms) (hdst : dst % 8 = 0) (hin : dst + m.len * 16 ≤ 2 ^ 21)
    (hs : Sound s c (((s.core c).que.q q).slotOff m.slot) (m.len * 16)) :
    RegIs s (takeMsg s c q dst d lat) c d (recvWord m) ∧ GoesTo (takeMsg s c q dst d lat) c ((s.core c).ctl.pc + 4) ∧
      TakesMsg s (takeMsg s c q dst d lat) c q ms (((s.core c).que.q q).slotOff m.slot) dst (m.len * 16) := by
  obtain ⟨u, hd, hctl, hleft, hframe, hbytes⟩ := deliverMsg_takes d lat hm hmsgs hdst hin hs
  have he : takeMsg s c q dst d lat = advance (setReg u c d (recvWord m)) c := by rw [takeMsg, hd]
  have hrg : ∀ r, rg u c r = rg s c r := fun r => by rw [rg, hctl, ← rg]
  rw [he]
  obtain ⟨⟨hd', hr'⟩, hgo, -, -⟩ := retires_next u c d (recvWord m)
  rw [hctl] at hgo
  refine ⟨⟨hd', fun r hr => (hr' r hr).trans (hrg r)⟩, hgo, ?_, hframe, fun i hi => ?_⟩
  · simpa [advance, setReg] using hleft
  · rw [← hbytes i hi, spByte, spByte, spKey_congr (s := u) (by simp [advance, setReg])]
    rfl

theorem bufBad_false {v : W64} (h : bufBad v = false) : v.toNat % 16 = 0 ∧ v.toNat + 256 ≤ 2 ^ 21 := by
  simp only [bufBad, Bool.or_eq_false_iff, bne_eq_false_iff_eq, decide_eq_false_iff_not] at h
  omega

/-- Counters apart, the same message is taken. -/
theorem Counted.takesMsg {s u t : State} {c q : Nat} {ms : List QEntry} {src dst n : Nat} (h : Counted s u c)
    (k : TakesMsg u t c q ms src dst n) : TakesMsg s t c q ms src dst n := by
  obtain ⟨hleft, hframe, hbytes⟩ := k
  refine ⟨hleft, fun x hx => ?_, fun i hi => ?_⟩
  · rw [hframe x fun i hi => by rw [h.spKey]; exact hx i hi, h.mem]
  · rw [hbytes i hi, h.spByte]

/-- Settles O7: QRECV and QTRY deliver the message that is there in the same way, and differ where none is. -/
theorem qrecvTakesTheOldest : Obligations.QrecvTakesTheOldest := by
  unfold Obligations.QrecvTakesTheOldest
  intro s c d a b q dst hr hm hq hq31 hdst hbuf hen hbound
  subst hq hdst
  obtain ⟨hal, hin⟩ := bufBad_false hbuf
  refine ⟨fun m ms hmsgs hlen hsb hs => ?_, fun hmsgs => ⟨?_, ?_⟩⟩
  · have htakes : ∀ u, Counted s u c → ∀ lat, _ := fun u hc lat =>
      takeMsg_takes (s := u) (q := (rg s c a).toNat % 32) (dst := (rg s c b).toNat) (m := m) (ms := ms) d lat
        (by rwa [MemInv, hc.mem]) (by rw [hc.que, hmsgs]) (by omega) (by omega) (by rw [hc.que]; exact hc.sound hs)
    refine ⟨exists_issue hr _ fun u hc => ?_, exists_issue hr _ fun u hc => ?_⟩
    · obtain ⟨hreg, hgo, htake⟩ := htakes u hc true
      rw [hc.ctl] at hgo
      rw [hc.que] at htake
      simp only [hc.rg, hbuf, hc.que, hen, hmsgs, hc.boundBy, hbound, hc.sbWriteStall, hsb, hq31, ne_eq, not_true_eq_false, if_false,
        Bool.false_eq_true, Bool.not_true, Option.isSome_none]
      exact ⟨hc.regIs hreg, hgo, hc.takesMsg htake⟩
    · obtain ⟨hreg, hgo, htake⟩ := htakes u hc false
      rw [hc.ctl] at hgo
      rw [hc.que] at htake
      simp only [hc.rg, hbuf, hc.que, hen, hmsgs, hc.boundBy, hbound, hc.sbWriteStall, hsb, hq31, ne_eq, not_true_eq_false, if_false,
        Bool.false_eq_true, Bool.not_true, Option.isSome_none]
      exact ⟨hc.regIs hreg, hgo, hc.takesMsg htake⟩
  · refine exists_issue hr _ fun u hc => ?_
    simp only [hc.rg, hbuf, hc.que, hen, hmsgs, hq31, ne_eq, not_true_eq_false, if_false, Bool.false_eq_true, Bool.not_true]
    exact ⟨by simp [block], by simp [block, hc.ctl], fun r => by rw [rg_block, hc.rg], hc.onlyCore.trans (onlyCore_block _ _ _)⟩
  · refine exists_issue hr _ fun u hc => ?_
    simp only [hc.rg, hbuf, hc.que, hen, hmsgs, hq31, ne_eq, not_true_eq_false, if_false, Bool.false_eq_true, Bool.not_true]
    exact hc.retires_count d 0 0x63 1 _

end Sys2Proof.Machine
end

section
/-!
SUPPORT. The issue of a command to an engine (R147, R188, R189): what its refusal, its wait and its queueing leave; X (O9).
-/

namespace Sys2Proof.Machine

/-! ### Checks under a count -/

section
variable {s t : State} {c : Nat} (h : Counted s t c)
include h

theorem Counted.engRanges (id : Nat) (b : EngBody) : engRanges (t.core c) c id b = engRanges (s.core c) c id b := by
  rw [h.core]
  cases b <;> rfl

theorem Counted.engRefuse (b : EngBody) : engRefuse t c b = engRefuse s c b := by
  cases b with
  | que q => cases q <;> simp only [Machine.engRefuse, h.spByte]
  | press p =>
    simp only [Machine.engRefuse]
    rw [h.core]
    rfl
  | dma e op d =>
    simp only [Machine.engRefuse]
    rw [h.core]
    rfl
  | _ => rfl

theorem Counted.nextId : (t.core c).nextId = (s.core c).nextId := by rw [h.core]

theorem Counted.prs : (t.core c).prs = (s.core c).prs := by rw [h.core]

theorem Counted.engFlights (e : Nat) : engFlights (t.core c) e = engFlights (s.core c) e := by
  rw [Machine.engFlights, h.flights, ← Machine.engFlights]

theorem Counted.engStalls (x : XCmd) : engStalls t c x = engStalls s c x := by
  rw [Machine.engStalls, Machine.engStalls, h.nextId]
  simp only [h.engRanges, h.engFlights, h.ctl, sbConflict, h.sb]

theorem Counted.fetchWord : fetchWord t c = fetchWord s c := by
  simp only [Machine.fetchWord, h.ctl, h.spBytes]

end

/-! ### A command is queued (R188 step 5, R189) -/

/-- The core once a command has been queued: the command is its youngest, with its scoreboard entries and its tag count. -/
def withCommand (k : Core) (c : Nat) (x : XCmd) : Core :=
  { k with
    sb := k.sb ++ engRanges k c k.nextId x.body
    flights := k.flights ++ [newFlight k.nextId (k.ctl.pc.toNat % 2 ^ 21) x]
    nextId := k.nextId + 1
    ctl := if x.iss.notag then k.ctl else
      { k.ctl with tagCnt := mset k.ctl.tagCnt x.iss.tag.val (tagCount k.ctl x.iss.tag.val + 1) } }

/-- The control unit once it has issued a command: it waits for it with SYNC, else it goes on. -/
def afterIssue (k : Core) (x : XCmd) (id : Nat) : Core :=
  { k with ctl := if x.iss.sync then { k.ctl with blk := .sync id } else { k.ctl with pc := k.ctl.pc + 4, blk := .none } }

/-- What queueing a command leaves before its engine begins what it can. -/
structure Handed (s u : State) (c : Nat) (x : XCmd) : Prop where
  only : OnlyCore s u c
  core : u.core c = { afterIssue (withCommand (s.core c) c x) x (s.core c).nextId with cnt := (u.core c).cnt }

theorem enqueue_eq (s : State) (c : Nat) (x : XCmd) :
    ∃ u, Counted s u c ∧ enqueue s c x = modCore u c (fun k => withCommand k c x) :=
  ⟨_, counted_count s c 0x45 _, rfl⟩

theorem xQueue_eq (s : State) (c : Nat) (x : XCmd) : ∃ u, Handed s u c x ∧ xQueue s c x = engKick u c x.body := by
  obtain ⟨v, hv, he⟩ := enqueue_eq s c x
  have hcnt := counted_count (modCore v c fun k => withCommand k c x) c 0x02 1 (w := hereSample)
  refine ⟨_, ⟨?_, ?_⟩, rfl⟩
  · rw [he]
    split
    · exact hv.onlyCore.trans ((onlyCore_modCore _ _ _).trans (hcnt.onlyCore.trans (onlyCore_block _ _ _)))
    · exact hv.onlyCore.trans ((onlyCore_modCore _ _ _).trans (hcnt.onlyCore.trans (onlyCore_advance _ _)))
  · rw [he]
    have hk : withCommand (v.core c) c x = { withCommand (s.core c) c x with cnt := (v.core c).cnt } := by
      simp only [withCommand, hv.engRanges, hv.nextId, hv.ctl, hv.sb, hv.flights]
      rw [hv.core]
    by_cases hx : x.iss.sync = true
    · simp only [hx, if_true, block, core_modCtl, afterIssue]
      rw [hcnt.core, core_modCore, hk]
    · simp only [hx, Bool.false_eq_true, if_false, advance, core_modCtl, afterIssue]
      rw [hcnt.core, core_modCore, hk]

section
variable {s u : State} {c : Nat} {x : XCmd} (h : Handed s u c x)
include h

theorem Handed.mem : u.mem = s.mem := by rw [← h.only.1]

theorem Handed.ctl : (u.core c).ctl = (afterIssue (withCommand (s.core c) c x) x (s.core c).nextId).ctl := by rw [h.core]

theorem Handed.tagCount : tagCount (u.core c).ctl x.iss.tag.val =
    tagCount (s.core c).ctl x.iss.tag.val + (if x.iss.notag then 0 else 1) := by
  have htag : (u.core c).ctl.tagCnt = (withCommand (s.core c) c x).ctl.tagCnt := by
    rw [h.ctl, afterIssue]
    split <;> rfl
  rw [Machine.tagCount, htag, withCommand]
  split
  · rfl
  · exact mget_mset _ _ _ _

theorem Handed.rg (r : Reg) : rg u c r = rg s c r := by
  have hregs : (u.core c).ctl.regs = (s.core c).ctl.regs := by
    rw [h.ctl, afterIssue, withCommand]
    split <;> split <;> rfl
  rw [Machine.rg, Ctl.get, hregs, ← Ctl.get, ← Machine.rg]

theorem Handed.goes : (if x.iss.sync then (u.core c).ctl.pc = (s.core c).ctl.pc ∧ (u.core c).ctl.blk = .sync (s.core c).nextId
    else GoesTo u c ((s.core c).ctl.pc + 4)) := by
  have hpc : (withCommand (s.core c) c x).ctl.pc = (s.core c).ctl.pc := by
    rw [withCommand]
    split <;> rfl
  rw [GoesTo, h.ctl, afterIssue]
  split
  · exact ⟨hpc, rfl⟩
  · exact ⟨congrArg (· + 4) hpc, rfl⟩

theorem Handed.issued : Issued s u c x :=
  ⟨by rw [h.core]; rfl, h.tagCount, h.rg, h.goes⟩

theorem Handed.queued : Queued s u c x :=
  ⟨h.issued, by rw [h.core]; rfl, by rw [h.core]; rfl⟩

end

/-- Counters apart, the same command is queued. -/
theorem Counted.handed {s u v : State} {c : Nat} {x : XCmd} (h : Counted s v c) (k : Handed v u c x) : Handed s u c x := by
  refine ⟨h.onlyCore.trans k.only, ?_⟩
  have hw : withCommand (v.core c) c x = { withCommand (s.core c) c x with cnt := (v.core c).cnt } := by
    simp only [withCommand, h.engRanges, h.nextId, h.ctl, h.sb, h.flights]
    rw [h.core]
  rw [k.core, hw, h.nextId]
  rfl

/-- R188: a command that its engine does not refuse and that need not wait is queued. -/
theorem xIssue_issuable {s v : State} {c : Nat} (w : W32) {x : XCmd} (hi : Issuable s c x) (hc : Counted s v c) :
    ∃ u, Handed s u c x ∧ xIssue v c w x = engKick u c x.body := by
  obtain ⟨hrefuse, hstall⟩ := hi
  obtain ⟨u, hu, he⟩ := xQueue_eq v c x
  refine ⟨u, hc.handed hu, ?_⟩
  rw [xIssue, hc.engRefuse, hrefuse]
  simp only [hc.engStalls, hstall, Bool.false_eq_true, if_false, he]

/-- R188 step 3: a command that its engine refuses faults its core. -/
theorem xIssue_refused {s v : State} {c code detail : Nat} (w : W32) {x : XCmd} (hr : Ready s c)
    (h : engRefuse s c x.body = some (code, detail)) (hq : Quiet s c) (hc : Counted s v c) :
    Faults s (xIssue v c w x) c code w detail (BitVec.ofNat 64 x.iss.doff) ∧ (xIssue v c w x).mem = s.mem := by
  rw [xIssue, hc.engRefuse, h]
  exact cuFault_counted _ _ _ _ _ _ _ _ hr hq hc

/-- R188 step 4: a command that must wait holds the control unit. -/
theorem xIssue_held {s v : State} {c : Nat} (w : W32) {x : XCmd} (hrefuse : engRefuse s c x.body = none)
    (hstall : engStalls s c x = true) (hc : Counted s v c) :
    xIssue v c w x = block v c (.x x (engRanges (s.core c) c (s.core c).nextId x.body)) := by
  rw [xIssue, hc.engRefuse, hrefuse]
  simp only [hc.engStalls, hstall, if_true, hc.engRanges, hc.nextId]

/-- The row of an engine's command: refused, or held where it must wait. -/
theorem engRow_refusedOrHeld {s : State} {c : Nat} {i : Issue} {b : EngBody} {instr : Instr} (hr : Ready s c)
    (he : exec instr s = .next (engRow s c i b)) : RefusedOrHeld s c instr ⟨i, b⟩ := by
  rw [RefusedOrHeld, he]
  refine ⟨fun code detail h hq => ?_, fun hrefuse hstall => ?_⟩
  · refine exists_issue hr _ fun u hc => ?_
    obtain ⟨hfault, hmem⟩ := xIssue_refused (x := ⟨i, b⟩) (fetchWord u c) hr h hq hc
    rw [hc.fetchWord] at hfault hmem ⊢
    exact ⟨hfault, hmem⟩
  · refine exists_issue hr _ fun u hc => ?_
    rw [xIssue_held (x := ⟨i, b⟩) _ hrefuse hstall hc]
    exact ⟨by simp [block], by simp [block, hc.ctl], by simp [block, hc.flights], fun r => by rw [rg_block, hc.rg], hc.mem⟩

/-- A command of an engine that begins nothing by itself: queued. -/
theorem engRow_issuable {s : State} {c : Nat} {i : Issue} {b : EngBody} (hr : Ready s c) (hi : Issuable s c ⟨i, b⟩)
    {P : State → Prop} (h : ∀ u, Handed s u c ⟨i, b⟩ → P (engKick u c b)) :
    ∃ t, (Host.Outcome.next (engRow s c i b) : Res) = .next t ∧ P t :=
  exists_issue hr _ fun v hc => by
    obtain ⟨u, hu, he⟩ := xIssue_issuable (fetchWord v c) hi hc
    rw [he]
    exact h u hu

/-- Settles O9: X checks its operands in turn, then its command is issued. -/
theorem xQueuesItsCommand : Obligations.XQueuesItsCommand := by
  unfold Obligations.XQueuesItsCommand
  refine ⟨fun s c eng tag p flags desc hr hdesc => ⟨fun op v x hbits hal hlt hsb hs hread hx hi => ?_, fun hbits hq => ?_,
    fun hbits hbad hq => ?_⟩, fun s c x rs op v hst hblk hbody => ⟨fun hstall => ?_, fun hstall => ?_⟩⟩
  · refine exists_issue hr _ fun u hc => ?_
    subst hx
    obtain ⟨w, hw, he⟩ := xIssue_issuable (encX eng.toNat tag.val p.val flags.toNat) hi hc
    have hok : ¬ (desc.toNat % 64 ≠ 0 ∨ 2 ^ 21 ≤ desc.toNat) := by omega
    simp only [hc.rg, ← hdesc, hbits, ne_eq, not_true_eq_false, if_false, if_neg hok, hc.sbReadStall, hsb, Bool.false_eq_true,
      spRead_sound 0 (hc.sound hs), hc.spBytes, hread, he]
    exact ⟨hw.queued, hw.mem⟩
  · refine exists_issue hr _ fun u hc => ?_
    rw [if_pos hbits]
    exact (cuFault_counted _ _ _ _ _ _ _ _ hr hq hc).1
  · refine exists_issue hr _ fun u hc => ?_
    simp only [hc.rg, ← hdesc, hbits, ne_eq, not_true_eq_false, if_false]
    rw [if_pos hbad]
    exact (cuFault_counted _ _ _ _ _ _ _ _ hr hq hc).1
  · obtain ⟨u, hu, he⟩ := xQueue_eq s c x
    refine ⟨_, rfl, ?_⟩
    simp only [hst, hblk, hstall, Bool.false_eq_true, if_false, he, hbody]
    exact ⟨hu.queued, hu.mem⟩
  · change Host.Outcome.next (match (s.core c).ctl.st, (s.core c).ctl.blk with
      | .running, .x cmd _ => if engStalls s c cmd then s else xQueue s c cmd
      | _, _ => s) = _
    simp only [hst, hblk, hstall, if_true]

end Sys2Proof.Machine
end

section
/-!
SUPPORT. The instruction buffer and launches (R175, R178: O10), and global accesses (R186, R187: O12).
-/

namespace Sys2Proof.Machine

/-! ### The instruction buffer -/

theorem canIssue_iff {s : State} {c : Nat} : canIssue s c = true ↔ present s c = true ∧ (s.core c).crst = false ∧
    (s.core c).ctl.st = .running ∧ ((s.core c).ctl.blk = .none ∨ (s.core c).ctl.blk = .sb) := by
  simp [canIssue, and_assoc]

theorem onlyCore_keepLine (s : State) (c line : Nat) (bs : Bytes) : OnlyCore s (keepLine s c line bs) c := onlyCore_modCtl s c _

/-- What a line that enters the instruction buffer leaves alone, and where it stands. -/
theorem keepLine_effect (s : State) (c line : Nat) (bs : Bytes) :
    ((keepLine s c line bs).core c).ctl.pc = (s.core c).ctl.pc ∧ (∀ r, rg (keepLine s c line bs) c r = rg s c r) ∧
      ((keepLine s c line bs).core c).ctl.blk = (s.core c).ctl.blk ∧
      mfind ((keepLine s c line bs).core c).ctl.ibuf (line / 64 % 256) = some (line / 2 ^ 14, bs) := by
  refine ⟨by simp [keepLine], fun r => by simp [keepLine, rg, Ctl.get], by simp [keepLine], by simp [keepLine]⟩

theorem sound_congr {s t : State} {c off n : Nat} (hspd : (t.core c).spd = (s.core c).spd) (hmarks : t.marks = s.marks)
    (h : Sound s c off n) : Sound t c off n := fun w hw => by
  rw [spMark, spKey_congr hspd, hmarks, ← spMark]
  exact h w hw

section
variable {s : State} {c : Nat} (hr : canIssue s c = true) (hpc : (s.core c).ctl.pc.toNat < 2 ^ 21)
include hr hpc

/-- What INSN_BUFFER_FILL asks of a core before it looks for a line. -/
theorem fill_running : (!present s c || (s.core c).crst || (s.core c).ctl.st != .running ||
    decide (2 ^ 21 ≤ (s.core c).ctl.pc.toNat)) = false := by
  obtain ⟨hp, hrst, hst, -⟩ := canIssue_iff.1 hr
  simp only [hp, hrst, hst, Nat.not_le.2 hpc, decide_false, Bool.or_false, Bool.not_true]
  decide

theorem fill_prefetches (hhit : bufHit s c (s.core c).ctl.pc.toNat = true) :
    execInsnBufferFill c s = .next (prefetch s c ((s.core c).ctl.pc.toNat / 64 * 64 + 64)) := by
  simp only [execInsnBufferFill, fill_running hr hpc, hhit, Bool.false_eq_true, if_false, if_true]

theorem fill_stalls (hmiss : bufHit s c (s.core c).ctl.pc.toNat = false)
    (hsb : sbReadStall (s.core c) ((s.core c).ctl.pc.toNat / 64 * 64) 64 = true) : execInsnBufferFill c s = .next (block s c .sb) := by
  simp only [execInsnBufferFill, fill_running hr hpc, hmiss, hr, hsb, Bool.false_eq_true, if_false, if_true, Bool.not_true]

theorem fill_reads (hmiss : bufHit s c (s.core c).ctl.pc.toNat = false)
    (hsb : sbReadStall (s.core c) ((s.core c).ctl.pc.toNat / 64 * 64) 64 = false)
    (hs : Sound s c ((s.core c).ctl.pc.toNat / 64 * 64) 64) :
    execInsnBufferFill c s = .next (keepLine (count (block s c .none) c 0x07 1) c ((s.core c).ctl.pc.toNat / 64 * 64)
      (spBytes s c ((s.core c).ctl.pc.toNat / 64 * 64) 64)) := by
  have hspd : ((block s c .none).core c).spd = (s.core c).spd := by simp [block]
  simp only [execInsnBufferFill, fill_running hr hpc, hmiss, hr, hsb, Bool.false_eq_true, if_false, Bool.not_true,
    spRead_sound 0 (sound_congr (t := block s c .none) hspd rfl hs), spBytes_congr (t := block s c .none) hspd rfl]

end

theorem prefetch_reads {s : State} {c line : Nat} (hlt : line < 2 ^ 21) (hmiss : bufHit s c line = false)
    (hsb : sbReadStall (s.core c) line 64 = false) (hs : Sound s c line 64) :
    prefetch s c line = keepLine s c line (spBytes s c line 64) := by
  have hno : ¬ (2 ^ 21 ≤ line ∨ bufHit s c line = true ∨ sbReadStall (s.core c) line 64 = true) := by
    simp only [hmiss, hsb, Bool.false_eq_true, or_false]
    omega
  rw [prefetch, if_neg hno, spRead_sound 0 hs]

theorem prefetch_stalls {s : State} {c line : Nat} (hsb : sbReadStall (s.core c) line 64 = true) : prefetch s c line = s := by
  rw [prefetch, if_pos (Or.inr (Or.inr hsb))]

/-! ### Launches -/

/-- The registers as a launch leaves them (R175). -/
theorem mget_launchRegs (v : Nat → W64) (n k : Nat) :
    mget 0 ((List.range n).foldl (fun r i => mset r (i + 1) (v i)) []) k = if 1 ≤ k ∧ k ≤ n then v (k - 1) else 0 := by
  induction n with
  | zero => simp; omega
  | succ n ih =>
    rw [List.range_succ, List.foldl_append, List.foldl_cons, List.foldl_nil]
    by_cases h : k = n + 1
    · subst h
      simp
    · rw [mget_mset_ne _ _ _ h, ih]
      congr 1
      exact propext (by omega)

/-- R175: an IDLE core takes the oldest message of its queue 31. -/
theorem launchTake_eq {s : State} {c : Nat} {m : QEntry} {ms : List QEntry} {bs : Bytes} (hp : present s c = true)
    (hrst : (s.core c).crst = false) (hst : (s.core c).ctl.st = .idle) (hhalt : (s.core c).ctl.haltBit = false)
    (hmsgs : ((s.core c).que.q 31).msgs = m :: ms) (hs : Sound s c (((s.core c).que.q 31).slotOff m.slot) (m.len * 16))
    (hbs : bs = spBytes s c (((s.core c).que.q 31).slotOff m.slot) (m.len * 16)) :
    exec (.launchTake c) s = .next (modCtl (count (popMsg s c 31) c 0x0F 1) c (fun t =>
      { t with
        st := .running
        blk := .none
        pc := BitVec.ofNat 64 (leAt bs 0 4 % 2 ^ 21 / 4 * 4)
        launch := BitVec.ofNat 32 (leAt bs 4 4)
        regs := (List.range 8).foldl (fun r i => mset r (i + 1) (BitVec.ofNat 64 (leAt bs (8 + 8 * i) 8))) []
        ibuf := []
        launchOn := some ((bs.getD 74 0).toNat, leAt bs 72 2) })) := by
  have hgo : (present s c && !(s.core c).crst && (s.core c).ctl.st == .idle && !(s.core c).ctl.haltBit) = true := by
    simp [hp, hrst, hst, hhalt]
  change execLaunchTake c s = _
  simp only [execLaunchTake, hmsgs, hgo, if_true, spRead_sound 5 hs, ← hbs]

/-- Settles O10: a fill reads the line that is asked for, and a launch the message that is the oldest. -/
theorem fetchAndLaunch : Obligations.FetchAndLaunch := by
  unfold Obligations.FetchAndLaunch
  refine ⟨fun s c pc line hr hpc hlt hmiss hline => ?_, fun s c pc line hr hpc hline hlt hmiss => ?_,
    fun s c m ms bs hp hrst hst hhalt hmsgs hs hbs => ?_⟩
  · subst hpc hline
    refine ⟨fun d a b => congrArg _ (issue_miss hlt hmiss _), fun hsb hs => ⟨_, fill_reads hr hlt hmiss hsb hs, ?_⟩,
      fun hsb => ⟨_, fill_stalls hr hlt hmiss hsb, by simp [block], by simp [block], onlyCore_block _ _ _⟩⟩
    have hc := counted_count (block s c .none) c 0x07 1 (w := hereSample)
    obtain ⟨hpc, hrg, -, hbuf⟩ := keepLine_effect (count (block s c .none) c 0x07 1) c ((s.core c).ctl.pc.toNat / 64 * 64)
      (spBytes s c ((s.core c).ctl.pc.toNat / 64 * 64) 64)
    refine ⟨(onlyCore_block _ _ _).trans (hc.onlyCore.trans (onlyCore_keepLine _ _ _ _)), ?_, fun r => ?_, ?_⟩
    · rw [hpc, hc.ctl]
      simp [block]
    · rw [hrg, hc.rg, rg_block]
    · rwa [Nat.mul_div_cancel _ (by decide), show (s.core c).ctl.pc.toNat / 64 * 64 / 2 ^ 14 = (s.core c).ctl.pc.toNat / 2 ^ 14 by omega]
        at hbuf
  · subst hpc hline
    obtain ⟨hissue, hpc, hhit⟩ := hr
    refine ⟨fun hsb hs => ⟨_, fill_prefetches hissue hpc hhit, ?_⟩, fun hsb => ?_⟩
    · rw [prefetch_reads hlt hmiss hsb hs]
      exact ⟨onlyCore_keepLine _ _ _ _, keepLine_effect _ _ _ _⟩
    · change execInsnBufferFill c s = _
      rw [fill_prefetches hissue hpc hhit, prefetch_stalls hsb]
  · obtain ⟨hpop, hleft⟩ := queEdit_popMsg hmsgs
    have hc := counted_count (popMsg s c 31) c 0x0F 1 (w := hereSample)
    refine ⟨_, launchTake_eq hp hrst hst hhalt hmsgs hs hbs, by simp, by simp, by simp, by simp, fun r => ?_, ?_, ?_⟩
    · simp only [rg, core_modCtl, Ctl.get, mget_launchRegs (fun i => BitVec.ofNat 64 (leAt bs (8 + 8 * i) 8))]
      split_ifs with h0 h1 h1
      · omega
      · rfl
      · rw [show 8 + 8 * (r.val - 1) = 8 * r.val by omega]
      · rfl
    · rw [core_modCtl, hc.que, hleft]
    · rw [modCtl_mem, hc.mem, hpop.mem]

/-! ### Global accesses (R186) -/

theorem shows_sendRemote (s : State) (c : Nat) (a : W64) (opc n : Nat) (f : LinkPkt → LinkPkt) : Shows s (sendRemote s c a opc n f) := by
  rw [sendRemote]
  split
  · exact shows_emit s _
  · exact Shows.refl s

theorem Shows.core {s t : State} (h : Shows s t) (c : Nat) : t.core c = s.core c := by
  rw [h]
  rfl

theorem Shows.mem {s t : State} (h : Shows s t) : t.mem = s.mem := by rw [h]

section
variable {s : State} {c op size : Nat} {d a : Reg} {imm : BitVec 15} {load : Bool} {x : W64} (hr : Ready s c)
  (hx : x = rg s c a + imm.signExtend 64)
include hr hx

/-- R186: an access that is aligned and not in the own scratchpad waits for its completion. -/
theorem globalIssue_waits (hal : x.toNat % size = 0) (hown : inOwnSp c x = false) :
    ∃ t, (.next (globalIssue s c op d a imm size load) : Res) = .next t ∧ ∃ g,
      (t.core c).ctl.blk = .gacc g ∧ g.addr = x ∧ g.size = size ∧ g.load = load ∧ g.d = d ∧ g.tag = (s.core c).ctl.gtag ∧
        g.lost = false ∧ g.data = (if load then [] else natBytes size (rg s c d).toNat) ∧
        (t.core c).ctl.pc = (s.core c).ctl.pc ∧ (∀ r, rg t c r = rg s c r) ∧ t.mem = s.mem := by
  refine exists_issue hr _ fun u hc => ?_
  simp only [hc.rg, ← hx, if_neg (not_not.2 hal), hown, Bool.false_and, Bool.false_eq_true, if_false, hc.ctl]
  have hcnt := hc.count 0x05 1 (memSample .here true x.toNat size 0)
  refine ⟨_, by simp only [block, core_modCtl]; rfl, rfl, rfl, rfl, rfl, rfl, rfl, rfl, ?_, fun r => ?_, ?_⟩
  · simp only [block, core_modCtl, (shows_sendRemote _ _ _ _ _ _).core, hcnt.ctl]
  · rw [rg_block, rg, (shows_sendRemote _ _ _ _ _ _).core, ← rg, hcnt.rg]
  · exact (shows_sendRemote _ _ _ _ _ _).mem.trans hcnt.mem

theorem globalIssue_misaligned (hal : x.toNat % size ≠ 0) (hq : Quiet s c) :
    ∃ t, (.next (globalIssue s c op d a imm size load) : Res) = .next t ∧
      Faults s t c 2 (encI op d.val a.val imm.toNat) size x ∧ t.mem = s.mem := by
  refine exists_issue hr _ fun u hc => ?_
  simp only [hc.rg, ← hx, if_pos hal]
  exact cuFault_counted _ _ _ _ _ _ _ _ hr hq hc

end

/-- The fault of a RUNNING core that a global access holds runs as one that nothing holds. -/
theorem coreFault_gacc {s : State} {c : Nat} {g : GAccess} (f : FaultInfo) (hst : (s.core c).ctl.st = .running)
    (hblk : (s.core c).ctl.blk = .gacc g) (hq : Quiet s c) :
    ((coreFault s c f).core c).ctl = { (s.core c).ctl with
        st := .faulted, blk := .none, frec := some (faultRecord s c f), launchOn := none } ∧
      (coreFault s c f).mem = s.mem := by
  obtain ⟨hfl, hsend, hdest, -⟩ := hq
  obtain ⟨hctl, hfl', hsends, hmem⟩ := reportLaunch_frame (stopFaulted s c (faultRecord s c f)) c (.faulted f.code)
  obtain ⟨hctl', hmem'⟩ := enginesHalt_idle_frame (hfl'.trans (by simp [stopFaulted, hfl])) (by rw [sendOf, hsends]; exact hsend)
  have he : coreFault s c f = raiseRec (faultHalts s c f) 0x1001 4 1 c (partOf (faultHalts s c f) c) (faultRecord s c f).echo
      ((List.range 6).map fun i => leAt (frecBytes (faultRecord s c f)) (4 * i) 4) := by
    simp only [coreFault, hst, hblk, hdest, Bool.false_eq_true, if_false]
    rfl
  rw [he, State.core, (raiseRec_frame ..).cores, (raiseRec_frame ..).mem, ← State.core, faultHalts, hctl', hctl, hmem', hmem]
  simp [stopFaulted]

theorem cuFault_gacc {s : State} {c : Nat} {g : GAccess} (code engine tag detail : Nat) (w : W32) (addr ga gb : W64)
    (hst : (s.core c).ctl.st = .running) (hblk : (s.core c).ctl.blk = .gacc g) (hq : Quiet s c) :
    Faults s (cuFault s c code engine tag w detail addr ga gb) c code w detail addr ∧
      (cuFault s c code engine tag w detail addr ga gb).mem = s.mem := by
  obtain ⟨hctl, hmem⟩ := coreFault_gacc ⟨code, engine, false, tag, w, detail, addr, ga, gb⟩ hst hblk hq
  rw [cuFault, Faults, hctl]
  exact ⟨⟨rfl, _, rfl, rfl, rfl, rfl, rfl, rfl, rfl, rfl⟩, hmem⟩

section
variable {s : State} {c : Nat} {g : GAccess} (hst : (s.core c).ctl.st = .running) (hblk : (s.core c).ctl.blk = .gacc g)
  (hrem : isRemote g.addr = true) (hdev : remoteDev g.addr ≠ s.devId) (hlost : g.lost = false)

/-- The answer of another device to an access in flight (Table 7.1). -/
theorem gaccPerform_remote {s : State} {g : GAccess} (hrem : isRemote g.addr = true) (hdev : remoteDev g.addr ≠ s.devId)
    (hlost : g.lost = false) (c status : Nat) (data : W64) :
    gaccPerform s c g status data = (s, RSt.ofQue status, data) := by
  simp only [gaccPerform, hlost, hrem, if_neg hdev, Bool.false_eq_true, if_false, if_true]

include hst hblk hrem hdev hlost

theorem completion_eq (status : Nat) (data : W64) : exec (.globalAccessCompletion c status data) s = .next (
    if RSt.ofQue status = .ok then
      let t := advance (if g.load then setReg s c g.d (if g.size = 4 then BitVec.ofNat 64 (data.toNat % 2 ^ 32) else data) else s) c
      if (t.core c).ctl.haltBit then haltNow t c else t
    else cuFault (count s c 0x7D 1) c (RSt.ofQue status).fault 0xFF 0 g.insn (gaccDetail s c g (RSt.ofQue status)) g.addr g.ga g.gb) := by
  have hcur : curGacc s c = some g := by simp only [curGacc, hst, hblk]
  change execGlobalAccessCompletion c status data s = _
  simp only [execGlobalAccessCompletion, hcur, gaccHeld, hrem, Bool.not_true, Bool.and_false, Bool.false_and, Bool.false_eq_true,
    if_false, gaccPerform_remote hrem hdev hlost]

theorem completion_ok (hhalt : (s.core c).ctl.haltBit = false) (data : W64) :
    ∃ t, exec (.globalAccessCompletion c 0 data) s = .next t ∧ OnlyCore s t c ∧ GoesTo t c ((s.core c).ctl.pc + 4) ∧
      (g.load = true → RegIs s t c g.d (if g.size = 4 then BitVec.ofNat 64 (data.toNat % 2 ^ 32) else data)) ∧
      (g.load = false → ∀ r, rg t c r = rg s c r) := by
  rw [completion_eq hst hblk hrem hdev hlost, if_pos (show RSt.ofQue 0 = .ok from rfl)]
  cases hl : g.load
  · have hno : ((advance s c).core c).ctl.haltBit = false := by simp [advance, hhalt]
    simp only [Bool.false_eq_true, if_false, hno]
    exact ⟨_, rfl, onlyCore_advance s c, goesTo_advance s c, fun h => h.elim, fun _ r => rg_advance s c r⟩
  · obtain ⟨hreg, hgo, honly, hframe⟩ := retires_next s c g.d (if g.size = 4 then BitVec.ofNat 64 (data.toNat % 2 ^ 32) else data)
    have hno : ((advance (setReg s c g.d (if g.size = 4 then BitVec.ofNat 64 (data.toNat % 2 ^ 32) else data)) c).core c).ctl.haltBit =
        false := by
      rw [← hhalt]
      have := congrArg Ctl.haltBit hframe.2
      exact this
    simp only [if_true, hno, Bool.false_eq_true, if_false]
    exact ⟨_, rfl, honly, hgo, fun _ => hreg, fun h => absurd h (by decide)⟩

theorem completion_faults (hq : Quiet s c) (data : W64) {st : Nat} (hok : RSt.ofQue st ≠ .ok) (hunc : RSt.ofQue st ≠ .uncorrected) :
    ∃ t, exec (.globalAccessCompletion c st data) s = .next t ∧ Faults s t c (RSt.ofQue st).fault g.insn 0 g.addr ∧ t.mem = s.mem := by
  rw [completion_eq hst hblk hrem hdev hlost, if_neg hok, gaccDetail, if_neg hunc]
  have hc := counted_count s c 0x7D 1 (w := hereSample)
  obtain ⟨hfault, hmem⟩ := cuFault_gacc (s := count s c 0x7D 1) (g := g) (RSt.ofQue st).fault 0xFF 0 0 g.insn g.addr g.ga g.gb
    (by rw [hc.ctl, hst]) (by rw [hc.ctl, hblk]) (hc.quiet hq)
  exact ⟨_, rfl, hc.faults hfault, hmem.trans hc.mem⟩

theorem timeout_faults (hq : Quiet s c) : ∃ t, exec (.globalAccessTimeout c) s = .next t ∧
    Faults s t c 0x0F g.insn (s.core c).ctl.gtmo g.addr ∧ t.mem = s.mem := by
  have hcur : curGacc s c = some g := by simp only [curGacc, hst, hblk]
  have he : exec (.globalAccessTimeout c) s = .next (cuFault { s with fresh := s.fresh + 1 } c 0x0F 0xFF 0 g.insn
      (s.core c).ctl.gtmo g.addr g.ga g.gb) := by
    change execGlobalAccessTimeout c s = _
    simp only [execGlobalAccessTimeout, hcur, drawBool, gaccPerform_remote (s := { s with fresh := s.fresh + 1 }) hrem hdev hlost,
      ite_self]
    rfl
  rw [he]
  exact ⟨_, rfl, cuFault_gacc (s := { s with fresh := s.fresh + 1 }) (g := g) _ _ _ _ _ _ _ _ hst hblk hq⟩

end

/-- Settles O12: an access that is issued waits, and what comes back ends the wait. -/
theorem globalAccessesWaitAndComplete : Obligations.GlobalAccessesWaitAndComplete := by
  unfold Obligations.GlobalAccessesWaitAndComplete
  refine ⟨fun p hp s c d a imm x hr hx => ?_, fun s c g data hst hblk hrem hdev hhalt hlost => ⟨?_, fun st hcase hq => ?_, fun hq => ?_⟩⟩
  · have hissue : ∀ op size load, ((x.toNat % size = 0 → inOwnSp c x = false → ∃ t g,
        (.next (globalIssue s c op d a imm size load) : Res) = .next t ∧
        (t.core c).ctl.blk = .gacc g ∧ g.addr = x ∧ g.size = size ∧ g.load = load ∧ g.d = d ∧ g.tag = (s.core c).ctl.gtag ∧
        g.lost = false ∧ g.data = (if load then [] else natBytes size (rg s c d).toNat) ∧
        (t.core c).ctl.pc = (s.core c).ctl.pc ∧ (∀ r, rg t c r = rg s c r) ∧ t.mem = s.mem) ∧
      (x.toNat % size ≠ 0 → Quiet s c → ∃ t, (.next (globalIssue s c op d a imm size load) : Res) = .next t ∧
        Faults s t c 2 (encI op d.val a.val imm.toNat) size x ∧ t.mem = s.mem)) := fun op size load => by
      refine ⟨fun hal hown => ?_, fun hal hq => globalIssue_misaligned hr hx hal hq⟩
      obtain ⟨t, he, g, h⟩ := globalIssue_waits (op := op) (d := d) (load := load) hr hx hal hown
      exact ⟨t, g, he, h⟩
    simp only [List.mem_cons, List.not_mem_nil, or_false] at hp
    obtain rfl | rfl | rfl | rfl := hp
    · exact hissue 0x24 4 true
    · exact hissue 0x25 8 true
    · exact hissue 0x26 4 false
    · exact hissue 0x27 8 false
  · exact completion_ok hst hblk hrem hdev hlost hhalt data
  · obtain rfl | rfl | rfl | rfl | rfl := hcase
    · exact completion_faults hst hblk hrem hdev hlost hq data (st := 2) (by decide) (by decide)
    · exact completion_faults hst hblk hrem hdev hlost hq data (st := 3) (by decide) (by decide)
    · exact completion_faults hst hblk hrem hdev hlost hq data (st := 6) (by decide) (by decide)
    · exact completion_faults hst hblk hrem hdev hlost hq data (st := 7) (by decide) (by decide)
    · exact completion_faults hst hblk hrem hdev hlost hq data (st := 0x0C) (by decide) (by decide)
  · exact timeout_faults hst hblk hrem hdev hlost hq

end Sys2Proof.Machine
end

section
/-!
SUPPORT. The end of an engine's command (R190, R191), and the vector unit's queueing and completion (O13).
-/

namespace Sys2Proof.Machine

/-! ### A command leaves its engine -/

theorem wakeTags_eq (k : Core) : ∃ blk pc, wakeTags k = { k with ctl := { k.ctl with blk := blk, pc := pc } } := by
  have hgo : ∃ blk pc, ({ k with ctl := { k.ctl with blk := .none, pc := k.ctl.pc + 4 } } : Core) =
      { k with ctl := { k.ctl with blk := blk, pc := pc } } := ⟨_, _, rfl⟩
  have hstay : ∃ blk pc, k = { k with ctl := { k.ctl with blk := blk, pc := pc } } := ⟨k.ctl.blk, k.ctl.pc, rfl⟩
  rw [wakeTags]
  split
  · split
    · exact hgo
    · exact hstay
  · split
    · exact hgo
    · exact hstay
  · split
    · exact hstay
    · exact hgo
  · exact hstay

/-- R190: what the completion of a command leaves of its core. -/
theorem finishFlight_eq (k : Core) (f : Flight) (err : Bool) : ∃ blk pc tagErr, finishFlight k f err = { k with
    flights := k.flights.filter (fun x => x.id != f.id)
    sb := k.sb.filter (fun e => e.id != f.id)
    ctl := { k.ctl with
      blk := blk
      pc := pc
      tagErr := tagErr
      tagCnt := if f.iss.notag then k.ctl.tagCnt else mset k.ctl.tagCnt f.iss.tag.val (tagCount k.ctl f.iss.tag.val - 1) } } := by
  rw [finishFlight]
  obtain ⟨blk, pc, hw⟩ := wakeTags_eq (k := { sbRelease { k with flights := k.flights.filter (fun x => x.id != f.id) } f.id with
    ctl := if err then
        { (if f.iss.notag then k.ctl else { k.ctl with tagCnt := mset k.ctl.tagCnt f.iss.tag.val (tagCount k.ctl f.iss.tag.val - 1) }) with
          tagErr := (if f.iss.notag then k.ctl else
            { k.ctl with tagCnt := mset k.ctl.tagCnt f.iss.tag.val (tagCount k.ctl f.iss.tag.val - 1) }).tagErr |||
              BitVec.ofNat 32 (2 ^ f.iss.tag.val) }
      else if f.iss.notag then k.ctl else
        { k.ctl with tagCnt := mset k.ctl.tagCnt f.iss.tag.val (tagCount k.ctl f.iss.tag.val - 1) } })
  refine ⟨blk, pc, if err then k.ctl.tagErr ||| BitVec.ofNat 32 (2 ^ f.iss.tag.val) else k.ctl.tagErr, Eq.trans hw ?_⟩
  cases err <;> cases f.iss.notag <;> rfl

theorem complete_of_none (s : State) (c : Nat) {f : Flight} (err : Bool) (h : f.memDetail = none) :
    complete s c f err = modCore s c (fun k => finishFlight k f err) := by
  rw [complete, h]

/-- R190: a completed command has left its engine. -/
theorem leaves_finish {s u : State} {c : Nat} (f : Flight) (err : Bool) (h : (u.core c).ctl.tagCnt = (s.core c).ctl.tagCnt) :
    Leaves s (modCore u c (fun k => finishFlight k f err)) c f := by
  obtain ⟨blk, pc, tagErr, he⟩ := finishFlight_eq (u.core c) f err
  rw [Leaves, core_modCore, he]
  refine ⟨fun g hg => ?_, fun e hmem => ?_, ?_⟩
  · simpa using (List.mem_filter.1 hg).2
  · simpa using (List.mem_filter.1 hmem).2
  · simp only [tagCount, h]
    split
    · rfl
    · exact mget_mset _ _ _ _

theorem rg_finish (u : State) (c : Nat) (f : Flight) (err : Bool) (r : Reg) :
    rg (modCore u c (fun k => finishFlight k f err)) c r = rg u c r := by
  obtain ⟨blk, pc, tagErr, he⟩ := finishFlight_eq (u.core c) f err
  rw [rg, core_modCore, he]
  rfl

/-! ### Vector commands -/

/-- A row of the vector unit is the issue of its command. -/
theorem exec_vecTable {p : (Nat → Issue → VecDesc → Instr) × VecOp} (hp : p ∈ vecTable) (s : State) (c : Nat) (i : Issue)
    (d : VecDesc) : exec (p.1 c i d) s = .next (engRow s c i (.vec p.2 d)) := by
  simp only [vecTable, List.mem_cons, List.not_mem_nil, or_false] at hp
  rcases hp with rfl | rfl | rfl | rfl | rfl | rfl | rfl | rfl | rfl | rfl | rfl | rfl | rfl | rfl | rfl | rfl | rfl | rfl | rfl |
    rfl | rfl | rfl | rfl | rfl <;> rfl

theorem badMerge_sound {s : State} {c off n : Nat} (h : Sound s c off n) : badMerge s c off n = none := by
  rw [Sound] at h
  rw [badMerge, ← wordsOf, List.find?_eq_none]
  intro w hw
  rw [h w hw]
  simp

/-- The results of a command, written one after the other. -/
def putAll (s : State) (c : Nat) (ws : List (Nat × Bytes)) : State := ws.foldl (fun s w => spPuts s c w.1 w.2) s

theorem putAll_eq (s : State) (c : Nat) (ws : List (Nat × Bytes)) : putAll s c ws = { s with mem := (putAll s c ws).mem } := by
  induction ws generalizing s with
  | nil => rfl
  | cons w ws ih =>
    rw [putAll, List.foldl_cons, ← putAll, ih, spPuts_eq]

theorem spWrites_sound {s : State} {c port : Nat} {ws : List (Nat × Bytes)} (h : ∀ w ∈ ws, Sound s c w.1 w.2.length) :
    ws.foldl (fun s w => (spWrite s c w.1 w.2 port).1) s = putAll s c ws := by
  induction ws generalizing s with
  | nil => rfl
  | cons w ws ih =>
    rw [List.foldl_cons, spWrite_sound port (h w (List.mem_cons_self ..)), putAll, List.foldl_cons, ← putAll]
    refine ih fun x hx => ?_
    exact sound_congr (by rw [core_spPuts]) (by rw [spPuts_eq]) (h x (List.mem_cons_of_mem _ hx))

theorem memInv_spPuts {s : State} (c off : Nat) (bs : Bytes) (h : MemInv s) : MemInv (spPuts s c off bs) := by
  induction bs generalizing s off with
  | nil => exact h
  | cons b bs ih => exact ih (off + 1) (memSet_wf _ _ _ h)

theorem memInv_putAll {s : State} {c : Nat} {ws : List (Nat × Bytes)} (h : MemInv s) : MemInv (putAll s c ws) := by
  induction ws generalizing s with
  | nil => exact h
  | cons w ws ih => exact ih (memInv_spPuts c w.1 w.2 h)

theorem core_putAll (s : State) (c k : Nat) (ws : List (Nat × Bytes)) : (putAll s c ws).core k = s.core k := by
  rw [putAll_eq]
  rfl

/-- Bytes outside every write stand. -/
theorem putAll_frame {s : State} {c x : Nat} {ws : List (Nat × Bytes)} (h : MemInv s)
    (hx : ∀ w ∈ ws, ∀ i < w.2.length, x ≠ spKey s c (w.1 + i)) : memGet (putAll s c ws).mem x = memGet s.mem x := by
  induction ws generalizing s with
  | nil => rfl
  | cons w ws ih =>
    rw [putAll, List.foldl_cons, ← putAll, ih (memInv_spPuts c w.1 w.2 h)]
    · exact spPuts_frame s c w.1 w.2 h x (hx w (List.mem_cons_self ..))
    · intro v hv i hi
      rw [spKey_spPuts]
      exact hx v (List.mem_cons_of_mem _ hv) i hi

/-- The last write stands. -/
theorem putAll_last {s : State} {c o : Nat} {bs : Bytes} (ws : List (Nat × Bytes)) (h : MemInv s) (hin : o + bs.length ≤ 2 ^ 21) :
    spBytes (putAll s c (ws ++ [(o, bs)])) c o bs.length = bs := by
  rw [putAll, List.foldl_append, ← putAll]
  exact spBytes_spPuts _ c o bs (memInv_putAll h) hin

/-- Settles O13: vector commands share the issue of every engine; a completion writes the results in order. -/
theorem vectorCommandsQueueAndComplete : Obligations.VectorCommandsQueueAndComplete := by
  unfold Obligations.VectorCommandsQueueAndComplete
  refine ⟨fun p hp s c i d x hr hx => ?_, fun s c f fs hm hfl hbegun hdet hws => ?_⟩
  · subst hx
    refine ⟨fun hi => ?_, engRow_refusedOrHeld hr (exec_vecTable hp s c i d)⟩
    rw [exec_vecTable hp]
    exact engRow_issuable hr hi fun u hu => ⟨hu.queued, hu.mem, hu.only⟩
  · have hbad : f.writes.findSome? (fun w => badMerge s c w.1 w.2.length) = none := by
      rw [List.findSome?_eq_none_iff]
      exact fun w hw => badMerge_sound (hws w hw).2
    have hputs := spWrites_sound (port := 4) fun w hw => (hws w hw).2
    have hc := counted_count (putAll s c f.writes) c 0x28 1 (w := engSample f false 0 0)
    have he : exec (.vecCommandComplete c) s =
        .next (modCore (count (putAll s c f.writes) c 0x28 1 (engSample f false 0 0)) c (fun k => finishFlight k f false)) := by
      change execVecCommandComplete c s = _
      simp only [execVecCommandComplete, hfl, hbegun, if_true, hbad, hputs, hdet]
      rfl
    have hmem : (modCore (count (putAll s c f.writes) c 0x28 1 (engSample f false 0 0)) c (fun k => finishFlight k f false)).mem =
        (putAll s c f.writes).mem := hc.mem
    have hspd : ((modCore (count (putAll s c f.writes) c 0x28 1 (engSample f false 0 0)) c (fun k => finishFlight k f false)).core c).spd =
        ((putAll s c f.writes).core c).spd := by
      obtain ⟨blk, pc, tagErr, hfin⟩ := finishFlight_eq ((count (putAll s c f.writes) c 0x28 1 (engSample f false 0 0)).core c) f false
      rw [core_modCore, hfin, ← hc.spd]
    refine ⟨_, he, leaves_finish f false (by rw [hc.ctl, core_putAll]), ?_, fun r => ?_, fun k hk => ?_, fun x hx => ?_,
      fun ws o bs hlast => ?_⟩
    · obtain ⟨blk, pc, tagErr, hfin⟩ := finishFlight_eq ((count (putAll s c f.writes) c 0x28 1 (engSample f false 0 0)).core c) f false
      rw [core_modCore, hfin, hc.core, core_putAll]
    · rw [rg_finish, hc.rg, rg, core_putAll, ← rg]
    · rw [core_modCore_ne _ _ hk, hc.others k hk, core_putAll]
    · rw [hmem, putAll_frame hm hx]
    · rw [spBytes_congr hspd hmem, hlast]
      exact putAll_last ws hm (hws (o, bs) (by simp [hlast])).1

end Sys2Proof.Machine
end

section
/-!
SUPPORT. What records (R467, R471, R472) and reads of the scratchpad (R151, R152) leave alone.
-/

namespace Sys2Proof.Machine

/-! ### Records -/

/-- Of `s`, `t` changes what records change, at most: the log, its totals and windows, and what subscriptions hold. -/
def Logged (s t : State) : Prop :=
  t = { s with
    wake := { s.wake with kept := t.wake.kept, lost := t.wake.lost }
    lastSeq := t.lastSeq
    logBuf := t.logBuf
    totals := t.totals
    totalsCold := t.totalsCold
    coals := t.coals
    sessions := t.sessions }

theorem Logged.refl (s : State) : Logged s s := rfl

theorem Logged.trans {s t u : State} (h : Logged s t) (k : Logged t u) : Logged s u := by
  rw [Logged] at h k ⊢
  rw [k, h]

theorem logged_storeRec (s : State) (r : LogRec) : Logged s (storeRec s r) := by
  unfold storeRec deliverRec
  dsimp only
  split <;> rfl

theorem logged_appendRec (s : State) (r : LogRec) : Logged s (appendRec s r) := by
  unfold appendRec
  split
  · dsimp only
    split <;> rfl
  · exact logged_storeRec s r

theorem logged_raiseRec (s : State) (code cls ukind unit : Nat) (part : Option Nat) (echo : W64) (detail : List Nat) :
    Logged s (raiseRec s code cls ukind unit part echo detail) := by
  unfold raiseRec
  dsimp only
  split
  · exact logged_appendRec s _
  · split
    · rfl
    · exact Logged.trans (t := { s with coals := s.coals ++ [⟨code, cls, ukind, unit, part, 0, echo, detail⟩] }) rfl
        (logged_appendRec _ _)

/-- R467: an event that is not fatal leaves a record alone. -/
theorem logged_raiseErr {code : Nat} (h : classOf code ≠ 2) (s : State) (ukind unit : Nat) (part : Option Nat) (echo : W64)
    (detail : List Nat) : Logged s (raiseErr s code ukind unit part echo detail) := by
  rw [raiseErr, if_neg h]
  exact logged_raiseRec s code _ ukind unit part echo detail

theorem Logged.core {s t : State} (h : Logged s t) (k : Nat) : t.core k = s.core k := by
  rw [h]
  rfl

/-! ### Reads of the scratchpad -/

/-- Of `s`, `t` changes what a read of core `c`'s scratchpad changes, at most: the marks and error counts of words, the core's ECC
registers and counters, and records. -/
structure CoreRead (s t : State) (c : Nat) : Prop where
  rest : Logged { s with cores := t.cores, marks := t.marks, rowErrs := t.rowErrs } t
  core : t.core c = { s.core c with
    spd := { (s.core c).spd with eccCe := (t.core c).spd.eccCe, eccUe := (t.core c).spd.eccUe, info := (t.core c).spd.info }
    cnt := (t.core c).cnt }
  others : ∀ k, k ≠ c → t.core k = s.core k

theorem CoreRead.refl (s : State) (c : Nat) : CoreRead s s c := ⟨rfl, rfl, fun _ _ => rfl⟩

theorem CoreRead.trans {s t u : State} {c : Nat} (h : CoreRead s t c) (k : CoreRead t u c) : CoreRead s u c := by
  refine ⟨?_, ?_, fun j hj => (k.others j hj).trans (h.others j hj)⟩
  · have h1 := h.rest
    have k1 := k.rest
    rw [Logged] at h1 k1 ⊢
    rw [k1, h1]
  · have e := k.core
    rw [h.core] at e
    exact e

theorem Counted.coreRead {s t : State} {c : Nat} (h : Counted s t c) : CoreRead s t c := by
  refine ⟨?_, ?_, h.others⟩
  · have e := h.rest
    rw [← e]
    rfl
  · rw [h.core]

theorem Logged.coreRead {s t : State} (h : Logged s t) (c : Nat) : CoreRead s t c := by
  refine ⟨?_, by rw [h.core], fun k _ => h.core k⟩
  rw [h]
  rfl

section
variable {s t : State} {c : Nat} (h : CoreRead s t c)
include h

theorem CoreRead.mem : t.mem = s.mem := by rw [h.rest]
theorem CoreRead.ctl : (t.core c).ctl = (s.core c).ctl := by rw [h.core]
theorem CoreRead.prs : (t.core c).prs = (s.core c).prs := by rw [h.core]
theorem CoreRead.vec : (t.core c).vec = (s.core c).vec := by rw [h.core]
theorem CoreRead.que : (t.core c).que = (s.core c).que := by rw [h.core]
theorem CoreRead.dma : (t.core c).dma = (s.core c).dma := by rw [h.core]
theorem CoreRead.flights : (t.core c).flights = (s.core c).flights := by rw [h.core]
theorem CoreRead.sb : (t.core c).sb = (s.core c).sb := by rw [h.core]
theorem CoreRead.nextId : (t.core c).nextId = (s.core c).nextId := by rw [h.core]

theorem CoreRead.rg (r : Reg) : rg t c r = rg s c r := by rw [Machine.rg, h.ctl, Machine.rg]

theorem CoreRead.spKey (off : Nat) : spKey t c off = spKey s c off := by
  rw [Machine.spKey, Machine.spKey, h.core]

theorem CoreRead.spByte (off : Nat) : spByte t c off = spByte s c off := by rw [Machine.spByte, Machine.spByte, h.spKey, h.mem]

theorem CoreRead.spBytes (off n : Nat) : spBytes t c off n = spBytes s c off n := by simp only [Machine.spBytes, h.spByte]

end

theorem coreRead_marks (s : State) (c : Nat) (marks : Map Mark) (errs : Map (List Nat)) :
    CoreRead s { s with marks := marks, rowErrs := errs } c := ⟨rfl, rfl, fun _ _ => rfl⟩

theorem coreRead_modSpd (s : State) (c : Nat) (f : Spd → Spd)
    (h : ∀ d, f d = { d with eccCe := (f d).eccCe, eccUe := (f d).eccUe, info := (f d).info }) : CoreRead s (modSpd s c f) c := by
  refine ⟨rfl, ?_, fun j hj => core_modSpd_ne _ _ hj⟩
  rw [core_modSpd]
  dsimp only
  rw [← h]

/-- R151, R152: what a read of one word changes. -/
theorem coreRead_touchKey (s : State) (c k port : Nat) : CoreRead s (touchKey s c k port).1 c := by
  rw [touchKey]
  dsimp only
  split
  · exact CoreRead.refl s c
  · exact CoreRead.refl s c
  · refine CoreRead.trans ?_ ((logged_raiseErr (code := 0x0001) (by decide) _ _ _ _ _ _).coreRead c)
    refine CoreRead.trans ?_ (counted_count _ _ _ _).coreRead
    refine CoreRead.trans ?_ (coreRead_marks _ c _ _)
    exact (coreRead_marks s c _ _).trans (coreRead_modSpd _ c _ fun _ => rfl)
  · refine CoreRead.trans ?_ ((logged_raiseErr (code := 0x0002) (by decide) _ _ _ _ _ _).coreRead c)
    refine CoreRead.trans ?_ (counted_count _ _ _ _).coreRead
    exact coreRead_modSpd s c _ fun _ => rfl

theorem coreRead_touchWord (s : State) (c off port : Nat) : CoreRead s (touchWord s c off port).1 c := coreRead_touchKey s c _ port

/-- R151, R152: a range that is read. -/
theorem coreRead_touchRange (s : State) (c off n port : Nat) : CoreRead s (touchRange s c off n port).1 c := by
  rw [touchRange]
  suffices h : ∀ (ws : List Nat) (p : State × List Nat), CoreRead s p.1 c → CoreRead s
      (ws.foldl (fun (p : State × List Nat) w =>
        ((touchWord p.1 c w port).1, if (touchWord p.1 c w port).2 then p.2 ++ [w] else p.2)) p).1 c from
    h _ _ (CoreRead.refl s c)
  intro ws
  induction ws with
  | nil => exact fun _ h => h
  | cons w ws ih => exact fun p h => ih _ (h.trans (coreRead_touchWord p.1 c w port))

theorem coreRead_spRead (s : State) (c off n port : Nat) : CoreRead s (spRead s c off n port).1 c :=
  coreRead_touchRange s c off n port

/-- A fold of reads is a read. -/
theorem coreRead_foldl {α β : Type} {c : Nat} (step : State × β → α → State × β) (h : ∀ p a, CoreRead p.1 (step p a).1 c)
    (l : List α) (p : State × β) : CoreRead p.1 (l.foldl step p).1 c := by
  induction l generalizing p with
  | nil => exact CoreRead.refl _ c
  | cons a l ih => exact (h p a).trans (ih (step p a))

end Sys2Proof.Machine
end

section
/-!
SUPPORT. What the Press's queued commands change as they begin (R110, Table 4.3), and the issue of Press commands (O15).
-/

namespace Sys2Proof.Machine

/-! ### Commands that begin -/

/-- Of `s`, `t` changes what Press commands that begin change, at most: what they read, their own records and scoreboard entries, the
Press's flags, and where a drain clears them its accumulator entries. -/
structure PressStep (s t : State) (c : Nat) : Prop where
  rest : Logged { s with cores := t.cores, marks := t.marks, rowErrs := t.rowErrs } t
  core : t.core c = { s.core c with
    spd := { (s.core c).spd with eccCe := (t.core c).spd.eccCe, eccUe := (t.core c).spd.eccUe, info := (t.core c).spd.info }
    cnt := (t.core c).cnt
    sb := (t.core c).sb
    flights := (t.core c).flights
    prs := { (s.core c).prs with flags := (t.core c).prs.flags, acc := (t.core c).prs.acc } }
  others : ∀ k, k ≠ c → t.core k = s.core k
  sb : ∀ e ∈ (t.core c).sb, e ∈ (s.core c).sb
  same : (t.core c).flights.map (fun f => (f.id, f.iss, f.body)) = (s.core c).flights.map (fun f => (f.id, f.iss, f.body))
  begun : ∀ i, (∀ h ∈ (s.core c).flights, h.id = i → h.begun = true) →
    (t.core c).flights.filter (fun f => f.id == i) = (s.core c).flights.filter (fun f => f.id == i)
  waiting : ∀ g ∈ (t.core c).flights, g.begun = false → g ∈ (s.core c).flights
  acc : (∀ g e, g ∈ engFlights (s.core c) 0 → pressOf g = some (.pdrain e) → e.clr = false ∨ g.begun = true) →
    (t.core c).prs.acc = (s.core c).prs.acc

theorem mem_engFlights {k : Core} {e : Nat} {f : Flight} : f ∈ engFlights k e ↔ f ∈ k.flights ∧ engOf f.body = e := by
  simp [engFlights]

theorem CoreRead.pressStep {s t : State} {c : Nat} (h : CoreRead s t c) : PressStep s t c := by
  refine ⟨h.rest, ?_, h.others, fun e he => ?_, ?_, fun i _ => ?_, fun g hg _ => ?_, fun _ => ?_⟩
  · rw [h.core]
  · rwa [h.sb] at he
  · rw [h.flights]
  · rw [h.flights]
  · rwa [h.flights] at hg
  · rw [h.prs]

theorem PressStep.refl (s : State) (c : Nat) : PressStep s s c := (CoreRead.refl s c).pressStep

theorem PressStep.trans {s t u : State} {c : Nat} (h : PressStep s t c) (k : PressStep t u c) : PressStep s u c := by
  refine ⟨?_, ?_, fun j hj => (k.others j hj).trans (h.others j hj), fun e he => h.sb e (k.sb e he), k.same.trans h.same,
    fun i hi => ?_, fun g hg hb => h.waiting g (k.waiting g hg hb) hb, fun hclr => ?_⟩
  · have h1 := h.rest
    have k1 := k.rest
    rw [Logged] at h1 k1 ⊢
    rw [k1, h1]
  · have e := k.core
    rw [h.core] at e
    exact e
  · have ht := h.begun i hi
    refine (k.begun i fun g hg hid => ?_).trans ht
    have hmem : g ∈ (t.core c).flights.filter (fun f => f.id == i) := List.mem_filter.2 ⟨hg, by simp [hid]⟩
    rw [ht] at hmem
    exact hi g (List.mem_filter.1 hmem).1 hid
  · refine (k.acc fun g e hg hp => ?_).trans (h.acc hclr)
    cases hb : g.begun
    · obtain ⟨hmem, heng⟩ := mem_engFlights.1 hg
      have := hclr g e (mem_engFlights.2 ⟨h.waiting g hmem hb, heng⟩) hp
      simpa [hb] using this
    · exact Or.inr rfl

section
variable {s t : State} {c : Nat} (h : PressStep s t c)
include h

theorem PressStep.mem : t.mem = s.mem := by rw [h.rest]
theorem PressStep.ctl : (t.core c).ctl = (s.core c).ctl := by rw [h.core]
theorem PressStep.nextId : (t.core c).nextId = (s.core c).nextId := by rw [h.core]
theorem PressStep.rg (r : Reg) : rg t c r = rg s c r := by rw [Machine.rg, h.ctl, Machine.rg]
theorem PressStep.spKey (off : Nat) : spKey t c off = spKey s c off := by rw [Machine.spKey, Machine.spKey, h.core]
theorem PressStep.spByte (off : Nat) : spByte t c off = spByte s c off := by rw [Machine.spByte, Machine.spByte, h.spKey, h.mem]
theorem PressStep.spBytes (off n : Nat) : spBytes t c off n = spBytes s c off n := by simp only [Machine.spBytes, h.spByte]

/-- Every command in flight afterwards was one before. -/
theorem PressStep.exists_same {g : Flight} (hg : g ∈ (t.core c).flights) :
    ∃ f ∈ (s.core c).flights, f.id = g.id ∧ f.iss = g.iss ∧ f.body = g.body := by
  have hmem : (g.id, g.iss, g.body) ∈ (t.core c).flights.map (fun f => (f.id, f.iss, f.body)) := List.mem_map_of_mem hg
  rw [h.same] at hmem
  obtain ⟨f, hf, he⟩ := List.mem_map.1 hmem
  simp only [Prod.mk.injEq] at he
  exact ⟨f, hf, he⟩

/-- A begun command stays as it is, where no waiting one has its number. -/
theorem PressStep.keeps {g : Flight} (hg : g ∈ (s.core c).flights) (hb : ∀ f ∈ (s.core c).flights, f.id = g.id → f.begun = true) :
    g ∈ (t.core c).flights := by
  have hmem : g ∈ (s.core c).flights.filter (fun f => f.id == g.id) := List.mem_filter.2 ⟨hg, by simp⟩
  rw [← h.begun g.id hb] at hmem
  exact (List.mem_filter.1 hmem).1

theorem PressStep.leaves {r : State} {f : Flight} (k : Leaves r s c f) : Leaves r t c f := by
  obtain ⟨hfl, hsb, htag⟩ := k
  refine ⟨fun g hg => ?_, fun e he => hsb e (h.sb e he), by rw [h.ctl, htag]⟩
  obtain ⟨f', hf', hid, -⟩ := h.exists_same hg
  rw [← hid]
  exact hfl f' hf'

end

/-! ### One command begins -/

/-- What beginning does to the record of the command of number `i`. -/
structure Begins (i : Nat) (upd : Flight → Flight) : Prop where
  same : ∀ f, (upd f).id = f.id ∧ (upd f).iss = f.iss ∧ (upd f).body = f.body
  begun : ∀ f, (upd f).begun = true

section
variable {f : Flight} {upd : Flight → Flight} (h : Begins f.id upd) (fs : List Flight)
include h

theorem Begins.map_same : (fs.map (fun g => if g.id == f.id then upd g else g)).map (fun f => (f.id, f.iss, f.body)) =
    fs.map (fun f => (f.id, f.iss, f.body)) := by
  rw [List.map_map]
  refine List.map_congr_left fun g _ => ?_
  obtain ⟨h1, h2, h3⟩ := h.same g
  simp only [Function.comp]
  split
  · rw [h1, h2, h3]
  · rfl

theorem Begins.filter_begun (hf : f ∈ fs) (hb : f.begun = false) (i : Nat) (hi : ∀ g ∈ fs, g.id = i → g.begun = true) :
    (fs.map (fun g => if g.id == f.id then upd g else g)).filter (fun g => g.id == i) = fs.filter (fun g => g.id == i) := by
  have hne : f.id ≠ i := fun he => by simp [hi f hf he] at hb
  rw [List.filter_map]
  have hpred : ((fun g => g.id == i) ∘ fun g => if g.id == f.id then upd g else g) = fun g : Flight => g.id == i := by
    funext g
    simp only [Function.comp]
    split
    · rw [(h.same g).1]
    · rfl
  rw [hpred]
  refine (List.map_congr_left fun g hg => ?_).trans (List.map_id _)
  have hid : g.id = i := by simpa using (List.mem_filter.1 hg).2
  rw [if_neg (by simp [hid, Ne.symm hne])]
  rfl

theorem Begins.mem_waiting {g : Flight} (hg : g ∈ fs.map (fun g => if g.id == f.id then upd g else g)) (hb : g.begun = false) :
    g ∈ fs := by
  obtain ⟨x, hx, he⟩ := List.mem_map.1 hg
  split at he
  · rw [← he, h.begun] at hb
    exact absurd hb (by decide)
  · exact he ▸ hx

end

/-- The records and scoreboard entries of a command that begins. -/
theorem pressStep_begins {s : State} {c : Nat} {f : Flight} {upd : Flight → Flight} (h : Begins f.id upd)
    (hf : f ∈ (s.core c).flights) (hb : f.begun = false) (g : Core → Core)
    (hg : ∀ k, g k = { k with flights := k.flights.map (fun x => if x.id == f.id then upd x else x), sb := (g k).sb })
    (hsb : ∀ k, ∀ e ∈ (g k).sb, e ∈ k.sb) : PressStep s (modCore s c g) c := by
  have hfl : ((modCore s c g).core c).flights = (s.core c).flights.map (fun x => if x.id == f.id then upd x else x) := by
    rw [core_modCore, hg]
  refine ⟨rfl, ?_, fun k hk => core_modCore_ne _ _ hk, fun e he => ?_, ?_, fun i hi => ?_, fun x hx hxb => ?_, fun _ => ?_⟩
  · rw [core_modCore, hg]
  · rw [core_modCore] at he
    exact hsb _ e he
  · rw [hfl, h.map_same]
  · rw [hfl, h.filter_begun _ hf hb i hi]
  · rw [hfl] at hx
    exact h.mem_waiting _ hx hxb
  · rw [core_modCore, hg]

theorem mem_sbReleaseReads {k : Core} {i : Nat} {e : SbEntry} (h : e ∈ (sbReleaseReads k i).sb) : e ∈ k.sb :=
  (List.mem_filter.1 h).1

theorem pressStep_begun {s : State} {c : Nat} {f : Flight} {upd : Flight → Flight} (h : Begins f.id upd)
    (hf : f ∈ (s.core c).flights) (hb : f.begun = false) :
    PressStep s (modCore s c (fun k => sbReleaseReads (modFlight k f.id upd) f.id)) c :=
  pressStep_begins h hf hb _ (fun _ => rfl) fun k _ he => mem_sbReleaseReads (k := modFlight k f.id upd) he

theorem counted_countConds (s : State) (c base : Nat) (fl : BitVec 4) (w : Sample) : Counted s (countConds s c base fl w) c := by
  rw [countConds]
  generalize List.range 4 = l
  induction l generalizing s with
  | nil => exact Counted.refl s c
  | cons i l ih =>
    rw [List.foldl_cons]
    split
    · exact (counted_count s c _ 1).trans (ih _)
    · exact ih s

theorem coreRead_movingRow (s : State) (c : Nat) (g : Geo) (rb off : Nat) : CoreRead s (movingRow s c g rb off).1 c :=
  (coreRead_spRead s c off _ 1).trans (coreRead_spRead _ c _ _ 2)

theorem coreRead_movingScales (s : State) (c : Nat) (g : Geo) (d : PstreamDesc) : CoreRead s (movingScales s c g d).1 c := by
  rw [movingScales]
  split
  · refine coreRead_foldl (β := Map Bytes × Option (Nat × Nat)) _ (fun p rb => ?_) (bandsOf g d.submask) (s, [], none)
    exact coreRead_spRead p.1 c _ _ 1
  · exact CoreRead.refl s c

/-- R108: the rows of a stream are read. -/
theorem coreRead_streamPass (s : State) (c tag : Nat) (d : PstreamDesc) : CoreRead s (streamPass s c tag d).1 c := by
  refine (coreRead_movingScales s c (geo (s.core c).prs.conf) d).trans ?_
  refine coreRead_foldl (β := PassOut) _ (fun p w => ?_) _ (_, _)
  exact coreRead_movingRow p.1 c _ w.2 _

/-- R116: the scale vectors of a drain are read. -/
theorem coreRead_drainPass (s : State) (c : Nat) (d : PdrainDesc) : CoreRead s (drainPass s c d).1 c := by
  rw [drainPass]
  cases d.etype
  · exact CoreRead.refl s c
  · exact (coreRead_spRead s c _ _ 3).trans (coreRead_spRead _ c _ _ 3)

/-- Flags of the Press, and accumulator entries that a drain clears. -/
theorem pressStep_modPrs (s : State) (c : Nat) (g : Press → Press) (h : ∀ p, g p = { p with flags := (g p).flags, acc := (g p).acc })
    (hacc : (∀ f e, f ∈ engFlights (s.core c) 0 → pressOf f = some (.pdrain e) → e.clr = false ∨ f.begun = true) →
      (g (s.core c).prs).acc = (s.core c).prs.acc) : PressStep s (modPrs s c g) c := by
  refine ⟨rfl, ?_, fun k hk => core_modPrs_ne _ _ hk, fun e he => ?_, ?_, fun i _ => ?_, fun x hx _ => ?_, fun hclr => ?_⟩
  · rw [core_modPrs]
    dsimp only
    rw [← h]
  · simpa using he
  · simp
  · simp
  · simpa using hx
  · rw [core_modPrs]
    exact hacc hclr

theorem drainClear_eq (p : Press) (d : PdrainDesc) : drainClear p d = { p with acc := (drainClear p d).acc } := by
  rw [drainClear]
  split <;> rfl

/-- R110: a command that begins. -/
theorem pressStep_pressBegin {s : State} {c : Nat} {f : Flight} (hf : f ∈ engFlights (s.core c) 0) (hb : f.begun = false) :
    PressStep s (pressBegin s c f) c := by
  obtain ⟨hmem, -⟩ := mem_engFlights.1 hf
  rw [pressBegin]
  split
  · next d _ =>
    have hread := coreRead_streamPass s c f.iss.tag.val d
    generalize streamPass s c f.iss.tag.val d = x at hread ⊢
    obtain ⟨u, o⟩ := x
    have hmem' : f ∈ (u.core c).flights := by rwa [hread.flights]
    refine PressStep.trans ?_
      (((counted_count _ c _ _).trans (counted_count _ c _ _)).trans (counted_countConds _ c _ _ _)).coreRead.pressStep
    refine PressStep.trans ?_ (pressStep_begun ⟨fun _ => ⟨rfl, rfl, rfl⟩, fun _ => rfl⟩ (by simpa using hmem') hb)
    exact hread.pressStep.trans (pressStep_modPrs _ c _ (fun _ => rfl) fun _ => rfl)
  · next d hd =>
    have hread := coreRead_drainPass s c d
    generalize drainPass s c d = x at hread ⊢
    obtain ⟨u, ws, am, fl, bad⟩ := x
    have hmem' : f ∈ (u.core c).flights := by rwa [hread.flights]
    refine PressStep.trans ?_ ((counted_count _ c _ _).trans (counted_countConds _ c _ _ _)).coreRead.pressStep
    refine PressStep.trans ?_ (pressStep_begun ⟨fun _ => ⟨rfl, rfl, rfl⟩, fun _ => rfl⟩ (by simpa using hmem') hb)
    refine hread.pressStep.trans (pressStep_modPrs _ c _ (fun p => ?_) fun hclr => ?_)
    · rw [drainClear_eq]
    · have hno := hclr f d (by rw [engFlights, hread.flights]; exact hf) hd
      rw [drainClear, if_neg (by simpa [hb] using hno)]
  · exact pressStep_begins (f := f) (upd := fun f => { f with begun := true }) ⟨fun _ => ⟨rfl, rfl, rfl⟩, fun _ => rfl⟩ hmem hb _
      (fun _ => rfl) fun _ _ he => he

/-! ### Which commands begin -/

theorem nextBegin_some {p : Press} {f : Flight} {fs before : List Flight} (h : nextBegin p before fs = some f) :
    f ∈ fs ∧ f.begun = false := by
  induction fs generalizing before with
  | nil => simp [nextBegin] at h
  | cons g fs ih =>
    rw [nextBegin] at h
    split at h
    · next hg =>
      cases h
      simp only [Bool.and_eq_true, Bool.not_eq_true'] at hg
      exact ⟨List.mem_cons_self .., hg.1.1.1⟩
    · obtain ⟨hmem, hb⟩ := ih h
      exact ⟨List.mem_cons_of_mem _ hmem, hb⟩

/-- A command behind others of which none may begin. -/
theorem nextBegin_append {p : Press} {f : Flight} {fs : List Flight} (before : List Flight) (h : nextBegin p before fs = none) :
    nextBegin p before (fs ++ [f]) =
      if !f.begun && !isSwap f && !isConf f && mayBegin p (before ++ fs) f then some f else none := by
  induction fs generalizing before with
  | nil =>
    rw [List.nil_append, nextBegin, List.append_nil]
    rfl
  | cons g fs ih =>
    rw [nextBegin] at h
    split at h
    · cases h
    · next hg =>
      rw [List.cons_append, nextBegin, if_neg hg, ih _ h, List.append_assoc]
      rfl

theorem pressStep_pressAdvance (fuel : Nat) (s : State) (c : Nat) : PressStep s (pressAdvance fuel s c) c := by
  induction fuel generalizing s with
  | zero => exact PressStep.refl s c
  | succ fuel ih =>
    rw [pressAdvance]
    split
    · next f hf =>
      obtain ⟨hmem, hb⟩ := nextBegin_some hf
      exact (pressStep_pressBegin hmem hb).trans (ih _)
    · exact PressStep.refl s c

/-- R122: a stream that waits may ask for a ramp; nothing else changes. -/
theorem wantRamp_frame (s : State) (c : Nat) : OnlyCore s (wantRamp s c) c ∧
    (wantRamp s c).core c = { s.core c with prs := { (s.core c).prs with want := ((wantRamp s c).core c).prs.want } } := by
  rw [wantRamp]
  split
  · refine ⟨onlyCore_modCore _ _ _, ?_⟩
    rw [core_modPrs]
    dsimp only
    split <;> rfl
  · exact ⟨OnlyCore.refl s c, rfl⟩

end Sys2Proof.Machine
end

section
/-!
SUPPORT. The Press's commands: their issue (O15), and PCONF, PSWAP and PLOAD (O16, R111 to R113).
-/

namespace Sys2Proof.Machine

theorem OnlyCore.mem {s t : State} {c : Nat} (h : OnlyCore s t c) : t.mem = s.mem := by rw [← h.1]

/-! ### The commands behind one that has ended -/

/-- What the Press may do after a command has been queued or has ended: ask for a ramp, and begin commands. -/
theorem pressNext_step (s : State) (c : Nat) : PressStep (wantRamp s c) (pressNext s c) c := pressStep_pressAdvance 8 _ c

section
variable (s : State) (c : Nat)

theorem wantRamp_mem : (wantRamp s c).mem = s.mem := (wantRamp_frame s c).1.mem

theorem pressNext_mem : (pressNext s c).mem = s.mem := (pressNext_step s c).mem.trans (wantRamp_mem s c)

theorem pressNext_others {k : Nat} (h : k ≠ c) : (pressNext s c).core k = s.core k :=
  ((pressNext_step s c).others k h).trans ((wantRamp_frame s c).1.2 k h)

theorem wantRamp_ctl : ((wantRamp s c).core c).ctl = (s.core c).ctl := by rw [(wantRamp_frame s c).2]

theorem wantRamp_flights : ((wantRamp s c).core c).flights = (s.core c).flights := by rw [(wantRamp_frame s c).2]

theorem wantRamp_engFlights (e : Nat) : engFlights ((wantRamp s c).core c) e = engFlights (s.core c) e := by
  rw [engFlights, wantRamp_flights, ← engFlights]

theorem wantRamp_sb : ((wantRamp s c).core c).sb = (s.core c).sb := by rw [(wantRamp_frame s c).2]

theorem wantRamp_spd : ((wantRamp s c).core c).spd = (s.core c).spd := by rw [(wantRamp_frame s c).2]

theorem wantRamp_prs : ((wantRamp s c).core c).prs = { (s.core c).prs with want := ((wantRamp s c).core c).prs.want } := by
  conv_lhs => rw [(wantRamp_frame s c).2]

theorem pressNext_ctl : ((pressNext s c).core c).ctl = (s.core c).ctl := (pressNext_step s c).ctl.trans (wantRamp_ctl s c)

theorem pressNext_rg (r : Reg) : rg (pressNext s c) c r = rg s c r := by rw [rg, pressNext_ctl, ← rg]

theorem pressNext_spKey (off : Nat) : spKey (pressNext s c) c off = spKey s c off := by
  rw [(pressNext_step s c).spKey, spKey_congr (wantRamp_spd s c)]

theorem pressNext_spBytes (off n : Nat) : spBytes (pressNext s c) c off n = spBytes s c off n := by
  rw [(pressNext_step s c).spBytes, spBytes_congr (wantRamp_spd s c) (wantRamp_mem s c)]

/-- Of the Press, its flags, its request for a ramp and what drains clear may differ. -/
theorem pressNext_prs : ((pressNext s c).core c).prs = { (s.core c).prs with
    flags := ((pressNext s c).core c).prs.flags
    acc := ((pressNext s c).core c).prs.acc
    want := ((wantRamp s c).core c).prs.want } := by
  conv_lhs => rw [(pressNext_step s c).core]
  rw [wantRamp_prs]

theorem pressNext_acc (h : ∀ g e, g ∈ engFlights (s.core c) 0 → pressOf g = some (.pdrain e) → e.clr = false ∨ g.begun = true) :
    ((pressNext s c).core c).prs.acc = (s.core c).prs.acc := by
  rw [(pressNext_step s c).acc fun g e hg => h g e (by rwa [wantRamp_engFlights] at hg), wantRamp_prs]

theorem pressNext_leaves {r : State} {f : Flight} (h : Leaves r s c f) : Leaves r (pressNext s c) c f := by
  refine (pressNext_step s c).leaves ?_
  rw [Leaves, wantRamp_flights, wantRamp_sb, wantRamp_ctl]
  exact h

end

/-! ### A Press command is issued -/

theorem mayBegin_congr {p q : Press} (h : p.pstate = q.pstate) (before : List Flight) (f : Flight) :
    mayBegin p before f = mayBegin q before f := by
  rw [mayBegin, mayBegin, h]

theorem nextBegin_congr {p q : Press} (h : p.pstate = q.pstate) (before fs : List Flight) :
    nextBegin p before fs = nextBegin q before fs := by
  induction fs generalizing before with
  | nil => rfl
  | cons f fs ih => rw [nextBegin, nextBegin, mayBegin_congr h, ih]

/-- What beginning leaves in the record of its command, by its kind: the results that a stream has formed, or the bytes that a drain
will write; and what a drain leaves in the accumulator buffer. -/
theorem pressBegin_record (s : State) (c : Nat) (f : Flight) : ∃ upd, Begins f.id upd ∧
    ((pressBegin s c f).core c).flights = (s.core c).flights.map (fun g => if g.id == f.id then upd g else g) ∧
    (∀ d, pressOf f = some (.pstream d) → ∀ g, (upd g).accs = (streamPass s c f.iss.tag.val d).2.accs) ∧
    (∀ d, pressOf f = some (.pdrain d) → (∀ g, (upd g).writes = (drainPass s c d).2.1) ∧
      ((pressBegin s c f).core c).prs.acc = (drainClear (s.core c).prs d).acc) := by
  rw [pressBegin]
  split
  · next d hd =>
    have hread := coreRead_streamPass s c f.iss.tag.val d
    rw [hd]
    generalize hx : streamPass s c f.iss.tag.val d = x at hread ⊢
    obtain ⟨u, o⟩ := x
    refine ⟨?updStream, ?begins, ?flights, fun e he g => ?accs, fun e he => by cases he⟩
    case flights =>
      rw [(((counted_count _ c _ _).trans (counted_count _ c _ _)).trans (counted_countConds _ c _ _ _)).flights, core_modCore]
      simp only [sbReleaseReads, modFlight, core_modPrs, hread.flights]
      rfl
    case begins => exact ⟨fun _ => ⟨rfl, rfl, rfl⟩, fun _ => rfl⟩
    case accs =>
      cases he
      rw [hx]
  · next d hd =>
    have hread := coreRead_drainPass s c d
    rw [hd]
    generalize hx : drainPass s c d = x at hread ⊢
    obtain ⟨u, ws, am, fl, bad⟩ := x
    refine ⟨?updDrain, ?begins, ?flights, fun e he => (by cases he), fun e he => ⟨fun g => ?writes, ?acc⟩⟩
    case flights =>
      rw [((counted_count _ c _ _).trans (counted_countConds _ c _ _ _)).flights, core_modCore]
      simp only [sbReleaseReads, modFlight, core_modPrs, hread.flights]
      rfl
    case begins => exact ⟨fun _ => ⟨rfl, rfl, rfl⟩, fun _ => rfl⟩
    case writes =>
      cases he
      rw [hx]
    case acc =>
      cases he
      rw [((counted_count _ c _ _).trans (counted_countConds _ c _ _ _)).prs, core_modCore]
      simp only [sbReleaseReads, modFlight, core_modPrs, hread.prs]
      rw [drainClear, drainClear]
      split <;> rfl
  · next h1 h2 =>
    refine ⟨?updLoad, ?begins, ?flights, fun d hd => absurd hd (h1 d), fun d hd => absurd hd (h2 d)⟩
    case flights =>
      rw [core_modCore]
      rfl
    case begins => exact ⟨fun _ => ⟨rfl, rfl, rfl⟩, fun _ => rfl⟩

/-- A queued command that may begin, behind others of which none may, begins, and keeps its record. -/
theorem pressNext_begins_last {s : State} {c : Nat} {f : Flight} {fs : List Flight} (hfl : engFlights (s.core c) 0 = fs ++ [f])
    (hset : nextBegin (s.core c).prs [] fs = none) (hb : f.begun = false)
    (hmay : (!isSwap f && !isConf f && mayBegin (s.core c).prs fs f) = true) :
    ∃ upd, Begins f.id upd ∧ upd f ∈ ((pressNext s c).core c).flights ∧
      (∀ d, pressOf f = some (.pstream d) → (upd f).accs = (streamPass (wantRamp s c) c f.iss.tag.val d).2.accs) ∧
      (∀ d, pressOf f = some (.pdrain d) → (upd f).writes = (drainPass (wantRamp s c) c d).2.1 ∧
        ((∀ g ∈ fs, isDrain g = false) →
          ((pressNext s c).core c).prs.acc = (drainClear ((wantRamp s c).core c).prs d).acc)) := by
  have hpst : ((wantRamp s c).core c).prs.pstate = (s.core c).prs.pstate := by rw [wantRamp_prs]
  have hnext : nextBegin ((wantRamp s c).core c).prs [] (engFlights ((wantRamp s c).core c) 0) = some f := by
    rw [wantRamp_engFlights, hfl, nextBegin_congr hpst, nextBegin_append [] hset, hb, List.nil_append, Bool.not_false, Bool.true_and,
      if_pos hmay]
  have he : pressNext s c = pressAdvance 7 (pressBegin (wantRamp s c) c f) c := by
    rw [pressNext, pressAdvance, hnext]
  obtain ⟨upd, hupd, hrec, hstream, hdrain⟩ := pressBegin_record (wantRamp s c) c f
  have hstep := pressStep_pressAdvance 7 (pressBegin (wantRamp s c) c f) c
  have hf : f ∈ ((wantRamp s c).core c).flights := by
    rw [wantRamp_flights]
    have : f ∈ engFlights (s.core c) 0 := by simp [hfl]
    exact (mem_engFlights.1 this).1
  have hmem : upd f ∈ ((pressBegin (wantRamp s c) c f).core c).flights := by
    rw [hrec]
    exact List.mem_map.2 ⟨f, hf, by simp⟩
  refine ⟨upd, hupd, ?_, fun d hd => hstream d hd f, fun d hd => ⟨(hdrain d hd).1 f, fun hno => ?_⟩⟩
  · rw [he]
    refine hstep.keeps hmem fun g hg hid => ?_
    rw [hrec] at hg
    obtain ⟨x, -, rfl⟩ := List.mem_map.1 hg
    by_cases hx : (x.id == f.id) = true
    · rw [if_pos hx]
      exact hupd.begun x
    · rw [if_neg hx, (hupd.same f).1] at hid
      exact absurd (by simp [hid]) hx
  · rw [he, hstep.acc, (hdrain d hd).2]
    intro g e hg hge
    obtain ⟨hgm, heng⟩ := mem_engFlights.1 hg
    rw [hrec] at hgm
    obtain ⟨x, hx, rfl⟩ := List.mem_map.1 hgm
    by_cases hne : (x.id == f.id) = true
    · rw [if_pos hne]
      exact Or.inr (hupd.begun x)
    · rw [if_neg hne] at hge heng
      have hx' : x ∈ engFlights (s.core c) 0 := by
        rw [← wantRamp_engFlights]
        exact mem_engFlights.2 ⟨hx, heng⟩
      rw [hfl, List.mem_append, List.mem_singleton] at hx'
      obtain hx' | rfl := hx'
      · have := hno x hx'
        rw [isDrain, hge] at this
        cases this
      · simp at hne

/-- A queued command that may not begin, behind others of which none may, waits. -/
theorem pressNext_waits_last {s : State} {c : Nat} {f : Flight} {fs : List Flight} (hfl : engFlights (s.core c) 0 = fs ++ [f])
    (hset : nextBegin (s.core c).prs [] fs = none) (hb : f.begun = false)
    (hmay : (!isSwap f && !isConf f && mayBegin (s.core c).prs fs f) = false) : pressNext s c = wantRamp s c := by
  have hpst : ((wantRamp s c).core c).prs.pstate = (s.core c).prs.pstate := by rw [wantRamp_prs]
  have hnext : nextBegin ((wantRamp s c).core c).prs [] (engFlights ((wantRamp s c).core c) 0) = none := by
    rw [wantRamp_engFlights, hfl, nextBegin_congr hpst, nextBegin_append [] hset, hb, List.nil_append, Bool.not_false, Bool.true_and,
      if_neg (by rw [hmay]; decide)]
  rw [pressNext, pressAdvance, hnext]

theorem exec_pressInstr (s : State) (c : Nat) (i : Issue) (p : PressCmd) :
    exec (pressInstr c i p) s = .next (engRow s c i (.press p)) := by
  cases p <;> rfl

theorem Handed.engFlights {s u : State} {c : Nat} {x : XCmd} (h : Handed s u c x) :
    engFlights (u.core c) (engOf x.body) =
      engFlights (s.core c) (engOf x.body) ++ [newFlight (s.core c).nextId ((s.core c).ctl.pc.toNat % 2 ^ 21) x] := by
  obtain ⟨-, hfl, -⟩ := h.queued
  rw [Machine.engFlights, Machine.engFlights, hfl, List.filter_append]
  congr 1
  simp [newFlight]

theorem Handed.prs {s u : State} {c : Nat} {x : XCmd} (h : Handed s u c x) : (u.core c).prs = (s.core c).prs := by
  rw [h.core]
  rfl

/-- A state that the Press has brought forward has issued the same command. -/
theorem issued_pressNext {s u : State} {c : Nat} {x : XCmd} (h : Issued s u c x) : Issued s (pressNext u c) c x := by
  obtain ⟨hid, htag, hrg, hgo⟩ := h
  have hid' : ((pressNext u c).core c).nextId = (u.core c).nextId := by
    rw [(pressNext_step u c).nextId, (wantRamp_frame u c).2]
  refine ⟨hid'.trans hid, ?_, fun r => (pressNext_rg u c r).trans (hrg r), ?_⟩
  · rw [pressNext_ctl, htag]
  · rw [GoesTo, pressNext_ctl]
    exact hgo

/-- R122: a stream that waits for an IDLE or FALLING Press has asked for a ramp. -/
theorem wantRamp_asks {s : State} {c : Nat} {f : Flight} (hf : f ∈ engFlights (s.core c) 0) (hs : isStream f = true)
    (hb : f.begun = false) (hp : (s.core c).prs.pstate = .idle ∨ (s.core c).prs.pstate = .falling) :
    ((wantRamp s c).core c).prs.want = true := by
  have hany : (Machine.engFlights (s.core c) 0).any (fun f => isStream f && !f.begun) = true :=
    List.any_eq_true.2 ⟨f, hf, by simp [hs, hb]⟩
  rw [wantRamp, if_pos hany, core_modPrs]
  dsimp only
  rw [if_pos (by simpa using hp)]

theorem pressNext_want (s : State) (c : Nat) : ((pressNext s c).core c).prs.want = ((wantRamp s c).core c).prs.want := by
  rw [pressNext_prs]

/-- Settles O15: the Press shares the issue of every engine; of its queue, what is queued last may begin alone. -/
theorem pressCommandsQueue : Obligations.PressCommandsQueue := by
  unfold Obligations.PressCommandsQueue
  intro s c i p x hr hx
  subst hx
  refine ⟨fun hi hset => ?_, engRow_refusedOrHeld hr (exec_pressInstr s c i p)⟩
  obtain ⟨t, he, ht⟩ := engRow_issuable (P := fun t => ∃ u, Handed s u c ⟨i, .press p⟩ ∧ t = pressNext u c) hr hi
    fun u hu => ⟨u, hu, rfl⟩
  obtain ⟨u, hu, rfl⟩ := ht
  refine ⟨_, _, (exec_pressInstr s c i p).trans he, issued_pressNext hu.issued, (pressNext_mem u c).trans hu.mem, rfl,
    fun k hk => (pressNext_others u c hk).trans (hu.only.2 k hk), ?_, ?_, ?_, ?_, ?_, fun hs hidle => ?_⟩
  · have hset' : nextBegin (u.core c).prs [] (engFlights (s.core c) 0) = none := by rw [hu.prs]; exact hset
    rw [← hu.prs]
    cases hmay : !isSwap (newFlight (s.core c).nextId ((s.core c).ctl.pc.toNat % 2 ^ 21) ⟨i, .press p⟩) &&
        !isConf (newFlight (s.core c).nextId ((s.core c).ctl.pc.toNat % 2 ^ 21) ⟨i, .press p⟩) &&
        mayBegin (u.core c).prs (engFlights (s.core c) 0) (newFlight (s.core c).nextId ((s.core c).ctl.pc.toNat % 2 ^ 21) ⟨i, .press p⟩)
    · rw [pressNext_waits_last hu.engFlights hset' rfl hmay, wantRamp_flights, hu.queued.2.1]
      exact ⟨_, List.mem_append_right _ (List.mem_singleton_self _), rfl, rfl, rfl, rfl⟩
    · obtain ⟨upd, hupd, hmem, -⟩ := pressNext_begins_last hu.engFlights hset' rfl hmay
      obtain ⟨h1, h2, h3⟩ := hupd.same (newFlight (s.core c).nextId ((s.core c).ctl.pc.toNat % 2 ^ 21) ⟨i, .press p⟩)
      exact ⟨_, hmem, h1, h2, h3, hupd.begun _⟩
  · rw [pressNext_prs, hu.prs]
  · rw [pressNext_prs, hu.prs]
  · rw [pressNext_prs, hu.prs]
  · rw [pressNext_prs, hu.prs]
  · rw [pressNext_want]
    refine wantRamp_asks ?_ hs rfl (by rw [hu.prs]; exact hidle)
    have := hu.engFlights
    simp only [engOf] at this
    rw [this]
    exact List.mem_append_right _ (List.mem_singleton_self _)

end Sys2Proof.Machine
end

section
/-!
SUPPORT. PCONF, PSWAP and PLOAD take effect and complete (O16, R111 to R113).
-/

namespace Sys2Proof.Machine

/-! ### Sparse data written key by key -/

theorem mfind_foldl_mset_notin {α : Type} {l : List (Nat × α)} {k : Nat} (h : k ∉ l.map (·.1)) (m : Map α) :
    mfind (l.foldl (fun m x => mset m x.1 x.2) m) k = mfind m k := by
  induction l generalizing m with
  | nil => rfl
  | cons x l ih =>
    rw [List.map_cons, List.mem_cons, not_or] at h
    rw [List.foldl_cons, ih h.2, mfind_mset_ne _ _ h.1]

theorem mfind_foldl_mset {α : Type} {l : List (Nat × α)} {k : Nat} {v : α} (hn : (l.map (·.1)).Nodup) (h : (k, v) ∈ l) (m : Map α) :
    mfind (l.foldl (fun m x => mset m x.1 x.2) m) k = some v := by
  induction l generalizing m with
  | nil => cases h
  | cons x l ih =>
    rw [List.map_cons, List.nodup_cons] at hn
    rw [List.foldl_cons]
    obtain rfl | h := List.mem_cons.1 h
    · rw [mfind_foldl_mset_notin hn.1, mfind_mset]
    · exact ih hn.2 h _

theorem mget_eq_mfind {α : Type} (d : α) (m : Map α) (k : Nat) : mget d m k = (mfind m k).getD d := by
  induction m with
  | nil => rfl
  | cons p m ih =>
    obtain ⟨j, v⟩ := p
    rw [mget, mfind]
    split
    · rfl
    · exact ih

/-- The keys of sparse data rise. -/
def Rises {α : Type} (m : Map α) : Prop := (m.map (·.1)).Pairwise (· < ·)

theorem mem_keys_mset {α : Type} {m : Map α} {k j : Nat} {v : α} (h : j ∈ (mset m k v).map (·.1)) : j = k ∨ j ∈ m.map (·.1) := by
  induction m with
  | nil => simpa [mset] using h
  | cons p m ih =>
    obtain ⟨i, x⟩ := p
    rw [mset] at h
    split at h
    · simpa using h
    · split at h
      · next hk => simpa [hk] using h
      · rw [List.map_cons, List.mem_cons] at h ⊢
        obtain h | h := h
        · exact Or.inr (Or.inl h)
        · exact (ih h).imp id Or.inr

theorem rises_mset {α : Type} {m : Map α} (h : Rises m) (k : Nat) (v : α) : Rises (mset m k v) := by
  induction m with
  | nil => simp [Rises, mset]
  | cons p m ih =>
    obtain ⟨i, x⟩ := p
    obtain ⟨hlt, htl⟩ := List.pairwise_cons.1 h
    rw [mset]
    split
    · next hk =>
      refine List.pairwise_cons.2 ⟨fun j hj => ?_, h⟩
      obtain rfl | hj := List.mem_cons.1 hj
      · exact hk
      · exact hk.trans (hlt j hj)
    · split
      · next hk =>
        subst hk
        exact List.pairwise_cons.2 ⟨hlt, htl⟩
      · refine List.pairwise_cons.2 ⟨fun j hj => ?_, ih htl⟩
        obtain rfl | hj := mem_keys_mset hj
        · show i < j
          omega
        · exact hlt j hj

theorem Rises.nodup {α : Type} {m : Map α} (h : Rises m) : (m.map (·.1)).Nodup := List.Pairwise.imp (fun hlt => hlt.ne) h

theorem mem_of_mfind {α : Type} {m : Map α} {k : Nat} {v : α} (h : mfind m k = some v) : (k, v) ∈ m := by
  induction m with
  | nil => cases h
  | cons p m ih =>
    obtain ⟨j, x⟩ := p
    rw [mfind] at h
    split at h
    · next hk =>
      cases h
      rw [hk]
      exact List.mem_cons_self ..
    · exact List.mem_cons_of_mem _ (ih h)

theorem rises_foldl_mset {α β : Type} (f : β → α) (key : β → Nat) (l : List β) {m : Map α} (h : Rises m) :
    Rises (l.foldl (fun m x => mset m (key x) (f x)) m) := by
  induction l generalizing m with
  | nil => exact h
  | cons x l ih => exact ih (rises_mset h _ _)

/-! ### The images of a load (R107) -/

/-- The image of the sub-tile that stands `i`-th in a load. -/
def subImage (s : State) (c : Nat) (g : Geo) (ten : Bool) (d : PloadDesc) (i : Nat) : SubTile :=
  let data := spBytes s c (d.data + i * g.dataBytes) g.dataBytes
  let scl := if g.scaled then spBytes s c (d.scl + i * g.sclBytes) g.sclBytes else []
  let esc := if g.een then spBytes s c (d.esca + i * g.escBytes) g.escBytes else []
  let sums := if ten then tallySums g data scl esc else ([], [])
  ⟨data, scl, esc, sums.1, sums.2⟩

/-- The ranges that the `i`-th sub-tile of a load is read from are sound. -/
def SoundImage (s : State) (c : Nat) (g : Geo) (d : PloadDesc) (i : Nat) : Prop :=
  Sound s c (d.data + i * g.dataBytes) g.dataBytes ∧ Sound s c (d.scl + i * g.sclBytes) g.sclBytes ∧
    Sound s c (d.esca + i * g.escBytes) g.escBytes

/-- R113: a load of sound words reads its images and nothing else. -/
theorem loadSubs_sound {s : State} {c : Nat} {g : Geo} {d : PloadDesc} (ten : Bool)
    (h : ∀ i < (subList d.submask).length, SoundImage s c g d i) :
    loadSubs s c g ten d = (s, (subList d.submask).zipIdx.foldl (fun m x => mset m x.1 (subImage s c g ten d x.2)) [], none) := by
  have hl : ∀ x ∈ (subList d.submask).zipIdx, SoundImage s c g d x.2 := fun x hx => h x.2 (by
    have := List.snd_lt_of_mem_zipIdx hx
    omega)
  rw [loadSubs]
  generalize (subList d.submask).zipIdx = l at hl
  generalize ([] : Map SubTile) = m
  induction l generalizing m with
  | nil => rfl
  | cons x l ih =>
    obtain ⟨hdata, hscl, hesc⟩ := hl x (List.mem_cons_self ..)
    rw [List.foldl_cons, List.foldl_cons, ← ih fun y hy => hl y (List.mem_cons_of_mem _ hy)]
    congr 1
    obtain ⟨sub, i⟩ := x
    simp only [spRead_sound 2 hdata]
    cases hs : g.scaled <;> cases he : g.een <;> cases ten <;>
      simp [spRead_sound 2 hscl, spRead_sound 2 hesc, subImage, hs, he]

theorem nodup_subList (m : BitVec 8) : (subList m).Nodup := (List.nodup_range).filter _

/-- The image of every sub-tile that a load names. -/
theorem mfind_images {s : State} {c : Nat} {g : Geo} {ten : Bool} {d : PloadDesc} {i sub : Nat} (h : (subList d.submask)[i]? = some sub) :
    mfind ((subList d.submask).zipIdx.foldl (fun m x => mset m x.1 (subImage s c g ten d x.2)) []) sub =
      some (subImage s c g ten d i) := by
  have hfold : ∀ (l : List (Nat × Nat)) (m : Map SubTile), l.foldl (fun m x => mset m x.1 (subImage s c g ten d x.2)) m =
      (l.map fun x => (x.1, subImage s c g ten d x.2)).foldl (fun m x => mset m x.1 x.2) m := fun l m => by
    rw [List.foldl_map]
  rw [hfold]
  refine mfind_foldl_mset ?_ ?_ _
  · rw [List.map_map]
    have : ((fun x : Nat × SubTile => x.1) ∘ fun x : Nat × Nat => (x.1, subImage s c g ten d x.2)) = Prod.fst := rfl
    rw [this, List.zipIdx_map_fst]
    exact nodup_subList _
  · exact List.mem_map.2 ⟨(sub, i), List.mem_zipIdx_iff_getElem?.2 h, rfl⟩

theorem keys_images {s : State} {c : Nat} {g : Geo} {ten : Bool} {d : PloadDesc} {sub : Nat}
    (h : sub ∈ ((subList d.submask).zipIdx.foldl (fun m x => mset m x.1 (subImage s c g ten d x.2)) []).map (·.1)) :
    sub ∈ subList d.submask := by
  have hkeys : ∀ (l : List (Nat × Nat)) (m : Map SubTile),
      sub ∈ (l.foldl (fun m x => mset m x.1 (subImage s c g ten d x.2)) m).map (·.1) → sub ∈ l.map Prod.fst ∨ sub ∈ m.map (·.1) := by
    intro l
    induction l with
    | nil => exact fun m hm => Or.inr hm
    | cons x l ih =>
      intro m hm
      obtain hm | hm := ih _ hm
      · exact Or.inl (by rw [List.map_cons]; exact List.mem_cons_of_mem _ hm)
      · obtain rfl | hm := mem_keys_mset hm
        · exact Or.inl (by rw [List.map_cons]; exact List.mem_cons_self ..)
        · exact Or.inr hm
  have := hkeys _ _ h
  rw [List.zipIdx_map_fst] at this
  simpa using this

/-! ### PCONF, PSWAP, PLOAD -/

/-- A Press command that completes, without an uncorrectable word behind it, before the commands behind it go on. -/
theorem complete_press {s : State} {c : Nat} {f : Flight} (h : f.memDetail = none) :
    (complete s c f false).mem = s.mem ∧ ((complete s c f false).core c).prs = (s.core c).prs ∧
      (∀ r, rg (complete s c f false) c r = rg s c r) ∧ ((complete s c f false).core c).spd = (s.core c).spd := by
  obtain ⟨blk, pc, tagErr, he⟩ := finishFlight_eq (s.core c) f false
  rw [complete_of_none s c false h]
  refine ⟨rfl, ?_, rg_finish s c f false, ?_⟩
  · rw [core_modCore, he]
  · rw [core_modCore, he]

/-- What the completion of a Press command leaves: `s` is the state as the command was issued, `u` that in which it completes. -/
theorem pressDone {s u : State} {c : Nat} {f : Flight} (h : f.memDetail = none) (htag : (u.core c).ctl.tagCnt = (s.core c).ctl.tagCnt)
    (hmem : u.mem = s.mem) (hrg : ∀ r, rg u c r = rg s c r) :
    Leaves s (pressNext (complete u c f false) c) c f ∧ (pressNext (complete u c f false) c).mem = s.mem ∧
      (∀ r, rg (pressNext (complete u c f false) c) c r = rg s c r) ∧
      ((pressNext (complete u c f false) c).core c).prs = { (u.core c).prs with
        flags := ((pressNext (complete u c f false) c).core c).prs.flags
        acc := ((pressNext (complete u c f false) c).core c).prs.acc
        want := ((pressNext (complete u c f false) c).core c).prs.want } := by
  obtain ⟨hm, hp, hr, -⟩ := complete_press (s := u) (c := c) h
  refine ⟨pressNext_leaves _ c ?_, (pressNext_mem _ c).trans (hm.trans hmem), fun r => (pressNext_rg _ c r).trans ((hr r).trans (hrg r)), ?_⟩
  · rw [complete_of_none u c false h]
    exact leaves_finish f false htag
  · rw [pressNext_want]
    conv_lhs => rw [pressNext_prs, hp]

/-- Settles O16: PCONF, PSWAP and PLOAD write the Press's registers, and complete. -/
theorem pressConfiguresSwapsAndLoads : Obligations.PressConfiguresSwapsAndLoads := by
  unfold Obligations.PressConfiguresSwapsAndLoads
  refine ⟨fun s c f fs d hfl hbody hdet => ?_, fun s c f before hfirst hdet => ⟨fun hmay => ?_, fun hmay => ?_⟩,
    fun s c f before d g hfirst hbody hdet hg hsound => ?_⟩
  · have he : exec (.pconfTakeEffect c) s = .next (pressNext (complete (modPrs s c (fun p => { p with conf := confOf d })) c f false) c) := by
      change execPconfTakeEffect c s = _
      simp only [execPconfTakeEffect, hfl, pressOf, hbody]
    obtain ⟨hleave, hmem, hrg, hprs⟩ := pressDone (s := s) (u := modPrs s c (fun p => { p with conf := confOf d })) (c := c) hdet
      (by simp) rfl (fun r => by simp [rg])
    refine ⟨_, he, ?_, hleave, ?_, ?_, hmem, hrg⟩
    · rw [hprs]
      simp
    · rw [hprs]
      simp
    · rw [hprs]
      simp
  · have he : exec (.pswapSwap c) s = .next (pressNext (complete
        (count (modPrs s c (fun p => { p with active := p.shadow, shadow := p.active })) c 0x13 1 (engSample f false 0 0)) c f false) c) := by
      change execPswapSwap c s = _
      simp only [execPswapSwap, hfirst, hmay, if_true]
    have hc := counted_count (modPrs s c (fun p => { p with active := p.shadow, shadow := p.active })) c 0x13 1
      (w := engSample f false 0 0)
    obtain ⟨hleave, hmem, hrg, hprs⟩ := pressDone (s := s) (u := count (modPrs s c (fun p =>
      { p with active := p.shadow, shadow := p.active })) c 0x13 1 (engSample f false 0 0)) (c := c) hdet
      (by rw [hc.ctl]; simp) rfl (fun r => by rw [hc.rg]; simp [rg])
    refine ⟨_, he, ?_, ?_, hleave, ?_, hmem, hrg⟩
    · rw [hprs, hc.prs]
      simp
    · rw [hprs, hc.prs]
      simp
    · rw [hprs, hc.prs]
      simp
  · change execPswapSwap c s = _
    simp only [execPswapSwap, hfirst, hmay, Bool.false_eq_true, if_false]
  · subst hg
    obtain ⟨subs, hsubs⟩ : ∃ subs, subs = (subList d.submask).zipIdx.foldl (fun m x =>
        mset m x.1 (subImage s c (geo (s.core c).prs.conf) (s.core c).prs.conf.ten d x.2)) [] := ⟨_, rfl⟩
    have hload := loadSubs_sound (ten := (s.core c).prs.conf.ten) hsound
    rw [← hsubs] at hload
    obtain ⟨u, hu⟩ : ∃ u, u = modPrs s c (fun p =>
        { p with shadow := { tag := (s.core c).prs.conf,
                             valid := loadValid p.shadow.tag (s.core c).prs.conf p.shadow.valid d.submask,
                             subs := subs.foldl (fun m x => mset m x.1 x.2) p.shadow.subs } }) := ⟨_, rfl⟩
    obtain ⟨v, hv, he⟩ : ∃ v, Counted u v c ∧ exec (.ploadComplete c) s = .next (pressNext (complete v c f false) c) := by
      let g := geo (s.core c).prs.conf
      let w := engSample f false 0 0
      refine ⟨count (count u c 0x11 1 w) c 0x12
          ((subList d.submask).length * ((g.dataBytes + g.sclBytes + g.escBytes + 63) / 64)) w,
        (counted_count u c 0x11 1).trans (counted_count _ c 0x12 _), ?_⟩
      have hf : { f with body := .press (.pload d), memDetail := none } = f := by rw [← hdet, ← hbody]
      change execPloadComplete c s = _
      simp only [execPloadComplete, hfirst, pressOf, hbody, hload, ← hu, hdet, Option.orElse, Option.map, hf, g, w]
    obtain ⟨hleave, hmem, hrg, hprs⟩ := pressDone (s := s) (u := v) (c := c) hdet
      (by rw [hv.ctl, hu]; simp) (by rw [hv.mem, hu]; rfl) (fun r => by rw [hv.rg, hu]; simp [rg])
    have hvp : (v.core c).prs = (u.core c).prs := hv.prs
    refine ⟨_, he, hleave, ?_, ?_, hmem, ?_, ?_, fun i sub hi => ?_, fun sub hno => ?_⟩
    · rw [hprs, hvp, hu]
      simp
    · rw [hprs, hvp, hu]
      simp
    · rw [hprs, hvp, hu]
      simp
    · rw [hprs, hvp, hu]
      simp
    · have hrise : Rises subs := hsubs ▸ rises_foldl_mset _ _ _ List.Pairwise.nil
      have hmf := mfind_images (s := s) (c := c) (g := geo (s.core c).prs.conf) (ten := (s.core c).prs.conf.ten) hi
      rw [← hsubs] at hmf
      refine ⟨subImage s c (geo (s.core c).prs.conf) (s.core c).prs.conf.ten d i, ?_, rfl, fun hs => ?_, fun he => ?_⟩
      · rw [hprs, hvp, hu]
        simp only [core_modPrs]
        exact mfind_foldl_mset hrise.nodup (mem_of_mfind hmf) _
      · simp [subImage, hs]
      · simp [subImage, he]
    · rw [hprs, hvp, hu]
      simp only [core_modPrs]
      exact mfind_foldl_mset_notin (fun hk => hno (keys_images (by rw [hsubs] at hk; exact hk))) _

end Sys2Proof.Machine
end

/-! SUPPORT. A stream's results in the accumulator buffer, and TALLY_DECIDE (Sys2Proof.Obligations O18). -/
section

namespace Sys2Proof.Machine

/-! ### Records of the event log -/

theorem logGets_appendRec (s : State) (r : LogRec) : LogGets s (appendRec s r) r.code r.cls := by
  intro hm
  rw [appendRec, if_neg (by simp [hm]), storeRec]
  dsimp only [deliverRec]
  split <;> exact ⟨_, rfl, rfl, rfl⟩

theorem logGets_raiseRec {code : Nat} (h : coalesces code = false) (s : State) (cls ukind unit : Nat) (part : Option Nat) (echo : W64)
    (detail : List Nat) : LogGets s (raiseRec s code cls ukind unit part echo detail) code cls := by
  rw [raiseRec]
  simp only [h, Bool.not_false, if_true]
  exact logGets_appendRec s _

/-- R467: an error that is neither fatal nor coalesced. -/
theorem logGets_raiseErr {code : Nat} (h : coalesces code = false) (hf : classOf code ≠ 2) (s : State) (ukind unit : Nat)
    (part : Option Nat) (echo : W64) (detail : List Nat) :
    LogGets s (raiseErr s code ukind unit part echo detail) code (classOf code) := by
  rw [raiseErr, if_neg hf]
  exact logGets_raiseRec h s _ ukind unit part echo detail

theorem LogGets.of_same {s u t : State} {code cls : Nat} (h : LogGets u t code cls) (hm : u.wake = s.wake) (hb : u.logBuf = s.logBuf) :
    LogGets s t code cls := by
  intro hs
  rw [← hb]
  exact h (by rw [hm]; exact hs)

/-! ### Results of a stream -/

/-- R82 step 4, R84, R115: the value that an entry holds after a result is written, or added. -/
def accValue (int add : Bool) (old v : W32) : W32 :=
  if add then (if int then intWord (clamp32 (old.toInt + v.toInt)).1 else (pressAdd old v).1) else v

theorem accWrite_eq (int add : Bool) (p : Press) (o : AccOut) : accWrite int add p o =
    { p with acc := mset p.acc (o.row * 64 + o.col) (accValue int add (mget 0 p.acc (o.row * 64 + o.col)) o.val)
             flags := (accWrite int add p o).flags } := by
  cases add <;> cases int <;> rfl

theorem accWrites_eq (int add : Bool) (l : List AccOut) (p : Press) : ∃ acc flags,
    l.foldl (accWrite int add) p = { p with acc := acc, flags := flags } := by
  induction l generalizing p with
  | nil => exact ⟨_, _, rfl⟩
  | cons o l ih =>
    obtain ⟨acc, flags, he⟩ := ih (accWrite int add p o)
    refine ⟨acc, flags, ?_⟩
    rw [List.foldl_cons, he]
    conv_lhs => rw [accWrite_eq]

theorem accWrites_other (int add : Bool) (l : List AccOut) (p : Press) {k : Nat} (h : ∀ o ∈ l, k ≠ o.row * 64 + o.col) :
    mget 0 (l.foldl (accWrite int add) p).acc k = mget 0 p.acc k := by
  induction l generalizing p with
  | nil => rfl
  | cons o l ih =>
    rw [List.foldl_cons, ih _ fun x hx => h x (List.mem_cons_of_mem _ hx), accWrite_eq]
    exact mget_mset_ne _ _ _ (h o List.mem_cons_self)

theorem accWrites_entry (int add : Bool) {l : List AccOut} (hn : (l.map (fun o => o.row * 64 + o.col)).Nodup) (p : Press) {o : AccOut}
    (ho : o ∈ l) : mget 0 (l.foldl (accWrite int add) p).acc (o.row * 64 + o.col) =
      accValue int add (mget 0 p.acc (o.row * 64 + o.col)) o.val := by
  induction l generalizing p with
  | nil => cases ho
  | cons x l ih =>
    rw [List.map_cons, List.nodup_cons] at hn
    obtain ⟨hx, hn⟩ := hn
    have hne : ∀ y ∈ l, x.row * 64 + x.col ≠ y.row * 64 + y.col := fun y hy he => hx (List.mem_map.2 ⟨y, hy, he.symm⟩)
    rw [List.foldl_cons]
    obtain rfl | hl := List.mem_cons.1 ho
    · rw [accWrites_other _ _ _ _ hne, accWrite_eq]
      exact mget_mset _ _ _ _
    · rw [ih hn _ hl, accWrite_eq]
      dsimp only
      rw [mget_mset_ne _ _ _ (hne o hl).symm]

/-- The drains that wait behind a command that completes are those that waited. -/
theorem noDrain_complete {s : State} {c : Nat} {f : Flight} (hdet : f.memDetail = none)
    (h : ∀ g e, g ∈ engFlights (s.core c) 0 → pressOf g = some (.pdrain e) → e.clr = false ∨ g.begun = true) (g : Flight)
    (e : PdrainDesc) (hg : g ∈ engFlights ((complete s c f false).core c) 0) (hp : pressOf g = some (.pdrain e)) :
    e.clr = false ∨ g.begun = true := by
  obtain ⟨blk, pc, tagErr, he⟩ := finishFlight_eq (s.core c) f false
  rw [complete_of_none s c false hdet, core_modCore, he, mem_engFlights] at hg
  obtain ⟨hmem, heng⟩ := hg
  exact h g e (mem_engFlights.2 ⟨List.mem_of_mem_filter hmem, heng⟩) hp

/-- A write of one core's Press, and counts. -/
theorem countedPress {s t : State} {c : Nat} (g : Press → Press) (h : Counted (modPrs s c g) t c) :
    (t.core c).prs = g (s.core c).prs ∧ (t.core c).ctl = (s.core c).ctl ∧ t.mem = s.mem ∧ t.wake = s.wake ∧ t.logBuf = s.logBuf := by
  have hlog : t.wake = (modPrs s c g).wake ∧ t.logBuf = (modPrs s c g).logBuf := by
    rw [← h.rest]
    exact ⟨rfl, rfl⟩
  exact ⟨h.prs.trans (by simp), h.ctl.trans (by simp), h.mem, hlog⟩

/-- R127, R128: a mismatch is counted, and captured where V is 0. -/
def tallyMiss (r : TallyRow) (p : Press) : Press :=
  let p := { p with tallyCnt := satInc p.tallyCnt 1 }
  if p.infoV then p else { p with infoV := true, infoSub := r.sub, infoRow := r.row, infoTag := r.tag }

theorem tallyMiss_eq (r : TallyRow) (p : Press) : tallyMiss r p = { p with
    tallyCnt := satInc p.tallyCnt 1
    infoV := (tallyMiss r p).infoV
    infoSub := (tallyMiss r p).infoSub
    infoRow := (tallyMiss r p).infoRow
    infoTag := (tallyMiss r p).infoTag } := by
  rw [tallyMiss]
  dsimp only
  split <;> rfl

theorem tallyMiss_info (r : TallyRow) (p : Press) : (tallyMiss r p).infoV = true := by
  rw [tallyMiss]
  dsimp only
  split
  · assumption
  · rfl

/-- Settles O18: a stream's completion writes its results, and TALLY_DECIDE decides the oldest comparison. -/
theorem streamsCompleteAndTallyDecides : Obligations.StreamsCompleteAndTallyDecides := by
  unfold Obligations.StreamsCompleteAndTallyDecides
  refine ⟨fun s c f before d hfirst hbody hdet hclr hnodup => ?_, fun s c r rs hq => ?_⟩
  · obtain ⟨q, hqdef⟩ : ∃ q, q = f.accs.foldl (accWrite f.intPass d.accum) { (s.core c).prs with flags := 0 } := ⟨_, rfl⟩
    obtain ⟨acc, flags, hqeq⟩ := accWrites_eq f.intPass d.accum f.accs { (s.core c).prs with flags := 0 }
    rw [← hqdef] at hqeq
    obtain ⟨u, hu⟩ : ∃ u, u = modPrs s c (fun _ =>
      { q with flags := (s.core c).prs.flags ||| q.flags, tallyQ := (s.core c).prs.tallyQ ++ f.tally }) := ⟨_, rfl⟩
    let v := count (countConds u c 0x23 q.flags (engSample f false 0 0)) c 0x14 1 (engSample f false 0 0)
    have hv : Counted u v c := (counted_countConds u c 0x23 _ _).trans (counted_count _ c 0x14 1)
    have he : exec (.pstreamComplete c) s = .next (pressNext (complete v c f false) c) := by
      change execPstreamComplete c s = _
      simp only [execPstreamComplete, hfirst, pressOf, hbody, ← hqdef, ← hu, v]
    obtain ⟨hleave, hmem, -, hprs⟩ := pressDone (s := s) (u := v) (c := c) hdet
      (by rw [hv.ctl, hu]; simp) (by rw [hv.mem, hu]; rfl) (fun r => by rw [hv.rg, hu]; simp [rg])
    have hprsv : (v.core c).prs =
        { q with flags := (s.core c).prs.flags ||| q.flags, tallyQ := (s.core c).prs.tallyQ ++ f.tally } := by
      rw [hv.prs, hu]
      simp
    have hacc : ((pressNext (complete v c f false) c).core c).prs.acc = q.acc := by
      rw [pressNext_acc _ c (noDrain_complete hdet ?_), (complete_press hdet).2.1, hprsv]
      intro g e hg
      rw [hv.engFlights, hu] at hg
      exact hclr g e (by simpa [engFlights] using hg)
    refine ⟨_, he, hleave, hmem, ?_, ?_, ?_⟩
    · rw [hprs, hprsv]
    · rintro o ho _ rfl
      rw [hacc, hqdef, accWrites_entry _ _ hnodup _ ho]
      rfl
    · intro k hk
      rw [hacc, hqdef, accWrites_other _ _ _ _ hk]
  · let u := count (modPrs s c (fun p => { p with tallyQ := rs })) c 0x1F 1 bareSample
    obtain ⟨hprs, hctl, hmem, hwake, hlog⟩ := countedPress (s := s) (c := c) (t := u) _ (counted_count _ c 0x1F 1)
    cases ho : r.outcome with
    | match_ =>
      have he : exec (.tallyDecide c) s = .next u := by
        change execTallyDecide c s = _
        simp only [execTallyDecide, hq, ho, u]
      refine ⟨u, he, ?_, hmem, hctl, ?_, ?_, ?_, fun _ => ⟨?_, hlog⟩, nofun⟩ <;> rw [hprs] <;> rfl
    | skip =>
      let v := count (modPrs u c (fun p => { p with tallySkip := satInc p.tallySkip 1 })) c 0x21 1 bareSample
      obtain ⟨hprsv, hctlv, hmemv, -, hlogv⟩ := countedPress (s := u) (c := c) (t := v) _ (counted_count _ c 0x21 1)
      have he : exec (.tallyDecide c) s = .next v := by
        change execTallyDecide c s = _
        simp only [execTallyDecide, hq, ho, u, v]
      rw [hprs] at hprsv
      refine ⟨v, he, ?_, hmemv.trans hmem, hctlv.trans hctl, ?_, ?_, ?_, fun _ => ⟨?_, hlogv.trans hlog⟩, nofun⟩ <;> rw [hprsv] <;> rfl
    | mismatch =>
      let v := modPrs u c (tallyMiss r)
      let w := count v c 0x20 1 bareSample
      let p := (v.core c).prs
      obtain ⟨hprsw, hctlw, hmemw, hwakew, hlogw⟩ := countedPress (s := u) (c := c) (t := w) (tallyMiss r) (counted_count v c 0x20 1)
      have he : exec (.tallyDecide c) s = .next
          (raiseErr w 0x0014 1 c (partOf v c) (echoOf v c) [tallyInfoWord p, p.tallyCnt]) := by
        change execTallyDecide c s = _
        simp only [execTallyDecide, hq, ho, u, v, w, p]
        rfl
      have hr := logged_raiseErr (code := 0x0014) (by decide) w 1 c (partOf v c) (echoOf v c) [tallyInfoWord p, p.tallyCnt]
      have hcore := hr.core c
      have hget := logGets_raiseErr (code := 0x0014) (by decide) (by decide) w 1 c (partOf v c) (echoOf v c)
        [tallyInfoWord p, p.tallyCnt]
      rw [hprs] at hprsw
      refine ⟨_, he, ?_, ?_, ?_, ?_, ?_, ?_, fun h => absurd rfl h,
        fun _ => ⟨?_, fun hv => ?_, hget.of_same (hwakew.trans hwake) (hlogw.trans hlog)⟩⟩
      · rw [hcore, hprsw, tallyMiss_eq]
      · rw [hr]
        exact hmemw.trans hmem
      · rw [hcore]
        exact hctlw.trans hctl
      · rw [hcore, hprsw, tallyMiss_eq]
      · rw [hcore, hprsw, tallyMiss_eq]
        rfl
      · rw [hcore, hprsw, tallyMiss_eq]
        rfl
      · rw [hcore, hprsw]
        exact tallyMiss_info r _
      · rw [hcore, hprsw, tallyMiss, if_neg (by simp [hv])]
        exact ⟨rfl, rfl, rfl⟩

end Sys2Proof.Machine
end

/-! SUPPORT. A drain reads, clears and writes its rows (Sys2Proof.Obligations O19). -/
section

namespace Sys2Proof.Machine

theorem mget_filter {α : Type} (z : α) (p : Nat → Bool) (m : Map α) (k : Nat) :
    mget z (m.filter (fun e => p e.1)) k = if p k then mget z m k else z := by
  induction m with
  | nil => simp [mget]
  | cons e m ih =>
    obtain ⟨j, v⟩ := e
    rw [List.filter_cons]
    by_cases hj : k = j
    · subst hj
      cases hp : p k
      · simp [ih, hp]
      · simp [mget]
    · cases hp : p j
      · simp [ih, mget, hj]
      · simp [ih, mget, hj]

theorem drainPass_fp32 {s : State} {c : Nat} {d : PdrainDesc} (hfmt : d.ofmt = 0) (het : d.etype = false) :
    (drainPass s c d).2.1 = (List.range d.nrow).map (fun r => (d.out + r * d.ostride, (List.range d.ncol).flatMap (fun j =>
      let w := mget 0 (s.core c).prs.acc ((d.row0 + r) * 64 + d.col0 + j)
      natBytes 4 (if (f32 w).isNan then canonNan else w).toNat))) := by
  refine List.ext_getElem (by simp [drainPass]) fun r h1 h2 => ?_
  simp [drainPass, hfmt, het, drainFmt, drainValue, List.flatMap_map, Fmt.width]

theorem drainClear_entry (p : Press) (d : PdrainDesc) {r j : Nat} (hcol : d.col0 + d.ncol ≤ 64) (hr : r < d.nrow) (hj : j < d.ncol) :
    mget 0 (drainClear p d).acc ((d.row0 + r) * 64 + (d.col0 + j)) =
      if d.clr then 0 else mget 0 p.acc ((d.row0 + r) * 64 + (d.col0 + j)) := by
  have hdiv : ((d.row0 + r) * 64 + (d.col0 + j)) / 64 = d.row0 + r := by omega
  have hmod : ((d.row0 + r) * 64 + (d.col0 + j)) % 64 = d.col0 + j := by omega
  rw [drainClear]
  split
  · refine (mget_filter 0 (fun k => !(decide (d.row0 ≤ k / 64) && decide (k / 64 < d.row0 + d.nrow) && decide (d.col0 ≤ k % 64) &&
      decide (k % 64 < d.col0 + d.ncol))) p.acc _).trans ?_
    rw [hdiv, hmod]
    simp [hr, hj]
  · rfl

theorem isDrain_of_mayBegin {p : Press} {before : List Flight} {f : Flight} {d : PdrainDesc} (hf : pressOf f = some (.pdrain d))
    (h : mayBegin p before f = true) : ∀ g ∈ before, isDrain g = false := by
  intro g hg
  rw [mayBegin, hf] at h
  simpa using (Bool.and_eq_true_iff.1 (List.all_eq_true.1 h g hg)).2

/-- Settles O19: a drain to FP32 reads its entries, and clears them where asked; its completion writes what it read. -/
theorem drainsWriteTheirRows : Obligations.DrainsWriteTheirRows := by
  unfold Obligations.DrainsWriteTheirRows
  refine ⟨fun s c i d x f hr hx hi hset hf hmay hfmt het => ?_, fun s c f before hm hfirst hdet hws hnodup => ?_⟩
  · subst hx
    obtain ⟨t, he, u, hu, rfl⟩ := engRow_issuable (P := fun t => ∃ u, Handed s u c ⟨i, .press (.pdrain d)⟩ ∧ t = pressNext u c) hr hi
      fun u hu => ⟨u, hu, rfl⟩
    have hprs : ((wantRamp u c).core c).prs = { (s.core c).prs with want := ((wantRamp u c).core c).prs.want } := by
      rw [wantRamp_prs, hu.prs]
    obtain ⟨upd, hupd, hmem, -, hrec⟩ := pressNext_begins_last hu.engFlights (by rw [hu.prs]; exact hset) rfl
      (by rw [hu.prs, ← hf]; subst hf; exact hmay)
    obtain ⟨hwrites, hacc⟩ := hrec d rfl
    have hpress : pressOf f = some (.pdrain d) := by rw [hf]; rfl
    refine ⟨_, _, (exec_pressInstr s c i (.pdrain d)).trans he, hmem, ?_, hupd.begun _, (pressNext_mem u c).trans hu.mem, ?_,
      fun hcol r hr j hj => ?_⟩
    · rw [hf]
      exact (hupd.same _).1
    · rw [hwrites, drainPass_fp32 hfmt het, hprs]
    · rw [hacc (isDrain_of_mayBegin hpress hmay), drainClear_entry _ d hcol hr hj, hprs]
  · have hbad : f.writes.findSome? (fun w => badMerge s c w.1 w.2.length) = none := by
      rw [List.findSome?_eq_none_iff]
      exact fun w hw => badMerge_sound (hws w hw).2
    have hputs := spWrites_sound (port := 3) fun w hw => (hws w hw).2
    obtain ⟨u, hu⟩ : ∃ u, u = modPrs (putAll s c f.writes) c (fun p => { p with amax := f.amax.foldl (fun m x => mset m x.1 x.2) p.amax }) :=
      ⟨_, rfl⟩
    have hv := counted_count u c 0x15 1 (w := engSample f false 0 0)
    have he : exec (.pdrainComplete c) s = .next (pressNext (complete (count u c 0x15 1 (engSample f false 0 0)) c f false) c) := by
      have hsame : { f with memDetail := none } = f := by rw [← hdet]
      change execPdrainComplete c s = _
      simp only [execPdrainComplete, hfirst, hbad, hputs, ← hu, hdet, Option.orElse, Option.map, hsame]
    have hcore : u.core c = { s.core c with
        prs := { (s.core c).prs with amax := f.amax.foldl (fun m x => mset m x.1 x.2) (s.core c).prs.amax } } := by
      rw [hu, ← core_putAll s c c f.writes]
      simp [modPrs]
    have hmem : u.mem = (putAll s c f.writes).mem := by rw [hu]; rfl
    obtain ⟨hcm, -, -, hcs⟩ := complete_press (s := count u c 0x15 1 (engSample f false 0 0)) (c := c) hdet
    have hspd : ((count u c 0x15 1 (engSample f false 0 0)).core c).spd = ((putAll s c f.writes).core c).spd := by
      rw [hv.spd, hcore, core_putAll]
    obtain ⟨hleave, hmemt, hrg, hprs⟩ := pressDone (s := putAll s c f.writes) (u := count u c 0x15 1 (engSample f false 0 0)) (c := c) hdet
      (by rw [hv.ctl, hcore, core_putAll]) (hv.mem.trans hmem) (fun r => by rw [hv.rg, rg, hcore, rg, core_putAll])
    have hamax : ((pressNext (complete (count u c 0x15 1 (engSample f false 0 0)) c f false) c).core c).prs.amax =
        f.amax.foldl (fun m x => mset m x.1 x.2) (s.core c).prs.amax := by
      rw [hprs, hv.prs, hcore]
    refine ⟨_, he, ?_, fun r => ?_, fun x hx => ?_, fun ws o bs hlast => ?_, fun k v hk => ?_, fun k hk => ?_⟩
    · rwa [Leaves, core_putAll] at hleave
    · rw [hrg, rg, core_putAll, ← rg]
    · rw [hmemt, putAll_frame hm hx]
    · rw [pressNext_spBytes, spBytes_congr (hcs.trans hspd) (hcm.trans (hv.mem.trans hmem)), hlast]
      exact putAll_last ws hm (hws (o, bs) (by simp [hlast])).1
    · rw [hamax, mget_eq_mfind, mfind_foldl_mset hnodup hk]
      rfl
    · rw [hamax, mget_eq_mfind, mfind_foldl_mset_notin hk, ← mget_eq_mfind]

end Sys2Proof.Machine
end

/-! SUPPORT. The ramp of a Press and its fall (Sys2Proof.Obligations O20). -/
section

namespace Sys2Proof.Machine

@[simp] theorem core_modField (s : State) (n k : Nat) (f : Field → Field) : (modField s n f).core k = s.core k := rfl
@[simp] theorem core_modGrp (s : State) (g k : Nat) (f : Group → Group) : (modGrp s g f).core k = s.core k := rfl
@[simp] theorem grp_modField (s : State) (n g : Nat) (f : Field → Field) : (modField s n f).grp g = s.grp g := rfl
@[simp] theorem field_modGrp (s : State) (g n : Nat) (f : Group → Group) : (modGrp s g f).field n = s.field n := rfl
@[simp] theorem grp_modPrs (s : State) (c g : Nat) (f : Press → Press) : (modPrs s c f).grp g = s.grp g := rfl
@[simp] theorem field_modPrs (s : State) (c n : Nat) (f : Press → Press) : (modPrs s c f).field n = s.field n := rfl

theorem find_map_range {f : Nat → Nat} {p : Nat → Bool} {n i : Nat} (hi : i < n) (hp : p (f i) = true)
    (hno : ∀ j < i, p (f j) = false) : ((List.range n).map f).find? p = some (f i) := by
  rw [List.find?_map, (List.find?_range_eq_some (p := p ∘ f) (i := i) (n := n)).2 ⟨hp, List.mem_range.2 hi, fun j hj => ?_⟩]
  · rfl
  · simp [hno j hj]

theorem arbiterPick_of_turn {s : State} {c i : Nat} (hw : wantsRamp s c = true) (hi : i < 12)
    (hc : c % 12 = ((s.grp (groupOf c)).lastK + 1 + i) % 12)
    (hno : ∀ j < i, wantsRamp s (12 * groupOf c + ((s.grp (groupOf c)).lastK + 1 + j) % 12) = false) :
    arbiterPick s (groupOf c) = some c := by
  have hcore : 12 * groupOf c + ((s.grp (groupOf c)).lastK + 1 + i) % 12 = c := by
    rw [← hc, groupOf]
    omega
  rw [arbiterPick, find_map_range hi (by rw [hcore]; exact hw) hno, hcore]

theorem arbiterPick_none {s : State} {g : Nat} (h : ∀ k < 12, wantsRamp s (12 * g + k) = false) : arbiterPick s g = none := by
  rw [arbiterPick, List.find?_eq_none]
  intro x hx
  obtain ⟨i, -, rfl⟩ := List.mem_map.1 hx
  rw [h _ (Nat.mod_lt _ (by decide))]
  exact Bool.false_ne_true

theorem wantsRamp_of_arbiterPick {s : State} {g c : Nat} (h : arbiterPick s g = some c) : wantsRamp s c = true :=
  List.find?_some h

theorem pacerPick_of_turn {s : State} {c h : Nat} (hpick : arbiterPick s (groupOf c) = some c) (hfree : arbiterFree s (groupOf c) = true)
    (hh : h < 8) (hc : groupOf c % 8 = ((s.field (fieldOf c)).paceRow + 1 + h) % 8)
    (hno : ∀ j < h, ∀ g, g = 8 * fieldOf c + ((s.field (fieldOf c)).paceRow + 1 + j) % 8 →
      arbiterFree s g = false ∨ ∀ k < 12, wantsRamp s (12 * g + k) = false) :
    pacerPick s (fieldOf c) = some (groupOf c) := by
  have hgroup : 8 * fieldOf c + ((s.field (fieldOf c)).paceRow + 1 + h) % 8 = groupOf c := by
    rw [← hc, fieldOf]
    omega
  rw [pacerPick, find_map_range hh ?_ fun j hj => ?_, hgroup]
  · rw [hgroup, hpick, hfree]
    rfl
  · obtain hf | hw := hno j hj _ rfl
    · rw [hf, Bool.and_false]
    · rw [arbiterPick_none hw]
      rfl

theorem arbiterFree_of_pacerPick {s : State} {n g : Nat} (h : pacerPick s n = some g) : arbiterFree s g = true :=
  (Bool.and_eq_true_iff.1 (List.find?_some (p := fun g => (arbiterPick s g).isSome && arbiterFree s g) h)).2

/-- R122 to R124, R411: what a grant leaves. -/
def rampGranted (s : State) (c : Nat) : State :=
  modPrs (modField (modGrp s (groupOf c) (fun r => { r with lastK := c % 12, lastAt := some (s.field (fieldOf c)).cclk })) (fieldOf c)
    (fun d => { d with paceRow := groupOf c % 8, paceAt := some s.now })) c (fun p => { p with pstate := .ramping, want := false })

/-- Settles O20: who is granted a ramp, and how a Press becomes ACTIVE, FALLING and IDLE. -/
theorem thePressRampsAndFalls : Obligations.ThePressRampsAndFalls := by
  unfold Obligations.ThePressRampsAndFalls
  refine ⟨fun s c i h hw hi hc hno hh hg hgno hfree hpace => ?_, fun s c hno => ?_, fun s c hp => ?_,
    fun s c hp hstreams => ⟨fun hidle => ?_, fun hidle => ?_⟩, fun s c hp => ?_⟩
  · have hpick := arbiterPick_of_turn hw hi hc hno
    have hpacer := pacerPick_of_turn hpick hfree hh hg hgno
    have he : exec (.rampGrant c) s = .next (rampGranted s c) := by
      change execRampGrant c s = _
      simp only [execRampGrant, hpick, hpacer, hpace, and_self, if_true]
      rfl
    refine ⟨_, he, ?_, ?_, ?_, ?_, ?_, rfl, ?_, fun k hk => ?_⟩
    · simp [rampGranted]
    · simp [rampGranted]
    · simp [rampGranted]
    · simp [rampGranted]
    · simp [rampGranted]
    · simp [rampGranted]
    · exact core_modPrs_ne _ _ hk
  · change execRampGrant c s = _
    rw [execRampGrant, if_neg]
    rintro ⟨hpick, hpacer, hpace⟩
    obtain hw | hf | hf := hno
    · rw [wantsRamp_of_arbiterPick hpick] at hw
      cases hw
    · rw [hpace] at hf
      cases hf
    · rw [arbiterFree_of_pacerPick hpacer] at hf
      cases hf
  · have he : exec (.rampComplete c) s = .next (pressNext (modPrs s c (fun p => { p with pstate := .active, rowsOn := 128 })) c) := by
      change execRampComplete c s = _
      rw [execRampComplete, if_pos hp]
    refine ⟨_, he, ?_, ?_, pressNext_mem _ c, ?_⟩
    · rw [pressNext_prs]
      simp
    · rw [pressNext_prs]
      simp
    · rw [pressNext_ctl]
      simp
  · have hnone : (engFlights (s.core c) 0).any (fun f => isStream f && !f.begun) = false := by
      rw [List.any_eq_false]
      intro f hf
      obtain hs | hb := hstreams f hf
      · simp [hs]
      · simp [hb]
    change execPressIdleCountExpire c s = _
    simp only [execPressIdleCountExpire, hp, hnone]
    rw [if_pos ⟨trivial, hidle, rfl⟩]
  · change execPressIdleCountExpire c s = _
    simp only [execPressIdleCountExpire]
    rw [if_neg fun h => h.2.1 hidle]
  · change execPressFallComplete c s = _
    rw [execPressFallComplete, if_pos hp]

end Sys2Proof.Machine
end

/-! SUPPORT. What an INT8 stream forms (Sys2Proof.Obligations O17): a matrix product. -/
section

namespace Sys2Proof.Machine

/-! ### Bytes as codes -/

theorem byte_leNat (bs : Bytes) (i : Nat) : leNat bs / 2 ^ (i * 8) % 2 ^ 8 = (bs.getD i 0).toNat := by
  induction bs generalizing i with
  | nil => simp [leNat]
  | cons b bs ih =>
    have hb : b.toNat < 256 := b.isLt
    cases i with
    | zero =>
      simp only [leNat, List.getD_cons_zero]
      omega
    | succ i =>
      rw [List.getD_cons_succ, ← ih i, leNat, Nat.add_mul, Nat.one_mul, Nat.add_comm (i * 8) 8, Nat.pow_add, ← Nat.div_div_eq_div_mul]
      congr 2
      omega

/-- R65, R66: the value of element `i` of packed INT8 is that of its byte. -/
theorem int8_value (bs : Bytes) {i n : Nat} (h : i < n) :
    intOf .int8 ((codesOf .int8 bs n).getD i 0) = ((bs.getD i 0).toInt, false) := by
  have hcode : (codesOf .int8 bs n).getD i 0 = (bs.getD i 0).toNat := by
    rw [← byte_leNat]
    simp [codesOf, h, elemAt, Fmt.width]
  have hlt : (bs.getD i 0).toNat < 256 := (bs.getD i 0).isLt
  rw [hcode, intOf, BitVec.toInt_eq_toNat_cond]
  have hmod : (bs.getD i 0).toNat % 2 ^ 8 = (bs.getD i 0).toNat := Nat.mod_eq_of_lt hlt
  simp only [show (Fmt.int8 == Fmt.tern) = false from rfl, Bool.false_and, Bool.false_eq_true, if_false, Fmt.width, hmod]
  congr 1
  by_cases h : (bs.getD i 0).toNat < 128
  · rw [if_neg (by omega), if_pos (by omega)]
  · rw [if_pos (by omega), if_neg (by omega)]

/-! ### The integer pass without escapes -/

theorem clamp32_fst {i : Int} (h1 : -2147483648 ≤ i) (h2 : i ≤ 2147483647) : (clamp32 i).1 = i := by
  rw [clamp32, if_neg (by omega), if_neg (by omega)]

/-- The sum of the first `n` products. -/
def dotInt (p : Nat → Int) (n : Nat) : Int := ((List.range n).map p).sum

theorem dotInt_succ (p : Nat → Int) (n : Nat) : dotInt p (n + 1) = dotInt p n + p n := by
  simp [dotInt, List.range_succ]

theorem dotInt_congr {p q : Nat → Int} {n : Nat} (h : ∀ k < n, p k = q k) : dotInt p n = dotInt q n := by
  rw [dotInt, dotInt, List.map_congr_left fun k hk => h k (List.mem_range.1 hk)]

theorem dotInt_bound {p : Nat → Int} (h : ∀ k, -16384 ≤ p k ∧ p k ≤ 16384) (n : Nat) :
    -16384 * n ≤ dotInt p n ∧ dotInt p n ≤ 16384 * n := by
  induction n with
  | zero => simp [dotInt]
  | succ n ih =>
    obtain ⟨h1, h2⟩ := h n
    rw [dotInt_succ]
    omega

theorem toInt_mul_bound (a b : Byte) : -16384 ≤ a.toInt * b.toInt ∧ a.toInt * b.toInt ≤ 16384 := by
  have ha := BitVec.le_toInt a
  have ha' := BitVec.toInt_lt (x := a)
  have hb := BitVec.le_toInt b
  have hb' := BitVec.toInt_lt (x := b)
  simp only [show (8 - 1) = 7 from rfl] at ha ha' hb hb'
  constructor <;> nlinarith

/-- A fold that adds the products one by one. -/
theorem foldl_dotInt {β : Type} {p : Nat → Int} {step : Int × β → Nat → Int × β} {n : Nat}
    (h : ∀ k < n, ∀ a, a.1 = dotInt p k → (step a k).1 = dotInt p k + p k) (b : β) :
    ((List.range n).foldl step (0, b)).1 = dotInt p n := by
  induction n with
  | zero => rfl
  | succ n ih =>
    rw [List.range_succ, List.foldl_append, dotInt_succ]
    exact h n (Nat.lt_succ_self n) _ (ih fun k hk => h k (hk.trans (Nat.lt_succ_self n)))

/-- R84: without escapes, and with one MAC per cell, an INT8 column sums its products, and no step clamps. -/
theorem colInt_int8 {g : Geo} {xs ws : List Nat} {x w : Nat → Byte} (hf : g.fmt = .int8) (hm : g.m = 1) (hk : g.k ≤ 128)
    (hx : ∀ k < g.k, intOf .int8 (xs.getD k 0) = ((x k).toInt, false))
    (hw : ∀ k < g.k, intOf .int8 (ws.getD k 0) = ((w k).toInt, false)) :
    (colInt g xs ws []).1 = dotInt (fun k => (x k).toInt * (w k).toInt) g.k := by
  simp only [colInt, hf, hm, Nat.div_one, List.foldl_nil]
  refine foldl_dotInt (fun k hlt a ha => ?_) _
  obtain ⟨hb, hb'⟩ := dotInt_bound (fun k => toInt_mul_bound (x k) (w k)) k
  obtain ⟨hp, hp'⟩ := toInt_mul_bound (x k) (w k)
  have hprod : (clamp32 ((x k).toInt * (w k).toInt)).1 = (x k).toInt * (w k).toInt := clamp32_fst (by omega) (by omega)
  simp only [List.range_one, List.foldl_cons, List.foldl_nil, Nat.mul_one, Nat.add_zero, hx k hlt, hw k hlt, hprod, zero_add, ha]
  exact clamp32_fst (by omega) (by omega)

/-! ### A pass -/

theorem escSlots_none {g : Geo} (h : g.een = false) (esc : Bytes) (j : Nat) : escSlots g esc j = [] := by
  rw [escSlots, h]
  rfl

/-- R84, R103: the result of column `j` for a moving row of bytes `bs`. -/
theorem rowResult_int8 {g : Geo} {sub : SubTile} {bs : Bytes} {xsc : List Nat} {tally : Bool} {tol j : Nat} (hf : g.fmt = .int8)
    (hm : g.m = 1) (hk : g.k ≤ 128) (hrow : g.rowBytes = g.k) (he : g.een = false) (hj : j < g.cols) :
    (rowResult g sub (codesOf .int8 bs g.k) xsc tally tol).1[j]? = some (intWord (dotInt (fun k => (bs.getD k 0).toInt *
      (sub.data.getD (j * g.rowBytes + k) 0).toInt) g.k)) := by
  have hcol : ∀ k < g.k, intOf .int8 ((codesOf .int8 ((sub.data.drop (j * g.rowBytes)).take g.rowBytes) g.k).getD k 0) =
      ((sub.data.getD (j * g.rowBytes + k) 0).toInt, false) := by
    intro k hlt
    rw [int8_value _ hlt, List.getD_eq_getElem?_getD, List.getElem?_take_of_lt (by omega), List.getElem?_drop, ← List.getD_eq_getElem?_getD]
  simp only [rowResult, hf, Fmt.isInt, if_true, escSlots_none he, List.map_map, List.getElem?_map, List.getElem?_range hj, Option.map_some,
    Function.comp]
  rw [colInt_int8 hf hm hk (fun k hlt => int8_value bs hlt) hcol]

theorem mem_foldl_of_mem {α β γ : Type} {acc : β → List γ} {step : β → α → β} (mono : ∀ o a, acc o ⊆ acc (step o a)) {x : γ}
    {a : α} {l : List α} (ha : a ∈ l) (hx : ∀ o, x ∈ acc (step o a)) (o : β) : x ∈ acc (l.foldl step o) := by
  have hsub : ∀ (l : List α) (o : β), acc o ⊆ acc (l.foldl step o) := by
    intro l
    induction l with
    | nil => exact fun o => List.Subset.refl _
    | cons b l ih => exact fun o => List.Subset.trans (mono o b) (ih _)
  induction l generalizing o with
  | nil => cases ha
  | cons b l ih =>
    obtain rfl | hl := List.mem_cons.1 ha
    · exact hsub l _ (hx o)
    · exact ih hl _

theorem subRow_accs (p : Press) (g : Geo) (tag : Nat) (d : PstreamDesc) (i : Nat) (xs xsc : List Nat) (o : PassOut) (sub : Nat) :
    (subRow p g tag d i xs xsc o sub).accs = o.accs ++ (rowResult g (mget (⟨[], [], [], [], []⟩ : SubTile) p.active.subs sub) xs xsc
      (p.conf.ten && p.active.tag.ten) p.tol).1.mapIdx (fun j v => ⟨d.acc.getD sub 0 + i, sub % g.c * g.cols + j, v⟩) := rfl

/-- R104, R118: what one moving row of one band adds to a pass. -/
def bandRow (p : Press) (g : Geo) (tag : Nat) (d : PstreamDesc) (row : Nat → Nat → Bytes) (xsc : Nat → Nat → List Nat) (o : PassOut)
    (w : Nat × Nat) : PassOut :=
  ((subList d.submask).filter (fun x => x / g.c == w.2)).foldl
    (subRow p g tag d w.1 (codesOf g.fmt (row w.1 w.2) g.k) (xsc w.1 w.2)) o

theorem bandRow_mono (p : Press) (g : Geo) (tag : Nat) (d : PstreamDesc) (row : Nat → Nat → Bytes) (xsc : Nat → Nat → List Nat)
    (o : PassOut) (w : Nat × Nat) : o.accs ⊆ (bandRow p g tag d row xsc o w).accs := by
  rw [bandRow]
  generalize (subList d.submask).filter (fun x => x / g.c == w.2) = l
  induction l generalizing o with
  | nil => exact List.Subset.refl _
  | cons b l ih =>
    refine List.Subset.trans ?_ (ih _)
    rw [subRow_accs]
    exact List.subset_append_left _ _

theorem movingRow_sound {s : State} {c : Nat} {g : Geo} {rb off : Nat} (hf : g.fmt.isFp6 = false) (h : Sound s c off g.rowBytes) :
    movingRow s c g rb off = (s, spBytes s c off g.rowBytes, []) := by
  have h0 : Sound s c (off + g.rowBytes) 0 := by
    intro w hw
    cases hw
  simp only [movingRow, hf, Bool.false_eq_true, if_false, spRead_sound 1 h, Nat.sub_self, spRead_sound 2 h0]
  simp [spBytes]

theorem mem_bandsOf {g : Geo} {mask : BitVec 8} {rb : Nat} : rb ∈ bandsOf g mask ↔ rb < g.r ∧ ∃ x ∈ subList mask, x / g.c = rb := by
  simp [bandsOf]

/-- A pass without block scales over sound rows. -/
theorem streamPass_sound {s : State} {c tag : Nat} {d : PstreamDesc} {g : Geo} (hg : g = geo (s.core c).prs.conf) (hsc : g.scaled = false)
    (hf : g.fmt.isFp6 = false)
    (h : ∀ sub ∈ subList d.submask, ∀ r < d.m, Sound s c (d.mov.getD (sub / g.c) 0 + r * d.mstride) g.rowBytes) :
    (streamPass s c tag d).2 = ((List.range d.m).flatMap (fun i => (bandsOf g d.submask).map (fun rb => (i, rb)))).foldl
      (bandRow (s.core c).prs g tag d (fun i rb => spBytes s c (d.mov.getD rb 0 + i * d.mstride) g.rowBytes) (fun _ _ => []))
      ⟨[], 0, [], 0, none⟩ := by
  have hl : ∀ w ∈ (List.range d.m).flatMap (fun i => (bandsOf g d.submask).map (fun rb => (i, rb))),
      Sound s c (d.mov.getD w.2 0 + w.1 * d.mstride) g.rowBytes := by
    intro w hw
    obtain ⟨i, hi, hw⟩ := List.mem_flatMap.1 hw
    obtain ⟨rb, hrb, rfl⟩ := List.mem_map.1 hw
    obtain ⟨-, x, hx, rfl⟩ := mem_bandsOf.1 hrb
    exact h x hx i (List.mem_range.1 hi)
  simp only [streamPass, ← hg, movingScales, hsc, Bool.false_eq_true, if_false]
  generalize (List.range d.m).flatMap (fun i => (bandsOf g d.submask).map (fun rb => (i, rb))) = l at hl
  generalize (⟨[], 0, [], 0, none⟩ : PassOut) = o
  induction l generalizing o with
  | nil => rfl
  | cons w l ih =>
    rw [List.foldl_cons, List.foldl_cons, ← ih fun y hy => hl y (List.mem_cons_of_mem _ hy)]
    congr 2
    simp only [movingRow_sound hf (hl w List.mem_cons_self), bandRow]
    have hbad : { o with bad := o.bad.orElse fun _ => ([] : List (Nat × Nat)).head? } = o := by
      cases o with
      | mk accs fl tally slots bad => cases bad <;> rfl
    rw [hbad]
    simp [mget]

/-! ### What the issue checks promise -/

theorem firstOf_none {l : List (Bool × Nat × Nat)} (h : firstOf l = none) {x : Bool × Nat × Nat} (hx : x ∈ l) : x.1 = false := by
  rw [firstOf, Option.map_eq_none_iff, List.find?_eq_none] at h
  simpa using h x hx

/-- R133: queued commands among which is no PCONF leave the configuration in effect. -/
theorem pressView_conf {k : Core} (h : ∀ f ∈ engFlights k 0, isConf f = false) : (pressView k).conf = k.prs.conf := by
  have hstep : ∀ (l : List Flight) (v : PressView), (∀ f ∈ l, isConf f = false) →
      (l.foldl (fun v f => match f.body with
        | .press p => viewStep v p
        | _ => v) v).conf = v.conf := by
    intro l
    induction l with
    | nil => exact fun _ _ => rfl
    | cons f l ih =>
      intro v hl
      rw [List.foldl_cons, ih _ fun g hg => hl g (List.mem_cons_of_mem _ hg)]
      have hf := hl f List.mem_cons_self
      simp only [isConf, pressOf] at hf
      split
      · next p hp =>
        rw [hp] at hf
        cases p with
        | pconf d => cases hf
        | _ => rfl
      · rfl
  exact hstep _ _ h

theorem maskBad_of_stream {k : Core} {d : PstreamDesc} (h : pressRefuse k (.pstream d) = none) :
    maskBad (geo (pressView k).conf) d.submask = false := by
  refine firstOf_none (x := (maskBad (geo (pressView k).conf) d.submask, 0x0B, 1)) h ?_
  refine List.mem_append_left _ (List.mem_append_left _ (List.mem_append_left _ (List.mem_append_left _ (List.mem_append_left _ ?_))))
  exact List.mem_append_right _ (List.mem_cons_of_mem _ List.mem_cons_self)

theorem OnlyCore.marks {s t : State} {c : Nat} (h : OnlyCore s t c) : t.marks = s.marks := by rw [← h.1]

theorem sub_in_band {g : Geo} {m : BitVec 8} (hc : 0 < g.c) (h : maskBad g m = false) {sub : Nat} (hs : sub ∈ subList m) :
    sub / g.c ∈ bandsOf g m := by
  refine mem_bandsOf.2 ⟨?_, sub, hs, rfl⟩
  have hbit : m.toNat.testBit sub = true := (List.mem_filter.1 hs).2
  have hlt : m.toNat < 2 ^ g.subs := by
    rw [maskBad, Bool.or_eq_false_iff, decide_eq_false_iff_not] at h
    omega
  have hsub : sub < g.subs := by
    by_contra hno
    rw [Nat.testBit_lt_two_pow (hlt.trans_le (Nat.pow_le_pow_right (by decide) (not_lt.1 hno)))] at hbit
    cases hbit
  exact (Nat.div_lt_iff_lt_mul hc).2 hsub

theorem packRC_pos (mode : Nat) : 0 < (packRC mode).1 ∧ 0 < (packRC mode).2 := by
  unfold packRC
  split <;> decide

/-- The geometry of an INT8 configuration without escapes. -/
theorem geo_int8 {p : PressConf} (hf : p.fmt = 5) : (geo p).fmt = .int8 ∧ (geo p).m = 1 ∧ (geo p).k ≤ 128 ∧
    (geo p).rowBytes = (geo p).k ∧ (geo p).een = p.een ∧ (geo p).scaled = false ∧ 0 < (geo p).c := by
  have hk : 128 / (packRC p.pack.toNat).1 ≤ 128 := Nat.div_le_self _ _
  obtain ⟨-, hc⟩ := packRC_pos p.pack.toNat
  have hint : (pressFmtOf p.fmt.toNat).getD .e4m3 = .int8 := by
    rw [hf]
    rfl
  simp only [geo, Geo.rowBytes, hint, Fmt.mac, Fmt.width, Fmt.scaled, Nat.mul_one, true_and]
  exact ⟨hk, Nat.mul_div_cancel _ (by decide), hc⟩

/-- R103, R115: what an INT8 pass over sound rows forms. -/
theorem streamPass_int8 {s : State} {c tag : Nat} {d : PstreamDesc} {g : Geo} (hg : g = geo (s.core c).prs.conf)
    (hfmt : (s.core c).prs.conf.fmt = 5) (heen : (s.core c).prs.conf.een = false) (hmask : maskBad g d.submask = false)
    (h : ∀ sub ∈ subList d.submask, ∀ r < d.m, Sound s c (d.mov.getD (sub / g.c) 0 + r * d.mstride) g.rowBytes)
    {sub r j : Nat} (hsub : sub ∈ subList d.submask) (hr : r < d.m) (hj : j < g.cols) :
    (⟨d.acc.getD sub 0 + r, sub % g.c * g.cols + j, intWord (dotInt (fun k =>
      (spByte s c (d.mov.getD (sub / g.c) 0 + r * d.mstride + k)).toInt *
        ((mget (⟨[], [], [], [], []⟩ : SubTile) (s.core c).prs.active.subs sub).data.getD (j * g.rowBytes + k) 0).toInt) g.k)⟩ : AccOut) ∈
      (streamPass s c tag d).2.accs := by
  obtain ⟨hf, hm, hk, hrow, he, hscaled, hc⟩ := geo_int8 hfmt
  rw [← hg] at hf hm hk hrow he hscaled hc
  rw [streamPass_sound hg hscaled (by rw [hf]; rfl) h]
  have hw : (r, sub / g.c) ∈ (List.range d.m).flatMap (fun i => (bandsOf g d.submask).map (fun rb => (i, rb))) :=
    List.mem_flatMap.2 ⟨r, List.mem_range.2 hr, List.mem_map.2 ⟨_, sub_in_band hc hmask hsub, rfl⟩⟩
  refine mem_foldl_of_mem (acc := PassOut.accs) (bandRow_mono _ g tag d _ _) hw (fun o => ?_) _
  have hin : sub ∈ (subList d.submask).filter (fun x => x / g.c == sub / g.c) := List.mem_filter.2 ⟨hsub, beq_self_eq_true _⟩
  refine mem_foldl_of_mem (acc := PassOut.accs) (fun o a => List.subset_append_left _ _) hin (fun o => ?_) o
  rw [subRow_accs, hf]
  refine List.mem_append_right _ (List.mem_iff_getElem?.2 ⟨j, ?_⟩)
  rw [List.getElem?_mapIdx, rowResult_int8 hf hm hk hrow (he.trans heen) hj]
  simp only [Option.map_some]
  rw [dotInt_congr fun k hk => ?_]
  simp [spBytes, hrow, hk]

/-- Settles O17: an INT8 stream without escapes forms, in each row of each named sub-tile, the sums of products. -/
theorem anInt8StreamIsAMatrixProduct : Obligations.AnInt8StreamIsAMatrixProduct := by
  unfold Obligations.AnInt8StreamIsAMatrixProduct
  intro s c i d x f g hr hx hi hset hf hmay hfmt heen hg hsound
  subst hx
  obtain ⟨t, he, u, hu, rfl⟩ := engRow_issuable (P := fun t => ∃ u, Handed s u c ⟨i, .press (.pstream d)⟩ ∧ t = pressNext u c) hr hi
    fun u hu => ⟨u, hu, rfl⟩
  have hprs : ((wantRamp u c).core c).prs = { (s.core c).prs with want := ((wantRamp u c).core c).prs.want } := by
    rw [wantRamp_prs, hu.prs]
  obtain ⟨upd, hupd, hmem, hrec, -⟩ := pressNext_begins_last hu.engFlights (by rw [hu.prs]; exact hset) rfl
    (by rw [hu.prs, ← hf]; subst hf; exact hmay)
  have hpress : pressOf f = some (.pstream d) := by rw [hf]; rfl
  have hconf : ∀ k ∈ engFlights (s.core c) 0, isConf k = false := by
    intro k hk
    rw [mayBegin, hpress, Bool.and_eq_true] at hmay
    have := List.all_eq_true.1 hmay.2 k hk
    simp only [Bool.and_eq_true, Bool.not_eq_true'] at this
    exact this.1.1.2
  have hmask : maskBad g d.submask = false := by
    have hno : pressRefuse (s.core c) (.pstream d) = none := hi.1
    rw [hg, ← pressView_conf hconf]
    exact maskBad_of_stream hno
  have hspd : ((wantRamp u c).core c).spd = (s.core c).spd := by rw [wantRamp_spd, hu.core]; rfl
  have hmarks : (wantRamp u c).marks = s.marks := by
    rw [(wantRamp_frame u c).1.marks, hu.only.marks]
  have hact : ((wantRamp u c).core c).prs.active = (s.core c).prs.active := by rw [hprs]
  have hwmem : (wantRamp u c).mem = s.mem := (wantRamp_mem u c).trans hu.mem
  refine ⟨_, _, (exec_pressInstr s c i (.pstream d)).trans he, hmem, ?_, hupd.begun _, fun sub hsub r hr' j hj => ?_⟩
  · rw [hf]
    exact (hupd.same _).1
  · have hg' : g = geo ((wantRamp u c).core c).prs.conf := by rw [hprs]; exact hg
    have hout := streamPass_int8 (s := wantRamp u c) (c := c) (tag := i.tag.val) hg' (by rw [hprs]; exact hfmt) (by rw [hprs]; exact heen)
      hmask (fun sub hs r hr => sound_congr hspd hmarks (hsound sub hs r hr)) hsub hr' hj
    rw [hrec d rfl]
    simp only [hact, spByte, spKey_congr hspd, hwmem] at hout
    exact hout

end Sys2Proof.Machine
end

/-! SUPPORT. The end of engine 7's commands (Sys2Proof.Obligations O37). -/
section

namespace Sys2Proof.Machine

/-! ### What the completion of a command and the setting of a flag leave alone -/

/-- R190: a command that leaves its engine with an error sets the ERR bit of its tag. -/
theorem finishFlight_tagErr (k : Core) (f : Flight) (err : Bool) : (finishFlight k f err).ctl.tagErr =
    if err then k.ctl.tagErr ||| BitVec.ofNat 32 (2 ^ f.iss.tag.val) else k.ctl.tagErr := by
  rw [finishFlight]
  obtain ⟨blk, pc, hw⟩ := wakeTags_eq { sbRelease { k with flights := k.flights.filter (fun x => x.id != f.id) } f.id with
    ctl := if err then
        { (if f.iss.notag then k.ctl else { k.ctl with tagCnt := mset k.ctl.tagCnt f.iss.tag.val (tagCount k.ctl f.iss.tag.val - 1) }) with
          tagErr := (if f.iss.notag then k.ctl else
            { k.ctl with tagCnt := mset k.ctl.tagCnt f.iss.tag.val (tagCount k.ctl f.iss.tag.val - 1) }).tagErr |||
              BitVec.ofNat 32 (2 ^ f.iss.tag.val) }
      else if f.iss.notag then k.ctl else
        { k.ctl with tagCnt := mset k.ctl.tagCnt f.iss.tag.val (tagCount k.ctl f.iss.tag.val - 1) } }
  refine (congrArg (fun k => k.ctl.tagErr) hw).trans ?_
  cases err <;> cases f.iss.notag <;> rfl

theorem finishFlight_que (k : Core) (f : Flight) (err : Bool) : (finishFlight k f err).que = k.que := by
  obtain ⟨blk, pc, tagErr, he⟩ := finishFlight_eq k f err
  rw [he]

theorem finishFlight_spd (k : Core) (f : Flight) (err : Bool) : (finishFlight k f err).spd = k.spd := by
  obtain ⟨blk, pc, tagErr, he⟩ := finishFlight_eq k f err
  rw [he]

theorem finishFlight_flights (k : Core) (f : Flight) (err : Bool) :
    (finishFlight k f err).flights = k.flights.filter (fun x => x.id != f.id) := by
  obtain ⟨blk, pc, tagErr, he⟩ := finishFlight_eq k f err
  rw [he]

/-- A command has left when nothing but the control unit's progress, the flags and the counters differs from its completion. -/
theorem leaves_of_finish {s t : State} {c : Nat} {f : Flight} {k : Core} {err : Bool} (hk : k.ctl.tagCnt = (s.core c).ctl.tagCnt)
    (hfl : (t.core c).flights = (finishFlight k f err).flights) (hsb : (t.core c).sb = (finishFlight k f err).sb)
    (htag : (t.core c).ctl.tagCnt = (finishFlight k f err).ctl.tagCnt) : Leaves s t c f := by
  have h := leaves_finish (s := s) (u := modCore s c (fun _ => k)) (c := c) f err (by rw [core_modCore]; exact hk)
  rw [Leaves, core_modCore, core_modCore] at h
  rw [Leaves, hfl, hsb, tagCount, htag]
  exact h

/-- R190: the commands of an engine after one has left. -/
theorem engFlights_finish (k : Core) (f : Flight) (err : Bool) (e : Nat) :
    engFlights (finishFlight k f err) e = (engFlights k e).filter (fun x => x.id != f.id) := by
  rw [engFlights, finishFlight_flights, engFlights, List.filter_filter, List.filter_filter]
  exact List.filter_congr fun x _ => Bool.and_comm ..

/-- R231, R232: of core `c`, its flags change, and what an EVWAIT that goes on writes. -/
theorem setFlags_core (s : State) (c : Nat) (m : W64) : ∃ blk pc regs, (setFlags s c m).core c = { s.core c with
    que := { (s.core c).que with flags := (s.core c).que.flags ||| m }
    ctl := { (s.core c).ctl with blk := blk, pc := pc, regs := regs }
    cnt := ((setFlags s c m).core c).cnt } := by
  by_cases hw : ∃ d mask, (s.core c).ctl.st = .running ∧ (s.core c).ctl.blk = .evwait d mask ∧ ((s.core c).que.flags ||| m) &&& mask ≠ 0
  · obtain ⟨d, mask, hst, hblk, hm⟩ := hw
    obtain ⟨u, hu, he⟩ := setFlags_wakes hst hblk hm
    refine ⟨.none, (s.core c).ctl.pc + 4, ((s.core c).ctl.put d (((s.core c).que.flags ||| m) &&& mask)).regs, ?_⟩
    rw [he, core_modCtl, hu.core]
    simp only [withFlags, core_modQue, Ctl.put]
    split <;> rfl
  · have hu := setFlags_stands (s := s) (c := c) (m := m) fun hst d mask hblk => by
      by_contra hm
      exact hw ⟨d, mask, hst, hblk, hm⟩
    refine ⟨(s.core c).ctl.blk, (s.core c).ctl.pc, (s.core c).ctl.regs, ?_⟩
    conv_lhs => rw [hu.core]
    simp only [withFlags, core_modQue]

/-! ### The end of a command of engine 7 -/

/-- Engine 7 without a command does nothing. -/
theorem lockKick_idle {s : State} {c : Nat} (h : engFlights (s.core c) 7 = []) : lockKick s c = s := by
  rw [lockKick, h]

/-- The result record of an engine-7 command (Table 7.21). -/
def lockRecord (status : Nat) (val : W64) : Bytes := natBytes 8 val.toNat ++ natBytes 1 status ++ natBytes 7 0

theorem lockRecord_eq (status : Nat) (val : W64) : natBytes 8 val.toNat ++ natBytes 1 status ++ natBytes 7 0 = lockRecord status val := rfl

theorem lockRecord_length (status : Nat) (val : W64) : (lockRecord status val).length = 16 := by
  simp [lockRecord, natBytes_length]

/-- R251: what the end of the one command of engine 7 leaves, from a state `u` whose result record has been written. -/
theorem lockEnd_of_put {s : State} {c : Nat} {f : Flight} {op : LockOp} {d : LockDesc} (status : Nat) (val : W64)
    (hbody : f.body = .lock op d) (hfl : engFlights (s.core c) 7 = [f]) (hdet : f.memDetail = none) (hs : d.resv = true → Sound s c d.res 16) :
    ∃ u, Counted (if d.resv then spPuts s c d.res (lockRecord status val) else s) u c ∧ lockEnd s c f status val =
      (if d.eve then setFlags (modCore u c (fun k => finishFlight k f (status != 0 && status != 9))) c (BitVec.ofNat 64 (2 ^ d.evf))
        else modCore u c (fun k => finishFlight k f (status != 0 && status != 9))) := by
  have hput : (if d.resv then (spWrite s c d.res (lockRecord status val) 5).1 else s) =
      if d.resv then spPuts s c d.res (lockRecord status val) else s := by
    cases hr : d.resv
    · rfl
    · rw [if_pos rfl, if_pos rfl, spWrite_sound 5 (by rw [lockRecord_length]; exact hs hr)]
  generalize hp : (if d.resv then spPuts s c d.res (lockRecord status val) else s) = p at hput ⊢
  have hcore : p.core c = s.core c := by
    rw [← hp]
    split
    · exact core_spPuts s c d.res c _
    · rfl
  let w := queSample (.x f.pc) true d.lock c (if lockAway p d then d.ldev.toNat % 2 ^ 14 else p.devId) status 0
  obtain ⟨u, hu, heq⟩ : ∃ u, Counted p u c ∧ u = (if status = 0 then count p c 0x70 1 w else if status = 8 then count p c 0x71 1 w
      else if status = 9 then count p c 0x72 1 w else p) := by
    refine ⟨_, ?_, rfl⟩
    split
    · exact counted_count p c _ _
    · split
      · exact counted_count p c _ _
      · split
        · exact counted_count p c _ _
        · exact Counted.refl p c
  refine ⟨u, hu, ?_⟩
  have hidle : engFlights (finishFlight (u.core c) f (status != 0 && status != 9)) 7 = [] := by
    rw [engFlights_finish, hu.engFlights, hcore, hfl]
    simp
  simp only [lockEnd, hbody, lockRecord_eq, hput]
  rw [← heq, complete_of_none u c _ hdet]
  refine lockKick_idle ?_
  split
  · obtain ⟨blk, pc, regs, he⟩ := setFlags_core (modCore u c (fun k => finishFlight k f (status != 0 && status != 9))) c
      (BitVec.ofNat 64 (2 ^ d.evf))
    rw [he, core_modCore]
    exact hidle
  · rw [core_modCore]
    exact hidle

theorem curLock_body {s : State} {c : Nat} {f : Flight} {op : LockOp} {d : LockDesc} (h : curLock s c = some (f, op, d)) :
    f.body = .lock op d := by
  rw [curLock] at h
  split at h
  · split at h
    · next hb =>
      split at h
      · cases h
        exact hb
      · cases h
    · cases h
  · cases h

/-- R251: a reply of the lock unit, or of an atomic's target, ends the command. -/
theorem exec_reply {s : State} {c : Nat} {f : Flight} {op : LockOp} {d : LockDesc} {i : Instr} {status : Nat} {val : W64} {st : Nat}
    {v : W64} (hcur : curLock s c = some (f, op, d))
    (hi : i = (if isAtomicOp op then .atomicReplyArrive c status val else .lockReplyArrive c status val))
    (hv : if (if isAtomicOp op then isRemote d.addr && remoteDev d.addr != s.devId else lockAway s d) then st = status ∧ v = val
      else s.lockReplies.find? (fun r => r.core == c) = some ⟨c, st, v⟩) :
    ∃ l, exec i s = .next (lockEnd { s with lockReplies := l } c f st v) := by
  subst hi
  cases ha : isAtomicOp op
  · change ∃ l, execLockReplyArrive c status val s = _
    simp only [ha, Bool.false_eq_true, if_false] at hv
    simp only [execLockReplyArrive, hcur, ha, Bool.false_eq_true, if_false]
    cases haway : lockAway s d
    · rw [haway, if_neg Bool.false_ne_true] at hv
      exact ⟨_, by simp only [takeReply, hv, Bool.false_eq_true, if_false]; rfl⟩
    · rw [haway, if_pos rfl] at hv
      obtain ⟨rfl, rfl⟩ := hv
      exact ⟨s.lockReplies, rfl⟩
  · change ∃ l, execAtomicReplyArrive c status val s = _
    simp only [ha, if_true] at hv
    simp only [execAtomicReplyArrive, hcur, ha, Bool.not_true, Bool.false_eq_true, if_false]
    cases haway : isRemote d.addr && remoteDev d.addr != s.devId
    · rw [haway, if_neg Bool.false_ne_true] at hv
      exact ⟨_, by simp only [takeReply, hv, Bool.false_eq_true, if_false]; rfl⟩
    · rw [haway, if_pos rfl] at hv
      obtain ⟨rfl, rfl⟩ := hv
      exact ⟨s.lockReplies, rfl⟩

theorem getLsbD_or_tag (e : BitVec 32) (t : Fin 32) : (e ||| BitVec.ofNat 32 (2 ^ t.val)).getLsbD t.val = true := by
  rw [BitVec.getLsbD_or, BitVec.getLsbD_ofNat, Nat.testBit_two_pow_self, decide_eq_true t.isLt]
  simp

theorem spPuts_lockReplies (s : State) (c off : Nat) (bs : Bytes) (l : List LockReply) :
    spPuts { s with lockReplies := l } c off bs = { spPuts s c off bs with lockReplies := l } := by
  induction bs generalizing s off with
  | nil => rfl
  | cons b bs ih => exact ih (spPut s c off b) (off + 1)

/-- What an event flag that a command asks for leaves. -/
theorem flagged (s : State) (c : Nat) (eve : Bool) (m : W64) : ∃ t, (if eve then setFlags s c m else s) = t ∧
    ∃ blk pc regs, t.core c = { s.core c with
      que := { (s.core c).que with flags := if eve then (s.core c).que.flags ||| m else (s.core c).que.flags }
      ctl := { (s.core c).ctl with blk := blk, pc := pc, regs := regs }
      cnt := (t.core c).cnt } ∧ OnlyCore s t c := by
  cases eve
  · exact ⟨_, rfl, (s.core c).ctl.blk, (s.core c).ctl.pc, (s.core c).ctl.regs, rfl, rfl, fun _ _ => rfl⟩
  · obtain ⟨blk, pc, regs, h⟩ := setFlags_core s c m
    exact ⟨_, rfl, blk, pc, regs, h, (setFlags_effect s c m).2.1⟩

/-- Settles O37: a reply completes the command of engine 7, with its record, its event flag and its ERR bit. -/
theorem lockAndAtomicRepliesComplete : Obligations.LockAndAtomicRepliesComplete := by
  unfold Obligations.LockAndAtomicRepliesComplete
  intro s c f op d i status val st v hm hcur hfl hdet hi hin hsound hv
  obtain ⟨l, hexec⟩ := exec_reply hcur hi hv
  obtain ⟨u, hu, hend⟩ := lockEnd_of_put (s := { s with lockReplies := l }) st v (curLock_body hcur) hfl hdet fun _ => hsound
  generalize hp : (if d.resv then spPuts { s with lockReplies := l } c d.res (lockRecord st v) else { s with lockReplies := l }) = p at hu
  have hcores : ∀ k, p.core k = s.core k := by
    intro k
    rw [← hp]
    split
    · exact core_spPuts _ c d.res k _
    · rfl
  have hpmem : p.mem = if d.resv then (spPuts s c d.res (lockRecord st v)).mem else s.mem := by
    rw [← hp]
    split
    · rw [spPuts_lockReplies]
    · rfl
  obtain ⟨t, ht, blk, pc, regs, hcore, honly⟩ := flagged (modCore u c (fun k => finishFlight k f (st != 0 && st != 9))) c d.eve
    (BitVec.ofNat 64 (2 ^ d.evf))
  rw [core_modCore] at hcore
  have hmem : t.mem = p.mem := honly.mem.trans hu.mem
  have hctl : (u.core c).ctl = (s.core c).ctl := by rw [hu.ctl, hcores]
  have hque : (u.core c).que = (s.core c).que := by rw [hu.que, hcores]
  have hspd : (t.core c).spd = (s.core c).spd := by rw [hcore, finishFlight_spd, hu.spd, hcores]
  refine ⟨t, by rw [hexec, hend, ht], ?_, fun k hk => ?_, fun hr => ?_, fun hr => ?_, ?_, ?_⟩
  · exact leaves_of_finish (k := u.core c) (err := st != 0 && st != 9) (by rw [hctl]) (by rw [hcore]) (by rw [hcore]) (by rw [hcore])
  · rw [honly.2 k hk, core_modCore_ne _ _ hk, hu.others k hk, hcores]
  · rw [hr, if_pos rfl] at hpmem
    refine ⟨?_, fun x hx => ?_⟩
    · have hbytes := spBytes_spPuts s c d.res (lockRecord st v) hm (by rw [lockRecord_length]; exact hin)
      rw [lockRecord_length] at hbytes
      rw [spBytes_congr (s := spPuts s c d.res (lockRecord st v)) (hspd.trans (by rw [core_spPuts])) (hmem.trans hpmem), hbytes]
      rfl
    · rw [hmem, hpmem]
      exact spPuts_frame s c d.res (lockRecord st v) hm x (by rw [lockRecord_length]; exact hx)
  · rw [hmem, hpmem, hr, if_neg Bool.false_ne_true]
  · rw [hcore, finishFlight_que, hque]
  · rw [hcore]
    simp only [finishFlight_tagErr, hctl]
    by_cases h0 : st = 0
    · simp [h0]
    · by_cases h9 : st = 9
      · simp [h9]
      · simp only [bne_iff_ne.2 h0, bne_iff_ne.2 h9, Bool.and_self, if_true, getLsbD_or_tag]
        simp [h0, h9]

end Sys2Proof.Machine
end

/-! SUPPORT. Commands of engine 7 are queued and begin (Sys2Proof.Obligations O34). -/
section

namespace Sys2Proof.Machine

theorem exec_lockTable {p : (Nat → Issue → LockDesc → Instr) × LockOp} (hp : p ∈ lockTable) (s : State) (c : Nat) (i : Issue)
    (d : LockDesc) : exec (p.1 c i d) s = .next (engRow s c i (.lock p.2 d)) := by
  simp only [lockTable, List.mem_cons, List.not_mem_nil, or_false] at hp
  obtain rfl | rfl | rfl | rfl | rfl | rfl | rfl | rfl | rfl | rfl := hp <;> rfl

/-- A command changed in place, its body standing, is changed in its engine's list. -/
theorem engFlights_modFlight {k : Core} {id : Nat} {g : Flight → Flight} (h : ∀ f, (g f).body = f.body) (e : Nat) :
    engFlights (modFlight k id g) e = (engFlights k e).map (fun f => if f.id == id then g f else f) := by
  rw [engFlights, modFlight, List.filter_map, engFlights]
  congr 1
  refine List.filter_congr fun f _ => ?_
  rw [Function.comp]
  split
  · rw [h]
  · rfl

/-- An engine that has begun its command has issued it. -/
theorem issued_of_same {s u t : State} {c : Nat} {x : XCmd} (h : Issued s u c x) (hn : (t.core c).nextId = (u.core c).nextId)
    (hctl : (t.core c).ctl = (u.core c).ctl) : Issued s t c x := by
  obtain ⟨hid, htag, hrg, hgo⟩ := h
  refine ⟨hn.trans hid, by rw [hctl, htag], fun r => ?_, ?_⟩
  · rw [rg, hctl, ← rg, hrg]
  · rw [GoesTo, hctl]
    exact hgo

/-- Engine 7 with a command under way does nothing. -/
theorem lockKick_busy {s : State} {c : Nat} {f : Flight} {fs : List Flight} (h : engFlights (s.core c) 7 = f :: fs) (hb : f.begun = true) :
    lockKick s c = s := by
  rw [lockKick, h]
  exact if_pos hb

theorem OnlyCore.out {s t : State} {c : Nat} (h : OnlyCore s t c) : t.out = s.out := by rw [← h.1]
theorem OnlyCore.devId {s t : State} {c : Nat} (h : OnlyCore s t c) : t.devId = s.devId := by rw [← h.1]
theorem OnlyCore.groups {s t : State} {c : Nat} (h : OnlyCore s t c) : t.groups = s.groups := by rw [← h.1]

/-- R251: what leaves as a command of engine 7 begins. -/
def lockOut (s : State) (c : Nat) (op : LockOp) (d : LockDesc) : List Output :=
  if isAtomicOp op then
    (if isRemote d.addr && remoteDev d.addr != s.devId then
      [.toDev { devPkt s (partNum s c) c 3 (remoteDev d.addr) (remoteAddr d.addr) with
          subop := BitVec.ofNat 8 (lockOpCode op), wtag := d.wtag, opnd := d.opnd, cmpv := d.cmpv } (if d.w64 then 8 else 4)]
    else [])
  else if lockAway s d then
    [.toDev { devPkt s (partNum s c) c 7 (d.ldev.toNat % 2 ^ 14) d.lock with subop := BitVec.ofNat 8 (lockOpCode op) } 0]
  else []

theorem lockOut_congr {s t : State} {c : Nat} (hd : t.devId = s.devId) (ho : t.out = s.out) (hg : t.groups = s.groups) (op : LockOp)
    (d : LockDesc) : lockOut t c op d = lockOut s c op d := by
  have hp : partNum t c = partNum s c := by rw [partNum, partNum, partOf, partOf, State.grp, State.grp, hg]
  have hpkt : ∀ opc dev addr, devPkt t (partNum t c) c opc dev addr = devPkt s (partNum s c) c opc dev addr := by
    intro opc dev addr
    rw [hp, devPkt, devPkt, hd, ho]
  have haway : lockAway t d = lockAway s d := by rw [lockAway, lockAway, hd]
  rw [lockOut, lockOut, haway, hd]
  simp only [hpkt]

theorem atomic_sends {s : State} (c : Nat) {op : LockOp} (d : LockDesc) (ha : isAtomicOp op = true) :
    (sendRemote s c d.addr 3 (if d.w64 then 8 else 4) (fun k =>
      { k with subop := BitVec.ofNat 8 (lockOpCode op), wtag := d.wtag, opnd := d.opnd, cmpv := d.cmpv })).out =
        s.out ++ lockOut s c op d := by
  rw [sendRemote, lockOut, if_pos ha]
  split
  · rfl
  · exact (List.append_nil _).symm

theorem lock_sends {s : State} (c : Nat) {op : LockOp} (d : LockDesc) (ha : isAtomicOp op = false) :
    (if lockAway s d then emit s (.toDev { devPkt s (partNum s c) c 7 (d.ldev.toNat % 2 ^ 14) d.lock with
      subop := BitVec.ofNat 8 (lockOpCode op) } 0) else s).out = s.out ++ lockOut s c op d := by
  rw [lockOut, ha, if_neg Bool.false_ne_true]
  split
  · rfl
  · exact (List.append_nil _).symm

/-- R251: the only command of engine 7 begins. -/
theorem lockKick_begins {s : State} {c : Nat} {f : Flight} {op : LockOp} {d : LockDesc} (hfl : engFlights (s.core c) 7 = [f])
    (hb : f.begun = false) (hbody : f.body = .lock op d) :
    (lockKick s c).out = s.out ++ lockOut s c op d ∧ (lockKick s c).mem = s.mem ∧ (∀ k, k ≠ c → (lockKick s c).core k = s.core k) ∧
      ∃ cnt, (lockKick s c).core c = { modFlight (s.core c) f.id (fun f => { f with begun := true }) with cnt := cnt } := by
  have honly := onlyCore_modCore s c (fun k => modFlight k f.id (fun f => { f with begun := true }))
  have hcore : (modCore s c (fun k => modFlight k f.id (fun f => { f with begun := true }))).core c =
      modFlight (s.core c) f.id (fun f => { f with begun := true }) := core_modCore ..
  generalize hu : modCore s c (fun k => modFlight k f.id (fun f => { f with begun := true })) = u at hcore honly
  have hv := counted_count u c 0x74 1 (w := queSample (.x f.pc) false 0 0 0 0 0)
  suffices h : ∃ v, OnlyCore s v c ∧ (∃ cnt, v.core c = { modFlight (s.core c) f.id (fun f => { f with begun := true }) with cnt := cnt }) ∧
      Shows v (lockKick s c) ∧ (lockKick s c).out = v.out ++ lockOut v c op d by
    obtain ⟨v, hsv, hcv, hshow, hout⟩ := h
    refine ⟨?_, hshow.mem.trans hsv.mem, fun k hk => (hshow.core k).trans (hsv.2 k hk), ?_⟩
    · rw [hout, hsv.out, lockOut_congr hsv.devId hsv.out hsv.groups]
    · rw [hshow.core]
      exact hcv
  simp only [lockKick, hfl, hb, Bool.false_eq_true, if_false, hbody, hu]
  cases ha : isAtomicOp op
  · rw [if_neg Bool.false_ne_true]
    refine ⟨u, honly, ⟨_, hcore⟩, ?_, lock_sends c d ha⟩
    split
    · exact shows_emit u _
    · exact Shows.refl u
  · rw [if_pos rfl]
    refine ⟨count u c 0x74 1 (queSample (.x f.pc) false 0 0 0 0 0), honly.trans hv.onlyCore,
      ⟨((count u c 0x74 1 (queSample (.x f.pc) false 0 0 0 0 0)).core c).cnt, ?_⟩, shows_sendRemote _ _ _ _ _ _, atomic_sends c d ha⟩
    conv_lhs => rw [hv.core, hcore]

/-- Settles O34: commands of engine 7 wait behind one another, and an idle engine begins them. -/
theorem lockAndAtomicCommandsBegin : Obligations.LockAndAtomicCommandsBegin := by
  unfold Obligations.LockAndAtomicCommandsBegin
  intro p hp s c i d x hr hx
  subst hx
  refine ⟨fun hi ⟨g, gs, hg, hb⟩ => ?_, fun hi hidle => ?_, engRow_refusedOrHeld hr (exec_lockTable hp s c i d)⟩
  · rw [exec_lockTable hp]
    refine engRow_issuable hr hi fun u hu => ?_
    have hbusy : engFlights (u.core c) 7 = g :: (gs ++ [_]) := (hu.engFlights).trans (by rw [show engOf _ = 7 from rfl, hg]; rfl)
    rw [engKick, lockKick_busy hbusy hb]
    exact ⟨hu.queued, hu.mem, hu.only⟩
  · rw [exec_lockTable hp]
    refine engRow_issuable hr hi fun u hu => ?_
    have hone : engFlights (u.core c) 7 = [newFlight (s.core c).nextId ((s.core c).ctl.pc.toNat % 2 ^ 21) ⟨i, .lock p.2 d⟩] :=
      (hu.engFlights).trans (by rw [show engOf _ = 7 from rfl, hidle]; rfl)
    obtain ⟨hout, hmem, hothers, cnt, hcore⟩ := lockKick_begins hone rfl rfl
    refine ⟨⟨issued_of_same hu.issued ?_ ?_, ?_⟩, hmem.trans hu.mem, fun k hk => (hothers k hk).trans (hu.only.2 k hk), ?_⟩
    · rw [engKick, hcore]
      rfl
    · rw [engKick, hcore]
      rfl
    · rw [engKick, hcore]
      refine (engFlights_modFlight (k := u.core c) (g := fun f => { f with begun := true }) (fun _ => rfl) 7).trans ?_
      rw [hone]
      simp
    · rw [engKick, hout, hu.only.out, lockOut_congr hu.only.devId hu.only.out hu.only.groups]
      rfl

end Sys2Proof.Machine
end

/-! SUPPORT. Requests at a lock unit (Sys2Proof.Obligations O35). -/
section

namespace Sys2Proof.Machine

@[simp] theorem lock_setLock (s : State) (i : Nat) (l : Lock) : (setLock s i l).lock i = l := mget_mset _ _ _ _

theorem lock_setLock_ne (s : State) {i j : Nat} (l : Lock) (h : j ≠ i) : (setLock s i l).lock j = s.lock j := mget_mset_ne _ _ _ h

@[simp] theorem lock_lockReply (s : State) (who : LockWho) (status : Nat) (v : W64) (j : Nat) :
    (lockReply s who status v).lock j = s.lock j := by
  rw [lockReply]
  split <;> rfl

/-- R246, R247: what a lock that passes on becomes. -/
theorem lockPass_lock (s : State) (i status : Nat) (st : LockState) : (lockPass s i status st).lock i =
    match (s.lock i).waiters with
    | [] => ⟨st, []⟩
    | w :: ws => ⟨.held w, ws⟩ := by
  cases hw : (s.lock i).waiters with
  | nil => simp only [lockPass, hw, lock_setLock]
  | cons w ws => simp only [lockPass, hw, lock_lockReply, lock_setLock]

theorem lockPass_lock_ne (s : State) {i j : Nat} (status : Nat) (st : LockState) (h : j ≠ i) :
    (lockPass s i status st).lock j = s.lock j := by
  rw [lockPass]
  dsimp only
  split
  · exact lock_setLock_ne _ _ h
  · rw [lock_lockReply]
    exact lock_setLock_ne _ _ h

theorem lockPass_log (s : State) (i status : Nat) (st : LockState) :
    (lockPass s i status st).wake = s.wake ∧ (lockPass s i status st).logBuf = s.logBuf := by
  rw [lockPass]
  dsimp only
  split
  · exact ⟨rfl, rfl⟩
  · rw [lockReply]
    split <;> exact ⟨rfl, rfl⟩

/-- One sound request of one requester is one operation of the lock. -/
theorem exec_lockRequest {s : State} {i : Nat} {r : LockReq} (hi : i < 3072) (hreal : lockReqReal s i r = true) :
    exec (.lockRequestArrive i ⟨false, [r]⟩) s = .next (lockOp s i r) := by
  change execLockRequestArrive i ⟨false, [r]⟩ s = _
  cases hk : r.kind <;> simp [execLockRequestArrive, hi, hk, hreal]

/-- R245: a request that the lock's partition shuts out. -/
theorem lockOp_denied {s : State} {i : Nat} {r : LockReq} (hk : r.kind ≠ .notice) (h : lockAdmits s i r = false) :
    lockOp s i r = lockReply s ⟨r.dev, r.core, r.part⟩ 3 (lockWord (s.lock i)) := by
  rw [lockOp]
  cases hkk : r.kind
  case notice => exact absurd hkk hk
  all_goals simp only [h, Bool.not_false, if_true]

/-- Table 7.10: an ACQ or a TRY that is admitted. -/
theorem lockOp_ask {s : State} {i : Nat} {r : LockReq} (hk : r.kind = .acq ∨ r.kind = .try_) (h : lockAdmits s i r = true) :
    lockOp s i r = match (s.lock i).st with
      | .free => lockReply (setLock s i ⟨.held ⟨r.dev, r.core, r.part⟩, (s.lock i).waiters⟩) ⟨r.dev, r.core, r.part⟩ 0
          (lockWord ⟨.held ⟨r.dev, r.core, r.part⟩, (s.lock i).waiters⟩)
      | .abandoned => lockReply (setLock s i ⟨.held ⟨r.dev, r.core, r.part⟩, (s.lock i).waiters⟩) ⟨r.dev, r.core, r.part⟩ 8
          (lockWord ⟨.held ⟨r.dev, r.core, r.part⟩, (s.lock i).waiters⟩)
      | .held o =>
        if o.dev == r.dev && o.core == r.core then lockReply s ⟨r.dev, r.core, r.part⟩ 0x0D (lockWord (s.lock i))
        else if r.kind = .acq then
          if r.dev = s.devId ∧ ((s.core r.core).ctl.st = .halted ∨ (s.core r.core).ctl.st = .faulted) then
            (match engFlights (s.core r.core) 7 with
              | f :: _ => discardFlight s r.core f
              | [] => s)
          else setLock s i ⟨(s.lock i).st, (s.lock i).waiters ++ [⟨r.dev, r.core, r.part⟩]⟩
        else lockReply s ⟨r.dev, r.core, r.part⟩ 9 (lockWord (s.lock i)) := by
  rw [lockOp]
  obtain hk | hk := hk
  · simp only [hk, h, Bool.not_true, Bool.false_eq_true, if_false, if_true]
    cases (s.lock i).st with
    | free => rfl
    | abandoned => rfl
    | held o =>
      refine if_congr Iff.rfl rfl (if_congr ?_ rfl rfl)
      cases (s.core r.core).ctl.st <;> simp
  · simp only [hk, h, Bool.not_true, Bool.false_eq_true, if_false, reduceCtorEq] <;> cases (s.lock i).st <;> rfl

/-- Table 7.10: a release that is admitted. -/
theorem lockOp_rel {s : State} {i : Nat} {r : LockReq} (hk : r.kind = .rel) (h : lockAdmits s i r = true) :
    lockOp s i r = match (s.lock i).st with
      | .held o =>
        if o.dev == r.dev && o.core == r.core then
          lockReply (lockPass s i 0 .free) ⟨r.dev, r.core, r.part⟩ 0 (lockWord ((lockPass s i 0 .free).lock i))
        else lockReply s ⟨r.dev, r.core, r.part⟩ 0x0A (lockWord (s.lock i))
      | _ => lockReply s ⟨r.dev, r.core, r.part⟩ 0x0A (lockWord (s.lock i)) := by
  rw [lockOp]
  simp only [hk, h, Bool.not_true, Bool.false_eq_true, if_false] <;> cases (s.lock i).st <;> rfl

/-- R247: a reset notice. -/
theorem lockOp_notice {s : State} {i : Nat} {r : LockReq} (hk : r.kind = .notice) :
    lockOp s i r = match (s.lock i).st with
      | .held o =>
        if o.dev == r.dev && o.core == r.core then
          lockAbandon (setLock s i ⟨(s.lock i).st, (s.lock i).waiters.filter (fun o => !(o.dev == r.dev && o.core == r.core))⟩) i
        else setLock s i ⟨(s.lock i).st, (s.lock i).waiters.filter (fun o => !(o.dev == r.dev && o.core == r.core))⟩
      | _ => setLock s i ⟨(s.lock i).st, (s.lock i).waiters.filter (fun o => !(o.dev == r.dev && o.core == r.core))⟩ := by
  rw [lockOp]
  simp only [hk] <;> cases (s.lock i).st <;> rfl

theorem discardFlight_locks (s : State) (c : Nat) (f : Flight) : (discardFlight s c f).locks = s.locks := rfl

/-- Settles O35: what a lock unit does with one request of each kind, and with a parity error. -/
theorem lockUnitsServeRequests : Obligations.LockUnitsServeRequests := by
  unfold Obligations.LockUnitsServeRequests
  intro s i r who l hi hreal hwho hl
  subst hwho hl
  rw [exec_lockRequest hi hreal]
  have hnot : ∀ o : LockWho, o.dev ≠ r.dev ∨ o.core ≠ r.core → (o.dev == r.dev && o.core == r.core) = false := by
    intro o ho
    rw [Bool.and_eq_false_iff]
    exact ho.imp beq_eq_false_iff_ne.2 beq_eq_false_iff_ne.2
  have hsame : ∀ o : LockWho, o.dev = r.dev → o.core = r.core → (o.dev == r.dev && o.core == r.core) = true := by
    intro o hd hc
    rw [hd, hc, beq_self_eq_true, beq_self_eq_true]
    rfl
  refine ⟨fun hk hno => by rw [lockOp_denied hk hno], fun hk hadm => ?ask, fun hk hadm => ?rel, fun hk => ?notice, ?parity⟩
  case ask =>
    rw [lockOp_ask hk hadm]
    refine ⟨fun hst => by rw [hst], fun hst => by rw [hst], fun o hst hne => ⟨fun hk hrun => ?_, fun hk hdev hstop => ?_, fun hk => ?_⟩,
      fun o hst hdev hcore => by rw [hst]; exact congrArg Host.Outcome.next (if_pos (hsame o hdev hcore))⟩
    · simp only [hst, hnot o hne, Bool.false_eq_true, if_false, hk, if_true]
      rw [if_neg]
      rintro ⟨hd, hs⟩
      obtain hd' | ⟨h1, h2⟩ := hrun
      · exact hd' hd
      · exact hs.elim h1 h2
    · simp only [hst, hnot o hne, Bool.false_eq_true, if_false, hk, if_true]
      rw [if_pos ⟨hdev, hstop⟩]
      split
      · exact ⟨_, rfl, discardFlight_locks _ _ _⟩
      · exact ⟨_, rfl, rfl⟩
    · simp only [hst, hnot o hne, Bool.false_eq_true, if_false, hk, reduceCtorEq]
  case rel =>
    rw [lockOp_rel hk hadm]
    refine ⟨fun o hst hdev hcore => ⟨fun hw => ?_, fun w ws hw => ?_⟩, fun hne => ?_⟩
    · simp only [hst, hsame o hdev hcore, if_true, hw, lockPass, lock_setLock]
    · simp only [hst, hsame o hdev hcore, if_true, hw, lockPass, lock_lockReply, lock_setLock]
    · cases hst : (s.lock i).st with
      | held o => simp only [hnot o (hne o hst), Bool.false_eq_true, if_false]
      | _ => rfl
  case notice =>
    rw [lockOp_notice hk]
    have hwait : ∀ w ∈ (s.lock i).waiters.filter (fun o => !(o.dev == r.dev && o.core == r.core)),
        w ∈ (s.lock i).waiters ∧ ¬(w.dev = r.dev ∧ w.core = r.core) := by
      intro w hw
      obtain ⟨hin, hns⟩ := List.mem_filter.1 hw
      refine ⟨hin, ?_⟩
      rintro ⟨hd, hc⟩
      simp [hd, hc] at hns
    generalize hF : (s.lock i).waiters.filter (fun o => !(o.dev == r.dev && o.core == r.core)) = ws at hwait
    by_cases howner : ∃ o, (s.lock i).st = .held o ∧ o.dev = r.dev ∧ o.core = r.core
    · obtain ⟨o, hst, hd, hc⟩ := howner
      simp only [hst, hsame o hd hc, if_true]
      refine ⟨_, rfl, fun j hj => ?_, ?_, ?_, fun o' _ _ _ hall => ?_⟩
      · rw [lockAbandon, lockPass_lock_ne _ _ _ hj, lock_setLock_ne _ _ hj]
      · rw [lockAbandon, lockPass_lock, lock_setLock]
        cases ws with
        | nil => nofun
        | cons w ws => exact fun x hx => hwait x (List.mem_cons_of_mem _ hx)
      · rw [lockAbandon, lockPass_lock, lock_setLock]
        cases ws with
        | nil => nofun
        | cons w ws =>
          intro x hx
          cases hx
          exact (hwait w List.mem_cons_self).2
      · have hnil : ws = [] := List.eq_nil_iff_forall_not_mem.2 fun w hw => (hwait w hw).2 (hall w (hwait w hw).1)
        rw [lockAbandon, lockPass_lock, lock_setLock, hnil]
    · have hkeep : ∀ t u : State, (match (s.lock i).st with
          | .held o => if o.dev == r.dev && o.core == r.core then t else u
          | _ => u) = u := by
        intro t u
        cases hst : (s.lock i).st with
        | held o =>
          refine if_neg fun h => howner ⟨o, hst, ?_⟩
          simpa using h
        | _ => rfl
      refine ⟨_, congrArg Host.Outcome.next (hkeep _ _), fun j hj => lock_setLock_ne _ _ hj, ?_, ?_, fun o hst hd hc => ?_⟩
      · rw [lock_setLock]
        exact hwait
      · rw [lock_setLock]
        exact fun o hst h => howner ⟨o, hst, h⟩
      · exact absurd ⟨o, hst, hd, hc⟩ howner
  case parity =>
    have he : exec (.lockRequestArrive i ⟨true, []⟩) s =
        .next (raiseErr (lockAbandon s i) 0x000B 8 i (lockOwnerOf s i) (s.field (i / 256)).echo []) := by
      change execLockRequestArrive i ⟨true, []⟩ s = _
      simp [execLockRequestArrive, hi]
    have hr := logged_raiseErr (code := 0x000B) (by decide) (lockAbandon s i) 8 i (lockOwnerOf s i) (s.field (i / 256)).echo []
    have hlock : ∀ j, (raiseErr (lockAbandon s i) 0x000B 8 i (lockOwnerOf s i) (s.field (i / 256)).echo []).lock j =
        (lockAbandon s i).lock j := by
      intro j
      rw [hr]
      rfl
    refine ⟨_, he, fun j hj => ?_, fun hw => ?_, fun w ws hw => ?_, ?_⟩
    · rw [hlock, lockAbandon, lockPass_lock_ne _ _ _ hj]
    · rw [hlock, lockAbandon, lockPass_lock, hw]
    · rw [hlock, lockAbandon, lockPass_lock, hw]
    · obtain ⟨hwake, hlog⟩ := lockPass_log s i 8 .abandoned
      exact (logGets_raiseErr (code := 0x000B) (by decide) (by decide) _ _ _ _ _ _).of_same hwake hlog

end Sys2Proof.Machine
end

/-! SUPPORT. Atomics at their target (Sys2Proof.Obligations O36). -/
section

namespace Sys2Proof.Machine

theorem leNat_natBytes (n v : Nat) : leNat (natBytes n v) = v % 256 ^ n := by
  induction n generalizing v with
  | zero => simp [natBytes, leNat, Nat.mod_one]
  | succ n ih =>
    rw [natBytes, leNat, ih, BitVec.toNat_ofNat, show 256 ^ (n + 1) = 256 * 256 ^ n from Nat.pow_succ', Nat.mod_mul]

/-- R249, Table 7.12: the new word, for either size. -/
theorem atomicNew_eq {p : LockOp × ((w : Nat) → BitVec w → BitVec w → BitVec w → BitVec w)} (hp : p ∈ atomicTable) {w64 : Bool}
    {w old opnd cmpv : Nat} (hw : w = if w64 then 64 else 32) {o x k : BitVec w} (ho : old % 2 ^ w = o.toNat)
    (hx : opnd % 2 ^ w = x.toNat) (hk : cmpv % 2 ^ w = k.toNat) : atomicNew p.1 w64 old opnd cmpv = (p.2 w o x k).toNat := by
  have hpos : 0 < w := by rw [hw]; cases w64 <;> decide
  have htwo : 2 ^ w = 2 * 2 ^ (w - 1) := by
    rw [← Nat.pow_succ', Nat.succ_eq_add_one, Nat.sub_add_cancel hpos]
  have hsg : ∀ v : BitVec w, (if 2 ^ (w - 1) ≤ v.toNat then ((v.toNat : Nat) : Int) - ((2 ^ w : Nat) : Int) else (v.toNat : Int)) = v.toInt := by
    intro v
    rw [BitVec.toInt_eq_toNat_cond]
    by_cases h : 2 ^ (w - 1) ≤ v.toNat
    · rw [if_pos h, if_neg (by omega)]
    · rw [if_neg h, if_pos (by omega)]
  simp only [atomicNew, ← hw, ho, hx, hk]
  simp only [atomicTable, List.mem_cons, List.not_mem_nil, or_false] at hp
  obtain rfl | rfl | rfl | rfl | rfl | rfl | rfl := hp
  · exact (BitVec.toNat_add o x).symm
  · simp only [hsg]
    split <;> rfl
  · simp only [hsg]
    split <;> rfl
  · dsimp only
    rw [apply_ite BitVec.toNat, Nat.min_def]
  · dsimp only
    rw [apply_ite BitVec.toNat, Nat.max_def]
  · rfl
  · simp only [BitVec.toNat_inj]
    rw [apply_ite BitVec.toNat]

theorem isAtomicOp_of_table {p : LockOp × ((w : Nat) → BitVec w → BitVec w → BitVec w → BitVec w)} (hp : p ∈ atomicTable) :
    isAtomicOp p.1 = true := by
  simp only [atomicTable, List.mem_cons, List.not_mem_nil, or_false] at hp
  obtain rfl | rfl | rfl | rfl | rfl | rfl | rfl := hp <;> rfl

/-- R250: an atomic on sound words reads, counts, and writes what it computes. -/
theorem spAtomic_sound {s : State} {c off : Nat} (op : LockOp) {w64 : Bool} (x k : W64) {n : Nat} (hn : n = if w64 then 8 else 4)
    (hs : Sound s c off n) : ∃ u, OnlyCounts s u c ∧ spAtomic s c off op w64 x k =
      (spPuts u c off (natBytes n (atomicNew op w64 (leNat (spBytes s c off n)) x.toNat k.toNat)), ⟨.ok, spBytes s c off n, []⟩) := by
  have hc := onlyCounts_count s c 0x4F 1 (w := memSample .none_ false off n 6)
  refine ⟨_, hc, ?_⟩
  rw [spAtomic]
  simp only [← hn, spRead_sound 5 hs, ne_eq, not_true_eq_false, if_false]
  rw [spWrite_sound 5 (by rw [natBytes_length]; exact hc.sound hs)]

/-- R249, R250: what an atomic on sound words leaves; `w` is its width in bits. -/
theorem spAtomic_effect {s u : State} {c off n w : Nat} {p : LockOp × ((w : Nat) → BitVec w → BitVec w → BitVec w → BitVec w)}
    (hp : p ∈ atomicTable) {w64 : Bool} {x k : W64} (hu : OnlyCounts s u c) (hm : MemInv s) (hn : n = if w64 then 8 else 4)
    (hw : w = if w64 then 64 else 32) (hin : off + n ≤ 2 ^ 21) (hs : Sound s c off n) :
    ∃ t, spAtomic u c off p.1 w64 x k = (t, ⟨.ok, spBytes s c off n, []⟩) ∧ SpFrame s t c off n ∧ t.out = s.out ∧
      t.lockReplies = s.lockReplies ∧ leNat (spBytes t c off n) =
        (p.2 w (BitVec.ofNat w (leNat (spBytes s c off n))) (x.setWidth w) (k.setWidth w)).toNat := by
  obtain ⟨v, hv, he⟩ := spAtomic_sound (s := u) (c := c) (off := off) p.1 x k hn (hu.sound hs)
  have hsv := hu.trans hv
  have hmv : MemInv v := by rw [MemInv, hsv.mem]; exact hm
  have hlen : ∀ a, (natBytes n a).length = n := fun a => natBytes_length n a
  have hpow : 256 ^ n = 2 ^ w := by
    rw [hn, hw]
    cases w64 <;> rfl
  have hnew := atomicNew_eq hp hw (old := leNat (spBytes s c off n)) (opnd := x.toNat) (cmpv := k.toNat) (o := BitVec.ofNat w (leNat (spBytes s c off n)))
    (x := x.setWidth w) (k := k.setWidth w) (by simp) (by simp) (by simp)
  rw [hu.spBytes, hnew] at he
  refine ⟨_, he, fun a ha => ?_, ?_, ?_, ?_⟩
  · rw [spPuts_frame v c off _ hmv a (by rw [hlen]; intro i hi; rw [hsv.spKey]; exact ha i hi), hsv.mem]
  · rw [spPuts_out, hsv.out]
  · rw [spPuts_eq, ← hsv.rest]
  · have hb := spBytes_spPuts v c off (natBytes n (p.2 w (BitVec.ofNat w (leNat (spBytes s c off n))) (x.setWidth w) (k.setWidth w)).toNat)
      hmv (by rw [hlen]; exact hin)
    rw [hlen] at hb
    rw [hb, leNat_natBytes, hpow, Nat.mod_eq_of_lt (BitVec.isLt _)]

/-- R250: an atomic that a window admits. -/
theorem exec_atomic_ext {s : State} {c rtag n w : Nat} {r : WinReq} {p : LockOp × ((w : Nat) → BitVec w → BitVec w → BitVec w → BitVec w)}
    (hp : p ∈ atomicTable) {w64 : Bool} {x k : W64} (hm : MemInv s) (hpres : present s c = true) (hrst : (s.core c).crst = false)
    (hop : r.op = .atomic p.1 w64 x k) (hsize : r.size = n) (hn : n = if w64 then 8 else 4) (hw : w = if w64 then 64 else 32)
    (hwin : ∃ i < 16, winPasses s c i r = true) (hs : Sound s c r.off n) :
    ∃ t, exec (.atomicArrive (.ext c r rtag)) s = .next t ∧ SpFrame s t c r.off n ∧
      t.out = s.out ++ [.answer r.sdev rtag 0 (spBytes s c r.off n)] ∧ leNat (spBytes t c r.off n) =
        (p.2 w (BitVec.ofNat w (leNat (spBytes s c r.off n))) (x.setWidth w) (k.setWidth w)).toNat := by
  obtain ⟨i, hi, hpass⟩ := hwin
  obtain ⟨u, hu, hacc⟩ := remoteAccess_accepted 0x7FF hpres hrst ((winAccept_isSome_iff s c r).2 ⟨i, hi, hpass⟩)
  obtain ⟨t, ht, hframe, hout, -, hval⟩ := spAtomic_effect hp (x := x) (k := k) hu hm hn hw (hsize ▸ winPasses_in_range hpass) hs
  rw [hop, spPerform, ht] at hacc
  refine ⟨emit t (.answer r.sdev rtag 0 (spBytes s c r.off n)), ?_, hframe, ?_, hval⟩
  · change execAtomicArrive (.ext c r rtag) s = _
    simp only [execAtomicArrive, hacc]
    rfl
  · rw [emit, hout]

/-- Settles O36: atomics in local form, through a window, and where they are refused. -/
theorem atomicsReadModifyWrite : Obligations.AtomicsReadModifyWrite := by
  unfold Obligations.AtomicsReadModifyWrite
  refine ⟨fun p hp s c c2 off n q f d hm hcur hrem hc2 hoff hn hin hpres hrst hq hq2 hs hno => ?_,
    fun p hp s c rtag r x k hm hpres hrst hop hsize hwin hs => ?_,
    fun p hp s c rtag r x k hm hpres hrst hop hsize hwin hs => exec_atomic_ext hp hm hpres hrst hop hsize rfl rfl hwin hs,
    fun s c f op d hcur hop hrem hbad hno => ?_⟩
  · have hacc := localAccess_admitted (k := c) (.atomic p.1 d.w64 d.opnd d.cmpv) 5 hpres hrst (by rw [hq, hq2]; rfl) hin
    obtain ⟨t, ht, hframe, -, hrep, hval⟩ := spAtomic_effect hp (x := d.opnd) (k := d.cmpv) ⟨rfl, rfl, rfl⟩ hm hn rfl hin hs
    rw [spPerform, ht] at hacc
    have hlt : c2 < 1152 := by
      simp only [present, Bool.and_eq_true, decide_eq_true_eq] at hpres
      exact hpres.1
    have haddr : d.addr.toNat < 0x90000000 := by omega
    refine ⟨{ t with lockReplies := t.lockReplies ++ [⟨c, 0, BitVec.ofNat 64 (leNat (spBytes s c2 off n))⟩] }, ?_, hframe, ?_, ?_, ?_⟩
    · change execAtomicArrive (.core c) s = _
      have hany : s.lockReplies.any (fun r => r.core == c) = false := by
        simpa [List.any_eq_false] using hno
      simp only [execAtomicArrive, hcur, isAtomicOp_of_table hp, hrem, hany, Bool.false_and, Bool.not_false, Bool.and_self, if_true,
        atomicPerform, Bool.false_eq_true, if_false, haddr, hc2, hoff, ← hn, hacc]
      rfl
    · rw [hrep]
    · intro h
      rw [h] at hval
      exact hval
    · intro h
      rw [h] at hval
      exact hval
  · obtain ⟨t, ht, hframe, hout, hval⟩ := exec_atomic_ext (rtag := rtag) hp hm hpres hrst hop hsize rfl rfl hwin hs
    exact ⟨t, ht, hframe, hout, by simpa using hval⟩
  · have hany : s.lockReplies.any (fun r => r.core == c) = false := by
      simpa [List.any_eq_false] using hno
    have hhigh : ¬ d.addr.toNat < 0x90000000 := by
      obtain hb | hb := hbad
      · have hlo : hbmBase ≤ d.addr.toNat := of_decide_eq_true (Bool.and_eq_true_iff.1 hb).1
        rw [hbmBase] at hlo
        omega
      · have hlo : 0x020000000000 ≤ d.addr.toNat := of_decide_eq_true (Bool.and_eq_true_iff.1 hb).1
        omega
    have hbad' : isHbm d.addr.toNat = true ∨ (0x020000000000 ≤ d.addr.toNat ∧ d.addr.toNat < 0x020100000000) := by
      simpa [isCsr] using hbad
    change execAtomicArrive (.core c) s = _
    simp only [execAtomicArrive, hcur, hop, hrem, hany, Bool.false_and, Bool.not_false, Bool.and_self, if_true, atomicPerform,
      Bool.false_eq_true, if_false, hhigh, if_pos hbad']
    rfl

end Sys2Proof.Machine
end

/-! SUPPORT. Echo time follows its source (Sys2Proof.Obligations O48). -/
section

namespace Sys2Proof.Machine

/-! ### Steps of the fields alone -/

/-- At most the fields differ. -/
def OnlyFields (s t : State) : Prop := { t with fields := s.fields } = s

theorem OnlyFields.refl (s : State) : OnlyFields s s := rfl

theorem OnlyFields.trans {s t u : State} (h : OnlyFields s t) (k : OnlyFields t u) : OnlyFields s u := by
  rw [OnlyFields, ← k] at h
  exact h

theorem onlyFields_modField (s : State) (n : Nat) (f : Field → Field) : OnlyFields s (modField s n f) := rfl

section
variable {s t : State} (h : OnlyFields s t)
include h

theorem OnlyFields.mem : t.mem = s.mem := by rw [← h]
theorem OnlyFields.cores : t.cores = s.cores := by rw [← h]
theorem OnlyFields.echoM : t.echoM = s.echoM := by rw [← h]
theorem OnlyFields.clk : t.clk = s.clk := by rw [← h]
theorem OnlyFields.ech : t.ech = s.ech := by rw [← h]
theorem OnlyFields.fieldOn (n : Nat) : fieldOn t n = fieldOn s n := by
  rw [Machine.fieldOn, Machine.fieldOn, ← h]
  rfl

end

/-- A step of each field of a list, where each field's step depends on that field alone: what it leaves in every field. -/
theorem foldl_fields {α : Type} {s : State} {step : State → α → State} {key : α → Nat} {P : α → Bool} {g : α → Field → Field}
    (hstep : ∀ u a, OnlyFields s u → step u a = if P a then modField u (key a) (g a) else u) (l : List α) (hn : (l.map key).Nodup) :
    OnlyFields s (l.foldl step s) ∧ (∀ a ∈ l, P a = true → (l.foldl step s).field (key a) = g a (s.field (key a))) ∧
      (∀ m, (∀ a ∈ l, P a = true → key a ≠ m) → (l.foldl step s).field m = s.field m) := by
  suffices h : ∀ u, OnlyFields s u → OnlyFields s (l.foldl step u) ∧
      (∀ a ∈ l, P a = true → (l.foldl step u).field (key a) = g a (u.field (key a))) ∧
      (∀ m, (∀ a ∈ l, P a = true → key a ≠ m) → (l.foldl step u).field m = u.field m) from h s rfl
  induction l with
  | nil => exact fun u hu => ⟨hu, nofun, fun _ _ => rfl⟩
  | cons a l ih =>
    rw [List.map_cons, List.nodup_cons] at hn
    obtain ⟨ha, hn⟩ := hn
    intro u hu
    have hne : ∀ b ∈ l, key b ≠ key a := fun b hb he => ha (List.mem_map.2 ⟨b, hb, he⟩)
    have hu' : OnlyFields s (step u a) := by
      rw [hstep u a hu]
      split
      · exact hu.trans (onlyFields_modField u _ _)
      · exact hu
    have hother : ∀ m, (P a = true → key a ≠ m) → (step u a).field m = u.field m := by
      intro m hm
      rw [hstep u a hu]
      split
      · next h => exact field_modField_ne _ _ (hm h).symm
      · rfl
    obtain ⟨honly, hin, hout⟩ := ih hn (step u a) hu'
    rw [List.foldl_cons]
    refine ⟨honly, fun b hb hp => ?_, fun m hm => ?_⟩
    · obtain rfl | hb := List.mem_cons.1 hb
      · rw [hout _ fun x hx _ => hne x hx, hstep u b hu, if_pos hp]
        simp
      · rw [hin b hb hp, hother _ fun _ => (hne b hb).symm]
    · rw [hout m fun x hx => hm x (List.mem_cons_of_mem _ hx), hother m (hm a List.mem_cons_self)]

/-- The same for the 12 fields. -/
theorem foldl_range_fields {s : State} {step : State → Nat → State} {P : Nat → Bool} {g : Nat → Field → Field}
    (hstep : ∀ u n, OnlyFields s u → step u n = if P n then modField u n (g n) else u) (N : Nat) :
    OnlyFields s ((List.range N).foldl step s) ∧
      ∀ n, ((List.range N).foldl step s).field n = if n < N ∧ P n = true then g n (s.field n) else s.field n := by
  obtain ⟨honly, hin, hout⟩ := foldl_fields (key := id) hstep (List.range N) (by simpa using List.nodup_range)
  refine ⟨honly, fun n => ?_⟩
  split
  · next h => exact hin n (List.mem_range.2 h.1) h.2
  · next h =>
    refine hout n fun m hm hp he => h ?_
    cases he
    exact ⟨List.mem_range.1 hm, hp⟩

/-! ### The discipline -/

theorem fieldOn_lt {s : State} {n : Nat} (h : fieldOn s n = true) : n < 12 := by
  rw [fieldOn, Bool.and_eq_true] at h
  exact of_decide_eq_true h.1

theorem echoAdd_eq (e : W64) (d : Int) : echoAdd e d = e + BitVec.ofInt 64 d := by
  rw [echoAdd, BitVec.ofInt_add]
  simp

/-- R386: what a step of Echo time leaves. -/
theorem stepEcho_effect (s : State) (d : Int) : (stepEcho s d).mem = s.mem ∧ (stepEcho s d).cores = s.cores ∧
    (stepEcho s d).echoM = s.echoM + BitVec.ofInt 64 d ∧
    (stepEcho s d).ech = { s.ech with steps := min 0xFFFF (s.ech.steps + 1), slew := 0, pend := 0 } ∧
    ∀ n < 12, ((stepEcho s d).field n).echo = (s.field n).echo + BitVec.ofInt 64 d := by
  obtain ⟨honly, hfield⟩ := foldl_range_fields (s := { s with echoM := echoAdd s.echoM d })
    (step := fun s n => modField s n (fun k => { k with echo := echoAdd k.echo d })) (P := fun _ => true)
    (g := fun _ k => { k with echo := echoAdd k.echo d }) (fun u n _ => rfl) 12
  rw [stepEcho]
  generalize (List.range 12).foldl (fun s n => modField s n (fun k => { k with echo := echoAdd k.echo d }))
    { s with echoM := echoAdd s.echoM d } = u at honly hfield
  dsimp only
  have hlog := logged_raiseRec (modEch u (fun e => { e with steps := min 0xFFFF (e.steps + 1), slew := 0, pend := 0 })) 0x4005 4 9 0 none
    (modEch u (fun e => { e with steps := min 0xFFFF (e.steps + 1), slew := 0, pend := 0 })).echoM
    [(BitVec.ofInt 64 d).toNat % 2 ^ 32, (BitVec.ofInt 64 d).toNat / 2 ^ 32]
  rw [raiseEvent, hlog]
  refine ⟨honly.mem, honly.cores, honly.echoM.trans (echoAdd_eq s.echoM d), ?_, fun n hn => ?_⟩
  · exact congrArg (fun e => ({ e with steps := min 0xFFFF (e.steps + 1), slew := 0, pend := 0 } : EchoM)) honly.ech
  · refine Eq.trans (congrArg Field.echo ((hfield n).trans (if_pos ⟨hn, rfl⟩))) ?_
    exact echoAdd_eq _ _

theorem modEch_modEch (s : State) (f g : EchoM → EchoM) : modEch (modEch s f) g = modEch s (fun e => g (f e)) := rfl

/-- R386: an offset of 1 ms or less is slewed, and nothing else of the device changes. -/
theorem discipline_slews {s : State} {d : Int} (h1 : -1000000 ≤ d) (h2 : d ≤ 1000000) : ∃ dist, discipline s d =
    modEch s (fun e => { e with ofs := sat32 d, pend := d, slew := d, st := 2, back := false, dist := dist }) := by
  have hnf : ¬ 1000000 < d := by omega
  have hnb : ¬ d < -1000000 := by omega
  rw [discipline]
  simp only [hnf, hnb, if_false, modEch_modEch]
  exact ⟨_, rfl⟩

/-- R386: a greater one backward is flagged. -/
theorem discipline_back {s : State} {d : Int} (h : d < -1000000) : ∃ dist, discipline s d =
    modEch s (fun e => { e with ofs := sat32 d, pend := d, back := true, st := 3, slew := 0, dist := dist }) := by
  have hnf : ¬ 1000000 < d := by omega
  rw [discipline]
  simp only [hnf, h, if_false, if_true, modEch_modEch]
  exact ⟨_, rfl⟩

/-- R386: a greater one forward steps the counters. -/
theorem discipline_steps {s : State} {d : Int} (h : 1000000 < d) : ∃ dist, discipline s d =
    modEch (stepEcho (modEch s (fun e => { e with ofs := sat32 d, pend := d })) d) (fun e => { e with st := 2, dist := dist }) := by
  rw [discipline]
  simp only [h, if_true, modEch_modEch]
  exact ⟨_, rfl⟩

/-- R386: what the discipline leaves, whatever the offset. -/
theorem discipline_effect (s : State) (d : Int) : (discipline s d).mem = s.mem ∧ (discipline s d).cores = s.cores ∧
    (discipline s d).ech.ofs = max (-2147483648) (min 2147483647 d) ∧
    (-1000000 ≤ d → d ≤ 1000000 → (discipline s d).echoM = s.echoM ∧ (discipline s d).ech.slew = d ∧ (discipline s d).ech.st = 2) ∧
    (1000000 < d → (discipline s d).echoM = s.echoM + BitVec.ofInt 64 d ∧ (discipline s d).ech.st = 2 ∧
      (discipline s d).ech.steps = min 0xFFFF (s.ech.steps + 1) ∧
      ∀ n < 12, ((discipline s d).field n).echo = (s.field n).echo + BitVec.ofInt 64 d) ∧
    (d < -1000000 → (discipline s d).echoM = s.echoM ∧ (discipline s d).ech.back = true ∧ (discipline s d).ech.st = 3) := by
  by_cases hf : 1000000 < d
  · obtain ⟨dist, he⟩ := discipline_steps (s := s) hf
    obtain ⟨hmem, hcores, hecho, hech, hfield⟩ := stepEcho_effect (modEch s (fun e => { e with ofs := sat32 d, pend := d })) d
    generalize stepEcho (modEch s (fun e => { e with ofs := sat32 d, pend := d })) d = u at he hmem hcores hecho hech hfield
    rw [he]
    refine ⟨hmem, hcores, ?_, fun _ h => absurd h (by omega), fun _ => ⟨hecho, rfl, ?_, hfield⟩, fun h => absurd h (by omega)⟩
    · exact congrArg EchoM.ofs hech
    · exact congrArg EchoM.steps hech
  · by_cases hb : d < -1000000
    · obtain ⟨dist, he⟩ := discipline_back (s := s) hb
      rw [he]
      exact ⟨rfl, rfl, rfl, fun h => absurd h (by omega), fun h => absurd h hf, fun _ => ⟨rfl, rfl, rfl⟩⟩
    · obtain ⟨dist, he⟩ := discipline_slews (s := s) (d := d) (by omega) (by omega)
      rw [he]
      exact ⟨rfl, rfl, rfl, fun _ _ => ⟨rfl, rfl, rfl⟩, fun h => absurd h hf, fun h => absurd h hb⟩

/-- R386: the state in which the source has been lost. -/
theorem holdover_eq (s : State) : ∃ dist, holdover s = modEch s (fun e => { e with st := 3, slew := 0, dist := dist }) := ⟨_, rfl⟩

/-- R388: the second of an edge that is taken. -/
def ppsTaken (second : Nat) (e : EchoM) : EchoM := { e with src := 3, ppsBad := 0, ppsTime := none, lastPps := some second }

/-- R388: whether an edge is more than 100 µs from a whole second after the last one. -/
def ppsOff (now l : Nat) : Bool := decide (now + 100000 < l + 1000000000) || decide (200000 < (now + 100000 - l) % 1000000000)

theorem exec_ppsEdge_off {s : State} {l : Nat} (hsrc : echoSource s = 3) (hl : s.ech.lastPps = some l)
    (hoff : ppsOff s.echoM.toNat l = true) : ∃ dist, exec .ppsEdge s = .next (if 2 ≤ s.ech.ppsBad then
        modEch s (fun e => { e with ppsBad := e.ppsBad + 1, ppsIgnored := e.ppsIgnored + 1, st := 3, slew := 0, dist := dist })
      else modEch s (fun e => { e with ppsBad := e.ppsBad + 1, ppsIgnored := e.ppsIgnored + 1 })) := by
  obtain ⟨dist, hh⟩ := holdover_eq (modEch s (fun e => { e with ppsBad := e.ppsBad + 1, ppsIgnored := e.ppsIgnored + 1 }))
  refine ⟨dist, ?_⟩
  rw [ppsOff] at hoff
  change execPpsEdge s = _
  rw [execPpsEdge, if_neg (by rw [hsrc]; decide)]
  simp only [hl, hoff]
  rw [if_pos trivial, hh, modEch_modEch]
  exact congrArg Host.Outcome.next (if_congr Nat.succ_le_succ_iff rfl rfl)

theorem exec_ppsEdge_taken {s : State} {l second : Nat} (hsrc : echoSource s = 3) (hl : s.ech.lastPps = some l)
    (hoff : ppsOff s.echoM.toNat l = false) (ht : s.ech.ppsTime = some second) :
    exec .ppsEdge s = .next (discipline (modEch s (ppsTaken second)) ((second : Int) - s.echoM.toNat)) := by
  rw [ppsOff] at hoff
  change execPpsEdge s = _
  rw [execPpsEdge, if_neg (by rw [hsrc]; decide)]
  simp only [hl, hoff, ht, Option.getD_some]
  rw [if_neg Bool.false_ne_true]
  rfl

theorem ppsOff_near {now l k : Nat} (h1 : l + k * 1000000000 ≤ now + 100000) (h2 : now ≤ l + k * 1000000000 + 100000) (hk : 1 ≤ k) :
    ppsOff now l = false := by
  have hrest : now + 100000 - l = k * 1000000000 + (now + 100000 - l - k * 1000000000) := by omega
  rw [ppsOff, hrest, Nat.mul_add_mod', Nat.mod_eq_of_lt (by omega), Bool.or_eq_false_iff, decide_eq_false_iff_not,
    decide_eq_false_iff_not]
  omega

theorem ppsOff_far {now l k : Nat} (h : now + 100000 < l + 1000000000 ∨
    (l + k * 1000000000 + 100000 < now ∧ now + 100000 < l + (k + 1) * 1000000000)) : ppsOff now l = true := by
  rw [ppsOff, Bool.or_eq_true, decide_eq_true_eq, decide_eq_true_eq]
  obtain h | ⟨h1, h2⟩ := h
  · exact Or.inl h
  · have hrest : now + 100000 - l = k * 1000000000 + (now + 100000 - l - k * 1000000000) := by omega
    rw [hrest, Nat.mul_add_mod', Nat.mod_eq_of_lt (by omega)]
    omega

/-- Settles O48: beacons, delays, discipline, and the sources of Echo time. -/
theorem echoFollowsItsSource : Obligations.EchoFollowsItsSource := by
  unfold Obligations.EchoFollowsItsSource
  refine ⟨?beacon, fun s n dly up hon hup => ⟨?delay, ?loss⟩, fun s ofs d hsrc => ?discipline, fun s hsrc => ?sourceLoss,
    fun s port domain ofs => ⟨fun hp hd hsrc => ?ptp, fun hno => ?otherPtp⟩, fun s l k hsrc hl hk => ⟨fun hbad => ?ppsBad, fun h1 h2 ht => ?pps⟩,
    fun s b => ⟨_, rfl, rfl, rfl, rfl⟩⟩
  case beacon =>
    intro s
    obtain ⟨honly, hfield⟩ := foldl_range_fields (s := s) (step := fun s n => if fieldOn s n then modField s n (fun k => { k with
        echo := if k.beacons = 0 then s.echoM else k.echo
        adj := if k.beacons = 0 then 0 else (s.echoM.toNat : Int) - k.echo.toNat
        beacons := k.beacons + 1
        ehold := false }) else s) (P := fieldOn s)
      (g := fun _ k => { k with
        echo := if k.beacons = 0 then s.echoM else k.echo
        adj := if k.beacons = 0 then 0 else (s.echoM.toNat : Int) - k.echo.toNat
        beacons := k.beacons + 1
        ehold := false }) (fun u n hu => by simp only [hu.fieldOn, hu.echoM]) 12
    refine ⟨_, rfl, honly, fun n => ⟨fun hoff => ?_, fun hon => ?_⟩⟩
    · rw [hfield, if_neg fun h => by rw [hoff] at h; exact Bool.false_ne_true h.2]
    · rw [hfield, if_pos ⟨fieldOn_lt hon, hon⟩]
      refine ⟨rfl, rfl, fun h0 => if_pos h0, fun h0 => ⟨if_neg h0, if_neg h0⟩⟩
  case delay =>
    have hpar : (match clkParent n with
        | some p => (s.field p).dly
        | none => 0) = up := by
      have hlt := fieldOn_lt hon
      subst hup
      interval_cases n <;> rfl
    refine ⟨modField s n (fun k => { k with dly := (up + dly) % 2 ^ 16 }), ?_, rfl, by simp⟩
    change execEchoDelayMeasure n dly s = _
    simp only [execEchoDelayMeasure, hon, if_true]
    rw [← hpar] <;> rfl
  case loss =>
    have hlog := logged_raiseErr (code := 0x0012) (by decide) (modField s n (fun k => { k with ehold := true })) 3 n none (s.field n).echo []
    have he : exec (.echoBeaconLoss n) s =
        .next (raiseErr (modField s n (fun k => { k with ehold := true })) 0x0012 3 n none (s.field n).echo []) := by
      change execEchoBeaconLoss n s = _
      rw [execEchoBeaconLoss, if_pos hon]
    refine ⟨_, he, ?_⟩
    rw [hlog]
    refine ⟨rfl, rfl, ?_⟩
    exact field_modField s n (fun k => { k with ehold := true })
  case discipline =>
    obtain ⟨hlink, rfl⟩ | ⟨hlink, hgm, hup, rfl⟩ := hsrc
    · obtain ⟨src, hs⟩ : ∃ src, src = cfgNum s 0x20 0x0011 0 1 := ⟨_, rfl⟩
      rw [← hs] at hlink
      have he : exec (.echoDiscipline d) s = .next (discipline (modEch s (fun e => { e with src := src })) d) := by
        change execEchoDiscipline d s = _
        rw [execEchoDiscipline, echoSource, ← hs]
        match src, hlink with
        | k + 2, _ => rfl
      exact ⟨_, he, discipline_effect (modEch s (fun e => { e with src := src })) d⟩
    · have he : exec (.echoDiscipline ofs) s = .next (discipline s s.ech.pend) := by
        change execEchoDiscipline ofs s = _
        rw [execEchoDiscipline, echoSource, hlink]
        rw [if_neg hgm, if_pos hup]
        rfl
      exact ⟨_, he, discipline_effect s s.ech.pend⟩
  case sourceLoss =>
    obtain ⟨dist, he⟩ := holdover_eq s
    refine ⟨holdover s, ?_, ?_⟩
    · change execEchoSourceLoss s = _
      rw [execEchoSourceLoss, if_neg (show ¬ echoSource s = 0 from hsrc)]
    · rw [he]
      exact ⟨rfl, rfl, rfl⟩
  case ptp =>
    have he : exec (.ptpMessage port domain ofs) s = .next (modEch s (fun e => { e with
        src := 2
        st := if e.st = 2 then 2 else if e.back then 3 else 1
        ofs := sat32 ofs
        pend := ofs })) := by
      change execPtpMessage port domain ofs s = _
      rw [execPtpMessage, if_pos ⟨hp, hd⟩, if_pos (show echoSource s = 2 from hsrc)]
    exact ⟨_, he, rfl, rfl, rfl, rfl⟩
  case otherPtp =>
    change execPtpMessage port domain ofs s = _
    rw [execPtpMessage, if_neg]
    rintro ⟨h1, h2⟩
    exact hno.elim (fun h => h h1) (fun h => h h2)
  case ppsBad =>
    obtain ⟨dist, he⟩ := exec_ppsEdge_off hsrc hl (ppsOff_far hbad)
    refine ⟨_, he, ?_⟩
    split
    · exact ⟨rfl, rfl, rfl, rfl⟩
    · exact ⟨rfl, rfl, rfl, rfl⟩
  case pps =>
    have hnear := ppsOff_near h1 h2 hk
    generalize hsec : l + k * 1000000000 = second at h1 h2 ht ⊢
    obtain ⟨dist, hd⟩ := discipline_slews (s := modEch s (ppsTaken second)) (d := (second : Int) - s.echoM.toNat) (by omega) (by omega)
    refine ⟨_, exec_ppsEdge_taken hsrc hl hnear ht, ?_⟩
    rw [hd]
    exact ⟨rfl, rfl, rfl, rfl, rfl, rfl⟩

end Sys2Proof.Machine
end

/-! SUPPORT. Scheduled changes of CCLK (Sys2Proof.Obligations O47). -/
section

namespace Sys2Proof.Machine

@[simp] theorem idleLocked_setIdleLock (k : Field) (b : Bool) : idleLocked (setIdleLock k b) = b := by
  rw [setIdleLock]
  split
  · next h => simp [idleLocked, h]
  · next h => simp [idleLocked, h]

@[simp] theorem setIdleLock_step (k : Field) (b : Bool) : (setIdleLock k b).step = k.step := by
  rw [setIdleLock]
  split <;> rfl

@[simp] theorem setIdleLock_pll1 (k : Field) (b : Bool) : (setIdleLock k b).pll1 = k.pll1 := by
  rw [setIdleLock]
  split <;> rfl

@[simp] theorem setIdleLock_vcore (k : Field) (b : Bool) : (setIdleLock k b).vcore = k.vcore := by
  rw [setIdleLock]
  split <;> rfl

@[simp] theorem setIdleLock_miss (k : Field) (b : Bool) : (setIdleLock k b).miss = k.miss := by
  rw [setIdleLock]
  split <;> rfl

@[simp] theorem field_modClk (s : State) (f : Clk → Clk) (n : Nat) : (modClk s f).field n = s.field n := rfl
@[simp] theorem clk_modClk (s : State) (f : Clk → Clk) : (modClk s f).clk = f s.clk := rfl
@[simp] theorem clk_modField (s : State) (n : Nat) (f : Field → Field) : (modField s n f).clk = s.clk := rfl
@[simp] theorem fieldOn_modClk (s : State) (f : Clk → Clk) (n : Nat) : fieldOn (modClk s f) n = fieldOn s n := rfl
@[simp] theorem fieldOn_modField (s : State) (m n : Nat) (f : Field → Field) : fieldOn (modField s m f) n = fieldOn s n := rfl

/-- The mask of one field that is on covers that field. -/
theorem targets_single {s : State} {n : Nat} (targets : List Nat) (h : fieldOn s n = true) :
    ((List.range 12).filter (fun m => (2 ^ n).testBit m && fieldOn s m)).map (fun m => (m, targets.getD m 0)) = [(n, targets.getD n 0)] := by
  have hone : ∀ k < 12, (List.range 12).filter (fun m => decide (k = m)) = [k] := by decide
  rw [List.filter_congr (q := fun m => decide (n = m)) fun m _ => ?_, hone n (fieldOn_lt h)]
  · rfl
  · rw [Nat.testBit_two_pow]
    by_cases hm : n = m
    · subst hm
      simp [h]
    · simp [hm]

theorem covered_single {s : State} {n x t : Nat} {b : Bool} (h : fieldOn s n = true) : covered s ⟨t, [(n, x)], b⟩ = [(n, x)] := by
  simp [covered, h]

/-- R377, Table 12.5: the registers of the change that is armed. -/
def armedClk (c : ClkChange) (k : Clk) : Clk :=
  { k with
    regT := c.t
    regMask := (c.targets.map (fun x => 2 ^ x.1)).sum
    regTgt := c.targets.foldl (fun m x => mset m x.1 x.2) k.regTgt
    armed := some c }

/-- R377, R398: field `n` programs its idle PLL to STEP `x`, and VCORE rises to what that needs. -/
def programmed (n x : Nat) (k : Field) : Field :=
  { setIdleLock k false with idleStep := some x, vcore := max k.vcore (vcoreFor n x) }

theorem idleLocked_programmed (n x : Nat) (k : Field) : idleLocked (programmed n x k) = false := by
  have h := idleLocked_setIdleLock k false
  exact h

/-- R377, R398: a change of one field is armed. -/
theorem armChange_single {s : State} {t n x : Nat} (h : fieldOn s n = true) :
    armChange s ⟨t, [(n, x)], false⟩ = modField (modClk s (armedClk ⟨t, [(n, x)], false⟩)) n (programmed n x) := by
  rw [armChange]
  dsimp only
  rw [covered_single (by exact h)]
  rfl

theorem foldl_max_ge (l : List Nat) (a : Nat) : a ≤ l.foldl max a ∧ ∀ x ∈ l, x ≤ l.foldl max a := by
  induction l generalizing a with
  | nil => exact ⟨le_rfl, nofun⟩
  | cons b l ih =>
    obtain ⟨h1, h2⟩ := ih (max a b)
    rw [List.foldl_cons]
    refine ⟨(le_max_left a b).trans h1, fun x hx => ?_⟩
    obtain rfl | hx := List.mem_cons.1 hx
    · exact (le_max_right a x).trans h1
    · exact h2 x hx

/-- Writes of the fields that keep every STEP. -/
theorem foldl_step_stands {α : Type} {step : State → α → State} (hstep : ∀ u a, OnlyFields u (step u a) ∧
    ∀ n, ((step u a).field n).step = (u.field n).step) (l : List α) (s : State) :
    OnlyFields s (l.foldl step s) ∧ ∀ n, ((l.foldl step s).field n).step = (s.field n).step := by
  induction l generalizing s with
  | nil => exact ⟨rfl, fun _ => rfl⟩
  | cons a l ih =>
    obtain ⟨h1, h2⟩ := ih (step s a)
    obtain ⟨h3, h4⟩ := hstep s a
    exact ⟨h3.trans h1, fun n => (h2 n).trans (h4 n)⟩

theorem armHeld_none {s : State} (h : s.clk.held = []) : armHeld s = s := by
  rw [armHeld, h]
  split
  · next h' => cases h'
  · rfl

theorem step_modField (s : State) (m : Nat) {f : Field → Field} (hf : ∀ k, (f k).step = k.step) (n : Nat) :
    ((modField s m f).field n).step = (s.field n).step := by
  by_cases hn : n = m
  · subst hn
    rw [field_modField, hf]
  · rw [field_modField_ne _ _ hn]

theorem armHeld_cons {s : State} {c : ClkChange} {cs : List ClkChange} (harm : s.clk.armed = none) (h : s.clk.held = c :: cs) :
    armHeld s = armChange (modClk s (fun k => { k with held := cs })) { c with t := max c.t (s.echoM.toNat + 50000) } := by
  rw [armHeld, harm, h]

/-- R379, R380: the one held change is armed as the change before it ends. -/
theorem armHeld_next {r : State} {n x T : Nat} (hheld : r.clk.held = [⟨T, [(n, x)], false⟩]) (hT : r.echoM.toNat + 50000 ≤ T)
    (hon : fieldOn r n = true) : armHeld (modClk r (fun k => { k with armed := none, changes := k.changes + 1 })) =
      modField (modClk r (fun k => armedClk ⟨T, [(n, x)], false⟩ { k with armed := none, changes := k.changes + 1, held := [] })) n
        (programmed n x) := by
  have hmax : max T (r.echoM.toNat + 50000) = T := Nat.max_eq_left hT
  rw [armHeld_cons (s := modClk r (fun k => { k with armed := none, changes := k.changes + 1 })) rfl hheld]
  rw [show (modClk r (fun k => { k with armed := none, changes := k.changes + 1 })).echoM = r.echoM from rfl]
  dsimp only
  rw [hmax, armChange_single (by exact hon)]
  rfl

/-- R379: the field that misses its switch keeps its STEP. -/
def missedField (k : Field) : Field := { k with miss := true, idleStep := none }

/-- R379: the change that has been missed is held anew. -/
def missedClk (n x now : Nat) (k : Clk) : Clk :=
  { k with
    miss := k.miss ||| 2 ^ n
    misses := k.misses + 1
    held := k.held ++ [⟨now + 60000, [(n, x)], false⟩] }

theorem switchField_missed {s : State} {n x : Nat} (h : idleLocked (s.field n) = false) : ∃ r,
    Logged (modClk (modField s n missedField) (missedClk n x s.echoM.toNat)) r ∧ switchField s n x = r := by
  refine ⟨_, logged_raiseErr (code := 0x0011) (by decide) _ 3 n none (s.field n).echo [], ?_⟩
  have hecho : (s.field n).echo = ((modClk (modField s n missedField) (missedClk n x s.echoM.toNat)).field n).echo := by
    simp [missedField]
  rw [switchField, if_neg (by rw [h]; exact Bool.false_ne_true), hecho]
  rfl

/-- R378: what a cancellation leaves where no other change is held. -/
theorem cancelChange_effect {s : State} {c : ClkChange} (notrdy : Nat) (harm : s.clk.armed = some c) (hheld : s.clk.held = []) :
    ∃ k, k.armed = none ∧ k.cancel = true ∧ k.cancels = s.clk.cancels + 1 ∧ k.notBefore = s.echoM.toNat + 50000 ∧
      OnlyFields { s with clk := k } (cancelChange s notrdy) ∧ ∀ n, ((cancelChange s notrdy).field n).step = (s.field n).step := by
  rw [cancelChange, harm]
  dsimp only
  generalize hu : modClk s (fun k => { k with
    armed := none
    cancel := true
    notrdy := notrdy
    cancels := k.cancels + 1
    notBefore := s.echoM.toNat + 50000 }) = u
  obtain ⟨honly, hstep⟩ := foldl_step_stands (step := fun s x =>
    modField s x.1 (fun k =>
      { k with
        idleStep := none
        vcore := if fieldOn s x.1 then vcoreFor x.1 k.step else k.vcore })) (fun u x => ⟨rfl, fun n => step_modField u x.1 (by intro k; rfl) n⟩) c.targets u
  rw [armHeld_none (by rw [honly.clk, ← hu]; exact hheld)]
  refine ⟨u.clk, by rw [← hu]; rfl, by rw [← hu]; rfl, by rw [← hu]; rfl, by rw [← hu]; rfl, ?_, fun n => ?_⟩
  · subst hu
    exact honly
  · rw [hstep, ← hu]
    rfl

/-- R379, R398: the voltage that field `n` needs at its STEP, at that of its idle PLL and at those of the held changes. -/
def vcoreNeed (s : State) (n : Nat) (k : Field) : Nat :=
  (([k.step, k.idleStep.getD k.step] ++ s.clk.held.filterMap (fun c => mfind c.targets n)).map (vcoreFor n)).foldl max 0

/-- Settles O47: a change is armed or held, checked, cancelled, made or missed. -/
theorem clocksChangeTogether : Obligations.ClocksChangeTogether := by
  unfold Obligations.ClocksChangeTogether
  refine ⟨fun s t n x targets hon hx ht hnb h80 => ?request, fun s t mask targets hbad => ?refused,
    fun s n hon => ⟨fun hidle => ?lock, ?loss, ?lower⟩, fun s c harm => ⟨fun hall => ?ready, fun hnot hheld => ?cancel, fun hno => ?notYet⟩,
    fun s t n x harm ht hon hheld => ?switch⟩
  case request =>
    have hrequest : Host.Outcome.next (requestChange s t [(n, x)]) = exec (.clkChangeArm t (2 ^ n) targets) s := by
      rw [← hx, ← targets_single targets hon]
      rfl
    have hok : ¬ (t < s.echoM.toNat + 50000 ∨ s.echoM.toNat < s.clk.notBefore ∨ [(n, x)].any (fun x => decide (80 < x.2)) = true ∨
        [(n, x)] = []) := by
      simp
      omega
    refine ⟨fun harm => ?arm, fun harm => ?hold⟩
    case arm =>
      have he : exec (.clkChangeArm t (2 ^ n) targets) s =
          .next (modField (modClk s (armedClk ⟨t, [(n, x)], false⟩)) n (programmed n x)) := by
        rw [← armChange_single hon, ← hrequest, requestChange, if_neg hok, harm]
        rfl
      refine ⟨_, he, rfl, rfl, rfl, ?_, ?_, ?_, ?_, fun m hm => field_modField_ne _ _ hm⟩
      · simp [programmed]
      · simp [idleLocked_programmed]
      · simp [programmed]
      · simp [programmed]
    case hold =>
      have he : exec (.clkChangeArm t (2 ^ n) targets) s =
          .next (modClk s (fun k => { k with held := k.held ++ [⟨t, [(n, x)], false⟩] })) := by
        rw [← hrequest, requestChange, if_neg hok, if_pos harm]
      exact ⟨_, he, rfl, rfl⟩
  case refused =>
    change Host.Outcome.next (requestChange s t _) = _
    rw [requestChange, if_pos (hbad.imp_right Or.inl)]
  case lock =>
    refine ⟨modField s n (fun k => setIdleLock k true), ?_, by simp, rfl, by simp⟩
    change execPllLock n s = _
    rw [execPllLock, hon, hidle]
    rfl
  case loss =>
    refine ⟨modField s n (fun k => setIdleLock k false), ?_, by simp, rfl, by simp⟩
    change execPllLockLoss n s = _
    rw [execPllLockLoss, if_pos hon]
  case lower =>
    have he : exec (.vcoreLower n) s = .next (modField s n (fun k => { k with vcore := min k.vcore (vcoreNeed s n k) })) := by
      change execVcoreLower n s = _
      rw [execVcoreLower, if_pos hon]
      rfl
    refine ⟨_, he, rfl, fun hidle hnone => ?_, fun c hc x hx => ?_⟩
    · have hheld : s.clk.held.filterMap (fun c => mfind c.targets n) = [] := List.filterMap_eq_nil_iff.2 hnone
      simp [vcoreNeed, hheld, hidle]
    · have hmem : vcoreFor n x ∈ ([(s.field n).step, (s.field n).idleStep.getD (s.field n).step] ++
          s.clk.held.filterMap (fun c => mfind c.targets n)).map (vcoreFor n) :=
        List.mem_map.2 ⟨x, List.mem_append_right _ (List.mem_filterMap.2 ⟨c, hc, hx⟩), rfl⟩
      have hle : vcoreFor n x ≤ vcoreNeed s n (s.field n) := (foldl_max_ge _ 0).2 _ hmem
      rw [field_modField]
      exact ⟨min_le_min_left _ hle, min_le_left _ _⟩
  case ready =>
    have hbad : (covered s c).filter (fun x => !idleLocked (s.field x.1)) = [] := by
      rw [List.filter_eq_nil_iff]
      intro x hx
      obtain ⟨hx, hon⟩ := List.mem_filter.1 hx
      simp [hall x hx hon]
    change execClkReadyCheck s = _
    rw [execClkReadyCheck, harm]
    simp only [hbad, if_true]
    rfl
  case cancel =>
    obtain ⟨x, hx, hon, hlock⟩ := hnot
    have hbad : (covered s c).filter (fun x => !idleLocked (s.field x.1)) ≠ [] := by
      intro h
      have := (List.filter_eq_nil_iff.1 h) x (List.mem_filter.2 ⟨hx, hon⟩)
      simp [hlock] at this
    obtain ⟨k, hk, hcan, hcans, hnb, honly, hstep⟩ :=
      cancelChange_effect (((covered s c).filter (fun x => !idleLocked (s.field x.1))).map (fun x => 2 ^ x.1)).sum harm hheld
    refine ⟨_, ?_, honly.mem, honly.cores, ?_, ?_, ?_, ?_, hstep⟩
    · change execClkReadyCheck s = _
      rw [execClkReadyCheck, harm]
      exact congrArg Host.Outcome.next (if_neg hbad)
    · rw [honly.clk]
      exact hk
    · rw [honly.clk]
      exact hcan
    · rw [honly.clk]
      exact hcans
    · rw [honly.clk]
      exact hnb
  case notYet =>
    change execClkSwitch s = _
    rw [execClkSwitch, harm]
    refine congrArg Host.Outcome.next (if_neg ?_)
    rw [Bool.and_eq_true, decide_eq_true_eq]
    rintro ⟨h1, h2⟩
    obtain h | h := hno
    · rw [h] at h1
      cases h1
    · omega
  case switch =>
    have he : exec .clkSwitch s = .next (armHeld (modClk (switchField s n x) (fun k => { k with armed := none, changes := k.changes + 1 }))) := by
      change execClkSwitch s = _
      rw [execClkSwitch, harm]
      simp only [Bool.true_and, decide_eq_true ht, if_true, covered_single hon]
      rfl
    cases hlock : idleLocked (s.field n)
    · obtain ⟨r, hr, hs⟩ := switchField_missed (x := x) hlock
      rw [hs] at he
      have hclk : r.clk = missedClk n x s.echoM.toNat s.clk := by rw [hr]; rfl
      have hfields : ∀ m, r.field m = (modField s n missedField).field m := by intro m; rw [hr]; rfl
      have honr : fieldOn r n = true := by rw [hr]; exact hon
      have hecho : r.echoM = s.echoM := by rw [hr]; rfl
      have hone : r.clk.held = [⟨s.echoM.toNat + 60000, [(n, x)], false⟩] := by
        rw [hclk, missedClk, hheld]
        rfl
      generalize hT : s.echoM.toNat + 60000 = T at hone ⊢
      rw [armHeld_next hone (by rw [hecho]; omega) honr] at he
      refine ⟨_, he, ?_, ?_, ?_, nofun, fun _ => ⟨?_, ?_, ?_, ?_, rfl⟩⟩
      · exact (congrArg State.mem hr).trans rfl
      · exact (congrArg State.cores hr).trans rfl
      · simp [hclk, armedClk, missedClk]
      · simp [hfields, programmed, missedField]
      · simp [hfields, programmed, missedField]
      · simp [hfields, programmed, missedField]
      · simp [hclk, armedClk, missedClk]
    · have hs : switchField s n x = modField s n (fun k => { k with step := x, pll1 := !k.pll1, idleStep := none }) := by
        rw [switchField, if_pos hlock]
      rw [hs, armHeld_none (by exact hheld)] at he
      refine ⟨_, he, rfl, rfl, rfl, fun _ => ⟨?_, ?_, ?_, rfl⟩, nofun⟩
      · simp
      · simp
      · simp

end Sys2Proof.Machine
end

/-! SUPPORT. Brakes, the governor's decision and power lending (Sys2Proof.Obligations O51). -/
section

namespace Sys2Proof.Machine

/-! ### Steps of the fields, one by one -/

/-- Each field of a list steps as its own record says. -/
theorem foldl_each {s : State} {step : State → Nat → State} {g : Nat → Field → Field}
    (hstep : ∀ u n, OnlyFields s u → OnlyFields u (step u n) ∧ (step u n).field n = g n (u.field n) ∧
      ∀ m, m ≠ n → (step u n).field m = u.field m) (l : List Nat) (hn : l.Nodup) :
    OnlyFields s (l.foldl step s) ∧ (∀ n ∈ l, (l.foldl step s).field n = g n (s.field n)) ∧
      ∀ m, m ∉ l → (l.foldl step s).field m = s.field m := by
  suffices h : ∀ u, OnlyFields s u → OnlyFields s (l.foldl step u) ∧ (∀ n ∈ l, (l.foldl step u).field n = g n (u.field n)) ∧
      ∀ m, m ∉ l → (l.foldl step u).field m = u.field m from h s rfl
  induction l with
  | nil => exact fun u hu => ⟨hu, nofun, fun _ _ => rfl⟩
  | cons a l ih =>
    intro u hu
    obtain ⟨ha, hn⟩ := List.nodup_cons.1 hn
    obtain ⟨honly, hat, hother⟩ := hstep u a hu
    obtain ⟨h1, h2, h3⟩ := ih hn (step u a) (hu.trans honly)
    rw [List.foldl_cons]
    refine ⟨h1, fun n hmem => ?_, fun m hm => ?_⟩
    · obtain rfl | hl := List.mem_cons.1 hmem
      · rw [h3 n ha, hat]
      · rw [h2 n hl, hother n fun he => ha (he ▸ hl)]
    · rw [List.mem_cons, not_or] at hm
      rw [h3 m hm.2, hother m hm.1]

theorem modField_each (u : State) (n : Nat) (f : Field → Field) : OnlyFields u (modField u n f) ∧
    (modField u n f).field n = f (u.field n) ∧ ∀ m, m ≠ n → (modField u n f).field m = u.field m :=
  ⟨rfl, field_modField u n f, fun _ hm => field_modField_ne _ _ hm⟩

theorem nodup_onFields (s : State) : (onFields s).Nodup := List.nodup_range.filter _

theorem mem_onFields {s : State} {n : Nat} : n ∈ onFields s ↔ fieldOn s n = true := by
  rw [onFields, List.mem_filter, List.mem_range]
  exact ⟨fun h => h.2, fun h => ⟨fieldOn_lt h, h⟩⟩

theorem OnlyFields.onFields {s t : State} (h : OnlyFields s t) : onFields t = onFields s := by
  rw [Machine.onFields, Machine.onFields]
  exact List.filter_congr fun n _ => h.fieldOn n

/-! ### What leaves the targets alone -/

/-- Memory, the cores, the configuration, which fields are on, and every target stand. -/
structure Steady (s t : State) : Prop where
  mem : t.mem = s.mem
  cores : t.cores = s.cores
  cfg : t.cfg = s.cfg
  target : ∀ m, (t.field m).target = (s.field m).target
  part : ∀ m, (t.field m).partTgt = (s.field m).partTgt

theorem Steady.refl (s : State) : Steady s s := ⟨rfl, rfl, rfl, fun _ => rfl, fun _ => rfl⟩

theorem Steady.trans {s t u : State} (h : Steady s t) (k : Steady t u) : Steady s u :=
  ⟨k.mem.trans h.mem, k.cores.trans h.cores, k.cfg.trans h.cfg, fun m => (k.target m).trans (h.target m),
    fun m => (k.part m).trans (h.part m)⟩

theorem steady_foldl {α : Type} {step : State → α → State} (h : ∀ u a, Steady u (step u a)) (l : List α) (s : State) :
    Steady s (l.foldl step s) :=
  List.foldlRecOn l step (Steady.refl s) fun u hu a _ => hu.trans (h u a)

theorem steady_modClk (s : State) (f : Clk → Clk) : Steady s (modClk s f) := ⟨rfl, rfl, rfl, fun _ => rfl, fun _ => rfl⟩

theorem steady_modPwr (s : State) (f : Pwr → Pwr) : Steady s (modPwr s f) := ⟨rfl, rfl, rfl, fun _ => rfl, fun _ => rfl⟩

theorem steady_modStack (s : State) (i : Nat) (f : Stack → Stack) : Steady s (modStack s i f) := ⟨rfl, rfl, rfl, fun _ => rfl, fun _ => rfl⟩

theorem Logged.steady {s t : State} (h : Logged s t) : Steady s t := by
  rw [h]
  exact ⟨rfl, rfl, rfl, fun _ => rfl, fun _ => rfl⟩

theorem logged_throttleEvent (s : State) : Logged s (throttleEvent s) := by
  rw [throttleEvent, raiseEvent]
  exact logged_raiseRec s _ _ _ _ _ _ _

theorem steady_throttleEvent (s : State) : Steady s (throttleEvent s) := (logged_throttleEvent s).steady

theorem steady_modField (s : State) (n : Nat) {f : Field → Field}
    (hf : (f (s.field n)).target = (s.field n).target ∧ (f (s.field n)).partTgt = (s.field n).partTgt) : Steady s (modField s n f) := by
  refine ⟨rfl, rfl, rfl, fun m => ?_, fun m => ?_⟩
  · by_cases hm : m = n
    · rw [hm, field_modField, hf.1]
    · rw [field_modField_ne _ _ hm]
  · by_cases hm : m = n
    · rw [hm, field_modField, hf.2]
    · rw [field_modField_ne _ _ hm]

theorem setIdleLock_target (k : Field) (b : Bool) : (setIdleLock k b).target = k.target ∧ (setIdleLock k b).partTgt = k.partTgt := by
  rw [setIdleLock]
  split <;> exact ⟨rfl, rfl⟩

theorem steady_armChange (s : State) (c : ClkChange) : Steady s (armChange s c) := by
  rw [armChange]
  refine (steady_modClk s _).trans (steady_foldl (fun u x => ?_) _ _)
  exact steady_modField u x.1 (setIdleLock_target _ _)

theorem steady_schedule (s : State) : Steady s (schedule s) := by
  rw [schedule, requestChange]
  split
  · exact Steady.refl s
  · split
    · exact steady_modClk s _
    · exact steady_armChange s _

/-- R419: a partition without a sub-limit lowers no field. -/
theorem steady_subLimit {s : State} {p : Nat} (hlim : cfgNum s 0x10 0x0010 p 0 = 0) (hpart : ∀ m, (s.field m).partTgt = []) :
    Steady s (subLimit s p) := by
  rw [subLimit, hlim]
  simp only [Nat.lt_irrefl, false_and, if_false, true_or, if_true]
  suffices h : Steady s ((List.range 12).foldl (fun s n => modField s n (fun k =>
      match mfind k.partTgt p with
      | none => k
      | some t =>
        if Config.nominalStep ≤ t + 2 then { k with partTgt := mdel k.partTgt p }
        else { k with partTgt := mset k.partTgt p (t + 2) })) s) from h
  refine List.foldlRecOn (motive := fun u => Steady s u) _ _ (Steady.refl s) fun u hu n _ => hu.trans (steady_modField u n ?_)
  rw [hu.part, hpart]
  exact ⟨rfl, (hu.part n).trans (hpart n)⟩

/-- R416, R419: what follows the measure of a decision. -/
theorem steady_decided {s : State} (hlim : ∀ p < 16, cfgNum s 0x10 0x0010 p 0 = 0) (hpart : ∀ m, (s.field m).partTgt = []) :
    Steady s (schedule (modPwr ((List.range 16).foldl subLimit s) (fun w => { w with applied := measures ((List.range 16).foldl subLimit s) }))) := by
  refine Steady.trans ?_ ((steady_modPwr _ _).trans (steady_schedule _))
  refine List.foldlRecOn (motive := fun u => Steady s u) _ _ (Steady.refl s) fun u hu p hp => hu.trans (steady_subLimit ?_ fun m => ?_)
  · rw [cfgNum, hu.cfg]
    exact hlim p (List.mem_range.1 hp)
  · rw [hu.part, hpart]

/-! ### A decision of the governor -/

theorem OnlyFields.cfg {s t : State} (h : OnlyFields s t) : t.cfg = s.cfg := by rw [← h]
theorem OnlyFields.pwr {s t : State} (h : OnlyFields s t) : t.pwr = s.pwr := by rw [← h]
theorem OnlyFields.stack {s t : State} (h : OnlyFields s t) (i : Nat) : t.stack i = s.stack i := by
  rw [← h]
  rfl

theorem OnlyFields.decaf {s t : State} (h : OnlyFields s t) : decaf t = decaf s := by
  rw [Machine.decaf, Machine.decaf, cfgNum, cfgNum, h.cfg]

/-- R416: the STEP at which a field with record `k` is to run under the configuration of `s`. -/
def wantedOf (s : State) (k : Field) : Nat :=
  let base := min (min (k.partTgt.foldl (fun m x => min m x.2) k.target) (phaseCap (countBits 12 k.live))) k.tcap
  if decaf s then min base (cfgNum s 0x10 0x0008 0 Config.nominalStep) else base

theorem stepWanted_eq (s : State) (n : Nat) : stepWanted s n = wantedOf s (s.field n) := rfl

theorem wantedOf_congr {s t : State} (h : t.cfg = s.cfg) (k : Field) : wantedOf t k = wantedOf s k := by
  rw [wantedOf, wantedOf, decaf, decaf, cfgNum, cfgNum, cfgNum, cfgNum, h]

/-- R416: the STEP of a field that no partition, no heat and no Decaf mode holds down. -/
theorem wantedOf_free {s : State} {k : Field} (hd : decaf s = false) (hp : k.partTgt = []) (hc : k.tcap = 80) :
    wantedOf s k = min (min k.target (phaseCap (countBits 12 k.live))) 80 := by
  rw [wantedOf, hd, hp, hc]
  rfl

/-- Table 13.7: without a field at its threshold, and with every cap at 80, heat changes nothing. -/
theorem thermalCaps_cool {s : State} (hhit : s.pwr.capHit = []) (hcap : ∀ m, (s.field m).tcap = 80) :
    OnlyFields s (thermalCaps s) ∧ ∀ m, (thermalCaps s).field m = s.field m := by
  have hkeep : ∀ k : Field, k.tcap = 80 → { k with tcap := min 80 (k.tcap + 4) } = k := by
    intro k hk
    obtain ⟨⟩ := k
    cases hk
    rfl
  rw [thermalCaps, hhit]
  simp only [List.contains_nil, Bool.false_eq_true, if_false]
  generalize hv : List.foldl _ s (List.range 12) = v
  have h : OnlyFields s v ∧ ∀ m, v.field m = s.field m := by
    rw [← hv]
    refine List.foldlRecOn (motive := fun u => OnlyFields s u ∧ ∀ m, u.field m = s.field m) _ _ ⟨rfl, fun _ => rfl⟩ fun u hu n _ => ?_
    split
    · refine ⟨hu.1.trans rfl, fun m => ?_⟩
      by_cases hm : m = n
      · subst hm
        rw [field_modField, hkeep _ (by rw [hu.2, hcap]), hu.2]
      · rw [field_modField_ne _ _ hm, hu.2]
    · exact hu
  have hw : modPwr v (fun w => { w with capHit := [] }) = v := by
    have : { v.pwr with capHit := [] } = v.pwr := by rw [h.1.pwr, ← hhit]
    rw [modPwr, this]
  rw [hw]
  exact h

/-- R417, R418: a field whose target has been trimmed. -/
def trimmed (s : State) (k : Field) : Field :=
  { k with
    target := if Config.nominalStep < k.target then min k.target (max Config.nominalStep (wantedOf s k)) else k.target }

/-- The fields whose network is on have each stepped to what `g` makes of them; the others stand. -/
structure FieldsStep (s t : State) (g : Field → Field) : Prop where
  only : OnlyFields s t
  on : ∀ n, fieldOn s n = true → t.field n = g (s.field n)
  off : ∀ n, fieldOn s n ≠ true → t.field n = s.field n

theorem fieldsStep_foldl {s : State} {step : State → Nat → State} {g : Field → Field}
    (hstep : ∀ u n, OnlyFields s u → OnlyFields u (step u n) ∧ (step u n).field n = g (u.field n) ∧
      ∀ m, m ≠ n → (step u n).field m = u.field m) : FieldsStep s ((onFields s).foldl step s) g := by
  obtain ⟨h1, h2, h3⟩ := foldl_each (g := fun _ => g) hstep (onFields s) (nodup_onFields s)
  exact ⟨h1, fun n hn => h2 n (mem_onFields.2 hn), fun n hn => h3 n fun hm => hn (mem_onFields.1 hm)⟩

theorem trimTargets_step (s : State) : FieldsStep s (trimTargets s) (trimmed s) := by
  rw [trimTargets]
  refine fieldsStep_foldl fun u n hu => ?_
  refine ⟨rfl, ?_, fun m hm => field_modField_ne _ _ hm⟩
  rw [field_modField, stepWanted_eq, wantedOf_congr hu.cfg]
  rfl

/-- R417: what a field is set to where its STEP asks for it. -/
def retargeted (s : State) (p : Nat → Bool) (f : Nat → Nat) (k : Field) : Field :=
  if p (wantedOf s k) then { k with target := f (wantedOf s k) } else k

theorem retarget_step (s : State) (p : Nat → Bool) (f : Nat → Nat) : FieldsStep s (retarget s p f) (retargeted s p f) := by
  rw [retarget]
  refine fieldsStep_foldl fun u n hu => ?_
  rw [stepWanted_eq, wantedOf_congr hu.cfg, retargeted]
  split
  · exact ⟨rfl, field_modField u n _, fun m hm => field_modField_ne _ _ hm⟩
  · exact ⟨rfl, rfl, fun _ _ => rfl⟩

theorem steady_lowerSteps (s : State) (x : Nat) : Steady (retarget s (fun y => decide (x < y)) (fun y => y - 2)) (lowerSteps s x) := by
  rw [lowerSteps]
  split
  · exact (steady_modPwr _ _).trans (steady_throttleEvent _)
  · exact Steady.refl _

/-- R417, R418: the measure of a decision that neither a brake nor Decaf mode shuts out. -/
def measure (s : State) : State :=
  if decide (limitNow s < avg10 s) || s.pwr.bladeOver then lowerOne s
  else
    let t := modPwr s (fun w => { w with unmet := false })
    if (onFields s).any (fun n => decide (Config.nominalStep < (s.field n).target)) && (!boostOn t || decide (limitNow t ≤ avg10 t)) then
      lowerSteps t Config.nominalStep
    else if under3 t then raiseOne t
    else t

/-- R416 to R419: a decision without a brake and without Decaf mode. -/
theorem governor_eq {s : State} (hm : s.wake.mgmt = false) (hno : ∀ t, t = trimTargets (thermalCaps s) →
    t.pwr.brake = false ∧ t.pwr.decafBrake = false ∧ decaf t = false) : governor s =
      schedule (modPwr ((List.range 16).foldl subLimit (measure (trimTargets (thermalCaps s))))
        (fun w => { w with applied := measures ((List.range 16).foldl subLimit (measure (trimTargets (thermalCaps s)))) })) := by
  obtain ⟨h1, h2, h3⟩ := hno _ rfl
  rw [governor, if_neg (by rw [hm]; exact Bool.false_ne_true)]
  refine if_neg ?_
  rw [h1, h2, h3]
  exact Bool.false_ne_true

/-- R416 to R419: a decision of a cool device without sub-limits trims the targets, applies its measure and changes no target else. -/
theorem governor_decided {s : State} (hm : s.wake.mgmt = false) (hb : s.pwr.brake = false) (hdb : s.pwr.decafBrake = false)
    (hd : cfgNum s 0x10 0x0007 0 0 ≠ 1) (hhit : s.pwr.capHit = []) (hfree : ∀ m, (s.field m).partTgt = [] ∧ (s.field m).tcap = 80)
    (hlim : ∀ p < 16, cfgNum s 0x10 0x0010 p 0 = 0) : ∃ v, FieldsStep s v (trimmed s) ∧
      ∀ u, u.cfg = s.cfg → (∀ m, (u.field m).partTgt = []) → Steady u (measure v) → Steady u (governor s) := by
  obtain ⟨hcool, hsame⟩ := thermalCaps_cool hhit fun m => (hfree m).2
  have htrim := trimTargets_step (thermalCaps s)
  have honly := hcool.trans htrim.only
  have hg : trimmed (thermalCaps s) = trimmed s := by
    funext k
    rw [trimmed, trimmed, wantedOf_congr hcool.cfg]
  refine ⟨trimTargets (thermalCaps s), ⟨honly, fun n hn => ?_, fun n hn => ?_⟩, fun u hcfg hpart hsteady => ?_⟩
  · rw [htrim.on n (by rw [hcool.fieldOn]; exact hn), hsame, hg]
  · rw [htrim.off n (by rw [hcool.fieldOn]; exact hn), hsame]
  · rw [governor_eq hm (by
      rintro t rfl
      rw [honly.pwr, honly.decaf, decaf]
      exact ⟨hb, hdb, beq_false_of_ne hd⟩)]
    refine hsteady.trans (steady_decided (fun p hp => ?_) fun m => ?_)
    · rw [cfgNum, hsteady.cfg, hcfg]
      exact hlim p hp
    · rw [hsteady.part, hpart]

/-- R415, R417: what is measured against the limit does not change with the fields. -/
theorem OnlyFields.measured {s t : State} (h : OnlyFields s t) : limitNow t = limitNow s ∧ avg10 t = avg10 s := by
  rw [limitNow, limitNow, avg10, avg10, h.pwr]
  exact ⟨rfl, rfl⟩

theorem trimmed_low {s : State} {k : Field} (h : k.target ≤ Config.nominalStep) : trimmed s k = k := by
  rw [trimmed, if_neg (by omega)]

/-- R417: with no target above nominal, the fields stand as they are before a measure. -/
theorem FieldsStep.low {s v : State} (h : FieldsStep s v (trimmed s)) (hlow : ∀ m, fieldOn s m = true → (s.field m).target ≤ Config.nominalStep) :
    ∀ m, v.field m = s.field m := by
  intro m
  by_cases hm : fieldOn s m = true
  · rw [h.on m hm, trimmed_low (hlow m hm)]
  · exact h.off m hm

theorem measure_exceeds {v : State} (h : limitNow v < avg10 v) : measure v = lowerOne v := by
  rw [measure, if_pos (by rw [decide_eq_true h]; rfl)]

/-- R417: with a field that runs and none above nominal, the measure lowers every field that runs. -/
theorem lowerOne_fields {v : State} {n : Nat} (hn : fieldOn v n = true) (hpos : 0 < stepWanted v n)
    (hlow : ∀ m, fieldOn v m = true → stepWanted v m ≤ Config.nominalStep) : lowerOne v = lowerSteps v 0 := by
  have hhigh : (onFields v).any (fun n => decide (Config.nominalStep < stepWanted v n)) = false := by
    rw [List.any_eq_false]
    intro m hm
    have := hlow m (mem_onFields.1 hm)
    simpa using this
  have hsome : (onFields v).any (fun n => decide (0 < stepWanted v n)) = true :=
    List.any_eq_true.2 ⟨n, mem_onFields.2 hn, decide_eq_true hpos⟩
  rw [lowerOne]
  dsimp only
  rw [hhigh, hsome]
  rfl

theorem lowerSteps_target {v r : State} {n x : Nat} (hn : fieldOn v n = true) (hx : x < stepWanted v n)
    (h : Steady (retarget v (fun y => decide (x < y)) (fun y => y - 2)) r) : (r.field n).target = stepWanted v n - 2 := by
  rw [h.target, (retarget_step v _ _).on n hn, retargeted, ← stepWanted_eq, if_pos (decide_eq_true hx)]

theorem retargeted_partTgt (s : State) (p : Nat → Bool) (f : Nat → Nat) (k : Field) : (retargeted s p f k).partTgt = k.partTgt := by
  rw [retargeted]
  split <;> rfl

/-- What a step of the fields keeps of every field, where its function does. -/
theorem FieldsStep.keeps {α : Type} {s t : State} {g : Field → Field} (h : FieldsStep s t g) (q : Field → α) (hq : ∀ k, q (g k) = q k) (m : Nat) :
    q (t.field m) = q (s.field m) := by
  by_cases hm : fieldOn s m = true
  · rw [h.on m hm, hq]
  · rw [h.off m hm]

/-- A measure that lowers the fields above STEP `x` decides the targets of a decision. -/
theorem governor_lowers {s v w : State} {n x : Nat} (hn : fieldOn s n = true) (hv : OnlyFields s v) (hw : w.mem = v.mem ∧ w.cores = v.cores ∧
    w.cfg = v.cfg ∧ (∀ m, w.field m = v.field m) ∧ fieldOn w n = fieldOn v n)
    (hpart : ∀ m, (v.field m).partTgt = []) (hx : x < stepWanted v n) (hmeas : measure v = lowerSteps w x)
    (hgov : ∀ u, u.cfg = s.cfg → (∀ m, (u.field m).partTgt = []) → Steady u (measure v) → Steady u (governor s)) :
    (governor s).mem = s.mem ∧ (governor s).cores = s.cores ∧ ((governor s).field n).target = stepWanted v n - 2 := by
  obtain ⟨hmem, hcores, hcfg, hfield, hon⟩ := hw
  have hr := retarget_step w (fun y => decide (x < y)) (fun y => y - 2)
  have hwant : stepWanted w n = stepWanted v n := by rw [stepWanted_eq, stepWanted_eq, wantedOf_congr hcfg, hfield]
  have hst := hgov (retarget w (fun y => decide (x < y)) (fun y => y - 2)) (by rw [hr.only.cfg, hcfg, hv.cfg])
    (fun m => by rw [hr.keeps (·.partTgt) (retargeted_partTgt _ _ _), hfield, hpart]) (by rw [hmeas]; exact steady_lowerSteps w x)
  refine ⟨by rw [hst.mem, hr.only.mem, hmem, hv.mem], by rw [hst.cores, hr.only.cores, hcores, hv.cores], ?_⟩
  rw [lowerSteps_target (by rw [hon, hv.fieldOn, hn]) (by rw [hwant]; exact hx) hst, hwant]

/-- R417: a raise gives a field below nominal 2 STEPs more. -/
def raised (k : Field) : Field :=
  { k with target := if k.target < Config.nominalStep then min Config.nominalStep (k.target + 2) else k.target }

theorem raiseOne_step {w : State} {n : Nat} (hn : fieldOn w n = true) (hlow : (w.field n).target < Config.nominalStep)
    (hcut : ∀ i < 16, (w.stack i).st ≠ .ready ∨ (w.stack i).throttled = true ∨ rateLimit w ≤ (w.stack i).rate) :
    FieldsStep w (raiseOne w) raised := by
  have hnone : (List.range 16).any (fun i => (w.stack i).st == .ready && !(w.stack i).throttled && decide ((w.stack i).rate < rateLimit w)) = false := by
    rw [List.any_eq_false]
    intro i hi
    rcases hcut i (List.mem_range.1 hi) with h | h | h
    · simp [h]
    · simp [h]
    · simp [Nat.not_lt.2 h]
  have hsome : (onFields w).any (fun n => decide ((w.field n).target < Config.nominalStep)) = true :=
    List.any_eq_true.2 ⟨n, mem_onFields.2 hn, decide_eq_true hlow⟩
  rw [raiseOne]
  dsimp only
  rw [hnone, hsome]
  exact fieldsStep_foldl fun u m _ => modField_each u m _

section

variable {s : State} {n : Nat}

/-- R417: what a decision does to the targets where none is above nominal. -/
theorem governor_low (hn : fieldOn s n = true) (hb : s.pwr.brake = false) (hdb : s.pwr.decafBrake = false)
    (hd : cfgNum s 0x10 0x0007 0 0 ≠ 1) (hm : s.wake.mgmt = false) (hhit : s.pwr.capHit = [])
    (hfree : ∀ m, (s.field m).partTgt = [] ∧ (s.field m).tcap = 80) (hlim : ∀ p < 16, cfgNum s 0x10 0x0010 p 0 = 0)
    (hlow : ∀ m, fieldOn s m = true → (s.field m).target ≤ Config.nominalStep) :
    (limitNow s < avg10 s → 0 < stepWanted s n → ∃ t, exec .governorDecision s = .next t ∧ t.mem = s.mem ∧ t.cores = s.cores ∧
      (t.field n).target = stepWanted s n - 2) ∧
    (avg10 s ≤ limitNow s → 97 * limitNow s < 100 * avg10 s → s.pwr.bladeOver = false →
      ∃ t, exec .governorDecision s = .next t ∧ t.mem = s.mem ∧ t.cores = s.cores ∧ (t.field n).target = (s.field n).target) ∧
    (100 * avg10 s ≤ 97 * limitNow s → s.pwr.bladeOver = false → (s.field n).target < Config.nominalStep →
      (∀ i < 16, (s.stack i).st ≠ .ready ∨ (s.stack i).throttled = true ∨ rateLimit s ≤ (s.stack i).rate) →
      ∃ t, exec .governorDecision s = .next t ∧ t.mem = s.mem ∧ t.cores = s.cores ∧
        (t.field n).target = min Config.nominalStep ((s.field n).target + 2)) := by
  obtain ⟨v, hv, hgov⟩ := governor_decided hm hb hdb hd hhit hfree hlim
  have hf := hv.low hlow
  obtain ⟨hlimit, havg⟩ := hv.only.measured
  have hblade : v.pwr.bladeOver = s.pwr.bladeOver := by rw [hv.only.pwr]
  have hwant : ∀ m, stepWanted v m = stepWanted s m := fun m => by rw [stepWanted_eq, stepWanted_eq, wantedOf_congr hv.only.cfg, hf]
  have hnotBoosted : (onFields v).any (fun n => decide (Config.nominalStep < (v.field n).target)) = false := by
    rw [List.any_eq_false]
    intro m hm
    rw [hv.only.onFields] at hm
    rw [hf, decide_eq_true_eq, Nat.not_lt]
    exact hlow m (mem_onFields.1 hm)
  have hmeasure : avg10 s ≤ limitNow s → s.pwr.bladeOver = false → measure v =
      if under3 (modPwr v (fun w => { w with unmet := false })) then raiseOne (modPwr v (fun w => { w with unmet := false }))
      else modPwr v (fun w => { w with unmet := false }) := by
    intro hle hbl
    rw [measure, if_neg (by rw [hlimit, havg, hblade, hbl, decide_eq_false (by omega)]; exact Bool.false_ne_true)]
    refine if_neg ?_
    rw [hnotBoosted]
    exact Bool.false_ne_true
  have hunder : under3 (modPwr v (fun w => { w with unmet := false })) = (decide (100 * avg10 s ≤ 97 * limitNow s) && !s.pwr.bladeOver) := by
    rw [← havg, ← hlimit, ← hblade]
    rfl
  refine ⟨fun hover hpos => ⟨_, rfl, ?_⟩, fun hle hnear hbl => ⟨_, rfl, ?_⟩, fun hfar hbl hbelow hcut => ⟨_, rfl, ?_⟩⟩
  · rw [← hwant n] at hpos ⊢
    refine governor_lowers (x := 0) hn hv.only ⟨rfl, rfl, rfl, fun _ => rfl, rfl⟩ (fun m => by rw [hf]; exact (hfree m).1) hpos ?_ hgov
    rw [measure_exceeds (by rw [hlimit, havg]; exact hover)]
    refine lowerOne_fields (n := n) (by rw [hv.only.fieldOn, hn]) hpos fun m hm => ?_
    rw [hwant, stepWanted_eq, wantedOf_free (beq_false_of_ne hd) (hfree m).1 (hfree m).2]
    have := hlow m (by rw [← hv.only.fieldOn]; exact hm)
    omega
  · have hst := hgov (modPwr v (fun w => { w with unmet := false })) hv.only.cfg (fun m => by exact (hf m).symm ▸ (hfree m).1) (by
      rw [hmeasure hle hbl, if_neg (by rw [hunder, decide_eq_false (by omega)]; exact Bool.false_ne_true)]
      exact Steady.refl _)
    exact ⟨hst.mem.trans hv.only.mem, hst.cores.trans hv.only.cores, (hst.target n).trans (congrArg Field.target (hf n))⟩
  · have hraise := raiseOne_step (w := modPwr v (fun w => { w with unmet := false })) (n := n) (by exact (hv.only.fieldOn n).trans hn)
      (by change (v.field n).target < _; rw [hf]; exact hbelow) (by
        intro i hi
        have := hcut i hi
        rw [show (modPwr v (fun w => { w with unmet := false })).stack i = v.stack i from rfl, hv.only.stack,
          show rateLimit (modPwr v (fun w => { w with unmet := false })) = rateLimit v from rfl,
          show rateLimit v = rateLimit s by rw [rateLimit, rateLimit, cfgNum, cfgNum, hv.only.cfg]]
        exact this)
    have hst := hgov (raiseOne (modPwr v (fun w => { w with unmet := false }))) (hraise.only.cfg.trans hv.only.cfg)
      (fun m => by rw [hraise.keeps (·.partTgt) (fun _ => rfl)]; exact (hf m).symm ▸ (hfree m).1) (by
      rw [hmeasure (by omega) hbl, if_pos (by rw [hunder, decide_eq_true (by omega), hbl]; rfl)]
      exact Steady.refl _)
    refine ⟨hst.mem.trans (hraise.only.mem.trans hv.only.mem), hst.cores.trans (hraise.only.cores.trans hv.only.cores), ?_⟩
    rw [hst.target, hraise.on n (by exact (hv.only.fieldOn n).trans hn)]
    change (raised (v.field n)).target = _
    rw [hf, raised, if_pos hbelow]

/-- R22, R418: a boosted field comes down as the average reaches the limit. -/
theorem governor_boosted (hn : fieldOn s n = true) (hb : s.pwr.brake = false) (hdb : s.pwr.decafBrake = false)
    (hd : cfgNum s 0x10 0x0007 0 0 ≠ 1) (hm : s.wake.mgmt = false) (hhit : s.pwr.capHit = [])
    (hfree : ∀ m, (s.field m).partTgt = [] ∧ (s.field m).tcap = 80) (hlim : ∀ p < 16, cfgNum s 0x10 0x0010 p 0 = 0)
    (hbl : s.pwr.bladeOver = false) (heq : avg10 s = limitNow s) (hhigh : Config.nominalStep < stepWanted s n) :
    ∃ t, exec .governorDecision s = .next t ∧ t.mem = s.mem ∧ t.cores = s.cores ∧ (t.field n).target = stepWanted s n - 2 := by
  obtain ⟨v, hv, hgov⟩ := governor_decided hm hb hdb hd hhit hfree hlim
  obtain ⟨hlimit, havg⟩ := hv.only.measured
  have hblade : v.pwr.bladeOver = s.pwr.bladeOver := by rw [hv.only.pwr]
  have hs := hhigh
  rw [stepWanted_eq, wantedOf_free (beq_false_of_ne hd) (hfree n).1 (hfree n).2] at hs
  have hvn : v.field n = { s.field n with target := min (s.field n).target (stepWanted s n) } := by
    rw [hv.on n hn, trimmed, if_pos (by omega), ← stepWanted_eq, Nat.max_eq_right (by omega)]
  have hwant : stepWanted v n = stepWanted s n := by
    rw [stepWanted_eq v, wantedOf_free (by rw [hv.only.decaf]; exact beq_false_of_ne hd) (by rw [hvn]; exact (hfree n).1)
      (by rw [hvn]; exact (hfree n).2), hvn, stepWanted_eq, wantedOf_free (beq_false_of_ne hd) (hfree n).1 (hfree n).2]
    dsimp only
    omega
  have hboosted : (onFields v).any (fun n => decide (Config.nominalStep < (v.field n).target)) = true := by
    refine List.any_eq_true.2 ⟨n, mem_onFields.2 (by rw [hv.only.fieldOn, hn]), decide_eq_true ?_⟩
    rw [hvn]
    dsimp only
    omega
  refine ⟨_, rfl, ?_⟩
  rw [← hwant] at hhigh ⊢
  refine governor_lowers (w := modPwr v (fun w => { w with unmet := false })) hn hv.only ⟨rfl, rfl, rfl, fun _ => rfl, rfl⟩
    (fun m => by rw [hv.keeps (·.partTgt) (fun _ => rfl)]; exact (hfree m).1) hhigh ?_ hgov
  rw [measure, if_neg (by rw [hlimit, havg, hblade, hbl, decide_eq_false (by omega)]; exact Bool.false_ne_true)]
  refine if_pos ?_
  rw [hboosted]
  change (_ && (_ || decide (limitNow v ≤ avg10 v))) = true
  rw [hlimit, havg, decide_eq_true (by omega), Bool.or_true]
  rfl

end

/-! ### The brakes -/

/-- Only the clock changes and the fields differ. -/
def ClkFields (s t : State) : Prop := { t with clk := s.clk, fields := s.fields } = s

section
variable {s t : State} (h : ClkFields s t)
include h

theorem ClkFields.mem : t.mem = s.mem := by rw [← h]
theorem ClkFields.cores : t.cores = s.cores := by rw [← h]
theorem ClkFields.cfg : t.cfg = s.cfg := by rw [← h]
theorem ClkFields.pwr : t.pwr = s.pwr := by rw [← h]
theorem ClkFields.hbms : t.hbms = s.hbms := by rw [← h]
theorem ClkFields.out : t.out = s.out := by rw [← h]
theorem ClkFields.echoM : t.echoM = s.echoM := by rw [← h]
theorem ClkFields.fieldOn (n : Nat) : fieldOn t n = fieldOn s n := by
  rw [Machine.fieldOn, Machine.fieldOn, ← h]
  rfl
theorem ClkFields.onFields : onFields t = onFields s := by
  rw [Machine.onFields, Machine.onFields]
  exact List.filter_congr fun n _ => h.fieldOn n

theorem ClkFields.trans {u : State} (k : ClkFields t u) : ClkFields s u := by
  rw [ClkFields, ← k] at h
  exact h

end

theorem clkFields_modClk (s : State) (f : Clk → Clk) : ClkFields s (modClk s f) := rfl

theorem OnlyFields.clkFields {s t : State} (h : OnlyFields s t) : ClkFields s t := by
  rw [ClkFields]
  have : { t with clk := s.clk, fields := s.fields } = { t with fields := s.fields } := by rw [← h.clk]
  rw [this]
  exact h

/-- R380: arming a change touches the clocks and the fields it covers alone. -/
theorem armChange_only (s : State) (c : ClkChange) : ClkFields s (armChange s c) ∧ (armChange s c).clk.armed = some c := by
  rw [armChange]
  dsimp only
  generalize hu : modClk s _ = u
  have h : OnlyFields u (List.foldl (fun s x =>
    modField s x.1 (fun k =>
      { setIdleLock k false with
        idleStep := some x.2
        vcore := max k.vcore (vcoreFor x.1 x.2) })) u (covered u c)) :=
    List.foldlRecOn (motive := fun v => OnlyFields u v) _ _ rfl fun v hv x _ => hv.trans rfl
  refine ⟨ClkFields.trans (by rw [← hu]; rfl) h.clkFields, ?_⟩
  rw [h.clk, ← hu]
  rfl

/-- R378: a cancellation with no change held touches the clocks and the fields alone, and leaves nothing armed. -/
theorem cancelChange_only {s : State} (hheld : s.clk.held = []) (notrdy : Nat) : ClkFields s (cancelChange s notrdy) := by
  cases harm : s.clk.armed with
  | none => rw [cancelChange, harm]; rfl
  | some c =>
    obtain ⟨k, -, -, -, -, honly, -⟩ := cancelChange_effect notrdy harm hheld
    exact (show ClkFields s { s with clk := k } from rfl).trans honly.clkFields

/-- Only the stacks differ. -/
def OnlyStacks (s t : State) : Prop := { t with hbms := s.hbms } = s

/-- Each of the first `N` stacks changed in the same way. -/
theorem foldl_modStack (s : State) (f : Stack → Stack) (N : Nat) :
    OnlyStacks s ((List.range N).foldl (fun s i => modStack s i f) s) ∧
      (∀ i < N, ((List.range N).foldl (fun s i => modStack s i f) s).stack i = f (s.stack i)) ∧
      ∀ i, N ≤ i → ((List.range N).foldl (fun s i => modStack s i f) s).stack i = s.stack i := by
  induction N with
  | zero => exact ⟨rfl, nofun, fun _ _ => rfl⟩
  | succ N ih =>
    obtain ⟨h1, h2, h3⟩ := ih
    rw [List.range_succ, List.foldl_append]
    refine ⟨h1, fun i hi => ?_, fun i hi => ?_⟩
    · change (modStack _ N f).stack i = _
      by_cases hN : i = N
      · rw [hN, stack_modStack, h3 N le_rfl]
      · rw [stack_modStack_ne _ _ hN, h2 i (by omega)]
    · change (modStack _ N f).stack i = _
      rw [stack_modStack_ne _ _ (by omega), h3 i (by omega)]

/-- R420: what Lantern's brake does. -/
theorem brakeOn_effect (s : State) : (brakeOn s).mem = s.mem ∧ (brakeOn s).cores = s.cores ∧ (brakeOn s).pwr.brake = true ∧
    (∀ i < 16, ((brakeOn s).stack i).rate = min (s.stack i).rate 256) ∧ (∀ n, fieldOn s n = true → ((brakeOn s).field n).target = 0) ∧
    (brakeOn s).clk.armed = some ⟨s.echoM.toNat + 50000, (onFields s).map (fun n => (n, 0)), false⟩ := by
  have h1 : ClkFields s (cancelChange (modClk s (fun k => { k with held := [] })) 0) :=
    (clkFields_modClk s _).trans (cancelChange_only rfl 0)
  rw [brakeOn]
  generalize cancelChange (modClk s (fun k => { k with held := [] })) 0 = u1 at h1 ⊢
  have h2 := fieldsStep_foldl (s := u1) (step := fun s n => modField s n (fun k => { k with target := 0 })) (g := fun k => { k with target := 0 })
    fun u n _ => modField_each u n _
  generalize (onFields u1).foldl (fun s n => modField s n (fun k => { k with target := 0 })) u1 = u2 at h2 ⊢
  have h12 := h1.trans h2.only.clkFields
  rw [h12.echoM, h12.onFields]
  generalize hc : ClkChange.mk (s.echoM.toNat + 50000) _ false = c
  obtain ⟨h3, harmed⟩ := armChange_only u2 c
  have hst := steady_armChange u2 c
  generalize armChange u2 c = u3 at h3 harmed hst ⊢
  obtain ⟨h4, hrate, -⟩ := foldl_modStack u3 (fun k => { k with rate := min k.rate 256 }) 16
  generalize (List.range 16).foldl (fun s i => modStack s i (fun k => { k with rate := min k.rate 256 })) u3 = u4 at h4 hrate ⊢
  have h5 := logged_throttleEvent (countThrottle (modPwr u4 (fun w => { w with brake := true })))
  have h13 := h12.trans h3
  rw [h5]
  have hfields : u4.fields = u3.fields := by rw [← h4]
  refine ⟨?_, ?_, rfl, fun i hi => ?_, fun n hn => ?_, ?_⟩
  · change u4.mem = _
    rw [show u4.mem = u3.mem by rw [← h4], h13.mem]
  · change u4.cores = _
    rw [show u4.cores = u3.cores by rw [← h4], h13.cores]
  · change (u4.stack i).rate = _
    rw [hrate i hi]
    change min (mget Stack.reset u3.hbms i).rate 256 = _
    rw [h13.hbms]
    rfl
  · change (mget Field.reset u4.fields n).target = _
    rw [hfields]
    change (u3.field n).target = _
    rw [hst.target, h2.on n (by rw [h1.fieldOn, hn])]
  · change u4.clk.armed = _
    rw [show u4.clk = u3.clk by rw [← h4], harmed]

/-- R425: what the Decaf brake does. -/
theorem decafBrakeOn_effect (s : State) : (decafBrakeOn s).mem = s.mem ∧ (decafBrakeOn s).cores = s.cores ∧
    (decafBrakeOn s).pwr.decafBrake = true ∧ ∀ n, fieldOn s n = true → ((decafBrakeOn s).field n).target = stepWanted s n - 16 := by
  have h1 := retarget_step s (fun _ => true) (fun x => x - 16)
  have h2 := steady_schedule (retarget s (fun _ => true) (fun x => x - 16))
  have h3 := steady_throttleEvent (countThrottle (modPwr (schedule (retarget s (fun _ => true) (fun x => x - 16))) (fun w => { w with decafBrake := true })))
  have h4 := logged_throttleEvent (countThrottle (modPwr (schedule (retarget s (fun _ => true) (fun x => x - 16))) (fun w => { w with decafBrake := true })))
  rw [decafBrakeOn]
  generalize schedule (retarget s (fun _ => true) (fun x => x - 16)) = u at h2 h3 h4 ⊢
  refine ⟨h3.mem.trans (h2.mem.trans h1.only.mem), h3.cores.trans (h2.cores.trans h1.only.cores), ?_, fun n hn => ?_⟩
  · rw [h4]
    rfl
  · refine (h3.target n).trans ((h2.target n).trans ?_)
    rw [h1.on n hn, retargeted, ← stepWanted_eq, if_pos rfl]

/-! ### Lending -/

/-- The frame of a limit that is sent: at most the limit taken from the manager, and a message. -/
def LimitSent (s t : State) : Prop := { t with pwr := { t.pwr with lent := s.pwr.lent }, out := s.out } = s

theorem LimitSent.trans {s t u : State} (h : LimitSent s t) (k : LimitSent t u) : LimitSent s u := by
  rw [LimitSent, ← k] at h
  exact h

theorem LimitSent.mem {s t : State} (h : LimitSent s t) : t.mem = s.mem := by rw [← h]
theorem LimitSent.cores {s t : State} (h : LimitSent s t) : t.cores = s.cores := by rw [← h]
theorem LimitSent.raises {s t : State} (h : LimitSent s t) : t.pwr.raises = s.pwr.raises := by rw [← h]
theorem LimitSent.lowered {s t : State} (h : LimitSent s t) : t.pwr.lowered = s.pwr.lowered := by rw [← h]
theorem LimitSent.devId {s t : State} (h : LimitSent s t) : t.devId = s.devId := by rw [← h]

theorem sendLimit_effect (s : State) (dev w : Nat) : LimitSent s (sendLimit s dev w) ∧
    (sendLimit s dev w).out = s.out ++ if dev ≠ s.devId then [.lend dev 6 w] else [] := by
  rw [sendLimit, takeLimit]
  by_cases h : dev = s.devId
  · rw [if_pos h, if_neg (c := dev ≠ s.devId) (fun hn => hn h), List.append_nil]
    split <;> exact ⟨rfl, rfl⟩
  · rw [if_neg h, if_pos h]
    exact ⟨rfl, rfl⟩

/-- R424: the limits of a round, sent one by one. -/
theorem foldl_sendLimit (l : List (Nat × Nat)) (s : State) : LimitSent s (l.foldl (fun s x => sendLimit s x.1 x.2) s) ∧
    (l.foldl (fun s x => sendLimit s x.1 x.2) s).out =
      s.out ++ (l.filter (fun x => decide (x.1 ≠ s.devId))).map (fun x => .lend x.1 6 x.2) := by
  induction l generalizing s with
  | nil => exact ⟨rfl, (List.append_nil _).symm⟩
  | cons x l ih =>
    obtain ⟨h1, h2⟩ := sendLimit_effect s x.1 x.2
    obtain ⟨h3, h4⟩ := ih (sendLimit s x.1 x.2)
    have hdev : (sendLimit s x.1 x.2).devId = s.devId := h1.devId
    refine ⟨h1.trans h3, ?_⟩
    rw [List.foldl_cons, h4, h2, hdev, List.filter_cons, List.append_assoc]
    by_cases hx : x.1 = s.devId <;> simp [hx]

theorem clkFields_schedule (s : State) : ClkFields s (schedule s) := by
  rw [schedule, requestChange]
  split
  · rfl
  · split
    · rfl
    · exact (armChange_only s _).1

/-- R414: the state with a sample of the powers taken. -/
def sampled (compute aux : Nat) (parts : List Nat) (s : State) : State :=
  modPwr s (fun w =>
    { w with
      power := (compute :: w.power).take 100
      auxPower := aux
      partPower := (List.range parts.length).foldl (fun m p =>
        mset m p ((parts.getD p 0 :: mget [] m p).take 100)) w.partPower })

/-- R423, R424: a round opens with the limits to raise after its confirmations, and those that its decreases take the place of. -/
def lendOpened (ms : List LendMember) (old : Nat → Nat) (s : State) : State :=
  modPwr s (fun w =>
    { w with
      raises := (lendNew ms).filter (fun x => decide (old x.1 < x.2))
      lowered := ((lendNew ms).filter (fun x => decide (x.2 < old x.1))).map (fun x => (x.1, old x.1)) })

/-- Settles O51: the decision is cut into what trims the targets, the measure that R417 chooses, and what follows it and changes no target. -/
theorem theGovernorKeepsTheLimit : Obligations.TheGovernorKeepsTheLimit := by
  unfold Obligations.TheGovernorKeepsTheLimit
  refine ⟨?brakes, ?low, ?boosted, ?release, ?decaf, ?lending, ?confirm, fun s => ⟨_, rfl, rfl, rfl⟩⟩
  case brakes =>
    intro s w aux a top parts p hp ha htop
    have hne : p ≠ [] := by rw [hp]; exact List.cons_ne_nil _ _
    have havg : avg1 (sampled w aux parts s) = a := by
      rw [avg1, avgOf, show (sampled w aux parts s).pwr.power = p from hp.symm, if_neg hne, ha]
    refine ⟨fun hb hover => ?_, fun hno hd => ?_⟩
    · obtain ⟨h1, h2, h3, h4, h5, h6⟩ := brakeOn_effect (sampled w aux parts s)
      refine ⟨_, ?_, h1, h2, h3, h4, h5, h6⟩
      change Host.Outcome.next (checkBrakes (sampled w aux parts s)) = _
      rw [checkBrakes]
      refine congrArg Host.Outcome.next (if_pos ⟨?_, ?_⟩)
      · change (!s.pwr.brake) = true
        rw [hb]
        rfl
      · rw [havg]
        subst htop
        exact hover
    · refine ⟨sampled w aux parts s, ?_, rfl, hp.symm, rfl, rfl⟩
      change Host.Outcome.next (checkBrakes (sampled w aux parts s)) = _
      rw [checkBrakes]
      refine congrArg Host.Outcome.next ((if_neg ?_).trans (if_neg ?_))
      · rintro ⟨h1, h2⟩
        rw [havg] at h2
        subst htop
        change (!s.pwr.brake) = true at h1
        obtain h | h := hno
        · rw [h] at h1
          cases h1
        · exact absurd h2 (Nat.not_lt.2 h)
      · rintro ⟨h1, -⟩
        exact hd (beq_iff_eq.1 h1)
  case low =>
    intro s n hn hb hdb hd hm hhit hfree hlim hlow
    exact governor_low hn hb hdb hd hm hhit hfree hlim hlow
  case boosted =>
    intro s n hn hb hdb hd hm hhit hfree hlim hbl heq hhigh
    exact governor_boosted hn hb hdb hd hm hhit hfree hlim hbl heq hhigh
  case release => exact fun s => ⟨_, rfl, rfl, rfl⟩
  case decaf =>
    intro s hbrake
    have hgo : exec .decafBrakeRelease s = .next (
        if 100 * avg1 s < 95 * limitNow s then
          schedule ((onFields s).foldl (fun s n => modField s n (fun k => { k with target := Config.nominalStep }))
            (modPwr s (fun w => { w with decafBrake := false })))
        else if limitNow s < avg1 s then decafBrakeOn s
        else s) := by
      change execDecafBrakeRelease s = _
      rw [execDecafBrakeRelease, hbrake]
      rfl
    refine ⟨fun hbelow => ?_, fun hover => ?_⟩
    · rw [if_pos hbelow] at hgo
      refine ⟨_, hgo, ?_⟩
      have h1 := fieldsStep_foldl (s := modPwr s (fun w => { w with decafBrake := false }))
        (step := fun s n => modField s n (fun k => { k with target := Config.nominalStep }))
        (g := fun k => { k with target := Config.nominalStep }) fun u n _ => modField_each u n _
      rw [show onFields (modPwr s (fun w => { w with decafBrake := false })) = onFields s from rfl] at h1
      generalize List.foldl _ _ (onFields s) = u at h1 ⊢
      have h2 := steady_schedule u
      refine ⟨h2.mem.trans h1.only.mem, h2.cores.trans h1.only.cores, ?_, fun n hn => ?_⟩
      · rw [(clkFields_schedule u).pwr, h1.only.pwr]
        rfl
      · rw [h2.target, h1.on n hn]
    · obtain ⟨h1, h2, h3, h4⟩ := decafBrakeOn_effect s
      rw [if_neg (by omega), if_pos hover] at hgo
      exact ⟨_, hgo, h1, h2, h3, h4⟩
  case lending =>
    intro s w grp mgr part hgrp hm
    refine ⟨fun hd => ?_, fun hd => ?_, fun ns ms old hmgr hms hold => ?_, fun hd hlow hhigh => ?_⟩
    · change execLendReport w s = _
      rw [execLendReport, hgrp]
      dsimp only
      rw [if_neg (by rw [hm]; exact Bool.false_ne_true), if_pos (c := decaf s = true) (beq_iff_eq.2 hd)]
      rfl
    · have he : exec (.lendReport w) s = .next ([(0, moduleLimit s), (1, Config.inputCeiling), (2, cfgNum s 0x10 0x0031 0 1200),
          (3, limitNow s), (4, w)].foldl (fun s x => emit s (.lend mgr x.1 x.2)) (modPwr s (fun p => { p with waitFrac := w }))) := by
        change execLendReport w s = _
        rw [execLendReport, hgrp]
        dsimp only
        rw [if_neg (by rw [hm]; exact Bool.false_ne_true), if_neg (c := decaf s = true) fun h => hd (beq_iff_eq.1 h)]
        rfl
      refine ⟨_, he, rfl, rfl, ?_⟩
      simp [emit]
    · obtain ⟨h1, h2⟩ := foldl_sendLimit ((lendNew ms).filter (fun x => decide (x.2 < old x.1))) (lendOpened ms old s)
      have he : exec (.lendRound ns) s = .next (((lendNew ms).filter (fun x => decide (x.2 < old x.1))).foldl
          (fun s x => sendLimit s x.1 x.2) (lendOpened ms old s)) := by
        change execLendRound ns s = _
        rw [execLendRound, hgrp]
        dsimp only
        rw [if_neg (by rw [hm]; rintro (h | h); exacts [h hmgr, Bool.false_ne_true h]), ← hms]
        simp only [← hold]
        rfl
      refine ⟨_, he, ?_, ?_, ?_, ?_, ?_⟩
      · exact h1.mem
      · exact h1.cores
      · exact h1.raises
      · exact h1.lowered
      · rw [h2, List.filter_filter]
        refine congrArg (fun l => s.out ++ List.map _ l) (List.filter_congr fun x _ => ?_)
        exact Bool.and_comm _ _
    · refine ⟨emit (modPwr s (fun p => { p with lent := some w })) (.lend mgr 7 w), ?_, rfl, rfl, rfl, rfl⟩
      · change execLendLimitMessage w s = _
        rw [execLendLimitMessage, hgrp]
        dsimp only
        rw [lends, hgrp, decaf, beq_false_of_ne hd, hm, takeLimit, if_pos (c := 1200 ≤ w ∧ w ≤ Config.inputCeiling) ⟨hlow, hhigh⟩]
        rfl
  case confirm =>
    intro s done
    obtain ⟨h1, h2⟩ := foldl_sendLimit s.pwr.raises (modPwr s (fun w =>
      { w with
        raises := []
        lowered := w.lowered.filter (fun d => !done.contains d.1) }))
    exact ⟨_, rfl, h1.mem, h1.cores, h1.raises, h1.lowered, h2⟩

end Sys2Proof.Machine
end

/-! SUPPORT. The issue of DMA descriptors and what an idle engine begins of itself (Sys2Proof.Obligations O27). -/
section

namespace Sys2Proof.Machine

/-! ### The registers of an engine -/

theorem eng_modDma (s : State) (c e : Nat) (f : DmaEng → DmaEng) : ((modDma s c e f).core c).eng e = f ((s.core c).eng e) := by
  rw [modDma, core_modCore]
  exact mget_mset _ _ _ _

/-- Of core `c`, at most the DMA engines, the queues and the counters differ; beside the core at most what has been shown. -/
structure EngEdit (s t : State) (c : Nat) : Prop where
  rest : { t with cores := s.cores, out := s.out } = s
  core : t.core c = { s.core c with que := (t.core c).que, cnt := (t.core c).cnt, dma := (t.core c).dma }
  others : ∀ k, k ≠ c → t.core k = s.core k

theorem EngEdit.trans {s t u : State} {c : Nat} (h : EngEdit s t c) (k : EngEdit t u c) : EngEdit s u c := by
  refine ⟨?_, ?_, fun j hj => (k.others j hj).trans (h.others j hj)⟩
  · have r := h.rest
    rw [← k.rest] at r
    exact r
  · have r := k.core
    rw [h.core] at r
    exact r

theorem engEdit_modDma (s : State) (c e : Nat) (f : DmaEng → DmaEng) : EngEdit s (modDma s c e f) c :=
  ⟨rfl, by rw [modDma, core_modCore], fun _ h => core_modCore_ne _ _ h⟩

theorem QueEdit.engEdit {s t : State} {c : Nat} (h : QueEdit s t c) : EngEdit s t c := by
  refine ⟨h.rest, ?_, h.others⟩
  rw [h.core]

theorem Shows.engEdit {s t : State} (h : Shows s t) (c : Nat) : EngEdit s t c := by
  rw [h]
  exact ⟨rfl, rfl, fun _ _ => rfl⟩

section
variable {s t : State} {c : Nat} (h : EngEdit s t c)
include h

theorem EngEdit.mem : t.mem = s.mem := by rw [← h.rest]
theorem EngEdit.marks : t.marks = s.marks := by rw [← h.rest]
theorem EngEdit.sends : t.sends = s.sends := by rw [← h.rest]
theorem EngEdit.flights : (t.core c).flights = (s.core c).flights := by rw [h.core]
theorem EngEdit.sb : (t.core c).sb = (s.core c).sb := by rw [h.core]
theorem EngEdit.ctl : (t.core c).ctl = (s.core c).ctl := by rw [h.core]
theorem EngEdit.spd : (t.core c).spd = (s.core c).spd := by rw [h.core]
theorem EngEdit.nextId : (t.core c).nextId = (s.core c).nextId := by rw [h.core]

theorem EngEdit.curDma (e : Nat) : curDma (t.core c) e = curDma (s.core c) e := by
  rw [Machine.curDma, Machine.curDma, Machine.engFlights, h.flights, ← Machine.engFlights]

end

/-- An edit of the queues keeps every engine. -/
theorem QueEdit.eng {s t : State} {c : Nat} (h : QueEdit s t c) (e : Nat) : (t.core c).eng e = (s.core c).eng e := by
  rw [h.core]
  rfl

/-! ### STREAM_IN -/

/-- The bytes that an engine holds of its stream, those in bursts first. -/
def DmaEng.held (g : DmaEng) : Bytes := g.bursts.flatMap (fun b => b.data.getD []) ++ g.buf

/-- R169: a burst of `n` bytes is cut from what an engine has collected. -/
def cutBurst (g : DmaEng) (d : DmaDesc) (n : Nat) : DmaEng :=
  { g with
    nextK := g.nextK + 1
    off := g.off + n
    buf := g.buf.drop n
    bufPoison := (g.bufPoison.filter (fun w => decide (n ≤ w))).map (fun w => w - n)
    bursts := g.bursts ++ [⟨g.nextK, n, 0, d.dst + BitVec.ofNat 64 g.off, some (g.buf.take n), g.bufPoison.filter (fun w => decide (w < n)), none⟩] }

theorem streamBursts_succ (fuel : Nat) (g : DmaEng) (d : DmaDesc) :
    streamBursts (fuel + 1) g d = g ∨ ∃ n, streamBursts (fuel + 1) g d = streamBursts fuel (cutBurst g d n) d := by
  rw [streamBursts]
  dsimp only
  generalize (if min d.burst (streamLeft g d) ≤ min g.buf.length (streamLeft g d) then min d.burst (streamLeft g d)
    else if (g.eos || g.halting) = true then min g.buf.length (streamLeft g d) else 0) = n
  by_cases hend : n = 0 ∨ 8 ≤ g.bursts.length ∨ g.bad.isSome = true
  · exact .inl (if_pos hend)
  · exact .inr ⟨n, if_neg hend⟩

/-- R169: putting bytes into bursts neither loses nor reorders them, and the binding stands. -/
theorem streamBursts_keeps (fuel : Nat) (g : DmaEng) (d : DmaDesc) :
    (streamBursts fuel g d).held = g.held ∧ (streamBursts fuel g d).bound = g.bound := by
  induction fuel generalizing g with
  | zero => exact ⟨rfl, rfl⟩
  | succ fuel ih =>
    obtain h | ⟨n, h⟩ := streamBursts_succ fuel g d
    · rw [h]
      exact ⟨rfl, rfl⟩
    · obtain ⟨h1, h2⟩ := ih (cutBurst g d n)
      rw [h, h1, h2]
      refine ⟨?_, rfl⟩
      simp [cutBurst, DmaEng.held]

theorem foldl_shows {α : Type} {step : State → α → State} (h : ∀ u a, Shows u (step u a)) (l : List α) (s : State) : Shows s (l.foldl step s) :=
  List.foldlRecOn l step (Shows.refl s) fun u hu a _ => hu.trans (h u a)

/-- R169: what an engine collects goes to its bursts alone. -/
theorem streamPut_effect (s : State) (c e : Nat) (h : DmaEng → DmaEng) (d : DmaDesc) :
    Shows (modDma s c e (fun g => streamBursts 16 (h g) d)) (streamPut s c e h d) := by
  rw [streamPut]
  refine foldl_shows (fun u b => ?_) _ _
  exact shows_sendRemote u c b.dst 1 b.len _

/-- What a step of a stream leaves: the engine holds bytes `bs`, its binding as it is. -/
theorem streamPut_holds (s : State) (c e : Nat) (h : DmaEng → DmaEng) (d : DmaDesc) : EngEdit s (streamPut s c e h d) c ∧
    (((streamPut s c e h d).core c).eng e).held = (h ((s.core c).eng e)).held ∧
    (((streamPut s c e h d).core c).eng e).bound = (h ((s.core c).eng e)).bound ∧ (((streamPut s c e h d).core c).que = (s.core c).que) := by
  have hs := streamPut_effect s c e h d
  obtain ⟨h1, h2⟩ := streamBursts_keeps 16 (h ((s.core c).eng e)) d
  refine ⟨(engEdit_modDma s c e _).trans (hs.engEdit c), ?_, ?_, ?_⟩
  · rw [hs.core, eng_modDma, h1]
  · rw [hs.core, eng_modDma, h2]
  · rw [hs.core, modDma, core_modCore]

/-- R169: a message of sound bytes `bs` is collected. -/
def collected (room : Nat) (m : QEntry) (bs : Bytes) (g : DmaEng) : DmaEng :=
  { g with
    buf := g.buf ++ bs.take room
    bufPoison := g.bufPoison ++ []
    eos := g.eos || m.info.endm
    trunc := g.trunc || decide (room < m.len * 16) }

section
variable {s : State} {c e q : Nat} {f : Flight} {d : DmaDesc} (hq : ((s.core c).eng e).bound = some q)
  (hcur : curDma (s.core c) e = some (f, .streamIn, d))
include hq hcur

/-- R169: with no message left, the engine puts what it holds into bursts. -/
theorem streamPump_empty (fuel : Nat) (hm : ((s.core c).que.q q).msgs = []) : streamPump (fuel + 1) s c e = streamPut s c e id d := by
  rw [streamPump]
  simp only [hq, hcur, hm]

/-- R169: an open stream takes the oldest message of its queue. -/
theorem streamPump_takes (fuel : Nat) {m : QEntry} {ms : List QEntry} (hm : ((s.core c).que.q q).msgs = m :: ms)
    (hs : Sound s c (((s.core c).que.q q).slotOff m.slot) (m.len * 16))
    (hopen : ((s.core c).eng e).eos = false ∧ ((s.core c).eng e).halting = false ∧ ((s.core c).eng e).bad = none ∧
      ((s.core c).eng e).off + ((s.core c).eng e).buf.length + m.len * 16 < d.len) :
    ∃ u h, QueEdit s u c ∧ ((u.core c).que.q q).msgs = ms ∧
      (h ((s.core c).eng e)).held = ((s.core c).eng e).held ++ spBytes s c (((s.core c).que.q q).slotOff m.slot) (m.len * 16) ∧
      (h ((s.core c).eng e)).bound = ((s.core c).eng e).bound ∧
      streamPump (fuel + 1) s c e = streamPump fuel (streamPut u c e h d) c e := by
  obtain ⟨heos, hhalt, hbad, hroom⟩ := hopen
  obtain ⟨hedit, hleft⟩ := queEdit_popMsg hm
  have hcount := counted_count (popMsg s c q) c 0x5F 1 (w := engSample f false 0 0)
  have hno : ¬(((s.core c).eng e).eos = true ∨ ((s.core c).eng e).halting = true ∨ ((s.core c).eng e).bad.isSome = true ∨
      d.len ≤ ((s.core c).eng e).off + ((s.core c).eng e).buf.length) := by
    rw [heos, hhalt, hbad]
    simp
    omega
  refine ⟨count (popMsg s c q) c 0x5F 1 (engSample f false 0 0), collected (d.len - (((s.core c).eng e).off + ((s.core c).eng e).buf.length)) m (spBytes s c (((s.core c).que.q q).slotOff m.slot) (m.len * 16)), hedit.trans hcount.queEdit, by rw [hcount.que]; exact hleft, ?_, ?_, ?eq⟩
  case eq =>
    rw [streamPump]
    simp only [hq, hcur, hm, if_neg hno, spRead_sound 6 hs]
    rfl
  · rw [collected, DmaEng.held, DmaEng.held]
    rw [List.append_assoc, List.take_of_length_le]
    rw [spBytes, List.length_map, List.length_range]
    omega
  · rfl

end

/-! ### What an engine begins of itself -/

/-- R169, R170: a descriptor under way that has begun what it begins of itself stands. -/
theorem dmaKick_stands {s : State} {c e : Nat} (h : ∀ f op d, curDma (s.core c) e = some (f, op, d) →
    (op = .streamIn → ((s.core c).eng e).bound.isSome = true ∨ ((s.core c).eng e).endStatus.isSome = true) ∧
    (op = .streamOut → f.begun = true ∨ ((s.core c).eng e).endStatus.isSome = true)) : dmaKick s c e = s := by
  rw [dmaKick]
  split
  · next f d hcur =>
    refine if_neg ?_
    obtain ⟨h1, -⟩ := h f _ d hcur
    rintro ⟨hb, he⟩
    obtain h1 | h1 := h1 rfl
    · rw [Option.isNone_iff_eq_none.1 hb] at h1
      cases h1
    · rw [Option.isNone_iff_eq_none.1 he] at h1
      cases h1
  · next f d hcur =>
    refine if_neg ?_
    obtain ⟨-, h1⟩ := h f _ d hcur
    rintro ⟨-, hb, he⟩
    obtain h1 | h1 := h1 rfl
    · exact hb h1
    · rw [Option.isNone_iff_eq_none.1 he] at h1
      cases h1
  · rfl

theorem curDma_of_head {k : Core} {e : Nat} {f : Flight} {fs : List Flight} {j : Fin 4} {op : DmaOp} {d : DmaDesc} (h : engFlights k (2 + e) = f :: fs)
    (hb : f.body = .dma j op d) : curDma k e = some (f, op, d) := by
  rw [curDma, h]
  dsimp only
  rw [hb]

/-- A command behind the head of an engine does not change what it executes. -/
theorem curDma_append {k k' : Core} {e : Nat} {l : List Flight} (h : engFlights k' (2 + e) = engFlights k (2 + e) ++ l) (hne : engFlights k (2 + e) ≠ []) :
    curDma k' e = curDma k e := by
  rw [curDma, curDma, h]
  cases hk : engFlights k (2 + e) with
  | nil => exact absurd hk hne
  | cons f fs => rfl

/-- An engine between two descriptors. -/
theorem idle_eng {g : DmaEng} (h : dmaClear g = g) : g.off = 0 ∧ g.bad = none ∧ g.halting = false ∧ g.bursts = [] ∧ g.bound = none ∧
    g.buf = [] ∧ g.eos = false ∧ g.endStatus = none ∧ g.nextK = 0 := by
  rw [← h]
  exact ⟨rfl, rfl, rfl, rfl, rfl, rfl, rfl, rfl, rfl⟩

section
variable {s u : State} {c : Nat} {x : XCmd} (h : Handed s u c x)
include h

theorem Handed.eng (e : Nat) : (u.core c).eng e = (s.core c).eng e := by
  rw [h.core]
  rfl

theorem Handed.que : (u.core c).que = (s.core c).que := by
  rw [h.core]
  rfl

theorem Handed.spd : (u.core c).spd = (s.core c).spd := by
  rw [h.core]
  rfl

theorem Handed.marks : u.marks = s.marks := by rw [← h.only.1]
theorem Handed.sends : u.sends = s.sends := by rw [← h.only.1]
theorem Handed.sb : (u.core c).sb = (s.core c).sb ++ engRanges (s.core c) c (s.core c).nextId x.body := h.queued.2.2

theorem Handed.spBytes (off n : Nat) : spBytes u c off n = spBytes s c off n := spBytes_congr h.spd h.mem off n

theorem Handed.sound {off n : Nat} (hs : Sound s c off n) : Sound u c off n := sound_congr h.spd h.marks hs

end

/-- A command that its engine marks begun and changes no more. -/
theorem begun_of_edit {s u t : State} {c : Nat} {x : XCmd} (h : Handed s u c x) (hidle : engFlights (s.core c) (engOf x.body) = [])
    (hfl : (t.core c).flights = (modFlight (u.core c) (s.core c).nextId (fun f => { f with begun := true })).flights)
    (hctl : (t.core c).ctl = (u.core c).ctl) (hid : (t.core c).nextId = (u.core c).nextId) : Begun s t c x := by
  refine ⟨issued_of_same h.issued hid hctl, ?_⟩
  have hmod := engFlights_modFlight (k := u.core c) (id := (s.core c).nextId) (g := fun f => { f with begun := true }) (fun _ => rfl) (engOf x.body)
  rw [h.engFlights, hidle] at hmod
  rw [engFlights, hfl, ← engFlights, hmod]
  simp [newFlight]

/-- R169: a STREAM_IN that an idle engine begins binds its queue. -/
def boundState (u : State) (c e id : Nat) (d : DmaDesc) : State :=
  modDma (modCore u c (fun k => modFlight k id (fun f => { f with begun := true }))) c e (fun g => { g with bound := some (streamQ d) })

theorem boundState_core (u : State) (c e id : Nat) (d : DmaDesc) : (boundState u c e id d).core c =
    { modFlight (u.core c) id (fun f => { f with begun := true }) with
      dma := mset (u.core c).dma e { (u.core c).eng e with bound := some (streamQ d) } } := by
  rw [boundState, modDma, core_modCore, core_modCore]
  rfl

theorem boundState_eng (u : State) (c e id : Nat) (d : DmaDesc) :
    ((boundState u c e id d).core c).eng e = { (u.core c).eng e with bound := some (streamQ d) } := by
  rw [boundState_core]
  exact mget_mset _ _ _ _

section
variable {s u : State} {c : Nat} {e : Fin 4} {i : Issue} {d : DmaDesc}

/-- R169: an idle engine binds the queue of the STREAM_IN that it is handed. -/
theorem kick_streamIn (h : Handed s u c ⟨i, .dma e .streamIn d⟩) (hidle : DmaIdle s c e.val) :
    engKick u c (.dma e .streamIn d) = streamPump queueFuel (boundState u c e.val (s.core c).nextId d) c e.val ∧
      ∃ f, curDma ((boundState u c e.val (s.core c).nextId d).core c) e.val = some (f, .streamIn, d) := by
  obtain ⟨hempty, hclear⟩ := hidle
  obtain ⟨-, -, -, -, hbound, -, -, hend, -⟩ := idle_eng hclear
  have hfl := h.engFlights
  rw [show engOf _ = 2 + e.val from rfl, hempty, List.nil_append] at hfl
  have hcur := curDma_of_head (f := newFlight (s.core c).nextId ((s.core c).ctl.pc.toNat % 2 ^ 21) ⟨i, .dma e .streamIn d⟩) hfl rfl
  refine ⟨?_, ⟨{ newFlight (s.core c).nextId ((s.core c).ctl.pc.toNat % 2 ^ 21) ⟨i, .dma e .streamIn d⟩ with begun := true }, ?_⟩⟩
  · rw [engKick, dmaKick, hcur]
    simp only [h.eng, hbound, hend]
    rfl
  · refine curDma_of_head (j := e) (fs := []) ?_ rfl
    have hmod := engFlights_modFlight (k := u.core c) (id := (s.core c).nextId) (g := fun f => { f with begun := true }) (fun _ => rfl) (2 + e.val)
    rw [hfl] at hmod
    rw [boundState_core, engFlights]
    exact hmod.trans (by simp [newFlight])

/-- R170: an idle engine reads the first message of the STREAM_OUT that it is handed, and sends it. -/
theorem kick_streamOut (h : Handed s u c ⟨i, .dma e .streamOut d⟩) (hidle : DmaIdle s c e.val) :
    engKick u c (.dma e .streamOut d) =
      streamOutSend u c e.val (newFlight (s.core c).nextId ((s.core c).ctl.pc.toNat % 2 ^ 21) ⟨i, .dma e .streamOut d⟩) d := by
  obtain ⟨hempty, hclear⟩ := hidle
  obtain ⟨hoff, -, -, -, -, -, -, hend, -⟩ := idle_eng hclear
  have hfl := h.engFlights
  rw [show engOf _ = 2 + e.val from rfl, hempty, List.nil_append] at hfl
  have hcur := curDma_of_head (f := newFlight (s.core c).nextId ((s.core c).ctl.pc.toNat % 2 ^ 21) ⟨i, .dma e .streamOut d⟩) hfl rfl
  rw [engKick, dmaKick, hcur]
  exact if_pos ⟨by rw [h.eng, hoff], nofun, by rw [h.eng, hend]; rfl⟩

end

theorem destMembers_uni (s : State) (gqid dev : Nat) (rem : Bool) : destMembers s (.uni gqid dev rem) = [uniDest s gqid dev rem] := by
  rw [destMembers, uniDest]
  split <;> rfl

/-- R170: a message without poison goes out, and of the core at most the counters and an engine's registers, as they stand, are written. -/
theorem streamOutMsg_eq (s : State) (c : Nat) (e : Fin 4) (d : DmaDesc) (n : Nat) (data : Bytes) (hhalt : ((s.core c).eng e.val).halting = false) :
    ∃ u out, Counted (modDma s c e.val id) u c ∧ streamOutMsg s c e.val d n data [] = { u with
      out := out
      sends := s.sends ++ [⟨.dma c e, oneSend data (d.endm && decide (d.len ≤ ((s.core c).eng e.val).off + n))
        (uniDest s (bits d.dst.toNat 15 0) (bits d.dst.toNat 29 16) (bits d.dst.toNat 30 30 == 1))⟩] } := by
  have hbad : modDma s c e.val (fun g => { g with bad := if ([] : List Nat) = [] then g.bad else some 7 }) = modDma s c e.val id := rfl
  have he : (⟨e.val % 4, Nat.mod_lt _ (by decide)⟩ : Fin 4) = e := Fin.ext (Nat.mod_eq_of_lt e.isLt)
  rw [streamOutMsg]
  dsimp only
  rw [hbad, hhalt, he, show ([] == ([] : List Nat)) = true from rfl, Bool.and_true]
  have hcount := counted_count (modDma s c e.val id) c 0x5E 1 (w := match curDma ((modDma s c e.val id).core c) e.val with
    | some (f, _, _) => engSample f false 0 0
    | none => bareSample)
  generalize count (modDma s c e.val id) c 0x5E 1 _ = v at hcount ⊢
  have hdest : destMembers v (.uni (bits d.dst.toNat 15 0) (bits d.dst.toNat 29 16) (bits d.dst.toNat 30 30 == 1)) =
      [uniDest s (bits d.dst.toNat 15 0) (bits d.dst.toNat 29 16) (bits d.dst.toNat 30 30 == 1)] := by
    rw [destMembers_uni, uniDest, hcount.devId, modDma_devId, ← uniDest]
  rw [hdest]
  obtain ⟨u, out, hu, heq⟩ := startSend_eq (c := c) (.inr (.inr ⟨e, rfl⟩)) v (oneSend data (d.endm && decide (d.len ≤ ((s.core c).eng e.val).off + n))
    (uniDest s (bits d.dst.toNat 15 0) (bits d.dst.toNat 29 16) (bits d.dst.toNat 30 30 == 1)))
  refine ⟨u, out, hcount.trans hu, ?_⟩
  rw [hcount.sends] at heq
  exact heq

/-- R170: a STREAM_OUT whose next bytes lie sound in the own scratchpad sends them as its next message. -/
theorem streamOutSend_effect {s : State} {c : Nat} {e : Fin 4} {d : DmaDesc} (f : Flight)
    (hown : inOwnSp c (d.src + BitVec.ofNat 64 ((s.core c).eng e.val).off) = true)
    (hs : Sound s c ((d.src + BitVec.ofNat 64 ((s.core c).eng e.val).off).toNat % 2 ^ 21) (streamOutLen d ((s.core c).eng e.val).off))
    (hsend : sendOf s (.dma c e) = none) (hhalt : ((s.core c).eng e.val).halting = false) :
    (streamOutSend s c e.val f d).mem = s.mem ∧ ((streamOutSend s c e.val f d).core c).ctl = (s.core c).ctl ∧
    ((streamOutSend s c e.val f d).core c).nextId = (s.core c).nextId ∧
    ((streamOutSend s c e.val f d).core c).flights = (modFlight (s.core c) f.id (fun f => { f with begun := true })).flights ∧
    ((streamOutSend s c e.val f d).core c).eng e.val = (s.core c).eng e.val ∧
    sendOf (streamOutSend s c e.val f d) (.dma c e) = some (oneSend
      (spBytes s c ((d.src + BitVec.ofNat 64 ((s.core c).eng e.val).off).toNat % 2 ^ 21) (streamOutLen d ((s.core c).eng e.val).off))
      (d.endm && decide (d.len ≤ ((s.core c).eng e.val).off + streamOutLen d ((s.core c).eng e.val).off))
      (uniDest s (bits d.dst.toNat 15 0) (bits d.dst.toNat 29 16) (bits d.dst.toNat 30 30 == 1))) := by
  generalize hsrc : d.src + BitVec.ofNat 64 ((s.core c).eng e.val).off = src at hown hs ⊢
  generalize hn : streamOutLen d ((s.core c).eng e.val).off = n at hs ⊢
  have hread := spRead_sound 6 (sound_congr (s := s) (t := modCore s c (fun k => modFlight k f.id (fun f => { f with begun := true })))
    (by rw [core_modCore]; rfl) rfl hs)
  have hbytes : spBytes (modCore s c (fun k => modFlight k f.id (fun f => { f with begun := true }))) c (src.toNat % 2 ^ 21) n =
      spBytes s c (src.toNat % 2 ^ 21) n := by
    refine spBytes_congr ?_ ?_ _ _
    · rw [core_modCore]
      rfl
    · rfl
  rw [hbytes] at hread
  generalize hv : (if d.len ≤ ((s.core c).eng e.val).off + n ∨ ([] : List Nat) ≠ [] then
    readsDone (modCore s c (fun k => modFlight k f.id (fun f => { f with begun := true }))) c f
    else modCore s c (fun k => modFlight k f.id (fun f => { f with begun := true }))) = v
  have hvc : { v with cores := s.cores } = s ∧ ∃ sb, v.core c = { modFlight (s.core c) f.id (fun f => { f with begun := true }) with sb := sb } := by
    rw [← hv]
    split
    · refine ⟨rfl, (sbReleaseReads (modFlight (s.core c) f.id (fun f => { f with begun := true })) f.id).sb, ?_⟩
      rw [readsDone, core_modCore, core_modCore]
      rfl
    · refine ⟨rfl, (s.core c).sb, ?_⟩
      rw [core_modCore]
      rfl
  obtain ⟨hrest, sb, hcore⟩ := hvc
  have heng : (v.core c).eng e.val = (s.core c).eng e.val := by
    rw [hcore]
    rfl
  have he : streamOutSend s c e.val f d = streamOutMsg v c e.val d n (spBytes s c (src.toNat % 2 ^ 21) n) [] := by
    rw [streamOutSend]
    dsimp only
    rw [hsrc, hn, if_pos hown, hread]
    dsimp only
    rw [hv]
    rfl
  obtain ⟨u, out, hu, hmsg⟩ := streamOutMsg_eq v c e d n (spBytes s c (src.toNat % 2 ^ 21) n) (by rw [heng]; exact hhalt)
  have hucore : u.core c = { v.core c with dma := mset (v.core c).dma e.val ((v.core c).eng e.val), cnt := (u.core c).cnt } := by
    conv_lhs => rw [hu.core, modDma, core_modCore]
    rfl
  rw [he, hmsg]
  refine ⟨?_, ?_, ?_, ?_, ?_, ?_⟩
  · change u.mem = _
    rw [hu.mem, modDma_mem, ← hrest]
  · change (u.core c).ctl = _
    rw [hucore, hcore]
    rfl
  · change (u.core c).nextId = _
    rw [hucore, hcore]
    rfl
  · change (u.core c).flights = _
    rw [hucore, hcore]
  · change (u.core c).eng e.val = _
    rw [hucore, ← heng]
    exact mget_mset _ _ _ _
  · have hdev : v.devId = s.devId := by rw [← hrest]
    have hsends : v.sends = s.sends := by rw [← hrest]
    rw [sendOf, hsends, heng, uniDest, hdev, ← uniDest]
    exact find_append_new hsend

theorem dmaInstr_row (s : State) (c : Nat) (e : Fin 4) (i : Issue) (d : DmaDesc) (op : DmaOp) :
    exec (dmaInstr c e i d op) s = .next (engRow s c i (.dma e op d)) := by
  cases op <;> rfl

/-- Settles O27: the engines share the issue of every command; what an idle one begins of itself follows. -/
theorem dmaDescriptorsQueue : Obligations.DmaDescriptorsQueue := by
  unfold Obligations.DmaDescriptorsQueue
  intro s c e i op d x hr hx
  subst hx
  refine ⟨fun hi hcase => ?queued, fun hi hidle hop u hu => ⟨fun hnone => ?empty, fun m hm hlen hend hs hw => ?takes⟩,
    fun hi hidle hop p n hp hown hn hs hin hsend => ?out, engRow_refusedOrHeld hr (dmaInstr_row s c e i d op)⟩
  case queued =>
    rw [dmaInstr_row]
    refine engRow_issuable hr hi fun u hu => ?_
    have hkick : engKick u c (.dma e op d) = u := by
      refine dmaKick_stands fun f op' d' hcur => ?_
      obtain ⟨⟨hempty, -⟩, hop⟩ | ⟨f0, op0, d0, h0, hin, hout⟩ := hcase
      · have hfl := hu.engFlights
        rw [show engOf _ = 2 + e.val from rfl, hempty, List.nil_append] at hfl
        rw [curDma_of_head hfl rfl] at hcur
        cases hcur
        obtain rfl | rfl := hop <;> exact ⟨nofun, nofun⟩
      · rw [curDma_append (k := s.core c) hu.engFlights (by intro h; rw [curDma, h] at h0; cases h0), h0] at hcur
        cases hcur
        rw [hu.eng]
        exact ⟨hin, hout⟩
    rw [hkick]
    exact ⟨hu.queued, hu.mem, hu.only⟩
  case empty =>
    subst hop hu
    rw [dmaInstr_row]
    refine engRow_issuable hr hi fun u hu => ?_
    obtain ⟨hk, f, hcur⟩ := kick_streamIn hu hidle
    have hb := boundState_eng u c e.val (s.core c).nextId d
    rw [hk, queueFuel, streamPump_empty (q := streamQ d) (by rw [hb]) hcur 256 (by
      rw [boundState_core]
      exact (congrArg (fun q => (q.q (streamQ d)).msgs) hu.que).trans hnone)]
    obtain ⟨hedit, -, hbound, -⟩ := streamPut_holds (boundState u c e.val (s.core c).nextId d) c e.val id d
    refine ⟨begun_of_edit hu hidle.1 ?_ ?_ ?_, hedit.mem.trans hu.mem, ?_, ?_⟩
    · rw [hedit.flights, boundState_core]
    · rw [hedit.ctl, boundState_core]
      rfl
    · rw [hedit.nextId, boundState_core]
      rfl
    · rw [hedit.sb, boundState_core]
      exact hu.sb
    · rw [hbound, hb]
      rfl
  case takes =>
    subst hop hu
    rw [dmaInstr_row]
    suffices h : ∃ t, (Host.Outcome.next (engRow s c i (.dma e .streamIn d)) : Res) = .next t ∧ Begun s t c ⟨i, .dma e .streamIn d⟩ ∧ t.mem = s.mem ∧
        ((t.core c).eng e.val).bound = some (streamQ d) ∧ ((t.core c).que.q (streamQ d)).msgs = [] ∧ ((t.core c).eng e.val).held =
          spBytes s c (((s.core c).que.q (streamQ d)).slotOff m.slot) (m.len * 16) by
      obtain ⟨t, h1, h2, h3, h4, h5, h6⟩ := h
      exact ⟨t, _, h1, h2, h3, rfl, h4, h5, h6⟩
    refine engRow_issuable hr hi fun u hu => ?_
    obtain ⟨hk, f, hcur⟩ := kick_streamIn hu hidle
    have hb := boundState_eng u c e.val (s.core c).nextId d
    obtain ⟨hoff, hbad, hhalt, hbursts, -, hbuf, heos, -, -⟩ := idle_eng hidle.2
    have hq : ((boundState u c e.val (s.core c).nextId d).core c).que = (s.core c).que := by
      rw [boundState_core]
      exact hu.que
    have hspd : ((boundState u c e.val (s.core c).nextId d).core c).spd = (s.core c).spd := by
      rw [boundState_core]
      exact hu.spd
    have hmarks : (boundState u c e.val (s.core c).nextId d).marks = s.marks := hu.marks
    have hmem : (boundState u c e.val (s.core c).nextId d).mem = s.mem := hu.mem
    obtain ⟨v, h, hv, hleft, hheld, hbound, hpump⟩ := streamPump_takes (s := boundState u c e.val (s.core c).nextId d) (q := streamQ d)
      (by rw [hb]) hcur 256 (by rw [hq]; exact hm) (by rw [hq]; exact sound_congr hspd hmarks hs) (by
        rw [hb]
        simp only [hu.eng, hoff, hbad, hhalt, hbuf, heos, List.length_nil]
        exact ⟨trivial, trivial, trivial, by omega⟩)
    obtain ⟨hedit1, hheld1, hbound1, hque1⟩ := streamPut_holds v c e.val h d
    have heng : (v.core c).eng e.val = ((boundState u c e.val (s.core c).nextId d).core c).eng e.val := hv.eng e.val
    have hall : EngEdit (boundState u c e.val (s.core c).nextId d) (streamPut v c e.val h d) c := hv.engEdit.trans hedit1
    rw [hk, queueFuel, hpump, streamPump_empty (q := streamQ d) (by rw [hbound1, heng, hbound, hb]) (by rw [hall.curDma]; exact hcur) 255
      (by rw [hque1, hleft])]
    obtain ⟨hedit2, hheld2, hbound2, hque2⟩ := streamPut_holds (streamPut v c e.val h d) c e.val id d
    have hedit := hall.trans hedit2
    refine ⟨begun_of_edit hu hidle.1 ?_ ?_ ?_, hedit.mem.trans hmem, ?_, ?_, ?_⟩
    · rw [hedit.flights, boundState_core]
    · rw [hedit.ctl, boundState_core]
      rfl
    · rw [hedit.nextId, boundState_core]
      rfl
    · rw [hbound2, id, hbound1, heng, hbound, hb]
    · rw [hque2, hque1, hleft]
    · rw [hheld2, id, hheld1, heng, hheld, hb, hq, spBytes_congr hspd hmem]
      simp [DmaEng.held, hu.eng, hbursts, hbuf]
  case out =>
    subst hop hn
    rw [dmaInstr_row]
    refine engRow_issuable hr hi fun u hu => ?_
    obtain ⟨hoff, hbad, hhalt, -, -, -, -, -, -⟩ := idle_eng hidle.2
    have hsrc : d.src + BitVec.ofNat 64 ((u.core c).eng e.val).off = d.src := by
      rw [hu.eng, hoff]
      exact BitVec.add_zero _
    have hlen : streamOutLen d ((u.core c).eng e.val).off = min (d.msz * 16) d.len := by
      rw [hu.eng, hoff]
      rfl
    obtain ⟨hmem, hctl, hid, hfl, -, hout⟩ := streamOutSend_effect (s := u) (c := c) (e := e) (d := d)
      (newFlight (s.core c).nextId ((s.core c).ctl.pc.toNat % 2 ^ 21) ⟨i, .dma e .streamOut d⟩) (by rw [hsrc]; exact hown)
      (by rw [hsrc, hlen]; exact hu.sound hs) (by rw [sendOf, hu.sends]; exact hsend) (by rw [hu.eng]; exact hhalt)
    rw [kick_streamOut hu hidle]
    refine ⟨issued_of_same hu.issued hid hctl, hmem.trans hu.mem, ?_, ?_⟩
    · refine ⟨{ newFlight (s.core c).nextId ((s.core c).ctl.pc.toNat % 2 ^ 21) ⟨i, .dma e .streamOut d⟩ with begun := true }, ?_, rfl, rfl, rfl⟩
      rw [hfl, modFlight]
      refine List.mem_map.2 ⟨newFlight (s.core c).nextId ((s.core c).ctl.pc.toNat % 2 ^ 21) ⟨i, .dma e .streamOut d⟩, ?_, ?_⟩
      · rw [hu.queued.2.1]
        exact List.mem_append_right _ (List.mem_singleton_self _)
      · simp [newFlight]
    · rw [hout, hlen, hsrc, hu.spBytes, hu.eng, hoff, Nat.zero_add, uniDest, uniDest, hu.only.devId]

end Sys2Proof.Machine
end

/-! SUPPORT. Bursts of the DMA engines (Sys2Proof.Obligations O28). -/
section

namespace Sys2Proof.Machine

/-! ### Accesses of a core to a scratchpad of its partition -/

theorem lt_of_present {s : State} {c : Nat} (h : present s c = true) : c < 1152 := by
  simp only [present, Bool.and_eq_true, decide_eq_true_eq] at h
  exact h.1

theorem spAddr_lt {s : State} {a : Nat} (h : present s (a / 2 ^ 21) = true) : a < 0x90000000 := by
  have := lt_of_present h
  omega

theorem isRemote_of_lt {a : W64} (h : a.toNat < 0x90000000) : isRemote a = false := by
  rw [isRemote]
  exact Nat.testBit_lt_two_pow (by omega)

theorem memHeld_sp (s : State) (req : Requester) {a : Nat} (n : Nat) (h : a < 0x90000000) : memHeld s req a n = false := by
  rw [memHeld, decide_eq_false (by omega)]
  rfl

theorem memRead_sp {s : State} {k a n : Nat} (port : Nat) (hp : present s (a / 2 ^ 21) = true) (hr : (s.core (a / 2 ^ 21)).crst = false)
    (ho : partOf s (a / 2 ^ 21) = some ((partOf s k).getD 16)) (hin : a % 2 ^ 21 + n ≤ 2 ^ 21) (hs : Sound s (a / 2 ^ 21) (a % 2 ^ 21) n) :
    memRead s (.core k) a n port = (s, ⟨.ok, spBytes s (a / 2 ^ 21) (a % 2 ^ 21) n, []⟩) := by
  rw [memRead, if_pos (spAddr_lt hp), localAccess_admitted .read port hp hr ho hin, spPerform_read_sound port hs]

theorem memWrite_sp {s : State} {k a : Nat} {bs : Bytes} (port : Nat) (hp : present s (a / 2 ^ 21) = true) (hr : (s.core (a / 2 ^ 21)).crst = false)
    (ho : partOf s (a / 2 ^ 21) = some ((partOf s k).getD 16)) (hin : a % 2 ^ 21 + bs.length ≤ 2 ^ 21)
    (hs : Sound s (a / 2 ^ 21) (a % 2 ^ 21) bs.length) :
    memWrite s (.core k) a bs [] port = (spPuts s (a / 2 ^ 21) (a % 2 ^ 21) bs, .ok) := by
  rw [memWrite, if_pos (spAddr_lt hp), localAccess_admitted _ port hp hr ho hin, spPerform_write_sound _ port hs]

/-! ### A burst begins -/

theorem getD_natBytes (n x i : Nat) (h : i < n) : (natBytes n x).getD i 0 = BitVec.ofNat 8 (x / 256 ^ i) := by
  induction n generalizing x i with
  | zero => omega
  | succ n ih =>
    rw [natBytes]
    cases i with
    | zero => simp
    | succ i => rw [List.getD_cons_succ, ih _ _ (by omega), Nat.div_div_eq_div_mul, Nat.pow_succ', Nat.mul_comm]

theorem fillBytes_eq (pat : W64) (off n : Nat) :
    fillBytes pat off n = (List.range n).map (fun j => BitVec.ofNat 8 (pat.toNat / 256 ^ ((off + j) % 8))) :=
  List.map_congr_left fun j _ => getD_natBytes 8 pat.toNat ((off + j) % 8) (Nat.mod_lt _ (by decide))

/-- R163: what a burst holds as it begins. -/
theorem beginBurst_eq {s : State} {c : Nat} {op : DmaOp} {d : DmaDesc} {g : DmaEng} {n : Nat} {src : W64} (hop : op = .copy ∨ op = .fill)
    (hsrc : src = d.src + BitVec.ofNat 64 (g.row * d.spitch + g.off))
    (hs : op = .copy → inOwnSp c src = true → Sound s c (src.toNat % 2 ^ 21) n) :
    beginBurst s c op d g n = (s, ⟨g.nextK, n, src, d.dst + BitVec.ofNat 64 (g.row * d.dpitch + g.off),
      (if op = .fill then some ((List.range n).map (fun j => BitVec.ofNat 8 (d.pat.toNat / 256 ^ ((g.off + j) % 8))))
        else if inOwnSp c src then some (spBytes s c (src.toNat % 2 ^ 21) n) else none), [], none⟩) := by
  subst hsrc
  obtain rfl | rfl := hop
  · simp only [beginBurst]
    by_cases hown : inOwnSp c (d.src + BitVec.ofNat 64 (g.row * d.spitch + g.off)) = true
    · rw [if_pos hown, spRead_sound 6 (hs rfl hown), if_neg nofun, if_pos hown]
      rfl
    · rw [if_neg hown, if_neg nofun, if_neg hown]
  · rw [beginBurst, if_pos rfl, ← fillBytes_eq]

/-- Memory and engine `e` of core `c` stand. -/
def SameEng (s t : State) (c e : Nat) : Prop := t.mem = s.mem ∧ (t.core c).eng e = (s.core c).eng e

theorem SameEng.refl (s : State) (c e : Nat) : SameEng s s c e := ⟨rfl, rfl⟩

theorem SameEng.trans {s t u : State} {c e : Nat} (h : SameEng s t c e) (k : SameEng t u c e) : SameEng s u c e :=
  ⟨k.1.trans h.1, k.2.trans h.2⟩

theorem Shows.sameEng {s t : State} (h : Shows s t) (c e : Nat) : SameEng s t c e := by
  rw [h]
  exact ⟨rfl, rfl⟩

theorem sameEng_count (s : State) (c e code n : Nat) (w : Sample) : SameEng s (count s c code n w) c e := by
  have h := counted_count s c code n (w := w)
  refine ⟨h.mem, ?_⟩
  rw [h.core]
  rfl

theorem sameEng_modCore (s : State) (c e : Nat) {f : Core → Core} (h : (f (s.core c)).dma = (s.core c).dma) : SameEng s (modCore s c f) c e := by
  refine ⟨rfl, ?_⟩
  rw [core_modCore, Core.eng, h, ← Core.eng]

theorem sameEng_if {s t : State} {c e : Nat} (b : Bool) (h : SameEng s t c e) : SameEng s (if b then t else s) c e := by
  cases b
  · exact SameEng.refl s c e
  · exact h

/-- R149: the release of the read ranges. -/
theorem sameEng_readsDone (s : State) (c e : Nat) (f : Flight) : SameEng s (readsDone s c f) c e := sameEng_modCore s c e rfl

theorem sameEng_ifReads (s : State) (c e : Nat) (f : Flight) (p : Prop) [Decidable p] : SameEng s (if p then readsDone s c f else s) c e := by
  split
  · exact sameEng_readsDone s c e f
  · exact SameEng.refl s c e

/-- R163: what an engine's registers become as a burst begins. -/
def burstBegun (g : DmaEng) (d : DmaDesc) (n : Nat) (b : Burst) : DmaEng :=
  { g with
    row := if d.len ≤ g.off + n then g.row + 1 else g.row
    off := if d.len ≤ g.off + n then 0 else g.off + n
    nextK := g.nextK + 1
    bursts := g.bursts ++ [b] }

/-- R163: a burst that has its data is sent to another device, one that lacks them asks for them there. -/
def burstAsked (s : State) (c : Nat) (d : DmaDesc) (b : Burst) : State :=
  match b.data with
  | some bs => sendRemote s c b.dst 1 b.len (fun k => { carry k bs b.poison with wtag := d.wtag })
  | none => sendRemote s c b.src 2 b.len (fun k => { k with wtag := d.wtag, size := (b.len + 15) / 16 })

theorem shows_burstAsked (s : State) (c : Nat) (d : DmaDesc) (b : Burst) : Shows s (burstAsked s c d b) := by
  rw [burstAsked]
  split
  · exact shows_sendRemote s c b.dst 1 b.len _
  · exact shows_sendRemote s c b.src 2 b.len _

/-- R164: what a burst that has begun counts. -/
def burstCounted (s : State) (c : Nat) (f : Flight) (op : DmaOp) (n : Nat) (b : Burst) : State :=
  let w := engSample f true 0 0
  let s := count (count s c 0x51 1 w) c 0x52 ((n + 63) / 64) (engSample f false 0 0)
  let s := if isHbm b.src.toNat || isHbm b.dst.toNat then count s c 0x53 1 w else s
  if isRemote b.dst || (op == .copy && isRemote b.src) then count s c 0x54 1 w else s

theorem sameEng_burstCounted (s : State) (c e : Nat) (f : Flight) (op : DmaOp) (n : Nat) (b : Burst) :
    SameEng s (burstCounted s c f op n b) c e := by
  rw [burstCounted]
  exact (((sameEng_count s c e _ _ _).trans (sameEng_count _ c e _ _ _)).trans (sameEng_if _ (sameEng_count _ c e _ _ _))).trans
    (sameEng_if _ (sameEng_count _ c e _ _ _))

/-- R163: the state in which a burst has begun, but for the release of reads and the counters. -/
def burstEntered (s : State) (c e : Nat) (f : Flight) (d : DmaDesc) (n : Nat) (b : Burst) : State :=
  modDma (modCore (burstAsked s c d b) c (fun k => modFlight k f.id (fun f => { f with begun := true }))) c e (fun g =>
    { g with
      row := if decide (d.len ≤ ((s.core c).eng e).off + n) then g.row + 1 else g.row
      off := if decide (d.len ≤ ((s.core c).eng e).off + n) then 0 else g.off + n
      nextK := g.nextK + 1
      bursts := g.bursts ++ [b] })

theorem burstEntered_eng (s : State) (c e : Nat) (f : Flight) (d : DmaDesc) (n : Nat) (b : Burst) :
    (burstEntered s c e f d n b).mem = s.mem ∧ ((burstEntered s c e f d n b).core c).eng e = burstBegun ((s.core c).eng e) d n b := by
  obtain ⟨hmem, heng⟩ := ((shows_burstAsked s c d b).sameEng c e).trans
    (sameEng_modCore (burstAsked s c d b) c e (f := fun k => modFlight k f.id (fun f => { f with begun := true })) rfl)
  refine ⟨hmem, ?_⟩
  rw [burstEntered, eng_modDma, heng]
  simp only [decide_eq_true_eq]
  rfl

/-- R149, R163: the state that a burst leaves as it begins. -/
def burstSent (s : State) (c e : Nat) (f : Flight) (op : DmaOp) (d : DmaDesc) (n : Nat) (b : Burst) : State :=
  burstCounted (if d.rows ≤ (((burstEntered s c e f d n b).core c).eng e).row then readsDone (burstEntered s c e f d n b) c f
    else burstEntered s c e f d n b) c f op n b

theorem burstSent_eng (s : State) (c e : Nat) (f : Flight) (op : DmaOp) (d : DmaDesc) (n : Nat) (b : Burst) :
    (burstSent s c e f op d n b).mem = s.mem ∧ ((burstSent s c e f op d n b).core c).eng e = burstBegun ((s.core c).eng e) d n b := by
  obtain ⟨hmem, heng⟩ := burstEntered_eng s c e f d n b
  obtain ⟨hmem', heng'⟩ := (sameEng_ifReads (burstEntered s c e f d n b) c e f
    (d.rows ≤ (((burstEntered s c e f d n b).core c).eng e).row)).trans (sameEng_burstCounted _ c e f op n b)
  exact ⟨hmem'.trans hmem, heng'.trans heng⟩

section
variable {s : State} {c : Nat} {e : Fin 4} {f : Flight} {op : DmaOp} {d : DmaDesc} (hcur : curDma (s.core c) e.val = some (f, op, d))
include hcur

/-- R162, R163: a burst that may begin. -/
theorem exec_burstSend {b : Burst} (hcond : ((op == .copy || op == .fill) && decide (((s.core c).eng e.val).row < d.rows) &&
      decide (((s.core c).eng e.val).bursts.length < 8) && ((s.core c).eng e.val).bad.isNone && !((s.core c).eng e.val).halting &&
      ((s.core c).eng e.val).endStatus.isNone) = true)
    (hb : beginBurst s c op d ((s.core c).eng e.val) (min d.burst (d.len - ((s.core c).eng e.val).off)) = (s, b)) :
    exec (.dmaBurstSend c e) s = .next (burstSent s c e.val f op d (min d.burst (d.len - ((s.core c).eng e.val).off)) b) := by
  change execDmaBurstSend c e s = _
  rw [execDmaBurstSend]
  dsimp only
  rw [hcur]
  dsimp only
  rw [if_pos hcond, hb]
  rfl

/-- R162: a burst that may not begin. -/
theorem exec_burstSend_none (hcond : ((op == .copy || op == .fill) && decide (((s.core c).eng e.val).row < d.rows) &&
      decide (((s.core c).eng e.val).bursts.length < 8) && ((s.core c).eng e.val).bad.isNone && !((s.core c).eng e.val).halting &&
      ((s.core c).eng e.val).endStatus.isNone) = false) : exec (.dmaBurstSend c e) s = .next s := by
  change execDmaBurstSend c e s = _
  rw [execDmaBurstSend]
  dsimp only
  rw [hcur]
  dsimp only
  rw [if_neg (by rw [hcond]; exact Bool.false_ne_true)]

end

/-! ### A burst's data arrive -/

/-- A core at which an access of core `k` is performed: present, out of reset, of the partition of `k`. -/
structure Reaches (s : State) (k c : Nat) : Prop where
  here : present s c = true
  up : (s.core c).crst = false
  own : partOf s c = some ((partOf s k).getD 16)

theorem Counted.at {s t : State} {c : Nat} (h : Counted s t c) (k : Nat) : (t.core k).crst = (s.core k).crst ∧ (t.core k).spd = (s.core k).spd := by
  by_cases hk : k = c
  · rw [hk, h.core]
    exact ⟨rfl, rfl⟩
  · rw [h.others k hk]
    exact ⟨rfl, rfl⟩

theorem Counted.present {s t : State} {c : Nat} (h : Counted s t c) (k : Nat) : present t k = present s k := by
  rw [Machine.present, Machine.present, ← h.rest]
  rfl

theorem Counted.reaches {s t : State} {c j k : Nat} (h : Counted s t c) (hr : Reaches s j k) : Reaches t j k :=
  ⟨by rw [h.present, hr.here], by rw [(h.at k).1, hr.up], by rw [h.partOf, h.partOf, hr.own]⟩

/-- R163: the source of a burst answers at once: what it answers. -/
structure Fetches (s : State) (c : Nat) (d : DmaDesc) (b : Burst) (status : Nat) (data : Bytes) (poison : List Nat) (a : MemAns) : Prop where
  held : (!isRemote b.src && memHeld s (.core c) b.src.toNat b.len) = false
  answer : fetchBurst s c d b status data poison = (s, a)

theorem fetches_sp {s : State} {c : Nat} {b : Burst} (d : DmaDesc) (status : Nat) (data : Bytes) (poison : List Nat)
    (hr : Reaches s c (b.src.toNat / 2 ^ 21)) (hin : b.src.toNat % 2 ^ 21 + b.len ≤ 2 ^ 21)
    (hs : Sound s (b.src.toNat / 2 ^ 21) (b.src.toNat % 2 ^ 21) b.len) : Fetches s c d b status data poison
      ⟨.ok, spBytes s (b.src.toNat / 2 ^ 21) (b.src.toNat % 2 ^ 21) b.len, []⟩ := by
  have hlt := spAddr_lt hr.here
  refine ⟨by rw [memHeld_sp _ _ _ hlt, Bool.and_false], ?_⟩
  rw [fetchBurst, isRemote_of_lt hlt, if_neg Bool.false_ne_true, memRead_sp 5 hr.here hr.up hr.own hin hs]

theorem fetches_remote {s : State} {c : Nat} {b : Burst} {data : Bytes} (d : DmaDesc) (status : Nat) (poison : List Nat)
    (hrem : isRemote b.src = true) (hdev : remoteDev b.src ≠ s.devId) (hlen : data.length = b.len) :
    Fetches s c d b status data poison ⟨RSt.ofQue status, data, poison⟩ := by
  refine ⟨by rw [hrem]; rfl, ?_⟩
  rw [fetchBurst, if_pos hrem, if_neg hdev, padTo, hlen, Nat.sub_self, List.replicate_zero, List.append_nil, List.take_of_length_le hlen.le]

section
variable {s : State} {c : Nat} {e : Fin 4} {k : Nat} {f : Flight} {d : DmaDesc} {b : Burst} (hm : MemInv s)
  (hcur : curDma (s.core c) e.val = some (f, .copy, d))
  (hfind : ((s.core c).eng e.val).bursts.find? (fun b => b.k == k && b.data.isNone && b.status.isNone) = some b)
include hfind

/-- The burst that has been found takes a status. -/
theorem setBurst_status (g : DmaEng) (hg : g = (s.core c).eng e.val) {h : Burst → Burst} (hk : (h b).k = k) {st : Nat} (hst : (h b).status = some st) :
    ∃ b' ∈ (setBurst g k h).bursts, b'.k = k ∧ b'.status = some st := by
  have hbk : b.k = k := by
    have := List.find?_some hfind
    simp only [Bool.and_eq_true, beq_iff_eq] at this
    exact this.1.1
  refine ⟨h b, ?_, hk, hst⟩
  rw [setBurst, hg]
  refine List.mem_map.2 ⟨b, List.mem_of_find?_eq_some hfind, ?_⟩
  rw [if_pos (by rw [hbk]; exact BEq.rfl)]

include hcur

/-- R163: a read that its source refuses returns its status and moves nothing. -/
theorem fillArrive_refused {status : Nat} {data : Bytes} {poison : List Nat} {a : MemAns} (h : Fetches s c d b status data poison a)
    (hok : a.st ≠ .ok ∧ a.st ≠ .uncorrected) : ∃ t, exec (.dmaFillArrive c e k status data poison) s = .next t ∧ t.mem = s.mem ∧
      ∃ b' ∈ ((t.core c).eng e.val).bursts, b'.k = k ∧ b'.status = some a.st.dma := by
  have he : exec (.dmaFillArrive c e k status data poison) s =
      .next (modDma s c e.val (fun g => setBurst g k (fun b => { b with status := some a.st.dma }))) := by
    change execDmaFillArrive c e k status data poison s = _
    rw [execDmaFillArrive, hcur, hfind]
    dsimp only
    rw [if_neg (by rw [h.held]; exact Bool.false_ne_true), h.answer]
    dsimp only
    cases hst : a.st
    case ok => exact absurd hst hok.1
    case uncorrected => exact absurd hst hok.2
    all_goals rfl
  have hbk : b.k = k := by
    have := List.find?_some hfind
    simp only [Bool.and_eq_true, beq_iff_eq] at this
    exact this.1.1
  refine ⟨_, he, rfl, ?_⟩
  rw [eng_modDma]
  exact setBurst_status hfind _ rfl hbk rfl

include hm

/-- R163: a COPY burst whose data arrive sound is written whole at its destination in a scratchpad. -/
theorem fillArrive_writes {status : Nat} {data : Bytes} {poison : List Nat} {bs : Bytes} (h : Fetches s c d b status data poison ⟨.ok, bs, []⟩)
    (hlen : bs.length = b.len) (hr : Reaches s c (b.dst.toNat / 2 ^ 21)) (hin : b.dst.toNat % 2 ^ 21 + b.len ≤ 2 ^ 21)
    (hs : Sound s (b.dst.toNat / 2 ^ 21) (b.dst.toNat % 2 ^ 21) b.len) :
    ∃ t, exec (.dmaFillArrive c e k status data poison) s = .next t ∧
      spBytes t (b.dst.toNat / 2 ^ 21) (b.dst.toNat % 2 ^ 21) b.len = bs ∧
      SpFrame s t (b.dst.toNat / 2 ^ 21) (b.dst.toNat % 2 ^ 21) b.len ∧ (t.core c).ctl = (s.core c).ctl ∧
      ∃ b' ∈ ((t.core c).eng e.val).bursts, b'.k = k ∧ b'.status = some 0 := by
  have hcount := counted_count s c 0x5C 1 (w := engSample f false 0 0)
  have hlt := spAddr_lt hr.here
  have hur := hcount.reaches hr
  have hus : Sound (count s c 0x5C 1 (engSample f false 0 0)) (b.dst.toNat / 2 ^ 21) (b.dst.toNat % 2 ^ 21) bs.length := by
    rw [hlen]
    exact sound_congr (hcount.at _).2 hcount.marks hs
  have hw := memWrite_sp (if inOwnSp c b.dst then 6 else 5) hur.here hur.up hur.own (by rw [hlen]; exact hin) hus
  have he : exec (.dmaFillArrive c e k status data poison) s = .next (modDma
      (spPuts (count s c 0x5C 1 (engSample f false 0 0)) (b.dst.toNat / 2 ^ 21) (b.dst.toNat % 2 ^ 21) bs) c e.val
      (fun g => setBurst g k (fun _ => { b with data := some bs, poison := [], status := some 0 }))) := by
    change execDmaFillArrive c e k status data poison s = _
    rw [execDmaFillArrive, hcur, hfind]
    dsimp only
    rw [if_neg (by rw [h.held]; exact Bool.false_ne_true), h.answer]
    dsimp only
    rw [if_neg nofun, isRemote_of_lt hlt, Bool.false_and, if_neg Bool.false_ne_true, writeHeld, memHeld_sp _ _ _ hlt, Bool.and_false,
      if_neg Bool.false_ne_true, writeBurst, isRemote_of_lt hlt, if_neg Bool.false_ne_true, hw]
    rfl
  have hmu : MemInv (count s c 0x5C 1 (engSample f false 0 0)) := by
    rw [MemInv, hcount.mem]
    exact hm
  have hbytes := spBytes_spPuts (count s c 0x5C 1 (engSample f false 0 0)) (b.dst.toNat / 2 ^ 21) (b.dst.toNat % 2 ^ 21) bs hmu (by rw [hlen]; exact hin)
  have hframe := spPuts_frame (count s c 0x5C 1 (engSample f false 0 0)) (b.dst.toNat / 2 ^ 21) (b.dst.toNat % 2 ^ 21) bs hmu
  have hbk : b.k = k := by
    have := List.find?_some hfind
    simp only [Bool.and_eq_true, beq_iff_eq] at this
    exact this.1.1
  rw [hlen] at hbytes hframe
  generalize hu : count s c 0x5C 1 (engSample f false 0 0) = u at he hcount hbytes hframe
  refine ⟨_, he, ?_, fun x hx => ?_, ?_, ?_⟩
  · refine Eq.trans (spBytes_congr ?_ ?mem _ _) hbytes
    case mem => rfl
    by_cases hc : b.dst.toNat / 2 ^ 21 = c
    · rw [hc, modDma, core_modCore]
    · rw [modDma, core_modCore_ne _ _ hc]
  · refine (hframe x fun i hi => ?_).trans (congrArg (memGet · x) hcount.mem)
    rw [spKey_congr (hcount.at _).2]
    exact hx i hi
  · rw [modDma, core_modCore, core_spPuts]
    exact hcount.ctl
  · rw [eng_modDma, core_spPuts]
    refine setBurst_status hfind _ ?_ hbk rfl
    rw [hcount.core]
    rfl

end

/-- Settles O28: a burst that begins or not, and the data of a COPY that arrive, from a scratchpad or another device. -/
theorem dmaBurstsMoveTheirBytes : Obligations.DmaBurstsMoveTheirBytes := by
  unfold Obligations.DmaBurstsMoveTheirBytes
  refine ⟨fun s c e f op d g n src hcur hg hop hn hsrc => ⟨fun hrow hroom hbad hhalt hend hs => ?begins, fun hno => ?stands⟩,
    fun s c e k f op d b p c2 hm hcur hfind hp hpres hup hown hdst hin hs hpos hop => ?arrives⟩
  case begins =>
    subst hg hn
    have hb := beginBurst_eq hop hsrc hs
    have hgo : ((op == .copy || op == .fill) && decide (((s.core c).eng e.val).row < d.rows) &&
        decide (((s.core c).eng e.val).bursts.length < 8) && ((s.core c).eng e.val).bad.isNone && !((s.core c).eng e.val).halting &&
        ((s.core c).eng e.val).endStatus.isNone) = true := by
      rw [hbad, hhalt, hend, decide_eq_true hrow, decide_eq_true hroom]
      obtain rfl | rfl := hop <;> rfl
    have he := exec_burstSend hcur hgo hb
    obtain ⟨hmem, heng⟩ := burstSent_eng s c e.val f op d (min d.burst (d.len - ((s.core c).eng e.val).off)) _
    exact ⟨_, _, he, hmem, heng, rfl, rfl, rfl, rfl, rfl, rfl⟩
  case stands =>
    subst hg
    refine exec_burstSend_none hcur ?_
    rcases hno with h | h | h | h | h
    · simp [Nat.not_lt.2 h]
    · simp [Nat.not_lt.2 h]
    · obtain ⟨x, hx⟩ := Option.isSome_iff_exists.1 h
      simp [hx]
    · simp [h]
    · obtain ⟨x, hx⟩ := Option.isSome_iff_exists.1 h
      simp [hx]
  case arrives =>
    subst hop
    have hr : Reaches s c (b.dst.toNat / 2 ^ 21) := by
      rw [hdst]
      exact ⟨hpres, hup, by rw [hp, hown]; rfl⟩
    rw [← hdst] at hs ⊢
    refine ⟨fun c1 status data poison hpres1 hup1 hown1 hsrc hin1 hs1 => ?_, fun data hrem hdev hlen => ⟨?_, fun status hstatus => ?_⟩⟩
    · rw [← hsrc] at hpres1 hup1 hown1 hs1 ⊢
      exact fillArrive_writes hm hcur hfind (fetches_sp d status data poison ⟨hpres1, hup1, by rw [hp, hown1]; rfl⟩ hin1 hs1)
        (by rw [spBytes, List.length_map, List.length_range]) hr hin hs
    · obtain ⟨t, h1, h2, h3, -, h5⟩ := fillArrive_writes hm hcur hfind (fetches_remote d 0 [] hrem hdev hlen) hlen hr hin hs
      exact ⟨t, h1, h2, h3, h5⟩
    · have h := fillArrive_refused hcur hfind (fetches_remote d status [] hrem hdev hlen)
      rcases hstatus with rfl | rfl | rfl | rfl | rfl <;> exact h ⟨nofun, nofun⟩

end Sys2Proof.Machine
end

/-! SUPPORT. The end of a DMA descriptor (Sys2Proof.Obligations O29). -/
section

namespace Sys2Proof.Machine

theorem curDma_head {k : Core} {e : Nat} {f : Flight} {op : DmaOp} {d : DmaDesc} (h : curDma k e = some (f, op, d)) :
    ∃ j fs, engFlights k (2 + e) = f :: fs ∧ f.body = .dma j op d := by
  rw [curDma] at h
  split at h
  · next g fs hfl =>
    split at h
    · next j op' d' hb =>
      cases h
      exact ⟨j, fs, hfl, hb⟩
    · cases h
  · cases h

/-- R166: the registers of an engine whose descriptor has ended with a status. -/
def ended (g : DmaEng) (d : DmaDesc) (status : Nat) : DmaEng :=
  { DmaEng.reset with
    last := status
    residue := if status = 0 then 0 else dmaResidue g d
    errcnt := if status = 0 then g.errcnt else satInc g.errcnt 1 }

theorem counted_ite {s t u : State} {c : Nat} {p : Prop} [Decidable p] (h : Counted s t c) (k : Counted s u c) :
    Counted s (if p then t else u) c := by
  split
  · exact h
  · exact k

/-- R166: a descriptor whose tag completes: the engine's registers change, its command leaves, and counters move. -/
theorem dmaFinish_eq (s : State) (c e : Nat) (f : Flight) (d : DmaDesc) (status : Nat) :
    ∃ u, Counted (modDma s c e (fun g => ended g d status)) u c ∧ dmaFinish s c e f d status = modCore u c (fun k => finishFlight k f (status != 0)) := by
  have h := counted_count (modDma s c e (fun g => ended g d status)) c 0x50 1
    (w := engSample f false status (((modDma s c e (fun g => ended g d status)).core c).eng e).residue)
  rw [dmaFinish]
  exact ⟨_, counted_ite (h.trans (counted_count _ c 0x57 1)) (counted_ite h (h.trans (counted_count _ c 0x58 1))), rfl⟩

section
variable {s u : State} {c : Nat} {e : Nat} {f : Flight} {op : DmaOp} {d : DmaDesc} (hfl : (u.core c).flights = (s.core c).flights)
  (htag : (u.core c).ctl.tagCnt = (s.core c).ctl.tagCnt) (hcur : curDma (s.core c) e = some (f, op, d)) (hno : NoStreamBehind s c e)
include hfl htag

/-- R166, R168: what the end of a descriptor leaves. -/
theorem dmaFinish_effect (status : Nat) : Leaves s (dmaFinish u c e f d status) c f ∧ (dmaFinish u c e f d status).mem = u.mem ∧
    (dmaFinish u c e f d status).sends = u.sends ∧ ((dmaFinish u c e f d status).core c).eng e = ended ((u.core c).eng e) d status ∧
    ((dmaFinish u c e f d status).core c).flights = (s.core c).flights.filter (fun x => x.id != f.id) ∧
    (status ≠ 0 → ((dmaFinish u c e f d status).core c).ctl.tagErr.getLsbD f.iss.tag.val = true) := by
  obtain ⟨v, hv, he⟩ := dmaFinish_eq u c e f d status
  have hctl : (v.core c).ctl = (u.core c).ctl := by rw [hv.ctl, modDma, core_modCore]
  have hflv : (v.core c).flights = (s.core c).flights := by rw [hv.flights, modDma, core_modCore, hfl]
  have hengv : (v.core c).eng e = ended ((u.core c).eng e) d status := by
    rw [hv.core]
    exact eng_modDma u c e _
  obtain ⟨blk, pc, tagErr, hk⟩ := finishFlight_eq (v.core c) f (status != 0)
  rw [he]
  refine ⟨leaves_finish f _ (by rw [hctl, htag]), hv.mem, hv.sends, ?_, ?_, fun hst => ?_⟩
  · rw [core_modCore, hk]
    exact hengv
  · rw [core_modCore, finishFlight_flights, hflv]
  · rw [core_modCore, finishFlight_tagErr, if_pos (bne_iff_ne.2 hst)]
    exact getLsbD_or_tag _ _

include hcur hno

/-- R166: the engine's next descriptor, no stream, begins nothing of itself. -/
theorem dmaFinish_kick (status : Nat) : dmaKick (dmaFinish u c e f d status) c e = dmaFinish u c e f d status := by
  obtain ⟨-, -, -, -, hleft, -⟩ := dmaFinish_effect (d := d) (e := e) (f := f) hfl htag status
  obtain ⟨j, fs, hhead, -⟩ := curDma_head hcur
  refine dmaKick_stands fun f' op' d' h => ?_
  obtain ⟨j', fs', hhead', hbody⟩ := curDma_head h
  have hmem : f' ∈ fs := by
    have h1 : f' ∈ engFlights ((dmaFinish u c e f d status).core c) (2 + e) := by
      rw [hhead']
      exact List.mem_cons_self
    rw [engFlights, hleft, List.filter_filter, List.mem_filter, Bool.and_eq_true] at h1
    obtain ⟨hin, heng, hid⟩ := h1
    have h2 : f' ∈ engFlights (s.core c) (2 + e) := List.mem_filter.2 ⟨hin, heng⟩
    rw [hhead] at h2
    obtain rfl | h2 := List.mem_cons.1 h2
    · exact absurd rfl (bne_iff_ne.1 hid)
    · exact h2
  obtain ⟨h1, h2⟩ := hno f' (by rw [hhead]; exact hmem) j' d'
  exact ⟨fun ho => absurd (by rw [hbody, ho]) h1, fun ho => absurd (by rw [hbody, ho]) h2⟩

end

/-- A descriptor that ends without notification, no stream waiting behind it. -/
structure EndsWith (s t : State) (c e : Nat) (f : Flight) (d : DmaDesc) (g : DmaEng) (status : Nat) : Prop where
  leaves : Leaves s t c f
  eng : (t.core c).eng e = ended g d status
  tagErr : status ≠ 0 → (t.core c).ctl.tagErr.getLsbD f.iss.tag.val = true

/-- R166, R168: the end of a descriptor without notification. -/
theorem dmaEndNext_effect {s u : State} {c e : Nat} {f : Flight} {op : DmaOp} {d : DmaDesc} (hfl : (u.core c).flights = (s.core c).flights)
    (htag : (u.core c).ctl.tagCnt = (s.core c).ctl.tagCnt) (hcur : curDma (s.core c) e = some (f, op, d)) (hno : NoStreamBehind s c e)
    (hbound : ((u.core c).eng e).bound = none) (hntf : d.ntf = false) (status : Nat) :
    EndsWith s (dmaEndNext u c e f d status) c e f d ((u.core c).eng e) status ∧ (dmaEndNext u c e f d status).mem = u.mem ∧
      (dmaEndNext u c e f d status).sends = u.sends := by
  generalize hv : modCore (modDma u c e (fun g => { g with endStatus := some status, bound := none })) c (fun k => sbReleaseReads k f.id) = v
  have hvcore : v.core c = sbReleaseReads ((modDma u c e (fun g => { g with endStatus := some status, bound := none })).core c) f.id := by
    rw [← hv, core_modCore]
  have hvfl : (v.core c).flights = (s.core c).flights := by
    rw [hvcore, modDma, core_modCore]
    exact hfl
  have hvtag : (v.core c).ctl.tagCnt = (s.core c).ctl.tagCnt := by
    rw [hvcore, modDma, core_modCore]
    exact htag
  have hveng : (v.core c).eng e = { (u.core c).eng e with endStatus := some status, bound := none } := by
    rw [hvcore]
    exact eng_modDma u c e _
  have he : dmaEndNext u c e f d status = dmaFinish v c e f d status := by
    rw [dmaEndNext, dmaEnd, hbound]
    dsimp only
    rw [dmaClose, hntf, if_neg Bool.false_ne_true, if_neg Bool.false_ne_true, hv, dmaFinish_kick hvfl hvtag hcur hno]
  obtain ⟨h1, h2, h3, h4, -, h5⟩ := dmaFinish_effect (d := d) (e := e) (f := f) hvfl hvtag status
  rw [he]
  refine ⟨⟨h1, ?_, h5⟩, ?_, ?_⟩
  · rw [h4, hveng]
    rfl
  · rw [h2, ← hv]
    rfl
  · rw [h3, ← hv]
    rfl

/-- R166: the notification of a descriptor goes out, and its command stays. -/
theorem dmaEndNext_notifies {s u : State} {c : Nat} {e : Fin 4} {f : Flight} {d : DmaDesc} (hfl : (u.core c).flights = (s.core c).flights)
    (hmem : u.mem = s.mem) (hsends : u.sends = s.sends) (hdev : u.devId = s.devId)
    (hbound : ((u.core c).eng e.val).bound = none) (hntf : d.ntf = true) (hsend : sendOf s (.dma c e) = none) (status : Nat) :
    ((dmaEndNext u c e.val f d status).core c).flights = (s.core c).flights ∧
      (((dmaEndNext u c e.val f d status).core c).eng e.val).noting = true ∧ (dmaEndNext u c e.val f d status).mem = s.mem ∧
      sendOf (dmaEndNext u c e.val f d status) (.dma c e) = some (oneSend
        (notifyBytes d status (if status = 0 then 0 else dmaResidue ((u.core c).eng e.val) d)) false
        (uniDest s d.nq (d.ndev.toNat % 2 ^ 14) (d.ndev.getLsbD 15))) := by
  generalize hv : modCore (modDma u c e.val (fun g => { g with endStatus := some status, bound := none })) c (fun k => sbReleaseReads k f.id) = v
  have hvcore : v.core c = sbReleaseReads ((modDma u c e.val (fun g => { g with endStatus := some status, bound := none })).core c) f.id := by
    rw [← hv, core_modCore]
  have hvfl : (v.core c).flights = (s.core c).flights := by
    rw [hvcore, modDma, core_modCore]
    exact hfl
  have hveng : (v.core c).eng e.val = { (u.core c).eng e.val with endStatus := some status, bound := none } := by
    rw [hvcore]
    exact eng_modDma u c e.val _
  have hrest : v.mem = s.mem ∧ v.sends = s.sends ∧ v.devId = s.devId := by
    rw [← hv]
    exact ⟨hmem, hsends, hdev⟩
  obtain ⟨hvmem, hvsends, hvdev⟩ := hrest
  have hres : dmaResidue ((v.core c).eng e.val) d = dmaResidue ((u.core c).eng e.val) d := by
    rw [hveng]
    rfl
  have hcount := counted_count (modDma v c e.val (fun g => { g with noting := true })) c 0x5D 1
    (w := engSample f false status (if status = 0 then 0 else dmaResidue ((v.core c).eng e.val) d))
  obtain ⟨w, out, hw, he⟩ := startSend_eq (c := c) (.inr (.inr ⟨e, rfl⟩))
    (count (modDma v c e.val (fun g => { g with noting := true })) c 0x5D 1
      (engSample f false status (if status = 0 then 0 else dmaResidue ((v.core c).eng e.val) d)))
    (oneSend (notifyBytes d status (if status = 0 then 0 else dmaResidue ((v.core c).eng e.val) d)) false
      (uniDest s d.nq (d.ndev.toNat % 2 ^ 14) (d.ndev.getLsbD 15)))
  have hwc := hcount.trans hw
  have hfin : (⟨e.val % 4, Nat.mod_lt _ (by decide)⟩ : Fin 4) = e := Fin.ext (Nat.mod_eq_of_lt e.isLt)
  have hgo : dmaEndNext u c e.val f d status = { w with
      out := out
      sends := s.sends ++ [⟨.dma c e, oneSend (notifyBytes d status (if status = 0 then 0 else dmaResidue ((v.core c).eng e.val) d)) false
        (uniDest s d.nq (d.ndev.toNat % 2 ^ 14) (d.ndev.getLsbD 15))⟩] } := by
    rw [hcount.sends, modDma_sends, hvsends] at he
    rw [dmaEndNext, dmaEnd, hbound]
    dsimp only
    rw [dmaClose, hntf, if_pos rfl, if_pos rfl, hv, hfin, hvdev]
    exact he
  rw [hgo]
  refine ⟨?_, ?_, ?_, ?_⟩
  · change (w.core c).flights = _
    rw [hwc.flights, modDma, core_modCore, ← hvfl]
  · change ((w.core c).eng e.val).noting = true
    rw [hwc.core]
    exact congrArg DmaEng.noting (eng_modDma v c e.val _)
  · change w.mem = _
    rw [hwc.mem, modDma_mem, hvmem]
  · rw [sendOf, ← hres]
    exact find_append_new hsend

/-! ### The last burst back -/

theorem streamPump_unbound {s : State} {c e : Nat} (h : ((s.core c).eng e).bound = none) (fuel : Nat) : streamPump fuel s c e = s := by
  cases fuel with
  | zero => rfl
  | succ fuel =>
    rw [streamPump]
    simp only [h]

section
variable {s : State} {c : Nat} {e : Fin 4} {k st : Nat} {f : Flight} {op : DmaOp} {d : DmaDesc} {b : Burst} {h : DmaEng}
  (hcur : curDma (s.core c) e.val = some (f, op, d)) (hop : op = .copy ∨ op = .fill) (hbound : ((s.core c).eng e.val).bound = none)
  (hfind : ((s.core c).eng e.val).bursts.find? (fun b => b.k == k) = some b) (hst : b.status = some st)
  (hh : h = { (s.core c).eng e.val with
    bursts := ((s.core c).eng e.val).bursts.filter (fun x => x.k != k)
    done := if st = 0 then ((s.core c).eng e.val).done + b.len else ((s.core c).eng e.val).done
    bad := if st = 0 then ((s.core c).eng e.val).bad else some (((s.core c).eng e.val).bad.getD st) })
include hcur hop hbound hfind hst hh

/-- R166: a burst that has its status leaves its engine. -/
theorem burstAck_eq (status : Nat) : burstAck s c e k status = dmaCheckEnd (modDma s c e.val (fun _ => h)) c e.val := by
  have hmod : modDma s c e.val (fun g => { g with
      bursts := g.bursts.filter (fun x => x.k != k)
      done := if st = 0 then g.done + b.len else g.done
      bad := if st = 0 then g.bad else g.bad.orElse (fun _ => some st) }) = modDma s c e.val (fun _ => h) := by
    rw [modDma, modDma, hh]
    refine modCore_congr s c ?_
    cases ((s.core c).eng e.val).bad <;> rfl
  have hno : ¬ op = .streamOut := by
    obtain rfl | rfl := hop <;> exact nofun
  rw [burstAck, hcur, hfind]
  dsimp only
  rw [hst]
  dsimp only
  rw [Option.isNone_some, Bool.false_and, Bool.false_and, if_neg Bool.false_ne_true, if_neg hno, hmod, streamPump_unbound]
  rw [eng_modDma, hh]
  exact hbound

/-- R166, R168: what follows the acknowledgement of a burst. -/
theorem exec_burstAck (status : Nat) : exec (.dmaBurstAck c e k status) s = .next (
    match dmaStatus h op d with
    | some fin => dmaEndNext (if h.bad.isSome then readsDone (modDma s c e.val (fun _ => h)) c f else modDma s c e.val (fun _ => h)) c e.val f d fin
    | none => if h.bad.isSome then readsDone (modDma s c e.val (fun _ => h)) c f else modDma s c e.val (fun _ => h)) := by
  have hcur' : curDma ((modDma s c e.val (fun _ => h)).core c) e.val = some (f, op, d) := ((engEdit_modDma s c e.val _).curDma e.val).trans hcur
  have heng : ((if h.bad.isSome then readsDone (modDma s c e.val (fun _ => h)) c f else modDma s c e.val (fun _ => h)).core c).eng e.val = h := by
    split
    · rw [(sameEng_readsDone _ c e.val f).2, eng_modDma]
    · rw [eng_modDma]
  change execDmaBurstAck c e k status s = _
  rw [execDmaBurstAck, burstAck_eq hcur hop hbound hfind hst hh, dmaCheckEnd, hcur']
  dsimp only
  rw [eng_modDma, heng] <;> (cases dmaStatus h op d <;> rfl)

end

/-! ### An answer to a message in flight -/

/-- The message in flight of a path with one member set. -/
theorem sendOf_setMember (s : State) (p : SendPath) (k : Nat) (st : MsgSt) :
    sendOf (setMember s p k st) p = (sendOf s p).map (fun f => { f with members := updMember f.members k st }) := by
  rw [sendOf, sendOf, setMember]
  dsimp only
  induction s.sends with
  | nil => rfl
  | cons x xs ih =>
    rw [List.map_cons]
    by_cases hx : x.path = p
    · rw [if_pos hx, List.find?_cons_of_pos (by simpa using hx), List.find?_cons_of_pos (by simpa using hx)]
      rfl
    · rw [if_neg hx, List.find?_cons_of_neg (by simpa using hx), List.find?_cons_of_neg (by simpa using hx), ih]

theorem sendOf_dropSend (s : State) (p : SendPath) : sendOf (dropSend s p) p = none := by
  rw [sendOf, dropSend, Option.map_eq_none_iff, List.find?_eq_none]
  intro x hx
  simpa using (List.mem_filter.1 hx).2

/-- R225: the answer of the one member of a message is final. -/
theorem memberOutcome_answered {s : State} {c : Nat} {p : SendPath} {m : Send} {dst : MsgDest} {st : Nat} (hp : PathOf c p) (hsend : sendOf s p = some m)
    (hm : m.members = [⟨dst, .answered st⟩]) (ext : MsgAns) : Counted (setMember s p 0 (.final st)) (memberOutcome s p 0 ext) c ∧
      sendOf (memberOutcome s p 0 ext) p = some { m with members := [⟨dst, .final st⟩] } := by
  have hset : sendOf (setMember s p 0 (.final st)) p = some { m with members := [⟨dst, .final st⟩] } := by
    rw [sendOf_setMember, hsend, Option.map_some, hm]
    rfl
  have hc : Counted (setMember s p 0 (.final st)) (memberOutcome s p 0 ext) c := by
    have he : memberOutcome s p 0 ext = if st = 0 then setMember s p 0 (.final 0)
        else countPath (setMember s p 0 (.final st)) p 0x66 (some dst) st (m.bytes.length / 16) := by
      rw [memberOutcome, hsend]
      dsimp only
      rw [hm]
      rfl
    rw [he]
    split
    · next h0 => rw [h0]; exact Counted.refl _ c
    · exact counted_countPath hp _ 0x66 (some dst) st (m.bytes.length / 16)
  exact ⟨hc, by rw [hc.sendOf, hset]⟩

/-- R225: the message whose answer has come is dropped; the cores but for counters, and memory, stand. -/
theorem answered_dropped {s : State} {c : Nat} {p : SendPath} {m : Send} {dst : MsgDest} {st : Nat} (hp : PathOf c p) (hsend : sendOf s p = some m)
    (hm : m.members = [⟨dst, .answered st⟩]) (ext : MsgAns) : ∃ l u, Counted { s with sends := l } u c ∧
      dropSend (memberOutcome s p 0 ext) p = u ∧ sendOf u p = none := by
  obtain ⟨hc, -⟩ := memberOutcome_answered hp hsend hm ext
  refine ⟨(dropSend (memberOutcome s p 0 ext) p).sends, dropSend (memberOutcome s p 0 ext) p, ⟨?_, hc.core, hc.others⟩, rfl, sendOf_dropSend _ p⟩
  exact congrArg (fun t : State => { t with sends := (dropSend (memberOutcome s p 0 ext) p).sends }) hc.rest

/-- A unicast's status is its member's. -/
theorem sendStatus_one {m : Send} {dst : MsgDest} {st : Nat} (hmc : m.mc = false) :
    sendDone { m with members := [⟨dst, .final st⟩] } = true ∧ sendStatus { m with members := [⟨dst, .final st⟩] } = st := by
  refine ⟨rfl, ?_⟩
  rw [sendStatus]
  dsimp only
  rw [hmc]
  rfl

/-- R170: the bytes of a STREAM_OUT message are accounted as it is accepted. -/
def streamSent (u : State) (c e n : Nat) : State := modDma u c e (fun g => { g with done := g.done + n, off := g.off + n })

theorem streamSent_eng (u : State) (c e n : Nat) : ((streamSent u c e n).core c).eng e =
    { (u.core c).eng e with done := ((u.core c).eng e).done + n, off := ((u.core c).eng e).off + n } := eng_modDma u c e _

/-- Table 5.6: the status with which a STREAM_OUT whose message was refused ends. -/
def streamRefusal (st : Nat) : Nat :=
  if st = 2 then 4 else if st = 3 then 5 else if st = 4 then 0xA else if st = 5 then 0xB else if st = 6 then 8 else 9

section
variable {s : State} {c : Nat} {e : Fin 4} {f : Flight} {op : DmaOp} {d : DmaDesc} {m : Send} {dst : MsgDest} {st : Nat}
  (hcur : curDma (s.core c) e.val = some (f, op, d)) (hsend : sendOf s (.dma c e) = some m) (hmc : m.mc = false)
  (hm : m.members = [⟨dst, .answered st⟩])
include hcur hsend hmc hm

/-- R166: the answer to an engine's notification completes its descriptor. -/
theorem exec_notifyAnswer (hnote : ((s.core c).eng e.val).noting = true) (ext : MsgAns) : exec (.dmaNotifyAnswer c e ext) s = .next
    (dmaKick (dmaFinish (dropSend (memberOutcome s (.dma c e) 0 ext) (.dma c e)) c e.val f d (((s.core c).eng e.val).endStatus.getD 0)) c e.val) := by
  obtain ⟨-, hout⟩ := memberOutcome_answered (c := c) (.inr (.inr ⟨e, rfl⟩)) hsend hm ext
  obtain ⟨hdone, -⟩ := sendStatus_one (dst := dst) (st := st) hmc
  change execDmaNotifyAnswer c e ext s = _
  rw [execDmaNotifyAnswer, notifyAnswer]
  dsimp only
  rw [hcur]
  dsimp only
  rw [if_pos hnote, hout]
  dsimp only
  rw [if_pos hdone]

/-- R168, R170: the answer to a STREAM_OUT message. -/
theorem exec_streamOutAnswer (hop : op = .streamOut) (hnote : ((s.core c).eng e.val).noting = false) (ext : MsgAns) {u : State}
    (hu : dropSend (memberOutcome s (.dma c e) 0 ext) (.dma c e) = u) : exec (.streamOutMessageAnswer c e ext) s = .next (
      if st = 0 then
        match ((streamSent u c e.val m.bytes.length).core c |>.eng e.val).bad with
        | some b => dmaEndNext (streamSent u c e.val m.bytes.length) c e.val f d b
        | none =>
          if d.len ≤ ((streamSent u c e.val m.bytes.length).core c |>.eng e.val).off then
            dmaEndNext (streamSent u c e.val m.bytes.length) c e.val f d 0
          else if ((streamSent u c e.val m.bytes.length).core c |>.eng e.val).halting then
            dmaEnd (streamSent u c e.val m.bytes.length) c e.val f d 2
          else streamOutSend (streamSent u c e.val m.bytes.length) c e.val f d
      else dmaEndNext u c e.val f d (streamRefusal st)) := by
  subst hop
  obtain ⟨-, hout⟩ := memberOutcome_answered (c := c) (.inr (.inr ⟨e, rfl⟩)) hsend hm ext
  obtain ⟨hdone, hstat⟩ := sendStatus_one (dst := dst) (st := st) hmc
  change execStreamOutMessageAnswer c e ext s = _
  rw [execStreamOutMessageAnswer, streamOutAnswer]
  dsimp only
  rw [hcur]
  dsimp only
  rw [if_neg (by rw [hnote]; exact Bool.false_ne_true), hout]
  dsimp only
  rw [if_pos hdone, hu, hstat]
  by_cases h0 : st = 0
  · rw [if_pos h0, if_pos h0]
    rfl
  · rw [if_neg h0, if_neg h0]
    refine congrArg (fun x => Host.Outcome.next (dmaEndNext u c e.val f d x)) ?_
    rw [streamRefusal]
    split
    · rfl
    · rfl
    · rfl
    · rfl
    · rfl
    · next h2 h3 h4 h5 h6 => rw [if_neg h2, if_neg h3, if_neg h4, if_neg h5, if_neg h6]

end

/-- R168: when a COPY or FILL ends. -/
theorem dmaStatus_bursts {g : DmaEng} {op : DmaOp} (hop : op = .copy ∨ op = .fill) (d : DmaDesc) (hend : g.endStatus = none) :
    dmaStatus g op d = if g.bursts ≠ [] then none
      else g.bad.or (if g.row = d.rows then some 0 else if g.halting then some 2 else none) := by
  unfold dmaStatus
  rw [hend]
  by_cases hb : g.bursts = []
  · rw [if_neg (by simp [hb]), if_neg (not_not.2 hb)]
    cases g.bad with
    | some st => rfl
    | none => obtain rfl | rfl := hop <;> rfl
  · rw [if_pos (.inl hb), if_pos hb]

/-- The offset of a later byte of a range in the own scratchpad. -/
theorem ownSp_add {c : Nat} {a : W64} {n len : Nat} (h : inOwnSp c a = true) (hn : n < len) (hin : a.toNat % 2 ^ 21 + len ≤ 2 ^ 21) :
    inOwnSp c (a + BitVec.ofNat 64 n) = true ∧ (a + BitVec.ofNat 64 n).toNat % 2 ^ 21 = a.toNat % 2 ^ 21 + n := by
  rw [inOwnSp, Bool.and_eq_true, Bool.not_eq_true', beq_iff_eq] at h
  obtain ⟨hrem, hc⟩ := h
  have hlt : a.toNat < 2 ^ 63 := by
    by_contra hge
    rw [isRemote, Nat.testBit_eq_decide_div_mod_eq, decide_eq_false_iff_not] at hrem
    have := a.isLt
    omega
  have hadd : (a + BitVec.ofNat 64 n).toNat = a.toNat + n := by
    rw [BitVec.toNat_add, BitVec.toNat_ofNat]
    omega
  have hlt' : a.toNat + n < 2 ^ 63 := by omega
  refine ⟨?_, by rw [hadd]; omega⟩
  rw [inOwnSp, isRemote, hadd, Nat.testBit_lt_two_pow hlt', Bool.not_false, Bool.true_and, beq_iff_eq]
  omega

theorem counted_sends_eng {s u : State} {c : Nat} {l : List InFlight} (h : Counted { s with sends := l } u c) (e : Nat) :
    (u.core c).eng e = (s.core c).eng e := by
  rw [h.core]
  rfl

/-- Settles O29: the last burst back ends a descriptor, its notification completes it, and a STREAM_OUT goes on message by message. -/
theorem dmaDescriptorsEnd : Obligations.DmaDescriptorsEnd := by
  unfold Obligations.DmaDescriptorsEnd
  refine ⟨fun s c e k st f op d b g h status hcur hop hg hbound hend hfind hst hh => ⟨fun hmore => ?stays, fun fin hb hfin hno => ?ends⟩,
    fun s c e f op d g m dst st fin ext hcur hg hnote hend hsend hmc hm hno => ?noted,
    fun s c e f d g m dst ext st hcur hg hnote hbound hsend hmc hm hntf hno => ?out⟩
  case stays =>
    subst hg
    have hnone : dmaStatus h op d = none := by
      rw [dmaStatus_bursts hop d (by rw [hh]; exact hend)]
      by_cases hb : h.bursts = []
      · obtain hb' | ⟨hbad, hrow, hhalt⟩ := hmore
        · exact absurd hb hb'
        · simp [hbad, hrow, hhalt]
      · exact if_pos hb
    rw [exec_burstAck hcur hop hbound hfind hst hh, hnone]
  case ends =>
    subst hg
    have hsome : dmaStatus h op d = some fin := by
      rw [dmaStatus_bursts hop d (by rw [hh]; exact hend), if_neg (not_not.2 hb)]
      obtain hbad | ⟨hbad, hrow, rfl⟩ | ⟨hbad, hrow, hhalt, rfl⟩ := hfin
      · rw [hbad]
        rfl
      · simp [hbad, hrow]
      · simp [hbad, hrow, hhalt]
    have he := exec_burstAck hcur hop hbound hfind hst hh status
    rw [hsome] at he
    generalize hu : (if h.bad.isSome then readsDone (modDma s c e.val (fun _ => h)) c f else modDma s c e.val (fun _ => h)) = u at he
    have hucore : { u with cores := s.cores } = s ∧ (u.core c).flights = (s.core c).flights ∧ (u.core c).ctl = (s.core c).ctl ∧
        (u.core c).eng e.val = h := by
      rw [← hu]
      split
      · refine ⟨rfl, ?_, ?_, ?_⟩
        · rw [readsDone, core_modCore, modDma, core_modCore]
          rfl
        · rw [readsDone, core_modCore, modDma, core_modCore]
          rfl
        · rw [(sameEng_readsDone _ c e.val f).2, eng_modDma]
      · refine ⟨rfl, ?_, ?_, eng_modDma s c e.val _⟩
        · rw [modDma, core_modCore]
        · rw [modDma, core_modCore]
    obtain ⟨hrest, hfl, hctl, heng⟩ := hucore
    have hub : ((u.core c).eng e.val).bound = none := by
      rw [heng, hh]
      exact hbound
    refine ⟨fun hntf => ?_, fun hntf hsend => ?_⟩
    · obtain ⟨⟨h1, h2, h3⟩, h4, -⟩ := dmaEndNext_effect hfl (congrArg Ctl.tagCnt hctl) hcur hno hub hntf fin
      refine ⟨_, he, h1, by rw [h4, ← hrest], ?_, ?_, h3⟩
      · rw [h2]
        rfl
      · rw [h2, heng]
        rfl
    · obtain ⟨h1, h2, h3, h4⟩ := dmaEndNext_notifies (f := f) hfl (by rw [← hrest]) (by rw [← hrest]) (by rw [← hrest]) hub hntf hsend fin
      refine ⟨_, he, h1, h2, h3, ?_⟩
      rw [h4, heng]
      rfl
  case noted =>
    subst hg
    have he := exec_notifyAnswer hcur hsend hmc hm hnote ext
    obtain ⟨l, u, hc, hu, hgone⟩ := answered_dropped (c := c) (.inr (.inr ⟨e, rfl⟩)) hsend hm ext
    have hfl : (u.core c).flights = (s.core c).flights := hc.flights
    have htag : (u.core c).ctl.tagCnt = (s.core c).ctl.tagCnt := congrArg Ctl.tagCnt hc.ctl
    rw [hu, hend, Option.getD_some, dmaFinish_kick hfl htag hcur hno] at he
    obtain ⟨h1, h2, h3, h4, -, -⟩ := dmaFinish_effect (d := d) (e := e.val) (f := f) hfl htag fin
    refine ⟨_, he, h1, ?_, ?_, ?_, h2.trans hc.mem⟩
    · rw [h4]
      rfl
    · rw [h4]
      rfl
    · rw [sendOf, h3]
      exact hgone
  case out =>
    subst hg
    obtain ⟨l, u, hc, hu, hgone⟩ := answered_dropped (c := c) (.inr (.inr ⟨e, rfl⟩)) hsend hm ext
    have he := exec_streamOutAnswer hcur hsend hmc hm rfl hnote ext hu
    have heng := counted_sends_eng hc e.val
    have hfl : (u.core c).flights = (s.core c).flights := hc.flights
    have htag : (u.core c).ctl.tagCnt = (s.core c).ctl.tagCnt := congrArg Ctl.tagCnt hc.ctl
    have hveng := streamSent_eng u c e.val m.bytes.length
    have hvcore : ((streamSent u c e.val m.bytes.length).core c).flights = (s.core c).flights ∧
        ((streamSent u c e.val m.bytes.length).core c).ctl.tagCnt = (s.core c).ctl.tagCnt := by
      rw [streamSent, modDma, core_modCore]
      exact ⟨hfl, htag⟩
    have hvmem : (streamSent u c e.val m.bytes.length).mem = s.mem := hc.mem
    refine ⟨fun h0 hbad hlen => ?_, fun h0 => ?_, fun p n h0 hbad hhalt hlen hp hpres hup hown hn hin hs => ?_⟩
    · rw [if_pos h0, hveng, heng, hbad] at he
      dsimp only at he
      rw [if_pos hlen] at he
      obtain ⟨⟨h1, h2, -⟩, h4, h5⟩ := dmaEndNext_effect hvcore.1 hvcore.2 hcur hno (by rw [hveng, heng]; exact hbound) hntf 0
      refine ⟨_, he, h1, ?_, ?_, h4.trans hvmem⟩
      · rw [h2]
        rfl
      · rw [sendOf, h5]
        exact hgone
    · rw [if_neg h0] at he
      obtain ⟨⟨h1, h2, h3⟩, h4, -⟩ := dmaEndNext_effect hfl htag hcur hno (by rw [heng]; exact hbound) hntf (streamRefusal st)
      refine ⟨_, he, h1, ?_, h3 ?_, h4.trans hc.mem⟩
      · rw [h2]
        rfl
      · rw [streamRefusal]
        split_ifs <;> exact nofun
    · obtain ⟨hown', hmod⟩ := ownSp_add hown hlen hin
      rw [if_pos h0, hveng, heng, hbad] at he
      dsimp only at he
      rw [if_neg (by omega), hhalt, if_neg Bool.false_ne_true] at he
      have hoff : (((streamSent u c e.val m.bytes.length).core c).eng e.val).off = ((s.core c).eng e.val).off + m.bytes.length := by
        rw [hveng, heng]
      have hlen' : streamOutLen d (((s.core c).eng e.val).off + m.bytes.length) = n := hn.symm
      have hspd : ((streamSent u c e.val m.bytes.length).core c).spd = (s.core c).spd := by
        rw [streamSent, modDma, core_modCore]
        exact hc.spd
      have hsound : Sound (streamSent u c e.val m.bytes.length) c
          ((d.src + BitVec.ofNat 64 (((s.core c).eng e.val).off + m.bytes.length)).toNat % 2 ^ 21) n := by
        rw [hmod]
        exact sound_congr hspd hc.marks hs
      obtain ⟨h1, -, -, -, h5, h6⟩ := streamOutSend_effect (s := streamSent u c e.val m.bytes.length) (e := e) (d := d) f
        (by rw [hoff]; exact hown') (by rw [hoff, hlen']; exact hsound) hgone (by rw [hveng, heng]; exact hhalt)
      refine ⟨_, he, h1.trans hvmem, by rw [h5, hoff], ?_⟩
      have hdev : (streamSent u c e.val m.bytes.length).devId = s.devId := hc.devId
      rw [h6, hoff, hlen', hmod, spBytes_congr hspd hvmem, uniDest, hdev, ← uniDest]

end Sys2Proof.Machine
end

/-! SUPPORT. The queue unit begins its commands (Sys2Proof.Obligations O30). -/
section

namespace Sys2Proof.Machine

/-! ### A command that ends as it is issued -/

theorem wakeTags_idle {k : Core} (h : k.ctl.blk = .none) : wakeTags k = k := by
  rw [wakeTags, h]
  cases k.ctl.st <;> rfl

theorem wakeTags_sync {k : Core} {id : Nat} (hst : k.ctl.st = .running) (h : k.ctl.blk = .sync id) (hgone : k.flights.any (fun f => f.id == id) = false) :
    wakeTags k = { k with ctl := { k.ctl with blk := .none, pc := k.ctl.pc + 4 } } := by
  rw [wakeTags, hst, h]
  dsimp only
  rw [hgone]
  rfl

/-- R190: a completion changes the tag's count and its ERR bit before it wakes the control unit. -/
theorem finishFlight_wakes (k : Core) (f : Flight) (err : Bool) : ∃ k' : Core, finishFlight k f err = wakeTags k' ∧ k'.ctl.blk = k.ctl.blk ∧
    k'.ctl.st = k.ctl.st ∧ k'.ctl.pc = k.ctl.pc ∧ k'.flights = k.flights.filter (fun x => x.id != f.id) := by
  rw [finishFlight]
  refine ⟨_, rfl, ?_⟩
  cases err <;> cases f.iss.notag <;> exact ⟨rfl, rfl, rfl, rfl⟩

/-- R191: the control unit that nothing holds stands as a command completes. -/
theorem finishFlight_idle {k : Core} (f : Flight) (err : Bool) (hblk : k.ctl.blk = .none) :
    (finishFlight k f err).ctl.blk = .none ∧ (finishFlight k f err).ctl.pc = k.ctl.pc := by
  obtain ⟨k', h, hb, -, hpc, -⟩ := finishFlight_wakes k f err
  rw [h, wakeTags_idle (hb.trans hblk)]
  exact ⟨hb.trans hblk, hpc⟩

/-- R189, R191: the control unit that waits for the command goes on as it completes. -/
theorem finishFlight_sync {k : Core} (f : Flight) (err : Bool) (hst : k.ctl.st = .running) (hblk : k.ctl.blk = .sync f.id) :
    (finishFlight k f err).ctl.blk = .none ∧ (finishFlight k f err).ctl.pc = k.ctl.pc + 4 := by
  obtain ⟨k', h, hb, hs, hpc, hfl⟩ := finishFlight_wakes k f err
  rw [h, wakeTags_sync (id := f.id) (hs.trans hst) (hb.trans hblk) (by
    rw [hfl, List.any_eq_false]
    intro x hx
    simpa using (List.mem_filter.1 hx).2)]
  exact ⟨rfl, congrArg (· + 4) hpc⟩

/-- A command that its engine ends when it is issued, from the state `v` in which its work is done. -/
theorem endsAtOnce_of_finish {s u v : State} {c : Nat} {x : XCmd} {f : Flight} (h : Handed s u c x) (hst : (s.core c).ctl.st = .running)
    (hctl : (v.core c).ctl = (u.core c).ctl) (hid : f.id = (s.core c).nextId) (hiss : f.iss = x.iss) (err : Bool) :
    EndsAtOnce s (modCore v c (fun k => finishFlight k f err)) c x := by
  obtain ⟨-, htag, hrg, hgo⟩ := h.issued
  obtain ⟨hfl, -, hcnt⟩ := leaves_finish (s := u) (u := v) f err (congrArg Ctl.tagCnt hctl)
  refine ⟨fun g hg => by rw [← hid]; exact hfl g hg, ?_, fun r => ?_, ?_⟩
  · rw [hiss, htag] at hcnt
    rw [hcnt]
    split <;> omega
  · rw [rg_finish, rg, hctl, ← rg, hrg]
  · have hstv : (v.core c).ctl.st = .running := by
      rw [hctl, h.ctl, afterIssue, withCommand]
      split <;> split <;> exact hst
    rw [GoesTo, core_modCore]
    by_cases hsync : x.iss.sync = true
    · rw [if_pos hsync] at hgo
      obtain ⟨hpc, hblk⟩ := hgo
      obtain ⟨h1, h2⟩ := finishFlight_sync (k := v.core c) f err hstv (by rw [hctl, hblk, hid])
      exact ⟨by rw [h2, hctl, hpc], h1⟩
    · rw [if_neg hsync] at hgo
      obtain ⟨hpc, hblk⟩ := hgo
      obtain ⟨h1, h2⟩ := finishFlight_idle (k := v.core c) f err (by rw [hctl, hblk])
      exact ⟨by rw [h2, hctl, hpc], h1⟩

/-! ### The command at the head of the queue unit -/

/-- A command is marked begun. -/
def beganAt (u : State) (c id : Nat) : State := modCore u c (fun k => modFlight k id (fun f => { f with begun := true }))

theorem core_beganAt (u : State) (c id : Nat) : (beganAt u c id).core c = modFlight (u.core c) id (fun f => { f with begun := true }) := by
  rw [beganAt, core_modCore]

/-- R239: whether a channel is of the partition of core `c`. -/
def mineChan (s : State) (c ch : Nat) : Bool := (partOf s c).isSome && chanOwner s ch == partOf s c

theorem queKick_busy {s : State} {c : Nat} {g : Flight} {gs : List Flight} (h : engFlights (s.core c) 6 = g :: gs) (hb : g.begun = true) (fuel : Nat) :
    queKick fuel s c = s := by
  cases fuel with
  | zero => rfl
  | succ fuel =>
    rw [queKick, h]
    exact if_pos hb

theorem queKick_idle {s : State} {c : Nat} (h : engFlights (s.core c) 6 = []) (fuel : Nat) : queKick fuel s c = s := by
  cases fuel with
  | zero => rfl
  | succ fuel => rw [queKick, h]

section
variable {u : State} {c : Nat} {f : Flight} {fs : List Flight} (hone : engFlights (u.core c) 6 = f :: fs) (hb : f.begun = false)
include hone hb

/-- R235: a SEND whose message is sound goes out to one queue. -/
theorem queKick_sendUni {d : SendDesc} (hbody : f.body = .que (.send d)) (hs : Sound u c d.src (d.size * 16)) {gqid dev : Nat} {rem : Bool}
    (hdest : decodeDest (d.dest.setWidth 64) = some (.uni gqid dev rem)) (fuel : Nat) : queKick (fuel + 1) u c =
      startSend (modCore (beganAt u c f.id) c (fun k => sbReleaseReads k f.id)) (.que c)
        (mkSend (spBytes u c d.src (d.size * 16)) d.endm (.uni gqid dev rem) []
          [uniDest (modCore (beganAt u c f.id) c (fun k => sbReleaseReads k f.id)) gqid dev rem]) := by
  have hspd : ((beganAt u c f.id).core c).spd = (u.core c).spd := by
    rw [core_beganAt]
    rfl
  have hread := spRead_sound 5 (sound_congr (t := beganAt u c f.id) hspd rfl hs)
  rw [spBytes_congr hspd rfl] at hread
  rw [queKick, hone]
  dsimp only
  rw [if_neg (by rw [hb]; exact Bool.false_ne_true), hbody]
  dsimp only
  rw [← beganAt, hread]
  dsimp only
  rw [hdest]
  dsimp only
  rw [if_neg Bool.false_ne_true, destMembers_uni, if_neg (List.cons_ne_nil _ _)]

/-- R239, R241: a SEND whose message is sound goes out to the members of a channel of its partition. -/
theorem queKick_sendMc {d : SendDesc} (hbody : f.body = .que (.send d)) (hs : Sound u c d.src (d.size * 16)) {ch : Nat}
    (hdest : decodeDest (d.dest.setWidth 64) = some (.mc ch)) (hmine : mineChan u c ch = true) (hne : mcMembers u ch ≠ []) (fuel : Nat) :
    queKick (fuel + 1) u c =
      startSend (count (modCore (beganAt u c f.id) c (fun k => sbReleaseReads k f.id)) c 0x6B 1 (queSample (.x f.pc) false 0 0 0 0 d.size)) (.que c)
        (mkSend (spBytes u c d.src (d.size * 16)) d.endm (.mc ch) [] (mcMembers u ch)) := by
  have hspd : ((beganAt u c f.id).core c).spd = (u.core c).spd := by
    rw [core_beganAt]
    rfl
  have hread := spRead_sound 5 (sound_congr (t := beganAt u c f.id) hspd rfl hs)
  rw [spBytes_congr hspd rfl] at hread
  rw [queKick, hone]
  dsimp only
  rw [if_neg (by rw [hb]; exact Bool.false_ne_true), hbody]
  dsimp only
  rw [← beganAt, hread]
  dsimp only
  rw [hdest]
  dsimp only
  rw [if_neg (by
    rw [Bool.not_eq_true, Bool.not_eq_false']
    exact hmine)]
  exact if_neg hne

/-- R233: an EVPOST for another device leaves. -/
theorem queKick_evpost {d : EvpostDesc} (hbody : f.body = .que (.evpost d)) (fuel : Nat) : queKick (fuel + 1) u c =
    if tgtDev u d.tgt = u.devId then count (beganAt u c f.id) c 0x6D 1 (queSample (.x f.pc) false 0 (d.tgt.toNat % 2 ^ 11) (tgtDev u d.tgt) 0 0)
    else emit (count (beganAt u c f.id) c 0x6D 1 (queSample (.x f.pc) false 0 (d.tgt.toNat % 2 ^ 11) (tgtDev u d.tgt) 0 0))
      (.toDev (devPkt u (partNum u c) c 6 (tgtDev u d.tgt) (d.mask.toNat * 2 ^ 32 + d.tgt.toNat % 2 ^ 11)) 0) := by
  rw [queKick, hone]
  dsimp only
  rw [if_neg (by rw [hb]; exact Bool.false_ne_true), hbody]
  rfl

/-- R244: an MCSET of a channel of its partition awaits its replication; another ends DENIED. -/
theorem queKick_mcset {d : McDesc} (hbody : f.body = .que (.mcset d)) (fuel : Nat) : queKick (fuel + 1) u c =
    if mineChan u c d.chan then beganAt u c f.id else queKick fuel (queEnd (beganAt u c f.id) c f 3 0 0) c := by
  rw [queKick, hone]
  dsimp only
  rw [if_neg (by rw [hb]; exact Bool.false_ne_true), hbody]
  rfl

/-- R239: an MCGET writes the image in effect and ends; of another partition's channel it ends DENIED. -/
theorem queKick_mcget {d : McDesc} (hbody : f.body = .que (.mcget d)) (fuel : Nat) : queKick (fuel + 1) u c =
    if mineChan u c d.chan then
      queKick fuel (queEnd (spWrite (beganAt u c f.id) c d.img (padTo 256 (mcImage u d.chan)) 5).1 c f 0 0 0) c
    else queKick fuel (queEnd (beganAt u c f.id) c f 3 0 0) c := by
  rw [queKick, hone]
  dsimp only
  rw [if_neg (by rw [hb]; exact Bool.false_ne_true), hbody]
  rfl

end

/-! ### Ends -/

theorem queRecord_length (refused first status : Nat) : (queRecord refused first status).length = 16 := by
  simp [queRecord, natBytes_length]

theorem padTo_length (n : Nat) (bs : Bytes) : (padTo n bs).length = n := by
  simp [padTo]
  omega

/-- R235, R236: the end of a command without a result record, and of one with a sound record. -/
theorem queEnd_plain {s : State} {c : Nat} {f : Flight} {q : QueCmd} (hbody : f.body = .que q) (hdet : f.memDetail = none) (hres : queResv q = none)
    (status refused first : Nat) : queEnd s c f status refused first = modCore s c (fun k => finishFlight k f (status != 0)) := by
  rw [queEnd, hbody]
  dsimp only
  rw [hres]
  exact complete_of_none s c _ hdet

theorem queEnd_record {s : State} {c r : Nat} {f : Flight} {q : QueCmd} (hbody : f.body = .que q) (hdet : f.memDetail = none) (hres : queResv q = some r)
    (hs : Sound s c r 16) (status refused first : Nat) : queEnd s c f status refused first =
      modCore (spPuts s c r (queRecord refused first status)) c (fun k => finishFlight k f (status != 0)) := by
  rw [queEnd, hbody]
  dsimp only
  rw [hres]
  dsimp only
  rw [spWrite_sound 5 (by rw [queRecord_length]; exact hs)]
  exact complete_of_none _ c _ hdet

/-- R236: the image and the record of a channel command that the unit does not refuse lie in the scratchpad. -/
theorem mcIn_of_issuable {s : State} {c : Nat} {i : Issue} {d : McDesc} {q : QueCmd} (hq : q = .mcset d ∨ q = .mcget d)
    (h : Issuable s c ⟨i, .que q⟩) : d.img + 256 ≤ 2 ^ 21 ∧ (d.resv = true → d.res + 16 ≤ 2 ^ 21) := by
  have hrule : ∀ code detail, ∀ l : List (Bool × Nat × Nat), firstOf l = none →
      (d.res % 16 != 0 || (d.resv && pastEnd d.res 16), code, detail) ∈ l → d.resv = true → d.res + 16 ≤ 2 ^ 21 := by
    intro code detail l hl hmem hres
    have := firstOf_none hl hmem
    simp only [Bool.or_eq_false_iff, hres, Bool.true_and, pastEnd, decide_eq_false_iff_not, Nat.not_lt] at this
    exact this.2
  obtain ⟨h, -⟩ := h
  obtain rfl | rfl := hq
  · have himg := firstOf_none h (List.mem_cons_self ..)
    simp only [Bool.or_eq_false_iff, pastEnd, decide_eq_false_iff_not, Nat.not_lt] at himg
    exact ⟨himg.1.2, hrule _ _ _ h (List.mem_cons_of_mem _ (List.mem_singleton_self _))⟩
  · have himg := firstOf_none h (List.mem_cons_self ..)
    simp only [Bool.or_eq_false_iff, pastEnd, decide_eq_false_iff_not, Nat.not_lt] at himg
    exact ⟨himg.2, hrule _ _ _ h (List.mem_cons_of_mem _ (List.mem_singleton_self _))⟩

theorem queInstr_row (s : State) (c : Nat) (i : Issue) (q : QueCmd) : exec (queInstr c i q) s = .next (engRow s c i (.que q)) := by
  cases q <;> rfl

/-- The command that the control unit of core `c` hands to an engine. -/
def handedFlight (s : State) (c : Nat) (x : XCmd) : Flight := newFlight (s.core c).nextId ((s.core c).ctl.pc.toNat % 2 ^ 21) x

section
variable {s u : State} {c : Nat} {x : XCmd} (h : Handed s u c x) (hidle : engFlights (s.core c) 6 = []) (heng : engOf x.body = 6)
include h hidle heng

theorem queHead_of_handed : engFlights (u.core c) 6 = [handedFlight s c x] := by
  have hfl := h.engFlights
  rw [heng, hidle] at hfl
  exact hfl

/-- A queue-unit command under way, but for what it sends and counts. -/
theorem begun_of_counted {v w : State} (hc : Counted (beganAt u c (s.core c).nextId) w c) (hv : v.core c = w.core c) : Begun s v c x := by
  refine begun_of_edit h (by rw [heng, hidle]) ?_ ?_ ?_
  · rw [hv, hc.flights, core_beganAt]
  · rw [hv, hc.ctl, core_beganAt]
    rfl
  · rw [hv, hc.nextId, core_beganAt]
    rfl

/-- The queue unit is idle once its one command has ended. -/
theorem queIdle_of_finish {v : State} (hfl : (v.core c).flights = (modFlight (u.core c) (s.core c).nextId (fun f => { f with begun := true })).flights) (err : Bool) :
    engFlights ((modCore v c (fun k => finishFlight k (handedFlight s c x) err)).core c) 6 = [] := by
  have hmod := engFlights_modFlight (k := u.core c) (id := (s.core c).nextId) (g := fun f => { f with begun := true }) (fun _ => rfl) 6
  rw [queHead_of_handed h hidle heng] at hmod
  rw [core_modCore, engFlights_finish, engFlights, hfl, ← engFlights, hmod]
  simp [handedFlight, newFlight]

end

/-- R239, R244: a channel command that ends as it is issued leaves its unit idle. -/
theorem mcEnds {s u v : State} {c : Nat} {x : XCmd} (h : Handed s u c x) (hr : Ready s c) (hidle : engFlights (s.core c) 6 = [])
    (heng : engOf x.body = 6) (hv : v.core c = (beganAt u c (s.core c).nextId).core c) (err : Bool) :
    engFlights ((modCore v c (fun k => finishFlight k (handedFlight s c x) err)).core c) 6 = [] ∧
      EndsAtOnce s (modCore v c (fun k => finishFlight k (handedFlight s c x) err)) c x := by
  obtain ⟨hcan, -, -⟩ := hr
  obtain ⟨-, -, hst, -⟩ := canIssue_iff.1 hcan
  refine ⟨queIdle_of_finish h hidle heng ?_ err, endsAtOnce_of_finish h hst ?_ rfl rfl err⟩
  · rw [hv, core_beganAt]
  · rw [hv, core_beganAt]
    rfl

/-- R235, R239: the same, with bytes written where every word is sound. -/
theorem mcEnds_put {s u : State} {c off : Nat} {bs : Bytes} {x : XCmd} (h : Handed s u c x) (hr : Ready s c) (hm : MemInv s)
    (hidle : engFlights (s.core c) 6 = []) (heng : engOf x.body = 6) (hs : Sound s c off bs.length) (hin : off + bs.length ≤ 2 ^ 21) :
    Sound (beganAt u c (s.core c).nextId) c off bs.length ∧ ∀ (err : Bool), ∀ t,
      t = modCore (spPuts (beganAt u c (s.core c).nextId) c off bs) c (fun k => finishFlight k (handedFlight s c x) err) →
      queKick 7 t c = t ∧ EndsAtOnce s t c x ∧ spBytes t c off bs.length = bs ∧ SpFrame s t c off bs.length ∧ t.mchans = s.mchans ∧
        (err = true → (t.core c).ctl.tagErr.getLsbD x.iss.tag.val = true) := by
  have hspd : ((beganAt u c (s.core c).nextId).core c).spd = (s.core c).spd := by
    rw [core_beganAt]
    exact h.spd
  have hmem : (beganAt u c (s.core c).nextId).mem = s.mem := h.mem
  have hmu : MemInv (beganAt u c (s.core c).nextId) := by
    rw [MemInv, hmem]
    exact hm
  have hbytes := spBytes_spPuts (beganAt u c (s.core c).nextId) c off bs hmu hin
  have hframe := spPuts_frame (beganAt u c (s.core c).nextId) c off bs hmu
  have hmch : (spPuts (beganAt u c (s.core c).nextId) c off bs).mchans = s.mchans := by
    rw [spPuts_eq, ← h.only.1]
    rfl
  refine ⟨sound_congr hspd h.marks hs, fun err t ht => ?_⟩
  subst ht
  obtain ⟨h1, h2⟩ := mcEnds h hr hidle heng (v := spPuts (beganAt u c (s.core c).nextId) c off bs) (core_spPuts _ _ _ _ _) err
  refine ⟨queKick_idle h1 7, h2, ?_, fun y hy => (hframe y fun j hj => ?_).trans (congrArg (memGet · y) hmem), hmch, fun he => ?_⟩
  · refine Eq.trans (spBytes_congr ?_ ?_ _ _) hbytes
    · rw [core_modCore, finishFlight_spd]
    · rfl
  · rw [spKey_congr hspd]
    exact hy j hj
  · subst he
    rw [core_modCore, finishFlight_tagErr, if_pos rfl]
    exact getLsbD_or_tag _ _

theorem OnlyCore.partOf {s t : State} {c : Nat} (h : OnlyCore s t c) (k : Nat) : partOf t k = partOf s k := by
  rw [Machine.partOf, Machine.partOf, State.grp, State.grp, h.groups]

theorem OnlyCore.mineChan {s t : State} {c : Nat} (h : OnlyCore s t c) (ch : Nat) : mineChan t c ch = mineChan s c ch := by
  have : t.chanOwner = s.chanOwner := by rw [← h.1]
  rw [Machine.mineChan, Machine.mineChan, h.partOf, chanOwner, chanOwner, this]

theorem OnlyCore.mcMembers {s t : State} {c : Nat} (h : OnlyCore s t c) (ch : Nat) : mcMembers t ch = mcMembers s ch := by
  rw [← h.1]
  rfl

theorem mineChan_iff {s : State} {c p : Nat} (hp : partOf s c = some p) (ch : Nat) : mineChan s c ch = decide (chanOwner s ch = some p) := by
  rw [mineChan, hp]
  exact Bool.beq_eq_decide_eq _ _

/-- R235: a SEND under way: its reads are released and its message is in flight. -/
theorem sendBegins {s u v : State} {c : Nat} {x : XCmd} (h : Handed s u c x) (hidle : engFlights (s.core c) 6 = []) (heng : engOf x.body = 6)
    (hc : Counted (modCore (beganAt u c (s.core c).nextId) c (fun k => sbReleaseReads k (s.core c).nextId)) v c) (hsend : sendOf s (.que c) = none)
    (m : Send) : Begun s (startSend v (.que c) m) c x ∧ (startSend v (.que c) m).mem = s.mem ∧
      (∀ r ∈ ((startSend v (.que c) m).core c).sb, r.id = (s.core c).nextId → r.write = true) ∧
      sendOf (startSend v (.que c) m) (.que c) = some m := by
  obtain ⟨w, out, hw, he⟩ := startSend_eq (c := c) (.inr (.inl rfl)) v m
  have hvw := hc.trans hw
  have hcore : (startSend v (.que c) m).core c = w.core c := by rw [he]; rfl
  have hsends : v.sends = s.sends := hc.sends.trans h.sends
  refine ⟨begun_of_edit h (by rw [heng, hidle]) ?_ ?_ ?_, ?_, fun r hmem hid => ?_, ?_⟩
  · rw [hcore, hvw.flights, core_modCore, core_beganAt]
    rfl
  · rw [hcore, hvw.ctl, core_modCore, core_beganAt]
    rfl
  · rw [hcore, hvw.nextId, core_modCore, core_beganAt]
    rfl
  · rw [he]
    exact hvw.mem.trans h.mem
  · rw [hcore, hvw.sb, core_modCore] at hmem
    have := (List.mem_filter.1 hmem).2
    simpa [hid] using this
  · rw [he, sendOf, hsends]
    exact find_append_new hsend

/-- Settles O30: commands of the queue unit wait behind one another, and an idle unit begins them, or ends them at once. -/
theorem queueUnitCommandsBegin : Obligations.QueueUnitCommandsBegin := by
  unfold Obligations.QueueUnitCommandsBegin
  refine ⟨fun s c i q x hr hx => ⟨fun hi ⟨g, gs, hg, hb⟩ => ?busy, ?refused⟩, fun s c i d x hr hx hi hidle hs hsend => ⟨fun gqid dev rem hdest => ?uni,
    fun ch p hdest hp hown hne => ?mc⟩, fun s c i d x hr hx hi hidle => ?evpost,
    fun s c i d x y p hr hm hx hy hidle hp => ⟨fun hi hown => ?mcset, fun hi hown hres hs => ?mcget, fun hown hres hs => ⟨fun hi => ?deniedSet, fun hi => ?deniedGet⟩⟩⟩
  case busy =>
    subst hx
    rw [queInstr_row]
    refine engRow_issuable hr hi fun u hu => ?_
    have hbusy : engFlights (u.core c) 6 = g :: (gs ++ [_]) := (hu.engFlights).trans (by rw [show engOf _ = 6 from rfl, hg]; rfl)
    rw [engKick, queKick_busy hbusy hb]
    exact ⟨hu.queued, hu.mem, hu.only⟩
  case refused =>
    subst hx
    exact engRow_refusedOrHeld hr (queInstr_row s c i q)
  case uni =>
    subst hx
    change ∃ t, (Host.Outcome.next (engRow s c i (.que (.send d))) : Res) = .next t ∧ _
    refine engRow_issuable hr hi fun u hu => ?_
    rw [engKick, queKick_sendUni (queHead_of_handed hu hidle rfl) rfl rfl (hu.sound hs) hdest]
    have hdev : (modCore (beganAt u c (handedFlight s c ⟨i, .que (.send d)⟩).id) c
      (fun k => sbReleaseReads k (handedFlight s c ⟨i, .que (.send d)⟩).id)).devId = s.devId := hu.only.devId
    rw [uniDest, hdev, ← uniDest, hu.spBytes]
    exact sendBegins hu hidle rfl (Counted.refl _ c) hsend _
  case mc =>
    subst hx
    change ∃ t, (Host.Outcome.next (engRow s c i (.que (.send d))) : Res) = .next t ∧ _
    refine engRow_issuable hr hi fun u hu => ?_
    rw [engKick, queKick_sendMc (queHead_of_handed hu hidle rfl) rfl rfl (hu.sound hs) hdest
      (by rw [hu.only.mineChan, mineChan_iff hp, decide_eq_true hown]) (by rw [hu.only.mcMembers]; exact hne), hu.spBytes, hu.only.mcMembers]
    obtain ⟨h1, h2, -, h3⟩ := sendBegins hu hidle rfl (counted_count (modCore (beganAt u c (s.core c).nextId) c (fun k => sbReleaseReads k (s.core c).nextId)) c 0x6B 1
      (w := queSample (.x (handedFlight s c ⟨i, .que (.send d)⟩).pc) false 0 0 0 0 d.size)) hsend
      (mkSend (spBytes s c d.src (d.size * 16)) d.endm (.mc ch) [] (mcMembers s ch))
    exact ⟨h1, h2, h3⟩
  case evpost =>
    subst hx
    change ∃ t, (Host.Outcome.next (engRow s c i (.que (.evpost d))) : Res) = .next t ∧ _
    refine engRow_issuable hr hi fun u hu => ?_
    rw [engKick, queKick_evpost (queHead_of_handed hu hidle rfl) rfl rfl]
    have hdev : u.devId = s.devId := hu.only.devId
    have htgt : tgtDev u d.tgt = tgtDev s d.tgt := by rw [tgtDev, tgtDev, hdev]
    have hcount := counted_count (beganAt u c (s.core c).nextId) c 0x6D 1
      (w := queSample (.x (handedFlight s c ⟨i, .que (.evpost d)⟩).pc) false 0 (d.tgt.toNat % 2 ^ 11) (tgtDev s d.tgt) 0 0)
    rw [htgt, hdev]
    by_cases hself : tgtDev s d.tgt = s.devId
    · rw [if_pos hself, if_pos hself]
      exact ⟨begun_of_counted hu hidle rfl hcount rfl, hcount.mem.trans hu.mem, hu.only.out⟩
    · rw [if_neg hself, if_neg hself]
      refine ⟨begun_of_counted hu hidle rfl hcount rfl, hcount.mem.trans hu.mem, ?_⟩
      have hout : u.out = s.out := hu.only.out
      have hpkt : devPkt u (partNum u c) c 6 (tgtDev s d.tgt) (d.mask.toNat * 2 ^ 32 + d.tgt.toNat % 2 ^ 11) =
          devPkt s (partNum s c) c 6 (tgtDev s d.tgt) (d.mask.toNat * 2 ^ 32 + d.tgt.toNat % 2 ^ 11) := by
        rw [devPkt, devPkt, hdev, hout, partNum, partNum, hu.only.partOf]
      rw [hpkt]
      exact congrArg (· ++ _) (hcount.onlyCore.out.trans hout)
  case mcset =>
    subst hx
    change ∃ t, (Host.Outcome.next (engRow s c i (.que (.mcset d))) : Res) = .next t ∧ _
    refine engRow_issuable hr hi fun u hu => ?_
    rw [engKick, queKick_mcset (queHead_of_handed hu hidle rfl) rfl rfl, hu.only.mineChan, mineChan_iff hp, decide_eq_true hown, if_pos rfl]
    exact ⟨begun_of_counted hu hidle rfl (Counted.refl _ c) rfl, hu.mem, by rw [← hu.only.1]; rfl⟩
  case mcget =>
    subst hy
    change ∃ t, (Host.Outcome.next (engRow s c i (.que (.mcget d))) : Res) = .next t ∧ _
    refine engRow_issuable hr hi fun u hu => ?_
    have hid : (handedFlight s c ⟨i, .que (.mcget d)⟩).id = (s.core c).nextId := rfl
    have himg : mcImage u d.chan = mcImage s d.chan := by rw [← hu.only.1]; rfl
    have hlen := padTo_length 256 (mcImage s d.chan)
    obtain ⟨hsound, hput⟩ := mcEnds_put hu hr hm hidle rfl (hlen.symm ▸ hs) (hlen.symm ▸ (mcIn_of_issuable (.inr rfl) hi).1)
    obtain ⟨h1, h2, h3, h4, h5, -⟩ := hput false _ rfl
    rw [engKick, queKick_mcget (queHead_of_handed hu hidle rfl) rfl rfl, hu.only.mineChan, mineChan_iff hp, decide_eq_true hown, if_pos rfl, hid, himg,
      spWrite_sound 5 hsound, queEnd_plain (q := .mcget d) rfl rfl (if_neg (by rw [hres]; exact Bool.false_ne_true))]
    rw [hlen] at h3 h4
    rw [show ((0 : Nat) != 0) = false from rfl, h1]
    exact ⟨h2, h3, h4, h5⟩
  case deniedSet =>
    subst hx
    change ∃ t, (Host.Outcome.next (engRow s c i (.que (.mcset d))) : Res) = .next t ∧ _
    refine engRow_issuable hr hi fun u hu => ?_
    have hlen := queRecord_length 0 0 3
    obtain ⟨hsound, hput⟩ := mcEnds_put hu hr hm hidle rfl (hlen.symm ▸ hs) (hlen.symm ▸ (mcIn_of_issuable (.inl rfl) hi).2 hres)
    obtain ⟨h1, h2, h3, h4, h5, h6⟩ := hput true _ rfl
    rw [hlen] at hsound h3 h4
    have hno : ¬ mineChan u c d.chan = true := by
      rw [hu.only.mineChan, mineChan_iff hp, decide_eq_false hown]
      exact Bool.false_ne_true
    rw [engKick, queKick_mcset (queHead_of_handed hu hidle rfl) rfl rfl, if_neg hno, show (handedFlight s c ⟨i, .que (.mcset d)⟩).id = (s.core c).nextId from rfl,
      queEnd_record (q := .mcset d) rfl rfl (if_pos hres) hsound]
    exact h1.symm ▸ ⟨h2, h5, h3, h4, h6 rfl⟩
  case deniedGet =>
    subst hy
    change ∃ t, (Host.Outcome.next (engRow s c i (.que (.mcget d))) : Res) = .next t ∧ _
    refine engRow_issuable hr hi fun u hu => ?_
    have hlen := queRecord_length 0 0 3
    obtain ⟨hsound, hput⟩ := mcEnds_put hu hr hm hidle rfl (hlen.symm ▸ hs) (hlen.symm ▸ (mcIn_of_issuable (.inr rfl) hi).2 hres)
    obtain ⟨h1, h2, h3, h4, h5, h6⟩ := hput true _ rfl
    rw [hlen] at hsound h3 h4
    have hno : ¬ mineChan u c d.chan = true := by
      rw [hu.only.mineChan, mineChan_iff hp, decide_eq_false hown]
      exact Bool.false_ne_true
    rw [engKick, queKick_mcget (queHead_of_handed hu hidle rfl) rfl rfl, if_neg hno, show (handedFlight s c ⟨i, .que (.mcget d)⟩).id = (s.core c).nextId from rfl,
      queEnd_record (q := .mcget d) rfl rfl (if_pos hres) hsound]
    exact h1.symm ▸ ⟨h2, h5, h3, h4, h6 rfl⟩

end Sys2Proof.Machine
end

section
/-!
SUPPORT. The outcome of messages at their senders (R224 to R226, R236, R254): grants, retries, and the end of a QSEND and a SEND.
-/

namespace Sys2Proof.Machine

theorem updMember_self {ms : List Member} {k : Nat} {m : Member} (h : ms[k]? = some m) (st : MsgSt) :
    (updMember ms k st)[k]? = some { m with st := st } := by
  rw [updMember, List.getElem?_mapIdx, h]
  exact congrArg some (if_pos rfl)

theorem updMember_ne {ms : List Member} {j k : Nat} (h : j ≠ k) (st : MsgSt) : (updMember ms k st)[j]? = ms[j]? := by
  rw [updMember, List.getElem?_mapIdx]
  cases ms[j]? with
  | none => rfl
  | some m => exact congrArg some (if_neg h)

/-- `t` is `s` with other counters of any core, and nothing else. -/
def Tallied (s t : State) : Prop := { t with cores := s.cores } = s ∧ ∀ c, t.core c = { s.core c with cnt := (t.core c).cnt }

theorem Tallied.refl (s : State) : Tallied s s := ⟨rfl, fun _ => rfl⟩

theorem Counted.tallied {s t : State} {c : Nat} (h : Counted s t c) : Tallied s t := by
  refine ⟨h.rest, fun k => ?_⟩
  by_cases hk : k = c
  · rw [hk]
    exact h.core
  · rw [h.others k hk]

theorem tallied_countPath (s : State) (p : SendPath) (code : Nat) (d : Option MsgDest) (status len : Nat) :
    Tallied s (countPath s p code d status len) := by
  cases p with
  | ctl c => exact (counted_count s c code 1).tallied
  | que c => exact (counted_count s c code 1).tallied
  | dma c e => exact (counted_count s c code 1).tallied
  | fn h fn => exact Tallied.refl s
  | fwd sdev rtag => exact Tallied.refl s

section
variable {s t : State} (h : Tallied s t)
include h

theorem Tallied.mem : t.mem = s.mem := by rw [← h.1]
theorem Tallied.out : t.out = s.out := by rw [← h.1]
theorem Tallied.devId : t.devId = s.devId := by rw [← h.1]
theorem Tallied.que (c : Nat) : (t.core c).que = (s.core c).que := by rw [h.2 c]
theorem Tallied.flights (c : Nat) : (t.core c).flights = (s.core c).flights := by rw [h.2 c]
theorem Tallied.sendOf (p : SendPath) : sendOf t p = sendOf s p := by
  rw [Machine.sendOf, Machine.sendOf, ← h.1]

end

/-- R224: member `k` is on its way again, and what leaves for another device is shown. -/
theorem sendAgain_eq {s : State} {p : SendPath} {k : Nat} {f : Send} {m : Member} (hsend : sendOf s p = some f) (hm : f.members[k]? = some m)
    (st : MsgSt) : sendAgain s p k st = sendMember (setMember s p k st) p { f with members := updMember f.members k st } { m with st := st } := by
  have hset := sendOf_setMember s p k st
  rw [hsend, Option.map_some] at hset
  rw [sendAgain, hset]
  dsimp only
  rw [updMember_self hm]

theorem Shows.sendOf {s t : State} (h : Shows s t) (p : SendPath) : sendOf t p = sendOf s p := by
  rw [Machine.sendOf, Machine.sendOf, h]

theorem sendAgain_effect {s : State} {p : SendPath} {k : Nat} {f : Send} {m : Member} (hsend : sendOf s p = some f) (hm : f.members[k]? = some m)
    (st : MsgSt) : { sendAgain s p k st with sends := s.sends, out := s.out } = s ∧
      sendOf (sendAgain s p k st) p = some { f with members := updMember f.members k st } := by
  have hshow := shows_sendMember (setMember s p k st) p { f with members := updMember f.members k st } { m with st := st }
  rw [sendAgain_eq hsend hm]
  refine ⟨?_, ?_⟩
  · rw [hshow]
    rfl
  · rw [hshow.sendOf, sendOf_setMember, hsend]
    rfl

/-- A message for a queue of this device leaves nothing to show. -/
theorem sendAgain_local {s : State} {p : SendPath} {k c q : Nat} {f : Send} {st0 : MsgSt} (hsend : sendOf s p = some f)
    (hm : f.members[k]? = some ⟨.local_ c q, st0⟩) (st : MsgSt) : (sendAgain s p k st).out = s.out := by
  rw [sendAgain_eq hsend hm]
  cases st <;> rfl

/-- One for another device leaves as a packet. -/
theorem sendAgain_remote {s : State} {p : SendPath} {k dev gqid : Nat} {f : Send} {st0 st : MsgSt} (hsend : sendOf s p = some f)
    (hm : f.members[k]? = some ⟨.remote dev gqid, st0⟩) (hst : st = .sent ∨ st = .granted) : ∃ m,
      (sendAgain s p k st).out = s.out ++ [.toDev m f.bytes.length] ∧ m.opc = 4 ∧ m.ddev = dev ∧ m.data = f.bytes := by
  rw [sendAgain_eq hsend hm]
  obtain rfl | rfl := hst <;> exact ⟨_, rfl, rfl, rfl, rfl⟩

/-- R224: whether the queue of this device at which member `k` of a path waits has reserved an entry for it; another device grants it
by its packet. -/
def granted (s : State) (p : SendPath) (k : Nat) (d : MsgDest) : Bool :=
  match localDest s d with
  | some (c, q) => ((s.core c).que.q q).reserved.any (fun r => r.2 = .path p k)
  | none => true

theorem exec_grant {s : State} {p : SendPath} {k rtag : Nat} {f : Send} {d : MsgDest} (hsend : sendOf s p = some f)
    (hm : f.members[k]? = some ⟨d, .waiting⟩) (horph : isOrphan p = false) : exec (.queueGrantArrive (.path p k) rtag) s = .next (
      if granted s p k d then sendAgain (countPath s p 0x65 (some d) 0 (f.bytes.length / 16)) p k .granted else s) := by
  have hif : ∀ a b : State, (if (MsgSt.waiting = MsgSt.waiting ∧ granted s p k d) then a else b) = if granted s p k d then a else b :=
    fun a b => by simp
  rw [← hif]
  change Host.Outcome.next _ = _
  dsimp only
  rw [hsend]
  dsimp only
  rw [hm]
  dsimp only
  rw [horph]
  rfl

theorem granted_remote {s : State} {dev : Nat} (hdev : dev ≠ s.devId) (p : SendPath) (k gqid : Nat) :
    granted s p k (.remote dev gqid) = true := by
  have h : localDest s (.remote dev gqid) = none := if_neg hdev
  rw [granted, h]

/-! ### The end of a SEND (R235, R236) -/

/-- R235, R236: a queue-unit command with a record ends: its record stands in memory, and with no other command the unit is idle. -/
theorem queEnds_recorded {s u : State} {c r n first status : Nat} {l : List InFlight} {g : Flight} {q : QueCmd} (hm : MemInv s)
    (hu : Counted { s with sends := l } u c) (hone : engFlights (s.core c) 6 = [g]) (hbody : g.body = .que q) (hdet : g.memDetail = none)
    (hres : queResv q = some r) (hin : r + 16 ≤ 2 ^ 21) (hs : Sound s c r 16) {t : State}
    (ht : t = queKick 8 (queEnd u c g status n first) c) : Leaves s t c g ∧ spBytes t c r 16 = queRecord n first status ∧
      SpFrame s t c r 16 ∧ t.sends = u.sends ∧ (status ≠ 0 → (t.core c).ctl.tagErr.getLsbD g.iss.tag.val = true) ∧
      ∀ k, k ≠ c → t.core k = s.core k := by
  have hsu : Sound u c r 16 := hu.sound hs
  have hmu : MemInv u := by
    rw [MemInv, hu.mem]
    exact hm
  have hlen := queRecord_length n first status
  have hb := spBytes_spPuts u c r (queRecord n first status) hmu (by rw [hlen]; exact hin)
  have hf := spPuts_frame u c r (queRecord n first status) hmu
  have hsends : (spPuts u c r (queRecord n first status)).sends = u.sends := by rw [spPuts_eq]
  have hcore : ∀ k, (spPuts u c r (queRecord n first status)).core k = u.core k := fun k => core_spPuts _ _ _ _ _
  have hend := queEnd_record hbody hdet hres hsu status n first
  generalize spPuts u c r (queRecord n first status) = w at hb hf hsends hcore hend
  have hkick : t = modCore w c (fun k => finishFlight k g (status != 0)) := by
    rw [ht, hend, queKick_idle]
    rw [core_modCore, engFlights_finish, hcore, engFlights, hu.flights, ← engFlights]
    exact (congrArg (List.filter _) hone).trans (by simp)
  rw [hlen] at hb hf
  rw [hkick]
  refine ⟨leaves_finish g _ ?_, ?_, fun x hx => ?_, hsends, fun hne => ?_, fun k hk => ?_⟩
  · rw [hcore, hu.ctl]
    rfl
  · refine Eq.trans (spBytes_congr ?_ ?_ _ _) hb
    · rw [core_modCore, finishFlight_spd]
    · rfl
  · refine (hf x fun i hi => ?_).trans (by rw [hu.mem])
    rw [hu.spKey]
    exact hx i hi
  · rw [core_modCore, finishFlight_tagErr, if_pos (bne_iff_ne.2 hne)]
    exact getLsbD_or_tag _ _
  · rw [core_modCore_ne _ _ hk, hcore]
    exact hu.others k hk

/-- An outcome that makes a message final ends its send. -/
theorem afterOutcome_done {s : State} {p : SendPath} {f : Send} (hsend : sendOf s p = some f) (hdone : sendDone f = true) :
    afterOutcome s p = sendEnd s p f := by
  rw [afterOutcome, hsend]
  exact if_pos hdone

/-- One that leaves another member's open changes nothing more. -/
theorem afterOutcome_open {s : State} {p : SendPath} {f : Send} (hsend : sendOf s p = some f) (hdone : sendDone f = false) (hh : f.halting = false) :
    afterOutcome s p = s := by
  rw [afterOutcome, hsend]
  dsimp only
  rw [hdone, hh]
  rfl

/-- R225: the answer of a local destination that is still on its way changes nothing. -/
theorem memberOutcome_waits {s : State} {p : SendPath} {f : Send} {k c q : Nat} (hsend : sendOf s p = some f)
    (hm : f.members[k]? = some ⟨.local_ c q, .sent⟩) (ext : MsgAns) : memberOutcome s p k ext = s := by
  rw [memberOutcome, hsend]
  dsimp only
  rw [hm]
  rfl

theorem refusedOf_uni {f : Send} (h : f.mc = false) : refusedOf f = (0, 0) := by
  rw [refusedOf, h]
  rfl

/-- R226: a QSEND whose message was not refused a read ends with its status. -/
theorem sendEnd_ctl {s : State} {c : Nat} {f : Send} {d : Reg} (hmc : f.mc = false) (hh : f.halting = false)
    (hblk : ((dropSend s (.ctl c)).core c).ctl.blk = .qsend d none) :
    sendEnd s (.ctl c) f = advance (setReg (dropSend s (.ctl c)) c d (BitVec.ofNat 64 (sendStatus f))) c := by
  unfold sendEnd
  dsimp only
  rw [hblk]
  dsimp only
  simp only [hmc, hh, Bool.false_eq_true, false_and, if_false]
  rfl

/-- R236: a SEND ends with its status and the number of the members that were refused. -/
theorem sendEnd_que {s : State} {c : Nat} {f : Send} {g : Flight} (hone : engFlights (s.core c) 6 = [g]) (hdet : g.memDetail = none) :
    ∃ u, Counted (dropSend s (.que c)) u c ∧
      sendEnd s (.que c) f = queKick 8 (queEnd u c g (sendStatus f) (refusedOf f).1 (refusedOf f).2) c := by
  refine ⟨_, counted_ite (p := f.mc = true ∧ sendStatus f ≠ 0) (counted_count (dropSend s (.que c)) c 0x6C 1
    (w := queSample (.x g.pc) false 0 0 0 (sendStatus f) (f.bytes.length / 16))) (Counted.refl _ c), ?_⟩
  have hone' : engFlights ((dropSend s (.que c)).core c) 6 = [g] := hone
  unfold sendEnd
  dsimp only
  rw [hone']
  dsimp only
  rw [hdet]
  rfl

/-- Settles O32: a final answer ends a QSEND or a SEND, a grant or a retry sends the message again. -/
theorem sendersLearnTheOutcome : Obligations.SendersLearnTheOutcome := by
  unfold Obligations.SendersLearnTheOutcome
  refine ⟨fun s c st f dst d ext hsend hmc hblk hh => ⟨fun hm => ?qsend, fun k q hm => ?qwait⟩,
    fun s c st f dst g gs d ext hinv hsend hmc hm hone hbody hdet hresv hin hs hgs => ?send,
    fun s p k c q rtag f hsend hm horph => ⟨fun ⟨r, hr, hrk⟩ => ?granted, fun hno => ?ungranted⟩,
    fun s p k dev gqid rtag f hsend hm hdev horph => ?remote, fun s p k f dst hsend hm horph => ?retry⟩
  case qsend =>
    obtain ⟨hc, hout⟩ := memberOutcome_answered (c := c) (.inl rfl) hsend hm ext
    obtain ⟨hdone, hstat⟩ := sendStatus_one (dst := dst) (st := st) hmc
    have hcore : (dropSend (memberOutcome s (.ctl c) 0 ext) (.ctl c)).core c = (memberOutcome s (.ctl c) 0 ext).core c := rfl
    have hctl : ((dropSend (memberOutcome s (.ctl c) 0 ext) (.ctl c)).core c).ctl = (s.core c).ctl := by
      rw [hcore, hc.ctl]
      rfl
    have hr := Machine.retires_next (dropSend (memberOutcome s (.ctl c) 0 ext) (.ctl c)) c d (BitVec.ofNat 64 st)
    obtain ⟨⟨hval, hregs⟩, hgo, honly, -⟩ := hr
    refine ⟨advance (setReg (dropSend (memberOutcome s (.ctl c) 0 ext) (.ctl c)) c d (BitVec.ofNat 64 st)) c, ?_, ⟨hval, fun r hne => ?_⟩,
      by rwa [hctl] at hgo, ?_, ?_, fun k hk => ?_⟩
    · change Host.Outcome.next _ = _
      rw [hsend]
      dsimp only
      rw [hmc, if_neg Bool.false_ne_true, afterOutcome_done hout hdone, sendEnd_ctl (f := { f with members := [⟨dst, .final st⟩] }) hmc hh (by rw [hctl, hblk]), hstat]
    · rw [hregs r hne, rg, rg, hctl]
    · exact sendOf_dropSend _ _
    · exact hc.mem
    · rw [honly.2 k hk]
      exact hc.others k hk
  case qwait =>
    change Host.Outcome.next _ = _
    rw [hsend]
    dsimp only
    rw [hmc, if_neg Bool.false_ne_true, memberOutcome_waits (k := 0) (c := k) (q := q) hsend (by rw [hm]; rfl),
      afterOutcome_open hsend (by rw [sendDone, hm]; rfl) hh]
  case send =>
    subst hgs
    obtain ⟨hc, hout⟩ := memberOutcome_answered (c := c) (.inr (.inl rfl)) hsend hm ext
    obtain ⟨hdone, hstat⟩ := sendStatus_one (dst := dst) (st := st) hmc
    have hone' : engFlights ((memberOutcome s (.que c) 0 ext).core c) 6 = [g] := by
      rw [engFlights, hc.flights]
      exact hone
    obtain ⟨u, hu, hend⟩ := sendEnd_que (f := { f with members := [⟨dst, .final st⟩] }) hone' hdet
    obtain ⟨l, v, hv, hdrop, hnone⟩ := answered_dropped (c := c) (.inr (.inl rfl)) hsend hm ext
    have hu' : Counted { s with sends := l } u c := by
      rw [hdrop] at hu
      exact hv.trans hu
    obtain ⟨hleft, hbytes, hframe, hsends, htag, hoth⟩ := queEnds_recorded (n := 0) (first := 0) (status := st) hinv hu' hone hbody hdet
      (by rw [queResv, hresv]; rfl) hin hs rfl
    refine ⟨queKick 8 (queEnd u c g st 0 0) c, ?_, hleft, hbytes, hframe, ?_, htag, hoth⟩
    · change Host.Outcome.next _ = _
      rw [hsend]
      dsimp only
      rw [hmc, if_neg Bool.false_ne_true, afterOutcome_done hout hdone, hend, hstat,
        refusedOf_uni (f := { f with members := [⟨dst, .final st⟩] }) hmc]
    · rw [sendOf, hsends, hu.sends, hdrop]
      exact hnone
  case granted =>
    have ht := tallied_countPath s p 0x65 (some (.local_ c q)) 0 (f.bytes.length / 16)
    obtain ⟨hrest, hout⟩ := sendAgain_effect (k := k) ((ht.sendOf p).trans hsend) hm .granted
    have hg : granted s p k (.local_ c q) = true := List.any_eq_true.2 ⟨r, hr, decide_eq_true hrk⟩
    refine ⟨sendAgain (countPath s p 0x65 (some (.local_ c q)) 0 (f.bytes.length / 16)) p k .granted, ?_, hout, ?_, ?_⟩
    · rw [exec_grant hsend hm horph, if_pos hg]
    · exact (congrArg State.mem hrest).trans ht.mem
    · have hcores : (sendAgain (countPath s p 0x65 (some (.local_ c q)) 0 (f.bytes.length / 16)) p k .granted).cores =
          (countPath s p 0x65 (some (.local_ c q)) 0 (f.bytes.length / 16)).cores := by
        have h := congrArg State.cores hrest
        exact h
      rw [← ht.que, State.core, State.core, hcores]
  case ungranted =>
    rw [exec_grant hsend hm horph, if_neg fun h => ?_]
    obtain ⟨r, hr, hrk⟩ := List.any_eq_true.1 (show ((s.core c).que.q q).reserved.any (fun r => r.2 = .path p k) = true from h)
    exact hno r hr (of_decide_eq_true hrk)
  case remote =>
    have ht := tallied_countPath s p 0x65 (some (.remote dev gqid)) 0 (f.bytes.length / 16)
    obtain ⟨hrest, hout⟩ := sendAgain_effect (k := k) ((ht.sendOf p).trans hsend) hm .granted
    obtain ⟨m, hshow, hopc, hddev, hdata⟩ := sendAgain_remote (k := k) ((ht.sendOf p).trans hsend) hm (.inr rfl)
    refine ⟨sendAgain (countPath s p 0x65 (some (.remote dev gqid)) 0 (f.bytes.length / 16)) p k .granted, m, ?_, ?_, hout, ?_, hopc, hddev, hdata⟩
    · rw [exec_grant hsend hm horph, if_pos (granted_remote hdev p k gqid)]
    · exact (congrArg State.mem hrest).trans ht.mem
    · rw [hshow, ht.out]
  case retry =>
    obtain ⟨hrest, hout⟩ := sendAgain_effect (k := k) hsend hm .sent
    refine ⟨sendAgain s p k .sent, ?_, hrest, hout, fun c q hd => ?_, fun dev gqid hd => ?_⟩
    · change Host.Outcome.next _ = _
      rw [hsend]
      dsimp only
      rw [hm]
      rw [horph]
      rfl
    · subst hd
      exact sendAgain_local hsend hm .sent
    · subst hd
      exact sendAgain_remote hsend hm (.inl rfl)

end Sys2Proof.Machine
end

section
/-!
SUPPORT. Event posts, multicasts and forwarded copies (R233, R238, R241, R242, R244).
-/

namespace Sys2Proof.Machine

theorem updMember_eq_set {ms : List Member} {k : Nat} {m : Member} (h : ms[k]? = some m) (st : MsgSt) :
    updMember ms k st = ms.set k { m with st := st } := by
  refine List.ext_getElem? fun j => ?_
  by_cases hj : j = k
  · obtain ⟨hk, -⟩ := List.getElem?_eq_some_iff.1 h
    rw [hj, updMember_self h, List.getElem?_set_self hk]
  · rw [updMember_ne hj, List.getElem?_set_ne (Ne.symm hj)]

/-- What holds of every member after an outcome holds of the outcome and of the other members. -/
theorem updMember_all {ms : List Member} {k : Nat} {m : Member} (h : ms[k]? = some m) (st : MsgSt) (p : Member → Bool) :
    (updMember ms k st).all p = (p { m with st := st } && (ms.eraseIdx k).all p) := by
  obtain ⟨hk, -⟩ := List.getElem?_eq_some_iff.1 h
  rw [updMember_eq_set h, List.set_eq_take_append_cons_drop, if_pos hk, List.eraseIdx_eq_take_drop_succ, List.all_append, List.all_append,
    List.all_cons, Bool.and_left_comm]

/-- R242: the answer of one member reaches its sender. -/
theorem memberOutcome_one {s : State} {c k st : Nat} {p : SendPath} {f : Send} {dst : MsgDest} (hp : PathOf c p) (hsend : sendOf s p = some f)
    (hm : f.members[k]? = some ⟨dst, .answered st⟩) (ext : MsgAns) : Counted (setMember s p k (.final st)) (memberOutcome s p k ext) c ∧
      sendOf (memberOutcome s p k ext) p = some { f with members := updMember f.members k (.final st) } := by
  have he : memberOutcome s p k ext = if st = 0 then setMember s p k (.final 0)
      else countPath (setMember s p k (.final st)) p 0x66 (some dst) st (f.bytes.length / 16) := by
    rw [memberOutcome, hsend]
    dsimp only
    rw [hm]
  have hc : Counted (setMember s p k (.final st)) (memberOutcome s p k ext) c := by
    rw [he]
    split
    · next h0 => rw [h0]; exact Counted.refl _ c
    · exact counted_countPath hp _ 0x66 (some dst) st (f.bytes.length / 16)
  refine ⟨hc, ?_⟩
  rw [hc.sendOf, sendOf_setMember, hsend, Option.map_some]

/-- As the send leaves, counters apart nothing else of the state has changed. -/
theorem counted_dropSend {s v : State} {p : SendPath} {c k : Nat} {st : MsgSt} (h : Counted (setMember s p k st) v c) :
    Counted { s with sends := (dropSend v p).sends } (dropSend v p) c :=
  ⟨congrArg (fun t : State => { t with sends := (dropSend v p).sends }) h.rest, h.core, h.others⟩

/-- R242: the status of a multicast whose last outcome comes. -/
theorem sendStatus_last {f : Send} {k st : Nat} {dst : MsgDest} (hmc : f.mc = true) (hm : f.members[k]? = some ⟨dst, .answered st⟩) :
    sendStatus { f with members := updMember f.members k (.final st) } =
      if st = 0 ∧ (f.members.eraseIdx k).all (fun m => isFinal m == some 0) then 0 else 1 := by
  have hall := updMember_all hm (.final st) (fun m => isFinal m == some 0)
  have hst : (isFinal (⟨dst, .final st⟩ : Member) == some 0) = (st == 0) := rfl
  rw [hst] at hall
  rw [sendStatus]
  dsimp only
  rw [hmc, if_pos rfl]
  simp only [hall, Bool.and_eq_true, beq_iff_eq]

/-- Whether every other member's outcome is final decides whether the send is done. -/
theorem sendDone_last {f : Send} {k st : Nat} {dst : MsgDest} (hm : f.members[k]? = some ⟨dst, .answered st⟩) :
    sendDone { f with members := updMember f.members k (.final st) } = true ↔
      ∀ j m, j ≠ k → f.members[j]? = some m → (isFinal m).isSome = true := by
  rw [sendDone, List.all_eq_true]
  dsimp only
  constructor
  · intro h j m hj hget
    refine h m (List.mem_of_getElem? (i := j) ?_)
    rw [updMember_ne hj, hget]
  · intro h m hmem
    obtain ⟨j, hget⟩ := List.getElem?_of_mem hmem
    by_cases hj : j = k
    · rw [hj, updMember_self hm] at hget
      cases hget
      rfl
    · rw [updMember_ne hj] at hget
      exact h j m hj hget

/-! ### EVPOST (R233, R238) -/

theorem curEvpost_head {s : State} {c : Nat} {f : Flight} {d : EvpostDesc} (h : curEvpost s c = some (f, d)) :
    ∃ fs, engFlights (s.core c) 6 = f :: fs ∧ f.body = .que (.evpost d) := by
  rw [curEvpost] at h
  split at h
  · next g fs hfl =>
    split at h
    · next d' hb =>
      split at h
      · cases h
        exact ⟨fs, hfl, hb⟩
      · cases h
    · cases h
  · cases h

theorem mem_of_engFlights {k : Core} {e : Nat} {f : Flight} {fs : List Flight} (h : engFlights k e = f :: fs) : f ∈ k.flights := by
  have hmem : f ∈ engFlights k e := by
    rw [h]
    exact List.mem_cons_self
  exact (List.mem_filter.1 hmem).1

/-- R231: setting flags changes no command in flight. -/
theorem setFlags_flights (s : State) (c k : Nat) (m : W64) : ((setFlags s c m).core k).flights = (s.core k).flights := by
  by_cases hk : k = c
  · obtain ⟨blk, pc, regs, h⟩ := setFlags_core s c m
    rw [hk, h]
  · rw [(setFlags_effect s c m).2.1.2 k hk]

/-- R233: the target decides. -/
theorem evpostAt_admitted {s : State} {t sdev spart : Nat} (hp : present s t = true) (hr : (s.core t).crst = false)
    (ha : admits s t (s.core t).que.evtScope (s.core t).que.evtLo (s.core t).que.evtHi sdev spart = true) (score : Nat) (mask : W32) :
    evpostAt s t sdev spart score mask = (setFlags s t (mask.setWidth 64 <<< 32), 0) := by
  rw [evpostAt, hp, hr]
  exact if_pos ha

theorem evpostAt_refused {s : State} {t sdev spart : Nat} (hp : present s t = true) (hr : (s.core t).crst = false)
    (ha : admits s t (s.core t).que.evtScope (s.core t).que.evtLo (s.core t).que.evtHi sdev spart = false) (score : Nat) (mask : W32) :
    evpostAt s t sdev spart score mask = (countRefusal s t 3 0 spart score sdev true, 3) := by
  rw [evpostAt, hp, hr]
  exact if_neg (ne_true_of_eq_false ha)

/-- R222: a refusal is counted and captured at the owner, and the messages there stand. -/
theorem countRefusal_effect (s : State) (c status q spart score sdev : Nat) (evp : Bool) :
    OnlyCore s (countRefusal s c status q spart score sdev evp) c ∧ (countRefusal s c status q spart score sdev evp).mem = s.mem ∧
      ((countRefusal s c status q spart score sdev evp).core c).que = { (s.core c).que with
        refuse := satInc (s.core c).que.refuse 1
        rlog := if (s.core c).que.rlog.v then (s.core c).que.rlog else ⟨true, status, q, spart, evp, sdev⟩ } ∧
      ((countRefusal s c status q spart score sdev evp).core c).flights = (s.core c).flights := by
  have hc := counted_count (modQue s c (fun u => { u with
    refuse := satInc u.refuse 1,
    rlog := if u.rlog.v then u.rlog else ⟨true, status, q, spart, evp, sdev⟩ })) c 0x67 1 (w := queSample .none_ false q score sdev status 0)
  have hq := queEdit_modQue s c (fun u => { u with
    refuse := satInc u.refuse 1,
    rlog := if u.rlog.v then u.rlog else ⟨true, status, q, spart, evp, sdev⟩ })
  refine ⟨⟨rfl, fun k hk => (hc.others k hk).trans (hq.others k hk)⟩, rfl, ?_, ?_⟩
  · exact hc.que.trans (by simp)
  · exact hc.flights.trans (by simp)

/-- R233: an EVPOST of this device marks its outcome at its command. -/
theorem exec_evpostCore {s t : State} {c st : Nat} {f : Flight} {d : EvpostDesc} (hcur : curEvpost s c = some (f, d)) (hdev : tgtDev s d.tgt = s.devId)
    (hst : f.status = 0) (hres : f.result = 0) (hat : evpostAt s (d.tgt.toNat % 2 ^ 11) s.devId (partNum s c) c d.mask = (t, st)) :
    exec (.evpostArrive (.core c)) s = .next (modCore t c (fun k => modFlight k f.id (fun f => { f with status := st, result := 1 }))) := by
  change Host.Outcome.next _ = _
  dsimp only
  rw [hcur]
  dsimp only
  rw [if_pos ⟨hdev, hst, hres⟩, hat]

/-- Its outcome stands at the command, whatever else has changed but the commands in flight. -/
theorem marked_flight {t : State} {c : Nat} {f : Flight} (hmem : f ∈ (t.core c).flights) (st : Nat) :
    ∃ g ∈ ((modCore t c (fun k => modFlight k f.id (fun f => { f with status := st, result := 1 }))).core c).flights,
      g.id = f.id ∧ g.status = st ∧ g.result = 1 := by
  rw [core_modCore]
  exact ⟨{ f with status := st, result := 1 }, List.mem_map.2 ⟨f, hmem, if_pos (beq_self_eq_true f.id)⟩, rfl, rfl, rfl⟩

theorem que_marked (t : State) (c k id st : Nat) :
    ((modCore t c (fun k => modFlight k id (fun f => { f with status := st, result := 1 }))).core k).que = (t.core k).que := by
  by_cases hk : k = c
  · rw [hk, core_modCore]
    rfl
  · rw [core_modCore_ne _ _ hk]

/-- A command of the queue unit without a record ends, and with no other command the unit is idle. -/
theorem queEnds_plain {s u : State} {c status n first : Nat} {g : Flight} {q : QueCmd} (hu : u.core c = s.core c)
    (hone : ∀ x ∈ engFlights (s.core c) 6, x.id = g.id) (hbody : g.body = .que q) (hdet : g.memDetail = none) (hres : queResv q = none) {t : State}
    (ht : t = queKick 8 (queEnd u c g status n first) c) : Leaves s t c g ∧ (t.mem = u.mem ∧ t.mchans = u.mchans) ∧
      (status ≠ 0 → (t.core c).ctl.tagErr.getLsbD g.iss.tag.val = true) := by
  have hkick : t = modCore u c (fun k => finishFlight k g (status != 0)) := by
    rw [ht, queEnd_plain hbody hdet hres, queKick_idle]
    rw [core_modCore, engFlights_finish, hu, List.filter_eq_nil_iff]
    exact fun x hx => by simp [hone x hx]
  rw [hkick]
  refine ⟨leaves_finish g _ (by rw [hu]), ⟨rfl, rfl⟩, fun hne => ?_⟩
  rw [core_modCore, finishFlight_tagErr, if_pos (bne_iff_ne.2 hne)]
  exact getLsbD_or_tag _ _

/-! ### Forwarded copies (R241) -/

/-- The send of a forwarded copy to the members of its channel. -/
def forwarded (s : State) (m : FwdMsg) : Send :=
  { bytes := m.bytes, endm := m.endm, mc := true, chan := m.chan, sys := false, poison := [], halting := false,
    orig := some { spart := m.spart, score := m.score, sdev := m.sdev, sys := false, mc := true, chan := m.chan, endm := m.endm },
    crossed := m.crossed, members := (mcMembers s m.chan).map (fun x => ⟨x, .sent⟩) }

/-- R241: a copy for another device that has crossed 4 devices is cut off. -/
def forwardCut (m : FwdMsg) (d : MsgDest) : Bool :=
  match d with
  | .fwd _ _ => decide (4 ≤ m.crossed)
  | _ => false

theorem forwardCut_false {m : FwdMsg} (h : m.crossed < 4) (d : MsgDest) : forwardCut m d = false := by
  cases d with
  | fwd a b => exact decide_eq_false (by omega)
  | local_ a b => rfl
  | remote a b => rfl

/-- A copy that no member's crossing cuts off: it goes to every member. -/
theorem exec_mcfwd {s : State} {m : FwdMsg} (had : fscopeAdmits (mcImage s m.chan) m.sdev = true) (hx : m.crossed < 4) :
    exec (.mcfwdArrive m) s = .next (afterOutcome (startSend s (.fwd m.sdev m.rtag) (forwarded s m)) (.fwd m.sdev m.rtag)) := by
  have h : exec (.mcfwdArrive m) s = .next (afterOutcome
      (startSend { s with cntMcDepth := s.cntMcDepth + (((mcMembers s m.chan).map (fun d =>
          (⟨d, if forwardCut m d then .final 3 else .sent⟩ : Member))).filter (fun x => forwardCut m x.dest)).length } (.fwd m.sdev m.rtag)
        { forwarded s m with members := (mcMembers s m.chan).map (fun d => (⟨d, if forwardCut m d then .final 3 else .sent⟩ : Member)) })
      (.fwd m.sdev m.rtag)) := by
    change Host.Outcome.next _ = _
    dsimp only
    rw [if_pos had]
    rfl
  rw [h]
  simp only [forwardCut_false hx, Bool.false_eq_true, if_false, List.filter_false, List.length_nil, Nat.add_zero]
  rfl

/-- R241: a forwarded copy is counted at no core, and beyond packets nothing but the sends in flight changes. -/
theorem startSend_fwd (s : State) (sdev rtag : Nat) (f : Send) :
    ∃ out, startSend s (.fwd sdev rtag) f = { s with out := out, sends := s.sends ++ [⟨.fwd sdev rtag, f⟩] } := by
  have hs := shows_sendMembers s (.fwd sdev rtag) f f.members
  refine ⟨(f.members.foldl (fun s m => sendMember s (.fwd sdev rtag) f m) s).out, ?_⟩
  rw [startSend]
  rw [show countPath s (.fwd sdev rtag) 0x60 (f.members.head?.map (·.dest)) 0 (f.bytes.length / 16) = s from rfl]
  rw [hs]

/-- Settles O33: an EVPOST is decided at its target and ends by its outcome, an MCSET puts its image in effect, a multicast ends
with its last outcome, and a forwarded copy goes to the channel's members. -/
theorem eventPostsAndMulticastsComplete : Obligations.EventPostsAndMulticastsComplete := by
  unfold Obligations.EventPostsAndMulticastsComplete
  refine ⟨fun s c tc f d u hcur hdev htc hp hr hu hst hres => ⟨fun ha => ?admitted, fun ha => ?refused⟩,
    fun s tc sdev spart rtag mask hp hr ha => ?ext, fun s c status f d hcur hresv hone hdet hend => ?answer,
    fun s c f d hone hbody hb hresv hs => ?mcset, fun s c k st f g d dst ext hsend hmc hh hm => ⟨fun ⟨j, m, hj, hget, hopen⟩ => ?opened,
      fun hall hinv hone hbody hdet hresv hin hs => ?last⟩, fun s m => ⟨fun had => ?denied, fun had hx hne hnone => ?copied⟩⟩
  case admitted =>
    subst htc hu
    obtain ⟨fs, hfl, -⟩ := curEvpost_head hcur
    obtain ⟨hflags, honly, -⟩ := setFlags_effect s (d.tgt.toNat % 2 ^ 11) (d.mask.setWidth 64 <<< 32)
    refine ⟨_, exec_evpostCore hcur hdev hst hres (evpostAt_admitted hp hr ha c d.mask), ?_, ?_, marked_flight ?_ 0⟩
    · exact honly.mem
    · rw [que_marked, hflags]
    · rw [setFlags_flights]
      exact mem_of_engFlights hfl
  case refused =>
    subst htc hu
    obtain ⟨fs, hfl, -⟩ := curEvpost_head hcur
    obtain ⟨honly, hmem, hque, hflights⟩ := countRefusal_effect s (d.tgt.toNat % 2 ^ 11) 3 0 (partNum s c) c s.devId true
    refine ⟨_, exec_evpostCore hcur hdev hst hres (evpostAt_refused hp hr ha c d.mask), hmem, ?_, ?_, marked_flight ?_ 3⟩
    · rw [que_marked, hque]
    · rw [que_marked, hque]
    · by_cases hk : c = d.tgt.toNat % 2 ^ 11
      · rw [← hk] at hflights ⊢
        rw [hflights]
        exact mem_of_engFlights hfl
      · rw [honly.2 c hk]
        exact mem_of_engFlights hfl
  case ext =>
    obtain ⟨hflags, honly, -⟩ := setFlags_effect s tc (mask.setWidth 64 <<< 32)
    refine ⟨emit (setFlags s tc (mask.setWidth 64 <<< 32)) (.answer sdev rtag 0 []), ?_, ?_, hflags, ?_⟩
    · change Host.Outcome.next _ = _
      dsimp only
      rw [evpostAt_admitted hp hr ha]
    · exact honly.mem
    · exact congrArg (· ++ [Output.answer sdev rtag 0 []]) honly.out
  case answer =>
    obtain ⟨fs, hfl, hbody⟩ := curEvpost_head hcur
    have hones : ∀ x ∈ engFlights (s.core c) 6, x.id = f.id := fun x hx => by
      rw [hone, List.mem_singleton] at hx
      rw [hx]
    obtain ⟨hleft, ⟨hmem, -⟩, htag⟩ := queEnds_plain (u := s) (status := if tgtDev s d.tgt = s.devId then f.status else status) (n := 0) (first := 0)
      rfl hones hbody hdet (by rw [queResv, hresv]; rfl) rfl
    refine ⟨queKick 8 (queEnd s c f (if tgtDev s d.tgt = s.devId then f.status else status) 0 0) c, ?_, hleft, ?_, htag⟩
    · change Host.Outcome.next (evpostAnswer s c status) = _
      rw [evpostAnswer, hcur]
      dsimp only
      by_cases hdev : tgtDev s d.tgt = s.devId
      · rw [if_pos hdev, if_pos (hend.resolve_left (not_not.2 hdev)), if_pos hdev]
      · rw [if_neg hdev, if_neg hdev]
    · exact hmem
  case mcset =>
    have hones : ∀ x ∈ engFlights (s.core c) 6, x.id = f.id := fun x hx => by
      rw [hone, List.mem_singleton] at hx
      rw [hx]
    obtain ⟨hleft, ⟨hmem, hmch⟩, -⟩ := queEnds_plain (u := { s with mchans := mset s.mchans d.chan (spBytes s c d.img 256) }) (c := c) (s := s)
      (g := { f with memDetail := none }) (status := 0) (n := 0) (first := 0) rfl hones hbody rfl (by rw [queResv, hresv]; rfl) rfl
    refine ⟨queKick 8 (queEnd { s with mchans := mset s.mchans d.chan (spBytes s c d.img 256) } c { f with memDetail := none } 0 0 0) c,
      ?_, hleft, hmem, ?_, fun ch hch => ?_⟩
    · change Host.Outcome.next _ = _
      rw [hone]
      dsimp only
      rw [hbody]
      dsimp only
      rw [if_pos hb, spRead_sound 5 hs]
      rfl
    · rw [mcImage, hmch, mget_mset]
    · rw [mcImage, hmch, mget_mset_ne _ _ _ hch, ← mcImage]
  case opened =>
    obtain ⟨hc, hout⟩ := memberOutcome_one (c := c) (.inr (.inl rfl)) hsend hm ext
    have hdone : sendDone { f with members := updMember f.members k (.final st) } = false := by
      rw [← Bool.not_eq_true, sendDone_last hm]
      intro h
      have := h j m hj hget
      rw [hopen] at this
      cases this
    refine ⟨memberOutcome s (.que c) k ext, ?_, hout, hc.mem, hc.flights⟩
    change Host.Outcome.next _ = _
    rw [hsend]
    dsimp only
    rw [if_pos hmc, afterOutcome_open hout hdone hh]
  case last =>
    obtain ⟨hc, hout⟩ := memberOutcome_one (c := c) (.inr (.inl rfl)) hsend hm ext
    have hdone := (sendDone_last (st := st) hm).2 hall
    have hone' : engFlights ((memberOutcome s (.que c) k ext).core c) 6 = [g] := by
      rw [engFlights, hc.flights]
      exact hone
    obtain ⟨u, hu, hend⟩ := sendEnd_que (f := { f with members := updMember f.members k (.final st) }) hone' hdet
    have hu' : Counted { s with sends := (dropSend (memberOutcome s (.que c) k ext) (.que c)).sends } u c := by
      exact (counted_dropSend hc).trans hu
    obtain ⟨n, first, href⟩ : ∃ n first, refusedOf { f with members := updMember f.members k (.final st) } = (n, first) := ⟨_, _, rfl⟩
    rw [href] at hend
    obtain ⟨hleft, hbytes, -, hsends, -⟩ := queEnds_recorded (n := n) (first := first) hinv hu' hone hbody hdet
      (by rw [queResv, hresv]; rfl) hin hs rfl
    refine ⟨_, n, first, ?_, hleft, ?_, by rw [hbytes, ← sendStatus_last hmc hm]⟩
    · change Host.Outcome.next _ = _
      rw [hsend]
      dsimp only
      rw [if_pos hmc, afterOutcome_done hout hdone, hend]
    · rw [sendOf, hsends, hu'.sends]
      exact sendOf_dropSend _ _
  case denied =>
    change Host.Outcome.next _ = _
    dsimp only
    rw [had]
    rfl
  case copied =>
    obtain ⟨out, he⟩ := startSend_fwd s m.sdev m.rtag (forwarded s m)
    have hout : sendOf (startSend s (.fwd m.sdev m.rtag) (forwarded s m)) (.fwd m.sdev m.rtag) = some (forwarded s m) := by
      rw [he]
      exact find_append_new hnone
    have hdone : sendDone (forwarded s m) = false := by
      rw [sendDone, forwarded]
      obtain ⟨x, xs, hxs⟩ := List.exists_cons_of_ne_nil hne
      rw [hxs]
      rfl
    refine ⟨startSend s (.fwd m.sdev m.rtag) (forwarded s m), forwarded s m, ?_, ?_, ?_, hout, ?_⟩
    rotate_left
    · rw [he]
    · rw [he]
    · unfold forwarded
      refine ⟨rfl, rfl, rfl, ?_⟩
      dsimp only
    rw [exec_mcfwd had hx, afterOutcome_open hout hdone rfl]

end Sys2Proof.Machine
end

section
/-!
SUPPORT. Messages that reach their queues (R215, R218, R221 to R224, R227).
-/

namespace Sys2Proof.Machine

/-- R222: the first of the refusals that holds. -/
def arrivalRefusal (s : State) (c q : Nat) (bs : Bytes) (info : MsgMeta) : Option Nat :=
  if 30 ≤ q ∧ !info.sys then some 3
  else if !info.sys && !admits s c ((s.core c).que.q q).scope ((s.core c).que.q q).devlo ((s.core c).que.q q).devhi info.sdev info.spart then some 3
  else if !((s.core c).que.q q).en then some 4
  else if (((s.core c).que.q q).esize + 1) * 16 < bs.length then some 5
  else none

/-- R224: what becomes of a message that finds no free entry. -/
def arriveFull (s : State) (c q : Nat) (w : Option Sender) : State × Arrival × Option (Nat × Nat) :=
  match w with
  | none => (s, .nocredit false, none)
  | some w =>
    if waiterRecords (s.core c).que < 64 then (modQ s c q (fun u => { u with waiters := u.waiters ++ [w] }), .nocredit true, none)
    else (s, .nocredit false, none)

/-- R222 to R224: what becomes of a message that is refused with `r`, or not refused. -/
def arriveAs (s : State) (c q : Nat) (bs : Bytes) (poison : List Nat) (info : MsgMeta) (w : Option Sender) (r : Option Nat) :
    State × Arrival × Option (Nat × Nat) :=
  match r with
  | some st => refuseWith s c q info st
  | none =>
    if 0 < ((s.core c).que.q q).freeCount then
      ((storeMsg s c q ((s.core c).que.q q).freeSlot bs poison info).1, .final 0, (storeMsg s c q ((s.core c).que.q q).freeSlot bs poison info).2)
    else arriveFull s c q w

section
variable {s : State} {c q : Nat} {w : Option Sender} (hp : present s c = true) (hr : (s.core c).crst = false)
  (hres : ∀ r ∈ ((s.core c).que.q q).reserved, some r.2 ≠ w)
include hp hr hres

theorem arrive_eq (bs : Bytes) (poison : List Nat) (info : MsgMeta) :
    arrive s c q bs poison info w = arriveAs s c q bs poison info w (arrivalRefusal s c q bs info) := by
  have hfind : ((s.core c).que.q q).reserved.find? (fun r => some r.2 = w) = none := List.find?_eq_none.2 fun r hmem => by simpa using hres r hmem
  unfold arrive
  rw [hp, hr, if_neg (by decide), if_neg Bool.false_ne_true]
  dsimp only
  rw [hfind]
  dsimp only [arrivalRefusal]
  cases w <;> split_ifs <;> simp only [arriveAs, arriveFull, *, if_true, if_false]

theorem arrive_refused {bs : Bytes} {info : MsgMeta} {st : Nat} (h : arrivalRefusal s c q bs info = some st) (poison : List Nat) :
    arrive s c q bs poison info w = (countRefusal s c st q info.spart info.score info.sdev false, .final st, none) := by
  rw [arrive_eq hp hr hres, h]
  rfl

theorem arrive_stored {bs : Bytes} {info : MsgMeta} (h : arrivalRefusal s c q bs info = none) (hfree : 0 < ((s.core c).que.q q).freeCount)
    (poison : List Nat) : arrive s c q bs poison info w = ((storeMsg s c q ((s.core c).que.q q).freeSlot bs poison info).1, .final 0,
      (storeMsg s c q ((s.core c).que.q q).freeSlot bs poison info).2) := by
  rw [arrive_eq hp hr hres, h, arriveAs, if_pos hfree]

theorem arrive_waits {bs : Bytes} {info : MsgMeta} {x : Sender} (h : arrivalRefusal s c q bs info = none) (hfree : ((s.core c).que.q q).freeCount = 0)
    (hrec : waiterRecords (s.core c).que < 64) (hw : w = some x) (poison : List Nat) : arrive s c q bs poison info w =
      (modQ s c q (fun u => { u with waiters := u.waiters ++ [x] }), .nocredit true, none) := by
  rw [arrive_eq hp hr hres, h]
  subst hw
  rw [arriveAs, if_neg (by omega), arriveFull, if_pos hrec]

end

/-- R218: of a message that is stored, what the queue and the counters learn. `u` is the state after the entry is written. -/
def entered (u : State) (c q slot len : Nat) (info : MsgMeta) : State :=
  modQ u c q (fun v => { v with msgs := v.msgs ++ [⟨slot, len, info⟩], tail := (slot + 1) % (v.depth + 1) })

theorem core_entered (u : State) (c q slot len : Nat) (info : MsgMeta) : ((entered u c q slot len info).core c).que.q q =
    { (u.core c).que.q q with
      msgs := ((u.core c).que.q q).msgs ++ [⟨slot, len, info⟩]
      tail := (slot + 1) % (((u.core c).que.q q).depth + 1) } := q_modQ u c q _

/-- Table 18.1: what a message that is stored counts. -/
def arrivalCounted (v : State) (c q : Nat) (w : Sample) : State :=
  let s := count v c 0x61 1 w
  let s := if q = 31 then count s c 0x77 1 w else s
  if ((s.core c).que.q q).freeCount = 0 then count s c 0x68 1 w else s

theorem counted_arrival (v : State) (c q : Nat) (w : Sample) : Counted v (arrivalCounted v c q w) c := by
  have h1 := counted_count v c 0x61 1 (w := w)
  have h2 : Counted v (if q = 31 then count (count v c 0x61 1 w) c 0x77 1 w else count v c 0x61 1 w) c :=
    counted_ite (h1.trans (counted_count _ c 0x77 1)) h1
  exact counted_ite (h2.trans (counted_count _ c 0x68 1)) h2

/-- R227: a QRECV that waits for the queue takes its message. -/
def wakeQrecv (u : State) (c q : Nat) : State × Option (Nat × Nat) :=
  match (u.core c).ctl.st, (u.core c).ctl.blk with
  | .running, .qrecv d q' dst => if q' = q then serveRecv u c q dst d else (u, none)
  | _, _ => (u, none)

theorem wakeQrecv_stands {u : State} {c q : Nat} (h : ∀ d dst, (u.core c).ctl.blk ≠ .qrecv d q dst) : wakeQrecv u c q = (u, none) := by
  unfold wakeQrecv
  split
  · next d q' dst _ hblk =>
    refine if_neg fun hq => ?_
    subst hq
    exact h d dst hblk
  · rfl

theorem wakeQrecv_takes {u : State} {c q dst : Nat} {d : Reg} (hst : (u.core c).ctl.st = .running) (hblk : (u.core c).ctl.blk = .qrecv d q dst) :
    wakeQrecv u c q = serveRecv u c q dst d := by
  unfold wakeQrecv
  rw [hst, hblk]
  exact if_pos rfl

section
variable {s : State} {c q slot : Nat} {bs : Bytes} {info : MsgMeta} (hs : Sound s c (((s.core c).que.q q).slotOff slot) bs.length)
include hs

/-- R218, R223: an entry of sound words is written, the message joins its queue, and counters count; then a QRECV that waits for the
queue takes it. -/
theorem storeMsg_eq (hevt : ((s.core c).que.q q).evt = false) (hbound : boundBy (s.core c) q = none) :
    ∃ u, Counted (entered (spPuts s c (((s.core c).que.q q).slotOff slot) bs) c q slot (bs.length / 16) info) u c ∧
      storeMsg s c q slot bs [] info = wakeQrecv u c q := by
  have hwrite : spWriteP s c (((s.core c).que.q q).slotOff slot) bs [] 5 = (spPuts s c (((s.core c).que.q q).slotOff slot) bs, true) := by
    rw [spWriteP, spWrite_sound 5 hs]
    rfl
  generalize hv : entered (spPuts s c (((s.core c).que.q q).slotOff slot) bs) c q slot (bs.length / 16) info = v
  have hc := counted_arrival v c q (queSample .none_ false q info.score info.sdev 0 (bs.length / 16))
  have hb : boundBy ((arrivalCounted v c q (queSample .none_ false q info.score info.sdev 0 (bs.length / 16))).core c) q = none := by
    rw [hc.boundBy, ← hv, entered, core_modQ]
    rw [core_spPuts]
    exact hbound
  refine ⟨_, hc, ?_⟩
  rw [storeMsg, hwrite]
  dsimp only
  rw [hevt, if_neg Bool.false_ne_true]
  change (match boundBy ((arrivalCounted (entered _ c q slot (bs.length / 16) info) c q _).core c) q with
    | some e => _
    | none => wakeQrecv (arrivalCounted (entered _ c q slot (bs.length / 16) info) c q _) c q) = _
  rw [hv, hb]

end

/-- R227: the oldest message comes to a buffer of sound words, and its receive word to register `d`. -/
theorem deliverMsg_sound {s : State} {c q dst : Nat} {m : QEntry} {ms : List QEntry} (d : Reg) (lat : Bool) (hm : MemInv s)
    (hmsgs : ((s.core c).que.q q).msgs = m :: ms) (hin : dst + m.len * 16 ≤ 2 ^ 21) (hd : Sound s c dst (m.len * 16))
    (hs : Sound s c (((s.core c).que.q q).slotOff m.slot) (m.len * 16)) :
    ∃ u, deliverMsg s c q dst d lat = (setReg u c d (recvWord m), none) ∧ (u.core c).ctl = (s.core c).ctl ∧
      ((u.core c).que.q q).msgs = ms ∧ spBytes u c dst (m.len * 16) = spBytes s c (((s.core c).que.q q).slotOff m.slot) (m.len * 16) := by
  generalize hsrc : ((s.core c).que.q q).slotOff m.slot = src at hs
  have hlen : (spBytes s c src (m.len * 16)).length = m.len * 16 := by simp [spBytes]
  have hw := spWrite_sound (bs := spBytes s c src (m.len * 16)) 5 (by rw [hlen]; exact hd)
  generalize hwdef : spPuts s c dst (spBytes s c src (m.len * 16)) = w at hw
  have hcore : w.core c = s.core c := by
    rw [← hwdef]
    exact core_spPuts s c dst c _
  obtain ⟨hpop, hleft⟩ := queEdit_popMsg (s := w) (c := c) (q := q) (by rw [hcore, hmsgs])
  have hcnt := counted_count (popMsg w c q) c 0x62 1 (w := queSample .here lat q m.info.score m.info.sdev 0 m.len)
  have hedit := hpop.trans hcnt.queEdit
  refine ⟨count (popMsg w c q) c 0x62 1 (queSample .here lat q m.info.score m.info.sdev 0 m.len), ?_, ?_, ?_, ?_⟩
  · rw [deliverMsg]
    simp only [hmsgs, hsrc, spRead_sound 5 hs, hw, regsWrite_eq]
    rfl
  · rw [hedit.ctl, hcore]
  · rw [hcnt.que, hleft]
  · have hbytes := spBytes_spPuts s c dst (spBytes s c src (m.len * 16)) hm (by omega)
    rw [hlen, hwdef] at hbytes
    rw [← hbytes]
    exact spBytes_congr hedit.spd hedit.mem _ _

/-- R227: a QRECV that waits takes the one message under the store rule. -/
theorem serveRecv_takes {s : State} {c q dst : Nat} {m : QEntry} {ms : List QEntry} (d : Reg) (hm : MemInv s)
    (hmsgs : ((s.core c).que.q q).msgs = m :: ms) (hin : dst + m.len * 16 ≤ 2 ^ 21) (hsb : sbWriteStall (s.core c) dst (m.len * 16) = false)
    (hd : Sound s c dst (m.len * 16)) (hs : Sound s c (((s.core c).que.q q).slotOff m.slot) (m.len * 16)) :
    ∃ t, serveRecv s c q dst d = (t, none) ∧ ((t.core c).que.q q).msgs = ms ∧
      spBytes t c dst (m.len * 16) = spBytes s c (((s.core c).que.q q).slotOff m.slot) (m.len * 16) ∧ RegIs s t c d (recvWord m) ∧
      GoesTo t c ((s.core c).ctl.pc + 4) := by
  obtain ⟨u, hd', hctl, hleft, hbytes⟩ := deliverMsg_sound d true hm hmsgs hin hd hs
  have hadv : modCtl (setReg u c d (recvWord m)) c (fun t => { t with blk := .none, pc := t.pc + 4 }) =
      advance (setReg u c d (recvWord m)) c := modCtl_congr _ _ rfl
  obtain ⟨⟨hval, hregs⟩, hgo, honly, hframe⟩ := Machine.retires_next u c d (recvWord m)
  refine ⟨advance (setReg u c d (recvWord m)) c, ?_, ?_, ?_, ⟨hval, fun r hr => ?_⟩, by rwa [hctl] at hgo⟩
  · rw [serveRecv, hmsgs]
    dsimp only
    rw [hsb, if_neg Bool.false_ne_true, hd']
    dsimp only
    rw [hadv]
  · exact (congrArg (fun k : Core => (k.que.q q).msgs) hframe.1).trans hleft
  · refine Eq.trans (spBytes_congr ?_ honly.mem _ _) hbytes
    have h := congrArg Core.spd hframe.1
    exact h
  · rw [hregs r hr, rg, rg, hctl]

/-! ### The sender's side of an arrival (R225) -/

section
variable {s t : State} {p : SendPath} {k c q : Nat} {f : Send} {det : Option (Nat × Nat)} (hsend : sendOf s p = some f)
  (hm : f.members[k]? = some ⟨.local_ c q, .sent⟩)
include hsend hm

theorem exec_arrive {a : Arrival} (ha : arrive s c q f.bytes f.poison (senderMeta s p f) (some (.path p k)) = (t, a, det)) :
    exec (.queueMessageArrive (.path p k)) s = .next (faultIf (pathOutcome t p k a) c det) := by
  change Host.Outcome.next _ = _
  dsimp only
  rw [hsend]
  dsimp only
  rw [hm]
  dsimp only [localDest]
  rw [ha]

/-- The sender of a message that its queue has stored or refused learns the status. -/
theorem exec_arriveFinal {st : Nat} (ha : arrive s c q f.bytes f.poison (senderMeta s p f) (some (.path p k)) = (t, .final st, none)) :
    exec (.queueMessageArrive (.path p k)) s = .next (setMember t p k (.answered st)) := exec_arrive hsend hm ha

omit hm in
theorem sendOf_answered (hs : t.sends = s.sends) (st : Nat) :
    sendOf (setMember t p k (.answered st)) p = some { f with members := updMember f.members k (.answered st) } := by
  rw [sendOf_setMember, sendOf, hs, ← sendOf, hsend]
  rfl

/-- One that its queue has made a waiter waits. -/
theorem exec_arriveWaits (hh : f.halting = false) (hs : t.sends = s.sends)
    (ha : arrive s c q f.bytes f.poison (senderMeta s p f) (some (.path p k)) = (t, .nocredit true, none)) :
    ∃ v, Tallied (setMember t p k .waiting) v ∧ exec (.queueMessageArrive (.path p k)) s = .next v ∧
      sendOf v p = some { f with members := updMember f.members k .waiting } := by
  have hset : sendOf (setMember t p k .waiting) p = some { f with members := updMember f.members k .waiting } := by
    rw [sendOf_setMember, sendOf, hs, ← sendOf, hsend]
    rfl
  generalize hd : ((sendOf (setMember t p k .waiting) p).bind (fun f => f.members[k]?)).map (·.dest) = d
  generalize hl : ((sendOf (setMember t p k .waiting) p).map (fun f => f.bytes.length / 16)).getD 0 = l
  have ht := tallied_countPath (setMember t p k .waiting) p 0x64 d 0 l
  refine ⟨countPath (setMember t p k .waiting) p 0x64 d 0 l, ht, ?_, (ht.sendOf p).trans hset⟩
  rw [exec_arrive hsend hm ha, pathOutcome]
  dsimp only
  rw [if_pos rfl, hd, hl, (ht.sendOf p).trans hset]
  dsimp only
  rw [hh]
  rfl

end

/-- R222: the queues of the owner stand as it refuses, its refusal counter counts, and its log holds one. -/
theorem countRefusal_queue (s : State) (c status q spart score sdev : Nat) :
    (∀ i, ((countRefusal s c status q spart score sdev false).core c).que.q i = (s.core c).que.q i) ∧
      ((countRefusal s c status q spart score sdev false).core c).que.refuse = satInc (s.core c).que.refuse 1 ∧
      ((countRefusal s c status q spart score sdev false).core c).que.rlog.v = true := by
  obtain ⟨-, -, hque, -⟩ := countRefusal_effect s c status q spart score sdev false
  rw [hque]
  refine ⟨fun _ => rfl, rfl, ?_⟩
  dsimp only
  split
  · assumption
  · rfl

/-! ### What a stored message leaves (R218, R223) -/

/-- The refusals pass a message that its queue admits, of a size that it can hold. -/
theorem arrivalRefusal_none {s : State} {c q : Nat} {bs : Bytes} {info : MsgMeta} (hq : 30 ≤ q → info.sys = true)
    (ha : admits s c ((s.core c).que.q q).scope ((s.core c).que.q q).devlo ((s.core c).que.q q).devhi info.sdev info.spart = true ∨ info.sys = true)
    (hen : ((s.core c).que.q q).en = true) (hsize : bs.length ≤ (((s.core c).que.q q).esize + 1) * 16) : arrivalRefusal s c q bs info = none := by
  rw [arrivalRefusal, if_neg fun h => by rw [hq h.1] at h; exact absurd h.2 (by decide), if_neg ?_, if_neg (by rw [hen]; decide),
    if_neg (Nat.not_lt.2 hsize)]
  obtain h | h := ha <;> simp [h]

/-- One that it shuts out is refused with DENIED. -/
theorem arrivalRefusal_denied {s : State} {c q : Nat} {bs : Bytes} {info : MsgMeta} (hsys : info.sys = false)
    (ha : 30 ≤ q ∨ admits s c ((s.core c).que.q q).scope ((s.core c).que.q q).devlo ((s.core c).que.q q).devhi info.sdev info.spart = false) :
    arrivalRefusal s c q bs info = some 3 := by
  rw [arrivalRefusal, hsys]
  by_cases hq : 30 ≤ q
  · exact if_pos ⟨hq, rfl⟩
  · rw [if_neg fun h => hq h.1, ha.resolve_left hq]
    rfl

section
variable {s u : State} {c q slot : Nat} {bs : Bytes} {info : MsgMeta}
  (hu : Counted (entered (spPuts s c (((s.core c).que.q q).slotOff slot) bs) c q slot (bs.length / 16) info) u c)
include hu

theorem stored_queue : (u.core c).que.q q = { (s.core c).que.q q with
    msgs := ((s.core c).que.q q).msgs ++ [⟨slot, bs.length / 16, info⟩]
    tail := (slot + 1) % (((s.core c).que.q q).depth + 1) } := by
  rw [hu.que, core_entered, core_spPuts]

theorem stored_core : { u.core c with que := (s.core c).que, cnt := (s.core c).cnt } = s.core c := by
  rw [hu.core, entered, core_modQ, core_spPuts]

theorem stored_rest : { u with mem := s.mem, cores := s.cores } = s := by
  have h := congrArg (fun t : State => { t with mem := s.mem, cores := s.cores }) hu.rest
  refine h.trans ?_
  change { spPuts s c (((s.core c).que.q q).slotOff slot) bs with mem := s.mem, cores := s.cores } = s
  rw [spPuts_eq]

theorem stored_mem : u.mem = (spPuts s c (((s.core c).que.q q).slotOff slot) bs).mem := hu.mem

theorem stored_spd : (u.core c).spd = (s.core c).spd := by
  have h := congrArg Core.spd (stored_core hu)
  exact h

theorem stored_ctl : (u.core c).ctl = (s.core c).ctl := by
  have h := congrArg Core.ctl (stored_core hu)
  exact h

theorem stored_sb : (u.core c).sb = (s.core c).sb := by
  have h := congrArg Core.sb (stored_core hu)
  exact h

theorem stored_marks : u.marks = s.marks := by
  have h := congrArg State.marks (stored_rest hu)
  exact h

theorem stored_sends : u.sends = s.sends := by
  have h := congrArg State.sends (stored_rest hu)
  exact h

theorem stored_out : u.out = s.out := by
  have h := congrArg State.out (stored_rest hu)
  exact h

/-- R223: the message's bytes stand in its entry, and every byte outside it stands. -/
theorem stored_bytes (hm : MemInv s) (hin : ((s.core c).que.q q).slotOff slot + bs.length ≤ 2 ^ 21) :
    spBytes u c (((s.core c).que.q q).slotOff slot) bs.length = bs ∧ SpFrame s u c (((s.core c).que.q q).slotOff slot) bs.length := by
  refine ⟨?_, fun x hx => ?_⟩
  · refine Eq.trans (spBytes_congr ?_ (stored_mem hu) _ _) (spBytes_spPuts s c _ bs hm hin)
    rw [stored_spd hu, core_spPuts]
  · rw [stored_mem hu]
    exact spPuts_frame s c _ bs hm x hx

end

/-- Settles O31: an arrival is decided at the owner of its queue; what is stored stands there, and a QRECV that waits takes it. -/
theorem messagesArriveAtQueues : Obligations.MessagesArriveAtQueues := by
  unfold Obligations.MessagesArriveAtQueues
  refine ⟨fun s p k c q f m u hsend hm hh hpois hp hr hu hmeta hq hres => ?path, fun s e c q u hc hq hu => ?ext⟩
  case path =>
    subst hu hmeta
    have hres' : ∀ r ∈ ((s.core c).que.q q).reserved, some r.2 ≠ some (Sender.path p k) := fun r hr h => hres r hr (Option.some.inj h)
    have hsmall : 30 ≤ q → (senderMeta s p f).sys = true := fun h => absurd h (by omega)
    have refused : ∀ st, arrivalRefusal s c q f.bytes (senderMeta s p f) = some st →
        exec (.queueMessageArrive (.path p k)) s = .next (setMember (countRefusal s c st q (senderMeta s p f).spart (senderMeta s p f).score
          (senderMeta s p f).sdev false) p k (.answered st)) := fun st hst =>
      exec_arriveFinal hsend hm (arrive_refused hp hr hres' hst f.poison)
    refine ⟨fun ha hen hsize hfree hinv hevt hin hs hbound => ?stored, fun ha hsys => ?denied, fun ha hen => ?disabled, fun ha hen hsize => ?size,
      fun ha hen hsize hfree hrec => ?waits⟩
    case stored =>
      obtain ⟨u, hu, hstore⟩ := storeMsg_eq (info := senderMeta s p f) hs hevt hbound
      have harr := arrive_stored hp hr hres' (arrivalRefusal_none (bs := f.bytes) hsmall ha hen hsize) hfree f.poison
      rw [hpois, hstore] at harr
      have hqueue := stored_queue hu
      obtain ⟨hbytes, hframe⟩ := stored_bytes hu hinv hin
      refine ⟨fun hno => ?_, fun d dst hst hblk hmsgs _ hlen h16 hdst hsb hmark => ?_⟩
      · rw [wakeQrecv_stands (by rw [stored_ctl hu]; exact hno)] at harr
        refine ⟨setMember u p k (.answered 0), exec_arriveFinal hsend hm (by rw [hpois]; exact harr), ?_, hbytes, hframe,
          sendOf_answered hsend (stored_sends hu) 0⟩
        exact congrArg Queue.msgs hqueue
      · have hl : f.bytes.length / 16 * 16 = f.bytes.length := by omega
        have hinvu : MemInv u := by
          rw [MemInv, stored_mem hu]
          exact memInv_spPuts c _ _ hinv
        have hoff : ((u.core c).que.q q).slotOff ((s.core c).que.q q).freeSlot = ((s.core c).que.q q).slotOff ((s.core c).que.q q).freeSlot := by
          rw [hqueue]
          rfl
        obtain ⟨t, ht, htmsgs, htbytes, htreg, htgo⟩ := serveRecv_takes (s := u) (q := q) (dst := dst)
          (m := ⟨((s.core c).que.q q).freeSlot, f.bytes.length / 16, senderMeta s p f⟩) (ms := []) d hinvu
          (by rw [hqueue, hmsgs]; rfl) (by rw [hl]; exact hdst) (by rw [hl, sbWriteStall, stored_sb hu]; exact hsb)
          (by rw [hl]; exact sound_congr (stored_spd hu) (stored_marks hu) hmark)
          (by rw [hl, hoff]; exact sound_congr (stored_spd hu) (stored_marks hu) hs)
        rw [wakeQrecv_takes (d := d) (dst := dst) (by rw [stored_ctl hu, hst]) (by rw [stored_ctl hu, hblk]), ht] at harr
        dsimp only at htbytes
        rw [hl, hoff, hbytes] at htbytes
        refine ⟨setMember t p k (.answered 0), exec_arriveFinal hsend hm (by rw [hpois]; exact harr), htmsgs, htbytes,
          ⟨htreg.1, fun r hr => (htreg.2 r hr).trans ?_⟩, by rw [stored_ctl hu] at htgo; exact htgo⟩
        rw [rg, rg, stored_ctl hu]
    case denied =>
      obtain ⟨hqueue, hcount, hlog⟩ := countRefusal_queue s c 3 q (senderMeta s p f).spart (senderMeta s p f).score (senderMeta s p f).sdev
      exact ⟨_, refused 3 (arrivalRefusal_denied hsys (.inr ha)), rfl, hqueue q, hcount, hlog, sendOf_answered hsend rfl 3⟩
    case disabled =>
      obtain ⟨hqueue, -⟩ := countRefusal_queue s c 4 q (senderMeta s p f).spart (senderMeta s p f).score (senderMeta s p f).sdev
      refine ⟨_, refused 4 ?_, rfl, hqueue q, sendOf_answered hsend rfl 4⟩
      rw [arrivalRefusal, if_neg fun h => by omega, ha, Bool.not_true, Bool.and_false, if_neg Bool.false_ne_true, hen]
      rfl
    case size =>
      obtain ⟨hqueue, -⟩ := countRefusal_queue s c 5 q (senderMeta s p f).spart (senderMeta s p f).score (senderMeta s p f).sdev
      refine ⟨_, refused 5 ?_, rfl, hqueue q, sendOf_answered hsend rfl 5⟩
      rw [arrivalRefusal, if_neg fun h => by omega, ha, Bool.not_true, Bool.and_false, if_neg Bool.false_ne_true, hen, if_neg (by decide),
        if_pos hsize]
    case waits =>
      have harr := arrive_waits hp hr hres' (arrivalRefusal_none (bs := f.bytes) hsmall (.inl ha) hen hsize) hfree hrec rfl f.poison
      obtain ⟨v, ht, hexec, hout⟩ := exec_arriveWaits (t := modQ s c q (fun u => { u with waiters := u.waiters ++ [.path p k] })) hsend hm hh rfl harr
      refine ⟨v, hexec, ht.mem, ?_, hout⟩
      rw [ht.que]
      exact q_modQ s c q (fun u => { u with waiters := u.waiters ++ [.path p k] })
  case ext =>
    subst hc hq hu
    refine ⟨fun hp => ?absent, fun hp hr => ?reset, fun hp hr hres ha => ?denied, fun hp hr hres hq ha hen hsize hfree hevt hs hbound hno => ?stored⟩
    case absent =>
      change Host.Outcome.next _ = _
      dsimp only
      rw [arrive, hp]
      rfl
    case reset =>
      obtain ⟨hcores, hmem, hout⟩ := dropAtCore_frame s (e.gid / 32) (some e.spart) (if e.sdev = s.devId then e.score else 0x7FF)
      refine ⟨emit (dropAtCore s (e.gid / 32) (some e.spart) (if e.sdev = s.devId then e.score else 0x7FF)) (.answer e.sdev e.rtag 6 []), ?_,
        congrArg (· ++ [Output.answer e.sdev e.rtag 6 []]) hout, hmem, hcores⟩
      change Host.Outcome.next _ = _
      dsimp only
      rw [arrive, hp, hr]
      rfl
    case denied =>
      obtain ⟨hqueue, -⟩ := countRefusal_queue s (e.gid / 32) 3 (e.gid % 32) e.spart e.score e.sdev
      refine ⟨emit (countRefusal s (e.gid / 32) 3 (e.gid % 32) e.spart e.score e.sdev false) (.answer e.sdev e.rtag 3 []), ?_, rfl,
        hqueue _, rfl⟩
      change Host.Outcome.next _ = _
      dsimp only
      rw [arrive_refused hp hr (fun r hmem h => hres r hmem (Option.some.inj h)) (arrivalRefusal_denied rfl ha)]
      rfl
    case stored =>
      obtain ⟨u, hu, hstore⟩ := storeMsg_eq (info := ⟨e.spart, e.score, e.sdev, false, false, 0, e.endm⟩) hs hevt hbound
      refine ⟨emit u (.answer e.sdev e.rtag 0 []), ?_, congrArg (· ++ [Output.answer e.sdev e.rtag 0 []]) (stored_out hu),
        congrArg Queue.msgs (stored_queue hu)⟩
      change Host.Outcome.next _ = _
      dsimp only
      rw [arrive_stored hp hr (fun r hmem h => hres r hmem (Option.some.inj h))
        (arrivalRefusal_none (fun h => absurd h (by omega)) (.inl ha) hen hsize) hfree, hstore,
        wakeQrecv_stands (by rw [stored_ctl hu]; exact hno)]
      rfl

end Sys2Proof.Machine
end

section
/-!
SUPPORT. The start of a vector command (R201 to R210, R213): what its computation leaves alone, and the lanes that it writes.
-/

namespace Sys2Proof.Machine

/-- What the computation of a vector command on core `c` leaves alone: memory, the commands and ranges in flight, the control unit,
and of the vector unit all but its generators and registers. -/
structure Computes (s t : State) (c : Nat) : Prop where
  mem : t.mem = s.mem
  flights : (t.core c).flights = (s.core c).flights
  sb : (t.core c).sb = (s.core c).sb
  ctl : (t.core c).ctl = (s.core c).ctl
  vec : (t.core c).vec = { (s.core c).vec with gens := (t.core c).vec.gens, regs := (t.core c).vec.regs }

theorem Computes.refl (s : State) (c : Nat) : Computes s s c := ⟨rfl, rfl, rfl, rfl, rfl⟩

theorem Computes.trans {s t u : State} {c : Nat} (h : Computes s t c) (k : Computes t u c) : Computes s u c := by
  refine ⟨k.mem.trans h.mem, k.flights.trans h.flights, k.sb.trans h.sb, k.ctl.trans h.ctl, ?_⟩
  have e := k.vec
  rw [h.vec] at e
  exact e

theorem CoreRead.computes {s t : State} {c : Nat} (h : CoreRead s t c) : Computes s t c :=
  ⟨h.mem, h.flights, h.sb, h.ctl, by rw [h.vec]⟩

theorem computes_modVec {s : State} {c : Nat} {f : Vec → Vec} (h : f (s.core c).vec =
    { (s.core c).vec with gens := (f (s.core c).vec).gens, regs := (f (s.core c).vec).regs }) : Computes s (modVec s c f) c := by
  refine ⟨rfl, ?_, ?_, ?_, ?_⟩ <;> rw [modVec, core_modCore]
  exact h

/-- One of these that writes no register. -/
structure Reads (s t : State) (c : Nat) : Prop extends Computes s t c where
  regs : (t.core c).vec.regs = (s.core c).vec.regs

theorem Reads.refl (s : State) (c : Nat) : Reads s s c := ⟨Computes.refl s c, rfl⟩

theorem Reads.trans {s t u : State} {c : Nat} (h : Reads s t c) (k : Reads t u c) : Reads s u c :=
  ⟨h.toComputes.trans k.toComputes, k.regs.trans h.regs⟩

theorem Reads.vreg {s t : State} {c : Nat} (h : Reads s t c) (v l : Nat) : vreg t c v l = vreg s c v l := by
  rw [Machine.vreg, Machine.vreg, h.regs]

theorem CoreRead.reads {s t : State} {c : Nat} (h : CoreRead s t c) : Reads s t c := ⟨h.computes, by rw [h.vec]⟩

theorem reads_rowCodes (x : VRun) (c : Nat) (f : Fmt) (w : W32) (pitch r n : Nat) : Reads x.st (rowCodes x c f w pitch r n).1.st c := by
  rw [rowCodes]
  split
  · exact Reads.refl _ c
  · exact (coreRead_spRead _ c _ _ 4).reads

theorem rowCodes_reg {w : W32} (h : isRegOp w = true) (x : VRun) (c : Nat) (f : Fmt) (pitch r n : Nat) : rowCodes x c f w pitch r n =
    (x, (List.range n).map (fun i => (vreg x.st c (regNo w) (i % 64)).toNat)) := by
  rw [rowCodes, if_pos h]

/-- R209: a draw changes the generators alone. -/
theorem drawRow_gens (v : Vec) (e0 n : Nat) : ∃ gens, (drawRow v e0 n).1 = { v with gens := gens } := by
  rw [drawRow]
  refine List.foldlRecOn (motive := fun p : Vec × List Nat => ∃ gens, p.1 = { v with gens := gens }) _ _ ⟨v.gens, rfl⟩ ?_
  rintro p ⟨gens, hp⟩ i -
  exact ⟨mset p.1.gens ((e0 + i) % 64) (genStep (mget (seedLane 0 ((e0 + i) % 64)) p.1.gens ((e0 + i) % 64))), by rw [hp]⟩

/-- The draws of a row, where it draws. -/
def rowDraws (d : VecDesc) (v : Vec) (r : Nat) : Vec × List Nat := if d.rnd == 2 then drawRow v (r * d.n) d.n else (v, [])

theorem rowDraws_gens (d : VecDesc) (v : Vec) (r : Nat) : ∃ gens, (rowDraws d v r).1 = { v with gens := gens } := by
  rw [rowDraws]
  split
  · exact drawRow_gens v _ _
  · exact ⟨v.gens, rfl⟩

theorem reads_draw {s : State} {c : Nat} {v : Vec} (h : ∃ gens, v = { (s.core c).vec with gens := gens }) : Reads s (modVec s c (fun _ => v)) c := by
  obtain ⟨gens, rfl⟩ := h
  refine ⟨computes_modVec rfl, ?_⟩
  rw [modVec, core_modCore]

theorem computes_putLanes (s : State) (c v : Nat) (ws : List W32) : Computes s (putLanes s c v ws) c :=
  computes_modVec (f := fun u => { u with regs := (ws.mapIdx (fun i w => (i, w))).foldl (fun m p => mset m (v * 64 + p.1) p.2) u.regs }) rfl

theorem computes_putRow (x : VRun) (c : Nat) (d : VecDesc) (r : Nat) (cs : List Nat) : Computes x.st (putRow x c d r cs).st c := by
  rw [putRow]
  split
  · exact computes_putLanes _ c _ _
  · exact Computes.refl _ c

/-- An operand that is read, or that is not there. -/
theorem reads_operand (p : Bool) (x : VRun) (c : Nat) (f : Fmt) (w : W32) (pitch r n : Nat) :
    Reads x.st (if p then rowCodes x c f w pitch r n else (x, [])).1.st c := by
  split
  · exact reads_rowCodes x c f w pitch r n
  · exact Reads.refl _ c

/-- One row of a command computes, whatever its operation. -/
theorem computes_vecRow (op : VecOp) (d : VecDesc) (c : Nat) (ftz : Bool) (x : VRun) (r : Nat) : Computes x.st (vecRow op d c ftz x r).st c := by
  unfold vecRow
  cases hsrc : rowCodes x c (ifmtOf d) d.sa d.apitch r d.n with
  | mk x1 ca =>
    have hx1 : Reads x.st x1.st c := by
      have h := reads_rowCodes x c (ifmtOf d) d.sa d.apitch r d.n
      rwa [hsrc] at h
    have hdraw := rowDraws_gens d (x1.st.core c).vec r
    dsimp only
    rw [← rowDraws]
    cases hus : rowDraws d (x1.st.core c).vec r with
    | mk v us =>
      rw [hus] at hdraw
      refine (hx1.trans (reads_draw hdraw)).toComputes.trans ?_
      dsimp only
      generalize modVec x1.st c (fun _ => v) = s2
      split
      · exact computes_putRow { x1 with st := s2 } c d r _
      split
      · exact computes_putRow { x1 with st := s2, fl := _, sat := _, flush := _ } c d r _
      split
      · refine Computes.trans ?_ (computes_putRow _ c d r _)
        exact (coreRead_spRead s2 c _ _ 4).computes
      split
      · split
        · exact computes_modVec (f := fun u => { u with regs := mset u.regs (regNo d.dst * 64 + r) _ }) rfl
        · exact Computes.refl _ c
      · refine Computes.trans ?_ (computes_putRow _ c d r _)
        exact ((reads_operand _ { x1 with st := s2 } c _ _ _ _ _).trans (reads_operand _ _ c _ _ _ _ _)).toComputes

/-- The rows that a transpose reads. -/
theorem computes_trnRows (d : VecDesc) (c : Nat) (x : VRun) (ls : List Nat) : Computes x.st (ls.foldl (fun (acc : VRun × List (List Nat)) r =>
    match rowCodes acc.1 c (ifmtOf d) d.sa d.apitch r d.n with
    | (x, cs) => (x, acc.2 ++ [cs])) (x, [])).1.st c :=
  List.foldlRecOn (motive := fun p : VRun × List (List Nat) => Computes x.st p.1.st c) _ _ (Computes.refl _ c)
    fun p hp r _ => hp.trans (reads_rowCodes p.1 c _ _ _ r _).toComputes

theorem computes_vecTrn (d : VecDesc) (c : Nat) (x : VRun) : Computes x.st (vecTrn d c x).st c := by
  have hrows := computes_trnRows d c x (List.range d.rows)
  unfold vecTrn
  refine hrows.trans ?_
  generalize (List.range d.rows).foldl _ (x, []) = p
  obtain ⟨x1, rows⟩ := p
  have hdraw : ∃ gens, (if d.rnd == 2 then (drawRow (x1.st.core c).vec 0 (d.n * d.rows)).1 else (x1.st.core c).vec) =
      { (x1.st.core c).vec with gens := gens } := by
    split
    · exact drawRow_gens _ _ _
    · exact ⟨_, rfl⟩
  refine (reads_draw hdraw).toComputes.trans ?_
  dsimp only
  generalize modVec x1.st c _ = s2
  split
  · exact computes_putRow { x1 with st := s2 } c d 0 _
  · exact List.foldlRecOn (motive := fun y : VRun => Computes s2 y.st c) _ _ (Computes.refl s2 c) fun y hy _ _ => hy

/-- A whole command computes. -/
theorem computes_vecRun (op : VecOp) (d : VecDesc) (s : State) (c : Nat) : Computes s (vecRun op d s c).st c := by
  rw [vecRun]
  split
  · exact computes_vecTrn d c ⟨s, 0, 0, [], [], 0⟩
  · exact List.foldlRecOn (motive := fun x : VRun => Computes s x.st c) _ _ (Computes.refl s c)
      fun x hx r _ => hx.trans (computes_vecRow op d c _ x r)

/-! ### Lanes -/

/-- The register map with words put into lanes 0 and up of register `v`. -/
def lanesPut (m : Map W32) (v : Nat) (ws : List W32) : Map W32 :=
  (ws.mapIdx (fun i w => (i, w))).foldl (fun m p => mset m (v * 64 + p.1) p.2) m

theorem lanesPut_concat (m : Map W32) (v : Nat) (ws : List W32) (w : W32) :
    lanesPut m v (ws ++ [w]) = mset (lanesPut m v ws) (v * 64 + ws.length) w := by
  rw [lanesPut, List.mapIdx_append, List.foldl_append]
  simp [lanesPut]

theorem lanesPut_out {m : Map W32} {v k : Nat} (ws : List W32) (h : ∀ i < ws.length, k ≠ v * 64 + i) :
    mget 0 (lanesPut m v ws) k = mget 0 m k := by
  induction ws using List.reverseRecOn with
  | nil => rfl
  | append_singleton ws w ih =>
    rw [List.length_append, List.length_singleton] at h
    rw [lanesPut_concat, mget_mset_ne _ _ _ (h ws.length (by omega)), ih fun i hi => h i (by omega)]

theorem lanesPut_in {m : Map W32} {v i : Nat} (ws : List W32) (h : i < ws.length) : mget 0 (lanesPut m v ws) (v * 64 + i) = ws.getD i 0 := by
  induction ws using List.reverseRecOn with
  | nil => cases h
  | append_singleton ws w ih =>
    rw [List.length_append, List.length_singleton] at h
    rw [lanesPut_concat]
    by_cases hi : i = ws.length
    · rw [hi, mget_mset]
      simp
    · rw [mget_mset_ne _ _ _ (by omega), ih (by omega), List.getD_append _ _ _ _ (by omega)]

theorem regs_putLanes (s : State) (c v : Nat) (ws : List W32) : ((putLanes s c v ws).core c).vec.regs = lanesPut (s.core c).vec.regs v ws := by
  rw [putLanes, core_modVec]
  rfl

/-- The words that a row of codes puts into the lanes of a register. -/
def codeWords (cs : List Nat) : List W32 := cs.map (BitVec.ofNat 32)

theorem putRow_reg {d : VecDesc} (h : isRegOp d.dst = true) (x : VRun) (c r : Nat) (cs : List Nat) :
    putRow x c d r cs = { x with st := putLanes x.st c (regNo d.dst) (codeWords cs) } := by
  rw [putRow, if_pos h]
  rfl

theorem codeWords_length (cs : List Nat) : (codeWords cs).length = cs.length := by simp [codeWords]

/-- Other registers and lanes past the last keep their words. -/
theorem vreg_putLanes_out {s : State} {c v r l : Nat} (ws : List W32) (h : v ≠ r ∨ ws.length ≤ l) (hl : l < 64) (hn : ws.length ≤ 64) :
    vreg (putLanes s c r ws) c v l = vreg s c v l := by
  rw [vreg, regs_putLanes, lanesPut_out ws fun i hi => by omega, ← vreg]

/-- A lane that is put holds its word. -/
theorem vreg_putLanes_in {s : State} {c r l : Nat} {cs : List Nat} (h : l < cs.length) :
    vreg (putLanes s c r (codeWords cs)) c r l = BitVec.ofNat 32 (cs.getD l 0) := by
  rw [vreg, regs_putLanes, lanesPut_in _ (by rwa [codeWords_length])]
  simp [codeWords, h]

/-! ### Elementwise commands on registers (R202, R203) -/

theorem flushes_elem {op : VecOp} (h : op ∈ ([.add, .sub, .mul, .fma, .max, .min, .sel, .cgt, .abs, .neg, .exp2, .log2, .rcp, .rsqrt, .cvt] : List VecOp))
    (ftz : Bool) : flushes op ftz = (ftz && decide (op ∉ ([.max, .min, .sel, .cgt, .abs, .neg] : List VecOp))) := by
  decide +revert

theorem elem_of_mem {op : VecOp} (h : op ∈ ([.add, .sub, .mul, .fma, .max, .min, .sel, .cgt, .abs, .neg, .exp2, .log2, .rcp, .rsqrt, .cvt] : List VecOp)) :
    op ≠ .copy ∧ isQuant op = false ∧ op ≠ .dqnt ∧ isReduction op = false ∧ op ≠ .trn := by
  decide +revert

theorem decodeRow_get {f : Fmt} {fz : Bool} {cs : List Nat} {l : Nat} (h : l < cs.length) :
    (decodeRow f fz cs).1.getD l 0 = (decode32 f (cs.getD l 0) none fz).1 := by
  simp [decodeRow, h]

theorem regCodes_get {s : State} {c v n l : Nat} (hl : l < n) (hn : n ≤ 64) :
    ((List.range n).map (fun i => (vreg s c v (i % 64)).toNat)).getD l 0 = (vreg s c v l).toNat := by
  rw [List.getD_eq_getElem _ _ (by simpa using hl), List.getElem_map, List.getElem_range, Nat.mod_eq_of_lt (by omega)]

/-- The value that lane `l` of a second or third operand has: 0 where the operation does not use it. -/
theorem operand_get {x : VRun} {c r n l pitch : Nat} {f : Fmt} {w immw : W32} {uses imm fz : Bool} {dec : W32 → W32}
    (hdec : ∀ w, dec w = (decode32 .fp32 w.toNat none fz).1) (hreg : uses = true → imm = true ∨ isRegOp w = true) (hl : l < n) (hn : n ≤ 64) :
    (if uses && imm then immRow fz immw n else decodeRow (srcFmt w f) fz
      (if uses && !imm then rowCodes x c f w pitch r n else (x, [])).2).1.getD l 0 =
        if uses = false then 0 else if imm then dec immw else dec (vreg x.st c (regNo w) l) := by
  cases uses with
  | false => rfl
  | true =>
    cases imm with
    | true =>
      rw [hdec]
      exact List.getD_replicate _ hl
    | false =>
      have hw := (hreg rfl).resolve_left Bool.false_ne_true
      have hlen : l < ((List.range n).map (fun i => (vreg x.st c (regNo w) (i % 64)).toNat)).length := by simpa using hl
      rw [hdec (vreg x.st c (regNo w) l), ← regCodes_get hl hn]
      simp only [Bool.true_and, Bool.not_false, if_true, Bool.false_eq_true, if_false, rowCodes_reg hw, srcFmt, hw, Bool.true_eq_false]
      exact decodeRow_get hlen

theorem encodeRow_fp32 {d : VecDesc} (h : ofmtOf d = .fp32) (ftz : Bool) (us : List Nat) (vs : List W32) :
    (encodeRow d ftz us vs).1 = vs.map (·.toNat) := by
  rw [encodeRow, h]
  refine List.ext_getElem (by simp) fun i h1 h2 => ?_
  simp

theorem encodeRow_length (d : VecDesc) (ftz : Bool) (us : List Nat) (vs : List W32) : (encodeRow d ftz us vs).1.length = vs.length := by
  simp [encodeRow]

theorem mapRow_get {g : Nat → W32 → W32 × Flags} {va : List W32} {l : Nat} (h : l < va.length) :
    BitVec.ofNat 32 ((((va.mapIdx g).map (·.1)).map (·.toNat)).getD l 0) = (g l (va.getD l 0)).1 := by
  simp [h]

section
variable {op : VecOp} {d : VecDesc} (hsa : isRegOp d.sa = true) (hdst : isRegOp d.dst = true)
include hsa hdst

/-- A COPY between registers puts the source's lanes. -/
theorem copyRow_st (c : Nat) (ftz : Bool) (x : VRun) (r : Nat) : ∃ u, Reads x.st u c ∧ (vecRow .copy d c ftz x r).st =
    putLanes u c (regNo d.dst) (codeWords ((List.range d.n).map (fun i => (vreg x.st c (regNo d.sa) (i % 64)).toNat))) := by
  refine ⟨modVec x.st c (fun _ => (rowDraws d (x.st.core c).vec r).1), reads_draw (rowDraws_gens d _ r), ?_⟩
  unfold vecRow
  rw [rowCodes_reg hsa]
  dsimp only
  rw [← rowDraws, if_pos (beq_self_eq_true VecOp.copy), putRow_reg hdst]

/-- An elementwise operation on registers puts its results. -/
theorem elemRow_st (hcopy : op ≠ .copy) (hquant : isQuant op = false) (hdqnt : op ≠ .dqnt) (hred : isReduction op = false)
    (c : Nat) (ftz : Bool) (x : VRun) (r : Nat) : ∃ u cs, Reads x.st u c ∧
      (vecRow op d c ftz x r).st = putLanes u c (regNo d.dst) (codeWords cs) ∧ cs.length = d.n ∧
      (ofmtOf d = .fp32 → d.n ≤ 64 → ∀ dec : W32 → W32, (∀ w, dec w = (decode32 .fp32 w.toNat none (flushes op ftz)).1) →
        (usesB op = true → d.bimm = true ∨ isRegOp d.sb = true) → (usesC op = true → d.cimm = true ∨ isRegOp d.sc = true) →
        ∀ l < d.n, BitVec.ofNat 32 (cs.getD l 0) = (elemOp op ftz (dec (vreg x.st c (regNo d.sa) l))
          (if usesB op = false then 0 else if d.bimm then dec d.immb else dec (vreg x.st c (regNo d.sb) l))
          (if usesC op = false then 0 else if d.cimm then dec d.immc else dec (vreg x.st c (regNo d.sc) l))).1) := by
  have hdraw := reads_draw (rowDraws_gens d (x.st.core c).vec r)
  unfold vecRow
  rw [rowCodes_reg hsa]
  dsimp only
  rw [← rowDraws, if_neg (by simpa using hcopy), hquant, if_neg Bool.false_ne_true, if_neg (by simpa using hdqnt), hred, if_neg Bool.false_ne_true,
    putRow_reg hdst]
  dsimp only
  generalize modVec x.st c (fun _ => (rowDraws d (x.st.core c).vec r).1) = s2 at hdraw
  refine ⟨_, _, ?_, rfl, ?_, fun hofmt hn dec hdec hb hc l hl => ?_⟩
  · exact hdraw.trans ((reads_operand _ { x with st := s2 } c _ _ _ _ _).trans (reads_operand _ _ c _ _ _ _ _))
  · rw [encodeRow_length]
    simp [decodeRow]
  · have hlen : l < ((List.range d.n).map (fun i => (vreg x.st c (regNo d.sa) (i % 64)).toNat)).length := by simpa using hl
    have hreads := reads_operand (usesB op && !d.bimm) { x with st := s2 } c (ifmtOf d) d.sb d.bpitch r d.n
    rw [encodeRow_fp32 hofmt, mapRow_get (by simpa [decodeRow] using hl), decodeRow_get hlen, regCodes_get hl hn, srcFmt, if_pos hsa, ← hdec,
      operand_get hdec hb hl hn, operand_get hdec hc hl hn, hreads.vreg]
    dsimp only
    rw [hdraw.vreg, hdraw.vreg]

end

/-! ### VEC_COMMAND_START (R209, R213) -/

theorem counted_countVec (s : State) (c : Nat) (f : Flight) (op : VecOp) (d : VecDesc) (x : VRun) : Counted s (countVec s c f op d x) c := by
  have h1 := (counted_count s c 0x29 (d.n * d.rows) (w := engSample f false 0 0)).count 0x2B x.sat (engSample f false 0 0)
  have h2 := counted_ite (p := d.rnd = 2) (h1.count 0x2C (d.n * d.rows) (engSample f false 0 0)) h1
  have h3 := (h2.trans (counted_countConds _ c 0x2D x.fl (engSample f false 0 0))).count 0x37 x.flush (engSample f false 0 0)
  unfold countVec
  extract_lets n w s1 s2 s3 s4 s5
  have h5 : Counted s s5 c := h3
  cases op with
  | fma | exp2 | log2 | rcp | rsqrt | rsum | rmax | rmin | ramax | qnt => exact h5.count _ _ _
  | qnte => exact (h5.count _ _ _).count _ _ _
  | _ => exact h5

/-- R209: a seed that waits takes effect. -/
def seeded (v : Vec) : Vec :=
  match v.seedPend with
  | some w => seedAll v w
  | none => v

theorem seeded_eq (v : Vec) : ∃ gens, seeded v = { v with gens := gens, seedPend := none } := by
  rw [seeded]
  split
  · exact ⟨_, rfl⟩
  · next h => exact ⟨v.gens, by rw [← h]⟩

/-- The state in which a command computes. -/
def seededState (s : State) (c : Nat) : State := modVec s c seeded

/-- The state as a command has computed `x`: its flags and clamps are recorded. -/
def computedState (x : VRun) (c : Nat) : State :=
  modVec x.st c (fun v => { v with flags := v.flags ||| x.fl, satcnt := satInc v.satcnt x.sat })

/-- The state as a command begins, its counters apart. -/
def startedState (x : VRun) (c : Nat) (f : Flight) : State :=
  modCore (computedState x c) c (fun k => sbReleaseReads (modFlight k f.id (fun f =>
    { f with begun := true, writes := x.writes, memDetail := x.bad.head?.map (fun w => (captureOf (computedState x c) c w 4, w)) })) f.id)

theorem exec_vecStart {s : State} {c : Nat} {f : Flight} {op : VecOp} {d : VecDesc}
    (hf : (engFlights (s.core c) 1).find? (fun f => !f.begun) = some f) (hbody : f.body = .vec op d) :
    ∃ t, exec (.vecCommandStart c) s = .next t ∧ Counted (startedState (vecRun op d (seededState s c) c) c f) t c := by
  refine ⟨_, ?_, counted_countVec _ c f op d (vecRun op d (seededState s c) c)⟩
  change Host.Outcome.next _ = _
  rw [hf]
  dsimp only
  rw [hbody]
  rfl

theorem started_core (x : VRun) (c : Nat) (f : Flight) : ∃ w det flags satcnt, (startedState x c f).core c = { x.st.core c with
    flights := ((x.st.core c).flights.map (fun g => if g.id == f.id then { g with begun := true, writes := w, memDetail := det } else g))
    sb := (x.st.core c).sb.filter (fun e => e.id != f.id || e.write)
    vec := { (x.st.core c).vec with flags := flags, satcnt := satcnt } } := by
  refine ⟨x.writes, x.bad.head?.map (fun w => (captureOf (computedState x c) c w 4, w)),
    (x.st.core c).vec.flags ||| x.fl, satInc (x.st.core c).vec.satcnt x.sat, ?_⟩
  rw [startedState, core_modCore, computedState, core_modVec]
  rfl

/-- Settles O14: the computation changes registers of the vector unit alone, and on registers it writes the operation's lanes. -/
theorem vectorCommandsCompute : Obligations.VectorCommandsCompute := by
  unfold Obligations.VectorCommandsCompute
  intro s c f op d hf hbody
  obtain ⟨t, hexec, ht⟩ := exec_vecStart hf hbody
  obtain ⟨gens, hseed⟩ := seeded_eq (s.core c).vec
  have hcore : (seededState s c).core c = { s.core c with vec := { (s.core c).vec with gens := gens, seedPend := none } } := by
    rw [seededState, core_modVec, hseed]
  obtain ⟨hmem, hfl, hsb, hctl, hvec⟩ := computes_vecRun op d (seededState s c) c
  obtain ⟨w, det, flags, satcnt, hstart⟩ := started_core (vecRun op d (seededState s c) c) c f
  have hregs : ∀ v l, vreg t c v l = vreg (vecRun op d (seededState s c) c).st c v l := fun v l => by
    rw [vreg, vreg, ht.core, hstart]
  have hfmem : f ∈ (s.core c).flights := (List.mem_filter.1 (List.mem_of_find?_eq_some hf)).1
  refine ⟨t, hexec, ⟨{ f with begun := true, writes := w, memDetail := det }, ?_, rfl, rfl, rfl, rfl⟩, fun e he hid => ?_, ?_, ?_, ?_,
    fun hsa hdst hrows hn hofmt => ?_⟩
  · rw [ht.flights, hstart, hfl, hcore]
    exact List.mem_map.2 ⟨f, hfmem, if_pos (beq_self_eq_true f.id)⟩
  · rw [ht.sb, hstart] at he
    have h := (List.mem_filter.1 he).2
    rw [hid] at h
    simpa using h
  · rw [ht.core, hstart, hvec, hcore]
  · rw [ht.mem]
    exact hmem
  · rw [ht.ctl, hstart, hctl, hcore]
  · have hrun : ∀ (hne : op ≠ .trn), vecRun op d (seededState s c) c =
        vecRow op d c (s.core c).vec.ftz ⟨seededState s c, 0, 0, [], [], 0⟩ 0 := fun hne => by
      rw [vecRun, if_neg (by simpa using hne), hrows, hcore]
      rfl
    have hseedreg : ∀ v l, vreg (seededState s c) c v l = vreg s c v l := fun v l => by rw [vreg, hcore, ← vreg]
    refine ⟨fun v l hl hout htrn hred hquant hdqnt => ?_, fun l hl hcopy => ?_, fun l hl dec hdec hmem hb hc => ?_⟩
    · rw [hregs, hrun htrn, ← hseedreg]
      by_cases hcopy : op = .copy
      · subst hcopy
        obtain ⟨u, hu, he⟩ := copyRow_st hsa hdst c (s.core c).vec.ftz ⟨seededState s c, 0, 0, [], [], 0⟩ 0
        rw [he, vreg_putLanes_out _ (by rwa [codeWords_length, List.length_map, List.length_range]) hl, hu.vreg]
        rwa [codeWords_length, List.length_map, List.length_range]
      · obtain ⟨u, cs, hu, he, hlen, -⟩ := elemRow_st hsa hdst hcopy hquant hdqnt hred c (s.core c).vec.ftz ⟨seededState s c, 0, 0, [], [], 0⟩ 0
        rw [he, vreg_putLanes_out _ (by rwa [codeWords_length, hlen]) hl, hu.vreg]
        rw [codeWords_length, hlen]
        exact hn
    · subst hcopy
      obtain ⟨u, -, he⟩ := copyRow_st hsa hdst c (s.core c).vec.ftz ⟨seededState s c, 0, 0, [], [], 0⟩ 0
      rw [hregs, hrun (by decide), he, vreg_putLanes_in (by simpa using hl), regCodes_get hl hn, BitVec.ofNat_toNat, BitVec.setWidth_eq, hseedreg]
    · obtain ⟨hcopy, hquant, hdqnt, hred, htrn⟩ := elem_of_mem hmem
      obtain ⟨u, cs, -, he, hlen, hval⟩ := elemRow_st hsa hdst hcopy hquant hdqnt hred c (s.core c).vec.ftz ⟨seededState s c, 0, 0, [], [], 0⟩ 0
      rw [hregs, hrun htrn, he, vreg_putLanes_in (by rwa [hlen]), hval hofmt hn dec (fun w => by rw [hdec, flushes_elem hmem]) hb hc l hl]
      simp only [hseedreg]

end Sys2Proof.Machine
end

section
/-!
SUPPORT. What the operations of management leave alone (R435, R473, R482, R492, R505, R526 to R531): they change records, sessions,
the update state and what is shown, and not what the device runs on.
-/

namespace Sys2Proof.Machine

/-- What a device runs on: its state and power, cores and memory, fields, stacks, partitions, clocks, time and configuration. -/
structure RunView where
  dev : DevState
  pwr : Pwr
  cores : Map Core
  mem : List Host.Cell
  marks : Map Mark
  fields : Map Field
  hbms : Map Stack
  parts : Map Part
  clk : Clk
  now : Nat
  echoM : W64
  cfg : Map ObjVal
  devId : Nat

def runView (s : State) : RunView :=
  ⟨s.dev, s.pwr, s.cores, s.mem, s.marks, s.fields, s.hbms, s.parts, s.clk, s.now, s.echoM, s.cfg, s.devId⟩

section
variable {s t : State} (h : runView t = runView s)
include h

theorem dev_of_view : t.dev = s.dev := congrArg RunView.dev h
theorem pwr_of_view : t.pwr = s.pwr := congrArg RunView.pwr h
theorem cores_of_view : t.cores = s.cores := congrArg RunView.cores h
theorem mem_of_view : t.mem = s.mem := congrArg RunView.mem h
theorem now_of_view : t.now = s.now := congrArg RunView.now h
theorem echoM_of_view : t.echoM = s.echoM := congrArg RunView.echoM h
theorem cfg_of_view : t.cfg = s.cfg := congrArg RunView.cfg h

end

/-- A fold of steps that leave it alone leaves it alone. -/
theorem runView_foldl {α : Type} {step : State → α → State} (h : ∀ s a, runView (step s a) = runView s) (s : State) (l : List α) :
    runView (l.foldl step s) = runView s :=
  List.foldlRecOn (motive := fun t => runView t = runView s) l step rfl fun t ht a _ => (h t a).trans ht

theorem Logged.runView {s t : State} (h : Logged s t) : runView t = runView s := by
  rw [h]
  rfl

theorem runView_raiseEvent (s : State) (code ukind unit : Nat) (part : Option Nat) (detail : List Nat) :
    runView (raiseEvent s code ukind unit part detail) = runView s := (logged_raiseRec s _ _ _ _ _ _ _).runView

theorem runView_sendVector (s : State) (h f v : Nat) : runView (sendVector s h f v) = runView s := by
  rw [sendVector]
  split <;> rfl

theorem runView_devVectors (s : State) : runView (devVectors s) = runView s := by
  refine runView_foldl (fun s p => ?_) s _
  split
  · exact runView_foldl (fun s f => runView_sendVector s p.1 f 4) s _
  · rfl

/-- R435: a device that changes its state changes its state alone of these. -/
theorem runView_setDev (s : State) (d : DevState) (stage : Nat) : runView (setDev s d stage) = { runView s with dev := d } := by
  rw [setDev]
  split
  · next h => rw [← h]; rfl
  · exact (runView_devVectors _).trans (runView_raiseEvent _ _ _ _ _ _)

theorem runView_sendEvent (s : State) (tr : Transport) (m : SasilMsg) : runView (sendEvent s tr m) = runView s := by
  cases tr <;> rfl

theorem runView_endAsync (s : State) (kind status : Nat) : runView (endAsync s kind status) = runView s := by
  refine (runView_foldl (fun s a => ?_) _ _).trans rfl
  split
  · rfl
  · exact runView_sendEvent _ _ _

theorem runView_endFailed (s : State) (kind : Nat) : runView (endFailed s kind) = runView s := runView_endAsync _ kind _

theorem runView_leaveWaking (s : State) (ok : Bool) : runView (leaveWaking s ok) = runView s := by
  refine runView_foldl (fun s k => ?_) s _
  split
  · exact runView_endAsync s k 0
  · exact runView_endFailed s k

theorem runView_dropImage (s : State) (e : Session) : runView (dropImage s e) = runView s := by
  rw [dropImage]
  split
  · rfl
  · split <;> rfl

theorem runView_closeSession (s : State) (sid : Nat) (why : CloseCause) : runView (closeSession s sid why) = runView s := by
  rw [closeSession]
  split
  · rfl
  · refine (runView_raiseEvent _ _ _ _ _ _).trans ?_
    split
    · exact runView_dropImage _ _
    · rfl

theorem runView_closeSessions (s : State) (p : Session → Bool) (why : CloseCause) : runView (closeSessions s p why) = runView s := by
  rw [closeSessions]
  exact runView_foldl (fun s (x : Nat × Session) => runView_closeSession s x.1 why) s _

theorem runView_abortCheck (s : State) : runView (abortCheck s) = runView s := by
  rw [abortCheck]
  split
  · have hfold : runView ((List.range 96).foldl (fun s g => if (s.grp g).check then modGrp s g (fun k => { k with check := false }) else s) s) = runView s :=
      runView_foldl (fun s g => by split <;> rfl) s _
    generalize (List.range 96).foldl _ s = u at hfold ⊢
    exact (runView_endFailed u 4).trans hfold
  · rfl

theorem runView_fwEvent (s : State) (stage bank chk : Nat) : runView (fwEvent s stage bank chk) = runView s :=
  runView_raiseEvent _ _ _ _ _ _

theorem runView_trialBegin (s : State) (b kind : Nat) : runView (trialBegin s b kind) = runView s := runView_fwEvent _ _ _ _

theorem runView_pendCold (s : State) : runView (pendCold s) = runView s := by
  rw [pendCold]
  split
  · split
    · exact runView_trialBegin s _ 2
    · rfl
  · rfl

theorem runView_confirmRest (s : State) : runView (confirmRest s) = runView s := by
  rw [confirmRest]
  split
  · rfl
  · split
    · rfl
    · exact runView_fwEvent _ _ _ _

theorem runView_trialRecord (s : State) : runView (trialRecord s) = runView s := by
  rw [trialRecord]
  split
  · rfl
  · dsimp only
    split
    · exact runView_fwEvent s 5 _ 0
    · exact (runView_fwEvent _ _ _ _).trans (runView_fwEvent s 5 _ 0)

end Sys2Proof.Machine
end

section
/-!
SUPPORT. Inputs, temperatures and fans (R392 to R394, R426 to R432, R436, R443).
-/

namespace Sys2Proof.Machine

/-! ### Aux channels (R428 to R432) -/

/-- Of `s`, `t` changes the aux channels and the power domains, at most. -/
def AuxOnly (s t : State) : Prop := t = { s with pwr := { s.pwr with aux := t.pwr.aux, doms := t.pwr.doms } }

theorem AuxOnly.refl (s : State) : AuxOnly s s := rfl

theorem AuxOnly.trans {s t u : State} (h : AuxOnly s t) (k : AuxOnly t u) : AuxOnly s u := by
  rw [AuxOnly] at h k ⊢
  rw [k, h]

theorem auxOnly_modAux (s : State) (c : Nat) (f : Aux → Aux) : AuxOnly s (modAux s c f) := rfl

theorem auxOnly_setDom (s : State) (d : Nat) (x : DomSt) : AuxOnly s (setDom s d x) := rfl

theorem auxOnly_auxUpdate (s : State) : AuxOnly s (auxUpdate s) := by
  refine List.foldlRecOn (motive := fun t => AuxOnly s t) _ _ (AuxOnly.refl s) fun t ht c _ => ht.trans ?_
  dsimp only
  split
  · exact auxOnly_modAux t c _
  split
  · exact auxOnly_modAux t c _
  split
  · exact AuxOnly.refl t
  · exact auxOnly_modAux t c _

theorem auxOnly_axFeed (s : State) : AuxOnly s (axFeed s) := by
  refine AuxOnly.trans ?_ (auxOnly_auxUpdate _)
  split
  · exact AuxOnly.refl s
  · exact auxOnly_setDom s 135 _

section
variable {s t : State} (h : AuxOnly s t)
include h

theorem AuxOnly.vin : t.pwr.vin = s.pwr.vin := by rw [h]
theorem AuxOnly.volt : t.pwr.volt = s.pwr.volt := by rw [h]
theorem AuxOnly.vstby : t.pwr.vstby = s.pwr.vstby := by rw [h]
theorem AuxOnly.temps : t.pwr.temps = s.pwr.temps := by rw [h]
theorem AuxOnly.otherTemps : t.pwr.otherTemps = s.pwr.otherTemps := by rw [h]
theorem AuxOnly.warnAge : t.pwr.warnAge = s.pwr.warnAge := by rw [h]
theorem AuxOnly.dev : t.dev = s.dev := by rw [h]
theorem AuxOnly.mem : t.mem = s.mem := by rw [h]
theorem AuxOnly.cores : t.cores = s.cores := by rw [h]
theorem AuxOnly.wake : t.wake = s.wake := by rw [h]

end

theorem mem_modAux (s : State) (c : Nat) (f : Aux → Aux) : (modAux s c f).mem = s.mem := rfl

theorem cores_modAux (s : State) (c : Nat) (f : Aux → Aux) : (modAux s c f).cores = s.cores := rfl

theorem auxCh_modAux (s : State) (c : Nat) (f : Aux → Aux) : (modAux s c f).auxCh c = f (s.auxCh c) := by
  rw [State.auxCh, modAux, modPwr, mget_mset]

theorem auxCh_modAux_ne (s : State) {c k : Nat} (f : Aux → Aux) (h : k ≠ c) : (modAux s c f).auxCh k = s.auxCh k := by
  rw [State.auxCh, State.auxCh, modAux, modPwr]
  exact mget_mset_ne _ _ _ h

/-! ### Changes of the device's state (R435) -/

/-- Of `s`, `t` changes what records and vectors change, at most. -/
def Tells (s t : State) : Prop :=
  t = { s with
    wake := { s.wake with kept := t.wake.kept, lost := t.wake.lost }
    lastSeq := t.lastSeq
    logBuf := t.logBuf
    totals := t.totals
    totalsCold := t.totalsCold
    coals := t.coals
    sessions := t.sessions
    out := t.out
    hosts := t.hosts }

theorem Tells.refl (s : State) : Tells s s := rfl

theorem Tells.trans {s t u : State} (h : Tells s t) (k : Tells t u) : Tells s u := by
  rw [Tells] at h k ⊢
  rw [k, h]

theorem Logged.tells {s t : State} (h : Logged s t) : Tells s t := by
  rw [Tells, h]

theorem tells_sendVector (s : State) (h f v : Nat) : Tells s (sendVector s h f v) := by
  rw [sendVector]
  split <;> rfl

theorem tells_devVectors (s : State) : Tells s (devVectors s) := by
  refine List.foldlRecOn (motive := fun t => Tells s t) _ _ (Tells.refl s) fun t ht p _ => ht.trans ?_
  split
  · exact List.foldlRecOn (motive := fun u => Tells t u) _ _ (Tells.refl t) fun u hu f _ => hu.trans (tells_sendVector u p.1 f 4)
  · exact Tells.refl t

theorem tells_raiseEvent (s : State) (code ukind unit : Nat) (part : Option Nat) (detail : List Nat) :
    Tells s (raiseEvent s code ukind unit part detail) := (logged_raiseRec s _ _ _ _ _ _ _).tells

theorem tells_setDev (s : State) (d : DevState) (stage : Nat) : Tells { s with dev := d, stage := stage } (setDev s d stage) := by
  rw [setDev]
  split
  · next h => rw [← h]; exact Tells.refl _
  · exact (tells_raiseEvent _ _ _ _ _ _).trans (tells_devVectors _)

section
variable {s t : State} (h : Tells s t)
include h

theorem Tells.dev : t.dev = s.dev := by rw [h]
theorem Tells.stage : t.stage = s.stage := by rw [h]
theorem Tells.pwr : t.pwr = s.pwr := by rw [h]
theorem Tells.mem : t.mem = s.mem := by rw [h]
theorem Tells.cores : t.cores = s.cores := by rw [h]
theorem Tells.survey : t.survey = s.survey := by rw [h]
theorem Tells.cfg : t.cfg = s.cfg := by rw [h]
theorem Tells.wake_start : t.wake.start = s.wake.start := by rw [h]
theorem Tells.wake_thermal : t.wake.thermal = s.wake.thermal := by rw [h]
theorem Tells.wake_failedStarts : t.wake.failedStarts = s.wake.failedStarts := by rw [h]

end

theorem pwr_modPwr (s : State) (f : Pwr → Pwr) : (modPwr s f).pwr = f s.pwr := rfl

/-! ### The loss of the deck (R392, R436) -/

/-- What is left as every stage fed from VIN stops. -/
theorem stopDeck_effect (s : State) : (stopDeck s).mem = [] ∧ (stopDeck s).cores = [] ∧ (stopDeck s).dev = s.dev ∧
    (stopDeck s).pwr.vin = s.pwr.vin ∧ (stopDeck s).pwr.vstby = s.pwr.vstby := by
  have hclose : runView (closeMailboxes (abortCheck s)) = runView s := (runView_closeSessions _ _ _).trans (runView_abortCheck s)
  have hdev := dev_of_view hclose
  have hpwr := pwr_of_view hclose
  rw [stopDeck]
  generalize closeMailboxes (abortCheck s) = u at hdev hpwr
  generalize hv : modPwr (loseRun (loseDie u)) _ = v
  have hax := auxOnly_axFeed v
  have hleave := runView_leaveWaking (axFeed v) false
  refine ⟨?_, ?_, ?_, ?_, ?_⟩
  · rw [mem_of_view hleave, hax.mem, ← hv]
    rfl
  · rw [cores_of_view hleave, hax.cores, ← hv]
    rfl
  · rw [dev_of_view hleave, hax.dev, ← hv]
    exact hdev
  · rw [pwr_of_view hleave, hax.vin, ← hv]
    have h := congrArg Pwr.vin hpwr
    exact h
  · rw [pwr_of_view hleave, hax.vstby, ← hv]
    have h := congrArg Pwr.vstby hpwr
    exact h

/-- R436: with both inputs lost the device is OFF. -/
theorem goOff_effect (s : State) : (goOff s).dev = .off ∧ (goOff s).mem = [] ∧ (goOff s).cores = [] ∧ (goOff s).pwr.vin = false ∧
    (goOff s).pwr.vstby = false := by
  rw [goOff]
  generalize tearLog (tearRecord (tearLast (setDev s .off 0))) = u
  exact ⟨rfl, rfl, rfl, rfl, rfl⟩

theorem core_of_nil {s : State} (h : s.cores = []) (c : Nat) : s.core c = Core.reset := by
  rw [State.core, h]
  rfl

/-- R392, R436: with VIN gone the deck is lost, and the state follows what VSTBY gives. -/
theorem vinLost_effect (s : State) : (vinLost s).pwr.vin = false ∧ (vinLost s).mem = [] ∧ (vinLost s).cores = [] ∧
    (vinLost s).dev = if s.pwr.vstby = false then .off else if s.dev = .held then .held else .standby := by
  obtain ⟨hmem, hcores, hdev, hvin, hvstby⟩ := stopDeck_effect (modPwr s (fun w => { w with vin := false }))
  have hvstby' : (stopDeck (modPwr s (fun w => { w with vin := false }))).pwr.vstby = s.pwr.vstby := hvstby
  have hdev' : (stopDeck (modPwr s (fun w => { w with vin := false }))).dev = s.dev := hdev
  have hvin' : (stopDeck (modPwr s (fun w => { w with vin := false }))).pwr.vin = false := hvin
  rw [vinLost]
  generalize stopDeck (modPwr s (fun w => { w with vin := false })) = u at hmem hcores hdev' hvin' hvstby'
  have hax := auxOnly_axFeed u
  generalize axFeed u = v at hax
  rw [hax.vstby, hvstby', hax.dev, hdev']
  cases hb : s.pwr.vstby with
  | false =>
    obtain ⟨h1, h2, h3, h4, -⟩ := goOff_effect v
    exact ⟨h4, h2, h3, h1⟩
  | true =>
    by_cases hheld : s.dev = .held
    · simp only [Bool.not_true, Bool.false_eq_true, Bool.true_eq_false, if_false, hheld, if_true]
      exact ⟨hax.vin.trans hvin', hax.mem.trans hmem, hax.cores.trans hcores, hax.dev.trans (hdev'.trans hheld)⟩
    · simp only [Bool.not_true, Bool.false_eq_true, Bool.true_eq_false, if_false, hheld]
      have ht := tells_setDev v .standby 0
      exact ⟨(congrArg Pwr.vin ht.pwr).trans (hax.vin.trans hvin'), ht.mem.trans (hax.mem.trans hmem), ht.cores.trans (hax.cores.trans hcores), ht.dev⟩

/-- R436: an input brings a device that is OFF to STANDBY, or to HELD after three failed starts. -/
theorem leaveOff_effect (s : State) : ∃ u, AuxOnly s u ∧
    Tells { u with dev := if s.dev = .off then (if 3 ≤ s.wake.failedStarts then .held else .standby) else s.dev, stage := (leaveOff s).stage } (leaveOff s) := by
  rw [leaveOff]
  split
  · have h := tells_setDev (setDom s 134 .on) (if 3 ≤ s.wake.failedStarts then .held else .standby) 0
    refine ⟨setDom s 134 .on, auxOnly_setDom s 134 .on, ?_⟩
    rw [h.stage]
    exact h
  · exact ⟨s, AuxOnly.refl s, Tells.refl s⟩

/-- R436: what an input that arrives has brought before the device learns of a failed start. -/
def arrived (s : State) (mv : Nat) : State :=
  leaveOff (modPwr s (fun w =>
    { w with
      vin := true
      volt := mv
      aux := w.aux.map (fun x => (x.1, if x.2.st = 3 && x.2.cause = 4 then { x.2 with st := 0 } else x.2)) }))

theorem arrived_effect (s : State) (mv : Nat) : (arrived s mv).pwr.vin = true ∧ (arrived s mv).pwr.volt = mv ∧ (arrived s mv).mem = s.mem ∧
    (arrived s mv).cores = s.cores ∧
    (arrived s mv).dev = (if s.dev = .off then (if 3 ≤ s.wake.failedStarts then .held else .standby) else s.dev) ∧
    (arrived s mv).wake.lostStart = s.wake.lostStart ∧ (arrived s mv).wake.failedStarts = s.wake.failedStarts ∧ (arrived s mv).now = s.now := by
  obtain ⟨u, ha, ht⟩ := leaveOff_effect (modPwr s (fun w =>
    { w with
      vin := true
      volt := mv
      aux := w.aux.map (fun x => (x.1, if x.2.st = 3 && x.2.cause = 4 then { x.2 with st := 0 } else x.2)) }))
  rw [arrived]
  refine ⟨?_, ?_, ?_, ?_, ht.dev, ?_, ?_, ?_⟩
  · rw [ht, ha]; rfl
  · rw [ht, ha]; rfl
  · rw [ht, ha]; rfl
  · rw [ht, ha]; rfl
  · rw [ht, ha]; rfl
  · rw [ht, ha]; rfl
  · rw [ht, ha]; rfl

/-- R443: whether VIN came back within a second of the start that its fault ended. -/
def startFailed (s : State) : Bool :=
  match s.wake.lostStart with
  | some t => decide (s.now ≤ t + 1000000000)
  | none => false

/-- R443: the count of failed starts. -/
def startCounted (s : State) (failed : Bool) : State :=
  modWake s (fun w =>
    { w with
      lostStart := none
      failedStarts := if failed then w.failedStarts + 1 else w.failedStarts })

theorem exec_vinArrive {s : State} {mv : Nat} (hvin : s.pwr.vin = false) (hlo : 39000 ≤ mv) (hhi : mv ≤ 61000) :
    exec (.vinArrive mv) s = .next (axFeed (if startFailed (arrived s mv) ∧ 3 ≤ (startCounted (arrived s mv) (startFailed (arrived s mv))).wake.failedStarts
      then setDev (startCounted (arrived s mv) (startFailed (arrived s mv))) .held 0
      else startCounted (arrived s mv) (startFailed (arrived s mv)))) := by
  change Host.Outcome.next _ = _
  rw [if_neg (by simp only [hvin, Bool.false_eq_true, false_or]; omega)]
  rfl

/-! ### A cold start begins (R438, R443) -/

/-- What a cold start leaves as its stage 1 begins. -/
theorem coldRun_eq (s : State) : ∃ u, u.cores = [] ∧ u.mem = [] ∧ u.echoM = s.echoM ∧ coldRun s = setDev (modWake u (fun w =>
    { w with
      start := some ⟨false, u.echoM, u.survey.nextSeq⟩
      mgmt := false
      thermal := false })) .waking 1 := by
  unfold coldRun
  extract_lets s1 s2 s3 kept s4 s5 s6 s7 s8 s9 s10
  have h3 : s3.echoM = s.echoM := echoM_of_view ((runView_abortCheck s2).trans ((runView_closeSessions s1 _ _).trans (runView_pendCold s)))
  clear_value s3
  have h4 : s4.cores = [] ∧ s4.mem = [] ∧ s4.echoM = s.echoM := ⟨rfl, rfl, h3⟩
  clear_value s4
  have h5 : s5.cores = [] ∧ s5.mem = [] ∧ s5.echoM = s.echoM := h4
  clear_value s5
  have h6 : s6.cores = [] ∧ s6.mem = [] ∧ s6.echoM = s.echoM :=
    List.foldlRecOn (motive := fun t : State => t.cores = [] ∧ t.mem = [] ∧ t.echoM = s.echoM) _ _ h5 fun t ht p _ => ht
  clear_value s6
  obtain ⟨hc, hm, he⟩ := h6
  have hv : runView s9 = runView s8 := runView_confirmRest _
  exact ⟨s9, (cores_of_view hv).trans hc, (mem_of_view hv).trans hm, (echoM_of_view hv).trans he, rfl⟩

/-- R438, R443: a cold start that VIN allows begins at stage 1, with every core as reset leaves it. -/
theorem coldStart_effect {s : State} (hvin : s.pwr.vin = true) (hoff : s.dev ≠ .off) (hheld : s.dev ≠ .held) :
    (coldStart s false).dev = .waking ∧ (coldStart s false).stage = 1 ∧
      (coldStart s false).wake.start = some ⟨false, s.echoM, (coldStart s false).survey.nextSeq⟩ ∧ (coldStart s false).cores = [] ∧
      (coldStart s false).mem = [] := by
  have hrec : (if trialOn s then trialRecord s else s).echoM = s.echoM := by
    split
    · exact echoM_of_view (runView_trialRecord s)
    · rfl
  rw [coldStart, if_neg (by simp [hvin, hoff, hheld])]
  generalize (if trialOn s then trialRecord s else s) = v at hrec
  obtain ⟨u, hcores, hmem, hecho, he⟩ := coldRun_eq v
  rw [he]
  have ht := tells_setDev (modWake u (fun w =>
    { w with
      start := some ⟨false, u.echoM, u.survey.nextSeq⟩
      mgmt := false
      thermal := false })) .waking 1
  refine ⟨ht.dev, ht.stage, ?_, ht.cores.trans hcores, ht.mem.trans hmem⟩
  rw [ht.wake_start, ht.survey, ← hrec, ← hecho]
  rfl

/-! ### Aux channels that trip (R429, R432) -/

/-- Steps each of which acts on one place alone act on each place of a list. -/
theorem foldl_at {σ β : Type} {step : σ → Nat → σ} {get : σ → Nat → β} {g : Nat → β → β} (hat : ∀ u n, get (step u n) n = g n (get u n))
    (hother : ∀ u n m, m ≠ n → get (step u n) m = get u m) {l : List Nat} (hn : l.Nodup) (s : σ) {n : Nat} (hmem : n ∈ l) :
    get (l.foldl step s) n = g n (get s n) := by
  have hout : ∀ (l : List Nat) (s : σ), n ∉ l → get (l.foldl step s) n = get s n := fun l => by
    induction l with
    | nil => exact fun _ _ => rfl
    | cons a l ih =>
      intro s h
      rw [List.mem_cons, not_or] at h
      rw [List.foldl_cons, ih _ h.2, hother _ _ _ h.1]
  induction l generalizing s with
  | nil => cases hmem
  | cons a l ih =>
    obtain ⟨ha, hl⟩ := List.nodup_cons.1 hn
    rw [List.foldl_cons]
    obtain rfl | h := List.mem_cons.1 hmem
    · rw [hout l _ ha, hat]
    · rw [ih hl _ h, hother _ _ _ (ne_of_mem_of_not_mem h ha)]

/-- A channel that has tripped. -/
def trippedAux (a : Aux) (cause : Nat) : Aux :=
  { a with
    st := 3
    trip := true
    cause := cause
    tach := 0
    latch := a.latch || (cause != 4 && decide (3 ≤ a.retry)) }

theorem auxCh_of_pwr {s t : State} (h : t.pwr = s.pwr) (k : Nat) : t.auxCh k = s.auxCh k := by rw [State.auxCh, State.auxCh, h]

theorem auxTrips_effect (s : State) (c cause : Nat) : Tells (modAux s c (fun a => trippedAux a cause)) (auxTrips s c cause) ∧
    LogGets s (auxTrips s c cause) 0x2201 4 ∧ (auxTrips s c cause).auxCh c = trippedAux (s.auxCh c) cause ∧
    ∀ k, k ≠ c → (auxTrips s c cause).auxCh k = s.auxCh k := by
  have ht : Tells (modAux s c (fun a => trippedAux a cause)) (auxTrips s c cause) := tells_raiseEvent _ _ _ _ _ _
  refine ⟨ht, ?_, ?_, fun k hk => ?_⟩
  · exact (logGets_raiseRec (code := 0x2201) (by decide) _ _ _ _ _ _ _).of_same rfl rfl
  · rw [auxCh_of_pwr ht.pwr, auxCh_modAux]
  · rw [auxCh_of_pwr ht.pwr, auxCh_modAux_ne _ _ hk]

/-- R432: whether a channel opens as the channels on VSTBY trip. -/
def opens (a : Aux) : Bool := a.ofVstby && (a.st == 1 || a.st == 2)

theorem opens_iff (a : Aux) : opens a = true ↔ a.ofVstby = true ∧ (a.st = 1 ∨ a.st = 2) := by simp [opens]

/-- R432: one channel at the trip of the channels on VSTBY. -/
def standbyTrip (s : State) (c : Nat) : State := if opens (s.auxCh c) then auxTrips s c 4 else s

theorem standbyTrip_self (s : State) (c : Nat) : (standbyTrip s c).auxCh c = if opens (s.auxCh c) then trippedAux (s.auxCh c) 4 else s.auxCh c := by
  rw [standbyTrip]
  split
  · exact (auxTrips_effect s c 4).2.2.1
  · rfl

theorem standbyTrip_ne (s : State) (c k : Nat) (h : k ≠ c) : (standbyTrip s c).auxCh k = s.auxCh k := by
  rw [standbyTrip]
  split
  · exact (auxTrips_effect s c 4).2.2.2 k h
  · rfl

theorem runs_standbyTrip (s : State) (c : Nat) : (standbyTrip s c).mem = s.mem ∧ (standbyTrip s c).cores = s.cores := by
  rw [standbyTrip]
  split
  · exact ⟨(auxTrips_effect s c 4).1.mem.trans (mem_modAux s c _), (auxTrips_effect s c 4).1.cores.trans (cores_modAux s c _)⟩
  · exact ⟨rfl, rfl⟩

theorem exec_auxStandbyTrip (s : State) : exec .auxStandbyTrip s = .next ((List.range 6).foldl standbyTrip s) := by
  have hstep : ∀ (u : State) (c : Nat), (let a := u.auxCh c
      if a.ofVstby ∧ (a.st = 1 ∨ a.st = 2) then auxTrips u c 4 else u) = standbyTrip u c := fun u c => by
    rw [standbyTrip]
    simp only [opens_iff]
  change Host.Outcome.next _ = _
  simp only [hstep]

/-! ### Blade currents and temperatures (R393, R426) -/

/-- R393: the state with the sample, its average not yet judged. -/
def bladed (s : State) (a b : Nat) : State := modPwr s (fun w => { w with blades := ((a, b) :: w.blades).take 100 })

theorem avgOf_blades {s : State} {a b : Nat} {bl : List (Nat × Nat)} (h : bl = ((a, b) :: s.pwr.blades).take 100) (f : Nat × Nat → Nat) :
    avgOf 100 ((bladed s a b).pwr.blades.map f) = (bl.map f).sum / bl.length := by
  have hbl : (bladed s a b).pwr.blades = bl := h.symm
  have hlen : (bl.map f).length ≤ 100 := by
    rw [List.length_map, h]
    exact List.length_take_le _ _
  have hne : bl.map f ≠ [] := by
    rw [h]
    simp
  rw [avgOf, hbl, if_neg hne, List.take_of_length_le hlen, List.length_map]

theorem exec_bladeSample {s : State} (hvin : s.pwr.vin = true) (a b : Nat) : exec (.bladeCurrentSample a b) s = .next (
    if !s.pwr.bladeOver && (decide (8000 < avgOf 100 ((bladed s a b).pwr.blades.map (·.1))) ||
        decide (8000 < avgOf 100 ((bladed s a b).pwr.blades.map (·.2)))) then
      modPwr (raiseEvent (bladed s a b) 0x2003 0 0 none [a, b]) (fun w => { w with bladeOver := true })
    else if a ≤ 7600 ∧ b ≤ 7600 then modPwr (bladed s a b) (fun w => { w with bladeOver := false })
    else bladed s a b) := by
  change Host.Outcome.next _ = _
  rw [hvin]
  rfl

/-- R426: the state with the sensors read, and the channels not yet set. -/
def sensed (s : State) (tiles others : List Nat) : State :=
  let s := modPwr s (fun w =>
    { w with
      temps := tiles.take 1344
      otherTemps := others.take 15 })
  let warm := warned s
  let s := modPwr s (fun w => { w with warnAge := if warm then 0 else min 100 (w.warnAge + 1) })
  modPwr s (fun w =>
    { w with
      capHit := (List.range 12).filter (fun n =>
        w.capHit.contains n || (fieldTemps s n).any (fun t => decide (throttleAt s ≤ t))) })

theorem sensed_keeps (s : State) (tiles others : List Nat) : (sensed s tiles others).mem = s.mem ∧ (sensed s tiles others).cores = s.cores ∧
    (sensed s tiles others).dev = s.dev := by
  simp only [sensed, modPwr_mem, modPwr_cores, modPwr_dev, and_self]

theorem sensed_pwr (s : State) (tiles others : List Nat) : (sensed s tiles others).pwr.temps = tiles.take 1344 ∧
    (sensed s tiles others).pwr.otherTemps = others.take 15 ∧
    (sensed s tiles others).pwr.warnAge = if (tiles.take 1344 ++ others.take 15).any (fun x => decide (cfgNum s 0x11 0x0003 0 95 ≤ x)) then 0
      else min 100 (s.pwr.warnAge + 1) := by
  unfold sensed
  extract_lets s1 warm s2
  have h1 : s1.pwr.temps = tiles.take 1344 ∧ s1.pwr.otherTemps = others.take 15 ∧ s1.pwr.warnAge = s.pwr.warnAge := ⟨rfl, rfl, rfl⟩
  have hwarm : warm = (tiles.take 1344 ++ others.take 15).any (fun x => decide (cfgNum s 0x11 0x0003 0 95 ≤ x)) := rfl
  have h2 : s2.pwr = { s1.pwr with warnAge := if warm then 0 else min 100 (s1.pwr.warnAge + 1) } := rfl
  clear_value s2 warm s1
  obtain ⟨ht, ho, ha⟩ := h1
  simp only [pwr_modPwr, h2, ht, ho, ha, hwarm]
  exact ⟨trivial, trivial, trivial⟩

theorem exec_tempSample (s : State) (tiles others : List Nat) : ∃ u, Tells (sensed s tiles others) u ∧
    exec (.tempSample tiles others) s = .next (auxUpdate u) := by
  refine ⟨if warned (modPwr s (fun w => { w with temps := tiles.take 1344, otherTemps := others.take 15 })) && !warned s then
    raiseEvent (sensed s tiles others) 0x2101 0 0 none [pwrTmax (sensed s tiles others)] else sensed s tiles others, ?_, rfl⟩
  split
  · exact tells_raiseEvent _ _ _ _ _ _
  · exact Tells.refl _

/-- R436: the trip temperature stops the deck, and a device that is not HELD is in STANDBY. -/
theorem thermalTrip_effect {s : State} (hoff : s.dev ≠ .off) (hstandby : s.dev ≠ .standby) : ∃ t, exec .thermalTrip s = .next t ∧
    t.wake.thermal = true ∧ t.mem = [] ∧ t.cores = [] ∧ t.dev = if s.dev = .held then .held else .standby := by
  have hraise := tells_raiseEvent s 0x2102 0 0 none [pwrTmax s]
  obtain ⟨hmem, hcores, hdev, -, -⟩ := stopDeck_effect (raiseEvent s 0x2102 0 0 none [pwrTmax s])
  rw [hraise.dev] at hdev
  have hexec : exec .thermalTrip s = .next (axFeed (if (raiseEvent s 0x2102 0 0 none [pwrTmax s]).dev == .held
      then modWake (stopDeck (raiseEvent s 0x2102 0 0 none [pwrTmax s])) (fun w => { w with thermal := true })
      else setDev (modWake (stopDeck (raiseEvent s 0x2102 0 0 none [pwrTmax s])) (fun w => { w with thermal := true })) .standby 0)) := by
    change Host.Outcome.next _ = _
    rw [if_neg (by simp [hoff, hstandby])]
  rw [hexec, hraise.dev]
  generalize stopDeck (raiseEvent s 0x2102 0 0 none [pwrTmax s]) = u at hmem hcores hdev
  have hset := tells_setDev (modWake u (fun w => { w with thermal := true })) .standby 0
  refine ⟨_, rfl, ?_⟩
  by_cases hheld : s.dev = .held
  · have hax := auxOnly_axFeed (modWake u (fun w => { w with thermal := true }))
    rw [if_pos (by rw [hheld]; rfl), if_pos hheld]
    exact ⟨by rw [hax.wake]; rfl, hax.mem.trans hmem, hax.cores.trans hcores, hax.dev.trans (hdev.trans hheld)⟩
  · have hax := auxOnly_axFeed (setDev (modWake u (fun w => { w with thermal := true })) .standby 0)
    rw [if_neg (by simpa using hheld), if_neg hheld]
    exact ⟨by rw [hax.wake]; exact hset.wake_thermal, hax.mem.trans (hset.mem.trans hmem), hax.cores.trans (hset.cores.trans hcores),
      hax.dev.trans hset.dev⟩

/-- R392: what a low VIN brings. -/
theorem vinLow_effect {s : State} {mv : Nat} (hvin : s.pwr.vin = true) (hlo : 39000 ≤ mv) (hhi : mv < 40000) :
    ∃ t, exec (.vinLowWarning mv) s = .next t ∧ t.pwr = { s.pwr with volt := mv } ∧ t.mem = s.mem ∧ t.cores = s.cores ∧ t.dev = s.dev := by
  have hexec : exec (.vinLowWarning mv) s = execVinLowWarning mv s := rfl
  rw [hexec, execVinLowWarning, if_pos ⟨hvin, hlo, hhi⟩]
  generalize hv : modPwr s (fun w => { w with volt := mv }) = v
  have ht := tells_raiseEvent v 0x2001 0 0 none [pwrVin v]
  refine ⟨_, rfl, ht.pwr.trans ?_, ht.mem.trans ?_, ht.cores.trans ?_, ht.dev.trans ?_⟩
  · rw [← hv, pwr_modPwr]
  · rw [← hv, modPwr_mem]
  · rw [← hv, modPwr_cores]
  · rw [← hv, modPwr_dev]

/-- R436, R443: the state as VIN faults: the deck is lost, and the loss that ends a cold start is kept. -/
theorem vinFault_effect {s : State} {mv : Nat} (hvin : s.pwr.vin = true) (hrange : mv < 39000 ∨ 61000 < mv) :
    ∃ t, exec (.vinFault mv) s = .next t ∧ t.pwr.vin = false ∧ t.mem = [] ∧ t.cores = [] ∧
      t.dev = if s.pwr.vstby = false then .off else if s.dev = .held then .held else .standby := by
  have hraise := tells_raiseEvent (modPwr s (fun w => { w with volt := mv })) 0x2002 0 0 none [pwrVin (modPwr s (fun w => { w with volt := mv }))]
  obtain ⟨h1, h2, h3, h4⟩ := vinLost_effect (raiseEvent (modPwr s (fun w => { w with volt := mv })) 0x2002 0 0 none
    [pwrVin (modPwr s (fun w => { w with volt := mv }))])
  rw [hraise.pwr, hraise.dev] at h4
  have hexec : exec (.vinFault mv) s = execVinFault mv s := rfl
  rw [hexec, execVinFault, if_pos ⟨hvin, hrange⟩]
  dsimp only
  generalize vinLost _ = u at h1 h2 h3 h4 ⊢
  have hkeep : ∀ b : Bool, let t := if b then modWake u (fun w => { w with lostStart := some u.now }) else u
      t.pwr.vin = false ∧ t.mem = [] ∧ t.cores = [] ∧
        t.dev = if s.pwr.vstby = false then .off else if s.dev = .held then .held else .standby
    | true => ⟨h1, h2, h3, h4⟩
    | false => ⟨h1, h2, h3, h4⟩
  exact ⟨_, rfl, hkeep _⟩

/-- R394, R436: the state as VSTBY is lost. -/
theorem vstbyLoss_effect {s : State} (h : s.pwr.vstby = true) : ∃ t, exec .vstbyLoss s = .next t ∧ t.pwr.vstby = false ∧
    (s.pwr.vin = true → t.dev = s.dev ∧ t.mem = s.mem ∧ t.cores = s.cores) ∧ (s.pwr.vin = false → t.dev = .off) := by
  have hraise := tells_raiseEvent s 0x2004 0 0 none []
  have hexec : exec .vstbyLoss s = execVstbyLoss s := rfl
  rw [hexec, execVstbyLoss, if_pos h]
  have hvin : (modPwr (raiseEvent s 0x2004 0 0 none []) (fun w => { w with vstby := false })).pwr.vin = s.pwr.vin :=
    have hv := congrArg Pwr.vin hraise.pwr
    hv
  have hdev : (modPwr (raiseEvent s 0x2004 0 0 none []) (fun w => { w with vstby := false })).dev = s.dev := hraise.dev
  have hmem : (modPwr (raiseEvent s 0x2004 0 0 none []) (fun w => { w with vstby := false })).mem = s.mem := hraise.mem
  have hcores : (modPwr (raiseEvent s 0x2004 0 0 none []) (fun w => { w with vstby := false })).cores = s.cores := hraise.cores
  have hvs : (modPwr (raiseEvent s 0x2004 0 0 none []) (fun w => { w with vstby := false })).pwr.vstby = false := rfl
  refine ⟨_, rfl, ?_⟩
  dsimp only
  generalize modPwr (raiseEvent s 0x2004 0 0 none []) _ = u at hvin hdev hmem hcores hvs ⊢
  rw [hvin]
  cases hv : s.pwr.vin with
  | true => exact ⟨hvs, fun _ => ⟨hdev, hmem, hcores⟩, nofun⟩
  | false => exact ⟨(goOff_effect u).2.2.2.2, nofun, fun _ => (goOff_effect u).1⟩

/-- R436: what VSTBY brings. -/
theorem vstbyArrive_effect (s : State) : ∃ t, exec .vstbyArrive s = .next t ∧ t.pwr.vstby = true ∧ t.mem = s.mem ∧ t.cores = s.cores ∧
    t.dev = if s.dev = .off then (if 3 ≤ s.wake.failedStarts then .held else .standby) else s.dev := by
  have hexec : exec .vstbyArrive s = .next (axFeed (leaveOff (modPwr s (fun w => { w with vstby := true })))) := rfl
  obtain ⟨u, ha, ht⟩ := leaveOff_effect (modPwr s (fun w => { w with vstby := true }))
  generalize hv : modPwr s (fun w => { w with vstby := true }) = v at *
  have hvst : v.pwr.vstby = true := by rw [← hv]; rfl
  have hmem : v.mem = s.mem := by rw [← hv, modPwr_mem]
  have hcores : v.cores = s.cores := by rw [← hv, modPwr_cores]
  have hdev : v.dev = s.dev := by rw [← hv, modPwr_dev]
  have hwake : v.wake = s.wake := by rw [← hv, modPwr_wake]
  have hax := auxOnly_axFeed (leaveOff v)
  generalize leaveOff v = w at *
  refine ⟨_, hexec, hax.vstby.trans ((congrArg Pwr.vstby ht.pwr).trans (ha.vstby.trans hvst)), hax.mem.trans (ht.mem.trans (ha.mem.trans hmem)),
    hax.cores.trans (ht.cores.trans (ha.cores.trans hcores)), ?_⟩
  rw [hax.dev, ht.dev, hdev, hwake]

/-- R393: what a sample of the blade currents leaves. -/
theorem bladeSample_effect {s : State} {a b : Nat} {bl : List (Nat × Nat)} (hvin : s.pwr.vin = true)
    (hbl : bl = ((a, b) :: s.pwr.blades).take 100) : ∃ t, exec (.bladeCurrentSample a b) s = .next t ∧ t.pwr.blades = bl ∧
      t.mem = s.mem ∧ t.cores = s.cores ∧
      (s.pwr.bladeOver = false → 8000 < (bl.map (·.1)).sum / bl.length ∨ 8000 < (bl.map (·.2)).sum / bl.length →
        t.pwr.bladeOver = true ∧ LogGets s t 0x2003 4) ∧
      (s.pwr.bladeOver = true → t.pwr.bladeOver = !(decide (a ≤ 7600) && decide (b ≤ 7600))) := by
  rw [exec_bladeSample hvin, avgOf_blades hbl, avgOf_blades hbl]
  have hraise := tells_raiseEvent (bladed s a b) 0x2003 0 0 none [a, b]
  have hblades : (bladed s a b).pwr.blades = bl := hbl.symm
  refine ⟨_, rfl, ?_⟩
  split
  · next hhigh =>
    have hover : s.pwr.bladeOver = false := by simp at hhigh; exact hhigh.1
    refine ⟨(congrArg Pwr.blades hraise.pwr).trans hblades, hraise.mem, hraise.cores, fun _ _ => ⟨rfl, ?_⟩, fun h => ?_⟩
    · exact (logGets_raiseRec (code := 0x2003) (by decide) _ _ _ _ _ _ _).of_same rfl rfl
    · rw [hover] at h; cases h
  · next hhigh =>
    have hno : s.pwr.bladeOver = false → ¬ (8000 < (bl.map (·.1)).sum / bl.length ∨ 8000 < (bl.map (·.2)).sum / bl.length) := by
      intro h1 h2
      exact hhigh (by simpa [h1] using h2)
    split
    · next hlow => exact ⟨hblades, rfl, rfl, fun h1 h2 => absurd h2 (hno h1), fun _ => by simp [modPwr, hlow]⟩
    · next hlow =>
      refine ⟨hblades, rfl, rfl, fun h1 h2 => absurd h2 (hno h1), fun h => ?_⟩
      have hand : (decide (a ≤ 7600) && decide (b ≤ 7600)) = false := by
        rw [Bool.eq_false_iff]
        simpa using hlow
      rw [hand]
      exact h

/-- R429: a channel's retry is its full start, with the retry counted. -/
theorem exec_auxRetry {s : State} {c : Nat} (hc : c < 6) (hst : (s.auxCh c).st = 3) (hlatch : (s.auxCh c).latch = false)
    (hcause : (s.auxCh c).cause ≠ 4) (hretry : (s.auxCh c).retry < 3) (hwant : auxWanted s c = true) :
    exec (.auxRetry c) s = .next (auxStart (modAux s c (fun a => { a with retry := a.retry + 1 })) c) := by
  change Host.Outcome.next _ = _
  rw [if_pos ⟨hc, hst, by rw [hlatch]; rfl, hcause, hretry, hwant⟩]

/-- R431: what the sample of a fan's speed leaves. -/
theorem fanStall_effect {s : State} {c : Nat} (rpm : Nat) (hc : c < 4) (hst : (s.auxCh c).st = 2) :
    ∃ t, exec (.fanStall c rpm) s = .next t ∧ Tells (modAux s c (fun a => { a with tach := min rpm 0xFFFF })) t := by
  have hexec : exec (.fanStall c rpm) s = execFanStall c rpm s := rfl
  rw [hexec, execFanStall, if_pos ⟨hc, hst⟩]
  dsimp only
  refine ⟨_, rfl, ?_⟩
  split
  · exact tells_raiseEvent _ _ _ _ _ _
  · exact Tells.refl _

/-! ### The obligation -/

/-- R436, R443: what an input that arrives leaves. -/
theorem vinArrive_effect {s : State} {mv : Nat} (hvin : s.pwr.vin = false) (hlo : 39000 ≤ mv) (hhi : mv ≤ 61000) :
    ∃ t, exec (.vinArrive mv) s = .next t ∧ t.pwr.vin = true ∧ t.pwr.volt = mv ∧ t.mem = s.mem ∧ t.cores = s.cores ∧
      (s.wake.lostStart = none → t.dev = if s.dev = .off then (if 3 ≤ s.wake.failedStarts then .held else .standby) else s.dev) ∧
      (∀ a, s.wake.lostStart = some a → s.now ≤ a + 1000000000 → t.wake.failedStarts = s.wake.failedStarts + 1 ∧
        (2 ≤ s.wake.failedStarts → t.dev = .held)) := by
  obtain ⟨h1, h2, h3, h4, h5, h6, h7, h8⟩ := arrived_effect s mv
  refine ⟨_, exec_vinArrive hvin hlo hhi, ?_⟩
  generalize arrived s mv = u at *
  split
  · next hfail =>
    have ht := tells_setDev (startCounted u (startFailed u)) .held 0
    have ha := auxOnly_axFeed (setDev (startCounted u (startFailed u)) .held 0)
    refine ⟨ha.vin.trans ((congrArg Pwr.vin ht.pwr).trans h1), ha.volt.trans ((congrArg Pwr.volt ht.pwr).trans h2),
      ha.mem.trans (ht.mem.trans h3), ha.cores.trans (ht.cores.trans h4), fun hnone => ?_, fun a hsome hin => ⟨?_, fun _ => ha.dev.trans ht.dev⟩⟩
    · have hno : startFailed u = false := by rw [startFailed, h6, hnone]
      rw [hno] at hfail
      cases hfail.1
    · rw [ha.wake, ht.wake_failedStarts, ← h7, hfail.1]
      rfl
  · next hfail =>
    have ha := auxOnly_axFeed (startCounted u (startFailed u))
    refine ⟨ha.vin.trans h1, ha.volt.trans h2, ha.mem.trans h3, ha.cores.trans h4, fun _ => ha.dev.trans h5, fun a hsome hin => ?_⟩
    have hyes : startFailed u = true := by
      rw [startFailed, h6, hsome]
      simpa [h8] using hin
    rw [hyes] at hfail ha ⊢
    refine ⟨?_, fun hthree => absurd ⟨rfl, ?_⟩ hfail⟩
    · rw [ha.wake, ← h7]
      rfl
    · change 3 ≤ u.wake.failedStarts + 1
      omega

/-- R426: what a sample of the temperatures leaves. -/
theorem tempSample_effect (s : State) (tiles others : List Nat) : ∃ t, exec (.tempSample tiles others) s = .next t ∧ t.mem = s.mem ∧
    t.cores = s.cores ∧ t.dev = s.dev ∧ t.pwr.temps = tiles.take 1344 ∧ t.pwr.otherTemps = others.take 15 ∧
    t.pwr.warnAge = if (tiles.take 1344 ++ others.take 15).any (fun x => decide (cfgNum s 0x11 0x0003 0 95 ≤ x)) then 0
      else min 100 (s.pwr.warnAge + 1) := by
  obtain ⟨u, ht, hexec⟩ := exec_tempSample s tiles others
  have hax := auxOnly_auxUpdate u
  obtain ⟨hmem, hcores, hdev⟩ := sensed_keeps s tiles others
  obtain ⟨htemps, hothers, hage⟩ := sensed_pwr s tiles others
  generalize sensed s tiles others = v at *
  rw [← ht.pwr] at htemps hothers hage
  exact ⟨_, hexec, hax.mem.trans (ht.mem.trans hmem), hax.cores.trans (ht.cores.trans hcores), hax.dev.trans (ht.dev.trans hdev),
    hax.temps.trans htemps, hax.otherTemps.trans hothers, hax.warnAge.trans hage⟩

/-- R429: what the check of a fan's start leaves. -/
theorem fanStartCheck_effect {s : State} {c : Nat} (volt : Nat) (hc : c < 4) (hst : (s.auxCh c).st = 1) :
    ∃ t, exec (.fanStartCheck c volt) s = .next t ∧ t.mem = s.mem ∧ t.cores = s.cores ∧ (∀ k, k ≠ c → t.auxCh k = s.auxCh k) ∧
      (9 * (s.auxCh c).vset ≤ 10 * volt → t.auxCh c = { s.auxCh c with st := 2, retry := 0 }) ∧
      (10 * volt < 9 * (s.auxCh c).vset → (t.auxCh c).st = 3 ∧ (t.auxCh c).trip = true ∧ (t.auxCh c).cause = 3) := by
  have hexec : exec (.fanStartCheck c volt) s = .next (if 9 * (s.auxCh c).vset ≤ 10 * volt then
      modAux s c (fun a => { a with st := 2, retry := 0 }) else auxTrips s c 3) := by
    change Host.Outcome.next _ = _
    rw [if_pos ⟨hc, hst⟩]
  refine ⟨_, hexec, ?_⟩
  split
  · next hreached => exact ⟨rfl, rfl, fun k hk => auxCh_modAux_ne s _ hk, fun _ => auxCh_modAux s c _, fun h => by omega⟩
  · next hreached =>
    obtain ⟨ht, -, hown, hother⟩ := auxTrips_effect s c 3
    exact ⟨ht.mem.trans (mem_modAux s c _), ht.cores.trans (cores_modAux s c _), hother, fun h => absurd h hreached, fun _ => by rw [hown]; exact ⟨rfl, rfl, rfl⟩⟩

/-- Settles O49: what an input, a sample or a trip brings is what the deck, the state and the aux channels show. -/
theorem inputsTemperaturesAndFansAct : Obligations.InputsTemperaturesAndFansAct := by
  unfold Obligations.InputsTemperaturesAndFansAct
  refine ⟨fun s mv hvin => ⟨fun hlo hhi => ?low, fun hrange => ?fault⟩, fun s mv hvin hlo hhi => ?arrive, fun s hdev hvin hauto htherm => ?auto,
    fun s hvstby => ?vstbyLoss, fun s => ?vstbyArrive, fun s a b bl hvin hbl => ?blade, fun s tiles others => ?temps,
    fun s hoff hstandby => ?trip, fun s c volt hc hst => ?fan, fun s c hc => ⟨fun hst => ?auxTrip, fun hst => ?overload,
      fun hst hlatch hcause hretry hwant => ?retry⟩, fun s => ?standby, fun s c rpm hc hst => ?stall⟩
  case low => exact vinLow_effect hvin hlo hhi
  case fault =>
    obtain ⟨t, hexec, h1, h2, h3, h4⟩ := vinFault_effect hvin hrange
    exact ⟨t, hexec, h1, h2, core_of_nil h3, h4⟩
  case arrive => exact vinArrive_effect hvin hlo hhi
  case auto =>
    obtain ⟨h1, h2, h3, h4, -⟩ := coldStart_effect (s := s) hvin (by rw [hdev]; decide) (by rw [hdev]; decide)
    refine ⟨coldStart s false, ?_, h1, h2, h3, core_of_nil h4⟩
    change Host.Outcome.next _ = _
    rw [if_pos ⟨hdev, hvin, hauto, by rw [htherm]; rfl⟩]
  case vstbyLoss => exact vstbyLoss_effect hvstby
  case vstbyArrive => exact vstbyArrive_effect s
  case blade => exact bladeSample_effect hvin hbl
  case temps => exact tempSample_effect s tiles others
  case trip =>
    obtain ⟨t, hexec, htherm, hmem, hcores, hdev⟩ := thermalTrip_effect hoff hstandby
    exact ⟨t, hexec, htherm, hmem, core_of_nil hcores, hdev⟩
  case fan => exact fanStartCheck_effect volt hc hst
  case auxTrip =>
    obtain ⟨ht, hlog, hown, hother⟩ := auxTrips_effect s c 1
    refine ⟨auxTrips s c 1, ?_, ht.mem.trans (mem_modAux s c _), ht.cores.trans (cores_modAux s c _), hother, hown, hlog⟩
    exact congrArg Host.Outcome.next (if_pos ⟨hc, hst⟩)
  case overload =>
    obtain ⟨ht, -, hown, -⟩ := auxTrips_effect s c 2
    refine ⟨auxTrips s c 2, congrArg Host.Outcome.next (if_pos ⟨hc, hst⟩), ht.mem.trans (mem_modAux s c _), ?_⟩
    rw [hown]
    exact ⟨rfl, rfl, rfl⟩
  case retry =>
    have honly := (auxOnly_modAux s c (fun a => { a with retry := a.retry + 1 })).trans (auxOnly_modAux _ c (fun a =>
      { a with
        st := if c < 4 then 1 else 2
        vset := fanVolt (modAux s c (fun a => { a with retry := a.retry + 1 })) c
        ofVstby := !auxFull (modAux s c (fun a => { a with retry := a.retry + 1 })) }))
    refine ⟨_, exec_auxRetry hc hst hlatch hcause hretry hwant, ?_, ?_⟩
    · rw [auxStart, honly]
    rw [auxStart, auxCh_modAux, auxCh_modAux]
    exact ⟨rfl, rfl⟩
  case standby =>
    refine ⟨(List.range 6).foldl standbyTrip s, exec_auxStandbyTrip s, ?_, ?_, fun c hc => ?_⟩
    · exact List.foldlRecOn (motive := fun t : State => t.mem = s.mem) _ _ rfl fun t ht c _ => (runs_standbyTrip t c).1.trans ht
    · exact List.foldlRecOn (motive := fun t : State => t.cores = s.cores) _ _ rfl fun t ht c _ => (runs_standbyTrip t c).2.trans ht
    · have h := foldl_at (get := State.auxCh) (g := fun _ a => if opens a then trippedAux a 4 else a) standbyTrip_self standbyTrip_ne
        List.nodup_range s (List.mem_range.2 hc)
      rw [h]
      simp only [← opens_iff]
      refine ⟨fun ho => ?_, fun ho => ?_⟩
      · rw [if_pos ho]
        exact ⟨rfl, rfl⟩
      · rw [if_neg ho]
  case stall =>
    obtain ⟨t, hexec, ht⟩ := fanStall_effect rpm hc hst
    refine ⟨t, hexec, ht.mem.trans (mem_modAux s c _), ht.cores.trans (cores_modAux s c _), ?_⟩
    rw [auxCh_of_pwr ht.pwr, auxCh_modAux]

end Sys2Proof.Machine
end

section
/-!
SUPPORT. Link frames at one port (R291 to R294, R317, R318, R387).
-/

namespace Sys2Proof.Machine

/-! ### What happens at one port -/

/-- Of `s`, `t` changes port `p`, the counters of shared blocks and what the device shows, at most. -/
def AtPort (p : Nat) (s t : State) : Prop :=
  t = { s with links := { s.links with ports := t.links.ports }, shared := t.shared, out := t.out } ∧ ∀ q, q ≠ p → t.port q = s.port q

theorem AtPort.refl (p : Nat) (s : State) : AtPort p s s := ⟨rfl, fun _ _ => rfl⟩

theorem AtPort.trans {p : Nat} {s t u : State} (h : AtPort p s t) (k : AtPort p t u) : AtPort p s u := by
  refine ⟨?_, fun q hq => (k.2 q hq).trans (h.2 q hq)⟩
  rw [k.1, h.1]

section
variable {p : Nat} {s t : State} (h : AtPort p s t)
include h

theorem AtPort.mem : t.mem = s.mem := by rw [h.1]
theorem AtPort.cores : t.cores = s.cores := by rw [h.1]
theorem AtPort.devId : t.devId = s.devId := by rw [h.1]
theorem AtPort.ech : t.ech = s.ech := by rw [h.1]
theorem AtPort.keys : t.links.keys = s.links.keys := by rw [h.1]
theorem AtPort.dieEcho (l : Nat) : dieEcho t l = dieEcho s l := by rw [h.1]; rfl
theorem AtPort.cfgNum (a b i d : Nat) : cfgNum t a b i d = cfgNum s a b i d := by rw [h.1]; rfl
theorem AtPort.portOnly : PortOnly s t p := ⟨h.mem, h.cores, h.2⟩

end

theorem port_modPort (s : State) (p : Nat) (f : Port → Port) : (modPort s p f).port p = f (s.port p) := by
  rw [State.port, modPort, modLinks, mget_mset]

theorem port_modPort_ne (s : State) {p q : Nat} (f : Port → Port) (h : q ≠ p) : (modPort s p f).port q = s.port q := by
  rw [State.port, State.port, modPort, modLinks]
  exact mget_mset_ne _ _ _ h

theorem atPort_modPort (s : State) (p : Nat) (f : Port → Port) : AtPort p s (modPort s p f) :=
  ⟨rfl, fun _ hq => port_modPort_ne s f hq⟩

theorem port_countShared (s : State) (b code cls n plane q : Nat) : (countShared s b code cls n plane).port q = s.port q := rfl

theorem atPort_countShared (s : State) (p b code cls n plane : Nat) : AtPort p s (countShared s b code cls n plane) :=
  ⟨rfl, fun _ _ => rfl⟩

theorem atPort_emit (s : State) (p : Nat) (o : Output) : AtPort p s (emit s o) := ⟨rfl, fun _ _ => rfl⟩

theorem atPort_modVc (s : State) (p v : Nat) (f : LinkVc → LinkVc) : AtPort p s (modVc s p v f) := atPort_modPort s p _

/-- Of port `k`, `k'` changes its virtual channels alone. -/
def VcsOnly (k k' : Port) : Prop := k' = { k with vcs := k'.vcs }

theorem VcsOnly.refl (k : Port) : VcsOnly k k := rfl

section
variable {k k' : Port} (h : VcsOnly k k')
include h

theorem VcsOnly.st : k'.st = k.st := by rw [h]
theorem VcsOnly.eth : k'.eth = k.eth := by rw [h]
theorem VcsOnly.enc : k'.enc = k.enc := by rw [h]
theorem VcsOnly.bundle : k'.bundle = k.bundle := by rw [h]
theorem VcsOnly.rxSeq : k'.rxSeq = k.rxSeq := by rw [h]
theorem VcsOnly.txSeq : k'.txSeq = k.txSeq := by rw [h]
theorem VcsOnly.nakOut : k'.nakOut = k.nakOut := by rw [h]
theorem VcsOnly.unacked : k'.unacked = k.unacked := by rw [h]
theorem VcsOnly.keyWant : k'.keyWant = k.keyWant := by rw [h]

end

theorem VcsOnly.trans {k k' k'' : Port} (h : VcsOnly k k') (h' : VcsOnly k' k'') : VcsOnly k k'' := by
  rw [VcsOnly] at h h' ⊢
  rw [h', h]

theorem port_modVc (s : State) (p v : Nat) (f : LinkVc → LinkVc) :
    (modVc s p v f).port p = { s.port p with vcs := mset (s.port p).vcs v (f ((s.port p).vc v)) } := port_modPort s p _

theorem vcsOnly_modVc (s : State) (p v : Nat) (f : LinkVc → LinkVc) : VcsOnly (s.port p) ((modVc s p v f).port p) := by
  rw [port_modVc]
  exact rfl

theorem vc_modVc (s : State) (p v : Nat) (f : LinkVc → LinkVc) : ((modVc s p v f).port p).vc v = f ((s.port p).vc v) := by
  rw [port_modVc, Port.vc, mget_mset]

theorem vc_modVc_ne (s : State) (p : Nat) {v w : Nat} (f : LinkVc → LinkVc) (h : w ≠ v) :
    ((modVc s p v f).port p).vc w = (s.port p).vc w := by
  rw [port_modVc]
  exact mget_mset_ne _ _ _ h

/-! ### Frames leave (R291, R294, R316) -/

/-- What stamping a frame changes of a port: the count of frames sealed and the credits to return. -/
def StampPort (k k' : Port) : Prop :=
  k' = { k with sealed_ := k'.sealed_, vcs := k'.vcs } ∧ ∀ v, k'.vc v = { k.vc v with credRet := (k'.vc v).credRet }

theorem StampPort.refl (k : Port) : StampPort k k := ⟨rfl, fun _ => rfl⟩

section
variable {k k' : Port} (h : StampPort k k')
include h

theorem StampPort.rxSeq : k'.rxSeq = k.rxSeq := by rw [h.1]
theorem StampPort.nakOut : k'.nakOut = k.nakOut := by rw [h.1]

end

theorem StampPort.trans {k k' k'' : Port} (h : StampPort k k') (h' : StampPort k' k'') : StampPort k k'' := by
  refine ⟨?_, fun v => ?_⟩
  · rw [h'.1, h.1]
  · rw [h'.2 v, h.2 v]

/-- Of frame `f`, `g` is it with its stamps. -/
def FrameStamped (f g : Frame) (ack : BitVec 16) : Prop :=
  g = { f with enc := g.enc, keyid := g.keyid, count := g.count, ack := ack, cred := g.cred, credVc := g.credVc }

theorem sealFrame_effect (s : State) (p : Nat) (on slot : Bool) (f : Frame) : AtPort p s (sealFrame s p on slot f).1 ∧
    (sealFrame s p on slot f).1.out = s.out ∧ StampPort (s.port p) ((sealFrame s p on slot f).1.port p) ∧
    (sealFrame s p on slot f).2 = { f with enc := on && f.type_ != 0, keyid := (sealFrame s p on slot f).2.keyid, count := (sealFrame s p on slot f).2.count } := by
  rw [sealFrame]
  split
  · next h =>
    dsimp only
    refine ⟨atPort_modPort s p _, rfl, ?_, ?_⟩
    · rw [port_modPort]
      exact ⟨rfl, fun _ => rfl⟩
    · have hbody := h.2
      simp [h.1]
      exact hbody
  · next h =>
    refine ⟨AtPort.refl p s, rfl, StampPort.refl _, ?_⟩
    have hoff : (on && f.type_ != 0) = false := by
      cases on <;> simp at h ⊢
      exact h
    rw [hoff]

theorem stampFrame_effect (s : State) (p : Nat) (f : Frame) : AtPort p s (stampFrame s p f).1 ∧ (stampFrame s p f).1.out = s.out ∧
    StampPort (s.port p) ((stampFrame s p f).1.port p) ∧ FrameStamped f (stampFrame s p f).2 ((s.port p).rxSeq - 1) ∧
    (stampFrame s p f).2.enc = ((s.port p).enc && f.type_ != 0) := by
  obtain ⟨hat, hout, hport, hframe⟩ := sealFrame_effect s p (s.port p).enc (s.port p).keyid f
  unfold stampFrame
  generalize sealFrame s p (s.port p).enc (s.port p).keyid f = r at *
  obtain ⟨u, g⟩ := r
  dsimp only at *
  generalize ((List.range 4).find? (fun v => decide (0 < ((u.port p).vc v).credRet))).getD 0 = v
  have hrx : (u.port p).rxSeq = (s.port p).rxSeq := by rw [hport.1]
  refine ⟨hat.trans (atPort_modVc u p v _), hout, hport.trans ⟨?_, fun w => ?_⟩, ?_, ?_⟩
  · rw [port_modVc]
  · by_cases hw : w = v
    · rw [hw, vc_modVc]
    · rw [vc_modVc_ne u p _ hw]
  · rw [hrx, hframe]
    rfl
  · rw [hframe]

theorem sendFrame_effect (s : State) (p : Nat) (f : Frame) : AtPort p s (sendFrame s p f) ∧ (sendFrame s p f).out = s.out ++ [.frame p f] ∧
    (sendFrame s p f).port p = s.port p :=
  ⟨(atPort_countShared s p _ _ _ _ _).trans (atPort_emit _ p _), rfl, rfl⟩

theorem sendNak_effect (s : State) (p cause : Nat) (seqc : BitVec 16) : AtPort p s (sendNak s p cause seqc) ∧
    StampPort (s.port p) ((sendNak s p cause seqc).port p) ∧
    ∃ g, (sendNak s p cause seqc).out = s.out ++ [.frame p g] ∧ g.type_ = 2 ∧ g.cause = BitVec.ofNat 8 cause ∧ g.seqc = seqc := by
  obtain ⟨hat, hout, hport, hframe, -⟩ := stampFrame_effect s p { bareFrame 2 (s.port p).txSeq with cause := BitVec.ofNat 8 cause, seqc := seqc }
  rw [sendNak]
  generalize stampFrame s p { bareFrame 2 (s.port p).txSeq with cause := BitVec.ofNat 8 cause, seqc := seqc } = r at *
  obtain ⟨u, g⟩ := r
  dsimp only at *
  refine ⟨hat.trans ((atPort_countShared u p _ _ _ _ _).trans (sendFrame_effect _ p g).1), hport, g, ?_, ?_, ?_, ?_⟩
  · rw [← hout]
    rfl
  · rw [hframe]
    rfl
  · rw [hframe]
  · rw [hframe]

/-- R294: the receiver asks once for a replay from the frame it expects. -/
theorem askReplay_effect (s : State) (p : Nat) : AtPort p s (askReplay s p) ∧ ((askReplay s p).port p).rxSeq = (s.port p).rxSeq ∧
    ((askReplay s p).port p).nakOut = true ∧ ((s.port p).nakOut = true → (askReplay s p).out = s.out) ∧
    ((s.port p).nakOut = false → ∃ g, (askReplay s p).out = s.out ++ [.frame p g] ∧ g.type_ = 2 ∧ g.cause = 1 ∧ g.seqc = (s.port p).rxSeq) := by
  rw [askReplay]
  cases hn : (s.port p).nakOut with
  | true => exact ⟨AtPort.refl p s, rfl, hn, fun _ => rfl, nofun⟩
  | false =>
    obtain ⟨hat, hport, hsent⟩ := sendNak_effect (modPort s p (fun k => { k with nakOut := true })) p 1 (s.port p).rxSeq
    refine ⟨(atPort_modPort s p _).trans hat, ?_, ?_, nofun, fun _ => hsent⟩
    · exact hport.rxSeq.trans (by rw [port_modPort])
    · exact hport.nakOut.trans (by rw [port_modPort])

/-! ### Frames arrive (R291 to R294, R312) -/

/-- A frame that passes the checks of any frame is counted. -/
theorem frameChecks_ok {s : State} {p : Nat} {f : Frame} (h : FrameOk s p f) :
    frameChecks s p f = (countShared s (portBlk p) 1 16 1 3, true) := by
  obtain ⟨-, hcrc, htype, hflits, hform, henc, hver, htag, -⟩ := h
  have hkey : ¬ (f.type_.toNat = 5 ∧ (s.port p).ver ≠ 2) := by
    rintro ⟨h5, hne⟩
    exact hne (hver (BitVec.eq_of_toNat_eq h5))
  rw [frameChecks]
  rw [if_neg (by simp [hcrc]), if_neg (by simp [hform]; omega), if_neg (by simp only [henc, bne_self_eq_false, Bool.false_eq_true, false_or]; exact hkey),
    if_neg (by simp [htag])]

theorem frameChecks_crc {s : State} {p : Nat} {f : Frame} (h : f.crcOk = false) :
    frameChecks s p f = (askReplay (countShared s (portBlk p) 1 16 1 3) p, false) := by
  rw [frameChecks]
  rw [if_pos (by simp [h])]

/-- The state after a frame's acknowledgement and credit have been taken. -/
def ackTaken (s : State) (p : Nat) (f : Frame) : State := takeCred (takeAck s p f.ack) p f.credVc f.cred

/-- The same, of a frame that is counted. -/
def acked (s : State) (p : Nat) (f : Frame) : State := ackTaken (countShared s (portBlk p) 1 16 1 3) p f

/-- A virtual channel as a frame that returns its credit leaves it. -/
def credited (f : Frame) (v : Nat) (c : LinkVc) : LinkVc := if v = f.credVc.toNat then { c with txCred := c.txCred + f.cred } else c

theorem takeAck_ok {s : State} {p : Nat} {ack : BitVec 16} (h : ((s.port p).txSeq - 1 - ack).toNat < 32768) : takeAck s p ack =
    modPort s p (fun k => { k with unacked := k.unacked.drop (k.unacked.length - ((s.port p).txSeq - 1 - ack).toNat) }) := by
  rw [takeAck]
  rw [if_neg (by omega)]

theorem takeCred_effect (s : State) (p : Nat) (f : Frame) : AtPort p s (takeCred s p f.credVc f.cred) ∧ (takeCred s p f.credVc f.cred).out = s.out ∧
    VcsOnly (s.port p) ((takeCred s p f.credVc f.cred).port p) ∧
    ∀ v, ((takeCred s p f.credVc f.cred).port p).vc v = credited f v ((s.port p).vc v) := by
  rw [takeCred]
  split
  · next h => exact ⟨AtPort.refl p s, rfl, VcsOnly.refl _, fun v => by rw [credited, h]; split <;> rfl⟩
  · refine ⟨atPort_modVc s p _ _, rfl, vcsOnly_modVc s p _ _, fun v => ?_⟩
    rw [credited]
    split
    · next hv => rw [hv, vc_modVc]
    · next hv => rw [vc_modVc_ne s p _ hv]

theorem ackTaken_effect {s : State} {p : Nat} {f : Frame} (hback : ((s.port p).txSeq - 1 - f.ack).toNat < 32768) : AtPort p s (ackTaken s p f) ∧
    (ackTaken s p f).out = s.out ∧ VcsOnly { s.port p with unacked := stillSent s p f } ((ackTaken s p f).port p) ∧
    ∀ v, ((ackTaken s p f).port p).vc v = credited f v ((s.port p).vc v) := by
  have hack := takeAck_ok hback
  have hport : (takeAck s p f.ack).port p = { s.port p with unacked := stillSent s p f } := by
    rw [hack, port_modPort]
    rfl
  have hat : AtPort p s (takeAck s p f.ack) := by
    rw [hack]
    exact atPort_modPort _ p _
  have hout : (takeAck s p f.ack).out = s.out := by
    rw [hack]
    rfl
  rw [ackTaken]
  generalize takeAck s p f.ack = u at *
  obtain ⟨hat', hout', hvcs, hvc⟩ := takeCred_effect u p f
  rw [hport] at hvcs hvc
  exact ⟨hat.trans hat', hout'.trans hout, hvcs, hvc⟩

theorem acked_effect {s : State} {p : Nat} {f : Frame} (h : FrameOk s p f) : AtPort p s (acked s p f) ∧ (acked s p f).out = s.out ∧
    VcsOnly { s.port p with unacked := stillSent s p f } ((acked s p f).port p) ∧
    ∀ v, ((acked s p f).port p).vc v = credited f v ((s.port p).vc v) := by
  obtain ⟨hat, hrest⟩ := ackTaken_effect (s := countShared s (portBlk p) 1 16 1 3) (p := p) (f := f) h.2.2.2.2.2.2.2.2
  exact ⟨(atPort_countShared s p _ _ _ _ _).trans hat, hrest⟩

theorem nativeUp_of_port {s t : State} {p : Nat} (hst : (t.port p).st = (s.port p).st) (heth : (t.port p).eth = (s.port p).eth) :
    nativeUp t p = nativeUp s p := by
  rw [nativeUp, nativeUp, hst, heth]

theorem nativeUp_acked {s : State} {p : Nat} {f : Frame} (h : FrameOk s p f) : nativeUp (acked s p f) p = true := by
  have hport := (acked_effect h).2.2.1
  exact (nativeUp_of_port hport.st hport.eth).trans h.1

/-! ### What a port sends on (R292, R302) -/

/-- With nothing to send, the sharing of an output chooses nothing. -/
theorem drr_nil {α : Type} (fuel n : Nat) (h : Sharing α) (cur : Nat) (d : Map Nat) : drr fuel n h ([] : List α) cur d = none := by
  induction fuel generalizing cur d with
  | zero => rfl
  | succ fuel ih =>
    have hnext : nextPort n (h.last cur) h.inp ([] : List α) = none := by
      rw [nextPort]
      simp
    rw [drr, List.filter_nil, hnext]
    exact ih _ _

/-- What sending changes of a port. -/
def SendPort (k k' : Port) : Prop := k' = { k with
  sealed_ := k'.sealed_
  vcs := k'.vcs
  txSeq := k'.txSeq
  unacked := k'.unacked
  rrClass := k'.rrClass
  rrPort := k'.rrPort
  deficit := k'.deficit }

theorem SendPort.refl (k : Port) : SendPort k k := rfl

section
variable {k k' : Port} (h : SendPort k k')
include h

theorem SendPort.rxSeq : k'.rxSeq = k.rxSeq := by rw [h]
theorem SendPort.nakOut : k'.nakOut = k.nakOut := by rw [h]

theorem SendPort.trans {k'' : Port} (h' : SendPort k' k'') : SendPort k k'' := by
  rw [SendPort] at h h' ⊢
  rw [h', h]

end

/-- A port has sent on. -/
def Sends (p : Nat) (s t : State) : Prop := AtPort p s t ∧ SendPort (s.port p) (t.port p) ∧ s.out <+: t.out

theorem Sends.refl (p : Nat) (s : State) : Sends p s s := ⟨AtPort.refl p s, .refl _, List.prefix_refl _⟩

theorem Sends.trans {p : Nat} {s t u : State} (h : Sends p s t) (k : Sends p t u) : Sends p s u := by
  obtain ⟨h1, h2, h3⟩ := h
  obtain ⟨k1, k2, k3⟩ := k
  exact ⟨h1.trans k1, h2.trans k2, h3.trans k3⟩

theorem sends_modPort (s : State) (p : Nat) (f : Port → Port) (h : SendPort (s.port p) (f (s.port p))) : Sends p s (modPort s p f) := by
  refine ⟨atPort_modPort s p f, ?_, List.prefix_refl _⟩
  rw [port_modPort]
  exact h

theorem sends_modVc (s : State) (p v : Nat) (f : LinkVc → LinkVc) : Sends p s (modVc s p v f) := sends_modPort s p _ (by exact rfl)

theorem sends_countShared (s : State) (p b code cls n plane : Nat) : Sends p s (countShared s b code cls n plane) :=
  ⟨atPort_countShared s p b code cls n plane, .refl _, List.prefix_refl _⟩

theorem sends_sendFrame (s : State) (p : Nat) (f : Frame) : Sends p s (sendFrame s p f) := by
  obtain ⟨hat, hout, hport⟩ := sendFrame_effect s p f
  refine ⟨hat, ?_, ?_⟩
  · rw [hport]
    exact .refl _
  · rw [hout]
    exact List.prefix_append _ _

theorem sends_stampFrame (s : State) (p : Nat) (f : Frame) : Sends p s (stampFrame s p f).1 := by
  obtain ⟨hat, hout, hport, -⟩ := stampFrame_effect s p f
  refine ⟨hat, ?_, ?_⟩
  · rw [hport.1]
    exact rfl
  · rw [hout]

theorem sends_startPackets (fuel : Nat) (s : State) (p : Nat) : Sends p s (startPackets fuel s p) := by
  induction fuel generalizing s with
  | zero => exact Sends.refl p s
  | succ fuel ih =>
    rw [startPackets]
    dsimp only
    split
    · exact Sends.refl p s
    · exact ((sends_modPort s p _ (by exact rfl)).trans (sends_modVc _ p _ _)).trans (ih _)

theorem sends_sendData (s : State) (p v : Nat) : Sends p s (sendData s p v) := by
  rw [sendData]
  dsimp only
  split
  · exact Sends.refl p s
  · generalize ({ bareFrame 1 (s.port p).txSeq with vc := BitVec.ofNat 2 v, nflit := _, flits := _ } : Frame) = f
    have hstamp := sends_stampFrame s p f
    generalize stampFrame s p f = r at hstamp ⊢
    refine Sends.trans ?_ (sends_sendFrame _ p _)
    refine Sends.trans ?_ (sends_countShared _ p _ _ _ _ _)
    refine Sends.trans ?_ (sends_modPort _ p _ (by exact rfl))
    exact hstamp.trans (sends_modVc _ p v _)

theorem sends_txPump (fuel : Nat) (s : State) (p : Nat) : Sends p s (txPump fuel s p) := by
  induction fuel generalizing s with
  | zero => exact Sends.refl p s
  | succ fuel ih =>
    have hround : Sends p s ((List.range 4).foldl (fun s v => sendData s p v) (startPackets 64 s p)) :=
      List.foldlRecOn (motive := fun t => Sends p s t) _ _ (sends_startPackets 64 s p) fun t ht v _ => ht.trans (sends_sendData t p v)
    rw [txPump]
    split
    · exact hround
    · exact hround.trans (ih _)

/-- A port with nothing to send sends nothing. -/
theorem txPump_idle {s : State} {p : Nat} (h : ∀ v, ((s.port p).vc v).txPkts = [] ∧ ((s.port p).vc v).txCur = []) (fuel : Nat) :
    txPump fuel s p = s := by
  have hstart : startPackets 64 s p = s := by
    have hnone : ((List.range 4).filter (fun v => ((s.port p).vc v).txCur == [] && ((s.port p).vc v).txPkts != [])) = [] := by
      rw [List.filter_eq_nil_iff]
      intro v _
      simp [h v]
    rw [startPackets]
    dsimp only
    rw [hnone, List.flatMap_nil, drr_nil]
  have hdata : ∀ v, sendData s p v = s := fun v => by
    rw [sendData]
    dsimp only
    rw [if_pos (Or.inl (by rw [(h v).2]; simp))]
  cases fuel with
  | zero => rfl
  | succ fuel =>
    have hfold : (List.range 4).foldl (fun s v => sendData s p v) s = s :=
      List.foldlRecOn (motive := fun t => t = s) _ _ rfl fun t ht v _ => by rw [ht, hdata]
    rw [txPump]
    rw [hstart, hfold, if_pos rfl]

end Sys2Proof.Machine
end

section
/-!
SUPPORT. Link frames are acknowledged (R291 to R294, R317, R318, R387).
-/

namespace Sys2Proof.Machine

theorem sends_sendIdle (s : State) (p : Nat) : Sends p s (sendIdle s p) := by
  have hstamp := sends_stampFrame s p (bareFrame 0 (s.port p).txSeq)
  rw [sendIdle]
  generalize stampFrame s p (bareFrame 0 (s.port p).txSeq) = r at hstamp ⊢
  exact hstamp.trans (sends_sendFrame _ p _)

theorem sends_answerFrame (s : State) (p : Nat) : Sends p s (answerFrame s p) := by
  rw [answerFrame]
  dsimp only
  split
  · exact Sends.refl p s
  split
  · exact (sends_txPump 300 s p).trans (sends_sendIdle _ p)
  · exact sends_txPump 300 s p

/-! ### A DATA frame (R294, R314) -/

/-- The state after a packet has arrived whole: its flits leave their buffer. -/
theorem pktWhole_effect (s : State) (p v : Nat) (k : LinkPkt) : Sends p s (pktWhole s p v k) ∧ .linkPkt p k ∈ (pktWhole s p v k).out := by
  refine ⟨?_, List.mem_append_right _ (List.mem_singleton_self _)⟩
  rw [pktWhole, leaveBuf]
  refine Sends.trans ?_ ⟨atPort_emit _ p _, .refl _, List.prefix_append _ _⟩
  exact (sends_modVc s p v _).trans (sends_modVc _ p v _)

/-- A frame that holds the header of a packet without data brings the packet whole. -/
theorem rxFlits_header {s : State} {p v : Nat} (seq : BitVec 16) {k : LinkPkt} (hup : nativeUp s p = true) (hrx : ((s.port p).vc v).rx = .none)
    (hroom : ((s.port p).vc v).rxUsed + ((s.port p).vc v).credRet < 1088) (hopc : knownOpc k.opc = true) (hlen : k.len = 0)
    (hsrc : srcAdmits s p k.sdev = true) : rxFlits s p v seq [.header k] =
      pktWhole (modVc s p v (fun c => { c with rxUsed := c.rxUsed + 1 })) p v { k with data := [], vc1 := decide (v % 2 = 1) } := by
  have hrx' : (((modVc s p v (fun c => { c with rxUsed := c.rxUsed + 1 })).port p).vc v).rx = .none := by
    rw [vc_modVc]
    exact hrx
  have hsrc' : srcAdmits (modVc s p v (fun c => { c with rxUsed := c.rxUsed + 1 })) p k.sdev = true := hsrc
  rw [rxFlits, if_neg (by simp [hup]), if_neg (by omega), rxFlits, rxFlit]
  dsimp only
  rw [hrx']
  dsimp only
  rw [if_neg (by simp [hopc, hlen]), if_neg (by simp [hsrc']), if_pos hlen]

/-- The port as a frame in order has been taken. -/
def taken (s : State) (p : Nat) : State :=
  modPort (countShared s (portBlk p) 1 16 1 3) p (fun k =>
    { k with
      rxSeq := k.rxSeq + 1
      nakOut := false })

theorem exec_dataFrame {s : State} {p : Nat} {f : Frame} (h : FrameOk s p f) (hseq : f.seq = (s.port p).rxSeq) :
    exec (.dataFrame p f) s = .next (answerFrame (rxFlits
      (countShared (ackTaken (taken s p) p f) (portBlk p) 3 16 f.flits.length 3) p f.vc.toNat f.seq f.flits) p) := by
  change Host.Outcome.next _ = _
  rw [if_neg (by simp [h.1]), frameChecks_ok h]
  dsimp only
  rw [if_neg (by simp), if_neg (by rw [port_countShared, hseq]; simp)]
  rfl

theorem exec_dataFrame_asks {s : State} {p : Nat} {f : Frame} (hup : nativeUp s p = true)
    (hbad : f.crcOk = false ∨ (FrameOk s p f ∧ f.seq ≠ (s.port p).rxSeq)) :
    exec (.dataFrame p f) s = .next (askReplay (countShared s (portBlk p) 1 16 1 3) p) := by
  change Host.Outcome.next _ = _
  rw [if_neg (by simp [hup])]
  obtain hcrc | ⟨hok, hseq⟩ := hbad
  · rw [frameChecks_crc hcrc]
    rfl
  · rw [frameChecks_ok hok]
    dsimp only
    rw [if_neg (by simp), if_pos (by rw [port_countShared]; simpa using hseq)]

/-- R294, R314: what a frame in order brings that holds the header of a packet without data. -/
theorem dataFrame_effect {s : State} {p : Nat} {f : Frame} {k : LinkPkt} (h : FrameOk s p f) (hseq : f.seq = (s.port p).rxSeq)
    (hflits : f.flits = [.header k]) (hrx : ((s.port p).vc f.vc.toNat).rx = .none)
    (hroom : ((s.port p).vc f.vc.toNat).rxUsed + ((s.port p).vc f.vc.toNat).credRet < 1088) (hopc : knownOpc k.opc = true) (hlen : k.len = 0)
    (hsrc : srcAdmits s p k.sdev = true) :
    ∃ t, exec (.dataFrame p f) s = .next t ∧ t.mem = s.mem ∧ t.cores = s.cores ∧ (t.port p).rxSeq = (s.port p).rxSeq + 1 ∧
      (t.port p).nakOut = false ∧ .linkPkt p { k with data := [], vc1 := decide (f.vc.toNat % 2 = 1) } ∈ t.out := by
  have htaken : (taken s p).port p = { s.port p with rxSeq := (s.port p).rxSeq + 1, nakOut := false } := port_modPort _ p _
  have hattaken : AtPort p s (taken s p) := (atPort_countShared s p _ _ _ _ _).trans (atPort_modPort _ p _)
  obtain ⟨hat, -, hvcs, hvc⟩ := ackTaken_effect (s := taken s p) (p := p) (f := f) (by rw [htaken]; exact h.2.2.2.2.2.2.2.2)
  have hexec := exec_dataFrame h hseq
  rw [hflits] at hexec
  rw [htaken] at hvcs hvc
  have hv : ((ackTaken (taken s p) p f).port p).vc f.vc.toNat = credited f f.vc.toNat ((s.port p).vc f.vc.toNat) := hvc _
  have hkeeps : ∀ c : LinkVc, (credited f f.vc.toNat c).rx = c.rx ∧ (credited f f.vc.toNat c).rxUsed = c.rxUsed ∧
      (credited f f.vc.toNat c).credRet = c.credRet := fun c => by
    rw [credited]
    split <;> exact ⟨rfl, rfl, rfl⟩
  obtain ⟨hk1, hk2, hk3⟩ := hkeeps ((s.port p).vc f.vc.toNat)
  have hat' := hattaken.trans hat
  have hup : nativeUp (ackTaken (taken s p) p f) p = true := (nativeUp_of_port hvcs.st hvcs.eth).trans h.1
  have hsrc' : srcAdmits (ackTaken (taken s p) p f) p k.sdev = true := by
    rw [hat'.1]
    exact hsrc
  have hrxseq := hvcs.rxSeq
  have hnak := hvcs.nakOut
  generalize ackTaken (taken s p) p f = u at *
  have hrxf := rxFlits_header (s := countShared u (portBlk p) 3 16 1 3) (p := p) (v := f.vc.toNat) f.seq (k := k) hup
    (by rw [port_countShared, hv, hk1]; exact hrx) (by rw [port_countShared, hv, hk2, hk3]; exact hroom) hopc hlen hsrc'
  obtain ⟨hwhole, hmem⟩ := pktWhole_effect (modVc (countShared u (portBlk p) 3 16 1 3) p f.vc.toNat (fun c => { c with rxUsed := c.rxUsed + 1 }))
    p f.vc.toNat { k with data := [], vc1 := decide (f.vc.toNat % 2 = 1) }
  rw [← hrxf] at hwhole hmem
  have hfirst : Sends p u (rxFlits (countShared u (portBlk p) 3 16 1 3) p f.vc.toNat f.seq [.header k]) :=
    (sends_countShared u p _ _ _ _ _).trans ((sends_modVc _ p _ _).trans hwhole)
  generalize rxFlits (countShared u (portBlk p) 3 16 1 3) p f.vc.toNat f.seq [.header k] = w at *
  have hlast := sends_answerFrame w p
  obtain ⟨hall, hsent, -⟩ := hfirst.trans hlast
  exact ⟨_, hexec, hall.mem.trans hat'.mem, hall.cores.trans hat'.cores, hsent.rxSeq.trans hrxseq, hsent.nakOut.trans hnak, hlast.2.2.subset hmem⟩

/-! ### IDLE and NAK frames (R291, R294, R312) -/

/-- R294: what a replay sends again. -/
theorem replayFrom_effect (s : State) (p : Nat) (seq : BitVec 16) : AtPort p s (replayFrom s p seq) ∧
    (replayFrom s p seq).out = s.out ++ ((s.port p).unacked.dropWhile (fun f => f.frame.seq != seq)).map (fun g => .frame p g.frame) ∧
    (replayFrom s p seq).port p = { s.port p with
      replay := if (s.port p).unacked.dropWhile (fun f => f.frame.seq != seq) = [] then (s.port p).replay else satInc (s.port p).replay 1 } := by
  have hsends : ∀ (fs : List SentFrame) (u : State), AtPort p u (fs.foldl (fun s f => sendFrame s p f.frame) u) ∧
      (fs.foldl (fun s f => sendFrame s p f.frame) u).out = u.out ++ fs.map (fun g => .frame p g.frame) ∧
      (fs.foldl (fun s f => sendFrame s p f.frame) u).port p = u.port p := fun fs => by
    induction fs with
    | nil => exact fun u => ⟨AtPort.refl p u, (List.append_nil _).symm, rfl⟩
    | cons f fs ih =>
      intro u
      obtain ⟨h1, h2, h3⟩ := sendFrame_effect u p f.frame
      obtain ⟨k1, k2, k3⟩ := ih (sendFrame u p f.frame)
      refine ⟨h1.trans k1, ?_, k3.trans h3⟩
      rw [List.foldl_cons, k2, h2, List.map_cons, List.append_assoc]
      rfl
  rw [replayFrom]
  dsimp only
  split
  · next hnil =>
    rw [hnil]
    exact ⟨AtPort.refl p s, (List.append_nil _).symm, rfl⟩
  · obtain ⟨h1, h2, h3⟩ := hsends ((s.port p).unacked.dropWhile (fun f => f.frame.seq != seq))
      (countShared (modPort s p (fun k => { k with replay := satInc k.replay 1 })) (portBlk p) 4 16 1 3)
    refine ⟨(atPort_modPort s p _).trans ((atPort_countShared _ p _ _ _ _ _).trans h1), h2, ?_⟩
    rw [h3, port_countShared, port_modPort]

theorem exec_idleFrame {s : State} {p : Nat} {f : Frame} (h : FrameOk s p f) :
    exec (.idleFrame p f) s = .next (txPump 300 (acked s p f) p) := by
  have hup := nativeUp_acked h
  change Host.Outcome.next _ = _
  rw [if_neg (by simp [h.1]), frameChecks_ok h]
  dsimp only
  rw [if_neg (by simp)]
  exact congrArg Host.Outcome.next (if_pos hup)

/-- The state as a NAK has been counted and kept. -/
def nakKept (s : State) (p : Nat) (f : Frame) : State :=
  modPort (countShared (acked s p f) (portBlk p) 6 16 1 3) p (fun k => { k with lastNak := some (f.cause.toNat, f.seqc.toNat) })

theorem exec_nakFrame {s : State} {p : Nat} {f : Frame} (h : FrameOk s p f) :
    exec (.nakFrame p f) s = .next (if f.cause.toNat = 1 then replayFrom (nakKept s p f) p f.seqc else nakKept s p f) := by
  change Host.Outcome.next _ = _
  rw [if_neg (by simp [h.1]), frameChecks_ok h]
  rfl

/-! ### Beacons (R318, R387) -/

theorem exec_beaconSend {s : State} {p : Nat} (h : nativeUp s p = true) : ∃ f u, AtPort p s u ∧ u.out = s.out ∧
    FrameStamped (bareFrame 3 (s.port p).txSeq) f ((s.port p).rxSeq - 1) ∧ f.enc = (s.port p).enc ∧
    exec (.beaconSend p) s = .next (emit (countShared u (portBlk p) 0 16 1 3) (.beacon p f (beaconOf s p))) := by
  obtain ⟨hat, hout, -, hframe, henc⟩ := stampFrame_effect s p (bareFrame 3 (s.port p).txSeq)
  refine ⟨_, _, hat, hout, hframe, henc.trans (by simp [bareFrame]), ?_⟩
  exact congrArg Host.Outcome.next (if_pos h)

/-- R387: one port's part in the choice of the upstream. -/
def upStep (s : State) (best : Option (Nat × Nat)) (q : Nat) : Option (Nat × Nat) :=
  match nativeUp s q, (s.port q).beacon with
  | true, some b =>
    let d := b.dist.toNat
    if d = 0xFF then best
    else
      match best with
      | some (_, d') => if d < d' then some (q, d) else best
      | none => some (q, d)
  | _, _ => best

theorem bestUpstream_eq (s : State) : bestUpstream s = (List.range 40).foldl (upStep s) none := rfl

theorem upStep_silent {s : State} {q : Nat} (h : (s.port q).beacon = none) (best : Option (Nat × Nat)) : upStep s best q = best := by
  rw [upStep, h]
  cases nativeUp s q <;> rfl

/-- R387: the one partner that has sent a beacon is the upstream. -/
theorem bestUpstream_only {s : State} {p : Nat} {b : Beacon} (hup : nativeUp s p = true) (hb : (s.port p).beacon = some b)
    (hothers : ∀ q, q ≠ p → (s.port q).beacon = none) (hd : b.dist.toNat < 255) : bestUpstream s = some (p, b.dist.toNat) := by
  have hsilent : ∀ (l : List Nat) (best : Option (Nat × Nat)), p ∉ l → l.foldl (upStep s) best = best := fun l best hl =>
    List.foldlRecOn (motive := fun x => x = best) _ _ rfl fun x hx q hq => by
      rw [upStep_silent (hothers q (ne_of_mem_of_not_mem hq hl)), hx]
  have hown : upStep s none p = some (p, b.dist.toNat) := by
    rw [upStep, hup, hb]
    exact if_neg (by omega)
  have hmem : p ∈ List.range 40 := by
    rw [nativeUp] at hup
    simp at hup ⊢
    exact hup.1.1
  obtain ⟨l, r, hlr⟩ := List.append_of_mem hmem
  have hn := List.nodup_range (n := 40)
  rw [hlr, List.nodup_append] at hn
  obtain ⟨-, hr, hl⟩ := hn
  rw [bestUpstream_eq, hlr, List.foldl_append, List.foldl_cons, hsilent l none (fun h => hl p h p List.mem_cons_self rfl), hown,
    hsilent r _ (List.nodup_cons.1 hr).1]

/-- R386, R387: under LINK the one partner is chosen, and the distance is one more than its own. -/
theorem chooseUpstream_only {s : State} {p d : Nat} (hbest : bestUpstream s = some (p, d)) (hsrc : cfgNum s 0x20 0x0011 0 1 = 1)
    (hroot : cfgNum s 0x20 0x0013 0 0 = 0) : ∃ e : EchoM, chooseUpstream s = { s with ech := e } ∧ e.src = 1 ∧ e.upPort = some p ∧ e.dist = d + 1 := by
  have hsrc' : echoSource s = 1 := hsrc
  rw [chooseUpstream, if_pos ⟨hsrc', hroot⟩, hbest]
  dsimp only
  generalize hu : modEch s _ = u
  have hdist : echoDist u = d + 1 := by
    have hroot' : cfgNum u 0x20 0x0013 0 0 = 0 := by
      rw [← hu]
      exact hroot
    have hbest' : bestUpstream u = some (p, d) := by
      rw [← hu]
      exact hbest
    have hone : u.ech.src = 1 := by
      rw [← hu]
      rfl
    rw [echoDist, hroot', hone, hbest']
    rfl
  refine ⟨{ u.ech with dist := echoDist u }, ?_, ?_, ?_, hdist⟩
  · rw [← hu]
    rfl
  · rw [← hu]
    rfl
  · rw [← hu]
    rfl

/-- The state as a beacon has been kept. -/
def beaconKept (s : State) (p : Nat) (f : Frame) (b : Beacon) : State :=
  modPort (acked s p f) p (fun k => { k with beacon := some { b with arrived := dieEcho (acked s p f) (p / 5) } })

/-- R318: the state as the offset to the upstream has been measured. -/
def measured (s : State) (p : Nat) (b : Beacon) : State :=
  if s.ech.src = 1 ∧ s.ech.upPort = some p ∧ b.lastTx ≠ 0 then
    modEch s (fun e =>
      { e with
        pend := beaconOffset b
        ofs := beaconOffset b })
  else s

theorem exec_beaconFrame {s : State} {p : Nat} {f : Frame} (b : Beacon) (h : FrameOk s p f) : exec (.beaconFrame p ⟨f, b⟩) s =
    .next (measured (chooseUpstream (beaconKept s p f b)) p { b with arrived := dieEcho (acked s p f) (p / 5) }) := by
  change Host.Outcome.next _ = _
  rw [if_neg (by simp [h.1]), frameChecks_ok h]
  rfl

/-- R318, R387: what a beacon of the one partner brings. -/
theorem beaconFrame_effect {s : State} {p : Nat} {f : Frame} {b : Beacon} (h : FrameOk s p f) (hothers : ∀ q, q ≠ p → (s.port q).beacon = none)
    (hsrc : cfgNum s 0x20 0x0011 0 1 = 1) (hroot : cfgNum s 0x20 0x0013 0 0 = 0) (hd : b.dist.toNat < 255) :
    ∃ t, exec (.beaconFrame p ⟨f, b⟩) s = .next t ∧ PortOnly s t p ∧
      (t.port p).beacon = some { b with arrived := dieEcho s (p / 5) } ∧ (t.port p).unacked = stillSent s p f ∧ t.ech.src = 1 ∧
      t.ech.upPort = some p ∧ t.ech.dist = b.dist.toNat + 1 ∧
      (b.lastTx ≠ 0 → t.ech.pend =
        (((b.lastRx.toNat : Int) - b.lastTx.toNat) + ((b.sent.toNat : Int) - (dieEcho s (p / 5)).toNat)) / 2) := by
  have hexec := exec_beaconFrame b h
  obtain ⟨hat, -, hvcs, -⟩ := acked_effect h
  have hup := nativeUp_acked h
  rw [beaconKept] at hexec
  rw [hat.dieEcho] at hexec
  generalize acked s p f = u at *
  have hport := port_modPort u p (fun k => { k with beacon := some { b with arrived := dieEcho s (p / 5) } })
  have hat' := hat.trans (atPort_modPort u p (fun k => { k with beacon := some { b with arrived := dieEcho s (p / 5) } }))
  generalize modPort u p _ = w at *
  have hbest : bestUpstream w = some (p, b.dist.toNat) := by
    refine bestUpstream_only (b := { b with arrived := dieEcho s (p / 5) }) ?_ ?_ ?_ hd
    · exact (nativeUp_of_port (by rw [hport]) (by rw [hport])).trans hup
    · rw [hport]
    · intro q hq
      rw [hat'.2 q hq]
      exact hothers q hq
  obtain ⟨e, he, h1, h2, h3⟩ := chooseUpstream_only hbest (by rw [hat'.cfgNum]; exact hsrc) (by rw [hat'.cfgNum]; exact hroot)
  rw [he] at hexec
  refine ⟨_, hexec, ?_⟩
  have hunacked : (w.port p).unacked = stillSent s p f := by
    rw [hport]
    exact hvcs.unacked
  have hbeacon : (w.port p).beacon = some { b with arrived := dieEcho s (p / 5) } := by rw [hport]
  rw [measured]
  split
  · exact ⟨hat'.portOnly, hbeacon, hunacked, h1, h2, h3, fun _ => rfl⟩
  · next hno => exact ⟨hat'.portOnly, hbeacon, hunacked, h1, h2, h3, fun hne => absurd ⟨h1, h2, hne⟩ hno⟩

/-! ### KEY frames (R317) -/

/-- R317: a bundle's key slot in use. -/
def slotUsed (s : State) (b : Nat) (slot : Bool) : State := modLinks s (fun l => { l with keyUse := mset l.keyUse b slot })

theorem portOnly_slotUsed (s : State) (p b : Nat) (slot : Bool) : PortOnly s (slotUsed s b slot) p := ⟨rfl, rfl, fun _ _ => rfl⟩

theorem PortOnly.trans {s t u : State} {p : Nat} (h : PortOnly s t p) (k : PortOnly t u p) : PortOnly s u p :=
  ⟨k.1.trans h.1, k.2.1.trans h.2.1, fun q hq => (k.2.2 q hq).trans (h.2.2 q hq)⟩

theorem exec_keyFrame {s : State} {p : Nat} {f : Frame} (h : FrameOk s p f) : exec (.keyFrame p f) s = .next (
    if ((acked s p f).port p).keyWant = some f.keyid then
      modPort (slotUsed (acked s p f) ((acked s p f).port p).bundle f.keyid) p (fun k => { k with keyid := f.keyid, keyWant := none })
    else if (mfind (acked s p f).links.keys (2 * ((acked s p f).port p).bundle + (if f.keyid then 1 else 0))).isSome then
      modPort (sendFrame (slotUsed (stampFrame (acked s p f) p (bareFrame 5 ((acked s p f).port p).txSeq)).1 ((acked s p f).port p).bundle f.keyid) p
        { (stampFrame (acked s p f) p (bareFrame 5 ((acked s p f).port p).txSeq)).2 with keyid := f.keyid }) p (fun k => { k with keyid := f.keyid })
    else acked s p f) := by
  change Host.Outcome.next _ = _
  rw [if_neg (by simp [h.1]), frameChecks_ok h]
  rfl

/-- R317: a KEY frame for the slot that was asked for changes the slot. -/
theorem keyFrame_wanted {s : State} {p : Nat} {f : Frame} (h : FrameOk s p f) (hwant : (s.port p).keyWant = some f.keyid) :
    ∃ t, exec (.keyFrame p f) s = .next t ∧ PortOnly s t p ∧ t.out = s.out ∧
      (t.port p).keyid = f.keyid ∧ (t.port p).keyWant = none ∧ mget false t.links.keyUse (s.port p).bundle = f.keyid := by
  obtain ⟨hat, hout, hvcs, -⟩ := acked_effect h
  have hexec := exec_keyFrame h
  rw [if_pos (hvcs.keyWant.trans hwant), hvcs.bundle] at hexec
  generalize acked s p f = u at *
  refine ⟨_, hexec, ?_, hout, ?_, ?_, ?_⟩
  · exact (hat.portOnly.trans (portOnly_slotUsed u p _ _)).trans (atPort_modPort _ p _).portOnly
  · rw [port_modPort]
  · rw [port_modPort]
  · exact mget_mset _ _ _ _

/-- R317: another that names a slot with a key is answered by a KEY frame, and changes the slot. -/
theorem keyFrame_asked {s : State} {p : Nat} {f : Frame} (h : FrameOk s p f) (hwant : (s.port p).keyWant ≠ some f.keyid)
    (hkey : (mfind s.links.keys (2 * (s.port p).bundle + (if f.keyid then 1 else 0))).isSome = true) :
    ∃ t g, exec (.keyFrame p f) s = .next t ∧ PortOnly s t p ∧ t.out = s.out ++ [.frame p g] ∧ g.type_ = 5 ∧
      g.keyid = f.keyid ∧ (t.port p).keyid = f.keyid ∧ mget false t.links.keyUse (s.port p).bundle = f.keyid := by
  obtain ⟨hat, hout, hvcs, -⟩ := acked_effect h
  have hexec := exec_keyFrame h
  rw [if_neg (by rw [hvcs.keyWant]; exact hwant), if_pos (by rw [hvcs.bundle, hat.keys]; exact hkey), hvcs.bundle] at hexec
  generalize acked s p f = u at *
  obtain ⟨hat', hout', -, hframe, -⟩ := stampFrame_effect u p (bareFrame 5 (u.port p).txSeq)
  generalize stampFrame u p (bareFrame 5 (u.port p).txSeq) = r at *
  refine ⟨_, { r.2 with keyid := f.keyid }, hexec, ?_, ?_, ?_, rfl, ?_, ?_⟩
  · refine PortOnly.trans ?_ (atPort_modPort _ p _).portOnly
    refine PortOnly.trans ?_ (sendFrame_effect _ p _).1.portOnly
    exact (hat.trans hat').portOnly.trans (portOnly_slotUsed r.1 p _ _)
  · rw [← hout, ← hout']
    rfl
  · rw [hframe]
    rfl
  · rw [port_modPort]
  · exact mget_mset _ _ _ _

/-! ### The obligation -/

/-- Settles O41: what each kind of frame does at its port, through the stamps, the acknowledgement and the credit that it carries. -/
theorem linkFramesAreAcknowledged : Obligations.LinkFramesAreAcknowledged := by
  unfold Obligations.LinkFramesAreAcknowledged
  refine ⟨fun s p f hup hbad => ?asks, fun s p f k h hseq hflits hrx hroom hopc hlen hsrc => ?taken, fun s p f h hidle => ?idle, fun s p f h => ?nak,
    fun s p hup => ?replay, fun s p hup => ?send, fun s p f b h hothers hsrc hroot hd => ?beacon,
    fun s p f h => ⟨fun hwant => keyFrame_wanted h hwant, fun hwant hkey => keyFrame_asked h hwant hkey⟩⟩
  case asks =>
    obtain ⟨hat, hrx, hnak, hquiet, hsent⟩ := askReplay_effect (countShared s (portBlk p) 1 16 1 3) p
    exact ⟨_, exec_dataFrame_asks hup hbad, ((atPort_countShared s p _ _ _ _ _).trans hat).portOnly, hrx, hnak, hquiet, hsent⟩
  case taken => exact dataFrame_effect h hseq hflits hrx hroom hopc hlen hsrc
  case idle =>
    obtain ⟨hat, hout, hvcs, hvc⟩ := acked_effect h
    have hkeeps : ∀ v, ((acked s p f).port p).vc v = credited f v ((s.port p).vc v) → ((acked s p f).port p |>.vc v).txPkts = [] ∧
        ((acked s p f).port p |>.vc v).txCur = [] := fun v hv => by
      rw [hv, credited]
      split <;> exact hidle v
    refine ⟨acked s p f, ?_, hat.portOnly, hout, hvcs.unacked, ?_⟩
    · rw [exec_idleFrame h, txPump_idle (fun v => hkeeps v (hvc v))]
    · rw [hvc, credited, if_pos rfl]
  case nak =>
    obtain ⟨hat, hout, hvcs, -⟩ := acked_effect h
    have hkept : (nakKept s p f).port p = { (acked s p f).port p with lastNak := some (f.cause.toNat, f.seqc.toNat) } := port_modPort _ p _
    have hatk : AtPort p s (nakKept s p f) := hat.trans ((atPort_countShared _ p _ _ _ _ _).trans (atPort_modPort _ p _))
    have houtk : (nakKept s p f).out = s.out := hout
    have hunacked : ((nakKept s p f).port p).unacked = stillSent s p f := by
      rw [hkept]
      exact hvcs.unacked
    have hlast : ((nakKept s p f).port p).lastNak = some (f.cause.toNat, f.seqc.toNat) := by rw [hkept]
    have hcause : f.cause.toNat = 1 ↔ f.cause = 1 := ⟨fun hc => BitVec.eq_of_toNat_eq hc, fun hc => by rw [hc]; rfl⟩
    have hexec := exec_nakFrame h
    generalize nakKept s p f = u at *
    refine ⟨_, hexec, ?_⟩
    by_cases hc : f.cause = 1
    · obtain ⟨hat', hout', hport⟩ := replayFrom_effect u p f.seqc
      rw [if_pos (hcause.2 hc), if_pos hc, hport, hout', hunacked, houtk]
      exact ⟨(hatk.trans hat').portOnly, rfl, hlast, rfl⟩
    · rw [if_neg (fun h' => hc (hcause.1 h')), if_neg hc, List.append_nil]
      exact ⟨hatk.portOnly, hunacked, hlast, houtk⟩
  case replay =>
    cases hun : (s.port p).unacked with
    | nil =>
      refine ⟨s, ?_, (AtPort.refl p s).portOnly, (List.append_nil _).symm, hun, rfl⟩
      change Host.Outcome.next _ = _
      rw [if_neg (by simp [hup]), hun]
    | cons f fs =>
      obtain ⟨hat, hout, hport⟩ := replayFrom_effect s p f.frame.seq
      rw [hun, List.dropWhile_cons_of_neg (by simp)] at hout hport
      refine ⟨replayFrom s p f.frame.seq, ?_, hat.portOnly, hout, ?_, ?_⟩
      · change Host.Outcome.next _ = _
        rw [if_neg (by simp [hup]), hun]
      · rw [hport]
        exact hun
      · rw [hport]
  case send =>
    obtain ⟨f, u, hat, hout, hframe, henc, hexec⟩ := exec_beaconSend hup
    refine ⟨_, f, beaconOf s p, hexec, ?_, (hat.trans ((atPort_countShared u p _ _ _ _ _).trans (atPort_emit _ p _))).portOnly, ?_, ?_, ?_, henc, ?_, ?_, ?_,
      fun r hr => ?_⟩
    · rw [← hout]
      rfl
    · rw [hframe]
      rfl
    · rw [hframe]
      rfl
    · rw [hframe]
    · rw [beaconOf]
      split <;> rfl
    · rw [beaconOf]
      split <;> rfl
    · rw [beaconOf]
      split <;> rfl
    · rw [beaconOf, hr]
      exact ⟨rfl, rfl⟩
  case beacon => exact beaconFrame_effect h hothers hsrc hroot hd

end Sys2Proof.Machine
end

section
/-!
SUPPORT. What messages, locks and the reads of engines leave alone: they change cores and memory, what waits in queues and at locks, the
counters, the log and what is shown.
-/

namespace Sys2Proof.Machine

/-- A core under reset stays so, and one with no command under way has none. -/
structure CoreStays (k k' : Core) : Prop where
  crst : k.crst = true → k'.crst = true
  flights : k.flights = [] → k'.flights = []

theorem CoreStays.refl (k : Core) : CoreStays k k := ⟨id, id⟩

theorem CoreStays.trans {k k' k'' : Core} (h : CoreStays k k') (j : CoreStays k' k'') : CoreStays k k'' := ⟨j.crst ∘ h.crst, j.flights ∘ h.flights⟩

/-- Of `s`, `t` changes what the work of cores and of their engines changes, at most, where no core begins a command or leaves reset. -/
structure Works (s t : State) : Prop where
  rest : t = { s with
    mem := t.mem
    marks := t.marks
    rowErrs := t.rowErrs
    cores := t.cores
    fields := t.fields
    sends := t.sends
    lockReplies := t.lockReplies
    shared := t.shared
    out := t.out
    wake := { s.wake with kept := t.wake.kept, lost := t.wake.lost }
    lastSeq := t.lastSeq
    logBuf := t.logBuf
    totals := t.totals
    totalsCold := t.totalsCold
    coals := t.coals
    sessions := t.sessions }
  field : ∀ n, t.field n = { s.field n with
    msh := { (s.field n).msh with dropRst := (t.field n).msh.dropRst, dropLog := (t.field n).msh.dropLog } }
  core : ∀ c, CoreStays (s.core c) (t.core c)

theorem Works.refl (s : State) : Works s s := ⟨rfl, fun _ => rfl, fun _ => .refl _⟩

theorem Works.trans {s t u : State} (h : Works s t) (k : Works t u) : Works s u := by
  refine ⟨?_, fun n => ?_, fun c => (h.core c).trans (k.core c)⟩
  · rw [k.1, h.1]
  · rw [k.2 n, h.2 n]

theorem Works.of_field {s t : State} (h : t = { s with
    mem := t.mem
    marks := t.marks
    rowErrs := t.rowErrs
    cores := t.cores
    fields := s.fields
    sends := t.sends
    lockReplies := t.lockReplies
    shared := t.shared
    out := t.out
    wake := { s.wake with kept := t.wake.kept, lost := t.wake.lost }
    lastSeq := t.lastSeq
    logBuf := t.logBuf
    totals := t.totals
    totalsCold := t.totalsCold
    coals := t.coals
    sessions := t.sessions }) (hc : ∀ c, CoreStays (s.core c) (t.core c) := by exact fun _ => .refl _) : Works s t := by
  have hf : t.fields = s.fields := by rw [h]
  refine ⟨?_, fun n => ?_, hc⟩
  · rw [hf]
    exact h
  · rw [State.field, State.field, hf]

section
variable {s t : State} (h : Works s t)
include h

theorem Works.links : t.links = s.links := by rw [h.1]
theorem Works.dev : t.dev = s.dev := by rw [h.1]
theorem Works.groups : t.groups = s.groups := by rw [h.1]
theorem Works.parts : t.parts = s.parts := by rw [h.1]
theorem Works.survey : t.survey = s.survey := by rw [h.1]
theorem Works.pwr : t.pwr = s.pwr := by rw [h.1]
theorem Works.devId : t.devId = s.devId := by rw [h.1]
theorem Works.mgmt : t.wake.mgmt = s.wake.mgmt := by rw [h.1]
theorem Works.seams : t.seams = s.seams := by rw [h.1]
theorem Works.hbms : t.hbms = s.hbms := by rw [h.1]

end

theorem Works.foldl {α : Type} {step : State → α → State} (h : ∀ s a, Works s (step s a)) (s : State) (l : List α) : Works s (l.foldl step s) :=
  List.foldlRecOn (motive := fun t => Works s t) l step (Works.refl s) fun t ht a _ => ht.trans (h t a)

theorem Logged.works {s t : State} (h : Logged s t) : Works s t := by
  refine Works.of_field ?_ fun c => ?_
  · rw [h]
  · rw [h.core]
    exact .refl _

theorem coreStays_modCore {s : State} {c : Nat} {f : Core → Core} (hf : ∀ k, CoreStays k (f k)) (x : Nat) :
    CoreStays (s.core x) ((modCore s c f).core x) := by
  by_cases hx : x = c
  · rw [hx, core_modCore]
    exact hf _
  · rw [core_modCore_ne _ _ hx]
    exact .refl _

theorem works_raiseEvent (s : State) (code ukind unit : Nat) (part : Option Nat) (detail : List Nat) :
    Works s (raiseEvent s code ukind unit part detail) := (logged_raiseRec s _ _ _ _ _ _ _).works

theorem works_modCore (s : State) (c : Nat) (f : Core → Core) (hf : ∀ k, CoreStays k (f k) := by exact fun _ => ⟨id, id⟩) :
    Works s (modCore s c f) := Works.of_field rfl (coreStays_modCore hf)

theorem works_modCtl (s : State) (c : Nat) (f : Ctl → Ctl) : Works s (modCtl s c f) := works_modCore s c _

theorem works_modQue (s : State) (c : Nat) (f : Que → Que) : Works s (modQue s c f) := works_modCore s c _

theorem works_modQ (s : State) (c q : Nat) (f : Queue → Queue) : Works s (modQ s c q f) := works_modQue s c _

theorem works_count (s : State) (c code n : Nat) (w : Sample) : Works s (count s c code n w) := by
  have h := counted_count s c code n (w := w)
  generalize count s c code n w = t at h ⊢
  refine Works.of_field ?_ fun x => ?_
  · rw [← h.rest]
  · by_cases hc : x = c
    · rw [hc, h.core]
      exact ⟨id, id⟩
    · rw [h.others x hc]
      exact .refl _

theorem works_emit (s : State) (o : Output) : Works s (emit s o) := Works.of_field rfl

/-! ### The scratchpad (R151 to R153) -/

theorem CoreRead.works {s t : State} {c : Nat} (h : CoreRead s t c) : Works s t := by
  refine Works.of_field ?_ fun x => ?_
  · rw [h.1]
  · by_cases hc : x = c
    · rw [hc, h.core]
      exact ⟨id, id⟩
    · rw [h.others x hc]
      exact .refl _

theorem works_spRead (s : State) (c off n port : Nat) : Works s (spRead s c off n port).1 := (coreRead_touchRange s c off n port).works

theorem works_spPuts (s : State) (c off : Nat) (bs : Bytes) : Works s (spPuts s c off bs) := by
  rw [spPuts_eq]
  exact Works.of_field rfl

theorem works_setSpMark (s : State) (c off : Nat) (m : Option Mark) : Works s (setSpMark s c off m) := Works.of_field rfl

theorem works_spWriteWord (s : State) (c off : Nat) (bs : Bytes) (port w : Nat) : Works s (spWriteWord s c off bs port w).1 := by
  rw [spWriteWord]
  dsimp only
  split
  · exact (works_setSpMark s c w none).trans (works_spPuts _ _ _ _)
  · have ht : Works s (touchWord s c w port).1 := (coreRead_touchWord s c w port).works
    generalize touchWord s c w port = r at ht ⊢
    split
    · exact ht
    · exact ht.trans ((works_setSpMark _ c w none).trans (works_spPuts _ _ _ _))

theorem works_spWrite (s : State) (c off : Nat) (bs : Bytes) (port : Nat) : Works s (spWrite s c off bs port).1 := by
  rw [spWrite]
  exact List.foldlRecOn (motive := fun p : State × Bool => Works s p.1) _ _ (Works.refl s) fun p hp w _ => hp.trans (works_spWriteWord _ _ _ _ _ _)

theorem works_spWriteP (s : State) (c off : Nat) (bs : Bytes) (poison : List Nat) (port : Nat) : Works s (spWriteP s c off bs poison port).1 := by
  have hw := works_spWrite s c off bs port
  rw [spWriteP]
  generalize spWrite s c off bs port = r at hw ⊢
  exact hw.trans (Works.foldl (fun s w => works_setSpMark s c _ _) _ _)

/-! ### Queues and messages (R215 to R231) -/

theorem works_setFlags (s : State) (c : Nat) (m : W64) : Works s (setFlags s c m) := by
  rw [setFlags]
  have hset := (works_modQue s c fun u => { u with flags := u.flags ||| m }).trans (works_count _ c 0x6E (countBits 64 m.toNat) bareSample)
  dsimp only
  split
  · split
    · exact hset
    · exact hset.trans ((works_count _ c _ _ _).trans (works_modCtl _ c _))
  · exact hset

theorem works_grantNext (s : State) (c q slot : Nat) : Works s (grantNext s c q slot) := by
  rw [grantNext]
  split
  · exact Works.refl s
  · dsimp only
    split
    · exact works_modQ s c q _
    · exact (works_modQ s c q _).trans (works_emit _ _)

theorem works_freeEntry (s : State) (c q : Nat) (u : Queue) (slot : Nat) : Works s (freeEntry s c q u slot) := by
  rw [freeEntry]
  refine Works.trans ?_ (works_grantNext _ c q slot)
  split
  · exact works_count s c _ _ _
  · exact Works.refl s

theorem works_popMsg (s : State) (c q : Nat) : Works s (popMsg s c q) := by
  rw [popMsg]
  split
  · exact Works.refl s
  · exact (works_modCore s c _).trans (works_freeEntry _ c q _ _)

theorem works_deliverMsg (s : State) (c q dst : Nat) (d : Reg) (lat : Bool) : Works s (deliverMsg s c q dst d lat).1 := by
  rw [deliverMsg]
  dsimp only
  split
  · exact Works.refl s
  · next m ms hm =>
    have hr := works_spRead s c (((s.core c).que.q q).slotOff m.slot) (m.len * 16) 5
    generalize spRead s c (((s.core c).que.q q).slotOff m.slot) (m.len * 16) 5 = r at hr ⊢
    obtain ⟨u, bs, bad⟩ := r
    dsimp only
    refine Works.trans ?_ (works_modCtl _ c _)
    refine Works.trans ?_ (works_count _ c 0x62 1 _)
    exact hr.trans ((works_spWrite u c dst bs 5).trans (works_popMsg _ c q))

theorem works_serveRecv (s : State) (c q dst : Nat) (d : Reg) : Works s (serveRecv s c q dst d).1 := by
  rw [serveRecv]
  split
  · exact Works.refl s
  · split
    · dsimp only
      exact works_modCtl s c _
    · have hd := works_deliverMsg s c q dst d true
      generalize deliverMsg s c q dst d true = r at hd ⊢
      dsimp only
      exact hd.trans (works_modCtl _ c _)

theorem works_sendRemote (s : State) (c : Nat) (a : W64) (opc n : Nat) (f : LinkPkt → LinkPkt) : Works s (sendRemote s c a opc n f) := by
  rw [sendRemote]
  split
  · exact works_emit s _
  · exact Works.refl s

theorem works_streamPut (s : State) (c e : Nat) (h : DmaEng → DmaEng) (d : DmaDesc) : Works s (streamPut s c e h d) := by
  rw [streamPut]
  exact (works_modCore s c _).trans (Works.foldl (fun s b => works_sendRemote s c _ _ _ _) _ _)

theorem works_streamPump (fuel : Nat) (s : State) (c e : Nat) : Works s (streamPump fuel s c e) := by
  induction fuel generalizing s with
  | zero => exact Works.refl s
  | succ fuel ih =>
    rw [streamPump]
    dsimp only
    split
    · split
      · exact works_streamPut s c e id _
      · next m ms hm =>
        split
        · exact works_streamPut s c e id _
        · generalize (m.len * 16) = n
          generalize hoff : Queue.slotOff _ m.slot = off
          have hr := works_spRead s c off n 6
          generalize spRead s c off n 6 = r at hr ⊢
          obtain ⟨u, bs, bad⟩ := r
          exact hr.trans ((works_popMsg u c _).trans ((works_count _ c 0x5F 1 _).trans ((works_streamPut _ c e _ _).trans (ih _))))
    · exact Works.refl s

theorem works_storeMsg (s : State) (c q slot : Nat) (bs : Bytes) (poison : List Nat) (info : MsgMeta) :
    Works s (storeMsg s c q slot bs poison info).1 := by
  unfold storeMsg
  extract_lets u s1 s2 w s3 s4 s5 s6 k
  have h1 : Works s s1 := works_spWriteP s c _ bs poison 5
  clear_value s1
  have h2 : Works s s2 := h1.trans (works_modQ s1 c q _)
  clear_value s2
  have h3 : Works s s3 := h2.trans (works_count s2 c _ _ _)
  clear_value s3
  have h4 : Works s s4 := by
    refine h3.trans ?_
    unfold s4
    split
    · exact works_count s3 c _ _ _
    · exact Works.refl s3
  clear_value s4
  have h5 : Works s s5 := by
    refine h4.trans ?_
    unfold s5
    split
    · exact works_count s4 c _ _ _
    · exact Works.refl s4
  clear_value s5
  have h6 : Works s s6 := by
    refine h5.trans ?_
    unfold s6
    split
    · exact works_setFlags s5 c _
    · exact Works.refl s5
  clear_value s6
  split
  · exact h6.trans (works_streamPump queueFuel s6 c _)
  · split
    · split
      · exact h6.trans (works_serveRecv s6 c q _ _)
      · exact h6
    · exact h6

theorem works_meshDrop (s : State) (n r dcore : Nat) (part : Option Nat) (score plane : Nat) : Works s (meshDrop s n r dcore part score plane) := by
  refine ⟨rfl, fun k => ?_, fun _ => .refl _⟩
  have hfield : (meshDrop s n r dcore part score plane).field k = (modMsh s n (fun m =>
      { m with
        dropRst := satInc m.dropRst 1
        dropLog := if m.dropLog.v then m.dropLog else ⟨true, part.isNone, dcore, part.getD 0, score⟩ })).field k := rfl
  rw [hfield, modMsh]
  by_cases hk : k = n
  · rw [hk, field_modField]
  · rw [field_modField_ne _ _ hk]

theorem works_dropAtCore (s : State) (c : Nat) (part : Option Nat) (score : Nat) : Works s (dropAtCore s c part score) :=
  works_meshDrop s _ _ c part score 1

theorem works_dropAtDie (s : State) (die i : Nat) (part : Option Nat) (score : Nat) : Works s (dropAtDie s die i part score) := by
  rw [dropAtDie]
  split
  · exact works_meshDrop s _ _ 0x7FF part score 1
  · exact Works.refl s

theorem works_refuseWith (s : State) (c q : Nat) (info : MsgMeta) (st : Nat) : Works s (refuseWith s c q info st).1 :=
  (works_modCore s c _).trans (works_count _ c 0x67 1 _)

theorem works_arrive (s : State) (c q : Nat) (bs : Bytes) (poison : List Nat) (info : MsgMeta) (w : Option Sender) :
    Works s (arrive s c q bs poison info w).1 := by
  unfold arrive
  split
  · exact Works.refl s
  split
  · exact works_dropAtCore s c _ _
  dsimp only
  split
  · exact (works_modQ s c q _).trans (works_storeMsg _ c q _ bs poison info)
  split
  · exact works_refuseWith s c q info 3
  split
  · exact works_refuseWith s c q info 3
  split
  · exact works_refuseWith s c q info 4
  split
  · exact works_refuseWith s c q info 5
  split
  · exact works_storeMsg s c q _ bs poison info
  split
  · exact Works.refl s
  split
  · dsimp only
    exact works_modQ s c q _
  · exact Works.refl s

theorem works_systemMsg (s : State) (c q : Nat) (bs : Bytes) : Works s (systemMsg s c q bs).1 := by
  have ha := works_arrive s c q bs [] { spart := 0, score := 0x7FF, sdev := s.devId, sys := true, mc := false, chan := 0, endm := false } none
  rw [systemMsg]
  generalize arrive s c q bs [] _ none = r at ha ⊢
  obtain ⟨u, a, b⟩ := r
  split
  · next he => cases he; exact ha
  · next he => cases he; exact ha

theorem works_notifyPart (s : State) (p : Nat) (bs : Bytes) : Works s (notifyPart s p bs) := by
  rw [notifyPart]
  split
  · exact works_systemMsg s _ 30 bs
  · exact Works.refl s

/-! ### Locks (R245 to R247) -/

theorem works_lockReply (s : State) (who : LockWho) (status : Nat) (v : W64) : Works s (lockReply s who status v) := by
  rw [lockReply]
  split
  · exact Works.of_field rfl
  · exact works_emit s _

/-- Of `s`, `t` changes the locks too. -/
def LockWorks (s t : State) : Prop := Works { s with locks := t.locks } t

theorem Works.withLocks {s t : State} (h : Works s t) (m : Map Lock) : Works { s with locks := m } { t with locks := m } := by
  refine ⟨?_, h.field, h.core⟩
  rw [h.rest]

theorem Works.lockWorks {s t : State} (h : Works s t) : LockWorks s t := h.withLocks t.locks

theorem LockWorks.trans {s t u : State} (h : LockWorks s t) (k : LockWorks t u) : LockWorks s u := (Works.withLocks h u.locks).trans k

theorem LockWorks.foldl {α : Type} {step : State → α → State} (h : ∀ s a, LockWorks s (step s a)) (s : State) (l : List α) :
    LockWorks s (l.foldl step s) :=
  List.foldlRecOn (motive := fun t => LockWorks s t) l step (Works.refl s) fun t ht a _ => ht.trans (h t a)

theorem lockWorks_setLock (s : State) (i : Nat) (l : Lock) : LockWorks s (setLock s i l) := Works.refl _

theorem lockWorks_lockPass (s : State) (i status : Nat) (st : LockState) : LockWorks s (lockPass s i status st) := by
  rw [lockPass]
  dsimp only
  split
  · exact lockWorks_setLock s i _
  · exact (lockWorks_setLock s i _).trans (works_lockReply _ _ _ _).lockWorks

theorem lockWorks_locksLost (s : State) (gone : LockWho → Bool) : LockWorks s (locksLost s gone) := by
  rw [locksLost]
  refine LockWorks.trans (t := { s with locks := s.locks.map (fun (p : Nat × Lock) => (p.1,
    { p.2 with waiters := p.2.waiters.filter (fun w => !gone w) })) }) (Works.refl _) (LockWorks.foldl (fun s i => ?_) _ _)
  split
  · split
    · exact lockWorks_lockPass s i 8 .abandoned
    · exact Works.refl s
  · exact Works.refl s

theorem locksLost_of_noLocks {s : State} (h : s.locks = []) (gone : LockWho → Bool) : locksLost s gone = s := by
  obtain ⟨⟩ := s
  cases h
  rfl

/-- R321: the departure of a device. -/
theorem lockWorks_departed (s : State) (d : Nat) : LockWorks s (departed s d) := by
  rw [departed]
  refine LockWorks.trans ?_ (works_raiseEvent _ _ _ _ _ _).lockWorks
  refine LockWorks.trans (lockWorks_locksLost s (fun w => w.dev == d)) (Works.foldl (fun s p => ?_) _ _).lockWorks
  split
  · exact works_notifyPart s p _
  · exact Works.refl s

end Sys2Proof.Machine
end

section
/-!
SUPPORT. Packets between devices are routed (R302 to R310, R314, R321).
-/

namespace Sys2Proof.Machine

/-! ### Packets that are refused (R296) -/

theorem refusal_congr {k m : LinkPkt} (hopc : m.opc = k.opc) (hdev : m.sdev = k.sdev) (htag : m.rtag = k.rtag) (st : Nat) : refusal m st = refusal k st := by
  rw [refusal, refusal, hopc, hdev, htag]

theorem refusePkt_eq (s : State) (k : LinkPkt) (st : Nat) : refusePkt s k st = { s with out := s.out ++ refusal k st } := by
  rw [refusePkt, refusal, isRequest]
  by_cases h : k.opc.toNat ∈ [1, 2, 3, 4, 6, 7, 8]
  · rw [if_pos (by simpa using h), if_pos h]
    rfl
  · rw [if_neg (by simpa using h), if_neg h, List.append_nil]

/-! ### The table of an epoch (R306, R308) -/

theorem bits_toNat (e : W32) (hi lo n : Nat) (h : hi + 1 - lo = n) : bits e.toNat hi lo = (e.extractLsb' lo n).toNat := by
  rw [bits, h, BitVec.extractLsb'_toNat, Nat.shiftRight_eq_div_pow]

theorem testBit_toNat (e : W32) (i : Nat) : e.toNat.testBit i = e.getLsbD i := rfl

/-- R308: the table that routes a packet of an epoch that is held. -/
def tableFor (x e : BitVec 8) : Nat := if (e - x).toNat < 128 then x.toNat % 2 else (x.toNat + 1) % 2

theorem tableOf_held {l : Links} {copy : Nat} {e : BitVec 8} (h : (e - l.epochOf copy).toNat < 128 ∨ ((e - l.epochOf copy).toNat = 255 ∧ l.prev = true)) :
    tableOf l copy e = some (tableFor (l.epochOf copy) e) := by
  rw [tableOf, tableFor]
  obtain hnew | ⟨hold, hprev⟩ := h
  · rw [if_pos hnew, if_pos hnew]
  · rw [if_neg (by omega), if_pos ⟨hold, hprev⟩, if_neg (by omega)]

theorem tableOf_dropped {l : Links} {copy : Nat} {e : BitVec 8} (h : 128 ≤ (e - l.epochOf copy).toNat)
    (hno : (e - l.epochOf copy).toNat ≠ 255 ∨ l.prev = false) : tableOf l copy e = none := by
  rw [tableOf]
  rw [if_neg (by omega), if_neg]
  rintro ⟨h255, hprev⟩
  obtain hne | hf := hno
  · exact hne h255
  · rw [hprev] at hf
    cases hf

theorem routeBy_eq {s : State} {copy t : Nat} {k : LinkPkt} (hbad : badEntry s 0 copy (16384 * t + k.ddev) = false) :
    ((rtEntry s.links copy t k.ddev).getLsbD 31 = false → routeBy s copy t k = .refuse 2) ∧
    ((rtEntry s.links copy t k.ddev).extractLsb' 29 2 = 3 → routeBy s copy t k = .refuse 2) ∧
    ((rtEntry s.links copy t k.ddev).getLsbD 31 = true → (rtEntry s.links copy t k.ddev).extractLsb' 29 2 = 2 → routeBy s copy t k = .here) ∧
    ((rtEntry s.links copy t k.ddev).getLsbD 31 = true → (rtEntry s.links copy t k.ddev).extractLsb' 29 2 = 0 →
      routeBy s copy t k = .bundle ((rtEntry s.links copy t k.ddev).extractLsb' 24 4).toNat (k.vc1 || (rtEntry s.links copy t k.ddev).getLsbD 28)) := by
  rw [routeBy]
  rw [hbad, Bool.or_false, testBit_toNat, testBit_toNat, bits_toNat _ 30 29 2 rfl, bits_toNat _ 27 24 4 rfl]
  generalize rtEntry s.links copy t k.ddev = e
  refine ⟨fun hv => ?_, fun hk => ?_, fun hv hk => ?_, fun hv hk => ?_⟩
  · rw [hv]
    rfl
  · rw [hk]
    split <;> rfl
  · rw [hv, hk]
    rfl
  · rw [hv, hk]
    rfl

/-! ### Packets in transit, and packets that this device injects (R302, R305, R307) -/

/-- What becomes of a packet as its route says; `own` that this device injects it. -/
def routeAs (s : State) (l inp : Nat) (planeB own : Bool) (k : LinkPkt) (abort : Bool) : RouteTo → State
  | .refuse st => refusePkt s k st
  | .here => if abort then refusePkt s k 7 else emit s (.inbound l k)
  | .bundle b v =>
    if own && !mayInject s b k then refusePkt s k 3
    else useBundle s l b planeB ⟨linkClass inp { k with vc1 := v }, inp, { k with vc1 := v }, abort⟩

/-- What routing makes of packet `k`, as it stands, by copy `copy`. -/
def routeIn (s : State) (l inp copy : Nat) (planeB own : Bool) (k : LinkPkt) (abort : Bool) : State :=
  if !own && decide (cfgNum s 0x50 0x0013 0 32 ≤ k.hops) then
    refusePkt (modLinks s (fun x => { x with cntHop := x.cntHop + 1 })) k 7
  else
    match tableOf s.links copy k.epoch with
    | none => refusePkt s k 7
    | some t => routeAs s l inp planeB own k abort (routeBy s copy t k)

theorem routePkt_eq (s : State) (l inp : Nat) (planeB : Bool) (k : LinkPkt) (abort : Bool) : routePkt s l inp planeB k abort =
    routeIn s l inp (if decide (5 ≤ inp) && k.score != 0x7FF then 8 + fieldOf k.score else l) planeB (decide (5 ≤ inp))
      (if decide (5 ≤ inp) then { k with epoch := s.links.epochOf (if decide (5 ≤ inp) && k.score != 0x7FF then 8 + fieldOf k.score else l), hops := 0, vc1 := false }
        else { k with hops := k.hops + 1 }) abort := rfl

theorem routePkt_transit (s : State) (l : Nat) {inp : Nat} (hi : inp < 5) (planeB : Bool) (k : LinkPkt) (abort : Bool) :
    routePkt s l inp planeB k abort = routeIn s l inp l planeB false { k with hops := k.hops + 1 } abort := by
  have hown : decide (5 ≤ inp) = false := by simpa using hi
  rw [routePkt_eq, hown]
  rfl

theorem routePkt_own (s : State) (l : Nat) {inp : Nat} (hi : 5 ≤ inp) (planeB : Bool) {k : LinkPkt} (hcore : k.score ≠ 0x7FF) (abort : Bool) :
    routePkt s l inp planeB k abort = routeIn s l inp (8 + fieldOf k.score) planeB true
      { k with epoch := s.links.epochOf (8 + fieldOf k.score), hops := 0, vc1 := false } abort := by
  have hown : decide (5 ≤ inp) = true := by simpa using hi
  have hne : (k.score != 0x7FF) = true := bne_iff_ne.2 hcore
  rw [routePkt_eq, hown, hne]
  rfl

theorem exec_linkPacketRoute {l inp : Nat} (hl : l < 8) (hi : inp < 8) (planeB : Bool) (k : LinkPkt) (s : State) :
    exec (.linkPacketRoute ⟨l, inp⟩ planeB k) s = .next (routePkt s l inp planeB k false) := congrArg Host.Outcome.next (if_pos ⟨hl, hi⟩)

section
variable {s : State} {l inp copy : Nat} {planeB : Bool} {k : LinkPkt}

theorem routeIn_hops (h : cfgNum s 0x50 0x0013 0 32 ≤ k.hops) : routeIn s l inp copy planeB false k false =
    { modLinks s (fun x => { x with cntHop := x.cntHop + 1 }) with out := s.out ++ refusal k 7 } := by
  rw [routeIn, if_pos (by simpa using h), refusePkt_eq]
  rfl

theorem routeIn_dropped (h : k.hops < cfgNum s 0x50 0x0013 0 32) (htab : tableOf s.links copy k.epoch = none) :
    routeIn s l inp copy planeB false k false = { s with out := s.out ++ refusal k 7 } := by
  rw [routeIn, if_neg (by simpa using h), htab]
  exact refusePkt_eq s k 7

section
variable {own : Bool} (h : own = true ∨ k.hops < cfgNum s 0x50 0x0013 0 32) {t : Nat} (htab : tableOf s.links copy k.epoch = some t)
include h htab

theorem routeIn_routed {r : RouteTo} (hr : routeBy s copy t k = r) : routeIn s l inp copy planeB own k false =
    routeAs s l inp planeB own k false r := by
  have hgo : ¬ ((!own && decide (cfgNum s 0x50 0x0013 0 32 ≤ k.hops)) = true) := by
    obtain ho | hh := h
    · simp [ho]
    · simp [hh]
  rw [routeIn, if_neg hgo, htab]
  exact congrArg (routeAs s l inp planeB own k false) hr

theorem routeIn_refuse {st : Nat} (hr : routeBy s copy t k = .refuse st) : routeIn s l inp copy planeB own k false =
    { s with out := s.out ++ refusal k st } :=
  (routeIn_routed h htab hr).trans (refusePkt_eq s k st)

theorem routeIn_here (hr : routeBy s copy t k = .here) : routeIn s l inp copy planeB own k false = emit s (.inbound l k) :=
  routeIn_routed h htab hr

end

theorem routeIn_transit {b : Nat} {v : Bool} {t : Nat} (h : k.hops < cfgNum s 0x50 0x0013 0 32) (htab : tableOf s.links copy k.epoch = some t)
    (hr : routeBy s copy t k = .bundle b v) : routeIn s l inp copy planeB false k false =
      useBundle s l b planeB ⟨linkClass inp { k with vc1 := v }, inp, { k with vc1 := v }, false⟩ := by
  rw [routeIn_routed (.inr h) htab hr, routeAs, if_neg (by simp)]

theorem routeIn_denied {b : Nat} {v : Bool} {t : Nat} (htab : tableOf s.links copy k.epoch = some t) (hr : routeBy s copy t k = .bundle b v)
    (hmay : mayInject s b k = false) : routeIn s l inp copy planeB true k false = { s with out := s.out ++ refusal k 3 } :=
  (routeIn_routed (.inl rfl) htab hr).trans ((if_pos (by rw [hmay]; rfl)).trans (refusePkt_eq s k 3))

/-- R302: a core's request may not use a bundle that another partition owns. -/
theorem mayInject_denied {b : Nat} (hcore : k.score ≠ 0x7FF) (hreq : isRequest k.opc = true) (hdev : bundleOwner s b ≠ 0xFF)
    (hown : bundleOwner s b ≠ k.spart) : mayInject s b k = false := by
  rw [mayInject, hreq, beq_false_of_ne hcore, beq_false_of_ne hdev, beq_false_of_ne hown]
  rfl

/-- R304: a bundle without an admitted port refuses a packet. -/
theorem useBundle_none {b : Nat} {x : TxPkt} (h : bundlePorts s b = []) : useBundle s l b planeB x = { s with out := s.out ++ refusal x.pkt 7 } := by
  rw [useBundle, bundlePort]
  dsimp only
  rw [if_pos h, ← refusePkt_eq]

end

/-! ### A packet that stops in mid-flight (R314) -/

theorem AtPort.forHere {p : Nat} {s t : State} (h : AtPort p s t) (l : Nat) (k : LinkPkt) : forHere t l k = forHere s l k := by
  rw [h.1]
  rfl

/-- R314: a packet for this device that stops is discarded, and answered ABORTED where it asks for an answer. -/
theorem stall_effect {s : State} {p v left : Nat} {k : LinkPkt} (hp : p < 40) (hv : v < 4) (hrx : ((s.port p).vc v).rx = .pkt k left)
    (hhere : forHere s (p / 5) k = true) : ∃ t, exec (.stallTimeout p v) s = .next t ∧ PortOnly s t p ∧ t.out = s.out ++ refusal k 7 ∧
      (t.port p).stall = satInc (s.port p).stall 1 ∧ ((t.port p).vc v).rx = .skip false ∧
      ((t.port p).vc v).credRet = ((s.port p).vc v).credRet + ((s.port p).vc v).rxUsed := by
  generalize hu : modPort s p (fun k => { k with stall := satInc k.stall 1 }) = u
  have hport : u.port p = { s.port p with stall := satInc (s.port p).stall 1 } := by rw [← hu, port_modPort]
  have hat : AtPort p s u := hu ▸ atPort_modPort s p _
  have hout : u.out = s.out := by rw [← hu]; rfl
  generalize hw : modVc u p v (fun c => { c with rx := .skip false }) = w
  have hvc : ((w.port p).vc v) = { (s.port p).vc v with rx := .skip false } := by
    rw [← hw, vc_modVc, hport]
    rfl
  have hstall : (w.port p).stall = satInc (s.port p).stall 1 := by rw [← hw, port_modVc, hport]
  have hat' : AtPort p s w := hat.trans (hw ▸ atPort_modVc u p v _)
  have hout' : w.out = s.out := by rw [← hout, ← hw]; rfl
  have hexec : exec (.stallTimeout p v) s = .next (endShort u p v (.skip false)) := by
    change Host.Outcome.next _ = _
    rw [if_neg (by omega), hrx, hu]
  have hleft : AtPort p s (countShared (leaveBuf w p v) (portBlk p) 0xD 16 1 3) :=
    hat'.trans ((atPort_modVc w p v _).trans (atPort_countShared _ p _ _ _ _ _))
  have hend : endShort u p v (.skip false) = refusePkt (countShared (leaveBuf w p v) (portBlk p) 0xD 16 1 3) k 7 := by
    have hrx' : ((u.port p).vc v).rx = .pkt k left := by
      rw [hport]
      exact hrx
    rw [endShort, hrx', hw]
    refine if_pos ?_
    rw [hleft.forHere]
    exact hhere
  rw [hend, refusePkt_eq] at hexec
  have hvc' : ((leaveBuf w p v).port p).vc v = { (w.port p).vc v with credRet := ((w.port p).vc v).credRet + ((w.port p).vc v).rxUsed, rxUsed := 0 } :=
    vc_modVc w p v _
  have hport' : ((leaveBuf w p v).port p).stall = (w.port p).stall := by rw [leaveBuf, port_modVc]
  have hout'' : (leaveBuf w p v).out = s.out := hout'
  generalize leaveBuf w p v = x at *
  refine ⟨_, hexec, hleft.portOnly, ?_, hport'.trans hstall, ?_, ?_⟩
  · rw [← hout'']
    rfl
  · exact (congrArg LinkVc.rx hvc').trans (by rw [hvc])
  · exact (congrArg LinkVc.credRet hvc').trans (by rw [hvc])

/-! ### Remote requests without an answer (R310) -/

theorem remoteTimeout_lock {s : State} {c : Nat} {f : Flight} {op : LockOp} {d : LockDesc} (hm : MemInv s) (hcur : curLock s c = some (f, op, d))
    (hone : engFlights (s.core c) 7 = [f]) (hdet : f.memDetail = none) (hin : d.res + 16 ≤ 2 ^ 21) (hs : Sound s c d.res 16)
    (haway : (if isAtomicOp op then isRemote d.addr && remoteDev d.addr != s.devId else lockAway s d) = true) :
    ∃ t, exec (.remoteTimeout (.lock c)) s = .next t ∧ Leaves s t c f ∧
      (d.resv = true → spBytes t c d.res 16 = natBytes 8 0 ++ natBytes 1 7 ++ natBytes 7 0) ∧
      (t.core c).ctl.tagErr.getLsbD f.iss.tag.val = true := by
  obtain ⟨u, hu, hend⟩ := lockEnd_of_put 7 0 (curLock_body hcur) hone hdet fun _ => hs
  have hexec : exec (.remoteTimeout (.lock c)) s = .next (lockEnd s c f 7 0) := by
    have hx : exec (.remoteTimeout (.lock c)) s = execRemoteTimeout (.lock c) s := rfl
    rw [hx, execRemoteTimeout]
    simp only [hcur]
    rw [if_pos haway]
  obtain ⟨t, ht, blk, pc, regs, hcore, honly⟩ := flagged (modCore u c (fun k => finishFlight k f (7 != 0 && 7 != 9))) c d.eve
    (BitVec.ofNat 64 (2 ^ d.evf))
  rw [core_modCore] at hcore
  have hcores : ∀ k, (if d.resv then spPuts s c d.res (lockRecord 7 0) else s).core k = s.core k := fun k => by
    split
    · exact core_spPuts s c d.res k _
    · rfl
  have hmem : t.mem = (if d.resv then spPuts s c d.res (lockRecord 7 0) else s).mem := honly.mem.trans hu.mem
  have hctl : (u.core c).ctl = (s.core c).ctl := by rw [hu.ctl, hcores]
  have hspd : (t.core c).spd = (s.core c).spd := by rw [hcore, finishFlight_spd, hu.spd, hcores]
  refine ⟨t, by rw [hexec, hend, ht], ?_, fun hr => ?_, ?_⟩
  · exact leaves_of_finish (k := u.core c) (err := 7 != 0 && 7 != 9) (by rw [hctl]) (by rw [hcore]) (by rw [hcore]) (by rw [hcore])
  · have hbytes := spBytes_spPuts s c d.res (lockRecord 7 0) hm (by rw [lockRecord_length]; exact hin)
    rw [lockRecord_length] at hbytes
    rw [hr, if_pos rfl] at hmem
    rw [spBytes_congr (s := spPuts s c d.res (lockRecord 7 0)) (hspd.trans (by rw [core_spPuts])) hmem, hbytes]
    rfl
  · rw [hcore]
    exact (finishFlight_tagErr (u.core c) f true).trans (if_pos rfl) ▸ getLsbD_or_tag _ _

/-! ### An epoch takes effect (R308) -/

theorem links_sendEvent (s : State) (tr : Transport) (m : SasilMsg) : (sendEvent s tr m).links = s.links := by
  cases tr <;> rfl

theorem links_endAsync (s : State) (kind status : Nat) : (endAsync s kind status).links = s.links := by
  refine List.foldlRecOn (motive := fun t : State => t.links = s.links) _ _ rfl fun t ht a _ => ?_
  refine Eq.trans ?_ ht
  split
  · rfl
  · exact links_sendEvent _ _ _

/-! ### The obligation -/

/-- Settles O42: routing is a function of the copy's epoch, the entry and the bundle; what stops, is refused or has no answer ends ABORTED or with
its status. -/
theorem linkPacketsAreRouted : Obligations.LinkPacketsAreRouted := by
  unfold Obligations.LinkPacketsAreRouted
  refine ⟨fun s l inp planeB k b e x hl hi hx hb he => ⟨fun hhops => ?hops, fun hhops => ⟨fun hold hno => ?dropped, fun hheld hbad =>
    ⟨fun hno => ?noroute, fun hv hk => ?here, fun hv hk hports => ?noport⟩⟩⟩,
    fun s l inp planeB k copy b e hl hi hi8 hcore hcopy hb he hbad hv hk hreq hdev hown => ?denied,
    fun s p v left k hp hv hrx hhere => stall_effect hp hv hrx hhere, fun s c f d hcur hres hone hdet haway => ?evpost,
    fun s c f op d hm hcur hone hdet hin hs haway => remoteTimeout_lock hm hcur hone hdet hin hs haway, fun s hadv => ?switch, fun s => ?expire⟩
  case hops =>
    refine ⟨_, (exec_linkPacketRoute hl (by omega) planeB k s).trans (congrArg Host.Outcome.next
      ((routePkt_transit s l hi planeB k false).trans (routeIn_hops hhops))), rfl, ?_, rfl, rfl⟩
    exact congrArg (s.out ++ ·) (refusal_congr rfl rfl rfl _)
  case dropped =>
    subst hx
    refine ⟨_, (exec_linkPacketRoute hl (by omega) planeB k s).trans (congrArg Host.Outcome.next
      ((routePkt_transit s l hi planeB k false).trans (routeIn_dropped hhops (tableOf_dropped hold hno)))), rfl, ?_⟩
    exact congrArg (s.out ++ ·) (refusal_congr rfl rfl rfl _)
  case noroute =>
    subst hx
    have htab := tableOf_held hheld
    obtain ⟨hinvalid, hreserved, -, -⟩ := routeBy_eq (k := { k with hops := k.hops + 1 }) (hb ▸ hbad)
    have hr : routeBy s l b { k with hops := k.hops + 1 } = .refuse 2 := by
      subst hb he
      exact hno.elim hinvalid hreserved
    refine ⟨_, (exec_linkPacketRoute hl (by omega) planeB k s).trans (congrArg Host.Outcome.next
      ((routePkt_transit s l hi planeB k false).trans (routeIn_refuse (.inr hhops) (hb ▸ htab) hr))), rfl, ?_⟩
    exact congrArg (s.out ++ ·) (refusal_congr rfl rfl rfl _)
  case here =>
    subst hx
    have htab := tableOf_held hheld
    obtain ⟨-, -, hhere, -⟩ := routeBy_eq (k := { k with hops := k.hops + 1 }) (hb ▸ hbad)
    have hr : routeBy s l b { k with hops := k.hops + 1 } = .here := by
      subst hb he
      exact hhere hv hk
    exact ⟨_, (exec_linkPacketRoute hl (by omega) planeB k s).trans (congrArg Host.Outcome.next
      ((routePkt_transit s l hi planeB k false).trans (routeIn_here (.inr hhops) (hb ▸ htab) hr))), rfl, rfl⟩
  case noport =>
    subst hx
    have htab := tableOf_held hheld
    obtain ⟨-, -, -, hbundle⟩ := routeBy_eq (k := { k with hops := k.hops + 1 }) (hb ▸ hbad)
    have hr := hbundle (by subst hb he; exact hv) (by subst hb he; exact hk)
    have hexec := exec_linkPacketRoute hl (show inp < 8 by omega) planeB k s
    rw [routePkt_transit s l hi, routeIn_transit (k := { k with hops := k.hops + 1 }) hhops htab hr, useBundle_none (by subst hb he; exact hports)] at hexec
    exact ⟨_, hexec, rfl, congrArg (s.out ++ ·) (refusal_congr rfl rfl rfl _)⟩
  case denied =>
    subst hcopy
    have htab : tableOf s.links (8 + fieldOf k.score) (s.links.epochOf (8 + fieldOf k.score)) = some b := by
      rw [tableOf_held (.inl (by simp)), tableFor, if_pos (by simp), hb]
    obtain ⟨-, -, -, hbundle⟩ := routeBy_eq (k := { k with epoch := s.links.epochOf (8 + fieldOf k.score), hops := 0, vc1 := false }) hbad
    have hr := hbundle (he ▸ hv) (he ▸ hk)
    have hmay := mayInject_denied (s := s) (k := { k with epoch := s.links.epochOf (8 + fieldOf k.score), hops := 0, vc1 := false }) hcore hreq hdev hown
    rw [he] at hmay
    refine ⟨_, (exec_linkPacketRoute hl hi8 planeB k s).trans (congrArg Host.Outcome.next
      ((routePkt_own s l hi planeB hcore false).trans (routeIn_denied (k := { k with epoch := s.links.epochOf (8 + fieldOf k.score), hops := 0, vc1 := false }) htab hr hmay))), rfl, ?_⟩
    exact congrArg (s.out ++ ·) (refusal_congr rfl rfl rfl _)
  case evpost =>
    obtain ⟨fs, hfl, hbody⟩ := curEvpost_head hcur
    have hones : ∀ x ∈ engFlights (s.core c) 6, x.id = f.id := fun x hx => by
      rw [hone, List.mem_singleton] at hx
      rw [hx]
    obtain ⟨hleft, ⟨hmem, -⟩, htag⟩ := queEnds_plain (u := s) (status := 7) (n := 0) (first := 0)
      rfl hones hbody hdet (by rw [queResv, hres]; rfl) rfl
    refine ⟨queKick 8 (queEnd s c f 7 0 0) c, ?_, hleft, hmem, htag (by decide)⟩
    have hx : exec (.remoteTimeout (.evpost c)) s = execRemoteTimeout (.evpost c) s := rfl
    rw [hx, execRemoteTimeout]
    simp only [hcur, evpostAnswer]
    rw [if_neg haway, if_neg haway]
  case switch =>
    refine ⟨_, congrArg Host.Outcome.next (if_neg (by simp [hadv])), ?_⟩
    dsimp only
    generalize hu : modLinks s _ = u
    generalize List.filter _ (reaches s _) = gone
    have hlinks : (endAsync (gone.foldl departed u) 5 0).links = u.links :=
      (links_endAsync _ _ _).trans (LockWorks.foldl lockWorks_departed u gone).links
    rw [hlinks, ← hu]
    exact ⟨rfl, rfl, rfl, rfl, rfl, rfl⟩
  case expire => exact ⟨_, rfl, rfl, rfl, rfl⟩

end Sys2Proof.Machine
end

section
/-!
SUPPORT. Ethernet connections (R298 to R301).
-/

namespace Sys2Proof.Machine

/-! ### One connection -/

/-- Of `s`, `t` changes the connections, the round robins of bundles, the counters of shared blocks and what is shown, at most. -/
def AtConn (s t : State) : Prop :=
  t = { s with links := { s.links with conns := t.links.conns, spray := t.links.spray }, shared := t.shared, out := t.out }

theorem AtConn.refl (s : State) : AtConn s s := rfl

theorem AtConn.trans {s t u : State} (h : AtConn s t) (k : AtConn t u) : AtConn s u := by
  rw [AtConn] at h k ⊢
  rw [k, h]

section
variable {s t : State} (h : AtConn s t)
include h

theorem AtConn.mem : t.mem = s.mem := by rw [h]
theorem AtConn.cores : t.cores = s.cores := by rw [h]
theorem AtConn.now : t.now = s.now := by rw [h]
theorem AtConn.ports : t.links.ports = s.links.ports := by rw [h]
theorem AtConn.cfg : t.cfg = s.cfg := by rw [h]

theorem AtConn.bundlePorts (b : Nat) : bundlePorts t b = bundlePorts s b := by
  rw [h]
  rfl

end

theorem conn_modConn (s : State) (b peer : Nat) (f : Conn → Conn) : (modConn s b peer f).conn b peer = f (s.conn b peer) := by
  rw [State.conn, modConn, modLinks, mget_mset]

theorem conn_modConn_ne (s : State) {b peer b' d : Nat} (f : Conn → Conn) (h : connKey b' d ≠ connKey b peer) :
    (modConn s b peer f).conn b' d = s.conn b' d := by
  rw [State.conn, State.conn, modConn, modLinks]
  exact mget_mset_ne _ _ _ h

theorem rxPsn_modConn (s : State) (b peer : Nat) (f : Conn → Conn) (h : ∀ c, (f c).rxPsn = c.rxPsn) (b' d : Nat) :
    ((modConn s b peer f).conn b' d).rxPsn = (s.conn b' d).rxPsn := by
  by_cases hk : connKey b' d = connKey b peer
  · rw [State.conn, hk, ← State.conn, conn_modConn, h, State.conn, State.conn, hk]
  · rw [conn_modConn_ne s f hk]

theorem atConn_modConn (s : State) (b peer : Nat) (f : Conn → Conn) : AtConn s (modConn s b peer f) := rfl

theorem out_modConn (s : State) (b peer : Nat) (f : Conn → Conn) : (modConn s b peer f).out = s.out := rfl

theorem conn_countShared (s : State) (bl code cls n plane b peer : Nat) : (countShared s bl code cls n plane).conn b peer = s.conn b peer := rfl

theorem atConn_countShared (s : State) (b code cls n plane : Nat) : AtConn s (countShared s b code cls n plane) := rfl

theorem atConn_emit (s : State) (o : Output) : AtConn s (emit s o) := rfl

theorem conn_of_conns {s t : State} (h : t.links.conns = s.links.conns) (b peer : Nat) : t.conn b peer = s.conn b peer := by
  rw [State.conn, State.conn, h]

theorem conn_sprayed (s : State) (b' : Nat) (k : LinkPkt) (b peer : Nat) : (sprayed s b' k).conn b peer = s.conn b peer := by
  rw [sprayed]
  split <;> rfl

theorem atConn_sprayed (s : State) (b : Nat) (k : LinkPkt) : AtConn s (sprayed s b k) ∧ (sprayed s b k).out = s.out := by
  rw [sprayed]
  split <;> exact ⟨rfl, rfl⟩

/-! ### Frames with their headers (R298) -/

theorem ethHdr_congr {s t : State} (hcfg : t.cfg = s.cfg) {b peer : Nat} (hrx : (t.conn b peer).rxPsn = (s.conn b peer).rxPsn) (p type_ psn : Nat) :
    ethHdr t p b peer type_ psn = ethHdr s p b peer type_ psn := by
  have hblob : ∀ a d i, cfgBlob t a d i = cfgBlob s a d i := fun a d i => by rw [cfgBlob, cfgBlob, hcfg]
  have hnum : ∀ a d i x, cfgNum t a d i x = cfgNum s a d i x := fun a d i x => by rw [cfgNum, cfgNum, hcfg]
  have haddr : peerAddr t peer = peerAddr s peer := by rw [peerAddr, peerAddr, hblob]
  rw [ethHdr, ethHdr, hrx, hblob, hnum, haddr]

theorem ethDataHdr_congr {s t : State} (hcfg : t.cfg = s.cfg) {b : Nat} {k : LinkPkt} (hrx : (t.conn b k.ddev).rxPsn = (s.conn b k.ddev).rxPsn)
    (p psn : Nat) : ethDataHdr t p b psn k = ethDataHdr s p b psn k := by
  rw [ethDataHdr, ethDataHdr, ethHdr_congr hcfg hrx]

/-- An ACK, NAK or CNP leaves by the first admitted port of its bundle. -/
theorem ethCtl_effect (s : State) (b peer type_ psn mfrac : Nat) : AtConn s (ethCtl s b peer type_ psn mfrac) ∧
    (∀ b' d, (ethCtl s b peer type_ psn mfrac).conn b' d = s.conn b' d) ∧
    ∀ q qs, bundlePorts s b = q :: qs → (ethCtl s b peer type_ psn mfrac).out = s.out ++ [Output.ethCtl { ethHdr s q b peer type_ psn with mfrac := mfrac }] := by
  rw [ethCtl]
  split
  · next hnil => exact ⟨AtConn.refl s, fun _ _ => rfl, fun q qs hq => by rw [hnil] at hq; cases hq⟩
  · next p ps hcons =>
    refine ⟨rfl, fun _ _ => rfl, fun q qs hq => ?_⟩
    rw [hcons] at hq
    cases hq
    rfl

/-! ### Sending (R299, R303) -/

/-- R299: a packet for a peer that is reachable leaves, and waits for its acknowledgement. -/
theorem ethSend_effect {s : State} {b p : Nat} {k : LinkPkt} (hpeer : inPeers s k.ddev = true) (halive : (s.conn b k.ddev).dead = false) :
    AtConn s (ethSend s b p k) ∧ (ethSend s b p k).out = s.out ++ [Output.ethData (ethDataHdr s p b (s.conn b k.ddev).txPsn k) k] ∧
    (ethSend s b p k).conn b k.ddev = { s.conn b k.ddev with
      txPsn := ((s.conn b k.ddev).txPsn + 1) % 2 ^ 24
      unacked := (s.conn b k.ddev).unacked ++ [((s.conn b k.ddev).txPsn, k)] } := by
  have hconn := conn_modConn s b k.ddev (fun c => { c with txPsn := (c.txPsn + 1) % 2 ^ 24, unacked := c.unacked ++ [(c.txPsn, k)] })
  rw [ethSend, if_neg (by simp [hpeer, halive])]
  have hat := atConn_modConn s b k.ddev (fun c => { c with txPsn := (c.txPsn + 1) % 2 ^ 24, unacked := c.unacked ++ [(c.txPsn, k)] })
  have hout := out_modConn s b k.ddev (fun c => { c with txPsn := (c.txPsn + 1) % 2 ^ 24, unacked := c.unacked ++ [(c.txPsn, k)] })
  generalize modConn s b k.ddev _ = u at *
  dsimp only
  refine ⟨hat.trans (atConn_emit u _), ?_, hconn⟩
  rw [ethDataHdr_congr hat.cfg (by rw [hconn]), ← hout]
  rfl

/-- What of a connection the acknowledgements of the peer change. -/
def TxOnly (c c' : Conn) : Prop := c' = { c with unacked := c'.unacked, open_ := c'.open_, resends := c'.resends }

section
variable {c c' : Conn} (h : TxOnly c c')
include h

theorem TxOnly.dead : c'.dead = c.dead := by rw [h]
theorem TxOnly.rxPsn : c'.rxPsn = c.rxPsn := by rw [h]
theorem TxOnly.nakOut : c'.nakOut = c.nakOut := by rw [h]
theorem TxOnly.toAck : c'.toAck = c.toAck := by rw [h]
theorem TxOnly.rxBytes : c'.rxBytes = c.rxBytes := by rw [h]

end

/-- How many packets an acknowledgement up to `psn` names. -/
def namedBy (c : Conn) (psn : Nat) : Nat :=
  match c.unacked with
  | [] => 0
  | x :: _ => (psn + 1 + 2 ^ 24 - x.1) % 2 ^ 24

theorem ethRelease_eq (s : State) (b peer psn : Nat) : ethRelease s b peer psn =
    if namedBy (s.conn b peer) psn = 0 ∨ (s.conn b peer).unacked.length < namedBy (s.conn b peer) psn then s
    else modConn s b peer (fun c =>
      { c with
        unacked := c.unacked.drop (namedBy (s.conn b peer) psn)
        open_ := c.open_ ++ ((c.unacked.take (namedBy (s.conn b peer) psn)).map (·.2)).filter (fun k => isRequest k.opc)
        resends := 0 }) := rfl

theorem ethRelease_effect (s : State) (b peer psn : Nat) : AtConn s (ethRelease s b peer psn) ∧ (ethRelease s b peer psn).out = s.out ∧
    TxOnly (s.conn b peer) ((ethRelease s b peer psn).conn b peer) := by
  rw [ethRelease_eq]
  split
  · exact ⟨AtConn.refl s, rfl, rfl⟩
  · refine ⟨atConn_modConn s b peer _, rfl, ?_⟩
    rw [conn_modConn]
    exact rfl

theorem ethAlive_effect (s : State) (b peer : Nat) : AtConn s (ethAlive s b peer) ∧ (ethAlive s b peer).out = s.out ∧
    (ethAlive s b peer).conn b peer = { s.conn b peer with dead := false } :=
  ⟨atConn_modConn s b peer _, rfl, conn_modConn s b peer _⟩

theorem ethAnswered_effect (s : State) (b peer : Nat) (k : LinkPkt) : AtConn s (ethAnswered s b peer k) ∧ (ethAnswered s b peer k).out = s.out ∧
    TxOnly (s.conn b peer) ((ethAnswered s b peer k).conn b peer) := by
  rw [ethAnswered]
  split
  · refine ⟨atConn_modConn s b peer _, rfl, ?_⟩
    rw [conn_modConn]
    exact rfl
  · exact ⟨AtConn.refl s, rfl, rfl⟩

theorem ethAck_effect (s : State) (b peer : Nat) : AtConn s (ethAck s b peer) ∧ (ethAck s b peer).conn b peer = { s.conn b peer with toAck := 0 } ∧
    ∀ q qs, bundlePorts s b = q :: qs → ∃ h, (ethAck s b peer).out = s.out ++ [Output.ethCtl h] ∧ h.port = q ∧ h.peer = peer ∧ h.type_ = 1 ∧
      h.apsn = ((s.conn b peer).rxPsn + 2 ^ 24 - 1) % 2 ^ 24 := by
  obtain ⟨hat, hconn, hout⟩ := ethCtl_effect (modConn s b peer (fun c => { c with toAck := 0 })) b peer 1 0 0
  have hc := conn_modConn s b peer (fun c => { c with toAck := 0 })
  refine ⟨(atConn_modConn s b peer _).trans hat, (hconn b peer).trans hc, fun q qs hq => ⟨_, hout q qs hq, rfl, rfl, rfl, ?_⟩⟩
  rw [ethHdr, hc]

/-! ### A DATA packet arrives (R297 to R300) -/

/-- The state as an arriving packet has been counted, before its PSN is looked at. -/
def ethCounted (s : State) (p b peer : Nat) (e : EthPkt) : State :=
  let s := ethRelease (ethAlive s b peer) b peer e.apsn
  let s := countShared s (portBlk p) 1 16 1 3
  let s := if e.ce then countShared s (portBlk p) 9 16 1 3 else s
  modConn s b peer (fun c =>
    { c with
      rxBytes := c.rxBytes + e.bytes
      ceBytes := if e.ce then c.ceBytes + e.bytes else c.ceBytes })

theorem ethCounted_effect (s : State) (p b peer : Nat) (e : EthPkt) : AtConn s (ethCounted s p b peer e) ∧ (ethCounted s p b peer e).out = s.out ∧
    ((ethCounted s p b peer e).conn b peer).rxPsn = (s.conn b peer).rxPsn ∧ ((ethCounted s p b peer e).conn b peer).nakOut = (s.conn b peer).nakOut ∧
    ((ethCounted s p b peer e).conn b peer).toAck = (s.conn b peer).toAck ∧ ((ethCounted s p b peer e).conn b peer).dead = false ∧
    ((ethCounted s p b peer e).conn b peer).rxBytes = (s.conn b peer).rxBytes + e.bytes := by
  obtain ⟨hat1, hout1, hc1⟩ := ethAlive_effect s b peer
  obtain ⟨hat2, hout2, hc2⟩ := ethRelease_effect (ethAlive s b peer) b peer e.apsn
  unfold ethCounted
  extract_lets s1 s2 s3
  have h1 : AtConn s s1 ∧ s1.out = s.out ∧ TxOnly { s.conn b peer with dead := false } (s1.conn b peer) :=
    ⟨hat1.trans hat2, hout2.trans hout1, hc1 ▸ hc2⟩
  clear_value s1
  have h2 : AtConn s s3 ∧ s3.out = s.out ∧ s3.conn b peer = s1.conn b peer := by
    unfold s3 s2
    split
    · exact ⟨h1.1.trans rfl, h1.2.1, rfl⟩
    · exact ⟨h1.1.trans rfl, h1.2.1, rfl⟩
  clear_value s3
  obtain ⟨hat, hout, htx⟩ := h1
  obtain ⟨hat3, hout3, hc3⟩ := h2
  rw [conn_modConn, hc3]
  exact ⟨hat3.trans (atConn_modConn s3 b peer _), hout3, htx.rxPsn, htx.nakOut, htx.toAck, htx.dead, congrArg (· + e.bytes) htx.rxBytes⟩

/-- A connection as it takes the packet that is next. -/
def Conn.taken (c : Conn) : Conn :=
  { c with
    rxPsn := (c.rxPsn + 1) % 2 ^ 24
    nakOut := false
    toAck := c.toAck + 1 }

/-- The state as the packet that is next has been looked at. -/
def ethTaken (s : State) (p b peer : Nat) (k : LinkPkt) : State :=
  if !knownOpc k.opc || 64 < k.len then violation (refusePkt s k 7) p 4
  else if !srcAdmits s p k.sdev then violation (refusePkt s k 3) p 8
  else emit (ethAnswered s b peer k) (Output.linkPkt p k)

theorem ethTaken_effect {s : State} {p : Nat} {k : LinkPkt} (hopc : knownOpc k.opc = true) (hlen : k.len ≤ 64) (hsrc : srcAdmits s p k.sdev = true)
    (b peer : Nat) : AtConn s (ethTaken s p b peer k) ∧ (ethTaken s p b peer k).out = s.out ++ [Output.linkPkt p k] ∧
      TxOnly (s.conn b peer) ((ethTaken s p b peer k).conn b peer) := by
  obtain ⟨hat, hout, htx⟩ := ethAnswered_effect s b peer k
  have hlen' : decide (64 < k.len) = false := decide_eq_false (by omega)
  rw [ethTaken, hopc, hsrc, hlen']
  exact ⟨hat.trans (atConn_emit _ _), congrArg (· ++ [Output.linkPkt p k]) hout, htx⟩

theorem exec_ethDataPacket {s : State} {p b peer : Nat} {e : EthPkt} (hp : p < 40) (heth : (s.port p).eth = true) (hst : (s.port p).st = .admitted)
    (hmac : e.mac = false) : exec (.ethDataPacket p b peer e) s = .next (
      if e.psn ≠ ((ethCounted s p b peer e).conn b peer).rxPsn then
        if ((ethCounted s p b peer e).conn b peer).nakOut then ethCounted s p b peer e
        else ethCtl (modConn (ethCounted s p b peer e) b peer (fun c => { c with nakOut := true })) b peer 2 ((ethCounted s p b peer e).conn b peer).rxPsn 0
      else
        if 16 ≤ ((ethTaken (modConn (ethCounted s p b peer e) b peer Conn.taken) p b peer e.pkt).conn b peer).toAck then
          ethAck (ethTaken (modConn (ethCounted s p b peer e) b peer Conn.taken) p b peer e.pkt) b peer
        else ethTaken (modConn (ethCounted s p b peer e) b peer Conn.taken) p b peer e.pkt) := by
  change Host.Outcome.next _ = _
  rw [if_neg (by simp [heth, hst]; exact hp), hmac]
  rfl

/-- R299: a packet that comes in order is taken. -/
theorem ethData_inOrder {s : State} {p b peer : Nat} {e : EthPkt} (hp : p < 40) (heth : (s.port p).eth = true) (hst : (s.port p).st = .admitted)
    (hmac : e.mac = false) (hlt : e.psn < 2 ^ 24) (hpsn : e.psn = (s.conn b peer).rxPsn) (hopc : knownOpc e.pkt.opc = true) (hlen : e.pkt.len ≤ 64)
    (hsrc : srcAdmits s p e.pkt.sdev = true) : ∃ t, exec (.ethDataPacket p b peer e) s = .next t ∧ t.mem = s.mem ∧ t.cores = s.cores ∧
      (t.conn b peer).rxPsn = (e.psn + 1) % 2 ^ 24 ∧ (t.conn b peer).nakOut = false ∧ (t.conn b peer).dead = false ∧
      (t.conn b peer).rxBytes = (s.conn b peer).rxBytes + e.bytes ∧
      ((s.conn b peer).toAck < 15 → t.out = s.out ++ [Output.linkPkt p e.pkt] ∧ (t.conn b peer).toAck = (s.conn b peer).toAck + 1) ∧
      ((s.conn b peer).toAck = 15 → (t.conn b peer).toAck = 0 ∧
        ∀ q qs, bundlePorts s b = q :: qs → ∃ h, t.out = s.out ++ [Output.linkPkt p e.pkt, Output.ethCtl h] ∧ h.port = q ∧ h.peer = peer ∧
          h.type_ = 1 ∧ h.apsn = e.psn) := by
  have hexec := exec_ethDataPacket (b := b) (peer := peer) hp heth hst hmac
  obtain ⟨hat1, hout1, hrx, -, hto, hdead, hbytes⟩ := ethCounted_effect s p b peer e
  generalize ethCounted s p b peer e = u at *
  rw [if_neg (by rw [hrx]; exact not_not.2 hpsn)] at hexec
  have hc2 := conn_modConn u b peer Conn.taken
  have hat2 := hat1.trans (atConn_modConn u b peer Conn.taken)
  have hout2 := (out_modConn u b peer Conn.taken).trans hout1
  generalize modConn u b peer Conn.taken = v at *
  have hsrc' : srcAdmits v p e.pkt.sdev = true := by
    rw [hat2]
    exact hsrc
  obtain ⟨hat3, hout3, hcw⟩ := ethTaken_effect hopc hlen hsrc' b peer
  have hatw := hat2.trans hat3
  have houtw : (ethTaken v p b peer e.pkt).out = s.out ++ [Output.linkPkt p e.pkt] := by rw [hout3, hout2]
  generalize ethTaken v p b peer e.pkt = w at *
  rw [hc2] at hcw
  have hwto : (w.conn b peer).toAck = (s.conn b peer).toAck + 1 := by rw [hcw.toAck, Conn.taken, hto]
  have hwrx : (w.conn b peer).rxPsn = (e.psn + 1) % 2 ^ 24 := by rw [hcw.rxPsn, Conn.taken, hrx, hpsn]
  have hwnak : (w.conn b peer).nakOut = false := by rw [hcw.nakOut, Conn.taken]
  have hwdead : (w.conn b peer).dead = false := by rw [hcw.dead]; exact hdead
  have hwbytes : (w.conn b peer).rxBytes = (s.conn b peer).rxBytes + e.bytes := by rw [hcw.rxBytes]; exact hbytes
  by_cases hfull : 16 ≤ (w.conn b peer).toAck
  · obtain ⟨hat4, hc4, hout4⟩ := ethAck_effect w b peer
    rw [if_pos hfull] at hexec
    refine ⟨_, hexec, (hatw.trans hat4).mem, (hatw.trans hat4).cores, ?_, ?_, ?_, ?_, fun h => by omega, fun _ => ⟨?_, fun q qs hq => ?_⟩⟩
    · rw [hc4]; exact hwrx
    · rw [hc4]; exact hwnak
    · rw [hc4]; exact hwdead
    · rw [hc4]; exact hwbytes
    · rw [hc4]
    · obtain ⟨h, ho, h1, h2, h3, h4⟩ := hout4 q qs (by rw [hatw.bundlePorts]; exact hq)
      refine ⟨h, ?_, h1, h2, h3, ?_⟩
      · rw [ho, houtw, List.append_assoc]
        rfl
      · rw [h4, hwrx]
        omega
  · rw [if_neg hfull] at hexec
    exact ⟨_, hexec, hatw.mem, hatw.cores, hwrx, hwnak, hwdead, hwbytes, fun _ => ⟨houtw, hwto⟩, fun h => by omega⟩

/-- R299: a packet out of order is dropped, with one NAK. -/
theorem ethData_outOfOrder {s : State} {p b peer : Nat} {e : EthPkt} (hp : p < 40) (heth : (s.port p).eth = true) (hst : (s.port p).st = .admitted)
    (hmac : e.mac = false) (hpsn : e.psn ≠ (s.conn b peer).rxPsn) : ∃ t, exec (.ethDataPacket p b peer e) s = .next t ∧ t.mem = s.mem ∧
      t.cores = s.cores ∧ (t.conn b peer).rxPsn = (s.conn b peer).rxPsn ∧ (t.conn b peer).nakOut = true ∧
      ((s.conn b peer).nakOut = true → t.out = s.out) ∧
      ((s.conn b peer).nakOut = false → ∀ q qs, bundlePorts s b = q :: qs → ∃ h, t.out = s.out ++ [Output.ethCtl h] ∧ h.port = q ∧
        h.peer = peer ∧ h.type_ = 2 ∧ h.psn = (s.conn b peer).rxPsn) := by
  have hexec := exec_ethDataPacket (b := b) (peer := peer) hp heth hst hmac
  obtain ⟨hat1, hout1, hrx, hnak, -, -, -⟩ := ethCounted_effect s p b peer e
  generalize ethCounted s p b peer e = u at *
  rw [if_pos (by rw [hrx]; exact hpsn), hnak, hrx] at hexec
  cases hn : (s.conn b peer).nakOut with
  | true =>
    rw [hn, if_pos rfl] at hexec
    exact ⟨u, hexec, hat1.mem, hat1.cores, hrx, hnak.trans hn, fun _ => hout1, nofun⟩
  | false =>
    rw [hn, if_neg Bool.false_ne_true] at hexec
    have hc2 := conn_modConn u b peer (fun c => { c with nakOut := true })
    have hat2 := hat1.trans (atConn_modConn u b peer (fun c => { c with nakOut := true }))
    have hout2 := (out_modConn u b peer (fun c => { c with nakOut := true })).trans hout1
    generalize modConn u b peer _ = v at *
    obtain ⟨hat3, hconn, hout⟩ := ethCtl_effect v b peer 2 (s.conn b peer).rxPsn 0
    have hc : (ethCtl v b peer 2 (s.conn b peer).rxPsn 0).conn b peer = { u.conn b peer with nakOut := true } := (hconn b peer).trans hc2
    refine ⟨_, hexec, (hat2.trans hat3).mem, (hat2.trans hat3).cores, ?_, ?_, nofun, fun _ q qs hq =>
      ⟨{ ethHdr v q b peer 2 (s.conn b peer).rxPsn with mfrac := 0 }, ?_, rfl, rfl, rfl, rfl⟩⟩
    · rw [hc]
      exact hrx
    · rw [hc]
    · rw [hout q qs (by rw [hat2.bundlePorts]; exact hq), hout2]

/-! ### Acknowledgements, resends and their end (R299) -/

/-- R299: what an ACK releases. -/
theorem ethAckFrame_effect {s : State} {b peer apsn n : Nat} {x : Nat × LinkPkt} {rest : List (Nat × LinkPkt)} (hun : (s.conn b peer).unacked = x :: rest)
    (hn : n = (apsn + 1 + 2 ^ 24 - x.1) % 2 ^ 24) : ∃ t, exec (.ethAck b peer apsn) s = .next t ∧ t.out = s.out ∧ t.mem = s.mem ∧
      t.cores = s.cores ∧ (t.conn b peer).dead = false ∧
      (t.conn b peer).unacked = (if n ≤ rest.length + 1 then (x :: rest).drop n else x :: rest) ∧
      (n ≤ rest.length + 1 → ∀ y ∈ (x :: rest).take n, isRequest y.2.opc = true → y.2 ∈ (t.conn b peer).open_) := by
  obtain ⟨hat1, hout1, hc1⟩ := ethAlive_effect s b peer
  obtain ⟨hat2, hout2, htx⟩ := ethRelease_effect (ethAlive s b peer) b peer apsn
  have hdead : ((ethRelease (ethAlive s b peer) b peer apsn).conn b peer).dead = false := by rw [htx.dead, hc1]
  have hun1 : ((ethAlive s b peer).conn b peer).unacked = x :: rest := by
    rw [hc1]
    exact hun
  have hnamed : namedBy ((ethAlive s b peer).conn b peer) apsn = n := by rw [namedBy, hun1, hn]
  have hrel := ethRelease_eq (ethAlive s b peer) b peer apsn
  rw [hnamed, hun1] at hrel
  have hexec : exec (.ethAck b peer apsn) s = .next (ethRelease (ethAlive s b peer) b peer apsn) := rfl
  refine ⟨_, hexec, hout2.trans hout1, (hat1.trans hat2).mem, (hat1.trans hat2).cores, hdead, ?_⟩
  generalize ethAlive s b peer = u at *
  by_cases hle : n ≤ rest.length + 1
  · rw [if_pos hle]
    by_cases h0 : n = 0
    · rw [if_pos (.inl h0)] at hrel
      rw [hrel, hun1, h0]
      exact ⟨rfl, fun _ y hy => absurd hy (by simp)⟩
    · rw [if_neg (by rw [List.length_cons]; omega)] at hrel
      rw [hrel, conn_modConn]
      dsimp only
      rw [hun1]
      refine ⟨rfl, fun _ y hy hreq => List.mem_append_right _ (List.mem_filter.2 ⟨List.mem_map_of_mem hy, hreq⟩)⟩
  · rw [if_pos (.inr (by rw [List.length_cons]; omega))] at hrel
    rw [if_neg hle, hrel, hun1]
    exact ⟨rfl, fun h => absurd h hle⟩

/-- R303: the port of a bundle with one admitted port. -/
theorem bundlePort_one {s : State} {b q : Nat} (h : bundlePorts s b = [q]) (k : LinkPkt) : bundlePort s b k = some q := by
  rw [bundlePort, h]
  rw [if_neg (by simp)]
  have hidx : (if ordered k = true then hashPort k [q].length else mget 0 s.links.spray b % [q].length) = 0 := by
    split
    · exact Nat.mod_one _
    · exact Nat.mod_one _
  rw [hidx]
  rfl

theorem bundlePort_nil {s : State} {b : Nat} (h : bundlePorts s b = []) (k : LinkPkt) : bundlePort s b k = none := by
  rw [bundlePort, h]
  rfl

/-- R299: one packet is sent again. -/
def resendOne (b : Nat) (s : State) (x : Nat × LinkPkt) : State :=
  match bundlePort s b x.2 with
  | some p => emit (sprayed s b x.2) (Output.ethData (ethDataHdr s p b x.1 x.2) x.2)
  | none => s

theorem resendOne_effect (s : State) (b : Nat) (x : Nat × LinkPkt) : AtConn s (resendOne b s x) ∧ (resendOne b s x).links.conns = s.links.conns ∧
    (bundlePorts s b = [] → (resendOne b s x).out = s.out) ∧
    ∀ q, bundlePorts s b = [q] → (resendOne b s x).out = s.out ++ [Output.ethData (ethDataHdr s q b x.1 x.2) x.2] := by
  obtain ⟨hat, hout⟩ := atConn_sprayed s b x.2
  have hconns : (sprayed s b x.2).links.conns = s.links.conns := by
    rw [sprayed]
    split <;> rfl
  rw [resendOne]
  split
  · next p hp =>
    refine ⟨hat.trans (atConn_emit _ _), hconns, fun h => ?_, fun q h => ?_⟩
    · rw [bundlePort_nil h] at hp
      cases hp
    · rw [bundlePort_one h] at hp
      cases hp
      rw [← hout]
      rfl
  · next hp =>
    refine ⟨AtConn.refl s, rfl, fun _ => rfl, fun q h => ?_⟩
    rw [bundlePort_one h] at hp
    cases hp

theorem resendAll_effect (b : Nat) (xs : List (Nat × LinkPkt)) (s : State) : AtConn s (xs.foldl (resendOne b) s) ∧
    (xs.foldl (resendOne b) s).links.conns = s.links.conns ∧ (bundlePorts s b = [] → (xs.foldl (resendOne b) s).out = s.out) ∧
    ∀ q, bundlePorts s b = [q] → (xs.foldl (resendOne b) s).out = s.out ++ xs.map (fun y => Output.ethData (ethDataHdr s q b y.1 y.2) y.2) := by
  induction xs generalizing s with
  | nil => exact ⟨AtConn.refl s, rfl, fun _ => rfl, fun _ _ => (List.append_nil _).symm⟩
  | cons x xs ih =>
    obtain ⟨hat, hconns, hnone, hone⟩ := resendOne_effect s b x
    obtain ⟨hat', hconns', hnone', hone'⟩ := ih (resendOne b s x)
    rw [hat.bundlePorts] at hnone' hone'
    refine ⟨hat.trans hat', hconns'.trans hconns, fun h => (hnone' h).trans (hnone h), fun q h => ?_⟩
    have hhdr : ∀ (q : Nat) (y : Nat × LinkPkt), ethDataHdr (resendOne b s x) q b y.1 y.2 = ethDataHdr s q b y.1 y.2 := fun q y =>
      ethDataHdr_congr hat.cfg (congrArg Conn.rxPsn (conn_of_conns hconns b y.2.ddev)) q y.1
    simp only [hhdr] at hone'
    rw [List.foldl_cons, hone' q h, hone q h, List.map_cons, List.append_assoc]
    rfl

/-- R299: a resend counts, and sends every unacknowledged packet again. -/
theorem ethResend_effect {s : State} {b peer : Nat} (hun : (s.conn b peer).unacked ≠ []) (hless : (s.conn b peer).resends < 7) :
    AtConn s (ethResend s b peer) ∧ (ethResend s b peer).conn b peer = { s.conn b peer with resends := (s.conn b peer).resends + 1 } ∧
    (bundlePorts s b = [] → (ethResend s b peer).out = s.out) ∧
    ∀ q, bundlePorts s b = [q] → (ethResend s b peer).out = s.out ++ (s.conn b peer).unacked.map (fun y => Output.ethData (ethDataHdr s q b y.1 y.2) y.2) := by
  have hres : ethResend s b peer = (s.conn b peer).unacked.foldl (resendOne b) (modConn s b peer (fun c => { c with resends := c.resends + 1 })) := by
    rw [ethResend]
    dsimp only
    rw [if_neg hun, if_neg (by omega)]
    rfl
  have hc := conn_modConn s b peer (fun c => { c with resends := c.resends + 1 })
  have hat := atConn_modConn s b peer (fun c => { c with resends := c.resends + 1 })
  have hout := out_modConn s b peer (fun c => { c with resends := c.resends + 1 })
  have hothers : ∀ y : Nat × LinkPkt, ((modConn s b peer (fun c => { c with resends := c.resends + 1 })).conn b y.2.ddev).rxPsn = (s.conn b y.2.ddev).rxPsn :=
    fun y => rxPsn_modConn s b peer (fun c => { c with resends := c.resends + 1 }) (fun c => rfl) b y.2.ddev
  generalize modConn s b peer _ = u at *
  obtain ⟨hat', hconns, hnone, hone⟩ := resendAll_effect b (s.conn b peer).unacked u
  rw [hat.bundlePorts] at hnone hone
  have hhdr : ∀ (q : Nat) (y : Nat × LinkPkt), ethDataHdr u q b y.1 y.2 = ethDataHdr s q b y.1 y.2 := fun q y =>
    ethDataHdr_congr hat.cfg (hothers y) q y.1
  simp only [hhdr, hout] at hnone hone
  rw [hres]
  exact ⟨hat.trans hat', (conn_of_conns hconns b peer).trans hc, hnone, hone⟩

end Sys2Proof.Machine
end

section
/-!
SUPPORT. Ethernet connections act in order (R298 to R301).
-/

namespace Sys2Proof.Machine

/-! ### A peer that is given up (R299) -/

theorem refuseAll_eq (ks : List LinkPkt) (s : State) (st : Nat) : ks.foldl (fun s k => refusePkt s k st) s =
    { s with out := s.out ++ ks.flatMap (fun k => refusal k st) } := by
  induction ks generalizing s with
  | nil =>
    rw [List.flatMap_nil, List.append_nil]
    rfl
  | cons k ks ih => rw [List.foldl_cons, ih, refusePkt_eq, List.flatMap_cons, List.append_assoc]

/-- A connection whose peer is unreachable. -/
def Conn.lost (c : Conn) : Conn :=
  { c with
    unacked := []
    open_ := []
    dead := true }

/-- R299: the peer is unreachable, and what is outstanding to it is answered ABORTED. -/
theorem ethResend_lost {s : State} {b peer : Nat} (hun : (s.conn b peer).unacked ≠ []) (hmany : 7 ≤ (s.conn b peer).resends) :
    ethResend s b peer = raiseEvent (modConn { s with out := s.out ++
      ((s.conn b peer).unacked.map (·.2) ++ (s.conn b peer).open_).flatMap (fun k => refusal k 7) } b peer Conn.lost) 0x3002 0 0 none [peer] := by
  rw [ethResend]
  dsimp only
  rw [if_neg hun, if_pos hmany, refuseAll_eq]
  rfl

theorem ethLost_effect {s : State} {b peer : Nat} (hun : (s.conn b peer).unacked ≠ []) (hmany : 7 ≤ (s.conn b peer).resends) :
    ∃ t, exec (.ethRto b peer) s = .next t ∧ t.mem = s.mem ∧ t.cores = s.cores ∧ (t.conn b peer).unacked = [] ∧
      (t.conn b peer).open_ = [] ∧ (t.conn b peer).dead = true ∧
      t.out = s.out ++ (s.conn b peer).unacked.flatMap (fun y => refusal y.2 7) ++ (s.conn b peer).open_.flatMap (fun y => refusal y 7) ∧
      LogGets s t 0x3002 4 := by
  have hexec : exec (.ethRto b peer) s = .next (ethResend s b peer) := rfl
  rw [hexec, ethResend_lost hun hmany]
  have hout : ((s.conn b peer).unacked.map (·.2) ++ (s.conn b peer).open_).flatMap (fun k => refusal k 7) =
      (s.conn b peer).unacked.flatMap (fun y => refusal y.2 7) ++ (s.conn b peer).open_.flatMap (fun y => refusal y 7) := by
    rw [List.flatMap_append, List.flatMap_map]
  rw [hout]
  generalize (s.conn b peer).unacked.flatMap (fun y => refusal y.2 7) = a
  generalize (s.conn b peer).open_.flatMap (fun y => refusal y 7) = o
  have hconn := conn_modConn { s with out := s.out ++ (a ++ o) } b peer Conn.lost
  have hget : LogGets (modConn { s with out := s.out ++ (a ++ o) } b peer Conn.lost) (raiseEvent _ 0x3002 0 0 none [peer]) 0x3002 4 :=
    logGets_raiseRec (by decide) _ _ _ _ _ _ _
  have ht := tells_raiseEvent (modConn { s with out := s.out ++ (a ++ o) } b peer Conn.lost) 0x3002 0 0 none [peer]
  have hlogged : Logged _ (raiseEvent (modConn { s with out := s.out ++ (a ++ o) } b peer Conn.lost) 0x3002 0 0 none [peer]) :=
    logged_raiseRec _ _ _ _ _ _ _ _
  have hcr : (raiseEvent (modConn { s with out := s.out ++ (a ++ o) } b peer Conn.lost) 0x3002 0 0 none [peer]).conn b peer = Conn.lost (s.conn b peer) := by
    refine Eq.trans (conn_of_conns ?_ b peer) hconn
    rw [hlogged]
  have hor : (raiseEvent (modConn { s with out := s.out ++ (a ++ o) } b peer Conn.lost) 0x3002 0 0 none [peer]).out = s.out ++ (a ++ o) := by
    rw [hlogged]
    rfl
  refine ⟨_, rfl, ht.mem, ht.cores, ?_, ?_, ?_, ?_, hget.of_same rfl rfl⟩
  · rw [hcr, Conn.lost]
  · rw [hcr, Conn.lost]
  · rw [hcr, Conn.lost]
  · rw [hor, List.append_assoc]

/-! ### Timers and rates (R299, R300) -/

theorem exec_ethNak {s : State} {b peer : Nat} {x : Nat × LinkPkt} {rest : List (Nat × LinkPkt)} (hun : (s.conn b peer).unacked = x :: rest)
    (hx : x.1 < 2 ^ 24) : exec (.ethNak b peer x.1) s = .next (ethResend (ethAlive s b peer) b peer) := by
  obtain ⟨-, -, hc⟩ := ethAlive_effect s b peer
  have hrel := ethRelease_eq (ethAlive s b peer) b peer ((x.1 + 2 ^ 24 - 1) % 2 ^ 24)
  have hnamed : namedBy ((ethAlive s b peer).conn b peer) ((x.1 + 2 ^ 24 - 1) % 2 ^ 24) = 0 := by
    have hun' : ((ethAlive s b peer).conn b peer).unacked = x :: rest := by
      rw [hc]
      exact hun
    rw [namedBy, hun']
    dsimp only
    omega
  rw [if_pos (.inl hnamed)] at hrel
  have hexec : exec (.ethNak b peer x.1) s = .next (ethResend (ethRelease (ethAlive s b peer) b peer ((x.1 + 2 ^ 24 - 1) % 2 ^ 24)) b peer) := rfl
  rw [hexec, hrel]

/-- R300: whether a CNP came less than 20 µs ago. -/
def cutSoon (s : State) (b peer : Nat) : Bool :=
  match (s.conn b peer).cutAt with
  | some t => decide (s.now < t + 20000)
  | none => false

/-- A connection as a further CNP within 20 µs leaves it. -/
def Conn.ignores (c : Conn) : Conn :=
  { c with
    ignored := c.ignored + 1
    cnpSeen := true }

/-- A connection as a CNP cuts its rate. -/
def Conn.cuts (c : Conn) (mfrac now : Nat) : Conn :=
  { c with
    rate := max 1 (c.rate * (1 - (mfrac : Rat) / 512))
    step := 2
    raises := 0
    cutAt := some now
    cnpSeen := true }

/-- One port's counter of CNPs. -/
def cnpCounted (b : Nat) (s : State) (p : Nat) : State :=
  if (s.port p).bv && (s.port p).bundle == b && (s.port p).eth then countShared s (portBlk p) 0xB 16 1 3 else s

theorem cnpCounted_effect (b : Nat) (s : State) (p : Nat) : AtConn s (cnpCounted b s p) ∧ (cnpCounted b s p).out = s.out ∧
    (cnpCounted b s p).links.conns = s.links.conns := by
  rw [cnpCounted]
  split <;> exact ⟨rfl, rfl, rfl⟩

theorem exec_cnp (b peer mfrac : Nat) (s : State) : ∃ u, AtConn s u ∧ u.out = s.out ∧ u.conn b peer = { s.conn b peer with dead := false } ∧
    exec (.cnp b peer mfrac) s = .next (if cutSoon (ethAlive s b peer) b peer then modConn u b peer Conn.ignores
      else modConn u b peer (fun c => c.cuts mfrac u.now)) := by
  obtain ⟨hat, hout, hc⟩ := ethAlive_effect s b peer
  have hfold : AtConn (ethAlive s b peer) ((List.range 40).foldl (cnpCounted b) (ethAlive s b peer)) ∧
      ((List.range 40).foldl (cnpCounted b) (ethAlive s b peer)).out = (ethAlive s b peer).out ∧
      ((List.range 40).foldl (cnpCounted b) (ethAlive s b peer)).links.conns = (ethAlive s b peer).links.conns := by
    refine List.foldlRecOn (motive := fun t => AtConn (ethAlive s b peer) t ∧ t.out = (ethAlive s b peer).out ∧
      t.links.conns = (ethAlive s b peer).links.conns) _ _ ⟨AtConn.refl _, rfl, rfl⟩ fun t ht p _ => ?_
    obtain ⟨h1, h2, h3⟩ := ht
    obtain ⟨k1, k2, k3⟩ := cnpCounted_effect b t p
    exact ⟨h1.trans k1, k2.trans h2, k3.trans h3⟩
  obtain ⟨h1, h2, h3⟩ := hfold
  exact ⟨_, hat.trans h1, h2.trans hout, (conn_of_conns h3 b peer).trans hc, rfl⟩

/-- R299, R300: what a CNP brings. -/
theorem cnp_effect (s : State) (b peer mfrac : Nat) : ∃ t, exec (.cnp b peer mfrac) s = .next t ∧ t.out = s.out ∧ t.mem = s.mem ∧
    t.cores = s.cores ∧ (t.conn b peer).cnpSeen = true ∧ (t.conn b peer).dead = false ∧
    ((∀ a, (s.conn b peer).cutAt = some a → a + 20000 ≤ s.now) → (t.conn b peer).step = 2 ∧ (t.conn b peer).raises = 0 ∧
      (t.conn b peer).rate = max 1 ((s.conn b peer).rate * (1 - (mfrac : Rat) / 512)) ∧ (t.conn b peer).cutAt = some s.now) ∧
    (∀ a, (s.conn b peer).cutAt = some a → s.now < a + 20000 → (t.conn b peer).rate = (s.conn b peer).rate ∧
      (t.conn b peer).step = (s.conn b peer).step ∧ (t.conn b peer).ignored = (s.conn b peer).ignored + 1) := by
  obtain ⟨u, hat, hout, hc, hexec⟩ := exec_cnp b peer mfrac s
  obtain ⟨hata, -, hca⟩ := ethAlive_effect s b peer
  have hsoon : ∀ a, (s.conn b peer).cutAt = some a → cutSoon (ethAlive s b peer) b peer = decide (s.now < a + 20000) := fun a ha => by
    rw [cutSoon, hca, hata.now]
    dsimp only
    rw [ha]
  have hnone : (s.conn b peer).cutAt = none → cutSoon (ethAlive s b peer) b peer = false := fun ha => by
    rw [cutSoon, hca]
    dsimp only
    rw [ha]
  refine ⟨_, hexec, ?_⟩
  cases hs : cutSoon (ethAlive s b peer) b peer with
  | true =>
    have hcc := conn_modConn u b peer Conn.ignores
    rw [hc] at hcc
    rw [if_pos rfl]
    refine ⟨hout, hat.mem, hat.cores, ?_, ?_, fun hlate => ?_, fun a ha hlt => ?_⟩
    · rw [hcc, Conn.ignores]
    · rw [hcc, Conn.ignores]
    · cases ha : (s.conn b peer).cutAt with
      | none =>
        rw [hnone ha] at hs
        cases hs
      | some a =>
        rw [hsoon a ha, decide_eq_true_eq] at hs
        exact absurd hs (Nat.not_lt.2 (hlate a ha))
    · rw [hcc, Conn.ignores]
      exact ⟨rfl, rfl, rfl⟩
  | false =>
    have hcc := conn_modConn u b peer (fun c => c.cuts mfrac u.now)
    rw [hc, hat.now] at hcc
    rw [if_neg Bool.false_ne_true, hat.now]
    refine ⟨hout, hat.mem, hat.cores, ?_, ?_, fun _ => ?_, fun a ha hlt => ?_⟩
    · rw [hcc, Conn.cuts]
    · rw [hcc, Conn.cuts]
    · rw [hcc, Conn.cuts]
      exact ⟨rfl, rfl, rfl, rfl⟩
    · rw [hsoon a ha, decide_eq_false_iff_not] at hs
      exact absurd hlt hs

/-- A connection as a CNP interval ends. -/
def Conn.intervalEnds (c : Conn) : Conn :=
  { c with
    ceBytes := 0
    rxBytes := 0 }

/-- One port's counter of CNPs sent. -/
def cnpSent (s : State) (b : Nat) : State :=
  match bundlePorts s b with
  | [] => s
  | p :: _ => countShared s (portBlk p) 0xA 16 1 3

theorem cnpSent_effect (s : State) (b : Nat) : AtConn s (cnpSent s b) ∧ (cnpSent s b).out = s.out ∧ ∀ peer, (cnpSent s b).conn b peer = s.conn b peer := by
  rw [cnpSent]
  split <;> exact ⟨rfl, rfl, fun _ => rfl⟩

/-- R300: MFRAC, the fraction of the bytes that came marked. -/
def Conn.marked (c : Conn) : Nat := min 255 ((256 * c.ceBytes + c.rxBytes - 1) / c.rxBytes)

theorem exec_cnpIntervalEnd (s : State) (b peer : Nat) : exec (.cnpIntervalEnd b peer) s = .next (
    if (s.conn b peer).ceBytes = 0 then modConn s b peer Conn.intervalEnds
    else ethCtl (cnpSent (modConn s b peer Conn.intervalEnds) b) b peer 3 0 (s.conn b peer).marked) := rfl

/-- R300: what the end of a CNP interval brings. -/
theorem cnpInterval_effect (s : State) (b peer : Nat) : ∃ t, exec (.cnpIntervalEnd b peer) s = .next t ∧ t.mem = s.mem ∧ t.cores = s.cores ∧
    (t.conn b peer).ceBytes = 0 ∧ (t.conn b peer).rxBytes = 0 ∧ ((s.conn b peer).ceBytes = 0 → t.out = s.out) ∧
    ((s.conn b peer).ceBytes ≠ 0 → ∀ q qs, bundlePorts s b = q :: qs → ∃ h, t.out = s.out ++ [Output.ethCtl h] ∧ h.port = q ∧
      h.peer = peer ∧ h.type_ = 3 ∧
      h.mfrac = min 255 ((256 * (s.conn b peer).ceBytes + (s.conn b peer).rxBytes - 1) / (s.conn b peer).rxBytes)) := by
  have hc := conn_modConn s b peer Conn.intervalEnds
  have hat := atConn_modConn s b peer Conn.intervalEnds
  have hout := out_modConn s b peer Conn.intervalEnds
  rw [exec_cnpIntervalEnd]
  generalize modConn s b peer Conn.intervalEnds = u at *
  refine ⟨_, rfl, ?_⟩
  by_cases hce : (s.conn b peer).ceBytes = 0
  · rw [if_pos hce, hc]
    exact ⟨hat.mem, hat.cores, rfl, rfl, fun _ => hout, fun h => absurd hce h⟩
  · obtain ⟨h1, h2, h3⟩ := cnpSent_effect u b
    obtain ⟨hatc, hcc, houtc⟩ := ethCtl_effect (cnpSent u b) b peer 3 0 (s.conn b peer).marked
    have hall := (hat.trans h1).trans hatc
    rw [if_neg hce, hcc, h3, hc]
    refine ⟨hall.mem, hall.cores, rfl, rfl, fun h => absurd h hce, fun _ q qs hq =>
      ⟨{ ethHdr (cnpSent u b) q b peer 3 0 with mfrac := (s.conn b peer).marked }, ?_, rfl, rfl, rfl, rfl⟩⟩
    rw [houtc q qs (by rw [h1.bundlePorts, hat.bundlePorts]; exact hq), h2, hout]

/-- R300: what 40 µs bring. -/
theorem rateTimer_effect (s : State) (b peer : Nat) : ∃ t, exec (.rateIncreaseTimer b peer) s = .next t ∧ t.out = s.out ∧ t.mem = s.mem ∧
    t.cores = s.cores ∧ (t.conn b peer).cnpSeen = false ∧
    ((s.conn b peer).cnpSeen = true → (t.conn b peer).rate = (s.conn b peer).rate ∧ (t.conn b peer).raises = 0) ∧
    ((s.conn b peer).cnpSeen = false → (t.conn b peer).rate = min 800 ((s.conn b peer).rate + (s.conn b peer).step) ∧
      (t.conn b peer).raises = (s.conn b peer).raises + 1 ∧ (t.conn b peer).step =
        if ((s.conn b peer).raises + 1) % 4 = 0 then min 64 (2 * (s.conn b peer).step) else (s.conn b peer).step) := by
  have hexec : exec (.rateIncreaseTimer b peer) s = execRateIncreaseTimer b peer s := rfl
  rw [hexec, execRateIncreaseTimer]
  refine ⟨_, rfl, rfl, rfl, rfl, ?_⟩
  rw [conn_modConn]
  cases hseen : (s.conn b peer).cnpSeen with
  | true => exact ⟨rfl, fun _ => ⟨rfl, rfl⟩, nofun⟩
  | false => exact ⟨rfl, nofun, fun _ => ⟨rfl, rfl, rfl⟩⟩

/-! ### A packet leaves by an Ethernet bundle (R303) -/

/-- R303, R304: a packet in transit for an Ethernet port of its own die leaves there. -/
theorem useBundle_eth {s : State} {l b p : Nat} {planeB : Bool} {x : TxPkt} (hport : bundlePort s b x.pkt = some p) (hp : p / 5 = l)
    (heth : (s.port p).eth = true) (habort : x.abort = false) : useBundle s l b planeB x = ethSend (sprayed s b x.pkt) b p x.pkt := by
  obtain ⟨hat, -⟩ := atConn_sprayed s b x.pkt
  have heth' : ((sprayed s b x.pkt).port p).eth = true := by
    rw [State.port, hat.ports]
    exact heth
  rw [useBundle, hport]
  dsimp only
  rw [if_neg (c := x.inp < 5 ∧ p / 5 ≠ l) (fun h => h.2 hp), if_pos heth', habort]
  rfl

theorem ethSend_sprayed {s : State} {b p : Nat} {k : LinkPkt} (hpeer : inPeers s k.ddev = true) (halive : (s.conn b k.ddev).dead = false) :
    AtConn s (ethSend (sprayed s b k) b p k) ∧
    (ethSend (sprayed s b k) b p k).out = s.out ++ [Output.ethData (ethDataHdr s p b (s.conn b k.ddev).txPsn k) k] ∧
    (ethSend (sprayed s b k) b p k).conn b k.ddev = { s.conn b k.ddev with
      txPsn := ((s.conn b k.ddev).txPsn + 1) % 2 ^ 24
      unacked := (s.conn b k.ddev).unacked ++ [((s.conn b k.ddev).txPsn, k)] } := by
  obtain ⟨hat, hout⟩ := atConn_sprayed s b k
  have hc := conn_sprayed s b k b k.ddev
  have hpeer' : inPeers (sprayed s b k) k.ddev = true := by
    rw [hat]
    exact hpeer
  obtain ⟨h1, h2, h3⟩ := ethSend_effect (s := sprayed s b k) (b := b) (p := p) (k := k) hpeer' (by rw [hc]; exact halive)
  rw [ethDataHdr_congr hat.cfg (by rw [hc]), hc, hout] at h2
  rw [hc] at h3
  exact ⟨hat.trans h1, h2, h3⟩

/-! ### The obligation -/

/-- Settles O43: each event acts on its one connection, and what leaves carries that connection's numbers. -/
theorem ethernetConnectionsActInOrder : Obligations.EthernetConnectionsActInOrder := by
  unfold Obligations.EthernetConnectionsActInOrder
  refine ⟨fun s l inp b p planeB k m e hl hi hp hep hhops he hbad hv hk hb hport heth hpeer halive hm => ?leaves,
    fun s p b peer e hp heth hst hmac => ?mac, fun s p b peer e hp heth hst hmac hlt =>
      ⟨fun hpsn hopc hlen hsrc => ethData_inOrder hp heth hst hmac hlt hpsn hopc hlen hsrc, fun hpsn => ethData_outOfOrder hp heth hst hmac hpsn⟩,
    fun s b peer apsn n x rest hun hn => ethAckFrame_effect hun hn, fun s b peer x rest hun hless => ⟨fun hx => ?nak, ?rto⟩,
    fun s b peer hun hmany => ethLost_effect hun hmany, fun s b peer => ?timer, fun s b peer mfrac => cnp_effect s b peer mfrac,
    fun s b peer => cnpInterval_effect s b peer, fun s b peer => rateTimer_effect s b peer, fun s b target => ?solicit⟩
  case leaves =>
    have htab : tableOf s.links l k.epoch = some ((s.links.epochOf l).toNat % 2) := by
      rw [hep, tableOf_held (.inl (by simp)), tableFor, if_pos (by simp)]
    obtain ⟨-, -, -, hbundle⟩ := routeBy_eq (k := { k with hops := k.hops + 1 }) hbad
    have hr := hbundle (he ▸ hv) (he ▸ hk)
    have hexec := exec_linkPacketRoute hl (show inp < 8 by omega) planeB k s
    rw [routePkt_transit s l hi, routeIn_transit (k := { k with hops := k.hops + 1 }) hhops htab hr] at hexec
    dsimp only at hexec
    rw [← he, ← hb, ← hm, useBundle_eth (p := p) (by rw [hm]; exact hport) hp heth rfl] at hexec
    have hdev : m.ddev = k.ddev := by rw [hm]
    obtain ⟨hat, hout, hconn⟩ := ethSend_sprayed (s := s) (b := b) (p := p) (k := m) (by rw [hdev]; exact hpeer) (by rw [hdev]; exact halive)
    rw [hdev] at hout hconn
    refine ⟨_, hexec, hat.mem, hat.cores, hout, ?_, ?_⟩
    · rw [hconn]
    · rw [hconn]
  case mac =>
    refine ⟨modPort s p (fun k => { k with macCtl := satInc k.macCtl 1 }), ?_, (atPort_modPort s p _).portOnly, rfl, rfl, ?_⟩
    · change Host.Outcome.next _ = _
      rw [if_neg (by simp [heth, hst]; exact hp), if_pos hmac]
    · rw [port_modPort]
  case nak =>
    obtain ⟨hat, hout, hc⟩ := ethAlive_effect s b peer
    have hexec := exec_ethNak hun hx
    have hrx : ∀ y : Nat × LinkPkt, ((ethAlive s b peer).conn b y.2.ddev).rxPsn = (s.conn b y.2.ddev).rxPsn := fun y =>
      rxPsn_modConn s b peer (fun c => { c with dead := false }) (fun c => rfl) b y.2.ddev
    generalize ethAlive s b peer = u at *
    have hhdr : ∀ (q : Nat) (y : Nat × LinkPkt), ethDataHdr u q b y.1 y.2 = ethDataHdr s q b y.1 y.2 := fun q y =>
      ethDataHdr_congr hat.cfg (hrx y) q y.1
    obtain ⟨hat', hc', -, hone⟩ := ethResend_effect (s := u) (b := b) (peer := peer) (by rw [hc, hun]; exact List.cons_ne_nil _ _) (by rw [hc]; exact hless)
    rw [hat.bundlePorts] at hone
    rw [hc] at hone hc'
    simp only [hhdr, hout, hun] at hone
    refine ⟨_, hexec, (hat.trans hat').mem, (hat.trans hat').cores, ?_, ?_, hone⟩
    · rw [hc']
      exact hun
    · rw [hc']
  case rto =>
    obtain ⟨hat, hc, hnone, hone⟩ := ethResend_effect (s := s) (b := b) (peer := peer) (by rw [hun]; exact List.cons_ne_nil _ _) hless
    rw [hun] at hone
    refine ⟨_, rfl, hat.mem, hat.cores, ?_, ?_, hnone, hone⟩
    · rw [hc]
      exact hun
    · rw [hc]
  case timer =>
    have hexec : exec (.ethAckTimer b peer) s = execEthAckTimer b peer s := rfl
    rw [hexec, execEthAckTimer]
    by_cases h0 : (s.conn b peer).toAck = 0
    · rw [if_pos h0]
      exact ⟨s, rfl, rfl, rfl, h0, fun _ => rfl, fun h => absurd h0 h⟩
    · obtain ⟨hat, hc, hout⟩ := ethAck_effect s b peer
      rw [if_neg h0]
      exact ⟨_, rfl, hat.mem, hat.cores, by rw [hc], fun h => absurd h h0, fun _ => hout⟩
  case solicit =>
    have hexec : exec (.neighbourSolicitation b target) s = execNeighbourSolicitation b target s := rfl
    rw [hexec, execNeighbourSolicitation]
    refine ⟨_, rfl, ?_⟩
    dsimp only
    split
    · exact ⟨rfl, rfl⟩
    · exact ⟨rfl, (List.append_nil _).symm⟩

end Sys2Proof.Machine
end

section
/-!
SUPPORT. Routers: the hop of a packet, the choice of an output's next packet, and a packet alone in its router (R262 to R264, R271).
-/

namespace Sys2Proof.Machine

/-! ### The hop of a packet (R263, R264) -/

/-- R469: whether the map entry that a packet's destination is read from fails its parity. -/
def mapBad (s : State) (n : Nat) (d : MeshDest) : Bool :=
  match d with
  | .core c => badEntry s 2 (8 + n) (groupOf c)
  | _ => false

theorem mapBad_false {s : State} {n : Nat} {d : MeshDest} (h : ∀ c, d = .core c → badEntry s 2 (8 + n) (groupOf c) = false) :
    mapBad s n d = false := by
  cases d with
  | core c => exact h c rfl
  | edge die sel => rfl
  | field m => rfl

/-- R263: the hop of a packet that no overlay entry sends elsewhere. -/
def plainHop (n r : Nat) (k : Packet) (tx ty : Nat) (here : MeshPort) : Hop :=
  .go (dimOrder k.vc1 (routerTile n r).1 (routerTile n r).2 tx ty here) k.vc1 false

section

variable {s : State} {n r tx ty : Nat} {here : MeshPort} {k : Packet}

theorem hopOf_unmapped (hd : destTile s k.dest = none) : hopOf s n r k = .unmapped := by
  rw [hopOf, hd]

theorem hopOf_plain (hd : destTile s k.dest = some (tx, ty, here)) (hm : mapBad s n k.dest = false) (ho : ovlOf s n r k tx ty = none) :
    hopOf s n r k = plainHop n r k tx ty here := by
  have h : hopOf s n r k = if mapBad s n k.dest then .unmapped else plainHop n r k tx ty here := by
    rw [hopOf, hd]
    dsimp only
    rw [ho]
    rfl
  rw [h, hm]
  rfl

theorem hopOf_overlay {e : Nat} {o : MeshPort} (hd : destTile s k.dest = some (tx, ty, here)) (hm : mapBad s n k.dest = false)
    (ho : ovlOf s n r k tx ty = some e) (hb : badEntry s 1 (8 + n) (16 * r + e) = false)
    (hout : outOf (bits (mget (0, 0) (s.field n).msh.ovl (16 * r + e)).2.toNat 2 0) = some o) :
    hopOf s n r k = .go o (k.vc1 || bits (mget (0, 0) (s.field n).msh.ovl (16 * r + e)).2.toNat 3 3 == 1) true := by
  have h : hopOf s n r k = if mapBad s n k.dest then .unmapped else
      .go o (k.vc1 || bits (mget (0, 0) (s.field n).msh.ovl (16 * r + e)).2.toNat 3 3 == 1) true := by
    rw [hopOf, hd]
    dsimp only
    rw [ho]
    dsimp only
    rw [hb, if_neg Bool.false_ne_true, hout]
    rfl
  rw [h, hm]
  rfl

end

theorem dimOrder_xy (x y tx ty : Nat) (here : MeshPort) : dimOrder false x y tx ty here =
    if tx < x then .west else if x < tx then .east else if ty < y then .north else if y < ty then .south else here := by
  unfold dimOrder
  split <;> [rfl; (split <;> [rfl; (split <;> [rfl; (split <;> rfl)])])]

theorem dimOrder_yx (x y tx ty : Nat) (here : MeshPort) : dimOrder true x y tx ty here =
    if ty < y then .north else if y < ty then .south else if tx < x then .west else if x < tx then .east else here := by
  unfold dimOrder
  by_cases h1 : ty < y
  · simp only [if_pos h1, if_true]
    rfl
  · by_cases h2 : y < ty
    · simp only [if_neg h1, if_pos h2, if_true]
      rfl
    · simp only [if_neg h1, if_neg h2, if_true]
      split <;> [rfl; (split <;> rfl)]

theorem bits_low (b : Nat) : bits b 2 0 = b % 8 := by
  rw [bits, Nat.pow_zero, Nat.div_one]
  rfl

theorem bits_one (b : W32) (i : Nat) : (bits b.toNat i i == 1) = b.getLsbD i := by
  rw [bits, BitVec.getLsbD, Nat.testBit_eq_decide_div_mod_eq, Nat.add_sub_cancel_left, Nat.pow_one]
  rfl

/-- R263, R264: a router sends a packet X before Y on VC0 and Y before X on VC1, or by the overlay entry that matches it. -/
theorem hop_decided {s : State} {n r tx ty x y : Nat} {here : MeshPort} {k : Packet} (hd : destTile s k.dest = some (tx, ty, here))
    (ht : routerTile n r = (x, y)) (hc : ∀ c, k.dest = .core c → badEntry s 2 (8 + n) (groupOf c) = false) :
    (ovlOf s n r k tx ty = none → k.vc1 = false → hopOf s n r k =
      .go (if tx < x then .west else if x < tx then .east else if ty < y then .north else if y < ty then .south else here) false false) ∧
    (ovlOf s n r k tx ty = none → k.vc1 = true → hopOf s n r k =
      .go (if ty < y then .north else if y < ty then .south else if tx < x then .west else if x < tx then .east else here) true false) ∧
    (∀ e o b, ovlOf s n r k tx ty = some e → badEntry s 1 (8 + n) (16 * r + e) = false →
      b = (mget (0, 0) (s.field n).msh.ovl (16 * r + e)).2 → outOf (b.toNat % 8) = some o →
      hopOf s n r k = .go o (k.vc1 || b.getLsbD 3) true) := by
  have hm := mapBad_false hc
  refine ⟨fun ho hv => ?_, fun ho hv => ?_, fun e o b ho hb hbe hout => ?_⟩
  · rw [hopOf_plain hd hm ho, plainHop, ht, hv, dimOrder_xy]
  · rw [hopOf_plain hd hm ho, plainHop, ht, hv, dimOrder_yx]
  · rw [← bits_low, hbe] at hout
    rw [hopOf_overlay hd hm ho hb hout, bits_one, ← hbe]

/-! ### The choice of an output (R271) -/

theorem nextPort_one {α : Type} (last : Nat) (inp : α → Nat) (k : α) (hlo : 1 ≤ inp k) (hhi : inp k ≤ 6) :
    nextPort 6 last inp [k] = some k := by
  have hex : (((List.range 6).map (fun i => (last + i) % 6 + 1)).findSome? (fun p => [k].find? (fun x => inp x == p))).isSome = true := by
    rw [List.findSome?_isSome_iff]
    refine ⟨inp k, List.mem_map.2 ⟨(inp k + 5 - last % 6) % 6, List.mem_range.2 (Nat.mod_lt _ (by decide)), by omega⟩, ?_⟩
    rw [List.find?_cons_of_pos (by rw [beq_self_eq_true]), Option.isSome_some]
  obtain ⟨j, hj⟩ := Option.isSome_iff_exists.1 hex
  obtain ⟨p, -, hp⟩ := List.exists_of_findSome?_eq_some hj
  have hm := List.mem_of_find?_eq_some hp
  rw [nextPort, hj, List.mem_singleton.1 hm]

section

variable {α : Type} {h : Sharing α} {k : α} (hlo : 1 ≤ h.inp k) (hhi : h.inp k ≤ 6)

include hlo hhi

/-- R271: the class whose turn it is serves its only item where its deficit covers it. -/
theorem drr_served (fuel : Nat) {d : Map Nat} (hd : h.flits k ≤ mget 0 d (h.cls k)) :
    drr (fuel + 1) 6 h [k] (h.cls k) d = some (k, h.cls k, mset d (h.cls k) (mget 0 d (h.cls k) - h.flits k)) := by
  rw [drr, List.filter_cons_of_pos (by rw [beq_self_eq_true]), List.filter_nil, nextPort_one _ _ _ hlo hhi]
  dsimp only
  rw [if_pos hd]

/-- R271: a class whose turn it is serves the only item, or the next class receives its 16 × weight. -/
theorem drr_turn (fuel cur : Nat) (d : Map Nat) : (∃ d', drr (fuel + 1) 6 h [k] cur d = some (k, h.cls k, d')) ∨
    drr (fuel + 1) 6 h [k] cur d = drr fuel 6 h [k] ((cur + 1) % 17) (mset d ((cur + 1) % 17)
      (if [k].any (fun x => h.cls x == (cur + 1) % 17) then mget 0 d ((cur + 1) % 17) + 16 * h.weight ((cur + 1) % 17) else 0)) := by
  by_cases hc : h.cls k = cur
  · by_cases hd : h.flits k ≤ mget 0 d (h.cls k)
    · rw [← hc]
      exact .inl ⟨_, drr_served hlo hhi fuel hd⟩
    · refine .inr ?_
      rw [← hc, drr, List.filter_cons_of_pos (by rw [beq_self_eq_true]), List.filter_nil, nextPort_one _ _ _ hlo hhi]
      dsimp only
      rw [if_neg hd]
  · refine .inr ?_
    rw [drr, List.filter_cons_of_neg (by rw [beq_iff_eq]; exact hc), List.filter_nil]
    have hnone : nextPort 6 (h.last cur) h.inp ([] : List α) = none :=
      List.findSome?_eq_none_iff.2 fun _ _ => rfl
    rw [hnone]

/-- R271: from class `cur`, the turn goes on to the class `j + 1` places behind it, and its only item is served. -/
theorem drr_reaches (hw : h.flits k ≤ 16 * h.weight (h.cls k)) (j : Nat) : ∀ (fuel cur : Nat) (d : Map Nat),
    (cur + 1 + j) % 17 = h.cls k → ∃ d', drr (fuel + j + 2) 6 h [k] cur d = some (k, h.cls k, d') := by
  induction j with
  | zero =>
    intro fuel cur d hc
    rcases drr_turn hlo hhi (fuel + 1) cur d with hs | hs
    · exact hs
    · rw [Nat.add_zero] at hc
      rw [hc] at hs
      refine ⟨_, hs.trans (drr_served hlo hhi fuel ?_)⟩
      rw [mget_mset, List.any_cons, beq_self_eq_true, Bool.true_or, if_pos rfl]
      omega
  | succ j ih =>
    intro fuel cur d hc
    rcases drr_turn hlo hhi (fuel + j + 2) cur d with hs | hs
    · exact hs
    · obtain ⟨d', hd'⟩ := ih fuel ((cur + 1) % 17) _ (by omega)
      exact ⟨d', hs.trans hd'⟩

/-- R271: the only item that waits for an output is served, where its class's weight covers it. -/
theorem drr_one (hw : h.flits k ≤ 16 * h.weight (h.cls k)) (hc : h.cls k < 17) (cur : Nat) (d : Map Nat) :
    ∃ d', drr 200 6 h [k] cur d = some (k, h.cls k, d') := by
  have hj := drr_reaches hlo hhi hw ((h.cls k + 17 - (cur + 1) % 17) % 17) (198 - (h.cls k + 17 - (cur + 1) % 17) % 17) cur d (by omega)
  rwa [show 198 - (h.cls k + 17 - (cur + 1) % 17) % 17 + (h.cls k + 17 - (cur + 1) % 17) % 17 + 2 = 200 by omega] at hj

end

end Sys2Proof.Machine
end

section
/-!
SUPPORT. A packet alone in its router (R262).
-/

namespace Sys2Proof.Machine

/-! ### Input buffers -/

theorem mget_mdel {α : Type} (d : α) (m : Map α) (k : Nat) : mget d (mdel m k) k = d := by
  rw [mget_eq_mfind, mfind_mdel]
  rfl

theorem field_modMsh (s : State) (n : Nat) (f : MeshF → MeshF) : (modMsh s n f).field n = { s.field n with msh := f (s.field n).msh } := by
  rw [modMsh, field_modField]

theorem field_modMsh_ne (s : State) {n i : Nat} (f : MeshF → MeshF) (h : i ≠ n) : (modMsh s n f).field i = s.field i := by
  rw [modMsh, field_modField_ne _ _ h]

/-- Only the fields differ, in their routers' input buffers and credits. -/
structure Buffers (s t : State) : Prop where
  rest : t = { s with fields := t.fields }
  msh : ∀ i, (t.field i).msh = { (s.field i).msh with
    bufs := (t.field i).msh.bufs
    used := (t.field i).msh.used }

theorem Buffers.refl (s : State) : Buffers s s := ⟨rfl, fun _ => rfl⟩

theorem Buffers.trans {s t u : State} (h : Buffers s t) (k : Buffers t u) : Buffers s u := by
  refine ⟨?_, fun i => ?_⟩
  · rw [k.rest, h.rest]
  · rw [k.msh, h.msh]

theorem buffers_modMsh (s : State) (n : Nat) {f : MeshF → MeshF} (hf : ∀ m, f m = { m with
    bufs := (f m).bufs
    used := (f m).used }) : Buffers s (modMsh s n f) := by
  refine ⟨rfl, fun i => ?_⟩
  by_cases hi : i = n
  · rw [hi, field_modMsh, hf]
  · rw [field_modMsh_ne _ _ hi]

theorem Buffers.mem {s t : State} (h : Buffers s t) : t.mem = s.mem := by rw [h.rest]
theorem Buffers.cores {s t : State} (h : Buffers s t) : t.cores = s.cores := by rw [h.rest]
theorem Buffers.out {s t : State} (h : Buffers s t) : t.out = s.out := by rw [h.rest]
theorem Buffers.groups {s t : State} (h : Buffers s t) : t.groups = s.groups := by rw [h.rest]
theorem Buffers.badEntries {s t : State} (h : Buffers s t) : t.badEntries = s.badEntries := by rw [h.rest]
theorem Buffers.seams {s t : State} (h : Buffers s t) : t.seams = s.seams := by rw [h.rest]

section

variable (s : State) (n r : Nat) (ms : List MeshFlight)

theorem buffers_setBuf : Buffers s (setBuf s n r ms) := by
  rw [setBuf]
  split
  · exact .refl s
  · exact buffers_modMsh s n fun _ => rfl

theorem bufOf_setBuf : bufOf (setBuf s n r ms) n r = ms := by
  rw [setBuf]
  split
  · next h => exact h.symm
  · rw [bufOf, field_modMsh]
    dsimp only
    split
    · next h => rw [mget_mdel, h]
    · rw [mget_mset]

theorem used_setBuf (i : Nat) : ((setBuf s n r ms).field i).msh.used = (s.field i).msh.used := by
  rw [setBuf]
  split
  · rfl
  · by_cases hi : i = n
    · rw [hi, field_modMsh]
    · rw [field_modMsh_ne _ _ hi]

theorem setBuf_self (h : bufOf s n r = ms) : setBuf s n r ms = s := by
  rw [setBuf, if_pos h.symm]

end

theorem bufOf_modMsh (s : State) (n r i : Nat) {f : MeshF → MeshF} (hf : ∀ m, (f m).bufs = m.bufs) :
    bufOf (modMsh s i f) n r = bufOf s n r := by
  by_cases hi : n = i
  · rw [bufOf, hi, field_modMsh, hf, bufOf]
  · rw [bufOf, field_modMsh_ne _ _ hi, bufOf]

/-- R262: `m` flits fewer, or more, stand in the input buffer behind a credit. -/
def lessUsed (key m : Nat) (x : MeshF) : MeshF := { x with used := mset x.used key (mget 0 x.used key - m) }
def moreUsed (key m : Nat) (x : MeshF) : MeshF := { x with used := mset x.used key (mget 0 x.used key + m) }

/-- R262: flits that leave an output take room in the next router's input buffer. -/
def takeRoom (s : State) (n r : Nat) (k : Packet) (o : MeshPort) (vc : Bool) (m : Nat) : State :=
  if (neighbour n r o).isSome then modMsh s n (moreUsed (creditKey r k.plane o vc) m) else s

theorem takeRoom_keeps (s : State) (n r : Nat) (k : Packet) (o : MeshPort) (vc : Bool) (m : Nat) :
    Buffers s (takeRoom s n r k o vc m) ∧ ∀ n' r', bufOf (takeRoom s n r k o vc m) n' r' = bufOf s n' r' := by
  rw [takeRoom]
  split
  · exact ⟨buffers_modMsh s n fun _ => rfl, fun n' r' => bufOf_modMsh s n' r' n fun _ => rfl⟩
  · exact ⟨.refl s, fun _ _ => rfl⟩

theorem passFlits_keeps (s : State) (n r : Nat) (k : Packet) (o : MeshPort) (vc : Bool) (m : Nat) :
    Buffers s (passFlits s n r k o vc m) ∧ ∀ n' r', bufOf (passFlits s n r k o vc m) n' r' = bufOf s n' r' := by
  obtain ⟨hb, hbuf⟩ := takeRoom_keeps s n r k o vc m
  have htake : takeRoom s n r k o vc m = match neighbour n r o with
      | some _ => modMsh s n (moreUsed (creditKey r k.plane o vc) m)
      | none => s := by
    rw [takeRoom]
    cases neighbour n r o <;> rfl
  cases hq : neighbour n r k.inp with
  | none =>
    have h : passFlits s n r k o vc m = takeRoom s n r k o vc m := by
      rw [passFlits, hq, htake]
      rfl
    rw [h]
    exact ⟨hb, hbuf⟩
  | some p =>
    have h : passFlits s n r k o vc m = if mget 0 ((takeRoom s n r k o vc m).field p.1).msh.used (creditKey p.2.1 k.plane p.2.2 k.vc1) = 0
        then takeRoom s n r k o vc m else modMsh (takeRoom s n r k o vc m) p.1 (lessUsed (creditKey p.2.1 k.plane p.2.2 k.vc1) m) := by
      rw [passFlits, hq, htake]
      rfl
    rw [h]
    split
    · exact ⟨hb, hbuf⟩
    · exact ⟨hb.trans (buffers_modMsh _ _ fun _ => rfl), fun n' r' => (bufOf_modMsh _ n' r' _ (f := lessUsed _ _) fun _ => rfl).trans (hbuf n' r')⟩

/-! ### What a router's choice counts -/

/-- Only where round robin stands at the routers' outputs, the resends of the seams and the counters of shared blocks differ. -/
structure Shares (s t : State) : Prop where
  rest : t = { s with
    fields := t.fields
    shared := t.shared }
  msh : ∀ i, (t.field i).msh = { (s.field i).msh with
    rrClass := (t.field i).msh.rrClass
    rrPort := (t.field i).msh.rrPort
    deficit := (t.field i).msh.deficit
    seamRetry := (t.field i).msh.seamRetry }

theorem Shares.refl (s : State) : Shares s s := ⟨rfl, fun _ => rfl⟩

theorem Shares.trans {s t u : State} (h : Shares s t) (k : Shares t u) : Shares s u := by
  refine ⟨?_, fun i => ?_⟩
  · rw [k.rest, h.rest]
  · rw [k.msh, h.msh]

theorem shares_modMsh (s : State) (n : Nat) {f : MeshF → MeshF} (hf : ∀ m, f m = { m with
    rrClass := (f m).rrClass
    rrPort := (f m).rrPort
    deficit := (f m).deficit
    seamRetry := (f m).seamRetry }) : Shares s (modMsh s n f) := by
  refine ⟨rfl, fun i => ?_⟩
  by_cases hi : i = n
  · rw [hi, field_modMsh, hf]
  · rw [field_modMsh_ne _ _ hi]

theorem Shares.countShared {s t : State} (h : Shares s t) (b code cls n plane : Nat) : Shares s (countShared t b code cls n plane) :=
  h.trans ⟨rfl, fun _ => rfl⟩

theorem Shares.ite {s t u : State} (h : Shares s t) (k : Shares s u) (c : Prop) [Decidable c] : Shares s (if c then t else u) := by
  split
  · exact h
  · exact k

theorem Shares.countResends {s t : State} (h : Shares s t) (seam x k : Nat) : Shares s (countResends t seam x k) :=
  h.trans (shares_modMsh t _ fun _ => rfl)

section

variable {s t : State} (h : Shares s t)

include h

theorem Shares.mem : t.mem = s.mem := by rw [h.rest]
theorem Shares.cores : t.cores = s.cores := by rw [h.rest]
theorem Shares.out : t.out = s.out := by rw [h.rest]
theorem Shares.bufOf (n r : Nat) : bufOf t n r = bufOf s n r := by rw [Machine.bufOf, h.msh, Machine.bufOf]
theorem Shares.creditsOf (n r : Nat) (p : Plane) (o : MeshPort) (vc : Bool) (w : Nat) : creditsOf t n r p o vc w = creditsOf s n r p o vc w := by
  rw [Machine.creditsOf, h.msh, Machine.creditsOf]

end

/-! ### What a hop depends on -/

/-- What the hop of a packet is read from stands: the tiles of the groups, the overlays, the place of the field routers, and the
entries whose parity fails. -/
structure SameHops (s t : State) : Prop where
  groups : t.groups = s.groups
  bad : t.badEntries = s.badEntries
  seams : t.seams = s.seams
  ovl : ∀ i, (t.field i).msh.ovl = (s.field i).msh.ovl
  row3 : ∀ i, (t.field i).msh.atRow3 = (s.field i).msh.atRow3
  weights : ∀ i, (t.field i).msh.weights = (s.field i).msh.weights

theorem Buffers.sameHops {s t : State} (h : Buffers s t) : SameHops s t :=
  ⟨h.groups, h.badEntries, h.seams, fun i => by rw [h.msh], fun i => by rw [h.msh], fun i => by rw [h.msh]⟩

theorem Shares.sameHops {s t : State} (h : Shares s t) : SameHops s t :=
  ⟨by rw [h.rest], by rw [h.rest], by rw [h.rest], fun i => by rw [h.msh], fun i => by rw [h.msh], fun i => by rw [h.msh]⟩

theorem SameHops.trans {s t u : State} (h : SameHops s t) (k : SameHops t u) : SameHops s u :=
  ⟨k.groups.trans h.groups, k.bad.trans h.bad, k.seams.trans h.seams, fun i => (k.ovl i).trans (h.ovl i),
    fun i => (k.row3 i).trans (h.row3 i), fun i => (k.weights i).trans (h.weights i)⟩

section

variable {s t : State} (h : SameHops s t)

include h

theorem SameHops.grp (g : Nat) : t.grp g = s.grp g := by rw [State.grp, h.groups, State.grp]

theorem SameHops.badEntry (kind copy entry : Nat) : badEntry t kind copy entry = badEntry s kind copy entry := by
  rw [Machine.badEntry, h.bad, Machine.badEntry]

theorem SameHops.present (c : Nat) : present t c = present s c := by
  rw [Machine.present, Machine.present, grpPresent, grpPresent, h.grp]

theorem SameHops.colOf (c : Nat) : colOf t c = colOf s c := by
  rw [Machine.colOf, Machine.colOf, h.grp]

theorem SameHops.destTile (d : MeshDest) : destTile t d = destTile s d := by
  cases d with
  | core c => rw [Machine.destTile, Machine.destTile, h.present, tileX, tileX, h.colOf]
  | edge die sel => rfl
  | field n => rw [Machine.destTile, Machine.destTile, fieldRouter, fieldRouter, h.row3]

theorem SameHops.hopOf (n r : Nat) (k : Packet) : hopOf t n r k = hopOf s n r k := by
  have hovl : ∀ tx ty, ovlOf t n r k tx ty = ovlOf s n r k tx ty := fun tx ty => by
    rw [ovlOf, ovlOf, h.ovl]
  unfold Machine.hopOf
  rw [h.destTile]
  simp only [hovl, h.badEntry, h.ovl]

theorem SameHops.linkOpen (n r : Nat) (p : Plane) (o : MeshPort) : linkOpen t n r p o = linkOpen s n r p o := by
  have hs : ∀ seam x, t.seam seam x = s.seam seam x := fun seam x => by rw [State.seam, h.seams, State.seam]
  unfold Machine.linkOpen
  simp only [hs]

theorem SameHops.clsOf (k : Packet) : clsOf t k = clsOf s k := by
  have hp : ∀ c, partOf t c = partOf s c := fun c => by rw [partOf, h.grp, partOf]
  unfold Machine.clsOf
  simp only [hp]

theorem SameHops.weightOf (n c : Nat) : weightOf t n c = weightOf s n c := by
  rw [Machine.weightOf, h.weights, Machine.weightOf]

end

end Sys2Proof.Machine
end

section
/-!
SUPPORT. The outputs of a router that holds one packet (R262, R271).
-/

namespace Sys2Proof.Machine

section

variable {s : State} {n r : Nat}

/-! ### A packet that holds its output -/

theorem passHeld_idle {p : Plane} {o : MeshPort} {vc : Bool}
    (h : ∀ f ∈ bufOf s n r, f.pkt.plane = p → f.won ≠ some (o, vc)) : passHeld s n r p o vc = s := by
  have hnone : (bufOf s n r).find? (fun f => f.pkt.plane == p && f.won == some (o, vc)) = none := by
    rw [List.find?_eq_none]
    intro f hf hb
    rw [Bool.and_eq_true, beq_iff_eq, beq_iff_eq] at hb
    exact h f hf hb.1 hb.2
  rw [passHeld, hnone]

/-- What is left of a packet of `fl` flits after `m` of them. -/
def restOf (k : Packet) (fl m : Nat) (o : MeshPort) (vc : Bool) : List MeshFlight :=
  if m < fl then [⟨k, fl - m, some (o, vc)⟩] else []

/-- R262: the packet that holds an output sends on what its credits allow. -/
theorem passHeld_passes {k : Packet} {fl : Nat} {o : MeshPort} {vc : Bool} (hb : bufOf s n r = [⟨k, fl, some (o, vc)⟩]) :
    Buffers s (passHeld s n r k.plane o vc) ∧
      bufOf (passHeld s n r k.plane o vc) n r = restOf k fl (creditsOf s n r k.plane o vc fl) o vc := by
  have h : passHeld s n r k.plane o vc = passFlits (setBuf s n r (restOf k fl (creditsOf s n r k.plane o vc fl) o vc)) n r k o vc
      (min fl (creditsOf s n r k.plane o vc fl)) := by
    have hfind : (bufOf s n r).find? (fun f => f.pkt.plane == k.plane && f.won == some (o, vc)) = some ⟨k, fl, some (o, vc)⟩ := by
      rw [hb, List.find?_cons_of_pos (by simp only [beq_self_eq_true, Bool.and_self])]
    have hrest : (bufOf s n r).filterMap (fun g => if g = ⟨k, fl, some (o, vc)⟩ then
        (if fl ≤ min fl (creditsOf s n r k.plane o vc fl) then none
          else some (⟨k, fl - min fl (creditsOf s n r k.plane o vc fl), some (o, vc)⟩ : MeshFlight)) else some g) =
        restOf k fl (creditsOf s n r k.plane o vc fl) o vc := by
      rw [hb, restOf]
      by_cases hm : creditsOf s n r k.plane o vc fl < fl
      · rw [if_pos hm, List.filterMap_cons, if_pos rfl, if_neg (by omega), min_eq_right hm.le]
        rfl
      · rw [if_neg hm, List.filterMap_cons, if_pos rfl, if_pos (by omega)]
        rfl
    rw [passHeld, hfind]
    dsimp only
    rw [hrest]
  rw [h]
  obtain ⟨hbuf, hsame⟩ := passFlits_keeps (setBuf s n r (restOf k fl (creditsOf s n r k.plane o vc fl) o vc)) n r k o vc
    (min fl (creditsOf s n r k.plane o vc fl))
  exact ⟨(buffers_setBuf s n r _).trans hbuf, (hsame n r).trans (bufOf_setBuf s n r _)⟩

/-! ### Packets that wait -/

theorem waitsFor_nil {p : Plane} {o : MeshPort} (h : ∀ f ∈ bufOf s n r, f.won = none → f.pkt.plane = p →
    ∀ vc b, hopOf s n r f.pkt = .go o vc b → linkOpen s n r p o = false) : waitsFor s n r p o = [] := by
  rw [waitsFor, List.map_eq_nil_iff, List.filter_eq_nil_iff]
  intro f hf hb
  rw [Bool.and_eq_true, Bool.and_eq_true, Bool.and_eq_true, Option.isNone_iff_eq_none, beq_iff_eq] at hb
  obtain ⟨⟨⟨hwon, hp⟩, -⟩, hhop⟩ := hb
  cases hk : hopOf s n r f.pkt with
  | unmapped =>
    rw [hk] at hhop
    cases hhop
  | go o' vc b =>
    rw [hk] at hhop
    simp only [Bool.and_eq_true, beq_iff_eq] at hhop
    obtain ⟨⟨⟨ho, hopen⟩, -⟩, -⟩ := hhop
    rw [ho] at hk
    rw [h f hf hwon hp vc b hk] at hopen
    cases hopen

theorem serveOut_idle {p : Plane} {o : MeshPort} (hheld : ∀ f ∈ bufOf s n r, f.pkt.plane = p → ∀ vc, f.won ≠ some (o, vc))
    (hwait : ∀ f ∈ bufOf s n r, f.won = none → f.pkt.plane = p → ∀ vc b, hopOf s n r f.pkt = .go o vc b → linkOpen s n r p o = false) :
    serveOut s n r p o = s := by
  rw [serveOut, passHeld_idle fun f hf hp => hheld f hf hp false, passHeld_idle fun f hf hp => hheld f hf hp true]
  dsimp only
  rw [waitsFor_nil hwait, if_pos rfl]

variable {k : Packet} {fl : Nat} {o : MeshPort} {vc byOvl : Bool}

theorem waitsFor_one (hb : bufOf s n r = [⟨k, fl, none⟩]) (hk : hopOf s n r k = .go o vc byOvl)
    (hopen : linkOpen s n r k.plane o = true) (hc : 0 < creditsOf s n r k.plane o vc 1) : waitsFor s n r k.plane o = [k] := by
  rw [waitsFor, hb]
  rw [List.filter_cons_of_pos, List.filter_nil, List.map_cons, List.map_nil]
  have hsame : sameInput k k = true := by simp only [sameInput, beq_self_eq_true, Bool.and_self]
  rw [hk, List.find?_cons_of_pos (by exact hsame)]
  simp only [beq_self_eq_true, hopen, hc, decide_true, Option.isNone_none, Bool.and_true, Bool.true_and, List.any_cons, List.any_nil,
    Bool.or_false]
  rfl

end

theorem portNum_range (o : MeshPort) : 1 ≤ portNum o ∧ portNum o ≤ 6 := by
  cases o <;> decide

/-! ### The winner of an output (R271) -/

/-- What an output shares its bandwidth by. -/
def sharingAt (s : State) (n key : Nat) : Sharing Packet :=
  { weight := weightOf s n
    last := fun c => mget 0 (s.field n).msh.rrPort (17 * key + c)
    cls := clsOf s
    inp := fun k => portNum k.inp
    flits := fun k => k.flits }

/-- Where round robin and the deficits stand after class `cls` has won an output. -/
def winShare (key cls : Nat) (k : Packet) (d : Map Nat) (m : MeshF) : MeshF :=
  { m with
    rrClass := mset m.rrClass key cls
    rrPort := mset m.rrPort (17 * key + cls) (portNum k.inp)
    deficit := d.foldl (fun acc x => mset acc (17 * key + x.1) x.2) m.deficit }

/-- The resends of the winner at the seam that it crosses. -/
def winSeam (s : State) (n r cls : Nat) (k : Packet) (o : MeshPort) : State :=
  match crossingAt n r o with
  | some (seam, x) =>
    if seamOwner seam x = n then countShared (countResends s seam x k.resends) (routerBlk n r) 0xA cls k.resends (planeBit k.plane)
    else countResends s seam x k.resends
  | none => s

/-- What the router counts of the winner. -/
def winCounts (s : State) (n r cls : Nat) (k : Packet) (o : MeshPort) (vc byOvl : Bool) : State :=
  let s := countShared s (routerBlk n r) (portNum o) cls k.flits (planeBit k.plane)
  let s := if byOvl then countShared s (routerBlk n r) 8 cls 1 (planeBit k.plane) else s
  let s := if vc && !k.vc1 then countShared s (routerBlk n r) 9 cls 1 (planeBit k.plane) else s
  let s := if k.abort then countShared s (routerBlk n r) 0xC cls 1 (planeBit k.plane) else s
  winSeam s n r cls k o

theorem shares_winSeam {s t : State} (h : Shares s t) (n r cls : Nat) (k : Packet) (o : MeshPort) : Shares s (winSeam t n r cls k o) := by
  rw [winSeam]
  split
  · exact ((h.countResends _ _ _).countShared _ _ _ _ _).ite (h.countResends _ _ _) _
  · exact h

theorem shares_winCounts {s t : State} (h : Shares s t) (n r cls : Nat) (k : Packet) (o : MeshPort) (vc byOvl : Bool) :
    Shares s (winCounts t n r cls k o vc byOvl) := by
  have h1 := h.countShared (routerBlk n r) (portNum o) cls k.flits (planeBit k.plane)
  have h2 := (h1.countShared (routerBlk n r) 8 cls 1 (planeBit k.plane)).ite h1 byOvl
  have h3 := (h2.countShared (routerBlk n r) 9 cls 1 (planeBit k.plane)).ite h2 (vc && !k.vc1)
  have h4 := (h3.countShared (routerBlk n r) 0xC cls 1 (planeBit k.plane)).ite h3 k.abort
  exact shares_winSeam h4 n r cls k o

/-- The winner's packet holds its output. -/
def winBuf (s : State) (n r : Nat) (k : Packet) (o : MeshPort) (vc : Bool) : State :=
  setBuf s n r ((bufOf s n r).map (fun f => if f.pkt = k ∧ f.won = none then { f with won := some (o, vc) } else f))

theorem winBuf_one {s : State} {n r fl : Nat} {k : Packet} (o : MeshPort) (vc : Bool) (hb : bufOf s n r = [⟨k, fl, none⟩]) :
    winBuf s n r k o vc = setBuf s n r [⟨k, fl, some (o, vc)⟩] := by
  rw [winBuf, hb, List.map_cons, List.map_nil, if_pos ⟨rfl, rfl⟩]

/-- The virtual channel that a hop leaves on, and whether an overlay entry chose it. -/
def Hop.lane (k : Packet) : Hop → Bool × Bool
  | .go _ v x => (v, x)
  | .unmapped => (k.vc1, false)

/-- The winner leaves. -/
def winOut (s : State) (n r cls : Nat) (k : Packet) (o : MeshPort) (w : Bool × Bool) : State :=
  passHeld (emit (winBuf (winCounts s n r cls k o w.1 w.2) n r k o w.1) (.mesh (routerBlk n r) o w.1 k)) n r k.plane o w.1

theorem serveOut_wins {s : State} {n r : Nat} {k : Packet} {o : MeshPort} {vc byOvl : Bool} (hb : bufOf s n r = [⟨k, k.flits, none⟩])
    (hk : hopOf s n r k = .go o vc byOvl) (hopen : linkOpen s n r k.plane o = true) (hc : 0 < creditsOf s n r k.plane o vc 1)
    (hcls : clsOf s k < 17) (hw : k.flits ≤ 16 * weightOf s n (clsOf s k)) :
    ∃ v, Shares s v ∧ serveOut s n r k.plane o =
      passHeld (emit (setBuf v n r [⟨k, k.flits, some (o, vc)⟩]) (.mesh (routerBlk n r) o vc k)) n r k.plane o vc := by
  have hheld : ∀ vc', passHeld s n r k.plane o vc' = s := fun vc' => passHeld_idle fun f hf _ => by
    rw [hb, List.mem_singleton] at hf
    rw [hf]
    exact Option.some_ne_none _ |>.symm
  obtain ⟨d, hd⟩ := drr_one (h := sharingAt s n (outKey r k.plane o)) (k := k) (portNum_range k.inp).1 (portNum_range k.inp).2 hw hcls
    (mget 0 (s.field n).msh.rrClass (outKey r k.plane o)) (deficits (clsOf s) [k] (fun c => mget 0 (s.field n).msh.deficit (17 * outKey r k.plane o + c)))
  rw [sharingAt] at hd
  rw [serveOut, hheld, hheld]
  dsimp only
  rw [waitsFor_one hb hk hopen hc, if_neg (List.cons_ne_nil _ _), hd]
  have hshare : ∀ d', Shares s (winCounts (modMsh s n (winShare (outKey r k.plane o) (clsOf s k) k d')) n r (clsOf s k) k o vc byOvl) :=
    fun d' => shares_winCounts (shares_modMsh s n fun _ => rfl) n r _ k o vc byOvl
  have hlane : (hopOf (modMsh s n (winShare (outKey r k.plane o) (clsOf s k) k
      (if ([k].filter (fun x => clsOf s x == clsOf s k)).length ≤ 1 then mset d (clsOf s k) 0 else d))) n r k).lane k = (vc, byOvl) := by
    rw [(shares_modMsh s n fun _ => rfl).sameHops.hopOf, hk, Hop.lane]
  refine ⟨_, hshare (if ([k].filter (fun x => clsOf s x == clsOf s k)).length ≤ 1 then mset d (clsOf s k) 0 else d), ?_⟩
  rw [← winBuf_one]
  · refine Eq.trans ?_ (congrArg (winOut (modMsh s n (winShare (outKey r k.plane o) (clsOf s k) k
      (if ([k].filter (fun x => clsOf s x == clsOf s k)).length ≤ 1 then mset d (clsOf s k) 0 else d))) n r (clsOf s k) k o) hlane)
    rfl
  · rw [(hshare _).bufOf, hb]

end Sys2Proof.Machine
end

section
/-!
SUPPORT. Packets are forwarded, refused, weighed and delivered (R51, R262 to R279).
-/

namespace Sys2Proof.Machine

/-! ### One header at a router -/

/-- R541: the counts of a core alone differ as its packet enters the mesh. -/
theorem sentFlits_only (s : State) (k : Packet) : sentFlits s k = { s with cores := (sentFlits s k).cores } := by
  rw [sentFlits]
  split
  · rfl
  · rfl

/-- The outputs of a router, in the order in which they are served. -/
def outputs : List (Plane × MeshPort) :=
  [(.a, .north), (.a, .east), (.a, .south), (.a, .west), (.a, .local_), (.a, .edge),
   (.b, .north), (.b, .east), (.b, .south), (.b, .west), (.b, .local_), (.b, .edge)]

theorem mem_outputs (p : Plane) (o : MeshPort) : (p, o) ∈ outputs := by
  cases p <;> cases o <;> decide

/-- Every output of a router is served once. -/
def serveAll (s : State) (n r : Nat) : State := outputs.foldl (fun t x => serveOut t n r x.1 x.2) s

/-- R262: the router with the packet in its input buffer. -/
def headerIn (s : State) (n r : Nat) (k : Packet) : State := setBuf (sentFlits s k) n r [⟨k, k.flits, none⟩]

/-- A router whose buffers hold something serves its outputs. -/
def served (v : State) (n r : Nat) : State :=
  if bufOf v n r = [] then v
  else
    [Plane.a, Plane.b].foldl (fun t p =>
      [MeshPort.north, .east, .south, .west, .local_, .edge].foldl (fun t o => serveOut t n r p o) t) v

theorem served_of_empty {v : State} {n r : Nat} (h : bufOf v n r = []) : served v n r = v := if_pos h

theorem served_of_full {v : State} {n r : Nat} (h : bufOf v n r ≠ []) : served v n r = serveAll v n r := by
  rw [served, if_neg h, serveAll, outputs]
  simp only [List.foldl_cons, List.foldl_nil]

/-- What a router does with the flights that it answers late, and the headers that it refuses and keeps. -/
def routeWith (s : State) (n r : Nat) (late : List MeshFlight) (refused kept : List Packet) : State :=
  let t := (late.map (·.pkt) ++ refused).foldl (fun s k => refuseHeader s n r k) s
  served (kept.foldl (fun s k => enterRouter s n r k) (setBuf t n r ((bufOf t n r).filter (fun f => !late.contains f)))) n r

section

variable {s : State} {n r : Nat} {k : Packet}

theorem enterRouter_empty (hb : bufOf s n r = []) : enterRouter s n r k = headerIn s n r k := by
  have hp : bufferPkt [] k = [⟨k, k.flits, none⟩] := rfl
  rw [enterRouter, hb, hp]
  rfl

variable (hn : n < 12) (hr : r < 104) (hlive : routerDead s n r = false) (hon : domOf s (96 + n) = .on) (hb : bufOf s n r = [])

include hn hr hlive hon hb

theorem route_one : exec (.packetRoute n r [k] []) s =
    .next (routeWith s n r [] ([k].filter (fun k => hopOf s n r k == .unmapped)) ([k].filter (fun k => hopOf s n r k != .unmapped))) := by
  have hgate : (decide (12 ≤ n) || decide (104 ≤ r) || routerGone s n r) = false := by
    rw [routerGone, hlive, hon, decide_eq_false (by omega), decide_eq_false (by omega)]
    rfl
  have hlate : (bufOf s n r).filter (fun f => f.won.isNone && hopOf s n r f.pkt == .unmapped) = [] := by rw [hb, List.filter_nil]
  have hexec : exec (.packetRoute n r [k] []) s = execPacketRoute n r [k] [] s := rfl
  rw [hexec, execPacketRoute, hgate, if_neg Bool.false_ne_true]
  refine Eq.trans (b := .next (routeWith s n r ((bufOf s n r).filter (fun f => f.won.isNone && hopOf s n r f.pkt == .unmapped))
    ([k].filter (fun k => hopOf s n r k == .unmapped)) ([k].filter (fun k => hopOf s n r k != .unmapped)))) rfl ?_
  rw [hlate]

theorem route_refused (hk : hopOf s n r k = .unmapped) : exec (.packetRoute n r [k] []) s = .next (refuseHeader s n r k) := by
  have hrefused : [k].filter (fun k => hopOf s n r k == .unmapped) = [k] := List.filter_cons_of_pos (by rw [hk]; rfl)
  have hkept : [k].filter (fun k => hopOf s n r k != .unmapped) = [] := List.filter_cons_of_neg (by rw [hk]; decide)
  have hbuf : bufOf (refuseHeader s n r k) n r = [] := hb
  have hfold : (([] : List MeshFlight).map (·.pkt) ++ [k]).foldl (fun s k => refuseHeader s n r k) s = refuseHeader s n r k := rfl
  rw [route_one hn hr hlive hon hb, hrefused, hkept, routeWith, hfold]
  dsimp only [List.foldl_nil]
  rw [hbuf, List.filter_nil, setBuf_self _ n r [] hbuf, served_of_empty hbuf]

theorem route_entered {o : MeshPort} {vc b : Bool} (hk : hopOf s n r k = .go o vc b) :
    exec (.packetRoute n r [k] []) s = .next (serveAll (headerIn s n r k) n r) := by
  have hrefused : [k].filter (fun k => hopOf s n r k == .unmapped) = [] := List.filter_cons_of_neg (by rw [hk]; exact Bool.false_ne_true)
  have hkept : [k].filter (fun k => hopOf s n r k != .unmapped) = [k] := List.filter_cons_of_pos (by rw [hk]; rfl)
  have hfull : bufOf (headerIn s n r k) n r ≠ [] := by
    rw [headerIn, bufOf_setBuf]
    exact List.cons_ne_nil _ _
  have hfold : (([] : List MeshFlight).map (·.pkt) ++ ([] : List Packet)).foldl (fun s k => refuseHeader s n r k) s = s := rfl
  rw [route_one hn hr hlive hon hb, hrefused, hkept, routeWith, hfold]
  dsimp only [List.foldl_cons, List.foldl_nil]
  rw [hb, List.filter_nil, setBuf_self _ n r [] hb, enterRouter_empty hb, served_of_full hfull]

end

/-! ### A packet alone -/

theorem foldl_stays {σ β : Type} {step : σ → β → σ} {u : σ} {l : List β} (h : ∀ x ∈ l, step u x = u) : l.foldl step u = u :=
  List.foldlRecOn (motive := fun v => v = u) l step rfl fun v hv x hx => by rw [hv, h x hx]

/-- Of a list of steps, one alone acts. -/
theorem foldl_once {σ β : Type} [DecidableEq β] {step : σ → β → σ} {u t : σ} {a : β} {l : List β} (hn : l.Nodup) (ha : a ∈ l)
    (hu : ∀ x, x ≠ a → step u x = u) (hat : step u a = t) (ht : ∀ x, x ≠ a → step t x = t) : l.foldl step u = t := by
  induction l with
  | nil => cases ha
  | cons b l ih =>
    obtain ⟨hb, hl⟩ := List.nodup_cons.1 hn
    rw [List.foldl_cons]
    by_cases hba : b = a
    · rw [hba, hat]
      exact foldl_stays fun x hx => ht x fun hxa => hb (by rwa [hba, ← hxa])
    · rw [hu b hba]
      exact ih hl ((List.mem_cons.1 ha).resolve_left fun h => hba h.symm)

section

variable {u : State} {n r : Nat} {k : Packet} {o : MeshPort} {vc byOvl : Bool} (hb : bufOf u n r = [⟨k, k.flits, none⟩])
  (hk : hopOf u n r k = .go o vc byOvl)

include hb hk

/-- A packet that waits lets every output but its own stand, and its own where its link is not open. -/
theorem serveOut_other {p : Plane} {o' : MeshPort} (h : p = k.plane → o' = o → linkOpen u n r p o = false) :
    serveOut u n r p o' = u := by
  refine serveOut_idle (fun f hf _ vc' => ?_) fun f hf _ hp vc' b hhop => ?_
  · rw [hb, List.mem_singleton] at hf
    rw [hf]
    exact (Option.some_ne_none _).symm
  · rw [hb, List.mem_singleton] at hf
    rw [hf] at hhop hp
    rw [hk, Hop.go.injEq] at hhop
    rw [← hhop.1]
    exact h hp.symm hhop.1.symm

/-- R30: a header for a crossing that is dead or being quiesced waits. -/
theorem serveAll_closed (hopen : linkOpen u n r k.plane o = false) : serveAll u n r = u :=
  foldl_stays fun x _ => serveOut_other hb hk fun hp _ => by rwa [hp]

end

/-- What holds its output, or has left, lets every other output stand. -/
theorem serveOut_rest {t : State} {n r fl m : Nat} {k : Packet} {o : MeshPort} {vc : Bool} (hb : bufOf t n r = restOf k fl m o vc)
    {p : Plane} {o' : MeshPort} (h : (p, o') ≠ (k.plane, o)) : serveOut t n r p o' = t := by
  have hmem : ∀ f ∈ bufOf t n r, f.pkt = k ∧ f.won = some (o, vc) := fun f hf => by
    rw [hb, restOf] at hf
    split at hf
    · rw [List.mem_singleton.1 hf]
      exact ⟨rfl, rfl⟩
    · cases hf
  refine serveOut_idle (fun f hf hp vc' hw => ?_) fun f hf hw => ?_
  · obtain ⟨hpkt, hwon⟩ := hmem f hf
    rw [hpkt] at hp
    rw [hwon, Option.some.injEq, Prod.mk.injEq] at hw
    exact h (Prod.ext hp.symm hw.1.symm)
  · rw [(hmem f hf).2] at hw
    cases hw

/-- R262, R271: a packet alone in its router wins its output and sends its flits on while that has credits. -/
theorem serveAll_wins {u : State} {n r : Nat} {k : Packet} {o : MeshPort} {vc byOvl : Bool} (hb : bufOf u n r = [⟨k, k.flits, none⟩])
    (hk : hopOf u n r k = .go o vc byOvl) (hopen : linkOpen u n r k.plane o = true) (hc : 0 < creditsOf u n r k.plane o vc 1)
    (hcls : clsOf u k < 17) (hw : k.flits ≤ 16 * weightOf u n (clsOf u k)) :
    (serveAll u n r).out = u.out ++ [.mesh (routerBlk n r) o vc k] ∧ (serveAll u n r).mem = u.mem ∧
      (serveAll u n r).cores = u.cores ∧
      bufOf (serveAll u n r) n r = restOf k k.flits (creditsOf u n r k.plane o vc k.flits) o vc := by
  obtain ⟨v, hv, hserve⟩ := serveOut_wins hb hk hopen hc hcls hw
  have hset := buffers_setBuf v n r [⟨k, k.flits, some (o, vc)⟩]
  have hbuf := bufOf_setBuf v n r [⟨k, k.flits, some (o, vc)⟩]
  have hcred : creditsOf (setBuf v n r [⟨k, k.flits, some (o, vc)⟩]) n r k.plane o vc k.flits = creditsOf u n r k.plane o vc k.flits := by
    rw [creditsOf, used_setBuf, ← creditsOf, hv.creditsOf]
  generalize setBuf v n r [⟨k, k.flits, some (o, vc)⟩] = x at hset hbuf hcred hserve
  obtain ⟨hpass, hleft⟩ := passHeld_passes (s := emit x (.mesh (routerBlk n r) o vc k)) (n := n) (r := r) (k := k) (fl := k.flits) (o := o)
    (vc := vc) hbuf
  have hemit : creditsOf (emit x (.mesh (routerBlk n r) o vc k)) n r k.plane o vc k.flits = creditsOf u n r k.plane o vc k.flits := hcred
  rw [hemit] at hleft
  rw [← hserve] at hpass hleft
  have hall : serveAll u n r = serveOut u n r k.plane o :=
    foldl_once (by decide) (mem_outputs k.plane o) (fun x hx => serveOut_other hb hk fun hp ho => absurd (Prod.ext hp ho) hx) rfl
      fun x hx => serveOut_rest hleft hx
  rw [hall]
  refine ⟨hpass.out.trans ?_, hpass.mem.trans ?_, hpass.cores.trans ?_, hleft⟩
  · change x.out ++ [.mesh (routerBlk n r) o vc k] = _
    rw [hset.out, hv.out]
  · change x.mem = _
    rw [hset.mem, hv.mem]
  · change x.cores = _
    rw [hset.cores, hv.cores]

/-! ### The router with the packet that has come in -/

section

variable (s : State) (n r : Nat) (k : Packet)

theorem field_sent (i : Nat) : (sentFlits s k).field i = s.field i := by rw [sentFlits_only]; rfl

theorem sameHops_sent : SameHops s (sentFlits s k) :=
  ⟨by rw [sentFlits_only], by rw [sentFlits_only], by rw [sentFlits_only], fun i => by rw [field_sent], fun i => by rw [field_sent],
    fun i => by rw [field_sent]⟩

theorem sameHops_in : SameHops s (headerIn s n r k) := (sameHops_sent s k).trans (buffers_setBuf _ n r _).sameHops

theorem headerIn_out : (headerIn s n r k).out = s.out :=
  (buffers_setBuf _ n r _).out.trans (by rw [sentFlits_only])

theorem headerIn_mem : (headerIn s n r k).mem = s.mem :=
  (buffers_setBuf _ n r _).mem.trans (by rw [sentFlits_only])

theorem headerIn_cores : (headerIn s n r k).cores = (sentFlits s k).cores := (buffers_setBuf _ n r _).cores

theorem headerIn_credits (p : Plane) (o : MeshPort) (vc : Bool) (w : Nat) :
    creditsOf (headerIn s n r k) n r p o vc w = creditsOf s n r p o vc w := by
  rw [creditsOf, headerIn, used_setBuf, field_sent, ← creditsOf]

end

/-- R30, R262, R271: where one packet goes. -/
theorem packetRoute_one {s : State} {n r : Nat} {k : Packet} {o : MeshPort} {vc byOvl : Bool} (hn : n < 12) (hr : r < 104)
    (hlive : routerDead s n r = false) (hon : domOf s (96 + n) = .on) (hk : hopOf s n r k = .go o vc byOvl) (hb : bufOf s n r = []) :
    (linkOpen s n r k.plane o = true → 0 < creditsOf s n r k.plane o vc 1 → clsOf s k < 17 →
      k.flits ≤ 16 * weightOf s n (clsOf s k) → ∃ t m, exec (.packetRoute n r [k] []) s = .next t ∧
        t.out = s.out ++ [.mesh (routerBlk n r) o vc k] ∧ t.mem = s.mem ∧ t.cores = (sentFlits s k).cores ∧
        m = creditsOf s n r k.plane o vc k.flits ∧
        bufOf t n r = if m < k.flits then [⟨k, k.flits - m, some (o, vc)⟩] else []) ∧
    (linkOpen s n r k.plane o = false → ∃ t, exec (.packetRoute n r [k] []) s = .next t ∧ t.out = s.out ∧ t.mem = s.mem ∧
      t.cores = (sentFlits s k).cores ∧ bufOf t n r = [⟨k, k.flits, none⟩]) := by
  have hroute := route_entered hn hr hlive hon hb hk
  have hsame := sameHops_in s n r k
  have hbuf : bufOf (headerIn s n r k) n r = [⟨k, k.flits, none⟩] := bufOf_setBuf _ n r _
  have hhop := (hsame.hopOf n r k).trans hk
  refine ⟨fun hopen hc hcls hw => ?_, fun hclosed => ?_⟩
  · obtain ⟨hout, hmem, hcores, hleft⟩ := serveAll_wins hbuf hhop ((hsame.linkOpen n r _ _).trans hopen)
      (by rwa [headerIn_credits]) (by rwa [hsame.clsOf]) (by rwa [hsame.clsOf, hsame.weightOf])
    rw [headerIn_credits] at hleft
    exact ⟨_, _, hroute, hout.trans (by rw [headerIn_out]), hmem.trans (headerIn_mem s n r k), hcores.trans (headerIn_cores s n r k), rfl, hleft⟩
  · rw [serveAll_closed hbuf hhop ((hsame.linkOpen n r _ _).trans hclosed)] at hroute
    exact ⟨_, hroute, headerIn_out s n r k, headerIn_mem s n r k, headerIn_cores s n r k, hbuf⟩

/-! ### Weights (R272) -/

/-- R272: the weight of a partition as a field takes it. -/
def takeWeight (p w : Nat) (k : Field) : Field := { k with msh := { k.msh with weights := mset k.msh.weights p w } }

theorem weights_reach {s : State} {p : Nat} (hp : p < 16) : ∃ t, exec (.weightPropagate p) s = .next t ∧ t.mem = s.mem ∧
    t.cores = s.cores ∧ ∀ n < 12, ∀ q, mget 16 (t.field n).msh.weights q =
      if q = p then cfgNum s 0x40 0x20 p 16 else mget 16 (s.field n).msh.weights q := by
  have hexec : exec (.weightPropagate p) s = execWeightPropagate p s := rfl
  rw [hexec, execWeightPropagate, if_pos hp]
  obtain ⟨honly, hat, -⟩ := foldl_each (s := s) (step := fun s n => modMsh s n (fun m => { m with weights := mset m.weights p (cfgNum s 0x40 0x0020 p 16) }))
    (g := fun _ => takeWeight p (cfgNum s 0x40 0x20 p 16)) (fun u n hu => by
      have hcfg : cfgNum u 0x40 0x20 p 16 = cfgNum s 0x40 0x20 p 16 := by rw [← hu]; rfl
      rw [← hcfg]
      exact modField_each u n (takeWeight p (cfgNum u 0x40 0x20 p 16))) (List.range 12) List.nodup_range
  refine ⟨_, rfl, honly.mem, honly.cores, fun n hn q => ?_⟩
  rw [hat n (List.mem_range.2 hn), takeWeight]
  dsimp only
  split
  · next h => rw [h, mget_mset]
  · next h => rw [mget_mset_ne _ _ _ h]

/-! ### Delivery (R261, R277 to R279) -/

/-- R261, R277, R279: whether a packet's destination is under reset or switched off. -/
def destOff (s : State) : MeshDest → Bool
  | .core c => (s.core c).crst
  | .edge die _ => dieOff s die
  | .field _ => false

section

variable {s : State} {k : Packet} {tx ty : Nat} {out : MeshPort} (hd : destTile s k.dest = some (tx, ty, out))

include hd

theorem deliver_abort (ha : k.abort = true) : ∃ t, exec (.meshPacketDeliver k) s = .next t ∧ t.out = s.out ∧ t.mem = s.mem ∧
    t.cores = s.cores := by
  have hexec : exec (.meshPacketDeliver k) s = execMeshPacketDeliver k s := rfl
  rw [hexec, execMeshPacketDeliver, hd]
  dsimp only
  rw [if_pos ha]
  exact ⟨_, rfl, rfl, rfl, rfl⟩

variable (ha : k.abort = false)

include ha

theorem deliver_live (hoff : destOff s k.dest = false) : ∃ t, exec (.meshPacketDeliver k) s = .next t ∧
    t.out = s.out ++ [.mesh (routerBlk (tileRouter tx ty).1 (tileRouter tx ty).2) out k.vc1 k] ∧ t.mem = s.mem ∧ t.fields = s.fields := by
  have hexec : exec (.meshPacketDeliver k) s = execMeshPacketDeliver k s := rfl
  rw [hexec, execMeshPacketDeliver, hd]
  dsimp only
  rw [if_neg (by rw [ha]; exact Bool.false_ne_true)]
  cases hdest : k.dest with
  | core c =>
    rw [hdest] at hoff
    dsimp only
    rw [if_neg (by rw [show (s.core c).crst = false from hoff]; exact Bool.false_ne_true)]
    exact ⟨_, rfl, rfl, rfl, rfl⟩
  | edge die sel =>
    rw [hdest] at hoff
    dsimp only
    rw [if_neg (by rw [show dieOff s die = false from hoff]; exact Bool.false_ne_true)]
    exact ⟨_, rfl, rfl, rfl, rfl⟩
  | field m => exact ⟨_, rfl, rfl, rfl, rfl⟩

theorem deliver_discards (hoff : destOff s k.dest = true) : ∃ dcore, exec (.meshPacketDeliver k) s =
    .next (discardPacket s (tileRouter tx ty).1 (tileRouter tx ty).2 dcore k) := by
  have hexec : exec (.meshPacketDeliver k) s = execMeshPacketDeliver k s := rfl
  rw [hexec, execMeshPacketDeliver, hd]
  dsimp only
  rw [if_neg (by rw [ha]; exact Bool.false_ne_true)]
  cases hdest : k.dest with
  | core c =>
    rw [hdest] at hoff
    dsimp only
    rw [if_pos (show (s.core c).crst = true from hoff)]
    exact ⟨c, rfl⟩
  | edge die sel =>
    rw [hdest] at hoff
    dsimp only
    rw [if_pos (show dieOff s die = true from hoff)]
    exact ⟨0x7FF, rfl⟩
  | field m =>
    rw [hdest] at hoff
    cases hoff

end

/-- R277: what a router counts and captures of a packet that it discards. -/
def dropNote (dcore : Nat) (part : Option Nat) (score : Nat) (m : MeshF) : MeshF :=
  { m with
    dropRst := satInc m.dropRst 1
    dropLog := if m.dropLog.v then m.dropLog else ⟨true, part.isNone, dcore, part.getD 0, score⟩ }

theorem meshDrop_field (s : State) (n r dcore : Nat) (part : Option Nat) (score plane : Nat) :
    ((meshDrop s n r dcore part score plane).field n).msh = dropNote dcore part score (s.field n).msh := by
  have h : (meshDrop s n r dcore part score plane).field n = (modMsh s n (dropNote dcore part score)).field n := rfl
  rw [h, field_modMsh]

theorem dropNote_log (dcore : Nat) (part : Option Nat) (score : Nat) (m : MeshF) : (dropNote dcore part score m).dropLog.v = true ∧
    (m.dropLog.v = true → (dropNote dcore part score m).dropLog = m.dropLog) := by
  rw [dropNote]
  dsimp only
  split
  · next h => exact ⟨h, fun _ => rfl⟩
  · next h => exact ⟨rfl, fun hv => absurd hv h⟩

/-- R277, R279: a packet discarded whole is counted and captured, and a request answered DEST_RESET. -/
theorem discardPacket_effect (s : State) (n r dcore : Nat) (k : Packet) :
    (discardPacket s n r dcore k).mem = s.mem ∧ (discardPacket s n r dcore k).cores = s.cores ∧
      ((discardPacket s n r dcore k).field n).msh.dropRst = satInc (s.field n).msh.dropRst 1 ∧
      ((discardPacket s n r dcore k).field n).msh.dropLog.v = true ∧
      ((s.field n).msh.dropLog.v = true → ((discardPacket s n r dcore k).field n).msh.dropLog = (s.field n).msh.dropLog) ∧
      (discardPacket s n r dcore k).out = s.out ++ (if k.kind = .readReq ∨ k.kind = .bulk ∨ k.kind = .store then
        [.meshRefuse (routerBlk n r) 6 k] else []) := by
  obtain ⟨part, hpart⟩ : ∃ part, part = if clsOf s k = 16 then none else some (clsOf s k) := ⟨_, rfl⟩
  have hf := meshDrop_field s n r dcore part k.srcCore (planeBit k.plane)
  obtain ⟨hv, hkeep⟩ := dropNote_log dcore part k.srcCore (s.field n).msh
  have hdrop : discardPacket s n r dcore k = { meshDrop s n r dcore part k.srcCore (planeBit k.plane) with
      out := s.out ++ (if k.kind = .readReq ∨ k.kind = .bulk ∨ k.kind = .store then [.meshRefuse (routerBlk n r) 6 k] else []) } := by
    have hnil : ∀ u : State, u = { u with out := u.out ++ [] } := fun u => by rw [List.append_nil]
    rw [discardPacket, ← hpart]
    cases k.kind with
    | readReq | bulk | store => rfl
    | rdata | answer | grant => exact hnil (meshDrop s n r dcore part k.srcCore (planeBit k.plane))
  rw [hdrop]
  exact ⟨rfl, rfl, congrArg MeshF.dropRst hf, (congrArg (fun m => m.dropLog.v) hf).trans hv,
    fun h => (congrArg MeshF.dropLog hf).trans (hkeep h), rfl⟩

/-- Settles O38: the hop of a packet, the packet alone in its router, refusals, weights and delivery. -/
theorem packetsAreForwardedAndDelivered : Obligations.PacketsAreForwardedAndDelivered := by
  unfold Obligations.PacketsAreForwardedAndDelivered
  refine ⟨fun s n r tx ty x y here k hd ht hc => hop_decided hd ht hc,
    fun s n r k o vc byOvl hn hr hlive hon hk hb => packetRoute_one hn hr hlive hon hk hb,
    fun s n r k hn hr hlive hon hb hd => route_refused hn hr hlive hon hb (hopOf_unmapped hd),
    fun s p hp => weights_reach hp, fun s k tx ty n r out hd ht => ⟨fun off hoff => ⟨fun ha hlive => ?_, fun ha hdead => ?_⟩,
      deliver_abort hd⟩⟩
  · have hlive' : destOff s k.dest = false := by
      rw [← hlive, hoff]
      cases k.dest <;> rfl
    have h := deliver_live hd ha hlive'
    rwa [ht] at h
  · have hdead' : destOff s k.dest = true := by
      rw [← hdead, hoff]
      cases k.dest <;> rfl
    obtain ⟨dcore, h⟩ := deliver_discards hd ha hdead'
    rw [ht] at h
    exact ⟨_, h, discardPacket_effect s n r dcore k⟩

end Sys2Proof.Machine
end

section
/-!
SUPPORT. The Survey: what is live after an entry, and what one more defect changes (R42 to R49).
-/

namespace Sys2Proof.Machine

/-! ### What is live (R43) -/

theorem liveOf_mem {e : SurveyEntry} {l : List SurveyEntry} (h : e ∈ liveOf l) : e ∈ l ∧ e.revoke = false := by
  induction l with
  | nil => cases h
  | cons x l ih =>
    rw [liveOf] at h
    split at h
    · exact ⟨List.mem_cons_of_mem _ (ih h).1, (ih h).2⟩
    · next hx =>
      rw [Bool.or_eq_true, not_or] at hx
      rcases List.mem_cons.1 h with rfl | h
      · exact ⟨List.mem_cons_self, by simpa using hx.1⟩
      · exact ⟨List.mem_cons_of_mem _ (ih h).1, (ih h).2⟩

/-- What is live of two lists in turn: of the first, what nothing of either cancels, and of the second what is live. -/
theorem liveOf_append (xs ys : List SurveyEntry) :
    liveOf (xs ++ ys) = (liveOf xs).filter (fun e => !ys.any (cancels e)) ++ liveOf ys := by
  induction xs with
  | nil => rfl
  | cons x xs ih =>
    rw [List.cons_append, liveOf, liveOf, List.any_append, ih]
    by_cases hx : (x.revoke || xs.any (cancels x)) = true
    · rw [if_pos hx, if_pos (by rw [← Bool.or_assoc, hx, Bool.true_or])]
    · rw [if_neg hx]
      by_cases hy : ys.any (cancels x) = true
      · rw [if_pos (by rw [hy, Bool.or_true, Bool.or_true]), List.filter_cons_of_neg (by rw [hy]; decide)]
      · rw [Bool.not_eq_true] at hx hy
        rw [if_neg (by rw [← Bool.or_assoc, hx, hy]; decide), List.filter_cons_of_pos (by rw [hy]; rfl), List.cons_append]

theorem any_cancels_of_kept {e : SurveyEntry} {l : List SurveyEntry} (h : ∀ x ∈ l, x.revoke = false) : l.any (cancels e) = false := by
  rw [List.any_eq_false]
  intro x hx
  rw [cancels, h x hx]
  exact Bool.false_ne_true

theorem liveOf_of_kept {l : List SurveyEntry} (h : ∀ x ∈ l, x.revoke = false) : liveOf l = l := by
  induction l with
  | nil => rfl
  | cons x l ih =>
    have hl : ∀ y ∈ l, y.revoke = false := fun y hy => h y (List.mem_cons_of_mem _ hy)
    rw [liveOf, h x List.mem_cons_self, any_cancels_of_kept hl, if_neg (by decide), ih hl]

/-- R47: what is live stays so where a list keeps its live entries alone. -/
theorem liveOf_liveOf_append (xs ys : List SurveyEntry) : liveOf (liveOf xs ++ ys) = liveOf (xs ++ ys) := by
  rw [liveOf_append, liveOf_append, liveOf_of_kept fun x hx => (liveOf_mem hx).2]

theorem mem_liveOf_append {e : SurveyEntry} {xs ys : List SurveyEntry} :
    e ∈ liveOf (xs ++ ys) ↔ (e ∈ liveOf xs ∧ ys.any (cancels e) = false) ∨ e ∈ liveOf ys := by
  rw [liveOf_append, List.mem_append, List.mem_filter, Bool.not_eq_true']

/-! ### The halves (R42, R47) -/

section

variable (v : Survey)

theorem second_modCur {f : SurveyHalf → SurveyHalf} (hf : ∀ h, (f h).header = h.header) : (v.modCur f).second = v.second := by
  have hg : ∀ h, (f h).gen = h.gen := fun h => by rw [SurveyHalf.gen, SurveyHalf.gen, hf]
  rw [Survey.modCur]
  split
  · simp only [Survey.second, hg]
  · simp only [Survey.second, hg]

theorem cur_modCur {f : SurveyHalf → SurveyHalf} (hf : ∀ h, (f h).header = h.header) : (v.modCur f).cur = f v.cur := by
  rw [Survey.cur, second_modCur v hf, Survey.cur, Survey.modCur]
  split <;> rfl

theorem readSlots_append (a b : List SurveySlot) : readSlots (a ++ b) = readSlots a ++ readSlots b := by
  induction a with
  | nil => rfl
  | cons x a ih =>
    cases x with
    | entry e => rw [List.cons_append, readSlots, readSlots, ih, List.cons_append]
    | torn => rw [List.cons_append, readSlots, readSlots, ih]

theorem readSlots_entries (l : List SurveyEntry) : readSlots (l.map .entry) = l := by
  induction l with
  | nil => rfl
  | cons e l ih => rw [List.map_cons, readSlots, ih]

/-- R43: the entry is the last of the current half. -/
def withEntry (e : SurveyEntry) (h : SurveyHalf) : SurveyHalf := { h with slots := h.slots ++ [.entry e] }

theorem entries_withEntry (e : SurveyEntry) : (v.modCur (withEntry e)).entries = v.entries ++ [e] := by
  rw [Survey.entries, cur_modCur v (f := withEntry e) fun _ => rfl, withEntry, readSlots_append, ← Survey.entries]
  rfl

theorem gen_header (n seq : Nat) (echo : W64) (slots : List SurveySlot) : ∃ g, (SurveyHalf.mk (some (headerEntry n seq echo)) slots).gen = some g := by
  have hver : leAt (headerEntry n seq echo).loc 4 2 = 0x0100 := by
    rw [leAt, headerEntry]
    dsimp only
    rw [List.append_assoc, List.drop_left' (natBytes_length 4 n)]
    rfl
  rw [SurveyHalf.gen]
  dsimp only
  rw [if_pos ⟨rfl, hver⟩]
  exact ⟨_, rfl⟩

theorem entries_compacted (live : List SurveyEntry) (echo : W64) : (v.compacted live echo).entries = live := by
  obtain ⟨g, hg⟩ := gen_header (v.gen + 1) v.nextSeq echo (live.map .entry)
  have hnone : (SurveyHalf.mk none []).gen = none := rfl
  have hcur : (v.compacted live echo).cur = ⟨some (headerEntry (v.gen + 1) v.nextSeq echo), live.map .entry⟩ := by
    rw [Survey.cur, Survey.second, Survey.compacted]
    by_cases hs : v.second
    · rw [if_pos hs]
      dsimp only
      rw [hnone, hg]
      rfl
    · rw [if_neg hs]
      dsimp only
      rw [hnone, hg]
      rfl
  rw [Survey.entries, hcur, readSlots_entries]

theorem ram_compacted (live : List SurveyEntry) (echo : W64) : (v.compacted live echo).ram = v.ram := by
  rw [Survey.compacted]
  split <;> rfl

end

/-! ### What an entry changes (R43 to R49) -/

/-- Of `s`, `t` changes the Survey and what records change, at most. -/
def Found (s t : State) : Prop :=
  t = { s with
    survey := t.survey
    wake := { s.wake with waitSurvey := t.wake.waitSurvey, kept := t.wake.kept, lost := t.wake.lost }
    lastSeq := t.lastSeq
    logBuf := t.logBuf
    totals := t.totals
    totalsCold := t.totalsCold
    coals := t.coals
    sessions := t.sessions }

theorem Found.refl (s : State) : Found s s := rfl

theorem Found.trans {s t u : State} (h : Found s t) (k : Found t u) : Found s u := by
  rw [Found] at h k ⊢
  rw [k, h]

theorem Logged.found {s t : State} (h : Logged s t) : Found s t := by
  rw [Found, h]

theorem Logged.survey {s t : State} (h : Logged s t) : t.survey = s.survey := by rw [h]
theorem Logged.mgmt {s t : State} (h : Logged s t) : t.wake.mgmt = s.wake.mgmt := by rw [h]

section

variable {s t : State} (h : Found s t)

include h

theorem Found.mem : t.mem = s.mem := by rw [h]
theorem Found.cores : t.cores = s.cores := by rw [h]
theorem Found.fields : t.fields = s.fields := by rw [h]
theorem Found.groups : t.groups = s.groups := by rw [h]
theorem Found.parts : t.parts = s.parts := by rw [h]
theorem Found.seams : t.seams = s.seams := by rw [h]
theorem Found.pwr : t.pwr = s.pwr := by rw [h]
theorem Found.dev : t.dev = s.dev := by rw [h]
theorem Found.mgmt : t.wake.mgmt = s.wake.mgmt := by rw [h]
theorem Found.compute : t.wake.compute = s.wake.compute := by rw [h]
theorem Found.start : t.wake.start = s.wake.start := by rw [h]

end

theorem found_makeRoom (s : State) : Found s (makeRoom s) := by
  rw [makeRoom]
  split
  · exact .refl s
  · rfl

/-- Making room loses no live entry and nothing that memory alone holds. -/
theorem makeRoom_live (s : State) : (makeRoom s).survey.ram = s.survey.ram ∧
    ∀ l, liveOf ((makeRoom s).survey.entries ++ l) = liveOf (s.survey.entries ++ l) := by
  rw [makeRoom]
  split
  · exact ⟨rfl, fun _ => rfl⟩
  · refine ⟨ram_compacted _ _ _, fun l => ?_⟩
    rw [entries_compacted, liveOf_liveOf_append]

theorem makeRoom_room {s : State} (h : s.survey.room = true) : makeRoom s = s := by
  rw [Survey.room, Bool.and_eq_true, decide_eq_true_iff] at h
  rw [makeRoom]
  rw [if_pos (.inl h.1)]

/-- The entry of a defect of this LOCATION (R44). -/
def newEntry (s : State) (ty source : Nat) (revoke prov : Bool) (loc : Bytes) : SurveyEntry :=
  { type_ := ty, source := source, revoke := revoke, prov := prov, seq := s.survey.nextSeq, echo := s.echoM, loc := padTo 12 loc }

/-- R43, R44: the Survey with an entry in its flash. -/
def Survey.wrote (v : Survey) (e : SurveyEntry) (now : Nat) : Survey :=
  { v.modCur (withEntry e) with
    nextSeq := (v.modCur (withEntry e)).nextSeq + 1
    ram := (v.modCur (withEntry e)).ram.filter (fun x => !(x.type_ == e.type_ && x.loc == e.loc))
    wroteAt := some now }

theorem ram_wrote (v : Survey) (e : SurveyEntry) (now : Nat) :
    (v.wrote e now).ram = v.ram.filter (fun x => !(x.type_ == e.type_ && x.loc == e.loc)) := by
  have h : (v.modCur (withEntry e)).ram = v.ram := by
    rw [Survey.modCur]
    split <;> rfl
  rw [Survey.wrote, h]

theorem entries_wrote (v : Survey) (e : SurveyEntry) (now : Nat) : (v.wrote e now).entries = v.entries ++ [e] :=
  entries_withEntry v e

section

variable (s : State) (ty source : Nat) (revoke prov : Bool) (loc : Bytes)

theorem surveyPut_waits (h : s.wake.mgmt = true) : surveyPut s ty source revoke prov loc =
    { s with wake := { s.wake with waitSurvey := s.wake.waitSurvey ++ [newEntry s ty source revoke prov loc] } } := by
  rw [surveyPut]
  dsimp only
  rw [if_pos h]
  rfl

/-- The entry in memory alone, and its error (R49). -/
def inRam (s : State) (e : SurveyEntry) : State :=
  raiseErr { s with survey := { s.survey with ram := s.survey.ram ++ [e], full := true } } 0x0013 9 0 none s.echoM []

theorem surveyPut_puts (h : s.wake.mgmt = false) : surveyPut s ty source revoke prov loc =
    if (makeRoom s).survey.room then
      { makeRoom s with survey := (makeRoom s).survey.wrote (newEntry (makeRoom s) ty source revoke prov loc) (makeRoom s).now }
    else inRam (makeRoom s) (newEntry (makeRoom s) ty source revoke prov loc) := by
  have he : newEntry (makeRoom s) ty source revoke prov loc = { newEntry s ty source revoke prov loc with seq := (makeRoom s).survey.nextSeq } := by
    have hecho : (makeRoom s).echoM = s.echoM := by rw [found_makeRoom s]
    rw [newEntry, hecho, newEntry]
  rw [surveyPut]
  dsimp only
  rw [if_neg (by rw [h]; exact Bool.false_ne_true), he]
  rfl

theorem logged_inRam (e : SurveyEntry) : Logged { s with survey := { s.survey with ram := s.survey.ram ++ [e], full := true } } (inRam s e) :=
  logged_raiseErr (by decide) _ 9 0 none s.echoM []

theorem found_surveyPut : Found s (surveyPut s ty source revoke prov loc) := by
  cases h : s.wake.mgmt with
  | true =>
    rw [surveyPut_waits s ty source revoke prov loc h]
    rfl
  | false =>
    rw [surveyPut_puts s ty source revoke prov loc h]
    refine (found_makeRoom s).trans ?_
    split
    · rfl
    · exact Found.trans (t := { makeRoom s with survey := { (makeRoom s).survey with
        ram := (makeRoom s).survey.ram ++ [newEntry (makeRoom s) ty source revoke prov loc], full := true } }) rfl (logged_inRam _ _).found

/-- The live Survey after an entry: of the entry, and of what was live before, all that it does not cancel or replace. -/
theorem surveyPut_live (h : s.wake.mgmt = false) : ∃ e, e = newEntry (makeRoom s) ty source revoke prov loc ∧
    (liveSurvey (surveyPut s ty source revoke prov loc) =
        liveOf ((makeRoom s).survey.entries ++ [e] ++ s.survey.ram.filter (fun x => !(x.type_ == e.type_ && x.loc == e.loc))) ∨
      liveSurvey (surveyPut s ty source revoke prov loc) = liveOf ((makeRoom s).survey.entries ++ (s.survey.ram ++ [e]))) := by
  refine ⟨_, rfl, ?_⟩
  rw [surveyPut_puts s ty source revoke prov loc h]
  split
  · refine .inl ?_
    rw [liveSurvey]
    dsimp only
    rw [entries_wrote, ram_wrote, (makeRoom_live s).1]
  · refine .inr ?_
    rw [liveSurvey, (logged_inRam (makeRoom s) _).survey]
    dsimp only
    rw [(makeRoom_live s).1]
    rfl

end

/-! ### Defects stay live (R43, R45) -/

theorem any_cancels_filter {e : SurveyEntry} {l : List SurveyEntry} (p : SurveyEntry → Bool) (h : l.any (cancels e) = false) :
    (l.filter p).any (cancels e) = false := by
  rw [List.any_eq_false] at h ⊢
  exact fun x hx => h x (List.mem_of_mem_filter hx)

theorem mem_liveOf_filter {e : SurveyEntry} {l : List SurveyEntry} {p : SurveyEntry → Bool} (hp : p e = true) (h : e ∈ liveOf l) :
    e ∈ liveOf (l.filter p) := by
  induction l with
  | nil => cases h
  | cons x l ih =>
    rw [liveOf] at h
    have hrest : e ∈ liveOf l → e ∈ liveOf ((x :: l).filter p) := fun he => by
      by_cases hx : p x = true
      · rw [List.filter_cons_of_pos hx, liveOf]
        split
        · exact ih he
        · exact List.mem_cons_of_mem _ (ih he)
      · rw [List.filter_cons_of_neg hx]
        exact ih he
    split at h
    · exact hrest h
    · next hx =>
      rcases List.mem_cons.1 h with rfl | he
      · rw [Bool.not_eq_true, Bool.or_eq_false_iff] at hx
        rw [List.filter_cons_of_pos hp, liveOf, hx.1, any_cancels_filter p hx.2, if_neg (by decide)]
        exact List.mem_cons_self
      · exact hrest he

/-- R45: every live entry stays live. -/
def Finds (s t : State) : Prop := ∀ e ∈ liveSurvey s, e ∈ liveSurvey t

theorem Finds.refl (s : State) : Finds s s := fun _ h => h

theorem Finds.trans {s t u : State} (h : Finds s t) (k : Finds t u) : Finds s u := fun e he => k e (h e he)

theorem finds_of_survey {s t : State} (h : t.survey = s.survey) : Finds s t := fun e he => by
  rw [liveSurvey, h]
  exact he

theorem Finds.foldl {α : Type} {step : State → α → State} (h : ∀ s a, Finds s (step s a)) (s : State) (l : List α) : Finds s (l.foldl step s) :=
  List.foldlRecOn (motive := fun t => Finds s t) l step (.refl s) fun t ht a _ => ht.trans (h t a)

theorem isLive_of_mem {s : State} {e : SurveyEntry} (h : e ∈ liveSurvey s) : isLive s e.type_ e.loc = true := by
  rw [isLive, Bool.not_eq_true', List.isEmpty_eq_false_iff]
  exact List.ne_nil_of_mem (List.mem_filter.2 ⟨h, by rw [beq_self_eq_true, beq_self_eq_true]; rfl⟩)

theorem Finds.isLive {s t : State} (h : Finds s t) {ty : Nat} {loc : Bytes} (hl : isLive s ty loc = true) : isLive t ty loc = true := by
  rw [Machine.isLive, Bool.not_eq_true', List.isEmpty_eq_false_iff] at hl ⊢
  obtain ⟨e, he⟩ := List.exists_mem_of_ne_nil _ hl
  obtain ⟨hmem, hp⟩ := List.mem_filter.1 he
  exact List.ne_nil_of_mem (List.mem_filter.2 ⟨h e hmem, hp⟩)

/-- A command that adds a defect after it has found others, and before it finds more. -/
theorem SurveyAdds.between {s t u v : State} {ty : Nat} {loc : Bytes} (h : Finds s t) (hm : t.wake.mgmt = s.wake.mgmt)
    (k : SurveyAdds t u ty loc) (l : Finds u v) : SurveyAdds s v ty loc :=
  ⟨h.trans (Finds.trans k.1 l), fun hs => l.isLive (k.2 (hm.trans hs))⟩

section

variable {s : State} {ty : Nat} {loc : Bytes}

/-- R43, R49: an entry that revokes nothing leaves every live entry of another defect live, and is itself live. -/
theorem surveyPut_adds (source : Nat) (prov : Bool) (h : s.wake.mgmt = false)
    (hnew : ∀ x ∈ liveSurvey s, ¬ (x.type_ = ty ∧ x.loc = padTo 12 loc)) : SurveyAdds s (surveyPut s ty source false prov loc) ty loc := by
  obtain ⟨e, he, hlive⟩ := surveyPut_live s ty source false prov loc h
  have hty : e.type_ = ty := by rw [he]; rfl
  have hloc : e.loc = padTo 12 loc := by rw [he]; rfl
  have hkept : e.revoke = false := by rw [he]; rfl
  have hone : liveOf [e] = [e] := liveOf_of_kept fun x hx => by rwa [List.mem_singleton.1 hx]
  have hcancel : ∀ x, [e].any (cancels x) = false := fun x => any_cancels_of_kept fun y hy => by rwa [List.mem_singleton.1 hy]
  have hs : liveSurvey s = liveOf ((makeRoom s).survey.entries ++ s.survey.ram) := ((makeRoom_live s).2 _).symm
  suffices hmem : (∀ x ∈ liveSurvey s, x ∈ liveSurvey (surveyPut s ty source false prov loc)) ∧
      e ∈ liveSurvey (surveyPut s ty source false prov loc) by
    refine ⟨hmem.1, fun _ => ?_⟩
    have hl := isLive_of_mem hmem.2
    rwa [hty, hloc] at hl
  rcases hlive with hlive | hlive
  · rw [hlive]
    refine ⟨fun x hx => ?_, ?_⟩
    · have hother : (fun y : SurveyEntry => !(y.type_ == e.type_ && y.loc == e.loc)) x = true := by
        rw [Bool.not_eq_true', Bool.and_eq_false_imp, beq_iff_eq, beq_eq_false_iff_ne, hty, hloc]
        exact fun h1 h2 => hnew x hx ⟨h1, h2⟩
      rw [hs] at hx
      rcases mem_liveOf_append.1 hx with ⟨hx, hc⟩ | hx
      · exact mem_liveOf_append.2 (.inl ⟨mem_liveOf_append.2 (.inl ⟨hx, hcancel x⟩), any_cancels_filter _ hc⟩)
      · exact mem_liveOf_append.2 (.inr (mem_liveOf_filter hother hx))
    · refine mem_liveOf_append.2 (.inl ⟨mem_liveOf_append.2 (.inr (by rw [hone]; exact List.mem_cons_self)), ?_⟩)
      rw [List.any_eq_false]
      intro x hx hc
      have hp := (List.mem_filter.1 hx).2
      rw [cancels, Bool.and_assoc, Bool.and_eq_true] at hc
      rw [hc.2] at hp
      cases hp
  · rw [hlive, ← List.append_assoc]
    refine ⟨fun x hx => ?_, ?_⟩
    · rw [hs] at hx
      exact mem_liveOf_append.2 (.inl ⟨hx, hcancel x⟩)
    · exact mem_liveOf_append.2 (.inr (by rw [hone]; exact List.mem_cons_self))

theorem not_mem_of_not_live (h : isLive s ty (padTo 12 loc) = false) : ∀ x ∈ liveSurvey s, ¬ (x.type_ = ty ∧ x.loc = padTo 12 loc) := by
  rintro x hx ⟨hty, hloc⟩
  have hl := isLive_of_mem hx
  rw [hty, hloc, h] at hl
  cases hl

theorem surveyAppend_live (source : Nat) (prov : Bool) (h : isLive s ty (padTo 12 loc) = true) : surveyAppend s ty source prov loc = s := by
  rw [surveyAppend, if_pos h]

theorem surveyAppend_new (source : Nat) (prov : Bool) (h : isLive s ty (padTo 12 loc) = false) :
    surveyAppend s ty source prov loc = surveyPut s ty source false prov loc := by
  rw [surveyAppend, if_neg (by rw [h]; exact Bool.false_ne_true)]

/-- R45: a defect that is appended is live, and every other stays so. -/
theorem surveyAppend_adds (source : Nat) (prov : Bool) : SurveyAdds s (surveyAppend s ty source prov loc) ty loc := by
  cases hl : isLive s ty (padTo 12 loc) with
  | true =>
    rw [surveyAppend_live source prov hl]
    exact ⟨fun _ h => h, fun _ => hl⟩
  | false =>
    rw [surveyAppend_new source prov hl]
    cases hm : s.wake.mgmt with
    | true =>
      rw [surveyPut_waits s ty source false prov loc hm]
      refine ⟨fun _ h => h, fun h => ?_⟩
      rw [h] at hm
      cases hm
    | false => exact surveyPut_adds source prov hm (not_mem_of_not_live hl)

theorem finds_surveyAppend (source : Nat) (prov : Bool) : Finds s (surveyAppend s ty source prov loc) := (surveyAppend_adds source prov).1

theorem found_surveyAppend (source : Nat) (prov : Bool) : Found s (surveyAppend s ty source prov loc) := by
  rw [surveyAppend]
  split
  · exact .refl s
  · exact found_surveyPut s ty source false prov loc

/-- R43, R45: a defect that is not live takes the next place of the Survey. -/
theorem surveyAppend_gets (source : Nat) (prov : Bool) : SurveyGets s (surveyAppend s ty source prov loc) ty loc := by
  refine ⟨fun hl => by rw [surveyAppend_live source prov hl], fun hl hm hroom => ?_⟩
  refine ⟨newEntry s ty source false prov loc, ?_, rfl, rfl, rfl⟩
  rw [surveyAppend_new source prov hl, surveyPut_puts s ty source false prov loc hm, makeRoom_room hroom, if_pos hroom]
  exact entries_wrote _ _ _

/-- A Survey that gets an entry gets it also where the rest of the command leaves it alone. -/
theorem SurveyGets.within {t u v : State} (hs : t.survey = s.survey) (hm : t.wake.mgmt = s.wake.mgmt) (h : SurveyGets t u ty loc)
    (hv : v.survey = u.survey) : SurveyGets s v ty loc := by
  have hlive : isLive t ty (padTo 12 loc) = isLive s ty (padTo 12 loc) := by
    rw [isLive, liveEntries, liveSurvey, hs, ← liveSurvey, ← liveEntries, ← isLive]
  obtain ⟨h1, h2⟩ := h
  rw [hlive, hs] at h1 h2
  rw [hm] at h2
  exact ⟨fun hl => hv.trans (h1 hl), fun hl hw hroom => by rw [hv]; exact h2 hl hw hroom⟩

end

end Sys2Proof.Machine
end

section
/-!
SUPPORT. What the reset of a core leaves alone: what was under way in its engines lands or is dropped, and may find defects on the way
(R278, R338).
-/

namespace Sys2Proof.Machine

/-- Of `s`, `t` changes what lands as cores are reset, at most: memory, cores, messages, counters and records, the drop counts
of the mesh, what stacks count of errors, and the Survey by defects that are found, where no core begins a command or leaves reset. -/
structure Lands (s t : State) : Prop where
  rest : t = { s with
    fresh := t.fresh
    mem := t.mem
    marks := t.marks
    rowErrs := t.rowErrs
    cores := t.cores
    fields := t.fields
    sends := t.sends
    lockReplies := t.lockReplies
    reports := t.reports
    shared := t.shared
    hbms := t.hbms
    survey := t.survey
    cntUnmapped := t.cntUnmapped
    partUnmapped := t.partUnmapped
    cntDenied := t.cntDenied
    cntSize := t.cntSize
    out := t.out
    wake := { s.wake with waitSurvey := t.wake.waitSurvey, kept := t.wake.kept, lost := t.wake.lost }
    lastSeq := t.lastSeq
    logBuf := t.logBuf
    totals := t.totals
    totalsCold := t.totalsCold
    coals := t.coals
    sessions := t.sessions }
  field : ∀ n, t.field n = { s.field n with
    msh := { (s.field n).msh with dropRst := (t.field n).msh.dropRst, dropLog := (t.field n).msh.dropLog } }
  stack : ∀ i, (t.stack i).st = (s.stack i).st
  finds : Finds s t
  core : ∀ c, CoreStays (s.core c) (t.core c)

theorem Lands.refl (s : State) : Lands s s := ⟨rfl, fun _ => rfl, fun _ => rfl, .refl s, fun _ => .refl _⟩

theorem Lands.trans {s t u : State} (h : Lands s t) (k : Lands t u) : Lands s u := by
  refine ⟨?_, fun n => ?_, fun i => (k.stack i).trans (h.stack i), h.finds.trans k.finds, fun c => (h.core c).trans (k.core c)⟩
  · rw [k.rest, h.rest]
  · rw [k.field n, h.field n]

theorem Works.lands {s t : State} (h : Works s t) : Lands s t := by
  refine ⟨?_, h.2, fun i => ?_, finds_of_survey h.survey, h.core⟩
  · rw [h.1]
  · rw [State.stack, h.hbms, State.stack]

theorem Logged.lands {s t : State} (h : Logged s t) : Lands s t := h.works.lands

theorem lands_surveyAppend (s : State) (ty source : Nat) (prov : Bool) (loc : Bytes) : Lands s (surveyAppend s ty source prov loc) := by
  have h := found_surveyAppend (s := s) (ty := ty) (loc := loc) source prov
  refine ⟨?_, fun n => ?_, fun i => ?_, finds_surveyAppend source prov, fun c => ?_⟩
  · rw [h]
  · rw [h]
    rfl
  · rw [h]
    rfl
  · rw [State.core, State.core, h.cores]
    exact .refl _

section

variable {s t : State} (h : Lands s t)

include h

theorem Lands.dev : t.dev = s.dev := by rw [h.rest]
theorem Lands.groups : t.groups = s.groups := by rw [h.rest]
theorem Lands.parts : t.parts = s.parts := by rw [h.rest]
theorem Lands.pwr : t.pwr = s.pwr := by rw [h.rest]
theorem Lands.seams : t.seams = s.seams := by rw [h.rest]
theorem Lands.echoM : t.echoM = s.echoM := by rw [h.rest]
theorem Lands.fw : t.fw = s.fw := by rw [h.rest]
theorem Lands.cfg : t.cfg = s.cfg := by rw [h.rest]
theorem Lands.clk : t.clk = s.clk := by rw [h.rest]
theorem Lands.mgmt : t.wake.mgmt = s.wake.mgmt := by rw [h.rest]
theorem Lands.start : t.wake.start = s.wake.start := by rw [h.rest]
theorem Lands.launches : t.launches = s.launches := by rw [h.rest]
theorem Lands.hosts : t.hosts = s.hosts := by rw [h.rest]
theorem Lands.locks : t.locks = s.locks := by rw [h.rest]
theorem Lands.links : t.links = s.links := by rw [h.rest]
theorem Lands.now : t.now = s.now := by rw [h.rest]
theorem Lands.grp (g : Nat) : t.grp g = s.grp g := by rw [State.grp, h.groups, State.grp]
theorem Lands.row3 (n : Nat) : (t.field n).msh.atRow3 = (s.field n).msh.atRow3 := by rw [h.field]

end

theorem Lands.foldl {α : Type} {step : State → α → State} (h : ∀ s a, Lands s (step s a)) (s : State) (l : List α) : Lands s (l.foldl step s) :=
  List.foldlRecOn (motive := fun t => Lands s t) l step (.refl s) fun t ht a _ => ht.trans (h t a)

/-- Only what lands, and neither the fields, the stacks nor the Survey. -/
theorem Lands.of_rest {s t : State} (h : t = { s with
    fresh := t.fresh
    mem := t.mem
    marks := t.marks
    rowErrs := t.rowErrs
    cores := t.cores
    sends := t.sends
    lockReplies := t.lockReplies
    reports := t.reports
    shared := t.shared
    cntUnmapped := t.cntUnmapped
    partUnmapped := t.partUnmapped
    cntDenied := t.cntDenied
    cntSize := t.cntSize
    out := t.out }) (hc : ∀ c, CoreStays (s.core c) (t.core c) := by exact fun _ => .refl _) : Lands s t := by
  refine ⟨?_, fun n => ?_, fun i => ?_, finds_of_survey (by rw [h]), hc⟩
  · rw [h]
  · rw [h]
    rfl
  · rw [h]
    rfl

/-- A stack's counts differ, and not its state. -/
theorem Lands.modStack {s t : State} (h : Lands s t) (i : Nat) {f : Stack → Stack} (hf : ∀ k, (f k).st = k.st) : Lands s (modStack t i f) := by
  refine h.trans ⟨rfl, fun _ => rfl, fun j => ?_, fun _ h => h, fun _ => .refl _⟩
  by_cases hj : j = i
  · rw [hj, stack_modStack, hf]
  · rw [stack_modStack_ne _ _ hj]

theorem lands_draw (s : State) : Lands s (drawBool s).2 := .of_rest rfl

theorem lands_modCore (s : State) (c : Nat) (f : Core → Core) (hf : ∀ k, CoreStays k (f k) := by exact fun _ => ⟨id, id⟩) :
    Lands s (modCore s c f) := .of_rest rfl (coreStays_modCore hf)

theorem lands_modQ (s : State) (c q : Nat) (f : Queue → Queue) : Lands s (modQ s c q f) := (works_modQ s c q f).lands

theorem lands_countShared (s : State) (b code cls n plane : Nat) : Lands s (countShared s b code cls n plane) := .of_rest rfl

theorem lands_countStatus (s : State) (part : Option Nat) (r : RSt) : Lands s (countStatus s part r) := by
  cases r <;> exact .of_rest rfl

theorem lands_clearMem (s : State) (mine : Nat → Bool) : Lands s (clearMem s mine) := .of_rest rfl

theorem lands_applyBanks (s : State) (c : Nat) : Lands s (applyBanks s c) := by
  rw [applyBanks]
  dsimp only
  refine Lands.trans ?_ (lands_modCore _ c _)
  exact .of_rest rfl

theorem lands_raiseErr {code : Nat} (h : classOf code ≠ 2) (s : State) (ukind unit : Nat) (part : Option Nat) (echo : W64) (detail : List Nat) :
    Lands s (raiseErr s code ukind unit part echo detail) := (logged_raiseErr h s ukind unit part echo detail).lands

theorem lands_raiseEvent (s : State) (code ukind unit : Nat) (part : Option Nat) (detail : List Nat) :
    Lands s (raiseEvent s code ukind unit part detail) := (logged_raiseRec s _ _ _ _ _ _ _).lands

/-! ### What waits in queues (R278) -/

theorem lands_rekeyWaiter (s : State) (c q : Nat) (a b : Sender) : Lands s (rekeyWaiter s c q a b) := lands_modQ s c q _

theorem lands_unwait (s : State) (c q : Nat) (w : Sender) : Lands s (unwait s c q w) := by
  rw [unwait]
  split
  · exact (lands_modQ s c q _).trans (works_freeEntry _ c q _ _).lands
  · exact lands_modQ s c q _

theorem lands_answerWaiters (s : State) (c : Nat) : Lands s (answerWaiters s c) := by
  refine Lands.foldl (fun s p => Lands.foldl (fun s w => ?_) _ _) _ _
  split
  · exact .of_rest rfl
  · exact .of_rest rfl

theorem lands_orphanSend (s : State) (x : InFlight) : Lands s (orphanSend s x) := by
  rw [orphanSend]
  dsimp only
  generalize hstep : (fun (acc : State × List Member) (k : Nat) => _) = step
  have hs : ∀ acc k, Lands acc.1 (step acc k).1 := by
    rw [← hstep]
    intro acc k
    dsimp only
    split
    · exact .refl _
    · split
      · exact .refl _
      · exact lands_rekeyWaiter _ _ _ _ _
      · exact .refl _
      · exact lands_unwait _ _ _ _
      · exact .refl _
  have hfold : Lands s ((List.range x.send.members.length).foldl step (dropSend (drawBool s).2 x.path, [])).1 :=
    List.foldlRecOn (motive := fun p : State × List Member => Lands s p.1) _ _ (.of_rest rfl) fun p hp k _ => hp.trans (hs p k)
  split
  · exact hfold
  · exact hfold.trans (.of_rest rfl)

theorem lands_evpostAt (s : State) (t sdev spart score : Nat) (mask : W32) : Lands s (evpostAt s t sdev spart score mask).1 := by
  rw [evpostAt]
  split
  · exact .refl s
  split
  · exact (works_dropAtCore s t _ _).lands
  dsimp only
  split
  · exact (works_setFlags s t _).lands
  · exact ((works_modQue s t _).trans (works_count _ t _ _ _)).lands

/-! ### Accesses that land (R183, R185, R249) -/

theorem lands_spAtomic (s : State) (c off : Nat) (op : LockOp) (w64 : Bool) (opnd cmpv : W64) :
    Lands s (spAtomic s c off op w64 opnd cmpv).1 := by
  rw [spAtomic]
  dsimp only
  generalize (if w64 = true then 8 else 4) = n
  have hr := (works_spRead s c off n 5).lands
  generalize spRead s c off n 5 = r at hr ⊢
  split
  · exact hr
  · exact hr.trans ((works_count _ c _ _ _).lands.trans (works_spWrite _ c off _ 5).lands)

theorem lands_spPerform (s : State) (c off size : Nat) (op : MemOp) (port : Nat) : Lands s (spPerform s c off size op port).1 := by
  cases op with
  | read => exact (works_spRead s c off size port).lands
  | write data poison => exact (works_spWriteP s c off data poison port).lands
  | atomic op w64 opnd cmpv => exact lands_spAtomic s c off op w64 opnd cmpv

theorem lands_localAccess (s : State) (c : Nat) (req : Requester) (off size : Nat) (op : MemOp) (port : Nat) :
    Lands s (localAccess s c req off size op port).1 := by
  rw [localAccess]
  split
  · dsimp only
    exact lands_countStatus s _ _
  split
  · dsimp only
    exact lands_countStatus s _ _
  split
  · dsimp only
    exact (works_dropAtCore s c _ _).lands
  · exact lands_spPerform s c off size op port

theorem lands_remoteAccess (s : State) (c : Nat) (r : WinReq) (score : Nat) : Lands s (remoteAccess s c r score).1 := by
  rw [remoteAccess]
  split
  · dsimp only
    exact lands_countStatus s _ _
  split
  · dsimp only
    exact (works_dropAtCore s c _ _).lands
  split
  · dsimp only
    refine Lands.trans ?_ (lands_spPerform _ c r.off r.size r.op 5)
    split
    · exact (works_count s c _ _ _).lands.trans (works_count _ c _ _ _).lands
    · exact (works_count s c _ _ _).lands.trans (works_count _ c _ _ _).lands
    · exact (works_count s c _ _ _).lands
  · dsimp only
    exact Lands.trans ((works_count s c _ _ _).lands.trans (lands_modCore _ c _)) (logged_raiseRec _ _ _ _ _ _ _ _).lands

theorem lands_selfRemote (s : State) (req : Requester) (a n : Nat) (tag : W32) (op : MemOp) : Lands s (selfRemote s req a n tag op).1 := by
  rw [selfRemote]
  dsimp only
  split
  · exact lands_remoteAccess s _ _ _
  · dsimp only
    exact lands_countStatus s _ _

theorem lands_atomicPerform (s : State) (c : Nat) (op : LockOp) (d : LockDesc) : Lands s (atomicPerform s c op d).1 := by
  rw [atomicPerform]
  dsimp only
  split
  · exact lands_selfRemote s _ _ _ _ _
  split
  · exact lands_localAccess s _ _ _ _ _ _
  split
  · dsimp only
    exact lands_countStatus s _ _
  · dsimp only
    exact lands_countStatus s _ _

/-! ### The stacks (R334 to R338) -/

theorem lands_pageCandidate (s : State) (st page source : Nat) (prov : Bool) : Lands s (pageCandidate s st page source prov) := by
  rw [pageCandidate]
  dsimp only
  split
  · exact .refl s
  · refine Lands.trans ?_ (lands_raiseEvent _ _ _ _ _ _)
    generalize hv : modStack (surveyAppend s _ _ _ _) _ _ = v
    have h : Lands s v := by
      rw [← hv]
      exact Lands.modStack (lands_surveyAppend s _ _ _ _) st fun _ => rfl
    split
    · exact h.trans (works_notifyPart v _ _).lands
    · exact h

theorem lands_touchHbm (s : State) (st p src : Nat) : Lands s (touchHbm s st p src).1 := by
  rw [touchHbm]
  dsimp only
  split
  · exact .refl s
  · exact .refl s
  · generalize hu : raiseErr _ _ _ _ _ _ _ = u
    have h : Lands s u := by
      rw [← hu]
      refine Lands.trans ?_ (lands_raiseErr (by decide) _ _ _ _ _ _)
      refine Lands.modStack ?_ st fun _ => rfl
      exact .of_rest rfl
    split
    · exact h.trans (lands_pageCandidate u _ _ _ _)
    · exact h
  · generalize hu : raiseErr _ _ _ _ _ _ _ = u
    have h : Lands s u := by
      rw [← hu]
      refine Lands.trans ?_ (lands_raiseErr (by decide) _ _ _ _ _ _)
      refine Lands.modStack (.refl s) st fun k => ?_
      split <;> rfl
    split
    · exact h.trans (lands_pageCandidate u _ _ _ _)
    · exact h

theorem lands_hbmRead (s : State) (a n : Nat) : Lands s (hbmRead s a n).1 :=
  List.foldlRecOn (motive := fun p : State × List Nat => Lands s p.1) _ _ (.refl s) fun p hp _ _ => hp.trans (lands_touchHbm p.1 _ _ _)

theorem lands_hbmPuts (s : State) (a : Nat) (bs : Bytes) : Lands s (hbmPuts s a bs) := by
  induction bs generalizing s a with
  | nil => exact .refl s
  | cons b bs ih => exact Lands.trans (.of_rest rfl) (ih _ _)

theorem lands_hbmWrite (s : State) (a : Nat) (bs : Bytes) (poison : List Nat) : Lands s (hbmWrite s a bs poison).1 := by
  refine List.foldlRecOn (motive := fun p : State × Bool => Lands s p.1) _ _ (.refl s) fun p hp w _ => hp.trans ?_
  have h : ∀ b : Bool, Lands p.1 (if b = true then (p.1, false) else touchHbm p.1 (hbmLoc p.1 w).1 (hbmLoc p.1 w).2 1).1 := fun b => by
    split
    · exact .refl _
    · exact lands_touchHbm p.1 _ _ 1
  dsimp only
  replace h := h (decide (max a w = w) && decide (min (a + bs.length) (w + 64) = w + 64))
  generalize (decide (max a w = w) && decide (min (a + bs.length) (w + 64) = w + 64)) = b at h ⊢
  generalize (if b = true then (p.1, false) else touchHbm p.1 (hbmLoc p.1 w).1 (hbmLoc p.1 w).2 1) = r at h ⊢
  split
  · exact h
  · exact h.trans ((lands_hbmPuts r.1 _ _).trans (.of_rest rfl))

theorem lands_hbmTake (s : State) (a n : Nat) : Lands s (hbmTake s a n) :=
  List.foldlRecOn (motive := fun t => Lands s t) _ _ (.refl s) fun _ ht p _ => ht.modStack p.1 fun _ => rfl

theorem lands_hbmRefused (s : State) (req : Requester) (a n : Nat) (r : RSt) : Lands s (hbmRefused s req a n r) := by
  have hs := lands_countStatus s (reqClass s req) r
  unfold hbmRefused
  extract_lets part u
  change Lands s u at hs
  clear_value u
  split
  · split
    · next b _ =>
      refine Lands.trans (t := modStack u (hbmLoc u b).1 _) (hs.modStack _ fun _ => ?_) (lands_countShared _ _ _ _ _ _)
      rfl
    · exact hs
  · split
    · exact hs.trans (works_dropAtDie u _ _ _ _).lands
    · exact hs
  · exact hs

theorem lands_blocks (l : List Nat) (code cls : Nat) (f : State → Nat → Nat) (u : State) :
    Lands u (l.foldl (fun s st => countShared s (stackBlk st) code cls (f s st) 3) u) :=
  Lands.foldl (fun s _ => lands_countShared s _ _ _ _ _) u l

/-- The corrected errors of the stacks that an access has met. -/
def countCorrected (ce0 : List (Nat × Nat)) (cls : Nat) (s : State) : State :=
  ce0.foldl (fun s x => countShared s (stackBlk x.1) 6 cls ((s.stack x.1).ce - x.2) 3) s

theorem lands_countCorrected (ce0 : List (Nat × Nat)) (cls : Nat) (s : State) : Lands s (countCorrected ce0 cls s) :=
  Lands.foldl (fun s _ => lands_countShared s _ _ _ _ _) s ce0

theorem lands_hbmAccess (s : State) (req : Requester) (part : Option Nat) (a n : Nat) (w : Option (Bytes × List Nat)) :
    Lands s (hbmAccess s req part a n w).1 := by
  unfold hbmAccess
  split
  · extract_lets cls sts u ce0 corrected
    have hu : Lands s u := lands_hbmTake s a n
    have hc : ∀ v, Lands v (corrected v) := lands_countCorrected ce0 cls
    clear_value corrected u
    split
    · have hr := lands_hbmRead u a n
      generalize hbmRead u a n = r at hr ⊢
      obtain ⟨v, bs, bad⟩ := r
      dsimp only
      have h2 := lands_blocks sts 0 cls (fun s st => ((hbmPieces s a n).filter (fun p => p.1 == st && p.2 == 256)).length) v
      exact hu.trans (hr.trans (h2.trans (hc _)))
    · next bs poison =>
      have hw := lands_hbmWrite u a bs poison
      generalize hbmWrite u a bs poison = r at hw ⊢
      obtain ⟨v, ok⟩ := r
      dsimp only
      refine hu.trans (hw.trans (Lands.trans ?_ (hc _)))
      have h2 := lands_blocks sts 1 cls (fun s st => ((hbmPieces s a n).filter (fun p => p.1 == st && p.2 == 256)).length) v
      change Lands v _
      generalize sts.foldl (fun s' st => countShared s' (stackBlk st) 1 cls
        ((hbmPieces s' a n).filter (fun p => p.1 == st && p.2 == 256)).length 3) v = w at h2 ⊢
      split
      · exact h2
      · exact h2.trans (lands_countShared w _ _ _ _ _)
  · dsimp only
    exact lands_hbmRefused s req a n _

/-! ### Bursts and single accesses (R183, R278) -/

theorem lands_memWrite (s : State) (req : Requester) (a : Nat) (bs : Bytes) (poison : List Nat) (port : Nat) :
    Lands s (memWrite s req a bs poison port).1 := by
  unfold memWrite
  split
  · exact lands_localAccess s _ _ _ _ _ _
  split
  · exact lands_hbmAccess s _ _ _ _ _
  split
  · dsimp only
    exact lands_countStatus s _ _
  · dsimp only
    exact lands_countStatus s _ _

theorem lands_memRead (s : State) (req : Requester) (a n port : Nat) : Lands s (memRead s req a n port).1 := by
  unfold memRead
  split
  · exact lands_localAccess s _ _ _ _ _ _
  split
  · exact lands_hbmAccess s _ _ _ _ _
  split
  · dsimp only
    exact lands_countStatus s _ _
  · dsimp only
    exact lands_countStatus s _ _

theorem lands_writeBurst (s : State) (c : Nat) (d : DmaDesc) (b : Burst) (bs : Bytes) (status : Nat) :
    Lands s (writeBurst s c d b bs status).1 := by
  unfold writeBurst
  by_cases hr : isRemote b.dst = true
  · rw [if_pos hr]
    by_cases hd : remoteDev b.dst = s.devId
    · rw [if_pos hd]
      exact lands_selfRemote s _ _ _ _ _
    · rw [if_neg hd]
      exact .refl s
  · rw [if_neg hr]
    exact lands_memWrite s _ _ _ _ _

theorem lands_landBurst (s : State) (c : Nat) (d : DmaDesc) (b : Burst) : Lands s (landBurst s c d b) := by
  have hd := lands_draw s
  unfold landBurst
  generalize drawBool s = r at hd ⊢
  obtain ⟨full, u⟩ := r
  dsimp only
  split
  · exact hd
  split
  · exact hd.trans (lands_writeBurst u c d b _ 0)
  split
  · exact hd
  · have hr := lands_memRead u (.core c) b.src.toNat b.len 5
    generalize memRead u (.core c) b.src.toNat b.len 5 = r at hr ⊢
    obtain ⟨v, a⟩ := r
    dsimp only
    split
    · exact hd.trans (hr.trans (lands_writeBurst v c d _ _ 0))
    · exact hd.trans (hr.trans (lands_writeBurst v c d _ _ 0))
    · exact hd.trans hr

theorem lands_landBursts (s : State) (c : Nat) : Lands s (landBursts s c) := by
  refine Lands.foldl (fun s e => ?_) _ _
  split
  · exact Lands.foldl (fun s b => lands_landBurst s c _ b) _ _
  · exact .refl s

theorem lands_lateAccess (s : State) (c : Nat) : Lands s (lateAccess s c).1 := by
  unfold lateAccess
  split
  · exact lands_draw s
  · exact .refl s

/-! ### Locks and what the queue unit has sent (R248, R278) -/

/-- Of `s`, `t` changes the locks too. -/
def Resets (s t : State) : Prop := Lands { s with locks := t.locks } t

theorem Lands.withLocks {s t : State} (h : Lands s t) (m : Map Lock) : Lands { s with locks := m } { t with locks := m } := by
  refine ⟨?_, h.field, h.stack, h.finds, h.core⟩
  rw [h.rest]

theorem Lands.resets {s t : State} (h : Lands s t) : Resets s t := h.withLocks t.locks

theorem Resets.refl (s : State) : Resets s s := Lands.refl s

theorem Resets.trans {s t u : State} (h : Resets s t) (k : Resets t u) : Resets s u := (Lands.withLocks h u.locks).trans k

theorem Resets.foldl {α : Type} {step : State → α → State} (h : ∀ s a, Resets s (step s a)) (s : State) (l : List α) : Resets s (l.foldl step s) :=
  List.foldlRecOn (motive := fun t => Resets s t) l step (.refl s) fun t ht a _ => ht.trans (h t a)

theorem LockWorks.resets {s t : State} (h : LockWorks s t) : Resets s t := Works.lands h

section

variable {s t : State} (h : Resets s t)

include h

theorem Resets.lands : Lands { s with locks := t.locks } t := h
theorem Resets.stays (c : Nat) : CoreStays (s.core c) (t.core c) := h.lands.core c
theorem Resets.grp (g : Nat) : t.grp g = s.grp g := h.lands.grp g
theorem Resets.hosts : t.hosts = s.hosts := h.lands.hosts
theorem Resets.launches : t.launches = s.launches := h.lands.launches
theorem Resets.parts : t.parts = s.parts := h.lands.parts

end

theorem resets_setLock (s : State) (i : Nat) (l : Lock) : Resets s (setLock s i l) := (lockWorks_setLock s i l).resets

theorem resets_lockReply (s : State) (who : LockWho) (status : Nat) (v : W64) : Resets s (lockReply s who status v) :=
  (works_lockReply s who status v).lands.resets

theorem finishFlight_stays (k : Core) (f : Flight) (err : Bool) : CoreStays k (finishFlight k f err) := by
  obtain ⟨blk, pc, tagErr, he⟩ := finishFlight_eq k f err
  rw [he]
  exact ⟨id, fun h => by rw [h]; rfl⟩

theorem resets_lockOp (s : State) (i : Nat) (r : LockReq) : Resets s (lockOp s i r) := by
  unfold lockOp
  dsimp only
  split
  · split
    · split
      · exact (resets_setLock s i _).trans (lockWorks_lockPass _ i 8 .abandoned).resets
      · exact resets_setLock s i _
    · exact resets_setLock s i _
  · split
    · exact resets_lockReply s _ _ _
    split
    · split
      · exact (lockWorks_lockPass s i 0 .free).resets.trans (resets_lockReply _ _ _ _)
      · exact resets_lockReply s _ _ _
    · exact resets_lockReply s _ _ _
  · split
    · exact resets_lockReply s _ _ _
    split
    · exact (resets_setLock s i _).trans (resets_lockReply _ _ _ _)
    · exact (resets_setLock s i _).trans (resets_lockReply _ _ _ _)
    · split
      · exact resets_lockReply s _ _ _
      have hacq : ∀ b : Bool, Resets s (if b = true then (match engFlights (s.core r.core) 7 with
          | f :: _ => discardFlight s r.core f
          | [] => s) else setLock s i { s.lock i with waiters := (s.lock i).waiters ++ [⟨r.dev, r.core, r.part⟩] }) := fun b => by
        split
        · split
          · exact (lands_modCore s _ _ fun k => finishFlight_stays k _ true).resets
          · exact .refl s
        · exact resets_setLock s i _
      cases r.kind
      case acq => exact hacq _
      all_goals exact resets_lockReply s _ _ _

theorem resets_landFlights (s : State) (c : Nat) : Resets s (landFlights s c) := by
  refine Resets.foldl (fun s f => ?_) _ _
  have hd := (lands_draw s).resets
  generalize drawBool s = r at hd ⊢
  obtain ⟨full, u⟩ := r
  dsimp only
  split
  · exact .refl s
  split
  · split
    · exact hd.trans (lands_evpostAt u _ _ _ _ _).resets
    · exact hd
  · split
    · exact .refl s
    split
    · exact hd
    split
    · split
      · exact hd
      · exact hd.trans (lands_atomicPerform u c _ _).resets
    split
    · exact hd
    split
    · exact hd.trans (resets_lockOp u _ _)
    · exact hd
  · exact .refl s

/-! ### Resets (R449, R450) -/

/-- A core as its reset has landed what was under way, before its commands. -/
def resetLanded (s : State) (c : Nat) : State :=
  let s := modCore s c (fun k => { k with crst := true })
  let s := landBursts (answerWaiters (reportReset s c) c) c
  (s.sends.filter (fun x => pathOf c x.path)).foldl orphanSend s

theorem lands_resetLanded (s : State) (c : Nat) : Lands s (resetLanded s c) := by
  unfold resetLanded
  extract_lets u v
  have hu : Lands s u := lands_modCore s c _ fun _ => ⟨fun _ => rfl, id⟩
  clear_value u
  have hv : Lands s v := hu.trans (Lands.trans (t := reportReset u c) (.of_rest rfl) ((lands_answerWaiters _ c).trans (lands_landBursts _ c)))
  clear_value v
  exact hv.trans (Lands.foldl lands_orphanSend _ _)

/-- What the reset of a core ends with, once its locks are abandoned. -/
def resetLeaves (s : State) (c : Nat) (clear : Bool) (late : Option GAccess) : State :=
  let s := { s with lockReplies := s.lockReplies.filter (fun r => r.core != c) }
  let s := modCore s c (fun k =>
    { Core.reset with
      crst := true, late := late, ctl := { Ctl.reset with cyc0 := (s.field (fieldOf c)).cclk }, repairs := k.repairs, spares := k.spares })
  if clear then applyBanks (clearSp s c) c else s

theorem lands_resetLeaves (s : State) (c : Nat) (clear : Bool) (late : Option GAccess) : Lands s (resetLeaves s c clear late) := by
  unfold resetLeaves
  extract_lets u core ctl v
  have hu : Lands s u := .of_rest rfl
  have hv : Lands s v := hu.trans (lands_modCore u c _ fun _ => ⟨fun _ => rfl, fun _ => rfl⟩)
  clear_value v
  split
  · exact hv.trans ((lands_clearMem _ _).trans (lands_applyBanks _ c))
  · exact hv

theorem resetCore_eq (s : State) (c : Nat) (clear : Bool) : resetCore s c clear =
    resetLeaves (locksLost (lateAccess (landFlights (resetLanded s c) c) c).1 fun w =>
      w.dev == (lateAccess (landFlights (resetLanded s c) c) c).1.devId && w.core == c) c clear
      (lateAccess (landFlights (resetLanded s c) c) c).2 := by
  unfold resetCore
  extract_lets s1 s2 s3 s4
  have h3 : resetLanded s c = s3 := rfl
  rw [h3]
  have h4 : landFlights s3 c = s4 := rfl
  rw [h4]
  generalize lateAccess s4 c = r
  obtain ⟨u, late⟩ := r
  rfl

theorem resets_resetCore (s : State) (c : Nat) (clear : Bool) : Resets s (resetCore s c clear) := by
  rw [resetCore_eq]
  refine Resets.trans ?_ (lands_resetLeaves _ c clear _).resets
  refine Resets.trans ?_ (lockWorks_locksLost _ _).resets
  exact ((lands_resetLanded s c).resets.trans (resets_landFlights _ c)).trans (lands_lateAccess _ c).resets

theorem landFlights_of_noFlights {s : State} {c : Nat} (h : (s.core c).flights = []) : landFlights s c = s := by
  rw [landFlights, h]
  rfl

/-- A core with no command under way takes no lock as it is reset. -/
theorem lands_resetCore {s : State} {c : Nat} (hlocks : s.locks = []) (hflights : (s.core c).flights = []) (clear : Bool) :
    Lands s (resetCore s c clear) := by
  have h1 := lands_resetLanded s c
  rw [resetCore_eq, landFlights_of_noFlights ((h1.core c).flights hflights)]
  have h2 := h1.trans (lands_lateAccess _ c)
  rw [locksLost_of_noLocks (h2.locks.trans hlocks)]
  exact h2.trans (lands_resetLeaves _ c clear _)

end Sys2Proof.Machine
end

section
/-!
SUPPORT. What the loss of a group leaves alone (R449, R460).
-/

namespace Sys2Proof.Machine

/-! ### Groups -/

/-- A group keeps its tiles, stays lost and off, and comes under no check. -/
def GrpKeeps (a b : Group) : Prop :=
  b.rdead = a.rdead ∧ b.tdead = a.tdead ∧ b.skip = a.skip ∧ (a.lost = true → b.lost = true) ∧ (a.off = true → b.off = true) ∧
  (a.check = false → b.check = false)

theorem GrpKeeps.refl (a : Group) : GrpKeeps a a := ⟨rfl, rfl, rfl, id, id, id⟩

theorem GrpKeeps.trans {a b c : Group} (h : GrpKeeps a b) (k : GrpKeeps b c) : GrpKeeps a c := by
  obtain ⟨h1, h2, h3, h4, h5, h6⟩ := h
  obtain ⟨k1, k2, k3, k4, k5, k6⟩ := k
  exact ⟨k1.trans h1, k2.trans h2, k3.trans h3, k4 ∘ h4, k5 ∘ h5, k6 ∘ h6⟩

/-- Of `s`, `t` changes what the loss and the reset of groups change, at most. -/
structure Loses (s t : State) : Prop where
  rest : t = { s with
    fresh := t.fresh
    mem := t.mem
    marks := t.marks
    rowErrs := t.rowErrs
    cores := t.cores
    fields := t.fields
    groups := t.groups
    sends := t.sends
    locks := t.locks
    lockReplies := t.lockReplies
    reports := t.reports
    dev := t.dev
    stage := t.stage
    shared := t.shared
    hbms := t.hbms
    survey := t.survey
    cntUnmapped := t.cntUnmapped
    partUnmapped := t.partUnmapped
    cntDenied := t.cntDenied
    cntSize := t.cntSize
    hosts := t.hosts
    cfg := t.cfg
    out := t.out
    wake := { s.wake with waitSurvey := t.wake.waitSurvey, kept := t.wake.kept, lost := t.wake.lost }
    lastSeq := t.lastSeq
    logBuf := t.logBuf
    totals := t.totals
    totalsCold := t.totalsCold
    coals := t.coals
    sessions := t.sessions }
  field : ∀ n, t.field n = { s.field n with
    msh := { (s.field n).msh with dropRst := (t.field n).msh.dropRst, dropLog := (t.field n).msh.dropLog } }
  stack : ∀ i, (t.stack i).st = (s.stack i).st
  grp : ∀ g, GrpKeeps (s.grp g) (t.grp g)
  serves : t.dev = s.dev ∨ (s.dev = .ready ∨ s.dev = .degraded) ∧ (t.dev = .ready ∨ t.dev = .degraded)
  finds : Finds s t

theorem Loses.refl (s : State) : Loses s s := ⟨rfl, fun _ => rfl, fun _ => rfl, fun _ => .refl _, .inl rfl, .refl s⟩

theorem Loses.trans {s t u : State} (h : Loses s t) (k : Loses t u) : Loses s u := by
  refine ⟨?_, fun n => ?_, fun i => (k.stack i).trans (h.stack i), fun g => (h.grp g).trans (k.grp g), ?_, h.finds.trans k.finds⟩
  · rw [k.rest, h.rest]
  · rw [k.field n, h.field n]
  · rcases k.serves with hk | ⟨hk1, hk2⟩
    · rw [hk]
      exact h.serves
    · rcases h.serves with hh | ⟨hh1, -⟩
      · rw [hh] at hk1
        exact .inr ⟨hk1, hk2⟩
      · exact .inr ⟨hh1, hk2⟩

theorem Lands.loses {s t : State} (h : Lands s t) : Loses s t := by
  refine ⟨?_, h.field, h.stack, fun g => ?_, .inl h.dev, h.finds⟩
  · rw [h.rest]
  · rw [h.grp]
    exact .refl _

theorem Resets.loses {s t : State} (h : Resets s t) : Loses s t := by
  refine ⟨?_, h.lands.field, h.lands.stack, fun g => ?_, .inl h.lands.dev, h.lands.finds⟩
  · rw [h.lands.rest]
  · rw [h.grp]
    exact .refl _

theorem Loses.foldl {α : Type} {step : State → α → State} (h : ∀ s a, Loses s (step s a)) (s : State) (l : List α) : Loses s (l.foldl step s) :=
  List.foldlRecOn (motive := fun t => Loses s t) l step (.refl s) fun t ht a _ => ht.trans (h t a)

section

variable {s t : State} (h : Loses s t)

include h

theorem Loses.pwr : t.pwr = s.pwr := by rw [h.rest]
theorem Loses.parts : t.parts = s.parts := by rw [h.rest]
theorem Loses.echoM : t.echoM = s.echoM := by rw [h.rest]
theorem Loses.mgmt : t.wake.mgmt = s.wake.mgmt := by rw [h.rest]
theorem Loses.start : t.wake.start = s.wake.start := by rw [h.rest]
theorem Loses.compute : t.wake.compute = s.wake.compute := by rw [h.rest]
theorem Loses.fw : t.fw = s.fw := by rw [h.rest]
theorem Loses.row3 (n : Nat) : (t.field n).msh.atRow3 = (s.field n).msh.atRow3 := by rw [h.field]
theorem Loses.domOf (d : Nat) : domOf t d = domOf s d := by rw [Machine.domOf, h.pwr, Machine.domOf]
theorem Loses.vcore (n : Nat) : (t.field n).vcore = (s.field n).vcore := by rw [h.field]

end

theorem loses_modGrp (s : State) (g : Nat) {f : Group → Group} (hf : GrpKeeps (s.grp g) (f (s.grp g))) : Loses s (modGrp s g f) := by
  refine ⟨rfl, fun _ => rfl, fun _ => rfl, fun x => ?_, .inl rfl, fun _ h => h⟩
  by_cases hx : x = g
  · rw [hx, grp_modGrp]
    exact hf
  · rw [grp_modGrp_ne _ _ hx]
    exact .refl _

theorem Tells.loses {s t : State} (h : Tells s t) : Loses s t := by
  refine ⟨?_, fun n => ?_, fun i => ?_, fun g => ?_, .inl (by rw [h]), finds_of_survey (by rw [h])⟩
  · rw [h]
  · rw [h]
    rfl
  · rw [h]
    rfl
  · rw [h]
    exact .refl _

theorem loses_setDev (s : State) {d : DevState} (stage : Nat) (hs : s.dev = .ready ∨ s.dev = .degraded) (hd : d = .ready ∨ d = .degraded) :
    Loses s (setDev s d stage) :=
  Loses.trans (t := { s with dev := d, stage := stage })
    ⟨rfl, fun _ => rfl, fun _ => rfl, fun _ => .refl _, .inr ⟨hs, hd⟩, fun _ h => h⟩ (tells_setDev s d stage).loses

theorem loses_reevaluate (s : State) : Loses s (reevaluate s) := by
  have hd : (if degradedBy s = 0 then DevState.ready else .degraded) = .ready ∨ (if degradedBy s = 0 then DevState.ready else .degraded) = .degraded := by
    split
    · exact .inl rfl
    · exact .inr rfl
  rw [reevaluate]
  split
  · next h => exact loses_setDev s 0 (.inl h) hd
  · next h => exact loses_setDev s 0 (.inr h) hd
  · exact .refl s

theorem loses_resetGroup (s : State) (g : Nat) (clear : Bool) : Loses s (resetGroup s g clear) :=
  (loses_modGrp s g (f := fun k => { k with rst := true }) ⟨rfl, rfl, rfl, id, id, id⟩).trans
    (Resets.foldl (fun s c => resets_resetCore s c clear) _ _).loses

theorem loses_releaseCore (s : State) (c : Nat) : Loses s (releaseCore s c) :=
  ⟨rfl, fun _ => rfl, fun _ => rfl, fun _ => .refl _, .inl rfl, fun _ h => h⟩

theorem grp_releaseCores (s : State) (l : List Nat) (g : Nat) : (l.foldl releaseCore s).grp g = s.grp g :=
  List.foldlRecOn (motive := fun t : State => t.grp g = s.grp g) l releaseCore rfl fun _ ht _ _ => ht

theorem loses_releaseGroup (s : State) (g : Nat) : Loses s (releaseGroup s g) :=
  (loses_modGrp s g (f := fun k => { k with rst := false }) ⟨rfl, rfl, rfl, id, id, id⟩).trans (Loses.foldl loses_releaseCore _ _)

theorem lands_groupNotify (s : State) (p : Option Nat) (code g arg : Nat) : Lands s (groupNotify s p code g arg) := by
  unfold groupNotify
  refine Lands.trans ?_ (lands_raiseEvent _ _ _ _ _ _)
  split
  · exact (works_notifyPart s _ _).lands
  · exact .refl s

/-- The configuration alone differs. -/
theorem loses_cfg (s : State) (m : Map ObjVal) : Loses s { s with cfg := m } :=
  ⟨rfl, fun _ => rfl, fun _ => rfl, fun _ => .refl _, .inl rfl, fun _ h => h⟩

theorem loses_moveFaultCore (s : State) (p g : Nat) : Loses s (moveFaultCore s p g) := by
  rw [moveFaultCore]
  refine Loses.trans ?_ (Lands.foldl (fun s c => (works_modCtl s c _).lands) _ _).loses
  split
  · split
    · split
      · exact loses_cfg s _
      · exact .refl s
    · exact .refl s
  · exact .refl s

theorem loses_adoptGroup (s : State) (p : Nat) : Loses s (adoptGroup s p) := by
  rw [adoptGroup]
  split
  · split
    · exact .refl s
    · next x _ =>
      dsimp only
      refine Loses.trans ?_ (lands_groupNotify _ _ _ _ _).loses
      refine Loses.trans ?_ (loses_releaseGroup _ x)
      refine Loses.trans ?_ (loses_resetGroup _ x true)
      exact Loses.trans (loses_modGrp s x ⟨rfl, rfl, rfl, id, id, id⟩) (loses_cfg _ _)
  · exact .refl s

/-! ### A group is lost -/

/-- The group's record as it is lost. -/
def Group.gone (off : Bool) (k : Group) : Group :=
  { k with off := k.off || off, lost := true, remap := none, check := false, rst := false }

theorem Group.gone_keeps (off : Bool) (k : Group) : GrpKeeps k (k.gone off) :=
  ⟨rfl, rfl, rfl, fun _ => rfl, fun h => by rw [Group.gone, h, Bool.true_or], fun _ => rfl⟩

/-- What follows the loss of a group: its partition's fault core, its notices, and a group that takes its place. -/
def afterLoss (s : State) (owner : Option Nat) (g cause : Nat) : State :=
  reevaluate (match owner with
    | none => groupNotify s owner 0x11 g cause
    | some p => adoptGroup (groupNotify (moveFaultCore s p g) owner 0x11 g cause) p)

theorem loses_afterLoss (s : State) (owner : Option Nat) (g cause : Nat) : Loses s (afterLoss s owner g cause) := by
  refine Loses.trans ?_ (loses_reevaluate _)
  split
  · exact (lands_groupNotify s none 0x11 g cause).loses
  · exact (loses_moveFaultCore s _ g).trans ((lands_groupNotify _ _ _ _ _).loses.trans (loses_adoptGroup _ _))

theorem loseGroup_eq {s : State} {g : Nat} (cause : Nat) (off : Bool) (h : (s.grp g).lost = false) :
    loseGroup s g cause off = afterLoss (modGrp (resetGroup s g true) g (Group.gone off)) (s.grp g).part g cause := by
  rw [loseGroup, if_neg (by rw [h]; exact Bool.false_ne_true)]
  cases (s.grp g).part <;> rfl

theorem loses_loseGroup (s : State) (g cause : Nat) (off : Bool) : Loses s (loseGroup s g cause off) := by
  cases h : (s.grp g).lost with
  | true =>
    rw [loseGroup, if_pos h]
    exact .refl s
  | false =>
    rw [loseGroup_eq cause off h]
    exact (loses_resetGroup s g true).trans ((loses_modGrp _ g (Group.gone_keeps off _)).trans (loses_afterLoss _ _ g cause))

/-- A group that is lost is lost, and off where it is switched off. -/
theorem loseGroup_grp {s : State} {g : Nat} (cause : Nat) (off : Bool) (h : (s.grp g).lost = false) :
    ((loseGroup s g cause off).grp g).lost = true ∧ (off = true → ((loseGroup s g cause off).grp g).off = true) := by
  rw [loseGroup_eq cause off h]
  obtain ⟨-, -, -, hlost, hoff, -⟩ := (loses_afterLoss (modGrp (resetGroup s g true) g (Group.gone off)) (s.grp g).part g cause).grp g
  rw [grp_modGrp] at hlost hoff
  exact ⟨hlost rfl, fun ho => hoff (by rw [Group.gone, ho, Bool.or_true])⟩

end Sys2Proof.Machine
end

section
/-!
SUPPORT. What domains, ports and dies that leave service leave alone (R404, R410).
-/

namespace Sys2Proof.Machine

/-- Of `s`, `t` changes what changes as domains leave ON, at most: what the loss of groups changes, the domains, the links, and the
sessions of mailboxes. -/
structure Departs (s t : State) : Prop where
  rest : t = { s with
    fresh := t.fresh
    mem := t.mem
    marks := t.marks
    rowErrs := t.rowErrs
    cores := t.cores
    fields := t.fields
    groups := t.groups
    sends := t.sends
    locks := t.locks
    lockReplies := t.lockReplies
    reports := t.reports
    dev := t.dev
    stage := t.stage
    shared := t.shared
    hbms := t.hbms
    survey := t.survey
    cntUnmapped := t.cntUnmapped
    partUnmapped := t.partUnmapped
    cntDenied := t.cntDenied
    cntSize := t.cntSize
    hosts := t.hosts
    links := t.links
    mgmt := t.mgmt
    fw := t.fw
    pwr := { s.pwr with doms := t.pwr.doms, aux := t.pwr.aux }
    cfg := t.cfg
    out := t.out
    wake := { s.wake with waitSurvey := t.wake.waitSurvey, kept := t.wake.kept, lost := t.wake.lost, asyncs := t.wake.asyncs }
    lastSeq := t.lastSeq
    logBuf := t.logBuf
    totals := t.totals
    totalsCold := t.totalsCold
    coals := t.coals
    sessions := t.sessions }
  field : ∀ n, t.field n = { s.field n with
    msh := { (s.field n).msh with dropRst := (t.field n).msh.dropRst, dropLog := (t.field n).msh.dropLog } }
  grp : ∀ g, GrpKeeps (s.grp g) (t.grp g)
  serves : t.dev = s.dev ∨ (s.dev = .ready ∨ s.dev = .degraded) ∧ (t.dev = .ready ∨ t.dev = .degraded)
  finds : Finds s t

theorem Departs.refl (s : State) : Departs s s := ⟨rfl, fun _ => rfl, fun _ => .refl _, .inl rfl, .refl s⟩

theorem Departs.trans {s t u : State} (h : Departs s t) (k : Departs t u) : Departs s u := by
  refine ⟨?_, fun n => ?_, fun g => (h.grp g).trans (k.grp g), ?_, h.finds.trans k.finds⟩
  · rw [k.rest, h.rest]
  · rw [k.field n, h.field n]
  · rcases k.serves with hk | ⟨hk1, hk2⟩
    · rw [hk]
      exact h.serves
    · rcases h.serves with hh | ⟨hh1, -⟩
      · rw [hh] at hk1
        exact .inr ⟨hk1, hk2⟩
      · exact .inr ⟨hh1, hk2⟩

theorem Loses.departs {s t : State} (h : Loses s t) : Departs s t := by
  refine ⟨?_, h.field, h.grp, h.serves, h.finds⟩
  rw [h.rest]

theorem Lands.departs {s t : State} (h : Lands s t) : Departs s t := h.loses.departs

theorem Departs.foldl {α : Type} {step : State → α → State} (h : ∀ s a, Departs s (step s a)) (s : State) (l : List α) : Departs s (l.foldl step s) :=
  List.foldlRecOn (motive := fun t => Departs s t) l step (.refl s) fun t ht a _ => ht.trans (h t a)

section

variable {s t : State} (h : Departs s t)

include h

theorem Departs.parts : t.parts = s.parts := by rw [h.rest]
theorem Departs.echoM : t.echoM = s.echoM := by rw [h.rest]
theorem Departs.mgmt : t.wake.mgmt = s.wake.mgmt := by rw [h.rest]
theorem Departs.start : t.wake.start = s.wake.start := by rw [h.rest]
theorem Departs.compute : t.wake.compute = s.wake.compute := by rw [h.rest]
theorem Departs.row3 (n : Nat) : (t.field n).msh.atRow3 = (s.field n).msh.atRow3 := by rw [h.field]
theorem Departs.vcore (n : Nat) : (t.field n).vcore = (s.field n).vcore := by rw [h.field]

end


/-- Only what shows no group, field, state or defect differs. -/
theorem Departs.of_rest {s t : State} (h : t = { s with
    mem := t.mem
    marks := t.marks
    cores := t.cores
    shared := t.shared
    hbms := t.hbms
    hosts := t.hosts
    links := t.links
    mgmt := t.mgmt
    fw := t.fw
    pwr := { s.pwr with doms := t.pwr.doms, aux := t.pwr.aux }
    out := t.out
    wake := { s.wake with asyncs := t.wake.asyncs }
    sessions := t.sessions }) : Departs s t := by
  refine ⟨?_, fun n => ?_, fun g => ?_, .inl (by rw [h]), finds_of_survey (by rw [h])⟩
  · rw [h]
  · rw [h]
    rfl
  · rw [h]
    exact .refl _

/-! ### Ports (R319) -/

theorem AtPort.departs {p : Nat} {s t : State} (h : AtPort p s t) : Departs s t := by
  refine .of_rest ?_
  rw [h.1]

theorem AtConn.departs {s t : State} (h : AtConn s t) : Departs s t := by
  refine .of_rest ?_
  rw [h]

theorem departs_refusePkt (s : State) (k : LinkPkt) (st : Nat) : Departs s (refusePkt s k st) := by
  rw [refusePkt_eq]
  exact .of_rest rfl

theorem departs_emit (s : State) (o : Output) : Departs s (emit s o) := .of_rest rfl

theorem departs_modPort (s : State) (p : Nat) (f : Port → Port) : Departs s (modPort s p f) := .of_rest rfl

theorem departs_setPortSt (s : State) (p : Nat) (x : PortState) : Departs s (setPortSt s p x) := by
  rw [setPortSt]
  split
  · exact .refl s
  · dsimp only
    exact (departs_modPort s p _).trans ((lands_raiseEvent _ _ _ _ _ _).departs.trans (loses_reevaluate _).departs)

theorem departs_enqueuePkt (s : State) (p v : Nat) (x : TxPkt) : Departs s (enqueuePkt s p v x) := by
  rw [enqueuePkt]
  refine Departs.trans ?_ (sends_txPump 300 _ p).1.departs
  refine Departs.trans ?_ (departs_modPort _ p _)
  split
  · exact (atPort_countShared s p _ _ _ _ _).departs
  · exact .refl s

theorem departs_ethSend (s : State) (b p : Nat) (k : LinkPkt) : Departs s (ethSend s b p k) := by
  rw [ethSend]
  split
  · exact departs_refusePkt s k 7
  · exact .of_rest rfl

theorem departs_sprayed (s : State) (b : Nat) (k : LinkPkt) : Departs s (sprayed s b k) := by
  rw [sprayed]
  split
  · exact .refl s
  · exact .of_rest rfl

theorem departs_useBundle (s : State) (l b : Nat) (planeB : Bool) (x : TxPkt) : Departs s (useBundle s l b planeB x) := by
  rw [useBundle]
  split
  · exact departs_refusePkt s _ 7
  · next p _ =>
    have hemit : Departs s (if x.inp < 5 ∧ p / 5 ≠ l then emit (sprayed s b x.pkt) (.transit l x.inp p x.pkt) else sprayed s b x.pkt) := by
      split
      · exact (departs_sprayed s b x.pkt).trans (departs_emit _ _)
      · exact departs_sprayed s b x.pkt
    dsimp only
    generalize (if x.inp < 5 ∧ p / 5 ≠ l then emit (sprayed s b x.pkt) (.transit l x.inp p x.pkt) else sprayed s b x.pkt) = u at hemit ⊢
    split
    · split
      · exact hemit
      · exact hemit.trans (departs_ethSend u b p x.pkt)
    · exact hemit.trans (departs_enqueuePkt u p _ x)

theorem departs_portLeave (s : State) (p : Nat) (x : PortState) : Departs s (portLeave s p x) := by
  rw [portLeave]
  dsimp only
  split
  · exact .refl s
  · refine Departs.trans ?_ (Departs.foldl (fun s q => ?_) _ _)
    · refine Departs.trans ?_ (departs_setPortSt _ p x)
      exact (Departs.foldl (fun s q => departs_refusePkt s q 7) _ _).trans (departs_modPort _ p _)
    · split
      · exact departs_useBundle s _ _ _ _
      · exact departs_refusePkt s _ 7

/-! ### Domains (R404, R410) -/

theorem departs_setDom (s : State) (d : Nat) (x : DomSt) : Departs s (setDom s d x) := .of_rest rfl

theorem departs_modStack (s : State) (i : Nat) (f : Stack → Stack) : Departs s (modStack s i f) := .of_rest rfl

theorem departs_cgOff (s : State) (g : Nat) : Departs s (cgOff s g) := by
  rw [cgOff]
  refine Departs.trans ?_ (loses_reevaluate _).departs
  refine Departs.trans ?_ (loses_modGrp _ g (f := fun k => { k with off := true }) ⟨rfl, rfl, rfl, id, fun _ => rfl, id⟩).departs
  exact (departs_setDom s g .off).trans (Lands.foldl (fun s c => lands_clearMem s _) _ _).departs

theorem departs_ldOff (s : State) (l : Nat) (x : DomSt) : Departs s (ldOff s l x) :=
  (departs_setDom s _ x).trans (Departs.foldl (fun s _ => departs_portLeave s _ _) _ _)

theorem departs_stackGone (s : State) (st : Nat) : Departs s (stackGone s st) := by
  rw [stackGone]
  dsimp only
  refine Departs.trans (t := List.foldl _ (modStack s st _) _) ?_ (.of_rest rfl)
  refine (departs_modStack s st _).trans (Departs.foldl (fun s w => ?_) _ _)
  split
  · split
    · exact .refl s
    · exact departs_emit s _
  · exact departs_emit s _

theorem departs_mdOff (s : State) (st : Nat) (x : DomSt) : Departs s (mdOff s st x) := by
  rw [mdOff]
  refine Departs.trans ?_ (loses_reevaluate _).departs
  refine Departs.trans ?_ (departs_modStack _ st _)
  exact (departs_setDom s _ x).trans ((departs_stackGone _ st).trans (.of_rest rfl))

theorem departs_closeSession (s : State) (sid : Nat) (why : CloseCause) : Departs s (closeSession s sid why) := by
  rw [closeSession]
  split
  · exact .refl s
  · next e _ =>
    dsimp only
    refine Departs.trans ?_ (lands_raiseEvent _ _ _ _ _ _).departs
    refine Departs.trans (t := if e.staging.isSome then dropImage { s with sessions := mdel s.sessions sid } e else { s with sessions := mdel s.sessions sid }) ?_
      (.of_rest rfl)
    split
    · refine Departs.trans (t := { s with sessions := mdel s.sessions sid }) (.of_rest rfl) ?_
      rw [dropImage]
      split
      · exact .refl _
      · split
        · exact .of_rest rfl
        · exact .refl _
    · exact .of_rest rfl

theorem departs_closeSessions (s : State) (p : Session → Bool) (why : CloseCause) : Departs s (closeSessions s p why) :=
  Departs.foldl (fun s (x : Nat × Session) => departs_closeSession s x.1 why) _ _

theorem departs_closeMailbox (s : State) (h f : Nat) : Departs s (closeMailbox s h f) :=
  (departs_closeSessions s _ _).trans (.of_rest rfl)

theorem departs_hdOff (s : State) (h : Nat) (x : DomSt) : Departs s (hdOff s h x) := by
  rw [hdOff]
  dsimp only
  refine Departs.trans ?_ (loses_reevaluate _).departs
  refine Departs.trans ?_ (Departs.foldl (fun s f => departs_closeMailbox s h f) _ _)
  exact (departs_setDom s _ x).trans (.of_rest rfl)

theorem departs_dieLeave (s : State) (d : Nat) (x : DomSt) : Departs s (dieLeave s d x) := by
  rw [dieLeave]
  split
  · exact departs_ldOff s _ x
  split
  · exact departs_mdOff s _ x
  · exact departs_hdOff s _ x

theorem departs_fieldOut (s : State) (n : Nat) (x : DomSt) : Departs s (fieldOut s n x) := by
  rw [fieldOut]
  dsimp only
  refine Departs.trans ?_ (Departs.foldl (fun s die => ?_) _ _)
  · refine (departs_setDom s _ x).trans (Departs.foldl (fun s row => ?_) _ _)
    refine Departs.trans ?_ (loses_loseGroup _ _ 2 true).departs
    split
    · exact .refl s
    · exact departs_setDom s _ _
  · split
    · exact departs_dieLeave s _ _
    · exact .refl s

theorem departs_domLeave (s : State) (d : Nat) (x : DomSt) : Departs s (domLeave s d x) := by
  rw [domLeave]
  split
  · exact departs_cgOff s d
  split
  · exact (departs_fieldOut s _ x).trans (loses_reevaluate _).departs
  split
  · exact departs_dieLeave s d x
  split
  · exact (departs_setDom s d x).trans (Departs.foldl (fun s c => .of_rest rfl) _ _)
  · exact .refl s

theorem departs_raiseErr {code : Nat} (h : classOf code ≠ 2) (s : State) (ukind unit : Nat) (part : Option Nat) (echo : W64) (detail : List Nat) :
    Departs s (raiseErr s code ukind unit part echo detail) := (lands_raiseErr h s ukind unit part echo detail).departs

theorem departs_confirmedOff (s : State) (g : Nat) : Departs s (confirmedOff s g) :=
  (departs_setDom s g .off).trans ((departs_raiseErr (by decide) _ 7 g _ _ _).trans (loses_loseGroup _ g 2 true).departs)

end Sys2Proof.Machine
end

section
/-!
SUPPORT. How a compute reset begins (R448 step 1).
-/

namespace Sys2Proof.Machine

/-! ### Launches that end (R448, R363) -/

/-- Of `s`, `t` changes the launches, their messages and what the hosts are told, at most. -/
def LaunchOnly (s t : State) : Prop :=
  t = { s with hosts := t.hosts, launches := t.launches, sends := t.sends, reports := t.reports, out := t.out }

theorem LaunchOnly.refl (s : State) : LaunchOnly s s := rfl

theorem LaunchOnly.trans {s t u : State} (h : LaunchOnly s t) (k : LaunchOnly t u) : LaunchOnly s u := by
  rw [LaunchOnly] at h k ⊢
  rw [k, h]

theorem LaunchOnly.foldl {α : Type} {step : State → α → State} (h : ∀ s a, LaunchOnly s (step s a)) (s : State) (l : List α) :
    LaunchOnly s (l.foldl step s) :=
  List.foldlRecOn (motive := fun t => LaunchOnly s t) l step (.refl s) fun t ht a _ => ht.trans (h t a)

theorem launchOnly_modRing (s : State) (h f r : Nat) (g : Ring → Ring) : LaunchOnly s (modRing s h f r g) := rfl

theorem launchOnly_sendVector (s : State) (h f v : Nat) : LaunchOnly s (sendVector s h f v) := by
  rw [sendVector]
  split <;> rfl

theorem launchOnly_coalesce (s : State) (h f r : Nat) : LaunchOnly s (coalesce s h f r) := by
  rw [coalesce]
  split
  · exact (launchOnly_modRing s h f r _).trans (launchOnly_sendVector _ h f r)
  · exact .refl s

theorem launchOnly_post (s : State) (h f r seq lid status ndone fcore fcode : Nat) :
    LaunchOnly s (post s h f r seq lid status ndone fcore fcode) := by
  rw [post]
  dsimp only
  split
  · rfl
  · exact LaunchOnly.trans (t := modRing (emit s _) h f r _) rfl (launchOnly_coalesce _ h f r)

theorem launchOnly_sendMember (s : State) (p : SendPath) (f : Send) (m : Member) : LaunchOnly s (sendMember s p f m) := by
  rw [sendMember]
  split
  · dsimp only
    split <;> rfl
  · dsimp only
    split <;> rfl
  · rfl

theorem launchOnly_startSend (s : State) (h f : Nat) (x : Send) : LaunchOnly s (startSend s (.fn h f) x) := by
  rw [startSend]
  exact (LaunchOnly.foldl (fun s m => launchOnly_sendMember s (.fn h f) x m) s x.members).trans rfl

theorem launchOnly_launchPump (s : State) (h f : Nat) : LaunchOnly s (launchPump s h f) := by
  rw [launchPump]
  split
  · exact .refl s
  split
  · exact .refl s
  · exact LaunchOnly.trans (t := setLaunch s _) rfl (launchOnly_startSend _ h f _)

theorem launchOnly_settle (fuel : Nat) (s : State) (h f r : Nat) : LaunchOnly s (settle fuel s h f r) := by
  induction fuel generalizing s with
  | zero => exact .refl s
  | succ fuel ih =>
    rw [settle]
    split
    · next l _ =>
      have hp := launchOnly_post s h f r l.seq l.lid 0 0 0x7FF 0
      dsimp only
      generalize post s h f r l.seq l.lid 0 0 0x7FF 0 = u at hp ⊢
      exact hp.trans (LaunchOnly.trans (t := { u with launches := u.launches.filter (fun x => x.order != l.order) }) rfl (ih _))
    · exact .refl s

theorem launchOnly_afterPost (s : State) (h f r : Nat) : LaunchOnly s (afterPost s h f r) :=
  (launchOnly_settle 256 s h f r).trans (launchOnly_launchPump _ h f)

theorem launchOnly_endLaunch (s : State) (l : Launch) : LaunchOnly s (endLaunch s l) := by
  rw [endLaunch]
  refine LaunchOnly.trans ?_ (launchOnly_afterPost _ l.h l.f l.r)
  split
  · split <;> rfl
  · refine LaunchOnly.trans ?_ (launchOnly_post _ _ _ _ _ _ _ _ _ _)
    split <;> rfl

theorem launchOnly_endLaunches (s : State) (p : Nat → Bool) : LaunchOnly s (endLaunches s p) := by
  rw [endLaunches]
  refine LaunchOnly.trans ?_ (LaunchOnly.foldl launchOnly_endLaunch _ _)
  rfl

/-! ### Actions that end (R448, R482) -/

/-- Of `s`, `t` changes what the answers to actions change, at most. -/
def ActsEnd (s t : State) : Prop :=
  t = { s with fresh := t.fresh, sessions := t.sessions, out := t.out, wake := { s.wake with asyncs := t.wake.asyncs } }

theorem ActsEnd.refl (s : State) : ActsEnd s s := rfl

theorem ActsEnd.trans {s t u : State} (h : ActsEnd s t) (k : ActsEnd t u) : ActsEnd s u := by
  rw [ActsEnd] at h k ⊢
  rw [k, h]

theorem ActsEnd.foldl {α : Type} {step : State → α → State} (h : ∀ s a, ActsEnd s (step s a)) (s : State) (l : List α) :
    ActsEnd s (l.foldl step s) :=
  List.foldlRecOn (motive := fun t => ActsEnd s t) l step (.refl s) fun t ht a _ => ht.trans (h t a)

theorem actsEnd_sendEvent (s : State) (tr : Transport) (m : SasilMsg) : ActsEnd s (sendEvent s tr m) := by
  cases tr <;> rfl

theorem actsEnd_endAsync (s : State) (kind status : Nat) : ActsEnd s (endAsync s kind status) := by
  refine ActsEnd.trans (t := modWake s (fun w => { w with asyncs := w.asyncs.filter (fun a => a.kind != kind) })) rfl
    (ActsEnd.foldl (fun s a => ?_) _ _)
  split
  · rfl
  · refine ActsEnd.trans ?_ (actsEnd_sendEvent _ _ _)
    rfl

theorem actsEnd_endFailed (s : State) (kind : Nat) : ActsEnd s (endFailed s kind) :=
  ActsEnd.trans (t := (drawNat s).2) rfl (actsEnd_endAsync _ kind _)

theorem actsEnd_leaveWaking (s : State) (ok : Bool) : ActsEnd s (leaveWaking s ok) := by
  refine ActsEnd.foldl (fun s k => ?_) s _
  split
  · exact actsEnd_endAsync s k 0
  · exact actsEnd_endFailed s k

/-! ### A compute reset begins -/

/-- Of `s`, `t` changes what the beginning of a reset changes, at most: not what groups are made of, and nothing of the fields, the
Survey or memory. -/
structure ResetBegins (s t : State) : Prop where
  rest : t = { s with
    fresh := t.fresh
    cores := t.cores
    groups := t.groups
    sends := t.sends
    reports := t.reports
    dev := t.dev
    stage := t.stage
    launches := t.launches
    hosts := t.hosts
    out := t.out
    wake := { s.wake with
      compute := t.wake.compute
      drained := t.wake.drained
      kept := t.wake.kept
      lost := t.wake.lost
      check := t.wake.check
      asyncs := t.wake.asyncs }
    lastSeq := t.lastSeq
    logBuf := t.logBuf
    totals := t.totals
    totalsCold := t.totalsCold
    coals := t.coals
    sessions := t.sessions }
  grp : ∀ g, t.grp g = { s.grp g with check := (t.grp g).check }

theorem ResetBegins.refl (s : State) : ResetBegins s s := ⟨rfl, fun _ => rfl⟩

theorem ResetBegins.trans {s t u : State} (h : ResetBegins s t) (k : ResetBegins t u) : ResetBegins s u := by
  refine ⟨?_, fun g => ?_⟩
  · rw [k.rest, h.rest]
  · rw [k.grp, h.grp]

section

variable {s t : State} (h : ResetBegins s t)

include h

theorem ResetBegins.fields : t.fields = s.fields := by rw [h.rest]
theorem ResetBegins.survey : t.survey = s.survey := by rw [h.rest]
theorem ResetBegins.mem : t.mem = s.mem := by rw [h.rest]
theorem ResetBegins.mgmt : t.wake.mgmt = s.wake.mgmt := by rw [h.rest]
theorem ResetBegins.start : t.wake.start = s.wake.start := by rw [h.rest]
theorem ResetBegins.pwr : t.pwr = s.pwr := by rw [h.rest]
theorem ResetBegins.finds : Finds s t := finds_of_survey h.survey

end

theorem LaunchOnly.resetBegins {s t : State} (h : LaunchOnly s t) : ResetBegins s t := by
  refine ⟨?_, fun g => ?_⟩
  · rw [h]
  · rw [h]
    rfl

theorem ActsEnd.resetBegins {s t : State} (h : ActsEnd s t) : ResetBegins s t := by
  refine ⟨?_, fun g => ?_⟩
  · rw [h]
  · rw [h]
    rfl

theorem Tells.resetBegins {s t : State} (h : Tells s t) : ResetBegins s t := by
  refine ⟨?_, fun g => ?_⟩
  · rw [h]
  · rw [h]
    rfl

theorem resetBegins_uncheck (s : State) (g : Nat) : ResetBegins s (modGrp s g (fun k => { k with check := false })) := by
  refine ⟨rfl, fun x => ?_⟩
  by_cases hx : x = g
  · rw [hx, grp_modGrp]
  · rw [grp_modGrp_ne _ _ hx]

/-- A field check whose groups and units are aborted. -/
def abortedCheck (w : Wake) : Wake :=
  { w with
    check := { w.check with
      st := 3
      gres := w.check.groups.foldl (fun m g => mset m g (List.replicate 13 6)) w.check.gres
      ures := w.check.units.foldl (fun m u => mset m u 6) w.check.ures
      groups := []
      units := [] } }

theorem unchecked (s : State) : ∃ m, (List.range 96).foldl (fun s g => if (s.grp g).check then modGrp s g (fun k => { k with check := false }) else s) s =
    { s with groups := m } ∧ ResetBegins s { s with groups := m } := by
  refine List.foldlRecOn (motive := fun t => ∃ m, t = { s with groups := m } ∧ ResetBegins s { s with groups := m }) _ _
    ⟨s.groups, rfl, .refl s⟩ fun t ht g _ => ?_
  obtain ⟨m, rfl, hm⟩ := ht
  split
  · exact ⟨_, rfl, hm.trans (resetBegins_uncheck _ g)⟩
  · exact ⟨m, rfl, hm⟩

/-- R482: what the end of a field check leaves. -/
theorem resetBegins_abortCheck (s : State) : ResetBegins s (abortCheck s) ∧ (abortCheck s).dev = s.dev ∧
    (abortCheck s).wake.compute = s.wake.compute ∧ (abortCheck s).wake.drained = s.wake.drained ∧
    (abortCheck s).cores = s.cores := by
  by_cases hc : s.wake.check.st = 1
  · obtain ⟨m, hm, hb⟩ := unchecked s
    have h : abortCheck s = modWake (endFailed { s with groups := m } 4) abortedCheck := by
      rw [abortCheck, if_pos hc, hm]
      rfl
    rw [h]
    have ha := actsEnd_endFailed { s with groups := m } 4
    generalize endFailed { s with groups := m } 4 = u at ha ⊢
    refine ⟨hb.trans (ha.resetBegins.trans ⟨rfl, fun _ => rfl⟩), ?_, ?_, ?_, ?_⟩
    · change u.dev = _
      rw [ha]
    · change u.wake.compute = _
      rw [ha]
    · change u.wake.drained = _
      rw [ha]
    · change u.cores = _
      rw [ha]
  · rw [abortCheck, if_neg hc]
    exact ⟨.refl s, rfl, rfl, rfl, rfl⟩

/-- The device whose compute reset has begun. -/
def inReset (w : Wake) : Wake :=
  { w with
    compute := true
    drained := false }

/-- R450: every core under reset. -/
def allCrst (m : Map Core) : Map Core := (List.range 1152).foldl (fun m c => mset m c { mget Core.reset m c with crst := true }) m

theorem crst_allCrst (m : Map Core) {c : Nat} (h : c < 1152) : (mget Core.reset (allCrst m) c).crst = true :=
  (foldl_at (step := fun (m : Map Core) c => mset m c { mget Core.reset m c with crst := true })
    (get := fun m c => (mget Core.reset m c).crst) (g := fun _ _ => true) (fun u n => by rw [mget_mset])
    (fun u n m hm => by rw [mget_mset_ne _ _ _ hm]) List.nodup_range m (List.mem_range.2 h))

/-- R448 step 1: the device in WAKING, its launches and field check ended, and every core under reset. -/
def beganReset (s : State) : State :=
  let u := abortCheck (endLaunches (modWake (setDev s .waking 10) inReset) (fun _ => true))
  { u with cores := allCrst u.cores }

theorem beginComputeReset_serving {s : State} (h : s.dev = .ready ∨ s.dev = .degraded ∨ s.dev = .low ∨ s.dev = .faulted) :
    beginComputeReset s = beganReset s := by
  have hi : inReset = fun w => { w with compute := true, drained := false } := rfl
  rw [beginComputeReset, beganReset, hi]
  dsimp only [allCrst]
  split
  · rfl
  · rfl
  · rfl
  · rfl
  · next h1 h2 h3 h4 => exact (h.elim h1 fun h => h.elim h2 fun h => h.elim h3 h4).elim

theorem beganReset_effect (s : State) : ResetBegins s (beganReset s) ∧ (beganReset s).dev = .waking ∧
    (beganReset s).wake.compute = true ∧ (beganReset s).wake.drained = false ∧ ∀ c < 1152, ((beganReset s).core c).crst = true := by
  have h1 := tells_setDev s .waking 10
  rw [beganReset]
  generalize setDev s .waking 10 = u1 at h1 ⊢
  have h2 := launchOnly_endLaunches (modWake u1 inReset) (fun _ => true)
  generalize endLaunches (modWake u1 inReset) (fun _ => true) = u2 at h2 ⊢
  obtain ⟨h3, hdev, hcompute, hdrained, -⟩ := resetBegins_abortCheck u2
  generalize abortCheck u2 = u3 at h3 hdev hcompute hdrained ⊢
  have hd1 : u1.dev = .waking := h1.dev
  have hcrst := fun c hc => crst_allCrst u3.cores (c := c) hc
  dsimp only
  generalize allCrst u3.cores = m at hcrst ⊢
  refine ⟨?_, ?_, ?_, ?_, hcrst⟩
  · have h01 : ResetBegins s u1 := ResetBegins.trans (t := { s with dev := .waking, stage := 10 }) ⟨rfl, fun _ => rfl⟩ h1.resetBegins
    have h12 : ResetBegins u1 u2 := ResetBegins.trans (t := modWake u1 inReset) ⟨rfl, fun _ => rfl⟩ h2.resetBegins
    exact (h01.trans h12).trans (h3.trans ⟨rfl, fun _ => rfl⟩)
  · rw [hdev, h2]
    exact hd1
  · rw [hcompute, h2]
    rfl
  · rw [hdrained, h2]
    rfl

theorem beginComputeReset_begins (s : State) : ResetBegins s (beginComputeReset s) := by
  by_cases h : s.dev = .ready ∨ s.dev = .degraded ∨ s.dev = .low ∨ s.dev = .faulted
  · rw [beginComputeReset_serving h]
    exact (beganReset_effect s).1
  · have hs : beginComputeReset s = s := by
      rw [beginComputeReset]
      split
      · next hd => exact absurd (.inl hd) h
      · next hd => exact absurd (.inr (.inl hd)) h
      · next hd => exact absurd (.inr (.inr (.inl hd))) h
      · next hd => exact absurd (.inr (.inr (.inr hd))) h
      · rfl
    rw [hs]
    exact .refl s

end Sys2Proof.Machine
end

section
/-!
SUPPORT. Seams, routers and field ports that fail (R29 to R32, R38, R266, R572).
-/

namespace Sys2Proof.Machine

/-! ### Wires (R30 to R32) -/

theorem seam_modSeam (s : State) (seam x : Nat) (f : Crossing → Crossing) : (modSeam s seam x f).seam seam x = f (s.seam seam x) := by
  rw [modSeam, State.seam, mget_mset]

theorem field_modSeam (s : State) (seam x n : Nat) (f : Crossing → Crossing) : (modSeam s seam x f).field n = s.field n := rfl

/-- A wire that has resent too often is due for steering, and its crossing for quiescing (R30, R31). -/
def wireDue (w : Nat × Nat) (mgmt : Bool) (k : Crossing) : Crossing :=
  { k with
    due := if k.due.contains w then k.due else k.due ++ [w]
    quiet := k.quiet || !mgmt }

theorem mem_wireDue (w : Nat × Nat) (mgmt : Bool) (k : Crossing) : w ∈ (wireDue w mgmt k).due := by
  rw [wireDue]
  dsimp only
  split
  · next h => exact List.contains_iff_mem.1 h
  · exact List.mem_append_right _ (List.mem_singleton_self w)

theorem resendBurst_effect (s : State) (seam x plane dir group wire k : Nat) :
    (k ≤ 16 → exec (.seamResendBurst seam x plane dir group wire k) s =
      .next (modMsh s (seamOwner seam x) (fun m => { m with seamRetry := satInc m.seamRetry k }))) ∧
    (16 < k → ∃ t, exec (.seamResendBurst seam x plane dir group wire k) s = .next t ∧
      (t.field (seamOwner seam x)).msh.seamRetry = satInc (s.field (seamOwner seam x)).msh.seamRetry k ∧
      (wireKey plane dir group, wire) ∈ (t.seam seam x).due ∧ (t.seam seam x).steer = (s.seam seam x).steer ∧
      (s.wake.mgmt = false → (t.seam seam x).quiet = true) ∧
      t.mem = s.mem ∧ t.cores = s.cores) := by
  have hexec : exec (.seamResendBurst seam x plane dir group wire k) s = execSeamResendBurst seam x plane dir group wire k s := rfl
  rw [hexec, execSeamResendBurst]
  refine ⟨fun h => congrArg Host.Outcome.next (if_pos h), fun h => ?_⟩
  dsimp only
  rw [if_neg (by omega)]
  have hlog := logged_raiseErr (code := 0x0007) (by decide) (countResends s seam x k) 4 (seamKey seam x) none
    ((countResends s seam x k).field (seamOwner seam x)).echo [plane, dir, group, wire]
  generalize raiseErr (countResends s seam x k) _ _ _ _ _ _ = u at hlog ⊢
  have hu : (modSeam u seam x (wireDue (wireKey plane dir group, wire) u.wake.mgmt)).seam seam x =
      wireDue (wireKey plane dir group, wire) u.wake.mgmt (s.seam seam x) := by
    rw [seam_modSeam, hlog]
    rfl
  refine ⟨modSeam u seam x (wireDue (wireKey plane dir group, wire) u.wake.mgmt), rfl, ?_, ?_, ?_, fun hm => ?_, ?_, ?_⟩
  · have hf : (modSeam u seam x (wireDue (wireKey plane dir group, wire) u.wake.mgmt)).field (seamOwner seam x) =
        (countResends s seam x k).field (seamOwner seam x) := by
      rw [hlog]
      rfl
    rw [hf, countResends, field_modMsh]
  · rw [hu]
    exact mem_wireDue _ _ _
  · rw [hu]
    rfl
  · have hmu : u.wake.mgmt = false := by
      rw [hlog]
      exact hm
    rw [hu, wireDue, hmu, Bool.not_false, Bool.or_true]
  · change u.mem = _
    rw [hlog]
    rfl
  · change u.cores = _
    rw [hlog]
    rfl

/-! ### Overlays (R265) -/

/-- The overlays of a field as they are installed. -/
def overlaid (m : Map (W32 × W32)) (gen : Nat) (k : Field) : Field := { k with msh := { k.msh with ovl := m, gen := gen } }

/-- R469: entries of overlays with a parity error are written anew. -/
def noBadOverlays (s : State) : State := { s with badEntries := s.badEntries.filter (fun x => x.kind != 1) }

theorem installOverlays_effect (s : State) : ∃ g, (∀ n < 12, ((installOverlays s).field n).msh.gen = g) ∧
    installOverlays s = { s with fields := (installOverlays s).fields, badEntries := (installOverlays s).badEntries } ∧
    ∀ n, ((installOverlays s).field n).msh = { (s.field n).msh with
      ovl := ((installOverlays s).field n).msh.ovl
      gen := ((installOverlays s).field n).msh.gen } := by
  obtain ⟨gen, hgen⟩ : ∃ gen, gen = (((List.range 12).map (fun n => (s.field n).msh.gen)).foldl max 0 + 1) % 2 ^ 32 := ⟨_, rfl⟩
  obtain ⟨honly, hat, hother⟩ := foldl_each (s := s) (step := fun t n => modMsh t n (fun m => { m with ovl := overlaysFor s n, gen := gen }))
    (g := fun n => overlaid (overlaysFor s n) gen) (fun u n _ => modField_each u n (overlaid (overlaysFor s n) gen)) (List.range 12) List.nodup_range
  have h : installOverlays s = noBadOverlays ((List.range 12).foldl (fun t n => modMsh t n (fun m => { m with ovl := overlaysFor s n, gen := gen })) s) := by
    rw [installOverlays, hgen]
    rfl
  rw [h]
  generalize (List.range 12).foldl (fun t n => modMsh t n (fun m => { m with ovl := overlaysFor s n, gen := gen })) s = u at honly hat hother ⊢
  refine ⟨gen, fun n hn => ?_, ?_, fun n => ?_⟩
  · change (u.field n).msh.gen = gen
    rw [hat n (List.mem_range.2 hn)]
    rfl
  · rw [noBadOverlays, ← honly]
  · change (u.field n).msh = _
    by_cases hn : n < 12
    · rw [noBadOverlays]
      change (u.field n).msh = { (s.field n).msh with ovl := (u.field n).msh.ovl, gen := (u.field n).msh.gen }
      rw [hat n (List.mem_range.2 hn)]
      rfl
    · have hf : u.field n = s.field n := hother n fun h => hn (List.mem_range.1 h)
      change (u.field n).msh = { (s.field n).msh with ovl := (u.field n).msh.ovl, gen := (u.field n).msh.gen }
      rw [hf]

theorem installOverlays_keeps (s : State) : (installOverlays s).mem = s.mem ∧ (installOverlays s).cores = s.cores ∧
    (installOverlays s).seams = s.seams ∧ (installOverlays s).survey = s.survey ∧ (installOverlays s).wake = s.wake ∧
    ∀ n, ((installOverlays s).field n).msh.atRow3 = (s.field n).msh.atRow3 := by
  obtain ⟨-, -, h, hmsh⟩ := installOverlays_effect s
  refine ⟨by rw [h], by rw [h], by rw [h], by rw [h], by rw [h], fun n => by rw [hmsh]⟩

/-! ### A crossing that is steered (R29, R30, R32) -/

/-- The dead planes of a crossing. -/
def deadPlanes (k : Crossing) : Nat := (if k.deadA then 1 else 0) + (if k.deadB then 1 else 0)

/-- The number of dead crossings that a map of crossings holds, by plane. -/
def deadTotal (m : Map Crossing) : Nat := (m.map (fun p => deadPlanes p.2)).sum

theorem length_deadCrossings (s : State) : (deadCrossings s).length = deadTotal s.seams := by
  have hone : ∀ p : Nat × Crossing, ((if p.2.deadA then [(p.1 / 64, p.1 % 64, 0)] else []) ++
      (if p.2.deadB then [(p.1 / 64, p.1 % 64, 1)] else [])).length = deadPlanes p.2 := fun p => by
    rw [List.length_append, deadPlanes]
    congr 1
    · split <;> rfl
    · split <;> rfl
  rw [deadCrossings, List.length_flatMap, deadTotal]
  simp only [hone]

/-- A crossing written anew counts its own dead planes at least in place of those it had. -/
theorem deadTotal_mset (m : Map Crossing) (k : Nat) (v : Crossing) :
    deadTotal m + deadPlanes v ≤ deadTotal (mset m k v) + deadPlanes (mget Crossing.reset m k) := by
  induction m with
  | nil => simp [deadTotal, mset]
  | cons p m ih =>
    obtain ⟨k', v'⟩ := p
    rw [mset]
    split
    · simp only [deadTotal, List.map_cons, List.sum_cons]
      omega
    split
    · next h =>
      simp only [deadTotal, List.map_cons, List.sum_cons, mget, if_pos h]
      omega
    · next h =>
      simp only [deadTotal, List.map_cons, List.sum_cons, mget, if_neg h] at ih ⊢
      omega

theorem deadCrossings_modSeam (s : State) (seam x : Nat) (f : Crossing → Crossing) :
    (deadCrossings s).length + deadPlanes (f (s.seam seam x)) ≤ (deadCrossings (modSeam s seam x f)).length + deadPlanes (s.seam seam x) := by
  rw [length_deadCrossings, length_deadCrossings]
  exact deadTotal_mset s.seams (seamKey seam x) (f (s.seam seam x))

/-- The wires that were due in a group are dealt with. -/
def dueDone (key : Nat) (k : Crossing) : Crossing := { k with due := k.due.filter (fun w => w.1 != key) }

/-- A crossing with the steering of one group set. -/
def steeredAs (key : Nat) (new : Steer) (k : Crossing) : Crossing := { k with steer := mset k.steer key new }

/-- A crossing that is dead on one plane. -/
def killedOn (plane : Nat) (k : Crossing) : Crossing := if plane = 0 then { k with deadA := true } else { k with deadB := true }

/-- A crossing whose links are restored. -/
def restored (k : Crossing) : Crossing := { k with quiet := false }

section

variable {s : State} {seam x plane dir group : Nat} {failed : List Nat} {badA badB : Bool}

/-- The failed positions of a group that has none due and no spare in use are those of its test. -/
theorem steerGroup_fresh (hdue : (s.seam seam x).due = [])
    (hold : mget Steer.reset (s.seam seam x).steer (wireKey plane dir group) = Steer.reset) (hlt : ∀ w ∈ failed, w < 32) (hn : failed.Nodup) :
    (∀ new, steerFor failed badA badB = some new → new ≠ Steer.reset → steerGroup seam x s ⟨plane, dir, group, failed, badA, badB⟩ =
      surveyAppend (modSeam (modSeam s seam x (dueDone (wireKey plane dir group))) seam x (steeredAs (wireKey plane dir group) new)) 4 2 false
        ([seam, x, plane, dir, group, new.sa, new.sb].map (BitVec.ofNat 8))) ∧
    (steerFor failed badA badB = none → steerGroup seam x s ⟨plane, dir, group, failed, badA, badB⟩ =
      surveyAppend (modSeam (modSeam s seam x (dueDone (wireKey plane dir group))) seam x (killedOn plane)) 5 2 false
        ([seam, x, plane].map (BitVec.ofNat 8))) := by
  have hfailed : ((steered Steer.reset ++ (([] : List (Nat × Nat)).filter (fun w => w.1 == wireKey plane dir group)).map (·.2) ++ failed).filter
      (fun w => decide (w < 32))).dedup = failed := by
    have hs : steered Steer.reset = [] := by decide
    rw [hs, List.filter_nil, List.map_nil, List.nil_append, List.nil_append, List.filter_eq_self.2 (fun w hw => decide_eq_true (hlt w hw)), hn.dedup]
  refine ⟨fun new hnew hne => ?_, fun hnone => ?_⟩
  · rw [steerGroup]
    dsimp only
    rw [hold, hdue, hfailed, hnew]
    exact if_neg hne
  · rw [steerGroup]
    dsimp only
    rw [hold, hdue, hfailed, hnone]
    rfl

/-- R265: the overlays, where a crossing was found dead. -/
def overlaysIf (dead : List (Nat × Nat × Nat)) (s : State) : State := if deadCrossings s = dead then s else installOverlays s

theorem exec_crossingQuiesced (t : WireTest) (hdue : (s.seam seam x).due = []) (hquiet : (s.seam seam x).quiet = true) :
    exec (.crossingQuiesced seam x [t]) s =
      .next (modSeam (overlaysIf (deadCrossings s) (steerGroup seam x s t)) seam x restored) := by
  have hexec : exec (.crossingQuiesced seam x [t]) s = execCrossingQuiesced seam x [t] s := rfl
  rw [hexec, execCrossingQuiesced, hdue, hquiet]
  rfl

theorem overlaysIf_keeps (dead : List (Nat × Nat × Nat)) (u : State) : (overlaysIf dead u).cores = u.cores ∧
    (overlaysIf dead u).seams = u.seams ∧ (overlaysIf dead u).survey = u.survey := by
  rw [overlaysIf]
  split
  · exact ⟨rfl, rfl, rfl⟩
  · obtain ⟨-, hcores, hseams, hsurvey, -⟩ := installOverlays_keeps u
    exact ⟨hcores, hseams, hsurvey⟩

end

/-- R29 to R32: a crossing with one failed group, steered or dead. -/
theorem crossing_effect {s : State} {seam x plane dir group v w : Nat} (hdue : (s.seam seam x).due = [])
    (hquiet : (s.seam seam x).quiet = true) (hold : mget Steer.reset (s.seam seam x).steer (wireKey plane dir group) = Steer.reset)
    (hv : v < 32) (hw : w < 32) (hne : v ≠ w) :
    (∃ t, exec (.crossingQuiesced seam x [⟨plane, dir, group, [w], false, false⟩]) s = .next t ∧
      mget Steer.reset (t.seam seam x).steer (wireKey plane dir group) = ⟨w, 0x3F⟩ ∧
      SurveyGets s t 4 ([seam, x, plane, dir, group, w, 0x3F].map (BitVec.ofNat 8)) ∧
      crossingDead (t.seam seam x) .a = crossingDead (s.seam seam x) .a ∧ (t.seam seam x).quiet = false ∧ t.cores = s.cores) ∧
    (∃ t, exec (.crossingQuiesced seam x [⟨plane, dir, group, [v, w], false, false⟩]) s = .next t ∧
      mget Steer.reset (t.seam seam x).steer (wireKey plane dir group) = ⟨v, w⟩ ∧
      SurveyGets s t 4 ([seam, x, plane, dir, group, v, w].map (BitVec.ofNat 8))) ∧
    (∃ t, exec (.crossingQuiesced seam x [⟨plane, dir, group, [v, w], true, false⟩]) s = .next t ∧
      crossingDead (t.seam seam x) (if plane = 0 then .a else .b) = true ∧ (t.seam seam x).quiet = false ∧
      (seam < 16 → x < 64 → crossingDead (s.seam seam x) (if plane = 0 then .a else .b) = false →
        ∃ g, ∀ n < 12, (t.field n).msh.gen = g) ∧
      SurveyGets s t 5 ([seam, x, plane].map (BitVec.ofNat 8))) := by
  have hone : ∀ a ∈ [w], a < 32 := fun a ha => by rwa [List.mem_singleton.1 ha]
  have htwo : ∀ a ∈ [v, w], a < 32 := fun a ha => by
    rcases List.mem_cons.1 ha with rfl | ha
    · exact hv
    · exact hone a ha
  have hnodup : [v, w].Nodup := List.nodup_cons.2 ⟨fun h => hne (List.mem_singleton.1 h), List.nodup_singleton w⟩
  -- what a group that is steered leaves
  have hsteer : ∀ (failed : List Nat) (new : Steer), (∀ a ∈ failed, a < 32) → failed.Nodup → steerFor failed false false = some new →
      new ≠ Steer.reset → ∃ t, exec (.crossingQuiesced seam x [⟨plane, dir, group, failed, false, false⟩]) s = .next t ∧
        t.seam seam x = restored (steeredAs (wireKey plane dir group) new (dueDone (wireKey plane dir group) (s.seam seam x))) ∧
        SurveyGets s t 4 ([seam, x, plane, dir, group, new.sa, new.sb].map (BitVec.ofNat 8)) ∧ t.cores = s.cores := by
    intro failed new hlt hn hfor hreset
    have hgroup := (steerGroup_fresh (badA := false) (badB := false) hdue hold hlt hn).1 new hfor hreset
    rw [exec_crossingQuiesced _ hdue hquiet, hgroup]
    generalize hu : modSeam (modSeam s seam x (dueDone (wireKey plane dir group))) seam x (steeredAs (wireKey plane dir group) new) = u
    have hus : u.seam seam x = steeredAs (wireKey plane dir group) new (dueDone (wireKey plane dir group) (s.seam seam x)) := by
      rw [← hu, seam_modSeam, seam_modSeam]
    have hkeep : u.survey = s.survey ∧ u.wake = s.wake ∧ u.cores = s.cores := by
      rw [← hu]
      exact ⟨rfl, rfl, rfl⟩
    obtain ⟨hsurvey, hwake, hcores⟩ := hkeep
    have hgets := surveyAppend_gets (s := u) (ty := 4) (loc := [seam, x, plane, dir, group, new.sa, new.sb].map (BitVec.ofNat 8)) 2 false
    have hfound := found_surveyAppend (s := u) (ty := 4) (loc := [seam, x, plane, dir, group, new.sa, new.sb].map (BitVec.ofNat 8)) 2 false
    generalize surveyAppend u 4 2 false _ = z at hgets hfound ⊢
    obtain ⟨hc2, hs2, hv2⟩ := overlaysIf_keeps (deadCrossings s) z
    generalize overlaysIf (deadCrossings s) z = y at hc2 hs2 hv2 ⊢
    refine ⟨_, rfl, ?_, hgets.within hsurvey (congrArg Wake.mgmt hwake) hv2, hc2.trans (hfound.cores.trans hcores)⟩
    rw [seam_modSeam, State.seam, hs2, hfound.seams, ← State.seam, hus]
  refine ⟨?_, ?_, ?_⟩
  · obtain ⟨t, ht, hseam, hgets, hcores⟩ := hsteer [w] ⟨w, 0x3F⟩ hone (List.nodup_singleton w) rfl (fun h => by
      have := congrArg Steer.sa h
      change w = 0x3F at this
      omega)
    refine ⟨t, ht, ?_, hgets, ?_, ?_, hcores⟩
    · rw [hseam]
      exact mget_mset _ _ _ _
    · rw [hseam]
      rfl
    · rw [hseam]
      rfl
  · obtain ⟨t, ht, hseam, hgets, -⟩ := hsteer [v, w] ⟨v, w⟩ htwo hnodup rfl (fun h => by
      have := congrArg Steer.sa h
      change v = 0x3F at this
      omega)
    refine ⟨t, ht, ?_, hgets⟩
    rw [hseam]
    exact mget_mset _ _ _ _
  · have hgroup := (steerGroup_fresh (badA := true) (badB := false) hdue hold htwo hnodup).2 rfl
    rw [exec_crossingQuiesced _ hdue hquiet, hgroup]
    generalize hu : modSeam (modSeam s seam x (dueDone (wireKey plane dir group))) seam x (killedOn plane) = u
    have hus : u.seam seam x = killedOn plane (dueDone (wireKey plane dir group) (s.seam seam x)) := by
      rw [← hu, seam_modSeam, seam_modSeam]
    have hkeep : u.survey = s.survey ∧ u.wake = s.wake := by
      rw [← hu]
      exact ⟨rfl, rfl⟩
    have hmore : crossingDead (s.seam seam x) (if plane = 0 then .a else .b) = false → (deadCrossings s).length < (deadCrossings u).length := by
      intro hlive
      have h1 := deadCrossings_modSeam s seam x (dueDone (wireKey plane dir group))
      have h2 := deadCrossings_modSeam (modSeam s seam x (dueDone (wireKey plane dir group))) seam x (killedOn plane)
      rw [hu, seam_modSeam] at h2
      have h3 : deadPlanes (dueDone (wireKey plane dir group) (s.seam seam x)) = deadPlanes (s.seam seam x) := rfl
      have h4 : deadPlanes (killedOn plane (dueDone (wireKey plane dir group) (s.seam seam x))) = deadPlanes (s.seam seam x) + 1 := by
        rw [killedOn]
        split
        · next h =>
          rw [if_pos h] at hlive
          have hd : (s.seam seam x).deadA = false := hlive
          simp [deadPlanes, dueDone, hd, Nat.add_comm]
        · next h =>
          rw [if_neg h] at hlive
          have hd : (s.seam seam x).deadB = false := hlive
          simp [deadPlanes, dueDone, hd]
      omega
    obtain ⟨hsurvey, hwake⟩ := hkeep
    have hgets := surveyAppend_gets (s := u) (ty := 5) (loc := [seam, x, plane].map (BitVec.ofNat 8)) 2 false
    have hfound := found_surveyAppend (s := u) (ty := 5) (loc := [seam, x, plane].map (BitVec.ofNat 8)) 2 false
    generalize surveyAppend u 5 2 false _ = z at hgets hfound ⊢
    obtain ⟨-, hs2, hv2⟩ := overlaysIf_keeps (deadCrossings s) z
    have hseam : (modSeam (overlaysIf (deadCrossings s) z) seam x restored).seam seam x =
        restored (killedOn plane (dueDone (wireKey plane dir group) (s.seam seam x))) := by
      rw [seam_modSeam, State.seam, hs2, hfound.seams, ← State.seam, hus]
    refine ⟨_, rfl, ?_, ?_, fun _ _ hlive => ?_, hgets.within hsurvey (congrArg Wake.mgmt hwake) hv2⟩
    · rw [hseam, killedOn]
      split <;> rfl
    · rw [hseam]
      rfl
    · have hne : deadCrossings z ≠ deadCrossings s := fun h => by
        have hz : (deadCrossings z).length = (deadCrossings u).length := by
          rw [length_deadCrossings, length_deadCrossings, hfound.seams]
        have hlt := hmore hlive
        rw [← hz, h] at hlt
        omega
      obtain ⟨g, hg, -⟩ := installOverlays_effect z
      refine ⟨g, fun n hn => ?_⟩
      rw [field_modSeam, overlaysIf, if_neg hne]
      exact hg n hn

end Sys2Proof.Machine
end

section
/-!
SUPPORT. Fatal errors, routers that fail and the drained mesh (R38, R266, R448, R471, R572).
-/

namespace Sys2Proof.Machine

/-! ### Fatal errors (R467, R471) -/

/-- The partitions with the device's halt cause set or clear. -/
def causeSet (b : Bool) (m : Map Part) : Map Part := (List.range 16).foldl (fun m p => mset m p { mget Part.reset m p with hDevice := b }) m

theorem hDevice_causeSet (b : Bool) (m : Map Part) {p : Nat} (h : p < 16) : (mget Part.reset (causeSet b m) p).hDevice = b :=
  foldl_at (step := fun (m : Map Part) p => mset m p { mget Part.reset m p with hDevice := b })
    (get := fun m p => (mget Part.reset m p).hDevice) (g := fun _ _ => b) (fun u n => by rw [mget_mset])
    (fun u n m hm => by rw [mget_mset_ne _ _ _ hm]) List.nodup_range m (List.mem_range.2 h)

theorem setDeviceCause_eq (s : State) (b : Bool) : setDeviceCause s b = { s with parts := causeSet b s.parts } := rfl

/-- The device waits for its recovery, and no start or reset is under way. -/
def toRecover (w : Wake) : Wake :=
  { w with
    recoverDue := true
    start := none
    compute := false
    drained := false }

theorem enterFaulted_idle {s : State} (h : s.dev = .off ∨ s.dev = .held) : enterFaulted s = s := by
  rw [enterFaulted, if_pos h]

/-- R471: a fatal error makes the device FAULTED and halts every partition. -/
theorem enterFaulted_effect {s : State} (hoff : s.dev ≠ .off) (hheld : s.dev ≠ .held) : (enterFaulted s).dev = .faulted ∧
    (enterFaulted s).stage = 0 ∧ (∀ p < 16, ((enterFaulted s).part p).hDevice = true) ∧ (enterFaulted s).fields = s.fields ∧
    (enterFaulted s).mem = s.mem ∧ (enterFaulted s).cores = s.cores ∧ (enterFaulted s).wake.start = none ∧
    (enterFaulted s).survey = s.survey ∧ (enterFaulted s).fw = s.fw := by
  have h : enterFaulted s = setDeviceCause (leaveWaking (modWake (setDev s .faulted 0) toRecover) false) true := by
    rw [enterFaulted, if_neg (by rintro (h | h) <;> contradiction)]
    rfl
  rw [h, setDeviceCause_eq]
  have h1 := tells_setDev s .faulted 0
  generalize setDev s .faulted 0 = u1 at h1 ⊢
  have h2 := actsEnd_leaveWaking (modWake u1 toRecover) false
  generalize leaveWaking (modWake u1 toRecover) false = u2 at h2 ⊢
  have hp := fun p hp => hDevice_causeSet true u2.parts (p := p) hp
  generalize causeSet true u2.parts = m at hp ⊢
  have hdev : u2.dev = u1.dev ∧ u2.stage = u1.stage ∧ u2.fields = u1.fields ∧ u2.mem = u1.mem ∧ u2.cores = u1.cores ∧
      u2.wake.start = none ∧ u2.survey = u1.survey ∧ u2.fw = u1.fw := by
    rw [h2]
    exact ⟨rfl, rfl, rfl, rfl, rfl, rfl, rfl, rfl⟩
  have hdev1 : u1.dev = .faulted ∧ u1.stage = 0 ∧ u1.fields = s.fields ∧ u1.mem = s.mem ∧ u1.cores = s.cores ∧ u1.survey = s.survey ∧
      u1.fw = s.fw := by
    rw [h1]
    exact ⟨rfl, rfl, rfl, rfl, rfl, rfl, rfl⟩
  obtain ⟨a1, a2, a3, a4, a5, a6, a7, a8⟩ := hdev
  obtain ⟨b1, b2, b3, b4, b5, b6, b7⟩ := hdev1
  exact ⟨a1.trans b1, a2.trans b2, hp, a3.trans b3, a4.trans b4, a5.trans b5, a6, a7.trans b6, a8.trans b7⟩

theorem raiseErr_fatal {code : Nat} (h : classOf code = 2) (s : State) (ukind unit : Nat) (part : Option Nat) (echo : W64) (detail : List Nat) :
    ∃ u, Logged s u ∧ raiseErr s code ukind unit part echo detail = enterFaulted u := by
  refine ⟨raiseRec s code (classOf code) ukind unit part echo detail, logged_raiseRec s code _ ukind unit part echo detail, ?_⟩
  rw [raiseErr, if_pos h]

theorem serviceWire_effect (s : State) (n seam sig wire failed : Nat) : ∃ t, exec (.serviceWireDisagree n seam ⟨sig, wire⟩ failed) s = .next t ∧
    (t.field n).msh.seamRetry = satInc (s.field n).msh.seamRetry 1 ∧ (failed ≤ 1 → t.dev = s.dev) ∧
    (2 ≤ failed → s.dev ≠ .off → s.dev ≠ .held → t.dev = .faulted ∧ ∀ p < 16, (t.part p).hDevice = true) := by
  have hexec : exec (.serviceWireDisagree n seam ⟨sig, wire⟩ failed) s = execServiceWireDisagree n seam ⟨sig, wire⟩ failed s := rfl
  rw [hexec, execServiceWireDisagree]
  dsimp only
  generalize hu : modMsh s n (fun m => { m with seamRetry := satInc m.seamRetry 1 }) = u
  have hretry : (u.field n).msh.seamRetry = satInc (s.field n).msh.seamRetry 1 := by
    rw [← hu, field_modMsh]
  have hdev : u.dev = s.dev := by
    rw [← hu]
    rfl
  by_cases hf : failed ≤ 1
  · rw [if_pos hf]
    have hlog := logged_raiseErr (code := 0x0008) (by decide) u 3 n none (u.field n).echo [seam, sig, wire]
    generalize raiseErr u 0x0008 3 n none (u.field n).echo [seam, sig, wire] = v at hlog ⊢
    refine ⟨v, rfl, ?_, fun _ => ?_, fun h => absurd hf (by omega)⟩
    · rw [hlog]
      exact hretry
    · rw [hlog]
      exact hdev
  · rw [if_neg hf]
    obtain ⟨v, hlog, hv⟩ := raiseErr_fatal (code := 0x0009) rfl u 3 n none (u.field n).echo [seam, sig, wire]
    rw [hv]
    have hvd : v.dev = s.dev := by
      rw [hlog]
      exact hdev
    have hvf : v.fields = u.fields := by rw [hlog]
    by_cases hoff : s.dev = .off ∨ s.dev = .held
    · rw [enterFaulted_idle (hvd ▸ hoff)]
      refine ⟨v, rfl, ?_, fun h => absurd h hf, fun _ h1 h2 => (hoff.elim h1 h2).elim⟩
      rw [State.field, hvf]
      exact hretry
    · rw [not_or] at hoff
      obtain ⟨hd, -, hp, hfields, -⟩ := enterFaulted_effect (hvd ▸ hoff.1) (hvd ▸ hoff.2)
      refine ⟨_, rfl, ?_, fun h => absurd h hf, fun _ _ _ => ⟨hd, hp⟩⟩
      rw [State.field, hfields, hvf]
      exact hretry

/-! ### Routers (R38, R266) -/

/-- A group with a router recorded dead, and its tile as a core where that failed as well. -/
def Group.routerDown (core : Bool) (col : Nat) (k : Group) : Group :=
  { k with
    rdead := k.rdead ||| 2 ^ col
    tdead := if core then k.tdead ||| 2 ^ col else k.tdead }

/-- A group whose spare is to take over a column. -/
def Group.remapped (col : Nat) (k : Group) : Group := { k with remap := some ⟨col, false⟩ }

theorem testBit_or_pow {x col i : Nat} (h : i ≠ col) : (x ||| 2 ^ col).testBit i = x.testBit i := by
  rw [Nat.testBit_or, Nat.testBit_two_pow_of_ne (Ne.symm h), Bool.or_false]

/-- A field whose router at row 3 works has a field router. -/
theorem noFieldRouter_live {s : State} {n : Nat} (h : routerDead s n 45 = false) : noFieldRouter s n = false := by
  rw [noFieldRouter, h, Bool.and_false]

/-- The LOCATION of a tile whose router failed, with its core or without. -/
def routerLoc (n r : Nat) (core : Bool) : Bytes :=
  natBytes 1 (routerTile n r).1 ++ natBytes 1 (routerTile n r).2 ++ natBytes 1 (if core then 3 else 2)

section

variable {s : State} {n r g col : Nat} (core : Bool) (hg : g = 8 * n + r / 13) (hcol : col = r % 13) (h96 : g < 96)
  (hlive : (s.grp g).rdead.testBit col = false) (h12 : col ≠ 12) (hlost : (s.grp g).lost = false) (hskip : (s.grp g).skip = 12)
  (hremap : (s.grp g).remap = none) (hspare : ((s.grp g).tdead ||| (s.grp g).rdead).testBit 12 = false)

include hg hcol h96 hlive h12 hlost hskip hremap hspare

theorem routerFails_eq (hfield : ∀ u : State, (∀ x, u.grp x = s.grp x) → noFieldRouter (modGrp u g (Group.routerDown core col)) n = false) :
    routerFails s n r core = beginComputeReset (modGrp (setBuf (modGrp (surveyAppend s 1 2 false (routerLoc n r core)) g
      (Group.routerDown core col)) n r []) g (Group.remapped col)) := by
  have hfound := found_surveyAppend (s := s) (ty := 1) (loc := routerLoc n r core) 2 false
  rw [routerFails]
  dsimp only
  rw [← hg, ← hcol]
  have hgate : (decide (96 ≤ g) || (s.grp g).rdead.testBit col) = false := by rw [hlive, decide_eq_false (by omega)]; rfl
  have hdown : (fun k : Group => { k with rdead := k.rdead ||| 2 ^ col, tdead := if core then k.tdead ||| 2 ^ col else k.tdead }) =
      Group.routerDown core col := rfl
  have hloc : natBytes 1 (routerTile n r).1 ++ natBytes 1 (routerTile n r).2 ++ natBytes 1 (if core then 3 else 2) = routerLoc n r core := rfl
  rw [hgate, if_neg Bool.false_ne_true, hdown, hloc]
  generalize surveyAppend s 1 2 false (routerLoc n r core) = u at hfound ⊢
  have hfn : noFieldRouter (setBuf (modGrp u g (Group.routerDown core col)) n r []) n = false := by
    have hb := buffers_setBuf (modGrp u g (Group.routerDown core col)) n r []
    have h := hfield u fun x => by rw [State.grp, hfound.groups, State.grp]
    rw [noFieldRouter, routerDead, routerDead, State.grp, State.grp, hb.groups]
    rw [noFieldRouter, routerDead, routerDead, State.grp, State.grp] at h
    exact h
  have hcols : ((s.grp g).lost || (s.grp g).skip == col) = false := by
    rw [hlost, hskip, Bool.false_or, beq_eq_false_iff_ne]
    exact Ne.symm h12
  have hthen : ((s.grp g).remap.isSome || (s.grp g).skip != 12 || ((s.grp g).tdead ||| (s.grp g).rdead).testBit 12) = false := by
    rw [hremap, hskip, hspare]
    rfl
  rw [hcols, if_neg Bool.false_ne_true, hthen, if_neg Bool.false_ne_true, hfn, if_neg Bool.false_ne_true]
  rfl

/-- R38, R266: a router that fails in service. -/
theorem routerFails_effect (hfield : ∀ u : State, (∀ x, u.grp x = s.grp x) → noFieldRouter (modGrp u g (Group.routerDown core col)) n = false) :
    ((routerFails s n r core).grp g).rdead = (s.grp g).rdead ||| 2 ^ col ∧
    ((routerFails s n r core).grp g).tdead = (if core then (s.grp g).tdead ||| 2 ^ col else (s.grp g).tdead) ∧
    ((routerFails s n r core).grp g).remap = some ⟨col, false⟩ ∧ bufOf (routerFails s n r core) n r = [] ∧
    SurveyAdds s (routerFails s n r core) 1 (routerLoc n r core) ∧
    (s.dev = .ready ∨ s.dev = .degraded → (routerFails s n r core).dev = .waking ∧ (routerFails s n r core).wake.compute = true ∧
      ∀ c < 1152, ((routerFails s n r core).core c).crst = true) := by
  rw [routerFails_eq core hg hcol h96 hlive h12 hlost hskip hremap hspare hfield]
  have hfound := found_surveyAppend (s := s) (ty := 1) (loc := routerLoc n r core) 2 false
  have hadds := surveyAppend_adds (s := s) (ty := 1) (loc := routerLoc n r core) 2 false
  generalize surveyAppend s 1 2 false (routerLoc n r core) = u at hfound hadds ⊢
  have hbuf := bufOf_setBuf (modGrp u g (Group.routerDown core col)) n r []
  have hb := buffers_setBuf (modGrp u g (Group.routerDown core col)) n r []
  have hsurvey : (setBuf (modGrp u g (Group.routerDown core col)) n r []).survey = u.survey := by rw [hb.rest]; rfl
  have hdev : (setBuf (modGrp u g (Group.routerDown core col)) n r []).dev = s.dev := by rw [hb.rest]; exact hfound.dev
  have hgrp : (setBuf (modGrp u g (Group.routerDown core col)) n r []).grp g = (s.grp g).routerDown core col := by
    rw [State.grp, hb.groups, ← State.grp, grp_modGrp, State.grp, hfound.groups, ← State.grp]
  generalize setBuf (modGrp u g (Group.routerDown core col)) n r [] = v at hbuf hsurvey hdev hgrp ⊢
  have hbegin := beginComputeReset_begins (modGrp v g (Group.remapped col))
  have hat := hbegin.grp g
  rw [grp_modGrp, hgrp] at hat
  refine ⟨?_, ?_, ?_, ?_, ?_, fun hd => ?_⟩
  · rw [hat]
    rfl
  · rw [hat]
    rfl
  · rw [hat]
    rfl
  · rw [bufOf, State.field, hbegin.fields]
    exact hbuf
  · exact SurveyAdds.between (.refl s) rfl hadds (finds_of_survey (hbegin.survey.trans hsurvey))
  · have hd' : (modGrp v g (Group.remapped col)).dev = .ready ∨ (modGrp v g (Group.remapped col)).dev = .degraded := by
      rw [show (modGrp v g (Group.remapped col)).dev = s.dev from hdev]
      exact hd
    have hserve : (modGrp v g (Group.remapped col)).dev = .ready ∨ (modGrp v g (Group.remapped col)).dev = .degraded ∨
        (modGrp v g (Group.remapped col)).dev = .low ∨ (modGrp v g (Group.remapped col)).dev = .faulted :=
      hd'.elim .inl fun h => .inr (.inl h)
    rw [beginComputeReset_serving hserve]
    obtain ⟨-, h1, h2, -, h3⟩ := beganReset_effect (modGrp v g (Group.remapped col))
    exact ⟨h1, h2, h3⟩

end

/-- The router at row 3 of a field is dead only where it was, unless it is the one that fails. -/
theorem row3_live {s u : State} {n r g col : Nat} (core : Bool) (hg : g = 8 * n + r / 13) (hcol : col = r % 13)
    (h45 : routerDead s n 45 = false) (hr : r ≠ 45) (hgrp : ∀ x, u.grp x = s.grp x) :
    noFieldRouter (modGrp u g (Group.routerDown core col)) n = false := by
  refine noFieldRouter_live ?_
  rw [routerDead] at h45 ⊢
  by_cases hx : 8 * n + 45 / 13 = g
  · rw [hx, grp_modGrp, Group.routerDown]
    dsimp only
    rw [testBit_or_pow (by omega), hgrp, ← hx]
    exact h45
  · rw [grp_modGrp_ne _ _ hx, hgrp]
    exact h45

/-! ### Field ports (R572) -/

theorem sameHops_emptyRouter (s : State) (n r : Nat) : SameHops s (emptyRouter s n r) := by
  rw [emptyRouter]
  refine SameHops.trans ?_ (buffers_setBuf _ n r []).sameHops
  refine List.foldlRecOn (motive := fun t => SameHops s t) _ _ (Buffers.refl s).sameHops fun t ht f _ => ht.trans ?_
  split
  · exact ⟨rfl, rfl, rfl, fun _ => rfl, fun _ => rfl, fun _ => rfl⟩
  · exact (Buffers.refl t).sameHops

theorem sameHops_emptyRouters (s : State) (n : Nat) : SameHops s (emptyRouters s n) := by
  rw [emptyRouters]
  have h := List.foldlRecOn (motive := fun t => SameHops s t) ((s.field n).msh.bufs.map (·.1)) (fun s r => emptyRouter s n r)
    (Buffers.refl s).sameHops fun t ht r _ => ht.trans (sameHops_emptyRouter t n r)
  generalize ((s.field n).msh.bufs.map (·.1)).foldl (fun s r => emptyRouter s n r) s = u at h ⊢
  split
  · exact h
  · exact h.trans (buffers_modMsh u n fun _ => rfl).sameHops

/-- The field router of a field, placed by whether its router at row 4 is dead. -/
def placed (dead : Bool) (k : Field) : Field := if k.msh.atRow3 = dead then k else { k with msh := { k.msh with atRow3 := dead } }

theorem placeFieldPorts_row3 (s : State) {n : Nat} (hn : n < 12) : ((placeFieldPorts s).field n).msh.atRow3 = routerDead s n 58 := by
  obtain ⟨-, hat, -⟩ := foldl_each (s := s) (g := fun n => placed (routerDead s n 58)) (step := fun s n =>
      if (s.field n).msh.atRow3 = routerDead s n 58 then s else modMsh s n (fun m => { m with atRow3 := routerDead s n 58 }))
    (fun u n hu => by
      have hdead : routerDead u n 58 = routerDead s n 58 := by
        rw [routerDead, State.grp, ← hu]
        rfl
      rw [hdead]
      by_cases h : (u.field n).msh.atRow3 = routerDead s n 58
      · rw [if_pos h, placed, if_pos h]
        exact ⟨.refl u, rfl, fun _ _ => rfl⟩
      · rw [if_neg h, placed, if_neg h]
        exact modField_each u n _) (List.range 12) List.nodup_range
  rw [placeFieldPorts, hat n (List.mem_range.2 hn), placed]
  split
  · next h => exact h
  · rfl

end Sys2Proof.Machine
end

section
/-! SUPPORT. The end of a compute reset's drain, and the settlement of O39. -/

namespace Sys2Proof.Machine
open Sys2Proof

/-! ### What the drain's end keeps of a field's ports -/

theorem departs_switchDue (s : State) : Departs (modPwr s fun w => { w with offDue := [] }) (switchDue s) := by
  refine Departs.foldl (fun s d => ?_) _ _
  split
  · exact departs_confirmedOff s d
  · exact (departs_domLeave s d .off).trans (departs_raiseErr (by decide) _ 7 d none _ [])

theorem applySeams_fields (s : State) : (applySeams s).fields = s.fields := by
  rw [applySeams]
  refine List.foldlRecOn (motive := fun t : State => t.fields = s.fields) _ _ ?_ fun t ht e _ => ?_
  · rfl
  · dsimp only
    split
    · exact ht
    · split <;> exact ht

theorem retirePage_fields (s : State) (st page : Nat) : (retirePage s st page).fields = s.fields := rfl

theorem retireCands_fields (s : State) (p : Option Nat → Bool) : (retireCands s p).fields = s.fields := by
  rw [retireCands]
  refine List.foldlRecOn (motive := fun t : State => t.fields = s.fields) _ _ rfl fun t ht st _ => ?_
  refine List.foldlRecOn (motive := fun u : State => u.fields = s.fields) _ _ ht fun u hu pg _ => ?_
  rw [retirePage_fields, hu]

theorem drained_routers (s : State) : SameHops s ((List.range 12).foldl emptyRouters s) :=
  List.foldlRecOn (motive := fun t => SameHops s t) _ _ (Buffers.refl s).sameHops fun t ht n _ => ht.trans (sameHops_emptyRouters t n)

/-- R448: as the fabric has drained, a field's port stands where its routers let it. -/
theorem drainEnd_effect {s : State} {n : Nat} (hcompute : s.wake.compute = true) (hdrained : s.wake.drained = false) (hn : n < 12) :
    ∃ t, exec .computeResetDrainEnd s = .next t ∧ (t.field n).msh.atRow3 = routerDead s n 58 := by
  have hexec : exec .computeResetDrainEnd s = execComputeResetDrainEnd s := rfl
  rw [hexec, execComputeResetDrainEnd, if_pos ⟨hcompute, by rw [hdrained]; rfl⟩]
  refine ⟨_, rfl, ?_⟩
  dsimp only
  have hhops := drained_routers s
  generalize (List.range 12).foldl emptyRouters s = a at hhops ⊢
  have hplaced : ((placeFieldPorts a).field n).msh.atRow3 = routerDead s n 58 := by
    have hdead : routerDead a n 58 = routerDead s n 58 := by rw [routerDead, routerDead, hhops.grp]
    exact (placeFieldPorts_row3 a hn).trans hdead
  generalize placeFieldPorts a = p at hplaced ⊢
  have hseams : ((applySeams p).field n).msh.atRow3 = routerDead s n 58 := by
    rw [State.field, applySeams_fields]
    exact hplaced
  generalize applySeams p = b at hseams ⊢
  have hdue : ((switchDue b).field n).msh.atRow3 = routerDead s n 58 := ((departs_switchDue b).row3 n).trans hseams
  generalize switchDue b = c at hdue ⊢
  obtain ⟨-, -, -, -, -, hrow⟩ := installOverlays_keeps c
  have hover : ((installOverlays c).field n).msh.atRow3 = routerDead s n 58 := (hrow n).trans hdue
  generalize installOverlays c = d at hover ⊢
  have hreset := Loses.foldl (step := fun s g => if (s.grp g).lost then s else resetGroup s g true) (fun s g => by
    split
    · exact .refl s
    · exact loses_resetGroup s g true) d (List.range 96)
  have hrow' := (hreset.row3 n).trans hover
  generalize (List.range 96).foldl (fun s g => if (s.grp g).lost then s else resetGroup s g true) d = e at hrow' ⊢
  have hfields := retireCands_fields e fun _ => true
  generalize retireCands e (fun _ => true) = f at hfields ⊢
  have hgoal : (f.field n).msh.atRow3 = routerDead s n 58 := by
    rw [State.field, hfields]
    exact hrow'
  exact hgoal

/-- Settles O39: resends and the wires that they fail, a crossing's steering, a service signal's wires, and a router that fails. -/
theorem seamsAndRoutersFail : Obligations.SeamsAndRoutersFail := by
  unfold Obligations.SeamsAndRoutersFail
  refine ⟨resendBurst_effect, fun s seam x ts hquiet => ?_, fun s seam x plane dir group v w hdue hquiet hold hv hw hne =>
    crossing_effect hdue hquiet hold hv hw hne, serviceWire_effect,
    fun s n r g col hg hcol h96 hlive h12 hlost hskip hremap hspare h45 hr => ?_, fun s n => drainEnd_effect⟩
  · have hexec : exec (.crossingQuiesced seam x ts) s = execCrossingQuiesced seam x ts s := rfl
    rw [hexec, execCrossingQuiesced, hquiet]
    rfl
  · obtain ⟨hrdead, -, hremapped, hbuf, hadds, hwake⟩ := routerFails_effect false hg hcol h96 hlive h12 hlost hskip hremap hspare
      fun u hu => row3_live false hg hcol h45 hr hu
    exact ⟨_, rfl, hrdead, hremapped, hbuf, hadds, hwake⟩

end Sys2Proof.Machine
end

section
/-!
SUPPORT. Phases, joints and domains that fail or move (R402 to R410).
-/

namespace Sys2Proof.Machine
open Sys2Proof

/-! ### The device's state and what tells of it -/

/-- Of `s`, `t` changes the device's state and what tells of it, at most. -/
def Rated (s t : State) : Prop := Tells { s with dev := t.dev, stage := t.stage } t

theorem Rated.refl (s : State) : Rated s s := rfl

theorem Rated.trans {s t u : State} (h : Rated s t) (k : Rated t u) : Rated s u := by
  rw [Rated, Tells] at h k ⊢
  rw [k, h]

theorem Tells.rated {s t : State} (h : Tells s t) : Rated s t := by
  rw [Rated, Tells]
  rw [h]

theorem rated_setDev (s : State) (d : DevState) (stage : Nat) : Rated s (setDev s d stage) := by
  have h := tells_setDev s d stage
  generalize setDev s d stage = t at h ⊢
  rw [Rated, Tells]
  rw [h]

theorem rated_reevaluate (s : State) : Rated s (reevaluate s) := by
  rw [reevaluate]
  split
  · exact rated_setDev s _ 0
  · exact rated_setDev s _ 0
  · exact .refl s

section

variable {s t : State} (h : Rated s t)

include h

theorem Rated.mem : t.mem = s.mem := by rw [h]
theorem Rated.cores : t.cores = s.cores := by rw [h]
theorem Rated.fields : t.fields = s.fields := by rw [h]
theorem Rated.groups : t.groups = s.groups := by rw [h]
theorem Rated.pwr : t.pwr = s.pwr := by rw [h]
theorem Rated.hbms : t.hbms = s.hbms := by rw [h]
theorem Rated.survey : t.survey = s.survey := by rw [h]
theorem Rated.mgmt : t.wake.mgmt = s.wake.mgmt := by rw [h]
theorem Rated.grp (g : Nat) : t.grp g = s.grp g := by rw [State.grp, h.groups, State.grp]
theorem Rated.stack (i : Nat) : t.stack i = s.stack i := by rw [State.stack, h.hbms, State.stack]
theorem Rated.field (n : Nat) : t.field n = s.field n := by rw [State.field, h.fields, State.field]
theorem Rated.domOf (d : Nat) : domOf t d = domOf s d := by rw [Machine.domOf, h.pwr, Machine.domOf]

end

theorem domOf_setDom (s : State) (d : Nat) (x : DomSt) : domOf (setDom s d x) d = x := mget_mset _ _ _ _

theorem domOf_setDom_ne (s : State) {d e : Nat} (x : DomSt) (h : e ≠ d) : domOf (setDom s d x) e = domOf s e := mget_mset_ne _ _ _ h

/-- A bit that is taken from a number leaves every other. -/
theorem testBit_sub_pow {x i : Nat} (h : x.testBit i = true) (j : Nat) : (x - 2 ^ i).testBit j = (x.testBit j && decide (j ≠ i)) := by
  have hodd : x / 2 ^ i = 2 * (x / 2 ^ i / 2) + 1 := by
    rw [Nat.testBit_eq_decide_div_mod_eq, decide_eq_true_iff] at h
    omega
  have hx : x = 2 ^ i * (2 * (x / 2 ^ i / 2) + 1) + x % 2 ^ i := by
    rw [← hodd, Nat.div_add_mod]
  have hlt : x % 2 ^ i < 2 ^ i := Nat.mod_lt _ (Nat.two_pow_pos i)
  generalize x / 2 ^ i / 2 = q at hx
  generalize x % 2 ^ i = r at hx hlt
  have hsub : x - 2 ^ i = 2 ^ i * (2 * q) + r := by
    rw [hx, Nat.mul_add, Nat.mul_one]
    omega
  rw [hsub, hx, Nat.testBit_two_pow_mul_add _ hlt, Nat.testBit_two_pow_mul_add _ hlt]
  by_cases hj : j < i
  · rw [if_pos hj, if_pos hj, decide_eq_true (Nat.ne_of_lt hj), Bool.and_true]
  · rw [if_neg hj, if_neg hj]
    by_cases hji : j = i
    · rw [hji, Nat.sub_self, Nat.testBit_zero]
      simp
    · obtain ⟨k, hk⟩ : ∃ k, j - i = k + 1 := ⟨j - i - 1, by omega⟩
      rw [hk, Nat.testBit_succ, Nat.testBit_succ, decide_eq_true hji, Bool.and_true]
      congr 1
      omega

theorem countBits_sub_pow {n x i : Nat} (h : x.testBit i = true) (hi : i < n) : countBits n x = countBits n (x - 2 ^ i) + 1 := by
  have hmem : i ∈ (List.range n).filter fun j => x.testBit j := List.mem_filter.2 ⟨List.mem_range.2 hi, h⟩
  have herase : (List.range n).filter (fun j => (x - 2 ^ i).testBit j) = ((List.range n).filter fun j => x.testBit j).erase i := by
    rw [(List.nodup_range.filter _).erase_eq_filter, List.filter_filter]
    refine List.filter_congr fun j _ => ?_
    rw [testBit_sub_pow h, Bool.and_comm]
    by_cases hj : j = i <;> simp [hj]
  rw [countBits, countBits, herase, List.length_erase_of_mem hmem]
  have := List.length_pos_of_mem hmem
  omega

/-! ### A phase that stops (R406 to R408) -/

section

variable {s : State} {n i : Nat} (hn : n < 12) (hi : i < 12) (hbit : (s.field n).live.testBit i = true) (hlive : 8 ≤ livePhases s n)

include hn hi hbit hlive

/-- The state as the phase has stopped. -/
def phaseGone (s : State) (n i : Nat) : State := modField s n fun k => { k with live := k.live - 2 ^ i }

theorem phaseStops_eq : phaseStops s n i = reevaluate (surveyAppend (phaseGone s n i) 6 2 false (natBytes 1 n ++ natBytes 1 i)) := by
  have hcount : countBits 12 (s.field n).live = countBits 12 ((s.field n).live - 2 ^ i) + 1 := countBits_sub_pow hbit hi
  have hleft : ¬ livePhases (surveyAppend (phaseGone s n i) 6 2 false (natBytes 1 n ++ natBytes 1 i)) n ≤ 6 := by
    rw [livePhases, State.field, (found_surveyAppend 2 false).fields, ← State.field, phaseGone, field_modField]
    rw [livePhases] at hlive
    dsimp only
    omega
  rw [phaseStops, if_neg (by rw [hbit]; exact fun h => h.elim (by omega) fun h => h.elim (by omega) Bool.false_ne_true.elim)]
  dsimp only
  rw [phaseGone] at hleft ⊢
  rw [if_neg hleft]

theorem phaseStops_effect : ((phaseStops s n i).field n).live = (s.field n).live - 2 ^ i ∧
    (∀ m, m ≠ n → (phaseStops s n i).field m = s.field m) ∧ SurveyGets s (phaseStops s n i) 6 (natBytes 1 n ++ natBytes 1 i) ∧
    (phaseStops s n i).mem = s.mem ∧ (phaseStops s n i).cores = s.cores := by
  rw [phaseStops_eq hn hi hbit hlive]
  have hfound := found_surveyAppend (s := phaseGone s n i) (ty := 6) (loc := natBytes 1 n ++ natBytes 1 i) 2 false
  have hgets := surveyAppend_gets (s := phaseGone s n i) (ty := 6) (loc := natBytes 1 n ++ natBytes 1 i) 2 false
  generalize surveyAppend (phaseGone s n i) 6 2 false (natBytes 1 n ++ natBytes 1 i) = u at hfound hgets ⊢
  have hrated := rated_reevaluate u
  have hfield : ∀ m, (reevaluate u).field m = (phaseGone s n i).field m := fun m => by
    rw [hrated.field, State.field, hfound.fields, ← State.field]
  refine ⟨?_, fun m hm => ?_, hgets.within rfl rfl hrated.survey, hrated.mem.trans hfound.mem, hrated.cores.trans hfound.cores⟩
  · rw [hfield, phaseGone, field_modField]
  · rw [hfield, phaseGone, field_modField_ne _ _ hm]

end

/-! ### Joints (R405, R406) -/

/-- The state with a joint's count of deviating averages. -/
def jointCounted (s : State) (u : JointUnit) (n : Nat) : State := modPwr s fun w => { w with joints := mset w.joints (jointKey u) n }

/-- The state with a joint under suspicion. -/
def jointSuspected (s : State) (u : JointUnit) : State := modPwr s fun w => { w with suspects := w.suspects ++ [⟨u, false, s.echoM⟩] }

theorem exec_jointSample {s : State} {u : JointUnit} {d : Bool} {n : Nat} (hok : jointOk u = true)
    (hn : n = (if d then min 60 (mget 0 s.pwr.joints (jointKey u) + 1) else 0)) : exec (.jointSample u d) s = .next (
      if n = 60 ∧ (!s.pwr.suspects.any fun x => x.unit = u) = true then
        raiseErr (jointSuspected (jointCounted s u n) u) 0x000E (jointUnitOf u).1 (jointUnitOf u).2
          (if (jointUnitOf u).1 = 7 ∧ (jointUnitOf u).2 < 96 then (s.grp (jointUnitOf u).2).part else none) s.echoM []
      else jointCounted s u n) := by
  subst hn
  exact congrArg Host.Outcome.next (if_neg (by rw [hok]; exact Bool.false_ne_true))

/-- R405: the samples of a joint, and its suspicion. -/
theorem jointSample_effect (s : State) (u : JointUnit) (d : Bool) (n : Nat) (hok : jointOk u = true)
    (hn : n = (if d then min 60 (mget 0 s.pwr.joints (jointKey u) + 1) else 0)) : ∃ t, exec (.jointSample u d) s = .next t ∧
    t.mem = s.mem ∧ t.cores = s.cores ∧ mget 0 t.pwr.joints (jointKey u) = n ∧
    (n < 60 → t.pwr.suspects = s.pwr.suspects) ∧
    (n = 60 → (∀ x ∈ s.pwr.suspects, x.unit ≠ u) → t.pwr.suspects = s.pwr.suspects ++ [⟨u, false, s.echoM⟩]) := by
  rw [exec_jointSample hok hn]
  refine ⟨_, rfl, ?_⟩
  have hcount : mget 0 (jointCounted s u n).pwr.joints (jointKey u) = n := mget_mset _ _ _ _
  split
  · next h =>
    have hlog := logged_raiseErr (code := 0x000E) (by decide) (jointSuspected (jointCounted s u n) u)
      (jointUnitOf u).1 (jointUnitOf u).2 (if (jointUnitOf u).1 = 7 ∧ (jointUnitOf u).2 < 96 then (s.grp (jointUnitOf u).2).part else none) s.echoM []
    generalize raiseErr (jointSuspected (jointCounted s u n) u) _ _ _ _ _ _ = v at hlog ⊢
    have hpwr : v.mem = s.mem ∧ v.cores = s.cores ∧ v.pwr = (jointSuspected (jointCounted s u n) u).pwr := by
      rw [hlog]
      exact ⟨rfl, rfl, rfl⟩
    obtain ⟨h1, h2, h3⟩ := hpwr
    rw [h3]
    exact ⟨h1, h2, hcount, fun hlt => absurd h.1 (Nat.ne_of_lt hlt), fun _ _ => rfl⟩
  · next h =>
    refine ⟨rfl, rfl, hcount, fun _ => rfl, fun h60 hnone => absurd ⟨h60, ?_⟩ h⟩
    rw [Bool.not_eq_true', List.any_eq_false]
    exact fun x hx hxu => hnone x hx (of_decide_eq_true hxu)

/-- R406: a test that finds nothing, and a suspect that is cleared. -/
theorem joint_clears (s : State) (u : JointUnit) : (exec (.jointTest u false) s = .next s) ∧
    (∃ t, exec (.jointSuspectExpire u) s = .next t ∧ { t with pwr := s.pwr } = s ∧
      ∀ x, x ∈ t.pwr.suspects ↔ x ∈ s.pwr.suspects ∧ ¬ (x.unit = u ∧ x.confirmed = false)) := by
  refine ⟨congrArg Host.Outcome.next (if_neg fun h => Bool.false_ne_true h.1), _, rfl, rfl, fun x => ?_⟩
  have hiff : x ∈ s.pwr.suspects.filter (fun x => !(x.unit = u && !x.confirmed)) ↔
      x ∈ s.pwr.suspects ∧ ¬ (x.unit = u ∧ x.confirmed = false) := by
    rw [List.mem_filter, Bool.not_eq_true', ← Bool.not_eq_true, Bool.and_eq_true, decide_eq_true_iff, Bool.not_eq_true']
  exact hiff

/-- The state with the suspicion of a joint confirmed. -/
def jointConfirmed (s : State) (u : JointUnit) : State :=
  modPwr s fun w => { w with suspects := w.suspects.map (fun x => if x.unit = u then { x with confirmed := true } else x) }

/-- R406, R408: a phase whose joint is confirmed, or that trips. -/
theorem phase_effect (s : State) (n i : Nat) (x : Suspect) (hn : n < 12) (hi : i < 12) (hbit : (s.field n).live.testBit i = true)
    (hlive : 8 ≤ livePhases s n) :
    (x ∈ s.pwr.suspects → x.unit = .phase n i → x.confirmed = false → ∃ t, exec (.jointTest (.phase n i) true) s = .next t ∧
      (t.field n).live = (s.field n).live - 2 ^ i ∧ SurveyGets s t 6 (natBytes 1 n ++ natBytes 1 i) ∧ t.mem = s.mem) ∧
    (∃ t, exec (.phaseTrip n i) s = .next t ∧ (t.field n).live = (s.field n).live - 2 ^ i ∧
      (∀ m, m ≠ n → t.field m = s.field m) ∧ SurveyGets s t 6 (natBytes 1 n ++ natBytes 1 i) ∧ t.mem = s.mem ∧
      t.cores = s.cores) := by
  refine ⟨fun hx hunit hconf => ?_, _, rfl, phaseStops_effect hn hi hbit hlive⟩
  have hany : s.pwr.suspects.any (fun x => x.unit = .phase n i ∧ !x.confirmed) = true :=
    List.any_eq_true.2 ⟨x, hx, decide_eq_true ⟨hunit, by rw [hconf]; rfl⟩⟩
  have hexec : exec (.jointTest (.phase n i) true) s = .next (jointConfirm s (.phase n i)) := congrArg Host.Outcome.next (if_pos ⟨rfl, hany⟩)
  refine ⟨_, hexec, ?_⟩
  have hconfirm : jointConfirm s (.phase n i) = raiseErr (phaseStops (jointConfirmed s (.phase n i)) n i) 0x000F 3 n none s.echoM [i] := rfl
  rw [hconfirm]
  obtain ⟨h1, -, h3, h4, -⟩ := phaseStops_effect (s := jointConfirmed s (.phase n i)) hn hi hbit hlive
  generalize phaseStops (jointConfirmed s (.phase n i)) n i = u at h1 h3 h4 ⊢
  have hlog := logged_raiseErr (code := 0x000F) (by decide) u 3 n none s.echoM [i]
  generalize raiseErr u 0x000F 3 n none s.echoM [i] = v at hlog ⊢
  have hmem : v.mem = u.mem ∧ v.field n = u.field n := by
    rw [hlog]
    exact ⟨rfl, rfl⟩
  refine ⟨?_, h3.within rfl rfl hlog.survey, hmem.1.trans h4⟩
  rw [hmem.2]
  exact h1

end Sys2Proof.Machine
end

section
/-!
SUPPORT. Domains that trip, stages that stop and domains that have moved, and the settlement of O50.
-/

namespace Sys2Proof.Machine
open Sys2Proof

/-! ### Lists and memory -/

/-- What a fold passes through: the state before one of its members, and after it. -/
theorem foldl_through {σ β : Type} {step : σ → β → σ} {R : σ → σ → Prop} (hrefl : ∀ u, R u u) (htrans : ∀ {a b c}, R a b → R b c → R a c)
    (hstep : ∀ u b, R u (step u b)) {b : β} {l : List β} (hb : b ∈ l) (s : σ) : ∃ u, R s u ∧ R (step u b) (l.foldl step s) := by
  have hall : ∀ (l : List β) (u : σ), R u (l.foldl step u) := fun l u =>
    List.foldlRecOn (motive := fun v => R u v) l step (hrefl u) fun v hv x _ => htrans hv (hstep v x)
  obtain ⟨l₁, l₂, rfl⟩ := List.append_of_mem hb
  rw [List.foldl_append, List.foldl_cons]
  exact ⟨_, hall l₁ s, hall l₂ _⟩

theorem mget_map {α : Type} {d : α} {f : α → α} (hd : f d = d) (m : Map α) (k : Nat) : mget d (m.map (fun x => (x.1, f x.2))) k = f (mget d m k) := by
  induction m with
  | nil => exact hd.symm
  | cons p m ih =>
    obtain ⟨j, v⟩ := p
    rw [mget_eq_mfind, mget_eq_mfind] at ih ⊢
    rw [List.map_cons, mfind, mfind]
    by_cases h : k = j
    · rw [if_pos h, if_pos h]
      rfl
    · rw [if_neg h, if_neg h]
      exact ih

theorem mfind_foldl_const {α : Type} {l : List Nat} {k : Nat} (h : k ∈ l) (v : α) (m : Map α) : mfind (l.foldl (fun m i => mset m i v) m) k = some v := by
  obtain ⟨u, -, hu⟩ := foldl_through (step := fun (m : Map α) i => mset m i v) (R := fun m m' => mfind m k = some v → mfind m' k = some v)
    (fun _ => id) (fun h1 h2 => h2 ∘ h1) (fun m i hm => by
      by_cases hk : k = i
      · rw [hk, mfind_mset]
      · rw [mfind_mset_ne _ _ hk, hm]) h m
  exact hu (mfind_mset _ _ _)

theorem memGet_filter {m : List Host.Cell} {p : Host.Cell → Bool} {x : Nat} (h : ∀ v, p (x, v) = false) : memGet (m.filter p) x = 0#8 := by
  induction m with
  | nil => rfl
  | cons c m ih =>
    obtain ⟨k, v⟩ := c
    by_cases hp : p (k, v) = true
    · rw [List.filter_cons_of_pos hp, memGet, if_neg ?_, ih]
      rintro rfl
      rw [h v] at hp
      cases hp
    · rw [List.filter_cons_of_neg hp, ih]

/-! ### A stack that leaves service (R344) -/

theorem hitsStack_congr {s t : State} (ho : t.hbmOwner = s.hbmOwner) (hp : t.parts = s.parts) : hitsStack t = hitsStack s := by
  have hrow : rowSpread t = rowSpread s := by
    funext j
    simp only [rowSpread, unitOwner, State.part, ho, hp]
  funext a n st
  simp only [hitsStack, hbmLoc, hrow]

/-- R344: a core's bursts and its global access, as a stack has gone. -/
def goneCore (s : State) (st : Nat) (x : Core) : Core :=
  { x with
    dma := x.dma.map (fun e => (e.1, { e.2 with bursts := e.2.bursts.map (burstLost s st) }))
    ctl := match x.ctl.blk with
      | .gacc g => if hitsStack s g.addr g.size st then { x.ctl with blk := .gacc { g with lost := true } } else x.ctl
      | _ => x.ctl }

theorem goneCore_congr {s t : State} (h : hitsStack t = hitsStack s) (st : Nat) : goneCore t st = goneCore s st := by
  have hb : burstLost t st = burstLost s st := by
    funext b
    simp only [burstLost, h]
  funext x
  rw [goneCore, goneCore, hb, h]

theorem goneCore_ctl {s : State} {st : Nat} {x : Core} (h : ∀ g, x.ctl.blk ≠ .gacc g) : { goneCore s st x with dma := x.dma } = x := by
  have hctl : (goneCore s st x).ctl = x.ctl := by
    rw [goneCore]
    dsimp only
    split
    · next g hg => exact absurd hg (h g)
    · rfl
  change { x with ctl := (goneCore s st x).ctl } = x
  rw [hctl]

theorem goneCore_burst {s : State} {st e : Nat} {x : Core} {b : Burst} (hb : b ∈ (x.eng e).bursts) (hs : b.status = none) (hd : b.data = none)
    (hit : hitsStack s b.src b.len st = true) : { b with status := some 8 } ∈ ((goneCore s st x).eng e).bursts := by
  have heng : (goneCore s st x).eng e = { x.eng e with bursts := (x.eng e).bursts.map (burstLost s st) } :=
    mget_map (f := fun k : DmaEng => { k with bursts := k.bursts.map (burstLost s st) }) rfl x.dma e
  have hlost : burstLost s st b = { b with status := some 8 } := by
    rw [burstLost, hs, hd, hit]
    rfl
  rw [heng, ← hlost]
  exact List.mem_map_of_mem hb

theorem stackGone_eq (s : State) (st : Nat) : ∃ out, stackGone s st = { s with
    hbms := mset s.hbms st { s.stack st with waiting := [] }
    out := out
    cores := s.cores.map fun x => (x.1, goneCore s st x.2) } := by
  rw [stackGone]
  dsimp only
  generalize hu : List.foldl _ (modStack s st _) _ = u
  have h : u = { s with hbms := mset s.hbms st { s.stack st with waiting := [] }, out := u.out } := by
    rw [← hu]
    refine List.foldlRecOn (motive := fun t : State => t = { s with hbms := mset s.hbms st { s.stack st with waiting := [] }, out := t.out })
      _ _ rfl fun t ht w _ => ?_
    dsimp only
    split
    · split
      · exact ht
      · rw [emit, ht]
    · rw [emit, ht]
  have hgone : goneCore u st = goneCore s st := goneCore_congr (hitsStack_congr (by rw [h]) (by rw [h])) st
  refine ⟨u.out, ?_⟩
  rw [← hgone]
  have hcores : u.cores = s.cores := by rw [h]
  rw [← hcores]
  rw [h]
  rfl

/-- R404: a stack's domain leaves ON. -/
theorem mdOff_effect (s : State) (st : Nat) (x : DomSt) (hlive : (s.stack st).st ≠ .retired) : domOf (mdOff s st x) (116 + st) = x ∧
    ((mdOff s st x).stack st).st = .off ∧ (mdOff s st x).survey = s.survey ∧
    (mdOff s st x).cores = s.cores.map (fun c => (c.1, goneCore s st c.2)) ∧
    ∀ a, hbmKey st 0 ≤ a → a < hbmKey st 0 + 0xC00000000 → memGet (mdOff s st x).mem a = 0 := by
  obtain ⟨out, hgone⟩ := stackGone_eq (setDom s (116 + st) x) st
  have hcore : goneCore (setDom s (116 + st) x) st = goneCore s st := goneCore_congr (hitsStack_congr rfl rfl) st
  rw [hcore] at hgone
  rw [mdOff]
  generalize stackGone (setDom s (116 + st) x) st = u at hgone ⊢
  have hst : (u.stack st).st = (s.stack st).st := by
    rw [State.stack, hgone]
    dsimp only
    rw [mget_mset]
    rfl
  have hu : domOf u (116 + st) = x ∧ u.survey = s.survey ∧ u.cores = s.cores.map (fun c => (c.1, goneCore s st c.2)) := by
    rw [hgone]
    exact ⟨domOf_setDom s _ x, rfl, rfl⟩
  obtain ⟨hdom, hsurvey, hcores⟩ := hu
  generalize hv : modStack (clearMem u _) st _ = v
  have hrated := rated_reevaluate v
  rw [hrated.domOf, hrated.stack, hrated.survey, hrated.cores, hrated.mem, ← hv]
  refine ⟨hdom, ?_, hsurvey, hcores, fun a hlo hhi => ?_⟩
  · rw [stack_modStack]
    exact if_neg (hst ▸ hlive)
  · refine memGet_filter fun b => ?_
    rw [Bool.not_eq_false', Bool.and_eq_true, decide_eq_true_iff, decide_eq_true_iff]
    exact ⟨hlo, hhi⟩

/-! ### Domains that trip (R408 to R410) -/

/-- The state with the DOMAIN entry and the error of a domain that trips. -/
def tripRecorded (s : State) (d : Nat) : State :=
  raiseErr (surveyAppend s 7 2 false (natBytes 2 d)) 0x0010 7 d (if d < 96 then (s.grp d).part else none)
    (surveyAppend s 7 2 false (natBytes 2 d)).echoM []

theorem tripRecorded_effect (s : State) (d : Nat) : Found s (tripRecorded s d) ∧ SurveyAdds s (tripRecorded s d) 7 (natBytes 2 d) ∧
    SurveyGets s (tripRecorded s d) 7 (natBytes 2 d) := by
  have hfound := found_surveyAppend (s := s) (ty := 7) (loc := natBytes 2 d) 2 false
  have hadds := surveyAppend_adds (s := s) (ty := 7) (loc := natBytes 2 d) 2 false
  have hgets := surveyAppend_gets (s := s) (ty := 7) (loc := natBytes 2 d) 2 false
  rw [tripRecorded]
  generalize surveyAppend s 7 2 false (natBytes 2 d) = u at hfound hadds hgets ⊢
  have hlog := logged_raiseErr (code := 0x0010) (by decide) u 7 d (if d < 96 then (s.grp d).part else none) u.echoM []
  exact ⟨hfound.trans hlog.found, SurveyAdds.between (.refl s) rfl hadds (finds_of_survey hlog.survey), hgets.within rfl rfl hlog.survey⟩

theorem exec_domainTrip {s : State} {d : Nat} (hd : d < 96 ∨ 116 ≤ d ∧ d < 132) (hon : domOf s d = .on) : exec (.domainTrip d) s = .next
    (if d < 96 then loseGroup (setDom (tripRecorded s d) d .tripped) d 1 true else reevaluate (domLeave (tripRecorded s d) d .tripped)) := by
  have hidle : ¬ (136 ≤ d ∨ d = 134 ∨ (domOf s d ≠ .on ∧ domOf s d ≠ .retention)) := by
    rintro (h | h | h)
    · omega
    · omega
    · exact h.1 hon
  have hfn : ¬ (96 ≤ d ∧ d < 108) := by omega
  exact congrArg Host.Outcome.next ((if_neg hidle).trans (if_neg hfn))

/-- R408, R401: a CG domain that trips. -/
theorem groupTrip_effect {s : State} {d : Nat} (hd : d < 96) (hon : domOf s d = .on) (hlost : (s.grp d).lost = false) :
    ∃ t, exec (.domainTrip d) s = .next t ∧ domOf t d = .tripped ∧ (t.grp d).off = true ∧ (t.grp d).lost = true ∧
      SurveyAdds s t 7 (natBytes 2 d) := by
  rw [exec_domainTrip (.inl hd) hon, if_pos hd]
  obtain ⟨hfound, hadds, -⟩ := tripRecorded_effect s d
  generalize tripRecorded s d = a at hfound hadds ⊢
  have hlost' : ((setDom a d .tripped).grp d).lost = false := by
    change (a.grp d).lost = false
    rw [State.grp, hfound.groups]
    exact hlost
  obtain ⟨hl, ho⟩ := loseGroup_grp 1 true hlost'
  have hlose := loses_loseGroup (setDom a d .tripped) d 1 true
  exact ⟨_, rfl, (hlose.domOf d).trans (domOf_setDom a d _), ho rfl, hl, SurveyAdds.between (.refl s) rfl hadds hlose.finds⟩

/-- R404, R344: a stack's domain that trips. -/
theorem stackTrip_effect {s : State} {d : Nat} (hlo : 116 ≤ d) (hhi : d < 132) (hon : domOf s d = .on)
    (hlive : (s.stack (d - 116)).st ≠ .retired) : ∃ t, exec (.domainTrip d) s = .next t ∧
      domOf t d = .tripped ∧ (t.stack (d - 116)).st = .off ∧ SurveyGets s t 7 (natBytes 2 d) ∧
      (∀ c e b, b ∈ ((s.core c).eng e).bursts → b.status = none → b.data = none → hitsStack s b.src b.len (d - 116) = true →
        { b with status := some 8 } ∈ ((t.core c).eng e).bursts) ∧
      (∀ c, (∀ g, (s.core c).ctl.blk ≠ .gacc g) → { t.core c with dma := (s.core c).dma } = s.core c) ∧
      ∀ x, hbmKey (d - 116) 0 ≤ x → x < hbmKey (d - 116) 0 + 0xC00000000 → memGet t.mem x = 0 := by
  obtain ⟨st, rfl⟩ : ∃ st, d = 116 + st := ⟨d - 116, by omega⟩
  rw [Nat.add_sub_cancel_left] at hlive ⊢
  rw [exec_domainTrip (.inr ⟨hlo, hhi⟩) hon, if_neg (by omega)]
  obtain ⟨hfound, -, hgets⟩ := tripRecorded_effect s (116 + st)
  generalize tripRecorded s (116 + st) = a at hfound hgets ⊢
  have hsame : (a.stack st).st = (s.stack st).st ∧ a.hbmOwner = s.hbmOwner := by
    rw [hfound]
    exact ⟨rfl, rfl⟩
  have hgone : goneCore a st = goneCore s st := goneCore_congr (hitsStack_congr hsame.2 hfound.parts) st
  have hleave : domLeave a (116 + st) .tripped = mdOff a st .tripped := by
    rw [domLeave, if_neg (by omega), if_neg (by omega), if_pos (by omega), dieLeave, if_neg (by omega), if_pos (by omega), Nat.add_sub_cancel_left]
  obtain ⟨hdom, hst, hsurvey, hcores, hmem⟩ := mdOff_effect a st .tripped (hsame.1 ▸ hlive)
  rw [hleave]
  generalize mdOff a st .tripped = b at hdom hst hsurvey hcores hmem ⊢
  have hrated := rated_reevaluate b
  have hcore : ∀ c, (reevaluate b).core c = goneCore s st (s.core c) := fun c => by
    rw [State.core, hrated.cores, hcores, hgone, hfound.cores]
    exact mget_map (f := goneCore s st) rfl s.cores c
  refine ⟨_, rfl, (hrated.domOf _).trans hdom, ?_, hgets.within rfl rfl (hrated.survey.trans hsurvey), fun c e x hx hs hd hit => ?_,
    fun c hc => ?_, fun x h1 h2 => ?_⟩
  · rw [hrated.stack]
    exact hst
  · rw [hcore]
    exact goneCore_burst hx hs hd hit
  · rw [hcore]
    exact goneCore_ctl hc
  · rw [hrated.mem]
    exact hmem x h1 h2

/-! ### Stages that stop (R410) -/

/-- Stages that have stopped stay so, and domains that are ON at most trip. -/
structure Stopping (s t : State) : Prop where
  vcore : ∀ m, (s.field m).vcore = 0 → (t.field m).vcore = 0
  tripped : ∀ d, domOf s d = .tripped → domOf t d = .tripped
  on : ∀ d, domOf s d = .on → domOf t d = .on ∨ domOf t d = .tripped

theorem Stopping.refl (s : State) : Stopping s s := ⟨fun _ => id, fun _ => id, fun _ => .inl⟩

theorem Stopping.trans {s t u : State} (h : Stopping s t) (k : Stopping t u) : Stopping s u := by
  refine ⟨fun m => k.vcore m ∘ h.vcore m, fun d => k.tripped d ∘ h.tripped d, fun d hd => ?_⟩
  rcases h.on d hd with hd | hd
  · exact k.on d hd
  · exact .inr (k.tripped d hd)

theorem Stopping.of_same {s t : State} (hf : ∀ m, (t.field m).vcore = (s.field m).vcore) (hd : ∀ d, domOf t d = domOf s d) : Stopping s t :=
  ⟨fun m h => (hf m).trans h, fun d h => (hd d).trans h, fun d h => .inl ((hd d).trans h)⟩

/-- The CG domain of a row, as the stage of its field stops. -/
def stopRow (n : Nat) (s : State) (row : Nat) : State :=
  if domOf s (8 * n + row) == .tripped || domOf s (8 * n + row) == .off then s
  else
    loseGroup (raiseErr (surveyAppend (setDom s (8 * n + row) .tripped) 7 2 false (natBytes 2 (8 * n + row))) 0x0010 7 (8 * n + row)
      (s.grp (8 * n + row)).part s.echoM []) (8 * n + row) 3 true

theorem stopRow_effect (n row : Nat) (s : State) : Stopping s (stopRow n s row) ∧
    (domOf s (8 * n + row) = .on ∨ domOf s (8 * n + row) = .tripped → domOf (stopRow n s row) (8 * n + row) = .tripped) := by
  rw [stopRow]
  split
  · next h =>
    refine ⟨.refl s, fun hd => hd.resolve_left fun hon => ?_⟩
    rw [hon] at h
    cases h
  · generalize 8 * n + row = g
    have hlands := (lands_surveyAppend (setDom s g .tripped) 7 2 false (natBytes 2 g)).trans
      (lands_raiseErr (code := 0x0010) (by decide) _ 7 g (s.grp g).part s.echoM [])
    generalize raiseErr (surveyAppend (setDom s g .tripped) 7 2 false (natBytes 2 g)) 0x0010 7 g (s.grp g).part s.echoM [] = u at hlands ⊢
    have hloses := hlands.loses.trans (loses_loseGroup u g 3 true)
    have hat : domOf (loseGroup u g 3 true) g = .tripped := (hloses.domOf g).trans (domOf_setDom s g _)
    have hother : ∀ d, d ≠ g → domOf (loseGroup u g 3 true) d = domOf s d := fun d hd => (hloses.domOf d).trans (domOf_setDom_ne s _ hd)
    refine ⟨⟨fun m h => (hloses.vcore m).trans h, fun d h => ?_, fun d h => ?_⟩, fun _ => hat⟩
    · by_cases hd : d = g
      · rw [hd, hat]
      · rw [hother d hd, h]
    · by_cases hd : d = g
      · rw [hd]
        exact .inr hat
      · rw [hother d hd]
        exact .inl h

theorem stageStops_effect (n : Nat) (s : State) : Stopping s (stageStops s n .tripped) ∧ ((stageStops s n .tripped).field n).vcore = 0 ∧
    ∀ row < 8, domOf s (8 * n + row) = .on ∨ domOf s (8 * n + row) = .tripped → domOf (stageStops s n .tripped) (8 * n + row) = .tripped := by
  have heq : stageStops s n .tripped = (List.range 8).foldl (stopRow n) (modField s n fun k => { k with vcore := 0 }) := rfl
  have hoff : ((modField s n fun k => { k with vcore := 0 }).field n).vcore = 0 := by rw [field_modField]
  have hstart : Stopping s (modField s n fun k => { k with vcore := 0 }) := by
    refine ⟨fun m h => ?_, fun d h => h, fun d h => .inl h⟩
    by_cases hm : m = n
    · rw [hm, hoff]
    · rw [field_modField_ne _ _ hm, h]
  have hrest := List.foldlRecOn (motive := fun t => Stopping (modField s n fun k => { k with vcore := 0 }) t) (List.range 8) (stopRow n) (.refl _)
    fun t ht row _ => ht.trans (stopRow_effect n row t).1
  rw [heq]
  refine ⟨hstart.trans hrest, hrest.vcore n hoff, fun row hrow hdom => ?_⟩
  obtain ⟨u, hu, hend⟩ := foldl_through (R := Stopping) Stopping.refl Stopping.trans (fun t row => (stopRow_effect n row t).1)
    (List.mem_range.2 hrow) (modField s n fun k => { k with vcore := 0 })
  exact hend.tripped _ ((stopRow_effect n row u).2 (hdom.elim (fun h => hu.on _ h) fun h => .inr (hu.tripped _ h)))

theorem mem_stageFieldsOf {x : StageLoss} {n m : Nat} (hx : x = .stage n ∨ x = .die n) (hm : m < 12)
    (h : m = n ∨ (x = .die n ∧ ∃ p ∈ [[0, 1, 3], [2, 4, 5], [6, 7, 9], [8, 10, 11]], n ∈ p ∧ m ∈ p)) :
    m ∈ stageFieldsOf x.field x.whole := by
  have hfield : x.field = n := by rcases hx with rfl | rfl <;> rfl
  have hdie : ∀ p ∈ [[0, 1, 3], [2, 4, 5], [6, 7, 9], [8, 10, 11]], ∀ a ∈ p, ∀ b ∈ p, powerDie b = powerDie a := by decide
  rw [hfield, stageFieldsOf, List.mem_filter, List.mem_range]
  refine ⟨hm, ?_⟩
  rcases h with rfl | ⟨rfl, p, hp, hn, hmp⟩
  · rw [beq_self_eq_true, Bool.true_or]
  · rw [hdie p hp n hn m hmp, beq_self_eq_true, StageLoss.whole, Bool.and_self, Bool.or_true]

/-- R410, R20: the stages that stop with a stage or with a power-controller die. -/
theorem stageTrip_effect (s : State) (x : StageLoss) (n : Nat) (hn : n < 12) (hx : x = .stage n ∨ x = .die n) :
    ∃ t, exec (.stageTrip x) s = .next t ∧ ∀ m < 12,
      m = n ∨ (x = .die n ∧ ∃ p ∈ [[0, 1, 3], [2, 4, 5], [6, 7, 9], [8, 10, 11]], n ∈ p ∧ m ∈ p) → (t.field m).vcore = 0 ∧
        ∀ row < 8, domOf s (8 * m + row) = .on → domOf t (8 * m + row) = .tripped := by
  have hfield : x.field = n := by rcases hx with rfl | rfl <;> rfl
  refine ⟨_, congrArg Host.Outcome.next (if_pos (hfield.symm ▸ hn)), fun m hm h => ?_⟩
  obtain ⟨u, hu, hend⟩ := foldl_through (step := fun s m => stageStops s m .tripped) (R := Stopping) Stopping.refl Stopping.trans
    (fun t m => (stageStops_effect m t).1) (mem_stageFieldsOf hx hm h) s
  generalize (stageFieldsOf x.field x.whole).foldl (fun s m => stageStops s m .tripped) s = v at hend ⊢
  have hrated := rated_reevaluate v
  obtain ⟨-, hv, hrow⟩ := stageStops_effect m u
  rw [hrated.field]
  refine ⟨hend.vcore m hv, fun row hr hon => ?_⟩
  rw [hrated.domOf]
  exact hend.tripped _ (hrow row hr (hu.on _ hon))

end Sys2Proof.Machine
end

section
/-! SUPPORT. Domains that move, and the settlement of O50. -/

namespace Sys2Proof.Machine
open Sys2Proof

/-! ### Domains that move (R402, R403, R464) -/

/-- R403: a wave of CG domains. -/
theorem cgWave_effect (s : State) (n : Nat) (hn : n < 12) : ∃ t, exec (.cgPowerupWave n) s = .next t ∧ t.mem = s.mem ∧ t.cores = s.cores ∧
    (t.field n).powerUp = (s.field n).powerUp.drop 2 ∧ ∀ g ∈ (s.field n).powerUp.take 2, mfind t.pwr.trans g = some .on := by
  refine ⟨_, congrArg Host.Outcome.next (if_pos hn), rfl, rfl, ?_, fun g hg => ?_⟩
  · have h : ((modField s n fun k => { k with powerUp := k.powerUp.drop 2 }).field n).powerUp = (s.field n).powerUp.drop 2 := by rw [field_modField]
    exact h
  · exact mfind_foldl_const hg DomSt.on s.pwr.trans

/-- What leaving LOW keeps. -/
theorem lowLeft_keeps (s : State) : (lowLeft s).pwr = s.pwr ∧ (lowLeft s).groups = s.groups ∧ (lowLeft s).cores = s.cores ∧
    (lowLeft s).mem = s.mem ∧ ∀ i, ((lowLeft s).stack i).st = (s.stack i).st := by
  rw [lowLeft]
  split
  · rw [setDeviceCause_eq]
    generalize causeSet false s.parts = m
    obtain ⟨hstacks, hin, hout⟩ := foldl_modStack { s with parts := m } (fun k => { k with sref := false }) 16
    generalize (List.range 16).foldl (fun s i => modStack s i fun k => { k with sref := false }) { s with parts := m } = u at hstacks hin hout ⊢
    dsimp only
    generalize (if degradedBy u = 0 then DevState.ready else .degraded) = d
    have hrated := rated_setDev u d 0
    have hu : u.pwr = s.pwr ∧ u.groups = s.groups ∧ u.cores = s.cores ∧ u.mem = s.mem := by
      have hpwr := congrArg State.pwr hstacks
      have hgroups := congrArg State.groups hstacks
      have hcores := congrArg State.cores hstacks
      have hmem := congrArg State.mem hstacks
      exact ⟨hpwr, hgroups, hcores, hmem⟩
    obtain ⟨h1, h2, h3, h4⟩ := hu
    refine ⟨hrated.pwr.trans h1, hrated.groups.trans h2, hrated.cores.trans h3, hrated.mem.trans h4, fun i => ?_⟩
    rw [hrated.stack]
    by_cases hi : i < 16
    · rw [hin i hi]
      rfl
    · rw [hout i (by omega)]
      rfl
  · exact ⟨rfl, rfl, rfl, rfl, fun _ => rfl⟩

theorem exec_domainTransitionDone (s : State) (d : Nat) : exec (.domainTransitionDone d) s = .next (lowLeft (transitionDone s d)) := rfl

/-- What the move of a domain shows after the device may have left LOW. -/
theorem lowLeft_shows {s u : State} {d : Nat} (h : transitionDone s d = u) : ∃ t, exec (.domainTransitionDone d) s = .next t ∧
    (∀ e, domOf t e = domOf u e) ∧ (∀ g, t.grp g = u.grp g) ∧ (∀ c, t.core c = u.core c) ∧ t.mem = u.mem ∧
    ∀ i, (t.stack i).st = (u.stack i).st := by
  obtain ⟨hpwr, hgroups, hcores, hmem, hstack⟩ := lowLeft_keeps u
  refine ⟨lowLeft u, by rw [exec_domainTransitionDone, h], fun e => ?_, fun g => ?_, fun c => ?_, hmem, hstack⟩
  · rw [domOf, hpwr, domOf]
  · rw [State.grp, hgroups, State.grp]
  · rw [State.core, hcores, State.core]

/-- Cores that have left reset stay out of it. -/
def Released (s t : State) : Prop := ∀ c, (s.core c).crst = false → (t.core c).crst = false

theorem releaseCore_releases (s : State) (c : Nat) : Released s (releaseCore s c) ∧ ((releaseCore s c).core c).crst = false := by
  have hat : ((releaseCore s c).core c).crst = false := by rw [releaseCore, core_modCore]
  refine ⟨fun x hx => ?_, hat⟩
  by_cases h : x = c
  · rw [h]
    exact hat
  · rw [releaseCore, core_modCore_ne _ _ h]
    exact hx

theorem releaseGroup_releases (s : State) (g : Nat) {k : Nat} (hk : k < 12) : ((releaseGroup s g).core (12 * g + k)).crst = false := by
  have hmem : 12 * g + k ∈ groupCores g := List.mem_map.2 ⟨k, List.mem_range.2 hk, rfl⟩
  obtain ⟨u, -, hu⟩ := foldl_through (step := releaseCore) (R := Released) (fun _ _ => id) (fun h1 h2 c hc => h2 c (h1 c hc))
    (fun s c => (releaseCore_releases s c).1) hmem (modGrp s g fun k => { k with rst := false })
  exact hu _ (releaseCore_releases u _).2

theorem lands_clearSps (s : State) (l : List Nat) : Lands s (l.foldl clearSp s) := Lands.foldl (fun s _ => lands_clearMem s _) s l

theorem domOf_modGrp (s : State) (g d : Nat) (f : Group → Group) : domOf (modGrp s g f) d = domOf s d := rfl

theorem domOf_clearSps (s : State) (d : Nat) (l : List Nat) : domOf (l.foldl clearSp s) d = domOf s d := by
  rw [domOf, (lands_clearSps s l).pwr, domOf]

theorem cgOff_eq (s : State) (d : Nat) :
    cgOff s d = reevaluate (modGrp ((groupCores d).foldl clearSp (setDom s d .off)) d fun k => { k with off := true }) := rfl

/-- R401: a CG domain that is OFF. -/
theorem domOf_cgOff (s : State) (d : Nat) : domOf (cgOff s d) d = .off := by
  rw [cgOff_eq, (rated_reevaluate _).domOf, domOf_modGrp, domOf_clearSps, domOf_setDom]

theorem off_cgOff (s : State) (d : Nat) : ((cgOff s d).grp d).off = true := by
  rw [cgOff_eq, (rated_reevaluate _).grp, grp_modGrp]

section

variable {s : State} {d : Nat} (hd : d < 96) (hdom : domOf s d ≠ .tripped)

/-- The state as the move of a domain is over. -/
def moveOver (s : State) (d : Nat) : State := modPwr s fun w => { w with trans := mdel w.trans d }

/-- The state as a CG domain has moved. -/
def movedTo (s : State) (d : Nat) (x : DomSt) : State :=
  match x with
  | .on => if fieldOn s (d / 8) && decide (7 ≤ livePhases s (d / 8)) then reevaluate (cgOn (moveOver s d) d) else moveOver s d
  | .off => cgOff (moveOver s d) d
  | .retention => setDom (moveOver s d) d .retention
  | .tripped => moveOver s d

include hd hdom

theorem transitionDone_eq {x : DomSt} (h : mfind s.pwr.trans d = some x) : transitionDone s d = movedTo s d x := by
  rw [transitionDone, if_neg (by omega), h]
  cases x <;> exact if_neg hdom

theorem cgOn_effect (h : mfind s.pwr.trans d = some .on) (hf : fieldOn s (d / 8) = true) (hp : 7 ≤ livePhases s (d / 8)) :
    ∃ t, exec (.domainTransitionDone d) s = .next t ∧ domOf t d = .on ∧ (t.grp d).off = false ∧ ∀ k < 12, (t.core (12 * d + k)).crst = false := by
  have heq : transitionDone s d = reevaluate (cgOn (moveOver s d) d) := by
    rw [transitionDone_eq hd hdom h, movedTo, hf, decide_eq_true hp]
    rfl
  obtain ⟨t, ht, hdoms, hgrps, hcores, -, -⟩ := lowLeft_shows heq
  have hrated := rated_reevaluate (cgOn (moveOver s d) d)
  have hon : domOf (cgOn (moveOver s d) d) d = .on :=
    ((loses_releaseGroup _ d).domOf d).trans (domOf_setDom (moveOver s d) d .on)
  have hoff : ((cgOn (moveOver s d) d).grp d).off = false := by
    have hg := grp_releaseCores (modGrp (modGrp (setDom (moveOver s d) d .on) d fun k => { k with off := false }) d
      fun k => { k with rst := false }) (groupCores d) d
    rw [grp_modGrp, grp_modGrp] at hg
    exact congrArg Group.off hg
  refine ⟨t, ht, ?_, ?_, fun k hk => ?_⟩
  · rw [hdoms, hrated.domOf, hon]
  · rw [hgrps, hrated.grp, hoff]
  · rw [hcores, State.core, hrated.cores]
    exact releaseGroup_releases _ d hk

theorem cgOff_effect (h : mfind s.pwr.trans d = some .off) :
    ∃ t, exec (.domainTransitionDone d) s = .next t ∧ domOf t d = .off ∧ (t.grp d).off = true := by
  obtain ⟨t, ht, hdoms, hgrps, -, -, -⟩ := lowLeft_shows (transitionDone_eq hd hdom h)
  exact ⟨t, ht, (hdoms d).trans (domOf_cgOff _ d), (congrArg Group.off (hgrps d)).trans (off_cgOff _ d)⟩

theorem cgRetention_effect (h : mfind s.pwr.trans d = some .retention) :
    ∃ t, exec (.domainTransitionDone d) s = .next t ∧ domOf t d = .retention := by
  obtain ⟨t, ht, hdoms, -, -, -, -⟩ := lowLeft_shows (transitionDone_eq hd hdom h)
  exact ⟨t, ht, (hdoms d).trans (domOf_setDom _ d _)⟩

end

/-- R343: a stack that has been trained. -/
theorem trainStack_keeps (s : State) (st : Nat) : (trainStack s st false).mem = s.mem := rfl

/-- R402: a stack's domain that is ON again. -/
theorem stackOn_effect (s : State) (st : Nat) (hst : st < 16) (hon : domOf s (116 + st) = .on) (htrain : (s.stack st).st = .training) :
    ∃ t, exec (.domainTransitionDone (116 + st)) s = .next t ∧ (t.stack st).st = .ready ∧ t.mem = s.mem := by
  have hcond : (116 ≤ 116 + st ∧ 116 + st < 132) := by omega
  have heq : transitionDone s (116 + st) = reevaluate (modStack (trainStack s st false) st fun k =>
      scrubSet { k with st := .ready, throttled := false, rate := rateLimit s } (cfgNum s 0x60 0x0003 0 24)) := by
    rw [transitionDone, if_pos hcond, Nat.add_sub_cancel_left, if_pos ⟨hon, htrain⟩]
  obtain ⟨t, ht, -, -, -, hmem, hstack⟩ := lowLeft_shows heq
  refine ⟨t, ht, ?_, ?_⟩
  · rw [hstack, (rated_reevaluate _).stack, stack_modStack]
    rfl
  · rw [hmem, (rated_reevaluate _).mem]
    exact trainStack_keeps s st

/-- Settles O50: joints under suspicion, phases and domains that stop, and domains that have moved. -/
theorem jointsAndDomainsFailOrMove : Obligations.JointsAndDomainsFailOrMove := by
  unfold Obligations.JointsAndDomainsFailOrMove
  refine ⟨jointSample_effect, joint_clears, phase_effect, fun s d => ⟨groupTrip_effect, stackTrip_effect⟩, stageTrip_effect, cgWave_effect,
    fun s d hd hdom => ⟨cgOn_effect hd hdom, cgOff_effect hd hdom, cgRetention_effect hd hdom⟩, stackOn_effect⟩

end Sys2Proof.Machine
end

section
/-!
SUPPORT. Starts that begin, and that fail (R438, R442 to R446, R529).
-/

namespace Sys2Proof.Machine
open Sys2Proof

/-! ### Trials of banks (R526 to R531) -/

/-- R529: the bank on trial, which of its trials runs, and the phase of the update. -/
def Fw.trialState (k : Fw) : Option Nat × Nat × Nat := (k.pending, k.trials, k.phase)

theorem Fw.written_eq (k : Fw) (old : UpdRecord) (now : Nat) : ∃ q o a, k.written old now = { k with recSeq := q, older := o, recAt := a } := by
  rw [Fw.written]
  split
  · exact ⟨_, _, _, rfl⟩
  · exact ⟨_, _, _, rfl⟩

/-- The firmware's state, but for the record that flash holds of it. -/
theorem modFw_eq (s : State) (f : Fw → Fw) : ∃ q o a, modFw s f = { s with fw := { f s.fw with recSeq := q, older := o, recAt := a } } := by
  obtain ⟨q, o, a, h⟩ := (f s.fw).written_eq s.fw.record s.now
  exact ⟨q, o, a, by rw [modFw, h]⟩

theorem trial_modFw (s : State) (f : Fw → Fw) : (modFw s f).fw.trialState = (f s.fw).trialState := by
  obtain ⟨q, o, a, h⟩ := modFw_eq s f
  rw [h]
  rfl

theorem trialOn_eq (s : State) : trialOn s = (s.fw.trialState.2.2 == 1 && s.fw.trialState.1.isSome) := rfl

theorem Logged.fw {s t : State} (h : Logged s t) : t.fw = s.fw := by rw [h]

theorem fw_fwEvent (s : State) (stage bank chk : Nat) :
    (fwEvent s stage bank chk).fw = (modFw s fun f => { f with last := some (stage, bank, chk, s.echoM) }).fw :=
  (logged_raiseRec _ _ _ _ _ _ _ _).fw

/-- R529: a trial that ends unconfirmed as its first leaves its second due. -/
theorem trialRecord_first {s : State} (hon : trialOn s = true) (hfirst : s.fw.trials ≤ 1) :
    (trialRecord s).fw.trialState = (s.fw.pending, 2, 1) ∧ (trialRecord s).fw.upd = s.fw.upd := by
  rw [trialOn, Bool.and_eq_true, beq_iff_eq] at hon
  obtain ⟨hphase, hsome⟩ := hon
  obtain ⟨b, hb⟩ := Option.isSome_iff_exists.1 hsome
  obtain ⟨q, o, a, hev⟩ := modFw_eq s fun f => { f with last := some (5, b, 0, s.echoM) }
  have hfw : (fwEvent s 5 b 0).fw = { s.fw with last := some (5, b, 0, s.echoM), recSeq := q, older := o, recAt := a } := by
    rw [fw_fwEvent, hev]
  rw [trialRecord, hb]
  dsimp only
  generalize fwEvent s 5 b 0 = u at hfw ⊢
  rw [if_pos (by rw [hfw]; exact hfirst)]
  obtain ⟨q', o', a', hmod⟩ := modFw_eq u fun f => { f with trials := 2, adminOk := false, healthy := false, tries := 0 }
  rw [hmod, hfw]
  exact ⟨by rw [Fw.trialState, ← hb, ← hphase], rfl⟩

/-! ### What a cold start leaves of a trial -/

theorem ActsEnd.fw {s t : State} (h : ActsEnd s t) : t.fw = s.fw := by rw [h]

theorem trial_closeSession (s : State) (sid : Nat) (why : CloseCause) : (closeSession s sid why).fw.trialState = s.fw.trialState := by
  rw [closeSession]
  split
  · rfl
  · next e _ =>
    refine (congrArg Fw.trialState (logged_raiseRec _ _ _ _ _ _ _ _).fw).trans ?_
    have hdrop : (if e.staging.isSome then dropImage { s with sessions := mdel s.sessions sid } e else { s with sessions := mdel s.sessions sid }).fw.trialState =
        s.fw.trialState := by
      split
      · rw [dropImage]
        split
        · rfl
        · split
          · exact trial_modFw _ _
          · rfl
      · rfl
    exact hdrop

theorem trial_closeSessions (s : State) (p : Session → Bool) (why : CloseCause) : (closeSessions s p why).fw.trialState = s.fw.trialState :=
  List.foldlRecOn (motive := fun t : State => t.fw.trialState = s.fw.trialState) _ _ rfl fun t ht x _ => (trial_closeSession t x.1 why).trans ht

theorem ResetBegins.fw {s t : State} (h : ResetBegins s t) : t.fw = s.fw := by rw [h.rest]

theorem pendCold_none {s : State} (h : s.fw.upd ≠ 5) : pendCold s = s := by
  rw [pendCold]
  split
  · exact if_neg h
  · rfl

theorem confirmRest_none {s : State} (h : s.fw.trialState.2.2 ≠ 2) : confirmRest s = s := by
  rw [confirmRest]
  split
  · rfl
  · exact if_pos h

/-- A cold start leaves a trial as it is. -/
theorem trial_coldRun_of {s : State} (hpend : pendCold s = s) (hphase : s.fw.trialState.2.2 ≠ 2) : (coldRun s).fw.trialState = s.fw.trialState := by
  unfold coldRun
  extract_lets s1 s2 s3 kept s4 s5 s6 s7 s8 s9 s10
  have h1 : s1.fw.trialState = s.fw.trialState := congrArg (fun t : State => t.fw.trialState) hpend
  clear_value s1
  have h2 : s2.fw.trialState = s.fw.trialState := (trial_closeSessions s1 _ _).trans h1
  clear_value s2
  have h3 : s3.fw.trialState = s.fw.trialState := (congrArg Fw.trialState (resetBegins_abortCheck s2).1.fw).trans h2
  clear_value s3
  have h4 : s4.fw.trialState = s.fw.trialState := h3
  clear_value s4
  have h5 : s5.fw.trialState = s.fw.trialState := h4
  clear_value s5
  have h6 : s6.fw.trialState = s.fw.trialState :=
    List.foldlRecOn (motive := fun t : State => t.fw.trialState = s.fw.trialState) _ _ h5 fun t ht p _ => ht
  clear_value s6
  have h7 : s7.fw.trialState = s.fw.trialState := h6
  clear_value s7
  have h8 : s8.fw.trialState = s.fw.trialState := h7
  clear_value s8
  have h9 : s9.fw.trialState = s.fw.trialState := by
    have hm : (modFw s8 fun f => if f.upd = 1 then { f with upd := 0 } else f).fw.trialState = s.fw.trialState := by
      rw [trial_modFw]
      split
      · exact h8
      · exact h8
    have hc : s9 = modFw s8 fun f => if f.upd = 1 then { f with upd := 0 } else f := confirmRest_none (by rw [hm]; exact hphase)
    rw [hc]
    exact hm
  clear_value s9
  have hfw : (setDev s10 .waking 1).fw = s10.fw := by rw [tells_setDev s10 .waking 1]
  rw [hfw]
  exact h9

theorem trial_coldRun {s : State} (hupd : s.fw.upd ≠ 5) (hphase : s.fw.trialState.2.2 ≠ 2) : (coldRun s).fw.trialState = s.fw.trialState :=
  trial_coldRun_of (pendCold_none hupd) hphase

/-! ### Starts that begin (R438, R443, R445) -/

/-- R443: a cold start at its first stage. -/
theorem coldRun_effect (s : State) : (coldRun s).dev = .waking ∧ (coldRun s).stage = 1 ∧
    ∃ t0, (coldRun s).wake.start = some ⟨false, t0, (coldRun s).survey.nextSeq⟩ := by
  obtain ⟨u, -, -, -, he⟩ := coldRun_eq s
  rw [he]
  have ht := tells_setDev (modWake u fun w => { w with start := some ⟨false, u.echoM, u.survey.nextSeq⟩, mgmt := false, thermal := false }) .waking 1
  refine ⟨ht.dev, ht.stage, u.echoM, ?_⟩
  rw [ht.wake_start, ht.survey]
  rfl

theorem echoM_resetAllCores (s : State) (clear : Bool) : (resetAllCores s clear).echoM = s.echoM := by
  rw [resetAllCores]
  exact (Loses.foldl (fun s g => loses_resetGroup s g clear) s (List.range 96)).echoM

theorem echoM_retireCands (s : State) (p : Option Nat → Bool) : (retireCands s p).echoM = s.echoM := by
  rw [retireCands]
  refine List.foldlRecOn (motive := fun t : State => t.echoM = s.echoM) _ _ rfl fun t ht st _ => ?_
  exact List.foldlRecOn (motive := fun u : State => u.echoM = s.echoM) _ _ ht fun u hu pg _ => hu

theorem echoM_setDeviceCause (s : State) (b : Bool) : (setDeviceCause s b).echoM = s.echoM := by
  rw [setDeviceCause_eq]

/-- R445: the device with no lock, channel or message of a core under reset. -/
def emptied (s : State) : State :=
  { s with locks := [], mchans := [], lockReplies := [], sends := s.sends.filter (fun x => !isOrphan x.path) }

theorem echoM_emptied (s : State) : (emptied s).echoM = s.echoM := rfl

/-- R445: no group under re-map. -/
def unmapped (s : State) : State := (List.range 96).foldl (fun s g => modGrp s g (fun k => { k with remap := none })) s

theorem echoM_unmapped (s : State) : (unmapped s).echoM = s.echoM := by
  rw [unmapped]
  exact List.foldlRecOn (motive := fun t : State => t.echoM = s.echoM) _ _ rfl fun t ht g _ => ht

/-- R445: the fields' routers and controllers as a reset leaves them. -/
def routersReset (s : State) : State :=
  (List.range 12).foldl (fun s n =>
    modField s n (fun k =>
      { k with
        miss := false
        paceRow := 7
        paceAt := none
        paceInterval := 16
        msh := { MeshF.reset with gen := k.msh.gen, ovl := k.msh.ovl, atRow3 := k.msh.atRow3 } })) s

theorem echoM_routersReset (s : State) : (routersReset s).echoM = s.echoM := by
  rw [routersReset]
  exact List.foldlRecOn (motive := fun t : State => t.echoM = s.echoM) _ _ rfl fun t ht n _ => ht

/-- R342: every stack that serves in self-refresh. -/
def refreshed (s : State) : State := (List.range 16).foldl (fun s i => modStack s i (fun k => { k with sref := k.st == .ready })) s

theorem echoM_refreshed (s : State) : (refreshed s).echoM = s.echoM := by
  rw [refreshed]
  exact List.foldlRecOn (motive := fun t : State => t.echoM = s.echoM) _ _ rfl fun t ht i _ => ht

/-- What a warm start has reset as its first stage begins. -/
def warmReset (s : State) : State :=
  setDeviceCause (retireCands (refreshed (switchDue (routersReset (emptied (unmapped
    (resetAllCores (abortCheck (endLaunches s fun _ => true)) true)))))) fun _ => true) false

theorem echoM_warmReset (s : State) : (warmReset s).echoM = s.echoM := by
  have hlaunch : (endLaunches s fun _ => true).echoM = s.echoM := by rw [launchOnly_endLaunches s fun _ => true]
  have hcheck : (abortCheck (endLaunches s fun _ => true)).echoM = s.echoM := by
    rw [(resetBegins_abortCheck (endLaunches s fun _ => true)).1.rest]
    exact hlaunch
  rw [warmReset, echoM_setDeviceCause, echoM_retireCands, echoM_refreshed, (departs_switchDue _).echoM]
  have hdue : ∀ u : State, (modPwr u fun w => { w with offDue := [] }).echoM = u.echoM := fun _ => rfl
  rw [hdue, echoM_routersReset, echoM_emptied, echoM_unmapped, echoM_resetAllCores, hcheck]

/-- The state of a warm start in progress. -/
def inWarmStart (s : State) : State :=
  modWake s fun w => { w with start := some ⟨true, s.echoM, s.survey.nextSeq⟩, compute := false, drained := false, low := false, recoverDue := false }

theorem inWarmStart_effect (s : State) : (setDev (inWarmStart s) .waking 4).dev = .waking ∧ (setDev (inWarmStart s) .waking 4).stage = 4 ∧
    (setDev (inWarmStart s) .waking 4).wake.start = some ⟨true, s.echoM, (setDev (inWarmStart s) .waking 4).survey.nextSeq⟩ := by
  have ht := tells_setDev (inWarmStart s) .waking 4
  refine ⟨ht.dev, ht.stage, ?_⟩
  rw [ht.wake_start, ht.survey]
  rfl

theorem warmRun_eq (s : State) : warmRun s = setDev (inWarmStart (warmReset s)) .waking 4 := by
  unfold warmRun
  extract_lets s1 s2 s3 s4 src s5 s6 s7 s8 s9 s10
  have hreset : s9 = warmReset s := Eq.refl (warmReset s)
  exact congrArg (fun u => setDev (inWarmStart u) .waking 4) hreset

/-- R445: a warm start at its first stage. -/
theorem warmRun_effect (s : State) : (warmRun s).dev = .waking ∧ (warmRun s).stage = 4 ∧
    (warmRun s).wake.start = some ⟨true, s.echoM, (warmRun s).survey.nextSeq⟩ := by
  have h := inWarmStart_effect (warmReset s)
  rw [echoM_warmReset] at h
  rw [warmRun_eq]
  exact h

theorem exec_coldRst_short {s : State} {ns : Nat} (h : ns < 1000) :
    exec (.coldRstRelease ns) s = .next s ∧ exec (.warmRstRelease ns) s = .next s :=
  ⟨congrArg Host.Outcome.next (if_neg (by omega)), congrArg Host.Outcome.next (if_neg (by omega))⟩

/-- R438, R445: the starts that are asked for. -/
theorem starts_begin {s : State} {ns : Nat} (hns : 1000 ≤ ns) (hvin : s.pwr.vin = true) (hoff : s.dev ≠ .off) (hheld : s.dev ≠ .held) :
    (∃ t, exec (.coldRstRelease ns) s = .next t ∧ t.dev = .waking ∧ t.stage = 1 ∧
      t.wake.start = some ⟨false, s.echoM, t.survey.nextSeq⟩ ∧
      t.mem = [] ∧ ∀ c, t.core c = Core.reset) ∧
    (s.wake.start = none → s.wake.vinStayed = true → s.dev ≠ .standby → ∃ t, exec (.warmRstRelease ns) s = .next t ∧
      t.dev = .waking ∧ t.stage = 4 ∧ t.wake.start = some ⟨true, s.echoM, t.survey.nextSeq⟩) ∧
    (s.dev = .faulted → s.wake.recoverDue = true → cfgNum s 0x02 0x0009 0 1 = 1 → ∃ t, exec .autoRecover s = .next t ∧
      t.dev = .waking ∧ t.stage = 1 ∧ t.wake.start = some ⟨false, s.echoM, t.survey.nextSeq⟩) := by
  obtain ⟨h1, h2, h3, h4, h5⟩ := coldStart_effect hvin hoff hheld
  refine ⟨⟨coldStart s false, congrArg Host.Outcome.next (if_pos hns), h1, h2, h3, h5, fun c => core_of_nil h4 c⟩,
    fun hnone hstay hstandby => ?_, fun hdev hdue hcfg => ⟨coldStart s false, congrArg Host.Outcome.next (if_pos ⟨hdev, hdue, hcfg⟩), h1, h2, h3⟩⟩
  have hwarm : warmTurnsCold s = false := by
    rw [warmTurnsCold, hstay, beq_false_of_ne hstandby, beq_false_of_ne hoff, beq_false_of_ne hheld]
    rfl
  have hstart : warmStart s = warmRun s := by
    rw [warmStart, hnone, if_neg (by decide), hwarm, if_neg Bool.false_ne_true]
  have hexec : exec (.warmRstRelease ns) s = .next (warmRun s) := by
    rw [← hstart]
    exact congrArg Host.Outcome.next (if_pos hns)
  exact ⟨warmRun s, hexec, warmRun_effect s⟩

/-! ### Starts that fail (R442, R444, R446) -/

/-- What the record of a start that has ended leaves. -/
theorem recordStart_eq {s : State} {r : StartRun} (h : s.wake.start = some r) (failed : Bool) (stage : Nat) :
    ∃ l, recordStart s failed stage = modWake s fun w => { w with start := none, last := l } := by
  rw [recordStart, h]
  exact ⟨_, rfl⟩

theorem start_stopDeck (s : State) : (stopDeck s).wake.start = none := by
  rw [stopDeck]
  generalize hv : modPwr (loseRun (loseDie (closeMailboxes (abortCheck s)))) _ = v
  have hax := auxOnly_axFeed v
  have hend := actsEnd_leaveWaking (axFeed v) false
  rw [hend]
  dsimp only
  rw [hax, ← hv]
  rfl

theorem enterHeld_effect (s : State) : (enterHeld s).dev = .held ∧ (enterHeld s).wake.start = none := by
  rw [enterHeld]
  have hstart := start_stopDeck s
  generalize stopDeck s = u at hstart ⊢
  have hax := auxOnly_axFeed (modPwr u fun w => { w with vin := s.pwr.vin })
  generalize axFeed (modPwr u fun w => { w with vin := s.pwr.vin }) = v at hax ⊢
  have ht := tells_setDev v .held 0
  refine ⟨ht.dev, ?_⟩
  rw [ht.wake_start]
  change v.wake.start = none
  rw [hax]
  exact hstart

/-- R442, R444: a cold start with no trial fails. -/
theorem startFail_cold {s : State} {t0 : W64} {q : Nat} (hstart : s.wake.start = some ⟨false, t0, q⟩) (hno : trialOn s = false) (stage : Nat) :
    (startFail s stage).wake.start = none ∧ (startFail s stage).dev = if 2 ≤ s.wake.failedStarts then .held else .faulted := by
  obtain ⟨l, hrec⟩ := recordStart_eq hstart true stage
  have htrial : ¬ (trialOn (recordStart s true stage) = true ∧ ((false : Bool) = true ∨ (recordStart s true stage).fw.trialKind = 2)) := by
    rintro ⟨h, -⟩
    rw [hrec] at h
    change trialOn s = true at h
    rw [hno] at h
    cases h
  have hcount : (modWake (recordStart s true stage) fun w => { w with failedStarts := w.failedStarts + 1 }).wake.failedStarts = s.wake.failedStarts + 1 := by
    rw [hrec]
    rfl
  have hgone : (modWake (recordStart s true stage) fun w => { w with failedStarts := w.failedStarts + 1 }).wake.start = none := by
    rw [hrec]
    rfl
  rw [startFail, hstart]
  dsimp only
  rw [if_neg htrial, hno, Bool.false_and, if_neg Bool.false_ne_true]
  generalize modWake (recordStart s true stage) (fun w => { w with failedStarts := w.failedStarts + 1 }) = u at hcount hgone ⊢
  rw [hcount]
  by_cases h : 2 ≤ s.wake.failedStarts
  · rw [if_pos (by omega), if_pos h]
    exact (enterHeld_effect _).symm
  · rw [if_neg (by omega), if_neg h, if_neg Bool.false_ne_true, setDeviceCause_eq]
    have ht := tells_setDev u .faulted 0
    generalize setDev u .faulted 0 = v at ht ⊢
    generalize causeSet true v.parts = m
    have hend := actsEnd_leaveWaking { v with parts := m } false
    generalize leaveWaking { v with parts := m } false = x at hend ⊢
    have hx : x.wake.start = none ∧ x.dev = .faulted := by
      rw [hend]
      exact ⟨ht.wake_start.trans hgone, ht.dev⟩
    exact hx

/-- R446: a warm start with no trial that fails becomes a cold one. -/
theorem startFail_warm {s : State} {t0 : W64} {q : Nat} (hstart : s.wake.start = some ⟨true, t0, q⟩) (hno : trialOn s = false) (stage : Nat) :
    ∃ u, startFail s stage = coldRun u := by
  obtain ⟨l, hrec⟩ := recordStart_eq hstart true stage
  have htrial : ¬ (trialOn (recordStart s true stage) = true ∧ ((true : Bool) = true ∨ (recordStart s true stage).fw.trialKind = 2)) := by
    rintro ⟨h, -⟩
    rw [hrec] at h
    change trialOn s = true at h
    rw [hno] at h
    cases h
  refine ⟨recordStart s true stage, ?_⟩
  rw [startFail, hstart]
  dsimp only
  rw [if_neg htrial, if_pos rfl]

end Sys2Proof.Machine
end

section
/-!
SUPPORT. The stages of a cold start that bring up the deck, groups and stacks (Table 14.3).
-/

namespace Sys2Proof.Machine
open Sys2Proof

/-! ### Folds -/

/-- Of a list of steps, each but one leaves alone what `R` keeps: the state before that one, and after it. -/
theorem foldl_passes {σ β : Type} {step : σ → β → σ} {R : σ → σ → Prop} (hrefl : ∀ u, R u u) (htrans : ∀ {a b c}, R a b → R b c → R a c)
    {b : β} {l : List β} (hn : l.Nodup) (hb : b ∈ l) (hother : ∀ u x, x ∈ l → x ≠ b → R u (step u x)) (s : σ) :
    ∃ u, R s u ∧ R (step u b) (l.foldl step s) := by
  obtain ⟨l₁, l₂, rfl⟩ := List.append_of_mem hb
  obtain ⟨-, hn₂, hdis⟩ := List.nodup_append.1 hn
  have hall : ∀ (l : List β) (u : σ), (∀ x ∈ l, x ∈ l₁ ++ b :: l₂ ∧ x ≠ b) → R u (l.foldl step u) := fun l u h =>
    List.foldlRecOn (motive := fun v => R u v) l step (hrefl u) fun v hv x hx => htrans hv (hother v x (h x hx).1 (h x hx).2)
  rw [List.foldl_append, List.foldl_cons]
  refine ⟨_, hall l₁ s fun x hx => ⟨List.mem_append_left _ hx, hdis x hx b List.mem_cons_self⟩, hall l₂ _ fun x hx => ?_⟩
  refine ⟨List.mem_append_right _ (List.mem_cons_of_mem _ hx), ?_⟩
  rintro rfl
  exact (List.nodup_cons.1 hn₂).1 hx

/-! ### The stage in progress -/

theorem exec_coldStage {s : State} {t0 : W64} {q : Nat} (h : s.wake.start = some ⟨false, t0, q⟩) (o : StageOutcome) :
    exec (.coldStartStageEnd o) s = .next (coldStageEnd s s.stage o) := by
  have hstart : starting s false = true := by
    rw [starting, h]
    rfl
  exact congrArg Host.Outcome.next (if_pos hstart)

theorem domOf_toStage (s : State) (n d : Nat) : domOf (toStage s n) d = domOf s d := rfl

theorem grp_toStage (s : State) (n g : Nat) : (toStage s n).grp g = s.grp g := rfl

theorem stack_toStage (s : State) (n i : Nat) : (toStage s n).stack i = s.stack i := rfl

theorem stageFinds_none {s : State} {o : StageOutcome} (hd : o.defects = []) (hc : o.cleared = []) : stageFinds s o = s :=
  if_pos ⟨hd, hc⟩

/-- R531: a stage that comes up from the bank on trial, or with none on trial. -/
theorem otherBank_same {s : State} {b : Nat} (h : trialOn s = true → s.fw.pending = some b) (go : State → State) : otherBank s b go = go s :=
  if_neg fun hc => hc.2 (h hc.1)

/-- R439: stage 1 ends. -/
theorem stage1_effect {s : State} {t0 : W64} {q : Nat} {o : StageOutcome} {b : Nat} (hstart : s.wake.start = some ⟨false, t0, q⟩)
    (hstage : s.stage = 1) (hbank : o.bank = some b) (hb : b ∈ bankOrder s) (htrial : trialOn s = true → s.fw.pending = some b) :
    ∃ t, exec (.coldStartStageEnd o) s = .next t ∧ t.stage = 2 ∧ t.fw.runL = b ∧ t.mem = s.mem := by
  rw [exec_coldStage hstart, hstage, coldStageEnd, hbank]
  dsimp only
  rw [otherBank_same htrial, if_pos (List.contains_iff_mem.2 hb)]
  refine ⟨_, rfl, rfl, ?_, rfl⟩
  obtain ⟨q, o, a, h⟩ := modFw_eq s fun f => { f with runL := b, verL := none }
  rw [h]
  rfl

/-- R529, R531: a stage that comes up from another bank ends the first trial, and the second begins with a cold start. -/
theorem otherBank_effect {s : State} {t0 : W64} {q : Nat} {o : StageOutcome} {b : Nat} (hstart : s.wake.start = some ⟨false, t0, q⟩)
    (hstage : s.stage = 1 ∨ s.stage = 3) (hbank : o.bank = some b) (hon : trialOn s = true) (hpend : s.fw.pending ≠ some b)
    (htrials : s.fw.trials ≤ 1) (hupd : s.fw.upd ≠ 5) : ∃ t, exec (.coldStartStageEnd o) s = .next t ∧ t.dev = .waking ∧ t.stage = 1 ∧
      t.fw.trials = 2 ∧ t.fw.pending = s.fw.pending := by
  obtain ⟨htrial, hupd'⟩ := trialRecord_first hon htrials
  have hon' : trialOn (trialRecord s) = true := by
    rw [trialOn_eq, htrial]
    rw [trialOn, Bool.and_eq_true] at hon
    exact hon.2
  have hother : ∀ go, otherBank s b go = coldRun (trialRecord s) := fun go => by
    rw [otherBank, if_pos ⟨hon, hpend⟩]
    exact if_pos hon'
  have hrun : coldStageEnd s s.stage o = coldRun (trialRecord s) := by
    rcases hstage with h | h
    · rw [h, coldStageEnd, hbank]
      exact hother _
    · rw [h, coldStageEnd, hbank]
      exact hother _
  rw [exec_coldStage hstart, hrun]
  obtain ⟨h1, h2, -⟩ := coldRun_effect (trialRecord s)
  have h3 := trial_coldRun (s := trialRecord s) (hupd' ▸ hupd) (by rw [htrial]; exact (by decide : (1 : Nat) ≠ 2))
  rw [htrial] at h3
  exact ⟨_, rfl, h1, h2, congrArg (fun x => x.2.1) h3, congrArg (fun x => x.1) h3⟩

/-! ### Stage 2: the intermediate bus, the aux rail and the host dies -/

theorem doms_modAux (s : State) (c : Nat) (f : Aux → Aux) : (modAux s c f).pwr.doms = s.pwr.doms := rfl

theorem doms_auxUpdate (s : State) : (auxUpdate s).pwr.doms = s.pwr.doms := by
  rw [auxUpdate]
  refine List.foldlRecOn (motive := fun t : State => t.pwr.doms = s.pwr.doms) _ _ rfl fun t ht c _ => ?_
  dsimp only
  split
  · exact (doms_modAux t c _).trans ht
  · split
    · exact (doms_modAux t c _).trans ht
    · split
      · exact ht
      · exact (doms_modAux t c _).trans ht

theorem domOf_axFeed (s : State) {d : Nat} (h : d ≠ 135) : domOf (axFeed s) d = domOf s d := by
  rw [axFeed, domOf, doms_auxUpdate, ← domOf]
  split
  · rfl
  · exact domOf_setDom_ne s _ h

/-- R439: host die `h` as the deck comes up. -/
def deckOn (s : State) (h : Nat) : State :=
  if cfgNum s 0x70 0x0002 h 1 = 1 ∧ !domDefect s (132 + h) ∧ domOf s (132 + h) ≠ .tripped then setDom s (132 + h) .on else s

theorem stageDeck_eq (s : State) : stageDeck s = [0, 1].foldl deckOn s := rfl

/-- A domain, its defect and the configuration stand. -/
def DomKept (d : Nat) (s t : State) : Prop := domOf t d = domOf s d ∧ t.survey = s.survey ∧ t.cfg = s.cfg

theorem domKept_refl (d : Nat) (s : State) : DomKept d s s := ⟨rfl, rfl, rfl⟩

theorem DomKept.trans {d : Nat} {s t u : State} (h : DomKept d s t) (k : DomKept d t u) : DomKept d s u :=
  ⟨k.1.trans h.1, k.2.1.trans h.2.1, k.2.2.trans h.2.2⟩

theorem domDefect_congr {s t : State} (h : t.survey = s.survey) (d : Nat) : domDefect t d = domDefect s d := by
  rw [domDefect, liveSurvey, h, domDefect, liveSurvey]

theorem cfgNum_congr {s t : State} (h : t.cfg = s.cfg) (area idx inst dflt : Nat) : cfgNum t area idx inst dflt = cfgNum s area idx inst dflt := by
  rw [cfgNum, h, cfgNum]

theorem stage2_effect {s : State} {t0 : W64} {q : Nat} {o : StageOutcome} (hstart : s.wake.start = some ⟨false, t0, q⟩)
    (hstage : s.stage = 2) : ∃ t, exec (.coldStartStageEnd o) s = .next t ∧ t.stage = 3 ∧ ∀ h < 2, cfgNum s 0x70 0x0002 h 1 = 1 →
      domDefect s (132 + h) = false → domOf s (132 + h) ≠ .tripped → domOf t (132 + h) = .on := by
  rw [exec_coldStage hstart, hstage, coldStageEnd]
  have hax := auxOnly_axFeed (toStage (stageDeck s) 3)
  have hst : (axFeed (toStage (stageDeck s) 3)).stage = 3 := by
    rw [hax]
    rfl
  refine ⟨_, rfl, hst, fun h hh hcfg hdef htrip => ?_⟩
  rw [domOf_axFeed _ (by omega)]
  rw [domOf_toStage, stageDeck_eq]
  obtain ⟨u, ⟨hu1, hu2, hu3⟩, hend⟩ := foldl_passes (step := deckOn) (R := DomKept (132 + h)) (domKept_refl _) DomKept.trans (b := h)
    (l := [0, 1]) (by decide) (by rcases Nat.lt_or_ge h 1 with h1 | h1 <;> simp <;> omega) (fun u x _ hx => by
      rw [deckOn]
      split
      · exact ⟨domOf_setDom_ne u _ (by omega), rfl, rfl⟩
      · exact domKept_refl _ u) s
  rw [hend.1, deckOn, if_pos ⟨by rw [cfgNum_congr hu3, hcfg], by rw [domDefect_congr hu2, hdef]; rfl, by rw [hu1]; exact htrip⟩]
  exact domOf_setDom u _ _

/-! ### Stage 6: the groups -/

/-- R439: field `n` at its first STEP. -/
def stepOn (s : State) (n : Nat) : State :=
  if fieldOn s n then
    let step := min Config.nominalStep (phaseCap (livePhases s n))
    modField s n (fun k =>
      { k with
        step := step
        target := Config.nominalStep
        vcore := vcoreFor n step
        lk0 := true
        lk1 := false
        pll1 := false })
  else s

/-- R439: CG domain `g` as the groups come up. -/
def groupOn (s : State) (g : Nat) : State :=
  if cgMay s g then modGrp (setDom s g .on) g (fun k => { k with off := false })
  else modGrp s g (fun k => { k with off := true })

theorem stageGroups_eq (s : State) : stageGroups s = (List.range 96).foldl groupOn (applyAllBanks ((List.range 12).foldl stepOn s)) := rfl

/-- What decides whether a CG domain may be on stands. -/
structure MayKept (g : Nat) (s t : State) : Prop where
  dom : domOf t g = domOf s g
  fn : domOf t (96 + g / 8) = domOf s (96 + g / 8)
  survey : t.survey = s.survey
  live : (t.field (g / 8)).live = (s.field (g / 8)).live
  off : (t.grp g).off = (s.grp g).off

theorem MayKept.refl (g : Nat) (s : State) : MayKept g s s := ⟨rfl, rfl, rfl, rfl, rfl⟩

theorem MayKept.trans {g : Nat} {s t u : State} (h : MayKept g s t) (k : MayKept g t u) : MayKept g s u :=
  ⟨k.dom.trans h.dom, k.fn.trans h.fn, k.survey.trans h.survey, k.live.trans h.live, k.off.trans h.off⟩

theorem MayKept.cgMay {g : Nat} {s t : State} (h : MayKept g s t) : cgMay t g = cgMay s g := by
  rw [Machine.cgMay, fieldOn, domDefect_congr h.survey, h.dom, h.fn, livePhases, h.live, Machine.cgMay, fieldOn, livePhases]

theorem mayKept_stepOn (g n : Nat) (s : State) : MayKept g s (stepOn s n) := by
  rw [stepOn]
  split
  · refine ⟨rfl, rfl, rfl, ?_, rfl⟩
    by_cases h : g / 8 = n
    · rw [h, field_modField]
    · rw [field_modField_ne _ _ h]
  · exact .refl g s

theorem mayKept_applyBanks (g c : Nat) (s : State) : MayKept g s (applyBanks s c) := ⟨rfl, rfl, rfl, rfl, rfl⟩

theorem mayKept_applyAllBanks (g : Nat) (s : State) : MayKept g s (applyAllBanks s) := by
  rw [applyAllBanks]
  split
  · exact List.foldlRecOn (motive := fun t => MayKept g s t) _ _ (.refl g s) fun t ht c _ => ht.trans (mayKept_applyBanks g c t)
  · exact .refl g s

theorem mayKept_groupOn {g x : Nat} (hx : x < 96) (hne : x ≠ g) (s : State) : MayKept g s (groupOn s x) := by
  rw [groupOn]
  split
  · refine ⟨domOf_setDom_ne s _ (Ne.symm hne), domOf_setDom_ne s _ (by omega), rfl, rfl, ?_⟩
    rw [grp_modGrp_ne _ _ (Ne.symm hne)]
    rfl
  · refine ⟨rfl, rfl, rfl, rfl, ?_⟩
    rw [grp_modGrp_ne _ _ (Ne.symm hne)]

theorem stageGroups_effect (s : State) {g : Nat} (hg : g < 96) : (cgMay s g = true → domOf (stageGroups s) g = .on ∧ ((stageGroups s).grp g).off = false) ∧
    (cgMay s g = false → ((stageGroups s).grp g).off = true) := by
  have hfields := List.foldlRecOn (motive := fun t => MayKept g s t) (List.range 12) stepOn (.refl g s) fun t ht n _ => ht.trans (mayKept_stepOn g n t)
  have hbanks := hfields.trans (mayKept_applyAllBanks g _)
  rw [stageGroups_eq]
  generalize applyAllBanks ((List.range 12).foldl stepOn s) = a at hbanks ⊢
  obtain ⟨u, hu, hend⟩ := foldl_passes (step := groupOn) (R := MayKept g) (MayKept.refl g) MayKept.trans List.nodup_range (List.mem_range.2 hg)
    (fun u x hx hne => mayKept_groupOn (List.mem_range.1 hx) hne u) a
  have hmay : cgMay u g = cgMay s g := (hbanks.trans hu).cgMay
  rw [hend.dom, hend.off, groupOn, hmay]
  refine ⟨fun h => ?_, fun h => ?_⟩
  · rw [if_pos h, grp_modGrp]
    exact ⟨domOf_setDom u g _, rfl⟩
  · rw [if_neg (by rw [h]; exact Bool.false_ne_true), grp_modGrp]

theorem stage6_effect {s : State} {t0 : W64} {q : Nat} {o : StageOutcome} (hstart : s.wake.start = some ⟨false, t0, q⟩)
    (hd : o.defects = []) (hc : o.cleared = []) (hstage : s.stage = 6) : ∃ t, exec (.coldStartStageEnd o) s = .next t ∧ t.stage = 7 ∧ ∀ g < 96,
      (cgMay s g = true → domOf t g = .on ∧ (t.grp g).off = false) ∧ (cgMay s g = false → (t.grp g).off = true) := by
  rw [exec_coldStage hstart, hstage, coldStageEnd, stageFinds_none hd hc]
  refine ⟨_, rfl, rfl, fun g hg => ?_⟩
  rw [domOf_toStage, grp_toStage]
  exact stageGroups_effect s hg

/-! ### Stage 7: the stacks -/

/-- R343, R345, R348: stack `st` as memory comes up. -/
def memoryOn (warm : Bool) (s : State) (st : Nat) : State :=
  if domDefect s (116 + st) then
    modStack (setDom s (116 + st) .off) st (fun k => { k with st := .retired })
  else if domOf s (116 + st) == .on then
    modStack (trainStack s st warm) st (fun k =>
      scrubSet { k with st := .ready, sref := false, throttled := false, rate := cfgNum s 0x60 0x0002 0 rateDefault }
        (cfgNum s 0x60 0x0003 0 24))
  else s

theorem stageMemory_eq (s : State) (warm : Bool) : stageMemory s warm = (List.range 16).foldl (memoryOn warm) s := rfl

/-- What training leaves of a state. -/
theorem trainStack_eq (s : State) (st : Nat) (warm : Bool) : ∃ f m v, trainStack s st warm =
    { modStack s st (fun k => { k with train := v }) with fresh := f, mgmt := { s.mgmt with training := m } } := by
  cases warm
  · exact ⟨_, _, _, rfl⟩
  · exact ⟨_, _, _, rfl⟩

/-- What a stack comes up by stands. -/
def StackKept (st : Nat) (s t : State) : Prop := DomKept (116 + st) s t ∧ t.stack st = s.stack st

theorem StackKept.refl (st : Nat) (s : State) : StackKept st s s := ⟨domKept_refl _ s, rfl⟩

theorem StackKept.trans {st : Nat} {s t u : State} (h : StackKept st s t) (k : StackKept st t u) : StackKept st s u :=
  ⟨h.1.trans k.1, k.2.trans h.2⟩

theorem stackKept_memoryOn {st x : Nat} (hne : x ≠ st) (warm : Bool) (s : State) : StackKept st s (memoryOn warm s x) := by
  rw [memoryOn]
  split
  · refine ⟨⟨domOf_setDom_ne s _ (by omega), rfl, rfl⟩, ?_⟩
    rw [stack_modStack_ne _ _ (Ne.symm hne)]
    rfl
  · split
    · obtain ⟨f, m, v, h⟩ := trainStack_eq s x warm
      rw [h]
      refine ⟨⟨rfl, rfl, rfl⟩, ?_⟩
      rw [stack_modStack_ne _ _ (Ne.symm hne)]
      have hrest := stack_modStack_ne s (fun k : Stack => { k with train := v }) (Ne.symm hne)
      exact hrest
    · exact .refl st s

theorem stage7_effect {s : State} {t0 : W64} {q : Nat} {o : StageOutcome} (hstart : s.wake.start = some ⟨false, t0, q⟩)
    (hd : o.defects = []) (hc : o.cleared = []) (hstage : s.stage = 7) : ∃ t, exec (.coldStartStageEnd o) s = .next t ∧ t.stage = 8 ∧
      ∀ st < 16, domDefect s (116 + st) = false → domOf s (116 + st) = .on → (t.stack st).st = .ready ∧ (t.stack st).sref = false ∧
        (t.stack st).rate = cfgNum s 0x60 0x0002 0 rateDefault ∧
        (t.stack st).scrubEn = decide (cfgNum s 0x60 0x0003 0 24 ≠ 0) := by
  rw [exec_coldStage hstart, hstage, coldStageEnd, stageFinds_none hd hc]
  refine ⟨_, rfl, rfl, fun st hst hdef hon => ?_⟩
  rw [stack_toStage, stageMemory_eq]
  obtain ⟨u, ⟨⟨hu1, hu2, hu3⟩, -⟩, hend⟩ := foldl_passes (step := memoryOn false) (R := StackKept st) (StackKept.refl st) StackKept.trans
    List.nodup_range (List.mem_range.2 hst) (fun u x _ hne => stackKept_memoryOn hne false u) s
  rw [hend.2, memoryOn, domDefect_congr hu2, hdef, hu1, hon, if_neg Bool.false_ne_true, if_pos (by decide), stack_modStack, cfgNum_congr hu3, cfgNum_congr hu3]
  refine ⟨rfl, rfl, rfl, ?_⟩
  rw [scrubSet]
  by_cases h : cfgNum s 0x60 0x0003 0 24 = 0
  · rw [h]
    rfl
  · rw [decide_eq_true h]
    exact bne_iff_ne.2 h

end Sys2Proof.Machine
end

section
/-!
SUPPORT. Stage 4 of a cold start: fields and the dies at the edge (R410, R440; Table 14.3).
-/

namespace Sys2Proof.Machine
open Sys2Proof

/-! ### What ports leave of the power deck -/

theorem AtPort.pwr {p : Nat} {s t : State} (h : AtPort p s t) : t.pwr = s.pwr := by rw [h.1]

theorem pwr_foldl {α : Type} {step : State → α → State} (h : ∀ s a, (step s a).pwr = s.pwr) (s : State) (l : List α) : (l.foldl step s).pwr = s.pwr :=
  List.foldlRecOn (motive := fun t : State => t.pwr = s.pwr) _ _ rfl fun t ht a _ => (h t a).trans ht

theorem pwr_refusePkt (s : State) (k : LinkPkt) (st : Nat) : (refusePkt s k st).pwr = s.pwr := by rw [refusePkt_eq]

theorem pwr_setPortSt (s : State) (p : Nat) (x : PortState) : (setPortSt s p x).pwr = s.pwr := by
  rw [setPortSt]
  split
  · rfl
  · dsimp only
    exact (rated_reevaluate _).pwr.trans (logged_raiseRec (modPort s p _) _ _ _ _ _ _ _).tells.rated.pwr

theorem pwr_enqueuePkt (s : State) (p v : Nat) (x : TxPkt) : (enqueuePkt s p v x).pwr = s.pwr := by
  rw [enqueuePkt]
  refine (sends_txPump 300 _ p).1.pwr.trans ?_
  split
  · rfl
  · rfl

theorem pwr_ethSend (s : State) (b p : Nat) (k : LinkPkt) : (ethSend s b p k).pwr = s.pwr := by
  rw [ethSend]
  split
  · exact pwr_refusePkt s k 7
  · rfl

theorem pwr_sprayed (s : State) (b : Nat) (k : LinkPkt) : (sprayed s b k).pwr = s.pwr := by
  rw [sprayed]
  split <;> rfl

theorem pwr_useBundle (s : State) (l b : Nat) (planeB : Bool) (x : TxPkt) : (useBundle s l b planeB x).pwr = s.pwr := by
  rw [useBundle]
  split
  · exact pwr_refusePkt s _ 7
  · next p _ =>
    have hemit : (if x.inp < 5 ∧ p / 5 ≠ l then emit (sprayed s b x.pkt) (.transit l x.inp p x.pkt) else sprayed s b x.pkt).pwr = s.pwr := by
      split
      · exact pwr_sprayed s b x.pkt
      · exact pwr_sprayed s b x.pkt
    dsimp only
    generalize (if x.inp < 5 ∧ p / 5 ≠ l then emit (sprayed s b x.pkt) (.transit l x.inp p x.pkt) else sprayed s b x.pkt) = u at hemit ⊢
    split
    · split
      · exact hemit
      · exact (pwr_ethSend u b p x.pkt).trans hemit
    · exact (pwr_enqueuePkt u p _ x).trans hemit

theorem pwr_portLeave (s : State) (p : Nat) (x : PortState) : (portLeave s p x).pwr = s.pwr := by
  rw [portLeave]
  dsimp only
  split
  · rfl
  · refine (pwr_foldl (fun s q => ?_) _ _).trans ((pwr_setPortSt _ p x).trans (pwr_foldl (fun s q => pwr_refusePkt s q 7) _ _))
    split
    · exact pwr_useBundle s _ _ _ _
    · exact pwr_refusePkt s _ 7

theorem pwr_startTraining (s : State) (p : Nat) : (startTraining s p).pwr = s.pwr := by
  rw [startTraining]
  split
  · exact pwr_portLeave (freeSpares s p) p .training
  · exact pwr_portLeave s p .disabled

theorem departs_startTraining (s : State) (p : Nat) : Departs s (startTraining s p) := by
  rw [startTraining]
  split
  · exact Departs.trans (t := freeSpares s p) (.of_rest rfl) (departs_portLeave _ p _)
  · exact departs_portLeave s p _

/-! ### Defects that a start finds (R45) -/

theorem liveOf_of_filter {e : SurveyEntry} {l : List SurveyEntry} {p : SurveyEntry → Bool} (hp : ∀ x ∈ l, cancels e x = true → p x = true)
    (h : e ∈ liveOf (l.filter p)) : e ∈ liveOf l := by
  induction l with
  | nil => exact h
  | cons x l ih =>
    have hp' : ∀ y ∈ l, cancels e y = true → p y = true := fun y hy => hp y (List.mem_cons_of_mem _ hy)
    by_cases hx : p x = true
    · rw [List.filter_cons_of_pos hx, liveOf] at h
      rw [liveOf]
      by_cases hc : (x.revoke || l.any (cancels x)) = true
      · rw [if_pos hc]
        refine ih hp' ?_
        split at h
        · exact h
        · next hn =>
          rcases List.mem_cons.1 h with rfl | h
          · rw [Bool.not_eq_true, Bool.or_eq_false_iff] at hn
            rw [hn.1, Bool.false_or] at hc
            obtain ⟨y, hy, hcy⟩ := List.any_eq_true.1 hc
            have := List.any_eq_false.1 hn.2 y (List.mem_filter.2 ⟨hy, hp' y hy hcy⟩)
            exact absurd hcy this
          · exact h
      · rw [if_neg hc]
        split at h
        · exact List.mem_cons_of_mem _ (ih hp' h)
        · rcases List.mem_cons.1 h with rfl | h
          · exact List.mem_cons_self
          · exact List.mem_cons_of_mem _ (ih hp' h)
    · rw [List.filter_cons_of_neg hx] at h
      rw [liveOf]
      split
      · exact ih hp' h
      · exact List.mem_cons_of_mem _ (ih hp' h)

/-- R43: what is live after an entry was so before it, or is of its defect. -/
theorem live_surveyPut {s : State} {ty source : Nat} {prov : Bool} {loc : Bytes} {e : SurveyEntry}
    (he : e ∈ liveSurvey (surveyPut s ty source false prov loc)) : e ∈ liveSurvey s ∨ (e.type_ = ty ∧ e.loc = padTo 12 loc) := by
  by_cases hkey : e.type_ = ty ∧ e.loc = padTo 12 loc
  · exact .inr hkey
  · refine .inl ?_
    cases hm : s.wake.mgmt with
    | true =>
      rw [surveyPut_waits s ty source false prov loc hm] at he
      exact he
    | false =>
      obtain ⟨x, hx, hlive⟩ := surveyPut_live s ty source false prov loc hm
      have hty : x.type_ = ty := by rw [hx]; rfl
      have hloc : x.loc = padTo 12 loc := by rw [hx]; rfl
      have hne : e ≠ x := fun h => hkey ⟨h ▸ hty, h ▸ hloc⟩
      have hnot : e ∉ liveOf [x] := fun h => hne (List.mem_singleton.1 (liveOf_mem h).1)
      have hs : liveSurvey s = liveOf ((makeRoom s).survey.entries ++ s.survey.ram) := ((makeRoom_live s).2 _).symm
      have hkeep : ∀ y ∈ s.survey.ram, cancels e y = true → (!(y.type_ == x.type_ && y.loc == x.loc)) = true := fun y _ hc => by
        rw [cancels, Bool.and_assoc, Bool.and_eq_true, Bool.and_eq_true, beq_iff_eq, beq_iff_eq] at hc
        obtain ⟨-, hyt, hyl⟩ := hc
        rw [Bool.not_eq_true', Bool.and_eq_false_imp, beq_iff_eq, beq_eq_false_iff_ne]
        exact fun h1 h2 => hkey ⟨hyt.symm.trans (h1.trans hty), hyl.symm.trans (h2.trans hloc)⟩
      rw [hs]
      rcases hlive with hlive | hlive
      · rw [hlive, mem_liveOf_append] at he
        rcases he with ⟨he, hc⟩ | he
        · refine mem_liveOf_append.2 (.inl ⟨((mem_liveOf_append.1 he).resolve_right hnot).1, ?_⟩)
          rw [List.any_eq_false] at hc ⊢
          exact fun y hy hcy => hc y (List.mem_filter.2 ⟨hy, hkeep y hy hcy⟩) hcy
        · exact mem_liveOf_append.2 (.inr (liveOf_of_filter hkeep he))
      · rw [hlive, ← List.append_assoc] at he
        exact ((mem_liveOf_append.1 he).resolve_right hnot).1

theorem startFinds_cases (s : State) (ty : Nat) (loc : Bytes) :
    (∃ prov, startFinds s ty loc = surveyPut s ty 1 false prov loc) ∨ startFinds s ty loc = s := by
  rw [startFinds]
  split_ifs
  · exact .inl ⟨true, rfl⟩
  · exact .inl ⟨false, rfl⟩
  · exact .inr rfl

theorem live_startFinds {s : State} {ty : Nat} {loc : Bytes} {e : SurveyEntry} (he : e ∈ liveSurvey (startFinds s ty loc)) :
    e ∈ liveSurvey s ∨ (e.type_ = ty ∧ e.loc = padTo 12 loc) := by
  rcases startFinds_cases s ty loc with ⟨prov, h⟩ | h
  · rw [h] at he
    exact live_surveyPut he
  · rw [h] at he
    exact .inl he

theorem found_startFinds (s : State) (ty : Nat) (loc : Bytes) : Found s (startFinds s ty loc) := by
  rcases startFinds_cases s ty loc with ⟨prov, h⟩ | h
  · rw [h]
    exact found_surveyPut s ty 1 false prov loc
  · rw [h]
    exact .refl s

/-! ### The fields come up, or fail (R410, R440) -/

/-- Field `n`, as the fields come up. -/
def fieldUp (bad : List Nat) (s : State) (n : Nat) : State :=
  if bad.contains n || domDefect s (96 + n) || domOf s (96 + n) == .tripped || noFieldRouter s n then fnFails s n
  else
    modField (setDom s (96 + n) .on) n (fun k =>
      { k with
        echo := s.echoM
        beacons := 3
        ehold := false })

/-- What a field comes up by stands, and no defect of its network has been found. -/
structure FieldKept (n : Nat) (s t : State) : Prop where
  dom : domOf t (96 + n) = domOf s (96 + n)
  defect : domDefect t (96 + n) = true → domDefect s (96 + n) = true
  routers : ∀ g, (t.grp g).rdead = (s.grp g).rdead
  echo : (t.field n).echo = (s.field n).echo
  echoM : t.echoM = s.echoM

theorem FieldKept.refl (n : Nat) (s : State) : FieldKept n s s := ⟨rfl, id, fun _ => rfl, rfl, rfl⟩

theorem FieldKept.trans {n : Nat} {s t u : State} (h : FieldKept n s t) (k : FieldKept n t u) : FieldKept n s u :=
  ⟨k.dom.trans h.dom, h.defect ∘ k.defect, fun g => (k.routers g).trans (h.routers g), k.echo.trans h.echo, k.echoM.trans h.echoM⟩

theorem FieldKept.noFieldRouter {n : Nat} {s t : State} (h : FieldKept n s t) (m : Nat) : noFieldRouter t m = noFieldRouter s m := by
  rw [Machine.noFieldRouter, routerDead, routerDead, h.routers, h.routers, Machine.noFieldRouter, routerDead, routerDead]

/-- R410: the groups of a field whose network is gone. -/
def groupsOut (s : State) (n : Nat) : State :=
  (List.range 8).foldl (fun s row =>
    modGrp s (8 * n + row) (fun k =>
      { k with
        off := true
        lost := true })) s

theorem fieldKept_groupsOut (n x : Nat) (s : State) : FieldKept n s (groupsOut s x) ∧ domOf (groupsOut s x) = domOf s := by
  refine List.foldlRecOn (motive := fun t => FieldKept n s t ∧ domOf t = domOf s) _ _ ⟨.refl n s, rfl⟩ fun t ht row _ => ?_
  refine ⟨ht.1.trans ⟨rfl, id, fun g => ?_, rfl, rfl⟩, ht.2⟩
  by_cases hg : g = 8 * x + row
  · rw [hg, grp_modGrp]
  · rw [grp_modGrp_ne _ _ hg]

/-- The DOMAIN entry and the error of a field whose network fails. -/
def fnRecorded (s : State) (n : Nat) : State :=
  raiseErr (startFinds (setDom s (96 + n) .tripped) 7 (natBytes 2 (96 + n))) 0x0010 7 (96 + n) none
    (startFinds (setDom s (96 + n) .tripped) 7 (natBytes 2 (96 + n))).echoM []

theorem fnFails_eq (s : State) (n : Nat) : fnFails s n = groupsOut (fnRecorded s n) n := rfl

theorem found_fnRecorded (s : State) (n : Nat) : Found (setDom s (96 + n) .tripped) (fnRecorded s n) := by
  rw [fnRecorded]
  have h := found_startFinds (setDom s (96 + n) .tripped) 7 (natBytes 2 (96 + n))
  generalize startFinds (setDom s (96 + n) .tripped) 7 (natBytes 2 (96 + n)) = u at h ⊢
  exact h.trans (logged_raiseErr (by decide) u 7 (96 + n) none u.echoM []).found

theorem domDefect_fnRecorded {s : State} {n x : Nat} (hx : x < 12) (hne : x ≠ n) (h : domDefect (fnRecorded s x) (96 + n) = true) :
    domDefect s (96 + n) = true := by
  have hloc : ∀ x < 12, leAt (padTo 12 (natBytes 2 (96 + x))) 0 2 = 96 + x := by decide
  rw [fnRecorded] at h
  have hsurvey := (logged_raiseErr (code := 0x0010) (by decide) (startFinds (setDom s (96 + x) .tripped) 7 (natBytes 2 (96 + x))) 7 (96 + x) none
    (startFinds (setDom s (96 + x) .tripped) 7 (natBytes 2 (96 + x))).echoM []).survey
  rw [domDefect_congr hsurvey, domDefect, List.any_eq_true] at h
  obtain ⟨e, he, hd⟩ := h
  rw [domDefect, List.any_eq_true]
  refine ⟨e, (live_startFinds he).resolve_right ?_, hd⟩
  rintro ⟨-, hl⟩
  rw [Bool.and_eq_true, beq_iff_eq, beq_iff_eq, hl, hloc x hx] at hd
  omega

theorem fieldKept_fieldUp {n x : Nat} (hx : x < 12) (hne : x ≠ n) (bad : List Nat) (s : State) : FieldKept n s (fieldUp bad s x) := by
  rw [fieldUp]
  split
  · rw [fnFails_eq]
    refine FieldKept.trans ?_ (fieldKept_groupsOut n x _).1
    have hfound := found_fnRecorded s x
    refine ⟨?_, domDefect_fnRecorded hx hne, fun g => ?_, ?_, ?_⟩
    · rw [domOf, hfound.pwr, ← domOf]
      exact domOf_setDom_ne s _ (by omega)
    · rw [State.grp, hfound.groups]
      rfl
    · rw [State.field, hfound.fields]
      rfl
    · rw [hfound]
      rfl
  · refine ⟨domOf_setDom_ne s _ (by omega), id, fun _ => rfl, ?_, rfl⟩
    rw [field_modField_ne _ _ (Ne.symm hne)]
    rfl

theorem fieldUp_fails {s : State} {n : Nat} {bad : List Nat} (h : noFieldRouter s n = true) : domOf (fieldUp bad s n) (96 + n) = .tripped := by
  rw [fieldUp, h, Bool.or_true, if_pos rfl, fnFails_eq, (fieldKept_groupsOut n n _).2, domOf, (found_fnRecorded s n).pwr, ← domOf, domOf_setDom]

theorem fieldUp_on {s : State} {n : Nat} {bad : List Nat} (hbad : n ∉ bad) (hr : noFieldRouter s n = false) (hd : domDefect s (96 + n) = false)
    (ht : domOf s (96 + n) ≠ .tripped) : domOf (fieldUp bad s n) (96 + n) = .on ∧ ((fieldUp bad s n).field n).echo = s.echoM := by
  have hcontains : bad.contains n = false := by
    rw [← Bool.not_eq_true, List.contains_iff_mem]
    exact hbad
  have hup : fieldUp bad s n = modField (setDom s (96 + n) .on) n (fun k => { k with echo := s.echoM, beacons := 3, ehold := false }) := by
    rw [fieldUp, hr, hd, hcontains, beq_false_of_ne ht]
    rfl
  rw [hup, field_modField]
  exact ⟨domOf_setDom s _ _, rfl⟩

/-! ### The rest of stage 4 -/

/-- The network of a field and its Echo time stand. -/
def FnKept (n : Nat) (s t : State) : Prop := domOf t (96 + n) = domOf s (96 + n) ∧ (t.field n).echo = (s.field n).echo

theorem fnKept_refl (n : Nat) (s : State) : FnKept n s s := ⟨rfl, rfl⟩

theorem FnKept.trans {n : Nat} {s t u : State} (h : FnKept n s t) (k : FnKept n t u) : FnKept n s u := ⟨k.1.trans h.1, k.2.trans h.2⟩

theorem Departs.echo {s t : State} (h : Departs s t) (n : Nat) : (t.field n).echo = (s.field n).echo := by rw [h.field]

/-- R440: the routes of a start, and the device's ID. -/
def routesUp (s : State) : State :=
  let s := { s with devId := cfgNum s 0x50 0x0001 0 0 }
  let rt := routeNext s
  modLinks s (fun l =>
    { l with
      epoch := 0
      prev := false
      rt0 := rt
      rt1 := []
      rtx := []
      epx := []
      advancing := false })

/-- R410: a host die without its edge routers is off. -/
def hostHeld (s : State) (die : Nat) : State := if edgeLost s die then dieLeave s (dieDomain die) .off else s

/-- R440: a stack or link die that has its edge routers comes up. -/
def dieUp (s : State) (die : Nat) : State :=
  if domDefect s (dieDomain die) || domOf s (dieDomain die) == .tripped || edgeLost s die then s else setDom s (dieDomain die) .on

/-- R287: a port begins its training under its configuration. -/
def portBegins (s : State) (p : Nat) : State := startTraining (portConfig s p) p

theorem stageFields_eq (s : State) (bad : List Nat) : stageFields s bad =
    (List.range 40).foldl portBegins ((List.range 24).foldl dieUp ([24, 25].foldl hostHeld (routesUp ((List.range 12).foldl (fieldUp bad) s)))) := rfl

theorem routesUp_only (s : State) : ∃ d l, routesUp s = { s with devId := d, links := l } := ⟨_, _, rfl⟩

theorem fnKept_routesUp (n : Nat) (s : State) : FnKept n s (routesUp s) := by
  obtain ⟨d, l, h⟩ := routesUp_only s
  rw [h]
  exact ⟨rfl, rfl⟩

theorem pwr_closeMailbox (s : State) (h f : Nat) : (closeMailbox s h f).pwr = s.pwr := by
  rw [closeMailbox]
  exact pwr_of_view (runView_closeSessions s (fun e => e.tr = .mbx h f) .flr)

theorem domOf_hdOff (s : State) (h : Nat) (x : DomSt) {d : Nat} (hd : d ≠ 132 + h) : domOf (hdOff s h x) d = domOf s d := by
  rw [hdOff, (rated_reevaluate _).domOf]
  have hpwr : ∀ u : State, ((List.range 17).foldl (fun s f => closeMailbox s h f) u).pwr = u.pwr := fun u =>
    pwr_foldl (fun s f => pwr_closeMailbox s h f) u (List.range 17)
  have hhost : ∀ (u : State) (f : HostDie → HostDie), domOf (modHost u h f) d = domOf u d := fun _ _ => rfl
  rw [domOf, hpwr, ← domOf, hhost, domOf_setDom_ne s _ hd]

theorem fnKept_hostHeld {n : Nat} (hn : n < 12) {die : Nat} (hdie : die = 24 ∨ die = 25) (s : State) : FnKept n s (hostHeld s die) := by
  rw [hostHeld]
  split
  · refine ⟨?_, (departs_dieLeave s _ .off).echo n⟩
    have hdom : dieDomain die = 108 + die := by
      rw [dieDomain, if_neg (by omega), if_neg (by omega)]
    rw [hdom, dieLeave, if_neg (by omega), if_neg (by omega)]
    exact domOf_hdOff s _ .off (by omega)
  · exact fnKept_refl n s

theorem fnKept_dieUp {n die : Nat} (hn : n < 12) (hdie : die < 24) (s : State) : FnKept n s (dieUp s die) := by
  have hdom : 96 + n ≠ dieDomain die := by
    rw [dieDomain]
    split
    · omega
    · omega
  rw [dieUp]
  split
  · exact fnKept_refl n s
  · exact ⟨domOf_setDom_ne s _ hdom, rfl⟩

theorem fnKept_portBegins (n p : Nat) (s : State) : FnKept n s (portBegins s p) := by
  refine ⟨?_, (departs_startTraining (portConfig s p) p).echo n⟩
  rw [portBegins, domOf, pwr_startTraining]
  rfl

theorem fnKept_foldl {n : Nat} {step : State → Nat → State} {l : List Nat} (h : ∀ x ∈ l, ∀ s, FnKept n s (step s x)) (s : State) :
    FnKept n s (l.foldl step s) :=
  List.foldlRecOn (motive := fun t => FnKept n s t) _ _ (fnKept_refl n s) fun t ht x hx => ht.trans (h x hx t)

/-- R410, R440: the fields as stage 4 ends. -/
theorem stageFields_effect (s : State) (bad : List Nat) {n : Nat} (hn : n < 12) :
    (noFieldRouter s n = true → domOf (stageFields s bad) (96 + n) = .tripped) ∧
    (n ∉ bad → noFieldRouter s n = false → domDefect s (96 + n) = false → domOf s (96 + n) ≠ .tripped →
      domOf (stageFields s bad) (96 + n) = .on ∧ ((stageFields s bad).field n).echo = s.echoM) := by
  obtain ⟨u, hu, hend⟩ := foldl_passes (step := fieldUp bad) (R := FieldKept n) (FieldKept.refl n) FieldKept.trans List.nodup_range
    (List.mem_range.2 hn) (fun u x hx hne => fieldKept_fieldUp (List.mem_range.1 hx) hne bad u) s
  have h1 := fnKept_routesUp n ((List.range 12).foldl (fieldUp bad) s)
  have h2 := fnKept_foldl (n := n) (step := hostHeld) (l := [24, 25]) (fun x hx s => fnKept_hostHeld hn (by simpa using hx) s)
    (routesUp ((List.range 12).foldl (fieldUp bad) s))
  have h3 := fnKept_foldl (n := n) (step := dieUp) (l := List.range 24) (fun x hx s => fnKept_dieUp hn (List.mem_range.1 hx) s)
    ([24, 25].foldl hostHeld (routesUp ((List.range 12).foldl (fieldUp bad) s)))
  have h4 := fnKept_foldl (n := n) (step := portBegins) (l := List.range 40) (fun x _ s => fnKept_portBegins n x s)
    ((List.range 24).foldl dieUp ([24, 25].foldl hostHeld (routesUp ((List.range 12).foldl (fieldUp bad) s))))
  have hrest := h1.trans (h2.trans (h3.trans h4))
  rw [stageFields_eq, hrest.1, hrest.2, hend.dom, hend.echo]
  refine ⟨fun h => fieldUp_fails (by rw [hu.noFieldRouter, h]), fun hbad hr hd ht => ?_⟩
  have hdef : domDefect u (96 + n) = false := by
    rw [← Bool.not_eq_true] at hd ⊢
    exact fun h => hd (hu.defect h)
  have hup := fieldUp_on (bad := bad) hbad (by rw [hu.noFieldRouter, hr]) hdef (by rw [hu.dom]; exact ht)
  rw [hu.echoM] at hup
  exact hup

theorem field_toStage (s : State) (n i : Nat) : (toStage s n).field i = s.field i := rfl

theorem stage4_effect {s : State} {t0 : W64} {q : Nat} {o : StageOutcome} (hstart : s.wake.start = some ⟨false, t0, q⟩)
    (hstage : s.stage = 4) : ∃ t, exec (.coldStartStageEnd o) s = .next t ∧ t.stage = 5 ∧ ∀ n < 12,
      (noFieldRouter s n = true → domOf t (96 + n) = .tripped) ∧
      (n ∉ o.fnFailed → noFieldRouter s n = false → domDefect s (96 + n) = false → domOf s (96 + n) ≠ .tripped →
        domOf t (96 + n) = .on ∧ (t.field n).echo = s.echoM) := by
  rw [exec_coldStage hstart, hstage, coldStageEnd]
  refine ⟨_, rfl, rfl, fun n hn => ?_⟩
  rw [domOf_toStage, field_toStage]
  exact stageFields_effect s o.fnFailed hn

end Sys2Proof.Machine
end

section
/-!
SUPPORT. The last stage of a start, and the stages of a warm one (Table 14.3).
-/

namespace Sys2Proof.Machine
open Sys2Proof

/-! ### Partitions and allocations settle (R442) -/

/-- Of `s`, `t` changes what allocations and releases change, at most: of groups, their partition and their reset alone. -/
structure Settling (s t : State) : Prop where
  rest : t = { s with
    mem := t.mem
    marks := t.marks
    cores := t.cores
    fields := t.fields
    groups := t.groups
    parts := t.parts
    hbmOwner := t.hbmOwner
    chanOwner := t.chanOwner
    lockOwner := t.lockOwner }
  grp : ∀ g, t.grp g = { s.grp g with part := (t.grp g).part, rst := (t.grp g).rst }

theorem Settling.refl (s : State) : Settling s s := ⟨rfl, fun _ => rfl⟩

theorem Settling.trans {s t u : State} (h : Settling s t) (k : Settling t u) : Settling s u := by
  refine ⟨?_, fun g => ?_⟩
  · rw [k.rest, h.rest]
  · rw [k.grp, h.grp]

theorem Settling.foldl {α : Type} {step : State → α → State} (h : ∀ s a, Settling s (step s a)) (s : State) (l : List α) :
    Settling s (l.foldl step s) :=
  List.foldlRecOn (motive := fun t => Settling s t) l step (.refl s) fun t ht a _ => ht.trans (h t a)

/-- Only what no group shows differs. -/
theorem Settling.of_rest {s t : State} (h : t = { s with
    mem := t.mem
    marks := t.marks
    cores := t.cores
    fields := t.fields
    parts := t.parts
    hbmOwner := t.hbmOwner
    chanOwner := t.chanOwner
    lockOwner := t.lockOwner }) : Settling s t := by
  refine ⟨?_, fun g => ?_⟩
  · rw [h]
  · rw [h]
    rfl

theorem settling_modGrp (s : State) (g : Nat) {f : Group → Group} (hf : f (s.grp g) = { s.grp g with part := (f (s.grp g)).part, rst := (f (s.grp g)).rst }) :
    Settling s (modGrp s g f) := by
  refine ⟨rfl, fun x => ?_⟩
  by_cases hx : x = g
  · rw [hx, grp_modGrp]
    exact hf
  · rw [grp_modGrp_ne _ _ hx]

section

variable {s t : State} (h : Settling s t)

include h

theorem Settling.grpPresent (g : Nat) : grpPresent t g = grpPresent s g := by
  rw [Machine.grpPresent, h.grp, Machine.grpPresent]
  rfl

theorem Settling.serviceable : serviceable t = serviceable s := by
  have hpwr : t.pwr = s.pwr := by rw [h.rest]
  rw [Machine.serviceable, hostPath, domOf, domOf, hpwr, funext h.grpPresent, Machine.serviceable, hostPath, domOf, domOf]

end

/-- The partitions whose resets are over. -/
def partsSettled (s : State) : Map Part :=
  (List.range 16).foldl (fun m p => mset m p { mget Part.reset m p with
      resetting := false
      spread := cfgNum s 0x40 0x0041 p 0 == 1
      units := allocBits s 0x0040 768 p
      chansDue := []
      locksDue := [] }) s.parts

theorem resetting_partsSettled (s : State) {p : Nat} (hp : p < 16) : (mget Part.reset (partsSettled s) p).resetting = false :=
  foldl_at (step := fun (m : Map Part) p => mset m p { mget Part.reset m p with
      resetting := false
      spread := cfgNum s 0x40 0x0041 p 0 == 1
      units := allocBits s 0x0040 768 p
      chansDue := []
      locksDue := [] })
    (get := fun m p => (mget Part.reset m p).resetting) (g := fun _ _ => false) (fun u n => by rw [mget_mset])
    (fun u n m hm => by rw [mget_mset_ne _ _ _ hm]) List.nodup_range s.parts (List.mem_range.2 hp)

/-- Units that leave their owner are zeroed. -/
def unitsZeroed (s : State) : State :=
  (List.range 768).foldl (fun s u =>
    if (unitOwner s u).isSome ∧ unitOwner s u ≠ wantedBy (wantsUnit s) u then zeroUnit s u else s) s

/-- Every group joins the partition that is set for it. -/
def groupsJoined (s : State) : State :=
  (List.range 96).foldl (fun s g => modGrp s g (fun k => { k with part := wantedBy (wantsGroup s) g })) s

/-- The owners of units, channels and locks, and the partitions, settle. -/
def ownersSettled (s : State) : State :=
  { s with
    hbmOwner := (List.range 768).map (fun u => (u, wantedBy (wantsUnit s) u))
    chanOwner := (List.range 64).map (fun b => (b, wantedBy (wantsChans s) b))
    lockOwner := (List.range 192).map (fun b => (b, wantedBy (wantsLocks s) b))
    parts := partsSettled s }

theorem applyAllocs_eq (s : State) : applyAllocs s = ownersSettled (groupsJoined (unitsZeroed s)) := rfl

theorem settling_unitsZeroed (s : State) : Settling s (unitsZeroed s) := by
  refine Settling.foldl (fun s u => ?_) _ _
  split
  · exact .of_rest rfl
  · exact .refl s

theorem settling_groupsJoined (s : State) : Settling s (groupsJoined s) := Settling.foldl (fun s g => settling_modGrp s g rfl) _ _

theorem ownersSettled_only (s : State) : ∃ a b c, ownersSettled s = { s with hbmOwner := a, chanOwner := b, lockOwner := c, parts := partsSettled s } :=
  ⟨_, _, _, rfl⟩

theorem settling_owners (s : State) (a : Map (Option Nat)) (b : Map (Option Nat)) (c : Map (Option Nat)) (m : Map Part) :
    Settling s { s with hbmOwner := a, chanOwner := b, lockOwner := c, parts := m } := .of_rest rfl

theorem ownersSettled_effect (s : State) : Settling s (ownersSettled s) ∧ ∀ p < 16, ((ownersSettled s).part p).resetting = false := by
  obtain ⟨a, b, c, h⟩ := ownersSettled_only s
  rw [h]
  refine ⟨settling_owners s a b c _, fun p hp => ?_⟩
  have hpart : ∀ m : Map Part, ({ s with hbmOwner := a, chanOwner := b, lockOwner := c, parts := m } : State).part p = mget Part.reset m p := fun _ => rfl
  rw [hpart, resetting_partsSettled s hp]

theorem applyAllocs_effect (s : State) : Settling s (applyAllocs s) ∧ ∀ p < 16, ((applyAllocs s).part p).resetting = false := by
  obtain ⟨h, hreset⟩ := ownersSettled_effect (groupsJoined (unitsZeroed s))
  rw [applyAllocs_eq]
  exact ⟨((settling_unitsZeroed s).trans (settling_groupsJoined (unitsZeroed s))).trans h, hreset⟩

/-! ### Releases (R453) -/

/-- Of `s`, `t` differs in the resets of groups and in cores alone. -/
structure Frees (s t : State) : Prop where
  rest : t = { s with cores := t.cores, groups := t.groups }
  grp : ∀ g, t.grp g = { s.grp g with rst := (t.grp g).rst }

theorem Frees.refl (s : State) : Frees s s := ⟨rfl, fun _ => rfl⟩

theorem Frees.trans {s t u : State} (h : Frees s t) (k : Frees t u) : Frees s u := by
  refine ⟨?_, fun g => ?_⟩
  · rw [k.rest, h.rest]
  · rw [k.grp, h.grp]

theorem Frees.foldl {α : Type} {step : State → α → State} (h : ∀ s a, Frees s (step s a)) (s : State) (l : List α) : Frees s (l.foldl step s) :=
  List.foldlRecOn (motive := fun t => Frees s t) l step (.refl s) fun t ht a _ => ht.trans (h t a)

theorem frees_releaseCore (s : State) (c : Nat) : Frees s (releaseCore s c) := ⟨rfl, fun _ => rfl⟩

theorem frees_unrst (s : State) (g : Nat) : Frees s (modGrp s g fun k => { k with rst := false }) := by
  refine ⟨rfl, fun x => ?_⟩
  by_cases hx : x = g
  · rw [hx, grp_modGrp]
  · rw [grp_modGrp_ne _ _ hx]

theorem frees_releaseGroup (s : State) (g : Nat) : Frees s (releaseGroup s g) :=
  (frees_unrst s g).trans (Frees.foldl frees_releaseCore _ _)

/-- Whether a group stays in its reset: it is under re-map or check, off or lost, or its partition is under reset. -/
def heldBack (s : State) (g : Nat) : Bool :=
  let k := s.grp g
  let held : Bool := match k.part with
    | some p => (s.part p).resetting
    | none => false
  k.remap.isSome || k.check || domOf s g != .on || k.lost || held

/-- R453: a group leaves its reset, unless it is held in it. -/
def releaseFree (s : State) (g : Nat) : State := if heldBack s g then s else releaseGroup s g

theorem releaseAll_eq (s : State) : releaseAll s = (List.range 96).foldl releaseFree s := rfl

theorem frees_releaseFree (s : State) (g : Nat) : Frees s (releaseFree s g) := by
  rw [releaseFree]
  split
  · exact .refl s
  · exact frees_releaseGroup s g

theorem frees_releaseAll (s : State) : Frees s (releaseAll s) := by
  rw [releaseAll_eq]
  exact Frees.foldl frees_releaseFree s _

theorem Frees.settling {s t : State} (h : Frees s t) : Settling s t := by
  refine ⟨?_, fun g => ?_⟩
  · rw [h.rest]
  · rw [h.grp]

theorem Frees.heldBack {s t : State} (h : Frees s t) (g : Nat) : heldBack t g = heldBack s g := by
  have hparts : t.parts = s.parts := by rw [h.rest]
  have hpwr : t.pwr = s.pwr := by rw [h.rest]
  rw [Machine.heldBack, h.grp, domOf, hpwr, Machine.heldBack]
  dsimp only
  rw [domOf]
  cases (s.grp g).part with
  | none => rfl
  | some p =>
    dsimp only
    rw [State.part, hparts, State.part]

theorem releases_releaseGroup (s : State) (g : Nat) : Released s (releaseGroup s g) :=
  List.foldlRecOn (motive := fun t => Released s t) (groupCores g) releaseCore (fun _ h => h) fun t ht c _ => fun x hx =>
    (releaseCore_releases t c).1 x (ht x hx)

theorem releases_releaseFree (s : State) (g : Nat) : Released s (releaseFree s g) := by
  rw [releaseFree]
  split
  · exact fun _ h => h
  · exact releases_releaseGroup s g

/-- R453: the cores of a group that nothing holds back leave their reset. -/
theorem releaseAll_releases {s : State} {g k : Nat} (hg : g < 96) (hfree : heldBack s g = false) (hk : k < 12) :
    ((releaseAll s).core (12 * g + k)).crst = false := by
  obtain ⟨u, ⟨hu, -⟩, -, hend⟩ := foldl_passes (step := releaseFree) (R := fun s t => Frees s t ∧ Released s t)
    (fun u => ⟨.refl u, fun _ h => h⟩) (fun h k => ⟨h.1.trans k.1, fun c hc => k.2 c (h.2 c hc)⟩) List.nodup_range (List.mem_range.2 hg)
    (fun u x _ _ => ⟨frees_releaseFree u x, releases_releaseFree u x⟩) s
  rw [releaseAll_eq]
  refine hend _ ?_
  rw [releaseFree, hu.heldBack, hfree, if_neg Bool.false_ne_true]
  exact releaseGroup_releases u g hk

end Sys2Proof.Machine
end

section
/-!
SUPPORT. The last stage of a start, the stages of a warm one, and the end of a compute reset (R442, R445, R448).
-/

namespace Sys2Proof.Machine
open Sys2Proof

/-! ### The last stage (R442, R444) -/

/-- R272: the weight of partition `p` in field `n`. -/
def weigh (p : Nat) (s : State) (n : Nat) : State :=
  modMsh s n (fun m => { m with weights := mset m.weights p (cfgNum s 0x40 0x0020 p 16) })

/-- R442: the halt and the weights of partition `p`. -/
def followOne (s : State) (p : Nat) : State := (List.range 12).foldl (weigh p) (followHalt s p)

/-- What the resets of partitions show stands. -/
def ResetsKept (s t : State) : Prop := Settling s t ∧ ∀ p, (t.part p).resetting = (s.part p).resetting

theorem resetsKept_refl (s : State) : ResetsKept s s := ⟨.refl s, fun _ => rfl⟩

theorem ResetsKept.trans {s t u : State} (h : ResetsKept s t) (k : ResetsKept t u) : ResetsKept s u :=
  ⟨h.1.trans k.1, fun p => (k.2 p).trans (h.2 p)⟩

theorem ResetsKept.foldl {α : Type} {step : State → α → State} (h : ∀ s a, ResetsKept s (step s a)) (s : State) (l : List α) :
    ResetsKept s (l.foldl step s) :=
  List.foldlRecOn (motive := fun t => ResetsKept s t) l step (resetsKept_refl s) fun t ht a _ => ht.trans (h t a)

theorem resetsKept_weigh (p : Nat) (s : State) (n : Nat) : ResetsKept s (weigh p s n) := ⟨.of_rest rfl, fun _ => rfl⟩

theorem resetsKept_followHalt (s : State) (p : Nat) : ResetsKept s (followHalt s p) := by
  refine ⟨.of_rest rfl, fun x => ?_⟩
  by_cases hx : x = p
  · rw [hx, followHalt, State.part, modPart, mget_mset]
  · rw [followHalt, State.part, modPart, mget_mset_ne _ _ _ hx, State.part]

theorem resetsKept_followOne (s : State) (p : Nat) : ResetsKept s (followOne s p) :=
  (resetsKept_followHalt s p).trans (ResetsKept.foldl (resetsKept_weigh p) _ _)

theorem resetsKept_releaseAll (s : State) : ResetsKept s (releaseAll s) := by
  have h := frees_releaseAll s
  refine ⟨h.settling, fun p => ?_⟩
  rw [State.part, h.rest, State.part]

/-- R442: the state with no lock held and every channel empty. -/
def unlocked (s : State) : State := { s with locks := [], mchans := [] }

/-- R442: the partitions as the last stage has settled them. -/
def settledOf (s : State) : State := releaseAll ((List.range 16).foldl followOne (applyAllocs (unlocked s)))

theorem settledOf_effect (s : State) : Settling (unlocked s) (settledOf s) ∧ ∀ p < 16, ((settledOf s).part p).resetting = false := by
  obtain ⟨h1, hreset⟩ := applyAllocs_effect (unlocked s)
  have h2 := ResetsKept.foldl resetsKept_followOne (applyAllocs (unlocked s)) (List.range 16)
  have h3 := h2.trans (resetsKept_releaseAll ((List.range 16).foldl followOne (applyAllocs (unlocked s))))
  exact ⟨h1.trans h3.1, fun p hp => (h3.2 p).trans (hreset p hp)⟩

theorem serviceable_settledOf (s : State) : serviceable (settledOf s) = serviceable s := (settledOf_effect s).1.serviceable

/-- R442: what the success of a start writes. -/
def startedWake (warm : Bool) (w : Wake) : Wake :=
  { w with
    failedStarts := if warm then w.failedStarts else 0
    vinStayed := true
    recoverDue := false }

/-- R442: the state as the start has succeeded. -/
def startOver (warm : Bool) (s : State) : State := setDeviceCause (modWake (recordStart s false 0) (startedWake warm)) false

/-- R437, R505: the device serves, and what waited for the start is answered. -/
def serving (s : State) : State :=
  leaveWaking ((List.range 16).foldl (fun s p => endAsync s (16 + p) 0) (setDev s (if degradedBy s = 0 then .ready else .degraded) 0)) true

theorem stageSettle_eq (s : State) (warm : Bool) : stageSettle s warm =
    if serviceable (settledOf s) then serving (startOver warm (settledOf s)) else startFail (settledOf s) 9 := rfl

theorem degradedBy_congr {s t : State} (hg : t.groups = s.groups) (hl : t.links = s.links) (hh : t.hbms = s.hbms) (hf : t.fields = s.fields) :
    degradedBy t = degradedBy s := by
  have hgrp : grpPresent t = grpPresent s := by
    funext g
    rw [grpPresent, State.grp, hg, grpPresent, State.grp]
  have hport : t.port = s.port := by
    funext p
    rw [State.port, hl, State.port]
  have hstack : t.stack = s.stack := by
    funext i
    rw [State.stack, hh, State.stack]
  have hlive : livePhases t = livePhases s := by
    funext n
    rw [livePhases, State.field, hf, livePhases, State.field]
  rw [degradedBy, hgrp, hport, hstack, hlive, degradedBy]

theorem ActsEnd.rated_dev {s t : State} (h : ActsEnd s t) : t.dev = s.dev := by rw [h]

theorem actsEnd_served (s : State) : ActsEnd (setDev s (if degradedBy s = 0 then .ready else .degraded) 0) (serving s) :=
  (ActsEnd.foldl (fun s p => actsEnd_endAsync s (16 + p) 0) _ (List.range 16)).trans (actsEnd_leaveWaking _ true)

theorem serving_effect (s : State) : (serving s).dev = (if degradedBy (serving s) = 0 then .ready else .degraded) ∧
    (serving s).wake.start = s.wake.start ∧ (serving s).wake.failedStarts = s.wake.failedStarts ∧ (serving s).parts = s.parts ∧
    (serving s).locks = s.locks ∧ (serving s).mchans = s.mchans := by
  have hend := actsEnd_served s
  have ht := tells_setDev s (if degradedBy s = 0 then .ready else .degraded) 0
  generalize setDev s (if degradedBy s = 0 then .ready else .degraded) 0 = u at hend ht
  have hsame : (serving s).groups = s.groups ∧ (serving s).links = s.links ∧ (serving s).hbms = s.hbms ∧ (serving s).fields = s.fields := by
    rw [hend]
    dsimp only
    rw [ht]
    exact ⟨rfl, rfl, rfl, rfl⟩
  obtain ⟨hg, hl, hh, hf⟩ := hsame
  rw [degradedBy_congr hg hl hh hf, hend]
  dsimp only
  rw [ht]
  exact ⟨rfl, rfl, rfl, rfl, rfl, rfl⟩

theorem resetting_causeSet (b : Bool) (m : Map Part) (p : Nat) : (mget Part.reset (causeSet b m) p).resetting = (mget Part.reset m p).resetting := by
  rw [causeSet]
  refine List.foldlRecOn (motive := fun v : Map Part => (mget Part.reset v p).resetting = (mget Part.reset m p).resetting) _ _ rfl fun v hv x _ => ?_
  by_cases hx : p = x
  · rw [hx, mget_mset, ← hx]
    exact hv
  · rw [mget_mset_ne _ _ _ hx]
    exact hv

theorem startOver_eq {s : State} {r : StartRun} (h : s.wake.start = some r) (warm : Bool) :
    ∃ l, startOver warm s = { modWake s (fun w => startedWake warm { w with start := none, last := l }) with parts := causeSet false s.parts } := by
  obtain ⟨l, hrec⟩ := recordStart_eq h false 0
  refine ⟨l, ?_⟩
  rw [startOver, setDeviceCause_eq, hrec]
  rfl

theorem startOver_effect {s : State} {r : StartRun} (h : s.wake.start = some r) (warm : Bool) : (startOver warm s).wake.start = none ∧
    (startOver warm s).wake.failedStarts = (if warm then s.wake.failedStarts else 0) ∧ (startOver warm s).parts = causeSet false s.parts ∧
    (startOver warm s).locks = s.locks ∧ (startOver warm s).mchans = s.mchans := by
  obtain ⟨l, h⟩ := startOver_eq h warm
  rw [h]
  generalize causeSet false s.parts = m
  exact ⟨rfl, rfl, rfl, rfl, rfl⟩

/-- R442, R444: a start that succeeds. -/
theorem stageSettle_effect {s : State} {r : StartRun} (hstart : s.wake.start = some r) (hserve : serviceable s = true) (warm : Bool) :
    (stageSettle s warm).wake.start = none ∧ (stageSettle s warm).wake.failedStarts = (if warm then s.wake.failedStarts else 0) ∧
    (stageSettle s warm).dev = (if degradedBy (stageSettle s warm) = 0 then .ready else .degraded) ∧
    (∀ p < 16, ((stageSettle s warm).part p).hDevice = false ∧ ((stageSettle s warm).part p).resetting = false) ∧
    (stageSettle s warm).locks = [] ∧ (stageSettle s warm).mchans = [] := by
  obtain ⟨hsettle, hreset⟩ := settledOf_effect s
  have hsame : (settledOf s).wake = s.wake ∧ (settledOf s).locks = [] ∧ (settledOf s).mchans = [] := by
    rw [hsettle.rest]
    exact ⟨rfl, rfl, rfl⟩
  obtain ⟨hwake, hlocks, hchans⟩ := hsame
  have hwhole : stageSettle s warm = serving (startOver warm (settledOf s)) := by
    rw [stageSettle_eq, serviceable_settledOf, if_pos hserve]
  obtain ⟨h1, h2, h3, h4, h5, h6⟩ := serving_effect (startOver warm (settledOf s))
  obtain ⟨k2, k3, k4, k5, k6⟩ := startOver_effect (s := settledOf s) (by rw [hwake, hstart]) warm
  rw [hwhole]
  refine ⟨h2.trans k2, ?_, h1, fun p hp => ?_, (h5.trans k5).trans hlocks, (h6.trans k6).trans hchans⟩
  · rw [h3, k3, hwake]
  · rw [State.part, h4, k4, hDevice_causeSet false _ hp, resetting_causeSet, ← State.part, hreset p hp]
    exact ⟨rfl, rfl⟩

theorem stage9_effect {s : State} {t0 : W64} {q : Nat} {o : StageOutcome} (hstart : s.wake.start = some ⟨false, t0, q⟩)
    (hstage : s.stage = 9) (hserve : serviceable s = true) : ∃ t, exec (.coldStartStageEnd o) s = .next t ∧ t.wake.start = none ∧
      t.wake.failedStarts = 0 ∧ t.dev = (if degradedBy t = 0 then .ready else .degraded) ∧
      (∀ p < 16, (t.part p).hDevice = false ∧ (t.part p).resetting = false) ∧ t.locks = [] ∧ t.mchans = [] := by
  rw [exec_coldStage hstart, hstage, coldStageEnd]
  exact ⟨_, rfl, stageSettle_effect hstart hserve false⟩

/-- R442, R444: a stage that overruns. -/
theorem deadline_effect {s : State} {t0 : W64} {q : Nat} (hstart : s.wake.start = some ⟨false, t0, q⟩) (hno : trialOn s = false) :
    ∃ t, exec .startStageDeadline s = .next t ∧ t.wake.start = none ∧ t.dev = if 2 ≤ s.wake.failedStarts then .held else .faulted :=
  ⟨startFail s s.stage, congrArg Host.Outcome.next (if_pos (by rw [hstart]; rfl)), startFail_cold hstart hno s.stage⟩

/-! ### Warm starts (R445, R446) -/

theorem exec_warmStage {s : State} {t0 : W64} {q : Nat} (h : s.wake.start = some ⟨true, t0, q⟩) (ok : Bool) :
    exec (.warmStartStageEnd ok) s = .next (if ok then warmStageEnd s s.stage else startFail s s.stage) := by
  have hstart : starting s true = true := by
    rw [starting, h]
    rfl
  exact congrArg Host.Outcome.next (if_pos hstart)

/-- The device's state and memory stand. -/
def Standing (s t : State) : Prop := t.dev = s.dev ∧ t.mem = s.mem

theorem standing_refl (s : State) : Standing s s := ⟨rfl, rfl⟩

theorem Standing.trans {s t u : State} (h : Standing s t) (k : Standing t u) : Standing s u := ⟨k.1.trans h.1, k.2.trans h.2⟩

theorem Standing.foldl {α : Type} {step : State → α → State} (h : ∀ s a, Standing s (step s a)) (s : State) (l : List α) : Standing s (l.foldl step s) :=
  List.foldlRecOn (motive := fun t => Standing s t) l step (standing_refl s) fun t ht a _ => ht.trans (h t a)

theorem Found.standing {s t : State} (h : Found s t) : Standing s t := ⟨h.dev, h.mem⟩

theorem standing_modGrp (s : State) (g : Nat) (f : Group → Group) : Standing s (modGrp s g f) := ⟨rfl, rfl⟩

theorem standing_modField (s : State) (n : Nat) (f : Field → Field) : Standing s (modField s n f) := ⟨rfl, rfl⟩

theorem standing_modPwr (s : State) (f : Pwr → Pwr) : Standing s (modPwr s f) := ⟨rfl, rfl⟩

theorem standing_setDom (s : State) (d : Nat) (x : DomSt) : Standing s (setDom s d x) := ⟨rfl, rfl⟩

theorem standing_readSurvey (s : State) : Standing s (readSurvey s) := by
  rw [readSurvey]
  refine Standing.foldl (fun s _ => ?_) _ _
  have hlog := logged_raiseErr (code := 0x0013) (by decide) { s with survey := { s.survey with crcBad := s.survey.crcBad + 1 } } 9 0 none s.echoM []
  exact Standing.trans (t := { s with survey := { s.survey with crcBad := s.survey.crcBad + 1 } }) ⟨rfl, rfl⟩ hlog.found.standing

theorem standing_applyTiles (s : State) : Standing s (applyTiles s) := by
  rw [applyTiles]
  refine Standing.trans (Standing.foldl (fun s g => standing_modGrp s g _) s (List.range 96)) (Standing.foldl (fun s e => ?_) _ _)
  split
  · exact standing_modGrp s _ _
  · exact standing_refl s

theorem standing_placeFieldPorts (s : State) : Standing s (placeFieldPorts s) := by
  rw [placeFieldPorts]
  refine Standing.foldl (fun s n => ?_) _ _
  split
  · exact standing_refl s
  · exact standing_modField s n _

theorem standing_applyPhases (s : State) : Standing s (applyPhases s) := by
  rw [applyPhases]
  refine Standing.trans (Standing.foldl (fun s n => standing_modField s n _) s (List.range 12)) (Standing.foldl (fun s e => ?_) _ _)
  split
  · exact standing_modField s _ _
  · exact standing_refl s

theorem standing_applySeams (s : State) : Standing s (applySeams s) := by
  rw [applySeams]
  refine Standing.trans (t := { s with seams := s.seams.map (fun x => (x.1, { Crossing.reset with due := x.2.due, quiet := x.2.quiet })) }) ⟨rfl, rfl⟩
    (Standing.foldl (fun s e => ?_) _ _)
  split
  · exact ⟨rfl, rfl⟩
  · split
    · exact ⟨rfl, rfl⟩
    · exact standing_refl s

theorem standing_installOverlays (s : State) : Standing s (installOverlays s) := by
  obtain ⟨-, -, h, -⟩ := installOverlays_effect s
  exact ⟨by rw [h], by rw [h]⟩

theorem standing_warmGroups (s : State) : Standing s (warmGroups s) := by
  rw [warmGroups]
  refine Standing.foldl (fun s g => ?_) _ _
  split
  · exact ((standing_modPwr s _).trans (standing_setDom _ g _)).trans (standing_modGrp _ g _)
  · exact standing_refl s

theorem standing_memoryOn (warm : Bool) (s : State) (st : Nat) : Standing s (memoryOn warm s st) := by
  rw [memoryOn]
  split
  · exact ⟨rfl, rfl⟩
  · split
    · obtain ⟨f, m, v, h⟩ := trainStack_eq s st warm
      rw [h]
      exact ⟨rfl, rfl⟩
    · exact standing_refl s

theorem standing_stageMemory (s : State) (warm : Bool) : Standing s (stageMemory s warm) := by
  rw [stageMemory_eq]
  exact Standing.foldl (standing_memoryOn warm) s _

theorem toStage_effect {s t : State} (h : Standing s t) (n : Nat) : (toStage t n).stage = n ∧ (toStage t n).dev = s.dev ∧ (toStage t n).mem = s.mem :=
  ⟨rfl, h.1, h.2⟩

/-- R445, R446: the stages of a warm start, its success and its failure. -/
theorem warmStages_effect {s : State} {t0 : W64} {q : Nat} (hstart : s.wake.start = some ⟨true, t0, q⟩) :
    (∀ n, (s.stage = 4 ∧ n = 5) ∨ (s.stage = 5 ∧ n = 6) ∨ (s.stage = 6 ∧ n = 7) ∨ (s.stage = 7 ∧ n = 9) →
      ∃ t, exec (.warmStartStageEnd true) s = .next t ∧ t.stage = n ∧ t.dev = s.dev ∧ t.mem = s.mem) ∧
    (s.stage = 9 → serviceable s = true → ∃ t, exec (.warmStartStageEnd true) s = .next t ∧ t.wake.start = none ∧
      t.wake.failedStarts = s.wake.failedStarts ∧ t.dev = (if degradedBy t = 0 then .ready else .degraded)) ∧
    (trialOn s = false → ∃ t, exec (.warmStartStageEnd false) s = .next t ∧ t.dev = .waking ∧ t.stage = 1 ∧
      ∃ r, t.wake.start = some r ∧ r.warm = false) := by
  refine ⟨fun n h => ?_, fun hstage hserve => ?_, fun hno => ?_⟩
  · rw [exec_warmStage hstart, if_pos rfl]
    refine ⟨_, rfl, ?_⟩
    rcases h with ⟨hstage, rfl⟩ | ⟨hstage, rfl⟩ | ⟨hstage, rfl⟩ | ⟨hstage, rfl⟩
    · rw [hstage, warmStageEnd]
      refine toStage_effect (Standing.trans ?_ (standing_applyPhases _)) 5
      exact ((standing_readSurvey s).trans (standing_applyTiles _)).trans (standing_placeFieldPorts _)
    · rw [hstage, warmStageEnd]
      exact toStage_effect ((standing_applySeams s).trans (standing_installOverlays _)) 6
    · rw [hstage, warmStageEnd]
      exact toStage_effect (standing_warmGroups s) 7
    · rw [hstage, warmStageEnd]
      exact toStage_effect (standing_stageMemory s true) 9
  · rw [exec_warmStage hstart, if_pos rfl, hstage, warmStageEnd]
    obtain ⟨h1, h2, h3, -⟩ := stageSettle_effect hstart hserve true
    exact ⟨_, rfl, h1, h2, h3⟩
  · rw [exec_warmStage hstart, if_neg Bool.false_ne_true]
    obtain ⟨u, hu⟩ := startFail_warm hstart hno s.stage
    obtain ⟨h1, h2, t1, h3⟩ := coldRun_effect u
    rw [hu]
    exact ⟨_, rfl, h1, h2, _, h3, rfl⟩

end Sys2Proof.Machine
end

section
/-!
SUPPORT. Resets that end, re-maps and failed cores (R448 to R450, R459 to R461), and the settlement of O52.
-/

namespace Sys2Proof.Machine
open Sys2Proof

/-! ### Compute resets (R448) -/

/-- R448: the counters at their defaults, no channel in use, and the drain over. -/
def drainOver (s : State) : State :=
  modWake { countersDefault s with mchans := [], rowErrs := [] } (fun w => { w with drained := true })

theorem drainOver_effect (s : State) : (drainOver s).wake.drained = true ∧ (drainOver s).mchans = [] ∧ (drainOver s).cntDenied = 0 :=
  ⟨rfl, rfl, rfl⟩

theorem exec_drainEnd {s : State} (hcompute : s.wake.compute = true) (hdrained : s.wake.drained = false) :
    ∃ u, exec .computeResetDrainEnd s = .next (drainOver u) :=
  ⟨_, congrArg Host.Outcome.next (if_pos ⟨hcompute, by rw [hdrained]; rfl⟩)⟩

/-- R448: the drain of a compute reset ends. -/
theorem drainEnd_clears {s : State} (hcompute : s.wake.compute = true) (hdrained : s.wake.drained = false) :
    ∃ t, exec .computeResetDrainEnd s = .next t ∧ t.wake.drained = true ∧ t.mchans = [] ∧ t.cntDenied = 0 := by
  obtain ⟨u, hu⟩ := exec_drainEnd hcompute hdrained
  exact ⟨_, hu, drainOver_effect u⟩

theorem Frees.degradedBy {s t : State} (h : Frees s t) : degradedBy t = degradedBy s := by
  have hgrp : grpPresent t = grpPresent s := funext h.settling.grpPresent
  have hport : t.port = s.port := by
    funext p
    rw [h.rest]
    rfl
  have hstack : t.stack = s.stack := by
    funext i
    rw [h.rest]
    rfl
  have hlive : livePhases t = livePhases s := by
    funext n
    rw [livePhases, State.field, h.rest, livePhases, State.field]
  rw [Machine.degradedBy, hgrp, hport, hstack, hlive, Machine.degradedBy]

/-- The device out of its compute reset. -/
def resetOver (s : State) : State := modWake s (fun w => { w with compute := false, drained := false })

theorem exec_resetDone {s : State} (hcompute : s.wake.compute = true) (hdrained : s.wake.drained = true) : exec .computeResetDone s =
    .next (leaveWaking (setDev (resetOver (releaseAll s)) (if degradedBy (resetOver (releaseAll s)) = 0 then .ready else .degraded) 0) true) :=
  congrArg Host.Outcome.next (if_pos ⟨hcompute, hdrained⟩)

theorem degradedBy_resetOver (s : State) : degradedBy (resetOver s) = degradedBy s := degradedBy_congr rfl rfl rfl rfl

/-- What the end of a compute reset shows of a state. -/
theorem leaveReset_effect (s : State) (d : DevState) : (leaveWaking (setDev (resetOver s) d 0) true).wake.compute = false ∧
    (leaveWaking (setDev (resetOver s) d 0) true).wake.drained = false ∧ (leaveWaking (setDev (resetOver s) d 0) true).mem = s.mem ∧
    (leaveWaking (setDev (resetOver s) d 0) true).dev = d ∧ (leaveWaking (setDev (resetOver s) d 0) true).cores = s.cores := by
  have ht := tells_setDev (resetOver s) d 0
  have hend := actsEnd_leaveWaking (setDev (resetOver s) d 0) true
  rw [hend]
  dsimp only
  rw [ht]
  exact ⟨rfl, rfl, rfl, rfl, rfl⟩

/-- R448, R453: a compute reset ends. -/
theorem resetDone_effect {s : State} (hcompute : s.wake.compute = true) (hdrained : s.wake.drained = true) :
    ∃ t, exec .computeResetDone s = .next t ∧ t.wake.compute = false ∧ t.wake.drained = false ∧
      t.mem = s.mem ∧ t.dev = (if degradedBy s = 0 then .ready else .degraded) ∧
      ∀ g < 96, (s.grp g).remap = none → (s.grp g).check = false → (s.grp g).lost = false → domOf s g = .on →
        (∀ p, (s.grp g).part = some p → (s.part p).resetting = false) → ∀ k < 12, (t.core (12 * g + k)).crst = false := by
  have hfree := frees_releaseAll s
  rw [exec_resetDone hcompute hdrained, degradedBy_resetOver, hfree.degradedBy]
  obtain ⟨h1, h2, h3, h4, h5⟩ := leaveReset_effect (releaseAll s) (if degradedBy s = 0 then .ready else .degraded)
  have hmem : (releaseAll s).mem = s.mem := by rw [hfree.rest]
  refine ⟨_, rfl, h1, h2, h3.trans hmem, h4, fun g hg hremap hcheck hlost hon hpart k hk => ?_⟩
  have hheld : heldBack s g = false := by
    rw [heldBack, hremap, hcheck, hlost, hon]
    cases hp : (s.grp g).part with
    | none => rfl
    | some p =>
      dsimp only
      rw [hpart p hp]
      rfl
  rw [State.core, h5, ← State.core]
  exact releaseAll_releases hg hheld hk

/-! ### Resets of partitions and cores (R449, R450) -/

theorem tells_functionEvent (s : State) (h f : Nat) : Tells s (functionEvent s h f) := by
  rw [functionEvent]
  split
  · exact tells_sendVector s h f 4
  · exact Tells.refl s

theorem tells_partVectors (s : State) (p : Nat) : Tells s (partVectors s p) :=
  List.foldlRecOn (motive := fun t => Tells s t) _ _ (Tells.refl s) fun t ht h _ =>
    ht.trans ((tells_functionEvent t h 0).trans (tells_functionEvent _ h (p + 1)))

/-- R449: the reset of a partition is over. -/
def partReset (s : State) (p : Nat) : State :=
  endAsync (reevaluate (partVectors (modPart s p (fun k => { k with resetting := false })) p)) (16 + p) 0

theorem partReset_effect (s : State) (p : Nat) : ((partReset s p).part p).resetting = false := by
  have h1 := tells_partVectors (modPart s p (fun k => { k with resetting := false })) p
  have h2 := rated_reevaluate (partVectors (modPart s p (fun k => { k with resetting := false })) p)
  have h3 := actsEnd_endAsync (reevaluate (partVectors (modPart s p (fun k => { k with resetting := false })) p)) (16 + p) 0
  have hparts : (partReset s p).parts = (modPart s p (fun k => { k with resetting := false })).parts := by
    rw [partReset, h3]
    dsimp only
    rw [h2]
    dsimp only
    rw [h1]
  rw [State.part, hparts, modPart, mget_mset]

theorem exec_partDone {s : State} {p : Nat} (h : (s.part p).resetting = true) : ∃ u, exec (.partitionResetDone p) s = .next (partReset u p) :=
  ⟨_, congrArg Host.Outcome.next (if_pos h)⟩

theorem partDone_effect (s : State) (p : Nat) : ((s.part p).resetting = false → exec (.partitionResetDone p) s = .next s) ∧
    ((s.part p).resetting = true → ∃ t, exec (.partitionResetDone p) s = .next t ∧ (t.part p).resetting = false) := by
  refine ⟨fun h => congrArg Host.Outcome.next (if_neg (by rw [h]; exact Bool.false_ne_true)), fun h => ?_⟩
  obtain ⟨u, hu⟩ := exec_partDone h
  exact ⟨_, hu, partReset_effect u p⟩

/-- R450: the reset of a core ends. -/
theorem coreDone_effect (s : State) (c : Nat) :
    (mayRelease s c = true → ∃ t, exec (.coreResetDone c) s = .next t ∧ (t.core c).crst = false ∧ t.mem = s.mem ∧
      (∀ r, rg t c r = rg s c r) ∧ ∀ k, k ≠ c → t.core k = s.core k) ∧
    (mayRelease s c = false → exec (.coreResetDone c) s = .next s) := by
  refine ⟨fun h => ⟨releaseCore s c, congrArg Host.Outcome.next (if_pos h), (releaseCore_releases s c).2, rfl, fun r => ?_, fun k hk => ?_⟩,
    fun h => congrArg Host.Outcome.next (if_neg (by rw [h]; exact Bool.false_ne_true))⟩
  · rw [rg, releaseCore, core_modCore]
    rfl
  · rw [releaseCore, core_modCore_ne _ _ hk]

/-! ### Re-maps (R459, R460) -/

/-- A core's repairs and spares alone differ. -/
def Repaired (s t : State) : Prop := t.mem = s.mem ∧ t.groups = s.groups ∧
  ∀ c, { t.core c with repairs := (s.core c).repairs, spares := (s.core c).spares } = s.core c

theorem repaired_refl (s : State) : Repaired s s := ⟨rfl, rfl, fun _ => rfl⟩

theorem Repaired.trans {s t u : State} (h : Repaired s t) (k : Repaired t u) : Repaired s u := by
  refine ⟨k.1.trans h.1, k.2.1.trans h.2.1, fun c => ?_⟩
  have hc := k.2.2 c
  rw [← h.2.2 c, ← hc]

theorem repaired_applyBanks (s : State) (c : Nat) : Repaired s (applyBanks s c) := by
  refine ⟨rfl, rfl, fun x => ?_⟩
  rw [applyBanks]
  by_cases hx : x = c
  · rw [hx, core_modCore]
    rfl
  · rw [core_modCore_ne _ _ hx]
    rfl

/-- A group's column `col` recorded dead, unless its router is. -/
def Group.colDead (col : Nat) (k : Group) : Group := if k.rdead.testBit col then k else { k with tdead := k.tdead ||| 2 ^ col }

/-- R459: the spare takes over the failed column. -/
def Group.spareTaken (col : Nat) (k : Group) : Group := { k.colDead col with skip := col, remap := some ⟨col, true⟩ }

theorem exec_sparePass {s : State} {g col : Nat} (h : (s.grp g).remap = some ⟨col, false⟩) :
    exec (.remapSpareTested g true) s = .next ((groupCores g).foldl applyBanks (modGrp s g (Group.spareTaken col))) := by
  have hexec : exec (.remapSpareTested g true) s = execRemapSpareTested g true s := rfl
  rw [hexec, execRemapSpareTested, h]
  rfl

/-- The group that is lost as its spare has failed too. -/
def Group.spareFailed (col : Nat) (k : Group) : Group := { k.colDead col with tdead := (k.colDead col).tdead ||| 2 ^ 12 }

theorem exec_spareFail {s : State} {g col : Nat} (h : (s.grp g).remap = some ⟨col, false⟩) :
    exec (.remapSpareTested g false) s = .next (loseGroup (modGrp (surveyAppend s 1 2 false
      (natBytes 1 (13 * (g / 8 % 3) + 12) ++ natBytes 1 (8 * (g / 24) + g % 8) ++ natBytes 1 1 ++ natBytes 1 0)) g (Group.spareFailed col)) g 0 false) := by
  have hexec : exec (.remapSpareTested g false) s = execRemapSpareTested g false s := rfl
  rw [hexec, execRemapSpareTested, h]
  rfl

theorem lost_loseGroup (s : State) (g cause : Nat) (off : Bool) : ((loseGroup s g cause off).grp g).lost = true := by
  cases h : (s.grp g).lost with
  | true =>
    rw [loseGroup, if_pos h]
    exact h
  | false => exact (loseGroup_grp cause off h).1

theorem loses_spareFailed (s : State) (g : Nat) (f : Group → Group) : Finds s (modGrp s g f) := fun _ h => h

/-- R459, R460: the spare has been tested. -/
theorem spareTested_effect {s : State} {g col : Nat} (h : (s.grp g).remap = some ⟨col, false⟩) :
    (∃ t, exec (.remapSpareTested g true) s = .next t ∧ (t.grp g).skip = col ∧ (t.grp g).remap = some ⟨col, true⟩ ∧
      t.mem = s.mem ∧ ∀ c, { t.core c with repairs := (s.core c).repairs, spares := (s.core c).spares } = s.core c) ∧
    (∃ t, exec (.remapSpareTested g false) s = .next t ∧ (t.grp g).lost = true ∧
      SurveyAdds s t 1 (natBytes 1 (13 * (g / 8 % 3) + 12) ++ natBytes 1 (8 * (g / 24) + g % 8) ++ natBytes 1 1 ++ natBytes 1 0)) := by
  refine ⟨⟨_, exec_sparePass h, ?_⟩, ⟨_, exec_spareFail h, lost_loseGroup _ g 0 false, ?_⟩⟩
  · obtain ⟨hmem, hgroups, hcores⟩ := List.foldlRecOn (motive := fun t => Repaired (modGrp s g (Group.spareTaken col)) t) (groupCores g) applyBanks
      (repaired_refl _) fun t ht c _ => ht.trans (repaired_applyBanks t c)
    rw [State.grp, hgroups, ← State.grp, grp_modGrp]
    exact ⟨rfl, rfl, hmem, hcores⟩
  · refine SurveyAdds.between (.refl s) rfl (surveyAppend_adds 2 false) ?_
    exact (loses_spareFailed _ g (Group.spareFailed col)).trans (loses_loseGroup _ g 0 false).finds

/-- R459, R461: a group whose re-map is over. -/
theorem remapDone_effect {s : State} {g col : Nat} (h : (s.grp g).remap = some ⟨col, true⟩) (hpart : (s.grp g).part = none)
    (hcompute : s.wake.compute = false) (hstart : s.wake.start = none) (hon : domOf s g = .on) :
    ∃ t, exec (.remapDone g) s = .next t ∧ (t.grp g).remap = none ∧ t.mem = s.mem ∧ ∀ k < 12, (t.core (12 * g + k)).crst = false := by
  have hgrp : (modGrp s g fun k => { k with remap := none }).grp g = { s.grp g with remap := none } := grp_modGrp _ _ _
  have hjoin : joinPartition (modGrp s g fun k => { k with remap := none }) g = releaseGroup (modGrp s g fun k => { k with remap := none }) g := by
    have hc : (modGrp s g fun k => { k with remap := none }).wake.compute = false := hcompute
    have hs : (modGrp s g fun k => { k with remap := none }).wake.start = none := hstart
    have hd : domOf (modGrp s g fun k => { k with remap := none }) g = .on := hon
    rw [joinPartition, hgrp, hpart, hc, hs, hd]
    rfl
  have hexec : exec (.remapDone g) s = execRemapDone g s := rfl
  rw [hexec, execRemapDone, h]
  dsimp only
  rw [if_pos rfl, hjoin]
  have hfree := frees_releaseGroup (modGrp s g fun k => { k with remap := none }) g
  have hrel := fun k hk => releaseGroup_releases (modGrp s g fun k => { k with remap := none }) g (k := k) hk
  have hrest : (releaseGroup (modGrp s g fun k => { k with remap := none }) g).mem = s.mem := by rw [hfree.rest]; rfl
  have hat : ((releaseGroup (modGrp s g fun k => { k with remap := none }) g).grp g).remap = none ∧
      ((releaseGroup (modGrp s g fun k => { k with remap := none }) g).grp g).part = none := by
    rw [hfree.grp, hgrp]
    exact ⟨rfl, hpart⟩
  generalize releaseGroup (modGrp s g fun k => { k with remap := none }) g = u at hrel hrest hat ⊢
  rw [hat.2]
  have hlog : Logged u (groupNotify u none 0x10 g (u.grp g).skip) := by
    unfold groupNotify
    exact logged_raiseRec u _ _ _ _ _ _ _
  generalize groupNotify u none 0x10 g (u.grp g).skip = v at hlog ⊢
  have hrated := rated_reevaluate v
  have hv : v.mem = u.mem ∧ v.cores = u.cores ∧ v.grp g = u.grp g := by
    rw [hlog]
    exact ⟨rfl, rfl, rfl⟩
  obtain ⟨h1, h2, h3⟩ := hv
  refine ⟨_, rfl, ?_, hrated.mem.trans (h1.trans hrest), fun k hk => ?_⟩
  · rw [hrated.grp, h3]
    exact hat.1
  · rw [State.core, hrated.cores, h2]
    exact hrel k hk

/-! ### Failed cores (R459, R38) -/

section

variable {s : State} {c g col : Nat} (hpres : present s c = true) (hg : g = c / 12)
  (hcol : col = (if c % 12 < (s.grp g).skip then c % 12 else c % 12 + 1))

include hpres hg

theorem present_group : c < 1152 ∧ (s.grp g).lost = false ∧ (s.grp g).off = false := by
  rw [present, grpPresent, groupOf, ← hg] at hpres
  simp only [Bool.and_eq_true, Bool.not_eq_true', decide_eq_true_iff] at hpres
  obtain ⟨h1, ⟨⟨⟨-, -⟩, h2⟩, h3⟩⟩ := hpres
  exact ⟨h1, h3, h2⟩

omit hg in
/-- R452: during a management restart a failed core waits. -/
theorem coreFail_waits (hmgmt : s.wake.mgmt = true) (clock : Bool) : ∃ t, exec (.coreFailDetected ⟨c, clock⟩) s = .next t ∧
    { t with wake := s.wake } = s ∧ t.wake.waitFail = s.wake.waitFail ++ [c] := by
  have hexec : exec (.coreFailDetected ⟨c, clock⟩) s = execCoreFailDetected ⟨c, clock⟩ s := rfl
  rw [hexec, execCoreFailDetected, hpres, hmgmt]
  dsimp only
  rw [if_neg (by decide), if_neg (by rw [Bool.not_true, Bool.and_false]; exact Bool.false_ne_true), failCore, hmgmt]
  exact ⟨_, rfl, rfl, rfl⟩

include hcol

omit hpres in
theorem colOf_core : colOf s c = col := by
  rw [hcol, hg]
  rfl

/-- R459: the group of a failed core is under re-map. -/
def Group.coreFailed (col : Nat) (k : Group) : Group := { k with remap := some ⟨col, false⟩ }

theorem failCore_remaps (source : Nat) (hmgmt : s.wake.mgmt = false) (hremap : (s.grp g).remap = none) (hskip : (s.grp g).skip = 12)
    (hspare : ((s.grp g).tdead ||| (s.grp g).rdead).testBit 12 = false) :
    ((failCore s c source false 0).grp g).remap = some ⟨col, false⟩ ∧ ((failCore s c source false 0).grp g).rst = true ∧
      SurveyAdds s (failCore s c source false 0) 1 (natBytes 1 (13 * (g / 8 % 3) + col) ++ natBytes 1 (8 * (g / 24) + g % 8) ++
        natBytes 1 1 ++ natBytes 1 0) := by
  obtain ⟨hc, hlost, hoff⟩ := present_group hpres hg
  have hcolumn := colOf_core hg hcol
  have hgroup : groupOf c = g := hg.symm
  have hgone : ¬ (((s.grp g).lost || (s.grp g).off || 1152 ≤ c) = true) := by
    rw [hlost, hoff, decide_eq_false (by omega)]
    decide
  have hfull : ((s.grp g).remap.isSome || (s.grp g).skip != 12 || ((s.grp g).tdead ||| (s.grp g).rdead).testBit 12) = false := by
    rw [hremap, hskip, hspare]
    rfl
  have hfail : failCore s c source false 0 = resetGroup (modGrp (surveyAppend s 1 source false (natBytes 1 (13 * (g / 8 % 3) + col) ++
      natBytes 1 (8 * (g / 24) + g % 8) ++ natBytes 1 1 ++ natBytes 1 0)) g (Group.coreFailed col)) g true := by
    rw [failCore]
    dsimp only
    rw [hgroup, hcolumn, hmgmt, if_neg Bool.false_ne_true, if_neg hgone, hfull, if_neg Bool.false_ne_true]
    rfl
  rw [hfail]
  generalize hloc : natBytes 1 (13 * (g / 8 % 3) + col) ++ natBytes 1 (8 * (g / 24) + g % 8) ++ natBytes 1 1 ++ natBytes 1 0 = loc
  have hadds := surveyAppend_adds (s := s) (ty := 1) (loc := loc) source false
  generalize surveyAppend s 1 source false loc = u at hadds ⊢
  have hlands := Resets.foldl (fun s c => resets_resetCore s c true) (modGrp (modGrp u g (Group.coreFailed col)) g fun k => { k with rst := true }) (groupCores g)
  have hgrp := hlands.grp g
  rw [grp_modGrp, grp_modGrp] at hgrp
  refine ⟨?_, ?_, SurveyAdds.between (.refl s) rfl hadds ?_⟩
  · exact congrArg Group.remap hgrp
  · exact congrArg Group.rst hgrp
  · exact (loses_spareFailed u g (Group.coreFailed col)).trans (loses_resetGroup _ g true).finds

theorem coreFail_remaps (hmgmt : s.wake.mgmt = false) (hremap : (s.grp g).remap = none) (hskip : (s.grp g).skip = 12)
    (hspare : ((s.grp g).tdead ||| (s.grp g).rdead).testBit 12 = false) :
    ∃ t, exec (.coreFailDetected ⟨c, false⟩) s = .next t ∧ (t.grp g).remap = some ⟨col, false⟩ ∧ (t.grp g).rst = true ∧
        SurveyAdds s t 1 (natBytes 1 (13 * (g / 8 % 3) + col) ++ natBytes 1 (8 * (g / 24) + g % 8) ++ natBytes 1 1 ++
          natBytes 1 0) := by
  have hexec : exec (.coreFailDetected ⟨c, false⟩) s = .next (failCore s c 2 false 0) := by
    have hexec : exec (.coreFailDetected ⟨c, false⟩) s = execCoreFailDetected ⟨c, false⟩ s := rfl
    rw [hexec, execCoreFailDetected, hpres]
    rfl
  exact ⟨_, hexec, failCore_remaps hpres hg hcol 2 hmgmt hremap hskip hspare⟩

/-- R38: a core whose failure stops its router's clock. -/
theorem coreFail_router (hmgmt : s.wake.mgmt = false) (hremap : (s.grp g).remap = none) (hskip : (s.grp g).skip = 12)
    (hspare : ((s.grp g).tdead ||| (s.grp g).rdead).testBit 12 = false) (hlive : (s.grp g).rdead.testBit col = false)
    (hrouter : noFieldRouter s (g / 8) = false) (h3 : g % 8 ≠ 3) (h4 : g % 8 ≠ 4) :
    ∃ t, exec (.coreFailDetected ⟨c, true⟩) s = .next t ∧ (t.grp g).remap = some ⟨col, false⟩ ∧
          (t.grp g).rdead = (s.grp g).rdead ||| 2 ^ col ∧ (t.grp g).tdead = (s.grp g).tdead ||| 2 ^ col ∧
          SurveyAdds s t 1 (natBytes 1 (13 * (g / 8 % 3) + col) ++ natBytes 1 (8 * (g / 24) + g % 8) ++ natBytes 1 3) ∧
          (s.dev = .ready ∨ s.dev = .degraded → t.dev = .waking ∧ t.wake.compute = true) := by
  obtain ⟨hc, hlost, -⟩ := present_group hpres hg
  have hcolumn := colOf_core hg hcol
  have hcol12 : col < 12 := by
    rw [hcol, hskip]
    split <;> omega
  have htile : tileRouter (tileX s c) (tileY c) = (g / 8, 13 * (g % 8) + col) := by
    have hfield : fieldOf c = g / 8 := by
      rw [fieldOf, groupOf, hg]
    have hgroup : groupOf c = g := hg.symm
    rw [tileRouter, tileX, tileY, hfield, hgroup, hcolumn]
    refine Prod.ext ?_ ?_
    · dsimp only
      omega
    · dsimp only
      omega
  have hexec : exec (.coreFailDetected ⟨c, true⟩) s = .next (routerFails s (g / 8) (13 * (g % 8) + col) true) := by
    have hexec : exec (.coreFailDetected ⟨c, true⟩) s = execCoreFailDetected ⟨c, true⟩ s := rfl
    rw [hexec, execCoreFailDetected, hpres, hmgmt]
    dsimp only
    rw [htile]
    rfl
  have hfield : ∀ u : State, (∀ x, u.grp x = s.grp x) → noFieldRouter (modGrp u g (Group.routerDown true col)) (g / 8) = false := fun u hu => by
    have hother : ∀ r, 8 * (g / 8) + r / 13 ≠ g → routerDead (modGrp u g (Group.routerDown true col)) (g / 8) r = routerDead s (g / 8) r := fun r hr => by
      rw [routerDead, grp_modGrp_ne _ _ hr, hu, routerDead]
    rw [noFieldRouter, hother 58 (by omega), hother 45 (by omega), ← noFieldRouter, hrouter]
  obtain ⟨hrd, htd, hrm, -, hadds, hwake⟩ := routerFails_effect (s := s) (n := g / 8) (r := 13 * (g % 8) + col) (g := g) (col := col) true (by omega)
    (by omega) (by omega) hlive (by omega) hlost hskip hremap hspare hfield
  have hloc : routerLoc (g / 8) (13 * (g % 8) + col) true =
      natBytes 1 (13 * (g / 8 % 3) + col) ++ natBytes 1 (8 * (g / 24) + g % 8) ++ natBytes 1 3 := by
    have hx : 13 * (g / 8 % 3) + (13 * (g % 8) + col) % 13 = 13 * (g / 8 % 3) + col := by omega
    have hy : 8 * (g / 8 / 3) + (13 * (g % 8) + col) / 13 = 8 * (g / 24) + g % 8 := by omega
    rw [routerLoc, routerTile]
    dsimp only
    rw [hx, hy, if_pos rfl]
  rw [hloc] at hadds
  exact ⟨_, hexec, hrm, hrd, htd, hadds, fun hd => ⟨(hwake hd).1, (hwake hd).2.1⟩⟩

end

/-- Settles O52: starts by their stages and their failures, resets that end, re-maps and failed cores. -/
theorem startsResetsAndRemapsProceed : Obligations.StartsResetsAndRemapsProceed := by
  unfold Obligations.StartsResetsAndRemapsProceed
  refine ⟨fun s ns => exec_coldRst_short, fun s ns => starts_begin, fun s o t0 q hstart hd hc => ?_, fun s t0 q => warmStages_effect,
    fun s hcompute => ⟨fun hdrained _ => drainEnd_clears hcompute hdrained, resetDone_effect hcompute⟩, partDone_effect, coreDone_effect,
    fun s g col => spareTested_effect, fun s g col => remapDone_effect, fun s c g col hpres hg hcol => ⟨fun clock hmgmt => coreFail_waits hpres hmgmt clock,
      fun hmgmt hremap hskip hspare => ⟨coreFail_remaps hpres hg hcol hmgmt hremap hskip hspare, fun hlive _ hrouter h3 h4 =>
        coreFail_router hpres hg hcol hmgmt hremap hskip hspare hlive hrouter h3 h4⟩⟩⟩
  exact ⟨fun b hstage hbank hb htrial => stage1_effect hstart hstage hbank hb htrial,
    fun b hstage hbank hon hpend htrials hupd => otherBank_effect hstart hstage hbank hon hpend htrials hupd, stage2_effect hstart,
    stage4_effect hstart, stage6_effect hstart hd hc, stage7_effect hstart hd hc, stage9_effect hstart, deadline_effect hstart⟩

end Sys2Proof.Machine
end

section
/-!
SUPPORT. Halts, and what a restart of Carafe leaves (R196, R452 to R458).
-/

namespace Sys2Proof.Machine
open Sys2Proof

/-! ### A halt of a core without engine work (R196, R253) -/

/-- Every core keeps its control unit and its engine work. -/
def UnitsKept (s t : State) : Prop := ∀ k, (t.core k).ctl = (s.core k).ctl ∧ (t.core k).flights = (s.core k).flights

theorem UnitsKept.refl (s : State) : UnitsKept s s := fun _ => ⟨rfl, rfl⟩

theorem UnitsKept.trans {s t u : State} (h : UnitsKept s t) (k : UnitsKept t u) : UnitsKept s u :=
  fun c => ⟨(k c).1.trans (h c).1, (k c).2.trans (h c).2⟩

theorem unitsKept_modCore (s : State) (c : Nat) {f : Core → Core} (hf : ∀ k, (f k).ctl = k.ctl ∧ (f k).flights = k.flights) :
    UnitsKept s (modCore s c f) := fun k => by
  by_cases hk : k = c
  · rw [hk, core_modCore]
    exact hf _
  · rw [core_modCore_ne _ _ hk]
    exact ⟨rfl, rfl⟩

theorem unitsKept_modQ (s : State) (c q : Nat) (f : Queue → Queue) : UnitsKept s (modQ s c q f) :=
  unitsKept_modCore s c fun _ => ⟨rfl, rfl⟩

theorem Counted.unitsKept {s t : State} {c : Nat} (h : Counted s t c) : UnitsKept s t := fun k => by
  by_cases hk : k = c
  · rw [hk, h.core]
    exact ⟨rfl, rfl⟩
  · rw [h.others k hk]
    exact ⟨rfl, rfl⟩

theorem unitsKept_grantNext (s : State) (c q slot : Nat) : UnitsKept s (grantNext s c q slot) := by
  rw [grantNext]
  split
  · exact .refl s
  · next w ws _ =>
    have h := unitsKept_modQ s c q fun u => { u with waiters := ws, reserved := u.reserved ++ [(slot, w)] }
    dsimp only
    generalize modQ s c q _ = u at h ⊢
    cases w with
    | path _ _ => exact h
    | ext _ _ => exact h

theorem unitsKept_freeEntry (s : State) (c q : Nat) (u : Queue) (slot : Nat) : UnitsKept s (freeEntry s c q u slot) := by
  refine UnitsKept.trans ?_ (unitsKept_grantNext _ c q slot)
  split
  · exact (counted_count s c 0x69 1).unitsKept
  · exact .refl s

theorem unitsKept_unwait (s : State) (c q : Nat) (w : Sender) : UnitsKept s (unwait s c q w) := by
  rw [unwait]
  split
  · exact (unitsKept_modQ s c q _).trans (unitsKept_freeEntry _ c q _ _)
  · exact unitsKept_modQ s c q _

theorem unitsKept_withdraw (s : State) (p : SendPath) : UnitsKept s (withdraw s p).1 := by
  rw [withdraw]
  split
  · exact .refl s
  · dsimp only
    split
    · exact .refl s
    · refine List.foldlRecOn (motive := fun t => UnitsKept s t) _ _ (.refl s) fun t ht k _ => ht.trans ?_
      split
      · split
        · exact unitsKept_unwait t _ _ _
        · exact .refl t
      · exact .refl t

theorem unitsKept_clearDmas (s : State) (c : Nat) (l : List Nat) (h : (s.core c).flights = []) :
    UnitsKept s (l.foldl (fun s e => dmaHalt s c e) s) :=
  List.foldlRecOn (motive := fun t => UnitsKept s t) l _ (.refl s) fun t ht e _ => by
    rw [dmaHalt_idle ((ht c).2.trans h)]
    exact ht.trans (unitsKept_modCore t c fun _ => ⟨rfl, rfl⟩)

/-- A halt of engines without work leaves every control unit alone. -/
theorem unitsKept_enginesHalt {s : State} {c : Nat} (h : (s.core c).flights = []) : UnitsKept s (enginesHalt s c) := by
  unfold enginesHalt
  extract_lets s1 s2 s3
  have h1 : UnitsKept s s1 := by
    have hs : s1 = s := congrArg (List.foldl _ s) h
    rw [hs]
    exact .refl s
  clear_value s1
  have h2 : UnitsKept s s2 := h1.trans (unitsKept_clearDmas s1 c _ ((h1 c).2.trans h))
  clear_value s2
  have hw := unitsKept_withdraw s2 (.que c)
  have h3 : UnitsKept s s3 := by
    unfold s3
    generalize withdraw s2 (.que c) = x at hw ⊢
    have hx := h2.trans hw
    have hfl := engFlights_nil ((hx c).2.trans h) 6
    obtain ⟨v, _ | _⟩ := x
    · exact hx
    · change UnitsKept s (match engFlights (v.core c) 6 with | f :: _ => discardFlight v c f | [] => v)
      rw [hfl]
      exact hx
  clear_value s3
  split
  · next f _ hf =>
    rw [engFlights_nil ((h3 c).2.trans h)] at hf
    cases hf
  · exact h3

/-- R196: a halted core keeps its registers, and returns to its state. -/
theorem haltArrive_free {s : State} {c p : Nat} (hc : present s c = true) (hp : partOf s c = some p) (hbit : haltBitOf s p = true)
    (hblk : (s.core c).ctl.blk = .none) (hfl : (s.core c).flights = []) : ∃ t, exec (.haltArrive c) s = .next t ∧
      (t.core c).ctl.haltBit = true ∧ (t.core c).ctl.pc = (s.core c).ctl.pc ∧ (∀ r, rg t c r = rg s c r) ∧
      ((s.core c).ctl.st = .running → (t.core c).ctl.st = .halted ∧ (t.core c).ctl.resume = .running) ∧
      ((s.core c).ctl.st = .idle → (t.core c).ctl.st = .idle) := by
  have hexec : exec (.haltArrive c) s = execHaltArrive c s := rfl
  have hgate : present s c = true ∧ (partOf s c).any (haltBitOf s) = true := ⟨hc, by rw [hp, Option.any_some, hbit]⟩
  rw [hexec, execHaltArrive, if_pos hgate]
  dsimp only
  have hu : (modCtl s c fun k => { k with haltBit := true }).core c = { s.core c with ctl := { (s.core c).ctl with haltBit := true } } := core_modCtl _ _ _
  generalize modCtl s c (fun k => { k with haltBit := true }) = u at hu ⊢
  have hub : (u.core c).ctl.blk = .none := by rw [hu]; exact hblk
  rw [hub]
  dsimp only
  refine ⟨_, rfl, ?_⟩
  have hstop : ∀ st, st = (u.core c).ctl.st → ∃ k : Ctl, ((enginesHalt (modCtl u c fun t => { t with resume := st, st := .halted, blk := .none }) c).core c).ctl = k ∧
      k = { (s.core c).ctl with haltBit := true, resume := (s.core c).ctl.st, st := .halted, blk := .none } := fun st hst => by
    have hu' : (modCtl u c fun t => { t with resume := st, st := .halted, blk := .none }).core c =
        { s.core c with ctl := { (s.core c).ctl with haltBit := true, resume := st, st := .halted, blk := .none } } := by
      rw [core_modCtl, hu]
    refine ⟨_, rfl, ?_⟩
    rw [(unitsKept_enginesHalt (by rw [hu']; exact hfl) c).1, hu', hst, hu]
  have hst : (u.core c).ctl.st = (s.core c).ctl.st := by rw [hu]
  have hkept : (u.core c).ctl = { (s.core c).ctl with haltBit := true } := by rw [hu]
  rw [haltNow, hub]
  cases hs : (s.core c).ctl.st with
  | running =>
    obtain ⟨k, hk, hk'⟩ := hstop .running (hst.trans hs).symm
    rw [hst, hs]
    dsimp only
    simp only [rg]
    rw [hk, hk', hs]
    exact ⟨rfl, rfl, fun _ => rfl, fun _ => ⟨rfl, rfl⟩, fun h => by cases h⟩
  | ending =>
    obtain ⟨k, hk, hk'⟩ := hstop .ending (hst.trans hs).symm
    rw [hst, hs]
    dsimp only
    simp only [rg]
    rw [hk, hk', hs]
    exact ⟨rfl, rfl, fun _ => rfl, fun h => (by cases h), fun h => by cases h⟩
  | idle =>
    rw [hst, hs]
    dsimp only
    simp only [rg]
    rw [hkept]
    exact ⟨rfl, rfl, fun _ => rfl, fun h => (by cases h), fun _ => hs⟩
  | halted | faulted =>
    rw [hst, hs]
    dsimp only
    simp only [rg]
    rw [hkept]
    exact ⟨rfl, rfl, fun _ => rfl, fun h => (by cases h), fun h => (by cases h)⟩

/-- R196: a core that waits for a global access halts once that is done. -/
theorem haltArrive_access {s : State} {c p : Nat} (hc : present s c = true) (hp : partOf s c = some p) (hbit : haltBitOf s p = true)
    {g : GAccess} (hblk : (s.core c).ctl.blk = .gacc g) : ∃ t, exec (.haltArrive c) s = .next t ∧ OnlyCore s t c ∧
      t.core c = { s.core c with ctl := { (s.core c).ctl with haltBit := true } } := by
  have hexec : exec (.haltArrive c) s = execHaltArrive c s := rfl
  have hgate : present s c = true ∧ (partOf s c).any (haltBitOf s) = true := ⟨hc, by rw [hp, Option.any_some, hbit]⟩
  rw [hexec, execHaltArrive, if_pos hgate]
  dsimp only
  have hu : (modCtl s c fun k => { k with haltBit := true }).core c = { s.core c with ctl := { (s.core c).ctl with haltBit := true } } := core_modCtl _ _ _
  have honly : OnlyCore s (modCtl s c fun k => { k with haltBit := true }) c := onlyCore_modCtl _ _ _
  generalize modCtl s c (fun k => { k with haltBit := true }) = u at hu honly ⊢
  have hub : (u.core c).ctl.blk = .gacc g := by rw [hu]; exact hblk
  rw [hub]
  exact ⟨u, rfl, honly, hu⟩

/-- R196: RUN lets a halted core return to its state. -/
theorem runArrive_effect {s : State} {c p : Nat} (hc : present s c = true) (hp : partOf s c = some p) (hbit : haltBitOf s p = false) :
    ∃ t, exec (.runArrive c) s = .next t ∧ t.mem = s.mem ∧ (∀ k, k ≠ c → t.core k = s.core k) ∧
      t.core c = { s.core c with ctl := { (s.core c).ctl with
        haltBit := false, st := if (s.core c).ctl.st = .halted then (s.core c).ctl.resume else (s.core c).ctl.st } } := by
  have hexec : exec (.runArrive c) s = execRunArrive c s := rfl
  have h1152 : c < 1152 := by
    rw [present, Bool.and_eq_true, decide_eq_true_iff] at hc
    exact hc.1
  rw [hexec, execRunArrive, if_pos ⟨h1152, by rw [hp, Option.any_some, hbit]; decide⟩]
  dsimp only
  have hpart : partOf (modCtl s c fun k => { k with haltBit := false, st := if k.st = .halted then k.resume else k.st }) c = some p := hp
  rw [hpart]
  dsimp only
  have hcore := core_modCtl s c fun k => { k with haltBit := false, st := if k.st = .halted then k.resume else k.st }
  have hothers := fun k hk => core_modCtl_ne s (c := c) (k := k) (fun k => { k with haltBit := false, st := if k.st = .halted then k.resume else k.st }) hk
  have hmem : (modCtl s c fun k => { k with haltBit := false, st := if k.st = .halted then k.resume else k.st }).mem = s.mem := rfl
  generalize modCtl s c (fun k => { k with haltBit := false, st := if k.st = .halted then k.resume else k.st }) = u at hcore hothers hmem ⊢
  exact ⟨_, rfl, hmem, hothers, hcore⟩

/-! ### The halt net (R454 to R458) -/

/-- Every partition follows HALT_N. -/
def allFollow (s : State) : State := (List.range 16).foldl followHalt s

theorem allFollow_effect (s : State) : { allFollow s with parts := s.parts } = s ∧
    ∀ p < 16, ((allFollow s).part p).hSystem = (s.wake.haltN && cfgNum s 0x40 0x0008 p 1 == 1) := by
  have hrest : { allFollow s with parts := s.parts } = s :=
    List.foldlRecOn (motive := fun t : State => { t with parts := s.parts } = s) _ _ rfl fun t ht p _ => by
      conv_rhs => rw [← ht]
      rfl
  refine ⟨hrest, fun p hp => ?_⟩
  obtain ⟨u, hu, hall⟩ := foldl_passes (step := followHalt)
    (R := fun a b : State => { b with parts := a.parts } = a ∧ (b.part p).hSystem = (a.part p).hSystem)
    (fun _ => ⟨rfl, rfl⟩) (fun {a b c} h k => ⟨by
      conv_rhs => rw [← h.1, ← k.1], k.2.trans h.2⟩) List.nodup_range (List.mem_range.2 hp)
    (fun u x _ hx => ⟨rfl, by rw [followHalt, State.part, modPart, mget_mset_ne _ _ _ (Ne.symm hx), State.part]⟩) s
  rw [allFollow, hall.2, followHalt, State.part, modPart, mget_mset]
  dsimp only
  have hw : u.wake = s.wake := by rw [← hu.1]
  have hc : cfgNum u 0x40 0x0008 p 1 = cfgNum s 0x40 0x0008 p 1 := by rw [← hu.1]; rfl
  rw [hw, hc]

theorem parts_only {s t : State} {m : Map Part} (h : { t with parts := m } = s) : t.wake = s.wake ∧ t.mem = s.mem ∧ t.cores = s.cores := by
  rw [← h]
  exact ⟨rfl, rfl, rfl⟩

theorem haltN_effect (s : State) (b : Bool) : ∃ t, t = allFollow (modWake s fun w => { w with haltN := b }) ∧ t.wake.haltN = b ∧ t.mem = s.mem ∧
    t.cores = s.cores ∧ ∀ p < 16, (t.part p).hSystem = (b && cfgNum s 0x40 0x0008 p 1 == 1) := by
  obtain ⟨h, hp⟩ := allFollow_effect (modWake s fun w => { w with haltN := b })
  obtain ⟨hw, hm, hc⟩ := parts_only h
  exact ⟨_, rfl, congrArg Wake.haltN hw, hm, hc, hp⟩

theorem haltNAssert_effect (s : State) {ns : Nat} (h : 40 ≤ ns) : ∃ t, exec (.haltNAssert ns) s = .next t ∧ t.wake.haltN = true ∧ t.mem = s.mem ∧
    t.cores = s.cores ∧ ∀ p < 16, (t.part p).hSystem = decide (cfgNum s 0x40 0x0008 p 1 = 1) := by
  obtain ⟨t, ht, hn, hm, hc, hp⟩ := haltN_effect s true
  have hexec : exec (.haltNAssert ns) s = execHaltNAssert ns s := rfl
  refine ⟨t, ?_, hn, hm, hc, fun p h16 => (hp p h16).trans ?_⟩
  · rw [hexec, execHaltNAssert, if_pos h, ht]
    rfl
  · rw [Bool.true_and]
    rfl

theorem haltNRelease_effect {s : State} {ns : Nat} (h : 1000 ≤ ns) (hd : drivesHalt s = false) : ∃ t, exec (.haltNRelease ns) s = .next t ∧
    t.wake.haltN = false ∧ t.mem = s.mem ∧ t.cores = s.cores ∧ ∀ p < 16, (t.part p).hSystem = false := by
  obtain ⟨t, ht, hn, hm, hc, hp⟩ := haltN_effect s false
  have hexec : exec (.haltNRelease ns) s = execHaltNRelease ns s := rfl
  refine ⟨t, ?_, hn, hm, hc, fun p h16 => (hp p h16).trans (Bool.false_and _)⟩
  rw [hexec, execHaltNRelease, if_pos ⟨h, by rw [hd]; rfl⟩, ht]
  rfl

/-- R455: a partition whose cores have all stopped has halted. -/
theorem partitionHalted_effect {s : State} {p : Nat} (hp : p < 16) (hbit : haltBitOf s p = true) (hlow : s.wake.low = false)
    (hstop : ∀ c ∈ coresOf s p, (s.core c).flights = [] ∧ ((s.core c).ctl.st = .idle ∨ (s.core c).ctl.st = .halted ∨
      (s.core c).ctl.st = .faulted)) : ∃ t, exec (.partitionHalted p) s = .next t ∧ { t with parts := s.parts } = s ∧
      t.part p = { s.part p with halted := true } := by
  have hexec : exec (.partitionHalted p) s = execPartitionHalted p s := rfl
  have hall : allStopped s p = true := by
    rw [allStopped, List.all_eq_true]
    intro c hc
    obtain ⟨hfl, hst⟩ := hstop c hc
    dsimp only
    rw [hfl]
    rcases hst with h | h | h <;> rw [h] <;> rfl
  refine ⟨modPart s p fun k => { k with halted := true }, ?_, rfl, ?_⟩
  · rw [hexec, execPartitionHalted, if_pos ⟨hp, hbit, hall⟩, lowEnter, if_neg]
    rintro ⟨h, -⟩
    have hw : s.wake.low = true := h
    rw [hlow] at hw
    cases hw
  · rw [State.part, modPart, mget_mset]

end Sys2Proof.Machine
end

section
/-!
SUPPORT. Restarts of Carafe, and the Survey in its other half (R47, R49, R452, R531).
-/

namespace Sys2Proof.Machine
open Sys2Proof

/-! ### Restarts of Carafe (R452, R520, R531) -/

theorem clkFields_requestChange (s : State) (t : Nat) (targets : Map Nat) : ClkFields s (requestChange s t targets) := by
  rw [requestChange]
  split
  · rfl
  · split
    · rfl
    · exact (armChange_only s _).1

/-- R421: fields above nominal are lowered. -/
def safeSlowed (s : State) : State :=
  let high := (List.range 12).filter (fun n => fieldOn s n && decide (Config.nominalStep < (s.field n).step))
  let s := high.foldl (fun s n => modField s n (fun k => { k with target := Config.nominalStep })) s
  requestChange s (s.echoM.toNat + 60000) (high.map (fun n => (n, Config.nominalStep)))

theorem clkFields_safeSlowed (s : State) : ClkFields s (safeSlowed s) := by
  rw [safeSlowed]
  refine ClkFields.trans ?_ (clkFields_requestChange _ _ _)
  exact List.foldlRecOn (motive := fun t => ClkFields s t) _ _ rfl fun t ht n _ => ht.trans rfl

/-- A restart up to the change of the clocks: sessions close, and downloads are cut short. -/
def carafeDown (s : State) : State :=
  modWake (modFw (modMgmt (closeSessions s (fun _ => true) .start) fun m => { m with hands := [] }) fun f => if f.upd = 1 then { f with upd := 0 } else f)
    fun w => { w with mgmt := true }

theorem mgmtRestart_eq (s : State) : mgmtRestart s = safeSlowed (carafeDown s) := rfl

theorem runView_modFw (s : State) (f : Fw → Fw) : runView (modFw s f) = runView s := rfl

theorem runView_carafeDown (s : State) : runView (carafeDown s) = runView s :=
  (runView_modFw (modMgmt (closeSessions s (fun _ => true) .start) fun m => { m with hands := [] })
    fun f => if f.upd = 1 then { f with upd := 0 } else f).trans (runView_closeSessions s _ _)

theorem ClkFields.wake {s t : State} (h : ClkFields s t) : t.wake = s.wake := by rw [← h]

theorem ClkFields.dev {s t : State} (h : ClkFields s t) : t.dev = s.dev := by rw [← h]

theorem mgmt_carafeDown (s : State) : (carafeDown s).wake.mgmt = true := rfl

/-- R452: a restart of Carafe leaves the cores, memory and the device's state. -/
theorem mgmtRestart_effect (s : State) : (mgmtRestart s).wake.mgmt = true ∧ (mgmtRestart s).dev = s.dev ∧ (mgmtRestart s).mem = s.mem ∧
    (mgmtRestart s).cores = s.cores := by
  have hv := runView_carafeDown s
  have hm := mgmt_carafeDown s
  rw [mgmtRestart_eq]
  generalize carafeDown s = u at hv hm ⊢
  have hc := clkFields_safeSlowed u
  exact ⟨(congrArg Wake.mgmt hc.wake).trans hm, hc.dev.trans (dev_of_view hv), hc.mem.trans (mem_of_view hv), hc.cores.trans (cores_of_view hv)⟩

/-- R520: a silent Carafe restarts. -/
theorem watchdogExpire_effect {s : State} (hdev : s.dev ≠ .off) (hm : s.wake.mgmt = false) (ht : trialOn s = false) :
    ∃ t, exec .watchdogExpire s = .next t ∧ t.wake.mgmt = true ∧ t.dev = s.dev ∧ t.mem = s.mem ∧ t.cores = s.cores := by
  have hexec : exec .watchdogExpire s = execWatchdogExpire s := rfl
  refine ⟨mgmtRestart s, ?_, mgmtRestart_effect s⟩
  rw [hexec, execWatchdogExpire, if_neg (by rintro (h | h); exact hdev h; rw [hm] at h; cases h),
    if_neg (by rw [ht]; exact Bool.false_ne_true)]

/-- Nothing waits for Carafe, and the banks, memory and cores stand. -/
structure Back (s t : State) : Prop where
  mgmt : t.wake.mgmt = false
  waits : t.wake.waitSurvey = []
  fw : t.fw = s.fw
  mem : t.mem = s.mem
  cores : t.cores = s.cores

theorem Back.logged {s t u : State} (h : Back s t) (k : Logged t u) : Back s u := by
  obtain ⟨h1, h2, h3, h4, h5⟩ := h
  rw [k]
  exact ⟨h1, h2, h3, h4, h5⟩

theorem makeRoom_only (s : State) : ∃ v, makeRoom s = { s with survey := v } := by
  rw [makeRoom]
  split
  · exact ⟨_, rfl⟩
  · exact ⟨_, rfl⟩

theorem Back.surveyPut {s t : State} (h : Back s t) (ty source : Nat) (revoke prov : Bool) (loc : Bytes) :
    Back s (surveyPut t ty source revoke prov loc) := by
  have hroom : Back s (makeRoom t) := by
    obtain ⟨v, hv⟩ := makeRoom_only t
    rw [hv]
    exact ⟨h.mgmt, h.waits, h.fw, h.mem, h.cores⟩
  rw [surveyPut_puts t ty source revoke prov loc h.mgmt]
  generalize makeRoom t = u at hroom ⊢
  split
  · exact ⟨hroom.mgmt, hroom.waits, hroom.fw, hroom.mem, hroom.cores⟩
  · refine Back.logged (t := { u with survey := { u.survey with ram := u.survey.ram ++ [newEntry u ty source revoke prov loc], full := true } }) ?_
      (logged_inRam _ _)
    exact ⟨hroom.mgmt, hroom.waits, hroom.fw, hroom.mem, hroom.cores⟩

/-- R452: what waited for Carafe is done when it is back. -/
theorem carafeBack_effect {s : State} (h : s.wake.waitFail = []) : Back s (carafeBack s) := by
  unfold carafeBack
  extract_lets kept lost survey failed s1 s2 s3 s4 s5
  have h1 : Back s s1 := ⟨rfl, rfl, rfl, rfl, rfl⟩
  clear_value s1
  have h2 : Back s s2 := List.foldlRecOn (motive := fun t => Back s t) _ _ h1 fun t ht r _ => ht.logged (logged_storeRec t r)
  clear_value s2
  have h3 : Back s s3 := by
    unfold s3
    split
    · exact h2.logged (logged_raiseRec _ _ _ _ _ _ _ _)
    · exact h2
  clear_value s3
  have h4 : Back s s4 := List.foldlRecOn (motive := fun t => Back s t) _ _ h3 fun t ht e _ => ht.surveyPut _ _ _ _ _
  clear_value s4
  have h5 : Back s s5 := ⟨h4.mgmt, h4.waits, h4.fw, h4.mem, h4.cores⟩
  clear_value s5
  have hf : failed = [] := h
  rw [hf]
  exact h5

/-- The bank that runs, and the starts of it that were tried. -/
def Fw.running (k : Fw) : Nat × Nat := (k.runC, k.tries)

theorem running_modFw (s : State) (f : Fw → Fw) : (modFw s f).fw.running = (f s.fw).running := by
  obtain ⟨q, o, a, h⟩ := modFw_eq s f
  rw [h]
  rfl

theorem running_fwEvent (s : State) (stage bank chk : Nat) : (fwEvent s stage bank chk).fw.running = s.fw.running := by
  rw [fw_fwEvent, running_modFw]
  rfl

/-- The firmware's state and what records change differ alone. -/
def FwOnly (s t : State) : Prop := ∃ k, Logged { s with fw := k } t

theorem fwOnly_modFw (s : State) (f : Fw → Fw) : FwOnly s (modFw s f) := ⟨_, .refl _⟩

theorem FwOnly.trans {s t u : State} (h : FwOnly s t) (k : FwOnly t u) : FwOnly s u := by
  obtain ⟨x, h⟩ := h
  obtain ⟨y, k⟩ := k
  refine ⟨y, Logged.trans (t := { t with fw := y }) ?_ k⟩
  rw [Logged] at h ⊢
  rw [h]

theorem Logged.fwOnly {s t : State} (h : Logged s t) : FwOnly s t := ⟨s.fw, h⟩

theorem fwOnly_fwEvent (s : State) (stage bank chk : Nat) : FwOnly s (fwEvent s stage bank chk) := by
  rw [fwEvent, raiseEvent]
  exact (fwOnly_modFw s _).trans (logged_raiseRec _ _ _ _ _ _ _ _).fwOnly

theorem fwOnly_trialBegin (s : State) (b kind : Nat) : FwOnly s (trialBegin s b kind) :=
  (fwOnly_modFw s _).trans (fwOnly_fwEvent _ _ _ _)

theorem running_trialBegin (s : State) (b kind : Nat) : (trialBegin s b kind).fw.running = s.fw.running := by
  rw [trialBegin, running_fwEvent, running_modFw]
  rfl

theorem FwOnly.rest {s t : State} (h : FwOnly s t) : t.wake.waitFail = s.wake.waitFail ∧ t.mem = s.mem ∧ t.cores = s.cores := by
  obtain ⟨k, h⟩ := h
  rw [h]
  exact ⟨rfl, rfl, rfl⟩

/-- R531: the bank in turn runs. -/
theorem bankRuns_effect (s : State) (b : Nat) : FwOnly s (bankRuns s b 0) ∧ (bankRuns s b 0).fw.running = (b, 0) := by
  unfold bankRuns
  extract_lets s1
  have h1 : FwOnly s s1 := fwOnly_modFw s _
  have hr : s1.fw.running = (b, 0) := running_modFw s _
  clear_value s1
  split
  · exact ⟨h1, hr⟩
  · exact ⟨h1.trans (fwOnly_trialBegin s1 b 0), (running_trialBegin s1 b 0).trans hr⟩

/-- R452, R531: Carafe of the bank in turn takes control. -/
theorem takesControl_effect {s : State} {b : Nat} (hm : s.wake.mgmt = true) (hb : (bankOrder s)[s.fw.tries / 2]? = some b)
    (hw : s.wake.waitFail = []) : ∃ t, exec (.carafeTakeControl true) s = .next t ∧ t.wake.mgmt = false ∧ t.wake.waitSurvey = [] ∧
      t.fw.runC = b ∧ t.fw.tries = 0 ∧ t.mem = s.mem ∧ t.cores = s.cores := by
  have hexec : exec (.carafeTakeControl true) s = execCarafeTakeControl true s := rfl
  obtain ⟨hfw, hrun⟩ := bankRuns_effect s b
  obtain ⟨hwf, hmem, hcores⟩ := hfw.rest
  have hback := carafeBack_effect (hwf.trans hw)
  refine ⟨carafeBack (bankRuns s b 0), ?_, hback.mgmt, hback.waits, ?_, ?_, hback.mem.trans hmem, hback.cores.trans hcores⟩
  · rw [hexec, execCarafeTakeControl, if_neg (by rw [hm]; decide)]
    dsimp only
    rw [if_pos rfl, hb]
  · rw [hback.fw]
    exact congrArg Prod.fst hrun
  · rw [hback.fw]
    exact congrArg Prod.snd hrun

/-- R531: a bank whose Carafe does not come is tried again, then the next; with none left the device is FAULTED. -/
theorem noControl_effect {s : State} (hm : s.wake.mgmt = true) (ht : trialOn s = false) (hoff : s.dev ≠ .off) (hheld : s.dev ≠ .held) :
    ∃ t, exec (.carafeTakeControl false) s = .next t ∧ t.fw.tries = s.fw.tries + 1 ∧
      ((bankOrder s).length ≤ (s.fw.tries + 1) / 2 → t.dev = .faulted ∧ t.fw.recovery = true) ∧
      ((s.fw.tries + 1) / 2 < (bankOrder s).length → t.dev = s.dev ∧ t.wake.mgmt = true) := by
  have hexec : exec (.carafeTakeControl false) s = execCarafeTakeControl false s := rfl
  rw [hexec, execCarafeTakeControl, if_neg (by rw [hm]; decide)]
  dsimp only
  rw [if_neg Bool.false_ne_true, if_neg (by rintro ⟨h, -⟩; rw [ht] at h; cases h)]
  obtain ⟨q, o, a, h⟩ := modFw_eq s fun f => { f with tries := f.tries + 1 }
  rw [h]
  dsimp only
  by_cases hlen : (bankOrder s).length ≤ (s.fw.tries + 1) / 2
  · rw [if_pos hlen]
    obtain ⟨q', o', a', h'⟩ := modFw_eq { s with fw := { s.fw with tries := s.fw.tries + 1, recSeq := q, older := o, recAt := a } } fun f =>
      { f with recovery := true }
    rw [h']
    dsimp only
    generalize hu : ({ s with fw := _ } : State) = u
    have hud : u.dev = s.dev := by rw [← hu]
    obtain ⟨hd, -, -, -, -, -, -, -, hfw⟩ := enterFaulted_effect (s := u) (hud ▸ hoff) (hud ▸ hheld)
    refine ⟨_, rfl, ?_, fun _ => ⟨hd, ?_⟩, fun hlt => absurd hlen (by omega)⟩
    · rw [hfw, ← hu]
    · rw [hfw, ← hu]
  · rw [if_neg hlen]
    exact ⟨_, rfl, rfl, fun hle => absurd hle hlen, fun _ => ⟨rfl, hm⟩⟩

end Sys2Proof.Machine
end

section
/-!
SUPPORT. Records, compactions and field checks (R47, R469 to R482).
-/

namespace Sys2Proof.Machine
open Sys2Proof

/-! ### Records (R470, R476) -/

/-- What a stored record changes. -/
theorem storeRec_only (s : State) (r : LogRec) : ∃ a b c, storeRec s r = { s with
    lastSeq := s.lastSeq + 1
    logBuf := s.logBuf ++ [{ r with seq := s.lastSeq + 1, alert := decide (1 ≤ r.cls) && decide (r.cls ≤ 3) }]
    totals := a
    totalsCold := b
    sessions := c } := by
  rw [storeRec, deliverRec]
  dsimp only
  split <;> exact ⟨_, _, _, rfl⟩

/-- R470: the record of a coalescing window. -/
def Coal.record (w : Coal) : LogRec :=
  { cls := w.cls
    coalesced := true
    alert := false
    code := w.code
    seq := 0
    echo := w.echo
    ukind := w.ukind
    part := w.part
    unit := w.unit
    count := w.count
    detail := w.detail }

/-- R470: the oldest window ends in one record. -/
theorem coalesceFlush_effect {s : State} {w : Coal} {ws : List Coal} (h : s.coals = w :: ws) : ∃ t, exec .errorCoalesceFlush s = .next t ∧
    t.coals = ws ∧ t.mem = s.mem ∧ t.cores = s.cores ∧ (w.count = 0 → t.logBuf = s.logBuf) ∧
    (w.count ≠ 0 → s.wake.mgmt = false → ∃ e, t.logBuf = s.logBuf ++ [e] ∧ e.code = w.code ∧ e.count = w.count ∧
      e.coalesced = true ∧ e.detail = w.detail) := by
  have hexec : exec .errorCoalesceFlush s = execErrorCoalesceFlush s := rfl
  rw [hexec, execErrorCoalesceFlush, h]
  dsimp only
  by_cases hc : w.count = 0
  · rw [if_pos hc]
    exact ⟨_, rfl, rfl, rfl, rfl, fun _ => rfl, fun hn => absurd hc hn⟩
  · rw [if_neg hc, appendRec]
    by_cases hm : s.wake.mgmt = true
    · rw [if_pos hm]
      exact ⟨_, rfl, rfl, rfl, rfl, fun h0 => absurd h0 hc, fun _ hf => by rw [hm] at hf; cases hf⟩
    · obtain ⟨a, b, c, hs⟩ := storeRec_only { s with coals := ws } w.record
      rw [if_neg hm]
      refine ⟨_, congrArg Host.Outcome.next hs, rfl, rfl, rfl, fun h0 => absurd h0 hc, fun _ _ => ⟨_, rfl, rfl, rfl, rfl, rfl⟩⟩

/-! ### Compactions (R47, R49) -/

/-- R47: the Survey whose other half is erased for a compaction. -/
def Survey.begun (v : Survey) : Survey :=
  { (if v.second then { v with half0 := ⟨none, []⟩ } else { v with half1 := ⟨none, []⟩ }) with
    compacting := true
    refuses := false }

/-- Where the flash refuses, the current half stands. -/
def Survey.refused (v : Survey) : Survey := { v with compacting := false, refuses := true, full := true }

/-- R42: the second half is current where its header is valid. -/
theorem second_gen {v : Survey} (h : v.second = true) : ∃ b, v.half1.gen = some b := by
  rw [Survey.second] at h
  cases h1 : v.half1.gen with
  | none => cases h0 : v.half0.gen <;> rw [h0, h1] at h <;> cases h
  | some b => exact ⟨b, rfl⟩

theorem begun_effect (v : Survey) : v.begun.cur = v.cur ∧ (if v.second then v.begun.half0 else v.begun.half1) = ⟨none, []⟩ := by
  cases hs : v.second with
  | true =>
    have hb : v.begun = { v with half0 := ⟨none, []⟩, compacting := true, refuses := false } := by
      rw [Survey.begun, hs]
      rfl
    have h2 : v.begun.second = true := by
      rw [hb, Survey.second]
      dsimp only
      have hg : (SurveyHalf.mk none []).gen = none := rfl
      rw [hg]
      obtain ⟨b, h1⟩ := second_gen hs
      rw [h1]
    rw [Survey.cur, Survey.cur, h2, hs, hb]
    exact ⟨rfl, rfl⟩
  | false =>
    have hb : v.begun = { v with half1 := ⟨none, []⟩, compacting := true, refuses := false } := by
      rw [Survey.begun, hs]
      rfl
    have h2 : v.begun.second = false := by
      rw [hb, Survey.second]
      dsimp only
      have hg : (SurveyHalf.mk none []).gen = none := rfl
      rw [hg]
      cases v.half0.gen <;> rfl
    rw [Survey.cur, Survey.cur, h2, hs, hb]
    exact ⟨rfl, rfl⟩

theorem cur_refused (v : Survey) : v.refused.cur = v.cur := rfl

/-- R42: the generation of a header whose number fits. -/
theorem gen_header_eq {n : Nat} (h : n < 2 ^ 32) (seq : Nat) (echo : W64) (slots : List SurveySlot) :
    (SurveyHalf.mk (some (headerEntry n seq echo)) slots).gen = some n := by
  have hver : leAt (headerEntry n seq echo).loc 4 2 = 0x0100 := by
    rw [leAt, headerEntry]
    dsimp only
    rw [List.append_assoc, List.drop_left' (natBytes_length 4 n)]
    rfl
  have hgen : leAt (headerEntry n seq echo).loc 0 4 = n := by
    rw [leAt, headerEntry]
    dsimp only
    rw [List.drop_zero, List.append_assoc, List.take_left' (natBytes_length 4 n), leNat_natBytes]
    exact Nat.mod_eq_of_lt h
  rw [SurveyHalf.gen]
  dsimp only
  rw [if_pos ⟨rfl, hver⟩, hgen]

/-- R47: what a compaction leaves, whose header makes its half the current one. -/
theorem compacted_effect (v : Survey) (echo : W64) (h : v.gen + 1 < 2 ^ 32) :
    (v.compacted (liveOf v.entries) echo).gen = v.gen + 1 ∧ (v.compacted (liveOf v.entries) echo).nextSeq = v.nextSeq + 1 ∧
      (v.compacted (liveOf v.entries) echo).compacting = false ∧
      (if v.second then (v.compacted (liveOf v.entries) echo).half1 else (v.compacted (liveOf v.entries) echo).half0) = ⟨none, []⟩ := by
  have hg := gen_header_eq h v.nextSeq echo ((liveOf v.entries).map .entry)
  have hnone : (SurveyHalf.mk none []).gen = none := rfl
  rw [Survey.gen, Survey.cur, Survey.second, Survey.compacted]
  cases hs : v.second with
  | true =>
    rw [if_pos rfl, if_pos rfl]
    dsimp only
    rw [hnone, hg, if_neg Bool.false_ne_true, hg]
    exact ⟨rfl, rfl, rfl, rfl⟩
  | false =>
    rw [if_neg Bool.false_ne_true, if_neg Bool.false_ne_true]
    dsimp only
    rw [hnone, hg, if_pos rfl, hg]
    exact ⟨rfl, rfl, rfl, rfl⟩

theorem compacting_compacted (v : Survey) (live : List SurveyEntry) (echo : W64) : (v.compacted live echo).compacting = false := by
  rw [Survey.compacted]
  split <;> rfl

/-- R47, R49: one stage of a compaction. -/
theorem exec_surveyCompact {s : State} (hm : s.wake.mgmt = false)
    (h : s.survey.compacting = true ∨ 58982 ≤ s.survey.cur.slots.length + 1) :
    exec .surveyCompact s = .next (compactStep (Config.freeBool s.fresh) { s with fresh := s.fresh + 1 }) := by
  have hexec : exec .surveyCompact s = execSurveyCompact s := rfl
  rw [hexec, execSurveyCompact]
  dsimp only
  rw [if_neg]
  · rfl
  · rw [hm, Bool.false_or, Bool.and_eq_true, decide_eq_true_iff]
    rintro ⟨h1, h2⟩
    rcases h with h | h
    · rw [h] at h1
      cases h1
    · omega

theorem compactStep_begins {s : State} (h : s.survey.compacting = false) : compactStep true s = { s with survey := s.survey.begun } := by
  rw [compactStep]
  dsimp only
  rw [if_neg (c := (!true) = true) (by decide), if_neg (c := s.survey.compacting = true) (by rw [h]; decide)]
  rfl

theorem compactStep_ends {s : State} (h : s.survey.compacting = true) :
    compactStep true s = { s with survey := s.survey.compacted (liveOf s.survey.entries) s.echoM } := by
  rw [compactStep]
  dsimp only
  rw [if_neg (c := (!true) = true) (by decide), if_pos (c := s.survey.compacting = true) h]

theorem compactStep_refused (s : State) : Logged { s with survey := s.survey.refused } (compactStep false s) := by
  rw [compactStep]
  exact logged_raiseErr (code := 0x0013) (by decide) _ 9 0 none s.echoM []

theorem surveyCompact_begins {s : State} (hm : s.wake.mgmt = false) (hc : s.survey.compacting = false)
    (hlen : 58982 ≤ s.survey.cur.slots.length + 1) : ∃ t, exec .surveyCompact s = .next t ∧
      t.survey.entries = s.survey.entries ∧ (Config.freeBool s.fresh = true → { t with survey := s.survey, fresh := s.fresh } = s ∧
        t.survey.compacting = true ∧ t.survey.gen = s.survey.gen ∧
        (if s.survey.second then t.survey.half0 else t.survey.half1) = ⟨none, []⟩) := by
  obtain ⟨hcur, hhalf⟩ := begun_effect s.survey
  rw [exec_surveyCompact hm (.inr hlen)]
  cases hf : Config.freeBool s.fresh with
  | true =>
    rw [compactStep_begins (s := { s with fresh := s.fresh + 1 }) hc]
    refine ⟨_, rfl, ?_, fun _ => ⟨rfl, rfl, ?_, hhalf⟩⟩
    · exact congrArg (fun h : SurveyHalf => readSlots h.slots) hcur
    · exact congrArg (fun h : SurveyHalf => h.gen.getD 0) hcur
  | false =>
    have hl := compactStep_refused { s with fresh := s.fresh + 1 }
    exact ⟨_, rfl, by rw [hl.survey]; rfl, fun h => by cases h⟩

theorem surveyCompact_ends {s : State} (hm : s.wake.mgmt = false) (hc : s.survey.compacting = true) (hgen : s.survey.gen + 1 < 2 ^ 32) :
    ∃ t, exec .surveyCompact s = .next t ∧ t.survey.compacting = false ∧
      (Config.freeBool s.fresh = true → { t with survey := s.survey, fresh := s.fresh } = s ∧
        t.survey.entries = liveOf s.survey.entries ∧ t.survey.gen = s.survey.gen + 1 ∧
        t.survey.nextSeq = s.survey.nextSeq + 1 ∧
        (if s.survey.second then t.survey.half1 else t.survey.half0) = ⟨none, []⟩) := by
  obtain ⟨h1, h2, h3, h4⟩ := compacted_effect s.survey s.echoM hgen
  rw [exec_surveyCompact hm (.inl hc)]
  cases hf : Config.freeBool s.fresh with
  | true =>
    rw [compactStep_ends (s := { s with fresh := s.fresh + 1 }) hc]
    exact ⟨_, rfl, h3, fun _ => ⟨rfl, entries_compacted _ _ _, h1, h2, h4⟩⟩
  | false =>
    have hl := compactStep_refused { s with fresh := s.fresh + 1 }
    exact ⟨_, rfl, by rw [hl.survey]; rfl, fun h => by cases h⟩

theorem surveyCompact_refused {s : State} (hm : s.wake.mgmt = false)
    (h : s.survey.compacting = true ∨ 58982 ≤ s.survey.cur.slots.length + 1) :
    ∃ t, exec .surveyCompact s = .next t ∧ t.mem = s.mem ∧ t.cores = s.cores ∧ (Config.freeBool s.fresh = false →
        t.survey.entries = s.survey.entries ∧ t.survey.refuses = true ∧ t.survey.full = true) := by
  rw [exec_surveyCompact hm h]
  cases hf : Config.freeBool s.fresh with
  | true =>
    cases hc : s.survey.compacting with
    | true =>
      rw [compactStep_ends (s := { s with fresh := s.fresh + 1 }) hc]
      exact ⟨_, rfl, rfl, rfl, fun h => by cases h⟩
    | false =>
      rw [compactStep_begins (s := { s with fresh := s.fresh + 1 }) hc]
      exact ⟨_, rfl, rfl, rfl, fun h => by cases h⟩
  | false =>
    have hl := compactStep_refused { s with fresh := s.fresh + 1 }
    generalize compactStep false _ = u at hl ⊢
    refine ⟨u, rfl, ?_, ?_, fun _ => ?_⟩
    · rw [hl]
    · rw [hl]
    · rw [hl.survey]
      exact ⟨rfl, rfl, rfl⟩

theorem surveyCompact_waits {s : State} (hc : s.survey.compacting = false) (hlen : s.survey.cur.slots.length + 1 < 58982) :
    exec .surveyCompact s = .next s := by
  have hexec : exec .surveyCompact s = execSurveyCompact s := rfl
  rw [hexec, execSurveyCompact]
  exact congrArg Host.Outcome.next (if_pos (by rw [hc, decide_eq_true hlen, Bool.not_false, Bool.and_true, Bool.or_true]))

/-! ### Field checks (R479 to R482) -/

/-- What the check of a group leaves: the results and the groups that remain, group `g` out of check, and every defect live. -/
structure Checks (g : Nat) (s t : State) : Prop where
  check : t.wake.check = { s.wake.check with st := t.wake.check.st }
  mgmt : t.wake.mgmt = s.wake.mgmt
  grp : (s.grp g).check = false → (t.grp g).check = false
  finds : Finds s t

theorem Checks.refl (g : Nat) (s : State) : Checks g s s := ⟨rfl, rfl, id, .refl s⟩

theorem Checks.trans {g : Nat} {s t u : State} (h : Checks g s t) (k : Checks g t u) : Checks g s u := by
  refine ⟨?_, k.mgmt.trans h.mgmt, k.grp ∘ h.grp, h.finds.trans k.finds⟩
  rw [k.check, h.check]

theorem Loses.checks {s t : State} (h : Loses s t) (g : Nat) : Checks g s t := by
  obtain ⟨-, -, -, -, -, hc⟩ := h.grp g
  refine ⟨?_, h.mgmt, hc, h.finds⟩
  rw [h.rest]

theorem Frees.checks {s t : State} (h : Frees s t) (g : Nat) : Checks g s t := by
  have hs : t.survey = s.survey := by rw [h.rest]
  refine ⟨?_, ?_, fun hc => ?_, finds_of_survey hs⟩
  · rw [h.rest]
  · rw [h.rest]
  · rw [h.grp]
    exact hc

theorem ActsEnd.checks {s t : State} (h : ActsEnd s t) (g : Nat) : Checks g s t := by
  have hs : t.survey = s.survey := by rw [h]
  have hg : t.grp g = s.grp g := by
    rw [h]
    rfl
  refine ⟨?_, ?_, fun hc => hg ▸ hc, finds_of_survey hs⟩
  · rw [h]
  · rw [h]

theorem checks_modGrp (s : State) {g : Nat} (x : Nat) {f : Group → Group} (h : (s.grp g).check = false → x = g → (f (s.grp x)).check = false) :
    Checks g s (modGrp s x f) := by
  refine ⟨rfl, rfl, fun hc => ?_, fun _ h => h⟩
  by_cases hx : g = x
  · have h' := h hc hx.symm
    rw [hx, grp_modGrp]
    exact h'
  · rw [grp_modGrp_ne _ _ hx]
    exact hc

/-- A group joins its partition again, or stays where that is held. -/
theorem frees_joinPartition (s : State) (g : Nat) : Frees s (joinPartition s g) := by
  rw [joinPartition]
  split_ifs
  · exact .refl s
  · exact frees_releaseGroup s g

/-- R481: a group out of check joins its partition, is re-mapped, or is lost, as its failing columns say. -/
def afterCheck (s : State) (g : Nat) (lost idle : Bool) (dead : Nat) (cols : List Nat) : State :=
  if lost then s
  else
    match cols with
    | [] => joinPartition (modGrp s g (fun k => { k with tdead := k.tdead ||| dead })) g
    | [c] =>
      if idle then modGrp s g (fun k => { k with remap := some ⟨c, false⟩ })
      else loseGroup (modGrp s g (fun k => { k with tdead := k.tdead ||| dead })) g 0 false
    | _ => loseGroup (modGrp s g (fun k => { k with tdead := k.tdead ||| dead })) g 0 false

theorem checks_afterCheck (s : State) (g : Nat) (lost idle : Bool) (dead : Nat) (cols : List Nat) : Checks g s (afterCheck s g lost idle dead cols) := by
  have hdead : Checks g s (modGrp s g fun k => { k with tdead := k.tdead ||| dead }) := checks_modGrp s g fun hc _ => hc
  have hlose := hdead.trans ((loses_loseGroup (modGrp s g fun k => { k with tdead := k.tdead ||| dead }) g 0 false).checks g)
  unfold afterCheck
  split
  · exact .refl g s
  · split
    · exact hdead.trans ((frees_joinPartition _ g).checks g)
    · next c =>
      split
      · exact checks_modGrp s g (f := fun k => { k with remap := some ⟨c, false⟩ }) fun hc _ => hc
      · exact hlose
    · exact hlose

/-- R480: the next groups come under check; a group that is done does not. -/
theorem checks_checkNext {s : State} {g : Nat} (h : ∀ x ∈ s.wake.check.groups, x ≠ g) : Checks g s (checkNext s) := by
  refine List.foldlRecOn (motive := fun t => Checks g s t) _ _ (.refl g s) fun t ht n _ => ht.trans ?_
  split
  · exact .refl g t
  · next x hx =>
    have hmem : x ∈ t.wake.check.groups := List.mem_of_find?_eq_some hx
    rw [ht.check] at hmem
    split
    · exact .refl g t
    · exact ((loses_resetGroup t x true).checks g).trans (checks_modGrp _ x fun _ hxg => absurd hxg (h x hmem))

theorem checkNext_none {s : State} (h : s.wake.check.groups = []) : checkNext s = s :=
  List.foldlRecOn (motive := fun t => t = s) _ _ rfl fun t ht n _ => by
    subst ht
    have hn : checkTurn t n = none := by rw [checkTurn, h, List.find?_nil]
    rw [hn]

/-- R480: the check ends, or goes on. -/
theorem checkEnd_effect (s : State) : ∃ k, k = { s.wake.check with st := k.st } ∧ ActsEnd { s with wake := { s.wake with check := k } } (checkEnd s) := by
  rw [checkEnd]
  dsimp only
  split
  · exact ⟨{ s.wake.check with st := 2 }, rfl, actsEnd_endAsync (modWake s fun w => { w with check := { w.check with st := 2 } }) 4 0⟩
  · exact ⟨s.wake.check, rfl, .refl s⟩

theorem checks_checkEnd (s : State) (g : Nat) : Checks g s (checkEnd s) := by
  obtain ⟨k, hk, h⟩ := checkEnd_effect s
  exact Checks.trans (t := { s with wake := { s.wake with check := k } }) ⟨hk, rfl, id, fun _ h => h⟩ (h.checks g)

theorem survey_checkEnd (s : State) : (checkEnd s).survey = s.survey := by
  obtain ⟨k, -, h⟩ := checkEnd_effect s
  rw [h]

/-- The LOCATION of a tile that failed a test (R481). -/
def tileLoc (g col r : Nat) : Bytes :=
  natBytes 1 (tileXY g col).1 ++ natBytes 1 (tileXY g col).2 ++ natBytes 1 1 ++ natBytes 1 (r - 2)

theorem tileLoc_eq (g col r : Nat) : tileLoc g col r =
    natBytes 1 (13 * (g / 8 % 3) + col) ++ natBytes 1 (8 * (g / 24) + g % 8) ++ natBytes 1 1 ++ natBytes 1 (r - 2) := rfl

theorem logged_checkTile (g : Nat) (s : State) (col r : Nat) : Logged (surveyAppend s 1 3 true (tileLoc g col r)) (checkTile g s (col, r)) := by
  rw [checkTile]
  dsimp only
  split
  · exact logged_raiseErr (by decide) _ _ _ _ _ _
  · exact logged_raiseErr (by decide) _ _ _ _ _ _

theorem checkTile_effect (g : Nat) (s : State) (col r : Nat) : SurveyAdds s (checkTile g s (col, r)) 1 (tileLoc g col r) ∧
    Checks g s (checkTile g s (col, r)) := by
  have hl := logged_checkTile g s col r
  have ha := surveyAppend_adds (s := s) (ty := 1) (loc := tileLoc g col r) 3 true
  have hf := (found_surveyAppend (s := s) (ty := 1) (loc := tileLoc g col r) 3 true).trans hl.found
  have hlast : Finds (surveyAppend s 1 3 true (tileLoc g col r)) (checkTile g s (col, r)) := finds_of_survey hl.survey
  have hadds := SurveyAdds.between (.refl s) rfl ha hlast
  generalize checkTile g s (col, r) = u at hf hadds ⊢
  refine ⟨hadds, ⟨?_, hf.mgmt, fun hc => ?_, hadds.1⟩⟩
  · rw [hf]
  · rw [State.grp, hf.groups]
    exact hc

/-- The tiles of a group that failed, of its results. -/
def failing (rs : List Nat) : List (Nat × Nat) := ((List.range 13).zip rs).filter (fun x => decide (x.2 ≠ 0))

theorem zip_map_range (n : Nat) (f : Nat → Nat) : (List.range n).zip ((List.range n).map f) = (List.range n).map fun i => (i, f i) := by
  conv_lhs =>
    arg 1
    rw [← List.map_id (List.range n)]
  exact List.zip_map'

theorem failing_one {col : Nat} (h : col < 13) (r : Nat) : failing ((List.range 13).map fun i => if i = col then r else 0) =
    if r = 0 then [] else [(col, r)] := by
  rw [failing, zip_map_range, List.filter_map]
  by_cases hr : r = 0
  · subst hr
    rw [if_pos rfl, List.filter_eq_nil_iff.2, List.map_nil]
    intro i _
    dsimp only [Function.comp]
    simp
  · have hp : ((fun x : Nat × Nat => decide (x.2 ≠ 0)) ∘ fun i => (i, if i = col then r else 0)) = fun i => i == col := by
      funext i
      dsimp only [Function.comp]
      by_cases hi : i = col
      · simp [hi, hr]
      · simp [hi]
    rw [if_neg hr, hp, List.filter_beq, List.count_eq_one_of_mem List.nodup_range (List.mem_range.2 h)]
    exact congrArg (fun x => [(col, x)]) (if_pos rfl)

end Sys2Proof.Machine
end

section
/-!
O53: halts, restarts and records.
-/

namespace Sys2Proof.Machine
open Sys2Proof

/-- R481: the results of a group's check are kept, and it is out of those to check. -/
def resultsKept (g : Nat) (rs : List Nat) (w : Wake) : Wake :=
  { w with
    check := { w.check with
      groups := w.check.groups.filter (fun x => x != g)
      gres := mset w.check.gres g rs } }

/-- The tiles that failed are recorded, and the group is out of check. -/
def tilesFound (s : State) (g : Nat) (rs : List Nat) : State :=
  modGrp ((failing rs).foldl (checkTile g) (modWake s (resultsKept g rs))) g (fun k => { k with check := false })

/-- R480, R481: what follows the results of a group. -/
def groupChecked (s : State) (g : Nat) (rs : List Nat) : State :=
  let k := s.grp g
  let bad := failing rs
  checkEnd (checkNext (afterCheck (tilesFound s g rs) g k.lost
    (k.skip == 12 && !(k.tdead ||| k.rdead).testBit 12 && !(bad.map (·.1)).contains 12)
    (bad.map (fun x => 2 ^ x.1)).sum ((bad.map (·.1)).filter (fun c => c != k.skip))))

theorem exec_groupDone {s : State} {g : Nat} {rs : List Nat} (hst : s.wake.check.st = 1) (hturn : checkTurn s (g / 8) = some g)
    (hrs : (List.range 13).map (fun i => min 4 (rs.getD i 0)) = rs) : exec (.fieldCheckGroupDone g rs) s = .next (groupChecked s g rs) := by
  have hexec : exec (.fieldCheckGroupDone g rs) s = execFieldCheckGroupDone g rs s := rfl
  rw [hexec, execFieldCheckGroupDone, if_pos ⟨hst, hturn⟩]
  dsimp only
  rw [hrs]
  rfl

theorem results_of_one {col r : Nat} (hr : r ≤ 4) :
    (List.range 13).map (fun i => min 4 (((List.range 13).map fun i => if i = col then r else 0).getD i 0)) =
      (List.range 13).map fun i => if i = col then r else 0 := by
  refine List.map_congr_left fun i hi => ?_
  rw [List.getD_eq_getElem?_getD, List.getElem?_map, List.getElem?_range (List.mem_range.1 hi)]
  dsimp only [Option.map_some, Option.getD_some]
  split
  · exact Nat.min_eq_right hr
  · exact Nat.min_zero 4

/-- R481: the failing tile of a group is recorded, the group is out of check, and its results are kept. -/
theorem tilesFound_effect {s : State} {g col r : Nat} {rs : List Nat} (hcol : col < 13)
    (hrs : rs = (List.range 13).map fun i => if i = col then r else 0) :
    ((tilesFound s g rs).grp g).check = false ∧ (tilesFound s g rs).wake.mgmt = s.wake.mgmt ∧
      (tilesFound s g rs).wake.check.groups = s.wake.check.groups.filter (fun x => x != g) ∧
      mget [] (tilesFound s g rs).wake.check.gres g = rs ∧ (r = 0 → (tilesFound s g rs).survey = s.survey) ∧
      (0 < r → SurveyAdds s (tilesFound s g rs) 1 (tileLoc g col r)) := by
  have hgres : mget [] (modWake s (resultsKept g rs)).wake.check.gres g = rs := mget_mset _ _ _ _
  have hbad : failing rs = if r = 0 then [] else [(col, r)] := by rw [hrs, failing_one hcol r]
  obtain ⟨hadds, hchecks⟩ := checkTile_effect g (modWake s (resultsKept g rs)) col r
  rw [tilesFound, grp_modGrp, hbad]
  by_cases hr : r = 0
  · rw [if_pos hr]
    exact ⟨rfl, rfl, rfl, hgres, fun _ => rfl, fun h => absurd hr (by omega)⟩
  · rw [if_neg hr, List.foldl_cons, List.foldl_nil]
    generalize checkTile g (modWake s (resultsKept g rs)) (col, r) = u at hadds hchecks ⊢
    refine ⟨rfl, hchecks.mgmt, ?_, ?_, fun h => absurd h hr, fun _ => hadds⟩
    · exact congrArg (fun k => k.groups) hchecks.check
    · have hg : u.wake.check.gres = (modWake s (resultsKept g rs)).wake.check.gres := congrArg (fun k => k.gres) hchecks.check
      exact (congrArg (fun m => mget [] m g) hg).trans hgres

theorem afterCheck_pass (s : State) (g : Nat) (lost idle : Bool) (dead : Nat) : (afterCheck s g lost idle dead []).survey = s.survey := by
  rw [afterCheck]
  cases lost with
  | true => rfl
  | false =>
    rw [if_neg Bool.false_ne_true]
    have h := frees_joinPartition (modGrp s g fun k => { k with tdead := k.tdead ||| dead }) g
    rw [h.rest]
    rfl

theorem groupDone_effect {s : State} {g col r : Nat} {rs : List Nat} (hst : s.wake.check.st = 1) (hturn : checkTurn s (g / 8) = some g)
    (hcol : col < 13) (hr : r ≤ 4) (hrs : rs = (List.range 13).map (fun i => if i = col then r else 0)) :
    ∃ t, exec (.fieldCheckGroupDone g rs) s = .next t ∧
      t.wake.check.groups = s.wake.check.groups.filter (fun x => x != g) ∧ mget [] t.wake.check.gres g = rs ∧
      (t.grp g).check = false ∧ (r = 0 → s.wake.check.groups = [g] → t.survey = s.survey) ∧
      (0 < r → SurveyAdds s t 1 (natBytes 1 (13 * (g / 8 % 3) + col) ++ natBytes 1 (8 * (g / 24) + g % 8) ++ natBytes 1 1 ++
        natBytes 1 (r - 2))) := by
  obtain ⟨hcheck, hmgmt, hgroups, hgres, hsame, hadds⟩ := tilesFound_effect (s := s) (g := g) hcol hrs
  refine ⟨groupChecked s g rs, exec_groupDone hst hturn (by rw [hrs, results_of_one hr]), ?_⟩
  have hafter := fun lost idle dead cols => checks_afterCheck (tilesFound s g rs) g lost idle dead cols
  have hpass := fun lost idle dead => afterCheck_pass (tilesFound s g rs) g lost idle dead
  have hbad : r = 0 → failing rs = [] := fun h0 => by rw [hrs, failing_one hcol r, if_pos h0]
  rw [groupChecked, ← tileLoc_eq]
  generalize failing rs = bad at hbad ⊢
  generalize tilesFound s g rs = u at hcheck hmgmt hgroups hgres hsame hadds hafter hpass ⊢
  have hnext : Checks g u (checkNext (afterCheck u g (s.grp g).lost
      ((s.grp g).skip == 12 && !((s.grp g).tdead ||| (s.grp g).rdead).testBit 12 && !(bad.map (·.1)).contains 12)
      (bad.map (fun x => 2 ^ x.1)).sum ((bad.map (·.1)).filter (fun c => c != (s.grp g).skip)))) := by
    refine (hafter _ _ _ _).trans (checks_checkNext fun x hx => ?_)
    rw [(hafter _ _ _ _).check] at hx
    have hx' : x ∈ u.wake.check.groups := hx
    rw [hgroups] at hx'
    simpa using (List.mem_filter.1 hx').2
  have hall := hnext.trans (checks_checkEnd _ g)
  refine ⟨?_, ?_, hall.grp hcheck, fun h0 hone => ?_, fun hpos => ?_⟩
  · rw [hall.check]
    exact hgroups
  · rw [hall.check]
    exact hgres
  · have hempty : u.wake.check.groups = [] := by rw [hgroups, hone]; simp
    rw [survey_checkEnd, hbad h0]
    have hc := hafter (s.grp g).lost ((s.grp g).skip == 12 && !((s.grp g).tdead ||| (s.grp g).rdead).testBit 12 && !([] : List Nat).contains 12) 0 []
    have hp := hpass (s.grp g).lost ((s.grp g).skip == 12 && !((s.grp g).tdead ||| (s.grp g).rdead).testBit 12 && !([] : List Nat).contains 12) 0
    have hn := checkNext_none (s := afterCheck u g (s.grp g).lost
      ((s.grp g).skip == 12 && !((s.grp g).tdead ||| (s.grp g).rdead).testBit 12 && !([] : List Nat).contains 12) 0 []) (by rw [hc.check]; exact hempty)
    exact ((congrArg State.survey hn).trans hp).trans (hsame h0)
  · exact SurveyAdds.between (.refl s) rfl (hadds hpos) hall.finds

/-! ### Units under check (R480) -/

theorem memGet_kept {m : List Host.Cell} {p : Host.Cell → Bool} {x : Nat} (h : ∀ v, p (x, v) = true) : memGet (m.filter p) x = memGet m x := by
  induction m with
  | nil => rfl
  | cons c m ih =>
    obtain ⟨k, v⟩ := c
    by_cases hk : x = k
    · subst hk
      rw [List.filter_cons_of_pos (h v), memGet, memGet, if_pos rfl, if_pos rfl]
    · by_cases hp : p (k, v) = true
      · rw [List.filter_cons_of_pos hp, memGet, memGet, if_neg hk, if_neg hk, ih]
      · rw [List.filter_cons_of_neg hp, memGet, if_neg hk, ih]

theorem memGet_zeroUnit (s : State) (u x : Nat) :
    memGet (zeroUnit s u).mem x = if unitAddr u ≤ x ∧ x < unitAddr u + 2 ^ 30 then 0 else memGet s.mem x := by
  rw [zeroUnit, clearMem]
  dsimp only
  by_cases h : unitAddr u ≤ x ∧ x < unitAddr u + 2 ^ 30
  · rw [if_pos h]
    exact memGet_filter fun v => by
      dsimp only
      rw [decide_eq_true h.1, decide_eq_true h.2]
      rfl
  · rw [if_neg h]
    refine memGet_kept fun v => ?_
    dsimp only
    rw [Bool.not_eq_true', Bool.and_eq_false_iff, decide_eq_false_iff_not, decide_eq_false_iff_not]
    exact Decidable.not_and_iff_not_or_not.1 h

/-- R480: a unit that passed its check is zeroed, and out of those to check. -/
theorem unitDone_effect {s : State} {u : Nat} (hst : s.wake.check.st = 1) (hgroups : s.wake.check.groups = [])
    (hfind : s.wake.check.units.find? (fun x => x / 48 == u / 48) = some u) : ∃ t, exec (.fieldCheckUnitDone u []) s = .next t ∧
      t.wake.check.units = s.wake.check.units.filter (fun x => x != u) ∧ t.cores = s.cores ∧
      ∀ x, memGet t.mem x = if unitAddr u ≤ x ∧ x < unitAddr u + 2 ^ 30 then 0 else memGet s.mem x := by
  have hexec : exec (.fieldCheckUnitDone u []) s = execFieldCheckUnitDone u [] s := rfl
  rw [hexec, execFieldCheckUnitDone, if_pos ⟨hst, hgroups, hfind⟩]
  dsimp only
  rw [List.foldl_nil, if_pos rfl, if_pos rfl]
  refine ⟨_, rfl, ?_⟩
  have hmem := memGet_zeroUnit s u
  generalize hv : modWake (zeroUnit s u) _ = v
  have hvu : v.wake.check.units = s.wake.check.units.filter (fun x => x != u) := by
    rw [← hv]
    rfl
  have hvm : v.mem = (zeroUnit s u).mem := by
    rw [← hv]
    rfl
  have hvc : v.cores = s.cores := by
    rw [← hv]
    rfl
  obtain ⟨k, hk, hend⟩ := checkEnd_effect v
  generalize checkEnd v = t at hend ⊢
  refine ⟨?_, ?_, fun x => ?_⟩
  · have ht : t.wake.check = k := by rw [hend]
    rw [ht, hk]
    exact hvu
  · have ht : t.cores = v.cores := by rw [hend]
    exact ht.trans hvc
  · have ht : t.mem = v.mem := by rw [hend]
    rw [ht, hvm]
    exact hmem x

theorem fatal_effect {s : State} {i : Instr} (h : i = .fuseRecheck false ∨ i = .mMemoryUncorrectable) (hoff : s.dev ≠ .off) (hheld : s.dev ≠ .held) :
    ∃ t, exec i s = .next t ∧ t.dev = .faulted ∧ (∀ p < 16, (t.part p).hDevice = true) ∧ t.mem = s.mem ∧ t.cores = s.cores := by
  have hfatal : ∀ code, classOf code = 2 → exec i s = .next (raiseErr s code 9 0 none s.echoM []) →
      ∃ t, exec i s = .next t ∧ t.dev = .faulted ∧ (∀ p < 16, (t.part p).hDevice = true) ∧ t.mem = s.mem ∧ t.cores = s.cores := by
    intro code hcode he
    obtain ⟨u, hu, hr⟩ := raiseErr_fatal hcode s 9 0 none s.echoM []
    have hud : u.dev = s.dev ∧ u.mem = s.mem ∧ u.cores = s.cores := by
      rw [hu]
      exact ⟨rfl, rfl, rfl⟩
    obtain ⟨hd, -, hp, -, hm, hc, -⟩ := enterFaulted_effect (hud.1 ▸ hoff) (hud.1 ▸ hheld)
    rw [he, hr]
    exact ⟨_, rfl, hd, hp, hm.trans hud.2.1, hc.trans hud.2.2⟩
  rcases h with rfl | rfl
  · exact hfatal 0x0016 rfl rfl
  · exact hfatal 0x0017 rfl rfl

/-- R476: the buffered records go to the flash, which keeps the last of them. -/
theorem logFlush_effect (s : State) : ∃ t, exec .eventLogFlush s = .next t ∧ { t with logFlash := s.logFlash, logBuf := s.logBuf } = s ∧
    t.logBuf = [] ∧ t.logFlash = (s.logFlash ++ s.logBuf).drop ((s.logFlash ++ s.logBuf).length - 262144) := by
  have hexec : exec .eventLogFlush s = execEventLogFlush s := rfl
  rw [hexec, execEventLogFlush]
  dsimp only
  generalize (s.logFlash ++ s.logBuf).drop _ = l
  exact ⟨_, rfl, rfl, rfl, rfl⟩

/-- Settles O53: each clause is what the lemma of its command says. -/
theorem haltsRestartsAndRecordsProceed : Obligations.HaltsRestartsAndRecordsProceed := by
  unfold Obligations.HaltsRestartsAndRecordsProceed
  refine ⟨fun s hdev hm ht => watchdogExpire_effect hdev hm ht,
    fun s hm => ⟨fun b hb hw => takesControl_effect hm hb hw, fun ht hoff hheld => noControl_effect hm ht hoff hheld⟩,
    fun s ns => ⟨haltNAssert_effect s, fun h => ?_, haltNRelease_effect, fun h => ?_⟩,
    fun s c p hc hp => ⟨haltArrive_free hc hp, fun g hbit hblk => haltArrive_access hc hp hbit hblk, runArrive_effect hc hp⟩,
    fun s p hp hbit hlow hstop => partitionHalted_effect hp hbit hlow hstop,
    fun s w ws h => coalesceFlush_effect h,
    logFlush_effect,
    fun s x hm => ?_,
    fun s => rfl,
    fun s i hi hoff hheld => fatal_effect hi hoff hheld,
    fun s hm => ⟨surveyCompact_begins hm, surveyCompact_ends hm, fun h _ => surveyCompact_refused hm h, surveyCompact_waits⟩,
    fun s g col r rs hst hturn hcol hr hrs => groupDone_effect hst hturn hcol hr hrs,
    fun s u hst hg hf => unitDone_effect hst hg hf⟩
  · have hexec : exec (.haltNAssert ns) s = execHaltNAssert ns s := rfl
    rw [hexec, execHaltNAssert]
    exact congrArg Host.Outcome.next (if_neg (by omega))
  · have hexec : exec (.haltNRelease ns) s = execHaltNRelease ns s := rfl
    rw [hexec, execHaltNRelease]
    refine congrArg Host.Outcome.next (if_neg ?_)
    rintro ⟨h1, h2⟩
    rcases h with h | h
    · omega
    · rw [h] at h2
      cases h2
  · have hexec : exec (.parityRewrite x) s = execParityRewrite x s := rfl
    refine ⟨{ s with badEntries := s.badEntries.filter (fun y => y != x) }, ?_, rfl, fun y => ?_⟩
    · rw [hexec, execParityRewrite]
      exact congrArg Host.Outcome.next (if_neg (by rw [hm]; decide))
    · simp

end Sys2Proof.Machine
end

section
/-!
O44: a stack that cools while the device brakes.
-/

namespace Sys2Proof.Machine
open Sys2Proof

/-- A device that brakes (R420), whose stack 0 is throttled at its temperature (R341). -/
def brakedHot : State := modStack (modPwr State.reset fun w => { w with brake := true }) 0 fun k => { k with throttled := true }

/-- R341, R420: as the stack cools, the brake keeps its rate at 256. -/
theorem brakedHot_cools : ∃ t, exec (.hbmTempRead 0 0) brakedHot = .next t ∧ (t.stack 0).rate = 256 := ⟨_, rfl, rfl⟩

/-- Refutes O44: a throttled stack that has cooled gets back the configured rate only where the device does not brake. While it
does, the model keeps the rate at 256 (R420), and the clause on temperature asks for `memory.rate_limit`. -/
theorem not_stacksServeAndFail : ¬ Obligations.StacksServeAndFail := by
  unfold Obligations.StacksServeAndFail
  rintro ⟨-, -, -, -, -, htemp, -⟩
  obtain ⟨t, ht, -, -, -, -, -, hcool, -⟩ := htemp brakedHot 0 0 (by decide)
  obtain ⟨-, hrate⟩ := hcool (by decide) rfl
  obtain ⟨u, hu, hbraked⟩ := brakedHot_cools
  have htu : t = u := Host.Outcome.next.inj (ht.symm.trans hu)
  have hset : cfgNum brakedHot 0x60 0x0002 0 (if Config.profileIsL then 2048 else 1500) = if Config.profileIsL then 2048 else 1500 := rfl
  rw [htu, hbraked, hset] at hrate
  split at hrate <;> omega

end Sys2Proof.Machine
end

section
/-!
O25: corrected words of the scratchpad, repaired rows and patrol scrub (R151 to R155).
-/

namespace Sys2Proof.Machine
open Sys2Proof

/-! ### Rows and banks (R137, R155) -/

theorem bits_lt (x hi lo : Nat) : bits x hi lo < 2 ^ (hi + 1 - lo) := Nat.mod_lt _ (Nat.two_pow_pos _)

/-- Every byte of a scratchpad lies in its 64 banks of 512 rows. -/
theorem spdPhys_lt (near lin : Bool) {a : Nat} (h : a < 2 ^ 21) : spdPhys near lin a < 2 ^ 21 := by
  have hb : a % 64 < 64 := Nat.mod_lt _ (by decide)
  rw [spdPhys]
  dsimp only
  split_ifs with h1 h2 h3
  · exact h
  · have hx : bits a 9 6 ^^^ bits a 13 10 ^^^ bits a 17 14 < 2 ^ 4 :=
      Nat.xor_lt_two_pow (Nat.xor_lt_two_pow (bits_lt a 9 6) (bits_lt a 13 10)) (bits_lt a 17 14)
    have hr := bits_lt a 18 10
    omega
  · have hp : ((a - 0x80000) % 3072 / 64 + (a - 0x80000) / 3072) % 48 < 48 := Nat.mod_lt _ (by decide)
    have hr : (a - 0x80000) / 3072 < 512 := by omega
    omega
  · have h18 := bits_lt a 20 18
    have hx : bits a 11 6 ^^^ bits a 17 12 ^^^ (bits a 20 18 * 8) < 2 ^ 6 :=
      Nat.xor_lt_two_pow (Nat.xor_lt_two_pow (bits_lt a 11 6) (bits_lt a 17 12)) (by omega)
    have hr := bits_lt a 20 12
    omega

/-- The LOCATION of a repaired row. -/
def rowLoc (tx ty k : Nat) : Bytes :=
  natBytes 1 tx ++ natBytes 1 ty ++ natBytes 1 (k / 32768) ++ natBytes 1 0 ++ natBytes 2 (k / 64 % 512)

theorem rowLoc_bank {tx ty k : Nat} (h : k < 2 ^ 21) : byteNat (padTo 12 (rowLoc tx ty k)) 2 = k / 32768 := by
  have hb : byteNat (padTo 12 (rowLoc tx ty k)) 2 = (BitVec.ofNat 8 (k / 32768)).toNat := rfl
  rw [hb, BitVec.toNat_ofNat]
  exact Nat.mod_eq_of_lt (by omega)

theorem rowLoc_column (tx ty k : Nat) : byteNat (padTo 12 (rowLoc tx ty k)) 3 = 0 := rfl

/-- Of `s`, `t` has at most the repair of row `k` of a tile as a defect more. -/
structure RowFound (tx ty k : Nat) (s t : State) : Prop where
  finds : Finds s t
  only : ∀ e ∈ liveSurvey t, e ∈ liveSurvey s ∨ (e.type_ = 3 ∧ e.loc = padTo 12 (rowLoc tx ty k))

theorem rowFound_append (tx ty k : Nat) (s : State) : RowFound tx ty k s (surveyAppend s 3 2 false (rowLoc tx ty k)) := by
  refine ⟨finds_surveyAppend 2 false, fun e he => ?_⟩
  rw [surveyAppend] at he
  split at he
  · exact .inl he
  · exact live_surveyPut he

theorem length_dedup_le {l m : List Bytes} (h : ∀ x ∈ l, x ∈ m) : l.dedup.length ≤ m.dedup.length :=
  (List.subperm_of_subset l.nodup_dedup fun x hx => List.mem_dedup.2 (h x (List.mem_dedup.1 hx))).length_le

/-- The repaired rows of a bank that one of its columns holds. -/
def rowsOf (s : State) (tx ty b col : Nat) : List Bytes :=
  ((tileEntries s 3 tx ty).filter (fun e => byteNat e.loc 2 == b && byteNat e.loc 3 == col)).map (·.loc)

theorem bankSpent_eq (s : State) (tx ty b : Nat) : bankSpent s tx ty b =
    ((decide (8 < (rowsOf s tx ty b 0).dedup.length) || decide (2 < (rowsOf s tx ty b 1).dedup.length)) &&
      !(tileEntries s 2 tx ty).any (fun e => byteNat e.loc 2 == b)) := rfl

section

variable {tx ty k : Nat} {s t : State} (h : RowFound tx ty k s t) (hk : k < 2 ^ 21)

include h hk

/-- A row more stands at its own bank and column 0 alone. -/
theorem RowFound.rows {b col : Nat} (x : Bytes) (hx : x ∈ rowsOf t tx ty b col) :
    x ∈ rowsOf s tx ty b col ∨ (b = k / 32768 ∧ col = 0 ∧ x = padTo 12 (rowLoc tx ty k)) := by
  obtain ⟨e, he, rfl⟩ := List.mem_map.1 hx
  obtain ⟨htile, hat⟩ := List.mem_filter.1 he
  obtain ⟨hlive, hof⟩ := List.mem_filter.1 htile
  rcases h.only e hlive with hs | ⟨-, hloc⟩
  · exact .inl (List.mem_map.2 ⟨e, List.mem_filter.2 ⟨List.mem_filter.2 ⟨hs, hof⟩, hat⟩, rfl⟩)
  · rw [Bool.and_eq_true, beq_iff_eq, beq_iff_eq, hloc, rowLoc_bank hk, rowLoc_column] at hat
    exact .inr ⟨hat.1.symm, hat.2.symm, hloc⟩

theorem RowFound.rows_length (b col : Nat) : (rowsOf t tx ty b col).dedup.length ≤
    (rowsOf s tx ty b col).dedup.length + if b = k / 32768 ∧ col = 0 then 1 else 0 := by
  split
  · calc (rowsOf t tx ty b col).dedup.length
        ≤ (padTo 12 (rowLoc tx ty k) :: rowsOf s tx ty b col).dedup.length := length_dedup_le fun x hx =>
          List.mem_cons.2 ((h.rows hk x hx).elim .inr fun h => .inl h.2.2)
      _ ≤ (rowsOf s tx ty b col).dedup.length + 1 := by
          by_cases hm : padTo 12 (rowLoc tx ty k) ∈ rowsOf s tx ty b col
          · rw [List.dedup_cons_of_mem hm]
            omega
          · rw [List.dedup_cons_of_notMem hm]
            exact Nat.le_refl _
  · next hne => exact length_dedup_le fun x hx => (h.rows hk x hx).resolve_right fun h => hne ⟨h.1, h.2.1⟩

omit hk in
theorem RowFound.spares {e : SurveyEntry} : e ∈ tileEntries t 2 tx ty ↔ e ∈ tileEntries s 2 tx ty := by
  constructor
  · intro he
    obtain ⟨hlive, hof⟩ := List.mem_filter.1 he
    rcases h.only e hlive with hs | ⟨hty, -⟩
    · exact List.mem_filter.2 ⟨hs, hof⟩
    · rw [hty] at hof
      cases hof
  · intro he
    obtain ⟨hlive, hof⟩ := List.mem_filter.1 he
    exact List.mem_filter.2 ⟨h.finds e hlive, hof⟩

/-- R155: no bank is spent where the row's bank has a repair left. -/
theorem RowFound.spent {b : Nat} (hb : bankSpent s tx ty b = false) (hrows : (rowsOf s tx ty (k / 32768) 0).dedup.length < 8) :
    bankSpent t tx ty b = false := by
  have hany : (tileEntries t 2 tx ty).any (fun e => byteNat e.loc 2 == b) = (tileEntries s 2 tx ty).any (fun e => byteNat e.loc 2 == b) := by
    rw [Bool.eq_iff_iff, List.any_eq_true, List.any_eq_true]
    exact exists_congr fun e => and_congr_left' h.spares
  have h0 := h.rows_length hk b 0
  have h1 := h.rows_length hk b 1
  rw [if_neg (by omega)] at h1
  rw [bankSpent_eq] at hb ⊢
  rw [hany]
  rw [Bool.and_eq_false_iff, Bool.or_eq_false_iff, decide_eq_false_iff_not, decide_eq_false_iff_not] at hb ⊢
  refine hb.imp_left fun ⟨a0, a1⟩ => ⟨?_, by omega⟩
  by_cases hbank : b = k / 32768
  · rw [hbank] at h0 ⊢
    split at h0 <;> omega
  · rw [if_neg (by omega)] at h0
    omega

omit hk in
theorem RowFound.spared : (sparedBanks t tx ty).length ≤ (sparedBanks s tx ty).length := by
  refine (List.subperm_of_subset (List.nodup_dedup _) fun x hx => ?_).length_le
  obtain ⟨e, he, rfl⟩ := List.mem_map.1 (List.mem_dedup.1 hx)
  exact List.mem_dedup.2 (List.mem_map.2 ⟨e, h.spares.1 he, rfl⟩)

end

/-- R155, R39: no spare bank is taken where none is spent. -/
theorem bankSpares_none {s : State} {tx ty : Nat} (put : State → Bytes → State) (hspent : ∀ b < 64, bankSpent s tx ty b = false)
    (hlen : (sparedBanks s tx ty).length ≤ 2) : bankSpares s tx ty put = (s, false) := by
  have hnil : (List.range 64).filter (bankSpent s tx ty) = [] :=
    List.filter_eq_nil_iff.2 fun b hb => by rw [hspent b (List.mem_range.1 hb)]; exact Bool.false_ne_true
  rw [bankSpares, hnil, List.foldl_nil]
  dsimp only
  rw [Bool.false_or, decide_eq_false (by omega)]

theorem finds_bankSpares (s : State) (tx ty : Nat) {put : State → Bytes → State} (hput : ∀ s l, Finds s (put s l)) :
    Finds s (bankSpares s tx ty put).1 := by
  rw [bankSpares]
  refine List.foldlRecOn (motive := fun x : State × Bool => Finds s x.1) _ _ (Finds.refl s) fun x hx b _ => ?_
  dsimp only
  split
  · exact hx.trans (hput _ _)
  · exact hx

theorem finds_modGrp (s : State) (g : Nat) (f : Group → Group) : Finds s (modGrp s g f) := finds_of_survey rfl

theorem finds_failCore (s : State) (c src : Nat) (prov : Bool) (test : Nat) : Finds s (failCore s c src prov test) := by
  rw [failCore]
  dsimp only
  split
  · exact fun _ h => h
  split
  · exact .refl s
  refine (finds_surveyAppend (s := s) (ty := 1) (loc := natBytes 1 (tileXY (groupOf c) (colOf s c)).1 ++
    natBytes 1 (tileXY (groupOf c) (colOf s c)).2 ++ natBytes 1 1 ++ natBytes 1 test) src prov).trans ?_
  generalize surveyAppend s 1 src prov _ = u
  split
  · exact (finds_modGrp u _ _).trans (loses_loseGroup _ _ 0 false).finds
  · exact (finds_modGrp u _ _).trans (loses_resetGroup _ _ true).finds

/-! ### A corrected word is written back (R151, R155) -/

/-- R155: from the eighth corrected error of its row on, the row is found. -/
theorem bankRepair_few {s : State} {c k : Nat} (h : (mget [] s.rowErrs (c * 32768 + k / 64)).length < 8) : bankRepair s c k = s := by
  rw [bankRepair, if_neg (by omega)]

/-- R39: a core with more failed banks than spares fails. -/
def sparesLeft (c : Nat) (x : State × Bool) : State := if x.2 then failCore x.1 c 2 false 0 else x.1

/-- What follows the entry of a repaired row: spent banks take spares, and a core without one left fails. -/
def banksSpared (s : State) (c tx ty : Nat) : State := sparesLeft c (bankSpares s tx ty (fun s loc => surveyAppend s 0x02 2 false loc))

theorem bankRepair_many {s : State} {c k : Nat} (h : 8 ≤ (mget [] s.rowErrs (c * 32768 + k / 64)).length) :
    bankRepair s c k = banksSpared (surveyAppend s 3 2 false (rowLoc (tileX s c) (tileY c) k)) c (tileX s c) (tileY c) := by
  rw [bankRepair, if_pos h, banksSpared, ← rowLoc]
  generalize surveyAppend s 3 2 false _ = u
  dsimp only
  generalize bankSpares u _ _ _ = x
  obtain ⟨v, dead⟩ := x
  rfl

theorem finds_banksSpared (s : State) (c tx ty : Nat) : Finds s (banksSpared s c tx ty) := by
  have h := finds_bankSpares s tx ty (put := fun s loc => surveyAppend s 0x02 2 false loc) fun s _ => finds_surveyAppend 2 false
  rw [banksSpared, sparesLeft]
  split
  · exact h.trans (finds_failCore _ c 2 false 0)
  · exact h

theorem banksSpared_none {s : State} {tx ty : Nat} (c : Nat) (hspent : ∀ b < 64, bankSpent s tx ty b = false)
    (hlen : (sparedBanks s tx ty).length ≤ 2) : banksSpared s c tx ty = s := by
  rw [banksSpared, bankSpares_none _ hspent hlen]
  rfl

section

variable {s : State} {c k : Nat} (hk : k < 2 ^ 21) (hmany : 8 ≤ (mget [] s.rowErrs (c * 32768 + k / 64)).length)

include hmany

theorem bankRepair_adds : SurveyAdds s (bankRepair s c k) 3 (rowLoc (tileX s c) (tileY c) k) := by
  rw [bankRepair_many hmany]
  exact SurveyAdds.between (.refl s) rfl (surveyAppend_adds 2 false) (finds_banksSpared _ c _ _)

include hk

/-- R155: a row whose bank has repairs left gets its entry, and nothing else changes. -/
theorem bankRepair_holds (hb : BanksHold s c (k / 32768)) :
    bankRepair s c k = surveyAppend s 3 2 false (rowLoc (tileX s c) (tileY c) k) := by
  obtain ⟨hspent, hspared, hrows⟩ := hb
  have hrow := rowFound_append (tileX s c) (tileY c) k s
  rw [bankRepair_many hmany, banksSpared_none c]
  · exact fun b hb => hrow.spent hk (hspent b hb) hrows
  · exact Nat.le_trans hrow.spared hspared

end

/-! ### Patrol scrub (R154) -/

/-- R151, R154: the scrub reads word `w` of row `r`. -/
def scrubWord (c r : Nat) (s : State) (w : Nat) : State := (touchKey s c (64 * r + 8 * w) 7).1

/-- What the read of a word leaves of its mark. -/
def scrubbed : Option Mark → Option Mark
  | some .correctable => some .corrected
  | m => m

theorem CoreRead.marks_eq {s t : State} (h : Logged s t) : t.marks = s.marks := by rw [h]

/-- R151, R152: a word that is read and corrected is marked, and no other mark changes. -/
theorem marks_touchKey (s : State) (c k port x : Nat) : mfind (touchKey s c k port).1.marks x =
    if x = c * 2 ^ 21 + k then scrubbed (mfind s.marks x) else mfind s.marks x := by
  rw [touchKey]
  dsimp only
  split
  · next h =>
    split
    · next hx => rw [hx, h]; rfl
    · rfl
  · next h =>
    split
    · next hx => rw [hx, h]; rfl
    · rfl
  · next h =>
    rw [CoreRead.marks_eq (logged_raiseErr (code := 0x0001) (by decide) _ _ _ _ _ _), (counted_count _ _ _ _).marks]
    change mfind (mset s.marks _ _) x = _
    split
    · next hx => rw [hx, mfind_mset, h]; rfl
    · next hx => rw [mfind_mset_ne _ _ hx]
  · next m hcor hcble h =>
    rw [CoreRead.marks_eq (logged_raiseErr (code := 0x0002) (by decide) _ _ _ _ _ _), (counted_count _ _ _ _).marks]
    change mfind s.marks x = _
    split
    · next hx =>
      rw [hx, h]
      cases m with
      | correctable => exact absurd rfl hcble
      | _ => rfl
    · rfl

theorem touchKey_sound {s : State} {c k : Nat} (port : Nat) (h : mfind s.marks (c * 2 ^ 21 + k) = none) : (touchKey s c k port).1 = s := by
  rw [touchKey]
  dsimp only
  rw [h]

/-- The state in which the row at which the scrub stands is read. -/
def rowScrubbed (s : State) (c r : Nat) : State := (List.range 8).foldl (scrubWord c r) s

theorem coreRead_rowScrubbed (s : State) (c r : Nat) : CoreRead s (rowScrubbed s c r) c :=
  List.foldlRecOn (motive := fun t => CoreRead s t c) _ _ (.refl s c) fun t ht _ _ => ht.trans (coreRead_touchKey t c _ 7)

theorem scrubbed_twice (m : Option Mark) : scrubbed (scrubbed m) = scrubbed m := by
  rcases m with _ | m
  · rfl
  · cases m <;> rfl

theorem marks_rowScrubbed (s : State) (c r x : Nat) : mfind (rowScrubbed s c r).marks x = mfind s.marks x ∨
    mfind (rowScrubbed s c r).marks x = scrubbed (mfind s.marks x) :=
  List.foldlRecOn (motive := fun t : State => mfind t.marks x = mfind s.marks x ∨ mfind t.marks x = scrubbed (mfind s.marks x)) _ _ (.inl rfl)
    fun t ht w _ => by
      rw [scrubWord, marks_touchKey]
      split
      · refine .inr ?_
        rcases ht with h | h
        · rw [h]
        · rw [h, scrubbed_twice]
      · exact ht

/-- Each word of the row is corrected. -/
theorem marks_rowScrubbed_word (s : State) (c r : Nat) {w : Nat} (hw : w < 8) :
    mfind (rowScrubbed s c r).marks (c * 2 ^ 21 + (64 * r + 8 * w)) = scrubbed (mfind s.marks (c * 2 ^ 21 + (64 * r + 8 * w))) := by
  obtain ⟨u, hu, hall⟩ := foldl_passes (step := scrubWord c r)
    (R := fun a b : State => mfind b.marks (c * 2 ^ 21 + (64 * r + 8 * w)) = mfind a.marks (c * 2 ^ 21 + (64 * r + 8 * w)))
    (fun _ => rfl) (fun h k => k.trans h) List.nodup_range (List.mem_range.2 hw)
    (fun u x _ hx => by rw [scrubWord, marks_touchKey, if_neg (by omega)]) s
  rw [rowScrubbed, hall, scrubWord, marks_touchKey, if_pos rfl, hu]

theorem rowScrubbed_sound {s : State} {c r : Nat} (h : ∀ w < 8, mfind s.marks (c * 2 ^ 21 + (64 * r + 8 * w)) = none) : rowScrubbed s c r = s :=
  List.foldlRecOn (motive := fun t : State => t = s) _ _ rfl fun t ht w hw => by
    subst ht
    exact touchKey_sound 7 (h w (List.mem_range.1 hw))

/-- R154: what the scrub of a row ends with. -/
def scrubMoved (s : State) (c r : Nat) : State :=
  count (modSpd s c (fun d => { d with scrubAt := (r + 1) % 32768 })) c 0x4A 1
    (memSample .none_ false (spdOff (s.core c).spd.near (s.core c).spd.lin (64 * r)) 64 (r / 512 / 16))

theorem scrubMoved_effect (s : State) (c r : Nat) : OnlyCore s (scrubMoved s c r) c ∧ (scrubMoved s c r).marks = s.marks ∧
    ((scrubMoved s c r).core c).ctl = (s.core c).ctl ∧
    ((scrubMoved s c r).core c).spd = { (s.core c).spd with scrubAt := (r + 1) % 32768 } := by
  have h := counted_count (modSpd s c (fun d => { d with scrubAt := (r + 1) % 32768 })) c 0x4A 1
    (w := memSample .none_ false (spdOff (s.core c).spd.near (s.core c).spd.lin (64 * r)) 64 (r / 512 / 16))
  rw [scrubMoved]
  generalize count _ c 0x4A 1 _ = t at h ⊢
  have hcore : (t.core c).ctl = (s.core c).ctl ∧ (t.core c).spd = { (s.core c).spd with scrubAt := (r + 1) % 32768 } := by
    rw [h.core, core_modSpd]
    exact ⟨rfl, rfl⟩
  exact ⟨⟨congrArg (fun x : State => { x with cores := s.cores }) h.rest, fun k hk => (h.others k hk).trans (core_modSpd_ne s _ hk)⟩, h.marks, hcore.1, hcore.2⟩

theorem patrolScrub_eq {s : State} {c r : Nat} (hp : present s c = true) (hc : (s.core c).crst = false) (he : (s.core c).spd.scrubEn = true)
    (hr : r = (s.core c).spd.scrubAt) : exec (.patrolScrubRow c) s = .next (scrubMoved (rowScrubbed s c r) c r) := by
  have hexec : exec (.patrolScrubRow c) s = execPatrolScrubRow c s := rfl
  have hstep : (fun (s : State) w => (touchKey s c (64 * r + 8 * w) 7).1) = scrubWord c r := rfl
  rw [hexec, execPatrolScrubRow, if_pos (by rw [hp, hc, he]; rfl)]
  dsimp only
  rw [← hr, hstep, ← rowScrubbed, ← scrubMoved]

/-- Settles O25: the repair of a row finds at most that row, so a bank with repairs left is not spent by it; the scrub reads a row
word by word, and each read changes the mark of its own word alone. -/
theorem scratchpadErrorsAreCorrected : Obligations.ScratchpadErrorsAreCorrected := by
  unfold Obligations.ScratchpadErrorsAreCorrected
  refine ⟨fun s c off k loc hk hloc => ⟨fun hm => ?_, fun hm => ?_⟩, fun s c r hp hc he hr => ?_, fun s c he => ?_⟩
  · have hexec : exec (.scratchpadEccWriteback c off) s = execScratchpadEccWriteback c off s := rfl
    rw [hexec, execScratchpadEccWriteback]
    split
    · next h => exact absurd h hm
    · rfl
  · have hexec : exec (.scratchpadEccWriteback c off) s = .next (bankRepair (setSpMark s c off none) c k) := by
      have h : exec (.scratchpadEccWriteback c off) s = execScratchpadEccWriteback c off s := rfl
      rw [h, execScratchpadEccWriteback, hm, hk]
    have hlt : k < 2 ^ 21 := by
      have h := spdPhys_lt (s.core c).spd.near (s.core c).spd.lin (Nat.mod_lt (off / 8 * 8) (by decide : 2 ^ 21 > 0))
      rw [hk, spKey]
      omega
    have hl : loc = rowLoc (tileX (setSpMark s c off none) c) (tileY c) k := hloc
    rw [hexec]
    refine ⟨_, rfl, fun h => ?_, fun h => ?_, fun h => ⟨?_, fun hb => ?_⟩⟩
    · by_cases hfew : (mget [] s.rowErrs (c * 32768 + k / 64)).length < 8
      · rw [bankRepair_few (s := setSpMark s c off none) hfew]
        exact ⟨rfl, rfl, rfl⟩
      · rw [bankRepair_holds (s := setSpMark s c off none) hlt (Nat.le_of_not_lt hfew) (h.resolve_left hfew)]
        have hf := found_surveyAppend (s := setSpMark s c off none) (ty := 3) (loc := rowLoc (tileX (setSpMark s c off none) c) (tileY c) k) 2 false
        generalize surveyAppend (setSpMark s c off none) 3 2 false _ = t at hf ⊢
        refine ⟨hf.mem, hf.cores, ?_⟩
        rw [hf]
        rfl
    · rw [bankRepair_few (s := setSpMark s c off none) h]
      rfl
    · rw [hl]
      exact bankRepair_adds (s := setSpMark s c off none) h
    · rw [bankRepair_holds (s := setSpMark s c off none) hlt h hb, ← hl]
      exact surveyAppend_gets (s := setSpMark s c off none) 2 false
  · rw [patrolScrub_eq hp hc he hr]
    have hread := coreRead_rowScrubbed s c r
    have hword := fun w (hw : w < 8) => marks_rowScrubbed_word s c r hw
    have hmarks := marks_rowScrubbed s c r
    have hsound := rowScrubbed_sound (s := s) (c := c) (r := r)
    generalize rowScrubbed s c r = u at hread hword hmarks hsound ⊢
    obtain ⟨honly, hm, hctl, hspd⟩ := scrubMoved_effect u c r
    refine ⟨_, rfl, honly.mem.trans hread.mem, hctl.trans hread.ctl, ?_, fun w hw h => ?_, fun x hx => ?_, fun h => ?_⟩
    · rw [hspd]
    · rw [hm, hword w hw, h]
      rfl
    · rw [hm]
      rcases hmarks x with h | h
      · exact h
      · rw [h]
        cases hmk : mfind s.marks x with
        | none => rfl
        | some m =>
          cases m with
          | correctable => exact absurd hmk hx
          | _ => rfl
    · have hu := hsound h
      subst hu
      exact ⟨honly, hspd⟩
  · have hexec : exec (.patrolScrubRow c) s = execPatrolScrubRow c s := rfl
    rw [hexec, execPatrolScrubRow]
    exact congrArg Host.Outcome.next (if_neg (by rw [he, Bool.and_false]; decide))

end Sys2Proof.Machine
end

section
/-!
SUPPORT. Ports that change their state, and what leaves them as they do (R286, R289, R320).
-/

namespace Sys2Proof.Machine
open Sys2Proof

/-! ### Nothing shown is taken back -/

theorem out_sendVector (s : State) (h f v : Nat) : s.out <+: (sendVector s h f v).out := by
  rw [sendVector]
  split
  · exact List.prefix_refl _
  · exact List.prefix_append _ _

theorem out_foldl {α : Type} {step : State → α → State} (h : ∀ s a, s.out <+: (step s a).out) (s : State) (l : List α) : s.out <+: (l.foldl step s).out :=
  List.foldlRecOn (motive := fun t : State => s.out <+: t.out) l step (List.prefix_refl _) fun t ht a _ => ht.trans (h t a)

theorem Logged.out {s t : State} (h : Logged s t) : t.out = s.out := by rw [h]

theorem out_devVectors (s : State) : s.out <+: (devVectors s).out := by
  refine out_foldl (fun s p => ?_) s _
  split
  · exact out_foldl (fun s f => out_sendVector s p.1 f 4) s _
  · exact List.prefix_refl _

theorem out_setDev (s : State) (d : DevState) (stage : Nat) : s.out <+: (setDev s d stage).out := by
  rw [setDev]
  split
  · exact List.prefix_refl _
  · refine List.IsPrefix.trans ?_ (out_devVectors _)
    rw [raiseEvent, (logged_raiseRec _ _ _ _ _ _ _ _).out]

theorem out_reevaluate (s : State) : s.out <+: (reevaluate s).out := by
  rw [reevaluate]
  split
  · exact out_setDev s _ 0
  · exact out_setDev s _ 0
  · exact List.prefix_refl _

/-! ### What ports leave alone -/

/-- Of `s`, `t` changes the links, the counters of shared blocks, the device's state and what tells of it, at most. -/
structure Still (s t : State) : Prop where
  rest : Tells { s with dev := t.dev, stage := t.stage, links := t.links, shared := t.shared } t
  out : s.out <+: t.out

theorem Still.refl (s : State) : Still s s := ⟨rfl, List.prefix_refl _⟩

theorem Still.trans {s t u : State} (h : Still s t) (k : Still t u) : Still s u := by
  refine ⟨?_, h.out.trans k.out⟩
  have h1 := h.rest
  have k1 := k.rest
  rw [Tells] at h1 k1 ⊢
  rw [k1, h1]

theorem Still.foldl {α : Type} {step : State → α → State} (h : ∀ s a, Still s (step s a)) (s : State) (l : List α) : Still s (l.foldl step s) :=
  List.foldlRecOn (motive := fun t => Still s t) l step (.refl s) fun t ht a _ => ht.trans (h t a)

section

variable {s t : State} (h : Still s t)

include h

theorem Still.mem : t.mem = s.mem := by rw [h.rest]
theorem Still.cores : t.cores = s.cores := by rw [h.rest]
theorem Still.now : t.now = s.now := by rw [h.rest]
theorem Still.survey : t.survey = s.survey := by rw [h.rest]
theorem Still.start : t.wake.start = s.wake.start := by rw [h.rest]
theorem Still.mgmt : t.wake.mgmt = s.wake.mgmt := by rw [h.rest]
theorem Still.pwr : t.pwr = s.pwr := by rw [h.rest]
theorem Still.devId : t.devId = s.devId := by rw [h.rest]
theorem Still.domOf (d : Nat) : domOf t d = domOf s d := by rw [Machine.domOf, h.pwr, Machine.domOf]

end

theorem Logged.still {s t : State} (h : Logged s t) : Still s t := by
  refine ⟨?_, h.out ▸ List.prefix_refl _⟩
  rw [Tells]
  rw [h]

theorem still_reevaluate (s : State) : Still s (reevaluate s) := by
  refine ⟨?_, out_reevaluate s⟩
  have h := rated_reevaluate s
  generalize reevaluate s = t at h ⊢
  rw [Rated, Tells] at h
  rw [Tells]
  rw [h]

theorem ports_reevaluate (s : State) : (reevaluate s).links = s.links := by
  have h := rated_reevaluate s
  generalize reevaluate s = t at h ⊢
  rw [h]

theorem ports_logged {s t : State} (h : Logged s t) : t.links = s.links := by rw [h]

theorem port_of_links {s t : State} (h : t.links = s.links) (q : Nat) : t.port q = s.port q := by rw [State.port, h, State.port]

theorem still_modPort (s : State) (p : Nat) (f : Port → Port) : Still s (modPort s p f) := ⟨rfl, List.prefix_refl _⟩

theorem still_modLinks (s : State) (f : Links → Links) : Still s (modLinks s f) := ⟨rfl, List.prefix_refl _⟩

theorem still_emit (s : State) (o : Output) : Still s (emit s o) := ⟨rfl, List.prefix_append _ _⟩

theorem AtPort.still {p : Nat} {s t : State} (h : AtPort p s t) (ho : s.out <+: t.out) : Still s t := by
  refine ⟨?_, ho⟩
  rw [Tells]
  rw [h.1]

/-! ### Packets that go on (R299 to R302) -/

/-- What is sent changes nothing else, and of every port what sending changes alone. -/
structure Traffic (s t : State) : Prop where
  still : Still s t
  port : ∀ q, SendPort (s.port q) (t.port q)

theorem Traffic.refl (s : State) : Traffic s s := ⟨.refl s, fun _ => .refl _⟩

theorem Traffic.trans {s t u : State} (h : Traffic s t) (k : Traffic t u) : Traffic s u :=
  ⟨h.still.trans k.still, fun q => (h.port q).trans (k.port q)⟩

theorem Traffic.foldl {α : Type} {step : State → α → State} (h : ∀ s a, Traffic s (step s a)) (s : State) (l : List α) : Traffic s (l.foldl step s) :=
  List.foldlRecOn (motive := fun t => Traffic s t) l step (.refl s) fun t ht a _ => ht.trans (h t a)

/-- What leaves every port alone. -/
theorem Still.traffic {s t : State} (h : Still s t) (hp : ∀ q, t.port q = s.port q) : Traffic s t := by
  refine ⟨h, fun q => ?_⟩
  rw [hp q]
  exact .refl _

theorem Sends.traffic {p : Nat} {s t : State} (h : Sends p s t) : Traffic s t := by
  obtain ⟨hat, hport, hout⟩ := h
  refine ⟨hat.still hout, fun q => ?_⟩
  by_cases hq : q = p
  · rw [hq]
    exact hport
  · rw [hat.2 q hq]
    exact .refl _

theorem traffic_refusePkt (s : State) (k : LinkPkt) (st : Nat) : Traffic s (refusePkt s k st) := by
  rw [refusePkt_eq]
  exact Still.traffic ⟨rfl, List.prefix_append _ _⟩ fun _ => rfl

theorem traffic_enqueuePkt (s : State) (p v : Nat) (x : TxPkt) : Traffic s (enqueuePkt s p v x) := by
  rw [enqueuePkt]
  refine Traffic.trans ?_ (sends_txPump 300 _ p).traffic
  refine Traffic.trans ?_ (sends_modVc _ p v _).traffic
  split
  · exact (sends_countShared s p _ _ _ _ _).traffic
  · exact .refl s

theorem traffic_ethSend (s : State) (b p : Nat) (k : LinkPkt) : Traffic s (ethSend s b p k) := by
  rw [ethSend]
  dsimp only
  split
  · exact traffic_refusePkt s k 7
  · exact Still.traffic ((still_modLinks s _).trans (still_emit _ _)) fun _ => rfl

theorem traffic_sprayed (s : State) (b : Nat) (k : LinkPkt) : Traffic s (sprayed s b k) := by
  rw [sprayed]
  split
  · exact .refl s
  · exact Still.traffic (still_modLinks s _) fun _ => rfl

theorem traffic_useBundle (s : State) (l b : Nat) (planeB : Bool) (x : TxPkt) : Traffic s (useBundle s l b planeB x) := by
  rw [useBundle]
  split
  · exact traffic_refusePkt s _ 7
  · next p _ =>
    have hemit : Traffic s (if x.inp < 5 ∧ p / 5 ≠ l then emit (sprayed s b x.pkt) (.transit l x.inp p x.pkt) else sprayed s b x.pkt) := by
      split
      · exact (traffic_sprayed s b x.pkt).trans (Still.traffic (still_emit _ _) fun _ => rfl)
      · exact traffic_sprayed s b x.pkt
    dsimp only
    generalize (if x.inp < 5 ∧ p / 5 ≠ l then emit (sprayed s b x.pkt) (.transit l x.inp p x.pkt) else sprayed s b x.pkt) = u at hemit ⊢
    split
    · split
      · exact hemit
      · exact hemit.trans (traffic_ethSend u b p x.pkt)
    · exact hemit.trans (traffic_enqueuePkt u p _ x)

/-! ### Ports change their state (R286) -/

theorem setPortSt_effect (s : State) (p : Nat) (x : PortState) : Still s (setPortSt s p x) ∧ (∀ q, q ≠ p → (setPortSt s p x).port q = s.port q) ∧
    (setPortSt s p x).port p = { s.port p with st := x } ∧ (setPortSt s p x).links.dies = s.links.dies := by
  rw [setPortSt]
  split
  · next h => exact ⟨.refl s, fun _ _ => rfl, by rw [← h], rfl⟩
  · dsimp only
    have hlog : Logged (modPort s p fun k => { k with st := x })
        (raiseEvent (modPort s p fun k => { k with st := x }) 0x3001 6 p none [statWord ((modPort s p fun k => { k with st := x }).port p)]) :=
      logged_raiseRec _ _ _ _ _ _ _ _
    generalize raiseEvent (modPort s p fun k => { k with st := x }) 0x3001 6 p none _ = u at hlog ⊢
    have hlinks : (reevaluate u).links = (modPort s p fun k => { k with st := x }).links := (ports_reevaluate u).trans (ports_logged hlog)
    refine ⟨(still_modPort s p _).trans (hlog.still.trans (still_reevaluate u)), fun q hq => ?_, ?_, ?_⟩
    · rw [port_of_links hlinks, port_modPort_ne _ _ hq]
    · rw [port_of_links hlinks, port_modPort]
    · rw [hlinks]
      rfl

/-- Of port `k`, what a change of its state leaves: all but what its link had under way. -/
def LinkLeft (k k' : Port) : Prop := k' = { k with
  st := k'.st
  gated := k'.gated
  ver := k'.ver
  enc := k'.enc
  lsteer := k'.lsteer
  pport := k'.pport
  pdev := k'.pdev
  txSeq := k'.txSeq
  unacked := k'.unacked
  nakOut := k'.nakOut
  vcs := k'.vcs
  badWin := k'.badWin
  beacon := k'.beacon
  keyWant := k'.keyWant
  sealed_ := k'.sealed_
  rrClass := k'.rrClass
  rrPort := k'.rrPort
  deficit := k'.deficit }

theorem SendPort.left {k k' : Port} (h : SendPort k k') : LinkLeft k k' := by
  rw [LinkLeft]
  rw [h]

theorem LinkLeft.trans {k k' k'' : Port} (h : LinkLeft k k') (h' : LinkLeft k' k'') : LinkLeft k k'' := by
  rw [LinkLeft] at h h' ⊢
  rw [h', h]

/-- A port that leaves its state for another. -/
structure PortLeaves (p : Nat) (x : PortState) (s t : State) : Prop where
  still : Still s t
  port : ∀ q, q ≠ p → SendPort (s.port q) (t.port q)
  st : (t.port p).st = x
  lsteer : (t.port p).lsteer = if x = .training ∨ x = .disabled then 0 else (s.port p).lsteer
  left : LinkLeft (s.port p) (t.port p)

/-- The port as its link is gone: what it had received and sent is discarded. -/
def linkGone (x : PortState) (k : Port) : Port :=
  { k with
    gated := false
    ver := 0
    enc := false
    lsteer := if x = .training ∨ x = .disabled then 0 else k.lsteer
    pport := 0
    pdev := 0
    unacked := []
    nakOut := false
    vcs := k.vcs.map (fun v => (v.1, { v.2 with txPkts := [], txCur := [], txPkt := none }))
    badWin := 0
    beacon := none
    keyWant := none }

theorem linkGone_left (x : PortState) (k : Port) : LinkLeft k (linkGone x k) := rfl

/-- R286, R320: a port leaves its state; what it has not delivered is refused, and what waits goes by its bundle. -/
theorem portLeave_leaves {s : State} {p : Nat} {x : PortState} (h : (s.port p).st ≠ x) : PortLeaves p x s (portLeave s p x) := by
  unfold portLeave
  extract_lets k lost cur s1 waiting s2 s3
  rw [if_neg h]
  have h1 : Traffic s s1 := Traffic.foldl (fun s q => traffic_refusePkt s q 7) _ _
  clear_value s1
  have hother : ∀ q, q ≠ p → s2.port q = s1.port q := fun q hq => port_modPort_ne s1 _ hq
  have hport : s2.port p = linkGone x (s1.port p) := port_modPort s1 p _
  have hs2 : Still s s2 := h1.still.trans (still_modPort s1 p _)
  clear_value s2
  obtain ⟨hs3, ho3, hp3, -⟩ := setPortSt_effect s2 p x
  have e3 : s3 = setPortSt s2 p x := rfl
  rw [← e3] at hs3 ho3 hp3
  clear_value s3
  have hlast : Traffic s3 (waiting.foldl (fun s q =>
      if k.bv then useBundle s (p / 5) k.bundle (decide (2 ≤ q.1)) q.2 else refusePkt s q.2.pkt 7) s3) := by
    refine Traffic.foldl (fun s q => ?_) s3 waiting
    split
    · exact traffic_useBundle s _ _ _ _
    · exact traffic_refusePkt s _ 7
  generalize waiting.foldl _ s3 = t at hlast ⊢
  have htp := hlast.port p
  have h1p := h1.port p
  have hlink : (s3.port p).lsteer = if x = .training ∨ x = .disabled then 0 else (s.port p).lsteer := by
    rw [hp3, hport, h1p]
    rfl
  refine ⟨hs2.trans (hs3.trans hlast.still), fun q hq => ?_, ?_, ?_, ?_⟩
  · have hq3 := hlast.port q
    rw [ho3 q hq, hother q hq] at hq3
    exact (h1.port q).trans hq3
  · rw [htp]
    rw [hp3]
  · rw [htp]
    exact hlink
  · refine (h1p.left.trans ?_).trans htp.left
    rw [hp3, hport]
    exact rfl

end Sys2Proof.Machine
end

section
/-!
SUPPORT. Training, the gate and the windows of a port (R284 to R290).
-/

namespace Sys2Proof.Machine
open Sys2Proof

/-! ### Entries of the Survey that ports bring -/

/-- R43: an entry takes the next place. -/
theorem surveyPut_entries {s : State} (ty source : Nat) (revoke prov : Bool) (loc : Bytes) (hm : s.wake.mgmt = false) (hroom : s.survey.room = true) :
    (surveyPut s ty source revoke prov loc).survey.entries = s.survey.entries ++ [newEntry s ty source revoke prov loc] := by
  rw [surveyPut_puts s ty source revoke prov loc hm, makeRoom_room hroom, if_pos hroom]
  exact entries_wrote _ _ _

theorem liveEntries_nil {s : State} {ty : Nat} {loc : Bytes} (h : isLive s ty loc = false) : liveEntries s ty loc = [] := by
  rw [isLive, Bool.not_eq_false', List.isEmpty_iff] at h
  exact h

/-- R45: what a start finds anew gets a provisional entry. -/
theorem startFinds_gets (s : State) (ty : Nat) (loc : Bytes) (h : isLive s ty (padTo 12 loc) = false) : SurveyGets s (startFinds s ty loc) ty loc := by
  have hput : startFinds s ty loc = surveyPut s ty 1 false true loc := by
    rw [startFinds, liveEntries_nil h]
    exact if_pos rfl
  refine ⟨fun hl => by (rw [h] at hl; cases hl), fun _ hm hroom => ⟨newEntry s ty 1 false true loc, ?_, rfl, rfl, rfl⟩⟩
  rw [hput, surveyPut_entries ty 1 false true loc hm hroom]

/-- R45: what an earlier start has found is confirmed. -/
theorem startFinds_confirms {s : State} {ty : Nat} {loc : Bytes} {r : StartRun} (hr : s.wake.start = some r) (hl : isLive s ty (padTo 12 loc) = true)
    (hprov : ∀ e ∈ liveEntries s ty (padTo 12 loc), e.prov = true ∧ e.seq < r.seq0) (hm : s.wake.mgmt = false) (hroom : s.survey.room = true) :
    (startFinds s ty loc).survey.entries = s.survey.entries ++ [newEntry s ty 1 false false loc] := by
  have hne : liveEntries s ty (padTo 12 loc) ≠ [] := by
    rw [isLive, Bool.not_eq_true', List.isEmpty_eq_false_iff] at hl
    exact hl
  have hput : startFinds s ty loc = surveyPut s ty 1 false false loc := by
    rw [startFinds, hr]
    dsimp only
    rw [if_neg hne, if_pos]
    rw [List.all_eq_true]
    intro e he
    obtain ⟨h1, h2⟩ := hprov e he
    rw [h1, decide_eq_true h2]
    rfl
  rw [hput, surveyPut_entries ty 1 false false loc hm hroom]

theorem found_defectFound (s : State) (ty : Nat) (loc : Bytes) : Found s (defectFound s ty loc) := by
  rw [defectFound]
  split
  · split
    · exact found_surveyAppend 2 false
    · exact found_startFinds s ty loc
  · exact found_surveyAppend 2 false

theorem defectFound_gets {s : State} (ty : Nat) (loc : Bytes) (h : s.wake.start = none) : SurveyGets s (defectFound s ty loc) ty loc := by
  rw [defectFound, h]
  exact surveyAppend_gets 2 false

theorem Found.links {s t : State} (h : Found s t) : t.links = s.links := by rw [h]

/-! ### Ports alone -/

/-- A port that alone differs, and its survey as it was. -/
theorem Still.portOnly {s t : State} {p : Nat} (h : Still s t) (ho : ∀ q, q ≠ p → t.port q = s.port q) : PortOnly s t p := ⟨h.mem, h.cores, ho⟩

theorem portOnly_setPortSt (s : State) (p : Nat) (x : PortState) : PortOnly s (setPortSt s p x) p :=
  (setPortSt_effect s p x).1.portOnly (setPortSt_effect s p x).2.1

theorem portOnly_modPort (s : State) (p : Nat) (f : Port → Port) : PortOnly s (modPort s p f) p := (atPort_modPort s p f).portOnly

theorem st_setPortSt (s : State) (p : Nat) (x : PortState) : ((setPortSt s p x).port p).st = x := by
  rw [(setPortSt_effect s p x).2.2.1]

/-! ### Training ends (R284, R285) -/

/-- The failed lanes of a port, each a direction and a lane. -/
def failedLanes (rx tx : BitVec 4) : List (Nat × Nat) :=
  ((List.range 4).filter (fun i => rx.getLsbD i)).map (fun i => (0, i)) ++ ((List.range 4).filter (fun i => tx.getLsbD i)).map (fun i => (1, i))

theorem lanes_nil {x : BitVec 4} : (List.range 4).filter (fun i => x.getLsbD i) = [] ↔ x = 0 := by
  constructor
  · intro h
    refine BitVec.eq_of_getLsbD_eq fun i hi => ?_
    have hn := List.filter_eq_nil_iff.1 h i (List.mem_range.2 hi)
    rw [Bool.not_eq_true] at hn
    rw [hn]
    simp
  · rintro rfl
    rfl

theorem failedLanes_nil {rx tx : BitVec 4} : failedLanes rx tx = [] ↔ rx = 0 ∧ tx = 0 := by
  rw [failedLanes, List.append_eq_nil_iff, List.map_eq_nil_iff, List.map_eq_nil_iff, lanes_nil, lanes_nil]

theorem failedLanes_one {dir k : Nat} (hd : dir < 2) (hk : k < 4) :
    failedLanes (if dir = 0 then BitVec.ofNat 4 (2 ^ k) else 0) (if dir = 0 then 0 else BitVec.ofNat 4 (2 ^ k)) = [(dir, k)] := by
  interval_cases dir <;> interval_cases k <;> rfl

/-- R284: the spare lane of a direction that port `i` may take. -/
theorem spareFor_eq (d : LinkDie) (dir i : Nat) {x : Nat} (hx : x = if i < 3 ∧ mfind d.spares (2 * dir) = none then 0 else 1) :
    spareFor d dir i = if mfind d.spares (2 * dir + x) = none then some (20 + x) else none := by
  rw [spareFor]
  dsimp only
  by_cases h0 : i < 3 ∧ mfind d.spares (2 * dir) = none
  · rw [if_pos h0] at hx
    subst hx
    rw [if_pos (by rw [Nat.add_zero, h0.2]; simpa using h0.1), if_pos (by rw [Nat.add_zero]; exact h0.2)]
  · rw [if_neg h0] at hx
    subst hx
    have hused : i < 3 → (mfind d.spares (2 * dir)).isSome = true := fun hi => Option.isSome_iff_ne_none.2 fun hn => h0 ⟨hi, hn⟩
    rw [if_neg (by
      rw [Nat.add_zero, Bool.and_eq_true, decide_eq_true_iff, Bool.not_eq_true']
      rintro ⟨hi, hn⟩
      rw [hused hi] at hn
      cases hn)]
    have hfar : (decide (3 ≤ i) || (mfind d.spares (2 * dir + 0)).isSome) = true := by
      by_cases hi : i < 3
      · rw [Nat.add_zero, hused hi, Bool.or_true]
      · rw [decide_eq_true (by omega), Bool.true_or]
    rw [hfar, Bool.true_and]
    cases mfind d.spares (2 * dir + 1) <;> rfl

/-- The state with a spare of the die taken and the lane steered, before its entry. -/
def laneTaken (s : State) (p dir k x : Nat) : State :=
  modPort (modLinks s (fun l =>
    let d := mget LinkDie.reset l.dies (p / 5)
    { l with dies := mset l.dies (p / 5) { d with spares := mset d.spares (2 * dir + x) (p % 5) } })) p
    (fun q => { q with lsteer := q.lsteer ||| BitVec.ofNat 4 (2 ^ k) })

/-- The LOCATION of a lane. -/
def laneLoc (p k : Nat) : Bytes := natBytes 1 (p / 5) ++ natBytes 1 (4 * (p % 5) + k)

theorem steerLanes_one (s : State) (p dir k : Nat) {x : Nat}
    (hx : x = if p % 5 < 3 ∧ mfind (mget LinkDie.reset s.links.dies (p / 5)).spares (2 * dir) = none then 0 else 1) :
    steerLanes s p [(dir, k)] = if mfind (mget LinkDie.reset s.links.dies (p / 5)).spares (2 * dir + x) = none then
      some (defectFound (laneTaken s p dir k x) 8 (laneLoc p k)) else none := by
  rw [steerLanes, steerLane]
  dsimp only
  rw [spareFor_eq _ dir (p % 5) hx]
  by_cases h : mfind (mget LinkDie.reset s.links.dies (p / 5)).spares (2 * dir + x) = none
  · rw [if_pos h, if_pos h]
    dsimp only
    rw [steerLanes, Nat.add_sub_cancel_left]
    rfl
  · rw [if_neg h, if_neg h]

theorem exec_trainingDone {s : State} {p : Nat} (r : TrainResult) (hp : p < 40) (hst : (s.port p).st = .training ∨ (s.port p).st = .resetting) :
    exec (.portTrainingDone p r) s = .next (
      if !r.locked || !r.moduleOk then setPortSt s p .down
      else if failedLanes r.failed r.failedTx = [] then setPortSt s p .gate
      else if (s.port p).eth || !r.steerable || !(s.port p).steer then setPortSt s p .excluded
      else
        match steerLanes s p (failedLanes r.failed r.failedTx) with
        | some s => setPortSt s p .gate
        | none => setPortSt s p .excluded) := by
  have hexec : exec (.portTrainingDone p r) s = execPortTrainingDone p r s := rfl
  rw [hexec, execPortTrainingDone]
  dsimp only
  rw [if_neg]
  · rfl
  · rintro (h | h)
    · omega
    · rw [decide_eq_true hst] at h
      cases h

/-- R284: a port whose failed lane a spare carries enters its gate. -/
theorem laneSteered_effect (s : State) (p dir k x : Nat) :
    PortOnly s (setPortSt (defectFound (laneTaken s p dir k x) 8 (laneLoc p k)) p .gate) p ∧
      ((setPortSt (defectFound (laneTaken s p dir k x) 8 (laneLoc p k)) p .gate).port p).st = .gate ∧
      ((setPortSt (defectFound (laneTaken s p dir k x) 8 (laneLoc p k)) p .gate).port p).lsteer = (s.port p).lsteer ||| BitVec.ofNat 4 (2 ^ k) ∧
      mfind (mget LinkDie.reset (setPortSt (defectFound (laneTaken s p dir k x) 8 (laneLoc p k)) p .gate).links.dies (p / 5)).spares (2 * dir + x) =
        some (p % 5) ∧
      (s.wake.start = none → SurveyGets s (setPortSt (defectFound (laneTaken s p dir k x) 8 (laneLoc p k)) p .gate) 8 (laneLoc p k)) := by
  have hother : ∀ q, q ≠ p → (laneTaken s p dir k x).port q = s.port q := fun q hq => port_modPort_ne _ _ hq
  have hport : ((laneTaken s p dir k x).port p).lsteer = (s.port p).lsteer ||| BitVec.ofNat 4 (2 ^ k) := by
    rw [laneTaken, port_modPort]
    rfl
  have hdies : mfind (mget LinkDie.reset (laneTaken s p dir k x).links.dies (p / 5)).spares (2 * dir + x) = some (p % 5) := by
    change mfind (mget LinkDie.reset (mset s.links.dies (p / 5) _) (p / 5)).spares _ = _
    rw [mget_mset]
    exact mfind_mset _ _ _
  have hsame : (laneTaken s p dir k x).mem = s.mem ∧ (laneTaken s p dir k x).cores = s.cores ∧ (laneTaken s p dir k x).survey = s.survey ∧
      (laneTaken s p dir k x).wake = s.wake := ⟨rfl, rfl, rfl, rfl⟩
  obtain ⟨hmem, hcores, hsurvey, hwake⟩ := hsame
  generalize laneTaken s p dir k x = u at hother hport hdies hmem hcores hsurvey hwake ⊢
  have hf := found_defectFound u 8 (laneLoc p k)
  have hg : s.wake.start = none → SurveyGets u (defectFound u 8 (laneLoc p k)) 8 (laneLoc p k) := fun hs =>
    defectFound_gets 8 _ (by rw [hwake]; exact hs)
  generalize defectFound u 8 (laneLoc p k) = v at hf hg ⊢
  obtain ⟨hstill, ho, hpt, hd⟩ := setPortSt_effect v p .gate
  have hvp : ∀ q, v.port q = u.port q := port_of_links hf.links
  refine ⟨⟨hstill.mem.trans (hf.mem.trans hmem), hstill.cores.trans (hf.cores.trans hcores), fun q hq => ?_⟩, ?_, ?_, ?_, fun hs => ?_⟩
  · rw [ho q hq, hvp, hother q hq]
  · rw [hpt]
  · rw [hpt]
    exact (congrArg Port.lsteer (hvp p)).trans hport
  · rw [hd, hf.links]
    exact hdies
  · exact SurveyGets.within hsurvey (by rw [hwake]) (hg hs) hstill.survey

theorem portOnly_laneTaken (s : State) (p dir k x : Nat) : PortOnly s (laneTaken s p dir k x) p :=
  ⟨rfl, rfl, fun _ hq => port_modPort_ne _ _ hq⟩

theorem portOnly_defectFound (s : State) (p ty : Nat) (loc : Bytes) : PortOnly s (defectFound s ty loc) p := by
  have h := found_defectFound s ty loc
  exact ⟨h.mem, h.cores, fun q _ => port_of_links h.links q⟩

theorem portOnly_steerLanes {p : Nat} (l : List (Nat × Nat)) {s u : State} (h : steerLanes s p l = some u) : PortOnly s u p := by
  induction l generalizing s with
  | nil =>
    rw [steerLanes] at h
    cases h
    exact ⟨rfl, rfl, fun _ _ => rfl⟩
  | cons d l ih =>
    obtain ⟨dir, k⟩ := d
    rw [steerLanes] at h
    split at h
    · cases h
    · next v hv =>
      refine PortOnly.trans ?_ (ih h)
      rw [steerLane] at hv
      dsimp only at hv
      split at hv
      · cases hv
      · next lane _ =>
        rw [← Option.some.inj hv]
        exact (portOnly_laneTaken s p dir k (lane - 20)).trans (portOnly_defectFound _ p _ _)

/-- R284, R285: what the end of training brings a port. -/
theorem trainingDone_effect {s : State} {p : Nat} (r : TrainResult) (hp : p < 40) (hst : (s.port p).st = .training ∨ (s.port p).st = .resetting) :
    ∃ t, exec (.portTrainingDone p r) s = .next t ∧ PortOnly s t p ∧
      (r.locked = false ∨ r.moduleOk = false → (t.port p).st = .down) ∧
      (r.locked = true → r.moduleOk = true →
        (r.failed = 0 → r.failedTx = 0 → (t.port p).st = .gate) ∧
        (r.failed ≠ 0 ∨ r.failedTx ≠ 0 → (s.port p).eth = true ∨ r.steerable = false ∨ (s.port p).steer = false →
          (t.port p).st = .excluded) ∧
        (∀ dir < 2, ∀ k < 4, r.failed = (if dir = 0 then BitVec.ofNat 4 (2 ^ k) else 0) →
          r.failedTx = (if dir = 0 then 0 else BitVec.ofNat 4 (2 ^ k)) →
          (s.port p).eth = false → r.steerable = true → (s.port p).steer = true →
          ∀ d x, d = (mget LinkDie.reset s.links.dies (p / 5)).spares →
          x = (if p % 5 < 3 ∧ mfind d (2 * dir) = none then 0 else 1) →
          (mfind d (2 * dir + x) ≠ none → (t.port p).st = .excluded) ∧
          (mfind d (2 * dir + x) = none → (t.port p).st = .gate ∧
            (t.port p).lsteer = (s.port p).lsteer ||| BitVec.ofNat 4 (2 ^ k) ∧
            mfind (mget LinkDie.reset t.links.dies (p / 5)).spares (2 * dir + x) = some (p % 5) ∧
            (s.wake.start = none → SurveyGets s t 8 (natBytes 1 (p / 5) ++ natBytes 1 (4 * (p % 5) + k)))))) := by
  rw [exec_trainingDone r hp hst]
  by_cases hlock : r.locked = true ∧ r.moduleOk = true
  · obtain ⟨hl, hm⟩ := hlock
    have hnot : ¬ (r.locked = false ∨ r.moduleOk = false) := by
      rw [hl, hm]
      decide
    rw [hl, hm, if_neg (by decide)]
    by_cases hnil : failedLanes r.failed r.failedTx = []
    · obtain ⟨h1, h2⟩ := failedLanes_nil.1 hnil
      rw [if_pos hnil]
      refine ⟨_, rfl, portOnly_setPortSt s p _, fun h => (absurd h (by decide)), fun _ _ => ⟨fun _ _ => st_setPortSt s p _,
        fun h => (h.elim (absurd h1) (absurd h2)), fun dir hd k hk hf hft => ?_⟩⟩
      have hone := failedLanes_one hd hk
      rw [← hf, ← hft, hnil] at hone
      cases hone
    · rw [if_neg hnil]
      have hsome : ¬ (r.failed = 0 ∧ r.failedTx = 0) := fun h => hnil (failedLanes_nil.2 h)
      by_cases hblock : ((s.port p).eth || !r.steerable || !(s.port p).steer) = true
      · rw [if_pos hblock]
        refine ⟨_, rfl, portOnly_setPortSt s p _, fun h => (absurd h (by decide)), fun _ _ => ⟨fun h1 h2 => absurd ⟨h1, h2⟩ hsome,
          fun _ _ => st_setPortSt s p _, fun dir _ k _ _ _ he hs ht => ?_⟩⟩
        rw [he, hs, ht] at hblock
        cases hblock
      · rw [if_neg hblock]
        have hopen : ¬ ((s.port p).eth = true ∨ r.steerable = false ∨ (s.port p).steer = false) := by
          rintro (h | h | h) <;> rw [h] at hblock <;> simp at hblock
        refine ⟨_, rfl, ?_, fun h => (absurd h (by decide)), fun _ _ => ⟨fun h1 h2 => absurd ⟨h1, h2⟩ hsome, fun _ h => absurd h hopen,
          fun dir hd k hk hf hft _ _ _ d x hdie hx => ?_⟩⟩
        · split
          · next u hu => exact (portOnly_steerLanes _ hu).trans (portOnly_setPortSt u p _)
          · exact portOnly_setPortSt s p _
        · have hone := failedLanes_one hd hk
          rw [← hf, ← hft] at hone
          rw [hone]
          subst hdie
          rw [steerLanes_one s p dir k hx]
          refine ⟨fun hused => ?_, fun hfree => ?_⟩
          · rw [if_neg hused]
            exact st_setPortSt s p _
          · rw [if_pos hfree]
            exact (laneSteered_effect s p dir k x).2
  · have hgate : (!r.locked || !r.moduleOk) = true := by
      rw [not_and_or, Bool.not_eq_true, Bool.not_eq_true] at hlock
      rcases hlock with h | h <;> rw [h]
      · rfl
      · exact Bool.or_true _
    rw [if_pos hgate]
    exact ⟨_, rfl, portOnly_setPortSt s p _, fun _ => st_setPortSt s p _, fun h1 h2 => absurd ⟨h1, h2⟩ hlock⟩

/-! ### The gate ends (R287 to R289, R45) -/

/-- The port with the error ratio of its worst lane. -/
def gateMeasured (s : State) (p : Nat) (lanes : List (Nat × Nat)) : State :=
  modPort s p (fun k => { k with ber := ratioF32 (worstLane lanes).1 (worstLane lanes).2 })

/-- What a gate that fails leaves, before the start records it. -/
def gateFailed (s : State) (p : Nat) : State :=
  raiseErr (setPortSt s p .excluded) 0x000D 6 p none (dieEcho s (p / 5)) [(s.port p).ber.toNat]

/-- R45: a start finds the port excluded. -/
def exclusionFound (s : State) (p : Nat) : State :=
  match s.wake.start with
  | some r => if r.warm then s else startFinds s 9 (natBytes 1 p ++ natBytes 3 0 ++ natBytes 4 (s.port p).ber.toNat)
  | none => s

/-- A native port whose gate has passed sends TRAIN. -/
def trainSent (s : State) (p : Nat) : State :=
  let s := modPort s p (fun k => { k with gated := true })
  let (s, f) := sealFrame s p (bundleSealed s p) (mget false s.links.keyUse (s.port p).bundle) (bareFrame 4 0)
  emit s (.trainFrame p f ⟨3, s.devId, p, [1088, 1088, 1088, 1088], (s.port p).steer, false⟩)

theorem exec_berGateEnd {s : State} {p : Nat} (lanes : List (Nat × Nat)) (hp : p < 40) (hst : (s.port p).st = .gate) (hg : (s.port p).gated = false) :
    exec (.berGateEnd p lanes) s = .next (
      if lanes.all (fun x => decide (x.1 * 100000 ≤ x.2)) then
        if ((gateMeasured s p lanes).port p).eth then setPortSt (gateMeasured s p lanes) p .admitted else trainSent (gateMeasured s p lanes) p
      else exclusionFound (gateFailed (gateMeasured s p lanes) p) p) := by
  have hexec : exec (.berGateEnd p lanes) s = execBerGateEnd p lanes s := rfl
  rw [hexec, execBerGateEnd, if_neg]
  · dsimp only
    rw [← gateMeasured]
    generalize gateMeasured s p lanes = u
    refine congrArg Host.Outcome.next ?_
    split
    · split
      · rfl
      · rfl
    · have hfail : raiseErr (setPortSt u p .excluded) 0x000D 6 p none (dieEcho u (p / 5))
          [(u.port p).ber.toNat] = gateFailed u p := rfl
      rw [hfail]
      generalize gateFailed u p = v
      unfold exclusionFound
      cases v.wake.start <;> rfl
  · rintro (h | h | h)
    · omega
    · exact h hst
    · rw [hg] at h
      cases h

theorem trainSent_effect (s : State) (p : Nat) : PortOnly s (trainSent s p) p ∧ ((trainSent s p).port p).st = (s.port p).st ∧
    ((trainSent s p).port p).gated = true ∧
    ∃ f : Frame, (trainSent s p).out = s.out ++ [.trainFrame p f ⟨3, s.devId, p, [1088, 1088, 1088, 1088], (s.port p).steer, false⟩] ∧
      f.type_ = 4 ∧ f.enc = bundleSealed s p ∧ f.crcOk = true := by
  have hport : (modPort s p fun k => { k with gated := true }).port p = { s.port p with gated := true } := port_modPort s p _
  have hseal : bundleSealed (modPort s p fun k => { k with gated := true }) p = bundleSealed s p := by
    rw [bundleSealed, hport]
    rfl
  have hat0 : AtPort p s (modPort s p fun k => { k with gated := true }) := atPort_modPort s p _
  have hout0 : (modPort s p fun k => { k with gated := true }).out = s.out := rfl
  rw [trainSent]
  generalize modPort s p (fun k => { k with gated := true }) = u at hport hseal hat0 hout0 ⊢
  obtain ⟨hat, hout, hstamp, hframe⟩ := sealFrame_effect u p (bundleSealed u p) (mget false u.links.keyUse (u.port p).bundle) (bareFrame 4 0)
  dsimp only
  generalize sealFrame u p (bundleSealed u p) (mget false u.links.keyUse (u.port p).bundle) (bareFrame 4 0) = x at hat hout hstamp hframe ⊢
  obtain ⟨v, f⟩ := x
  dsimp only at hat hout hstamp hframe ⊢
  have hall := hat0.trans hat
  refine ⟨hall.portOnly.trans (atPort_emit v p _).portOnly, ?_, ?_, f, ?_, ?_, ?_, ?_⟩
  · change (v.port p).st = _
    rw [hstamp.1, hport]
  · change (v.port p).gated = _
    rw [hstamp.1, hport]
  · have hsteer : (v.port p).steer = (s.port p).steer := by rw [hstamp.1, hport]
    rw [emit, hout, hout0, hall.devId, hsteer]
  · rw [hframe]
    rfl
  · rw [hframe, hseal]
    exact Bool.and_true _
  · rw [hframe]
    rfl

theorem gateFailed_effect (s : State) (p : Nat) : PortOnly s (gateFailed s p) p ∧ ((gateFailed s p).port p).st = .excluded ∧
    (gateFailed s p).wake.start = s.wake.start ∧ (gateFailed s p).survey = s.survey ∧ (gateFailed s p).wake.mgmt = s.wake.mgmt := by
  obtain ⟨hstill, ho, hp, -⟩ := setPortSt_effect s p .excluded
  have hlog := logged_raiseErr (code := 0x000D) (by decide) (setPortSt s p .excluded) 6 p none (dieEcho s (p / 5))
    [(s.port p).ber.toNat]
  rw [gateFailed]
  generalize setPortSt s p .excluded = u at hstill ho hp hlog ⊢
  generalize raiseErr u 0x000D 6 p none _ _ = t at hlog ⊢
  have hall := hstill.trans hlog.still
  have hports : ∀ q, t.port q = u.port q := port_of_links (ports_logged hlog)
  refine ⟨hall.portOnly fun q hq => (hports q).trans (ho q hq), ?_, hall.start, hall.survey, hall.mgmt⟩
  rw [hports, hp]

theorem exclusionFound_effect (s : State) (p : Nat) : PortOnly s (exclusionFound s p) p ∧ (exclusionFound s p).links = s.links := by
  rw [exclusionFound]
  split
  · split
    · exact ⟨⟨rfl, rfl, fun _ _ => rfl⟩, rfl⟩
    · have h := found_startFinds s 9 (natBytes 1 p ++ natBytes 3 0 ++ natBytes 4 (s.port p).ber.toNat)
      exact ⟨⟨h.mem, h.cores, fun q _ => port_of_links h.links q⟩, h.links⟩
  · exact ⟨⟨rfl, rfl, fun _ _ => rfl⟩, rfl⟩

theorem isLive_of_survey {s t : State} (h : t.survey = s.survey) (ty : Nat) (loc : Bytes) : isLive t ty loc = isLive s ty loc ∧
    liveEntries t ty loc = liveEntries s ty loc := by
  have hlive : liveEntries t ty loc = liveEntries s ty loc := by rw [liveEntries, liveSurvey, h, liveEntries, liveSurvey]
  exact ⟨by rw [isLive, hlive, isLive], hlive⟩

/-- R287 to R289: what the end of a gate brings a port. -/
theorem berGateEnd_effect {s : State} {p : Nat} {lanes : List (Nat × Nat)} (hp : p < 40) (hst : (s.port p).st = .gate) (hg : (s.port p).gated = false) :
    ∃ t, exec (.berGateEnd p lanes) s = .next t ∧ PortOnly s t p ∧
      ((∀ x ∈ lanes, x.1 * 100000 ≤ x.2) → (s.port p).eth = true → (t.port p).st = .admitted) ∧
      ((∀ x ∈ lanes, x.1 * 100000 ≤ x.2) → (s.port p).eth = false → (t.port p).st = .gate ∧ (t.port p).gated = true ∧
        ∃ f : Frame, t.out = s.out ++ [.trainFrame p f ⟨3, s.devId, p, [1088, 1088, 1088, 1088], (s.port p).steer, false⟩] ∧
          f.type_ = 4 ∧ f.enc = bundleSealed s p ∧ f.crcOk = true) ∧
      ((∃ x ∈ lanes, x.2 < x.1 * 100000) → (t.port p).st = .excluded ∧ ∀ r loc, s.wake.start = some r → r.warm = false →
        loc = natBytes 1 p ++ natBytes 3 0 ++ natBytes 4 (t.port p).ber.toNat →
        (isLive s 9 (padTo 12 loc) = false → SurveyGets s t 9 loc) ∧
        (isLive s 9 (padTo 12 loc) = true → (∀ e ∈ liveEntries s 9 (padTo 12 loc), e.prov = true ∧ e.seq < r.seq0) →
          s.wake.mgmt = false → s.survey.room = true → ∃ e, t.survey.entries = s.survey.entries ++ [e] ∧ e.type_ = 9 ∧
            e.loc = padTo 12 loc ∧ e.prov = false ∧ e.revoke = false)) := by
  have hport : (gateMeasured s p lanes).port p = { s.port p with ber := ratioF32 (worstLane lanes).1 (worstLane lanes).2 } := port_modPort s p _
  have hat : AtPort p s (gateMeasured s p lanes) := atPort_modPort s p _
  have hout : (gateMeasured s p lanes).out = s.out := rfl
  have hseal : bundleSealed (gateMeasured s p lanes) p = bundleSealed s p := by
    rw [bundleSealed, hport]
    rfl
  have hwake : (gateMeasured s p lanes).wake = s.wake ∧ (gateMeasured s p lanes).survey = s.survey := ⟨rfl, rfl⟩
  rw [exec_berGateEnd lanes hp hst hg]
  generalize gateMeasured s p lanes = u at hport hat hout hseal hwake ⊢
  have heth : (u.port p).eth = (s.port p).eth := by rw [hport]
  by_cases hall : lanes.all (fun x => decide (x.1 * 100000 ≤ x.2)) = true
  · have hno : ¬ ∃ x ∈ lanes, x.2 < x.1 * 100000 := by
      rintro ⟨x, hx, hlt⟩
      have h := List.all_eq_true.1 hall x hx
      rw [decide_eq_true_iff] at h
      omega
    rw [if_pos hall]
    cases he : (s.port p).eth with
    | true =>
      rw [if_pos (heth.trans he)]
      exact ⟨_, rfl, hat.portOnly.trans (portOnly_setPortSt u p _), fun _ _ => st_setPortSt u p _, fun _ h => (by cases h), fun h => absurd h hno⟩
    | false =>
      obtain ⟨honly, hust, hgated, f, hf, htype, henc, hcrc⟩ := trainSent_effect u p
      rw [if_neg (by rw [heth, he]; exact Bool.false_ne_true)]
      refine ⟨_, rfl, hat.portOnly.trans honly, fun _ h => (by cases h), fun _ _ => ⟨?_, hgated, f, ?_, htype, ?_, hcrc⟩, fun h => absurd h hno⟩
      · rw [hust, hport]
        exact hst
      · rw [hf, hout, hat.devId, hport]
      · rw [henc, hseal]
  · have hbad : ¬ ∀ x ∈ lanes, x.1 * 100000 ≤ x.2 := fun h => hall (List.all_eq_true.2 fun x hx => decide_eq_true (h x hx))
    obtain ⟨honly, hexcl, hstart, hsurvey, hmgmt⟩ := gateFailed_effect u p
    rw [if_neg hall]
    generalize gateFailed u p = v at honly hexcl hstart hsurvey hmgmt ⊢
    obtain ⟨hfound, hlinks⟩ := exclusionFound_effect v p
    have hvs : v.survey = s.survey := hsurvey.trans hwake.2
    have hvm : v.wake.mgmt = s.wake.mgmt := by rw [hmgmt, hwake.1]
    refine ⟨_, rfl, hat.portOnly.trans (honly.trans hfound), fun h => absurd h hbad, fun h => absurd h hbad, fun _ => ⟨?_, fun r loc hr hw hloc => ?_⟩⟩
    · rw [port_of_links hlinks]
      exact hexcl
    · rw [port_of_links hlinks] at hloc
      have hvr : v.wake.start = some r := by rw [hstart, hwake.1, hr]
      have heq : exclusionFound v p = startFinds v 9 loc := by
        rw [exclusionFound, hvr, hloc]
        exact if_neg (by rw [hw]; exact Bool.false_ne_true)
      obtain ⟨hlive, hents⟩ := isLive_of_survey hvs 9 (padTo 12 loc)
      rw [heq, ← hlive, ← hents, ← hvm, ← hvs]
      refine ⟨fun hl => ?_, fun hl hprov hm hroom => ⟨_, startFinds_confirms hvr hl hprov hm hroom, rfl, rfl, rfl, rfl⟩⟩
      exact SurveyGets.within hvs hvm (startFinds_gets v 9 loc hl) rfl

end Sys2Proof.Machine
end

section
/-!
O40: ports train and fall.
-/

namespace Sys2Proof.Machine
open Sys2Proof

/-! ### TRAIN frames (R287, R291, R295, R317, R320) -/

theorem lsb_two {n : Nat} (x : BitVec n) : x.getLsbD 1 = decide (2 ≤ x.toNat % 4) := by
  have h : x.getLsbD 1 = x.toNat.testBit 1 := rfl
  rw [h, Nat.testBit_eq_decide_div_mod_eq, decide_eq_decide]
  omega

/-- R287: the port with its partner, version and credits. -/
def partnered (b : TrainBody) (ver : Nat) (enc keyid : Bool) (k : Port) : Port :=
  { k with
    gated := false
    ver := ver
    enc := enc
    keyid := keyid
    pdev := b.dev
    pport := b.port
    txSeq := 0
    unacked := []
    rxSeq := 0
    nakOut := false
    vcs := (List.range 4).map (fun v => (v, { LinkVc.reset with txCred := b.credits.getD v 0 }))
    badWin := 0
    rrClass := 0
    rrPort := []
    deficit := []
    keyWant := none
    lastNak := none }

theorem partnered_vc (b : TrainBody) (ver : Nat) (enc keyid : Bool) (k : Port) {v : Nat} (h : v < 4) :
    (partnered b ver enc keyid k).vc v = { LinkVc.reset with txCred := b.credits.getD v 0 } := by
  interval_cases v <;> rfl

theorem askReplay_port (s : State) (p : Nat) : ∃ n a v, (askReplay s p).port p = { s.port p with nakOut := n, sealed_ := a, vcs := v } := by
  rw [askReplay]
  split
  · exact ⟨_, _, _, rfl⟩
  · obtain ⟨-, hstamp, -⟩ := sendNak_effect (modPort s p (fun k => { k with nakOut := true })) p 1 (s.port p).rxSeq
    rw [hstamp.1, port_modPort]
    exact ⟨_, _, _, rfl⟩

section

variable {s : State} {p : Nat} (f : Frame) (b : TrainBody) (hp : p < 40) (heth : (s.port p).eth = false) (hst : (s.port p).st = .gate)
  (hg : (s.port p).gated = true)

include hp heth hst hg

theorem train_bad (hcrc : f.crcOk = false) : exec (.trainFrame p ⟨f, b⟩) s = .next s := by
  have hexec : exec (.trainFrame p ⟨f, b⟩) s = execTrainFrame p ⟨f, b⟩ s := rfl
  rw [hexec, execTrainFrame]
  dsimp only
  rw [if_neg, if_pos]
  · rw [hcrc]
    rfl
  · rw [heth, hst, hg]
    simp
    exact hp

theorem exec_trainOk (hcrc : f.crcOk = true) : exec (.trainFrame p ⟨f, b⟩) s = .next (
    if bundleSealed s p && !f.tagOk then tagFail s p
    else if b.malformed then violationNak s p 2 0
    else if b.vmask.toNat % 4 = 0 then sendNak s p 5 0
    else if b.dev = s.devId then setPortSt (modPort s p (fun k => { k with gated := false, pdev := b.dev, pport := b.port })) p .training
    else if bundleSealed s p && (if 2 ≤ b.vmask.toNat % 4 then 2 else 1) != 2 then s
    else setPortSt (modPort s p (fun k => partnered b (if 2 ≤ b.vmask.toNat % 4 then 2 else 1) (bundleSealed s p)
      (mget false s.links.keyUse k.bundle) k)) p .admitted) := by
  have hexec : exec (.trainFrame p ⟨f, b⟩) s = execTrainFrame p ⟨f, b⟩ s := rfl
  rw [hexec, execTrainFrame]
  dsimp only
  rw [if_neg, if_neg]
  · rfl
  · rw [hcrc]
    decide
  · rw [heth, hst, hg]
    simp
    exact hp

theorem train_tagFails (hcrc : f.crcOk = true) (hseal : bundleSealed s p = true) (htag : f.tagOk = false) (hfew : (s.port p).tagAt.length < 16) :
    ∃ t, exec (.trainFrame p ⟨f, b⟩) s = .next t ∧ PortOnly s t p ∧ (t.port p).st = .gate ∧ (t.port p).tagf = satInc (s.port p).tagf 1 := by
  rw [exec_trainOk f b hp heth hst hg hcrc, if_pos (by rw [hseal, htag]; rfl), tagFail]
  have hport := port_modPort s p fun k =>
    { k with
      tagf := satInc k.tagf 1
      tagAt := (k.tagAt.filter (fun t => decide (s.now < t + oneMs))) ++ [s.now] }
  have honly := portOnly_modPort s p fun k =>
    { k with
      tagf := satInc k.tagf 1
      tagAt := (k.tagAt.filter (fun t => decide (s.now < t + oneMs))) ++ [s.now] }
  generalize modPort s p _ = u at hport honly ⊢
  have hlen : ((s.port p).tagAt.filter (fun t => decide (s.now < t + oneMs))).length ≤ (s.port p).tagAt.length := List.length_filter_le _ _
  rw [if_neg (by rw [hport]; simp; omega)]
  obtain ⟨hat, -⟩ := askReplay_effect u p
  obtain ⟨n, a, v, hask⟩ := askReplay_port u p
  refine ⟨_, rfl, honly.trans hat.portOnly, ?_, ?_⟩
  · rw [hask, hport]
    exact hst
  · rw [hask, hport]

theorem train_noVersion (hcrc : f.crcOk = true) (htag : bundleSealed s p = true → f.tagOk = true) (hform : b.malformed = false)
    (hv : b.vmask.toNat % 4 = 0) : ∃ t g, exec (.trainFrame p ⟨f, b⟩) s = .next t ∧ t.out = s.out ++ [.frame p g] ∧ g.type_ = 2 ∧
      g.cause = 5 ∧ (t.port p).st = .gate := by
  obtain ⟨-, hstamp, g, hout, htype, hcause, -⟩ := sendNak_effect s p 5 0
  rw [exec_trainOk f b hp heth hst hg hcrc, if_neg, if_neg (by rw [hform]; exact Bool.false_ne_true), if_pos hv]
  · refine ⟨_, g, rfl, hout, htype, hcause, ?_⟩
    rw [hstamp.1]
    exact hst
  · rw [Bool.and_eq_true]
    rintro ⟨h1, h2⟩
    rw [htag h1] at h2
    cases h2

section

variable (hcrc : f.crcOk = true) (htag : bundleSealed s p = true → f.tagOk = true) (hform : b.malformed = false) (hv : b.vmask.toNat % 4 ≠ 0)

include hcrc htag hform hv

theorem exec_trainSettles : exec (.trainFrame p ⟨f, b⟩) s = .next (
    if b.dev = s.devId then setPortSt (modPort s p (fun k => { k with gated := false, pdev := b.dev, pport := b.port })) p .training
    else if bundleSealed s p && (if 2 ≤ b.vmask.toNat % 4 then 2 else 1) != 2 then s
    else setPortSt (modPort s p (fun k => partnered b (if 2 ≤ b.vmask.toNat % 4 then 2 else 1) (bundleSealed s p)
      (mget false s.links.keyUse k.bundle) k)) p .admitted) := by
  rw [exec_trainOk f b hp heth hst hg hcrc, if_neg, if_neg (by rw [hform]; exact Bool.false_ne_true), if_neg hv]
  rw [Bool.and_eq_true]
  rintro ⟨h1, h2⟩
  rw [htag h1] at h2
  cases h2

/-- R295: a port that finds itself stays in training. -/
theorem train_self (hdev : b.dev = s.devId) : ∃ t, exec (.trainFrame p ⟨f, b⟩) s = .next t ∧ PortOnly s t p ∧
    (t.port p).st = .training ∧ (t.port p).pdev = b.dev ∧ (t.port p).pport = b.port := by
  have hport := port_modPort s p fun k => { k with gated := false, pdev := b.dev, pport := b.port }
  have honly := portOnly_modPort s p fun k => { k with gated := false, pdev := b.dev, pport := b.port }
  rw [exec_trainSettles f b hp heth hst hg hcrc htag hform hv, if_pos hdev]
  generalize modPort s p (fun k => { k with gated := false, pdev := b.dev, pport := b.port }) = u at hport honly ⊢
  have hset := (setPortSt_effect u p .training).2.2.1
  refine ⟨_, rfl, honly.trans (portOnly_setPortSt u p _), ?_, ?_, ?_⟩
  · rw [hset]
  · rw [hset, hport]
  · rw [hset, hport]

theorem train_unsealed (hdev : b.dev ≠ s.devId) (hone : b.vmask.toNat % 4 = 1) (hbv : (s.port p).bv = true)
    (hcfg : cfgNum s 0x50 0x0201 (s.port p).bundle 0 = 1) : exec (.trainFrame p ⟨f, b⟩) s = .next s := by
  rw [exec_trainSettles f b hp heth hst hg hcrc htag hform hv, if_neg hdev, if_pos]
  rw [bundleSealed, hbv, hcfg, hone]
  rfl

/-- R287 step 4: the port is admitted with its partner's version and credits. -/
theorem train_admits (hdev : b.dev ≠ s.devId)
    (hmay : (s.port p).bv = false ∨ cfgNum s 0x50 0x0201 (s.port p).bundle 0 ≠ 1 ∨ b.vmask.getLsbD 1 = true) :
    ∃ t, exec (.trainFrame p ⟨f, b⟩) s = .next t ∧ PortOnly s t p ∧ (t.port p).st = .admitted ∧
      (t.port p).ver = (if b.vmask.getLsbD 1 then 2 else 1) ∧
      (t.port p).enc = ((s.port p).bv && cfgNum s 0x50 0x0201 (s.port p).bundle 0 == 1) ∧ (t.port p).pdev = b.dev ∧
      (t.port p).pport = b.port ∧ (t.port p).unacked = [] ∧ (t.port p).rxSeq = 0 ∧
      ∀ v < 4, (t.port p).vc v = { LinkVc.reset with txCred := b.credits.getD v 0 } := by
  have hver : (if b.vmask.getLsbD 1 then 2 else 1) = if 2 ≤ b.vmask.toNat % 4 then 2 else 1 := by
    have h : b.vmask.getLsbD 1 = decide (2 ≤ b.vmask.toNat % 4) := lsb_two b.vmask
    rw [h]
    by_cases h2 : 2 ≤ b.vmask.toNat % 4
    · rw [decide_eq_true h2, if_pos rfl, if_pos h2]
    · rw [decide_eq_false h2, if_neg Bool.false_ne_true, if_neg h2]
  have hpass : ¬ (bundleSealed s p && (if 2 ≤ b.vmask.toNat % 4 then 2 else 1) != 2) = true := by
    rw [← hver, bundleSealed]
    rcases hmay with h | h | h
    · simp [h]
    · simp [h]
    · simp [h]
  rw [exec_trainSettles f b hp heth hst hg hcrc htag hform hv, if_neg hdev, if_neg hpass, ← hver]
  have hport := port_modPort s p fun k => partnered b (if b.vmask.getLsbD 1 then 2 else 1) (bundleSealed s p) (mget false s.links.keyUse k.bundle) k
  have honly := portOnly_modPort s p fun k => partnered b (if b.vmask.getLsbD 1 then 2 else 1) (bundleSealed s p) (mget false s.links.keyUse k.bundle) k
  generalize modPort s p _ = u at hport honly ⊢
  have hset := (setPortSt_effect u p .admitted).2.2.1
  rw [hport] at hset
  refine ⟨_, rfl, honly.trans (portOnly_setPortSt u p _), ?_⟩
  rw [hset]
  exact ⟨rfl, rfl, rfl, rfl, rfl, rfl, rfl, fun v h => partnered_vc b (if b.vmask.getLsbD 1 then 2 else 1) (bundleSealed s p)
    (mget false s.links.keyUse (s.port p).bundle) (s.port p) h⟩

end

end

/-! ### Windows, lost signals and modules (R285, R286, R289) -/

theorem portReset_rate (s : State) (p : Nat) (h : (s.port p).st = .admitted) : Still s (portReset s p .rate) ∧
    ((portReset s p .rate).port p).uncor = (s.port p).uncor ∧ ((portReset s p .rate).port p).st =
      if 2 ≤ ((s.port p).resets.filter (fun x => decide (s.now < x + 600000000000))).length then .excluded else .resetting := by
  obtain ⟨hstill, -, hst, -, hleft⟩ := portLeave_leaves (s := s) (p := p) (x := .resetting) (by rw [h]; decide)
  rw [portReset]
  generalize portLeave s p .resetting = u at hstill hst hleft ⊢
  dsimp only
  rw [if_pos rfl, if_neg (by decide)]
  have hlog := logged_raiseErr (code := 0x000C) (by decide) u 6 p none (dieEcho u (p / 5)) [(u.port p).ber.toNat]
  generalize raiseErr u 0x000C 6 p none _ _ = v at hlog ⊢
  have hv := hstill.trans hlog.still
  have hvp : v.port p = u.port p := port_of_links (ports_logged hlog) p
  have hres : (v.port p).resets = (s.port p).resets := by rw [hvp, hleft]
  rw [hres, hv.now]
  have hport := port_modPort v p fun k => { k with resets := (s.port p).resets.filter (fun t => decide (s.now < t + resetWindow)) ++ [s.now] }
  have hw : Still v (modPort v p fun k => { k with resets := (s.port p).resets.filter (fun t => decide (s.now < t + resetWindow)) ++ [s.now] }) :=
    still_modPort v p _
  generalize modPort v p _ = w at hport hw ⊢
  have hwu : (w.port p).uncor = (s.port p).uncor := by rw [hport, hvp, hleft]
  have hwst : (w.port p).st = .resetting := by rw [hport, hvp, hst]
  have hlen : ((s.port p).resets.filter (fun t => decide (s.now < t + resetWindow)) ++ [s.now]).length =
      ((s.port p).resets.filter (fun t => decide (s.now < t + 600000000000))).length + 1 := List.length_append
  rw [hlen]
  by_cases hmany : 2 ≤ ((s.port p).resets.filter (fun x => decide (s.now < x + 600000000000))).length
  · rw [if_pos (by omega), if_pos hmany]
    obtain ⟨hs3, -, hp3, -⟩ := setPortSt_effect w p .excluded
    have hlog' := logged_raiseErr (code := 0x000D) (by decide) (setPortSt w p .excluded) 6 p none (dieEcho w (p / 5)) [(w.port p).ber.toNat]
    generalize setPortSt w p .excluded = x at hs3 hp3 hlog' ⊢
    generalize raiseErr x 0x000D 6 p none _ _ = y at hlog' ⊢
    have hy : y.port p = x.port p := port_of_links (ports_logged hlog') p
    exact ⟨hv.trans (hw.trans (hs3.trans hlog'.still)), by rw [hy, hp3]; exact hwu, by rw [hy, hp3]⟩
  · rw [if_neg (by omega), if_neg hmany]
    exact ⟨hv.trans hw, hwu, hwst⟩

theorem berWindowEnd_effect {s : State} {p errors bits uncor bad : Nat} (hp : p < 40) (hst : (s.port p).st = .admitted)
    (hbad : bad = if bits < errors * 10000 then (s.port p).badWin + 1 else 0) :
    ∃ t, exec (.berWindowEnd p errors bits uncor) s = .next t ∧ t.mem = s.mem ∧ t.cores = s.cores ∧
      (t.port p).uncor = satInc (s.port p).uncor uncor ∧
      (bad < 3 → uncor ≤ 100 → (t.port p).st = .admitted ∧ (t.port p).badWin = bad ∧ t.out = s.out) ∧
      (3 ≤ bad ∨ 100 < uncor → (t.port p).st =
        if 2 ≤ ((s.port p).resets.filter (fun x => decide (s.now < x + 600000000000))).length then .excluded else .resetting) := by
  have hexec : exec (.berWindowEnd p errors bits uncor) s = execBerWindowEnd p errors bits uncor s := rfl
  rw [hexec, execBerWindowEnd, if_neg (by rintro (h | h); omega; exact h hst)]
  dsimp only
  have hport := port_modPort s p fun k =>
    { k with
      badWin := if bits < errors * 10000 then k.badWin + 1 else 0
      uncor := satInc k.uncor uncor }
  have hrest : ∀ f : Port → Port, (modPort s p f).mem = s.mem ∧ (modPort s p f).cores = s.cores ∧ (modPort s p f).out = s.out ∧
      (modPort s p f).now = s.now := fun _ => ⟨rfl, rfl, rfl, rfl⟩
  obtain ⟨hmem, hcores, hout, hnow⟩ := hrest fun k =>
    { k with
      badWin := if bits < errors * 10000 then k.badWin + 1 else 0
      uncor := satInc k.uncor uncor }
  generalize modPort s p _ = u at hport hmem hcores hout hnow ⊢
  have hwin : (u.port p).badWin = bad := by rw [hport, hbad]
  have hunc : (u.port p).uncor = satInc (s.port p).uncor uncor := by rw [hport]
  have hust : (u.port p).st = .admitted := by rw [hport]; exact hst
  have hres : (u.port p).resets = (s.port p).resets := by rw [hport]
  rw [hwin]
  by_cases hmany : 3 ≤ bad ∨ 100 < uncor
  · obtain ⟨hstill, hu, hs⟩ := portReset_rate u p hust
    rw [hres, hnow] at hs
    rw [if_pos hmany]
    exact ⟨_, rfl, hstill.mem.trans hmem, hstill.cores.trans hcores, hu.trans hunc, fun h1 h2 => (by omega), fun _ => hs⟩
  · rw [if_neg hmany]
    exact ⟨_, rfl, hmem, hcores, hunc, fun _ _ => ⟨hust, hwin, hout⟩, fun h => absurd h hmany⟩

theorem portAlive_ne {k : Port} (h : portAlive k = true) : k.st ≠ .down := by
  rintro hd
  rw [portAlive, hd] at h
  cases h

theorem portSignalLoss_effect {s : State} {p : Nat} (hp : p < 40) : ∃ t, exec (.portSignalLoss p) s = .next t ∧ t.mem = s.mem ∧ t.cores = s.cores ∧
    (t.port p).st = (match (s.port p).st with
      | .training | .gate | .admitted | .resetting => .down
      | x => x) := by
  have hexec : exec (.portSignalLoss p) s = execPortSignalLoss p s := rfl
  rw [hexec, execPortSignalLoss, if_neg (by omega)]
  cases ha : portAlive (s.port p) with
  | true =>
    have hl := portLeave_leaves (portAlive_ne ha)
    rw [if_pos rfl]
    refine ⟨_, rfl, hl.still.mem, hl.still.cores, hl.st.trans ?_⟩
    cases hs : (s.port p).st with
    | training | gate | admitted | resetting => rfl
    | disabled | excluded | down => simp [portAlive, hs] at ha
  | false =>
    rw [if_neg Bool.false_ne_true]
    refine ⟨_, rfl, rfl, rfl, ?_⟩
    cases hs : (s.port p).st with
    | training | gate | admitted | resetting => simp [portAlive, hs] at ha
    | disabled | excluded | down => rfl

theorem retrain_effect {s : State} {p : Nat} (hp : p < 40) (hst : (s.port p).st = .down)
    (hmod : ∀ m, (s.port p).module = some m → m.present = true ∧ m.app = true ∧ m.fault = false) :
    ∃ t, exec (.portRetrainTimer p) s = .next t ∧ t.mem = s.mem ∧ t.cores = s.cores ∧ (t.port p).lsteer = 0 ∧
      (t.port p).st = (if (s.port p).en = true ∧ domOf s (108 + p / 5) = .on then .training else .disabled) := by
  have hexec : exec (.portRetrainTimer p) s = execPortRetrainTimer p s := rfl
  have hgood : moduleGood (s.port p).module = true := by
    cases hm : (s.port p).module with
    | none => rfl
    | some m =>
      rw [moduleGood]
      obtain ⟨h1, h2, h3⟩ := hmod m hm
      rw [h1, h2, h3]
      rfl
  rw [hexec, execPortRetrainTimer, if_pos ⟨hp, hst, hgood⟩, startTraining, dieOn]
  by_cases hon : (s.port p).en = true ∧ domOf s (108 + p / 5) = .on
  · have hfree : (freeSpares s p).port p = s.port p ∧ (freeSpares s p).mem = s.mem ∧ (freeSpares s p).cores = s.cores := ⟨rfl, rfl, rfl⟩
    have hl := portLeave_leaves (s := freeSpares s p) (p := p) (x := .training) (by rw [hfree.1, hst]; decide)
    rw [if_pos (by rw [hon.1, hon.2]; rfl), if_pos hon]
    exact ⟨_, rfl, hl.still.mem.trans hfree.2.1, hl.still.cores.trans hfree.2.2, hl.lsteer.trans (if_pos (.inl rfl)), hl.st⟩
  · have hl := portLeave_leaves (s := s) (p := p) (x := .disabled) (by rw [hst]; decide)
    rw [if_neg (by rw [Bool.and_eq_true, beq_iff_eq]; exact hon), if_neg hon]
    exact ⟨_, rfl, hl.still.mem, hl.still.cores, hl.lsteer.trans (if_pos (.inr rfl)), hl.st⟩

/-- R285: the module of a port as a poll reads it. -/
def moduleRead (s : State) (p : Nat) (m : Option CmisStatus) : State :=
  modPort s p (fun k =>
    { k with
      module := m
      modInit := k.modInit && m.any (fun x => x.present) })

/-- R285: the poll of one port's module. -/
def polled (l : Nat) (ms : List (Option CmisStatus)) (s : State) (i : Nat) : State :=
  let p := 5 * l + i
  let m := (ms[i]?).join
  let s := moduleRead s p m
  let s := if m.any (fun x => x.present && x.app) && !(s.port p).modInit then setUpModule s p else s
  if !moduleGood m && portAlive (s.port p) then portLeave s p .down else s

theorem exec_cmisPoll {l : Nat} (ms : List (Option CmisStatus)) (s : State) (hl : l < 8) :
    exec (.cmisPoll l ms) s = .next ((List.range 5).foldl (polled l ms) s) := by
  have hexec : exec (.cmisPoll l ms) s = execCmisPoll l ms s := rfl
  rw [hexec, execCmisPoll, if_neg (by omega)]
  rfl

theorem setUpModule_effect (s : State) (p : Nat) : Still s (setUpModule s p) ∧ (∀ q, q ≠ p → (setUpModule s p).port q = s.port q) ∧
    (setUpModule s p).port p = { s.port p with modInit := true } ∧ ∀ a, .cmis (p / 5) (p % 5) a ∈ (setUpModule s p).out := by
  have hport := port_modPort s p fun k => { k with modInit := true }
  have hothers := fun q (hq : q ≠ p) => port_modPort_ne s (fun k => { k with modInit := true }) hq
  have hstill : Still s (modPort s p fun k => { k with modInit := true }) := still_modPort s p _
  rw [setUpModule]
  generalize modPort s p (fun k => { k with modInit := true }) = u at hport hothers hstill ⊢
  simp only [List.foldl_cons, List.foldl_nil]
  refine ⟨hstill.trans ((still_emit _ _).trans ((still_emit _ _).trans ((still_emit _ _).trans (still_emit _ _)))), hothers, hport, fun a => ?_⟩
  simp only [emit, List.mem_append, List.mem_singleton]
  cases a <;> simp

/-- What the poll brings the port it polls. -/
structure Polled (p : Nat) (m : Option CmisStatus) (s t : State) : Prop where
  still : Still s t
  others : ∀ q, q ≠ p → SendPort (s.port q) (t.port q)
  module : (t.port p).module = m
  st : (t.port p).st = if moduleGood m = false ∧ portAlive (s.port p) = true then .down else (s.port p).st
  modInit : ∀ x, m = some x → x.present = true → x.app = true → (t.port p).modInit = true ∧
    ((s.port p).modInit = false → ∀ a, .cmis (p / 5) (p % 5) a ∈ t.out)

theorem polled_at (l : Nat) (ms : List (Option CmisStatus)) (s : State) (i : Nat) : Polled (5 * l + i) (ms[i]?).join s (polled l ms s i) := by
  rw [polled]
  generalize 5 * l + i = p
  generalize (ms[i]?).join = m
  have hport : (moduleRead s p m).port p = { s.port p with module := m, modInit := (s.port p).modInit && m.any (fun x => x.present) } := port_modPort s p _
  have hothers := fun q (hq : q ≠ p) => port_modPort_ne s (fun k => { k with module := m, modInit := k.modInit && m.any (fun x => x.present) }) hq
  have hstill : Still s (moduleRead s p m) := still_modPort s p _
  have hread : ∀ q, q ≠ p → (moduleRead s p m).port q = s.port q := hothers
  generalize moduleRead s p m = u at hport hstill hread ⊢
  have hset : ∃ v, (if m.any (fun x => x.present && x.app) && !(u.port p).modInit then setUpModule u p else u) = v ∧ Still s v ∧
      (∀ q, q ≠ p → v.port q = s.port q) ∧ (v.port p).module = m ∧ (v.port p).st = (s.port p).st ∧
      ∀ x, m = some x → x.present = true → x.app = true → (v.port p).modInit = true ∧
        ((s.port p).modInit = false → ∀ a, .cmis (p / 5) (p % 5) a ∈ v.out) := by
    refine ⟨_, rfl, ?_⟩
    split
    · obtain ⟨h1, h2, h3, h4⟩ := setUpModule_effect u p
      refine ⟨hstill.trans h1, fun q hq => (h2 q hq).trans (hread q hq), ?_, ?_, fun x _ _ _ => ⟨?_, fun _ => h4⟩⟩
      · rw [h3, hport]
      · rw [h3, hport]
      · rw [h3]
    · next hno =>
      refine ⟨hstill, hread, ?_, ?_, fun x hx hpres happ => ?_⟩
      · rw [hport]
      · rw [hport]
      · have hinit : (u.port p).modInit = true := by
          rw [hx, Option.any_some, hpres, happ] at hno
          simpa using hno
        refine ⟨hinit, fun h0 => ?_⟩
        rw [hport] at hinit
        dsimp only at hinit
        rw [h0] at hinit
        cases hinit
  obtain ⟨v, hv, hvs, hvo, hvm, hvst, hvi⟩ := hset
  rw [hv]
  have halive : portAlive (v.port p) = portAlive (s.port p) := by rw [portAlive, hvst, portAlive]
  rw [halive]
  by_cases hdown : moduleGood m = false ∧ portAlive (s.port p) = true
  · have hl := portLeave_leaves (s := v) (p := p) (x := .down) (portAlive_ne (halive.trans hdown.2))
    rw [if_pos (by rw [hdown.1, hdown.2]; rfl)]
    refine ⟨hvs.trans hl.still, fun q hq => ?_, ?_, ?_, fun x hx hpres happ => ?_⟩
    · rw [← hvo q hq]
      exact hl.port q hq
    · rw [hl.left]
      exact hvm
    · rw [hl.st, if_pos hdown]
    · obtain ⟨hinit, hout⟩ := hvi x hx hpres happ
      refine ⟨?_, fun h0 a => hl.still.out.subset (hout h0 a)⟩
      rw [hl.left]
      exact hinit
  · rw [if_neg (by rw [Bool.and_eq_true, Bool.not_eq_true']; exact hdown)]
    refine ⟨hvs, fun q hq => ?_, hvm, ?_, hvi⟩
    · rw [hvo q hq]
      exact .refl _
    · rw [hvst, if_neg hdown]

theorem cmisPoll_effect {s : State} {l : Nat} {ms : List (Option CmisStatus)} (hl : l < 8) : ∃ t, exec (.cmisPoll l ms) s = .next t ∧ t.mem = s.mem ∧
    t.cores = s.cores ∧ ∀ i < 5, (t.port (5 * l + i)).module = (ms[i]?).join ∧
      (t.port (5 * l + i)).st =
        (if moduleGood (ms[i]?).join = false ∧ portAlive (s.port (5 * l + i)) = true then .down
          else (s.port (5 * l + i)).st) ∧
      ∀ m, ms[i]? = some (some m) → m.present = true → m.app = true → (t.port (5 * l + i)).modInit = true ∧
        ((s.port (5 * l + i)).modInit = false → ∀ a, .cmis l i a ∈ t.out) := by
  have hall : Still s ((List.range 5).foldl (polled l ms) s) := Still.foldl (fun s i => (polled_at l ms s i).still) s _
  refine ⟨_, exec_cmisPoll ms s hl, hall.mem, hall.cores, fun i hi => ?_⟩
  obtain ⟨u, ⟨hu, hus⟩, hv, hvs⟩ := foldl_passes (step := polled l ms)
    (R := fun a b : State => Still a b ∧ SendPort (a.port (5 * l + i)) (b.port (5 * l + i)))
    (fun a => ⟨.refl a, .refl _⟩) (fun h k => ⟨h.1.trans k.1, h.2.trans k.2⟩) List.nodup_range (List.mem_range.2 hi)
    (fun a x _ hx => ⟨(polled_at l ms a x).still, (polled_at l ms a x).others _ (by omega)⟩) s
  obtain ⟨-, -, hmod, hst, hinit⟩ := polled_at l ms u i
  generalize (List.range 5).foldl (polled l ms) s = t at hv hvs ⊢
  have hust : (u.port (5 * l + i)).st = (s.port (5 * l + i)).st := by rw [hus]
  have huinit : (u.port (5 * l + i)).modInit = (s.port (5 * l + i)).modInit := by rw [hus]
  have halive : portAlive (u.port (5 * l + i)) = portAlive (s.port (5 * l + i)) := by rw [portAlive, hust, portAlive]
  refine ⟨?_, ?_, fun m hm hpres happ => ?_⟩
  · rw [hvs]
    exact hmod
  · rw [hvs]
    exact hst.trans (by rw [halive, hust])
  · obtain ⟨h1, h2⟩ := hinit m (by rw [hm]; rfl) hpres happ
    refine ⟨?_, fun h0 a => ?_⟩
    · rw [hvs]
      exact h1
    · have hmem := hv.out.subset (h2 (huinit.trans h0) a)
      have hdiv : (5 * l + i) / 5 = l := by omega
      have hmodi : (5 * l + i) % 5 = i := by omega
      rw [hdiv, hmodi] at hmem
      exact hmem

/-- Settles O40: each clause is what the lemma of its command says; what a port that falls gives back changes of the other ports only
what sending changes. -/
theorem portsTrainAndFall : Obligations.PortsTrainAndFall := by
  unfold Obligations.PortsTrainAndFall
  refine ⟨fun s p r hp hst => trainingDone_effect r hp hst, fun s p lanes hp hst hg => berGateEnd_effect hp hst hg,
    fun s p f b hp heth hst hg => ⟨train_bad f b hp heth hst hg, train_tagFails f b hp heth hst hg⟩,
    fun s p f b hp heth hst hg hcrc htag hform => ⟨train_noVersion f b hp heth hst hg hcrc htag hform,
      train_self f b hp heth hst hg hcrc htag hform, train_admits f b hp heth hst hg hcrc htag hform,
      fun hone hdev => train_unsealed f b hp heth hst hg hcrc htag hform (by omega) hdev hone⟩,
    fun s p errors bits uncor bad hp hst hbad => berWindowEnd_effect hp hst hbad,
    fun s p hp => portSignalLoss_effect hp,
    fun s p hp hst hmod => retrain_effect hp hst hmod,
    fun s l ms hl => cmisPoll_effect hl⟩

end Sys2Proof.Machine
end

section
/-!
SUPPORT. The hosts' functions and rings: what a write to one leaves of the others, and what a completion posted to a ring does
(R363 to R365).
-/

namespace Sys2Proof.Machine

/-! ### Host dies, functions and rings -/

@[simp] theorem host_modHost (s : State) (h : Nat) (g : HostDie → HostDie) : (modHost s h g).host h = g (s.host h) := mget_mset _ _ _ _

theorem host_modHost_ne (s : State) {h k : Nat} (g : HostDie → HostDie) (hk : k ≠ h) : (modHost s h g).host k = s.host k :=
  mget_mset_ne _ _ _ hk

@[simp] theorem fn_modFn (s : State) (h f : Nat) (g : HostFn → HostFn) : ((modFn s h f g).host h).fn f = g ((s.host h).fn f) := by
  rw [modFn, host_modHost]
  exact mget_mset _ _ _ _

theorem fn_modFn_ne (s : State) {h f k e : Nat} (g : HostFn → HostFn) (hk : ¬(k = h ∧ e = f)) :
    ((modFn s h f g).host k).fn e = ((s.host k).fn e) := by
  rw [modFn]
  by_cases hh : k = h
  · subst hh
    rw [host_modHost]
    exact mget_mset_ne _ _ _ fun he => hk ⟨rfl, he⟩
  · rw [host_modHost_ne s _ hh]

theorem up_modFn (s : State) (h f k : Nat) (g : HostFn → HostFn) : ((modFn s h f g).host k).up = (s.host k).up := by
  by_cases hh : k = h
  · rw [hh, modFn, host_modHost]
  · rw [modFn, host_modHost_ne s _ hh]

theorem fn_of_hosts {s t : State} (h : t.hosts = s.hosts) (k : Nat) : t.host k = s.host k := by
  rw [State.host, h, State.host]

@[simp] theorem ringOf_modRing (s : State) (h f r : Nat) (g : Ring → Ring) : ringOf (modRing s h f r g) h f r = g (ringOf s h f r) := by
  rw [ringOf, modRing, fn_modFn]
  exact mget_mset _ _ _ _

theorem ringOf_modRing_ne (s : State) {h f r k e q : Nat} (g : Ring → Ring) (hk : ¬(k = h ∧ e = f ∧ q = r)) :
    ringOf (modRing s h f r g) k e q = ringOf s k e q := by
  rw [ringOf, modRing]
  by_cases hf : k = h ∧ e = f
  · obtain ⟨rfl, rfl⟩ := hf
    rw [fn_modFn]
    exact mget_mset_ne _ _ _ fun hq => hk ⟨rfl, rfl, hq⟩
  · rw [fn_modFn_ne s _ hf]
    rfl

theorem masked_modRing (s : State) (h f r k e v : Nat) (g : Ring → Ring) :
    (((modRing s h f r g).host k).fn e).masked v = ((s.host k).fn e).masked v := by
  rw [modRing]
  by_cases hf : k = h ∧ e = f
  · obtain ⟨rfl, rfl⟩ := hf
    rw [fn_modFn]
    rfl
  · rw [fn_modFn_ne s _ hf]

/-- A function differs in what is no ring of it. -/
theorem ringOf_modFn (s : State) {h f k e r : Nat} {g : HostFn → HostFn} (hg : ∀ k, (g k).rings = k.rings) :
    ringOf (modFn s h f g) k e r = ringOf s k e r := by
  by_cases hf : k = h ∧ e = f
  · obtain ⟨rfl, rfl⟩ := hf
    rw [ringOf, fn_modFn, HostFn.ring, hg]
    rfl
  · rw [ringOf, fn_modFn_ne s _ hf]
    rfl

/-! ### Vectors (R365) -/

theorem sendVector_out (s : State) (h f v : Nat) :
    (sendVector s h f v).out = s.out ++ if ((s.host h).fn f).masked v then [] else [.msix h f v] := by
  rw [sendVector]
  split
  · exact (List.append_nil _).symm
  · rfl

theorem ringOf_sendVector (s : State) (h f v k e r : Nat) : ringOf (sendVector s h f v) k e r = ringOf s k e r := by
  rw [sendVector]
  split
  · exact ringOf_modFn s fun _ => rfl
  · rfl

theorem drop_sendVector (s : State) (h f v : Nat) : (((sendVector s h f v).host h).fn f).drop = ((s.host h).fn f).drop := by
  rw [sendVector]
  split
  · rw [fn_modFn]
  · rfl

/-- Of `s`, `t` changes the hosts and what they are told, at most. -/
def HostOnly (s t : State) : Prop := t = { s with hosts := t.hosts, out := t.out }

theorem HostOnly.refl (s : State) : HostOnly s s := rfl

theorem HostOnly.trans {s t u : State} (h : HostOnly s t) (k : HostOnly t u) : HostOnly s u := by
  rw [HostOnly] at h k ⊢
  rw [k, h]

theorem hostOnly_modFn (s : State) (h f : Nat) (g : HostFn → HostFn) : HostOnly s (modFn s h f g) := rfl

theorem hostOnly_modRing (s : State) (h f r : Nat) (g : Ring → Ring) : HostOnly s (modRing s h f r g) := rfl

theorem hostOnly_countDrop (s : State) (h f : Nat) : HostOnly s (countDrop s h f) := rfl

theorem hostOnly_sendVector (s : State) (h f v : Nat) : HostOnly s (sendVector s h f v) := by
  rw [sendVector]
  split <;> rfl

theorem hostOnly_coalesce (s : State) (h f r : Nat) : HostOnly s (coalesce s h f r) := by
  rw [coalesce]
  split
  · exact (hostOnly_modRing s h f r _).trans (hostOnly_sendVector _ h f r)
  · exact .refl s

theorem hostOnly_functionEvent (s : State) (h f : Nat) : HostOnly s (functionEvent s h f) := by
  rw [functionEvent]
  split
  · exact hostOnly_sendVector s h f 4
  · exact .refl s

theorem hostOnly_stopRing (s : State) (h f r cause : Nat) : HostOnly s (stopRing s h f r cause) :=
  (hostOnly_modRing s h f r _).trans (hostOnly_functionEvent _ h f)

theorem hostOnly_post (s : State) (h f r seq lid status ndone fcore fcode : Nat) :
    HostOnly s (post s h f r seq lid status ndone fcore fcode) := by
  rw [post]
  dsimp only
  split
  · rfl
  · exact HostOnly.trans (t := modRing (emit s _) h f r _) rfl (hostOnly_coalesce _ h f r)

section

variable {s t : State} (h : HostOnly s t)

include h

theorem HostOnly.mem : t.mem = s.mem := by rw [h]
theorem HostOnly.cores : t.cores = s.cores := by rw [h]
theorem HostOnly.launches : t.launches = s.launches := by rw [h]
theorem HostOnly.sends : t.sends = s.sends := by rw [h]
theorem HostOnly.reports : t.reports = s.reports := by rw [h]

end

/-! ### Completions (R363 to R365) -/

/-- A ring as a completion that its record has fetched leaves it. -/
def postedRing (g : Ring) : Ring :=
  { g with
    out := g.out - 1
    used := g.used + 1
    unsig := g.unsig + 1
    cqtail := (g.cqtail + 1) % g.size
    phase := if g.cqtail + 1 = g.size then !g.phase else g.phase }

theorem coalesce_effect (s : State) (h f r : Nat) :
    (coalesce s h f r).out = s.out ++ (if ((ringOf s h f r).coalTime = 0 ∨ (ringOf s h f r).coalCount ≤ (ringOf s h f r).unsig) ∧
      ((s.host h).fn f).masked r = false then [.msix h f r] else []) ∧
    ∃ n, ringOf (coalesce s h f r) h f r = { ringOf s h f r with unsig := n } := by
  have hring : ((s.host h).fn f).ring r = ringOf s h f r := rfl
  rw [coalesce, hring]
  dsimp only
  split
  · next hc =>
    refine ⟨?_, 0, ?_⟩
    · rw [sendVector_out, masked_modRing]
      cases hm : ((s.host h).fn f).masked r
      · rw [if_neg Bool.false_ne_true, if_pos ⟨hc, rfl⟩]
        rfl
      · rw [if_pos rfl, if_neg fun hx : _ ∧ true = false => Bool.noConfusion hx.2]
        rfl
    · rw [ringOf_sendVector, ringOf_modRing]
  · next hc =>
    refine ⟨?_, (ringOf s h f r).unsig, rfl⟩
    rw [if_neg fun hx => hc hx.1]
    exact (List.append_nil _).symm

theorem post_posts {s : State} {h f r : Nat} (hup : (s.host h).up = true) (herr : (ringOf s h f r).err = false)
    (seq lid status ndone fcore fcode : Nat) :
    Posts s (post s h f r seq lid status ndone fcore fcode) h f r seq lid status ndone fcore fcode ∧
      ∃ n, ringOf (post s h f r seq lid status ndone fcore fcode) h f r = { postedRing (ringOf s h f r) with unsig := n } := by
  have hring : ((s.host h).fn f).ring r = ringOf s h f r := rfl
  have hcond : (!(s.host h).up || ((ringOf s h f r).err && (ringOf s h f r).cause == 3)) = false := by
    rw [hup, herr]
    rfl
  have hpost : post s h f r seq lid status ndone fcore fcode =
      coalesce (modRing (emit s (.hostWrite h f ((ringOf s h f r).cqhi * 2 ^ 32 + (ringOf s h f r).cqlo * 2 ^ 12 + (ringOf s h f r).cqtail * 32)
        (completionBytes status (ringOf s h f r).phase r seq lid ndone fcore fcode (edgeEcho s (24 + h))))) h f r postedRing) h f r := by
    rw [post, hring]
    dsimp only
    rw [hcond]
    rfl
  obtain ⟨hout, n, hn⟩ := coalesce_effect (modRing (emit s (.hostWrite h f ((ringOf s h f r).cqhi * 2 ^ 32 + (ringOf s h f r).cqlo * 2 ^ 12 +
    (ringOf s h f r).cqtail * 32) (completionBytes status (ringOf s h f r).phase r seq lid ndone fcore fcode (edgeEcho s (24 + h))))) h f r
    postedRing) h f r
  have hmod : ∀ o, ringOf (modRing (emit s o) h f r postedRing) h f r = postedRing (ringOf s h f r) := fun o => ringOf_modRing (emit s o) h f r _
  have hmask : ∀ o, (((modRing (emit s o) h f r postedRing).host h).fn f).masked r = ((s.host h).fn f).masked r := fun o =>
    masked_modRing (emit s o) h f r h f r _
  rw [hmod, hmask] at hout
  rw [hmod] at hn
  rw [hpost]
  refine ⟨?_, n, hn⟩
  rintro g rfl
  refine ⟨hout, ?_, ?_⟩
  · rw [hn]
    rfl
  · rw [hn]
    rfl

/-- What a completion shows of the state before it. -/
theorem Posts.of_ring {s u t : State} {h f r seq lid status ndone fcore fcode : Nat} (hp : Posts u t h f r seq lid status ndone fcore fcode)
    {n m : Nat} (hring : ringOf u h f r = { ringOf s h f r with sqhead := n, out := m }) (hout : u.out = s.out)
    (hecho : edgeEcho u (24 + h) = edgeEcho s (24 + h)) (hmask : ((u.host h).fn f).masked r = ((s.host h).fn f).masked r) :
    Posts s t h f r seq lid status ndone fcore fcode := by
  rintro g rfl
  have hx := hp _ rfl
  rw [hring, hout, hecho, hmask] at hx
  exact hx

theorem Posts.of_after {s u t : State} {h f r seq lid status ndone fcore fcode : Nat} (hp : Posts s u h f r seq lid status ndone fcore fcode)
    (hout : t.out = u.out) (hhosts : t.hosts = u.hosts) : Posts s t h f r seq lid status ndone fcore fcode := by
  intro g hg
  rw [hout, ringOf, fn_of_hosts hhosts]
  exact hp g hg

end Sys2Proof.Machine
end

section
/-!
SUPPORT. Launches in flight and what ends them (R360 to R363, R369), and the sessions of a mailbox (R487).
-/

namespace Sys2Proof.Machine

/-! ### The path of a function -/

theorem settle_of_none {s : State} {h f r : Nat}
    (hn : s.launches.find? (fun l => l.h == h && l.f == f && l.r == r && l.fence && !l.posted && earlierDone s l) = none) (fuel : Nat) :
    settle fuel s h f r = s := by
  cases fuel with
  | zero => rfl
  | succ fuel => rw [settle, hn]

theorem settle_of_noFence {s : State} (hn : ∀ l ∈ s.launches, l.fence = false) (fuel h f r : Nat) : settle fuel s h f r = s := by
  refine settle_of_none (List.find?_eq_none.2 fun l hl => ?_) fuel
  rw [hn l hl]
  simp

theorem afterPost_idle {s : State} (hl : s.launches = []) (h f r : Nat) : afterPost s h f r = s := by
  rw [afterPost, settle_of_noFence (by rw [hl]; exact nofun), launchPump]
  split
  · rfl
  · rw [nextToSend, hl]
    rfl

/-- A message to one core of the device goes on its way, and nothing else shows. -/
theorem startSend_local {x : Send} {c q : Nat} (hx : x.members = [⟨.local_ c q, .sent⟩]) (s : State) (h f : Nat) :
    startSend s (.fn h f) x = { s with sends := s.sends ++ [⟨.fn h f, x⟩] } := by
  rw [startSend, hx]
  rfl

/-- Of `s`, `t` changes which launch sends its message, and the message on its way, at most. -/
def PumpOnly (s t : State) : Prop := t = { s with launches := t.launches, sends := t.sends }

theorem pumpOnly_launchPump (s : State) (h f : Nat) : PumpOnly s (launchPump s h f) := by
  rw [launchPump]
  split
  · rfl
  · split
    · rfl
    · rw [startSend_local rfl]
      rfl

/-! ### Launches that end -/

/-- Every launch of `t` was one of `s`: its order, kind, function and partition. -/
def Shrinks (s t : State) : Prop :=
  ∀ l ∈ t.launches, ∃ m ∈ s.launches, l.order = m.order ∧ l.fence = m.fence ∧ l.h = m.h ∧ l.f = m.f ∧ l.part = m.part

theorem Shrinks.refl (s : State) : Shrinks s s := fun l hl => ⟨l, hl, rfl, rfl, rfl, rfl, rfl⟩

theorem Shrinks.trans {s t u : State} (h : Shrinks s t) (k : Shrinks t u) : Shrinks s u := fun l hl => by
  obtain ⟨m, hm, ho, hf, hh, hfn, hp⟩ := k l hl
  obtain ⟨n, hn, ho', hf', hh', hfn', hp'⟩ := h m hm
  exact ⟨n, hn, ho.trans ho', hf.trans hf', hh.trans hh', hfn.trans hfn', hp.trans hp'⟩

theorem Shrinks.of_sub {s t : State} (h : ∀ l ∈ t.launches, l ∈ s.launches) : Shrinks s t := fun _ hl => ⟨_, h _ hl, rfl, rfl, rfl, rfl, rfl⟩

theorem Shrinks.of_eq {s t : State} (h : t.launches = s.launches) : Shrinks s t := .of_sub fun _ hl => h ▸ hl

theorem Shrinks.foldl {α : Type} {step : State → α → State} (h : ∀ s a, Shrinks s (step s a)) (s : State) (l : List α) :
    Shrinks s (l.foldl step s) :=
  List.foldlRecOn (motive := fun t => Shrinks s t) l step (.refl s) fun t ht a _ => ht.trans (h t a)

theorem shrinks_setLaunch {s : State} {l m : Launch} (hm : m ∈ s.launches) (hl : l.order = m.order ∧ l.fence = m.fence ∧ l.h = m.h ∧ l.f = m.f ∧ l.part = m.part) :
    Shrinks s (setLaunch s l) := fun x hx => by
  obtain ⟨y, hy, rfl⟩ := List.mem_map.1 hx
  split
  · exact ⟨m, hm, hl⟩
  · exact ⟨y, hy, rfl, rfl, rfl, rfl, rfl⟩

theorem shrinks_launchPump (s : State) (h f : Nat) : Shrinks s (launchPump s h f) := by
  rw [launchPump]
  split
  · exact .refl s
  · split
    · exact .refl s
    · next l hl =>
      rw [startSend_local rfl]
      have hset : Shrinks s (setLaunch s { l with sending := true }) := shrinks_setLaunch (List.mem_of_find?_eq_some hl) ⟨rfl, rfl, rfl, rfl, rfl⟩
      exact hset

theorem shrinks_post (s : State) (h f r seq lid status ndone fcore fcode : Nat) :
    Shrinks s (post s h f r seq lid status ndone fcore fcode) :=
  .of_eq (hostOnly_post s h f r seq lid status ndone fcore fcode).launches

theorem shrinks_settle (fuel : Nat) (s : State) (h f r : Nat) : Shrinks s (settle fuel s h f r) := by
  induction fuel generalizing s with
  | zero => exact .refl s
  | succ fuel ih =>
    rw [settle]
    split
    · next l _ =>
      refine (shrinks_post s h f r l.seq l.lid 0 0 0x7FF 0).trans (Shrinks.trans ?_ (ih _))
      exact .of_sub fun x hx => (List.mem_filter.1 hx).1
    · exact .refl s

theorem shrinks_afterPost (s : State) (h f r : Nat) : Shrinks s (afterPost s h f r) :=
  (shrinks_settle 256 s h f r).trans (shrinks_launchPump _ h f)

/-- A launch that ends, before its ring goes on. -/
def endedLaunch (s : State) (l : Launch) : State :=
  let s := if s.launches.any (fun x => x.order == l.order && x.sending) then dropSend s (.fn l.h l.f) else s
  let s := { s with launches := s.launches.filter (fun x => x.order != l.order) }
  if l.posted || l.fence then s else post s l.h l.f l.r l.seq l.lid 5 l.ended.length 0x7FF 0

theorem endLaunch_eq (s : State) (l : Launch) : endLaunch s l = afterPost (endedLaunch s l) l.h l.f l.r := rfl

theorem launches_endedLaunch (s : State) (l : Launch) : (endedLaunch s l).launches = s.launches.filter (fun x => x.order != l.order) := by
  rw [endedLaunch]
  split
  · split <;> rfl
  · rw [(hostOnly_post _ _ _ _ _ _ _ _ _ _).launches]
    split <;> rfl

theorem shrinks_endLaunch (s : State) (l : Launch) : Shrinks s (endLaunch s l) := by
  rw [endLaunch_eq]
  refine Shrinks.trans (.of_sub fun x hx => ?_) (shrinks_afterPost _ _ _ _)
  rw [launches_endedLaunch] at hx
  exact (List.mem_filter.1 hx).1

theorem gone_endLaunch (s : State) (l : Launch) : ∀ x ∈ (endLaunch s l).launches, x.order ≠ l.order := fun x hx => by
  rw [endLaunch_eq] at hx
  obtain ⟨m, hm, ho, -⟩ := shrinks_afterPost _ _ _ _ x hx
  rw [launches_endedLaunch, List.mem_filter, bne_iff_ne] at hm
  rw [ho]
  exact hm.2

theorem shrinks_endLaunches (s : State) (p : Nat → Bool) : Shrinks s (endLaunches s p) :=
  Shrinks.trans (.of_eq rfl) (Shrinks.foldl shrinks_endLaunch _ _)

/-- Every launch of a partition that `p` holds of ends but the fences, which have no target. -/
theorem endLaunches_ends (s : State) (p : Nat → Bool) : ∀ x ∈ (endLaunches s p).launches, x.fence = true ∨ p x.part = false := fun x hx => by
  obtain ⟨m, hm, ho, hf, -, -, hpart⟩ := shrinks_endLaunches s p x hx
  by_contra hx'
  rw [not_or, Bool.not_eq_true, Bool.not_eq_false] at hx'
  obtain ⟨hfence, hp⟩ := hx'
  have hmem : m ∈ s.launches.filter (fun l => p l.part && !l.fence) :=
    List.mem_filter.2 ⟨hm, by rw [← hf, ← hpart, hfence, hp]; rfl⟩
  obtain ⟨u, -, hu⟩ := foldl_through (R := Shrinks) .refl .trans (fun u l => shrinks_endLaunch u l) hmem
    { s with reports := s.reports.filter (fun r => !(s.launches.filter (fun l => p l.part && !l.fence)).any
      (fun l => r.src == l.r + 4 * l.h + 8 * l.f && r.seq == l.seq)) }
  obtain ⟨n, hn, hno, -⟩ := hu x hx
  exact gone_endLaunch u m n hn (hno ▸ ho)

theorem endLaunches_all (s : State) : ∀ x ∈ (endLaunches s fun _ => true).launches, x.fence = true := fun x hx =>
  (endLaunches_ends s (fun _ => true) x hx).resolve_right nofun

/-! ### Launches that end without a completion (R369) -/

/-- A launch leaves with its reports and its message. -/
def droppedLaunch (s : State) (l : Launch) : State :=
  let s := { s with
              launches := s.launches.filter (fun x => x.order != l.order)
              reports := s.reports.filter (fun r => !(r.src == l.r + 4 * l.h + 8 * l.f && r.seq == l.seq)) }
  if l.sending then dropSend s (.fn l.h l.f) else s

theorem dropLaunches_eq (s : State) (h : Nat) (p : Nat → Bool) :
    dropLaunches s h p = (s.launches.filter (fun l => l.h == h && p l.f)).foldl droppedLaunch s := rfl

theorem launches_droppedLaunch (s : State) (l : Launch) : (droppedLaunch s l).launches = s.launches.filter (fun x => x.order != l.order) := by
  rw [droppedLaunch]
  split <;> rfl

theorem shrinks_droppedLaunch (s : State) (l : Launch) : Shrinks s (droppedLaunch s l) := .of_sub fun x hx => by
  rw [launches_droppedLaunch] at hx
  exact (List.mem_filter.1 hx).1

theorem shrinks_dropLaunches (s : State) (h : Nat) (p : Nat → Bool) : Shrinks s (dropLaunches s h p) :=
  Shrinks.foldl shrinks_droppedLaunch s _

theorem dropLaunches_gone (s : State) (h : Nat) (p : Nat → Bool) : ∀ x ∈ (dropLaunches s h p).launches, ¬(x.h = h ∧ p x.f = true) := by
  intro x hx
  rintro ⟨hh, hp⟩
  obtain ⟨m, hm, ho, -, hmh, hmf, -⟩ := shrinks_dropLaunches s h p x hx
  have hmem : m ∈ s.launches.filter (fun l => l.h == h && p l.f) := by
    rw [List.mem_filter, ← hmh, ← hmf, hh, hp]
    exact ⟨hm, by simp⟩
  obtain ⟨u, -, hu⟩ := foldl_through (R := Shrinks) .refl .trans shrinks_droppedLaunch hmem s
  obtain ⟨n, hn, hno, -⟩ := hu x hx
  rw [launches_droppedLaunch, List.mem_filter, bne_iff_ne] at hn
  exact hn.2 (hno ▸ ho)

/-- Of `s`, `t` changes the launches, their reports and their messages, at most. -/
def DropOnly (s t : State) : Prop := t = { s with launches := t.launches, sends := t.sends, reports := t.reports }

theorem dropOnly_dropLaunches (s : State) (h : Nat) (p : Nat → Bool) : DropOnly s (dropLaunches s h p) := by
  refine List.foldlRecOn (motive := fun t => DropOnly s t) _ _ rfl fun t ht l _ => ?_
  have hstep : DropOnly t (droppedLaunch t l) := by
    rw [droppedLaunch]
    split <;> rfl
  change DropOnly s (droppedLaunch t l)
  generalize droppedLaunch t l = u at hstep ⊢
  rw [DropOnly] at ht hstep ⊢
  rw [hstep, ht]

/-! ### What the completions of other functions leave alone -/

theorem fn_sendVector_ne (s : State) {h f k e : Nat} (v : Nat) (hk : ¬(k = h ∧ e = f)) :
    ((sendVector s h f v).host k).fn e = (s.host k).fn e := by
  rw [sendVector]
  split
  · exact fn_modFn_ne s _ hk
  · rfl

theorem fn_post_ne (s : State) {h f k e : Nat} (hk : ¬(k = h ∧ e = f)) (r seq lid status ndone fcore fcode : Nat) :
    ((post s h f r seq lid status ndone fcore fcode).host k).fn e = (s.host k).fn e := by
  have hring : ∀ (u : State) (g : Ring → Ring), ((modRing u h f r g).host k).fn e = (u.host k).fn e := fun u _ => fn_modFn_ne u _ hk
  rw [post]
  dsimp only
  split
  · rw [countDrop, fn_modFn_ne _ _ hk, hring]
  · rw [coalesce]
    split
    · rw [fn_sendVector_ne _ r hk, hring, hring]
      rfl
    · rw [hring]
      rfl

theorem fn_settle_ne (fuel : Nat) (s : State) {h f k e : Nat} (hk : ¬(k = h ∧ e = f)) (r : Nat) :
    ((settle fuel s h f r).host k).fn e = (s.host k).fn e := by
  induction fuel generalizing s with
  | zero => rfl
  | succ fuel ih =>
    rw [settle]
    split
    · exact (ih _).trans (fn_post_ne s hk _ _ _ _ _ _ _)
    · rfl

theorem hosts_launchPump (s : State) (h f : Nat) : (launchPump s h f).hosts = s.hosts := by
  rw [pumpOnly_launchPump s h f]

theorem fn_afterPost_ne (s : State) {h f k e : Nat} (hk : ¬(k = h ∧ e = f)) (r : Nat) :
    ((afterPost s h f r).host k).fn e = (s.host k).fn e := by
  rw [afterPost, fn_of_hosts (hosts_launchPump _ h f)]
  exact fn_settle_ne 256 s hk r

theorem hosts_unsent (s : State) (l : Launch) (b : Bool) (p : Launch → Bool) (k : Nat) :
    ({ (if b then dropSend s (.fn l.h l.f) else s) with launches := (if b then dropSend s (.fn l.h l.f) else s).launches.filter p } : State).host k
      = s.host k := by
  split <;> rfl

theorem fn_endLaunch_ne (s : State) {l : Launch} {k e : Nat} (hk : ¬(k = l.h ∧ e = l.f)) :
    ((endLaunch s l).host k).fn e = (s.host k).fn e := by
  rw [endLaunch_eq, fn_afterPost_ne _ hk, endedLaunch]
  split
  · rw [hosts_unsent]
  · rw [fn_post_ne _ hk, hosts_unsent]

theorem fn_endLaunches_ne {s : State} {k e : Nat} (hk : ∀ l ∈ s.launches, ¬(l.h = k ∧ l.f = e)) (p : Nat → Bool) :
    ((endLaunches s p).host k).fn e = (s.host k).fn e := by
  refine List.foldlRecOn (motive := fun t : State => (t.host k).fn e = (s.host k).fn e) _ _ rfl fun t ht l hl => ?_
  have hkl := hk l (List.mem_filter.1 hl).1
  exact (fn_endLaunch_ne t fun h => hkl ⟨h.1.symm, h.2.symm⟩).trans ht

/-! ### Rings that stay enabled or not -/

theorem en_sendVector (s : State) (h f v k e q : Nat) : (ringOf (sendVector s h f v) k e q).en = (ringOf s k e q).en := by
  rw [ringOf_sendVector]

theorem en_modRing (s : State) (h f r k e q : Nat) {g : Ring → Ring} (hg : ∀ x, (g x).en = x.en) :
    (ringOf (modRing s h f r g) k e q).en = (ringOf s k e q).en := by
  by_cases hk : k = h ∧ e = f ∧ q = r
  · obtain ⟨rfl, rfl, rfl⟩ := hk
    rw [ringOf_modRing, hg]
  · rw [ringOf_modRing_ne s _ hk]

theorem en_post (s : State) (h f r seq lid status ndone fcore fcode k e q : Nat) :
    (ringOf (post s h f r seq lid status ndone fcore fcode) k e q).en = (ringOf s k e q).en := by
  rw [post]
  dsimp only
  split
  · rw [countDrop, ringOf_modFn, en_modRing]
    · exact fun _ => rfl
    · exact fun _ => rfl
  · rw [coalesce]
    split
    · rw [en_sendVector, en_modRing, en_modRing]
      · rfl
      · exact fun _ => rfl
      · exact fun _ => rfl
    · rw [en_modRing]
      · rfl
      · exact fun _ => rfl

theorem en_settle (fuel : Nat) (s : State) (h f r k e q : Nat) : (ringOf (settle fuel s h f r) k e q).en = (ringOf s k e q).en := by
  induction fuel generalizing s with
  | zero => rfl
  | succ fuel ih =>
    rw [settle]
    split
    · exact (ih _).trans (en_post s _ _ _ _ _ _ _ _ _ _ _ _)
    · rfl

theorem ringOf_of_hosts {s t : State} (h : t.hosts = s.hosts) (k e q : Nat) : ringOf t k e q = ringOf s k e q := by
  rw [ringOf, fn_of_hosts h, ringOf]

theorem en_afterPost (s : State) (h f r k e q : Nat) : (ringOf (afterPost s h f r) k e q).en = (ringOf s k e q).en := by
  rw [afterPost, ringOf_of_hosts (hosts_launchPump _ h f)]
  exact en_settle 256 s h f r k e q

theorem en_endLaunch (s : State) (l : Launch) (k e q : Nat) : (ringOf (endLaunch s l) k e q).en = (ringOf s k e q).en := by
  rw [endLaunch_eq, en_afterPost, endedLaunch]
  split
  · rw [ringOf, hosts_unsent, ringOf]
  · rw [en_post, ringOf, hosts_unsent, ringOf]

theorem en_endLaunches (s : State) (p : Nat → Bool) (k e q : Nat) : (ringOf (endLaunches s p) k e q).en = (ringOf s k e q).en :=
  List.foldlRecOn (motive := fun t : State => (ringOf t k e q).en = (ringOf s k e q).en) _ _ rfl fun t ht l _ =>
    (en_endLaunch t l k e q).trans ht

/-! ### The sessions of a mailbox (R487, R492) -/

/-- Of `s`, `t` changes what the end of sessions changes, at most. -/
def Closes (s t : State) : Prop :=
  t = { s with
    sessions := t.sessions
    fw := t.fw
    mgmt := t.mgmt
    wake := { s.wake with asyncs := t.wake.asyncs, kept := t.wake.kept, lost := t.wake.lost }
    lastSeq := t.lastSeq
    logBuf := t.logBuf
    totals := t.totals
    totalsCold := t.totalsCold
    coals := t.coals }

theorem Closes.refl (s : State) : Closes s s := rfl

theorem Closes.trans {s t u : State} (h : Closes s t) (k : Closes t u) : Closes s u := by
  rw [Closes] at h k ⊢
  rw [k, h]

theorem Closes.foldl {α : Type} {step : State → α → State} (h : ∀ s a, Closes s (step s a)) (s : State) (l : List α) :
    Closes s (l.foldl step s) :=
  List.foldlRecOn (motive := fun t => Closes s t) l step (.refl s) fun t ht a _ => ht.trans (h t a)

theorem Logged.closes {s t : State} (h : Logged s t) : Closes s t := by
  rw [Closes, h]

theorem logged_sessionEvent (s : State) (e : Session) (why : CloseCause) : Logged s (sessionEvent s e why) := by
  rw [sessionEvent]
  exact logged_raiseRec s _ _ _ _ _ _ _

theorem closes_dropImage (s : State) (e : Session) : Closes s (dropImage s e) := by
  rw [dropImage]
  split
  · rfl
  · split <;> rfl

theorem closes_closeSession (s : State) (sid : Nat) (why : CloseCause) : Closes s (closeSession s sid why) := by
  rw [closeSession]
  split
  · exact .refl s
  · next e _ =>
    have hi := closes_dropImage { s with sessions := mdel s.sessions sid } e
    have hs : Closes s { s with sessions := mdel s.sessions sid } := rfl
    have hu : Closes s (if e.staging.isSome = true then dropImage { s with sessions := mdel s.sessions sid } e else { s with sessions := mdel s.sessions sid }) := by
      split
      · exact hs.trans hi
      · exact hs
    dsimp only
    generalize (if e.staging.isSome = true then dropImage { s with sessions := mdel s.sessions sid } e else { s with sessions := mdel s.sessions sid }) = u at hu ⊢
    refine hu.trans (Closes.trans (t := modWake u fun w => { w with asyncs := w.asyncs.filter (fun a => a.sid != sid) }) rfl ?_)
    exact (logged_sessionEvent _ e why).closes

theorem closes_closeMailbox (s : State) (h f : Nat) : Closes s (closeMailbox s h f) :=
  Closes.trans (Closes.foldl (fun s (x : Nat × Session) => closes_closeSession s x.1 .flr) s _) rfl

section

variable {s t : State} (h : Closes s t)

include h

theorem Closes.mem : t.mem = s.mem := by rw [h]
theorem Closes.hosts : t.hosts = s.hosts := by rw [h]
theorem Closes.launches : t.launches = s.launches := by rw [h]
theorem Closes.dev : t.dev = s.dev := by rw [h]
theorem Closes.groups : t.groups = s.groups := by rw [h]
theorem Closes.cfg : t.cfg = s.cfg := by rw [h]
theorem Closes.parts : t.parts = s.parts := by rw [h]

end

end Sys2Proof.Machine
end

section
/-!
SUPPORT. HBM accesses that nothing disturbs: what they read, what they write, and what they leave alone (R332 to R336, R345).
-/

namespace Sys2Proof.Machine

/-! ### Where a byte of HBM lies (R325, R326) -/

/-- The key of a byte of HBM in memory. -/
def hbmPos (s : State) (a : Nat) : Nat := hbmKey (hbmLoc s a).1 (hbmLoc s a).2

theorem hbmByte_eq (s : State) (a : Nat) : hbmByte s a = memGet s.mem (hbmPos s a) := rfl

theorem hbmLoc_snd (s : State) (a : Nat) : (hbmLoc s a).2 = (a - hbmBase) % stackSize := by
  unfold hbmLoc
  extract_lets x st o
  split <;> rfl

theorem hbmLoc_snd_word (s : State) {w : Nat} (hw : 64 ∣ w) : (hbmLoc s w).2 / 64 * 64 = (hbmLoc s w).2 := by
  rw [hbmLoc_snd, hbmBase, stackSize]
  omega

theorem xor_right_injective {a b c : Nat} (h : a ^^^ c = b ^^^ c) : a = b := by
  have hc := congrArg (· ^^^ c) h
  simpa only [Nat.xor_assoc, Nat.xor_self, Nat.xor_zero] using hc

theorem hbmPos_injective (s : State) {a b : Nat} (ha : hbmBase ≤ a) (hb : hbmBase ≤ b) (h : hbmPos s a = hbmPos s b) : a = b := by
  have h2 : (hbmLoc s a).2 = (hbmLoc s b).2 ∧ (hbmLoc s a).1 = (hbmLoc s b).1 := by
    have hla : (hbmLoc s a).2 < stackSize := by
      rw [hbmLoc_snd]
      exact Nat.mod_lt _ (by decide)
    have hlb : (hbmLoc s b).2 < stackSize := by
      rw [hbmLoc_snd]
      exact Nat.mod_lt _ (by decide)
    rw [hbmPos, hbmPos, hbmKey, hbmKey] at h
    rw [stackSize] at hla hlb h
    omega
  obtain ⟨ho, hst⟩ := h2
  rw [hbmLoc_snd, hbmLoc_snd] at ho
  have hfst : (a - hbmBase) / stackSize = (b - hbmBase) / stackSize := by
    unfold hbmLoc at hst
    dsimp only at hst
    rw [ho] at hst
    split at hst
    · exact xor_right_injective hst
    · exact hst
  have hab : a - hbmBase = b - hbmBase := by
    rw [← Nat.div_add_mod (a - hbmBase) stackSize, ← Nat.div_add_mod (b - hbmBase) stackSize, hfst, ho]
  omega

theorem dvd_of_mem_words64 {a n w : Nat} (h : w ∈ words64 a n) : 64 ∣ w := by
  rw [words64] at h
  split at h
  · cases h
  · obtain ⟨i, -, rfl⟩ := List.mem_map.1 h
    exact Dvd.intro_left _ rfl

theorem mem_words64 {a n w : Nat} (hn : 0 < n) : w ∈ words64 a n ↔ 64 ∣ w ∧ w < a + n ∧ a < w + 64 := by
  rw [words64, if_neg (by omega), List.mem_map]
  constructor
  · rintro ⟨i, hi, rfl⟩
    rw [List.mem_range] at hi
    refine ⟨Dvd.intro_left _ rfl, ?_, ?_⟩ <;> omega
  · rintro ⟨⟨k, rfl⟩, h1, h2⟩
    refine ⟨k - a / 64, ?_, ?_⟩
    · rw [List.mem_range]
      omega
    · omega

theorem words64_nodup (a n : Nat) : (words64 a n).Nodup := by
  rw [words64]
  split
  · exact List.nodup_nil
  · refine List.nodup_range.map fun i j hij => ?_
    have hij' : (a / 64 + i) * 64 = (a / 64 + j) * 64 := hij
    omega

/-- Whether no error is marked in the word of HBM at `w`. -/
def wordSound (s : State) (w : Nat) : Prop := mfind s.marks (hbmPos s w) = none

theorem touchHbm_sound {s : State} {w : Nat} (hd : 64 ∣ w) (h : wordSound s w) (src : Nat) :
    touchHbm s (hbmLoc s w).1 (hbmLoc s w).2 src = (s, false) := by
  unfold touchHbm
  extract_lets v key owner
  have hv : key = hbmPos s w := by
    change hbmKey _ ((hbmLoc s w).2 / 64 * 64) = _
    rw [hbmLoc_snd_word s hd]
    rfl
  rw [hv, show mfind s.marks (hbmPos s w) = none from h]

/-! ### Reads (R332, R334) -/

theorem hbmRead_sound {s : State} {a n : Nat} (h : HbmSound s a n) :
    hbmRead s a n = (s, (List.range n).map (fun i => hbmByte s (a + i)), []) := by
  have hfold : (words64 a n).foldl (fun (acc : State × List Nat) w =>
      let l := hbmLoc acc.1 w
      let (s, b) := touchHbm acc.1 l.1 l.2 0
      (s, if b then acc.2 ++ [w] else acc.2)) (s, []) = (s, []) :=
    foldl_stays fun w hw => by
      dsimp only
      rw [touchHbm_sound (dvd_of_mem_words64 hw) (h w hw)]
      rfl
  rw [hbmRead]
  simp only [hfold]
  simp

/-- Of `s`, `t` changes the stacks and what is counted at shared blocks, at most. -/
def StackShared (s t : State) : Prop := t = { s with hbms := t.hbms, shared := t.shared }

theorem StackShared.refl (s : State) : StackShared s s := rfl

theorem StackShared.trans {s t u : State} (h : StackShared s t) (k : StackShared t u) : StackShared s u := by
  rw [StackShared] at h k ⊢
  rw [k, h]

theorem StackShared.foldl {α : Type} {step : State → α → State} (h : ∀ s a, StackShared s (step s a)) (s : State) (l : List α) :
    StackShared s (l.foldl step s) :=
  List.foldlRecOn (motive := fun t => StackShared s t) l step (.refl s) fun t ht a _ => ht.trans (h t a)

theorem stackShared_countShared (s : State) (b code cls n plane : Nat) : StackShared s (countShared s b code cls n plane) := rfl

theorem stackShared_hbmTake (s : State) (a n : Nat) : StackShared s (hbmTake s a n) := by
  rw [hbmTake]
  refine StackShared.foldl (fun u p => ?_) s _
  rfl

theorem hbmLoc_of_shared {s t : State} (h : StackShared s t) (a : Nat) : hbmLoc t a = hbmLoc s a := by
  rw [h]
  rfl

theorem hbmByte_of_shared {s t : State} (h : StackShared s t) (a : Nat) : hbmByte t a = hbmByte s a := by
  rw [h]
  rfl

theorem hbmSound_of_shared {s t : State} (h : StackShared s t) {a n : Nat} (hs : HbmSound s a n) : HbmSound t a n := fun w hw => by
  have hm : t.marks = s.marks := by rw [h]
  rw [hm, hbmLoc_of_shared h]
  exact hs w hw

theorem hbmAccess_read {s : State} {part : Option Nat} {a n : Nat} (hok : hbmCheck s part a n = .ok) (hs : HbmSound s a n) (req : Requester) :
    ∃ u, hbmAccess s req part a n none = (u, ⟨.ok, (List.range n).map (fun i => hbmByte s (a + i)), []⟩) ∧ StackShared s u := by
  have ht := stackShared_hbmTake s a n
  have hread := hbmRead_sound (hbmSound_of_shared ht hs)
  have hbytes : (List.range n).map (fun i => hbmByte (hbmTake s a n) (a + i)) = (List.range n).map (fun i => hbmByte s (a + i)) := by
    simp only [hbmByte_of_shared ht]
  unfold hbmAccess
  rw [hok]
  dsimp only
  rw [hread]
  dsimp only
  rw [hbytes]
  generalize hbmTake s a n = u at ht
  refine ⟨_, rfl, ht.trans (StackShared.trans ?_ (StackShared.foldl (fun v x => stackShared_countShared v _ _ _ _ _) _ _))⟩
  exact StackShared.foldl (fun v x => stackShared_countShared v _ _ _ _ _) _ _

/-! ### Writes (R333, R334, R336) -/

theorem hbmPuts_append (s : State) (a : Nat) (bs : Bytes) : hbmPuts s a bs = { s with mem := (hbmPuts s a bs).mem } := by
  induction bs generalizing s a with
  | nil => rfl
  | cons b bs ih =>
    rw [hbmPuts, ih]
    rfl

/-- The bytes of a string stand in HBM, and every other byte as before. -/
theorem hbmPuts_written {s : State} (hw : MemInv s) (bs : Bytes) {a : Nat} (ha : hbmBase ≤ a) :
    MemInv (hbmPuts s a bs) ∧ (∀ i < bs.length, memGet (hbmPuts s a bs).mem (hbmPos s (a + i)) = bs.getD i 0) ∧
      ∀ x, (∀ i < bs.length, x ≠ hbmPos s (a + i)) → memGet (hbmPuts s a bs).mem x = memGet s.mem x := by
  induction bs generalizing s a with
  | nil => exact ⟨hw, nofun, fun _ _ => rfl⟩
  | cons b bs ih =>
    have hput : (hbmPut s a b).mem = memSet s.mem (hbmPos s a) b := rfl
    have hpos : ∀ y, hbmPos (hbmPut s a b) y = hbmPos s y := fun _ => rfl
    have hw1 : MemInv (hbmPut s a b) := memSet_wf s.mem (hbmPos s a) b hw
    obtain ⟨hinv, hin, hout⟩ := ih (s := hbmPut s a b) hw1 (a := a + 1) (by omega)
    simp only [hpos] at hin hout
    rw [hbmPuts]
    refine ⟨hinv, fun i hi => ?_, fun x hx => ?_⟩
    · cases i with
      | zero =>
        rw [hout _ fun j _ hj => by
          have := hbmPos_injective s (by omega) (by omega) hj
          omega, hput]
        exact memGet_memSet _ _ _ hw
      | succ i =>
        have h := hin i (by rw [List.length_cons] at hi; omega)
        rw [Nat.add_right_comm, Nat.add_assoc] at h
        exact h
    · have h0 : x ≠ hbmPos s a := hx 0 (by rw [List.length_cons]; omega)
      rw [hout x fun j hj => ?_, hput, memGet_memSet_ne _ _ hw h0]
      have h := hx (j + 1) (by rw [List.length_cons]; omega)
      rw [Nat.add_right_comm, Nat.add_assoc]
      exact h

/-- The write of one 64 B word, and whether the words before it were written (R334, R336). -/
def writeWord (a : Nat) (bs : Bytes) (poison : List Nat) (acc : State × Bool) (w : Nat) : State × Bool :=
  let (s, ok) := acc
  let l := hbmLoc s w
  let lo := max a w
  let hi := min (a + bs.length) (w + 64)
  let part := (bs.drop (lo - a)).take (hi - lo)
  let pz := poison.any (fun x => decide (w ≤ a + x) && decide (a + x < w + 64))
  let whole := decide (lo = w) && decide (hi = w + 64)
  let (s, bad) := if whole then (s, false) else touchHbm s l.1 l.2 1
  if bad then (s, false)
  else
    let s := hbmPuts s lo part
    ({ s with
       marks := if pz then mset s.marks (hbmKey l.1 (l.2 / 64 * 64)) .poisoned
         else mdel s.marks (hbmKey l.1 (l.2 / 64 * 64)) }, ok)

theorem hbmWrite_eq (s : State) (a : Nat) (bs : Bytes) (poison : List Nat) :
    hbmWrite s a bs poison = (words64 a bs.length).foldl (writeWord a bs poison) (s, true) := rfl

/-- Whether a word of a write is poisoned. -/
def poisonsWord (a : Nat) (poison : List Nat) (w : Nat) : Bool := poison.any (fun x => decide (w ≤ a + x) && decide (a + x < w + 64))

/-- The part of a write that lies in a word. -/
def wordPart (a : Nat) (bs : Bytes) (w : Nat) : Bytes := (bs.drop (max a w - a)).take (min (a + bs.length) (w + 64) - max a w)

theorem writeWord_sound {s : State} {w : Nat} (hd : 64 ∣ w) (h : wordSound s w) (a : Nat) (bs : Bytes) (poison : List Nat) :
    writeWord a bs poison (s, true) w = ({ hbmPuts s (max a w) (wordPart a bs w) with
      marks := if poisonsWord a poison w then mset s.marks (hbmPos s w) .poisoned else mdel s.marks (hbmPos s w) }, true) := by
  have hkey : hbmKey (hbmLoc s w).1 ((hbmLoc s w).2 / 64 * 64) = hbmPos s w := by
    rw [hbmLoc_snd_word s hd]
    rfl
  have hmarks : (hbmPuts s (max a w) (wordPart a bs w)).marks = s.marks := by rw [hbmPuts_append]
  have htouch : (if (decide (max a w = w) && decide (min (a + bs.length) (w + 64) = w + 64)) = true then (s, false)
      else touchHbm s (hbmLoc s w).1 (hbmLoc s w).2 1) = (s, false) := by
    rw [touchHbm_sound hd h]
    exact ite_self _
  rw [writeWord]
  dsimp only
  rw [htouch]
  dsimp only
  rw [hkey, if_neg Bool.false_ne_true]
  change ({ hbmPuts s (max a w) (wordPart a bs w) with
    marks := if poisonsWord a poison w then mset (hbmPuts s (max a w) (wordPart a bs w)).marks (hbmPos s w) .poisoned
      else mdel (hbmPuts s (max a w) (wordPart a bs w)).marks (hbmPos s w) }, true) = _
  rw [hmarks]

/-- Of `s`, `t` changes bytes and their marks, at most. -/
def BytesOnly (s t : State) : Prop := t = { s with mem := t.mem, marks := t.marks }

theorem hbmPos_of_bytes {s t : State} (h : BytesOnly s t) (a : Nat) : hbmPos t a = hbmPos s a := by
  rw [h]
  rfl

theorem hbmLoc_of_bytes {s t : State} (h : BytesOnly s t) (a : Nat) : hbmLoc t a = hbmLoc s a := by
  rw [h]
  rfl

/-- What a write of `bs` at `a` has done once it has come to the words `l`. -/
structure WordsWritten (a : Nat) (bs : Bytes) (poison : List Nat) (l : List Nat) (s : State) (t : State × Bool) : Prop where
  ok : t.2 = true
  rest : BytesOnly s t.1
  inv : MemInv t.1
  bytes : ∀ i < bs.length, (a + i) / 64 * 64 ∈ l → memGet t.1.mem (hbmPos s (a + i)) = bs.getD i 0
  other : ∀ x, (∀ i < bs.length, (a + i) / 64 * 64 ∈ l → x ≠ hbmPos s (a + i)) → memGet t.1.mem x = memGet s.mem x
  poisoned : ∀ w ∈ l, poisonsWord a poison w = true → mfind t.1.marks (hbmPos s w) = some .poisoned
  marks : ∀ w, hbmBase ≤ w → w ∉ l → mfind t.1.marks (hbmPos s w) = mfind s.marks (hbmPos s w)

theorem length_wordPart {a w : Nat} {bs : Bytes} (h : w < a + bs.length) (h' : a < w + 64) :
    (wordPart a bs w).length = min (a + bs.length) (w + 64) - max a w := by
  rw [wordPart, List.length_take, List.length_drop]
  omega

theorem getD_wordPart {a w i : Nat} {bs : Bytes} (hi : max a w + i < min (a + bs.length) (w + 64)) :
    (wordPart a bs w).getD i 0 = bs.getD (max a w - a + i) 0 := by
  rw [wordPart, List.getD_eq_getElem?_getD, List.getElem?_take_of_lt (by omega), List.getElem?_drop, ← List.getD_eq_getElem?_getD]

/-- One word of a write. -/
theorem writeWord_written {s : State} {a w : Nat} {bs : Bytes} (hw : MemInv s) (ha : hbmBase ≤ a) (hs : wordSound s w)
    (hmem : w ∈ words64 a bs.length) (hn : 0 < bs.length) (poison : List Nat) :
    WordsWritten a bs poison [w] s (writeWord a bs poison (s, true) w) := by
  obtain ⟨hd, hlt, hgt⟩ := (mem_words64 hn).1 hmem
  have hbase : hbmBase ≤ w := by
    rw [hbmBase] at ha ⊢
    omega
  have hlen := length_wordPart hlt hgt
  obtain ⟨hinv, hin, hout⟩ := hbmPuts_written hw (wordPart a bs w) (a := max a w) (by omega)
  rw [writeWord_sound hd hs]
  refine ⟨rfl, ?_, hinv, fun i hi hl => ?_, fun x hx => hout x fun j hj => ?_, fun v hv hp => ?_, fun v hv hl => ?_⟩
  · rw [BytesOnly, hbmPuts_append]
  · rw [List.mem_singleton] at hl
    have hj : a + i - max a w < (wordPart a bs w).length := by omega
    have h := hin (a + i - max a w) hj
    rw [getD_wordPart (by omega), show max a w + (a + i - max a w) = a + i by omega,
      show max a w - a + (a + i - max a w) = i by omega] at h
    exact h
  · have h := hx (max a w + j - a) (by omega) (by rw [List.mem_singleton]; omega)
    rw [show a + (max a w + j - a) = max a w + j by omega] at h
    exact h
  · rw [List.mem_singleton] at hv
    subst hv
    dsimp only
    rw [if_pos hp, mfind_mset]
  · rw [List.mem_singleton] at hl
    have hne : hbmPos s v ≠ hbmPos s w := fun h => hl (hbmPos_injective s hv hbase h)
    dsimp only
    split
    · exact mfind_mset_ne _ _ hne
    · exact mfind_mdel_ne _ hne

theorem WordsWritten.cons {a w : Nat} {bs : Bytes} {poison l : List Nat} {s : State} {t u : State × Bool}
    (h : WordsWritten a bs poison [w] s t) (k : WordsWritten a bs poison l t.1 u) (hl : w ∉ l) (hw : hbmBase ≤ w) (ha : hbmBase ≤ a) :
    WordsWritten a bs poison (w :: l) s u := by
  have hpos := hbmPos_of_bytes h.rest
  obtain ⟨-, hrest, -, hbytes, hother, hpois, hmarks⟩ := h
  obtain ⟨kok, krest, kinv, kbytes, kother, kpois, kmarks⟩ := k
  simp only [hpos] at kbytes kother kpois kmarks
  refine ⟨kok, ?_, kinv, fun i hi hm => ?_, fun x hx => ?_, fun v hv hp => ?_, fun v hv hm => ?_⟩
  · rw [BytesOnly] at hrest krest ⊢
    rw [krest, hrest]
  · by_cases hil : (a + i) / 64 * 64 ∈ l
    · exact kbytes i hi hil
    · have hiw : (a + i) / 64 * 64 = w := (List.mem_cons.1 hm).resolve_right hil
      rw [kother _ fun j hj hjl hij => ?_]
      · exact hbytes i hi (by rw [hiw]; exact List.mem_singleton_self w)
      · have := hbmPos_injective s (by omega) (by omega) hij
        rw [this] at hil
        exact hil hjl
  · rw [kother x fun i hi hil => hx i hi (List.mem_cons_of_mem _ hil)]
    exact hother x fun i hi hil => hx i hi (List.mem_cons.2 (.inl (List.mem_singleton.1 hil)))
  · rcases List.mem_cons.1 hv with rfl | hv
    · rw [kmarks v hw hl]
      exact hpois v (List.mem_singleton_self v) hp
    · exact kpois v hv hp
  · rw [kmarks v hv fun h => hm (List.mem_cons_of_mem _ h)]
    exact hmarks v hv fun h => hm (List.mem_cons.2 (.inl (List.mem_singleton.1 h)))

theorem writeWords_written {a : Nat} {bs : Bytes} (ha : hbmBase ≤ a) (hn : 0 < bs.length) (poison : List Nat) {l : List Nat} (hnd : l.Nodup)
    (hl : ∀ w ∈ l, w ∈ words64 a bs.length) {s : State} (hw : MemInv s) (hs : ∀ w ∈ l, wordSound s w) :
    WordsWritten a bs poison l s (l.foldl (writeWord a bs poison) (s, true)) := by
  induction l generalizing s with
  | nil => exact ⟨rfl, rfl, hw, nofun, fun _ _ => rfl, nofun, fun _ _ _ => rfl⟩
  | cons w l ih =>
    have hbase : ∀ v ∈ w :: l, hbmBase ≤ v := fun v hv => by
      obtain ⟨hd, -, hgt⟩ := (mem_words64 hn).1 (hl v hv)
      rw [hbmBase] at ha ⊢
      omega
    obtain ⟨hwl, hnd⟩ := List.nodup_cons.1 hnd
    have h1 := writeWord_written hw ha (hs w List.mem_cons_self) (hl w List.mem_cons_self) hn poison
    rw [List.foldl_cons]
    generalize writeWord a bs poison (s, true) w = t at h1 ⊢
    obtain ⟨t, b⟩ := t
    obtain rfl : b = true := h1.ok
    refine h1.cons (ih hnd (fun v hv => hl v (List.mem_cons_of_mem _ hv)) h1.inv fun v hv => ?_) hwl (hbase w List.mem_cons_self) ha
    have hvw : v ∉ [w] := fun h => hwl (List.mem_singleton.1 h ▸ hv)
    rw [wordSound, hbmPos_of_bytes h1.rest, h1.marks v (hbase v (List.mem_cons_of_mem _ hv)) hvw]
    exact hs v (List.mem_cons_of_mem _ hv)

/-- A write that meets no error: its bytes stand, and with them every other byte. -/
theorem hbmWrite_sound {s : State} {a : Nat} {bs : Bytes} (ha : hbmBase ≤ a) (hw : MemInv s) (hs : HbmSound s a bs.length)
    (hn : 0 < bs.length) (poison : List Nat) :
    ∃ t, hbmWrite s a bs poison = (t, true) ∧ BytesOnly s t ∧ MemInv t ∧ HbmWritten s t a bs ∧
      ∀ w ∈ words64 a bs.length, poisonsWord a poison w = true → mfind t.marks (hbmPos s w) = some .poisoned := by
  have h := writeWords_written ha hn poison (words64_nodup a bs.length) (fun w hw => hw) hw hs
  rw [← hbmWrite_eq] at h
  generalize hbmWrite s a bs poison = p at h ⊢
  obtain ⟨t, b⟩ := p
  obtain ⟨rfl, hrest, hinv, hbytes, hother, hpois, -⟩ := h
  have hcover : ∀ i < bs.length, (a + i) / 64 * 64 ∈ words64 a bs.length := fun i hi =>
    (mem_words64 hn).2 ⟨Dvd.intro_left _ rfl, by omega, by omega⟩
  refine ⟨t, rfl, hrest, hinv, ⟨fun i hi => ?_, fun x hx => hother x fun i hi _ => hx i hi⟩, hpois⟩
  rw [hbmByte_eq, hbmPos_of_bytes hrest]
  exact hbytes i hi (hcover i hi)

/-- Of `s`, `t` changes bytes, their marks, the stacks and what is counted at shared blocks, at most. -/
def HbmOnly (s t : State) : Prop := t = { s with mem := t.mem, marks := t.marks, hbms := t.hbms, shared := t.shared }

theorem hbmPos_of_only {s t : State} (h : HbmOnly s t) (a : Nat) : hbmPos t a = hbmPos s a := by
  rw [h]
  rfl

theorem hbmAccess_write {s : State} {part : Option Nat} {a : Nat} {bs : Bytes} (hok : hbmCheck s part a bs.length = .ok) (ha : hbmBase ≤ a)
    (hw : MemInv s) (hs : HbmSound s a bs.length) (hn : 0 < bs.length) (req : Requester) (poison : List Nat) :
    ∃ u, hbmAccess s req part a bs.length (some (bs, poison)) = (u, ⟨.ok, [], []⟩) ∧ HbmOnly s u ∧ MemInv u ∧
      HbmWritten s u a bs ∧ ∀ w ∈ words64 a bs.length, poisonsWord a poison w = true → mfind u.marks (hbmPos s w) = some .poisoned := by
  have ht := stackShared_hbmTake s a bs.length
  have hwt : MemInv (hbmTake s a bs.length) := by
    rw [ht]
    exact hw
  have hst := hbmSound_of_shared ht hs
  have hpos : ∀ x, hbmPos (hbmTake s a bs.length) x = hbmPos s x := fun x => by
    rw [ht]
    rfl
  have hmem : (hbmTake s a bs.length).mem = s.mem := by rw [ht]
  unfold hbmAccess
  rw [hok]
  dsimp only
  generalize hbmTake s a bs.length = u0 at ht hwt hst hpos hmem ⊢
  obtain ⟨t, hwrite, hbytes, hinv, ⟨hin, hout⟩, hpois⟩ := hbmWrite_sound ha hwt hst hn poison
  rw [hwrite]
  simp only [hbmByte_eq, hbmPos_of_bytes hbytes, hpos] at hin hpois
  dsimp only
  have hcount : ∀ v, StackShared t v → HbmOnly s v ∧ MemInv v ∧ HbmWritten s v a bs ∧
      ∀ w ∈ words64 a bs.length, poisonsWord a poison w = true → mfind v.marks (hbmPos s w) = some .poisoned := fun v hv => by
    have hvm : v.mem = t.mem := by rw [hv]
    have hvk : v.marks = t.marks := by rw [hv]
    have hvp : ∀ x, hbmPos v x = hbmPos s x := fun x => by
      rw [← hpos, ← hbmPos_of_bytes hbytes, hv]
      rfl
    refine ⟨?_, ?_, ⟨fun i hi => ?_, fun x hx => ?_⟩, fun w hw hp => ?_⟩
    · rw [StackShared] at ht hv
      rw [BytesOnly] at hbytes
      rw [HbmOnly, hv, hbytes, ht]
    · rw [MemInv, hvm]
      exact hinv
    · rw [hbmByte_eq, hvp, hvm]
      exact hin i hi
    · rw [hvm, hout x fun i hi => ?_, hmem]
      rw [show hbmKey (hbmLoc u0 (a + i)).1 (hbmLoc u0 (a + i)).2 = hbmPos s (a + i) from hpos _]
      exact hx i hi
    · rw [hvk]
      exact hpois w hw hp
  refine ⟨_, rfl, hcount _ (StackShared.trans ?_ (StackShared.foldl (fun v x => stackShared_countShared v _ _ _ _ _) _ _))⟩
  have h1 := StackShared.foldl (step := fun s' st => countShared s' (stackBlk st) 1 (classOfPart (reqClass s req))
    ((hbmPieces s' a bs.length).filter (fun p => p.1 == st && p.2 == 256)).length 3)
    (fun v x => stackShared_countShared v _ _ _ _ _) t ((hbmPieces s a bs.length).map (fun p => p.1)).dedup
  split
  · exact h1
  · exact h1.trans (stackShared_countShared _ _ _ _ _ _)

end Sys2Proof.Machine
end

section
/-!
SUPPORT. The fetch of a launch record (R359 to R362).
-/

namespace Sys2Proof.Machine

/-! ### What a record needs of the state -/

/-- Of `s`, `t` changes the hosts, the stacks and what is counted at shared blocks, at most. -/
def FetchOnly (s t : State) : Prop := t = { s with hosts := t.hosts, hbms := t.hbms, shared := t.shared }

section

variable {s t : State} (h : FetchOnly s t)

include h

theorem FetchOnly.edgeEcho (d : Nat) : edgeEcho t d = edgeEcho s d := by
  rw [h]
  rfl

theorem FetchOnly.sendOf (p : SendPath) : sendOf t p = sendOf s p := by
  rw [h]
  rfl

theorem FetchOnly.recordStatus (p : Nat) (b : Bytes) : recordStatus t p b = recordStatus s p b := by
  rw [h]
  rfl

theorem FetchOnly.mem : t.mem = s.mem := by rw [h]
theorem FetchOnly.cores : t.cores = s.cores := by rw [h]
theorem FetchOnly.out : t.out = s.out := by rw [h]
theorem FetchOnly.dev : t.dev = s.dev := by rw [h]
theorem FetchOnly.launches : t.launches = s.launches := by rw [h]

end

theorem hbmCheck_of_hosts {s t : State} (h : t = { s with hosts := t.hosts }) (part : Option Nat) (a n : Nat) :
    hbmCheck t part a n = hbmCheck s part a n := by
  rw [h]
  rfl

theorem hbmSound_of_hosts {s t : State} (h : t = { s with hosts := t.hosts }) {a n : Nat} (hs : HbmSound s a n) : HbmSound t a n := by
  rw [h]
  exact hs

theorem viewAddr_of_hosts {s t : State} (h : t = { s with hosts := t.hosts }) (f x : Nat) : viewAddr t f x = viewAddr s f x := by
  rw [h]
  rfl

theorem hbmByte_of_hosts {s t : State} (h : t = { s with hosts := t.hosts }) (a : Nat) : hbmByte t a = hbmByte s a := by
  rw [h]
  rfl

theorem StackShared.hosts {s t : State} (h : StackShared s t) : t.hosts = s.hosts := by rw [h]

/-! ### The fetch -/

/-- The state in which host die `h` has taken the record at the head of a ring. -/
def takenRecord (s : State) (h f r x : Nat) : State :=
  modRing (modHost s h fun d => { d with rr := x }) h f r fun g => { g with sqhead := (g.sqhead + 1) % g.size, out := g.out + 1 }

/-- A record as a launch of its ring. -/
def recordLaunch (s : State) (h f r seq : Nat) (b : Bytes) : Launch :=
  { h := h, f := f, r := r, seq := seq, order := s.nextOrder, fence := byteNat b 0 == 2,
    wait := (byteNat b 1).testBit 0, lid := leAt b 4 4, part := if f = 0 then byteNat b 14 % 16 else f - 1, cfirst := leAt b 2 2,
    ccount := if byteNat b 0 == 2 then 0 else leAt b 12 2,
    msg := (b.drop 8).take 4 ++ (b.drop 4).take 4 ++ (b.drop 16).take 64 ++ b.drop 80,
    next := 0, sending := false, ended := [], gone := [], fcore := 0x7FF, fcode := 0, posted := false }

/-- What becomes of the bytes of a record (R361, R362). -/
def recordRead (s : State) (h f r seq : Nat) (b : Bytes) : State :=
  if s.dev == .faulted then afterPost (post s h f r seq (leAt b 4 4) 7 0 0x7FF 0) h f r
  else
    match recordStatus s (if f = 0 then byteNat b 14 % 16 else f - 1) b with
    | some st => afterPost (post s h f r seq (leAt b 4 4) st 0 0x7FF 0) h f r
    | none =>
      afterPost { s with launches := s.launches ++ [recordLaunch s h f r seq b], nextOrder := s.nextOrder + 1 } h f r

theorem fetchable_of_nextRing {s : State} {h x : Nat} (hx : nextRing s h = some x) : fetchable s h (x / 4) (x % 4) = true :=
  List.find?_some (p := fun x => fetchable s h (x / 4) (x % 4)) hx

theorem err_of_fetchable {s : State} {h f r : Nat} (hf : fetchable s h f r = true) : (ringOf s h f r).err = false := by
  rw [fetchable] at hf
  simp only [Bool.and_eq_true, Bool.not_eq_true', bne_iff_ne] at hf
  exact hf.1.1.1.1.1.2

theorem takenRecord_effect (s : State) (h f r x : Nat) :
    takenRecord s h f r x = { s with hosts := (takenRecord s h f r x).hosts } ∧
      ringOf (takenRecord s h f r x) h f r =
        { ringOf s h f r with sqhead := ((ringOf s h f r).sqhead + 1) % (ringOf s h f r).size, out := (ringOf s h f r).out + 1 } ∧
      ((takenRecord s h f r x).host h).up = (s.host h).up ∧
      (((takenRecord s h f r x).host h).fn f).masked r = ((s.host h).fn f).masked r := by
  have hh : (modHost s h fun d => { d with rr := x }).host h = { s.host h with rr := x } := host_modHost _ _ _
  refine ⟨rfl, ?_, ?_, ?_⟩
  · rw [takenRecord, ringOf_modRing, ringOf, hh]
    rfl
  · rw [takenRecord, modRing, up_modFn, hh]
  · rw [takenRecord, masked_modRing, hh]
    rfl

/-- What a fetch has read, before it acts on it. -/
structure Fetched (s u : State) (h f r : Nat) : Prop where
  rest : FetchOnly s u
  ring : ringOf u h f r =
    { ringOf s h f r with sqhead := ((ringOf s h f r).sqhead + 1) % (ringOf s h f r).size, out := (ringOf s h f r).out + 1 }
  up : (u.host h).up = (s.host h).up
  masked : ((u.host h).fn f).masked r = ((s.host h).fn f).masked r

section

variable {s : State} {h f r a : Nat} {b : Bytes} (hh : h < 2) (hr : r < 4) (hup : (s.host h).up = true) (hl : s.launches = [])
  (hnext : nextRing s h = some (4 * f + r))
  (hview : viewAddr s f ((ringOf s h f r).sqbase * 4096 + (ringOf s h f r).sqhead * 128) = some a)
  (hcheck : hbmCheck s none a 128 = .ok) (hsound : HbmSound s a 128)
  (htok : ∀ q ∈ hbmPieces s a 128, (s.stack q.1).waiting = [] ∧ hbmNeed s a 128 q.1 ≤ (s.stack q.1).tokens)
  (hb : b = (List.range 128).map (fun i => hbmByte s (a + i)))
  (hdev : s.dev = .ready ∨ s.dev = .degraded ∨ s.dev = .faulted)

theorem hbmHeld_of_tokens {s : State} {part : Option Nat} {a n : Nat}
    (h : ∀ q ∈ hbmPieces s a n, (s.stack q.1).waiting = [] ∧ hbmNeed s a n q.1 ≤ (s.stack q.1).tokens) : hbmHeld s part a n = false := by
  rw [hbmHeld, hasTokens]
  have h1 : (hbmPieces s a n).any (fun p => (s.stack p.1).waiting != []) = false := by
    rw [List.any_eq_false]
    intro q hq
    rw [(h q hq).1]
    decide
  have h2 : (hbmPieces s a n).all (fun p => decide (hbmNeed s a n p.1 ≤ (s.stack p.1).tokens)) = true := by
    rw [List.all_eq_true]
    exact fun q hq => decide_eq_true (h q hq).2
  rw [h1, h2]
  exact Bool.and_false _

include hr hnext hview htok in
theorem fetchHeld_false : fetchHeld s h = false := by
  have hx : (4 * f + r) / 4 = f := by omega
  have hy : (4 * f + r) % 4 = r := by omega
  have hring : ((s.host h).fn f).ring r = ringOf s h f r := rfl
  rw [fetchHeld, hnext]
  dsimp only
  rw [hx, hy, hring, hview]
  exact hbmHeld_of_tokens htok

include hh hr hup hl hnext hview hcheck hsound htok hb hdev in
theorem launchFetch_reads : ∃ u, exec (.launchFetch h) s = .next (recordRead u h f r (ringOf s h f r).sqhead b) ∧ Fetched s u h f r := by
  have hx : (4 * f + r) / 4 = f := by omega
  have hy : (4 * f + r) % 4 = r := by omega
  obtain ⟨hrest, hring, hup', hmask⟩ := takenRecord_effect s h f r (4 * f + r)
  obtain ⟨u, hacc, hu⟩ := hbmAccess_read (req := .host h f) (part := none) ((hbmCheck_of_hosts hrest none a 128).trans hcheck)
    (hbmSound_of_hosts hrest hsound)
  have hbytes : (List.range 128).map (fun i => hbmByte (takenRecord s h f r (4 * f + r)) (a + i)) = b := by
    rw [hb]
    simp only [hbmByte_of_hosts hrest]
  rw [hbytes] at hacc
  have hgo : (decide (2 ≤ h) || !(s.dev == .ready || s.dev == .degraded || s.dev == .faulted) || !(s.host h).up ||
      decide (256 ≤ (s.launches.filter (fun l => l.h == h)).length) || fetchHeld s h) = false := by
    rw [fetchHeld_false hr hnext hview htok, hup, hl, decide_eq_false (by omega : ¬2 ≤ h)]
    rcases hdev with hd | hd | hd <;> rw [hd] <;> rfl
  refine ⟨u, ?_, ?_, ?_, ?_, ?_⟩
  · have hexec : exec (.launchFetch h) s = execLaunchFetch h s := rfl
    rw [hexec, execLaunchFetch]
    refine congrArg Host.Outcome.next ?_
    dsimp only
    rw [if_neg (by rw [hgo]; exact Bool.false_ne_true), hnext]
    dsimp only
    rw [hx, hy]
    change (match viewAddr (takenRecord s h f r (4 * f + r)) f ((ringOf s h f r).sqbase * 4096 + (ringOf s h f r).sqhead * 128) with
      | none => _
      | some a => _) = _
    rw [viewAddr_of_hosts hrest, hview]
    dsimp only
    rw [← takenRecord, hacc]
    rfl
  · rw [StackShared] at hu
    rw [FetchOnly, hu, hrest]
  · exact (ringOf_of_hosts hu.hosts h f r).trans hring
  · rw [fn_of_hosts hu.hosts, hup']
  · rw [fn_of_hosts hu.hosts, hmask]

end

end Sys2Proof.Machine
end

section
/-!
SUPPORT. Launches: records that are completed or launched, targets that report, host-side resets (R359 to R370).
-/

namespace Sys2Proof.Machine

/-! ### A record that ends at once, and one that is launched -/

/-- The status with which a fetched record ends at once (R361, R369). -/
def endsAtOnce (s : State) (f : Nat) (b : Bytes) (st : Nat) : Prop :=
  (s.dev = .faulted ∧ st = 7) ∨
    ((s.dev = .ready ∨ s.dev = .degraded) ∧ recordStatus s (if f = 0 then byteNat b 14 % 16 else f - 1) b = some st)

theorem recordRead_ends {s : State} {f : Nat} {b : Bytes} {st : Nat} (h : endsAtOnce s f b st) (hd r seq : Nat) :
    recordRead s hd f r seq b = afterPost (post s hd f r seq (leAt b 4 4) st 0 0x7FF 0) hd f r := by
  rw [recordRead]
  rcases h with ⟨hdev, rfl⟩ | ⟨hdev, hst⟩
  · rw [hdev]
    rfl
  · rw [if_neg (by rcases hdev with hx | hx <;> rw [hx] <;> decide), hst]

theorem Fetched.ends {s u : State} {h f r : Nat} (hu : Fetched s u h f r) {b : Bytes} {st : Nat} (hend : endsAtOnce s f b st) :
    endsAtOnce u f b st := by
  rw [endsAtOnce, hu.rest.dev, hu.rest.recordStatus]
  exact hend

theorem Fetched.completes {s u : State} {h f r : Nat} (hu : Fetched s u h f r) (hl : s.launches = []) (hup : (s.host h).up = true)
    (herr : (ringOf s h f r).err = false) {b : Bytes} {st : Nat} (hend : endsAtOnce s f b st) (seq : Nat) :
    Posts s (recordRead u h f r seq b) h f r seq (leAt b 4 4) st 0 0x7FF 0 ∧ (recordRead u h f r seq b).launches = [] ∧
      (recordRead u h f r seq b).mem = s.mem ∧ (recordRead u h f r seq b).cores = s.cores ∧
      (ringOf (recordRead u h f r seq b) h f r).sqhead = ((ringOf s h f r).sqhead + 1) % (ringOf s h f r).size ∧
      (ringOf (recordRead u h f r seq b) h f r).out = (ringOf s h f r).out := by
  have hpost := hostOnly_post u h f r seq (leAt b 4 4) st 0 0x7FF 0
  have hlu : (post u h f r seq (leAt b 4 4) st 0 0x7FF 0).launches = [] := by rw [hpost.launches, hu.rest.launches, hl]
  have herru : (ringOf u h f r).err = false := by
    rw [hu.ring]
    exact herr
  obtain ⟨hp, n, hn⟩ := post_posts (hu.up.trans hup) herru seq (leAt b 4 4) st 0 0x7FF 0
  rw [recordRead_ends (hu.ends hend), afterPost_idle hlu]
  refine ⟨hp.of_ring hu.ring hu.rest.out (hu.rest.edgeEcho _) hu.masked, hlu, hpost.mem.trans hu.rest.mem, hpost.cores.trans hu.rest.cores, ?_, ?_⟩
  · rw [hn, hu.ring]
    rfl
  · rw [hn, hu.ring]
    rfl

/-- A record whose launch begins leaves for its first target. -/
theorem launchPump_first {s : State} {l : Launch} (hl : s.launches = [l]) (hs : sendOf s (.fn l.h l.f) = none) (hf : l.fence = false)
    (hnext : l.next < l.ccount) :
    launchPump s l.h l.f = startSend (setLaunch s { l with sending := true }) (.fn l.h l.f)
      { bytes := launchBytes l, endm := false, mc := false, chan := 0, sys := true, poison := [], halting := false,
        orig := none, crossed := 0, members := [⟨.local_ (l.cfirst + l.next) 31, .sent⟩] } := by
  have hfind : nextToSend s l.h l.f = some l := by
    rw [nextToSend, hl]
    refine List.find?_cons_of_pos ?_
    simp [hf, hnext, earlierDone, hl]
  rw [launchPump, hs, hfind]
  rfl

theorem recordRead_launches {s : State} {f : Nat} {b : Bytes} (hdev : s.dev = .ready ∨ s.dev = .degraded) (hop : byteNat b 0 = 1)
    (hst : recordStatus s (if f = 0 then byteNat b 14 % 16 else f - 1) b = none) (hl : s.launches = []) {h : Nat}
    (hs : sendOf s (.fn h f) = none) (r seq : Nat) :
    recordRead s h f r seq b = { s with
      launches := [{ recordLaunch s h f r seq b with sending := true }]
      nextOrder := s.nextOrder + 1
      sends := s.sends ++ [⟨.fn h f, {
        bytes := launchBytes (recordLaunch s h f r seq b), endm := false, mc := false, chan := 0, sys := true, poison := [], halting := false,
        orig := none, crossed := 0, members := [⟨.local_ (leAt b 2 2) 31, .sent⟩] }⟩] } := by
  have hfence : (recordLaunch s h f r seq b).fence = false := by
    rw [recordLaunch, hop]
    rfl
  have hcount : (recordLaunch s h f r seq b).ccount = leAt b 12 2 := by
    rw [recordLaunch, hop]
    rfl
  have hpos : 0 < leAt b 12 2 := by
    by_contra h0
    have h0 : leAt b 12 2 = 0 := by omega
    rw [recordStatus] at hst
    rw [if_neg (by omega), if_pos (.inr (.inl h0))] at hst
    cases hst
  rw [recordRead, if_neg (by rcases hdev with hx | hx <;> rw [hx] <;> decide), hst]
  dsimp only
  rw [hl, List.nil_append, afterPost, settle_of_noFence fun x hx => by rw [List.mem_singleton.1 hx]; exact hfence]
  have hpump := launchPump_first (s := { s with launches := [recordLaunch s h f r seq b], nextOrder := s.nextOrder + 1 }) rfl hs hfence
    (by rw [hcount]; exact hpos)
  refine hpump.trans ?_
  rw [startSend_local rfl]
  have hset : setLaunch { s with launches := [recordLaunch s h f r seq b], nextOrder := s.nextOrder + 1 }
      { recordLaunch s h f r seq b with sending := true } =
      { s with launches := [{ recordLaunch s h f r seq b with sending := true }], nextOrder := s.nextOrder + 1 } := by
    rw [setLaunch]
    simp
  rw [hset]
  rfl

theorem sendOf_append {s : State} {p : SendPath} (h : sendOf s p = none) (k : Send) : sendOf { s with sends := s.sends ++ [⟨p, k⟩] } p = some k := by
  rw [sendOf, Option.map_eq_none_iff] at h
  rw [sendOf, List.find?_append, h, Option.none_or]
  simp

/-! ### What the targets of a launch report (R363) -/

/-- A state whose one launch has one report of one of its targets. -/
structure Reports (s : State) (h c : Nat) (l : Launch) (x : LaunchReport) : Prop where
  ring : l.r < 4
  host : l.h = h
  die : h < 2
  launches : s.launches = [l]
  reports : s.reports = [x]
  core : x.core = c
  src : x.src = l.r + 4 * l.h + 8 * l.f
  seq : x.seq = l.seq
  pending : pendingTarget l c = true

theorem Reports.exec {s : State} {h c : Nat} {l : Launch} {x : LaunchReport} (hr : Reports s h c l x) :
    exec (.launchTargetReport h c) s = .next (match x.rep with
      | .ended => launchUpdate { s with reports := [] } { l with ended := l.ended ++ [c] }
      | .faulted code => launchFault { s with reports := [] } l c code
      | .reset => launchUpdate { s with reports := [] } { l with gone := l.gone ++ [c] }) := by
  obtain ⟨hring, rfl, hdie, hl, hrep, rfl, hsrc, hseq, hpend⟩ := hr
  have hexec : Machine.exec (.launchTargetReport l.h x.core) s = execLaunchTargetReport l.h x.core s := rfl
  have hfind : s.reports.find? (fun y => y.core == x.core && y.src / 4 % 2 == l.h) = some x := by
    rw [hrep]
    refine List.find?_cons_of_pos ?_
    have hd : x.src / 4 % 2 = l.h := by omega
    rw [hd]
    simp
  have hfindl : s.launches.find? (fun m => m.h == l.h && m.r + 4 * m.h + 8 * m.f == x.src && m.seq == x.seq && pendingTarget m x.core) = some l := by
    rw [hl]
    refine List.find?_cons_of_pos ?_
    rw [hsrc, hseq, hpend]
    simp
  have herase : s.reports.erase x = [] := by
    rw [hrep]
    simp
  rw [hexec, execLaunchTargetReport, hfind]
  dsimp only
  rewrite [hfindl, herase]
  refine congrArg Host.Outcome.next ?_
  cases x.rep <;> rfl

theorem fence_of_pending {l : Launch} {c : Nat} (h : pendingTarget l c = true) : l.fence = false := by
  rw [pendingTarget] at h
  simp only [Bool.and_eq_true, Bool.not_eq_true'] at h
  exact h.1.1.1.1

theorem setLaunch_alone {s : State} {l m : Launch} (hl : s.launches = [l]) (ho : m.order = l.order) : setLaunch s m = { s with launches := [m] } := by
  rw [setLaunch, hl]
  simp [ho]

theorem filter_alone {l m : Launch} (ho : m.order = l.order) : ([l].filter (fun x => x.order != m.order)) = [] := by
  simp [ho]

/-- A target that ends with others left. -/
theorem launchUpdate_partial {s : State} {l m : Launch} (hl : s.launches = [l]) (ho : m.order = l.order) (hp : m.posted = false)
    (hleft : m.ended.length + m.gone.length < m.ccount) : launchUpdate s m = { s with launches := [m] } := by
  rw [launchUpdate]
  dsimp only
  rw [hp, if_neg (by decide), if_neg (by omega), setLaunch_alone hl ho]

/-- The last target ends: the completion is posted. -/
theorem launchUpdate_last {s : State} {l m : Launch} (hl : s.launches = [l]) (ho : m.order = l.order) (hp : m.posted = false)
    (hleft : m.ended.length + m.gone.length = m.ccount) :
    launchUpdate s m = { post s m.h m.f m.r m.seq m.lid (if m.gone = [] then 0 else 5) m.ended.length 0x7FF 0 with launches := [] } := by
  have hlp := (hostOnly_post s m.h m.f m.r m.seq m.lid (if m.gone = [] then 0 else 5) m.ended.length 0x7FF 0).launches
  rw [launchUpdate]
  dsimp only
  rw [hp, if_neg (by decide), if_pos (by omega), hlp, hl, filter_alone ho, afterPost_idle rfl]

/-- A launch whose completion is posted goes on to wait for its targets, or leaves. -/
theorem launchUpdate_posted {s : State} {l m : Launch} (hl : s.launches = [l]) (ho : m.order = l.order) (hf : m.fence = false)
    (hp : m.posted = true) : ∃ ls : List Launch, launchUpdate (setLaunch s m) m = { s with launches := ls } ∧ ∀ x ∈ ls, x.fence = false := by
  rw [setLaunch_alone hl ho, launchUpdate]
  dsimp only
  rw [if_pos hp]
  split
  · exact ⟨_, rfl, fun x hx => by rw [List.mem_singleton.1 (List.mem_filter.1 hx).1]; exact hf⟩
  · rw [setLaunch_alone rfl rfl]
    exact ⟨[m], rfl, fun x hx => by rw [List.mem_singleton.1 hx]; exact hf⟩

/-- A fault of a target is posted at once, and nothing that a completion shows changes after. -/
theorem launchFault_posts {s : State} {l : Launch} (hl : s.launches = [l]) (hf : l.fence = false) (hp : l.posted = false) (c code : Nat) :
    ∃ launches sends, launchFault s l c code =
      { post s l.h l.f l.r l.seq l.lid 1 l.ended.length c code with launches := launches, sends := sends } := by
  have hlp := (hostOnly_post s l.h l.f l.r l.seq l.lid 1 l.ended.length c code).launches
  rw [launchFault]
  dsimp only
  rw [hp, if_neg (by decide)]
  generalize post s l.h l.f l.r l.seq l.lid 1 l.ended.length c code = u at hlp ⊢
  obtain ⟨ls, hupdate, hls⟩ := launchUpdate_posted (s := u) (m := { l with gone := l.gone ++ [c], posted := true, fcore := c, fcode := code })
    (hlp.trans hl) rfl hf rfl
  rw [hupdate, afterPost, settle_of_noFence hls, pumpOnly_launchPump { u with launches := ls } l.h l.f]
  exact ⟨_, _, rfl⟩

end Sys2Proof.Machine
end

section
/-!
The launch engines of the host dies (R349 to R370).
-/

namespace Sys2Proof.Machine

/-! ### Vectors and refused completion writes (R365) -/

theorem ringReachable_of {s : State} {h f r : Nat} (hh : h < 2) (hf : f < 17) (hr : r < 4) (hup : (s.host h).up = true) :
    ringReachable s h f r = true := by
  rw [ringReachable, hup, decide_eq_true hh, decide_eq_true hf, decide_eq_true hr]
  rfl

theorem msixCoalesceTimer_effect {s : State} {h f r : Nat} (hreach : ringReachable s h f r = true) :
    ∃ t, exec (.msixCoalesceTimer h f r) s = .next t ∧ HostOnly s t ∧ (ringOf t h f r).unsig = 0 ∧
      t.out = s.out ++ if (ringOf s h f r).unsig = 0 ∨ ((s.host h).fn f).masked r = true then [] else [.msix h f r] := by
  have hring : ((s.host h).fn f).ring r = ringOf s h f r := rfl
  have hexec : exec (.msixCoalesceTimer h f r) s = execMsixCoalesceTimer h f r s := rfl
  rw [hexec, execMsixCoalesceTimer, hreach, hring]
  by_cases hu : (ringOf s h f r).unsig = 0
  · refine ⟨s, congrArg Host.Outcome.next (if_neg ?_), .refl s, hu, ?_⟩
    · rw [hu]
      decide
    · rw [if_pos (.inl hu), List.append_nil]
  · refine ⟨_, congrArg Host.Outcome.next (if_pos ?_), (hostOnly_modRing s h f r _).trans (hostOnly_sendVector _ h f r), ?_, ?_⟩
    · rw [decide_eq_true (Nat.pos_of_ne_zero hu)]
      rfl
    · rw [ringOf_sendVector, ringOf_modRing]
    · rw [sendVector_out, masked_modRing]
      have hor : ((ringOf s h f r).unsig = 0 ∨ ((s.host h).fn f).masked r = true) = (((s.host h).fn f).masked r = true) := by
        rw [eq_false hu, false_or]
      simp only [hor]
      rfl

theorem stopRing_effect {s : State} {h f r : Nat} (hup : (s.host h).up = true) (cause : Nat) :
    (stopRing s h f r cause).out = s.out ++ (if ((s.host h).fn f).masked 4 then [] else [.msix h f 4]) ∧
    ringOf (stopRing s h f r cause) h f r =
      { ringOf s h f r with err := true, cause := if (ringOf s h f r).err && (ringOf s h f r).cause == 3 then 3 else cause } ∧
    (((stopRing s h f r cause).host h).fn f).drop = ((s.host h).fn f).drop := by
  have hup' : ∀ g, ((modRing s h f r g).host h).up = true := fun g => (up_modFn s h f h _).trans hup
  rw [stopRing, functionEvent, if_pos (hup' _)]
  refine ⟨?_, ?_, ?_⟩
  · rw [sendVector_out, masked_modRing]
    rfl
  · rw [ringOf_sendVector, ringOf_modRing]
  · rw [drop_sendVector, modRing, fn_modFn]

theorem completionWriteError_effect {s : State} {h f r : Nat} (hreach : ringReachable s h f r = true) (hup : (s.host h).up = true) :
    ∃ t, exec (.completionWriteError h f r) s = .next t ∧ HostOnly s t ∧
      t.out = s.out ++ (if ((s.host h).fn f).masked 4 then [] else [.msix h f 4]) ∧
      ringOf t h f r = { ringOf s h f r with err := true, cause := 3 } ∧
      ((t.host h).fn f).drop = satInc ((s.host h).fn f).drop 1 := by
  have hexec : exec (.completionWriteError h f r) s = execCompletionWriteError h f r s := rfl
  obtain ⟨hout, hring, hdrop⟩ := stopRing_effect (f := f) (r := r) hup 3
  rw [ite_self] at hring
  refine ⟨_, hexec.trans (congrArg Host.Outcome.next (if_pos hreach)), (hostOnly_stopRing s h f r 3).trans (hostOnly_countDrop _ h f), hout, ?_, ?_⟩
  · rw [countDrop, ringOf_modFn, hring]
    exact fun _ => rfl
  · rw [countDrop, fn_modFn, hdrop]

/-! ### The reset of a function and its partition (R369) -/

theorem hosts_resetGroup (s : State) (g : Nat) (clear : Bool) :
    (resetGroup s g clear).hosts = s.hosts ∧ (resetGroup s g clear).launches = s.launches ∧ (resetGroup s g clear).parts = s.parts := by
  have h := Resets.foldl (fun s c => resets_resetCore s c clear) (modGrp s g fun k => { k with rst := true }) (groupCores g)
  exact ⟨h.hosts, h.launches, h.parts⟩

/-- R449 step 1: a partition is marked as resetting and its launches end, before its groups are reset. -/
def partBegun (s : State) (p : Nat) : State := endLaunches (modPart s p fun k => { k with resetting := true }) fun x => x == p

/-- R449: group `g` is reset where it is of the partition, and neither under re-map nor under check. -/
def partGroupReset (p : Nat) (s : State) (g : Nat) : State :=
  if (s.grp g).part == some p && (s.grp g).remap.isNone && !(s.grp g).check then resetGroup s g true else s

theorem hosts_partGroupResets (p : Nat) (l : List Nat) (u : State) :
    (l.foldl (partGroupReset p) u).hosts = u.hosts ∧ (l.foldl (partGroupReset p) u).launches = u.launches ∧
      (l.foldl (partGroupReset p) u).parts = u.parts := by
  refine List.foldlRecOn (motive := fun t : State => t.hosts = u.hosts ∧ t.launches = u.launches ∧ t.parts = u.parts) _ _ ⟨rfl, rfl, rfl⟩
    fun t ht g _ => ?_
  obtain ⟨h1, h2, h3⟩ := ht
  rw [partGroupReset]
  split
  · obtain ⟨k1, k2, k3⟩ := hosts_resetGroup t g true
    exact ⟨k1.trans h1, k2.trans h2, k3.trans h3⟩
  · exact ⟨h1, h2, h3⟩

theorem beginPartReset_cases (s : State) (p : Nat) :
    beginPartReset s p = s ∧ (s.dev = .ready ∨ s.dev = .degraded → (s.part p).resetting = true) ∨
      ((beginPartReset s p).hosts = (partBegun s p).hosts ∧ (beginPartReset s p).launches = (partBegun s p).launches ∧
        (beginPartReset s p).parts = (partBegun s p).parts) := by
  unfold beginPartReset
  extract_lets serves u v
  split
  · next hc =>
    refine .inl ⟨rfl, fun hd => ?_⟩
    have hserves : serves = true := by rcases hd with hd | hd <;> simp only [serves, hd]
    rw [hserves] at hc
    simpa using hc
  · exact .inr (hosts_partGroupResets p _ v)

theorem resetting_partBegun (s : State) (p : Nat) : ((partBegun s p).part p).resetting = true := by
  have h := launchOnly_endLaunches (modPart s p fun k => { k with resetting := true }) fun x => x == p
  have hp : (partBegun s p).parts = (modPart s p fun k => { k with resetting := true }).parts := by
    rw [partBegun, h]
  rw [State.part, hp, ← State.part, part_modPart]

theorem beginPartReset_effect {s : State} {k e : Nat} (hk : ∀ l ∈ s.launches, ¬(l.h = k ∧ l.f = e)) (p : Nat) :
    ((beginPartReset s p).host k).fn e = (s.host k).fn e ∧ Shrinks s (beginPartReset s p) ∧
      (s.dev = .ready ∨ s.dev = .degraded → ((beginPartReset s p).part p).resetting = true) := by
  rcases beginPartReset_cases s p with ⟨hs, hr⟩ | ⟨hhosts, hl, hparts⟩
  · rw [hs]
    exact ⟨rfl, .refl s, hr⟩
  · refine ⟨?_, ?_, fun _ => ?_⟩
    · rw [fn_of_hosts hhosts]
      exact fn_endLaunches_ne (s := modPart s p fun k => { k with resetting := true }) hk _
    · exact Shrinks.trans (t := partBegun s p) (Shrinks.trans (t := modPart s p fun k => { k with resetting := true }) (.of_eq rfl)
        (shrinks_endLaunches _ _)) (.of_eq hl)
    · rw [State.part, hparts]
      exact resetting_partBegun s p

theorem noPart_of {s t : State} (hg : t.groups = s.groups) (hc : t.cfg = s.cfg) (h f : Nat) : noPart t h f = noPart s h f := by
  have hp : partExists t (f - 1) = partExists s (f - 1) := by
    simp only [partExists, State.grp, hg]
  rw [noPart, hp, cfgNum, hc, ← cfgNum, ← noPart]

/-- A virtual function as an FLR leaves it, before its partition is reset. -/
def functionReset (s : State) (h p : Nat) : State :=
  closeMailbox (modFn (dropLaunches s h fun f => f == p + 1) h (p + 1) fun _ => HostFn.reset) h (p + 1)

theorem functionReset_effect (s : State) (h p : Nat) :
    ((functionReset s h p).host h).fn (p + 1) = HostFn.reset ∧ (∀ l ∈ (functionReset s h p).launches, ¬(l.h = h ∧ l.f = p + 1)) ∧
      noPart (functionReset s h p) h (p + 1) = noPart s h (p + 1) ∧ (functionReset s h p).dev = s.dev := by
  have hd := dropOnly_dropLaunches s h fun f => f == p + 1
  have hgone := dropLaunches_gone s h fun f => f == p + 1
  rw [functionReset]
  generalize dropLaunches s h (fun f => f == p + 1) = u at hd hgone ⊢
  have hc := closes_closeMailbox (modFn u h (p + 1) fun _ => HostFn.reset) h (p + 1)
  generalize closeMailbox (modFn u h (p + 1) fun _ => HostFn.reset) h (p + 1) = v at hc ⊢
  refine ⟨?_, fun l hl => ?_, ?_, ?_⟩
  · rw [fn_of_hosts hc.hosts, fn_modFn]
  · rw [hc.launches] at hl
    rintro ⟨h1, h2⟩
    exact hgone l hl ⟨h1, beq_iff_eq.2 h2⟩
  · refine noPart_of ?_ ?_ h (p + 1)
    · rw [hc.groups, hd]
      rfl
    · rw [hc.cfg, hd]
      rfl
  · rw [hc.dev, hd]
    rfl

theorem vfFlr_effect (s : State) {h p : Nat} (hh : h < 2) (hp : p < 16) :
    ∃ t, exec (.vfFlr h p) s = .next t ∧ (t.host h).fn (p + 1) = HostFn.reset ∧ (∀ l ∈ t.launches, ¬(l.h = h ∧ l.f = p + 1)) ∧
      (noPart s h (p + 1) = false → s.dev = .ready ∨ s.dev = .degraded → (t.part p).resetting = true) := by
  obtain ⟨hfn, hgone, hno, hdev⟩ := functionReset_effect s h p
  have hexec : exec (.vfFlr h p) s = .next (if noPart (functionReset s h p) h (p + 1) then functionReset s h p
      else beginPartReset (functionReset s h p) p) := by
    have hx : exec (.vfFlr h p) s = execVfFlr h p s := rfl
    rw [hx, execVfFlr, if_neg (by omega)]
    rfl
  rw [hexec, hno]
  split
  · next hn => exact ⟨_, rfl, hfn, hgone, fun hf => absurd hf (by rw [hn]; decide)⟩
  · obtain ⟨hkeep, hshrink, hreset⟩ := beginPartReset_effect hgone p
    refine ⟨_, rfl, hkeep.trans hfn, fun l hl => ?_, fun _ hd => hreset (by rw [hdev]; exact hd)⟩
    obtain ⟨m, hm, -, -, h1, h2, -⟩ := hshrink l hl
    rw [h1, h2]
    exact hgone m hm

end Sys2Proof.Machine
end

section
/-!
The launch engines of the host dies: resets of a PF and of a host die (R369, R370).
-/

namespace Sys2Proof.Machine

/-! ### A compute reset leaves no launch and enables no ring -/

/-- Of `s`, `t` enables no other ring and has no launch where `s` has none. -/
structure RingsStand (s t : State) : Prop where
  en : ∀ k e q, (ringOf t k e q).en = (ringOf s k e q).en
  launches : s.launches = [] → t.launches = []

theorem RingsStand.refl (s : State) : RingsStand s s := ⟨fun _ _ _ => rfl, id⟩

theorem RingsStand.trans {s t u : State} (h : RingsStand s t) (k : RingsStand t u) : RingsStand s u :=
  ⟨fun a e q => (k.en a e q).trans (h.en a e q), fun hl => k.launches (h.launches hl)⟩

theorem RingsStand.of_eq {s t : State} (h : t.hosts = s.hosts) (hl : t.launches = s.launches) : RingsStand s t :=
  ⟨fun k e q => by rw [ringOf_of_hosts h], fun hs => hl.trans hs⟩

theorem RingsStand.foldl {α : Type} {step : State → α → State} (h : ∀ s a, RingsStand s (step s a)) (s : State) (l : List α) :
    RingsStand s (l.foldl step s) :=
  List.foldlRecOn (motive := fun t => RingsStand s t) l step (.refl s) fun t ht a _ => ht.trans (h t a)

theorem ringsStand_sendVector (s : State) (h f v : Nat) : RingsStand s (sendVector s h f v) :=
  ⟨fun k e q => en_sendVector s h f v k e q, fun hl => (hostOnly_sendVector s h f v).launches.trans hl⟩

theorem ringsStand_devVectors (s : State) : RingsStand s (devVectors s) := by
  refine RingsStand.foldl (fun s p => ?_) s _
  split
  · exact RingsStand.foldl (fun s f => ringsStand_sendVector s p.1 f 4) s _
  · exact .refl s

theorem Logged.ringsStand {s t : State} (h : Logged s t) : RingsStand s t := .of_eq (by rw [h]) (by rw [h])

theorem ringsStand_setDev (s : State) (d : DevState) (stage : Nat) : RingsStand s (setDev s d stage) := by
  rw [setDev]
  split
  · exact .of_eq rfl rfl
  · refine RingsStand.trans ?_ (ringsStand_devVectors _)
    refine RingsStand.trans (t := { s with dev := d, stage := stage }) (.of_eq rfl rfl) ?_
    rw [raiseEvent]
    exact (logged_raiseRec _ _ _ _ _ _ _ _).ringsStand

theorem ringsStand_endLaunches (s : State) (p : Nat → Bool) : RingsStand s (endLaunches s p) := by
  refine ⟨fun k e q => en_endLaunches s p k e q, fun hl => List.eq_nil_iff_forall_not_mem.2 fun x hx => ?_⟩
  obtain ⟨m, hm, -⟩ := shrinks_endLaunches s p x hx
  rw [hl] at hm
  cases hm

theorem ringsStand_abortCheck (s : State) : RingsStand s (abortCheck s) := by
  rw [abortCheck]
  split
  · have hfold : RingsStand s ((List.range 96).foldl (fun s g => if (s.grp g).check then modGrp s g (fun k => { k with check := false }) else s) s) := by
      refine RingsStand.foldl (fun s g => ?_) s _
      split
      · exact .of_eq rfl rfl
      · exact .refl s
    dsimp only
    generalize (List.range 96).foldl (fun s g => if (s.grp g).check then modGrp s g (fun k => { k with check := false }) else s) s = u at hfold ⊢
    have hend := actsEnd_endFailed u 4
    generalize endFailed u 4 = v at hend ⊢
    exact hfold.trans (RingsStand.trans (t := v) (.of_eq (by rw [hend]) (by rw [hend])) (.of_eq rfl rfl))
  · exact .refl s

theorem ringsStand_beganReset (s : State) : RingsStand s (beganReset s) := by
  rw [beganReset]
  refine (ringsStand_setDev s .waking 10).trans (RingsStand.trans (t := modWake (setDev s .waking 10) inReset) (.of_eq rfl rfl) ?_)
  refine (ringsStand_endLaunches _ fun _ => true).trans ?_
  have habort := ringsStand_abortCheck (endLaunches (modWake (setDev s .waking 10) inReset) fun _ => true)
  generalize abortCheck (endLaunches (modWake (setDev s .waking 10) inReset) fun _ => true) = u at habort ⊢
  exact habort.trans (.of_eq rfl rfl)

theorem beginComputeReset_cases (s : State) : beginComputeReset s = s ∨ beginComputeReset s = beganReset s := by
  by_cases h : s.dev = .ready ∨ s.dev = .degraded ∨ s.dev = .low ∨ s.dev = .faulted
  · exact .inr (beginComputeReset_serving h)
  · refine .inl ?_
    rw [beginComputeReset]
    split
    · next hd => exact absurd (.inl hd) h
    · next hd => exact absurd (.inr (.inl hd)) h
    · next hd => exact absurd (.inr (.inr (.inl hd))) h
    · next hd => exact absurd (.inr (.inr (.inr hd))) h
    · rfl

theorem ringsStand_beginComputeReset (s : State) : RingsStand s (beginComputeReset s) := by
  rcases beginComputeReset_cases s with h | h
  · rw [h]
    exact .refl s
  · rw [h]
    exact ringsStand_beganReset s

/-! ### The reset of a PF (R369) -/

/-- R369: a function's page and mailbox are reset. -/
def resetFn (h : Nat) (s : State) (f : Nat) : State := closeMailbox (modFn s h f fun _ => HostFn.reset) h f

theorem fn_resetFn (s : State) (h f : Nat) : ((resetFn h s f).host h).fn f = HostFn.reset := by
  rw [resetFn, fn_of_hosts (closes_closeMailbox _ h f).hosts, fn_modFn]

theorem fn_resetFn_ne (s : State) (h f : Nat) {e : Nat} (he : e ≠ f) : ((resetFn h s f).host h).fn e = (s.host h).fn e := by
  rw [resetFn, fn_of_hosts (closes_closeMailbox _ h f).hosts, fn_modFn_ne s _ fun hx => he hx.2]

/-- R369: every function of an endpoint is reset. -/
def resetFns (s : State) (h : Nat) : State := (List.range 17).foldl (resetFn h) s

theorem resetFns_effect (s : State) (h : Nat) :
    (∀ f < 17, ((resetFns s h).host h).fn f = HostFn.reset) ∧ (resetFns s h).launches = s.launches ∧ (resetFns s h).dev = s.dev := by
  refine ⟨fun f hf => ?_, ?_⟩
  · exact foldl_at (get := fun u n => (u.host h).fn n) (g := fun _ _ => HostFn.reset) (fun u n => fn_resetFn u h n)
      (fun u n m hm => fn_resetFn_ne u h n hm) List.nodup_range s (List.mem_range.2 hf)
  · refine List.foldlRecOn (motive := fun t : State => t.launches = s.launches ∧ t.dev = s.dev) _ _ ⟨rfl, rfl⟩ fun t ht f _ => ?_
    have hc := closes_closeMailbox (modFn t h f fun _ => HostFn.reset) h f
    exact ⟨hc.launches.trans ht.1, hc.dev.trans ht.2⟩

/-- A function with its rings disabled. -/
def fnDisabled (k : HostFn) : HostFn := { k with rings := k.rings.map (fun y => (y.1, { y.2 with en := false })) }

/-- R369: every ring of an endpoint is disabled. -/
def ringsDisabled (s : State) (h : Nat) : State := modHost s h fun d => { d with fns := d.fns.map (fun x => (x.1, fnDisabled x.2)) }

theorem en_ringsDisabled (s : State) (h f r : Nat) : (ringOf (ringsDisabled s h) h f r).en = false := by
  rw [ringOf, ringsDisabled, host_modHost]
  dsimp only [HostDie.fn]
  rw [mget_map rfl, HostFn.ring, fnDisabled]
  rw [mget_map (f := fun g : Ring => { g with en := false }) rfl]

/-- The device as an FLR of a PF leaves it, before its compute reset. -/
def pfReset (s : State) (h : Nat) : State :=
  let s := resetFns (dropLaunches s h fun _ => true) h
  let s := endLaunches (dropLaunches s (1 - h) fun f => !((s.host (1 - h)).fn f).master) (fun _ => true)
  ringsDisabled { s with launches := s.launches.filter (fun l => !l.fence) } (1 - h)

theorem pfReset_effect (s : State) {h : Nat} (hh : h < 2) :
    (pfReset s h).launches = [] ∧ (∀ k < 2, ∀ f < 17, ∀ r, (ringOf (pfReset s h) k f r).en = false) ∧ (pfReset s h).dev = s.dev := by
  have h1 := dropOnly_dropLaunches s h fun _ => true
  rw [pfReset]
  generalize dropLaunches s h (fun _ => true) = s1 at h1 ⊢
  obtain ⟨hreset, -, hdev2⟩ := resetFns_effect s1 h
  generalize resetFns s1 h = s2 at hreset hdev2 ⊢
  have h3 := dropOnly_dropLaunches s2 (1 - h) fun f => !((s2.host (1 - h)).fn f).master
  generalize dropLaunches s2 (1 - h) (fun f => !((s2.host (1 - h)).fn f).master) = s3 at h3 ⊢
  have hfences := endLaunches_all s3
  have hen := en_endLaunches s3 fun _ => true
  have hdev4 : (endLaunches s3 fun _ => true).dev = s3.dev := by rw [launchOnly_endLaunches]
  generalize endLaunches s3 (fun _ => true) = s4 at hfences hen hdev4 ⊢
  refine ⟨?_, fun k hk f hf r => ?_, ?_⟩
  · change s4.launches.filter (fun l => !l.fence) = []
    rw [List.filter_eq_nil_iff]
    intro x hx
    rw [hfences x hx]
    decide
  · by_cases hkh : k = 1 - h
    · rw [hkh]
      exact en_ringsDisabled _ _ f r
    · have hke : k = h := by omega
      rw [ringOf, ringsDisabled, host_modHost_ne _ _ hkh]
      refine (hen k f r).trans ?_
      have hhosts : s3.hosts = s2.hosts := by rw [h3]
      rw [ringOf_of_hosts hhosts, hke, ringOf, hreset f hf]
      rfl
  · change s4.dev = s.dev
    rw [hdev4, h3, hdev2, h1]

theorem pfFlr_effect (s : State) {h : Nat} (hh : h < 2) :
    ∃ t, exec (.pfFlr h) s = .next t ∧ t.launches = [] ∧ (∀ k < 2, ∀ f < 17, ∀ r, (ringOf t k f r).en = false) ∧
      (s.dev = .ready ∨ s.dev = .degraded → t.dev = .waking ∧ t.wake.compute = true ∧ ∀ c < 1152, (t.core c).crst = true) := by
  obtain ⟨hl, hen, hdev⟩ := pfReset_effect s hh
  have hexec : exec (.pfFlr h) s = .next (beginComputeReset (pfReset s h)) := by
    have hx : exec (.pfFlr h) s = execPfFlr h s := rfl
    rw [hx, execPfFlr, if_neg (by omega)]
    rfl
  have hstand := ringsStand_beginComputeReset (pfReset s h)
  refine ⟨_, hexec, hstand.launches hl, fun k hk f hf r => (hstand.en k f r).trans (hen k hk f hf r), fun hd => ?_⟩
  obtain ⟨-, hwaking, hcompute, -, hcrst⟩ := beganReset_effect (pfReset s h)
  rw [beginComputeReset_serving (by rw [hdev]; exact hd.elim .inl fun h => .inr (.inl h))]
  exact ⟨hwaking, hcompute, hcrst⟩

/-! ### The reset of a host die (R369, R370) -/

theorem perstAssert_effect (s : State) {h : Nat} (hh : h < 2) (pin : Bool) :
    ∃ t, exec (.perstAssert h pin) s = .next t ∧ t.mem = s.mem ∧ t.launches = s.launches ∧
      t.host h = { HostDie.reset with perst := (s.host h).perst || pin } := by
  have hexec : exec (.perstAssert h pin) s = execPerstAssert h pin s := rfl
  have hc := Closes.foldl (fun s f => closes_closeMailbox s h f)
    (modHost s h fun _ => { HostDie.reset with perst := (s.host h).perst || pin }) (List.range 17)
  refine ⟨_, hexec.trans (congrArg Host.Outcome.next (if_neg (by omega))), hc.mem, hc.launches, ?_⟩
  rw [fn_of_hosts hc.hosts, host_modHost]

end Sys2Proof.Machine

open Sys2Proof.Machine in
/-- Settles O46: the engine reads the record that is next and completes or launches it; what targets report is posted; an interrupt timer
and a refused write act on their ring; and the resets of the host end what R369 names. -/
theorem launchesFetchReportAndReset : Obligations.LaunchesFetchReportAndReset := by
  unfold Obligations.LaunchesFetchReportAndReset
  refine ⟨?_, ?_, ?_, ?_, ?_, ?_, ?_, ?_⟩
  · rintro s h f r a b g hh hr hf hup hl hnext rfl hview hcheck hsound htok hb
    have hreads := launchFetch_reads hh hr hup hl hnext hview hcheck hsound htok hb
    have herr : (ringOf s h f r).err = false := by
      have hfetch := fetchable_of_nextRing hnext
      rw [show (4 * f + r) / 4 = f by omega, show (4 * f + r) % 4 = r by omega] at hfetch
      exact err_of_fetchable hfetch
    refine ⟨fun st hend => ?_, fun hdev hop hsend hst => ?_⟩
    · obtain ⟨u, hexec, hu⟩ := hreads (by
        rcases hend with ⟨hd, -⟩ | ⟨hd | hd, -⟩
        · exact .inr (.inr hd)
        · exact .inl hd
        · exact .inr (.inl hd))
      exact ⟨_, hexec, hu.completes hl hup herr hend _⟩
    · obtain ⟨u, hexec, hu⟩ := hreads (hdev.imp_right .inl)
      have hlu : u.launches = [] := hu.rest.launches.trans hl
      have hsu : sendOf u (.fn h f) = none := (hu.rest.sendOf _).trans hsend
      rw [recordRead_launches (by rw [hu.rest.dev]; exact hdev) hop (by rw [hu.rest.recordStatus]; exact hst) hlu hsu] at hexec
      refine ⟨_, _, _, hexec, rfl, rfl, rfl, rfl, rfl, rfl, rfl, ?_, hu.rest.out, hu.rest.mem, sendOf_append hsu _, rfl, ?_, ?_⟩
      · change (if byteNat b 0 == 2 then 0 else leAt b 12 2) = leAt b 12 2
        rw [hop]
        rfl
      · exact congrArg Ring.sqhead hu.ring
      · exact congrArg Ring.out hu.ring
  · rintro s h c l x hh hr rfl hl hrep hcore hsrc hseq hpend hpost hup herr
    have hreport : Reports s l.h c l x := ⟨hr, rfl, hh, hl, hrep, hcore, hsrc, hseq, hpend⟩
    have hexec := hreport.exec
    have hfence := fence_of_pending hpend
    have hcount : (l.ended ++ [c]).length = l.ended.length + 1 := by simp
    refine ⟨fun hx hlen => ?_, fun hx hlen => ?_, fun code hx => ?_⟩
    · rw [hx] at hexec
      refine ⟨_, hexec, ?_⟩
      have hleft : (l.ended ++ [c]).length + l.gone.length < l.ccount := by
        rw [hcount]
        omega
      have hupdate := launchUpdate_partial (s := { s with reports := [] }) (m := { l with ended := l.ended ++ [c] }) hl rfl hpost hleft
      dsimp only
      rw [hupdate]
      exact ⟨rfl, rfl, rfl⟩
    · rw [hx] at hexec
      refine ⟨_, hexec, ?_⟩
      have hleft : (l.ended ++ [c]).length + l.gone.length = l.ccount := by
        rw [hcount]
        omega
      have hupdate := launchUpdate_last (s := { s with reports := [] }) (m := { l with ended := l.ended ++ [c] }) hl rfl hpost hleft
      obtain ⟨hp, -⟩ := post_posts (s := { s with reports := [] }) (f := l.f) (r := l.r) hup herr l.seq l.lid (if l.gone = [] then 0 else 5)
        (l.ended.length + 1) 0x7FF 0
      have honly := hostOnly_post { s with reports := [] } l.h l.f l.r l.seq l.lid (if l.gone = [] then 0 else 5) (l.ended.length + 1) 0x7FF 0
      dsimp only at hupdate ⊢
      rw [hupdate, hcount]
      exact ⟨hp.of_after rfl rfl, rfl, honly.reports, honly.mem⟩
    · rw [hx] at hexec
      refine ⟨_, hexec, ?_⟩
      dsimp only
      obtain ⟨launches, sends, hfault⟩ := launchFault_posts (s := { s with reports := [] }) hl hfence hpost c code
      obtain ⟨hp, -⟩ := post_posts (s := { s with reports := [] }) (f := l.f) (r := l.r) hup herr l.seq l.lid 1 l.ended.length c code
      have honly := hostOnly_post { s with reports := [] } l.h l.f l.r l.seq l.lid 1 l.ended.length c code
      rw [hfault]
      exact ⟨hp.of_after rfl rfl, honly.reports, honly.mem⟩
  · intro s h f r hh hf hr hup
    have hreach := ringReachable_of hh hf hr hup
    obtain ⟨t, ht, honly, hunsig, hout⟩ := msixCoalesceTimer_effect hreach
    obtain ⟨u, hu, honly', hout', hring, hdrop⟩ := completionWriteError_effect hreach hup
    exact ⟨⟨t, ht, honly.mem, honly.cores, hunsig, hout⟩, ⟨u, hu, honly'.mem, honly'.cores, hout', hring, hdrop⟩⟩
  · exact fun s h p hh hp => vfFlr_effect s hh hp
  · exact fun s h hh => pfFlr_effect s hh
  · exact fun s h pin hh => perstAssert_effect s hh pin
  · intro s h hh
    have hexec : exec (.perstRelease h) s = execPerstRelease h s := rfl
    exact ⟨_, hexec.trans (congrArg Host.Outcome.next (if_pos hh)), rfl, host_modHost _ _ _⟩
  · intro s h speed width flit hh hperst hdom
    have hexec : exec (.hostLinkUp h speed width flit) s = execHostLinkUp h speed width flit s := rfl
    refine ⟨_, hexec.trans (congrArg Host.Outcome.next (if_pos ⟨hh, ?_, hdom⟩)), rfl, host_modHost _ _ _⟩
    rw [hperst]
    rfl
end

section
/-!
SUPPORT. Accesses of hosts to memory through BAR2 (R350 to R355).
-/

namespace Sys2Proof.Machine

/-! ### Addresses (R351 to R353) -/

theorem barAddr_pf {s : State} {h off x : Nat} (hx : x = ((s.host h).fn 0).gib * 2 ^ 30 + off) :
    (off < 2 ^ ((s.host h).fn 0).bar2 → x < 0xC000000000 → barAddr s h 0 off = some (0x010000000000 + x)) ∧
      (2 ^ ((s.host h).fn 0).bar2 ≤ off → barAddr s h 0 off = none) := by
  have hno : noPart s h 0 = false := rfl
  refine ⟨fun hoff hlt => ?_, fun hoff => ?_⟩
  · rw [barAddr, hno, decide_eq_false (by omega), if_neg (by decide), if_pos rfl, ← hx, viewAddr, if_pos rfl, if_pos]
    · rfl
    · rw [stackSize]
      omega
  · rw [barAddr, decide_eq_true hoff, Bool.or_true, if_pos rfl]

/-- An address of a view: of the PF anywhere in HBM, of a VF in a unit of its partition. -/
theorem viewAddr_cases {s : State} {f x a : Nat} (h : viewAddr s f x = some a) :
    (f = 0 ∧ hbmBase ≤ a) ∨ (f ≠ 0 ∧ ∃ u < 768, unitOwner s u = some (f - 1) ∧ a = unitAddr u + x % 2 ^ 30) := by
  rw [viewAddr] at h
  split at h
  · next hf =>
    split at h
    · obtain rfl := Option.some.inj h
      exact .inl ⟨hf, Nat.le_add_right _ _⟩
    · cases h
  · next hf =>
    obtain ⟨u, hu, rfl⟩ := Option.map_eq_some_iff.1 h
    have hmem := List.mem_of_getElem? hu
    rw [ownedUnits, List.mem_filter, List.mem_range, beq_iff_eq] at hmem
    exact .inr ⟨hf, u, hmem.1, hmem.2, rfl⟩

theorem hbmUnit_of_unit {u b : Nat} (hlo : unitAddr u ≤ b) (hhi : b < unitAddr u + 2 ^ 30) : hbmUnit b = u := by
  rw [unitAddr, hbmBase, stackSize] at hlo hhi
  rw [hbmUnit, hbmBase, stackSize]
  omega

theorem mem_blocksOf {a n b : Nat} (h : b ∈ blocksOf a n) : a / 256 * 256 ≤ b ∧ b < a + n := by
  rw [blocksOf] at h
  split at h
  · cases h
  · obtain ⟨i, hi, rfl⟩ := List.mem_map.1 h
    rw [List.mem_range] at hi
    constructor <;> omega

/-- A host reaches nothing but what its function's view holds (R353). -/
theorem hbmCheck_of_view {s : State} {h f x a n : Nat} (hview : viewAddr s f x = some a)
    (hunit : (x + n - 1) / 2 ^ 30 = x / 2 ^ 30) : hbmCheck s (reqOwner s (.host h f)) a n = hbmCheck s none a n := by
  rcases viewAddr_cases hview with ⟨rfl, -⟩ | ⟨hf, u, -, howner, rfl⟩
  · rfl
  · have hreq : reqOwner s (.host h f) = some (f - 1) := if_neg hf
    have hnone : (blocksOf (unitAddr u + x % 2 ^ 30) n).any (fun b => isHbm b && unitOwner s (hbmUnit b) != some (f - 1)) = false := by
      rw [List.any_eq_false]
      intro b hb
      obtain ⟨hlo, hhi⟩ := mem_blocksOf hb
      have hu : hbmUnit b = u := hbmUnit_of_unit (by rw [unitAddr, hbmBase, stackSize] at hlo ⊢; omega) (by omega)
      rw [hu, howner]
      simp
    rw [hreq, hbmCheck, hbmCheck]
    refine (if_neg fun hx => ?_).trans (if_neg fun hx => hx.1 rfl).symm
    exact Bool.noConfusion (hnone.symm.trans hx.2)

theorem barAddr_view {s : State} {h f off a : Nat} (hb : barAddr s h f off = some a) :
    ∃ x, viewAddr s f x = some a ∧ (x = off ∨ ∃ k, x = k * 2 ^ 30 + off) := by
  rw [barAddr] at hb
  split at hb
  · cases hb
  · refine ⟨_, hb, ?_⟩
    split
    · exact .inr ⟨_, rfl⟩
    · exact .inl rfl

theorem hbmCheck_of_bar {s : State} {h f off a n : Nat} (hb : barAddr s h f off = some a) (hn : 0 < n)
    (hunit : (off + n - 1) / 2 ^ 30 = off / 2 ^ 30) : hbmCheck s (reqOwner s (.host h f)) a n = hbmCheck s none a n := by
  obtain ⟨x, hview, hx⟩ := barAddr_view hb
  refine hbmCheck_of_view hview ?_
  rcases hx with rfl | ⟨k, rfl⟩
  · exact hunit
  · omega

theorem hbmBase_le_of_bar {s : State} {h f off a : Nat} (hb : barAddr s h f off = some a) : hbmBase ≤ a := by
  obtain ⟨x, hview, -⟩ := barAddr_view hb
  rcases viewAddr_cases hview with ⟨-, ha⟩ | ⟨-, u, -, -, rfl⟩
  · exact ha
  · rw [unitAddr]
    omega

/-! ### Pieces (R353) -/

theorem barPieces_first (s : State) {h f off n : Nat} (hn : 0 < n) :
    ∃ m ps, barPieces s h f off n = (off, barAddr s h f off, m) :: ps := by
  obtain ⟨k, hk⟩ : ∃ k, (off + n - 1) / 2 ^ 30 + 1 - off / 2 ^ 30 = k + 1 := ⟨(off + n - 1) / 2 ^ 30 - off / 2 ^ 30, by omega⟩
  have hlo : max off ((off / 2 ^ 30 + 0) * 2 ^ 30) = off := by omega
  rw [barPieces, hk, List.range_succ_eq_map, List.map_cons]
  dsimp only
  rw [hlo]
  exact ⟨_, _, rfl⟩

theorem barPieces_one (s : State) {h f off n : Nat} (hunit : (off + n - 1) / 2 ^ 30 = off / 2 ^ 30) :
    barPieces s h f off n = [(off, barAddr s h f off, n)] := by
  have hk : (off + n - 1) / 2 ^ 30 + 1 - off / 2 ^ 30 = 1 := by omega
  have hlo : max off ((off / 2 ^ 30 + 0) * 2 ^ 30) = off := by omega
  have hhi : min (off + n) ((off / 2 ^ 30 + 0 + 1) * 2 ^ 30) = off + n := by omega
  rw [barPieces, hk, List.range_one, List.map_singleton]
  dsimp only
  rw [hlo, hhi, Nat.add_sub_cancel_left]

/-! ### What is refused (R354) -/

/-- Of `s`, `t` changes what refusals are counted in, at most. -/
def RefuseOnly (s t : State) : Prop :=
  t = { s with
    fields := t.fields
    hbms := t.hbms
    shared := t.shared
    cntUnmapped := t.cntUnmapped
    partUnmapped := t.partUnmapped
    cntDenied := t.cntDenied
    cntSize := t.cntSize }

theorem refuseOnly_hbmRefused (s : State) (req : Requester) (a n : Nat) (r : RSt) : RefuseOnly s (hbmRefused s req a n r) := by
  have hdie : ∀ u : State, RefuseOnly s u → ∀ die i part score, RefuseOnly s (dropAtDie u die i part score) := fun u hu die i part score => by
    rw [RefuseOnly] at hu ⊢
    rw [dropAtDie]
    split
    · rw [hu]
      rfl
    · exact hu
  have hcount : RefuseOnly s (countStatus s (reqClass s req) r) := by cases r <;> rfl
  unfold hbmRefused
  extract_lets part u
  change RefuseOnly s u at hcount
  clear_value u
  split
  · split
    · rw [RefuseOnly] at hcount ⊢
      rw [hcount]
      rfl
    · exact hcount
  · split
    · exact hdie u hcount _ _ _ _
    · exact hcount
  · exact hcount

theorem RefuseOnly.hosts {s t : State} (h : RefuseOnly s t) : t.hosts = s.hosts := by rw [h]

/-! ### The data of a read (R350) -/

theorem foldl_emit {α : Type} (o : α → Output) (s : State) (l : List α) :
    l.foldl (fun s x => emit s (o x)) s = { s with out := s.out ++ l.map o } := by
  induction l generalizing s with
  | nil =>
    rw [List.map_nil, List.append_nil]
    rfl
  | cons x l ih =>
    rw [List.foldl_cons, ih, List.map_cons]
    change ({ s with out := s.out ++ [o x] ++ l.map o } : State) = _
    rw [List.append_assoc]
    rfl

theorem barData_sound (s : State) (h f off : Nat) (ok : Bool) (bs : Bytes) :
    barData s h f off ok bs [] =
      { s with out := s.out ++ (tlps bs.length).map (fun x => .hostData h f (off + x.1) ok false ((bs.drop x.1).take x.2)) } := by
  rw [barData, if_pos rfl]
  exact foldl_emit _ s _

theorem tlps_within {n : Nat} {x : Nat × Nat} (h : x ∈ tlps n) : x.1 + x.2 ≤ n := by
  rw [tlps] at h
  split at h
  · rw [List.mem_singleton.1 h]
    dsimp only
    omega
  · obtain ⟨i, hi, rfl⟩ := List.mem_map.1 h
    rw [List.mem_range] at hi
    dsimp only
    omega

/-! ### Requests (R353, R354) -/

/-- The request of a host for the HBM of one unit of its view. -/
def hostReq (h f a n : Nat) (w : Option Bytes) (poisoned : Bool) : HbmReq :=
  { req := .host h f, remote := false, addr := a, len := n, write := w, poison := poisoned, parity := false }

theorem barServe_one (s : State) (h f off a n : Nat) (w : Option Bytes) (poisoned : Bool) :
    barServe s h f [(off, some a, n)] w off poisoned =
      if hbmHeld s none a n then hbmWait s ⟨hostReq h f a n (w.map fun bs => bs.take n) poisoned, some off⟩
      else hbmServe s ⟨hostReq h f a n (w.map fun bs => bs.take n) poisoned, some off⟩ := by
  rw [barServe, List.foldl_cons, List.foldl_nil]
  dsimp only
  rw [Nat.sub_self]
  simp only [List.drop_zero]
  rfl

theorem barCheck_none (s : State) (h f off a n : Nat) (hok : hbmCheck s none a n = .ok) : barCheck s h f [(off, some a, n)] = none := by
  rw [barCheck, if_neg (by simp), List.find?_cons_of_neg (by simp [hok])]
  rfl

theorem barCheck_refused (s : State) (h f off a n : Nat) (hno : hbmCheck s none a n ≠ .ok) :
    barCheck s h f [(off, some a, n)] = some (barRefused s h f a n) := by
  rw [barCheck, if_neg (by simp), List.find?_cons_of_pos (by simp [hno])]
  rfl

theorem barCheck_absent (s : State) (h f off m : Nat) (ps : List (Nat × Option Nat × Nat)) :
    barCheck s h f ((off, none, m) :: ps) = some (aerReport s h f 20) := by
  rw [barCheck, if_pos (by simp)]

/-- A request that came over no mesh and whose bus was sound is served at once (R331 to R336). -/
theorem hbmServe_plain (s : State) {w : HbmWait} (hr : w.req.remote = false) (hn : hbmLen w.req ≤ 4096) (hp : w.req.parity = false)
    {u : State} {m : MemAns} (hacc : hbmAccess s w.req.req (reqOwner s w.req.req) w.req.addr (hbmLen w.req) (hbmData w.req) = (u, m)) :
    hbmServe s w = hbmAnswer u w (if m.st = .ok && w.req.poison then .uncorrected else m.st) m.data m.poison := by
  have hlen : decide (4096 < hbmLen w.req) = false := decide_eq_false (by omega)
  rw [hbmServe]
  dsimp only
  rw [if_neg (by rw [hr]; decide), if_neg (by rw [hlen]; exact Bool.false_ne_true), if_neg (by rw [hp]; exact Bool.false_ne_true), hacc]

theorem hbmServe_read {s : State} {h f off a n : Nat} (hn : n ≤ 4096) (hok : hbmCheck s (reqOwner s (.host h f)) a n = .ok)
    (hs : HbmSound s a n) :
    ∃ u, hbmServe s ⟨hostReq h f a n none false, some off⟩ =
        { u with out := u.out ++ (tlps n).map (fun x => .hostData h f (off + x.1) true false
          ((((List.range n).map (fun i => hbmByte s (a + i))).drop x.1).take x.2)) } ∧ StackShared s u := by
  obtain ⟨u, hacc, hu⟩ := hbmAccess_read hok hs (.host h f)
  refine ⟨u, ?_, hu⟩
  refine (hbmServe_plain s (w := ⟨hostReq h f a n none false, some off⟩) rfl hn rfl hacc).trans ((barData_sound u h f off true _).trans ?_)
  rw [List.length_map, List.length_range]

theorem hbmServe_write {s : State} {h f off a : Nat} {bs : Bytes} {poisoned : Bool} (hlen : bs.length ≤ 4096) (hn : 0 < bs.length)
    (hok : hbmCheck s (reqOwner s (.host h f)) a bs.length = .ok) (ha : hbmBase ≤ a) (hw : MemInv s) (hs : HbmSound s a bs.length) :
    HbmOnly s (hbmServe s ⟨hostReq h f a bs.length (some bs) poisoned, some off⟩) ∧
      HbmWritten s (hbmServe s ⟨hostReq h f a bs.length (some bs) poisoned, some off⟩) a bs ∧
      (poisoned = true → ∀ w ∈ words64 a bs.length,
        mfind (hbmServe s ⟨hostReq h f a bs.length (some bs) poisoned, some off⟩).marks (hbmPos s w) = some .poisoned) := by
  obtain ⟨u, hacc, hu, -, hwritten, hpois⟩ := hbmAccess_write hok ha hw hs hn (.host h f)
    (if poisoned then (wordsOf a bs.length).map (fun w => w - a) else [])
  have hserve : hbmServe s ⟨hostReq h f a bs.length (some bs) poisoned, some off⟩ = u := by
    exact hbmServe_plain s (w := ⟨hostReq h f a bs.length (some bs) poisoned, some off⟩) rfl hlen rfl hacc
  rw [hserve]
  refine ⟨hu, hwritten, fun hp w hw => hpois w hw ?_⟩
  obtain ⟨hd, hlt, hgt⟩ := (mem_words64 hn).1 hw
  rw [hp, if_pos rfl, poisonsWord, List.any_map, List.any_eq_true]
  refine ⟨max a w / 8 * 8, ?_, ?_⟩
  · rw [wordsOf, if_neg (by omega), List.mem_map]
    refine ⟨max a w / 8 - a / 8, ?_, by omega⟩
    rw [List.mem_range]
    omega
  · simp only [Function.comp_apply, Bool.and_eq_true, decide_eq_true_eq]
    omega

end Sys2Proof.Machine
end

section
/-!
Accesses of hosts to memory and rings (R350 to R358).
-/

namespace Sys2Proof.Machine

/-! ### Errors of a function (R350) -/

theorem aer_aerReport (s : State) (h f b : Nat) : (((aerReport s h f b).host h).fn f).aer = ((s.host h).fn f).aer ||| 2 ^ b := by
  rw [aerReport, fn_modFn]

theorem drop_aerReport (s : State) (h f b : Nat) : (((aerReport s h f b).host h).fn f).drop = ((s.host h).fn f).drop := by
  rw [aerReport, fn_modFn]

theorem drop_countDrop (s : State) (h f : Nat) : (((countDrop s h f).host h).fn f).drop = satInc ((s.host h).fn f).drop 1 := by
  rw [countDrop, fn_modFn]

theorem aer_countDrop (s : State) (h f : Nat) : (((countDrop s h f).host h).fn f).aer = ((s.host h).fn f).aer := by
  rw [countDrop, fn_modFn]

/-! ### Reads through BAR2 (R353, R354) -/

section

variable {s : State} {h f off n : Nat} (hh : h < 2) (hf : f < 17) (hup : (s.host h).up = true)

include hh hf hup

theorem bar2_up : (decide (2 ≤ h) || decide (17 ≤ f) || !(s.host h).up) = false := by
  rw [hup, decide_eq_false (by omega), decide_eq_false (by omega)]
  rfl

theorem bar2_reachable : ¬(2 ≤ h || 17 ≤ f || !(s.host h).up) = true := by
  rw [bar2_up hh hf hup]
  exact Bool.false_ne_true

theorem bar2Read_refused {rd : HostRead} (hrd : rd.atomic = true ∨ 4096 < rd.len) :
    exec (.bar2Read h f off rd) s = .next (emit (aerReport s h f 20) (.hostData h f off false false [])) := by
  have hexec : exec (.bar2Read h f off rd) s = execBar2Read h f off rd s := rfl
  rw [hexec, execBar2Read, if_neg (bar2_reachable hh hf hup), if_pos]
  rcases hrd with ha | hl
  · rw [ha]
    rfl
  · rw [decide_eq_true hl, Bool.or_true]

theorem bar2Read_reset (hreset : barInReset s f = true) (hn : n ≤ 4096) :
    exec (.bar2Read h f off ⟨n, false⟩) s = .next (barData (countDrop s h f) h f off true (List.replicate n 0xFF) []) := by
  have hexec : exec (.bar2Read h f off ⟨n, false⟩) s = execBar2Read h f off ⟨n, false⟩ s := rfl
  rw [hexec, execBar2Read, if_neg (bar2_reachable hh hf hup), if_neg, if_pos hreset]
  rw [decide_eq_false (by omega : ¬4096 < n)]
  exact Bool.false_ne_true

theorem bar2Read_serves (hreset : barInReset s f = false) (hn : n ≤ 4096) :
    exec (.bar2Read h f off ⟨n, false⟩) s = .next (match barCheck s h f (barPieces s h f off n) with
      | some t => emit t (.hostData h f off false false [])
      | none => barServe s h f (barPieces s h f off n) none off false) := by
  have hexec : exec (.bar2Read h f off ⟨n, false⟩) s = execBar2Read h f off ⟨n, false⟩ s := rfl
  rewrite [hexec, execBar2Read, if_neg (bar2_reachable hh hf hup), if_neg, if_neg (by rw [hreset]; exact Bool.false_ne_true)]
  · cases hcheck : barCheck s h f (barPieces s h f off n) <;> simp only [hcheck]
  · rw [decide_eq_false (by omega : ¬4096 < n)]
    exact Bool.false_ne_true

/-! ### Writes through BAR2 (R353 to R355) -/

theorem bar2Write_long {bs : Bytes} (hlen : 512 < bs.length) (z : Bool) : exec (.bar2Write h f off bs z) s = .next (aerReport s h f 18) := by
  have hexec : exec (.bar2Write h f off bs z) s = execBar2Write h f off bs z s := rfl
  rw [hexec, execBar2Write, if_neg (bar2_reachable hh hf hup), if_pos hlen]

theorem bar2Write_reset (hreset : barInReset s f = true) {bs : Bytes} (hlen : bs.length ≤ 512) (z : Bool) :
    exec (.bar2Write h f off bs z) s = .next (countDrop s h f) := by
  have hexec : exec (.bar2Write h f off bs z) s = execBar2Write h f off bs z s := rfl
  rw [hexec, execBar2Write, if_neg (bar2_reachable hh hf hup), if_neg (by omega), if_pos hreset]

theorem bar2Write_serves (hreset : barInReset s f = false) {bs : Bytes} (hlen : bs.length ≤ 512)
    (hcheck : ∀ t : State, t = { s with hosts := t.hosts } → barCheck t h f (barPieces s h f off bs.length) = none) (z : Bool) :
    exec (.bar2Write h f off bs z) s = .next (barServe (if z then countDrop (aerReport s h f 12) h f else s) h f
      (barPieces s h f off bs.length) (some bs) off z) := by
  have hexec : exec (.bar2Write h f off bs z) s = execBar2Write h f off bs z s := rfl
  rw [hexec, execBar2Write, if_neg (bar2_reachable hh hf hup), if_neg (by omega), if_neg (by rw [hreset]; exact Bool.false_ne_true)]
  dsimp only
  cases z with
  | true => rw [if_pos rfl, hcheck _ rfl]; rfl
  | false => rw [if_neg Bool.false_ne_true, hcheck _ rfl]; rfl

end

/-! ### Doorbells and ring registers (R355 to R358) -/

section

variable {s : State} {h f r : Nat} (hreach : ringReachable s h f r = true)

include hreach

theorem sqtailWrite_counts (v : W32) (hreset : fnInReset s f = true) : exec (.sqtailWrite h f r v) s = .next (countDrop s h f) := by
  have hexec : exec (.sqtailWrite h f r v) s = .next (sqtailWrite s h f r v) := rfl
  rw [hexec, sqtailWrite, if_neg (by rw [hreach]; decide), if_pos hreset]

theorem sqtailWrite_moves {v : W32} (hreset : fnInReset s f = false) (hv : v.toNat % 2 ^ 16 < 2 ^ (ringOf s h f r).log2sz) :
    exec (.sqtailWrite h f r v) s = .next (modRing s h f r fun g => { g with sqtail := v.toNat % 2 ^ 16 }) := by
  have hexec : exec (.sqtailWrite h f r v) s = .next (sqtailWrite s h f r v) := rfl
  rw [hexec, sqtailWrite, if_neg (by rw [hreach]; decide), if_neg (by rw [hreset]; decide)]
  refine congrArg Host.Outcome.next (if_neg ?_)
  exact Nat.not_le.2 hv

theorem sqtailWrite_stops {v : W32} (hreset : fnInReset s f = false) (hv : 2 ^ (ringOf s h f r).log2sz ≤ v.toNat % 2 ^ 16) :
    exec (.sqtailWrite h f r v) s = .next (stopRing s h f r 1) := by
  have hexec : exec (.sqtailWrite h f r v) s = .next (sqtailWrite s h f r v) := rfl
  rw [hexec, sqtailWrite, if_neg (by rw [hreach]; decide), if_neg (by rw [hreset]; decide)]
  exact congrArg Host.Outcome.next (if_pos hv)

end

/-- A ring as a write to a base of it leaves it (R358). -/
def ringBased (x : RingReg) (v : W32) (g : Ring) : Ring :=
  if g.en || g.out != 0 then g
  else
    match x with
    | .sqbase => { g with sqbase := v.toNat % 2 ^ 28 }
    | .cqbaseLo => { g with cqlo := v.toNat / 2 ^ 12 }
    | .cqbaseHi => { g with cqhi := v.toNat }

/-- A ring as the fields of a write to its CTRL leave it, before EN acts (Table 11.12). -/
def ringSized (v : W32) (g : Ring) : Ring :=
  { g with
    log2sz := if !g.en && g.out == 0 && decide (4 ≤ v.toNat % 32) && decide (v.toNat % 32 ≤ 16) then v.toNat % 32 else g.log2sz
    err := g.err && !(v.toNat.testBit 30 && !g.en)
    cause := if v.toNat.testBit 30 && !g.en then 0 else g.cause }

/-- A ring as it is enabled (R358). -/
def ringStarted (g : Ring) : Ring :=
  { g with en := true, sqtail := 0, sqhead := 0, cqhead := 0, cqtail := 0, phase := true, used := 0, unsig := 0 }

/-- The state with a ring enabled (R356, R358). -/
def ringEnabled (s : State) (h f r : Nat) : State :=
  let s := modRing s h f r ringStarted
  if ringInView s f (ringOf s h f r) then s else stopRing s h f r 2

theorem ringCtrlWrite_eq {s : State} {h f r : Nat} (hreach : ringReachable s h f r = true) (v : W32) :
    exec (.ringCtrlWrite h f r v) s = .next (if (v.toNat.testBit 31 && !(ringOf s h f r).en) = true
      then ringEnabled (modRing s h f r (ringSized v)) h f r
      else modRing (modRing s h f r (ringSized v)) h f r fun g => { g with en := v.toNat.testBit 31 }) := by
  have hexec : exec (.ringCtrlWrite h f r v) s = .next (ringCtrlWrite s h f r v) := rfl
  rw [hexec, ringCtrlWrite, if_neg (by rw [hreach]; decide)]
  rfl

theorem ringEnabled_effect {s : State} {h f r : Nat} (hup : (s.host h).up = true) :
    HostOnly s (ringEnabled s h f r) ∧ ∃ g, ringOf (ringEnabled s h f r) h f r = g ∧
      g = { ringStarted (ringOf s h f r) with err := g.err, cause := g.cause } ∧
      (ringInView (ringEnabled s h f r) f g = false → g.err = true ∧
        g.cause = if (ringOf s h f r).err && (ringOf s h f r).cause == 3 then 3 else 2) := by
  have hring : ringOf (modRing s h f r ringStarted) h f r = ringStarted (ringOf s h f r) := ringOf_modRing s h f r _
  rw [ringEnabled]
  dsimp only
  split
  · next hview =>
    refine ⟨rfl, _, rfl, ?_, fun hno => absurd (hno.symm.trans hview) (by decide)⟩
    rw [hring]
  · have hup' : ((modRing s h f r ringStarted).host h).up = true := (up_modFn s h f h _).trans hup
    obtain ⟨-, hstop, -⟩ := stopRing_effect (f := f) (r := r) hup' 2
    refine ⟨(hostOnly_modRing s h f r _).trans (hostOnly_stopRing _ h f r 2), _, hstop, ?_, fun _ => ⟨rfl, ?_⟩⟩
    · rw [hring]
    · rw [hring]
      rfl

end Sys2Proof.Machine
end

section
/-!
Accesses of hosts to memory and rings (R350 to R358): the rules of chapter 11 together.
-/

namespace Sys2Proof.Machine

section

variable {s : State} {h f off a n : Nat} (hh : h < 2) (hf : f < 17) (hup : (s.host h).up = true) (hreset : barInReset s f = false)
  (hn : 0 < n) (hunit : (off + n - 1) / 2 ^ 30 = off / 2 ^ 30) (hbar : barAddr s h f off = some a)

theorem hbmHeld_of_wait {part : Option Nat} (hok : hbmCheck s part a n = .ok)
    (hwait : ∃ q ∈ hbmPieces s a n, (s.stack q.1).waiting ≠ [] ∨ (s.stack q.1).tokens < hbmNeed s a n q.1) : hbmHeld s part a n = true := by
  obtain ⟨q, hq, hw⟩ := hwait
  rw [hbmHeld, hok]
  rcases hw with hw | hw
  · have hany : (hbmPieces s a n).any (fun p => (s.stack p.1).waiting != []) = true := List.any_eq_true.2 ⟨q, hq, bne_iff_ne.2 hw⟩
    rw [hany]
    rfl
  · have hall : hasTokens s a n = false := by
      rw [hasTokens, List.all_eq_false]
      exact ⟨q, hq, by simpa using hw⟩
    rw [hall, Bool.not_false, Bool.or_true]
    rfl

include hh hf hup hreset hn hunit hbar

theorem bar2Read_data (hn' : n ≤ 4096) (hok : hbmCheck s none a n = .ok) (hs : HbmSound s a n)
    (htok : ∀ q ∈ hbmPieces s a n, (s.stack q.1).waiting = [] ∧ hbmNeed s a n q.1 ≤ (s.stack q.1).tokens) :
    ∃ t u, exec (.bar2Read h f off ⟨n, false⟩) s = .next t ∧ StackShared s u ∧
      t = { u with out := u.out ++ (tlps n).map (fun x => .hostData h f (off + x.1) true false
        ((((List.range n).map (fun i => hbmByte s (a + i))).drop x.1).take x.2)) } := by
  obtain ⟨u, hserve, hu⟩ := hbmServe_read (h := h) (f := f) (off := off) hn' ((hbmCheck_of_bar hbar hn hunit).trans hok) hs
  refine ⟨_, u, ?_, hu, hserve⟩
  rw [bar2Read_serves hh hf hup hreset hn', barPieces_one s hunit, hbar, barCheck_none s h f off a n hok, barServe_one,
    hbmHeld_of_tokens htok]
  rfl

omit hn in
theorem bar2Read_waits (hn' : n ≤ 4096) (hok : hbmCheck s none a n = .ok)
    (hwait : ∃ q ∈ hbmPieces s a n, (s.stack q.1).waiting ≠ [] ∨ (s.stack q.1).tokens < hbmNeed s a n q.1) :
    exec (.bar2Read h f off ⟨n, false⟩) s = .next (hbmWait s ⟨hostReq h f a n none false, some off⟩) := by
  rw [bar2Read_serves hh hf hup hreset hn', barPieces_one s hunit, hbar, barCheck_none s h f off a n hok, barServe_one,
    hbmHeld_of_wait hok hwait]
  rfl

omit hn in
theorem bar2Read_denied (hn' : n ≤ 4096) (hno : hbmCheck s none a n ≠ .ok) :
    exec (.bar2Read h f off ⟨n, false⟩) s = .next (emit (barRefused s h f a n) (.hostData h f off false false [])) := by
  rw [bar2Read_serves hh hf hup hreset hn', barPieces_one s hunit, hbar, barCheck_refused s h f off a n hno]

theorem bar2Write_bytes {bs : Bytes} (hbs : bs.length = n) (hn' : n ≤ 512) (hw : MemInv s) (hok : hbmCheck s none a n = .ok)
    (hs : HbmSound s a n) (htok : ∀ q ∈ hbmPieces s a n, (s.stack q.1).waiting = [] ∧ hbmNeed s a n q.1 ≤ (s.stack q.1).tokens) (z : Bool) :
    ∃ t, exec (.bar2Write h f off bs z) s = .next t ∧ HbmOnly (if z then countDrop (aerReport s h f 12) h f else s) t ∧ HbmWritten s t a bs ∧
      (z = true → ∀ w ∈ words64 a n, mfind t.marks (hbmPos s w) = some .poisoned) := by
  subst hbs
  have hhosts : (if z then countDrop (aerReport s h f 12) h f else s) =
      { s with hosts := (if z then countDrop (aerReport s h f 12) h f else s).hosts } := by cases z <;> rfl
  have hserves := bar2Write_serves hh hf hup hreset (off := off) hn' (fun t ht => by
    rw [barPieces_one s hunit, hbar]
    exact barCheck_none t h f off a bs.length ((hbmCheck_of_hosts ht none a _).trans hok)) z
  rw [barPieces_one s hunit, hbar, barServe_one] at hserves
  generalize (if z then countDrop (aerReport s h f 12) h f else s) = u at hhosts hserves ⊢
  have hheld : hbmHeld u none a bs.length = false := by
    rw [hhosts]
    exact hbmHeld_of_tokens htok
  have hcheck : hbmCheck u (reqOwner u (.host h f)) a bs.length = .ok := by
    rw [hhosts]
    exact (hbmCheck_of_bar hbar hn hunit).trans hok
  have hwu : MemInv u := by
    rw [hhosts]
    exact hw
  obtain ⟨honly, hwritten, hpois⟩ := hbmServe_write (off := off) (poisoned := z) (by omega : bs.length ≤ 4096) hn hcheck (hbmBase_le_of_bar hbar) hwu
    (hbmSound_of_hosts hhosts hs)
  rw [hheld, Option.map_some, List.take_length] at hserves
  refine ⟨_, hserves, honly, ?_, ?_⟩
  · rw [hhosts] at hwritten ⊢
    exact hwritten
  · rw [hhosts] at hpois ⊢
    exact hpois

end

theorem barRefused_effect (s : State) (h f a n : Nat) :
    (barRefused s h f a n).mem = s.mem ∧ (barRefused s h f a n).cores = s.cores ∧ (barRefused s h f a n).out = s.out ∧
      (((barRefused s h f a n).host h).fn f).drop = satInc ((s.host h).fn f).drop 1 := by
  have hr := refuseOnly_hbmRefused s (.host h f) a n (hbmCheck s none a n)
  rw [barRefused]
  generalize hbmRefused s (.host h f) a n (hbmCheck s none a n) = u at hr ⊢
  refine ⟨?_, ?_, ?_, ?_⟩
  · change u.mem = s.mem
    rw [hr]
  · change u.cores = s.cores
    rw [hr]
  · change u.out = s.out
    rw [hr]
  · rw [drop_aerReport, drop_countDrop, fn_of_hosts hr.hosts]

theorem bar2Read_nowhere {s : State} {h f off n : Nat} (hh : h < 2) (hf : f < 17) (hup : (s.host h).up = true)
    (hno : 4096 < n ∨ (barInReset s f = false ∧ 0 < n ∧ barAddr s h f off = none)) :
    exec (.bar2Read h f off ⟨n, false⟩) s = .next (emit (aerReport s h f 20) (.hostData h f off false false [])) := by
  by_cases hn : 4096 < n
  · exact bar2Read_refused hh hf hup (.inr hn)
  · obtain ⟨hreset, hpos, hbar⟩ := hno.resolve_left hn
    obtain ⟨m, ps, hps⟩ := barPieces_first s (h := h) (f := f) (off := off) hpos
    rw [bar2Read_serves hh hf hup hreset (by omega), hps, hbar, barCheck_absent]

theorem replicate_piece {α : Type} (x : α) {n i k : Nat} (h : i + k ≤ n) : ((List.replicate n x).drop i).take k = List.replicate k x := by
  rw [List.drop_replicate, List.take_replicate, Nat.min_eq_left (by omega)]

theorem ringInView_of_hosts {s t : State} (h : HostOnly s t) (f : Nat) (g : Ring) : ringInView t f g = ringInView s f g := by
  rw [h]
  rfl

theorem pba_sendVector {s : State} {h f v : Nat} (hm : ((s.host h).fn f).masked v = true) :
    (((sendVector s h f v).host h).fn f).pba = ((s.host h).fn f).pba ||| 2 ^ v := by
  rw [sendVector, if_pos hm, fn_modFn]

theorem pba_stopRing {s : State} {h f r : Nat} (hup : (s.host h).up = true) (hm : ((s.host h).fn f).masked 4 = true) (cause : Nat) :
    (((stopRing s h f r cause).host h).fn f).pba = ((s.host h).fn f).pba ||| 2 ^ 4 := by
  have hup' : ∀ g, ((modRing s h f r g).host h).up = true := fun g => (up_modFn s h f h _).trans hup
  rw [stopRing, functionEvent, if_pos (hup' _), pba_sendVector ((masked_modRing s h f r h f 4 _).trans hm), modRing, fn_modFn]

/-- R358: what a write to CTRL leaves of its ring. -/
theorem ringCtrlWrite_effect {s : State} {h f r : Nat} (hreach : ringReachable s h f r = true) (hup : (s.host h).up = true) (v : W32) :
    ∃ t, exec (.ringCtrlWrite h f r v) s = .next t ∧ HostOnly s t ∧ (ringOf t h f r).en = v.toNat.testBit 31 ∧
      (ringOf t h f r).log2sz = (ringSized v (ringOf s h f r)).log2sz ∧
      (v.toNat.testBit 31 = true → (ringOf s h f r).en = false → (ringOf t h f r).sqtail = 0 ∧ (ringOf t h f r).sqhead = 0 ∧
        (ringOf t h f r).cqtail = 0 ∧ (ringOf t h f r).cqhead = 0 ∧ (ringOf t h f r).phase = true ∧
        (ringInView t f (ringOf t h f r) = false → (ringOf t h f r).err = true ∧
          (ringOf t h f r).cause =
            if (ringSized v (ringOf s h f r)).err && (ringSized v (ringOf s h f r)).cause == 3 then 3 else 2)) ∧
      (v.toNat.testBit 31 = false → (ringOf t h f r).sqtail = (ringOf s h f r).sqtail ∧ (ringOf t h f r).sqhead = (ringOf s h f r).sqhead) := by
  have hsized : ringOf (modRing s h f r (ringSized v)) h f r = ringSized v (ringOf s h f r) := ringOf_modRing s h f r _
  have honly := hostOnly_modRing s h f r (ringSized v)
  have hup' : ((modRing s h f r (ringSized v)).host h).up = true := (up_modFn s h f h _).trans hup
  rw [ringCtrlWrite_eq hreach]
  generalize modRing s h f r (ringSized v) = u at hsized honly hup' ⊢
  split
  · next hc =>
    obtain ⟨h31, hen⟩ := Bool.and_eq_true_iff.1 hc
    obtain ⟨henabled, g, hring, hg, herr⟩ := ringEnabled_effect (f := f) (r := r) hup'
    rw [hsized] at hg herr
    refine ⟨_, rfl, honly.trans henabled, ?_, ?_, fun _ _ => ?_, fun hx => absurd (hx.symm.trans h31) (by decide)⟩
    · rw [hring, hg, h31]
      rfl
    · rw [hring, hg]
      rfl
    · rw [hring]
      refine ⟨?_, ?_, ?_, ?_, ?_, herr⟩ <;> rw [hg] <;> rfl
  · next hc =>
    have hring : ringOf (modRing u h f r fun g => { g with en := v.toNat.testBit 31 }) h f r =
        { ringSized v (ringOf s h f r) with en := v.toNat.testBit 31 } := by rw [ringOf_modRing, hsized]
    refine ⟨_, rfl, honly.trans (hostOnly_modRing u h f r _), ?_, ?_, fun h31 hen => ?_, fun _ => ?_⟩
    · rw [hring]
    · rw [hring]
    · rw [h31, hen] at hc
      exact absurd rfl hc
    · rw [hring]
      exact ⟨rfl, rfl⟩

end Sys2Proof.Machine

open Sys2Proof.Machine in
/-- Settles O45: an access through BAR2 reaches the one unit that its view gives it, at once or when its stack has tokens, or is refused
with what counts it; a doorbell and the registers of a ring act as R355 to R358 say. -/
theorem hostAccessesReachMemoryAndRings : Obligations.HostAccessesReachMemoryAndRings := by
  unfold Obligations.HostAccessesReachMemoryAndRings
  refine ⟨?_, ?_, ?_, ?_, ?_, ?_⟩
  · rintro s h f off x - rfl hx
    exact barAddr_pf hx
  · rintro s h f off a n data hh hf hup hreset hn hunit hbar rfl
    refine ⟨fun hok hs htok => ⟨fun hn' => ?_, fun bs hbs hn' hw => ⟨?_, ?_⟩⟩, fun hok hn' hwait => ?_, fun hno hn' => ?_⟩
    · obtain ⟨t, u, hexec, hu, rfl⟩ := bar2Read_data hh hf hup hreset hn hunit hbar hn' hok hs htok
      refine ⟨_, hexec, ?_, ?_, ?_, ?_, ?_⟩ <;> rw [hu]
    · obtain ⟨t, hexec, honly, hwritten, -⟩ := bar2Write_bytes hh hf hup hreset hn hunit hbar hbs hn' hw hok hs htok false
      rw [if_neg Bool.false_ne_true] at honly
      exact ⟨t, hexec, hwritten, by rw [honly], by rw [honly], by rw [honly]⟩
    · obtain ⟨t, hexec, honly, hwritten, hpois⟩ := bar2Write_bytes hh hf hup hreset hn hunit hbar hbs hn' hw hok hs htok true
      rw [if_pos rfl] at honly
      have hhosts : t.hosts = (countDrop (aerReport s h f 12) h f).hosts := by rw [honly]
      refine ⟨t, hexec, hwritten, by rw [honly]; rfl, by rw [honly]; rfl, hpois rfl, ?_, ?_⟩
      · rw [fn_of_hosts hhosts, drop_countDrop, drop_aerReport]
      · rw [fn_of_hosts hhosts, aer_countDrop, aer_aerReport]
    · refine ⟨_, bar2Read_waits hh hf hup hreset hunit hbar hn' hok hwait, rfl, ⟨hostReq h f a n none false, some off⟩, ?_,
        rfl, rfl, rfl, rfl, rfl⟩
      exact congrArg Stack.waiting (stack_modStack _ _ _)
    · obtain ⟨hmem, hcores, hout, hdrop⟩ := barRefused_effect s h f a n
      exact ⟨_, bar2Read_denied hh hf hup hreset hunit hbar hn' hno, hmem, hcores, congrArg (· ++ _) hout, hdrop⟩
  · intro s h f off n hh hf hup hno
    exact ⟨_, bar2Read_nowhere hh hf hup hno, rfl, rfl, aer_aerReport s h f 20⟩
  · intro s h f off n bs z hh hf hup
    refine ⟨⟨_, bar2Read_refused hh hf hup (.inl rfl), rfl, rfl⟩, fun hlen => ⟨_, bar2Write_long hh hf hup hlen z, rfl, aer_aerReport s h f 18⟩⟩
  · intro s h f off n bs z hh hf hup hreset
    refine ⟨fun hlen => ⟨_, bar2Write_reset hh hf hup hreset hlen z, rfl, drop_countDrop s h f⟩, fun hn => ?_⟩
    refine ⟨_, bar2Read_reset hh hf hup hreset hn, ?_⟩
    rw [barData_sound]
    refine ⟨rfl, drop_countDrop s h f, ?_⟩
    dsimp only
    rw [List.length_replicate]
    refine congrArg (s.out ++ ·) (List.map_congr_left fun x hx => ?_)
    rw [replicate_piece _ (tlps_within hx)]
  · rintro s h f r v g hh hf hr hup rfl
    have hreach := ringReachable_of hh hf hr hup
    refine ⟨fun hreset hv => ⟨_, sqtailWrite_moves hreach hreset hv, rfl, ringOf_modRing s h f r _⟩, fun hreset hv => ?_, fun hreset => ?_, ?_,
      fun x => ?_⟩
    · obtain ⟨hout, hring, -⟩ := stopRing_effect (f := f) (r := r) hup 1
      refine ⟨_, sqtailWrite_stops hreach hreset hv, (hostOnly_stopRing s h f r 1).mem, hout, fun hm => pba_stopRing hup hm 1, ?_⟩
      rw [hring]
      simp only [Bool.and_eq_true, beq_iff_eq]
    · exact ⟨_, sqtailWrite_counts hreach v hreset, ringOf_modFn s fun _ => rfl, drop_countDrop s h f⟩
    · obtain ⟨t, hexec, honly, hen, hsz, hstart, hstop⟩ := ringCtrlWrite_effect hreach hup v
      refine ⟨t, hexec, honly.mem, honly.cores, hen, ?_, fun h31 hoff => ?_, hstop⟩
      · rw [hsz, ringSized]
        simp only [Bool.and_eq_true, Bool.not_eq_true', beq_iff_eq, decide_eq_true_eq, and_assoc]
      · obtain ⟨h1, h2, h3, h4, h5, h6⟩ := hstart h31 hoff
        refine ⟨h1, h2, h3, h4, h5, fun hview => ?_⟩
        obtain ⟨herr, hcause⟩ := h6 hview
        refine ⟨herr, hcause.trans ?_⟩
        have h30 : v.toNat.testBit 30 = v.getLsbD 30 := rfl
        rw [ringSized, hoff, h30]
        cases v.getLsbD 30 <;> simp
    · have hexec : exec (.ringBaseWrite h f r x v) s = .next (ringBaseWrite s h f r x v) := rfl
      have hbase : ringBaseWrite s h f r x v = modRing s h f r (ringBased x v) := by
        rw [ringBaseWrite, if_neg (by rw [hreach]; decide)]
        refine congrArg (modRing s h f r) (funext fun g => ?_)
        unfold ringBased
        cases x <;> rfl
      refine ⟨_, hexec, ?_, ?_⟩
      · rw [hbase]
        rfl
      · rw [hbase, ringOf_modRing]
        unfold ringBased
        by_cases hc : (ringOf s h f r).en = false ∧ (ringOf s h f r).out = 0
        · refine (if_neg (by rw [hc.1, hc.2]; decide)).trans (Eq.trans ?_ (if_pos hc).symm)
          cases x <;> rfl
        · refine (if_pos ?_).trans (if_neg hc).symm
          by_contra hx
          simp only [Bool.or_eq_true, bne_iff_ne, not_or, Bool.not_eq_true, not_not] at hx
          exact hc hx
end

section
/-!
SUPPORT. What starts and restarts leave of the firmware banks (R445, R452, R526, R529).
-/

namespace Sys2Proof.Machine

/-! ### What downloads cut short change (R524) -/

/-- Of the firmware's state in `s`, `t` changes what a download under way is and when the state record was written, at most. -/
def FwUpd (s t : State) : Prop := ∃ u q o a, t.fw = { s.fw with upd := u, recSeq := q, older := o, recAt := a }

theorem FwUpd.of_eq {s t : State} (h : t.fw = s.fw) : FwUpd s t := ⟨s.fw.upd, s.fw.recSeq, s.fw.older, s.fw.recAt, h⟩

theorem FwUpd.refl (s : State) : FwUpd s s := .of_eq rfl

theorem FwUpd.trans {s t u : State} (h : FwUpd s t) (k : FwUpd t u) : FwUpd s u := by
  obtain ⟨x, q, o, a, h⟩ := h
  obtain ⟨x', q', o', a', k⟩ := k
  refine ⟨x', q', o', a', ?_⟩
  rw [k, h]

theorem FwUpd.foldl {α : Type} {step : State → α → State} (h : ∀ s a, FwUpd s (step s a)) (s : State) (l : List α) : FwUpd s (l.foldl step s) :=
  List.foldlRecOn (motive := fun t => FwUpd s t) l step (.refl s) fun t ht a _ => ht.trans (h t a)

theorem fwUpd_modFw {s : State} {f : Fw → Fw} (hf : ∃ u, f s.fw = { s.fw with upd := u }) : FwUpd s (modFw s f) := by
  obtain ⟨u, hf⟩ := hf
  obtain ⟨q, o, a, h⟩ := modFw_eq s f
  refine ⟨u, q, o, a, ?_⟩
  rw [h, hf]

section

variable {s t : State} (h : FwUpd s t)

include h

theorem FwUpd.trial : t.fw.trialState = s.fw.trialState := by
  obtain ⟨u, q, o, a, h⟩ := h
  rw [h]
  rfl

theorem FwUpd.banks : t.fw.banks = s.fw.banks := by
  obtain ⟨u, q, o, a, h⟩ := h
  rw [h]

theorem FwUpd.active : t.fw.active = s.fw.active := by
  obtain ⟨u, q, o, a, h⟩ := h
  rw [h]

end

theorem cutShort_upd (k : Fw) : ∃ u, (if k.upd = 1 then { k with upd := 0 } else k) = { k with upd := u } := by
  split
  · exact ⟨0, rfl⟩
  · exact ⟨k.upd, rfl⟩

theorem fwUpd_dropImage (s : State) (e : Session) : FwUpd s (dropImage s e) := by
  rw [dropImage]
  split
  · exact .refl s
  · split
    · exact fwUpd_modFw ⟨0, rfl⟩
    · exact .refl s

theorem fwUpd_closeSession (s : State) (sid : Nat) (why : CloseCause) : FwUpd s (closeSession s sid why) := by
  rw [closeSession]
  split
  · exact .refl s
  · next e _ =>
    have hs : FwUpd s { s with sessions := mdel s.sessions sid } := .of_eq rfl
    have hi := hs.trans (fwUpd_dropImage { s with sessions := mdel s.sessions sid } e)
    have hu : FwUpd s (if e.staging.isSome = true then dropImage { s with sessions := mdel s.sessions sid } e else { s with sessions := mdel s.sessions sid }) := by
      split
      · exact hi
      · exact hs
    dsimp only
    generalize (if e.staging.isSome = true then dropImage { s with sessions := mdel s.sessions sid } e else { s with sessions := mdel s.sessions sid }) = u at hu ⊢
    refine hu.trans (FwUpd.trans (t := modWake u fun w => { w with asyncs := w.asyncs.filter (fun a => a.sid != sid) }) (.of_eq rfl) ?_)
    exact .of_eq (logged_sessionEvent _ e why).fw

theorem fwUpd_closeSessions (s : State) (p : Session → Bool) (why : CloseCause) : FwUpd s (closeSessions s p why) :=
  FwUpd.foldl (fun s (x : Nat × Session) => fwUpd_closeSession s x.1 why) s _

theorem fwUpd_closeMailbox (s : State) (h f : Nat) : FwUpd s (closeMailbox s h f) := (fwUpd_closeSessions s _ .flr).trans (.of_eq rfl)

/-! ### Domains that leave ON (R404) -/

theorem Still.fw {s t : State} (h : Still s t) : t.fw = s.fw := by rw [h.rest]

theorem Loses.fwUpd {s t : State} (h : Loses s t) : FwUpd s t := .of_eq h.fw

theorem Lands.fwUpd {s t : State} (h : Lands s t) : FwUpd s t := .of_eq h.fw

theorem fwUpd_portLeave (s : State) (p : Nat) (x : PortState) : FwUpd s (portLeave s p x) := by
  by_cases h : (s.port p).st = x
  · rw [portLeave]
    dsimp only
    rw [if_pos h]
    exact .refl s
  · exact .of_eq (portLeave_leaves h).still.fw

theorem fwUpd_ldOff (s : State) (l : Nat) (x : DomSt) : FwUpd s (ldOff s l x) :=
  FwUpd.trans (t := setDom s (108 + l) x) (.of_eq rfl) (FwUpd.foldl (fun s _ => fwUpd_portLeave s _ _) _ _)

theorem fw_stackGone (s : State) (st : Nat) : (stackGone s st).fw = s.fw := by
  rw [stackGone]
  refine List.foldlRecOn (motive := fun t : State => t.fw = s.fw) _ _ rfl fun t ht w _ => ?_
  split
  · split <;> exact ht
  · exact ht

theorem fwUpd_mdOff (s : State) (st : Nat) (x : DomSt) : FwUpd s (mdOff s st x) := by
  rw [mdOff]
  refine FwUpd.trans ?_ (loses_reevaluate _).fwUpd
  exact .of_eq (fw_stackGone (setDom s (116 + st) x) st)

theorem fwUpd_hdOff (s : State) (h : Nat) (x : DomSt) : FwUpd s (hdOff s h x) := by
  rw [hdOff]
  refine FwUpd.trans ?_ (loses_reevaluate _).fwUpd
  exact FwUpd.trans (t := modHost (setDom s (132 + h) x) h fun k => { HostDie.reset with perst := k.perst }) (.of_eq rfl)
    (FwUpd.foldl (fun s f => fwUpd_closeMailbox s h f) _ _)

theorem fwUpd_dieLeave (s : State) (d : Nat) (x : DomSt) : FwUpd s (dieLeave s d x) := by
  rw [dieLeave]
  split
  · exact fwUpd_ldOff s _ x
  split
  · exact fwUpd_mdOff s _ x
  · exact fwUpd_hdOff s _ x

theorem fwUpd_setDom (s : State) (d : Nat) (x : DomSt) : FwUpd s (setDom s d x) := .of_eq rfl

theorem fwUpd_fieldOut (s : State) (n : Nat) (x : DomSt) : FwUpd s (fieldOut s n x) := by
  rw [fieldOut]
  dsimp only
  refine FwUpd.trans ?_ (FwUpd.foldl (fun s die => ?_) _ _)
  · refine (fwUpd_setDom s _ x).trans (FwUpd.foldl (fun s row => ?_) _ _)
    refine FwUpd.trans ?_ (loses_loseGroup _ _ 2 true).fwUpd
    split
    · exact .refl s
    · exact fwUpd_setDom s _ _
  · split
    · exact fwUpd_dieLeave s _ _
    · exact .refl s

theorem fwUpd_cgOff (s : State) (g : Nat) : FwUpd s (cgOff s g) := by
  rw [cgOff]
  refine FwUpd.trans ?_ (loses_reevaluate _).fwUpd
  refine FwUpd.trans ?_ (loses_modGrp _ g (f := fun k => { k with off := true }) ⟨rfl, rfl, rfl, id, fun _ => rfl, id⟩).fwUpd
  exact (fwUpd_setDom s g .off).trans (Lands.foldl (fun s c => lands_clearMem s _) _ _).fwUpd

theorem fwUpd_domLeave (s : State) (d : Nat) (x : DomSt) : FwUpd s (domLeave s d x) := by
  rw [domLeave]
  split
  · exact fwUpd_cgOff s d
  split
  · exact (fwUpd_fieldOut s _ x).trans (loses_reevaluate _).fwUpd
  split
  · exact fwUpd_dieLeave s d x
  split
  · refine (fwUpd_setDom s d x).trans (FwUpd.foldl (fun s c => ?_) _ _)
    exact .of_eq rfl
  · exact .refl s

theorem fwUpd_confirmedOff (s : State) (g : Nat) : FwUpd s (confirmedOff s g) :=
  (fwUpd_setDom s g .off).trans ((lands_raiseErr (by decide) _ 7 g _ _ _).fwUpd.trans (loses_loseGroup _ g 2 true).fwUpd)

theorem fwUpd_switchDue (s : State) : FwUpd s (switchDue s) := by
  refine FwUpd.trans (t := modPwr s fun w => { w with offDue := [] }) (.of_eq rfl) (FwUpd.foldl (fun s d => ?_) _ _)
  split
  · exact fwUpd_confirmedOff s d
  · exact (fwUpd_domLeave s d .off).trans (lands_raiseErr (by decide) _ 7 d none _ []).fwUpd

/-! ### Starts and restarts (R443, R445, R452) -/

theorem Tells.fw {s t : State} (h : Tells s t) : t.fw = s.fw := by rw [h]

theorem fw_retireCands (s : State) (p : Option Nat → Bool) : (retireCands s p).fw = s.fw := by
  rw [retireCands]
  refine List.foldlRecOn (motive := fun t : State => t.fw = s.fw) _ _ rfl fun t ht st _ => ?_
  exact List.foldlRecOn (motive := fun u : State => u.fw = s.fw) _ _ ht fun u hu pg _ => hu

theorem fw_unmapped (s : State) : (unmapped s).fw = s.fw := by
  rw [unmapped]
  exact List.foldlRecOn (motive := fun t : State => t.fw = s.fw) _ _ rfl fun t ht g _ => ht

theorem fw_routersReset (s : State) : (routersReset s).fw = s.fw := by
  rw [routersReset]
  exact List.foldlRecOn (motive := fun t : State => t.fw = s.fw) _ _ rfl fun t ht n _ => ht

theorem fw_refreshed (s : State) : (refreshed s).fw = s.fw := by
  rw [refreshed]
  exact List.foldlRecOn (motive := fun t : State => t.fw = s.fw) _ _ rfl fun t ht i _ => ht

theorem fw_setDeviceCause (s : State) (b : Bool) : (setDeviceCause s b).fw = s.fw := by
  rw [setDeviceCause_eq]

theorem wake_setDeviceCause (s : State) (b : Bool) : (setDeviceCause s b).wake = s.wake := by
  rw [setDeviceCause_eq]

theorem fw_resetAllCores (s : State) (clear : Bool) : (resetAllCores s clear).fw = s.fw := by
  rw [resetAllCores]
  exact (Loses.foldl (fun s g => loses_resetGroup s g clear) s (List.range 96)).fw

theorem fwUpd_warmReset (s : State) : FwUpd s (warmReset s) := by
  have h1 : (endLaunches s fun _ => true).fw = s.fw := by rw [launchOnly_endLaunches s fun _ => true]
  have h2 := (resetBegins_abortCheck (endLaunches s fun _ => true)).1.fw
  have h3 : ∀ u : State, (emptied u).fw = u.fw := fun _ => rfl
  have h4 : (routersReset (emptied (unmapped (resetAllCores (abortCheck (endLaunches s fun _ => true)) true)))).fw = s.fw := by
    rw [fw_routersReset, h3, fw_unmapped, fw_resetAllCores, h2, h1]
  have h5 : ∀ u : State, (setDeviceCause (retireCands (refreshed u) fun _ => true) false).fw = u.fw := fun u => by
    rw [fw_setDeviceCause, fw_retireCands, fw_refreshed]
  rw [warmReset]
  generalize routersReset (emptied (unmapped (resetAllCores (abortCheck (endLaunches s fun _ => true)) true))) = u at h4 ⊢
  exact (FwUpd.of_eq h4).trans ((fwUpd_switchDue u).trans (.of_eq (h5 _)))

theorem fwUpd_inWarmStart (s : State) : FwUpd s (setDev (inWarmStart s) .waking 4) := .of_eq (tells_setDev (inWarmStart s) .waking 4).fw

theorem fwUpd_warmRun (s : State) : FwUpd s (warmRun s) := by
  rw [warmRun_eq]
  exact (fwUpd_warmReset s).trans (fwUpd_inWarmStart _)

theorem ClkFields.fw {s t : State} (h : ClkFields s t) : t.fw = s.fw := by rw [← h]

theorem fwUpd_mgmtRestart (s : State) : FwUpd s (mgmtRestart s) := by
  rw [mgmtRestart_eq]
  refine FwUpd.trans ?_ (.of_eq (clkFields_safeSlowed _).fw)
  have h1 := fwUpd_closeSessions s (fun _ => true) .start
  rw [carafeDown]
  generalize closeSessions s (fun _ => true) .start = u at h1 ⊢
  refine h1.trans (FwUpd.trans (t := modMgmt u fun m => { m with hands := [] }) (.of_eq rfl) ?_)
  exact FwUpd.trans (fwUpd_modFw (cutShort_upd _)) (.of_eq rfl)

theorem wake_unmapped (s : State) : (unmapped s).wake = s.wake := by
  rw [unmapped]
  exact List.foldlRecOn (motive := fun t : State => t.wake = s.wake) _ _ rfl fun t ht g _ => ht

theorem wake_routersReset (s : State) : (routersReset s).wake = s.wake := by
  rw [routersReset]
  exact List.foldlRecOn (motive := fun t : State => t.wake = s.wake) _ _ rfl fun t ht n _ => ht

theorem wake_refreshed (s : State) : (refreshed s).wake = s.wake := by
  rw [refreshed]
  exact List.foldlRecOn (motive := fun t : State => t.wake = s.wake) _ _ rfl fun t ht i _ => ht

theorem wake_retireCands (s : State) (p : Option Nat → Bool) : (retireCands s p).wake = s.wake := by
  rw [retireCands]
  refine List.foldlRecOn (motive := fun t : State => t.wake = s.wake) _ _ rfl fun t ht st _ => ?_
  exact List.foldlRecOn (motive := fun v : State => v.wake = s.wake) _ _ ht fun v hv pg _ => hv

theorem mgmt_resetAllCores (s : State) (clear : Bool) : (resetAllCores s clear).wake.mgmt = s.wake.mgmt := by
  rw [resetAllCores]
  exact (Loses.foldl (fun s g => loses_resetGroup s g clear) s (List.range 96)).departs.mgmt

theorem mgmt_warmReset (s : State) : (warmReset s).wake.mgmt = s.wake.mgmt := by
  have h1 : (endLaunches s fun _ => true).wake = s.wake := by rw [launchOnly_endLaunches s fun _ => true]
  have h2 := (resetBegins_abortCheck (endLaunches s fun _ => true)).1.mgmt
  have h3 : ∀ u : State, (modPwr u fun w => { w with offDue := [] }).wake = u.wake := fun _ => rfl
  have h4 : ∀ u : State, (emptied u).wake = u.wake := fun _ => rfl
  have h5 : (routersReset (emptied (unmapped (resetAllCores (abortCheck (endLaunches s fun _ => true)) true)))).wake.mgmt = s.wake.mgmt := by
    rw [wake_routersReset, h4, wake_unmapped, mgmt_resetAllCores, h2, h1]
  have h6 : ∀ u : State, (setDeviceCause (retireCands (refreshed u) fun _ => true) false).wake = u.wake := fun u => by
    rw [wake_setDeviceCause, wake_retireCands, wake_refreshed]
  rw [warmReset]
  generalize routersReset (emptied (unmapped (resetAllCores (abortCheck (endLaunches s fun _ => true)) true))) = u at h5 ⊢
  rw [h6, (departs_switchDue u).mgmt, h3, h5]

theorem Tells.mgmt {s t : State} (h : Tells s t) : t.wake.mgmt = s.wake.mgmt := by rw [h]

theorem mgmt_inWarmStart (s : State) : (setDev (inWarmStart s) .waking 4).wake.mgmt = s.wake.mgmt := (tells_setDev (inWarmStart s) .waking 4).mgmt

theorem mgmt_warmRun (s : State) : (warmRun s).wake.mgmt = s.wake.mgmt := by
  rw [warmRun_eq, mgmt_inWarmStart, mgmt_warmReset]

/-- A cold start in progress, with Carafe running. -/
theorem mgmt_inColdStart (s : State) (x : StartRun) :
    (setDev (modWake s fun w => { w with start := some x, mgmt := false, thermal := false }) .waking 1).wake.mgmt = false :=
  (tells_setDev (modWake s fun w => { w with start := some x, mgmt := false, thermal := false }) .waking 1).mgmt

theorem mgmt_coldRun (s : State) : (coldRun s).wake.mgmt = false := by
  obtain ⟨u, -, -, -, he⟩ := coldRun_eq s
  rw [he, mgmt_inColdStart]

end Sys2Proof.Machine
end

section
/-!
SUPPORT. Trials of firmware banks: how one begins, is confirmed and ends (R525 to R529).
-/

namespace Sys2Proof.Machine

/-! ### The firmware's state after an event of it (R525) -/

theorem fwEvent_fw (s : State) (stage bank chk : Nat) :
    ∃ q o a, (fwEvent s stage bank chk).fw = { s.fw with last := some (stage, bank, chk, s.echoM), recSeq := q, older := o, recAt := a } := by
  obtain ⟨q, o, a, h⟩ := modFw_eq s fun f => { f with last := some (stage, bank, chk, s.echoM) }
  refine ⟨q, o, a, ?_⟩
  rw [fw_fwEvent, h]

/-- A change of the firmware's state with its event. -/
theorem fwEvent_modFw_fw (s : State) (f : Fw → Fw) (stage bank chk : Nat) :
    ∃ l q o a, (fwEvent (modFw s f) stage bank chk).fw = { f s.fw with last := l, recSeq := q, older := o, recAt := a } := by
  obtain ⟨q, o, a, h⟩ := modFw_eq s f
  obtain ⟨q', o', a', h'⟩ := fwEvent_fw (modFw s f) stage bank chk
  refine ⟨some (stage, bank, chk, (modFw s f).echoM), q', o', a', ?_⟩
  rw [h', h]

theorem logGets_fwEvent (s : State) (f : Fw → Fw) (stage bank chk : Nat) : LogGets s (fwEvent (modFw s f) stage bank chk) 0x6001 4 := by
  rw [fwEvent, raiseEvent]
  exact (logGets_raiseRec (by decide) (modFw (modFw s f) fun k => { k with last := some (stage, bank, chk, (modFw s f).echoM) }) 4 0 0 none _
    [stage, bank]).of_same rfl rfl

theorem FwOnly.view {s t : State} (h : FwOnly s t) : t.wake.mgmt = s.wake.mgmt ∧ t.wake.vinStayed = s.wake.vinStayed ∧ t.dev = s.dev ∧
    t.pwr = s.pwr := by
  obtain ⟨k, h⟩ := h
  rw [h]
  exact ⟨rfl, rfl, rfl, rfl⟩

/-- Of two states of the firmware, whether an activation and the counters see the same. -/
structure SameImages (k k' : Fw) : Prop where
  recovery : k'.recovery = k.recovery
  verL : k'.verL = k.verL
  runL : k'.runL = k.runL
  images : k'.images = k.images

theorem actKind_of_images {s t : State} (h : SameImages s.fw t.fw) (b : Nat) : actKind t b = actKind s b := by
  obtain ⟨h1, h2, h3, h4⟩ := h
  have hb : ∀ b, bankHeader t b = bankHeader s b := fun b => by rw [bankHeader, h4, ← bankHeader]
  rw [actKind, actKind, lanternVersion, lanternVersion, headerVersion, headerVersion, h1, h2, h3, hb, hb]

/-! ### A trial begins (R526) -/

theorem trialBegin_fw (s : State) (b kind : Nat) : (trialBegin s b kind).fw.trialState = (some b, 1, 1) ∧ (trialBegin s b kind).fw.act = none ∧
    (trialBegin s b kind).fw.banks = mset s.fw.banks b 3 := by
  obtain ⟨l, q, o, a, h⟩ := fwEvent_modFw_fw s (fun f =>
    { f with
      pending := some b
      phase := 1
      trials := 1
      upd := 3
      act := none
      trialKind := kind
      adminOk := false
      healthy := false
      degr := degradedBy s
      banks := mset f.banks b 3 }) 4 b 0
  rw [trialBegin, h]
  exact ⟨rfl, rfl, rfl⟩

theorem pendCold_of_act {s : State} (h : s.fw.act = none) : pendCold s = s := by
  rw [pendCold, h]

theorem restartKind_mgmt (s : State) : restartKind s 0 = mgmtRestart s := by
  rw [restartKind]

theorem restartKind_warm {s : State} (hvin : s.wake.vinStayed = true) (h1 : s.dev ≠ .standby) (h2 : s.dev ≠ .off) (h3 : s.dev ≠ .held) :
    restartKind s 1 = warmRun (mgmtRestart s) := by
  have hturn : warmTurnsCold s = false := by
    rw [warmTurnsCold, hvin]
    simp [h1, h2, h3]
  have hkind : restartKind s 1 = if !warmTurnsCold s then warmRun (mgmtRestart s) else if canCold s then coldRun s else mgmtRestart s := rfl
  rw [hkind, if_pos (by rw [hturn]; decide)]

theorem restartKind_cold {s : State} {kind : Nat} (hk : 2 ≤ kind) (hvin : s.pwr.vin = true) (h2 : s.dev ≠ .off) (h3 : s.dev ≠ .held) :
    restartKind s kind = coldRun s := by
  have hcan : canCold s = true := by
    rw [canCold, hvin]
    simp [h2, h3]
  obtain ⟨k, rfl⟩ : ∃ k, kind = k + 2 := ⟨kind - 2, by omega⟩
  have hkind : restartKind s (k + 2) = if canCold s then coldRun s else mgmtRestart s := rfl
  rw [hkind, if_pos hcan]

/-- What a restart of a trial by a management restart leaves. -/
theorem mgmtTrial_effect (s : State) : (restartKind s 0).fw.trialState = s.fw.trialState ∧ (restartKind s 0).fw.banks = s.fw.banks ∧
    (restartKind s 0).fw.active = s.fw.active ∧ (restartKind s 0).wake.mgmt = true ∧ (restartKind s 0).dev = s.dev ∧
    (restartKind s 0).mem = s.mem ∧ (restartKind s 0).cores = s.cores := by
  have hfw := fwUpd_mgmtRestart s
  obtain ⟨hm, hd, hmem, hcores⟩ := mgmtRestart_effect s
  rw [restartKind_mgmt]
  exact ⟨hfw.trial, hfw.banks, hfw.active, hm, hd, hmem, hcores⟩

/-- What a restart of a trial by a warm start leaves. -/
theorem warmTrial_effect {s : State} (hvin : s.wake.vinStayed = true) (h1 : s.dev ≠ .standby) (h2 : s.dev ≠ .off) (h3 : s.dev ≠ .held) :
    (restartKind s 1).fw.trialState = s.fw.trialState ∧ (restartKind s 1).wake.mgmt = true ∧ (restartKind s 1).dev = .waking ∧
      (restartKind s 1).stage = 4 := by
  obtain ⟨hm, -, -, -⟩ := mgmtRestart_effect s
  obtain ⟨hdev, hstage, -⟩ := warmRun_effect (mgmtRestart s)
  rw [restartKind_warm hvin h1 h2 h3]
  exact ⟨((fwUpd_mgmtRestart s).trans (fwUpd_warmRun _)).trial, (mgmt_warmRun _).trans hm, hdev, hstage⟩

/-- What a restart of a trial by a cold start leaves. -/
theorem coldTrial_effect {s : State} {kind : Nat} (hk : 2 ≤ kind) (hvin : s.pwr.vin = true) (h2 : s.dev ≠ .off) (h3 : s.dev ≠ .held)
    (hact : s.fw.act = none) (hphase : s.fw.trialState.2.2 ≠ 2) :
    (restartKind s kind).fw.trialState = s.fw.trialState ∧ (restartKind s kind).wake.mgmt = false ∧ (restartKind s kind).dev = .waking ∧
      (restartKind s kind).stage = 1 := by
  obtain ⟨hdev, hstage, -⟩ := coldRun_effect s
  rw [restartKind_cold hk hvin h2 h3]
  exact ⟨trial_coldRun_of (pendCold_of_act hact) hphase, mgmt_coldRun s, hdev, hstage⟩

/-! ### A trial ends unconfirmed (R529) -/

theorem fwOnly_trialRecord (s : State) : FwOnly s (trialRecord s) := by
  rw [trialRecord]
  split
  · exact ⟨s.fw, .refl s⟩
  · next b _ =>
    have h := fwOnly_fwEvent s 5 b 0
    dsimp only
    generalize fwEvent s 5 b 0 = u at h ⊢
    split
    · exact h.trans (fwOnly_modFw u _)
    · exact h.trans ((fwOnly_modFw u _).trans (fwOnly_fwEvent _ _ _ _))

theorem trialRecord_fw {s : State} {b : Nat} (hb : s.fw.pending = some b) (hphase : s.fw.phase = 1) :
    (trialRecord s).fw.act = s.fw.act ∧ (trialRecord s).fw.trialKind = s.fw.trialKind ∧ (trialRecord s).fw.active = s.fw.active ∧
      (s.fw.trials ≤ 1 → (trialRecord s).fw.trialState = (some b, 2, 1)) ∧
      (2 ≤ s.fw.trials → (trialRecord s).fw.trialState = (none, 0, 0) ∧ (trialRecord s).fw.banks = mset s.fw.banks b 5) := by
  obtain ⟨q, o, a, h⟩ := fwEvent_fw s 5 b 0
  rw [trialRecord, hb]
  dsimp only
  generalize fwEvent s 5 b 0 = u at h ⊢
  have htrials : u.fw.trials = s.fw.trials := by rw [h]
  rw [htrials]
  split
  · next ht =>
    obtain ⟨q', o', a', h'⟩ := modFw_eq u fun f => { f with trials := 2, adminOk := false, healthy := false, tries := 0 }
    rw [h', h]
    refine ⟨rfl, rfl, rfl, fun _ => ?_, fun h2 => absurd ht (by omega)⟩
    rw [Fw.trialState, ← hb, ← hphase]
  · next ht =>
    obtain ⟨l, q', o', a', h'⟩ := fwEvent_modFw_fw u (fun f =>
      { f with banks := mset f.banks b 5, pending := none, trials := 0, phase := 0, upd := 0, tries := 0 }) 7 b 0
    rw [h', h]
    exact ⟨rfl, rfl, rfl, fun h1 => absurd h1 ht, fun _ => ⟨rfl, rfl⟩⟩

theorem trialTimeout_eq {s : State} {b : Nat} (hb : s.fw.pending = some b) (hphase : s.fw.phase = 1) :
    exec .trialTimeout s = .next (restartKind (trialRecord s) s.fw.trialKind) := by
  have hon : trialOn s = true := by
    rw [trialOn, hb, hphase]
    rfl
  have hexec : exec .trialTimeout s = .next (trialUnconfirmed s) := rfl
  rw [hexec, trialUnconfirmed, if_pos hon]

/-! ### A trial is confirmed (R527, R528) -/

theorem svnCount_of {s t : State} (h : t.fw.svn = s.fw.svn) (i : Nat) : svnCount t i = svnCount s i := by
  rw [svnCount, h, ← svnCount]

/-- The firmware's state with the counters of a bank that is confirmed, and its key 0 revoked where it says so (R519, R523, R528). -/
def svnRaised (s : State) (b : Nat) : State :=
  modFw s fun f =>
    { f with
      svn := mset (mset f.svn 1 (max (svnCount s 1) (headerSvnC s b))) 0 (max (svnCount s 0) (headerSvnL s b))
      revoked0 := f.revoked0 || (byteNat (bankHeader s b) 6 == 1 && (byteNat (bankHeader s b) 7).testBit 1) }

/-- The state record of a bank that is confirmed (R528 step 4). -/
def confirmedFw (b x : Nat) (f : Fw) : Fw :=
  { f with
    banks := mset (mset f.banks b 4) (1 - b) x
    active := b
    pending := none
    trials := 0
    phase := 0
    upd := 0
    adminOk := false
    healthy := false }

theorem confirmRest_eq {s : State} {b : Nat} (hb : s.fw.pending = some b) (hphase : s.fw.phase = 2) :
    ∃ x, confirmRest s = fwEvent (modFw (svnRaised s b) (confirmedFw b x)) 6 b 0 := by
  rw [confirmRest, hb]
  dsimp only
  rw [if_neg (by rw [hphase]; decide)]
  exact ⟨_, rfl⟩

theorem svnRaised_fw (s : State) (b : Nat) : ∃ r q o a, (svnRaised s b).fw = { s.fw with
    svn := mset (mset s.fw.svn 1 (max (svnCount s 1) (headerSvnC s b))) 0 (max (svnCount s 0) (headerSvnL s b))
    revoked0 := r, recSeq := q, older := o, recAt := a } := by
  obtain ⟨q, o, a, h⟩ := modFw_eq s fun f =>
    { f with
      svn := mset (mset f.svn 1 (max (svnCount s 1) (headerSvnC s b))) 0 (max (svnCount s 0) (headerSvnL s b))
      revoked0 := f.revoked0 || (byteNat (bankHeader s b) 6 == 1 && (byteNat (bankHeader s b) 7).testBit 1) }
  refine ⟨s.fw.revoked0 || (byteNat (bankHeader s b) 6 == 1 && (byteNat (bankHeader s b) 7).testBit 1), q, o, a, ?_⟩
  rw [svnRaised, h]

/-- R528: the record names the bank active and confirmed, and its counters have risen. -/
theorem confirmRest_fw {s : State} {b : Nat} (hb : s.fw.pending = some b) (hphase : s.fw.phase = 2) :
    (confirmRest s).fw.pending = none ∧ (confirmRest s).fw.active = b ∧ mget 0 (confirmRest s).fw.banks b = 4 ∧
      (confirmRest s).fw.trials = 0 ∧ svnCount (confirmRest s) 0 = max (svnCount s 0) (headerSvnL s b) ∧
      svnCount (confirmRest s) 1 = max (svnCount s 1) (headerSvnC s b) ∧ FwOnly s (confirmRest s) ∧ LogGets s (confirmRest s) 0x6001 4 := by
  obtain ⟨x, he⟩ := confirmRest_eq hb hphase
  obtain ⟨r, q, o, a, hraised⟩ := svnRaised_fw s b
  have hlog := logGets_fwEvent (svnRaised s b) (confirmedFw b x) 6 b 0
  obtain ⟨l, q', o', a', hfw⟩ := fwEvent_modFw_fw (svnRaised s b) (confirmedFw b x) 6 b 0
  have honly : FwOnly s (fwEvent (modFw (svnRaised s b) (confirmedFw b x)) 6 b 0) :=
    (fwOnly_modFw s _).trans ((fwOnly_modFw _ _).trans (fwOnly_fwEvent _ _ _ _))
  rw [he]
  generalize fwEvent (modFw (svnRaised s b) (confirmedFw b x)) 6 b 0 = t at hfw honly hlog ⊢
  rw [hraised] at hfw
  refine ⟨?_, ?_, ?_, ?_, ?_, ?_, honly, hlog.of_same rfl rfl⟩
  · rw [hfw]
    rfl
  · rw [hfw]
    rfl
  · rw [hfw]
    exact (mget_mset_ne _ _ _ (by omega)).trans (mget_mset _ _ _ _)
  · rw [hfw]
    rfl
  · rw [svnCount, if_pos (by decide), hfw]
    exact mget_mset _ _ _ _
  · rw [svnCount, if_pos (by decide), hfw]
    exact (mget_mset_ne _ _ _ (by decide)).trans (mget_mset _ _ _ _)

theorem confirmTrial_effect {s : State} {b : Nat} (hb : s.fw.pending = some b) :
    (confirmTrial s).fw.pending = none ∧ (confirmTrial s).fw.active = b ∧ mget 0 (confirmTrial s).fw.banks b = 4 ∧
      (confirmTrial s).fw.trials = 0 ∧ svnCount (confirmTrial s) 0 = max (svnCount s 0) (headerSvnL s b) ∧
      svnCount (confirmTrial s) 1 = max (svnCount s 1) (headerSvnC s b) ∧ FwOnly s (confirmTrial s) ∧
      LogGets s (confirmTrial s) 0x6001 4 := by
  obtain ⟨q, o, a, h⟩ := modFw_eq s fun f => { f with phase := 2, upd := 4 }
  have hp : (confirmBegin s).fw.pending = some b := by
    rw [confirmBegin, h]
    exact hb
  have hphase : (confirmBegin s).fw.phase = 2 := by rw [confirmBegin, h]
  have hsvn : ∀ i, svnCount (confirmBegin s) i = svnCount s i := svnCount_of (by rw [confirmBegin, h])
  have hheader : bankHeader (confirmBegin s) b = bankHeader s b := by
    rw [bankHeader, confirmBegin, h, bankHeader]
  obtain ⟨h1, h2, h3, h4, h5, h6, h7, h8⟩ := confirmRest_fw hp hphase
  rw [hsvn, headerSvnL, hheader] at h5
  rw [hsvn, headerSvnC, hheader] at h6
  exact ⟨h1, h2, h3, h4, h5, h6, (fwOnly_modFw s _).trans h7, h8.of_same rfl rfl⟩

end Sys2Proof.Machine
end

section
/-!
SUPPORT. Counters that wrap, and sampling records (R537, R538, R542 to R547).
-/

namespace Sys2Proof.Machine

/-! ### What a counter that counts changes (R537, R538) -/

/-- Of a core's counters, all but their values, overflow bits and freeze. -/
theorem cntAdd_rest (k : CoreCnt) (i n : Nat) :
    cntAdd k i n = { k with vals := (cntAdd k i n).vals, ovf := (cntAdd k i n).ovf, frz := (cntAdd k i n).frz } := by
  rw [cntAdd]
  dsimp only
  split
  · rfl
  split
  · split
    · rfl
    · split <;> rfl
  · rfl

theorem cntAdd_smp (k : CoreCnt) (i n : Nat) : (cntAdd k i n).smp = k.smp := by
  rw [cntAdd_rest]

section

variable {k : CoreCnt} {i n : Nat} (hwrap : 2 ^ 48 ≤ mget 0 k.vals i + n)

include hwrap

/-- A counter that passes its end into a chained counter that counts. -/
theorem cntAdd_carries (hi : i % 2 = 0) (hchain : (mget CntSel.reset k.sels (i + 1)).chain = true)
    (hen : (mget CntSel.reset k.sels (i + 1)).en = true) (hu : mget 0 k.vals (i + 1) + 1 < 2 ^ 48) :
    cntAdd k i n = { k with vals := mset (mset k.vals i ((mget 0 k.vals i + n) % 2 ^ 48)) (i + 1) (mget 0 k.vals (i + 1) + 1) } := by
  have hnext : mget 0 (mset k.vals i ((mget 0 k.vals i + n) % 2 ^ 48)) (i + 1) = mget 0 k.vals (i + 1) := mget_mset_ne _ _ _ (by omega)
  rw [cntAdd]
  dsimp only
  rw [if_neg (by omega), if_pos ⟨hi, hchain⟩, hen, hnext, if_neg (by decide), if_pos hu, Nat.mod_eq_of_lt hu]

/-- A counter that passes its end with no counter chained to it. -/
theorem cntAdd_overflows (hno : ¬(i % 2 = 0 ∧ (mget CntSel.reset k.sels (i + 1)).chain = true)) :
    cntAdd k i n = { k with
      vals := mset k.vals i ((mget 0 k.vals i + n) % 2 ^ 48), ovf := k.ovf ||| 2 ^ i, frz := k.frz || k.fovf } := by
  rw [cntAdd]
  dsimp only
  rw [if_neg (by omega), if_neg hno]

theorem cntAdd_vals : mget 0 (cntAdd k i n).vals i = (mget 0 k.vals i + n) % 2 ^ 48 ∧
    ∀ j, j ≠ i → j ≠ i + 1 → mget 0 (cntAdd k i n).vals j = mget 0 k.vals j := by
  have h1 : ∀ v u, mget 0 (mset (mset k.vals i v) (i + 1) u) i = v := fun v u => by
    rw [mget_mset_ne _ _ _ (by omega : i ≠ i + 1), mget_mset]
  have h2 : ∀ v, ∀ j, j ≠ i → mget 0 (mset k.vals i v) j = mget 0 k.vals j := fun v j hj => mget_mset_ne _ _ _ hj
  have h3 : ∀ v u, ∀ j, j ≠ i → j ≠ i + 1 → mget 0 (mset (mset k.vals i v) (i + 1) u) j = mget 0 k.vals j := fun v u j hj hj' => by
    rw [mget_mset_ne _ _ _ hj', mget_mset_ne _ _ _ hj]
  rw [cntAdd]
  dsimp only
  rw [if_neg (by omega)]
  split
  · split
    · exact ⟨mget_mset _ _ _ _, fun j hj _ => h2 _ j hj⟩
    · split
      · exact ⟨h1 _ _, h3 _ _⟩
      · exact ⟨h1 _ _, h3 _ _⟩
  · exact ⟨mget_mset _ _ _ _, fun j hj _ => h2 _ j hj⟩

end

theorem counterWrap_core {s : State} {c i n : Nat} (hc : c < 1152) (hi : i < 8) (h1 : 1 ≤ n) (h255 : n ≤ 255)
    (hfrz : (s.core c).cnt.frz = false) (hen : (mget CntSel.reset (s.core c).cnt.sels i).en = true)
    (hchain : (mget CntSel.reset (s.core c).cnt.sels i).chain = false ∨ i % 2 = 0) :
    exec (.counterWrap (.core c i) n) s = .next (if 2 ^ 48 ≤ mget 0 (s.core c).cnt.vals i + n
      then modCore s c (fun t => { t with cnt := cntAdd t.cnt i n }) else s) := by
  have hexec : exec (.counterWrap (.core c i) n) s = execCounterWrap (.core c i) n s := rfl
  have hch : (!((mget CntSel.reset (s.core c).cnt.sels i).chain && i % 2 == 1)) = true := by
    rcases hchain with hx | hx
    · rw [hx]
      rfl
    · rw [hx]
      simp
  rw [hexec, execCounterWrap]
  refine congrArg Host.Outcome.next ?_
  by_cases hw : 2 ^ 48 ≤ mget 0 (s.core c).cnt.vals i + n
  · rw [if_pos hw]
    refine if_pos ⟨hc, hi, h1, h255, hen, hch, ?_, hw⟩
    rw [hfrz]
    rfl
  · rw [if_neg hw]
    exact if_neg fun h => hw h.2.2.2.2.2.2.2

theorem counterWrap_frozen {s : State} {c : Nat} (hfrz : (s.core c).cnt.frz = true) (i n : Nat) :
    exec (.counterWrap (.core c i) n) s = .next s := by
  have hexec : exec (.counterWrap (.core c i) n) s = execCounterWrap (.core c i) n s := rfl
  rw [hexec, execCounterWrap]
  refine congrArg Host.Outcome.next (if_neg ?_)
  rintro ⟨-, -, -, -, -, -, h, -⟩
  rw [hfrz] at h
  cases h

theorem cntEvent_frozen {k : CoreCnt} (h : k.frz = true) (code n : Nat) : cntEvent k code n = k := by
  rw [cntEvent, cntEvents, if_pos h]

/-! ### The sampler and the events of its own (R545) -/

theorem cntEvent_smp (k : CoreCnt) (code n : Nat) : (cntEvent k code n).smp = k.smp := by
  rw [cntEvent, cntEvents]
  split
  · rfl
  · refine List.foldlRecOn (motive := fun t : CoreCnt => t.smp = k.smp) _ _ rfl fun t ht i _ => ?_
    dsimp only
    split
    · exact ht
    · split
      · exact ht
      · exact (cntAdd_smp _ _ _).trans ht

theorem smpEvent_other {m : Sampler} {code : Nat} (h : m.event ≠ code) (n : Nat) (rec : Bytes) : smpEvent m code n rec = m := by
  rw [smpEvent, if_pos]
  simp [h]

/-- An event that the sampler does not count leaves it alone. -/
theorem smp_count {s : State} {c code : Nat} (h : (s.core c).cnt.smp.event ≠ code) (n : Nat) (w : Sample) :
    ((count s c code n w).core c).cnt.smp = (s.core c).cnt.smp := by
  have hm : ((count s c code n w).core c).cnt.smp = smpEvent (cntEvent (s.core c).cnt code n).smp code n
      (smpRecord (echoOf s c) (causePc s c w.cause) c code (latOf s c code w.lat) w.data) := by
    rw [count, countD, core_modCore]
  rw [hm, cntEvent_smp, smpEvent_other h]

@[simp] theorem smp_modSmp (s : State) (c : Nat) (g : Sampler → Sampler) : ((modSmp s c g).core c).cnt.smp = g (s.core c).cnt.smp := by
  rw [modSmp, core_modCore]

theorem counted_modSmp (s : State) (c : Nat) (g : Sampler → Sampler) : Counted s (modSmp s c g) c :=
  ⟨rfl, by rw [modSmp, core_modCore], fun _ h => core_modCore_ne s _ h⟩

theorem smpWrote_effect {s : State} {c : Nat} (h : (s.core c).cnt.smp.event ≠ 0x7E) :
    Counted s (smpWrote s c) c ∧ ((smpWrote s c).core c).cnt.smp =
      { (s.core c).cnt.smp with head := ((s.core c).cnt.smp.head + 1) % 2 ^ 32 } := by
  refine ⟨(counted_modSmp s c _).trans (counted_count _ c 0x7E 1), ?_⟩
  rw [smpWrote, smp_count (by rw [smp_modSmp]; exact h), smp_modSmp]

theorem smpLose_effect {s : State} {c : Nat} (h : (s.core c).cnt.smp.event ≠ 0x7F) :
    Counted s (smpLose s c) c ∧ ((smpLose s c).core c).cnt.smp =
      { (s.core c).cnt.smp with lost := satInc (s.core c).cnt.smp.lost 1 } := by
  refine ⟨(counted_modSmp s c _).trans (counted_count _ c 0x7F 1), ?_⟩
  rw [smpLose, smp_count (by rw [smp_modSmp]; exact h), smp_modSmp]

/-! ### Records as they are written (R345, R545) -/

/-- The state with the oldest record taken from those that are due. -/
def recordTaken (s : State) (c : Nat) (rest : List Bytes) : State := modSmp s c fun m => { m with due := rest }

/-- Whether a sampler's ring has no room. -/
def ringFull (m : Sampler) : Bool := decide ((m.head + 2 ^ 32 - m.tail) % 2 ^ 32 = 2 ^ m.log2sz)

section

variable {s : State} {c : Nat} {rec : Bytes} {rest : List Bytes} (hdue : (s.core c).cnt.smp.due = rec :: rest)

include hdue

theorem sampleRecord_full (hfull : ringFull (s.core c).cnt.smp = true) :
    exec (.sampleRecord c) s = .next (smpLose (recordTaken s c rest) c) := by
  have hexec : exec (.sampleRecord c) s = execSampleRecord c s := rfl
  rw [hexec, execSampleRecord]
  dsimp only
  rw [hdue]
  dsimp only
  rw [← ringFull, hfull]
  rfl

theorem sampleRecord_scratchpad (hfull : ringFull (s.core c).cnt.smp = false) (hdst : (s.core c).cnt.smp.dst = false) :
    exec (.sampleRecord c) s =
      .next (smpWrote (spWrite (recordTaken s c rest) c (smpSlot (s.core c).cnt.smp % 2 ^ 21) rec 6).1 c) := by
  have hexec : exec (.sampleRecord c) s = execSampleRecord c s := rfl
  rw [hexec, execSampleRecord]
  dsimp only
  rw [hdue]
  dsimp only
  rw [← ringFull, hfull, hdst]
  rfl

theorem sampleRecord_waits (hfull : ringFull (s.core c).cnt.smp = false) (hdst : (s.core c).cnt.smp.dst = true)
    (hheld : hbmHeld s (reqPart s c) (smpSlot (s.core c).cnt.smp) 32 = true) : exec (.sampleRecord c) s = .next s := by
  have hexec : exec (.sampleRecord c) s = execSampleRecord c s := rfl
  rw [hexec, execSampleRecord]
  dsimp only
  rw [hdue]
  dsimp only
  rw [← ringFull, hfull, hdst, hheld]
  rfl

theorem sampleRecord_hbm (hfull : ringFull (s.core c).cnt.smp = false) (hdst : (s.core c).cnt.smp.dst = true)
    (hheld : hbmHeld s (reqPart s c) (smpSlot (s.core c).cnt.smp) 32 = false) {u : State}
    (hacc : hbmAccess (recordTaken s c rest) (.core c) (reqPart s c) (smpSlot (s.core c).cnt.smp) 32 (some (rec, [])) = (u, ⟨.ok, [], []⟩)) :
    exec (.sampleRecord c) s = .next (smpWrote u c) := by
  have hexec : exec (.sampleRecord c) s = execSampleRecord c s := rfl
  rw [hexec, execSampleRecord]
  dsimp only
  rw [hdue]
  dsimp only
  rw [← ringFull, hfull, hdst, hheld]
  rw [if_neg (by decide), if_neg (by decide), if_pos rfl, ← recordTaken]
  have hreq : reqPart (recordTaken s c rest) c = reqPart s c := rfl
  rw [hreq, hacc]

end

end Sys2Proof.Machine
end

section
/-!
Trials of firmware banks, counters and sampling records: the rules of chapters 17 and 18 together.
-/

namespace Sys2Proof.Machine

/-! ### Verification ends (R525, R526) -/

theorem verifyDone_eq {s : State} {b flags : Nat} (hact : s.fw.act = some (b, flags)) (hupd : s.fw.upd = 2) (sigOk digOk : Bool) :
    exec (.firmwareVerifyDone sigOk digOk) s = .next (if imageCheck s b sigOk digOk ≠ 0
      then fwEvent (modFw s fun f => { f with upd := 0, act := none, banks := mset f.banks b 1 }) 3 b (imageCheck s b sigOk digOk)
      else activate (fwEvent (modFw s fun f => { f with upd := 0, act := none, banks := mset f.banks b 2 }) 2 b 0) b flags) := by
  have hexec : exec (.firmwareVerifyDone sigOk digOk) s = .next (verifyEnd s sigOk digOk) := rfl
  rw [hexec, verifyEnd, hact]
  refine congrArg Host.Outcome.next ?_
  dsimp only
  rw [if_neg (by rw [hupd]; decide)]

/-- A bank whose image has passed its checks. -/
def verifiedBank (s : State) (b : Nat) : State :=
  fwEvent (modFw s fun f => { f with upd := 0, act := none, banks := mset f.banks b 2 }) 2 b 0

theorem verifiedBank_effect (s : State) (b : Nat) : FwOnly s (verifiedBank s b) ∧ LogGets s (verifiedBank s b) 0x6001 4 ∧
    SameImages s.fw (verifiedBank s b).fw ∧ (verifiedBank s b).fw.pending = s.fw.pending ∧ mget 0 (verifiedBank s b).fw.banks b = 2 := by
  obtain ⟨l, q, o, a, h⟩ := fwEvent_modFw_fw s (fun f => { f with upd := 0, act := none, banks := mset f.banks b 2 }) 2 b 0
  refine ⟨(fwOnly_modFw s _).trans (fwOnly_fwEvent _ _ _ _), logGets_fwEvent s _ 2 b 0, ?_, ?_, ?_⟩
  · rw [verifiedBank, h]
    exact ⟨rfl, rfl, rfl, rfl⟩
  · rw [verifiedBank, h]
  · rw [verifiedBank, h]
    exact mget_mset _ _ _ _

section

variable {s : State} {b flags : Nat} {sigOk digOk : Bool} (hact : s.fw.act = some (b, flags)) (hupd : s.fw.upd = 2)

include hact hupd

theorem verifyDone_fails (hno : imageCheck s b sigOk digOk ≠ 0) : ∃ t, exec (.firmwareVerifyDone sigOk digOk) s = .next t ∧ t.fw.upd = 0 ∧
    t.fw.act = none ∧ mget 0 t.fw.banks b = 1 ∧ LogGets s t 0x6001 4 ∧ t.mem = s.mem ∧ t.cores = s.cores := by
  obtain ⟨l, q, o, a, h⟩ := fwEvent_modFw_fw s (fun f => { f with upd := 0, act := none, banks := mset f.banks b 1 }) 3 b
    (imageCheck s b sigOk digOk)
  have honly := (fwOnly_modFw s fun f => { f with upd := 0, act := none, banks := mset f.banks b 1 }).trans
    (fwOnly_fwEvent _ 3 b (imageCheck s b sigOk digOk))
  have hlog := logGets_fwEvent s (fun f => { f with upd := 0, act := none, banks := mset f.banks b 1 }) 3 b (imageCheck s b sigOk digOk)
  rw [verifyDone_eq hact hupd, if_pos hno]
  refine ⟨_, rfl, ?_, ?_, ?_, hlog, honly.rest.2.1, honly.rest.2.2⟩
  · rw [h]
  · rw [h]
  · rw [h]
    exact mget_mset _ _ _ _

variable (hok : imageCheck s b sigOk digOk = 0)

include hok

theorem verifyDone_activates : exec (.firmwareVerifyDone sigOk digOk) s = .next (activate (verifiedBank s b) b flags) := by
  rw [verifyDone_eq hact hupd, if_neg (fun h => h hok)]
  rfl

/-- A bank that only a cold start can run waits for one. -/
theorem verifyDone_awaits (hkind : actKind s b = 2) (hnow : flags.testBit 1 = false) :
    ∃ t, exec (.firmwareVerifyDone sigOk digOk) s = .next t ∧ t.fw.upd = 5 ∧ t.fw.act = some (b, flags) ∧
        mget 0 t.fw.banks b = 2 ∧ t.fw.pending = s.fw.pending ∧ LogGets s t 0x6001 4 ∧ t.mem = s.mem ∧ t.cores = s.cores := by
  obtain ⟨honly, hlog, himages, hpend, hbanks⟩ := verifiedBank_effect s b
  have hk := (actKind_of_images himages b).trans hkind
  rw [verifyDone_activates hact hupd hok]
  generalize verifiedBank s b = u at honly hlog hpend hbanks hk ⊢
  obtain ⟨q, o, a, h⟩ := modFw_eq u fun f => { f with upd := 5, act := some (b, flags) }
  refine ⟨modFw u fun f => { f with upd := 5, act := some (b, flags) }, ?_, ?_, ?_, ?_, ?_, ?_, ?_, ?_⟩
  · rw [activate, hk]
    rw [if_pos ⟨rfl, by rw [hnow]; rfl⟩]
  · rw [h]
  · rw [h]
  · rw [h]
    exact hbanks
  · rw [h]
    exact hpend
  · intro hm
    rw [h]
    exact hlog hm
  · rw [h]
    exact honly.rest.2.1
  · rw [h]
    exact honly.rest.2.2

theorem verifyDone_tries (hgo : actKind s b = 2 → flags.testBit 1 = true) :
    exec (.firmwareVerifyDone sigOk digOk) s = .next (restartKind (trialBegin (verifiedBank s b) b (actKind s b)) (actKind s b)) := by
  obtain ⟨-, -, himages, -, -⟩ := verifiedBank_effect s b
  have hk := actKind_of_images himages b
  rw [verifyDone_activates hact hupd hok, activate, hk]
  refine congrArg Host.Outcome.next (if_neg ?_)
  rintro ⟨h2, hnow⟩
  rw [hgo h2] at hnow
  cases hnow

end

/-- A trial of a bank that has passed its checks. -/
theorem trialBegun_effect (s : State) (b kind : Nat) :
    FwOnly s (trialBegin (verifiedBank s b) b kind) ∧ (trialBegin (verifiedBank s b) b kind).fw.trialState = (some b, 1, 1) ∧
      (trialBegin (verifiedBank s b) b kind).fw.act = none ∧ mget 0 (trialBegin (verifiedBank s b) b kind).fw.banks b = 3 := by
  obtain ⟨honly, -⟩ := verifiedBank_effect s b
  obtain ⟨hstate, hact, hbanks⟩ := trialBegin_fw (verifiedBank s b) b kind
  refine ⟨honly.trans (fwOnly_trialBegin _ b kind), hstate, hact, ?_⟩
  rw [hbanks, mget_mset]

theorem trialState_iff {k : Fw} {p : Option Nat} {n m : Nat} (h : k.trialState = (p, n, m)) : k.pending = p ∧ k.trials = n ∧ k.phase = m := by
  rw [Fw.trialState, Prod.mk.injEq, Prod.mk.injEq] at h
  exact h

/-! ### Reports of health (R527) -/

theorem trialHealth_settles {s : State} (hok : healthOk s = true) :
    exec (.trialHealth true true) s = .next (trialSettle (modFw s fun f => { f with healthy := true })) := by
  have hexec : exec (.trialHealth true true) s = execTrialHealth true true s := rfl
  rw [hexec, execTrialHealth, hok]
  rfl

theorem healthy_fw (s : State) : ∃ q o a, modFw s (fun f => { f with healthy := true }) =
    { s with fw := { s.fw with healthy := true, recSeq := q, older := o, recAt := a } } := modFw_eq s _

theorem trialOn_of_health {s : State} (hok : healthOk s = true) : trialOn s = true := by
  rw [healthOk] at hok
  simp only [Bool.and_eq_true] at hok
  exact hok.1.1.1

theorem trialHealth_confirms {s : State} {b : Nat} (hb : s.fw.pending = some b) (hok : healthOk s = true)
    (hmode : cfgNum s 0xA0 0x0007 0 0 = 0 ∨ s.fw.adminOk = true) :
    ∃ t, exec (.trialHealth true true) s = .next t ∧ t.fw.pending = none ∧
      t.fw.active = b ∧ mget 0 t.fw.banks b = 4 ∧ t.fw.trials = 0 ∧ svnCount t 0 = max (svnCount s 0) (headerSvnL s b) ∧
      svnCount t 1 = max (svnCount s 1) (headerSvnC s b) ∧ LogGets s t 0x6001 4 ∧ t.mem = s.mem ∧ t.cores = s.cores := by
  obtain ⟨q, o, a, h⟩ := healthy_fw s
  have hon := trialOn_of_health hok
  rw [trialHealth_settles hok, h]
  have hsettle : trialSettle { s with fw := { s.fw with healthy := true, recSeq := q, older := o, recAt := a } } =
      confirmTrial { s with fw := { s.fw with healthy := true, recSeq := q, older := o, recAt := a } } := if_pos ⟨hon, rfl, hmode⟩
  obtain ⟨h1, h2, h3, h4, h5, h6, honly, hlog⟩ :=
    confirmTrial_effect (s := { s with fw := { s.fw with healthy := true, recSeq := q, older := o, recAt := a } }) hb
  rw [hsettle]
  exact ⟨_, rfl, h1, h2, h3, h4, h5, h6, hlog, honly.rest.2.1, honly.rest.2.2⟩

end Sys2Proof.Machine
end

section
/-!
Trials of firmware banks, counters and sampling records (R525 to R529, R537, R545).
-/

namespace Sys2Proof.Machine

theorem healthy_eq (s : State) : modFw s (fun f => { f with healthy := true }) = { s with fw := { s.fw with healthy := true } } := by
  have hsame : ({ s.fw with healthy := true } : Fw).written s.fw.record s.now = { s.fw with healthy := true } := if_pos rfl
  rw [modFw, hsame]

/-- R527: where an ADMIN has to confirm the trial, a report of health alone does not. -/
theorem trialHealth_awaits {s : State} (hok : healthOk s = true) (hmode : cfgNum s 0xA0 0x0007 0 0 ≠ 0) (hadmin : s.fw.adminOk = false) :
    exec (.trialHealth true true) s = .next { s with fw := { s.fw with healthy := true } } := by
  rw [trialHealth_settles hok, healthy_eq]
  refine congrArg Host.Outcome.next (if_neg ?_)
  rintro ⟨-, -, h | h⟩
  · exact hmode h
  · exact Bool.noConfusion (hadmin.symm.trans h)

theorem trialHealth_ignored {s : State} {fields answered : Bool} (h : fields = false ∨ answered = false ∨ healthOk s = false) :
    exec (.trialHealth fields answered) s = .next s := by
  have hexec : exec (.trialHealth fields answered) s = execTrialHealth fields answered s := rfl
  rw [hexec, execTrialHealth]
  refine congrArg Host.Outcome.next (if_neg ?_)
  rcases h with h | h | h
  · rw [h]
    exact Bool.false_ne_true
  · rw [h, Bool.and_false]
    exact Bool.false_ne_true
  · rw [h, Bool.and_false]
    exact Bool.false_ne_true

theorem trialTimeout_ignored {s : State} (h : trialOn s = false) : exec .trialTimeout s = .next s := by
  have hexec : exec .trialTimeout s = .next (trialUnconfirmed s) := rfl
  rw [hexec, trialUnconfirmed, if_neg (by rw [h]; exact Bool.false_ne_true)]

/-- R529: what is pending after the record of an unconfirmed trial. -/
theorem trialRecord_pending {s : State} {b : Nat} (hb : s.fw.pending = some b) (hphase : s.fw.phase = 1) :
    (trialRecord s).fw.trialState.1 = (if s.fw.trials ≤ 1 then some b else none) ∧ (trialRecord s).fw.trialState.2.2 ≠ 2 := by
  obtain ⟨-, -, -, h1, h2⟩ := trialRecord_fw hb hphase
  by_cases ht : s.fw.trials ≤ 1
  · rw [h1 ht, if_pos ht]
    exact ⟨rfl, (by decide : (1 : Nat) ≠ 2)⟩
  · rw [(h2 (by omega)).1, if_neg ht]
    exact ⟨rfl, (by decide : (0 : Nat) ≠ 2)⟩

/-! ### Counters that wrap (R537, R538, R547) -/

theorem counterWrap_wraps {s : State} {c i n : Nat} {k : CoreCnt} (hk : k = (s.core c).cnt) (hfrz : k.frz = false)
    (hw : 2 ^ 48 ≤ mget 0 k.vals i + n) {t : State} (ht : t = modCore s c fun u => { u with cnt := cntAdd u.cnt i n }) :
    OnlyCore s t c ∧ { t.core c with cnt := k } = s.core c ∧ mget 0 (t.core c).cnt.vals i = (mget 0 k.vals i + n) % 2 ^ 48 ∧
      (t.core c).cnt.smp = k.smp ∧ (∀ j, j ≠ i → j ≠ i + 1 → mget 0 (t.core c).cnt.vals j = mget 0 k.vals j) ∧
      (i % 2 = 0 → (mget CntSel.reset k.sels (i + 1)).chain = true → (mget CntSel.reset k.sels (i + 1)).en = true →
        mget 0 k.vals (i + 1) + 1 < 2 ^ 48 → mget 0 (t.core c).cnt.vals (i + 1) = mget 0 k.vals (i + 1) + 1 ∧
          (t.core c).cnt.ovf = k.ovf ∧ (t.core c).cnt.frz = false) ∧
      (i % 2 = 1 ∨ (mget CntSel.reset k.sels (i + 1)).chain = false →
        mget 0 (t.core c).cnt.vals (i + 1) = mget 0 k.vals (i + 1) ∧ (t.core c).cnt.ovf = k.ovf ||| 2 ^ i ∧
          (t.core c).cnt.frz = k.fovf) := by
  have hcore : t.core c = { s.core c with cnt := cntAdd k i n } := by rw [ht, core_modCore, hk]
  obtain ⟨hval, hvals⟩ := cntAdd_vals hw
  have honly : OnlyCore s t c := by
    rw [ht]
    exact ⟨rfl, fun _ h => core_modCore_ne s _ h⟩
  rw [hcore]
  refine ⟨honly, by rw [hk], hval, cntAdd_smp k i n, hvals, fun hi hchain hen hu => ?_, fun hno => ?_⟩
  · dsimp only
    rw [cntAdd_carries hw hi hchain hen hu]
    exact ⟨mget_mset _ _ _ _, rfl, hfrz⟩
  · dsimp only
    rw [cntAdd_overflows hw fun h => hno.elim (fun hx => by omega) fun hx => Bool.noConfusion (hx.symm.trans h.2)]
    exact ⟨mget_mset_ne _ _ _ (by omega), rfl, by rw [hfrz]; rfl⟩

theorem counterWrap_shared {s : State} {b j cls n : Nat} (hen : (mget ShSel.reset (s.blk b).sels j).en = true) (hfrz : (s.blk b).frz = false)
    (hj : j < sharedCounters b) (hcls : cls < 17) (h1 : 1 ≤ n) (h255 : n ≤ 255) (hw : 2 ^ 48 ≤ mget 0 (s.blk b).totals j + n) :
    exec (.counterWrap (.shared b j cls) n) s = .next { s with
      shared := mset s.shared b
        { s.blk b with
          totals := mset (s.blk b).totals j ((mget 0 (s.blk b).totals j + n) % 2 ^ 48)
          shadows := mset (s.blk b).shadows (17 * j + cls) ((mget 0 (s.blk b).shadows (17 * j + cls) + n) % 2 ^ 48)
          ovf := (s.blk b).ovf ||| 2 ^ j } } := by
  have hexec : exec (.counterWrap (.shared b j cls) n) s = execCounterWrap (.shared b j cls) n s := rfl
  rw [hexec, execCounterWrap]
  refine congrArg Host.Outcome.next (if_pos ⟨hen, ?_, hj, hcls, h1, h255, hw⟩)
  rw [hfrz]
  rfl

/-! ### Sampling records (R345, R545) -/

section

variable {s : State} {c : Nat} {m : Sampler} {rec : Bytes} {rest : List Bytes} (hm : m = (s.core c).cnt.smp) (hdue : m.due = rec :: rest)
  (h7e : m.event ≠ 0x7E) (h7f : m.event ≠ 0x7F)

include hm hdue

omit hdue in
theorem recordTaken_effect : Counted s (recordTaken s c rest) c ∧ ((recordTaken s c rest).core c).cnt.smp = { m with due := rest } := by
  refine ⟨counted_modSmp s c _, ?_⟩
  rw [recordTaken, smp_modSmp, hm]

include h7f in
theorem sampleRecord_loses (hfull : ringFull m = true) : ∃ t, exec (.sampleRecord c) s = .next t ∧ t.mem = s.mem ∧
    (t.core c).cnt.smp = { m with due := rest, lost := satInc m.lost 1 } ∧ ∀ k, k ≠ c → t.core k = s.core k := by
  obtain ⟨hcount, hsmp⟩ := recordTaken_effect (rest := rest) hm
  obtain ⟨hlose, hsmp'⟩ := smpLose_effect (s := recordTaken s c rest) (c := c) (by rw [hsmp]; exact h7f)
  have h := hcount.trans hlose
  refine ⟨_, sampleRecord_full (hm ▸ hdue) (hm ▸ hfull), h.mem, ?_, h.others⟩
  rw [hsmp', hsmp]

include h7e

theorem sampleRecord_writes (hw : MemInv s) (hfull : ringFull m = false) (hdst : m.dst = false) (hbase : m.base % 32 = 0) (hlen : rec.length = 32)
    (hin : smpSlot m + 32 ≤ 2 ^ 21) : ∃ t, exec (.sampleRecord c) s = .next t ∧
        (t.core c).cnt.smp = { m with due := rest, head := (m.head + 1) % 2 ^ 32 } ∧
        (∀ i < 32, spByte t c (smpSlot m + i) = rec.getD i 0) ∧ SpFrame s t c (smpSlot m) 32 ∧ ∀ k, k ≠ c → t.core k = s.core k := by
  obtain ⟨hcount, hsmp⟩ := recordTaken_effect (rest := rest) hm
  have hslot : smpSlot m % 2 ^ 21 = smpSlot m := Nat.mod_eq_of_lt (by omega)
  have halign : smpSlot m % 8 = 0 := by
    rw [smpSlot]
    omega
  have hexec := sampleRecord_scratchpad (hm ▸ hdue) (hm ▸ hfull) (hm ▸ hdst)
  rw [← hm, hslot] at hexec
  have hwu : MemInv (recordTaken s c rest) := by
    rw [MemInv, hcount.mem]
    exact hw
  generalize recordTaken s c rest = u at hcount hsmp hexec hwu
  obtain ⟨marks, hwrite⟩ := spWrite_words (s := u) (c := c) (off := smpSlot m) (bs := rec) 6 halign (by rw [hlen])
  have hframe := spPuts_frame u c (smpSlot m) rec hwu
  have hbytes := spBytes_spPuts u c (smpSlot m) rec hwu (by rw [hlen]; exact hin)
  have hcores : ∀ k, (spPuts u c (smpSlot m) rec).core k = u.core k := fun k => core_spPuts u c _ k rec
  rw [hwrite] at hexec
  rw [hlen] at hframe hbytes
  generalize spPuts u c (smpSlot m) rec = v at hexec hframe hbytes hcores
  have hsmpv : ((({ v with marks := marks } : State).core c).cnt.smp) = { m with due := rest } := by
    rw [← hsmp, ← hcores]
    rfl
  obtain ⟨hwrote, hsmp'⟩ := smpWrote_effect (s := { v with marks := marks }) (c := c) (by rw [hsmpv]; exact h7e)
  have hkey : ∀ x, spKey u c x = spKey s c x := hcount.spKey
  refine ⟨_, hexec, ?_, fun i hi => ?_, fun x hx => ?_, fun k hk => ?_⟩
  · rw [hsmp', hsmpv]
  · rw [hwrote.spByte]
    have h := congrArg (·.getD i 0) hbytes
    simp only [spBytes, List.getD_eq_getElem?_getD, List.getElem?_map, List.getElem?_range hi, Option.map_some, Option.getD_some] at h
    rw [List.getD_eq_getElem?_getD]
    exact h
  · rw [hwrote.mem]
    refine (hframe x fun i hi => ?_).trans (by rw [hcount.mem])
    rw [hkey]
    exact hx i hi
  · rw [hwrote.others k hk]
    exact (hcores k).trans (hcount.others k hk)

theorem sampleRecord_writesHbm (hw : MemInv s) (hfull : ringFull m = false) (hdst : m.dst = true) (hlen : rec.length = 32)
    (hok : hbmCheck s (reqPart s c) (smpSlot m) 32 = .ok)
    (htok : ∀ q ∈ hbmPieces s (smpSlot m) 32, (s.stack q.1).waiting = [] ∧ hbmNeed s (smpSlot m) 32 q.1 ≤ (s.stack q.1).tokens)
    (hs : HbmSound s (smpSlot m) 32) : ∃ t, exec (.sampleRecord c) s = .next t ∧ HbmWritten s t (smpSlot m) rec ∧
          (t.core c).cnt.smp = { m with due := rest, head := (m.head + 1) % 2 ^ 32 } ∧ ∀ k, k ≠ c → t.core k = s.core k := by
  obtain ⟨hcount, hsmp⟩ := recordTaken_effect (rest := rest) hm
  have ha : hbmBase ≤ smpSlot m := by
    by_contra hlt
    have hnot : isHbm (smpSlot m / 256 * 256) = false := by
      rw [isHbm, decide_eq_false (by omega)]
      rfl
    have hmem : smpSlot m / 256 * 256 ∈ blocksOf (smpSlot m) 32 := by
      rw [blocksOf, if_neg (by decide), List.mem_map]
      exact ⟨0, List.mem_range.2 (by omega), by omega⟩
    have hany : (blocksOf (smpSlot m) 32).any (fun b => !isHbm b || hbmAbsent s b || hbmRetired s b) = true :=
      List.any_eq_true.2 ⟨_, hmem, by rw [hnot]; rfl⟩
    rw [hbmCheck] at hok
    rw [hany] at hok
    split at hok <;> cases hok
  have hcheck : hbmCheck (recordTaken s c rest) (reqPart s c) (smpSlot m) rec.length = .ok := by
    rw [hlen]
    exact hok
  have hsound : HbmSound (recordTaken s c rest) (smpSlot m) rec.length := by
    rw [hlen]
    exact hs
  have hwu : MemInv (recordTaken s c rest) := hw
  obtain ⟨u, hacc, honly, -, hwritten, -⟩ := hbmAccess_write hcheck ha hwu hsound (by omega) (.core c) []
  rw [hlen] at hacc
  have hexec := sampleRecord_hbm (hm ▸ hdue) (hm ▸ hfull) (hm ▸ hdst) (hm ▸ hbmHeld_of_tokens htok) (hm ▸ hacc)
  have hcores : ∀ k, u.core k = (recordTaken s c rest).core k := fun k => by
    rw [honly]
    rfl
  obtain ⟨hwrote, hsmp'⟩ := smpWrote_effect (s := u) (c := c) (by rw [hcores, hsmp]; exact h7e)
  refine ⟨_, hexec, ⟨fun i hi => ?_, fun x hx => ?_⟩, ?_, fun k hk => ?_⟩
  · have hb : hbmByte (smpWrote u c) (smpSlot m + i) = hbmByte u (smpSlot m + i) := rfl
    rw [hb]
    exact hwritten.1 i hi
  · rw [hwrote.mem]
    exact (hwritten.2 x hx).trans (by rw [hcount.mem])
  · rw [hsmp', hcores, hsmp]
  · rw [hwrote.others k hk, hcores]
    exact hcount.others k hk

end

end Sys2Proof.Machine

open Sys2Proof.Machine in
/-- Settles O54: every command of trials, counters and sampling answers; the state record follows the trial through its restart,
confirmation and end; counters wrap into what is chained; and a record moves HEAD only where it is written. -/
theorem trialsEndAndCountersWrap : Obligations.TrialsEndAndCountersWrap := by
  unfold Obligations.TrialsEndAndCountersWrap
  refine ⟨?_, ?_, ?_, ?_, ?_, ?_, ?_, ?_, ?_, ?_, ?_, ?_⟩
  · intro s x y r n c i hi
    simp only [List.mem_cons, List.not_mem_nil, or_false] at hi
    rcases hi with rfl | rfl | rfl | rfl | rfl <;> exact ⟨_, rfl⟩
  · intro s sigOk digOk b flags hact hupd
    refine ⟨fun hno => verifyDone_fails hact hupd hno, fun hok hkind hnow => verifyDone_awaits hact hupd hok hkind hnow, fun hok hkind => ?_,
      fun hok hkind hvin h1 h2 h3 => ?_, fun hok hkind hnow hvin h2 h3 => ?_⟩
    · have hexec := verifyDone_tries hact hupd hok fun h => absurd (hkind.symm.trans h) (by decide)
      rw [hkind] at hexec
      obtain ⟨honly, hstate, -, hbanks⟩ := trialBegun_effect s b 0
      obtain ⟨kstate, kbanks, -, kmgmt, kdev, kmem, kcores⟩ := mgmtTrial_effect (trialBegin (verifiedBank s b) b 0)
      obtain ⟨hp, ht, hph⟩ := trialState_iff (kstate.trans hstate)
      exact ⟨_, hexec, hp, ht, hph, by rw [kbanks, hbanks], kmgmt, kdev.trans honly.view.2.2.1, kmem.trans honly.rest.2.1,
        kcores.trans honly.rest.2.2⟩
    · have hexec := verifyDone_tries hact hupd hok fun h => absurd (hkind.symm.trans h) (by decide)
      rw [hkind] at hexec
      obtain ⟨honly, hstate, -, -⟩ := trialBegun_effect s b 1
      obtain ⟨-, kvin, kdev, -⟩ := honly.view
      obtain ⟨kstate, kmgmt, kwaking, kstage⟩ := warmTrial_effect (kvin.trans hvin) (kdev ▸ h1) (kdev ▸ h2) (kdev ▸ h3)
      obtain ⟨hp, ht, hph⟩ := trialState_iff (kstate.trans hstate)
      exact ⟨_, hexec, hp, ht, hph, kmgmt, kwaking, kstage⟩
    · have hexec := verifyDone_tries hact hupd hok fun _ => hnow
      rw [hkind] at hexec
      obtain ⟨honly, hstate, hact', -⟩ := trialBegun_effect s b 2
      obtain ⟨-, -, kdev, kpwr⟩ := honly.view
      obtain ⟨kstate, kmgmt, kwaking, kstage⟩ := coldTrial_effect (le_refl 2) (kpwr ▸ hvin) (kdev ▸ h2) (kdev ▸ h3) hact'
        (by rw [hstate]; exact (by decide : (1 : Nat) ≠ 2))
      obtain ⟨hp, ht, hph⟩ := trialState_iff (kstate.trans hstate)
      exact ⟨_, hexec, hp, ht, hph, kmgmt, kwaking, kstage⟩
  · intro s b hb hok
    exact ⟨fun hmode => trialHealth_confirms hb hok hmode, fun hmode hadmin => ⟨_, trialHealth_awaits hok hmode hadmin, rfl, rfl⟩⟩
  · exact fun s fields answered h => trialHealth_ignored h
  · intro s b hb hphase hkind
    obtain ⟨-, -, hactive, h1, h2⟩ := trialRecord_fw hb hphase
    obtain ⟨-, hmem, hcores⟩ := (fwOnly_trialRecord s).rest
    obtain ⟨kstate, kbanks, kactive, kmgmt, kdev, kmem, kcores⟩ := mgmtTrial_effect (trialRecord s)
    have hexec := trialTimeout_eq hb hphase
    rw [hkind] at hexec
    refine ⟨_, hexec, kmgmt, kmem.trans hmem, kcores.trans hcores, kdev.trans (fwOnly_trialRecord s).view.2.2.1, fun ht => ?_, fun ht => ?_⟩
    · obtain ⟨hp, ht, -⟩ := trialState_iff (kstate.trans (h1 ht))
      exact ⟨hp, ht⟩
    · obtain ⟨hstate, hbanks⟩ := h2 ht
      obtain ⟨hp, -, hph⟩ := trialState_iff (kstate.trans hstate)
      exact ⟨hp, hph, by rw [kbanks, hbanks, mget_mset], kactive.trans hactive⟩
  · intro s b hb hphase h2 h3
    obtain ⟨hact, -, -, -, -⟩ := trialRecord_fw hb hphase
    obtain ⟨hpend, hne⟩ := trialRecord_pending hb hphase
    obtain ⟨-, kvin, kdev, kpwr⟩ := (fwOnly_trialRecord s).view
    have hexec := trialTimeout_eq hb hphase
    refine ⟨fun hkind hvin h1 => ?_, fun hkind hvin hnone => ?_⟩
    · obtain ⟨kstate, kmgmt, kwaking, kstage⟩ := warmTrial_effect (kvin.trans hvin) (kdev ▸ h1) (kdev ▸ h2) (kdev ▸ h3)
      rw [hkind] at hexec
      exact ⟨_, hexec, kwaking, kstage, kmgmt, (congrArg Prod.fst kstate).trans hpend⟩
    · obtain ⟨kstate, kmgmt, kwaking, kstage⟩ := coldTrial_effect hkind (kpwr ▸ hvin) (kdev ▸ h2) (kdev ▸ h3) (hact.trans hnone) hne
      exact ⟨_, hexec, kwaking, kstage, kmgmt, (congrArg Prod.fst kstate).trans hpend⟩
  · exact fun s h => trialTimeout_ignored h
  · rintro s c i n k rfl hfrz
    exact counterWrap_frozen hfrz i n
  · exact fun k code n hfrz => cntEvent_frozen hfrz code n
  · intro s c i n k hk hc hi h1 h255 hfrz hen hchain
    have hexec := counterWrap_core hc hi h1 h255 (hk ▸ hfrz) (hk ▸ hen) (hk ▸ hchain)
    rw [← hk] at hexec
    refine ⟨fun hlt => ?_, fun hw => ?_⟩
    · rw [hexec, if_neg (by omega)]
    · rw [hexec, if_pos hw]
      exact ⟨_, rfl, counterWrap_wraps hk hfrz hw rfl⟩
  · intro s b j cls n hen hfrz hj hcls h1 h255 hw
    refine ⟨_, counterWrap_shared hen hfrz hj hcls h1 h255 hw, rfl, fun k hk => mget_mset_ne _ _ _ hk, ?_⟩
    have hblk : ∀ x : Shared, mget Shared.reset (mset s.shared b x) b = x := fun x => mget_mset _ _ _ _
    refine ⟨congrArg Shared.ovf (hblk _), ?_, ?_⟩
    · exact (congrArg (fun x : Shared => mget 0 x.totals j) (hblk _)).trans (mget_mset _ _ _ _)
    · exact (congrArg (fun x : Shared => mget 0 x.shadows (17 * j + cls)) (hblk _)).trans (mget_mset _ _ _ _)
  · intro s c m rec rest hm hdue h7e h7f hw
    refine ⟨fun hfull => sampleRecord_loses hm hdue h7f (decide_eq_true hfull), fun hfull hdst hbase hlen hin =>
      sampleRecord_writes hm hdue h7e hw (decide_eq_false hfull) hdst hbase hlen hin, fun hfull hdst hlen hok => ⟨fun hwait => ?_, fun htok hs =>
      sampleRecord_writesHbm hm hdue h7e hw (decide_eq_false hfull) hdst hlen hok htok hs⟩⟩
    have hheld := hbmHeld_of_wait hok hwait
    exact sampleRecord_waits (hm ▸ hdue) (by rw [← hm]; exact decide_eq_false hfull) (hm ▸ hdst) (by rw [← hm]; exact hheld)
end

section
/-!
O55, O56: a datagram of a family that its port does not hold, and a kept reply that goes to a peer again.
-/

namespace Sys2Proof.Machine
open Sys2Proof

/-! ### A datagram of a family that its port does not hold (R485) -/

/-- An IPv4 source address, as IPv4-mapped. -/
def ipv4Source : Bytes := List.replicate 10 0#8 ++ [0xFF#8, 0xFF#8] ++ [10#8, 0#8, 0#8, 1#8]

/-- R485: with mgmt.ipv4_enable at 0 the datagram is not heard, whatever lead its unit has. -/
theorem ipv4_unheard : exec (.mgmtDatagram 0 ipv4Source (.badLead [])) State.reset = .next State.reset := by
  have hport : portUp State.reset 0 = true := by decide
  have hfamily : familyOn State.reset 0 ipv4Source = false := by decide
  refine congrArg Host.Outcome.next (if_pos ?_)
  rw [hport, hfamily]
  rfl

/-- Refutes O55: a datagram from an IPv4 address reaches a port that works and an empty mgmt.allow admits it, but
mgmt.ipv4_enable is 0, so the port holds no address of that family (R485): the device does not hear the datagram, and its invalid
lead is not counted. -/
theorem not_managementPathsServe : ¬ Obligations.ManagementPathsServe := by
  unfold Obligations.ManagementPathsServe
  rintro ⟨-, -, -, hdatagram, -⟩
  obtain ⟨-, hadmitted⟩ := hdatagram State.reset 0 ipv4Source (.badLead []) (by decide)
  obtain ⟨-, -, -, hlead⟩ := hadmitted (by decide) rfl
  obtain ⟨t, ht, -, -, -, hcount⟩ := hlead [] rfl
  have hsame : State.reset = t := Host.Outcome.next.inj (ipv4_unheard.symm.trans ht)
  rw [← hsame] at hcount
  exact absurd hcount (Nat.succ_ne_self _).symm

/-! ### A kept reply to a peer (R488, R498) -/

/-- A CLOSE of session 1 of device 0, whose SEQ has been executed before. -/
def peerClose : SasilHdr :=
  { tr := .peer 0, secure := true, ver := 0x10, seq := 0, sid := 1, async := false, last := false, malformed := none }

/-- The session of a peer, which keeps its reply to SEQ 0. -/
def peerSession : Session :=
  { newSession State.reset (.peer 0) true 2 0xFF none with ver := some 0x10, replies := [replyMsg peerClose 8 1 0 []] }

/-- A device on which the peer has its session. -/
def peerServed : State := { State.reset with sessions := [(1, peerSession)] }

theorem peerServed_named : Named peerServed peerClose peerSession :=
  ⟨⟨by decide, rfl, fun _ h => Transport.noConfusion h, fun _ _ h => Transport.noConfusion h⟩, rfl, rfl, rfl, rfl,
    fun h => Bool.noConfusion h⟩

/-- R488: the kept reply leaves again as the data of a MGMT packet. -/
theorem peerServed_resends : exec (.close_ peerClose) peerServed =
    .next (sendMsg peerServed (.peer 0) true (replyMsg peerClose 8 1 0 [])) := rfl

/-- Refutes O56: the reply kept for a request that was executed before goes to a peer in a MGMT packet (R488), sealed, and
not as a message of a management transport: the clause leaves the mailboxes out, but not the peers. -/
theorem not_sasilRequestsAreServed : ¬ Obligations.SasilRequestsAreServed := by
  unfold Obligations.SasilRequestsAreServed
  rintro ⟨-, -, -, hnamed, -⟩
  obtain ⟨-, hversion⟩ := hnamed peerServed peerClose peerSession .close _ peerServed_named rfl (fun _ h => SasilBody.noConfusion h)
  obtain ⟨hkept, -⟩ := hversion rfl rfl
  obtain ⟨t, ht, hout⟩ := hkept (replyMsg peerClose 8 1 0 []) rfl rfl
  have hsent : sendMsg peerServed (.peer 0) true (replyMsg peerClose 8 1 0 []) = t :=
    Host.Outcome.next.inj (peerServed_resends.symm.trans ht)
  have hlast := congrArg State.out (hsent.trans hout)
  exact Output.noConfusion (List.head_eq_of_cons_eq hlast)

end Sys2Proof.Machine
end

section
/-!
O57: actions of the object dictionary as a session performs them (R491, R501, R504).
-/

namespace Sys2Proof.Machine
open Sys2Proof

/-! ### Whether an action runs -/

theorem byAction_of_mayAct {s : State} {sid : Nat} {a : ObjAddr} {v : ObjVal} (h : MayAct s sid a v) : byAction s sid a v = actRun s a v := by
  obtain ⟨e, d, he, hd, hserved, hrecovery, hcheck⟩ := h
  rw [byAction, he, hd]
  exact if_pos ⟨hserved, hcheck, hrecovery⟩

theorem byAction_of_noSession {s : State} {sid : Nat} (h : mfind s.sessions sid = none) (a : ObjAddr) (v : ObjVal) : byAction s sid a v = s := by
  rw [byAction, h]

theorem bySet_of_noSession {s : State} {sid : Nat} (h : mfind s.sessions sid = none) (a : ObjAddr) (v : ObjVal) : bySet s sid a v = s := by
  rw [bySet, h]

/-- R504: the rule of the action itself is the last of an action's checks. -/
theorem actRule_of_check {s : State} {e : Session} {t : ObjEntry} (h : actCheckAll s e t = 0) : actRule s e t.addr t.val = 0 := by
  unfold actCheckAll at h
  split at h
  · exact absurd h (by decide)
  · split at h
    · exact absurd h (by decide)
    · iterate 5 rw [ite_eq_iff] at h
      obtain ⟨-, h⟩ | ⟨-, ⟨-, h⟩ | ⟨-, ⟨-, h⟩ | ⟨-, ⟨-, h⟩ | ⟨-, ⟨-, h⟩ | ⟨-, h⟩⟩⟩⟩⟩ := h
      · exact absurd h (by decide)
      · exact absurd h (by decide)
      · exact absurd h (by decide)
      · exact absurd h (by decide)
      · exact absurd h (by decide)
      · exact h

theorem MayAct.rule {s : State} {sid : Nat} {a : ObjAddr} {v : ObjVal} (h : MayAct s sid a v) : ∃ e, actRule s e a v = 0 := by
  obtain ⟨e, d, -, -, -, -, hcheck⟩ := h
  exact ⟨e, actRule_of_check hcheck⟩

theorem of_need {ok : Bool} {st : Nat} (hst : st ≠ 0) (h : need ok st = 0) : ok = true := by
  cases ok
  · exact absurd h hst
  · rfl

/-- R512: the element that an object's address names. -/
theorem elem_lt_of_objAt {a : ObjAddr} {d : ObjDesc} (h : objAt a = some d) : a.elem < d.elems ∧ d ∈ objTable ∧ d.area = a.area ∧ d.idx = a.idx := by
  have hp := List.find?_some h
  rw [Bool.and_eq_true, Bool.and_eq_true, beq_iff_eq, beq_iff_eq, decide_eq_true_iff] at hp
  obtain ⟨⟨harea, hidx⟩, helem⟩ := hp
  exact ⟨helem, List.mem_of_find?_eq_some h, harea, hidx⟩

theorem MayAct.elem_lt {s : State} {sid : Nat} {a : ObjAddr} {v : ObjVal} {n : Nat} (h : MayAct s sid a v)
    (hn : ∀ d ∈ objTable, d.area = a.area → d.idx = a.idx → d.elems = n) : a.elem < n := by
  obtain ⟨e, d, -, hd, -⟩ := h
  obtain ⟨helem, hmem, harea, hidx⟩ := elem_lt_of_objAt hd
  exact hn d hmem harea hidx ▸ helem

theorem actions_of_noSession (s : State) (sid n m : Nat) (b : Bytes) (h : mfind s.sessions sid = none) :
    ∀ i ∈ [Instr.surveyRevoke sid n, .epochAdvance sid, .portResetAction sid n, .portAdmit sid n, .bundleKeySwitch sid n,
      .memoryRetire sid n, .partitionReset sid n, .echoResync sid, .domainSwitch sid n m, .auxReset sid n, .coldStart sid,
      .warmStart sid, .computeReset sid, .managementRestart sid, .lowEnter sid, .lowExit sid, .stateRelease sid, .coreReset sid n,
      .failCore sid n, .fieldCheck sid b, .alertAck sid n, .enroll sid b, .slotRevoke sid n, .factoryReset sid,
      .firmwareActivate sid n, .firmwareConfirm sid, .firmwareRevert sid, .countersClear sid], exec i s = .next s := by
  have hact : ∀ a v, Host.Outcome.next (byAction s sid a v) = (.next s : Res) := fun a v => congrArg _ (byAction_of_noSession h a v)
  have hset : ∀ a v, Host.Outcome.next (bySet s sid a v) = (.next s : Res) := fun a v => congrArg _ (bySet_of_noSession h a v)
  simp only [List.forall_mem_cons, List.not_mem_nil, IsEmpty.forall_iff, implies_true, and_true]
  exact ⟨hact _ _, hact _ _, hact _ _, hact _ _, hact _ _, hact _ _, hact _ _, hact _ _, hact _ _, hact _ _, hact _ _, hact _ _,
    hact _ _, hact _ _, hset _ _, hset _ _, hact _ _, hact _ _, hact _ _, hact _ _, hact _ _, hact _ _, hact _ _, hact _ _,
    hact _ _, hact _ _, hact _ _, hact _ _⟩

/-! ### The Survey and link tables (R46, R308) -/

theorem leAt_natBytes {n k : Nat} (h : n < 256 ^ k) : leAt (natBytes k n) 0 k = n := by
  rw [leAt, List.drop_zero, List.take_of_length_le (natBytes_length k n).le, leNat_natBytes, Nat.mod_eq_of_lt h]

theorem surveyRevoke_effect {s : State} {sid n : Nat} (hn : n < 2 ^ 32) (h : MayAct s sid ⟨0x30, 0x0004, 0⟩ (.blob (natBytes 4 n))) :
    ∃ t, exec (.surveyRevoke sid n) s = .next t ∧ { t with survey := s.survey } = s ∧ n ∈ t.survey.revoked ∧
      t.survey.entries = s.survey.entries ∧ ∀ x, x ∈ t.survey.revoked ↔ x = n ∨ x ∈ s.survey.revoked := by
  have hseq : leAt (natBytes 4 n) 0 4 = n := leAt_natBytes hn
  refine ⟨actRevoke s (natBytes 4 n), congrArg Host.Outcome.next (byAction_of_mayAct h), rfl, ?_⟩
  rw [actRevoke, hseq]
  by_cases hc : s.survey.revoked.contains n
  · have hmem : n ∈ s.survey.revoked := List.contains_iff_mem.1 hc
    simp only [hc, if_true]
    exact ⟨hmem, trivial, fun x => ⟨.inr, fun hx => hx.elim (fun e => e ▸ hmem) id⟩⟩
  · simp only [hc, Bool.false_eq_true, if_false]
    exact ⟨by simp, rfl, by simp [or_comm]⟩

theorem epochAdvance_effect {s : State} {sid : Nat} (h : MayAct s sid ⟨0x50, 0x0003, 0⟩ (.num 1)) :
    ∃ t, exec (.epochAdvance sid) s = .next t ∧ { t with links := s.links, badEntries := s.badEntries } = s ∧
      t.links.advancing = true ∧ t.links.epoch = s.links.epoch ∧
      (if s.links.epoch.toNat % 2 = 0 then t.links.rt0 = s.links.rt0 ∧ t.links.rt1 = routeNext s
        else t.links.rt1 = s.links.rt1 ∧ t.links.rt0 = routeNext s) := by
  refine ⟨actEpoch s, congrArg Host.Outcome.next (byAction_of_mayAct h), rfl, rfl, rfl, ?_⟩
  by_cases hp : s.links.epoch.toNat % 2 = 0
  · rw [if_pos hp, actEpoch, hp]
    exact ⟨rfl, rfl⟩
  · have hodd : (s.links.epoch.toNat % 2 == 0) = false := beq_false_of_ne hp
    rw [if_neg hp, actEpoch, hodd]
    exact ⟨rfl, rfl⟩

/-! ### Counters and a reset to factory settings (R490, R551) -/

theorem factoryReset_effect {s : State} {sid : Nat} (h : MayAct s sid ⟨0xB0, 0x000B, 0⟩ (.num 1)) :
    ∃ t, exec (.factoryReset sid) s = .next t ∧ { t with mgmt := s.mgmt } = s ∧ t.mgmt = { s.mgmt with factoryDue := true } :=
  ⟨actFactory s, congrArg Host.Outcome.next (byAction_of_mayAct h), rfl, rfl⟩

theorem countersClear_effect {s : State} {sid : Nat} (h : MayAct s sid ⟨0x90, 0x0120, 0⟩ (.num 1)) :
    ∃ t, exec (.countersClear sid) s = .next t ∧ { t with shared := s.shared } = s ∧
      ∀ b, t.blk b = { s.blk b with totals := [], shadows := [] } :=
  ⟨actClear s, congrArg Host.Outcome.next (byAction_of_mayAct h), rfl, fun b => mget_map (f := clearShared) rfl s.shared b⟩

/-! ### Activation and confirmation of an image (R525, R527) -/

theorem firmwareActivate_effect {s : State} {sid flags : Nat} (h : MayAct s sid ⟨0xA0, 0x0005, 0⟩ (.blob (natBytes 4 (flags % 256)))) :
    ∃ t, exec (.firmwareActivate sid flags) s = .next t ∧ { t with fw := s.fw } = s ∧
      t.fw = { s.fw with upd := 2, act := some (targetBank s, flags % 256) } := by
  refine ⟨actActivate s (natBytes 4 (flags % 256)), congrArg Host.Outcome.next (byAction_of_mayAct h), rfl, ?_⟩
  have hflags : byteNat (natBytes 4 (flags % 256)) 0 = flags % 256 :=
    (BitVec.toNat_ofNat _ _).trans (Nat.mod_mod flags 256)
  rw [actActivate, hflags]
  exact if_pos rfl

/-! ### Alerts and enrolment (R474, R490) -/

theorem alertAck_effect {s : State} {sid q : Nat} (h : MayAct s sid ⟨0x80, 0x0004, 0⟩ (.num q)) :
    ∃ t, exec (.alertAck sid q) s = .next t ∧ { t with mgmt := s.mgmt, pwr := s.pwr } = s ∧
      t.mgmt = { s.mgmt with alertAcked := max s.mgmt.alertAcked q } := by
  have haux := auxOnly_auxUpdate (modMgmt s fun m => { m with alertAcked := max m.alertAcked q })
  refine ⟨actAlertAck s q, congrArg Host.Outcome.next (byAction_of_mayAct h), ?_⟩
  rw [actAlertAck, haux]
  exact ⟨rfl, rfl⟩

end Sys2Proof.Machine
end

section
/-!
O57: sessions that close, enrolment slots and firmware (R452, R490, R492, R527, R533).
-/

namespace Sys2Proof.Machine
open Sys2Proof

/-! ### Sessions that close (R492) -/

/-- Every session of `t` is one of `s`, of the same enrolment slot. -/
def SessionsFrom (s t : State) : Prop := ∀ x ∈ t.sessions, ∃ y ∈ s.sessions, y.1 = x.1 ∧ y.2.slot = x.2.slot

theorem SessionsFrom.of_eq {s t : State} (h : t.sessions = s.sessions) : SessionsFrom s t := fun x hx => ⟨x, h ▸ hx, rfl, rfl⟩

theorem SessionsFrom.trans {s t u : State} (h : SessionsFrom s t) (k : SessionsFrom t u) : SessionsFrom s u := fun x hx => by
  obtain ⟨y, hy, hk, hs⟩ := k x hx
  obtain ⟨z, hz, hk', hs'⟩ := h y hy
  exact ⟨z, hz, hk'.trans hk, hs'.trans hs⟩

theorem slot_deliver (e : Session) (r : LogRec) (f : Sub → Sub) : (if e.wants r then { e with sub := e.sub.map f } else e).slot = e.slot := by
  split <;> rfl

theorem sessionsFrom_storeRec (s : State) (r : LogRec) : SessionsFrom s (storeRec s r) := by
  have hdeliver : ∀ u r, SessionsFrom u (deliverRec u r) := fun u r x hx => by
    rw [deliverRec] at hx
    obtain ⟨y, hy, rfl⟩ := List.mem_map.1 hx
    exact ⟨y, hy, rfl, (slot_deliver y.2 r _).symm⟩
  rw [storeRec]
  refine SessionsFrom.trans (.of_eq ?_) (hdeliver _ _)
  split <;> rfl

theorem sessionsFrom_appendRec (s : State) (r : LogRec) : SessionsFrom s (appendRec s r) := by
  unfold appendRec
  split
  · exact .of_eq rfl
  · exact sessionsFrom_storeRec s r

theorem sessionsFrom_raiseEvent (s : State) (code ukind unit : Nat) (part : Option Nat) (detail : List Nat) :
    SessionsFrom s (raiseEvent s code ukind unit part detail) := by
  unfold raiseEvent raiseRec
  dsimp only
  split
  · exact sessionsFrom_appendRec s _
  · split
    · exact .of_eq rfl
    · exact SessionsFrom.trans (t := { s with coals := s.coals ++ [⟨code, 4, ukind, unit, part, 0, s.echoM, detail⟩] }) (.of_eq rfl)
        (sessionsFrom_appendRec _ _)

theorem ne_of_mfind_none {α : Type} {m : Map α} {k : Nat} (h : mfind m k = none) {x : Nat × α} (hx : x ∈ m) : x.1 ≠ k := by
  have hdel : x ∈ mdel m k := (mdel_of_mfind_none h).symm ▸ hx
  exact bne_iff_ne.1 (List.mem_filter.1 hdel).2

theorem sessions_dropImage (s : State) (e : Session) : (dropImage s e).sessions = s.sessions := by
  rw [dropImage]
  split
  · rfl
  · split <;> rfl

theorem closeSession_gone (s : State) (sid : Nat) (why : CloseCause) : SessionsFrom s (closeSession s sid why) ∧
    ∀ x ∈ (closeSession s sid why).sessions, x.1 ≠ sid := by
  rw [closeSession]
  split
  · next h => exact ⟨.of_eq rfl, fun x hx => ne_of_mfind_none h hx⟩
  · next e _ =>
    have hdrop : (if e.staging.isSome then dropImage { s with sessions := mdel s.sessions sid } e else { s with sessions := mdel s.sessions sid }).sessions =
        mdel s.sessions sid := by
      split
      · exact sessions_dropImage _ e
      · rfl
    dsimp only
    generalize (if e.staging.isSome = true then dropImage { s with sessions := mdel s.sessions sid } e else { s with sessions := mdel s.sessions sid }) = u at hdrop ⊢
    have hrec := sessionsFrom_raiseEvent (modWake u fun w => { w with asyncs := w.asyncs.filter (fun a => a.sid != sid) }) 0x5002 0 0 none
      [e.cls, transportCode e.tr, why.code]
    have hin : ∀ x ∈ u.sessions, x ∈ s.sessions ∧ x.1 ≠ sid := fun x hx => by
      rw [hdrop] at hx
      obtain ⟨hs, hne⟩ := List.mem_filter.1 hx
      exact ⟨hs, bne_iff_ne.1 hne⟩
    refine ⟨fun x hx => ?_, fun x hx => ?_⟩
    · obtain ⟨y, hy, hk⟩ := hrec x hx
      exact ⟨y, (hin y hy).1, hk⟩
    · obtain ⟨y, hy, hk, -⟩ := hrec x hx
      exact hk ▸ (hin y hy).2

theorem closeEach_gone (why : CloseCause) (l : List (Nat × Session)) (s : State) :
    SessionsFrom s (l.foldl (fun s x => closeSession s x.1 why) s) ∧
      ∀ x ∈ l, ∀ y ∈ (l.foldl (fun s x => closeSession s x.1 why) s).sessions, y.1 ≠ x.1 := by
  induction l generalizing s with
  | nil => exact ⟨.of_eq rfl, fun x hx => absurd hx List.not_mem_nil⟩
  | cons a l ih =>
    obtain ⟨hfrom, hgone⟩ := ih (closeSession s a.1 why)
    obtain ⟨hfirst, hne⟩ := closeSession_gone s a.1 why
    refine ⟨hfirst.trans hfrom, fun x hx y hy => ?_⟩
    rcases List.mem_cons.1 hx with rfl | hx
    · obtain ⟨z, hz, hk, -⟩ := hfrom y hy
      exact hk ▸ hne z hz
    · exact hgone x hx y hy

/-- Of the sessions those that `p` does not name are left. -/
theorem closeSessions_left {s : State} {p : Session → Bool} {why : CloseCause} {x : Nat × Session} (hx : x ∈ (closeSessions s p why).sessions) :
    ∃ y ∈ s.sessions, y.1 = x.1 ∧ y.2.slot = x.2.slot ∧ p y.2 = false := by
  obtain ⟨hfrom, hgone⟩ := closeEach_gone why (s.sessions.filter fun x => p x.2) s
  obtain ⟨y, hy, hk, hs⟩ := hfrom x hx
  refine ⟨y, hy, hk, hs, Bool.eq_false_iff.2 fun hp => ?_⟩
  exact hgone y (List.mem_filter.2 ⟨hy, hp⟩) x hx hk.symm

theorem closeSessions_all (s : State) (why : CloseCause) : (closeSessions s (fun _ => true) why).sessions = [] := by
  refine List.eq_nil_iff_forall_not_mem.2 fun x hx => ?_
  obtain ⟨y, -, -, -, h⟩ := closeSessions_left hx
  exact Bool.noConfusion h

theorem slots_dropImage (s : State) (e : Session) : (dropImage s e).mgmt = s.mgmt := by
  rw [dropImage]
  split
  · rfl
  · split <;> rfl

theorem Logged.mgmtState {s t : State} (h : Logged s t) : t.mgmt = s.mgmt := by rw [h]

theorem Tells.mgmtState {s t : State} (h : Tells s t) : t.mgmt = s.mgmt := by rw [h]

theorem ClkFields.sessions {s t : State} (h : ClkFields s t) : t.sessions = s.sessions := by rw [← h]

theorem mgmt_closeSession (s : State) (sid : Nat) (why : CloseCause) : (closeSession s sid why).mgmt = s.mgmt := by
  rw [closeSession]
  split
  · rfl
  · next e _ =>
    refine (logged_sessionEvent _ e why).mgmtState.trans ?_
    dsimp only [modWake]
    split
    · exact slots_dropImage _ e
    · rfl

theorem mgmt_closeSessions (s : State) (p : Session → Bool) (why : CloseCause) : (closeSessions s p why).mgmt = s.mgmt := by
  rw [closeSessions]
  exact List.foldlRecOn (motive := fun t : State => t.mgmt = s.mgmt) _ _ rfl fun t ht x _ => (mgmt_closeSession t x.1 why).trans ht

/-! ### Enrolment (R490) -/

theorem enroll_effect {s : State} {sid : Nat} {v : Bytes} (h : MayAct s sid ⟨0xB0, 0x0003, 0⟩ (.blob v)) :
    ∃ t, exec (.enroll sid v) s = .next t ∧ t.mem = s.mem ∧ t.cores = s.cores ∧ t.cfg = s.cfg ∧ LogGets s t 0x5005 4 ∧
      mfind t.mgmt.slots (byteNat v 0) = some ⟨byteNat v 1, byteNat v 2, digest (v.drop 4)⟩ ∧
      (∀ k, k ≠ byteNat v 0 → mfind t.mgmt.slots k = mfind s.mgmt.slots k) ∧
      t.mgmt.claimed = (s.mgmt.claimed || byteNat v 1 == 2) := by
  have htells := tells_raiseEvent (modMgmt s fun m => { m with
    slots := mset m.slots (byteNat v 0) { cls := byteNat v 1, part := byteNat v 2, root := digest (v.drop 4) }
    claimed := m.claimed || byteNat v 1 == 2 }) 0x5005 0 0 none [byteNat v 0, byteNat v 1, byteNat v 2]
  refine ⟨actEnroll s v, congrArg Host.Outcome.next (byAction_of_mayAct h), htells.mem, htells.cores, htells.cfg,
    LogGets.of_same (logGets_raiseRec (by decide) _ _ _ _ _ _ _) rfl rfl, ?_⟩
  rw [actEnroll, htells.mgmtState]
  exact ⟨mfind_mset _ _ _, fun k hk => mfind_mset_ne _ _ hk, rfl⟩

theorem slotRevoke_effect {s : State} {sid k : Nat} {e : EnrolSlot} (h : MayAct s sid ⟨0xB0, 0x0004, k⟩ (.num 1))
    (he : mfind s.mgmt.slots k = some e) : ∃ t, exec (.slotRevoke sid k) s = .next t ∧ t.mem = s.mem ∧ t.cores = s.cores ∧
      mfind t.mgmt.slots k = none ∧ ∀ x ∈ t.sessions, x.2.slot ≠ some k := by
  have htells := tells_raiseEvent (modMgmt s fun m => { m with slots := mdel m.slots k }) 0x5005 0 0 none [k, e.cls, e.part]
  refine ⟨actSlotRevoke s k, congrArg Host.Outcome.next (byAction_of_mayAct h), ?_⟩
  rw [actSlotRevoke, he]
  dsimp only
  generalize raiseEvent (modMgmt s fun m => { m with slots := mdel m.slots k }) 0x5005 0 0 none [k, e.cls, e.part] = u at htells ⊢
  have hclose := runView_closeSessions u (fun x => x.slot == some k) .enrolment
  refine ⟨(mem_of_view hclose).trans htells.mem, (cores_of_view hclose).trans htells.cores, ?_, fun x hx hs => ?_⟩
  · rw [mgmt_closeSessions, htells.mgmtState]
    exact mfind_mdel _ _
  · obtain ⟨y, -, -, hslot, hno⟩ := closeSessions_left hx
    rw [hslot, hs, beq_self_eq_true] at hno
    exact Bool.noConfusion hno

/-! ### A management restart (R452) -/

theorem sessions_carafeDown (s : State) : (carafeDown s).sessions = (closeSessions s (fun _ => true) .start).sessions := by
  rw [carafeDown]
  generalize closeSessions s (fun _ => true) .start = u
  rfl

theorem sessions_mgmtRestart (s : State) : (mgmtRestart s).sessions = [] := by
  rw [mgmtRestart_eq, (clkFields_safeSlowed (carafeDown s)).sessions, sessions_carafeDown, closeSessions_all]

theorem managementRestart_effect {s : State} {sid : Nat} (h : MayAct s sid ⟨0x02, 0x0006, 0⟩ (.num 1)) :
    ∃ t, exec (.managementRestart sid) s = .next t ∧ t.wake.mgmt = true ∧ t.sessions = [] ∧ t.dev = s.dev ∧ t.mem = s.mem ∧
      t.cores = s.cores := by
  have hexec : exec (.managementRestart sid) s = .next (mgmtRestart s) := congrArg Host.Outcome.next (byAction_of_mayAct h)
  obtain ⟨hm, hdev, hmem, hcores⟩ := mgmtRestart_effect s
  have hsessions := sessions_mgmtRestart s
  rw [hexec]
  generalize mgmtRestart s = t at hm hdev hmem hcores hsessions ⊢
  exact ⟨t, rfl, hm, hsessions, hdev, hmem, hcores⟩

/-! ### Firmware: confirmation and return (R527, R533) -/

theorem firmwareConfirm_effect {s : State} {sid b : Nat} (h : MayAct s sid ⟨0xA0, 0x0006, 0⟩ (.num 1)) (hb : s.fw.pending = some b) :
    (s.fw.healthy = false → ∃ t, exec (.firmwareConfirm sid) s = .next t ∧ { t with fw := s.fw } = s ∧
      t.fw = { s.fw with adminOk := true }) ∧
    (s.fw.healthy = true → ∃ t, exec (.firmwareConfirm sid) s = .next t ∧ t.mem = s.mem ∧ t.cores = s.cores ∧
      t.fw.pending = none ∧ t.fw.active = b ∧ mget 0 t.fw.banks b = 4) := by
  have hexec : exec (.firmwareConfirm sid) s = .next (actConfirm s) := congrArg Host.Outcome.next (byAction_of_mayAct h)
  have hsaid : (modFw s fun f => { f with adminOk := true }) = { s with fw := { s.fw with adminOk := true } } :=
    congrArg (fun f => { s with fw := f }) (if_pos rfl)
  have hon : trialOn s = true := by
    obtain ⟨e, hrule⟩ := h.rule
    exact of_need (by decide) hrule
  rw [hexec, actConfirm, hsaid]
  refine ⟨fun hh => ⟨_, rfl, ?_⟩, fun hh => ⟨_, rfl, ?_⟩⟩
  · have hsettle : trialSettle { s with fw := { s.fw with adminOk := true } } = { s with fw := { s.fw with adminOk := true } } :=
      if_neg fun hc => absurd (hh.symm.trans hc.2.1) Bool.false_ne_true
    rw [hsettle]
    exact ⟨rfl, rfl⟩
  · have hsettle : trialSettle { s with fw := { s.fw with adminOk := true } } = confirmTrial { s with fw := { s.fw with adminOk := true } } :=
      if_pos ⟨hon, hh, .inr rfl⟩
    obtain ⟨hpending, hactive, hbank, -, -, -, hframe, -⟩ := confirmTrial_effect (s := { s with fw := { s.fw with adminOk := true } }) hb
    rw [hsettle]
    obtain ⟨-, hmem, hcores⟩ := hframe.rest
    exact ⟨hmem, hcores, hpending, hactive, hbank⟩

theorem firmwareRevert_effect {s : State} {sid b : Nat} (h : MayAct s sid ⟨0xA0, 0x000B, 0⟩ (.num 1)) (hb : b = 1 - s.fw.active) :
    (actKind s b = 0 → ∃ t, exec (.firmwareRevert sid) s = .next t ∧ t.fw.pending = some b ∧ t.fw.trials = 1 ∧ t.fw.phase = 1 ∧
      t.wake.mgmt = true ∧ t.dev = s.dev ∧ t.mem = s.mem ∧ t.cores = s.cores) ∧
    (actKind s b = 2 → ∃ t, exec (.firmwareRevert sid) s = .next t ∧ { t with fw := s.fw } = s ∧
      t.fw = { s.fw with upd := 5, act := some (b, 0) }) := by
  have hexec : exec (.firmwareRevert sid) s = .next (activate s b 0) := by
    rw [hb]
    exact congrArg Host.Outcome.next (byAction_of_mayAct h)
  rw [hexec, activate]
  refine ⟨fun hk => ?_, fun hk => ?_⟩
  · have hframe := fwOnly_trialBegin s b 0
    obtain ⟨-, -, hdev, -⟩ := hframe.view
    obtain ⟨-, hmem, hcores⟩ := hframe.rest
    obtain ⟨hstate, -, -⟩ := trialBegin_fw s b 0
    rw [hk]
    refine ⟨_, congrArg Host.Outcome.next (if_neg fun hc => absurd hc.1 (by decide)), ?_⟩
    obtain ⟨hstate', -, -, hm, hd, hmem', hcores'⟩ := mgmtTrial_effect (trialBegin s b 0)
    generalize restartKind (trialBegin s b 0) 0 = u at hstate' hm hd hmem' hcores' ⊢
    obtain ⟨hp, ht⟩ := Prod.ext_iff.1 (hstate'.trans hstate)
    obtain ⟨ht, hph⟩ := Prod.ext_iff.1 ht
    exact ⟨hp, ht, hph, hm, hd.trans hdev, hmem'.trans hmem, hcores'.trans hcores⟩
  · rw [hk]
    exact ⟨_, congrArg Host.Outcome.next (if_pos ⟨rfl, rfl⟩), rfl, if_pos rfl⟩

/-! ### Fans (R429) -/

/-- Channel `c` neither is latched nor waits to be tried again. -/
def AuxFree (c : Nat) (s : State) : Prop := (s.auxCh c).latch = false ∧ (s.auxCh c).retry = 0 ∧ (s.auxCh c).st ≠ 3

theorem auxFree_modAux {s : State} {c : Nat} (h : AuxFree c s) (k : Nat) {f : Aux → Aux} (hlatch : ∀ a, (f a).latch = a.latch)
    (hretry : ∀ a, (f a).retry = a.retry) (hst : ∀ a, a.st ≠ 3 → (f a).st ≠ 3) : AuxFree c (modAux s k f) := by
  obtain ⟨h1, h2, h3⟩ := h
  by_cases hk : c = k
  · subst hk
    rw [AuxFree, auxCh_modAux]
    exact ⟨(hlatch _).trans h1, (hretry _).trans h2, hst _ h3⟩
  · rw [AuxFree, auxCh_modAux_ne s f hk]
    exact ⟨h1, h2, h3⟩

theorem auxFree_auxUpdate {s : State} {c : Nat} (h : AuxFree c s) : AuxFree c (auxUpdate s) := by
  rw [auxUpdate]
  refine List.foldlRecOn (motive := fun t : State => AuxFree c t) _ _ h fun t ht k _ => ?_
  dsimp only
  split
  · exact auxFree_modAux ht k (fun _ => rfl) (fun _ => rfl) fun a ha => by
      dsimp only
      rw [if_neg ha]
      decide
  split
  · exact auxFree_modAux ht k (fun _ => rfl) (fun _ => rfl) fun a _ => by
      dsimp only
      split <;> decide
  split
  · exact ht
  · exact auxFree_modAux ht k (fun _ => rfl) (fun _ => rfl) fun a ha => ha

theorem auxReset_effect {s : State} {sid c : Nat} (h : MayAct s sid ⟨0x12, 0x0003, c⟩ (.num 1)) :
    ∃ t, exec (.auxReset sid c) s = .next t ∧ { t with pwr := s.pwr } = s ∧ (t.auxCh c).latch = false ∧ (t.auxCh c).retry = 0 ∧
      (t.auxCh c).st ≠ 3 := by
  have haux := auxOnly_auxUpdate (modAux s c fun a => { a with latch := false, retry := 0, st := if a.st = 3 then 0 else a.st })
  refine ⟨actAuxReset s c, congrArg Host.Outcome.next (byAction_of_mayAct h), ?_, auxFree_auxUpdate ?_⟩
  · rw [actAuxReset]
    generalize auxUpdate (modAux s c fun a => { a with latch := false, retry := 0, st := if a.st = 3 then 0 else a.st }) = u at haux ⊢
    rw [haux]
    rfl
  · rw [AuxFree, auxCh_modAux]
    refine ⟨rfl, rfl, ?_⟩
    dsimp only
    split
    · decide
    · next hne => exact hne

end Sys2Proof.Machine
end

section
/-!
O57: Echo time, ports, keys and pages (R289, R317, R338, R386).
-/

namespace Sys2Proof.Machine
open Sys2Proof

/-! ### Echo time set to its source (R386) -/

theorem LogGets.kept {s t u : State} {code cls : Nat} (h : LogGets s t code cls) (hlog : u.logBuf = t.logBuf) : LogGets s u code cls := by
  intro hm
  rw [hlog]
  exact h hm

theorem ClkFields.ech {s t : State} (h : ClkFields s t) : t.ech = s.ech := by rw [← h]

theorem ClkFields.logBuf {s t : State} (h : ClkFields s t) : t.logBuf = s.logBuf := by rw [← h]

theorem logGets_stepEcho (s : State) (d : Int) : LogGets s (stepEcho s d) 0x4005 4 := by
  have hfold : OnlyFields { s with echoM := echoAdd s.echoM d } ((List.range 12).foldl (fun s n =>
      modField s n (fun k => { k with echo := echoAdd k.echo d })) { s with echoM := echoAdd s.echoM d }) :=
    List.foldlRecOn (motive := fun v : State => OnlyFields { s with echoM := echoAdd s.echoM d } v) _ _ rfl fun v hv n _ => hv.trans rfl
  rw [stepEcho]
  generalize (List.range 12).foldl (fun s n => modField s n (fun k => { k with echo := echoAdd k.echo d })) { s with echoM := echoAdd s.echoM d } = u at hfold ⊢
  have hwake : u.wake = s.wake := hfold.clkFields.wake
  have hlog : u.logBuf = s.logBuf := hfold.clkFields.logBuf
  exact LogGets.of_same (logGets_raiseRec (by decide) _ _ _ _ _ _ _) hwake hlog

/-- R378: a cancellation touches the clocks and the fields alone. -/
theorem clkFields_cancelChange (s : State) (notrdy : Nat) : ClkFields s (cancelChange s notrdy) := by
  have harm : ∀ u : State, ClkFields u (armHeld u) := fun u => by
    unfold armHeld
    split
    · next c cs _ _ => exact ClkFields.trans (s := u) (t := modClk u fun k => { k with held := cs }) (by rfl) (armChange_only _ _).1
    · rfl
  unfold cancelChange
  split
  · rfl
  · next c _ =>
    refine ClkFields.trans ?_ (harm _)
    exact List.foldlRecOn (motive := fun v : State => ClkFields s v) _ _ rfl fun v hv x _ => hv.trans rfl

theorem echoResync_effect {s : State} {sid : Nat} (h : MayAct s sid ⟨0x20, 0x0014, 0⟩ (.num 1)) :
    ∃ t, exec (.echoResync sid) s = .next t ∧ t.mem = s.mem ∧ t.cores = s.cores ∧ t.echoM = echoAdd s.echoM s.ech.pend ∧
      t.ech.back = false ∧ t.ech.st = (if s.ech.src = 0 then 0 else 2) ∧ LogGets s t 0x4005 4 := by
  have hexec : exec (.echoResync sid) s = .next (resync s) := congrArg Host.Outcome.next (byAction_of_mayAct h)
  obtain ⟨hmem, hcores, hecho, hech, -⟩ := stepEcho_effect s s.ech.pend
  have hlog := logGets_stepEcho s s.ech.pend
  rw [hexec, resync]
  generalize stepEcho s s.ech.pend = u at hmem hcores hecho hech hlog ⊢
  have hcancel := clkFields_cancelChange u 0
  generalize cancelChange u 0 = v at hcancel ⊢
  refine ⟨_, rfl, hcancel.mem.trans hmem, hcancel.cores.trans hcores, ?_, rfl, ?_, hlog.kept hcancel.logBuf⟩
  · refine hcancel.echoM.trans (hecho.trans ?_)
    exact (echoAdd_eq _ _).symm
  · have hsrc : v.ech.src = s.ech.src := by rw [hcancel.ech, hech]
    rw [← hsrc]
    rfl

/-! ### Ports reset and admitted (R287, R289) -/

theorem PortLeaves.resets {p : Nat} {x : PortState} {s t : State} (h : PortLeaves p x s t) : (t.port p).resets = (s.port p).resets := by
  rw [h.left]

theorem portResetAction_effect {s : State} {sid p : Nat} (h : MayAct s sid ⟨0x50, 0x0103, p⟩ (.num 1)) :
    ∃ t, exec (.portResetAction sid p) s = .next t ∧ t.mem = s.mem ∧ t.cores = s.cores ∧ (t.port p).st = .resetting ∧
      (t.port p).resets = (s.port p).resets := by
  have hreset : portReset s p .sasil = portLeave s p .resetting := by
    rw [portReset]
    rfl
  have hexec : exec (.portResetAction sid p) s = .next (portLeave s p .resetting) :=
    congrArg Host.Outcome.next ((byAction_of_mayAct h).trans hreset)
  refine ⟨_, hexec, ?_⟩
  by_cases hst : (s.port p).st = .resetting
  · have hstays : portLeave s p .resetting = s := by
      rw [portLeave]
      exact if_pos hst
    rw [hstays]
    exact ⟨rfl, rfl, hst, rfl⟩
  · have hleave := portLeave_leaves hst
    exact ⟨hleave.still.mem, hleave.still.cores, hleave.st, hleave.resets⟩

theorem portAdmit_effect {s : State} {sid p : Nat} (h : MayAct s sid ⟨0x50, 0x0104, p⟩ (.num 1)) :
    ∃ t, exec (.portAdmit sid p) s = .next t ∧ t.mem = s.mem ∧ t.cores = s.cores ∧
      (t.port p).st = (if (s.port p).en = true ∧ domOf s (108 + p / 5) = .on then .training else .disabled) := by
  have hst : (s.port p).st = .excluded := by
    obtain ⟨e, hrule⟩ := h.rule
    exact beq_iff_eq.1 (of_need (by decide) hrule)
  have hexec : exec (.portAdmit sid p) s = .next (startTraining s p) := congrArg Host.Outcome.next (byAction_of_mayAct h)
  rw [hexec, startTraining]
  have hiff : ((s.port p).en && dieOn s (p / 5)) = true ↔ (s.port p).en = true ∧ domOf s (108 + p / 5) = .on := by
    rw [Bool.and_eq_true, dieOn, beq_iff_eq]
  by_cases hon : (s.port p).en = true ∧ domOf s (108 + p / 5) = .on
  · have hfree : ((freeSpares s p).port p).st ≠ .training := by
      have hport : (freeSpares s p).port p = s.port p := rfl
      rw [hport, hst]
      decide
    have hleave := portLeave_leaves hfree
    rw [if_pos (hiff.2 hon), if_pos hon]
    exact ⟨_, rfl, hleave.still.mem, hleave.still.cores, hleave.st⟩
  · have hleave := portLeave_leaves (s := s) (p := p) (x := .disabled) (by rw [hst]; decide)
    rw [if_neg fun hc => hon (hiff.1 hc), if_neg hon]
    exact ⟨_, rfl, hleave.still.mem, hleave.still.cores, hleave.st⟩

/-! ### A bundle changes its key (R317) -/

/-- R317: a port asks its neighbour for another key slot, by a KEY frame of it. -/
def keyAsked (next : Bool) (s : State) (p : Nat) : State :=
  let s := modPort s p (fun k => { k with keyWant := some next })
  let (s, g) := stampFrame s p (bareFrame 5 (s.port p).txSeq)
  sendFrame s p { g with keyid := next }

theorem keyAsked_effect (next : Bool) (s : State) (p : Nat) : AtPort p s (keyAsked next s p) ∧ s.out <+: (keyAsked next s p).out ∧
    ((keyAsked next s p).port p).keyWant = some next ∧ ∃ f, Output.frame p f ∈ (keyAsked next s p).out ∧ f.type_ = 5 ∧ f.keyid = next := by
  have hask := atPort_modPort s p (fun k => { k with keyWant := some next })
  have hwant : ((modPort s p fun k => { k with keyWant := some next }).port p).keyWant = some next := by rw [port_modPort]
  have hout : (modPort s p fun k => { k with keyWant := some next }).out = s.out := rfl
  unfold keyAsked
  dsimp only
  generalize modPort s p (fun k => { k with keyWant := some next }) = u at hask hwant hout ⊢
  obtain ⟨hat, hkept, hport, hframe, -⟩ := stampFrame_effect u p (bareFrame 5 (u.port p).txSeq)
  generalize stampFrame u p (bareFrame 5 (u.port p).txSeq) = r at hat hkept hport hframe ⊢
  obtain ⟨v, g⟩ := r
  obtain ⟨hsend, hsent, hlast⟩ := sendFrame_effect v p { g with keyid := next }
  have hbefore : v.out = s.out := hkept.trans hout
  refine ⟨(hask.trans hat).trans hsend, ?_, ?_, { g with keyid := next }, ?_, ?_, rfl⟩
  · rw [hsent, hbefore]
    exact List.prefix_append _ _
  · rw [hlast, hport.1]
    exact hwant
  · rw [hsent]
    exact List.mem_append_right _ (List.mem_singleton.2 rfl)
  · exact congrArg Frame.type_ hframe

/-- Ports that ask for slot `next` still do, what is shown stays shown, and of the links the ports change alone. -/
structure KeyAsks (next : Bool) (s t : State) : Prop where
  rest : t = { s with links := { s.links with ports := t.links.ports }, shared := t.shared, out := t.out }
  out : s.out <+: t.out
  want : ∀ q, (s.port q).keyWant = some next → (t.port q).keyWant = some next

theorem KeyAsks.refl (next : Bool) (s : State) : KeyAsks next s s := ⟨rfl, List.prefix_refl _, fun _ => id⟩

theorem KeyAsks.trans {next : Bool} {s t u : State} (h : KeyAsks next s t) (k : KeyAsks next t u) : KeyAsks next s u := by
  refine ⟨?_, h.out.trans k.out, fun q hq => k.want q (h.want q hq)⟩
  rw [k.rest, h.rest]

theorem keyAsks_keyAsked (next : Bool) (s : State) (p : Nat) : KeyAsks next s (keyAsked next s p) := by
  obtain ⟨hat, hout, hwant, -⟩ := keyAsked_effect next s p
  refine ⟨hat.1, hout, fun q hq => ?_⟩
  by_cases hp : q = p
  · rw [hp]
    exact hwant
  · rw [hat.2 q hp]
    exact hq

theorem bundleKeySwitch_effect {s : State} {sid b : Nat} {k : Bool} (h : MayAct s sid ⟨0x50, 0x0203, b⟩ (.num 1))
    (hk : k = !mget false s.links.keyUse b) :
    ∃ t, exec (.bundleKeySwitch sid b) s = .next t ∧ t.mem = s.mem ∧ t.cores = s.cores ∧ t.links.keyUse = s.links.keyUse ∧
      ∀ p < 40, (((s.port p).bv && (s.port p).bundle == b && nativeUp s p) = true → (t.port p).keyWant = some k ∧
          ∃ f, Output.frame p f ∈ t.out ∧ f.type_ = 5 ∧ f.keyid = k) ∧
        (((s.port p).bv && (s.port p).bundle == b && nativeUp s p) = false → t.port p = s.port p) := by
  have hexec : exec (.bundleKeySwitch sid b) s = .next (((List.range 40).filter
      (fun p => (s.port p).bv && (s.port p).bundle == b && nativeUp s p)).foldl (keyAsked k) s) := by
    rw [hk]
    exact congrArg Host.Outcome.next (byAction_of_mayAct h)
  generalize hports : (List.range 40).filter (fun p => (s.port p).bv && (s.port p).bundle == b && nativeUp s p) = ports at hexec
  have hall : KeyAsks k s (ports.foldl (keyAsked k) s) :=
    List.foldlRecOn (motive := fun t : State => KeyAsks k s t) _ _ (.refl k s) fun t ht p _ => ht.trans (keyAsks_keyAsked k t p)
  have hmem : ∀ p, p ∈ ports ↔ p < 40 ∧ ((s.port p).bv && (s.port p).bundle == b && nativeUp s p) = true := fun p => by
    rw [← hports, List.mem_filter, List.mem_range]
  have hframe := hall.rest
  refine ⟨_, hexec, ?_, ?_, ?_, fun p hp => ⟨fun hnative => ?_, fun hnot => ?_⟩⟩
  · rw [hframe]
  · rw [hframe]
  · rw [hframe]
  · obtain ⟨u, -, hafter⟩ := foldl_through (R := KeyAsks k) (.refl k) KeyAsks.trans (keyAsks_keyAsked k) ((hmem p).2 ⟨hp, hnative⟩) s
    obtain ⟨-, -, hwant, f, hf, hkind, hslot⟩ := keyAsked_effect k u p
    exact ⟨hafter.want p hwant, f, hafter.out.subset hf, hkind, hslot⟩
  · refine List.foldlRecOn (motive := fun t : State => t.port p = s.port p) _ _ rfl fun t ht q hq => ?_
    have hne : p ≠ q := by
      rintro rfl
      rw [((hmem p).1 hq).2] at hnot
      exact Bool.noConfusion hnot
    exact ((keyAsked_effect k t q).1.2 p hne).trans ht

/-! ### A page is retired (R338) -/

theorem pageCandidate_effect {s : State} {st page source : Nat} {prov : Bool} (hr : page ∉ (s.stack st).retired) (hc : page ∉ (s.stack st).cands) :
    ((∀ p, unitOwner s (48 * st + page * 4096 / 2 ^ 30) = some p → faultCoreOf s p = none) →
      (pageCandidate s st page source prov).mem = s.mem) ∧
    ((pageCandidate s st page source prov).stack st).cands = (s.stack st).cands ++ [page] ∧
    SurveyGets s (pageCandidate s st page source prov) 0x0A
      (natBytes 1 st ++ natBytes 3 0 ++ natBytes 8 (hbmBase + stackSize * st + page * 4096)) := by
  have hnew : ¬((s.stack st).retired.contains page || (s.stack st).cands.contains page) = true := by
    rw [Bool.or_eq_true, List.contains_iff_mem, List.contains_iff_mem, not_or]
    exact ⟨hr, hc⟩
  unfold pageCandidate
  extract_lets k addr s1 s2 unit owner s3
  rw [if_neg hnew]
  have hfound : Found s s1 := found_surveyAppend source prov
  have hgets : SurveyGets s s1 0x0A (natBytes 1 st ++ natBytes 3 0 ++ natBytes 8 addr) := surveyAppend_gets source prov
  clear_value s1
  have hcands : (s2.stack st).cands = (s.stack st).cands ++ [page] := by
    have hstack : s1.stack st = s.stack st := by
      rw [hfound]
      rfl
    rw [← hstack]
    exact congrArg Stack.cands (stack_modStack s1 st _)
  have he : s3 = match owner with
    | some p => notifyPart s2 p (natBytes 2 0x30 ++ natBytes 2 st ++ natBytes 4 0 ++ natBytes 8 addr)
    | none => s2 := rfl
  have hunit : owner = unitOwner s unit := by
    have h1 : unitOwner s1 unit = unitOwner s unit := by
      rw [hfound]
      rfl
    exact h1
  have hfault : ∀ p, faultCoreOf s2 p = faultCoreOf s p := fun p => by
    have h1 : faultCoreOf s2 p = faultCoreOf s1 p := rfl
    rw [h1, hfound]
    rfl
  have hsurvey : s2.survey = s1.survey := rfl
  have hmem : s2.mem = s.mem := hfound.mem
  clear_value s3
  clear_value s2 owner
  have hnote : Works s2 s3 ∧ ((∀ p, unitOwner s unit = some p → faultCoreOf s p = none) → s3.mem = s2.mem) := by
    rw [← hunit, he]
    cases owner with
    | none => exact ⟨.refl s2, fun _ => rfl⟩
    | some p =>
      refine ⟨works_notifyPart s2 p _, fun hno => ?_⟩
      have hnone : faultCoreOf s2 p = none := (hfault p).trans (hno p rfl)
      dsimp only
      rw [notifyPart, hnone]
  obtain ⟨hworks, hkept⟩ := hnote
  have htells := tells_raiseEvent s3 0x4003 5 st owner [addr % 2 ^ 32, addr / 2 ^ 32]
  have hhbms : ∀ {u : State}, Tells s3 u → u.hbms = s3.hbms := fun hu => by rw [hu]
  refine ⟨fun hno => htells.mem.trans ((hkept hno).trans hmem), ?_, ?_⟩
  · rw [State.stack, hhbms htells, hworks.hbms, ← State.stack]
    exact hcands
  · have hs : (raiseEvent s3 0x4003 5 st owner [addr % 2 ^ 32, addr / 2 ^ 32]).survey = s1.survey :=
      htells.survey.trans (hworks.survey.trans hsurvey)
    rw [SurveyGets, hs]
    exact hgets

theorem memoryRetire_effect {s : State} {sid x st page : Nat} (h : MayAct s sid ⟨0x60, 0x0006, 0⟩ (.blob (natBytes 8 x))) (hx : x < 2 ^ 64)
    (hst : st = (x - hbmBase) / stackSize) (hpage : page = (x - hbmBase) % stackSize / 4096) (hr : page ∉ (s.stack st).retired)
    (hc : page ∉ (s.stack st).cands) : ∃ t, exec (.memoryRetire sid x) s = .next t ∧
      ((∀ p, unitOwner s (48 * st + page * 4096 / 2 ^ 30) = some p → faultCoreOf s p = none) → t.mem = s.mem) ∧
      (t.stack st).cands = (s.stack st).cands ++ [page] ∧
      SurveyGets s t 0x0A (natBytes 1 st ++ natBytes 3 0 ++ natBytes 8 (hbmBase + stackSize * st + page * 4096)) := by
  have haddr : leAt (natBytes 8 x) 0 8 = x := leAt_natBytes hx
  have hexec : exec (.memoryRetire sid x) s = .next (actRetire s (natBytes 8 x)) := congrArg Host.Outcome.next (byAction_of_mayAct h)
  have hretire : actRetire s (natBytes 8 x) = pageCandidate s st page 4 false := by
    rw [actRetire, haddr, hst, hpage]
  exact ⟨_, hexec.trans (congrArg _ hretire), pageCandidate_effect hr hc⟩

end Sys2Proof.Machine
end

section
/-!
O57: resets of cores and partitions, and power domains (R402 to R404, R449, R450, R459).
-/

namespace Sys2Proof.Machine
open Sys2Proof

/-! ### Cores under reset (R450) -/

theorem resetCore_clears (s : State) (c : Nat) : ∃ n, ((resetCore s c false).core c).crst = true ∧ ((resetCore s c false).core c).flights = [] ∧
    ((resetCore s c false).core c).ctl = { Ctl.reset with cyc0 := n } := by
  unfold resetCore
  extract_lets s1 s2 s3 s4
  generalize lateAccess s4 c = r
  obtain ⟨u, late⟩ := r
  dsimp only
  rw [if_neg Bool.false_ne_true, core_modCore]
  exact ⟨_, rfl, rfl, rfl⟩

theorem resetCore_crst (s : State) (c : Nat) (clear : Bool) : ((resetCore s c clear).core c).crst = true := by
  unfold resetCore
  extract_lets s1 s2 s3 s4
  generalize lateAccess s4 c = r
  obtain ⟨u, late⟩ := r
  dsimp only
  split
  · refine (((lands_clearMem _ _).trans (lands_applyBanks _ c)).core c).crst ?_
    rw [core_modCore]
  · rw [core_modCore]

theorem mem_groupCores {g k : Nat} (hk : k < 12) : 12 * g + k ∈ groupCores g := List.mem_map.2 ⟨k, List.mem_range.2 hk, rfl⟩

theorem resetCores_crst (clear : Bool) (s : State) {l : List Nat} {c : Nat} (hc : c ∈ l) :
    ((l.foldl (fun s c => resetCore s c clear) s).core c).crst = true := by
  obtain ⟨u, -, hafter⟩ := foldl_through (R := Resets) .refl .trans (fun u c => resets_resetCore u c clear) hc s
  exact (hafter.stays c).crst (resetCore_crst u c clear)

theorem resetGroup_resets (s : State) (g : Nat) (clear : Bool) : Resets (modGrp s g fun k => { k with rst := true }) (resetGroup s g clear) ∧
    ((resetGroup s g clear).grp g).rst = true ∧ ∀ k < 12, ((resetGroup s g clear).core (12 * g + k)).crst = true := by
  have h := Resets.foldl (fun s c => resets_resetCore s c clear) (modGrp s g fun k => { k with rst := true }) (groupCores g)
  refine ⟨h, ?_, fun k hk => resetCores_crst clear _ (mem_groupCores hk)⟩
  rw [resetGroup, h.grp, grp_modGrp]

theorem coreReset_effect {s : State} {sid c : Nat} (h : MayAct s sid ⟨0x30, 0x0020, 0⟩ (.num c)) (hcompute : s.wake.compute = false)
    (hstart : s.wake.start = none) (hrst : (s.grp (groupOf c)).rst = false) (hremap : (s.grp (groupOf c)).remap = none)
    (hcheck : (s.grp (groupOf c)).check = false) : ∃ t, exec (.coreReset sid c) s = .next t ∧ (t.core c).crst = true ∧
      (t.core c).flights = [] ∧ (t.core c).ctl.st = Ctl.reset.st ∧ ∀ r, rg t c r = 0 := by
  have hreset : actCoreReset s c = resetCore s c false := by
    rw [actCoreReset, hcompute, hstart, hrst, hremap, hcheck]
    exact if_neg Bool.false_ne_true
  obtain ⟨n, hclears⟩ := resetCore_clears s c
  have hexec : exec (.coreReset sid c) s = .next (actCoreReset s c) := congrArg Host.Outcome.next (byAction_of_mayAct h)
  rw [hexec, hreset]
  generalize resetCore s c false = t at hclears
  obtain ⟨hcrst, hflights, hctl⟩ := hclears
  refine ⟨t, rfl, hcrst, hflights, ?_, fun r => ?_⟩
  · rw [hctl]
  · rw [rg, hctl, Ctl.get]
    split <;> rfl

/-! ### Partitions under reset (R449) -/

/-- Groups stay where they are and under reset, and so do cores under reset. -/
structure ResetsHold (s t : State) : Prop where
  place : ∀ g, (t.grp g).part = (s.grp g).part ∧ (t.grp g).remap = (s.grp g).remap ∧ (t.grp g).check = (s.grp g).check
  rst : ∀ g, (s.grp g).rst = true → (t.grp g).rst = true
  crst : ∀ c, (s.core c).crst = true → (t.core c).crst = true

theorem ResetsHold.refl (s : State) : ResetsHold s s := ⟨fun _ => ⟨rfl, rfl, rfl⟩, fun _ => id, fun _ => id⟩

theorem ResetsHold.trans {s t u : State} (h : ResetsHold s t) (k : ResetsHold t u) : ResetsHold s u := by
  refine ⟨fun g => ?_, fun g => k.rst g ∘ h.rst g, fun c => k.crst c ∘ h.crst c⟩
  obtain ⟨h1, h2, h3⟩ := h.place g
  obtain ⟨k1, k2, k3⟩ := k.place g
  exact ⟨k1.trans h1, k2.trans h2, k3.trans h3⟩

theorem Resets.resetsHold {s t : State} (h : Resets s t) : ResetsHold s t := by
  refine ⟨fun g => ?_, fun g hg => ?_, fun c => (h.stays c).crst⟩
  · rw [h.grp]
    exact ⟨rfl, rfl, rfl⟩
  · rw [h.grp]
    exact hg

theorem resetsHold_resetGroup (s : State) (g : Nat) (clear : Bool) : ResetsHold s (resetGroup s g clear) := by
  refine ResetsHold.trans (t := modGrp s g fun k => { k with rst := true }) ⟨fun x => ?_, fun x hx => ?_, fun _ => id⟩ (resetGroup_resets s g clear).1.resetsHold
  · by_cases hx : x = g
    · rw [hx, grp_modGrp]
      exact ⟨rfl, rfl, rfl⟩
    · rw [grp_modGrp_ne _ _ hx]
      exact ⟨rfl, rfl, rfl⟩
  · by_cases hg : x = g
    · rw [hg, grp_modGrp]
    · rw [grp_modGrp_ne _ _ hg]
      exact hx

theorem resetsHold_partGroupReset (p : Nat) (s : State) (g : Nat) : ResetsHold s (partGroupReset p s g) := by
  rw [partGroupReset]
  split
  · exact resetsHold_resetGroup s g true
  · exact .refl s

theorem beginPartReset_serving {s : State} {p : Nat} (hdev : s.dev = .ready ∨ s.dev = .degraded ∨ s.dev = .low ∨ s.dev = .faulted) :
    beginPartReset s p = if (s.part p).resetting then s else (List.range 96).foldl (partGroupReset p) (partBegun s p) := by
  rcases hdev with hdev | hdev | hdev | hdev <;> rw [beginPartReset, hdev] <;> cases (s.part p).resetting <;> rfl

theorem serving_of_serves {s : State} (h : serves s = true) (hw : s.dev ≠ .waking) :
    s.dev = .ready ∨ s.dev = .degraded ∨ s.dev = .low ∨ s.dev = .faulted := by
  unfold serves at h
  cases hdev : s.dev <;> simp_all

theorem partBegun_grp (s : State) (p g : Nat) : (partBegun s p).grp g = s.grp g := by
  have h := launchOnly_endLaunches (modPart s p fun k => { k with resetting := true }) fun x => x == p
  rw [partBegun, State.grp, h]
  rfl

theorem partGroupReset_resets {p g : Nat} {u : State} (hpart : (u.grp g).part = some p) (hremap : (u.grp g).remap = none)
    (hcheck : (u.grp g).check = false) :
    ((partGroupReset p u g).grp g).rst = true ∧ ∀ k < 12, ((partGroupReset p u g).core (12 * g + k)).crst = true := by
  rw [partGroupReset, hpart, hremap, hcheck]
  simp only [beq_self_eq_true, Option.isNone_none, Bool.not_false, Bool.and_self, if_true]
  exact (resetGroup_resets u g true).2

/-- R449: every group of the partition is under reset after all have been passed. -/
theorem partGroupResets_reset {p g : Nat} {s : State} (hg : g < 96) (hpart : (s.grp g).part = some p) (hremap : (s.grp g).remap = none)
    (hcheck : (s.grp g).check = false) :
    (((List.range 96).foldl (partGroupReset p) s).grp g).rst = true ∧
      ∀ k < 12, (((List.range 96).foldl (partGroupReset p) s).core (12 * g + k)).crst = true := by
  obtain ⟨u, hbefore, hafter⟩ :=
    foldl_through (R := ResetsHold) .refl .trans (resetsHold_partGroupReset p) (List.mem_range.2 hg) s
  obtain ⟨h1, h2, h3⟩ := hbefore.place g
  obtain ⟨hrst, hcrst⟩ := partGroupReset_resets (h1.trans hpart) (h2.trans hremap) (h3.trans hcheck)
  exact ⟨hafter.rst g hrst, fun k hk => hafter.crst _ (hcrst k hk)⟩

theorem partitionReset_effect {s : State} {sid p : Nat} (h : MayAct s sid ⟨0x40, 0x0005, p⟩ (.num 1)) (hw : s.dev ≠ .waking) :
    ∃ t, exec (.partitionReset sid p) s = .next t ∧ (t.part p).resetting = true ∧
      ((s.part p).resetting = false → (∀ l ∈ t.launches, l.fence = true ∨ l.part ≠ p) ∧
        ∀ g < 96, (s.grp g).part = some p → (s.grp g).remap = none → (s.grp g).check = false → (t.grp g).rst = true ∧
          ∀ k < 12, (t.core (12 * g + k)).crst = true) := by
  obtain ⟨e, hrule⟩ := h.rule
  have hdev := serving_of_serves (of_need (by decide) hrule) hw
  have hexec : exec (.partitionReset sid p) s = .next (beginPartReset s p) := congrArg Host.Outcome.next (byAction_of_mayAct h)
  rw [hexec, beginPartReset_serving hdev]
  by_cases hr : (s.part p).resetting = true
  · rw [if_pos hr]
    exact ⟨s, rfl, hr, fun hn => absurd (hn.symm.trans hr) Bool.false_ne_true⟩
  · rw [if_neg hr]
    obtain ⟨-, hlaunches, hparts⟩ := hosts_partGroupResets p (List.range 96) (partBegun s p)
    refine ⟨_, rfl, ?_, fun _ => ⟨fun l hl => ?_, fun g hg hpart hremap hcheck => ?_⟩⟩
    · rw [State.part, hparts]
      exact resetting_partBegun s p
    · rw [hlaunches] at hl
      exact (endLaunches_ends _ _ l hl).imp_right ne_of_beq_false
    · rw [← partBegun_grp s p] at hpart hremap hcheck
      exact partGroupResets_reset hg hpart hremap hcheck

/-! ### Power domains switched (R402 to R404) -/

theorem fields_lowLeft (s : State) : (lowLeft s).fields = s.fields := by
  rw [lowLeft]
  split
  · rw [setDeviceCause_eq]
    generalize causeSet false s.parts = m
    obtain ⟨hstacks, -⟩ := foldl_modStack { s with parts := m } (fun k => { k with sref := false }) 16
    generalize (List.range 16).foldl (fun s i => modStack s i fun k => { k with sref := false }) { s with parts := m } = u at hstacks ⊢
    have hfields := congrArg State.fields hstacks
    exact (rated_setDev u _ 0).fields.trans hfields
  · rfl

end Sys2Proof.Machine
end

section
/-!
O57: power domains that a session switches (R402 to R404).
-/

namespace Sys2Proof.Machine
open Sys2Proof

/-! ### What a switch asks -/

theorem domainSwitch_runs {s : State} {sid d v : Nat} (h : MayAct s sid ⟨0x10, 0x0021, d⟩ (.num v)) :
    ∃ u, switchDomain s d v = some u ∧ exec (.domainSwitch sid d v) s = .next (lowLeft (reevaluate u)) := by
  obtain ⟨e, hrule⟩ := h.rule
  have hsome : (switchDomain s d v).isSome = true := of_need (by decide) hrule
  obtain ⟨u, hu⟩ := Option.isSome_iff_exists.1 hsome
  have hexec : exec (.domainSwitch sid d v) s = .next (actDomain s d v) := congrArg Host.Outcome.next (byAction_of_mayAct h)
  rw [actDomain, hu, Option.getD_some] at hexec
  exact ⟨u, hu, hexec⟩

/-- The device's state evaluated anew, and LOW left where that is due, keep what a switch has done. -/
theorem lowLeft_reevaluate (u : State) : (lowLeft (reevaluate u)).pwr = u.pwr ∧ (lowLeft (reevaluate u)).fields = u.fields ∧
    (lowLeft (reevaluate u)).cores = u.cores ∧ (lowLeft (reevaluate u)).mem = u.mem ∧
    ∀ i, ((lowLeft (reevaluate u)).stack i).st = (u.stack i).st := by
  have hrated := rated_reevaluate u
  obtain ⟨hpwr, -, hcores, hmem, hstack⟩ := lowLeft_keeps (reevaluate u)
  exact ⟨hpwr.trans hrated.pwr, (fields_lowLeft _).trans hrated.fields, hcores.trans hrated.cores, hmem.trans hrated.mem,
    fun i => (hstack i).trans (congrArg Stack.st (hrated.stack i))⟩

theorem lt_of_switchDomain {s : State} {d v : Nat} (h : (switchDomain s d v).isSome = true) : d < 132 := by
  by_contra hd
  rw [switchDomain, if_pos (.inr (.inl (Nat.le_of_not_lt hd)))] at h
  cases h

/-! ### Compute-group domains (R403) -/

theorem switchDomain_cgOn {s : State} {d : Nat} (hd : d < 96) (hoff : domOf s d = .off) :
    switchDomain s d 1 = some (modField s (d / 8) fun k =>
      { k with powerUp := ((k.powerUp.filter (fun x => x != d)) ++ [d]).mergeSort (fun a b => decide (a ≤ b)) }) := by
  rw [switchDomain, hoff, if_neg (by simp; omega), if_pos hd]
  rfl

theorem switchDomain_cgOff {s : State} {d : Nat} (hd : d < 96) (hon : domOf s d = .on) :
    switchDomain s d 0 = some (modPwr (cgLeave (modField s (d / 8) fun k => { k with powerUp := k.powerUp.filter (fun x => x != d) }) d)
      fun w => { w with trans := mset w.trans d .off }) := by
  rw [switchDomain, hon, if_neg (by simp; omega), if_pos hd]
  rfl

theorem domainSwitch_cgOn {s : State} {sid d : Nat} (h : MayAct s sid ⟨0x10, 0x0021, d⟩ (.num 1)) (hd : d < 96) (hoff : domOf s d = .off) :
    ∃ t, exec (.domainSwitch sid d 1) s = .next t ∧ t.mem = s.mem ∧ t.cores = s.cores ∧ d ∈ (t.field (d / 8)).powerUp := by
  obtain ⟨u, hu, hexec⟩ := domainSwitch_runs h
  rw [switchDomain_cgOn hd hoff] at hu
  cases hu
  obtain ⟨-, hfields, hcores, hmem, -⟩ := lowLeft_reevaluate (modField s (d / 8) fun k =>
    { k with powerUp := ((k.powerUp.filter (fun x => x != d)) ++ [d]).mergeSort (fun a b => decide (a ≤ b)) })
  refine ⟨_, hexec, hmem, hcores, ?_⟩
  rw [State.field, hfields, ← State.field, field_modField, List.mem_mergeSort]
  exact List.mem_append_right _ (List.mem_singleton_self d)

theorem cgLeave_crst (s : State) (g : Nat) : ∀ k < 12, ((cgLeave s g).core (12 * g + k)).crst = true :=
  fun _ hk => resetCores_crst false _ (mem_groupCores hk)

theorem domainSwitch_cgOff {s : State} {sid d : Nat} (h : MayAct s sid ⟨0x10, 0x0021, d⟩ (.num 0)) (hd : d < 96) (hon : domOf s d = .on) :
    ∃ t, exec (.domainSwitch sid d 0) s = .next t ∧ mfind t.pwr.trans d = some .off ∧ ∀ k < 12, (t.core (12 * d + k)).crst = true := by
  obtain ⟨u, hu, hexec⟩ := domainSwitch_runs h
  rw [switchDomain_cgOff hd hon] at hu
  have hcrst := cgLeave_crst (modField s (d / 8) fun k => { k with powerUp := k.powerUp.filter (fun x => x != d) }) d
  generalize cgLeave (modField s (d / 8) fun k => { k with powerUp := k.powerUp.filter (fun x => x != d) }) d = w at hu hcrst
  cases hu
  obtain ⟨hpwr, -, hcores, -, -⟩ := lowLeft_reevaluate (modPwr w fun w => { w with trans := mset w.trans d .off })
  refine ⟨_, hexec, ?_, fun k hk => ?_⟩
  · rw [hpwr]
    exact mfind_mset _ _ _
  · rw [State.core, hcores]
    exact hcrst k hk

/-! ### Stacks (R404) -/

theorem switchDomain_mdOff {s : State} {d : Nat} (h : 116 ≤ d) (hd : d < 132) (hon : domOf s d = .on) :
    switchDomain s d 0 = some (mdOff s (d - 116) .off) := by
  have hleave : domLeave s d .off = mdOff s (d - 116) .off := by
    rw [domLeave, if_neg (by omega), if_neg (by omega), if_pos (by omega), dieLeave, if_neg (by omega), if_pos hd]
  rw [switchDomain, hon, ← hleave, if_neg (by simp; omega), if_neg (by omega)]
  rfl

theorem switchDomain_mdOn {s : State} {d : Nat} (h : 116 ≤ d) (hd : d < 132) (hoff : domOf s d = .off) :
    switchDomain s d 1 = some (modStack (setDom s d .on) (d - 116) fun k => { k with st := .training }) := by
  rw [switchDomain, hoff, if_neg (by simp; omega), if_neg (by omega), if_neg (by decide), if_neg (by decide), if_neg (by omega)]

theorem domainSwitch_mdOff {s : State} {sid d : Nat} (h : MayAct s sid ⟨0x10, 0x0021, d⟩ (.num 0)) (hd : 116 ≤ d) (hon : domOf s d = .on)
    (hlive : (s.stack (d - 116)).st ≠ .retired) : ∃ t, exec (.domainSwitch sid d 0) s = .next t ∧
      domOf t d = .off ∧ (t.stack (d - 116)).st = .off ∧
      (∀ c e b, b ∈ ((s.core c).eng e).bursts → b.status = none → b.data = none → hitsStack s b.src b.len (d - 116) = true →
        { b with status := some 8 } ∈ ((t.core c).eng e).bursts) ∧
      ∀ c, (∀ g, (s.core c).ctl.blk ≠ .gacc g) → { t.core c with dma := (s.core c).dma } = s.core c := by
  obtain ⟨u, hu, hexec⟩ := domainSwitch_runs h
  rw [switchDomain_mdOff hd (lt_of_switchDomain (Option.isSome_of_mem hu)) hon] at hu
  obtain ⟨hdom, hst, -, hcores, -⟩ := mdOff_effect s (d - 116) .off hlive
  generalize mdOff s (d - 116) .off = w at hu hdom hst hcores
  obtain rfl := Option.some.inj hu
  rw [Nat.add_sub_cancel' hd] at hdom
  obtain ⟨hpwr, -, hkept, -, hstack⟩ := lowLeft_reevaluate w
  have hcore : ∀ c, (lowLeft (reevaluate w)).core c = goneCore s (d - 116) (s.core c) := fun c => by
    rw [State.core, hkept, hcores]
    exact mget_map (f := goneCore s (d - 116)) rfl s.cores c
  refine ⟨_, hexec, ?_, (hstack _).trans hst, fun c e b hb hs hdata hit => ?_, fun c hc => ?_⟩
  · rw [domOf, hpwr]
    exact hdom
  · rw [hcore]
    exact goneCore_burst hb hs hdata hit
  · rw [hcore]
    exact goneCore_ctl hc

theorem domainSwitch_mdOn {s : State} {sid d : Nat} (h : MayAct s sid ⟨0x10, 0x0021, d⟩ (.num 1)) (hd : 116 ≤ d) (hoff : domOf s d = .off) :
    ∃ t, exec (.domainSwitch sid d 1) s = .next t ∧ domOf t d = .on ∧ (t.stack (d - 116)).st = .training ∧ t.mem = s.mem ∧
      t.cores = s.cores := by
  obtain ⟨u, hu, hexec⟩ := domainSwitch_runs h
  rw [switchDomain_mdOn hd (lt_of_switchDomain (Option.isSome_of_mem hu)) hoff] at hu
  cases hu
  obtain ⟨hpwr, -, hcores, hmem, hstack⟩ := lowLeft_reevaluate (modStack (setDom s d .on) (d - 116) fun k => { k with st := .training })
  refine ⟨_, hexec, ?_, ?_, hmem, hcores⟩
  · rw [domOf, hpwr]
    exact domOf_setDom s d .on
  · rw [hstack, stack_modStack]

theorem domainSwitch_effect (s : State) (sid d v : Nat) (h : MayAct s sid ⟨0x10, 0x0021, d⟩ (.num v)) :
    (d < 96 → v = 1 → domOf s d = .off → ∃ t, exec (.domainSwitch sid d v) s = .next t ∧ t.mem = s.mem ∧ t.cores = s.cores ∧
      d ∈ (t.field (d / 8)).powerUp) ∧
    (d < 96 → v = 0 → domOf s d = .on → ∃ t, exec (.domainSwitch sid d v) s = .next t ∧ mfind t.pwr.trans d = some .off ∧
      ∀ k < 12, (t.core (12 * d + k)).crst = true) ∧
    (116 ≤ d → v = 0 → domOf s d = .on → (s.stack (d - 116)).st ≠ .retired → ∃ t, exec (.domainSwitch sid d v) s = .next t ∧
      domOf t d = .off ∧ (t.stack (d - 116)).st = .off ∧
      (∀ c e b, b ∈ ((s.core c).eng e).bursts → b.status = none → b.data = none → hitsStack s b.src b.len (d - 116) = true →
        { b with status := some 8 } ∈ ((t.core c).eng e).bursts) ∧
      ∀ c, (∀ g, (s.core c).ctl.blk ≠ .gacc g) → { t.core c with dma := (s.core c).dma } = s.core c) ∧
    (116 ≤ d → v = 1 → domOf s d = .off → ∃ t, exec (.domainSwitch sid d v) s = .next t ∧ domOf t d = .on ∧
      (t.stack (d - 116)).st = .training ∧ t.mem = s.mem ∧ t.cores = s.cores) :=
  ⟨fun hd hv hoff => by cases hv; exact domainSwitch_cgOn h hd hoff, fun hd hv hon => by cases hv; exact domainSwitch_cgOff h hd hon,
    fun hd hv hon hlive => by cases hv; exact domainSwitch_mdOff h hd hon hlive,
    fun hd hv hoff => by cases hv; exact domainSwitch_mdOn h hd hoff⟩

end Sys2Proof.Machine
end

section
/-!
O57: a warm start leaves no lock, channel or launch (R445).
-/

namespace Sys2Proof.Machine
open Sys2Proof

/-! ### No lock, and no command under way that could take one -/

/-- No lock is held, and no core of the device has a command under way. -/
structure NoLocks (s : State) : Prop where
  locks : s.locks = []
  flights : ∀ c < 1152, (s.core c).flights = []

theorem NoLocks.of_eq {s t : State} (h : NoLocks s) (hlocks : t.locks = s.locks) (hcores : t.cores = s.cores) : NoLocks t := by
  refine ⟨hlocks.trans h.locks, fun c hc => ?_⟩
  rw [State.core, hcores]
  exact h.flights c hc

theorem NoLocks.foldl {α : Type} {step : State → α → State} {l : List α} (h : ∀ s, ∀ a ∈ l, NoLocks s → NoLocks (step s a)) {s : State}
    (hs : NoLocks s) : NoLocks (l.foldl step s) :=
  List.foldlRecOn (motive := NoLocks) l step hs fun t ht a ha => h t a ha ht

theorem Lands.noLocks {s t : State} (h : Lands s t) (k : NoLocks s) : NoLocks t :=
  ⟨h.locks.trans k.locks, fun c hc => (h.core c).flights (k.flights c hc)⟩

theorem Still.noLocks {s t : State} (h : Still s t) (k : NoLocks s) : NoLocks t := k.of_eq (by rw [h.rest]) h.cores

theorem Rated.noLocks {s t : State} (h : Rated s t) (k : NoLocks s) : NoLocks t := k.of_eq (by rw [h]) h.cores

theorem Closes.noLocks {s t : State} (h : Closes s t) (k : NoLocks s) : NoLocks t := k.of_eq (by rw [h]) (by rw [h])

theorem noLocks_resetCore {s : State} {c : Nat} (h : NoLocks s) (hc : c < 1152) (clear : Bool) : NoLocks (resetCore s c clear) :=
  (lands_resetCore h.locks (h.flights c hc) clear).noLocks h

theorem noLocks_modGrp {s : State} (h : NoLocks s) (g : Nat) (f : Group → Group) : NoLocks (modGrp s g f) := h.of_eq rfl rfl

theorem lt_of_mem_groupCores {g c : Nat} (hg : g < 96) (hc : c ∈ groupCores g) : c < 1152 := by
  obtain ⟨k, hk, rfl⟩ := List.mem_map.1 hc
  have := List.mem_range.1 hk
  omega

theorem noLocks_resetGroup {s : State} {g : Nat} (h : NoLocks s) (hg : g < 96) (clear : Bool) : NoLocks (resetGroup s g clear) :=
  NoLocks.foldl (fun _ _ hc hu => noLocks_resetCore hu (lt_of_mem_groupCores hg hc) clear)
    (s := modGrp s g fun k => { k with rst := true }) (h.of_eq rfl rfl)

/-! ### The loss of a group (R402, R410) -/

theorem noLocks_releaseCore {s : State} (h : NoLocks s) (c : Nat) : NoLocks (releaseCore s c) := by
  refine ⟨h.locks, fun x hx => ?_⟩
  by_cases hxc : x = c
  · have hflights : ((releaseCore s c).core c).flights = (s.core c).flights := by rw [releaseCore, core_modCore]
    rw [hxc, hflights]
    exact h.flights c (hxc ▸ hx)
  · rw [releaseCore, core_modCore_ne _ _ hxc]
    exact h.flights x hx

theorem noLocks_releaseGroup {s : State} (h : NoLocks s) (g : Nat) : NoLocks (releaseGroup s g) :=
  NoLocks.foldl (fun _ c _ hu => noLocks_releaseCore hu c) (s := modGrp s g fun k => { k with rst := false }) (h.of_eq rfl rfl)

theorem noLocks_moveFaultCore {s : State} (h : NoLocks s) (p g : Nat) : NoLocks (moveFaultCore s p g) := by
  rw [moveFaultCore]
  refine NoLocks.foldl (fun u c _ hu => (works_modCtl u c _).lands.noLocks hu) ?_
  split
  · split
    · split
      · exact h.of_eq rfl rfl
      · exact h
    · exact h
  · exact h

theorem noLocks_adoptGroup {s : State} (h : NoLocks s) (p : Nat) : NoLocks (adoptGroup s p) := by
  rw [adoptGroup]
  split
  · split
    · exact h
    · next x hx =>
      have hx96 := List.mem_range.1 (List.mem_of_find?_eq_some hx)
      refine (lands_groupNotify _ _ _ _ _).noLocks (noLocks_releaseGroup (noLocks_resetGroup ?_ hx96 true) x)
      exact NoLocks.of_eq (s := modGrp s x fun k => { k with part := some p }) (noLocks_modGrp h x _) rfl rfl
  · exact h

theorem noLocks_reevaluate {s : State} (h : NoLocks s) : NoLocks (reevaluate s) := (rated_reevaluate s).noLocks h

theorem noLocks_afterLoss {s : State} (h : NoLocks s) (owner : Option Nat) (g cause : Nat) : NoLocks (afterLoss s owner g cause) := by
  unfold afterLoss
  refine noLocks_reevaluate ?_
  split
  · exact (lands_groupNotify s none 0x11 g cause).noLocks h
  · exact noLocks_adoptGroup ((lands_groupNotify _ _ 0x11 g cause).noLocks (noLocks_moveFaultCore h _ g)) _

theorem noLocks_loseGroup {s : State} {g : Nat} (h : NoLocks s) (hg : g < 96) (cause : Nat) (off : Bool) : NoLocks (loseGroup s g cause off) := by
  cases hlost : (s.grp g).lost with
  | true =>
    rw [loseGroup, if_pos hlost]
    exact h
  | false =>
    rw [loseGroup_eq cause off hlost]
    exact noLocks_afterLoss (noLocks_modGrp (noLocks_resetGroup h hg true) g _) _ g cause

theorem noLocks_setDom {s : State} (h : NoLocks s) (d : Nat) (x : DomSt) : NoLocks (setDom s d x) := h.of_eq rfl rfl

theorem noLocks_raiseErr {code : Nat} (hcode : classOf code ≠ 2) {s : State} (h : NoLocks s) (ukind unit : Nat) (part : Option Nat)
    (echo : W64) (detail : List Nat) : NoLocks (raiseErr s code ukind unit part echo detail) :=
  (lands_raiseErr hcode s ukind unit part echo detail).noLocks h

theorem noLocks_confirmedOff {s : State} {g : Nat} (h : NoLocks s) (hg : g < 96) : NoLocks (confirmedOff s g) :=
  noLocks_loseGroup (noLocks_raiseErr (by decide) (noLocks_setDom h g .off) 7 g _ _ _) hg 2 true

/-! ### Domains that leave ON (R404) -/

theorem noLocks_portLeave {s : State} (h : NoLocks s) (p : Nat) (x : PortState) : NoLocks (portLeave s p x) := by
  by_cases hx : (s.port p).st = x
  · rw [portLeave]
    dsimp only
    rw [if_pos hx]
    exact h
  · exact (portLeave_leaves hx).still.noLocks h

theorem noLocks_ldOff {s : State} (h : NoLocks s) (l : Nat) (x : DomSt) : NoLocks (ldOff s l x) :=
  NoLocks.foldl (fun _ _ _ hu => noLocks_portLeave hu _ _) (noLocks_setDom h (108 + l) x)

theorem noLocks_stackGone {s : State} (h : NoLocks s) (st : Nat) : NoLocks (stackGone s st) := by
  obtain ⟨out, hgone⟩ := stackGone_eq s st
  rw [hgone]
  refine ⟨h.locks, fun c hc => ?_⟩
  have hcore : mget Core.reset (s.cores.map fun x => (x.1, goneCore s st x.2)) c = goneCore s st (s.core c) :=
    mget_map (f := goneCore s st) rfl s.cores c
  rw [State.core, hcore]
  exact h.flights c hc

theorem noLocks_mdOff {s : State} (h : NoLocks s) (st : Nat) (x : DomSt) : NoLocks (mdOff s st x) := by
  have hgone := noLocks_stackGone (noLocks_setDom h (116 + st) x) st
  rw [mdOff]
  generalize stackGone (setDom s (116 + st) x) st = u at hgone
  exact noLocks_reevaluate (hgone.of_eq rfl rfl)

theorem noLocks_hdOff {s : State} (h : NoLocks s) (i : Nat) (x : DomSt) : NoLocks (hdOff s i x) := by
  rw [hdOff]
  refine noLocks_reevaluate (NoLocks.foldl (fun u f _ hu => (closes_closeMailbox u i f).noLocks hu) ?_)
  exact h.of_eq rfl rfl

theorem noLocks_dieLeave {s : State} (h : NoLocks s) (d : Nat) (x : DomSt) : NoLocks (dieLeave s d x) := by
  rw [dieLeave]
  split
  · exact noLocks_ldOff h _ x
  split
  · exact noLocks_mdOff h _ x
  · exact noLocks_hdOff h _ x

theorem noLocks_fieldOut {s : State} {n : Nat} (h : NoLocks s) (hn : n < 12) (x : DomSt) : NoLocks (fieldOut s n x) := by
  rw [fieldOut]
  refine NoLocks.foldl (fun u die _ hu => ?_) (NoLocks.foldl (fun u row hrow hu => ?_) (noLocks_setDom h (96 + n) x))
  · split
    · exact noLocks_dieLeave hu _ _
    · exact hu
  · have hrow8 := List.mem_range.1 hrow
    refine noLocks_loseGroup ?_ (by omega) 2 true
    split
    · exact hu
    · exact noLocks_setDom hu _ _

theorem noLocks_domLeave {s : State} {d : Nat} (h : NoLocks s) (hd : 96 ≤ d) (x : DomSt) : NoLocks (domLeave s d x) := by
  rw [domLeave, if_neg (Nat.not_lt.2 hd)]
  split
  · exact noLocks_reevaluate (noLocks_fieldOut h (by omega) x)
  split
  · exact noLocks_dieLeave h d x
  split
  · refine NoLocks.foldl (fun u c _ hu => ?_) (noLocks_setDom h d x)
    exact hu.of_eq rfl rfl
  · exact h

theorem noLocks_switchDue {s : State} (h : NoLocks s) : NoLocks (switchDue s) := by
  rw [switchDue]
  refine NoLocks.foldl (fun u d _ hu => ?_) (h.of_eq rfl rfl)
  split
  · next hd => exact noLocks_confirmedOff hu hd
  · next hd => exact noLocks_raiseErr (by decide) (noLocks_domLeave hu (Nat.le_of_not_lt hd) .off) 7 d _ _ _

/-! ### A warm start (R445) -/

theorem resetLeaves_flights (s : State) (c : Nat) (clear : Bool) (late : Option GAccess) : ((resetLeaves s c clear late).core c).flights = [] := by
  unfold resetLeaves
  extract_lets u core ctl v
  have hv : (v.core c).flights = [] := congrArg Core.flights (core_modCore u c _)
  clear_value v
  split
  · exact (((lands_clearMem _ _).trans (lands_applyBanks _ c)).core c).flights hv
  · exact hv

theorem resetCore_noFlights (s : State) (c : Nat) (clear : Bool) : ((resetCore s c clear).core c).flights = [] := by
  rw [resetCore_eq]
  exact resetLeaves_flights _ c clear _

theorem resetGroup_noFlights (s : State) {g k : Nat} (hk : k < 12) (clear : Bool) : ((resetGroup s g clear).core (12 * g + k)).flights = [] := by
  obtain ⟨u, -, hafter⟩ := foldl_through (R := Resets) .refl .trans (fun u c => resets_resetCore u c clear) (mem_groupCores hk)
    (modGrp s g fun k => { k with rst := true })
  exact (hafter.stays _).flights (resetCore_noFlights u _ clear)

/-- Cores stay as they are, or end what they had begun. -/
def CoresStay (s t : State) : Prop := ∀ c, CoreStays (s.core c) (t.core c)

theorem coresStay_resetGroup (s : State) (g : Nat) (clear : Bool) : CoresStay s (resetGroup s g clear) :=
  fun c => (resetGroup_resets s g clear).1.stays c

theorem resetAllCores_noFlights (s : State) (clear : Bool) {c : Nat} (hc : c < 1152) : ((resetAllCores s clear).core c).flights = [] := by
  obtain ⟨u, -, hafter⟩ := foldl_through (R := CoresStay) (fun _ _ => .refl _) (fun h k c => (h c).trans (k c))
    (fun u g => coresStay_resetGroup u g clear) (List.mem_range.2 (show c / 12 < 96 by omega)) s
  have h := resetGroup_noFlights u (g := c / 12) (k := c % 12) (by omega) clear
  rw [Nat.div_add_mod] at h
  exact (hafter c).flights h

/-- R482: what the end of a field check changes, at most. -/
theorem abortCheck_rest (s : State) : abortCheck s = { s with
    fresh := (abortCheck s).fresh
    groups := (abortCheck s).groups
    sessions := (abortCheck s).sessions
    out := (abortCheck s).out
    wake := (abortCheck s).wake } := by
  rw [abortCheck]
  split
  · obtain ⟨m, hm, -⟩ := unchecked s
    have hend := actsEnd_endFailed { s with groups := m } 4
    dsimp only
    rw [hm]
    generalize endFailed { s with groups := m } 4 = u at hend ⊢
    rw [hend]
    rfl
  · rfl

theorem launches_abortCheck (s : State) : (abortCheck s).launches = s.launches := by rw [abortCheck_rest]

/-- Of `s`, `t` keeps the locks, the cores, the launches and the channels. -/
structure LockKeeps (s t : State) : Prop where
  locks : t.locks = s.locks
  cores : t.cores = s.cores
  launches : t.launches = s.launches
  mchans : t.mchans = s.mchans

theorem LockKeeps.refl (s : State) : LockKeeps s s := ⟨rfl, rfl, rfl, rfl⟩

theorem LockKeeps.trans {s t u : State} (h : LockKeeps s t) (k : LockKeeps t u) : LockKeeps s u :=
  ⟨k.locks.trans h.locks, k.cores.trans h.cores, k.launches.trans h.launches, k.mchans.trans h.mchans⟩

theorem LockKeeps.foldl {α : Type} {step : State → α → State} (h : ∀ s a, LockKeeps s (step s a)) (s : State) (l : List α) :
    LockKeeps s (l.foldl step s) :=
  List.foldlRecOn (motive := fun t => LockKeeps s t) l step (.refl s) fun t ht a _ => ht.trans (h t a)

theorem lockKeeps_unmapped (s : State) : LockKeeps s (unmapped s) := by
  rw [unmapped]
  refine LockKeeps.foldl (fun u i => ?_) s _
  exact ⟨rfl, rfl, rfl, rfl⟩

theorem lockKeeps_routersReset (s : State) : LockKeeps s (routersReset s) := by
  rw [routersReset]
  refine LockKeeps.foldl (fun u i => ?_) s _
  exact ⟨rfl, rfl, rfl, rfl⟩

theorem lockKeeps_refreshed (s : State) : LockKeeps s (refreshed s) := by
  rw [refreshed]
  refine LockKeeps.foldl (fun u i => ?_) s _
  exact ⟨rfl, rfl, rfl, rfl⟩

theorem lockKeeps_retirePage (s : State) (st pg : Nat) : LockKeeps s (retirePage s st pg) := ⟨rfl, rfl, rfl, rfl⟩

theorem lockKeeps_retireCands (s : State) (p : Option Nat → Bool) : LockKeeps s (retireCands s p) := by
  rw [retireCands]
  exact LockKeeps.foldl (fun u st => LockKeeps.foldl (fun v pg => lockKeeps_retirePage v st pg) u _) s _

theorem lockKeeps_setDeviceCause (s : State) (b : Bool) : LockKeeps s (setDeviceCause s b) := by
  rw [setDeviceCause_eq]
  exact ⟨rfl, rfl, rfl, rfl⟩

theorem Loses.launches {s t : State} (h : Loses s t) : t.launches = s.launches := by rw [h.rest]

theorem loses_resetAllCores (s : State) (clear : Bool) : Loses s (resetAllCores s clear) := by
  rw [resetAllCores]
  exact Loses.foldl (fun s g => loses_resetGroup s g clear) s (List.range 96)

/-- A warm start's state with every core under reset. -/
def warmCores (s : State) : State := resetAllCores (abortCheck (endLaunches s fun _ => true)) true

theorem warmCores_fences (s : State) : ∀ l ∈ (warmCores s).launches, l.fence = true := by
  have hlaunches : (warmCores s).launches = (endLaunches s fun _ => true).launches := by
    rw [warmCores, (loses_resetAllCores _ true).launches, launches_abortCheck]
  rw [hlaunches]
  exact endLaunches_all s

theorem warmCores_noFlights (s : State) {c : Nat} (hc : c < 1152) : ((warmCores s).core c).flights = [] := resetAllCores_noFlights _ true hc

/-- A warm start's state once its groups are under reset, before the domains that were due are switched off. -/
def warmEmptied (s : State) : State := routersReset (emptied (unmapped s))

theorem emptied_empties (s : State) : (emptied s).locks = [] ∧ (emptied s).cores = s.cores ∧ (emptied s).launches = s.launches ∧
    (emptied s).mchans = [] := ⟨rfl, rfl, rfl, rfl⟩

theorem warmEmptied_empties (s : State) : (warmEmptied s).locks = [] ∧ (warmEmptied s).cores = s.cores ∧ (warmEmptied s).launches = s.launches ∧
    (warmEmptied s).mchans = [] := by
  have hunmapped := lockKeeps_unmapped s
  have hrouters := lockKeeps_routersReset (emptied (unmapped s))
  obtain ⟨hlocks, hcores, hlaunches, hmchans⟩ := emptied_empties (unmapped s)
  rw [warmEmptied]
  exact ⟨hrouters.locks.trans hlocks, hrouters.cores.trans (hcores.trans hunmapped.cores),
    hrouters.launches.trans (hlaunches.trans hunmapped.launches), hrouters.mchans.trans hmchans⟩

theorem warmEmptied_empty (s : State) : NoLocks (warmEmptied (warmCores s)) ∧ (warmEmptied (warmCores s)).mchans = [] ∧
    ∀ l ∈ (warmEmptied (warmCores s)).launches, l.fence = true := by
  obtain ⟨hlocks, hcores, hlaunches, hmchans⟩ := warmEmptied_empties (warmCores s)
  refine ⟨⟨hlocks, fun c hc => ?_⟩, hmchans, fun l hl => warmCores_fences s l (hlaunches ▸ hl)⟩
  rw [State.core, hcores, ← State.core]
  exact warmCores_noFlights s hc

theorem warmEnd_keeps (s : State) : LockKeeps s (setDeviceCause (retireCands (refreshed s) fun _ => true) false) :=
  ((lockKeeps_refreshed s).trans (lockKeeps_retireCands _ _)).trans (lockKeeps_setDeviceCause _ false)

theorem switchDue_keeps (s : State) : (switchDue s).launches = s.launches ∧ (switchDue s).mchans = s.mchans := by
  have h := departs_switchDue s
  generalize switchDue s = t at h ⊢
  rw [h.rest]
  exact ⟨rfl, rfl⟩

theorem warmReset_empty (s : State) : (warmReset s).locks = [] ∧ (warmReset s).mchans = [] ∧ ∀ l ∈ (warmReset s).launches, l.fence = true := by
  obtain ⟨hnone, hmchans, hlaunches⟩ := warmEmptied_empty s
  have hreset : warmReset s = setDeviceCause (retireCands (refreshed (switchDue (warmEmptied (warmCores s)))) fun _ => true) false := by
    rw [warmReset, warmEmptied, warmCores]
  rw [hreset]
  generalize warmEmptied (warmCores s) = u at hnone hmchans hlaunches ⊢
  have hkeeps := warmEnd_keeps (switchDue u)
  obtain ⟨hlaunches', hmchans'⟩ := switchDue_keeps u
  rw [hkeeps.locks, hkeeps.launches, hkeeps.mchans, hlaunches', hmchans']
  exact ⟨(noLocks_switchDue hnone).locks, hmchans, hlaunches⟩

theorem inWarmStart_keeps (s : State) : (setDev (inWarmStart s) .waking 4).locks = s.locks ∧
    (setDev (inWarmStart s) .waking 4).launches = s.launches ∧ (setDev (inWarmStart s) .waking 4).mchans = s.mchans := by
  have h := tells_setDev (inWarmStart s) .waking 4
  generalize setDev (inWarmStart s) .waking 4 = t at h ⊢
  rw [Tells] at h
  rw [h]
  exact ⟨rfl, rfl, rfl⟩

theorem warmRun_empty (s : State) : (warmRun s).locks = [] ∧ (warmRun s).mchans = [] ∧ ∀ l ∈ (warmRun s).launches, l.fence = true := by
  obtain ⟨h1, h2, h3⟩ := inWarmStart_keeps (warmReset s)
  rw [warmRun_eq, h1, h2, h3]
  exact warmReset_empty s

theorem warmStart_effect {s : State} {sid : Nat} (h : MayAct s sid ⟨0x02, 0x0004, 0⟩ (.num 1)) (hstay : s.wake.vinStayed = true)
    (hstandby : s.dev ≠ .standby) (hheld : s.dev ≠ .held) : ∃ t, exec (.warmStart sid) s = .next t ∧ t.dev = .waking ∧ t.stage = 4 ∧
      t.wake.start = some ⟨true, s.echoM, t.survey.nextSeq⟩ ∧ t.locks = [] ∧ t.mchans = [] ∧ ∀ l ∈ t.launches, l.fence = true := by
  obtain ⟨e, hrule⟩ := h.rule
  have hrule' : warmRule s = 0 := hrule
  have hexec : exec (.warmStart sid) s = .next (warmStart s) := congrArg Host.Outcome.next (byAction_of_mayAct h)
  have hnone : s.wake.start.isSome = false := by
    by_contra hsome
    rw [warmRule, if_pos (Bool.eq_true_of_not_eq_false hsome)] at hrule'
    exact absurd hrule' (by decide)
  rw [warmRule, hnone, if_neg Bool.false_ne_true] at hrule'
  have hmay := of_need (by decide) hrule'
  have hoff : s.dev ≠ .off := fun ho => by
    rw [warmTurnsCold, canCold, ho, hstay] at hmay
    simp at hmay
  have hwarm : warmTurnsCold s = false := by
    rw [warmTurnsCold, hstay, beq_false_of_ne hstandby, beq_false_of_ne hoff, beq_false_of_ne hheld]
    rfl
  have hrun : warmStart s = warmRun s := by
    rw [warmStart, hnone, hwarm, if_neg Bool.false_ne_true, if_neg Bool.false_ne_true]
  obtain ⟨hdev, hstage, hstart⟩ := warmRun_effect s
  obtain ⟨hlocks, hmchans, hlaunches⟩ := warmRun_empty s
  rw [hexec, hrun]
  exact ⟨_, rfl, hdev, hstage, hstart, hlocks, hmchans, hlaunches⟩

end Sys2Proof.Machine
end

section
/-!
O57: cold starts and compute resets that a session begins (R438, R443, R444, R448).
-/

namespace Sys2Proof.Machine
open Sys2Proof

/-! ### What a cold start ends and counts -/

/-- No session is open, and `n` starts have failed. -/
def Alone (n : Nat) (s : State) : Prop := s.sessions = [] ∧ s.wake.failedStarts = n

theorem failedStarts_raiseEvent (s : State) (code ukind unit : Nat) (part : Option Nat) (detail : List Nat) :
    (raiseEvent s code ukind unit part detail).wake.failedStarts = s.wake.failedStarts := by
  rw [raiseEvent, logged_raiseRec s code 4 ukind unit part s.echoM detail]

theorem failedStarts_fwEvent (s : State) (stage bank chk : Nat) : (fwEvent s stage bank chk).wake.failedStarts = s.wake.failedStarts :=
  failedStarts_raiseEvent _ _ _ _ _ _

theorem failedStarts_trialRecord (s : State) : (trialRecord s).wake.failedStarts = s.wake.failedStarts := by
  rw [trialRecord]
  split
  · rfl
  · dsimp only
    split
    · exact failedStarts_fwEvent s _ _ _
    · exact (failedStarts_fwEvent _ _ _ _).trans (failedStarts_fwEvent s _ _ _)

theorem failedStarts_pendCold (s : State) : (pendCold s).wake.failedStarts = s.wake.failedStarts := by
  rw [pendCold]
  split
  · split
    · exact failedStarts_fwEvent _ _ _ _
    · rfl
  · rfl

theorem failedStarts_dropImage (s : State) (e : Session) : (dropImage s e).wake.failedStarts = s.wake.failedStarts := by
  rw [dropImage]
  split
  · rfl
  · split <;> rfl

theorem Logged.failedStarts {s t : State} (h : Logged s t) : t.wake.failedStarts = s.wake.failedStarts := by rw [h]

theorem failedStarts_closeSession (s : State) (sid : Nat) (why : CloseCause) : (closeSession s sid why).wake.failedStarts = s.wake.failedStarts := by
  rw [closeSession]
  split
  · rfl
  · next e _ =>
    refine (logged_sessionEvent _ e why).failedStarts.trans ?_
    dsimp only [modWake]
    split
    · exact failedStarts_dropImage _ e
    · rfl

theorem failedStarts_closeSessions (s : State) (p : Session → Bool) (why : CloseCause) :
    (closeSessions s p why).wake.failedStarts = s.wake.failedStarts := by
  rw [closeSessions]
  exact List.foldlRecOn (motive := fun t : State => t.wake.failedStarts = s.wake.failedStarts) _ _ rfl fun t ht x _ =>
    (failedStarts_closeSession t x.1 why).trans ht

theorem SessionsFrom.nil {s t : State} (h : SessionsFrom s t) (hs : s.sessions = []) : t.sessions = [] := by
  refine List.eq_nil_iff_forall_not_mem.2 fun x hx => ?_
  obtain ⟨y, hy, -⟩ := h x hx
  rw [hs] at hy
  exact List.not_mem_nil hy

/-- With no session open, the end of an action is told to none. -/
theorem endAsync_alone {n : Nat} {s : State} (h : Alone n s) (kind status : Nat) : Alone n (endAsync s kind status) := by
  obtain ⟨hs, hn⟩ := h
  rw [endAsync]
  refine List.foldlRecOn (motive := Alone n) _ _ ⟨hs, hn⟩ fun t ht a _ => ?_
  rw [ht.1]
  exact ht

theorem abortCheck_alone {n : Nat} {s : State} (h : Alone n s) : Alone n (abortCheck s) := by
  rw [abortCheck]
  split
  · obtain ⟨m, hm, -⟩ := unchecked s
    dsimp only
    rw [hm]
    have hend : Alone n (endFailed { s with groups := m } 4) := endAsync_alone (s := (drawNat { s with groups := m }).2) h 4 _
    generalize endFailed { s with groups := m } 4 = u at hend ⊢
    exact hend
  · exact h

theorem modFw_alone {n : Nat} {s : State} (h : Alone n s) (f : Fw → Fw) : Alone n (modFw s f) := h

theorem fwEvent_alone {n : Nat} {s : State} (h : Alone n s) (stage bank chk : Nat) : Alone n (fwEvent s stage bank chk) :=
  ⟨(sessionsFrom_raiseEvent (modFw s fun f => { f with last := some (stage, bank, chk, s.echoM) }) 0x6001 0 0 none [stage, bank]).nil h.1,
    (failedStarts_fwEvent s stage bank chk).trans h.2⟩

theorem confirmRest_alone {n : Nat} {s : State} (h : Alone n s) : Alone n (confirmRest s) := by
  rw [confirmRest]
  split
  · exact h
  · split
    · exact h
    · exact fwEvent_alone (modFw_alone (modFw_alone h _) _) 6 _ 0

theorem sessions_sendVector (s : State) (h f v : Nat) : (sendVector s h f v).sessions = s.sessions := by
  rw [sendVector]
  split <;> rfl

theorem sessions_devVectors (s : State) : (devVectors s).sessions = s.sessions := by
  rw [devVectors]
  refine List.foldlRecOn (motive := fun t : State => t.sessions = s.sessions) _ _ rfl fun t ht p _ => ?_
  split
  · exact List.foldlRecOn (motive := fun u : State => u.sessions = s.sessions) _ _ ht fun u hu f _ => (sessions_sendVector u _ f 4).trans hu
  · exact ht

theorem sessionsFrom_setDev (s : State) (d : DevState) (stage : Nat) : SessionsFrom s (setDev s d stage) := by
  rw [setDev]
  split
  · exact .of_eq rfl
  · exact (SessionsFrom.trans (t := { s with dev := d, stage := stage }) (.of_eq rfl) (sessionsFrom_raiseEvent _ _ _ _ _ _)).trans
      (.of_eq (sessions_devVectors _))

theorem setDev_alone {n : Nat} {s : State} (h : Alone n s) (d : DevState) (stage : Nat) : Alone n (setDev s d stage) :=
  ⟨(sessionsFrom_setDev s d stage).nil h.1, (tells_setDev s d stage).wake_failedStarts.trans h.2⟩

theorem loseDie_alone {n : Nat} {s : State} (h : Alone n s) : Alone n (loseRun (countersDefault (loseDie s))) := h

/-- R438, R492: a cold start ends every session, and counts no failure. -/
theorem coldRun_alone (s : State) : Alone s.wake.failedStarts (coldRun s) := by
  unfold coldRun
  extract_lets s1 s2 s3 kept s4 s5 s6 s7 s8 s9 s10
  have h2 : Alone s.wake.failedStarts s2 :=
    ⟨closeSessions_all s1 .start, (failedStarts_closeSessions s1 _ _).trans (failedStarts_pendCold s)⟩
  clear_value s2
  have h3 : Alone s.wake.failedStarts s3 := abortCheck_alone h2
  clear_value s3
  have h4 : Alone s.wake.failedStarts s4 := loseDie_alone h3
  clear_value s4
  have h5 : Alone s.wake.failedStarts s5 := h4
  clear_value s5
  have h6 : Alone s.wake.failedStarts s6 := List.foldlRecOn (motive := Alone s.wake.failedStarts) _ _ h5 fun _ ht _ _ => ht
  clear_value s6
  have h7 : Alone s.wake.failedStarts s7 := h6
  clear_value s7
  have h8 : Alone s.wake.failedStarts s8 := h7
  clear_value s8
  have h9 : Alone s.wake.failedStarts s9 := confirmRest_alone h8
  clear_value s9
  have h10 : Alone s.wake.failedStarts s10 := h9
  exact setDev_alone h10 .waking 1

/-- A cold start at its first stage tells when it began. -/
theorem coldRun_start (s : State) : (coldRun s).wake.start = some ⟨false, s.echoM, (coldRun s).survey.nextSeq⟩ := by
  obtain ⟨u, -, -, hecho, he⟩ := coldRun_eq s
  rw [he]
  have ht := tells_setDev (modWake u fun w => { w with start := some ⟨false, u.echoM, u.survey.nextSeq⟩, mgmt := false, thermal := false }) .waking 1
  rw [ht.wake_start, ht.survey, ← hecho]
  rfl

/-! ### Starts (R438, R444) -/

theorem coldStart_runs {s : State} {released : Bool} (h : ¬(!s.pwr.vin ∨ s.dev = .off ∨ (s.dev = .held ∧ !released))) :
    ∃ u, coldStart s released = coldRun u ∧ u.echoM = s.echoM ∧ u.wake.failedStarts = s.wake.failedStarts := by
  refine ⟨if trialOn s then trialRecord s else s, by rw [coldStart, if_neg h], ?_, ?_⟩
  · split
    · exact echoM_of_view (runView_trialRecord s)
    · rfl
  · split
    · exact failedStarts_trialRecord s
    · rfl

theorem coldStartAction_effect {s : State} {sid : Nat} (h : MayAct s sid ⟨0x02, 0x0003, 0⟩ (.num 1)) :
    ∃ t, exec (.coldStart sid) s = .next t ∧ t.dev = .waking ∧ t.stage = 1 ∧ t.wake.start = some ⟨false, s.echoM, t.survey.nextSeq⟩ ∧
      t.mem = [] ∧ t.sessions = [] ∧ ∀ c, t.core c = Core.reset := by
  obtain ⟨e, hrule⟩ := h.rule
  have hcan : canCold s = true := of_need (by decide) hrule
  have hexec : exec (.coldStart sid) s = .next (coldStart s false) := congrArg Host.Outcome.next (byAction_of_mayAct h)
  have hgo : s.pwr.vin = true ∧ s.dev ≠ .held ∧ s.dev ≠ .off := by
    rw [canCold, Bool.and_eq_true, Bool.and_eq_true, bne_iff_ne, bne_iff_ne] at hcan
    exact ⟨hcan.1.1, hcan.1.2, hcan.2⟩
  obtain ⟨hvin, hheld, hoff⟩ := hgo
  obtain ⟨hdev, hstage, hstart, hcores, hmem⟩ := coldStart_effect hvin hoff hheld
  obtain ⟨u, hu, -, -⟩ := coldStart_runs (s := s) (released := false) (by simp [hvin, hheld, hoff])
  refine ⟨_, hexec, hdev, hstage, hstart, hmem, ?_, fun c => core_of_nil hcores c⟩
  rw [hu]
  exact (coldRun_alone u).1

theorem stateRelease_effect {s : State} {sid : Nat} (h : MayAct s sid ⟨0x02, 0x000B, 0⟩ (.num 1)) :
    ∃ t, exec (.stateRelease sid) s = .next t ∧ t.dev = .waking ∧ t.stage = 1 ∧ t.wake.start = some ⟨false, s.echoM, t.survey.nextSeq⟩ ∧
      t.wake.failedStarts = 2 := by
  obtain ⟨e, hrule⟩ := h.rule
  have hmay : (s.dev == .held && s.pwr.vin) = true := of_need (by decide) hrule
  have hexec : exec (.stateRelease sid) s = .next (actRelease s) := congrArg Host.Outcome.next (byAction_of_mayAct h)
  rw [Bool.and_eq_true, beq_iff_eq] at hmay
  obtain ⟨hheld, hvin⟩ := hmay
  obtain ⟨u, hu, hecho, hfailed⟩ := coldStart_runs (s := modWake s fun w => { w with failedStarts := 2 }) (released := true) (by
    simp [modWake, hvin, hheld])
  obtain ⟨hdev, hstage, -⟩ := coldRun_effect u
  have hstart := coldRun_start u
  have halone := coldRun_alone u
  have hrelease : actRelease s = coldRun u := hu
  rw [hexec, hrelease]
  rw [hecho] at hstart
  exact ⟨_, rfl, hdev, hstage, hstart, halone.2.trans hfailed⟩

/-! ### A compute reset (R448) -/

theorem beganReset_ends (s : State) : (beganReset s).stage = 10 ∧ ∀ l ∈ (beganReset s).launches, l.fence = true := by
  have htells := tells_setDev s .waking 10
  have hstage : (setDev s .waking 10).stage = 10 := htells.stage
  have hlaunch := launchOnly_endLaunches (modWake (setDev s .waking 10) inReset) fun _ => true
  have hends := endLaunches_all (modWake (setDev s .waking 10) inReset)
  rw [beganReset]
  generalize setDev s .waking 10 = u at hstage hlaunch hends ⊢
  generalize endLaunches (modWake u inReset) (fun _ => true) = v at hlaunch hends ⊢
  have hv : v.stage = u.stage := by rw [hlaunch]; rfl
  refine ⟨?_, fun l hl => hends l ?_⟩
  · change (abortCheck v).stage = 10
    rw [abortCheck_rest]
    exact hv.trans hstage
  · change l ∈ (abortCheck v).launches at hl
    rw [launches_abortCheck] at hl
    exact hl

theorem computeReset_effect {s : State} {sid : Nat} (h : MayAct s sid ⟨0x02, 0x0005, 0⟩ (.num 1)) (hw : s.dev ≠ .waking) :
    ∃ t, exec (.computeReset sid) s = .next t ∧ t.dev = .waking ∧ t.stage = 10 ∧ t.wake.compute = true ∧ t.mem = s.mem ∧
      (∀ l ∈ t.launches, l.fence = true) ∧ ∀ c < 1152, (t.core c).crst = true := by
  obtain ⟨e, hrule⟩ := h.rule
  have hdev := serving_of_serves (of_need (by decide) hrule) hw
  have hexec : exec (.computeReset sid) s = .next (beginComputeReset s) := congrArg Host.Outcome.next (byAction_of_mayAct h)
  rw [hexec, beginComputeReset_serving hdev]
  obtain ⟨hbegins, hwaking, hcompute, -, hcrst⟩ := beganReset_effect s
  obtain ⟨hstage, hlaunches⟩ := beganReset_ends s
  exact ⟨_, rfl, hwaking, hstage, hcompute, by rw [hbegins.rest], hlaunches, hcrst⟩

end Sys2Proof.Machine
end

section
/-!
O57: state.low as a session sets and clears it (R464).
-/

namespace Sys2Proof.Machine
open Sys2Proof

/-! ### A SET of a number (R495, R500) -/

theorem halted_causeSet (b : Bool) (m : Map Part) (p : Nat) :
    (mget Part.reset (causeSet b m) p).halted = (mget Part.reset m p).halted := by
  rw [causeSet]
  refine List.foldlRecOn (motive := fun n : Map Part => (mget Part.reset n p).halted = (mget Part.reset m p).halted) _ _ rfl fun n hn q _ => ?_
  by_cases hq : p = q
  · rw [hq, mget_mset, ← hq]
    exact hn
  · rw [mget_mset_ne _ _ _ hq]
    exact hn

/-- R500: a number that passes its checks is held already, or its chapter allows it. -/
theorem numRule_of_check {s t0 : State} {e : Session} {x : ObjEntry} {d : ObjDesc} {block : Bool} {v : Nat} (hd : objAt x.addr = some d)
    (hv : x.val = .num v) (h : setCheckIn s t0 e x block ≤ 1) :
    (keeps d = true ∧ objVal s none d x.addr = x.val) ∨ numRule s t0 x.addr v ≤ 1 := by
  unfold setCheckIn at h
  rw [hd] at h
  dsimp only at h
  iterate 7
    split at h
    · exact absurd h (by decide)
  split at h
  · next hk => exact .inl hk
  · rw [hv] at h
    exact .inr h

theorem objVal_low (s : State) (d : ObjDesc) : objVal s none d ⟨0x02, 0x0007, 0⟩ = .num (bit s.wake.low 0) := rfl

/-- A SET of state.low to what it does not hold: the object is kept, and what it says is done. -/
theorem setLow_runs {s : State} {sid v : Nat} (h : MaySet s sid ⟨0x02, 0x0007, 0⟩ (.num v)) (hne : bit s.wake.low 0 ≠ v) :
    (∃ t0, numRule s t0 ⟨0x02, 0x0007, 0⟩ v ≤ 1) ∧
      ∃ m, bySet s sid ⟨0x02, 0x0007, 0⟩ (.num v) = numApply { s with cfg := m } ⟨0x02, 0x0007, 0⟩ v := by
  obtain ⟨e, d, he, hd, hserved, hrecovery, hcheck⟩ := h
  have hval : ¬(keeps d = true ∧ objVal s none d ⟨0x02, 0x0007, 0⟩ = .num v) := fun hk => by
    rw [objVal_low, ObjVal.num.injEq] at hk
    exact hne hk.2
  refine ⟨⟨_, (numRule_of_check hd rfl hcheck).resolve_left hval⟩, ?_⟩
  rw [bySet, he, hd]
  dsimp only
  rw [if_pos ⟨hserved, by rw [hrecovery]; rfl, hcheck⟩, setApply, hd]
  dsimp only
  rw [if_neg hval]
  cases keeps d with
  | true => exact ⟨_, rfl⟩
  | false => exact ⟨s.cfg, rfl⟩

/-! ### LOW is entered (R464) -/

/-- The halts of every partition that exists. -/
def AllHalted (s : State) : Prop := ∀ p < 16, partExists s p = true → (s.part p).halted = true

theorem lowEnter_cond (s : State) : (List.range 16).all (fun p => !partExists s p || (s.part p).halted) = true ↔ AllHalted s := by
  simp only [AllHalted, List.all_eq_true, List.mem_range, Bool.or_eq_true, Bool.not_eq_true', ← Bool.not_eq_true]
  exact forall_congr' fun p => forall_congr' fun _ => Decidable.imp_iff_not_or.symm

theorem lowEnter_waits {s : State} (h : ¬AllHalted s) : lowEnter s = s := by
  rw [lowEnter, if_neg fun hc => h ((lowEnter_cond s).1 hc.2.2)]

theorem loses_cgLeave (s : State) (g : Nat) : Loses s (cgLeave s g) := loses_resetGroup s g false

theorem lowEnter_enters {s : State} (hlow : s.wake.low = true) (hdev : s.dev ≠ .low) (h : AllHalted s) :
    (lowEnter s).dev = .low ∧ (lowEnter s).wake.low = true ∧ (lowEnter s).parts = s.parts := by
  rw [lowEnter, if_pos ⟨hlow, hdev, (lowEnter_cond s).2 h⟩]
  generalize (List.range 96).filter (fun g => domOf s g == .on) = on
  dsimp only
  have hleave := Loses.foldl loses_cgLeave s on
  generalize on.foldl cgLeave s = u at hleave ⊢
  have hlow' : u.wake.low = true := by rw [hleave.rest]; exact hlow
  have hstacks := (foldl_modStack (modPwr u fun w => { w with trans := on.foldl (fun m g => mset m g .retention) w.trans })
    (fun k => { k with sref := k.st == .ready }) 16).1
  generalize (List.range 16).foldl _ (modPwr u fun w => { w with trans := on.foldl (fun m g => mset m g .retention) w.trans }) = v at hstacks ⊢
  have hwake := congrArg State.wake hstacks
  have hparts := congrArg State.parts hstacks
  have htells := tells_setDev v .low 0
  generalize setDev v .low 0 = t at htells ⊢
  rw [Tells] at htells
  rw [htells]
  exact ⟨rfl, (congrArg Wake.low hwake).trans hlow', hparts.trans hleave.parts⟩

/-- state.low set, before LOW is entered. -/
def lowAsked (s : State) : State := setDeviceCause (modWake s fun w => { w with low := true }) true

theorem lowAsked_effect (s : State) : (lowAsked s).wake.low = true ∧ (lowAsked s).dev = s.dev ∧ (lowAsked s).mem = s.mem ∧
    (lowAsked s).cores = s.cores ∧ (∀ p < 16, ((lowAsked s).part p).hDevice = true) ∧ (AllHalted (lowAsked s) ↔ AllHalted s) := by
  have hcause := fun p hp => hDevice_causeSet true s.parts (p := p) hp
  have hhalted := halted_causeSet true s.parts
  have hparts : (modWake s fun w => { w with low := true }).parts = s.parts := rfl
  rw [lowAsked, setDeviceCause_eq, hparts]
  generalize causeSet true s.parts = m at hcause hhalted ⊢
  refine ⟨rfl, rfl, rfl, rfl, hcause, forall_congr' fun p => forall_congr' fun _ => imp_congr_right fun _ => ?_⟩
  rw [State.part, hhalted]
  rfl

theorem lowSet_effect {s : State} (hdev : s.dev ≠ .low) : (lowSet s).wake.low = true ∧ (∀ p < 16, ((lowSet s).part p).hDevice = true) ∧
    (AllHalted s → (lowSet s).dev = .low) ∧ (¬AllHalted s → (lowSet s).dev = s.dev ∧ (lowSet s).mem = s.mem ∧ (lowSet s).cores = s.cores) := by
  obtain ⟨hlow, hdev', hmem, hcores, hcause, hall⟩ := lowAsked_effect s
  have hset : lowSet s = lowEnter (lowAsked s) := rfl
  rw [hset]
  generalize lowAsked s = u at hlow hdev' hmem hcores hcause hall ⊢
  by_cases h : AllHalted s
  · obtain ⟨h1, h2, h3⟩ := lowEnter_enters hlow (hdev' ▸ hdev) (hall.2 h)
    refine ⟨h2, fun p hp => ?_, fun _ => h1, fun hn => absurd h hn⟩
    rw [State.part, h3, ← State.part]
    exact hcause p hp
  · rw [lowEnter_waits fun hu => h (hall.1 hu)]
    exact ⟨hlow, hcause, fun hn => absurd hn h, fun _ => ⟨hdev', hmem, hcores⟩⟩

theorem numRule_low (s t0 : State) (v : Nat) : numRule s t0 ⟨0x02, 0x0007, 0⟩ v = if v = 0 then stOk
    else if s.dev ≠ .ready ∧ s.dev ≠ .degraded then stState else if s.launches ≠ [] then stBusy else stOk := rfl

theorem lowEnterAction_effect (s : State) (sid : Nat) (h : MaySet s sid ⟨0x02, 0x0007, 0⟩ (.num 1)) (hlow : s.wake.low = false) :
    ∃ t, exec (.lowEnter sid) s = .next t ∧ t.wake.low = true ∧ (∀ p < 16, (t.part p).hDevice = true) ∧
      ((∀ p < 16, partExists s p = true → (s.part p).halted = true) → t.dev = .low) ∧
      ((∃ p < 16, partExists s p = true ∧ (s.part p).halted = false) → t.dev = s.dev ∧ t.mem = s.mem ∧ t.cores = s.cores) := by
  obtain ⟨⟨t0, hrule⟩, m, hrun⟩ := setLow_runs h (by rw [hlow]; decide)
  have hdev : s.dev ≠ .low := fun hd => by
    rw [numRule_low, if_neg (by decide), if_pos (by rw [hd]; decide)] at hrule
    exact absurd hrule (by decide)
  have hexec : exec (.lowEnter sid) s = .next (lowSet { s with cfg := m }) := congrArg Host.Outcome.next hrun
  obtain ⟨h1, h2, h3, h4⟩ := lowSet_effect (s := { s with cfg := m }) hdev
  refine ⟨_, hexec, h1, h2, h3, fun hex => h4 fun hall => ?_⟩
  obtain ⟨p, hp, hexists, hrun⟩ := hex
  exact Bool.noConfusion ((hall p hp hexists).symm.trans hrun)

/-! ### LOW is left (R464) -/

theorem lowClear_running {s : State} (h : s.dev ≠ .low) : (lowClear s).wake.low = false ∧ (lowClear s).mem = s.mem ∧
    (lowClear s).cores = s.cores ∧ (lowClear s).dev = s.dev ∧ ∀ p < 16, ((lowClear s).part p).hDevice = false := by
  have hclear : lowClear s = setDeviceCause (modWake s fun w => { w with low := false }) false := if_neg h
  have hcause := fun p hp => hDevice_causeSet false s.parts (p := p) hp
  have hparts : (modWake s fun w => { w with low := false }).parts = s.parts := rfl
  rw [hclear, setDeviceCause_eq, hparts]
  generalize causeSet false s.parts = m at hcause ⊢
  exact ⟨rfl, rfl, rfl, rfl, hcause⟩

/-- R464: the CG domains that wait in RETENTION or go there. -/
def goingDown (s : State) : List Nat :=
  (List.range 96).filter fun g => domOf s g == .retention || (match mfind s.pwr.trans g with
    | some .retention => true
    | _ => false)

/-- R403: the domains of `gs` wait for their field's waves. -/
def waveAsked (gs : List Nat) (s : State) (n : Nat) : State :=
  modField s n (fun k => { k with powerUp := k.powerUp ++ gs.filter (fun g => g / 8 == n && !k.powerUp.contains g) })

/-- R464: state.low is cleared and every CG domain waits to return. -/
def lowReturning (s : State) (gs : List Nat) : State :=
  (List.range 12).foldl (waveAsked gs) (modPwr (modWake s fun w => { w with low := false }) fun w =>
    { w with trans := w.trans.filter (fun x => !gs.contains x.1) })

theorem lowClear_low {s : State} (h : s.dev = .low) : lowClear s = lowLeft (lowReturning s (goingDown s)) := if_pos h

theorem waveAsked_keeps (gs : List Nat) (s : State) (l : List Nat) : (l.foldl (waveAsked gs) s).mem = s.mem ∧
    (l.foldl (waveAsked gs) s).cores = s.cores ∧ (l.foldl (waveAsked gs) s).wake = s.wake :=
  List.foldlRecOn (motive := fun t : State => t.mem = s.mem ∧ t.cores = s.cores ∧ t.wake = s.wake) l (waveAsked gs) ⟨rfl, rfl, rfl⟩
    fun _ ht _ _ => ht

/-- What waits to be powered up stays. -/
def WavesKeep (s t : State) : Prop := ∀ n, ∀ g ∈ (s.field n).powerUp, g ∈ (t.field n).powerUp

theorem wavesKeep_waveAsked (gs : List Nat) (s : State) (n : Nat) : WavesKeep s (waveAsked gs s n) := fun m g hg => by
  by_cases hm : m = n
  · rw [hm] at hg ⊢
    rw [waveAsked, field_modField]
    exact List.mem_append_left _ hg
  · rw [waveAsked, field_modField_ne _ _ hm]
    exact hg

theorem waveAsked_asks {gs : List Nat} {g : Nat} (hg : g ∈ gs) (s : State) : g ∈ ((waveAsked gs s (g / 8)).field (g / 8)).powerUp := by
  rw [waveAsked, field_modField]
  by_cases h : g ∈ (s.field (g / 8)).powerUp
  · exact List.mem_append_left _ h
  · refine List.mem_append_right _ (List.mem_filter.2 ⟨hg, ?_⟩)
    simpa using h

theorem lowReturning_asks {gs : List Nat} {g : Nat} (hg : g ∈ gs) (h96 : g < 96) (s : State) :
    g ∈ ((lowReturning s gs).field (g / 8)).powerUp := by
  obtain ⟨u, -, hafter⟩ := foldl_through (R := WavesKeep) (fun _ _ _ h => h) (fun h k n g hg => k n g (h n g hg))
    (wavesKeep_waveAsked gs) (List.mem_range.2 (show g / 8 < 12 by omega))
    (modPwr (modWake s fun w => { w with low := false }) fun w => { w with trans := w.trans.filter (fun x => !gs.contains x.1) })
  exact hafter (g / 8) g (waveAsked_asks hg u)

theorem Tells.low {s t : State} (h : Tells s t) : t.wake.low = s.wake.low := by rw [h]

theorem wake_lowLeft (s : State) : (lowLeft s).wake.low = s.wake.low := by
  rw [lowLeft]
  split
  · rw [setDeviceCause_eq]
    generalize causeSet false s.parts = m
    obtain ⟨hstacks, -⟩ := foldl_modStack { s with parts := m } (fun k => { k with sref := false }) 16
    generalize (List.range 16).foldl (fun s i => modStack s i fun k => { k with sref := false }) { s with parts := m } = u at hstacks ⊢
    have hlow := congrArg (fun v : State => v.wake.low) hstacks
    change u.wake.low = s.wake.low at hlow
    have htells := tells_setDev u (if degradedBy u = 0 then .ready else .degraded) 0
    dsimp only
    generalize setDev u (if degradedBy u = 0 then .ready else .degraded) 0 = t at htells ⊢
    exact htells.low.trans hlow
  · rfl

theorem lowClear_returns {s : State} (h : s.dev = .low) : (lowClear s).wake.low = false ∧ (lowClear s).mem = s.mem ∧
    (lowClear s).cores = s.cores ∧ ∀ g < 96, domOf s g = .retention → g ∈ ((lowClear s).field (g / 8)).powerUp := by
  rw [lowClear_low h]
  obtain ⟨hmem, hcores, hwake⟩ := waveAsked_keeps (goingDown s) (modPwr (modWake s fun w => { w with low := false }) fun w =>
    { w with trans := w.trans.filter (fun x => !(goingDown s).contains x.1) }) (List.range 12)
  have hasks := fun g (hg : g ∈ goingDown s) h96 => lowReturning_asks hg h96 s
  change (lowReturning s (goingDown s)).mem = _ at hmem
  change (lowReturning s (goingDown s)).cores = _ at hcores
  change (lowReturning s (goingDown s)).wake = _ at hwake
  generalize lowReturning s (goingDown s) = u at hmem hcores hwake hasks ⊢
  obtain ⟨-, -, hcores', hmem', -⟩ := lowLeft_keeps u
  refine ⟨?_, hmem'.trans hmem, hcores'.trans hcores, fun g hg hret => ?_⟩
  · rw [wake_lowLeft, hwake]
    rfl
  · rw [State.field, fields_lowLeft, ← State.field]
    refine hasks g (List.mem_filter.2 ⟨List.mem_range.2 hg, ?_⟩) hg
    rw [hret]
    rfl

theorem lowExit_effect (s : State) (sid : Nat) (h : MaySet s sid ⟨0x02, 0x0007, 0⟩ (.num 0)) (hlow : s.wake.low = true) :
    ∃ t, exec (.lowExit sid) s = .next t ∧ t.wake.low = false ∧ t.mem = s.mem ∧ t.cores = s.cores ∧
      (s.dev ≠ .low → t.dev = s.dev ∧ ∀ p < 16, (t.part p).hDevice = false) ∧
      (s.dev = .low → ∀ g < 96, domOf s g = .retention → g ∈ (t.field (g / 8)).powerUp) := by
  obtain ⟨-, m, hrun⟩ := setLow_runs h (by rw [hlow]; decide)
  have hexec : exec (.lowExit sid) s = .next (lowClear { s with cfg := m }) := congrArg Host.Outcome.next hrun
  by_cases hdev : s.dev = .low
  · obtain ⟨h1, h2, h3, h4⟩ := lowClear_returns (s := { s with cfg := m }) hdev
    exact ⟨_, hexec, h1, h2, h3, fun hn => absurd hdev hn, fun _ => h4⟩
  · obtain ⟨h1, h2, h3, h4, h5⟩ := lowClear_running (s := { s with cfg := m }) hdev
    exact ⟨_, hexec, h1, h2, h3, fun _ => ⟨h4, h5⟩, fun hd => absurd hd hdev⟩

end Sys2Proof.Machine
end

section
/-!
O57: failed cores, field checks, and the settlement of O57 (R459, R478 to R480).
-/

namespace Sys2Proof.Machine
open Sys2Proof

theorem failCoreAction_effect (s : State) (sid c g col : Nat) (h : MayAct s sid ⟨0x30, 0x0021, 0⟩ (.num c)) (hg : g = c / 12)
    (hcol : col = (if c % 12 < (s.grp g).skip then c % 12 else c % 12 + 1)) (hmgmt : s.wake.mgmt = false) (hremap : (s.grp g).remap = none)
    (hskip : (s.grp g).skip = 12) (hspare : ((s.grp g).tdead ||| (s.grp g).rdead).testBit 12 = false) :
    ∃ t, exec (.failCore sid c) s = .next t ∧ (t.grp g).remap = some ⟨col, false⟩ ∧ (t.grp g).rst = true ∧
      SurveyAdds s t 1 (natBytes 1 (13 * (g / 8 % 3) + col) ++ natBytes 1 (8 * (g / 24) + g % 8) ++ natBytes 1 1 ++ natBytes 1 0) := by
  obtain ⟨e, hrule⟩ := h.rule
  have hpres : present s c = true := of_need (by decide) hrule
  have hexec : exec (.failCore sid c) s = .next (actFailCore s c) := congrArg Host.Outcome.next (byAction_of_mayAct h)
  rw [actFailCore] at hexec
  exact ⟨_, hexec, failCore_remaps hpres hg hcol 4 hmgmt hremap hskip hspare⟩

/-! ### Field checks (R478 to R480) -/

/-- R480: the next named group of field `n` comes under check. -/
def checkField (s : State) (n : Nat) : State :=
  match checkTurn s n with
  | none => s
  | some g => if (s.grp g).check || (s.grp g).lost then s else modGrp (resetGroup s g true) g (fun k => { k with check := true })

theorem checkNext_eq (s : State) : checkNext s = (List.range 12).foldl checkField s := rfl

/-- The check that is under way stands, and so do the groups that it has come to. -/
structure ChecksHold (s t : State) : Prop where
  check : t.wake.check = s.wake.check
  lost : ∀ g, (t.grp g).lost = (s.grp g).lost
  under : ∀ g, (s.grp g).check = true → (t.grp g).check = true

theorem ChecksHold.refl (s : State) : ChecksHold s s := ⟨rfl, fun _ => rfl, fun _ => id⟩

theorem ChecksHold.trans {s t u : State} (h : ChecksHold s t) (k : ChecksHold t u) : ChecksHold s u :=
  ⟨k.check.trans h.check, fun g => (k.lost g).trans (h.lost g), fun g => k.under g ∘ h.under g⟩

theorem Resets.check {s t : State} (h : Resets s t) : t.wake.check = s.wake.check := by rw [h.lands.rest]

theorem Resets.checksHold {s t : State} (h : Resets s t) : ChecksHold s t := by
  refine ⟨h.check, fun g => ?_, fun g hg => ?_⟩
  · rw [h.grp]
  · rw [h.grp]
    exact hg

theorem checksHold_modGrp (s : State) (g : Nat) {f : Group → Group} (hlost : ∀ k, (f k).lost = k.lost)
    (hcheck : ∀ k, k.check = true → (f k).check = true) : ChecksHold s (modGrp s g f) := by
  refine ⟨rfl, fun x => ?_, fun x hx => ?_⟩
  · by_cases h : x = g
    · rw [h, grp_modGrp]
      exact hlost _
    · rw [grp_modGrp_ne _ _ h]
  · by_cases h : x = g
    · rw [h] at hx ⊢
      rw [grp_modGrp]
      exact hcheck _ hx
    · rw [grp_modGrp_ne _ _ h]
      exact hx

theorem checksHold_resetGroup (s : State) (g : Nat) (clear : Bool) : ChecksHold s (resetGroup s g clear) :=
  (checksHold_modGrp s g (f := fun k => { k with rst := true }) (fun _ => rfl) fun _ => id).trans (resetGroup_resets s g clear).1.checksHold

theorem checksHold_checkField (s : State) (n : Nat) : ChecksHold s (checkField s n) := by
  rw [checkField]
  split
  · exact .refl s
  · next g _ =>
    split
    · exact .refl s
    · exact (checksHold_resetGroup s g true).trans (checksHold_modGrp _ g (fun _ => rfl) fun _ _ => rfl)

theorem checkField_checks {s : State} {n g : Nat} (hturn : checkTurn s n = some g) (hlost : (s.grp g).lost = false) :
    ((checkField s n).grp g).check = true := by
  rw [checkField, hturn]
  dsimp only
  rw [hlost, Bool.or_false]
  split
  · next hc => exact hc
  · rw [grp_modGrp]

theorem checksHold_checkNext (s : State) : ChecksHold s (checkNext s) := by
  rw [checkNext_eq]
  exact List.foldlRecOn (motive := fun t => ChecksHold s t) _ checkField (.refl s) fun t ht n _ => ht.trans (checksHold_checkField t n)

theorem checkNext_checks {s : State} {g : Nat} (hg : g < 96) (hturn : checkTurn s (g / 8) = some g) (hlost : (s.grp g).lost = false) :
    ((checkNext s).grp g).check = true := by
  obtain ⟨u, hbefore, hafter⟩ := foldl_through (R := ChecksHold) .refl .trans checksHold_checkField
    (List.mem_range.2 (show g / 8 < 12 by omega)) s
  rw [checkNext_eq]
  refine hafter.under g (checkField_checks ?_ ((hbefore.lost g).trans hlost))
  rw [checkTurn, hbefore.check]
  exact hturn

/-- A field check of the groups and units that are named, as it begins. -/
def checkAsked (s : State) (v : Bytes) : State :=
  modWake s fun w => { w with check := { st := 1, groups := checkGroups v, units := checkUnits v, gres := [], ures := [] } }

theorem fieldCheck_runs {s : State} {sid : Nat} {v : Bytes} (h : MayAct s sid ⟨0x30, 0x0030, 0⟩ (.blob v)) :
    exec (.fieldCheck sid v) s = .next (checkEnd (checkNext (checkAsked s v))) := by
  have hexec : exec (.fieldCheck sid v) s = .next (actCheck s v) := congrArg Host.Outcome.next (byAction_of_mayAct h)
  rw [hexec]
  rfl

theorem fieldCheck_nothing {s : State} {sid : Nat} {v : Bytes} (h : MayAct s sid ⟨0x30, 0x0030, 0⟩ (.blob v)) (hgroups : checkGroups v = [])
    (hunits : checkUnits v = []) : ∃ t, exec (.fieldCheck sid v) s = .next t ∧ t.wake.check.st = 2 ∧ t.mem = s.mem ∧ t.cores = s.cores := by
  have hcheck : (checkAsked s v).wake.check = ⟨1, checkGroups v, checkUnits v, [], []⟩ := rfl
  have hkeep : (checkAsked s v).mem = s.mem ∧ (checkAsked s v).cores = s.cores := ⟨rfl, rfl⟩
  have hnone : checkNext (checkAsked s v) = checkAsked s v := checkNext_none (by rw [hcheck]; exact hgroups)
  rw [fieldCheck_runs h, hnone]
  generalize checkAsked s v = u at hcheck hkeep
  rw [checkEnd, hcheck, hgroups, hunits]
  dsimp only
  rw [if_pos ⟨rfl, rfl, rfl⟩]
  have hend := actsEnd_endAsync (modWake u fun w => { w with check := { w.check with st := 2 } }) 4 0
  generalize endAsync (modWake u fun w => { w with check := { w.check with st := 2 } }) 4 0 = t at hend
  rw [hend]
  exact ⟨_, rfl, rfl, hkeep⟩

theorem fieldCheck_begins {s : State} {sid : Nat} {v : Bytes} (h : MayAct s sid ⟨0x30, 0x0030, 0⟩ (.blob v))
    (hnamed : checkGroups v ≠ [] ∨ checkUnits v ≠ []) : ∃ t, exec (.fieldCheck sid v) s = .next t ∧ t.wake.check.st = 1 ∧
      t.wake.check.groups = checkGroups v ∧ t.wake.check.units = checkUnits v ∧
      ∀ g, (checkGroups v).find? (fun x => x / 8 == g / 8) = some g → (s.grp g).lost = false → (t.grp g).check = true := by
  have hcheck : (checkNext (checkAsked s v)).wake.check = ⟨1, checkGroups v, checkUnits v, [], []⟩ := (checksHold_checkNext (checkAsked s v)).check
  have hchecks : ∀ g, (checkGroups v).find? (fun x => x / 8 == g / 8) = some g → (s.grp g).lost = false →
      ((checkNext (checkAsked s v)).grp g).check = true := fun g hfind hlost => by
    have hg := List.mem_range.1 (List.mem_filter.1 (List.mem_of_find?_eq_some hfind)).1
    exact checkNext_checks hg hfind hlost
  rw [fieldCheck_runs h]
  generalize checkNext (checkAsked s v) = u at hcheck hchecks ⊢
  have hend : checkEnd u = u := by
    rw [checkEnd, hcheck]
    exact if_neg fun ⟨_, hgroups, hunits⟩ => hnamed.elim (absurd hgroups) (absurd hunits)
  rw [hend]
  exact ⟨u, rfl, by rw [hcheck], by rw [hcheck], by rw [hcheck], hchecks⟩

/-- Settles O57: every action, and a SET of state.low, as a session that may perform it brings it about; one of no session does nothing. -/
theorem actionsTakeEffect : Obligations.ActionsTakeEffect := by
  unfold Obligations.ActionsTakeEffect
  exact ⟨actions_of_noSession, fun s sid n => surveyRevoke_effect, fun s sid => epochAdvance_effect,
    fun s sid p => ⟨portResetAction_effect, portAdmit_effect⟩, fun s sid b k => bundleKeySwitch_effect,
    fun s sid x st page => memoryRetire_effect, fun s sid p => partitionReset_effect, fun s sid => echoResync_effect,
    domainSwitch_effect, fun s sid c => auxReset_effect,
    fun s sid => ⟨coldStartAction_effect, stateRelease_effect, warmStart_effect, computeReset_effect, managementRestart_effect⟩,
    lowEnterAction_effect, lowExit_effect, fun s sid c => coreReset_effect, failCoreAction_effect,
    fun s sid v h => ⟨fieldCheck_nothing h, fieldCheck_begins h⟩, fun s sid q => alertAck_effect, fun s sid v => enroll_effect,
    fun s sid k e => slotRevoke_effect, fun s sid => ⟨factoryReset_effect, countersClear_effect⟩,
    fun s sid flags => firmwareActivate_effect, fun s sid b => firmwareConfirm_effect, fun s sid b => firmwareRevert_effect⟩

end Sys2Proof.Machine
end
